-- ==== Sys2Proof/Word.lean ====
section
/-! DEFINITION. The machine's words. The spec numbers nearly every value as a plain unsigned field of a stated
width, so a value is a natural number held below its width; a signed value is an integer. Octets are bytes. -/
namespace Sys2Proof

/-- An octet of a transaction, a blob, a frame or a memory. -/
abbrev Byte := BitVec 8

/-- A string of octets, first octet first. -/
abbrev Bytes := List Byte

/-- An Isobar instant or span, counted in the fraction unit of R26: 2⁻¹⁶ ns. -/
abbrev Instant := Nat

end Sys2Proof
end

