-- ==== Sys2Proof/Syntax.lean ====
section
/-! DEFINITION. The commands of the block: one constructor of `Instr` for each row of spec/opcode_table.json, and the
data a command carries. A command names what happens at the block's boundary (a register access, a message or frame
received, an edge at a pin, an instant of Isobar reached); the facts only the outside world knows are its operands. -/

namespace Sys2Proof

/-- A transport instance of the dictionary (Table DIC-7): the transport number, and the mailbox slot, UDP requester
or node behind it. -/
structure Inst where
  tr : Nat
  sub : Nat := 0
  /-- SEQ of the request's envelope, and whether it was authenticated (R121, R122) -/
  seq : Nat := 0
  auth : Bool := false
  /-- source address and port of a UDP request, to which its response goes (R124) -/
  peer : Bytes × Nat := ([], 0)
deriving DecidableEq, Repr

/-- A launch record (Table ISB-6) without its read-only bytes. -/
structure LaunchRec where
  time : Nat
  frac : Nat := 0
  typ : Nat
  flags : Nat := 1
  target : Nat := 0
  arg : Nat := 0
  period : Nat := 0
deriving DecidableEq, Repr

/-- The IEEE 1588 messages the port can meet (R33). -/
inductive PtpKind where
  | announce | sync | followUp | delayReq | delayResp | other
deriving DecidableEq, Repr

/-- A received PTP message: the header fields R33 and R35 act on. `port` is 0–7 for a data port and 8 for the
management port; `time` is the origin or receive timestamp with its correction, in 2⁻¹⁶ ns; `sender`: the clock that sent
it; `requester`: of a Delay_Resp, the clock it answers; `transport`: as key 1020:05 codes it. -/
structure PtpMsg where
  kind : PtpKind
  port : Nat
  domain : Nat := 0
  seqId : Nat := 0
  twoStep : Bool := true
  time : Nat := 0
  gm : Nat := 0
  priority1 : Nat := 128
  clockClass : Nat := 248
  accuracy : Nat := 0xFE
  variance : Nat := 0xFFFF
  priority2 : Nat := 128
  steps : Nat := 0
  utcOffset : Int := 37
  sender : Nat := 0
  requester : Nat := 0
  transport : Nat := 0
  malformed : Bool := false
deriving DecidableEq, Repr

/-- A Lanok header's link fields (Table FLD-2): SEQ and ACK. -/
structure LHdr where
  seq : Nat
  ack : Nat
deriving DecidableEq, Repr

/-- A CAN frame's form (R104): a 29-bit identifier, a remote frame, an FD frame. -/
structure CanForm where
  ext : Bool := false
  remote : Bool := false
  fd : Bool := true
deriving DecidableEq, Repr

/-- What a node finds for its status reply (Table FLD-6): PRESENT, DELTA, REPEAT, and its flags FAULT, LOOP_A, LOOP_B and
NO_INDEX in the places of FLAGS. The rest of the reply is the node's state. -/
structure NodeStatus where
  present : Nat
  delta : Int
  repeatPs : Int
  flags : Nat := 0
deriving DecidableEq, Repr

/-- A node's answer to a POLL (R80), by reply kind. -/
inductive PollAnswer where
  | status (st : NodeStatus)
  | identity (serial cls fw : Nat)
  | endpoints (types presence : Nat)
  | message (segment : Bytes)
  | missing
deriving DecidableEq, Repr

/-- A corruption on a trunk as its frames at T pass (R72): the copy, the number of receivers before it on the copy's way
(a node, or the port at the end), and the section: 0 header, 1 downstream audio, 2 downstream control, 3–6 upstream
blocks, 7–22 event blocks, 23 upstream message. -/
structure SectErr where
  trunk : Nat
  ccw : Bool := false
  hop : Nat := 0
  section_ : Nat
deriving DecidableEq, Repr

/-- What is not the block's own in the return of the oldest frame pair on its way: which copies reached a port, the loop
delay of R90, what the polled node finds for its answer. -/
structure FrameReturn where
  cw : Bool := true
  ccw : Bool := true
  loopPs : Nat := 0
  answer : PollAnswer := .missing
  /-- ENUM frame: the HOP count reached, the number of nodes on the ring -/
  hops : Nat := 0
  /-- nodes that joined with no index, or with one in use (R88) -/
  joined : Nat := 0
  /-- beacon of the peer's field die in this frame (R450), as read -/
  beacon : Bool := false
deriving DecidableEq, Repr

/-- A work item as presented at a source port (Table SCH-1). -/
structure Item where
  typ : Nat
  level : Nat := 4
  flags : Nat := 0
  flow : Nat := 0
  affinity : Nat := 0
  cls : Nat := 0
  delay : Nat := 0
  source : Nat := 0
  dedup : Nat := 0
  accept : Nat := 0
  reserved : Nat := 0
  payload : Bytes := []
deriving DecidableEq, Repr

/-- A Seal request as its source presents it (Table SEA-2). `source`: the number of R409. `me`: the engine whose item
carries it. `msgHost` and `areaHost`: the octets at a PCIe bus address (FLAGS). `busOk`: every bus access completes. -/
structure SealReq where
  source : Nat := 3
  me : Nat := 0
  op : Nat
  slot : Nat
  tagLen : Nat := 16
  flags : Nat := 0
  len : Nat := 0
  msgAddr : Nat := 0
  resAddr : Nat := 0
  reserved : Nat := 0
  msgHost : Bytes := []
  areaHost : Bytes := []
  busOk : Bool := true
deriving DecidableEq, Repr

/-- A load record (Table SEA-1). `checkOk`: CHECK matches. -/
structure KeyRec where
  kind : Nat
  target : Nat
  alg : Nat := 0
  owner : Nat := 0
  limitLog2 : Nat := 0
  pad : Nat := 0
  timing : Nat := 0
  key : Bytes := []
  salt : Bytes := []
  checkOk : Bool := true
deriving DecidableEq, Repr

/-- The output actions of a completing item (R143). -/
inductive OutAct where
  | queueRelease (queue : Nat) (cells : Nat)
  | enqueue (it : Item)
  | dictUpdate (index sub : Nat) (value : Nat)
  | notify (vector : Nat)
  | failed (code : Option Nat)
deriving DecidableEq, Repr

/-- An AV1 dependency descriptor as it parses: frame bounds, the frame's layer ids, the template dependency structure if
it carries one (layer codes of its decode targets; S3T3), the decode target indication for each layer code (0 not
present, 1 discardable, 2 switch, 3 required), whether it ends within the first 224 octets of its frame, its octets. -/
structure DepDesc where
  start : Bool := true
  fin : Bool := true
  spatial : Nat := 0
  temporal : Nat := 0
  template : Option (List Nat × Bool) := none
  dti : List (Nat × Nat) := []
  fits : Bool := true
  size : Nat := 4
deriving DecidableEq, Repr

/-- A block of a coded picture in decoding order: its rectangle in luma pixels; whether it has to be concealed (R325);
frames it is inter predicted from, with the first and last tracking column it reads of each; earlier blocks of the picture
whose samples it is intra predicted from (R327). -/
structure Block where
  x : Nat
  y : Nat
  w : Nat
  h : Nat
  concealed : Bool := false
  inter : List (Nat × Nat × Nat) := []
  intra : List Nat := []
deriving DecidableEq, Repr

/-- A coded picture as the packets received of it parse: its frame number; size and depth; monochrome; within Table VID-1;
film grain parameters; a key frame; shown (or in output order); the frames its decoding needs, first reference first; the
frames the codec's rules keep as references after it; its blocks. -/
structure PicInfo where
  number : Nat
  width : Nat
  height : Nat
  depth : Nat := 8
  mono : Bool := false
  supported : Bool := true
  grain : Bool := false
  key : Bool := false
  shown : Bool := true
  needs : List Nat := []
  keeps : List Nat := []
  blocks : List Block := []
deriving DecidableEq, Repr

/-- An RTP packet: header extension elements by ID, the descriptor of R298 in its element, and whether it is an H.264
switch point of R300; what the packets of its picture received so far parse as. -/
structure Rtp where
  pt : Nat := 96
  seq : Nat := 0
  ts : Nat := 0
  ssrc : Nat := 0
  marker : Bool := false
  exts : List (Nat × Bytes) := []
  dd : Option DepDesc := none
  switchPoint : Bool := false
  pic : Option PicInfo := none
  payload : Bytes := []
deriving DecidableEq, Repr

/-- What an SRTP or SRTCP packet was protected under: suite, key, salt and index; none where no key opens it. -/
structure Prot where
  alg : Nat
  key : Bytes
  salt : Bytes
  index : Nat
deriving DecidableEq, Repr

/-- Contents of an RTCP packet the hub reads or sends (R306). Feedback: transport-wide sequence number ↦ receive time in
ns, none for lost. `ntp` is the 64-bit NTP timestamp of a sender report. -/
inductive RtcpItem where
  | feedback (ssrc : Nat) (reports : List (Nat × Option Int))
  | pli (ssrc : Nat)
  | fir (ssrc seq : Nat)
  | sr (ssrc ntp rtp packets octets : Nat)
  | block (ssrc fraction lost highest jitter lsr dlsr : Nat)
  | other
deriving DecidableEq, Repr

/-- What a UDP payload parses as. -/
inductive UdpPay where
  | rtp (r : Rtp) (prot : Option Prot)
  | rtcp (items : List RtcpItem) (prot : Option Prot)
  | ptp (m : PtpMsg)
  | other
deriving DecidableEq, Repr

/-- The checksum of a UDP datagram: sent as 0, right, wrong. -/
inductive UdpSum where
  | zero | right | wrong
deriving DecidableEq, Repr

/-- A UDP datagram: ports, its first two payload octets, its payload. -/
structure Udp where
  sport : Nat
  dport : Nat
  sum : UdpSum := .right
  b0 : Nat := 0x80
  b1 : Nat := 0x60
  pay : UdpPay := .other
  octets : Bytes := []
deriving DecidableEq, Repr

/-- ICMP and its relatives (row 9 of Table PKT-3, R257). -/
inductive Icmp where
  | echo | neighbour | query | other
deriving DecidableEq, Repr

/-- What an Ethernet frame carries. -/
inductive Body where
  | arp (target : Nat)
  | icmp (kind : Icmp)
  | udp (u : Udp)
  | pause (quanta : Nat)
  | pfc (enabled : Nat) (quanta : List Nat)
  | ptp (m : PtpMsg)
  | other
deriving DecidableEq, Repr

/-- An IP header: version 6, addresses, DSCP, octets of its header chain; a fragment; a bad header checksum or length; an
extension header of row 8 of Table PKT-3. -/
structure Ip where
  v6 : Bool := false
  src : Bytes
  dst : Bytes
  dscp : Nat := 0
  hlen : Nat := 20
  fragment : Bool := false
  bad : Bool := false
  deep : Bool := false
deriving DecidableEq, Repr

/-- A received Ethernet frame: its length L without FCS, its stamp (R239), its defects, its addresses, tag (VID, PCP),
contents, and all its octets for what carries frames as received. -/
structure Frame where
  len : Nat
  arrival : Nat
  fcsBad : Bool := false
  pcsBad : Bool := false
  dst : Nat
  src : Nat := 0
  tag : Option (Nat × Nat) := none
  ip : Option Ip := none
  body : Body
  octets : Bytes := []
deriving DecidableEq, Repr

/-- One slot of a leg media checkpoint (R309). -/
structure SlotCkpt where
  limit : Nat := 0
  tsOff : Nat := 0
  lastTs : Option Nat := none
  lastArr : Nat := 0
  cur : Nat := 0xFF
  want : Nat := 0xFF
  source : Nat := 0
deriving DecidableEq, Repr

/-- A DRAM request (R393): requester of Table ARC-5; hub address, or offset in the local region of a channel; octets to
write, or none for a read of `len` octets. What its ECC check found: lines with a single-bit error, an uncorrectable error;
command retries after CA parity alerts or write CRC errors (R385, R391). -/
structure MemReq where
  requester : Nat
  channel : Option Nat := none
  addr : Nat
  write : Option Bytes := none
  len : Nat := 0
  corrected : Nat := 0
  bad : Bool := false
  retries : Nat := 0
deriving DecidableEq, Repr

/-- A leg media checkpoint (R309): the audio slot and V0–V2; the transport-wide counter; E; received SSRC ↦ highest
index. -/
structure LegCkpt where
  leg : Nat
  slots : List SlotCkpt := []
  tw : Nat := 0
  estimate : Nat := 0
  highest : List (Nat × Nat) := []
deriving DecidableEq, Repr

end Sys2Proof
namespace Sys2Proof.Machine

/-- Sparse data by key: keys strictly rising, no entry equal to what an unlisted key holds. -/
abbrev Tab (α : Type) := List (Nat × α)

/-- Messages of the Lanok link (Table FLD-3). -/
inductive LMsg where
  | timeXfer (t frac : Nat) (isbState : Nat) (freq : Int)
  | timeEcho (sent : Nat) (hold : Nat)
  | heartbeat (mode field role epoch : Nat)
  | wake (source data : Nat) (at_ : Nat)
  | audioUp (trunk block : Nat) (frameTime : Nat) (valid : Nat) (samples : List (List Int))
  | audioDown (frameTime : Nat) (samples : List (List Int))
  | nodeEvent (node code : Nat) (frameTime : Nat)
  | nodeClear (node : Nat)
  | nodeAck (node : Nat)
  | dictReq (inst : Inst) (body : Bytes)
  | dictRsp (inst : Inst) (body : Bytes)
  | launchCmd (num : Nat) (rec : LaunchRec)
  | launchCancel (num : Nat)
  | launchReport (num trunk state late reason : Nat)
  | power (kind : Nat) (arg : Nat)
deriving DecidableEq, Repr

/-- A launch held in a hub slot, or armed by the device itself under a number from 0400h (R54). -/
structure Launch where
  time : Nat := 0
  frac : Nat := 0
  typ : Nat := 0
  flags : Nat := 0
  target : Nat := 0
  arg : Nat := 0
  period : Nat := 0
  /-- STATE of Table ISB-6: 0 IDLE, 1 ARMED, 2 COMMITTED, 3 FIRED, 4 LATE, 5 CANCELLED, 6 FAILED -/
  state : Nat := 0
  reason : Nat := 0
  /-- its instant had passed when it was accepted (R51), or a step of Isobar has passed it (R39); it takes effect from an
  instant on -/
  late : Bool := false
  from_ : Instant := 0
  /-- the Isobar comparator it claims -/
  comparator : Option Nat := none
  /-- trunk launch slots it claims: (trunk, class 6 instance) -/
  trunks : List (Nat × Nat) := []
  /-- trunks whose LAUNCH_REPORT has not arrived -/
  unreported : List Nat := []
  /-- LAUNCH_CMD has carried it to the field die -/
  carried : Bool := false
  /-- its effect at the hub has been made (votes) -/
  hubDone : Bool := false
  /-- kind 3 owner of a launch the device armed (R127): 0 talker manager, 1 other -/
  firmware : Option Nat := none
  /-- times the record has been written: the repeat key of class 4 -/
  writes : Nat := 0
deriving DecidableEq, Repr

/-- A vote session (R95, R96). -/
structure Vote where
  openAt : Instant := 0
  closeAt : Instant := 0
  /-- node ↦ its counted choice -/
  votes : Tab Nat := []
deriving DecidableEq, Repr

/-- A staged item with what the scheduler keeps of it. -/
structure Staged where
  it : Item
  accept : Nat := 0
  /-- staging cluster; 8 when no cluster holds it any more -/
  cluster : Nat := 0
  /-- eligible on every ME at once: its clusters are gone (R133) -/
  anywhere : Bool := false
  /-- instant from which it has been among the first 8 of its list, and whether AFFINITY_WAIT has passed since (R136) -/
  firstAt : Option Instant := none
  waited : Bool := false
  due : Instant := 0
  readyAt : Instant := 0
  startedAt : Instant := 0
  retries : Nat := 0
  /-- run limit its type had when it was dispatched (R139, R185), and the time tick kernels have taken from its run (R177) -/
  limit : Instant := 0
  paused : Instant := 0
  /-- the engine of its last faulted run, which it is not dispatched to again (R154) -/
  notMe : Option Nat := none
deriving DecidableEq, Repr

/-- A durable action: what an accepted journal entry does (Table SCH-5). -/
inductive Durable where
  | dictWrite (inst : Inst) (tag : Nat) (index sub : Nat) (value : Bytes)
  | group (inst : Inst) (tag : Nat) (writes : List (Nat × Nat × Bytes))
  /-- `stage`: the block of the staging store that holds the value while its entry lives -/
  | blobClose (inst : Inst) (tag : Nat) (index sub : Nat) (value : Bytes) (stage : Nat)
  | nodeEvent (node code : Nat) (frameTime : Nat)
  | nodeClear (node : Nat)
  | launchArm (slot : Nat) (rec : LaunchRec)
  | launchCancel (slot : Nat)
  | legCtrl (inst : Inst) (tag leg : Nat) (txn : Nat) (op : Nat) (body : Bytes)
  | voteSeal (session : Nat) (openAt : Nat)
  | host (st : Staged) (slot : Nat)
deriving DecidableEq, Repr

/-- A journal entry with its continuations (Table SCH-6). -/
structure JEntry where
  accept : Nat
  cls : Nat
  /-- 0 written, copies not yet complete; 1 ACCEPTED; 2 COMMITTED; 3 POISONED -/
  state : Nat := 0
  cont : Nat := 0
  source : Nat := 0
  typ : Nat := 0
  flow : Nat := 0xFFFF
  dedup : Nat := 0
  time : Instant := 0
  writtenAt : Instant := 0
  level : Nat := 0
  retries : Nat := 0
  peerAck : Bool := false
  /-- its place in the journal, continuations following; the block of the staging store its BODY refers to -/
  place : Nat := 0
  stage : Nat := 0
  act : Durable
  /-- RWP keys the entry wrote that no flash write started after its acceptance has stored -/
  unpersisted : List Nat := []
deriving DecidableEq, Repr

/-- The durable state a checkpoint holds (R149). -/
structure Snapshot where
  highest : Nat := 0
  regs : Tab Nat := []
  blobs : Tab (Option Bytes) := []
  isOpen : List Nat := []
  votes : Tab Vote := []
  lastVote : Option Nat := none
  launches : Tab Launch := []
  claims : Tab Nat := []
  /-- crosspoint banks 0 and 1; equaliser banks, input 0 and 1, output 0 and 1 -/
  banks : List (Tab Nat) := []
  sections : List (Tab Bytes) := []
deriving DecidableEq, Repr

/-- Messages of the pair link (Table FLT-4). A checkpoint is carried whole by its last SYNC segment. -/
inductive PMsg where
  | heartbeat (role mode pairState : Nat) (hubOk : Bool) (lastAccept time reachable : Nat)
  | jrnlCopy (entries : List JEntry)
  | jrnlAck (held : Nat)
  | jrnlMark (committed freed : Nat)
  | staged (addr off : Nat) (octets : Bytes)
  | legCkpt (c : LegCkpt)
  | sync (part total : Nat) (snap : Option Snapshot)
  /-- the sender's and the receiver's new roles, the new EPOCH, the next index of each leg slot (leg, slot, index) -/
  | role (mine yours epoch : Nat) (finals : List (Nat × Nat × Nat))
  | relayDown (frameTime : Nat) (samples : List (List Int))
  | relayUp (trunk block frameTime valid : Nat) (samples : List (List Int))
  /-- a Lanok message relayed whole; `toField`: to the standby's field die -/
  | relayMsg (toField : Bool) (m : LMsg)
  | timeEcho (sent hold : Nat)
deriving DecidableEq, Repr

end Sys2Proof.Machine
namespace Sys2Proof

/-- What the boot finds of a DDR4 channel (R386, R397): the SPD its module answers over SMBus, none where it is missing or
unreadable; its module's temperature in 0.125 °C (8000h no sensor); whether an attempt of its training ended well. -/
structure ChFact where
  channel : Nat
  spd : Option Bytes := none
  temp : Nat := 0x8000
  trained : Bool := true
deriving DecidableEq, Repr

open Sys2Proof.Machine (JEntry Snapshot LMsg)

/-- What a vector search ends at (R335): the best whole-pixel vector, and the half-pixel and quarter-pixel steps around it in
each direction: 0 back, 1 none, 2 on. -/
structure Motion where
  whole : Int × Int
  half : Fin 3 × Fin 3 := (1, 1)
  quarter : Fin 3 × Fin 3 := (1, 1)
deriving DecidableEq, Repr

/-- How VENC codes a block: intra from samples left of luma column `readsTo`; inter with the vector of its search; skipped with
the predicted vector, in quarter luma pixels. -/
inductive EncMode where
  | intra (readsTo : Nat)
  | inter (m : Motion)
  | skip (v : Int × Int)
deriving DecidableEq, Repr

/-- A block of an encoded picture: its luma position and size. -/
structure EncBlock where
  x : Nat
  y : Nat
  w : Nat
  h : Nat
  mode : EncMode
deriving DecidableEq, Repr

/-- A coded row: bits spent, the refresh bits among them, its blocks. -/
structure EncRow where
  bits : Nat := 0
  refresh : Nat := 0
  blocks : List EncBlock := []
deriving DecidableEq, Repr

/-- The header of a pair link message (R452): SEQ, ACK, EPOCH. -/
structure PHdr where
  seq : Nat
  ack : Nat
  epoch : Nat
deriving DecidableEq, Repr

/-- A command: one row of spec/opcode_table.json. -/
inductive Instr where
  /-- REGISTER_WRITE (R6): write `data` of `width` octets at `offset` of BAR `bar` -/
  | registerWrite (bar : Nat) (offset : Nat) (width : Nat) (data : Nat)
  /-- BAD_REGISTER_ACCESS (R7): an access of PCIe function `fn`, of a width or alignment not allowed there; `read`: it is a read -/
  | badRegisterAccess (fn bar : Nat) (offset : Nat) (read : Bool)
  /-- ISOBAR_FINE_TICK (R27) -/
  | isobarFineTick
  /-- NOW_LO_READ (R30): by PCIe function `fn` -/
  | nowLoRead (fn : Nat)
  /-- SOURCE_QUALIFY (R35): source code minus 1; its measured offset, reference minus Isobar in 2⁻¹⁶ ns -/
  | sourceQualify (src : Fin 4) (offset : Int)
  /-- SOURCE_STOP_TIMEOUT (R35) -/
  | sourceStopTimeout (src : Fin 4)
  /-- SLEW_END (R36) -/
  | slewEnd
  /-- PPS_IN_EDGE (R34) -/
  | ppsInEdge (rising : Bool)
  /-- PTP_MESSAGE (R33) -/
  | ptpMessage (m : PtpMsg)
  /-- PTP_SYNC_INTERVAL (R33) -/
  | ptpSyncInterval
  /-- ISB_STEP (R29) -/
  | isbStep (inst : Inst) (tag : Nat) (ns : Nat)
  /-- TOD_SET (R34) -/
  | todSet (inst : Inst) (tag : Nat) (ns : Nat)
  /-- BARRIER_DELAY_MEASURE (R42) -/
  | barrierDelayMeasure
  /-- LIMP_ENTRY (R435): `osc`: the board oscillator has stopped; the PLL lock flags -/
  | limpEntry (osc : Bool) (locks : Nat)
  /-- LAUNCH_ARM (R47): the 32-bit word written at bytes 8–11 -/
  | launchArm (slot : Fin 1024) (word : Nat)
  /-- LAUNCH_CANCEL (R53): a BAR0 write of ARM 0 (none), or key 1040:03 -/
  | launchCancel (slot : Fin 1024) (via : Option Inst) (tag : Nat)
  /-- LAUNCH_WINDOW_WRITE (R47): 4 or 8 octets -/
  | launchWindowWrite (slot : Fin 1024) (offset : Fin 32) (octets : Bytes)
  /-- LAUNCH_RECORD (R47): of the slot SLOT_SELECT names -/
  | launchRecord (inst : Inst) (tag : Nat) (rec : LaunchRec)
  /-- LAUNCH_COMMIT (R53) -/
  | launchCommit (num : Nat)
  /-- LAUNCH_WAKE_LEAD (R55) -/
  | launchWakeLead (num : Nat)
  /-- XP_SWAP (R211): the launch of that type due first (R54) -/
  | xpSwap
  /-- EQ_SWAP (R215) -/
  | eqSwap
  /-- SRC_SWITCH (R304): the launch of that type due first (R54) -/
  | srcSwitch
  /-- LAYER_SWAP (R356): the launch of that type due first (R54) -/
  | layerSwap
  /-- GATE_TAKEOVER (R280): the launch of that type due first (R54) -/
  | gateTakeover
  /-- LX_EDGE (R60): the launch of that type due first (R54) -/
  | lxEdge
  /-- LX_PULSE_END (R60) -/
  | lxPulseEnd (n : Fin 4)
  /-- SAP_GROUP (R199): the launch of that type due first (R54) -/
  | sapGroup
  /-- HALL_HANDOVER (R102) -/
  | hallHandover
  /-- FIELD_MAP_SWAP (R74) -/
  | fieldMapSwap
  /-- VOTE_OPEN (R95) -/
  | voteOpen
  /-- VOTE_CLOSE (R96) -/
  | voteClose
  /-- VOTE_SEAL (R96) -/
  | voteSeal (session : Fin 16)
  /-- NODE_ACTION_OFF (R512): the launch of that action the node holds and that applies first -/
  | nodeActionOff (node : Nat)
  /-- NODE_ACTION_ON (R512) -/
  | nodeActionOn (node : Nat)
  /-- NODE_ACTION_LED (R512) -/
  | nodeActionLed (node : Nat)
  /-- SLOT_ASSIGN (R78) -/
  | slotAssign (node : Nat)
  /-- SLOT_RELEASE (R78) -/
  | slotRelease (node : Nat)
  /-- SELECT_CHANNEL (R76) -/
  | selectChannel (node : Nat)
  /-- NODE_ACTION_GAIN (R512) -/
  | nodeActionGain (node : Nat)
  /-- LAUNCH_CMD (R94): none: a cancel -/
  | launchCmd (h : LHdr) (num : Nat) (rec : Option LaunchRec)
  /-- LAUNCH_REPORT (R50) -/
  | launchReport (h : LHdr) (num trunk state late reason : Nat)
  /-- PPS_OUT_EDGE (R59) -/
  | ppsOutEdge (n : Fin 2)
  /-- PPS_OUT_PULSE_END (R59) -/
  | ppsOutPulseEnd (n : Fin 2)
  /-- PPS_EN (R59) -/
  | ppsEn (inst : Inst) (tag : Nat) (n : Fin 2) (on : Bool)
  /-- LX_EN (R60) -/
  | lxEn (inst : Inst) (tag : Nat) (n : Fin 4) (on : Bool)
  /-- ISOBAR_ALARM (R431) -/
  | isobarAlarm
  /-- FIELD_RESET (R62) -/
  | fieldReset
  /-- FIELD_START (R468) -/
  | fieldStart
  /-- POWER_SEQUENCE_STEP (R98) -/
  | powerSequenceStep
  /-- FIELD_FRAME (R70): what the trunks corrupt as the frames pass (R72); by node, what its position delays differ from the truth -/
  | fieldFrame (noise : List SectErr) (skew : List (Nat × Int))
  /-- HUB_FIELD_FRAME (R12) -/
  | hubFieldFrame
  /-- PORUA_FRAME_RETURN (R72): what the field die reads in it -/
  | poruaFrameReturn (trunk : Fin 8) (f : FrameReturn)
  /-- NODE_EVENT_RESEND (R83) -/
  | nodeEventResend (node : Nat)
  /-- HEARTBEAT (R12): `atHub`: the receiver -/
  | heartbeat (atHub : Bool) (h : LHdr) (mode field role epoch : Nat)
  /-- HUB_LOST (R12) -/
  | hubLost
  /-- FIELD_LOST (R12) -/
  | fieldLost
  /-- TIME_XFER (R42) -/
  | timeXfer (h : LHdr) (time frac isbState : Nat) (freq : Int)
  /-- TIME_ECHO (R42): `atHub`: the receiver -/
  | timeEcho (atHub : Bool) (h : LHdr) (sent holdPs : Nat)
  /-- WAKE (R431) -/
  | wake (h : LHdr) (source data at_ : Nat)
  /-- AUDIO_UP (R77): 8 slots of 6 samples -/
  | audioUp (h : LHdr) (trunk : Fin 8) (block : Fin 4) (frameTime valid : Nat) (samples : List (List Int))
  /-- AUDIO_DOWN (R74): 64 channels of 6 samples -/
  | audioDown (h : LHdr) (frameTime : Nat) (samples : List (List Int))
  /-- NODE_EVENT (R84) -/
  | nodeEvent (h : LHdr) (node code frameTime : Nat)
  /-- NODE_CLEAR (R84) -/
  | nodeClear (h : LHdr) (node : Nat)
  /-- NODE_ACK (R82) -/
  | nodeAck (h : LHdr) (node : Nat)
  /-- DICT_REQ (R126) -/
  | dictReq (h : LHdr) (inst : Inst) (body : Bytes)
  /-- DICT_RSP (R119) -/
  | dictRsp (h : LHdr) (inst : Inst) (body : Bytes)
  /-- POWER (R103): kind 0 CALM request, 1 RUN request, 2 grant (argument 0 CALM, 1 RUN), 3 refusal with its status, 4 wake request -/
  | power (atHub : Bool) (h : LHdr) (kind arg : Nat)
  /-- LANOK_RESEND (R65): `hub`: the sender -/
  | lanokResend (hub : Bool)
  /-- LANOK_LINK_START (R67): the follower's time minus the hub's, in 2⁻¹⁶ ns -/
  | lanokLinkStart (offset : Int)
  /-- ENUMERATE (R87) -/
  | enumerate (inst : Inst) (tag : Nat) (trunk : Fin 8)
  /-- HOP_DOWN (R92): `hop`: nodes on its port A side -/
  | hopDown (trunk : Fin 8) (hop : Nat)
  /-- LOOPBACK_REMOVE (R93) -/
  | loopbackRemove (trunk : Fin 8) (hop : Nat)
  /-- TRUNK_PORT_ENABLE (R98) -/
  | trunkPortEnable (trunk : Fin 8) (port : Fin 2)
  /-- SOFT_START_END (R98): mA measured -/
  | softStartEnd (trunk : Fin 8) (port : Fin 2) (current : Nat)
  /-- OVERCURRENT_TRIP (R98): mA measured -/
  | overcurrentTrip (trunk : Fin 8) (port : Fin 2) (current : Nat)
  /-- TRIP_RETRY (R98) -/
  | tripRetry (trunk : Fin 8) (port : Fin 2)
  /-- PWR_CLEAR (R98) -/
  | pwrClear (inst : Inst) (tag : Nat) (trunk : Fin 8) (port : Fin 2)
  /-- HD_MIC_CLOSE_END (R99) -/
  | hdMicCloseEnd (node : Nat)
  /-- EMERGENCY_IN (R97) -/
  | emergencyIn (pin : Fin 16)
  /-- FGPIO_DEBOUNCE_END (R105): the level it holds, and for how long -/
  | fgpioDebounceEnd (pin : Fin 16) (high : Bool) (heldMs : Nat)
  /-- FIELD_WAKE (R103) -/
  | fieldWake
  /-- CAN_FRAME (R125): `passive`: the controller is error passive -/
  | canFrame (bus : Fin 2) (identifier : Nat) (form : CanForm) (passive : Bool) (octets : Bytes)
  /-- CAN_REASSEMBLY_TIMEOUT (R125) -/
  | canReassemblyTimeout (bus : Fin 2)
  /-- CAN_BUS_OFF_RECOVERY (R104) -/
  | canBusOffRecovery (bus : Fin 2)
  /-- REQ_SPEAK (R221): the oldest admitted event of that code not yet handled -/
  | reqSpeak
  /-- REQ_CANCEL (R221) -/
  | reqCancel
  /-- PRIORITY_ON (R225) -/
  | priorityOn
  /-- PRIORITY_OFF (R225) -/
  | priorityOff
  /-- VOTE_K (R95) -/
  | voteK
  /-- ENDPOINT_CHANGE (R88) -/
  | endpointChange
  /-- MESSAGE (R81) -/
  | message
  /-- FAULT (R80) -/
  | fault
  /-- READ (R115) -/
  | read (inst : Inst) (tag index sub : Nat)
  /-- WRITE (R113) -/
  | write (inst : Inst) (tag index sub : Nat) (value : Bytes)
  /-- GROUP_WRITE (R116) -/
  | groupWrite (inst : Inst) (tag index sub : Nat) (value : Bytes)
  /-- BLOB_OPEN_WRITE (R120) -/
  | blobOpenWrite (inst : Inst) (tag index sub length : Nat)
  /-- BLOB_OPEN_READ (R120) -/
  | blobOpenRead (inst : Inst) (tag index sub : Nat)
  /-- BLOB_DATA (R120) -/
  | blobData (inst : Inst) (tag index sub : Nat) (value : Bytes)
  /-- BLOB_CLOSE (R120) -/
  | blobClose (inst : Inst) (tag index sub : Nat) (value : Bytes)
  /-- ABORT (R120) -/
  | abort (inst : Inst) (tag index sub : Nat)
  /-- CMD_COMPLETE (R114): `st`: its place in Table DIC-5 -/
  | cmdComplete (index sub : Nat) (st : Fin 12)
  /-- GROUP_TIMEOUT (R116) -/
  | groupTimeout (inst : Inst)
  /-- BLOB_TIMEOUT (R120) -/
  | blobTimeout (inst : Inst)
  /-- MBX_GO (R123) -/
  | mbxGo (slot : Fin 4)
  /-- UDP_DICT_DATAGRAM (R124) -/
  | udpDictDatagram (src : Bytes) (sport : Nat) (fragment : Bool) (octets : Bytes)
  /-- PERSIST_FLASH_WRITE (R117) -/
  | persistFlashWrite
  /-- PERSIST_WRITE_COMPLETE (R117) -/
  | persistWriteComplete
  /-- WARM_RESET (R445) -/
  | warmReset (inst : Inst) (tag : Nat)
  /-- FACTORY_RESET (R131) -/
  | factoryReset (inst : Inst) (tag : Nat)
  /-- MODE_REQUEST (R477): `mode`: a code of key 0001:01 -/
  | modeRequest (inst : Inst) (tag : Nat) (mode : Nat)
  /-- SQ_TAIL_WRITE (R157) -/
  | sqTailWrite (q : Fin 8) (value : Nat)
  /-- SQ_ERR_READ (R157): by PCIe function `fn` -/
  | sqErrRead (fn : Nat) (q : Fin 8)
  /-- ACCEPT_LO_READ (R135): by PCIe function `fn` -/
  | acceptLoRead (fn : Nat)
  /-- WORK_ENQUEUE (R138): `source`: the port of Table SCH-2 -/
  | workEnqueue (source : Nat) (it : Item)
  /-- JOURNAL_ACCEPT (R146) -/
  | journalAccept
  /-- PEER_COPY_TIMEOUT (R146) -/
  | peerCopyTimeout
  /-- ME_WORK_REQUEST (R136) -/
  | meWorkRequest (me : Fin 128)
  /-- AFFINITY_WAIT_EXPIRY (R136) -/
  | affinityWaitExpiry (accept : Nat)
  /-- ITEM_COMPLETE (R143): its output actions -/
  | itemComplete (me : Fin 128) (actions : List OutAct)
  /-- DELAY_DUE (R140) -/
  | delayDue
  /-- RUN_LIMIT_EXCEEDED (R139) -/
  | runLimitExceeded (me : Fin 128)
  /-- ME_FAULT (R154) -/
  | meFault (me : Fin 128)
  /-- CLUSTER_FAULT (R155) -/
  | clusterFault (cl : Fin 8)
  /-- CHECKPOINT (R149) -/
  | checkpoint
  /-- CHECKPOINT_COMPLETE (R149) -/
  | checkpointComplete
  /-- MIRROR_COPY_DONE (R147) -/
  | mirrorCopyDone
  /-- FW_STAGE (R471) -/
  | fwStage (inst : Inst) (tag : Nat) (octets : Bytes)
  /-- FW_ACTIVATE (R471) -/
  | fwActivate (inst : Inst) (tag : Nat)
  /-- SCHED_STATS_CLEAR (R161) -/
  | schedStatsClear (inst : Inst) (tag : Nat)
  /-- NOP (R166): engine `me` issues its next instruction, whose compute slot is this operation -/
  | nop (me : Fin 128)
  /-- MPY (R166) -/
  | mpy (me : Fin 128)
  /-- MAC (R166) -/
  | mac (me : Fin 128)
  /-- MSU (R166) -/
  | msu (me : Fin 128)
  /-- MPY2 (R166) -/
  | mpy2 (me : Fin 128)
  /-- MAC2 (R166) -/
  | mac2 (me : Fin 128)
  /-- MACX (R166) -/
  | macx (me : Fin 128)
  /-- CMPY (R166) -/
  | cmpy (me : Fin 128)
  /-- CMAC (R166) -/
  | cmac (me : Fin 128)
  /-- ADD (R166) -/
  | add (me : Fin 128)
  /-- SUB (R166) -/
  | sub (me : Fin 128)
  /-- BFLY (R168) -/
  | bfly (me : Fin 128)
  /-- ABS (R166) -/
  | abs (me : Fin 128)
  /-- NEG (R166) -/
  | neg (me : Fin 128)
  /-- MIN (R166) -/
  | min (me : Fin 128)
  /-- MAX (R166) -/
  | max (me : Fin 128)
  /-- AND (R166) -/
  | and (me : Fin 128)
  /-- OR (R166) -/
  | or (me : Fin 128)
  /-- XOR (R166) -/
  | xor (me : Fin 128)
  /-- SHL (R166) -/
  | shl (me : Fin 128)
  /-- SHR (R166) -/
  | shr (me : Fin 128)
  /-- CMP (R166) -/
  | cmp (me : Fin 128)
  /-- SEL (R166) -/
  | sel (me : Fin 128)
  /-- PERM (R166) -/
  | perm (me : Fin 128)
  /-- EXP (R174) -/
  | exp (me : Fin 128)
  /-- AADD (R166) -/
  | aadd (me : Fin 128)
  /-- ASUB (R166) -/
  | asub (me : Fin 128)
  /-- ASH (R166) -/
  | ash (me : Fin 128)
  /-- ACLR (R166) -/
  | aclr (me : Fin 128)
  /-- AMOV (R166) -/
  | amov (me : Fin 128)
  /-- RND (R166) -/
  | rnd (me : Fin 128)
  /-- RNDH (R166) -/
  | rndh (me : Fin 128)
  /-- LD (R164): the X or Y slot of the instruction engine `me` issues next -/
  | ld (me : Fin 128) (y : Bool)
  /-- ST (R164) -/
  | st (me : Fin 128) (y : Bool)
  /-- LDB (R164) -/
  | ldb (me : Fin 128) (y : Bool)
  /-- PUPD (R165) -/
  | pupd (me : Fin 128) (y : Bool)
  /-- CNOP (R169) -/
  | cnop (me : Fin 128)
  /-- SETV (R169) -/
  | setv (me : Fin 128)
  /-- SETP (R169) -/
  | setp (me : Fin 128)
  /-- SETM (R169) -/
  | setm (me : Fin 128)
  /-- ADDP (R169) -/
  | addp (me : Fin 128)
  /-- BRA (R170) -/
  | bra (me : Fin 128)
  /-- BCC (R170) -/
  | bcc (me : Fin 128)
  /-- LOOP (R170) -/
  | loop (me : Fin 128)
  /-- LDC (R173) -/
  | ldc (me : Fin 128)
  /-- LDC_DATA_ARRIVE (R173) -/
  | ldcDataArrive (me : Fin 128)
  /-- CLRF (R169) -/
  | clrf (me : Fin 128)
  /-- RDST (R169) -/
  | rdst (me : Fin 128)
  /-- HALT (R176) -/
  | halt (me : Fin 128)
  /-- TICK_BOUNDARY (R178) -/
  | tickBoundary (t : Fin 8)
  /-- TICK_BUDGET_EXPIRY (R180) -/
  | tickBudgetExpiry (t : Fin 8)
  /-- KIMAGE_VALIDATED (R183) -/
  | kimageValidated (k : Fin 64)
  /-- KUNLOAD (R184) -/
  | kunload (inst : Inst) (tag : Nat) (k : Fin 64)
  /-- B_EN (R185) -/
  | bEn (inst : Inst) (tag : Nat) (e : Fin 256) (on : Bool)
  /-- T_EN (R179) -/
  | tEn (inst : Inst) (tag : Nat) (t : Fin 8) (on : Bool)
  /-- SAP_EN (R197) -/
  | sapEn (inst : Inst) (tag : Nat) (n : Fin 8) (on : Bool)
  /-- SAP_CLOCKS_START (R197) -/
  | sapClocksStart (n : Fin 8)
  /-- SAP_LOCKED (R191) -/
  | sapLocked (n : Fin 8)
  /-- SAP_START_FRAMES_DONE (R197) -/
  | sapStartFramesDone (n : Fin 8)
  /-- SAP_RAMP_OUT_DONE (R197) -/
  | sapRampOutDone (n : Fin 8)
  /-- SAP_STOP_FRAMES_DONE (R197) -/
  | sapStopFramesDone (n : Fin 8)
  /-- CLOCK_LOST (R191) -/
  | clockLost (n : Fin 8)
  /-- STALE_FADE_EXPIRY (R195) -/
  | staleFadeExpiry (endpoint : Bool) (n : Nat)
  /-- AUDIO_SAMPLE_BOUNDARY (R206): by node and endpoint, what its MIC or LINE_IN captures; the slots on DI of each serial audio port, as words of SLOT_WIDTH bits -/
  | audioSampleBoundary (di : List (List Int)) (mics : List (Nat × Nat × Int))
  /-- EP_EN (R200): `rx`: a receive endpoint -/
  | epEn (inst : Inst) (tag : Nat) (rx : Bool) (e : Fin 64) (on : Bool)
  /-- BAR2_WRITE (R210): in octets -/
  | bar2Write (offset width data : Nat)
  /-- XP_COPY (R212): 0 crosspoint, 1 input EQ, 2 output EQ -/
  | xpCopy (inst : Inst) (tag : Nat) (set_ : Nat)
  /-- XP_PRESET (R217) -/
  | xpPreset (inst : Inst) (tag : Nat)
  /-- XP_COPY_DONE (R212) -/
  | xpCopyDone
  /-- METER_CLR (R233) -/
  | meterClr (inst : Inst) (tag : Nat)
  /-- LM_RESET (R234) -/
  | lmReset (inst : Inst) (tag : Nat) (m : Fin 16)
  /-- LOUDNESS_UPDATE (R234) -/
  | loudnessUpdate
  /-- TM_GRANT (R222) -/
  | tmGrant (inst : Inst) (tag id : Nat)
  /-- TM_CLOSE (R222) -/
  | tmClose (inst : Inst) (tag id : Nat)
  /-- TM_CLEAR_QUEUE (R222) -/
  | tmClearQueue (inst : Inst) (tag : Nat)
  /-- TALKER_SWITCH (R223): the decision whose T_s has come -/
  | talkerSwitch
  /-- DESK_EN (R218) -/
  | deskEn (inst : Inst) (tag : Nat) (d : Fin 256) (on : Bool)
  /-- PRESELECTION (R228) -/
  | preselection
  /-- CANDIDATE_CONCEAL_END (R229) -/
  | candidateConcealEnd (c : Fin 64)
  /-- VOICE_HANG_EXPIRY (R227) -/
  | voiceHangExpiry (leg : Nat)
  /-- LANGUAGE_FALLBACK (R220): language 1–31 -/
  | languageFallback (l : Nat)
  /-- GROUP_FRAME_BOUNDARY (R232) -/
  | groupFrameBoundary (g : Fin 64)
  /-- ETH_FRAME_RECEIVED (R245) -/
  | ethFrameReceived (p : Fin 8) (f : Frame)
  /-- MGMT_FRAME_RECEIVED (R241) -/
  | mgmtFrameReceived (f : Frame)
  /-- PAUSE_RECEIVED (R242) -/
  | pauseReceived (p : Fin 9) (quanta : Nat)
  /-- PFC_RECEIVED (R242) -/
  | pfcReceived (p : Fin 8) (enabled : Nat) (quanta : List Nat)
  /-- PAUSE_EXPIRY (R242) -/
  | pauseExpiry (p : Fin 9)
  /-- PAUSE_RESEND (R255) -/
  | pauseResend (p : Fin 8)
  /-- LINK_LOSS (R240) -/
  | linkLoss (p : Fin 8)
  /-- LINK_UP (R236) -/
  | linkUp (p : Fin 8)
  /-- FEC_SECOND (R240): codewords of the last second -/
  | fecSecond (p : Fin 8) (corrected uncorrectable : Nat)
  /-- PORT_EN (R236) -/
  | portEn (inst : Inst) (tag : Nat) (p : Fin 8) (on : Bool)
  /-- Q_FLUSH (R251): the queue the requester selected -/
  | qFlush (inst : Inst) (tag : Nat)
  /-- POOL_TEST (R259) -/
  | poolTest (inst : Inst) (tag : Nat)
  /-- POOL_TEST_DONE (R262): cells that failed -/
  | poolTestDone (cells : Nat)
  /-- SPILL_DRAIN_COMPLETE (R261) -/
  | spillDrainComplete
  /-- ORPHAN_AUDIT (R262): orphan cells found -/
  | orphanAudit (cells : Nat)
  /-- PORT_TRANSMITTER_FREE (R274): `p` 8: management; the error found on reading the chosen entry: 1 corrected, 2 data, 3 record or link -/
  | portTransmitterFree (p : Fin 9) (read : Fin 4)
  /-- SHAPER_CONFORMING (R270) -/
  | shaperConforming (leg : Nat)
  /-- SHAPER_ADAPT (R273) -/
  | shaperAdapt
  /-- GATE_ENTRY_CHANGE (R279) -/
  | gateEntryChange (p : Fin 8)
  /-- GATE_CONFIG_CHANGE (R280) -/
  | gateConfigChange (p : Fin 8)
  /-- COPY_FORMATION (R294) -/
  | copyFormation
  /-- ESTIMATE_UPDATE (R297) -/
  | estimateUpdate (leg : Nat)
  /-- REFRESH_WAIT_EXPIRY (R305) -/
  | refreshWaitExpiry
  /-- REFRESH_MIN_EXPIRY (R305) -/
  | refreshMinExpiry
  /-- TRANSPORT_FEEDBACK_TIMER (R306) -/
  | transportFeedbackTimer
  /-- RTCP_REPORT_TIMER (R306) -/
  | rtcpReportTimer
  /-- FAILBACK_HOLD_EXPIRY (R308) -/
  | failbackHoldExpiry (p : Fin 8)
  /-- LEG_CKPT_TIMER (R309) -/
  | legCkptTimer
  /-- AUTH_FAIL_SECOND (R310) -/
  | authFailSecond (leg : Nat)
  /-- LEG_EN (R287) -/
  | legEn (inst : Inst) (tag l : Nat) (on : Bool)
  /-- LEG_CTRL_ENABLE (R289) -/
  | legCtrlEnable (inst : Inst) (tag leg txn : Nat)
  /-- LEG_CTRL_DISABLE (R289) -/
  | legCtrlDisable (inst : Inst) (tag leg txn : Nat)
  /-- LEG_CTRL_SPEAK (R289) -/
  | legCtrlSpeak (inst : Inst) (tag leg txn : Nat)
  /-- LEG_CTRL_CANCEL (R289) -/
  | legCtrlCancel (inst : Inst) (tag leg txn : Nat)
  /-- LEG_CTRL_SET_SOURCE (R289) -/
  | legCtrlSetSource (inst : Inst) (tag leg txn slot code : Nat)
  /-- LEG_CTRL_SET_MAX (R289) -/
  | legCtrlSetMax (inst : Inst) (tag leg txn slot layer : Nat)
  /-- LEG_CTRL_REFRESH (R305) -/
  | legCtrlRefresh (inst : Inst) (tag leg txn slot : Nat)
  /-- DEC_EN (R317) -/
  | decEn (inst : Inst) (tag : Nat) (c : Fin 1024) (on : Bool)
  /-- ENC_EN (R317) -/
  | encEn (inst : Inst) (tag : Nat) (e : Fin 256) (on : Bool)
  /-- DECODE_PICTURE_COMPLETE (R322): the VDEC instance -/
  | decodePictureComplete (j : Fin 2)
  /-- DECODE_BUF_WAIT_TIMEOUT (R322) -/
  | decodeBufWaitTimeout (c : Fin 1024)
  /-- PICTURE_TIMEOUT (R342): 0 VDEC0, 1 VDEC1, 2 VENC -/
  | pictureTimeout (j : Fin 3)
  /-- DAMAGE_WAIT_EXPIRY (R328) -/
  | damageWaitExpiry (c : Fin 1024)
  /-- ENCODE_PICTURE_COMPLETE (R336): its rows as VENC coded them; rows coded before the picture was late or its instance reset; its NAL units or OBUs, without size fields (R335 fixes neither bit for bit) -/
  | encodePictureComplete (e : Fin 256) (rows : List EncRow) (cutAt : Nat) (units : List Bytes)
  /-- REFRESH (R333) -/
  | refresh (inst : Inst) (tag : Nat) (e : Fin 256)
  /-- OUTPUT_PICTURE_BOUNDARY (R357) -/
  | outputPictureBoundary (o : Fin 64)
  /-- COMPOSED_PICTURE_COMPLETE (R353) -/
  | composedPictureComplete
  /-- LAYER_TABLE_BAR2_WRITE (R355): BAR2 offset; 64-bit access -/
  | layerTableBar2Write (off value : Nat) (wide : Bool)
  /-- LAYER_COPY (R355) -/
  | layerCopy (inst : Inst) (tag : Nat) (o : Fin 64)
  /-- OUT_EN (R352) -/
  | outEn (inst : Inst) (tag : Nat) (o : Fin 64) (on : Bool)
  /-- OVL_BASE (R358) -/
  | ovlBase (inst : Inst) (tag : Nat) (v : Fin 256) (base : Nat)
  /-- DMA_GO (R379): the START_SPACE bit written with it -/
  | dmaGo (n : Fin 64) (host : Bool)
  /-- DMA_STOP (R380) -/
  | dmaStop (n : Fin 64) (host : Bool)
  /-- DMA_RESUME (R379) -/
  | dmaResume (n : Fin 64) (host : Bool)
  /-- DMA_DOORBELL (R381) -/
  | dmaDoorbell (n : Fin 64)
  /-- DMA_REQ (R382) -/
  | dmaReq (n : Fin 64)
  /-- DESCRIPTOR_FETCH_DONE (R379) -/
  | descriptorFetchDone (n : Fin 64) (host : Option Bytes) (failed : Bool)
  /-- DESCRIPTOR_COMPLETE (R377): octets host memory returned; a bus error (0 read, 1 write, 2 time-out) and the octet it failed at -/
  | descriptorComplete (n : Fin 64) (host : Bytes) (fail : Option (Fin 3 × Nat))
  /-- LINK_FETCH_DONE (R379) -/
  | linkFetchDone (n : Fin 64) (host : Option Bytes) (failed : Bool)
  /-- DMA_PACING_PERMIT (R382) -/
  | dmaPacingPermit (n : Fin 64)
  /-- DMA_PACE_TIMER (R382) -/
  | dmaPaceTimer (n : Fin 64)
  /-- BUS_TIMEOUT (R376) -/
  | busTimeout (n : Fin 64) (host : Bytes) (done : Nat)
  /-- CUR_LO_READ (R383): PCIe function -/
  | curLoRead (n : Fin 64) (fn : Nat)
  /-- DMA_EN (R380) -/
  | dmaEn (inst : Inst) (tag : Nat) (n : Fin 64) (on : Bool)
  /-- MEM_REQUEST (R393): the requests that arrive in one cycle -/
  | memRequest (rs : List MemReq)
  /-- REINTERLEAVE_DONE (R400): numbers of the items whose payload data firmware has restored -/
  | reinterleaveDone (restored : List Nat)
  /-- DRAM_REFRESH (R395): refreshes the controller issues to the rank now, 0 when it postpones -/
  | dramRefresh (c : Fin 4) (rank : Fin 2) (issued : Fin 10)
  /-- ACT_WINDOW (R396) -/
  | actWindow
  /-- PATROL_SCRUB (R392): what the ECC check of the line found -/
  | patrolScrub (c : Fin 4) (corrected bad : Bool)
  /-- PERIODIC_RETRAIN (R398): eye margin in ps, length of the pause in ns, drift within its correction range -/
  | periodicRetrain (c : Fin 4) (margin pause : Nat) (inRange : Bool)
  /-- FULL_TRAINING_DONE (R399) -/
  | fullTrainingDone (c : Fin 4) (ok : Bool)
  /-- PD_IDLE_EXPIRY (R402) -/
  | pdIdleExpiry (c : Fin 4) (rank : Fin 2)
  /-- MEM_STATS_CLEAR (R404) -/
  | memStatsClear (inst : Inst) (tag : Nat)
  /-- KEY_LOAD (R406) -/
  | keyLoad (r : KeyRec)
  /-- KEY_ERASE (R406) -/
  | keyErase (r : KeyRec)
  /-- KEY_LOAD_NEXT (R418) -/
  | keyLoadNext (r : KeyRec)
  /-- SEAL_REQUEST (R409) -/
  | sealRequest (r : SealReq)
  /-- SEAL_DEQUEUE (R412) -/
  | sealDequeue
  /-- SEAL_COMPLETE (R413): which cores' first result was wrong; whether the second results agree -/
  | sealComplete (wrong0 wrong1 agree2 : Bool)
  /-- SLOT_ERASE (R412) -/
  | slotErase (inst : Inst) (tag : Nat) (slot : Fin 64)
  /-- IN_ERASE (R406) -/
  | inErase (inst : Inst) (tag : Nat)
  /-- OUT_ERASE (R406) -/
  | outErase (inst : Inst) (tag : Nat)
  /-- EGRESS_KEY_EFFECTIVE (R419) -/
  | egressKeyEffective (leg : Nat)
  /-- PREV_KEY_EXPIRY (R418) -/
  | prevKeyExpiry (leg : Nat)
  /-- PD_REQUEST_RUN (R426) -/
  | pdRequestRun (inst : Inst) (tag d : Nat)
  /-- PD_REQUEST_CALM (R426) -/
  | pdRequestCalm (inst : Inst) (tag d : Nat)
  /-- PD_REQUEST_FROST (R426) -/
  | pdRequestFrost (inst : Inst) (tag d : Nat)
  /-- PD_RESET (R437) -/
  | pdReset (inst : Inst) (tag d : Nat)
  /-- LULL_ENTRY (R425): 0–127 an engine, 128–135 a cluster, 136–138 VDEC0, VDEC1, VENC, 139 the compositor -/
  | lullEntry (unit : Fin 140)
  /-- HUB_OFF (R430) -/
  | hubOff (inst : Inst) (tag : Nat)
  /-- WAKE_N (R430) -/
  | wakeN
  /-- DRAIN_COMPLETE (R428) -/
  | drainComplete
  /-- DRAIN_TIMEOUT (R428) -/
  | drainTimeout
  /-- HOST_WAKE_REQUEST (R429) -/
  | hostWakeRequest
  /-- REGULATOR_READY (R433): 0 VME_PG, 1 VSD_PG, 2 the on-die switch of domain `d` -/
  | regulatorReady (rail : Fin 3) (d : Nat)
  /-- PLL_LOCKED (R433) -/
  | pllLocked (d : Nat)
  /-- MEMORY_READY (R433): channels whose recentring failed; mirror channels whose copy of the firmware cannot be read -/
  | memoryReady (d : Nat) (failed bad : List Nat)
  /-- LOGIC_READY (R433) -/
  | logicReady (d : Nat)
  /-- WAKE_STEP_TIMEOUT (R434): the PLL lock flags -/
  | wakeStepTimeout (d locks : Nat)
  /-- POWER_GOOD_LOSS (R436): 0 VME_PG, 1 VSD_PG -/
  | powerGoodLoss (rail : Fin 2)
  /-- TEMP_ALARM (R438): DIE_TEMP in 0.125 °C -/
  | tempAlarm (temp : Int)
  /-- TEMP_SHUTDOWN (R438): DIE_TEMP in 0.125 °C -/
  | tempShutdown (temp : Int)
  /-- STANDBY_IDLE_TIMEOUT (R480) -/
  | standbyIdleTimeout
  /-- WATCHDOG_TIMEOUT (R446) -/
  | watchdogTimeout
  /-- WDT_SERVICE (R446) -/
  | wdtService
  /-- HOST_WATCH_TIMEOUT (R447) -/
  | hostWatchTimeout
  /-- HOST_PING (R447) -/
  | hostPing (inst : Inst) (tag : Nat)
  /-- PCIE_LINK_DOWN (R447) -/
  | pcieLinkDown
  /-- PERST_N (R490): its new level -/
  | perstN (high : Bool)
  /-- CH_CLEAR (R444) -/
  | chClear (inst : Inst) (tag : Nat)
  /-- CH_RETIRE (R444) -/
  | chRetire (inst : Inst) (tag : Nat)
  /-- PAIR_HEARTBEAT (R452): `time` in ns; `usable`: the peer reports LOCKED or HOLDOVER (R31); `source`: the reference it has selected (R35) -/
  | pairHeartbeat (h : PHdr) (role mode pairState : Nat) (hubOk : Bool) (lastAccept time reachable serial : Nat) (usable : Bool) (source : Nat)
  /-- PAIR_HEARTBEAT_SEND (R452) -/
  | pairHeartbeatSend
  /-- JRNL_COPY (R453) -/
  | jrnlCopy (h : PHdr) (entries : List JEntry)
  /-- JRNL_ACK (R453) -/
  | jrnlAck (h : PHdr) (held : Nat)
  /-- JRNL_MARK (R453) -/
  | jrnlMark (h : PHdr) (committed freed : Nat)
  /-- STAGED_DATA (R453) -/
  | stagedData (h : PHdr) (addr off : Nat) (octets : Bytes)
  /-- LEG_CKPT (R309) -/
  | legCkpt (h : PHdr) (c : LegCkpt)
  /-- SYNC (R455): `snap`: the whole checkpoint, with its last segment -/
  | sync (h : PHdr) (part total : Nat) (snap : Option Snapshot)
  /-- ROLE (R457): new roles of the sender and of this hub; final slot indices: leg, slot, index -/
  | role (h : PHdr) (peer mine epoch : Nat) (finals : List (Nat × Nat × Nat))
  /-- RELAY_DOWN (R461) -/
  | relayDown (h : PHdr) (frameTime : Nat) (samples : List (List Int))
  /-- RELAY_UP (R461) -/
  | relayUp (h : PHdr) (trunk : Fin 8) (block : Fin 4) (frameTime valid : Nat) (samples : List (List Int))
  /-- RELAY_MSG (R461) -/
  | relayMsg (h : PHdr) (toField : Bool) (m : LMsg)
  /-- PAIR_TIME_ECHO (R452): `sent` in 2⁻¹⁶ ns -/
  | pairTimeEcho (h : PHdr) (sent holdPs : Nat)
  /-- PAIR_RESEND (R452) -/
  | pairResend
  /-- PAIR_LINK_DOWN (R452) -/
  | pairLinkDown
  /-- PAIR_LINK_UP (R455) -/
  | pairLinkUp
  /-- BEACON (R450): as read by this hub's field die and reported to the hub; `m` in ns -/
  | beacon (serial role mode : Nat) (hubLost take yield_ : Bool) (epoch reachable m : Nat)
  /-- BEACON_TIMEOUT (R456) -/
  | beaconTimeout
  /-- SPLIT_SETTLE (R459): nodes a standby's field die would serve as master -/
  | splitSettle (reach : Nat)
  /-- MASTER_SWITCH (R451) -/
  | masterSwitch
  /-- TAKE_TIMEOUT (R451) -/
  | takeTimeout
  /-- PAIR_START_TIMEOUT (R463) -/
  | pairStartTimeout (reach : Nat)
  /-- SWITCHOVER (R463) -/
  | switchover (inst : Inst) (tag : Nat)
  /-- FORCE_ACTIVE (R465) -/
  | forceActive (inst : Inst) (tag : Nat)
  /-- BRIDGE_BEACON (R464) -/
  | bridgeBeacon (serial role mode : Nat) (hubLost take yield_ : Bool) (epoch reachable : Nat)
  /-- BRIDGE_BEACON_TIMER (R464) -/
  | bridgeBeaconTimer
  /-- COLD_BOOT (R474): the level of PAIR_ROLE -/
  | coldBoot (rolePin : Bool)
  /-- BOOT_STEP_COMPLETE (R474): `channels`: present DDR4 channels (step 4); `cells`: pool cells that failed (step 6) -/
  | bootStepComplete (channels : List ChFact) (cells : Nat)
  /-- CORE_BROWNOUT (R493) -/
  | coreBrownout
  /-- STORM_FLASH_COPY (R504) -/
  | stormFlashCopy
  /-- STORM_CLEAR (R505) -/
  | stormClear (inst : Inst) (tag : Nat)
  /-- RETURN_PREP (R508) -/
  | returnPrep (inst : Inst) (tag : Nat)
  /-- VANE_EN (R506) -/
  | vaneEn (inst : Inst) (tag : Nat) (on : Bool)
  /-- BYPASS (R507) -/
  | bypass
  /-- IDCODE (R507) -/
  | idcode
  /-- SAMPLE_PRELOAD (R507) -/
  | samplePreload
  /-- EXTEST (R507) -/
  | extest
  /-- EXTEST_PULSE (R507) -/
  | extestPulse
  /-- EXTEST_TRAIN (R507) -/
  | extestTrain
  /-- CLAMP (R507) -/
  | clamp
  /-- HIGHZ (R507) -/
  | highz
  /-- TEST_UNLOCK (R509): the level of TMODE -/
  | testUnlock (tmode : Bool)
  /-- BUTTON_PRESS (R85): `code`: the event of Table FLD-7 -/
  | buttonPress (node : Nat) (code : Fin 16)
  /-- SAP_FRAME (R193): the slots on DI, as words of SLOT_WIDTH bits -/
  | sapFrame (n : Fin 8) (di : List Int)
  /-- REF10M_IN_EDGE (R35) -/
  | ref10mInEdge
  /-- PTP_DELAY_REQ_INTERVAL (R33) -/
  | ptpDelayReqInterval
  /-- PTP_ANNOUNCE_INTERVAL (R33) -/
  | ptpAnnounceInterval
  /-- REPLAY_DONE (R151): in LIMP: the PLLs have locked; numbers of entries of which no copy was good -/
  | replayDone (locked : Bool) (lost : List Nat)
  /-- PCIE_LINK_UP (R447) -/
  | pcieLinkUp
  /-- MGMT_LINK_CHANGE (R241): 0 down, 1 at 100 Mb/s, 2 at 1,000 Mb/s -/
  | mgmtLinkChange (state : Fin 3)
  /-- LANOK_CRC_FAILURE (R67): `hub`: the receiver; `foreign`: its CRC is good, its TYPE unlisted or its direction wrong (R68) -/
  | lanokCrcFailure (hub foreign : Bool)
  /-- FIELD_SUPPLY_LOSS (R492) -/
  | fieldSupplyLoss
  /-- VDD_IO_RISE (R488) -/
  | vddIoRise
  /-- VDD_IO_REMOVED (R504) -/
  | vddIoRemoved
  /-- RST_N_LOW (R487) -/
  | rstNLow
deriving DecidableEq, Repr

end Sys2Proof
end

