-- ==== Sys2Proof/WellFormed.lean ====
section
/-! DEFINITION. Well-formed commands: every operand fits the field the spec gives it. -/
namespace Sys2Proof

/-- A transport instance: a number of Table DIC-7, and the mailbox slot or node behind it (R122, R123, R126). -/
def Inst.wf (i : Inst) : Bool :=
  decide (i.tr < 5 ∧ i.seq < 4294967296) && (if i.tr = 0 then decide (i.sub < 4) else if i.tr = 4 then decide (i.sub < 16384) else i.sub == 0)

/-- Lanok header: 16-bit SEQ and ACK (Table FLD-2). -/
def LHdr.wf (h : LHdr) : Bool := decide (h.seq < 65536 ∧ h.ack < 65536)

/-- Pair link header (R452). -/
def PHdr.wf (h : PHdr) : Bool := decide (h.seq < 4294967296 ∧ h.ack < 4294967296 ∧ h.epoch < 4294967296)

/-- Table ISB-6. -/
def LaunchRec.wf (r : LaunchRec) : Bool :=
  decide (r.time < 18446744073709551616 ∧ r.frac < 65536 ∧ r.typ < 256 ∧ r.flags < 256 ∧ r.target < 65536
    ∧ r.arg < 18446744073709551616 ∧ r.period < 18446744073709551616)

/-- Table SCH-1. -/
def Item.wf (it : Item) : Bool :=
  decide (it.typ < 65536 ∧ it.level < 256 ∧ it.flags < 256 ∧ it.flow < 65536 ∧ it.affinity < 256 ∧ it.cls < 256 ∧ it.delay < 4294967296
    ∧ it.dedup < 18446744073709551616 ∧ it.payload.length ≤ 32)

/-- Table SEA-1. -/
def KeyRec.wf (r : KeyRec) : Bool :=
  decide (r.kind < 256 ∧ r.target < 65536 ∧ r.alg < 256 ∧ r.owner < 256 ∧ r.limitLog2 < 256 ∧ r.pad < 256
    ∧ r.timing < 18446744073709551616 ∧ r.key.length = 32 ∧ r.salt.length = 12)

/-- Table SEA-2; the source of R409. -/
def SealReq.wf (r : SealReq) : Bool :=
  decide (r.source < 4 ∧ r.op < 256 ∧ r.slot < 256 ∧ r.tagLen < 256 ∧ r.flags < 256 ∧ r.len < 4294967296
    ∧ r.msgAddr < 18446744073709551616 ∧ r.resAddr < 18446744073709551616 ∧ r.reserved < 18446744073709551616)

/-- An Ethernet frame: 48-bit addresses, a tag of 12 and 3 bits. -/
def Frame.wf (f : Frame) : Bool :=
  decide (f.dst < 281474976710656 ∧ f.src < 281474976710656)
    && (match f.tag with | some (v, p) => decide (v < 4096 ∧ p < 8) | none => true)

/-- `n` rows of `m` samples. -/
def shape (n m : Nat) (l : List (List Int)) : Bool := l.length == n && l.all (fun r => r.length == m)

/-- Octets of a BAR (Table ARC-4). -/
def barSize (bar : Nat) : Nat := if bar = 0 then 1048576 else if bar = 2 then 67108864 else 65536

/-- A DRAM request: a requester of Table ARC-5, a channel, at least one octet and at most the 16 GiB of a channel or the 64 GiB
of four (R24). -/
def MemReq.wf (r : MemReq) : Bool :=
  decide (r.requester < 18) && (match r.channel with
    | some c => decide (c < 4 ∧ r.addr < 17179869184)
    | none => decide (r.addr < 281474976710656))

/-- The operands of a command fit their fields. -/
def Instr.wf (i : Instr) : Bool :=
  match i with
  | .registerWrite bar offset width data => (bar == 0 || bar == 2 || bar == 4) && decide (offset < barSize bar) && (width == 1 || width == 2 || width == 4 || width == 8) && decide (data < 256 ^ width)
  | .badRegisterAccess fn bar offset _ => decide (fn < 256) && (bar == 0 || bar == 2 || bar == 4) && decide (offset < barSize bar)
  | .isobarFineTick => true
  | .nowLoRead fn => decide (fn < 256)
  | .sourceQualify _ _ => true
  | .sourceStopTimeout _ => true
  | .slewEnd => true
  | .ppsInEdge _ => true
  | .ptpMessage _ => true
  | .ptpSyncInterval => true
  | .isbStep inst tag ns => inst.wf && decide (tag < 65536) && decide (ns < 18446744073709551616)
  | .todSet inst tag ns => inst.wf && decide (tag < 65536) && decide (ns < 18446744073709551616)
  | .barrierDelayMeasure => true
  | .limpEntry _ _ => true
  | .launchArm _ word => decide (word < 4294967296)
  | .launchCancel _ via tag => (match via with | some i => i.wf | none => true) && decide (tag < 65536)
  | .launchWindowWrite _ _ octets => (octets.length == 4 || octets.length == 8)
  | .launchRecord inst tag rec => inst.wf && decide (tag < 65536) && rec.wf
  | .launchCommit num => decide (num < 65536)
  | .launchWakeLead num => decide (num < 65536)
  | .xpSwap => true
  | .eqSwap => true
  | .srcSwitch => true
  | .layerSwap => true
  | .gateTakeover => true
  | .lxEdge => true
  | .lxPulseEnd _ => true
  | .sapGroup => true
  | .hallHandover => true
  | .fieldMapSwap => true
  | .voteOpen => true
  | .voteClose => true
  | .voteSeal _ => true
  | .nodeActionOff node => decide (node < 16384)
  | .nodeActionOn node => decide (node < 16384)
  | .nodeActionLed node => decide (node < 16384)
  | .slotAssign node => decide (node < 16384)
  | .slotRelease node => decide (node < 16384)
  | .selectChannel node => decide (node < 16384)
  | .nodeActionGain node => decide (node < 16384)
  | .launchCmd h num rec => h.wf && decide (num < 65536) && (match rec with | some r => r.wf | none => true)
  | .launchReport h num trunk state _ _ => h.wf && decide (num < 65536) && decide (trunk < 8) && decide (3 ≤ state ∧ state ≤ 6)
  | .ppsOutEdge _ => true
  | .ppsOutPulseEnd _ => true
  | .ppsEn inst tag _ _ => inst.wf && decide (tag < 65536)
  | .lxEn inst tag _ _ => inst.wf && decide (tag < 65536)
  | .isobarAlarm => true
  | .fieldReset => true
  | .fieldStart => true
  | .powerSequenceStep => true
  | .fieldFrame _ _ => true
  | .hubFieldFrame => true
  | .poruaFrameReturn _ _ => true
  | .nodeEventResend node => decide (node < 16384)
  | .heartbeat _ h mode field _ epoch => h.wf && decide (mode < 256) && decide (field < 256) && decide (epoch < 4294967296)
  | .hubLost => true
  | .fieldLost => true
  | .timeXfer h _ frac _ _ => h.wf && decide (frac < 65536)
  | .timeEcho _ h _ _ => h.wf
  | .wake h _ _ _ => h.wf
  | .audioUp h _ _ frameTime _ samples => h.wf && decide (frameTime < 18446744073709551616) && shape 8 6 samples
  | .audioDown h frameTime samples => h.wf && decide (frameTime < 18446744073709551616) && shape 64 6 samples
  | .nodeEvent h node code frameTime => h.wf && decide (node < 16384) && decide (code < 16) && decide (frameTime < 18446744073709551616)
  | .nodeClear h node => h.wf && decide (node < 16384)
  | .nodeAck h node => h.wf && decide (node < 16384)
  | .dictReq h inst _ => h.wf && inst.wf
  | .dictRsp h inst _ => h.wf && inst.wf
  | .power _ h kind _ => h.wf && decide (kind < 5)
  | .lanokResend _ => true
  | .lanokLinkStart _ => true
  | .enumerate inst tag _ => inst.wf && decide (tag < 65536)
  | .hopDown _ hop => decide (hop < 2048)
  | .loopbackRemove _ hop => decide (hop < 2048)
  | .trunkPortEnable _ _ => true
  | .softStartEnd _ _ current => decide (current < 65536)
  | .overcurrentTrip _ _ current => decide (current < 65536)
  | .tripRetry _ _ => true
  | .pwrClear inst tag _ _ => inst.wf && decide (tag < 65536)
  | .hdMicCloseEnd node => decide (node < 16384)
  | .emergencyIn _ => true
  | .fgpioDebounceEnd _ _ _ => true
  | .fieldWake => true
  | .canFrame _ identifier form _ octets => decide (identifier < if form.ext then 536870912 else 2048) && (decide (octets.length ≤ 8) || (form.fd && [12, 16, 20, 24, 32, 48, 64].contains octets.length))
  | .canReassemblyTimeout _ => true
  | .canBusOffRecovery _ => true
  | .reqSpeak => true
  | .reqCancel => true
  | .priorityOn => true
  | .priorityOff => true
  | .voteK => true
  | .endpointChange => true
  | .message => true
  | .fault => true
  | .read inst tag index sub_ => inst.wf && decide (tag < 65536) && decide (index < 65536) && decide (sub_ < 256)
  | .write inst tag index sub_ value => inst.wf && decide (tag < 65536) && decide (index < 65536) && decide (sub_ < 256) && decide (value.length ≤ 248)
  | .groupWrite inst tag index sub_ value => inst.wf && decide (tag < 65536) && decide (index < 65536) && decide (sub_ < 256) && decide (value.length ≤ 248)
  | .blobOpenWrite inst tag index sub_ length => inst.wf && decide (tag < 65536) && decide (index < 65536) && decide (sub_ < 256) && decide (length < 4294967296)
  | .blobOpenRead inst tag index sub_ => inst.wf && decide (tag < 65536) && decide (index < 65536) && decide (sub_ < 256)
  | .blobData inst tag index sub_ value => inst.wf && decide (tag < 65536) && decide (index < 65536) && decide (sub_ < 256) && decide (value.length ≤ 248)
  | .blobClose inst tag index sub_ value => inst.wf && decide (tag < 65536) && decide (index < 65536) && decide (sub_ < 256) && decide (value.length ≤ 248)
  | .abort inst tag index sub_ => inst.wf && decide (tag < 65536) && decide (index < 65536) && decide (sub_ < 256)
  | .cmdComplete index sub_ _ => decide (index < 65536) && decide (sub_ < 256)
  | .groupTimeout inst => inst.wf
  | .blobTimeout inst => inst.wf
  | .mbxGo _ => true
  | .udpDictDatagram src sport _ _ => (src.length == 4 || src.length == 16) && decide (sport < 65536)
  | .persistFlashWrite => true
  | .persistWriteComplete => true
  | .warmReset inst tag => inst.wf && decide (tag < 65536)
  | .factoryReset inst tag => inst.wf && decide (tag < 65536)
  | .modeRequest inst tag mode => inst.wf && decide (tag < 65536) && decide (mode < 256)
  | .sqTailWrite _ value => decide (value < 4294967296)
  | .sqErrRead fn _ => decide (fn < 256)
  | .acceptLoRead fn => decide (fn < 256)
  | .workEnqueue source it => decide (source < 20) && it.wf
  | .journalAccept => true
  | .peerCopyTimeout => true
  | .meWorkRequest _ => true
  | .affinityWaitExpiry _ => true
  | .itemComplete _ _ => true
  | .delayDue => true
  | .runLimitExceeded _ => true
  | .meFault _ => true
  | .clusterFault _ => true
  | .checkpoint => true
  | .checkpointComplete => true
  | .mirrorCopyDone => true
  | .fwStage inst tag _ => inst.wf && decide (tag < 65536)
  | .fwActivate inst tag => inst.wf && decide (tag < 65536)
  | .schedStatsClear inst tag => inst.wf && decide (tag < 65536)
  | .nop _ => true
  | .mpy _ => true
  | .mac _ => true
  | .msu _ => true
  | .mpy2 _ => true
  | .mac2 _ => true
  | .macx _ => true
  | .cmpy _ => true
  | .cmac _ => true
  | .add _ => true
  | .sub _ => true
  | .bfly _ => true
  | .abs _ => true
  | .neg _ => true
  | .min _ => true
  | .max _ => true
  | .and _ => true
  | .or _ => true
  | .xor _ => true
  | .shl _ => true
  | .shr _ => true
  | .cmp _ => true
  | .sel _ => true
  | .perm _ => true
  | .exp _ => true
  | .aadd _ => true
  | .asub _ => true
  | .ash _ => true
  | .aclr _ => true
  | .amov _ => true
  | .rnd _ => true
  | .rndh _ => true
  | .ld _ _ => true
  | .st _ _ => true
  | .ldb _ _ => true
  | .pupd _ _ => true
  | .cnop _ => true
  | .setv _ => true
  | .setp _ => true
  | .setm _ => true
  | .addp _ => true
  | .bra _ => true
  | .bcc _ => true
  | .loop _ => true
  | .ldc _ => true
  | .ldcDataArrive _ => true
  | .clrf _ => true
  | .rdst _ => true
  | .halt _ => true
  | .tickBoundary _ => true
  | .tickBudgetExpiry _ => true
  | .kimageValidated _ => true
  | .kunload inst tag _ => inst.wf && decide (tag < 65536)
  | .bEn inst tag _ _ => inst.wf && decide (tag < 65536)
  | .tEn inst tag _ _ => inst.wf && decide (tag < 65536)
  | .sapEn inst tag _ _ => inst.wf && decide (tag < 65536)
  | .sapClocksStart _ => true
  | .sapLocked _ => true
  | .sapStartFramesDone _ => true
  | .sapRampOutDone _ => true
  | .sapStopFramesDone _ => true
  | .clockLost _ => true
  | .staleFadeExpiry _ n => decide (n < 64)
  | .audioSampleBoundary _ _ => true
  | .epEn inst tag _ _ _ => inst.wf && decide (tag < 65536)
  | .bar2Write offset width data => decide (offset < 67108864) && (width == 1 || width == 2 || width == 4 || width == 8) && decide (data < 256 ^ width)
  | .xpCopy inst tag set_ => inst.wf && decide (tag < 65536) && decide (set_ < 3)
  | .xpPreset inst tag => inst.wf && decide (tag < 65536)
  | .xpCopyDone => true
  | .meterClr inst tag => inst.wf && decide (tag < 65536)
  | .lmReset inst tag _ => inst.wf && decide (tag < 65536)
  | .loudnessUpdate => true
  | .tmGrant inst tag id => inst.wf && decide (tag < 65536) && decide (id < 65536)
  | .tmClose inst tag id => inst.wf && decide (tag < 65536) && decide (id < 65536)
  | .tmClearQueue inst tag => inst.wf && decide (tag < 65536)
  | .talkerSwitch => true
  | .deskEn inst tag _ _ => inst.wf && decide (tag < 65536)
  | .preselection => true
  | .candidateConcealEnd _ => true
  | .voiceHangExpiry leg => decide (leg < 20480)
  | .languageFallback l => decide (1 ≤ l ∧ l < 32)
  | .groupFrameBoundary _ => true
  | .ethFrameReceived _ f => f.wf
  | .mgmtFrameReceived f => f.wf
  | .pauseReceived _ quanta => decide (quanta < 65536)
  | .pfcReceived _ enabled quanta => decide (enabled < 256) && (quanta.length == 8)
  | .pauseExpiry _ => true
  | .pauseResend _ => true
  | .linkLoss _ => true
  | .linkUp _ => true
  | .fecSecond _ _ _ => true
  | .portEn inst tag _ _ => inst.wf && decide (tag < 65536)
  | .qFlush inst tag => inst.wf && decide (tag < 65536)
  | .poolTest inst tag => inst.wf && decide (tag < 65536)
  | .poolTestDone _ => true
  | .spillDrainComplete => true
  | .orphanAudit _ => true
  | .portTransmitterFree _ _ => true
  | .shaperConforming leg => decide (leg < 20480)
  | .shaperAdapt => true
  | .gateEntryChange _ => true
  | .gateConfigChange _ => true
  | .copyFormation => true
  | .estimateUpdate leg => decide (leg < 20480)
  | .refreshWaitExpiry => true
  | .refreshMinExpiry => true
  | .transportFeedbackTimer => true
  | .rtcpReportTimer => true
  | .failbackHoldExpiry _ => true
  | .legCkptTimer => true
  | .authFailSecond leg => decide (leg < 20480)
  | .legEn inst tag l _ => inst.wf && decide (tag < 65536) && decide (l < 20480)
  | .legCtrlEnable inst tag leg txn => inst.wf && decide (tag < 65536) && decide (leg < 20480) && decide (txn < 4294967296)
  | .legCtrlDisable inst tag leg txn => inst.wf && decide (tag < 65536) && decide (leg < 20480) && decide (txn < 4294967296)
  | .legCtrlSpeak inst tag leg txn => inst.wf && decide (tag < 65536) && decide (leg < 20480) && decide (txn < 4294967296)
  | .legCtrlCancel inst tag leg txn => inst.wf && decide (tag < 65536) && decide (leg < 20480) && decide (txn < 4294967296)
  | .legCtrlSetSource inst tag leg txn slot code => inst.wf && decide (tag < 65536) && decide (leg < 20480) && decide (txn < 4294967296) && decide (slot < 256) && decide (code < 65536)
  | .legCtrlSetMax inst tag leg txn slot layer => inst.wf && decide (tag < 65536) && decide (leg < 20480) && decide (txn < 4294967296) && decide (slot < 256) && decide (layer < 256)
  | .legCtrlRefresh inst tag leg txn slot => inst.wf && decide (tag < 65536) && decide (leg < 20480) && decide (txn < 4294967296) && decide (slot < 256)
  | .decEn inst tag _ _ => inst.wf && decide (tag < 65536)
  | .encEn inst tag _ _ => inst.wf && decide (tag < 65536)
  | .decodePictureComplete _ => true
  | .decodeBufWaitTimeout _ => true
  | .pictureTimeout _ => true
  | .damageWaitExpiry _ => true
  | .encodePictureComplete _ _ _ _ => true
  | .refresh inst tag _ => inst.wf && decide (tag < 65536)
  | .outputPictureBoundary _ => true
  | .composedPictureComplete => true
  | .layerTableBar2Write off value wide => decide (16777216 ≤ off ∧ off < 67108864) && decide (value < if wide then 18446744073709551616 else 4294967296)
  | .layerCopy inst tag _ => inst.wf && decide (tag < 65536)
  | .outEn inst tag _ _ => inst.wf && decide (tag < 65536)
  | .ovlBase inst tag _ base => inst.wf && decide (tag < 65536) && decide (base < 18446744073709551616)
  | .dmaGo _ _ => true
  | .dmaStop _ _ => true
  | .dmaResume _ _ => true
  | .dmaDoorbell _ => true
  | .dmaReq _ => true
  | .descriptorFetchDone _ _ _ => true
  | .descriptorComplete _ _ _ => true
  | .linkFetchDone _ _ _ => true
  | .dmaPacingPermit _ => true
  | .dmaPaceTimer _ => true
  | .busTimeout _ _ _ => true
  | .curLoRead _ fn => decide (fn < 256)
  | .dmaEn inst tag _ _ => inst.wf && decide (tag < 65536)
  | .memRequest rs => rs.all MemReq.wf
  | .reinterleaveDone _ => true
  | .dramRefresh _ _ _ => true
  | .actWindow => true
  | .patrolScrub _ _ _ => true
  | .periodicRetrain _ _ _ _ => true
  | .fullTrainingDone _ _ => true
  | .pdIdleExpiry _ _ => true
  | .memStatsClear inst tag => inst.wf && decide (tag < 65536)
  | .keyLoad r => r.wf
  | .keyErase r => r.wf
  | .keyLoadNext r => r.wf
  | .sealRequest r => r.wf
  | .sealDequeue => true
  | .sealComplete _ _ _ => true
  | .slotErase inst tag _ => inst.wf && decide (tag < 65536)
  | .inErase inst tag => inst.wf && decide (tag < 65536)
  | .outErase inst tag => inst.wf && decide (tag < 65536)
  | .egressKeyEffective leg => decide (leg < 20480)
  | .prevKeyExpiry leg => decide (leg < 20480)
  | .pdRequestRun inst tag d => inst.wf && decide (tag < 65536) && decide (d < 256)
  | .pdRequestCalm inst tag d => inst.wf && decide (tag < 65536) && decide (d < 256)
  | .pdRequestFrost inst tag d => inst.wf && decide (tag < 65536) && decide (d < 256)
  | .pdReset inst tag d => inst.wf && decide (tag < 65536) && decide (d < 256)
  | .lullEntry _ => true
  | .hubOff inst tag => inst.wf && decide (tag < 65536)
  | .wakeN => true
  | .drainComplete => true
  | .drainTimeout => true
  | .hostWakeRequest => true
  | .regulatorReady _ d => decide (d < 20)
  | .pllLocked d => decide (d < 20)
  | .memoryReady d failed _ => decide (d < 20) && failed.all (fun c => decide (c < 4))
  | .logicReady d => decide (d < 20)
  | .wakeStepTimeout d _ => decide (d < 20)
  | .powerGoodLoss _ => true
  | .tempAlarm _ => true
  | .tempShutdown _ => true
  | .standbyIdleTimeout => true
  | .watchdogTimeout => true
  | .wdtService => true
  | .hostWatchTimeout => true
  | .hostPing inst tag => inst.wf && decide (tag < 65536)
  | .pcieLinkDown => true
  | .perstN _ => true
  | .chClear inst tag => inst.wf && decide (tag < 65536)
  | .chRetire inst tag => inst.wf && decide (tag < 65536)
  | .pairHeartbeat h _ _ _ _ _ _ _ _ _ _ => h.wf
  | .pairHeartbeatSend => true
  | .jrnlCopy h entries => h.wf && decide (1 ≤ entries.length ∧ entries.length ≤ 16)
  | .jrnlAck h _ => h.wf
  | .jrnlMark h _ _ => h.wf
  | .stagedData h _ _ octets => h.wf && decide (octets.length ≤ 4080)
  | .legCkpt h _ => h.wf
  | .sync h _ _ _ => h.wf
  | .role h peer mine epoch _ => h.wf && decide (peer < 3) && decide (mine < 3) && decide (epoch < 4294967296)
  | .relayDown h frameTime samples => h.wf && decide (frameTime < 18446744073709551616) && shape 64 6 samples
  | .relayUp h _ _ frameTime _ samples => h.wf && decide (frameTime < 18446744073709551616) && shape 8 6 samples
  | .relayMsg h _ _ => h.wf
  | .pairTimeEcho h _ _ => h.wf
  | .pairResend => true
  | .pairLinkDown => true
  | .pairLinkUp => true
  | .beacon _ _ _ _ _ _ epoch _ _ => decide (epoch < 4294967296)
  | .beaconTimeout => true
  | .splitSettle _ => true
  | .masterSwitch => true
  | .takeTimeout => true
  | .pairStartTimeout _ => true
  | .switchover inst tag => inst.wf && decide (tag < 65536)
  | .forceActive inst tag => inst.wf && decide (tag < 65536)
  | .bridgeBeacon _ _ _ _ _ _ epoch _ => decide (epoch < 4294967296)
  | .bridgeBeaconTimer => true
  | .coldBoot _ => true
  | .bootStepComplete channels _ => channels.all (fun c => decide (c.channel < 4))
  | .coreBrownout => true
  | .stormFlashCopy => true
  | .stormClear inst tag => inst.wf && decide (tag < 65536)
  | .returnPrep inst tag => inst.wf && decide (tag < 65536)
  | .vaneEn inst tag _ => inst.wf && decide (tag < 65536)
  | .bypass => true
  | .idcode => true
  | .samplePreload => true
  | .extest => true
  | .extestPulse => true
  | .extestTrain => true
  | .clamp => true
  | .highz => true
  | .testUnlock _ => true
  | .buttonPress node _ => decide (node < 16384)
  | .sapFrame _ _ => true
  | .ref10mInEdge => true
  | .ptpDelayReqInterval => true
  | .ptpAnnounceInterval => true
  | .replayDone _ _ => true
  | .pcieLinkUp => true
  | .mgmtLinkChange _ => true
  | .lanokCrcFailure _ _ => true
  | .fieldSupplyLoss => true
  | .vddIoRise => true
  | .vddIoRemoved => true
  | .rstNLow => true

end Sys2Proof
end

