-- ==== Sys2Proof/Config.lean ====
section
/-! DEFINITION. Free values: what the spec leaves open and the machine nevertheless produces. None has a body, so
no proof can see one: a statement about a free value holds for every value of it. -/
namespace Sys2Proof.Config

/-- A fresh value the spec leaves undefined, drawn by the counter `State.freeCtr` (assumption 2). -/
opaque freeValue : Nat → Nat

/-- R145 lays out the value of a dictionary write in a journal entry; the octets of other work's value (a group, a node event, a
launch, a leg transaction, a vote) are open (assumption 152). -/
opaque journalValue : Durable → Bytes

/-- Table FLT-4 gives no layout of a leg's checkpoint (R309), of a segment of a checkpoint and of the final slot indices of a
switchover (assumption 161). -/
opaque pairValue : PMsg → Bytes

/-- Whether the PAYLOAD of a firmware item points into the interleaved DRAM (R156): Table SCH-1 leaves its contents to
firmware (assumption 154). -/
opaque payloadInDram : (typ payload : Nat) → Bool

/-- R37 gives the loop its order, bandwidth, range and resolution but not its coefficients: the frequency
correction (units of 2⁻⁴⁰) that follows from LOOP_BW, the offset in 2⁻¹⁶ ns and the present correction,
before the clip at ±100 ppm (assumption 3). -/
opaque loopCorrection : (bandwidth : Nat) → (offset : Int) → (present : Int) → Int

/-- R33 has the default best master clock algorithm compare accuracy and variance, and the spec gives no figure for the hub's
own clock: those it announces in a clockClass (assumption 11). -/
opaque clockAccuracy : (clockClass : Nat) → Nat
opaque clockVariance : (clockClass : Nat) → Nat

/-- Table ISB-4 names a filtered PTP offset; the filter is not given: the filtered offset that follows the last one and
a new measurement, both in 2⁻¹⁶ ns (assumption 10). -/
opaque filterOffset : (last : Int) → (measured : Int) → Int

/-- R45: the 22.5792 MHz synthesiser follows Isobar in frequency only: where its edges lie in its period, in 2⁻¹⁶ ns
(assumption 157). -/
opaque synth44Phase : Nat

/-- R192 gives the figures an ASRC meets but not its filters: a converted sample, from the port rate in mHz, the rate
phase and the samples of the channel newest first that lie at most the filter delay before and after the one it stands for
(assumption 23). -/
opaque asrc : (rate phase : Nat) → (history : List Int) → Int

/-- R233 and R234 name standard measures without their arithmetic: a level in 0.01 dBFS from a sum of squares over 14,400
samples (assumption 24). -/
opaque levelDb : (sumOfSquares : Nat) → Int

/-- K-weighting of a 100 ms segment (ITU-R BS.1770-4): the filter state after it, and its mean square (assumption 24). -/
opaque kFilter : (state : Nat) → (segment : List (List Int)) → Nat
opaque kEnergy : (state : Nat) → (segment : List (List Int)) → Nat

/-- Loudness in 0.1 LUFS of a mean square, and true peak of a segment in 0.1 dBTP (assumption 24). -/
opaque lufs : (energy : Nat) → Int
opaque truePeak : (segment : List (List Int)) → Int

/-- R230 names the audio codecs, whose decoders and encoders their own standards define: the Q1.31 samples at 48 kHz of a
packet of a payload type, each with its one or two channels, and the decoder's state after it (assumption 27). -/
opaque decodeAudio : (payloadType state : Nat) → (payload : List Nat) → List (List Int)
opaque decoderNext : (payloadType state : Nat) → (payload : List Nat) → Nat

/-- The encoders: settings of Table MIX-6, the encoder's state, the samples of a frame with its channels in turn ↦ the payload (empty: no packet), and
the state after it (assumption 27). -/
opaque encodeAudio : (settings : List Nat) → (state : Nat) → (samples : List Int) → List Nat
opaque encoderNext : (settings : List Nat) → (state : Nat) → (samples : List Int) → Nat

/-- A concealed sample: the last decoded one and the number concealed since (assumption 27). -/
opaque conceal : (last : Int) → (run : Nat) → Int

/-- R306 does not say how a transport-wide feedback packet packs its statuses: its octets, from which numbers were
received (assumption 29). -/
opaque feedbackSize : (reports : List (Nat × Bool)) → Nat

/-- The octets of that feedback packet after its sender's SSRC (assumption 29). -/
opaque feedbackOctets : (sender : Nat) → (reports : List (Nat × Option Int)) → Bytes

/-- IEEE 1588 lays out a PTP message (R33): its octets, from its kind, time, sequence number, the clock a Delay_Resp answers
and the values of its data set (assumption 159). -/
opaque ptpOctets : (kind : PtpKind) → (values : List Nat) → Bytes

/-- Firmware makes the answers of system queues 12 and 13 (R241, R257): what follows the Ethernet header, from the kind, the
EtherType first (assumption 174). -/
opaque answerOctets : (kind : Nat) → (address : Bytes) → Bytes

/-- The Ethernet address of the next hop to an address on a port, for datagrams R124 sends (assumption 174). -/
opaque nextHop : (port : Nat) → (dst : Bytes) → Nat

/-- R335 does not fix the encoded bitstream, and H.264 and AV1 themselves define what a picture decodes to: a decoded
sample, from a number drawn for the picture, the component (0 Y, 1 Cb, 2 Cr) and its place (assumption 31). -/
opaque decodeSample : (picture comp x y : Nat) → Nat

/-- The rounding of the mean QP of a picture's rows is not given (assumption 32). -/
opaque meanQp : (qps : List Nat) → Nat

/-- R400: an octet of the interleaved space after it has become undefined for the `epoch`-th time (assumption 33). -/
opaque memOctet : (epoch addr : Nat) → Nat

/-- R471, R160: whether the ECDSA P-384 signature of a firmware slot's octets verifies against Nolrov's key, and the SHA-384
digest of its octets (assumption 35). -/
opaque sigValid : (image : List Nat) → Bool
opaque sha384 : (image : List Nat) → Nat

/-- Table DIAG-2 names the values in DATA of a Storm record without their widths: the 36 octets, from the code and the values
(assumption 38). -/
opaque stormData : (code : Nat) → (values : List Nat) → List Nat

end Sys2Proof.Config
end

