-- ==== Sys2Proof/Machine/DictTable.lean ====
section
/-! DEFINITION. The object dictionary (chapter DIC): every entry row of the spec's dictionary tables, with its type
(R107), access class (R108), default (R109) and range. -/
namespace Sys2Proof.Machine

/-- Value types of Table DIC-1. -/
inductive Ty where
  | bool | u8 | u16 | u32 | u64 | i16 | i32 | isobar | enum | bits32 | str | blob
deriving DecidableEq, Repr

/-- Access classes of R108. -/
inductive Acc where
  | ro | rw | wo | rwm | rwp | cmd
deriving DecidableEq, Repr

/-- What the Units/range column allows a written value to be. -/
inductive Rng where
  /-- every value of the type -/
  | any
  /-- 00h or 01h, else 03h TYPE (R107) -/
  | bool
  /-- only 1: the range of a BOOL command -/
  | one
  | nat (lo hi : Nat)
  | int (lo hi : Int)
  /-- a span, or one value outside it with a meaning of its own -/
  | natOr (lo hi x : Nat)
  | oneOf (l : List Nat)
  /-- defined bits; any other bit set is out of range -/
  | mask (m : Nat)
  | mult (k : Nat)
  | multIn (lo hi k : Nat)
  /-- octet count of a STR or BLOB -/
  | len (lo hi : Nat)
  | lens (l : List Nat)
  /-- a range that depends on other values; `specialRange` holds it -/
  | special
deriving DecidableEq, Repr

/-- The stored default (R109): a value, or one that depends on the instance (`specialDefault`). -/
inductive Dflt where
  | nat (n : Nat)
  | special
deriving DecidableEq, Repr

/-- How an entry is instanced: once; held separately for each transport instance; or once for each value of the
selection key at subindex `sub` of the same index, itself held per transport instance or once. -/
inductive Sel where
  | none
  | held
  | by (sub : Nat) (perInstance : Bool)
deriving DecidableEq, Repr

/-- A row: `n` indices from `idx` in steps of `stride`, `m` subindices from `sub` in steps of `sstride`. -/
structure Entry where
  idx : Nat
  n : Nat
  stride : Nat
  sub : Nat
  m : Nat
  sstride : Nat
  ty : Ty
  acc : Acc
  dflt : Dflt
  rng : Rng
  sel : Sel
deriving DecidableEq, Repr

def tableDic0 : List Entry := [
  -- VENDOR
  .mk 0x0000 1 1 0x01 1 1 .u32 .ro (.nat 0x4e4c5256) (.any) .none,
  -- PART
  .mk 0x0000 1 1 0x02 1 1 .u32 .ro (.nat 4096) (.any) .none,
  -- SILICON_REV
  .mk 0x0000 1 1 0x03 1 1 .u16 .ro (.nat 0) (.any) .none,
  -- TEMP_GRADE
  .mk 0x0000 1 1 0x04 1 1 .enum .ro (.nat 0) (.any) .none,
  -- SERIAL
  .mk 0x0000 1 1 0x05 1 1 .u64 .ro (.nat 0) (.any) .none,
  -- FW_VERSION
  .mk 0x0000 1 1 0x06 1 1 .u32 .ro (.nat 0) (.any) .none,
  -- ROM_VERSION
  .mk 0x0000 1 1 0x07 1 1 .u32 .ro (.nat 0) (.any) .none,
  -- UNIT_NAME
  .mk 0x0000 1 1 0x08 1 1 .str .rwp (.nat 0) (.len 0 64) .none,
  -- MODE
  .mk 0x0001 1 1 0x01 1 1 .enum .ro (.nat 0) (.any) .none,
  -- MODE_REQUEST
  .mk 0x0001 1 1 0x02 1 1 .enum .cmd (.nat 0) (.nat 0 7) .none,
  -- BOOT_MODE
  .mk 0x0001 1 1 0x03 1 1 .enum .rwp (.nat 0) (.nat 0 3) .none,
  -- MODE_SINCE
  .mk 0x0001 1 1 0x04 1 1 .isobar .ro (.nat 0) (.any) .none,
  -- SUMMARY
  .mk 0x0002 1 1 0x01 1 1 .bits32 .ro (.nat 0) (.any) .none,
  -- DIE_TEMP
  .mk 0x0002 1 1 0x02 1 1 .i16 .ro (.nat 0) (.any) .none,
  -- UPTIME
  .mk 0x0002 1 1 0x03 1 1 .u32 .ro (.nat 0) (.any) .none,
  -- WARM_RESET
  .mk 0x0003 1 1 0x01 1 1 .bool .cmd (.nat 0) (.one) .none,
  -- LAST_CMD
  .mk 0x0004 1 1 0x01 5 1 .u32 .ro (.nat 0) (.any) .none,
  -- PERSIST_PENDING
  .mk 0x0005 1 1 0x01 1 1 .u16 .ro (.nat 0) (.any) .none,
  -- FACTORY_RESET
  .mk 0x0005 1 1 0x02 1 1 .bool .cmd (.nat 0) (.one) .none,
  -- IMAGE_ID
  .mk 0x0005 1 1 0x03 1 1 .u32 .ro (.nat 0) (.any) .none,
  -- IMAGE_STATE
  .mk 0x0005 1 1 0x04 1 1 .enum .ro (.nat 0) (.any) .none,
  -- IMAGE_ERR_KEY
  .mk 0x0005 1 1 0x05 1 1 .u32 .ro (.nat 0) (.any) .none,
  -- IMAGE_SIGNED_ONLY
  .mk 0x0005 1 1 0x06 1 1 .bool .rwp (.nat 0) (.bool) .none,
  -- CLAIM_SELECT
  .mk 0x0180 1 1 0x01 1 1 .u32 .rw (.nat 0) (.special) .none,
  -- CLAIM_OWNER
  .mk 0x0180 1 1 0x02 1 1 .u32 .ro (.nat 0) (.any) .none,
  -- CLAIM_FREE
  .mk 0x0181 1 1 0x01 7 1 .u16 .ro .special (.any) .none,
  -- TP_EN
  .mk 0x0200 5 1 0x01 1 1 .bool .rwp .special (.bool) .none,
  -- AUTH_MODE
  .mk 0x0200 5 1 0x02 1 1 .enum .rwp (.nat 0) (.nat 0 2) .none,
  -- AUTH_SLOT
  .mk 0x0200 5 1 0x03 1 1 .u8 .rwp (.nat 0) (.nat 0 63) .none,
  -- REQUESTS_DIC
  .mk 0x0200 5 1 0x04 1 1 .u32 .ro (.nat 0) (.any) .none,
  -- DROPS
  .mk 0x0200 5 1 0x05 1 1 .u32 .ro (.nat 0) (.any) .none,
  -- UDP_PORT
  .mk 0x0210 1 1 0x01 1 1 .u16 .rwp (.nat 4870) (.nat 1024 65535) .none,
  -- IP_MODE
  .mk 0x0210 1 1 0x02 1 1 .enum .rwp (.nat 0) (.nat 0 1) .none,
  -- IP_ADDR
  .mk 0x0210 1 1 0x03 1 1 .blob .rwp (.nat 0) (.lens [4, 16]) .none,
  -- IP_PREFIX
  .mk 0x0210 1 1 0x04 1 1 .u8 .rwp (.nat 24) (.nat 0 128) .none,
  -- IP_GATEWAY
  .mk 0x0210 1 1 0x05 1 1 .blob .rwp (.nat 0) (.lens [4, 16]) .none
]
def tableDic : List Entry := tableDic0

def tablePwr0 : List Entry := [
  -- HUB_PSTATE
  .mk 0x0400 1 1 0x01 1 1 .enum .ro (.nat 4) (.any) .none,
  -- STANDBY_DEPTH
  .mk 0x0400 1 1 0x02 1 1 .enum .rwp (.nat 1) (.nat 0 1) .none,
  -- DRAIN_TIMEOUT
  .mk 0x0400 1 1 0x03 1 1 .u16 .rwp (.nat 100) (.nat 10 10000) .none,
  -- HUB_OFF
  .mk 0x0400 1 1 0x04 1 1 .bool .cmd (.nat 0) (.one) .none,
  -- LAST_WAKE
  .mk 0x0400 1 1 0x05 1 1 .u8 .ro (.nat 0) (.any) .none,
  -- LAST_WAKE_AT
  .mk 0x0400 1 1 0x06 1 1 .isobar .ro (.nat 0) (.any) .none,
  -- LAST_WAKE_TIME
  .mk 0x0400 1 1 0x07 1 1 .u32 .ro (.nat 0) (.any) .none,
  -- ENTRY_ABORTS
  .mk 0x0400 1 1 0x08 1 1 .u32 .ro (.nat 0) (.any) .none,
  -- LIMP
  .mk 0x0400 1 1 0x09 1 1 .bool .ro (.nat 0) (.any) .none,
  -- LATCH_COUNT
  .mk 0x0400 1 1 0x0A 1 1 .u8 .ro (.nat 0) (.any) .none,
  -- LATCH_MERGED
  .mk 0x0400 1 1 0x0B 1 1 .u32 .ro (.nat 0) (.any) .none,
  -- WAKE_LATCH
  .mk 0x0400 1 1 0x0C 1 1 .blob .ro (.nat 0) (.any) .none,
  -- TEMP_ALARM
  .mk 0x0400 1 1 0x0D 1 1 .i16 .rwp (.nat 760) (.any) .none,
  -- TEMP_EVENTS
  .mk 0x0400 1 1 0x0E 1 1 .u32 .ro (.nat 0) (.any) .none,
  -- PD_STATE
  .mk 0x0420 20 1 0x01 1 1 .enum .ro (.nat 5) (.any) .none,
  -- PD_REQUEST
  .mk 0x0420 20 1 0x02 1 1 .enum .cmd (.nat 0) (.oneOf [0, 2, 3]) .none,
  -- LULL_EN
  .mk 0x0420 20 1 0x03 1 1 .bool .rwp (.nat 1) (.bool) .none,
  -- PD_RESET
  .mk 0x0420 20 1 0x04 1 1 .bool .cmd (.nat 0) (.one) .none,
  -- PD_FAIL_STEP
  .mk 0x0420 20 1 0x05 1 1 .enum .ro (.nat 0) (.any) .none,
  -- PD_WAKES
  .mk 0x0420 20 1 0x06 1 1 .u32 .ro (.nat 0) (.any) .none,
  -- PD_RETRIES
  .mk 0x0420 20 1 0x07 1 1 .u32 .ro (.nat 0) (.any) .none,
  -- PD_LULL_PCT
  .mk 0x0420 20 1 0x08 1 1 .u8 .ro (.nat 0) (.any) .none
]
def tablePwr : List Entry := tablePwr0

def tableFlt0 : List Entry := [
  -- UPSETS_TOTAL
  .mk 0x0800 1 1 0x01 1 1 .u32 .ro (.nat 0) (.any) .none,
  -- RETIRED_COUNT
  .mk 0x0800 1 1 0x02 1 1 .u16 .ro (.nat 0) (.any) .none,
  -- WDT_PERIOD
  .mk 0x0800 1 1 0x03 1 1 .u16 .rwp (.nat 100) (.nat 10 10000) .none,
  -- WDT_RESETS
  .mk 0x0800 1 1 0x04 1 1 .u32 .ro (.nat 0) (.any) .none,
  -- LAST_RESET
  .mk 0x0800 1 1 0x05 1 1 .enum .ro (.nat 0) (.any) .none,
  -- HOST_WATCH
  .mk 0x0800 1 1 0x06 1 1 .u16 .rwp (.nat 0) (.natOr 10 60000 0) .none,
  -- HOST_PING
  .mk 0x0800 1 1 0x07 1 1 .bool .cmd (.nat 0) (.one) .none,
  -- HOST_LOSSES
  .mk 0x0800 1 1 0x08 1 1 .u32 .ro (.nat 0) (.any) .none,
  -- RETRY_N
  .mk 0x0810 12 1 0x01 1 1 .u8 .rwp .special (.nat 0 255) .none,
  -- WINDOW_W
  .mk 0x0810 12 1 0x02 1 1 .u32 .rwp .special (.nat 1 86400) .none,
  -- TYPE_UPSETS
  .mk 0x0810 12 1 0x03 1 1 .u32 .ro (.nat 0) (.any) .none,
  -- TYPE_RETIRED
  .mk 0x0810 12 1 0x04 1 1 .u16 .ro (.nat 0) (.any) .none,
  -- CH_SELECT
  .mk 0x0820 1 1 0x01 1 1 .u32 .rw (.nat 0) (.special) .held,
  -- CH_UPSETS
  .mk 0x0820 1 1 0x02 1 1 .u32 .ro (.nat 0) (.any) (.by 1 true),
  -- CH_STATUS
  .mk 0x0820 1 1 0x03 1 1 .enum .ro (.nat 0) (.any) (.by 1 true),
  -- CH_RETIRED_AT
  .mk 0x0820 1 1 0x04 1 1 .isobar .ro (.nat 0) (.any) (.by 1 true),
  -- CH_CLEAR
  .mk 0x0820 1 1 0x05 1 1 .bool .cmd (.nat 0) (.one) (.by 1 true),
  -- CH_RETIRE
  .mk 0x0820 1 1 0x06 1 1 .bool .cmd (.nat 0) (.one) (.by 1 true),
  -- PAIR_EN
  .mk 0x0900 1 1 0x01 1 1 .bool .rwm (.nat 0) (.bool) .none,
  -- PAIR_ROLE_PIN
  .mk 0x0900 1 1 0x02 1 1 .bool .ro (.nat 0) (.any) .none,
  -- ROLE
  .mk 0x0900 1 1 0x03 1 1 .enum .ro (.nat 0) (.any) .none,
  -- PAIR_STATE
  .mk 0x0900 1 1 0x04 1 1 .enum .ro (.nat 0) (.any) .none,
  -- EPOCH
  .mk 0x0900 1 1 0x05 1 1 .u32 .ro (.nat 0) (.any) .none,
  -- PEER_SERIAL
  .mk 0x0900 1 1 0x06 1 1 .u64 .ro (.nat 0) (.any) .none,
  -- PAIR_LINK_STATE
  .mk 0x0900 1 1 0x07 1 1 .enum .ro (.nat 0) (.any) .none,
  -- PAIR_LINK_TIMEOUT
  .mk 0x0900 1 1 0x08 1 1 .u16 .rwp (.nat 1000) (.nat 200 10000) .none,
  -- BEACON_TIMEOUT
  .mk 0x0900 1 1 0x09 1 1 .u16 .rwp (.nat 10) (.nat 3 100) .none,
  -- SPLIT_SETTLE
  .mk 0x0900 1 1 0x0A 1 1 .u16 .rwp (.nat 20) (.nat 5 1000) .none,
  -- ENROLLED
  .mk 0x0900 1 1 0x0B 1 1 .u16 .ro (.nat 0) (.any) .none,
  -- REACHABLE
  .mk 0x0900 1 1 0x0C 1 1 .u16 .ro (.nat 0) (.any) .none,
  -- SWITCHOVER
  .mk 0x0900 1 1 0x0D 1 1 .bool .cmd (.nat 0) (.one) .none,
  -- FORCE_ACTIVE
  .mk 0x0900 1 1 0x0E 1 1 .bool .cmd (.nat 0) (.one) .none,
  -- FAILOVERS_FLT
  .mk 0x0900 1 1 0x0F 1 1 .u32 .ro (.nat 0) (.any) .none,
  -- SPLITS
  .mk 0x0900 1 1 0x10 1 1 .u32 .ro (.nat 0) (.any) .none,
  -- JOURNAL_GAPS
  .mk 0x0900 1 1 0x11 1 1 .u32 .ro (.nat 0) (.any) .none,
  -- LAST_FAILOVER_AT
  .mk 0x0900 1 1 0x12 1 1 .isobar .ro (.nat 0) (.any) .none,
  -- LAST_FAILOVER_TIME
  .mk 0x0900 1 1 0x13 1 1 .u32 .ro (.nat 0) (.any) .none,
  -- SYNC_PROGRESS
  .mk 0x0900 1 1 0x14 1 1 .u8 .ro (.nat 0) (.any) .none,
  -- PAIR_LINK_COUNTS
  .mk 0x0900 1 1 0x15 3 1 .u32 .ro (.nat 0) (.any) .none,
  -- PEER_MGMT_ADDR
  .mk 0x0900 1 1 0x18 1 1 .blob .rwp (.nat 0) (.lens [4, 16]) .none
]
def tableFlt : List Entry := tableFlt0

def tableDiag0 : List Entry := [
  -- STORM_HELD
  .mk 0x0C00 1 1 0x01 1 1 .u16 .ro (.nat 0) (.any) .none,
  -- STORM_FLASHED
  .mk 0x0C00 1 1 0x02 1 1 .u32 .ro (.nat 0) (.any) .none,
  -- STORM_INDEX
  .mk 0x0C00 1 1 0x03 1 1 .u32 .rw (.nat 0) (.any) .held,
  -- STORM_READ
  .mk 0x0C00 1 1 0x04 1 1 .blob .ro (.nat 0) (.any) (.by 3 true),
  -- STORM_CLEAR
  .mk 0x0C00 1 1 0x05 1 1 .bool .cmd (.nat 0) (.one) .none,
  -- STORM_OVERWRITTEN
  .mk 0x0C00 1 1 0x06 1 1 .u32 .ro (.nat 0) (.any) .none,
  -- VANE_EN
  .mk 0x0D00 1 1 0x01 1 1 .bool .rw (.nat 0) (.bool) .none,
  -- VANE_BASE
  .mk 0x0D00 1 1 0x02 1 1 .u64 .rw (.nat 0) (.mult 0x10000) .none,
  -- VANE_SIZE
  .mk 0x0D00 1 1 0x03 1 1 .u32 .rw (.nat 0x1000000) (.multIn 0x10000 0x80000000 0x10000) .none,
  -- VANE_MODE
  .mk 0x0D00 1 1 0x04 1 1 .enum .rw (.nat 0) (.nat 0 1) .none,
  -- VANE_TRACE_ONLY
  .mk 0x0D00 1 1 0x05 1 1 .bool .rw (.nat 0) (.bool) .none,
  -- VANE_EVENTS
  .mk 0x0D00 1 1 0x06 1 1 .bits32 .rw (.nat 0x7ffe) (.mask 0x7FFE) .none,
  -- VANE_LEVELS
  .mk 0x0D00 1 1 0x07 1 1 .bits32 .rw (.nat 0xffff) (.mask 0xFFFF) .none,
  -- VANE_FLOW
  .mk 0x0D00 1 1 0x08 1 1 .u32 .rw (.nat 0xffff0000) (.any) .none,
  -- VANE_TYPE
  .mk 0x0D00 1 1 0x09 1 1 .u32 .rw (.nat 0) (.any) .none,
  -- VANE_WP
  .mk 0x0D00 1 1 0x0A 1 1 .u32 .ro (.nat 0) (.any) .none,
  -- VANE_RECORDS
  .mk 0x0D00 1 1 0x0B 1 1 .u64 .ro (.nat 0) (.any) .none,
  -- VANE_DROPS
  .mk 0x0D00 1 1 0x0C 1 1 .u32 .ro (.nat 0) (.any) .none,
  -- VANE_FULL
  .mk 0x0D00 1 1 0x0D 1 1 .bool .ro (.nat 0) (.any) .none,
  -- BAD_ACCESSES
  .mk 0x0E00 1 1 0x01 1 1 .u32 .ro (.nat 0) (.any) .none,
  -- BAD_ACCESS_LAST
  .mk 0x0E00 1 1 0x02 1 1 .u32 .ro (.nat 0) (.any) .none,
  -- RETURN_PREP
  .mk 0x0F00 1 1 0x01 1 1 .bool .cmd (.nat 0) (.one) .none,
  -- RETURNED
  .mk 0x0F00 1 1 0x02 1 1 .bool .ro (.nat 0) (.any) .none
]
def tableDiag : List Entry := tableDiag0

def tableIsb0 : List Entry := [
  -- ISB_STATE
  .mk 0x1000 1 1 0x01 1 1 .enum .ro (.nat 0) (.any) .none,
  -- ISB_SOURCE
  .mk 0x1000 1 1 0x02 1 1 .enum .ro (.nat 0) (.any) .none,
  -- ISB_NOW
  .mk 0x1000 1 1 0x03 1 1 .isobar .ro (.nat 0) (.any) .none,
  -- ISB_OFFSET
  .mk 0x1000 1 1 0x04 1 1 .i32 .ro (.nat 0) (.any) .none,
  -- ISB_FREQ_ADJ
  .mk 0x1000 1 1 0x05 1 1 .i32 .ro (.nat 0) (.any) .none,
  -- UTC_OFFSET
  .mk 0x1000 1 1 0x06 1 1 .i16 .rw (.nat 37) (.any) .none,
  -- SLEW_REMAINING
  .mk 0x1000 1 1 0x07 1 1 .i32 .ro (.nat 0) (.any) .none,
  -- EVER_QUALIFIED
  .mk 0x1000 1 1 0x08 1 1 .bool .ro (.nat 0) (.any) .none,
  -- CLIP_COUNT
  .mk 0x1000 1 1 0x09 1 1 .u32 .ro (.nat 0) (.any) .none,
  -- ISB_STEP
  .mk 0x1001 1 1 0x01 1 1 .isobar .cmd (.nat 0) (.any) .none,
  -- TOD_SET
  .mk 0x1001 1 1 0x02 1 1 .isobar .cmd (.nat 0) (.special) .none,
  -- INIT_STEP_EN
  .mk 0x1002 1 1 0x01 1 1 .bool .rwp (.nat 1) (.bool) .none,
  -- COLD_START_TIME
  .mk 0x1002 1 1 0x02 1 1 .isobar .rwp (.nat 0) (.any) .none,
  -- LOOP_BW
  .mk 0x1002 1 1 0x03 1 1 .enum .rwp (.nat 1) (.nat 0 2) .none,
  -- SLEW_LIMIT
  .mk 0x1002 1 1 0x04 1 1 .u32 .rwp (.nat 0x186a0) (.nat 1000 100000) .none,
  -- HOLDOVER_AVG
  .mk 0x1002 1 1 0x05 1 1 .u16 .rwp (.nat 64) (.nat 8 1024) .none,
  -- REQUAL_TIME
  .mk 0x1002 1 1 0x06 1 1 .u16 .rwp (.nat 10) (.nat 10 600) .none,
  -- SRC_PRIO
  .mk 0x1010 1 1 0x01 4 1 .u8 .rwp .special (.natOr 0 15 255) .none,
  -- SRC_STATUS
  .mk 0x1011 1 1 0x01 4 1 .enum .ro (.nat 0) (.any) .none,
  -- SRC_REASON
  .mk 0x1012 1 1 0x01 4 1 .enum .ro (.nat 0) (.any) .none,
  -- PTP_PORT
  .mk 0x1020 1 1 0x01 1 1 .enum .rwp (.nat 0) (.nat 0 8) .none,
  -- PTP_PROFILE
  .mk 0x1020 1 1 0x02 1 1 .enum .rwp (.nat 1) (.nat 0 1) .none,
  -- PTP_DOMAIN
  .mk 0x1020 1 1 0x03 1 1 .u8 .rwp (.nat 0) (.nat 0 127) .none,
  -- PTP_ROLE
  .mk 0x1020 1 1 0x04 1 1 .enum .rwp (.nat 0) (.nat 0 1) .none,
  -- PTP_TRANSPORT
  .mk 0x1020 1 1 0x05 1 1 .enum .rwp (.nat 0) (.nat 0 2) .none,
  -- LOG_SYNC
  .mk 0x1020 1 1 0x06 1 1 .i16 .rwp (.nat 0xfffd) (.special) .none,
  -- LOG_ANNOUNCE
  .mk 0x1020 1 1 0x07 1 1 .i16 .rwp (.nat 1) (.int 0 4) .none,
  -- LOG_DELAY_REQ
  .mk 0x1020 1 1 0x08 1 1 .i16 .rwp (.nat 0) (.special) .none,
  -- ANNOUNCE_TIMEOUT
  .mk 0x1020 1 1 0x09 1 1 .u8 .rwp (.nat 3) (.nat 2 10) .none,
  -- PRIORITY1
  .mk 0x1020 1 1 0x0A 1 1 .u8 .rwp (.nat 128) (.nat 0 255) .none,
  -- PRIORITY2
  .mk 0x1020 1 1 0x0B 1 1 .u8 .rwp (.nat 128) (.nat 0 255) .none,
  -- PTP_ASYMMETRY
  .mk 0x1020 1 1 0x0C 1 1 .i32 .rwp (.nat 0) (.any) .none,
  -- GM_IDENTITY
  .mk 0x1020 1 1 0x0D 1 1 .u64 .ro (.nat 0) (.any) .none,
  -- STEPS_REMOVED
  .mk 0x1020 1 1 0x0E 1 1 .u16 .ro (.nat 0) (.any) .none,
  -- PTP_DSCP
  .mk 0x1020 1 1 0x0F 1 1 .u8 .rwp (.nat 46) (.nat 0 63) .none,
  -- PTP_DISCARDS
  .mk 0x1020 1 1 0x10 1 1 .u32 .ro (.nat 0) (.any) .none,
  -- REF10M_EN
  .mk 0x1030 1 1 0x01 1 1 .bool .rwp (.nat 0) (.bool) .none,
  -- PPS_IN_EN
  .mk 0x1030 1 1 0x02 1 1 .bool .rwp (.nat 0) (.bool) .none,
  -- PPS_IN_EDGE
  .mk 0x1030 1 1 0x03 1 1 .enum .rwp (.nat 0) (.nat 0 1) .none,
  -- PPS_IN_DELAY
  .mk 0x1030 1 1 0x04 1 1 .i32 .rwp (.nat 0) (.any) .none
]
def tableIsb1 : List Entry := [
  -- SLOT_SELECT
  .mk 0x1040 1 1 0x01 1 1 .u16 .rw (.nat 0) (.nat 0 1023) .none,
  -- LAUNCH_RECORD
  .mk 0x1040 1 1 0x02 1 1 .blob .rw (.nat 0) (.len 32 32) (.by 1 false),
  -- LAUNCH_CANCEL
  .mk 0x1040 1 1 0x03 1 1 .u16 .cmd (.nat 0) (.nat 0 1023) .none,
  -- ARMED_COUNT
  .mk 0x1040 1 1 0x04 1 1 .u16 .ro (.nat 0) (.any) .none,
  -- LATE_COUNT
  .mk 0x1040 1 1 0x05 1 1 .u32 .ro (.nat 0) (.any) .none,
  -- COMPARATORS_FREE
  .mk 0x1040 1 1 0x06 1 1 .u16 .ro (.nat 1024) (.any) .none,
  -- FAILED_COUNT
  .mk 0x1040 1 1 0x07 1 1 .u32 .ro (.nat 0) (.any) .none,
  -- LAUNCH_WRITES_REFUSED
  .mk 0x1040 1 1 0x08 1 1 .u32 .ro (.nat 0) (.any) .none,
  -- TRUNK_SLOTS_FREE
  .mk 0x1040 1 1 0x10 8 1 .u16 .ro (.nat 256) (.any) .none,
  -- PPS_EN
  .mk 0x1050 2 1 0x01 1 1 .bool .rwp (.nat 0) (.bool) .none,
  -- PPS_PERIOD
  .mk 0x1050 2 1 0x02 1 1 .u32 .rwp (.nat 0x3b9aca00) (.special) .none,
  -- PPS_OFFSET
  .mk 0x1050 2 1 0x03 1 1 .i32 .rwp (.nat 0) (.int (-500000000) 500000000) .none,
  -- PPS_WIDTH
  .mk 0x1050 2 1 0x04 1 1 .u32 .rwp (.nat 0x5f5e100) (.special) .none,
  -- PPS_GATING
  .mk 0x1050 2 1 0x05 1 1 .enum .rwp (.nat 0) (.nat 0 1) .none,
  -- PPS_OUT_DELAY
  .mk 0x1050 2 1 0x06 1 1 .i16 .rwp (.nat 0) (.int (-1000) 1000) .none,
  -- LX_EN
  .mk 0x1060 4 1 0x01 1 1 .bool .rwp (.nat 0) (.bool) .none,
  -- LX_IDLE
  .mk 0x1060 4 1 0x02 1 1 .bool .rwp (.nat 0) (.bool) .none,
  -- LX_DELAY
  .mk 0x1060 4 1 0x03 1 1 .i16 .rwp (.nat 0) (.int (-1000) 1000) .none,
  -- LX_LEVEL
  .mk 0x1060 4 1 0x04 1 1 .bool .ro (.nat 0) (.any) .none,
  -- BARRIER_DELAY
  .mk 0x1070 1 1 0x01 1 1 .u32 .ro (.nat 0) (.any) .none,
  -- FIELD_TIME_ERROR
  .mk 0x1070 1 1 0x02 1 1 .i32 .ro (.nat 0) (.any) .none,
  -- FIELD_TIME_STATE
  .mk 0x1070 1 1 0x03 1 1 .enum .ro (.nat 0) (.any) .none,
  -- ALARM
  .mk 0x1080 1 1 0x01 1 1 .isobar .rw (.nat 0) (.any) .none,
  -- SYNTH_STATE
  .mk 0x1090 1 1 0x01 1 1 .bits32 .ro (.nat 0) (.any) .none
]
def tableIsb : List Entry := tableIsb0 ++ tableIsb1

def tableFld0 : List Entry := [
  -- FIELD_STATE
  .mk 0x1400 1 1 0x01 1 1 .enum .ro (.nat 3) (.any) .none,
  -- FIELD_REV
  .mk 0x1400 1 1 0x02 1 1 .u16 .ro (.nat 0) (.any) .none,
  -- HUB_LOST
  .mk 0x1400 1 1 0x03 1 1 .u32 .ro (.nat 0) (.any) .none,
  -- MAP_RAMP
  .mk 0x1400 1 1 0x06 1 1 .u16 .rwp (.nat 240) (.nat 1 4096) .none,
  -- LANOK_STATE
  .mk 0x1401 1 1 0x01 1 1 .enum .ro (.nat 0) (.any) .none,
  -- LANOK_COUNTS
  .mk 0x1401 1 1 0x02 4 1 .u32 .ro (.nat 0) (.any) .none,
  -- EVENT_COUNTS
  .mk 0x1402 1 1 0x01 3 1 .u32 .ro (.nat 0) (.any) .none,
  -- HD_MAX_OPEN
  .mk 0x1410 1 1 0x01 1 1 .u8 .rwp (.nat 8) (.nat 1 8) .none,
  -- HD_QUEUE
  .mk 0x1410 1 1 0x02 1 1 .u8 .rwp (.nat 32) (.nat 0 64) .none,
  -- HD_PRIO_MODE
  .mk 0x1410 1 1 0x03 1 1 .enum .rwp (.nat 0) (.nat 0 1) .none,
  -- EMERG_CLOSE
  .mk 0x1410 1 1 0x05 1 1 .bool .rwp (.nat 0) (.bool) .none,
  -- HD_STATE
  .mk 0x1411 1 1 0x01 3 1 .blob .ro (.nat 0) (.any) .none,
  -- CAN_EN
  .mk 0x1420 2 1 0x01 1 1 .bool .rwp (.nat 0) (.bool) .none,
  -- CAN_NOMINAL
  .mk 0x1420 2 1 0x02 1 1 .u16 .rwp (.nat 500) (.nat 125 1000) .none,
  -- CAN_DATA
  .mk 0x1420 2 1 0x03 1 1 .u16 .rwp (.nat 2000) (.natOr 1000 5000 0) .none,
  -- CAN_SAMPLE
  .mk 0x1420 2 1 0x04 1 1 .u8 .rwp (.nat 80) (.nat 50 90) .none,
  -- CAN_TDC
  .mk 0x1420 2 1 0x05 1 1 .bool .rwp (.nat 1) (.bool) .none,
  -- CAN_NODE_ID
  .mk 0x1420 2 1 0x06 1 1 .u8 .rwp (.nat 1) (.nat 1 127) .none,
  -- CAN_BUS
  .mk 0x1420 2 1 0x07 1 1 .enum .ro (.nat 0) (.any) .none,
  -- FGPIO_FUNC
  .mk 0x1430 16 1 0x01 1 1 .enum .rwp (.nat 0) (.nat 0 6) .none,
  -- FGPIO_ACTIVE
  .mk 0x1430 16 1 0x02 1 1 .bool .rwp (.nat 1) (.bool) .none,
  -- FGPIO_DEBOUNCE
  .mk 0x1430 16 1 0x03 1 1 .u8 .rwp (.nat 10) (.nat 0 100) .none,
  -- FGPIO_LEVEL
  .mk 0x1430 16 1 0x04 1 1 .bool .rw (.nat 0) (.bool) .none,
  -- VOTE_STATE
  .mk 0x1500 16 1 0x01 1 1 .enum .ro (.nat 0) (.any) .none,
  -- VOTE_ARG
  .mk 0x1500 16 1 0x02 1 1 .u64 .ro (.nat 0) (.any) .none,
  -- VOTE_COUNT
  .mk 0x1500 16 1 0x03 7 1 .u16 .ro (.nat 0) (.any) .none,
  -- NOT_VOTED
  .mk 0x1500 16 1 0x0A 1 1 .u16 .ro (.nat 0) (.any) .none,
  -- SEALED_AT
  .mk 0x1500 16 1 0x0B 1 1 .isobar .ro (.nat 0) (.any) .none,
  -- VOTES_LATE
  .mk 0x1500 16 1 0x0C 1 1 .u16 .ro (.nat 0) (.any) .none
]
def tableFld : List Entry := tableFld0

def tableTrunk0 : List Entry := [
  -- TRUNK_STATE
  .mk 0x1800 8 256 0x01 1 1 .enum .ro (.nat 0) (.any) .none,
  -- NODE_COUNT
  .mk 0x1800 8 256 0x02 1 1 .u16 .ro (.nat 0) (.any) .none,
  -- LOOP_DELAY
  .mk 0x1800 8 256 0x03 1 1 .u32 .ro (.nat 0) (.any) .none,
  -- TRUNK_FLAGS
  .mk 0x1800 8 256 0x04 1 1 .bits32 .ro (.nat 0) (.any) .none,
  -- ENUMERATE
  .mk 0x1800 8 256 0x05 1 1 .bool .cmd (.nat 0) (.bool) .none,
  -- BREAK_AT
  .mk 0x1800 8 256 0x06 1 1 .u32 .ro (.nat 0xffffffff) (.any) .none,
  -- LATE_NODES
  .mk 0x1800 8 256 0x07 1 1 .u32 .ro (.nat 0) (.any) .none,
  -- TRUNK_EN
  .mk 0x1800 8 256 0x08 1 1 .bool .rwp (.nat 1) (.bool) .none,
  -- PORT_LINK
  .mk 0x1801 8 256 0x01 1 1 .enum .ro (.nat 0) (.any) .none,
  -- PORT_LINK
  .mk 0x1802 8 256 0x01 1 1 .enum .ro (.nat 0) (.any) .none,
  -- PORT_SECT_ERR
  .mk 0x1801 8 256 0x02 1 1 .u32 .ro (.nat 0) (.any) .none,
  -- PORT_SECT_ERR
  .mk 0x1802 8 256 0x02 1 1 .u32 .ro (.nat 0) (.any) .none,
  -- PWR_EN
  .mk 0x1803 8 256 0x01 1 1 .bool .rwp (.nat 1) (.bool) .none,
  -- PWR_EN
  .mk 0x1804 8 256 0x01 1 1 .bool .rwp (.nat 1) (.bool) .none,
  -- PWR_LIMIT
  .mk 0x1803 8 256 0x02 1 1 .u16 .rwp (.nat 2500) (.nat 100 5000) .none,
  -- PWR_LIMIT
  .mk 0x1804 8 256 0x02 1 1 .u16 .rwp (.nat 2500) (.nat 100 5000) .none,
  -- PWR_SHUNT
  .mk 0x1803 8 256 0x03 1 1 .u16 .rwp (.nat 20) (.nat 5 100) .none,
  -- PWR_SHUNT
  .mk 0x1804 8 256 0x03 1 1 .u16 .rwp (.nat 20) (.nat 5 100) .none,
  -- PWR_SOFT
  .mk 0x1803 8 256 0x04 1 1 .u16 .rwp (.nat 20) (.nat 1 100) .none,
  -- PWR_SOFT
  .mk 0x1804 8 256 0x04 1 1 .u16 .rwp (.nat 20) (.nat 1 100) .none,
  -- PWR_CURRENT
  .mk 0x1803 8 256 0x05 1 1 .u16 .ro (.nat 0) (.any) .none,
  -- PWR_CURRENT
  .mk 0x1804 8 256 0x05 1 1 .u16 .ro (.nat 0) (.any) .none,
  -- PWR_STATE
  .mk 0x1803 8 256 0x06 1 1 .enum .ro (.nat 0) (.any) .none,
  -- PWR_STATE
  .mk 0x1804 8 256 0x06 1 1 .enum .ro (.nat 0) (.any) .none,
  -- PWR_TRIPS
  .mk 0x1803 8 256 0x07 1 1 .u32 .ro (.nat 0) (.any) .none,
  -- PWR_TRIPS
  .mk 0x1804 8 256 0x07 1 1 .u32 .ro (.nat 0) (.any) .none,
  -- PWR_CLEAR
  .mk 0x1803 8 256 0x08 1 1 .bool .cmd (.nat 0) (.bool) .none,
  -- PWR_CLEAR
  .mk 0x1804 8 256 0x08 1 1 .bool .cmd (.nat 0) (.bool) .none,
  -- MAP
  .mk 0x1808 8 256 0x01 64 1 .u8 .rwp .special (.mask 0xBF) .none,
  -- MAP
  .mk 0x1809 8 256 0x01 64 1 .u8 .rwp .special (.mask 0xBF) .none,
  -- MAP_ACTIVE
  .mk 0x180A 8 256 0x01 1 1 .u8 .ro (.nat 0) (.any) .none,
  -- SLOT_OWNER_FLD
  .mk 0x180B 8 256 0x01 32 1 .u32 .ro (.nat 0) (.any) .none
]
def tableTrunk : List Entry := tableTrunk0

def tableNode0 : List Entry := [
  -- NODE_STATE
  .mk 0x2000 16384 1 0x01 1 1 .enum .ro (.nat 0) (.any) .none,
  -- NODE_SERIAL
  .mk 0x2000 16384 1 0x02 1 1 .u64 .ro (.nat 0) (.any) .none,
  -- NODE_CLASS
  .mk 0x2000 16384 1 0x03 1 1 .enum .ro (.nat 0) (.any) .none,
  -- NODE_ENDPOINTS
  .mk 0x2000 16384 1 0x04 1 1 .u64 .ro (.nat 0) (.any) .none,
  -- NODE_PRESENT
  .mk 0x2000 16384 1 0x05 1 1 .bits32 .ro (.nat 0) (.any) .none,
  -- NODE_POS_DELAY
  .mk 0x2000 16384 1 0x06 1 1 .u32 .ro (.nat 0) (.any) .none,
  -- NODE_REPEAT
  .mk 0x2000 16384 1 0x07 1 1 .i16 .ro (.nat 0) (.any) .none,
  -- NODE_ZONE
  .mk 0x2000 16384 1 0x08 1 1 .u8 .rwp (.nat 0) (.nat 0 15) .none,
  -- NODE_LANGUAGE
  .mk 0x2000 16384 1 0x09 1 1 .u8 .rw (.nat 0) (.nat 0 31) .none,
  -- NODE_LS_ATTEN
  .mk 0x2000 16384 1 0x0A 1 1 .u16 .rwp (.nat 0) (.any) .none,
  -- NODE_EVENT_OPEN
  .mk 0x2000 16384 1 0x0B 1 1 .bool .ro (.nat 0) (.any) .none,
  -- NODE_ERR
  .mk 0x2000 16384 1 0x0C 1 1 .u32 .ro (.nat 0) (.any) .none,
  -- NODE_VOTE_GROUPS
  .mk 0x2000 16384 1 0x0D 1 1 .bits32 .rwp (.nat 1) (.mask 0xFF) .none
]
def tableNode : List Entry := tableNode0

def tableSap0 : List Entry := [
  -- SAP_EN
  .mk 0x6000 8 1 0x01 1 1 .bool .rwp (.nat 0) (.bool) .none,
  -- FORMAT
  .mk 0x6000 8 1 0x02 1 1 .enum .rwp (.nat 0) (.nat 0 2) .none,
  -- CLOCK
  .mk 0x6000 8 1 0x03 1 1 .enum .rwp (.nat 0) (.nat 0 2) .none,
  -- RATE
  .mk 0x6000 8 1 0x04 1 1 .u32 .rwp (.nat 0xbb80) (.oneOf [8000, 16000, 32000, 48000, 96000, 192000, 44100, 88200, 176400]) .none,
  -- SLOTS
  .mk 0x6000 8 1 0x05 1 1 .u8 .rwp (.nat 2) (.oneOf [2, 4, 8, 16]) .none,
  -- SLOT_WIDTH
  .mk 0x6000 8 1 0x06 1 1 .u8 .rwp (.nat 32) (.oneOf [16, 24, 32]) .none,
  -- SAMPLE_BITS
  .mk 0x6000 8 1 0x07 1 1 .u8 .rwp (.nat 24) (.oneOf [16, 20, 24, 32]) .none,
  -- IN_CH
  .mk 0x6000 8 1 0x08 1 1 .u8 .rwp (.nat 2) (.nat 0 16) .none,
  -- OUT_CH
  .mk 0x6000 8 1 0x09 1 1 .u8 .rwp (.nat 2) (.nat 0 16) .none,
  -- MIX_IN_BASE
  .mk 0x6000 8 1 0x0A 1 1 .u16 .rwp .special (.nat 0 1023) .none,
  -- MIX_OUT_BASE
  .mk 0x6000 8 1 0x0B 1 1 .u16 .rwp .special (.nat 0 1023) .none,
  -- TDM_FS
  .mk 0x6000 8 1 0x0C 1 1 .enum .rwp (.nat 0) (.nat 0 2) .none,
  -- DATA_DELAY
  .mk 0x6000 8 1 0x0D 1 1 .u8 .rwp (.nat 1) (.nat 0 1) .none,
  -- BCLK_EDGE
  .mk 0x6000 8 1 0x0E 1 1 .enum .rwp (.nat 0) (.nat 0 1) .none,
  -- GROUP
  .mk 0x6000 8 1 0x0F 1 1 .u8 .rwp (.nat 255) (.natOr 0 7 0xFF) .none,
  -- STALE_FADE
  .mk 0x6000 8 1 0x10 1 1 .u16 .rwp (.nat 0) (.natOr 1 10000 0) .none,
  -- START_FRAMES
  .mk 0x6000 8 1 0x11 1 1 .u16 .rwp (.nat 64) (.nat 8 4800) .none,
  -- SAP_STATE
  .mk 0x6000 8 1 0x12 1 1 .enum .ro (.nat 0) (.any) .none,
  -- MEASURED_RATE
  .mk 0x6000 8 1 0x13 1 1 .u32 .ro (.nat 0) (.any) .none,
  -- ASRC_STATE
  .mk 0x6000 8 1 0x14 1 1 .enum .ro (.nat 0) (.any) .none,
  -- ASRC_RATIO
  .mk 0x6000 8 1 0x15 1 1 .u64 .ro (.nat 0) (.any) .none,
  -- BUF_FILL
  .mk 0x6000 8 1 0x16 1 1 .u16 .ro (.nat 0) (.any) .none,
  -- UNDERRUNS
  .mk 0x6000 8 1 0x17 1 1 .u32 .ro (.nat 0) (.any) .none,
  -- OVERRUNS
  .mk 0x6000 8 1 0x18 1 1 .u32 .ro (.nat 0) (.any) .none,
  -- CLOCK_LOSSES
  .mk 0x6000 8 1 0x19 1 1 .u32 .ro (.nat 0) (.any) .none,
  -- STALE_IN
  .mk 0x6000 8 1 0x1A 1 1 .bits32 .ro (.nat 0) (.any) .none,
  -- G_BLOCK
  .mk 0x6100 8 1 0x01 1 1 .u16 .rwp (.nat 6) (.nat 1 480) .none,
  -- G_STATE_SAP
  .mk 0x6100 8 1 0x02 1 1 .enum .ro (.nat 0) (.any) .none,
  -- G_PORTS
  .mk 0x6100 8 1 0x03 1 1 .bits32 .ro (.nat 0) (.any) .none,
  -- G_RX
  .mk 0x6100 8 1 0x04 1 1 .u64 .ro (.nat 0) (.any) .none,
  -- G_TX
  .mk 0x6100 8 1 0x05 1 1 .u64 .ro (.nat 0) (.any) .none,
  -- G_REJOINS
  .mk 0x6100 8 1 0x06 1 1 .u32 .ro (.nat 0) (.any) .none,
  -- EP_EN_RX
  .mk 0x6200 64 1 0x01 1 1 .bool .rwp (.nat 0) (.bool) .none,
  -- EP_EN_TX
  .mk 0x6280 64 1 0x01 1 1 .bool .rwp (.nat 0) (.bool) .none,
  -- EP_CHANNELS_RX
  .mk 0x6200 64 1 0x02 1 1 .u8 .rwp (.nat 2) (.nat 1 8) .none,
  -- EP_CHANNELS_TX
  .mk 0x6280 64 1 0x02 1 1 .u8 .rwp (.nat 2) (.nat 1 8) .none,
  -- EP_ENCODING_RX
  .mk 0x6200 64 1 0x03 1 1 .enum .rwp (.nat 1) (.nat 0 1) .none,
  -- EP_ENCODING_TX
  .mk 0x6280 64 1 0x03 1 1 .enum .rwp (.nat 1) (.nat 0 1) .none,
  -- EP_PTIME_RX
  .mk 0x6200 64 1 0x04 1 1 .enum .rwp (.nat 2) (.nat 0 2) .none,
  -- EP_PTIME_TX
  .mk 0x6280 64 1 0x04 1 1 .enum .rwp (.nat 2) (.nat 0 2) .none
]
def tableSap1 : List Entry := [
  -- RTP_OFFSET_RX
  .mk 0x6200 64 1 0x05 1 1 .u32 .rwp (.nat 0) (.any) .none,
  -- RTP_OFFSET_TX
  .mk 0x6280 64 1 0x05 1 1 .u32 .rwp (.nat 0) (.any) .none,
  -- LINK_OFFSET
  .mk 0x6200 64 1 0x06 1 1 .u16 .rwp (.nat 96) (.nat 6 4800) .none,
  -- EP_MIX_IN_BASE
  .mk 0x6200 64 1 0x07 1 1 .u16 .rwp (.nat 0) (.nat 0 1023) .none,
  -- EP_MIX_OUT_BASE
  .mk 0x6280 64 1 0x07 1 1 .u16 .rwp (.nat 0) (.nat 0 1023) .none,
  -- EP_GROUP_RX
  .mk 0x6200 64 1 0x08 1 1 .u8 .rwp (.nat 255) (.natOr 0 7 0xFF) .none,
  -- EP_GROUP_TX
  .mk 0x6280 64 1 0x08 1 1 .u8 .rwp (.nat 255) (.natOr 0 7 0xFF) .none,
  -- EP_STATE_RX
  .mk 0x6200 64 1 0x09 1 1 .enum .ro (.nat 0) (.any) .none,
  -- EP_STATE_TX
  .mk 0x6280 64 1 0x09 1 1 .enum .ro (.nat 0) (.any) .none,
  -- EP_LATE
  .mk 0x6200 64 1 0x0A 1 1 .u32 .ro (.nat 0) (.any) .none,
  -- EP_LOST
  .mk 0x6200 64 1 0x0B 1 1 .u32 .ro (.nat 0) (.any) .none,
  -- EP_UNDERRUNS
  .mk 0x6200 64 1 0x0C 1 1 .u32 .ro (.nat 0) (.any) .none,
  -- EP_STALE_FADE
  .mk 0x6200 64 1 0x0D 1 1 .u16 .rwp (.nat 0) (.natOr 1 10000 0) .none
]
def tableSap : List Entry := tableSap0 ++ tableSap1

def tableMix0 : List Entry := [
  -- ACTIVE_BANKS
  .mk 0x6400 1 1 0x01 3 1 .u8 .ro (.nat 0) (.any) .none,
  -- XP_RAMP
  .mk 0x6400 1 1 0x04 1 1 .u16 .rwp (.nat 240) (.nat 1 4096) .none,
  -- XP_COPY
  .mk 0x6400 1 1 0x05 1 1 .enum .cmd (.nat 0) (.nat 0 2) .none,
  -- XP_PRESET
  .mk 0x6400 1 1 0x06 1 1 .bool .cmd (.nat 0) (.one) .none,
  -- WRITES_REFUSED
  .mk 0x6400 1 1 0x07 1 1 .u32 .ro (.nat 0) (.any) .none,
  -- EQ_BAD
  .mk 0x6400 1 1 0x08 1 1 .u32 .ro (.nat 0) (.any) .none,
  -- XP_SELECT
  .mk 0x6401 1 1 0x01 1 1 .u32 .rw (.nat 0) (.mask 0x10FFFFF) .held,
  -- XP_NODE
  .mk 0x6401 1 1 0x02 1 1 .u32 .rw (.nat 0) (.special) (.by 1 true),
  -- XP_ROW
  .mk 0x6401 1 1 0x03 1 1 .blob .rw (.nat 0) (.len 4096 4096) (.by 1 true),
  -- EQ_SELECT
  .mk 0x6402 1 1 0x01 1 1 .u32 .rw (.nat 0) (.mask 0x810F03FF) .held,
  -- EQ_SECTION
  .mk 0x6402 1 1 0x02 1 1 .blob .rw (.nat 0) (.len 32 32) (.by 1 true),
  -- IN_SELECT
  .mk 0x6410 1 1 0x01 1 1 .u16 .rw (.nat 0) (.nat 0 1023) .held,
  -- IN_OWNER
  .mk 0x6410 1 1 0x02 1 1 .u32 .ro (.nat 0) (.any) (.by 1 true),
  -- IN_TRIM
  .mk 0x6410 1 1 0x03 1 1 .u16 .rwp (.nat 0x8000) (.any) (.by 1 true),
  -- IN_TALK
  .mk 0x6410 1 1 0x04 1 1 .u16 .ro (.nat 0x8000) (.any) (.by 1 true),
  -- IN_PEAK
  .mk 0x6410 1 1 0x05 1 1 .u32 .ro (.nat 0) (.any) (.by 1 true),
  -- IN_RMS
  .mk 0x6410 1 1 0x06 1 1 .i16 .ro (.nat 0xc7c0) (.any) (.by 1 true),
  -- IN_STALE
  .mk 0x6410 1 1 0x07 1 1 .bool .ro (.nat 0) (.any) (.by 1 true),
  -- OUT_SELECT
  .mk 0x6411 1 1 0x01 1 1 .u16 .rw (.nat 0) (.nat 0 1023) .held,
  -- OUT_OWNER
  .mk 0x6411 1 1 0x02 1 1 .u32 .ro (.nat 0) (.any) (.by 1 true),
  -- OUT_MODE
  .mk 0x6411 1 1 0x03 1 1 .enum .rwp (.nat 0) (.nat 0 2) (.by 1 true),
  -- OUT_COPY_OF
  .mk 0x6411 1 1 0x04 1 1 .u16 .rwp (.nat 0) (.nat 0 1055) (.by 1 true),
  -- OUT_GAIN
  .mk 0x6411 1 1 0x05 1 1 .u16 .rwp (.nat 0x8000) (.any) (.by 1 true),
  -- OUT_MUTE
  .mk 0x6411 1 1 0x06 1 1 .bool .rwp (.nat 0) (.bool) (.by 1 true),
  -- OUT_PEAK
  .mk 0x6411 1 1 0x07 1 1 .u32 .ro (.nat 0) (.any) (.by 1 true),
  -- OUT_RMS
  .mk 0x6411 1 1 0x08 1 1 .i16 .ro (.nat 0xc7c0) (.any) (.by 1 true),
  -- OUT_CLIPS
  .mk 0x6411 1 1 0x09 1 1 .u32 .ro (.nat 0) (.any) (.by 1 true),
  -- METER_CLR
  .mk 0x6412 1 1 0x01 1 1 .bool .cmd (.nat 0) (.one) .none,
  -- LM_SOURCE
  .mk 0x6700 16 1 0x01 1 1 .u32 .rwp (.nat 960) (.mask 0x83FF03FF) .none,
  -- LM_EN
  .mk 0x6700 16 1 0x02 1 1 .bool .rwp (.nat 0) (.bool) .none,
  -- LM_VALUES
  .mk 0x6700 16 1 0x03 3 1 .i16 .ro (.nat 0x8000) (.any) .none,
  -- LM_TRUE_PEAK
  .mk 0x6700 16 1 0x06 1 1 .i16 .ro (.nat 0x8000) (.any) .none,
  -- LM_RESET
  .mk 0x6700 16 1 0x07 1 1 .bool .cmd (.nat 0) (.one) .none,
  -- LM_HISTORY
  .mk 0x6700 16 1 0x08 1 1 .blob .ro (.nat 0) (.any) .none,
  -- TM_MODE
  .mk 0x6420 1 1 0x01 1 1 .enum .rwp (.nat 1) (.nat 0 3) .none,
  -- TM_MAX_OPEN
  .mk 0x6420 1 1 0x02 1 1 .u8 .rwp (.nat 8) (.nat 1 32) .none,
  -- TM_QUEUE_LEN
  .mk 0x6420 1 1 0x03 1 1 .u8 .rwp (.nat 32) (.nat 0 64) .none,
  -- TM_NOM
  .mk 0x6420 1 1 0x04 1 1 .bool .rwp (.nat 0) (.bool) .none,
  -- TM_LEAD
  .mk 0x6420 1 1 0x05 1 1 .u16 .rwp (.nat 3) (.nat 2 100) .none,
  -- TM_PRIO_ATTEN
  .mk 0x6420 1 1 0x06 1 1 .u16 .rwp (.nat 0) (.any) .none
]
def tableMix1 : List Entry := [
  -- TM_PRIO_MODE
  .mk 0x6420 1 1 0x07 1 1 .enum .rwp (.nat 0) (.nat 0 1) .none,
  -- TM_PRIO_REMOTE
  .mk 0x6420 1 1 0x08 1 1 .bool .rwp (.nat 1) (.bool) .none,
  -- TM_REMOTE
  .mk 0x6420 1 1 0x09 1 1 .enum .rwp (.nat 0) (.nat 0 1) .none,
  -- VOICE_THRESHOLD
  .mk 0x6420 1 1 0x0A 1 1 .u8 .rwp (.nat 50) (.nat 0 127) .none,
  -- VOICE_HANG
  .mk 0x6420 1 1 0x0B 1 1 .u16 .rwp (.nat 1000) (.nat 100 10000) .none,
  -- TM_OPEN
  .mk 0x6420 1 1 0x0C 1 1 .blob .ro (.nat 0) (.any) .none,
  -- TM_QUEUE
  .mk 0x6420 1 1 0x0D 1 1 .blob .ro (.nat 0) (.any) .none,
  -- TM_GRANT
  .mk 0x6420 1 1 0x0E 1 1 .u32 .cmd (.nat 0) (.any) .none,
  -- TM_CLOSE
  .mk 0x6420 1 1 0x0F 1 1 .u32 .cmd (.nat 0) (.any) .none,
  -- TM_CLEAR_QUEUE
  .mk 0x6420 1 1 0x10 1 1 .bool .cmd (.nat 0) (.one) .none,
  -- TM_REFUSED
  .mk 0x6420 1 1 0x11 1 1 .u32 .ro (.nat 0) (.any) .none,
  -- TM_NO_SLOT
  .mk 0x6420 1 1 0x12 1 1 .u32 .ro (.nat 0) (.any) .none,
  -- BOOTH_TRUNK
  .mk 0x6441 31 1 0x01 1 1 .u8 .rwp (.nat 255) (.natOr 0 7 0xFF) .none,
  -- BOOTH_SLOT
  .mk 0x6441 31 1 0x02 1 1 .u8 .rwp (.nat 0) (.nat 0 31) .none,
  -- BOOTH_MODE
  .mk 0x6441 31 1 0x03 1 1 .enum .rwp (.nat 0) (.nat 0 1) .none,
  -- RELAY_SRC
  .mk 0x6441 31 1 0x04 1 1 .u8 .rwp (.nat 0) (.nat 0 31) .none,
  -- FALLBACK
  .mk 0x6441 31 1 0x05 1 1 .bool .rwp (.nat 1) (.bool) .none,
  -- FALLBACK_DELAY
  .mk 0x6441 31 1 0x06 1 1 .u16 .rwp (.nat 500) (.nat 0 10000) .none,
  -- LANG_STATE
  .mk 0x6441 31 1 0x07 1 1 .enum .ro (.nat 0) (.any) .none,
  -- DESK_NODE
  .mk 0x6800 256 1 0x01 1 1 .u16 .rwp (.nat 0) (.nat 0 16383) .none,
  -- DESK_LANG
  .mk 0x6800 256 1 0x02 1 1 .u8 .rwp (.nat 1) (.nat 1 31) .none,
  -- DESK_EN
  .mk 0x6800 256 1 0x03 1 1 .bool .rwp (.nat 0) (.bool) .none,
  -- CAND_LEG
  .mk 0x6500 64 1 0x01 1 1 .u16 .ro (.nat 0xffff) (.any) .none,
  -- CAND_LEVEL
  .mk 0x6500 64 1 0x02 1 1 .u8 .ro (.nat 127) (.any) .none,
  -- CAND_SINCE
  .mk 0x6500 64 1 0x03 1 1 .isobar .ro (.nat 0) (.any) .none,
  -- CAND_TALK
  .mk 0x6500 64 1 0x04 1 1 .u8 .ro (.nat 255) (.any) .none,
  -- PRESEL_WINDOW
  .mk 0x6560 1 1 0x01 1 1 .u16 .rwp (.nat 200) (.nat 20 2000) .none,
  -- PRESEL_HYST
  .mk 0x6560 1 1 0x02 1 1 .u8 .rwp (.nat 6) (.nat 0 40) .none,
  -- PRESEL_HOLD
  .mk 0x6560 1 1 0x03 1 1 .u16 .rwp (.nat 1000) (.nat 0 10000) .none,
  -- PRESEL_CHANGES
  .mk 0x6560 1 1 0x04 1 1 .u32 .ro (.nat 0) (.any) .none,
  -- TP_LEG
  .mk 0x6580 32 1 0x01 1 1 .u16 .ro (.nat 0xffff) (.any) .none,
  -- TP_SINCE
  .mk 0x6580 32 1 0x02 1 1 .isobar .ro (.nat 0) (.any) .none,
  -- SE_EN
  .mk 0x6600 64 1 0x01 1 1 .bool .rwp (.nat 0) (.bool) .none,
  -- SE_CODEC
  .mk 0x6600 64 1 0x02 1 1 .enum .rwp (.nat 0) (.nat 0 1) .none,
  -- SE_BITRATE
  .mk 0x6600 64 1 0x03 1 1 .u32 .rwp (.nat 0x7d00) (.special) .none,
  -- SE_FRAME
  .mk 0x6600 64 1 0x04 1 1 .enum .rwp (.nat 1) (.nat 0 1) .none,
  -- SE_CHANNELS
  .mk 0x6600 64 1 0x05 1 1 .u8 .rwp (.nat 1) (.nat 1 2) .none,
  -- SE_FEC
  .mk 0x6600 64 1 0x06 1 1 .bool .rwp (.nat 0) (.bool) .none,
  -- SE_DTX
  .mk 0x6600 64 1 0x07 1 1 .bool .rwp (.nat 0) (.bool) .none,
  -- SE_MEMBERS
  .mk 0x6600 64 1 0x08 1 1 .u16 .ro (.nat 0) (.any) .none
]
def tableMix2 : List Entry := [
  -- SE_TALKERS
  .mk 0x6600 64 1 0x09 1 1 .u16 .ro (.nat 0) (.any) .none,
  -- LEG_SELECT
  .mk 0x6680 1 1 0x01 1 1 .u16 .rw (.nat 0) (.nat 0 20479) .held,
  -- LEG_GROUP
  .mk 0x6680 1 1 0x02 1 1 .u8 .rwp (.nat 255) (.natOr 0 63 0xFF) (.by 1 true),
  -- LEG_PIN
  .mk 0x6680 1 1 0x03 1 1 .bool .rw (.nat 0) (.bool) (.by 1 true),
  -- LEG_LEVEL
  .mk 0x6680 1 1 0x04 1 1 .u8 .ro (.nat 127) (.any) (.by 1 true),
  -- LEG_TALK
  .mk 0x6680 1 1 0x05 1 1 .enum .ro (.nat 0) (.any) (.by 1 true)
]
def tableMix : List Entry := tableMix0 ++ tableMix1 ++ tableMix2

def tableDsp0 : List Entry := [
  -- KERNEL_ISA
  .mk 0x6C00 1 1 0x01 1 1 .u16 .ro (.nat 1) (.any) .none,
  -- CODE_FREE
  .mk 0x6C00 1 1 0x02 1 1 .u16 .ro (.nat 0x3000) (.any) .none,
  -- SHARED_FREE
  .mk 0x6C00 1 1 0x03 1 1 .u32 .ro (.nat 0x100000) (.any) .none,
  -- KFAULTS
  .mk 0x6C00 1 1 0x04 1 1 .u32 .ro (.nat 0) (.any) .none,
  -- KIMAGE
  .mk 0x6C40 64 1 0x01 1 1 .blob .rwp (.nat 0) (.len 0 65536) .none,
  -- KSTATE
  .mk 0x6C40 64 1 0x02 1 1 .enum .ro (.nat 0) (.any) .none,
  -- KID
  .mk 0x6C40 64 1 0x03 1 1 .u32 .ro (.nat 0) (.any) .none,
  -- KCODE
  .mk 0x6C40 64 1 0x04 1 1 .u16 .ro (.nat 0) (.any) .none,
  -- KERR
  .mk 0x6C40 64 1 0x05 1 1 .u32 .ro (.nat 0) (.any) .none,
  -- KUNLOAD
  .mk 0x6C40 64 1 0x06 1 1 .bool .cmd (.nat 0) (.one) .none,
  -- KRUNS
  .mk 0x6C40 64 1 0x07 1 1 .u64 .ro (.nat 0) (.any) .none,
  -- KFAULT_COUNT
  .mk 0x6C40 64 1 0x08 1 1 .u32 .ro (.nat 0) (.any) .none,
  -- KLAST_FAULT
  .mk 0x6C40 64 1 0x09 1 1 .u32 .ro (.nat 0) (.any) .none,
  -- KSAT_RUNS
  .mk 0x6C40 64 1 0x0A 1 1 .u32 .ro (.nat 0) (.any) .none,
  -- B_TYPE
  .mk 0x6D00 256 1 0x01 1 1 .u16 .rwp (.nat 0) (.natOr 0x100 0xFFF 0) .none,
  -- B_KERNEL
  .mk 0x6D00 256 1 0x02 1 1 .u8 .rwp (.nat 0) (.nat 0 63) .none,
  -- B_RUN_LIMIT
  .mk 0x6D00 256 1 0x03 1 1 .u32 .rwp (.nat 1000) (.nat 1 1000000) .none,
  -- B_XWIN
  .mk 0x6D00 256 1 0x04 1 1 .u32 .rwp (.nat 0) (.any) .none,
  -- B_YWIN
  .mk 0x6D00 256 1 0x05 1 1 .u32 .rwp (.nat 0) (.any) .none,
  -- B_NEXT
  .mk 0x6D00 256 1 0x06 1 1 .u16 .rwp (.nat 0) (.natOr 0x100 0xFFF 0) .none,
  -- B_EN
  .mk 0x6D00 256 1 0x07 1 1 .bool .rwp (.nat 0) (.bool) .none,
  -- T_ME
  .mk 0x6E00 8 1 0x01 1 1 .u8 .rwp (.nat 255) (.natOr 0 127 0xFF) .none,
  -- T_KERNEL
  .mk 0x6E00 8 1 0x02 1 1 .u8 .rwp (.nat 0) (.nat 0 63) .none,
  -- T_PERIOD
  .mk 0x6E00 8 1 0x03 1 1 .u8 .rwp (.nat 6) (.nat 1 48) .none,
  -- T_BUDGET
  .mk 0x6E00 8 1 0x04 1 1 .u32 .rwp (.nat 0x3e80) (.any) .none,
  -- T_IN_FIRST
  .mk 0x6E00 8 1 0x05 1 1 .u16 .rwp (.nat 0) (.nat 0 1023) .none,
  -- T_IN_COUNT
  .mk 0x6E00 8 1 0x06 1 1 .u8 .rwp (.nat 0) (.nat 0 64) .none,
  -- T_OUT_FIRST
  .mk 0x6E00 8 1 0x07 1 1 .u16 .rwp (.nat 0) (.nat 0 1023) .none,
  -- T_OUT_COUNT
  .mk 0x6E00 8 1 0x08 1 1 .u8 .rwp (.nat 0) (.nat 0 64) .none,
  -- T_EN
  .mk 0x6E00 8 1 0x09 1 1 .bool .rwp (.nat 0) (.bool) .none,
  -- T_ACTIVE_ME
  .mk 0x6E00 8 1 0x0A 1 1 .u8 .ro (.nat 255) (.any) .none,
  -- T_OVERRUNS
  .mk 0x6E00 8 1 0x0B 1 1 .u32 .ro (.nat 0) (.any) .none
]
def tableDsp : List Entry := tableDsp0

def tablePkt0 : List Entry := [
  -- PORT_EN
  .mk 0x7000 8 1 0x01 1 1 .bool .rwp (.nat 0) (.bool) .none,
  -- PORT_STATE
  .mk 0x7000 8 1 0x02 1 1 .enum .ro (.nat 1) (.any) .none,
  -- MEDIA
  .mk 0x7000 8 1 0x03 1 1 .enum .rwp (.nat 0) (.nat 0 2) .none,
  -- AUTONEG
  .mk 0x7000 8 1 0x04 1 1 .bool .rwp (.nat 1) (.bool) .none,
  -- FEC
  .mk 0x7000 8 1 0x05 1 1 .enum .rwp (.nat 0) (.nat 0 2) .none,
  -- MAC_ADDR
  .mk 0x7000 8 1 0x06 1 1 .u64 .rwp .special (.nat 0 0xFFFFFFFFFFFF) .none,
  -- IPV4_ADDR
  .mk 0x7000 8 1 0x07 1 1 .u32 .rwp (.nat 0) (.any) .none,
  -- IPV4_PREFIX
  .mk 0x7000 8 1 0x08 1 1 .u8 .rwp (.nat 24) (.nat 0 32) .none,
  -- IPV6_ADDR
  .mk 0x7000 8 1 0x09 1 1 .blob .rwp (.nat 0) (.lens [0, 16]) .none,
  -- VLAN
  .mk 0x7000 8 1 0x0A 1 1 .u16 .rwp (.nat 0xffff) (.natOr 0 4094 0xFFFF) .none,
  -- MAX_FRAME
  .mk 0x7000 8 1 0x0B 1 1 .u16 .rwp (.nat 1522) (.nat 64 9216) .none,
  -- PAUSE_MODE
  .mk 0x7000 8 1 0x0C 1 1 .enum .rwp (.nat 0) (.nat 0 2) .none,
  -- PFC_PRIO
  .mk 0x7000 8 1 0x0D 1 1 .bits32 .rwp (.nat 0) (.mask 0xFF) .none,
  -- RX_PAUSE_EN
  .mk 0x7000 8 1 0x0E 1 1 .bool .rwp (.nat 1) (.bool) .none,
  -- PAUSE_QUANTA
  .mk 0x7000 8 1 0x0F 1 1 .u16 .rwp (.nat 0xffff) (.nat 1 65535) .none,
  -- PORT_HIGH
  .mk 0x7000 8 1 0x10 1 1 .u32 .rwp (.nat 8192) (.nat 64 65536) .none,
  -- PORT_LOW
  .mk 0x7000 8 1 0x11 1 1 .u32 .rwp (.nat 4096) (.special) .none,
  -- PORT_CELLS
  .mk 0x7000 8 1 0x12 1 1 .u32 .ro (.nat 0) (.any) .none,
  -- FRAME_COUNTS
  .mk 0x7000 8 1 0x13 4 1 .u64 .ro (.nat 0) (.any) .none,
  -- RX_ERR
  .mk 0x7000 8 1 0x17 3 1 .u32 .ro (.nat 0) (.any) .none,
  -- FEC_CORRECTED
  .mk 0x7000 8 1 0x1A 1 1 .u64 .ro (.nat 0) (.any) .none,
  -- FEC_UNCORRECTED
  .mk 0x7000 8 1 0x1B 1 1 .u32 .ro (.nat 0) (.any) .none,
  -- FEC_UNCORR_LIMIT
  .mk 0x7000 8 1 0x1C 1 1 .u32 .rwp (.nat 100) (.nat 1 1000000) .none,
  -- RX_NO_CELL
  .mk 0x7000 8 1 0x1D 1 1 .u32 .ro (.nat 0) (.any) .none,
  -- PAUSE_SENT
  .mk 0x7000 8 1 0x1E 1 1 .u32 .ro (.nat 0) (.any) .none,
  -- PAUSE_RECEIVED
  .mk 0x7000 8 1 0x1F 1 1 .u32 .ro (.nat 0) (.any) .none,
  -- TX_PAUSED
  .mk 0x7000 8 1 0x20 1 1 .bool .ro (.nat 0) (.any) .none,
  -- LINK_DOWNS
  .mk 0x7000 8 1 0x21 1 1 .u32 .ro (.nat 0) (.any) .none,
  -- PORT_MODE
  .mk 0x7020 1 1 0x01 1 1 .enum .rwm (.nat 0) (.nat 0 2) .none,
  -- MGMT_STATE
  .mk 0x7030 1 1 0x01 1 1 .enum .ro (.nat 0) (.any) .none,
  -- MGMT_MAC
  .mk 0x7030 1 1 0x02 1 1 .u64 .rwp .special (.nat 0 0xFFFFFFFFFFFF) .none,
  -- MGMT_COUNTS
  .mk 0x7030 1 1 0x03 4 1 .u64 .ro (.nat 0) (.any) .none,
  -- POOL_MODE
  .mk 0x7100 1 1 0x01 1 1 .enum .ro (.nat 1) (.any) .none,
  -- CELLS_FREE
  .mk 0x7100 1 1 0x02 1 1 .u32 .ro (.nat 0) (.any) .none,
  -- G_HIGH
  .mk 0x7100 1 1 0x03 1 1 .u32 .rwp (.nat 0xc000) (.any) .none,
  -- G_LOW
  .mk 0x7100 1 1 0x04 1 1 .u32 .rwp (.nat 0x8000) (.any) .none,
  -- G_RESERVE
  .mk 0x7100 1 1 0x05 1 1 .u16 .rwp (.nat 2048) (.nat 256 8192) .none,
  -- G_STATE_PKT
  .mk 0x7100 1 1 0x06 1 1 .enum .ro (.nat 0) (.any) .none,
  -- CELLS_MAPPED_OUT
  .mk 0x7100 1 1 0x07 1 1 .u16 .ro (.nat 0) (.any) .none,
  -- ECC_CORRECTED
  .mk 0x7100 1 1 0x08 1 1 .u64 .ro (.nat 0) (.any) .none
]
def tablePkt1 : List Entry := [
  -- POOL_ERRORS
  .mk 0x7100 1 1 0x09 3 1 .u32 .ro (.nat 0) (.any) .none,
  -- POOL_UPSET_N
  .mk 0x7100 1 1 0x0C 1 1 .u8 .rwp (.nat 8) (.nat 1 255) .none,
  -- POOL_UPSET_W
  .mk 0x7100 1 1 0x0D 1 1 .u16 .rwp (.nat 60) (.nat 1 3600) .none,
  -- POOL_RECOVERIES
  .mk 0x7100 1 1 0x0E 1 1 .u32 .ro (.nat 0) (.any) .none,
  -- POOL_TEST
  .mk 0x7100 1 1 0x0F 1 1 .bool .cmd (.nat 0) (.one) .none,
  -- QUEUE_SELECT
  .mk 0x7110 1 1 0x01 1 1 .u16 .rw (.nat 0) (.nat 0 41101) .held,
  -- Q_DESC
  .mk 0x7110 1 1 0x02 1 1 .blob .ro (.nat 0) (.any) (.by 1 true),
  -- Q_HIGH
  .mk 0x7110 1 1 0x03 1 1 .u16 .rwp .special (.any) (.by 1 true),
  -- Q_LOW
  .mk 0x7110 1 1 0x04 1 1 .u16 .rwp .special (.any) (.by 1 true),
  -- Q_LIMIT
  .mk 0x7110 1 1 0x05 1 1 .u16 .rwp .special (.any) (.by 1 true),
  -- Q_FLUSH
  .mk 0x7110 1 1 0x06 1 1 .bool .cmd (.nat 0) (.one) (.by 1 true),
  -- FCO_EN
  .mk 0x7180 4 1 0x01 1 1 .bool .rwp (.nat 0) (.bool) .none,
  -- FCO_SOURCE
  .mk 0x7180 4 1 0x02 1 1 .u32 .rwp (.nat 0) (.special) .none,
  -- FCO_ACTIVE
  .mk 0x7180 4 1 0x03 1 1 .bool .rwp (.nat 1) (.bool) .none,
  -- FCO_LEVEL
  .mk 0x7180 4 1 0x04 1 1 .bool .ro (.nat 0) (.any) .none,
  -- SPILL_BASE
  .mk 0x7190 1 1 0x01 1 1 .u64 .rwm .special (.mult 0x80000000) .none,
  -- SPILL_LEGS
  .mk 0x7190 1 1 0x02 1 1 .blob .rwp (.nat 0) (.special) .none,
  -- SPILL_QUEUES
  .mk 0x7190 1 1 0x03 1 1 .u16 .ro (.nat 0) (.any) .none,
  -- SPILL_DROPS
  .mk 0x7190 1 1 0x04 1 1 .u32 .ro (.nat 0) (.any) .none,
  -- EXC_EN
  .mk 0x7200 1 1 0x01 1 1 .bits32 .rwp (.nat 3) (.mask 0xF) .none,
  -- PARSE_DROPS
  .mk 0x7200 1 1 0x02 8 1 .u32 .ro (.nat 0) (.any) .none,
  -- CIPHER_DROPS
  .mk 0x7200 1 1 0x0A 3 1 .u32 .ro (.nat 0) (.any) .none,
  -- EP_PORT_RX
  .mk 0x7400 64 1 0x01 1 1 .u8 .rwp (.nat 0) (.nat 0 7) .none,
  -- EP_PORT_TX
  .mk 0x7440 64 1 0x01 1 1 .u8 .rwp (.nat 0) (.nat 0 7) .none,
  -- EP_DEST_ADDR_RX
  .mk 0x7400 64 1 0x02 1 1 .blob .rwp (.nat 0) (.lens [4, 16]) .none,
  -- EP_DEST_ADDR_TX
  .mk 0x7440 64 1 0x02 1 1 .blob .rwp (.nat 0) (.lens [4, 16]) .none,
  -- EP_UDP_PORT_RX
  .mk 0x7400 64 1 0x03 1 1 .u16 .rwp (.nat 5004) (.nat 1 65535) .none,
  -- EP_UDP_PORT_TX
  .mk 0x7440 64 1 0x03 1 1 .u16 .rwp (.nat 5004) (.nat 1 65535) .none,
  -- RX_SOURCE
  .mk 0x7400 64 1 0x04 1 1 .blob .rwp (.nat 0) (.lens [0, 4, 16]) .none,
  -- RX_PT
  .mk 0x7400 64 1 0x05 1 1 .u8 .rwp (.nat 255) (.natOr 0 127 0xFF) .none,
  -- RX_SSRC_MODE
  .mk 0x7400 64 1 0x06 1 1 .enum .rwp (.nat 1) (.nat 0 2) .none,
  -- RX_SSRC
  .mk 0x7400 64 1 0x07 1 1 .u32 .rwp (.nat 0) (.any) .none,
  -- RX_DROPS
  .mk 0x7400 64 1 0x08 1 1 .u32 .ro (.nat 0) (.any) .none,
  -- TX_SRC_PORT
  .mk 0x7440 64 1 0x04 1 1 .u16 .rwp (.nat 5004) (.nat 1 65535) .none,
  -- TX_PT
  .mk 0x7440 64 1 0x05 1 1 .u8 .rwp (.nat 97) (.nat 96 127) .none,
  -- TX_SSRC
  .mk 0x7440 64 1 0x06 1 1 .u32 .rwp .special (.any) .none,
  -- TX_DSCP_PKT
  .mk 0x7440 64 1 0x07 1 1 .u8 .rwp (.nat 34) (.nat 0 63) .none,
  -- TX_TTL
  .mk 0x7440 64 1 0x08 1 1 .u8 .rwp (.nat 16) (.nat 1 255) .none
]
def tablePkt : List Entry := tablePkt0 ++ tablePkt1

def tableTrf0 : List Entry := [
  -- QUANTUM_UNIT
  .mk 0x7800 8 1 0x01 1 1 .u16 .rwp (.nat 1536) (.nat 64 9216) .none,
  -- SC_RATE
  .mk 0x7800 8 1 0x02 4 1 .u64 .rwp (.nat 0) (.natOr 1000 100000000000 0) .none,
  -- SC_BURST
  .mk 0x7800 8 1 0x06 4 1 .u32 .rwp (.nat 0x4000) (.nat 64 16777216) .none,
  -- SC_PCP
  .mk 0x7800 8 1 0x0A 4 1 .u8 .rwp .special (.nat 0 7) .none,
  -- LEGS_ACTIVE
  .mk 0x7800 8 1 0x0E 1 1 .u16 .ro (.nat 0) (.any) .none,
  -- CLASS_FRAMES
  .mk 0x7800 8 1 0x0F 5 1 .u64 .ro (.nat 0) (.any) .none,
  -- SC_BUCKET
  .mk 0x7800 8 1 0x14 4 1 .i32 .ro (.nat 0) (.any) .none,
  -- PRECOLOUR
  .mk 0x7810 1 1 0x01 64 1 .u8 .rwp .special (.nat 0 2) .none,
  -- CLASS_PTP
  .mk 0x7820 1 1 0x01 1 1 .u8 .rwp (.nat 0) (.nat 0 3) .none,
  -- CLASS_CTRL
  .mk 0x7820 1 1 0x02 1 1 .u8 .rwp (.nat 0) (.nat 0 3) .none,
  -- HTX_CLASS
  .mk 0x7820 1 1 0x03 4 1 .u8 .rwp (.nat 2) (.nat 0 3) .none,
  -- HTX_PORT
  .mk 0x7820 1 1 0x07 4 1 .u8 .rwp (.nat 0) (.nat 0 8) .none,
  -- EP_CLASS
  .mk 0x7840 64 1 0x01 1 1 .u8 .rwp (.nat 1) (.nat 0 3) .none,
  -- ADMIN_LIST
  .mk 0x7A00 8 1 0x01 1 1 .blob .rwp (.nat 0) (.special) .none,
  -- ADMIN_BASE
  .mk 0x7A00 8 1 0x02 1 1 .isobar .rwp (.nat 0) (.any) .none,
  -- ADMIN_CYCLE
  .mk 0x7A00 8 1 0x03 1 1 .u32 .rwp (.nat 0xf4240) (.nat 1000 1000000000) .none,
  -- ADMIN_EXT
  .mk 0x7A00 8 1 0x04 1 1 .u32 .rwp (.nat 0) (.special) .none,
  -- OPER_LIST
  .mk 0x7A00 8 1 0x05 1 1 .blob .ro (.nat 0) (.any) .none,
  -- OPER_BASE
  .mk 0x7A00 8 1 0x06 1 1 .isobar .ro (.nat 0) (.any) .none,
  -- OPER_CYCLE
  .mk 0x7A00 8 1 0x07 1 1 .u32 .ro (.nat 0) (.any) .none,
  -- OPER_EXT
  .mk 0x7A00 8 1 0x08 1 1 .u32 .ro (.nat 0) (.any) .none,
  -- CHANGE_TIME
  .mk 0x7A00 8 1 0x09 1 1 .isobar .ro (.nat 0) (.any) .none,
  -- GATE_STATE
  .mk 0x7A00 8 1 0x0A 1 1 .enum .ro (.nat 0) (.any) .none,
  -- GATE_OPEN
  .mk 0x7A00 8 1 0x0B 1 1 .bits32 .ro (.nat 31) (.any) .none,
  -- GATE_OVERSIZE
  .mk 0x7A00 8 1 0x0C 1 1 .u32 .ro (.nat 0) (.any) .none,
  -- GATE_OVERRUN
  .mk 0x7A00 8 1 0x0D 1 1 .u32 .ro (.nat 0) (.any) .none,
  -- CONFIG_CHANGES
  .mk 0x7A00 8 1 0x0E 1 1 .u32 .ro (.nat 0) (.any) .none,
  -- TRF_LEG_SELECT
  .mk 0x7900 1 1 0x01 1 1 .u16 .rw (.nat 0) (.nat 0 20479) .held,
  -- POL_MODE
  .mk 0x7900 1 1 0x02 1 1 .enum .rwp (.nat 0) (.nat 0 2) (.by 1 true),
  -- POL_CIR
  .mk 0x7900 1 1 0x03 1 1 .u64 .rwp (.nat 0x3d0900) (.nat 1000 100000000000) (.by 1 true),
  -- POL_CBS
  .mk 0x7900 1 1 0x04 1 1 .u32 .rwp (.nat 0x4000) (.nat 64 16777216) (.by 1 true),
  -- POL_PIR
  .mk 0x7900 1 1 0x05 1 1 .u64 .rwp (.nat 0x7a1200) (.nat 1000 100000000000) (.by 1 true),
  -- POL_PBS
  .mk 0x7900 1 1 0x06 1 1 .u32 .rwp (.nat 0x8000) (.nat 64 16777216) (.by 1 true),
  -- POL_YELLOW
  .mk 0x7900 1 1 0x07 1 1 .enum .rwp (.nat 0) (.nat 0 1) (.by 1 true),
  -- POL_RED
  .mk 0x7900 1 1 0x08 1 1 .enum .rwp (.nat 0) (.nat 0 1) (.by 1 true),
  -- POL_COUNT
  .mk 0x7900 1 1 0x09 1 1 .enum .rwp (.nat 0) (.nat 0 2) (.by 1 true),
  -- POL_GREEN
  .mk 0x7900 1 1 0x0A 1 1 .u64 .ro (.nat 0) (.any) (.by 1 true),
  -- POL_YELLOW_N
  .mk 0x7900 1 1 0x0B 1 1 .u64 .ro (.nat 0) (.any) (.by 1 true),
  -- POL_RED_N
  .mk 0x7900 1 1 0x0C 1 1 .u64 .ro (.nat 0) (.any) (.by 1 true),
  -- POL_DROPS
  .mk 0x7900 1 1 0x0D 1 1 .u32 .ro (.nat 0) (.any) (.by 1 true)
]
def tableTrf1 : List Entry := [
  -- POL_TC
  .mk 0x7900 1 1 0x0E 1 1 .i32 .ro (.nat 0) (.any) (.by 1 true),
  -- POL_TP
  .mk 0x7900 1 1 0x0F 1 1 .i32 .ro (.nat 0) (.any) (.by 1 true),
  -- SH_RATE
  .mk 0x7900 1 1 0x10 1 1 .u64 .rwp (.nat 0x989680) (.nat 1000 100000000000) (.by 1 true),
  -- SH_BURST
  .mk 0x7900 1 1 0x11 1 1 .u32 .rwp (.nat 0x4000) (.nat 64 16777216) (.by 1 true),
  -- SH_WEIGHT
  .mk 0x7900 1 1 0x12 1 1 .u8 .rwp (.nat 1) (.nat 1 255) (.by 1 true),
  -- SH_COUNT
  .mk 0x7900 1 1 0x13 1 1 .enum .rwp (.nat 1) (.nat 0 2) (.by 1 true),
  -- SH_AUTO
  .mk 0x7900 1 1 0x14 1 1 .bool .rwp (.nat 0) (.bool) (.by 1 true),
  -- SH_MAX
  .mk 0x7900 1 1 0x15 1 1 .u64 .rwp (.nat 0x174876e800) (.nat 1000 100000000000) (.by 1 true),
  -- SH_HEADROOM
  .mk 0x7900 1 1 0x16 1 1 .u8 .rwp (.nat 110) (.nat 50 150) (.by 1 true),
  -- TX_PCP
  .mk 0x7900 1 1 0x17 1 1 .u8 .rwp (.nat 4) (.nat 0 7) (.by 1 true),
  -- SH_BUCKET
  .mk 0x7900 1 1 0x18 1 1 .i32 .ro (.nat 0) (.any) (.by 1 true),
  -- SH_BACKLOG
  .mk 0x7900 1 1 0x19 1 1 .u32 .ro (.nat 0) (.any) (.by 1 true),
  -- SH_DELAY
  .mk 0x7900 1 1 0x1A 1 1 .u32 .ro (.nat 0) (.any) (.by 1 true),
  -- SH_SENT
  .mk 0x7900 1 1 0x1B 1 1 .u64 .ro (.nat 0) (.any) (.by 1 true)
]
def tableTrf : List Entry := tableTrf0 ++ tableTrf1

def tableSea0 : List Entry := [
  -- SEAL_STATE
  .mk 0x7C00 1 1 0x01 1 1 .enum .ro (.nat 0) (.any) .none,
  -- SEAL_QUEUED
  .mk 0x7C00 1 1 0x02 1 1 .u16 .ro (.nat 0) (.any) .none,
  -- KEY_OVERLAP
  .mk 0x7C00 1 1 0x03 1 1 .u16 .rwp (.nat 2000) (.nat 100 60000) .none,
  -- NODE_SLOT
  .mk 0x7C00 1 1 0x04 1 1 .u8 .rwp (.nat 255) (.natOr 0 63 0xFF) .none,
  -- VOTE_SLOT
  .mk 0x7C00 1 1 0x05 1 1 .u8 .rwp (.nat 255) (.natOr 0 63 0xFF) .none,
  -- SEAL_REQUESTS
  .mk 0x7C00 1 1 0x06 1 1 .u64 .ro (.nat 0) (.any) .none,
  -- SEAL_REFUSED
  .mk 0x7C00 1 1 0x07 1 1 .u32 .ro (.nat 0) (.any) .none,
  -- COMPARE_FAILS
  .mk 0x7C00 1 1 0x08 1 1 .u32 .ro (.nat 0) (.any) .none,
  -- KEY_COMMANDS
  .mk 0x7C00 1 1 0x09 1 1 .u32 .ro (.nat 0) (.any) .none,
  -- CORE_STATE
  .mk 0x7C10 2 1 0x01 1 1 .enum .ro (.nat 0) (.any) .none,
  -- CORE_UPSETS
  .mk 0x7C10 2 1 0x02 1 1 .u32 .ro (.nat 0) (.any) .none,
  -- SLOT_STATE_SEA
  .mk 0x7C40 64 1 0x01 1 1 .enum .ro (.nat 0) (.any) .none,
  -- SLOT_ALG
  .mk 0x7C40 64 1 0x02 1 1 .enum .ro (.nat 0) (.any) .none,
  -- SLOT_OWNER_SEA
  .mk 0x7C40 64 1 0x03 1 1 .u8 .ro (.nat 0) (.any) .none,
  -- SLOT_LIMIT
  .mk 0x7C40 64 1 0x04 1 1 .u64 .ro (.nat 0) (.any) .none,
  -- SLOT_USES
  .mk 0x7C40 64 1 0x05 1 1 .u64 .ro (.nat 0) (.any) .none,
  -- SLOT_ERASE
  .mk 0x7C40 64 1 0x06 1 1 .bool .cmd (.nat 0) (.one) .none,
  -- SLOT_CHECK
  .mk 0x7C40 64 1 0x07 1 1 .u32 .ro (.nat 0) (.any) .none,
  -- VOTE_RECORD
  .mk 0x7C80 16 1 0x01 1 1 .blob .ro (.nat 0) (.any) .none,
  -- VOTE_TAG
  .mk 0x7C80 16 1 0x02 1 1 .blob .ro (.nat 0) (.any) .none,
  -- CIPHER_LEG
  .mk 0x7D00 1 1 0x01 1 1 .u16 .rw (.nat 0) (.nat 0 20479) .held,
  -- IN_KEYS
  .mk 0x7D00 1 1 0x02 1 1 .enum .ro (.nat 0) (.any) (.by 1 true),
  -- OUT_KEYS
  .mk 0x7D00 1 1 0x03 1 1 .enum .ro (.nat 0) (.any) (.by 1 true),
  -- IN_ALG_OUT_ALG
  .mk 0x7D00 1 1 0x04 1 1 .u8 .ro (.nat 0) (.any) (.by 1 true),
  -- IN_ROC
  .mk 0x7D00 1 1 0x05 1 1 .u32 .ro (.nat 0) (.any) (.by 1 true),
  -- IN_HIGHEST
  .mk 0x7D00 1 1 0x06 1 1 .u64 .ro (.nat 0) (.any) (.by 1 true),
  -- OUT_NEXT_AT
  .mk 0x7D00 1 1 0x07 1 1 .isobar .ro (.nat 0) (.any) (.by 1 true),
  -- SRTCP_INDEX
  .mk 0x7D00 1 1 0x08 1 1 .u32 .ro (.nat 0) (.any) (.by 1 true),
  -- REKEYS_IN
  .mk 0x7D00 1 1 0x09 1 1 .u32 .ro (.nat 0) (.any) (.by 1 true),
  -- REKEYS_OUT
  .mk 0x7D00 1 1 0x0A 1 1 .u32 .ro (.nat 0) (.any) (.by 1 true),
  -- RTCP_EXHAUSTED
  .mk 0x7D00 1 1 0x0B 1 1 .bool .ro (.nat 0) (.any) (.by 1 true),
  -- IN_ERASE_OUT_ERASE
  .mk 0x7D00 1 1 0x0C 1 1 .u8 .cmd (.nat 0) (.mask 3) (.by 1 true)
]
def tableSea : List Entry := tableSea0

def tableFwd0 : List Entry := [
  -- LEG_EN
  .mk 0x8000 20480 1 0x01 1 1 .bool .rwp (.nat 0) (.bool) .none,
  -- LEG_STATE
  .mk 0x8000 20480 1 0x02 1 1 .enum .ro (.nat 0) (.any) .none,
  -- LEG_PORT
  .mk 0x8000 20480 1 0x03 1 1 .u8 .rwp (.nat 0) (.nat 0 7) .none,
  -- ALT_PORT
  .mk 0x8000 20480 1 0x04 1 1 .u8 .rwp (.nat 255) (.natOr 0 7 0xFF) .none,
  -- LOCAL_ADDR
  .mk 0x8000 20480 1 0x05 1 1 .blob .rwp (.nat 0) (.lens [4, 16]) .none,
  -- LOCAL_UDP
  .mk 0x8000 20480 1 0x06 1 1 .u16 .rwp (.nat 0) (.nat 1 65535) .none,
  -- REMOTE_ADDR
  .mk 0x8000 20480 1 0x07 1 1 .blob .rwp (.nat 0) (.lens [4, 16]) .none,
  -- REMOTE_UDP
  .mk 0x8000 20480 1 0x08 1 1 .u16 .rwp (.nat 0) (.nat 1 65535) .none,
  -- NEXT_HOP_MAC
  .mk 0x8000 20480 1 0x09 1 1 .u64 .rwp (.nat 0) (.nat 0 0xFFFFFFFFFFFF) .none,
  -- TX_DSCP_FWD
  .mk 0x8000 20480 1 0x0A 1 1 .u8 .rwp (.nat 34) (.nat 0 63) .none,
  -- EXT_IDS
  .mk 0x8000 20480 1 0x0B 1 1 .u32 .rwp (.nat 0) (.nat 0 0xFFFFFF) .none,
  -- LEG_CTRL
  .mk 0x8000 20480 1 0x0C 1 1 .blob .cmd (.nat 0) (.len 16 16) .none,
  -- LAST_TXN
  .mk 0x8000 20480 1 0x0D 1 1 .u32 .ro (.nat 0) (.any) .none,
  -- INIT_SEQ
  .mk 0x8000 20480 1 0x0E 1 1 .u16 .rwp .special (.any) .none,
  -- AUD_IN_SSRC
  .mk 0x8000 20480 1 0x10 1 1 .u32 .rwp (.nat 0) (.any) .none,
  -- AUD_OUT_SSRC
  .mk 0x8000 20480 1 0x11 1 1 .u32 .rwp .special (.any) .none,
  -- AUD_OUT_PT
  .mk 0x8000 20480 1 0x12 1 1 .u8 .rwp (.nat 111) (.nat 96 127) .none,
  -- AUD_TS_OFFSET
  .mk 0x8000 20480 1 0x13 1 1 .u32 .rwp (.nat 0) (.any) .none,
  -- VS0_SSRCS
  .mk 0x8000 20480 1 0x14 1 1 .blob .rwp (.nat 0) (.lens [0, 4, 8, 12]) .none,
  -- VS1_SSRCS
  .mk 0x8000 20480 1 0x15 1 1 .blob .rwp (.nat 0) (.lens [0, 4, 8, 12]) .none,
  -- VS_CODEC
  .mk 0x8000 20480 1 0x16 1 1 .u8 .rwp (.nat 0) (.special) .none,
  -- VS_PT
  .mk 0x8000 20480 1 0x17 1 1 .u16 .rwp (.nat 0) (.any) .none,
  -- REFRESH_MODE
  .mk 0x8000 20480 1 0x18 1 1 .enum .rwp (.nat 0) (.nat 0 2) .none,
  -- SLOT_SOURCE
  .mk 0x8000 20480 1 0x20 3 8 .u32 .rwp (.nat 0) (.special) .none,
  -- OUT_SSRC
  .mk 0x8000 20480 1 0x21 3 8 .u32 .rwp .special (.any) .none,
  -- OUT_PT
  .mk 0x8000 20480 1 0x22 3 8 .u8 .rwp (.nat 96) (.nat 96 127) .none,
  -- SLOT_MAX
  .mk 0x8000 20480 1 0x23 3 8 .u8 .rwp (.nat 34) (.special) .none,
  -- SLOT_CUR
  .mk 0x8000 20480 1 0x24 3 8 .u8 .ro (.nat 255) (.any) .none,
  -- SLOT_WANT
  .mk 0x8000 20480 1 0x25 3 8 .u8 .ro (.nat 255) (.any) .none,
  -- SLOT_INDEX
  .mk 0x8000 20480 1 0x26 3 8 .u64 .ro (.nat 0) (.any) .none,
  -- SLOT_STATE_FWD
  .mk 0x8000 20480 1 0x27 3 8 .enum .ro (.nat 0) (.any) .none,
  -- EST_E
  .mk 0x8000 20480 1 0x40 1 1 .u32 .ro (.nat 0) (.any) .none,
  -- EST_START
  .mk 0x8000 20480 1 0x41 1 1 .u32 .rwp (.nat 0xf4240) (.special) .none,
  -- EST_MIN
  .mk 0x8000 20480 1 0x42 1 1 .u32 .rwp (.nat 0xc350) (.nat 10000 1000000000) .none,
  -- EST_MAX
  .mk 0x8000 20480 1 0x43 1 1 .u32 .rwp (.nat 0x1312d00) (.special) .none,
  -- LOSS
  .mk 0x8000 20480 1 0x44 1 1 .u8 .ro (.nat 0) (.any) .none,
  -- RTT
  .mk 0x8000 20480 1 0x45 1 1 .u32 .ro (.nat 0) (.any) .none,
  -- COPIES_SENT
  .mk 0x8000 20480 1 0x50 1 1 .u64 .ro (.nat 0) (.any) .none,
  -- COPIES_REFUSED
  .mk 0x8000 20480 1 0x51 1 1 .u32 .ro (.nat 0) (.any) .none,
  -- COPIES_LOST
  .mk 0x8000 20480 1 0x52 1 1 .u32 .ro (.nat 0) (.any) .none
]
def tableFwd1 : List Entry := [
  -- RX_UNKNOWN
  .mk 0x8000 20480 1 0x53 1 1 .u32 .ro (.nat 0) (.any) .none,
  -- REFRESH_SENT
  .mk 0x8000 20480 1 0x54 1 1 .u32 .ro (.nat 0) (.any) .none,
  -- RTCP_IGNORED
  .mk 0x8000 20480 1 0x55 1 1 .u32 .ro (.nat 0) (.any) .none,
  -- FAILOVERS_FWD
  .mk 0x8000 20480 1 0x56 1 1 .u32 .ro (.nat 0) (.any) .none,
  -- LEG_UPSETS
  .mk 0x8000 20480 1 0x57 1 1 .u32 .ro (.nat 0) (.any) .none,
  -- FWD_UP_MARGIN
  .mk 0x8000 1 1 0x80 1 1 .u8 .rwp (.nat 120) (.nat 100 200) .none,
  -- FWD_UP_HOLD
  .mk 0x8000 1 1 0x81 1 1 .u16 .rwp (.nat 2000) (.nat 0 60000) .none,
  -- FWD_DELAY_LIMIT
  .mk 0x8000 1 1 0x82 1 1 .u16 .rwp (.nat 200) (.nat 10 5000) .none,
  -- FWD_RATE_WINDOW
  .mk 0x8000 1 1 0x83 1 1 .u16 .rwp (.nat 500) (.nat 100 5000) .none,
  -- FWD_REFRESH_MIN
  .mk 0x8000 1 1 0x84 1 1 .u16 .rwp (.nat 200) (.nat 50 10000) .none,
  -- FWD_REFRESH_WAIT
  .mk 0x8000 1 1 0x85 1 1 .u16 .rwp (.nat 300) (.nat 50 10000) .none,
  -- FWD_CKPT_PERIOD
  .mk 0x8000 1 1 0x86 1 1 .u16 .rwp (.nat 50) (.nat 10 1000) .none,
  -- FWD_GAP_SEQ
  .mk 0x8000 1 1 0x87 1 1 .u16 .rwp (.nat 4096) (.nat 256 16384) .none,
  -- FWD_FAILBACK_HOLD
  .mk 0x8000 1 1 0x88 1 1 .u16 .rwp (.nat 10) (.nat 1 3600) .none,
  -- COPY_RATE
  .mk 0x8000 1 1 0x89 1 1 .u32 .ro (.nat 0) (.any) .none,
  -- SWITCHES
  .mk 0x8000 1 1 0x8A 1 1 .u32 .ro (.nat 0) (.any) .none,
  -- SWITCH_SKIPPED
  .mk 0x8000 1 1 0x8B 1 1 .u32 .ro (.nat 0) (.any) .none,
  -- DD_ERRORS
  .mk 0x8000 1 1 0x8C 1 1 .u32 .ro (.nat 0) (.any) .none,
  -- SWITCH_TABLE
  .mk 0x8000 1 1 0xC0 64 1 .blob .rwp (.nat 0) (.len 0 32768) .none
]
def tableFwd : List Entry := tableFwd0 ++ tableFwd1

def tableVid0 : List Entry := [
  -- DEC_EN
  .mk 0xD000 1024 1 0x01 1 1 .bool .rwp (.nat 0) (.bool) .none,
  -- DEC_STATE
  .mk 0xD000 1024 1 0x02 1 1 .enum .ro (.nat 0) (.any) .none,
  -- DEC_SOURCE
  .mk 0xD000 1024 1 0x03 1 1 .u32 .rwp (.nat 0) (.special) .none,
  -- DEC_LAYER
  .mk 0xD000 1024 1 0x04 1 1 .u8 .rwp (.nat 0) (.special) .none,
  -- DEC_CODEC
  .mk 0xD000 1024 1 0x05 1 1 .enum .ro (.nat 0) (.any) .none,
  -- MAX_WIDTH
  .mk 0xD000 1024 1 0x06 1 1 .u16 .rwp (.nat 1920) (.nat 16 4096) .none,
  -- MAX_HEIGHT
  .mk 0xD000 1024 1 0x07 1 1 .u16 .rwp (.nat 1080) (.nat 16 2304) .none,
  -- MAX_RATE
  .mk 0xD000 1024 1 0x08 1 1 .u8 .rwp (.nat 30) (.nat 1 120) .none,
  -- DEC_INSTANCE
  .mk 0xD000 1024 1 0x09 1 1 .enum .rwp (.nat 2) (.nat 0 2) .none,
  -- DEC_ON
  .mk 0xD000 1024 1 0x0A 1 1 .enum .ro (.nat 255) (.any) .none,
  -- REQ_POLICY
  .mk 0xD000 1024 1 0x0B 1 1 .enum .rwp (.nat 1) (.nat 0 2) .none,
  -- DAMAGE_WAIT
  .mk 0xD000 1024 1 0x0C 1 1 .u16 .rwp (.nat 500) (.nat 20 10000) .none,
  -- EXTRA_BUFS
  .mk 0xD000 1024 1 0x0D 1 1 .u8 .rwp (.nat 1) (.nat 0 4) .none,
  -- DEC_LOAD
  .mk 0xD000 1024 1 0x0E 1 1 .u32 .ro (.nat 0) (.any) .none,
  -- DEC_BUFS
  .mk 0xD000 1024 1 0x0F 1 1 .u8 .ro (.nat 0) (.any) .none,
  -- DEC_PICTURES
  .mk 0xD000 1024 1 0x10 1 1 .u64 .ro (.nat 0) (.any) .none,
  -- DAMAGED_PICS
  .mk 0xD000 1024 1 0x11 1 1 .u32 .ro (.nat 0) (.any) .none,
  -- DAMAGE_MAP
  .mk 0xD000 1024 1 0x12 1 1 .u64 .ro (.nat 0) (.any) .none,
  -- SUBSTITUTIONS
  .mk 0xD000 1024 1 0x13 1 1 .u32 .ro (.nat 0) (.any) .none,
  -- OVERLOAD
  .mk 0xD000 1024 1 0x14 1 1 .u32 .ro (.nat 0) (.any) .none,
  -- UNSUPPORTED
  .mk 0xD000 1024 1 0x15 1 1 .u32 .ro (.nat 0) (.any) .none,
  -- BUF_WAITS
  .mk 0xD000 1024 1 0x16 1 1 .u32 .ro (.nat 0) (.any) .none,
  -- GRAIN_IGNORED
  .mk 0xD000 1024 1 0x17 1 1 .u32 .ro (.nat 0) (.any) .none,
  -- REQUESTS_VID
  .mk 0xD000 1024 1 0x18 1 1 .u32 .ro (.nat 0) (.any) .none,
  -- LAST_PICTURE
  .mk 0xD000 1024 1 0x19 1 1 .isobar .ro (.nat 0) (.any) .none,
  -- DEC_SIZE
  .mk 0xD000 1024 1 0x1A 1 1 .u32 .ro (.nat 0) (.any) .none,
  -- MAX_DEPTH
  .mk 0xD000 1024 1 0x1B 1 1 .u8 .rwp (.nat 10) (.oneOf [8, 10]) .none,
  -- ENC_EN
  .mk 0xD400 256 1 0x01 1 1 .bool .rwp (.nat 0) (.bool) .none,
  -- ENC_STATE
  .mk 0xD400 256 1 0x02 1 1 .enum .ro (.nat 0) (.any) .none,
  -- ENC_SOURCE
  .mk 0xD400 256 1 0x03 1 1 .u8 .rwp (.nat 0) (.nat 0 63) .none,
  -- ENC_CODEC
  .mk 0xD400 256 1 0x04 1 1 .enum .rwp (.nat 1) (.nat 0 1) .none,
  -- ENC_PROFILE
  .mk 0xD400 256 1 0x05 1 1 .enum .rwp (.nat 0) (.nat 0 2) .none,
  -- ENC_DEPTH
  .mk 0xD400 256 1 0x06 1 1 .u8 .rwp (.nat 8) (.oneOf [8, 10]) .none,
  -- ENC_DEST
  .mk 0xD400 256 1 0x07 1 1 .enum .rwp (.nat 0) (.nat 0 1) .none,
  -- ENC_LATENCY
  .mk 0xD400 256 1 0x08 1 1 .enum .rwp (.nat 0) (.nat 0 1) .none,
  -- BITRATE
  .mk 0xD400 256 1 0x09 1 1 .u32 .rwp (.nat 0x1e8480) (.nat 50000 100000000) .none,
  -- QP_MIN
  .mk 0xD400 256 1 0x0A 1 1 .u8 .rwp .special (.any) .none,
  -- QP_MAX
  .mk 0xD400 256 1 0x0B 1 1 .u8 .rwp .special (.special) .none,
  -- QP_INIT
  .mk 0xD400 256 1 0x0C 1 1 .u8 .rwp .special (.special) .none,
  -- SKIP_BIAS
  .mk 0xD400 256 1 0x0D 1 1 .u8 .rwp (.nat 32) (.nat 0 255) .none
]
def tableVid1 : List Entry := [
  -- REFRESH_PERIOD
  .mk 0xD400 256 1 0x0E 1 1 .u16 .rwp (.nat 60) (.nat 2 1000) .none,
  -- FAST_PERIOD
  .mk 0xD400 256 1 0x0F 1 1 .u16 .rwp (.nat 10) (.nat 1 1000) .none,
  -- PAYLOAD_MAX
  .mk 0xD400 256 1 0x10 1 1 .u16 .rwp (.nat 1200) (.nat 500 1400) .none,
  -- HOST_RING_BASE
  .mk 0xD400 256 1 0x11 1 1 .u64 .rwp (.nat 0) (.mult 64) .none,
  -- HOST_RING_SIZE
  .mk 0xD400 256 1 0x12 1 1 .u32 .rwp (.nat 0) (.special) .none,
  -- REFRESH
  .mk 0xD400 256 1 0x13 1 1 .bool .cmd (.nat 0) (.one) .none,
  -- ENC_LOAD
  .mk 0xD400 256 1 0x14 1 1 .u32 .ro (.nat 0) (.any) .none,
  -- ENC_PICTURES
  .mk 0xD400 256 1 0x15 1 1 .u64 .ro (.nat 0) (.any) .none,
  -- DEBT
  .mk 0xD400 256 1 0x16 1 1 .u32 .ro (.nat 0) (.any) .none,
  -- LAST_QP
  .mk 0xD400 256 1 0x17 1 1 .u8 .ro (.nat 0) (.any) .none,
  -- EXHAUSTED_PICS
  .mk 0xD400 256 1 0x18 1 1 .u32 .ro (.nat 0) (.any) .none,
  -- MINIMAL_PICS
  .mk 0xD400 256 1 0x19 1 1 .u32 .ro (.nat 0) (.any) .none,
  -- LATE_PICS
  .mk 0xD400 256 1 0x1A 1 1 .u32 .ro (.nat 0) (.any) .none,
  -- SWEEP_POS
  .mk 0xD400 256 1 0x1B 1 1 .u32 .ro (.nat 0) (.any) .none,
  -- REFRESH_COMPLETES
  .mk 0xD400 256 1 0x1C 1 1 .u32 .ro (.nat 0) (.any) .none,
  -- REFRESH_REQ
  .mk 0xD400 256 1 0x1D 1 1 .u32 .ro (.nat 0) (.any) .none,
  -- HOST_DROPS
  .mk 0xD400 256 1 0x1E 1 1 .u32 .ro (.nat 0) (.any) .none,
  -- VPOOL_BASE
  .mk 0xDF00 1 1 0x01 1 1 .u64 .rwm .special (.mult 0x200000) .none,
  -- VPOOL_SIZE
  .mk 0xDF00 1 1 0x02 1 1 .u64 .rwm (.nat 0x200000000) (.nat 0x10000000 0xC00000000) .none,
  -- VPOOL_FREE
  .mk 0xDF00 1 1 0x03 1 1 .u64 .ro (.nat 0) (.any) .none,
  -- INST_LOAD
  .mk 0xDF00 1 1 0x04 3 1 .u32 .ro (.nat 0) (.any) .none,
  -- INST_STATE
  .mk 0xDF00 1 1 0x07 3 1 .enum .ro (.nat 0) (.any) .none,
  -- INST_UPSETS
  .mk 0xDF00 1 1 0x0A 3 1 .u32 .ro (.nat 0) (.any) .none,
  -- DEC_CONTEXTS
  .mk 0xDF00 1 1 0x0D 1 1 .u16 .ro (.nat 0) (.any) .none,
  -- ENC_CONTEXTS
  .mk 0xDF00 1 1 0x0E 1 1 .u16 .ro (.nat 0) (.any) .none
]
def tableVid : List Entry := tableVid0 ++ tableVid1

def tableCmp0 : List Entry := [
  -- OUT_EN
  .mk 0xE000 64 1 0x01 1 1 .bool .rwp (.nat 0) (.bool) .none,
  -- OUT_STATE
  .mk 0xE000 64 1 0x02 1 1 .enum .ro (.nat 0) (.any) .none,
  -- OUT_WIDTH
  .mk 0xE000 64 1 0x03 1 1 .u16 .rwp (.nat 1280) (.multIn 64 4096 16) .none,
  -- OUT_HEIGHT
  .mk 0xE000 64 1 0x04 1 1 .u16 .rwp (.nat 720) (.multIn 64 2304 8) .none,
  -- RATE_NUM
  .mk 0xE000 64 1 0x05 1 1 .u32 .rwp (.nat 25) (.nat 1 120000) .none,
  -- RATE_DEN
  .mk 0xE000 64 1 0x06 1 1 .u32 .rwp (.nat 1) (.nat 1 1001) .none,
  -- PHASE
  .mk 0xE000 64 1 0x07 1 1 .u32 .rwp (.nat 0) (.any) .none,
  -- OUT_DEPTH
  .mk 0xE000 64 1 0x08 1 1 .u8 .rwp (.nat 8) (.oneOf [8, 10]) .none,
  -- ACTIVE_TABLE
  .mk 0xE000 64 1 0x09 1 1 .u8 .ro (.nat 0) (.any) .none,
  -- LAYER_TABLE0
  .mk 0xE000 64 1 0x0A 1 1 .blob .rw (.nat 0) (.len 64 4672) .none,
  -- LAYER_TABLE1
  .mk 0xE000 64 1 0x0B 1 1 .blob .rw (.nat 0) (.len 64 4672) .none,
  -- LAYER_COPY
  .mk 0xE000 64 1 0x0C 1 1 .bool .cmd (.nat 0) (.one) .none,
  -- OUT_LOAD
  .mk 0xE000 64 1 0x0D 1 1 .u32 .ro (.nat 0) (.any) .none,
  -- OUT_PICTURES
  .mk 0xE000 64 1 0x0E 1 1 .u64 .ro (.nat 0) (.any) .none,
  -- OUT_LATE
  .mk 0xE000 64 1 0x0F 1 1 .u32 .ro (.nat 0) (.any) .none,
  -- STALE_LAYERS
  .mk 0xE000 64 1 0x10 1 1 .blob .ro (.nat 0) (.any) .none,
  -- TILE_ERRORS
  .mk 0xE000 64 1 0x11 1 1 .u32 .ro (.nat 0) (.any) .none,
  -- LT_WRITES_REFUSED
  .mk 0xE000 64 1 0x12 1 1 .u32 .ro (.nat 0) (.any) .none,
  -- SIG_MODE
  .mk 0xE400 1024 1 0x01 1 1 .enum .rwp (.nat 0) (.nat 0 2) .none,
  -- SIG_RECT
  .mk 0xE400 1024 1 0x02 1 1 .u64 .rwp (.nat 0) (.any) .none,
  -- SIG_EXPECT
  .mk 0xE400 1024 1 0x03 1 1 .u32 .rw (.nat 0) (.any) .none,
  -- SIG_FREEZE_N
  .mk 0xE400 1024 1 0x04 1 1 .u16 .rwp (.nat 25) (.nat 2 1000) .none,
  -- SIG_CLEAR_N
  .mk 0xE400 1024 1 0x05 1 1 .u16 .rwp (.nat 3) (.nat 1 1000) .none,
  -- SIG_ACTION
  .mk 0xE400 1024 1 0x06 1 1 .enum .rwp (.nat 0) (.nat 0 1) .none,
  -- SIG_FALLBACK
  .mk 0xE400 1024 1 0x07 1 1 .u32 .rwp (.nat 0x20080040) (.special) .none,
  -- SIG_LAST
  .mk 0xE400 1024 1 0x08 1 1 .u32 .ro (.nat 0) (.any) .none,
  -- SIG_STATE
  .mk 0xE400 1024 1 0x09 1 1 .enum .ro (.nat 0) (.any) .none,
  -- SIG_ALARMS
  .mk 0xE400 1024 1 0x0A 1 1 .u32 .ro (.nat 0) (.any) .none,
  -- OVL_BASE
  .mk 0xE800 256 1 0x01 1 1 .u64 .rw (.nat 0) (.mult 64) .none,
  -- OVL_SIZE
  .mk 0xE800 256 1 0x02 1 1 .u32 .rw (.nat 0) (.special) .none,
  -- OVL_STRIDE
  .mk 0xE800 256 1 0x03 1 1 .u32 .rw (.nat 0) (.mult 64) .none,
  -- OVL_PREV_FREE
  .mk 0xE800 256 1 0x04 1 1 .bool .ro (.nat 1) (.any) .none,
  -- OVL_READERS
  .mk 0xE800 256 1 0x05 1 1 .u8 .ro (.nat 0) (.any) .none,
  -- COEF_TABLE
  .mk 0xE900 8 1 0x01 1 1 .blob .rwp (.nat 0) (.special) .none,
  -- COLOUR_MATRIX
  .mk 0xEA01 8 1 0x01 1 1 .blob .rwp (.nat 0) (.len 30 30) .none,
  -- COMP_LOAD
  .mk 0xEF00 1 1 0x01 1 1 .u32 .ro (.nat 0) (.any) .none,
  -- OUTPUTS_EN
  .mk 0xEF00 1 1 0x02 1 1 .u8 .ro (.nat 0) (.any) .none,
  -- COMP_STATE
  .mk 0xEF00 1 1 0x03 1 1 .enum .ro (.nat 0) (.any) .none
]
def tableCmp : List Entry := tableCmp0

def tableDma0 : List Entry := [
  -- DMA_EN
  .mk 0xF000 64 1 0x01 1 1 .bool .rwp (.nat 0) (.bool) .none,
  -- PACING
  .mk 0xF000 64 1 0x02 1 1 .enum .rwp (.nat 0) (.nat 0 3) .none,
  -- PACE_SOURCE
  .mk 0xF000 64 1 0x03 1 1 .u32 .rwp (.nat 0) (.special) .none,
  -- FILL_HIGH
  .mk 0xF000 64 1 0x04 1 1 .u16 .rwp (.nat 1) (.nat 1 65535) .none,
  -- FILL_LOW
  .mk 0xF000 64 1 0x05 1 1 .u16 .rwp (.nat 0) (.nat 0 65534) .none,
  -- DESC_BUDGET
  .mk 0xF000 64 1 0x06 1 1 .u32 .rwp (.nat 0x10000) (.nat 1 16777216) .none,
  -- BUS_TIMEOUT
  .mk 0xF000 64 1 0x07 1 1 .u16 .rwp (.nat 10) (.nat 1 1000) .none,
  -- NOTIFY_TYPE
  .mk 0xF000 64 1 0x08 1 1 .u16 .rwp (.nat 0) (.natOr 0x100 0xFFF 0) .none,
  -- NOTIFY_LEVEL
  .mk 0xF000 64 1 0x09 1 1 .u8 .rwp (.nat 8) (.nat 4 15) .none,
  -- DMA_STATE
  .mk 0xF000 64 1 0x0A 1 1 .enum .ro (.nat 0) (.any) .none,
  -- DESCRIPTORS
  .mk 0xF000 64 1 0x0B 1 1 .u64 .ro (.nat 0) (.any) .none,
  -- BAD_COUNT
  .mk 0xF000 64 1 0x0C 1 1 .u32 .ro (.nat 0) (.any) .none,
  -- HALTS
  .mk 0xF000 64 1 0x0D 1 1 .u32 .ro (.nat 0) (.any) .none,
  -- LAST_HALT
  .mk 0xF000 64 1 0x0E 1 1 .enum .ro (.nat 0) (.any) .none,
  -- REQ_OVERFLOWS
  .mk 0xF000 64 1 0x0F 1 1 .u32 .ro (.nat 0) (.any) .none,
  -- NOTIFY_DROPS
  .mk 0xF000 64 1 0x10 1 1 .u32 .ro (.nat 0) (.any) .none
]
def tableDma : List Entry := tableDma0

def tableMem0 : List Entry := [
  -- SPEED_MAX
  .mk 0xF400 1 1 0x01 1 1 .u16 .rwp (.nat 3200) (.oneOf [1600, 1866, 2133, 2400, 2666, 2933, 3200]) .none,
  -- CONFIG_SRC
  .mk 0xF400 1 1 0x02 1 1 .enum .rwp (.nat 0) (.nat 0 1) .none,
  -- MEMDOWN_SPD
  .mk 0xF400 1 1 0x03 1 1 .blob .rwp (.nat 0) (.len 512 512) .none,
  -- INTERLEAVE_GRAIN
  .mk 0xF400 1 1 0x04 1 1 .u32 .rwp (.nat 4096) (.special) .none,
  -- MEM_SIZE
  .mk 0xF400 1 1 0x05 1 1 .u64 .ro (.nat 0) (.any) .none,
  -- ACTIVE_CHANNELS
  .mk 0xF400 1 1 0x06 1 1 .bits32 .ro (.nat 0) (.any) .none,
  -- DATA_RATE
  .mk 0xF400 1 1 0x07 1 1 .u16 .ro (.nat 0) (.any) .none,
  -- SCRUB_PERIOD
  .mk 0xF400 1 1 0x08 1 1 .u16 .rwp (.nat 24) (.nat 1 168) .none,
  -- ACT_THRESHOLD
  .mk 0xF400 1 1 0x09 1 1 .u16 .rwp (.nat 8192) (.nat 1024 65535) .none,
  -- REFRESH_2X
  .mk 0xF400 1 1 0x0A 1 1 .bool .rwp (.nat 0) (.bool) .none,
  -- PD_IDLE
  .mk 0xF400 1 1 0x0B 1 1 .u16 .rwp (.nat 200) (.nat 0 10000) .none,
  -- STATS_CLEAR_MEM
  .mk 0xF400 1 1 0x0C 1 1 .bool .cmd (.nat 0) (.one) .none,
  -- CH_STATE
  .mk 0xF410 4 1 0x01 1 1 .enum .ro (.nat 0) (.any) .none,
  -- CH_SIZE
  .mk 0xF410 4 1 0x02 1 1 .u64 .ro (.nat 0) (.any) .none,
  -- CH_GEOMETRY
  .mk 0xF410 4 1 0x03 1 1 .u32 .ro (.nat 0) (.any) .none,
  -- CE_COUNT
  .mk 0xF410 4 1 0x04 1 1 .u64 .ro (.nat 0) (.any) .none,
  -- UE_COUNT
  .mk 0xF410 4 1 0x05 1 1 .u32 .ro (.nat 0) (.any) .none,
  -- LAST_UE_OFFSET
  .mk 0xF410 4 1 0x06 1 1 .u64 .ro (.nat 0) (.any) .none,
  -- NEIGHBOUR_REFRESHES
  .mk 0xF410 4 1 0x07 1 1 .u64 .ro (.nat 0) (.any) .none,
  -- FULL_TRAININGS
  .mk 0xF410 4 1 0x08 1 1 .u32 .ro (.nat 0) (.any) .none,
  -- EYE_MARGIN
  .mk 0xF410 4 1 0x09 1 1 .u16 .ro (.nat 0) (.any) .none,
  -- PARITY_RETRIES
  .mk 0xF410 4 1 0x0A 1 1 .u32 .ro (.nat 0) (.any) .none,
  -- RETRAIN_MAX
  .mk 0xF410 4 1 0x0B 1 1 .u16 .ro (.nat 0) (.any) .none,
  -- CH_TEMP
  .mk 0xF410 4 1 0x0C 1 1 .i16 .ro (.nat 0x8000) (.any) .none,
  -- CH_LOAD
  .mk 0xF410 4 1 0x0D 1 1 .u8 .ro (.nat 0) (.any) .none
]
def tableMem : List Entry := tableMem0

def tableSch0 : List Entry := [
  -- SCHED_STATE
  .mk 0xF800 1 1 0x01 1 1 .enum .ro (.nat 1) (.any) .none,
  -- ITEM_RATE
  .mk 0xF800 1 1 0x02 1 1 .u32 .ro (.nat 0) (.any) .none,
  -- READY_ITEMS
  .mk 0xF800 1 1 0x03 1 1 .u32 .ro (.nat 0) (.any) .none,
  -- DELAYED_ITEMS
  .mk 0xF800 1 1 0x04 1 1 .u32 .ro (.nat 0) (.any) .none,
  -- LOST_ITEMS
  .mk 0xF800 1 1 0x05 1 1 .u32 .ro (.nat 0) (.any) .none,
  -- ENQ_REJECTS
  .mk 0xF800 1 1 0x06 1 1 .u32 .ro (.nat 0) (.any) .none,
  -- POISONED
  .mk 0xF800 1 1 0x07 1 1 .u32 .ro (.nat 0) (.any) .none,
  -- FW_DIGEST
  .mk 0xF801 1 1 0x01 1 1 .blob .ro (.nat 0) (.any) .none,
  -- FW_SLOT
  .mk 0xF801 1 1 0x02 1 1 .enum .ro (.nat 0) (.any) .none,
  -- FW_STAGE
  .mk 0xF801 1 1 0x03 1 1 .blob .rwm (.nat 0) (.len 0 65536) .none,
  -- FW_ACTIVATE
  .mk 0xF801 1 1 0x04 1 1 .bool .cmd (.nat 0) (.one) .none,
  -- AFFINITY_WAIT
  .mk 0xF802 1 1 0x01 1 1 .u16 .rwp (.nat 2) (.nat 0 1000) .none,
  -- ORDER_WINDOW
  .mk 0xF803 1 1 0x01 1 1 .u16 .rwp (.nat 32) (.nat 1 256) .none,
  -- REORDER_FREE
  .mk 0xF803 1 1 0x02 1 1 .u16 .ro (.nat 0x8000) (.any) .none,
  -- REORDER_STALLS
  .mk 0xF803 1 1 0x03 1 1 .u32 .ro (.nat 0) (.any) .none,
  -- WINDOW_STALLS
  .mk 0xF803 1 1 0x04 1 1 .u32 .ro (.nat 0) (.any) .none,
  -- REDISPATCH_LIMIT
  .mk 0xF804 1 1 0x01 1 1 .u8 .rwp (.nat 2) (.nat 0 7) .none,
  -- REDISPATCHES
  .mk 0xF804 1 1 0x02 1 1 .u32 .ro (.nat 0) (.any) .none,
  -- JRNL_USED
  .mk 0xF810 1 1 0x01 1 1 .u32 .ro (.nat 0) (.any) .none,
  -- JRNL_HIGH
  .mk 0xF810 1 1 0x02 1 1 .u8 .rwp (.nat 75) (.nat 50 95) .none,
  -- JRNL_MIRRORS
  .mk 0xF810 1 1 0x03 1 1 .bits32 .ro (.nat 5) (.any) .none,
  -- JRNL_MIRROR_SEL
  .mk 0xF810 1 1 0x04 1 1 .u8 .rwm (.nat 0) (.nat 0 1) .none,
  -- LAST_ACCEPT
  .mk 0xF810 1 1 0x05 1 1 .u64 .ro (.nat 0) (.any) .none,
  -- ACCEPT_MAX
  .mk 0xF810 1 1 0x06 1 1 .u32 .ro (.nat 0) (.any) .none,
  -- JRNL_DEGRADED
  .mk 0xF810 1 1 0x07 1 1 .bool .ro (.nat 0) (.any) .none,
  -- CHECKPOINT_AT
  .mk 0xF810 1 1 0x08 1 1 .isobar .ro (.nat 0) (.any) .none,
  -- CHECKPOINT_PERIOD
  .mk 0xF810 1 1 0x09 1 1 .u16 .rwp (.nat 1000) (.nat 100 10000) .none,
  -- DEDUP_HITS
  .mk 0xF810 1 1 0x0A 1 1 .u32 .ro (.nat 0) (.any) .none,
  -- REPLAYED
  .mk 0xF810 1 1 0x0B 1 1 .u32 .ro (.nat 0) (.any) .none,
  -- REPLAY_TIME
  .mk 0xF810 1 1 0x0C 1 1 .u32 .ro (.nat 0) (.any) .none,
  -- STATS_CLEAR_SCH
  .mk 0xF810 1 1 0x0D 1 1 .bool .cmd (.nat 0) (.one) .none,
  -- SQ_EN
  .mk 0xF820 8 1 0x01 1 1 .bool .rwp (.nat 0) (.bool) .none,
  -- SQ_MIN_LEVEL
  .mk 0xF820 8 1 0x02 1 1 .u8 .rwp (.nat 4) (.nat 4 15) .none,
  -- SQ_SUBMITTED
  .mk 0xF820 8 1 0x03 1 1 .u32 .ro (.nat 0) (.any) .none,
  -- SQ_REJECTED
  .mk 0xF820 8 1 0x04 1 1 .u32 .ro (.nat 0) (.any) .none,
  -- ME_STATE
  .mk 0xF880 128 1 0x01 1 1 .enum .ro (.nat 0) (.any) .none,
  -- ME_ITEMS
  .mk 0xF880 128 1 0x02 1 1 .u64 .ro (.nat 0) (.any) .none,
  -- ME_UPSETS
  .mk 0xF880 128 1 0x03 1 1 .u32 .ro (.nat 0) (.any) .none,
  -- ME_LOAD
  .mk 0xF880 128 1 0x04 1 1 .u8 .ro (.nat 0) (.any) .none,
  -- CL_STATE
  .mk 0xF900 8 1 0x01 1 1 .enum .ro (.nat 0) (.any) .none
]
def tableSch1 : List Entry := [
  -- CL_STAGED
  .mk 0xF900 8 1 0x02 1 1 .u16 .ro (.nat 0) (.any) .none,
  -- LEVEL_READY
  .mk 0xF910 1 1 0x01 16 1 .u32 .ro (.nat 0) (.any) .none
]
def tableSch : List Entry := tableSch0 ++ tableSch1

end Sys2Proof.Machine
end

