-- ==== Sys2Proof/Machine/State.lean ====
section
/-! DEFINITION. The state of the block: plain data, every register, queue, buffer, mode and pin level the spec gives the
hub and the field die, the queue of waiting commands, and the reasons a step can stop. Registers that the object
dictionary names are held under their keys (`regs`, `blobs`); a structure below holds what has no key. -/

namespace Sys2Proof.Machine

/-- A linear ramp in progress (R511): sample `k` of `n` from `old` to `new`; `cur` is the value the last sample used. -/
structure Ramp where
  old : Int := 0
  new : Int := 0
  k : Nat := 0
  n : Nat := 0
  cur : Int := 0
deriving DecidableEq, Repr

/-- An SRTP key as loaded: suite, key and salt. -/
structure SrtpKey where
  alg : Nat
  key : Bytes
  salt : Bytes
deriving DecidableEq, Repr

/-- What a PTP message the hub sends says of it (R33): the data set of its clock, domain, transport, DSCP. -/
structure PtpData where
  priority1 : Nat
  clockClass : Nat
  accuracy : Nat
  variance : Nat
  priority2 : Nat
  identity : Nat
  steps : Nat := 0
  utcOffset : Nat
  domain : Nat
  transport : Nat
  dscp : Nat
deriving DecidableEq, Repr

/-- What a frame the hub sends holds. -/
inductive TxBody where
  /-- an RTP copy with the fields of R293: PT, sequence, timestamp, SSRC, M, padding as received, extension elements -/
  | rtp (pt seq ts ssrc : Nat) (marker padding : Bool) (exts : List (Nat × Bytes)) (payload : Bytes)
  /-- RTCP with its sender's SSRC -/
  | rtcp (sender : Nat) (items : List RtcpItem)
  /-- samples of `width` octets, a list for each instant -/
  | aes67 (pt seq ts ssrc width : Nat) (samples : List (List Int))
  /-- MAC control: PAUSE, or PFC with its priorities -/
  | pause (quanta : Nat)
  | pfc (quanta : List Nat)
  /-- answers firmware makes: 0 ARP, 1 neighbour discovery, 2 ICMP echo, 3 group report -/
  | answer (kind : Nat) (address : Bytes)
  | dict (octets : Bytes)
  /-- a PTP message: its kind, time, sequence number, the clock a Delay_Resp answers, the data set it carries -/
  | ptp (kind : PtpKind) (time seq requester : Nat) (ds : PtpData)
  | host (octets : Bytes)
deriving DecidableEq, Repr

/-- A frame sent: its queue (FFFFh: a MAC control frame), length L, MAC addresses, tag, IP and UDP fields, the first eight
octets of the IP header as received, contents, and the key and index it is encrypted under. -/
structure TxFrame where
  queue : Nat
  len : Nat
  dstMac : Nat := 0
  srcMac : Nat := 0
  tag : Option (Nat × Nat) := none
  src : Bytes := []
  dst : Bytes := []
  dscp : Nat := 0
  ttl : Nat := 64
  kept : Bytes := []
  sport : Nat := 0
  dport : Nat := 0
  body : TxBody
  key : Option (SrtpKey × Nat) := none
deriving DecidableEq, Repr

/-- What leaves the block. The newest is at the head of `State.out` (assumption 4). -/
inductive Out where
  /-- a dictionary response (Table DIC-3) on a transport instance -/
  | dictRsp (inst : Inst) (tag op index sub status : Nat) (value : Bytes)
  /-- the value a register read returned: PCIe function, BAR, offset, value -/
  | regRead (fn bar offset value : Nat)
  /-- the enqueue response to an engine, or the outcome of its item: port, status, ACCEPT -/
  | enqueued (source status accept : Nat)
  /-- a release of cells to a queue -/
  | release (queue cells : Nat)
  /-- a FAILED action of an item: ACCEPT and its code, where the spec gives one -/
  | failed (accept : Nat) (code : Option Nat)
  /-- a DRAM request completes: requester, address, the octets read; none is a bus error (R391, R394) -/
  | memDone (requester addr : Nat) (data : Option Bytes)
  /-- octets written at a PCIe bus address -/
  | hostWrite (addr : Nat) (octets : Bytes)
  /-- what the data register a JTAG instruction selects captures: its length and value -/
  | jtag (bits value : Nat)
  /-- an MSI-X vector signalled to the host -/
  | msix (vector : Nat)
  /-- a Lanok message sent; `toField` gives its direction -/
  | lanok (toField : Bool) (seq ack : Nat) (m : LMsg)
  /-- its octets on the link: header, payload and CRC-32 (R64) -/
  | lanokOctets (toField : Bool) (octets : Bytes)
  /-- a Porua control message in a trunk's next frame (Table FLD-5) -/
  | porua (trunk typ dest : Nat) (payload : Bytes)
  /-- a frame pair sent on a trunk (Table FLD-4): TYPE, FLAGS, FRAME_TIME -/
  | poruaFrame (trunk typ flags : Nat) (frameTime : Nat)
  /-- one copy of a frame as it leaves its port: 3,125 code groups (R71), K28.5 as BCh and K28.0 as 1Ch -/
  | poruaCopy (trunk : Nat) (ccw : Bool) (groups : Bytes)
  /-- the upstream message of a node's answer (R80), 16 octets -/
  | poruaUp (trunk : Nat) (octets : Bytes)
  /-- the 64 downstream channels of a trunk's frame, 6 samples each -/
  | poruaAudio (trunk : Nat) (channels : List (List Int))
  /-- a sample presented by a node's output endpoint, at an instant of the hub's Isobar -/
  | nodeAudio (node endpoint : Nat) (at_ : Instant) (value : Int)
  /-- an output pin driven to a level -/
  | pin (name : String) (level : Bool)
  /-- a frame of DO samples sent by a serial audio port -/
  | sap (port : Nat) (samples : List Int)
  /-- its levels BCLK by BCLK: FS of a master, DO from the first data bit on, BCLKs from the FS edge to that bit, and whether
  DO changes on the falling edge (R187) -/
  | sapFrame (port : Nat) (fs dO : List Bool) (delay : Nat) (falling : Bool)
  /-- a master port's BCLK and FS run at a rate in Hz, or stop (0) -/
  | sapClock (port bclk : Nat)
  /-- a CAN FD frame sent: bus, identifier, with bit rate switching, octets -/
  | can (bus identifier : Nat) (brs : Bool) (octets : Bytes)
  /-- a frame sent on a data port 0–7 or the management port 8 -/
  | frame (port : Nat) (f : TxFrame)
  /-- its octets, from the destination address to the FCS (R293, R258) -/
  | frameOctets (port : Nat) (octets : Bytes)
  /-- a pair link message with its SEQ, ACK and EPOCH -/
  | pair (seq ack epoch : Nat) (m : PMsg)
  /-- its octets on the link: header, payload and CRC-32 (R452) -/
  | pairOctets (octets : Bytes)
  /-- octets programmed into the boot flash at an offset (Table BOOT-1) -/
  | flash (addr : Nat) (octets : Bytes)
  /-- a listener's beacon in the upstream message section of a trunk's frame (Table FLT-3) -/
  | beaconUp (trunk : Nat) (octets : Bytes)
  /-- a BRIDGE beacon sent to an address and UDP port on the management port (R464) -/
  | bridgeBeacon (dst : Bytes) (port : Nat) (octets : Bytes)
  /-- a leg address announced on a port (R308): gratuitous ARP or unsolicited neighbour advertisement -/
  | announce (port : Nat) (address : Bytes)
deriving DecidableEq, Repr

/-- What the hub keeps of one of the reference sources of Table ISB-2, beside its keys. -/
structure Source where
  /-- time (`clk`) from which no condition of Table ISB-4 has been met -/
  cleanSince : Instant := 0
  /-- it met STOP, and nothing has come from it since -/
  stopped : Bool := true
  /-- last offset measured, reference minus Isobar, in 2⁻¹⁶ ns -/
  offset : Option Int := none
  /-- reference and local time of the last Syncs or heartbeats, newest first -/
  marks : List (Int × Nat) := []
deriving DecidableEq, Repr

/-- IEEE 1588 port state (R33). -/
structure Ptp where
  isMaster : Bool := false
  gm : Option Nat := none
  /-- the clock whose Announce, Sync and responses are followed; the Announces of the foreign masters with their times -/
  master : Option Nat := none
  foreign : List (PtpMsg × Instant) := []
  lastAnnounce : Instant := 0
  lastSync : Option (Nat × Instant) := none
  /-- two-step Sync waiting for its Follow_Up: sequence, receive stamp -/
  pendingSync : Option (Nat × Instant) := none
  /-- Delay_Req sent: sequence, transmit stamp -/
  delayReq : Option (Nat × Instant) := none
  /-- t1, t2 of the last Sync -/
  t1 : Nat := 0
  t2 : Nat := 0
  pathDelay : Int := 0
  txSeq : Nat := 0
  reqSeq : Nat := 0
  annSeq : Nat := 0
  /-- times at which the last Sync, Delay_Req and Announce were sent -/
  syncAt : Option Instant := none
  reqAt : Option Instant := none
  annAt : Option Instant := none
deriving DecidableEq, Repr

/-- Isobar: the hub's timebase block and its launch units (chapter ISB). -/
structure Isb where
  /-- the count, in 2⁻¹⁶ ns since the epoch (R26), and the time counted since T0 of Table BOOT-3, which no step of the count
  changes: spans are measured on it -/
  now : Instant := 0
  elapsed : Instant := 0
  bootSet : Bool := false
  /-- a phase correction is being slewed: since when, and how much there was -/
  slew : Bool := false
  slewAt : Instant := 0
  slewFrom : Int := 0
  /-- NOW_HI and NOW_FRAC latched by each PCIe function's last NOW_LO read -/
  latchHi : Tab Nat := []
  latchFrac : Tab Nat := []
  /-- ISB.LAUNCH_EVT -/
  launchEvt : Nat := 0
  sources : Tab Source := []
  ptp : Ptp := {}
  /-- frequency corrections (2⁻⁴⁰) and the instants they took effect, newest first, for the holdover mean (R36) -/
  freqLog : List (Instant × Int) := []
  /-- 1001:02 has been written since cold reset; the value waiting for the next PPS_IN edge; the second of the last -/
  todKnown : Bool := false
  todNext : Option Nat := none
  ppsSecond : Option Nat := none
  /-- times of the last PPS_IN timing edges that met no condition, newest first, and of the last edge -/
  ppsEdges : List Instant := []
  ppsSeen : Option Instant := none
  /-- last REF10M_IN edge, and the intervals of the running 1 ms measurement -/
  refLast : Option Instant := none
  refSum : Nat := 0
  refCount : Nat := 0
  /-- the active peer reports LOCKED or HOLDOVER (R31), and its selected source -/
  peerUsable : Bool := false
  peerSource : Option Nat := none
  /-- launches by number: hub slots 0–1,023 and device launches from 0400h -/
  launches : Tab Launch := []
  nextDevice : Nat := 0x400
  /-- PPS_OUT levels, and the instants at which running pulses end -/
  ppsLevel : Tab Nat := []
  ppsEnd : Tab Nat := []
  /-- times at which the LX pulses running on a pin end; pins a launch has acted on since they were enabled (R60) -/
  lxEnd : Tab (List Instant) := []
  lxActed : Tab Nat := []
  /-- ALARM value latched last -/
  alarmDone : Nat := 0
  /-- TIME_ECHO in flight: send time -/
  echoSent : Option Instant := none
  /-- when the barrier delay was last measured (R42) -/
  barrierAt : Instant := 0
deriving DecidableEq, Repr

/-- A cross-fade of a signal (R511): sample `k` of `n` from source `old` to source `new`; `hold` is the value it started
from when it replaced a fade in progress, `last` the value last used in it, `next` the changes to come: from which instant,
to which source, over how many samples. -/
structure Fade where
  k : Nat := 0
  n : Nat := 0
  old : Nat := 0
  new : Nat := 0
  hold : Option Int := none
  last : Option Int := none
  next : List (Instant × Nat × Nat) := []
deriving DecidableEq, Repr

/-- One endpoint of a node (Table FLD-9): its GAIN and its open or mute ramp in Q1.15 (R512), LED, chosen channel. -/
structure Endpoint where
  gain : Ramp := { new := 0x8000, cur := 0x8000 }
  /-- open and close ramp, 0 closed or muted, 8000h open; none until a first action (assumption 12) -/
  opening : Option Ramp := none
  /-- 0 off, 1 on, 2 blink -/
  led : Nat := 0
  /-- SELECT_CHANNEL in force (R76) -/
  channel : Option Nat := none
  /-- upstream slot assigned (MIC, LINE_IN) -/
  slot : Option Nat := none
  /-- last sample presented -/
  last : Int := 0
  /-- MIC, LINE_IN: samples captured, gains applied, by number of capture boundary, newest first (R77) -/
  cap : List (Nat × Int) := []
  /-- number of the last boundary whose sample was sent, plus 1 -/
  sentTo : Nat := 0
deriving DecidableEq, Repr

/-- A vote window open at a node (R95): session, choices, whether its chosen key is lit. -/
structure VoteWindow where
  session : Nat
  choices : Nat
  show_ : Bool
deriving DecidableEq, Repr

/-- A seat node and the field die's handshake with it. -/
structure Node where
  /-- field die: 0 IDLE, 1 PENDING, 2 ACKED (R82) -/
  hs : Nat := 0
  code : Nat := 0
  /-- last good nibble read -/
  lastSeen : Nat := 0
  frameTime : Instant := 0
  lastSend : Instant := 0
  ackBit : Bool := false
  /-- a good nibble has been read since RESYNC began (R86) -/
  seen : Bool := false
  /-- node: events waiting, head first (R85); the nibble it writes; an ack bit read 0 in an earlier frame -/
  queue : List Nat := []
  nibble : Nat := 0
  ackReadZero : Bool := false
  overflow : Bool := false
  endpoints : Tab Endpoint := []
  /-- priority mute of the node's MICs (R101) and attenuation of its loudspeakers (R76) -/
  prioMute : Ramp := { new := 0x8000, cur := 0x8000 }
  atten : Ramp := { new := 0x8000, cur := 0x8000 }
  /-- launches the node holds, by number (R94) -/
  launches : List Nat := []
  vote : Option VoteWindow := none
  /-- vote key lit (SHOW of Table FLD-11), 0 none -/
  litKey : Nat := 0
  /-- position delays as the node received them (R90) -/
  dCw : Nat := 0
  dCcw : Nat := 0
  /-- NODE_EVENT deferred while the hub sleeps (R83, R429) -/
  deferred : Bool := false
  /-- partial dictionary request of POLL kind 3 (R126): octets, next count, begun -/
  reqPart : Bytes := []
  reqCount : Nat := 0
  reqActive : Bool := false
  /-- status polls calibrated since the last change of master (R451) -/
  calib : Nat := 0
  /-- hub: OPEN flag (R84) -/
  isOpen : Bool := false
  /-- the node's Isobar less the field die's, 2⁻¹⁶ ns, as the last comma set it (R90) -/
  iso : Int := 0
  /-- bad sections received clockwise and counter-clockwise since the last poll (R72), STALE since then (R75) -/
  badCw : Nat := 0
  badCcw : Nat := 0
  stale : Bool := false
  /-- frames whose downstream audio was good in no copy, by FRAME_TIME, newest first (R75) -/
  missed : List Instant := []
deriving DecidableEq, Repr

/-- Retries of a trunk port's 48 V power (R98): instants of the last trips. -/
structure PortPower where
  trips : List Instant := []
  onAt : Instant := 0
deriving DecidableEq, Repr

/-- A control message waiting for a frame (R79, R81): its rank, destination, TYPE and payload. -/
structure Ctrl where
  rank : Nat
  dest : Nat
  typ : Nat
  payload : Bytes
deriving DecidableEq, Repr

/-- A frame pair on its way (R70): FRAME_TIME; the sections a port will find bad, by copy (counter-clockwise or not);
the nibbles nodes wrote in the clockwise and in the other copy, by index; samples by slot; the poll it carries: index,
kind, SEQ, and the copies in which the node has answered. -/
structure Flight where
  at_ : Instant
  bad : List (Bool × Nat) := []
  nibCw : List (Nat × Nat) := []
  nibCcw : List (Nat × Nat) := []
  slots : Tab (List Int) := []
  poll : Option (Nat × Nat × Nat) := none
  answered : List Bool := []
deriving DecidableEq, Repr

/-- A field trunk (FT0–FT7). -/
structure Trunk where
  /-- indices found by enumeration or in the loaded node table; the table: index ↦ serial (R87, R88) -/
  nodes : List Nat := []
  table : Option (Tab Nat) := none
  /-- the indices its nodes keep in their own non-volatile memories; nodes in BYPASS beyond index 2,047 (R87) -/
  ring : List Nat := []
  bypassed : Nat := 0
  /-- frame pairs on their way, oldest first; the control message of the last frame -/
  flight : List Flight := []
  msg : Ctrl := { rank := 5, dest := 0xFFFF, typ := 0, payload := [] }
  /-- down hops, by the number of nodes on the port A side of each -/
  downHops : List Nat := []
  resync : Bool := false
  resyncFrames : Nat := 0
  pollNext : Nat := 0
  enumerating : Bool := false
  ctrl : List Ctrl := []
  ctrlSeq : Nat := 0
  /-- L_A and L_B of R91, in ps -/
  loopA : Nat := 0
  loopB : Nat := 0
  /-- last samples of each upstream slot, and slots now STALE -/
  lastUp : Tab (List Int) := []
  staleSlots : List Nat := []
  powerA : PortPower := {}
  powerB : PortPower := {}
  /-- fades of the downstream channels: on a map swap (R74), between map entries; and between the floor mix (0) and the hub's
  mix (1) -/
  mapFade : Tab Fade := []
  mixFade : Tab Fade := []
  /-- frames sent, newest first: FRAME_TIME and channels -/
  sent : List (Instant × List (List Int)) := []
deriving DecidableEq, Repr

/-- The Hall Default mixer's talker state (R99–R102). -/
structure HallDefault where
  /-- open MICs, 16 × node + endpoint, in the order in which they opened -/
  opened : List Nat := []
  /-- MICs ramping out, whose slot is freed at the end -/
  closing : List Nat := []
  /-- waiting requests in the order in which they came, and those of them that are chairs' -/
  queue : List Nat := []
  chairs : List Nat := []
  g : Ramp := {}
  /-- CHAIR nodes holding PRIORITY_ON, with 2 when the MIC was open before, 1 when not -/
  prio : Tab Nat := []
deriving DecidableEq, Repr

/-- A reliable message not yet acknowledged: its SEQ, re-sends so far, instant of the last send. -/
structure Unacked where
  seq : Nat
  tries : Nat := 0
  at_ : Instant := 0
  msg : LMsg
deriving DecidableEq, Repr

/-- One end of the Lanok link (R65). -/
structure LanokEnd where
  /-- SEQ of the last reliable message sent, and of the last in order received -/
  txSeq : Nat := 0
  rxSeq : Nat := 0
  /-- unacknowledged reliable messages, oldest first -/
  unacked : List Unacked := []
  /-- reliable messages waiting for the window of 64 -/
  waiting : List LMsg := []
  /-- per-type counters of the other messages, by TYPE -/
  counters : Tab Nat := []
  /-- a heartbeat has come since the last frame boundary; consecutive ones missed -/
  beat : Bool := false
  missed : Nat := 0
  crcRun : Nat := 0
deriving DecidableEq, Repr

/-- A CAN controller (R104, R125). -/
structure Can where
  /-- octets of the request being reassembled, the next frame count, whether one is begun, its last frame -/
  part : Bytes := []
  count : Nat := 0
  active : Bool := false
  lastAt : Instant := 0
  /-- the request in progress, to which a response is owed -/
  owed : Option Bytes := none
  /-- instant from which it takes part again after bus-off -/
  resumeAt : Nat := 0
  /-- it is error passive -/
  passive : Bool := false
deriving DecidableEq, Repr

/-- A launch the field die holds (R94): nodes it has not been delivered to, nodes that have not run it, trunks that have
not reported it, late nodes by trunk. -/
structure HeldLaunch where
  lr : LaunchRec
  undelivered : List Nat := []
  waiting : List Nat := []
  trunks : List Nat := []
  late : Tab Nat := []
  anyLate : Bool := false
  /-- it arrived after its instant, and when it did, in the field die's time -/
  arrivedLate : Bool := false
  from_ : Instant := 0
deriving DecidableEq, Repr

/-- The field die, its Lanok end, and the hub's view of the seat side (chapter FLD). -/
structure Fld where
  hubEnd : LanokEnd := {}
  fieldEnd : LanokEnd := {}
  /-- the field die's clock since its start, untouched by steps of its Isobar -/
  elapsed : Instant := 0
  nodes : Tab Node := []
  trunks : Tab Trunk := []
  /-- nodes seen to hold PRIORITY_ON (Table FLD-14) -/
  prioHeld : List Nat := []
  /-- what the hub last saw of the field die's keys, kept while the link is down (R119): values, and HD_STATE -/
  seenKeys : Option (Tab Nat × List Bytes) := none
  hd : HallDefault := {}
  votes : Tab Vote := []
  /-- most recently opened session since cold reset -/
  lastVote : Option Nat := none
  cans : Tab Can := []
  /-- raw FGPIO levels and the instants of their last change -/
  gpioRaw : Tab Nat := []
  gpioAt : Tab Nat := []
  /-- FRST_N is high, VF_CORE and VF_IO are present -/
  frstHigh : Bool := false
  powered : Bool := true
  /-- the mix source is the hub (R62) -/
  hubMix : Bool := false
  /-- hub mode byte bit 7: the hub is not in RUN (R429) -/
  hubAsleep : Bool := false
  /-- a hub has been heard since the field die started -/
  hubSeen : Bool := false
  /-- from the hub's last heartbeat: it has a pair role; role, mode and epoch for beacons (R450) -/
  paired : Bool := false
  hubRole : Nat := 0
  hubMode : Nat := 0
  hubEpoch : Nat := 0
  /-- the hub counts the field die as lost (R12) -/
  lost : Bool := false
  /-- follower minus hub Isobar, 2⁻¹⁶ ns (R44), and whether the follower has been aligned since field start -/
  followerOffset : Int := 0
  followerOk : Bool := false
  /-- launches the field die holds, by number -/
  held : Tab (Option HeldLaunch) := []
  /-- completions not yet reported: number, trunk, state, late nodes, reason -/
  reports : List (Nat × Nat × Nat × Nat × Nat) := []
  /-- last hub channels received: 64 × 6 samples, and their FRAME_TIME -/
  down : List (List Int) := []
  /-- upstream blocks received by the hub, trunk × 4 + block ↦ 8 slots × 6 samples, and their valid bits -/
  up : Tab (List (List Int)) := []
  upValid : Tab Nat := []
  /-- next trunk port of the power sequence (R98): 0–15, 16 done; instant of its last step -/
  powerStep : Nat := 16
  powerAt : Instant := 0
  /-- dictionary requests the field die holds while the hub sleeps (R119) -/
  heldReq : List (Inst × Bytes) := []
  /-- the field die's copy of its writable keys is at the defaults until the hub rewrites it (R63) -/
  copyStale : Bool := true
  /-- keys written while the link was down: the value, plus 1, of the field die's copy until the rewrite -/
  oldCopy : Tab Nat := []
  /-- events admitted or acknowledged and not yet handled: node, code, by the hub -/
  admitted : List (Nat × Nat × Bool) := []
deriving DecidableEq, Repr

/-- An open segmented transfer of a transport instance (R120). -/
structure Blob where
  key : Nat
  write : Bool
  length : Nat
  data : Bytes
  since : Instant := 0
  /-- block of the staging store that holds write data (R120) -/
  stage : Nat := 0
deriving DecidableEq, Repr

/-- A PCIe mailbox slot (Table DIC-8). -/
structure Mbx where
  /-- octets of MBX.REQ, MBX.RSP -/
  req : Tab Byte := []
  rsp : Bytes := []
  irqEn : Bool := false
  status : Nat := 0
  done : Bool := false
  busy : Bool := false
deriving DecidableEq, Repr

/-- Authenticated-sequence window of a transport instance (R122): highest SEQ, and which of the 32 below are seen. -/
structure SeqWin where
  any : Bool := false
  high : Nat := 0
  seen : List Nat := []
deriving DecidableEq, Repr

/-- A flash write (R117): the RWP keys it will have persisted with the entries that wrote them, the number up to which every
write is in it, the values written. -/
structure Flash where
  keys : List (Nat × Nat)
  bound : Nat
  values : Tab Nat
  blobs : Tab (Option Bytes)
deriving DecidableEq, Repr

/-- The claim table (R127): (class × 65,536 + instance) ↦ owner word as CLAIM_OWNER shows it. -/
structure Dic where
  mbx : Tab Mbx := []
  /-- open transfer of each instance, keyed by the instance number -/
  blob : Tab (Option Blob) := []
  /-- held group writes of each instance: (index, sub, value) in order, and the last request's instant -/
  group : Tab (List (Nat × Nat × Bytes)) := []
  groupAt : Tab Nat := []
  seqWin : Tab SeqWin := []
  claims : Tab Nat := []
  /-- node table of the image in force: node ↦ serial (R88, R128) -/
  nodeTable : Tab Nat := []
  /-- CMDs answered PENDING whose action has not ended: instance, TAG, INDEX, SUB (R114) -/
  pendingCmds : List (Inst × Nat × Nat × Nat) := []
  /-- RWP keys written and not yet persisted, oldest first, with their acceptance numbers -/
  dirty : List (Nat × Nat) := []
  /-- the flash write in progress -/
  flashing : Option Flash := none
  /-- values of the start-up image in force, by key -/
  imageLayer : List (Nat × Bytes) := []
  /-- number of the journal entry whose write is taking effect -/
  accepting : Option Nat := none
  /-- number of the entry that took effect last -/
  entry : Nat := 0
  /-- status with which the entry taking effect was refused -/
  refused : Nat := 0
  /-- a unit of writes takes effect: its single writes are not answered -/
  quiet : Bool := false
  /-- repeats held until a first admission ends: its number, instance, TAG, OP, INDEX, SUB (R144) -/
  repeats : List (Nat × Inst × Nat × Nat × Nat × Nat) := []
  /-- persist area of the flash: IMAGE_ID, values and blobs -/
  persistId : Nat := 0
  persist : Tab Nat := []
  persistBlobs : Tab (Option Bytes) := []
deriving DecidableEq, Repr

/-- An ordered item dispatched and not released (R141). -/
structure InFlight where
  st : Staged
  /-- engine it ran on -/
  me : Nat := 0xFF
  done : Bool := false
  discarded : Bool := false
  actions : List OutAct := []
deriving DecidableEq, Repr

/-- A host submission queue (R157). -/
structure Sq where
  slots : Tab Byte := []
  tail : Nat := 0
  head : Nat := 0
  /-- next slot to read, and slots read whose outcome is known -/
  next : Nat := 0
  done : List Nat := []
  errStatus : Nat := 0
  errSlot : Nat := 0
  errCount : Nat := 0
deriving DecidableEq, Repr

/-- The scheduler and the journal (chapter SCH). -/
structure Sch where
  /-- level ↦ ready list, oldest first -/
  ready : Tab (List Staged) := []
  /-- flow ↦ hold list -/
  hold : Tab (List Staged) := []
  /-- items not yet due -/
  delay : List Staged := []
  /-- ME ↦ item running on its bank 0 -/
  running : Tab (Option Staged) := []
  /-- flow ↦ items dispatched and not released, in acceptance order (R141) -/
  inflight : Tab (List InFlight) := []
  journal : List JEntry := []
  /-- repeat keys of freed entries, newest first, at most 65,536: (class, source, key) -/
  freed : List (Nat × Nat × Nat) := []
  nextAccept : Nat := 1
  acceptHi : Nat := 0
  evt : Nat := 0
  irqEn : Nat := 0
  sqs : Tab Sq := []
  /-- checkpoint in progress and the complete ones, newest first -/
  cpRunning : Option Snapshot := none
  cps : List Snapshot := []
  /-- `clk` of the last checkpoint's start; the journal has reached 50 % since (R149) -/
  cpAt : Instant := 0
  cpDue : Bool := false
  /-- channels the live journal is being copied to, the first to be done first (R147) -/
  copying : List Nat := []
  /-- work held at its ports, oldest first: source port and work (R151, R456) -/
  held : List (Nat × Durable) := []
  /-- repeats waiting for a first admission still pending: its number, port and slot (R144) -/
  heldRepeats : List (Nat × Nat × Nat) := []
  /-- instants of the dispatches of the last second, newest first -/
  dispatches : List Instant := []
  /-- ME ↦ runs of the last second: start and end -/
  busy : Tab (List (Instant × Instant)) := []
  /-- RSEQ of the next Vane record; the ring itself is octets at VANE_BASE -/
  vaneSeq : Nat := 0
  /-- records not written since the last record (Table SCH-9) -/
  vaneLost : Nat := 0
  /-- start of the running replay -/
  replayAt : Instant := 0
deriving DecidableEq, Repr

/-- A register write on its way through the pipeline (R171). -/
inductive RegWrite where
  /-- a 32-bit lane of a vector register -/
  | lane (reg lane val : Nat)
  /-- a 16-bit half of a lane -/
  | half (reg lane : Nat) (hi : Bool) (val : Nat)
  /-- an accumulator lane takes a value, or has one added to it as it lands (R167) -/
  | acc (a lane : Nat) (val : Int)
  | accAdd (a lane : Nat) (val : Int)
  | ptr (p val : Nat)
  | modifier (m val : Nat)
  /-- C[3:0] takes a value -/
  | cond (c : Nat)
  | sat
  | bexp (n : Nat)
  /-- CLRF's mask -/
  | clear (mask : Nat)
deriving DecidableEq, Repr

/-- A pending write and the issue cycle at whose end it lands. -/
structure Pend where
  due : Nat
  w : RegWrite
deriving DecidableEq, Repr

/-- One register bank of an engine (Table DSP-1), with its issue state. -/
structure Bank where
  /-- register × 4 + lane ↦ 32-bit value -/
  v : Tab Nat := []
  /-- accumulator × 4 + lane ↦ value in units of 2⁻⁶² -/
  acc : Tab Int := []
  p : Tab Nat := []
  /-- modifiers: [47:32] STEP, [31:16] LEN, [15:0] BASE -/
  m : Tab Nat := []
  c : Nat := 0
  aov : Bool := false
  sat : Bool := false
  bexp : Nat := 31
  pc : Nat := 0
  /-- active loops, innermost first: first and last instruction, repetitions left -/
  loops : List (Nat × Nat × Nat) := []
  /-- a taken branch waiting for its delay slots: target, slots left -/
  branch : Option (Nat × Nat) := none
  /-- issue cycles so far -/
  cycle : Nat := 0
  pend : List Pend := []
  /-- an LDC waits for its data: register, offset -/
  stall : Option (Nat × Nat) := none
  /-- X and Y slots of the instruction at `pc` already done -/
  xDone : Bool := false
  yDone : Bool := false
  /-- kernel slot, and binding of a work kernel -/
  kernel : Nat := 0
  binding : Nat := 0
  running : Bool := false
deriving DecidableEq, Repr

/-- The kernel-visible part of an engine: bank 0, bank 1, and its data memory: X at 0, Y at 65,536. -/
structure Me where
  work : Bank := {}
  tick : Bank := {}
  mem : Tab Byte := []
  /-- `clk` at which the running tick kernel took over the engine (R177, R180) -/
  tickAt : Instant := 0
deriving DecidableEq, Repr

/-- A tick slot (R178–R181). -/
structure TickSlot where
  /-- samples of each read channel since the last tick, newest first -/
  input : List (List Int) := []
  /-- the block the mixing core feeds from, by channel, and the place of the next sample in it -/
  block : List (List Int) := []
  next : Nat := 0
  /-- a tick has been due since the slot was enabled; the last one ended with HALT 0, so its block is good -/
  ran : Bool := false
  good : Bool := false
  /-- its channels repeat their last samples, held here -/
  stale : Bool := false
  last : List Int := []
deriving DecidableEq, Repr

/-- A placed kernel: code address and length, shared data offset and length (R183). -/
structure Placed where
  code : Nat
  codeLen : Nat
  shared : Nat
  sharedLen : Nat
deriving DecidableEq, Repr

/-- Engines' datapaths and kernels (chapter DSP). -/
structure Dsp where
  mes : Tab Me := []
  ticks : Tab TickSlot := []
  placed : Tab (Option Placed) := []
deriving DecidableEq, Repr
/-- A channel set of the mixing core that can go STALE (R194–R196, R201): its last samples, the instant since which it is
STALE, the fade of R195 and R196 and the data ramp of R197 and R199, both in Q1.15. -/
structure Feed where
  last : List Int := []
  stale : Bool := false
  staleAt : Instant := 0
  fade : Ramp := { new := 0x8000, cur := 0x8000 }
  gate : Ramp := {}
deriving DecidableEq, Repr

/-- One direction of a port's ASRC (R190, R193): its 128-sample buffer on the 48 kHz side, oldest first, the last samples
on the side it takes from, newest first, and its rate phase. -/
structure AsrcBuf where
  buf : List (List Int) := []
  hist : List (List Int) := []
  phase : Nat := 0
  /-- discarded down to, or filling up to, the target; DO repeats its last sample (R194) -/
  stale : Bool := false
  last : List Int := []
deriving DecidableEq, Repr

/-- The FS measurement of an EXTERNAL port (R191), in `clk`: the edge its running 1 ms began with and the edges since, the last
edge, the shortest and longest period, and the milliseconds for which rate and period have held. -/
structure FsMeter where
  start : Instant := 0
  count : Nat := 0
  last : Option Instant := none
  lo : Nat := 0
  hi : Nat := 0
  good : Nat := 0
deriving DecidableEq, Repr

/-- A serial audio port. -/
structure SapPort where
  /-- step of Table SAP-4: 0 OFF, 1 waiting for its clocks, 2 LOCKING, 3 lead-in frames, 4 carrying zeros until its
  group starts, 5 data, 6 ramping out to stop, 7 lead-out frames -/
  phase : Nat := 0
  /-- frames since the phase began -/
  frames : Nat := 0
  /-- an EXTERNAL port has lost its clock and is LOCKING again (R191) -/
  lost : Bool := false
  /-- `clk` of its enable -/
  since : Instant := 0
  fs : FsMeter := {}
  /-- the port's own two samples in each direction, newest first (R193) -/
  delayIn : List (List Int) := []
  delayOut : List (List Int) := []
  asrcIn : AsrcBuf := {}
  asrcOut : AsrcBuf := {}
  feed : Feed := {}
  /-- retired: its clocks stop when this many boundaries have passed (R196) -/
  clockStop : Nat := 0
deriving DecidableEq, Repr

/-- An AES67 receive endpoint (R201): samples waiting, by boundary number. -/
structure RxEnd where
  waiting : Tab (List Int) := []
  feed : Feed := {}
  /-- the SSRC locked to (R257) -/
  ssrc : Option Nat := none
deriving DecidableEq, Repr

/-- An AES67 send endpoint (R202): samples collected, newest first, and the boundary of the first. -/
structure TxEnd where
  held : List (List Int) := []
  first : Nat := 0
  gate : Ramp := {}
  seq : Nat := 0
  running : Bool := false
deriving DecidableEq, Repr

/-- Serial audio ports and AES67 endpoints (chapter SAP). -/
structure Sap where
  ports : Tab SapPort := []
  rx : Tab RxEnd := []
  tx : Tab TxEnd := []
deriving DecidableEq, Repr
/-- History of an equaliser section (R214), and of the record it cross-fades from (R215). -/
structure EqHist where
  x1 : Int := 0
  x2 : Int := 0
  y1 : Int := 0
  y2 : Int := 0
  oldRec : Bytes := []
  oy1 : Int := 0
  oy2 : Int := 0
  /-- a running cross-fade: the value last used, and the one it started from when it replaced a fade in progress (R511) -/
  last : Option Int := none
  hold : Option Int := none
  k : Nat := 0
  n : Nat := 0
deriving DecidableEq, Repr

/-- A loudness meter (R234). -/
structure Loud where
  /-- samples of the running 100 ms, newest first, one or two channels each -/
  seg : List (List Int) := []
  /-- state of the K-weighting filter -/
  filter : Nat := 0
  /-- mean squares of the last 30 segments, newest first -/
  segs : List Nat := []
  /-- 400 ms blocks since enable or LM_RESET, newest first; whole segments since then; samples of the running segment from
  before it -/
  blocks : List Nat := []
  since : Nat := 0
  skip : Nat := 0
  /-- momentary values, newest first, at most 30,000 -/
  history : List Int := []
deriving DecidableEq, Repr

/-- A talker: identity, the input its audio enters, whether it is a VOICE talker, whether its class is CHAIR, the slot it
uses (trunk × 32 + slot, nodes), the language of a desk, the number of its open, its T_s. -/
structure Talker where
  ident : Nat
  input : Nat := 0
  voice : Bool := false
  chair : Bool := false
  slot : Option Nat := none
  desk : Option Nat := none
  num : Nat := 0
  ts : Instant := 0
deriving DecidableEq, Repr

/-- A decision of the talker manager (R223): its instant t_d, its T_s (none while an opening leg is no candidate), the
talkers that open and close then, and whether ducking begins or ends then (R225). -/
structure Decision where
  td : Instant
  at_ : Option Instant := none
  opens : List Talker := []
  closes : List Talker := []
  duck : Option Bool := none
deriving DecidableEq, Repr

/-- A candidate position (R228, R229): its leg, when it was assigned, decoded samples waiting (oldest first), the last
one, the instant of the last packet, its gain ramp; of a replaced leg the samples still waiting and its ramp-out. -/
structure Cand where
  leg : Option Nat := none
  since : Instant := 0
  wait : List Int := []
  last : Int := 0
  packetAt : Instant := 0
  /-- samples concealed since the last decoded one; STALE -/
  concealRun : Nat := 0
  concealed : Bool := false
  fade : Ramp := {}
  oldWait : List Int := []
  oldLast : Int := 0
  oldFade : Option Ramp := none
deriving DecidableEq, Repr

/-- Audio of a leg: levels of its packets, newest first (R228); decoder state; the instant at which a closed talker's
position is given up (R232); the instant from which its level has stayed above VOICE_THRESHOLD. -/
structure LegAudio where
  levels : List (Instant × Nat) := []
  decoder : Nat := 0
  backAt : Option Instant := none
  quietAt : Option Instant := none
deriving DecidableEq, Repr

/-- A language's interpretation state (R218, R220): the desk decided open and its talker, whether its MIC is open, when
a desk was last live, fallback in force, its fade. -/
structure Lang where
  desk : Option (Nat × Talker) := none
  live : Bool := false
  lastLive : Instant := 0
  fallback : Bool := false
  fade : Fade := {}
deriving DecidableEq, Repr

/-- The talker manager (R217–R232). -/
structure Tm where
  /-- open, or opened by a decision whose T_s has not come; oldest first -/
  opened : List Talker := []
  /-- open since their T_s -/
  live : List Talker := []
  queue : List Nat := []
  decisions : List Decision := []
  /-- CHAIR nodes holding PRIORITY_ON: 2 when the MIC was open before, 1 when not -/
  prio : Tab Nat := []
  /-- number of opens so far: orders talkers by age -/
  opens : Nat := 0
  ducking : Bool := false
  /-- nodes whose action has failed and whose talker is to be removed -/
  failed : List Nat := []
  /-- trunk launch slots held in reserve (R223), as class 6 instances -/
  reserve : List Nat := []
deriving DecidableEq, Repr

/-- The mixing core (chapter MIX). -/
structure Mix where
  /-- owner words of inputs and assignable outputs (IN_OWNER) -/
  inOwner : Tab Nat := []
  outOwner : Tab Nat := []
  /-- crosspoint banks: output × 1,024 + input ↦ gain node word -/
  xp0 : Tab Nat := []
  xp1 : Tab Nat := []
  /-- equaliser banks: channel × 16 + section ↦ record -/
  ieq0 : Tab Bytes := []
  ieq1 : Tab Bytes := []
  oeq0 : Tab Bytes := []
  oeq1 : Tab Bytes := []
  /-- node ramps, of signed gains -/
  nodeRamps : Tab Ramp := []
  /-- section histories: side × 65,536 + channel × 16 + section; side 2 is the mix-minus outputs -/
  hist : Tab EqHist := []
  /-- ramps of IN_TRIM, talk gains, OUT_GAIN and mutes in force; unlisted ones rest at their value -/
  trim : Tab Ramp := []
  talk : Tab Ramp := []
  outGain : Tab Ramp := []
  mute : Tab Ramp := []
  /-- last final values of outputs 0–1,023 and MM0–MM31 (1,024 on), last input values -/
  outLast : Tab Int := []
  inLast : Tab Int := []
  /-- squares of the last 14,400 samples, newest first, of inputs and (from 1,024) outputs -/
  window : Tab (List Nat) := []
  loud : Tab Loud := []
  /-- H0–H63 of the last six boundaries, newest first (R209) -/
  hSamples : List (List Int) := []
  /-- trunk-slot samples to play, oldest first, the last one played, and the slots now STALE, by input -/
  slotWait : Tab (List Int) := []
  slotLast : Tab Int := []
  slotStale : List Nat := []
  /-- a copy or preset is running: set 0–2, and the words written in the inactive bank since; 3 is a preset -/
  copying : Option Nat := none
  written : List Nat := []
  /-- MIX.BANKS.WRITE_REFUSED -/
  refused : Bool := false
  cands : Tab Cand := []
  legs : Tab LegAudio := []
  langs : Tab Lang := []
  tm : Tm := {}
  /-- PRESEL and group frame boundaries last handled -/
  preselAt : Instant := 0
  groupAt : Tab Nat := []
  /-- the mode has left HALL_DEFAULT since cold reset (R213) -/
  leftDefault : Bool := false
  /-- group ↦ encoder state of the common encode; 64 + k: of the mix-minus encode k -/
  encoders : Tab Nat := []
  /-- samples of the running group frame, newest first: group, 64 + position -/
  encWait : Tab (List Int) := []
deriving DecidableEq, Repr
/-- What a packet in the pool holds: a frame as received, or what the hub has made. -/
inductive Content where
  | rx (f : Frame)
  /-- encoded audio of a leg: RTP timestamp, payload -/
  | audio (ts : Nat) (payload : Bytes)
  /-- a packet of an encoded picture: boundary of the picture, last packet of it, first packet, refresh-complete -/
  | picture (at_ : Instant) (last first refresh : Bool) (payload : Bytes)
  | rtcp (items : List RtcpItem)
  | aes67 (e seq ts : Nat) (samples : List (List Int))
  /-- an answer of firmware: kind of `TxBody.answer`, port it leaves by, addresses -/
  | answer (kind port : Nat) (dstMac : Nat) (address : Bytes)
  | ptp (kind : PtpKind) (time seq requester : Nat) (ds : PtpData)
  | dict (dst : Bytes) (dport : Nat) (octets : Bytes)
  | host (octets : Bytes)
deriving DecidableEq, Repr

/-- A packet with its record (Table PKT-5). -/
structure Packet where
  content : Content
  len : Nat
  refs : Nat := 1
  leg : Nat := 0xFFFF
  cls : Nat := 5
  colour : Nat := 0
  tagged : Bool := false
  v6 : Bool := false
  decrypted : Bool := false
  prio : Nat := 0
  port : Nat := 0xFF
  exc : Nat := 0
  arrival : Instant := 0
  index : Nat := 0
  level : Nat := 0xFF
  /-- queue its cells are charged to, and its cells -/
  queue : Option Nat := none
  cells : Nat := 1
  /-- its first cell (a free value) -/
  first : Nat := 0
  /-- an uncorrectable word has been found in its data (R262) -/
  bad : Bool := false
  /-- it lies in the spill area -/
  spilled : Bool := false
deriving DecidableEq, Repr

/-- A copy record (Table FWD-3) for packet `pkt`; `cell` is the copy cell it is written in. -/
structure CopyRec where
  pkt : Nat
  slot : Nat
  marker : Bool := false
  frameStart : Bool := false
  switched : Bool := false
  index : Nat := 0
  outTs : Nat := 0
  cell : Nat := 0
deriving DecidableEq, Repr

/-- An entry of a queue. -/
inductive QEntry where
  | pkt (id : Nat)
  | copy (c : CopyRec)
deriving DecidableEq, Repr

/-- A queue (R250). -/
structure Queue where
  /-- oldest first -/
  entries : List QEntry := []
  cells : Nat := 0
  above : Bool := false
  spilled : Bool := false
  flushing : Bool := false
  disabled : Bool := false
  drops : Nat := 0
  highEvents : Nat := 0
  /-- copy cells, oldest first: cell, records written, records not yet released -/
  copyCells : List (Nat × Nat × Nat) := []
deriving DecidableEq, Repr

/-- The packet engine's pool and queues (chapter PKT). -/
structure Pkt where
  packets : Tab (Option Packet) := []
  next : Nat := 0
  queues : Tab Queue := []
  /-- cells of the pool in use -/
  used : Nat := 0
  /-- instants of the pool upsets within POOL_UPSET_W -/
  upsets : List Instant := []
  /-- octets of the ingress rate bucket of spill mode, in 10⁻⁹ bit below its top, and when it was last drained -/
  spillDebt : Nat := 0
  spillAt : Nat := 0
  /-- when the orphan audit last ran (R262) -/
  auditAt : Instant := 0
  /-- endpoint ↦ SSRC locked by LOCK_FIRST, plus 1 -/
  locked : Tab Nat := []
  /-- a POOL_TEST command is waiting for the test -/
  testing : Option (Inst × Nat) := none
deriving DecidableEq, Repr

/-- A token bucket in units of 10⁻⁹ bit; no level: full. `at_` in ns: when the level held. -/
structure Bucket where
  level : Option Int := none
  at_ : Nat := 0
deriving DecidableEq, Repr

/-- A frame being transmitted: the leg of a copy, strict class or 4, start and end in ns. -/
structure Sending where
  leg : Option Nat := none
  cls : Nat := 5
  from_ : Nat := 0
  until_ : Nat := 0
  /-- when the port may start its next frame: the frame and the gap have been sent -/
  freeAt : Instant := 0
deriving DecidableEq, Repr

/-- A GATE_TAKEOVER past its instant: its launch, T_L and C in ns. -/
structure GatePend where
  slot : Nat
  tl : Nat
  c : Nat
deriving DecidableEq, Repr

/-- The transmit side of a port, and its link. -/
structure TxPort where
  /-- legs in the active list, head first (R277) -/
  active : List Nat := []
  /-- class ↦ queue served last, plus 1 -/
  served : Tab Nat := []
  /-- class shaper buckets -/
  buckets : Tab Bucket := []
  /-- instants at which received pauses end: the PAUSE, and PFC by priority -/
  pauseEnd : Instant := 0
  pfcEnd : Tab Nat := []
  /-- a PAUSE or PFC frame waits to be sent: its quanta; when the last was sent; the port is congested (R255) -/
  pauseDue : Option Nat := none
  pauseAt : Instant := 0
  /-- when its FEC counts were last taken -/
  fecAt : Instant := 0
  congested : Bool := false
  sending : Option Sending := none
  takeover : Option GatePend := none
  /-- instant the link came up -/
  upAt : Instant := 0
deriving DecidableEq, Repr

/-- A leg's policer and shaper. -/
structure LegTraffic where
  tc : Bucket := {}
  tp : Bucket := {}
  shaper : Bucket := {}
  deficit : Nat := 0
  credited : Bool := false
  /-- the policer's parameters have been written since cold reset -/
  policed : Bool := false
  /-- estimate last given to the shaper (R273) -/
  adapted : Nat := 0
deriving DecidableEq, Repr

/-- Traffic control (chapter TRF). -/
structure Trf where
  ports : Tab TxPort := []
  legs : Tab LegTraffic := []
deriving DecidableEq, Repr

/-- A slot of a leg: 0 audio, 1–3 V0–V2. -/
structure LegSlot where
  /-- next SRTP index -/
  index : Nat := 0
  tsOff : Nat := 0
  lastTs : Option Nat := none
  /-- ARRIVAL of the last packet sent, ns -/
  lastArr : Nat := 0
  /-- source in force; the one set is SLOT_SOURCE -/
  source : Nat := 0
  /-- when WANT last changed; since when it waits for a switch point -/
  wantAt : Instant := 0
  waitSince : Option Instant := none
  /-- CUR is to become this at the start of the next frame (R301) -/
  lowered : Option Nat := none
  /-- the next copy carries SWITCHED -/
  fresh : Bool := false
  /-- copies and payload octets sent, and whether any since the last SR -/
  packets : Nat := 0
  octets : Nat := 0
  sentSince : Bool := false
  /-- reserved limit of the latest checkpoint sent, and of the latest one acknowledged (R309) -/
  ckptSent : Option Nat := none
  limit : Option Nat := none
deriving DecidableEq, Repr

/-- A received SSRC of a leg, for RR blocks. -/
structure RxStream where
  first : Nat := 0
  highest : Nat := 0
  count : Nat := 0
  /-- expected and received at the last report -/
  lastExpected : Nat := 0
  lastCount : Nat := 0
  /-- last SR: its middle 32 bits, and its arrival -/
  lsr : Nat := 0
  srAt : Instant := 0
deriving DecidableEq, Repr

/-- A leg's forwarding state. -/
structure Leg where
  slots : Tab LegSlot := []
  /-- transport-wide sequence number of the next copy; FIR and feedback counters -/
  tw : Nat := 0
  silent : Nat := 0
  /-- sent copies not yet reported: number, transmit stamp in ns, wire octets -/
  sent : List (Nat × Nat × Nat) := []
  /-- packets first reported in this window: number, receive time in ns if received, transmit stamp, wire octets -/
  reported : List (Nat × Option Int × Nat × Nat) := []
  /-- copies refused since the last layer selection -/
  refused : Nat := 0
  /-- audio copies sent: instant, wire bits -/
  audioLog : List (Instant × Nat) := []
  /-- transport-wide numbers of packets accepted since the last feedback, and their stamps -/
  twSeen : List (Nat × Instant) := []
  rx : Tab RxStream := []
  /-- AUTH_FAIL packets in this second, and all drops: NO_CONTEXT, AUTH_FAIL, REPLAY -/
  authFails : Nat := 0
  authAt : Instant := 0
  drops : Tab Nat := []
deriving DecidableEq, Repr

/-- A source stream's refresh requests (R305). -/
structure Refresh where
  lastAt : Option Instant := none
  due : Bool := false
  fir : Nat := 0
  /-- PLI has been sent and FIR follows unless a switch point comes (REFRESH_MODE 2) -/
  firAt : Option Instant := none
deriving DecidableEq, Repr

/-- A video source: VS0 or VS1 of leg l is 2l or 2l + 1; composition output o is 10000h + o. -/
structure VideoSource where
  /-- AV1 decode targets of the latest template structure, S3T3 -/
  targets : List Nat := []
  known : Bool := false
  s3t3 : Bool := false
  /-- packets: arrival instant, wire bits, layer codes they belong to; newest first -/
  log : List (Instant × Nat × List Nat) := []
  /-- stream (AV1: 0) ↦ RTP timestamp of its last packet, plus 1 -/
  lastTs : Tab Nat := []
  /-- stream ↦ its refresh requests -/
  refresh : Tab Refresh := []
deriving DecidableEq, Repr

/-- A packet whose copies are being formed (R294, R295): its source, the facts its switch decisions use, the slots still
to look at (leg × 4 + slot), and whether none has been. -/
structure FanOut where
  pkt : Nat
  source : Nat
  /-- stream index (H.264), start and end of a frame, new temporal unit, switch point, descriptor -/
  stream : Nat := 0
  start : Bool := true
  newUnit : Bool := true
  switchPoint : Bool := false
  dd : Option DepDesc := none
  marker : Bool := false
  slots : List Nat := []
  first : Bool := true
deriving DecidableEq, Repr

/-- Legs and layered forwarding (chapter FWD). -/
structure Fwd where
  legs : Tab Leg := []
  sources : Tab VideoSource := []
  fan : List FanOut := []
  /-- instants of the copies formed in the last second, newest first -/
  formed : List Instant := []
  /-- a source change of a slot waits to complete: leg × 4 + slot -/
  changing : List Nat := []
  /-- when the feedback, the RTCP reports and the leg checkpoints were last sent -/
  feedbackAt : Instant := 0
  reportAt : Instant := 0
  ckptAt : Instant := 0
deriving DecidableEq, Repr

/-- A buffer of a decode context with its marks (R322): the frame in it, its surface once complete. -/
structure VBuf where
  ctx : Nat := 0
  frame : Nat := 0
  surface : Bytes := []
  target : Bool := false
  ref : Bool := false
  isOut : Bool := false
  read : Nat := 0
  /-- its context has been disabled, and a reader still holds it; its size -/
  orphan : Nat := 0
deriving DecidableEq, Repr

/-- A ready picture of a decode context (R318): its buffer, when its decode started, since when it waits for a buffer. -/
structure ReadyPic where
  info : PicInfo
  ready : Instant
  target : Option Nat := none
  started : Option Instant := none
  bufWait : Option Instant := none
deriving DecidableEq, Repr

/-- A decode context. -/
structure DecCtx where
  /-- layer decoded; since when another is waited for -/
  layer : Nat := 0
  waitSince : Option Instant := none
  /-- picture whose packets are arriving: RTP timestamp, what they parse as -/
  arriving : Option (Nat × PicInfo) := none
  pics : List ReadyPic := []
  /-- surface of the most recent picture whose damage map was 0 -/
  clean : Option Bytes := none
  /-- since when pictures have been DAMAGED without a break; the deferred request for it has been sent -/
  damagedSince : Option Instant := none
  asked : Bool := false
  /-- completion instant and pixels of pictures decoded in the last 100 ms -/
  log : List (Instant × Nat) := []
deriving DecidableEq, Repr

/-- A picture of an encode context: its output boundary; when its encode started; rows left are coded exhausted because
it was late, or its instance was reset. -/
structure EncPic where
  at_ : Instant
  started : Option Instant := none
  late : Bool := false
  cut : Bool := false
deriving DecidableEq, Repr

/-- An encode context. -/
structure EncCtx where
  /-- next picture of the sweep and the sweep's length (R330); from picture `from_` on the units from `base` up are spread
  over the rest (R333) -/
  pos : Nat := 0
  len : Nat := 0
  from_ : Nat := 0
  base : Nat := 0
  debt : Nat := 0
  qpStart : Nat := 0
  /-- w[r] (R336); refresh bits of each row in, and width of, the last non-empty refresh column -/
  weights : List Nat := []
  refreshBits : List Nat := []
  refreshWidth : Nat := 0
  pics : List EncPic := []
  /-- pictures are missing from the host ring before the next record -/
  gap : Bool := false
  /-- its reservation could not be made again (R343) -/
  unreserved : Bool := false
deriving DecidableEq, Repr

/-- Left and top of the strip of reference pixels VENC holds (R334), in luma pixels. -/
structure Strip where
  x : Int := 0
  y : Int := 0
deriving DecidableEq, Repr

/-- The video codec instances and contexts (chapter VID). -/
structure Vid where
  decs : Tab DecCtx := []
  encs : Tab EncCtx := []
  bufs : Tab VBuf := []
  nextBuf : Nat := 1
  /-- the reference strip in VENC's codec buffers -/
  strip : Strip := {}
deriving DecidableEq, Repr
/-- What is latched of an overlay slot (R357). -/
structure OvlLatch where
  base : Nat := 0
  width : Nat := 0
  height : Nat := 0
  stride : Nat := 0
deriving DecidableEq, Repr

/-- What a layer shows in a picture. -/
inductive LayerShow where
  /-- crop x, y, w, h of a Rime surface -/
  | video (surface : Bytes) (crop : List Nat)
  | overlay (o : OvlLatch) (crop : List Nat)
  | fill (colour : Nat)
deriving DecidableEq, Repr

/-- A layer of a picture: its 64 B entry and what it shows. -/
structure LayerLatch where
  entry : Bytes
  shows : LayerShow
deriving DecidableEq, Repr

/-- The settings of a signature region as latched: mode, rectangle, expected CRC, the fallback to draw and, for an overlay,
its slot. -/
structure SigLatch where
  mode : Nat := 0
  rect : Nat := 0
  expect : Nat := 0
  freezeN : Nat := 0
  clearN : Nat := 0
  fallback : Option Nat := none
  ovl : OvlLatch := {}
deriving DecidableEq, Repr

/-- The state an output picture is composed in (R357). -/
structure PicLatch where
  at_ : Instant
  background : Nat
  layers : List LayerLatch
  /-- buffers holding READ marks of the picture -/
  reads : List Nat
  coefs : List Bytes
  matrices : List Bytes
  sigs : List SigLatch
  /-- overlay slots it reads -/
  slots : List Nat
deriving DecidableEq, Repr

/-- A signature region: CRC of the last picture, pictures in a row with equal CRCs, passing pictures in a row. -/
structure SigState where
  last : Option Nat := none
  equal : Nat := 0
  pass : Nat := 0
deriving DecidableEq, Repr

/-- A composition output. -/
structure CmpOut where
  /-- a picture latched and not begun, the picture being composed, the newest complete surface -/
  waiting : Option PicLatch := none
  composing : Option PicLatch := none
  surface : Bytes := []
  /-- what layer k last showed, for HOLD -/
  held : Tab (Option LayerShow) := []
  sigs : Tab SigState := []
deriving DecidableEq, Repr

/-- Composition (chapter CMP). -/
structure Cmp where
  outs : Tab CmpOut := []
  /-- the output whose picture the compositor works on -/
  current : Option Nat := none
  /-- CMP registers: STATUS, SIG_EVT0 and 1, IRQ_EN -/
  status : Nat := 0
  sigEvt0 : Nat := 0
  sigEvt1 : Nat := 0
  irqEn : Nat := 0
  /-- overlay slot ↦ pictures that began before its base was written and still read the old buffer: (output, boundary) -/
  oldReaders : Tab (List (Nat × Instant)) := []
deriving DecidableEq, Repr
/-- What a running DMA channel waits for. -/
inductive DmaPhase where
  /-- a boundary: the next descriptor is to be fetched -/
  | boundary
  /-- a descriptor has been fetched, and its transfer runs -/
  | transfer (desc : Bytes)
  /-- the decision read of the link word -/
  | link
deriving DecidableEq, Repr

/-- A DMA channel: its BAR4 registers and its place in its chain (chapter DMA). -/
structure DmaCh where
  phase : Option DmaPhase := none
  /-- when its last fetch or transfer began -/
  askedAt : Instant := 0
  startSpace : Nat := 0
  startLo : Nat := 0
  startHi : Nat := 0
  /-- CUR: address, and whether it is a host address; CUR_HI latched -/
  cur : Nat := 0
  curHost : Bool := false
  curHi : Nat := 0
  count : Nat := 0
  done : Nat := 0
  evt : Nat := 0
  irqEn : Nat := 0
  pendingReq : Nat := 0
  halt : Nat := 0
  parkKind : Nat := 0
  kick : Bool := false
  stopReq : Bool := false
  /-- DMA_EN = 0 has been written: OFF once STOPPED -/
  closing : Bool := false
  /-- under DRAIN or FEED: permitting -/
  permits : Bool := false
  /-- a kind 2 request was last added at this instant -/
  paceAt : Instant := 0
deriving DecidableEq, Repr

/-- The DMA channels. -/
structure Dma where
  chs : Tab DmaCh := []
deriving DecidableEq, Repr
/-- An entry of a bank's activation table (R396): number, row, count. -/
structure ActEntry where
  row : Nat
  count : Nat
deriving DecidableEq, Repr

/-- A rank's refresh state: intervals owed, the last interval's end; in precharge power-down. -/
structure Rank where
  owed : Nat := 0
  refreshAt : Instant := 0
  powerDown : Bool := false
  lastUse : Instant := 0
deriving DecidableEq, Repr

/-- What is known of a DDR4 channel's modules, and its state beside its keys. -/
structure DdrCh where
  /-- ranks, by number -/
  ranks : Tab Rank := []
  /-- bank (rank × 16 + bank group × 4 + bank) ↦ activation table, entry 0 first (R396) -/
  acts : Tab (List ActEntry) := []
  /-- open row of a bank, plus 1 -/
  openRow : Tab Nat := []
  /-- next line the patrol scrubber reads -/
  scrub : Nat := 0
  /-- failed attempts of the running full training -/
  tries : Nat := 0
deriving DecidableEq, Repr

/-- The DDR4 memory (chapter MEM). -/
structure Mem where
  /-- octets by hub address; what an unlisted octet reads as is `memDefault` -/
  cells : Tab Byte := []
  /-- number of times the interleaved space has become undefined (R400) -/
  epoch : Nat := 0
  chs : Tab DdrCh := []
  /-- channels in the interleave, and what each gives (R388); the grain, which changes at a cold reset -/
  active : List Nat := []
  unit : Nat := 0
  grain : Nat := 4096
  evt : Nat := 0
  irqEn : Nat := 0
  /-- requests held while a channel trains, oldest first (R399) -/
  held : List MemReq := []
  /-- a re-interleave is to be completed (Table MEM-4, step 4) -/
  reinterleave : Bool := false
  /-- items numbered below this were there when the interleaved space was lost: their payloads are to be restored (R156) -/
  lostBelow : Nat := 0
  /-- cluster ↦ times the staging half of its SRAM has become undefined (R424) -/
  staging : Tab Nat := []
deriving DecidableEq, Repr
/-- A Seal request (Table SEA-2) with the port it came from. `msg` and `area` are the octets at a PCIe bus address;
those at a hub address are read from DRAM. -/
structure SealWork where
  req : SealReq
  /-- an ERASE named its slot while it waited (R412) -/
  absent : Bool := false
  /-- code of Table SEA-4, nonce and tag, once dequeued -/
  result : Nat := 0
  nonce : List Nat := []
  tag : List Nat := []
deriving DecidableEq, Repr

/-- A replay window of 128 (R245): highest index, and the indices seen within 128 of it. -/
structure ReplayWin where
  highest : Option Nat := none
  seen : List Nat := []
deriving DecidableEq, Repr

/-- A leg's ingress context (R417, R418). -/
structure SrtpIn where
  cur : Option SrtpKey := none
  next : Option SrtpKey := none
  prev : Option SrtpKey := none
  prevEnd : Instant := 0
  /-- ROC set by LOAD, used until a stream's first authenticated packet; each stream's highest index since (assumption 28) -/
  roc : Nat := 0
  highest : Tab (Option Nat) := []
  /-- replay windows of each received SSRC: of CUR, of PREV, and of SRTCP -/
  wins : Tab ReplayWin := []
  prevWins : Tab ReplayWin := []
  rtcpWins : Tab ReplayWin := []
deriving DecidableEq, Repr

/-- A leg's egress context (R419). -/
structure SrtpOut where
  cur : Option SrtpKey := none
  next : Option SrtpKey := none
  effective : Nat := 0
deriving DecidableEq, Repr

/-- The Seal engine and the line cipher (chapter SEA). -/
structure Sea where
  /-- keys of the 64 slots; no read returns one -/
  keys : Tab Bytes := []
  queue : List SealWork := []
  /-- requests dequeued and being computed, oldest first -/
  work : List SealWork := []
  /-- the key load window: KEY.DATA, KEY.CMD.IRQ_EN, KEY.STATUS -/
  keyData : Bytes := List.replicate 64 0
  keyIrqEn : Bool := false
  keyStatus : Nat := 0
  keyDone : Bool := false
  srtpIn : Tab SrtpIn := []
  srtpOut : Tab SrtpOut := []
deriving DecidableEq, Repr

/-- Wake order of one power domain (R433). -/
structure Domain where
  /-- wake step running: 0 none, 1 REGULATOR, 2 OSCILLATOR, 3 MEMORY, 4 LOGIC -/
  step : Nat := 0
  /-- timeouts of the running step so far -/
  tries : Nat := 0
  /-- state the domain wakes from: 2 CALM, 3 FROST, 4 OFF -/
  from_ : Nat := 4
  /-- when the running step, or its last retry, began -/
  since : Instant := 0
deriving DecidableEq, Repr

/-- A latched privileged event (R432). -/
structure Latched where
  source : Nat
  data : Nat := 0
  merges : Nat := 0
  at_ : Instant
deriving DecidableEq, Repr

/-- An entry to CALM, FROST or OFF in progress (Table PWR-3). -/
structure PwrEntry where
  /-- steps of Table PWR-3 done -/
  step : Nat
  /-- 2 CALM, 3 FROST, 4 OFF -/
  depth : Nat
  /-- the mode was STANDBY already -/
  again : Bool := false
  t0 : Instant
  /-- a wake source has become pending since (Table PWR-4) -/
  wake : Option Nat := none
deriving DecidableEq, Repr

/-- The power controller (chapter PWR). -/
structure Pwr where
  domains : Tab Domain := []
  latch : List Latched := []
  entry : Option PwrEntry := none
  evt : Nat := 0
  irqEn : Nat := 0
  vmeEn : Bool := false
  vsdEn : Bool := false
  hpwrEn : Bool := false
  vmePg : Bool := false
  vsdPg : Bool := false
  /-- start of the wake in progress, and its source -/
  wakeAt : Instant := 0
  wakeSource : Nat := 0
  /-- domain ↦ instant it entered LULL; its stays in LULL that ended in the last second, newest first -/
  lullAt : Tab Nat := []
  lullRuns : Tab (List (Instant × Instant)) := []
  /-- writes answered PENDING until a domain is in RUN (R426): domain, index, subindex -/
  waits : List (Nat × Nat × Nat) := []
  /-- last dictionary request, node event or abandoned entry, for R480 -/
  lastActive : Instant := 0
deriving DecidableEq, Repr

/-- A good or awaited peer (chapter FLT, pair operation). -/
structure Pair where
  txSeq : Nat := 0
  rxSeq : Nat := 0
  /-- unacknowledged reliable messages, oldest first: SEQ, re-sends, instant of the last send -/
  unacked : List (Nat × Nat × Instant × PMsg) := []
  /-- reliable messages waiting for the window of 256 -/
  waiting : List PMsg := []
  /-- per-type counters of the other messages -/
  counters : Tab Nat := []
  lastGood : Instant := 0
  /-- instant of the last message sent -/
  sentAt : Instant := 0
  linkDownAt : Instant := 0
  /-- facts of the peer's last HEARTBEAT or beacon -/
  peerRole : Nat := 0
  peerHubOk : Bool := true
  peerReachable : Nat := 0
  peerAccept : Nat := 0
  /-- last peer beacon read, and whether it carried HUB_LOST -/
  beaconAt : Option Instant := none
  beaconHubLost : Bool := false
  /-- new durable work is held from the first peer-copy timeout (R456) -/
  holding : Bool := false
  holdAt : Instant := 0
  /-- a switchover is under way (R463) -/
  handing : Bool := false
  /-- a split is being settled since this instant (R459) -/
  splitAt : Option Instant := none
  /-- this field die is ring master -/
  master : Bool := true
  /-- TAKE sent since, and the switch instant M named (R451) -/
  takeAt : Option Instant := none
  switchAt : Option Instant := none
  switchDone : Instant := 0
  /-- role wait of R463 in progress since -/
  startAt : Option Instant := none
  /-- highest ACCEPT acknowledged by the standby -/
  acked : Nat := 0
  /-- highest ACCEPT this standby holds with every lower one; committed and freed marks -/
  held : Nat := 0
  committed : Nat := 0
  freed : Nat := 0
  healthyBefore : Bool := false
  /-- round trip in flight to the peer: its send time; half the last one, 2⁻¹⁶ ns -/
  echoSent : Option Instant := none
  pathDelay : Nat := 0
  /-- the peer relays its segment (R461) -/
  peerRelays : Bool := false
  /-- the standby is to be brought up to date (R455); ROLE is to be sent when the link allows -/
  syncDue : Bool := false
  roleDue : Bool := false
  bridgeBeaconAt : Instant := 0
  /-- MASTER_CHANGE is set in the frames of this master (R451) -/
  masterChange : Bool := false
deriving DecidableEq, Repr

/-- Channels, retirement and watchdogs (chapter FLT). A channel is type × 65,536 + instance. -/
structure Flt where
  upsets : Tab (List Instant) := []
  /-- channel ↦ instant of retirement -/
  retired : Tab (Option Instant) := []
  /-- last watchdog service, watchdog resets in the last 600 s -/
  wdtServed : Instant := 0
  wdtResets : List Instant := []
  hostPing : Instant := 0
  pcieUp : Bool := false
  perstLow : Bool := false
  pairRolePin : Bool := false
deriving DecidableEq, Repr

/-- A firmware slot of the boot flash (R471). -/
structure FwSlot where
  version : Nat := 0
  /-- octets written by FW_STAGE so far -/
  size : Nat := 0
  sigGood : Bool := false
  image : Bytes := []
deriving DecidableEq, Repr

/-- A record of a dictionary image (R128). -/
structure ImgRec where
  index : Nat
  sub : Nat
  typ : Nat
  value : Bytes
deriving DecidableEq, Repr

/-- A dictionary image as its octets spell it (Table DIC-10). `crcGood`: FORMAT, LENGTH, RECORDS and the CRC hold together. -/
structure Image where
  targetMode : Nat := 0
  signed : Bool := false
  imageId : Nat := 0
  crcGood : Bool := true
  sigGood : Bool := true
  records : List ImgRec := []
deriving DecidableEq, Repr

/-- Start-up, modes and the boot flash (chapter BOOT). -/
structure Boot where
  /-- steps of Table BOOT-3 completed: 0 held in reset, 9 running; 10 stopped by LIMP -/
  step : Nat := 0
  rstLow : Bool := false
  supply : Bool := true
  recovery : Bool := false
  activeSlot : Nat := 0
  trial : Bool := false
  tries : Nat := 0
  genA : Nat := 0
  genB : Nat := 0
  /-- IMAGE_KEY of the header in use, empty when none is set (Table BOOT-2) -/
  imageKey : Bytes := []
  header0Good : Bool := true
  header1Good : Bool := true
  slotA : FwSlot := { sigGood := true }
  slotB : FwSlot := {}
  booted : Nat := 0
  /-- the flash region of the dictionary image: its octets, and whether the signature after it verifies (R128) -/
  image : Bytes := []
  imageSig : Bool := true
  /-- persist copies: SEQ and CRC state of each, and the one last written -/
  persistSeq0 : Nat := 0
  persistSeq1 : Nat := 0
  persistGood0 : Bool := true
  persistGood1 : Bool := true
  /-- mode transition in progress: target, and the number of its HALL_HANDOVER -/
  transition : Option (Nat × Option Nat) := none
  /-- mode held before SAFE, before a warm reset or before ISLAND -/
  modeBefore : Nat := 0
  /-- SAFE causes of Table BOOT-5 not cleared: 0 DDR, 1 domain, 2 LIMP, 3 watchdog, 4 pool -/
  safeCauses : List Nat := []
  /-- a cause that SAFE does not leave by itself has come since SAFE was entered -/
  safeHolds : Bool := false
  /-- PENDING commands that keep the hub in SERVICE: index × 256 + sub of FW_ACTIVATE, FACTORY_RESET -/
  busy : List Nat := []
  ddrFailed : Bool := false
  /-- enabled features have not started since a cold boot or warm reset; they start as a mode is entered -/
  restart : Bool := false
  /-- no mode has been entered since the cold boot -/
  coldEntry : Bool := false
deriving DecidableEq, Repr

/-- A Storm record (Table DIAG-1). -/
structure Storm where
  time : Nat
  seq : Nat
  code : Nat
  mode : Nat
  isbState : Nat
  channel : Nat
  data : List Nat
  crcGood : Bool := true
deriving DecidableEq, Repr

/-- Storm log, boundary scan and returns (chapter DIAG). -/
structure Diag where
  /-- PD0 ring, newest first, each with whether it has been copied to flash -/
  ring : List (Storm × Bool) := []
  /-- flash ring, newest first -/
  flash : List Storm := []
  seq : Nat := 0
  /-- records written to the flash area since it was last erased -/
  flashed : Nat := 0
  /-- JTAG instruction, and whether a boundary-scan instruction has suspended the hub (R507) -/
  jtag : Nat := 0xFF
  /-- register the instruction selects: 0 bypass, 1 IDCODE, 2 boundary -/
  jtagReg : Nat := 0
  suspended : Bool := false
  unlocked : Bool := false
  tmode : Bool := false
  fuse : Bool := false
deriving DecidableEq, Repr

/-- The whole machine. -/
structure State where
  /-- commands waiting, first in, first out -/
  pending : List Instr := []
  /-- dictionary values, unlisted keys at their defaults (R109) -/
  regs : Tab Nat := []
  /-- STR and BLOB values -/
  blobs : Tab (Option Bytes) := []
  /-- what has left the block, newest first (assumption 4) -/
  out : List Out := []
  /-- the model's own counter of free values drawn (assumption 2) -/
  freeCtr : Nat := 0
  isb : Isb := {}
  fld : Fld := {}
  dic : Dic := {}
  sch : Sch := {}
  dsp : Dsp := {}
  sap : Sap := {}
  mix : Mix := {}
  pkt : Pkt := {}
  trf : Trf := {}
  fwd : Fwd := {}
  vid : Vid := {}
  cmp : Cmp := {}
  dma : Dma := {}
  mem : Mem := {}
  sea : Sea := {}
  pwr : Pwr := {}
  flt : Flt := {}
  pair : Pair := {}
  boot : Boot := {}
  diag : Diag := {}
deriving DecidableEq, Repr

/-- Reasons a step stops with a fault. None is raised: every behaviour of this block that the spec describes goes on,
errors included. The one constructor keeps the type inhabited; raising it would be safe. -/
inductive Fault where
  /-- raised by nothing; safe -/
  | halted
deriving DecidableEq, Repr

/-- Reasons a command has no meaning. -/
inductive Refusal where
  /-- a command that has no meaning yet, by its name in the table; safe -/
  | notModelled (mnemonic : String)
deriving DecidableEq, Repr

/-- The machine right after reset: every field at its reset value (R109 and the chapters' register tables), the command
queue empty. The hub's boot ROM has not started (step 0 of Table BOOT-3) and the field die is in RESET. -/
def State.reset : State := {}

/-- The outcome of a meaning. -/
abbrev Res := Host.Outcome State Fault Refusal

end Sys2Proof.Machine
end

