-- ==== Sys2Proof/Machine/Flags.lean ====
section
/-! DEFINITION. Status codes and their precedence (Table DIC-5), and single bits of registers. -/
namespace Sys2Proof.Machine

/-- Status codes of Table DIC-5, in its order. -/
inductive Status where
  | auth | noEntry | access | notAuthoritative | mode | type | range | retired | conflict | busy | pending | ok
deriving DecidableEq, Repr

/-- The code of a status. -/
def Status.code : Status → Nat
  | .auth => 0x09
  | .noEntry => 0x01
  | .access => 0x02
  | .notAuthoritative => 0x08
  | .mode => 0x05
  | .type => 0x03
  | .range => 0x04
  | .retired => 0x0A
  | .conflict => 0x06
  | .busy => 0x07
  | .pending => 0x0B
  | .ok => 0x00

/-- The status of a code. -/
def statusOf (n : Nat) : Status :=
  ([.ok, .noEntry, .access, .type, .range, .mode, .conflict, .busy, .notAuthoritative, .auth, .retired, .pending] :
    List Status).getD n .ok

/-- Its place in Table DIC-5: lower takes precedence (R112). -/
def Status.rank : Status → Nat
  | .auth => 0
  | .noEntry => 1
  | .access => 2
  | .notAuthoritative => 3
  | .mode => 4
  | .type => 5
  | .range => 6
  | .retired => 7
  | .conflict => 8
  | .busy => 9
  | .pending => 10
  | .ok => 11

/-- R112: when several statuses apply, the one highest in Table DIC-5. -/
def worst (a b : Status) : Status := if a.rank ≤ b.rank then a else b

/-- The status of a list of checks, each a condition under which a status applies. -/
def checks : List (Bool × Status) → Status
  | [] => .ok
  | (c, st) :: t => if c then worst st (checks t) else checks t

/-- Bit `b` of a register value. -/
def bitOf (v b : Nat) : Bool := v / 2 ^ b % 2 == 1

/-- Field [msb:lsb] of a register value. -/
def field (v msb lsb : Nat) : Nat := v / 2 ^ lsb % 2 ^ (msb + 1 - lsb)

/-- A register value with bit `b` set to `on`. -/
def withBit (v b : Nat) (on : Bool) : Nat :=
  if bitOf v b = on then v else if on then v + 2 ^ b else v - 2 ^ b

/-- Bits of `v` that are clear in `m`: the effect of writing `m` to a W1C field. -/
def clearBits (v m : Nat) : Nat := v - (v &&& m)

/-- A condition as a bit. -/
def b2n (b : Bool) : Nat := if b then 1 else 0

/-- Two's complement value of the low `w` bits. -/
def toInt (w v : Nat) : Int :=
  let u := v % 2 ^ w
  if u < 2 ^ (w - 1) then (u : Int) else (u : Int) - 2 ^ w

/-- The low `w` bits of an integer in two's complement. -/
def ofInt (w : Nat) (i : Int) : Nat := (i % (2 ^ w : Nat)).toNat

/-- R168: division by 2^n rounded half up. -/
def rnd (x : Int) (n : Nat) : Int := if n = 0 then x else (x + 2 ^ (n - 1)) / 2 ^ n

/-- Clip to the range of a `w`-bit two's complement value. -/
def satS (w : Nat) (x : Int) : Int :=
  if x < -(2 ^ (w - 1)) then -(2 ^ (w - 1)) else if x > 2 ^ (w - 1) - 1 then 2 ^ (w - 1) - 1 else x

/-- R511: an unsigned Q1.15 gain applied to a sample of `w` bits. -/
def applyGain (w : Nat) (x g : Int) : Int := satS w (rnd (x * g) 15)

end Sys2Proof.Machine
end

