-- ==== Sys2Proof/Machine/Keys.lean ====
section
/-! DEFINITION. The object dictionary's keys (R110, Table DIC-2): one name for each entry row of the spec's
dictionary tables, spelled as the spec spells it (a chapter tag added where two chapters use one name).
A key is INDEX:SUB; an entry that a selection key addresses (R235, R285, R420, R467 ...) has a third part, the
selected instance `x`. `i`, `t`, `p` count indices, trunks and ports, `j` counts subindices, all from 0. -/
namespace Sys2Proof.Machine

/-- The home of a dictionary value: index, subindex and, for entries behind a selection key, the instance. -/
abbrev key (idx sub inst : Nat) : Nat := (idx * 256 + sub) * 16777216 + inst

/-- R61 (Table ISB-9), key 1000:01. -/
abbrev K.ISB_STATE : Nat := key (0x1000) (0x01) 0
/-- R61 (Table ISB-9), key 1000:02. -/
abbrev K.ISB_SOURCE : Nat := key (0x1000) (0x02) 0
/-- R61 (Table ISB-9), key 1000:03. -/
abbrev K.ISB_NOW : Nat := key (0x1000) (0x03) 0
/-- R61 (Table ISB-9), key 1000:04. -/
abbrev K.ISB_OFFSET : Nat := key (0x1000) (0x04) 0
/-- R61 (Table ISB-9), key 1000:05. -/
abbrev K.ISB_FREQ_ADJ : Nat := key (0x1000) (0x05) 0
/-- R61 (Table ISB-9), key 1000:06. -/
abbrev K.UTC_OFFSET : Nat := key (0x1000) (0x06) 0
/-- R61 (Table ISB-9), key 1000:07. -/
abbrev K.SLEW_REMAINING : Nat := key (0x1000) (0x07) 0
/-- R61 (Table ISB-9), key 1000:08. -/
abbrev K.EVER_QUALIFIED : Nat := key (0x1000) (0x08) 0
/-- R61 (Table ISB-9), key 1000:09. -/
abbrev K.CLIP_COUNT : Nat := key (0x1000) (0x09) 0
/-- R61 (Table ISB-9), key 1001:01. -/
abbrev K.ISB_STEP : Nat := key (0x1001) (0x01) 0
/-- R61 (Table ISB-9), key 1001:02. -/
abbrev K.TOD_SET : Nat := key (0x1001) (0x02) 0
/-- R61 (Table ISB-9), key 1002:01. -/
abbrev K.INIT_STEP_EN : Nat := key (0x1002) (0x01) 0
/-- R61 (Table ISB-9), key 1002:02. -/
abbrev K.COLD_START_TIME : Nat := key (0x1002) (0x02) 0
/-- R61 (Table ISB-9), key 1002:03. -/
abbrev K.LOOP_BW : Nat := key (0x1002) (0x03) 0
/-- R61 (Table ISB-9), key 1002:04. -/
abbrev K.SLEW_LIMIT : Nat := key (0x1002) (0x04) 0
/-- R61 (Table ISB-9), key 1002:05. -/
abbrev K.HOLDOVER_AVG : Nat := key (0x1002) (0x05) 0
/-- R61 (Table ISB-9), key 1002:06. -/
abbrev K.REQUAL_TIME : Nat := key (0x1002) (0x06) 0
/-- R61 (Table ISB-9), key 1010:01–04. -/
abbrev K.SRC_PRIO (j : Nat) : Nat := key (0x1010) (0x01 + j) 0
/-- R61 (Table ISB-9), key 1011:01–04. -/
abbrev K.SRC_STATUS (j : Nat) : Nat := key (0x1011) (0x01 + j) 0
/-- R61 (Table ISB-9), key 1012:01–04. -/
abbrev K.SRC_REASON (j : Nat) : Nat := key (0x1012) (0x01 + j) 0
/-- R61 (Table ISB-9), key 1020:01. -/
abbrev K.PTP_PORT : Nat := key (0x1020) (0x01) 0
/-- R61 (Table ISB-9), key 1020:02. -/
abbrev K.PTP_PROFILE : Nat := key (0x1020) (0x02) 0
/-- R61 (Table ISB-9), key 1020:03. -/
abbrev K.PTP_DOMAIN : Nat := key (0x1020) (0x03) 0
/-- R61 (Table ISB-9), key 1020:04. -/
abbrev K.PTP_ROLE : Nat := key (0x1020) (0x04) 0
/-- R61 (Table ISB-9), key 1020:05. -/
abbrev K.PTP_TRANSPORT : Nat := key (0x1020) (0x05) 0
/-- R61 (Table ISB-9), key 1020:06. -/
abbrev K.LOG_SYNC : Nat := key (0x1020) (0x06) 0
/-- R61 (Table ISB-9), key 1020:07. -/
abbrev K.LOG_ANNOUNCE : Nat := key (0x1020) (0x07) 0
/-- R61 (Table ISB-9), key 1020:08. -/
abbrev K.LOG_DELAY_REQ : Nat := key (0x1020) (0x08) 0
/-- R61 (Table ISB-9), key 1020:09. -/
abbrev K.ANNOUNCE_TIMEOUT : Nat := key (0x1020) (0x09) 0
/-- R61 (Table ISB-9), key 1020:0A. -/
abbrev K.PRIORITY1 : Nat := key (0x1020) (0x0A) 0
/-- R61 (Table ISB-9), key 1020:0B. -/
abbrev K.PRIORITY2 : Nat := key (0x1020) (0x0B) 0
/-- R61 (Table ISB-9), key 1020:0C. -/
abbrev K.PTP_ASYMMETRY : Nat := key (0x1020) (0x0C) 0
/-- R61 (Table ISB-9), key 1020:0D. -/
abbrev K.GM_IDENTITY : Nat := key (0x1020) (0x0D) 0
/-- R61 (Table ISB-9), key 1020:0E. -/
abbrev K.STEPS_REMOVED : Nat := key (0x1020) (0x0E) 0
/-- R61 (Table ISB-9), key 1020:0F. -/
abbrev K.PTP_DSCP : Nat := key (0x1020) (0x0F) 0
/-- R61 (Table ISB-9), key 1020:10. -/
abbrev K.PTP_DISCARDS : Nat := key (0x1020) (0x10) 0
/-- R61 (Table ISB-9), key 1030:01. -/
abbrev K.REF10M_EN : Nat := key (0x1030) (0x01) 0
/-- R61 (Table ISB-9), key 1030:02. -/
abbrev K.PPS_IN_EN : Nat := key (0x1030) (0x02) 0
/-- R61 (Table ISB-9), key 1030:03. -/
abbrev K.PPS_IN_EDGE : Nat := key (0x1030) (0x03) 0
/-- R61 (Table ISB-9), key 1030:04. -/
abbrev K.PPS_IN_DELAY : Nat := key (0x1030) (0x04) 0
/-- R61 (Table ISB-9), key 1040:01. -/
abbrev K.SLOT_SELECT : Nat := key (0x1040) (0x01) 0
/-- R61 (Table ISB-9), key 1040:02. -/
abbrev K.LAUNCH_RECORD : Nat := key (0x1040) (0x02) 0
/-- R61 (Table ISB-9), key 1040:03. -/
abbrev K.LAUNCH_CANCEL : Nat := key (0x1040) (0x03) 0
/-- R61 (Table ISB-9), key 1040:04. -/
abbrev K.ARMED_COUNT : Nat := key (0x1040) (0x04) 0
/-- R61 (Table ISB-9), key 1040:05. -/
abbrev K.LATE_COUNT : Nat := key (0x1040) (0x05) 0
/-- R61 (Table ISB-9), key 1040:06. -/
abbrev K.COMPARATORS_FREE : Nat := key (0x1040) (0x06) 0
/-- R61 (Table ISB-9), key 1040:07. -/
abbrev K.FAILED_COUNT : Nat := key (0x1040) (0x07) 0
/-- R61 (Table ISB-9), key 1040:08. -/
abbrev K.LAUNCH_WRITES_REFUSED : Nat := key (0x1040) (0x08) 0
/-- R61 (Table ISB-9), key 1040:10–17. -/
abbrev K.TRUNK_SLOTS_FREE (j : Nat) : Nat := key (0x1040) (0x10 + j) 0
/-- R61 (Table ISB-9), key 1050:01, 1051:01. -/
abbrev K.PPS_EN (i : Nat) : Nat := key (0x1050 + i) (0x01) 0
/-- R61 (Table ISB-9), key 1050:02, 1051:02. -/
abbrev K.PPS_PERIOD (i : Nat) : Nat := key (0x1050 + i) (0x02) 0
/-- R61 (Table ISB-9), key 1050:03, 1051:03. -/
abbrev K.PPS_OFFSET (i : Nat) : Nat := key (0x1050 + i) (0x03) 0
/-- R61 (Table ISB-9), key 1050:04, 1051:04. -/
abbrev K.PPS_WIDTH (i : Nat) : Nat := key (0x1050 + i) (0x04) 0
/-- R61 (Table ISB-9), key 1050:05, 1051:05. -/
abbrev K.PPS_GATING (i : Nat) : Nat := key (0x1050 + i) (0x05) 0
/-- R61 (Table ISB-9), key 1050:06, 1051:06. -/
abbrev K.PPS_OUT_DELAY (i : Nat) : Nat := key (0x1050 + i) (0x06) 0
/-- R61 (Table ISB-9), key 1060:01–1063:01. -/
abbrev K.LX_EN (i : Nat) : Nat := key (0x1060 + i) (0x01) 0
/-- R61 (Table ISB-9), key 1060:02–1063:02. -/
abbrev K.LX_IDLE (i : Nat) : Nat := key (0x1060 + i) (0x02) 0
/-- R61 (Table ISB-9), key 1060:03–1063:03. -/
abbrev K.LX_DELAY (i : Nat) : Nat := key (0x1060 + i) (0x03) 0
/-- R61 (Table ISB-9), key 1060:04–1063:04. -/
abbrev K.LX_LEVEL (i : Nat) : Nat := key (0x1060 + i) (0x04) 0
/-- R61 (Table ISB-9), key 1070:01. -/
abbrev K.BARRIER_DELAY : Nat := key (0x1070) (0x01) 0
/-- R61 (Table ISB-9), key 1070:02. -/
abbrev K.FIELD_TIME_ERROR : Nat := key (0x1070) (0x02) 0
/-- R61 (Table ISB-9), key 1070:03. -/
abbrev K.FIELD_TIME_STATE : Nat := key (0x1070) (0x03) 0
/-- R61 (Table ISB-9), key 1080:01. -/
abbrev K.ALARM : Nat := key (0x1080) (0x01) 0
/-- R61 (Table ISB-9), key 1090:01. -/
abbrev K.SYNTH_STATE : Nat := key (0x1090) (0x01) 0
/-- R106 (Table FLD-15), key 1400:01. -/
abbrev K.FIELD_STATE : Nat := key (0x1400) (0x01) 0
/-- R106 (Table FLD-15), key 1400:02. -/
abbrev K.FIELD_REV : Nat := key (0x1400) (0x02) 0
/-- R106 (Table FLD-15), key 1400:03. -/
abbrev K.HUB_LOST : Nat := key (0x1400) (0x03) 0
/-- R106 (Table FLD-15), key 1400:06. -/
abbrev K.MAP_RAMP : Nat := key (0x1400) (0x06) 0
/-- R106 (Table FLD-15), key 1401:01. -/
abbrev K.LANOK_STATE : Nat := key (0x1401) (0x01) 0
/-- R106 (Table FLD-15), key 1401:02–05. -/
abbrev K.LANOK_COUNTS (j : Nat) : Nat := key (0x1401) (0x02 + j) 0
/-- R106 (Table FLD-15), key 1402:01–03. -/
abbrev K.EVENT_COUNTS (j : Nat) : Nat := key (0x1402) (0x01 + j) 0
/-- R106 (Table FLD-15), key 1410:01. -/
abbrev K.HD_MAX_OPEN : Nat := key (0x1410) (0x01) 0
/-- R106 (Table FLD-15), key 1410:02. -/
abbrev K.HD_QUEUE : Nat := key (0x1410) (0x02) 0
/-- R106 (Table FLD-15), key 1410:03. -/
abbrev K.HD_PRIO_MODE : Nat := key (0x1410) (0x03) 0
/-- R106 (Table FLD-15), key 1410:05. -/
abbrev K.EMERG_CLOSE : Nat := key (0x1410) (0x05) 0
/-- R106 (Table FLD-15), key 1411:01–03. -/
abbrev K.HD_STATE (j : Nat) : Nat := key (0x1411) (0x01 + j) 0
/-- R106 (Table FLD-15), key 1420:01, 1421:01. -/
abbrev K.CAN_EN (i : Nat) : Nat := key (0x1420 + i) (0x01) 0
/-- R106 (Table FLD-15), key 1420:02, 1421:02. -/
abbrev K.CAN_NOMINAL (i : Nat) : Nat := key (0x1420 + i) (0x02) 0
/-- R106 (Table FLD-15), key 1420:03, 1421:03. -/
abbrev K.CAN_DATA (i : Nat) : Nat := key (0x1420 + i) (0x03) 0
/-- R106 (Table FLD-15), key 1420:04, 1421:04. -/
abbrev K.CAN_SAMPLE (i : Nat) : Nat := key (0x1420 + i) (0x04) 0
/-- R106 (Table FLD-15), key 1420:05, 1421:05. -/
abbrev K.CAN_TDC (i : Nat) : Nat := key (0x1420 + i) (0x05) 0
/-- R106 (Table FLD-15), key 1420:06, 1421:06. -/
abbrev K.CAN_NODE_ID (i : Nat) : Nat := key (0x1420 + i) (0x06) 0
/-- R106 (Table FLD-15), key 1420:07, 1421:07. -/
abbrev K.CAN_BUS (i : Nat) : Nat := key (0x1420 + i) (0x07) 0
/-- R106 (Table FLD-15), key 1430:01–143F:01. -/
abbrev K.FGPIO_FUNC (i : Nat) : Nat := key (0x1430 + i) (0x01) 0
/-- R106 (Table FLD-15), key 1430:02–143F:02. -/
abbrev K.FGPIO_ACTIVE (i : Nat) : Nat := key (0x1430 + i) (0x02) 0
/-- R106 (Table FLD-15), key 1430:03–143F:03. -/
abbrev K.FGPIO_DEBOUNCE (i : Nat) : Nat := key (0x1430 + i) (0x03) 0
/-- R106 (Table FLD-15), key 1430:04–143F:04. -/
abbrev K.FGPIO_LEVEL (i : Nat) : Nat := key (0x1430 + i) (0x04) 0
/-- R106 (Table FLD-15), key 1500:01–150F:01. -/
abbrev K.VOTE_STATE (i : Nat) : Nat := key (0x1500 + i) (0x01) 0
/-- R106 (Table FLD-15), key 1500:02–150F:02. -/
abbrev K.VOTE_ARG (i : Nat) : Nat := key (0x1500 + i) (0x02) 0
/-- R106 (Table FLD-15), key 1500:03–09 … 150F:03–09. -/
abbrev K.VOTE_COUNT (i : Nat) (j : Nat) : Nat := key (0x1500 + i) (0x03 + j) 0
/-- R106 (Table FLD-15), key 1500:0A … 150F:0A. -/
abbrev K.NOT_VOTED (i : Nat) : Nat := key (0x1500 + i) (0x0A) 0
/-- R106 (Table FLD-15), key 1500:0B … 150F:0B. -/
abbrev K.SEALED_AT (i : Nat) : Nat := key (0x1500 + i) (0x0B) 0
/-- R106 (Table FLD-15), key 1500:0C … 150F:0C. -/
abbrev K.VOTES_LATE (i : Nat) : Nat := key (0x1500 + i) (0x0C) 0
/-- R106 (Table FLD-16), key 00:01. -/
abbrev K.TRUNK_STATE (t : Nat) : Nat := key (0x1800 + 256 * t) (0x01) 0
/-- R106 (Table FLD-16), key 00:02. -/
abbrev K.NODE_COUNT (t : Nat) : Nat := key (0x1800 + 256 * t) (0x02) 0
/-- R106 (Table FLD-16), key 00:03. -/
abbrev K.LOOP_DELAY (t : Nat) : Nat := key (0x1800 + 256 * t) (0x03) 0
/-- R106 (Table FLD-16), key 00:04. -/
abbrev K.TRUNK_FLAGS (t : Nat) : Nat := key (0x1800 + 256 * t) (0x04) 0
/-- R106 (Table FLD-16), key 00:05. -/
abbrev K.ENUMERATE (t : Nat) : Nat := key (0x1800 + 256 * t) (0x05) 0
/-- R106 (Table FLD-16), key 00:06. -/
abbrev K.BREAK_AT (t : Nat) : Nat := key (0x1800 + 256 * t) (0x06) 0
/-- R106 (Table FLD-16), key 00:07. -/
abbrev K.LATE_NODES (t : Nat) : Nat := key (0x1800 + 256 * t) (0x07) 0
/-- R106 (Table FLD-16), key 00:08. -/
abbrev K.TRUNK_EN (t : Nat) : Nat := key (0x1800 + 256 * t) (0x08) 0
/-- R106 (Table FLD-16), key 01:01, 02:01. -/
abbrev K.PORT_LINK (t : Nat) (p : Nat) : Nat := key (0x1801 + 256 * t + p) (0x01) 0
/-- R106 (Table FLD-16), key 01:02, 02:02. -/
abbrev K.PORT_SECT_ERR (t : Nat) (p : Nat) : Nat := key (0x1801 + 256 * t + p) (0x02) 0
/-- R106 (Table FLD-16), key 03:01, 04:01. -/
abbrev K.PWR_EN (t : Nat) (p : Nat) : Nat := key (0x1803 + 256 * t + p) (0x01) 0
/-- R106 (Table FLD-16), key 03:02, 04:02. -/
abbrev K.PWR_LIMIT (t : Nat) (p : Nat) : Nat := key (0x1803 + 256 * t + p) (0x02) 0
/-- R106 (Table FLD-16), key 03:03, 04:03. -/
abbrev K.PWR_SHUNT (t : Nat) (p : Nat) : Nat := key (0x1803 + 256 * t + p) (0x03) 0
/-- R106 (Table FLD-16), key 03:04, 04:04. -/
abbrev K.PWR_SOFT (t : Nat) (p : Nat) : Nat := key (0x1803 + 256 * t + p) (0x04) 0
/-- R106 (Table FLD-16), key 03:05, 04:05. -/
abbrev K.PWR_CURRENT (t : Nat) (p : Nat) : Nat := key (0x1803 + 256 * t + p) (0x05) 0
/-- R106 (Table FLD-16), key 03:06, 04:06. -/
abbrev K.PWR_STATE (t : Nat) (p : Nat) : Nat := key (0x1803 + 256 * t + p) (0x06) 0
/-- R106 (Table FLD-16), key 03:07, 04:07. -/
abbrev K.PWR_TRIPS (t : Nat) (p : Nat) : Nat := key (0x1803 + 256 * t + p) (0x07) 0
/-- R106 (Table FLD-16), key 03:08, 04:08. -/
abbrev K.PWR_CLEAR (t : Nat) (p : Nat) : Nat := key (0x1803 + 256 * t + p) (0x08) 0
/-- R106 (Table FLD-16), key 08:01–40, 09:01–40. -/
abbrev K.MAP (t : Nat) (p : Nat) (j : Nat) : Nat := key (0x1808 + 256 * t + p) (0x01 + j) 0
/-- R106 (Table FLD-16), key 0A:01. -/
abbrev K.MAP_ACTIVE (t : Nat) : Nat := key (0x180A + 256 * t) (0x01) 0
/-- R106 (Table FLD-16), key 0B:01–20. -/
abbrev K.SLOT_OWNER_FLD (t : Nat) (j : Nat) : Nat := key (0x180B + 256 * t) (0x01 + j) 0
/-- R106 (Table FLD-17), key 01. -/
abbrev K.NODE_STATE (i : Nat) : Nat := key (0x2000 + i) (0x01) 0
/-- R106 (Table FLD-17), key 02. -/
abbrev K.NODE_SERIAL (i : Nat) : Nat := key (0x2000 + i) (0x02) 0
/-- R106 (Table FLD-17), key 03. -/
abbrev K.NODE_CLASS (i : Nat) : Nat := key (0x2000 + i) (0x03) 0
/-- R106 (Table FLD-17), key 04. -/
abbrev K.NODE_ENDPOINTS (i : Nat) : Nat := key (0x2000 + i) (0x04) 0
/-- R106 (Table FLD-17), key 05. -/
abbrev K.NODE_PRESENT (i : Nat) : Nat := key (0x2000 + i) (0x05) 0
/-- R106 (Table FLD-17), key 06. -/
abbrev K.NODE_POS_DELAY (i : Nat) : Nat := key (0x2000 + i) (0x06) 0
/-- R106 (Table FLD-17), key 07. -/
abbrev K.NODE_REPEAT (i : Nat) : Nat := key (0x2000 + i) (0x07) 0
/-- R106 (Table FLD-17), key 08. -/
abbrev K.NODE_ZONE (i : Nat) : Nat := key (0x2000 + i) (0x08) 0
/-- R106 (Table FLD-17), key 09. -/
abbrev K.NODE_LANGUAGE (i : Nat) : Nat := key (0x2000 + i) (0x09) 0
/-- R106 (Table FLD-17), key 0A. -/
abbrev K.NODE_LS_ATTEN (i : Nat) : Nat := key (0x2000 + i) (0x0A) 0
/-- R106 (Table FLD-17), key 0B. -/
abbrev K.NODE_EVENT_OPEN (i : Nat) : Nat := key (0x2000 + i) (0x0B) 0
/-- R106 (Table FLD-17), key 0C. -/
abbrev K.NODE_ERR (i : Nat) : Nat := key (0x2000 + i) (0x0C) 0
/-- R106 (Table FLD-17), key 0D. -/
abbrev K.NODE_VOTE_GROUPS (i : Nat) : Nat := key (0x2000 + i) (0x0D) 0
/-- R131 (Table DIC-11), key 0000:01. -/
abbrev K.VENDOR : Nat := key (0x0000) (0x01) 0
/-- R131 (Table DIC-11), key 0000:02. -/
abbrev K.PART : Nat := key (0x0000) (0x02) 0
/-- R131 (Table DIC-11), key 0000:03. -/
abbrev K.SILICON_REV : Nat := key (0x0000) (0x03) 0
/-- R131 (Table DIC-11), key 0000:04. -/
abbrev K.TEMP_GRADE : Nat := key (0x0000) (0x04) 0
/-- R131 (Table DIC-11), key 0000:05. -/
abbrev K.SERIAL : Nat := key (0x0000) (0x05) 0
/-- R131 (Table DIC-11), key 0000:06. -/
abbrev K.FW_VERSION : Nat := key (0x0000) (0x06) 0
/-- R131 (Table DIC-11), key 0000:07. -/
abbrev K.ROM_VERSION : Nat := key (0x0000) (0x07) 0
/-- R131 (Table DIC-11), key 0000:08. -/
abbrev K.UNIT_NAME : Nat := key (0x0000) (0x08) 0
/-- R131 (Table DIC-11), key 0001:01. -/
abbrev K.MODE : Nat := key (0x0001) (0x01) 0
/-- R131 (Table DIC-11), key 0001:02. -/
abbrev K.MODE_REQUEST : Nat := key (0x0001) (0x02) 0
/-- R131 (Table DIC-11), key 0001:03. -/
abbrev K.BOOT_MODE : Nat := key (0x0001) (0x03) 0
/-- R131 (Table DIC-11), key 0001:04. -/
abbrev K.MODE_SINCE : Nat := key (0x0001) (0x04) 0
/-- R131 (Table DIC-11), key 0002:01. -/
abbrev K.SUMMARY : Nat := key (0x0002) (0x01) 0
/-- R131 (Table DIC-11), key 0002:02. -/
abbrev K.DIE_TEMP : Nat := key (0x0002) (0x02) 0
/-- R131 (Table DIC-11), key 0002:03. -/
abbrev K.UPTIME : Nat := key (0x0002) (0x03) 0
/-- R131 (Table DIC-11), key 0003:01. -/
abbrev K.WARM_RESET : Nat := key (0x0003) (0x01) 0
/-- R131 (Table DIC-11), key 0004:01–05. -/
abbrev K.LAST_CMD (j : Nat) : Nat := key (0x0004) (0x01 + j) 0
/-- R131 (Table DIC-11), key 0005:01. -/
abbrev K.PERSIST_PENDING : Nat := key (0x0005) (0x01) 0
/-- R131 (Table DIC-11), key 0005:02. -/
abbrev K.FACTORY_RESET : Nat := key (0x0005) (0x02) 0
/-- R131 (Table DIC-11), key 0005:03. -/
abbrev K.IMAGE_ID : Nat := key (0x0005) (0x03) 0
/-- R131 (Table DIC-11), key 0005:04. -/
abbrev K.IMAGE_STATE : Nat := key (0x0005) (0x04) 0
/-- R131 (Table DIC-11), key 0005:05. -/
abbrev K.IMAGE_ERR_KEY : Nat := key (0x0005) (0x05) 0
/-- R131 (Table DIC-11), key 0005:06. -/
abbrev K.IMAGE_SIGNED_ONLY : Nat := key (0x0005) (0x06) 0
/-- R131 (Table DIC-11), key 0180:01. -/
abbrev K.CLAIM_SELECT : Nat := key (0x0180) (0x01) 0
/-- R131 (Table DIC-11), key 0180:02. -/
abbrev K.CLAIM_OWNER : Nat := key (0x0180) (0x02) 0
/-- R131 (Table DIC-11), key 0181:01–07. -/
abbrev K.CLAIM_FREE (j : Nat) : Nat := key (0x0181) (0x01 + j) 0
/-- R131 (Table DIC-11), key 0200h + t:01. -/
abbrev K.TP_EN (i : Nat) : Nat := key (0x0200 + i) (0x01) 0
/-- R131 (Table DIC-11), key 0200h + t:02. -/
abbrev K.AUTH_MODE (i : Nat) : Nat := key (0x0200 + i) (0x02) 0
/-- R131 (Table DIC-11), key 0200h + t:03. -/
abbrev K.AUTH_SLOT (i : Nat) : Nat := key (0x0200 + i) (0x03) 0
/-- R131 (Table DIC-11), key 0200h + t:04. -/
abbrev K.REQUESTS_DIC (i : Nat) : Nat := key (0x0200 + i) (0x04) 0
/-- R131 (Table DIC-11), key 0200h + t:05. -/
abbrev K.DROPS (i : Nat) : Nat := key (0x0200 + i) (0x05) 0
/-- R131 (Table DIC-11), key 0210:01. -/
abbrev K.UDP_PORT : Nat := key (0x0210) (0x01) 0
/-- R131 (Table DIC-11), key 0210:02. -/
abbrev K.IP_MODE : Nat := key (0x0210) (0x02) 0
/-- R131 (Table DIC-11), key 0210:03. -/
abbrev K.IP_ADDR : Nat := key (0x0210) (0x03) 0
/-- R131 (Table DIC-11), key 0210:04. -/
abbrev K.IP_PREFIX : Nat := key (0x0210) (0x04) 0
/-- R131 (Table DIC-11), key 0210:05. -/
abbrev K.IP_GATEWAY : Nat := key (0x0210) (0x05) 0
/-- R161 (Table SCH-10), key F800:01. -/
abbrev K.SCHED_STATE : Nat := key (0xF800) (0x01) 0
/-- R161 (Table SCH-10), key F800:02. -/
abbrev K.ITEM_RATE : Nat := key (0xF800) (0x02) 0
/-- R161 (Table SCH-10), key F800:03. -/
abbrev K.READY_ITEMS : Nat := key (0xF800) (0x03) 0
/-- R161 (Table SCH-10), key F800:04. -/
abbrev K.DELAYED_ITEMS : Nat := key (0xF800) (0x04) 0
/-- R161 (Table SCH-10), key F800:05. -/
abbrev K.LOST_ITEMS : Nat := key (0xF800) (0x05) 0
/-- R161 (Table SCH-10), key F800:06. -/
abbrev K.ENQ_REJECTS : Nat := key (0xF800) (0x06) 0
/-- R161 (Table SCH-10), key F800:07. -/
abbrev K.POISONED : Nat := key (0xF800) (0x07) 0
/-- R161 (Table SCH-10), key F801:01. -/
abbrev K.FW_DIGEST : Nat := key (0xF801) (0x01) 0
/-- R161 (Table SCH-10), key F801:02. -/
abbrev K.FW_SLOT : Nat := key (0xF801) (0x02) 0
/-- R161 (Table SCH-10), key F801:03. -/
abbrev K.FW_STAGE : Nat := key (0xF801) (0x03) 0
/-- R161 (Table SCH-10), key F801:04. -/
abbrev K.FW_ACTIVATE : Nat := key (0xF801) (0x04) 0
/-- R161 (Table SCH-10), key F802:01. -/
abbrev K.AFFINITY_WAIT : Nat := key (0xF802) (0x01) 0
/-- R161 (Table SCH-10), key F803:01. -/
abbrev K.ORDER_WINDOW : Nat := key (0xF803) (0x01) 0
/-- R161 (Table SCH-10), key F803:02. -/
abbrev K.REORDER_FREE : Nat := key (0xF803) (0x02) 0
/-- R161 (Table SCH-10), key F803:03. -/
abbrev K.REORDER_STALLS : Nat := key (0xF803) (0x03) 0
/-- R161 (Table SCH-10), key F803:04. -/
abbrev K.WINDOW_STALLS : Nat := key (0xF803) (0x04) 0
/-- R161 (Table SCH-10), key F804:01. -/
abbrev K.REDISPATCH_LIMIT : Nat := key (0xF804) (0x01) 0
/-- R161 (Table SCH-10), key F804:02. -/
abbrev K.REDISPATCHES : Nat := key (0xF804) (0x02) 0
/-- R161 (Table SCH-10), key F810:01. -/
abbrev K.JRNL_USED : Nat := key (0xF810) (0x01) 0
/-- R161 (Table SCH-10), key F810:02. -/
abbrev K.JRNL_HIGH : Nat := key (0xF810) (0x02) 0
/-- R161 (Table SCH-10), key F810:03. -/
abbrev K.JRNL_MIRRORS : Nat := key (0xF810) (0x03) 0
/-- R161 (Table SCH-10), key F810:04. -/
abbrev K.JRNL_MIRROR_SEL : Nat := key (0xF810) (0x04) 0
/-- R161 (Table SCH-10), key F810:05. -/
abbrev K.LAST_ACCEPT : Nat := key (0xF810) (0x05) 0
/-- R161 (Table SCH-10), key F810:06. -/
abbrev K.ACCEPT_MAX : Nat := key (0xF810) (0x06) 0
/-- R161 (Table SCH-10), key F810:07. -/
abbrev K.JRNL_DEGRADED : Nat := key (0xF810) (0x07) 0
/-- R161 (Table SCH-10), key F810:08. -/
abbrev K.CHECKPOINT_AT : Nat := key (0xF810) (0x08) 0
/-- R161 (Table SCH-10), key F810:09. -/
abbrev K.CHECKPOINT_PERIOD : Nat := key (0xF810) (0x09) 0
/-- R161 (Table SCH-10), key F810:0A. -/
abbrev K.DEDUP_HITS : Nat := key (0xF810) (0x0A) 0
/-- R161 (Table SCH-10), key F810:0B. -/
abbrev K.REPLAYED : Nat := key (0xF810) (0x0B) 0
/-- R161 (Table SCH-10), key F810:0C. -/
abbrev K.REPLAY_TIME : Nat := key (0xF810) (0x0C) 0
/-- R161 (Table SCH-10), key F810:0D. -/
abbrev K.STATS_CLEAR_SCH : Nat := key (0xF810) (0x0D) 0
/-- R161 (Table SCH-10), key F820h + q:01. -/
abbrev K.SQ_EN (i : Nat) : Nat := key (0xF820 + i) (0x01) 0
/-- R161 (Table SCH-10), key F820h + q:02. -/
abbrev K.SQ_MIN_LEVEL (i : Nat) : Nat := key (0xF820 + i) (0x02) 0
/-- R161 (Table SCH-10), key F820h + q:03. -/
abbrev K.SQ_SUBMITTED (i : Nat) : Nat := key (0xF820 + i) (0x03) 0
/-- R161 (Table SCH-10), key F820h + q:04. -/
abbrev K.SQ_REJECTED (i : Nat) : Nat := key (0xF820 + i) (0x04) 0
/-- R161 (Table SCH-10), key F880h + m:01. -/
abbrev K.ME_STATE (i : Nat) : Nat := key (0xF880 + i) (0x01) 0
/-- R161 (Table SCH-10), key F880h + m:02. -/
abbrev K.ME_ITEMS (i : Nat) : Nat := key (0xF880 + i) (0x02) 0
/-- R161 (Table SCH-10), key F880h + m:03. -/
abbrev K.ME_UPSETS (i : Nat) : Nat := key (0xF880 + i) (0x03) 0
/-- R161 (Table SCH-10), key F880h + m:04. -/
abbrev K.ME_LOAD (i : Nat) : Nat := key (0xF880 + i) (0x04) 0
/-- R161 (Table SCH-10), key F900h + c:01. -/
abbrev K.CL_STATE (i : Nat) : Nat := key (0xF900 + i) (0x01) 0
/-- R161 (Table SCH-10), key F900h + c:02. -/
abbrev K.CL_STAGED (i : Nat) : Nat := key (0xF900 + i) (0x02) 0
/-- R161 (Table SCH-10), key F910:01–10. -/
abbrev K.LEVEL_READY (j : Nat) : Nat := key (0xF910) (0x01 + j) 0
/-- R186 (Table DSP-11), key 6C00:01. -/
abbrev K.KERNEL_ISA : Nat := key (0x6C00) (0x01) 0
/-- R186 (Table DSP-11), key 6C00:02. -/
abbrev K.CODE_FREE : Nat := key (0x6C00) (0x02) 0
/-- R186 (Table DSP-11), key 6C00:03. -/
abbrev K.SHARED_FREE : Nat := key (0x6C00) (0x03) 0
/-- R186 (Table DSP-11), key 6C00:04. -/
abbrev K.KFAULTS : Nat := key (0x6C00) (0x04) 0
/-- R186 (Table DSP-11), key 6C40h + k:01. -/
abbrev K.KIMAGE (i : Nat) : Nat := key (0x6C40 + i) (0x01) 0
/-- R186 (Table DSP-11), key 6C40h + k:02. -/
abbrev K.KSTATE (i : Nat) : Nat := key (0x6C40 + i) (0x02) 0
/-- R186 (Table DSP-11), key 6C40h + k:03. -/
abbrev K.KID (i : Nat) : Nat := key (0x6C40 + i) (0x03) 0
/-- R186 (Table DSP-11), key 6C40h + k:04. -/
abbrev K.KCODE (i : Nat) : Nat := key (0x6C40 + i) (0x04) 0
/-- R186 (Table DSP-11), key 6C40h + k:05. -/
abbrev K.KERR (i : Nat) : Nat := key (0x6C40 + i) (0x05) 0
/-- R186 (Table DSP-11), key 6C40h + k:06. -/
abbrev K.KUNLOAD (i : Nat) : Nat := key (0x6C40 + i) (0x06) 0
/-- R186 (Table DSP-11), key 6C40h + k:07. -/
abbrev K.KRUNS (i : Nat) : Nat := key (0x6C40 + i) (0x07) 0
/-- R186 (Table DSP-11), key 6C40h + k:08. -/
abbrev K.KFAULT_COUNT (i : Nat) : Nat := key (0x6C40 + i) (0x08) 0
/-- R186 (Table DSP-11), key 6C40h + k:09. -/
abbrev K.KLAST_FAULT (i : Nat) : Nat := key (0x6C40 + i) (0x09) 0
/-- R186 (Table DSP-11), key 6C40h + k:0A. -/
abbrev K.KSAT_RUNS (i : Nat) : Nat := key (0x6C40 + i) (0x0A) 0
/-- R186 (Table DSP-11), key 6D00h + e:01. -/
abbrev K.B_TYPE (i : Nat) : Nat := key (0x6D00 + i) (0x01) 0
/-- R186 (Table DSP-11), key 6D00h + e:02. -/
abbrev K.B_KERNEL (i : Nat) : Nat := key (0x6D00 + i) (0x02) 0
/-- R186 (Table DSP-11), key 6D00h + e:03. -/
abbrev K.B_RUN_LIMIT (i : Nat) : Nat := key (0x6D00 + i) (0x03) 0
/-- R186 (Table DSP-11), key 6D00h + e:04. -/
abbrev K.B_XWIN (i : Nat) : Nat := key (0x6D00 + i) (0x04) 0
/-- R186 (Table DSP-11), key 6D00h + e:05. -/
abbrev K.B_YWIN (i : Nat) : Nat := key (0x6D00 + i) (0x05) 0
/-- R186 (Table DSP-11), key 6D00h + e:06. -/
abbrev K.B_NEXT (i : Nat) : Nat := key (0x6D00 + i) (0x06) 0
/-- R186 (Table DSP-11), key 6D00h + e:07. -/
abbrev K.B_EN (i : Nat) : Nat := key (0x6D00 + i) (0x07) 0
/-- R186 (Table DSP-11), key 6E00h + t:01. -/
abbrev K.T_ME (i : Nat) : Nat := key (0x6E00 + i) (0x01) 0
/-- R186 (Table DSP-11), key 6E00h + t:02. -/
abbrev K.T_KERNEL (i : Nat) : Nat := key (0x6E00 + i) (0x02) 0
/-- R186 (Table DSP-11), key 6E00h + t:03. -/
abbrev K.T_PERIOD (i : Nat) : Nat := key (0x6E00 + i) (0x03) 0
/-- R186 (Table DSP-11), key 6E00h + t:04. -/
abbrev K.T_BUDGET (i : Nat) : Nat := key (0x6E00 + i) (0x04) 0
/-- R186 (Table DSP-11), key 6E00h + t:05. -/
abbrev K.T_IN_FIRST (i : Nat) : Nat := key (0x6E00 + i) (0x05) 0
/-- R186 (Table DSP-11), key 6E00h + t:06. -/
abbrev K.T_IN_COUNT (i : Nat) : Nat := key (0x6E00 + i) (0x06) 0
/-- R186 (Table DSP-11), key 6E00h + t:07. -/
abbrev K.T_OUT_FIRST (i : Nat) : Nat := key (0x6E00 + i) (0x07) 0
/-- R186 (Table DSP-11), key 6E00h + t:08. -/
abbrev K.T_OUT_COUNT (i : Nat) : Nat := key (0x6E00 + i) (0x08) 0
/-- R186 (Table DSP-11), key 6E00h + t:09. -/
abbrev K.T_EN (i : Nat) : Nat := key (0x6E00 + i) (0x09) 0
/-- R186 (Table DSP-11), key 6E00h + t:0A. -/
abbrev K.T_ACTIVE_ME (i : Nat) : Nat := key (0x6E00 + i) (0x0A) 0
/-- R186 (Table DSP-11), key 6E00h + t:0B. -/
abbrev K.T_OVERRUNS (i : Nat) : Nat := key (0x6E00 + i) (0x0B) 0
/-- R203 (Table SAP-5), key 6000h + n:01. -/
abbrev K.SAP_EN (i : Nat) : Nat := key (0x6000 + i) (0x01) 0
/-- R203 (Table SAP-5), key 6000h + n:02. -/
abbrev K.FORMAT (i : Nat) : Nat := key (0x6000 + i) (0x02) 0
/-- R203 (Table SAP-5), key 6000h + n:03. -/
abbrev K.CLOCK (i : Nat) : Nat := key (0x6000 + i) (0x03) 0
/-- R203 (Table SAP-5), key 6000h + n:04. -/
abbrev K.RATE (i : Nat) : Nat := key (0x6000 + i) (0x04) 0
/-- R203 (Table SAP-5), key 6000h + n:05. -/
abbrev K.SLOTS (i : Nat) : Nat := key (0x6000 + i) (0x05) 0
/-- R203 (Table SAP-5), key 6000h + n:06. -/
abbrev K.SLOT_WIDTH (i : Nat) : Nat := key (0x6000 + i) (0x06) 0
/-- R203 (Table SAP-5), key 6000h + n:07. -/
abbrev K.SAMPLE_BITS (i : Nat) : Nat := key (0x6000 + i) (0x07) 0
/-- R203 (Table SAP-5), key 6000h + n:08. -/
abbrev K.IN_CH (i : Nat) : Nat := key (0x6000 + i) (0x08) 0
/-- R203 (Table SAP-5), key 6000h + n:09. -/
abbrev K.OUT_CH (i : Nat) : Nat := key (0x6000 + i) (0x09) 0
/-- R203 (Table SAP-5), key 6000h + n:0A. -/
abbrev K.MIX_IN_BASE (i : Nat) : Nat := key (0x6000 + i) (0x0A) 0
/-- R203 (Table SAP-5), key 6000h + n:0B. -/
abbrev K.MIX_OUT_BASE (i : Nat) : Nat := key (0x6000 + i) (0x0B) 0
/-- R203 (Table SAP-5), key 6000h + n:0C. -/
abbrev K.TDM_FS (i : Nat) : Nat := key (0x6000 + i) (0x0C) 0
/-- R203 (Table SAP-5), key 6000h + n:0D. -/
abbrev K.DATA_DELAY (i : Nat) : Nat := key (0x6000 + i) (0x0D) 0
/-- R203 (Table SAP-5), key 6000h + n:0E. -/
abbrev K.BCLK_EDGE (i : Nat) : Nat := key (0x6000 + i) (0x0E) 0
/-- R203 (Table SAP-5), key 6000h + n:0F. -/
abbrev K.GROUP (i : Nat) : Nat := key (0x6000 + i) (0x0F) 0
/-- R203 (Table SAP-5), key 6000h + n:10. -/
abbrev K.STALE_FADE (i : Nat) : Nat := key (0x6000 + i) (0x10) 0
/-- R203 (Table SAP-5), key 6000h + n:11. -/
abbrev K.START_FRAMES (i : Nat) : Nat := key (0x6000 + i) (0x11) 0
/-- R203 (Table SAP-5), key 6000h + n:12. -/
abbrev K.SAP_STATE (i : Nat) : Nat := key (0x6000 + i) (0x12) 0
/-- R203 (Table SAP-5), key 6000h + n:13. -/
abbrev K.MEASURED_RATE (i : Nat) : Nat := key (0x6000 + i) (0x13) 0
/-- R203 (Table SAP-5), key 6000h + n:14. -/
abbrev K.ASRC_STATE (i : Nat) : Nat := key (0x6000 + i) (0x14) 0
/-- R203 (Table SAP-5), key 6000h + n:15. -/
abbrev K.ASRC_RATIO (i : Nat) : Nat := key (0x6000 + i) (0x15) 0
/-- R203 (Table SAP-5), key 6000h + n:16. -/
abbrev K.BUF_FILL (i : Nat) : Nat := key (0x6000 + i) (0x16) 0
/-- R203 (Table SAP-5), key 6000h + n:17. -/
abbrev K.UNDERRUNS (i : Nat) : Nat := key (0x6000 + i) (0x17) 0
/-- R203 (Table SAP-5), key 6000h + n:18. -/
abbrev K.OVERRUNS (i : Nat) : Nat := key (0x6000 + i) (0x18) 0
/-- R203 (Table SAP-5), key 6000h + n:19. -/
abbrev K.CLOCK_LOSSES (i : Nat) : Nat := key (0x6000 + i) (0x19) 0
/-- R203 (Table SAP-5), key 6000h + n:1A. -/
abbrev K.STALE_IN (i : Nat) : Nat := key (0x6000 + i) (0x1A) 0
/-- R203 (Table SAP-6), key 6100h + g:01. -/
abbrev K.G_BLOCK (i : Nat) : Nat := key (0x6100 + i) (0x01) 0
/-- R203 (Table SAP-6), key 6100h + g:02. -/
abbrev K.G_STATE_SAP (i : Nat) : Nat := key (0x6100 + i) (0x02) 0
/-- R203 (Table SAP-6), key 6100h + g:03. -/
abbrev K.G_PORTS (i : Nat) : Nat := key (0x6100 + i) (0x03) 0
/-- R203 (Table SAP-6), key 6100h + g:04. -/
abbrev K.G_RX (i : Nat) : Nat := key (0x6100 + i) (0x04) 0
/-- R203 (Table SAP-6), key 6100h + g:05. -/
abbrev K.G_TX (i : Nat) : Nat := key (0x6100 + i) (0x05) 0
/-- R203 (Table SAP-6), key 6100h + g:06. -/
abbrev K.G_REJOINS (i : Nat) : Nat := key (0x6100 + i) (0x06) 0
/-- R203 (Table SAP-7), key 6200h + e:01, 6280h + e:01. -/
abbrev K.EP_EN_RX (i : Nat) : Nat := key (0x6200 + i) (0x01) 0
/-- R203 (Table SAP-7), key 6200h + e:01, 6280h + e:01. -/
abbrev K.EP_EN_TX (i : Nat) : Nat := key (0x6280 + i) (0x01) 0
/-- R203 (Table SAP-7), key 6200h + e:02, 6280h + e:02. -/
abbrev K.EP_CHANNELS_RX (i : Nat) : Nat := key (0x6200 + i) (0x02) 0
/-- R203 (Table SAP-7), key 6200h + e:02, 6280h + e:02. -/
abbrev K.EP_CHANNELS_TX (i : Nat) : Nat := key (0x6280 + i) (0x02) 0
/-- R203 (Table SAP-7), key 6200h + e:03, 6280h + e:03. -/
abbrev K.EP_ENCODING_RX (i : Nat) : Nat := key (0x6200 + i) (0x03) 0
/-- R203 (Table SAP-7), key 6200h + e:03, 6280h + e:03. -/
abbrev K.EP_ENCODING_TX (i : Nat) : Nat := key (0x6280 + i) (0x03) 0
/-- R203 (Table SAP-7), key 6200h + e:04, 6280h + e:04. -/
abbrev K.EP_PTIME_RX (i : Nat) : Nat := key (0x6200 + i) (0x04) 0
/-- R203 (Table SAP-7), key 6200h + e:04, 6280h + e:04. -/
abbrev K.EP_PTIME_TX (i : Nat) : Nat := key (0x6280 + i) (0x04) 0
/-- R203 (Table SAP-7), key 6200h + e:05, 6280h + e:05. -/
abbrev K.RTP_OFFSET_RX (i : Nat) : Nat := key (0x6200 + i) (0x05) 0
/-- R203 (Table SAP-7), key 6200h + e:05, 6280h + e:05. -/
abbrev K.RTP_OFFSET_TX (i : Nat) : Nat := key (0x6280 + i) (0x05) 0
/-- R203 (Table SAP-7), key 6200h + e:06. -/
abbrev K.LINK_OFFSET (i : Nat) : Nat := key (0x6200 + i) (0x06) 0
/-- R203 (Table SAP-7), key 6200h + e:07. -/
abbrev K.EP_MIX_IN_BASE (i : Nat) : Nat := key (0x6200 + i) (0x07) 0
/-- R203 (Table SAP-7), key 6280h + e:07. -/
abbrev K.EP_MIX_OUT_BASE (i : Nat) : Nat := key (0x6280 + i) (0x07) 0
/-- R203 (Table SAP-7), key 6200h + e:08, 6280h + e:08. -/
abbrev K.EP_GROUP_RX (i : Nat) : Nat := key (0x6200 + i) (0x08) 0
/-- R203 (Table SAP-7), key 6200h + e:08, 6280h + e:08. -/
abbrev K.EP_GROUP_TX (i : Nat) : Nat := key (0x6280 + i) (0x08) 0
/-- R203 (Table SAP-7), key 6200h + e:09, 6280h + e:09. -/
abbrev K.EP_STATE_RX (i : Nat) : Nat := key (0x6200 + i) (0x09) 0
/-- R203 (Table SAP-7), key 6200h + e:09, 6280h + e:09. -/
abbrev K.EP_STATE_TX (i : Nat) : Nat := key (0x6280 + i) (0x09) 0
/-- R203 (Table SAP-7), key 6200h + e:0A. -/
abbrev K.EP_LATE (i : Nat) : Nat := key (0x6200 + i) (0x0A) 0
/-- R203 (Table SAP-7), key 6200h + e:0B. -/
abbrev K.EP_LOST (i : Nat) : Nat := key (0x6200 + i) (0x0B) 0
/-- R203 (Table SAP-7), key 6200h + e:0C. -/
abbrev K.EP_UNDERRUNS (i : Nat) : Nat := key (0x6200 + i) (0x0C) 0
/-- R203 (Table SAP-7), key 6200h + e:0D. -/
abbrev K.EP_STALE_FADE (i : Nat) : Nat := key (0x6200 + i) (0x0D) 0
/-- R235 (Table MIX-7), key 6400:01–03. -/
abbrev K.ACTIVE_BANKS (j : Nat) : Nat := key (0x6400) (0x01 + j) 0
/-- R235 (Table MIX-7), key 6400:04. -/
abbrev K.XP_RAMP : Nat := key (0x6400) (0x04) 0
/-- R235 (Table MIX-7), key 6400:05. -/
abbrev K.XP_COPY : Nat := key (0x6400) (0x05) 0
/-- R235 (Table MIX-7), key 6400:06. -/
abbrev K.XP_PRESET : Nat := key (0x6400) (0x06) 0
/-- R235 (Table MIX-7), key 6400:07. -/
abbrev K.WRITES_REFUSED : Nat := key (0x6400) (0x07) 0
/-- R235 (Table MIX-7), key 6400:08. -/
abbrev K.EQ_BAD : Nat := key (0x6400) (0x08) 0
/-- R235 (Table MIX-7), key 6401:01. -/
abbrev K.XP_SELECT (x : Nat) : Nat := key (0x6401) (0x01) x
/-- R235 (Table MIX-7), key 6401:02. -/
abbrev K.XP_NODE (x : Nat) : Nat := key (0x6401) (0x02) x
/-- R235 (Table MIX-7), key 6401:03. -/
abbrev K.XP_ROW (x : Nat) : Nat := key (0x6401) (0x03) x
/-- R235 (Table MIX-7), key 6402:01. -/
abbrev K.EQ_SELECT (x : Nat) : Nat := key (0x6402) (0x01) x
/-- R235 (Table MIX-7), key 6402:02. -/
abbrev K.EQ_SECTION (x : Nat) : Nat := key (0x6402) (0x02) x
/-- R235 (Table MIX-7), key 6410:01. -/
abbrev K.IN_SELECT (x : Nat) : Nat := key (0x6410) (0x01) x
/-- R235 (Table MIX-7), key 6410:02. -/
abbrev K.IN_OWNER (x : Nat) : Nat := key (0x6410) (0x02) x
/-- R235 (Table MIX-7), key 6410:03. -/
abbrev K.IN_TRIM (x : Nat) : Nat := key (0x6410) (0x03) x
/-- R235 (Table MIX-7), key 6410:04. -/
abbrev K.IN_TALK (x : Nat) : Nat := key (0x6410) (0x04) x
/-- R235 (Table MIX-7), key 6410:05. -/
abbrev K.IN_PEAK (x : Nat) : Nat := key (0x6410) (0x05) x
/-- R235 (Table MIX-7), key 6410:06. -/
abbrev K.IN_RMS (x : Nat) : Nat := key (0x6410) (0x06) x
/-- R235 (Table MIX-7), key 6410:07. -/
abbrev K.IN_STALE (x : Nat) : Nat := key (0x6410) (0x07) x
/-- R235 (Table MIX-7), key 6411:01. -/
abbrev K.OUT_SELECT (x : Nat) : Nat := key (0x6411) (0x01) x
/-- R235 (Table MIX-7), key 6411:02. -/
abbrev K.OUT_OWNER (x : Nat) : Nat := key (0x6411) (0x02) x
/-- R235 (Table MIX-7), key 6411:03. -/
abbrev K.OUT_MODE (x : Nat) : Nat := key (0x6411) (0x03) x
/-- R235 (Table MIX-7), key 6411:04. -/
abbrev K.OUT_COPY_OF (x : Nat) : Nat := key (0x6411) (0x04) x
/-- R235 (Table MIX-7), key 6411:05. -/
abbrev K.OUT_GAIN (x : Nat) : Nat := key (0x6411) (0x05) x
/-- R235 (Table MIX-7), key 6411:06. -/
abbrev K.OUT_MUTE (x : Nat) : Nat := key (0x6411) (0x06) x
/-- R235 (Table MIX-7), key 6411:07. -/
abbrev K.OUT_PEAK (x : Nat) : Nat := key (0x6411) (0x07) x
/-- R235 (Table MIX-7), key 6411:08. -/
abbrev K.OUT_RMS (x : Nat) : Nat := key (0x6411) (0x08) x
/-- R235 (Table MIX-7), key 6411:09. -/
abbrev K.OUT_CLIPS (x : Nat) : Nat := key (0x6411) (0x09) x
/-- R235 (Table MIX-7), key 6412:01. -/
abbrev K.METER_CLR : Nat := key (0x6412) (0x01) 0
/-- R235 (Table MIX-7), key 6700h + m:01. -/
abbrev K.LM_SOURCE (i : Nat) : Nat := key (0x6700 + i) (0x01) 0
/-- R235 (Table MIX-7), key 6700h + m:02. -/
abbrev K.LM_EN (i : Nat) : Nat := key (0x6700 + i) (0x02) 0
/-- R235 (Table MIX-7), key 6700h + m:03–05. -/
abbrev K.LM_VALUES (i : Nat) (j : Nat) : Nat := key (0x6700 + i) (0x03 + j) 0
/-- R235 (Table MIX-7), key 6700h + m:06. -/
abbrev K.LM_TRUE_PEAK (i : Nat) : Nat := key (0x6700 + i) (0x06) 0
/-- R235 (Table MIX-7), key 6700h + m:07. -/
abbrev K.LM_RESET (i : Nat) : Nat := key (0x6700 + i) (0x07) 0
/-- R235 (Table MIX-7), key 6700h + m:08. -/
abbrev K.LM_HISTORY (i : Nat) : Nat := key (0x6700 + i) (0x08) 0
/-- R235 (Table MIX-8), key 6420:01. -/
abbrev K.TM_MODE : Nat := key (0x6420) (0x01) 0
/-- R235 (Table MIX-8), key 6420:02. -/
abbrev K.TM_MAX_OPEN : Nat := key (0x6420) (0x02) 0
/-- R235 (Table MIX-8), key 6420:03. -/
abbrev K.TM_QUEUE_LEN : Nat := key (0x6420) (0x03) 0
/-- R235 (Table MIX-8), key 6420:04. -/
abbrev K.TM_NOM : Nat := key (0x6420) (0x04) 0
/-- R235 (Table MIX-8), key 6420:05. -/
abbrev K.TM_LEAD : Nat := key (0x6420) (0x05) 0
/-- R235 (Table MIX-8), key 6420:06. -/
abbrev K.TM_PRIO_ATTEN : Nat := key (0x6420) (0x06) 0
/-- R235 (Table MIX-8), key 6420:07. -/
abbrev K.TM_PRIO_MODE : Nat := key (0x6420) (0x07) 0
/-- R235 (Table MIX-8), key 6420:08. -/
abbrev K.TM_PRIO_REMOTE : Nat := key (0x6420) (0x08) 0
/-- R235 (Table MIX-8), key 6420:09. -/
abbrev K.TM_REMOTE : Nat := key (0x6420) (0x09) 0
/-- R235 (Table MIX-8), key 6420:0A. -/
abbrev K.VOICE_THRESHOLD : Nat := key (0x6420) (0x0A) 0
/-- R235 (Table MIX-8), key 6420:0B. -/
abbrev K.VOICE_HANG : Nat := key (0x6420) (0x0B) 0
/-- R235 (Table MIX-8), key 6420:0C, 0D. -/
abbrev K.TM_OPEN : Nat := key (0x6420) (0x0C) 0
/-- R235 (Table MIX-8), key 6420:0C, 0D. -/
abbrev K.TM_QUEUE : Nat := key (0x6420) (0x0D) 0
/-- R235 (Table MIX-8), key 6420:0E, 0F. -/
abbrev K.TM_GRANT : Nat := key (0x6420) (0x0E) 0
/-- R235 (Table MIX-8), key 6420:0E, 0F. -/
abbrev K.TM_CLOSE : Nat := key (0x6420) (0x0F) 0
/-- R235 (Table MIX-8), key 6420:10. -/
abbrev K.TM_CLEAR_QUEUE : Nat := key (0x6420) (0x10) 0
/-- R235 (Table MIX-8), key 6420:11, 12. -/
abbrev K.TM_REFUSED : Nat := key (0x6420) (0x11) 0
/-- R235 (Table MIX-8), key 6420:11, 12. -/
abbrev K.TM_NO_SLOT : Nat := key (0x6420) (0x12) 0
/-- R235 (Table MIX-8), key 6440h + L:01. -/
abbrev K.BOOTH_TRUNK (i : Nat) : Nat := key (0x6441 + i) (0x01) 0
/-- R235 (Table MIX-8), key 6440h + L:02. -/
abbrev K.BOOTH_SLOT (i : Nat) : Nat := key (0x6441 + i) (0x02) 0
/-- R235 (Table MIX-8), key 6440h + L:03. -/
abbrev K.BOOTH_MODE (i : Nat) : Nat := key (0x6441 + i) (0x03) 0
/-- R235 (Table MIX-8), key 6440h + L:04. -/
abbrev K.RELAY_SRC (i : Nat) : Nat := key (0x6441 + i) (0x04) 0
/-- R235 (Table MIX-8), key 6440h + L:05. -/
abbrev K.FALLBACK (i : Nat) : Nat := key (0x6441 + i) (0x05) 0
/-- R235 (Table MIX-8), key 6440h + L:06. -/
abbrev K.FALLBACK_DELAY (i : Nat) : Nat := key (0x6441 + i) (0x06) 0
/-- R235 (Table MIX-8), key 6440h + L:07. -/
abbrev K.LANG_STATE (i : Nat) : Nat := key (0x6441 + i) (0x07) 0
/-- R235 (Table MIX-8), key 6800h + d:01. -/
abbrev K.DESK_NODE (i : Nat) : Nat := key (0x6800 + i) (0x01) 0
/-- R235 (Table MIX-8), key 6800h + d:02. -/
abbrev K.DESK_LANG (i : Nat) : Nat := key (0x6800 + i) (0x02) 0
/-- R235 (Table MIX-8), key 6800h + d:03. -/
abbrev K.DESK_EN (i : Nat) : Nat := key (0x6800 + i) (0x03) 0
/-- R235 (Table MIX-9), key 6500h + c:01. -/
abbrev K.CAND_LEG (i : Nat) : Nat := key (0x6500 + i) (0x01) 0
/-- R235 (Table MIX-9), key 6500h + c:02. -/
abbrev K.CAND_LEVEL (i : Nat) : Nat := key (0x6500 + i) (0x02) 0
/-- R235 (Table MIX-9), key 6500h + c:03. -/
abbrev K.CAND_SINCE (i : Nat) : Nat := key (0x6500 + i) (0x03) 0
/-- R235 (Table MIX-9), key 6500h + c:04. -/
abbrev K.CAND_TALK (i : Nat) : Nat := key (0x6500 + i) (0x04) 0
/-- R235 (Table MIX-9), key 6560:01. -/
abbrev K.PRESEL_WINDOW : Nat := key (0x6560) (0x01) 0
/-- R235 (Table MIX-9), key 6560:02. -/
abbrev K.PRESEL_HYST : Nat := key (0x6560) (0x02) 0
/-- R235 (Table MIX-9), key 6560:03. -/
abbrev K.PRESEL_HOLD : Nat := key (0x6560) (0x03) 0
/-- R235 (Table MIX-9), key 6560:04. -/
abbrev K.PRESEL_CHANGES : Nat := key (0x6560) (0x04) 0
/-- R235 (Table MIX-9), key 6580h + k:01. -/
abbrev K.TP_LEG (i : Nat) : Nat := key (0x6580 + i) (0x01) 0
/-- R235 (Table MIX-9), key 6580h + k:02. -/
abbrev K.TP_SINCE (i : Nat) : Nat := key (0x6580 + i) (0x02) 0
/-- R235 (Table MIX-9), key 6600h + g:01. -/
abbrev K.SE_EN (i : Nat) : Nat := key (0x6600 + i) (0x01) 0
/-- R235 (Table MIX-9), key 6600h + g:02. -/
abbrev K.SE_CODEC (i : Nat) : Nat := key (0x6600 + i) (0x02) 0
/-- R235 (Table MIX-9), key 6600h + g:03. -/
abbrev K.SE_BITRATE (i : Nat) : Nat := key (0x6600 + i) (0x03) 0
/-- R235 (Table MIX-9), key 6600h + g:04. -/
abbrev K.SE_FRAME (i : Nat) : Nat := key (0x6600 + i) (0x04) 0
/-- R235 (Table MIX-9), key 6600h + g:05. -/
abbrev K.SE_CHANNELS (i : Nat) : Nat := key (0x6600 + i) (0x05) 0
/-- R235 (Table MIX-9), key 6600h + g:06, 07. -/
abbrev K.SE_FEC (i : Nat) : Nat := key (0x6600 + i) (0x06) 0
/-- R235 (Table MIX-9), key 6600h + g:06, 07. -/
abbrev K.SE_DTX (i : Nat) : Nat := key (0x6600 + i) (0x07) 0
/-- R235 (Table MIX-9), key 6600h + g:08, 09. -/
abbrev K.SE_MEMBERS (i : Nat) : Nat := key (0x6600 + i) (0x08) 0
/-- R235 (Table MIX-9), key 6600h + g:08, 09. -/
abbrev K.SE_TALKERS (i : Nat) : Nat := key (0x6600 + i) (0x09) 0
/-- R235 (Table MIX-9), key 6680:01. -/
abbrev K.LEG_SELECT (x : Nat) : Nat := key (0x6680) (0x01) x
/-- R235 (Table MIX-9), key 6680:02. -/
abbrev K.LEG_GROUP (x : Nat) : Nat := key (0x6680) (0x02) x
/-- R235 (Table MIX-9), key 6680:03. -/
abbrev K.LEG_PIN (x : Nat) : Nat := key (0x6680) (0x03) x
/-- R235 (Table MIX-9), key 6680:04. -/
abbrev K.LEG_LEVEL (x : Nat) : Nat := key (0x6680) (0x04) x
/-- R235 (Table MIX-9), key 6680:05. -/
abbrev K.LEG_TALK (x : Nat) : Nat := key (0x6680) (0x05) x
/-- R263 (Table PKT-8), key 7000h + p:01. -/
abbrev K.PORT_EN (i : Nat) : Nat := key (0x7000 + i) (0x01) 0
/-- R263 (Table PKT-8), key 7000h + p:02. -/
abbrev K.PORT_STATE (i : Nat) : Nat := key (0x7000 + i) (0x02) 0
/-- R263 (Table PKT-8), key 7000h + p:03. -/
abbrev K.MEDIA (i : Nat) : Nat := key (0x7000 + i) (0x03) 0
/-- R263 (Table PKT-8), key 7000h + p:04. -/
abbrev K.AUTONEG (i : Nat) : Nat := key (0x7000 + i) (0x04) 0
/-- R263 (Table PKT-8), key 7000h + p:05. -/
abbrev K.FEC (i : Nat) : Nat := key (0x7000 + i) (0x05) 0
/-- R263 (Table PKT-8), key 7000h + p:06. -/
abbrev K.MAC_ADDR (i : Nat) : Nat := key (0x7000 + i) (0x06) 0
/-- R263 (Table PKT-8), key 7000h + p:07. -/
abbrev K.IPV4_ADDR (i : Nat) : Nat := key (0x7000 + i) (0x07) 0
/-- R263 (Table PKT-8), key 7000h + p:08. -/
abbrev K.IPV4_PREFIX (i : Nat) : Nat := key (0x7000 + i) (0x08) 0
/-- R263 (Table PKT-8), key 7000h + p:09. -/
abbrev K.IPV6_ADDR (i : Nat) : Nat := key (0x7000 + i) (0x09) 0
/-- R263 (Table PKT-8), key 7000h + p:0A. -/
abbrev K.VLAN (i : Nat) : Nat := key (0x7000 + i) (0x0A) 0
/-- R263 (Table PKT-8), key 7000h + p:0B. -/
abbrev K.MAX_FRAME (i : Nat) : Nat := key (0x7000 + i) (0x0B) 0
/-- R263 (Table PKT-8), key 7000h + p:0C. -/
abbrev K.PAUSE_MODE (i : Nat) : Nat := key (0x7000 + i) (0x0C) 0
/-- R263 (Table PKT-8), key 7000h + p:0D. -/
abbrev K.PFC_PRIO (i : Nat) : Nat := key (0x7000 + i) (0x0D) 0
/-- R263 (Table PKT-8), key 7000h + p:0E. -/
abbrev K.RX_PAUSE_EN (i : Nat) : Nat := key (0x7000 + i) (0x0E) 0
/-- R263 (Table PKT-8), key 7000h + p:0F. -/
abbrev K.PAUSE_QUANTA (i : Nat) : Nat := key (0x7000 + i) (0x0F) 0
/-- R263 (Table PKT-8), key 7000h + p:10. -/
abbrev K.PORT_HIGH (i : Nat) : Nat := key (0x7000 + i) (0x10) 0
/-- R263 (Table PKT-8), key 7000h + p:11. -/
abbrev K.PORT_LOW (i : Nat) : Nat := key (0x7000 + i) (0x11) 0
/-- R263 (Table PKT-8), key 7000h + p:12. -/
abbrev K.PORT_CELLS (i : Nat) : Nat := key (0x7000 + i) (0x12) 0
/-- R263 (Table PKT-8), key 7000h + p:13–16. -/
abbrev K.FRAME_COUNTS (i : Nat) (j : Nat) : Nat := key (0x7000 + i) (0x13 + j) 0
/-- R263 (Table PKT-8), key 7000h + p:17–19. -/
abbrev K.RX_ERR (i : Nat) (j : Nat) : Nat := key (0x7000 + i) (0x17 + j) 0
/-- R263 (Table PKT-8), key 7000h + p:1A. -/
abbrev K.FEC_CORRECTED (i : Nat) : Nat := key (0x7000 + i) (0x1A) 0
/-- R263 (Table PKT-8), key 7000h + p:1B. -/
abbrev K.FEC_UNCORRECTED (i : Nat) : Nat := key (0x7000 + i) (0x1B) 0
/-- R263 (Table PKT-8), key 7000h + p:1C. -/
abbrev K.FEC_UNCORR_LIMIT (i : Nat) : Nat := key (0x7000 + i) (0x1C) 0
/-- R263 (Table PKT-8), key 7000h + p:1D. -/
abbrev K.RX_NO_CELL (i : Nat) : Nat := key (0x7000 + i) (0x1D) 0
/-- R263 (Table PKT-8), key 7000h + p:1E, 1F. -/
abbrev K.PAUSE_SENT (i : Nat) : Nat := key (0x7000 + i) (0x1E) 0
/-- R263 (Table PKT-8), key 7000h + p:1E, 1F. -/
abbrev K.PAUSE_RECEIVED (i : Nat) : Nat := key (0x7000 + i) (0x1F) 0
/-- R263 (Table PKT-8), key 7000h + p:20. -/
abbrev K.TX_PAUSED (i : Nat) : Nat := key (0x7000 + i) (0x20) 0
/-- R263 (Table PKT-8), key 7000h + p:21. -/
abbrev K.LINK_DOWNS (i : Nat) : Nat := key (0x7000 + i) (0x21) 0
/-- R263 (Table PKT-8), key 7020:01. -/
abbrev K.PORT_MODE : Nat := key (0x7020) (0x01) 0
/-- R263 (Table PKT-8), key 7030:01. -/
abbrev K.MGMT_STATE : Nat := key (0x7030) (0x01) 0
/-- R263 (Table PKT-8), key 7030:02. -/
abbrev K.MGMT_MAC : Nat := key (0x7030) (0x02) 0
/-- R263 (Table PKT-8), key 7030:03–06. -/
abbrev K.MGMT_COUNTS (j : Nat) : Nat := key (0x7030) (0x03 + j) 0
/-- R263 (Table PKT-9), key 7100:01. -/
abbrev K.POOL_MODE : Nat := key (0x7100) (0x01) 0
/-- R263 (Table PKT-9), key 7100:02. -/
abbrev K.CELLS_FREE : Nat := key (0x7100) (0x02) 0
/-- R263 (Table PKT-9), key 7100:03. -/
abbrev K.G_HIGH : Nat := key (0x7100) (0x03) 0
/-- R263 (Table PKT-9), key 7100:04. -/
abbrev K.G_LOW : Nat := key (0x7100) (0x04) 0
/-- R263 (Table PKT-9), key 7100:05. -/
abbrev K.G_RESERVE : Nat := key (0x7100) (0x05) 0
/-- R263 (Table PKT-9), key 7100:06. -/
abbrev K.G_STATE_PKT : Nat := key (0x7100) (0x06) 0
/-- R263 (Table PKT-9), key 7100:07. -/
abbrev K.CELLS_MAPPED_OUT : Nat := key (0x7100) (0x07) 0
/-- R263 (Table PKT-9), key 7100:08. -/
abbrev K.ECC_CORRECTED : Nat := key (0x7100) (0x08) 0
/-- R263 (Table PKT-9), key 7100:09–0B. -/
abbrev K.POOL_ERRORS (j : Nat) : Nat := key (0x7100) (0x09 + j) 0
/-- R263 (Table PKT-9), key 7100:0C. -/
abbrev K.POOL_UPSET_N : Nat := key (0x7100) (0x0C) 0
/-- R263 (Table PKT-9), key 7100:0D. -/
abbrev K.POOL_UPSET_W : Nat := key (0x7100) (0x0D) 0
/-- R263 (Table PKT-9), key 7100:0E. -/
abbrev K.POOL_RECOVERIES : Nat := key (0x7100) (0x0E) 0
/-- R263 (Table PKT-9), key 7100:0F. -/
abbrev K.POOL_TEST : Nat := key (0x7100) (0x0F) 0
/-- R263 (Table PKT-9), key 7110:01. -/
abbrev K.QUEUE_SELECT (x : Nat) : Nat := key (0x7110) (0x01) x
/-- R263 (Table PKT-9), key 7110:02. -/
abbrev K.Q_DESC (x : Nat) : Nat := key (0x7110) (0x02) x
/-- R263 (Table PKT-9), key 7110:03–05. -/
abbrev K.Q_HIGH (x : Nat) : Nat := key (0x7110) (0x03) x
/-- R263 (Table PKT-9), key 7110:03–05. -/
abbrev K.Q_LOW (x : Nat) : Nat := key (0x7110) (0x04) x
/-- R263 (Table PKT-9), key 7110:03–05. -/
abbrev K.Q_LIMIT (x : Nat) : Nat := key (0x7110) (0x05) x
/-- R263 (Table PKT-9), key 7110:06. -/
abbrev K.Q_FLUSH (x : Nat) : Nat := key (0x7110) (0x06) x
/-- R263 (Table PKT-9), key 7180h + n:01. -/
abbrev K.FCO_EN (i : Nat) : Nat := key (0x7180 + i) (0x01) 0
/-- R263 (Table PKT-9), key 7180h + n:02. -/
abbrev K.FCO_SOURCE (i : Nat) : Nat := key (0x7180 + i) (0x02) 0
/-- R263 (Table PKT-9), key 7180h + n:03. -/
abbrev K.FCO_ACTIVE (i : Nat) : Nat := key (0x7180 + i) (0x03) 0
/-- R263 (Table PKT-9), key 7180h + n:04. -/
abbrev K.FCO_LEVEL (i : Nat) : Nat := key (0x7180 + i) (0x04) 0
/-- R263 (Table PKT-9), key 7190:01. -/
abbrev K.SPILL_BASE : Nat := key (0x7190) (0x01) 0
/-- R263 (Table PKT-9), key 7190:02. -/
abbrev K.SPILL_LEGS : Nat := key (0x7190) (0x02) 0
/-- R263 (Table PKT-9), key 7190:03. -/
abbrev K.SPILL_QUEUES : Nat := key (0x7190) (0x03) 0
/-- R263 (Table PKT-9), key 7190:04. -/
abbrev K.SPILL_DROPS : Nat := key (0x7190) (0x04) 0
/-- R263 (Table PKT-9), key 7200:01. -/
abbrev K.EXC_EN : Nat := key (0x7200) (0x01) 0
/-- R263 (Table PKT-9), key 7200:02–09. -/
abbrev K.PARSE_DROPS (j : Nat) : Nat := key (0x7200) (0x02 + j) 0
/-- R263 (Table PKT-9), key 7200:0A–0C. -/
abbrev K.CIPHER_DROPS (j : Nat) : Nat := key (0x7200) (0x0A + j) 0
/-- R263 (Table PKT-10), key 7400h + e:01, 7440h + e:01. -/
abbrev K.EP_PORT_RX (i : Nat) : Nat := key (0x7400 + i) (0x01) 0
/-- R263 (Table PKT-10), key 7400h + e:01, 7440h + e:01. -/
abbrev K.EP_PORT_TX (i : Nat) : Nat := key (0x7440 + i) (0x01) 0
/-- R263 (Table PKT-10), key 7400h + e:02, 7440h + e:02. -/
abbrev K.EP_DEST_ADDR_RX (i : Nat) : Nat := key (0x7400 + i) (0x02) 0
/-- R263 (Table PKT-10), key 7400h + e:02, 7440h + e:02. -/
abbrev K.EP_DEST_ADDR_TX (i : Nat) : Nat := key (0x7440 + i) (0x02) 0
/-- R263 (Table PKT-10), key 7400h + e:03, 7440h + e:03. -/
abbrev K.EP_UDP_PORT_RX (i : Nat) : Nat := key (0x7400 + i) (0x03) 0
/-- R263 (Table PKT-10), key 7400h + e:03, 7440h + e:03. -/
abbrev K.EP_UDP_PORT_TX (i : Nat) : Nat := key (0x7440 + i) (0x03) 0
/-- R263 (Table PKT-10), key 7400h + e:04. -/
abbrev K.RX_SOURCE (i : Nat) : Nat := key (0x7400 + i) (0x04) 0
/-- R263 (Table PKT-10), key 7400h + e:05. -/
abbrev K.RX_PT (i : Nat) : Nat := key (0x7400 + i) (0x05) 0
/-- R263 (Table PKT-10), key 7400h + e:06. -/
abbrev K.RX_SSRC_MODE (i : Nat) : Nat := key (0x7400 + i) (0x06) 0
/-- R263 (Table PKT-10), key 7400h + e:07. -/
abbrev K.RX_SSRC (i : Nat) : Nat := key (0x7400 + i) (0x07) 0
/-- R263 (Table PKT-10), key 7400h + e:08. -/
abbrev K.RX_DROPS (i : Nat) : Nat := key (0x7400 + i) (0x08) 0
/-- R263 (Table PKT-10), key 7440h + e:04. -/
abbrev K.TX_SRC_PORT (i : Nat) : Nat := key (0x7440 + i) (0x04) 0
/-- R263 (Table PKT-10), key 7440h + e:05. -/
abbrev K.TX_PT (i : Nat) : Nat := key (0x7440 + i) (0x05) 0
/-- R263 (Table PKT-10), key 7440h + e:06. -/
abbrev K.TX_SSRC (i : Nat) : Nat := key (0x7440 + i) (0x06) 0
/-- R263 (Table PKT-10), key 7440h + e:07. -/
abbrev K.TX_DSCP_PKT (i : Nat) : Nat := key (0x7440 + i) (0x07) 0
/-- R263 (Table PKT-10), key 7440h + e:08. -/
abbrev K.TX_TTL (i : Nat) : Nat := key (0x7440 + i) (0x08) 0
/-- R285 (Table TRF-5), key 7800h + p:01. -/
abbrev K.QUANTUM_UNIT (i : Nat) : Nat := key (0x7800 + i) (0x01) 0
/-- R285 (Table TRF-5), key 7800h + p:02–05. -/
abbrev K.SC_RATE (i : Nat) (j : Nat) : Nat := key (0x7800 + i) (0x02 + j) 0
/-- R285 (Table TRF-5), key 7800h + p:06–09. -/
abbrev K.SC_BURST (i : Nat) (j : Nat) : Nat := key (0x7800 + i) (0x06 + j) 0
/-- R285 (Table TRF-5), key 7800h + p:0A–0D. -/
abbrev K.SC_PCP (i : Nat) (j : Nat) : Nat := key (0x7800 + i) (0x0A + j) 0
/-- R285 (Table TRF-5), key 7800h + p:0E. -/
abbrev K.LEGS_ACTIVE (i : Nat) : Nat := key (0x7800 + i) (0x0E) 0
/-- R285 (Table TRF-5), key 7800h + p:0F–13. -/
abbrev K.CLASS_FRAMES (i : Nat) (j : Nat) : Nat := key (0x7800 + i) (0x0F + j) 0
/-- R285 (Table TRF-5), key 7800h + p:14–17. -/
abbrev K.SC_BUCKET (i : Nat) (j : Nat) : Nat := key (0x7800 + i) (0x14 + j) 0
/-- R285 (Table TRF-5), key 7810:01–40. -/
abbrev K.PRECOLOUR (j : Nat) : Nat := key (0x7810) (0x01 + j) 0
/-- R285 (Table TRF-5), key 7820:01. -/
abbrev K.CLASS_PTP : Nat := key (0x7820) (0x01) 0
/-- R285 (Table TRF-5), key 7820:02. -/
abbrev K.CLASS_CTRL : Nat := key (0x7820) (0x02) 0
/-- R285 (Table TRF-5), key 7820:03–06. -/
abbrev K.HTX_CLASS (j : Nat) : Nat := key (0x7820) (0x03 + j) 0
/-- R285 (Table TRF-5), key 7820:07–0A. -/
abbrev K.HTX_PORT (j : Nat) : Nat := key (0x7820) (0x07 + j) 0
/-- R285 (Table TRF-5), key 7840h + e:01. -/
abbrev K.EP_CLASS (i : Nat) : Nat := key (0x7840 + i) (0x01) 0
/-- R285 (Table TRF-5), key 7A00h + p:01. -/
abbrev K.ADMIN_LIST (i : Nat) : Nat := key (0x7A00 + i) (0x01) 0
/-- R285 (Table TRF-5), key 7A00h + p:02. -/
abbrev K.ADMIN_BASE (i : Nat) : Nat := key (0x7A00 + i) (0x02) 0
/-- R285 (Table TRF-5), key 7A00h + p:03. -/
abbrev K.ADMIN_CYCLE (i : Nat) : Nat := key (0x7A00 + i) (0x03) 0
/-- R285 (Table TRF-5), key 7A00h + p:04. -/
abbrev K.ADMIN_EXT (i : Nat) : Nat := key (0x7A00 + i) (0x04) 0
/-- R285 (Table TRF-5), key 7A00h + p:05. -/
abbrev K.OPER_LIST (i : Nat) : Nat := key (0x7A00 + i) (0x05) 0
/-- R285 (Table TRF-5), key 7A00h + p:06–08. -/
abbrev K.OPER_BASE (i : Nat) : Nat := key (0x7A00 + i) (0x06) 0
/-- R285 (Table TRF-5), key 7A00h + p:06–08. -/
abbrev K.OPER_CYCLE (i : Nat) : Nat := key (0x7A00 + i) (0x07) 0
/-- R285 (Table TRF-5), key 7A00h + p:06–08. -/
abbrev K.OPER_EXT (i : Nat) : Nat := key (0x7A00 + i) (0x08) 0
/-- R285 (Table TRF-5), key 7A00h + p:09. -/
abbrev K.CHANGE_TIME (i : Nat) : Nat := key (0x7A00 + i) (0x09) 0
/-- R285 (Table TRF-5), key 7A00h + p:0A. -/
abbrev K.GATE_STATE (i : Nat) : Nat := key (0x7A00 + i) (0x0A) 0
/-- R285 (Table TRF-5), key 7A00h + p:0B. -/
abbrev K.GATE_OPEN (i : Nat) : Nat := key (0x7A00 + i) (0x0B) 0
/-- R285 (Table TRF-5), key 7A00h + p:0C. -/
abbrev K.GATE_OVERSIZE (i : Nat) : Nat := key (0x7A00 + i) (0x0C) 0
/-- R285 (Table TRF-5), key 7A00h + p:0D. -/
abbrev K.GATE_OVERRUN (i : Nat) : Nat := key (0x7A00 + i) (0x0D) 0
/-- R285 (Table TRF-5), key 7A00h + p:0E. -/
abbrev K.CONFIG_CHANGES (i : Nat) : Nat := key (0x7A00 + i) (0x0E) 0
/-- R285 (Table TRF-6), key 7900:01. -/
abbrev K.TRF_LEG_SELECT (x : Nat) : Nat := key (0x7900) (0x01) x
/-- R285 (Table TRF-6), key 7900:02. -/
abbrev K.POL_MODE (x : Nat) : Nat := key (0x7900) (0x02) x
/-- R285 (Table TRF-6), key 7900:03. -/
abbrev K.POL_CIR (x : Nat) : Nat := key (0x7900) (0x03) x
/-- R285 (Table TRF-6), key 7900:04. -/
abbrev K.POL_CBS (x : Nat) : Nat := key (0x7900) (0x04) x
/-- R285 (Table TRF-6), key 7900:05. -/
abbrev K.POL_PIR (x : Nat) : Nat := key (0x7900) (0x05) x
/-- R285 (Table TRF-6), key 7900:06. -/
abbrev K.POL_PBS (x : Nat) : Nat := key (0x7900) (0x06) x
/-- R285 (Table TRF-6), key 7900:07. -/
abbrev K.POL_YELLOW (x : Nat) : Nat := key (0x7900) (0x07) x
/-- R285 (Table TRF-6), key 7900:08. -/
abbrev K.POL_RED (x : Nat) : Nat := key (0x7900) (0x08) x
/-- R285 (Table TRF-6), key 7900:09. -/
abbrev K.POL_COUNT (x : Nat) : Nat := key (0x7900) (0x09) x
/-- R285 (Table TRF-6), key 7900:0A–0C. -/
abbrev K.POL_GREEN (x : Nat) : Nat := key (0x7900) (0x0A) x
/-- R285 (Table TRF-6), key 7900:0A–0C. -/
abbrev K.POL_YELLOW_N (x : Nat) : Nat := key (0x7900) (0x0B) x
/-- R285 (Table TRF-6), key 7900:0A–0C. -/
abbrev K.POL_RED_N (x : Nat) : Nat := key (0x7900) (0x0C) x
/-- R285 (Table TRF-6), key 7900:0D. -/
abbrev K.POL_DROPS (x : Nat) : Nat := key (0x7900) (0x0D) x
/-- R285 (Table TRF-6), key 7900:0E, 0F. -/
abbrev K.POL_TC (x : Nat) : Nat := key (0x7900) (0x0E) x
/-- R285 (Table TRF-6), key 7900:0E, 0F. -/
abbrev K.POL_TP (x : Nat) : Nat := key (0x7900) (0x0F) x
/-- R285 (Table TRF-7), key 7900:10. -/
abbrev K.SH_RATE (x : Nat) : Nat := key (0x7900) (0x10) x
/-- R285 (Table TRF-7), key 7900:11. -/
abbrev K.SH_BURST (x : Nat) : Nat := key (0x7900) (0x11) x
/-- R285 (Table TRF-7), key 7900:12. -/
abbrev K.SH_WEIGHT (x : Nat) : Nat := key (0x7900) (0x12) x
/-- R285 (Table TRF-7), key 7900:13. -/
abbrev K.SH_COUNT (x : Nat) : Nat := key (0x7900) (0x13) x
/-- R285 (Table TRF-7), key 7900:14. -/
abbrev K.SH_AUTO (x : Nat) : Nat := key (0x7900) (0x14) x
/-- R285 (Table TRF-7), key 7900:15. -/
abbrev K.SH_MAX (x : Nat) : Nat := key (0x7900) (0x15) x
/-- R285 (Table TRF-7), key 7900:16. -/
abbrev K.SH_HEADROOM (x : Nat) : Nat := key (0x7900) (0x16) x
/-- R285 (Table TRF-7), key 7900:17. -/
abbrev K.TX_PCP (x : Nat) : Nat := key (0x7900) (0x17) x
/-- R285 (Table TRF-7), key 7900:18. -/
abbrev K.SH_BUCKET (x : Nat) : Nat := key (0x7900) (0x18) x
/-- R285 (Table TRF-7), key 7900:19. -/
abbrev K.SH_BACKLOG (x : Nat) : Nat := key (0x7900) (0x19) x
/-- R285 (Table TRF-7), key 7900:1A. -/
abbrev K.SH_DELAY (x : Nat) : Nat := key (0x7900) (0x1A) x
/-- R285 (Table TRF-7), key 7900:1B. -/
abbrev K.SH_SENT (x : Nat) : Nat := key (0x7900) (0x1B) x
/-- R311 (Table FWD-5), key 8000h + l:01. -/
abbrev K.LEG_EN (i : Nat) : Nat := key (0x8000 + i) (0x01) 0
/-- R311 (Table FWD-5), key 8000h + l:02. -/
abbrev K.LEG_STATE (i : Nat) : Nat := key (0x8000 + i) (0x02) 0
/-- R311 (Table FWD-5), key 8000h + l:03. -/
abbrev K.LEG_PORT (i : Nat) : Nat := key (0x8000 + i) (0x03) 0
/-- R311 (Table FWD-5), key 8000h + l:04. -/
abbrev K.ALT_PORT (i : Nat) : Nat := key (0x8000 + i) (0x04) 0
/-- R311 (Table FWD-5), key 8000h + l:05. -/
abbrev K.LOCAL_ADDR (i : Nat) : Nat := key (0x8000 + i) (0x05) 0
/-- R311 (Table FWD-5), key 8000h + l:06. -/
abbrev K.LOCAL_UDP (i : Nat) : Nat := key (0x8000 + i) (0x06) 0
/-- R311 (Table FWD-5), key 8000h + l:07. -/
abbrev K.REMOTE_ADDR (i : Nat) : Nat := key (0x8000 + i) (0x07) 0
/-- R311 (Table FWD-5), key 8000h + l:08. -/
abbrev K.REMOTE_UDP (i : Nat) : Nat := key (0x8000 + i) (0x08) 0
/-- R311 (Table FWD-5), key 8000h + l:09. -/
abbrev K.NEXT_HOP_MAC (i : Nat) : Nat := key (0x8000 + i) (0x09) 0
/-- R311 (Table FWD-5), key 8000h + l:0A. -/
abbrev K.TX_DSCP_FWD (i : Nat) : Nat := key (0x8000 + i) (0x0A) 0
/-- R311 (Table FWD-5), key 8000h + l:0B. -/
abbrev K.EXT_IDS (i : Nat) : Nat := key (0x8000 + i) (0x0B) 0
/-- R311 (Table FWD-5), key 8000h + l:0C. -/
abbrev K.LEG_CTRL (i : Nat) : Nat := key (0x8000 + i) (0x0C) 0
/-- R311 (Table FWD-5), key 8000h + l:0D. -/
abbrev K.LAST_TXN (i : Nat) : Nat := key (0x8000 + i) (0x0D) 0
/-- R311 (Table FWD-5), key 8000h + l:0E. -/
abbrev K.INIT_SEQ (i : Nat) : Nat := key (0x8000 + i) (0x0E) 0
/-- R311 (Table FWD-5), key 8000h + l:10. -/
abbrev K.AUD_IN_SSRC (i : Nat) : Nat := key (0x8000 + i) (0x10) 0
/-- R311 (Table FWD-5), key 8000h + l:11. -/
abbrev K.AUD_OUT_SSRC (i : Nat) : Nat := key (0x8000 + i) (0x11) 0
/-- R311 (Table FWD-5), key 8000h + l:12. -/
abbrev K.AUD_OUT_PT (i : Nat) : Nat := key (0x8000 + i) (0x12) 0
/-- R311 (Table FWD-5), key 8000h + l:13. -/
abbrev K.AUD_TS_OFFSET (i : Nat) : Nat := key (0x8000 + i) (0x13) 0
/-- R311 (Table FWD-5), key 8000h + l:14, 15. -/
abbrev K.VS0_SSRCS (i : Nat) : Nat := key (0x8000 + i) (0x14) 0
/-- R311 (Table FWD-5), key 8000h + l:14, 15. -/
abbrev K.VS1_SSRCS (i : Nat) : Nat := key (0x8000 + i) (0x15) 0
/-- R311 (Table FWD-5), key 8000h + l:16. -/
abbrev K.VS_CODEC (i : Nat) : Nat := key (0x8000 + i) (0x16) 0
/-- R311 (Table FWD-5), key 8000h + l:17. -/
abbrev K.VS_PT (i : Nat) : Nat := key (0x8000 + i) (0x17) 0
/-- R311 (Table FWD-5), key 8000h + l:18. -/
abbrev K.REFRESH_MODE (i : Nat) : Nat := key (0x8000 + i) (0x18) 0
/-- R311 (Table FWD-5), key 8000h + l:20, 28, 30. -/
abbrev K.SLOT_SOURCE (i : Nat) (j : Nat) : Nat := key (0x8000 + i) (0x20 + 8 * j) 0
/-- R311 (Table FWD-5), key 8000h + l:21, 29, 31. -/
abbrev K.OUT_SSRC (i : Nat) (j : Nat) : Nat := key (0x8000 + i) (0x21 + 8 * j) 0
/-- R311 (Table FWD-5), key 8000h + l:22, 2A, 32. -/
abbrev K.OUT_PT (i : Nat) (j : Nat) : Nat := key (0x8000 + i) (0x22 + 8 * j) 0
/-- R311 (Table FWD-5), key 8000h + l:23, 2B, 33. -/
abbrev K.SLOT_MAX (i : Nat) (j : Nat) : Nat := key (0x8000 + i) (0x23 + 8 * j) 0
/-- R311 (Table FWD-5), key 8000h + l:24, 2C, 34. -/
abbrev K.SLOT_CUR (i : Nat) (j : Nat) : Nat := key (0x8000 + i) (0x24 + 8 * j) 0
/-- R311 (Table FWD-5), key 8000h + l:25, 2D, 35. -/
abbrev K.SLOT_WANT (i : Nat) (j : Nat) : Nat := key (0x8000 + i) (0x25 + 8 * j) 0
/-- R311 (Table FWD-5), key 8000h + l:26, 2E, 36. -/
abbrev K.SLOT_INDEX (i : Nat) (j : Nat) : Nat := key (0x8000 + i) (0x26 + 8 * j) 0
/-- R311 (Table FWD-5), key 8000h + l:27, 2F, 37. -/
abbrev K.SLOT_STATE_FWD (i : Nat) (j : Nat) : Nat := key (0x8000 + i) (0x27 + 8 * j) 0
/-- R311 (Table FWD-5), key 8000h + l:40. -/
abbrev K.EST_E (i : Nat) : Nat := key (0x8000 + i) (0x40) 0
/-- R311 (Table FWD-5), key 8000h + l:41. -/
abbrev K.EST_START (i : Nat) : Nat := key (0x8000 + i) (0x41) 0
/-- R311 (Table FWD-5), key 8000h + l:42. -/
abbrev K.EST_MIN (i : Nat) : Nat := key (0x8000 + i) (0x42) 0
/-- R311 (Table FWD-5), key 8000h + l:43. -/
abbrev K.EST_MAX (i : Nat) : Nat := key (0x8000 + i) (0x43) 0
/-- R311 (Table FWD-5), key 8000h + l:44. -/
abbrev K.LOSS (i : Nat) : Nat := key (0x8000 + i) (0x44) 0
/-- R311 (Table FWD-5), key 8000h + l:45. -/
abbrev K.RTT (i : Nat) : Nat := key (0x8000 + i) (0x45) 0
/-- R311 (Table FWD-5), key 8000h + l:50. -/
abbrev K.COPIES_SENT (i : Nat) : Nat := key (0x8000 + i) (0x50) 0
/-- R311 (Table FWD-5), key 8000h + l:51. -/
abbrev K.COPIES_REFUSED (i : Nat) : Nat := key (0x8000 + i) (0x51) 0
/-- R311 (Table FWD-5), key 8000h + l:52. -/
abbrev K.COPIES_LOST (i : Nat) : Nat := key (0x8000 + i) (0x52) 0
/-- R311 (Table FWD-5), key 8000h + l:53. -/
abbrev K.RX_UNKNOWN (i : Nat) : Nat := key (0x8000 + i) (0x53) 0
/-- R311 (Table FWD-5), key 8000h + l:54. -/
abbrev K.REFRESH_SENT (i : Nat) : Nat := key (0x8000 + i) (0x54) 0
/-- R311 (Table FWD-5), key 8000h + l:55. -/
abbrev K.RTCP_IGNORED (i : Nat) : Nat := key (0x8000 + i) (0x55) 0
/-- R311 (Table FWD-5), key 8000h + l:56. -/
abbrev K.FAILOVERS_FWD (i : Nat) : Nat := key (0x8000 + i) (0x56) 0
/-- R311 (Table FWD-5), key 8000h + l:57. -/
abbrev K.LEG_UPSETS (i : Nat) : Nat := key (0x8000 + i) (0x57) 0
/-- R311 (Table FWD-6), key 8000:80. -/
abbrev K.FWD_UP_MARGIN : Nat := key (0x8000) (0x80) 0
/-- R311 (Table FWD-6), key 8000:81. -/
abbrev K.FWD_UP_HOLD : Nat := key (0x8000) (0x81) 0
/-- R311 (Table FWD-6), key 8000:82. -/
abbrev K.FWD_DELAY_LIMIT : Nat := key (0x8000) (0x82) 0
/-- R311 (Table FWD-6), key 8000:83. -/
abbrev K.FWD_RATE_WINDOW : Nat := key (0x8000) (0x83) 0
/-- R311 (Table FWD-6), key 8000:84. -/
abbrev K.FWD_REFRESH_MIN : Nat := key (0x8000) (0x84) 0
/-- R311 (Table FWD-6), key 8000:85. -/
abbrev K.FWD_REFRESH_WAIT : Nat := key (0x8000) (0x85) 0
/-- R311 (Table FWD-6), key 8000:86. -/
abbrev K.FWD_CKPT_PERIOD : Nat := key (0x8000) (0x86) 0
/-- R311 (Table FWD-6), key 8000:87. -/
abbrev K.FWD_GAP_SEQ : Nat := key (0x8000) (0x87) 0
/-- R311 (Table FWD-6), key 8000:88. -/
abbrev K.FWD_FAILBACK_HOLD : Nat := key (0x8000) (0x88) 0
/-- R311 (Table FWD-6), key 8000:89. -/
abbrev K.COPY_RATE : Nat := key (0x8000) (0x89) 0
/-- R311 (Table FWD-6), key 8000:8A. -/
abbrev K.SWITCHES : Nat := key (0x8000) (0x8A) 0
/-- R311 (Table FWD-6), key 8000:8B. -/
abbrev K.SWITCH_SKIPPED : Nat := key (0x8000) (0x8B) 0
/-- R311 (Table FWD-6), key 8000:8C. -/
abbrev K.DD_ERRORS : Nat := key (0x8000) (0x8C) 0
/-- R311 (Table FWD-6), key 8000:C0–FF. -/
abbrev K.SWITCH_TABLE (j : Nat) : Nat := key (0x8000) (0xC0 + j) 0
/-- R344 (Table VID-3), key D000h + c:01. -/
abbrev K.DEC_EN (i : Nat) : Nat := key (0xD000 + i) (0x01) 0
/-- R344 (Table VID-3), key D000h + c:02. -/
abbrev K.DEC_STATE (i : Nat) : Nat := key (0xD000 + i) (0x02) 0
/-- R344 (Table VID-3), key D000h + c:03. -/
abbrev K.DEC_SOURCE (i : Nat) : Nat := key (0xD000 + i) (0x03) 0
/-- R344 (Table VID-3), key D000h + c:04. -/
abbrev K.DEC_LAYER (i : Nat) : Nat := key (0xD000 + i) (0x04) 0
/-- R344 (Table VID-3), key D000h + c:05. -/
abbrev K.DEC_CODEC (i : Nat) : Nat := key (0xD000 + i) (0x05) 0
/-- R344 (Table VID-3), key D000h + c:06. -/
abbrev K.MAX_WIDTH (i : Nat) : Nat := key (0xD000 + i) (0x06) 0
/-- R344 (Table VID-3), key D000h + c:07. -/
abbrev K.MAX_HEIGHT (i : Nat) : Nat := key (0xD000 + i) (0x07) 0
/-- R344 (Table VID-3), key D000h + c:08. -/
abbrev K.MAX_RATE (i : Nat) : Nat := key (0xD000 + i) (0x08) 0
/-- R344 (Table VID-3), key D000h + c:09. -/
abbrev K.DEC_INSTANCE (i : Nat) : Nat := key (0xD000 + i) (0x09) 0
/-- R344 (Table VID-3), key D000h + c:0A. -/
abbrev K.DEC_ON (i : Nat) : Nat := key (0xD000 + i) (0x0A) 0
/-- R344 (Table VID-3), key D000h + c:0B. -/
abbrev K.REQ_POLICY (i : Nat) : Nat := key (0xD000 + i) (0x0B) 0
/-- R344 (Table VID-3), key D000h + c:0C. -/
abbrev K.DAMAGE_WAIT (i : Nat) : Nat := key (0xD000 + i) (0x0C) 0
/-- R344 (Table VID-3), key D000h + c:0D. -/
abbrev K.EXTRA_BUFS (i : Nat) : Nat := key (0xD000 + i) (0x0D) 0
/-- R344 (Table VID-3), key D000h + c:0E. -/
abbrev K.DEC_LOAD (i : Nat) : Nat := key (0xD000 + i) (0x0E) 0
/-- R344 (Table VID-3), key D000h + c:0F. -/
abbrev K.DEC_BUFS (i : Nat) : Nat := key (0xD000 + i) (0x0F) 0
/-- R344 (Table VID-3), key D000h + c:10. -/
abbrev K.DEC_PICTURES (i : Nat) : Nat := key (0xD000 + i) (0x10) 0
/-- R344 (Table VID-3), key D000h + c:11. -/
abbrev K.DAMAGED_PICS (i : Nat) : Nat := key (0xD000 + i) (0x11) 0
/-- R344 (Table VID-3), key D000h + c:12. -/
abbrev K.DAMAGE_MAP (i : Nat) : Nat := key (0xD000 + i) (0x12) 0
/-- R344 (Table VID-3), key D000h + c:13. -/
abbrev K.SUBSTITUTIONS (i : Nat) : Nat := key (0xD000 + i) (0x13) 0
/-- R344 (Table VID-3), key D000h + c:14. -/
abbrev K.OVERLOAD (i : Nat) : Nat := key (0xD000 + i) (0x14) 0
/-- R344 (Table VID-3), key D000h + c:15. -/
abbrev K.UNSUPPORTED (i : Nat) : Nat := key (0xD000 + i) (0x15) 0
/-- R344 (Table VID-3), key D000h + c:16. -/
abbrev K.BUF_WAITS (i : Nat) : Nat := key (0xD000 + i) (0x16) 0
/-- R344 (Table VID-3), key D000h + c:17. -/
abbrev K.GRAIN_IGNORED (i : Nat) : Nat := key (0xD000 + i) (0x17) 0
/-- R344 (Table VID-3), key D000h + c:18. -/
abbrev K.REQUESTS_VID (i : Nat) : Nat := key (0xD000 + i) (0x18) 0
/-- R344 (Table VID-3), key D000h + c:19. -/
abbrev K.LAST_PICTURE (i : Nat) : Nat := key (0xD000 + i) (0x19) 0
/-- R344 (Table VID-3), key D000h + c:1A. -/
abbrev K.DEC_SIZE (i : Nat) : Nat := key (0xD000 + i) (0x1A) 0
/-- R344 (Table VID-3), key D000h + c:1B. -/
abbrev K.MAX_DEPTH (i : Nat) : Nat := key (0xD000 + i) (0x1B) 0
/-- R344 (Table VID-4), key D400h + e:01. -/
abbrev K.ENC_EN (i : Nat) : Nat := key (0xD400 + i) (0x01) 0
/-- R344 (Table VID-4), key D400h + e:02. -/
abbrev K.ENC_STATE (i : Nat) : Nat := key (0xD400 + i) (0x02) 0
/-- R344 (Table VID-4), key D400h + e:03. -/
abbrev K.ENC_SOURCE (i : Nat) : Nat := key (0xD400 + i) (0x03) 0
/-- R344 (Table VID-4), key D400h + e:04. -/
abbrev K.ENC_CODEC (i : Nat) : Nat := key (0xD400 + i) (0x04) 0
/-- R344 (Table VID-4), key D400h + e:05. -/
abbrev K.ENC_PROFILE (i : Nat) : Nat := key (0xD400 + i) (0x05) 0
/-- R344 (Table VID-4), key D400h + e:06. -/
abbrev K.ENC_DEPTH (i : Nat) : Nat := key (0xD400 + i) (0x06) 0
/-- R344 (Table VID-4), key D400h + e:07. -/
abbrev K.ENC_DEST (i : Nat) : Nat := key (0xD400 + i) (0x07) 0
/-- R344 (Table VID-4), key D400h + e:08. -/
abbrev K.ENC_LATENCY (i : Nat) : Nat := key (0xD400 + i) (0x08) 0
/-- R344 (Table VID-4), key D400h + e:09. -/
abbrev K.BITRATE (i : Nat) : Nat := key (0xD400 + i) (0x09) 0
/-- R344 (Table VID-4), key D400h + e:0A. -/
abbrev K.QP_MIN (i : Nat) : Nat := key (0xD400 + i) (0x0A) 0
/-- R344 (Table VID-4), key D400h + e:0B. -/
abbrev K.QP_MAX (i : Nat) : Nat := key (0xD400 + i) (0x0B) 0
/-- R344 (Table VID-4), key D400h + e:0C. -/
abbrev K.QP_INIT (i : Nat) : Nat := key (0xD400 + i) (0x0C) 0
/-- R344 (Table VID-4), key D400h + e:0D. -/
abbrev K.SKIP_BIAS (i : Nat) : Nat := key (0xD400 + i) (0x0D) 0
/-- R344 (Table VID-4), key D400h + e:0E. -/
abbrev K.REFRESH_PERIOD (i : Nat) : Nat := key (0xD400 + i) (0x0E) 0
/-- R344 (Table VID-4), key D400h + e:0F. -/
abbrev K.FAST_PERIOD (i : Nat) : Nat := key (0xD400 + i) (0x0F) 0
/-- R344 (Table VID-4), key D400h + e:10. -/
abbrev K.PAYLOAD_MAX (i : Nat) : Nat := key (0xD400 + i) (0x10) 0
/-- R344 (Table VID-4), key D400h + e:11. -/
abbrev K.HOST_RING_BASE (i : Nat) : Nat := key (0xD400 + i) (0x11) 0
/-- R344 (Table VID-4), key D400h + e:12. -/
abbrev K.HOST_RING_SIZE (i : Nat) : Nat := key (0xD400 + i) (0x12) 0
/-- R344 (Table VID-4), key D400h + e:13. -/
abbrev K.REFRESH (i : Nat) : Nat := key (0xD400 + i) (0x13) 0
/-- R344 (Table VID-4), key D400h + e:14. -/
abbrev K.ENC_LOAD (i : Nat) : Nat := key (0xD400 + i) (0x14) 0
/-- R344 (Table VID-4), key D400h + e:15. -/
abbrev K.ENC_PICTURES (i : Nat) : Nat := key (0xD400 + i) (0x15) 0
/-- R344 (Table VID-4), key D400h + e:16. -/
abbrev K.DEBT (i : Nat) : Nat := key (0xD400 + i) (0x16) 0
/-- R344 (Table VID-4), key D400h + e:17. -/
abbrev K.LAST_QP (i : Nat) : Nat := key (0xD400 + i) (0x17) 0
/-- R344 (Table VID-4), key D400h + e:18. -/
abbrev K.EXHAUSTED_PICS (i : Nat) : Nat := key (0xD400 + i) (0x18) 0
/-- R344 (Table VID-4), key D400h + e:19. -/
abbrev K.MINIMAL_PICS (i : Nat) : Nat := key (0xD400 + i) (0x19) 0
/-- R344 (Table VID-4), key D400h + e:1A. -/
abbrev K.LATE_PICS (i : Nat) : Nat := key (0xD400 + i) (0x1A) 0
/-- R344 (Table VID-4), key D400h + e:1B. -/
abbrev K.SWEEP_POS (i : Nat) : Nat := key (0xD400 + i) (0x1B) 0
/-- R344 (Table VID-4), key D400h + e:1C. -/
abbrev K.REFRESH_COMPLETES (i : Nat) : Nat := key (0xD400 + i) (0x1C) 0
/-- R344 (Table VID-4), key D400h + e:1D. -/
abbrev K.REFRESH_REQ (i : Nat) : Nat := key (0xD400 + i) (0x1D) 0
/-- R344 (Table VID-4), key D400h + e:1E. -/
abbrev K.HOST_DROPS (i : Nat) : Nat := key (0xD400 + i) (0x1E) 0
/-- R344 (Table VID-5), key DF00:01. -/
abbrev K.VPOOL_BASE : Nat := key (0xDF00) (0x01) 0
/-- R344 (Table VID-5), key DF00:02. -/
abbrev K.VPOOL_SIZE : Nat := key (0xDF00) (0x02) 0
/-- R344 (Table VID-5), key DF00:03. -/
abbrev K.VPOOL_FREE : Nat := key (0xDF00) (0x03) 0
/-- R344 (Table VID-5), key DF00:04–06. -/
abbrev K.INST_LOAD (j : Nat) : Nat := key (0xDF00) (0x04 + j) 0
/-- R344 (Table VID-5), key DF00:07–09. -/
abbrev K.INST_STATE (j : Nat) : Nat := key (0xDF00) (0x07 + j) 0
/-- R344 (Table VID-5), key DF00:0A–0C. -/
abbrev K.INST_UPSETS (j : Nat) : Nat := key (0xDF00) (0x0A + j) 0
/-- R344 (Table VID-5), key DF00:0D. -/
abbrev K.DEC_CONTEXTS : Nat := key (0xDF00) (0x0D) 0
/-- R344 (Table VID-5), key DF00:0E. -/
abbrev K.ENC_CONTEXTS : Nat := key (0xDF00) (0x0E) 0
/-- R371 (Table CMP-8), key E000h + o:01. -/
abbrev K.OUT_EN (i : Nat) : Nat := key (0xE000 + i) (0x01) 0
/-- R371 (Table CMP-8), key E000h + o:02. -/
abbrev K.OUT_STATE (i : Nat) : Nat := key (0xE000 + i) (0x02) 0
/-- R371 (Table CMP-8), key E000h + o:03. -/
abbrev K.OUT_WIDTH (i : Nat) : Nat := key (0xE000 + i) (0x03) 0
/-- R371 (Table CMP-8), key E000h + o:04. -/
abbrev K.OUT_HEIGHT (i : Nat) : Nat := key (0xE000 + i) (0x04) 0
/-- R371 (Table CMP-8), key E000h + o:05. -/
abbrev K.RATE_NUM (i : Nat) : Nat := key (0xE000 + i) (0x05) 0
/-- R371 (Table CMP-8), key E000h + o:06. -/
abbrev K.RATE_DEN (i : Nat) : Nat := key (0xE000 + i) (0x06) 0
/-- R371 (Table CMP-8), key E000h + o:07. -/
abbrev K.PHASE (i : Nat) : Nat := key (0xE000 + i) (0x07) 0
/-- R371 (Table CMP-8), key E000h + o:08. -/
abbrev K.OUT_DEPTH (i : Nat) : Nat := key (0xE000 + i) (0x08) 0
/-- R371 (Table CMP-8), key E000h + o:09. -/
abbrev K.ACTIVE_TABLE (i : Nat) : Nat := key (0xE000 + i) (0x09) 0
/-- R371 (Table CMP-8), key E000h + o:0A, 0B. -/
abbrev K.LAYER_TABLE0 (i : Nat) : Nat := key (0xE000 + i) (0x0A) 0
/-- R371 (Table CMP-8), key E000h + o:0A, 0B. -/
abbrev K.LAYER_TABLE1 (i : Nat) : Nat := key (0xE000 + i) (0x0B) 0
/-- R371 (Table CMP-8), key E000h + o:0C. -/
abbrev K.LAYER_COPY (i : Nat) : Nat := key (0xE000 + i) (0x0C) 0
/-- R371 (Table CMP-8), key E000h + o:0D. -/
abbrev K.OUT_LOAD (i : Nat) : Nat := key (0xE000 + i) (0x0D) 0
/-- R371 (Table CMP-8), key E000h + o:0E. -/
abbrev K.OUT_PICTURES (i : Nat) : Nat := key (0xE000 + i) (0x0E) 0
/-- R371 (Table CMP-8), key E000h + o:0F. -/
abbrev K.OUT_LATE (i : Nat) : Nat := key (0xE000 + i) (0x0F) 0
/-- R371 (Table CMP-8), key E000h + o:10. -/
abbrev K.STALE_LAYERS (i : Nat) : Nat := key (0xE000 + i) (0x10) 0
/-- R371 (Table CMP-8), key E000h + o:11. -/
abbrev K.TILE_ERRORS (i : Nat) : Nat := key (0xE000 + i) (0x11) 0
/-- R371 (Table CMP-8), key E000h + o:12. -/
abbrev K.LT_WRITES_REFUSED (i : Nat) : Nat := key (0xE000 + i) (0x12) 0
/-- R371 (Table CMP-9), key E400h + 10h × o + r:01. -/
abbrev K.SIG_MODE (i : Nat) : Nat := key (0xE400 + i) (0x01) 0
/-- R371 (Table CMP-9), key E400h + 10h × o + r:02. -/
abbrev K.SIG_RECT (i : Nat) : Nat := key (0xE400 + i) (0x02) 0
/-- R371 (Table CMP-9), key E400h + 10h × o + r:03. -/
abbrev K.SIG_EXPECT (i : Nat) : Nat := key (0xE400 + i) (0x03) 0
/-- R371 (Table CMP-9), key E400h + 10h × o + r:04. -/
abbrev K.SIG_FREEZE_N (i : Nat) : Nat := key (0xE400 + i) (0x04) 0
/-- R371 (Table CMP-9), key E400h + 10h × o + r:05. -/
abbrev K.SIG_CLEAR_N (i : Nat) : Nat := key (0xE400 + i) (0x05) 0
/-- R371 (Table CMP-9), key E400h + 10h × o + r:06. -/
abbrev K.SIG_ACTION (i : Nat) : Nat := key (0xE400 + i) (0x06) 0
/-- R371 (Table CMP-9), key E400h + 10h × o + r:07. -/
abbrev K.SIG_FALLBACK (i : Nat) : Nat := key (0xE400 + i) (0x07) 0
/-- R371 (Table CMP-9), key E400h + 10h × o + r:08. -/
abbrev K.SIG_LAST (i : Nat) : Nat := key (0xE400 + i) (0x08) 0
/-- R371 (Table CMP-9), key E400h + 10h × o + r:09. -/
abbrev K.SIG_STATE (i : Nat) : Nat := key (0xE400 + i) (0x09) 0
/-- R371 (Table CMP-9), key E400h + 10h × o + r:0A. -/
abbrev K.SIG_ALARMS (i : Nat) : Nat := key (0xE400 + i) (0x0A) 0
/-- R371 (Table CMP-9), key E800h + s:01. -/
abbrev K.OVL_BASE (i : Nat) : Nat := key (0xE800 + i) (0x01) 0
/-- R371 (Table CMP-9), key E800h + s:02. -/
abbrev K.OVL_SIZE (i : Nat) : Nat := key (0xE800 + i) (0x02) 0
/-- R371 (Table CMP-9), key E800h + s:03. -/
abbrev K.OVL_STRIDE (i : Nat) : Nat := key (0xE800 + i) (0x03) 0
/-- R371 (Table CMP-9), key E800h + s:04. -/
abbrev K.OVL_PREV_FREE (i : Nat) : Nat := key (0xE800 + i) (0x04) 0
/-- R371 (Table CMP-9), key E800h + s:05. -/
abbrev K.OVL_READERS (i : Nat) : Nat := key (0xE800 + i) (0x05) 0
/-- R371 (Table CMP-9), key E900h + t:01. -/
abbrev K.COEF_TABLE (i : Nat) : Nat := key (0xE900 + i) (0x01) 0
/-- R371 (Table CMP-9), key EA00h + m:01. -/
abbrev K.COLOUR_MATRIX (i : Nat) : Nat := key (0xEA01 + i) (0x01) 0
/-- R371 (Table CMP-9), key EF00:01. -/
abbrev K.COMP_LOAD : Nat := key (0xEF00) (0x01) 0
/-- R371 (Table CMP-9), key EF00:02. -/
abbrev K.OUTPUTS_EN : Nat := key (0xEF00) (0x02) 0
/-- R371 (Table CMP-9), key EF00:03. -/
abbrev K.COMP_STATE : Nat := key (0xEF00) (0x03) 0
/-- R384 (Table DMA-6), key F000h + n:01. -/
abbrev K.DMA_EN (i : Nat) : Nat := key (0xF000 + i) (0x01) 0
/-- R384 (Table DMA-6), key F000h + n:02. -/
abbrev K.PACING (i : Nat) : Nat := key (0xF000 + i) (0x02) 0
/-- R384 (Table DMA-6), key F000h + n:03. -/
abbrev K.PACE_SOURCE (i : Nat) : Nat := key (0xF000 + i) (0x03) 0
/-- R384 (Table DMA-6), key F000h + n:04. -/
abbrev K.FILL_HIGH (i : Nat) : Nat := key (0xF000 + i) (0x04) 0
/-- R384 (Table DMA-6), key F000h + n:05. -/
abbrev K.FILL_LOW (i : Nat) : Nat := key (0xF000 + i) (0x05) 0
/-- R384 (Table DMA-6), key F000h + n:06. -/
abbrev K.DESC_BUDGET (i : Nat) : Nat := key (0xF000 + i) (0x06) 0
/-- R384 (Table DMA-6), key F000h + n:07. -/
abbrev K.BUS_TIMEOUT (i : Nat) : Nat := key (0xF000 + i) (0x07) 0
/-- R384 (Table DMA-6), key F000h + n:08. -/
abbrev K.NOTIFY_TYPE (i : Nat) : Nat := key (0xF000 + i) (0x08) 0
/-- R384 (Table DMA-6), key F000h + n:09. -/
abbrev K.NOTIFY_LEVEL (i : Nat) : Nat := key (0xF000 + i) (0x09) 0
/-- R384 (Table DMA-6), key F000h + n:0A. -/
abbrev K.DMA_STATE (i : Nat) : Nat := key (0xF000 + i) (0x0A) 0
/-- R384 (Table DMA-6), key F000h + n:0B. -/
abbrev K.DESCRIPTORS (i : Nat) : Nat := key (0xF000 + i) (0x0B) 0
/-- R384 (Table DMA-6), key F000h + n:0C. -/
abbrev K.BAD_COUNT (i : Nat) : Nat := key (0xF000 + i) (0x0C) 0
/-- R384 (Table DMA-6), key F000h + n:0D. -/
abbrev K.HALTS (i : Nat) : Nat := key (0xF000 + i) (0x0D) 0
/-- R384 (Table DMA-6), key F000h + n:0E. -/
abbrev K.LAST_HALT (i : Nat) : Nat := key (0xF000 + i) (0x0E) 0
/-- R384 (Table DMA-6), key F000h + n:0F. -/
abbrev K.REQ_OVERFLOWS (i : Nat) : Nat := key (0xF000 + i) (0x0F) 0
/-- R384 (Table DMA-6), key F000h + n:10. -/
abbrev K.NOTIFY_DROPS (i : Nat) : Nat := key (0xF000 + i) (0x10) 0
/-- R404 (Table MEM-6), key F400:01. -/
abbrev K.SPEED_MAX : Nat := key (0xF400) (0x01) 0
/-- R404 (Table MEM-6), key F400:02. -/
abbrev K.CONFIG_SRC : Nat := key (0xF400) (0x02) 0
/-- R404 (Table MEM-6), key F400:03. -/
abbrev K.MEMDOWN_SPD : Nat := key (0xF400) (0x03) 0
/-- R404 (Table MEM-6), key F400:04. -/
abbrev K.INTERLEAVE_GRAIN : Nat := key (0xF400) (0x04) 0
/-- R404 (Table MEM-6), key F400:05. -/
abbrev K.MEM_SIZE : Nat := key (0xF400) (0x05) 0
/-- R404 (Table MEM-6), key F400:06. -/
abbrev K.ACTIVE_CHANNELS : Nat := key (0xF400) (0x06) 0
/-- R404 (Table MEM-6), key F400:07. -/
abbrev K.DATA_RATE : Nat := key (0xF400) (0x07) 0
/-- R404 (Table MEM-6), key F400:08. -/
abbrev K.SCRUB_PERIOD : Nat := key (0xF400) (0x08) 0
/-- R404 (Table MEM-6), key F400:09. -/
abbrev K.ACT_THRESHOLD : Nat := key (0xF400) (0x09) 0
/-- R404 (Table MEM-6), key F400:0A. -/
abbrev K.REFRESH_2X : Nat := key (0xF400) (0x0A) 0
/-- R404 (Table MEM-6), key F400:0B. -/
abbrev K.PD_IDLE : Nat := key (0xF400) (0x0B) 0
/-- R404 (Table MEM-6), key F400:0C. -/
abbrev K.STATS_CLEAR_MEM : Nat := key (0xF400) (0x0C) 0
/-- R404 (Table MEM-6), key F410h + c:01. -/
abbrev K.CH_STATE (i : Nat) : Nat := key (0xF410 + i) (0x01) 0
/-- R404 (Table MEM-6), key F410h + c:02. -/
abbrev K.CH_SIZE (i : Nat) : Nat := key (0xF410 + i) (0x02) 0
/-- R404 (Table MEM-6), key F410h + c:03. -/
abbrev K.CH_GEOMETRY (i : Nat) : Nat := key (0xF410 + i) (0x03) 0
/-- R404 (Table MEM-6), key F410h + c:04. -/
abbrev K.CE_COUNT (i : Nat) : Nat := key (0xF410 + i) (0x04) 0
/-- R404 (Table MEM-6), key F410h + c:05. -/
abbrev K.UE_COUNT (i : Nat) : Nat := key (0xF410 + i) (0x05) 0
/-- R404 (Table MEM-6), key F410h + c:06. -/
abbrev K.LAST_UE_OFFSET (i : Nat) : Nat := key (0xF410 + i) (0x06) 0
/-- R404 (Table MEM-6), key F410h + c:07. -/
abbrev K.NEIGHBOUR_REFRESHES (i : Nat) : Nat := key (0xF410 + i) (0x07) 0
/-- R404 (Table MEM-6), key F410h + c:08. -/
abbrev K.FULL_TRAININGS (i : Nat) : Nat := key (0xF410 + i) (0x08) 0
/-- R404 (Table MEM-6), key F410h + c:09. -/
abbrev K.EYE_MARGIN (i : Nat) : Nat := key (0xF410 + i) (0x09) 0
/-- R404 (Table MEM-6), key F410h + c:0A. -/
abbrev K.PARITY_RETRIES (i : Nat) : Nat := key (0xF410 + i) (0x0A) 0
/-- R404 (Table MEM-6), key F410h + c:0B. -/
abbrev K.RETRAIN_MAX (i : Nat) : Nat := key (0xF410 + i) (0x0B) 0
/-- R404 (Table MEM-6), key F410h + c:0C. -/
abbrev K.CH_TEMP (i : Nat) : Nat := key (0xF410 + i) (0x0C) 0
/-- R404 (Table MEM-6), key F410h + c:0D. -/
abbrev K.CH_LOAD (i : Nat) : Nat := key (0xF410 + i) (0x0D) 0
/-- R420 (Table SEA-5), key 7C00:01. -/
abbrev K.SEAL_STATE : Nat := key (0x7C00) (0x01) 0
/-- R420 (Table SEA-5), key 7C00:02. -/
abbrev K.SEAL_QUEUED : Nat := key (0x7C00) (0x02) 0
/-- R420 (Table SEA-5), key 7C00:03. -/
abbrev K.KEY_OVERLAP : Nat := key (0x7C00) (0x03) 0
/-- R420 (Table SEA-5), key 7C00:04. -/
abbrev K.NODE_SLOT : Nat := key (0x7C00) (0x04) 0
/-- R420 (Table SEA-5), key 7C00:05. -/
abbrev K.VOTE_SLOT : Nat := key (0x7C00) (0x05) 0
/-- R420 (Table SEA-5), key 7C00:06. -/
abbrev K.SEAL_REQUESTS : Nat := key (0x7C00) (0x06) 0
/-- R420 (Table SEA-5), key 7C00:07. -/
abbrev K.SEAL_REFUSED : Nat := key (0x7C00) (0x07) 0
/-- R420 (Table SEA-5), key 7C00:08. -/
abbrev K.COMPARE_FAILS : Nat := key (0x7C00) (0x08) 0
/-- R420 (Table SEA-5), key 7C00:09. -/
abbrev K.KEY_COMMANDS : Nat := key (0x7C00) (0x09) 0
/-- R420 (Table SEA-5), key 7C10h + k:01. -/
abbrev K.CORE_STATE (i : Nat) : Nat := key (0x7C10 + i) (0x01) 0
/-- R420 (Table SEA-5), key 7C10h + k:02. -/
abbrev K.CORE_UPSETS (i : Nat) : Nat := key (0x7C10 + i) (0x02) 0
/-- R420 (Table SEA-5), key 7C40h + s:01. -/
abbrev K.SLOT_STATE_SEA (i : Nat) : Nat := key (0x7C40 + i) (0x01) 0
/-- R420 (Table SEA-5), key 7C40h + s:02. -/
abbrev K.SLOT_ALG (i : Nat) : Nat := key (0x7C40 + i) (0x02) 0
/-- R420 (Table SEA-5), key 7C40h + s:03. -/
abbrev K.SLOT_OWNER_SEA (i : Nat) : Nat := key (0x7C40 + i) (0x03) 0
/-- R420 (Table SEA-5), key 7C40h + s:04. -/
abbrev K.SLOT_LIMIT (i : Nat) : Nat := key (0x7C40 + i) (0x04) 0
/-- R420 (Table SEA-5), key 7C40h + s:05. -/
abbrev K.SLOT_USES (i : Nat) : Nat := key (0x7C40 + i) (0x05) 0
/-- R420 (Table SEA-5), key 7C40h + s:06. -/
abbrev K.SLOT_ERASE (i : Nat) : Nat := key (0x7C40 + i) (0x06) 0
/-- R420 (Table SEA-5), key 7C40h + s:07. -/
abbrev K.SLOT_CHECK (i : Nat) : Nat := key (0x7C40 + i) (0x07) 0
/-- R420 (Table SEA-5), key 7C80h + v:01. -/
abbrev K.VOTE_RECORD (i : Nat) : Nat := key (0x7C80 + i) (0x01) 0
/-- R420 (Table SEA-5), key 7C80h + v:02. -/
abbrev K.VOTE_TAG (i : Nat) : Nat := key (0x7C80 + i) (0x02) 0
/-- R420 (Table SEA-5), key 7D00:01. -/
abbrev K.CIPHER_LEG (x : Nat) : Nat := key (0x7D00) (0x01) x
/-- R420 (Table SEA-5), key 7D00:02. -/
abbrev K.IN_KEYS (x : Nat) : Nat := key (0x7D00) (0x02) x
/-- R420 (Table SEA-5), key 7D00:03. -/
abbrev K.OUT_KEYS (x : Nat) : Nat := key (0x7D00) (0x03) x
/-- R420 (Table SEA-5), key 7D00:04. -/
abbrev K.IN_ALG_OUT_ALG (x : Nat) : Nat := key (0x7D00) (0x04) x
/-- R420 (Table SEA-5), key 7D00:05. -/
abbrev K.IN_ROC (x : Nat) : Nat := key (0x7D00) (0x05) x
/-- R420 (Table SEA-5), key 7D00:06. -/
abbrev K.IN_HIGHEST (x : Nat) : Nat := key (0x7D00) (0x06) x
/-- R420 (Table SEA-5), key 7D00:07. -/
abbrev K.OUT_NEXT_AT (x : Nat) : Nat := key (0x7D00) (0x07) x
/-- R420 (Table SEA-5), key 7D00:08. -/
abbrev K.SRTCP_INDEX (x : Nat) : Nat := key (0x7D00) (0x08) x
/-- R420 (Table SEA-5), key 7D00:09. -/
abbrev K.REKEYS_IN (x : Nat) : Nat := key (0x7D00) (0x09) x
/-- R420 (Table SEA-5), key 7D00:0A. -/
abbrev K.REKEYS_OUT (x : Nat) : Nat := key (0x7D00) (0x0A) x
/-- R420 (Table SEA-5), key 7D00:0B. -/
abbrev K.RTCP_EXHAUSTED (x : Nat) : Nat := key (0x7D00) (0x0B) x
/-- R420 (Table SEA-5), key 7D00:0C. -/
abbrev K.IN_ERASE_OUT_ERASE (x : Nat) : Nat := key (0x7D00) (0x0C) x
/-- R441 (Table PWR-8), key 0400:01. -/
abbrev K.HUB_PSTATE : Nat := key (0x0400) (0x01) 0
/-- R441 (Table PWR-8), key 0400:02. -/
abbrev K.STANDBY_DEPTH : Nat := key (0x0400) (0x02) 0
/-- R441 (Table PWR-8), key 0400:03. -/
abbrev K.DRAIN_TIMEOUT : Nat := key (0x0400) (0x03) 0
/-- R441 (Table PWR-8), key 0400:04. -/
abbrev K.HUB_OFF : Nat := key (0x0400) (0x04) 0
/-- R441 (Table PWR-8), key 0400:05. -/
abbrev K.LAST_WAKE : Nat := key (0x0400) (0x05) 0
/-- R441 (Table PWR-8), key 0400:06. -/
abbrev K.LAST_WAKE_AT : Nat := key (0x0400) (0x06) 0
/-- R441 (Table PWR-8), key 0400:07. -/
abbrev K.LAST_WAKE_TIME : Nat := key (0x0400) (0x07) 0
/-- R441 (Table PWR-8), key 0400:08. -/
abbrev K.ENTRY_ABORTS : Nat := key (0x0400) (0x08) 0
/-- R441 (Table PWR-8), key 0400:09. -/
abbrev K.LIMP : Nat := key (0x0400) (0x09) 0
/-- R441 (Table PWR-8), key 0400:0A. -/
abbrev K.LATCH_COUNT : Nat := key (0x0400) (0x0A) 0
/-- R441 (Table PWR-8), key 0400:0B. -/
abbrev K.LATCH_MERGED : Nat := key (0x0400) (0x0B) 0
/-- R441 (Table PWR-8), key 0400:0C. -/
abbrev K.WAKE_LATCH : Nat := key (0x0400) (0x0C) 0
/-- R441 (Table PWR-8), key 0400:0D. -/
abbrev K.TEMP_ALARM : Nat := key (0x0400) (0x0D) 0
/-- R441 (Table PWR-8), key 0400:0E. -/
abbrev K.TEMP_EVENTS : Nat := key (0x0400) (0x0E) 0
/-- R441 (Table PWR-8), key 0420h + d:01. -/
abbrev K.PD_STATE (i : Nat) : Nat := key (0x0420 + i) (0x01) 0
/-- R441 (Table PWR-8), key 0420h + d:02. -/
abbrev K.PD_REQUEST (i : Nat) : Nat := key (0x0420 + i) (0x02) 0
/-- R441 (Table PWR-8), key 0420h + d:03. -/
abbrev K.LULL_EN (i : Nat) : Nat := key (0x0420 + i) (0x03) 0
/-- R441 (Table PWR-8), key 0420h + d:04. -/
abbrev K.PD_RESET (i : Nat) : Nat := key (0x0420 + i) (0x04) 0
/-- R441 (Table PWR-8), key 0420h + d:05. -/
abbrev K.PD_FAIL_STEP (i : Nat) : Nat := key (0x0420 + i) (0x05) 0
/-- R441 (Table PWR-8), key 0420h + d:06. -/
abbrev K.PD_WAKES (i : Nat) : Nat := key (0x0420 + i) (0x06) 0
/-- R441 (Table PWR-8), key 0420h + d:07. -/
abbrev K.PD_RETRIES (i : Nat) : Nat := key (0x0420 + i) (0x07) 0
/-- R441 (Table PWR-8), key 0420h + d:08. -/
abbrev K.PD_LULL_PCT (i : Nat) : Nat := key (0x0420 + i) (0x08) 0
/-- R467 (Table FLT-6), key 0800:01. -/
abbrev K.UPSETS_TOTAL : Nat := key (0x0800) (0x01) 0
/-- R467 (Table FLT-6), key 0800:02. -/
abbrev K.RETIRED_COUNT : Nat := key (0x0800) (0x02) 0
/-- R467 (Table FLT-6), key 0800:03. -/
abbrev K.WDT_PERIOD : Nat := key (0x0800) (0x03) 0
/-- R467 (Table FLT-6), key 0800:04. -/
abbrev K.WDT_RESETS : Nat := key (0x0800) (0x04) 0
/-- R467 (Table FLT-6), key 0800:05. -/
abbrev K.LAST_RESET : Nat := key (0x0800) (0x05) 0
/-- R467 (Table FLT-6), key 0800:06. -/
abbrev K.HOST_WATCH : Nat := key (0x0800) (0x06) 0
/-- R467 (Table FLT-6), key 0800:07. -/
abbrev K.HOST_PING : Nat := key (0x0800) (0x07) 0
/-- R467 (Table FLT-6), key 0800:08. -/
abbrev K.HOST_LOSSES : Nat := key (0x0800) (0x08) 0
/-- R467 (Table FLT-6), key 0810h + k:01. -/
abbrev K.RETRY_N (i : Nat) : Nat := key (0x0810 + i) (0x01) 0
/-- R467 (Table FLT-6), key 0810h + k:02. -/
abbrev K.WINDOW_W (i : Nat) : Nat := key (0x0810 + i) (0x02) 0
/-- R467 (Table FLT-6), key 0810h + k:03. -/
abbrev K.TYPE_UPSETS (i : Nat) : Nat := key (0x0810 + i) (0x03) 0
/-- R467 (Table FLT-6), key 0810h + k:04. -/
abbrev K.TYPE_RETIRED (i : Nat) : Nat := key (0x0810 + i) (0x04) 0
/-- R467 (Table FLT-6), key 0820:01. -/
abbrev K.CH_SELECT (x : Nat) : Nat := key (0x0820) (0x01) x
/-- R467 (Table FLT-6), key 0820:02. -/
abbrev K.CH_UPSETS (x : Nat) : Nat := key (0x0820) (0x02) x
/-- R467 (Table FLT-6), key 0820:03. -/
abbrev K.CH_STATUS (x : Nat) : Nat := key (0x0820) (0x03) x
/-- R467 (Table FLT-6), key 0820:04. -/
abbrev K.CH_RETIRED_AT (x : Nat) : Nat := key (0x0820) (0x04) x
/-- R467 (Table FLT-6), key 0820:05. -/
abbrev K.CH_CLEAR (x : Nat) : Nat := key (0x0820) (0x05) x
/-- R467 (Table FLT-6), key 0820:06. -/
abbrev K.CH_RETIRE (x : Nat) : Nat := key (0x0820) (0x06) x
/-- R467 (Table FLT-6), key 0900:01. -/
abbrev K.PAIR_EN : Nat := key (0x0900) (0x01) 0
/-- R467 (Table FLT-6), key 0900:02. -/
abbrev K.PAIR_ROLE_PIN : Nat := key (0x0900) (0x02) 0
/-- R467 (Table FLT-6), key 0900:03. -/
abbrev K.ROLE : Nat := key (0x0900) (0x03) 0
/-- R467 (Table FLT-6), key 0900:04. -/
abbrev K.PAIR_STATE : Nat := key (0x0900) (0x04) 0
/-- R467 (Table FLT-6), key 0900:05. -/
abbrev K.EPOCH : Nat := key (0x0900) (0x05) 0
/-- R467 (Table FLT-6), key 0900:06. -/
abbrev K.PEER_SERIAL : Nat := key (0x0900) (0x06) 0
/-- R467 (Table FLT-6), key 0900:07. -/
abbrev K.PAIR_LINK_STATE : Nat := key (0x0900) (0x07) 0
/-- R467 (Table FLT-6), key 0900:08. -/
abbrev K.PAIR_LINK_TIMEOUT : Nat := key (0x0900) (0x08) 0
/-- R467 (Table FLT-6), key 0900:09. -/
abbrev K.BEACON_TIMEOUT : Nat := key (0x0900) (0x09) 0
/-- R467 (Table FLT-6), key 0900:0A. -/
abbrev K.SPLIT_SETTLE : Nat := key (0x0900) (0x0A) 0
/-- R467 (Table FLT-6), key 0900:0B. -/
abbrev K.ENROLLED : Nat := key (0x0900) (0x0B) 0
/-- R467 (Table FLT-6), key 0900:0C. -/
abbrev K.REACHABLE : Nat := key (0x0900) (0x0C) 0
/-- R467 (Table FLT-6), key 0900:0D. -/
abbrev K.SWITCHOVER : Nat := key (0x0900) (0x0D) 0
/-- R467 (Table FLT-6), key 0900:0E. -/
abbrev K.FORCE_ACTIVE : Nat := key (0x0900) (0x0E) 0
/-- R467 (Table FLT-6), key 0900:0F. -/
abbrev K.FAILOVERS_FLT : Nat := key (0x0900) (0x0F) 0
/-- R467 (Table FLT-6), key 0900:10. -/
abbrev K.SPLITS : Nat := key (0x0900) (0x10) 0
/-- R467 (Table FLT-6), key 0900:11. -/
abbrev K.JOURNAL_GAPS : Nat := key (0x0900) (0x11) 0
/-- R467 (Table FLT-6), key 0900:12. -/
abbrev K.LAST_FAILOVER_AT : Nat := key (0x0900) (0x12) 0
/-- R467 (Table FLT-6), key 0900:13. -/
abbrev K.LAST_FAILOVER_TIME : Nat := key (0x0900) (0x13) 0
/-- R467 (Table FLT-6), key 0900:14. -/
abbrev K.SYNC_PROGRESS : Nat := key (0x0900) (0x14) 0
/-- R467 (Table FLT-6), key 0900:15–17. -/
abbrev K.PAIR_LINK_COUNTS (j : Nat) : Nat := key (0x0900) (0x15 + j) 0
/-- R467 (Table FLT-6), key 0900:18. -/
abbrev K.PEER_MGMT_ADDR : Nat := key (0x0900) (0x18) 0
/-- R510 (Table DIAG-3), key 0C00:01. -/
abbrev K.STORM_HELD : Nat := key (0x0C00) (0x01) 0
/-- R510 (Table DIAG-3), key 0C00:02. -/
abbrev K.STORM_FLASHED : Nat := key (0x0C00) (0x02) 0
/-- R510 (Table DIAG-3), key 0C00:03. -/
abbrev K.STORM_INDEX (x : Nat) : Nat := key (0x0C00) (0x03) x
/-- R510 (Table DIAG-3), key 0C00:04. -/
abbrev K.STORM_READ (x : Nat) : Nat := key (0x0C00) (0x04) x
/-- R510 (Table DIAG-3), key 0C00:05. -/
abbrev K.STORM_CLEAR : Nat := key (0x0C00) (0x05) 0
/-- R510 (Table DIAG-3), key 0C00:06. -/
abbrev K.STORM_OVERWRITTEN : Nat := key (0x0C00) (0x06) 0
/-- R510 (Table DIAG-3), key 0D00:01. -/
abbrev K.VANE_EN : Nat := key (0x0D00) (0x01) 0
/-- R510 (Table DIAG-3), key 0D00:02. -/
abbrev K.VANE_BASE : Nat := key (0x0D00) (0x02) 0
/-- R510 (Table DIAG-3), key 0D00:03. -/
abbrev K.VANE_SIZE : Nat := key (0x0D00) (0x03) 0
/-- R510 (Table DIAG-3), key 0D00:04. -/
abbrev K.VANE_MODE : Nat := key (0x0D00) (0x04) 0
/-- R510 (Table DIAG-3), key 0D00:05. -/
abbrev K.VANE_TRACE_ONLY : Nat := key (0x0D00) (0x05) 0
/-- R510 (Table DIAG-3), key 0D00:06. -/
abbrev K.VANE_EVENTS : Nat := key (0x0D00) (0x06) 0
/-- R510 (Table DIAG-3), key 0D00:07. -/
abbrev K.VANE_LEVELS : Nat := key (0x0D00) (0x07) 0
/-- R510 (Table DIAG-3), key 0D00:08. -/
abbrev K.VANE_FLOW : Nat := key (0x0D00) (0x08) 0
/-- R510 (Table DIAG-3), key 0D00:09. -/
abbrev K.VANE_TYPE : Nat := key (0x0D00) (0x09) 0
/-- R510 (Table DIAG-3), key 0D00:0A. -/
abbrev K.VANE_WP : Nat := key (0x0D00) (0x0A) 0
/-- R510 (Table DIAG-3), key 0D00:0B. -/
abbrev K.VANE_RECORDS : Nat := key (0x0D00) (0x0B) 0
/-- R510 (Table DIAG-3), key 0D00:0C. -/
abbrev K.VANE_DROPS : Nat := key (0x0D00) (0x0C) 0
/-- R510 (Table DIAG-3), key 0D00:0D. -/
abbrev K.VANE_FULL : Nat := key (0x0D00) (0x0D) 0
/-- R510 (Table DIAG-3), key 0E00:01. -/
abbrev K.BAD_ACCESSES : Nat := key (0x0E00) (0x01) 0
/-- R510 (Table DIAG-3), key 0E00:02. -/
abbrev K.BAD_ACCESS_LAST : Nat := key (0x0E00) (0x02) 0
/-- R510 (Table DIAG-3), key 0F00:01. -/
abbrev K.RETURN_PREP : Nat := key (0x0F00) (0x01) 0
/-- R510 (Table DIAG-3), key 0F00:02. -/
abbrev K.RETURNED : Nat := key (0x0F00) (0x02) 0

end Sys2Proof.Machine
end

