-- ==== Sys2Proof/Machine/Ops.lean ====
section
/-! DEFINITION. The named operations every meaning is written over: sparse tables, dictionary values, octet strings,
grain boundaries (R28), ramps (R511), the claim table (R127), the Storm log (R504), upsets and retirement (R443). -/
namespace Sys2Proof.Machine

/-! ## Sparse tables -/

/-- The value at a key; `d` where the table does not list it. -/
def tabGet {α : Type} (d : α) : Tab α → Nat → α
  | [], _ => d
  | (k', v) :: t, k => if k = k' then v else tabGet d t k

/-- The table without an entry at `k`. -/
def tabErase {α : Type} : Tab α → Nat → Tab α
  | [], _ => []
  | (k', v) :: t, k => if k = k' then t else (k', v) :: tabErase t k

/-- The table with an entry at `k`, in rising order. -/
def tabPut {α : Type} : Tab α → Nat → α → Tab α
  | [], k, v => [(k, v)]
  | (k', v') :: t, k, v =>
    if k < k' then (k, v) :: (k', v') :: t
    else if k = k' then (k, v) :: t
    else (k', v') :: tabPut t k v

/-- Write a value; writing what an unlisted key holds removes the entry. -/
def tabSet {α : Type} [DecidableEq α] (d : α) (t : Tab α) (k : Nat) (v : α) : Tab α :=
  if v = d then tabErase t k else tabPut t k v

/-- Update a value. -/
def tabMod {α : Type} [DecidableEq α] (d : α) (t : Tab α) (k : Nat) (f : α → α) : Tab α :=
  tabSet d t k (f (tabGet d t k))

/-- Keys strictly rising. -/
def tabSorted {α : Type} : Tab α → Bool
  | [] => true
  | [_] => true
  | (a, _) :: (b, y) :: t => decide (a < b) && tabSorted ((b, y) :: t)

/-- Keys strictly rising and no entry equal to the default: the canonical form. -/
def tabWf {α : Type} [DecidableEq α] (d : α) (t : Tab α) : Bool :=
  tabSorted t && t.all (fun e => decide (e.2 ≠ d))

/-- Apply a function to every listed value. -/
def tabMap {α : Type} [DecidableEq α] (d : α) (t : Tab α) (f : Nat → α → α) : Tab α :=
  t.foldl (fun u e => tabSet d u e.1 (f e.1 e.2)) t

/-! ## Dictionary values -/

/-- The table chapter an index belongs to (Table DIC-2). -/
def tableOf (idx : Nat) : List Entry :=
  if idx < 0x400 then tableDic else if idx < 0x800 then tablePwr else if idx < 0xC00 then tableFlt
  else if idx < 0x1000 then tableDiag else if idx < 0x1400 then tableIsb else if idx < 0x1800 then tableFld
  else if idx < 0x2000 then tableTrunk else if idx < 0x6000 then tableNode else if idx < 0x6400 then tableSap
  else if idx < 0x6C00 then tableMix else if idx < 0x7000 then tableDsp else if idx < 0x7800 then tablePkt
  else if idx < 0x7C00 then tableTrf else if idx < 0x8000 then tableSea else if idx < 0xD000 then tableFwd
  else if idx < 0xE000 then tableVid else if idx < 0xF000 then tableCmp else if idx < 0xF400 then tableDma
  else if idx < 0xF800 then tableMem else if idx < 0xFF00 then tableSch else []

/-- An entry row holds key `idx:sub`. -/
def Entry.has (e : Entry) (idx sub : Nat) : Bool :=
  decide (e.idx ≤ idx) && (idx - e.idx) % e.stride == 0 && decide ((idx - e.idx) / e.stride < e.n)
    && decide (e.sub ≤ sub) && (sub - e.sub) % e.sstride == 0 && decide ((sub - e.sub) / e.sstride < e.m)

/-- The entry of a key, or none (R8, R110). -/
def entryOf (idx sub : Nat) : Option Entry := (tableOf idx).find? (fun e => e.has idx sub)

/-- Octets of a value type (Table DIC-1); 0 for STR and BLOB. -/
def Ty.size : Ty → Nat
  | .bool | .u8 | .enum => 1
  | .u16 | .i16 => 2
  | .u32 | .i32 | .bits32 => 4
  | .u64 | .isobar => 8
  | .str | .blob => 0

/-- N and W of Table FLT-1, by channel type. -/
def fltDefault (k : Nat) : Nat × Nat :=
  [(3, 3600), (4, 86400), (8, 3600), (10, 600), (100, 60), (20, 3600), (20, 3600), (64, 60), (10, 60), (3, 3600),
   (3, 86400), (3, 86400)].getD k (0, 0)

/-- HIGH, LOW and LIMIT of Table PKT-6. -/
def queueDefault (q : Nat) : Nat × Nat × Nat :=
  if q < 20480 then (384, 192, 512) else if q < 40960 then (48, 24, 64) else if q < 41088 then (96, 48, 128)
  else if q < 41096 then (768, 384, 1024) else (192, 96, 256)

/-- R267: the colour a DSCP carries before the policer, at reset. -/
def precolourDefault (dscp : Nat) : Nat :=
  if dscp ∈ [12, 20, 28, 36] then 1 else if dscp ∈ [14, 22, 30, 38] then 2 else 0

/-- Counts of Table DIC-9, by claim class. -/
def claimCount (cls : Nat) : Nat := [4, 1024, 4, 64, 64, 256, 2048].getD cls 0

/-- The value an unwritten QP limit holds in the store: no octet, so that it follows ENC_CODEC (Table VID-4). -/
def qpUnset : Nat := 256

/-- Defaults that depend on the instance. Those the spec writes "from SERIAL" and an instance are numbers apart by the
instance, SERIAL's own part being 0 (DESIGN CHOICE, assumption 149). -/
def specialDefault (idx sub inst : Nat) : Nat :=
  if idx = 0x1010 then [2, 3, 1, 0].getD (sub - 1) 0
  else if idx = 0x0181 then claimCount (sub - 1)
  else if 0x0200 ≤ idx ∧ idx < 0x0205 then b2n (idx != 0x0201)
  else if 0x6000 ≤ idx ∧ idx < 0x6008 then 16 * (idx - 0x6000)
  else if 0x1800 ≤ idx ∧ idx < 0x2000 then sub - 1
  else if idx = 0x7110 then
    (if sub = 3 then (queueDefault inst).1 else if sub = 4 then (queueDefault inst).2.1 else (queueDefault inst).2.2)
  else if idx = 0x7810 then precolourDefault (sub - 1)
  else if 0x7800 ≤ idx ∧ idx < 0x7808 then 7 - (sub - 0x0A)
  else if 0xD400 ≤ idx ∧ idx < 0xD500 then qpUnset
  else if 0x7000 ≤ idx ∧ idx < 0x7008 then 0x020000000000 + (idx - 0x7000)
  else if idx = 0x7030 then 0x020000000008
  else if 0x7440 ≤ idx ∧ idx < 0x7480 then 0x80000000 + (idx - 0x7440)
  else if 0x8000 ≤ idx ∧ idx < 0xD000 then
    (if sub = 0x0E then idx - 0x8000 else if sub = 0x11 then 4 * (idx - 0x8000) + 4
     else 4 * (idx - 0x8000) + (sub - 0x21) / 8 + 1)
  else if 0x0810 ≤ idx ∧ idx < 0x081C then
    (if sub = 1 then (fltDefault (idx - 0x0810)).1 else (fltDefault (idx - 0x0810)).2)
  else 0

/-- The parts of a key. -/
def keyIndex (k : Nat) : Nat := k / 4294967296
def keySub (k : Nat) : Nat := k / 16777216 % 256
def keyInst (k : Nat) : Nat := k % 16777216

/-- R109: the default of a key. -/
def regDefault (k : Nat) : Nat :=
  match entryOf (keyIndex k) (keySub k) with
  | some e => match e.dflt with
    | .nat n => n
    | .special => specialDefault (keyIndex k) (keySub k) (keyInst k)
  | none => 0

/-- The number of values a key's type has: a register keeps its value modulo this (assumption 5). -/
def regModulus (k : Nat) : Nat :=
  match entryOf (keyIndex k) (keySub k) with
  | some e => 256 ^ e.ty.size
  | none => 1

/-- Read a dictionary value. -/
def rd (s : State) (k : Nat) : Nat := tabGet (regDefault k) s.regs k

/-- Write a dictionary value. -/
def wr (k v : Nat) (s : State) : State := { s with regs := tabSet (regDefault k) s.regs k (v % regModulus k) }

/-- Instances whose register at `index:sub` differs from its default. -/
def listedKeys (s : State) (index sub : Nat) : List Nat :=
  (s.regs.filter (fun e => keyIndex e.1 == index && keySub e.1 == sub)).map (fun e => keyInst e.1)

/-- Read and write a signed value of `w` bits. -/
def rdI (w : Nat) (s : State) (k : Nat) : Int := toInt w (rd s k)
def wrI (w : Nat) (k : Nat) (v : Int) (s : State) : State := wr k (ofInt w v) s

/-- Add to a counter. -/
def bumpBy (k n : Nat) (s : State) : State := wr k (rd s k + n) s
def bump (k : Nat) (s : State) : State := bumpBy k 1 s

/-- R109: defaults of BLOB entries: addresses are IPv4 ones of 0 (assumption 149), STALE_LAYERS 9 octets of 0. -/
def blobDefault (k : Nat) : Bytes :=
  if k = key 0x0210 3 0 ∨ k = key 0x0210 5 0 then [0, 0, 0, 0]
  else if 0xE000 ≤ keyIndex k ∧ keyIndex k < 0xE040 ∧ keySub k = 0x10 then [0, 0, 0, 0, 0, 0, 0, 0, 0] else []

/-- Read and write a STR or BLOB value; `none` is the default. -/
def rdBlob (s : State) (k : Nat) : Bytes := (tabGet none s.blobs k).getD (blobDefault k)
def wrBlob (k : Nat) (v : Bytes) (s : State) : State := { s with blobs := tabSet none s.blobs k (some v) }

/-! ## What leaves the block, and free values -/

/-- Send something out of the block. -/
def emit (o : Out) (s : State) : State := { s with out := o :: s.out }

/-- Send something if a condition holds. -/
def emitIf (c : Bool) (o : Out) (s : State) : State := if c then emit o s else s

/-- Apply an update if a condition holds. -/
def upd (c : Bool) (f : State → State) (s : State) : State := if c then f s else s

/-- The free value next drawn, below `bound` (assumption 2). -/
def freeVal (s : State) (bound : Nat) : Nat := Config.freeValue s.freeCtr % bound

/-- The state once a free value has been drawn. -/
def drew (s : State) : State := { s with freeCtr := s.freeCtr + 1 }

/-! ## Octets (R5) -/

/-- Little-endian octets of a value. -/
def leBytes : Nat → Nat → Bytes
  | 0, _ => []
  | n + 1, v => BitVec.ofNat 8 v :: leBytes n (v / 256)

/-- The value of little-endian octets. -/
def leVal : Bytes → Nat
  | [] => 0
  | b :: t => b.toNat + 256 * leVal t

/-- `n` octets from `off`, zeros past the end. -/
def slice (bs : Bytes) (off n : Nat) : Bytes :=
  let t := (bs.drop off).take n
  t ++ List.replicate (n - t.length) 0

/-- Little-endian field of `n` octets at `off`. -/
def leAt (bs : Bytes) (off n : Nat) : Nat := leVal (slice bs off n)

/-- Replace octets from `off`. -/
def patch (bs : Bytes) (off : Nat) (new : Bytes) : Bytes :=
  let p := bs.take off
  p ++ List.replicate (off - p.length) 0 ++ new ++ bs.drop (off + new.length)

/-- One octet of a reflected CRC-32 (IEEE 802.3 polynomial). -/
def crcBits : Nat → Nat → Nat
  | 0, c => c
  | n + 1, c => crcBits n (if c % 2 = 1 then Nat.xor (c / 2) 0xEDB88320 else c / 2)

/-- CRC-32 with the IEEE 802.3 parameters. -/
def crc32 (bs : Bytes) : Nat :=
  Nat.xor (bs.foldl (fun c b => crcBits 8 (Nat.xor c b.toNat)) 0xFFFFFFFF) 0xFFFFFFFF

/-- One octet of the CRC-16 of R72. -/
def crc16Bits : Nat → Nat → Nat
  | 0, c => c
  | n + 1, c => crc16Bits n (if c ≥ 0x8000 then Nat.xor (c * 2 % 65536) 0x1021 else c * 2 % 65536)

/-- CRC-16 of R72: polynomial 1021h, initial FFFFh, no reflection, no final XOR. -/
def crc16 (bs : Bytes) : Nat := bs.foldl (fun c b => crc16Bits 8 (Nat.xor c (b.toNat * 256))) 0xFFFF

/-! ## Hub memory (R372) -/

/-- Cluster SRAM at hub addresses: 2 MiB each (R372). -/
abbrev sramBase : Nat := 0x1000000000
abbrev sramSize : Nat := 0x200000

/-- What an unlisted octet reads as: 0 (assumption 6), and in the interleaved space after it has become undefined a free
value (R400), as in the staging half of an SRAM that has been in FROST (R424). -/
def memDefault (s : State) (addr : Nat) : Byte :=
  let epoch := if addr < sramBase then s.mem.epoch
    else if (addr - sramBase) % sramSize < 0x100000 then tabGet 0 s.mem.staging ((addr - sramBase) / sramSize) else 0
  if epoch = 0 then 0 else BitVec.ofNat 8 (Config.memOctet epoch addr)

/-- Octets at a hub address. -/
def memRead (s : State) (addr n : Nat) : Bytes :=
  (List.range n).map (fun i => tabGet (memDefault s (addr + i)) s.mem.cells (addr + i))

/-- Write octets at a hub address. -/
def memWrite (addr : Nat) : Bytes → State → State
  | [], s => s
  | b :: t, s => memWrite (addr + 1) t { s with mem.cells := tabSet (memDefault s addr) s.mem.cells addr b }

/-- Octets of an SRAM become 0. -/
def memClear (addr n : Nat) (s : State) : State :=
  { s with mem.cells := s.mem.cells.filter (fun e => !(decide (addr ≤ e.1) && decide (e.1 < addr + n))) }

/-- R424: the staging half of a cluster's SRAM is not retained. -/
def stagingLost (c : Nat) (s : State) : State :=
  let s := memClear (sramBase + sramSize * c) 0x100000 s
  { s with mem.staging := tabMod 0 s.mem.staging c (· + 1) }

/-! ## Time (R26–R28) -/

/-- One nanosecond, microsecond, millisecond and second of Isobar. -/
abbrev ns1 : Nat := 65536
abbrev us1 : Nat := 65536000
abbrev ms1 : Nat := 65536000000
abbrev s1 : Nat := 65536000000000

/-- The fine tick of 0.625 ns. -/
abbrev fineTick : Nat := 0xA000

/-- The hub's and the field die's measure of spans: time counted since T0, and since the field die's first power-up, which no
step of the count moves. -/
def clk (s : State) : Instant := s.isb.elapsed
def fieldClk (s : State) : Instant := s.fld.elapsed

/-- Whole nanoseconds of the hub's measure of spans. -/
def clkNs (s : State) : Nat := clk s / ns1

/-- Whole nanoseconds of the Isobar count. -/
def nowNs (s : State) : Nat := s.isb.now / ns1

/-- The field die's Isobar follower (R44): the hub's count and the follower's difference from it. -/
def fieldNow (s : State) : Instant := ((s.isb.now : Int) + s.fld.followerOffset).toNat

/-- The first multiple of `g` at or after `t`. -/
def ceilTo (g t : Nat) : Nat := (t + g - 1) / g * g

/-- R28: audio sample boundary `k`, the first fine tick at or after k × 62,500/3 ns. -/
def sampleBoundary (k : Nat) : Instant := (k * 100000 + 2) / 3 * fineTick

/-- The number of the first audio sample boundary at or after `t`. -/
def sampleAtOrAfter (t : Instant) : Nat :=
  let k := t * 3 / (100000 * fineTick)
  if sampleBoundary k ≥ t then k else k + 1

/-- The first audio sample boundary at or after `t`. -/
def ceilSample (t : Instant) : Instant := sampleBoundary (sampleAtOrAfter t)

/-- Field frame boundaries: multiples of 125,000 ns. -/
abbrev framePeriod : Nat := 125000 * 65536

/-! ## Ramps (R511) -/

/-- Begin a ramp to `v` over `n` samples, from the value the last sample used. -/
def rampTo (v : Int) (n : Nat) (r : Ramp) : Ramp := { old := r.cur, new := v, k := 0, n := n, cur := r.cur }

/-- The value sample `k` of the ramp uses. -/
def rampVal (r : Ramp) : Int :=
  if r.k < r.n then r.old + ((r.new - r.old) * (r.k + 1)) / r.n else r.new

/-- The ramp after one sample. -/
def rampStep (r : Ramp) : Ramp :=
  if r.k < r.n then { r with cur := rampVal r, k := r.k + 1 } else { old := 0, new := r.new, k := 0, n := 0, cur := r.new }

/-- The ramp has settled at its new value. -/
def rampDone (r : Ramp) : Bool := decide (r.k ≥ r.n)

/-! ## Cross-fades of signals (R511) -/

/-- No change is running or to come. -/
def fadeIdle (f : Fade) : Bool := f.n == 0 && f.next.isEmpty

/-- The fade as kept: nothing of one that has ended. -/
def fadeKept (f : Fade) : Fade := if fadeIdle f then {} else f

/-- The fade of a signal whose source is `cur` while none runs. -/
def fadeFrom (cur : Nat) (f : Fade) : Fade := if fadeIdle f then { new := cur } else f

/-- A change of source at an instant over `n` samples. -/
def fadeTo (cur src n : Nat) (at_ : Instant) (f : Fade) : Fade :=
  let f := fadeFrom cur f
  { f with next := f.next ++ [(at_, src, n)] }

/-- The change begins: over a fade in progress it starts from the value last used. -/
def fadeInto (src n : Nat) (f : Fade) : Fade :=
  if f.n = 0 then { f with k := 0, n := n, old := f.new, new := src, hold := none, last := none }
  else match f.last with
    | none => { f with k := 0, n := n, new := src }
    | some v => { f with k := 0, n := n, old := f.new, new := src, hold := some v, last := none }

/-- The changes whose instant has come begin. -/
def fadeDue (b : Instant) : List (Instant × Nat × Nat) → Fade → Fade
  | [], f => { f with next := [] }
  | e :: t, f => if e.1 ≤ b then fadeDue b t (fadeInto e.2.1 e.2.2 f) else { f with next := e :: t }

/-- One sample of a signal at an instant, from the samples of its sources there. -/
def fadeSample (f : Fade) (b : Instant) (sig : Nat → Int) : Int × Fade :=
  let f := fadeDue b f.next f
  if f.n = 0 then (sig f.new, f)
  else
    let from_ := f.hold.getD (sig f.old)
    let v := from_ + (sig f.new - from_) * (f.k + 1) / f.n
    (v, if f.k + 1 < f.n then { f with k := f.k + 1, last := some v } else { new := f.new, next := f.next })

/-! ## Status summary and modes -/

/-- SUMMARY bits (key 0002:01). -/
def summary (b : Nat) (on : Bool) (s : State) : State := wr K.SUMMARY (withBit (rd s K.SUMMARY) b on) s

/-- Mode codes of key 0001:01. -/
abbrev mHallDefault : Nat := 0
abbrev mHall : Nat := 1
abbrev mHybrid : Nat := 2
abbrev mBridge : Nat := 3
abbrev mStandby : Nat := 4
abbrev mIsland : Nat := 5
abbrev mSafe : Nat := 6
abbrev mService : Nat := 7

/-- The current mode. -/
def modeOf (s : State) : Nat := rd s K.MODE

/-! ## The claim table (R127) -/

/-- Owner words of CLAIM_OWNER. -/
def ownKey (index sub : Nat) : Nat := 0x40000000 + index * 256 + sub
def ownSlot (n : Nat) : Nat := 0x80000000 + n
def ownFw (n : Nat) : Nat := 0xC0000000 + n

/-- A resource of a class. -/
def resource (cls inst : Nat) : Nat := cls * 65536 + inst

/-- The owner of a resource, 0 when free. -/
def claimOwner (s : State) (cls inst : Nat) : Nat := tabGet 0 s.dic.claims (resource cls inst)

/-- Record an owner. -/
def setClaim (cls inst owner : Nat) (s : State) : State :=
  { s with dic.claims := tabSet 0 s.dic.claims (resource cls inst) owner }

/-- Claim a resource unless another owner holds it. -/
def claim (cls inst owner : Nat) (s : State) : Option State :=
  if claimOwner s cls inst = 0 ∨ claimOwner s cls inst = owner then some (setClaim cls inst owner s) else none

/-- Free a resource that `owner` holds. -/
def unclaim (cls inst owner : Nat) (s : State) : State :=
  if claimOwner s cls inst = owner then setClaim cls inst 0 s else s

/-- Held resources of a class between two instances. -/
def claimsHeld (s : State) (cls lo hi : Nat) : Nat :=
  (s.dic.claims.filter (fun e => decide (resource cls lo ≤ e.1 ∧ e.1 < resource cls hi))).length

/-- The lowest free instance of a class from `lo`, looking at `n` of them (R16). -/
def lowestFree (s : State) (cls : Nat) : Nat → Nat → Option Nat
  | _, 0 => none
  | lo, n + 1 => if claimOwner s cls lo = 0 then some lo else lowestFree s cls (lo + 1) n

/-- Free every resource of a class that `owner` holds. -/
def unclaimAll (cls owner : Nat) (s : State) : State :=
  { s with dic.claims := s.dic.claims.filter (fun e => !(e.1 / 65536 == cls && e.2 == owner)) }

/-- A writable field key as the field die holds it: its default until the hub has rewritten it (R63, R119). -/
def rdF (s : State) (k : Nat) : Nat :=
  if s.fld.copyStale then regDefault k else
  match tabGet 0 s.fld.oldCopy k with
  | 0 => rd s k
  | v + 1 => v

/-! ## The Storm log (R504) -/

/-- Write a Storm record; a full ring overwrites its oldest. -/
def storm (code channel : Nat) (data : List Nat) (s : State) : State :=
  let r : Storm :=
    { time := nowNs s, seq := s.diag.seq, code := code, mode := modeOf s, isbState := rd s K.ISB_STATE,
      channel := channel, data := data }
  let lost := s.diag.ring.length ≥ 256 && (match s.diag.ring.getLast? with | some (_, c) => !c | none => false)
  let ring := (r, false) :: s.diag.ring.take 255
  let s := { s with diag.ring := ring, diag.seq := s.diag.seq + 1 }
  upd lost (bump K.STORM_OVERWRITTEN) (wr K.STORM_HELD ring.length s)

/-- The CHANNEL field of a Storm record. -/
def stormChannel (typ inst : Nat) : Nat := typ * 16777216 + inst

/-! ## Upsets and retirement (R442, R443) -/

/-- Channel types of Table FLT-1. -/
abbrev cME : Nat := 0
abbrev cCluster : Nat := 1
abbrev cDdr : Nat := 2
abbrev cPort : Nat := 3
abbrev cSap : Nat := 4
abbrev cTrunk : Nat := 5
abbrev cTrunkPort : Nat := 6
abbrev cNode : Nat := 7
abbrev cLeg : Nat := 8
abbrev cCodec : Nat := 9
abbrev cDomain : Nat := 10
abbrev cSeal : Nat := 11

/-- A channel instance. -/
def channel (typ inst : Nat) : Nat := typ * 65536 + inst

/-- The instance is retired. -/
def isRetired (s : State) (typ inst : Nat) : Bool := (tabGet none s.flt.retired (channel typ inst)).isSome

/-- Trunks, trunk ports and nodes: their counts and retirements are the field side's (R444). -/
def fieldChannel (t : Nat) : Bool := decide (5 ≤ t ∧ t ≤ 7)

/-- The measure of spans of a channel type's die. -/
def channelClk (s : State) (typ : Nat) : Instant := if fieldChannel typ then fieldClk s else clk s

/-- Upsets of the instance within the last W seconds. -/
def recentUpsets (s : State) (typ inst : Nat) : List Instant :=
  (tabGet [] s.flt.upsets (channel typ inst)).filter (fun t => decide (channelClk s typ < t + rd s (K.WINDOW_W typ) * s1))

/-- Retire an instance: SUMMARY.RETIRED_ANY, a Storm record, the counts (R443). The owning chapter's rules follow. -/
def markRetired (typ inst count : Nat) (s : State) : State :=
  if isRetired s typ inst then s else
  let s := { s with flt.retired := tabSet none s.flt.retired (channel typ inst) (some s.isb.now) }
  summary 1 true (bump K.RETIRED_COUNT (bump (K.TYPE_RETIRED typ)
    (storm 0x0010 (stormChannel typ inst) [count, rd s (K.RETRY_N typ), rd s (K.WINDOW_W typ)] s)))

/-- Count an upset; the flag says the instance was retired by it. -/
def upset (typ inst : Nat) (s : State) : State × Bool :=
  let l := channelClk s typ :: recentUpsets s typ inst
  let s := bump K.UPSETS_TOTAL (bump (K.TYPE_UPSETS typ)
    { s with flt.upsets := tabSet [] s.flt.upsets (channel typ inst) l })
  if !isRetired s typ inst && decide (rd s (K.RETRY_N typ) < l.length) then (markRetired typ inst l.length s, true)
  else (s, false)

/-- R444: clear an instance: its count, and its retirement with what was counted of it. -/
def clearChannel (typ inst : Nat) (s : State) : State :=
  let was := isRetired s typ inst
  let s := { s with
    flt.upsets := tabErase s.flt.upsets (channel typ inst), flt.retired := tabErase s.flt.retired (channel typ inst) }
  if was then
    let s := wr (K.TYPE_RETIRED typ) (rd s (K.TYPE_RETIRED typ) - 1) (wr K.RETIRED_COUNT (rd s K.RETIRED_COUNT - 1) s)
    summary 1 (!s.flt.retired.isEmpty) s
  else s

/-- Clear every instance of the channel types a test names (R444). -/
def clearChannels (ok : Nat → Bool) (s : State) : State :=
  let ks := (s.flt.retired.map (·.1) ++ s.flt.upsets.map (·.1)).filter (fun k => ok (k / 65536))
  ks.foldl (fun s k => clearChannel (k / 65536) (k % 65536) s) s

/-- R7: a register access of a width or alignment not allowed there is counted. -/
def badAccess (bar offset : Nat) (s : State) : State :=
  wr K.BAD_ACCESS_LAST (bar / 2 % 4 * 1073741824 + offset % 16777216) (bump K.BAD_ACCESSES s)

/-! ## Interrupts -/

/-- Set bits of SCH.EVT; with the enable set too, vector 16 is signalled (Table SCH-7). -/
def schEvt (b : Nat) (s : State) : State :=
  emitIf (bitOf s.sch.irqEn b) (.msix 16) { s with sch.evt := withBit s.sch.evt b true }

/-- Set bits of PWR.EVT; with the enable set too, vector 32 is signalled (R440). -/
def pwrEvt (b : Nat) (s : State) : State :=
  emitIf (bitOf s.pwr.irqEn b) (.msix 32) { s with pwr.evt := withBit s.pwr.evt b true }

end Sys2Proof.Machine
end

