-- ==== Sys2Proof/Machine/Domain.lean ====
section
/-! DEFINITION. Waking: the states of power domains (Table PWR-1), the beginning of a wake order (R433), the wake latch
(R432) and the wake of the hub (R431). The steps of a wake are in Power.lean. -/
namespace Sys2Proof.Machine

/-- PD_STATE codes (Table PWR-8). -/
abbrev pdRun : Nat := 0
abbrev pdLull : Nat := 1
abbrev pdCalm : Nat := 2
abbrev pdFrost : Nat := 3
abbrev pdOff : Nat := 4
abbrev pdWaking : Nat := 5
abbrev pdRetired : Nat := 6
abbrev pdFailed : Nat := 7
def pdState (s : State) (d : Nat) : Nat := rd s (K.PD_STATE d)

/-- HUB_PSTATE codes. -/
abbrev hpRun : Nat := 0
abbrev hpEntering : Nat := 1
abbrev hpCalm : Nat := 2
abbrev hpFrost : Nat := 3
abbrev hpWaking : Nat := 4
def hubPower (s : State) : Nat := rd s K.HUB_PSTATE

/-- The switched hub domains PD1–PD18. -/
def hubDomains : List Nat := (List.range 18).map (· + 1)

/-- Domain 1–8 is on VDD_ME, 11 and 12 on VDD_SD (Table PWR-2). -/
def onVme (d : Nat) : Bool := decide (1 ≤ d ∧ d ≤ 8)
def onVsd (d : Nat) : Bool := d == 11 || d == 12

def domainOf (s : State) (d : Nat) : Domain := tabGet {} s.pwr.domains d
def domainUpd (d : Nat) (f : Domain → Domain) (s : State) : State :=
  { s with pwr.domains := tabMod {} s.pwr.domains d f }

/-- Drive a regulator enable (R423). -/
def driveVme (on : Bool) (s : State) : State :=
  if s.pwr.vmeEn = on then s else emit (.pin "VME_EN" on) { s with pwr.vmeEn := on }
def driveVsd (on : Bool) (s : State) : State :=
  if s.pwr.vsdEn = on then s else emit (.pin "VSD_EN" on) { s with pwr.vsdEn := on }

/-- A domain enters LULL, or leaves it (R425). -/
def enterLull (d : Nat) (s : State) : State :=
  if pdState s d = pdRun then wr (K.PD_STATE d) pdLull { s with pwr.lullAt := tabSet 0 s.pwr.lullAt d (clk s) } else s
def leaveLull (d : Nat) (s : State) : State :=
  if pdState s d = pdLull then
    wr (K.PD_STATE d) pdRun { s with pwr.lullRuns := tabMod [] s.pwr.lullRuns d (fun l =>
      (tabGet 0 s.pwr.lullAt d, clk s) :: l.filter (fun r => decide (clk s < r.2 + s1))) }
  else s

/-- PD_LULL_PCT: the part of the last second a domain spent in LULL. -/
def lullPct (s : State) (d : Nat) : Nat :=
  let from_ := clk s - s1
  let now := if pdState s d = pdLull then [(tabGet 0 s.pwr.lullAt d, clk s)] else []
  (now ++ tabGet [] s.pwr.lullRuns d).foldl (fun n r => n + (r.2 - max r.1 from_)) 0 * 100 / s1

/-- R433: a domain starts its wake order. From CALM the regulator step is ready at once (its budget is 0), as it is for a
rail whose power-good input is high. -/
def wakeDomain (d : Nat) (s : State) : State :=
  let p := pdState s d
  if p = pdCalm ∨ p = pdFrost ∨ p = pdOff then
    let s := upd (onVme d) (driveVme true) (upd (onVsd d) (driveVsd true) s)
    let ready := p == pdCalm || (onVme d && s.pwr.vmePg) || (onVsd d && s.pwr.vsdPg)
    domainUpd d (fun x => { x with step := if ready then 2 else 1, tries := 0, from_ := p, since := clk s }) (wr (K.PD_STATE d) pdWaking s)
  else s

/-- R431: a wake source meets the hub: in CALM or FROST the hub wakes; during an entry the source is pending. -/
def wakeHub (src : Nat) (s : State) : State :=
  let p := hubPower s
  if p = hpCalm ∨ p = hpFrost then
    let s := wr K.HUB_PSTATE hpWaking (wr K.LAST_WAKE src (wr K.LAST_WAKE_AT (nowNs s)
      { s with pwr.wakeAt := clk s, pwr.wakeSource := src, pwr.lastActive := clk s }))
    hubDomains.foldl (fun s d => wakeDomain d s) s
  else
    match s.pwr.entry with
    | some e => { s with pwr.entry := some { e with wake := some (e.wake.getD src) } }
    | none => s

/-- R432: a privileged event is latched: merged into an equal entry, or added. The latch has 64 entries (assumption 34). -/
def latchEvent (src data : Nat) (at_ : Instant) (s : State) : State :=
  let same := fun (e : Latched) => e.source == src && e.data == data
  if s.pwr.latch.any same then
    bump K.LATCH_MERGED { s with pwr.latch := s.pwr.latch.map (fun e =>
      if same e then { e with merges := e.merges + 1, at_ := min e.at_ at_ } else e) }
  else if 64 ≤ s.pwr.latch.length then s
  else
    let l := s.pwr.latch ++ [{ source := src, data := data, at_ := at_ }]
    wr K.LATCH_COUNT l.length { s with pwr.latch := l }

/-- WAKE_LATCH: 16 octets for each entry, oldest first. -/
def latchBlob (s : State) : Bytes :=
  s.pwr.latch.flatMap (fun e => leBytes 1 e.source ++ [0] ++ leBytes 2 e.data ++ leBytes 4 e.merges ++ leBytes 8 (e.at_ / ns1))

/-- A domain that has to wake before what needs it runs (R426). -/
def needsWake (s : State) (d : Nat) : Bool := pdState s d == pdCalm || pdState s d == pdFrost || pdState s d == pdWaking

end Sys2Proof.Machine
end

