-- ==== Sys2Proof/Machine/Octets.lean ====
section
/-! DEFINITION. The octets of work items, journal entries (Tables SCH-1, SCH-6), of the messages of the two links (Tables
FLD-2, FLD-3, FLT-4) and of what the boot flash holds (Tables BOOT-1, BOOT-2, DIAG-1, R473). -/
namespace Sys2Proof.Machine

/-- Staged BLOB and class 7 data in a local region (Table MEM-2). -/
abbrev stageArea : Nat := 264 * 0x100000

/-- The 64 octets of a work item (Table SCH-1). -/
def itemOctets (it : Item) : Bytes :=
  leBytes 2 it.typ ++ leBytes 1 it.level ++ leBytes 1 it.flags ++ leBytes 2 it.flow ++ leBytes 1 it.affinity
    ++ leBytes 1 it.cls ++ leBytes 4 it.delay ++ leBytes 1 it.source ++ leBytes 3 it.reserved ++ leBytes 8 it.dedup
    ++ leBytes 8 it.accept ++ it.payload.take 32 ++ List.replicate (32 - it.payload.length) 0

/-- R145: the data an entry refers to in DRAM: a BLOB longer than 248 B, the item of a class 7 entry (assumption 152). -/
def stagedOf : Durable → Option Bytes
  | .blobClose _ _ _ _ value _ => if 248 < value.length then some value else none
  | .host st _ => some (itemOctets st.it)
  | _ => none

/-- Blocks of the staging area; a block's offset in the local region. -/
abbrev stagePlace : Nat := 0x20000
def stageAddr (block : Nat) : Nat := stageArea + 512 * block

/-- The value of an entry held in BODY and its continuations. The spec gives a dictionary write's value; the layout of other
work is open (assumption 152). -/
def jrnlValue (act : Durable) : Bytes :=
  match act with
  | .dictWrite _ _ _ _ value => value
  | .blobClose _ _ _ _ value _ => value
  | act => Config.journalValue act

/-- The octets of an entry (Table SCH-6), little-endian. STATE of an entry written and not yet accepted is 0 (assumption
152). -/
def JEntry.octets (e : JEntry) : Bytes :=
  let pad (n : Nat) (b : Bytes) : Bytes := b.take n ++ List.replicate (n - b.length) 0
  let body : Bytes := match stagedOf e.act with
    | some d => leBytes 8 (stageAddr e.stage) ++ leBytes 4 d.length ++ leBytes 4 (crc32 d)
    | none => jrnlValue e.act
  let b := leBytes 8 e.accept ++ leBytes 1 e.cls ++ leBytes 1 e.state ++ leBytes 1 e.cont ++ leBytes 1 e.source
    ++ leBytes 2 e.typ ++ leBytes 2 e.flow ++ leBytes 8 e.dedup ++ leBytes 8 (e.time / ns1) ++ pad 24 body
    ++ leBytes 1 e.level ++ leBytes 1 e.retries ++ leBytes 2 0
  b ++ leBytes 4 (crc32 b)

/-- The octets of continuation entry `i` (R145). -/
def JEntry.contOctets (e : JEntry) (i : Nat) : Bytes :=
  let v := slice (jrnlValue e.act) (24 + 56 * i) 56
  let b := v.take 56 ++ List.replicate (56 - v.length) 0 ++ leBytes 4 (e.accept % 4294967296)
  b ++ leBytes 4 (crc32 b)

/-- TYPE of a message (Table FLD-3). -/
def LMsg.typ : LMsg → Nat
  | .timeXfer .. => 0x01
  | .timeEcho .. => 0x02
  | .heartbeat .. => 0x03
  | .wake .. => 0x04
  | .audioUp .. => 0x10
  | .audioDown .. => 0x11
  | .nodeEvent .. => 0x12
  | .nodeClear .. => 0x13
  | .nodeAck .. => 0x14
  | .dictReq .. => 0x20
  | .dictRsp .. => 0x21
  | .launchCmd .. => 0x22
  | .launchCancel .. => 0x22
  | .launchReport .. => 0x23
  | .power .. => 0x24

/-- CLASS of a message (Table FLD-3). -/
def LMsg.cls (m : LMsg) : Nat := if m.typ < 0x10 then 0 else if m.typ < 0x20 then 1 else 2

/-- R73: samples of 24 bits. -/
def sampleOctets (l : List Int) : Bytes := l.flatMap (fun v => leBytes 3 (ofInt 24 v))

/-- Table ISB-6: the 32 octets of a launch record; STATE and REASON are read only. -/
def recOctets (r : LaunchRec) (state reason : Nat) : Bytes :=
  leBytes 8 r.time ++ leBytes 2 r.frac ++ leBytes 1 r.typ ++ leBytes 1 r.flags ++ leBytes 2 r.target
    ++ leBytes 1 state ++ leBytes 1 reason ++ leBytes 8 r.arg ++ leBytes 8 r.period

/-- The payload of a message (Table FLD-3). After the fields of the table stand, where the rules need them: the role and
epoch of a hub heartbeat (R450), the data of a wake source, the reason of a failed launch (assumption 141). -/
def LMsg.payload : LMsg → Bytes
  | .timeXfer t frac st freq => leBytes 8 t ++ leBytes 2 frac ++ leBytes 1 st ++ leBytes 4 (ofInt 32 freq)
  | .timeEcho sent hold => leBytes 8 sent ++ leBytes 4 hold
  | .heartbeat mode field role epoch => leBytes 1 mode ++ leBytes 1 field ++ leBytes 1 role ++ leBytes 4 epoch
  | .wake source data at_ => leBytes 1 source ++ leBytes 8 at_ ++ leBytes 2 data
  | .audioUp t b T valid samples =>
    leBytes 1 t ++ leBytes 1 b ++ leBytes 8 T ++ leBytes 1 valid ++ samples.flatMap sampleOctets
  | .audioDown T samples => leBytes 8 T ++ samples.flatMap sampleOctets
  | .nodeEvent n c T => leBytes 2 n ++ leBytes 1 c ++ leBytes 8 T
  | .nodeClear n => leBytes 2 n
  | .nodeAck n => leBytes 2 n
  | .dictReq _ body => body
  | .dictRsp _ body => body
  | .launchCmd num r => leBytes 2 num ++ recOctets r 0 0
  | .launchCancel num => leBytes 2 num
  | .launchReport num t st late reason =>
    leBytes 2 num ++ leBytes 1 t ++ leBytes 1 st ++ leBytes 2 late ++ leBytes 1 reason
  | .power kind arg => leBytes 1 kind ++ leBytes 1 arg

/-- R64: header (Table FLD-2), payload, CRC-32. -/
def lanokFrame (seq ack : Nat) (m : LMsg) : Bytes :=
  let b := leBytes 1 m.typ ++ leBytes 1 m.cls ++ leBytes 2 m.payload.length ++ leBytes 2 seq ++ leBytes 2 ack ++ m.payload
  b ++ leBytes 4 (crc32 b)

/-- TYPE of a message (Table FLT-4). -/
def PMsg.typ : PMsg → Nat
  | .heartbeat .. => 0x01
  | .jrnlCopy _ => 0x02
  | .jrnlAck _ => 0x03
  | .jrnlMark .. => 0x04
  | .staged .. => 0x05
  | .legCkpt _ => 0x06
  | .sync .. => 0x07
  | .role .. => 0x08
  | .relayDown .. => 0x09
  | .relayUp .. => 0x0A
  | .relayMsg .. => 0x0B
  | .timeEcho .. => 0x0C

/-- The message is carried reliably. -/
def PMsg.reliable (m : PMsg) : Bool := [0x02, 0x04, 0x05, 0x06, 0x07, 0x08, 0x0B].contains m.typ

/-- The payload of a message (Table FLT-4). The spec gives no layout of a leg's checkpoint, of a segment of a checkpoint and
of the final slot indices (assumption 161). -/
def PMsg.payload : PMsg → Bytes
  | .heartbeat r mode st hubOk last time reach =>
    leBytes 1 r ++ leBytes 1 mode ++ leBytes 1 st ++ leBytes 1 (b2n hubOk) ++ leBytes 8 last ++ leBytes 8 time
      ++ leBytes 2 reach
  | .jrnlCopy l => l.flatMap (fun e => e.octets ++ (List.range e.cont).flatMap e.contOctets)
  | .jrnlAck held => leBytes 8 held
  | .jrnlMark c f => leBytes 8 c ++ leBytes 8 f
  | .staged addr off octets => leBytes 8 addr ++ leBytes 4 off ++ octets
  | .role mine yours epoch l =>
    leBytes 1 mine ++ leBytes 1 yours ++ leBytes 4 epoch
      ++ (if l.isEmpty then [] else Config.pairValue (PMsg.role mine yours epoch l))
  | .relayDown T samples => LMsg.payload (.audioDown T samples)
  | .relayUp t b T valid samples => LMsg.payload (.audioUp t b T valid samples)
  | .relayMsg _ m => lanokFrame 0 0 m
  | .timeEcho sent hold => LMsg.payload (.timeEcho sent hold)
  | m => Config.pairValue m

/-- R452: header, payload and CRC-32. -/
def pairFrame (seq ack epoch : Nat) (m : PMsg) : Bytes :=
  let b := leBytes 1 m.typ ++ leBytes 1 (b2n m.reliable) ++ leBytes 2 m.payload.length ++ leBytes 4 seq ++ leBytes 4 ack
    ++ leBytes 4 epoch ++ m.payload
  b ++ leBytes 4 (crc32 b)

/-! ## The boot flash -/

/-- A boot header (Table BOOT-2). -/
def headerOctets (b : Boot) : Bytes :=
  let digest := if b.imageKey.isEmpty then List.replicate 48 0 else leBytes 48 (Config.sha384 (b.imageKey.map (·.toNat)))
  let h := leBytes 4 0x4D4B4248 ++ leBytes 2 1 ++ leBytes 1 b.activeSlot ++ leBytes 1 (b2n b.trial + 16 * b.tries)
    ++ leBytes 4 b.genA ++ leBytes 4 b.genB ++ digest ++ b.imageKey ++ List.replicate (97 - b.imageKey.length) 0
    ++ List.replicate 91 0
  h ++ leBytes 4 (crc32 h)

/-- R470: the header is rewritten, the second copy first. -/
def headerPut (f : Boot → Boot) (s : State) : State :=
  let b := { f s.boot with header0Good := true, header1Good := true }
  emit (.flash 0 (headerOctets b)) (emit (.flash 0x8000 (headerOctets b)) { s with boot := b })

/-- TYPE codes of R128. -/
def tyCode : Ty → Nat
  | .bool => 0 | .u8 => 1 | .u16 => 2 | .u32 => 3 | .u64 => 4 | .i16 => 5 | .i32 => 6
  | .isobar => 9 | .enum => 10 | .bits32 => 11 | .str => 12 | .blob => 13

/-- A record in the format of R128. -/
def recordOctets (k : Nat) (ty : Ty) (value : Bytes) : Bytes :=
  leBytes 2 (keyIndex k) ++ leBytes 1 (keySub k) ++ leBytes 1 (tyCode ty) ++ leBytes 2 value.length ++ [0, 0] ++ value
    ++ List.replicate ((4 - value.length % 4) % 4) 0

/-- The record that selects the instance of a selected key, as an image selects it (assumption 173). -/
def selectOctets (k : Nat) (e : Entry) : Bytes :=
  match e.sel with
  | .by sub _ =>
    let ty := ((entryOf (keyIndex k) sub).map Entry.ty).getD .u32
    recordOctets (key (keyIndex k) sub 0) ty (leBytes ty.size (keyInst k))
  | _ => []

/-- A persist copy (R473): its header, then a record of each value, a selected key's after the record that selects it. -/
def persistOctets (seq imageId : Nat) (values : Tab Nat) (blobs : Tab (Option Bytes)) : Bytes :=
  let rec_ (k : Nat) (value : Ty → Bytes) : Bytes :=
    (entryOf (keyIndex k) (keySub k)).elim [] (fun e => selectOctets k e ++ recordOctets k e.ty (value e.ty))
  let l := values.flatMap (fun e => rec_ e.1 (fun ty => leBytes ty.size e.2)) ++ blobs.flatMap (fun e => rec_ e.1 (fun _ => e.2.getD []))
  leBytes 4 0x4D4B5053 ++ leBytes 4 seq ++ leBytes 4 imageId ++ leBytes 4 l.length ++ leBytes 4 (crc32 l)
    ++ List.replicate 12 0 ++ l

/-- A Storm record (Table DIAG-1); one whose CRC fails is returned with CODE FFFFh. -/
def stormOctets (r : Storm) : Bytes :=
  let code := if r.crcGood then r.code else 0xFFFF
  let data := slice ((Config.stormData r.code r.data).map (BitVec.ofNat 8)) 0 36
  let b := leBytes 8 r.time ++ leBytes 4 r.seq ++ leBytes 2 code ++ leBytes 1 r.mode ++ leBytes 1 r.isbState
    ++ leBytes 4 r.channel ++ data ++ [0, 0, 0, 0]
  b ++ leBytes 4 (crc32 b)

end Sys2Proof.Machine
end

