-- ==== Sys2Proof/Machine/PairLink.lean ====
section
/-! DEFINITION. The pair link: sending, acknowledging and re-sending its messages (R452). -/
namespace Sys2Proof.Machine

/-- The link is UP. -/
def pairLinkUp (s : State) : Bool := rd s K.PAIR_LINK_STATE == 2

/-- SEQ values are 32 bits. -/
def pairSeqNext (n : Nat) : Nat := (n + 1) % 4294967296

/-- A message leaves the hub. -/
def pairEmit (seq : Nat) (m : PMsg) (s : State) : State :=
  let ack := s.pair.rxSeq
  let epoch := rd s K.EPOCH
  emit (.pairOctets (pairFrame seq ack epoch m)) (emit (.pair seq ack epoch m) s)

/-- Send a message; nothing while the link is not UP. At most 256 reliable messages are unacknowledged. -/
def pairSend (m : PMsg) (s : State) : State :=
  if !pairLinkUp s then s else
  let p := s.pair
  if m.reliable then
    if 256 ≤ p.unacked.length then { s with pair.waiting := p.waiting ++ [m] }
    else
      let q := pairSeqNext p.txSeq
      pairEmit q m
        { s with pair.txSeq := q, pair.unacked := p.unacked ++ [(q, 0, clk s, m)], pair.sentAt := clk s }
  else
    let q := pairSeqNext (tabGet 0 p.counters m.typ)
    pairEmit q m
      { s with pair.counters := tabSet 0 p.counters m.typ q, pair.sentAt := clk s }

/-- Messages waiting for the window are sent, oldest first. -/
def pairDrain : Nat → State → State
  | 0, s => s
  | n + 1, s =>
    match s.pair.waiting with
    | [] => s
    | m :: t => if 256 ≤ s.pair.unacked.length then s else pairDrain n (pairSend m { s with pair.waiting := t })

/-- An acknowledged leg checkpoint sets the reserved limits (R309). -/
def pairAcked (m : PMsg) (s : State) : State :=
  match m with
  | .legCkpt c =>
    { s with fwd.legs := tabMod {} s.fwd.legs c.leg (fun (x : Leg) => { x with
        slots := tabMap {} x.slots (fun k (y : LegSlot) => { y with limit := (c.slots[k]?).map (·.limit) }) }) }
  | _ => s

/-- An acknowledgement: every message up to it is done. -/
def pairAck (ack : Nat) (s : State) : State :=
  let u := s.pair.unacked
  if u.any (fun e => e.1 == ack) then
    let done := u.takeWhile (fun e => e.1 != ack) ++ (u.find? (fun e => e.1 == ack)).toList
    let s := { s with pair.unacked := (u.dropWhile (fun e => e.1 != ack)).drop 1 }
    pairDrain 256 (done.foldl (fun s e => pairAcked e.2.2.2 s) s)
  else s

/-- A message is received with its header; the flag says it is to be acted on. One with a lower EPOCH, a duplicate and one
out of order are discarded. -/
def pairRecv (reliable : Bool) (h : PHdr) (s : State) : Bool × State :=
  if !pairLinkUp s then (false, s)
  else if h.epoch < rd s K.EPOCH then (false, bump (K.PAIR_LINK_COUNTS 2) s)
  else
    let s := pairAck h.ack { s with pair.lastGood := clk s }
    if !reliable then (true, s)
    else if h.seq = pairSeqNext s.pair.rxSeq then (true, { s with pair.rxSeq := h.seq })
    else (false, s)

/-- Receive, then act. -/
def onPair (reliable : Bool) (h : PHdr) (f : State → State) (s : State) : Res :=
  match pairRecv reliable h s with
  | (true, s) => .next (f s)
  | (false, s) => .next s

end Sys2Proof.Machine
end

