-- ==== Sys2Proof/Machine/Sched.lean ====
section
/-! DEFINITION. The work scheduler and the journal (chapter SCH): enqueue, delay, dispatch, release, faults, host
submission queues, the journal's writing and freeing, checkpoints, the Vane trace. -/
namespace Sys2Proof.Machine

/-! ## Vane trace (R158, R159, R506) -/

/-- Events of Table SCH-9 that the machine records. -/
abbrev vEnqueue : Nat := 1
abbrev vDelayIn : Nat := 2
abbrev vDelayDue : Nat := 3
abbrev vDispatch : Nat := 4
abbrev vComplete : Nat := 5
abbrev vRelease : Nat := 6
abbrev vAccept : Nat := 7
abbrev vCommit : Nat := 8
abbrev vFree : Nat := 9
abbrev vRedispatch : Nat := 10
abbrev vReject : Nat := 11
abbrev vWindowFull : Nat := 12
abbrev vReplay : Nat := 13

/-- The flow a record names: FFFFh when unordered. -/
def flowOrNone (it : Item) : Nat := if bitOf it.flags 0 then it.flow else 0xFFFF

/-- R159: the event passes every filter. -/
def vanePasses (s : State) (event : Nat) (it : Item) : Bool :=
  let lo := field (rd s K.VANE_FLOW) 15 0
  let hi := field (rd s K.VANE_FLOW) 31 16
  let mask := field (rd s K.VANE_TYPE) 31 16
  bitOf (rd s K.VANE_EVENTS) event && bitOf (rd s K.VANE_LEVELS) it.level
    && (if bitOf it.flags 0 then decide (lo ≤ it.flow ∧ it.flow ≤ hi) else decide (lo = 0 ∧ hi = 0xFFFF))
    && (it.typ &&& mask) == (field (rd s K.VANE_TYPE) 15 0 &&& mask)
    && (rd s K.VANE_TRACE_ONLY == 0 || bitOf it.flags 2)

/-- The octets of a Vane record (Table SCH-8). -/
def vaneOctets (event : Nat) (it : Item) (accept me arg : Nat) (s : State) : Bytes :=
  let b := leBytes 8 (nowNs s) ++ leBytes 1 event ++ leBytes 1 it.level ++ leBytes 2 it.typ ++ leBytes 2 (flowOrNone it)
    ++ leBytes 1 me ++ leBytes 1 it.source ++ leBytes 8 accept ++ leBytes 4 (min arg 0xFFFFFFFF) ++ leBytes 2 s.sch.vaneSeq
  b ++ leBytes 2 (crc16 b)

/-- A record goes into the ring at VANE_BASE: in WRAP mode a full ring overwrites its oldest records, in STOP mode it stops
when full. -/
def vanePut (event : Nat) (it : Item) (accept me arg : Nat) (s : State) : State :=
  let wp := rd s K.VANE_WP + 32
  let s := memWrite (rd s K.VANE_BASE + rd s K.VANE_WP) (vaneOctets event it accept me arg s) s
  let s := bump K.VANE_RECORDS { s with sch.vaneSeq := (s.sch.vaneSeq + 1) % 65536 }
  if wp < rd s K.VANE_SIZE then wr K.VANE_WP wp s
  else upd (rd s K.VANE_MODE == 1) (wr K.VANE_FULL 1) (wr K.VANE_WP 0 s)

/-- The LOST record, once space returns: how many records were not written since the last. It has no item: TYPE, LEVEL,
SOURCE and ACCEPT are 0, and of the filters the event mask alone is asked (assumption 151). -/
def vaneLost (s : State) : State :=
  if s.sch.vaneLost = 0 then s
  else
    let s' := { s with sch.vaneLost := 0 }
    if bitOf (rd s K.VANE_EVENTS) 14 then vanePut 14 { typ := 0, level := 0 } 0 0xFF s.sch.vaneLost s' else s'

/-- Record an item's event; while the ring is full it is dropped and counted. -/
def vane (event : Nat) (it : Item) (accept me arg : Nat) (s : State) : State :=
  if rd s K.VANE_EN = 0 ∨ vanePasses s event it = false then s
  else if rd s K.VANE_FULL ≠ 0 then bump K.VANE_DROPS { s with sch.vaneLost := s.sch.vaneLost + 1 }
  else vanePut event it accept me arg s

/-! ## The journal -/

/-- Entries of the journal (R145: 131,072 of 64 B). -/
abbrev jrnlPlaces : Nat := 131072

/-- R145: continuation entries of a value of `n` octets; a larger value is held by reference. -/
def continuations (n : Nat) : Nat := if n ≤ 24 then 0 else if n ≤ 248 then (n - 24 + 55) / 56 else 0

/-- The DRAM of a channel's local region (R387): octets, and its place in the store of octets. -/
abbrev localSize : Nat := 0x20000000
def localBase (c : Nat) : Nat := 0x2000000000 + c * localSize

/-- The engine firmware image in a local region (Table MEM-2). -/
abbrev imageArea : Nat := 328 * 0x100000

/-- Channels holding mirrors (JRNL_MIRRORS). -/
def mirrorChans (s : State) : List Nat := [0, 1, 2, 3].filter (bitOf (rd s K.JRNL_MIRRORS))

/-- Octets go to both mirror channels' local regions. -/
def mirrorPut (off : Nat) (octets : Bytes) (s : State) : State :=
  (mirrorChans s).foldl (fun s c => memWrite (localBase c + off) octets s) s

/-- Blocks of 512 B that staged data takes. -/
def stageBlocks (n : Nat) : Nat := (n + 511) / 512

/-- The lowest place of `n` in a row, below `total`, that no taken run (place, length) touches. -/
def fitIn (taken : List (Nat × Nat)) (total n : Nat) : Option Nat :=
  let free (p : Nat) : Bool := decide (p + n ≤ total) && taken.all (fun r => decide (p + n ≤ r.1) || decide (r.1 + r.2 ≤ p))
  ((0 :: taken.map (fun r => r.1 + r.2)).filter free).foldl (fun (b : Option Nat) p =>
    some (match b with | some q => min p q | none => p)) none

/-- Blocks in use: those of open write transfers, and those entries refer to, kept until they are freed. -/
def stageTaken (s : State) : List (Nat × Nat) :=
  s.dic.blob.filterMap (fun e => e.2.bind (fun b => if b.write then some (b.stage, stageBlocks b.length) else none))
    ++ s.sch.journal.filterMap (fun e => (stagedOf e.act).map (fun d => (e.stage, stageBlocks d.length)))

/-- A free run of blocks for `n` octets. -/
def stageFit (s : State) (n : Nat) : Option Nat := fitIn (stageTaken s) stagePlace (stageBlocks n)

/-- A free run of journal places for an entry and its continuations. -/
def jrnlFit (s : State) (cont : Nat) : Option Nat :=
  fitIn (s.sch.journal.map (fun e => (e.place, 1 + e.cont))) jrnlPlaces (1 + cont)

/-- The 64 octets at a place of the journal, in SRAM and in each mirror; a free place is all 0 (assumption 152). -/
def jrnlOctets (s : State) (place : Nat) : Bytes :=
  match s.sch.journal.find? (fun e => decide (e.place ≤ place ∧ place ≤ e.place + e.cont)) with
  | some e => if e.place = place then e.octets else e.contOctets (place - e.place - 1)
  | none => List.replicate 64 0

/-- Octets at an offset of a channel's local region: a mirror's first 8 MiB are the journal. -/
def localRead (s : State) (c off n : Nat) : Bytes :=
  (List.range n).flatMap (fun i =>
    if off + i < 64 * jrnlPlaces ∧ (mirrorChans s).contains c = true then
      [(jrnlOctets s ((off + i) / 64)).getD ((off + i) % 64) 0]
    else memRead s (localBase c + off + i) 1)

/-- JRNL_USED: entries in use, continuations included. -/
def jrnlUsed (s : State) : Nat := s.sch.journal.foldl (fun n e => n + 1 + e.cont) 0

/-- SCH.STATUS.FILL. -/
def jrnlFill (s : State) : Nat := jrnlUsed s * 100 / jrnlPlaces

/-- R148: fill at or above JRNL_HIGH. -/
def jrnlHigh (s : State) : Bool := decide (rd s K.JRNL_HIGH * jrnlPlaces ≤ jrnlUsed s * 100)

/-- R148: the marks that follow the fill. `was` is the mark before the change. -/
def jrnlMarks (was : Bool) (s : State) : State :=
  let s := summary 6 (jrnlHigh s) s
  upd (jrnlHigh s && !was) (schEvt 8) s

/-- The pair is HEALTHY: acceptance waits for the peer's copy (R146). -/
def pairHealthy (s : State) : Bool := rd s K.PAIR_STATE == 2

/-- A hub that takes and runs work: no pair role, or ACTIVE (R453, R460). -/
def serves (s : State) : Bool := decide (rd s K.ROLE ≤ 1)

/-- New work waits at its port: replay is running (R151), or the scheduler is HALTED. -/
def replaying (s : State) : Bool := rd s K.SCHED_STATE == 1 || rd s K.SCHED_STATE == 3

/-- What became of durable work presented to the journal. -/
inductive Admit where
  | written (accept : Nat)
  /-- a repeat of accepted work: answered OK (R144) -/
  | repeatDone
  /-- a repeat of work still pending under this number -/
  | repeatPending (accept : Nat)
  | busy
deriving DecidableEq, Repr

/-- R144: an entry in the journal or among the last keys freed has the same class, source and key. -/
def findRepeat (s : State) (cls source key : Nat) : Option Admit :=
  match s.sch.journal.find? (fun e => e.cls == cls && e.source == source && e.dedup == key) with
  | some e => some (if e.state = 0 then .repeatPending e.accept else .repeatDone)
  | none => if s.sch.freed.any (fun k => k == (cls, source, key)) then some .repeatDone else none

/-- The active hub of a pair that is HEALTHY or SYNCING sends the other what the journal holds (R453, R455). -/
def copiesToPeer (s : State) : Bool := rd s K.ROLE == 1 && (rd s K.PAIR_STATE == 1 || rd s K.PAIR_STATE == 2)

/-- The journal is 50 % full or more. -/
def jrnlHalf (s : State) : Bool := decide (jrnlPlaces ≤ jrnlUsed s * 2)

/-- The blocks an entry's data takes: a BLOB's are those of its transfer, a host item's are found now. -/
def stageFor (s : State) : Durable → Option Nat
  | .blobClose _ _ _ _ _ stage => some stage
  | act => match stagedOf act with
    | some d => stageFit s d.length
    | none => some 0

/-- An entry's data, other than a BLOB's, which its transfer staged, goes to the staging area, and to the peer before the
entry (R145, R453). -/
def stageData (act : Durable) (stage : Nat) (s : State) : State :=
  match act with
  | .host st _ =>
    let d := itemOctets st.it
    upd (copiesToPeer s) (pairSend (.staged (stageAddr stage) 0 d)) (mirrorPut (stageAddr stage) d s)
  | _ => s

/-- Write an entry in retained SRAM (R145): it takes the next acceptance number. `key` is none for a class whose key
is the node's OPEN flag (R144). One that makes the journal 50 % full makes a checkpoint due (R149). -/
def jrnlWrite (cls source typ flow level octets : Nat) (key : Option Nat) (act : Durable) (s : State) : Admit × State :=
  match key.bind (findRepeat s cls source) with
  | some a => (a, bump K.DEDUP_HITS s)
  | none =>
    let cont := continuations octets
    match jrnlFit s cont, stageFor s act with
    | some place, some stage =>
      let was := jrnlHigh s
      let half := jrnlHalf s
      let n := s.sch.nextAccept
      let e : JEntry :=
        { accept := n, cls := cls, cont := cont, source := source, typ := typ, flow := flow, dedup := key.getD 0,
          time := s.isb.now, writtenAt := clk s, level := level, place := place, stage := stage, act := act }
      let s := stageData act stage s
      let s := jrnlMarks was { s with sch.nextAccept := n + 1, sch.journal := s.sch.journal ++ [e] }
      (.written n, upd (copiesToPeer s) (pairSend (.jrnlCopy [e])) { s with sch.cpDue := s.sch.cpDue || (jrnlHalf s && !half) })
    | _, _ => (.busy, s)

/-- R135: the last accepted number, every number up to it being accepted. -/
def lastAccepted (s : State) : Nat :=
  match s.sch.journal.find? (fun e => e.state == 0) with
  | some e => e.accept - 1
  | none => s.sch.nextAccept - 1

/-- LAST_ACCEPT after a change of the journal or the numbering. -/
def syncAccept (s : State) : State := wr K.LAST_ACCEPT (lastAccepted s) s

/-- Change the journal entry of a number. -/
def jrnlUpd (n : Nat) (f : JEntry → JEntry) (s : State) : State :=
  { s with sch.journal := s.sch.journal.map (fun e => if e.accept = n then f e else e) }

/-- The item a journal entry stands for, as a Vane record shows it. -/
def JEntry.asItem (e : JEntry) : Item :=
  match e.act with
  | .host st _ => st.it
  | _ => { typ := e.typ, level := e.level, flow := e.flow, flags := 2, source := e.source }

/-- The copies of an entry exist: it is ACCEPTED (R135, R146). -/
def jrnlAccepted (n : Nat) (s : State) : State :=
  match s.sch.journal.find? (fun e => e.accept == n) with
  | some e =>
    let took := (clk s - e.writtenAt) / ns1
    let s := jrnlUpd n (fun e => { e with state := 1, time := s.isb.now }) s
    syncAccept (vane vAccept e.asItem n 0xFF took (upd (decide (rd s K.ACCEPT_MAX < took)) (wr K.ACCEPT_MAX took) s))
  | none => s

/-- The highest number a checkpoint taken now includes: every entry up to it is COMMITTED or POISONED. -/
def checkpointReach (s : State) : Nat :=
  match s.sch.journal.find? (fun e => decide (e.state < 2)) with
  | some e => e.accept - 1
  | none => s.sch.nextAccept - 1

/-- The highest number up to which every entry has been freed. -/
def freedReach (s : State) : Nat :=
  match s.sch.journal.head? with
  | some e => e.accept - 1
  | none => s.sch.nextAccept - 1

/-- R453: the standby is told how far entries are committed and freed. -/
def markPeer (s : State) : State := upd (copiesToPeer s) (pairSend (.jrnlMark (checkpointReach s) (freedReach s))) s

/-- R149: an entry becomes COMMITTED. -/
def jrnlCommit (n : Nat) (s : State) : State :=
  match s.sch.journal.find? (fun e => e.accept == n) with
  | some e =>
    if e.state = 3 then s else markPeer (vane vCommit e.asItem n 0xFF 0 (jrnlUpd n (fun e => { e with state := 2 }) s))
  | none => s

/-- R150: the entry may be freed: COMMITTED or POISONED, in a complete checkpoint, its RWP values persisted. -/
def JEntry.freeable (highest : Nat) (e : JEntry) : Bool :=
  decide (2 ≤ e.state) && decide (e.accept ≤ highest) && e.unpersisted.isEmpty

/-- The repeat keys of freed entries, the last freed first; an entry whose key is a node's OPEN flag has none. -/
def freedKeys (gone : List JEntry) : List (Nat × Nat × Nat) :=
  (gone.reverse.filter (fun e => e.dedup != 0)).map (fun e => (e.cls, e.source, e.dedup))

/-- R150: free what can be freed; the last 65,536 keys freed are kept (R144). -/
def jrnlFree (s : State) : State :=
  match s.sch.cps.head? with
  | none => s
  | some cp =>
    let gone := s.sch.journal.filter (JEntry.freeable cp.highest)
    let s := gone.foldl (fun s e => vane vFree e.asItem e.accept 0xFF (1 + e.cont) s) s
    let s := jrnlMarks true { s with
      sch.journal := s.sch.journal.filter (fun e => !e.freeable cp.highest)
      sch.freed := (freedKeys gone ++ s.sch.freed).take 65536 }
    upd (!gone.isEmpty) markPeer s

/-! ## Checkpoints (R149) -/

/-- The durable state, as a checkpoint holds it. -/
def snapshot (s : State) : Snapshot :=
  { highest := checkpointReach s, regs := s.regs, blobs := s.blobs,
    isOpen := (s.fld.nodes.filter (fun e => e.2.isOpen)).map (·.1), votes := s.fld.votes, lastVote := s.fld.lastVote,
    launches := s.isb.launches, claims := s.dic.claims, banks := [s.mix.xp0, s.mix.xp1]
    sections := [s.mix.ieq0, s.mix.ieq1, s.mix.oeq0, s.mix.oeq1] }

/-- R149: a checkpoint is due: CHECKPOINT_PERIOD has passed since the last began, or the journal has reached 50 % full. -/
def checkpointIsDue (s : State) : Bool := s.sch.cpDue || decide (s.sch.cpAt + rd s K.CHECKPOINT_PERIOD * ms1 ≤ clk s)

/-- A checkpoint of the durable state begins. -/
def checkpointStart (s : State) : State :=
  { s with sch.cpRunning := some (snapshot s), sch.cpAt := clk s, sch.cpDue := false }

/-- CHECKPOINT: a checkpoint starts once it is due, unless one is being written. -/
def execCheckpoint (s : State) : Res :=
  .next (if s.sch.cpRunning.isSome ∨ checkpointIsDue s = false then s else checkpointStart s)

/-- The checkpoint in progress is complete: it takes the older of the two areas. -/
def checkpointDone (s : State) : State :=
  match s.sch.cpRunning with
  | none => s
  | some cp =>
    jrnlFree (wr K.CHECKPOINT_AT (nowNs s) { s with sch.cpRunning := none, sch.cps := cp :: s.sch.cps.take 1 })

/-- CHECKPOINT_COMPLETE: the CRC is written on both channels. -/
def execCheckpointComplete (s : State) : Res := .next (checkpointDone s)

/-! ## Mirrors (R147) -/

/-- A channel is lost: if it holds a mirror, or one is being copied to it, the lowest-numbered channels in service that
hold none take over until there are two again; with one channel left the journal runs with one mirror. -/
def mirrorLost (ch : Nat) (s : State) : State :=
  let left := s.mem.active.filter (· != ch)
  let s := wr K.JRNL_MIRRORS (withBit (rd s K.JRNL_MIRRORS) ch false) { s with sch.copying := s.sch.copying.filter (· != ch) }
  let have_ := mirrorChans s ++ s.sch.copying
  let new := (left.filter (fun c => !have_.contains c)).take (2 - have_.length)
  wr K.JRNL_DEGRADED (b2n (decide (left.length < 2))) { s with sch.copying := s.sch.copying ++ new }

/-- The firmware image and the staged data of a mirror are copied with the journal (assumption 153). -/
def regionCopy (from_ dst : Nat) (s : State) : State :=
  (s.mem.cells.filter (fun e => decide (localBase from_ + stageArea ≤ e.1 ∧ e.1 < localBase from_ + imageArea + 64 * 0x100000))).foldl
    (fun s e => memWrite (e.1 - localBase from_ + localBase dst) [e.2] s) s

/-- MIRROR_COPY_DONE: the live journal is on its new channel. -/
def execMirrorCopyDone (s : State) : Res :=
  match s.sch.copying with
  | [] => .next s
  | c :: t =>
    let s := match mirrorChans s with | m :: _ => regionCopy m c s | [] => s
    .next { (wr K.JRNL_MIRRORS (withBit (rd s K.JRNL_MIRRORS) c true) s) with sch.copying := t }

/-! ## Lists and staging -/

/-- The cluster of an engine. -/
def clusterOf (me : Nat) : Nat := me / 16

/-- A cluster is neither retired nor FAILED. -/
def clusterOk (s : State) (c : Nat) : Bool := decide (rd s (K.CL_STATE c) < 4)

/-- The clusters of an AFFINITY mask; 00h means any. -/
def maskClusters (mask : Nat) : List Nat :=
  (List.range 8).filter (fun c => mask % 256 == 0 || bitOf mask c)

/-- STRICT_AFFINITY. -/
def isStrict (it : Item) : Bool := bitOf it.flags 3

/-- ORDERED. -/
def isOrdered (it : Item) : Bool := bitOf it.flags 0

/-- DURABLE. -/
def isDurable (it : Item) : Bool := bitOf it.flags 1

/-- Staging places per cluster (R133). -/
abbrev stagePlaces : Nat := 16384

/-- A cluster in service is parked: nothing is staged in it (R426). -/
def clusterParked (s : State) (c : Nat) : Bool := rd s (K.CL_STATE c) == 2 || rd s (K.CL_STATE c) == 3

/-- R133: the cluster an item is staged in, and whether it is then eligible everywhere. -/
def stageIn (s : State) (it : Item) : Option (Nat × Bool) :=
  let ok := (maskClusters it.affinity).filter (clusterOk s)
  let room := fun c => !clusterParked s c && decide (rd s (K.CL_STAGED c) < stagePlaces)
  if ok.isEmpty && !(isStrict it) then
    ((List.range 8).find? (fun c => clusterOk s c && room c)).map (fun c => (c, true))
  else (ok.find? room).map (fun c => (c, false))

/-- R426: an item whose AFFINITY names only parked clusters: the lowest-numbered of them, which wakes for it. -/
def parkedFor (s : State) (it : Item) : Option Nat :=
  let ok := (maskClusters it.affinity).filter (clusterOk s)
  if ok.all (clusterParked s) then ok.head? else none

/-- The ready list of a level. -/
def readyOf (s : State) (level : Nat) : List Staged := tabGet [] s.sch.ready level

/-- Items in ready and hold lists. -/
def readyItems (s : State) : Nat :=
  s.sch.ready.foldl (fun n e => n + e.2.length) 0 + s.sch.hold.foldl (fun n e => n + e.2.length) 0

/-- R136: an item among the first 8 of its list starts its AFFINITY_WAIT there. -/
def markFirst (now : Instant) (l : List Staged) : List Staged :=
  (l.take 8).map (fun st => if st.firstAt.isNone then { st with firstAt := some now } else st) ++ l.drop 8

/-- Write a ready list. -/
def setReady (level : Nat) (l : List Staged) (s : State) : State :=
  { s with sch.ready := tabSet [] s.sch.ready level (markFirst (clk s) l) }

/-- An item enters the tail of its level's list. -/
def toReady (st : Staged) (s : State) : State :=
  setReady st.it.level (readyOf s st.it.level ++ [{ st with readyAt := clk s }]) s

/-- An item enters the head of its level's list (R154). -/
def toReadyFirst (st : Staged) (s : State) : State :=
  setReady st.it.level ({ st with readyAt := clk s } :: readyOf s st.it.level) s

/-- Free a staging place. -/
def unstage (st : Staged) (s : State) : State :=
  if st.cluster < 8 then wr (K.CL_STAGED st.cluster) (rd s (K.CL_STAGED st.cluster) - 1) s else s

/-- R140: the due instant of an item of DELAY d accepted at t. -/
def dueAt (t : Instant) (d : Nat) : Instant := ceilTo us1 t + d * us1

/-- DELAY of an item, in ticks. -/
def delayTicks (it : Item) : Nat := it.delay % 16777216

/-- The delay list holds 65,536 items. -/
abbrev delayPlaces : Nat := 65536

/-- An accepted item enters the delay list or its ready list. -/
def place (st : Staged) (s : State) : State :=
  if (delayTicks st.it) = 0 ∨ (st.due ≠ 0 ∧ st.due ≤ s.isb.now) then toReady st s
  else
    let due := if st.due = 0 then dueAt s.isb.now (delayTicks st.it) else st.due
    vane vDelayIn st.it st.accept 0xFF (due / ns1 % 4294967296)
      { s with sch.delay := s.sch.delay ++ [{ st with due := due }] }

/-! ## Enqueue (R138) -/

/-- Source port of a host queue. -/
def sqPort (q : Nat) : Nat := 9 + q

/-- A kernel type is bound while an enabled binding names it (R185). -/
def boundBy (s : State) (typ : Nat) : Option Nat :=
  (List.range 256).find? (fun e => rd s (K.B_EN e) == 1 && rd s (K.B_TYPE e) == typ)

/-- TYPE is a firmware type, or a kernel type that is bound. -/
def typeOk (s : State) (typ : Nat) : Bool :=
  decide (1 ≤ typ ∧ typ ≤ 0xFF) || (decide (0x100 ≤ typ ∧ typ ≤ 0xFFF) && (boundBy s typ).isSome)

/-- Table SCH-3: the first failing check in table order. -/
def enqueueCheck (s : State) (source : Nat) (it : Item) : Status :=
  let host := decide (9 ≤ source ∧ source ≤ 16)
  if !typeOk s it.typ then .noEntry
  else if (host && decide (it.level % 16 < rd s (K.SQ_MIN_LEVEL (source - 9)))) || decide (16 ≤ it.level)
      || decide (16 ≤ it.flags) || it.reserved != 0 || (!(isDurable it) && it.cls != 0) || decide (16777216 ≤ it.delay)
    then .range
  else if host && (isDurable it) && (it.cls != 7 || it.dedup == 0) then .range
  else if (isStrict it) && ((maskClusters it.affinity).filter (clusterOk s)).isEmpty then .retired
  else if ((stageIn s it).isNone && (parkedFor s it).isNone) || ((delayTicks it) != 0 && decide (delayPlaces ≤ s.sch.delay.length))
      || ((isDurable it) && (jrnlFit s 0).isNone) then .busy
  else .ok

/-- What became of an enqueue. -/
inductive Enq where
  | accepted (accept : Nat)
  /-- durable, written to the journal under this number -/
  | pending (accept : Nat)
  | rejected (st : Status)
  /-- waiting at its port (R151, R456) -/
  | held
deriving DecidableEq, Repr

/-- Count a rejected enqueue. -/
def reject (source : Nat) (it : Item) (st : Status) (s : State) : State :=
  bump K.ENQ_REJECTS (vane vReject { it with source := source } 0 0xFF st.code s)

/-- Present an item at a source port. `slot` is the queue slot it came from. -/
def enqueue (source slot : Nat) (it : Item) (s : State) : Enq × State :=
  let it := { it with source := source, accept := 0 }
  if replaying s || !serves s || ((isDurable it) && s.pair.holding) then (.held, s) else
  match enqueueCheck s source it with
  | .ok =>
    match parkedFor s it, stageIn s it with
    | some c, _ => (.held, wakeDomain (c + 1) s)
    | none, none => (.rejected .busy, reject source it .busy s)
    | none, some (c, any) =>
      let n := s.sch.nextAccept
      let st : Staged := { it := { it with accept := n }, accept := n, cluster := c, anywhere := any }
      let stage := fun s => vane vEnqueue it 0 0xFF c (bump (K.CL_STAGED c) s)
      if (isDurable it) then
        match jrnlWrite it.cls source it.typ (flowOrNone it) it.level 24 (if it.dedup = 0 then none else some it.dedup) (.host st slot) s with
        | (.written n, s) => (.pending n, stage s)
        | (.repeatDone, s) => (.accepted 0, s)
        | (.repeatPending n, s) =>
          (.pending n, { s with sch.heldRepeats := s.sch.heldRepeats ++ [(n, source, slot)] })
        | (.busy, s) => (.rejected .busy, reject source it .busy s)
      else
        let s := stage { s with sch.nextAccept := n + 1 }
        (.accepted n, place st (syncAccept s))
  | st => (.rejected st, reject source it st s)

/-- An item presented by an engine or a block of the hub: the port gets the enqueue response, or holds the item. -/
def presentItem (source : Nat) (it : Item) (s : State) : State :=
  match enqueue source 0 it s with
  | (.accepted n, s) => emit (.enqueued source 0 n) s
  | (.pending _, s) => s
  | (.rejected st, s) => emit (.enqueued source st.code 0) s
  | (.held, s) => { s with sch.held := s.sch.held ++ [(source, .host { it := it } 0)] }

/-- WORK_ENQUEUE. -/
def execWorkEnqueue (source : Nat) (it : Item) (s : State) : Res := .next (presentItem source it s)

/-! ## Host submission queues (R157) -/

/-- A host queue. -/
def sqOf (s : State) (q : Nat) : Sq := tabGet {} s.sch.sqs q

/-- Change a host queue. -/
def sqUpd (q : Nat) (f : Sq → Sq) (s : State) : State := { s with sch.sqs := tabMod {} s.sch.sqs q f }

/-- Table SCH-1: the item written in 64 octets. -/
def itemOf (bs : Bytes) : Item :=
  { typ := leAt bs 0 2, level := leAt bs 2 1, flags := leAt bs 3 1, flow := leAt bs 4 2, affinity := leAt bs 6 1,
    cls := leAt bs 7 1, delay := leAt bs 8 4, reserved := leAt bs 13 3, dedup := leAt bs 16 8,
    payload := slice bs 32 32 }

/-- The octets of a slot. -/
def sqSlot (q : Sq) (slot : Nat) : Bytes := (List.range 64).map (fun i => tabGet 0 q.slots (slot * 64 + i))

/-- SQ.HEAD passes every slot read whose outcome is known, in order. -/
def headOver : Nat → Sq → Sq
  | 0, q => q
  | n + 1, q =>
    if q.head ≠ q.next ∧ q.head ∈ q.done then
      headOver n { q with head := (q.head + 1) % 64, done := q.done.erase q.head }
    else q

/-- The outcome of a slot is known. -/
def sqDone (q slot : Nat) (s : State) : State :=
  sqUpd q (fun x => headOver 64 { x with done := slot :: x.done }) s

/-- Record a rejection: the first since the last read is kept (SQ.ERR). -/
def sqReject (q slot : Nat) (st : Status) (s : State) : State :=
  let s := sqUpd q (fun x =>
    { x with errStatus := if x.errCount = 0 then st.code else x.errStatus
             errSlot := if x.errCount = 0 then slot else x.errSlot
             errCount := min (x.errCount + 1) 0xFFFF }) s
  schEvt q (bump (K.SQ_REJECTED q) s)

/-- Read slots from the queue up to its tail; work held at the port stops the reading. -/
def sqRead (q : Nat) : Nat → State → State
  | 0, s => s
  | n + 1, s =>
    let x := sqOf s q
    if x.next = x.tail then s else
    let slot := x.next
    let take := fun s => sqUpd q (fun x => { x with next := (slot + 1) % 64 }) s
    match enqueue (sqPort q) slot (itemOf (sqSlot x slot)) s with
    | (.accepted _, s) => sqRead q n (sqDone q slot (take (bump (K.SQ_SUBMITTED q) s)))
    | (.pending _, s) => sqRead q n (take (bump (K.SQ_SUBMITTED q) s))
    | (.rejected st, s) => sqRead q n (sqDone q slot (sqReject q slot st (take s)))
    | (.held, s) => s

/-- A write of SQ.TAIL, the doorbell (R157). -/
def sqTailPut (q value : Nat) (s : State) : State :=
  let x := sqOf s q
  let t := value % 64
  if rd s (K.SQ_EN q) = 0 then bump (K.SQ_REJECTED q) s
  else if t = x.tail then s
  else if (x.head + 63 - x.tail) % 64 < (t + 64 - x.tail) % 64 then bump (K.SQ_REJECTED q) s
  else
    let s := sqUpd q (fun x => { x with tail := t }) s
    if hubPower s = hpRun then sqRead q 64 s else s

/-- SQ_TAIL_WRITE. -/
def execSqTailWrite (q : Fin 8) (value : Nat) (s : State) : Res := .next (sqTailPut q.val value s)

/-- SQ.ERR as a read returns it. -/
def sqErrValue (x : Sq) : Nat := x.errStatus * 16777216 + x.errSlot * 65536 + x.errCount

/-- SQ_ERR_READ: returns the first rejection and clears it. -/
def execSqErrRead (fn : Nat) (q : Fin 8) (s : State) : Res :=
  .next (sqUpd q.val (fun x => { x with errStatus := 0, errSlot := 0, errCount := 0 })
    (emit (.regRead fn 0 (0x6108 + 0x10 * q.val) (sqErrValue (sqOf s q.val))) s))

/-- ACCEPT_LO_READ: the low bits of the last accepted number; ACCEPT_HI is latched (Table SCH-7). -/
def execAcceptLoRead (fn : Nat) (s : State) : Res :=
  let n := rd s K.LAST_ACCEPT
  .next (emit (.regRead fn 0 0x600C (n % 4294967296)) { s with sch.acceptHi := n / 4294967296 })

/-- Durable class of a piece of work (Table SCH-5). -/
def classOf : Durable → Nat
  | .nodeEvent .. => 2
  | .nodeClear _ => 3
  | .launchArm .. => 4
  | .launchCancel .. => 4
  | .legCtrl .. => 5
  | .voteSeal .. => 6
  | .host .. => 7
  | _ => 1

/-- Repeat keys of work of the hub's own units (Table SCH-5): slot and write count, session and open instant; a node's work
has the OPEN flag. -/
def workKey (s : State) : Durable → Option Nat
  | .launchArm n _ | .launchCancel n => some (n * 4294967296 + (tabGet {} s.isb.launches n).writes + 1)
  | .voteSeal v openAt => some (openAt * 16 + v + 1)
  | _ => none

/-- Present durable work to the journal, or hold it at its port while replay runs or a pair holds new work (R151, R456). -/
def presentWork (source octets : Nat) (w : Durable) (s : State) : State :=
  if replaying s || s.pair.holding then { s with sch.held := s.sch.held ++ [(source, w)] }
  else (jrnlWrite (classOf w) source 0 0xFFFF 0 octets (workKey s w) w s).2

/-- Work held at a port, in ascending port index; of one port in the order it came (R134). -/
def insPort (x : Nat × Durable) : List (Nat × Durable) → List (Nat × Durable)
  | [] => [x]
  | y :: t => if x.1 < y.1 then x :: y :: t else y :: insPort x t

/-- Work held at its port is presented again. -/
def presentHeld (s : State) (e : Nat × Durable) : State :=
  match e.2 with
  | .host st _ => presentItem e.1 st.it s
  | act => presentWork e.1 24 act s

/-- The work held at the source ports is presented again, in ascending port index (R134). -/
def retryHeld (s : State) : State :=
  let l := s.sch.held.foldl (fun l x => insPort x l) []
  let s := (l.filter (fun e => decide (e.1 < 9))).foldl presentHeld { s with sch.held := [] }
  let s := if hubPower s = hpRun then (List.range 8).foldl (fun s q => sqRead q 64 s) s else s
  (l.filter (fun e => decide (9 ≤ e.1))).foldl presentHeld s

/-! ## Delay list (R140) -/

/-- Insert in acceptance order. -/
def insAccept (x : Staged) : List Staged → List Staged
  | [] => [x]
  | y :: t => if x.accept < y.accept then x :: y :: t else y :: insAccept x t

/-- DELAY_DUE: at a whole microsecond, the items whose due instant has come enter their ready lists in acceptance
order. -/
def delayDue (s : State) : State :=
  let due := (s.sch.delay.filter (fun st => decide (st.due ≤ s.isb.now))).foldr insAccept []
  let s := { s with sch.delay := s.sch.delay.filter (fun st => !decide (st.due ≤ s.isb.now)) }
  due.foldl (fun s st => toReady st (vane vDelayDue st.it st.accept 0xFF 0 s)) s

/-- The earliest due instant of the delay list. -/
def delayFirst (s : State) : Option Instant :=
  s.sch.delay.foldl (fun (b : Option Instant) st => some (match b with | some t => min t st.due | none => st.due)) none

/-- DELAY_DUE. A sleeping hub wakes for an item that falls due, a TIMED source; the item enters once the hub runs. -/
def execDelayDue (s : State) : Res :=
  let due := match delayFirst s with | some t => decide (t ≤ s.isb.now) | none => false
  .next (if hubPower s = hpRun then delayDue s else if due then wakeHub 0x12 s else s)

/-! ## Dispatch (R136, R137, R141, R142) -/

/-- The item running on an engine. -/
def runningOn (s : State) (me : Nat) : Option Staged := tabGet none s.sch.running me

/-- The ordered items of a flow in flight. -/
def inflightOf (s : State) (flow : Nat) : List InFlight := tabGet [] s.sch.inflight flow

/-- Free places of the reorder store. -/
def reorderFree (s : State) : Nat := 32768 - s.sch.inflight.foldl (fun n e => n + e.2.length) 0

/-- R136: the engine's cluster may run the item; after a fault another engine than the one it faulted on (R154). -/
def affinityOk (st : Staged) (me : Nat) : Bool :=
  (st.it.affinity % 256 == 0 || bitOf st.it.affinity (clusterOf me) || st.anywhere || (!(isStrict st.it) && st.waited))
    && st.notMe != some me

/-- The item is in flight already: it is being re-dispatched (R154). -/
def isInflight (s : State) (st : Staged) : Bool :=
  (inflightOf s st.it.flow).any (fun x => x.st.accept == st.accept)

/-- An item fails on its flow window: it moves to the flow's hold list. -/
def toHold (st : Staged) (s : State) : State :=
  let s := setReady st.it.level ((readyOf s st.it.level).filter (fun x => x.accept != st.accept)) s
  let st' := { st with firstAt := none, waited := false }
  let s := { s with sch.hold := tabMod [] s.sch.hold st.it.flow (fun l => l ++ [st']) }
  vane vWindowFull st.it st.accept 0xFF (inflightOf s st.it.flow).length (bump K.WINDOW_STALLS s)

/-- Scan the first 8 items of a level for one the engine may run. -/
def scanLevel (me : Nat) : List Staged → State → Option Staged × State
  | [], s => (none, s)
  | st :: t, s =>
    if !affinityOk st me then scanLevel me t s
    else if (isOrdered st.it) && !isInflight s st then
      if rd s K.ORDER_WINDOW ≤ (inflightOf s st.it.flow).length then scanLevel me t (toHold st s)
      else if reorderFree s = 0 then scanLevel me t (bump K.REORDER_STALLS s)
      else (some st, s)
    else (some st, s)

/-- The most urgent level with an eligible item. -/
def scanLevels (me : Nat) : List Nat → State → Option Staged × State
  | [], s => (none, s)
  | lvl :: t, s =>
    match scanLevel me ((readyOf s lvl).take 8) s with
    | (some st, s) => (some st, s)
    | (none, s) => scanLevels me t s

/-- Insert into a flow's list in acceptance order. -/
def insInflight (x : InFlight) : List InFlight → List InFlight
  | [] => [x]
  | y :: t => if x.st.accept < y.st.accept then x :: y :: t else y :: insInflight x t

/-- RUN_LIMIT of an item's type: the binding's, or 1 ms (R139). -/
def runLimit (s : State) (typ : Nat) : Instant :=
  match boundBy s typ with
  | some e => if 0x100 ≤ typ then rd s (K.B_RUN_LIMIT e) * us1 else ms1
  | none => ms1

/-- An ordered item starts: it joins its flow's items in flight, or, dispatched again, is where it was with its new place. -/
def joinFlow (me : Nat) (st : Staged) (s : State) : State :=
  if !(isOrdered st.it) then s
  else { s with sch.inflight := tabMod [] s.sch.inflight st.it.flow (fun l =>
    if l.any (fun x => x.st.accept == st.accept) then
      l.map (fun x => if x.st.accept = st.accept then { x with st := st, me := me } else x)
    else insInflight { st := st, me := me } l) }

/-- The item starts on the engine. -/
def startItem (me : Nat) (st : Staged) (s : State) : State :=
  let st := { st with startedAt := clk s, limit := runLimit s st.it.typ, paused := 0, notMe := none }
  let s := setReady st.it.level ((readyOf s st.it.level).filter (fun x => x.accept != st.accept)) s
  let s := joinFlow me st s
  let s := { s with
    sch.running := tabSet none s.sch.running me (some st)
    sch.dispatches := clk s :: s.sch.dispatches.filter (fun t => decide (clk s < t + s1)) }
  vane vDispatch st.it st.accept me ((clk s - st.readyAt) / ns1) (bump (K.ME_ITEMS me) s)

/-- An engine that may take work: in RUN, or woken from LULL, idle, its cluster in RUN or LULL, the scheduler running. -/
def meAsks (s : State) (me : Nat) : Bool :=
  decide (rd s (K.ME_STATE me) ≤ 1) && decide (rd s (K.CL_STATE (clusterOf me)) ≤ 1) && (runningOn s me).isNone
    && (rd s K.SCHED_STATE == 0 || rd s K.SCHED_STATE == 2) && serves s

/-- An engine leaves LULL, and its cluster with it. -/
def meWakes (me : Nat) (s : State) : State :=
  let c := clusterOf me
  let s := upd (rd s (K.CL_STATE c) == 1) (wr (K.CL_STATE c) 0) (wr (K.ME_STATE me) 0 s)
  leaveLull (c + 1) s

/-- One dispatch; the item started, if any. -/
def dispatch (me : Nat) (s : State) : Option Staged × State :=
  if !meAsks s me then (none, s) else
  match scanLevels me (List.range 16) s with
  | (none, s) => (none, s)
  | (some st, s) => (some st, startItem me st (meWakes me s))

/-- AFFINITY_WAIT_EXPIRY: the item has been among the first 8 of its list for AFFINITY_WAIT. -/
def execAffinityWaitExpiry (accept : Nat) (s : State) : Res :=
  .next { s with sch.ready := tabMap [] s.sch.ready (fun _ l => l.map (fun st =>
    if decide (st.accept = accept) && !isStrict st.it && st.firstAt.any (fun t =>
      decide (t + rd s K.AFFINITY_WAIT * us1 ≤ clk s)) then { st with waited := true } else st)) }

/-! ## Completion and release (R143) -/

/-- Perform an output action of a released item. -/
def perform (source accept : Nat) (a : OutAct) (s : State) : State :=
  match a with
  | .queueRelease q n => emit (.release q n) s
  | .enqueue it => presentItem source it s
  | .dictUpdate i j v => wr (key i j 0) v s
  | .notify v => emit (.msix v) s
  | .failed c => emit (.failed accept c) s

/-- Release an item: its actions in order, its entry COMMITTED, its staging place freed. -/
def releaseItem (me : Nat) (st : Staged) (actions : List OutAct) (s : State) : State :=
  let s := (actions.take 8).foldl (fun s a => perform (32 + me) st.accept a s) s
  let s := vane vRelease st.it st.accept me (actions.take 8).length s
  unstage st (if (isDurable st.it) then jrnlCommit st.accept s else s)

/-- A place of the flow's window opened: its oldest held item returns to the tail of its level's list. -/
def unhold (flow : Nat) (s : State) : State :=
  match tabGet [] s.sch.hold flow with
  | [] => s
  | st :: t =>
    if (inflightOf s flow).length < rd s K.ORDER_WINDOW then
      toReady st { s with sch.hold := tabSet [] s.sch.hold flow t }
    else s

/-- Release the completed items at the head of a flow, each through the port of the engine it ran on. -/
def releaseFlow (flow : Nat) : Nat → State → State
  | 0, s => s
  | n + 1, s =>
    match inflightOf s flow with
    | x :: t =>
      if x.done then
        let s := { s with sch.inflight := tabSet [] s.sch.inflight flow t }
        let s := if x.discarded then s else releaseItem x.me x.st x.actions s
        releaseFlow flow n (unhold flow s)
      else s
    | [] => s

/-- An item completes with its result; it is released now, or when every earlier item of its flow has been. One that never
ran (R155) joins its flow first. -/
def completeItem (me : Nat) (st : Staged) (actions : List OutAct) (s : State) : State :=
  if (isOrdered st.it) then
    let s := joinFlow me st s
    let s := { s with sch.inflight := tabMod [] s.sch.inflight st.it.flow (fun l =>
      l.map (fun x => if x.st.accept = st.accept then { x with done := true, actions := actions } else x)) }
    releaseFlow st.it.flow (inflightOf s st.it.flow).length s
  else releaseItem me st actions s

/-- The item running on an engine ends there. -/
def endRun (me : Nat) (st : Staged) (s : State) : State :=
  { s with
    sch.running := tabSet none s.sch.running me none
    sch.busy := tabMod [] s.sch.busy me (fun l =>
      (st.startedAt, clk s) :: l.filter (fun r => decide (clk s < r.2 + s1))) }

/-- The item running on an engine completes. -/
def completeOn (me : Nat) (actions : List OutAct) (s : State) : State :=
  match runningOn s me with
  | none => s
  | some st =>
    completeItem me st actions
      (vane vComplete st.it st.accept me ((clk s - st.startedAt) / ns1) (endRun me st s))

/-! ## Faults (R154, R155) -/

/-- An item becomes POISONED: its entry is marked, it is recorded, and it is released with a FAILED action. -/
def poison (me : Nat) (st : Staged) (code : Option Nat) (s : State) : State :=
  let s := if (isDurable st.it) then jrnlUpd st.accept (fun e => { e with state := 3 }) s else s
  let s := storm 0x0021 (stormChannel 0xFF 0) [st.accept, st.it.typ, (flowOrNone st.it)] s
  completeItem me st [.failed code] (schEvt 10 (bump K.POISONED s))

/-- R154: the item of a faulted run goes ahead of its level, or is POISONED. -/
def redispatch (me : Nat) (s : State) : State :=
  match runningOn s me with
  | none => s
  | some st =>
    let s := endRun me st s
    if rd s K.REDISPATCH_LIMIT ≤ st.retries then poison me st none s
    else
      let st := { st with retries := st.retries + 1, firstAt := none, waited := false, notMe := some me }
      let s := jrnlUpd st.accept (fun e => { e with retries := st.retries }) s
      vane vRedispatch st.it st.accept me st.retries (bump K.REDISPATCHES (toReadyFirst st s))

/-- R155: a non-durable item of a lost cluster is discarded; `gone`: its only permitted clusters are, which its source is
told. -/
def discardItem (gone : Bool) (st : Staged) (s : State) : State :=
  let s := bump K.LOST_ITEMS (schEvt 9 s)
  let s := upd gone (emit (.enqueued st.it.source 0x0A st.accept)) s
  if (isOrdered st.it) && isInflight s st then
    let s := { s with sch.inflight := tabMod [] s.sch.inflight st.it.flow (fun l =>
      l.map (fun x => if x.st.accept = st.accept then { x with done := true, discarded := true } else x)) }
    releaseFlow st.it.flow (inflightOf s st.it.flow).length s
  else s

/-- R155: what becomes of an item staged in a lost cluster, once it has left its list. `back` puts it back. -/
def restage (c : Nat) (st : Staged) (back : Staged → State → State) (s : State) : State :=
  let s := unstage st s
  let gone := isStrict st.it && (((maskClusters st.it.affinity).filter (clusterOk s)).filter (· != c)).isEmpty
  if !(isDurable st.it) then discardItem gone st s
  else if gone then poison 0xFF { st with cluster := 8 } (some 0x0A) s
  else
    let room := fun d => d != c && clusterOk s d && decide (rd s (K.CL_STAGED d) < stagePlaces)
    match (maskClusters st.it.affinity).find? room with
    | some d => back { st with cluster := d } (bump (K.CL_STAGED d) s)
    | none => match (List.range 8).find? room with
      | some d => back { st with cluster := d, anywhere := true } (bump (K.CL_STAGED d) s)
      | none => back { st with cluster := 8, anywhere := true } s

/-- An item back in flight is no longer complete: it runs again from its journal entry (R155). -/
def undone (st : Staged) (s : State) : State :=
  { s with sch.inflight := tabMod [] s.sch.inflight st.it.flow (fun l =>
    l.map (fun x => if x.st.accept = st.accept then { x with st := st, done := false, actions := [] } else x)) }

/-- A durable item not yet accepted was poisoned: its source is told, and its queue passes its slot. -/
def pendingEnds (n slot : Nat) (st : Staged) (s : State) : State :=
  if s.sch.journal.any (fun x => x.accept == n && x.state == 3) then
    (if 9 ≤ st.it.source ∧ st.it.source ≤ 16 then sqDone (st.it.source - 9) slot (sqReject (st.it.source - 9) slot .retired s)
     else emit (.enqueued st.it.source 0x0A n) s)
  else s

/-- A durable item not yet accepted waits with its new place; one whose only clusters are gone is answered. -/
def restagePending (c : Nat) (e : JEntry) (s : State) : State :=
  match e.act with
  | .host st slot =>
    if e.state ≠ 0 ∨ st.cluster ≠ c then s else
    let st := { st with accept := e.accept }
    pendingEnds e.accept slot st
      (restage c st (fun st s => jrnlUpd e.accept (fun x => { x with act := .host st slot }) s) s)
  | _ => s

/-- R155: a cluster faults, is retired or FAILED: the items staged in it. -/
def clusterLost (c : Nat) (s : State) : State :=
  let inC := fun (st : Staged) => st.cluster == c
  -- items waiting in ready, hold and delay lists
  let rdy := s.sch.ready.foldl (fun l e => l ++ e.2.filter inC) []
  let hld := s.sch.hold.foldl (fun l e => l ++ e.2.filter inC) []
  let dly := s.sch.delay.filter inC
  let s := { s with
    sch.ready := tabMap [] s.sch.ready (fun _ l => l.filter (fun st => !inC st))
    sch.hold := tabMap [] s.sch.hold (fun _ l => l.filter (fun st => !inC st))
    sch.delay := s.sch.delay.filter (fun st => !inC st) }
  let s := (rdy ++ hld).foldl (fun s st => restage c st toReady s) s
  let s := dly.foldl (fun s st => restage c st (fun st s => { s with sch.delay := s.sch.delay ++ [st] }) s) s
  let s := s.sch.journal.foldl (fun s e => restagePending c e s) s
  -- items complete and not yet released
  let ended := s.sch.inflight.flatMap (fun e => (e.2.filter (fun x => x.done && !x.discarded && inC x.st)).map InFlight.st)
  let s := ended.foldl (fun s st => restage c st (fun st s => toReadyFirst st (undone st s)) s) s
  -- items running: those staged here lose their place, those running here are re-dispatched
  (List.range 128).foldl (fun s me =>
    match runningOn s me with
    | none => s
    | some st =>
      if inC st then restage c st toReadyFirst (endRun me st s)
      else if clusterOf me = c then redispatch me s else s) s

/-! ## Payloads lost with a DRAM channel (R156) -/

/-- Items of a test leave their lists and are POISONED. -/
def poisonWhere (hit : Staged → Bool) (s : State) : State :=
  let l := s.sch.ready.flatMap (fun e => e.2.filter hit) ++ s.sch.hold.flatMap (fun e => e.2.filter hit) ++ s.sch.delay.filter hit
  let s := { s with
    sch.ready := tabMap [] s.sch.ready (fun _ l => l.filter (fun st => !hit st))
    sch.hold := tabMap [] s.sch.hold (fun _ l => l.filter (fun st => !hit st))
    sch.delay := s.sch.delay.filter (fun st => !hit st) }
  l.foldl (fun s st => poison 0xFF st none s) s

/-- SCHED_STATS_CLEAR's effect: ACCEPT_MAX and the counters of F800 and F803. -/
def clearSchedStats (s : State) : State :=
  [K.ACCEPT_MAX, K.LOST_ITEMS, K.ENQ_REJECTS, K.POISONED, K.REORDER_STALLS, K.WINDOW_STALLS].foldl
    (fun s k => wr k 0 s) s

end Sys2Proof.Machine
end

