-- ==== Sys2Proof/Machine/Lanok.lean ====
section
/-! DEFINITION. The Lanok link between the two dies (R64–R68): sending, acknowledging, re-sending. -/
namespace Sys2Proof.Machine

/-- A message leaves a die. -/
def lanokEmit (hub : Bool) (seq ack : Nat) (m : LMsg) (s : State) : State :=
  emit (.lanokOctets hub (lanokFrame seq ack m)) (emit (.lanok hub seq ack m) s)

/-- The message is carried reliably (Table FLD-3). -/
def LMsg.reliable (m : LMsg) : Bool := m.typ == 0x04 || decide (0x12 ≤ m.typ)

/-- The link is up. -/
def lanokUp (s : State) : Bool := rd s K.LANOK_STATE == 2

/-- The end of a die: the hub's or the field die's. -/
def endOf (hub : Bool) (s : State) : LanokEnd := if hub then s.fld.hubEnd else s.fld.fieldEnd

/-- Change an end. -/
def endUpd (hub : Bool) (f : LanokEnd → LanokEnd) (s : State) : State :=
  if hub then { s with fld.hubEnd := f s.fld.hubEnd } else { s with fld.fieldEnd := f s.fld.fieldEnd }

/-- SEQ values are 16 bits. -/
def seqNext (n : Nat) : Nat := (n + 1) % 65536

/-- R461: a standby whose listener masters a segment relays it while the pair link is up. -/
def relaying (s : State) : Bool :=
  rd s K.ROLE == 2 && pairLinkUp s && (List.range 8).any (fun t => rd s (K.TRUNK_STATE t) == 3)

/-- The active sends the peer, which relays a segment, what concerns nodes its own field die does not serve. -/
def relaysTo (s : State) (m : LMsg) : Bool :=
  rd s K.ROLE == 1 && pairLinkUp s && s.pair.peerRelays
    && (match m with
      | .nodeAck n => rd s (K.NODE_STATE n) != 1
      | .dictRsp i _ => i.tr == 4 && rd s (K.NODE_STATE i.sub) != 1
      | .launchCmd .. => true
      | .launchCancel .. => true
      | _ => false)

/-- A message of the field die reaches the hub: a relaying standby passes it on, another standby leaves it. -/
def hubGets (m : LMsg) (f : State → State) (s : State) : State :=
  if relaying s then pairSend (.relayMsg false m) s else if rd s K.ROLE = 2 then s else f s

/-- A die sends a message, `hub` naming the sender. At most 64 reliable messages are unacknowledged. -/
def lanokSend (hub : Bool) (m : LMsg) (s : State) : State :=
  let s := upd (hub && relaysTo s m) (pairSend (.relayMsg true m)) s
  if !lanokUp s then s else
  let e := endOf hub s
  if m.reliable then
    if 64 ≤ e.unacked.length then endUpd hub (fun e => { e with waiting := e.waiting ++ [m] }) s
    else
      let q := seqNext e.txSeq
      lanokEmit hub q e.rxSeq m (endUpd hub (fun e =>
        { e with txSeq := q, unacked := e.unacked ++ [{ seq := q, at_ := clk s, msg := m }] }) s)
  else
    let q := seqNext (tabGet 0 e.counters m.typ)
    lanokEmit hub q e.rxSeq m (endUpd hub (fun e => { e with counters := tabSet 0 e.counters m.typ q }) s)

/-- R65: the message sent next, the oldest of the lowest class. -/
def lanokNext (l : List LMsg) : Option LMsg := [0, 1, 2].findSome? (fun c => l.find? (fun m => m.cls == c))

/-- Messages waiting for the window are sent. -/
def lanokDrain (hub : Bool) : Nat → State → State
  | 0, s => s
  | n + 1, s =>
    let e := endOf hub s
    match lanokNext e.waiting with
    | none => s
    | some m =>
      if 64 ≤ e.unacked.length then s
      else lanokDrain hub n (lanokSend hub m (endUpd hub (fun e => { e with waiting := e.waiting.erase m }) s))

/-- An acknowledgement reaches a die: every message up to it is done. -/
def lanokAck (hub : Bool) (ack : Nat) (s : State) : State :=
  let e := endOf hub s
  if e.unacked.any (fun u => u.seq == ack) then
    let rest := (e.unacked.dropWhile (fun u => u.seq != ack)).drop 1
    lanokDrain hub 64 (endUpd hub (fun e => { e with unacked := rest }) s)
  else s

/-- A die receives a message with its header; the flag says it is to be acted on. Out of order and duplicated
reliable messages are discarded (R65). -/
def lanokRecv (hub : Bool) (reliable : Bool) (h : LHdr) (s : State) : Bool × State :=
  if !lanokUp s then (false, s) else
  let s := lanokAck hub h.ack (endUpd hub (fun e => { e with crcRun := 0 }) s)
  if !reliable then (true, s)
  else if h.seq = seqNext (endOf hub s).rxSeq then (true, endUpd hub (fun e => { e with rxSeq := h.seq }) s)
  else (false, s)

/-- Receive, then act. -/
def onLanok (hub : Bool) (reliable : Bool) (h : LHdr) (f : State → State) (s : State) : Res :=
  match lanokRecv hub reliable h s with
  | (true, s) => .next (f s)
  | (false, s) => .next s

/-! ## Responses on CAN (R104, R125) -/

def canOf (s : State) (b : Nat) : Can := tabGet {} s.fld.cans b
def canUpd (b : Nat) (f : Can → Can) (s : State) : State := { s with fld.cans := tabMod {} s.fld.cans b f }

/-- Lengths of a CAN FD frame's data. -/
def canLength (n : Nat) : Nat := if n ≤ 8 then n else ([12, 16, 20, 24, 32, 48].find? (fun m => decide (n ≤ m))).getD 64

/-- Frames of a response from the `count`-th on. -/
def canFrames (b : Nat) : Nat → Nat → Bytes → State → State
  | 0, _, _, s => s
  | fuel + 1, count, env, s =>
    let chunk := env.take 63
    let rest := env.drop 63
    let head := (if count = 0 then 0x80 else 0) + (if rest.isEmpty then 0x40 else 0) + count % 64
    let octets := leBytes 1 head ++ slice chunk 0 (canLength (chunk.length + 1) - 1)
    let s := emit (.can b (0x3C0 + rdF s (K.CAN_NODE_ID b)) (rdF s (K.CAN_DATA b) != 0) octets) s
    if rest.isEmpty then s else canFrames b fuel (count + 1) rest s

/-- A response goes to a CAN bus: identifier 3C0h + CAN_NODE_ID, with bit rate switching when CAN_DATA is not 0. An
unsolicited COMPLETE leaves owed what is owed (R125). -/
def canSend (b : Nat) (env : Bytes) (s : State) : State := 
  canFrames b 16 0 env (canUpd b (fun c => { c with owed := if leAt env 8 1 = 0x8F then c.owed else none }) s)

/-- The response without a value to the request an envelope holds, not authenticated. -/
def plainReply (env : Bytes) (st : Status) : Bytes :=
  slice env 0 4 ++ [0, 0, 0, 0] ++ leBytes 1 (leAt env 8 1 % 128 + 128) ++ slice env 9 4 ++ leBytes 1 st.code ++ [0, 0]

/-- R119: what waits for the hub when the link goes is answered BUSY. -/
def canLost (s : State) : State :=
  [0, 1].foldl (fun s b => match (canOf s b).owed with | some env => canSend b (plainReply env .busy) s | none => s)
    { s with fld.heldReq := [] }

/-- Field keys the field die holds and loses with its supply or FRST_N: the RO keys of 1400–5FFF but the link and event
counts, vote sessions and OPEN flags, which the hub keeps; and the pin levels. -/
def fieldHeld (k : Nat) : Bool :=
  let i := keyIndex k
  decide (0x1400 ≤ i ∧ i < 0x6000) && !(i == 0x1401 || i == 0x1402 || (decide (0x1500 ≤ i ∧ i < 0x1510)))
    && !(decide (0x2000 ≤ i) && keySub k == 0x0B)
    && (match entryOf i (keySub k) with
        | some e => e.acc == .ro || (decide (0x1430 ≤ i ∧ i < 0x1440) && e.sub == 4)
        | none => false)

/-- HD_STATE (R102): 1411:01 open microphones, 02 slots in ascending node number, 03 queue. -/
def hdStateOctets (s : State) (sub : Nat) : Bytes :=
  let h := s.fld.hd
  let b := if sub = 1 then h.opened.flatMap (fun x => leBytes 2 (x / 16))
    else if sub = 2 then s.fld.nodes.flatMap (fun e => e.2.endpoints.flatMap (fun p =>
      match p.2.slot with
      | some k => leBytes 2 e.1 ++ leBytes 1 k ++ leBytes 1 (b2n (h.closing.contains (e.1 * 16 + p.1)
          || p.2.opening.any (fun r => r.new == 0 && decide (r.k < r.n))))
      | none => []))
    else h.queue.flatMap (leBytes 2)
  b.take 256

/-- What the hub has seen of the field die when the link goes down. -/
def hubSnapshot (s : State) : State :=
  if !lanokUp s then s
  else { s with fld.seenKeys := some (s.regs.filter (fun e => fieldHeld e.1), [1, 2, 3].map (hdStateOctets s)) }

/-- R67: the link is down and both dies restart it. What was not acknowledged is dropped: the rules of the next link
start send it again (assumption 8). The hub keeps what it last saw of the field die's keys (R119). -/
def lanokDown (s : State) : State :=
  let s := hubSnapshot s
  canLost <| wr K.LANOK_STATE 1 (wr K.FIELD_TIME_STATE 2 { s with
    fld.hubEnd := { missed := s.fld.hubEnd.missed }
    fld.fieldEnd := { missed := s.fld.fieldEnd.missed }
    isb.echoSent := none })

/-- The oldest message of a die has been unacknowledged 20 µs; all are re-sent in SEQ order. After 8
re-sends of one message the link is down. -/
def lanokResend (hub : Bool) (s : State) : State :=
  let e := endOf hub s
  match e.unacked with
  | [] => s
  | u :: _ =>
    if !lanokUp s || decide (clk s < u.at_ + 20 * us1) then s
    else if e.unacked.any (fun u => decide (8 ≤ u.tries)) then lanokDown s
    else
      let s := e.unacked.foldl (fun s u => lanokEmit hub u.seq e.rxSeq u.msg (bump (K.LANOK_COUNTS 1) s)) s
      endUpd hub (fun e => { e with
        unacked := e.unacked.map (fun u => { u with tries := u.tries + 1, at_ := clk s }) }) s

/-- A message received by a die fails its CRC; 16 in a row declare the link down. A message with a good
CRC whose TYPE is not in Table FLD-3, or whose direction is wrong, is discarded and counted (R68): the flag says so. -/
def lanokCrcFailure (hub foreign : Bool) (s : State) : State :=
  if !lanokUp s then s else
  if foreign then bump (K.LANOK_COUNTS 3) (endUpd hub (fun e => { e with crcRun := 0 }) s) else
  let s := bump (K.LANOK_COUNTS 0) (endUpd hub (fun e => { e with crcRun := e.crcRun + 1 }) s)
  if 16 ≤ (endOf hub s).crcRun then lanokDown s else s

end Sys2Proof.Machine
end

