-- ==== Sys2Proof/Machine/Pool.lean ====
section
/-! DEFINITION. The cell pool and its queues: admission, release, watermarks, flow control out, spill mode and pool errors
(R236, R247–R256, R259–R262). -/
namespace Sys2Proof.Machine

/-! ## Ports (R236) -/

/-- A data port the current PORT_MODE forms. -/
def portPresent (s : State) (p : Nat) : Bool := decide (p < 8) && p % 2 ^ rd s K.PORT_MODE == 0
def dataPorts (s : State) : List Nat := (List.range 8).filter (portPresent s)

/-- Rate of a data port in bit/s. -/
def portRate (s : State) : Nat := [25000000000, 50000000000, 100000000000].getD (rd s K.PORT_MODE) 25000000000

/-- PORT_STATE codes. -/
abbrev psDown : Nat := 1
abbrev psTraining : Nat := 2
abbrev psUp : Nat := 3
abbrev psRetired : Nat := 4
def portUp (s : State) (p : Nat) : Bool := rd s (K.PORT_STATE p) == psUp

def txPort (s : State) (p : Nat) : TxPort := tabGet {} s.trf.ports p
def txPortUpd (p : Nat) (f : TxPort → TxPort) (s : State) : State := { s with trf.ports := tabMod {} s.trf.ports p f }

/-! ## Queues (R250) -/

def queueOf (s : State) (q : Nat) : Queue := tabGet {} s.pkt.queues q
def queueUpd (q : Nat) (f : Queue → Queue) (s : State) : State := { s with pkt.queues := tabMod {} s.pkt.queues q f }
def packetOf (s : State) (id : Nat) : Option Packet := tabGet none s.pkt.packets id
def packetUpd (id : Nat) (f : Packet → Packet) (s : State) : State :=
  { s with pkt.packets := tabMod none s.pkt.packets id (Option.map f) }

/-- Queue numbers of Table PKT-6. -/
def qIn (l : Nat) : Nat := l
def qOut (l : Nat) : Nat := 20480 + l
def qRx (e : Nat) : Nat := 40960 + e
def qTx (e : Nat) : Nat := 41024 + e
def qExc (n : Nat) : Nat := 41088 + n
def qHost (h : Nat) : Nat := 41092 + h
def qSys (n : Nat) : Nat := 41088 + n
/-- The leg whose egress queue it is. -/
def egressLeg (q : Nat) : Option Nat := if 20480 ≤ q ∧ q < 40960 then some (q - 20480) else none

/-- R247: cells of a packet of length `len`. -/
def cellsOf (len : Nat) : Nat := (len + 32 + 255) / 256

/-- Free cells of the pool. -/
def cellsFree (s : State) : Nat := 65536 - rd s K.CELLS_MAPPED_OUT - s.pkt.used

/-! ## Watermarks and flow control out (R253–R256) -/

/-- G_STATE codes. -/
abbrev gNormal : Nat := 0
abbrev gHigh : Nat := 1
abbrev gCritical : Nat := 2

/-- R254: the next global state from the counts. -/
def gNext (s : State) : Nat :=
  let used := s.pkt.used
  let res := rd s K.G_RESERVE
  let st := rd s K.G_STATE_PKT
  let calm (was : Bool) : Nat :=
    if used ≥ rd s K.G_HIGH then gHigh else if was && decide (rd s K.G_LOW < used) then gHigh else gNormal
  if cellsFree s < res then gCritical
  else if st = gCritical ∧ cellsFree s < 2 * res then gCritical
  else calm (st != gNormal)

/-- R255: a port's congestion, with the frame a change sends. -/
def congestPort (s : State) (p : Nat) : State :=
  if rd s (K.PAUSE_MODE p) = 0 then txPortUpd p (fun x => { x with congested := false }) s else
  let was := (txPort s p).congested
  let g := rd s K.G_STATE_PKT
  let now :=
    if was then !(decide (rd s (K.PORT_CELLS p) ≤ rd s (K.PORT_LOW p)) && g == gNormal)
    else decide (rd s (K.PORT_HIGH p) ≤ rd s (K.PORT_CELLS p)) || g != gNormal
  if now = was then s
  else txPortUpd p (fun x => { x with
    congested := now, pauseDue := some (if now then rd s (K.PAUSE_QUANTA p) else 0) }) s

/-- R256: the source condition of an FCO pin. -/
def fcoCondition (s : State) (n : Nat) : Bool :=
  let src := rd s (K.FCO_SOURCE n)
  match src / 268435456 with
  | 0 => (queueOf s (src % 65536)).above
  | 1 => rd s K.G_STATE_PKT != gNormal
  | 2 => rd s K.G_STATE_PKT == gCritical
  | 3 => (txPort s (src % 65536)).congested
  | _ => false

def fcoName (n : Nat) : String := ["FCO0", "FCO1", "FCO2", "FCO3"].getD n ""

/-- The level an enabled FCO pin drives. -/
def fcoSync (s : State) (n : Nat) : State :=
  if rd s (K.FCO_EN n) = 0 then s else
  let v := if fcoCondition s n then rd s (K.FCO_ACTIVE n) else 1 - rd s (K.FCO_ACTIVE n)
  if rd s (K.FCO_LEVEL n) = v then s else emit (.pin (fcoName n) (v == 1)) (wr (K.FCO_LEVEL n) v s)

/-- R253: ABOVE of a queue. -/
def aboveOf (s : State) (q : Nat) : State :=
  let x := queueOf s q
  if !x.above && decide (rd s (K.Q_HIGH q) ≤ x.cells) then
    queueUpd q (fun x => { x with above := true, highEvents := x.highEvents + 1 }) s
  else if x.above && decide (x.cells ≤ rd s (K.Q_LOW q)) then queueUpd q (fun x => { x with above := false }) s
  else s

/-- Instances whose listed key `sub` of an index from `lo` reads 1, ascending. -/
def listedOn (s : State) (lo n sub : Nat) : List Nat :=
  s.regs.filterMap (fun e =>
    if lo ≤ keyIndex e.1 ∧ keyIndex e.1 < lo + n ∧ keySub e.1 = sub ∧ e.2 = 1 then some (keyIndex e.1 - lo) else none)

/-! ## DMA pacing (R382) -/

def dmaUpd (n : Nat) (f : DmaCh → DmaCh) (s : State) : State := { s with dma.chs := tabMod {} s.dma.chs n f }
def dmaEvt (n b : Nat) (s : State) : State :=
  let s := dmaUpd n (fun x => { x with evt := withBit x.evt b true }) s
  emitIf (bitOf (tabGet {} s.dma.chs n).irqEn b) (.msix (64 + n)) s
/-- A pending request is added to a channel; the count saturates at 255. -/
def dmaRequest (n : Nat) (s : State) : State :=
  if (tabGet {} s.dma.chs n).pendingReq < 255 then dmaUpd n (fun x => { x with pendingReq := x.pendingReq + 1 }) s
  else dmaEvt n 5 (bump (K.REQ_OVERFLOWS n) s)
/-- Enabled channels paced by requests of a kind and instance. -/
def dmaPacedBy (s : State) (kind arg : Nat) : List Nat :=
  (listedOn s 0xF000 64 1).filter (fun n => rd s (K.PACING n) == 1 && rd s (K.PACE_SOURCE n) / 268435456 == kind
    && rd s (K.PACE_SOURCE n) % 65536 == arg)

/-- DRAIN and FEED channels watch the CELLS count of a queue. -/
def dmaWatch (s : State) (q : Nat) : State :=
  ((listedOn s 0xF000 64 1).filter (fun n => decide (2 ≤ rd s (K.PACING n)) && rd s (K.PACE_SOURCE n) % 65536 == q)).foldl
    (fun s n =>
      let cells := (queueOf s q).cells
      let high := decide (rd s (K.FILL_HIGH n) ≤ cells)
      let low := decide (cells ≤ rd s (K.FILL_LOW n))
      let drain := rd s (K.PACING n) == 2
      dmaUpd n (fun x => { x with
        permits := if drain then (if high then true else if low then false else x.permits)
          else (if low then true else if high then false else x.permits) }) s) s

/-- The watermark states after an admission, a release or a change of a threshold: the queues touched, the pool, the
ports, the FCO pins. -/
def settle (qs : List Nat) (s : State) : State :=
  let s := qs.foldl dmaWatch (qs.foldl aboveOf s)
  let s := wr K.G_STATE_PKT (gNext s) s
  let s := (dataPorts s).foldl congestPort s
  [0, 1, 2, 3].foldl fcoSync s

/-! ## Spill mode (R259–R261) -/

abbrev pmPool : Nat := 0
abbrev pmSpill : Nat := 1
abbrev pmDraining : Nat := 2
abbrev pmFailed : Nat := 3
def poolSpill (s : State) : Bool := rd s K.POOL_MODE == pmSpill || rd s K.POOL_MODE == pmFailed

/-- R260: the queues served in spill mode. -/
def spillSet (s : State) : List Nat :=
  let sys := (List.range 14).map qSys
  let eps := ((List.range 64).filter (fun e => rd s (K.EP_EN_RX e) == 1)).map qRx
    ++ ((List.range 64).filter (fun e => rd s (K.EP_EN_TX e) == 1)).map qTx
  let bs := rdBlob s K.SPILL_LEGS
  let legs := (List.range (bs.length / 2)).flatMap (fun i => let l := leAt bs (2 * i) 2; [qIn l, qOut l])
  (sys ++ eps ++ legs).take 256

/-- An admission to the queue goes into the spill area. -/
def spillsTo (s : State) (q : Nat) : Bool := poolSpill s || (rd s K.POOL_MODE == pmDraining && (queueOf s q).spilled)

/-- R260: the ingress rate of spill mode: what is owed of the burst now, in 10⁻⁹ bit, and whether a frame fits. -/
def spillOwed (s : State) : Nat := s.pkt.spillDebt - 20000000000 * (clkNs s - s.pkt.spillAt)
def spillFits (s : State) (len : Nat) : Bool := decide (spillOwed s + 8000000000 * len ≤ 8000000000 * 65536)
def spillCharge (len : Nat) (s : State) : State :=
  { s with pkt.spillDebt := spillOwed s + 8000000000 * len, pkt.spillAt := clkNs s }

/-! ## Admission (R251, R252) -/

/-- What becomes of an admission. -/
inductive Admission where
  | ok | refused | outside
deriving DecidableEq, Repr

/-- R251, R254, R260: the answer to an admission of `need` cells to queue `q`. -/
def admission (s : State) (q need : Nat) : Admission :=
  let x := queueOf s q
  let global := rd s K.G_STATE_PKT != gCritical || decide (41096 ≤ q)
  if poolSpill s && !(spillSet s).contains q then .outside
  else if x.disabled || x.flushing || decide (rd s (K.Q_LIMIT q) < x.cells + need) || !global then .refused
  else .ok

/-- A refusal is counted. -/
def refuse (q : Nat) (a : Admission) (s : State) : State :=
  match a with
  | .outside => bump K.SPILL_DROPS s
  | _ => queueUpd q (fun x => { x with drops := x.drops + 1 }) s

/-- A packet enters the pool: its number, and the state; it is linked to no queue. -/
def addPacket (p : Packet) (spill : Bool) (s : State) : Nat × State :=
  let id := s.pkt.next
  let p := { p with cells := cellsOf p.len, first := freeVal s 65536, spilled := spill }
  let s := drew s
  let s := if p.port < 8 then wr (K.PORT_CELLS p.port) (rd s (K.PORT_CELLS p.port) + p.cells) s else s
  (id, { s with
    pkt.packets := tabSet none s.pkt.packets id (some p), pkt.next := id + 1,
    pkt.used := s.pkt.used + (if spill then 0 else p.cells) })

/-- A packet is admitted at the tail of a queue, or refused. -/
def admitPacket (q : Nat) (p : Packet) (s : State) : Option Nat × State :=
  match admission s q (cellsOf p.len) with
  | .ok =>
    let spill := spillsTo s q
    let r := addPacket { p with queue := some q } spill s
    (some r.1, settle [q] (queueUpd q (fun x => { x with
      entries := x.entries ++ [.pkt r.1], cells := x.cells + cellsOf p.len, spilled := x.spilled || spill }) r.2))
  | a => (none, refuse q a s)

/-- R249: a copy record is written in the tail copy cell, or in a new one. -/
def copyNeed (x : Queue) : Nat :=
  match x.copyCells.getLast? with
  | some (_, w, _) => if w < 16 then 0 else 1
  | none => 1
def copyPut (cell : Nat) : List (Nat × Nat × Nat) → List (Nat × Nat × Nat)
  | [] => [(cell, 1, 1)]
  | [(c, w, l)] => if w < 16 then [(c, w + 1, l + 1)] else [(c, w, l), (cell, 1, 1)]
  | e :: t => e :: copyPut cell t

/-- A copy of a packet is admitted to a queue, or refused. -/
def admitCopy (q : Nat) (c : CopyRec) (s : State) : Bool × State :=
  let need := copyNeed (queueOf s q)
  match admission s q need with
  | .ok =>
    let spill := spillsTo s q
    let cell := freeVal s 65536
    let s := if need = 1 then drew s else s
    let cells := copyPut cell (queueOf s q).copyCells
    let home := (cells.getLast?.map (·.1)).getD 0
    let s := packetUpd c.pkt (fun p => { p with refs := p.refs + 1 }) s
    let s := queueUpd q (fun x => { x with
      entries := x.entries ++ [.copy { c with cell := home }], copyCells := cells, cells := x.cells + need,
      spilled := x.spilled || spill }) s
    (true, settle [q] { s with pkt.used := s.pkt.used + (if spill then 0 else need) })
  | a => (false, refuse q a s)

/-! ## Release (R249) -/

/-- A reference to a packet is released; with the last its cells are free. The queue its cells were charged to. -/
def releaseRef (id : Nat) (s : State) : State :=
  match packetOf s id with
  | none => s
  | some p =>
    if 1 < p.refs then packetUpd id (fun p => { p with refs := p.refs - 1 }) s
    else
      let s := { s with
        pkt.packets := tabErase s.pkt.packets id, pkt.used := s.pkt.used - (if p.spilled then 0 else p.cells) }
      let s := if p.port < 8 then wr (K.PORT_CELLS p.port) (rd s (K.PORT_CELLS p.port) - p.cells) s else s
      match p.queue with
      | some q => settle [q] (queueUpd q (fun x => { x with cells := x.cells - p.cells }) s)
      | none => settle [] s

/-- One more holder of a packet: an ME, a decoder or the host. -/
def holdPacket (id : Nat) (s : State) : State := packetUpd id (fun p => { p with refs := p.refs + 1 }) s

/-- A record of copy cell `cell` is released; with the last of its records the cell is free. -/
def copyTake (cell : Nat) : List (Nat × Nat × Nat) → List (Nat × Nat × Nat) × Nat
  | [] => ([], 0)
  | (c, w, l) :: t =>
    if c = cell then (if l ≤ 1 then (t, 1) else ((c, w, l - 1) :: t, 0))
    else let r := copyTake cell t; ((c, w, l) :: r.1, r.2)

/-- The reference of an entry that has left its queue is released. -/
def releaseEntry (q : Nat) (e : QEntry) (s : State) : State :=
  match e with
  | .pkt id => releaseRef id s
  | .copy c =>
    let x := queueOf s q
    let r := copyTake c.cell x.copyCells
    let s := queueUpd q (fun x => { x with copyCells := r.1, cells := x.cells - r.2 }) s
    releaseRef c.pkt { s with pkt.used := s.pkt.used - (if x.spilled then 0 else r.2) }

/-- The head entry leaves the queue and is released. -/
def popEntry (q : Nat) (s : State) : State :=
  match (queueOf s q).entries with
  | [] => s
  | e :: t =>
    let s := releaseEntry q e (queueUpd q (fun x => { x with entries := t }) s)
    settle [q] (if t.isEmpty then queueUpd q (fun x => { x with spilled := false }) s else s)

/-- An entry anywhere in the queue leaves it and is released. -/
def dropEntry (q : Nat) (e : QEntry) (s : State) : State :=
  if (queueOf s q).entries.contains e then
    settle [q] (releaseEntry q e (queueUpd q (fun x => { x with entries := x.entries.erase e }) s))
  else s

/-- The copies among entries. -/
def copiesIn (es : List QEntry) : Nat := (es.filter (fun e => match e with | .copy _ => true | .pkt _ => false)).length

/-- R251: a queue is flushed: every entry's reference is released in this step. Copies of a leg's egress queue count in
COPIES_LOST (R307). -/
def flushQueue (q : Nat) (s : State) : State :=
  let es := (queueOf s q).entries
  let s := match egressLeg q with | some l => bumpBy (K.COPIES_LOST l) es.length s | none => s
  let s := es.foldl (fun s e => releaseEntry q e s) (queueUpd q (fun x => { x with entries := [] }) s)
  settle [q] (queueUpd q (fun x => { x with spilled := false }) s)

end Sys2Proof.Machine
end

