-- ==== Sys2Proof/Machine/Aes.lean ====
section
/-! DEFINITION. The ciphers the Seal engine computes with: AES (FIPS 197) encryption, AES-CMAC (NIST SP 800-38B) and
the AES-GCM tag of a message without plaintext (R408, R411). Octets are naturals below 256. -/
namespace Sys2Proof.Machine

/-- The AES substitution box. -/
def aesSbox : List Nat :=
  [99, 124, 119, 123, 242, 107, 111, 197, 48, 1, 103, 43, 254, 215, 171, 118] ++
  [202, 130, 201, 125, 250, 89, 71, 240, 173, 212, 162, 175, 156, 164, 114, 192] ++
  [183, 253, 147, 38, 54, 63, 247, 204, 52, 165, 229, 241, 113, 216, 49, 21] ++
  [4, 199, 35, 195, 24, 150, 5, 154, 7, 18, 128, 226, 235, 39, 178, 117] ++
  [9, 131, 44, 26, 27, 110, 90, 160, 82, 59, 214, 179, 41, 227, 47, 132] ++
  [83, 209, 0, 237, 32, 252, 177, 91, 106, 203, 190, 57, 74, 76, 88, 207] ++
  [208, 239, 170, 251, 67, 77, 51, 133, 69, 249, 2, 127, 80, 60, 159, 168] ++
  [81, 163, 64, 143, 146, 157, 56, 245, 188, 182, 218, 33, 16, 255, 243, 210] ++
  [205, 12, 19, 236, 95, 151, 68, 23, 196, 167, 126, 61, 100, 93, 25, 115] ++
  [96, 129, 79, 220, 34, 42, 144, 136, 70, 238, 184, 20, 222, 94, 11, 219] ++
  [224, 50, 58, 10, 73, 6, 36, 92, 194, 211, 172, 98, 145, 149, 228, 121] ++
  [231, 200, 55, 109, 141, 213, 78, 169, 108, 86, 244, 234, 101, 122, 174, 8] ++
  [186, 120, 37, 46, 28, 166, 180, 198, 232, 221, 116, 31, 75, 189, 139, 138] ++
  [112, 62, 181, 102, 72, 3, 246, 14, 97, 53, 87, 185, 134, 193, 29, 158] ++
  [225, 248, 152, 17, 105, 217, 142, 148, 155, 30, 135, 233, 206, 85, 40, 223] ++
  [140, 161, 137, 13, 191, 230, 66, 104, 65, 153, 45, 15, 176, 84, 187, 22]

def subByte (b : Nat) : Nat := aesSbox.getD b 0

/-- Multiply by x in GF(2⁸). -/
def xtime (b : Nat) : Nat := if b < 128 then 2 * b else Nat.xor (2 * b % 256) 0x1B

/-- Octet-wise exclusive or. -/
def xorBytes (a b : List Nat) : List Nat := List.zipWith Nat.xor a b

/-- ShiftRows on a state held column by column. -/
def shiftRows (st : List Nat) : List Nat := (List.range 16).map (fun i => st.getD ((i + 4 * (i % 4)) % 16) 0)

/-- MixColumns of one column. -/
def mixColumn (a b c d : Nat) : List Nat :=
  let t := Nat.xor (Nat.xor a b) (Nat.xor c d)
  let m := fun x y => Nat.xor x (Nat.xor t (xtime (Nat.xor x y)))
  [m a b, m b c, m c d, m d a]

def mixColumns (st : List Nat) : List Nat :=
  (List.range 4).flatMap (fun c =>
    mixColumn (st.getD (4 * c) 0) (st.getD (4 * c + 1) 0) (st.getD (4 * c + 2) 0) (st.getD (4 * c + 3) 0))

/-- Key expansion: `n` further words after the `nk` words of the key, newest last. -/
def expandKey (nk : Nat) : Nat → Nat → List (List Nat) → List (List Nat)
  | 0, _, ws => ws
  | n + 1, rcon, ws =>
    let i := ws.length
    let prev := ws.getD (i - 1) []
    let back := ws.getD (i - nk) []
    if i % nk = 0 then
      let rot := (prev.drop 1 ++ prev.take 1).map subByte
      expandKey nk n (xtime rcon) (ws ++ [xorBytes back (xorBytes rot [rcon, 0, 0, 0])])
    else if nk = 8 ∧ i % nk = 4 then expandKey nk n rcon (ws ++ [xorBytes back (prev.map subByte)])
    else expandKey nk n rcon (ws ++ [xorBytes back prev])

/-- The words of a key. -/
def keyWords (key : List Nat) : List (List Nat) :=
  (List.range (key.length / 4)).map (fun i => (key.drop (4 * i)).take 4)

/-- Round keys of a 16 or 32 octet key. -/
def roundKeys (key : List Nat) : List (List Nat) :=
  let nk := key.length / 4
  let ws := expandKey nk (4 * (nk + 7) - nk) 1 (keyWords key)
  (List.range (nk + 7)).map (fun r => (List.range 4).flatMap (fun j => ws.getD (4 * r + j) []))

/-- AES encryption of one block. -/
def aesBlock (key block : List Nat) : List Nat :=
  let rk := roundKeys key
  let n := rk.length - 1
  let st := xorBytes block (rk.getD 0 [])
  let st := (List.range (n - 1)).foldl
    (fun st r => xorBytes (mixColumns (shiftRows (st.map subByte))) (rk.getD (r + 1) [])) st
  xorBytes (shiftRows (st.map subByte)) (rk.getD n [])

/-- Big-endian value of octets, and its `n` octets. -/
def beVal (bs : List Nat) : Nat := bs.foldl (fun v b => v * 256 + b) 0
def beBytes (n v : Nat) : List Nat := (List.range n).map (fun i => v / 256 ^ (n - 1 - i) % 256)

/-- Doubling in GF(2¹²⁸), for the CMAC subkeys. -/
def cmacDouble (bs : List Nat) : List Nat :=
  let v := beVal bs
  let d := v * 2 % 2 ^ 128
  beBytes 16 (if 2 ^ 127 ≤ v then Nat.xor d 0x87 else d)

/-- The blocks of a message of `n` blocks. -/
def blocks (n : Nat) (m : List Nat) : List (List Nat) := (List.range n).map (fun i => (m.drop (16 * i)).take 16)

/-- AES-CMAC. -/
def aesCmac (key m : List Nat) : List Nat :=
  let l := aesBlock key (List.replicate 16 0)
  let k1 := cmacDouble l
  let k2 := cmacDouble k1
  let n := max 1 ((m.length + 15) / 16)
  let last := m.drop (16 * (n - 1))
  let last' := if last.length = 16 then xorBytes last k1
    else xorBytes (last ++ [0x80] ++ List.replicate (15 - last.length) 0) k2
  let x := (blocks (n - 1) m).foldl (fun x b => aesBlock key (xorBytes x b)) (List.replicate 16 0)
  aesBlock key (xorBytes x last')

/-- Multiplication in the field of GHASH, bit by bit from the most significant. -/
def ghashMul : Nat → Nat → Nat → Nat → Nat
  | 0, _, _, z => z
  | n + 1, x, v, z =>
    let z' := if x / 2 ^ n % 2 = 1 then Nat.xor z v else z
    ghashMul n x (if v % 2 = 1 then Nat.xor (v / 2) (0xE1 * 2 ^ 120) else v / 2) z'

/-- R411: the AES-GCM tag with the message as additional data and an empty plaintext. -/
def aesGmac (key nonce m : List Nat) : List Nat :=
  let h := beVal (aesBlock key (List.replicate 16 0))
  let n := (m.length + 15) / 16
  let pad := m ++ List.replicate (16 * n - m.length) 0
  let y := (blocks n pad ++ [beBytes 8 (8 * m.length) ++ List.replicate 8 0]).foldl
    (fun y b => ghashMul 128 (Nat.xor y (beVal b)) h 0) 0
  xorBytes (beBytes 16 y) (aesBlock key (nonce ++ [0, 0, 0, 1]))

end Sys2Proof.Machine
end

