-- ==== Sys2Proof/Machine/Seal.lean ====
section
/-! DEFINITION. The Seal engine and the key load window (chapter SEA): loading and erasing keys, requests, duplicated
computation, and the uses the device makes of it. -/
namespace Sys2Proof.Machine

/-! ## Slots (R407, R408) -/

/-- The octets as naturals, and back. -/
def nats (bs : Bytes) : List Nat := bs.map (·.toNat)
def octets (l : List Nat) : Bytes := l.map (BitVec.ofNat 8)

/-- The claim owner of a slot loaded for OWNER (assumption 7). -/
def sealOwnerWord (owner : Nat) : Nat :=
  if 0x10 ≤ owner ∧ owner ≤ 0x14 then ownKey (0x0200 + (owner - 0x10)) 3
  else if owner = 0x20 then ownKey 0x7C00 4
  else if owner = 0x21 then ownKey 0x7C00 5
  else ownFw 1

/-- Erase a slot: empty, its claim freed, waiting requests that name it fail (R406, R412). -/
def sealErase (slot : Nat) (s : State) : State :=
  let s := unclaim 4 slot (claimOwner s 4 slot) s
  let s := [K.SLOT_STATE_SEA slot, K.SLOT_ALG slot, K.SLOT_OWNER_SEA slot, K.SLOT_LIMIT slot, K.SLOT_USES slot,
    K.SLOT_CHECK slot].foldl (fun s k => wr k 0 s) s
  { s with
    sea.keys := tabSet [] s.sea.keys slot []
    sea.queue := s.sea.queue.map (fun w => if w.req.slot = slot then { w with absent := true } else w) }

/-- Load a slot. -/
def sealLoad (r : KeyRec) (s : State) : State :=
  let key := if r.alg % 2 = 0 then slice r.key 0 16 else slice r.key 0 32
  let slot := r.target
  let s := setClaim 4 slot (sealOwnerWord r.owner) { s with sea.keys := tabSet [] s.sea.keys slot key }
  let s := wr (K.SLOT_ALG slot) r.alg (wr (K.SLOT_OWNER_SEA slot) r.owner (wr (K.SLOT_LIMIT slot) (2 ^ r.limitLog2) s))
  let s := wr (K.SLOT_CHECK slot) (beVal ((aesCmac (nats key) []).take 3)) s
  wr (K.SLOT_USES slot) 0 (wr (K.SLOT_STATE_SEA slot) 1 s)

/-! ## Hub addresses (R372) -/

/-- Octets mapped from a hub address: an octet of DRAM below the installed size, or of a cluster's SRAM. -/
def hubMapped (s : State) (a : Nat) : Bool :=
  decide (a < rd s K.MEM_SIZE) || (decide (sramBase ≤ a) && decide (a < sramBase + 8 * sramSize))

/-- Every octet of a range of hub addresses is mapped. -/
def hubRange (s : State) (a n : Nat) : Bool :=
  n == 0 || (hubMapped s a && hubMapped s (a + n - 1) && (decide (a < sramBase) == decide (a + n - 1 < sramBase)))

/-! ## Computation -/

/-- Results of Table SEA-4. -/
abbrev sealOk : Nat := 0
abbrev sealAbsent : Nat := 1
abbrev sealExhausted : Nat := 2
abbrev sealMismatch : Nat := 3
abbrev sealCompareFail : Nat := 4
abbrev sealBadRequest : Nat := 5
abbrev sealBusError : Nat := 6
abbrev sealWrongUse : Nat := 7

/-- Seal cores in service. -/
def sealCores (s : State) : Nat := (1 - rd s (K.CORE_STATE 0)) + (1 - rd s (K.CORE_STATE 1))

/-- Owners a source may use (R409); `t` is the transport of a dictionary request. -/
def sealOwnerOk (source owner : Nat) : Bool :=
  match source with
  | 0 => decide (0x10 ≤ owner ∧ owner ≤ 0x14) || owner == 0x20
  | 1 => owner == 0x21
  | 2 => owner == 0x20
  | _ => owner == 0

/-- The fields of a request lie within Table SEA-2. -/
def sealFieldsOk (r : SealReq) : Bool :=
  decide (1 ≤ r.op ∧ r.op ≤ 4 ∧ r.slot < 64 ∧ 4 ≤ r.tagLen ∧ r.tagLen ≤ 16 ∧ r.flags < 4 ∧ r.len ≤ 16777216
    ∧ r.resAddr % 32 = 0 ∧ r.reserved = 0)

/-- The hub addresses a request of a work item names are mapped. -/
def sealMapped (s : State) (r : SealReq) : Bool :=
  r.source != 3 || ((bitOf r.flags 0 || hubRange s r.msgAddr r.len) && (bitOf r.flags 1 || hubRange s r.resAddr 32))

/-- Count a use of a READY slot; at its limit it becomes EXHAUSTED (R407). -/
def sealCount (slot : Nat) (s : State) : State :=
  let n := rd s (K.SLOT_USES slot) + 1
  upd (decide (rd s (K.SLOT_LIMIT slot) ≤ n)) (wr (K.SLOT_STATE_SEA slot) 2) (wr (K.SLOT_USES slot) n s)

/-- R411: the nonce of the next GMAC generation of a slot. -/
def gmacNonce (s : State) (slot uses : Nat) : List Nat :=
  nats (leBytes 4 (Nat.xor (rd s K.SERIAL % 4294967296) slot) ++ leBytes 8 uses)

/-- A request dequeued: its key captured, its use counted, its tag computed or compared (R410–R412). `expect`, `nonce`:
from the result area, for a verify. The answer is the result, the nonce and the tag. -/
def sealCompute (r : SealReq) (absent : Bool) (msg expect nonce : List Nat) (s : State) :
    (Nat × List Nat × List Nat) × State :=
  let st := rd s (K.SLOT_STATE_SEA r.slot)
  if absent || st == 0 then ((sealAbsent, [], []), s)
  else if st == 2 then ((sealExhausted, [], []), s)
  else
    let alg := rd s (K.SLOT_ALG r.slot)
    let owner := rd s (K.SLOT_OWNER_SEA r.slot)
    let key := nats (tabGet [] s.sea.keys r.slot)
    let s := sealCount r.slot s
    let uses := rd s (K.SLOT_USES r.slot)
    if !sealFieldsOk r then ((sealBadRequest, [], []), s)
    else if decide (2 < r.op) != decide (2 ≤ alg) || !sealOwnerOk r.source owner then ((sealWrongUse, [], []), s)
    else if !r.busOk || !sealMapped s r then ((sealBusError, [], []), s)
    else if r.op = 1 then ((sealOk, [], (aesCmac key msg).take r.tagLen), s)
    else if r.op = 2 then
      ((if (aesCmac key msg).take r.tagLen = expect.take r.tagLen then sealOk else sealMismatch, [], []), s)
    else if r.op = 3 then
      let n := gmacNonce s r.slot uses
      ((sealOk, n, (aesGmac key n msg).take r.tagLen), s)
    else ((if (aesGmac key nonce msg).take r.tagLen = expect.take r.tagLen then sealOk else sealMismatch, nonce, []), s)

/-- A request of the device itself, served within the step that makes it: `none` when the queue is full (R409). With
both cores retired it fails (R413). -/
def sealNow (source op slot tagLen : Nat) (msg expect : List Nat) (s : State) : Option (Nat × List Nat) × State :=
  if 512 ≤ s.sea.queue.length then (none, bump K.SEAL_REFUSED s) else
  let r : SealReq := { source := source, op := op, slot := slot, tagLen := tagLen }
  match sealCompute r false msg expect [] s with
  | ((res, _, tag), s) =>
    let s := bump K.SEAL_REQUESTS s
    if sealCores s = 0 then (some (sealCompareFail, []), s) else (some (res, tag), s)

/-! ## Requests of work items (R409, R410) -/

/-- SEAL_REQUEST: a request enters the queue, or is refused; a refused item completes with a FAILED action. -/
def execSealRequest (r : SealReq) (s : State) : Res :=
  if 512 ≤ s.sea.queue.length then
    let s := bump K.SEAL_REFUSED s
    .next (upd (r.source == 3) (completeOn r.me [.failed (some 0x07)]) s)
  else .next { s with sea.queue := s.sea.queue ++ [{ req := r }] }

/-- The octets of the message and of the result area. -/
def sealMsg (s : State) (r : SealReq) : List Nat :=
  nats (if bitOf r.flags 0 then r.msgHost.take r.len else memRead s r.msgAddr r.len)
def sealArea (s : State) (r : SealReq) : List Nat :=
  nats (if bitOf r.flags 1 then slice r.areaHost 0 32 else memRead s r.resAddr 32)

/-- SEAL_DEQUEUE: the head of the queue is taken. -/
def execSealDequeue (s : State) : Res :=
  match s.sea.queue with
  | [] => .next s
  | w :: t =>
    let area := sealArea s w.req
    match sealCompute w.req w.absent (sealMsg s w.req) (area.drop 16) ((area.drop 4).take 12)
        { s with sea.queue := t } with
    | ((res, nonce, tag), s) =>
      .next { s with sea.work := s.sea.work ++ [{ w with result := res, nonce := nonce, tag := tag }] }

/-- Table SEA-3: the result record. -/
def sealRecord (w : SealWork) (result : Nat) : List Nat :=
  let pad := fun n (l : List Nat) => l ++ List.replicate (n - l.length) 0
  [result, w.req.op % 256, w.req.slot % 256, 0] ++ pad 12 (if result = 0 then w.nonce else [])
    ++ pad 16 (if result = 0 then w.tag else [])

/-- A Seal core counts an upset, and is retired past its limit (R413). -/
def sealUpset (core : Nat) (s : State) : State :=
  match upset cSeal core (bump (K.CORE_UPSETS core) s) with
  | (s, false) => s
  | (s, true) => s

/-- The engine's state once the cores' retirements are known (R413). -/
def sealSync (s : State) : State :=
  let r0 := isRetired s cSeal 0
  let r1 := isRetired s cSeal 1
  let s := wr (K.CORE_STATE 0) (b2n r0) (wr (K.CORE_STATE 1) (b2n r1) s)
  upd (r0 && r1) (summary 0 true) (wr K.SEAL_STATE (b2n r0 + b2n r1) s)

/-- SEAL_COMPLETE: the oldest request computed is released. `wrong0`, `wrong1`: the core's first result differs from the
one released; `agree2`: the second results agree. -/
def execSealComplete (wrong0 wrong1 agree2 : Bool) (s : State) : Res :=
  match s.sea.work with
  | [] => .next s
  | w :: t =>
    let s := { s with sea.work := t }
    let down := sealCores s == 0
    let first := !wrong0 && !wrong1
    let result := if down || (!first && !agree2) then sealCompareFail else w.result
    let s := upd (!down && !first && (wrong0 || !agree2) && rd s (K.CORE_STATE 0) == 0) (sealUpset 0) s
    let s := upd (!down && !first && (wrong1 || !agree2) && rd s (K.CORE_STATE 1) == 0) (sealUpset 1) s
    let s := sealSync s
    let s := bump K.SEAL_REQUESTS (upd (result == sealCompareFail) (bump K.COMPARE_FAILS) s)
    let rec_ := octets (sealRecord w result)
    let s := if bitOf w.req.flags 1 then emit (.hostWrite w.req.resAddr rec_) s
      else upd (hubRange s w.req.resAddr 32) (memWrite w.req.resAddr rec_) s
    .next (upd (w.req.source == 3) (completeOn w.req.me []) s)

/-! ## The key load window (R405, R406) -/

/-- Owners of Table SEA-1. -/
def sealOwnerCode (o : Nat) : Bool := o == 0 || decide (0x10 ≤ o ∧ o ≤ 0x14) || o == 0x20 || o == 0x21

/-- Octets all zero from an offset on. -/
def zeroFrom (bs : Bytes) (n : Nat) : Bool := (bs.drop n).all (fun b => b.toNat == 0)

/-- R406: the fields of a load record lie within Table SEA-1 and unused fields are 0. `action`: 1 LOAD, 2 ERASE,
3 LOAD_NEXT. -/
def keyFieldsOk (action : Nat) (r : KeyRec) : Bool :=
  let isSeal := r.kind == 1
  decide (1 ≤ r.kind ∧ r.kind ≤ 3) && decide (1 ≤ action ∧ action ≤ 3) && r.pad == 0 && !(isSeal && action == 3)
    && decide (r.target < (if isSeal then 64 else 20480))
    && (if action = 2 then
        r.alg == 0 && r.owner == 0 && r.limitLog2 == 0 && r.timing == 0 && zeroFrom r.key 0 && zeroFrom r.salt 0
      else
        zeroFrom r.key (if r.alg % 2 = 0 then 16 else 32)
        && (if isSeal then
            decide (r.alg < 4) && sealOwnerCode r.owner && decide (24 ≤ r.limitLog2 ∧ r.limitLog2 ≤ 40)
              && r.timing == 0 && zeroFrom r.salt 0
          else
            decide (r.alg < 2) && r.owner == 0 && r.limitLog2 == 0
              && (if r.kind = 2 ∧ action = 1 then decide (r.timing < 4294967296)
                else if r.kind = 3 ∧ action = 3 then true else r.timing == 0)))

/-- R406: the first failing status of a load record. -/
def keyCheck (s : State) (action : Nat) (r : KeyRec) : Status :=
  if !r.checkOk then .type
  else if !keyFieldsOk action r then .range
  else if r.kind = 1 ∧ action = 1 ∧ rd s (K.SLOT_STATE_SEA r.target) ≠ 0
      ∧ rd s (K.SLOT_OWNER_SEA r.target) ≠ r.owner then .conflict
  else if r.kind ≠ 1 ∧ action = 2 ∧ rd s (K.LEG_EN r.target) = 1 then .busy
  else .ok

/-- An egress context takes a new key: the SRTCP index restarts (R419). -/
def egressApply (leg : Nat) (s : State) : State :=
  bump (K.REKEYS_OUT leg) (wr (K.RTCP_EXHAUSTED leg) 0 (wr (K.SRTCP_INDEX leg) 0 s))

/-- R419: EFFECTIVE is reached and NEXT becomes CUR. -/
def egressPromote (leg : Nat) (s : State) : State :=
  let c := tabGet {} s.sea.srtpOut leg
  if c.next.isSome ∧ c.effective ≤ nowNs s then
    egressApply leg { s with sea.srtpOut := tabSet {} s.sea.srtpOut leg { cur := c.next } }
  else s

/-- Erase a leg's contexts. -/
def srtpErase (isOut : Bool) (leg : Nat) (s : State) : State :=
  if isOut then
    wr (K.RTCP_EXHAUSTED leg) 0 (wr (K.SRTCP_INDEX leg) 0 { s with sea.srtpOut := tabSet {} s.sea.srtpOut leg {} })
  else { s with sea.srtpIn := tabSet {} s.sea.srtpIn leg {} }

/-- The effect of a load record that passed its checks. -/
def keyApply (action : Nat) (r : KeyRec) (s : State) : State :=
  let k : SrtpKey := { alg := r.alg, key := slice r.key 0 (if r.alg = 0 then 16 else 32), salt := slice r.salt 0 12 }
  if r.kind = 1 then (if action = 1 then sealLoad r s else sealErase r.target s)
  else if action = 2 then srtpErase (r.kind == 3) r.target s
  else if r.kind = 2 then
    if action = 1 then
      bump (K.REKEYS_IN r.target)
        { s with sea.srtpIn := tabSet {} s.sea.srtpIn r.target { cur := some k, roc := r.timing } }
    else { s with sea.srtpIn := tabMod {} s.sea.srtpIn r.target (fun c => { c with next := some k }) }
  else if action = 1 then
    egressApply r.target { s with sea.srtpOut := tabSet {} s.sea.srtpOut r.target { cur := some k } }
  else egressPromote r.target
    { s with sea.srtpOut := tabMod {} s.sea.srtpOut r.target (fun c => { c with next := some k, effective := r.timing }) }

/-- A command of the window: it ends with its status, KEY.DATA zeroed, DONE set, vector 28 when enabled. -/
def keyCommand (action : Nat) (r : KeyRec) (s : State) : State :=
  let st := keyCheck s action r
  let s := if st = .ok then keyApply action r s else s
  emitIf s.sea.keyIrqEn (.msix 28) (bump K.KEY_COMMANDS
    { s with sea.keyData := List.replicate 64 0, sea.keyStatus := st.code, sea.keyDone := true })

/-- Table SEA-1: the record in KEY.DATA. -/
def keyRecOf (d : Bytes) : KeyRec :=
  { kind := leAt d 0 1, target := leAt d 2 2, alg := leAt d 4 1, owner := leAt d 5 1, limitLog2 := leAt d 6 1,
    pad := leAt d 7 1, timing := leAt d 8 8, key := slice d 16 32, salt := slice d 48 12,
    checkOk := crc32 (slice d 0 60) == leAt d 60 4 }

/-- KEY_LOAD: GO with a record whose ACTION is LOAD. -/
def execKeyLoad (r : KeyRec) (s : State) : Res := .next (keyCommand 1 r s)
/-- KEY_ERASE: GO with a record whose ACTION is ERASE. -/
def execKeyErase (r : KeyRec) (s : State) : Res := .next (keyCommand 2 r s)
/-- KEY_LOAD_NEXT: GO with a record whose ACTION is LOAD_NEXT. -/
def execKeyLoadNext (r : KeyRec) (s : State) : Res := .next (keyCommand 3 r s)

/-- EGRESS_KEY_EFFECTIVE: a leg's NEXT egress key comes into force. -/
def execEgressKeyEffective (leg : Nat) (s : State) : Res := .next (egressPromote leg s)

/-- PREV_KEY_EXPIRY: KEY_OVERLAP has passed since a leg's old ingress key became PREV. -/
def execPrevKeyExpiry (leg : Nat) (s : State) : Res :=
  .next { s with sea.srtpIn := tabMod {} s.sea.srtpIn leg (fun c =>
    if c.prev.isSome ∧ c.prevEnd ≤ clk s then { c with prev := none, prevWins := [] } else c) }

end Sys2Proof.Machine
end

