-- ==== Sys2Proof/Machine/Resp.lean ====
section
/-! DEFINITION. Responses of the object dictionary (R111–R114, R121–R123): their octets, their authentication, where
each transport takes them. -/
namespace Sys2Proof.Machine

/-- The number of a transport instance. -/
def instNum (i : Inst) : Nat := i.tr * 65536 + i.sub

/-- Table DIC-3: a response transaction. -/
def rspOctets (tag op index sub : Nat) (st : Status) (value : Bytes) : Bytes :=
  leBytes 1 (op % 128 + 128) ++ leBytes 1 tag ++ leBytes 2 index ++ leBytes 1 sub ++ leBytes 1 st.code
    ++ leBytes 2 value.length ++ value

/-- Table DIC-6: an envelope without its TAG. -/
def envelope (seq auth : Nat) (body : Bytes) : Bytes := leBytes 4 seq ++ leBytes 1 auth ++ [0, 0, 0] ++ body

/-- R122: the octets the MAC covers. -/
def macInput (tr : Nat) (env : Bytes) : List Nat := tr :: nats env

/-- The envelope of a response: authenticated with the transport's slot when the request was, except for status AUTH.
A response whose tag cannot be made carries AUTH 00h (assumption 9). -/
def rspEnvelope (i : Inst) (st : Status) (body : Bytes) (s : State) : Bytes × State :=
  let plain := envelope i.seq 0 body
  if !i.auth || st == .auth then (plain, s) else
  let env := envelope i.seq 1 body
  match sealNow 0 1 (rd s (K.AUTH_SLOT i.tr)) 8 (macInput i.tr env) [] s with
  | (some (0, tag), s) => (env ++ octets tag, s)
  | (_, s) => (plain, s)

/-- A mailbox slot. -/
def mbxOf (s : State) (m : Nat) : Mbx := tabGet {} s.dic.mbx m
def mbxUpd (m : Nat) (f : Mbx → Mbx) (s : State) : State := { s with dic.mbx := tabMod {} s.dic.mbx m f }

/-- R123: a response is in MBX.RSP. A CMD answered PENDING leaves the slot BUSY. -/
def mbxDone (m : Nat) (st : Status) (busy : Bool) (env : Bytes) (s : State) : State :=
  emitIf (mbxOf s m).irqEn (.msix (12 + m))
    (mbxUpd m (fun x => { x with rsp := env, status := st.code, done := true, busy := busy }) s)

/-- R124: a response goes to the address and port of its request, through system queue 11. -/
def udpSend (peer : Bytes × Nat) (env : Bytes) (s : State) : State :=
  let len := 14 + (if peer.1.length = 16 then 40 else 20) + 8 + env.length
  (admitPacket (qSys 11) { content := .dict peer.1 peer.2 env, len := max 60 len, arrival := s.isb.now } s).2

/-- The carrier takes the octets of a response: the mailbox, a datagram, or the Lanok link for CAN and nodes. -/
def deliver (i : Inst) (st : Status) (busy : Bool) (body : Bytes) (s : State) : State :=
  if i.tr = 4 then lanokSend true (.dictRsp i body) s
  else
    match rspEnvelope i st body s with
    | (env, s) =>
      if i.tr = 0 then mbxDone i.sub st busy env s
      else if i.tr = 1 then udpSend i.peer env s
      else lanokSend true (.dictRsp i env) s

/-- The entry is a command. -/
def isCmd (index sub : Nat) : Bool := match entryOf index sub with | some e => e.acc == .cmd | none => false

/-- Record the result of a CMD (LAST_CMD); one that its checks refuse is recorded too (DEDUCED, assumption 150). -/
def lastCmd (i : Inst) (index sub : Nat) (st : Status) (s : State) : State :=
  wr (K.LAST_CMD i.tr) (index * 65536 + sub * 256 + st.code) s

/-- Send a response. What is answered PENDING and is remembered (`pend`) ends with a COMPLETE (R114). -/
def sendRsp (pend : Bool) (i : Inst) (tag op index sub : Nat) (st : Status) (value : Bytes) (s : State) : State :=
  let s := emit (.dictRsp i tag (op % 128 + 128) index sub st.code value) s
  let s := upd pend (fun s => { s with dic.pendingCmds := s.dic.pendingCmds ++ [(i, tag, index, sub)] }) s
  deliver i st pend (rspOctets tag op index sub st value) s

/-- Answer a request: it is counted as served; one that fails authentication is counted as dropped, and on UDP has no
response (R122). -/
def respondAs (pend : Bool) (i : Inst) (tag op index sub : Nat) (st : Status) (value : Bytes) (s : State) : State :=
  let s := upd s.dic.accepting.isSome (fun s => { s with dic.refused := st.code }) s
  if s.dic.quiet then
    upd pend (fun s => { s with dic.pendingCmds := s.dic.pendingCmds ++ [(i, tag, index, sub)] }) { s with dic.refused := st.code }
  else if st = .auth then
    let s := bump (K.DROPS i.tr) s
    if i.tr = 1 then s else sendRsp false i tag op index sub st [] s
  else sendRsp pend i tag op index sub st value (bump (K.REQUESTS_DIC i.tr) s)

/-- R112: the answer in a state in which the hub does not serve the request. -/
def notServed (i : Inst) (tag op index sub : Nat) (s : State) : State :=
  sendRsp false { i with auth := false } tag op index sub .busy [] s

/-- Send a response; a PENDING CMD is remembered until its action ends. -/
def respond (i : Inst) (tag op index sub : Nat) (st : Status) (value : Bytes) (s : State) : State :=
  respondAs (isCmd index sub && st == .pending) i tag op index sub st value s

/-- Answer a CMD write: OP 02h. -/
def cmdEnd (i : Inst) (tag index sub : Nat) (st : Status) (s : State) : State :=
  respond i tag 2 index sub st [] (upd (st != .pending) (lastCmd i index sub st) s)

/-- The action of a PENDING CMD ends: a COMPLETE response on its instance (R114). -/
def cmdComplete (index sub : Nat) (st : Status) (s : State) : State :=
  match s.dic.pendingCmds.find? (fun c => c.2.2.1 == index && c.2.2.2 == sub) with
  | none => s
  | some (i, tag, _, _) =>
    let s := { s with dic.pendingCmds := s.dic.pendingCmds.erase (i, tag, index, sub)
                      boot.busy := s.boot.busy.filter (· != index * 256 + sub) }
    let s := emit (.dictRsp i tag 0x8F index sub st.code []) (lastCmd i index sub st s)
    deliver i st false (rspOctets tag 0x0F index sub st []) s

/-- CMDs a standby or a hub in ISLAND accepts (R465): WARM_RESET, CH_CLEAR, SWITCHOVER, FORCE_ACTIVE. -/
def standbyMay (index sub : Nat) : Bool :=
  (index, sub) == (0x0003, 1) || (index, sub) == (0x0820, 5) || (index, sub) == (0x0900, 0x0D) || (index, sub) == (0x0900, 0x0E)

/-- Requests a hub in recovery serves, on PCIE (R472). -/
def recoveryServes (i : Inst) (index sub : Nat) (write : Bool) : Bool :=
  i.tr == 0 && (if write then (index, sub) == (0x0003, 1) || (index, sub) == (0xF801, 3) || (index, sub) == (0xF801, 4)
    else index == 0 && decide (1 ≤ sub ∧ sub ≤ 7))

/-- R112: states in which the hub does not serve a request: it has not started (R474), or is in recovery; a write while
the journal replays (R151); entering CALM or FROST; asleep, for PCIE and UDP. What is being accepted has been served. -/
def unserved (i : Inst) (index sub : Nat) (write : Bool) (s : State) : Bool :=
  if s.dic.accepting.isSome then false
  else if s.boot.recovery then !recoveryServes i index sub write
  else (decide (s.boot.step < 9) && (write || !(index == 0 && decide (1 ≤ sub ∧ sub ≤ 7)))) || (write && replaying s)
    || hubPower s == hpEntering || (decide (i.tr ≤ 1) && decide (1 ≤ hubPower s))

/-- Who may write: authentication (R122), a node's rights (R81), a standby or a hub in ISLAND (R118). -/
def rightsGate (i : Inst) (index sub : Nat) (s : State) : Status :=
  checks [
    (decide (1 ≤ rd s (K.AUTH_MODE i.tr)) && !i.auth, .auth),
    (i.tr == 4 && !(index == 0x2000 + i.sub && (sub == 9 || sub == 0xA)), .access),
    (decide (rd s K.ROLE = 2 ∨ rd s K.ROLE = 3) && !standbyMay index sub, .notAuthoritative)]

/-- Durable work is held, or the journal has no room for the octets (R113). -/
def noRoom (octets : Nat) (s : State) : Bool := s.pair.holding || (jrnlFit s (continuations octets)).isNone

/-- What any write meets before its own checks. What is being accepted has passed it. -/
def writeGate (i : Inst) (index sub octets : Nat) (s : State) : Status :=
  if s.dic.accepting.isSome then .ok
  else worst (rightsGate i index sub s) (if noRoom octets s then .busy else .ok)

/-- Octets of a value as the journal and a response carry it. -/
def keyOctets (s : State) (k : Nat) : Bytes :=
  match entryOf (keyIndex k) (keySub k) with
  | some e => if e.ty.size = 0 then rdBlob s k else leBytes e.ty.size (rd s k)
  | none => []

/-- Table SCH-5: the repeat key of the dictionary engine's work: transport, instance and envelope SEQ; of a leg control
transaction, leg and TXN. A node's transaction has no envelope, so none (assumption 36). -/
def dedupOf : Durable → Option Nat
  | .dictWrite i .. | .group i .. | .blobClose i .. =>
    if 4 ≤ i.tr then none else some (instNum i * 4294967296 + i.seq + 1)
  | .legCtrl _ _ leg txn .. => some (leg * 4294967296 + txn + 1)
  | _ => none

/-- R144: a repeat of work accepted is answered OK at once; one of work that waits is held with it. -/
def repeated (act : Durable) (i : Inst) (tag op index sub : Nat) (s : State) : Option State :=
  if s.dic.accepting.isSome then none else
  match (dedupOf act).bind (findRepeat s (classOf act) 2) with
  | some (.repeatPending n) =>
    some (bump K.DEDUP_HITS { s with dic.repeats := s.dic.repeats ++ [(n, i, tag, op, index, sub)] })
  | some _ => some (respond i tag op index sub .ok [] (bump K.DEDUP_HITS s))
  | none => none

/-- Durable work of the dictionary engine takes effect: its entry is accepted and COMMITTED (R113, R146). The entry is the
one being accepted, or one written in this step. What a standby or a hub in ISLAND accepts under R465 is not journaled. -/
def acceptAs (cls octets : Nat) (act : Durable) (s : State) : State :=
  if s.dic.quiet || !serves s then { s with dic.accepting := none } else
  let effect (n : Nat) (s : State) : State :=
    jrnlCommit n (jrnlAccepted n { s with dic.accepting := none, dic.entry := n })
  match s.dic.accepting with
  | some n => effect n s
  | none =>
    match jrnlWrite cls 2 0 0xFFFF 0 octets (dedupOf act) act s with
    | (.written n, s) => effect n s
    | (_, s) => s

/-- A dictionary write of class 1. -/
def acceptNow (i : Inst) (tag index sub : Nat) (value : Bytes) (s : State) : State :=
  acceptAs 1 value.length (.dictWrite i tag index sub value) s

/-- R135, R146: a write waits for its acceptance in its journal entry while an earlier entry waits, or the peer's copy is
needed; otherwise its copies are made, and it is accepted, in the step that checks it. -/
def defers (s : State) : Bool :=
  serves s && s.dic.accepting.isNone && (pairHealthy s || s.sch.journal.any (fun e => e.state == 0))

/-- The entry of a write that waits. -/
def deferAs (cls octets : Nat) (act : Durable) (s : State) : State := (jrnlWrite cls 2 0 0xFFFF 0 octets (dedupOf act) act s).2

/-- R117: an RWP key written since the last flash write waits to be persisted; the entry that wrote it waits with it. -/
def markDirty (k : Nat) (s : State) : State :=
  match entryOf (keyIndex k) (keySub k) with
  | some e =>
    if e.acc = .rwp then
      let d := s.dic.dirty.filter (fun x => x.1 != k) ++ [(k, s.dic.entry)]
      let s := jrnlUpd s.dic.entry (fun e => { e with unpersisted := e.unpersisted ++ [k] }) s
      summary 7 true (wr K.PERSIST_PENDING d.length { s with dic.dirty := d })
    else s
  | none => s

/-- A CMD row with its value: its checks, its acceptance and effect when they pass, its answer. -/
def runCmdV (i : Inst) (tag index sub : Nat) (value : Bytes) (st : Status) (f : State → State) (s : State) : State :=
  if unserved i index sub true s then notServed i tag 2 index sub s else
  let st := worst (writeGate i index sub value.length s) st
  let act : Durable := .dictWrite i tag index sub value
  if st = .ok ∨ st = .pending then
    (repeated act i tag 2 index sub s).getD
      (if defers s then deferAs 1 value.length act s
       else cmdEnd i tag index sub st (f (acceptNow i tag index sub value s)))
  else cmdEnd i tag index sub st s

/-- A BOOL command. -/
def runCmd (i : Inst) (tag index sub : Nat) (st : Status) (f : State → State) (s : State) : State :=
  runCmdV i tag index sub [1] st f s

/-- A command that is answered PENDING before its action begins. -/
def runPending (i : Inst) (tag index sub : Nat) (value : Bytes) (st : Status) (f : State → State) (s : State) : State :=
  let act : Durable := .dictWrite i tag index sub value
  if worst (writeGate i index sub value.length s) st = .pending ∧ unserved i index sub true s = false then
    (repeated act i tag 2 index sub s).getD
      (if defers s then deferAs 1 value.length act s
       else f (cmdEnd i tag index sub .pending (acceptNow i tag index sub value s)))
  else runCmdV i tag index sub value st id s

/-- A command whose action follows its answer. -/
def runAfter (i : Inst) (tag index sub : Nat) (st : Status) (f : State → State) (s : State) : State :=
  if worst (writeGate i index sub 1 s) st = .ok ∧ unserved i index sub true s = false ∧ defers s = false
      ∧ (repeated (.dictWrite i tag index sub [1]) i tag 2 index sub s).isNone = true then
    f (cmdEnd i tag index sub .ok (acceptNow i tag index sub [1] s))
  else runCmd i tag index sub st id s

/-- A key is written as an accepted write: its effect, its entry, its wait for the flash. -/
def acceptWrite (i : Inst) (tag k : Nat) (value : Bytes) (f : State → State) (s : State) : State :=
  markDirty k (acceptNow i tag (keyIndex k) (keySub k) value (f s))

/-- The write of one key: its checks, its acceptance and effect when they pass, its answer (R113). -/
def runWriteV (i : Inst) (tag k : Nat) (value : Bytes) (st : Status) (f : State → State) (s : State) : State :=
  if unserved i (keyIndex k) (keySub k) true s then notServed i tag 2 (keyIndex k) (keySub k) s else
  let st := worst (writeGate i (keyIndex k) (keySub k) value.length s) st
  let act : Durable := .dictWrite i tag (keyIndex k) (keySub k) value
  if st = .ok then
    (repeated act i tag 2 (keyIndex k) (keySub k) s).getD
      (if defers s then deferAs 1 value.length act s
       else respond i tag 2 (keyIndex k) (keySub k) st [] (acceptWrite i tag k value f s))
  else respond i tag 2 (keyIndex k) (keySub k) st [] s

/-- The octet of a BOOL. -/
def boolOctet (on : Bool) : Bytes := [if on then 1 else 0]

/-- A row that is the write of one BOOL key. -/
def runWrite (i : Inst) (tag index sub : Nat) (on : Bool) (st : Status) (f : State → State) (s : State) : State :=
  runWriteV i tag (key index sub 0) (boolOctet on) st f s

/-- R479: a write of 1 to LEG_EN, DEC_EN, ENC_EN or OUT_EN is refused in the modes that forward no remote media. -/
def mediaMode (m : Nat) : Bool := m == mHybrid || m == mBridge || m == mIsland
def mediaStatus (on : Bool) (s : State) : Status := if on && !mediaMode (modeOf s) then .mode else .ok

/-- R426: an enable whose domain is parked is accepted, wakes the domain and is answered PENDING; COMPLETE follows once the
domain is in RUN. -/
def runEnable (i : Inst) (tag index sub : Nat) (st : Status) (d : Nat) (on : Bool) (f : State → State) (s : State) : State :=
  if worst (writeGate i index sub 1 s) st = .ok ∧ on = true ∧ needsWake s d = true ∧ defers s = false
      ∧ unserved i index sub true s = false
      ∧ (repeated (.dictWrite i tag index sub (boolOctet on)) i tag 2 index sub s).isNone = true then
    let s := wakeDomain d { s with pwr.waits := s.pwr.waits ++ [(d, index, sub)] }
    respondAs true i tag 2 index sub .pending [] (acceptWrite i tag (key index sub 0) (boolOctet on) f s)
  else runWrite i tag index sub on st f s

/-- SCHED_STATS_CLEAR: key F810:0D. -/
def writeSchedStatsClear (inst : Inst) (tag : Nat) (s : State) : State :=
  runCmd inst tag 0xF810 0x0D .ok clearSchedStats s

/-- SLOT_ERASE: key 7C40h + s:06. -/
def writeSlotErase (inst : Inst) (tag : Nat) (slot : Fin 64) (s : State) : State :=
  runCmd inst tag (0x7C40 + slot.val) 6 .ok (sealErase slot.val) s

/-- Key 7D00:0C of the leg the instance has selected: bit 0 erases the ingress context, bit 1 the egress context. A context
of an enabled leg is not erased (R406). -/
def legErase (inst : Inst) (tag v : Nat) (st : Status) (s : State) : State :=
  let leg := rd s (K.CIPHER_LEG (instNum inst))
  runCmdV inst tag 0x7D00 0x0C [BitVec.ofNat 8 v] (worst st (if rd s (K.LEG_EN leg) = 1 then .busy else .ok))
    (fun s => upd (bitOf v 1) (srtpErase true leg) (upd (bitOf v 0) (srtpErase false leg) s)) s

/-- IN_ERASE: key 7D00:0C, bit 0. -/
def writeInErase (inst : Inst) (tag : Nat) (s : State) : State := legErase inst tag 1 .ok s
/-- OUT_ERASE: key 7D00:0C, bit 1. -/
def writeOutErase (inst : Inst) (tag : Nat) (s : State) : State := legErase inst tag 2 .ok s

/-- CMD_COMPLETE: the action of a PENDING command ends with its final status. -/
def execCmdComplete (index sub : Nat) (st : Fin 12) (s : State) : Res :=
  .next (cmdComplete index sub (([.auth, .noEntry, .access, .notAuthoritative, .mode, .type, .range, .retired,
    .conflict, .busy, .pending, .ok] : List Status).getD st.val .ok) s)

end Sys2Proof.Machine
end

