-- ==== Sys2Proof/Machine/Time.lean ====
section
/-! DEFINITION. The Isobar timebase (chapter ISB): the count, its reference sources, qualification, holdover, slews,
PTP, the 10 MHz and PPS inputs, PPS and LX outputs. -/
namespace Sys2Proof.Machine

/-! ## The count (R26, R27, R40, R41) -/

/-- Timebase states of key 1000:01. -/
abbrev isbFree : Nat := 0
abbrev isbLocked : Nat := 1
abbrev isbHoldover : Nat := 2
abbrev isbLimp : Nat := 3

/-- The hub is in CALM or FROST (R422). -/
def hubAsleep (s : State) : Bool := rd s K.HUB_PSTATE == 2 || rd s K.HUB_PSTATE == 3

/-- PD0 AON_H counts cycles of the board oscillator: in CALM and FROST, and on the way back to RUN (R40). -/
def hubSlow (s : State) : Bool := hubAsleep s || rd s K.HUB_PSTATE == 4

/-- One step of the running clock: 2.5 ns in LIMP, 40 ns of the board oscillator in CALM and FROST, else one fine tick. -/
def tickSpan (s : State) : Instant :=
  if rd s K.ISB_STATE = isbLimp then 4 * fineTick else if hubSlow s then 40 * ns1 else fineTick

/-- The count after its next tick: ticks fall at whole multiples of the step since the epoch, so a change of the step is made
at a boundary of the longer one (R27, R40, R41). -/
def nextTick (s : State) : Instant := (s.isb.now / tickSpan s + 1) * tickSpan s

/-- An instant has come with the last tick. -/
def justNow (s : State) (t : Instant) : Bool := decide (t ≤ s.isb.now ∧ s.isb.now < t + tickSpan s)

/-- The Isobar counter runs from T0 of Table BOOT-3 on. -/
def isbRuns (s : State) : Bool := decide (1 ≤ s.boot.step)

/-- ISOBAR_FINE_TICK. While the hub's count stands, the field die's follower goes on by itself (R44). -/
def execIsobarFineTick (s : State) : Res :=
  .next (if isbRuns s then
      { s with isb.now := nextTick s, isb.elapsed := s.isb.elapsed + (nextTick s - s.isb.now)
               fld.elapsed := s.fld.elapsed + (nextTick s - s.isb.now) }
    else { s with fld.followerOffset := s.fld.followerOffset + fineTick, fld.elapsed := s.fld.elapsed + fineTick })

/-! ## Launch types and grains (Tables ISB-6, ISB-7) -/

/-- Launch types of Table ISB-7. -/
abbrev ltXpSwap : Nat := 1
abbrev ltEqSwap : Nat := 2
abbrev ltSrcSwitch : Nat := 3
abbrev ltLayerSwap : Nat := 4
abbrev ltGateTakeover : Nat := 5
abbrev ltLxEdge : Nat := 6
abbrev ltSapGroup : Nat := 7
abbrev ltHallHandover : Nat := 8
abbrev ltFieldMapSwap : Nat := 9
abbrev ltVoteOpen : Nat := 10
abbrev ltVoteClose : Nat := 11
abbrev ltNodeAction : Nat := 12

/-- States of Table ISB-6. -/
abbrev lsIdle : Nat := 0
abbrev lsArmed : Nat := 1
abbrev lsCommitted : Nat := 2
abbrev lsFired : Nat := 3
abbrev lsLate : Nat := 4
abbrev lsCancelled : Nat := 5
abbrev lsFailed : Nat := 6

/-- TIME plus FRAC. -/
def Launch.instant (l : Launch) : Instant := l.time * ns1 + l.frac

/-- R50: the first boundary of the target's grain at or after an instant (Table ISB-7); in LIMP the grain of LX pins is
2.5 ns (R41). The boundary of LAYER_SWAP is the output's picture boundary, which its own step finds. -/
def grainBoundary (s : State) (typ : Nat) (t : Instant) : Instant :=
  if typ = ltXpSwap ∨ typ = ltEqSwap ∨ typ = ltSapGroup ∨ typ = ltHallHandover ∨ typ = ltFieldMapSwap then ceilSample t
  else if typ = ltLxEdge then ceilTo (if rd s K.ISB_STATE = isbLimp then 4 * fineTick else fineTick) t
  else if typ = ltVoteOpen ∨ typ = ltVoteClose ∨ typ = ltNodeAction then ceilTo (8 * ns1) t
  else ceilTo ns1 t

/-! ## Steps (R29, R38, R39) -/

/-- What a step from `old` to `t` makes of a launch (R39): armed launches keep their instants; one that a forward step passes
is late and takes effect from `t` on. Launches carried to the field die keep to its follower. -/
def Launch.stepped (s : State) (old t : Instant) (l : Launch) : Launch :=
  if (l.state = lsArmed ∨ l.state = lsCommitted) ∧ (l.typ < ltHallHandover ∨ (l.typ ≠ ltHallHandover ∧ l.trunks = []))
      ∧ ((old ≤ l.instant ∧ l.instant < t) ∨ l.late = true ∨ grainBoundary s l.typ l.instant < t) then
    { l with late := true, from_ := t }
  else l

/-- Isobar steps to an instant (R29, R38, R39): what the hub keeps as instants of its count goes with it; the field die's
follower does not step, and a round trip under way is dropped. -/
def stepIsobar (t : Instant) (s : State) : State :=
  let d : Int := (t : Int) - s.isb.now
  { s with
    isb.now := t
    isb.launches := tabMap {} s.isb.launches (fun _ l => l.stepped s s.isb.now t)
    isb.sources := tabMap {} s.isb.sources (fun _ x => { x with offset := x.offset.map (fun o => o - d) })
    isb.ptp := { s.isb.ptp with
      t2 := ((s.isb.ptp.t2 : Int) + d).toNat
      pendingSync := s.isb.ptp.pendingSync.map (fun e => (e.1, ((e.2 : Int) + d).toNat))
      delayReq := s.isb.ptp.delayReq.map (fun e => (e.1, ((e.2 : Int) + d).toNat)) }
    isb.echoSent := none
    pair.echoSent := none
    fld.followerOffset := s.fld.followerOffset - d }

/-- NOW_LO_READ: the low bits of the count; NOW_HI and NOW_FRAC are latched for the function (Table ISB-1). -/
def execNowLoRead (fn : Nat) (s : State) : Res :=
  .next (emit (.regRead fn 0 0x4000 (nowNs s % 4294967296)) { s with
    isb.latchHi := tabSet 0 s.isb.latchHi fn (nowNs s / 4294967296 % 4294967296)
    isb.latchFrac := tabSet 0 s.isb.latchFrac fn (s.isb.now % ns1) })

/-! ## Frequency and slew (R36, R37) -/

/-- ±100 ppm in units of 2⁻⁴⁰. -/
abbrev freqLimit : Int := 109951162

/-- Put a frequency correction in force, clipped and counted (R37). -/
def setFreq (v : Int) (s : State) : State :=
  let c := if v > freqLimit then freqLimit else if v < -freqLimit then -freqLimit else v
  let s := upd (c != v) (bump K.CLIP_COUNT) s
  let keep := s.isb.freqLog.takeWhile (fun e => decide (clk s < e.1 + 1024 * s1))
  let older := (s.isb.freqLog.drop keep.length).take 1
  wrI 32 K.ISB_FREQ_ADJ c { s with isb.freqLog := (clk s, c) :: (keep ++ older) }

/-- R36: the mean correction between two times, from the log (newest first): time-weighted, rounded down. -/
def freqSum (lo : Instant) : Instant → List (Instant × Int) → Int
  | _, [] => 0
  | hi, (t, v) :: l => if t ≤ lo then v * ((hi - lo : Nat) : Int) else v * ((hi - t : Nat) : Int) + freqSum lo t l

/-- The mean correction of the last HOLDOVER_AVG seconds. -/
def meanFreq (s : State) : Int :=
  let w := min (rd s K.HOLDOVER_AVG * s1) (clk s)
  if w = 0 then rdI 32 s K.ISB_FREQ_ADJ else freqSum (clk s - w) (clk s) s.isb.freqLog / (w : Int)

/-- Begin a slew of an offset, in 2⁻¹⁶ ns, unless it is under 1 ns. ISB_OFFSET and SLEW_REMAINING hold whole nanoseconds
rounded down; one outside an I32 is kept modulo 2³² (DESIGN CHOICE, assumption 137). -/
def startSlew (off : Int) (s : State) : State :=
  let s := wrI 32 K.ISB_OFFSET (off / 65536) s
  if off.natAbs < ns1 then s else { s with isb.slew := true, isb.slewAt := clk s, isb.slewFrom := off }

/-- Stop a slew; nothing is carried over. -/
def stopSlew (s : State) : State := { s with isb.slew := false, isb.slewFrom := 0 }

/-- What remains of a slew: it goes at SLEW_LIMIT (ppb). -/
def slewLeft (s : State) : Int :=
  let done : Int := ((clk s - s.isb.slewAt) * rd s K.SLEW_LIMIT / 1000000000 : Nat)
  if s.isb.slewFrom ≥ 0 then max 0 (s.isb.slewFrom - done) else min 0 (s.isb.slewFrom + done)

/-- SLEW_REMAINING as it reads: 0 while nothing is slewed. -/
def slewRemaining (s : State) : Int := if s.isb.slew then slewLeft s / 65536 else 0

/-- A write of SLEW_LIMIT during a slew: what has been slewed stays so, and the rest goes at the new rate (R36;
DEDUCED, assumption 170). -/
def slewLimit (v : Nat) (s : State) : State :=
  wr K.SLEW_LIMIT v (if s.isb.slew then { s with isb.slewFrom := slewLeft s, isb.slewAt := clk s } else s)

/-- SLEW_END: the offset is under 1 ns. -/
def execSlewEnd (s : State) : Res :=
  .next (if s.isb.slew = true ∧ (slewLeft s).natAbs < ns1 then stopSlew s else s)

/-! ## Sources (R31, R32, R35, R36, R38) -/

/-- Sources by code minus 1. -/
abbrev srcPtpData : Nat := 0
abbrev srcPtpMgmt : Nat := 1
abbrev srcExt : Nat := 2
abbrev srcPeer : Nat := 3

/-- What the hub keeps of a source. -/
def sourceOf (s : State) (i : Nat) : Source := tabGet {} s.isb.sources i
def sourceUpd (i : Nat) (f : Source → Source) (s : State) : State :=
  { s with isb.sources := tabMod {} s.isb.sources i f }

/-- The pair roles of key 0900:03. -/
abbrev roleNone : Nat := 0
abbrev roleActive : Nat := 1
abbrev roleStandby : Nat := 2
abbrev roleIsland : Nat := 3
def roleOf (s : State) : Nat := rd s K.ROLE

/-- R31: the source may be selected: qualified, not disabled, and PEER only on a standby whose peer is usable. -/
def srcEligible (s : State) (i : Nat) : Bool :=
  rd s (K.SRC_STATUS i) == 2 && rd s (K.SRC_PRIO i) != 255
    && (i != srcPeer || (roleOf s == roleStandby && s.isb.peerUsable))

/-- R31: the eligible source with the lowest priority number, ties to the lower code. -/
def bestSource (s : State) : Option Nat :=
  [0, 1, 2, 3].foldl (fun b i =>
    if !srcEligible s i then b else
    match b with
    | none => some i
    | some j => if rd s (K.SRC_PRIO i) < rd s (K.SRC_PRIO j) then some i else b) none

/-- The selected source, if any. -/
def selected (s : State) : Option Nat := if rd s K.ISB_SOURCE = 0 then none else some (rd s K.ISB_SOURCE - 1)

/-- R34: before 1001:02 has been written EXT corrects the sub-second part only: the offset to the nearest second. -/
def srcTarget (s : State) (i : Nat) (off : Int) : Int :=
  if i = srcExt ∧ s.isb.todKnown = false then (s.isb.now : Int) + ((off + s1 / 2) % s1 - s1 / 2) else (s.isb.now : Int) + off

/-- R38: the single initial alignment: Isobar steps to the source's time at a fine-tick boundary and EVER_Q is set. -/
def initialAlign (target : Int) (s : State) : State :=
  wr K.EVER_QUALIFIED 1 (stepIsobar (target.toNat / fineTick * fineTick) s)

/-- R38: the first alignment: a step where INIT_STEP_EN allows it, else a slew. -/
def firstAlign (target : Int) (s : State) : State :=
  if rd s K.INIT_STEP_EN = 1 then initialAlign target s else wr K.EVER_QUALIFIED 1 (startSlew (target - s.isb.now) s)

/-- The hub takes the best source, if it is not the one selected: LOCKED, its offset aligned (the first time) or slewed. In
LIMP, whose state nothing but a cold reset ends, none is taken (R41, assumption 138). -/
def selectSource (s : State) : State :=
  if rd s K.ISB_STATE = isbLimp then s else
  match bestSource s with
  | none => s
  | some i =>
    if selected s = some i then s else
    let off := (sourceOf s i).offset.getD 0
    let first := rd s K.EVER_QUALIFIED == 0
    let s := stopSlew s
    let s := summary 2 false (wr K.ISB_SOURCE (i + 1) (wr K.ISB_STATE isbLocked s))
    if first then firstAlign (srcTarget s i off) s else startSlew (srcTarget s i off - s.isb.now) s

/-- R36: HOLDOVER at the held mean frequency; a slew stops. -/
def enterHoldover (s : State) : State :=
  if rd s K.ISB_STATE = isbLimp then s else
  let s := summary 2 true (wr K.ISB_SOURCE 0 (wr K.ISB_STATE isbHoldover (stopSlew s)))
  setFreq (meanFreq s) s

/-- R31: what makes a source eligible has changed: a selected one that no longer is is left as a disqualified one is, and the
best source is taken. -/
def reselect (s : State) : State :=
  selectSource (match selected s with | some i => if srcEligible s i then s else enterHoldover s | none => s)

/-- R35: a source meets a condition of Table ISB-4. -/
def disqualify (i reason : Nat) (s : State) : State :=
  let s := wr (K.SRC_REASON i) reason (wr (K.SRC_STATUS i) 3 s)
  let s := sourceUpd i (fun x => { x with cleanSince := clk s, stopped := reason == 1, marks := [] }) s
  if selected s = some i then selectSource (enterHoldover s) else s

/-- Something came from a source: an absent one begins to qualify, a stopped one begins its clean time. -/
def sourceSeen (i : Nat) (s : State) : State :=
  let s := upd (rd s (K.SRC_STATUS i) == 0) (fun s =>
    wr (K.SRC_STATUS i) 1 (sourceUpd i (fun x => { x with cleanSince := clk s }) s)) s
  if (sourceOf s i).stopped then sourceUpd i (fun x => { x with stopped := false, cleanSince := clk s }) s else s

/-- SOURCE_QUALIFY: REQUAL_TIME has passed with no condition met; `offset` is the offset then measured. -/
def execSourceQualify (src : Fin 4) (offset : Int) (s : State) : Res :=
  let i := src.val
  let x := sourceOf s i
  let st := rd s (K.SRC_STATUS i)
  let present := i != srcExt || (rd s K.REF10M_EN == 1 && rd s K.PPS_IN_EN == 1)
  if (st = 1 ∨ st = 3) ∧ x.stopped = false ∧ present = true
      ∧ x.cleanSince + rd s K.REQUAL_TIME * s1 ≤ clk s then
    .next (selectSource (wr (K.SRC_STATUS i) 2 (sourceUpd i (fun x => { x with offset := some offset }) s)))
  else .next s

/-- 2ⁿ seconds. -/
def logInterval (n : Int) : Instant := if n ≥ 0 then s1 * 2 ^ n.toNat else s1 / 2 ^ (-n).toNat

/-- announceReceiptTimeout, as a span. -/
def announceSpan (s : State) : Instant := rd s K.ANNOUNCE_TIMEOUT * logInterval (rdI 16 s K.LOG_ANNOUNCE)

/-- R35: the STOP condition of a source holds. -/
def stopMet (s : State) (i : Nat) : Bool :=
  if i = srcExt then
    (match s.isb.refLast with | some t => decide (t + 200 * ns1 ≤ clk s) | none => true)
      || (match s.isb.ppsSeen with | some t => decide (t + 1500 * ms1 ≤ clk s) | none => true)
  else if i = srcPeer then decide (s.pair.lastGood + rd s K.PAIR_LINK_TIMEOUT * us1 ≤ clk s)
  else
    decide (s.isb.ptp.lastAnnounce + announceSpan s ≤ clk s)
      || (match s.isb.ptp.lastSync with
        | some (_, t) => decide (t + 3 * logInterval (rdI 16 s K.LOG_SYNC) ≤ clk s)
        | none => true)

/-- SOURCE_STOP_TIMEOUT: no edge or message for the source's STOP time. -/
def execSourceStopTimeout (src : Fin 4) (s : State) : Res :=
  .next (if rd s (K.SRC_STATUS src.val) ≠ 0 ∧ stopMet s src.val = true then
      disqualify src.val 1 (if src.val = srcExt then { s with isb.ppsEdges := [], isb.ppsSecond := none } else s)
    else s)

/-- A new measurement of the selected source disciplines the loop (R37). -/
def discipline (i : Nat) (off : Int) (s : State) : State :=
  let s := sourceUpd i (fun x => { x with offset := some off }) s
  if selected s = some i ∧ rd s K.ISB_STATE = isbLocked then
    setFreq (Config.loopCorrection (rd s K.LOOP_BW) off (rdI 32 s K.ISB_FREQ_ADJ)) (wrI 32 K.ISB_OFFSET (off / 65536) s)
  else s

/-- Two spans differ by more than 50 ppm of the first. -/
def rateBad (ref loc : Int) : Bool := decide ((ref - loc).natAbs * 20000 > ref.natAbs)

/-- RATE and PHASE of a message source: `n` messages for RATE; a step of the offset over 1 µs. -/
def messageChecks (n : Nat) (x : Source) (refTime : Int) (now : Nat) (off : Int) : Option Nat :=
  let marks := (refTime, now) :: x.marks
  match marks[n - 1]? with
  | some (r, l) =>
    if rateBad (refTime - r) ((now : Int) - l) then some 3
    else if (match x.offset with | some o => decide ((off - o).natAbs > us1) | none => false) then some 4 else none
  | none => if (match x.offset with | some o => decide ((off - o).natAbs > us1) | none => false) then some 4 else none

/-- A time measurement of a message source: its checks, then the loop. -/
def measured (i n : Nat) (refTime : Int) (off : Int) (s : State) : State :=
  match messageChecks n (sourceOf s i) refTime (clk s) off with
  | some r => sourceUpd i (fun x => { x with offset := some off }) (disqualify i r s)
  | none =>
    discipline i off
      (sourceUpd i (fun x => { x with marks := ((refTime, clk s) :: x.marks).take 16 }) (sourceSeen i s))

/-! ## External 10 MHz and PPS (R34, R35) -/

/-- RATE over 4 edges: the whole seconds between the first and this one, as Isobar measures them. -/
def ppsRate (now : Nat) : Option Nat → Bool
  | some t => rateBad (((now - t + s1 / 2) / s1 * s1 : Nat) : Int) ((now - t : Nat) : Int)
  | none => false

/-- PHASE: an edge more than 1 µs from the whole second after the last. -/
def ppsPhase (now : Nat) : Option Nat → Bool
  | some t => decide ((((now - t : Nat) : Int) - (((now - t + s1 / 2) / s1 * s1 : Nat) : Int)).natAbs > us1)
  | none => false

/-- Reason a PPS_IN timing edge meets, if any. -/
def ppsReason (now : Nat) (edges : List Instant) : Option Nat :=
  if ppsRate now (edges.drop 2).head? then some 3 else if ppsPhase now edges.head? then some 4 else none

/-- The second that begins at a PPS_IN edge, less the cable delay, as an offset reference minus Isobar. -/
def ppsOffset (s : State) : Int :=
  let edge : Int := (s.isb.now : Int) - rdI 32 s K.PPS_IN_DELAY * 65536
  match s.isb.ppsSecond with
  | some sec => (sec * ns1 : Nat) - edge
  | none =>
    let r := edge % s1
    if r < s1 / 2 then -r else (s1 : Int) - r

/-- Whole seconds since the last timing edge. -/
def ppsGap (s : State) : Nat :=
  match s.isb.ppsEdges.head? with | some t => (clk s - t + s1 / 2) / s1 | none => 1

/-- A timing edge: 1001:02 names its second, else it counts on from the last; one that meets RATE or PHASE is no reference for
the next checks (R35). -/
def ppsTiming (s : State) : State :=
  let sec := match s.isb.todNext with
    | some t => some t
    | none => s.isb.ppsSecond.map (· + ppsGap s * 1000000000)
  let u := upd (rd s K.REF10M_EN == 1) (sourceSeen srcExt) { s with isb.todNext := none }
  match ppsReason (clk s) s.isb.ppsEdges with
  | some r => disqualify srcExt r { u with isb.ppsSecond := sec.map (· - ppsGap s * 1000000000) }
  | none =>
    let u := { u with isb.ppsEdges := (clk s :: s.isb.ppsEdges).take 3, isb.ppsSecond := sec }
    discipline srcExt (ppsOffset u) u

/-- An edge under 999 ms after the last. -/
def ppsGlitch (s : State) : Bool :=
  match s.isb.ppsEdges.head? with
  | some t => decide (clk s < t + 999 * ms1)
  | none => false

/-- PPS_IN_EDGE. An edge that meets GLITCH is no timing edge. -/
def execPpsInEdge (rising : Bool) (s : State) : Res :=
  .next (if rd s K.PPS_IN_EN = 0 ∨ rising ≠ (rd s K.PPS_IN_EDGE == 0) then s
    else if ppsGlitch s then disqualify srcExt 2 { s with isb.ppsSeen := some (clk s) }
    else ppsTiming { s with isb.ppsSeen := some (clk s) })

/-- REF10M_IN_EDGE: GLITCH is an interval outside 90–110 ns; RATE is measured over 1 ms of good intervals. -/
def execRef10mInEdge (s : State) : Res :=
  if rd s K.REF10M_EN = 0 then .next s else
  let s := upd (rd s K.PPS_IN_EN == 1) (sourceSeen srcExt) s
  match s.isb.refLast with
  | none => .next { s with isb.refLast := some (clk s) }
  | some t =>
    let d := clk s - t
    let s := { s with isb.refLast := some (clk s) }
    if d < 90 * ns1 ∨ 110 * ns1 < d then .next (disqualify srcExt 2 s)
    else if s.isb.refSum + d < ms1 then
      .next { s with isb.refSum := s.isb.refSum + d, isb.refCount := s.isb.refCount + 1 }
    else
      let bad := rateBad ((s.isb.refCount + 1) * 100 * ns1 : Nat) ((s.isb.refSum + d : Nat) : Int)
      let s := { s with isb.refSum := 0, isb.refCount := 0 }
      .next (if bad then disqualify srcExt 3 s else s)

/-- TOD_SET: key 1001:02; a value that is not a whole second fails with RANGE. -/
def todSet (ns : Nat) (s : State) : State := { s with isb.todNext := some ns, isb.todKnown := true }
def todStatus (ns : Nat) : Status := if ns % 1000000000 = 0 then .ok else .range
def writeTodSet (inst : Inst) (tag : Nat) (ns : Nat) (s : State) : State :=
  runCmdV inst tag 0x1001 2 (leBytes 8 ns) (todStatus ns) (todSet ns) s

/-- Slots ARMED or COMMITTED. -/
def armedCount (s : State) : Nat :=
  (s.isb.launches.filter (fun e => decide (e.1 < 0x400 ∧ (e.2.state = 1 ∨ e.2.state = 2)))).length

/-- ISB_STEP: key 1001:01, only in SERVICE with no launch armed. -/
def isbStepStatus (s : State) : Status :=
  if modeOf s ≠ mService then .mode else if armedCount s ≠ 0 then .busy else .ok
/-- Isobar steps to the value, rounded down to a fine tick (DESIGN CHOICE, assumption 139). -/
def isbStep (ns : Nat) (s : State) : State := stepIsobar (ns * ns1 / fineTick * fineTick) s
def writeIsbStep (inst : Inst) (tag : Nat) (ns : Nat) (s : State) : State :=
  runCmdV inst tag 0x1001 1 (leBytes 8 ns) (isbStepStatus s) (isbStep ns) s

/-! ## PTP (R33) -/

/-- The PTP source: PTP_DATA on a data port, PTP_MGMT on the management port. -/
def ptpSrc (s : State) : Nat := if rd s K.PTP_PORT = 8 then srcPtpMgmt else srcPtpData

/-- clockClass sent as grandmaster (Table ISB-3). -/
def ptpClass (s : State) : Nat :=
  if rd s K.ISB_STATE = isbLocked ∧ rd s K.ISB_SOURCE = 3 ∧ s.isb.todKnown = true then 6
  else if rd s K.ISB_STATE = isbHoldover then 7 else 248

/-- Change the PTP port state. -/
def ptpUpd (f : Ptp → Ptp) (s : State) : State := { s with isb.ptp := f s.isb.ptp }

/-- The hub's own clock, as it announces itself: accuracy and variance are its own (Config), its identity SERIAL (assumption
11). -/
def ptpData (s : State) : PtpData :=
  let c := ptpClass s
  { priority1 := rd s K.PRIORITY1, clockClass := c, accuracy := Config.clockAccuracy c, variance := Config.clockVariance c
    priority2 := rd s K.PRIORITY2, identity := rd s K.SERIAL, utcOffset := rd s K.UTC_OFFSET, domain := rd s K.PTP_DOMAIN
    transport := rd s K.PTP_TRANSPORT, dscp := rd s K.PTP_DSCP }

/-- What the default best master clock algorithm compares, in order: the lower wins (assumption 11). -/
def msgRank (m : PtpMsg) : List Nat :=
  [m.priority1, m.clockClass, m.accuracy, m.variance, m.priority2, m.gm, m.steps, m.sender]
def dataRank (d : PtpData) : List Nat :=
  [d.priority1, d.clockClass, d.accuracy, d.variance, d.priority2, d.identity, d.steps, 0]

/-- The best of the foreign masters heard within announceReceiptTimeout intervals. -/
def bestForeign (s : State) : Option PtpMsg :=
  (s.isb.ptp.foreign.filter (fun e => decide (clk s < e.2 + announceSpan s))).foldl
    (fun b e => match b with
      | none => some e.1
      | some m => if msgRank e.1 < msgRank m then some e.1 else some m) none

/-- The announced clock is better than this one. -/
def betterMaster (s : State) (m : PtpMsg) : Bool := decide (msgRank m < dataRank (ptpData s))

/-- The instant at which a port stamps an event message: to 0.625 ns at a data port, 8 ns at the management port, rounded
down (Table ISB-3; assumption 159). -/
def ptpStamp (p : Nat) (t : Instant) : Instant := let g := if p = 8 then 8 * ns1 else fineTick; t / g * g

/-- A PTP message enters system queue 9 for its port (R275). -/
def ptpSend (kind : PtpKind) (time seq requester : Nat) (s : State) : State :=
  let p := rd s K.PTP_PORT
  let v6 := rd s K.PTP_TRANSPORT == 1
  let headers := 14 + (if p < 8 ∧ rd s (K.VLAN p) ≠ 0xFFFF then 4 else 0)
    + (if rd s K.PTP_TRANSPORT = 2 then 0 else (if v6 then 40 else 20) + 8)
  let body := match kind with | .announce => 64 | .delayResp => 54 | _ => 44
  (admitPacket (qSys 9) { content := .ptp kind time seq requester (ptpData s), len := max 60 (headers + body), cls := 3,
                          v6 := v6, arrival := s.isb.now } s).2

/-- An event message leaves at its transmit stamp: the Follow_Up of a Sync carries it, and it is t3 of a Delay_Req (R33). -/
def ptpSent (kind : PtpKind) (seq : Nat) (at_ : Instant) (s : State) : State :=
  match kind with
  | .sync => ptpSend .followUp at_ seq 0 s
  | .delayReq => ptpUpd (fun p => { p with delayReq := match p.delayReq with
      | some (q, t) => some (q, if q = seq then at_ else t)
      | none => none }) s
  | _ => s

/-- The foreign master followed: its facts, GM when the grandmaster changes. -/
def ptpFollow (m : PtpMsg) (s : State) : State :=
  let i := ptpSrc s
  let changed : Bool := match s.isb.ptp.gm with | some g => g != m.gm | none => false
  let s := upd (s.isb.ptp.master != some m.sender) (ptpUpd (fun p =>
    { p with lastSync := none, pendingSync := none, delayReq := none })) s
  let s := ptpUpd (fun p => { p with isMaster := false, gm := some m.gm, master := some m.sender }) s
  let s := wr K.GM_IDENTITY m.gm (wr K.STEPS_REMOVED m.steps (sourceSeen i s))
  let s := upd (selected s == some i) (wrI 16 K.UTC_OFFSET m.utcOffset) s
  if changed then disqualify i 5 s else s

/-- An Announce enters the table of foreign masters; the best of them is followed, unless this clock is better and may be
grandmaster. -/
def ptpAnnounce (m : PtpMsg) (s : State) : State :=
  if m.malformed then s else
  let s := ptpUpd (fun p => { p with foreign := (m, clk s) :: p.foreign.filter (fun e => e.1.sender != m.sender) }) s
  match bestForeign s with
  | none => s
  | some b =>
    if rd s K.PTP_ROLE = 1 ∧ betterMaster s b = false then ptpUpd (fun p => { p with isMaster := true, master := none }) s
    else ptpFollow b (upd (m.sender == b.sender) (ptpUpd (fun p => { p with lastAnnounce := clk s })) s)

/-- Sync received at t2 with origin time t1: the filtered offset and its checks. -/
def ptpOffset (t1 t2 : Nat) (s : State) : State :=
  let i := ptpSrc s
  let s := ptpUpd (fun p => { p with t1 := t1, t2 := t2, pendingSync := none }) s
  let raw := (t1 : Int) + s.isb.ptp.pathDelay + rdI 32 s K.PTP_ASYMMETRY * 65536 - t2
  let off := match (sourceOf s i).offset with | some o => Config.filterOffset o raw | none => raw
  measured i 16 t1 off s

/-- A Sync received at `at_`: out of sequence or malformed is GLITCH. -/
def ptpSync (m : PtpMsg) (at_ : Instant) (s : State) : State :=
  let i := ptpSrc s
  let p := s.isb.ptp
  let bad := m.malformed || (match p.lastSync with | some (q, _) => m.seqId != (q + 1) % 65536 | none => false)
  let s := sourceSeen i (ptpUpd (fun p => { p with lastSync := some (m.seqId, clk s) }) s)
  if bad then disqualify i 2 s
  else if m.twoStep then ptpUpd (fun p => { p with pendingSync := some (m.seqId, at_) }) s
  else ptpOffset m.time at_ s

/-- A Follow_Up completes the two-step Sync of its sequence number. -/
def ptpFollowUp (m : PtpMsg) (s : State) : State :=
  match s.isb.ptp.pendingSync with
  | some (q, t2) => if m.malformed = false ∧ m.seqId = q then ptpOffset m.time t2 s else disqualify (ptpSrc s) 2 s
  | none => disqualify (ptpSrc s) 2 s

/-- A Delay_Resp to this clock gives the path delay ((t2 − t1) + (t4 − t3)) ÷ 2. -/
def ptpDelayResp (m : PtpMsg) (s : State) : State :=
  match s.isb.ptp.delayReq with
  | some (q, t3) =>
    if m.seqId = q ∧ m.requester = rd s K.SERIAL then
      ptpUpd (fun p => { p with delayReq := none, pathDelay := (((p.t2 : Int) - p.t1) + ((m.time : Int) - t3)) / 2 }) s
    else s
  | none => s

/-- A PTP message of the port, domain and transport set is processed, or discarded and counted when not supported; a slave
takes Syncs and responses from the clock it follows. `at_` is its receive stamp. -/
def ptpMessage (m : PtpMsg) (at_ : Instant) (s : State) : State :=
  if m.port ≠ rd s K.PTP_PORT ∨ m.domain ≠ rd s K.PTP_DOMAIN ∨ m.transport ≠ rd s K.PTP_TRANSPORT then s else
  let followed := s.isb.ptp.master == some m.sender && !s.isb.ptp.isMaster
  match m.kind with
  | .announce => ptpAnnounce m s
  | .sync => if followed then ptpSync m at_ s else s
  | .followUp => if followed then ptpFollowUp m s else s
  | .delayReq => if s.isb.ptp.isMaster then ptpSend .delayResp at_ m.seqId m.sender s else s
  | .delayResp => if followed then ptpDelayResp m s else s
  | .other => bump K.PTP_DISCARDS s

/-- PTP_MESSAGE: a message at the PTP port, stamped now. -/
def execPtpMessage (m : PtpMsg) (s : State) : Res := .next (ptpMessage m (ptpStamp m.port s.isb.now) s)

/-- As GM_CAPABLE the port is grandmaster: it won, or no Announce came within announceReceiptTimeout. -/
def ptpIsMaster (s : State) : Bool :=
  rd s K.PTP_ROLE == 1 && (s.isb.ptp.isMaster || decide (s.isb.ptp.lastAnnounce + announceSpan s ≤ clk s))

/-- 2ⁿ seconds, n a key, have passed since a message was last sent. -/
def intervalOver (s : State) (log : Nat) : Option Instant → Bool
  | some t => decide (t + logInterval (rdI 16 s log) ≤ clk s)
  | none => true

/-- PTP_SYNC_INTERVAL: a two-step Sync; its Follow_Up is sent when it has left. -/
def execPtpSyncInterval (s : State) : Res :=
  if !ptpIsMaster s || !intervalOver s K.LOG_SYNC s.isb.ptp.syncAt then .next s else
  let q := s.isb.ptp.txSeq
  let s := ptpUpd (fun p => { p with isMaster := true, txSeq := (q + 1) % 65536, syncAt := some (clk s) }) s
  .next (ptpSend .sync s.isb.now q 0 s)

/-- PTP_DELAY_REQ_INTERVAL: the slave sends a Delay_Req. -/
def execPtpDelayReqInterval (s : State) : Res :=
  if ptpIsMaster s || s.isb.ptp.lastSync.isNone || !intervalOver s K.LOG_DELAY_REQ s.isb.ptp.reqAt then .next s else
  let q := s.isb.ptp.reqSeq
  let s := ptpUpd (fun p =>
    { p with delayReq := some (q, s.isb.now), reqSeq := (q + 1) % 65536, reqAt := some (clk s) }) s
  .next (ptpSend .delayReq s.isb.now q 0 s)

/-- PTP_ANNOUNCE_INTERVAL: the grandmaster announces itself with its data set. -/
def execPtpAnnounceInterval (s : State) : Res :=
  if !ptpIsMaster s || !intervalOver s K.LOG_ANNOUNCE s.isb.ptp.annAt then .next s else
  let q := s.isb.ptp.annSeq
  let s := ptpUpd (fun p => { p with isMaster := true, annSeq := (q + 1) % 65536, annAt := some (clk s) }) s
  .next (ptpSend .announce s.isb.now q 0 s)

/-! ## Barrier delay (R42) -/

/-- The hub starts a round trip over the barrier. -/
def barrierMeasure (s : State) : State :=
  if lanokUp s then { (lanokSend true (.timeEcho s.isb.now 0) s) with isb.echoSent := some s.isb.now, isb.barrierAt := clk s } else s

/-- BARRIER_DELAY_MEASURE: every 10 s. -/
def execBarrierDelayMeasure (s : State) : Res :=
  .next (if s.isb.barrierAt + 10 * s1 ≤ clk s then barrierMeasure s else s)

/-- TIME_ECHO: at the field die the echo goes back with the hold time (ps); at the hub half the round trip is the
barrier delay. -/
def execTimeEcho (atHub : Bool) (h : LHdr) (sent holdPs : Nat) (s : State) : Res :=
  onLanok atHub false h (fun s =>
    if atHub then
      match s.isb.echoSent with
      | some t =>
        if t = sent then
          wr K.BARRIER_DELAY (((s.isb.now - t) * 1000 / ns1 - holdPs) / 2) { s with isb.echoSent := none }
        else s
      | none => s
    else lanokSend false (.timeEcho sent holdPs) s) s

/-! ## PPS and LX outputs (R59, R60) -/

/-- Claim one Isobar comparator for an owner: the lowest free (R16, R49). -/
def claimComparator (owner : Nat) (s : State) : Option (Nat × State) :=
  (lowestFree s 1 0 1024).map (fun c => (c, setClaim 1 c owner s))

/-- Enabling a PPS output claims a comparator. -/
def ppsEnStatus (n on : Nat) (s : State) : Status :=
  if on = 1 ∧ rd s (K.PPS_EN n) = 0 ∧ (lowestFree s 1 0 1024).isNone then .conflict else .ok
def ppsEn (n on : Nat) (s : State) : State :=
  let owner := ownKey (0x1050 + n) 1
  let s' := wr (K.PPS_EN n) on s
  if on = 1 then
    if rd s (K.PPS_EN n) = 0 then (match claimComparator owner s' with | some (_, s) => s | none => s') else s'
  else unclaimAll 1 owner (emit (.pin (if n = 0 then "PPS_OUT0" else "PPS_OUT1") false)
    { s' with isb.ppsLevel := tabSet 0 s'.isb.ppsLevel n 0, isb.ppsEnd := tabSet 0 s'.isb.ppsEnd n 0 })

/-- The name of a PPS output. -/
def ppsName (n : Nat) : String := if n = 0 then "PPS_OUT0" else "PPS_OUT1"

/-- R59: the newest instant t, a whole ns with (t − offset) mod period = 0, at or before now. -/
def ppsInstant (s : State) (i : Nat) : Instant :=
  (nowNs s - (((nowNs s : Int) - rdI 32 s (K.PPS_OFFSET i)) % (rd s (K.PPS_PERIOD i) : Int)).toNat) * ns1

/-- PPS_OUT_EDGE: at an instant t with (t − offset) mod period = 0 an enabled output begins its pulse; with gating set
it stays idle in FREE and LIMP. -/
def execPpsOutEdge (n : Fin 2) (s : State) : Res :=
  let i := n.val
  let st := rd s K.ISB_STATE
  let gated := rd s (K.PPS_GATING i) == 1 && (st == isbFree || st == isbLimp)
  let t := ppsInstant s i
  if rd s (K.PPS_EN i) = 1 ∧ gated = false ∧ justNow s t = true then
    .next (emit (.pin (ppsName i) true) { s with
      isb.ppsLevel := tabSet 0 s.isb.ppsLevel i 1
      isb.ppsEnd := tabSet 0 s.isb.ppsEnd i (clk s + rd s (K.PPS_WIDTH i) * ns1 - (s.isb.now - t)) })
  else .next s

/-- PPS_OUT_PULSE_END: the width has passed. -/
def execPpsOutPulseEnd (n : Fin 2) (s : State) : Res :=
  let e := tabGet 0 s.isb.ppsEnd n.val
  .next (if e ≠ 0 ∧ e ≤ clk s then
    emit (.pin (ppsName n.val) false)
      { s with isb.ppsLevel := tabSet 0 s.isb.ppsLevel n.val 0, isb.ppsEnd := tabSet 0 s.isb.ppsEnd n.val 0 }
    else s)

/-- The name of an LX pin. -/
def lxName (n : Nat) : String := if n = 0 then "LX0" else if n = 1 then "LX1" else if n = 2 then "LX2" else "LX3"

/-- Drive an LX pin. -/
def lxDrive (n level : Nat) (s : State) : State := emit (.pin (lxName n) (level == 1)) (wr (K.LX_LEVEL n) level s)

/-- LX_PULSE_END: the width of a pulse has passed and the pin drives LX_IDLE. -/
def execLxPulseEnd (n : Fin 4) (s : State) : Res :=
  let ends := tabGet [] s.isb.lxEnd n.val
  .next (if ends.any (fun e => decide (e ≤ clk s)) = true ∧ rd s (K.LX_EN n.val) = 1 then
    lxDrive n.val (rd s (K.LX_IDLE n.val))
      { s with isb.lxEnd := tabSet [] s.isb.lxEnd n.val (ends.filter (fun e => decide (clk s < e))) }
    else s)

/-- A write of LX_IDLE: an enabled pin drives its idle level until a launch acts on it (R60). -/
def lxIdle (n v : Nat) (s : State) : State :=
  let s := wr (K.LX_IDLE n) v s
  if rd s (K.LX_EN n) = 1 ∧ tabGet 0 s.isb.lxActed n = 0 then lxDrive n v s else s

/-- PPS_EN: keys 1050:01 and 1051:01. -/
def writePpsEn (inst : Inst) (tag : Nat) (n : Fin 2) (on : Bool) (s : State) : State :=
  runWrite inst tag (0x1050 + n.val) 1 on (ppsEnStatus n.val (b2n on) s) (ppsEn n.val (b2n on)) s

end Sys2Proof.Machine
end

