-- ==== Sys2Proof/Machine/Launch.lean ====
section
/-! DEFINITION. Launches in force (R49–R58): their boundaries, what they hold, how they complete, LX edges. Arming and
cancelling, which check every chapter's targets, are in Arm.lean. -/
namespace Sys2Proof.Machine

/-- Commit lead of a type (Table ISB-7). -/
def commitLead (typ : Nat) : Instant :=
  if typ ≤ 7 then 2 * us1 else if typ ≤ 9 then 200 * us1 else ms1

/-- A launch by number. -/
def launchOf (s : State) (n : Nat) : Launch := tabGet {} s.isb.launches n
def launchUpd (n : Nat) (f : Launch → Launch) (s : State) : State :=
  { s with isb.launches := tabMod {} s.isb.launches n f }

/-- ARMED or COMMITTED. -/
def Launch.active (l : Launch) : Bool := l.state == lsArmed || l.state == lsCommitted

/-- The power domain of a launch's target (Table ARC-2). -/
def launchDomain (typ : Nat) : Nat :=
  if typ = ltXpSwap ∨ typ = ltEqSwap ∨ typ = ltSapGroup then 13
  else if typ = ltSrcSwitch ∨ typ = ltGateTakeover then 10
  else if typ = ltLayerSwap then 17 else if typ = ltLxEdge then 0 else 19

/-- A hub domain runs, in RUN or LULL (which changes no result, R425); PD0 and PD19 do not stop a launch. -/
def domainRuns (s : State) (d : Nat) : Bool := d == 0 || d == 19 || decide (rd s (K.PD_STATE d) ≤ 1)
def domainFailed (s : State) (d : Nat) : Bool := decide (6 ≤ rd s (K.PD_STATE d)) && d != 19

/-- The claim owner of a launch: its hub slot, or firmware. -/
def launchOwner (n : Nat) (l : Launch) : Nat := if n < 0x400 then ownSlot n else ownFw (l.firmware.getD 1)

/-- NODE_ACTION fields (Table FLD-10). -/
def naEndpoint (arg : Nat) : Nat := arg % 16
def naAction (arg : Nat) : Nat := arg / 16 % 16
def naParam (arg : Nat) : Nat := arg / 256 % 16777216
/-- SLOT_ASSIGN's slot, [12:8] of the argument. -/
def naSlot (arg : Nat) : Nat := arg / 256 % 32

/-- The upstream slot of a node's trunk, as a class 5 instance. -/
def upSlot (node slot : Nat) : Nat := node / 2048 * 32 + slot

/-- Free what a launch claimed (R49), and the comparator it claimed for a gate list that is not in force (R282); its
repeat or record stands. -/
def freeLaunchClaims (n : Nat) (s : State) : State :=
  let l := launchOf s n
  let own := launchOwner n l
  let s := if l.typ = ltGateTakeover ∧ (rdBlob s (K.OPER_LIST l.target)).isEmpty = true then
      unclaimAll 1 (ownKey (0x7A00 + l.target) 5) s
    else s
  let s := match l.comparator with | some c => unclaim 1 c own s | none => s
  let s := l.trunks.foldl (fun s t => unclaim 6 t.2 own s) s
  launchUpd n (fun l => { l with comparator := none, trunks := [], unreported := [] }) s

/-- R78: a SLOT_ASSIGN that is cancelled or FAILED gives up the class 5 claim it made. -/
def dropAssignClaim (n : Nat) (s : State) : State :=
  let l := launchOf s n
  if l.typ = ltNodeAction ∧ naAction l.arg = 3 then
    (if l.target = 0xFFFF then List.range 8 else [l.target / 2048]).foldl (fun s t =>
      unclaim 5 (t * 32 + naSlot l.arg) (launchOwner n l) s) s
  else s

/-- R58: FIRED, LATE or FAILED with FLAGS.IRQ sets the slot group's LAUNCH_EVT bit and signals vector 8. -/
def launchIrq (n : Nat) (s : State) : State :=
  if n < 0x400 ∧ bitOf (launchOf s n).flags 1 = true then
    emit (.msix 8) { s with isb.launchEvt := withBit s.isb.launchEvt (n / 32) true }
  else s

/-- A launch the device armed holds no slot: once over it is gone. -/
def dropDevice (n : Nat) (s : State) : State :=
  if 0x400 ≤ n then { s with isb.launches := tabErase s.isb.launches n } else s

/-- Record FIRED or LATE, and free the claims of a one-shot launch. -/
def launchDone (n : Nat) (late : Bool) (s : State) : State :=
  let s := freeLaunchClaims n (upd late (bump K.LATE_COUNT) s)
  dropDevice n (launchIrq n (launchUpd n (fun l => { l with state := if late then lsLate else lsFired }) s))

/-- Record FAILED with a reason, and free every claim; a failed action of the talker manager is noted (R223). -/
def launchFailed (n : Nat) (st : Status) (s : State) : State :=
  let l := launchOf s n
  let s := if l.firmware = some 0 ∧ l.typ = ltNodeAction then { s with mix.tm.failed := s.mix.tm.failed ++ [l.target] } else s
  let s := freeLaunchClaims n (dropAssignClaim n (bump K.FAILED_COUNT s))
  dropDevice n (launchIrq n (launchUpd n (fun l => { l with state := lsFailed, reason := st.code }) s))

/-- The boundary at which a launch takes effect: the first of its grain at or after its instant (R50), or, where that had
passed when it was accepted or stepped over, at or after the instant from which it may (R39, R51). -/
def effectAt (s : State) (l : Launch) : Instant := grainBoundary s l.typ (max l.instant l.from_)

/-- A boundary of a type's grain has come with the last tick. -/
def atGrain (s : State) (typ : Nat) : Bool := justNow s (grainBoundary s typ (s.isb.now + 1 - tickSpan s))

/-- R54: the place of a number among those that apply at one boundary: hub slots by number, then the device's own in the
order in which they were armed. -/
def launchOrder (s : State) (n : Nat) : Nat := if n < 0x400 then n else if s.isb.nextDevice ≤ n then n else n + 65536

/-- An instant at or after which a tick of a clock has just reached a boundary of a type's grain. -/
def atGrainOf (s : State) (typ : Nat) (now : Instant) : Bool :=
  decide (grainBoundary s typ (now + 1 - tickSpan s) ≤ now)

/-- R54: of the launches of a type that have come and that a test accepts, at a boundary of its grain, the one that applies
first. -/
def dueLaunch (s : State) (typ : Nat) (ok : Launch → Bool) : Option (Nat × Launch) :=
  if !atGrain s typ then none else
  (s.isb.launches.filter (fun e => e.2.active && e.2.typ == typ && ok e.2 && decide (effectAt s e.2 ≤ s.isb.now))).foldl
    (fun b e => match b with
      | none => some e
      | some m => if launchOrder s e.1 < launchOrder s m.1 then some e else some m) none

/-- The launch applies after its boundary, or its instant had passed when it was armed or was stepped over. -/
def isLate (s : State) (l : Launch) : Bool := l.late || decide (effectAt s l + tickSpan s ≤ s.isb.now)

/-- R55, at firing: the domain of a hub target is FAILED, or its port is retired. -/
def hubTargetGone (s : State) (l : Launch) : Bool :=
  domainFailed s (launchDomain l.typ) || (l.typ == ltGateTakeover && isRetired s cPort l.target)

/-- A hub-target launch takes effect at its boundary (R50, R55): nothing while its domain is not in RUN, FAILED when the
target is gone; a fault of the effect is recorded. -/
def fireHub (typ : Nat) (ok : Launch → Bool) (f : Nat → Launch → State → Except Status State) (s : State) : State :=
  match dueLaunch s typ ok with
  | none => s
  | some (n, l) =>
    if hubTargetGone s l then launchFailed n .retired s
    else if !domainRuns s (launchDomain typ) then s
    else
      match f n l s with
      | .error st => launchFailed n st s
      | .ok s => launchDone n (isLate s l) s

/-! ## Launches the device arms itself (R54) -/

/-- Trunk states of key 1800h + 100h × t, sub 01. -/
abbrev tsAbsent : Nat := 0
abbrev tsStarting : Nat := 1
abbrev tsRing : Nat := 2
abbrev tsBroken : Nat := 3
abbrev tsRetired : Nat := 4
abbrev tsOff : Nat := 5

/-- A trunk serves nodes. -/
def trunkRuns (s : State) (t : Nat) : Bool := rd s (K.TRUNK_STATE t) == tsRing || rd s (K.TRUNK_STATE t) == tsBroken

/-- A trunk is present to the hub, which reports every trunk absent while the field die is lost (R12). -/
def trunkPresent (s : State) (t : Nat) : Bool := trunkRuns s t && !s.fld.lost

/-- The present trunks. -/
def presentTrunks (s : State) : List Nat := (List.range 8).filter (trunkPresent s)

/-- The trunks whose launch slots a launch claims (Table ISB-8). -/
def launchTrunks (s : State) (typ target : Nat) : List Nat :=
  if typ = ltFieldMapSwap then (if target = 0xFFFF then presentTrunks s else [target])
  else if typ = ltNodeAction then (if target = 0xFFFF then presentTrunks s else [target / 2048])
  else if typ = ltVoteOpen ∨ typ = ltVoteClose then presentTrunks s
  else []

/-- Claim one launch slot on each trunk for an owner, all or none. -/
def claimTrunkSlots (owner : Nat) : List Nat → State → Option (List (Nat × Nat) × State)
  | [], s => some ([], s)
  | t :: ts, s =>
    match lowestFree s 6 (t * 256) 256 with
    | none => none
    | some i => (claimTrunkSlots owner ts (setClaim 6 i owner s)).map (fun r => ((t, i) :: r.1, r.2))

/-- The record of a launch, as LAUNCH_CMD carries it. -/
def Launch.toRec (l : Launch) : LaunchRec :=
  { time := l.time, frac := l.frac, typ := l.typ, flags := l.flags, target := l.target, arg := l.arg, period := l.period }

/-- R50: a trunk or node launch is carried to the field die when it is armed, or after the next link start. -/
def carryLaunch (n : Nat) (s : State) : State :=
  let l := launchOf s n
  if l.active ∧ ltHallHandover ≤ l.typ ∧ l.carried = false ∧ lanokUp s = true ∧ roleOf s ≠ roleStandby
      ∧ (l.typ = ltHallHandover ∨ l.unreported ≠ []) then
    launchUpd n (fun l => { l with carried := true }) (lanokSend true (.launchCmd n l.toRec) s)
  else s

/-- A launch accepted with its claims is ARMED (R47); passed instants are noted (R51). -/
def armLaunch (n : Nat) (r : LaunchRec) (comparator : Option Nat) (trunks : List (Nat × Nat)) (firmware : Option Nat)
    (s : State) : State :=
  let late := decide (r.time * ns1 + r.frac < s.isb.now)
  let from_ := if late then s.isb.now else 0
  carryLaunch n (launchUpd n (fun l =>
    { time := r.time, frac := r.frac, typ := r.typ, flags := r.flags, target := r.target, arg := r.arg,
      period := r.period, state := lsArmed, late := late, from_ := from_, comparator := comparator, trunks := trunks,
      unreported := trunks.map (·.1), firmware := firmware, writes := l.writes }) s)

/-- The device arms a launch of its own, with a number from 0400h up; `none` when a claim fails. -/
def armDevice (firmware : Nat) (r : LaunchRec) (s : State) : Option (Nat × State) :=
  (claimTrunkSlots (ownFw firmware) (launchTrunks s r.typ r.target) s).map (fun c =>
    let n := c.2.isb.nextDevice
    (n, armLaunch n r none c.1 (some firmware)
      { c.2 with isb.nextDevice := if n + 1 < 65536 then n + 1 else 0x400 }))

/-! ## Reports of trunk and node launches (R50, R51) -/

/-- Launches that found no trunk present at arming take effect at the hub at their instant (R50): one of a type that a test
accepts records FIRED or LATE. -/
def fireEmpty (typ : Nat) (ok : Launch → Bool) (s : State) : State :=
  match dueLaunch s typ (fun l => l.unreported.isEmpty && l.target == 0xFFFF && ok l) with
  | none => s
  | some (n, l) => launchDone n (isLate s l) s

/-- LAUNCH_REPORT: a trunk has run a launch; once every trunk has reported, it records FIRED, LATE or FAILED. The report
of a HALL_HANDOVER names no trunk it claimed. `state` is 3, 4 or 6; `reason` a failed launch's status. -/
def launchReport (num trunk state lateNodes reason : Nat) (s : State) : State :=
  let l := launchOf s num
  if !l.active then s else
  let s := upd (decide (trunk < 8)) (bumpBy (K.LATE_NODES trunk) lateNodes) s
  if state = lsFailed then launchFailed num (statusOf reason) s else
  let s := launchUpd num (fun l =>
    { l with unreported := l.unreported.erase trunk, late := l.late || state == lsLate }) s
  let l := launchOf s num
  if l.unreported.isEmpty then launchDone num l.late s else s

/-! ## LX edges (R57, R60) -/

/-- The first occurrence TIME + k × PERIOD after an instant. -/
def nextOccurrence (l : Launch) (now : Instant) : Nat :=
  if now < l.instant then l.time else l.time + ((now - l.instant) / (l.period * ns1) + 1) * l.period

/-- What an LX_EDGE does to its pin (R60). -/
def lxAction (l : Launch) (s : State) : State :=
  let n := l.target
  let idle := rd s (K.LX_IDLE n)
  let a := l.arg % 4
  let s := { s with isb.lxActed := tabSet 0 s.isb.lxActed n 1 }
  if a = 0 then lxDrive n 1 s
  else if a = 1 then lxDrive n 0 s
  else if a = 2 then lxDrive n (1 - rd s (K.LX_LEVEL n)) s
  else
    let s := lxDrive n (1 - idle) s
    { s with isb.lxEnd := tabSet [] s.isb.lxEnd n ((clk s + l.arg / 4294967296 * ns1) :: tabGet [] s.isb.lxEnd n) }

/-- LX_EDGE: at its fine tick the pin is set, cleared, toggled or pulsed; a repeating launch re-arms at its first
occurrence after now, which its TIME then reads (DESIGN CHOICE, assumption 140), and keeps its comparator. -/
def execLxEdge (s : State) : Res :=
  match dueLaunch s ltLxEdge (fun _ => true) with
  | none => .next s
  | some (n, l) =>
    let s' := lxAction l s
    if l.period = 0 then .next (launchDone n (isLate s l) s')
    else
      let late := isLate s l
      let s' := launchIrq n (upd late (bump K.LATE_COUNT) s')
      .next (launchUpd n (fun l =>
        { l with state := lsArmed, late := false, from_ := 0, time := nextOccurrence l s.isb.now }) s')

/-- Disabling an LX pin: it is released and armed edges on it fail (R60). -/
def lxEnStatus (n on : Nat) (s : State) : Status :=
  if on = 1 ∧ claimOwner s 0 n ≠ 0 ∧ claimOwner s 0 n ≠ ownKey (0x1060 + n) 1 then .conflict else .ok

/-- R60: enabling an LX pin claims its ball and drives its idle level. -/
def lxEn (n on : Nat) (s : State) : State :=
  let own := ownKey (0x1060 + n) 1
  let was := rd s (K.LX_EN n)
  let s := wr (K.LX_EN n) on s
  if on = 1 then
    if was = 1 then s else lxDrive n (rd s (K.LX_IDLE n)) (setClaim 0 n own s)
  else
    let s := unclaim 0 n own s
    let s := wr (K.LX_LEVEL n) 0 { s with isb.lxEnd := tabErase s.isb.lxEnd n, isb.lxActed := tabErase s.isb.lxActed n }
    (s.isb.launches.filter (fun e => e.2.active && e.2.typ == ltLxEdge && e.2.target == n)).foldl
      (fun s e => launchFailed e.1 .conflict s) s

/-- LX_EN: keys 1060h + n:01. -/
def writeLxEn (inst : Inst) (tag : Nat) (n : Fin 4) (on : Bool) (s : State) : State :=
  runWrite inst tag (0x1060 + n.val) 1 on (lxEnStatus n.val (b2n on) s) (lxEn n.val (b2n on)) s

end Sys2Proof.Machine
end

