-- ==== Sys2Proof/Machine/Node.lean ====
section
/-! DEFINITION. Seat nodes (chapter FLD): endpoints and their gains, node actions, votes at the node, upstream slots,
launches as the field die and the nodes hold and run them. -/
namespace Sys2Proof.Machine

/-! ## The field die's keys and nodes -/

/-- Field die states of Table FLD-1. -/
abbrev fsHub : Nat := 0
abbrev fsDefault : Nat := 1
abbrev fsCalm : Nat := 2
abbrev fsReset : Nat := 3
def fieldState (s : State) : Nat := rd s K.FIELD_STATE

def nodeOf (s : State) (n : Nat) : Node := tabGet {} s.fld.nodes n
def nodeUpd (n : Nat) (f : Node → Node) (s : State) : State := { s with fld.nodes := tabMod {} s.fld.nodes n f }
def trunkOf (s : State) (t : Nat) : Trunk := tabGet {} s.fld.trunks t
def trunkUpd (t : Nat) (f : Trunk → Trunk) (s : State) : State := { s with fld.trunks := tabMod {} s.fld.trunks t f }

/-- Trunk and index of a node. -/
def nodeTrunk (n : Nat) : Nat := n / 2048
def nodeIndex (n : Nat) : Nat := n % 2048

/-- Node states of key 2000h + n, sub 01. -/
abbrev nsAbsent : Nat := 0
abbrev nsServed : Nat := 1
abbrev nsUnenrolled : Nat := 2
abbrev nsBypass : Nat := 3
abbrev nsUnreachable : Nat := 4
abbrev nsRetired : Nat := 5

/-- The node is served. -/
def nodeServed (s : State) (n : Nat) : Bool :=
  rd s (K.NODE_STATE n) == nsServed || rd s (K.NODE_STATE n) == nsUnenrolled

/-- The served nodes of a trunk. -/
def servedNodes (s : State) (t : Nat) : List Nat :=
  ((trunkOf s t).nodes.map (fun i => t * 2048 + i)).filter (nodeServed s)

/-- A node's Isobar (R90). -/
def nodeNow (s : State) (n : Nat) : Instant := ((fieldNow s : Int) + (nodeOf s n).iso).toNat

/-- Event nibbles of Table FLD-7. -/
abbrev evReqSpeak : Nat := 1
abbrev evReqCancel : Nat := 2
abbrev evPriorityOn : Nat := 3
abbrev evPriorityOff : Nat := 4
abbrev evEndpointChange : Nat := 12
abbrev evMessage : Nat := 13
abbrev evFault : Nat := 14

/-- Node classes of Table FLD-8. -/
abbrev clsDelegate : Nat := 1
abbrev clsChair : Nat := 2
abbrev clsInterpreter : Nat := 3
def nodeClass (s : State) (n : Nat) : Nat := rd s (K.NODE_CLASS n)

/-- Table FLD-8: the events a class may raise. -/
def classMay (cls code : Nat) : Bool :=
  let common := decide (12 ≤ code ∧ code ≤ 14)
  if cls = 1 then decide (code = 1 ∨ code = 2 ∨ (5 ≤ code ∧ code ≤ 14))
  else if cls = 2 then decide (1 ≤ code ∧ code ≤ 14)
  else if cls = 3 then decide (code = 1 ∨ code = 2) || common
  else if cls = 4 ∨ cls = 5 then common
  else false

/-! ## Endpoints (Table FLD-9, R512) -/

/-- Types of Table FLD-9. -/
abbrev etMic : Nat := 1
abbrev etLineIn : Nat := 2
abbrev etHeadphone : Nat := 3
abbrev etLoudspeaker : Nat := 4
abbrev etLineOut : Nat := 5
abbrev etMicButton : Nat := 6
abbrev etVoteKeys : Nat := 8
abbrev etLed : Nat := 9

/-- The type of a node's endpoint. -/
def epType (s : State) (n e : Nat) : Nat := rd s (K.NODE_ENDPOINTS n) / 16 ^ e % 16

/-- A node has an endpoint of a type; its first one. -/
def firstEp (s : State) (n typ : Nat) : Option Nat := (List.range 16).find? (fun e => epType s n e == typ)

def epOf (s : State) (n e : Nat) : Endpoint := tabGet {} (nodeOf s n).endpoints e
def epUpd (n e : Nat) (f : Endpoint → Endpoint) (s : State) : State :=
  nodeUpd n (fun x => { x with endpoints := tabMod {} x.endpoints e f }) s

/-- The open ramp of an endpoint before any action: inputs closed, outputs open (assumption 12). -/
def opening0 (typ : Nat) : Ramp := if typ = etMic ∨ typ = etLineIn then {} else { new := 0x8000, cur := 0x8000 }

/-- An endpoint is open, or opening. -/
def epOpen (s : State) (n e : Nat) : Bool := ((epOf s n e).opening.getD (opening0 (epType s n e))).new == 0x8000

/-- Samples of a node's own ramps (R94). -/
abbrev nodeRamp : Nat := 240

/-- Open MICs of a node. -/
def openMics (s : State) (n : Nat) : List Nat :=
  (List.range 16).filter (fun e => epType s n e == etMic && epOpen s n e)

/-- R76: the loudspeaker attenuation follows the node's first open and last closed MIC. -/
def attenFollow (n : Nat) (was : Bool) (s : State) : State :=
  let is := !(openMics s n).isEmpty
  if is == was then s
  else
    let v : Int := if is then (rdF s (K.NODE_LS_ATTEN n) : Int) else 0x8000
    nodeUpd n (fun x => { x with atten := rampTo v nodeRamp x.atten }) s

def hdUpd (f : HallDefault → HallDefault) (s : State) : State := { s with fld.hd := f s.fld.hd }

/-- Table FLD-13: g(m) = 32,768 ÷ √m, rounded half up. -/
def hdGain (m : Nat) : Int :=
  [0x8000, 0x5A82, 0x49E7, 0x4000, 0x393E, 0x3441, 0x3061, 0x2D41].getD (m - 1) 0

/-- R100: the gain follows the number of open mics when it changes to a value from 1 to 8; at 0 it keeps its value. -/
def hdGainFollow (s : State) : State :=
  let m := s.fld.hd.opened.length
  if m = 0 ∨ 8 < m ∨ s.fld.hd.g.new = hdGain m then s
  else hdUpd (fun h => { h with g := rampTo (hdGain m) nodeRamp h.g }) s

/-- A MIC's number in the lists of the Hall Default state. -/
def micNum (n e : Nat) : Nat := n * 16 + e

/-- The field die keeps the open microphones in the order in which they opened (R102), and its gain follows them. -/
def micsFollow (n e : Nat) (open_ : Bool) (s : State) : State :=
  let l := s.fld.hd.opened
  let m := micNum n e
  if epType s n e ≠ etMic ∨ l.contains m = open_ then s
  else hdGainFollow (hdUpd (fun h => { h with opened := if open_ then l ++ [m] else l.erase m }) s)

/-- Open or close an endpoint with a ramp (R94, R512). -/
def epSetOpen (n e : Nat) (open_ : Bool) (s : State) : State :=
  let was := !(openMics s n).isEmpty
  let r := (epOf s n e).opening.getD (opening0 (epType s n e))
  micsFollow n e open_ (attenFollow n was
    (epUpd n e (fun x => { x with opening := some (rampTo (if open_ then 0x8000 else 0) nodeRamp r) }) s))

/-- The channel an output endpoint plays (R76). -/
def epChannel (s : State) (n e : Nat) : Nat :=
  match (epOf s n e).channel with
  | some c => c
  | none =>
    let typ := epType s n e
    if typ = etHeadphone then rdF s (K.NODE_LANGUAGE n) % 64
    else if typ = etLoudspeaker then 32 + rdF s (K.NODE_ZONE n) % 16 else 0

/-- R512: the gains of an endpoint on a 24-bit sample: GAIN, open ramp, priority mute of a MIC, attenuation of a
loudspeaker. -/
def epSample (typ : Nat) (x : Node) (ep : Endpoint) (v : Int) : Int :=
  let v := applyGain 24 v (rampVal ep.gain)
  let v := applyGain 24 v (rampVal (ep.opening.getD (opening0 typ)))
  let v := if typ = etMic then applyGain 24 v (rampVal x.prioMute) else v
  if typ = etLoudspeaker then applyGain 24 v (rampVal x.atten) else v

/-- A node's ramps after one sample. -/
def nodeRampStep (x : Node) : Node :=
  { x with
    prioMute := rampStep x.prioMute, atten := rampStep x.atten
    endpoints := tabMap {} x.endpoints (fun _ ep =>
      { ep with gain := rampStep ep.gain, opening := ep.opening.map rampStep }) }

/-- R75: the sample of a trunk channel a node presents at sample boundary number `k`: sample j of the frame whose first
presented boundary is the first at or after T + 125 µs + max(D_cw, D_ccw), when a copy of its audio was good. -/
def presented (x : Node) (tr : Trunk) (k c : Nat) : Option Int :=
  let d := max x.dCw x.dCcw * 65536 / 1000
  (tr.sent.find? (fun f =>
    let k0 := sampleAtOrAfter (f.1 + framePeriod + d)
    decide (k0 ≤ k ∧ k < k0 + 6) && !x.missed.contains f.1)).map (fun f =>
      ((f.2.getD c []).getD (k - sampleAtOrAfter (f.1 + framePeriod + d)) 0))

/-- When a node reaches sample boundary `k` of its own Isobar, in the hub's. -/
def nodeBoundary (s : State) (n k : Nat) : Instant :=
  ((sampleBoundary k : Int) - (nodeOf s n).iso - s.fld.followerOffset).toNat

/-- At a node's sample boundary its output endpoints present their samples and its MIC and LINE_IN endpoints capture
theirs, gains applied (R512), and its ramps advance. `mics`: node, endpoint, value at its input; 0 where not listed. -/
def nodeSample (k : Nat) (mics : List (Nat × Nat × Int)) (s : State) (n : Nat) : State :=
  let x := nodeOf s n
  let tr := trunkOf s (nodeTrunk n)
  let at_ := nodeBoundary s n k
  let s := (List.range 16).foldl (fun s e =>
    let typ := epType s n e
    let ep := epOf s n e
    if typ = etHeadphone ∨ typ = etLoudspeaker ∨ typ = etLineOut then
      let v := (presented x tr k (epChannel s n e)).getD ep.last
      emit (.nodeAudio n e at_ (epSample typ x ep v)) (epUpd n e (fun ep => { ep with last := v }) s)
    else if typ = etMic ∨ typ = etLineIn then
      let v := satS 24 (((mics.find? (fun m => m.1 == n && m.2.1 == e)).map (·.2.2)).getD 0)
      epUpd n e (fun ep => { ep with cap := (k, epSample typ x ep v) :: ep.cap.take 63 }) s
    else s) s
  nodeUpd n nodeRampStep s

/-- R77: the six samples an endpoint sends in its slot in the frame whose comma arrives at `A` of the node's Isobar: those
whose capture boundaries lie in (B_k − 525 µs, B_k − 400 µs], or the first six after the last it sent in the frame before.
The number of the first of them. -/
def slotFirst (A : Instant) (slot : Nat) (ep : Endpoint) : Nat :=
  let B := A + (1462 + 146 * (slot / 8) + 18 * (slot % 8)) * 40 * ns1
  if ep.sentTo = 0 then sampleAtOrAfter (B - 525 * us1 + 1) else ep.sentTo

def slotSamples (A : Instant) (slot : Nat) (ep : Endpoint) : List Int :=
  (List.range 6).map (fun j => ((ep.cap.find? (fun c => c.1 == slotFirst A slot ep + j)).map (·.2)).getD 0)

/-! ## Upstream slots (R78) -/

/-- SLOT_OWNER of a trunk slot when an endpoint holds it. -/
def slotWord (n e : Nat) : Nat := n + e * 65536 + 0x80000000

/-- Assign a slot to an endpoint; the endpoint's earlier slot, if any, is given up (assumption 12). -/
def slotSet (n e slot : Nat) (s : State) : State :=
  let s := match (epOf s n e).slot with
    | some k => wr (K.SLOT_OWNER_FLD (nodeTrunk n) k) 0 s
    | none => s
  wr (K.SLOT_OWNER_FLD (nodeTrunk n) slot) (slotWord n e) (epUpd n e (fun x => { x with slot := some slot, sentTo := 0 }) s)

/-- End an endpoint's slot assignment. -/
def slotClear (n e : Nat) (s : State) : State :=
  match (epOf s n e).slot with
  | none => s
  | some k =>
    let s := wr (K.SLOT_OWNER_FLD (nodeTrunk n) k) 0 (epUpd n e (fun x => { x with slot := none }) s)
    trunkUpd (nodeTrunk n) (fun t => { t with lastUp := tabSet [] t.lastUp k [], staleSlots := t.staleSlots.filter (· != k) }) s

/-- R78: a SLOT_RELEASE frees the claim when its owner holds it; every hub slot counts as one owner, and booth claims
(kind 1) stay. -/
def releaseClaim (n e owner : Nat) (s : State) : State :=
  match (epOf s n e).slot with
  | none => s
  | some k =>
    let w := claimOwner s 5 (upSlot n k)
    if w = owner ∨ (w / 0x40000000 = 2 ∧ owner / 0x40000000 = 2) then setClaim 5 (upSlot n k) 0 s else s

/-- The endpoints of a node leave the Hall Default lists. -/
def hdForget (n : Nat) (s : State) : State :=
  let keep (l : List Nat) : List Nat := l.filter (fun m => m / 16 != n)
  hdGainFollow (hdUpd (fun h => { h with
    opened := keep h.opened, closing := keep h.closing, queue := h.queue.erase n, chairs := h.chairs.erase n
    prio := tabErase h.prio n }) s)

/-- A retired node: its slots are released and their claims freed (R78, R106); the claim of a booth slot stays with its
BOOTH_SLOT entry. -/
def nodeSlotsFree (n : Nat) (s : State) : State :=
  let s := (List.range 16).foldl (fun s e =>
    match (epOf s n e).slot with
    | some k => slotClear n e (upd (claimOwner s 5 (upSlot n k) / 0x40000000 != 1) (setClaim 5 (upSlot n k) 0) s)
    | none => s) s
  hdForget n { s with fld.prioHeld := s.fld.prioHeld.erase n }

/-- An upset of a node; past its limit it is retired: repeated, not served, its slots released. -/
def nodeUpset (n : Nat) (s : State) : State :=
  match upset cNode n (bump (K.NODE_ERR n) s) with
  | (s, false) => s
  | (s, true) => wr (K.NODE_STATE n) nsRetired (nodeSlotsFree n s)

/-! ## Node actions (Table FLD-10, R512) -/

/-- The endpoint's type allows the action. -/
def actionAllowed (action typ : Nat) : Bool :=
  if action = 0 ∨ action = 1 ∨ action = 6 then decide (1 ≤ typ ∧ typ ≤ 5)
  else if action = 2 then typ == etLed
  else if action = 3 ∨ action = 4 then typ == etMic || typ == etLineIn
  else if action = 5 then decide (3 ≤ typ ∧ typ ≤ 5)
  else false

/-- Run an action at a node: its effect, or the status with which the launch fails (R78, R94, R512). -/
def nodeAction (n arg owner : Nat) (s : State) : Except Status State :=
  let e := naEndpoint arg
  let a := naAction arg
  let p := naParam arg
  if !actionAllowed a (epType s n e) then .error .range
  else if a = 0 then .ok (epSetOpen n e false s)
  else if a = 1 then .ok (epSetOpen n e true s)
  else if a = 2 then .ok (epUpd n e (fun x => { x with led := p % 4 }) s)
  else if a = 3 then
    let w := rd s (K.SLOT_OWNER_FLD (nodeTrunk n) (naSlot arg))
    if w ≠ 0 ∧ w ≠ slotWord n e then .error .conflict else .ok (slotSet n e (naSlot arg) s)
  else if a = 4 then .ok (slotClear n e (releaseClaim n e owner s))
  else if a = 5 then .ok (epUpd n e (fun x => { x with channel := some (p % 64) }) s)
  else .ok (epUpd n e (fun x => { x with gain := rampTo ((p % 65536 : Nat) : Int) nodeRamp x.gain }) s)

/-! ## Launches at the field die (R94, R56) -/

def heldOf (s : State) (num : Nat) : Option HeldLaunch := tabGet none s.fld.held num
def setHeld (num : Nat) (h : Option HeldLaunch) (s : State) : State := { s with fld.held := tabSet none s.fld.held num h }

/-- Report a completion to the hub, now or when the link returns (R56). -/
def report (num trunk state late reason : Nat) (s : State) : State :=
  if lanokUp s then lanokSend false (.launchReport num trunk state late reason) s
  else { s with fld.reports := s.fld.reports ++ [(num, trunk, state, late, reason)] }

/-- Nodes drop a launch. -/
def dropFromNodes (num : Nat) (s : State) : State :=
  { s with fld.nodes := tabMap {} s.fld.nodes (fun _ x => { x with launches := x.launches.erase num }) }

/-- The field die receives a launch: the nodes it concerns, by its target. -/
def holdLaunch (num : Nat) (r : LaunchRec) (s : State) : State :=
  let trunks := launchTrunks s r.typ r.target
  let nodes := if r.typ = ltNodeAction ∧ r.target ≠ 0xFFFF then [r.target]
    else if ltVoteOpen ≤ r.typ then trunks.flatMap (servedNodes s) else []
  let late := decide (r.time * ns1 + r.frac < fieldNow s)
  setHeld num (some { lr := r, undelivered := nodes, waiting := nodes, trunks := trunks, arrivedLate := late
                      from_ := if late then fieldNow s else 0 }) s

/-- A cancel reaches the field die: the launch is dropped, and CANCEL goes to the trunks whose nodes hold it (R79). -/
def cancelHeld (num : Nat) (s : State) : State :=
  let trunks := ((s.fld.nodes.filter (fun e => e.2.launches.contains num)).map (fun e => nodeTrunk e.1)).eraseDups
  trunks.foldl (fun s t => trunkUpd t (fun x =>
    { x with ctrl := x.ctrl ++ [{ rank := 0, dest := 0xFFFF, typ := 3, payload := leBytes 2 num }] }) s)
    (setHeld num none s)

/-- LAUNCH_CMD: the field die receives a launch, or a cancel. -/
def execLaunchCmd (h : LHdr) (num : Nat) (rec : Option LaunchRec) (s : State) : Res :=
  onLanok false true h (fun s => match rec with | some r => holdLaunch num r s | none => cancelHeld num s) s

/-- The grain boundary at which a held launch takes effect (R50, R51). -/
def heldAt (s : State) (h : HeldLaunch) : Instant := grainBoundary s h.lr.typ (max (h.lr.time * ns1 + h.lr.frac) h.from_)

/-- It is due on a clock: the field die's, or a node's. -/
def heldDue (s : State) (now : Instant) (h : HeldLaunch) : Bool := atGrainOf s h.lr.typ now && decide (heldAt s h ≤ now)

/-- It runs late there: it came after its instant, or its boundary has passed. -/
def heldLate (s : State) (now : Instant) (h : HeldLaunch) : Bool :=
  h.arrivedLate || decide (heldAt s h + tickSpan s ≤ now)

/-- R54: the held launch of a type, due on a clock, that applies first among those a test accepts. -/
def dueHeld (s : State) (typ : Nat) (now : Instant) (ok : Nat → HeldLaunch → Bool) : Option (Nat × HeldLaunch) :=
  s.fld.held.foldl (fun b e => match e.2 with
    | some h =>
      if h.lr.typ == typ && heldDue s now h && ok e.1 h then
        match b with
        | none => some (e.1, h)
        | some m => if launchOrder s e.1 < launchOrder s m.1 then some (e.1, h) else b
      else b
    | none => b) none

/-- A trunk reports a held launch; when every trunk has, the field die lets it go. -/
def trunkReports (num t state late : Nat) (s : State) : State :=
  let s := report num t state late 0 s
  match heldOf s num with
  | none => s
  | some h =>
    let h := { h with trunks := h.trunks.erase t }
    setHeld num (if h.trunks.isEmpty then none else some h) s

/-- Trunks a held launch concerns that have no node to run it report it done (R50). -/
def reportEmpty (num : Nat) (s : State) : State :=
  match heldOf s num with
  | none => s
  | some h =>
    (h.trunks.filter (fun t => h.waiting.all (fun n => nodeTrunk n != t))).foldl (fun s t =>
      trunkReports num t (if heldLate s (fieldNow s) h then lsLate else lsFired) 0 s) s

/-- A node has run a launch: when the last node of its trunk has, the trunk reports. -/
def nodeRan (num n : Nat) (late : Bool) (s : State) : State :=
  let s := nodeUpd n (fun x => { x with launches := x.launches.erase num }) s
  match heldOf s num with
  | none => s
  | some h =>
    let t := nodeTrunk n
    let h := { h with
      waiting := h.waiting.erase n, undelivered := h.undelivered.erase n
      late := if late then tabMod 0 h.late t (· + 1) else h.late }
    let s := setHeld num (some h) s
    if h.waiting.any (fun m => nodeTrunk m == t) then s
    else trunkReports num t (if tabGet 0 h.late t = 0 then lsFired else lsLate) (tabGet 0 h.late t) s

/-- A launch fails at a node: it is reported FAILED and dropped everywhere. -/
def heldFailed (num trunk : Nat) (st : Status) (s : State) : State :=
  report num trunk lsFailed 0 st.code (dropFromNodes num (setHeld num none s))

/-- One action of Table FLD-10 at one node, at a step of its own Isobar: the launch of that action the node holds and that
applies first. A node that is no longer served runs none: a launch to it alone fails (R55), one to every node goes on
without it. -/
def runNodeAction (action n : Nat) (s : State) : State :=
  match dueHeld s ltNodeAction (nodeNow s n) (fun num h =>
      naAction h.lr.arg == action && h.waiting.contains n
        && ((nodeOf s n).launches.contains num || !nodeServed s n)) with
  | none => s
  | some (num, h) =>
    if nodeServed s n then
      match nodeAction n h.lr.arg (if num < 0x400 then ownSlot num else (launchOwner num (launchOf s num))) s with
      | .error st => heldFailed num (nodeTrunk n) st s
      | .ok s' => nodeRan num n (heldLate s (nodeNow s n) h) s'
    else if h.lr.target = 0xFFFF then nodeRan num n false s
    else heldFailed num (nodeTrunk n) (if rd s (K.NODE_STATE n) = nsRetired then .retired else .noEntry) s

/-- At the instant of a NODE_ACTION to every node: a trunk without a served node reports it, and one that met no trunk at
arming is done at the hub (R50). -/
def emptyActions (action : Nat) (s : State) : State :=
  let s := match dueHeld s ltNodeAction (fieldNow s) (fun _ h =>
      naAction h.lr.arg == action && h.trunks.any (fun t => h.waiting.all (fun n => nodeTrunk n != t))) with
    | some (num, _) => reportEmpty num s
    | none => s
  fireEmpty ltNodeAction (fun l => naAction l.arg == action) s

/-! ## Node buttons (R85, R95) -/

/-- R95: a node raises VOTE_k only in an open window, for k ≤ CHOICES. -/
def mayRaise (s : State) (n code : Nat) : Bool :=
  if 5 ≤ code ∧ code ≤ 11 then
    (match (nodeOf s n).vote with | some v => decide (code - 4 ≤ v.choices) | none => false)
  else true

/-- R76, Table FLD-11: SHOW lights the chosen key. -/
def lightKey (n code : Nat) (s : State) : State :=
  match (nodeOf s n).vote with
  | some v => if v.show_ ∧ 5 ≤ code ∧ code ≤ 11 then nodeUpd n (fun x => { x with litKey := code - 4 }) s else s
  | none => s

/-- BUTTON_PRESS: the press enters the node's queue in press order, priority events at the head; a full queue drops it. -/
def execButtonPress (node : Nat) (code : Fin 16) (s : State) : Res :=
  let c := code.val
  if c = 0 ∨ mayRaise s node c = false then .next s
  else if 16 ≤ (nodeOf s node).queue.length then .next (nodeUpd node (fun x => { x with overflow := true }) s)
  else
    .next (lightKey node c (nodeUpd node (fun x =>
      { x with queue := if c = evPriorityOn ∨ c = evPriorityOff then c :: x.queue else x.queue ++ [c] }) s))

/-! ## Vote sessions (R95, R96) -/

def voteOf (s : State) (v : Nat) : Vote := tabGet {} s.fld.votes v
def voteUpd (v : Nat) (f : Vote → Vote) (s : State) : State := { s with fld.votes := tabMod {} s.fld.votes v f }

/-- VOTE_STATE values. -/
abbrev vsIdle : Nat := 0
abbrev vsOpen : Nat := 1
abbrev vsClosed : Nat := 2
abbrev vsSealed : Nat := 3

/-- R95: a node is eligible in a session. -/
def voteEligible (s : State) (v n : Nat) : Bool :=
  nodeServed s n && classMay (nodeClass s n) 5 && (firstEp s n etVoteKeys).isSome
    && (rd s (K.NODE_VOTE_GROUPS n) % 256 &&& (rd s (K.VOTE_ARG v) / 256 % 256)) != 0

/-- NOT_VOTED while it is live: eligible nodes without a counted vote. -/
def notVoted (s : State) (v : Nat) : Nat :=
  (((List.range 8).flatMap (servedNodes s)).filter (fun n => voteEligible s v n && tabGet 0 (voteOf s v).votes n == 0)).length

/-- A vote session opens at the hub: counts start at 0. -/
def openSession (v arg : Nat) (s : State) : State :=
  let s := (List.range 7).foldl (fun s j => wr (K.VOTE_COUNT v j) 0 s) s
  let s := wr (K.NOT_VOTED v) 0 (wr (K.SEALED_AT v) 0 (wr (K.VOTES_LATE v) 0 s))
  let s := wr (K.VOTE_STATE v) vsOpen (wr (K.VOTE_ARG v) arg s)
  { voteUpd v (fun _ => { openAt := s.isb.now }) s with fld.lastVote := some v }

/-- The window a node opens. -/
def nodeOpens (v arg n : Nat) (s : State) : State :=
  if (rdF s (K.NODE_VOTE_GROUPS n) % 256 &&& (arg / 256 % 256)) = 0 then s
  else nodeUpd n (fun x => { x with vote := some { session := v, choices := arg % 8, show_ := bitOf arg 4 }, litKey := 0 }) s

/-- A node's Isobar has come to a launch it holds, or it is no longer served and goes without. -/
def nodeReady (s : State) (num : Nat) (h : HeldLaunch) (n : Nat) : Bool :=
  heldDue s (nodeNow s n) h && ((nodeOf s n).launches.contains num || !nodeServed s n)

/-- Every node that holds a launch and whose instant has come runs an effect; a trunk without nodes reports. -/
def runAtNodes (num : Nat) (f : Nat → State → State) (s : State) : State :=
  match heldOf s num with
  | none => s
  | some h =>
    reportEmpty num ((h.waiting.filter (nodeReady s num h)).foldl (fun s n =>
      if nodeServed s n then nodeRan num n (heldLate s (nodeNow s n) h) (f n s) else nodeRan num n false s) s)

/-- A hub record of a vote launch is due and has not acted at the hub, or a node has yet to run it. -/
def dueVote (s : State) (typ : Nat) : Option (Nat × LaunchRec) :=
  match dueLaunch s typ (fun l => !l.hubDone) with
  | some (n, l) => some (n, l.toRec)
  | none =>
    match s.fld.held.find? (fun e => e.2.any (fun h => h.lr.typ == typ && h.waiting.any (nodeReady s e.1 h))) with
    | some (num, some h) => some (num, h.lr)
    | _ => (dueHeld s typ (fieldNow s) (fun _ h => h.trunks.any (fun t => h.waiting.all (fun n => nodeTrunk n != t)))).map
        (fun e => (e.1, e.2.lr))

/-- A vote launch acts at the hub once; one that claimed no trunk is then done (R50). -/
def voteAtHub (num : Nat) (fails : Option Status) (f : State → State) (s : State) : Bool × State :=
  let l := launchOf s num
  if !l.active || l.hubDone then (true, s) else
  match fails with
  | some st => (false, dropFromNodes num (setHeld num none (launchFailed num st s)))
  | none =>
    let late := isLate s l
    let s := launchUpd num (fun l => { l with hubDone := true, late := late }) (f s)
    (true, if l.unreported.isEmpty then launchDone num late s else s)

/-- VOTE_OPEN: the session opens at the hub and at every node that holds the launch; while another session is open or
unsealed it fails with BUSY (R96). A hub in ISLAND fires none (R460). -/
def execVoteOpen (s : State) : Res :=
  if roleOf s = roleIsland then .next s else
  match dueVote s ltVoteOpen with
  | none => .next s
  | some (num, r) =>
    let busy := (List.range 16).any (fun v => v != r.target && (rd s (K.VOTE_STATE v) == vsOpen || rd s (K.VOTE_STATE v) == vsClosed))
    match voteAtHub num (if busy then some .busy else none) (openSession r.target r.arg) s with
    | (false, s) => .next s
    | (true, s) => .next (runAtNodes num (nodeOpens r.target r.arg) s)

/-- VOTE_CLOSE: an open session closes at the hub and at the nodes; otherwise the launch fails with RANGE. -/
def execVoteClose (s : State) : Res :=
  if roleOf s = roleIsland then .next s else
  match dueVote s ltVoteClose with
  | none => .next s
  | some (num, r) =>
    let shut := rd s (K.VOTE_STATE r.target) != vsOpen
    match voteAtHub num (if shut then some .range else none) (fun s =>
        wr (K.VOTE_STATE r.target) vsClosed (voteUpd r.target (fun v => { v with closeAt := s.isb.now }) s)) s with
    | (false, s) => .next s
    | (true, s) => .next (runAtNodes num (fun n s => nodeUpd n (fun x =>
        { x with vote := x.vote.filter (fun v => v.session != r.target) }) s) s)

/-- VOTE_SEAL: 10 ms after the close the seal is presented as class 6 durable work. -/
def execVoteSeal (session : Fin 16) (s : State) : Res :=
  let v := session.val
  let x := voteOf s v
  if rd s (K.VOTE_STATE v) ≠ vsClosed ∨ s.isb.now < x.closeAt + 10 * ms1 then .next s
  else .next (presentWork 3 24 (.voteSeal v x.openAt) s)

/-- R414: the vote record of a sealed session, 43 octets. -/
def voteRecord (s : State) (v : Nat) : Bytes :=
  leBytes 1 v ++ leBytes 8 (rd s (K.SEALED_AT v)) ++ leBytes 8 (rd s (K.VOTE_ARG v))
    ++ (List.range 7).flatMap (fun j => leBytes 2 (rd s (K.VOTE_COUNT v j)))
    ++ leBytes 2 (rd s (K.NOT_VOTED v)) ++ leBytes 2 (rd s (K.VOTES_LATE v)) ++ leBytes 8 (rd s K.SERIAL)

/-- The accepted seal: NOT_VOTED is fixed, SEALED_AT written, the record and its CMAC made when VOTE_SLOT names a slot;
a failure of the CMAC leaves VOTE_TAG at 0 and is recorded (R96, R414). -/
def sealVote (v : Nat) (s : State) : State :=
  let s := wr (K.SEALED_AT v) (((voteOf s v).closeAt + 10 * ms1) / ns1) (wr (K.NOT_VOTED v) (notVoted s v) s)
  let s := wr (K.VOTE_STATE v) vsSealed s
  let slot := rd s K.VOTE_SLOT
  if 64 ≤ slot then s else
  let rec_ := voteRecord s v
  let s := wrBlob (K.VOTE_RECORD v) rec_ s
  match sealNow 1 1 slot 16 (nats rec_) [] s with
  | (some (0, tag), s) => wrBlob (K.VOTE_TAG v) (octets tag) s
  | (r, s) =>
    storm 0x0040 (stormChannel 0xFF 0) [v, (r.map (·.1)).getD 0xFF] (wrBlob (K.VOTE_TAG v) (List.replicate 16 0) s)

/-- R95: count an admitted vote in the most recently opened session. -/
def countVote (n k : Nat) (s : State) : State :=
  match s.fld.lastVote with
  | none => bump (K.EVENT_COUNTS 2) s
  | some v =>
    let st := rd s (K.VOTE_STATE v)
    if st = vsSealed then bump (K.VOTES_LATE v) s else
    let old := tabGet 0 (voteOf s v).votes n
    let change := bitOf (rd s (K.VOTE_ARG v)) 3
    if old ≠ 0 ∧ change = false then s else
    let s := upd (old != 0) (fun s => wr (K.VOTE_COUNT v (old - 1)) (rd s (K.VOTE_COUNT v (old - 1)) - 1) s) s
    bump (K.VOTE_COUNT v (k - 1)) (voteUpd v (fun x => { x with votes := tabSet 0 x.votes n k }) s)

end Sys2Proof.Machine
end

