-- ==== Sys2Proof/Machine/HallDefault.lean ====
section
/-! DEFINITION. Hall Default (R97–R102): the field die's own talker handling and floor mix. -/
namespace Sys2Proof.Machine

/-- The lowest free slot of 0–7 on a trunk. -/
def hdFreeSlot (s : State) (t : Nat) : Option Nat :=
  (List.range 8).find? (fun k => rd s (K.SLOT_OWNER_FLD t k) == 0)

/-- The slot a MIC takes on opening: the one of 0–7 it still holds while it closes, else the lowest free. -/
def hdSlotFor (s : State) (n e : Nat) : Option Nat :=
  match (epOf s n e).slot with
  | some k => if k < 8 then some k else hdFreeSlot s (nodeTrunk n)
  | none => hdFreeSlot s (nodeTrunk n)

/-- A node's MIC is open. -/
def hdIsOpen (s : State) (n : Nat) : Bool := s.fld.hd.opened.any (fun m => m / 16 == n)

/-- Places under the open limit. -/
def hdRoom (s : State) : Bool := decide (s.fld.hd.opened.length < rdF s K.HD_MAX_OPEN)

/-- Open a node's first MIC on its slot. -/
def hdOpen (n : Nat) (s : State) : State :=
  match firstEp s n etMic with
  | none => s
  | some e =>
    match hdSlotFor s n e with
    | none => s
    | some k =>
      let s := hdUpd (fun h => { h with
        queue := h.queue.erase n, chairs := h.chairs.erase n, closing := h.closing.erase (micNum n e) }) s
      epSetOpen n e true (if (epOf s n e).slot = some k then s else slotSet n e k s)

/-- Close a node's open MICs: they ramp out and keep their slots until the ramp ends. -/
def hdClose (n : Nat) (s : State) : State :=
  (s.fld.hd.opened.filter (fun m => m / 16 == n)).foldl (fun s m =>
    hdUpd (fun h => { h with closing := h.closing ++ [m] }) (epSetOpen n (m % 16) false s)) s

/-- A request can open now: a place under the limit and a slot on its trunk. -/
def hdCanOpen (s : State) (n : Nat) : Bool :=
  hdRoom s && ((firstEp s n etMic).bind (hdSlotFor s n)).isSome

/-- Waiting chairs first; while one waits no request opens; then the requests, oldest first, as places and slots allow
(R99). -/
def hdAdmit : List Nat → State → State
  | [], s => s
  | n :: t, s => hdAdmit t (if hdCanOpen s n then hdOpen n s else s)
def hdWaiting (s : State) : State :=
  let s := hdAdmit s.fld.hd.chairs s
  if s.fld.hd.chairs.isEmpty then hdAdmit s.fld.hd.queue s else s

/-- R99: in DEFAULT waiting requests open whenever a MIC closes or a slot is freed. -/
def hdFreed (s : State) : State := if fieldState s = fsDefault then hdWaiting s else s

/-- The delegate mic a chair's request closes: the one open longest on its trunk when that trunk has no free slot, else
the one open longest in the hall. -/
def hdVictim (s : State) (n : Nat) : Option Nat :=
  let delegates := (s.fld.hd.opened.map (· / 16)).filter (fun m => nodeClass s m != clsChair)
  if (hdFreeSlot s (nodeTrunk n)).isNone then delegates.find? (fun m => nodeTrunk m == nodeTrunk n)
  else delegates.head?

/-- A request to open a node's first MIC in DEFAULT. -/
def hdRequest (n : Nat) (s : State) : State :=
  if (firstEp s n etMic).isNone || hdIsOpen s n then s
  else if hdCanOpen s n && (nodeClass s n == clsChair || s.fld.hd.chairs.isEmpty) then hdOpen n s
  else if nodeClass s n = clsChair then
    let s := hdUpd (fun h => if h.chairs.contains n then h
      else { h with chairs := h.chairs ++ [n], queue := h.queue.erase n ++ [n] }) s
    match hdVictim s n with
    | some m => hdWaiting (hdClose m s)
    | none => s
  else if s.fld.hd.queue.contains n then s
  else if s.fld.hd.queue.length - s.fld.hd.chairs.length < rdF s K.HD_QUEUE then
    hdUpd (fun h => { h with queue := h.queue ++ [n] }) s
  else s

/-- R99: REQ_SPEAK in DEFAULT, from a node with a MIC_BUTTON. -/
def hdReqSpeak (n : Nat) (s : State) : State := if (firstEp s n etMicButton).isNone then s else hdRequest n s

/-- R99: REQ_CANCEL in DEFAULT. -/
def hdReqCancel (n : Nat) (s : State) : State :=
  let s := hdUpd (fun h => { h with queue := h.queue.erase n, chairs := h.chairs.erase n }) s
  if hdIsOpen s n then hdWaiting (hdClose n s) else s

/-- A closing MIC's ramp has ended and it has not opened again. -/
def hdClosed (s : State) (m : Nat) : Bool :=
  !s.fld.hd.opened.contains m && (epOf s (m / 16) (m % 16)).opening.all rampDone

/-- HD_MIC_CLOSE_END: a closing MIC's ramp has ended; its slot is freed and waiting requests open. -/
def hdCloseEnd (n : Nat) (s : State) : State :=
  let done := s.fld.hd.closing.filter (fun m => m / 16 == n && hdClosed s m)
  if done.isEmpty then s else
  hdFreed (done.foldl (fun s m =>
    slotClear n (m % 16) (hdUpd (fun h => { h with closing := h.closing.erase m }) s)) s)

def execHdMicCloseEnd (node : Nat) (s : State) : Res := .next (hdCloseEnd node s)

/-- A node that a poll's failure retires gives its places up (R99). -/
def nodeMissed (n : Nat) (s : State) : State := hdFreed (nodeUpset n s)

/-- Nodes of delegate class with a MIC. -/
def delegateNodes (s : State) : List Nat :=
  ((List.range 8).flatMap (servedNodes s)).filter (fun n => nodeClass s n == clsDelegate)

/-- R101: a node's MICs are muted, or unmuted, over 240 samples. -/
def hdMute (mute : Bool) (n : Nat) (s : State) : State :=
  nodeUpd n (fun x => { x with prioMute := rampTo (if mute then 0 else 0x8000) nodeRamp x.prioMute }) s

/-- Every delegate MIC. -/
def hdMuteDelegates (mute : Bool) (s : State) : State := (delegateNodes s).foldl (fun s n => hdMute mute n s) s

/-- A delegate that comes to be served while priority is held is muted too (R101). -/
def hdMuteNew (n : Nat) (s : State) : State :=
  if s.fld.hd.prio.isEmpty ∨ nodeClass s n ≠ clsDelegate ∨ (nodeOf s n).prioMute.new = 0 then s else hdMute true n s

/-- The indicator outputs of a code (Table FLD-14) follow. -/
def fgpioFollow (code : Nat) (on : Bool) (s : State) : State :=
  (List.range 16).foldl (fun s p =>
    if rdF s (K.FGPIO_FUNC p) = code then
      let lv := if on then rdF s (K.FGPIO_ACTIVE p) else 1 - rdF s (K.FGPIO_ACTIVE p)
      wr (K.FGPIO_LEVEL p) lv s
    else s) s

/-- The field die sees an event of a node: the PRIORITY_IND outputs follow the priorities held (R105). -/
def prioSeen (n code : Nat) (s : State) : State :=
  if code = evPriorityOn then
    fgpioFollow 6 true { s with fld.prioHeld := if s.fld.prioHeld.contains n then s.fld.prioHeld else s.fld.prioHeld ++ [n] }
  else if code = evPriorityOff then
    let l := s.fld.prioHeld.erase n
    fgpioFollow 6 (!l.isEmpty) { s with fld.prioHeld := l }
  else s

/-- R101: PRIORITY_ON in DEFAULT. -/
def hdPriorityOn (n : Nat) (s : State) : State :=
  if nodeClass s n ≠ clsChair ∨ tabGet 0 s.fld.hd.prio n ≠ 0 then s else
  let was := hdIsOpen s n
  let s := hdMuteDelegates true (hdUpd (fun h => { h with prio := tabSet 0 h.prio n (if was then 2 else 1) }) s)
  if was then s else hdRequest n s

/-- R101: PRIORITY_OFF in DEFAULT: after the last, HD_PRIO_MODE unmutes the delegates or closes them; those it closes are
unmuted over the samples in which they ramp out (DESIGN CHOICE, assumption 144: the rule says of CLOSE only that they
close). -/
def hdPriorityOff (n : Nat) (s : State) : State :=
  let held := tabGet 0 s.fld.hd.prio n
  if held = 0 then s else
  let s := hdUpd (fun h => { h with
    prio := tabSet 0 h.prio n 0, chairs := h.chairs.erase n
    queue := if h.chairs.contains n then h.queue.erase n else h.queue }) s
  let s := if held = 1 then hdClose n s else s
  if s.fld.hd.prio.isEmpty then
    if rdF s K.HD_PRIO_MODE = 0 then hdWaiting (hdMuteDelegates false s)
    else
      let s := ((s.fld.hd.opened.map (· / 16)).filter (fun m => nodeClass s m == clsDelegate)).foldl (fun s m => hdClose m s) s
      hdWaiting (hdMuteDelegates false s)
  else hdWaiting s

/-- R97: an emergency closes every MIC in the hall with a ramp when EMERG_CLOSE is 1; in DEFAULT the queue empties and
nothing opens into the places. -/
def emergencyClose (s : State) : State :=
  if rdF s K.EMERG_CLOSE = 0 then s else
  let was := s.fld.hd.opened
  let s := ((List.range 8).flatMap (servedNodes s)).foldl (fun s n =>
    (openMics s n).foldl (fun s e => epSetOpen n e false s) s) s
  if fieldState s = fsDefault then
    hdUpd (fun h => { h with closing := h.closing ++ was, queue := [], chairs := [] }) s
  else s

/-- MICs with a slot that are not open. -/
def shutMics (s : State) : List Nat :=
  s.fld.nodes.flatMap (fun x => (x.2.endpoints.filter (fun e =>
    epType s x.1 e.1 == etMic && e.2.slot.isSome && !epOpen s x.1 e.1)).map (fun e => micNum x.1 e.1))

/-- The field die takes over the hall: the open microphones stay as they are, with their slots; those ramping out give
theirs up at the end; priorities held are taken up (R101, R102). -/
def hdAdopt (s : State) : State :=
  s.fld.prioHeld.foldl (fun s n => hdPriorityOn n s) (hdUpd (fun h => { h with closing := shutMics s }) s)

/-- The hall goes back to the hub: open microphones, slots and queue stay; its own mute of the delegates ends
(assumption 144). -/
def hdHandBack (s : State) : State :=
  if s.fld.hd.prio.isEmpty then s else hdMuteDelegates false (hdUpd (fun h => { h with prio := [] }) s)

/-- NODE_ACTION_OFF. -/
def execNodeActionOff (node : Nat) (s : State) : Res := .next (hdFreed (emptyActions 0 (runNodeAction 0 node s)))
/-- NODE_ACTION_ON. -/
def execNodeActionOn (node : Nat) (s : State) : Res := .next (emptyActions 1 (runNodeAction 1 node s))
/-- NODE_ACTION_LED. -/
def execNodeActionLed (node : Nat) (s : State) : Res := .next (emptyActions 2 (runNodeAction 2 node s))
/-- SLOT_ASSIGN. -/
def execSlotAssign (node : Nat) (s : State) : Res := .next (emptyActions 3 (runNodeAction 3 node s))
/-- SLOT_RELEASE. -/
def execSlotRelease (node : Nat) (s : State) : Res := .next (hdFreed (emptyActions 4 (runNodeAction 4 node s)))
/-- SELECT_CHANNEL. -/
def execSelectChannel (node : Nat) (s : State) : Res := .next (emptyActions 5 (runNodeAction 5 node s))
/-- NODE_ACTION_GAIN. -/
def execNodeActionGain (node : Nat) (s : State) : Res := .next (emptyActions 6 (runNodeAction 6 node s))

/-! ## The floor mix (R100) -/

/-- Sum of the samples j of every assigned slot on every trunk. -/
def hdSum (s : State) (j : Nat) : Int :=
  (List.range 8).foldl (fun v t => (trunkOf s t).lastUp.foldl (fun v e =>
    if rd s (K.SLOT_OWNER_FLD t e.1) = 0 then v else v + e.2.getD j 0) v) 0

/-- Six floor samples and the gain after them. -/
def hdFloor (s : State) : Nat → Ramp → List Int × Ramp
  | 0, g => ([], g)
  | n + 1, g =>
    let v := satS 24 (rnd (rampVal g * hdSum s (5 - n)) 15)
    let r := hdFloor s n (rampStep g)
    (v :: r.1, r.2)

end Sys2Proof.Machine
end

