-- ==== Sys2Proof/Machine/Field.lean ====
section
/-! DEFINITION. The field die (chapter FLD): its states and restarts, trunk frames and what returns in them, node events,
the two ends' heartbeats, ring breaks, trunk power, field GPIO, map banks, the start of the Lanok link. -/
namespace Sys2Proof.Machine

/-! ## States of the field die -/

/-- Enter a state of Table FLD-1; the indicators of Table FLD-14 follow. -/
def setFieldState (v : Nat) (s : State) : State :=
  fgpioFollow 5 (v == fsHub) (fgpioFollow 4 (v == fsDefault) (wr K.FIELD_STATE v s))

/-- The field die frames its trunks: HUB or DEFAULT, and master of its rings (R449). -/
def framing (s : State) : Bool := decide (fieldState s ≤ 1)

/-- Paired operation (R449). -/
def isPaired (s : State) : Bool := s.fld.paired

/-- A trunk's frames start here: at the ring master, and at the listener for the segment it masters (R461). -/
def framesTrunk (s : State) (t : Nat) : Bool := s.pair.master || (isPaired s && rd s (K.TRUNK_STATE t) == tsBroken)

/-- The field die loses what it holds (R63, R444): its keys, its copy of the writable keys, its retirements. The nodes keep
what is theirs: waiting events, nibbles, endpoints, indices. -/
def fieldClear (s : State) : State :=
  let s := lanokDown (clearChannels (fun t => decide (5 ≤ t ∧ t ≤ 7)) s)
  let keep := s.fld
  let s := { s with
    regs := s.regs.filter (fun e => !fieldHeld e.1)
    fld := { hubEnd := keep.hubEnd, votes := keep.votes, lastVote := keep.lastVote, lost := keep.lost
             nodes := tabMap {} keep.nodes (fun _ x => { x with
               hs := 0, code := 0, lastSeen := 0, frameTime := 0, lastSend := 0, ackBit := false, seen := false
               deferred := false, reqPart := [], reqCount := 0, reqActive := false, calib := 0 })
             trunks := tabMap {} keep.trunks (fun _ x => { ring := x.ring, bypassed := x.bypassed })
             elapsed := keep.elapsed, seenKeys := keep.seenKeys
             frstHigh := keep.frstHigh, powered := keep.powered, gpioRaw := keep.gpioRaw } }
  setFieldState fsReset (wr K.LANOK_STATE 0 s)

/-- FIELD_RESET: FRST_N goes low. -/
def execFieldReset (s : State) : Res :=
  .next { (fieldClear s) with fld.frstHigh := false }

/-- FIELD_SUPPLY_LOSS: VF_CORE or VF_IO is removed. -/
def execFieldSupplyLoss (s : State) : Res :=
  .next { (fieldClear s) with fld.powered := false }

/-- FIELD_START: FRST_N rises with the field supplies present; the field die enters DEFAULT with default keys, sets
RESYNC and begins to power its trunks (R468). -/
def execFieldStart (s : State) : Res :=
  let s := fieldClear s
  let s := { s with
    fld.frstHigh := true, fld.powered := true, fld.powerStep := 0, fld.powerAt := fieldClk s
    fld.trunks := (List.range 8).map (fun t => (t, { trunkOf s t with resync := true })) }
  .next (setFieldState fsDefault (wr K.LANOK_STATE 1 s))

/-- FIELD_WAKE: the field die wakes from CALM; its trunks frame again, in DEFAULT (R103). -/
def fieldWake (s : State) : State :=
  if fieldState s = fsCalm then setFieldState (if s.fld.hubMix && lanokUp s then fsHub else fsDefault) s else s

def execFieldWake (s : State) : Res := .next (fieldWake s)

/-! ## Trunk port power (R98) -/

/-- PWR_STATE values. -/
abbrev ppOff : Nat := 0
abbrev ppSoft : Nat := 1
abbrev ppOn : Nat := 2
abbrev ppTripped : Nat := 3
abbrev ppRetired : Nat := 4

/-- What the field die keeps of a port's trips. -/
def portOf (s : State) (t p : Nat) : PortPower := if p = 0 then (trunkOf s t).powerA else (trunkOf s t).powerB
def portUpd (t p : Nat) (f : PortPower → PortPower) (s : State) : State :=
  trunkUpd t (fun x => if p = 0 then { x with powerA := f x.powerA } else { x with powerB := f x.powerB }) s

/-- The gate driver TPGnA or TPGnB. -/
def gateName (t p : Nat) : String :=
  "TPG" ++ (["0", "1", "2", "3", "4", "5", "6", "7"].getD t "0") ++ (if p = 0 then "A" else "B")

/-- Enable a port: its gate begins the soft start. Port B of a pair's trunk is never powered (R449). -/
def portEnable (t p : Nat) (s : State) : State :=
  if fieldState s = fsReset ∨ (rd s (K.PWR_STATE t p) ≠ ppOff ∧ rd s (K.PWR_STATE t p) ≠ ppTripped)
      ∨ (isPaired s = true ∧ p = 1) then s
  else emit (.pin (gateName t p) true)
    (wr (K.PWR_STATE t p) ppSoft (portUpd t p (fun x => { x with onAt := fieldClk s }) s))

/-- Disable a port. -/
def portDisable (t p : Nat) (s : State) : State :=
  if rd s (K.PWR_STATE t p) = ppRetired then s
  else emit (.pin (gateName t p) false) (wr (K.PWR_STATE t p) ppOff s)

/-- A powered trunk that is served starts: enumeration when no node table is loaded (R87). -/
def trunkStart (t : Nat) (s : State) : State :=
  if rdF s (K.TRUNK_EN t) = 0 ∨ isRetired s cTrunk t = true
      ∨ (rd s (K.TRUNK_STATE t) ≠ tsAbsent ∧ rd s (K.TRUNK_STATE t) ≠ tsOff) then s
  else
    wr (K.TRUNK_STATE t) tsStarting (trunkUpd t (fun x => { x with
      enumerating := x.table.isNone && x.downHops.isEmpty, resync := true, resyncFrames := 0, flight := []
      nodes := match x.table with | some l => l.map (·.1) | none => if x.downHops.isEmpty then [] else x.ring }) s)

/-- POWER_SEQUENCE_STEP: every 50 ms the next port in the order FT0A, FT0B, FT1A … is enabled when its PWR_EN is 1. -/
def execPowerSequenceStep (s : State) : Res :=
  let i := s.fld.powerStep
  if 16 ≤ i ∨ fieldState s = fsReset ∨ (i ≠ 0 ∧ fieldClk s < s.fld.powerAt + 50 * ms1) then .next s
  else
    let s := { s with fld.powerStep := i + 1, fld.powerAt := fieldClk s }
    .next (if rdF s (K.PWR_EN (i / 2) (i % 2)) = 1 then portEnable (i / 2) (i % 2) s else s)

/-- TRUNK_PORT_ENABLE: the port's power is enabled. -/
def execTrunkPortEnable (trunk : Fin 8) (port : Fin 2) (s : State) : Res :=
  .next (if rdF s (K.PWR_EN trunk.val port.val) = 1 then portEnable trunk.val port.val s else s)

/-- SOFT_START_END: the ramp has ended; the port is ON when its current is within the limit. -/
def execSoftStartEnd (trunk : Fin 8) (port : Fin 2) (current : Nat) (s : State) : Res :=
  let t := trunk.val
  let p := port.val
  if rd s (K.PWR_STATE t p) ≠ ppSoft ∨ fieldClk s < (portOf s t p).onAt + rdF s (K.PWR_SOFT t p) * ms1 then .next s
  else
    let s := wr (K.PWR_CURRENT t p) current s
    .next (if current ≤ rdF s (K.PWR_LIMIT t p) then trunkStart t (wr (K.PWR_STATE t p) ppOn s) else s)

/-- The soft start of a port has run its time. -/
def softOver (s : State) (t p : Nat) : Bool :=
  decide ((portOf s t p).onAt + rdF s (K.PWR_SOFT t p) * ms1 ≤ fieldClk s)

/-- The current trips the port: above 1.5 × limit in the soft start, above the limit after it. -/
def tripMet (s : State) (t p current : Nat) : Bool :=
  (rd s (K.PWR_STATE t p) == ppSoft && decide (3 * rdF s (K.PWR_LIMIT t p) < 2 * current))
    || ((rd s (K.PWR_STATE t p) == ppOn || (rd s (K.PWR_STATE t p) == ppSoft && softOver s t p)) && decide (rdF s (K.PWR_LIMIT t p) < current))

/-- OVERCURRENT_TRIP: the gate goes off; the sixth trip within 60 s retires the port. -/
def execOvercurrentTrip (trunk : Fin 8) (port : Fin 2) (current : Nat) (s : State) : Res :=
  let t := trunk.val
  let p := port.val
  if !tripMet s t p current then .next s else
  let trips := fieldClk s :: (portOf s t p).trips.filter (fun i => decide (fieldClk s < i + 60 * s1))
  let s := bump (K.PWR_TRIPS t p) (wr (K.PWR_CURRENT t p) current
    (portUpd t p (fun x => { x with trips := trips, onAt := fieldClk s }) s))
  .next (emit (.pin (gateName t p) false)
    (wr (K.PWR_STATE t p) (if 6 ≤ trips.length then ppRetired else ppTripped) s))

/-- TRIP_RETRY: 1 s after a trip the port is enabled again. -/
def execTripRetry (trunk : Fin 8) (port : Fin 2) (s : State) : Res :=
  let t := trunk.val
  let p := port.val
  .next (if rd s (K.PWR_STATE t p) = ppTripped ∧ (portOf s t p).onAt + s1 ≤ fieldClk s then portEnable t p s else s)

/-- Clear the retirement of a port: it is OFF, and enabled again when its PWR_EN is 1. -/
def pwrClear (t p : Nat) (s : State) : State :=
  if rd s (K.PWR_STATE t p) ≠ ppRetired then s
  else
    let s := wr (K.PWR_STATE t p) ppOff (portUpd t p (fun _ => {}) s)
    if rdF s (K.PWR_EN t p) = 1 then portEnable t p s else s

/-- PWR_CLEAR: keys 1803h and 1804h + 100h × t:08. -/
def writePwrClear (inst : Inst) (tag : Nat) (trunk : Fin 8) (port : Fin 2) (s : State) : State :=
  runCmd inst tag (0x1803 + 256 * trunk.val + port.val) 8 .ok (pwrClear trunk.val port.val) s

/-! ## Node events (R82–R89) -/

/-- Wake source of an event: 02h PRIORITY, 10h FIELD_EVENT, or none (Table PWR-4). -/
def wakeCode (code : Nat) : Option Nat :=
  if code = evPriorityOn then some 2
  else if code = evReqSpeak ∨ (5 ≤ code ∧ code ≤ 11) then some 0x10 else none

/-- WAKE for an event: for those of Table PWR-4 while the hub sleeps, for PRIORITY_ON in any case (R97, R103). -/
def wakeFor (n code : Nat) (s : State) : State :=
  match (wakeCode code).filter (fun c => s.fld.hubAsleep || c == 2) with
  | some c => lanokSend false (.wake c n (fieldNow s / ns1)) s
  | none => s

/-- The field die sends a node's event to the hub. While the hub sleeps it sends WAKE and keeps the event PENDING
(R429); PRIORITY_ON sends WAKE first in any case (R97). -/
def raiseEvent (n : Nat) (s : State) : State :=
  let x := nodeOf s n
  let s := wakeFor n x.code s
  let s := nodeUpd n (fun x => { x with lastSend := fieldClk s, deferred := s.fld.hubAsleep }) s
  if s.fld.hubAsleep then s else lanokSend false (.nodeEvent n x.code (x.frameTime / ns1)) s

/-- R99: in DEFAULT the field die acknowledges an event itself; an event outside the node's class is counted and not
admitted (R89). What wakes the hub does so here too (R103). -/
def selfAck (n : Nat) (s : State) : State :=
  let c := (nodeOf s n).code
  let s := wakeFor n c s
  let s := nodeUpd n (fun x => { x with hs := 2, ackBit := true }) s
  if classMay (nodeClass s n) c then { s with fld.admitted := s.fld.admitted ++ [(n, c, false)] }
  else bump (K.EVENT_COUNTS 2) s

/-- A poll of kind `k` of a node, at a rank. -/
def pollCtrl (rank idx k : Nat) : Ctrl := { rank := rank, dest := idx, typ := 1, payload := leBytes 1 k }

/-- Queue a control message, once. -/
def pushCtrl (t : Nat) (c : Ctrl) (s : State) : State :=
  trunkUpd t (fun x => if x.ctrl.contains c then x else { x with ctrl := x.ctrl ++ [c] }) s

/-- The vote codes. -/
def isVote (code : Nat) : Bool := decide (5 ≤ code ∧ code ≤ 11)

/-- R82: a good sighting of a node's nibble in the frame of instant T. Before the node's first nibble since RESYNC began,
0 sends NODE_CLEAR (R86). -/
def sight (n v : Nat) (T : Instant) (s : State) : State :=
  if !nodeServed s n then s else
  let x := nodeOf s n
  let first := !x.seen
  let s := nodeUpd n (fun x => { x with seen := true, lastSeen := v }) s
  let s := if v = evMessage then pushCtrl (nodeTrunk n) (pollCtrl 2 (nodeIndex n) 3) s else s
  if v = 15 then bump (K.EVENT_COUNTS 2) s
  else if x.hs = 0 ∧ v ≠ 0 then
    let s := prioSeen n v (nodeUpd n (fun x => { x with hs := 1, code := v, frameTime := T }) s)
    if fieldState s = fsDefault ∧ isVote v = false then selfAck n s else raiseEvent n s
  else if x.hs ≠ 0 ∧ v ≠ 0 ∧ v ≠ x.code then bump (K.EVENT_COUNTS 2) s
  else if x.hs = 2 ∧ v = 0 then
    let s := nodeUpd n (fun x => { x with hs := 0, ackBit := false, code := 0 }) s
    if s.fld.hubAsleep then s else lanokSend false (.nodeClear n) s
  else if first ∧ v = 0 ∧ x.hs = 0 ∧ (trunkOf s (nodeTrunk n)).resync = true ∧ s.fld.hubAsleep = false then
    lanokSend false (.nodeClear n) s
  else s

/-- Every served node. -/
def allServed (s : State) : List Nat := (List.range 8).flatMap (servedNodes s)

/-- R86: after a link start, or when the hub has woken, NODE_EVENT for each node PENDING or ACKED and NODE_CLEAR for each
IDLE one. -/
def resendEvents (s : State) : State :=
  (allServed s).foldl (fun s n =>
    let x := nodeOf s n
    if x.hs = 0 then lanokSend false (.nodeClear n) s
    else
      lanokSend false (.nodeEvent n x.code (x.frameTime / ns1))
        (nodeUpd n (fun x => { x with lastSend := fieldClk s, deferred := false }) s)) s

/-- Requests held while the hub slept are forwarded (R119). -/
def forwardHeld (s : State) : State :=
  s.fld.heldReq.foldl (fun s r => lanokSend false (.dictReq r.1 r.2) s) { s with fld.heldReq := [] }

/-- NODE_EVENT_RESEND: 10 ms after its last send a PENDING event goes to the hub again. -/
def execNodeEventResend (node : Nat) (s : State) : Res :=
  let x := nodeOf s node
  if x.hs = 1 ∧ x.lastSeen ≠ 0 ∧ s.fld.hubAsleep = false ∧ x.lastSend + 10 * ms1 ≤ fieldClk s then
    .next (lanokSend false (.nodeEvent node x.code (x.frameTime / ns1))
      (nodeUpd node (fun x => { x with lastSend := fieldClk s }) s))
  else .next s

/-- An accepted entry for the node's event is not yet in the journal's accepted part. -/
def eventPending (s : State) (n : Nat) : Bool :=
  s.sch.journal.any (fun e => e.state == 0 && (match e.act with | .nodeEvent m _ _ => m == n | _ => false))
    || s.sch.held.any (fun w => match w.2 with | .nodeEvent m _ _ => m == n | _ => false)

/-- A NODE_EVENT at the hub (R84, R89, R460): a hub in ISLAND leaves it; one for an OPEN node is acknowledged again and
counted; one outside the class set is acknowledged and counted as a protocol error; else it is durable work. -/
def hubNodeEvent (n code T : Nat) (s : State) : State :=
  if roleOf s = roleIsland ∨ hubAsleep s = true then s else
  let s := { s with pwr.lastActive := clk s }
  if (nodeOf s n).isOpen then bump (K.EVENT_COUNTS 1) (lanokSend true (.nodeAck n) s)
  else if code = 0 ∨ classMay (nodeClass s n) code = false then
    bump (K.EVENT_COUNTS 2) (lanokSend true (.nodeAck n) s)
  else if eventPending s n then s
  else presentWork 1 0 (.nodeEvent n code T) s

/-- NODE_EVENT. -/
def execNodeEvent (h : LHdr) (node code frameTime : Nat) (s : State) : Res :=
  onLanok true true h (hubGets (.nodeEvent node code frameTime) (hubNodeEvent node code frameTime)) s

/-- A NODE_CLEAR at the hub: OPEN becomes 0 as durable work. -/
def hubNodeClear (node : Nat) (s : State) : State :=
  if (nodeOf s node).isOpen || eventPending s node then presentWork 1 0 (.nodeClear node) s else s

/-- NODE_CLEAR. -/
def execNodeClear (h : LHdr) (node : Nat) (s : State) : Res :=
  onLanok true true h (hubGets (.nodeClear node) (hubNodeClear node)) s

/-- NODE_ACK: the node is ACKED and its ack bit is set. -/
def execNodeAck (h : LHdr) (node : Nat) (s : State) : Res :=
  onLanok false true h (nodeUpd node (fun x => { x with hs := 2, ackBit := true, deferred := false })) s

/-! ## Heartbeats and loss (R12) -/

/-- HEARTBEAT: the loss count restarts. At the field die bit 7 of the mode byte says the hub is not in RUN; when it
clears, events and held requests go out (R429, R119). -/
def execHeartbeat (atHub : Bool) (h : LHdr) (mode _field role epoch : Nat) (s : State) : Res :=
  onLanok atHub false h (fun s =>
    let s := endUpd atHub (fun e => { e with beat := true, missed := 0 }) s
    if atHub then s
    else
      let was := s.fld.hubAsleep
      let s := { s with
        fld.hubSeen := true, fld.hubAsleep := bitOf mode 7, fld.paired := role != 0
        fld.hubRole := role, fld.hubMode := mode % 128, fld.hubEpoch := epoch }
      if was && !bitOf mode 7 then forwardHeld (resendEvents s) else s) s

/-- A frame boundary has passed at a die: a heartbeat that did not come is counted. -/
def countMissed (hub : Bool) (s : State) : State :=
  let e := endOf hub s
  let s := upd (!e.beat && decide (e.missed < 8)) (bump (K.LANOK_COUNTS 2)) s
  endUpd hub (fun e => { e with beat := false, missed := if e.beat then 0 else min 8 (e.missed + 1) }) s

/-- The downstream channels change between the hub's mix and the floor mix over 240 samples from an instant; a fade in
progress is taken over from its last samples. -/
def startMixFade (toHub : Bool) (at_ : Instant) (s : State) : State :=
  let was := b2n s.fld.hubMix
  let s := (List.range 8).foldl (fun s t => trunkUpd t (fun x => { x with
    mixFade := (List.range 64).foldl (fun u c => tabMod {} u c (fadeTo was (b2n toHub) nodeRamp at_)) x.mixFade }) s) s
  { s with fld.hubMix := toHub }

/-- Without the hub's mix the field die runs the hall, from the next frame boundary (R12, R62). -/
def hallAlone (s : State) : State :=
  let s := if s.fld.hubMix then hdAdopt (startMixFade false (ceilTo framePeriod (fieldNow s)) s) else s
  if fieldState s = fsHub then setFieldState fsDefault s else s

/-- HUB_LOST: 8 hub heartbeats missed; the link restarts and the field die runs the hall from the next frame boundary. -/
def execHubLost (s : State) : Res :=
  if s.fld.fieldEnd.missed < 8 ∨ (s.fld.hubSeen = false ∧ lanokUp s = false) then .next s
  else .next (hallAlone (bump K.HUB_LOST (upd (lanokUp s) lanokDown { s with fld.hubSeen := false, fld.hubAsleep := false })))

/-- FIELD_LOST: the hub misses 8 field heartbeats and reports every trunk absent. In BRIDGE with the field die
left unpowered the bit of SUMMARY, which R25 does not name among its faults, stays clear (DESIGN CHOICE, assumption 145). -/
def execFieldLost (s : State) : Res :=
  if s.fld.hubEnd.missed < 8 ∨ s.fld.lost = true then .next s
  else
    let s' := { (upd (lanokUp s) (fun s => hallAlone (lanokDown s)) s) with fld.lost := true }
    .next (upd (!(modeOf s == mBridge && !s.fld.powered)) (summary 4 true) s')

/-- LANOK_RESEND: eight re-sends of one message take the link down and leave the hall to the field die. -/
def execLanokResend (hub : Bool) (s : State) : Res :=
  let r := lanokResend hub s
  .next (upd (lanokUp s && !lanokUp r) hallAlone r)

/-- LANOK_CRC_FAILURE: sixteen failures in a row do. -/
def execLanokCrcFailure (hub foreign : Bool) (s : State) : Res :=
  let r := lanokCrcFailure hub foreign s
  .next (upd (lanokUp s && !lanokUp r) hallAlone r)

/-- TIME_XFER: the follower locks to the instant the message names plus the barrier's delay; up to 1 ms is slewed at 100 ppm (12.5 ns in a frame), more is stepped at the
frame boundary (R42, R44). -/
def follow (sent : Instant) (s : State) : State :=
  let err : Int := (fieldNow s : Int) - (sent + rd s K.BARRIER_DELAY * 65536 / 1000 : Nat)
  let off := s.fld.followerOffset
  let step : Int := 12 * 65536 + 32768
  if err.natAbs > ms1 then
    wr K.FIELD_TIME_STATE 0 { s with fld.followerOffset := off - err, fld.followerOk := true }
  else if err.natAbs ≤ step.natAbs then
    wrI 32 K.FIELD_TIME_ERROR (err * 1000 / 65536)
      (wr K.FIELD_TIME_STATE 0 { s with fld.followerOffset := off - err, fld.followerOk := true })
  else
    wrI 32 K.FIELD_TIME_ERROR (satS 32 (err * 1000 / 65536)) (wr K.FIELD_TIME_STATE 1
      { s with fld.followerOffset := if err > 0 then off - step else off + step, fld.followerOk := true })

def execTimeXfer (h : LHdr) (time frac _isbState : Nat) (_freq : Int) (s : State) : Res :=
  onLanok false false h (follow (time * ns1 + frac)) s

/-! ## Audio over the barrier -/

/-- The owner of a slot is served by this hub's own field die; an unassigned slot is too. -/
def ownSlotServed (s : State) (t k : Nat) : Bool :=
  let w := rd s (K.SLOT_OWNER_FLD t k)
  w == 0 || nodeServed s (w % 65536)

/-- An upstream block reaches the hub. While the peer relays its segment, each slot is taken from the die that serves its
owner. -/
def takeBlock (own : Bool) (t b valid : Nat) (samples : List (List Int)) (s : State) : State :=
  let i := t * 4 + b
  let takes (j : Nat) : Bool := !s.pair.peerRelays || ownSlotServed s t (8 * b + j) == own
  let old := tabGet [] s.fld.up i
  let oldValid := tabGet 0 s.fld.upValid i
  let js := List.range 8
  { s with
    fld.up := tabSet [] s.fld.up i (js.map (fun j =>
      (if takes j then samples else old).getD j [0, 0, 0, 0, 0, 0]))
    fld.upValid := tabSet 0 s.fld.upValid i (js.foldl (fun v j =>
      v + 2 ^ j * b2n (bitOf (if takes j then valid else oldValid) j)) 0) }

/-- AUDIO_UP: a block of a trunk's upstream slots; a hub not in RUN discards it (R429). -/
def execAudioUp (h : LHdr) (trunk : Fin 8) (block : Fin 4) (frameTime valid : Nat) (samples : List (List Int))
    (s : State) : Res :=
  onLanok true false h (fun s =>
    if hubAsleep s then s
    else if relaying s then pairSend (.relayUp trunk.val block.val frameTime valid samples) s
    else takeBlock true trunk.val block.val valid samples s) s

/-- AUDIO_DOWN: the 64 downstream channels the next frames carry through each trunk's map bank. -/
def execAudioDown (h : LHdr) (_frameTime : Nat) (samples : List (List Int)) (s : State) : Res :=
  onLanok false false h (fun s => { s with fld.down := samples }) s

/-! ## Frames (R70–R81) -/

/-- The samples of a cross-fade, from the signals of each instant. -/
def fadeRun : Fade → List (Instant × (Nat → Int)) → List Int × Fade
  | f, [] => ([], f)
  | f, (b, sig) :: t =>
    let r := fadeSample f b sig
    let u := fadeRun r.2 t
    (r.1 :: u.1, u.2)

/-- A hub channel through a map entry: source in [5:0], bit 7 mutes (R74). -/
def mapSample (s : State) (entry j : Nat) : Int :=
  if bitOf entry 7 then 0 else (s.fld.down.getD (entry % 64) []).getD j 0

/-- Entry c of a map bank as the field die holds it. -/
def mapEntry (s : State) (t bank c : Nat) : Nat := rdF s (K.MAP t bank c)

/-- Instants of the six samples a frame at T carries: the boundaries from T − 125 µs on (assumption 13). -/
def frameTimes (T : Instant) : List Instant :=
  (List.range 6).map (fun j => sampleBoundary (sampleAtOrAfter (T - framePeriod) + j))

/-- Channel c of a trunk's frame: six samples, and its fades after them. -/
def chanSamples (s : State) (t c : Nat) (floor : List Int) (times : List Instant) : List Int × Fade × Fade :=
  let tr := trunkOf s t
  let map_ := fadeFrom (mapEntry s t (rd s (K.MAP_ACTIVE t)) c) (tabGet {} tr.mapFade c)
  let hub := fadeRun map_ ((List.range 6).map (fun j => (times.getD j 0, fun e => mapSample s e j)))
  let hd := fun (j : Nat) => if c < 48 then floor.getD j 0 else 0
  let line := (List.range 6).map (fun j =>
    (times.getD j 0, fun src => if src = 1 then hub.1.getD j 0 else hd j))
  let mix := fadeRun (fadeFrom (b2n s.fld.hubMix) (tabGet {} tr.mixFade c)) line
  (mix.1, fadeKept hub.2, fadeKept mix.2)

/-- A trunk that carries no audio in a frame has no samples to fade. -/
def fadesDrop (t : Nat) (s : State) : State := trunkUpd t (fun x => { x with mapFade := [], mixFade := [] }) s

/-- The held launch that goes to a trunk's nodes next: earliest instant first, to nodes with room for it (R94). -/
def launchFor (s : State) (t : Nat) : Option (Nat × LaunchRec × List Nat) :=
  let cand := s.fld.held.filterMap (fun e => match e.2 with
    | some h =>
      let here := h.undelivered.filter (fun n => nodeTrunk n == t)
      let room := here.filter (fun n => decide ((nodeOf s n).launches.length < 16))
      if room.isEmpty then none else some (e.1, h.lr, room)
    | none => none)
  cand.foldl (fun b c => match b with
    | none => some c
    | some m => if c.2.1.time * ns1 + c.2.1.frac < m.2.1.time * ns1 + m.2.1.frac then some c else b) none

/-- LAUNCH of Table FLD-5. -/
def launchPayload (num : Nat) (r : LaunchRec) : Bytes :=
  leBytes 2 num ++ leBytes 1 r.typ ++ [0] ++ leBytes 8 r.time ++ leBytes 2 r.frac ++ leBytes 8 r.arg ++ leBytes 2 r.target

/-- A launch is on its way to nodes: the field die does not send it to them again. -/
def giveLaunch (num : Nat) (nodes : List Nat) (s : State) : State :=
  match heldOf s num with
  | some h => setHeld num (some { h with undelivered := h.undelivered.filter (fun n => !nodes.contains n) }) s
  | none => s

/-- What a node does with a control message it receives. A launch is for those of its target; a node holds at most 16. -/
def nodeTakes (c : Ctrl) (n : Nat) (s : State) : State :=
  if c.typ = 2 then
    let num := leAt c.payload 0 2
    let wanted := (heldOf s num).any (fun h => h.waiting.contains n)
    if wanted then nodeUpd n (fun x =>
      if x.launches.contains num ∨ 16 ≤ x.launches.length then x else { x with launches := x.launches ++ [num] }) s
    else s
  else if c.typ = 3 then nodeUpd n (fun x => { x with launches := x.launches.erase (leAt c.payload 0 2) }) s
  else if c.typ = 4 then
    let item := leAt c.payload 0 1
    if item = 0 then nodeUpd n (fun x => { x with dCw := leAt c.payload 4 4, dCcw := leAt c.payload 8 4 }) s
    else if item = 1 ∨ item = 2 then
      let typ := if item = 1 then etLoudspeaker else etHeadphone
      (List.range 16).foldl (fun s e => if epType s n e = typ then epUpd n e (fun x => { x with channel := none }) s else s) s
    else s
  else s

/-- The control message of a trunk's next frame (R79): each takes the next SEQ. -/
def putCtrl (t : Nat) (c : Ctrl) (s : State) : State :=
  emit (.porua t c.typ c.dest c.payload) (trunkUpd t (fun x => { x with msg := c, ctrlSeq := (x.ctrlSeq + 1) % 256 }) s)

/-- Send a queued control message. -/
def sendCtrl (t : Nat) (c : Ctrl) (s : State) : State := putCtrl t c (trunkUpd t (fun x => { x with ctrl := x.ctrl.erase c }) s)

/-- E: enrolled nodes in the loaded node tables (ENROLLED). -/
def enrolled (s : State) : Nat := (List.range 8).foldl (fun n t => n + (((trunkOf s t).table.map List.length).getD 0)) 0

/-- c: enrolled nodes the master serves; what the listener still reaches is as it was last found (REACHABLE). -/
def reachable (s : State) : Nat :=
  if s.pair.master then
    ((List.range 8).filter (fun t => (trunkOf s t).table.isSome)).foldl (fun n t =>
      n + ((servedNodes s t).filter (fun m => rd s (K.NODE_STATE m) == nsServed)).length) 0
  else rd s K.REACHABLE

/-- Byte 14 of a beacon. -/
def beaconFlags (s : State) (take yield_ : Bool) : Nat :=
  b2n (!lanokUp s || !s.fld.hubSeen) + 2 * b2n take + 4 * b2n yield_

/-- R450: the master's beacon payload, from byte 4, filled from the hub's last heartbeat. -/
def beaconPayload (s : State) : Bytes :=
  leBytes 8 (rd s K.SERIAL) ++ leBytes 1 s.fld.hubRole ++ leBytes 1 s.fld.hubMode
    ++ leBytes 1 (beaconFlags s s.pair.takeAt.isSome s.pair.switchAt.isSome) ++ [0] ++ leBytes 4 s.fld.hubEpoch
    ++ leBytes 2 (reachable s) ++ [0, 0] ++ leBytes 8 (s.pair.switchAt.getD 0 / ns1)

/-- The listener writes its beacon into the upstream message section of the master's millisecond frames. -/
def listenerBeacon (t : Nat) (T : Instant) (s : State) : State :=
  if T % ms1 ≠ 0 ∨ trunkRuns s t = false then s else
  emit (.beaconUp t ([0xFE, 0xFF, 0x0F] ++ leBytes 1 (trunkOf s t).ctrlSeq ++ leBytes 4 (rd s K.SERIAL % 4294967296)
    ++ leBytes 1 s.fld.hubRole ++ leBytes 1 (beaconFlags s s.pair.takeAt.isSome false) ++ leBytes 2 (reachable s)
    ++ leBytes 4 s.fld.hubEpoch)) s

/-- R81: the control message of a trunk's frame: BEACON in a pair's millisecond frames, then CANCEL, LAUNCH, POLL kind 3,
SET, DICT_RSP, polls after enumeration, routine status polls in turn. -/
def sendControl (t : Nat) (T : Instant) (s : State) : State :=
  let tr := trunkOf s t
  let msg (typ dest : Nat) (payload : Bytes) : Ctrl := { rank := 5, dest := dest, typ := typ, payload := payload }
  if isPaired s ∧ T % ms1 = 0 then putCtrl t (msg 6 0xFFFF (beaconPayload s)) s
  else
    match tr.ctrl.find? (fun c => c.rank == 0) with
    | some c => sendCtrl t c s
    | none =>
      match launchFor s t with
      | some (num, r, nodes) =>
        let one := r.typ == ltNodeAction && r.target != 0xFFFF
        putCtrl t (msg 2 (if one then nodeIndex r.target else 0xFFFF) (launchPayload num r)) (giveLaunch num nodes s)
      | none =>
        match [2, 3, 4, 5].findSome? (fun k => tr.ctrl.find? (fun c => c.rank == k)) with
        | some c => sendCtrl t c s
        | none =>
          let ns := servedNodes s t
          if ns.isEmpty then putCtrl t (msg 0 0xFFFF []) s
          else
            let n := ns.getD (tr.pollNext % ns.length) 0
            putCtrl t (msg 1 (nodeIndex n) (leBytes 1 0)) (trunkUpd t (fun x => { x with pollNext := x.pollNext + 1 }) s)

/-- R82, R85: what a node makes of a frame's ack bit. -/
def nodeNibble (resync : Bool) (x : Node) : Node :=
  let x := match x.queue with
    | c :: _ => if x.nibble = 0 ∧ x.ackBit = false ∧ x.ackReadZero = true ∧ resync = false then { x with nibble := c } else x
    | [] => x
  let x := if x.nibble ≠ 0 ∧ x.ackBit = true then { x with queue := x.queue.drop 1, nibble := 0 } else x
  { x with ackReadZero := !x.ackBit }

/-- Header FLAGS of Table FLD-4. -/
def frameFlags (s : State) (tr : Trunk) (ccw : Bool) : Nat :=
  b2n tr.resync + 2 * b2n (!s.fld.hubMix) + 4 * b2n ccw + 8 * b2n (isPaired s) + 16 * b2n (isPaired s && s.pair.masterChange)

/-! ### The frame's code groups (Table FLD-4) -/

/-- A section or block with its CRC (R72). -/
def withCrc (b : Bytes) : Bytes := b ++ leBytes 2 (crc16 b)

/-- The 32 octets of a control message (R79). -/
def ctrlOctets (seq : Nat) (c : Ctrl) : Bytes :=
  leBytes 1 c.typ ++ leBytes 1 seq ++ leBytes 2 c.dest ++ slice c.payload 0 28

/-- The ack bitmap: node index p owns bit p mod 8 of octet ⌊p/8⌋. -/
def ackOctets (s : State) (t : Nat) : Bytes :=
  (List.range 256).map (fun j => BitVec.ofNat 8
    ((List.range 8).foldl (fun v i => v + 2 ^ i * b2n (nodeOf s (t * 2048 + 8 * j + i)).ackBit) 0))

/-- One copy as it leaves its port: HOP 0, the upstream sections empty. -/
def frameGroups (s : State) (t typ flags : Nat) (T : Instant) (audio : List (List Int)) : Bytes :=
  let tr := trunkOf s t
  let header := leBytes 1 typ ++ leBytes 1 flags ++ leBytes 1 t ++ leBytes 2 (T / framePeriod) ++ leBytes 8 (T / ns1) ++ [0, 0]
  let zeros (n : Nat) : Bytes := withCrc (List.replicate n 0)
  [0xBC] ++ withCrc header
    ++ withCrc ((List.range 64).flatMap (fun c => sampleOctets (audio.getD c [0, 0, 0, 0, 0, 0])))
    ++ withCrc (ackOctets s t ++ ctrlOctets tr.ctrlSeq tr.msg)
    ++ (List.range 4).flatMap (fun _ => zeros 144) ++ (List.range 16).flatMap (fun _ => zeros 64) ++ zeros 16
    ++ [0x1C, 0x1C, 0x1C, 0x1C, 0x1C]

/-! ### The frame pair at the nodes (R70–R77) -/

/-- The copies that reach a node, counter-clockwise or not, in the order in which they pass it: both on an intact ring; at
a break those of its own side (R92); in a pair the master's or the listener's (R449, R461). -/
def copiesAt (s : State) (t i : Nat) : List Bool :=
  let l := (trunkOf s t).downHops
  let x := nodeOf s (t * 2048 + i)
  if l.isEmpty then (if isPaired s then [false] else if x.dCcw < x.dCw then [true, false] else [false, true])
  else if i < l.foldl min 4096 then (if isPaired s && !s.pair.master then [] else [false])
  else if l.foldl max 0 ≤ i then (if !isPaired s then [true] else if s.pair.master then [] else [false])
  else []

/-- A section of a copy is bad for a receiver with `j` receivers before it: once corrupted it stays so (R72). -/
def sectBad (noise : List SectErr) (t : Nat) (ccw : Bool) (section_ j : Nat) : Bool :=
  noise.any (fun e => e.trunk == t && e.ccw == ccw && e.section_ == section_ && decide (e.hop ≤ j))

/-- Receivers a copy has passed before node index `i`. -/
def passedBefore (tr : Trunk) (ccw : Bool) (i : Nat) : Nat :=
  (tr.nodes.filter (fun j => if ccw then decide (i < j) else decide (j < i))).length

/-- When the earlier of its copies reaches a node, by the node's Isobar. -/
def arrivalAt (x : Node) (copies : List Bool) (T : Instant) : Instant :=
  T + (copies.map (fun c => if c then x.dCcw else x.dCw)).foldl min (max x.dCw x.dCcw) * 65536 / 1000

/-- A node receives the pair: its Isobar, audio, control message, event nibble and upstream slots. `skew`: by node, what
its position delays differ from the truth, in 2⁻¹⁶ ns. -/
def nodePass (noise : List SectErr) (skew : List (Nat × Int)) (T : Instant) (t : Nat) (r : State × Flight) (i : Nat) :
    State × Flight :=
  let (s, fl) := r
  let tr := trunkOf s t
  let n := t * 2048 + i
  let copies := copiesAt s t i
  let bad (c : Bool) (k : Nat) : Bool := sectBad noise t c k (passedBefore tr c i)
  let count (c : Bool) : Nat := if copies.contains c then ((List.range 24).filter (bad c)).length else 0
  let audio := copies.any (fun c => !bad c 1)
  let iso := if copies.any (fun c => !bad c 0) then some (((skew.find? (fun e => e.1 == n)).map (·.2)).getD 0) else none
  let s := nodeUpd n (fun x => { x with
    badCw := min 65535 (x.badCw + count false), badCcw := min 65535 (x.badCcw + count true)
    stale := x.stale || !audio, missed := if audio then x.missed else T :: x.missed.take 7
    iso := iso.getD x.iso }) s
  let s := if copies.any (fun c => !bad c 2) ∧ (tr.msg.dest = 0xFFFF ∨ tr.msg.dest = i) then nodeTakes tr.msg n s else s
  let heard := copies.filter (fun c => !bad c 2)
  let fl := if tr.msg.typ = 1 ∧ tr.msg.dest = i then
      { fl with poll := some (i, leAt tr.msg.payload 0 1, tr.ctrlSeq), answered := heard } else fl
  let acts := copies.dropWhile (fun c => bad c 0 || bad c 2)
  let old := (nodeOf s n).nibble
  let s := if acts.isEmpty then s else nodeUpd n (nodeNibble tr.resync) s
  let nib (c : Bool) : Nat := if acts.contains c then (nodeOf s n).nibble else old
  let fl := { fl with
    nibCw := if copies.contains false then fl.nibCw ++ [(i, nib false)] else fl.nibCw
    nibCcw := if copies.contains true then fl.nibCcw ++ [(i, nib true)] else fl.nibCcw }
  (nodeOf s n).endpoints.foldl (fun r e => match e.2.slot with
    | none => r
    | some k =>
      if copies.isEmpty then (epUpd n e.1 (fun ep => { ep with sentTo := 0 }) r.1, r.2)
      else
        let A := arrivalAt (nodeOf s n) copies T
        (epUpd n e.1 (fun ep => { ep with sentTo := slotFirst A k ep + 6 }) r.1,
          { r.2 with slots := tabSet [] r.2.slots k (slotSamples A k e.2) })) (s, fl)

/-- A trunk's frames at T. -/
def trunkFrame (noise : List SectErr) (skew : List (Nat × Int)) (T : Instant) (floor : List Int) (s : State) (t : Nat) :
    State :=
  let st := rd s (K.TRUNK_STATE t)
  if st = tsAbsent ∨ tsBroken < st then fadesDrop t s else
  let tr := trunkOf s t
  if tr.enumerating then
    let flags := frameFlags s tr false
    emit (.poruaCopy t false (frameGroups s t 1 flags T [])) (emit (.poruaFrame t 1 flags (T / ns1)) (fadesDrop t s))
  else
  let times := frameTimes T
  let chans := (List.range 64).map (fun c => chanSamples s t c floor times)
  let audio := chans.map (·.1)
  let fades (f : List Int × Fade × Fade → Fade) : Tab Fade :=
    (List.range 64).foldl (fun u c => tabSet {} u c (f (chans.getD c ([], {}, {})))) []
  let s := sendControl t T (trunkUpd t (fun x => { x with
    mapFade := fades (·.2.1), mixFade := fades (·.2.2), sent := (T, audio) :: x.sent.take 7, resyncFrames := x.resyncFrames + 1 }) s)
  let copy (ccw : Bool) (s : State) : State :=
    emit (.poruaCopy t ccw (frameGroups s t 0 (frameFlags s tr ccw) T audio))
      (emit (.poruaFrame t 0 (frameFlags s tr ccw) (T / ns1)) s)
  let s := emit (.poruaAudio t audio) (upd (!isPaired s) (copy true) (copy false s))
  let start : Flight := { at_ := T, bad := (noise.filter (fun e => e.trunk == t)).map (fun e => (e.ccw, e.section_)) }
  let r := tr.nodes.foldl (nodePass noise skew T t) (s, start)
  trunkUpd t (fun x => { x with flight := x.flight.drop (x.flight.length - 7) ++ [r.2] }) r.1

/-- FIELD_FRAME: at a frame boundary the field die frames its trunks, ramps its floor mix and sends its heartbeat. `noise`:
what the trunks corrupt as the frames pass; `skew`: see `nodePass`. -/
def execFieldFrame (noise : List SectErr) (skew : List (Nat × Int)) (s : State) : Res :=
  if (fieldNow s) % framePeriod ≠ 0 ∨ fieldState s = fsReset then .next s else
  let T := (fieldNow s)
  let s := upd (s.fld.hubSeen || lanokUp s) (countMissed false) s
  let s := if framing s then
      let fl := hdFloor s 6 s.fld.hd.g
      let s := (List.range 8).foldl (fun s t =>
        if framesTrunk s t then trunkFrame noise skew T fl.1 s t else listenerBeacon t T (fadesDrop t s)) s
      { s with fld.hd.g := fl.2 }
    else s
  .next (lanokSend false (.heartbeat s.fld.hubMode (fieldState s) 0 0) s)

/-! ## Frames that return (R72–R92) -/

/-- Node state of a node in service: UNENROLLED when a table is loaded that lacks its serial (R88). -/
def servedState (s : State) (n : Nat) : Nat :=
  match (trunkOf s (nodeTrunk n)).table with
  | some l => if l.any (fun e => e.2 == rd s (K.NODE_SERIAL n)) then nsServed else nsUnenrolled
  | none => nsServed

/-- A node is served, or as its trunk's breaks leave it (R92): ABSENT or UNREACHABLE between two down hops. -/
def reachState (s : State) (n : Nat) : Nat :=
  if isRetired s cNode n then nsRetired else
  let l := (trunkOf s (nodeTrunk n)).downHops
  let lo := l.foldl min 4096
  let hi := l.foldl max 0
  if lo ≤ nodeIndex n ∧ nodeIndex n < hi then (if hi = lo + 1 then nsAbsent else nsUnreachable) else servedState s n

/-- Bits of TRUNK_FLAGS. -/
def trunkFlag (t b : Nat) (on : Bool) (s : State) : State := wr (K.TRUNK_FLAGS t) (withBit (rd s (K.TRUNK_FLAGS t)) b on) s

/-- Node states, NODE_COUNT and the UNREACHABLE flag after a change of a trunk's nodes or breaks. -/
def syncNodes (t : Nat) (s : State) : State :=
  let ns := (trunkOf s t).nodes.map (fun i => t * 2048 + i)
  let s := ns.foldl (fun s n => wr (K.NODE_STATE n) (reachState s n) s) s
  trunkFlag t 3 (ns.any (fun n => rd s (K.NODE_STATE n) == nsUnreachable)) (wr (K.NODE_COUNT t) (servedNodes s t).length s)

/-- PORT_LINK of both ports (Table FLD-16): DOWN at a down hop, LOOPED while the ring is broken, else UP. -/
def syncPorts (t : Nat) (s : State) : State :=
  let tr := trunkOf s t
  let v := fun (hop : Nat) => if tr.downHops.contains hop then 0 else if tr.downHops.isEmpty then 1 else 2
  wr (K.PORT_LINK t 0) (v 0) (wr (K.PORT_LINK t 1) (if isPaired s then 0 else v tr.nodes.length) s)

/-- BREAK_AT: the index before the first down hop and the index after it; FFFFh for a port. -/
def breakAt (tr : Trunk) : Nat :=
  if tr.downHops.isEmpty then 0xFFFFFFFF
  else
    let h := tr.downHops.foldl min 4096
    (if h = 0 then 0xFFFF else h - 1) + 65536 * (if tr.nodes.length ≤ h then 0xFFFF else h)

/-- Enumeration is complete: `n` nodes on the ring (R87). Those with HOP 2,048 and above are in BYPASS and have no index;
indices no longer in use are ABSENT. -/
def enumDone (t n : Nat) (s : State) : State :=
  let k := min n 2048
  let s := ((trunkOf s t).nodes.filter (fun i => decide (k ≤ i))).foldl (fun s i => wr (K.NODE_STATE (t * 2048 + i)) nsAbsent s) s
  let s := trunkUpd t (fun x => { x with
    enumerating := false, nodes := List.range k, ring := List.range k, bypassed := n - 2048
    ctrl := x.ctrl ++ (List.range k).flatMap (fun i => [pollCtrl 5 i 1, pollCtrl 5 i 2]) }) s
  let s := trunkFlag t 1 (decide (2048 < n)) s
  syncPorts t (syncNodes t (wr (K.TRUNK_STATE t) tsRing s))

/-- Position delays of a status poll (R90, R91), in ps; a half of an odd sum is rounded down (DESIGN CHOICE, assumption
146). `aSide` in a broken ring: the node hears port A. -/
def positions (s : State) (t : Nat) (idx : Nat) (st : NodeStatus) : Nat × Nat :=
  let tr := trunkOf s t
  let r := 200000 + st.repeatPs
  if tr.downHops.isEmpty && !isPaired s then
    let l : Int := rd s (K.LOOP_DELAY t)
    let d := (l - r + st.delta) / 2
    (d.toNat, (l - r - d).toNat)
  else if tr.downHops.all (fun h => decide (idx < h)) then (((tr.loopA : Int) - st.delta - r) / 2 |>.toNat, 0)
  else (0, ((tr.loopB : Int) - st.delta - r) / 2 |>.toNat)

/-- A status reply: presence, repeat latency, calibration sent by SET item 0. -/
def statusReply (n : Nat) (st : NodeStatus) (s : State) : State :=
  let t := nodeTrunk n
  let d := positions s t (nodeIndex n) st
  let s := wr (K.NODE_POS_DELAY n) d.1 (wrI 16 (K.NODE_REPEAT n) st.repeatPs (wr (K.NODE_PRESENT n) st.present s))
  let s := nodeUpd n (fun x => { x with
    calib := x.calib + 1, badCw := 0, badCcw := 0, stale := false, overflow := false }) s
  pushCtrl t { rank := 3, dest := nodeIndex n, typ := 4, payload := [0, 0, 0, 0] ++ leBytes 4 d.1 ++ leBytes 4 d.2 } s

/-- A segment of a node's dictionary request (R126): the whole request when it is the last. The first may carry any count;
the others count on from it (DEDUCED, assumption 61). -/
def requestSegment (n : Nat) (seg : Bytes) (s : State) : Option Bytes × State :=
  let b := leAt seg 0 1
  let x := nodeOf s n
  let data := (seg.drop 1).take 11
  let stop := fun (s : State) => nodeUpd n (fun x => { x with reqPart := [], reqCount := 0, reqActive := false }) s
  if bitOf b 7 = false ∧ (x.reqActive = false ∨ b % 64 ≠ x.reqCount) then (none, stop s)
  else
    let part := if bitOf b 7 then data else x.reqPart ++ data
    if bitOf b 6 then (some part, stop s)
    else if 64 < part.length then (none, stop s)
    else
      (none, pushCtrl (nodeTrunk n) (pollCtrl 2 (nodeIndex n) 3)
        (nodeUpd n (fun x => { x with reqPart := part, reqCount := b % 64 + 1, reqActive := true }) s))

/-- POLL_ANSWER: the answer of the polled node, or an upset when none is good (R80). -/
def pollAnswer (n : Nat) (a : PollAnswer) (s : State) : Option Bytes × State :=
  match a with
  | .missing => (none, nodeMissed n s)
  | .status st => (none, statusReply n st s)
  | .identity serial cls _ =>
    let s := wr (K.NODE_CLASS n) cls (wr (K.NODE_SERIAL n) serial s)
    (none, hdMuteNew n (wr (K.NODE_STATE n) (reachState s n) s))
  | .endpoints types presence => (none, wr (K.NODE_PRESENT n) presence (wr (K.NODE_ENDPOINTS n) types s))
  | .message seg => requestSegment n seg s

/-- A copy of a returned pair has reached a port with a section good. -/
def copyGood (f : FrameReturn) (fl : Flight) (c : Bool) (section_ : Nat) : Bool :=
  (if c then f.ccw else f.cw) && !fl.bad.contains (c, section_)

/-- The upstream samples of a block: its assigned slots take the samples their nodes wrote in a good copy, or repeat their
last and are STALE (R77, R92); then AUDIO_UP carries it to the hub. -/
def upBlock (t : Nat) (f : FrameReturn) (fl : Flight) (s : State) (b : Nat) : State :=
  let slots := (List.range 8).map (fun j => 8 * b + j)
  let held := slots.filter (fun k => rd s (K.SLOT_OWNER_FLD t k) != 0)
  let good (k : Nat) : Bool :=
    (copiesAt s t (nodeIndex (rd s (K.SLOT_OWNER_FLD t k) % 65536))).any (fun c => copyGood f fl c (3 + b))
  let tr := trunkOf s t
  let up := (held.filter good).foldl (fun (u : Tab (List Int)) k =>
    tabSet [] u k (let v := tabGet [] fl.slots k; if v = [] then [0, 0, 0, 0, 0, 0] else v)) tr.lastUp
  let stale := tr.staleSlots.filter (fun k => !slots.contains k) ++ held.filter (fun k => !good k)
  let s := trunkUpd t (fun x => { x with lastUp := up, staleSlots := stale }) s
  let valid := held.foldl (fun v k => v + 2 ^ (k - 8 * b)) 0
  lanokSend false (.audioUp t b (fl.at_ / ns1) valid (slots.map (fun k =>
    if held.contains k then tabGet [] up k else [0, 0, 0, 0, 0, 0]))) s

/-- The nibble read of a node: of the good copies the one that passed it later (R82). -/
def nibbleSeen (s : State) (t : Nat) (f : FrameReturn) (fl : Flight) (i : Nat) : Option Nat :=
  (copiesAt s t i).reverse.findSome? (fun c =>
    if copyGood f fl c (7 + i / 128) then ((if c then fl.nibCcw else fl.nibCw).find? (fun e => e.1 == i)).map (·.2) else none)

/-- R80: the 12 octets of an answer's payload, with its reply kind. -/
def answerOctets (x : Node) : PollAnswer → Option (Nat × Bytes)
  | .status st => some (0, leBytes 2 st.present ++ leBytes 4 (ofInt 32 st.delta) ++ leBytes 2 (ofInt 16 st.repeatPs)
      ++ leBytes 2 (min 65535 (x.badCw + x.badCcw))
      ++ leBytes 1 (b2n x.overflow + 16 * b2n x.stale + (st.flags &&& 0x2E)) ++ leBytes 1 x.queue.length)
  | .identity serial cls fw => some (1, leBytes 8 serial ++ leBytes 1 cls ++ leBytes 1 fw ++ [0, 0])
  | .endpoints types presence => some (2, leBytes 8 types ++ leBytes 2 presence ++ [0, 0])
  | .message seg => some (3, slice seg 0 12)
  | .missing => none

/-- The poll of a returned pair: the node's answer when it is of the kind asked and a copy of it is good, else an upset. -/
def pollReturn (t : Nat) (f : FrameReturn) (fl : Flight) (s : State) : Option (Nat × Bytes) × State :=
  match fl.poll with
  | none => (none, s)
  | some (i, kind, seq) =>
    let n := t * 2048 + i
    let heard := fl.answered.any (fun c => copyGood f fl c 23)
    match answerOctets (nodeOf s n) f.answer with
    | some (k, body) =>
      if heard && k == kind then
        let r := pollAnswer n f.answer (emit (.poruaUp t (leBytes 2 i ++ leBytes 1 k ++ leBytes 1 seq ++ body)) s)
        (r.1.map (fun b => (n, b)), r.2)
      else (none, nodeMissed n s)
    | none => (none, nodeMissed n s)

/-- R86: RESYNC ends after 8 frames, once a good nibble has been read from every present node. -/
def resyncEnd (t : Nat) (s : State) : State :=
  let tr := trunkOf s t
  if tr.resync ∧ 8 ≤ tr.resyncFrames ∧ (servedNodes s t).all (fun n => (nodeOf s n).seen) = true then
    trunkUpd t (fun x => { x with resync := false }) s
  else s

/-- R88: a node that joins takes the lowest free index. TOPOLOGY_CHANGED stays set until the field die restarts (DESIGN
CHOICE, assumption 147: no rule clears it). -/
def nodeJoins (t : Nat) (s : State) : State :=
  let l := (trunkOf s t).nodes
  match (List.range 2048).find? (fun i => !l.contains i) with
  | none => trunkFlag t 1 true s
  | some i =>
    let s := trunkUpd t (fun x => { x with
      nodes := (x.nodes.filter (· < i)) ++ [i] ++ x.nodes.filter (fun j => decide (i < j))
      ring := (x.ring.filter (· < i)) ++ [i] ++ x.ring.filter (fun j => decide (i < j))
      ctrl := x.ctrl ++ [pollCtrl 5 i 1, pollCtrl 5 i 2] }) s
    syncNodes t (trunkFlag t 2 true s)

/-- R451: MASTER_CHANGE ends once every served node has been calibrated twice. -/
def masterChangeEnd (s : State) : State :=
  if s.pair.masterChange && (allServed s).all (fun n => decide (2 ≤ (nodeOf s n).calib)) then
    { s with pair.masterChange := false }
  else s

/-- What the ports find of a NORMAL pair: bad sections, loop delay; a trunk that starts is a ring. -/
def portsReturn (t : Nat) (f : FrameReturn) (fl : Flight) (s : State) : State :=
  let ring := (trunkOf s t).downHops.isEmpty
  let n := (trunkOf s t).nodes.length
  let s := [false, true].foldl (fun s c =>
    bumpBy (K.PORT_SECT_ERR t (b2n (c != ring)))
      (if (if c then f.ccw else f.cw) then (fl.bad.filter (fun e => e.1 == c)).eraseDups.length else 0) s) s
  let s := if ring && !isPaired s then
      if f.cw then trunkFlag t 0 (decide (12000000 + 200000 * n < f.loopPs)) (wr (K.LOOP_DELAY t) f.loopPs s) else s
    else if f.cw then trunkUpd t (fun x => { x with loopA := f.loopPs }) s
    else trunkUpd t (fun x => { x with loopB := f.loopPs }) s
  if rd s (K.TRUNK_STATE t) = tsStarting then syncPorts t (syncNodes t (wr (K.TRUNK_STATE t) tsRing s)) else s

/-- The oldest NORMAL pair has returned, in one copy, both or none: loop delay, audio, nibbles, poll answer. -/
def normalReturn (t : Nat) (f : FrameReturn) (fl : Flight) (s : State) : Option (Nat × Bytes) × State :=
  let s := upd (f.cw || f.ccw) (portsReturn t f fl) s
  let s := [0, 1, 2, 3].foldl (upBlock t f fl) s
  let s := (trunkOf s t).nodes.foldl (fun s i =>
    match nibbleSeen s t f fl i with
    | some v => sight (t * 2048 + i) v fl.at_ s
    | none => s) s
  let s := (List.range f.joined).foldl (fun s _ => nodeJoins t s) (resyncEnd t s)
  let r := pollReturn t f fl s
  (r.1, masterChangeEnd r.2)

/-- A frame pair returns to a trunk's ports; a node's whole dictionary request, if its last segment came. -/
def frameReturn (t : Nat) (f : FrameReturn) (s : State) : Option (Nat × Bytes) × State :=
  let st := rd s (K.TRUNK_STATE t)
  if st = tsAbsent ∨ tsBroken < st ∨ fieldState s > 1 then (none, s)
  else if (trunkOf s t).enumerating then (none, if f.cw then enumDone t f.hops s else s)
  else
    match (trunkOf s t).flight with
    | [] => (none, s)
    | fl :: rest => normalReturn t f fl (trunkUpd t (fun x => { x with flight := rest }) s)

/-- The effect of ENUMERATE: the trunk sends ENUM frames until one has returned. -/
def enumerate (t : Nat) (s : State) : State :=
  if trunkRuns s t || rd s (K.TRUNK_STATE t) == tsStarting then trunkUpd t (fun x => { x with enumerating := true, flight := [] }) s else s

/-- ENUMERATE: key 1800h + 100h × t:05. -/
def writeEnumerate (inst : Inst) (tag : Nat) (trunk : Fin 8) (s : State) : State :=
  runCmd inst tag (0x1800 + 256 * trunk.val) 5 .ok (enumerate trunk.val) s

/-! ## Ring breaks (R92, R93) -/

/-- A trunk retires: it is served no more. -/
def trunkRetire (t : Nat) (s : State) : State :=
  let s := (servedNodes s t).foldl (fun s n => wr (K.NODE_STATE n) nsUnreachable s) s
  wr (K.NODE_COUNT t) 0 (wr (K.TRUNK_STATE t) tsRetired s)

/-- A trunk port has lost its link: an upset of the port (Table FLT-1). -/
def portLoss (t p : Nat) (s : State) : State :=
  if rdF s (K.TRUNK_EN t) = 1 then (upset cTrunkPort (2 * t + p) s).1 else s

/-- A hop is down: the nodes beside it loop back and the trunk is BROKEN; each entry to BROKEN is an upset of it. -/
def hopDown (t hop : Nat) (s : State) : State :=
  let tr := trunkOf s t
  if !trunkRuns s t || tr.downHops.contains hop || decide (tr.nodes.length < hop) then s else
  let s := trunkUpd t (fun x => { x with downHops := hop :: x.downHops }) s
  let s := wr (K.BREAK_AT t) (breakAt (trunkOf s t)) s
  let s := upd (hop == 0) (portLoss t 0) s
  let s := upd (decide (tr.nodes.length = hop) && !isPaired s) (portLoss t 1) s
  let s := syncPorts t (syncNodes t s)
  if rd s (K.TRUNK_STATE t) = tsBroken then s
  else
    match upset cTrunk t (wr (K.TRUNK_STATE t) tsBroken s) with
    | (s, true) => trunkRetire t s
    | (s, false) => s

/-- HOP_DOWN. -/
def execHopDown (trunk : Fin 8) (hop : Nat) (s : State) : Res := .next (hopDown trunk.val hop s)

/-- LOOPBACK_REMOVE: a hop good in both directions for 1 s carries frames again from a frame boundary; every position is
calibrated again. -/
def execLoopbackRemove (trunk : Fin 8) (hop : Nat) (s : State) : Res :=
  let t := trunk.val
  if !(trunkOf s t).downHops.contains hop || decide ((fieldNow s) % framePeriod ≠ 0) then .next s else
  let s := trunkUpd t (fun x => { x with downHops := x.downHops.filter (· != hop), pollNext := 0 }) s
  let s := wr (K.BREAK_AT t) (breakAt (trunkOf s t)) s
  let s := if (trunkOf s t).downHops.isEmpty ∧ rd s (K.TRUNK_STATE t) = tsBroken then wr (K.TRUNK_STATE t) tsRing s else s
  .next (syncPorts t (syncNodes t s))

/-! ## Emergency and field GPIO (R97, R105) -/

/-- An assertion of EMERGENCY_IN: latched as a wake source, sent as WAKE, and every MIC closes when EMERG_CLOSE is 1. -/
def emergency (pin : Nat) (s : State) : State :=
  emergencyClose (lanokSend false (.wake 3 pin (fieldNow s / ns1)) (fieldWake s))

/-- A level at a pin is its active level. -/
def fgpioActive (s : State) (pin : Nat) (high : Bool) : Bool := b2n high == rdF s (K.FGPIO_ACTIVE pin)

/-- An input pin takes a debounced level and its function acts on a change to its active level. -/
def fgpioInput (pin : Nat) (high : Bool) (s : State) : State :=
  let f := rdF s (K.FGPIO_FUNC pin)
  if f ≠ 0 ∧ f ≠ 2 ∧ f ≠ 3 then s else
  let was := fgpioActive s pin (rd s (K.FGPIO_LEVEL pin) == 1)
  let seen := !(tabGet 0 s.fld.gpioAt pin == 0)
  let s := wr (K.FGPIO_LEVEL pin) (b2n high) { s with fld.gpioAt := tabSet 0 s.fld.gpioAt pin (fieldClk s + 1) }
  if !fgpioActive s pin high || (was && seen) then s
  else if f = 2 then emergency pin s
  else if f = 3 then fieldWake s
  else s

/-- FGPIO_DEBOUNCE_END: a level that has held for the pin's FGPIO_DEBOUNCE is taken. -/
def execFgpioDebounceEnd (pin : Fin 16) (high : Bool) (heldMs : Nat) (s : State) : Res :=
  .next (if fieldState s = fsReset ∨ heldMs < rdF s (K.FGPIO_DEBOUNCE pin.val) then s else fgpioInput pin.val high s)

/-- EMERGENCY_IN: a pin with that function is asserted. -/
def execEmergencyIn (pin : Fin 16) (s : State) : Res :=
  .next (if fieldState s = fsReset ∨ rdF s (K.FGPIO_FUNC pin.val) ≠ 2 then s
    else fgpioInput pin.val (rdF s (K.FGPIO_ACTIVE pin.val) == 1) s)

/-! ## Map banks (R74) -/

/-- A trunk's named bank becomes active; channels whose source or mute changes cross-fade. -/
def mapSwap (bank t : Nat) (s : State) : State :=
  let was := rd s (K.MAP_ACTIVE t)
  let tr := trunkOf s t
  let changed := (List.range 64).filter (fun c => mapEntry s t was c != mapEntry s t bank c)
  let fades := changed.foldl (fun (u : Tab Fade) c =>
    tabMod {} u c (fadeTo (mapEntry s t was c) (mapEntry s t bank c) (rdF s K.MAP_RAMP) (fieldNow s))) tr.mapFade
  wr (K.MAP_ACTIVE t) bank (trunkUpd t (fun x => { x with mapFade := fades }) s)

/-- A map swap takes effect on each of its trunks that is still there, and each reports it. -/
def swapTrunks (num : Nat) (h : HeldLaunch) (s : State) : State :=
  setHeld num none (h.trunks.foldl (fun s t =>
    report num t (if heldLate s (fieldNow s) h then lsLate else lsFired) 0 0
      (upd (!isRetired s cTrunk t) (mapSwap (h.lr.arg % 2) t) s)) s)

/-- FIELD_MAP_SWAP: at its sample boundary. One whose trunk is retired or absent by then fails (R55). -/
def execFieldMapSwap (s : State) : Res :=
  let s := fireEmpty ltFieldMapSwap (fun _ => true) s
  match dueHeld s ltFieldMapSwap (fieldNow s) (fun _ _ => true) with
  | none => .next s
  | some (num, h) =>
    let gone := h.trunks.find? (fun t => isRetired s cTrunk t || rd s (K.TRUNK_STATE t) == tsAbsent)
    match gone with
    | some t =>
      if h.lr.target = 0xFFFF then .next (swapTrunks num h s)
      else .next (heldFailed num t (if isRetired s cTrunk t then .retired else .noEntry) s)
    | none => .next (swapTrunks num h s)

/-! ## Start of the link (R42, R44, R56, R63, R67, R86) -/

/-- R44: what becomes of the follower's offset. A hub in FREE that has never qualified takes the hall's time. -/
def alignFollower (off : Int) (s : State) : State :=
  if rd s K.ISB_STATE = isbFree ∧ rd s K.EVER_QUALIFIED = 0 ∧ s.fld.followerOk = true then
    let s := wr K.FIELD_TIME_STATE 0 { s with fld.followerOffset := 0 }
    firstAlign (s.isb.now + off) s
  else wr K.FIELD_TIME_STATE 1 { s with fld.followerOffset := off }

/-- R56: a launch carried, not reported and no longer held at the field die has FAILED with NO_ENTRY; one not yet carried
is carried. -/
def reconcileLaunches (s : State) : State :=
  s.isb.launches.foldl (fun s e =>
    let l := launchOf s e.1
    if !l.active then s
    else if l.carried then
      if (heldOf s e.1).isSome || s.fld.reports.any (fun r => r.1 == e.1) then s else launchFailed e.1 .noEntry s
    else carryLaunch e.1 s) s

/-- Completions kept while the link was down are reported (R56). -/
def flushReports (s : State) : State :=
  s.fld.reports.foldl (fun s r => lanokSend false (.launchReport r.1 r.2.1 r.2.2.1 r.2.2.2.1 r.2.2.2.2) s)
    { s with fld.reports := [] }

/-! ## Writable keys of the field die (R63, R119) -/

/-- A writable key of 1400–5FFF. -/
def isFieldKey (k : Nat) : Bool :=
  decide (0x1400 ≤ keyIndex k ∧ keyIndex k < 0x6000)
    && (match entryOf (keyIndex k) (keySub k) with | some e => e.acc == .rw || e.acc == .rwp || e.acc == .rwm | none => false)

/-- A trunk is served no more. -/
def trunkOff (t : Nat) (s : State) : State :=
  if rd s (K.TRUNK_STATE t) = tsRetired ∨ rd s (K.TRUNK_STATE t) = tsOff then s
  else wr (K.TRUNK_STATE t) tsOff (trunkRetire t s)

/-- A SET item of Table FLD-5 for a node. -/
def sendSet (n item size v : Nat) (s : State) : State :=
  pushCtrl (nodeTrunk n)
    { rank := 3, dest := nodeIndex n, typ := 4, payload := [BitVec.ofNat 8 item, 0, 0, 0] ++ leBytes 8 (v % 256 ^ size) } s

/-- What a pin drives when its function is an output (Table FLD-14). -/
def fgpioDrive (p : Nat) (s : State) : State :=
  let a := rdF s (K.FGPIO_ACTIVE p)
  let lv (on : Bool) : State := wr (K.FGPIO_LEVEL p) (if on then a else 1 - a) s
  match rdF s (K.FGPIO_FUNC p) with
  | 4 => lv (fieldState s == fsDefault)
  | 5 => lv (fieldState s == fsHub)
  | 6 => lv (!s.fld.prioHeld.isEmpty)
  | _ => s

/-- The field die's copy of a key has changed to `v`. -/
def fieldKeyEffect (k v : Nat) (s : State) : State :=
  let i := keyIndex k
  let sub := keySub k
  if 0x1800 ≤ i ∧ i < 0x2000 then
    let t := (i - 0x1800) / 256
    let o := i % 256
    if o = 0 ∧ sub = 8 then
      (if v = 0 then trunkOff t s
       else if rd s (K.TRUNK_STATE t) ≠ tsOff then s
       else if rd s (K.PWR_STATE t 0) = ppOn ∨ rd s (K.PWR_STATE t 1) = ppOn then trunkStart t s
       else wr (K.TRUNK_STATE t) tsAbsent s)
    else if (o = 3 ∨ o = 4) ∧ sub = 1 then (if v = 1 then portEnable t (o - 3) s else portDisable t (o - 3) s)
    else s
  else if 0x1430 ≤ i ∧ i < 0x1440 ∧ (sub = 1 ∨ sub = 2) then fgpioDrive (i - 0x1430) s
  else if 0x2000 ≤ i ∧ i < 0x6000 then
    let n := i - 0x2000
    let own (typ : Nat) (s : State) : State :=
      (List.range 16).foldl (fun s e => if epType s n e = typ then epUpd n e (fun x => { x with channel := none }) s else s) s
    match sub with
    | 8 => sendSet n 1 1 v (own etLoudspeaker s)
    | 9 => sendSet n 2 1 v (own etHeadphone s)
    | 0xA => sendSet n 3 2 v s
    | 0xD => sendSet n 4 1 v s
    | _ => s
  else s

/-- The hub's DICT_REQ that writes a key of the field die: a WRITE transaction of Table DIC-3. -/
def sendKey (k v : Nat) (s : State) : State :=
  match entryOf (keyIndex k) (keySub k) with
  | none => s
  | some e =>
    lanokSend true (.dictReq { tr := 0xFF, sub := 0 } (leBytes 1 2 ++ [0] ++ leBytes 2 (keyIndex k) ++ leBytes 1 (keySub k) ++ [0]
      ++ leBytes 2 e.ty.size ++ leBytes e.ty.size v)) s

/-- A writable key of the field die is written: the hub sends it over the link, and the field die's copy follows with it
(assumption 148); with the link down the copy stays until the rewrite. A write of a node key takes effect even when the
value is the one it had (R76). The level of a pin is written for an output only. -/
def fieldKeyWrite (k v : Nat) (s : State) : State :=
  let i := keyIndex k
  let was := rdF s k
  if 0x1430 ≤ i ∧ i < 0x1440 ∧ keySub k = 4 ∧ rdF s (K.FGPIO_FUNC (i - 0x1430)) ≠ 1 then s
  else if lanokUp s then
    let s := sendKey k v (wr k v s)
    if was = v ∧ i < 0x2000 then s else fieldKeyEffect k v s
  else if s.fld.copyStale then wr k v s
  else wr k v { s with fld.oldCopy := tabSet 0 s.fld.oldCopy k (was + 1) }

/-- The node tables of the image in force reach their trunks (R63, R87, R88). -/
def loadTables (s : State) : State :=
  (List.range 8).foldl (fun s t =>
    let l : Tab Nat := (s.dic.nodeTable.filter (fun e => nodeTrunk e.1 == t)).map (fun e => (nodeIndex e.1, e.2))
    let s := trunkUpd t (fun x => { x with table := if l.isEmpty then none else some l }) s
    if trunkRuns s t then syncNodes t s else s) s

/-- R63: the hub rewrites the field die's configuration, node tables included: every key is sent, what differs takes
effect. -/
def fieldRewrite (s : State) : State :=
  let keys := (((s.regs.map (·.1)).filter isFieldKey) ++ s.fld.oldCopy.map (·.1)).eraseDups
  let changed := keys.filter (fun k => rdF s k != rd s k)
  let s := keys.foldl (fun s k => sendKey k (rd s k) s) { s with fld.copyStale := false, fld.oldCopy := [] }
  loadTables (changed.foldl (fun s k => fieldKeyEffect k (rd s k) s) s)

/-- The link starts. -/
def linkStart (offset : Int) (s : State) : State :=
  if lanokUp s || fieldState s == fsReset || !isbRuns s then s else
  let s := wr K.LANOK_STATE 2 { s with
    fld.hubEnd := { beat := true }, fld.fieldEnd := { beat := true }, fld.lost := false, fld.seenKeys := none }
  let s := fieldRewrite s
  let s := barrierMeasure (summary 4 false (alignFollower offset s))
  let s := flushReports (reconcileLaunches s)
  if s.fld.hubAsleep then s else forwardHeld (resendEvents s)

end Sys2Proof.Machine
end

