-- ==== Sys2Proof/Machine/Sap.lean ====
section
/-! DEFINITION. Serial audio ports, alignment groups and the mixing-core side of AES67 endpoints (chapter SAP). -/
namespace Sys2Proof.Machine

/-- A port, a receive endpoint, a send endpoint. -/
def sapOf (s : State) (n : Nat) : SapPort := tabGet {} s.sap.ports n
def sapUpd (n : Nat) (f : SapPort → SapPort) (s : State) : State := { s with sap.ports := tabMod {} s.sap.ports n f }
def rxOf (s : State) (e : Nat) : RxEnd := tabGet {} s.sap.rx e
def rxUpd (e : Nat) (f : RxEnd → RxEnd) (s : State) : State := { s with sap.rx := tabMod {} s.sap.rx e f }
def txOf (s : State) (e : Nat) : TxEnd := tabGet {} s.sap.tx e
def txUpd (e : Nat) (f : TxEnd → TxEnd) (s : State) : State := { s with sap.tx := tabMod {} s.sap.tx e f }

/-- Samples of the ramps of R195–R199 and R511. -/
abbrev ramp240 : Nat := 240

/-! ## Settings (R187–R190) -/

def sapMaster (s : State) (n : Nat) : Bool := rd s (K.CLOCK n) != 2
/-- SYNTH48 at 48 kHz: no ASRC in the path (R190). -/
def sapBypass (s : State) (n : Nat) : Bool := rd s (K.CLOCK n) == 0 && rd s (K.RATE n) == 48000

/-- BCLK in Hz (R188). -/
def sapBclk (s : State) (n : Nat) : Nat := rd s (K.RATE n) * rd s (K.SLOTS n) * rd s (K.SLOT_WIDTH n)

/-- Port rate in mHz: nominal for a master, measured for a slave. -/
def sapRate (s : State) (n : Nat) : Nat := if sapMaster s n then rd s (K.RATE n) * 1000 else rd s (K.MEASURED_RATE n)

/-- R188: the enable fails with RANGE. -/
def sapRangeBad (s : State) (n : Nat) : Bool :=
  let rate := rd s (K.RATE n)
  let bclk := sapBclk s n
  let synth := if rd s (K.CLOCK n) = 0 then 24576000 else 22579200
  decide (rd s (K.SLOT_WIDTH n) < rd s (K.SAMPLE_BITS n))
  || decide (rd s (K.SLOTS n) < rd s (K.IN_CH n)) || decide (rd s (K.SLOTS n) < rd s (K.OUT_CH n))
  || decide (24576000 < bclk)
  || (sapMaster s n && (synth % bclk != 0
      || (if rd s (K.CLOCK n) = 0 then [44100, 88200, 176400].contains rate else !(([44100, 88200, 176400] : List Nat).contains rate))))

/-! ## Owners of mixing-core channels (R205) -/

/-- IN_OWNER and OUT_OWNER words: kind 1 SAP, 2 AES67, 3 tick slot. -/
def chanOwner (kind inst : Nat) : Nat := kind * 16777216 + inst

/-- Channels `lo` to `lo + n − 1` lie below the firmware range and no other owner holds one. -/
def chansFree (t : Tab Nat) (lo n limit own : Nat) : Bool :=
  n == 0 || (decide (lo + n ≤ limit) && (List.range n).all (fun c => tabGet 0 t (lo + c) == 0 || tabGet 0 t (lo + c) == own))

/-- Take or free channels. -/
def ownChans (lo n own : Nat) (t : Tab Nat) : Tab Nat := (List.range n).foldl (fun t c => tabSet 0 t (lo + c) own) t
def dropOwner (own : Nat) (t : Tab Nat) : Tab Nat := t.filter (fun e => e.2 != own)

/-- Assignable inputs and outputs (Table MIX-1). -/
abbrev freeInputs : Nat := 704
abbrev freeOutputs : Nat := 896

/-- The SAP7 balls a configuration uses, as class 0 instances (R198). -/
def sap7Balls (s : State) (n : Nat) : List Nat :=
  if n = 7 then [0, 1] ++ (if rd s (K.IN_CH 7) = 0 then [] else [2]) ++ (if rd s (K.OUT_CH 7) = 0 then [] else [3]) else []

/-- Another owner holds something the port needs. -/
def sapConflict (s : State) (n : Nat) : Bool :=
  !chansFree s.mix.inOwner (rd s (K.MIX_IN_BASE n)) (rd s (K.IN_CH n)) freeInputs (chanOwner 1 n)
  || !chansFree s.mix.outOwner (rd s (K.MIX_OUT_BASE n)) (rd s (K.OUT_CH n)) freeOutputs (chanOwner 1 n)
  || (sap7Balls s n).any (fun b => claimOwner s 0 b != 0 && claimOwner s 0 b != ownKey 0x6007 1)

/-- Claim all, or free all. -/
def sapClaim (n : Nat) (s : State) : State :=
  let s := (sap7Balls s n).foldl (fun s b => setClaim 0 b (ownKey 0x6007 1) s) s
  let ins := ownChans (rd s (K.MIX_IN_BASE n)) (rd s (K.IN_CH n)) (chanOwner 1 n) s.mix.inOwner
  let outs := ownChans (rd s (K.MIX_OUT_BASE n)) (rd s (K.OUT_CH n)) (chanOwner 1 n) s.mix.outOwner
  { s with mix.inOwner := ins, mix.outOwner := outs }
def sapFree (n : Nat) (s : State) : State :=
  let s := if n = 7 then unclaimAll 0 (ownKey 0x6007 1) s else s
  { s with mix.inOwner := dropOwner (chanOwner 1 n) s.mix.inOwner, mix.outOwner := dropOwner (chanOwner 1 n) s.mix.outOwner }

/-! ## Frames on the pins (R187, R197) -/

/-- The first `n` bits of a slot hold a sample, MSB first; the others are 0. -/
def slotBits (width bits : Nat) (v : Int) : List Bool :=
  (List.range width).map (fun i => decide (i < bits) && bitOf (ofInt bits v) (bits - 1 - i))

/-- FS of a frame, BCLK by BCLK from its start (Table SAP-1). -/
def fsLevels (s : State) (n : Nat) : List Bool :=
  let w := rd s (K.SLOT_WIDTH n)
  let len := rd s (K.SLOTS n) * w
  if rd s (K.FORMAT n) = 0 then List.replicate (len / 2) false ++ List.replicate (len - len / 2) true
  else
    let high := if rd s (K.FORMAT n) = 1 then len / 2 else [1, w, len / 2].getD (rd s (K.TDM_FS n)) 1
    List.replicate high true ++ List.replicate (len - high) false

/-- BCLKs from the FS edge to the first data bit. -/
def dataDelay (s : State) (n : Nat) : Nat :=
  if rd s (K.FORMAT n) = 0 then 1 else if rd s (K.FORMAT n) = 1 then 0 else rd s (K.DATA_DELAY n)

/-- A frame of DO: channel c in slot c, the other slots 0. -/
def sapSend (n : Nat) (samples : List Int) (s : State) : State :=
  let bits := (List.range (rd s (K.SLOTS n))).flatMap (fun c =>
    slotBits (rd s (K.SLOT_WIDTH n)) (rd s (K.SAMPLE_BITS n)) (samples.getD c 0))
  emit (.sapFrame n (if sapMaster s n then fsLevels s n else []) bits (dataDelay s n) (rd s (K.BCLK_EDGE n) == 0))
    (emit (.sap n samples) s)

/-- A sample on DI: the first bits of its slot, as Q1.31; the slot's other bits are ignored. -/
def slotSample (s : State) (n : Nat) (slot : Int) : Int :=
  let bits := rd s (K.SAMPLE_BITS n)
  let width := rd s (K.SLOT_WIDTH n)
  toInt bits (ofInt width slot / 2 ^ (width - bits)) * 2 ^ (32 - bits)

/-- A ball of a port is driven to a level; one of SAP7 only while no LX pin holds it (R60). -/
def sapPin (n ball : Nat) (level : Bool) (s : State) : State :=
  let free := n != 7 || claimOwner s 0 ball == 0 || claimOwner s 0 ball == ownKey 0x6007 1
  emitIf free (.pin ((["SAP0", "SAP1", "SAP2", "SAP3", "SAP4", "SAP5", "SAP6", "SAP7"].getD n "") ++
    (["_BCLK", "_FS", "_DI", "_DO"].getD ball "")) level) s

/-- A master's clocks stop: BCLK low, FS at its idle level, which is high in I2S. -/
def clocksStop (n : Nat) (s : State) : State :=
  if sapMaster s n then sapPin n 1 (rd s (K.FORMAT n) == 0) (sapPin n 0 false (emit (.sapClock n 0) s)) else s

/-- The balls of a port that is OFF (R197). -/
def sapIdle (n : Nat) (s : State) : State := sapPin n 3 false (clocksStop n s)

/-! ## Starting and stopping (R197) -/

/-- STATE codes of key 6000h + n:12. -/
abbrev sapOff : Nat := 0
abbrev sapStarting : Nat := 1
abbrev sapRun : Nat := 2
abbrev sapStopping : Nat := 3
abbrev sapClockLost : Nat := 4
abbrev sapRetired : Nat := 5

/-- Status of a write of SAP_EN. -/
def sapEnStatus (n : Nat) (on : Bool) (s : State) : Status :=
  if !on then .ok else
  checks [
    (isRetired s cSap n, .retired),
    (sapRangeBad s n, .range),
    (sapConflict s n, .conflict),
    (rd s (K.SAP_STATE n) == sapStopping, .busy)]

/-- ASRC_STATE and ASRC_RATIO of a running port (R190). -/
def sapAsrc (st : Nat) (n : Nat) (s : State) : State :=
  let ratio := if st = 3 ∨ sapRate s n = 0 then 0 else 48000000 * 4294967296 / sapRate s n
  wr (K.ASRC_RATIO n) ratio (wr (K.ASRC_STATE n) st s)
def sapAsrcKind (s : State) (n : Nat) : Nat := if sapBypass s n then 0 else if sapMaster s n then 1 else 3

/-- BUF_FILL and STALE_IN follow the port. -/
def sapSync (n : Nat) (s : State) : State :=
  let p := sapOf s n
  let s := wr (K.BUF_FILL n) (p.asrcIn.buf.length + 256 * p.asrcOut.buf.length) s
  wr (K.STALE_IN n) (if p.feed.stale then 2 ^ rd s (K.IN_CH n) - 1 else 0) s

/-- The port is OFF: its claims are free. -/
def sapStop (n : Nat) (s : State) : State :=
  let s := sapIdle n (sapUpd n (fun _ => {}) (sapFree n s))
  sapSync n (wr (K.ASRC_RATIO n) 0 (wr (K.ASRC_STATE n) 0
    (wr (K.MEASURED_RATE n) 0 (wr (K.SAP_STATE n) (if isRetired s cSap n then sapRetired else sapOff) s))))

/-- Step 1 of Table SAP-4. -/
def sapStart (n : Nat) (s : State) : State :=
  let s := sapUpd n (fun _ => { phase := 1, since := clk s }) (sapClaim n s)
  sapAsrc (sapAsrcKind s n) n (wr (K.SAP_STATE n) sapStarting s)

/-- A port's SAP_EN is written (R197): start, or stop with a ramp. A ramp of its group under way serves for both. A retired
port holds its claims until its retirement is cleared (R196). -/
def sapEn (n : Nat) (on : Bool) (s : State) : State :=
  let was := rd s (K.SAP_EN n)
  let s := wr (K.SAP_EN n) (b2n on) s
  if on then (if was = 1 then s else sapStart n s)
  else if was = 0 then s
  else if isRetired s cSap n then s
  else
    sapUpd n (fun p => { p with
      phase := 6, frames := 0,
      feed.gate := if p.feed.gate.new = 0 ∧ rampDone p.feed.gate = false then p.feed.gate else rampTo 0 ramp240 p.feed.gate })
      (wr (K.SAP_STATE n) sapStopping s)

/-- SAP_EN: keys 6000h + n:01. -/
def writeSapEn (inst : Inst) (tag : Nat) (n : Fin 8) (on : Bool) (s : State) : State :=
  runWrite inst tag (0x6000 + n.val) 1 on (sapEnStatus n.val on s) (sapEn n.val on) s

/-- A port's own two samples, and its buffers at their target of 32, are silence (R193). -/
def sapFill (s : State) (n : Nat) (p : SapPort) : SapPort :=
  let ins := List.replicate (rd s (K.IN_CH n)) (0 : Int)
  let outs := List.replicate (rd s (K.OUT_CH n)) (0 : Int)
  let p := { p with delayIn := [ins, ins], delayOut := [outs, outs] }
  if sapBypass s n then p
  else { p with asrcIn := { buf := List.replicate 32 ins, last := ins }, asrcOut := { buf := List.replicate 32 outs, last := outs } }

/-- The number of the sample boundary that has come with the last tick, or of the next one. -/
def boundaryNow (s : State) : Nat := sampleAtOrAfter (s.isb.now + 1 - tickSpan s)

/-- A sample boundary has come with the last tick. -/
def atBoundary (s : State) : Bool := justNow s (sampleBoundary (boundaryNow s))

/-- SAP_CLOCKS_START: step 2 of Table SAP-4, at the next sample boundary after the enable. -/
def execSapClocksStart (n : Fin 8) (s : State) : Res :=
  if (sapOf s n.val).phase ≠ 1 ∨ atBoundary s = false ∨ clk s ≤ (sapOf s n.val).since then .next s
  else if sapMaster s n.val then
    .next (sapSync n.val (emit (.sapClock n.val (sapBclk s n.val))
      (sapUpd n.val (fun p => { (sapFill s n.val p) with phase := 3, frames := 0 }) s)))
  else .next (sapAsrc 3 n.val (sapUpd n.val (fun p => { p with phase := 2 }) s))

/-- The rate measured over the last 1 ms is within ±2 % of RATE. -/
def rateHolds (s : State) (n : Nat) : Bool :=
  let rate := rd s (K.MEASURED_RATE n)
  let nominal := rd s (K.RATE n) * 1000
  decide (nominal * 98 ≤ rate * 100 ∧ rate * 100 ≤ nominal * 102)

/-- An FS edge of an EXTERNAL port: at the end of each 1 ms the rate is measured, and the ratio of a TRACKING port follows it
(R190, R191). -/
def fsEdge (n : Nat) (s : State) : State :=
  let m := (sapOf s n).fs
  match m.last with
  | none => sapUpd n (fun p => { p with fs := { start := clk s, last := some (clk s) } }) s
  | some l =>
    let per := clk s - l
    let m := { m with count := m.count + 1, last := some (clk s), lo := if m.hi = 0 then per else min m.lo per, hi := max m.hi per }
    if clk s < m.start + ms1 then sapUpd n (fun p => { p with fs := m }) s
    else
      let s := wr (K.MEASURED_RATE n) (m.count * 1000 * s1 / (clk s - m.start)) s
      let ok := rateHolds s n && decide ((m.hi - m.lo) * sapBclk s n ≤ s1)
      let m : FsMeter := { start := clk s, last := some (clk s), good := if ok then m.good + 1 else 0
                           lo := if ok then m.lo else 0, hi := if ok then m.hi else 0 }
      upd (rd s (K.ASRC_STATE n) == 2) (sapAsrc 2 n) (sapUpd n (fun p => { p with fs := m }) s)

/-- SAP_LOCKED: an EXTERNAL port's rate and period have held for 20 ms (R191). A port that lost its clock with its data
running goes on with it; any other begins its lead-in. -/
def execSapLocked (n : Fin 8) (s : State) : Res :=
  let p := sapOf s n.val
  if sapMaster s n.val || !(p.phase == 2 || p.lost) || decide (p.fs.good < 20) || !rateHolds s n.val then .next s
  else
    let s := sapAsrc 2 n.val s
    let s := if p.phase = 2 then sapUpd n.val (fun p => { (sapFill s n.val p) with phase := 3, frames := 0, lost := false }) s
      else sapUpd n.val (fun p => { p with lost := false }) s
    .next (sapSync n.val (wr (K.SAP_STATE n.val)
      (if p.phase = 2 then sapStarting else if 6 ≤ p.phase then sapStopping else sapRun) s))

/-- Data starts: it ramps in over 240 samples from the next sample boundary. -/
def sapData (n : Nat) (s : State) : State :=
  sapUpd n (fun p => { p with phase := 5, feed.gate := rampTo 0x8000 ramp240 p.feed.gate }) (wr (K.SAP_STATE n) sapRun s)

/-- SAP_START_FRAMES_DONE, at a sample boundary: an ungrouped port starts its data; a member of a group carries zeros until the group starts
it, at the launch or at a group boundary while it is RUNNING (R199). -/
def execSapStartFramesDone (n : Fin 8) (s : State) : Res :=
  let p := sapOf s n.val
  if p.phase ≠ 3 ∨ p.frames < rd s (K.START_FRAMES n.val) ∨ atBoundary s = false then .next s
  else if rd s (K.GROUP n.val) = 0xFF then .next (sapData n.val s)
  else .next (sapUpd n.val (fun p => { p with phase := 4 }) s)

/-- SAP_RAMP_OUT_DONE: step 6; a port without clocks has no frame to send and is OFF. -/
def execSapRampOutDone (n : Fin 8) (s : State) : Res :=
  let p := sapOf s n.val
  if p.phase ≠ 6 ∨ rampDone p.feed.gate = false then .next s
  else if rd s (K.ASRC_STATE n.val) = 3 then .next (sapStop n.val s)
  else .next (sapUpd n.val (fun p => { p with phase := 7, frames := 0 }) s)

/-- SAP_STOP_FRAMES_DONE: step 7. -/
def execSapStopFramesDone (n : Fin 8) (s : State) : Res :=
  let p := sapOf s n.val
  if p.phase ≠ 7 ∨ p.frames < rd s (K.START_FRAMES n.val) then .next s else .next (sapStop n.val s)

/-! ## Faults of a port (R191, R194, R196) -/

/-- A feed goes STALE at an instant. -/
def feedStale (now : Instant) (f : Feed) : Feed := if f.stale then f else { f with stale := true, staleAt := now }

/-- R196: a SAP is retired: DO is low from now on. -/
def sapRetire (n : Nat) (s : State) : State :=
  sapPin n 3 false <| sapUpd n (fun p => { p with phase := 8, clockStop := ramp240, feed.fade := rampTo 0 ramp240 p.feed.fade })
    (wr (K.SAP_STATE n) sapRetired s)

/-- An upset of a SAP (R443). -/
def sapUpset (n : Nat) (s : State) : State :=
  let r := upset cSap n s
  if r.2 then sapRetire n r.1 else r.1

/-- R444: a cleared port starts again, or, disabled meanwhile, frees its claims. -/
def sapCleared (n : Nat) (s : State) : State :=
  if rd s (K.SAP_EN n) = 1 then sapStart n s else sapStop n s

/-- CLOCK_LOST: no FS edge for two nominal frame periods, or a measured rate outside ±2 %; DO is 0. -/
def execClockLost (n : Fin 8) (s : State) : Res :=
  let p := sapOf s n.val
  let silent := match p.fs.last with
    | some l => decide (2 * s1 ≤ (clk s - l) * rd s (K.RATE n.val))
    | none => true
  if sapMaster s n.val || p.lost || p.phase < 3 || p.phase == 8 || !(silent || !rateHolds s n.val) then .next s
  else
    let s := bump (K.UNDERRUNS n.val) (bump (K.CLOCK_LOSSES n.val) (upd silent (wr (K.MEASURED_RATE n.val) 0) s))
    let s := sapPin n.val 3 false (sapAsrc 3 n.val (sapUpd n.val (fun p => { p with fs := {} }) s))
    let s := if p.phase = 3 then sapUpd n.val (fun p => { p with phase := 2, frames := 0 }) s
      else sapUpd n.val (fun p => { p with lost := true, feed := feedStale (clk s) p.feed }) s
    .next (sapUpset n.val (sapSync n.val (upd (decide (p.phase < 6)) (wr (K.SAP_STATE n.val) sapClockLost) s)))

/-! ## Samples (R187, R193–R195) -/

/-- A Q1.31 value as a sample of `bits` bits. -/
def fromQ31 (bits : Nat) (y : Int) : Int := satS bits (rnd y (32 - bits))

/-- Channel `c` of a frame. -/
def chanAt (fr : List Int) (c : Nat) : Int := fr.getD c 0

/-- The samples a feed gives: the live ones through its gate, or its last ones while STALE; the fade acts on both. -/
def feedOut (f : Feed) (live : Option (List Int)) : List Int × Feed :=
  let last := match live with
    | some l => if f.stale then f.last else l.map (fun x => applyGain 32 x (rampVal f.gate))
    | none => f.last
  (last.map (fun x => applyGain 32 x (rampVal f.fade)), { f with last := last, gate := rampStep f.gate, fade := rampStep f.fade })

/-- A feed rejoins; one that has begun to fade ramps back to the live signal (R195). -/
def feedRejoin (f : Feed) : Feed :=
  { f with stale := false, fade := if f.fade.new = 0 then rampTo 0x8000 ramp240 f.fade else f.fade }

/-- A boundary of alignment group `g`, FFh none (R199). -/
def atGroup (s : State) (g k : Nat) : Bool := g == 0xFF || k % rd s (K.G_BLOCK g) == 0

/-- Filter delay: 32 samples at the lower of the two rates, counted at the rate the samples come at (Table SAP-3). -/
def asrcDelay (from_ dst : Nat) : Nat := 32 * ((from_ + min from_ dst - 1) / max 1 (min from_ dst))

/-- A converted sample of each channel: it stands for the sample one filter delay ago, with as many on either side. -/
def asrcOutSample (from_ dst phase : Nat) (hist : List (List Int)) (chans : Nat) : List Int :=
  (List.range chans).map (fun c =>
    satS 32 (Config.asrc (if dst = 48000000 then from_ else dst) phase ((hist.take (2 * asrcDelay from_ dst)).map (fun f => chanAt f c))))

/-- DI of a frame enters the buffer of an ASRC port. -/
def sapDi (n : Nat) (di : List Int) (s : State) : State :=
  let p := sapOf s n
  let rate := sapRate s n
  let chans := rd s (K.IN_CH n)
  let fr := (List.range chans).map (fun c => if p.phase = 3 ∨ p.phase = 7 then 0 else slotSample s n (chanAt di c))
  let b := p.asrcIn
  let hist := (fr :: b.hist).take (2 * asrcDelay rate 48000000)
  let ph := b.phase + 48000000
  let made := if rate = 0 then 0 else ph / rate
  let news := (List.range made).map (fun i => asrcOutSample rate 48000000 (ph - (i + 1) * rate) hist chans)
  let buf := b.buf ++ news
  let excess := decide (120 < buf.length) && !p.feed.stale
  let drop := if excess || (p.feed.stale && decide (32 < buf.length)) then buf.length - 32 else 0
  let past := buf.take drop
  let buf := buf.drop drop
  let s := sapUpd n (fun p => { p with
    delayIn := (past.reverse ++ p.delayIn).take 2
    asrcIn := { b with hist := hist, phase := if rate = 0 then 0 else ph % rate, buf := buf },
    feed := if excess then feedStale (clk s) p.feed else p.feed }) s
  if excess then sapUpset n (bump (K.OVERRUNS n) s) else s

/-- DO of a frame of an ASRC port. -/
def sapDo (n : Nat) (s : State) : State :=
  let p := sapOf s n
  let rate := sapRate s n
  let chans := rd s (K.OUT_CH n)
  let b := p.asrcOut
  let under := decide (b.buf.length < 8) && !b.stale
  let ph := b.phase + 48000000
  let take := if rate = 0 then 0 else ph / rate
  let b' : AsrcBuf :=
    if under || b.stale then { b with stale := true }
    else
      let hist := ((b.buf.take take).reverse ++ b.hist).take (2 * asrcDelay 48000000 rate)
      { b with buf := b.buf.drop take, hist := hist, phase := if rate = 0 then 0 else ph % rate,
               last := asrcOutSample 48000000 rate (ph % rate) hist chans }
  let zero := p.phase == 3 || p.phase == 7
  let samples := (List.range chans).map (fun c => if zero then 0 else fromQ31 (rd s (K.SAMPLE_BITS n)) (chanAt b'.last c))
  let s := sapSend n samples (sapUpd n (fun p => { p with asrcOut := b' }) s)
  if under then sapUpset n (bump (K.UNDERRUNS n) s) else s

/-- R189: the frame of a master port that began last, as an instant: frames follow at 1/RATE from each whole second, on SYNTH44
from its synthesiser's first edge at or after it. -/
def frameStart (s : State) (n : Nat) : Instant :=
  let rate := rd s (K.RATE n)
  let first := if rd s (K.CLOCK n) = 0 then 0 else Config.synth44Phase % (s1 / 22579200)
  let sec := s.isb.now / s1 * s1
  let base := if sec + first ≤ s.isb.now then sec + first else sec - s1 + first
  base + ((s.isb.now - base) * rate / s1) * s1 / max 1 rate

/-- A frame of the port starts now: of a master on its grid, of a slave with FS; one at a time. -/
def frameNow (s : State) (n : Nat) : Bool :=
  (!sapMaster s n || justNow s (frameStart s n)) && (sapOf s n).fs.last != some (clk s)

/-- SAP_FRAME: a frame of a port with an ASRC starts on the port's clock. While a slave is LOCKING its frames carry 0. -/
def execSapFrame (n : Fin 8) (di : List Int) (s : State) : Res :=
  let p := sapOf s n.val
  if sapBypass s n.val || p.phase < 2 || 8 ≤ p.phase || !frameNow s n.val then .next s
  else
    let s := if sapMaster s n.val then sapUpd n.val (fun p => { p with fs := { p.fs with last := some (clk s) } }) s
      else fsEdge n.val s
    if p.phase = 2 ∨ p.lost = true then .next (sapSend n.val (List.replicate (rd s (K.OUT_CH n.val)) 0) s)
    else .next (sapSync n.val (sapDo n.val (sapDi n.val di (sapUpd n.val (fun p => { p with frames := p.frames + 1 }) s))))

/-- STALE_FADE_EXPIRY: a port or receive endpoint has been STALE for STALE_FADE (R195). -/
def execStaleFadeExpiry (endpoint : Bool) (n : Nat) (s : State) : Res :=
  let ms := if endpoint then rd s (K.EP_STALE_FADE n) else rd s (K.STALE_FADE n)
  let f := if endpoint then (rxOf s n).feed else (sapOf s n).feed
  if ms = 0 ∨ f.stale = false ∨ clk s < f.staleAt + ms * ms1 ∨ f.fade.new = 0 then .next s
  else
    let g (f : Feed) : Feed := { f with fade := rampTo 0 ramp240 f.fade }
    .next (if endpoint then rxUpd n (fun x => { x with feed := g x.feed }) s
      else sapUpd n (fun x => { x with feed := g x.feed }) s)

/-- Source values of the inputs from `base` on, at this boundary. -/
def setInputs (base : Nat) (vals : List Int) (s : State) : State :=
  { s with mix.inLast := (List.range vals.length).foldl (fun t c => tabSet 0 t (base + c) (chanAt vals c)) s.mix.inLast }

/-- A port rejoins, or a member starts, at its group's boundary. -/
def sapJoin (k n : Nat) (s : State) : State :=
  let p := sapOf s n
  let g := rd s (K.GROUP n)
  let s := if p.phase = 4 ∧ g ≠ 0xFF ∧ rd s (K.G_STATE_SAP g) = 1 ∧ atGroup s g k = true then sapData n s else s
  let inBack := p.feed.stale && !p.lost && p.phase != 8 && atGroup s g k && (sapBypass s n || decide (32 ≤ p.asrcIn.buf.length))
  let outBack := p.asrcOut.stale && p.phase != 8 && atGroup s g k && decide (32 ≤ p.asrcOut.buf.length)
  let s := if inBack then sapUpd n (fun p => { p with feed := feedRejoin p.feed }) s else s
  let s := if outBack then sapUpd n (fun p => { p with asrcOut := { p.asrcOut with stale := false } }) s else s
  upd ((inBack || outBack) && g != 0xFF) (bump (K.G_REJOINS g)) s

/-- A port's inputs at boundary `k`. `di`: the frame that starts at it, of a BYPASS port. -/
def sapInputs (k n : Nat) (di : List Int) (s : State) : State :=
  let s := sapJoin k n s
  let p := sapOf s n
  let chans := rd s (K.IN_CH n)
  let base := rd s (K.MIX_IN_BASE n)
  if p.phase = 0 then s
  else if p.phase < 3 then setInputs base (List.replicate chans 0) s
  else if sapBypass s n then
    let fr := (List.range chans).map (fun c =>
      if p.phase = 3 ∨ p.phase = 7 then 0 else slotSample s n (chanAt di c))
    let r := feedOut p.feed (some ((p.delayIn.getD 1 []).take chans))
    let s := sapUpd n (fun p => { p with feed := r.2, delayIn := (fr :: p.delayIn).take 2, frames := p.frames + 1 }) s
    setInputs base ((List.range chans).map (chanAt r.1)) s
  else
    let under := decide (p.asrcIn.buf.length < 8) && !p.feed.stale && !(p.phase == 8)
    let feed := if under then feedStale (clk s) p.feed else p.feed
    let r := feedOut feed (if feed.stale then none else some ((p.delayIn.getD 1 []).take chans))
    let s := sapUpd n (fun p => { p with
      feed := r.2, delayIn := if feed.stale then p.delayIn else (p.asrcIn.buf.take 1 ++ p.delayIn).take 2
      asrcIn := { p.asrcIn with buf := if feed.stale then p.asrcIn.buf else p.asrcIn.buf.drop 1 } }) s
    let s := setInputs base ((List.range chans).map (chanAt r.1)) s
    sapSync n (if under then sapUpset n (bump (K.UNDERRUNS n) s) else s)

/-- A port's DO side at a boundary, once the outputs are computed: a BYPASS port sends the outputs of two boundaries
before, an ASRC port buffers them. A retired master's clocks run 240 samples more. -/
def sapOutputs (n : Nat) (s : State) : State :=
  let p := sapOf s n
  let chans := rd s (K.OUT_CH n)
  let base := rd s (K.MIX_OUT_BASE n)
  let vals := (List.range chans).map (fun c => applyGain 32 (tabGet 0 s.mix.outLast (base + c)) p.feed.gate.cur)
  if p.phase < 3 then s
  else if p.phase = 8 then
    upd (p.clockStop == 1) (clocksStop n) (sapUpd n (fun p => { p with clockStop := p.clockStop - 1 }) s)
  else if sapBypass s n then
    let zero := p.phase == 3 || p.phase == 7
    let fr := (p.delayOut.getD 1 []).take chans
    let samples := (List.range chans).map (fun c => if zero then 0 else fromQ31 (rd s (K.SAMPLE_BITS n)) (chanAt fr c))
    sapSend n samples (sapUpd n (fun p => { p with delayOut := (vals :: p.delayOut).take 2 }) s)
  else
    let b := p.asrcOut
    let buf := b.buf ++ [(p.delayOut.getD 1 []).take chans]
    let excess := decide (120 < buf.length) && !b.stale
    let buf := if excess || (b.stale && decide (32 < buf.length)) then buf.drop (buf.length - 32) else buf
    let s := sapSync n (sapUpd n (fun p => { p with
      delayOut := (vals :: p.delayOut).take 2, asrcOut := { b with buf := buf, stale := b.stale || excess } }) s)
    if excess then sapUpset n (bump (K.OVERRUNS n) s) else s

/-! ## AES67 endpoints, mixing-core side (R200–R202) -/

/-- EP_STATE codes. -/
abbrev epOff : Nat := 0
abbrev epWaiting : Nat := 1
abbrev epRun : Nat := 2
abbrev epStale : Nat := 3

/-- Samples of a packet: 6, 12 or 48 (EP_PTIME). -/
def ptimeSamples (code : Nat) : Nat := [6, 12, 48].getD code 48

/-- R201: the boundary at which a sample with RTP timestamp `ts` is an input. -/
def rxBoundary (s : State) (e ts : Nat) : Int :=
  let k := boundaryNow s
  let target := (ts + rd s (K.LINK_OFFSET e)) % 4294967296
  (k : Int) + toInt 32 (target + 4294967296 - (k + rd s (K.RTP_OFFSET_RX e)) % 4294967296)

/-- R201: a packet accepted on a receive endpoint: its samples in order, one list of channels each. -/
def rxAccept (e ts : Nat) (samples : List (List Int)) (s : State) : State :=
  let k := boundaryNow s
  let b := rxBoundary s e ts
  if b > (k : Int) + rd s (K.LINK_OFFSET e) + 4800 then bump (K.EP_LOST e) s
  else
    let put := (List.range samples.length).foldl (fun (t : Tab (List Int)) (i : Nat) =>
      if b + i < k then t else tabSet [] t (b + i).toNat (samples.getD i [])) (rxOf s e).waiting
    upd (decide (b < k)) (bump (K.EP_LATE e)) (rxUpd e (fun x => { x with waiting := put }) s)

/-- A receive endpoint's inputs at boundary `k`. -/
def rxInputs (k e : Nat) (s : State) : State :=
  if rd s (K.EP_EN_RX e) = 0 then s else
  let x := rxOf s e
  let g := rd s (K.EP_GROUP_RX e)
  let chans := rd s (K.EP_CHANNELS_RX e)
  let now := tabGet [] x.waiting k
  let have_ := !now.isEmpty
  let x := { x with waiting := x.waiting.filter (fun p => decide (k < p.1)) }
  let st := rd s (K.EP_STATE_RX e)
  let running := g == 0xFF || rd s (K.G_STATE_SAP g) == 1
  let starts := st == epWaiting && have_ && running && atGroup s g k
  let x := if starts then
    { x with feed := { x.feed with gate := if g = 0xFF then { new := 0x8000, cur := 0x8000 } else rampTo 0x8000 ramp240 x.feed.gate } }
    else x
  let st := if starts then epRun else st
  let under := st == epRun && !have_
  let back := st == epStale && have_ && atGroup s g k
  let st := if under then epStale else if back then epRun else st
  let feed := if under then feedStale (clk s) x.feed else if back then feedRejoin x.feed else x.feed
  let r := if st = epWaiting then ([], feed) else feedOut feed (if feed.stale then none else some now)
  let s := rxUpd e (fun _ => { x with feed := r.2 }) (wr (K.EP_STATE_RX e) st s)
  let s := upd under (bump (K.EP_UNDERRUNS e)) (upd (back && g != 0xFF) (bump (K.G_REJOINS g)) s)
  setInputs (rd s (K.EP_MIX_IN_BASE e)) ((List.range chans).map (chanAt r.1)) s

/-- Another owner holds a channel the endpoint needs. -/
def rxConflict (s : State) (e : Nat) : Bool :=
  !chansFree s.mix.inOwner (rd s (K.EP_MIX_IN_BASE e)) (rd s (K.EP_CHANNELS_RX e)) freeInputs (chanOwner 2 e)
def txConflict (s : State) (e : Nat) : Bool :=
  !chansFree s.mix.outOwner (rd s (K.EP_MIX_OUT_BASE e)) (rd s (K.EP_CHANNELS_TX e)) freeOutputs (chanOwner 2 e)

/-- An endpoint is enabled or disabled, mixing-core side; one already so is left as it is. -/
def rxEn (e : Nat) (on : Bool) (s : State) : State :=
  if rd s (K.EP_EN_RX e) = b2n on then s else
  let s := rxUpd e (fun _ => {}) (wr (K.EP_STATE_RX e) (if on then epWaiting else epOff) (wr (K.EP_EN_RX e) (b2n on) s))
  let own := if on then ownChans (rd s (K.EP_MIX_IN_BASE e)) (rd s (K.EP_CHANNELS_RX e)) (chanOwner 2 e) s.mix.inOwner
    else dropOwner (chanOwner 2 e) s.mix.inOwner
  { s with mix.inOwner := own }
def txEn (e : Nat) (on : Bool) (s : State) : State :=
  if rd s (K.EP_EN_TX e) = b2n on then s else
  let s := txUpd e (fun _ => { running := on && rd s (K.EP_GROUP_TX e) == 0xFF, gate := { new := 0x8000, cur := 0x8000 } })
    (wr (K.EP_STATE_TX e) (if on then (if rd s (K.EP_GROUP_TX e) = 0xFF then epRun else epWaiting) else epOff)
      (wr (K.EP_EN_TX e) (b2n on) s))
  let own := if on then ownChans (rd s (K.EP_MIX_OUT_BASE e)) (rd s (K.EP_CHANNELS_TX e)) (chanOwner 2 e) s.mix.outOwner
    else dropOwner (chanOwner 2 e) s.mix.outOwner
  { s with mix.outOwner := own }

/-- A send endpoint at boundary `k`: it takes its channels; the finished packet, if one ended here, with its first
boundary and samples. -/
def txTake (k e : Nat) (s : State) : Option (Nat × List (List Int)) × State :=
  if rd s (K.EP_EN_TX e) = 0 then (none, s) else
  let g := rd s (K.EP_GROUP_TX e)
  let starts := !(txOf s e).running && g != 0xFF && rd s (K.G_STATE_SAP g) == 1 && atGroup s g k
  let s := if starts then wr (K.EP_STATE_TX e) epRun (txUpd e (fun x => { x with
    running := true, gate := rampTo 0x8000 ramp240 { x.gate with cur := 0 } }) s) else s
  let x := txOf s e
  if !x.running then (none, s) else
  let vals := (List.range (rd s (K.EP_CHANNELS_TX e))).map (fun c =>
    applyGain 32 (tabGet 0 s.mix.outLast (rd s (K.EP_MIX_OUT_BASE e) + c)) (rampVal x.gate))
  let first := if x.held.isEmpty then k else x.first
  let held := vals :: x.held
  if held.length < ptimeSamples (rd s (K.EP_PTIME_TX e)) then
    (none, txUpd e (fun x => { x with held := held, first := first, gate := rampStep x.gate }) s)
  else
    (some (first, held.reverse), txUpd e (fun x => { x with held := [], gate := rampStep x.gate, seq := (x.seq + 1) % 65536 }) s)

/-! ## Alignment groups (R199) -/

/-- The members of a group start, those ready at once. -/
def groupStart (g : Nat) (s : State) : State :=
  let s := wr (K.G_STATE_SAP g) 1 s
  let s := (List.range 8).foldl (fun s n =>
    if rd s (K.GROUP n) = g ∧ (sapOf s n).phase = 4 then sapData n s else s) s
  let s := (List.range 64).foldl (fun s e =>
    if rd s (K.EP_GROUP_RX e) = g ∧ rd s (K.EP_EN_RX e) = 1 ∧ rd s (K.EP_STATE_RX e) ≠ epWaiting then
      rxUpd e (fun x => { x with feed := { x.feed with gate := rampTo 0x8000 ramp240 x.feed.gate } }) s else s) s
  (List.range 64).foldl (fun s e =>
    if rd s (K.EP_GROUP_TX e) = g ∧ rd s (K.EP_EN_TX e) = 1 then
      wr (K.EP_STATE_TX e) epRun (txUpd e (fun x => { x with
        running := true, gate := rampTo 0x8000 ramp240 (if x.running then x.gate else { x.gate with cur := 0 }) }) s)
    else s) s

/-- The members' data ramps out; they stay enabled and carry zeros. -/
def groupStop (g : Nat) (s : State) : State :=
  let s := wr (K.G_STATE_SAP g) 0 s
  let s := (List.range 8).foldl (fun s n =>
    if rd s (K.GROUP n) = g ∧ (sapOf s n).phase = 5 then
      sapUpd n (fun p => { p with phase := 4, feed.gate := rampTo 0 ramp240 p.feed.gate }) s
    else s) s
  let s := (List.range 64).foldl (fun s e =>
    if rd s (K.EP_GROUP_RX e) = g ∧ rd s (K.EP_EN_RX e) = 1 then
      rxUpd e (fun x => { x with feed := { x.feed with gate := rampTo 0 ramp240 x.feed.gate } }) s else s) s
  (List.range 64).foldl (fun s e =>
    if rd s (K.EP_GROUP_TX e) = g ∧ rd s (K.EP_EN_TX e) = 1 then
      txUpd e (fun x => { x with gate := rampTo 0 ramp240 x.gate }) s else s) s

/-- SAP_GROUP: the launch whose boundary has come. -/
def execSapGroup (s : State) : Res :=
  .next (fireHub ltSapGroup (fun _ => true) (fun _ l s =>
    .ok (if l.arg = 0 then groupStart l.target s else groupStop l.target s)) s)

/-- Members of a group as keys 6100h + g:03–05 show them. -/
def groupPorts (s : State) (g : Nat) : Nat :=
  (List.range 8).foldl (fun v n => if rd s (K.GROUP n) = g then v + 2 ^ n else v) 0
def groupRx (s : State) (g : Nat) : Nat :=
  (List.range 64).foldl (fun v n => if rd s (K.EP_GROUP_RX n) = g then v + 2 ^ n else v) 0
def groupTx (s : State) (g : Nat) : Nat :=
  (List.range 64).foldl (fun v n => if rd s (K.EP_GROUP_TX n) = g then v + 2 ^ n else v) 0

/-- R197, R199, R203: the writes a port, endpoint or group in use refuses. -/
def sapWriteBusy (index sub : Nat) (s : State) : Bool :=
  let running (g : Nat) : Bool := g != 0xFF && rd s (K.G_STATE_SAP g) == 1
  if 0x6000 ≤ index ∧ index < 0x6008 then
    let n := index - 0x6000
    rd s (K.SAP_EN n) == 1 && decide (2 ≤ sub ∧ sub ≤ 0x0F) || sub == 0x0F && running (rd s (K.GROUP n))
  else if 0x6100 ≤ index ∧ index < 0x6108 ∧ sub = 1 then
    let g := index - 0x6100
    running g || (List.range 8).any (fun n => rd s (K.GROUP n) == g && rd s (K.SAP_EN n) == 1)
      || (List.range 64).any (fun e => (rd s (K.EP_GROUP_RX e) == g && rd s (K.EP_EN_RX e) == 1)
        || (rd s (K.EP_GROUP_TX e) == g && rd s (K.EP_EN_TX e) == 1))
  else if 0x6200 ≤ index ∧ index < 0x6240 then
    let e := index - 0x6200
    rd s (K.EP_EN_RX e) == 1 && decide (2 ≤ sub ∧ sub ≤ 8) || sub == 8 && running (rd s (K.EP_GROUP_RX e))
  else if 0x6280 ≤ index ∧ index < 0x62C0 then
    let e := index - 0x6280
    rd s (K.EP_EN_TX e) == 1 && decide (2 ≤ sub ∧ sub ≤ 8) || sub == 8 && running (rd s (K.EP_GROUP_TX e))
  else false

end Sys2Proof.Machine
end

