-- ==== Sys2Proof/Machine/Mix.lean ====
section
/-! DEFINITION. The mix array (R204–R216, R233, R234): channels, gain nodes, equalisers, banks, swaps and meters. -/
namespace Sys2Proof.Machine

/-! ## Ramps kept beside the value they rest at -/

/-- The value of a ramped quantity at this sample; unlisted ones rest at `rest`. -/
def rampAt (t : Tab Ramp) (k : Nat) (rest : Int) : Int :=
  match t.find? (fun e => e.1 == k) with
  | some e => rampVal e.2
  | none => rest

/-- The value of a ramped quantity at the last sample. -/
def rampNow (t : Tab Ramp) (k : Nat) (rest : Int) : Int :=
  match t.find? (fun e => e.1 == k) with
  | some e => e.2.cur
  | none => rest

/-- Begin a ramp from the value the last sample used. -/
def rampBegin (k : Nat) (rest new : Int) (n : Nat) (t : Tab Ramp) : Tab Ramp :=
  let cur := rampNow t k rest
  tabPut t k { old := cur, new := new, k := 0, n := n, cur := cur }

/-- Every ramp after one sample; settled ones are dropped. -/
def rampsStep (t : Tab Ramp) : Tab Ramp :=
  t.filterMap (fun e => if e.2.k + 1 < e.2.n then some (e.1, rampStep e.2) else none)

/-! ## Gain nodes (Table MIX-2) -/

/-- The signed gain of a node word. -/
def nodeGain (w : Nat) : Int := if bitOf w 16 then -((w % 65536 : Nat) : Int) else ((w % 65536 : Nat) : Int)

/-- Node keys. -/
def nodeKey (output input : Nat) : Nat := output * 1024 + input

/-- Active bank of a set: 0 crosspoint, 1 input EQ, 2 output EQ. -/
def activeBankOf (s : State) (set_ : Nat) : Nat := rd s (K.ACTIVE_BANKS set_)

/-- A crosspoint bank. -/
def xpBank (s : State) (b : Nat) : Tab Nat := if b = 0 then s.mix.xp0 else s.mix.xp1
def xpBankUpd (b : Nat) (f : Tab Nat → Tab Nat) (s : State) : State :=
  if b = 0 then { s with mix.xp0 := f s.mix.xp0 } else { s with mix.xp1 := f s.mix.xp1 }

/-- Merge the keys of two sorted tables. -/
def bothKeys {α β : Type} (a : Tab α) (b : Tab β) : List Nat :=
  (b.foldl (fun (t : Tab Unit) e => tabPut t e.1 ()) (a.foldl (fun (t : Tab Unit) e => tabPut t e.1 ()) [])).map (·.1)

/-! ## Equaliser sections (R214, R215) -/

/-- An equaliser bank: side 0 input, 1 output. -/
def eqBank (s : State) (side b : Nat) : Tab Bytes :=
  if side = 0 then (if b = 0 then s.mix.ieq0 else s.mix.ieq1) else (if b = 0 then s.mix.oeq0 else s.mix.oeq1)
def eqBankUpd (side b : Nat) (f : Tab Bytes → Tab Bytes) (s : State) : State :=
  if side = 0 then (if b = 0 then { s with mix.ieq0 := f s.mix.ieq0 } else { s with mix.ieq1 := f s.mix.ieq1 })
  else (if b = 0 then { s with mix.oeq0 := f s.mix.oeq0 } else { s with mix.oeq1 := f s.mix.oeq1 })

/-- Key of a section's record within a bank, and of its history. -/
def eqKey (chan sec : Nat) : Nat := chan * 16 + sec
def histKey (side chan sec : Nat) : Nat := side * 65536 + chan * 16 + sec

/-- A section record; an unlisted one is all zeros. -/
def eqRec (t : Tab Bytes) (k : Nat) : Bytes := slice (tabGet [] t k) 0 32

/-- A reserved bit is set, or SHIFT is above 3: the section acts as disabled. -/
def eqBad (r : Bytes) : Bool :=
  decide (1 < leAt r 20 1) || decide (3 < leAt r 21 1) || (r.drop 22).any (fun b => b.toNat != 0)
def eqOn (r : Bytes) : Bool := leAt r 20 1 == 1 && !eqBad r

/-- A coefficient, signed Q2.30. -/
def eqCoef (r : Bytes) (i : Nat) : Int := toInt 32 (leAt r (4 * i) 4)

/-- The output of a record on an input and a history. -/
def eqOut (r : Bytes) (x x1 x2 y1 y2 : Int) : Int :=
  if eqOn r then
    satS 32 (rnd (eqCoef r 0 * x + eqCoef r 1 * x1 + eqCoef r 2 * x2 - eqCoef r 3 * y1 - eqCoef r 4 * y2)
      (30 - leAt r 21 1))
  else x

/-- Only the present record runs. -/
def eqEnd (h : EqHist) : EqHist := { h with oldRec := [], oy1 := 0, oy2 := 0, last := none, hold := none, k := 0, n := 0 }

/-- One sample of a section: its output, and its history. -/
def eqSection (r : Bytes) (x : Int) (h : EqHist) : Int × EqHist :=
  let y := eqOut r x h.x1 h.x2 h.y1 h.y2
  let h' : EqHist := if eqOn r then { h with x1 := x, x2 := h.x1, y1 := y, y2 := h.y1 }
    else { h with x1 := x, x2 := h.x1, y1 := x, y2 := h.x1 }
  if h.n = 0 then (y, h')
  else
    let yo := eqOut h.oldRec x h.x1 h.x2 h.oy1 h.oy2
    let from_ := h.hold.getD yo
    let v := from_ + (y - from_) * (h.k + 1) / h.n
    (v, if h.k + 1 < h.n then { h' with oy1 := yo, oy2 := h.oy1, k := h.k + 1, last := some v } else eqEnd h')

/-- R215: a section's record changes with a cross-fade of `n` samples; over one in progress it starts from the value last
used. -/
def eqChange (was : Bytes) (n : Nat) (h : EqHist) : EqHist :=
  if h.n = 0 then { h with oldRec := was, oy1 := h.y1, oy2 := h.y2, k := 0, n := n }
  else match h.last with
    | none => { h with n := n }
    | some v => { h with oldRec := was, oy1 := h.y1, oy2 := h.y2, hold := some v, last := none, k := 0, n := n }

/-- A channel's sections in order: the last output, and the histories. `recs` are the records of channel `rc`. -/
def eqChain (recs : Tab Bytes) (rc side chan : Nat) : Nat → Nat → Int → Tab EqHist → Int × Tab EqHist
  | 0, _, x, t => (x, t)
  | left + 1, sec, x, t =>
    let k := histKey side chan sec
    let r := eqSection (eqRec recs (eqKey rc sec)) x (tabGet {} t k)
    eqChain recs rc side chan left (sec + 1) r.1 (tabSet {} t k r.2)

/-! ## Channels -/

/-- Bases of Table MIX-1. -/
abbrev candBase : Nat := 704
abbrev trunkBase : Nat := 768
abbrev groupBase : Nat := 896
abbrev hallBase : Nat := 960
abbrev mmBase : Nat := 1024

/-- IN_OWNER and OUT_OWNER (R205, Table MIX-1). -/
def inOwnerOf (s : State) (i : Nat) : Nat :=
  if i < candBase then tabGet 0 s.mix.inOwner i
  else if i < trunkBase then chanOwner 5 (i - candBase) else chanOwner 4 (i - trunkBase)
def outOwnerOf (s : State) (o : Nat) : Nat := if o < groupBase then tabGet 0 s.mix.outOwner o else chanOwner 6 0

/-- IN_STALE: an input of any kind repeats its last sample. -/
def inStale (s : State) (i : Nat) : Bool :=
  if trunkBase ≤ i then s.mix.slotStale.contains i
  else if candBase ≤ i then (tabGet {} s.mix.cands (i - candBase)).concealed
  else
    let w := tabGet 0 s.mix.inOwner i
    let n := w % 65536
    if w / 16777216 = 1 then (sapOf s n).feed.stale
    else if w / 16777216 = 2 then (rxOf s n).feed.stale
    else if w / 16777216 = 3 then (tabGet {} s.dsp.ticks n).stale
    else false

/-- Samples of node, trim, gain and mute ramps (XP_RAMP). -/
def xpRamp (s : State) : Nat := rd s K.XP_RAMP

/-- A meter's peak takes a sample (R233). -/
def peak (k : Nat) (y : Int) (s : State) : State := if rd s k < y.natAbs then wr k y.natAbs s else s

/-- A sample enters an RMS window of 14,400. -/
def windowPut (k : Nat) (y : Int) (t : Tab (List Nat)) : Tab (List Nat) :=
  let old := tabGet [] t k
  if y = 0 ∧ old.all (· == 0) then tabErase t k else tabPut t k ((y.natAbs * y.natAbs :: old).take 14400)

/-- RMS of a window, in 0.01 dBFS with a floor of −14,400, which silence reads. -/
def rmsOf (s : State) (k : Nat) : Int :=
  let sum := (tabGet [] s.mix.window k).foldl (· + ·) 0
  if sum = 0 then -14400 else max (-14400) (Config.levelDb sum)

/-- Channels of a side whose sections hold a history. -/
def histChans (s : State) (side : Nat) : List Nat :=
  ((s.mix.hist.filter (fun e => e.1 / 65536 == side)).map (fun e => e.1 % 65536 / 16)).eraseDups

/-- The value of the talk gain of an input at rest: 8000h unless a candidate that is not a talker (R206, R223). -/
def talkRest (s : State) (i : Nat) : Int := (rd s (K.IN_TALK i) : Nat)

/-- R206: an input through its chain, as the crosspoint takes it. -/
def inputChain (s : State) (i : Nat) (x : Int) : Int × State :=
  let r := eqChain (eqBank s 0 (activeBankOf s 1)) i 0 i 8 0 x s.mix.hist
  let s := { s with mix.hist := r.2, mix.window := windowPut i r.1 s.mix.window }
  let y := applyGain 32 r.1 (rampAt s.mix.trim i (rd s (K.IN_TRIM i) : Nat))
  (applyGain 32 y (rampAt s.mix.talk i (talkRest s i)), peak (K.IN_PEAK i) r.1 s)

/-- The inputs that can differ from silence, each through its chain. -/
def inputChains (s : State) : Tab Int × State :=
  let active := bothKeys s.mix.inLast ((histChans s 0).map (fun c => (c, ())))
  let active := bothKeys (active.map (fun c => (c, ()))) (s.mix.window.filter (fun e => decide (e.1 < 1024)))
  active.foldl (fun (r : Tab Int × State) i =>
    let c := inputChain r.2 i (tabGet 0 s.mix.inLast i)
    (tabSet 0 r.1 i c.1, c.2)) ([], s)

/-- R207: the sums of every row, in units of 2⁻⁴⁶. -/
def rowSums (s : State) (xs : Tab Int) : Tab Int :=
  let bank := xpBank s (activeBankOf s 0)
  (bothKeys bank s.mix.nodeRamps).foldl (fun t k =>
    let g := rampAt s.mix.nodeRamps k (nodeGain (tabGet 0 bank k))
    tabMod 0 t (k / 1024) (· + tabGet 0 xs (k % 1024) * g)) []

/-- R207: a row value of a sum; a clipped one is counted. -/
def rowValue (acc : Int) : Int := satS 32 (rnd acc 15)
def rowClips (acc : Int) : Bool := rowValue acc != rnd acc 15

/-- R208: the chain of output `o` on a row value. -/
def outputChain (s : State) (o : Nat) (y : Int) : State :=
  let r := eqChain (eqBank s 1 (activeBankOf s 2)) o 1 o 16 0 y s.mix.hist
  let v := applyGain 32 r.1 (rampAt s.mix.outGain o (rd s (K.OUT_GAIN o) : Nat))
  let v := applyGain 32 v (rampAt s.mix.mute o (if rd s (K.OUT_MUTE o) = 1 then 0 else 0x8000))
  peak (K.OUT_PEAK o) v { s with
    mix.hist := r.2, mix.outLast := tabSet 0 s.mix.outLast o v, mix.window := windowPut (1024 + o) v s.mix.window }

/-- The group of a leg: LEG_GROUP. -/
def legGroup (s : State) (leg : Nat) : Nat := rd s (K.LEG_GROUP leg)

/-- The candidate position of a leg. -/
def candOf (s : State) (leg : Nat) : Option Nat :=
  (s.mix.cands.find? (fun e => e.2.leg == some leg)).map (·.1)

/-- The talker positions held: position, group, input of the talker's candidate position if it still has one (R231). -/
def positionsHeld (s : State) : List (Nat × Nat × Option Nat) :=
  (List.range 32).filterMap (fun k =>
    let leg := rd s (K.TP_LEG k)
    if leg = 0xFFFF then none else some (k, legGroup s leg, (candOf s leg).map (· + candBase)))

/-- R231: position `k` of a leg talker in group `g` at input `x`: the mix-minus of the row through the group's chain. -/
def mixMinus (s : State) (xs sums : Tab Int) (k g : Nat) (x : Option Nat) : State :=
  let bank := xpBank s (activeBankOf s 0)
  let o := groupBase + g
  let own : Int := match x with
    | some i =>
      let nk := nodeKey o i
      tabGet 0 xs i * rampAt s.mix.nodeRamps nk (nodeGain (tabGet 0 bank nk))
    | none => 0
  let y := rowValue (tabGet 0 sums o - own)
  let r := eqChain (eqBank s 1 (activeBankOf s 2)) o 2 k 16 0 y s.mix.hist
  let v := applyGain 32 r.1 (rampAt s.mix.outGain o (rd s (K.OUT_GAIN o) : Nat))
  let v := applyGain 32 v (rampAt s.mix.mute o (if rd s (K.OUT_MUTE o) = 1 then 0 else 0x8000))
  { s with mix.hist := r.2, mix.outLast := tabSet 0 s.mix.outLast (mmBase + k) v }

/-- A row is a crosspoint sum (OUT_MODE MIX). -/
def isMix (s : State) (o : Nat) : Bool := rd s (K.OUT_MODE o) == 0

/-- R220: the row value of H_L, cross-fading with the final value of H0. -/
def langRow (o : Nat) (y : Int) (s : State) : Int × State :=
  let l := o - hallBase
  if o < hallBase + 1 ∨ hallBase + 32 ≤ o then (y, s)
  else
    let x := tabGet {} s.mix.langs l
    let floor := tabGet 0 s.mix.outLast hallBase
    let r := fadeSample (fadeFrom (b2n x.fallback) x.fade) s.isb.now (fun src => if src = 1 then floor else y)
    (r.1, { s with mix.langs := tabSet {} s.mix.langs l { x with fade := fadeKept r.2 } })

/-- A crosspoint row's output: its sum, its clips, its chain. -/
def mixRow (sums : Tab Int) (s : State) (o : Nat) : State :=
  let acc := tabGet 0 sums o
  let s := upd (rowClips acc) (bump (K.OUT_CLIPS o)) s
  let r := langRow o (rowValue acc) s
  outputChain r.2 o r.1

/-- R208: a COPY output. -/
def copyRow (s : State) (o : Nat) : State := outputChain s o (tabGet 0 s.mix.outLast (rd s (K.OUT_COPY_OF o)))

/-- R206–R209, R220, R231: every output of this boundary from the input values in `inLast`. A language row follows the
floor's final value; COPY outputs come last, but a floor that is a COPY before the language rows. -/
def mixAll (s : State) : State :=
  let r := inputChains s
  let sums := rowSums r.2 r.1
  let s := r.2
  let rows := bothKeys sums ((histChans s 1).map (fun c => (c, ())))
  let rows := bothKeys (rows.map (fun o => (o, ()))) ((s.mix.outLast.filter (fun e => decide (e.1 < 1024))))
  let rows := bothKeys (rows.map (fun o => (o, ()))) (s.mix.langs.filterMap (fun e =>
    if e.2.fallback || !fadeIdle e.2.fade then some (hallBase + e.1, ()) else none))
  let rows := bothKeys (rows.map (fun o => (o, ()))) (s.mix.window.filterMap (fun e =>
    if 1024 ≤ e.1 then some (e.1 - 1024, ()) else none))
  let isLang (o : Nat) : Bool := decide (hallBase < o ∧ o < hallBase + 32)
  let copies := (listedKeys s 0x6411 3).filter (fun o => rd s (K.OUT_MODE o) == 1)
  let s := (rows.filter (fun o => rd s (K.OUT_MODE o) == 2)).foldl (fun s o =>
    { s with mix.outLast := tabSet 0 s.mix.outLast o 0, mix.window := windowPut (1024 + o) 0 s.mix.window }) s
  let s := (rows.filter (fun o => isMix s o && !isLang o)).foldl (mixRow sums) s
  let held := positionsHeld s
  let idle := (List.range 32).filter (fun k => !held.any (fun h => h.1 == k))
  let s := idle.foldl (fun s k => { s with
    mix.outLast := tabErase s.mix.outLast (mmBase + k),
    mix.hist := s.mix.hist.filter (fun e => !(e.1 / 16 == 2 * 4096 + k)) }) s
  let s := held.foldl (fun s h => mixMinus s r.1 sums h.1 h.2.1 h.2.2) s
  let s := if copies.contains hallBase then copyRow s hallBase else s
  let s := (rows.filter (fun o => isMix s o && isLang o)).foldl (mixRow sums) s
  let s := (copies.filter (fun o => o != hallBase)).foldl copyRow s
  { s with
    mix.nodeRamps := rampsStep s.mix.nodeRamps, mix.trim := rampsStep s.mix.trim, mix.talk := rampsStep s.mix.talk,
    mix.outGain := rampsStep s.mix.outGain, mix.mute := rampsStep s.mix.mute }

/-- R209: the 24-bit samples of H0–H63. -/
def hallSamples (s : State) : List Int :=
  (List.range 64).map (fun c => satS 24 (rnd (tabGet 0 s.mix.outLast (hallBase + c)) 8))
def keepHall (s : State) : State := { s with mix.hSamples := (hallSamples s :: s.mix.hSamples).take 6 }

/-! ## Banks (R210–R213, R217) -/

/-- A swap of the set is armed or committed; or only committed. Sets 1 and 2 are EQ_SWAP targets 0 and 1. -/
def swapOf (set_ : Nat) (l : Launch) : Bool :=
  if set_ = 0 then l.typ == ltXpSwap else l.typ == ltEqSwap && l.target + 1 == set_
def swapWaits (s : State) (set_ : Nat) : Bool := s.isb.launches.any (fun e => e.2.active && swapOf set_ e.2)
def swapCommitted (s : State) (set_ : Nat) : Bool :=
  s.isb.launches.any (fun e => e.2.state == lsCommitted && swapOf set_ e.2)

/-- R210, R213: a write to a bank is accepted. -/
def bankOpen (s : State) (set_ bank : Nat) : Bool :=
  if bank = activeBankOf s set_ then !s.mix.leftDefault else !swapCommitted s set_

/-- A running copy keeps what is written meanwhile (R212). -/
def noteWritten (set_ bank k : Nat) (s : State) : State :=
  let set' := match s.mix.copying with | some 3 => 0 | some c => c | none => 9
  if set' = set_ ∧ bank ≠ activeBankOf s set_ then { s with mix.written := k :: s.mix.written } else s

/-- Write a node; in the active bank it takes effect at once (R213). -/
def nodePut (bank k w : Nat) (s : State) : State :=
  let s := noteWritten 0 bank k (xpBankUpd bank (fun t => tabSet 0 t k (w % 131072)) s)
  if bank = activeBankOf s 0 then { s with mix.nodeRamps := tabErase s.mix.nodeRamps k } else s

/-- Write a section record. -/
def sectionPut (side bank k : Nat) (r : Bytes) (s : State) : State :=
  let r := slice r 0 32
  let s := noteWritten (side + 1) bank k (eqBankUpd side bank (fun t => tabSet [] t k (if zeroFrom r 0 then [] else r)) s)
  if bank = activeBankOf s (side + 1) then
    upd (eqBad r) (bump K.EQ_BAD) { s with mix.hist := tabMod {} s.mix.hist (side * 65536 + k) eqEnd }
  else s

/-- A BAR2 write is discarded. -/
def bar2Refuse (s : State) : State := bump K.WRITES_REFUSED { s with mix.refused := true }

/-- Table MIX-4: an area of BAR2: set, bank, item key, offset within the item. -/
def bar2Item (offset : Nat) : Option (Nat × Nat × Nat × Nat) :=
  if offset < 0x800000 then some (0, offset / 0x400000, offset % 0x400000 / 4, 0)
  else if offset < 0x880000 then
    let o := offset - 0x800000
    some (1, o / 0x40000, eqKey (o % 0x40000 / 0x100) (o % 0x100 / 0x20), o % 0x20)
  else if offset < 0x980000 then
    let o := offset - 0x880000
    some (2, o / 0x80000, eqKey (o % 0x80000 / 0x200) (o % 0x200 / 0x20), o % 0x20)
  else none

/-- One 32-bit or 64-bit write in an area. -/
def bar2Put (offset width data : Nat) (s : State) : State :=
  match bar2Item offset with
  | none => s
  | some (set_, bank, k, off) =>
    if !bankOpen s set_ bank then bar2Refuse s
    else if set_ = 0 then
      let s := nodePut bank k (data % 4294967296) s
      if width = 8 then nodePut bank (k + 1) (data / 4294967296) s else s
    else sectionPut (set_ - 1) bank k (patch (eqRec (eqBank s (set_ - 1) bank) k) off (leBytes width data)) s

/-- BAR2_WRITE: below 0100_0000h. -/
def execBar2Write (offset width data : Nat) (s : State) : Res :=
  if (width = 4 ∨ width = 8) ∧ offset % width = 0 ∧ offset < 0x1000000 then .next (bar2Put offset width data s)
  else .next (badAccess 2 offset s)

/-- A BAR2 mixing read. -/
def bar2Read (s : State) (offset : Nat) : Nat :=
  match bar2Item offset with
  | none => 0
  | some (set_, bank, k, off) =>
    if set_ = 0 then tabGet 0 (xpBank s bank) k else leAt (eqRec (eqBank s (set_ - 1) bank) k) off 4

/-- MIX.BANKS. -/
def mixBanks (s : State) : Nat :=
  activeBankOf s 0 + 2 * activeBankOf s 1 + 4 * activeBankOf s 2
    + 8 * b2n (match s.mix.copying with | some c => decide (c < 3) | none => false) + 256 * b2n s.mix.refused

/-- XP_COPY: key 6400:05; PENDING until XP_COPY_DONE. -/
def copyStatus (s : State) (set_ : Nat) : Status :=
  checks [(decide (2 < set_), .range), (swapWaits s set_ || s.mix.copying.isSome, .busy), (true, .pending)]
def writeXpCopy (inst : Inst) (tag : Nat) (set_ : Nat) (s : State) : State :=
  runCmdV inst tag 0x6400 5 (leBytes 1 set_) (copyStatus s set_) (fun s => { s with mix.copying := some set_, mix.written := [] }) s

/-- XP_PRESET: key 6400:06. -/
def writeXpPreset (inst : Inst) (tag : Nat) (s : State) : State :=
  runCmd inst tag 0x6400 6 (copyStatus s 0) (fun s => { s with mix.copying := some 3, mix.written := [] }) s

/-- The booth slot input of a language, if it has one (R217, R218); languages are 1–31. -/
def boothInput (s : State) (l : Nat) : Option Nat :=
  let t := rd s (K.BOOTH_TRUNK (l - 1))
  if t = 0xFF then none else some (trunkBase + 32 * t + rd s (K.BOOTH_SLOT (l - 1)))
def boothInputs (s : State) : List Nat := (List.range 31).filterMap (fun l => boothInput s (l + 1))

/-- R217: the routing XP_PRESET writes. -/
def presetBank (s : State) : Tab Nat :=
  let booths := boothInputs s
  let inputs := (List.range 320).map (· + candBase)
  let speakers := inputs.filter (fun i => !booths.contains i)
  let groups := (List.range 64).flatMap (fun g => speakers.map (fun i => (nodeKey (groupBase + g) i, 0x8000)))
  let floor := speakers.map (fun i => (nodeKey hallBase i, 0x8000))
  let langs := (List.range 31).filterMap (fun l => (boothInput s (l + 1)).map (fun i => (nodeKey (hallBase + l + 1) i, 0x8000)))
  let zones := (List.range 16).flatMap (fun z => speakers.map (fun i => (nodeKey (hallBase + 32 + z) i, 0x8000)))
  groups ++ floor ++ langs ++ zones

/-- A copied table, with the words written meanwhile kept from the inactive one. -/
def mergeCopy {α : Type} [DecidableEq α] (d : α) (written : List Nat) (src old : Tab α) : Tab α :=
  written.foldl (fun t k => tabSet d t k (tabGet d old k)) src

/-- XP_COPY_DONE: the copy or preset is complete, and its command. -/
def execXpCopyDone (s : State) : Res :=
  let w := s.mix.written
  let fin (sub : Nat) (s : State) : State := cmdComplete 0x6400 sub .ok { s with mix.copying := none, mix.written := [] }
  match s.mix.copying with
  | none => .next s
  | some 3 => .next (fin 6 (xpBankUpd (1 - activeBankOf s 0) (mergeCopy 0 w (presetBank s)) s))
  | some 0 => .next (fin 5 (xpBankUpd (1 - activeBankOf s 0) (mergeCopy 0 w (xpBank s (activeBankOf s 0))) s))
  | some (n + 1) =>
    let side := n % 2
    let a := activeBankOf s (side + 1)
    .next (fin 5 (eqBankUpd side (1 - a) (mergeCopy [] w (eqBank s side a)) s))

/-- R211: the inactive crosspoint bank becomes active; nodes whose signed gain differs ramp. -/
def xpSwap (s : State) : State :=
  let a := activeBankOf s 0
  let old := xpBank s a
  let new := xpBank s (1 - a)
  let n := xpRamp s
  let ramps := (bothKeys old new).foldl (fun t k =>
    let go := nodeGain (tabGet 0 old k)
    let gn := nodeGain (tabGet 0 new k)
    if go = gn then t else rampBegin k go gn n t) s.mix.nodeRamps
  wr (K.ACTIVE_BANKS 0) (1 - a) { s with mix.nodeRamps := ramps }

/-- XP_SWAP: the launch whose boundary has come. -/
def execXpSwap (s : State) : Res := .next (fireHub ltXpSwap (fun _ => true) (fun _ _ s => .ok (xpSwap s)) s)

/-- R215: an equaliser bank swaps; changed sections cross-fade. Side 1 also serves the mix-minus outputs. -/
def eqSwap (side : Nat) (s : State) : State :=
  let a := activeBankOf s (side + 1)
  let old := eqBank s side a
  let new := eqBank s side (1 - a)
  let n := xpRamp s
  let change (hk k : Nat) (t : Tab EqHist) : Tab EqHist := tabMod {} t hk (eqChange (eqRec old k) n)
  let keys := (bothKeys old new).filter (fun k => tabGet [] old k != tabGet [] new k)
  let hist := keys.foldl (fun t k => change (side * 65536 + k) k t) s.mix.hist
  let hist := if side = 0 then hist else (positionsHeld s).foldl (fun t h =>
    (keys.filter (fun k => k / 16 == groupBase + h.2.1)).foldl (fun t k => change (histKey 2 h.1 (k % 16)) k t) t) hist
  let bad := (new.filter (fun e => eqBad (eqRec new e.1))).length
  bumpBy K.EQ_BAD bad (wr (K.ACTIVE_BANKS (side + 1)) (1 - a) { s with mix.hist := hist })

/-- EQ_SWAP: the launch whose boundary has come. -/
def execEqSwap (s : State) : Res := .next (fireHub ltEqSwap (fun _ => true) (fun _ l s => .ok (eqSwap l.target s)) s)

/-! ## Settings that ramp (R206, R208) -/

/-- IN_TRIM, OUT_GAIN and OUT_MUTE after a write. -/
def trimWrite (i v : Nat) (s : State) : State :=
  let r := rampBegin i (rd s (K.IN_TRIM i) : Nat) v (xpRamp s) s.mix.trim
  wr (K.IN_TRIM i) v { s with mix.trim := r }
def outGainWrite (o v : Nat) (s : State) : State :=
  let r := rampBegin o (rd s (K.OUT_GAIN o) : Nat) v (xpRamp s) s.mix.outGain
  wr (K.OUT_GAIN o) v { s with mix.outGain := r }
def outMuteWrite (o v : Nat) (s : State) : State :=
  let level (x : Nat) : Int := if x = 1 then 0 else 0x8000
  if rd s (K.OUT_MUTE o) = v then s else
  let r := rampBegin o (level (rd s (K.OUT_MUTE o))) (level v) (xpRamp s) s.mix.mute
  wr (K.OUT_MUTE o) v { s with mix.mute := r }

/-- R208: a COPY may not name a COPY. -/
def copyModeOk (s : State) (o mode of_ : Nat) : Bool :=
  mode != 1 || (of_ != o && (decide (1024 ≤ of_) || rd s (K.OUT_MODE of_) != 1)
    && !(listedKeys s 0x6411 3).any (fun p => p != o && rd s (K.OUT_MODE p) == 1 && rd s (K.OUT_COPY_OF p) == o))

/-! ## Meters (R233, R234) -/

/-- Values of every instance of a key are back at their default. -/
def clearKeys (index sub : Nat) (s : State) : State :=
  { s with regs := s.regs.filter (fun e => !(keyIndex e.1 == index && keySub e.1 == sub)) }

/-- METER_CLR: key 6412:01. -/
def writeMeterClr (inst : Inst) (tag : Nat) (s : State) : State :=
  runCmd inst tag 0x6412 1 .ok (fun s => clearKeys 0x6410 5 (clearKeys 0x6411 7 (clearKeys 0x6411 9 s))) s

/-- A meter's samples at a boundary: one output or two (LM_SOURCE). -/
def loudSample (s : State) (m : Nat) : List Int :=
  let w := rd s (K.LM_SOURCE m)
  let l := tabGet 0 s.mix.outLast (w % 1024)
  if bitOf w 31 then [l, tabGet 0 s.mix.outLast (w / 65536 % 1024)] else [l]
def loudTake (s : State) : State :=
  (List.range 16).foldl (fun s m =>
    if rd s (K.LM_EN m) = 0 then s
    else { s with mix.loud := tabMod {} s.mix.loud m (fun x => { x with seg := loudSample s m :: x.seg }) }) s

/-- Mean of segment energies. -/
def meanOf (l : List Nat) : Nat := if l.isEmpty then 0 else l.foldl (· + ·) 0 / l.length

/-- The integrated value: mean of the blocks above both gates; `none` with no block past them. -/
def gated (blocks : List Nat) : Option Int :=
  let a := blocks.filter (fun e => decide (Config.lufs e > -700))
  let rel := Config.lufs (meanOf a) - 100
  let b := a.filter (fun e => decide (Config.lufs e > rel))
  if b.isEmpty then none else some (Config.lufs (meanOf b))

/-- Samples in 100 ms. -/
abbrev loudSeg : Nat := 4800

/-- A 100 ms update of a meter. -/
def loudUpdate (m : Nat) (s : State) : State :=
  let x := tabGet {} s.mix.loud m
  let seg := (x.seg.drop (x.seg.length - loudSeg)).reverse
  let segs := (Config.kEnergy x.filter seg :: x.segs).take 30
  let since := if x.skip = 0 then min 4 (x.since + 1) else 0
  let blocks := if 4 ≤ since then meanOf (segs.take 4) :: x.blocks else x.blocks
  let momentary := Config.lufs (meanOf (segs.take 4))
  let put (j : Nat) (v : Option Int) (s : State) : State :=
    wr (K.LM_VALUES m j) (match v with | some i => ofInt 16 i | none => 0x8000) s
  let s := put 0 (if 4 ≤ segs.length then some momentary else none) s
  let s := put 1 (if 30 ≤ segs.length then some (Config.lufs (meanOf segs)) else none) s
  let s := put 2 (gated blocks) s
  let tp := Config.truePeak (seg.drop x.skip)
  let s := if rd s (K.LM_TRUE_PEAK m) = 0x8000 ∨ toInt 16 (rd s (K.LM_TRUE_PEAK m)) < tp then wrI 16 (K.LM_TRUE_PEAK m) tp s else s
  let hist := if 4 ≤ segs.length then (momentary :: x.history).take 30000 else x.history
  let next : Loud :=
    { seg := x.seg.take (x.seg.length - loudSeg), filter := Config.kFilter x.filter seg, segs := segs, blocks := blocks,
      since := since, history := hist }
  { s with mix.loud := tabSet {} s.mix.loud m next }

/-- LOUDNESS_UPDATE: of each enabled meter whose 100 ms are full. -/
def execLoudnessUpdate (s : State) : Res :=
  .next ((List.range 16).foldl (fun s m =>
    if rd s (K.LM_EN m) = 1 ∧ loudSeg ≤ (tabGet {} s.mix.loud m).seg.length then loudUpdate m s else s) s)

/-- Integration and true peak restart. -/
def loudRestart (m : Nat) (s : State) : State :=
  wr (K.LM_VALUES m 2) 0x8000 (wr (K.LM_TRUE_PEAK m) 0x8000
    { s with mix.loud := tabMod {} s.mix.loud m (fun x =>
      { x with blocks := [], since := 0, skip := x.seg.length }) })

/-- LM_RESET: key 6700h + m:07. -/
def writeLmReset (inst : Inst) (tag : Nat) (m : Fin 16) (s : State) : State :=
  runCmd inst tag (0x6700 + m.val) 7 .ok (loudRestart m.val) s

/-- A meter is enabled or disabled: it measures from enable on. -/
def loudEn (m v : Nat) (s : State) : State :=
  if rd s (K.LM_EN m) = v then s
  else
    let s := wr (K.LM_EN m) v { s with mix.loud := tabSet {} s.mix.loud m {} }
    loudRestart m (wr (K.LM_VALUES m 0) 0x8000 (wr (K.LM_VALUES m 1) 0x8000 s))

/-- LM_HISTORY: oldest first. -/
def loudHistory (s : State) (m : Nat) : Bytes :=
  (tabGet {} s.mix.loud m).history.reverse.flatMap (fun v => leBytes 2 (ofInt 16 v))

end Sys2Proof.Machine
end

