-- ==== Sys2Proof/Machine/Talker.lean ====
section
/-! DEFINITION. The talker manager, interpretation and the choice of candidates (R217–R232). -/
namespace Sys2Proof.Machine

/-! ## Identities and counts (R221, R222) -/

def tmUpd (f : Tm → Tm) (s : State) : State := { s with mix.tm := f s.mix.tm }

/-- The talker manager works in HALL and HYBRID. -/
def tmActive (s : State) : Bool := modeOf s == mHall || modeOf s == mHybrid

/-- Identities: [16] KIND, [15:0] number. -/
def legIdent (leg : Nat) : Nat := 65536 + leg
def isLeg (id : Nat) : Bool := decide (65536 ≤ id)
def identNum (id : Nat) : Nat := id % 65536

/-- Bidirectional legs, and a leg that is up (Table FWD-1). -/
abbrev bidirLegs : Nat := 4096
def legUp (s : State) (l : Nat) : Bool := rd s (K.LEG_STATE l) == 1 || rd s (K.LEG_STATE l) == 2

/-- A request that changes nothing, or is refused. -/
def tmRefuse (s : State) : State := bump K.TM_REFUSED s

/-- Open talkers that count against TM_MAX_OPEN. -/
def tmCount (s : State) : Nat := (s.mix.tm.opened.filter (fun t => !t.voice)).length
def tmBelow (s : State) : Bool := decide (tmCount s < rd s K.TM_MAX_OPEN)

def tmOpenOf (s : State) (id : Nat) : Option Talker := s.mix.tm.opened.find? (fun t => t.ident == id)

/-- The delegate talker open longest. -/
def tmLongest (s : State) (ok : Talker → Bool) : Option Talker :=
  s.mix.tm.opened.find? (fun t => !t.chair && !t.voice && ok t)

/-- R222: the lowest slot of a trunk that is neither assigned nor claimed; booth slots are claimed (R218). -/
def tmFreeSlot (s : State) (t : Nat) : Option Nat :=
  (List.range 32).find? (fun k => claimOwner s 5 (t * 32 + k) == 0 && rd s (K.SLOT_OWNER_FLD t k) == 0)

/-- The frame of a leg's group. -/
def groupFrame (s : State) (g : Nat) : Instant := if rd s (K.SE_FRAME g) = 0 then 10 * ms1 else 20 * ms1
def legFrame (s : State) (leg : Nat) : Instant := groupFrame s (legGroup s leg)

/-! ## T_s and node actions (R223) -/

/-- T_s of a decision; none while a leg that opens is no candidate. -/
def decisionTs (s : State) (d : Decision) : Option Instant :=
  let base := d.closes.foldl (fun b t => max b t.ts) (d.td + rd s K.TM_LEAD * ms1)
  let opening := (d.opens.filter (fun t => isLeg t.ident)).map (fun t => identNum t.ident)
  let legs := opening ++ (d.closes.filter (fun t => isLeg t.ident)).map (fun t => identNum t.ident)
  if legs.isEmpty then some (ceilTo framePeriod base)
  else if opening.any (fun l => (candOf s l).isNone) then none
  else
    let base := opening.foldl (fun b l => match candOf s l with
      | some c => max b ((tabGet {} s.mix.cands c).since + 20 * ms1)
      | none => b) base
    some (ceilTo (legs.foldl (fun g l => max g (legFrame s l)) 1) base)

/-- The reserve of trunk launch slots is filled up to 16 on each present trunk. -/
def tmRefillTrunk (t : Nat) : Nat → State → State
  | 0, s => s
  | n + 1, s =>
    if 16 ≤ (s.mix.tm.reserve.filter (fun i => i / 256 == t)).length then s
    else match lowestFree s 6 (t * 256) 256 with
      | none => s
      | some i => tmRefillTrunk t n (tmUpd (fun x => { x with reserve := x.reserve ++ [i] }) (setClaim 6 i (ownFw 0) s))
def tmRefill (s : State) : State := (presentTrunks s).foldl (fun s t => tmRefillTrunk t 16 s) s

/-- Give a reserved launch slot of a trunk back for a launch to claim. -/
def tmTakeReserve (t : Nat) (s : State) : State :=
  match s.mix.tm.reserve.find? (fun i => i / 256 == t) with
  | some i => tmUpd (fun x => { x with reserve := x.reserve.erase i }) (setClaim 6 i 0 s)
  | none => s

/-- Arm a node action at an instant; one that cannot be armed fails. -/
def tmArm (n action param : Nat) (at_ : Instant) (s : State) : State :=
  let e := (firstEp s n etMic).getD 0
  let r : LaunchRec := { time := at_ / ns1, frac := at_ % ns1, typ := ltNodeAction, target := n,
                         arg := e + action * 16 + param * 256 }
  match armDevice 0 r (tmTakeReserve (nodeTrunk n) s) with
  | some (_, s) => s
  | none => tmUpd (fun x => { x with failed := x.failed ++ [n] }) s

/-- The sample boundary 240 samples after an instant's. -/
def after240 (t : Instant) : Instant := sampleBoundary (sampleAtOrAfter t + ramp240)

/-- Arm the node actions of a decision in order: closes, then opens, then releases; a desk that replaces another takes
its slot at the same instant (R218). -/
def tmArmAll (d : Decision) (ts : Instant) (s : State) : State :=
  let nodes (l : List Talker) := l.filter (fun t => !isLeg t.ident)
  let replaced (t : Talker) : Bool := t.desk.isSome && d.opens.any (fun u => u.desk == t.desk)
  let s := (nodes d.closes).foldl (fun s t =>
    let s := tmArm t.ident 0 0 ts s
    if replaced t then tmArm t.ident 4 (t.slot.getD 0 % 32) ts s else s) s
  let s := (nodes d.opens).foldl (fun s t => tmArm t.ident 1 0 ts (tmArm t.ident 3 (t.slot.getD 0 % 32) ts s)) s
  let s := (nodes d.closes).foldl (fun s t =>
    if replaced t then s else tmArm t.ident 4 (t.slot.getD 0 % 32) (after240 ts) s) s
  tmRefill s

/-- Enter a decision: its T_s and its actions now, or when its legs have become candidates. -/
def tmSchedule (d : Decision) (s : State) : State :=
  match decisionTs s d with
  | none => tmUpd (fun x => { x with decisions := x.decisions ++ [d] }) s
  | some ts =>
    let own (t : Talker) : Talker := if d.opens.any (fun u => u.ident == t.ident) then { t with ts := ts } else t
    let d := { d with at_ := some ts, opens := d.opens.map own }
    let langs := tabMap {} s.mix.langs (fun _ x => { x with desk := x.desk.map (fun p => (p.1, own p.2)) })
    let s := { s with mix.langs := langs }
    tmArmAll d ts (tmUpd (fun x => { x with decisions := x.decisions ++ [d], opened := x.opened.map own }) s)

/-! ## Opening and closing (R221, R222) -/

/-- A new talker of an identity, with the slot it will use claimed; none when a node finds no slot. -/
def tmNew (id : Nat) (voice : Bool) (s : State) : Option Talker × State :=
  let num := s.mix.tm.opens
  if isLeg id then
    (some { ident := id, input := candBase + (candOf s (identNum id)).getD 0, voice := voice, num := num },
      tmUpd (fun x => { x with opens := num + 1 }) s)
  else
    let t := nodeTrunk id
    match tmFreeSlot s t with
    | none => (none, s)
    | some k =>
      (some { ident := id, input := trunkBase + t * 32 + k, chair := nodeClass s id == clsChair,
              slot := some (t * 32 + k), num := num },
        setClaim 5 (t * 32 + k) (ownFw 0) (tmUpd (fun x => { x with opens := num + 1 }) s))

/-- An opening that never came gives its slot up. -/
def tmUnslot (t : Talker) (s : State) : State :=
  match t.slot with | some k => unclaim 5 k (ownFw 0) s | none => s

/-- Close some talkers: those whose opening has no T_s yet leave their decision; the others close at the T_s of this one.
Answers the latter. -/
def tmDrop : List Nat → State → List Talker × State
  | [], s => ([], s)
  | id :: rest, s =>
    match tmOpenOf s id with
    | none => tmDrop rest s
    | some t =>
      let s := tmUpd (fun x => { x with opened := x.opened.filter (fun u => u.ident != id) }) s
      let waiting := s.mix.tm.decisions.any (fun d => d.at_.isNone && d.opens.any (fun u => u.ident == id))
      if waiting then
        tmDrop rest (tmUnslot t (tmUpd (fun x => { x with decisions := x.decisions.map (fun d =>
          if d.at_.isNone then { d with opens := d.opens.filter (fun u => u.ident != id) } else d) }) s))
      else
        let r := tmDrop rest s
        (t :: r.1, r.2)

/-- The class of a request: none when it cannot talk (R222); a leg counts as a delegate. -/
def tmWho (s : State) (id : Nat) : Option Bool :=
  if isLeg id then (if legGroup s (identNum id) = 0xFF then none else some false)
  else if (firstEp s id etMic).isNone then none
  else some (nodeClass s id == clsChair)

/-- Queued requests that open now: in QUEUE mode while places are free, oldest first; a chair at the head opens as soon
as it finds a slot. A node that finds no slot waits; a leg that has lost its group is refused. -/
def tmPromote : Nat → State → List Talker × State
  | 0, s => ([], s)
  | n + 1, s =>
    match s.mix.tm.queue with
    | [] => ([], s)
    | id :: rest =>
      let out (s : State) : State := tmUpd (fun x => { x with queue := rest }) s
      match tmWho s id with
      | none => tmPromote n (tmRefuse (out s))
      | some chair =>
        if !chair && (rd s K.TM_MODE != 1 || !tmBelow s) then ([], s)
        else match tmNew id false s with
          | (none, s) => ([], s)
          | (some t, s) =>
            let r := tmPromote n (tmUpd (fun x => { x with opened := x.opened ++ [t] }) (out s))
            (t :: r.1, r.2)

/-- One decision: talkers that open, identities that close, what then opens from the queue, and a change of ducking. -/
def tmDecide (opens : List Talker) (closes : List Nat) (promote : Bool) (duck : Option Bool) (s : State) : State :=
  let r := tmDrop closes s
  let s := tmUpd (fun x => { x with opened := x.opened ++ opens }) r.2
  let p := if promote then tmPromote 64 s else ([], s)
  let d : Decision := { td := p.2.isb.now, opens := opens ++ p.1, closes := r.1, duck := duck }
  if d.opens.isEmpty && d.closes.isEmpty && duck.isNone then p.2 else tmSchedule d p.2

/-- A place or a slot has come free. -/
def tmFollow (s : State) : State := if tmActive s then tmDecide [] [] true none s else s

/-- Queue a request up to TM_QUEUE_LEN, else refuse it. -/
def tmQueue (id : Nat) (s : State) : State :=
  if s.mix.tm.queue.length < rd s K.TM_QUEUE_LEN then tmUpd (fun x => { x with queue := x.queue ++ [id] }) s
  else tmRefuse s

/-- R222: a CHAIR request opens; at the limit the delegate open longest closes. Without a slot the delegate open longest
on its trunk closes, and the chair waits at the head of the queue for the slot (assumption 25). -/
def tmChair (id : Nat) (duck : Option Bool) (s : State) : State :=
  match tmNew id false s with
  | (some t, s) =>
    let victim := if tmBelow s then none else tmLongest s (fun _ => true)
    tmDecide [t] (victim.toList.map (·.ident)) false duck s
  | (none, s) =>
    let victim := tmLongest s (fun u => !isLeg u.ident && nodeTrunk u.ident == nodeTrunk id)
    let s := tmUpd (fun x => { x with queue := id :: x.queue }) (bump K.TM_NO_SLOT s)
    tmDecide [] (victim.toList.map (·.ident)) false duck s

/-- Table MIX-5: a delegate's request. -/
def tmDelegate (id : Nat) (s : State) : State :=
  let mode := rd s K.TM_MODE
  if mode = 3 then tmQueue id s
  else
    match tmNew id false s with
    | (none, s) =>
      let s := bump K.TM_NO_SLOT s
      if mode = 1 then tmQueue id s else tmRefuse s
    | (some t, s') =>
      if tmBelow s then tmDecide [t] [] false none s'
      else if mode = 1 then tmQueue id s
      else if mode = 2 then tmDecide [t] ((tmLongest s (fun _ => true)).toList.map (·.ident)) false none s'
      else tmRefuse s

/-! ## Interpreter desks (R218) -/

/-- The enabled desk of a node. -/
def deskOf (s : State) (n : Nat) : Option Nat :=
  (List.range 256).find? (fun d => rd s (K.DESK_EN d) == 1 && rd s (K.DESK_NODE d) == n)
def deskLang (s : State) (d : Nat) : Nat := rd s (K.DESK_LANG d)
def langOf (s : State) (l : Nat) : Lang := tabGet {} s.mix.langs l
def langUpd (l : Nat) (f : Lang → Lang) (s : State) : State := { s with mix.langs := tabMod {} s.mix.langs l f }

/-- The language whose live desk is a node's. -/
def deskLive (s : State) (n : Nat) : Option Nat :=
  (s.mix.langs.find? (fun e => match e.2.desk with | some (_, t) => t.ident == n | none => false)).map (·.1)

/-- Close a language's live desk with what opens in its place. -/
def deskDecide (l : Nat) (open_ : Option (Nat × Talker)) (s : State) : State :=
  let closes := (langOf s l).desk.toList.map (·.2)
  let s := langUpd l (fun x => { x with desk := open_ }) s
  let d : Decision := { td := s.isb.now, opens := open_.toList.map (·.2), closes := closes }
  if d.opens.isEmpty && d.closes.isEmpty then s else tmSchedule d s

/-- REQ_SPEAK of an interpreter: its language's desks interlock, or override one another (BOOTH_MODE). -/
def deskSpeak (n : Nat) (s : State) : State :=
  match deskOf s n with
  | none => tmRefuse s
  | some d =>
    let l := deskLang s d
    match boothInput s l with
    | none => tmRefuse s
    | some i =>
      let t : Talker := { ident := n, input := i, slot := some (i - trunkBase), desk := some l }
      match (langOf s l).desk with
      | none => deskDecide l (some (d, t)) s
      | some (_, u) =>
        if u.ident = n ∨ rd s (K.BOOTH_MODE (l - 1)) = 0 then tmRefuse s else deskDecide l (some (d, t)) s

/-- REQ_SPEAK of a desk would open it now. -/
def deskOpens (s : State) (n : Nat) : Bool :=
  match deskOf s n with
  | none => false
  | some d =>
    let l := deskLang s d
    (boothInput s l).isSome && ((langOf s l).desk.isNone || rd s (K.BOOTH_MODE (l - 1)) != 0)

/-! ## Requests (R221) -/

/-- REQ_SPEAK in HALL or HYBRID, or SPEAK of a leg. -/
def tmSpeak (id : Nat) (s : State) : State :=
  if !isLeg id && nodeClass s id == clsInterpreter then deskSpeak id s
  else if (tmOpenOf s id).isSome || s.mix.tm.queue.contains id then tmRefuse s
  else if isLeg id && rd s K.TM_REMOTE == 1 then s
  else match tmWho s id with
    | none => tmRefuse s
    | some true => tmChair id none s
    | some false => tmDelegate id s

/-- REQ_CANCEL, CANCEL or TM_CLOSE: an open talker closes, a queued one leaves the queue. -/
def tmCancel (id : Nat) (s : State) : State :=
  match deskLive s id with
  | some l => if isLeg id then s else deskDecide l none s
  | none =>
    if (tmOpenOf s id).isSome then tmDecide [] [id] true none s
    else if s.mix.tm.queue.contains id then tmUpd (fun x => { x with queue := x.queue.erase id }) s
    else tmRefuse s

/-- Talkers that priority ducks (R225). -/
def ducked (s : State) (t : Talker) : Bool := !t.chair && (!isLeg t.ident || rd s K.TM_PRIO_REMOTE == 1)

/-- R225: PRIORITY_ON: the chair's microphone opens, if it was not open, and delegates are ducked from T_s. -/
def tmPriorityOn (n : Nat) (s : State) : State :=
  if tabGet 0 s.mix.tm.prio n ≠ 0 then s
  else if (firstEp s n etMic).isNone then tmRefuse s
  else
    let was := (tmOpenOf s n).isSome
    let s := tmUpd (fun x => { x with prio := tabSet 0 x.prio n (if was then 2 else 1), queue := x.queue.erase n }) s
    if was then tmDecide [] [] false (some true) s else tmChair n (some true) s

/-- R225: PRIORITY_OFF: the chair's microphone closes unless it was open before; after the last one TM_PRIO_MODE restores
the ducked gains or closes the ducked talkers. -/
def tmPriorityOff (n : Nat) (s : State) : State :=
  let held := tabGet 0 s.mix.tm.prio n
  if held = 0 then s
  else
    let s := tmUpd (fun x => { x with prio := tabSet 0 x.prio n 0 }) s
    let own := if held = 1 then [n] else []
    let s := if held = 1 then tmUpd (fun x => { x with queue := x.queue.erase n }) s else s
    if s.mix.tm.prio.isEmpty then
      let more := if rd s K.TM_PRIO_MODE = 1 then
        (s.mix.tm.opened.filter (fun t => ducked s t && !t.voice)).map (·.ident) else []
      tmDecide [] (own ++ more) true (some false) s
    else tmDecide [] own true none s

/-- The oldest event of a code admitted and not yet handled, taken off the list: the node, and whether the hub handles
it. `vote` takes any VOTE code. -/
def takeAdmitted (ok : Nat → Bool) (s : State) : Option ((Nat × Nat × Bool) × State) :=
  (s.fld.admitted.find? (fun e => ok e.2.1)).map (fun e => (e, { s with fld.admitted := s.fld.admitted.erase e }))

/-- An event is handled by the talker manager in HALL and HYBRID, by Hall Default when the field die admitted it. -/
def handleEvent (code : Nat) (hub field : Nat → State → State) (s : State) : State :=
  match takeAdmitted (· == code) s with
  | none => s
  | some ((n, _, byHub), s) => if byHub then (if tmActive s then hub n s else s) else field n s

/-- REQ_SPEAK. -/
def execReqSpeak (s : State) : Res := .next (handleEvent evReqSpeak tmSpeak hdReqSpeak s)
/-- REQ_CANCEL. -/
def execReqCancel (s : State) : Res := .next (handleEvent evReqCancel tmCancel hdReqCancel s)
/-- PRIORITY_ON. -/
def execPriorityOn (s : State) : Res := .next (handleEvent evPriorityOn tmPriorityOn hdPriorityOn s)
/-- PRIORITY_OFF. -/
def execPriorityOff (s : State) : Res := .next (handleEvent evPriorityOff tmPriorityOff hdPriorityOff s)

/-- VOTE_K: an admitted vote is counted (R95). -/
def execVoteK (s : State) : Res :=
  match takeAdmitted isVote s with
  | none => .next s
  | some ((n, code, _), s) => .next (countVote n (code - 4) s)

/-- ENDPOINT_CHANGE: the change is read by an endpoint poll (R80, Table FLD-7). -/
def execEndpointChange (s : State) : Res :=
  match takeAdmitted (· == evEndpointChange) s with
  | none => .next s
  | some ((n, _, _), s) => .next (pushCtrl (nodeTrunk n) (pollCtrl 5 (nodeIndex n) 2) s)

/-- MESSAGE: the node is polled for a request segment (R81). -/
def execMessage (s : State) : Res :=
  match takeAdmitted (· == evMessage) s with
  | none => .next s
  | some ((n, _, _), s) => .next (pushCtrl (nodeTrunk n) (pollCtrl 2 (nodeIndex n) 3) s)

/-- FAULT: the node's status is read by a poll; the event has no other effect (R80). -/
def execFault (s : State) : Res :=
  match takeAdmitted (· == evFault) s with
  | none => .next s
  | some ((n, _, _), s) => .next (pushCtrl (nodeTrunk n) (pollCtrl 5 (nodeIndex n) 0) s)

/-! ## Talk gains (R224, R225) -/

/-- Square root by bits, rounded down. -/
def isqrt : Nat → Nat → Nat → Nat
  | 0, _, r => r
  | b + 1, x, r => let c := r + 2 ^ b; isqrt b x (if c * c ≤ x then c else r)

/-- g(m) = ⌊32,768 ÷ √m + 0.5⌋. -/
def tmGain (m : Nat) : Nat := (isqrt 17 (4294967296 / m) 0 + 1) / 2

/-- The talk gain target of a live talker. -/
def tmTarget (s : State) (t : Talker) : Int :=
  let m := s.mix.tm.live.length
  let g := if rd s K.TM_NOM = 1 ∧ m ≠ 0 then tmGain m else 0x8000
  ((if s.mix.tm.ducking && ducked s t then rd s K.TM_PRIO_ATTEN * g / 0x8000 else g : Nat) : Int)

/-- Set the talk gain of an input with a ramp of `n` samples, at once with none. -/
def setTalk (i : Nat) (v : Int) (n : Nat) (s : State) : State :=
  if (rd s (K.IN_TALK i) : Int) = v ∧ n ≠ 0 then s
  else
    let t := if n = 0 then tabErase s.mix.talk i else rampBegin i (rd s (K.IN_TALK i) : Nat) v n s.mix.talk
    wr (K.IN_TALK i) v.toNat { s with mix.talk := t }

/-- Every live talker's gain goes to its target over 240 samples. -/
def tmRetarget (s : State) : State :=
  s.mix.tm.live.foldl (fun s t => setTalk t.input (tmTarget s t) ramp240 s) s

/-! ## T_s (R223, R231, R232) -/

/-- A talker closes at T_s. -/
def tmCloseNow (s : State) (t : Talker) : State :=
  let s := tmUpd (fun x => { x with live := x.live.filter (fun u => u.ident != t.ident) }) s
  match t.desk with
  | some l => langUpd l (fun x => { x with live := false, lastLive := clk s }) s
  | none =>
    if isLeg t.ident then
      let f := legFrame s (identNum t.ident)
      let back := (after240 s.isb.now / f + 1) * f
      let legs := tabMod {} s.mix.legs (identNum t.ident) (fun x => { x with backAt := some back, quietAt := none })
      setTalk t.input 0 ramp240 { s with mix.legs := legs }
    else s

/-- Lowest free talker position. -/
def freePosition (s : State) : Option Nat := (List.range 32).find? (fun k => rd s (K.TP_LEG k) == 0xFFFF)

/-- H_L returns from the floor when a desk opens, or follows it (R220). -/
def langFade (l : Nat) (fallback : Bool) (s : State) : State :=
  langUpd l (fun x => { x with
    fallback := fallback, fade := fadeTo (b2n x.fallback) (b2n fallback) ramp240 s.isb.now x.fade }) s

/-- A talker opens at T_s; a leg that finds no position stays closed (R231). -/
def tmOpenNow (s : State) (t : Talker) : State :=
  match t.desk with
  | some l =>
    let s := if (langOf s l).fallback then langFade l false s else s
    langUpd l (fun x => { x with live := true }) s
  | none =>
    if isLeg t.ident then
      let leg := identNum t.ident
      match candOf s leg, freePosition s with
      | some c, some k =>
        let t := { t with input := candBase + c }
        let s := wr (K.CAND_TALK c) k (wr (K.TP_SINCE k) (nowNs s) (wr (K.TP_LEG k) leg s))
        let fix (u : Talker) : Talker := if u.ident = t.ident then t else u
        let s := tmUpd (fun x => { x with live := x.live ++ [t], opened := x.opened.map fix }) s
        setTalk t.input (tmTarget s t) ramp240 s
      | _, _ => tmRefuse (tmUpd (fun x => { x with opened := x.opened.filter (fun u => u.ident != t.ident) }) s)
    else
      let s := tmUpd (fun x => { x with live := x.live ++ [t] }) s
      setTalk t.input (tmTarget s t) 0 s

/-- A decision takes effect. -/
def tmApply (d : Decision) (s : State) : State :=
  let s := tmUpd (fun x => { x with decisions := x.decisions.erase d, ducking := d.duck.getD x.ducking }) s
  tmRetarget (d.opens.foldl tmOpenNow (d.closes.foldl tmCloseNow s))

/-- R223: talkers of failed node actions are removed. -/
def tmFailures (s : State) : State :=
  let f := s.mix.tm.failed
  f.foldl (fun s n =>
    match deskLive s n with
    | some l => tmRefuse (deskDecide l none s)
    | none => if (tmOpenOf s n).isSome then tmDecide [] [n] true none (tmRefuse s) else s)
    (tmUpd (fun x => { x with failed := [] }) s)

/-- The T_s of a decision has come. -/
def decisionDue (s : State) (d : Decision) : Bool := match d.at_ with | some t => decide (t ≤ s.isb.now) | none => false

/-- TALKER_SWITCH: the decision whose T_s has come, the oldest first. -/
def execTalkerSwitch (s : State) : Res :=
  match s.mix.tm.decisions.find? (decisionDue s) with
  | none => .next (tmFailures s)
  | some d => .next (tmFailures (tmApply d s))

/-- LAUNCH_REPORT: received by the hub. A failed action of the talker manager removes its talker; when a slot it released
is free its input is no longer governed, and a waiting request may open. -/
def hubReport (num trunk state late reason : Nat) (s : State) : State :=
  let l := launchOf s num
  let s := launchReport num trunk state late reason s
  if l.active && l.firmware == some 0 && l.typ == ltNodeAction then
    let i := trunkBase + nodeTrunk l.target * 32 + naSlot l.arg
    let freed := naAction l.arg == 4 && !(launchOf s num).active && state != lsFailed
      && !s.mix.tm.opened.any (fun t => t.input == i)
    let s := if freed then setTalk i 0x8000 0 s else s
    tmRefill (tmFollow (tmFailures s))
  else s

/-- LAUNCH_REPORT. -/
def execLaunchReport (h : LHdr) (num trunk state late reason : Nat) (s : State) : Res :=
  onLanok true true h
    (hubGets (.launchReport num trunk state late reason) (hubReport num trunk state late reason)) s

/-! ## Commands (R222, R218–R220) -/

/-- An identity is well formed, and names a node or a bidirectional leg. -/
def identOk (id : Nat) : Bool := decide (id < 131072) && (if isLeg id then decide (identNum id < bidirLegs) else decide (id < 16384))

/-- TM_GRANT: key 6420:0E. -/
def grantStatus (id : Nat) (s : State) : Status :=
  checks [
    (!identOk id || (tmWho s id).isNone, .range),
    (!tmActive s, .mode),
    (!isLeg id && nodeClass s id == clsInterpreter && (deskLive s id).isNone && !deskOpens s id, .busy),
    ((tmOpenOf s id).isNone && !(!isLeg id && nodeClass s id == clsInterpreter) && (!tmBelow s || (!isLeg id && (tmFreeSlot s (nodeTrunk id)).isNone)), .busy)]
def grant (id : Nat) (s : State) : State :=
  if (tmOpenOf s id).isSome then s
  else if !isLeg id && nodeClass s id == clsInterpreter then upd (deskLive s id).isNone (deskSpeak id) s else
  match tmNew id false (tmUpd (fun x => { x with queue := x.queue.erase id }) s) with
  | (some t, s) => tmDecide [t] [] false none s
  | (none, s) => s
def writeTmGrant (inst : Inst) (tag id : Nat) (s : State) : State :=
  let noSlot := tmActive s && identOk id && !isLeg id && (tmOpenOf s id).isNone && (tmFreeSlot s (nodeTrunk id)).isNone
  runCmdV inst tag 0x6420 0x0E (leBytes 4 id) (grantStatus id s) (grant id) (upd noSlot (bump K.TM_NO_SLOT) s)

/-- TM_CLOSE: key 6420:0F. -/
def writeTmClose (inst : Inst) (tag id : Nat) (s : State) : State :=
  runCmdV inst tag 0x6420 0x0F (leBytes 4 id) (checks [(!identOk id, .range), (!tmActive s, .mode)]) (tmCancel id) s

/-- TM_CLEAR_QUEUE: key 6420:10. -/
def writeTmClearQueue (inst : Inst) (tag : Nat) (s : State) : State :=
  runCmd inst tag 0x6420 0x10 .ok (tmUpd (fun x => { x with queue := [] })) s

/-- The hub sends a node SET item 2: the channel its language key selects (R81, R219). -/
def setLanguage (n ch : Nat) (s : State) : State :=
  pushCtrl (nodeTrunk n) { rank := 3, dest := nodeIndex n, typ := 4, payload := [2, 0, 0, 0] ++ leBytes 8 ch }
    (wr (K.NODE_LANGUAGE n) ch s)

/-- R219: every enabled desk of a language hears its relay channel. -/
def relaySend (l : Nat) (s : State) : State :=
  (List.range 256).foldl (fun s d =>
    if rd s (K.DESK_EN d) = 1 ∧ deskLang s d = l then setLanguage (rd s (K.DESK_NODE d)) (rd s (K.RELAY_SRC (l - 1))) s else s) s

/-- R219: a relay chain from `from_` comes back to `l`. -/
def relayLoops (s : State) (l : Nat) : Nat → Nat → Bool
  | 0, _ => false
  | n + 1, from_ => from_ == l || (from_ != 0 && relayLoops s l n (rd s (K.RELAY_SRC (from_ - 1))))

/-- DESK_EN: key 6800h + d:03. -/
def deskEnStatus (d : Nat) (on : Bool) (s : State) : Status :=
  let n := rd s (K.DESK_NODE d)
  if !on then .ok
  else if nodeClass s n ≠ clsInterpreter ∨ rd s (K.BOOTH_TRUNK (deskLang s d - 1)) ≠ nodeTrunk n then .range else .ok
def deskEn (d : Nat) (on : Bool) (s : State) : State :=
  let n := rd s (K.DESK_NODE d)
  let l := deskLang s d
  let s := wr (K.DESK_EN d) (b2n on) s
  if on then setLanguage n (rd s (K.RELAY_SRC (l - 1))) s
  else if deskLive s n = some l then deskDecide l none s else s
def writeDeskEn (inst : Inst) (tag : Nat) (d : Fin 256) (on : Bool) (s : State) : State :=
  runWrite inst tag (0x6800 + d.val) 3 on (deskEnStatus d.val on s) (deskEn d.val on) s

/-- LANGUAGE_FALLBACK: no desk of a language (1–31) has been live for FALLBACK_DELAY. -/
def execLanguageFallback (l : Nat) (s : State) : Res :=
  let x := langOf s l
  if l = 0 ∨ 32 ≤ l ∨ rd s (K.FALLBACK (l - 1)) = 0 ∨ x.live = true ∨ x.fallback = true
      ∨ clk s < x.lastLive + rd s (K.FALLBACK_DELAY (l - 1)) * ms1 then .next s
  else .next (langFade l true s)

/-- LANG_STATE. -/
def langState (s : State) (l : Nat) : Nat := let x := langOf s l; if x.live then 1 else if x.fallback then 2 else 0

/-! ## Candidates (R227–R229) -/

def candAt (s : State) (c : Nat) : Cand := tabGet {} s.mix.cands c
def candUpd (c : Nat) (f : Cand → Cand) (s : State) : State := { s with mix.cands := tabMod {} s.mix.cands c f }
def legAudio (s : State) (l : Nat) : LegAudio := tabGet {} s.mix.legs l
def legAudioUpd (l : Nat) (f : LegAudio → LegAudio) (s : State) : State := { s with mix.legs := tabMod {} s.mix.legs l f }

/-- Give a position to a leg, or to none. A replaced leg's audio ramps out, then the new one's ramps in. -/
def candAssign (c : Nat) (leg : Option Nat) (s : State) : State :=
  let old := candAt s c
  let s := upd (old.leg.isSome && leg.isSome) (bump K.PRESEL_CHANGES) s
  let fresh : Cand := { leg := leg, since := s.isb.now, packetAt := clk s }
  let new : Cand := if old.leg.isNone then { fresh with fade := rampTo 0x8000 ramp240 {} } else
    { fresh with oldWait := old.wait, oldLast := old.last, oldFade := some (rampTo 0 ramp240 old.fade) }
  let s := wr (K.CAND_TALK c) 0xFF (wr (K.CAND_SINCE c) (nowNs s) (wr (K.CAND_LEG c) (leg.getD 0xFFFF) s))
  candUpd c (fun _ => new) s

/-- R228: lv of a leg at an instant. -/
def legLevel (s : State) (l : Nat) : Nat :=
  let win := rd s K.PRESEL_WINDOW * ms1
  ((legAudio s l).levels.filter (fun e => decide (s.isb.now < e.1 + win ∧ e.1 ≤ s.isb.now))).foldl (fun m e => min m e.2) 127

/-- A leg is a talker: open, opened by a decision to come, or closing. -/
def legTalker (s : State) (l : Nat) : Bool :=
  (s.mix.tm.opened ++ s.mix.tm.live).any (fun t => t.ident == legIdent l)
def legPinned (s : State) (l : Nat) : Bool := rd s (K.LEG_PIN l) == 1 || legTalker s l
def legQueued (s : State) (l : Nat) : Bool := s.mix.tm.queue.contains (legIdent l)

/-- Legs preselection looks at: bidirectional, up, in a group; ascending. -/
def preselLegs (s : State) : List Nat :=
  (listedKeys s 0x6680 2).filter (fun l => decide (l < bidirLegs) && legGroup s l != 0xFF && legUp s l)

/-- The quietest candidate that passes a test; ties go to the higher leg number. -/
def quietest (s : State) (ok : Nat → Cand → Bool) : Option (Nat × Nat) :=
  s.mix.cands.foldl (fun b e => match e.2.leg with
    | some l =>
      if ok l e.2 then
        match b with
        | none => some (e.1, l)
        | some (_, m) => if legLevel s m < legLevel s l ∨ (legLevel s m = legLevel s l ∧ m < l) then some (e.1, l) else b
      else b
    | none => b) none

/-- The lowest free position. -/
def freeCand (s : State) : Option Nat := (List.range 64).find? (fun c => (candAt s c).leg.isNone)

/-- Pass 1: pinned legs, ascending. -/
def presel1 (s : State) (p : Nat) : State :=
  if (candOf s p).isSome then s
  else match freeCand s with
    | some c => candAssign c (some p) s
    | none => match quietest s (fun l _ => !legPinned s l) with
      | some (c, _) => candAssign c (some p) s
      | none => s

/-- Pass 2: queued managed talkers, in queue order. -/
def presel2 : List Nat → State → State
  | [], s => s
  | q :: rest, s =>
    if (candOf s q).isSome then presel2 rest s
    else match freeCand s with
      | some c => presel2 rest (candAssign c (some q) s)
      | none => match quietest s (fun l _ => !legPinned s l && !legQueued s l) with
        | some (c, _) => presel2 rest (candAssign c (some q) s)
        | none => s

/-- Pass 3: level order. A leg replaced in this preselection is not taken back in it (assumption 26). -/
def presel3 (legs : List Nat) : Nat → List Nat → State → State
  | 0, _, s => s
  | n + 1, out, s =>
    let xs := legs.filter (fun l => (candOf s l).isNone && decide (legLevel s l < 127) && !out.contains l)
    match xs.foldl (fun b l => match b with
      | none => some l
      | some m => if legLevel s l < legLevel s m then some l else b) (none : Option Nat) with
    | none => s
    | some x =>
      match freeCand s with
      | some c => presel3 legs n out (candAssign c (some x) s)
      | none =>
        let hold := rd s K.PRESEL_HOLD * ms1
        match quietest s (fun l e => !legPinned s l && !legQueued s l && decide (e.since + hold ≤ s.isb.now)) with
        | none => s
        | some (c, w) =>
          if legLevel s x + rd s K.PRESEL_HYST ≤ legLevel s w then presel3 legs n (w :: out) (candAssign c (some x) s) else s

/-- Decisions that waited for a candidate get their T_s. -/
def tmRetry (s : State) : State :=
  let w := s.mix.tm.decisions.filter (fun d => d.at_.isNone)
  w.foldl (fun s d => if d.opens.isEmpty && d.closes.isEmpty && d.duck.isNone then s else tmSchedule d s)
    (tmUpd (fun x => { x with decisions := x.decisions.filter (fun d => d.at_.isSome) }) s)

/-- R227: with TM_REMOTE VOICE, candidates at or below VOICE_THRESHOLD become VOICE talkers, loudest first, while talker
positions are free. -/
def voiceOpen (s : State) : State :=
  if !tmActive s || rd s K.TM_REMOTE != 1 then s else
  let free := ((List.range 32).filter (fun k => rd s (K.TP_LEG k) == 0xFFFF)).length
    - (s.mix.tm.opened.filter (fun t => isLeg t.ident && !s.mix.tm.live.any (fun u => u.ident == t.ident))).length
  let cs := (s.mix.cands.filterMap (fun e => e.2.leg)).filter (fun l =>
    decide (legLevel s l ≤ rd s K.VOICE_THRESHOLD) && (tmOpenOf s (legIdent l)).isNone && !legTalker s l)
  let sorted := (List.range 128).flatMap (fun v => cs.filter (fun l => legLevel s l == v))
  (sorted.take free).foldl (fun s l =>
    match tmNew (legIdent l) true s with
    | (some t, s) => tmDecide [t] [] false none s
    | (none, s) => s) s

/-- The instant from which each VOICE talker's level has stayed above the threshold. -/
def voiceQuiet (s : State) : State :=
  (s.mix.tm.opened.filter (·.voice)).foldl (fun s t =>
    let l := identNum t.ident
    legAudioUpd l (fun x => { x with
      quietAt := if legLevel s l ≤ rd s K.VOICE_THRESHOLD then none else some (x.quietAt.getD (clk s)) }) s) s

/-- R228: the 64 candidate positions are assigned. -/
def preselection (s : State) : State :=
  let legs := preselLegs s
  let gone := s.mix.cands.filter (fun e => match e.2.leg with | some l => !legs.contains l | none => false)
  let s := gone.foldl (fun s e => candAssign e.1 none s) s
  let s := (legs.filter (legPinned s)).foldl presel1 s
  let s := presel2 ((s.mix.tm.queue.filter isLeg).map identNum |>.filter legs.contains) s
  let s := presel3 legs 128 [] s
  let s := (List.range 64).foldl (fun s c => match (candAt s c).leg with
    | some l => wr (K.CAND_LEVEL c) (legLevel s l) s
    | none => wr (K.CAND_LEVEL c) 127 s) s
  let s := (legs.filter (fun l => legTalker s l)).foldl (fun s l => match candOf s l, (List.range 32).find? (fun k => rd s (K.TP_LEG k) == l) with
    | some c, some k => wr (K.CAND_TALK c) k s
    | _, _ => s) s
  { (voiceQuiet (voiceOpen (tmRetry s))) with mix.preselAt := s.isb.now }
/-- PRESELECTION: the Isobar instant is a multiple of 10 ms. -/
def execPreselection (s : State) : Res := .next (if s.isb.now % (10 * ms1) = 0 then preselection s else s)

/-- VOICE_HANG_EXPIRY: a VOICE talker's level has stayed above the threshold for VOICE_HANG. -/
def execVoiceHangExpiry (leg : Nat) (s : State) : Res :=
  match tmOpenOf s (legIdent leg), (legAudio s leg).quietAt with
  | some t, some q =>
    if t.voice ∧ q + rd s K.VOICE_HANG * ms1 ≤ clk s then .next (tmDecide [] [legIdent leg] true none s) else .next s
  | _, _ => .next s

/-- CANDIDATE_CONCEAL_END: a position's packets have stopped for 60 ms: its input ramps to 0 and is STALE (R229). -/
def execCandidateConcealEnd (c : Fin 64) (s : State) : Res :=
  let x := candAt s c.val
  if x.leg.isNone ∨ x.concealed = true ∨ clk s < x.packetAt + 60 * ms1 then .next s
  else .next (candUpd c.val (fun x => { x with concealed := true, fade := rampTo 0 ramp240 x.fade }) s)

/-- R230: stereo is mixed to mono. -/
def toMono : List Int → Int
  | [] => 0
  | [x] => satS 32 x
  | l :: r :: _ => satS 32 (rnd (satS 32 l + satS 32 r) 1)

/-- A packet of a leg's audio is accepted with a level (127 without the extension), and its decoded samples are taken by
its candidate position (R228–R230). -/
def legAudioPacket (leg level pt : Nat) (payload : Bytes) (s : State) : State :=
  let keep := s.isb.now - min s.isb.now (2 * s1)
  let s := legAudioUpd leg (fun x => { x with levels := ((s.isb.now, level) :: x.levels.filter (fun e => decide (keep < e.1))) }) s
  let s := wr (K.LEG_LEVEL leg) level s
  match candOf s leg with
  | none => s
  | some c =>
    let x := legAudio s leg
    let pcm := (Config.decodeAudio pt x.decoder (nats payload)).map toMono
    let s := legAudioUpd leg (fun x => { x with decoder := Config.decoderNext pt x.decoder (nats payload) }) s
    candUpd c (fun e => { e with
      wait := e.wait ++ pcm, packetAt := clk s, concealed := false, concealRun := 0
      fade := if e.concealed then rampTo 0x8000 ramp240 e.fade else e.fade }) s

/-- The sample of a position at a boundary: a replaced leg's while it ramps out, then its own, concealed while none is
waiting. -/
def candSample (x : Cand) : Int × Cand :=
  match x.oldFade with
  | some r =>
    let v := x.oldWait.headD x.oldLast
    let x := { x with oldWait := x.oldWait.drop 1, oldLast := v }
    (applyGain 32 v (rampVal r),
      if r.k + 1 < r.n then { x with oldFade := some (rampStep r) }
      else { x with oldFade := none, oldWait := [], fade := rampTo 0x8000 ramp240 {} })
  | none =>
    let v := match x.wait with
      | y :: _ => y
      | [] => satS 32 (Config.conceal x.last x.concealRun)
    (applyGain 32 v (rampVal x.fade),
      { x with wait := x.wait.drop 1, fade := rampStep x.fade
               last := if x.wait.isEmpty then x.last else v
               concealRun := if x.wait.isEmpty then x.concealRun + 1 else 0 })

/-- The candidate inputs at a boundary. -/
def candInputs (s : State) : State :=
  s.mix.cands.foldl (fun s e =>
    if e.2.leg.isNone && e.2.oldFade.isNone then setInputs (candBase + e.1) [0] s
    else
      let r := candSample e.2
      setInputs (candBase + e.1) [r.1] (candUpd e.1 (fun _ => r.2) s)) s

/-! ## Modes and adoption (R223, R226) -/

/-- HALL or HYBRID is entered from another kind of mode: the reserve, and candidates closed until they talk. -/
def tmEnter (s : State) : State :=
  tmRefill ((List.range 64).foldl (fun s c => setTalk (candBase + c) 0 0 s) s)

/-- HALL and HYBRID are left: the reserve is freed and no input is governed; microphones stay as they are at the nodes. -/
def tmLeave (s : State) : State :=
  let s := s.mix.tm.reserve.foldl (fun s i => setClaim 6 i 0 s) s
  let s := (List.range 32).foldl (fun s k => wr (K.TP_LEG k) 0xFFFF (wr (K.TP_SINCE k) 0 s)) s
  let s := (listedKeys s 0x6410 4).foldl (fun s i => setTalk i 0x8000 0 s) s
  let s := (List.range 64).foldl (fun s c => wr (K.CAND_TALK c) 0xFF s) s
  { s with mix.tm := { opens := s.mix.tm.opens }, mix.langs := tabMap {} s.mix.langs (fun _ x => { x with desk := none, live := false }) }

/-- R226: the field die's open microphones, their slots and its waiting queue are adopted in their order. -/
def tmAdopt (s : State) : State :=
  let h := s.fld.hd
  let s := h.opened.foldl (fun s m =>
    let n := m / 16
    if (tmOpenOf s n).isSome then s
    else
      let slot := (epOf s n (m % 16)).slot.getD 0
      let k := nodeTrunk n * 32 + slot
      let t : Talker := { ident := n, input := trunkBase + k, chair := nodeClass s n == clsChair, slot := some k,
                          num := s.mix.tm.opens, ts := s.isb.now }
      setClaim 5 k (ownFw 0) (tmUpd (fun x => { x with opened := x.opened ++ [t], live := x.live ++ [t], opens := x.opens + 1 }) s)) s
  let waiting := h.queue.filter (fun n => !s.mix.tm.queue.contains n && (tmOpenOf s n).isNone)
  tmRetarget (tmUpd (fun x => { x with queue := x.queue ++ waiting }) s)

/-- TM_OPEN and TM_QUEUE. -/
def tmBlob (s : State) (queue : Bool) : Bytes :=
  ((if queue then s.mix.tm.queue else s.mix.tm.opened.map (·.ident)).flatMap (leBytes 4)).take 256

/-- LEG_TALK. -/
def legTalkState (s : State) (l : Nat) : Nat :=
  if legTalker s l then 3 else if legQueued s l then 2 else b2n (candOf s l).isSome

/-- R310: a leg leaves its candidate position and the talker lists. -/
def legLeaves (l : Nat) (s : State) : State :=
  let s := tmUpd (fun x => { x with queue := x.queue.erase (legIdent l) }) s
  let s := if (tmOpenOf s (legIdent l)).isSome then tmDecide [] [legIdent l] true none s else s
  match candOf s l with | some c => candAssign c none s | none => s

end Sys2Proof.Machine
end

