-- ==== Sys2Proof/Machine/Pkt.lean ====
section
/-! DEFINITION. Commands and events of the cell pool: flushes, pool errors, recovery, tests, queue descriptors (R250, R260–R262). -/
namespace Sys2Proof.Machine

/-- Q_FLUSH: the queue the requester has selected. -/
def writeQFlush (inst : Inst) (tag : Nat) (s : State) : State :=
  runCmd inst tag 0x7110 6 .ok (flushQueue (rd s (K.QUEUE_SELECT (instNum inst)))) s

/-! ## Pool errors and recovery (R261, R262) -/

/-- The pool is left for spill mode and flushed; its test is under way. -/
def poolRecovery (s : State) : State :=
  let s := (s.pkt.queues.filter (fun e => !e.2.spilled)).foldl (fun s e => flushQueue e.1 s) s
  wr K.POOL_MODE pmSpill (bump K.POOL_RECOVERIES { s with pkt.upsets := [] })

/-- An uncorrectable or link error is a pool upset. -/
def poolUpset (s : State) : State :=
  let l := clk s :: s.pkt.upsets.filter (fun t => decide (clk s < t + rd s K.POOL_UPSET_W * s1))
  let s := { s with pkt.upsets := l }
  if decide (rd s K.POOL_UPSET_N < l.length) && !poolSpill s then poolRecovery s else s

/-- An uncorrectable word in a packet's data: the packet is unusable. -/
def packetBad (id : Nat) (s : State) : State := poolUpset (bump (K.POOL_ERRORS 0) (packetUpd id (fun p => { p with bad := true }) s))

/-- An uncorrectable record or link: the queue that reached it is flushed. -/
def linkError (q : Nat) (s : State) : State := poolUpset (bump (K.POOL_ERRORS 1) (flushQueue q s))

/-- POOL_TEST: the pool spills and is tested; SERVICE only. -/
def poolTestStatus (s : State) : Status :=
  checks [(modeOf s != mService, .mode), (s.pkt.testing.isSome || poolSpill s, .busy), (true, .pending)]
def spillAll (s : State) : State :=
  let s := { s with
    pkt.packets := tabMap none s.pkt.packets (fun _ p => p.map (fun p => { p with spilled := true })),
    pkt.queues := tabMap {} s.pkt.queues (fun _ x => { x with spilled := !x.entries.isEmpty }), pkt.used := 0 }
  settle [] (wr K.POOL_MODE pmSpill s)
def writePoolTest (inst : Inst) (tag : Nat) (s : State) : State :=
  runCmd inst tag 0x7100 0x0F (poolTestStatus s) (fun s => spillAll { s with pkt.testing := some (inst, tag) }) s

/-- The pool returns: POOL_MODE is DRAINING, and POOL once no queue is SPILLED (R261). -/
def poolReturns (s : State) : State :=
  settle [] (wr K.POOL_MODE (if s.pkt.queues.any (fun e => e.2.spilled) then pmDraining else pmPool) s)

/-- The test has ended: `failed` cells are mapped out, or the pool is lost. -/
def poolTested (failed : Nat) (s : State) : State :=
  let s := if failed ≤ 1024 then poolReturns (wr K.CELLS_MAPPED_OUT failed s)
    else summary 0 true (wr K.POOL_MODE pmFailed s)
  if s.pkt.testing.isSome then cmdComplete 0x7100 0x0F .ok { s with pkt.testing := none } else s

/-- SPILL_DRAIN_COMPLETE: every entry has been moved into the pool, oldest first. -/
def execSpillDrainComplete (s : State) : Res :=
  if rd s K.POOL_MODE ≠ pmDraining then .next s
  else
    let moved : Nat := s.pkt.packets.foldl (fun n e => n + (e.2.elim 0 (fun p => if p.spilled then p.cells else 0))) 0
    let copies : Nat := s.pkt.queues.foldl (fun n e => n + (if e.2.spilled then e.2.copyCells.length else 0)) 0
    let s := { s with
      pkt.packets := tabMap none s.pkt.packets (fun _ p => p.map (fun p => { p with spilled := false })),
      pkt.queues := tabMap {} s.pkt.queues (fun _ x => { x with spilled := false }),
      pkt.used := s.pkt.used + moved + copies }
    .next (settle [] (wr K.POOL_MODE pmPool s))

/-- ORPHAN_AUDIT: every 100 ms; `cells` were orphans at this audit and the one before, and return to the free list. -/
def execOrphanAudit (cells : Nat) (s : State) : Res :=
  if clk s < s.pkt.auditAt + 100 * ms1 then .next s
  else .next (bumpBy (K.POOL_ERRORS 2) cells { s with pkt.auditAt := clk s })

/-! ## Port events that touch nothing above the port -/

/-- FEC_SECOND: codewords corrected and uncorrectable in the last second (R240). The upset of a port is the caller's. -/
def fecSecond (p corrected uncorrectable : Nat) (s : State) : State :=
  bumpBy (K.FEC_CORRECTED p) corrected (bumpBy (K.FEC_UNCORRECTED p) uncorrectable s)

/-- PAUSE_RESEND: half the quanta time has passed since the last frame and the port is still congested (R255). -/
def execPauseResend (p : Fin 8) (s : State) : Res :=
  let x := txPort s p.val
  let q := rd s (K.PAUSE_QUANTA p.val)
  let half := q * 512 * 1000000000 * ns1 / portRate s / 2
  if x.congested && x.pauseDue.isNone && decide (x.pauseAt + half ≤ clk s) then
    .next (txPortUpd p.val (fun x => { x with pauseDue := some q }) s)
  else .next s

/-! ## The queue descriptor (Table PKT-7) -/

def entryFirst (s : State) (e : QEntry) : Nat :=
  match e with
  | .pkt id => (packetOf s id).elim 0xFFFF (·.first)
  | .copy c => c.cell

def queueDesc (s : State) (q : Nat) : Bytes :=
  let x := queueOf s q
  leBytes 2 (x.entries.head?.elim 0xFFFF (entryFirst s)) ++ leBytes 2 (x.entries.getLast?.elim 0xFFFF (entryFirst s))
    ++ leBytes 4 x.entries.length ++ leBytes 4 x.cells
    ++ leBytes 2 (rd s (K.Q_HIGH q)) ++ leBytes 2 (rd s (K.Q_LOW q)) ++ leBytes 2 (rd s (K.Q_LIMIT q))
    ++ leBytes 1 (b2n x.above + 2 * b2n x.spilled + 4 * b2n x.flushing + 8 * b2n x.disabled) ++ leBytes 1 0
    ++ leBytes 4 x.drops ++ leBytes 4 x.highEvents ++ leBytes 4 0

end Sys2Proof.Machine
end

