-- ==== Sys2Proof/Machine/Wire.lean ====
section
/-! DEFINITION. Frames as they leave a port, octet by octet: Ethernet, MAC control, IP, UDP, RTP and RTCP (R242, R255, R258,
R293, R305, R306), and the line cipher over them (R415). -/
namespace Sys2Proof.Machine

/-- A number in network byte order. -/
def beOctets (n v : Nat) : Bytes := (leBytes n v).reverse

/-! ## Internet headers (R293, R258) -/

/-- Sum of the 16-bit words of octets, an odd last one padded with 0. -/
def wordSum : Bytes → Nat
  | a :: b :: t => a.toNat * 256 + b.toNat + wordSum t
  | [a] => a.toNat * 256
  | [] => 0

/-- The Internet checksum of octets: the complement of their ones' complement sum. -/
def inetSum (b : Bytes) : Nat :=
  let n := wordSum b
  65535 - (if n = 0 then 0 else (n - 1) % 65535 + 1)

/-- A frame's addresses are IPv6. -/
def TxFrame.v6 (f : TxFrame) : Bool := f.dst.length == 16

/-- An address in its family's length. -/
def TxFrame.addr (f : TxFrame) (a : Bytes) : Bytes := slice a 0 (if f.v6 then 16 else 4)

/-- The UDP datagram, with its checksum in both families; a sum of 0 is sent as FFFFh. -/
def TxFrame.udp (f : TxFrame) (body : Bytes) : Bytes :=
  let n := 8 + body.length
  let ends := f.addr f.src ++ f.addr f.dst
  let pseudo := if f.v6 then ends ++ beOctets 4 n ++ [0, 0, 0, 17] else ends ++ [0, 17] ++ beOctets 2 n
  let ports := beOctets 2 f.sport ++ beOctets 2 f.dport ++ beOctets 2 n
  let c := inetSum (pseudo ++ ports ++ [0, 0] ++ body)
  ports ++ beOctets 2 (if c = 0 then 0xFFFF else c) ++ body

/-- The IP header before `n` octets of UDP: ECN, and identification and flags or the flow label, as received. -/
def TxFrame.ip (f : TxFrame) (n : Nat) : Bytes :=
  if f.v6 then
    let w := leVal (slice f.kept 0 4).reverse
    beOctets 4 (6 * 268435456 + (f.dscp * 4 + w / 1048576 % 4) * 1048576 + w % 1048576) ++ beOctets 2 n
      ++ [17, BitVec.ofNat 8 f.ttl] ++ f.addr f.src ++ f.addr f.dst
  else
    let head := [0x45, BitVec.ofNat 8 (f.dscp * 4 + leAt f.kept 1 1 % 4)] ++ beOctets 2 (20 + n) ++ slice f.kept 4 4
      ++ [BitVec.ofNat 8 f.ttl, 17]
    let ends := f.addr f.src ++ f.addr f.dst
    head ++ beOctets 2 (inetSum (head ++ [0, 0] ++ ends)) ++ ends

/-! ## RTP (R293) -/

/-- The header extension block of RFC 8285: the one-byte form where every element fits it. -/
def extOctets (els : List (Nat × Bytes)) : Bytes :=
  if els.isEmpty then [] else
  let oneByte := els.all (fun e => decide (e.2.length ≤ 16 ∧ 1 ≤ e.1 ∧ e.1 ≤ 14))
  let b := els.flatMap (fun e =>
    (if oneByte then beOctets 1 (e.1 * 16 + (e.2.length - 1)) else beOctets 1 e.1 ++ beOctets 1 e.2.length) ++ e.2)
  let b := slice b 0 ((b.length + 3) / 4 * 4)
  beOctets 2 (if oneByte then 0xBEDE else 0x1000) ++ beOctets 2 (b.length / 4) ++ b

/-- An RTP header: version 2, no CSRC. -/
def rtpHeader (pt seq ts ssrc : Nat) (marker padding : Bool) (els : List (Nat × Bytes)) : Bytes :=
  beOctets 1 (0x80 + 0x20 * b2n padding + 0x10 * b2n (!els.isEmpty)) ++ beOctets 1 (0x80 * b2n marker + pt % 128)
    ++ beOctets 2 seq ++ beOctets 4 ts ++ beOctets 4 ssrc ++ extOctets els

/-! ## RTCP (R305, R306) -/

/-- An RTCP packet: its count or format, type and contents. -/
def rtcpPacket (c pt : Nat) (b : Bytes) : Bytes := beOctets 1 (0x80 + c % 32) ++ beOctets 1 pt ++ beOctets 2 (b.length / 4) ++ b

/-- A report block (RFC 3550). -/
def blockOctets : RtcpItem → Bytes
  | .block ssrc fraction lost highest jitter lsr dlsr => beOctets 4 ssrc ++ beOctets 1 fraction ++ beOctets 3 lost
      ++ beOctets 4 highest ++ beOctets 4 jitter ++ beOctets 4 lsr ++ beOctets 4 dlsr
  | _ => []

/-- The packets of a compound: each report or request, in order. The report blocks follow the last SR, or an RR where no
SR is sent (assumption 174). -/
def rtcpOctets (sender : Nat) (items : List RtcpItem) : Bytes :=
  let blocks := (items.map blockOctets).filter (fun b => !b.isEmpty)
  let srs := items.filterMap (fun i => match i with
    | .sr ssrc ntp rtp packets octets =>
      some (beOctets 4 ssrc ++ beOctets 8 ntp ++ beOctets 4 rtp ++ beOctets 4 packets ++ beOctets 4 octets)
    | _ => none)
  let reports := match srs.reverse with
    | last :: before => before.reverse.flatMap (rtcpPacket 0 200) ++ rtcpPacket blocks.length 200 (last ++ blocks.flatten)
    | [] => if blocks.isEmpty then [] else rtcpPacket blocks.length 201 (beOctets 4 sender ++ blocks.flatten)
  reports ++ items.flatMap (fun i => match i with
    | .pli ssrc => rtcpPacket 1 206 (beOctets 4 sender ++ beOctets 4 ssrc)
    | .fir ssrc seq => rtcpPacket 4 206 (beOctets 4 sender ++ beOctets 4 0 ++ beOctets 4 ssrc ++ beOctets 1 seq ++ [0, 0, 0])
    | .feedback ssrc reports => rtcpPacket 15 205 (beOctets 4 sender ++ Config.feedbackOctets ssrc reports)
    | _ => [])

/-! ## The line cipher (R415) -/

/-- Octets padded with 0 to whole blocks. -/
def blockPad (m : List Nat) : List Nat := m ++ List.replicate ((16 - m.length % 16) % 16) 0

/-- AES-GCM with a nonce of 12 octets: the ciphertext, and after it the tag of 16 octets. -/
def aesGcm (key nonce aad m : List Nat) : List Nat :=
  let h := beVal (aesBlock key (List.replicate 16 0))
  let n := (m.length + 15) / 16
  let c := xorBytes m ((List.range n).flatMap (fun i => aesBlock key (nonce ++ beBytes 4 (i + 2))))
  let x := blockPad aad ++ blockPad c ++ beBytes 8 (8 * aad.length) ++ beBytes 8 (8 * c.length)
  let y := (blocks (x.length / 16) x).foldl (fun y b => ghashMul 128 (Nat.xor y (beVal b)) h 0) 0
  c ++ xorBytes (beBytes 16 y) (aesBlock key (nonce ++ [0, 0, 0, 1]))

/-- The key derivation of RFC 3711 at rate 0: `n` octets under a label, from a master key and its salt of 12 octets. -/
def srtpDerive (k : SrtpKey) (label n : Nat) : List Nat :=
  let x := xorBytes (nats k.salt ++ [0, 0]) (List.replicate 7 0 ++ [label] ++ List.replicate 6 0)
  ((List.range ((n + 15) / 16)).flatMap (fun i => aesBlock (nats k.key) (x ++ beBytes 2 i))).take n

/-- The session key and salt of SRTP, or of SRTCP. -/
def srtpSession (rtcp : Bool) (k : SrtpKey) : List Nat × List Nat :=
  (srtpDerive k (if rtcp then 3 else 0) k.key.length, srtpDerive k (if rtcp then 5 else 2) 12)

/-- An RTP packet under a key at a 48-bit index (RFC 7714): the header stays, the payload is encrypted, the tag follows. -/
def srtpOctets (key : Option (SrtpKey × Nat)) (ssrc : Nat) (header payload : Bytes) : Bytes :=
  match key with
  | none => header ++ payload
  | some (k, index) =>
    let x := srtpSession false k
    let nonce := xorBytes x.2 ([0, 0] ++ beBytes 4 ssrc ++ beBytes 6 index)
    header ++ octets (aesGcm x.1 nonce (nats header) (nats payload))

/-- An RTCP compound under a key at a 31-bit index, E = 1: its first eight octets stay. -/
def srtcpOctets (key : Option (SrtpKey × Nat)) (compound : Bytes) : Bytes :=
  match key with
  | none => compound
  | some (k, index) =>
    let x := srtpSession true k
    let word := beBytes 4 (2147483648 + index % 2147483648)
    let nonce := xorBytes x.2 ([0, 0] ++ nats (slice compound 4 4) ++ [0, 0] ++ beBytes 4 (index % 2147483648))
    compound.take 8 ++ octets (aesGcm x.1 nonce (nats (compound.take 8) ++ word) (nats (compound.drop 8)) ++ word)

/-! ## The frame -/

/-- The values of a PTP data set. -/
def PtpData.values (d : PtpData) : List Nat :=
  [d.priority1, d.clockClass, d.accuracy, d.variance, d.priority2, d.identity, d.steps, d.utcOffset, d.domain]

/-- Contents in an IP datagram, the EtherType first. -/
def TxFrame.overIp (f : TxFrame) (b : Bytes) : Bytes :=
  let u := f.udp b
  beOctets 2 (if f.v6 then 0x86DD else 0x0800) ++ f.ip u.length ++ u

/-- What follows the addresses and the tag of a frame: EtherType and contents. -/
def TxFrame.contents (f : TxFrame) : Bytes :=
  match f.body with
  | .rtp pt seq ts ssrc marker padding exts payload =>
    f.overIp (srtpOctets f.key ssrc (rtpHeader pt seq ts ssrc marker padding exts) payload)
  | .rtcp sender items => f.overIp (srtcpOctets f.key (rtcpOctets sender items))
  | .aes67 pt seq ts ssrc width samples =>
    f.overIp (rtpHeader pt seq ts ssrc false false []
      ++ samples.flatMap (fun row => row.flatMap (fun v => beOctets width (ofInt (8 * width) v))))
  | .pause quanta => beOctets 2 0x8808 ++ beOctets 2 0x0001 ++ beOctets 2 quanta
  | .pfc quanta => beOctets 2 0x8808 ++ beOctets 2 0x0101 ++ beOctets 2 0x00FF ++ quanta.flatMap (beOctets 2)
  | .answer kind address => Config.answerOctets kind address
  | .dict b => f.overIp b
  | .ptp kind time seq requester ds =>
    let b := Config.ptpOctets kind ([time, seq, requester] ++ ds.values)
    if ds.transport = 2 then beOctets 2 0x88F7 ++ b else f.overIp b
  | .host b => b

/-- A frame's octets: padded to its length, with its FCS. A host's frame is whole as it is. -/
def TxFrame.octets (f : TxFrame) : Bytes :=
  let tag := match f.tag with | some t => beOctets 2 0x8100 ++ beOctets 2 (t.2 * 8192 + t.1) | none => []
  let b := match f.body with
    | .host b => b
    | _ => beOctets 6 f.dstMac ++ beOctets 6 f.srcMac ++ tag ++ f.contents
  let b := b ++ List.replicate (f.len - b.length) 0
  b ++ leBytes 4 (crc32 b)

end Sys2Proof.Machine
end

