-- ==== Sys2Proof/Machine/Traffic.lean ====
section
/-! DEFINITION. Policing, shaping, time gates and egress scheduling (chapter TRF), and the frames the ports send (R293). -/
namespace Sys2Proof.Machine

/-! ## Token arithmetic (R264, R265) -/

/-- Level of a bucket with a rate in bit/s and a size in octets, at `t` ns. -/
def bucketAt (b : Bucket) (rate size t : Nat) : Int :=
  let cap : Int := 8000000000 * size
  match b.level with
  | none => cap
  | some l => min cap (l + rate * (t - b.at_))

/-- The bucket refilled to `t`. -/
def bucketTo (b : Bucket) (rate size t : Nat) : Bucket := { level := some (bucketAt b rate size t), at_ := t }

/-- The bucket clipped to a size. -/
def bucketClip (size : Nat) (b : Bucket) : Bucket := { b with level := b.level.map (fun l => min l (8000000000 * size)) }

/-- A level in whole bits, rounded toward −∞. -/
def wholeBits (l : Int) : Int := l / 1000000000

/-- Table TRF-1: counted octets of a frame of length `len`. -/
def counted (code len : Nat) (tagged : Bool) : Nat :=
  if code = 0 then len + 4 else if code = 1 then len + 24 else len - (if tagged then 18 else 14)

def legTraffic (s : State) (l : Nat) : LegTraffic := tabGet {} s.trf.legs l
def legTrafficUpd (l : Nat) (f : LegTraffic → LegTraffic) (s : State) : State := { s with trf.legs := tabMod {} s.trf.legs l f }

/-! ## Policing (R266–R269) -/

/-- Buckets Tc and Tp at `t`. -/
def polTc (s : State) (l t : Nat) : Int := bucketAt (legTraffic s l).tc (rd s (K.POL_CIR l)) (rd s (K.POL_CBS l)) t
def polTp (s : State) (l t : Nat) : Int := bucketAt (legTraffic s l).tp (rd s (K.POL_PIR l)) (rd s (K.POL_PBS l)) t

/-- R266: the colour of a packet of leg `l`: 0 green, 1 yellow, 2 red. -/
def meter (l len dscp : Nat) (tagged : Bool) (arrival : Nat) (s : State) : Nat × State :=
  if rd s (K.POL_MODE l) = 0 then (0, s) else
  let cost : Int := 8000000000 * counted (rd s (K.POL_COUNT l)) len tagged
  let pre := if rd s (K.POL_MODE l) = 2 then rd s (K.PRECOLOUR dscp) else 0
  let tc := polTc s l arrival
  let tp := polTp s l arrival
  let colour := if pre = 2 ∨ tp < cost then 2 else if pre = 1 ∨ tc < cost then 1 else 0
  let s := legTrafficUpd l (fun x => { x with
    tc := { level := some (if colour = 0 then tc - cost else tc), at_ := arrival }
    tp := { level := some (if colour = 2 then tp else tp - cost), at_ := arrival } }) s
  (colour, s)

/-- Table TRF-2: the packet passes on, and the counts. -/
def policed (l colour : Nat) (s : State) : Bool × State :=
  let s := bump (if colour = 0 then K.POL_GREEN l else if colour = 1 then K.POL_YELLOW_N l else K.POL_RED_N l) s
  let pass := if colour = 0 then true else if colour = 1 then rd s (K.POL_YELLOW l) == 0 else rd s (K.POL_RED l) == 1
  (pass, upd (!pass) (bump (K.POL_DROPS l)) s)

/-- R268: a write of a policer parameter. Buckets are brought to now at the old values, full on the first write and when
POL_MODE leaves 0, and clipped to a smaller size. -/
def polWrite (l k v : Nat) (s : State) : State :=
  let t := clkNs s
  let x := legTraffic s l
  let fill := !x.policed || (k == K.POL_MODE l && rd s (K.POL_MODE l) == 0 && v != 0)
  let x := { x with
    tc := if fill then {} else bucketTo x.tc (rd s (K.POL_CIR l)) (rd s (K.POL_CBS l)) t
    tp := if fill then {} else bucketTo x.tp (rd s (K.POL_PIR l)) (rd s (K.POL_PBS l)) t
    policed := true }
  let s := wr k v s
  legTrafficUpd l (fun _ => { x with
    tc := bucketClip (rd s (K.POL_CBS l)) x.tc, tp := bucketClip (rd s (K.POL_PBS l)) x.tp }) s

/-- R268: the check of a policer parameter. -/
def polStatus (l k v : Nat) (s : State) : Status :=
  let s := wr k v s
  let frames := (List.range 8).foldl (fun m p => max m (rd s (K.MAX_FRAME p))) 0
  if rd s (K.POL_PIR l) < rd s (K.POL_CIR l) ∨ rd s (K.POL_CBS l) < frames ∨ rd s (K.POL_PBS l) < frames then .range else .ok

/-! ## Shaping (R270–R273) -/

/-- b of a leg's shaper. -/
def shaperLevel (s : State) (l : Nat) : Int :=
  bucketAt (legTraffic s l).shaper (rd s (K.SH_RATE l)) (rd s (K.SH_BURST l)) (clkNs s)
def conforming (s : State) (l : Nat) : Bool := decide (0 ≤ shaperLevel s l)

/-- Level of a class shaper; one with rate 0 keeps no bucket. -/
def classLevel (s : State) (p c : Nat) : Int :=
  bucketAt (tabGet {} (txPort s p).buckets c) (rd s (K.SC_RATE p c)) (rd s (K.SC_BURST p c)) (clkNs s)
def classConforms (s : State) (p c : Nat) : Bool := rd s (K.SC_RATE p c) == 0 || decide (0 ≤ classLevel s p c)
def classUpd (p c : Nat) (f : Bucket → Bucket) (s : State) : State :=
  txPortUpd p (fun x => { x with buckets := tabMod {} x.buckets c f }) s

/-! ## The frame of an entry (R293, R276) -/

/-- The port a leg sends on. -/
def legPort (s : State) (l : Nat) : Nat := if rd s (K.LEG_STATE l) = 2 then rd s (K.ALT_PORT l) else rd s (K.LEG_PORT l)

/-- Octets of an RTCP item (RFC 3550, RFC 4585, RFC 5104); of feedback, which chunks are chosen is open. -/
def rtcpSize : RtcpItem → Nat
  | .feedback _ reports => Config.feedbackSize (reports.map (fun r => (r.1, r.2.isSome)))
  | .pli _ => 12
  | .fir _ _ => 20
  | .sr _ _ _ _ _ => 28
  | .block _ _ _ _ _ _ _ => 24
  | .other => 8

/-- Tag of a frame a port sends with priority `pcp`. -/
def tagOf (s : State) (p pcp : Nat) : Option (Nat × Nat) :=
  if p < 8 ∧ rd s (K.VLAN p) ≠ 0xFFFF then some (rd s (K.VLAN p), pcp) else none

/-- Lengths of Ethernet, IP and UDP headers. -/
def headerLen (tagged v6 : Bool) : Nat := 14 + (if tagged then 4 else 0) + (if v6 then 40 else 20) + 8

/-- Source MAC of a port. -/
def portMac (s : State) (p : Nat) : Nat := if p = 8 then rd s K.MGMT_MAC else rd s (K.MAC_ADDR p)

/-- An IP group address. -/
def isMulticast (a : Bytes) : Bool :=
  match a with
  | b :: _ => if a.length = 4 then b.toNat / 16 == 14 else b.toNat == 255
  | [] => false

/-- The Ethernet group address of an IP group. -/
def groupMac (a : Bytes) : Nat :=
  let v := leVal a.reverse
  if a.length = 4 then 0x01005E000000 + v % 8388608 else 0x333300000000 + v % 4294967296

/-- A header extension element of a leg, by the byte of EXT_IDS its ID is in. -/
def extOf (s : State) (l byte : Nat) (r : Rtp) : Option Bytes :=
  let id := rd s (K.EXT_IDS l) / 256 ^ byte % 256
  if id = 0 then none else (r.exts.find? (fun e => e.1 == id)).map (·.2)

/-- What a copy takes of a packet as received: payload, descriptor element, padding bit, start of the IP header. -/
structure Media where
  payload : Bytes := []
  dd : Option Bytes := none
  padding : Bool := false
  ip : Bytes := []
deriving DecidableEq, Repr

/-- Those of a packet, for a copy over IPv6 or IPv4: the IP header is kept in its own family. -/
def mediaOf (s : State) (v6 : Bool) (p : Packet) : Media :=
  match p.content with
  | .rx f => match f.body with
    | .udp u => match u.pay with
      | .rtp r _ => {
          payload := r.payload, padding := bitOf u.b0 5
          dd := r.dd.map (fun d => slice ((extOf s p.leg 1 r).getD []) 0 d.size)
          ip := if p.v6 = v6 then slice f.octets (14 + (if f.tag.isSome then 4 else 0)) 8 else [] }
      | _ => {}
    | _ => {}
  | .audio _ b => { payload := b }
  | .picture _ _ _ _ b => { payload := b }
  | _ => {}

/-- The frame of a copy on a leg, built as it leaves. -/
def copyFrame (s : State) (l : Nat) (c : CopyRec) : TxFrame :=
  let p := legPort s l
  let tag := tagOf s p (rd s (K.TX_PCP l))
  let loc := rdBlob s (K.LOCAL_ADDR l)
  let hdr := headerLen tag.isSome (loc.length == 16)
  let out := tabGet {} s.sea.srtpOut l
  let base : TxFrame := { queue := qOut l, len := 0, dstMac := rd s (K.NEXT_HOP_MAC l), srcMac := portMac s p, tag := tag,
                          src := loc, dst := rdBlob s (K.REMOTE_ADDR l), dscp := rd s (K.TX_DSCP_FWD l), ttl := 64,
                          sport := rd s (K.LOCAL_UDP l), dport := rd s (K.REMOTE_UDP l), body := .rtcp 0 [] }
  match packetOf s c.pkt with
  | some { content := .rtcp items, .. } =>
    let n := items.foldl (fun n i => n + rtcpSize i) 0
      + (match items.head? with | some (.block _ _ _ _ _ _ _) => 8 | _ => 0)
    { base with len := max 60 (hdr + n + 20), body := .rtcp (rd s (K.AUD_OUT_SSRC l)) items, key := out.cur.map (fun k => (k, rd s (K.SRTCP_INDEX l))) }
  | some x =>
    let m := mediaOf s (loc.length == 16) x
    let ids := rd s (K.EXT_IDS l)
    let twId := ids % 256
    let ddId := ids / 256 % 256
    let dd := if c.slot = 0 ∨ ddId = 0 then none else m.dd
    let els := (if twId = 0 then [] else [(twId, beOctets 2 (tabGet {} s.fwd.legs l).tw)])
      ++ (match dd with | some d => [(ddId, d)] | none => [])
    let pt := if c.slot = 0 then rd s (K.AUD_OUT_PT l) else rd s (K.OUT_PT l (c.slot - 1))
    let ssrc := if c.slot = 0 then rd s (K.AUD_OUT_SSRC l) else rd s (K.OUT_SSRC l (c.slot - 1))
    { base with
      len := max 60 (hdr + 12 + (extOctets els).length + m.payload.length + 16)
      kept := m.ip
      body := .rtp pt (c.index % 65536) c.outTs ssrc c.marker m.padding els m.payload
      key := out.cur.map (fun k => (k, c.index)) }
  | none => base

/-- The frame of a packet of a queue that is no leg's, sent on port `p` with priority `pcp`. -/
def packetFrame (s : State) (q p pcp : Nat) (x : Packet) : TxFrame :=
  let tag := tagOf s p pcp
  let base : TxFrame := { queue := q, len := x.len, srcMac := portMac s p, tag := tag, body := .host [] }
  match x.content with
  | .aes67 e seq ts samples => { base with
      dstMac := groupMac (rdBlob s (K.EP_DEST_ADDR_TX e))
      dst := rdBlob s (K.EP_DEST_ADDR_TX e), dscp := rd s (K.TX_DSCP_PKT e), ttl := rd s (K.TX_TTL e)
      src := if (rdBlob s (K.EP_DEST_ADDR_TX e)).length = 16 then rdBlob s (K.IPV6_ADDR p) else (leBytes 4 (rd s (K.IPV4_ADDR p))).reverse
      sport := rd s (K.TX_SRC_PORT e), dport := rd s (K.EP_UDP_PORT_TX e)
      body := .aes67 (rd s (K.TX_PT e)) seq ts (rd s (K.TX_SSRC e)) (if rd s (K.EP_ENCODING_TX e) = 0 then 2 else 3) samples }
  | .answer kind _ dstMac address => { base with dstMac := dstMac, body := .answer kind address }
  | .ptp kind time seq requester ds =>
    let event := match kind with | .sync | .delayReq => true | _ => false
    let port := if event then 319 else 320
    let body := TxBody.ptp kind time seq requester ds
    if ds.transport = 2 then { base with dstMac := 0x011B19000000, body := body }
    else
      let dst := if ds.transport = 1 then [0xFF, 0x0E] ++ List.replicate 12 0 ++ [1, 0x81] else [224, 0, 1, 129]
      { base with
        dstMac := groupMac dst, src := if ds.transport = 1 then rdBlob s (K.IPV6_ADDR p) else (leBytes 4 (rd s (K.IPV4_ADDR p))).reverse
        dst := dst, dscp := ds.dscp, sport := port, dport := port, body := body }
  | .dict dst dport octets => { base with
      dstMac := Config.nextHop p dst, src := rdBlob s K.IP_ADDR, dst := dst, sport := rd s K.UDP_PORT, dport := dport
      body := .dict octets }
  | .host octets => { base with body := .host octets }
  | .rx f => { base with body := .host f.octets }
  | _ => base

/-- Counted octets of an entry of a leg's egress queue. -/
def copyBytes (s : State) (l : Nat) (e : QEntry) : Nat :=
  match e with
  | .copy c => let f := copyFrame s l c; counted (rd s (K.SH_COUNT l)) f.len f.tag.isSome
  | .pkt _ => 0

/-- R272: SH_BACKLOG and SH_DELAY are published. -/
def shaperPublish (l : Nat) (s : State) : State :=
  let backlog := (queueOf s (qOut l)).entries.foldl (fun n e => n + copyBytes s l e) 0
  let debt : Int := max 0 (-(shaperLevel s l))
  let rate := rd s (K.SH_RATE l)
  let bits : Int := 8000000000 * backlog + debt
  let delay := (bits.toNat * 1000000 + rate * 1000000000 - 1) / (rate * 1000000000)
  wr (K.SH_DELAY l) delay (wr (K.SH_BACKLOG l) backlog s)

/-! ## The active list (R276, R277) -/

/-- A received PFC frame pauses a priority of the port. -/
def pfcPaused (s : State) (p pcp : Nat) : Bool := decide (clk s < tabGet 0 (txPort s p).pfcEnd pcp)
def paused (s : State) (p : Nat) : Bool := decide (clk s < (txPort s p).pauseEnd)

/-- A leg joins the tail of its port's list when it holds an entry, its shaper conforms and its priority is not paused. -/
def legWake (l : Nat) (s : State) : State :=
  let p := legPort s l
  if (queueOf s (qOut l)).entries.isEmpty || !conforming s l || (txPort s p).active.contains l
      || pfcPaused s p (rd s (K.TX_PCP l)) || !(rd s (K.LEG_STATE l) == 1 || rd s (K.LEG_STATE l) == 2) then s
  else
    let s := txPortUpd p (fun x => { x with active := x.active ++ [l] }) s
    wr (K.LEGS_ACTIVE p) (txPort s p).active.length s

/-- A leg leaves a port's list. -/
def legUnlist (p l : Nat) (s : State) : State :=
  let s := txPortUpd p (fun x => { x with active := x.active.erase l }) s
  wr (K.LEGS_ACTIVE p) (txPort s p).active.length s

/-- Every leg of a port that may join does, in ascending leg number. -/
def wakePort (p : Nat) (s : State) : State :=
  ((s.pkt.queues.filterMap (fun e => egressLeg e.1)).filter (fun l => legPort s l == p)).foldl (fun s l => legWake l s) s

/-- SHAPER_CONFORMING: a leg's bucket has refilled to 0. -/
def execShaperConforming (leg : Nat) (s : State) : Res := .next (legWake leg s)

/-- R271: a change of a leg shaper's rate or burst. -/
def shaperChange (l : Nat) (f : State → State) (s : State) : State :=
  let b := bucketTo (legTraffic s l).shaper (rd s (K.SH_RATE l)) (rd s (K.SH_BURST l)) (clkNs s)
  let s := f s
  shaperPublish l (legTrafficUpd l (fun x => { x with shaper := bucketClip (rd s (K.SH_BURST l)) b }) s)
def classChange (p c : Nat) (f : State → State) (s : State) : State :=
  let b := bucketTo (tabGet {} (txPort s p).buckets c) (rd s (K.SC_RATE p c)) (rd s (K.SC_BURST p c)) (clkNs s)
  let s := f s
  classUpd p c (fun _ => bucketClip (rd s (K.SC_BURST p c)) b) s

/-- SHAPER_ADAPT: the 10 ms instant (R273), for the legs with SH_AUTO 1. -/
def execShaperAdapt (s : State) : Res :=
  if s.isb.now % (10 * ms1) ≠ 0 then .next s else
  .next ((listedKeys s 0x7900 0x14).foldl (fun s l =>
    let est := rd s (K.EST_E l)
    if est = (legTraffic s l).adapted then s
    else
      let rate := max 1000 (min (rd s (K.SH_MAX l)) (est * rd s (K.SH_HEADROOM l) / 100))
      legTrafficUpd l (fun x => { x with adapted := est }) (shaperChange l (wr (K.SH_RATE l) rate) s)) s)

/-! ## Time gates (R279–R284) -/

/-- A gate configuration: entries (gates, interval), base, cycle, extension. -/
structure GateCfg where
  list : List (Nat × Nat)
  base : Nat
  cycle : Nat
  ext : Nat

/-- Entries of a gate list (Table TRF-4). -/
def gateEntries (b : Bytes) : List (Nat × Nat) :=
  (List.range (b.length / 8)).map (fun i => (leAt b (8 * i) 4, leAt b (8 * i + 4) 4))

/-- R279: an ADMIN_LIST that may be written. -/
def gateListOk (b : Bytes) : Bool :=
  b.length % 8 == 0 && decide (b.length ≤ 2048)
    && (gateEntries b).all (fun e => decide (e.1 < 32 ∧ 64 ≤ e.2 ∧ e.2 ≤ 1000000000))

def operCfg (s : State) (p : Nat) : GateCfg :=
  { list := gateEntries (rdBlob s (K.OPER_LIST p)), base := rd s (K.OPER_BASE p), cycle := rd s (K.OPER_CYCLE p),
    ext := rd s (K.OPER_EXT p) }
def adminCfg (s : State) (p : Nat) : GateCfg :=
  { list := gateEntries (rdBlob s (K.ADMIN_LIST p)), base := rd s (K.ADMIN_BASE p), cycle := rd s (K.ADMIN_CYCLE p),
    ext := rd s (K.ADMIN_EXT p) }

/-- The entry at `off` in a cycle that runs from `start`: its gates, and where it ends in the cycle. -/
def gateWalk (cycle off : Nat) : List (Nat × Nat) → Nat → Nat → Nat × Nat
  | [], _, last => (last, cycle)
  | (g, i) :: t, start, _ =>
    if t.isEmpty ∨ off < start + i then (g, if t.isEmpty then cycle else min (start + i) cycle)
    else gateWalk cycle off t (start + i) g

/-- Gates open under a configuration at `t` ns, and until when. -/
def gateIn (c : GateCfg) (t : Nat) : Nat × Nat :=
  if c.list.isEmpty ∨ c.cycle = 0 then (31, t + 1000000000000)
  else
    let off := (((t : Int) - c.base) % c.cycle).toNat
    let r := gateWalk c.cycle off c.list 0 0
    (r.1, t + (r.2 - off))

/-- R280: the config change time of a takeover that takes effect at T_L. -/
def changeTime (s : State) (p tl : Nat) : Nat :=
  let base := rd s (K.ADMIN_BASE p)
  let cycle := rd s (K.ADMIN_CYCLE p)
  if tl ≤ base ∨ cycle = 0 then base else base + (tl - base + cycle - 1) / cycle * cycle

/-- T_L and C of the takeover of a port that is pending or COMMITTED. -/
def gatePlan (s : State) (p : Nat) : Option (Nat × Nat) :=
  match (txPort s p).takeover with
  | some g => some (g.tl, g.c)
  | none =>
    (s.isb.launches.find? (fun e => e.2.typ == ltGateTakeover && e.2.target == p && e.2.state == lsCommitted)).map (fun e =>
      let tl := max (nowNs s) (grainBoundary s ltGateTakeover e.2.instant / ns1)
      (tl, changeTime s p tl))

/-- R281: the gates of a port at `t`, and until when they stay. -/
def gateAt (s : State) (p t : Nat) : Nat × Nat :=
  let oper := operCfg s p
  match gatePlan s p with
  | none => gateIn oper t
  | some (tl, c) =>
    if c ≤ t then gateIn (adminCfg s p) t
    else if oper.list.isEmpty ∨ oper.cycle = 0 then (31, c)
    else
      let s0 := c - (((c : Int) - oper.base) % oper.cycle).toNat
      if s0 ≠ c ∧ c - s0 ≤ oper.ext ∧ tl ≤ s0 ∧ s0 ≤ t then ((gateIn oper (s0 - 1)).1, c)
      else let r := gateIn oper t; (r.1, min r.2 c)

/-- R283: gate `cls` of a port is open at every instant from `t` to before `e`. -/
def gateOpenFor (s : State) (p cls : Nat) : Nat → Nat → Nat → Bool
  | 0, _, _ => false
  | fuel + 1, t, e =>
    if e ≤ t then true
    else let r := gateAt s p t; bitOf r.1 cls && gateOpenFor s p cls fuel r.2 e

/-- Time a frame takes at a port, for R283, in ns. -/
def frameTime (s : State) (len : Nat) : Nat := ((len + 12) * 8 * 1000000000 + portRate s - 1) / portRate s
def gateFits (s : State) (p cls len : Nat) : Bool := gateOpenFor s p cls 512 (nowNs s) (nowNs s + frameTime s len)

/-- One cycle of a list as its runs (gates, duration): held or cut at its end. -/
def gateCycle : List (Nat × Nat) → Nat → List (Nat × Nat)
  | [], _ => []
  | (g, i) :: t, left =>
    if left = 0 then [] else if t.isEmpty ∨ left ≤ i then [(g, left)] else (g, i) :: gateCycle t (left - i)

/-- The longest run of a gate over entries in a row. -/
def longestRun (cls : Nat) : List (Nat × Nat) → Nat → Nat → Nat
  | [], cur, best => max cur best
  | (g, d) :: t, cur, best => if bitOf g cls then longestRun cls t (cur + d) best else longestRun cls t 0 (max cur best)

/-- R284: the longest time a class's gate is open in the list in force, none where it is always or never open. -/
def gateLongest (s : State) (p cls : Nat) : Option Nat :=
  let c := operCfg s p
  let runs := gateCycle c.list c.cycle
  let open_ := runs.filter (fun e => bitOf e.1 cls)
  if runs.isEmpty ∨ open_.isEmpty ∨ open_.length = runs.length then none else some (longestRun cls (runs ++ runs) 0 0)

/-- R284: a head frame too long for its class. -/
def oversize (s : State) (p cls len : Nat) : Bool :=
  match gateLongest s p cls with | some d => decide (d < frameTime s len) | none => false

/-- The gates' state is shown. -/
def gateShow (p : Nat) (s : State) : State := wr (K.GATE_OPEN p) (gateAt s p (nowNs s)).1 s

/-- GATE_ENTRY_CHANGE: the next entry of a port's list is in force. -/
def execGateEntryChange (p : Fin 8) (s : State) : Res := .next (gateShow p.val s)

/-- GATE_TAKEOVER: at its step the takeover finds C and is PENDING; the launch completes at C (R280). -/
def execGateTakeover (s : State) : Res :=
  match dueLaunch s ltGateTakeover (fun l => (txPort s l.target).takeover.isNone) with
  | none => .next s
  | some (n, l) =>
    if hubTargetGone s l then .next (launchFailed n .retired s)
    else if !domainRuns s 10 then .next s
    else
      let tl := nowNs s
      let c := changeTime s l.target tl
      let s := txPortUpd l.target (fun x => { x with takeover := some { slot := n, tl := tl, c := c } }) s
      .next (wr (K.CHANGE_TIME l.target) c (wr (K.GATE_STATE l.target) 2
        (launchUpd n (fun l => { l with state := lsCommitted, late := isLate s l }) s)))

/-! ## Port scheduling (R274–R278) -/

/-- Queues of strict class `c` of port `p`, in queue order (Table TRF-3). -/
def classQueues (s : State) (p c : Nat) : List Nat :=
  ((List.range 64).filter (fun e => rd s (K.EP_PORT_TX e) == p && rd s (K.EP_CLASS e) == c)).map qTx
  ++ ((List.range 4).filter (fun h => rd s (K.HTX_PORT h) == p && rd s (K.HTX_CLASS h) == c)).map qHost
  ++ (if rd s K.PTP_PORT = p ∧ rd s K.CLASS_PTP = c then [qSys 9] else [])
  ++ (if rd s K.CLASS_CTRL = c then [qSys 13] else [])

/-- The oldest entry of a queue for the port: system queue 13 holds one list per port. -/
def headFor (s : State) (q p : Nat) : Option (QEntry × Packet) :=
  (queueOf s q).entries.findSome? (fun e => match e with
    | .pkt id => (packetOf s id).bind (fun x =>
        if q = qSys 13 then (match x.content with
          | .answer _ port _ _ => if port = p then some (e, x) else none
          | _ => none)
        else some (e, x))
    | .copy _ => none)

/-- Queues after `last` first, then the others. -/
def rotate (last : Nat) (qs : List Nat) : List Nat :=
  qs.filter (fun q => decide (last ≤ q)) ++ qs.filter (fun q => decide (q < last))

/-- The port's rate in bit/s, the management port's with them. -/
def anyRate (s : State) (p : Nat) : Nat :=
  if p = 8 then (if rd s K.MGMT_STATE = 1 then 100000000 else 1000000000) else portRate s

/-- A frame is on the wire. -/
def transmit (p cls : Nat) (leg : Option Nat) (f : TxFrame) (s : State) : State :=
  let t := nowNs s
  let s := txPortUpd p (fun x => { x with
    sending := some { leg := leg, cls := cls, from_ := t, until_ := t + (f.len + 24) * 8 * 1000000000 / anyRate s p
                      freeAt := clk s + (f.len + 24) * 8 * s1 / anyRate s p } }) s
  let s := if p = 8 then bumpBy (K.MGMT_COUNTS 3) (f.len + 4) (bump (K.MGMT_COUNTS 2) s)
    else bumpBy (K.FRAME_COUNTS p 3) (f.len + 4) (bump (K.FRAME_COUNTS p 2) s)
  let s := emit (.frameOctets p f.octets) (emit (.frame p f) s)
  match f.body with | .ptp kind _ seq _ _ => ptpSent kind seq (ptpStamp p s.isb.now) s | _ => s

/-- What happens at the head a port has chosen: sent, or found unusable, so that it chooses again. -/
inductive Pick where
  | sent (s : State)
  | again (s : State)
  | nothing

/-- An error found on reading a chosen entry (R262): 1 corrected, 2 uncorrectable data, 3 uncorrectable record or link. -/
def readEntry (read q : Nat) (e : QEntry) (s : State) : Option State :=
  let id := match e with | .pkt id => id | .copy c => c.pkt
  let lost (s : State) : State := match egressLeg q with | some l => bump (K.COPIES_LOST l) s | none => s
  if read = 3 then some (linkError q s)
  else if read = 2 then some (dropEntry q e (lost (packetBad id s)))
  else if ((packetOf s id).map Packet.bad).getD true then some (dropEntry q e (lost s))
  else none

/-- A strict class picks: the first queue after the one served last that passes every check. -/
def pickClass (read p c : Nat) (s : State) : List Nat → Pick
  | [] => .nothing
  | q :: rest =>
    match headFor s q p with
    | none => pickClass read p c s rest
    | some (e, x) =>
      match readEntry read q e s with
      | some s => .again s
      | none =>
        if oversize s p c x.len then .again (bump (K.GATE_OVERSIZE p) (dropEntry q e s))
        else if !gateFits s p c x.len then pickClass read p c s rest
        else
          let f := packetFrame s q p (rd s (K.SC_PCP p c)) x
          let cost : Int := 8000000000 * counted 1 x.len f.tag.isSome
          let s := upd (read == 1) (bump K.ECC_CORRECTED) s
          let s := if rd s (K.SC_RATE p c) = 0 then s
            else classUpd p c (fun _ => { level := some (classLevel s p c - cost), at_ := clkNs s }) s
          let s := txPortUpd p (fun x => { x with served := tabPut x.served c (q + 1) }) s
          .sent (dropEntry q e (bump (K.CLASS_FRAMES p c) (transmit p c none f s)))

/-- The strict classes, S0 first. -/
def pickStrict (read p : Nat) (s : State) : List Nat → Pick
  | [] => .nothing
  | c :: rest =>
    if !classConforms s p c || pfcPaused s p (rd s (K.SC_PCP p c)) then pickStrict read p s rest
    else
      match pickClass read p c s (rotate (tabGet 0 (txPort s p).served c) (classQueues s p c)) with
      | .nothing => pickStrict read p s rest
      | r => r

/-- Bookkeeping of a copy that has been granted (R293, R297, R306). -/
def copyGranted (l : Nat) (c : CopyRec) (f : TxFrame) (s : State) : State :=
  let t := nowNs s
  let wire := f.len + 24
  let payload := match f.body with | .rtp _ _ _ _ _ _ _ b => b.length | _ => 0
  let rtcp := c.slot == 4
  let hasTw := !rtcp && rd s (K.EXT_IDS l) % 256 != 0
  let s := { s with fwd.legs := tabMod {} s.fwd.legs l (fun (x : Leg) => { x with
    tw := if hasTw then (x.tw + 1) % 65536 else x.tw
    sent := if hasTw then (x.tw, t, wire) :: x.sent.take 4095 else x.sent
    audioLog := if c.slot = 0 then (clk s, 8 * wire) :: x.audioLog.filter (fun e => decide (clk s < e.1 + 5 * s1)) else x.audioLog
    slots := if rtcp then x.slots else tabMod {} x.slots c.slot (fun (y : LegSlot) => { y with
      packets := y.packets + 1, octets := y.octets + payload, sentSince := true }) }) }
  let s := bump (K.COPIES_SENT l) s
  if rtcp then
    let i := rd s (K.SRTCP_INDEX l) + 1
    upd (decide (i ≥ 2147483647)) (wr (K.RTCP_EXHAUSTED l) 1) (wr (K.SRTCP_INDEX l) i s)
  else s

/-- The leg group: deficit round robin over the active list (R277). -/
def pickLegs (read p : Nat) : Nat → State → Pick
  | 0, _ => .nothing
  | fuel + 1, s =>
    match (txPort s p).active with
    | [] => .nothing
    | l :: _ =>
      match (queueOf s (qOut l)).entries with
      | .copy c :: _ =>
        let x := legTraffic s l
        let quantum := rd s (K.SH_WEIGHT l) * rd s (K.QUANTUM_UNIT p)
        let x := if x.credited then x else { x with deficit := x.deficit + quantum, credited := true }
        let s := legTrafficUpd l (fun _ => x) (egressPromote l s)
        let f := copyFrame s l c
        let b := counted (rd s (K.SH_COUNT l)) f.len f.tag.isSome
        match readEntry read (qOut l) (.copy c) s with
        | some s => .again s
        | none =>
          if c.slot == 4 && rd s (K.RTCP_EXHAUSTED l) == 1 then .again (popEntry (qOut l) s)
          else if x.deficit < b then
            let s := legTrafficUpd l (fun x => { x with credited := false }) s
            pickLegs read p fuel (txPortUpd p (fun y => { y with active := y.active.drop 1 ++ [l] }) s)
          else if oversize s p 4 f.len then
            let s := bump (K.COPIES_LOST l) (bump (K.GATE_OVERSIZE p) (popEntry (qOut l) s))
            .again { s with fwd.legs := tabMod {} s.fwd.legs l (fun (y : Leg) => { y with refused := y.refused + 1 }) }
          else if !gateFits s p 4 f.len then .nothing
          else
            let s := upd (read == 1) (bump K.ECC_CORRECTED) s
            let s := copyGranted l c f (bump (K.CLASS_FRAMES p 4) (transmit p 4 (some l) f s))
            let s := bumpBy (K.SH_SENT l) b (popEntry (qOut l) s)
            let level := shaperLevel s l - 8000000000 * b
            let s := legTrafficUpd l (fun x => { x with deficit := x.deficit - b, shaper := { level := some level, at_ := clkNs s } }) s
            let empty := (queueOf s (qOut l)).entries.isEmpty
            let s := if empty then legUnlist p l (legTrafficUpd l (fun x => { x with deficit := 0, credited := false }) s)
              else if level < 0 then
                legUnlist p l (legTrafficUpd l (fun x => { x with deficit := min x.deficit quantum, credited := false }) s)
              else s
            .sent (shaperPublish l s)
      | _ => pickLegs read p fuel (legUnlist p l (legTrafficUpd l (fun x => { x with deficit := 0, credited := false }) s))

/-- A pending PAUSE or PFC frame goes first (R255, R274). -/
def sendPause (p quanta : Nat) (s : State) : State :=
  let body : TxBody := if rd s (K.PAUSE_MODE p) = 2 then
      .pfc ((List.range 8).map (fun i => if bitOf (rd s (K.PFC_PRIO p)) i then quanta else 0))
    else .pause quanta
  let s := transmit p 5 none { queue := 0xFFFF, len := 60, dstMac := 0x0180C2000001, srcMac := portMac s p, body := body } s
  bump (K.PAUSE_SENT p) (txPortUpd p (fun x => { x with pauseDue := none, pauseAt := clk s }) s)

/-- A data port chooses its next frame (R274). -/
def pickPort (p : Nat) : Nat → Nat → State → State
  | 0, _, s => s
  | fuel + 1, read, s =>
    match (txPort s p).pauseDue with
    | some q => sendPause p q s
    | none =>
      if paused s p then s else
      match pickStrict read p s [0, 1, 2, 3] with
      | .sent s => s
      | .again s => pickPort p fuel 0 s
      | .nothing =>
        match pickLegs read p ((txPort s p).active.length * 160 + 1) s with
        | .sent s => s
        | .again s => pickPort p fuel 0 s
        | .nothing => s

/-- Queues of the management port, in strict order, the host queues round-robin (R278). -/
def mgmtQueues (s : State) : List Nat :=
  (if rd s K.PTP_PORT = 8 then [qSys 9] else []) ++ [qSys 12, qSys 11]
    ++ rotate (tabGet 0 (txPort s 8).served 0) (((List.range 4).filter (fun h => rd s (K.HTX_PORT h) == 8)).map qHost)

def pickMgmt (read : Nat) : Nat → State → State
  | 0, s => s
  | fuel + 1, s =>
    if paused s 8 then s else
    match (mgmtQueues s).findSome? (fun q => (headFor s q 8).map (fun r => (q, r))) with
    | none => s
    | some (q, e, x) =>
      match readEntry read q e s with
      | some s => pickMgmt 0 fuel s
      | none =>
        let s := upd (read == 1) (bump K.ECC_CORRECTED) s
        let s := if qHost 0 ≤ q ∧ q ≤ qHost 3 then txPortUpd 8 (fun x => { x with served := tabPut x.served 0 (q + 1) }) s else s
        dropEntry q e (transmit 8 5 none (packetFrame s q 8 0 x) s)

/-- PORT_TRANSMITTER_FREE: `p` 8 is the management port; `read` is the error found on reading the chosen entry. The frame
being sent and the gap after it end first. -/
def execPortTransmitterFree (p : Fin 9) (read : Fin 4) (s : State) : Res :=
  if (txPort s p.val).sending.any (fun f => decide (clk s < f.freeAt)) then .next s else
  let s := txPortUpd p.val (fun x => { x with sending := none }) s
  if p.val = 8 then .next (if rd s K.MGMT_STATE = 0 then s else pickMgmt read.val 64 s)
  else if portUp s p.val then .next (pickPort p.val 64 read.val s)
  else .next s

/-! ## The switch of gate lists (R280–R284) -/

/-- R284: head frames longer than their class's longest window are released. -/
def dropOversize (p : Nat) : Nat → State → State
  | 0, s => s
  | fuel + 1, s =>
    let strict := [0, 1, 2, 3].findSome? (fun c => (classQueues s p c).findSome? (fun q =>
      (headFor s q p).bind (fun r => if oversize s p c r.2.len then some (q, r.1) else none)))
    match strict with
    | some (q, e) => dropOversize p fuel (bump (K.GATE_OVERSIZE p) (dropEntry q e s))
    | none =>
      let leg := (s.pkt.queues.filterMap (fun e => egressLeg e.1)).find? (fun l => legPort s l == p
        && (match (queueOf s (qOut l)).entries with | .copy c :: _ => oversize s p 4 (copyFrame s l c).len | _ => false))
      match leg with
      | some l =>
        let s := bump (K.COPIES_LOST l) (bump (K.GATE_OVERSIZE p) (popEntry (qOut l) s))
        dropOversize p fuel { s with fwd.legs := tabMod {} s.fwd.legs l (fun (y : Leg) => { y with refused := y.refused + 1 }) }
      | none => s

/-- The owner of the comparator a port's list holds (R282). -/
def gateOwner (p : Nat) : Nat := ownKey (0x7A00 + p) 5

/-- GATE_CONFIG_CHANGE: C has come. -/
def execGateConfigChange (p : Fin 8) (s : State) : Res :=
  match (txPort s p.val).takeover with
  | none => .next s
  | some g =>
    if nowNs s < g.c then .next s
    else
      let excess := match (txPort s p.val).sending with
        | some f => decide (f.cls < 5) && decide (g.c < f.until_)
            && decide (f.from_ * ns1 + commitLead ltGateTakeover < (launchOf s g.slot).instant)
        | none => false
      let list := rdBlob s (K.ADMIN_LIST p.val)
      let s := wrBlob (K.OPER_LIST p.val) list (wr (K.OPER_BASE p.val) (rd s (K.ADMIN_BASE p.val))
        (wr (K.OPER_CYCLE p.val) (rd s (K.ADMIN_CYCLE p.val)) (wr (K.OPER_EXT p.val) (rd s (K.ADMIN_EXT p.val)) s)))
      let s := txPortUpd p.val (fun x => { x with takeover := none }) s
      let s := launchDone g.slot (launchOf s g.slot).late s
      let s := if list.isEmpty then unclaimAll 1 (gateOwner p.val) s else s
      let s := upd excess (bump (K.GATE_OVERRUN p.val)) (bump (K.CONFIG_CHANGES p.val)
        (wr (K.GATE_STATE p.val) (b2n !list.isEmpty) s))
      .next (gateShow p.val (dropOversize p.val 4096 s))

/-! ## Received flow control (R242, R276) -/

/-- Time of a number of quanta. -/
def quantaTime (s : State) (p q : Nat) : Nat := q * 512 * 1000000000 * ns1 / anyRate s p

/-- TX_PAUSED follows; legs rejoin, or leave, with their priority. -/
def pauseSync (p : Nat) (s : State) : State :=
  if p = 8 then s else
  let x := txPort s p
  let pfc := x.pfcEnd.filter (fun e => decide (clk s < e.2))
  let s := txPortUpd p (fun x => { x with pfcEnd := pfc, active := x.active.filter (fun l => !pfcPaused s p (rd s (K.TX_PCP l))) }) s
  let s := wr (K.LEGS_ACTIVE p) (txPort s p).active.length s
  wakePort p (wr (K.TX_PAUSED p) (b2n (paused s p || !pfc.isEmpty)) s)

/-- A PAUSE is received. -/
def pauseIn (p quanta : Nat) (s : State) : State :=
  if p = 8 then txPortUpd 8 (fun x => { x with pauseEnd := clk s + quantaTime s 8 quanta }) s
  else
    let s := bump (K.PAUSE_RECEIVED p) s
    if rd s (K.RX_PAUSE_EN p) = 0 then s
    else pauseSync p (txPortUpd p (fun x => { x with pauseEnd := clk s + quantaTime s p quanta }) s)

/-- PAUSE_RECEIVED: `p` 8 is the management port. -/
def execPauseReceived (p : Fin 9) (quanta : Nat) (s : State) : Res := .next (pauseIn p.val quanta s)

/-- A PFC frame is received: its priority enables, and their quanta. -/
def pfcIn (p enabled : Nat) (quanta : List Nat) (s : State) : State :=
  let s := bump (K.PAUSE_RECEIVED p) s
  if rd s (K.RX_PAUSE_EN p) = 0 then s
  else
    let ends := (List.range 8).foldl (fun t i =>
      if bitOf enabled i then tabSet 0 t i (clk s + quantaTime s p (quanta.getD i 0)) else t) (txPort s p).pfcEnd
    pauseSync p (txPortUpd p (fun x => { x with pfcEnd := ends }) s)
def execPfcReceived (p : Fin 8) (enabled : Nat) (quanta : List Nat) (s : State) : Res := .next (pfcIn p.val enabled quanta s)

/-- PAUSE_EXPIRY: a received pause time has ended. -/
def execPauseExpiry (p : Fin 9) (s : State) : Res := .next (pauseSync p.val s)

end Sys2Proof.Machine
end

