-- ==== Sys2Proof/Machine/Forward.lean ====
section
/-! DEFINITION. Legs and layered forwarding: slots, sources, copies, layer selection, RTCP, failover (chapter FWD); data
ports coming and going (R236, R240). -/
namespace Sys2Proof.Machine

/-! ## Legs, slots and sources (R286–R291) -/

def legOf (s : State) (l : Nat) : Leg := tabGet {} s.fwd.legs l
def legUpd (l : Nat) (f : Leg → Leg) (s : State) : State := { s with fwd.legs := tabMod {} s.fwd.legs l f }
/-- Slot `k` of a leg: 0 audio, 1–3 V0–V2. -/
def slotOf (s : State) (l k : Nat) : LegSlot := tabGet {} (legOf s l).slots k
def slotUpd (l k : Nat) (f : LegSlot → LegSlot) (s : State) : State :=
  legUpd l (fun x => { x with slots := tabMod {} x.slots k f }) s
def vsrcOf (s : State) (i : Nat) : VideoSource := tabGet {} s.fwd.sources i
def vsrcUpd (i : Nat) (f : VideoSource → VideoSource) (s : State) : State :=
  { s with fwd.sources := tabMod {} s.fwd.sources i f }

/-- Legs in one of the states ACTIVE and FAILOVER, ascending. -/
def upLegs (s : State) : List Nat :=
  s.regs.filterMap (fun e =>
    if 0x8000 ≤ keyIndex e.1 ∧ keyIndex e.1 < 0xD000 ∧ keySub e.1 = 2 ∧ (e.2 = 1 ∨ e.2 = 2) then some (keyIndex e.1 - 0x8000)
    else none)

/-- R290: a source code that may be written. -/
def sourceCodeOk (v : Nat) : Bool :=
  let kind := v / 1073741824 % 4
  if kind = 0 then v == 0
  else if kind = 1 then v / 131072 % 8192 == 0 && decide (v % 65536 < bidirLegs)
  else kind == 2 && v / 64 % 16777216 == 0

/-- R290: a layer code that may be written. -/
def layerCodeOk (v : Nat) : Bool := v == 0xFF || (decide (v / 16 ≤ 2) && decide (v % 16 ≤ 2))

/-- Composition outputs as source numbers. -/
abbrev cmpSource : Nat := 0x10000

/-- The source a code names. -/
def srcId (v : Nat) : Option Nat :=
  let kind := v / 1073741824 % 4
  if kind = 1 then some (v % 65536 * 2 + v / 65536 % 2) else if kind = 2 then some (cmpSource + v % 64) else none

/-- Codec of a source: 1 H.264, 2 AV1, 3 a composition output. -/
def srcCodec (s : State) (i : Nat) : Nat :=
  if cmpSource ≤ i then 3 else rd s (K.VS_CODEC (i / 2)) / 16 ^ (i % 2) % 16

/-- SSRCs of a video source, lowest quality first. -/
def srcSsrcs (s : State) (i : Nat) : List Nat :=
  let b := rdBlob s (if i % 2 = 0 then K.VS0_SSRCS (i / 2) else K.VS1_SSRCS (i / 2))
  (List.range (b.length / 4)).map (fun n => leAt b (4 * n) 4)

/-- Current layer and wanted layer of V slot `j`. -/
def slotCur (s : State) (l j : Nat) : Nat := rd s (K.SLOT_CUR l j)
def slotWant (s : State) (l j : Nat) : Nat := rd s (K.SLOT_WANT l j)
abbrev layerPaused : Nat := 0xFF

/-- SLOT_STATE and the wait for a switch point follow (R300, R305). -/
def slotSync (l j : Nat) (s : State) : State :=
  let x := slotOf s l (j + 1)
  let set_ := rd s (K.SLOT_SOURCE l j)
  let waits := slotCur s l j != slotWant s l j || x.source != set_
  let st := if !legUp s l || (set_ == 0 && x.source == 0) then 0
    else if waits then 2 else if slotCur s l j = layerPaused then 3 else 1
  let wantsSwitch := waits && slotWant s l j != layerPaused && set_ != 0 && legUp s l
  let s := slotUpd l (j + 1) (fun x => { x with
    waitSince := if wantsSwitch then (match x.waitSince with | some t => some t | none => some (clk s)) else none }) s
  wr (K.SLOT_STATE_FWD l j) st s

/-- WANT is set. -/
def setWant (l j v : Nat) (s : State) : State :=
  if slotWant s l j = v then s else
  let s := slotUpd l (j + 1) (fun x => { x with wantAt := clk s, waitSince := none }) (wr (K.SLOT_WANT l j) v s)
  slotSync l j s

/-- A slot's source is set: SLOT_SOURCE is written (R304). The source it already has changes nothing. -/
def setSource (l j v : Nat) (s : State) : State :=
  if rd s (K.SLOT_SOURCE l j) = v then s
  else slotSync l j (slotUpd l (j + 1) (fun x => { x with waitSince := none }) (wr (K.SLOT_SOURCE l j) v s))

/-- Every V slot that has, or is set to, a source: leg × 4 + slot, in ascending order (R294). -/
def slotsOn (s : State) (i : Nat) : List Nat :=
  (upLegs s).flatMap (fun l => (List.range 3).filterMap (fun j =>
    if srcId (rd s (K.SLOT_SOURCE l j)) = some i ∨ srcId (slotOf s l (j + 1)).source = some i then some (l * 4 + j) else none))

/-! ## Rungs (R298) -/

/-- rate(src, d) in bit/s over FWD_RATE_WINDOW. -/
def srcRate (s : State) (i d : Nat) : Nat :=
  let w := rd s K.FWD_RATE_WINDOW
  ((vsrcOf s i).log.foldl (fun n e => if clk s < e.1 + w * ms1 ∧ e.2.2.contains d then n + e.2.1 else n) 0) * 1000 / w

/-- Insert a code in ascending order. -/
def insCode (d : Nat) : List Nat → List Nat
  | [] => [d]
  | e :: t => if d < e then d :: e :: t else if d = e then e :: t else e :: insCode d t

/-- Targets a source may have: decode targets, simulcast streams, the one of a composition output. -/
def srcTargets (s : State) (i : Nat) : List Nat :=
  let c := srcCodec s i
  if c = 2 then (vsrcOf s i).targets.foldl (fun l d => insCode d l) []
  else if c = 1 then (List.range (srcSsrcs s i).length).map (· * 16) else if c = 3 then [0] else []

def rungs (s : State) (i : Nat) : List Nat := (srcTargets s i).filter (fun d => decide (0 < srcRate s i d))

/-- A packet of a source is counted for its layers. -/
def srcLog (i bits : Nat) (layers : List Nat) (s : State) : State :=
  vsrcUpd i (fun x => { x with log := (clk s, bits, layers) :: x.log.filter (fun e => decide (clk s < e.1 + 5 * s1)) }) s

/-! ## Enabling and disabling (R287, R310) -/

/-- Big-endian octets of an IPv4 address held as a number (assumption 30). -/
def ipv4Bytes (v : Nat) : Bytes := (leBytes 4 v).reverse

/-- An address is one of a port's. -/
def portAddr (s : State) (p : Nat) (a : Bytes) : Bool :=
  (a.length == 4 && rd s (K.IPV4_ADDR p) != 0 && a == ipv4Bytes (rd s (K.IPV4_ADDR p)))
  || (a.length == 16 && a == rdBlob s (K.IPV6_ADDR p))

/-- The tuple of a leg. -/
def legTuple (s : State) (l : Nat) : Bytes × Nat × Bytes × Nat :=
  (rdBlob s (K.LOCAL_ADDR l), rd s (K.LOCAL_UDP l), rdBlob s (K.REMOTE_ADDR l), rd s (K.REMOTE_UDP l))

def legEnStatus (l : Nat) (on : Bool) (s : State) : Status :=
  if !on || rd s (K.LEG_EN l) == 1 then .ok else
  let p := rd s (K.LEG_PORT l)
  let ssrc (j : Nat) := rd s (K.OUT_SSRC l j)
  checks [
    (isRetired s cLeg l, .retired),
    (!portPresent s p || !portAddr s p (rdBlob s (K.LOCAL_ADDR l))
      || (rdBlob s (K.REMOTE_ADDR l)).length != (rdBlob s (K.LOCAL_ADDR l)).length
      || rd s (K.ALT_PORT l) == p
      || (tabGet {} s.sea.srtpIn l).cur.isNone || (tabGet {} s.sea.srtpOut l).cur.isNone
      || ssrc 0 == ssrc 1 || ssrc 0 == ssrc 2 || ssrc 1 == ssrc 2, .range),
    ((upLegs s).any (fun m => m != l && legTuple s m == legTuple s l), .conflict)]

/-- The leg starts: indices, estimate, shaper and queues (R291, R297, R270). -/
def legStart (l : Nat) (s : State) : State :=
  let i := rd s (K.INIT_SEQ l)
  let slots : Tab LegSlot := [0, 1, 2, 3].foldl (fun t k => tabSet {} t k ({ index := i, wantAt := clk s } : LegSlot)) []
  let s := { s with fwd.legs := tabSet {} s.fwd.legs l ({ slots := slots } : Leg) }
  let s := legTrafficUpd l (fun x => { x with shaper := {}, deficit := 0, credited := false, adapted := 0 }) s
  let s := queueUpd (qIn l) (fun x => { x with disabled := false }) (queueUpd (qOut l) (fun x => { x with disabled := false }) s)
  let s := wr (K.EST_E l) (rd s (K.EST_START l)) (wr (K.LEG_STATE l) 1 s)
  [0, 1, 2].foldl (fun s j => slotSync l j
    (wr (K.SLOT_INDEX l j) i (wr (K.SLOT_CUR l j) layerPaused (wr (K.SLOT_WANT l j) layerPaused s)))) s

/-- Slots that use a leg's sources are PAUSED (R301). -/
def pauseSlotsOf (l : Nat) (s : State) : State :=
  [2 * l, 2 * l + 1].foldl (fun s i =>
    (slotsOn s i).foldl (fun s lj =>
      let m := lj / 4
      let j := lj % 4
      if srcId (slotOf s m (j + 1)).source = some i ∨ slotCur s m j = layerPaused then
        slotSync m j (setWant m j layerPaused (wr (K.SLOT_CUR m j) layerPaused s))
      else s) s) s

/-- R310: a leg is disabled or retired. -/
def legStop (l st : Nat) (s : State) : State :=
  let p := legPort s l
  let s := flushQueue (qOut l) (flushQueue (qIn l) s)
  let s := queueUpd (qIn l) (fun x => { x with disabled := true }) (queueUpd (qOut l) (fun x => { x with disabled := true }) s)
  let s := legUnlist p l (wr (K.LEG_STATE l) st s)
  let s := { s with fwd.fan := s.fwd.fan.filterMap (fun f =>
    if (packetOf s f.pkt).isNone then none else some { f with slots := f.slots.filter (fun x => x / 4 != l) }) }
  let s := if l < bidirLegs then pauseSlotsOf l (legLeaves l s) else s
  let s := { s with fwd.sources := s.fwd.sources.filter (fun e => !(e.1 / 2 == l && decide (e.1 < cmpSource))) }
  [0, 1, 2].foldl (fun s j => slotSync l j (wr (K.SLOT_CUR l j) layerPaused (wr (K.SLOT_WANT l j) layerPaused
    (slotUpd l (j + 1) (fun x => { x with source := 0 }) s)))) s

def legEn (l : Nat) (on : Bool) (s : State) : State :=
  let was := rd s (K.LEG_EN l) == 1
  let s := wr (K.LEG_EN l) (b2n on) s
  if on == was then s else if on then legStart l s
  else legStop l (if isRetired s cLeg l then 3 else 0) s

/-- LEG_EN: key 8000h + l:01. -/
def writeLegEn (inst : Inst) (tag l : Nat) (on : Bool) (s : State) : State :=
  runWrite inst tag (0x8000 + l) 1 on
    (if l < 20480 then worst (mediaStatus on s) (legEnStatus l on s) else .noEntry) (legEn l on) s

/-- An upset of a leg (R310). -/
def legUpset (l : Nat) (s : State) : State :=
  let r := upset cLeg l (bump (K.LEG_UPSETS l) s)
  if r.2 then legStop l 3 r.1 else r.1

/-- R444: a cleared leg starts again. -/
def legCleared (l : Nat) (s : State) : State :=
  if rd s (K.LEG_EN l) = 1 then legStart l s else wr (K.LEG_STATE l) 0 s

/-- AUTH_FAIL_SECOND: a second of Isobar has passed. -/
def execAuthFailSecond (leg : Nat) (s : State) : Res :=
  if clk s < (legOf s leg).authAt + s1 then .next s else
  let n := (legOf s leg).authFails
  let s := legUpd leg (fun x => { x with authFails := 0, authAt := clk s }) s
  .next (if 64 < n then legUpset leg s else s)

/-! ## Switch points (R300–R302, Table FWD-4) -/

/-- Decode target indication for a layer: 0 not present, 2 switch. -/
def dtiOf (f : FanOut) (d : Nat) : Nat := match f.dd with | some x => tabGet 0 x.dti d | none => 0

/-- The packet belongs to layer `d`. -/
def belongs (codec : Nat) (f : FanOut) (d : Nat) : Bool :=
  if codec = 2 then dtiOf f d != 0 else if codec = 1 then f.stream == d / 16 else true

/-- The packet is a switch point to layer `d`. -/
def switchesTo (codec : Nat) (f : FanOut) (d : Nat) : Bool :=
  if codec = 2 then f.start && dtiOf f d == 2
  else if codec = 1 then f.switchPoint && f.stream == d / 16 else f.switchPoint

/-- CUR after the packet, on its own source, when WANT differs (Table FWD-4). -/
def curNext (s : State) (codec : Nat) (f : FanOut) (cur want : Nat) : Nat :=
  if codec = 2 then
    let lowerT := want / 16 == cur / 16 && decide (want % 16 < cur % 16)
    let lowerS := decide (want / 16 < cur / 16) && decide (want % 16 ≤ cur % 16)
    if lowerT then (if f.start then want else cur)
    else if lowerS && !(vsrcOf s f.source).s3t3 then (if f.newUnit then want else cur)
    else if switchesTo codec f want then want else cur
  else if switchesTo codec f want then want else cur

/-- A packet of the fan-out reaches a slot: whether it is forwarded there, and whether it starts a source on it. -/
def slotTake (f : FanOut) (l j : Nat) (s : State) : Bool × Bool × State :=
  let x := slotOf s l (j + 1)
  let set_ := rd s (K.SLOT_SOURCE l j)
  let want := slotWant s l j
  let cur := slotCur s l j
  let codec := srcCodec s f.source
  let isNow := srcId x.source == some f.source
  if srcId set_ = some f.source ∧ (x.source ≠ set_ ∨ cur = layerPaused) ∧ want ≠ layerPaused ∧ switchesTo codec f want then
    let s := upd (x.source != set_) (bump K.SWITCHES) (wr (K.SLOT_CUR l j) want s)
    let s := slotUpd l (j + 1) (fun x => { x with source := set_, fresh := true, lowered := none }) s
    (belongs codec f want, true, slotSync l j s)
  else if !isNow || cur == layerPaused then (false, false, s)
  else
    let next :=
      if want = layerPaused ∨ set_ = 0 then (if f.start then layerPaused else cur)
      else if x.source ≠ set_ then cur
      else match x.lowered with
        | some v => if f.start then v else cur
        | none => if want = cur then cur else curNext s codec f cur want
    if next = cur then (belongs codec f cur, false, s)
    else
      let stops := next == layerPaused
      let s := upd (stops && x.source != set_) (bump K.SWITCHES) (wr (K.SLOT_CUR l j) next s)
      let s := slotUpd l (j + 1) (fun x => { x with
        fresh := true, lowered := none, source := if stops then set_ else x.source }) s
      (!stops && belongs codec f next, false, slotSync l j s)

/-- R301: a source's template structure has changed. -/
def rungBelow (ts : List Nat) (d : Nat) : Nat := ((ts.filter (fun t => decide (t ≤ d))).getLast?).getD layerPaused
def templateChanged (i : Nat) (s : State) : State :=
  let ts := srcTargets s i
  (slotsOn s i).foldl (fun s lj =>
    let l := lj / 4
    let j := lj % 4
    let x := slotOf s l (j + 1)
    let s := if slotWant s l j ≠ layerPaused ∧ srcId (rd s (K.SLOT_SOURCE l j)) = some i ∧ !ts.contains (slotWant s l j) then
        setWant l j (rungBelow ts (slotWant s l j)) s
      else s
    if slotCur s l j ≠ layerPaused ∧ srcId x.source = some i ∧ !ts.contains (slotCur s l j) then
      slotUpd l (j + 1) (fun x => { x with lowered := some (rungBelow ts (slotCur s l j)) }) s
    else s) s

/-! ## Copies (R291, R292, R294–R296) -/

/-- Incoming RTP timestamp and arrival (ns) of a packet: of a composed picture, of its boundary. -/
def mediaTime (p : Packet) : Nat × Nat :=
  match p.content with
  | .rx f => (match f.body with
    | .udp u => (match u.pay with | .rtp r _ => (r.ts, p.arrival / ns1) | _ => (0, p.arrival / ns1))
    | _ => (0, p.arrival / ns1))
  | .picture t _ _ _ _ => (t / ns1 * 9 / 100000 % 4294967296, t / ns1)
  | _ => (0, p.arrival / ns1)

/-- Indices are 48 bits. -/
abbrev indexSpace : Nat := 281474976710656

/-- A slot's next index is taken. -/
def takeIndex (l k : Nat) (s : State) : Nat × State :=
  let i := (slotOf s l k).index
  let s := slotUpd l k (fun x => { x with index := (i + 1) % indexSpace }) s
  (i, if k = 0 then s else wr (K.SLOT_INDEX l (k - 1)) ((i + 1) % indexSpace) s)

/-- The index lies above the reserved limit of the latest checkpoint the peer has acknowledged (R309). -/
def aboveLimit (s : State) (l k i : Nat) : Bool :=
  pairHealthy s && (match (slotOf s l k).limit with | some m => decide (m < i) | none => false)

/-- A refused copy: counted, and its leg is congested (R296). -/
def copyRefused (l : Nat) (s : State) : State := bump (K.COPIES_REFUSED l) (legUpd l (fun x => { x with refused := x.refused + 1 }) s)

/-- COPY_RATE counts a copy formed. -/
def countFormed (s : State) : State :=
  let l := clk s :: s.fwd.formed.filter (fun t => decide (clk s < t + s1))
  wr K.COPY_RATE l.length { s with fwd.formed := l }

/-- R309: the leg media checkpoint of a leg. -/
def legCkptOf (s : State) (l : Nat) : LegCkpt :=
  let gap := rd s K.FWD_GAP_SEQ
  let slot (k : Nat) : SlotCkpt :=
    let x := slotOf s l k
    { limit := x.index + gap, tsOff := x.tsOff, lastTs := x.lastTs, lastArr := x.lastArr,
      cur := if k = 0 then layerPaused else slotCur s l (k - 1), want := if k = 0 then layerPaused else slotWant s l (k - 1),
      source := if k = 0 then 0 else rd s (K.SLOT_SOURCE l (k - 1)) }
  { leg := l, slots := [0, 1, 2, 3].map slot, tw := ((legOf s l).tw + gap) % 65536, estimate := rd s (K.EST_E l),
    highest := (tabGet {} s.sea.srtpIn l).highest.filterMap (fun e => e.2.map (fun i => (e.1, i))) }

/-- A checkpoint of a leg is sent to the standby. -/
def sendCkpt (l : Nat) (s : State) : State :=
  let c := legCkptOf s l
  let s := [0, 1, 2, 3].foldl (fun s k => slotUpd l k (fun x => { x with ckptSent := (c.slots[k]?).map (·.limit) }) s) s
  pairSend (.legCkpt c) s

/-- A copy of slot `k` is presented to the leg's egress queue. -/
def presentCopy (l : Nat) (c : CopyRec) (s : State) : State :=
  if aboveLimit s l c.slot c.index then sendCkpt l (copyRefused l s)
  else
    let r := admitCopy (qOut l) c s
    if r.1 then shaperPublish l (legWake l r.2) else copyRefused l r.2

/-- The copy of a video packet for V slot `j`. -/
def formCopy (f : FanOut) (l j : Nat) (newSource : Bool) (s : State) : State :=
  match packetOf s f.pkt with
  | none => s
  | some p =>
    let x := slotOf s l (j + 1)
    let t := mediaTime p
    let off := if newSource then (match x.lastTs with
        | some last => (last + max 1 ((t.2 - x.lastArr) * 9 / 100000) + 4294967296 - t.1) % 4294967296
        | none => 0)
      else x.tsOff
    let outTs := (t.1 + off) % 4294967296
    let marker := if srcCodec s f.source = 2 then (match f.dd with
        | some d => d.fin && d.spatial == slotCur s l j / 16
        | none => false)
      else f.marker
    let i := takeIndex l (j + 1) s
    let s := slotUpd l (j + 1) (fun x => { x with tsOff := off, lastTs := some outTs, lastArr := t.2, fresh := false }) i.2
    presentCopy l { pkt := f.pkt, slot := j + 1, marker := marker, frameStart := f.start, switched := x.fresh, index := i.1,
                    outTs := outTs } (countFormed s)

/-- R295: the fan-out whose next slot is looked at: a first entry ahead of the rest, unless its slot still has an earlier
packet to form. -/
def fanNext : List FanOut → List FanOut → Option FanOut
  | [], _ => none
  | f :: rest, earlier =>
    match f.slots with
    | x :: _ => if f.first && !earlier.any (fun e => e.slots.contains x) then some f else fanNext rest (earlier ++ [f])
    | [] => fanNext rest (earlier ++ [f])

/-- A packet's list has been gone through: its ingress entry is released (R294). -/
def fanDone (f : FanOut) (s : State) : State :=
  let s := { s with fwd.fan := s.fwd.fan.filter (fun e => e.pkt != f.pkt) }
  match (packetOf s f.pkt).bind Packet.queue with
  | some q => dropEntry q (.pkt f.pkt) s
  | none => releaseRef f.pkt s

/-- Look at slots until a copy is formed. -/
def fanStep : Nat → State → State
  | 0, s => s
  | fuel + 1, s =>
    match s.fwd.fan with
    | [] => s
    | oldest :: _ =>
      let f := (fanNext s.fwd.fan []).getD oldest
      match f.slots with
      | [] => fanStep fuel (fanDone f s)
      | x :: rest =>
        let s := { s with fwd.fan := s.fwd.fan.map (fun e => if e.pkt = f.pkt then { e with slots := rest, first := false } else e) }
        let r := slotTake f (x / 4) (x % 4) s
        let s := if r.1 then formCopy f (x / 4) (x % 4) r.2.1 r.2.2 else r.2.2
        let s := if rest.isEmpty then fanDone f s else s
        if r.1 then s else fanStep fuel s

/-- COPY_FORMATION: the engine forms the next copy; a hub that does not forward forms none (R460). -/
def execCopyFormation (s : State) : Res :=
  .next (if !serves s then s else fanStep (s.fwd.fan.foldl (fun n f => n + f.slots.length + 1) 0) s)

/-- A packet made for a leg, with its copy record of slot `k`, is admitted to the leg's egress queue. -/
def sendMade (l : Nat) (p : Packet) (c : CopyRec) (s : State) : State :=
  let need := cellsOf p.len + copyNeed (queueOf s (qOut l))
  if !serves s then s
  else if aboveLimit s l c.slot c.index && c.slot != 4 then sendCkpt l (copyRefused l s)
  else match admission s (qOut l) need with
    | .ok =>
      let r := addPacket { p with refs := 0, leg := l, queue := some (qOut l) } (spillsTo s (qOut l)) s
      let s := queueUpd (qOut l) (fun x => { x with cells := x.cells + cellsOf p.len }) r.2
      let a := admitCopy (qOut l) { c with pkt := r.1 } s
      shaperPublish l (legWake l a.2)
    | a => copyRefused l (refuse (qOut l) a s)

/-! ## Layer selection (R299) -/

/-- The wanted layer `d` is above `w`; PAUSED is below every rung. -/
def layerAbove (d w : Nat) : Bool := w == layerPaused || decide (w < d)

/-- One slot of select(l): the best rung that fits, from the rungs in ascending order. -/
def bestRung (s : State) (l j i rem : Nat) (cap : Option Nat) : List Nat → Nat → Nat
  | [], best => best
  | d :: t, best =>
    let max_ := rd s (K.SLOT_MAX l j)
    let within := if max_ = layerPaused then false else decide (d / 16 ≤ max_ / 16) && decide (d % 16 ≤ max_ % 16)
    let capOk := match cap with | none => false | some c => decide (d ≤ c)
    if !(within && capOk) then bestRung s l j i rem cap t best
    else
      let rises := layerAbove d (slotWant s l j)
      let need := srcRate s i d
      if rises && decide (clk s < (slotOf s l (j + 1)).wantAt + rd s K.FWD_UP_HOLD * ms1) then best
      else
        let need := if rises then need * rd s K.FWD_UP_MARGIN / 100 else need
        if rem < need then best else bestRung s l j i rem cap t d

/-- Caps of the slots of a congested leg: none rises, and the highest slot above its floor goes a rung down. -/
def congestedCaps (s : State) (l : Nat) : List (Option Nat) :=
  let want (j : Nat) := slotWant s l j
  let rs (j : Nat) : List Nat := (srcId (rd s (K.SLOT_SOURCE l j))).elim [] (rungs s)
  let keep (j : Nat) : Option Nat := if want j = layerPaused then none else some (want j)
  let aboveFloor (j : Nat) : Bool :=
    want j != layerPaused && (j != 0 || (match (rs 0).head? with | some d => decide (d < want 0) | none => true))
  let down (j : Nat) : Option Nat := ((rs j).filter (fun d => decide (d < want j))).getLast?
  match [2, 1, 0].find? aboveFloor with
  | some h => [0, 1, 2].map (fun j => if j = h then down j else keep j)
  | none => [0, 1, 2].map keep

/-- select(l): each slot's WANT. -/
def selectLayers (l : Nat) (s : State) : State :=
  let e := rd s (K.EST_E l)
  let avail := if rd s (K.SH_AUTO l) = 1 then e else min e (rd s (K.SH_RATE l))
  let w := rd s K.FWD_RATE_WINDOW
  let audio := ((legOf s l).audioLog.foldl (fun n x => if clk s < x.1 + w * ms1 then n + x.2 else n) 0) * 1000 / w
  let congested := decide (1000 * rd s K.FWD_DELAY_LIMIT < rd s (K.SH_DELAY l)) || decide (0 < (legOf s l).refused)
  let caps := if congested then congestedCaps s l else [some 0xFE, some 0xFE, some 0xFE]
  let r := [0, 1, 2].foldl (fun (a : Nat × State) j =>
    match srcId (rd a.2 (K.SLOT_SOURCE l j)) with
    | none => (a.1, setWant l j layerPaused a.2)
    | some i =>
      let rs := rungs a.2 i
      let start := if j = 0 then rs.headD layerPaused else layerPaused
      let best := bestRung a.2 l j i a.1 (caps.getD j none) rs start
      (a.1 - (if best = layerPaused then 0 else srcRate a.2 i best), setWant l j best a.2)) (avail - audio, s)
  legUpd l (fun x => { x with refused := 0 }) r.2

/-! ## Bandwidth estimate (R297) -/

/-- Feedback on copies sent: each is taken in the window of the first report of it. -/
def feedbackIn (l : Nat) (reports : List (Nat × Option Int)) (s : State) : State :=
  legUpd l (fun x => reports.foldl (fun x r =>
    match x.sent.find? (fun e => e.1 == r.1) with
    | some e => { x with sent := x.sent.erase e, reported := x.reported ++ [(r.1, r.2, e.2.1, e.2.2)] }
    | none => x) x) s

/-- E after a window of reports: number, receive time if received, transmit stamp, wire octets. -/
def estimateNext (e lo hi : Nat) (r : List (Nat × Option Int × Nat × Nat)) : Nat :=
  let n := r.length
  let got := r.filterMap (fun x => x.2.1.map (fun rx => (rx, x.2.2.1, x.2.2.2)))
  let k := n - got.length
  let span : Int := match got.head?, got.getLast? with | some a, some b => b.1 - a.1 | _, _ => 0
  let txSpan : Int := match got.head?, got.getLast? with | some a, some b => (b.2.1 : Int) - a.2.1 | _, _ => 0
  let known := decide (2 ≤ got.length) && decide (0 < span)
  let d : Int := if known then span - txSpan else 0
  let bytes := (got.drop 1).foldl (fun m x => m + x.2.2) 0
  let rate := if known then 8 * bytes * 1000000000 / span.toNat else 0
  let e := if n < 10 * k then e * (2 * n - k) / (2 * n)
    else if 5000000 < d then rate * 85 / 100
    else if 50 * k < n ∧ d ≤ 1000000 then e * 108 / 100 else e
  min hi (max lo e)

/-- Reports in transport-wide order: a stable insertion by distance from the first number. -/
def insReport (base : Nat) (x : Nat × Option Int × Nat × Nat) :
    List (Nat × Option Int × Nat × Nat) → List (Nat × Option Int × Nat × Nat)
  | [] => [x]
  | y :: t => if (x.1 + 65536 - base) % 65536 < (y.1 + 65536 - base) % 65536 then x :: y :: t else y :: insReport base x t

/-- The estimate of a leg is updated. -/
def estimate (l : Nat) (s : State) : State :=
  if rd s (K.EXT_IDS l) % 256 = 0 then s else
  let x := legOf s l
  match x.reported with
  | [] =>
    let s := legUpd l (fun x => { x with silent := if x.silent = 4 then 0 else x.silent + 1 }) s
    if x.silent = 4 then wr (K.EST_E l) (max (rd s (K.EST_MIN l)) (rd s (K.EST_E l) / 2)) s else s
  | r0 :: _ =>
    let base := (r0.1 + 32768) % 65536
    let r := x.reported.foldl (fun l y => insReport base y l) []
    wr (K.EST_E l) (estimateNext (rd s (K.EST_E l)) (rd s (K.EST_MIN l)) (rd s (K.EST_MAX l)) r)
      (legUpd l (fun x => { x with silent := 0, reported := [] }) s)

/-- ESTIMATE_UPDATE: the 100 ms instant of a leg. -/
def execEstimateUpdate (leg : Nat) (s : State) : Res :=
  if legUp s leg = false ∨ s.isb.now % (100 * ms1) ≠ 0 then .next s
  else .next (selectLayers leg (estimate leg s))

/-! ## RTCP the hub sends (R306) -/

/-- An RTCP packet is placed in a leg's egress queue; nothing once its SRTCP indices are exhausted (R419). -/
def sendRtcp (l : Nat) (items : List RtcpItem) (s : State) : State :=
  if rd s (K.RTCP_EXHAUSTED l) = 1 ∨ legUp s l = false then s else
  let n := items.foldl (fun n i => n + rtcpSize i) 28
  let v6 := (rdBlob s (K.LOCAL_ADDR l)).length == 16
  sendMade l { content := .rtcp items, len := max 60 (headerLen false v6 + n), cls := 1, v6 := v6, arrival := s.isb.now }
    { pkt := 0, slot := 4 } s

/-- TRANSPORT_FEEDBACK_TIMER: the 50 ms instant. A leg with nothing accepted since the last has nothing to cover. -/
def execTransportFeedbackTimer (s : State) : Res :=
  if clk s < s.fwd.feedbackAt + 50 * ms1 then .next s else
  let s := { s with fwd.feedbackAt := clk s }
  .next ((upLegs s).foldl (fun s l =>
    let seen := (legOf s l).twSeen
    if rd s (K.EXT_IDS l) % 256 = 0 ∨ seen.isEmpty then s
    else sendRtcp l [.feedback (rd s (K.AUD_OUT_SSRC l)) (seen.map (fun e => (e.1, some ((e.2 / ns1 : Nat) : Int))))]
      (legUpd l (fun x => { x with twSeen := [] }) s)) s)

/-- Isobar in 2⁻¹⁶ s, modulo 2³². -/
def ntpMid (s : State) : Nat := nowNs s * 65536 / 1000000000 % 4294967296

/-- The NTP timestamp of an SR: Isobar in 2⁻³² s (assumption 174). -/
def ntpFull (s : State) : Nat := nowNs s * 4294967296 / 1000000000 % 18446744073709551616

/-- The SR of a slot. -/
def senderReport (s : State) (l k : Nat) : RtcpItem :=
  let x := slotOf s l k
  .sr (if k = 0 then rd s (K.AUD_OUT_SSRC l) else rd s (K.OUT_SSRC l (k - 1))) (ntpFull s) (x.lastTs.getD 0) x.packets x.octets

/-- The report block of a received SSRC (RFC 3550); the interarrival jitter is a free value. -/
def reportBlock (s : State) (ssrc : Nat) (r : RxStream) : RtcpItem :=
  let expected := r.highest - r.first + 1
  let dExp := expected - r.lastExpected
  let dGot := r.count - r.lastCount
  .block ssrc (if dExp = 0 ∨ dExp ≤ dGot then 0 else (dExp - dGot) * 256 / dExp) (expected - r.count) r.highest
    (freeVal s 4294967296) r.lsr (if r.lsr = 0 then 0 else (clk s - r.srAt) / ns1 * 65536 / 1000000000)

/-- RTCP_REPORT_TIMER: the 1,000 ms instant. -/
def execRtcpReportTimer (s : State) : Res :=
  if clk s < s.fwd.reportAt + s1 then .next s else
  let s := { s with fwd.reportAt := clk s }
  .next ((upLegs s).foldl (fun s l =>
    let srs := ([0, 1, 2, 3].filter (fun k => (slotOf s l k).sentSince)).map (senderReport s l)
    let blocks := (legOf s l).rx.map (fun e => reportBlock s e.1 e.2)
    let s := if blocks.isEmpty then s else drew s
    let s := legUpd l (fun x => { x with
      slots := tabMap {} x.slots (fun _ (y : LegSlot) => { y with sentSince := false })
      rx := tabMap {} x.rx (fun _ (r : RxStream) => { r with lastExpected := r.highest - r.first + 1, lastCount := r.count }) }) s
    sendRtcp l (srs ++ blocks) s) s)

/-! ## Ports and failover (R236, R240, R308) -/

/-- Legs on a lost port move to their ALT_PORT. -/
def failover (p : Nat) (s : State) : State :=
  ((upLegs s).filter (fun l => rd s (K.LEG_STATE l) == 1 && rd s (K.LEG_PORT l) == p)).foldl (fun s l =>
    if portUp s (rd s (K.ALT_PORT l)) then
      let s := legUnlist p l (bump (K.FAILOVERS_FWD l) (wr (K.LEG_STATE l) 2 s))
      let s := legTrafficUpd l (fun x => { x with deficit := 0, credited := false }) s
      emit (.announce (rd s (K.ALT_PORT l)) (rdBlob s (K.LOCAL_ADDR l))) (legWake l s)
    else s) s

/-- A port leaves UP, or does not reach it: its transmission stops; the copy being sent is lost. -/
def portDown (p st : Nat) (s : State) : State :=
  let was := portUp s p
  let lost := (txPort s p).sending.bind Sending.leg
  let s := txPortUpd p (fun x => { x with sending := none, pauseDue := none, pauseEnd := 0, pfcEnd := [] }) s
  let s := wr (K.TX_PAUSED p) 0 (wr (K.PORT_STATE p) st s)
  if !was then s else
  let s := failover p s
  match lost with
  | some l => legUpset l (bump (K.COPIES_LOST l) s)
  | none => s

/-- An upset of a data port (R240). -/
def portUpset (p : Nat) (s : State) : State :=
  let r := upset cPort p s
  if r.2 then portDown p psRetired r.1 else r.1

/-- LINK_LOSS: loss of link or of block lock; the port trains again. -/
def execLinkLoss (p : Fin 8) (s : State) : Res :=
  if rd s (K.PORT_EN p.val) = 0 ∨ rd s (K.PORT_STATE p.val) = psRetired then .next s
  else .next (portUpset p.val (portDown p.val psTraining (bump (K.LINK_DOWNS p.val) s)))

/-- LINK_UP: training is complete. -/
def execLinkUp (p : Fin 8) (s : State) : Res :=
  if rd s (K.PORT_STATE p.val) ≠ psTraining then .next s
  else .next (wakePort p.val (txPortUpd p.val (fun x => { x with upAt := clk s }) (wr (K.PORT_STATE p.val) psUp s)))

/-- FEC_SECOND: codewords of the last second. -/
def execFecSecond (p : Fin 8) (corrected uncorrectable : Nat) (s : State) : Res :=
  if clk s < (txPort s p.val).fecAt + s1 then .next s else
  let s := fecSecond p.val corrected uncorrectable (txPortUpd p.val (fun x => { x with fecAt := clk s }) s)
  .next (if rd s (K.PORT_EN p.val) = 1 ∧ rd s (K.FEC_UNCORR_LIMIT p.val) < uncorrectable ∧ !isRetired s cPort p.val
    then portUpset p.val s else s)

/-- FAILBACK_HOLD_EXPIRY: LEG_PORT has been UP for FWD_FAILBACK_HOLD: its legs return. -/
def execFailbackHoldExpiry (p : Fin 8) (s : State) : Res :=
  if portUp s p.val = false ∨ clk s < (txPort s p.val).upAt + rd s K.FWD_FAILBACK_HOLD * s1 then .next s
  else .next (((upLegs s).filter (fun l => rd s (K.LEG_STATE l) == 2 && rd s (K.LEG_PORT l) == p.val)).foldl (fun s l =>
    legWake l (wr (K.LEG_STATE l) 1 (legUnlist (rd s (K.ALT_PORT l)) l s))) s)

/-- PORT_EN: no data port is enabled before DRAM training completes (R259). -/
def portEnStatus (p : Nat) (on : Bool) (s : State) : Status :=
  checks [(!portPresent s p, .noEntry), (on && isRetired s cPort p, .retired), (on && s.boot.ddrFailed, .busy)]
def portEn (p : Nat) (on : Bool) (s : State) : State :=
  let was := rd s (K.PORT_EN p) == 1
  let s := wr (K.PORT_EN p) (b2n on) s
  if on == was then s
  else if isRetired s cPort p then s
  else portDown p (if on then psTraining else psDown) s
def writePortEn (inst : Inst) (tag : Nat) (p : Fin 8) (on : Bool) (s : State) : State :=
  runEnable inst tag (0x7000 + p.val) 1 (portEnStatus p.val on s) 11 on (portEn p.val on) s

/-- R444: a cleared port starts again. -/
def portCleared (p : Nat) (s : State) : State :=
  wr (K.PORT_STATE p) (if rd s (K.PORT_EN p) = 1 then psTraining else psDown) s

/-! ## AES67 endpoints, network side (R257, R258) -/

/-- Firmware places an answer in the list of a data port (system queue 13), or in system queue 12. -/
def answer (port kind dstMac : Nat) (address : Bytes) (len : Nat) (s : State) : State :=
  (admitPacket (if port = 8 then qSys 12 else qSys 13)
    { content := .answer kind port dstMac address, len := len, arrival := s.isb.now } s).2

/-- EP_EN: a receive or send endpoint. A multicast receiver reports its group on joining and on leaving. -/
def epEnStatus (rx : Bool) (e : Nat) (on : Bool) (s : State) : Status :=
  if !on then .ok else checks [((if rx then rxConflict s e else txConflict s e), .conflict)]
def epEn (rx : Bool) (e : Nat) (on : Bool) (s : State) : State :=
  if rx then
    let a := rdBlob s (K.EP_DEST_ADDR_RX e)
    let was := rd s (K.EP_EN_RX e) == 1
    let s := rxEn e on { s with pkt.locked := tabErase s.pkt.locked e }
    if isMulticast a && was != on then answer (rd s (K.EP_PORT_RX e)) 3 (groupMac a) a 64 s else s
  else txEn e on (if on then s else flushQueue (qTx e) s)
def writeEpEn (inst : Inst) (tag : Nat) (rx : Bool) (e : Fin 64) (on : Bool) (s : State) : State :=
  runWrite inst tag ((if rx then 0x6200 else 0x6280) + e.val) 1 on (epEnStatus rx e.val on s) (epEn rx e.val on) s

/-- R258: a finished packet of a send endpoint enters its send queue. -/
def sendAes67 (e first : Nat) (samples : List (List Int)) (s : State) : State :=
  let v6 := (rdBlob s (K.EP_DEST_ADDR_TX e)).length == 16
  let width := if rd s (K.EP_ENCODING_TX e) = 0 then 2 else 3
  let len := headerLen (tagOf s (rd s (K.EP_PORT_TX e)) 0).isSome v6 + 12 + samples.length * rd s (K.EP_CHANNELS_TX e) * width
  let ts := (first + rd s (K.RTP_OFFSET_TX e)) % 4294967296
  (admitPacket (qTx e) { content := .aes67 e (seqOf s e) ts (samples.map (·.map (fromQ31 (8 * width)))), len := max 60 len, cls := 2, v6 := v6, arrival := s.isb.now } s).2
where
  /-- sequence number of the packet: `txTake` has moved to the next -/
  seqOf (s : State) (e : Nat) : Nat := ((txOf s e).seq + 65535) % 65536

/-! ## Group frames (R230–R232) -/

/-- Samples of a group frame. -/
def groupSamples (s : State) (g : Nat) : Nat := if rd s (K.SE_FRAME g) = 0 then 480 else 960

/-- Encoder settings of a group, for the encoder its codec's standard defines. -/
def groupParams (s : State) (g : Nat) : List Nat :=
  [rd s (K.SE_CODEC g), rd s (K.SE_BITRATE g), rd s (K.SE_FRAME g), rd s (K.SE_CHANNELS g), rd s (K.SE_FEC g), rd s (K.SE_DTX g)]

/-- An audio packet of a leg: nothing where the encoder sends none (DTX). -/
def sendAudio (l g first : Nat) (payload : List Nat) (s : State) : State :=
  if payload.isEmpty ∨ legUp s l = false then s else
  let ts := ((if rd s (K.SE_CODEC g) = 1 then first / 6 else first) + rd s (K.AUD_TS_OFFSET l)) % 4294967296
  let v6 := (rdBlob s (K.LOCAL_ADDR l)).length == 16
  let i := takeIndex l 0 s
  let s := slotUpd l 0 (fun x => { x with lastTs := some ts, lastArr := nowNs s }) i.2
  sendMade l { content := .audio ts (octets payload), len := max 60 (headerLen false v6 + 28 + payload.length), cls := 0, v6 := v6,
               arrival := s.isb.now } { pkt := 0, slot := 0, index := i.1, outTs := ts } s

/-- Encode the frame a row has finished: payload, encoder state after it. -/
def encodeRow (params : List Nat) (st : Nat) (samples : List Int) : List Nat × Nat :=
  let frame := samples.flatMap (fun x => List.replicate (params.getD 3 1) x)
  (Config.encodeAudio params st frame, Config.encoderNext params st frame)

/-- GROUP_FRAME_BOUNDARY: at an Isobar multiple of its frame, group `g`'s frame has ended: its common encode, and those of its talkers whose position was held
from the frame's start, go to the legs; positions whose talkers have closed are freed. -/
def execGroupFrameBoundary (g : Fin 64) (s : State) : Res :=
  if s.isb.now % groupFrame s g.val ≠ 0 then .next s else
  let n := groupSamples s g.val
  let row := (tabGet [] s.mix.encWait g.val).take n
  let s0 := s
  let legs := (upLegs s).filter (fun l => legGroup s l == g.val)
  let first := sampleAtOrAfter s.isb.now - n
  let params := groupParams s g.val
  let st := tabGet 0 s.mix.encoders g.val
  let held := (positionsHeld s).filter (fun h => h.2.1 == g.val)
  let s :=
    if rd s (K.SE_EN g.val) = 0 ∨ row.length < n then s
    else
      let common := encodeRow params st row.reverse
      let s := { s with mix.encoders := tabSet 0 s.mix.encoders g.val common.2 }
      let mms := held.filter (fun h => decide (n ≤ (tabGet [] s.mix.encWait (64 + h.1)).length))
      let own := mms.map (fun h =>
        let k := h.1
        let from_ := (s0.mix.encoders.find? (fun e => e.1 == 64 + k)).elim st (·.2)
        (k, rd s (K.TP_LEG k), encodeRow params from_ ((tabGet [] s.mix.encWait (64 + k)).take n).reverse))
      let s := own.foldl (fun s o => { s with mix.encoders := tabPut s.mix.encoders (64 + o.1) o.2.2.2 }) s
      legs.foldl (fun s l =>
        match own.find? (fun o => o.2.1 == l) with
        | some o => sendAudio l g.val first o.2.2.1 s
        | none => sendAudio l g.val first common.1 s) s
  let s := { s with mix.encWait := tabErase s.mix.encWait g.val }
  .next (held.foldl (fun s h =>
    let k := h.1
    let s := { s with mix.encWait := tabErase s.mix.encWait (64 + k) }
    let leg := rd s (K.TP_LEG k)
    match (legAudio s leg).backAt with
    | some t =>
      if s.isb.now < t then s
      else
        let s := legAudioUpd leg (fun x => { x with backAt := none }) s
        let s := match candOf s leg with | some c => wr (K.CAND_TALK c) 0xFF s | none => s
        wr (K.TP_LEG k) 0xFFFF (wr (K.TP_SINCE k) 0 { s with mix.encoders := tabErase s.mix.encoders (64 + k) })
    | none => s) s)

/-- The outputs of this boundary join the running frames of their encoders. -/
def encodeTake (s : State) : State :=
  let put (t : Tab (List Int)) (i o : Nat) : Tab (List Int) := tabSet [] t i ((tabGet 0 s.mix.outLast o :: tabGet [] t i).take 960)
  let w := (List.range 64).foldl (fun t g => if rd s (K.SE_EN g) = 1 then put t g (groupBase + g) else t) s.mix.encWait
  { s with mix.encWait := (positionsHeld s).foldl (fun t h => put t (64 + h.1) (mmBase + h.1)) w }

/-! ## Source switches and checkpoints (R303, R304, R309) -/

/-- Entries of a switch table: leg, slot, source code. -/
def switchEntries (b : Bytes) : List (Nat × Nat × Nat) :=
  (List.range (b.length / 8)).map (fun i => (leAt b (8 * i) 2, leAt b (8 * i + 2) 1, leAt b (8 * i + 4) 4))
def switchTableOk (b : Bytes) : Bool :=
  b.length % 8 == 0 && decide (b.length ≤ 32768)
    && (switchEntries b).all (fun e => decide (e.1 < 20480) && decide (e.2.1 < 3) && sourceCodeOk e.2.2)
    && (List.range (b.length / 8)).all (fun i => leAt b (8 * i + 3) 1 == 0)

/-- SRC_SWITCH: the entries of its table, in table order. -/
def execSrcSwitch (s : State) : Res :=
  .next (fireHub ltSrcSwitch (fun _ => true) (fun _ l s =>
    .ok ((switchEntries (rdBlob s (key 0x8000 (0xC0 + l.target) 0))).foldl (fun s e =>
      if legUp s e.1 then setSource e.1 e.2.1 e.2.2 s else bump K.SWITCH_SKIPPED s) s)) s)

/-- LEG_CKPT_TIMER: FWD_CKPT_PERIOD has passed: the active of a HEALTHY pair sends a checkpoint of each leg. -/
def execLegCkptTimer (s : State) : Res :=
  if clk s < s.fwd.ckptAt + rd s K.FWD_CKPT_PERIOD * ms1 then .next s else
  let s := { s with fwd.ckptAt := clk s }
  .next (if pairHealthy s && roleOf s == roleActive then (upLegs s).foldl (fun s l => sendCkpt l s) s else s)

end Sys2Proof.Machine
end

