-- ==== Sys2Proof/Machine/Kernel.lean ====
section
/-! DEFINITION. The engine's signal-processing datapath (chapter DSP): fields of the instruction word, the pipeline,
the move slots, the compute and control operations. -/
namespace Sys2Proof.Machine

/-! ## Engines and banks -/

def meOf (s : State) (me : Nat) : Me := tabGet {} s.dsp.mes me
def meUpd (me : Nat) (f : Me → Me) (s : State) : State := { s with dsp.mes := tabMod {} s.dsp.mes me f }

/-- The bank that issues: bank 1 while a tick kernel runs, else bank 0 while a work kernel runs (R178). -/
def activeBank (s : State) (me : Nat) : Option (Bool × Bank) :=
  let x := meOf s me
  if x.tick.running then some (true, x.tick) else if x.work.running then some (false, x.work) else none

/-- Replace a bank. -/
def setBank (me : Nat) (tick : Bool) (b : Bank) (s : State) : State :=
  meUpd me (fun x => if tick then { x with tick := b } else { x with work := b }) s

/-! ## Instruction words (Tables DSP-3, DSP-4) -/

/-- Instructions of a kernel's code (Table DSP-9). -/
def codeLen (img : Bytes) : Nat := leAt img 12 2

/-- Instruction `i` of a kernel slot. -/
def fetchWord (s : State) (k i : Nat) : Option Nat :=
  let img := rdBlob s (K.KIMAGE k)
  if i < codeLen img then some (leAt img (64 + 8 * i) 8) else none

/-- Fields of a PAR word. -/
def wFmt (w : Nat) : Nat := field w 63 62
def wOp (w : Nat) : Nat := field w 61 56
def wCd (w : Nat) : Nat := field w 55 52
def wCa (w : Nat) : Nat := field w 51 48
def wCb (w : Nat) : Nat := field w 47 44
def wCx (w : Nat) : Nat := field w 43 40
def wSlot (w : Nat) (y : Bool) : Nat := if y then field w 19 0 else field w 39 20

/-- Fields of a CTL word: F1 and F2 stand where CD and CA do. -/
def wImm16 (w : Nat) : Nat := field w 47 32
def wImm32 (w : Nat) : Nat := field w 31 0

/-- Fields of a move slot. -/
def mMop (m : Nat) : Nat := field m 19 17
def mReg (m : Nat) : Nat := field m 16 13
def mPtr (m : Nat) : Nat := field m 12 10
def mMod (m : Nat) : Nat := field m 9 7
def mSize (m : Nat) : Nat := field m 6 5
def mAmode (m : Nat) : Nat := field m 4 3
def mLane (m : Nat) : Nat := field m 2 0

/-- Octets of an access. -/
def accessSize (m : Nat) : Nat := [4, 8, 16, 2].getD (mSize m) 4

/-! ## Register reads -/

/-- A lane as its 32 bits, as a signed word, and its halves. -/
def vRaw (b : Bank) (r l : Nat) : Nat := tabGet 0 b.v (r * 4 + l)
def vInt (b : Bank) (r l : Nat) : Int := toInt 32 (vRaw b r l)
def hiOf (v : Nat) : Int := toInt 16 (v / 65536)
def loOf (v : Nat) : Int := toInt 16 v
def vHi (b : Bank) (r l : Nat) : Int := hiOf (vRaw b r l)
def vLo (b : Bank) (r l : Nat) : Int := loOf (vRaw b r l)
def accOf (b : Bank) (a l : Nat) : Int := tabGet 0 b.acc (a * 4 + l)
def ptrOf (b : Bank) (p : Nat) : Nat := tabGet 0 b.p p
def modOf (b : Bank) (m : Nat) : Nat := tabGet 0 b.m m
def modStep (x : Nat) : Int := toInt 16 (x / 4294967296)
def modLen (x : Nat) : Nat := x / 65536 % 65536
def modBase (x : Nat) : Nat := x % 65536

/-- STAT as RDST reads it (Table DSP-2). -/
def statOf (b : Bank) : Nat :=
  b.loops.length * 65536 + b.c % 16 * 4096 + b2n b.aov * 512 + b2n b.sat * 256 + b.bexp

/-! ## The pipeline (R171, R172) -/

/-- R167: an accumulator result is clipped to 80 bits; a clip sets AOV. -/
def setAcc (a l : Nat) (x : Int) (b : Bank) : Bank :=
  { b with acc := tabSet 0 b.acc (a * 4 + l) (satS 80 x), aov := b.aov || decide (satS 80 x ≠ x) }

/-- Two halves as a lane. -/
def joinHalves (hi lo : Int) : Nat := ofInt 16 hi * 65536 + ofInt 16 lo

/-- A write lands. -/
def land (w : RegWrite) (b : Bank) : Bank :=
  match w with
  | .lane r l v => { b with v := tabSet 0 b.v (r * 4 + l) v }
  | .half r l hi v =>
    let old := vRaw b r l
    let new := if hi then v % 65536 * 65536 + old % 65536 else old / 65536 * 65536 + v % 65536
    { b with v := tabSet 0 b.v (r * 4 + l) new }
  | .acc a l x => setAcc a l x b
  | .accAdd a l x => setAcc a l (accOf b a l + x) b
  | .ptr p v => { b with p := tabSet 0 b.p p v }
  | .modifier m v => { b with m := tabSet 0 b.m m v }
  | .cond c => { b with c := c }
  | .sat => { b with sat := true }
  | .bexp n => { b with bexp := min b.bexp n }
  | .clear k =>
    { b with
      sat := b.sat && !bitOf k 0, aov := b.aov && !bitOf k 1
      bexp := if bitOf k 2 then 31 else b.bexp, c := if bitOf k 3 then 0 else b.c }

/-- Writes land in issue order. -/
def landList (l : List Pend) (b : Bank) : Bank := l.foldl (fun b p => land p.w b) b

/-- Writes due at the end of the running cycle land; the next cycle begins. -/
def endCycle (b : Bank) : Bank :=
  let due := b.pend.filter (fun p => decide (p.due ≤ b.cycle))
  let b' := landList due { b with pend := b.pend.filter (fun p => decide (b.cycle < p.due)) }
  { b' with cycle := b.cycle + 1, xDone := false, yDone := false }

/-- Pending writes in the order they land: by their cycle, then as issued. -/
def insDue (p : Pend) : List Pend → List Pend
  | [] => [p]
  | q :: t => if p.due < q.due then p :: q :: t else q :: insDue p t

/-- Every issued operation completes, each in its cycle (R170, R177). -/
def landAll (b : Bank) : Bank :=
  { (landList (b.pend.foldl (fun l p => insDue p l) []) b) with pend := [], stall := none }

/-- An operation of latency L issued now: its writes land at the end of cycle i + L − 1. -/
def issue (lat : Nat) (ws : List RegWrite) (b : Bank) : Bank :=
  { b with pend := b.pend ++ ws.map (fun w => { due := b.cycle + lat - 1, w := w }) }

/-! ## Where issue goes next (R170) -/

/-- The loops that end where an instruction issued: the next instruction, and the loop stack. -/
def loopNext (pc : Nat) : List (Nat × Nat × Nat) → Nat × List (Nat × Nat × Nat)
  | [] => (pc + 1, [])
  | (first, last, n) :: t =>
    if pc ≠ last then (pc + 1, (first, last, n) :: t)
    else if 1 < n then (first, (first, last, n - 1) :: t)
    else loopNext pc t

/-- A taken branch ends the active loops whose body does not contain its target. -/
def branchLoops (target : Nat) (l : List (Nat × Nat × Nat)) : List (Nat × Nat × Nat) :=
  l.dropWhile (fun e => !(decide (e.1 ≤ target ∧ target ≤ e.2.1)))

/-- The instruction at `pc` has issued: a branch whose delay slots are over is taken, else loops repeat. -/
def nextPc (b : Bank) : Bank :=
  match b.branch with
  | some (t, n) =>
    if n ≤ 1 then { b with pc := t, loops := branchLoops t b.loops, branch := none }
    else
      let r := loopNext b.pc b.loops
      { b with pc := r.1, loops := r.2, branch := some (t, n - 1) }
  | none =>
    let r := loopNext b.pc b.loops
    { b with pc := r.1, loops := r.2 }

/-- An instruction that is no branch, loop or HALT is over. -/
def advance (b : Bank) : Bank := endCycle (nextPc b)

/-! ## Move slots (R163–R165) -/

/-- Windows of the running kernel: base and length of X and of Y (R163). -/
def windowOf (s : State) (tick : Bool) (b : Bank) (y : Bool) : Nat × Nat :=
  if tick then (0xC000, 0x2000)
  else
    let w := rd s (if y then K.B_YWIN b.binding else K.B_XWIN b.binding)
    (w % 65536, w / 65536 % 65536)

/-- Powers of two up to 2¹⁵: the exponent. -/
def log2? (n : Nat) : Option Nat := (List.range 16).find? (fun k => 2 ^ k == n)

/-- The low `n` bits in reverse order. -/
def revBits : Nat → Nat → Nat
  | 0, _ => 0
  | n + 1, x => x % 2 * 2 ^ n + revBits n (x / 2)

/-- The requirements of R165 on a bit-reversed update hold. -/
def bitRevOk (x size : Nat) : Bool :=
  (log2? (modLen x)).isSome && decide (size ≤ modLen x) && modBase x % modLen x == 0
    && decide (0 ≤ modStep x) && decide (modStep x < modLen x) && (modStep x).toNat % size == 0

/-- R165: the pointer after an access of `size` octets. -/
def ptrAfter (amode size x p : Nat) : Nat :=
  let q : Int := p + modStep x
  if amode = 2 ∧ modLen x ≠ 0 then
    let hi : Int := modBase x + modLen x
    let q := if q ≥ hi then q - modLen x else if q < modBase x then q + modLen x else q
    ofInt 16 q
  else if amode = 3 then
    let n := (log2? (modLen x)).getD 0
    let z := (log2? size).getD 0
    let k := n - z
    let o := ofInt 16 ((p : Int) - modBase x)
    let sum := revBits k (o / size % 2 ^ k) + revBits k ((modStep x).toNat / size % 2 ^ k)
    (modBase x + revBits k (sum % 2 ^ k) * size) % 65536
  else ofInt 16 q

/-- Faults of Table DSP-8 a move slot meets, lowest code first. -/
def slotFault (s : State) (tick : Bool) (b : Bank) (y : Bool) (m : Nat) : Option Nat :=
  let size := accessSize m
  let p := ptrOf b (mPtr m)
  let w := windowOf s tick b y
  let access := decide (1 ≤ mMop m ∧ mMop m ≤ 3)
  if access && !(decide (w.1 ≤ p ∧ p + size ≤ w.1 + w.2)) then some 1
  else if access && p % size != 0 then some 2
  else if decide (1 ≤ mMop m ∧ mMop m ≤ 4) && mAmode m == 3 && !bitRevOk (modOf b (mMod m)) size then some 3
  else none

/-- The address of a bank's octet in the engine's data memory. -/
def bankAddr (y : Bool) (p : Nat) : Nat := (if y then 65536 else 0) + p % 65536

/-- Little-endian value of octets of a bank. -/
def memVal (x : Me) (y : Bool) (p n : Nat) : Nat :=
  leVal ((List.range n).map (fun i => tabGet 0 x.mem (bankAddr y (p + i))))

/-- Octets written to a bank. -/
def memPut (y : Bool) (p : Nat) (bs : Bytes) (x : Me) : Me :=
  { x with mem := (List.range bs.length).foldl (fun t i => tabSet 0 t (bankAddr y (p + i)) (bs.getD i 0)) x.mem }

/-- What a load writes. -/
def loadWrites (x : Me) (y : Bool) (p m : Nat) : List RegWrite :=
  let r := mReg m
  let l := mLane m
  if mMop m = 3 then (List.range 4).map (fun i => .lane r i (memVal x y p 4))
  else if mSize m = 0 then [.lane r (l % 4) (memVal x y p 4)]
  else if mSize m = 1 then [.lane r (l % 4) (memVal x y p 4), .lane r (l % 4 + 1) (memVal x y (p + 4) 4)]
  else if mSize m = 2 then (List.range 4).map (fun i => .lane r i (memVal x y (p + 4 * i) 4))
  else [.half r (l % 4) (bitOf l 2) (memVal x y p 2)]

/-- What a store writes to memory, from the register as it stands at issue. -/
def storeBytes (b : Bank) (m : Nat) : Bytes :=
  let r := mReg m
  let l := mLane m
  if mSize m = 0 then leBytes 4 (vRaw b r (l % 4))
  else if mSize m = 1 then leBytes 4 (vRaw b r (l % 4)) ++ leBytes 4 (vRaw b r (l % 4 + 1))
  else if mSize m = 2 then (List.range 4).flatMap (fun i => leBytes 4 (vRaw b r i))
  else leBytes 2 (if bitOf l 2 then vRaw b r (l % 4) / 65536 else vRaw b r (l % 4))

/-- The pointer update of a slot, latency 1. -/
def slotPtr (b : Bank) (m : Nat) : List RegWrite :=
  if mAmode m = 0 then []
  else [.ptr (mPtr m) (ptrAfter (mAmode m) (accessSize m) (modOf b (mMod m)) (ptrOf b (mPtr m)))]

/-- A move slot acts: its access with the pointer before the update, then the update. -/
def doSlot (y : Bool) (m : Nat) (x : Me) (b : Bank) : Me × Bank :=
  let p := ptrOf b (mPtr m)
  if mMop m = 1 ∨ mMop m = 3 then (x, issue 1 (slotPtr b m) (issue 3 (loadWrites x y p m) b))
  else if mMop m = 2 then (memPut y p (storeBytes b m) x, issue 1 (slotPtr b m) b)
  else if mMop m = 4 then (x, issue 1 (slotPtr b m) b)
  else (x, b)

/-- Do a slot of the instruction at `pc` unless it is done. -/
def doSlotOnce (y : Bool) (m : Nat) (x : Me) (b : Bank) : Me × Bank :=
  if (if y then b.yDone else b.xDone) then (x, b)
  else
    match doSlot y m x b with
    | (x, b) => (x, if y then { b with yDone := true } else { b with xDone := true })

/-- The fault the instruction at `pc` meets in either move slot. -/
def parFault (s : State) (tick : Bool) (b : Bank) (w : Nat) : Option Nat :=
  match slotFault s tick b false (wSlot w false) with
  | some c => some c
  | none => slotFault s tick b true (wSlot w true)

/-! ## What compute operations write (Table DSP-5) -/

/-- A clipped lane result, with SAT when it clipped. -/
def laneSat (r l : Nat) (x : Int) : List RegWrite :=
  .lane r l (ofInt 32 (satS 32 x)) :: (if satS 32 x = x then [] else [.sat])

/-- A clipped pair of halves. -/
def halvesSat (r l : Nat) (hi lo : Int) : List RegWrite :=
  .lane r l (joinHalves (satS 16 hi) (satS 16 lo))
    :: (if satS 16 hi = hi ∧ satS 16 lo = lo then [] else [.sat])

/-- R174: redundant sign bits of a `w`-bit value. -/
def rsbGo : Nat → Nat → Nat → Nat
  | 0, _, n => n
  | k + 1, v, n => if v / 2 ^ k % 2 = v / 2 ^ (k + 1) % 2 then rsbGo k v (n + 1) else n
def rsb (w v : Nat) : Nat := rsbGo (w - 1) v 0

/-- BEXP's candidate from a lane: of the word, or of both halves. -/
def rsbLane (h : Bool) (v : Nat) : Nat := if h then min (rsb 16 (v / 65536 % 65536)) (rsb 16 (v % 65536)) else rsb 32 v

/-- The BEXP updates of lane writes, as EXP would make them. -/
def expWrites (h : Bool) (ws : List RegWrite) : List RegWrite :=
  ws.filterMap (fun w => match w with | .lane _ _ v => some (.bexp (rsbLane h v)) | _ => none)

/-- An operation over lanes, on words or on halves (H), with E. -/
def laneOp (w : Nat) (e h : Bool) (f : Int → Int → Int) (b : Bank) : List RegWrite :=
  let ws := [0, 1, 2, 3].flatMap (fun l =>
    if h then halvesSat (wCd w) l (f (vHi b (wCa w) l) (vHi b (wCb w) l)) (f (vLo b (wCa w) l) (vLo b (wCb w) l))
    else laneSat (wCd w) l (f (vInt b (wCa w) l) (vInt b (wCb w) l)))
  ws ++ (if e then expWrites h ws else [])

/-- b as a multiplier operand: unsigned when U is 1 (R167). -/
def mulB (w : Nat) (b : Bank) (l : Nat) : Int :=
  if bitOf (wCx w) 0 then (vRaw b (wCb w) l : Int) else vInt b (wCb w) l

/-- The products of MPY, MAC, MSU. -/
def prodU (w : Nat) (b : Bank) (l : Nat) : Int := vInt b (wCa w) l * mulB w b l

/-- The products of MPY2, MAC2: hi·hi + lo·lo, scaled by 2³². -/
def prod2 (w : Nat) (b : Bank) (l : Nat) : Int :=
  (vHi b (wCa w) l * vHi b (wCb w) l + vLo b (wCa w) l * vLo b (wCb w) l) * 2 ^ 32

/-- The cross products of MACX. -/
def prodX (w : Nat) (b : Bank) (l : Nat) : Int :=
  (vHi b (wCa w) l * vLo b (wCb w) l + vLo b (wCa w) l * vHi b (wCb w) l) * 2 ^ 32

/-- The complex product of CMPY, CMAC in a lane; J negates bi. -/
def prodC (w : Nat) (b : Bank) (l : Nat) : Int :=
  let re := l / 2 * 2
  let ar := vInt b (wCa w) re
  let ai := vInt b (wCa w) (re + 1)
  let br := vInt b (wCb w) re
  let bi := if bitOf (wCx w) 0 then -(vInt b (wCb w) (re + 1)) else vInt b (wCb w) (re + 1)
  if l % 2 = 0 then ar * br - ai * bi else ar * bi + ai * br

/-- Accumulator writes of every lane: set, or added as they land. -/
def accSet (w : Nat) (f : Nat → Int) : List RegWrite := [0, 1, 2, 3].map (fun l => .acc (wCd w % 4) l (f l))
def accPlus (w : Nat) (f : Nat → Int) : List RegWrite := [0, 1, 2, 3].map (fun l => .accAdd (wCd w % 4) l (f l))

/-- A shift amount as I4. -/
def shiftK (w : Nat) : Int := toInt 4 (wCb w)

/-- Lanes written unclipped. -/
def laneRaw (w : Nat) (f : Nat → Nat) : List RegWrite := [0, 1, 2, 3].map (fun l => .lane (wCd w) l (f l % 4294967296))

/-- Lane order of PERM's codes 0–7. -/
def permLane (code l : Nat) : Nat :=
  if code = 1 then [1, 0, 3, 2].getD l 0 else if code = 2 then [2, 3, 0, 1].getD l 0
  else if code = 3 then [3, 2, 1, 0].getD l 0 else if 4 ≤ code ∧ code ≤ 7 then code - 4 else l

/-! ## Issue -/

/-- A tick slot whose kernel runs on an engine. -/
def tickSlotOn (s : State) (me : Nat) : Option Nat :=
  (List.range 8).find? (fun t => rd s (K.T_EN t) == 1 && rd s (K.T_ACTIVE_ME t) == me)

/-- The block of a tick is lost and counted; it is not taken at the next boundary (R180). -/
def tickLost (me : Nat) (s : State) : State :=
  match tickSlotOn s me with
  | none => s
  | some t => bump (K.T_OVERRUNS t) { s with dsp.ticks := tabMod {} s.dsp.ticks t (fun x => { x with good := false }) }

/-- Time the running tick kernel has taken so far. -/
def tickTook (s : State) (me : Nat) : Instant := if (meOf s me).tick.running then clk s - (meOf s me).tickAt else 0

/-- A tick kernel stops: issue returns to bank 0, and its time does not count toward the item's run limit (R177). -/
def tickStop (me : Nat) (s : State) : State :=
  let took := tickTook s me
  let s := { s with sch.running := tabMod none s.sch.running me (fun r => r.map (fun st => { st with paused := st.paused + took })) }
  meUpd me (fun x => { x with tick := { (landAll x.tick) with running := false } }) s

/-- A kernel ends: its bank stops. A work kernel's item completes with its actions. -/
def kernelEnd (me : Nat) (tick : Bool) (b : Bank) (actions : List OutAct) (s : State) : State :=
  if tick then tickStop me (setBank me true b s)
  else completeOn me actions (setBank me false { (landAll b) with running := false } s)

/-- R177: a kernel fault: recorded against the kernel; the item completes with a FAILED action carrying RANGE. -/
def kernelFault (me : Nat) (tick : Bool) (b : Bank) (code : Nat) (s : State) : State :=
  let s := wr (K.KLAST_FAULT b.kernel) (code + 256 * b.pc) (bump (K.KFAULT_COUNT b.kernel) (bump K.KFAULTS s))
  let s := kernelEnd me tick b [.failed (some 4)] s
  if tick then tickLost me s else s

/-- Issue of the instruction at `pc`, with what a test on its word and bank allows. Past the last instruction of the code
nothing issues and the kernel stays as it is (assumption 155). -/
def onIssue (me : Nat) (ok : Nat → Bool) (f : Bool → Bank → Nat → State → State) (s : State) : State :=
  match activeBank s me with
  | none => s
  | some (tick, b) =>
    if b.stall.isSome then s
    else
      match fetchWord s b.kernel b.pc with
      | none => s
      | some w => if ok w then f tick b w s else s

/-- A PAR instruction whose compute slot is `cop` issues: both move slots that have not acted, and the compute
operation's writes with its latency (R164, R166, R171). -/
def issuePar (cop lat : Nat) (ws : Nat → Bank → List RegWrite) (me : Nat) (s : State) : State :=
  onIssue me (fun w => wFmt w == 0 && wOp w == cop) (fun tick b w s =>
    match parFault s tick b w with
    | some code => kernelFault me tick b code s
    | none =>
      let r := doSlotOnce false (wSlot w false) (meOf s me) b
      let u := doSlotOnce true (wSlot w true) r.1 r.2
      setBank me tick (advance (issue lat (ws w b) u.2)) (meUpd me (fun _ => u.1) s)) s

/-- A move slot of the instruction at `pc` acts, if its operation is `mop`. -/
def issueMove (mop : Nat) (y : Bool) (me : Nat) (s : State) : State :=
  onIssue me (fun w => wFmt w == 0 && mMop (wSlot w y) == mop) (fun tick b w s =>
    match parFault s tick b w with
    | some code => kernelFault me tick b code s
    | none =>
      let r := doSlotOnce y (wSlot w y) (meOf s me) b
      setBank me tick r.2 (meUpd me (fun _ => r.1) s)) s

/-- A CTL instruction whose operation is `op` issues with writes of latency 1. -/
def issueCtl (op : Nat) (ws : Nat → Bank → List RegWrite) (me : Nat) (s : State) : State :=
  onIssue me (fun w => wFmt w == 1 && wOp w == op)
    (fun tick b w s => setBank me tick (advance (issue 1 (ws w b) b)) s) s

/-! ## Compute operations (Table DSP-5) -/

/-- NOP. -/
def execNop (me : Fin 128) (s : State) : Res := .next (issuePar 0x00 1 (fun _ _ => []) me.val s)
/-- MPY: A.l = a.l × b.l. -/
def execMpy (me : Fin 128) (s : State) : Res := .next (issuePar 0x01 4 (fun w b => accSet w (prodU w b)) me.val s)
/-- MAC: A.l = A.l + a.l × b.l. -/
def execMac (me : Fin 128) (s : State) : Res := .next (issuePar 0x02 4 (fun w b => accPlus w (prodU w b)) me.val s)
/-- MSU: A.l = A.l − a.l × b.l. -/
def execMsu (me : Fin 128) (s : State) : Res :=
  .next (issuePar 0x03 4 (fun w b => accPlus w (fun l => -prodU w b l)) me.val s)
/-- MPY2. -/
def execMpy2 (me : Fin 128) (s : State) : Res := .next (issuePar 0x04 4 (fun w b => accSet w (prod2 w b)) me.val s)
/-- MAC2. -/
def execMac2 (me : Fin 128) (s : State) : Res := .next (issuePar 0x05 4 (fun w b => accPlus w (prod2 w b)) me.val s)
/-- MACX. -/
def execMacx (me : Fin 128) (s : State) : Res := .next (issuePar 0x06 4 (fun w b => accPlus w (prodX w b)) me.val s)
/-- CMPY. -/
def execCmpy (me : Fin 128) (s : State) : Res := .next (issuePar 0x07 5 (fun w b => accSet w (prodC w b)) me.val s)
/-- CMAC. -/
def execCmac (me : Fin 128) (s : State) : Res := .next (issuePar 0x08 5 (fun w b => accPlus w (prodC w b)) me.val s)
/-- ADD: E is CX[0], H is CX[1]. -/
def execAdd (me : Fin 128) (s : State) : Res :=
  .next (issuePar 0x10 2 (fun w b => laneOp w (bitOf (wCx w) 0) (bitOf (wCx w) 1) (fun x y => x + y) b) me.val s)
/-- SUB. -/
def execSub (me : Fin 128) (s : State) : Res :=
  .next (issuePar 0x11 2 (fun w b => laneOp w (bitOf (wCx w) 0) (bitOf (wCx w) 1) (fun x y => x - y) b) me.val s)

/-- BFLY's writes: sum and difference exact, then rounded by s and clipped. -/
def bflyWrites (w : Nat) (b : Bank) : List RegWrite :=
  let n := wCx w % 4
  let ws := [0, 1, 2, 3].flatMap (fun l =>
    let x := vInt b (wCa w) l
    let y := vInt b (wCb w) l
    laneSat (wCd w) l (rnd (x + y) n) ++ laneSat (wCd w + 1) l (rnd (x - y) n))
  ws ++ (if bitOf (wCx w) 2 then expWrites false ws else [])

/-- BFLY. -/
def execBfly (me : Fin 128) (s : State) : Res := .next (issuePar 0x12 2 bflyWrites me.val s)
/-- ABS. -/
def execAbs (me : Fin 128) (s : State) : Res :=
  .next (issuePar 0x13 2 (fun w b =>
    laneOp w (bitOf (wCx w) 0) (bitOf (wCx w) 1) (fun x _ => if x < 0 then -x else x) b) me.val s)
/-- NEG: lanes of the mask are negated, the others copied. -/
def execNeg (me : Fin 128) (s : State) : Res :=
  .next (issuePar 0x14 2 (fun w b => [0, 1, 2, 3].flatMap (fun l =>
    laneSat (wCd w) l (if bitOf (wCx w) l then -(vInt b (wCa w) l) else vInt b (wCa w) l))) me.val s)
/-- MIN: H is CX[1]. -/
def execMin (me : Fin 128) (s : State) : Res :=
  .next (issuePar 0x15 2 (fun w b => laneOp w false (bitOf (wCx w) 1) (fun x y => if x ≤ y then x else y) b) me.val s)
/-- MAX. -/
def execMax (me : Fin 128) (s : State) : Res :=
  .next (issuePar 0x16 2 (fun w b => laneOp w false (bitOf (wCx w) 1) (fun x y => if x ≤ y then y else x) b) me.val s)
/-- AND. -/
def execAnd (me : Fin 128) (s : State) : Res :=
  .next (issuePar 0x17 2 (fun w b => laneRaw w (fun l => vRaw b (wCa w) l &&& vRaw b (wCb w) l)) me.val s)
/-- OR. -/
def execOr (me : Fin 128) (s : State) : Res :=
  .next (issuePar 0x18 2 (fun w b => laneRaw w (fun l => vRaw b (wCa w) l ||| vRaw b (wCb w) l)) me.val s)
/-- XOR. -/
def execXor (me : Fin 128) (s : State) : Res :=
  .next (issuePar 0x19 2 (fun w b => laneRaw w (fun l => Nat.xor (vRaw b (wCa w) l) (vRaw b (wCb w) l))) me.val s)

/-- The count of SHL and SHR: CB + 16 × CX[0]. -/
def shiftN (w : Nat) : Nat := wCb w + 16 * (wCx w % 2)

/-- SHL. -/
def execShl (me : Fin 128) (s : State) : Res :=
  .next (issuePar 0x1A 2 (fun w b => [0, 1, 2, 3].flatMap (fun l =>
    laneSat (wCd w) l (vInt b (wCa w) l * 2 ^ shiftN w))) me.val s)
/-- SHR. -/
def execShr (me : Fin 128) (s : State) : Res :=
  .next (issuePar 0x1B 2 (fun w b => [0, 1, 2, 3].flatMap (fun l =>
    laneSat (wCd w) l (rnd (vInt b (wCa w) l) (shiftN w)))) me.val s)

/-- CMP's condition bits: less than, or equal. -/
def cmpBits (w : Nat) (b : Bank) : Nat :=
  [0, 1, 2, 3].foldl (fun c l =>
    let x := vInt b (wCa w) l
    let y := vInt b (wCb w) l
    c + (if (if bitOf (wCx w) 0 then decide (x = y) else decide (x < y)) then 2 ^ l else 0)) 0

/-- CMP. -/
def execCmp (me : Fin 128) (s : State) : Res := .next (issuePar 0x1C 2 (fun w b => [.cond (cmpBits w b)]) me.val s)
/-- SEL. -/
def execSel (me : Fin 128) (s : State) : Res :=
  .next (issuePar 0x1D 2 (fun w b => laneRaw w (fun l =>
    if bitOf b.c l then vRaw b (wCa w) l else vRaw b (wCb w) l)) me.val s)
/-- PERM. -/
def execPerm (me : Fin 128) (s : State) : Res :=
  .next (issuePar 0x1E 2 (fun w b => laneRaw w (fun l =>
    if wCb w = 8 then vRaw b (wCa w) l % 65536 * 65536 + vRaw b (wCa w) l / 65536
    else vRaw b (wCa w) (permLane (wCb w) l))) me.val s)
/-- EXP: H is CX[0]. -/
def execExp (me : Fin 128) (s : State) : Res :=
  .next (issuePar 0x1F 2 (fun w b => [0, 1, 2, 3].map (fun l =>
    .bexp (rsbLane (bitOf (wCx w) 0) (vRaw b (wCa w) l)))) me.val s)
/-- AADD. -/
def execAadd (me : Fin 128) (s : State) : Res :=
  .next (issuePar 0x20 2 (fun w b => accSet w (fun l => accOf b (wCa w) l + accOf b (wCb w) l)) me.val s)
/-- ASUB. -/
def execAsub (me : Fin 128) (s : State) : Res :=
  .next (issuePar 0x21 2 (fun w b => accSet w (fun l => accOf b (wCa w) l - accOf b (wCb w) l)) me.val s)
/-- ASH. -/
def execAsh (me : Fin 128) (s : State) : Res :=
  .next (issuePar 0x22 2 (fun w b => accSet w (fun l =>
    if 0 ≤ shiftK w then accOf b (wCa w) l * 2 ^ (shiftK w).toNat else rnd (accOf b (wCa w) l) (-(shiftK w)).toNat)) me.val s)
/-- ACLR. -/
def execAclr (me : Fin 128) (s : State) : Res :=
  .next (issuePar 0x23 2 (fun w _ => ([0, 1, 2, 3].filter (fun l => bitOf (wCx w) l)).map (fun l =>
    .acc (wCd w % 4) l 0)) me.val s)
/-- AMOV. -/
def execAmov (me : Fin 128) (s : State) : Res :=
  .next (issuePar 0x24 2 (fun w b => accSet w (fun l => vInt b (wCa w) l * 2 ^ 31)) me.val s)
/-- RND. -/
def execRnd (me : Fin 128) (s : State) : Res :=
  .next (issuePar 0x28 2 (fun w b => [0, 1, 2, 3].flatMap (fun l =>
    laneSat (wCd w) l (rnd (accOf b (wCa w) l) (31 - shiftK w).toNat))) me.val s)
/-- RNDH. -/
def execRndh (me : Fin 128) (s : State) : Res :=
  .next (issuePar 0x29 2 (fun w b => [0, 1, 2, 3].flatMap (fun l =>
    let x := rnd (accOf b (wCa w) l) (47 - shiftK w).toNat
    .half (wCd w) l (bitOf (wCx w) 0) (ofInt 16 (satS 16 x)) :: (if satS 16 x = x then [] else [.sat]))) me.val s)

/-! ## Move operations -/

/-- LD. -/
def execLd (me : Fin 128) (y : Bool) (s : State) : Res := .next (issueMove 1 y me.val s)
/-- ST. -/
def execSt (me : Fin 128) (y : Bool) (s : State) : Res := .next (issueMove 2 y me.val s)
/-- LDB. -/
def execLdb (me : Fin 128) (y : Bool) (s : State) : Res := .next (issueMove 3 y me.val s)
/-- PUPD. -/
def execPupd (me : Fin 128) (y : Bool) (s : State) : Res := .next (issueMove 4 y me.val s)

/-! ## Control operations (Table DSP-6) -/

/-- CNOP. -/
def execCnop (me : Fin 128) (s : State) : Res := .next (issueCtl 0x00 (fun _ _ => []) me.val s)
/-- SETV. -/
def execSetv (me : Fin 128) (s : State) : Res :=
  .next (issueCtl 0x01 (fun w _ =>
    if bitOf (wCa w) 2 then (List.range 4).map (fun l => .lane (wCd w) l (wImm32 w))
    else [.lane (wCd w) (wCa w % 4) (wImm32 w)]) me.val s)
/-- SETP. -/
def execSetp (me : Fin 128) (s : State) : Res :=
  .next (issueCtl 0x02 (fun w _ => [.ptr (wCd w % 8) (wImm32 w % 65536)]) me.val s)
/-- SETM. -/
def execSetm (me : Fin 128) (s : State) : Res :=
  .next (issueCtl 0x03 (fun w _ => [.modifier (wCd w % 8) (wImm16 w * 4294967296 + wImm32 w)]) me.val s)
/-- ADDP. -/
def execAddp (me : Fin 128) (s : State) : Res :=
  .next (issueCtl 0x04 (fun w b => [.ptr (wCd w % 8) ((ptrOf b (wCd w % 8) + wImm16 w) % 65536)]) me.val s)

/-- A branch waits for its two delay slots. -/
def branchTo (w : Nat) (b : Bank) : Bank := { (advance b) with branch := some (wImm32 w % 16384, 2) }

/-- BRA. -/
def execBra (me : Fin 128) (s : State) : Res :=
  .next (onIssue me.val (fun w => wFmt w == 1 && wOp w == 0x05) (fun tick b w s => setBank me.val tick (branchTo w b) s) s)

/-- Branch conditions of BCC, on the flags at issue. -/
def bccHolds (w : Nat) (b : Bank) : Bool :=
  let f := wCa w
  if f = 0 then b.c % 16 != 0 else if f = 1 then b.c % 16 == 15 else if f = 2 then b.c % 16 == 0
  else if f = 3 then b.c % 16 != 15 else if f = 4 then b.sat else if f = 5 then b.aov
  else if f = 6 then decide (b.bexp < wImm16 w % 32) else false

/-- BCC. -/
def execBcc (me : Fin 128) (s : State) : Res :=
  .next (onIssue me.val (fun w => wFmt w == 1 && wOp w == 0x06) (fun tick b w s =>
    setBank me.val tick (if bccHolds w b then branchTo w b else advance b) s) s)

/-- LOOP's repetitions. -/
def loopCount (w : Nat) (b : Bank) : Nat :=
  if bitOf (wCa w) 0 then vRaw b (wCd w) 0 % 16777216 else wImm32 w % 16777216

/-- LOOP: with count 0 it goes on after its last instruction, a fifth one too, the count being tested first (assumption 155);
a fifth nested loop is a fault. -/
def execLoop (me : Fin 128) (s : State) : Res :=
  .next (onIssue me.val (fun w => wFmt w == 1 && wOp w == 0x07) (fun tick b w s =>
    let last := wImm16 w % 16384
    if loopCount w b = 0 then setBank me.val tick (endCycle { b with pc := last + 1 }) s
    else if 4 ≤ b.loops.length then kernelFault me.val tick b 4 s
    else setBank me.val tick (endCycle { b with
      pc := b.pc + 1, loops := (b.pc + 1, last, loopCount w b) :: b.loops }) s) s)

/-- Offset of an LDC in the kernel's shared data. -/
def ldcOffset (w : Nat) (b : Bank) : Nat := wImm32 w % 1048576 + ptrOf b (wCa w % 8)

/-- LDC: issue stops until the data arrives (R173). -/
def execLdc (me : Fin 128) (s : State) : Res :=
  .next (onIssue me.val (fun w => wFmt w == 1 && wOp w == 0x08) (fun tick b w s =>
    let off := ldcOffset w b
    if off % 16 ≠ 0 then kernelFault me.val tick b 2 s
    else if leAt (rdBlob s (K.KIMAGE b.kernel)) 16 4 < off + 16 then kernelFault me.val tick b 5 s
    else setBank me.val tick { b with stall := some (wCd w, off) } s) s)

/-- Where the shared data of a kernel lies in the shared half of a cluster's SRAM (R133, R183). -/
def sharedAt (s : State) (cl k : Nat) : Nat :=
  sramBase + sramSize * cl + sramSize / 2 + ((tabGet none s.dsp.placed k).map Placed.shared).getD 0

/-- LDC_DATA_ARRIVE: the register takes its 16 octets and issue resumes. -/
def execLdcDataArrive (me : Fin 128) (s : State) : Res :=
  match activeBank s me.val with
  | none => .next s
  | some (tick, b) =>
    match b.stall with
    | none => .next s
    | some (r, off) =>
      let at_ := sharedAt s (clusterOf me.val) b.kernel + off
      let ws := (List.range 4).map (fun l => RegWrite.lane r l (leVal (memRead s (at_ + 4 * l) 4)))
      .next (setBank me.val tick (advance (issue 1 ws { b with stall := none })) s)

/-- CLRF. -/
def execClrf (me : Fin 128) (s : State) : Res := .next (issueCtl 0x09 (fun w _ => [.clear (wCa w)]) me.val s)
/-- RDST. -/
def execRdst (me : Fin 128) (s : State) : Res :=
  .next (issueCtl 0x0A (fun w b =>
    [.lane (wCd w) 0 (statOf b), .lane (wCd w) 1 0, .lane (wCd w) 2 0, .lane (wCd w) 3 0]) me.val s)

/-! ## Start and end of a work kernel (R175, R176) -/

/-- A data descriptor of an item (Table DSP-7): address, length, offset, bank, DIR. -/
structure Descr where
  addr : Nat
  len : Nat
  off : Nat
  bank : Nat
  dir : Nat
deriving DecidableEq, Repr

def descrOf (it : Item) (i : Nat) : Descr :=
  { addr := leAt it.payload (16 * i) 8, len := leAt it.payload (16 * i + 8) 4, off := leAt it.payload (16 * i + 12) 2,
    bank := leAt it.payload (16 * i + 14) 1, dir := leAt it.payload (16 * i + 15) 1 }

/-- VALID; input. -/
def Descr.valid (d : Descr) : Bool := bitOf d.dir 7
def Descr.input (d : Descr) : Bool := bitOf d.dir 0

/-- R175: a valid descriptor passes its check: reserved bits 0, lengths and offsets as Table DSP-7 asks, its range in the
binding's window. -/
def descrOk (s : State) (e : Nat) (d : Descr) : Bool :=
  let w := rd s (if d.bank = 0 then K.B_XWIN e else K.B_YWIN e)
  !d.valid || (decide (d.bank ≤ 1) && d.dir / 2 % 64 == 0 && d.len % 16 == 0 && d.off % 16 == 0
    && decide (w % 65536 ≤ d.off ∧ d.off + d.len ≤ w % 65536 + w / 65536 % 65536))

/-- The bank at kernel entry (R175). -/
def entryBank (s : State) (k e : Nat) (it : Item) : Bank :=
  let d := fun (i l : Nat) => leAt it.payload (16 * i + 4 * l) 4
  let v := (List.range 8).foldl (fun (t : Tab Nat) i => tabSet 0 t i (d (i / 4) (i % 4))) []
  let p := tabSet 0 (tabSet 0 [] 0 (descrOf it 0).off) 1 (descrOf it 1).off
  { v := v, p := p, pc := leAt (rdBlob s (K.KIMAGE k)) 14 2, kernel := k, binding := e, running := true }

/-- Copy a descriptor's input into its bank. -/
def copyIn (me : Nat) (d : Descr) (s : State) : State :=
  if d.valid && d.input then meUpd me (memPut (d.bank == 1) d.off (memRead s d.addr d.len)) s else s

/-- Copy a descriptor's output from its bank. -/
def copyOut (me : Nat) (d : Descr) (s : State) : State :=
  if d.valid && !d.input then
    memWrite d.addr ((List.range d.len).map (fun i => tabGet 0 (meOf s me).mem (bankAddr (d.bank == 1) (d.off + i)))) s
  else s

/-- KERNEL_START: the descriptors are checked, inputs copied, and the kernel begins at its ENTRY. -/
def kernelStart (me : Nat) (st : Staged) (s : State) : State :=
  match boundBy s st.it.typ with
  | none => s
  | some e =>
    let d0 := descrOf st.it 0
    let d1 := descrOf st.it 1
    if !(descrOk s e d0 && descrOk s e d1) then completeOn me [.failed (some 4)] s
    else
      let k := rd s (K.B_KERNEL e)
      bump (K.KRUNS k) (setBank me false (entryBank s k e st.it) (copyIn me d1 (copyIn me d0 s)))

/-- HALT: every issued operation completes; code 0 copies the outputs and enqueues the successor, another code makes the
item FAILED with it. In a tick kernel another code loses the block (R180). -/
def haltKernel (me : Nat) (tick : Bool) (b : Bank) (code : Nat) (s : State) : State :=
  let b := landAll b
  let s := upd (b.sat || b.aov) (bump (K.KSAT_RUNS b.kernel)) s
  if tick then
    let s := kernelEnd me true b [] s
    if code = 0 then
      match tickSlotOn s me with
      | some t => { s with dsp.ticks := tabMod {} s.dsp.ticks t (fun x => { x with good := true }) }
      | none => s
    else tickLost me s
  else if code ≠ 0 then kernelEnd me false b [.failed (some code)] s
  else
    match runningOn s me with
    | none => kernelEnd me false b [] s
    | some st =>
      let next := rd s (K.B_NEXT b.binding)
      let acts := if next = 0 then [] else [OutAct.enqueue { st.it with typ := next, accept := 0 }]
      kernelEnd me false b acts (copyOut me (descrOf st.it 1) (copyOut me (descrOf st.it 0) s))

/-- HALT. -/
def execHalt (me : Fin 128) (s : State) : Res :=
  .next (onIssue me.val (fun w => wFmt w == 1 && wOp w == 0x0B)
    (fun tick b w s => haltKernel me.val tick b (wImm32 w % 256) s) s)

/-- ME_WORK_REQUEST: an idle engine takes the next item; a kernel type starts its kernel. A tick that runs delays the
dispatch to its HALT (R178). -/
def execMeWorkRequest (me : Fin 128) (s : State) : Res :=
  if (meOf s me.val).tick.running then .next s else
  match dispatch me.val s with
  | (none, s) => .next s
  | (some st, s) => .next (if 0x100 ≤ st.it.typ ∧ st.it.typ ≤ 0xFFF then kernelStart me.val st s else s)

end Sys2Proof.Machine
end

