-- ==== Sys2Proof/Machine/Image.lean ====
section
/-! DEFINITION. Kernel images, bindings, and the faults of engines and clusters (R154, R155, R181–R185). -/
namespace Sys2Proof.Machine

/-! ## Image checks (Table DSP-10) -/

/-- Header fields of an image. -/
def imgCode (img : Bytes) (i : Nat) : Nat := leAt img (64 + 8 * i) 8
def imgEntry (img : Bytes) : Nat := leAt img 14 2
def imgShared (img : Bytes) : Nat := leAt img 16 4
def imgInit (img : Bytes) : Nat := leAt img 20 4
def imgFlags (img : Bytes) : Nat := leAt img 24 1

/-- Check 1. -/
def imgFormatOk (img : Bytes) : Bool :=
  leAt img 0 4 == 0x4B4E4C4B && leAt img 4 2 == 1 && leAt img 6 2 == 1
    && decide (2 ≤ codeLen img ∧ codeLen img ≤ 8184) && decide (imgEntry img < codeLen img)
    && imgShared img % 16 == 0 && decide (imgShared img ≤ 1048576) && decide (imgInit img ≤ imgShared img)
    && decide (imgFlags img < 4) && leAt img 25 3 == 0
    && img.length == 64 + 8 * codeLen img + imgInit img

/-- Check 2: the CRC covers every byte after the header. -/
def imgCrcOk (img : Bytes) : Bool := leAt img 28 4 == crc32 (img.drop 64)

/-- A move slot's code is not reserved and its unlisted fields, those its operation does not use, are 0 (assumption 156). -/
def slotCodeOk (m : Nat) : Bool :=
  let mop := mMop m
  if mop = 0 then m == 0
  else if 4 < mop then false
  else
    let lane := mLane m
    let laneOk :=
      if mSize m = 0 then (if mop = 3 then lane == 0 else decide (lane < 4))
      else if mSize m = 1 then decide (lane = 0 ∨ lane = 2)
      else if mSize m = 2 then lane == 0 else true
    if mop = 3 then mSize m == 0 && laneOk
    else if mop = 4 then mReg m == 0 && laneOk && (mAmode m != 0 || mMod m == 0)
    else laneOk && (mAmode m != 0 || mMod m == 0)

/-- The bits of CX an operation lists. -/
def cxBits (cop : Nat) : Nat :=
  if cop = 1 ∨ cop = 2 ∨ cop = 3 ∨ cop = 7 ∨ cop = 8 then 1
  else if cop = 0x10 ∨ cop = 0x11 ∨ cop = 0x13 then 3
  else if cop = 0x12 then 7
  else if cop = 0x14 ∨ cop = 0x23 then 15
  else if cop = 0x15 ∨ cop = 0x16 then 2
  else if cop = 0x1A ∨ cop = 0x1B ∨ cop = 0x1C ∨ cop = 0x1F ∨ cop = 0x29 then 1
  else 0

/-- Defined compute operations. -/
def copDefined (cop : Nat) : Bool :=
  decide (cop ≤ 8) || decide (0x10 ≤ cop ∧ cop ≤ 0x1F) || decide (0x20 ≤ cop ∧ cop ≤ 0x24) || cop == 0x28 || cop == 0x29

/-- Operations that use CD, CA, CB. -/
def usesCd (cop : Nat) : Bool := cop != 0 && cop != 0x1C && cop != 0x1F
def usesCa (cop : Nat) : Bool := cop != 0 && cop != 0x23
def usesCb (cop : Nat) : Bool :=
  cop != 0 && cop != 0x13 && cop != 0x14 && cop != 0x1F && cop != 0x23 && cop != 0x24

/-- Check 3 for a PAR word. -/
def parCodeOk (w : Nat) : Bool :=
  let cop := wOp w
  copDefined cop && wCx w &&& (15 - cxBits cop) == 0
    && (usesCd cop || wCd w == 0) && (usesCa cop || wCa w == 0) && (usesCb cop || wCb w == 0)
    && (cop != 0x12 || wCx w % 4 != 3) && (cop != 0x1E || decide (wCb w ≤ 8))
    && slotCodeOk (wSlot w false) && slotCodeOk (wSlot w true)

/-- Check 3 for a CTL word: unlisted fields are 0. An LDC whose F2 is 8–15 names no pointer and is rejected here, though
Table DSP-10 lists no check for it (assumption 156). -/
def ctlCodeOk (w : Nat) : Bool :=
  let op := wOp w
  let f1 := wCd w
  let f2 := wCa w
  let a := wImm16 w
  let b := wImm32 w
  if op = 0 then f1 == 0 && f2 == 0 && a == 0 && b == 0
  else if op = 1 then decide (f2 < 8) && a == 0
  else if op = 2 then f2 == 0 && a == 0 && decide (b < 65536)
  else if op = 3 then f2 == 0
  else if op = 4 then f2 == 0 && b == 0
  else if op = 5 then f1 == 0 && f2 == 0 && a == 0 && decide (b < 16384)
  else if op = 6 then f1 == 0 && decide (f2 ≤ 6) && (if f2 = 6 then decide (a < 32) else a == 0) && decide (b < 16384)
  else if op = 7 then decide (f2 < 2) && decide (a < 16384) && (if f2 = 1 then b == 0 else f1 == 0 && decide (b < 16777216))
  else if op = 8 then decide (f2 < 8) && a == 0 && decide (b < 1048576)
  else if op = 9 then f1 == 0 && a == 0 && b == 0
  else if op = 10 then f2 == 0 && a == 0 && b == 0
  else if op = 11 then f1 == 0 && f2 == 0 && a == 0 && decide (b < 256)
  else false

/-- Check 3. -/
def codeOk (w : Nat) : Bool := if wFmt w = 0 then parCodeOk w else if wFmt w = 1 then ctlCodeOk w else false

/-- Operations whose CD, or CA and CB, name accumulators. -/
def cdIsAcc (cop : Nat) : Bool := decide (1 ≤ cop ∧ cop ≤ 8) || decide (0x20 ≤ cop ∧ cop ≤ 0x24)
def caIsAcc (cop : Nat) : Bool := decide (0x20 ≤ cop ∧ cop ≤ 0x22) || cop == 0x28 || cop == 0x29

/-- Check 4. -/
def operandOk (w : Nat) : Bool :=
  if wFmt w = 0 then
    (!cdIsAcc (wOp w) || decide (wCd w < 4)) && (!caIsAcc (wOp w) || decide (wCa w < 4))
      && (!(wOp w == 0x20 || wOp w == 0x21) || decide (wCb w < 4)) && (wOp w != 0x12 || wCd w % 2 == 0)
  else !(decide (2 ≤ wOp w ∧ wOp w ≤ 4)) || decide (wCd w < 8)

/-- Check 5: no pointer updated twice, no register loaded twice. -/
def clashOk (w : Nat) : Bool :=
  let x := wSlot w false
  let y := wSlot w true
  let upd := fun (m : Nat) => mMop m != 0 && mAmode m != 0
  let load := fun (m : Nat) => mMop m == 1 || mMop m == 3
  wFmt w != 0 || (!(upd x && upd y && mPtr x == mPtr y) && !(load x && load y && mReg x == mReg y))

/-- The word is a branch, a LOOP, a HALT. -/
def isBranch (w : Nat) : Bool := wFmt w == 1 && (wOp w == 5 || wOp w == 6)
def isLoop (w : Nat) : Bool := wFmt w == 1 && wOp w == 7
def isHalt (w : Nat) : Bool := wFmt w == 1 && wOp w == 11

/-- LOOPs of a code: place and last instruction. -/
def imgLoops (img : Bytes) : List (Nat × Nat) :=
  (List.range (codeLen img)).filterMap (fun i =>
    if isLoop (imgCode img i) then some (i, wImm16 (imgCode img i) % 16384) else none)

/-- Check 6 for instruction `i`: targets in the code; a LOOP's last after it and inside every enclosing body. -/
def targetOk (img : Bytes) (loops : List (Nat × Nat)) (i : Nat) : Bool :=
  let w := imgCode img i
  if isBranch w then decide (wImm32 w % 16384 < codeLen img)
  else if isLoop w then
    let last := wImm16 w % 16384
    decide (last < codeLen img) && decide (i < last)
      && loops.all (fun l => !(decide (l.1 < i ∧ i ≤ l.2)) || decide (last ≤ l.2))
  else true

/-- Check 7 for instruction `i`: no branch, LOOP or HALT in a delay slot or in the last two of a LOOP body. -/
def placeOk (img : Bytes) (loops : List (Nat × Nat)) (i : Nat) : Bool :=
  let w := imgCode img i
  !(isBranch w || isLoop w || isHalt w)
    || (!(decide (1 ≤ i) && isBranch (imgCode img (i - 1))) && !(decide (2 ≤ i) && isBranch (imgCode img (i - 2)))
      && loops.all (fun l => !(decide (l.1 < i ∧ i ≤ l.2 ∧ l.2 < i + 2))))

/-- Check 8 for instruction `i`: no multiply directly after CMPY or CMAC. -/
def multOk (img : Bytes) (i : Nat) : Bool :=
  let w := imgCode img i
  let v := imgCode img (i - 1)
  !(decide (1 ≤ i) && wFmt w == 0 && decide (1 ≤ wOp w ∧ wOp w ≤ 8) && wFmt v == 0 && (wOp v == 7 || wOp v == 8))

/-- First fit of `n` in a space of `size` among blocks (start, length): the lowest free place. -/
def firstFit (size n : Nat) (used : List (Nat × Nat)) : Option Nat :=
  let starts := 0 :: used.map (fun u => u.1 + u.2)
  let ok := fun (p : Nat) => decide (p + n ≤ size) && used.all (fun u => decide (p + n ≤ u.1 ∨ u.1 + u.2 ≤ p))
  (starts.filter ok).foldl (fun b p => match b with | none => some p | some m => some (min m p)) none

/-- The blocks in use. -/
def usedCode (s : State) : List (Nat × Nat) :=
  s.dsp.placed.filterMap (fun e => e.2.map (fun p => (p.code, p.codeLen)))
def usedShared (s : State) : List (Nat × Nat) :=
  s.dsp.placed.filterMap (fun e => e.2.bind (fun p => if p.sharedLen = 0 then none else some (p.shared, p.sharedLen)))

/-- Check 9: where the kernel is placed. -/
def imgPlace (s : State) (img : Bytes) : Option Placed :=
  match firstFit 12288 (codeLen img) (usedCode s) with
  | none => none
  | some c =>
    if imgShared img = 0 then some { code := c, codeLen := codeLen img, shared := 0, sharedLen := 0 }
    else (firstFit 1048576 (imgShared img) (usedShared s)).map (fun h =>
      { code := c, codeLen := codeLen img, shared := h, sharedLen := imgShared img })

/-- The first failing check in table order, with the instruction index. -/
def imgCheck (s : State) (img : Bytes) : Option (Nat × Nat) :=
  if !imgFormatOk img then some (1, 0)
  else if !imgCrcOk img then some (2, 0)
  else
    let is := List.range (codeLen img)
    let loops := imgLoops img
    let bad := fun (c : Nat) (ok : Nat → Bool) => (is.find? (fun i => !ok i)).map (fun i => (c, i))
    [bad 3 (fun i => codeOk (imgCode img i)), bad 4 (fun i => operandOk (imgCode img i)),
     bad 5 (fun i => clashOk (imgCode img i)), bad 6 (targetOk img loops), bad 7 (placeOk img loops),
     bad 8 (multOk img), if (imgPlace s img).isNone then some (9, 0) else none].findSome? id

/-- CODE_FREE and SHARED_FREE. -/
def syncKernelSpace (s : State) : State :=
  let used := fun (l : List (Nat × Nat)) => l.foldl (fun n u => n + u.2) 0
  wr K.CODE_FREE (12288 - used (usedCode s)) (wr K.SHARED_FREE (1048576 - used (usedShared s)) s)

/-- Kernel states of key 6C40h + k:02. -/
abbrev ksEmpty : Nat := 0
abbrev ksValidating : Nat := 1
abbrev ksLoaded : Nat := 2
abbrev ksRejected : Nat := 3

/-- A kernel's shared data in every cluster: INIT_LEN bytes of the image, the rest 0 (R183). -/
def sharedInit (k : Nat) (img : Bytes) (s : State) : State :=
  (List.range 8).foldl (fun s c => memWrite (sharedAt s c k) ((img.drop (64 + 8 * codeLen img)).take (imgInit img))
    (memClear (sharedAt s c k) (imgShared img) s)) s

/-- Validate the image in a slot: LOADED and placed, or REJECTED with KERR (R183). -/
def validateImage (k : Nat) (s : State) : State :=
  let img := rdBlob s (K.KIMAGE k)
  match imgCheck s img with
  | some (c, i) => wr (K.KERR k) (c + 256 * i) (wr (K.KSTATE k) ksRejected s)
  | none =>
    let s := sharedInit k img { s with dsp.placed := tabSet none s.dsp.placed k (imgPlace s img) }
    syncKernelSpace (wr (K.KERR k) 0 (wr (K.KCODE k) (codeLen img) (wr (K.KID k) (leAt img 8 4)
      (wr (K.KSTATE k) ksLoaded s))))

/-- KIMAGE_VALIDATED: the validation of a written image ends. -/
def execKimageValidated (k : Fin 64) (s : State) : Res :=
  .next (if rd s (K.KSTATE k.val) = ksValidating then validateImage k.val s else s)

/-- R184: an enabled binding or tick slot names the slot, or an item runs it. -/
def kernelInUse (s : State) (k : Nat) : Bool :=
  (List.range 256).any (fun e => rd s (K.B_EN e) == 1 && rd s (K.B_KERNEL e) == k)
    || (List.range 8).any (fun t => rd s (K.T_EN t) == 1 && rd s (K.T_KERNEL t) == k)
    || s.dsp.mes.any (fun x => x.2.work.running && x.2.work.kernel == k)

/-- A slot's kernel gives up its space. -/
def unplace (k : Nat) (s : State) : State :=
  syncKernelSpace (wr (K.KCODE k) 0 (wr (K.KID k) 0 { s with dsp.placed := tabSet none s.dsp.placed k none }))

/-- An image accepted for a slot: VALIDATING. -/
def imageWritten (k : Nat) (s : State) : State := wr (K.KERR k) 0 (wr (K.KSTATE k) ksValidating (unplace k s))

/-- KUNLOAD: the slot is emptied. -/
def kunload (k : Nat) (s : State) : State :=
  wr (K.KERR k) 0 (wr (K.KSTATE k) ksEmpty (unplace k { s with blobs := tabSet none s.blobs (K.KIMAGE k) none }))

def writeKunload (inst : Inst) (tag : Nat) (k : Fin 64) (s : State) : State :=
  runCmd inst tag (0x6C40 + k.val) 6 (if kernelInUse s k.val then .busy else .ok)
    (fun s => markDirty (K.KIMAGE k.val) (kunload k.val s)) s

/-! ## Bindings (R185) -/

/-- The image in a slot has a flag: 0 WORK, 1 TICK. -/
def kernelFlag (s : State) (k b : Nat) : Bool := bitOf (imgFlags (rdBlob s (K.KIMAGE k))) b

/-- A window lies in 0000h–BFFFh. -/
def windowOk (w : Nat) : Bool := decide (w % 65536 + w / 65536 % 65536 ≤ 0xC000)

/-- Items of a type are staged: waiting, delayed or running. -/
def typeStaged (s : State) (typ : Nat) : Bool :=
  s.sch.ready.any (fun e => e.2.any (fun st => st.it.typ == typ))
    || s.sch.hold.any (fun e => e.2.any (fun st => st.it.typ == typ))
    || s.sch.delay.any (fun st => st.it.typ == typ)
    || s.sch.running.any (fun e => match e.2 with | some st => st.it.typ == typ | none => false)
    || s.sch.inflight.any (fun e => e.2.any (fun x => x.st.it.typ == typ))

/-- Enabling or disabling a binding. -/
def bindStatus (e : Nat) (on : Bool) (s : State) : Status :=
  let k := rd s (K.B_KERNEL e)
  let typ := rd s (K.B_TYPE e)
  if on then
    if rd s (K.B_EN e) = 1 then .ok else
    checks [
      (rd s (K.KSTATE k) == ksValidating, .busy),
      (rd s (K.KSTATE k) == ksEmpty || rd s (K.KSTATE k) == ksRejected || !kernelFlag s k 0
        || !windowOk (rd s (K.B_XWIN e)) || !windowOk (rd s (K.B_YWIN e)) || typ == 0, .range),
      ((List.range 256).any (fun f => f != e && rd s (K.B_EN f) == 1 && rd s (K.B_TYPE f) == typ), .conflict)]
  else if rd s (K.B_EN e) = 1 ∧ typeStaged s typ = true then .busy else .ok

/-- B_EN. -/
def writeBEn (inst : Inst) (tag : Nat) (e : Fin 256) (on : Bool) (s : State) : State :=
  runWrite inst tag (0x6D00 + e.val) 7 on (bindStatus e.val on s) (wr (K.B_EN e.val) (b2n on)) s

/-! ## Engines and clusters that fault -/

/-- A bank 0 whose item runs there no more stops. -/
def stopBanks (s : State) : State :=
  { s with dsp.mes := tabMap {} s.dsp.mes (fun me x =>
      if x.work.running && (runningOn s me).isNone then { x with work := { x.work with running := false } } else x) }

/-- An engine that may hold a tick slot: in RUN (LULL changes no result, R425), in a cluster in service. -/
def meFree (s : State) (me : Nat) : Bool :=
  decide (rd s (K.ME_STATE me) ≤ 1) && decide (rd s (K.CL_STATE (clusterOf me)) ≤ 1) && (tickSlotOn s me).isNone

/-- R181: a tick slot whose engine is gone moves to the lowest-numbered free one of its cluster, else of any; the block of
its last tick is lost, and counted. -/
def tickMove (t : Nat) (s : State) : State :=
  let me := rd s (K.T_ACTIVE_ME t)
  let s := upd (tabGet {} s.dsp.ticks t).ran (tickLost me) (tickStop me s)
  let same := (List.range 16).map (fun i => clusterOf me * 16 + i)
  match (same ++ List.range 128).find? (fun m => m != me && meFree s m) with
  | some m => wr (K.T_ACTIVE_ME t) m (meUpd m (fun x => { x with tick := { kernel := rd s (K.T_KERNEL t) } }) s)
  | none => wr (K.T_ACTIVE_ME t) 0xFF s

/-- Tick slots of engines a test names move. -/
def ticksMove (gone : Nat → Bool) (s : State) : State :=
  ((List.range 8).filter (fun t => rd s (K.T_EN t) == 1 && decide (rd s (K.T_ACTIVE_ME t) < 128)
    && gone (rd s (K.T_ACTIVE_ME t)))).foldl (fun s t => tickMove t s) s

/-- A cluster leaves service: its items, its engines' work and its tick slots (R155, R181). -/
def clusterGone (c state : Nat) (s : State) : State :=
  ticksMove (fun me => clusterOf me == c) (stopBanks (clusterLost c (wr (K.CL_STATE c) state s)))

/-- An upset of a cluster. -/
def clusterUpset (c : Nat) (s : State) : State :=
  match upset cCluster c s with
  | (s, true) => clusterGone c 4 s
  | (s, false) => s

/-- An engine is retired: an upset of its cluster (Table FLT-1), and its tick slot moves. -/
def meRetired (me : Nat) (s : State) : State :=
  let s := wr (K.ME_STATE me) 3 (stopBanks (redispatch me s))
  clusterUpset (clusterOf me) (ticksMove (fun m => m == me) s)

/-- R154: an engine faults: an upset, and its item is dispatched again. -/
def meFault (me : Nat) (s : State) : State :=
  match upset cME me (bump (K.ME_UPSETS me) s) with
  | (s, true) => meRetired me s
  | (s, false) => stopBanks (redispatch me s)

/-- ME_FAULT. -/
def execMeFault (me : Fin 128) (s : State) : Res := .next (meFault me.val s)

/-- RUN_LIMIT_EXCEEDED: a running item past the run limit its type had at its dispatch, the time of
tick kernels left out, is aborted and handled as a fault (R139, R177, R185). -/
def execRunLimitExceeded (me : Fin 128) (s : State) : Res :=
  match runningOn s me.val with
  | none => .next s
  | some st =>
    .next (if st.startedAt + st.limit + st.paused + tickTook s me.val < clk s then meFault me.val s else s)

/-- CLUSTER_FAULT: an uncorrectable error in a cluster's SRAM: an upset, and the items staged there (R155). -/
def execClusterFault (cl : Fin 8) (s : State) : Res :=
  let c := cl.val
  .next (match upset cCluster c s with
    | (s, true) => clusterGone c 4 s
    | (s, false) => stopBanks (clusterLost c s))

/-- ITEM_COMPLETE: the item on an engine completes with its output actions; a kernel's item completes by its own HALT. -/
def execItemComplete (me : Fin 128) (actions : List OutAct) (s : State) : Res :=
  .next (if (meOf s me.val).work.running then s else completeOn me.val actions s)

end Sys2Proof.Machine
end

