-- ==== Sys2Proof/Machine/Tick.lean ====
section
/-! DEFINITION. Tick slots (R178–R181): enabling, ticks, their input and output blocks. -/
namespace Sys2Proof.Machine

def tickOf (s : State) (t : Nat) : TickSlot := tabGet {} s.dsp.ticks t
def tickUpd (t : Nat) (f : TickSlot → TickSlot) (s : State) : State := { s with dsp.ticks := tabMod {} s.dsp.ticks t f }

/-- The budget an ME may be given in a period: 80 % of PERIOD × 33,333 engine cycles (R180). -/
def budgetOk (period budget : Nat) : Bool := decide (budget * 5 ≤ period * 33333 * 4)

/-- Status of a write of T_EN. -/
def tickEnStatus (t : Nat) (on : Bool) (s : State) : Status :=
  let k := rd s (K.T_KERNEL t)
  let me := rd s (K.T_ME t)
  let p := rd s (K.T_PERIOD t)
  if !on || rd s (K.T_EN t) == 1 then .ok else
  checks [
    (rd s (K.KSTATE k) != ksLoaded || !kernelFlag s k 1 || decide (127 < me)
      || decide (2048 < rd s (K.T_IN_COUNT t) * p) || decide (2048 < rd s (K.T_OUT_COUNT t) * p)
      || !budgetOk p (rd s (K.T_BUDGET t)), .range),
    (decide (me < 128) && isRetired s cME me, .retired),
    ((List.range 8).any (fun u => u != t && rd s (K.T_EN u) == 1 && rd s (K.T_ACTIVE_ME u) == me)
      || !chansFree s.mix.inOwner (rd s (K.T_OUT_FIRST t)) (rd s (K.T_OUT_COUNT t)) freeInputs (chanOwner 3 t), .conflict)]

/-- A slot is enabled: bank 1 of its ME is cleared to the entry values and its inputs are owned; or disabled. -/
def tickEn (t : Nat) (on : Bool) (s : State) : State :=
  let was := rd s (K.T_EN t)
  let s := wr (K.T_EN t) (b2n on) s
  if was = b2n on then s
  else if on then
    let me := rd s (K.T_ME t)
    let own := ownChans (rd s (K.T_OUT_FIRST t)) (rd s (K.T_OUT_COUNT t)) (chanOwner 3 t) s.mix.inOwner
    let s := { s with mix.inOwner := own }
    wr (K.T_ACTIVE_ME t) me (tickUpd t (fun _ => {}) (meUpd me (fun x => { x with tick := { kernel := rd s (K.T_KERNEL t) } }) s))
  else
    let me := rd s (K.T_ACTIVE_ME t)
    let s := if me < 128 then meUpd me (fun x => { x with tick := {} }) s else s
    wr (K.T_ACTIVE_ME t) 0xFF (tickUpd t (fun _ => {}) { s with mix.inOwner := dropOwner (chanOwner 3 t) s.mix.inOwner })

/-- T_EN: keys 6E00h + t:09. -/
def writeTEn (inst : Inst) (tag : Nat) (t : Fin 8) (on : Bool) (s : State) : State :=
  runEnable inst tag (0x6E00 + t.val) 9 (tickEnStatus t.val on s) (1 + rd s (K.T_ME t.val) / 16) on (tickEn t.val on) s

/-- The tick window of each bank: X C000h and Y C000h. -/
abbrev tickBase : Nat := 0xC000

/-- The outputs a slot reads at a boundary. -/
def tickSample (t : Nat) (s : State) : State :=
  if rd s (K.T_EN t) = 0 then s
  else
    let vals := (List.range (rd s (K.T_IN_COUNT t))).map (fun c =>
      let o := rd s (K.T_IN_FIRST t) + c
      if o < 1024 then tabGet 0 s.mix.outLast o else 0)
    tickUpd t (fun x => { x with input := (vals :: x.input).take (rd s (K.T_PERIOD t)) }) s

/-- The inputs a slot feeds at a boundary: the next samples of its block, the last ones while STALE. -/
def tickInputs (t : Nat) (s : State) : State :=
  if rd s (K.T_EN t) = 0 then s
  else
    let x := tickOf s t
    let chans := rd s (K.T_OUT_COUNT t)
    let vals := if x.stale ∨ x.block = [] then (List.range chans).map (chanAt x.last)
      else (List.range chans).map (fun c => (x.block.getD c []).getD x.next (chanAt x.last c))
    setInputs (rd s (K.T_OUT_FIRST t)) vals (tickUpd t (fun x => { x with next := x.next + 1, last := vals }) s)

/-- The block of a slot's last tick, read from Y C000h: channel-major, PERIOD samples each. -/
def tickBlock (s : State) (t me : Nat) : List (List Int) :=
  let p := rd s (K.T_PERIOD t)
  (List.range (rd s (K.T_OUT_COUNT t))).map (fun c => (List.range p).map (fun j =>
    toInt 32 (memVal (meOf s me) true (tickBase + 4 * (c * p + j)) 4)))

/-- The input block, written at X C000h: the PERIOD samples that end now, 0 before the slot was enabled. -/
def tickWrite (t : Nat) (s : State) (me : Nat) : State :=
  let p := rd s (K.T_PERIOD t)
  let l := (tickOf s t).input
  let rows := List.replicate (p - l.length) [] ++ l.reverse
  let octs := (List.range (rd s (K.T_IN_COUNT t))).flatMap (fun c => (List.range p).flatMap (fun j =>
    leBytes 4 (ofInt 32 (chanAt (rows.getD j []) c))))
  meUpd me (fun x => memPut false tickBase octs x) s

/-- Bank 1 starts at ENTRY with its registers as the last tick left them (R179). -/
def tickBank (s : State) (k : Nat) (b : Bank) : Bank :=
  { b with
    pc := leAt (rdBlob s (K.KIMAGE k)) 14 2, loops := [], branch := none, pend := [], stall := none,
    xDone := false, yDone := false, kernel := k, running := true }

/-- At a boundary the block of the last tick is taken; where that tick was lost, the channels it feeds are STALE until the
next (R180). -/
def tickTake (t me : Nat) (s : State) : State :=
  let x := tickOf s t
  if x.good then
    let blk := tickBlock s t me
    tickUpd t (fun x => { x with block := blk, next := 0, stale := false, good := false }) s
  else tickUpd t (fun y => { y with stale := y.stale || y.ran }) s

/-- TICK_BOUNDARY: at a slot's boundary the last block is taken, the next one written, and the ME switches to bank 1. A
tick still running is stopped; its block is not taken. While no ME is in use the tick is lost (R181). -/
def execTickBoundary (t : Fin 8) (s : State) : Res :=
  let me := rd s (K.T_ACTIVE_ME t.val)
  if rd s (K.T_EN t.val) = 0 ∨ atBoundary s = false
      ∨ boundaryNow s % rd s (K.T_PERIOD t.val) ≠ 0 then .next s
  else if 128 ≤ me then .next (tickUpd t.val (fun x => { x with ran := true }) (bump (K.T_OVERRUNS t.val) (tickTake t.val me s)))
  else
    let s := if (meOf s me).tick.running then tickLost me (tickStop me s) else s
    let s := tickUpd t.val (fun x => { x with ran := true }) (tickWrite t.val (tickTake t.val me s) me)
    let k := rd s (K.T_KERNEL t.val)
    .next (bump (K.KRUNS k) (meUpd me (fun y => { y with tick := tickBank s k y.tick, tickAt := clk s }) s))

/-- TICK_BUDGET_EXPIRY: a tick kernel still running BUDGET engine cycles of 0.625 ns after its switch is stopped (R180). -/
def execTickBudgetExpiry (t : Fin 8) (s : State) : Res :=
  let me := rd s (K.T_ACTIVE_ME t.val)
  if rd s (K.T_EN t.val) = 0 ∨ 128 ≤ me ∨ (meOf s me).tick.running = false
      ∨ tickTook s me < rd s (K.T_BUDGET t.val) * fineTick then .next s
  else .next (tickLost me (tickStop me s))

end Sys2Proof.Machine
end

