-- ==== Sys2Proof/Machine/Audio.lean ====
section
/-! DEFINITION. What happens at each audio sample boundary (R206) and at each field frame boundary at the hub (R12). -/
namespace Sys2Proof.Machine

/-- The trunk-slot inputs at a boundary: the next sample of the last frame's block, or the last one again. -/
def slotInputs (s : State) : State :=
  s.mix.slotWait.foldl (fun s e =>
    match e.2 with
    | [] => s
    | v :: rest =>
      setInputs e.1 [v] { s with
        mix.slotWait := tabSet [] s.mix.slotWait e.1 rest, mix.slotLast := tabSet 0 s.mix.slotLast e.1 v }) s

/-- The hub's side of a boundary `k`: every input, then every output, then what takes the outputs. -/
def hubSample (k : Nat) (di : List (List Int)) (s : State) : State :=
  let s := (List.range 8).foldl (fun s n => sapInputs k n (di.getD n []) s) s
  let s := (List.range 64).foldl (fun s e => rxInputs k e s) s
  let s := (List.range 8).foldl (fun s t => tickInputs t s) (candInputs (slotInputs s))
  let s := mixAll s
  let s := (List.range 8).foldl (fun s n => sapOutputs n s) s
  let s := (List.range 64).foldl (fun s e =>
    match txTake k e s with
    | (some p, s) => sendAes67 e p.1 p.2 s
    | (none, s) => s) s
  let s := (List.range 8).foldl (fun s t => tickSample t s) s
  encodeTake (loudTake (keepHall s))

/-- AUDIO_SAMPLE_BOUNDARY, when one has come with the last tick (R28): nothing of the hub's audio runs in SAFE (R481).
`di` holds the slots on DI of each port as words, `mics` what the nodes' inputs capture. Each node is at the
boundary of its own Isobar nearest to the field die's. -/
def execAudioSampleBoundary (di : List (List Int)) (mics : List (Nat × Nat × Int)) (s : State) : Res :=
  let k := boundaryNow s
  if !atBoundary s then .next s else
  let s := if rd s (K.PD_STATE 13) = 0 ∧ modeOf s ≠ mSafe then hubSample k di s else s
  let kf := sampleAtOrAfter (fieldNow s - 31250 * ns1 / 3)
  .next (s.fld.nodes.foldl (fun s e => nodeSample kf mics s e.1) s)

/-- A block of upstream slots becomes the input of the next six boundaries. A block that did not come leaves its slots
STALE; an unassigned slot carries zeros. -/
def latchBlock (s : State) (i : Nat) : State :=
  let t := i / 4
  let b := i % 4
  let valid := tabGet 0 s.fld.upValid i
  let samples := tabGet [] s.fld.up i
  (List.range 8).foldl (fun s c =>
    let inp := trunkBase + t * 32 + b * 8 + c
    if samples.isEmpty then
      if tabGet 0 s.mix.slotLast inp = 0 ∧ (tabGet [] s.mix.slotWait inp).isEmpty ∨ s.mix.slotStale.contains inp then s
      else { s with mix.slotStale := s.mix.slotStale ++ [inp] }
    else
      let row := if bitOf valid c then (samples.getD c []).map (· * 256) else [0, 0, 0, 0, 0, 0]
      { s with
        mix.slotWait := tabSet [] s.mix.slotWait inp (if row.all (· == 0) && tabGet 0 s.mix.slotLast inp == 0 then [] else row)
        mix.slotStale := s.mix.slotStale.erase inp }) s

/-- The last six samples of H0–H63, channel by channel, oldest first. -/
def hallBlock (s : State) : List (List Int) :=
  (List.range 64).map (fun c => s.mix.hSamples.reverse.map (fun fr => chanAt fr c))

/-- HUB_FIELD_FRAME: the hub counts the heartbeats that have not come and sends its own; in RUN it also sends the time and
the downstream channels and takes the upstream ones. -/
def execHubFieldFrame (s : State) : Res :=
  let s := countMissed true s
  let awake := rd s K.HUB_PSTATE == 0
  let mode := modeOf s + (if awake then 0 else 128)
  let s := if awake then
      lanokSend true (.timeXfer (nowNs s) (s.isb.now % ns1) (rd s K.ISB_STATE) (rdI 32 s K.ISB_FREQ_ADJ)) s
    else s
  let s := lanokSend true (.heartbeat mode (rd s K.FIELD_STATE) (rd s K.ROLE) (rd s K.EPOCH)) s
  if !awake then .next s
  else
    let s := if rd s K.ROLE = 2 then s else lanokSend true (.audioDown (nowNs s) (hallBlock s)) s
    let s := upd (rd s K.ROLE == 1 && s.pair.peerRelays) (pairSend (.relayDown (nowNs s) (hallBlock s))) s
    let s := (List.range 32).foldl latchBlock s
    .next { s with fld.up := [], fld.upValid := [] }

end Sys2Proof.Machine
end

