-- ==== Sys2Proof/Machine/Rime.lean ====
section
/-! DEFINITION. Rime surfaces: their planes, their tiles, writing and reading them (R345–R350). -/
namespace Sys2Proof.Machine

def ceilDiv (a b : Nat) : Nat := (a + b - 1) / b

/-- Tiles across and down, and a size rounded up to a multiple of 256 (R345). -/
def tilesAcross (w : Nat) : Nat := ceilDiv w 16
def tilesDown (h : Nat) : Nat := ceilDiv h 8
def align256 (x : Nat) : Nat := ceilDiv x 256 * 256

def payOff (w h : Nat) : Nat := 256 + align256 (4 * tilesAcross w * tilesDown h)
def lsbOff (w h : Nat) : Nat := payOff w h + align256 (192 * tilesAcross w * tilesDown h)

/-- Length of a surface in bytes. -/
def surfaceSize (w h depth : Nat) : Nat :=
  if depth = 8 then payOff w h + 192 * tilesAcross w * tilesDown h
  else lsbOff w h + 96 * ceilDiv (tilesAcross w) 2 * tilesDown h

/-! ## Tiles (R346, R347) -/

/-- The bits of a value, low first. -/
def bitsOf : Nat → Nat → List Bool
  | 0, _ => []
  | n + 1, v => (v % 2 == 1) :: bitsOf n (v / 2)

/-- The value of bits, low first. -/
def bitsVal : List Bool → Nat
  | [] => 0
  | b :: t => b2n b + 2 * bitsVal t

/-- Octets of a bit stream: bit i is bit (i mod 8) of octet ⌊i ÷ 8⌋. -/
def packBits : Nat → List Bool → Bytes
  | 0, _ => []
  | n + 1, l => BitVec.ofNat 8 (bitsVal (l.take 8)) :: packBits n (l.drop 8)

/-- ⌊log₂ v⌋ + 1, and 0 for 0. -/
def bitLen : Nat → Nat → Nat
  | 0, _ => 0
  | n + 1, v => if v = 0 then 0 else 1 + bitLen n (v / 2)

def listMin (l : List Nat) : Nat := l.foldl min (l.headD 0)
def listMax (l : List Nat) : Nat := l.foldl max 0

/-- Base and bits per sample of a component. -/
def compForm (l : List Nat) : Nat × Nat := (listMin l, bitLen 8 (listMax l - listMin l))

/-- UNITS of a PACKED tile. -/
def packUnits (ky kcb kcr : Nat) : Nat := ceilDiv (2 + ceilDiv (128 * ky + 32 * kcb + 32 * kcr) 8) 32

/-- Fields of a tile header word (Table CMP-3). -/
def tileWord (mode units cr cb y : Nat) : Nat :=
  mode * 1073741824 + units * 134217728 + cr * 65536 + cb * 256 + y

/-- The form the writer chooses for a tile's 192 upper values: header word, payload of 192 B. The slot's octets beyond the
units used are not read by anything. -/
def packTile (v : List Nat) : Nat × Bytes :=
  let y := v.take 128
  let cb := (v.drop 128).take 32
  let cr := v.drop 160
  let fy := compForm y
  let fcb := compForm cb
  let fcr := compForm cr
  let units := packUnits fy.2 fcb.2 fcr.2
  if fy.2 = 0 ∧ fcb.2 = 0 ∧ fcr.2 = 0 then (tileWord 1 0 fcr.1 fcb.1 fy.1, List.replicate 192 0)
  else if units ≤ 5 then
    let bits := y.flatMap (fun x => bitsOf fy.2 (x - fy.1)) ++ cb.flatMap (fun x => bitsOf fcb.2 (x - fcb.1))
      ++ cr.flatMap (fun x => bitsOf fcr.2 (x - fcr.1))
    (tileWord 2 units fcr.1 fcb.1 fy.1,
      slice (BitVec.ofNat 8 (fy.2 + 16 * fcb.2) :: BitVec.ofNat 8 fcr.2 :: packBits (32 * units - 2) bits) 0 192)
  else (tileWord 0 6 0 0 0, v.map (BitVec.ofNat 8))

/-- `n` samples of `k` bits from bit `at_` of a stream, added to a base. -/
def unpackComp (stream : List Bool) (at_ n k base : Nat) : List Nat :=
  (List.range n).map (fun i => min 255 (base + bitsVal ((stream.drop (at_ + i * k)).take k)))

/-- R350: the 192 upper values of a tile; `none` for a tile that is not of a valid form. -/
def unpackTile (word : Nat) (payload : Bytes) : Option (List Nat) :=
  let mode := word / 1073741824 % 4
  let units := word / 134217728 % 8
  let cr := word / 65536 % 256
  let cb := word / 256 % 256
  let y := word % 256
  if word / 16777216 % 8 ≠ 0 then none
  else if mode = 0 then
    if units = 6 ∧ word % 16777216 = 0 then some (payload.map (·.toNat)) else none
  else if mode = 1 then
    if units = 0 then some (List.replicate 128 y ++ List.replicate 32 cb ++ List.replicate 32 cr) else none
  else if mode = 2 then
    let b0 := leAt payload 0 1
    let b1 := leAt payload 1 1
    let ky := b0 % 16
    let kcb := b0 / 16
    let kcr := b1 % 16
    if 8 < ky ∨ 8 < kcb ∨ 8 < kcr ∨ b1 / 16 ≠ 0 ∨ units ≠ packUnits ky kcb kcr then none
    else
      let stream := (payload.drop 2).flatMap (fun b => bitsOf 8 b.toNat)
      some (unpackComp stream 0 128 ky y ++ unpackComp stream (128 * ky) 32 kcb cb
        ++ unpackComp stream (128 * ky + 32 * kcb) 32 kcr cr)
  else none

/-- The lower 2 bits of 192 samples, four a byte (R348). -/
def packLsb : Nat → List Nat → Bytes
  | 0, _ => []
  | n + 1, l => BitVec.ofNat 8 ((l.take 4).foldr (fun v a => v % 4 + 4 * a) 0) :: packLsb n (l.drop 4)

/-! ## Surfaces -/

/-- A picture's samples: component (0 Y, 1 Cb, 2 Cr), x, y. -/
abbrev Samples := Nat → Nat → Nat → Nat

/-- Sample `i` of tile (tx, ty), with the picture's last column and row repeated beyond its size (R349). -/
def tileSample (w h : Nat) (f : Samples) (tx ty i : Nat) : Nat :=
  if i < 128 then f 0 (min (w - 1) (16 * tx + i % 16)) (min (h - 1) (8 * ty + i / 16))
  else
    let j := (i - 128) % 32
    f (1 + (i - 128) / 32) (min (ceilDiv w 2 - 1) (8 * tx + j % 8)) (min (ceilDiv h 2 - 1) (4 * ty + j / 8))

/-- Header of a surface (Table CMP-1). -/
def surfaceHeader (time w h depth flags map : Nat) : Bytes :=
  leBytes 8 time ++ leBytes 4 (w + 65536 * h) ++ leBytes 1 depth ++ leBytes 1 flags ++ leBytes 2 0 ++ leBytes 8 map
    ++ leBytes 2 (tilesAcross w) ++ leBytes 2 (tilesDown h) ++ leBytes 4 256 ++ leBytes 4 (payOff w h)
    ++ leBytes 4 (if depth = 8 then 0 else lsbOff w h) ++ List.replicate 24 0

/-- Write a surface. -/
def writeSurface (time w h depth flags map : Nat) (f : Samples) : Bytes :=
  let tw := tilesAcross w
  let n := tw * tilesDown h
  let tile (k : Nat) : List Nat := (List.range 192).map (tileSample w h f (k % tw) (k / tw))
  let upper (l : List Nat) : List Nat := if depth = 8 then l else l.map (· / 4)
  let packed := (List.range n).map (fun k => packTile (upper (tile k)))
  let hdr := packed.flatMap (fun p => leBytes 4 p.1)
  let pay := packed.flatMap (·.2)
  let base := slice (surfaceHeader time w h depth flags map) 0 256 ++ slice hdr 0 (align256 (4 * n))
  if depth = 8 then base ++ pay
  else
    let pairs := ceilDiv tw 2
    let lsb := (List.range (pairs * tilesDown h)).flatMap (fun q =>
      let t := q / pairs * tw + q % pairs * 2
      packLsb 48 (tile t) ++ (if q % pairs * 2 + 1 < tw then packLsb 48 (tile (t + 1)) else List.replicate 48 0))
    base ++ slice pay 0 (align256 (192 * n)) ++ lsb

/-- Fields of a surface's header. -/
def surfTime (b : Bytes) : Nat := leAt b 0 8
def surfW (b : Bytes) : Nat := leAt b 8 2
def surfH (b : Bytes) : Nat := leAt b 10 2
def surfDepth (b : Bytes) : Nat := leAt b 12 1
def surfFlags (b : Bytes) : Nat := leAt b 13 1
def surfMap (b : Bytes) : Nat := leAt b 16 8

/-- The tile's 192 values at the surface's depth, and whether it is of a valid form. -/
def readTile (b : Bytes) (k : Nat) : List Nat × Bool :=
  let tw := tilesAcross (surfW b)
  let deep := surfDepth b == 10
  match unpackTile (leAt b (256 + 4 * k) 4) (slice b (payOff (surfW b) (surfH b) + 192 * k) 192) with
  | none => (List.replicate 192 (if deep then 512 else 128), false)
  | some u =>
    if !deep then (u, true)
    else
      let at_ := lsbOff (surfW b) (surfH b) + 96 * (k / tw * ceilDiv tw 2 + k % tw / 2) + 48 * (k % tw % 2)
      ((List.range 192).map (fun i => 4 * u.getD i 0 + leAt b (at_ + i / 4) 1 / 4 ^ (i % 4) % 4), true)

/-- A sample of a surface. -/
def surfSample (b : Bytes) : Samples := fun comp x y =>
  let tw := tilesAcross (surfW b)
  if comp = 0 then ((readTile b (y / 8 * tw + x / 16)).1).getD (y % 8 * 16 + x % 16) 0
  else ((readTile b (y / 4 * tw + x / 8)).1).getD (128 + (comp - 1) * 32 + y % 4 * 8 + x % 8) 0

/-- Tiles of a surface that are not of a valid form. -/
def badTiles (b : Bytes) : Nat :=
  ((List.range (tilesAcross (surfW b) * tilesDown (surfH b))).filter (fun k => !(readTile b k).2)).length

end Sys2Proof.Machine
end

