-- ==== Sys2Proof/Machine/Venc.lean ====
section
/-! DEFINITION. What VENC codes: blocks and their vectors, the limits of a refresh sweep, the reference strip, NAL units and
OBUs, and the RTP packets and bitstream made of them (R314, R315, R329–R335, R338, R341). -/
namespace Sys2Proof.Machine

/-! ## Vectors (R334, R335) -/

/-- A vector, in quarter luma pixels, clamped into the window of ±128 by ±64 pixels. -/
def clampVector (v : Int × Int) : Int × Int := (max (-512) (min 512 v.1), max (-256) (min 256 v.2))

/-- A step of `n` quarter pixels around a vector: 0 back, 1 none, 2 on, in each direction. -/
def vectorStep (n : Int) (d : Fin 3 × Fin 3) (v : Int × Int) : Int × Int :=
  clampVector (v.1 + n * ((d.1.val : Int) - 1), v.2 + n * ((d.2.val : Int) - 1))

/-- The vector a search ends at: the whole-pixel candidate, refined by a half-pixel and a quarter-pixel step. -/
def searched (m : Motion) : Int × Int :=
  vectorStep 1 m.quarter (vectorStep 2 m.half (clampVector (4 * m.whole.1, 4 * m.whole.2)))

/-- Samples the interpolation filters read beyond a fractional position, before and after: 6 taps and 2 in H.264, 8 in AV1, 4
there for up to 4 samples. -/
def lumaTaps (av1 : Bool) (n : Nat) : Int × Int := if !av1 then (2, 3) else if n ≤ 4 then (1, 2) else (3, 4)
def chromaTaps (av1 : Bool) (n : Nat) : Int × Int := if !av1 then (0, 1) else if n ≤ 4 then (1, 2) else (3, 4)

/-- First and last sample that `n` samples from `lo` read, `v` displaced, in `parts` of a sample. -/
def readsOf (taps : Int × Int) (lo n : Nat) (parts v : Int) : Int × Int :=
  let b := v / parts
  let t := if v % parts = 0 then (0, 0) else taps
  ((lo : Int) + b - t.1, (lo : Int) + n - 1 + b + t.2)

/-- Luma and chroma samples a block reads in one direction. -/
def lumaReads (av1 : Bool) (lo n : Nat) (v : Int) : Int × Int := readsOf (lumaTaps av1 n) lo n 4 v
def chromaReads (av1 : Bool) (lo n : Nat) (v : Int) : Int × Int := readsOf (chromaTaps av1 (n / 2)) (lo / 2) (n / 2) 8 v

/-- R331: every sample a block reads lies left of luma column `limit`, the picture's edge extended. -/
def readsLeftOf (av1 : Bool) (width : Nat) (limit : Int) (b : EncBlock) (v : Int × Int) : Bool :=
  let right := max (lumaReads av1 b.x b.w v.1).2 (2 * (chromaReads av1 b.x b.w v.1).2 + 1)
  decide (max 0 (min right ((width : Int) - 1)) < limit)

/-! ## The reference strip (R334) -/

/-- The strip of a superblock row's first column, and the strip one 64-pixel column on: 320 by 192 luma pixels. -/
def stripLoad (row : Nat) : Strip := { x := -128, y := 64 * (row : Int) - 64 }
def stripSlide (t : Strip) : Strip := { t with x := t.x + 64 }
def stripAt (row : Nat) : Nat → Strip
  | 0 => stripLoad row
  | k + 1 => stripSlide (stripAt row k)

/-- What a block reads is in the strip of its column or in the 4 pixels of margin around it. -/
def inStrip (av1 : Bool) (b : EncBlock) (v : Int × Int) : Bool :=
  let t := stripAt (b.y / 64) (b.x / 64)
  let inside (r : Int × Int) (lo n : Int) : Bool := decide (lo - 4 ≤ r.1) && decide (r.2 < lo + n + 4)
  inside (lumaReads av1 b.x b.w v.1) t.x 320 && inside (lumaReads av1 b.y b.h v.2) t.y 192
    && inside (chromaReads av1 b.x b.w v.1) (t.x / 2) 160 && inside (chromaReads av1 b.y b.h v.2) (t.y / 2) 96

/-! ## Blocks of a picture (R329–R331, R338) -/

/-- What the limits of a picture depend on: codec, size, the refresh column from luma column `c0` up to `c1`, a start picture,
a minimal picture. `c0` is the clean boundary of the picture's reference. -/
structure PicLimits where
  av1 : Bool
  width : Nat
  height : Nat
  c0 : Nat
  c1 : Nat
  starting : Bool
  minimal : Bool

/-- Side of a unit: a superblock, or a macroblock. -/
def unitSide (av1 : Bool) : Nat := if av1 then 64 else 16

/-- Sizes of blocks. -/
def blockSizeOk (av1 : Bool) (b : EncBlock) : Bool :=
  if av1 then [4, 8, 16, 32, 64].contains b.w && [4, 8, 16, 32, 64].contains b.h && decide (b.w ≤ 4 * b.h ∧ b.h ≤ 4 * b.w)
  else match b.mode with
    | .intra _ => b.w == b.h && [4, 8, 16].contains b.w
    | .inter _ => [(16, 16), (16, 8), (8, 16), (8, 8), (8, 4), (4, 8), (4, 4)].contains (b.w, b.h)
    | .skip _ => b.w == 16 && b.h == 16

/-- A block may be coded as it is. -/
def blockOk (g : PicLimits) (b : EncBlock) : Bool :=
  let inColumn := decide (g.c0 ≤ b.x) && decide (b.x + b.w ≤ g.c1)
  let left := decide (b.x < g.c0)
  let clean (v : Int × Int) : Bool := !left || readsLeftOf g.av1 g.width ((g.c0 : Int) - 16) b v
  blockSizeOk g.av1 b && (match b.mode with
    | .intra to_ =>
      if g.starting then true
      else if inColumn then decide (to_ ≤ g.c1)
      else !g.minimal && (!left || decide (to_ ≤ g.c0))
    | .inter m => !g.starting && !g.minimal && !inColumn && inStrip g.av1 b (searched m) && clean (searched m)
    | .skip v => !g.starting && !inColumn && inStrip g.av1 b v && (g.minimal || clean v))

/-- Part of a block within the picture. -/
def blockArea (g : PicLimits) (b : EncBlock) : Nat := (min (b.x + b.w) g.width - b.x) * (min (b.y + b.h) g.height - b.y)
def apart (a b : EncBlock) : Bool := decide (a.x + a.w ≤ b.x ∨ b.x + b.w ≤ a.x ∨ a.y + a.h ≤ b.y ∨ b.y + b.h ≤ a.y)
def allApart : List EncBlock → Bool
  | [] => true
  | b :: t => t.all (apart b) && allApart t

/-- The blocks of row `r` cover it once, each in one unit, and each may be coded as it is. -/
def rowOk (g : PicLimits) (r : Nat) (bs : List EncBlock) : Bool :=
  let u := unitSide g.av1
  let within (b : EncBlock) : Bool :=
    b.x / u == (b.x + b.w - 1) / u && b.y / u == r && (b.y + b.h - 1) / u == r && decide (0 < blockArea g b)
  bs.all (fun b => within b && blockOk g b) && allApart bs
    && bs.foldl (fun n b => n + blockArea g b) 0 == g.width * (min ((r + 1) * u) g.height - r * u)

/-- R331, R334, R338: the blocks of a picture. -/
def blocksOk (g : PicLimits) (rows : List EncRow) : Bool :=
  rows.length == ceilDiv g.height (unitSide g.av1)
    && (List.range rows.length).all (fun r => rowOk g r (rows.getD r {}).blocks)

/-! ## NAL units and OBUs (R314, R332) -/

def msbBits (b : Bytes) : List Bool := b.flatMap (fun x => (List.range 8).map (fun i => bitOf x.toNat (7 - i)))
def msbVal (l : List Bool) : Nat := l.foldl (fun n b => 2 * n + b2n b) 0

/-- An Exp-Golomb code. -/
def ueOf (l : List Bool) : Nat :=
  let z := (l.takeWhile (fun b => !b)).length
  2 ^ z - 1 + msbVal ((l.drop (z + 1)).take z)

def octetAt (b : Bytes) (i : Nat) : Nat := (b.getD i 0).toNat
def nalType (n : Bytes) : Nat := octetAt n 0 % 32
def obuType (o : Bytes) : Nat := octetAt o 0 / 8 % 16

/-- A recovery point SEI with this recovery_frame_cnt. -/
def recoveryPoint (cnt : Nat) (n : Bytes) : Bool := nalType n == 6 && octetAt n 1 == 6 && ueOf (msbBits (n.drop 3)) == cnt

/-- The NAL units of an H.264 picture: a slice for each row, IDR slices in the start picture alone; a refresh-complete picture
begins with SPS, PPS and a recovery point of the sweep that follows. -/
def h264Ok (starting last : Bool) (next nrows : Nat) (units : List Bytes) : Bool :=
  let slices := units.filter (fun n => nalType n == 1 || nalType n == 5)
  units.all (fun n => !n.isEmpty && [1, 5, 6, 7, 8].contains (nalType n))
    && slices.length == nrows && slices.all (fun n => nalType n == (if starting then 5 else 1))
    && (!last || (nalType (units.getD 0 []) == 7 && nalType (units.getD 1 []) == 8 && recoveryPoint next (units.getD 2 [])))

/-- The OBUs of an AV1 picture, without size fields: one frame, a key frame as start picture and an inter frame later; a
refresh-complete picture begins with a sequence header. -/
def av1Ok (starting last : Bool) (units : List Bytes) : Bool :=
  let frames := units.filter (fun o => obuType o == 3 || obuType o == 6)
  units.all (fun o => !o.isEmpty && octetAt o 0 / 2 % 4 == 0)
    && frames.length == 1 && frames.all (fun o => octetAt o 1 / 32 == (if starting then 0 else 1))
    && (!last || obuType (units.getD 0 []) == 1)

/-! ## Packets and bitstream (R315, R341) -/

def chunksOf (n : Nat) (b : Bytes) : List Bytes := (List.range (ceilDiv b.length n)).map (fun k => (b.drop (k * n)).take n)

/-- A NAL unit in packets of at most `max_` octets: by itself, or in FU-A fragments (RFC 6184). -/
def nalPackets (max_ : Nat) (n : Bytes) : List Bytes :=
  if n.length ≤ max_ then [n]
  else
    let parts := chunksOf (max_ - 2) (n.drop 1)
    (List.range parts.length).map (fun k =>
      leBytes 1 (octetAt n 0 / 32 * 32 + 28)
        ++ leBytes 1 (128 * b2n (k == 0) + 64 * b2n (k + 1 == parts.length) + nalType n) ++ parts.getD k [])

/-- An OBU in packets of at most `max_` octets, each of one element; `first`: it begins a coded video sequence. -/
def obuPackets (max_ : Nat) (first : Bool) (o : Bytes) : List Bytes :=
  let parts := chunksOf (max_ - 1) o
  (List.range parts.length).map (fun k =>
    leBytes 1 (128 * b2n (k != 0) + 64 * b2n (k + 1 != parts.length) + 16 + 8 * b2n (first && k == 0)) ++ parts.getD k [])

/-- The RTP payloads of a picture. -/
def pictureRtp (av1 starting : Bool) (max_ : Nat) (units : List Bytes) : List Bytes :=
  if av1 then (List.range units.length).flatMap (fun i => obuPackets max_ (starting && i == 0) (units.getD i []))
  else units.flatMap (nalPackets max_)

/-- leb128 of a size. -/
def leb128 : Nat → Nat → Bytes
  | 0, _ => []
  | fuel + 1, n => if n < 128 then leBytes 1 n else leBytes 1 (128 + n % 128) ++ leb128 fuel (n / 128)

/-- The bitstream of a picture: Annex B, or low-overhead OBUs, which carry their sizes. -/
def pictureStream (av1 : Bool) (units : List Bytes) : Bytes :=
  if av1 then units.flatMap (fun o => leBytes 1 (octetAt o 0 + 2) ++ leb128 5 (o.length - 1) ++ o.drop 1)
  else units.flatMap (fun n => [0, 0, 0, 1] ++ n)

end Sys2Proof.Machine
end

