-- ==== Sys2Proof/Machine/Video.lean ====
section
/-! DEFINITION. Video codec contexts: loads, buffers, decoding with its loss and damage, refresh requests, refresh-only
encoding and its rate control (chapter VID, R305). -/
namespace Sys2Proof.Machine

/-! ## Contexts, loads and the pool (R312, R316, R317, R321) -/

def decOf (s : State) (c : Nat) : DecCtx := tabGet {} s.vid.decs c
def decUpd (c : Nat) (f : DecCtx → DecCtx) (s : State) : State := { s with vid.decs := tabMod {} s.vid.decs c f }
def encOf (s : State) (e : Nat) : EncCtx := tabGet {} s.vid.encs e
def encUpd (e : Nat) (f : EncCtx → EncCtx) (s : State) : State := { s with vid.encs := tabMod {} s.vid.encs e f }
def bufUpd (b : Nat) (f : VBuf → VBuf) (s : State) : State := { s with vid.bufs := tabMod {} s.vid.bufs b f }

/-- Enabled decode contexts, encode contexts and composition outputs. -/
def decsOn (s : State) : List Nat := listedOn s 0xD000 1024 1
def encsOn (s : State) : List Nat := listedOn s 0xD400 256 1
def outsOn (s : State) : List Nat := listedOn s 0xE000 64 1

/-- States of a context: DEC_STATE and ENC_STATE. -/
abbrev vsOff : Nat := 0
abbrev vsWaiting : Nat := 1
abbrev vsRunning : Nat := 2
abbrev vsSuspended : Nat := 3

def up16 (x : Nat) : Nat := ceilDiv x 16 * 16

/-- R316: a declared load: pixels/s, rounded up. -/
def loadOf (w h num den : Nat) : Nat := ceilDiv ((up16 w * up16 h + 4000) * num) den
def decLoad (s : State) (c : Nat) : Nat := loadOf (rd s (K.MAX_WIDTH c)) (rd s (K.MAX_HEIGHT c)) (rd s (K.MAX_RATE c)) 1
def encOut (s : State) (e : Nat) : Nat := rd s (K.ENC_SOURCE e)
def encLoad (s : State) (e : Nat) : Nat :=
  let o := encOut s e
  loadOf (rd s (K.OUT_WIDTH o)) (rd s (K.OUT_HEIGHT o))
    (rd s (K.RATE_NUM o) * (if rd s (K.ENC_LATENCY e) = 0 then 2 else 1)) (rd s (K.RATE_DEN o))

abbrev vdecLimit : Nat := 2000000000
abbrev vencLimit : Nat := 1200000000

/-- Depth of a decode context's buffers. -/
def decDepth (s : State) (c codec : Nat) : Nat := if codec = 1 then 8 else rd s (K.MAX_DEPTH c)
/-- Size of a buffer of a decode context, and their number. -/
def decBufSize (s : State) (c codec : Nat) : Nat :=
  surfaceSize (rd s (K.MAX_WIDTH c)) (rd s (K.MAX_HEIGHT c)) (decDepth s c codec)
def decBufCount (s : State) (c codec : Nat) : Nat := (if codec = 1 then 16 else 8) + 3 + rd s (K.EXTRA_BUFS c)

/-- Bytes an encode context reserves: 3 buffers, and the bitstream staging. -/
def encReserve (s : State) (e : Nat) : Nat :=
  let o := encOut s e
  3 * surfaceSize (rd s (K.OUT_WIDTH o)) (rd s (K.OUT_HEIGHT o)) (rd s (K.ENC_DEPTH e))
    + ceilDiv (2 * ceilDiv (rd s (K.BITRATE e) * rd s (K.RATE_DEN o)) (rd s (K.RATE_NUM o))) 8192 * 1024

/-- Bytes a composition output reserves (R352). -/
def outReserve (s : State) (o : Nat) : Nat :=
  2 * surfaceSize (rd s (K.OUT_WIDTH o)) (rd s (K.OUT_HEIGHT o)) (rd s (K.OUT_DEPTH o))

/-- Bytes of the video pool reserved. -/
def vpoolUsed (s : State) : Nat :=
  (decsOn s).foldl (fun n c => n + rd s (K.DEC_BUFS c) * decBufSize s c (rd s (K.DEC_CODEC c))) 0
    + s.vid.bufs.foldl (fun n b => n + b.2.orphan) 0
    + (encsOn s).foldl (fun n e => n + (if (encOf s e).unreserved then 0 else encReserve s e)) 0
    + (outsOn s).foldl (fun n o => n + outReserve s o) 0
def vpoolFree (s : State) : Nat := rd s K.VPOOL_SIZE - vpoolUsed s

/-- INST_STATE codes. -/
abbrev isRun : Nat := 0
abbrev isLull : Nat := 1
abbrev isRetiredI : Nat := 2

/-- Instances 0 VDEC0, 1 VDEC1, 2 VENC: usable when not retired and their domain has not failed. -/
def instUsable (s : State) (j : Nat) : Bool := !isRetired s cCodec j && !domainFailed s (14 + j)
def instWorks (s : State) (j : Nat) : Bool := modeOf s != mSafe && instUsable s j && domainRuns s (14 + j)

/-- R317: where a decode context is placed. -/
def placeDec (s : State) (c : Nat) : Option Nat :=
  let fits (j : Nat) : Bool := instUsable s j && decide (rd s (K.INST_LOAD j) + decLoad s c ≤ vdecLimit)
  let want := rd s (K.DEC_INSTANCE c)
  if want < 2 then (if fits want then some want else none)
  else if fits 0 then some 0 else if fits 1 then some 1 else none

/-- Codec of a decode context's source: 0 none, 1 H.264, 2 AV1. -/
def decSrcCodec (s : State) (c : Nat) : Nat :=
  match srcId (rd s (K.DEC_SOURCE c)) with
  | some i => if i < cmpSource then srcCodec s i else 0
  | none => 0

def decEnStatus (c : Nat) (on : Bool) (s : State) : Status :=
  if !on || rd s (K.DEC_EN c) == 1 then .ok else
  let src := rd s (K.DEC_SOURCE c)
  let codec := decSrcCodec s c
  let tooBig := codec == 2 && decide (8912896 < rd s (K.MAX_WIDTH c) * rd s (K.MAX_HEIGHT c))
  if src / 1073741824 ≠ 1 ∨ codec = 0 ∨ 2 < codec ∨ tooBig = true then .range
  else if (placeDec s c).isNone then .busy
  else if vpoolFree s < decBufCount s c codec * decBufSize s c codec then .busy
  else .ok

/-! ## Buffers and their marks (R322) -/

/-- Buffers a context uses. -/
def bufsOf (s : State) (c : Nat) : Tab VBuf := s.vid.bufs.filter (fun b => b.2.ctx == c && b.2.orphan == 0)

/-- A buffer holds no mark. -/
def VBuf.unmarked (b : VBuf) : Bool := !b.target && !b.ref && !b.isOut && b.read == 0

/-- Buffers with no mark return to their free lists. -/
def freeBufs (s : State) : State := { s with vid.bufs := s.vid.bufs.filter (fun b => !b.2.unmarked) }

/-- A free buffer of a context is marked TARGET. -/
def takeBuf (c : Nat) (s : State) : Option (Nat × State) :=
  if rd s (K.DEC_BUFS c) ≤ (bufsOf s c).length then none
  else some (s.vid.nextBuf, { s with
    vid.bufs := tabPut s.vid.bufs s.vid.nextBuf { ctx := c, target := true }, vid.nextBuf := s.vid.nextBuf + 1 })

/-- Every buffer of a context is given up; one that a reader holds goes once its last reader is done. -/
def dropBufs (c : Nat) (s : State) : State :=
  let size := decBufSize s c (rd s (K.DEC_CODEC c))
  freeBufs { s with vid.bufs := s.vid.bufs.map (fun b =>
    if b.2.ctx = c ∧ b.2.orphan = 0 then
      (b.1, { b.2 with target := false, ref := false, isOut := false, orphan := if b.2.read = 0 then 0 else size })
    else b) }

/-- The buffer that holds OUT of a context. -/
def outBuf (s : State) (c : Nat) : Option (Nat × VBuf) := s.vid.bufs.find? (fun b => b.2.ctx == c && b.2.orphan == 0 && b.2.isOut)

/-! ## Decoding instances (R318–R320, R322) -/

/-- The context exceeds its load: pixels decoded in the last 100 ms. -/
def overBudget (s : State) (c : Nat) : Bool :=
  let px := (decOf s c).log.foldl (fun n e => if clk s < e.1 + 100 * ms1 then n + e.2 else n) 0
  decide (rd s (K.DEC_LOAD c) < 10 * px)

/-- Deadline of a picture: its ready instant plus 1 ÷ MAX_RATE. -/
def decDeadline (s : State) (c : Nat) (p : ReadyPic) : Instant := p.ready + s1 / rd s (K.MAX_RATE c)

/-- The picture an instance works on: contexts within their load first, then the earliest deadline, then the lowest
context. A picture that waits for a buffer is passed over. -/
def vdecPick (s : State) (j : Nat) : Option Nat :=
  let cands := (decsOn s).filter (fun c => rd s (K.DEC_ON c) == j && rd s (K.DEC_STATE c) != vsSuspended
    && (match (decOf s c).pics with | p :: _ => p.bufWait.isNone | [] => false))
  let rank (c : Nat) : Nat × Nat := (b2n (overBudget s c), (decOf s c).pics.head?.elim 0 (decDeadline s c))
  cands.foldl (fun (b : Option Nat) c => match b with
    | none => some c
    | some m => if (rank c).1 < (rank m).1 ∨ ((rank c).1 = (rank m).1 ∧ (rank c).2 < (rank m).2) then some c else some m) none

/-- The head picture of a context is changed. -/
def headPic (c : Nat) (f : ReadyPic → ReadyPic) (s : State) : State :=
  decUpd c (fun x => { x with pics := match x.pics with | p :: t => f p :: t | [] => [] }) s

/-- An instance takes up its next picture: it needs a buffer. -/
def vdecStart : Nat → Nat → State → State
  | 0, _, s => s
  | fuel + 1, j, s =>
    match vdecPick s j with
    | none => s
    | some c =>
      match (decOf s c).pics with
      | [] => s
      | p :: _ =>
        if p.target.isSome then s
        else match takeBuf c s with
          | some (b, s) => headPic c (fun p => { p with target := some b, started := some (clk s) }) s
          | none => vdecStart fuel j (headPic c (fun p => { p with bufWait := some (clk s) }) s)

/-- Buffers freed wake pictures waiting for one; idle instances take up work. -/
def vdecSync (s : State) : State :=
  let s := freeBufs s
  let s := (decsOn s).foldl (fun s c =>
    if (bufsOf s c).length < rd s (K.DEC_BUFS c) then headPic c (fun p => { p with bufWait := none }) s else s) s
  [0, 1].foldl (fun s j =>
    let s := if instWorks s j then vdecStart 1024 j s else s
    if (vdecPick s j).isSome && rd s (K.INST_STATE j) == isLull then leaveLull (14 + j) (wr (K.INST_STATE j) isRun s) else s) s

/-- The head picture of a context is gone. -/
def popPic (c : Nat) (s : State) : State :=
  let s := match (decOf s c).pics with
    | p :: _ => (match p.target with | some b => bufUpd b (fun x => { x with target := false }) s | none => s)
    | [] => s
  vdecSync (decUpd c (fun x => { x with pics := x.pics.drop 1 }) s)

/-! ## Refresh requests (R305, R328, R333) -/

/-- A request reaches an encode context: the rest of its sweep is shortened. -/
def shortenSweep (e : Nat) (s : State) : State :=
  let x := encOf s e
  let fast := rd s (K.FAST_PERIOD e)
  if x.len - x.pos ≤ fast then s
  else
    let o := encOut s e
    let unit := if rd s (K.ENC_CODEC e) = 1 then 64 else 16
    let u := ceilDiv (rd s (K.OUT_WIDTH o)) unit
    let done := x.base + (x.pos - x.from_) * (u - x.base) / (x.len - x.from_)
    let s := encUpd e (fun x => { x with base := done, from_ := x.pos, len := x.pos + fast }) s
    wr (K.SWEEP_POS e) (x.pos + 65536 * (x.pos + fast)) s
def encRefresh (e : Nat) (s : State) : State := shortenSweep e (bump (K.REFRESH_REQ e) s)

/-- The encode context that forms a composition output's stream (R340). -/
def legsEncoder (s : State) (o : Nat) : Option Nat :=
  (encsOn s).find? (fun e => encOut s e == o && rd s (K.ENC_DEST e) == 0)

def refreshOf (s : State) (i stream : Nat) : Refresh := tabGet {} (vsrcOf s i).refresh stream
def refreshUpd (i stream : Nat) (f : Refresh → Refresh) (s : State) : State :=
  vsrcUpd i (fun x => { x with refresh := tabMod {} x.refresh stream f }) s

/-- A request is sent to a received source stream, under its leg's REFRESH_MODE; `fir` forces FIR. -/
def sendRefresh (i stream : Nat) (fir : Bool) (s : State) : State :=
  let l := i / 2
  let ssrc := (srcSsrcs s i).getD stream 0
  let mode := rd s (K.REFRESH_MODE l)
  let isFir := fir || mode == 1
  let n := ((refreshOf s i stream).fir + 1) % 256
  let s := refreshUpd i stream (fun r => { r with
    lastAt := some (clk s), due := false, fir := if isFir then n else r.fir,
    firAt := if mode = 2 ∧ !fir then some (clk s + rd s K.FWD_REFRESH_WAIT * ms1) else none }) s
  bump (K.REFRESH_SENT l) (sendRtcp l [if isFir then .fir ssrc n else .pli ssrc] s)

/-- A refresh request for a stream of a source is raised: sent, merged, or handed to an encode context. -/
def raiseRefresh (i stream : Nat) (s : State) : State :=
  if cmpSource ≤ i then (match legsEncoder s (i - cmpSource) with | some e => encRefresh e s | none => s)
  else
    let hold := match (refreshOf s i stream).lastAt with
      | some t => decide (clk s < t + rd s K.FWD_REFRESH_MIN * ms1)
      | none => false
    if hold then refreshUpd i stream (fun r => { r with due := true }) s else sendRefresh i stream false s

/-- The stream of a source that a layer belongs to (R305). -/
def streamOf (s : State) (i layer : Nat) : Nat := if srcCodec s i = 1 then layer / 16 else 0

/-- A request of slot `j` of a leg, for the stream of WANT or of CUR. -/
def slotRefresh (l j : Nat) (ofCur : Bool) (s : State) : State :=
  let code := if ofCur then (slotOf s l (j + 1)).source else rd s (K.SLOT_SOURCE l j)
  let layer := if ofCur then slotCur s l j else slotWant s l j
  match srcId code with
  | none => s
  | some i => if layer = layerPaused then s else raiseRefresh i (streamOf s i layer) s

/-- A request of a decode context (R328). -/
def decRequest (c : Nat) (s : State) : State :=
  match srcId (rd s (K.DEC_SOURCE c)) with
  | none => s
  | some i => raiseRefresh i (streamOf s i (rd s (K.DEC_LAYER c))) (bump (K.REQUESTS_VID c) s)

/-- REFRESH_WAIT_EXPIRY: slots and decode contexts that have waited FWD_REFRESH_WAIT for a switch point raise a request; a
stream asked by PLI with no switch point since is asked by FIR (REFRESH_MODE 2). Each goes on waiting from here. -/
def execRefreshWaitExpiry (s : State) : Res :=
  let wait := rd s K.FWD_REFRESH_WAIT * ms1
  let past (t : Option Instant) : Bool := t.any (fun t => decide (t + wait ≤ clk s))
  let slots := (upLegs s).flatMap (fun l =>
    ([0, 1, 2].filter (fun j => past (slotOf s l (j + 1)).waitSince)).map (fun j => (l, j)))
  let decs := (decsOn s).filter (fun c => past (decOf s c).waitSince)
  let firs := s.fwd.sources.flatMap (fun e =>
    (e.2.refresh.filter (fun r => r.2.firAt.any (fun t => decide (t ≤ clk s)))).map (fun r => (e.1, r.1)))
  let s := slots.foldl (fun s x =>
    slotRefresh x.1 x.2 false (slotUpd x.1 (x.2 + 1) (fun y => { y with waitSince := some (clk s) }) s)) s
  let s := decs.foldl (fun s c => decRequest c (decUpd c (fun x => { x with waitSince := some (clk s) }) s)) s
  .next (firs.foldl (fun s x => sendRefresh x.1 x.2 true s) s)

/-- REFRESH_MIN_EXPIRY: merged requests whose FWD_REFRESH_MIN has ended are sent. -/
def execRefreshMinExpiry (s : State) : Res :=
  let due := s.fwd.sources.flatMap (fun e => (e.2.refresh.filter (fun r => r.2.due &&
    r.2.lastAt.all (fun t => decide (t + rd s K.FWD_REFRESH_MIN * ms1 ≤ clk s)))).map (fun r => (e.1, r.1)))
  .next (due.foldl (fun s x => sendRefresh x.1 x.2 false s) s)

/-- REFRESH: key D400h + e:13. -/
def writeRefresh (inst : Inst) (tag : Nat) (e : Fin 256) (s : State) : State :=
  runCmd inst tag (0xD400 + e.val) 0x13 .ok (fun s => if rd s (K.ENC_EN e.val) = 1 then encRefresh e.val s else s) s

/-! ## Enabling a decode context (R317, R323) -/

/-- The context starts, on an instance. -/
def decStart (c j : Nat) (s : State) : State :=
  let codec := decSrcCodec s c
  let s := { s with vid.decs := tabSet {} s.vid.decs c { layer := rd s (K.DEC_LAYER c) } }
  wr (K.DEC_STATE c) vsWaiting (wr (K.DEC_ON c) j (wr (K.DEC_CODEC c) codec s))

def decEnable (c : Nat) (s : State) : State :=
  match placeDec s c with
  | none => s
  | some j =>
    let codec := decSrcCodec s c
    let load := decLoad s c
    decStart c j (wr (K.DEC_LOAD c) load (wr (K.DEC_BUFS c) (decBufCount s c codec)
      (wr (K.INST_LOAD j) (rd s (K.INST_LOAD j) + load) (wr K.DEC_CONTEXTS (rd s K.DEC_CONTEXTS + 1) s))))

/-- Frees its load, and its buffers once no reader holds them. -/
def decDisable (c : Nat) (s : State) : State :=
  let j := rd s (K.DEC_ON c)
  let s := if j < 2 then wr (K.INST_LOAD j) (rd s (K.INST_LOAD j) - rd s (K.DEC_LOAD c)) s else s
  let s := dropBufs c s
  let s := { s with vid.decs := tabErase s.vid.decs c }
  vdecSync (wr (K.DEC_STATE c) vsOff (wr (K.DEC_ON c) 0xFF (wr (K.DEC_LOAD c) 0 (wr (K.DEC_BUFS c) 0 (wr (K.DEC_CODEC c) 0
    (wr K.DEC_CONTEXTS (rd s K.DEC_CONTEXTS - 1) s))))))

def decEn (c : Nat) (on : Bool) (s : State) : State :=
  let was := rd s (K.DEC_EN c) == 1
  if on == was then s
  else if on then wr (K.DEC_EN c) 1 (decEnable c s)
  else wr (K.DEC_EN c) 0 (decDisable c s)

/-- DEC_EN: key D000h + c:01. -/
def writeDecEn (inst : Inst) (tag : Nat) (c : Fin 1024) (on : Bool) (s : State) : State :=
  runEnable inst tag (0xD000 + c.val) 1 (worst (mediaStatus on s) (decEnStatus c.val on s))
    (14 + (placeDec s c.val).getD 0) on (decEn c.val on) s

/-! ## Pictures becoming ready (R313, R318, R319, R323) -/

/-- A picture of a context is ready: it waits for its instance, or is lost. -/
def picReady (c : Nat) (p : PicInfo) (s : State) : State :=
  let codec := rd s (K.DEC_CODEC c)
  let outside := !p.supported || decide (rd s (K.MAX_WIDTH c) < p.width) || decide (rd s (K.MAX_HEIGHT c) < p.height)
    || decide (decDepth s c codec < p.depth)
    || (if codec = 1 then decide (36864 < ceilDiv p.width 16 * ceilDiv p.height 16) else decide (8912896 < p.width * p.height))
    || decide (p.width < 16) || decide (p.height < 16)
  if outside then bump (K.UNSUPPORTED c) s
  else if 2 ≤ ((decOf s c).pics.filter (fun q => q.started.isNone)).length then bump (K.OVERLOAD c) s
  else vdecSync (decUpd c (fun x => { x with pics := x.pics ++ [{ info := p, ready := s.isb.now }] }) s)

/-- Frames a context holds as references. -/
def heldFrames (s : State) (c : Nat) : List Nat :=
  ((bufsOf s c).filter (fun b => b.2.ref)).map (fun b => b.2.frame)

/-- A context that waits may start at this packet. -/
def entryPoint (s : State) (c : Nat) (f : FanOut) (pic : Option PicInfo) : Bool :=
  if rd s (K.DEC_CODEC c) = 1 then f.switchPoint
  else match pic with
    | none => false
    | some p => f.start && (p.key || (dtiOf f (decOf s c).layer == 2 && p.needs.all (fun n => (heldFrames s c).contains n)))

/-- An accepted packet of a source is handed to a decode context (R288). `ts` is its RTP timestamp. -/
def decodeTake (c : Nat) (f : FanOut) (ts : Nat) (pic : Option PicInfo) (s : State) : State :=
  if rd s (K.DEC_STATE c) ≠ vsWaiting ∧ rd s (K.DEC_STATE c) ≠ vsRunning then s else
  let codec := rd s (K.DEC_CODEC c)
  let want := rd s (K.DEC_LAYER c)
  let cur := (decOf s c).layer
  let next := if want = cur then cur else curNext s codec f cur want
  let s := decUpd c (fun x => { x with
    layer := next,
    waitSince := if next = want then none else some (x.waitSince.getD (clk s)) }) s
  if !belongs codec f next then s else
  let go := rd s (K.DEC_STATE c) == vsRunning || entryPoint s c f pic
  if !go then s else
  let s := wr (K.DEC_STATE c) vsRunning s
  let x := decOf s c
  -- an H.264 picture whose last packet was lost is ready at the next RTP timestamp
  let s := match x.arriving with
    | some (t, p) => if codec = 1 ∧ t ≠ ts then picReady c p s else s
    | none => s
  match pic with
  | none => decUpd c (fun x => { x with arriving := none }) s
  | some p =>
    let done := if codec = 1 then f.marker else (match f.dd with | some d => d.fin && d.spatial == next / 16 | none => false)
    if done then picReady c p (decUpd c (fun x => { x with arriving := none }) s)
    else decUpd c (fun x => { x with arriving := some (ts, p) }) s

/-! ## Decoding a picture (R322, R324–R328) -/

/-- The mid-grey picture. -/
def greySurface (w h depth : Nat) : Bytes := writeSurface 0 w h depth 0 0 (fun _ _ _ => if depth = 8 then 128 else 512)

/-- R326: the surface read for a frame a picture needs: the frame, or the substitute. -/
def refSurface (s : State) (c : Nat) (p : PicInfo) (n : Nat) : Bytes :=
  match (bufsOf s c).find? (fun b => b.2.ref && b.2.frame == n) with
  | some b => b.2.surface
  | none => ((decOf s c).clean).getD (greySurface p.width p.height p.depth)

/-- R327: a mask of tracking columns `a` to `b`. -/
def columnMask (a b : Nat) : Nat := (List.range 64).foldl (fun m k => if a ≤ k ∧ k ≤ b then m + 2 ^ k else m) 0

/-- R327: which blocks of a picture are damaged, in order. -/
def damagedBlocks (s : State) (c : Nat) (p : PicInfo) : List Bool :=
  p.blocks.foldl (fun (l : List Bool) b =>
    let badRef := b.inter.any (fun r =>
      match (bufsOf s c).find? (fun x => x.2.ref && x.2.frame == r.1) with
      | some x => surfMap x.2.surface &&& columnMask r.2.1 r.2.2 != 0
      | none => true)
    l ++ [b.concealed || badRef || b.intra.any (fun i => l.getD i false)]) []

/-- R327: the damage map: columns a damaged block overlaps. -/
def damageMap (s : State) (c : Nat) (p : PicInfo) : Nat :=
  (p.blocks.zip (damagedBlocks s c p)).foldl (fun m b =>
    if b.2 then m ||| columnMask (b.1.x / 64) ((b.1.x + b.1.w - 1) / 64) else m) 0

/-- Decoded samples of a picture: concealed blocks copy the co-located area of the first reference; a picture without
chroma decodes with it at mid-grey. -/
def decodedSamples (s : State) (c : Nat) (p : PicInfo) (token : Nat) : Samples :=
  let first := refSurface s c p (p.needs.headD p.number)
  let hidden := p.blocks.filter (·.concealed)
  fun comp x y =>
    let lx := if comp = 0 then x else 2 * x
    let ly := if comp = 0 then y else 2 * y
    if hidden.any (fun b => decide (b.x ≤ lx) && decide (lx < b.x + b.w) && decide (b.y ≤ ly) && decide (ly < b.y + b.h)) then
      surfSample first comp x y
    else if p.mono ∧ comp ≠ 0 then (if p.depth = 8 then 128 else 512)
    else Config.decodeSample token comp x y % 2 ^ p.depth

/-- The requests that follow a picture's output (R328), by whether it is DAMAGED. -/
def damagePolicy (c : Nat) (damaged : Bool) (s : State) : State :=
  let was := (decOf s c).damagedSince.isSome
  let s := decUpd c (fun x => { x with
    damagedSince := if damaged then some (x.damagedSince.getD (clk s)) else none,
    asked := damaged && x.asked }) s
  if damaged && !was && rd s (K.REQ_POLICY c) == 1 then decRequest c s else s

/-- The picture is written: marks move, and if it is shown it is output. -/
def decodeDone (c : Nat) (q : ReadyPic) (b : Nat) (s : State) : State :=
  let p := q.info
  let missing := p.needs.filter (fun n => !(heldFrames s c).contains n)
  let map := damageMap s c p
  let concealed := p.blocks.any (·.concealed)
  let damaged := map != 0 || !missing.isEmpty
  let flags := b2n damaged + 2 * b2n (!missing.isEmpty) + 4 * b2n concealed
  let surf := writeSurface (q.ready / ns1) p.width p.height p.depth flags map (decodedSamples s c p s.freeCtr)
  let s := drew s
  let s := bumpBy (K.SUBSTITUTIONS c) missing.length s
  let s := upd p.grain (bump (K.GRAIN_IGNORED c)) s
  let s := { s with vid.bufs := s.vid.bufs.map (fun x =>
    if x.2.ctx ≠ c ∨ x.2.orphan ≠ 0 then x
    else if x.1 = b then
      (x.1, { x.2 with frame := p.number, surface := surf, target := false, ref := p.keeps.contains p.number, isOut := p.shown })
    else (x.1, { x.2 with ref := x.2.ref && p.keeps.contains x.2.frame, isOut := x.2.isOut && !p.shown })) }
  let s := decUpd c (fun x => { x with
    pics := x.pics.drop 1, clean := if map = 0 then some surf else x.clean,
    log := (clk s, up16 p.width * up16 p.height) :: x.log.filter (fun e => decide (clk s < e.1 + 100 * ms1)) }) s
  let s := if p.shown then
      damagePolicy c damaged (wr (K.DEC_SIZE c) (p.width + 65536 * p.height) (wr (K.LAST_PICTURE c) (q.ready / ns1)
        (wr (K.DAMAGE_MAP c) map (upd damaged (bump (K.DAMAGED_PICS c)) (bump (K.DEC_PICTURES c) s)))))
    else s
  vdecSync s

/-- DECODE_PICTURE_COMPLETE: the picture that VDEC `j` works on. -/
def execDecodePictureComplete (j : Fin 2) (s : State) : Res :=
  .next (match vdecPick s j.val with
    | none => s
    | some c => match (decOf s c).pics with
      | [] => s
      | q :: _ => (match q.target with | some b => decodeDone c q b s | none => s))

/-- DECODE_BUF_WAIT_TIMEOUT: 0.5 ÷ MAX_RATE without a free buffer. -/
def execDecodeBufWaitTimeout (c : Fin 1024) (s : State) : Res :=
  .next (match (decOf s c.val).pics with
    | [] => s
    | q :: _ => match q.bufWait with
      | some t => if s1 ≤ 2 * rd s (K.MAX_RATE c.val) * (clk s - t) then popPic c.val (bump (K.BUF_WAITS c.val) s) else s
      | none => s)

/-- DAMAGE_WAIT_EXPIRY: REQ_POLICY DEFERRED. -/
def execDamageWaitExpiry (c : Fin 1024) (s : State) : Res :=
  .next (match (decOf s c.val).damagedSince with
    | some t =>
      if rd s (K.REQ_POLICY c.val) = 2 ∧ (decOf s c.val).asked = false ∧ t + rd s (K.DAMAGE_WAIT c.val) * ms1 ≤ clk s then
        decRequest c.val (decUpd c.val (fun x => { x with asked := true }) s)
      else s
    | none => s)

/-! ## Encode contexts (R314, R317, R329, R330) -/

/-- QP limits, whose defaults follow the codec. -/
def qpOr (s : State) (e k h264 av1 : Nat) : Nat :=
  let v := rd s k
  if v = qpUnset then (if rd s (K.ENC_CODEC e) = 1 then av1 else h264) else v
def qpMin (s : State) (e : Nat) : Nat := qpOr s e (K.QP_MIN e) 10 40
def qpMax (s : State) (e : Nat) : Nat := qpOr s e (K.QP_MAX e) 45 220
def qpInit (s : State) (e : Nat) : Nat := qpOr s e (K.QP_INIT e) 30 120

def encEnStatus (e : Nat) (on : Bool) (s : State) : Status :=
  if !on || rd s (K.ENC_EN e) == 1 then .ok else
  let o := encOut s e
  let av1 := rd s (K.ENC_CODEC e) == 1
  let w := rd s (K.OUT_WIDTH o)
  let h := rd s (K.OUT_HEIGHT o)
  let top := if av1 then 255 else 51
  let bad := (av1 && rd s (K.ENC_PROFILE e) != 0) || (!av1 && rd s (K.ENC_DEPTH e) != 8)
    || (if av1 then decide (8912896 < w * h) else decide (36864 < ceilDiv w 16 * ceilDiv h 16))
    || decide (top < qpMax s e) || decide (qpMax s e < qpMin s e)
    || decide (qpInit s e < qpMin s e) || decide (qpMax s e < qpInit s e)
    || (rd s (K.ENC_DEST e) == 1 && (rd s (K.HOST_RING_BASE e) == 0 || rd s (K.HOST_RING_SIZE e) == 0))
    || rd s (K.OUT_EN o) == 0
  let clash := rd s (K.ENC_DEST e) == 0 && (legsEncoder s o).isSome
  if bad then .range else if clash then .conflict
  else if isRetired s cCodec 2 || decide (vencLimit < rd s (K.INST_LOAD 2) + encLoad s e) then .busy
  else if vpoolFree s < encReserve s e then .busy
  else .ok

/-- Begin with a start picture and a normal sweep; debt 0. -/
def encStart (e : Nat) (s : State) : State :=
  let n := rd s (K.REFRESH_PERIOD e)
  let s := { s with vid.encs := tabSet {} s.vid.encs e { len := n, qpStart := qpInit s e, gap := (encOf s e).gap } }
  wr (K.SWEEP_POS e) (65536 * n) (wr (K.DEBT e) 0 (wr (K.ENC_STATE e) 1 s))

def encEnable (e : Nat) (s : State) : State :=
  let load := encLoad s e
  encStart e (wr (K.ENC_LOAD e) load (wr (K.INST_LOAD 2) (rd s (K.INST_LOAD 2) + load)
    (wr K.ENC_CONTEXTS (rd s K.ENC_CONTEXTS + 1) { s with vid.encs := tabErase s.vid.encs e })))
def encDisable (e : Nat) (s : State) : State :=
  wr (K.ENC_STATE e) vsOff (wr (K.ENC_LOAD e) 0 (wr (K.INST_LOAD 2) (rd s (K.INST_LOAD 2) - rd s (K.ENC_LOAD e))
    (wr K.ENC_CONTEXTS (rd s K.ENC_CONTEXTS - 1) { s with vid.encs := tabErase s.vid.encs e })))

def encEn (e : Nat) (on : Bool) (s : State) : State :=
  let was := rd s (K.ENC_EN e) == 1
  if on == was then s
  else if on then wr (K.ENC_EN e) 1 (encEnable e s)
  else wr (K.ENC_EN e) 0 (encDisable e s)

/-- ENC_EN: key D400h + e:01. -/
def writeEncEn (inst : Inst) (tag : Nat) (e : Fin 256) (on : Bool) (s : State) : State :=
  runEnable inst tag (0xD400 + e.val) 1 (worst (mediaStatus on s) (encEnStatus e.val on s)) 16 on (encEn e.val on) s

/-! ## Work of VENC (R320) -/

/-- Deadline of an encode context's picture. -/
def encDeadline (s : State) (e : Nat) (p : EncPic) : Instant :=
  let o := encOut s e
  let period := s1 * rd s (K.RATE_DEN o) / rd s (K.RATE_NUM o)
  p.at_ + (if rd s (K.ENC_LATENCY e) = 0 then period / 2 else period)

/-- The context VENC serves: the earliest deadline, then the lowest context. -/
def vencPick (s : State) : Option Nat :=
  let cands := (encsOn s).filter (fun e => !(encOf s e).pics.isEmpty && rd s (K.ENC_STATE e) != vsSuspended)
  let rank (e : Nat) : Nat := (encOf s e).pics.head?.elim 0 (encDeadline s e)
  cands.foldl (fun (b : Option Nat) e => match b with
    | none => some e
    | some m => if rank e < rank m then some e else some m) none

def encHead (e : Nat) (f : EncPic → EncPic) (s : State) : State :=
  encUpd e (fun x => { x with pics := match x.pics with | p :: t => f p :: t | [] => [] }) s

def vencSync (s : State) : State :=
  if !instWorks s 2 then s else
  match vencPick s with
  | none => s
  | some e =>
    let s := if rd s (K.INST_STATE 2) = isLull then leaveLull 16 (wr (K.INST_STATE 2) isRun s) else s
    encHead e (fun p => { p with started := some (p.started.getD (clk s)) }) s

/-- An output boundary: each of its encode contexts has a picture to code; one still incomplete has its remaining rows
coded exhausted. -/
def encBoundary (o : Nat) (at_ : Instant) (s : State) : State :=
  vencSync (((encsOn s).filter (fun e => encOut s e == o && rd s (K.ENC_STATE e) != vsSuspended)).foldl (fun s e =>
    let late := ((encOf s e).pics.filter (fun p => !p.late)).length
    bumpBy (K.LATE_PICS e) late (encUpd e (fun x => { x with
      pics := x.pics.map (fun p => { p with late := true }) ++ [{ at_ := at_ }] }) s)) s)

/-! ## Rate control (R336–R339) -/

/-- Units of the refresh column of a sweep's picture `i`: from, up to (R330, R333). -/
def columnOf (x : EncCtx) (units i : Nat) : Nat × Nat :=
  let m := x.len - x.from_
  let k := i - x.from_
  (x.base + k * (units - x.base) / m, x.base + (k + 1) * (units - x.base) / m)

/-- step(ca, ct), in QP units of `u`. -/
def qpStep (ca ct : Nat) (u : Int) : Int :=
  if 5 * ct < 4 * ca then 2 * u
  else if 53 * ct < 50 * ca then u
  else if 5 * ca < 4 * ct then -(2 * u)
  else if 50 * ca < 47 * ct then -u
  else 0

def clampQp (q : Int) (lo hi : Nat) : Nat := (max (lo : Int) (min q (hi : Int))).toNat

/-- What coding a picture's rows has come to: budget left, QP, sums spent and targeted, exhausted; QPs and exhaustion of
the rows, last row first. -/
structure RowRun where
  rem : Int
  qp : Nat
  ca : Nat := 0
  ct : Nat := 0
  exhausted : Bool := false
  qps : List Nat := []
  outs : List Bool := []

def sumFrom (l : List Nat) (r : Nat) : Nat := (l.drop r).foldl (· + ·) 0

/-- One row: `a` bits spent. `cut`: it is coded exhausted whatever is left. -/
def codeRow (w f : List Nat) (lo hi : Nat) (u : Int) (r a : Nat) (cut : Bool) (x : RowRun) : RowRun :=
  if x.exhausted || cut then
    { x with rem := x.rem - a, exhausted := true, qps := hi :: x.qps, outs := true :: x.outs }
  else
    let qp := if r = 0 then x.qp else clampQp (x.qp + qpStep x.ca x.ct u) lo hi
    let spare := (max 0 (x.rem - sumFrom f r)).toNat
    let t := spare * w.getD r 0 / max 1 (sumFrom w r) + f.getD r 0
    let rem := x.rem - a
    { rem := rem, qp := qp, ca := x.ca + a, ct := x.ct + t, exhausted := decide (rem ≤ (sumFrom f (r + 1) : Int)),
      qps := qp :: x.qps, outs := false :: x.outs }

/-- The rows of a picture, from row `r`. -/
def codeRows (w f : List Nat) (lo hi : Nat) (u : Int) (cutAt : Nat) : Nat → List Nat → RowRun → RowRun
  | _, [], x => x
  | r, a :: t, x => codeRows w f lo hi u cutAt (r + 1) t (codeRow w f lo hi u r a (decide (cutAt ≤ r)) x)

/-- Mean QP of a picture. -/
def meanQpOf (qps : List Nat) : Nat :=
  match qps with
  | [] => 0
  | q :: t => if t.all (· == q) then q else Config.meanQp qps

/-! ## Encoded output (R332, R340, R341) -/

/-- Words of the host ring: WP and RP. -/
def ringAt (s : State) (base : Nat) : Nat := leVal (memRead s base 8)

/-- A record is written to the ring of an encode context, or dropped. -/
def ringWrite (e : Nat) (hdr : Nat → Bytes) (stream : Bytes) (s : State) : State :=
  let base := rd s (K.HOST_RING_BASE e)
  let size := rd s (K.HOST_RING_SIZE e)
  let fix (v : Nat) : Nat := if v < 64 ∨ size ≤ v then 64 else v
  let wp := fix (ringAt s base)
  let rp := fix (ringAt s (base + 8))
  let n := 32 + ceilDiv stream.length 32 * 32
  let pad := if size < wp + n then size - wp else 0
  let used := (wp + (size - 64) - rp) % (size - 64)
  if size - 64 ≤ used + pad + n then bump (K.HOST_DROPS e) (encUpd e (fun x => { x with gap := true }) s)
  else
    let rec_ := slice (hdr (b2n (encOf s e).gap) ++ stream) 0 n
    let s := if pad = 0 then s
      else memWrite (base + wp) (leBytes 8 0 ++ leBytes 4 0xFFFFFFFF ++ List.replicate 20 0) s
    let at_ := if pad = 0 then wp else 64
    let next := if at_ + n = size then 64 else at_ + n
    let s := memWrite base (leBytes 8 next) (memWrite (base + at_) rec_ s)
    let s := encUpd e (fun x => { x with gap := false }) s
    (dmaPacedBy s 1 e).foldl (fun s n => dmaRequest n s) s

/-- The packets of a picture enter the fan-out of its output's stream. -/
def sendPackets (o : Nat) (at_ : Instant) (complete : Bool) (packets : List Bytes) (s : State) : State :=
  let n := packets.length
  ((List.range n).foldl (fun s k =>
    let payload := packets.getD k []
    let len := max 60 (14 + 20 + 8 + 12 + payload.length)
    let r := addPacket { content := .picture at_ (k + 1 == n) (k == 0) complete payload, len := len, cls := 1, arrival := s.isb.now }
      false s
    let i := cmpSource + o
    let f : FanOut := { pkt := r.1, source := i, start := k == 0, newUnit := k == 0, switchPoint := complete && k == 0,
                        marker := k + 1 == n, slots := slotsOn r.2 i }
    let s := srcLog i (8 * counted 1 len false) [0] (settle [] r.2)
    { s with fwd.fan := s.fwd.fan ++ [f] }) s)

/-- An encode context's codec is AV1; its refresh units and rows; B_nom. -/
def encAv1 (s : State) (e : Nat) : Bool := rd s (K.ENC_CODEC e) == 1
def encUnits (s : State) (e : Nat) : Nat := ceilDiv (rd s (K.OUT_WIDTH (encOut s e))) (unitSide (encAv1 s e))
def encRows (s : State) (e : Nat) : Nat := ceilDiv (rd s (K.OUT_HEIGHT (encOut s e))) (unitSide (encAv1 s e))
def encBnom (s : State) (e : Nat) : Nat := rd s (K.BITRATE e) * rd s (K.RATE_DEN (encOut s e)) / rd s (K.RATE_NUM (encOut s e))

/-- The next picture of a context is its start picture, a minimal one, the last of its sweep. -/
def encStarting (s : State) (e : Nat) : Bool := rd s (K.ENC_STATE e) == 1
def encMinimal (s : State) (e : Nat) : Bool := !encStarting s e && decide (encBnom s e < (encOf s e).debt)
def encLast (s : State) (e : Nat) : Bool := encStarting s e || decide ((encOf s e).len ≤ (encOf s e).pos + 1)

/-- The limits of a context's next picture: its refresh column, before which its reference is clean (R331). -/
def encLimits (s : State) (e : Nat) : PicLimits :=
  let u := unitSide (encAv1 s e)
  let col := columnOf (encOf s e) (encUnits s e) (encOf s e).pos
  { av1 := encAv1 s e, width := rd s (K.OUT_WIDTH (encOut s e)), height := rd s (K.OUT_HEIGHT (encOut s e)), c0 := col.1 * u,
    c1 := col.2 * u, starting := encStarting s e, minimal := encMinimal s e }

/-- R335: the picture conforms to the codec and to R329–R334. -/
def pictureOk (s : State) (e : Nat) (rows : List EncRow) (units : List Bytes) : Bool :=
  blocksOk (encLimits s e) rows
    && (if encAv1 s e then av1Ok (encStarting s e) (encLast s e) units
        else h264Ok (encStarting s e) (encLast s e) (rd s (K.REFRESH_PERIOD e)) (encRows s e) units)

/-- The picture at the head of an encode context is coded: its rows, rows coded before it was cut, its NAL units or OBUs. -/
def encodeDone (e : Nat) (p : EncPic) (coded : List EncRow) (cutAt : Nat) (nals : List Bytes) (s : State) : State :=
  let x := encOf s e
  let o := encOut s e
  let av1 := encAv1 s e
  let units := encUnits s e
  let nrows := encRows s e
  let rows := (List.range nrows).map (fun r => let y := coded.getD r {}; (y.bits, y.refresh))
  let packets := pictureRtp av1 (encStarting s e) (rd s (K.PAYLOAD_MAX e)) nals
  let stream := pictureStream av1 nals
  let bnom := encBnom s e
  let spent := rows.foldl (fun n r => n + r.1) 0
  let u : Int := if av1 then 4 else 1
  let lo := qpMin s e
  let hi := qpMax s e
  let starting := encStarting s e
  let minimal := encMinimal s e
  let col := columnOf x units x.pos
  let width := col.2 - col.1
  let f := (List.range nrows).map (fun r => if x.refreshWidth = 0 then 0 else x.refreshBits.getD r 0 * width / x.refreshWidth)
  let qp0 := clampQp x.qpStart lo hi
  let run := codeRows x.weights f lo hi u (if p.late || p.cut then cutAt else nrows) 0 (rows.map (·.1))
    { rem := (bnom : Int) - x.debt, qp := qp0 }
  let debt := if starting then x.debt + spent - bnom else if minimal then x.debt + spent - bnom else (-run.rem).toNat
  let qps := if starting ∨ minimal then List.replicate nrows hi else run.qps.reverse
  let exhausted := !starting && !minimal && run.exhausted && run.outs.any id
  let outs := run.outs.reverse
  let weights := if starting then List.replicate nrows units
    else if minimal then x.weights
    else (List.range nrows).map (fun r =>
      if outs.getD r false then x.weights.getD r 64 else max 64 ((rows.getD r (0, 0)).1 - (rows.getD r (0, 0)).2))
  let last := encLast s e
  let period := rd s (K.REFRESH_PERIOD e)
  let pos := if last then 0 else x.pos + 1
  let len := if last then period else x.len
  let s := { s with vid.strip := stripAt ((rd s (K.OUT_HEIGHT o) - 1) / 64) ((rd s (K.OUT_WIDTH o) - 1) / 64) }
  let s := encUpd e (fun x => { x with
    pics := x.pics.drop 1, debt := debt, weights := weights,
    refreshBits := if !starting && decide (0 < width) then rows.map (·.2) else x.refreshBits,
    refreshWidth := if !starting && decide (0 < width) then width else x.refreshWidth,
    qpStart := if starting then qpInit s e else if minimal then x.qpStart else clampQp (qp0 + qpStep run.ca run.ct u) lo hi,
    pos := pos, len := len, from_ := if last then 0 else x.from_, base := if last then 0 else x.base }) s
  let mean := meanQpOf qps
  let s := wr (K.SWEEP_POS e) (pos + 65536 * len) (wr (K.LAST_QP e) mean (wr (K.DEBT e) debt (bump (K.ENC_PICTURES e) s)))
  let s := upd exhausted (bump (K.EXHAUSTED_PICS e)) (upd minimal (bump (K.MINIMAL_PICS e))
    (upd last (bump (K.REFRESH_COMPLETES e)) (upd starting (wr (K.ENC_STATE e) vsRunning) s)))
  let s := if rd s (K.ENC_DEST e) = 0 then sendPackets o p.at_ last packets s
    else ringWrite e (fun gap => leBytes 8 (p.at_ / ns1) ++ leBytes 4 stream.length
      ++ leBytes 1 (b2n starting + 2 * b2n last + 4 * b2n exhausted + 8 * b2n minimal + 16 * b2n p.late + 32 * gap)
      ++ leBytes 1 mean ++ leBytes 2 0 ++ leBytes 4 spent ++ leBytes 4 (bnom - x.debt) ++ leBytes 4 debt ++ leBytes 4 0) stream s
  vencSync s

/-- ENCODE_PICTURE_COMPLETE: the oldest picture of context `e`; a picture that does not conform is none VENC has coded. -/
def execEncodePictureComplete (e : Fin 256) (rows : List EncRow) (cutAt : Nat) (units : List Bytes) (s : State) : Res :=
  .next (match (encOf s e.val).pics with
    | [] => s
    | p :: _ => if rd s (K.ENC_STATE e.val) = vsSuspended ∨ rd s (K.ENC_EN e.val) = 0 ∨ pictureOk s e.val rows units = false then s
      else encodeDone e.val p rows cutAt units s)

/-! ## Faults and restarts (R342, R343) -/

/-- Contexts of a retired instance: they move to the other VDEC while their loads fit; the rest are SUSPENDED. -/
def suspendDec (c : Nat) (s : State) : State :=
  let s := decUpd c (fun x => { x with pics := [], arriving := none, waitSince := none }) s
  wr (K.DEC_STATE c) vsSuspended s
def suspendEnc (e : Nat) (s : State) : State := wr (K.ENC_STATE e) vsSuspended (encUpd e (fun x => { x with pics := [] }) s)

def clearTargets (c : Nat) (s : State) : State :=
  { s with vid.bufs := s.vid.bufs.map (fun b => if b.2.ctx = c then (b.1, { b.2 with target := false }) else b) }

def instRetired (j : Nat) (s : State) : State :=
  let s := wr (K.INST_STATE j) isRetiredI s
  if j = 2 then (encsOn s).foldl (fun s e => suspendEnc e s) s
  else
    let k := 1 - j
    vdecSync (((decsOn s).filter (fun c => rd s (K.DEC_ON c) == j)).foldl (fun s c =>
      let s := clearTargets c (headPic c (fun p => { p with target := none, started := none }) s)
      let load := rd s (K.DEC_LOAD c)
      if instUsable s k && decide (rd s (K.INST_LOAD k) + load ≤ vdecLimit) then
        wr (K.DEC_ON c) k (wr (K.INST_LOAD k) (rd s (K.INST_LOAD k) + load) (wr (K.INST_LOAD j) (rd s (K.INST_LOAD j) - load) s))
      else suspendDec c s) s)

/-- The instance returns to service: its SUSPENDED contexts resume as after enable. -/
def instReturned (j : Nat) (s : State) : State :=
  let s := wr (K.INST_STATE j) isRun s
  if j = 2 then ((encsOn s).filter (fun e => rd s (K.ENC_STATE e) == vsSuspended && !(encOf s e).unreserved)).foldl
      (fun s e => encStart e s) s
  else ((decsOn s).filter (fun c => rd s (K.DEC_STATE c) == vsSuspended && rd s (K.DEC_ON c) == j
      && decide (0 < rd s (K.DEC_BUFS c)))).foldl (fun s c => decStart c j (dropBufs c s)) s

/-- An upset of an instance. -/
def instUpset (j : Nat) (s : State) : State :=
  let r := upset cCodec j (bump (K.INST_UPSETS j) s)
  if r.2 then instRetired j r.1 else r.1

/-- PICTURE_TIMEOUT: the picture an instance works on is unfinished 50 ms after it started. -/
def execPictureTimeout (j : Fin 3) (s : State) : Res :=
  let past (t : Option Instant) : Bool := match t with | some t => decide (t + 50 * ms1 ≤ clk s) | none => false
  .next (if j.val < 2 then
    (match vdecPick s j.val with
      | none => s
      | some c => match (decOf s c).pics with
        | q :: _ => if past q.started then popPic c (instUpset j.val s) else s
        | [] => s)
  else match vencPick s with
    | none => s
    | some e => match (encOf s e).pics with
      | p :: _ => if past p.started then
          vencSync (shortenSweep e (encHead e (fun p => { p with cut := true, started := none }) (instUpset 2 s)))
        else s
      | [] => s)

/-- R343: every enabled context restarts, after a warm reset, a re-interleave (`again`: each gets its reservation again
from the new pool, in ascending number, or is SUSPENDED) or a failover. -/
def vidRestart (again : Bool) (s : State) : State :=
  let decs := (decsOn s).filter (fun c => rd s (K.DEC_STATE c) != vsSuspended)
  let encs := (encsOn s).filter (fun e => rd s (K.ENC_STATE e) != vsSuspended)
  let s := decs.foldl (fun s c =>
    let keep := if again then none else (decOf s c).clean
    decUpd c (fun x => { x with clean := keep }) (dropBufs c (upd again (wr (K.DEC_BUFS c) 0) s))) s
  let s := if again then encs.foldl (fun s e => encUpd e (fun x => { x with unreserved := true }) s) s else s
  let s := decs.foldl (fun s c =>
    let codec := rd s (K.DEC_CODEC c)
    let n := decBufCount s c codec
    if again && decide (vpoolFree s < n * decBufSize s c codec) then suspendDec c s
    else
      let clean := (decOf s c).clean
      decRequest c (decUpd c (fun x => { x with clean := clean })
        (decStart c (rd s (K.DEC_ON c)) (wr (K.DEC_BUFS c) n s)))) s
  vdecSync (encs.foldl (fun s e =>
    if again && decide (vpoolFree s < encReserve s e) then suspendEnc e s else encStart e s) s)

end Sys2Proof.Machine
end

