-- ==== Sys2Proof/Machine/Comp.lean ====
section
/-! DEFINITION. Composition: outputs, layer tables and their swap, scaling, colour, blending, stale sources, region
signatures (chapter CMP). -/
namespace Sys2Proof.Machine

def cmpOut (s : State) (o : Nat) : CmpOut := tabGet {} s.cmp.outs o
def cmpUpd (o : Nat) (f : CmpOut → CmpOut) (s : State) : State := { s with cmp.outs := tabMod {} s.cmp.outs o f }

/-! ## Layer tables, coefficient tables, matrices: their contents (R354, R362, R363) -/

/-- A layer table at reset: BACKGROUND 2008_0040h, COUNT 0. -/
def emptyTable : Bytes := leBytes 4 0x20080040 ++ List.replicate 60 0

/-- A BLOB's value, its default where it has not been written. -/
def blobOr (s : State) (k : Nat) (d : Bytes) : Bytes := (tabGet none s.blobs k).getD d

def tableKey (o b : Nat) : Nat := if b = 0 then K.LAYER_TABLE0 o else K.LAYER_TABLE1 o
def layerTable (s : State) (o b : Nat) : Bytes := blobOr s (tableKey o b) emptyTable
def activeTable (s : State) (o : Nat) : Bytes := layerTable s o (rd s (K.ACTIVE_TABLE o))
def inactiveTable (s : State) (o : Nat) : Bytes := layerTable s o (1 - rd s (K.ACTIVE_TABLE o))

/-- Bilinear coefficients: two taps of `n`, from tap `at_`. -/
def bilinear (n at_ : Nat) : Bytes :=
  (List.range 64).flatMap (fun p => (List.range n).flatMap (fun k =>
    leBytes 2 (if k = at_ then 4096 - 64 * p else if k = at_ + 1 then 64 * p else 0)))
def defaultCoefs : Bytes := bilinear 8 3 ++ bilinear 6 2
def identityMatrix : Bytes :=
  (List.range 9).flatMap (fun i => leBytes 2 (if i % 4 = 0 then 4096 else 0)) ++ List.replicate 12 0
def coefTable (s : State) (t : Nat) : Bytes := blobOr s (K.COEF_TABLE t) defaultCoefs
def colourMatrix (s : State) (m : Nat) : Bytes := blobOr s (K.COLOUR_MATRIX (m - 1)) identityMatrix

/-- A signed 16-bit field. -/
def i16At (b : Bytes) (off : Nat) : Int := toInt 16 (leAt b off 2)

/-- R362: each phase's coefficients sum to 4,096. -/
def coefsOk (b : Bytes) : Bool :=
  let sum (off n : Nat) : Int := (List.range n).foldl (fun a k => a + i16At b (off + 2 * k)) 0
  b.length == 1792 && (List.range 64).all (fun p => sum (16 * p) 8 == 4096 && sum (1024 + 12 * p) 6 == 4096)

/-- Entry `k` of a table, and its fields (Table CMP-5). -/
def entryAt (t : Bytes) (k : Nat) : Bytes := slice t (64 + 64 * k) 64
def tableCount (t : Bytes) : Nat := leAt t 4 1
def leFlag (e : Bytes) (b : Nat) : Bool := bitOf (leAt e 0 1) b
def leKind (e : Bytes) : Nat := leAt e 1 1
def leSource (e : Bytes) : Nat := leAt e 6 2
def srcX (e : Bytes) : Nat := leAt e 8 2
def srcY (e : Bytes) : Nat := leAt e 10 2
def srcW (e : Bytes) : Nat := leAt e 12 2
def srcH (e : Bytes) : Nat := leAt e 14 2
def dstX (e : Bytes) : Int := i16At e 16
def dstY (e : Bytes) : Int := i16At e 18
def dstW (e : Bytes) : Nat := leAt e 20 2
def dstH (e : Bytes) : Nat := leAt e 22 2

abbrev kVideo : Nat := 0
abbrev kOverlay : Nat := 1
abbrev kFill : Nat := 2

/-- Declared size of an enabled layer's source. -/
def declared (s : State) (e : Bytes) : Nat × Nat :=
  let i := leSource e
  if leKind e = kVideo then (rd s (K.MAX_WIDTH i), rd s (K.MAX_HEIGHT i))
  else (rd s (K.OVL_SIZE i) % 65536, rd s (K.OVL_SIZE i) / 65536)

/-- The declared crop: W and H. -/
def declaredCrop (s : State) (e : Bytes) : Nat × Nat :=
  let d := declared s e
  (if srcW e = 0 then d.1 else srcW e, if srcH e = 0 then d.2 else srcH e)

/-! ## Loads (R352) -/

/-- T of a layer. -/
def layerTerm (s : State) (e : Bytes) : Nat :=
  let c := declaredCrop s e
  if leKind e = kFill then dstW e * dstH e else max (dstW e * dstH e) (c.1 * c.2)

def tableEntries (t : Bytes) : List Bytes := (List.range (tableCount t)).map (entryAt t)
def enabledEntries (t : Bytes) : List Bytes := (tableEntries t).filter (fun e => leFlag e 0)

/-- Load of an output with a table. -/
def outLoad (s : State) (o : Nat) (t : Bytes) : Nat :=
  let px := rd s (K.OUT_WIDTH o) * rd s (K.OUT_HEIGHT o) + (enabledEntries t).foldl (fun n e => n + layerTerm s e) 0
  ceilDiv (rd s (K.RATE_NUM o) * px) (rd s (K.RATE_DEN o))

abbrev compLimit : Nat := 2400000000

/-! ## Checks of a table (R356) -/

/-- A scale ratio outside 1/4 to 16. -/
def badRatio (dst src : Nat) : Bool := decide (4 * dst < src) || decide (16 * src < dst)

def zeros (b : Bytes) : Bool := b.all (· == 0)

/-- An entry that fails the checks. -/
def badEntry (s : State) (e : Bytes) : Bool :=
  let kind := leKind e
  let c := declaredCrop s e
  let empty := kind == kOverlay && rd s (K.OVL_BASE (leSource e)) == 0
  decide (16 ≤ leAt e 0 1) || decide (2 < kind) || decide (8 ≤ leAt e 3 1) || decide (8 < leAt e 4 1) || decide (2 < leAt e 5 1)
    || (leFlag e 1 && kind != kOverlay) || (leFlag e 2 && kind != kVideo)
    || (kind == kVideo && decide (1023 < leSource e)) || (kind == kOverlay && decide (255 < leSource e))
    || decide (dstW e < 1) || decide (8192 < dstW e) || decide (dstH e < 1) || decide (8192 < dstH e)
    || decide (1073741824 ≤ leAt e 24 4) || decide (leAt e 28 2 < 1) || decide (10000 < leAt e 28 2)
    || !zeros (e.drop 30)
    || (leFlag e 0 && (
      (kind == kVideo && (srcX e % 2 == 1 || srcY e % 2 == 1 || srcW e % 2 == 1 || srcH e % 2 == 1))
      || (leFlag e 1 && leAt e 4 1 != 0)
      || (kind != kFill && !(empty && srcW e == 0) && badRatio (dstW e) c.1)
      || (kind != kFill && !(empty && srcH e == 0) && badRatio (dstH e) c.2)))

def badTable (s : State) (t : Bytes) : Bool :=
  decide (72 < tableCount t) || decide (1073741824 ≤ leAt t 0 4) || !zeros ((t.take 64).drop 5)
    || (tableEntries t).any (badEntry s)

/-- The checks of an output's table, beside the loads of the others. -/
def tableStatus (s : State) (o : Nat) (t : Bytes) : Status :=
  let others := rd s K.COMP_LOAD - (if rd s (K.OUT_EN o) = 1 then rd s (K.OUT_LOAD o) else 0)
  if badTable s t then .range
  else if rd s (K.OUT_EN o) = 1 ∧ compLimit < others + outLoad s o t then .busy else .ok

/-! ## Boundaries (R351) -/

/-- Picture boundary t_k of an output, in ns, and the period a count of ns lies in. -/
def boundaryK (s : State) (o k : Nat) : Nat := rd s (K.PHASE o) + ceilDiv (k * 1000000000 * rd s (K.RATE_DEN o)) (rd s (K.RATE_NUM o))
def periodOf (s : State) (o ns : Nat) : Nat := (ns - rd s (K.PHASE o)) * rd s (K.RATE_NUM o) / (1000000000 * rd s (K.RATE_DEN o))

/-- The first boundary at or after an instant in ns, among the next two periods. -/
def boundaryAfter (s : State) (o ns : Nat) : Nat :=
  let k := periodOf s o ns
  if ns ≤ boundaryK s o k then boundaryK s o k else boundaryK s o (k + 1)

/-- The picture boundary an output has reached with the last tick, in ns. -/
def boundaryHere (s : State) (o : Nat) : Option Nat :=
  let k := periodOf s o (nowNs s)
  let b := if boundaryK s o k ≤ nowNs s then boundaryK s o k else boundaryK s o (k - 1)
  if justNow s (b * ns1) then some b else none

/-! ## Layer swaps (R355, R356) -/

/-- A LAYER_SWAP for the output is armed or committed; is committed. -/
def swapActive (s : State) (o : Nat) : Bool :=
  s.isb.launches.any (fun e => e.2.active && e.2.typ == ltLayerSwap && e.2.target == o)
def layerSwapCommitted (s : State) (o : Nat) : Bool :=
  s.isb.launches.any (fun e => e.2.state == lsCommitted && e.2.typ == ltLayerSwap && e.2.target == o)

/-- LAUNCH_COMMIT: from TIME minus the commit lead the slot is COMMITTED (R53); the table of a LAYER_SWAP is checked. -/
def execLaunchCommit (num : Nat) (s : State) : Res :=
  let l := launchOf s num
  .next (if l.state = lsArmed ∧ l.time * ns1 ≤ s.isb.now + commitLead l.typ then
    (match (if l.typ = ltLayerSwap then tableStatus s l.target (inactiveTable s l.target) else .ok) with
    | .ok => launchUpd num (fun l => { l with state := lsCommitted }) s
    | st => launchFailed num st s)
  else s)

/-- The other table becomes active. -/
def swapTable (o : Nat) (s : State) : State :=
  let s := wr (K.ACTIVE_TABLE o) (1 - rd s (K.ACTIVE_TABLE o)) s
  if rd s (K.OUT_EN o) = 1 then
    let load := outLoad s o (activeTable s o)
    wr K.COMP_LOAD (rd s K.COMP_LOAD - rd s (K.OUT_LOAD o) + load) (wr (K.OUT_LOAD o) load s)
  else s

/-- The boundary, in ns, at which a LAYER_SWAP takes effect. -/
def swapBoundary (s : State) (l : Launch) : Nat := boundaryAfter s l.target (ceilDiv (max l.instant l.from_) ns1)

/-- Of the LAYER_SWAP launches whose output has a boundary now, at or after their instants, the one that applies first (R54). -/
def dueSwap (s : State) : Option (Nat × Launch) :=
  (s.isb.launches.filter (fun e => e.2.active && e.2.typ == ltLayerSwap
    && (boundaryHere s e.2.target).any (fun b => decide (swapBoundary s e.2 ≤ b)))).foldl
      (fun (b : Option (Nat × Launch)) e => match b with
        | none => some e
        | some m => if launchOrder s e.1 < launchOrder s m.1 then some e else some m) none

/-- LAYER_SWAP: LATE where its instant had passed, or its boundary is over. -/
def execLayerSwap (s : State) : Res :=
  .next (match dueSwap s with
    | none => s
    | some (n, l) =>
      if domainFailed s 17 then launchFailed n .retired s
      else if !domainRuns s 17 then s
      else launchDone n (l.late || (boundaryHere s l.target).any (fun b => decide (swapBoundary s l < b))) (swapTable l.target s))

/-- LAYER_COPY: key E000h + o:0C. -/
def writeLayerCopy (inst : Inst) (tag : Nat) (o : Fin 64) (s : State) : State :=
  runCmd inst tag (0xE000 + o.val) 0x0C (if swapActive s o.val then .busy else .ok)
    (fun s => wrBlob (tableKey o.val (1 - rd s (K.ACTIVE_TABLE o.val))) (activeTable s o.val) s) s

/-- A vector 20 signal (R370). -/
def cmpIrq (b : Nat) (s : State) : State := emitIf (bitOf s.cmp.irqEn b) (.msix 20) s

/-- A BAR2 write of a layer table: 4 octets, or 8 (Table CMP-6). -/
def layerTablePut (off value : Nat) (wide : Bool) (s : State) : State :=
  let n := if wide then 8 else 4
  let a := off - 0x1000000
  let o := a / 0x4000
  let b := a / 0x2000 % 2
  let at_ := a % 0x2000
  if off < 0x1000000 ∨ 0x1100000 ≤ off then s
  else if off % n ≠ 0 then badAccess 2 off s
  else if b = rd s (K.ACTIVE_TABLE o) ∨ layerSwapCommitted s o = true then
    cmpIrq 1 (bump (K.LT_WRITES_REFUSED o) { s with cmp.status := withBit s.cmp.status 0 true })
  else if 4672 ≤ at_ then s
  else wrBlob (tableKey o b) (patch (slice (layerTable s o b) 0 4672) at_ (leBytes n value)) s

/-- LAYER_TABLE_BAR2_WRITE. -/
def execLayerTableBar2Write (off value : Nat) (wide : Bool) (s : State) : Res := .next (layerTablePut off value wide s)

/-! ## Enabling an output (R352) -/

def outEnStatus (o : Nat) (on : Bool) (s : State) : Status :=
  if rd s (K.OUT_EN o) == b2n on then .ok
  else if !on then (if (encsOn s).any (fun e => encOut s e == o) then .busy else .ok)
  else
    let num := rd s (K.RATE_NUM o)
    let den := rd s (K.RATE_DEN o)
    if num < den ∨ 120 * den < num ∨ 1000000000 * den ≤ rd s (K.PHASE o) * num ∨ badTable s (activeTable s o) = true then .range
    else if compLimit < rd s K.COMP_LOAD + outLoad s o (activeTable s o) ∨ vpoolFree s < outReserve s o then .busy
    else .ok

/-- READ marks are released. -/
def releaseReads (l : List Nat) (s : State) : State :=
  vdecSync (l.foldl (fun s b => bufUpd b (fun x => { x with read := x.read - 1 }) s) s)

/-- A picture has written its last row, or is never begun: its READ marks and old overlay buffers are given up. -/
def picOver (o : Nat) (p : PicLatch) (s : State) : State :=
  let s := releaseReads p.reads s
  p.slots.foldl (fun s v =>
    let old := (tabGet [] s.cmp.oldReaders v).filter (fun x => x != (o, p.at_))
    if (tabGet [] s.cmp.oldReaders v).isEmpty then s
    else wr (K.OVL_PREV_FREE v) (b2n old.isEmpty) { s with cmp.oldReaders := tabSet [] s.cmp.oldReaders v old }) s

def outEn (o : Nat) (on : Bool) (s : State) : State :=
  if rd s (K.OUT_EN o) = b2n on then s
  else if on then
    let load := outLoad s o (activeTable s o)
    wr (K.OUT_STATE o) 1 (wr (K.OUT_EN o) 1 (wr (K.OUT_LOAD o) load (wr K.COMP_LOAD (rd s K.COMP_LOAD + load)
      (wr K.OUTPUTS_EN (rd s K.OUTPUTS_EN + 1) s))))
  else
    let x := cmpOut s o
    let s := (x.waiting.toList ++ x.composing.toList).foldl (fun s p => picOver o p s) s
    let s := { s with cmp.outs := tabErase s.cmp.outs o, cmp.current := if s.cmp.current = some o then none else s.cmp.current }
    wr (K.OUT_STATE o) 0 (wr (K.OUT_EN o) 0 (wr K.COMP_LOAD (rd s K.COMP_LOAD - rd s (K.OUT_LOAD o)) (wr (K.OUT_LOAD o) 0
      (wr K.OUTPUTS_EN (rd s K.OUTPUTS_EN - 1) s))))

/-- OUT_EN: key E000h + o:01. -/
def writeOutEn (inst : Inst) (tag : Nat) (o : Fin 64) (on : Bool) (s : State) : State :=
  runEnable inst tag (0xE000 + o.val) 1 (worst (mediaStatus on s) (outEnStatus o.val on s)) 17 on (outEn o.val on) s

/-! ## Overlays (R358) -/

/-- Pictures that have begun and read an overlay slot. -/
def slotReaders (s : State) (v : Nat) : List (Nat × Instant) :=
  s.cmp.outs.flatMap (fun e => ((e.2.waiting.toList ++ e.2.composing.toList).filter (fun p => p.slots.contains v)).map
    (fun p => (e.1, p.at_)))
def ovlBase (v base : Nat) (s : State) : State :=
  let old := slotReaders s v
  wr (K.OVL_PREV_FREE v) (b2n old.isEmpty) (wr (K.OVL_BASE v) base { s with cmp.oldReaders := tabSet [] s.cmp.oldReaders v old })

/-- OVL_BASE: key E800h + v:01. -/
def writeOvlBase (inst : Inst) (tag : Nat) (v : Fin 256) (base : Nat) (s : State) : State :=
  runWriteV inst tag (K.OVL_BASE v.val) (leBytes 8 base) (if base % 64 = 0 ∧ base < 18446744073709551616 then .ok else .range)
    (ovlBase v.val base) s

/-! ## What a picture latches (R357, R359, R367) -/

/-- A crop clipped to a source of size `w` × `h`: x, y, w, h. -/
def clipCrop (e : Bytes) (w h : Nat) : List Nat :=
  let cw := if srcW e = 0 then w else srcW e
  let ch := if srcH e = 0 then h else srcH e
  [srcX e, srcY e, min (srcX e + cw) w - srcX e, min (srcY e + ch) h - srcY e]

def badCrop (e : Bytes) (c : List Nat) : Bool :=
  c.getD 2 0 == 0 || c.getD 3 0 == 0 || badRatio (dstW e) (c.getD 2 0) || badRatio (dstH e) (c.getD 3 0)

def ovlLatch (s : State) (v : Nat) : OvlLatch :=
  { base := rd s (K.OVL_BASE v), width := rd s (K.OVL_SIZE v) % 65536, height := rd s (K.OVL_SIZE v) / 65536,
    stride := rd s (K.OVL_STRIDE v) }

/-- What an enabled layer shows at boundary `ns` if it is not stale, and the buffer it takes a READ mark on. -/
def layerNow (s : State) (ns : Nat) (e : Bytes) : Option LayerShow × Option Nat :=
  if leKind e = kFill then (some (.fill (leAt e 24 4)), none)
  else if leKind e = kOverlay then
    let o := ovlLatch s (leSource e)
    let crop := clipCrop e o.width o.height
    (if o.base = 0 ∨ badCrop e crop = true then none else some (.overlay o crop), none)
  else
    match outBuf s (leSource e) with
    | none => (none, none)
    | some (b, x) =>
      let crop := clipCrop e (surfW x.surface) (surfH x.surface)
      let old := decide (surfTime x.surface + leAt e 28 2 * 1000000 < ns)
      let stale := rd s (K.DEC_STATE (leSource e)) != vsRunning || old || (leFlag e 3 && bitOf (surfFlags x.surface) 0)
        || badCrop e crop
      (if stale then none else some (.video x.surface crop), some b)

/-- The layers of a picture: what is drawn, READ marks, overlay slots, STALE_LAYERS, what each has last shown. -/
structure LayerScan where
  layers : List LayerLatch := []
  reads : List Nat := []
  slots : List Nat := []
  stale : Nat := 0
  held : Tab (Option LayerShow)

def scanLayer (s : State) (ns b : Nat) (t : Bytes) (x : LayerScan) (k : Nat) : LayerScan :=
  let e := entryAt t k
  if !leFlag e 0 then x else
  let r := layerNow s ns e
  let x := { x with reads := x.reads ++ r.2.toList, slots := if leKind e = kOverlay then x.slots ++ [leSource e] else x.slots }
  match r.1 with
  | some v => { x with layers := x.layers ++ [{ entry := e, shows := v }], held := tabSet none x.held (b * 128 + k) (some v) }
  | none =>
    let x := { x with stale := x.stale + 2 ^ k }
    let action := leAt e 5 1
    if action = 1 then { x with layers := x.layers ++ [{ entry := e, shows := .fill (leAt e 24 4) }] }
    else if action = 2 then x
    else match tabGet none x.held (b * 128 + k) with
      | some v => { x with layers := x.layers ++ [{ entry := e, shows := v }] }
      | none => x

def sigLatch (s : State) (o r : Nat) : SigLatch :=
  let i := 16 * o + r
  let fb := rd s (K.SIG_FALLBACK i)
  { mode := rd s (K.SIG_MODE i), rect := rd s (K.SIG_RECT i), expect := rd s (K.SIG_EXPECT i),
    freezeN := rd s (K.SIG_FREEZE_N i), clearN := rd s (K.SIG_CLEAR_N i),
    fallback := if rd s (K.SIG_STATE i) = 2 ∧ rd s (K.SIG_ACTION i) = 1 then some fb else none,
    ovl := if bitOf fb 31 then ovlLatch s (fb % 256) else {} }

/-- Deadline of a picture: its boundary plus 0.4 of the period. -/
def cmpDeadline (s : State) (o : Nat) (p : PicLatch) : Instant := p.at_ + s1 * rd s (K.RATE_DEN o) * 2 / (5 * rd s (K.RATE_NUM o))

/-- COMP_STATE: 0 RUN, 1 LULL, 2 FAILED. The compositor takes up the waiting picture with the earliest deadline. -/
def cmpSync (s : State) : State :=
  if s.cmp.current.isSome ∨ domainFailed s 17 = true then s else
  let cands := s.cmp.outs.filterMap (fun e => e.2.waiting.map (fun p => (e.1, p)))
  match cands.foldl (fun (b : Option (Nat × PicLatch)) e => match b with
      | none => some e
      | some m => if cmpDeadline s e.1 e.2 < cmpDeadline s m.1 m.2 then some e else some m) none with
  | none => s
  | some (o, p) =>
    let s := if rd s K.COMP_STATE = 1 then leaveLull 17 (wr K.COMP_STATE 0 s) else s
    cmpUpd o (fun x => { x with waiting := none, composing := some p }) { s with cmp.current := some o }

/-- A picture still waiting at its output's next boundary is late. -/
def picOverdue (o : Nat) (s : State) : State :=
  match (cmpOut s o).waiting with
  | some p => bump (K.OUT_LATE o) (picOver o p (cmpUpd o (fun x => { x with waiting := none }) s))
  | none => s

/-- What an output latches at a boundary, from the scan of its active table. -/
def picLatch (o ns : Nat) (x : LayerScan) (s : State) : PicLatch :=
  let sigs := (List.range 16).map (sigLatch s o)
  let fallbacks := sigs.filterMap (fun g => (g.fallback.filter (fun v => bitOf v 31)).map (fun v => v % 256))
  { at_ := ns * ns1, background := leAt (activeTable s o) 0 4, layers := x.layers, reads := x.reads,
    coefs := (List.range 8).map (coefTable s), matrices := (List.range 8).map (fun m => colourMatrix s (m + 1)),
    sigs := sigs, slots := x.slots ++ fallbacks }

/-- The boundary at `ns`: the output latches its picture, which waits for the compositor; encoders take theirs. -/
def outBoundary (o ns : Nat) (s : State) : State :=
  let t := activeTable s o
  let x := (List.range (tableCount t)).foldl (scanLayer s ns (rd s (K.ACTIVE_TABLE o)) t) { held := (cmpOut s o).held }
  let p := picLatch o ns x s
  let s := x.reads.foldl (fun s i => bufUpd i (fun y => { y with read := y.read + 1 }) s) s
  let s := wrBlob (K.STALE_LAYERS o) (leBytes 9 x.stale) s
  encBoundary o (ns * ns1) (cmpSync (cmpUpd o (fun y => { y with waiting := some p, held := x.held }) s))

/-- OUTPUT_PICTURE_BOUNDARY: nothing at an instant that is none, or while the output is off. -/
def execOutputPictureBoundary (o : Fin 64) (s : State) : Res :=
  if rd s (K.OUT_EN o.val) = 0 ∨ modeOf s = mSafe then .next s else
  match boundaryHere s o.val with
  | none => .next s
  | some ns => .next (outBoundary o.val ns (picOverdue o.val s))

/-! ## Scaling (R359–R362) -/

/-- First tap position and phase of destination position `i`, for a crop of `c` from `at_` onto `d`. -/
def tapOf (at_ c d : Nat) (off : Int) (i : Nat) : Int × Nat :=
  let step := c * 65536 / d
  let p : Int := (at_ * 65536 + i * step + step / 2 : Nat) - off
  let phi := ((p % 65536 + 512) / 1024).toNat
  if phi = 64 then (p / 65536 + 1, 0) else (p / 65536, phi)

/-- The nearest position inside a crop. -/
def inside (at_ c : Nat) (p : Int) : Nat := (max (at_ : Int) (min p ((at_ + c : Nat) - 1))).toNat

def clampTo (hi : Int) (v : Int) : Int := max 0 (min v hi)

/-- One filter pass: `n` taps from coefficient offset `off`. -/
def filterPass (coefs : Bytes) (off n : Nat) (hi : Int) (tap : Int × Nat) (f : Int → Int) : Int :=
  clampTo hi (((List.range n).foldl (fun a k => a + i16At coefs (off + 2 * (n * tap.2 + k)) * f (tap.1 - (n / 2 - 1 : Nat) + k)) 0
    + 2048) / 4096)

/-- A scaled sample at destination (i, j) of a crop [x, y, w, h] of a plane. -/
def scaled (coefs : Bytes) (crop : List Nat) (dw dh : Nat) (offX offY hi : Int) (plane : Nat → Nat → Int) (i j : Nat) : Int :=
  let x := crop.getD 0 0
  let y := crop.getD 1 0
  let w := crop.getD 2 0
  let h := crop.getD 3 0
  let row (r : Int) : Int := filterPass coefs 0 8 hi (tapOf x w dw offX i) (fun c => plane (inside x w c) (inside y h r))
  filterPass coefs 1024 6 hi (tapOf y h dh offY j) row

/-- Crop of the chroma planes. -/
def halfCrop (c : List Nat) : List Nat := c.map (· / 2)

/-- A pixel of an overlay in DRAM: Y, Cb, Cr, alpha. -/
def ovlPixel (s : State) (o : OvlLatch) (x y : Nat) : List Nat := (memRead s (o.base + o.stride * y + 4 * x) 4).map (·.toNat)

/-- What a layer gives at its destination (i, j): Y, Cb, Cr in 10 bits, and alpha pa. -/
def layerPixel (s : State) (p : PicLatch) (l : LayerLatch) (i j : Nat) : List Int × Int :=
  let e := l.entry
  let coefs := p.coefs.getD (leAt e 3 1) []
  match l.shows with
  | .fill c => ([(c % 1024 : Nat), (c / 1024 % 1024 : Nat), (c / 1048576 % 1024 : Nat)], 255)
  | .video f crop =>
    let up (v : Nat) : Int := if surfDepth f = 8 then 4 * v else v
    let offC : Int := if leFlag e 2 then 32768 else 16384
    let luma := scaled coefs crop (dstW e) (dstH e) 32768 32768 1023 (fun x y => up (surfSample f 0 x y)) i j
    let chroma (k : Nat) : Int :=
      scaled coefs (halfCrop crop) (dstW e) (dstH e) offC 32768 1023 (fun x y => up (surfSample f k x y)) i j
    ([luma, chroma 1, chroma 2], 255)
  | .overlay o crop =>
    let plane (k : Nat) (m hi : Int) : Int :=
      scaled coefs crop (dstW e) (dstH e) 32768 32768 hi (fun x y => m * (ovlPixel s o x y).getD k 0) i j
    ([plane 0 4 1023, plane 1 4 1023, plane 2 4 1023], plane 3 1 255)

/-- R363: a colour matrix. -/
def applyMatrix (m : Bytes) (v : List Int) : List Int :=
  (List.range 3).map (fun i => clampTo 1023 (((List.range 3).foldl (fun a j =>
    a + i16At m (2 * (3 * i + j)) * (v.getD j 0 - i16At m (18 + 2 * j))) 0 + 2048) / 4096 + i16At m (24 + 2 * i)))

/-! ## Blending (R365, R366) -/

/-- ⌊(v + 127) ÷ 255⌋, toward −∞. -/
def div255 (v : Int) : Int := (v + 127) / 255

/-- Combined alpha. -/
def alphaOf (pa la : Int) : Int := div255 (pa * la)

def straight (s d a : Int) : Int := div255 (s * a + d * (255 - a))

def premultY (s d la a : Int) : Int := min 1023 (div255 (s * la) + div255 (d * (255 - a)))
def premultC (s d la a : Int) : Int :=
  512 + max (-512) (min (div255 ((s - 512) * la) + div255 ((d - 512) * (255 - a))) 511)

/-- One layer over a pixel at (x, y) of the output. -/
def blendLayer (s : State) (p : PicLatch) (x y : Nat) (d : List Int) (l : LayerLatch) : List Int :=
  let e := l.entry
  let i := (x : Int) - dstX e
  let j := (y : Int) - dstY e
  if i < 0 ∨ j < 0 ∨ (dstW e : Int) ≤ i ∨ (dstH e : Int) ≤ j then d
  else
    let v := layerPixel s p l i.toNat j.toNat
    let isFill := match l.shows with | .fill _ => true | _ => false
    let m := leAt e 4 1
    let c := if m = 0 ∨ isFill = true then v.1 else applyMatrix (p.matrices.getD (m - 1) []) v.1
    let la : Int := leAt e 2 1
    let a := alphaOf v.2 la
    (List.range 3).map (fun k =>
      if leFlag e 1 && !isFill then
        (if k = 0 then premultY (c.getD k 0) (d.getD k 0) la a else premultC (c.getD k 0) (d.getD k 0) la a)
      else straight (c.getD k 0) (d.getD k 0) a)

/-- Y, Cb, Cr of a colour word. -/
def colourOf (c : Nat) : List Int := [(c % 1024 : Nat), (c / 1024 % 1024 : Nat), (c / 1048576 % 1024 : Nat)]

/-- A blended pixel. -/
def blended (s : State) (p : PicLatch) (x y : Nat) : List Int := p.layers.foldl (blendLayer s p x y) (colourOf p.background)

/-! ## Region signatures (R368, R369) -/

def rectOf (v : Nat) : Nat × Nat × Nat × Nat := (v % 65536, v / 65536 % 65536, v / 4294967296 % 65536, v / 281474976710656)

/-- The octets a region's CRC covers. -/
def regionBytes (s : State) (p : PicLatch) (rect : Nat) : Bytes :=
  let r := rectOf rect
  (List.range r.2.2.2).flatMap (fun y => (List.range r.2.2.1).flatMap (fun x =>
    (blended s p (r.1 + x) (r.2.1 + y)).flatMap (fun v => leBytes 2 v.toNat)))

/-- Fallback content over a blended pixel. -/
def withFallback (s : State) (p : PicLatch) (x y : Nat) (v : List Int) : List Int :=
  p.sigs.foldl (fun v g =>
    match g.fallback with
    | none => v
    | some f =>
      let r := rectOf g.rect
      if x < r.1 ∨ y < r.2.1 ∨ r.1 + r.2.2.1 ≤ x ∨ r.2.1 + r.2.2.2 ≤ y ∨ g.mode = 0 then v
      else if !bitOf f 31 then colourOf f
      else if g.ovl.base = 0 ∨ g.ovl.width ≤ x - r.1 ∨ g.ovl.height ≤ y - r.2.1 then v
      else
        let q := ovlPixel s g.ovl (x - r.1) (y - r.2.1)
        (List.range 3).map (fun k => straight (4 * (q.getD k 0 : Nat)) (v.getD k 0) (alphaOf (q.getD 3 0 : Nat) 255))) v

/-- A region's picture is checked. -/
def checkRegion (o r : Nat) (g : SigLatch) (crc : Nat) (s : State) : State :=
  let i := 16 * o + r
  let x := tabGet {} (cmpOut s o).sigs r
  let same := x.last == some crc
  let equal := if same then x.equal + 1 else 1
  let ok := if g.mode = 1 then crc == g.expect else !same
  let was := rd s (K.SIG_STATE i) == 2
  let raise_ := !was && (if g.mode = 1 then !ok else decide (g.freezeN ≤ equal))
  let pass := if ok then x.pass + 1 else 0
  let clear := was && decide (g.clearN ≤ pass)
  let s := cmpUpd o (fun y => { y with sigs := tabSet {} y.sigs r { last := some crc, equal := equal, pass := if raise_ then 0 else pass } })
    (wr (K.SIG_LAST i) crc s)
  let s := wr (K.SIG_STATE i) (if raise_ ∨ (was ∧ !clear) then 2 else 1) s
  if raise_ then
    let s := bump (K.SIG_ALARMS i) s
    cmpIrq 0 (if o < 32 then { s with cmp.sigEvt0 := withBit s.cmp.sigEvt0 o true }
      else { s with cmp.sigEvt1 := withBit s.cmp.sigEvt1 (o - 32) true })
  else s

/-! ## A composed picture (R353, R364) -/

/-- 4:2:0 samples of the picture: component, x, y. -/
def composed (s : State) (p : PicLatch) (w h depth : Nat) : Samples :=
  let px (x y : Nat) : List Int := withFallback s p x y (blended s p x y)
  let out (v : Int) : Nat := if depth = 8 then (min 255 ((v + 2) / 4)).toNat else v.toNat
  fun comp x y =>
    if comp = 0 then out ((px x y).getD 0 0)
    else
      let col (k : Int) : Nat := (max 0 (min (2 * x + k) ((w : Int) - 1))).toNat
      let at_ (k : Int) (row : Nat) : Int := (px (col k) (min row (h - 1))).getD comp 0
      let r0 := 2 * y
      let r1 := 2 * y + 1
      out ((at_ (-1) r0 + 2 * at_ 0 r0 + at_ 1 r0 + at_ (-1) r1 + 2 * at_ 0 r1 + at_ 1 r1 + 4) / 8)

/-- COMPOSED_PICTURE_COMPLETE: the picture the compositor works on. -/
def execComposedPictureComplete (s : State) : Res :=
  .next (match s.cmp.current with
    | none => s
    | some o => match (cmpOut s o).composing with
      | none => s
      | some p =>
        let w := rd s (K.OUT_WIDTH o)
        let h := rd s (K.OUT_HEIGHT o)
        let depth := rd s (K.OUT_DEPTH o)
        let surf := writeSurface (p.at_ / ns1) w h depth 0 0 (composed s p w h depth)
        let crcs := (p.sigs.zip (List.range 16)).filterMap (fun g =>
          if g.1.mode = 0 then none else some (g.2, g.1, crc32 (regionBytes s p g.1.rect)))
        let bad := p.layers.foldl (fun n l => match l.shows with | .video f _ => n + badTiles f | _ => n) 0
        let s := bumpBy (K.TILE_ERRORS o) bad (bump (K.OUT_PICTURES o) s)
        let s := cmpUpd o (fun x => { x with composing := none, surface := surf }) { s with cmp.current := none }
        let s := crcs.foldl (fun s c => checkRegion o c.1 c.2.1 c.2.2 s) s
        cmpSync (picOver o p s))

end Sys2Proof.Machine
end

