-- ==== Sys2Proof/Machine/Intake.lean ====
section
/-! DEFINITION. Frames received on data ports: classification, the path of a leg packet to acceptance, what accepted packets
do (R236–R248, R257, R288, R305, R306, R417, R418); leg control transactions (R289). -/
namespace Sys2Proof.Machine

/-! ## Address filters (Table PKT-3, row 1) -/

/-- The port's MAC, broadcast, MAC control, PTP, and the groups the port has joined (its endpoints' and its own). -/
def macAccepted (s : State) (p mac : Nat) : Bool :=
  let eps := (List.range 64).filter (fun e => rd s (K.EP_EN_RX e) == 1 && rd s (K.EP_PORT_RX e) == p
    && isMulticast (rdBlob s (K.EP_DEST_ADDR_RX e)))
  let v6 := rdBlob s (K.IPV6_ADDR p)
  let own : List Nat := if v6.length = 16 then [0x333300000001, 0x3333FF000000 + leVal v6.reverse % 16777216] else []
  mac == portMac s p || mac == 0xFFFFFFFFFFFF || mac == 0x0180C2000001
    || (rd s K.PTP_PORT == p && (mac == 0x011B19000000 || mac == 0x0180C200000E || mac == 0x01005E000181))
    || (!eps.isEmpty && mac == 0x01005E000001)
    || own.contains mac || eps.any (fun e => groupMac (rdBlob s (K.EP_DEST_ADDR_RX e)) == mac)

/-- R238: the tag does not suit the port. -/
def vlanMismatch (s : State) (p : Nat) (f : Frame) : Bool :=
  match f.tag with
  | none => rd s (K.VLAN p) != 0xFFFF
  | some t => rd s (K.VLAN p) != t.1

/-! ## What the first cell decides (R243, R248) -/

/-- Where a frame goes. -/
inductive Fate where
  | drop (counter : Nat)
  | macControl
  /-- system queue 8, 10, 12 or 13 -/
  | system (n : Nat)
  /-- exception queue, with the row of Table PKT-3 -/
  | exception (n row : Nat)
  | leg (l : Nat) (rtcp : Bool)
  | endpoint (e : Nat)
  /-- dropped without a counter of its own -/
  | none
deriving DecidableEq, Repr

/-- An exception queue that is fed, or the drop of its row. -/
def toException (s : State) (n row : Nat) (counter : Option Nat) : Fate :=
  if bitOf (rd s K.EXC_EN) n then .exception n row else match counter with | some c => .drop c | none => .none

/-- The leg whose tuple a datagram matches on a port. -/
def legMatch (s : State) (p : Nat) (ip : Ip) (u : Udp) : Option Nat :=
  (upLegs s).find? (fun l => (rd s (K.LEG_PORT l) == p || rd s (K.ALT_PORT l) == p)
    && legTuple s l == (ip.dst, u.dport, ip.src, u.sport))

/-- The AES67 receive endpoint a datagram matches (R257). -/
def endpointMatch (s : State) (p : Nat) (ip : Ip) (u : Udp) : Option Nat :=
  (List.range 64).find? (fun e => rd s (K.EP_EN_RX e) == 1 && rd s (K.EP_PORT_RX e) == p
    && rdBlob s (K.EP_DEST_ADDR_RX e) == ip.dst && rd s (K.EP_UDP_PORT_RX e) == u.dport
    && (rdBlob s (K.RX_SOURCE e) == [] || rdBlob s (K.RX_SOURCE e) == ip.src))

/-- Counters of PARSE_DROPS. -/
abbrev dMacFilter : Nat := 0
abbrev dFragment : Nat := 1
abbrev dIpError : Nat := 2
abbrev dUdpError : Nat := 3
abbrev dDepth : Nat := 4
abbrev dDemux : Nat := 5
abbrev dRtpError : Nat := 6
abbrev dUnmatched : Nat := 7

/-- Rows 6 to 14 of Table PKT-3, for an IP packet. -/
def classifyIp (s : State) (p : Nat) (f : Frame) (ip : Ip) : Fate :=
  if ip.fragment then .drop dFragment
  else if ip.bad then .drop dIpError
  else if ip.deep then toException s 3 8 (some dDepth)
  else match f.body with
  | .icmp k => if k ≠ .other ∧ portAddr s p ip.dst = true ∨ k = .query then .system 13 else toException s 2 14 (some dUnmatched)
  | .udp u =>
    if u.sum = .wrong ∨ (u.sum = .zero ∧ ip.v6 = true) then .drop dUdpError
    else if (u.dport = 319 ∨ u.dport = 320) ∧ rd s K.PTP_PORT = p then .system 8
    else match legMatch s p ip u with
    | some l =>
      if u.b0 ≤ 3 ∨ (20 ≤ u.b0 ∧ u.b0 ≤ 63) then toException s 1 12 (some dDemux)
      else if 128 ≤ u.b0 ∧ u.b0 ≤ 191 then .leg l (decide (192 ≤ u.b1) && decide (u.b1 ≤ 223))
      else .drop dDemux
    | none => match endpointMatch s p ip u with
      | some e => .endpoint e
      | none => toException s 2 14 (some dUnmatched)
  | _ => toException s 2 14 (some dUnmatched)

/-- Table PKT-3. -/
def classify (s : State) (p : Nat) (f : Frame) : Fate :=
  if !macAccepted s p f.dst || vlanMismatch s p f then .drop dMacFilter
  else match f.body with
  | .pause _ | .pfc .. => .macControl
  | .ptp _ => if rd s K.PTP_PORT = p then .system 8 else toException s 2 14 (some dUnmatched)
  | .arp _ => .system 13
  | _ => match f.ip with
    | some ip => classifyIp s p f ip
    | none => toException s 2 14 (some dUnmatched)

/-- The packet record of a received frame. -/
def rxPacket (p cls : Nat) (f : Frame) : Packet :=
  { content := .rx f, len := f.len, cls := cls, tagged := f.tag.isSome, v6 := match f.ip with | some i => i.v6 | none => false,
    prio := match f.tag with | some t => t.2 | none => 0, port := p, arrival := f.arrival }

/-! ## The line cipher (R245, R417, R418) -/

/-- RFC 3711 Appendix A: the index of sequence number `q`, from the stream's highest index, or from the ROC of LOAD. -/
def estimateIndex (roc : Nat) (highest : Option Nat) (q : Nat) : Nat :=
  match highest with
  | none => roc * 65536 + q
  | some h =>
    let r := h / 65536
    let l := h % 65536
    let v := if l < 32768 then (if l + 32768 < q then r + 4294967295 else r) else (if q + 32768 < l then r + 1 else r)
    v % 4294967296 * 65536 + q

/-- The tag passes under a key at an index. -/
def passes (k : Option SrtpKey) (prot : Option Prot) (index : Nat) : Bool :=
  match k, prot with
  | some k, some p => p.alg == k.alg && p.key == k.key && p.salt == k.salt && p.index == index
  | _, _ => false

/-- R245: the replay check; the window with the index marked, or none. -/
def replayMark (w : ReplayWin) (i : Nat) : Option ReplayWin :=
  match w.highest with
  | none => some { highest := some i, seen := [i] }
  | some h =>
    if (i < h ∧ 128 ≤ h - i) ∨ w.seen.contains i then none
    else
      let top := max h i
      some { highest := some top, seen := (i :: w.seen).filter (fun j => decide (top < j + 128)) }

/-- Result of steps 1 to 5. -/
inductive Cipher where
  | ok | noContext | authFail | replay
deriving DecidableEq, Repr

def srtpIn (s : State) (l : Nat) : SrtpIn := tabGet {} s.sea.srtpIn l
def srtpInUpd (l : Nat) (f : SrtpIn → SrtpIn) (s : State) : State := { s with sea.srtpIn := tabMod {} s.sea.srtpIn l f }

/-- An RTP packet of a leg: SSRC, sequence number, what it was protected under. -/
def rtpCipher (l ssrc seq : Nat) (prot : Option Prot) (s : State) : Cipher × Nat × State :=
  let x := srtpIn s l
  let i := estimateIndex x.roc (tabGet none x.highest ssrc) seq
  let top (t : Tab (Option Nat)) : Tab (Option Nat) := tabMod none t ssrc (fun h => some (max (h.getD 0) i))
  if x.cur.isNone then (.noContext, i, s)
  else if passes x.cur prot i then
    match replayMark (tabGet {} x.wins ssrc) i with
    | none => (.replay, i, s)
    | some w => (.ok, i, srtpInUpd l (fun x => { x with wins := tabSet {} x.wins ssrc w, highest := top x.highest }) s)
  else if passes x.next prot i then
    (.ok, i, bump (K.REKEYS_IN l) (srtpInUpd l (fun x => { x with
      cur := x.next, next := none, prev := x.cur, prevEnd := clk s + rd s K.KEY_OVERLAP * ms1,
      prevWins := x.wins, wins := tabSet {} [] ssrc { highest := some i, seen := [i] }, highest := top x.highest }) s))
  else if passes x.prev prot i ∧ clk s < x.prevEnd then
    match replayMark (tabGet {} x.prevWins ssrc) i with
    | none => (.replay, i, s)
    | some w => (.ok, i, srtpInUpd l (fun x => { x with prevWins := tabSet {} x.prevWins ssrc w, highest := top x.highest }) s)
  else (.authFail, i, s)

/-- An RTCP packet of a leg: its index is in it. -/
def rtcpCipher (l : Nat) (prot : Option Prot) (s : State) : Cipher × Nat × State :=
  let x := srtpIn s l
  let i := match prot with | some p => p.index | none => 0
  let key := if passes x.cur prot i then 1 else if passes x.next prot i then 2
    else if passes x.prev prot i && decide (clk s < x.prevEnd) then 3 else 0
  if x.cur.isNone then (.noContext, i, s)
  else if key = 0 then (.authFail, i, s)
  else match replayMark (tabGet {} x.rtcpWins 0) i with
    | none => if key = 2 then
        (.ok, i, bump (K.REKEYS_IN l) (srtpInUpd l (fun x => { x with
          cur := x.next, next := none, prev := x.cur, prevEnd := clk s + rd s K.KEY_OVERLAP * ms1,
          prevWins := x.wins, wins := [], rtcpWins := tabSet {} [] 0 { highest := some i, seen := [i] } }) s))
      else (.replay, i, s)
    | some w =>
      let s := srtpInUpd l (fun x => { x with rtcpWins := tabSet {} x.rtcpWins 0 w }) s
      (.ok, i, if key = 2 then bump (K.REKEYS_IN l) (srtpInUpd l (fun x => { x with
          cur := x.next, next := none, prev := x.cur, prevEnd := clk s + rd s K.KEY_OVERLAP * ms1,
          prevWins := x.wins, wins := [], rtcpWins := tabSet {} [] 0 { highest := some i, seen := [i] } }) s)
        else s)

/-- A packet that fails in the cipher is counted for its leg and in total. -/
def cipherDrop (l j : Nat) (s : State) : State :=
  bump (K.CIPHER_DROPS j) (legUpd l (fun x => { x with
    drops := tabMod 0 x.drops j (· + 1), authFails := if j = 1 then x.authFails + 1 else x.authFails }) s)

/-! ## Accepted leg packets (R288, R305, R306) -/

/-- RFC 6464 level, FFh where there is none. -/
def audioLevel (s : State) (l : Nat) (r : Rtp) : Nat := match extOf s l 2 r with | some b => leAt b 0 1 % 128 | none => 0xFF

/-- Where an RTP packet of a leg goes: its audio, stream `n` of one of its video sources; none is refused (RX_UNKNOWN). -/
inductive RtpPath where
  | audio
  | video (source stream : Nat)
deriving DecidableEq, Repr

def rtpPath (s : State) (l : Nat) (r : Rtp) : Option RtpPath :=
  if bidirLegs ≤ l then none
  else if r.ssrc = rd s (K.AUD_IN_SSRC l) then some .audio
  else
    let try_ (v : Nat) : Option RtpPath :=
      let i := 2 * l + v
      let codec := srcCodec s i
      match (srcSsrcs s i).idxOf? r.ssrc with
      | some n => if (codec = 1 ∨ codec = 2) ∧ rd s (K.VS_PT l) / 256 ^ v % 256 = r.pt then some (.video i n) else none
      | none => none
    match try_ 0 with
    | some x => some x
    | none => try_ 1

/-- A received SSRC is counted for the RR blocks, and its transport-wide number noted for the feedback. -/
def countRx (l ssrc index arrival : Nat) (tw : Option Nat) (s : State) : State :=
  legUpd l (fun x => { x with
    rx := tabMod {} x.rx ssrc (fun (r : RxStream) =>
      if r.count = 0 then { r with first := index, highest := index, count := 1 }
      else { r with highest := max r.highest index, count := r.count + 1 }),
    twSeen := match tw with | some n => x.twSeen ++ [(n, arrival)] | none => x.twSeen }) s

/-- A video packet in the ingress queue: rates, templates, the fan-out, decoding (R294, R298, R300, R301). -/
def videoPacket (l i stream id : Nat) (r : Rtp) (f : Frame) (s : State) : State :=
  let codec := srcCodec s i
  let old := vsrcOf s i
  let dd := if codec = 2 ∧ rd s (K.EXT_IDS l) / 256 % 256 ≠ 0 then r.dd else none
  let key := if codec = 1 then stream else 0
  let newTs := tabGet 0 old.lastTs key != r.ts + 1
  let s := vsrcUpd i (fun x => { x with lastTs := tabSet 0 x.lastTs key (r.ts + 1) }) s
  let s := match dd.bind DepDesc.template with
    | none => s
    | some t =>
      let changed := !old.known || t.1 != old.targets
      let s := vsrcUpd i (fun x => { x with targets := t.1, known := true, s3t3 := t.2 }) s
      if changed then templateChanged i s else s
  let unread := codec == 2 && (!(vsrcOf s i).known || (match dd with | some d => !d.fits | none => true))
  let s := upd unread (bump K.DD_ERRORS) s
  let layers := if codec = 1 then [stream * 16] else match dd with
    | some d => (d.dti.filter (fun e => e.2 != 0)).map (·.1)
    | none => []
  let s := srcLog i (8 * counted 1 f.len f.tag.isSome) layers s
  let o : FanOut :=
    { pkt := id, source := i, stream := stream, start := if codec = 2 then (match dd with | some d => d.start | none => false) else newTs,
      newUnit := newTs, switchPoint := r.switchPoint, dd := dd, marker := r.marker, slots := if unread then [] else slotsOn s i }
  let point := if codec = 1 then r.switchPoint else match dd with | some d => d.dti.any (fun e => e.2 == 2) | none => false
  let s := if point then refreshUpd i key (fun x => { x with firAt := none }) s else s
  let s := ((decsOn s).filter (fun c => srcId (rd s (K.DEC_SOURCE c)) == some i)).foldl
    (fun s c => decodeTake c o r.ts r.pic s) s
  if o.slots.isEmpty then dropEntry (qIn l) (.pkt id) s else { s with fwd.fan := s.fwd.fan ++ [o] }

/-- The V slot whose outgoing SSRC it is. -/
def slotBySsrc (s : State) (l ssrc : Nat) : Option Nat := [0, 1, 2].find? (fun j => rd s (K.OUT_SSRC l j) == ssrc)

/-- One item of a received RTCP packet. -/
def rtcpItem (l : Nat) (s : State) (i : RtcpItem) : State :=
  let askFor (ssrc : Nat) : State := match slotBySsrc s l ssrc with | some j => slotRefresh l j true s | none => s
  match i with
  | .feedback _ reports => feedbackIn l reports s
  | .pli ssrc => askFor ssrc
  | .fir ssrc _ => askFor ssrc
  | .sr ssrc ntp _ _ _ =>
    legUpd l (fun x => { x with rx := tabMod {} x.rx ssrc (fun (r : RxStream) => { r with lsr := ntp / 65536 % 4294967296, srAt := clk s }) }) s
  | .block ssrc fraction _ _ _ lsr dlsr =>
    if ssrc ≠ rd s (K.AUD_OUT_SSRC l) ∧ (slotBySsrc s l ssrc).isNone then s
    else
      let s := wr (K.LOSS l) fraction s
      if lsr = 0 then s
      else wr (K.RTT l) ((ntpMid s + 2 * 4294967296 - lsr - dlsr) % 4294967296 * 1000000 / 65536) s
  | .other => bump (K.RTCP_IGNORED l) s

/-- Steps 6 and 7 of Table PKT-4 for a packet whose index is marked. -/
def legAdmit (l : Nat) (pkt : Packet) (dscp : Nat) (known : Bool) (f : Frame) (s : State) : Option Nat × State :=
  let m := meter l f.len dscp f.tag.isSome ((clk s - (s.isb.now - f.arrival)) / ns1) s
  let r := policed l m.1 m.2
  if !r.1 then (none, r.2)
  else if !known then (none, bump (K.RX_UNKNOWN l) r.2)
  else admitPacket (qIn l) { pkt with colour := m.1, leg := l, decrypted := true } r.2

/-- A leg packet, from the cipher on. -/
def legPacket (p l : Nat) (rtcp : Bool) (f : Frame) (ip : Ip) (u : Udp) (s : State) : State :=
  let fail (c : Cipher) (s : State) : State :=
    match c with
    | .noContext => cipherDrop l 0 s
    | .authFail => cipherDrop l 1 s
    | .replay => cipherDrop l 2 s
    | .ok => s
  match rtcp, u.pay with
  | true, .rtcp items prot =>
    let c := rtcpCipher l prot s
    if c.1 ≠ .ok then fail c.1 c.2.2
    else
      let a := legAdmit l { rxPacket p 1 f with index := c.2.1 } ip.dscp true f c.2.2
      (match a.1 with
      | none => a.2
      | some id => dropEntry (qIn l) (.pkt id) (items.foldl (rtcpItem l) a.2))
  | false, .rtp r prot =>
    let c := rtpCipher l r.ssrc r.seq prot s
    if c.1 ≠ .ok then fail c.1 c.2.2
    else
      let s := c.2.2
      let path := rtpPath s l r
      let level := audioLevel s l r
      let a := legAdmit l { rxPacket p 0 f with index := c.2.1, level := level } ip.dscp path.isSome f s
      (match a.1, path with
      | some id, some path =>
        let tw := (extOf s l 0 r).map (fun b => leVal (slice b 0 2).reverse)
        let s := countRx l r.ssrc c.2.1 f.arrival tw a.2
        (match path with
        | .audio => dropEntry (qIn l) (.pkt id) (legAudioPacket l (if level = 0xFF then 127 else level) r.pt r.payload s)
        | .video i n => videoPacket l i n id r f s)
      | _, _ => a.2)
  | false, .other => bump (K.PARSE_DROPS dRtpError) s
  | _, _ =>
    let c := rtcpCipher l none s
    fail c.1 c.2.2

/-! ## AES67 packets (R257) -/

/-- Samples of an AES67 payload in Q1.31: channels of each sample, network byte order. -/
def aes67Samples (chans width : Nat) (b : Bytes) : List (List Int) :=
  (List.range (b.length / max 1 (chans * width))).map (fun i => (List.range chans).map (fun c =>
    toInt (8 * width) (leVal (slice b ((i * chans + c) * width) width).reverse) * 2 ^ (32 - 8 * width)))

def endpointPacket (p e : Nat) (f : Frame) (u : Udp) (s : State) : State :=
  let chans := rd s (K.EP_CHANNELS_RX e)
  let width := if rd s (K.EP_ENCODING_RX e) = 0 then 2 else 3
  match u.pay with
  | .rtp r none =>
    let lock := tabGet 0 s.pkt.locked e
    let mode := rd s (K.RX_SSRC_MODE e)
    let badSsrc := (mode == 1 && lock != 0 && lock != r.ssrc + 1) || (mode == 2 && r.ssrc != rd s (K.RX_SSRC e))
    if (rd s (K.RX_PT e) ≠ 0xFF ∧ rd s (K.RX_PT e) ≠ r.pt) ∨ badSsrc = true
        ∨ r.payload.length ≠ chans * ptimeSamples (rd s (K.EP_PTIME_RX e)) * width then bump (K.RX_DROPS e) s
    else
      let a := admitPacket (qRx e) { rxPacket p 2 f with leg := e } s
      (match a.1 with
      | none => a.2
      | some id =>
        let s := if mode = 1 ∧ lock = 0 then { a.2 with pkt.locked := tabSet 0 a.2.pkt.locked e (r.ssrc + 1) } else a.2
        dropEntry (qRx e) (.pkt id) (rxAccept e r.ts (aes67Samples chans width r.payload) s))
  | _ => bump (K.RX_DROPS e) s

/-! ## A frame (R238, R242–R248) -/

/-- A frame goes to an exception queue as received. -/
def toExc (p n row leg : Nat) (f : Frame) (s : State) : State :=
  (admitPacket (qExc n) { rxPacket p 6 f with exc := row, leg := leg } s).2

/-- An address of a leg is answered for only by a hub that forwards (R460). -/
def answersFor (s : State) (a : Bytes) : Bool := serves s || !(upLegs s).any (fun l => rdBlob s (K.LOCAL_ADDR l) == a)

/-- ARP, ICMP and its relatives are answered by firmware; a copy goes to exception queue 0. -/
def answered (p : Nat) (f : Frame) (s : State) : State :=
  let row := match f.body with | .arp _ => 5 | _ => 9
  let s := if bitOf (rd s K.EXC_EN) 0 ∧ p < 8 then toExc p 0 row 0xFFFF f s else s
  match f.body with
  | .arp target => if rd s (K.IPV4_ADDR p) ≠ 0 ∧ target = rd s (K.IPV4_ADDR p) ∧ answersFor s (ipv4Bytes target) = true then
      answer p 0 f.src (ipv4Bytes target) 60 s else s
  | .icmp k => match f.ip with
    | none => s
    | some ip => match k with
      | .neighbour => answer p 1 f.src ip.src 86 s
      | .echo => answer p 2 f.src ip.src f.len s
      | .query =>
        ((List.range 64).filter (fun e => rd s (K.EP_EN_RX e) == 1 && rd s (K.EP_PORT_RX e) == p
          && isMulticast (rdBlob s (K.EP_DEST_ADDR_RX e)))).foldl (fun s e =>
            let a := rdBlob s (K.EP_DEST_ADDR_RX e)
            answer p 3 (groupMac a) a 64 s) s
      | .other => s
  | _ => s

/-- The PTP message a frame carries. -/
def ptpOf (f : Frame) : Option PtpMsg :=
  match f.body with
  | .ptp m => some m
  | .udp u => (match u.pay with | .ptp m => some m | _ => none)
  | _ => none

/-- A PTP message passes system queue 8. -/
def ptpFrame (p : Nat) (f : Frame) (s : State) : State :=
  let a := admitPacket (qSys 8) (rxPacket p 3 f) s
  match a.1 with
  | none => a.2
  | some id =>
    let s := match ptpOf f with | some m => ptpMessage { m with port := p } f.arrival a.2 | none => a.2
    dropEntry (qSys 8) (.pkt id) s

/-- What becomes of a classified frame. -/
def runFate (p : Nat) (f : Frame) (fate : Fate) (s : State) : State :=
  match fate with
  | .drop c => bump (K.PARSE_DROPS c) s
  | .none => s
  | .macControl => (match f.body with
    | .pause q => pauseIn p q s
    | .pfc en q => pfcIn p en q s
    | _ => s)
  | .system n => if n = 8 then ptpFrame p f s else answered p f s
  | .exception n row =>
    let l := match f.ip, f.body with | some ip, .udp u => (legMatch s p ip u).getD 0xFFFF | _, _ => 0xFFFF
    toExc p n row (if row = 12 then l else 0xFFFF) f s
  | .leg l rtcp => (match f.ip, f.body with | some ip, .udp u => legPacket p l rtcp f ip u s | _, _ => s)
  | .endpoint e => (match f.body with | .udp u => endpointPacket p e f u s | _ => s)

/-- A frame that takes cells is refused for want of them: below G_RESERVE at its first cell, or before its last word. -/
def noCells (s : State) (fate : Fate) (len : Nat) : Bool :=
  let sys := match fate with | .system _ => true | _ => false
  let takes := match fate with | .macControl | .drop _ | .none => false | _ => true
  takes && !poolSpill s && ((!sys && decide (cellsFree s < rd s K.G_RESERVE)) || decide (cellsFree s < cellsOf len))

/-- ETH_FRAME_RECEIVED: a frame at a data port; nothing on a port that is not UP. -/
def execEthFrameReceived (p : Fin 8) (f : Frame) (s : State) : Res :=
  let p := p.val
  .next (if !portUp s p then s
  else if f.pcsBad then bump (K.RX_ERR p 2) s
  else if f.len + 4 < 64 ∨ rd s (K.MAX_FRAME p) < f.len + 4 then bump (K.RX_ERR p 1) s
  else if f.fcsBad then bump (K.RX_ERR p 0) s
  else
    let s := bumpBy (K.FRAME_COUNTS p 1) (f.len + 4) (bump (K.FRAME_COUNTS p 0) s)
    let fate := classify s p f
    if noCells s fate f.len then bump (K.RX_NO_CELL p) s
    else if poolSpill s then
      (match fate with
      | .macControl | .drop _ | .none => runFate p f fate s
      | _ => if spillFits s f.len then runFate p f fate (spillCharge f.len s) else bump K.SPILL_DROPS s)
    else runFate p f fate s)

/-! ## Leg control transactions (R289) -/

/-- Table FWD-2: the 16 octets of a transaction. -/
def legBody (txn op slot max source : Nat) : Bytes :=
  leBytes 4 txn ++ leBytes 1 op ++ leBytes 1 slot ++ leBytes 1 max ++ [0] ++ leBytes 4 source ++ [0, 0, 0, 0]

/-- A transaction: nothing when its TXN is at or below LAST_TXN; else its checks, and its effect. -/
def legCtrl (inst : Inst) (tag leg txn op slot max source : Nat) (st : Status)
    (f : State → State) (s : State) : State :=
  let idx := 0x8000 + leg
  if 20480 ≤ leg then runCmdV inst tag idx 0x0C (legBody txn op slot max source) .noEntry id s
  else if txn ≤ rd s (K.LAST_TXN leg) then runCmdV inst tag idx 0x0C (legBody txn op slot max source) .ok id s
  else if unserved inst idx 0x0C true s then notServed inst tag 2 idx 0x0C s
  else
    let st := worst (writeGate inst idx 0x0C 16 s) st
    let act : Durable := .legCtrl inst tag leg txn op (legBody txn op slot max source)
    if st = .ok then
      (repeated act inst tag 2 idx 0x0C s).getD
        (if defers s then deferAs 5 16 act s
         else cmdEnd inst tag idx 0x0C st (f (wr (K.LAST_TXN leg) txn (acceptAs 5 16 act s))))
    else cmdEnd inst tag idx 0x0C st s

def writeLegCtrlEnable (inst : Inst) (tag leg txn : Nat) (s : State) : State :=
  legCtrl inst tag leg txn 1 0 0 0 (worst (mediaStatus true s) (legEnStatus leg true s)) (fun s => markDirty (K.LEG_EN leg) (legEn leg true s)) s
def writeLegCtrlDisable (inst : Inst) (tag leg txn : Nat) (s : State) : State :=
  legCtrl inst tag leg txn 2 0 0 0 .ok (fun s => markDirty (K.LEG_EN leg) (legEn leg false s)) s
def writeLegCtrlSpeak (inst : Inst) (tag leg txn : Nat) (s : State) : State :=
  legCtrl inst tag leg txn 3 0 0 0 (if leg < bidirLegs then .ok else .range) (tmSpeak (legIdent leg)) s
def writeLegCtrlCancel (inst : Inst) (tag leg txn : Nat) (s : State) : State :=
  legCtrl inst tag leg txn 4 0 0 0 (if leg < bidirLegs then .ok else .range) (tmCancel (legIdent leg)) s
def writeLegCtrlSetSource (inst : Inst) (tag leg txn slot code : Nat) (s : State) : State :=
  legCtrl inst tag leg txn 5 slot 0 code (if slot < 3 ∧ sourceCodeOk code = true then .ok else .range)
    (fun s => markDirty (K.SLOT_SOURCE leg slot) (setSource leg slot code s)) s
def writeLegCtrlSetMax (inst : Inst) (tag leg txn slot layer : Nat) (s : State) : State :=
  legCtrl inst tag leg txn 6 slot layer 0 (if slot < 3 ∧ layer < 256 ∧ layerCodeOk layer = true then .ok else .range)
    (fun s => markDirty (K.SLOT_MAX leg slot) (wr (K.SLOT_MAX leg slot) layer s)) s
def writeLegCtrlRefresh (inst : Inst) (tag leg txn slot : Nat) (s : State) : State :=
  legCtrl inst tag leg txn 7 slot 0 0 (if slot < 3 then .ok else .range) (slotRefresh leg slot false) s

end Sys2Proof.Machine
end

