-- ==== Sys2Proof/Machine/Dma.lean ====
section
/-! DEFINITION. DMA channels: their registers, chains, transfers and pacing (chapter DMA). -/
namespace Sys2Proof.Machine

def dmaOf (s : State) (n : Nat) : DmaCh := tabGet {} s.dma.chs n

/-- States of Table DMA-4. -/
abbrev dsOff : Nat := 0
abbrev dsIdle : Nat := 1
abbrev dsRunning : Nat := 2
abbrev dsWaiting : Nat := 3
abbrev dsParked : Nat := 4
abbrev dsStopped : Nat := 5
abbrev dsHalted : Nat := 6

def dmaState (s : State) (n : Nat) : Nat := rd s (K.DMA_STATE n)
def dmaSet (n st : Nat) (s : State) : State := wr (K.DMA_STATE n) st s

/-- Events of DMA.EVT. -/
abbrev deDesc : Nat := 0
abbrev deBad : Nat := 1
abbrev deParked : Nat := 2
abbrev deHalted : Nat := 3
abbrev deStopped : Nat := 4

/-- Claim owner of a channel. -/
def dmaOwner (n : Nat) : Nat := ownKey (0xF000 + n) 1

/-! ## Running a channel (R378–R380) -/

/-- The channel enters STOPPED; a channel being disabled goes OFF and its claim is freed. -/
def dmaStopped (n : Nat) (s : State) : State :=
  let s := dmaEvt n deStopped (dmaSet n dsStopped (dmaUpd n (fun x => { x with phase := none, stopReq := false }) s))
  if (dmaOf s n).closing then
    unclaim 3 n (dmaOwner n) (dmaSet n dsOff { s with dma.chs := tabErase s.dma.chs n })
  else s

/-- R379: the channel halts; 1 LOOP, 2 FETCH. -/
def dmaHalt (n reason : Nat) (s : State) : State :=
  let s := wr (K.LAST_HALT n) reason (bump (K.HALTS n) (dmaSet n dsHalted s))
  dmaEvt n deHalted (dmaUpd n (fun x => { x with phase := none, halt := reason }) s)

/-- The channel parks; 0 END, 1 OWN_CLEAR. -/
def dmaPark (n kind : Nat) (s : State) : State :=
  dmaEvt n deParked (dmaSet n dsParked (dmaUpd n (fun x => { x with phase := none, parkKind := kind }) s))

/-- R382: pacing permits a descriptor. -/
def dmaPermits (s : State) (n : Nat) : Bool :=
  let p := rd s (K.PACING n)
  if p = 0 then true else if p = 1 then decide (0 < (dmaOf s n).pendingReq) else (dmaOf s n).permits

/-- A descriptor boundary of an activation: STOP, the budget, pacing, then the fetch at CUR. -/
def dmaBoundary (n : Nat) (s : State) : State :=
  let x := dmaOf s n
  if x.stopReq then dmaStopped n s
  else if rd s (K.DESC_BUDGET n) ≤ x.count then dmaHalt n 1 s
  else if !dmaPermits s n then dmaSet n dsWaiting (dmaUpd n (fun x => { x with phase := none }) s)
  else dmaSet n dsRunning (dmaUpd n (fun x => { x with phase := some .boundary, askedAt := clk s }) s)

/-- A new activation at CUR. -/
def dmaActivate (n : Nat) (s : State) : State := dmaBoundary n (dmaUpd n (fun x => { x with count := 0, halt := 0 }) s)

/-- The link word of the descriptor at CUR is fetched; KICK is cleared when the fetch is issued. -/
def dmaLink (n : Nat) (s : State) : State :=
  dmaSet n dsRunning (dmaUpd n (fun x => { x with phase := some .link, kick := false, askedAt := clk s }) s)

/-- DMA.START: bits [5:0] are ignored. -/
def dmaStart (x : DmaCh) : Nat := (x.startHi * 4294967296 + x.startLo) / 64 * 64

/-- A write of DMA.CTRL with one command bit; START_SPACE is written with it. Nothing while the channel is OFF. -/
def dmaCtrl (n : Nat) (host : Bool) (f : State → State) (s : State) : State :=
  if dmaState s n = dsOff then s else f (dmaUpd n (fun x => { x with startSpace := b2n host }) s)

/-- GO: in IDLE, STOPPED or HALTED. -/
def dmaGo (n : Nat) (s : State) : State :=
  let st := dmaState s n
  if st = dsIdle ∨ st = dsStopped ∨ st = dsHalted then
    dmaActivate n (dmaUpd n (fun x => { x with cur := dmaStart x, curHost := x.startSpace == 1, stopReq := false }) s)
  else s

/-- DMA_GO. -/
def execDmaGo (n : Fin 64) (host : Bool) (s : State) : Res := .next (dmaCtrl n.val host (dmaGo n.val) s)

/-- STOP: at the next descriptor boundary; at once in WAITING, PARKED or IDLE. -/
def dmaStop (n : Nat) (s : State) : State :=
  let st := dmaState s n
  if st = dsRunning then dmaUpd n (fun x => { x with stopReq := true }) s
  else if st = dsWaiting ∨ st = dsParked ∨ st = dsIdle then dmaStopped n s
  else s

def execDmaStop (n : Fin 64) (host : Bool) (s : State) : Res := .next (dmaCtrl n.val host (dmaStop n.val) s)

/-- RESUME: in STOPPED. -/
def dmaResume (n : Nat) (s : State) : State := if dmaState s n = dsStopped then dmaActivate n s else s

/-- DMA_RESUME. -/
def execDmaResume (n : Fin 64) (host : Bool) (s : State) : Res := .next (dmaCtrl n.val host (dmaResume n.val) s)

/-- A doorbell (R381): ignored but in RUNNING, WAITING and PARKED. -/
def dmaDoorbell (n : Nat) (s : State) : State :=
  let st := dmaState s n
  if st ≠ dsRunning ∧ st ≠ dsWaiting ∧ st ≠ dsParked then s
  else
    let s := dmaUpd n (fun x => { x with kick := true }) s
    if st ≠ dsParked then s
    else if (dmaOf s n).parkKind = 0 then dmaLink n (dmaUpd n (fun x => { x with count := 0, halt := 0 }) s)
    else dmaActivate n s

/-- DMA_DOORBELL. -/
def execDmaDoorbell (n : Fin 64) (s : State) : Res := .next (dmaDoorbell n.val s)

/-- A write of 1 to DMA.REQ is a request of kind 3 (R382). -/
def dmaReqWrite (n : Nat) (s : State) : State :=
  if dmaState s n ≠ dsOff ∧ rd s (K.PACING n) = 1 ∧ rd s (K.PACE_SOURCE n) / 268435456 = 3 then dmaRequest n s else s

/-- DMA_REQ. -/
def execDmaReq (n : Fin 64) (s : State) : Res := .next (dmaReqWrite n.val s)

/-- DMA_PACE_TIMER: Isobar reaches a multiple of the period of a channel paced by requests of kind 2. -/
def execDmaPaceTimer (n : Fin 64) (s : State) : Res :=
  let n := n.val
  let period := rd s (K.PACE_SOURCE n) % 65536 * us1
  .next (if dmaState s n = dsOff ∨ rd s (K.PACING n) ≠ 1 ∨ rd s (K.PACE_SOURCE n) / 268435456 ≠ 2 ∨ period = 0
      ∨ s.isb.now % period ≠ 0 ∨ (dmaOf s n).paceAt = s.isb.now then s
  else dmaRequest n (dmaUpd n (fun x => { x with paceAt := s.isb.now }) s))

/-- DMA_PACING_PERMIT: a WAITING channel that pacing permits starts a new activation. -/
def execDmaPacingPermit (n : Fin 64) (s : State) : Res :=
  .next (if dmaState s n.val = dsWaiting ∧ dmaPermits s n.val = true then dmaActivate n.val s else s)

/-- CUR_LO_READ: the low word, with CUR_HI latched. -/
def execCurLoRead (n : Fin 64) (fn : Nat) (s : State) : Res :=
  let x := dmaOf s n.val
  .next (emit (.regRead fn 4 (0x400 * n.val + 0x18) (x.cur % 4294967296))
    (dmaUpd n.val (fun x => { x with curHi := x.cur / 4294967296 }) s))

/-! ## Fetches (R373, R379) -/

/-- `n` octets at a descriptor address: from hub memory, or what a read of host memory returned; none: it failed. -/
def dmaFetch (s : State) (x : DmaCh) (off n : Nat) (host : Option Bytes) : Option Bytes :=
  if x.curHost then host.map (fun b => slice b 0 n)
  else if hubMapped s (x.cur + off) && hubMapped s (x.cur + off + n - 1) then some (memRead s (x.cur + off) n) else none

/-- DESCRIPTOR_FETCH_DONE: with the octets of a host descriptor; `failed`: an uncorrectable error. -/
def execDescriptorFetchDone (n : Fin 64) (host : Option Bytes) (failed : Bool) (s : State) : Res :=
  let n := n.val
  let x := dmaOf s n
  .next (if x.phase ≠ some .boundary then s
  else match (if failed then none else dmaFetch s x 0 64 host) with
    | none => dmaHalt n 2 s
    | some d =>
      if bitOf (leAt d 0 4) 31 then
        dmaUpd n (fun x => { x with
          phase := some (.transfer d), askedAt := clk s, count := x.count + 1,
          pendingReq := if rd s (K.PACING n) = 1 then x.pendingReq - 1 else x.pendingReq }) s
      else dmaPark n 1 s)

/-- LINK_FETCH_DONE: the decision read of the link word. -/
def execLinkFetchDone (n : Fin 64) (host : Option Bytes) (failed : Bool) (s : State) : Res :=
  let n := n.val
  let x := dmaOf s n
  .next (if x.phase ≠ some .link then s
  else match (if failed then none else dmaFetch s x 8 8 host) with
    | none => dmaHalt n 2 s
    | some b =>
      let w := leVal b
      if w % 2 = 1 then
        let s := dmaPark n 0 s
        if x.kick then dmaLink n s
        else if x.stopReq then dmaStopped n s else s
      else dmaBoundary n (dmaUpd n (fun x => { x with cur := w / 64 * 64, curHost := w / 2 % 2 == 1 }) s))

/-! ## Transfers (R374–R377) -/

/-- A side of a descriptor: space, address, stride, octets a line, lines. -/
structure Side where
  space : Nat
  addr : Nat
  stride : Int
  line : Nat
  lines : Nat

def srcSide (d : Bytes) : Side :=
  let g := leAt d 40 4
  { space := leAt d 0 4 / 4 % 4, addr := leAt d 16 8, stride := toInt 32 (leAt d 32 4), line := g % 1048576, lines := g / 1048576 + 1 }
def dstSide (d : Bytes) : Side :=
  let g := leAt d 44 4
  { space := leAt d 0 4 % 4, addr := leAt d 24 8, stride := toInt 32 (leAt d 36 4), line := g % 1048576, lines := g / 1048576 + 1 }

def Side.total (x : Side) : Nat := x.line * x.lines

/-- Address of octet `i` of a side's stream, modulo 2⁶⁴. -/
def Side.at_ (x : Side) (i : Nat) : Nat := (((x.addr : Int) + x.stride * (i / x.line : Nat) + (i % x.line : Nat)) % 18446744073709551616).toNat

/-- The longest frame of a port, with its FCS (R237, R241). -/
def portMaxFrame (s : State) (p : Nat) : Nat := if p = 8 then 1522 else rd s (K.MAX_FRAME p)

/-- A descriptor that is INVALID whatever its data (R373–R376). -/
def dmaInvalid (s : State) (d : Bytes) : Bool :=
  let src := srcSide d
  let dst := dstSide d
  let q (x : Side) (lo : Nat) : Bool := decide (lo ≤ x.addr) && decide (x.addr < lo + 4)
  leAt d 0 4 / 16 % 33554432 != 0 || leAt d 8 8 / 4 % 16 != 0
    || dst.space == 3 || src.line == 0 || dst.line == 0
    || (src.space == 2 && dst.space == 2)
    || (decide (2 ≤ src.space) && src.lines != 1) || (dst.space == 2 && dst.lines != 1)
    || (src.space == 2 && !q src 41088) || (dst.space == 2 && !q dst 41092)
    || (src.space != 2 && dst.space != 2 && src.total != dst.total)
    || (dst.space == 2 && (decide (src.total < 60)
        || decide (portMaxFrame s (rd s (K.HTX_PORT (dst.addr - 41092))) - 4 < src.total)))

/-- First octet of a stream that has no hub memory behind it, among `n`. -/
def firstHole (s : State) (x : Side) (n : Nat) : Option Nat :=
  if x.space = 0 then (List.range n).find? (fun i => !hubMapped s (x.at_ i)) else none

/-- Table PKT-5: the record of a packet, 32 B. -/
def packetRecord (p : Packet) : Bytes :=
  let vlan := if p.tagged then 4 else 0
  let l4 := 14 + vlan + (match p.content with | .rx f => (match f.ip with | some i => i.hlen | none => 0) | _ => 0)
  leBytes 2 p.len ++ leBytes 2 p.refs ++ leBytes 2 p.leg ++ leBytes 1 p.cls
    ++ leBytes 1 (p.colour + 4 * b2n p.tagged + 8 * b2n p.v6 + 16 * b2n p.decrypted + 32 * p.prio)
    ++ leBytes 1 p.port ++ leBytes 1 p.exc ++ leBytes 2 l4 ++ leBytes 2 (l4 + 8) ++ leBytes 2 0
    ++ leBytes 8 (p.arrival / ns1) ++ leBytes 6 p.index ++ leBytes 1 p.level ++ leBytes 1 0

/-- Octets of a packet's frame. -/
def frameOctets (p : Packet) : Bytes :=
  match p.content with
  | .rx f => slice f.octets 0 p.len
  | .host b => slice b 0 p.len
  | _ => slice [] 0 p.len

/-- The source stream, `n` octets: hub memory, what host memory returned, a fill. -/
def sourceStream (s : State) (x : Side) (host : Bytes) : Bytes :=
  if x.space = 0 then (List.range x.total).flatMap (fun i => memRead s (x.at_ i) 1)
  else if x.space = 1 then slice host 0 x.total
  else (List.range x.total).map (fun i => BitVec.ofNat 8 (x.addr / 256 ^ (i % 4)))

/-- The first `n` octets of a stream are written at a side. -/
def writeSide (x : Side) (b : Bytes) (s : State) : State :=
  if x.space = 1 then
    (List.range (ceilDiv b.length (max 1 x.line))).foldl (fun s k =>
      emit (.hostWrite (x.at_ (k * x.line)) ((b.drop (k * x.line)).take x.line)) s) s
  else ((List.range b.length).zip b).foldl (fun s e => memWrite (x.at_ e.1) [e.2] s) s

/-- How a transfer ends: status of Table DMA-3, DONE_LEN. -/
abbrev DmaEnd := Nat × Nat

/-- A transfer stopped at octet `hole` by a failed access. Bursts are of up to 64 octets: how many octets before it were
done, and how many after that have new data, are free values. -/
def dmaBroken (code hole : Nat) (dst : Side) (stream : Bytes) (s : State) : DmaEnd × State :=
  let done := hole - freeVal s (min 64 (hole + 1))
  let s := drew s
  let more := freeVal s (hole - done + 1)
  ((code, done), writeSide dst (stream.take (done + more)) (drew s))

/-- Transfer a descriptor. `fail`: status 01h–03h of a failed bus access, and the octet it failed at. -/
def dmaTransfer (d host : Bytes) (fail : Option (Nat × Nat)) (s : State) : DmaEnd × State :=
  let src := srcSide d
  let dst := dstSide d
  if dmaInvalid s d then ((4, 0), s)
  else if src.space = 2 then
    match (queueOf s src.addr).entries with
    | .pkt id :: _ =>
      (match packetOf s id with
      | none => ((5, 0), s)
      | some p =>
        let b := packetRecord p ++ frameOctets p
        let n := min b.length dst.total
        match (if p.bad then some (1, 0) else fail.orElse (fun _ => (firstHole s dst n).map (fun h => (2, h)))) with
        | some (c, h) => let r := dmaBroken c (min h n) dst b s; (r.1, popEntry src.addr r.2)
        | none => ((if dst.total < b.length then 6 else 0, n), popEntry src.addr (writeSide dst (b.take n) s)))
    | _ => ((5, 0), s)
  else
    let b := sourceStream s src host
    match fail.orElse (fun _ => (firstHole s src src.total).map (fun h => (1, h))) with
    | some (c, h) => if dst.space = 2 then ((c, min h b.length), s) else dmaBroken c (min h b.length) dst b s
    | none =>
      if dst.space = 2 then
        let a := admitPacket dst.addr { content := .host b, len := b.length, cls := 6, arrival := s.isb.now } s
        (if a.1.isSome then (0, b.length) else (7, 0), a.2)
      else match firstHole s dst dst.total with
        | some h => dmaBroken 2 h dst b s
        | none => ((0, b.length), writeSide dst b s)

/-- Octets of a descriptor are written back. -/
def dmaWriteBack (x : DmaCh) (off : Nat) (b : Bytes) (s : State) : State :=
  if x.curHost then emit (.hostWrite (x.cur + off) b) s else memWrite (x.cur + off) b s

/-- R377: a descriptor ends: bytes 48–63, then CTRL with OWN = 0; its interrupt and its notification; then the link. -/
def dmaFinish (n : Nat) (d : Bytes) (e : DmaEnd) (s : State) : State :=
  let x := dmaOf s n
  let ctrl := leAt d 0 4
  let tail := leBytes 4 e.2 ++ leBytes 1 e.1 ++ leBytes 3 0 ++ leBytes 8 (nowNs s)
  let s := dmaWriteBack x 0 (leBytes 4 (ctrl - 2147483648)) (dmaWriteBack x 48 tail s)
  let s := bump (K.DESCRIPTORS n) (dmaUpd n (fun x => { x with done := (x.done + 1) % 4294967296 }) s)
  let s := if e.1 = 0 then s else dmaEvt n deBad (bump (K.BAD_COUNT n) s)
  let s := if bitOf ctrl 30 then dmaEvt n deDesc s else s
  let s := if bitOf ctrl 29 ∧ rd s (K.NOTIFY_TYPE n) ≠ 0 then
      (match enqueue 8 0 { typ := rd s (K.NOTIFY_TYPE n), level := rd s (K.NOTIFY_LEVEL n), flags := 0,
                           payload := leBytes 8 (x.cur + b2n x.curHost) ++ tail ++ List.replicate 8 0 } s with
      | (.rejected _, s) => bump (K.NOTIFY_DROPS n) s
      | (.held, s) => { s with sch.held := s.sch.held ++ [(8, .host { it := {
          typ := rd s (K.NOTIFY_TYPE n), level := rd s (K.NOTIFY_LEVEL n), flags := 0, source := 8,
          payload := leBytes 8 (x.cur + b2n x.curHost) ++ tail ++ List.replicate 8 0 } } 0)] }
      | (_, s) => s)
    else s
  dmaLink n s

/-- DESCRIPTOR_COMPLETE: with the octets host memory returned, and a bus error and where it fell. -/
def execDescriptorComplete (n : Fin 64) (host : Bytes) (fail : Option (Fin 3 × Nat)) (s : State) : Res :=
  .next (match (dmaOf s n.val).phase with
    | some (.transfer d) =>
      let r := dmaTransfer d host (fail.map (fun f => (f.1.val + 1, f.2))) s
      dmaFinish n.val d r.1 r.2
    | _ => s)

/-- BUS_TIMEOUT: no completion within BUS_TIMEOUT: a transfer ends with TIMEOUT after `done` octets, a fetch fails. -/
def execBusTimeout (n : Fin 64) (host : Bytes) (done : Nat) (s : State) : Res :=
  if clk s < (dmaOf s n.val).askedAt + rd s (K.BUS_TIMEOUT n.val) * us1 then .next s else
  .next (match (dmaOf s n.val).phase with
    | some (.transfer d) =>
      let r := dmaTransfer d host (some (3, done)) s
      dmaFinish n.val d r.1 r.2
    | some .boundary => dmaHalt n.val 2 s
    | some .link => dmaHalt n.val 2 s
    | none => s)

/-! ## Enabling (R380, R382, R384) -/

def dmaEnStatus (n : Nat) (on : Bool) (s : State) : Status :=
  if !on || rd s (K.DMA_EN n) == 1 then .ok else
  let p := rd s (K.PACING n)
  let src := rd s (K.PACE_SOURCE n)
  let kind := src / 268435456
  let q := src % 65536
  let bad := (decide (2 ≤ p) && (decide (rd s (K.FILL_HIGH n) ≤ rd s (K.FILL_LOW n)) || decide (q < 41088) || decide (41095 < q)))
    || (p == 1 && (decide (kind < 1) || decide (3 < kind) || (kind == 2 && q == 0)))
  checks [
    (bad, .range),
    (claimOwner s 3 n != 0 && claimOwner s 3 n != dmaOwner n, .conflict),
    ((dmaOf s n).closing, .busy)]

def dmaEn (n : Nat) (on : Bool) (s : State) : State :=
  let was := rd s (K.DMA_EN n) == 1
  let s := wr (K.DMA_EN n) (b2n on) s
  if on == was then s
  else if on then
    let s := setClaim 3 n (dmaOwner n) (dmaSet n dsIdle { s with dma.chs := tabErase s.dma.chs n })
    if 2 ≤ rd s (K.PACING n) then dmaWatch s (rd s (K.PACE_SOURCE n) % 65536) else s
  else
    let s := dmaUpd n (fun x => { x with closing := true }) s
    let st := dmaState s n
    if st = dsHalted ∨ st = dsStopped then
      unclaim 3 n (dmaOwner n) (dmaSet n dsOff { s with dma.chs := tabErase s.dma.chs n })
    else dmaStop n s

/-- DMA_EN: key F000h + n:01. -/
def writeDmaEn (inst : Inst) (tag : Nat) (n : Fin 64) (on : Bool) (s : State) : State :=
  runWrite inst tag (0xF000 + n.val) 1 on (dmaEnStatus n.val on s) (dmaEn n.val on) s

/-- A warm reset, or a domain reset of PD9: every enabled channel IDLE, its registers at their reset values. -/
def dmaReset (s : State) : State :=
  let on := listedOn s 0xF000 64 1
  let s := ((List.range 64).filter (fun n => (dmaOf s n).closing)).foldl (fun s n => unclaim 3 n (dmaOwner n) (dmaSet n dsOff s)) s
  on.foldl (fun s n => dmaSet n dsIdle s) { s with dma.chs := [] }

end Sys2Proof.Machine
end

