-- ==== Sys2Proof/Machine/Modes.lean ====
section
/-! DEFINITION. Operating modes (R477–R481): what entering a mode does, the transitions and their handovers, SAFE; the start
of an entry to CALM, FROST or OFF and its abandonment (R427, R428); the legs of a hub that leaves or takes the active role,
and the switchover (R463). -/
namespace Sys2Proof.Machine

/-! ## Legs and the role (R457, R460) -/

/-- Legs with LEG_EN 1. -/
def legsOn (s : State) : List Nat := listedOn s 0x8000 20480 1

/-- The hub forwards no leg traffic: its legs' queues are flushed and DISABLED, what waits to be copied is dropped. -/
def legsDown (s : State) : State :=
  let s := (upLegs s).foldl (fun s l =>
    let s := flushQueue (qOut l) (flushQueue (qIn l) s)
    legUnlist (legPort s l) l
      (queueUpd (qIn l) (fun x => { x with disabled := true }) (queueUpd (qOut l) (fun x => { x with disabled := true }) s))) s
  { s with fwd.fan := s.fwd.fan.filter (fun f => (packetOf s f.pkt).isSome) }

/-- Enabled legs forward again; one whose enable came from the active hub starts. -/
def legsUp (s : State) : State :=
  (legsOn s).foldl (fun s l =>
    if isRetired s cLeg l then s
    else if legUp s l then
      queueUpd (qIn l) (fun x => { x with disabled := false }) (queueUpd (qOut l) (fun x => { x with disabled := false }) s)
    else legStart l s) s

/-- Next indices of every slot of the enabled legs, as ROLE carries them. -/
def finalIndices (s : State) : List (Nat × Nat × Nat) :=
  (legsOn s).flatMap (fun l => [0, 1, 2, 3].map (fun k => (l, k, (slotOf s l k).index)))

/-- No accepted entry waits for its commit. -/
def allCommitted (s : State) : Bool := s.sch.journal.all (fun e => decide (2 ≤ e.state))

/-! ## Entering a mode (R479, R481) -/

/-- HALL and HYBRID: the hall is on the hub mix. -/
def isHall (m : Nat) : Bool := m == mHall || m == mHybrid

/-- The instance writes made by the hub itself are entered under. -/
def hubInst : Inst := { tr := 6 }

/-- An enable is cleared, as a write accepted at entry. -/
def clearEnable (lo : Nat) (f : Nat → Bool → State → State) (s : State) (i : Nat) : State :=
  acceptWrite hubInst 0 (key (lo + i) 1 0) [0] (f i false) s

/-- Enables the mode does not allow are cleared. -/
def clearEnables (s : State) : State :=
  let s := (legsOn s).foldl (clearEnable 0x8000 legEn) s
  let s := (outsOn s).foldl (clearEnable 0xE000 outEn) s
  let s := (decsOn s).foldl (clearEnable 0xD000 decEn) s
  (encsOn s).foldl (clearEnable 0xD400 encEn) s

/-- A SAP stops with its claims and its configuration (R481). -/
def sapHalt (n : Nat) (s : State) : State :=
  if rd s (K.SAP_EN n) = 0 ∨ isRetired s cSap n then s else
  sapSync n (wr (K.ASRC_RATIO n) 0 (wr (K.ASRC_STATE n) 0 (wr (K.SAP_STATE n) sapOff (sapUpd n (fun _ => {}) s))))

/-- Legs, outputs, SAPs and endpoints stop, keeping their enables and claims (R481); codec contexts start no picture. -/
def featuresStop (s : State) : State :=
  let s := (outsOn s).foldl (fun s o =>
    let x := cmpOut s o
    let s := (x.waiting.toList ++ x.composing.toList).foldl (fun s p => picOver o p s) s
    cmpUpd o (fun x => { x with waiting := none, composing := none }) s) (legsDown s)
  let s := (List.range 8).foldl (fun s n => sapHalt n s) { s with cmp.current := none }
  (List.range 64).foldl (fun s e =>
    let s := if rd s (K.EP_EN_RX e) = 1 then wr (K.EP_STATE_RX e) epOff (rxUpd e (fun _ => {}) s) else s
    if rd s (K.EP_EN_TX e) = 1 then wr (K.EP_STATE_TX e) epOff (txUpd e (fun _ => {}) s) else s) s

/-- A leg starts again after a warm reset, which keeps its SRTP contexts (Table FLT-2): its slots go on from their next
indices. -/
def legResume (l : Nat) (s : State) : State :=
  let was := (legOf s l).slots
  let s := legStart l s
  if was.isEmpty then s else
  [0, 1, 2].foldl (fun s j => wr (K.SLOT_INDEX l j) (slotOf s l (j + 1)).index s)
    (legUpd l (fun x => { x with slots := tabMap {} x.slots (fun k y => { y with index := (tabGet {} was k).index }) }) s)

/-- Enabled features start again as after their enable; codec contexts restart (R343). `keep`: legs go on from their
indices. -/
def featuresStart (keep : Bool) (s : State) : State :=
  let s := (legsOn s).foldl (fun s l =>
    if isRetired s cLeg l then s else if keep then legResume l s else legStart l s) (vidRestart false s)
  let s := (List.range 8).foldl (fun s n =>
    if rd s (K.SAP_EN n) = 1 ∧ isRetired s cSap n = false then sapStart n s else s) s
  (List.range 64).foldl (fun s e =>
    let s := if rd s (K.EP_EN_RX e) = 1 then rxEn e true (wr (K.EP_EN_RX e) 0 s) else s
    if rd s (K.EP_EN_TX e) = 1 then txEn e true (wr (K.EP_EN_TX e) 0 s) else s) s

/-- R463: once its accepted entries are COMMITTED, the active hub hands the active role over. -/
def handOver (s : State) : State :=
  if s.pair.handing && allCommitted s && rd s K.ROLE == 1 then
    let e := rd s K.EPOCH + 1
    let s := pairSend (.role 2 1 e (finalIndices s)) (wr K.EPOCH e s)
    let n := lastAccepted s
    cmdComplete 0x0900 0x0D .ok (wr K.ROLE 2 (featuresStop { s with
      pair.handing := false, pair.holding := false, pair.held := n, pair.committed := n, boot.restart := true })) |> reselect
  else s

/-- The active hub stops taking new work and hands over when its accepted entries are COMMITTED. -/
def switchover (s : State) : State :=
  if rd s K.ROLE = 1 then
    handOver { s with pair.handing := true, pair.holding := true, pair.holdAt := clk s }
  else s

/-- R472: the hub has entered the mode of step 9 of a cold boot: the trial is over. -/
def trialEnd (s : State) : State :=
  upd s.boot.trial (headerPut (fun b => { b with trial := false })) { s with boot.coldEntry := false }

/-- A mode is entered: MODE, MODE_SINCE, the talker manager, the enables the mode does not allow, SAFE's features. -/
def enterMode (t : Nat) (s : State) : State :=
  let was := modeOf s
  let again := s.boot.restart
  let s := wr K.MODE_SINCE (nowNs s) (wr K.MODE t s)
  let s := upd (t != mHallDefault) (fun s => { s with mix.leftDefault := true }) s
  let s := upd (!mediaMode t && t != mSafe) clearEnables s
  let s := upd (isHall t && (!isHall was || again)) tmEnter (upd (isHall was && !isHall t) tmLeave s)
  let s := upd s.boot.coldEntry trialEnd s
  let s := { s with boot.restart := false, boot.safeHolds := t == mSafe && s.boot.safeHolds }
  if t = mSafe then featuresStop s else if was = mSafe ∨ again = true then featuresStart again s else s

/-! ## Conditions of Table BOOT-4 -/

/-- A leg, a codec context or a composition output is enabled. -/
def mediaEnabled (s : State) : Bool :=
  !(legsOn s).isEmpty || !(decsOn s).isEmpty || !(encsOn s).isEmpty || !(outsOn s).isEmpty

/-- R427: nothing is enabled, no talker is open, no vote session is OPEN or waits for its seal. -/
def sleepReady (s : State) : Bool :=
  !mediaEnabled s && (List.range 8).all (fun n => rd s (K.SAP_EN n) == 0)
    && (List.range 64).all (fun e => rd s (K.EP_EN_RX e) == 0 && rd s (K.EP_EN_TX e) == 0)
    && s.mix.tm.opened.isEmpty
    && (List.range 16).all (fun v => rd s (K.VOTE_STATE v) != vsOpen && rd s (K.VOTE_STATE v) != vsClosed)

/-- Targets listed for a mode. SERVICE is allowed from SAFE for a failed pool alone. -/
def modeTargets (s : State) : List Nat :=
  let m := modeOf s
  if m = mHallDefault then [1, 2, 3, 4, 7] else if m = mHall then [0, 2, 4] else if m = mHybrid then [0, 1, 4]
  else if m = mBridge then [0, 4] else if m = mStandby then [0, 1, 2, 3, 7]
  else if m = mSafe then (if s.boot.safeCauses = [4] then [0, 1, 2, 3, 4, 7] else [0, 1, 2, 3, 4])
  else if m = mService then [0, 4] else []

/-- The conditions of a target, from the current mode. -/
def modeReady (t : Nat) (s : State) : Bool :=
  let m := modeOf s
  (!isHall t || (lanokUp s && decide (fieldState s ≤ 1)))
    && (!(t == mHybrid || t == mBridge) || pdState s 11 == pdRun)
    && (t != mStandby || sleepReady s)
    && (!((m == mHybrid || m == mBridge) && (t == mHall || t == mHallDefault)) || !mediaEnabled s)
    && (m != mSafe || t == mService || s.boot.safeCauses.isEmpty)
    && (m != mService || s.boot.busy.isEmpty && s.pkt.testing.isNone)

/-- MODE_REQUEST's status. -/
def modeStatus (t : Nat) (s : State) : Status :=
  let same := t == modeOf s
  checks [
    (decide (7 < t), .range),
    (decide (t ≤ 7) && !same && !(modeTargets s).contains t, .mode),
    (s.boot.transition.isSome || s.pwr.entry.isSome, .busy),
    (!same && !modeReady t s, .busy), (!same, .pending)]

/-! ## The start of an entry (Table PWR-3) -/

/-- The hub reads host queues again, and takes what its ports hold. -/
def intakeOpens (s : State) : State := retryHeld (wr K.HUB_PSTATE hpRun s)

/-- R428: an entry is abandoned. -/
def entryAbandon (s : State) : State :=
  match s.pwr.entry with
  | none => s
  | some e =>
    let s := upd (fieldState s == fsCalm) (lanokSend true (.power 1 0)) { s with pwr.entry := none, pwr.lastActive := clk s }
    let s := intakeOpens (pwrEvt 1 (bump K.ENTRY_ABORTS s))
    if e.depth = 4 then cmdComplete 0x0400 4 .busy s
    else if e.again then s
    else cmdComplete 0x0001 2 .busy { s with boot.transition := none }

/-- Abort point: a wake source is pending. -/
def entryAbort (s : State) : State :=
  match s.pwr.entry with
  | some e => if e.wake.isSome then entryAbandon s else s
  | none => s

/-- Step 3 is done: the field die is in CALM, or stays awake where it need not sleep. Abort point E1. -/
def entryCalm (s : State) : State :=
  match s.pwr.entry with
  | some e => entryAbort { s with pwr.entry := some { e with step := 3 } }
  | none => s

/-- An open MIC or a PENDING event at the field die (R103). -/
def fieldBusy (s : State) : Bool :=
  !s.fld.hd.opened.isEmpty || (allServed s).any (fun n => (nodeOf s n).hs == 1 || !(openMics s n).isEmpty)

/-- Step 2 is done: POWER CALM is sent to the field die. A hub that falls asleep again sends it only when no MIC is open
and no event PENDING (R480). -/
def entryField (s : State) : State :=
  match s.pwr.entry with
  | none => s
  | some e =>
    let s := { s with pwr.entry := some { e with step := 2 } }
    if !lanokUp s || fieldState s == fsCalm || (e.again && fieldBusy s) then entryCalm s
    else lanokSend true (.power 0 0) s

/-- The device arms a HALL_HANDOVER at the first field frame boundary at least 1 ms from now. -/
def armHandover (arg : Nat) (s : State) : Option (Nat × State) :=
  armDevice 1 { time := ceilTo framePeriod (s.isb.now + ms1) / ns1, typ := ltHallHandover, arg := arg } s

/-- An entry of a depth begins. -/
def entryStart (depth : Nat) (again : Bool) (s : State) : State :=
  wr K.HUB_PSTATE hpEntering
    { s with pwr.entry := some { step := 1, depth := depth, again := again, t0 := clk s } }

/-! ## Transitions -/

/-- The transition's entry actions have run. -/
def transitionDone (t : Nat) (s : State) : State :=
  cmdComplete 0x0001 2 .ok (enterMode t { s with boot.transition := none })

/-- The handover of a transition has fired, or was not needed. -/
def transitionGo (t : Nat) (s : State) : State :=
  if t = mStandby then entryField { s with boot.transition := some (t, none) } else transitionDone t s

/-- R479: a transition starts. -/
def transitionStart (t : Nat) (s : State) : State :=
  let m := modeOf s
  let s := { s with boot.transition := some (t, none) }
  let s := upd (t == mStandby) (entryStart (2 + rd s K.STANDBY_DEPTH) false) s
  let handed := if t = mStandby then lanokUp s && (isHall m || fieldState s == fsHub)
    else if isHall t then !isHall m else isHall m && lanokUp s
  if handed then
    match armHandover (b2n (!isHall t)) s with
    | some (n, s) => { s with boot.transition := some (t, some n) }
    | none => transitionGo t s
  else transitionGo t s

/-- A transition is given up. -/
def transitionFail (s : State) : State :=
  match s.boot.transition with
  | none => s
  | some _ => if s.pwr.entry.isSome then entryAbandon s else cmdComplete 0x0001 2 .busy { s with boot.transition := none }

/-- MODE_REQUEST: key 0001:02. -/
def writeModeRequest (inst : Inst) (tag mode : Nat) (s : State) : State :=
  runPending inst tag 0x0001 2 (leBytes 1 mode) (modeStatus mode s) (transitionStart mode) s

/-- R481: the hub enters SAFE for a cause of Table BOOT-5; one met during a boot takes effect at its end (R475). -/
def enterSafe (cause : Nat) (s : State) : State :=
  let s := { s with
    boot.safeCauses := if s.boot.safeCauses.contains cause then s.boot.safeCauses else s.boot.safeCauses ++ [cause]
    boot.safeHolds := s.boot.safeHolds || cause != 0 }
  let m := modeOf s
  if m = mSafe ∨ s.boot.recovery = true ∨ s.boot.step < 9 then s else
  let s := upd (pairHealthy s) switchover s
  let s := transitionFail { s with boot.modeBefore := m }
  let s := if isHall m && lanokUp s then (match armHandover 1 s with | some (_, s) => s | none => s) else s
  enterMode mSafe s

/-- A cause of SAFE is cleared. -/
def safeCleared (cause : Nat) (s : State) : State :=
  { s with boot.safeCauses := s.boot.safeCauses.filter (· != cause) }

/-- The hub leaves SAFE by itself for the mode it held, or for HALL_DEFAULT when that mode's conditions do not hold. -/
def leaveSafe (s : State) : State :=
  if modeOf s ≠ mSafe ∨ s.boot.safeCauses ≠ [] ∨ s.boot.safeHolds = true then s else
  let t := s.boot.modeBefore
  transitionStart (if t != mService && t != mIsland && modeReady t s then t else mHallDefault) s

/-! ## HALL_HANDOVER (R102, R226) -/

/-- HALL_HANDOVER: at its sample boundary the downstream channels cross-fade; the field die takes or gives up the hall;
the mode transition that armed it goes on, and the talker manager adopts the hall's microphones. -/
def execHallHandover (s : State) : Res :=
  match dueHeld s ltHallHandover (fieldNow s) (fun _ _ => true) with
  | none => .next s
  | some (num, h) =>
    let toHub := h.lr.arg % 2 == 0
    if toHub && !lanokUp s then .next (setHeld num none (report num 0xFF lsFailed 0 Status.noEntry.code s)) else
    let s := setHeld num none (report num 0xFF (if heldLate s (fieldNow s) h then lsLate else lsFired) 0 0 s)
    let s := startMixFade toHub (fieldNow s) s
    let s := if fieldState s = fsCalm then s
      else if toHub then setFieldState fsHub (hdHandBack s) else setFieldState fsDefault (hdAdopt s)
    let s := match s.boot.transition with
      | some (t, some n) => if n = num then transitionGo t s else s
      | _ => s
    .next (upd (toHub && tmActive s) tmAdopt s)

/-- A transition whose handover has failed: one into the hall is given up, one out of it goes on, since the hall is on
the floor mix. -/
def transitionCheck (s : State) : State :=
  match s.boot.transition with
  | some (t, some n) => if (launchOf s n).active then s else if isHall t then transitionFail s else transitionGo t s
  | _ => s

/-- LANOK_LINK_START. -/
def execLanokLinkStart (offset : Int) (s : State) : Res := .next (transitionCheck (linkStart offset s))

end Sys2Proof.Machine
end

