-- ==== Sys2Proof/Machine/Dram.lean ====
section
/-! DEFINITION. The DDR4 memory controller (chapter MEM): the mapping of addresses, ECC, refresh, activation counting,
training, channel retirement. -/
namespace Sys2Proof.Machine

/-- CH_STATE codes. -/
abbrev chAbsent : Nat := 0
abbrev chTraining : Nat := 1
abbrev chRun : Nat := 2
abbrev chRetraining : Nat := 3
abbrev chSelfRefresh : Nat := 4
abbrev chRetired : Nat := 5
def chState (s : State) (c : Nat) : Nat := rd s (K.CH_STATE c)

def ddrOf (s : State) (c : Nat) : DdrCh := tabGet {} s.mem.chs c
def ddrUpd (c : Nat) (f : DdrCh → DdrCh) (s : State) : State := { s with mem.chs := tabMod {} s.mem.chs c f }

/-- Set a bit of MEM.EVT; with the enable set too, vector 24 is signalled (R403). -/
def memEvt (b : Nat) (s : State) : State :=
  emitIf (bitOf s.mem.irqEn b) (.msix 24) { s with mem.evt := withBit s.mem.evt b true }

/-! ## Addresses (R387–R390) -/

/-- Requesters that reach local regions: scheduler, line cipher, the clusters that carry firmware accesses. -/
def localMay (requester : Nat) : Bool := requester == 2 || requester == 3 || decide (8 ≤ requester ∧ requester ≤ 15)

/-- The channel and channel offset of a hub address (R388). -/
def mapAddr (s : State) (a : Nat) : Nat × Nat :=
  let n := max 1 s.mem.active.length
  let g := max 1 s.mem.grain
  (s.mem.active.getD (a / g % n) 0, a / (g * n) * g + a % g)

/-- Ranks of a channel, from CH_GEOMETRY. -/
def ranksOf (s : State) (c : Nat) : Nat := rd s (K.CH_GEOMETRY c) % 16

/-- R389: rank, bank (0–15) and row of a channel offset. -/
def dramPlace (ranks x : Nat) : Nat × Nat × Nat :=
  let row := if ranks = 2 then x / 262144 else x / 131072
  let bg := Nat.xor (x / 8192 % 4) (row % 4)
  let bank := Nat.xor (x / 32768 % 4) (row / 4 % 4)
  (if ranks = 2 then x / 131072 % 2 else 0, bg * 4 + bank, row)

/-- The layout of R388 over the active channels; MEM_SIZE follows. -/
def setActive (l : List Nat) (s : State) : State :=
  let g := max 1 s.mem.grain
  let give := fun c => rd s (K.CH_SIZE c) - localSize
  let u := match l with
    | [] => 0
    | c :: t => t.foldl (fun m d => min m (give d)) (give c) / g * g
  let s := { s with mem.active := l, mem.unit := u }
  wr K.ACTIVE_CHANNELS (l.foldl (fun v c => v + 2 ^ c) 0) (wr K.MEM_SIZE (l.length * u) s)

/-- Two mebibytes and gibibytes. -/
abbrev mib2 : Nat := 0x200000
abbrev gib : Nat := 0x40000000

/-- R390: the default layout for a size; the video pool shrinks when the areas do not fit. -/
def defaultLayout (size : Nat) : Nat × Nat × Nat :=
  let spill := size - 2 * gib
  if 11 * gib ≤ size then (spill, size - 10 * gib, 8 * gib)
  else
    let v := (size - 3 * gib) / mib2 * mib2
    (spill, spill - v, v)

/-- Areas that no longer lie below MEM_SIZE take their default places (R390). -/
def relayout (s : State) : State :=
  let size := rd s K.MEM_SIZE
  let d := defaultLayout size
  let s := if rd s K.SPILL_BASE + 2 * gib ≤ size then s else wr K.SPILL_BASE d.1 s
  if rd s K.VPOOL_BASE + rd s K.VPOOL_SIZE ≤ size then s else wr K.VPOOL_BASE d.2.1 (wr K.VPOOL_SIZE d.2.2 s)

/-! ## Activation counting (R396) -/

/-- The entry to replace: the lowest-numbered of those with the lowest count. -/
def lowestCount : List ActEntry → Nat → Option (Nat × Nat) → Option Nat
  | [], _, b => b.map (·.1)
  | e :: t, i, b => lowestCount t (i + 1) (match b with
    | some (j, c) => if e.count < c then some (i, e.count) else some (j, c)
    | none => some (i, e.count))

/-- A row is activated: the bank's table after it, and whether its neighbours are refreshed. -/
def activate (threshold row : Nat) (t : List ActEntry) : List ActEntry × Bool :=
  let t := if t.any (fun e => e.row == row) then t.map (fun e => if e.row = row then { e with count := e.count + 1 } else e)
    else if t.length < 64 then t ++ [{ row := row, count := 1 }]
    else match lowestCount t 0 none with
      | some i => t.mapIdx (fun j e => if j = i then { row := row, count := e.count + 1 } else e)
      | none => t
  if t.any (fun e => e.row == row && decide (threshold ≤ e.count)) then
    (t.map (fun e => if e.row = row then { e with count := 0 } else e), true)
  else (t, false)

/-- Refreshes of a rank are issued: its rows are closed for them. -/
def refreshIssue (c rank n : Nat) (s : State) : State :=
  ddrUpd c (fun d => { d with
    ranks := tabMod {} d.ranks rank (fun r => { r with owed := r.owed - n })
    openRow := if n = 0 then d.openRow else d.openRow.filter (fun e => e.1 / 16 != rank) }) s

/-- R395: refreshes a rank may owe; one owed at the limit is issued ahead of every request. -/
abbrev refreshLimit : Nat := 8
def refreshFirst (c rank : Nat) (s : State) : State :=
  if refreshLimit ≤ (tabGet {} (ddrOf s c).ranks rank).owed then refreshIssue c rank 1 s else s

/-- Access to a line at a channel offset: its row is opened and counted, its rank leaves power-down. -/
def touchLine (c x : Nat) (s : State) : State :=
  let p := dramPlace (ranksOf s c) x
  let b := p.1 * 16 + p.2.1
  let s := refreshFirst c p.1 s
  let s := ddrUpd c (fun d => { d with
    ranks := tabMod {} d.ranks p.1 (fun r => { r with powerDown := false, lastUse := clk s }) }) s
  let d := ddrOf s c
  if tabGet 0 d.openRow b = p.2.2 + 1 then s
  else
    let r := activate (rd s K.ACT_THRESHOLD) p.2.2 (tabGet [] d.acts b)
    let s := ddrUpd c (fun d => { d with acts := tabSet [] d.acts b r.1, openRow := tabSet 0 d.openRow b (p.2.2 + 1) }) s
    if r.2 then bump (K.NEIGHBOUR_REFRESHES c) s else s

/-- Activation tables are emptied. -/
def actsEmpty (s : State) : State :=
  [0, 1, 2, 3].foldl (fun s c => ddrUpd c (fun d => { d with acts := [] }) s) s

/-- ACT_WINDOW: a window of 64 ms of Isobar begins. -/
def execActWindow (s : State) : Res := .next (if s.isb.now % (64 * ms1) = 0 then actsEmpty s else s)

/-! ## Requests (R391, R393, R399) -/

/-- The 64 B lines of a request as channel and channel offset, in address order. -/
def reqLines (s : State) (r : MemReq) : List (Nat × Nat) :=
  let n := match r.write with | some b => b.length | none => r.len
  let first := r.addr / 64
  (List.range ((r.addr + n + 63) / 64 - first)).map (fun i =>
    match r.channel with
    | some c => (c, rd s (K.CH_SIZE c) - localSize + (first + i) * 64)
    | none => mapAddr s ((first + i) * 64))

/-- The addresses exist, and the requester may use them. -/
def reqExists (s : State) (r : MemReq) : Bool :=
  let n := match r.write with | some b => b.length | none => r.len
  match r.channel with
  | some c => localMay r.requester && decide (r.addr + n ≤ localSize) && decide (1 ≤ chState s c ∧ chState s c ≤ 4)
  | none => decide (r.addr + n ≤ rd s K.MEM_SIZE)

/-- Where the store of octets holds a request's first octet. -/
def reqBase (r : MemReq) : Nat := match r.channel with | some c => localBase c + r.addr | none => r.addr

/-- Requests held at their channel or behind an earlier one of their requester (R393, R399). -/
def reqWaits (s : State) (held : List MemReq) (r : MemReq) : Bool :=
  held.any (fun h => h.requester == r.requester)
    || (reqLines s r).any (fun l => chState s l.1 == chRetraining || chState s l.1 == chSelfRefresh || chState s l.1 == chTraining)

/-- A channel holding nothing any more: its held requests complete with a bus error. -/
def dropHeld (gone : MemReq → Bool) (s : State) : State :=
  s.mem.held.foldl (fun s r => if gone r then emit (.memDone r.requester r.addr none) s else s)
    { s with mem.held := s.mem.held.filter (fun r => !gone r) }

/-- PD18 has no channel left: it is FAILED. -/
def memcFailed (s : State) : State :=
  if pdState s 18 = pdFailed then s else
  enterSafe 1 (markRetired cDomain 18 0 (pwrEvt 3 (wr (K.PD_STATE 18) pdFailed s)))

/-- R400, steps 1–3 of Table MEM-4: a channel is retired. -/
def chanRetire (c : Nat) (s : State) : State :=
  let s := dropHeld (fun r => (reqLines s r).any (fun l => l.1 == c)) s
  let s := ddrUpd c (fun _ => {}) (memEvt 2 (wr (K.CH_STATE c) chRetired s))
  let s := mirrorLost c (enterSafe 0 s)
  let s := setActive (s.mem.active.filter (· != c)) s
  let s := wr K.VANE_EN 0 { s with
    mem.cells := s.mem.cells.filter (fun e => decide (sramBase ≤ e.1 ∧ ¬(localBase c ≤ e.1 ∧ e.1 < localBase (c + 1))))
    mem.epoch := s.mem.epoch + 1, mem.lostBelow := s.sch.nextAccept
    mem.reinterleave := true
    sea.srtpIn := tabMap {} s.sea.srtpIn (fun _ x => { x with roc := 0, highest := [], wins := [], prevWins := [], rtcpWins := [] }) }
  if s.mem.active.isEmpty then memcFailed s else s

/-- An upset of a channel (R391, R443). -/
def chanUpset (c : Nat) (s : State) : State :=
  match upset cDdr c s with
  | (s, true) => chanRetire c s
  | (s, false) => s

/-- An uncorrectable error at a channel offset. -/
def chanBad (c x : Nat) (s : State) : State :=
  chanUpset c (memEvt 0 (wr (K.LAST_UE_OFFSET c) x (bump (K.UE_COUNT c) s)))

/-- Serve a request: its lines are accessed, corrected lines are written back, an uncorrectable error answers a bus error
and writes nothing. -/
def serve (r : MemReq) (s : State) : State :=
  let lines := reqLines s r
  let c := (lines.head?.map (·.1)).getD 0
  let s := lines.foldl (fun s l => touchLine l.1 l.2 s) s
  let s := bumpBy (K.PARITY_RETRIES c) (min 3 r.retries) (bumpBy (K.CE_COUNT c) r.corrected s)
  if r.bad || decide (3 < r.retries) then
    chanBad c ((lines.head?.map (·.2)).getD 0) (emit (.memDone r.requester r.addr none) s)
  else match r.write with
    | some b => emit (.memDone r.requester r.addr (some [])) (memWrite (reqBase r) b s)
    | none => emit (.memDone r.requester r.addr (some (match r.channel with
      | some ch => localRead s ch r.addr r.len
      | none => memRead s r.addr r.len))) s

/-- A request arrives: served in the order of its requester; held while a channel it needs trains or is in self-refresh. -/
def memArrive (r : MemReq) (s : State) : State :=
  if !reqExists s r then emit (.memDone r.requester r.addr none) s
  else if reqWaits s s.mem.held r then { s with mem.held := s.mem.held ++ [r] }
  else serve r s

/-- R16: requests of one cycle in the order of grant: lowest requester number first. -/
def insReq (r : MemReq) : List MemReq → List MemReq
  | [] => [r]
  | h :: t => if r.requester < h.requester then r :: h :: t else h :: insReq r t
def grantOrder (rs : List MemReq) : List MemReq := rs.foldl (fun l r => insReq r l) []

/-- MEM_REQUEST: the requests that arrive in one cycle. -/
def execMemRequest (rs : List MemReq) (s : State) : Res := .next ((grantOrder rs).foldl (fun s r => memArrive r s) s)

/-- Held requests that wait no more are served in order. -/
def serveHeld (s : State) : State :=
  s.mem.held.foldl (fun s r =>
    if reqWaits s s.mem.held r then { s with mem.held := s.mem.held ++ [r] }
    else if reqExists s r then serve r s
    else emit (.memDone r.requester r.addr none) s) { s with mem.held := [] }

/-- PATROL_SCRUB: the next line of an active channel, its local region included (R392). -/
def execPatrolScrub (c : Fin 4) (corrected bad : Bool) (s : State) : Res :=
  let c := c.val
  if chState s c ≠ chRun then .next s else
  let x := (ddrOf s c).scrub
  let next := if x + 64 < rd s (K.CH_SIZE c) then x + 64 else 0
  let s := touchLine c x (ddrUpd c (fun d => { d with scrub := next }) s)
  .next (if bad then chanBad c x s else upd corrected (bump (K.CE_COUNT c)) s)

/-! ## Refresh and power-down (R395, R402) -/

/-- The refresh interval of a channel's ranks: 3.9 µs when asked for, above 85 °C or without a sensor, else 7.8 µs. -/
def refreshInterval (s : State) (c : Nat) : Instant :=
  let t := rdI 16 s (K.CH_TEMP c)
  if rd s K.REFRESH_2X = 1 ∨ rd s (K.CH_TEMP c) = 0x8000 ∨ 85 * 8 < t then 3900 * ns1 else 7800 * ns1

/-- DRAM_REFRESH: an interval of a rank has elapsed; at most 8 stay owed. -/
def execDramRefresh (c : Fin 4) (rank : Fin 2) (issued : Fin 10) (s : State) : Res :=
  let c := c.val
  if ranksOf s c ≤ rank.val ∨ (chState s c ≠ chRun ∧ chState s c ≠ chRetraining)
      ∨ clk s < (tabGet {} (ddrOf s c).ranks rank.val).refreshAt + refreshInterval s c then .next s
  else
    -- one more is owed; at the limit one is issued at once
    let r := tabGet {} (ddrOf s c).ranks rank.val
    let n := max issued.val (r.owed + 1 - refreshLimit)
    .next (refreshIssue c rank.val n (ddrUpd c (fun d => { d with
      ranks := tabMod {} d.ranks rank.val (fun r => { r with owed := r.owed + 1, refreshAt := clk s }) }) s))

/-- PD_IDLE_EXPIRY: an idle rank enters precharge power-down. -/
def execPdIdleExpiry (c : Fin 4) (rank : Fin 2) (s : State) : Res :=
  let c := c.val
  let idle := rd s K.PD_IDLE * ns1
  if idle = 0 ∨ ranksOf s c ≤ rank.val ∨ chState s c ≠ chRun
      ∨ clk s < (tabGet {} (ddrOf s c).ranks rank.val).lastUse + idle then .next s
  else
    -- precharge closes every row of the rank
    .next (ddrUpd c (fun d => { d with
      ranks := tabMod {} d.ranks rank.val (fun r => { r with powerDown := true })
      openRow := d.openRow.filter (fun e => e.1 / 16 != rank.val) }) s)

/-! ## Training (R398, R399) -/

/-- A channel in service begins full training. -/
def fullTrain (c : Nat) (s : State) : State :=
  memEvt 1 (bump (K.FULL_TRAININGS c) (ddrUpd c (fun d => { d with tries := 0 }) (wr (K.CH_STATE c) chRetraining s)))

/-- PERIODIC_RETRAIN: at its instants; a margin below 40 ps or a drift out of range begins full training. -/
def execPeriodicRetrain (c : Fin 4) (margin pause : Nat) (inRange : Bool) (s : State) : Res :=
  let c := c.val
  if chState s c ≠ chRun ∨ s.isb.now % (100 * ms1) ≠ 25 * c * ms1 then .next s else
  let s := (List.range (ranksOf s c)).foldl (fun s r => refreshFirst c r s) s
  let s := wr (K.EYE_MARGIN c) margin (wr (K.RETRAIN_MAX c) (max pause (rd s (K.RETRAIN_MAX c))) s)
  .next (if margin < 40 ∨ inRange = false then fullTrain c s else s)

/-- A channel is retired, with its count (R443). -/
def chanFails (c : Nat) (s : State) : State :=
  chanRetire c (markRetired cDdr c (recentUpsets s cDdr c).length s)

/-- FULL_TRAINING_DONE: the channel returns to RUN and serves what it held; a failed attempt is repeated, at most 3
times. -/
def execFullTrainingDone (c : Fin 4) (ok : Bool) (s : State) : Res :=
  let c := c.val
  if chState s c ≠ chRetraining then .next s
  else if ok then .next (serveHeld (ddrUpd c (fun d => { d with tries := 0 }) (wr (K.CH_STATE c) chRun s)))
  else if (ddrOf s c).tries < 3 then .next (ddrUpd c (fun d => { d with tries := d.tries + 1 }) s)
  else .next (chanFails c s)

/-! ## Re-interleave and statistics -/

/-- R156: the item's PAYLOAD points into the interleaved DRAM: a kernel item's valid descriptors, a firmware item's own
layout. -/
def payloadInDram (it : Item) : Bool :=
  if 0x100 ≤ it.typ then [descrOf it 0, descrOf it 1].any (fun d => d.valid && decide (d.addr < sramBase))
  else Config.payloadInDram it.typ (leVal it.payload)

/-- R156: an item whose data firmware has restored is handled as after an ME fault, one whose data is lost is POISONED. -/
def payloadsLost (restored : List Nat) (s : State) : State :=
  let low := s.mem.lostBelow
  let lost (st : Staged) : Bool := decide (st.accept < low) && payloadInDram st.it
  let gone (st : Staged) : Bool := lost st && !restored.contains st.accept
  let s := poisonWhere gone { s with mem.lostBelow := 0 }
  let s := s.sch.journal.foldl (fun s e => match e.act with
    | .host st slot =>
      let st := { st with accept := e.accept }
      if e.state = 0 ∧ gone st = true then pendingEnds e.accept slot st (poison 0xFF st none s) else s
    | _ => s) s
  stopBanks ((List.range 128).foldl (fun s me =>
    match runningOn s me with
    | none => s
    | some st => if gone st then poison me st none (endRun me st s) else if lost st then redispatch me s else s) s)

/-- REINTERLEAVE_DONE: step 4 of Table MEM-4: the layout is set, payloads are restored or lost, codec contexts restart, the
pool leaves spill mode, the hub leaves SAFE. -/
def execReinterleaveDone (restored : List Nat) (s : State) : Res :=
  if !s.mem.reinterleave || s.mem.active.isEmpty then .next s else
  let s := vidRestart true (relayout (payloadsLost restored { s with mem.reinterleave := false }))
  let s := if rd s K.POOL_MODE = pmSpill ∧ s.pkt.testing.isNone then poolReturns s else s
  .next (leaveSafe (safeCleared 0 s))

/-- The counters of F410h–F413h and RETRAIN_MAX are cleared. -/
def memStatsClear (s : State) : State :=
  [0, 1, 2, 3].foldl (fun s c =>
    [K.CE_COUNT c, K.UE_COUNT c, K.NEIGHBOUR_REFRESHES c, K.FULL_TRAININGS c, K.PARITY_RETRIES c, K.RETRAIN_MAX c].foldl
      (fun s k => wr k 0 s) s) s

/-- MEM_STATS_CLEAR: key F400:0C. -/
def writeMemStatsClear (inst : Inst) (tag : Nat) (s : State) : State :=
  runCmd inst tag 0xF400 0x0C .ok memStatsClear s

/-! ## Self-refresh (R401) -/

/-- Every rank enters self-refresh: rows closed, activation tables emptied. -/
def selfRefresh (s : State) : State :=
  [0, 1, 2, 3].foldl (fun s c =>
    if chState s c = chRun ∨ chState s c = chRetraining then
      wr (K.CH_STATE c) chSelfRefresh (ddrUpd c (fun d => { d with openRow := [], acts := [] }) s)
    else s) s

/-- Channels leave self-refresh; one whose recentring fails begins full training. -/
def leaveSelfRefresh (failed : List Nat) (s : State) : State :=
  serveHeld ([0, 1, 2, 3].foldl (fun s c =>
    if chState s c = chSelfRefresh then (if failed.contains c then fullTrain c s else wr (K.CH_STATE c) chRun s) else s) s)

end Sys2Proof.Machine
end

