-- ==== Sys2Proof/Machine/Reset.lean ====
section
/-! DEFINITION. What resets keep (Table FLT-2): the hub held in reset or without supply, the reset of one domain (R437), the
warm reset, the replay of the journal (R151). -/
namespace Sys2Proof.Machine

/-! ## The hub without supply, or held in reset -/

/-- Keys that outlive a cold reset of the hub: the part's identity, those of the field die, the counts of the records on
VDD_IO and in flash, and the RETURNED fuse. -/
def coldKeeps (k : Nat) : Bool :=
  let i := keyIndex k
  (decide (0x1400 ≤ i ∧ i < 0x6000) && !(i == 0x1401 || i == 0x1402 || decide (0x1500 ≤ i ∧ i < 0x1510))
      && !(decide (0x2000 ≤ i) && keySub k == 0x0B))
    || decide (i = 0 ∧ keySub k ≤ 5) || k == K.STORM_HELD || k == K.STORM_FLASHED || k == K.RETURNED
    || decide (0x0815 ≤ i ∧ i ≤ 0x0817 ∧ keySub k = 4) || k == K.RETIRED_COUNT

/-- The hub is stopped and loses all but what the boot flash, VDD_IO and the field die hold (R445, R430). It starts again
from step 0 of Table BOOT-3. -/
def hubClear (s : State) : State :=
  let s := lanokDown (driveVme false (driveVsd false (clearChannels (fun t => !fieldChannel t) s)))
  let f := s.fld
  let b := s.boot
  let s := { s with
    regs := s.regs.filter (fun e => coldKeeps e.1)
    blobs := s.blobs.filter (fun e => coldKeeps e.1)
    isb := {}, sch := {}, dsp := {}, sap := {}, mix := {}, pkt := {}, trf := {}, fwd := {}, vid := {}, cmp := {}, dma := {}
    sea := {}
    mem := { epoch := s.mem.epoch + 1 }
    fld := { f with
      hubEnd := {}, votes := [], lastVote := none, lost := false, up := [], upValid := []
      nodes := tabMap {} f.nodes (fun _ x => { x with isOpen := false })
      admitted := f.admitted.filter (fun a => !a.2.2)
      followerOffset := f.followerOffset + s.isb.now }
    dic := { persistId := s.dic.persistId, persist := s.dic.persist, persistBlobs := s.dic.persistBlobs }
    pwr := { hpwrEn := s.pwr.hpwrEn, vmePg := s.pwr.vmePg, vsdPg := s.pwr.vsdPg }
    pair := { master := s.pair.master, takeAt := s.pair.takeAt, switchAt := s.pair.switchAt
              switchDone := s.pair.switchDone, masterChange := s.pair.masterChange }
    flt := { upsets := s.flt.upsets, retired := s.flt.retired, perstLow := s.flt.perstLow, pairRolePin := s.flt.pairRolePin }
    boot := { rstLow := b.rstLow, supply := b.supply, activeSlot := b.activeSlot, trial := b.trial, tries := b.tries
              genA := b.genA, genB := b.genB, header0Good := b.header0Good, header1Good := b.header1Good, slotA := b.slotA
              slotB := b.slotB, image := b.image, imageSig := b.imageSig, imageKey := b.imageKey, persistSeq0 := b.persistSeq0
              persistSeq1 := b.persistSeq1, persistGood0 := b.persistGood0, persistGood1 := b.persistGood1 } }
  wr K.LANOK_STATE 0 (upd s.diag.fuse (summary 8 true) (upd (!s.flt.retired.isEmpty) (summary 1 true) s))

/-- The hub is OFF: its supplies go (R430, R438). -/
def hubOff (s : State) : State :=
  let s := hubClear s
  if s.pwr.hpwrEn then emit (.pin "HPWR_EN" false) { s with pwr.hpwrEn := false } else s

/-! ## Units that start again -/

/-- Engines of a cluster lose their memories and what they ran; a tick slot's bank holds its entry values. -/
def enginesReset (c : Nat) (s : State) : State :=
  (List.range 16).foldl (fun s i =>
    let me := c * 16 + i
    let bank : Bank := match tickSlotOn s me with | some t => { kernel := rd s (K.T_KERNEL t) } | none => {}
    let s := match tickSlotOn s me with
      | some t => upd (tickOf s t).ran (tickLost me) s
      | none => s
    meUpd me (fun _ => { tick := bank }) s) s

/-- The packet engine starts again with an empty pool: no packet, copy or frame is left. -/
def poolReset (s : State) : State :=
  let s := { s with
    pkt := { disabledKept s.pkt with next := s.pkt.next, upsets := s.pkt.upsets, testing := s.pkt.testing }
    trf.ports := tabMap {} s.trf.ports (fun _ x => { active := x.active, upAt := x.upAt })
    fwd.fan := [], fwd.formed := [] }
  if rd s K.POOL_MODE = pmDraining then wr K.POOL_MODE pmPool s else s
where
  /-- queues stay disabled that are -/
  disabledKept (p : Pkt) : Pkt :=
    { queues := tabMap {} p.queues (fun _ x => { disabled := x.disabled, drops := x.drops, highEvents := x.highEvents })
      locked := p.locked }

/-- The mixing core keeps its banks and owners (R213) and loses its samples, ramps and histories. -/
def mixReset (s : State) : State :=
  let m := s.mix
  { s with mix := { inOwner := m.inOwner, outOwner := m.outOwner, xp0 := m.xp0, xp1 := m.xp1, ieq0 := m.ieq0, ieq1 := m.ieq1
                    oeq0 := m.oeq0, oeq1 := m.oeq1, tm := m.tm, langs := m.langs, legs := m.legs, cands := m.cands
                    leftDefault := m.leftDefault } }

/-- Pictures waiting or being composed are dropped; outputs go on at their next boundary. -/
def compReset (s : State) : State :=
  let s := s.cmp.outs.foldl (fun s e =>
    (e.2.waiting.toList ++ e.2.composing.toList).foldl (fun s p => picOver e.1 p s) s) s
  { s with cmp.current := none
           cmp.outs := tabMap {} s.cmp.outs (fun _ x => { x with waiting := none, composing := none }) }

/-- A codec instance is reset: the picture it works on is lost, as under R342. -/
def instReset (j : Nat) (s : State) : State :=
  if j < 2 then
    match vdecPick s j with
    | some c => if ((decOf s c).pics.head?.bind ReadyPic.started).isSome then popPic c s else s
    | none => s
  else
    match vencPick s with
    | some e => if ((encOf s e).pics.head?.bind EncPic.started).isSome then
        vencSync (shortenSweep e (encHead e (fun p => { p with cut := true, started := none }) s)) else s
    | none => s

/-- The memory controllers start again: contents kept, rows closed, activation tables empty. -/
def memcReset (s : State) : State :=
  [0, 1, 2, 3].foldl (fun s c => ddrUpd c (fun d => { d with openRow := [], acts := [] }) s)
    (dropHeld (fun _ => true) { s with mem.evt := 0, mem.irqEn := 0 })

/-! ## Replay (R151) -/

/-- An ACCEPTED host item enters the scheduler again through port 0, with its number, level, flow and instant. -/
def replayItem (e : JEntry) (s : State) : State :=
  match e.act with
  | .host st _ =>
    let st : Staged := { st with
      accept := e.accept, cluster := 8, anywhere := false, firstAt := none, waited := false, retries := e.retries
      due := if delayTicks st.it = 0 then 0 else e.time }
    match stageIn s st.it with
    | some (c, any) => place { st with cluster := c, anywhere := any } (bump (K.CL_STAGED c) s)
    | none => place { st with anywhere := true } s
  | _ => s

/-- An entry is replayed: a Vane record of its state; an ACCEPTED one runs again. -/
def replayEntry (s : State) (e : JEntry) : State :=
  if e.state = 1 ∨ e.state = 2 then
    let s := vane vReplay e.asItem e.accept 0xFF e.state s
    if e.state = 1 then replayItem e s else s
  else s

/-- The scheduler replays the journal: what was not accepted is lost, and its repeats with it; ACCEPTED items run again;
COMMITTED ones stand as they are, which is what reapplying them above the checkpoint leaves (R152; with an entry lost,
`replayValues`); numbering goes on above the highest number in the journal or the checkpoint. -/
def replayStart (s : State) : State :=
  let from_ := ((s.sch.cps.head?).map Snapshot.highest).getD 0
  let kept := s.sch.journal.filter (fun e => e.state != 0)
  let s := s.sch.journal.foldl (fun s e => match e.act with
    | .launchArm n _ => if e.state = 0 then freeLaunchClaims n (dropAssignClaim n s) else s
    | _ => s) s
  let s := { s with
    sch.journal := kept, sch.heldRepeats := [], dic.repeats := [], sch.ready := [], sch.hold := [], sch.delay := [], sch.running := []
    sch.inflight := [], sch.dispatches := [], sch.cpRunning := none, sch.replayAt := clk s
    sch.nextAccept := (s.sch.journal.foldl (fun n e => max n e.accept) from_) + 1 }
  let s := (List.range 8).foldl (fun s c => wr (K.CL_STAGED c) 0 s) (stopBanks s)
  let again := kept.filter (fun e => decide (from_ < e.accept))
  let s := wr K.REPLAYED again.length (wr K.SCHED_STATE (if pdState s 9 = pdFailed then 3 else 1) s)
  syncAccept (again.foldl replayEntry s)

/-! ## Engine firmware (R160) -/

/-- A firmware slot. -/
def slotAt (s : State) (n : Nat) : FwSlot := if n = 0 then s.boot.slotA else s.boot.slotB

/-- The copy of the image in a channel's local region has the digest of the image that runs. -/
def fwCopyGood (s : State) (c : Nat) : Bool :=
  let image := (slotAt s s.boot.booted).image
  let copy := memRead s (localBase c + imageArea) image.length
  copy == image || Config.sha384 (nats copy) == Config.sha384 (nats image)

/-- A cluster can load its engines from one mirror channel or the other; `bad` names copies that cannot be read. -/
def fwLoads (bad : List Nat) (s : State) : Bool := (mirrorChans s).any (fun c => !bad.contains c && fwCopyGood s c)

/-! ## Reset of one domain (R437) -/

/-- A domain's logic is reset; its retained SRAM and DRAM stay. -/
def domainReset (d : Nat) (s : State) : State :=
  if onVme d then enginesReset (d - 1) (stopBanks (clusterLost (d - 1) s))
  else if d = 9 then
    let s := dmaReset { s with sea.queue := [], sea.work := [], sea.keyData := List.replicate 64 0, sea.keyIrqEn := false, sea.keyStatus := 0
                               sea.keyDone := false, sch.evt := 0, sch.irqEn := 0, sch.sqs := [], sch.acceptHi := 0 }
    replayStart s
  else if d = 10 then poolReset s
  else if d = 11 then
    let s := { s with trf.ports := tabMap {} s.trf.ports (fun _ x => { active := x.active }) }
    let s := (List.range 8).foldl (fun s p =>
      if rd s (K.PORT_STATE p) = psUp then portDown p psTraining s else s) s
    if pairLinkUp s then wr K.PAIR_LINK_STATE 1 { s with pair.linkDownAt := s.isb.now, pair.unacked := [], pair.waiting := [] } else s
  else if d = 12 then { s with dic.mbx := [] }
  else if d = 13 then
    let s := mixReset { s with mix.refused := false }
    (List.range 8).foldl (fun s n => if rd s (K.SAP_EN n) = 1 ∧ !isRetired s cSap n then sapStart n (sapHalt n s) else s) s
  else if d ≤ 16 then instReset (d - 14) s
  else if d = 17 then cmpSync (compReset { s with cmp.status := 0, cmp.sigEvt0 := 0, cmp.sigEvt1 := 0, cmp.irqEn := 0 })
  else memcReset s

/-! ## Warm reset (R445, R446) -/

/-- The registers of the three BARs take their reset values. -/
def barsReset (s : State) : State :=
  let s := dmaReset s
  { s with
    isb.latchHi := [], isb.latchFrac := [], isb.launchEvt := 0
    sch.evt := 0, sch.irqEn := 0, sch.sqs := [], sch.acceptHi := 0
    pwr.evt := 0, pwr.irqEn := 0, mem.evt := 0, mem.irqEn := 0
    sea.keyData := List.replicate 64 0, sea.keyIrqEn := false, sea.keyStatus := 0, sea.keyDone := false
    cmp.status := 0, cmp.sigEvt0 := 0, cmp.sigEvt1 := 0, cmp.irqEn := 0
    mix.refused := false, dic.mbx := [] }

/-- The hub's units start again, features not yet; its ends of the links too. -/
def unitsReset (s : State) : State :=
  let s := (List.range 8).foldl (fun s c => enginesReset c s) (compReset (mixReset (poolReset s)))
  let s := featuresStop s
  let s := dropHeld (fun _ => true) { s with
    sea.queue := [], sea.work := [], mix.tm := { opens := s.mix.tm.opens }, mix.cands := [], mix.legs := []
    mix.langs := tabMap {} s.mix.langs (fun _ x => { x with desk := none, live := false })
    fwd.sources := [], fld.up := [], fld.upValid := []
    pwr.entry := none, pwr.waits := []
    dic.blob := [], dic.group := [], dic.groupAt := [], dic.flashing := none }
  let s := upd (lanokUp s) lanokDown s
  if hubPower s = hpEntering then wr K.HUB_PSTATE hpRun s else s

/-- A warm reset: the journal is replayed, the units start again, the mode held is entered again once replay has ended. An
accepted mode request that has not completed is not lost: its target is the mode entered. -/
def warmReset (cause : Nat) (s : State) : State :=
  let target := match s.boot.transition with | some (t, _) => t | none => modeOf s
  let s := wr K.LAST_RESET cause { s with boot.modeBefore := if modeOf s = mSafe then s.boot.modeBefore else target }
  let s := replayStart (barsReset (unitsReset { s with boot.transition := none, sch.held := [] }))
  { s with boot.restart := true, flt.wdtServed := clk s }

end Sys2Proof.Machine
end

