-- ==== Sys2Proof/Machine/Power.lean ====
section
/-! DEFINITION. The power controller (chapter PWR): power messages of the field die, parking, LULL, entry to CALM, FROST and
OFF, wake sources, wake steps and their failures, LIMP, temperature. -/
namespace Sys2Proof.Machine

/-! ## Wake sources and the latch (R431, R432) -/

/-- R432: once PD9 and PD18 run, or PD9 on the limp clock, latched events are delivered in order and their entries freed.
Each has its effect where it arose or in the message that follows it. -/
def latchReplay (s : State) : State :=
  if (pdState s 9 ≤ pdLull ∧ pdState s 18 ≤ pdLull) ∨ rd s K.LIMP = 1 then wr K.LATCH_COUNT 0 { s with pwr.latch := [] }
  else s

/-- A privileged event meets PD0. -/
def privileged (src data : Nat) (at_ : Instant) (s : State) : State :=
  if s.boot.step = 0 then s else latchReplay (wakeHub src (latchEvent src data at_ s))

/-- WAKE: the field die names its source. -/
def execWake (h : LHdr) (source data at_ : Nat) (s : State) : Res :=
  onLanok true true h (fun s =>
    if source = 2 ∨ source = 3 then privileged source data (at_ * ns1) s
    else if source = 0x10 ∨ source = 0x11 then wakeHub source s else s) s

/-- ISOBAR_ALARM: Isobar reaches key 1080:01. -/
def execIsobarAlarm (s : State) : Res :=
  let a := rd s K.ALARM
  if a = 0 ∨ s.isb.alarmDone = a ∨ s.isb.now < a * ns1 then .next s
  else .next (privileged 5 0 (a * ns1) { s with isb.alarmDone := a })

/-- HOST_WAKE_REQUEST: an inbound PCIe request; PD12 runs in CALM. -/
def execHostWakeRequest (s : State) : Res := .next (if hubPower s = hpCalm then wakeHub 0x13 s else s)

/-! ## Power messages (R103) -/

/-- The field die enters CALM: its trunks stop framing. -/
def fieldCalm (s : State) : State :=
  setFieldState fsCalm s

/-- A power message reaches the field die: a request for CALM, or for RUN. -/
def powerAtField (kind : Nat) (s : State) : State :=
  if kind = 0 then
    if fieldState s = fsCalm then lanokSend false (.power 2 0) s
    else if fieldBusy s then lanokSend false (.power 3 Status.busy.code) s
    else lanokSend false (.power 2 0) (fieldCalm s)
  else if kind = 1 then lanokSend false (.power 2 1) (fieldWake s)
  else s

/-- A power message reaches the hub: a grant, a refusal, or the wake of R119. -/
def powerAtHub (kind arg : Nat) (s : State) : State :=
  let entering := match s.pwr.entry with | some e => e.step == 2 | none => false
  if kind = 2 then
    if arg = 0 ∧ entering = true then entryCalm s else cmdComplete (0x0420 + 19) 2 .ok s
  else if kind = 3 then (if entering then entryAbandon s else cmdComplete (0x0420 + 19) 2 .busy s)
  else if kind = 4 then wakeHub 0x11 s
  else s

/-- POWER. -/
def execPower (atHub : Bool) (h : LHdr) (kind arg : Nat) (s : State) : Res :=
  onLanok atHub true h (fun s => if atHub then powerAtHub kind arg s else powerAtField kind s) s

/-! ## Domains that stop -/

/-- A cluster's keys follow its domain: `cl` for CL_STATE, `me` for the engines that are neither retired nor failed. -/
def clusterFollows (c cl me : Nat) (s : State) : State :=
  (List.range 16).foldl (fun s i =>
    if rd s (K.ME_STATE (c * 16 + i)) < 3 then wr (K.ME_STATE (c * 16 + i)) me s else s) (wr (K.CL_STATE c) cl s)

/-- A domain goes to CALM or FROST. In FROST an engine's memories, a cluster's staging half, the cell pool and the samples of
the mixing core are lost (R424). -/
def parkDomain (d st : Nat) (s : State) : State :=
  let s := wr (K.PD_STATE d) st (leaveLull d s)
  if onVme d then
    let s := clusterFollows (d - 1) st 2 s
    if st = pdFrost then stagingLost (d - 1) (enginesReset (d - 1) s) else s
  else if d = 10 ∧ st = pdFrost then poolReset s
  else if d = 13 ∧ st = pdFrost then mixReset s
  else s

/-- The pair link's lanes lose their domain, or get it back. -/
def pairLanes (up : Bool) (s : State) : State :=
  if rd s K.PAIR_LINK_STATE = 0 ∧ up = false then s
  else if up then (if rd s K.ROLE = 0 then s else wr K.PAIR_LINK_STATE 1 s)
  else wr K.PAIR_LINK_STATE 0 { s with pair.linkDownAt := clk s, pair.unacked := [], pair.waiting := [] }

/-- Data ports lose their links without an upset (R427) and train again on wake. -/
def portsAsleep (s : State) : State :=
  (List.range 8).foldl (fun s p => if rd s (K.PORT_STATE p) = psUp then portDown p psTraining s else s) s

/-- Essential domains of Table PWR-2: a failure of one puts the hub in SAFE. -/
def essentialLost (s : State) : Bool :=
  [9, 10, 13, 18].any (fun d => decide (6 ≤ pdState s d))
    || (hubDomains.filter onVme).all (fun d => decide (6 ≤ pdState s d))
    || ((modeOf s == mHybrid || modeOf s == mBridge) && decide (6 ≤ pdState s 11))

/-- The hub is awake once no domain is WAKING (R422). -/
def hubAwake (s : State) : State :=
  if hubPower s = hpWaking ∧ hubDomains.all (fun d => pdState s d != pdWaking) = true ∧ 9 ≤ s.boot.step then
    intakeOpens (pwrEvt 0 (wr K.LAST_WAKE_TIME ((clk s - s.pwr.wakeAt) / us1) s))
  else s

/-- Commands that waited for a domain end (R426). -/
def waitsEnd (d : Nat) (st : Status) (s : State) : State :=
  let l := s.pwr.waits.filter (fun w => w.1 == d)
  l.foldl (fun s w => cmdComplete w.2.1 w.2.2 st s) { s with pwr.waits := s.pwr.waits.filter (fun w => w.1 != d) }

/-- A domain is out of service, `st` 6 RETIRED or 7 FAILED: what its units do then. -/
def domainGone (d st : Nat) (s : State) : State :=
  let s := domainUpd d (fun _ => {}) (wr (K.PD_STATE d) st s)
  let s :=
    if onVme d then (List.range 16).foldl (fun s i => wr (K.ME_STATE ((d - 1) * 16 + i)) (if st = 7 then 4 else 3) s)
        (clusterGone (d - 1) (if st = 7 then 5 else 4) s)
    else if d = 11 then pairLanes false (portsAsleep s)
    else if 14 ≤ d ∧ d ≤ 16 then wr (K.INST_STATE (d - 14)) (if st = 7 then 3 else 2) (instRetired (d - 14) s)
    else if d = 17 then wr K.COMP_STATE 2 (compReset s)
    else if d = 9 ∧ st = pdFailed then wr K.SCHED_STATE 3 s
    else s
  hubAwake (upd (essentialLost s) (enterSafe 1) (waitsEnd d .retired s))

/-- R434: a domain is FAILED at a step. -/
def domainFail (d step : Nat) (s : State) : State :=
  if pdState s d = pdFailed then s else
  let s := storm 0x0011 (stormChannel cDomain d) [step, rd s (K.PD_RETRIES d)] (pwrEvt 3 (wr (K.PD_FAIL_STEP d) step s))
  domainGone d pdFailed (markRetired cDomain d (recentUpsets s cDomain d).length s)

/-! ## Parking (R426) -/

/-- Domains marked Never. -/
def neverParks (d : Nat) : Bool := [0, 9, 10, 12, 13, 18].contains d

/-- The condition of Table PWR-2 under which a domain parks. -/
def parkable (d : Nat) (s : State) : Bool :=
  if onVme d then
    rd s (K.CL_STAGED (d - 1)) == 0
      && (List.range 8).all (fun t => rd s (K.T_EN t) == 0 || rd s (K.T_ACTIVE_ME t) / 16 != d - 1)
      && hubDomains.any (fun e => onVme e && e != d && decide (pdState s e ≤ pdLull))
  else if d = 11 then
    (List.range 8).all (fun p => rd s (K.PORT_EN p) == 0) && rd s (K.TP_EN 1) == 0 && rd s K.PTP_PORT != 8
      && rd s K.PAIR_EN == 0
  else if d = 14 ∨ d = 15 then (decsOn s).all (fun c => rd s (K.DEC_ON c) != d - 14)
  else if d = 16 then (encsOn s).isEmpty
  else if d = 17 then (outsOn s).isEmpty
  else false

/-- Status of a request for a state: 0 RUN, 2 CALM, 3 FROST. -/
def pdRequestStatus (d st : Nat) (s : State) : Status :=
  let now := if d = 19 then (if fieldState s = fsCalm then pdCalm else pdRun) else pdState s d
  checks [
    (decide (19 < d), .noEntry),
    (st != 0 && (neverParks d || (d == 19 && st == pdFrost)), .range),
    (d != 19 && decide (6 ≤ now), .retired),
    (now == st || (st == 0 && now == pdLull), .ok),
    (d == 19 && !lanokUp s, .busy),
    (d != 19 && st != 0 && (now == pdWaking || !parkable d s), .busy),
    (true, .pending)]

/-- The request's effect: a parked domain has reached its state in this step; a wake runs its order; PD19 is asked. -/
def pdRequestGo (d st : Nat) (s : State) : State :=
  if d = 19 then lanokSend true (.power (if st = 0 then 1 else 0) 0) s
  else if st = 0 then wakeDomain d { s with pwr.waits := s.pwr.waits ++ [(d, 0x0420 + d, 2)] }
  else cmdComplete (0x0420 + d) 2 .ok (parkDomain d st s)

def pdRequest (inst : Inst) (tag d st : Nat) (s : State) : State :=
  runPending inst tag (0x0420 + d) 2 (leBytes 1 st) (pdRequestStatus d st s) (pdRequestGo d st) s

def writePdRequestRun (inst : Inst) (tag d : Nat) (s : State) : State := pdRequest inst tag d 0 s
def writePdRequestCalm (inst : Inst) (tag d : Nat) (s : State) : State := pdRequest inst tag d pdCalm s
def writePdRequestFrost (inst : Inst) (tag d : Nat) (s : State) : State := pdRequest inst tag d pdFrost s

/-- A domain is reset; a cluster loads its firmware before it starts, and is FAILED when both copies are bad (R160). -/
def pdResetGo (d : Nat) (s : State) : State :=
  let s := domainReset d s
  if onVme d && !fwLoads [] s then domainFail d 3 s else s

/-- PD_RESET: key 0420h + d:04. -/
def writePdReset (inst : Inst) (tag d : Nat) (s : State) : State :=
  runCmd inst tag (0x0420 + d) 4
    (checks [(decide (19 < d), .noEntry), (d == 0 || d == 19, .range)]) (pdResetGo d) s

/-! ## LULL (R425) -/

/-- LULL_ENTRY: unit 0–127 an engine, 128–135 a cluster, 136–139 VDEC0, VDEC1, VENC, the compositor: idle for its time. -/
def execLullEntry (unit : Fin 140) (s : State) : Res :=
  let u := unit.val
  let d := if u < 128 then 1 + u / 16 else if u < 136 then u - 127 else u - 122
  if rd s (K.LULL_EN d) = 0 ∨ pdState s d ≠ pdRun then .next s
  else if u < 128 then
    .next (if rd s (K.ME_STATE u) = 0 ∧ (runningOn s u).isNone ∧ (tickSlotOn s u).isNone then wr (K.ME_STATE u) 1 s else s)
  else if u < 136 then
    let c := u - 128
    .next (if rd s (K.CL_STATE c) = 0 ∧ (List.range 16).all (fun i => rd s (K.ME_STATE (c * 16 + i)) != 0) = true then
      enterLull d (wr (K.CL_STATE c) 1 s) else s)
  else if u < 139 then
    let j := u - 136
    let idle := if j < 2 then (vdecPick s j).isNone else (vencPick s).isNone
    .next (if rd s (K.INST_STATE j) = 0 ∧ idle = true then enterLull d (wr (K.INST_STATE j) 1 s) else s)
  else
    .next (if rd s K.COMP_STATE = 0 ∧ s.cmp.current.isNone ∧ s.cmp.outs.all (fun e => e.2.waiting.isNone) = true then
      enterLull d (wr K.COMP_STATE 1 s) else s)

/-! ## Entry (R428, R430) -/

/-- HUB_OFF: key 0400:04. -/
def writeHubOff (inst : Inst) (tag : Nat) (s : State) : State :=
  let st := checks [(modeOf s != mStandby, .mode), (s.boot.transition.isSome || s.pwr.entry.isSome || !sleepReady s, .busy),
    (true, .pending)]
  runCmd inst tag 0x0400 4 st (fun s => entryField (entryStart 4 false s)) s

/-- The drain has ended: no item waits or runs, no DMA channel is RUNNING; for OFF every RWP value is in flash and no entry
is ACCEPTED. -/
def drained (s : State) (depth : Nat) : Bool :=
  s.sch.ready.all (fun e => e.2.isEmpty) && s.sch.hold.all (fun e => e.2.isEmpty)
    && s.sch.running.all (fun e => e.2.isNone) && (listedOn s 0xF000 64 1).all (fun n => rd s (K.DMA_STATE n) != dsRunning)
    && (depth != 4 || (s.dic.dirty.isEmpty && s.dic.flashing.isNone && allCommitted s))

/-- Steps 5 and 6 of Table PWR-3. -/
def entryDown (depth : Nat) (again : Bool) (s : State) : State :=
  let s := pairLanes false (portsAsleep (selfRefresh s))
  let s := hubDomains.foldl (fun s d =>
    if pdState s d ≤ pdLull ∧ !(d = 12 ∧ depth = 2) then parkDomain d depth s
    else if pdState s d = pdCalm ∧ depth = 3 then parkDomain d depth s else s) s
  let s := upd (depth == 3) (fun s => driveVme false (driveVsd false s)) s
  let s := wr K.HUB_PSTATE depth { s with pwr.entry := none }
  if again then s else transitionDone mStandby s

/-- DRAIN_COMPLETE: a checkpoint is written, abort points E2 and E3 are passed, and the hub sleeps or is OFF. -/
def execDrainComplete (s : State) : Res :=
  match s.pwr.entry with
  | none => .next s
  | some e =>
    if e.step ≠ 3 ∨ drained s e.depth = false then .next s
    else
      let s := checkpointDone (checkpointStart s)
      if e.wake.isSome then .next (entryAbandon s)
      else if e.depth = 4 then .next (hubOff (cmdComplete 0x0400 4 .ok s))
      else .next (entryDown e.depth e.again s)

/-- DRAIN_TIMEOUT. -/
def execDrainTimeout (s : State) : Res :=
  match s.pwr.entry with
  | none => .next s
  | some e => .next (if e.t0 + rd s K.DRAIN_TIMEOUT * ms1 ≤ clk s then entryAbandon s else s)

/-- STANDBY_IDLE_TIMEOUT (R480): 10 s without a request or node event, nothing due within the next 10 s. -/
def execStandbyIdleTimeout (s : State) : Res :=
  let soon := s.isb.now + 10 * s1
  let due := s.isb.launches.any (fun e => e.2.active && decide (e.2.instant ≤ soon))
    || (match delayFirst s with | some t => decide (t ≤ soon) | none => false)
  if modeOf s = mStandby ∧ hubPower s = hpRun ∧ s.boot.transition.isNone ∧ s.pwr.lastActive + 10 * s1 ≤ clk s
      ∧ due = false ∧ sleepReady s = true then
    .next (entryField (entryStart (2 + rd s K.STANDBY_DEPTH) true s))
  else .next s

/-! ## LIMP (R435) -/

/-- PD0 and PD9 run on the limp clock and every other domain is off; the hub is in SAFE. -/
def limpEnter (locks : Nat) (s : State) : State :=
  let s := hubDomains.foldl (fun s d =>
    if d = 9 then domainUpd 9 (fun _ => {}) (wr (K.PD_STATE 9) pdRun s)
    else if pdState s d < 6 then
      let s := domainUpd d (fun _ => {}) (wr (K.PD_STATE d) pdOff (leaveLull d s))
      if onVme d then clusterFollows (d - 1) 3 2 (stopBanks (clusterLost (d - 1) s)) else s
    else s) s
  let s := pairLanes false (portsAsleep (driveVme false (driveVsd false s)))
  let s := wr K.SCHED_STATE 2 (wr K.ISB_STATE isbLimp (wr K.LIMP 1 { s with pwr.entry := none }))
  let s := wr K.HUB_PSTATE hpRun (summary 2 true s)
  let s := storm 0x0012 (stormChannel 0xFF 0) [locks] (pwrEvt 2 s)
  let s := if s.boot.step = 1 then { s with boot.step := 10 } else s
  latchReplay (enterSafe 2 s)

/-- LIMP_ENTRY: the board oscillator has stopped, or the timebase or fabric PLL has not locked 10 ms after its start: in
the boot's first step, or in the oscillator step of a domain on them. -/
def execLimpEntry (osc : Bool) (locks : Nat) (s : State) : Res :=
  let starting := s.boot.step = 1 ∨ [9, 10, 13].any (fun d => pdState s d == pdWaking && (domainOf s d).step == 2) = true
  if s.boot.step = 0 ∨ rd s K.LIMP = 1 ∨ (osc = false ∧ ¬starting) then .next s
  else .next (limpEnter locks s)

/-! ## Wake steps (R433, R434, R436) -/

/-- A waking domain whose running step is `step`. -/
def atStep (s : State) (step d : Nat) : Bool := pdState s d == pdWaking && (domainOf s d).step == step

/-- Its next step begins. -/
def stepOn (step d : Nat) (s : State) : State :=
  if atStep s step d then domainUpd d (fun x => { x with step := step + 1, tries := 0, since := clk s }) s else s

/-- REGULATOR_READY: rail 0 VME_PG, 1 VSD_PG, each while its enable is high; 2 the on-die switch of a domain. -/
def execRegulatorReady (rail : Fin 3) (d : Nat) (s : State) : Res :=
  .next (if rail.val = 0 then
      (if s.pwr.vmeEn then (hubDomains.filter onVme).foldl (fun s d => stepOn 1 d s) { s with pwr.vmePg := true } else s)
    else if rail.val = 1 then
      (if s.pwr.vsdEn then (hubDomains.filter onVsd).foldl (fun s d => stepOn 1 d s) { s with pwr.vsdPg := true } else s)
    else if onVme d || onVsd d then s else stepOn 1 d s)

/-- PLL_LOCKED: every PLL a domain uses is locked. -/
def execPllLocked (d : Nat) (s : State) : Res := .next (stepOn 2 d s)

/-- The memory step of these domains waits for PD18 (R433). -/
def needsMemory (d : Nat) : Bool := onVme d || decide (14 ≤ d ∧ d ≤ 17)

/-- MEMORY_READY: SRAM is out of retention; a cluster has reloaded its firmware and kernels, both copies bad marks it FAILED
(R160); at a boot it waits for the copies; PD18's ranks have left self-refresh, `failed` naming channels whose recentring failed (R401). -/
def execMemoryReady (d : Nat) (failed bad : List Nat) (s : State) : Res :=
  if !atStep s 3 d || (needsMemory d && decide (pdLull < pdState s 18)) || (onVme d && decide (s.boot.step < 4)) then .next s
  else if onVme d && !fwLoads bad s && (domainOf s d).from_ != pdCalm then .next (domainFail d 3 s)
  else .next (stepOn 3 d (upd (d == 18) (leaveSelfRefresh failed) s))

/-- A domain is in RUN: its units start, what waited for it goes on. -/
def domainRun (d : Nat) (s : State) : State :=
  let from_ := (domainOf s d).from_
  let s := upd (from_ != pdOff) (bump (K.PD_WAKES d)) (domainUpd d (fun _ => {}) (wr (K.PD_STATE d) pdRun s))
  let s :=
    if onVme d then clusterFollows (d - 1) 0 0 s
    else if d = 11 then pairLanes true s
    else if d = 18 then (hubDomains.filter (fun e => needsMemory e && atStep s 3 e)).foldl (fun s e =>
      domainUpd e (fun x => { x with since := clk s }) s) s
    else if d = 14 ∨ d = 15 then vdecSync s else if d = 16 then vencSync s else if d = 17 then cmpSync s else s
  let s := latchReplay (waitsEnd d .ok s)
  let s := upd (s.boot.safeCauses.contains 1 && !essentialLost s) (safeCleared 1) s
  let s := hubAwake s
  if onVme d ∧ hubPower s = hpRun then retryHeld s else s

/-- LOGIC_READY. -/
def execLogicReady (d : Nat) (s : State) : Res := .next (if atStep s 4 d then domainRun d s else s)

/-- A retry of a regulator step takes its enable low and up again. -/
def railRetry (d : Nat) (s : State) : State :=
  if onVme d then driveVme true (driveVme false s) else if onVsd d then driveVsd true (driveVsd false s) else s

/-- Domains on the rail of a domain. -/
def sameRail (d e : Nat) : Bool := (onVme d && onVme e) || (onVsd d && onVsd e) || d == e

/-- Table PWR-5: the timeout of a wake step. -/
def stepTimeout (step : Nat) : Instant := [0, 5, 10, 5, 1].getD step 0 * ms1

/-- WAKE_STEP_TIMEOUT: the running step of a waking domain; an oscillator step on the timebase or fabric PLL is LIMP, else
it is retried twice, and the third timeout marks the domain FAILED, a regulator's every domain waiting for its rail. A memory step that waits for PD18 has not started. -/
def execWakeStepTimeout (d : Nat) (locks : Nat) (s : State) : Res :=
  if pdState s d ≠ pdWaking ∨ clk s < (domainOf s d).since + stepTimeout (domainOf s d).step
      ∨ ((domainOf s d).step = 3 ∧ needsMemory d = true ∧ pdLull < pdState s 18) then .next s else
  let x := domainOf s d
  if x.step = 2 ∧ [9, 10, 13].contains d = true then .next (limpEnter locks s)
  else if x.tries < 2 then
    let s := bump (K.PD_RETRIES d) (domainUpd d (fun y => { y with tries := y.tries + 1, since := clk s + (if x.step = 1 then ms1 else 0) }) s)
    .next (if x.step = 1 then railRetry d s else s)
  else if x.step = 1 then
    .next ((hubDomains.filter (fun e => sameRail d e && (e == d || atStep s 1 e))).foldl (fun s e => domainFail e 1 s) s)
  else .next (domainFail d x.step s)

/-- POWER_GOOD_LOSS: VME_PG (0) or VSD_PG (1) is low for 10 µs while its enable is high: each domain of the rail counts an
upset and begins its regulator step again. -/
def execPowerGoodLoss (rail : Fin 2) (s : State) : Res :=
  let vme := rail.val == 0
  if !(if vme then s.pwr.vmeEn else s.pwr.vsdEn) then .next s else
  let s := if vme then { s with pwr.vmePg := false } else { s with pwr.vsdPg := false }
  .next ((hubDomains.filter (fun d => if vme then onVme d else onVsd d)).foldl (fun s d =>
    if 6 ≤ pdState s d then s else
    match upset cDomain d (leaveLull d s) with
    | (s, true) => domainGone d pdRetired s
    | (s, false) =>
      let s := domainUpd d (fun _ => { step := 1, from_ := pdOff, since := clk s }) (wr (K.PD_STATE d) pdWaking s)
      if vme then clusterFollows (d - 1) 3 2 (enginesReset (d - 1) (stopBanks (clusterLost (d - 1) s)))
      else if d = 11 then pairLanes false (portsAsleep s) else s) s)

/-! ## Temperature (R438) -/

/-- TEMP_ALARM: DIE_TEMP (0.125 °C) reaches the alarm. -/
def execTempAlarm (temp : Int) (s : State) : Res :=
  let was := rdI 16 s K.DIE_TEMP
  let s := wrI 16 K.DIE_TEMP temp s
  let a := rdI 16 s K.TEMP_ALARM
  .next (if was < a ∧ a ≤ temp then bump K.TEMP_EVENTS (pwrEvt 4 s) else s)

/-- TEMP_SHUTDOWN: at 125 °C the hub is OFF at once. -/
def execTempShutdown (temp : Int) (s : State) : Res :=
  .next (if temp < 1000 ∨ s.boot.step = 0 then s
    else hubOff (storm 0x0050 (stormChannel 0xFF 0) [ofInt 16 temp] (wrI 16 K.DIE_TEMP temp s)))

end Sys2Proof.Machine
end

