-- ==== Sys2Proof/Machine/Faults.lean ====
section
/-! DEFINITION. Clearing and retiring channels (R444), the watchdog (R446), the host watch (R447) and the PCIe link (R490). -/
namespace Sys2Proof.Machine

/-! ## Channels (R442–R444) -/

/-- Instances of each channel type of Table FLT-1. -/
def channelCount (typ : Nat) : Nat := [128, 8, 4, 8, 8, 8, 16, 16384, 20480, 3, 20, 2].getD typ 0

/-- Type and instance CH_SELECT names for a transport instance. -/
def chType (i : Inst) (s : State) : Nat := rd s (K.CH_SELECT (instNum i)) / 16777216
def chInst (i : Inst) (s : State) : Nat := rd s (K.CH_SELECT (instNum i)) % 65536

/-- The selection names an instance; PD0 and the field die (PD19) are never retired (Table PWR-2). -/
def chStatus (i : Inst) (s : State) : Status :=
  let t := chType i s
  let n := chInst i s
  checks [(decide (channelCount t ≤ n) || (t == cDomain && (n == 0 || n == 19)), .range)]

/-- An engine is in service again: running, or off with its cluster. -/
def meCleared (me : Nat) (s : State) : State :=
  wr (K.ME_STATE me) (if decide (2 ≤ rd s (K.CL_STATE (clusterOf me))) then 2 else 0) s

/-- A cluster is in service again with its engines that are not retired themselves. -/
def clusterCleared (c : Nat) (s : State) : State :=
  let s := wr (K.CL_STATE c) (if pdState s (c + 1) = pdCalm then 2 else if pdState s (c + 1) = pdFrost then 3 else 0) s
  (List.range 16).foldl (fun s i =>
    if isRetired s cME (c * 16 + i) then s else meCleared (c * 16 + i) s) s

/-- R444: a domain out of service runs the wake order of R433 again. -/
def domainCleared (d : Nat) (s : State) : State :=
  if pdState s d < pdRetired then s
  else
    let s := wr (K.PD_FAIL_STEP d) 0 (wr (K.PD_STATE d) pdOff s)
    wakeDomain d (if onVme d then clusterFollows (d - 1) 3 2 s else s)

/-- The instance starts again under its chapter's rules; a DDR channel rejoins only at the next cold reset. -/
def instanceCleared (t n : Nat) (s : State) : State :=
  if t = cME then meCleared n s
  else if t = cCluster then clusterCleared n s
  else if t = cPort then portCleared n s
  else if t = cSap then sapCleared n s
  else if t = cTrunk then trunkStart n (wr (K.TRUNK_STATE n) tsAbsent s)
  else if t = cNode then wr (K.NODE_STATE n) (reachState s n) s
  else if t = cLeg then legCleared n s
  else if t = cCodec then instReturned n s
  else if t = cDomain then domainCleared n s
  else if t = cSeal then sealSync s
  else s

/-- R444: the selected instance and its count are cleared; an instance that is not retired is left as it is. -/
def channelClear (t n : Nat) (s : State) : State :=
  if isRetired s t n then instanceCleared t n (clearChannel t n s) else s

/-- What a retired instance does, by its chapter's rules (R443). -/
def instanceRetired (t n : Nat) (s : State) : State :=
  if t = cME then meRetired n s
  else if t = cCluster then clusterGone n 4 s
  else if t = cDdr then chanRetire n s
  else if t = cPort then portDown n psRetired s
  else if t = cSap then (if rd s (K.SAP_EN n) = 1 then sapRetire n s else wr (K.SAP_STATE n) sapRetired s)
  else if t = cTrunk then trunkRetire n s
  else if t = cNode then wr (K.NODE_STATE n) nsRetired (nodeSlotsFree n s)
  else if t = cLeg then legStop n 3 s
  else if t = cCodec then instRetired n s
  else if t = cDomain then domainGone n pdRetired s
  else if t = cSeal then sealSync s
  else s

/-- CH_RETIRE: the instance is retired as if its count had exceeded N. -/
def channelRetire (t n : Nat) (s : State) : State :=
  if isRetired s t n then s else instanceRetired t n (markRetired t n (recentUpsets s t n).length s)

/-- CH_CLEAR: key 0820:05. -/
def writeChClear (inst : Inst) (tag : Nat) (s : State) : State :=
  runCmd inst tag 0x0820 5 (chStatus inst s) (channelClear (chType inst s) (chInst inst s)) s

/-- CH_RETIRE: key 0820:06. -/
def writeChRetire (inst : Inst) (tag : Nat) (s : State) : State :=
  runCmd inst tag 0x0820 6 (chStatus inst s) (channelRetire (chType inst s) (chInst inst s)) s

/-! ## Watchdog (R446) -/

/-- WDT_SERVICE. -/
def execWdtService (s : State) : Res := .next { s with flt.wdtServed := clk s }

/-- Watchdog resets of the last 600 s. -/
def wdtRecent (s : State) : List Instant := s.flt.wdtResets.filter (fun t => decide (clk s < t + 600 * s1))

/-- WATCHDOG_TIMEOUT: no service for WDT_PERIOD: a Storm record and a warm reset. The watchdog runs once firmware does. -/
def execWatchdogTimeout (s : State) : Res :=
  if s.boot.step < 3 ∨ clk s < s.flt.wdtServed + rd s K.WDT_PERIOD * ms1 then .next s
  else
    let s := { s with flt.wdtResets := clk s :: wdtRecent s }
    let s := storm 0x0002 (stormChannel 0xFF 0) [s.flt.wdtResets.length] (bump K.WDT_RESETS s)
    .next (warmReset 2 s)

/-! ## Host watch (R447) -/

/-- The host is lost: the bit, and the count. -/
def hostLost (s : State) : State := summary 5 true (bump K.HOST_LOSSES s)

/-- HOST_WATCH_TIMEOUT: no HOST_PING for HOST_WATCH. One miss is counted until the host is back. -/
def execHostWatchTimeout (s : State) : Res :=
  let w := rd s K.HOST_WATCH
  .next (if w = 0 ∨ bitOf (rd s K.SUMMARY) 5 = true ∨ clk s < s.flt.hostPing + w * ms1 then s else hostLost s)

/-- HOST_PING: key 0800:07. -/
def writeHostPing (inst : Inst) (tag : Nat) (s : State) : State :=
  runCmd inst tag 0x0800 7 .ok (fun s => summary 5 false { s with flt.hostPing := clk s }) s

/-- PCIE_LINK_DOWN. -/
def execPcieLinkDown (s : State) : Res :=
  .next (if s.flt.pcieUp then hostLost { s with flt.pcieUp := false } else s)

/-- PCIE_LINK_UP: the bit clears when HOST_WATCH is 0. A link held in reset does not come up. -/
def execPcieLinkUp (s : State) : Res :=
  .next (if s.flt.perstLow || s.flt.pcieUp then s
    else upd (rd s K.HOST_WATCH == 0) (summary 5 false) { s with flt.pcieUp := true })

/-- PERST_N: low holds the endpoint in reset, which is a link loss; its rise lets the link train (R490). -/
def execPerstN (high : Bool) (s : State) : Res :=
  .next (if high then { s with flt.perstLow := false }
    else upd s.flt.pcieUp hostLost { s with flt.perstLow := true, flt.pcieUp := false, dic.mbx := [] })

end Sys2Proof.Machine
end

