-- ==== Sys2Proof/Machine/Arm.lean ====
section
/-! DEFINITION. Arming and cancelling launches (R46–R49, R53, R55, R78, R282): the launch window of BAR0 and keys 1040:02
and 1040:03; the wake lead. -/
namespace Sys2Proof.Machine

/-! ## Checks (R48) -/

/-- TARGET and ARG are inside the coding of the type (Tables ISB-7, FLD-10, FLD-11; R57). -/
def launchCoded (r : LaunchRec) : Bool :=
  if r.typ = ltXpSwap then r.target == 0 && r.arg == 0
  else if r.typ = ltEqSwap then decide (r.target ≤ 1) && r.arg == 0
  else if r.typ = ltSrcSwitch ∨ r.typ = ltLayerSwap then decide (r.target ≤ 63) && r.arg == 0
  else if r.typ = ltGateTakeover then decide (r.target ≤ 7) && r.arg == 0
  else if r.typ = ltLxEdge then
    let width := r.arg / 4294967296
    let pulse := r.arg % 4 == 3
    decide (r.target ≤ 3) && r.arg / 4 % 1073741824 == 0
      && (!pulse || decide (10 ≤ width ∧ width ≤ 1000000000))
      && (r.period == 0 || (decide (100 ≤ r.period) && (!pulse || decide (width < r.period))))
  else if r.typ = ltSapGroup then decide (r.target ≤ 7 ∧ r.arg ≤ 1)
  else if r.typ = ltHallHandover then decide (r.target = 0 ∧ r.arg ≤ 1)
  else if r.typ = ltFieldMapSwap then decide ((r.target ≤ 7 ∨ r.target = 0xFFFF) ∧ r.arg ≤ 1)
  else if r.typ = ltVoteOpen then
    decide (r.target ≤ 15 ∧ 1 ≤ r.arg % 8 ∧ r.arg < 65536 ∧ r.arg / 32 % 8 = 0)
  else if r.typ = ltVoteClose then decide (r.target ≤ 15 ∧ r.arg = 0)
  else if r.typ = ltNodeAction then
    let a := naAction r.arg
    let p := naParam r.arg
    decide (r.target ≤ 16383 ∨ r.target = 0xFFFF) && decide (r.arg < 4294967296)
      && (if a = 2 then decide (p ≤ 2) else if a = 3 then decide (p ≤ 31) else if a = 5 then decide (p ≤ 63)
          else if a = 6 then decide (p ≤ 65535) else decide (a ≤ 6 ∧ p = 0))
  else false

/-- R55: the target is there: 0Ah for a retired channel or a domain out of service, 01h for an absent target. -/
def launchTarget (r : LaunchRec) (s : State) : Status :=
  let trunk (t : Nat) : Status := if isRetired s cTrunk t then .retired else if trunkPresent s t then .ok else .noEntry
  if domainFailed s (launchDomain r.typ) then .retired
  else if r.typ = ltGateTakeover ∧ isRetired s cPort r.target = true then .retired
  else if r.typ = ltHallHandover then (if lanokUp s then .ok else .noEntry)
  else if r.typ = ltFieldMapSwap ∧ r.target ≠ 0xFFFF then trunk r.target
  else if r.typ = ltNodeAction ∧ r.target ≠ 0xFFFF then
    match trunk (nodeTrunk r.target) with
    | .ok => if isRetired s cNode r.target then .retired else if rd s (K.NODE_STATE r.target) = nsAbsent then .noEntry else .ok
    | st => st
  else .ok

/-- A second takeover of a port that has one under way (R281). -/
def gateTaken (s : State) (p : Nat) : Bool :=
  (txPort s p).takeover.isSome || s.isb.launches.any (fun e => e.2.active && e.2.typ == ltGateTakeover && e.2.target == p)

/-- The checks of R48 before the claims, in order. -/
def launchStatus (r : LaunchRec) (s : State) : Status :=
  if r.flags / 4 ≠ 0 ∨ (r.period ≠ 0 ∧ r.typ ≠ ltLxEdge) ∨ launchCoded r = false then .range
  else if r.typ = ltLxEdge ∧ rd s (K.LX_EN r.target) = 0 then .conflict
  else
    match launchTarget r s with
    | .ok => if r.typ = ltGateTakeover ∧ gateTaken s r.target = true then .busy else .ok
    | st => st

/-! ## Claims (R49, R78, R282) -/

/-- A comparator for a launch of types 01h–07h, and the one a port's first gate list will hold. -/
def claimTimers (n : Nat) (r : LaunchRec) (s : State) : Option (Option Nat × State) :=
  if ltHallHandover ≤ r.typ then some (none, s)
  else
    match claimComparator (ownSlot n) s with
    | none => none
    | some (c, s) =>
      if r.typ = ltGateTakeover ∧ (rdBlob s (K.OPER_LIST r.target)).isEmpty = true
          ∧ (rdBlob s (K.ADMIN_LIST r.target)).isEmpty = false then
        (claimComparator (gateOwner r.target) s).map (fun g => (some c, g.2))
      else some (some c, s)

/-- R78: the owner `w` of an upstream slot has a SLOT_RELEASE of it armed that applies before launch `n` at the same node
step (R54). -/
def releasedBefore (s : State) (n : Nat) (r : LaunchRec) (i w : Nat) : Bool :=
  s.isb.launches.any (fun e =>
    e.2.active && e.2.typ == ltNodeAction && naAction e.2.arg == 4 && launchOwner e.1 e.2 == w
      && decide (launchOrder s e.1 < launchOrder s n)
      && grainBoundary s ltNodeAction e.2.instant == grainBoundary s ltNodeAction (r.time * ns1 + r.frac)
      && (epOf s e.2.target (naEndpoint e.2.arg)).slot.any (fun k => upSlot e.2.target k == i))

/-- R78: the upstream slots a SLOT_ASSIGN names are unclaimed or claimed by a launch slot, and become claimed; a
SLOT_RELEASE of a slot another owner claims fails. -/
def claimUpstream (n : Nat) (r : LaunchRec) (s : State) : Option State :=
  if r.typ ≠ ltNodeAction then some s
  else if naAction r.arg = 3 then
    (if r.target = 0xFFFF then presentTrunks s else [nodeTrunk r.target]).foldl (fun (o : Option State) t =>
      o.bind (fun s =>
        let i := t * 32 + naSlot r.arg
        let w := claimOwner s 5 i
        if w = 0 ∨ releasedBefore s n r i w = true then some (setClaim 5 i (ownSlot n) s)
        else if w / 0x40000000 = 2 then some s else none)) (some s)
  else if naAction r.arg = 4 ∧ r.target ≠ 0xFFFF then
    match (epOf s r.target (naEndpoint r.arg)).slot with
    | some k =>
      let w := claimOwner s 5 (upSlot r.target k)
      if w = 0 ∨ w / 0x40000000 = 2 then some s else none
    | none => some s
  else some s

/-- Every claim of a launch, or none: comparator, trunk slots. -/
def launchClaims (n : Nat) (r : LaunchRec) (s : State) : Option (Option Nat × List (Nat × Nat) × State) :=
  match claimTimers n r s with
  | none => none
  | some (c, s) =>
    match claimTrunkSlots (ownSlot n) (launchTrunks s r.typ r.target) s with
    | none => none
    | some (ts, s) => (claimUpstream n r s).map (fun s => (c, ts, s))

/-- The fields of a written record. -/
def setRecord (n : Nat) (r : LaunchRec) (s : State) : State :=
  launchUpd n (fun l => { l with
    time := r.time, frac := r.frac, typ := r.typ, flags := r.flags, target := r.target, arg := r.arg, period := r.period }) s

/-- R48: the check and the claims, as one step: the record is stored with what it claimed. -/
def launchCheck (n : Nat) (r : LaunchRec) (s : State) : Except Status State :=
  match launchStatus r s with
  | .ok =>
    match launchClaims n r s with
    | none => .error .conflict
    | some (c, ts, s) => .ok (launchUpd n (fun l => { l with comparator := c, trunks := ts }) (setRecord n r s))
  | st => .error st

/-- A slot records FAILED: nothing is claimed (R48). `flags` tells whether the interrupt is signalled (R58). -/
def armFails (n flags : Nat) (st : Status) (s : State) : State :=
  let s := bump K.FAILED_COUNT (launchUpd n (fun l => { l with state := lsFailed, reason := st.code }) s)
  if bitOf flags 1 then emit (.msix 8) { s with isb.launchEvt := withBit s.isb.launchEvt (n / 32) true } else s

/-- Work on a launch slot waits for its acceptance. -/
def armPending (s : State) (n : Nat) : Bool :=
  let on (w : Durable) : Bool := match w with | .launchArm m _ => m == n | _ => false
  s.sch.journal.any (fun e => e.state == 0 && on e.act) || s.sch.held.any (fun w => on w.2)

/-- The slot is ARMED or COMMITTED, or its arm is on the way. -/
def slotTaken (s : State) (n : Nat) : Bool := (launchOf s n).active || armPending s n

/-- R47: the journal accepts an arm. What was held before its check is checked now. -/
def armAccepted (n : Nat) (r : LaunchRec) (s : State) : State :=
  let l := launchOf s n
  if l.comparator.isSome || !l.trunks.isEmpty then armLaunch n r l.comparator l.trunks none s
  else
    match launchCheck n r s with
    | .ok s => armLaunch n r (launchOf s n).comparator (launchOf s n).trunks none s
    | .error st => armFails n r.flags st s

/-- R53: before its commit point an armed launch is CANCELLED and frees its claims. -/
def cancelAccepted (n : Nat) (s : State) : State :=
  let l := launchOf s n
  if l.state ≠ lsArmed ∨ l.time * ns1 ≤ s.isb.now + commitLead l.typ then s
  else
    let s := upd l.carried (lanokSend true (.launchCancel n)) (freeLaunchClaims n (dropAssignClaim n s))
    launchUpd n (fun l => { l with state := lsCancelled }) s

/-! ## BAR0 (R46, R47) -/

/-- The 32 octets of a slot's record (Table ISB-6). -/
def launchOctets (l : Launch) : Bytes :=
  leBytes 8 l.time ++ leBytes 2 l.frac ++ leBytes 1 l.typ ++ leBytes 1 l.flags ++ leBytes 2 l.target
    ++ leBytes 1 l.state ++ leBytes 1 l.reason ++ leBytes 8 l.arg ++ leBytes 8 l.period

/-- The record octets spell. -/
def recOf (b : Bytes) : LaunchRec :=
  { time := leAt b 0 8, frac := leAt b 8 2, typ := leAt b 10 1, flags := leAt b 11 1, target := leAt b 12 2,
    arg := leAt b 16 8, period := leAt b 24 8 }

/-- A BAR0 write discarded and counted. -/
def windowRefused (s : State) : State := bump K.LAUNCH_WRITES_REFUSED s

/-- A write of a record's bytes other than the arming word; STATE and REASON are read only. -/
def windowPatch (n off : Nat) (octets : Bytes) (s : State) : State :=
  if slotTaken s n then windowRefused s else setRecord n (recOf (patch (launchOctets (launchOf s n)) off octets)) s

/-- A cancel by BAR0: durable work for an armed slot (R47); no other slot changes. -/
def windowCancel (n : Nat) (s : State) : State :=
  let l := launchOf s n
  if l.state = lsArmed then presentWork 3 0 (.launchCancel n) (launchUpd n (fun l => { l with writes := l.writes + 1 }) s) else s

/-- The word at bytes 8–11 with ARM 1: the record is checked, its resources claimed, the arm journaled. While work is held
the arm waits at its port, unchecked. -/
def windowArm (n word : Nat) (s : State) : State :=
  if slotTaken s n then windowRefused s else
  let r := recOf (patch (launchOctets (launchOf s n)) 8 (leBytes 4 word))
  let s := launchUpd n (fun l => { l with writes := l.writes + 1 }) (setRecord n r s)
  if replaying s || s.pair.holding then presentWork 3 32 (.launchArm n r) s
  else
    match launchCheck n r s with
    | .error st => armFails n r.flags st s
    | .ok s' =>
      match jrnlWrite 4 3 0 0xFFFF 0 32 (workKey s' (.launchArm n r)) (.launchArm n r) s' with
      | (.written _, s') => s'
      | _ => armFails n r.flags .busy s

/-- A write of the word at bytes 8–11: bit 24 is ARM. -/
def windowWord (n word : Nat) (s : State) : State :=
  if bitOf word 24 then windowArm n word s
  else if slotTaken s n then windowCancel n s
  else setRecord n (recOf (patch (launchOctets (launchOf s n)) 8 (leBytes 4 word))) s

/-- LAUNCH_ARM. -/
def execLaunchArm (slot : Fin 1024) (word : Nat) (s : State) : Res := .next (windowWord slot.val word s)

/-- A window write, aligned, of 4 or 8 octets; 64 bits at byte 8 act as bytes 12–15, then the word (R46). -/
def windowWrite (n o : Nat) (octets : Bytes) (s : State) : State :=
  if (octets.length ≠ 4 ∧ octets.length ≠ 8) ∨ o % octets.length ≠ 0 then badAccess 0 (0x8000 + 32 * n + o) s
  else if o = 8 then
    windowWord n (leAt octets 0 4) (if octets.length = 8 then windowPatch n 12 (octets.drop 4) s else s)
  else windowPatch n o octets s

/-- LAUNCH_WINDOW_WRITE. -/
def execLaunchWindowWrite (slot : Fin 1024) (offset : Fin 32) (octets : Bytes) (s : State) : Res :=
  .next (windowWrite slot.val offset.val octets s)

/-! ## Keys 1040:02 and 1040:03 -/

/-- What a cancel by key answers: 07h from the commit point on (R53). -/
def cancelStatus (n : Nat) (s : State) : Status :=
  let l := launchOf s n
  if l.state = lsCommitted ∨ (l.state = lsArmed ∧ l.time * ns1 ≤ s.isb.now + commitLead l.typ) then .busy else .ok

/-- Key 1040:03. -/
def writeLaunchCancel (inst : Inst) (tag n : Nat) (st : Status) (s : State) : State :=
  runCmdV inst tag 0x1040 3 (leBytes 2 n) (worst st (cancelStatus n s)) (cancelAccepted n) s

/-- LAUNCH_RECORD: key 1040:02, the slot SLOT_SELECT names (R47): a record with ARM 0 cancels an armed slot; one with ARM 1
is checked, claimed and armed, or leaves the slot FAILED and is answered with the reason. -/
def writeLaunchRecord (inst : Inst) (tag : Nat) (rec : LaunchRec) (s : State) : State :=
  let n := rd s K.SLOT_SELECT
  let octets := launchOctets { time := rec.time, frac := rec.frac, typ := rec.typ, flags := rec.flags,
                               target := rec.target, arg := rec.arg, period := rec.period }
  let arm := bitOf rec.flags 0
  let gate := writeGate inst 0x1040 2 32 s
  let answer (st : Status) (s : State) : State := respond inst tag 2 0x1040 2 st [] s
  let accepted (f : State → State) : State :=
    (repeated (.dictWrite inst tag 0x1040 2 octets) inst tag 2 0x1040 2 s).getD
      (if defers s then deferAs 1 32 (.dictWrite inst tag 0x1040 2 octets) s else
       answer .ok (f (acceptNow inst tag 0x1040 2 octets (launchUpd n (fun l => { l with writes := l.writes + 1 }) s))))
  if unserved inst 0x1040 2 true s then notServed inst tag 2 0x1040 2 s
    else if gate ≠ .ok then answer gate s
    else if slotTaken s n then
      (if arm then answer .busy s
       else match cancelStatus n s with
         | .ok => accepted (cancelAccepted n)
         | st => answer st s)
    else if !arm then accepted (setRecord n rec)
    else
      match launchCheck n rec s with
      | .error st => answer st (armFails n rec.flags st s)
      | .ok _ => accepted (armAccepted n rec)

/-! ## Wake leads (R55) -/

/-- LAUNCH_WAKE_LEAD: 100 ns, 250 µs or 2.5 ms before a launch's instant its target's domain is woken from LULL, CALM or
FROST; a sleeping hub wakes by a TIMED source. -/
def execLaunchWakeLead (num : Nat) (s : State) : Res :=
  let l := launchOf s num
  let d := launchDomain l.typ
  let due (lead : Instant) : Bool := decide (l.instant ≤ s.isb.now + lead)
  .next (if !l.active then s
    else if hubPower s = hpCalm then (if due (250 * us1) then wakeHub 0x12 s else s)
    else if hubPower s = hpFrost then (if due (2500 * us1) then wakeHub 0x12 s else s)
    else if d = 0 ∨ d = 19 then s
    else if pdState s d = pdLull ∧ due (100 * ns1) = true then leaveLull d s
    else if (pdState s d = pdCalm ∧ due (250 * us1) = true) ∨ (pdState s d = pdFrost ∧ due (2500 * us1) = true) then wakeDomain d s
    else s)

end Sys2Proof.Machine
end

