-- ==== Sys2Proof/Machine/Store.lean ====
section
/-! DEFINITION. Where the value of a dictionary key is held: the selections of selected keys, the banks of the mixing core
(R210), and the values a standby or a start-up image stores (R129, R453). -/
namespace Sys2Proof.Machine

/-- The key a transport instance reaches at `index:sub`: of a selected entry, the one its selection names. -/
def keyOf (i : Inst) (index sub : Nat) (s : State) : Nat :=
  match (entryOf index sub).map Entry.sel with
  | some .held => key index sub (instNum i)
  | some (.by selSub per) => key index sub (rd s (key index selSub (if per then instNum i else 0)))
  | _ => key index sub 0

/-- XP_SELECT: bank, output and input, and EQ_SELECT: side, bank, section, channel. -/
def xpSelBank (v : Nat) : Nat := v / 16777216 % 2
def xpSelNode (v : Nat) : Nat := nodeKey (v / 1024 % 1024) (v % 1024)
def eqSelSide (v : Nat) : Nat := v / 2147483648
def eqSelKey (v : Nat) : Nat := eqKey (v % 1024) (v / 65536 % 16)

/-- The words of a row: output `v[19:10]` of the bank of `v`. -/
def rowPut (v : Nat) (value : Bytes) (s : State) : State :=
  (List.range 1024).foldl (fun s i => nodePut (xpSelBank v) (nodeKey (v / 1024 % 1024) i) (leAt value (4 * i) 4) s) s

/-- A value is stored, without what follows from it. -/
def keyStore (k : Nat) (value : Bytes) (s : State) : State :=
  let index := keyIndex k
  let sub := keySub k
  let v := keyInst k
  if index = 0x6401 ∧ sub = 2 then nodePut (xpSelBank v) (xpSelNode v) (leVal value) s
  else if index = 0x6401 ∧ sub = 3 then rowPut v value s
  else if index = 0x6402 ∧ sub = 2 then sectionPut (eqSelSide v) (xpSelBank v) (eqSelKey v) value s
  else
    match entryOf index sub with
    | some e => if e.acc = .cmd ∨ e.acc = .ro then s else if e.ty.size = 0 then wrBlob k value s else wr k (leVal value) s
    | none => s

/-- The value of a key that is held, as octets. -/
def keyValue (s : State) (k : Nat) : Bytes :=
  let v := keyInst k
  if keyIndex k = 0x6401 ∧ keySub k = 2 then leBytes 4 (tabGet 0 (xpBank s (xpSelBank v)) (xpSelNode v))
  else if keyIndex k = 0x6401 ∧ keySub k = 3 then
    (List.range 1024).flatMap (fun i => leBytes 4 (tabGet 0 (xpBank s (xpSelBank v)) (nodeKey (v / 1024 % 1024) i)))
  else if keyIndex k = 0x6402 ∧ keySub k = 2 then eqRec (eqBank s (eqSelSide v) (xpSelBank v)) (eqSelKey v)
  else if keyIndex k / 64 = 0xE000 / 64 ∧ (keySub k = 0x0A ∨ keySub k = 0x0B) then
    layerTable s (keyIndex k % 64) (keySub k - 0x0A)
  else if keyIndex k / 8 = 0xE900 / 8 then coefTable s (keyIndex k % 8)
  else if 0xEA01 ≤ keyIndex k ∧ keyIndex k < 0xEA09 then colourMatrix s (keyIndex k - 0xEA00)
  else if 0xD400 ≤ keyIndex k ∧ keyIndex k < 0xD500 ∧ keySub k = 0x0A then [BitVec.ofNat 8 (qpMin s (keyIndex k - 0xD400))]
  else if 0xD400 ≤ keyIndex k ∧ keyIndex k < 0xD500 ∧ keySub k = 0x0B then [BitVec.ofNat 8 (qpMax s (keyIndex k - 0xD400))]
  else if 0xD400 ≤ keyIndex k ∧ keyIndex k < 0xD500 ∧ keySub k = 0x0C then [BitVec.ofNat 8 (qpInit s (keyIndex k - 0xD400))]
  else keyOctets s k

end Sys2Proof.Machine
end

