-- ==== Sys2Proof/Machine/Check.lean ====
section
/-! DEFINITION. The checks of a dictionary write, beside authentication and what `writeGate` holds: access, type and range
(R107, R108), the modes and the locks each chapter gives its entries (Table DIC-5). -/
namespace Sys2Proof.Machine

/-! ## Type and range (R107) -/

/-- A number is one of an entry's range. -/
def numOk (bits : Nat) (r : Rng) (v : Nat) : Bool :=
  match r with
  | .any | .special | .bool | .len _ _ | .lens _ => true
  | .one => v == 1
  | .nat lo hi => decide (lo ≤ v ∧ v ≤ hi)
  | .int lo hi => decide (lo ≤ toInt bits v ∧ toInt bits v ≤ hi)
  | .natOr lo hi x => decide (lo ≤ v ∧ v ≤ hi) || v == x
  | .oneOf l => l.contains v
  | .mask m => (v &&& m) == v
  | .mult k => v % k == 0
  | .multIn lo hi k => decide (lo ≤ v ∧ v ≤ hi) && v % k == 0

/-- A length is one of a STR's or BLOB's. -/
def lenOk (r : Rng) (n : Nat) : Bool :=
  match r with
  | .len lo hi => decide (lo ≤ n ∧ n ≤ hi)
  | .lens l => l.contains n
  | _ => true

/-- Octets are UTF-8: `n` continuation octets of the running character are still due. -/
def utf8Ok : Nat → Bytes → Bool
  | n, [] => n == 0
  | 0, b :: t =>
    let v := b.toNat
    if v < 0x80 then utf8Ok 0 t
    else if 0xC2 ≤ v ∧ v < 0xE0 then utf8Ok 1 t
    else if 0xE0 ≤ v ∧ v < 0xF0 then
      (match t with | c :: _ => (v != 0xE0 || decide (0xA0 ≤ c.toNat)) && (v != 0xED || decide (c.toNat < 0xA0)) | [] => false)
        && utf8Ok 2 t
    else if 0xF0 ≤ v ∧ v < 0xF5 then
      (match t with | c :: _ => (v != 0xF0 || decide (0x90 ≤ c.toNat)) && (v != 0xF4 || decide (c.toNat < 0x90)) | [] => false)
        && utf8Ok 3 t
    else false
  | n + 1, b :: t => decide (0x80 ≤ b.toNat ∧ b.toNat < 0xC0) && utf8Ok n t

/-- A value has its entry's type. -/
def typeFits (e : Entry) (value : Bytes) : Bool :=
  (e.ty.size == 0 || value.length == e.ty.size)
    && (e.ty != .bool || decide (leVal value ≤ 1))
    && (e.ty != .str || utf8Ok 0 value)

/-- A value lies in its entry's range. -/
def rangeFits (e : Entry) (value : Bytes) : Bool :=
  if e.ty.size = 0 then lenOk e.rng value.length else numOk (8 * e.ty.size) e.rng (leVal value)

/-- R110, R236: the entry exists; a data port the mode does not form is absent. -/
def present (index sub : Nat) (s : State) : Bool :=
  (entryOf index sub).isSome
    && !([0x7000, 0x7800, 0x7A00].any (fun b => decide (b ≤ index ∧ index < b + 8) && !portPresent s (index - b)))

/-! ## The chapters' checks. `v` is the value as a number, `x` the selection of a selected entry. -/

/-- Range, then BUSY. -/
def refused (range busy : Bool) : Status := if range then .range else if busy then .busy else .ok

/-- Chapter ISB (Table ISB-3, R59, R60, Table ISB-9). -/
def checkIsb (index sub v : Nat) (s : State) : Status :=
  let aes := rd s K.PTP_PROFILE == 1
  let i := toInt 16 v
  if index = 0x1000 ∧ sub = 6 then
    if selected s = some srcPtpData ∨ selected s = some srcPtpMgmt then .mode else .ok
  else if index = 0x1020 ∧ sub = 6 then refused (!decide ((if aes then (-4 : Int) else -1) ≤ i ∧ i ≤ 1)) false
  else if index = 0x1020 ∧ sub = 8 then refused (!decide ((if aes then (-3 : Int) else 0) ≤ i ∧ i ≤ 5)) false
  else if index = 0x1050 ∨ index = 0x1051 then
    let n := index - 0x1050
    if sub = 1 then ppsEnStatus n v s
    else if sub = 2 then
      refused (!decide (1000 ≤ v ∧ v ≤ 1000000000 ∧ 1000000000 % v = 0 ∧ rd s (K.PPS_WIDTH n) < v)) false
    else if sub = 4 then refused (!decide (v < rd s (K.PPS_PERIOD n))) false
    else .ok
  else if 0x1060 ≤ index ∧ index < 0x1064 ∧ sub = 1 then lxEnStatus (index - 0x1060) v s
  else .ok

/-- Chapter FLD: a map bank in use (R74), the trip voltage (R489), retired trunks and ports. -/
def checkFld (index sub v : Nat) (s : State) : Status :=
  if 0x1800 ≤ index ∧ index < 0x2000 then
    let t := (index - 0x1800) / 256
    let o := index % 256
    if o = 0 ∧ sub = 8 then (if v = 1 ∧ isRetired s cTrunk t = true then .retired else .ok)
    else if o = 3 ∨ o = 4 then
      let p := o - 3
      if sub = 1 then (if v = 1 ∧ isRetired s cTrunkPort (2 * t + p) = true then .retired else .ok)
      else if sub = 2 then refused (decide (250000 < 2 * v * rd s (K.PWR_SHUNT t p))) false
      else if sub = 3 then refused (decide (250000 < 2 * rd s (K.PWR_LIMIT t p) * v)) false
      else .ok
    else if o = 8 ∨ o = 9 then refused false (rd s (K.MAP_ACTIVE t) == o - 8)
    else .ok
  else .ok

/-- Chapters DIC and SCH. -/
def checkDic (index sub v : Nat) (s : State) : Status :=
  if index = 0x0180 ∧ sub = 1 then
    refused (!decide (v / 16777216 ≤ 6 ∧ v % 16777216 < claimCount (v / 16777216))) false
  else if index = 0x0200 ∧ sub = 1 then refused (v == 0) false
  else if (index, sub) = (0xF801, 3) ∨ (index, sub) = (0xF810, 4) then
    if modeOf s = mService then .ok else .mode
  else .ok

/-- Chapter DSP (R180, R184, Tables DSP-13 and DSP-14). -/
def checkDsp (index sub v : Nat) (s : State) : Status :=
  if 0x6C40 ≤ index ∧ index < 0x6C80 then
    if sub = 1 then refused false (kernelInUse s (index - 0x6C40)) else .ok
  else if 0x6D00 ≤ index ∧ index < 0x6E00 then
    let e := index - 0x6D00
    if sub = 7 then bindStatus e (v == 1) s
    else if rd s (K.B_EN e) = 0 ∨ sub = 3 then .ok
    else if sub = 2 then refused (rd s (K.KSTATE v) != ksLoaded || !kernelFlag s v 0) false
    else .busy
  else if 0x6E00 ≤ index ∧ index < 0x6E08 then
    let t := index - 0x6E00
    if sub = 9 then tickEnStatus t (v == 1) s
    else refused ((sub == 4 && !budgetOk (rd s (K.T_PERIOD t)) v) || (sub == 3 && !budgetOk v (rd s (K.T_BUDGET t))))
      (rd s (K.T_EN t) == 1)
  else .ok

/-- Chapter SAP (R188, R197, R203). -/
def checkSap (index sub v : Nat) (s : State) : Status :=
  if 0x6000 ≤ index ∧ index < 0x6008 ∧ sub = 1 then sapEnStatus (index - 0x6000) (v == 1) s
  else if 0x6200 ≤ index ∧ index < 0x6240 ∧ sub = 1 then epEnStatus true (index - 0x6200) (v == 1) s
  else if 0x6280 ≤ index ∧ index < 0x62C0 ∧ sub = 1 then epEnStatus false (index - 0x6280) (v == 1) s
  else refused false (sapWriteBusy index sub s)

/-- Owner of the slot of a language's booth (R78, R218). -/
def boothOwner (l : Nat) : Nat := ownKey (0x6440 + l) 2

/-- The upstream slot a booth names. -/
def boothClaim (t k : Nat) : Option Nat := if t = 0xFF then none else some (t * 32 + k)

/-- Table MIX-6, with the value of one key replaced. -/
def groupOk (g sub v : Nat) (s : State) : Bool :=
  let at_ (k : Nat) (cur : Nat) : Nat := if sub = k then v else cur
  let rate := at_ 3 (rd s (K.SE_BITRATE g))
  if at_ 2 (rd s (K.SE_CODEC g)) = 0 then decide (6000 ≤ rate ∧ rate ≤ 510000)
  else rate == 64000 && at_ 5 (rd s (K.SE_CHANNELS g)) == 1 && at_ 6 (rd s (K.SE_FEC g)) == 0 && at_ 7 (rd s (K.SE_DTX g)) == 0

/-- Legs pinned by LEG_PIN. -/
def pinned (s : State) : Nat := ((listedKeys s 0x6680 3).filter (fun l => rd s (K.LEG_PIN l) == 1)).length

/-- Chapter MIX (R208, R210, R213, R218, R219, R228, R230, R231). -/
def checkMix (index sub v x : Nat) (value : Bytes) (s : State) : Status :=
  if index = 0x6401 ∧ sub = 2 then refused (decide (131072 ≤ v)) (!bankOpen s 0 (xpSelBank x))
  else if index = 0x6401 ∧ sub = 3 then
    refused ((List.range 1024).any (fun i => decide (131072 ≤ leAt value (4 * i) 4))) (!bankOpen s 0 (xpSelBank x))
  else if index = 0x6402 ∧ sub = 2 then refused false (!bankOpen s (eqSelSide x + 1) (xpSelBank x))
  else if index = 0x6411 ∧ sub = 3 then refused (!copyModeOk s x v (rd s (K.OUT_COPY_OF x))) false
  else if index = 0x6411 ∧ sub = 4 then refused (!copyModeOk s x (rd s (K.OUT_MODE x)) v) false
  else if 0x6441 ≤ index ∧ index < 0x6460 then
    let l := index - 0x6440
    let t := if sub = 1 then v else rd s (K.BOOTH_TRUNK (l - 1))
    let k := if sub = 2 then v else rd s (K.BOOTH_SLOT (l - 1))
    if sub = 1 ∨ sub = 2 then
      match boothClaim t k with
      | none => .ok
      | some c => if claimOwner s 5 c = 0 ∨ claimOwner s 5 c = boothOwner l then .ok else .conflict
    else refused (sub == 4 && relayLoops s l 32 v) false
  else if 0x6600 ≤ index ∧ index < 0x6640 ∧ 2 ≤ sub ∧ sub ≤ 7 then
    refused (!groupOk (index - 0x6600) sub v s) (rd s (K.SE_EN (index - 0x6600)) == 1)
  else if index = 0x6680 ∧ sub = 2 then refused false (legTalker s x)
  else if index = 0x6680 ∧ sub = 3 then
    refused (decide (bidirLegs ≤ x)) (v == 1 && rd s (K.LEG_PIN x) == 0 && decide (32 ≤ pinned s))
  else if 0x6800 ≤ index ∧ index < 0x6900 ∧ sub = 3 then deskEnStatus (index - 0x6800) (v == 1) s
  else .ok

/-- R256: FCO_SOURCE names a source. -/
def fcoSourceOk (v : Nat) : Bool :=
  let k := v / 268435456
  let n := v % 268435456
  (k == 0 && decide (n ≤ 41101)) || ((k == 1 || k == 2) && n == 0) || (k == 3 && decide (n < 8))

/-- A list of leg numbers (SPILL_LEGS). -/
def legListOk (value : Bytes) : Bool :=
  decide (value.length ≤ 248) && value.length % 2 == 0
    && (List.range (value.length / 2)).all (fun i => decide (leAt value (2 * i) 2 < 20480))

/-- Chapter PKT (R236, R253, R254, R256, R263). -/
def checkPkt (index sub v x : Nat) (value : Bytes) (s : State) : Status :=
  let hi := if sub = 3 then v else rd s K.G_HIGH
  let lo := if sub = 4 then v else rd s K.G_LOW
  let res := if sub = 5 then v else rd s K.G_RESERVE
  let qh := if sub = 3 then v else rd s (K.Q_HIGH x)
  let ql := if sub = 4 then v else rd s (K.Q_LOW x)
  let qm := if sub = 5 then v else rd s (K.Q_LIMIT x)
  if 0x7000 ≤ index ∧ index < 0x7008 then
    let p := index - 0x7000
    if sub = 1 then portEnStatus p (v == 1) s
    else if sub = 0x0F then .ok
    else if sub = 0x10 then refused (decide (v ≤ rd s (K.PORT_LOW p))) false
    else if sub = 0x11 then refused (decide (rd s (K.PORT_HIGH p) ≤ v)) false
    else refused (sub == 5 && v != 0 && rd s K.PORT_MODE != 0) (rd s (K.PORT_EN p) == 1)
  else if index = 0x7020 ∧ sub = 1 then
    if modeOf s ≠ mStandby ∧ modeOf s ≠ mService then .mode
    else refused false ((List.range 8).any (fun p => rd s (K.PORT_EN p) == 1))
  else if index = 0x7100 ∧ 3 ≤ sub ∧ sub ≤ 5 then refused (!decide (lo < hi ∧ hi ≤ 65536 - 2 * res)) false
  else if index = 0x7110 ∧ 3 ≤ sub ∧ sub ≤ 5 then refused (!decide (ql < qh ∧ qh ≤ qm)) false
  else if 0x7180 ≤ index ∧ index < 0x7184 then
    let n := index - 0x7180
    let owner := claimOwner s 2 n
    if sub = 1 then (if v = 1 ∧ owner ≠ 0 ∧ owner ≠ ownKey index 1 then .conflict else .ok)
    else refused (sub == 2 && !fcoSourceOk v) (rd s (K.FCO_EN n) == 1)
  else if index = 0x7190 ∧ sub = 1 then (if modeOf s = mStandby ∨ modeOf s = mService then .ok else .mode)
  else if index = 0x7190 ∧ sub = 2 then refused (!legListOk value) false
  else if 0x7400 ≤ index ∧ index < 0x7440 then refused false (rd s (K.EP_EN_RX (index - 0x7400)) == 1)
  else if 0x7440 ≤ index ∧ index < 0x7480 then refused false (rd s (K.EP_EN_TX (index - 0x7440)) == 1)
  else .ok

/-- The admin values of a port are fixed by a GATE_TAKEOVER (R280). -/
def adminFixed (p : Nat) (s : State) : Bool :=
  (txPort s p).takeover.isSome
    || s.isb.launches.any (fun e => e.2.state == lsCommitted && e.2.typ == ltGateTakeover && e.2.target == p)

/-- Chapter TRF (R268, R273, R279, R280). -/
def checkTrf (index sub v x : Nat) (value : Bytes) (s : State) : Status :=
  if 0x7A00 ≤ index ∧ index < 0x7A08 then
    let p := index - 0x7A00
    let bad := match sub with
      | 1 => decide (2048 < value.length) || !gateListOk value
      | 3 => decide (v < rd s (K.ADMIN_EXT p))
      | 4 => decide (rd s (K.ADMIN_CYCLE p) < v)
      | _ => false
    refused (bad) (adminFixed p s)
  else if index = 0x7900 ∧ 3 ≤ sub ∧ sub ≤ 6 then polStatus x (key 0x7900 sub x) v s
  else if index = 0x7900 ∧ sub = 0x10 then refused false (rd s (K.SH_AUTO x) == 1)
  else .ok

/-- Chapter FWD (R287, R290, R297, R303). -/
def checkFwd (index sub v : Nat) (value : Bytes) (s : State) : Status :=
  let l := index - 0x8000
  if index = 0x8000 ∧ 0xC0 ≤ sub then
    refused (!switchTableOk value)
      (s.isb.launches.any (fun e => e.2.active && e.2.typ == ltSrcSwitch && e.2.target == sub - 0xC0))
  else if sub = 1 then worst (mediaStatus (v == 1) s) (legEnStatus l (v == 1) s)
  else
    let bad := match sub with
      | 0x16 => decide (2 < v % 16) || decide (2 < v / 16)
      | 0x20 | 0x28 | 0x30 => !sourceCodeOk v
      | 0x23 | 0x2B | 0x33 => !layerCodeOk v
      | 0x41 => !decide (rd s (K.EST_MIN l) ≤ v ∧ v ≤ rd s (K.EST_MAX l))
      | 0x43 => !decide (rd s (K.EST_MIN l) ≤ v ∧ v ≤ 4000000000)
      | _ => false
    refused bad (rd s (K.LEG_EN l) == 1 && ((decide (3 ≤ sub ∧ sub ≤ 0x0B)) || decide (0x10 ≤ sub ∧ sub ≤ 0x18)))

/-- Chapter VID (R344, Tables VID-3 to VID-5). -/
def checkVid (index sub v : Nat) (s : State) : Status :=
  if index < 0xD400 then
    let c := index - 0xD000
    if sub = 1 then worst (mediaStatus (v == 1) s) (decEnStatus c (v == 1) s)
    else refused ((sub == 3 && !(v / 1073741824 == 1 && sourceCodeOk v)) || (sub == 4 && !layerCodeOk v))
      (rd s (K.DEC_EN c) == 1 && !(([4, 0x0B, 0x0C] : List Nat).contains sub))
  else if index < 0xD500 then
    let e := index - 0xD400
    let top := if rd s (K.ENC_CODEC e) = 1 then 255 else 51
    if sub = 1 then worst (mediaStatus (v == 1) s) (encEnStatus e (v == 1) s)
    else
      let bad := match sub with
        | 0x0A => decide (top < v)
        | 0x0B => !decide (qpMin s e ≤ v ∧ v ≤ top)
        | 0x0C => !decide (qpMin s e ≤ v ∧ v ≤ qpMax s e)
        | 0x12 => !decide (65536 ≤ v ∧ v ≤ 268435456 ∧ v % 32 = 0)
        | _ => false
      refused bad (rd s (K.ENC_EN e) == 1 && !(([9, 0x0A, 0x0B, 0x0D, 0x0E, 0x0F] : List Nat).contains sub))
  else if index = 0xDF00 ∧ (sub = 1 ∨ sub = 2) then (if modeOf s = mStandby ∨ modeOf s = mService then .ok else .mode)
  else .ok

/-- Chapter CMP (R351, R355, R358, R362, R368). -/
def checkCmp (index sub v : Nat) (value : Bytes) (s : State) : Status :=
  if 0xE000 ≤ index ∧ index < 0xE040 then
    let o := index - 0xE000
    let num := if sub = 5 then v else rd s (K.RATE_NUM o)
    let den := if sub = 6 then v else rd s (K.RATE_DEN o)
    if sub = 1 then worst (mediaStatus (v == 1) s) (outEnStatus o (v == 1) s)
    else if sub = 0x0A ∨ sub = 0x0B then
      refused false (rd s (K.ACTIVE_TABLE o) == sub - 0x0A || layerSwapCommitted s o)
    else
      let bad := ((sub == 5 || sub == 6) && !decide (den ≤ num ∧ num ≤ 120 * den))
        || (sub == 7 && !decide (v * num < 1000000000 * den))
      refused bad (rd s (K.OUT_EN o) == 1 && decide (3 ≤ sub ∧ sub ≤ 8))
  else if 0xE400 ≤ index ∧ index < 0xE800 then
    let n := index - 0xE400
    let o := n / 16
    match rectOf v with
    | (rx, ry, rw, rh) =>
      if sub = 2 then
        refused (decide (rd s (K.OUT_WIDTH o) < rx + rw) || decide (rd s (K.OUT_HEIGHT o) < ry + rh)) (rd s (K.SIG_MODE n) != 0)
      else
        refused (sub == 7 && !(decide (v < 1073741824) || (v / 2147483648 == 1 && decide (v % 2147483648 < 256)))) false
  else if 0xE800 ≤ index ∧ index < 0xE900 then
    let n := index - 0xE800
    let stride := rd s (K.OVL_STRIDE n)
    let w := v % 65536
    let h := v / 65536
    refused (match sub with
      | 2 => !decide (1 ≤ w ∧ w ≤ 4096 ∧ 1 ≤ h ∧ h ≤ 2304) || (stride != 0 && decide (stride < 4 * w))
      | 3 => decide (v < 4 * (rd s (K.OVL_SIZE n) % 65536))
      | _ => false) false
  else if 0xE900 ≤ index ∧ index < 0xE908 then refused (value.length != 1792 || !coefsOk value) false
  else .ok

/-- Chapters DMA and MEM (R384, Table DMA-6, Table MEM-7). -/
def checkDma (index sub v : Nat) (s : State) : Status :=
  if index < 0xF400 then
    let n := index - 0xF000
    if sub = 1 then dmaEnStatus n (v == 1) s
    else refused (sub == 3 && v / 65536 % 4096 != 0) (rd s (K.DMA_EN n) == 1 && decide (2 ≤ sub ∧ sub ≤ 9))
  else if index = 0xF400 ∧ sub = 4 then refused (!(([256, 512, 1024, 2048, 4096, 8192, 16384, 32768, 65536] : List Nat).contains v)) false
  else .ok

/-- Domains with LULL (Table PWR-2). -/
def hasLull (d : Nat) : Bool := onVme d || decide (14 ≤ d ∧ d ≤ 17)

/-- Chapters PWR, FLT and DIAG. -/
def checkSys (index sub v : Nat) (s : State) : Status :=
  if 0x0420 ≤ index ∧ index < 0x0434 ∧ sub = 3 then refused (!hasLull (index - 0x0420)) false
  else if index = 0x0820 ∧ sub = 1 then
    refused (!decide (v / 16777216 ≤ 11 ∧ v % 16777216 < channelCount (v / 16777216))) false
  else if index = 0x0900 ∧ sub = 1 then (if modeOf s = mStandby ∨ modeOf s = mService then .ok else .mode)
  else if index = 0x0D00 ∧ (sub = 2 ∨ sub = 3) then refused false (rd s K.VANE_EN == 1)
  else .ok

/-- The check of the chapter an entry belongs to. -/
def chapterCheck (k : Nat) (value : Bytes) (s : State) : Status :=
  let index := keyIndex k
  let sub := keySub k
  let x := keyInst k
  let v := leVal value
  if index < 0x0400 then checkDic index sub v s
  else if index < 0x1000 then checkSys index sub v s
  else if index < 0x1400 then checkIsb index sub v s
  else if index < 0x6000 then checkFld index sub v s
  else if index < 0x6400 then checkSap index sub v s
  else if index < 0x6C00 then checkMix index sub v x value s
  else if index < 0x7000 then checkDsp index sub v s
  else if index < 0x7800 then checkPkt index sub v x value s
  else if index < 0x7C00 then checkTrf index sub v x value s
  else if index < 0x8000 then .ok
  else if index < 0xD000 then checkFwd index sub v value s
  else if index < 0xE000 then checkVid index sub v s
  else if index < 0xF000 then checkCmp index sub v value s
  else if index < 0xF800 then checkDma index sub v s
  else checkDic index sub v s

/-- The checks of a write of a value to a key that is no command (Table DIC-5). -/
def keyStatus (k : Nat) (value : Bytes) (s : State) : Status :=
  match entryOf (keyIndex k) (keySub k) with
  | none => .noEntry
  | some e =>
    if !present (keyIndex k) (keySub k) s then .noEntry
    else if e.acc = .ro then .access
    else if !typeFits e value then worst .type (if chapterCheck k value s = .mode then .mode else .ok)
    else
      let st := chapterCheck k value s
      if rangeFits e value then st else worst .range st

end Sys2Proof.Machine
end

