-- ==== Sys2Proof/Machine/Pair.lean ====
section
/-! DEFINITION. Pair operation (chapter FLT): replication to the standby, pair states, roles, takeover, splits, mastership of
the rings, switchover. -/
namespace Sys2Proof.Machine

/-- The device's start: PAIR_EN was 1 and a role has been, or is being, decided. -/
def inPair (s : State) : Bool := rd s K.ROLE != 0 || s.pair.startAt.isSome

/-- PAIR_STATE, and SUMMARY.PAIR_DEGRADED in DEGRADED and ALONE. -/
def setPairState (v : Nat) (s : State) : State := summary 3 (v == 3 || v == 4) (wr K.PAIR_STATE v s)

/-- R456: the peer is confirmed: what was held is taken in order, and a split is no longer to be settled. -/
def peerConfirm (s : State) : State :=
  let s := { s with pair.splitAt := none }
  if s.pair.holding && !s.pair.handing then retryHeld { s with pair.holding := false } else s

/-! ## What a standby applies (R453) -/

/-- The durable values a command leaves: the mode, launch slots, tables copied, a kernel image unloaded. -/
def reapplyCmd (index sub : Nat) (value : Bytes) (s : State) : Option State :=
  let v := leVal value
  if index = 0x0001 ∧ sub = 2 then some (wr K.MODE v s)
  else if index = 0x1040 ∧ sub = 2 then
    let n := rd s K.SLOT_SELECT
    let r := recOf value
    some (if slotTaken s n then cancelAccepted n s else if bitOf r.flags 0 then armAccepted n r s else setRecord n r s)
  else if index = 0x1040 ∧ sub = 3 then some (cancelAccepted v s)
  else if index = 0x6400 ∧ sub = 5 then
    some (if v = 0 then xpBankUpd (1 - activeBankOf s 0) (fun _ => xpBank s (activeBankOf s 0)) s
      else let a := activeBankOf s v
        eqBankUpd (v - 1) (1 - a) (fun _ => eqBank s (v - 1) a) s)
  else if index = 0x6400 ∧ sub = 6 then some (xpBankUpd (1 - activeBankOf s 0) (fun _ => presetBank s) s)
  else if 0x6C40 ≤ index ∧ index < 0x6C80 ∧ sub = 6 then some (kunload (index - 0x6C40) s)
  else if 0xE000 ≤ index ∧ index < 0xE040 ∧ sub = 0x0C then
    let o := index - 0xE000
    some (wrBlob (tableKey o (1 - rd s (K.ACTIVE_TABLE o))) (activeTable s o) s)
  else none

/-- The value an accepted write leaves, without its units' effects. -/
def reapplyWrite (i : Inst) (index sub : Nat) (value : Bytes) (s : State) : State :=
  (reapplyCmd index sub value s).getD (keyStore (keyOf i index sub s) value s)

/-- Leg control (R289): LAST_TXN and the value the transaction writes. -/
def reapplyLeg (leg txn op : Nat) (body : Bytes) (s : State) : State :=
  let slot := leAt body 5 1
  let s := wr (K.LAST_TXN leg) txn s
  match op with
  | 1 => wr (K.LEG_EN leg) 1 s
  | 2 => wr (K.LEG_EN leg) 0 s
  | 5 => wr (K.SLOT_SOURCE leg slot) (leAt body 8 4) s
  | 6 => wr (K.SLOT_MAX leg slot) (leAt body 6 1) s
  | _ => s

/-- A node event's OPEN flag, and its vote. -/
def reapplyEvent (node code : Nat) (s : State) : State :=
  let s := nodeUpd node (fun x => { x with isOpen := true }) s
  if isVote code then countVote node (code - 4) s else s

/-- The state update of an entry. -/
def reapply (e : JEntry) (s : State) : State :=
  match e.act with
  | .dictWrite i _ index sub value => reapplyWrite i index sub value s
  | .blobClose i _ index sub value _ => reapplyWrite i index sub value s
  | .group i _ ws => ws.foldl (fun s w => reapplyWrite i w.1 w.2.1 w.2.2 s) s
  | .nodeEvent node code _ => reapplyEvent node code s
  | .nodeClear node => nodeUpd node (fun x => { x with isOpen := false }) s
  | .launchArm n r => armAccepted n r s
  | .launchCancel n => cancelAccepted n s
  | .legCtrl _ _ leg txn op body => reapplyLeg leg txn op body s
  | .voteSeal v _ => sealVote v s
  | .host _ _ => s

/-- Values a checkpoint holds (R149): writable ones, vote sessions, LAST_TXN of legs. -/
def isShared (k : Nat) : Bool :=
  let i := keyIndex k
  decide (0x1500 ≤ i ∧ i < 0x1510) || (decide (0x8000 ≤ i ∧ i < 0xD000) && keySub k == 0x0D)
    || (match entryOf i (keySub k) with | some e => e.acc == .rw || e.acc == .rwp || e.acc == .rwm | none => false)

/-- Entries of a table that pass a test take the place of those of another. -/
def replaceKeys {α : Type} (ok : Nat → Bool) (put : Tab α → Nat → α → Tab α) (old new : Tab α) : Tab α :=
  (new.filter (fun e => ok e.1)).foldl (fun t e => put t e.1 e.2) (old.filter (fun e => !ok e.1))

/-- The values a checkpoint holds take the place of the durable state. -/
def loadValues (c : Snapshot) (s : State) : State :=
  let s := { s with
    regs := replaceKeys isShared (fun t k v => tabSet (regDefault k) t k (v % regModulus k)) s.regs c.regs
    blobs := replaceKeys isShared (fun t k v => tabSet none t k v) s.blobs c.blobs
    fld.votes := c.votes, fld.lastVote := c.lastVote, dic.claims := c.claims.foldl (fun t e => tabSet 0 t e.1 e.2) []
    isb.launches := (c.launches.filter (fun e => decide (e.1 < 0x400))).map (fun e => (e.1, { e.2 with carried := false }))
    mix.xp0 := c.banks.getD 0 [], mix.xp1 := c.banks.getD 1 []
    mix.ieq0 := c.sections.getD 0 [], mix.ieq1 := c.sections.getD 1 [], mix.oeq0 := c.sections.getD 2 []
    mix.oeq1 := c.sections.getD 3 []
    fld.nodes := tabMap {} s.fld.nodes (fun _ x => { x with isOpen := false }) }
  c.isOpen.foldl (fun s n => nodeUpd n (fun x => { x with isOpen := true }) s) s

/-- A standby takes a checkpoint in place of its durable state. -/
def loadSnapshot (c : Snapshot) (s : State) : State :=
  syncAccept { loadValues c s with
    sch.journal := [], sch.nextAccept := c.highest + 1
    pair.held := c.highest, pair.committed := c.highest, pair.freed := c.highest }

/-! ## Entering a mode at start, after a warm reset and at a takeover -/

/-- A mode is entered from outside the hall: HALL and HYBRID once their handover fires (R479). -/
def modeResume (t : Nat) (s : State) : State :=
  if isHall t then
    match armHandover 0 { s with boot.transition := some (t, none) } with
    | some (n, s) => { s with boot.transition := some (t, some n) }
    | none => enterMode t { s with boot.transition := none }
  else enterMode t s

/-- R460: the hub is in ISLAND: its field die is master of what it reaches, no leg forwards, the scheduler runs nothing;
SAP and AES67 endpoints run. -/
def enterIsland (s : State) : State :=
  let was := modeOf s
  let started := !s.boot.restart
  let s := transitionFail s
  let s := { s with
    boot.modeBefore := if was = mIsland ∨ was = mSafe then s.boot.modeBefore else was
    boot.restart := false, sch.held := [], pair.holding := false, pair.splitAt := none, pair.master := true
    pair.takeAt := none, pair.switchAt := none }
  let s := setPairState 4 (wr K.ROLE 3 (wr K.MODE_SINCE (nowNs s) (wr K.MODE mIsland s)))
  reselect (legsDown (if started then s else featuresStart true s))

/-- R462: the hub discards its durable state above its last COMMITTED entry and becomes standby. -/
def becomeStandby (s : State) : State :=
  if rd s K.ROLE = 2 then s else
  let n := checkpointReach s
  let s := featuresStop (stopBanks (transitionFail s))
  let s := { s with
    sch.journal := s.sch.journal.filter (fun e => decide (e.accept ≤ n)), sch.nextAccept := n + 1, sch.held := []
    sch.ready := [], sch.hold := [], sch.delay := [], sch.running := [], sch.inflight := [], sch.cpRunning := none
    pair.holding := false, pair.handing := false, pair.splitAt := none, pair.held := n, pair.committed := n
    pair.freed := freedReach s, pair.master := false, pair.startAt := none, boot.restart := true }
  let s := if modeOf s = mIsland then wr K.MODE_SINCE (nowNs s) (wr K.MODE s.boot.modeBefore s) else s
  reselect (setPairState (if pairLinkUp s then 1 else 3) (syncAccept (wr K.ROLE 2 s)))

/-- R463, R474: the role is known; the mode the start leads to is entered: BOOT_MODE after a cold boot, the mode held after a
warm reset, SAFE for a cause of Table BOOT-5; a mode whose conditions do not hold gives HALL_DEFAULT. -/
def modeStart (s : State) : State :=
  let cold := s.boot.coldEntry
  let s := { s with pair.startAt := none, boot.step := if s.boot.step = 8 then 9 else s.boot.step }
  let t := if cold then (if rd s K.IMAGE_STATE = 2 then mHallDefault else rd s K.BOOT_MODE) else s.boot.modeBefore
  let t := if t = mIsland then mHallDefault else t
  if rd s K.ROLE = 2 then
    let s := upd cold trialEnd s
    retryHeld (wr K.MODE_SINCE (nowNs s) (wr K.MODE t s))
  else if rd s K.ROLE = 3 then
    enterIsland (upd cold trialEnd (wr K.MODE t s))
  else
    retryHeld (match s.boot.safeCauses with
      | c :: _ => enterSafe c { s with boot.modeBefore := t }
      | [] => if modeReady t s then modeResume t s else summary 0 true (enterMode mHallDefault s))

/-! ## Takeover (R457) -/

/-- Slots go on from the exact next index a switchover names, or from their reserved limit + 1 (R309). -/
def slotsResume (finals : List (Nat × Nat × Nat)) (s : State) : State :=
  (legsOn s).foldl (fun s l => [0, 1, 2, 3].foldl (fun s k =>
    let i := match finals.find? (fun f => f.1 == l && f.2.1 == k) with
      | some f => some f.2.2
      | none => (slotOf s l k).limit.map (· + 1)
    match i with
    | some i => slotUpd l k (fun x => { x with index := i, limit := none, ckptSent := none }) s
    | none => s) s) s

/-- Entries the standby holds and that are not known COMMITTED take effect: items run again, other work is applied. -/
def takeEntries (s : State) : State :=
  s.sch.journal.foldl (fun (s : State) (e : JEntry) =>
    if 2 ≤ e.state then s else
    match e.act with
    | .host _ _ => replayItem e (jrnlUpd e.accept (fun x => { x with state := 1 }) s)
    | _ => jrnlCommit e.accept (jrnlUpd e.accept (fun x => { x with state := 1 }) (reapply e s))) s

/-- Launches that came from the old active: those still to come are carried to the field die, those whose instant has passed
are over. -/
def takeLaunches (s : State) : State :=
  s.isb.launches.foldl (fun s e =>
    if !e.2.active then s
    else if e.2.instant < s.isb.now then launchFailed e.1 .noEntry s
    else carryLaunch e.1 s) s

/-- A hub becomes active with an EPOCH. `finals` are those of a switchover. -/
def becomeActive (epoch pairState : Nat) (finals : List (Nat × Nat × Nat)) (s : State) : State :=
  let t := modeOf s
  let t := if t = mIsland ∨ t = mSafe then s.boot.modeBefore else t
  let island := modeOf s = mIsland
  let s := reselect (setPairState pairState (wr K.ROLE 1 (wr K.EPOCH epoch s)))
  let s := { s with pair.holding := false, pair.splitAt := none, pair.startAt := none, pair.handing := false, pair.roleDue := !pairLinkUp s }
  let s := upd (pairLinkUp s) (pairSend (.role 1 2 epoch [])) s
  let s := { s with sch.nextAccept := s.sch.journal.foldl (fun n e => max n (e.accept + 1)) s.sch.nextAccept }
  let s := takeLaunches (syncAccept (takeEntries s))
  let s := slotsResume finals s
  let s := upd (!s.pair.master) (fun s => { s with pair.takeAt := some (fieldClk s) }) s
  let s := enterMode t { s with boot.restart := s.boot.restart || !island }
  let s := legsUp s
  let s := (upLegs s).foldl (fun s l => emit (.announce (legPort s l) (rdBlob s (K.LOCAL_ADDR l))) s) s
  let s := upd (isHall t) (fun s => match armHandover 0 s with | some (_, s) => s | none => s) s
  retryHeld s

/-- R457: a standby, or a hub in ISLAND, takes the active role. -/
def takeover (healthy : Bool) (s : State) : State :=
  let s := upd (!healthy) (bump K.JOURNAL_GAPS) (bump K.FAILOVERS_FLT (wr K.LAST_FAILOVER_AT (nowNs s) s))
  let s := wr K.LAST_FAILOVER_TIME ((clk s - s.pair.linkDownAt) / us1) s
  becomeActive (rd s K.EPOCH + 1) 4 [] s

/-! ## Synchronisation (R455) -/

/-- Send entries, at most 16 in a message. -/
def sendEntries : Nat → List JEntry → State → State
  | 0, _, s => s
  | n + 1, l, s => if l.isEmpty then s else sendEntries n (l.drop 16) (pairSend (.jrnlCopy (l.take 16)) s)

/-- The active sends its newest complete checkpoint, and every entry above it. -/
def startSync (s : State) : State :=
  let s := if s.sch.cps.isEmpty then checkpointDone (checkpointStart s) else s
  match s.sch.cps.head? with
  | none => s
  | some c =>
    let s := wr K.SYNC_PROGRESS 0 (setPairState 1 { s with pair.syncDue := false, pair.acked := 0 })
    let l := s.sch.journal.filter (fun e => decide (c.highest < e.accept))
    markPeer (sendEntries (l.length + 1) l (pairSend (.sync 0 1 (some c)) s))

/-! ## Messages -/

/-- A pair link message is received: one with a higher EPOCH is taken by a hub that is not active, the peer is confirmed,
then it is acted on. -/
def onPeer (reliable : Bool) (h : PHdr) (f : State → State) (s : State) : Res :=
  onPair reliable h (fun s =>
    let s := if rd s K.EPOCH < h.epoch ∧ rd s K.ROLE ≠ 1 then wr K.EPOCH h.epoch s else s
    f (peerConfirm s)) s

/-- R463, R462: what the peer's role means for this hub's. -/
def roleFacts (h : PHdr) (role lastAccept : Nat) (s : State) : State :=
  let mine := rd s K.ROLE
  if s.pair.startAt.isSome then
    if role = 1 then modeStart (becomeStandby s)
    else if s.flt.pairRolePin then modeStart (reselect (setPairState (if pairLinkUp s then 3 else 4) (wr K.ROLE 1 s))) else s
  else if mine = 3 then
    if role = 1 then becomeStandby s
    else if role = 3 then
      let own := lastAccepted s
      if lastAccept < own ∨ (own = lastAccept ∧ s.flt.pairRolePin) then becomeActive (rd s K.EPOCH + 1) 3 [] s
      else becomeStandby s
    else s
  else if mine = 1 ∧ role = 1 ∧ rd s K.EPOCH < h.epoch then becomeStandby (wr K.EPOCH h.epoch s)
  else s

/-- PAIR_HEARTBEAT. -/
def execPairHeartbeat (h : PHdr) (role mode pairState : Nat) (hubOk : Bool) (lastAccept time reach serial : Nat)
    (usable : Bool) (source : Nat) (s : State) : Res :=
  onPeer false h (fun s =>
    let moved := match s.isb.peerSource with | some x => role == 1 && x != source | none => false
    let s := wr K.PEER_SERIAL serial { s with
      pair.peerRole := role, pair.peerHubOk := hubOk, pair.peerReachable := reach, pair.peerAccept := lastAccept
      isb.peerUsable := role == 1 && usable, isb.peerSource := some source }
    let s := upd (role == 1) (fun s =>
      measured srcPeer 16 ((time * ns1 : Nat) : Int) ((time * ns1 + s.pair.pathDelay : Nat) - (s.isb.now : Int)) s) s
    let s := roleFacts h role lastAccept (reselect (upd moved (disqualify srcPeer 5) s))
    if rd s K.ROLE = 2 then
      if !hubOk then takeover (rd s K.PAIR_STATE == 2) s
      else if role = 1 then
        let s := upd (mode != mSafe && mode != mIsland) (wr K.MODE mode) s
        if 1 ≤ pairState ∧ pairState ≤ 3 then setPairState pairState s else s
      else s
    else if rd s K.ROLE = 1 ∧ s.pair.syncDue ∧ (role = 2 ∨ role = 3) then startSync s
    else s) s

/-- PAIR_HEARTBEAT_SEND: nothing has been sent for 10 µs. -/
def execPairHeartbeatSend (s : State) : Res :=
  .next (if !pairLinkUp s || decide (clk s < s.pair.sentAt + 10 * us1) then s else
    handOver (pairSend (.heartbeat (rd s K.ROLE) (modeOf s) (rd s K.PAIR_STATE) (modeOf s != mSafe && !s.boot.recovery)
      (rd s K.LAST_ACCEPT) (nowNs s) (reachable s)) s))

/-- The highest number this standby holds with every lower one: entries come in order, and numbers of items that are not
durable have none. -/
def heldUpTo (l : List JEntry) (n : Nat) : Nat := l.foldl (fun n e => max n e.accept) n

/-- The highest number of an entry accepted. -/
def lastEntry (s : State) : Nat := (s.sch.journal.filter (fun e => decide (1 ≤ e.state))).foldl (fun n e => max n e.accept) 0

/-- JRNL_COPY: a standby writes the entries into its journal and mirrors, and acknowledges. -/
def execJrnlCopy (h : PHdr) (entries : List JEntry) (s : State) : Res :=
  onPeer true h (fun s =>
    if rd s K.ROLE ≠ 2 then s else
    let new := entries.filter (fun e => decide (s.pair.held < e.accept) && !s.sch.journal.any (fun x => x.accept == e.accept))
    let s := { s with sch.journal := s.sch.journal ++ new.map (fun (e : JEntry) => { e with state := max e.state 1 }) }
    let n := heldUpTo s.sch.journal s.pair.held
    pairSend (.jrnlAck n) (syncAccept { s with pair.held := n, sch.nextAccept := max s.sch.nextAccept (n + 1) })) s

/-- JRNL_ACK: the peer copies of entries exist; SYNCING ends once every accepted entry is held. -/
def execJrnlAck (h : PHdr) (held : Nat) (s : State) : Res :=
  onPeer false h (fun s =>
    if rd s K.ROLE ≠ 1 then s else
    let s := { s with
      pair.acked := max s.pair.acked held
      sch.journal := s.sch.journal.map (fun e => if e.accept ≤ held then { e with peerAck := true } else e) }
    let last := lastEntry s
    let s := if rd s K.PAIR_STATE ≠ 1 then s
      else if last ≤ held then wr K.SYNC_PROGRESS 100 (setPairState 2 s)
      else wr K.SYNC_PROGRESS (held * 100 / last) s
    handOver s) s

/-- JRNL_MARK: the standby applies what is COMMITTED, in order, and frees what is freed. -/
def execJrnlMark (h : PHdr) (committed freed : Nat) (s : State) : Res :=
  onPeer true h (fun s =>
    if rd s K.ROLE ≠ 2 then s else
    let s := s.sch.journal.foldl (fun (s : State) (e : JEntry) =>
      if e.accept ≤ committed ∧ e.state < 2 then jrnlUpd e.accept (fun x => { x with state := 2 }) (reapply e s) else s) s
    let gone := s.sch.journal.filter (fun e => decide (e.accept ≤ freed) && decide (2 ≤ e.state))
    { s with
      sch.journal := s.sch.journal.filter (fun e => !(decide (e.accept ≤ freed) && decide (2 ≤ e.state)))
      sch.freed := (freedKeys gone ++ s.sch.freed).take 65536
      pair.committed := max s.pair.committed committed, pair.freed := max s.pair.freed freed }) s

/-- STAGED_DATA: staged data an entry will name, at its address in the local regions (R387). -/
def execStagedData (h : PHdr) (addr off : Nat) (octets : Bytes) (s : State) : Res :=
  onPeer true h (fun s => if rd s K.ROLE = 2 then mirrorPut (addr + off) octets s else s) s

/-- LEG_CKPT: the media state of a leg (R309). -/
def execLegCkpt (h : PHdr) (c : LegCkpt) (s : State) : Res :=
  onPeer true h (fun s =>
    if rd s K.ROLE ≠ 2 then s else
    let slot (s : State) (k : Nat) : State :=
      match c.slots[k]? with
      | none => s
      | some x =>
        let s := slotUpd c.leg k (fun y => { y with
          limit := some x.limit, tsOff := x.tsOff, lastTs := x.lastTs, lastArr := x.lastArr, source := x.source }) s
        if k = 0 then s else wr (K.SLOT_CUR c.leg (k - 1)) x.cur (wr (K.SLOT_WANT c.leg (k - 1)) x.want s)
    let s := [0, 1, 2, 3].foldl slot s
    let s := wr (K.EST_E c.leg) c.estimate (legUpd c.leg (fun x => { x with tw := c.tw }) s)
    srtpInUpd c.leg (fun x => { x with highest := c.highest.foldl (fun t e => tabSet none t e.1 (some e.2)) x.highest }) s) s

/-- SYNC: with the last segment the standby takes the checkpoint. -/
def execSync (h : PHdr) (part total : Nat) (snap : Option Snapshot) (s : State) : Res :=
  onPeer true h (fun s =>
    if rd s K.ROLE ≠ 2 then s else
    match snap with
    | some c => if part + 1 = total then pairSend (.jrnlAck c.highest) (loadSnapshot c s) else s
    | none => s) s

/-- ROLE: the peer has become active, hands the active role over, or, at a standby's request, is asked to. -/
def execRole (h : PHdr) (peer mine epoch : Nat) (finals : List (Nat × Nat × Nat)) (s : State) : Res :=
  onPeer true h (fun s =>
    if rd s K.ROLE = 1 ∧ epoch = rd s K.EPOCH ∧ mine = 2 then (if pairHealthy s then switchover s else s)
    else if mine = 1 ∧ rd s K.ROLE = 2 then
      cmdComplete 0x0900 0x0D .ok (becomeActive epoch 2 finals s)
    else if mine = 2 ∧ peer = 1 then becomeStandby (wr K.EPOCH (max epoch (rd s K.EPOCH)) s)
    else s) s

/-! ## The relayed segment (R461) -/

/-- RELAY_DOWN: the standby passes the active's downstream channels to its field die. -/
def execRelayDown (h : PHdr) (frameTime : Nat) (samples : List (List Int)) (s : State) : Res :=
  onPeer false h (fun s => if rd s K.ROLE = 2 then lanokSend true (.audioDown frameTime samples) s else s) s

/-- RELAY_UP: upstream audio of the segment the peer relays. -/
def execRelayUp (h : PHdr) (trunk : Fin 8) (block : Fin 4) (_frameTime valid : Nat) (samples : List (List Int))
    (s : State) : Res :=
  onPeer false h (fun s =>
    if rd s K.ROLE = 1 then takeBlock false trunk.val block.val valid samples { s with pair.peerRelays := true } else s) s

/-- PAIR_TIME_ECHO: the echo of this hub's own request gives half the round trip; a request is echoed. -/
def execPairTimeEcho (h : PHdr) (sent holdPs : Nat) (s : State) : Res :=
  onPeer false h (fun s =>
    if s.pair.echoSent = some sent then
      { s with pair.echoSent := none, pair.pathDelay := ((s.isb.now - sent) - holdPs * ns1 / 1000) / 2 }
    else pairSend (.timeEcho sent holdPs) s) s

/-! ## The link (R452) -/

/-- R452: the link is down, and retrains: what was on the way is lost. -/
def linkLost (s : State) : State :=
  let healthy := rd s K.PAIR_STATE == 2
  let handing := s.pair.handing
  let s := { s with
    pair.unacked := [], pair.waiting := [], pair.counters := [], pair.linkDownAt := clk s, pair.healthyBefore := healthy
    pair.beaconAt := none, pair.peerRelays := false, pair.echoSent := none, pair.handing := false
    pair.holding := s.pair.holding && !handing, isb.peerUsable := false, isb.peerSource := none }
  let s := upd handing (cmdComplete 0x0900 0x0D .busy) s
  let s := reselect (wr K.PAIR_LINK_STATE 1 s)
  let s := if rd s K.ROLE = 1 ∨ rd s K.ROLE = 2 then (if rd s K.PAIR_STATE = 4 then s else setPairState 3 s) else s
  upd (hubAsleep s) (wakeHub 0x04) s

/-- PAIR_RESEND: the oldest unacknowledged message is 8 µs old; all are sent again. After 8 re-sends the link is down. -/
def execPairResend (s : State) : Res :=
  match s.pair.unacked with
  | [] => .next s
  | (_, tries, at_, _) :: _ =>
    if clk s < at_ + 8 * us1 then .next s
    else if 8 ≤ tries then .next (linkLost s)
    else
      let u := s.pair.unacked
      let s := u.foldl (fun s e => pairEmit e.1 e.2.2.2 s)
        { s with pair.unacked := u.map (fun e => (e.1, e.2.1 + 1, clk s, e.2.2.2)), pair.sentAt := clk s }
      .next (bumpBy (K.PAIR_LINK_COUNTS 1) u.length s)

/-- PAIR_LINK_DOWN: no good message for PAIR_LINK_TIMEOUT. -/
def execPairLinkDown (s : State) : Res :=
  .next (if pairLinkUp s && decide (s.pair.lastGood + rd s K.PAIR_LINK_TIMEOUT * us1 ≤ clk s) then linkLost s else s)

/-- PAIR_LINK_UP: the link is trained: sequences restart, the path is measured, a standby is to be brought up to date. -/
def execPairLinkUp (s : State) : Res :=
  if !inPair s || rd s K.PAIR_LINK_STATE == 2 || decide (pdState s 11 ≠ pdRun ∧ pdState s 11 ≠ pdLull) then .next s else
  let s := wr K.PAIR_LINK_STATE 2 { s with
    pair.txSeq := 0, pair.rxSeq := 0, pair.unacked := [], pair.waiting := [], pair.counters := [], pair.lastGood := clk s
    pair.syncDue := rd s K.ROLE == 1, pair.echoSent := some s.isb.now, pair.splitAt := none }
  let s := pairSend (.timeEcho s.isb.now 0) s
  .next (if s.pair.roleDue then pairSend (.role 1 2 (rd s K.EPOCH) []) { s with pair.roleDue := false } else s)

/-! ## Beacons (R450, R456, R458, R462) -/

/-- The hub's part of a peer beacon. -/
def beaconFacts (serial role : Nat) (hubLost : Bool) (epoch reach : Nat) (s : State) : State :=
  if !inPair s || hubAsleep s then s else
  let s := wr K.PEER_SERIAL serial { s with
    pair.beaconAt := some (clk s), pair.beaconHubLost := hubLost, pair.peerRole := role, pair.peerReachable := reach }
  let s := peerConfirm s
  let s := if hubLost then s else roleFacts { seq := 0, ack := 0, epoch := epoch } role s.pair.peerAccept s
  if pairLinkUp s then s
  else if rd s K.ROLE = 2 then
    (if hubLost then takeover s.pair.healthyBefore s else setPairState 3 s)
  else if rd s K.ROLE = 1 then setPairState (if hubLost then 4 else 3) s
  else s

/-- BEACON: the field die's part is the mastership (R451), then the hub's. -/
def execBeacon (serial role mode : Nat) (hubLost take yield_ : Bool) (epoch reach m : Nat) (s : State) : Res :=
  let _ := (mode, yield_)
  let s := if take && s.pair.master && s.pair.switchAt.isNone then
      { s with pair.switchAt := some (ceilTo ms1 (fieldNow s + 2 * ms1)) }
    else if m ≠ 0 ∧ s.pair.master = false ∧ s.pair.takeAt.isSome = true then { s with pair.switchAt := some (m * ns1) }
    else s
  .next (upd (lanokUp s) (beaconFacts serial role hubLost epoch reach) s)

/-- BRIDGE_BEACON: the same, on the management port (R464). -/
def execBridgeBeacon (serial role mode : Nat) (hubLost take yield_ : Bool) (epoch reach : Nat) (s : State) : Res :=
  let _ := (mode, take, yield_)
  .next (beaconFacts serial role hubLost epoch reach s)

/-- BRIDGE_BEACON_TIMER: once per millisecond the hub sends its beacon fields. -/
def execBridgeBeaconTimer (s : State) : Res :=
  let dst := rdBlob s K.PEER_MGMT_ADDR
  .next (if !inPair s || modeOf s != mBridge || dst.isEmpty || decide (clk s < s.pair.bridgeBeaconAt + ms1) then s else
    emit (.bridgeBeacon dst (rd s K.UDP_PORT + 1) (leBytes 8 (rd s K.SERIAL) ++ leBytes 1 (rd s K.ROLE) ++ leBytes 1 (modeOf s)
      ++ leBytes 1 0 ++ [0] ++ leBytes 4 (rd s K.EPOCH) ++ leBytes 2 (reachable s) ++ [0, 0] ++ leBytes 8 0))
      { s with pair.bridgeBeaconAt := clk s })

/-- No beacon of the peer has been read for BEACON_TIMEOUT since the link went down. -/
def beaconSilent (s : State) : Bool :=
  !pairLinkUp s && decide (max (s.pair.beaconAt.getD 0) s.pair.linkDownAt + rd s K.BEACON_TIMEOUT * ms1 ≤ clk s)

/-- BEACON_TIMEOUT: neither link nor beacon: a split begins, and work is held until it is settled. -/
def execBeaconTimeout (s : State) : Res :=
  .next (if (rd s K.ROLE = 1 ∨ rd s K.ROLE = 2) ∧ beaconSilent s = true ∧ s.pair.splitAt = none ∧ rd s K.PAIR_STATE ≠ 4 then
      let s := bump K.SPLITS { s with pair.splitAt := some (clk s), pair.holding := true, pair.holdAt := clk s }
      upd (hubAsleep s) (wakeHub 0x04) s
    else s)

/-- The role counts give (R459); in BRIDGE the pin decides (R464). -/
def countsActive (reach : Nat) (s : State) : Bool :=
  let e := enrolled s
  let bridge := modeOf s == mBridge || (modeOf s == mIsland && s.boot.modeBefore == mBridge)
  if bridge then s.flt.pairRolePin && rd s K.ROLE != 3
  else decide (e < 2 * reach) || (2 * reach == e && s.flt.pairRolePin)

/-- Nodes this hub reaches: as master, or those the listener still reaches. -/
def ownReach (reach : Nat) (s : State) : Nat := if s.pair.master then reachable s else reach

/-- SPLIT_SETTLE: the hub decides; a hub in ISLAND decides again while it has no peer. -/
def execSplitSettle (reach : Nat) (s : State) : Res :=
  let c := ownReach reach s
  let due := match s.pair.splitAt with | some t => decide (t + rd s K.SPLIT_SETTLE * ms1 ≤ clk s) | none => false
  let island := rd s K.ROLE == 3 && beaconSilent s
  if !due && !island then .next s else
  let s := wr K.ENROLLED (enrolled s) (wr K.REACHABLE c s)
  let act := countsActive c s
  .next (if rd s K.ROLE = 1 then
      (if act then retryHeld (setPairState 4 { s with pair.splitAt := none, pair.holding := false }) else enterIsland s)
    else if act then takeover s.pair.healthyBefore s
    else if rd s K.ROLE = 3 then s else enterIsland s)

/-! ## Mastership (R451) -/

/-- MASTER_SWITCH: at M the old master becomes the listener and the new one frames, with MASTER_CHANGE set. -/
def execMasterSwitch (s : State) : Res :=
  match s.pair.switchAt with
  | none => .next s
  | some m =>
    if fieldNow s < m then .next s
    else
      let new := !s.pair.master
      let s := { s with pair.master := new, pair.switchAt := none, pair.takeAt := none, pair.switchDone := m, pair.masterChange := new }
      .next (if new then { s with fld.nodes := tabMap {} s.fld.nodes (fun _ x => { x with calib := 0 }) } else s)

/-- TAKE_TIMEOUT: no master beacon answered within 3 ms. -/
def execTakeTimeout (s : State) : Res :=
  .next (match s.pair.takeAt with
    | some t => if s.pair.switchAt.isNone && decide (t + 3 * ms1 ≤ fieldClk s) then
        { s with pair.switchAt := some (ceilTo ms1 (fieldNow s)) } else s
    | none => s)

/-! ## Start and switchover (R463, R465) -/

/-- PAIR_START_TIMEOUT: 2 s without a peer: counts decide. -/
def execPairStartTimeout (reach : Nat) (s : State) : Res :=
  match s.pair.startAt with
  | none => .next s
  | some t =>
    if clk s < t + 2 * s1 then .next s
    else
      let c := ownReach reach s
      let s := wr K.ENROLLED (enrolled s) (wr K.REACHABLE c s)
      .next (modeStart (reselect (setPairState 4 (wr K.ROLE (if countsActive c s then 1 else 3) s))))

/-- SWITCHOVER: key 0900:0D, on either hub of a HEALTHY pair; a standby asks the active. -/
def switchGo (s : State) : State :=
  if rd s K.ROLE = 1 then switchover s else pairSend (.role 1 2 (rd s K.EPOCH) []) s
def writeSwitchover (inst : Inst) (tag : Nat) (s : State) : State :=
  runPending inst tag 0x0900 0x0D [1] (if rd s K.PAIR_STATE = 2 then .pending else .busy) switchGo s

/-- FORCE_ACTIVE: key 0900:0E, in ISLAND alone. -/
def writeForceActive (inst : Inst) (tag : Nat) (s : State) : State :=
  runCmd inst tag 0x0900 0x0E (if rd s K.ROLE = 3 then .ok else .mode) (takeover s.pair.healthyBefore) s

end Sys2Proof.Machine
end

