-- ==== Sys2Proof/Machine/Diag.lean ====
section
/-! DEFINITION. Diagnostics (chapter DIAG): the Storm log in flash, the Vane trace, boundary scan, a part's return. -/
namespace Sys2Proof.Machine

/-! ## Storm log (R504, R505) -/

/-- A record enters the flash ring of 32 sectors of 1,024 records: before a sector is written again, it is erased. -/
def flashRecord (r : Storm) (s : State) : State :=
  let n := s.diag.flashed
  let kept := if n % 1024 = 0 then s.diag.flash.take 31744 else s.diag.flash
  let l := r :: kept
  emit (.flash (0x01C10000 + 64 * (n % 32768)) (stormOctets r)) (wr K.STORM_FLASHED l.length { s with diag.flash := l, diag.flashed := n + 1 })

/-- The oldest record of the PD0 ring that has not been copied is copied. -/
def flashOldest (s : State) : State :=
  match s.diag.ring.reverse.find? (fun r => !r.2) with
  | none => s
  | some (r, _) => flashRecord r { s with diag.ring := s.diag.ring.map (fun x => if x.1.seq = r.seq then (x.1, true) else x) }

/-- STORM_FLASH_COPY. -/
def execStormFlashCopy (s : State) : Res := .next (if s.boot.step = 0 then s else flashOldest s)

/-- A command of SERVICE. -/
def serviceOnly (s : State) : Status := if modeOf s = mService then .ok else .mode

/-- The flash area is erased and the PD0 ring emptied. -/
def stormErase (s : State) : State :=
  wr K.STORM_HELD 0 (wr K.STORM_FLASHED 0 { s with diag.ring := [], diag.flash := [], diag.seq := 0, diag.flashed := 0 })

/-- STORM_CLEAR: key 0C00:05. -/
def writeStormClear (inst : Inst) (tag : Nat) (s : State) : State :=
  runCmd inst tag 0x0C00 5 (serviceOnly s) stormErase s

/-! ## A part's return (R508, R509) -/

/-- The persist area is erased. -/
def persistErase (s : State) : State :=
  { s with dic.persist := [], dic.persistBlobs := [], dic.persistId := 0
           boot.persistSeq0 := 0, boot.persistSeq1 := 0, boot.persistGood0 := false, boot.persistGood1 := false }

/-- Every PD0 record is in flash, a record of the preparation is written, the persist area and the image are erased. -/
def returnGo (s : State) : State :=
  let s := s.diag.ring.foldl (fun s _ => flashOldest s) s
  let s := storm 0x0060 (stormChannel 0xFF 0) [rd s K.SERIAL, rd s K.LAST_ACCEPT] s
  { (persistErase s) with boot.image := [] }

/-- RETURN_PREP: key 0F00:01. COMPLETE comes when the flash is done. -/
def writeReturnPrep (inst : Inst) (tag : Nat) (s : State) : State :=
  runPending inst tag 0x0F00 1 [1] (if modeOf s = mService then .pending else .mode) returnGo s

/-- TEST_UNLOCK: a valid response to the challenge, with TMODE high: the RETURNED fuse is blown, then private test is
unlocked. -/
def execTestUnlock (tmode : Bool) (s : State) : Res :=
  let s := { s with diag.tmode := tmode }
  .next (if tmode then summary 8 true (wr K.RETURNED 1 { s with diag.fuse := true, diag.unlocked := true }) else s)

/-! ## Vane trace (R506) -/

/-- A trace starts with an empty ring and a LOST record for what the last one dropped, or stops. -/
def vaneEnable (v : Nat) (s : State) : State :=
  let was := rd s K.VANE_EN
  let s := wr K.VANE_EN v s
  if v = 1 ∧ was = 0 then vaneLost (wr K.VANE_WP 0 (wr K.VANE_FULL 0 { s with sch.vaneSeq := 0 })) else s

/-- VANE_EN: key 0D00:01. -/
def writeVaneEn (inst : Inst) (tag : Nat) (on : Bool) (s : State) : State :=
  runWrite inst tag 0x0D00 1 on .ok (vaneEnable (b2n on)) s

/-! ## Boundary scan (R507) -/

/-- An instruction is in the instruction register; the register it selects captures. -/
def jtagLoad (code reg : Nat) (s : State) : State := { s with diag.jtag := code, diag.jtagReg := reg }

/-- Instructions that suspend every hub function: the hub is stopped until a cold reset. -/
def jtagSuspend (code reg : Nat) (s : State) : State :=
  let s := jtagLoad code reg s
  if s.diag.suspended then s else { (hubClear s) with diag.suspended := true }

/-- IDCODE of the part: [31:28] the revision digit plus 1. -/
def jtagId (s : State) : Nat := (rd s K.SILICON_REV % 256 + 1) * 268435456 + 0x010004F3

def execBypass (s : State) : Res := .next (emit (.jtag 1 0) (jtagLoad 0xFF 0 s))
def execIdcode (s : State) : Res := .next (emit (.jtag 32 (jtagId s)) (jtagLoad 1 1 s))
def execSamplePreload (s : State) : Res := .next (jtagLoad 2 2 s)
def execExtest (s : State) : Res := .next (jtagSuspend 3 2 s)
def execExtestPulse (s : State) : Res := .next (jtagSuspend 4 2 s)
def execExtestTrain (s : State) : Res := .next (jtagSuspend 5 2 s)
def execClamp (s : State) : Res := .next (jtagSuspend 6 0 s)
def execHighz (s : State) : Res := .next (jtagSuspend 7 0 s)

end Sys2Proof.Machine
end

