-- ==== Sys2Proof/Machine/Effects.lean ====
section
/-! DEFINITION. What an accepted write of a dictionary key does: the value it leaves and what its unit does at once
(R109, R113). A unit that reads its keys when it acts needs nothing here. -/
namespace Sys2Proof.Machine

/-! ## Isobar and the dictionary's own keys -/

/-- A profile's default intervals: AES67, and those of IEEE 1588-2019, Annex I.3 (PRESUMED). -/
def profileLoad (v : Nat) (s : State) : State :=
  let l : Int × Int × Int := if v = 1 then (-3, 1, 0) else (0, 1, 0)
  wrI 16 K.LOG_SYNC l.1 (wrI 16 K.LOG_ANNOUNCE l.2.1 (wrI 16 K.LOG_DELAY_REQ l.2.2 (wr K.PTP_PROFILE v s)))

/-- SRC_PRIO: 255 disables a source; the best source is taken (R31). -/
def sourcePrio (i v : Nat) (s : State) : State :=
  let s := wr (K.SRC_PRIO i) v s
  reselect s

def isbEffect (index sub v : Nat) (s : State) : Option State :=
  let n := index % 16
  if index = 0x1010 then some (sourcePrio (sub - 1) v s)
  else if index = 0x1020 ∧ sub = 2 then some (profileLoad v s)
  else if (index = 0x1050 ∨ index = 0x1051) ∧ sub = 1 then some (ppsEn n v s)
  else if 0x1060 ≤ index ∧ index < 0x1064 ∧ sub = 1 then some (lxEn n v s)
  else if 0x1060 ≤ index ∧ index < 0x1064 ∧ sub = 2 then some (lxIdle n v s)
  else if index = 0x1002 ∧ sub = 4 then some (slewLimit v s)
  else if index = 0x1080 then some (wr K.ALARM v { s with isb.alarmDone := 0 })
  else none

/-- R147: the mirror pair the selection names, lost channels replaced by the lowest others. -/
def mirrorsSet (s : State) : State :=
  let want := if rd s K.JRNL_MIRROR_SEL = 0 then [0, 2] else [1, 3]
  let have_ := want.filter (fun c => s.mem.active.contains c)
  let all := (have_ ++ s.mem.active.filter (fun c => !have_.contains c)).take 2
  wr K.JRNL_DEGRADED (b2n (decide (all.length < 2)))
    (wr K.JRNL_MIRRORS (all.foldl (fun m c => withBit m c true) 0) { s with sch.copying := [] })

/-- The flash slot not booted. -/
def stagingSlot (s : State) : Nat := 1 - s.boot.booted

/-- R471: a slot holds a whole image: MAGIC, the body length it has room for, other header octets 0, a good signature. -/
def slotGood (image : Bytes) : Bool :=
  let n := leAt image 8 4
  leAt image 0 4 == 0x4D4B4657 && decide (n ≤ 8 * 1024 * 1024 - 160) && image.length == n + 160
    && (slice image 12 52).all (fun b => b == 0) && Config.sigValid (nats image)

/-- FW_STAGE (R471): a transfer goes on from what is staged, and one that begins with the header's MAGIC begins an image. -/
def fwStage (value : Bytes) (s : State) : State :=
  let begins := leAt value 0 4 == 0x4D4B4657
  let put (x : FwSlot) : FwSlot :=
    let image := if begins then value else x.image ++ value
    { version := leAt image 4 4, size := image.length, sigGood := slotGood image, image := image }
  let n := stagingSlot s
  let at_ := 0x10000 + n * 0x800000 + if begins then 0 else (slotAt s n).image.length
  let s := emit (.flash at_ value) (if n = 0 then { s with boot.slotA := put s.boot.slotA } else { s with boot.slotB := put s.boot.slotB })
  upd begins (headerPut (fun b => if n = 0 then { b with genA := b.genA + 1 } else { b with genB := b.genB + 1 })) s

/-- SCH and power keys, chapters FLT and DIAG. -/
def sysEffect (index sub v : Nat) (value : Bytes) (s : State) : Option State :=
  if index = 0xF810 ∧ sub = 2 then some (jrnlMarks (jrnlHigh s) (wr K.JRNL_HIGH v s))
  else if index = 0xF810 ∧ sub = 4 then some (mirrorsSet (wr K.JRNL_MIRROR_SEL v s))
  else if index = 0xF801 ∧ sub = 3 then some (fwStage value s)
  else if 0x0420 ≤ index ∧ index < 0x0434 ∧ sub = 3 then
    some (upd (v == 0) (leaveLull (index - 0x0420)) (wr (K.LULL_EN (index - 0x0420)) v s))
  else if index = 0x0800 ∧ sub = 6 then some (wr K.HOST_WATCH v { s with flt.hostPing := clk s })
  else if index = 0x0D00 ∧ sub = 1 then some (vaneEnable v s)
  else none

/-! ## Audio -/

def sapEffect (index sub v : Nat) (s : State) : Option State :=
  if 0x6000 ≤ index ∧ index < 0x6008 ∧ sub = 1 then some (sapEn (index - 0x6000) (v == 1) s)
  else if 0x6000 ≤ index ∧ index < 0x6008 ∧ sub = 2 then some (clocksStop (index - 0x6000) (wr (K.FORMAT (index - 0x6000)) v s))
  else if 0x6000 ≤ index ∧ index < 0x6008 ∧ sub = 3 then some (clocksStop (index - 0x6000) (wr (K.CLOCK (index - 0x6000)) v s))
  else if 0x6200 ≤ index ∧ index < 0x6240 ∧ sub = 1 then some (epEn true (index - 0x6200) (v == 1) s)
  else if 0x6280 ≤ index ∧ index < 0x62C0 ∧ sub = 1 then some (epEn false (index - 0x6280) (v == 1) s)
  else none

/-- R218: a language's booth slot is claimed, the one it had is free. -/
def boothWrite (l sub v : Nat) (s : State) : State :=
  let slot (s : State) : Option Nat := boothClaim (rd s (K.BOOTH_TRUNK (l - 1))) (rd s (K.BOOTH_SLOT (l - 1)))
  let s := match slot s with | some c => unclaim 5 c (boothOwner l) s | none => s
  let s := wr (if sub = 1 then K.BOOTH_TRUNK (l - 1) else K.BOOTH_SLOT (l - 1)) v s
  match slot s with | some c => setClaim 5 c (boothOwner l) s | none => s

def mixEffect (index sub v x : Nat) (s : State) : Option State :=
  if index = 0x6410 ∧ sub = 3 then some (trimWrite x v s)
  else if index = 0x6411 ∧ sub = 5 then some (outGainWrite x v s)
  else if index = 0x6411 ∧ sub = 6 then some (outMuteWrite x v s)
  else if index = 0x6420 ∧ sub = 2 then some (tmFollow (wr K.TM_MAX_OPEN v s))
  else if index = 0x6420 ∧ sub = 4 then some (tmRetarget (wr K.TM_NOM v s))
  else if 0x6441 ≤ index ∧ index < 0x6460 then
    let l := index - 0x6440
    if sub = 1 ∨ sub = 2 then some (boothWrite l sub v s)
    else if sub = 4 then
      some (if rd s (K.RELAY_SRC (l - 1)) = v then s else relaySend l (wr (K.RELAY_SRC (l - 1)) v s))
    else if sub = 5 ∧ v = 0 ∧ (langOf s l).fallback = true then some (langFade l false (wr (K.FALLBACK (l - 1)) v s))
    else none
  else if 0x6700 ≤ index ∧ index < 0x6710 ∧ sub = 2 then some (loudEn (index - 0x6700) v s)
  else if 0x6800 ≤ index ∧ index < 0x6900 ∧ sub = 3 then some (deskEn (index - 0x6800) (v == 1) s)
  else none

def dspEffect (index sub v : Nat) (value : Bytes) (s : State) : Option State :=
  if 0x6C40 ≤ index ∧ index < 0x6C80 ∧ sub = 1 then
    some (imageWritten (index - 0x6C40) (wrBlob (K.KIMAGE (index - 0x6C40)) value s))
  else if 0x6E00 ≤ index ∧ index < 0x6E08 ∧ sub = 9 then some (tickEn (index - 0x6E00) (v == 1) s)
  else none

/-! ## Packets and legs -/

/-- FCO_EN claims the pin; a disabled pin is not driven (R256, Table PIN-3). -/
def fcoEn (n v : Nat) (s : State) : State :=
  let own := ownKey (0x7180 + n) 1
  let was := rd s (K.FCO_EN n)
  let s := wr (K.FCO_EN n) v s
  if v = 1 then
    (if was = 1 then s else
      -- the pin takes its level whatever it was left at
      let level := if fcoCondition s n then rd s (K.FCO_ACTIVE n) else 1 - rd s (K.FCO_ACTIVE n)
      emit (.pin (fcoName n) (level == 1)) (wr (K.FCO_LEVEL n) level (setClaim 2 n own s)))
  else wr (K.FCO_LEVEL n) 0 (unclaim 2 n own s)

def pktEffect (index sub v x : Nat) (k : Nat) (value : Bytes) (s : State) : Option State :=
  if 0x7000 ≤ index ∧ index < 0x7008 then
    let p := index - 0x7000
    if sub = 1 then some (portEn p (v == 1) s)
    else if sub = 0x0C ∨ sub = 0x10 ∨ sub = 0x11 then some (congestPort (wr k v s) p)
    else none
  else if index = 0x7100 ∧ 3 ≤ sub ∧ sub ≤ 5 then some (settle [] (wr k v s))
  else if index = 0x7110 ∧ 3 ≤ sub ∧ sub ≤ 5 then some (settle [x] (wr k v s))
  else if 0x7180 ≤ index ∧ index < 0x7184 ∧ sub = 1 then some (fcoEn (index - 0x7180) v s)
  else if 0x7180 ≤ index ∧ index < 0x7184 then some (fcoSync (keyStore k value s) (index - 0x7180))
  else none

def trfEffect (index sub v x k : Nat) (s : State) : Option State :=
  if index = 0x7900 ∧ 2 ≤ sub ∧ sub ≤ 6 then some (polWrite x k v s)
  else if index = 0x7900 ∧ (sub = 0x10 ∨ sub = 0x11) then some (shaperChange x (wr k v) s)
  else if 0x7800 ≤ index ∧ index < 0x7808 ∧ 2 ≤ sub ∧ sub < 0x0A then
    some (classChange (index - 0x7800) ((sub - 2) % 4) (wr k v) s)
  else none

def fwdEffect (index sub v : Nat) (s : State) : Option State :=
  let l := index - 0x8000
  if sub = 1 then some (legEn l (v == 1) s)
  else if sub = 0x20 ∨ sub = 0x28 ∨ sub = 0x30 then some (setSource l ((sub - 0x20) / 8) v s)
  else none

/-! ## Pictures, DMA -/

/-- A signature region is off, or starts with no alarm (R369). -/
def sigMode (i v : Nat) (s : State) : State :=
  if rd s (K.SIG_MODE i) = v then s else
  cmpUpd (i / 16) (fun y => { y with sigs := tabErase y.sigs (i % 16) })
    (wr (K.SIG_STATE i) (if v = 0 then 0 else 1) (wr (K.SIG_MODE i) v s))

def vidEffect (index sub v : Nat) (s : State) : Option State :=
  if sub ≠ 1 ∨ index = 0xDF00 then none
  else if index < 0xD400 then some (decEn (index - 0xD000) (v == 1) s)
  else if index < 0xD500 then some (encEn (index - 0xD400) (v == 1) s)
  else none

def cmpEffect (index sub v : Nat) (s : State) : Option State :=
  if 0xE000 ≤ index ∧ index < 0xE040 ∧ sub = 1 then some (outEn (index - 0xE000) (v == 1) s)
  else if 0xE400 ≤ index ∧ index < 0xE800 ∧ sub = 1 then some (sigMode (index - 0xE400) v s)
  else if 0xE800 ≤ index ∧ index < 0xE900 ∧ sub = 1 then some (ovlBase (index - 0xE800) v s)
  else none

def dmaEffect (index sub v : Nat) (s : State) : Option State :=
  if 0xF000 ≤ index ∧ index < 0xF040 ∧ sub = 1 then some (dmaEn (index - 0xF000) (v == 1) s) else none

/-! ## All of them -/

/-- The effect of an accepted write of a key that is no command. -/
def keyEffect (k : Nat) (value : Bytes) (s : State) : State :=
  let index := keyIndex k
  let sub := keySub k
  let x := keyInst k
  let v := leVal value
  let own : Option State :=
    if index < 0x1000 then sysEffect index sub v value s
    else if index < 0x1400 then isbEffect index sub v s
    else if index < 0x6000 then some (fieldKeyWrite k v s)
    else if index < 0x6400 then sapEffect index sub v s
    else if index < 0x6C00 then mixEffect index sub v x s
    else if index < 0x7000 then dspEffect index sub v value s
    else if index < 0x7800 then pktEffect index sub v x k value s
    else if index < 0x7C00 then trfEffect index sub v x k s
    else if index < 0x8000 then none
    else if index < 0xD000 then fwdEffect index sub v s
    else if index < 0xE000 then vidEffect index sub v s
    else if index < 0xF000 then cmpEffect index sub v s
    else if index < 0xF800 then dmaEffect index sub v s
    else sysEffect index sub v value s
  own.getD (keyStore k value s)

end Sys2Proof.Machine
end

