-- ==== Sys2Proof/Machine/Boot.lean ====
section
/-! DEFINITION. Start-up (chapter BOOT): supplies and resets, the steps of a cold boot, the layers of the dictionary's values,
the firmware slots, the end of a replay. -/
namespace Sys2Proof.Machine

/-! ## Supplies and resets (R430, R487, R488, R493, R504) -/

/-- T0: the boot ROM runs in PD0; Isobar starts in FREE; the regulator enables rise and every other domain starts its wake
order (R38, R423, R433). -/
def coldStart (s : State) : State :=
  let s := summary 2 true (wr (K.PD_STATE 0) pdRun { s with boot.step := 1, boot.coldEntry := true, boot.restart := true })
  let s := driveVme true (driveVsd true s)
  hubDomains.foldl (fun s d => domainUpd d (fun _ => { step := 1, from_ := pdOff, since := clk s }) (wr (K.PD_STATE d) pdWaking s)) s

/-- COLD_BOOT: RST_N is high with the supplies present. -/
def execColdBoot (rolePin : Bool) (s : State) : Res :=
  .next (if s.boot.step ≠ 0 ∨ s.boot.supply = false ∨ s.pwr.hpwrEn = false ∨ s.diag.suspended = true then s
    else coldStart (wr K.PAIR_ROLE_PIN (b2n rolePin) { s with boot.rstLow := false, flt.pairRolePin := rolePin }))

/-- WAKE_N: low for 1 µs: OFF ends with a cold boot; else it is a privileged wake event (Table PWR-4). -/
def execWakeN (s : State) : Res :=
  .next (if s.boot.supply = false ∨ s.boot.rstLow = true ∨ s.diag.suspended = true then s
    else if s.boot.step = 0 then
      (if s.pwr.hpwrEn then s else coldStart (emit (.pin "HPWR_EN" true) { s with pwr.hpwrEn := true }))
    else privileged 1 0 s.isb.now s)

/-- RST_N_LOW: the hub is held in reset; a cold reset alone ends a boundary-scan suspension (R507). -/
def execRstNLow (s : State) : Res :=
  let s := hubClear s
  .next { s with boot.rstLow := true, diag.suspended := false }

/-- CORE_BROWNOUT: an internal cold reset while RST_N is high. -/
def execCoreBrownout (s : State) : Res := .next (if s.boot.rstLow ∨ s.boot.step = 0 then s else hubClear s)

/-- VDD_IO_RISE. -/
def execVddIoRise (s : State) : Res :=
  .next (if s.boot.supply ∧ s.pwr.hpwrEn then s else
    emit (.pin "HPWR_EN" true) { s with boot.supply := true, pwr.hpwrEn := true })

/-- VDD_IO_REMOVED: the PD0 ring is lost; records go on from the number after the newest in flash. -/
def execVddIoRemoved (s : State) : Res :=
  let s := hubClear s
  let next := match s.diag.flash with | r :: _ => r.seq + 1 | [] => 0
  .next (wr K.STORM_HELD 0 { s with
    boot.supply := false, pwr.hpwrEn := false, pwr.vmePg := false, pwr.vsdPg := false
    diag.ring := [], diag.seq := next, diag.suspended := false })

/-- MGMT_LINK_CHANGE. -/
def execMgmtLinkChange (state : Fin 3) (s : State) : Res :=
  .next (if s.boot.step = 0 then s else wr K.MGMT_STATE state.val s)

/-! ## Firmware slots (R470–R472) -/

/-- The boot ROM chooses the slot: the header, a trial's tries, the signatures. -/
def bootSlot (s : State) : State :=
  let s := if s.boot.header0Good || s.boot.header1Good then s
    else { s with boot.activeSlot := 0, boot.trial := false, boot.imageKey := [] }
  let s := upd s.boot.trial (headerPut (fun b => { b with tries := b.tries + 1 })) s
  let s := if s.boot.trial ∧ 3 ≤ s.boot.tries then
      headerPut (fun b => { b with trial := false, activeSlot := 1 - b.activeSlot }) s
    else s
  let a := s.boot.activeSlot
  let gen (n : Nat) : Nat := if n = 0 then s.boot.genA else s.boot.genB
  if (slotAt s a).sigGood then { s with boot.booted := a }
  else
    let s := storm 0x0030 (stormChannel 0xFF 0) [a, gen a] s
    if (slotAt s (1 - a)).sigGood then { s with boot.booted := 1 - a }
    else { s with boot.recovery := true }

/-- Step 3: the slot is read and verified. With no good slot the hub is in recovery: only PD0 and PD12 run. -/
def bootFirmware (s : State) : State :=
  let s := bootSlot s
  if s.boot.recovery then
    let s := (hubDomains.filter (· != 12)).foldl (fun s d => domainUpd d (fun _ => {}) (wr (K.PD_STATE d) pdOff s)) s
    wr K.MODE mService (driveVme false s)
  else
    let f := slotAt s s.boot.booted
    let s := wr K.FW_SLOT s.boot.booted (wr K.FW_VERSION f.version s)
    let s := wrBlob K.FW_DIGEST (leBytes 48 (Config.sha384 (nats f.image))) s
    storm 0x0001 (stormChannel 0xFF 0) [rd s K.LAST_RESET, s.boot.booted, rd s K.ROM_VERSION] { s with flt.wdtServed := clk s }

/-- FW_STAGE: key F801:03; the slot has room for 8 MiB. -/
def writeFwStage (inst : Inst) (tag : Nat) (octets : Bytes) (s : State) : State :=
  let room := leAt octets 0 4 == 0x4D4B4657 || decide ((slotAt s (stagingSlot s)).image.length + octets.length ≤ 8 * 1024 * 1024)
  runWriteV inst tag K.FW_STAGE octets
    (worst (keyStatus K.FW_STAGE octets s) (if room then .ok else .range)) (fwStage octets) s

/-- FW_ACTIVATE: key F801:04: a staged slot that passes is named active, on trial. -/
def fwActivate (s : State) : State :=
  let n := stagingSlot s
  let s := { s with boot.busy := s.boot.busy ++ [0xF80104] }
  if (slotAt s n).sigGood then
    headerPut (fun b => { b with activeSlot := n, trial := true, tries := 0 }) s
  else s
def writeFwActivate (inst : Inst) (tag : Nat) (s : State) : State :=
  runPending inst tag 0xF801 4 [1] (if modeOf s = mService then .pending else .mode) fwActivate s

/-- FACTORY_RESET: key 0005:02: the persisted values are erased; an empty copy is the newest. -/
def factoryReset (s : State) : State :=
  let n := (max s.boot.persistSeq0 s.boot.persistSeq1) + 1
  let s := emit (.flash 0x01410000 (persistOctets n (rd s K.IMAGE_ID) [] [])) s
  summary 7 false (wr K.PERSIST_PENDING 0 { s with
    dic.persist := [], dic.persistBlobs := [], dic.dirty := [], dic.flashing := none
    boot.persistSeq0 := n, boot.persistGood0 := true, boot.busy := s.boot.busy ++ [0x000502]
    sch.journal := s.sch.journal.map (fun e => { e with unpersisted := [] }) })
def writeFactoryReset (inst : Inst) (tag : Nat) (s : State) : State :=
  runPending inst tag 0x0005 2 [1] (if modeOf s = mService then .pending else .mode) factoryReset s

/-! ## The dictionary image (R128) -/

/-- The records that octets spell, `none` when they do not end with the last one: 8-octet headers, values padded to 4. -/
def imageRecords : Nat → Bytes → Option (List ImgRec)
  | 0, b => if b.isEmpty then some [] else none
  | n + 1, b =>
    let len := leAt b 4 2
    let all := 8 + (len + 3) / 4 * 4
    if b.length < all then none
    else (imageRecords n (b.drop all)).map (fun l =>
      { index := leAt b 0 2, sub := leAt b 2 1, typ := leAt b 3 1, value := (b.drop 8).take len } :: l)

/-- The image in the flash region; none where MAGIC is not there. -/
def imageOf (s : State) : Option Image :=
  let b := s.boot.image
  if leAt b 0 4 ≠ 0x4D4B4449 then none else
  let body := (b.drop 32).take (leAt b 16 4)
  let recs := if body.length = leAt b 16 4 ∧ leAt b 4 2 = 1 ∧ leAt b 12 4 ≤ body.length ∧ crc32 body = leAt b 20 4 then
    imageRecords (leAt b 12 4) body else none
  some { targetMode := leAt b 6 1, signed := bitOf (leAt b 7 1) 0, imageId := leAt b 8 4
         crcGood := recs.isSome, sigGood := s.boot.imageSig, records := recs.getD [] }

/-! ## Memory (R386–R390, R397) -/

/-- A value as the layers of R129 will give it, read before they are applied. -/
def coldValue (k : Nat) (s : State) : Nat :=
  let id := ((imageOf s).map Image.imageId).getD 0
  match (if s.dic.persistId = id then tabGet 0 (s.dic.persist.map (fun e => (e.1, e.2 + 1))) k else 0) with
  | v + 1 => v
  | 0 =>
    match (imageOf s).bind (fun i => if i.crcGood then i.records.find? (fun r => key r.index r.sub 0 == k) else none) with
    | some r => leVal r.value
    | none => regDefault k

/-- A BLOB as the layers will give it. -/
def coldBlob (k : Nat) (s : State) : Bytes :=
  let id := ((imageOf s).map Image.imageId).getD 0
  match (if s.dic.persistId = id then tabGet none s.dic.persistBlobs k else none) with
  | some b => b
  | none => ((imageOf s).bind (fun i =>
      if i.crcGood then i.records.find? (fun r => key r.index r.sub 0 == k) else none)).elim (blobDefault k) (·.value)

/-- A channel's configuration within Table MEM-1: ranks, device width, density in Gb, MT/s. -/
structure DdrConfig where
  ranks : Nat
  width : Nat
  density : Nat
  rate : Nat
deriving DecidableEq, Repr

/-- Octets of the channel: 64 data bits of devices in each rank. -/
def DdrConfig.size (g : DdrConfig) : Nat := g.density * 134217728 * (64 / g.width) * g.ranks

/-- CH_GEOMETRY. -/
def DdrConfig.word (g : DdrConfig) : Nat := g.ranks + 16 * g.width + 256 * g.density + 65536 * g.rate

/-- Data rates of Table MEM-1 and the shortest clock period each needs, in ps; the fastest a module's period allows. -/
def ddrRates : List (Nat × Nat) :=
  [(3200, 625), (2933, 682), (2666, 750), (2400, 833), (2133, 937), (1866, 1071), (1600, 1250)]
def ddrRate (tck : Nat) : Option Nat := (ddrRates.find? (fun e => decide (tck ≤ e.2))).map (·.1)

/-- R386: the configuration a JEDEC DDR4 SPD spells (PRESUMED, assumption 158); none outside Table MEM-1. `module`: the
channel carries a module, whose type is checked. -/
def spdConfig (module : Bool) (b : Bytes) : Option DdrConfig :=
  let at_ (i : Nat) : Nat := leAt b i 1
  let density := if at_ 4 % 16 = 5 then 8 else if at_ 4 % 16 = 6 then 16 else 0
  let width := if at_ 12 % 8 = 0 then 4 else if at_ 12 % 8 = 1 then 8 else 0
  let ranks := at_ 12 / 8 % 8 + 1
  let tck := (125 * (at_ 18 : Int) + toInt 8 (at_ 125)).toNat
  match ddrRate tck with
  | none => none
  | some rate =>
    let g : DdrConfig := { ranks := ranks, width := width, density := density, rate := rate }
    if b.length = 0 ∨ at_ 2 ≠ 0x0C ∨ density = 0 ∨ width = 0 ∨ 2 < ranks ∨ at_ 4 / 16 % 4 ≠ 0 ∨ at_ 4 / 64 ≠ 2
        ∨ at_ 6 % 4 = 2 ∨ at_ 13 % 8 ≠ 3 ∨ at_ 13 / 8 % 4 ≠ 1 ∨ (module = true ∧ [1, 2, 3, 9].contains (at_ 3 % 16) = false)
        ∨ g.size < 4294967296 ∨ 17179869184 < g.size then none
    else some g

/-- The configuration of a channel: its module's SPD, or MEMDOWN_SPD for all four (CONFIG_SRC). -/
def channelConfig (s : State) (f : ChFact) : Option DdrConfig :=
  if coldValue K.CONFIG_SRC s = 1 then spdConfig false (coldBlob K.MEMDOWN_SPD s) else f.spd.bind (spdConfig true)

/-- A channel with a configuration within Table MEM-1, else it is ABSENT: in RUN, or retired when its first attempt and 3
retries failed. -/
def channelBoot (s : State) (f : ChFact) : State :=
  let c := f.channel
  match channelConfig s f with
  | none => wr (K.CH_STATE c) chAbsent (wr (K.CH_GEOMETRY c) 0 (wr (K.CH_SIZE c) 0 s))
  | some g =>
  let s := wr (K.CH_TEMP c) f.temp (wr (K.CH_GEOMETRY c) g.word (wr (K.CH_SIZE c) g.size s))
  let s := ddrUpd c (fun _ => {}) s
  if f.trained then wr (K.CH_STATE c) chRun s
  else wr (K.CH_STATE c) chRetired (markRetired cDdr c (recentUpsets s cDdr c).length s)

/-- Step 4: every present channel is trained; the layout follows. With no channel PD18 is FAILED and steps 5–7 are left
out: the defaults stand, the scheduler runs without a mirror. -/
def bootMemory (l : List ChFact) (s : State) : State :=
  let l := l.filter (fun f => decide (f.channel < 4))
  let s := l.foldl channelBoot { s with mem.grain := coldValue K.INTERLEAVE_GRAIN s }
  let rates := (l.filterMap (channelConfig s)).map DdrConfig.rate
  let s := upd (!rates.isEmpty) (wr K.DATA_RATE (rates.foldl min (coldValue K.SPEED_MAX s))) s
  let s := setActive ((List.range 4).filter (fun c => chState s c == chRun)) s
  if s.mem.active.isEmpty then
    let s := wr K.SCHED_STATE 0 (wr K.JRNL_DEGRADED 1 (wr K.JRNL_MIRRORS 0 s))
    let s := markRetired cDomain 18 0 (pwrEvt 3 (wr (K.PD_STATE 18) pdFailed s))
    { s with boot.step := 6, boot.ddrFailed := true, boot.safeCauses := s.boot.safeCauses ++ [1], boot.safeHolds := true }
  else
    let d := defaultLayout (rd s K.MEM_SIZE)
    wr K.SPILL_BASE d.1 (wr K.VPOOL_BASE d.2.1 (wr K.VPOOL_SIZE d.2.2 s))

/-! ## The layers of the dictionary's values (R129, R473, R476) -/

/-- The instance an image's records select under. -/
def imageInst : Inst := { tr := 5 }

/-- An image's record of a node's SERIAL is a row of the node table (R88, R128; DESIGN CHOICE, assumption 142). -/
def isTableRow (index sub : Nat) : Bool := decide (0x2000 ≤ index ∧ index < 0x6000) && sub == 2

/-- A row of the node table. -/
def tablePut (n : Nat) (value : Bytes) (s : State) : State :=
  { s with dic.nodeTable := tabSet 0 s.dic.nodeTable n (leVal value) }

/-- A value of a layer takes effect; a kernel image is checked and placed at once (R183). -/
def layerPut (k : Nat) (value : Bytes) (s : State) : State :=
  if isTableRow (keyIndex k) (keySub k) then tablePut (keyIndex k - 0x2000) value s else
  let s := keyEffect k value s
  if 0x6C40 ≤ keyIndex k ∧ keyIndex k < 0x6C80 ∧ keySub k = 1 then validateImage (keyIndex k - 0x6C40) s else s

/-- A record as a write in TARGET_MODE: the key it names with its value, and the state after it; or none. -/
def recordPut (r : ImgRec) (s : State) : Option (Nat × State) :=
  match entryOf r.index r.sub with
  | none => none
  | some e =>
    let k := keyOf imageInst r.index r.sub s
    if isTableRow r.index r.sub then
      (if r.typ = tyCode e.ty ∧ r.value.length = 8 then some (k, layerPut k r.value s) else none)
    else if e.acc = .cmd ∨ r.typ ≠ tyCode e.ty ∨ keyStatus k r.value s ≠ .ok then none else some (k, layerPut k r.value s)

/-- The records of an image in order: the keys and values they leave, or the first failing key. -/
def recordsPut : List ImgRec → List (Nat × Bytes) → State → Except Nat (List (Nat × Bytes))
  | [], done, _ => .ok done
  | r :: t, done, s =>
    match recordPut r s with
    | none => .error (r.index * 256 + r.sub)
    | some (k, s) => recordsPut t (done ++ [(k, r.value)]) s

/-- R129: a good image's values; `error` with the first failing key otherwise. -/
def imageValues (i : Image) (s : State) : Except Nat (List (Nat × Bytes)) :=
  let signedOnly := s.dic.persistId == i.imageId && s.dic.persist.any (fun e => e.1 == K.IMAGE_SIGNED_ONLY && e.2 == 1)
  let keyGood := !s.boot.imageKey.isEmpty
  let boots := i.records.find? (fun r => r.index == 0x0001 && r.sub == 3)
  if !i.crcGood || (signedOnly && !(i.signed && i.sigGood && keyGood)) || decide (3 < i.targetMode) then .error 0
  else if (match boots with | some r => leVal r.value != i.targetMode | none => false) then .error 0x0103
  else recordsPut i.records [] (wr K.MODE i.targetMode s)

/-- Enables, which follow the values their units read. -/
def isEnable (k : Nat) : Bool :=
  let i := keyIndex k
  let sub := keySub k
  (sub == 1 && ((decide (0x6000 ≤ i ∧ i < 0x6300)) || (decide (0x7000 ≤ i ∧ i < 0x7008)) || (decide (0x7180 ≤ i ∧ i < 0x7184))
      || (decide (0x8000 ≤ i ∧ i < 0xD500)) || (decide (0xE000 ≤ i ∧ i < 0xE040)) || (decide (0xF000 ≤ i ∧ i < 0xF040))
      || (decide (0x1050 ≤ i ∧ i < 0x1064)) || (decide (0x6600 ≤ i ∧ i < 0x6640)) || (decide (0xF820 ≤ i ∧ i < 0xF828))))
    || (sub == 3 && decide (0x6800 ≤ i ∧ i < 0x6900)) || (sub == 7 && decide (0x6D00 ≤ i ∧ i < 0x6E00))
    || (sub == 9 && decide (0x6E00 ≤ i ∧ i < 0x6E08)) || (sub == 2 && decide (0x6700 ≤ i ∧ i < 0x6710))

/-- The persisted layer as keys and octets. -/
def persisted (s : State) : List (Nat × Bytes) :=
  (s.dic.persist.map (fun e => (e.1, leBytes ((entryOf (keyIndex e.1) (keySub e.1)).map (fun x => x.ty.size) |>.getD 0) e.2)))
    ++ s.dic.persistBlobs.filterMap (fun e => e.2.map (fun b => (e.1, b)))

/-- Values in their order, a later one in place of an earlier one of its key. -/
def lastValues (l : List (Nat × Bytes)) : List (Nat × Bytes) :=
  l.foldl (fun (r : List (Nat × Bytes)) (e : Nat × Bytes) => r.filter (fun x => x.1 != e.1) ++ [e]) []

/-- The writable field keys take their defaults in the hub; the field die's copy stays until its rewrite. -/
def fieldDefaults (s : State) : State :=
  ((s.regs.map (·.1)).filter isFieldKey).foldl (fun s k =>
    if 0x1430 ≤ keyIndex k ∧ keyIndex k < 0x1440 ∧ keySub k = 4 then s else fieldKeyWrite k (regDefault k) s) s

/-- R129: defaults, then the image, then what was persisted under the image's IMAGE_ID; enables follow the rest. -/
def applyLayers (s : State) : State :=
  let s := fieldDefaults { s with dic.nodeTable := [] }
  let (values, s) : List (Nat × Bytes) × State := match imageOf s with
    | none => ([], s)
    | some i => match imageValues i s with
      | .ok l => (l, wr K.IMAGE_STATE 1 (wr K.IMAGE_ID i.imageId { s with dic.imageLayer := lastValues l }))
      | .error k => ([], wr K.IMAGE_STATE 2 (wr K.IMAGE_ERR_KEY k s))
  let copies := s.boot.persistGood0 || s.boot.persistGood1
  let s := if copies then s else
    storm 0x0031 (stormChannel 0xFF 0) [s.boot.persistSeq0, s.boot.persistSeq1] (summary 0 true s)
  let same := s.dic.persistId == rd s K.IMAGE_ID
  let values := if copies && same then lastValues (values ++ persisted s) else lastValues values
  let s := if same then s else { s with dic.persist := [], dic.persistBlobs := [], dic.persistId := rd s K.IMAGE_ID }
  let s := (values.filter (fun e => !isEnable e.1)).foldl (fun s e => layerPut e.1 e.2 s) s
  featuresStop ((values.filter (fun e => isEnable e.1)).foldl (fun s e => layerPut e.1 e.2 s) s)

/-- Step 7: the layers; the serial audio ports drive their balls from now on; then BOOT_SET and the start step of R38. -/
def bootValues (s : State) : State :=
  let s := (List.range 8).foldl (fun s n => if (sapOf s n).phase = 0 then sapIdle n s else s) (applyLayers s)
  let t := rd s K.COLD_START_TIME
  let s := { s with isb.bootSet := true }
  if rd s K.EVER_QUALIFIED = 0 ∧ t ≠ 0 then stepIsobar (t * ns1 / fineTick * fineTick + s.isb.elapsed) s else s

/-! ## The steps (R474, R475) -/

/-- Step 5 begins: the verified image is copied to both mirror channels (R160). -/
def imageCopied (s : State) : State := mirrorPut imageArea (slotAt s s.boot.booted).image s

/-- Step 6: the pool's self-test; a pool that fails it keeps the hub in SAFE. -/
def poolFailedCause (s : State) : State :=
  if rd s K.POOL_MODE ≠ pmFailed then safeCleared 4 s
  else enterSafe 4 s

/-- A domain is settled: no longer in its wake order. -/
def settled (s : State) (l : List Nat) : Bool := l.all (fun d => pdState s d != pdWaking)

/-- BOOT_STEP_COMPLETE. -/
def execBootStepComplete (channels : List ChFact) (cells : Nat) (s : State) : Res :=
  let on (n : Nat) (s : State) : State := { s with boot.step := n }
  .next (if s.boot.recovery then s else
    match s.boot.step with
    | 1 => if settled s [12] then on 2 { s with flt.pcieUp := !s.flt.perstLow } else s
    | 2 => on 3 (bootFirmware s)
    | 3 => if settled s [18] then
        (let s := bootMemory channels s
         if s.boot.ddrFailed then on 7 s else on 4 (imageCopied (mirrorsSet s)))
      else s
    | 4 => if settled s [1, 2, 3, 4, 5, 6, 7, 8, 9] then on 5 (wr K.SCHED_STATE 0 s) else s
    | 5 => if settled s [10] then on 6 (poolFailedCause (poolTested cells s)) else s
    | 6 => on 7 (bootValues s)
    | 7 =>
      let s := on 8 s
      if rd s K.PAIR_EN = 1 then { s with pair.startAt := some (clk s) } else s
    | 8 => if s.pair.startAt.isSome ∨ settled s hubDomains = false then s else modeStart s
    | _ => s)

/-- POOL_TEST_DONE: the test of POOL_TEST or of a recovery (R262) has ended. -/
def execPoolTestDone (cells : Nat) (s : State) : Res :=
  .next (if s.boot.step < 9 ∨ rd s K.POOL_MODE ≠ pmSpill ∨ s.mem.reinterleave = true then s
    else poolFailedCause (poolTested cells s))

/-! ## Warm reset and the end of replay (R151, R435, R445, R446) -/

/-- WARM_RESET: key 0003:01, after its response. -/
def writeWarmReset (inst : Inst) (tag : Nat) (s : State) : State :=
  runAfter inst tag 0x0003 1 .ok
    (fun s => if s.boot.recovery then wr K.LAST_RESET 1 (barsReset s) else warmReset 1 s) s

/-- LIMP ends: the PLLs have locked; domains start, and a boot it had stopped goes on. -/
def limpEnd (s : State) : State :=
  let s := safeCleared 2 (wr K.LIMP 0 (wr K.ISB_STATE (if rd s K.EVER_QUALIFIED = 1 then isbHoldover else isbFree) s))
  let s := hubDomains.foldl (fun s d => wakeDomain d s) s
  if s.boot.step = 10 then wr K.MODE mHallDefault (wr K.SCHED_STATE 1 { s with boot.step := 1 }) else s

/-- R151: an entry of which no copy is good is lost: the loss is recorded, and its work does not run again. -/
def entryLost (n : Nat) (s : State) : State :=
  match s.sch.journal.find? (fun e => e.accept == n) with
  | none => s
  | some e =>
    let keep (l : List Staged) : List Staged := l.filter (fun st => st.accept != n)
    let staged := (s.sch.ready.flatMap (·.2) ++ s.sch.hold.flatMap (·.2) ++ s.sch.delay).filter (fun st => st.accept == n)
    let s := staged.foldl (fun s st => if st.cluster < 8 then wr (K.CL_STAGED st.cluster) (rd s (K.CL_STAGED st.cluster) - 1) s else s) s
    summary 0 true (storm 0x0020 (stormChannel 0xFF 0) [n, classOf e.act] { s with
      sch.journal := s.sch.journal.filter (fun e => e.accept != n)
      sch.ready := tabMap [] s.sch.ready (fun _ l => keep l)
      sch.hold := tabMap [] s.sch.hold (fun _ l => keep l)
      sch.delay := keep s.sch.delay })

/-- R151, R152: the durable values after replay. With every entry good they are as they were; where a COMMITTED entry is lost,
what the newest checkpoint holds is loaded and the other COMMITTED entries above it are applied again. -/
def replayValues (lost : List Nat) (s : State) : State :=
  match s.sch.cps.head? with
  | none => s
  | some c =>
    let above := s.sch.journal.filter (fun e => decide (c.highest < e.accept) && e.state == 2)
    if above.all (fun e => !lost.contains e.accept) then s
    else (above.filter (fun e => !lost.contains e.accept)).foldl (fun s e => reapply e s) (loadValues c s)

/-- REPLAY_DONE: new work is taken again; the mode held is entered; a third watchdog reset within 600 s leads to SAFE, whose
cause is cleared at once. -/
def execReplayDone (locked : Bool) (lost : List Nat) (s : State) : Res :=
  if rd s K.SCHED_STATE ≠ 1 ∨ (s.boot.step < 9) then .next s else
  let s := lost.foldl (fun s n => entryLost n s) (replayValues lost s)
  let s := schEvt 11 (wr K.REPLAY_TIME ((clk s - s.sch.replayAt) / us1) (wr K.SCHED_STATE 0 s))
  let s := if rd s K.LIMP = 1 then (if locked then limpEnd s else wr K.SCHED_STATE 2 s) else s
  if s.boot.step = 1 then .next s else
  let third := rd s K.LAST_RESET == 2 && decide (3 ≤ (wdtRecent s).length)
  let s := upd third (fun s => { s with boot.safeCauses := s.boot.safeCauses ++ [3], boot.safeHolds := true }) s
  if rd s K.PAIR_EN = 1 then .next { s with pair.startAt := some (clk s) }
  else .next (safeCleared 3 (modeStart s))

end Sys2Proof.Machine
end

