-- ==== Sys2Proof/Machine/Apply.lean ====
section
/-! DEFINITION. Any write by its key: commands, enables that wake a domain, other values; writes that take effect as one unit
(R116, R120); durable work as the journal accepts it (R135, R146). -/
namespace Sys2Proof.Machine

/-! ## Commands by their key -/

/-- A command its mode does not allow, whatever its value. -/
def cmdMode (index sub : Nat) (s : State) : Status :=
  let service := [(0x1001, 1), (0x0005, 2), (0xF801, 4), (0x7100, 0x0F), (0x0C00, 5), (0x0F00, 1)].contains (index, sub)
  if (service && modeOf s != mService) || ((index, sub) == (0x0400, 4) && modeOf s != mStandby)
      || ((index, sub) == (0x0900, 0x0E) && rd s K.ROLE != 3) then .mode else .ok

/-- Table FWD-2: a transaction written to LEG_CTRL. Octets the operation does not use are 0. -/
def writeLegCtrl (i : Inst) (tag leg : Nat) (b : Bytes) (s : State) : State :=
  let txn := leAt b 0 4
  let slot := leAt b 5 1
  let max := leAt b 6 1
  let code := leAt b 8 4
  if leAt b 7 1 ≠ 0 ∨ leAt b 12 4 ≠ 0 then runCmdV i tag (0x8000 + leg) 0x0C b .range id s else
  match leAt b 4 1 with
  | 1 => writeLegCtrlEnable i tag leg txn s
  | 2 => writeLegCtrlDisable i tag leg txn s
  | 3 => writeLegCtrlSpeak i tag leg txn s
  | 4 => writeLegCtrlCancel i tag leg txn s
  | 5 => writeLegCtrlSetSource i tag leg txn slot code s
  | 6 => writeLegCtrlSetMax i tag leg txn slot max s
  | 7 => writeLegCtrlRefresh i tag leg txn slot s
  | _ => runCmdV i tag (0x8000 + leg) 0x0C b .range id s

/-- Commands of single keys. -/
def writeCmdOne (i : Inst) (tag index sub : Nat) (value : Bytes) (s : State) : State :=
  let v := leVal value
  match index, sub with
  | 0x1001, 1 => writeIsbStep i tag v s
  | 0x1001, 2 => writeTodSet i tag v s
  | 0x1040, 3 => writeLaunchCancel i tag v .ok s
  | 0x0001, 2 => writeModeRequest i tag v s
  | 0x0003, 1 => writeWarmReset i tag s
  | 0x0005, 2 => writeFactoryReset i tag s
  | 0xF801, 4 => writeFwActivate i tag s
  | 0xF810, 0x0D => writeSchedStatsClear i tag s
  | 0x6400, 5 => writeXpCopy i tag v s
  | 0x6400, 6 => writeXpPreset i tag s
  | 0x6412, 1 => writeMeterClr i tag s
  | 0x6420, 0x0E => writeTmGrant i tag v s
  | 0x6420, 0x0F => writeTmClose i tag v s
  | 0x6420, 0x10 => writeTmClearQueue i tag s
  | 0x7100, 0x0F => writePoolTest i tag s
  | 0x7110, 6 => writeQFlush i tag s
  | 0x7D00, 0x0C => legErase i tag v .ok s
  | 0xF400, 0x0C => writeMemStatsClear i tag s
  | 0x0400, 4 => writeHubOff i tag s
  | 0x0800, 7 => writeHostPing i tag s
  | 0x0820, 5 => writeChClear i tag s
  | 0x0820, 6 => writeChRetire i tag s
  | 0x0900, 0x0D => writeSwitchover i tag s
  | 0x0900, 0x0E => writeForceActive i tag s
  | 0x0C00, 5 => writeStormClear i tag s
  | _, _ => writeReturnPrep i tag s

/-- Commands of key ranges. -/
def writeCmdMany (i : Inst) (tag index sub : Nat) (value : Bytes) (s : State) : State :=
  let v := leVal value
  if 0x8000 ≤ index ∧ index < 0xD000 then writeLegCtrl i tag (index - 0x8000) value s
  else if 0x1800 ≤ index ∧ index < 0x2000 then
    let t := Fin.ofNat 8 ((index - 0x1800) / 256)
    if index % 256 = 0 then writeEnumerate i tag t s else writePwrClear i tag t (Fin.ofNat 2 (index % 256 - 3)) s
  else if 0x0420 ≤ index ∧ index < 0x0434 then
    if sub = 4 then writePdReset i tag (index - 0x0420) s
    else if v = 0 then writePdRequestRun i tag (index - 0x0420) s
    else if v = 2 then writePdRequestCalm i tag (index - 0x0420) s
    else writePdRequestFrost i tag (index - 0x0420) s
  else if 0x6C40 ≤ index ∧ index < 0x6C80 then writeKunload i tag (Fin.ofNat 64 (index - 0x6C40)) s
  else if 0x6700 ≤ index ∧ index < 0x6710 then writeLmReset i tag (Fin.ofNat 16 (index - 0x6700)) s
  else if 0xD400 ≤ index ∧ index < 0xD500 then writeRefresh i tag (Fin.ofNat 256 (index - 0xD400)) s
  else if 0xE000 ≤ index ∧ index < 0xE040 then writeLayerCopy i tag (Fin.ofNat 64 (index - 0xE000)) s
  else if 0x7C40 ≤ index ∧ index < 0x7C80 then writeSlotErase i tag (Fin.ofNat 64 (index - 0x7C40)) s
  else writeCmdOne i tag index sub value s

/-- A command written by its key: access, type and range, then the command. -/
def writeCmd (i : Inst) (tag : Nat) (e : Entry) (index sub : Nat) (value : Bytes) (s : State) : State :=
  let st : Status := if !present index sub s then .noEntry else if !typeFits e value then .type
    else if !rangeFits e value then .range else .ok
  if st = .ok then writeCmdMany i tag index sub value s
  else runCmdV i tag index sub value (worst (cmdMode index sub s) st) id s

/-! ## Any key -/

/-- R426: the domain an enable needs, which a write of 1 wakes. -/
def enableDomain (index sub : Nat) (s : State) : Option Nat :=
  if 0x7000 ≤ index ∧ index < 0x7008 ∧ sub = 1 then some 11
  else if 0x6E00 ≤ index ∧ index < 0x6E08 ∧ sub = 9 then some (1 + rd s (K.T_ME (index - 0x6E00)) / 16)
  else if 0xD000 ≤ index ∧ index < 0xD400 ∧ sub = 1 then some (14 + (placeDec s (index - 0xD000)).getD 0)
  else if 0xD400 ≤ index ∧ index < 0xD500 ∧ sub = 1 then some 16
  else if 0xE000 ≤ index ∧ index < 0xE040 ∧ sub = 1 then some 17
  else none

/-- The write of a value to the key an instance names: its checks, its acceptance, its effect, its answer. -/
def writeKey (i : Inst) (tag index sub : Nat) (value : Bytes) (s : State) : State :=
  let k := keyOf i index sub s
  match entryOf index sub with
  | none => runWriteV i tag (key index sub 0) value .noEntry id s
  | some e =>
    if e.acc = .cmd then writeCmd i tag e index sub value s
    else if index = 0x1040 ∧ sub = 2 ∧ value.length = 32 then writeLaunchRecord i tag (recOf value) s
    else if index = 0xF801 ∧ sub = 3 then writeFwStage i tag value s
    else match enableDomain index sub s with
      | some d => if value.length = 1 then runEnable i tag index sub (keyStatus k value s) d (leVal value == 1) (keyEffect k value) s
        else runWriteV i tag k value (keyStatus k value s) id s
      | none => runWriteV i tag k value (keyStatus k value s) (keyEffect k value) s

/-! ## Units of writes: a group, a BLOB (R116, R120) -/

/-- The writes of a unit in order, each checked in the state the earlier ones leave (assumption 37): the state with all of
them, or the first failing status. -/
def unitRun (i : Inst) (tag : Nat) : List (Nat × Nat × Bytes) → State → Except Status State
  | [], s => .ok s
  | (index, sub, value) :: t, s =>
    let st := rightsGate i index sub s
    if st ≠ .ok then .error (if (entryOf index sub).isNone then worst st .noEntry else st) else
    let s := writeKey i tag index sub value { s with dic.accepting := some 0, dic.refused := 0, dic.quiet := true }
    if s.dic.accepting.isSome then .error (statusOf s.dic.refused) else unitRun i tag t s

/-- Octets of a unit's values. -/
def unitOctets (ws : List (Nat × Nat × Bytes)) : Nat := ws.foldl (fun n w => n + w.2.2.length) 0

/-- The unit takes effect, its work accepted; it is answered once. -/
def unitGo (i : Inst) (tag op index sub : Nat) (ws : List (Nat × Nat × Bytes)) (act : Durable) (s : State) : State :=
  match unitRun i tag ws s with
  | .error st => respond i tag op index sub st [] s
  | .ok _ =>
    match unitRun i tag ws (acceptAs 1 (unitOctets ws) act s) with
    | .error st => respond i tag op index sub st [] s
    | .ok s =>
      let st := statusOf s.dic.refused
      respond i tag op index sub st [] { s with dic.quiet := false, dic.accepting := none, dic.refused := 0 }

/-- A unit closes: its checks; it takes effect, or waits for its acceptance. -/
def unitClose (i : Inst) (tag op index sub : Nat) (ws : List (Nat × Nat × Bytes)) (act : Durable) (s : State) : State :=
  match unitRun i tag ws s with
  | .error st => respond i tag op index sub st [] s
  | .ok _ =>
    if noRoom (unitOctets ws) s then respond i tag op index sub .busy [] s else
    (repeated act i tag op index sub s).getD
      (if defers s then deferAs 1 (unitOctets ws) act s else unitGo i tag op index sub ws act s)

/-! ## Acceptance (R135, R144, R146) -/

/-- An entry ends: repeats held for it get its status. -/
def answerRepeats (n : Nat) (st : Status) (s : State) : State :=
  let l := s.dic.repeats.filter (fun r => r.1 == n)
  let h := s.sch.heldRepeats.filter (fun r => r.1 == n)
  let s := { s with dic.repeats := s.dic.repeats.filter (fun r => r.1 != n)
                    sch.heldRepeats := s.sch.heldRepeats.filter (fun r => r.1 != n) }
  let s := l.foldl (fun s r => respond r.2.1 r.2.2.1 r.2.2.2.1 r.2.2.2.2.1 r.2.2.2.2.2 st [] s) s
  h.foldl (fun s r => if r.2.1 < 17 then sqDone (r.2.1 - 9) r.2.2 s else emit (.enqueued r.2.1 0 n) s) s

/-- Work of the dictionary engine takes effect with its entry, checked again; work that then fails leaves the entry with no
effect and is answered with its status. -/
def acceptDict (n : Nat) (f : State → State) (s : State) : State :=
  let s := f { s with dic.accepting := some n, dic.refused := 0 }
  if s.dic.accepting = some n then
    let st := statusOf s.dic.refused
    answerRepeats n st (jrnlCommit n (jrnlAccepted n { s with dic.accepting := none }))
  else answerRepeats n .ok s

/-- What an entry's work does once it is accepted; work of classes 1–6 is then COMMITTED. -/
def acceptEntry (e : JEntry) (s : State) : State :=
  let n := e.accept
  let done (f : State → State) : State := jrnlCommit n (f (jrnlAccepted n s))
  match e.act with
  | .dictWrite i tag index sub value => acceptDict n (writeKey i tag index sub value) s
  | .group i tag ws =>
    match ws.getLast? with
    | some (index, sub, _) => acceptDict n (unitGo i tag 2 index sub ws e.act) s
    | none => done id
  | .blobClose i tag index sub value _ => acceptDict n (unitGo i tag 6 index sub [(index, sub, value)] e.act) s
  | .legCtrl i tag leg _ _ body => acceptDict n (writeLegCtrl i tag leg body) s
  | .nodeEvent node code _ => done (fun s =>
      let s := lanokSend true (.nodeAck node) (bump (K.EVENT_COUNTS 0) (nodeUpd node (fun x => { x with isOpen := true }) s))
      { s with fld.admitted := s.fld.admitted ++ [(node, code, true)] })
  | .nodeClear node => done (nodeUpd node (fun x => { x with isOpen := false }))
  | .launchArm slot r => done (armAccepted slot r)
  | .launchCancel slot => done (cancelAccepted slot)
  | .voteSeal session _ => done (sealVote session)
  | .host st slot =>
    let due := if delayTicks st.it = 0 then 0 else dueAt s.isb.now (delayTicks st.it)
    let s := jrnlAccepted n s
    let s := upd (due != 0) (jrnlUpd n (fun e => { e with time := due })) s
    let src := st.it.source
    let s := if 9 ≤ src ∧ src ≤ 16 then sqDone (src - 9) slot s else emit (.enqueued src 0 n) s
    answerRepeats n .ok (place { st with accept := n } s)

/-- The oldest entry not yet accepted: numbers are accepted in ascending order. -/
def nextEntry (s : State) : Option JEntry := s.sch.journal.find? (fun e => e.state == 0)

/-- JOURNAL_ACCEPT: its copies exist, the peer's too while the pair is HEALTHY. -/
def execJournalAccept (s : State) : Res :=
  match nextEntry s with
  | some e => .next (if !serves s || (pairHealthy s && !e.peerAck) then s else acceptEntry e s)
  | none => .next s

/-- PEER_COPY_TIMEOUT: 20 µs after the entry was written the item is accepted on the local copies; the pair is DEGRADED and
new durable work is held until the peer is confirmed (R456). -/
def execPeerCopyTimeout (s : State) : Res :=
  match nextEntry s with
  | some e =>
    .next (if !serves s || !pairHealthy s || e.peerAck || decide (clk s < e.writtenAt + 20 * us1) then s
      else acceptEntry e (setPairState 3 { s with pair.holding := true, pair.holdAt := clk s }))
  | none => .next s

end Sys2Proof.Machine
end

