-- ==== Sys2Proof/Machine/Read.lean ====
section
/-! DEFINITION. The value a READ returns (R108, R119): what is held, and what is measured or derived at the read. -/
namespace Sys2Proof.Machine

/-- Octets of a number of words, little-endian. -/
def words (n : Nat) (l : List Nat) : Bytes := l.flatMap (leBytes n)

/-! ## Derived values of each chapter: `index`, `sub`, and the selection `x` of a selected entry -/

/-- An entry of the wake latch (R432). -/
def latchOctets (e : Latched) : Bytes :=
  leBytes 1 e.source ++ [0] ++ leBytes 2 e.data ++ leBytes 4 e.merges ++ leBytes 8 (e.at_ / ns1)

/-- R505: the records, newest first: the PD0 ring, then the flash ring's that PD0 no longer holds. -/
def stormList (s : State) : List Storm :=
  let ring := s.diag.ring.map (·.1)
  ring ++ s.diag.flash.filter (fun r => !ring.any (fun q => q.seq == r.seq))

/-- IN_KEYS and OUT_KEYS of a leg (Table SEA-5). -/
def inKeys (s : State) (l : Nat) : Nat :=
  let c := tabGet {} s.sea.srtpIn l
  if c.cur.isNone then 0 else if c.next.isSome then 2 else if c.prev.isSome then 3 else 1
def outKeys (s : State) (l : Nat) : Nat :=
  let c := tabGet {} s.sea.srtpOut l
  if c.cur.isNone && c.next.isNone then 0 else if c.next.isSome then 2 else 1

/-- Highest index of a leg's ingress streams: of its streams, the highest. -/
def inHighest (s : State) (l : Nat) : Nat :=
  (tabGet {} s.sea.srtpIn l).highest.foldl (fun n e => max n (e.2.getD 0)) 0
def inRoc (s : State) (l : Nat) : Nat :=
  let c := tabGet {} s.sea.srtpIn l
  if c.highest.any (fun e => e.2.isSome) then inHighest s l / 65536 else c.roc

/-- ME_LOAD: time an engine was busy in the last second, in percent. -/
def meLoad (s : State) (me : Nat) : Nat :=
  let from_ := clk s - s1
  let now := match tabGet none s.sch.running me with | some st => [(st.startedAt, clk s)] | none => []
  min 100 ((now ++ tabGet [] s.sch.busy me).foldl (fun n r => n + (r.2 - max r.1 from_)) 0 * 100 / s1)

/-- LEG_TALK. -/
def legTalk (s : State) (l : Nat) : Nat :=
  if legTalker s l then 3 else if legQueued s l then 2 else if s.mix.cands.any (fun e => e.2.leg == some l) then 1 else 0

/-- Legs of a group. -/
def groupLegs (s : State) (g : Nat) : List Nat := (listedKeys s 0x6680 2).filter (fun l => legGroup s l == g)

/-- OVL_READERS: outputs whose active table names the overlay slot. -/
def ovlReaders (s : State) (slot : Nat) : Nat :=
  ((List.range 64).filter (fun o => (tableEntries (activeTable s o)).any (fun e => leKind e == kOverlay && leSource e == slot))).length

/-- PD_STATE of PD19 (Table PWR-8): OFF while the Lanok link is down, else that of the field die. -/
def pd19State (s : State) : Nat := if !lanokUp s then pdOff else if fieldState s = fsCalm then pdCalm else pdRun

/-- CAN_BUS: 2 BUS_OFF until the controller takes part again (R104), else whether it is error passive. -/
def canBus (s : State) (b : Nat) : Nat := if fieldClk s < (canOf s b).resumeAt then 2 else rd s (K.CAN_BUS b)

/-- Chapters DIC, ISB, FLD. -/
def readSystem (index sub : Nat) (s : State) : Option Bytes :=
  match index, sub with
  | 0x0002, 3 => some (leBytes 4 (s.isb.elapsed / s1))
  | 0x0180, 2 => let v := rd s K.CLAIM_SELECT; some (leBytes 4 (claimOwner s (v / 16777216) (v % 65536)))
  | 0x1000, 3 => some (leBytes 8 (nowNs s))
  | 0x1000, 7 => some (leBytes 4 (ofInt 32 (slewRemaining s)))
  | 0x1420, 7 => some (leBytes 1 (canBus s 0))
  | 0x1421, 7 => some (leBytes 1 (canBus s 1))
  | 0x1040, 2 => some (launchOctets (launchOf s (rd s K.SLOT_SELECT)))
  | 0x1040, 4 => some (leBytes 2 (armedCount s))
  | 0x1040, 6 => some (leBytes 2 (1024 - claimsHeld s 1 0 1024))
  | 0x1090, 1 => some (leBytes 4 (if s.boot.step = 0 ∨ rd s K.LIMP = 1 then 0 else 3))
  | 0x1411, _ => some (hdStateOctets s sub)
  | _, _ =>
    if index = 0x0181 then some (leBytes 2 (claimCount (sub - 1) - claimsHeld s (sub - 1) 0 (claimCount (sub - 1))))
    else if index = 0x1040 ∧ 0x10 ≤ sub then
      let t := sub - 0x10
      some (leBytes 2 (256 - claimsHeld s 6 (256 * t) (256 * t + 256)))
    else if 0x2000 ≤ index ∧ index < 0x6000 ∧ sub = 0x0B then some (boolOctet (nodeOf s (index - 0x2000)).isOpen)
    else if 0x1500 ≤ index ∧ index < 0x1510 ∧ sub = 0x0A ∧ rd s (K.VOTE_STATE (index - 0x1500)) % 3 ≠ 0 then
      some (leBytes 2 (notVoted s (index - 0x1500)))
    else none

/-- Chapters PWR, FLT, DIAG. -/
def readPower (index sub x : Nat) (s : State) : Option Bytes :=
  match index, sub with
  | 0x0400, 0x0C => some (s.pwr.latch.flatMap latchOctets)
  | 0x0433, 1 => some (leBytes 1 (pd19State s))
  | 0x0820, 2 => some (leBytes 4 (recentUpsets s (x / 16777216) (x % 65536)).length)
  | 0x0820, 3 => some (leBytes 1
      (if x / 16777216 = cDomain ∧ pdState s (x % 65536) = pdFailed then 2 else b2n (isRetired s (x / 16777216) (x % 65536))))
  | 0x0820, 4 => some (leBytes 8 ((tabGet none s.flt.retired (channel (x / 16777216) (x % 65536))).getD 0 / ns1))
  | 0x0C00, 4 => some (((stormList s)[x]?).elim [] stormOctets)
  | _, _ => if 0x0420 ≤ index ∧ index < 0x0434 ∧ sub = 8 then some (leBytes 1 (min 100 (lullPct s (index - 0x0420)))) else none

/-- Chapters SAP and MIX. -/
def readMix (index sub x : Nat) (s : State) : Option Bytes :=
  match index, sub with
  | 0x6410, 2 => some (leBytes 4 (inOwnerOf s x))
  | 0x6410, 4 => some (leBytes 2 (rampNow s.mix.talk x (rd s (K.IN_TALK x) : Nat)).toNat)
  | 0x6410, 6 => some (leBytes 2 (ofInt 16 (rmsOf s x)))
  | 0x6410, 7 => some (boolOctet (inStale s x))
  | 0x6411, 2 => some (leBytes 4 (outOwnerOf s x))
  | 0x6411, 8 => some (leBytes 2 (ofInt 16 (rmsOf s (1024 + x))))
  | 0x6420, 0x0C => some (tmBlob s false)
  | 0x6420, 0x0D => some (tmBlob s true)
  | 0x6680, 5 => some (leBytes 1 (legTalk s x))
  | _, _ =>
    if 0x6100 ≤ index ∧ index < 0x6108 then
      let g := index - 0x6100
      (match sub with
      | 3 => some (leBytes 4 (groupPorts s g))
      | 4 => some (leBytes 8 (groupRx s g))
      | 5 => some (leBytes 8 (groupTx s g))
      | _ => none)
    else if 0x6700 ≤ index ∧ index < 0x6710 ∧ sub = 8 then
      some (words 2 (((tabGet {} s.mix.loud (index - 0x6700)).history.reverse).map (ofInt 16)))
    else if 0x6441 ≤ index ∧ index < 0x6460 ∧ sub = 7 then some (leBytes 1 (langState s (index - 0x6440)))
    else if 0x6600 ≤ index ∧ index < 0x6640 ∧ sub = 8 then some (leBytes 2 (groupLegs s (index - 0x6600)).length)
    else if 0x6600 ≤ index ∧ index < 0x6640 ∧ sub = 9 then
      some (leBytes 2 ((groupLegs s (index - 0x6600)).filter (legTalker s)).length)
    else none

/-- Chapters PKT, TRF, SEA, VID, CMP. -/
def readMedia (index sub x : Nat) (s : State) : Option Bytes :=
  match index, sub with
  | 0x7100, 2 => some (leBytes 4 (cellsFree s))
  | 0x7110, 2 => some (queueDesc s x)
  | 0x7190, 3 => some (leBytes 2 (spillSet s).length)
  | 0x7900, 0x0E => some (leBytes 4 (ofInt 32 (wholeBits (polTc s x (clkNs s)))))
  | 0x7900, 0x0F => some (leBytes 4 (ofInt 32 (wholeBits (polTp s x (clkNs s)))))
  | 0x7900, 0x18 => some (leBytes 4 (ofInt 32 (wholeBits (shaperLevel s x))))
  | 0x7C00, 2 => some (leBytes 2 s.sea.queue.length)
  | 0x7D00, 2 => some (leBytes 1 (inKeys s x))
  | 0x7D00, 3 => some (leBytes 1 (outKeys s x))
  | 0x7D00, 4 => some (leBytes 1 (((tabGet {} s.sea.srtpIn x).cur.map SrtpKey.alg).getD 0
      + 16 * (((tabGet {} s.sea.srtpOut x).cur.map SrtpKey.alg).getD 0)))
  | 0x7D00, 5 => some (leBytes 4 (inRoc s x))
  | 0x7D00, 6 => some (leBytes 8 (inHighest s x))
  | 0x7D00, 7 => some (leBytes 8 (let c := tabGet {} s.sea.srtpOut x; if c.next.isSome then c.effective else 0))
  | 0xDF00, 3 => some (leBytes 8 (vpoolFree s))
  | _, _ =>
    if 0x7800 ≤ index ∧ index < 0x7808 ∧ 0x14 ≤ sub ∧ sub ≤ 0x17 then
      some (leBytes 4 (ofInt 32 (wholeBits (classLevel s (index - 0x7800) (sub - 0x14)))))
    else if 0x7400 ≤ index ∧ index < 0x7440 ∧ sub = 7 ∧ rd s (K.RX_SSRC_MODE (index - 0x7400)) = 1
        ∧ tabGet 0 s.pkt.locked (index - 0x7400) ≠ 0 then
      some (leBytes 4 (tabGet 0 s.pkt.locked (index - 0x7400) - 1))
    else if 0xE800 ≤ index ∧ index < 0xE900 ∧ sub = 5 then some (leBytes 1 (ovlReaders s (index - 0xE800)))
    else none

/-- Chapter SCH. -/
def readSched (index sub : Nat) (s : State) : Option Bytes :=
  match index, sub with
  | 0xF800, 2 => some (leBytes 4 (s.sch.dispatches.filter (fun t => decide (clk s < t + s1))).length)
  | 0xF800, 3 => some (leBytes 4 (readyItems s))
  | 0xF800, 4 => some (leBytes 4 s.sch.delay.length)
  | 0xF803, 2 => some (leBytes 2 (reorderFree s))
  | 0xF810, 1 => some (leBytes 4 (jrnlUsed s))
  | _, _ =>
    if 0xF880 ≤ index ∧ index < 0xF900 ∧ sub = 4 then some (leBytes 1 (meLoad s (index - 0xF880)))
    else if index = 0xF910 then some (leBytes 4 (readyOf s (sub - 1)).length)
    else none

/-- Entries that are measured, by means the spec does not give: a value below the bound (assumption 39). -/
def measuredBound (index sub : Nat) : Option Nat :=
  if 0xF410 ≤ index ∧ index < 0xF414 ∧ sub = 0x0D then some 101
  else none

/-- The present value of a key, with the state after the read. -/
def liveValue (k : Nat) (s : State) : Bytes × State :=
  let index := keyIndex k
  let sub := keySub k
  let x := keyInst k
  match measuredBound index sub with
  | some b =>
    -- an ABSENT channel has no load
    if rd s (K.CH_STATE (index - 0xF410)) = 0 then (leBytes 1 0, s) else (leBytes 1 (freeVal s b), drew s)
  | none =>
    let d := if index < 0x0400 ∨ (0x1000 ≤ index ∧ index < 0x6000) then readSystem index sub s
      else if index < 0x1000 then readPower index sub x s
      else if index < 0x7000 then readMix index sub x s
      else if index < 0xF000 then readMedia index sub x s
      else readSched index sub s
    match d with
    | some v => (v, s)
    | none =>
      if index = 0x0900 ∧ k = K.REACHABLE then (leBytes 2 (reachable s), s)
      else if index = 0x0900 ∧ k = K.ENROLLED then (leBytes 2 (enrolled s), s)
      else (keyValue s k, s)

/-- What the hub returns of a key the field die holds while the link is down: the value last reported (R119). Once it
counts the field die as lost every trunk is ABSENT (R12). -/
def seenValue (s : State) (k : Nat) : Bytes :=
  let seen := s.fld.seenKeys.getD ([], [])
  if keyIndex k = 0x1411 then seen.2.getD (keySub k - 1) []
  else if s.fld.lost ∧ 0x1800 ≤ keyIndex k ∧ keyIndex k < 0x2000 ∧ keyIndex k % 256 = 0 ∧ keySub k = 1 then [0]
  else match entryOf (keyIndex k) (keySub k) with
    | some e => leBytes e.ty.size (rd { s with regs := seen.1 } k)
    | none => []

/-- The value of a key as the hub returns it, with the state after the read. -/
def readValue (k : Nat) (s : State) : Bytes × State :=
  let pinOut := keySub k == 4 && rd s (K.FGPIO_FUNC (keyIndex k - 0x1430)) == 1
  if !lanokUp s && fieldHeld k && !(isFieldKey k && pinOut) then (seenValue s k, s) else liveValue k s

/-- The value of a key as the field die returns it: its own copy of a writable key (R119). -/
def fieldValue (k : Nat) (s : State) : Bytes × State :=
  match entryOf (keyIndex k) (keySub k) with
  | some e => if isFieldKey k ∧ e.ty.size ≠ 0 then (leBytes e.ty.size (rdF s k), s) else liveValue k s
  | none => ([], s)

/-- Checks of a READ beside authentication: the entry exists, may be read, and its value fits the response. -/
def readStatus (index sub max : Nat) (s : State) (value : Bytes) : Status :=
  match entryOf index sub with
  | none => .noEntry
  | some e =>
    if !present index sub s then .noEntry
    else if e.acc = .wo ∨ e.acc = .cmd then .access
    else if max < value.length then .range
    else if index = 0x0C00 ∧ sub = 4 ∧ value = [] then .range
    else .ok

end Sys2Proof.Machine
end

