-- ==== Sys2Proof/Machine/Dict.lean ====
section
/-! DEFINITION. Transactions of the object dictionary (R108, R111–R116, R118, R120): reads, writes and groups, segmented BLOB
transfers, as they reach the hub on an open transport. -/
namespace Sys2Proof.Machine

/-! ## Transport instances -/

/-- A transport is open: PCIE always, the others while TP_EN is 1, CAN while its controller is enabled (R124, R130). -/
def tpOpen (s : State) (t : Nat) : Bool :=
  t == 0 || (rd s (K.TP_EN t) == 1 && (t == 1 || t == 4 || rd s (K.CAN_EN (t - 2)) == 1))

/-- The open transfer and the held writes of an instance. -/
def blobOf (s : State) (i : Inst) : Option Blob := tabGet none s.dic.blob (instNum i)
def blobSet (i : Inst) (b : Option Blob) (s : State) : State := { s with dic.blob := tabSet none s.dic.blob (instNum i) b }
def groupOf (s : State) (i : Inst) : List (Nat × Nat × Bytes) := tabGet [] s.dic.group (instNum i)
def groupSet (i : Inst) (ws : List (Nat × Nat × Bytes)) (s : State) : State :=
  { s with dic.group := tabSet [] s.dic.group (instNum i) ws }

/-- A request of an instance: its group and its transfer last another second (R116, R120); it is activity (R480). -/
def touch (i : Inst) (s : State) : State :=
  let s := match blobOf s i with | some b => blobSet i (some { b with since := clk s }) s | none => s
  { s with dic.groupAt := if (groupOf s i).isEmpty then s.dic.groupAt else tabSet 0 s.dic.groupAt (instNum i) (clk s)
           pwr.lastActive := clk s }

/-- A request on a closed transport is not received. -/
def received (i : Inst) (f : State → State) (s : State) : State := if tpOpen s i.tr then f (touch i s) else s

/-- The instance has a write transfer open. -/
def writing (s : State) (i : Inst) : Bool := match blobOf s i with | some b => b.write | none => false

/-- The request is a write, or belongs to a write transfer. -/
def isWriteReq (s : State) (i : Inst) (op : Nat) : Bool :=
  op == 2 || op == 3 || (decide (5 ≤ op ∧ op ≤ 7) && writing s i)

/-- R122: the request must be authenticated, and is not. -/
def authMissing (s : State) (i : Inst) (op : Nat) : Bool :=
  !i.auth && (rd s (K.AUTH_MODE i.tr) == 2 || (rd s (K.AUTH_MODE i.tr) == 1 && isWriteReq s i op))

/-- Answer without a value. -/
def answerReq (i : Inst) (tag op index sub : Nat) (st : Status) (s : State) : State := respond i tag op index sub st [] s

/-! ## READ, WRITE and groups -/

/-- Longest value a READ of an instance may return (R111, R126). -/
def readMax (i : Inst) : Nat := if i.tr = 4 then 56 else 248

/-- READ. -/
def reqRead (i : Inst) (tag index sub : Nat) (value : Bytes) (s : State) : State :=
  let r := readValue (keyOf i index sub s) s
  let st := worst (checks [(authMissing s i 1, .auth), (!value.isEmpty, .type)]) (readStatus index sub (readMax i) s r.1)
  if st = .ok then respondAs false i tag 1 index sub .ok r.1 r.2 else respondAs false i tag 1 index sub st [] s

/-- A WRITE with GROUP 1: checked for type and access, held, answered PENDING; one that does not fit discards the group. -/
def reqGroup (i : Inst) (tag index sub : Nat) (value : Bytes) (s : State) : State :=
  let ws := groupOf s i
  let st := match entryOf index sub with
    | none => .noEntry
    | some e => if !present index sub s then .noEntry else if e.acc = .ro then .access else if !typeFits e value then .type else .ok
  let st := worst (rightsGate i index sub s) st
  if st ≠ .ok then respondAs false i tag 2 index sub st [] s
  else if 32 ≤ ws.length ∨ 4096 < unitOctets ws + value.length then
    respondAs false i tag 2 index sub .range [] (groupSet i [] s)
  else
    respondAs false i tag 2 index sub .pending [] (groupSet i (ws ++ [(index, sub, value)])
      { s with dic.groupAt := tabSet 0 s.dic.groupAt (instNum i) (clk s) })

/-- A WRITE with GROUP 0 while a group is held closes it: every write is checked again, all take effect or none. -/
def closeGroup (i : Inst) (tag index sub : Nat) (value : Bytes) (s : State) : State :=
  if unserved i index sub true s then notServed i tag 2 index sub s
  else if authMissing s i 2 then answerReq i tag 2 index sub .auth s
  else
    let ws := groupOf s i ++ [(index, sub, value)]
    unitClose i tag 2 index sub ws (.group i tag ws) (groupSet i [] s)

/-- A write by a row of its own: the write `f`, or the close of the group its instance holds. -/
def orClose (i : Inst) (tag index sub : Nat) (value : Bytes) (f : State → State) (s : State) : State :=
  received i (fun s => if (groupOf s i).isEmpty then f s else closeGroup i tag index sub value s) s

/-- WRITE. -/
def reqWrite (i : Inst) (tag index sub : Nat) (value : Bytes) (s : State) : State :=
  if (groupOf s i).isEmpty then writeKey i tag index sub value s else closeGroup i tag index sub value s

/-! ## Segmented transfers (R120) -/

/-- Most octets a BLOB entry holds. -/
def blobLimit (index : Nat) (e : Entry) : Nat :=
  match e.rng with
  | .len _ hi => min hi 65536
  | .lens l => l.foldl max 0
  | _ => if index = 0x7190 then 248 else if 0x7A00 ≤ index ∧ index < 0x7A08 then 2048
    else if 0xE900 ≤ index ∧ index < 0xE908 then 1792 else 65536

/-- R8, R110: every access of an entry that does not exist answers NO_ENTRY. -/
def entryGate (index sub : Nat) (s : State) : Status :=
  if (entryOf index sub).isNone || !present index sub s then .noEntry else .ok

/-- A key whose write the mode or its use does not allow now, whatever the value. -/
def blobGate (index sub : Nat) (s : State) : Status :=
  if index = 0xF801 ∧ sub = 3 then (if modeOf s = mService ∨ s.boot.recovery = true then .ok else .mode)
  else if 0x6C40 ≤ index ∧ index < 0x6C80 ∧ sub = 1 then (if kernelInUse s (index - 0x6C40) then .busy else .ok)
  else .ok

/-- BLOB_OPEN_WRITE; a staging area with no room for the length answers BUSY (assumption 152). -/
def reqOpenWrite (i : Inst) (tag index sub : Nat) (value : Bytes) (s : State) : State :=
  let k := keyOf i index sub s
  let len := leVal value
  let st := match entryOf index sub with
    | none => .noEntry
    | some e =>
      if !present index sub s then .noEntry else if e.acc = .ro then .access
      else worst (checks [(decide (e.ty ≠ .blob) || value.length != 4, .type), (decide (blobLimit index e < len), .range)]) (blobGate index sub s)
  let busy := (blobOf s i).isSome || s.dic.blob.any (fun e => match e.2 with | some b => b.write && b.key == k | none => false)
  let st := worst (worst (rightsGate i index sub s) st) (if busy then .busy else .ok)
  if st ≠ .ok then answerReq i tag 3 index sub st s
  else
    match stageFit s len with
    | some stage => answerReq i tag 3 index sub .ok
        (blobSet i (some { key := k, write := true, length := len, data := [], since := clk s, stage := stage }) s)
    | none => answerReq i tag 3 index sub .busy s

/-- BLOB_OPEN_READ: a snapshot of the value; its length and CRC-32. -/
def reqOpenRead (i : Inst) (tag index sub : Nat) (value : Bytes) (s : State) : State :=
  let k := keyOf i index sub s
  let r := readValue k s
  let blob := match entryOf index sub with | some e => e.ty == .blob | none => false
  let st := worst (checks [(authMissing s i 4, .auth), (!blob || !value.isEmpty, .type), ((blobOf s i).isSome, .busy)])
    (readStatus index sub 65536 s r.1)
  if st = .ok then
    respondAs false i tag 4 index sub .ok (leBytes 4 r.1.length ++ leBytes 4 (crc32 r.1))
      (blobSet i (some { key := k, write := false, length := r.1.length, data := r.1, since := clk s }) r.2)
  else answerReq i tag 4 index sub st s

/-- Write data is staged in DRAM, mirrored on two channels, and goes to the standby before the entry that will name it
(R120, R453). -/
def stagePut (stage off : Nat) (data : Bytes) (s : State) : State :=
  upd (copiesToPeer s) (pairSend (.staged (stageAddr stage) off data)) (mirrorPut (stageAddr stage + off) data s)

/-- BLOB_DATA: write data at the octets received so far; or data of the snapshot. -/
def reqData (i : Inst) (tag index sub : Nat) (value : Bytes) (s : State) : State :=
  let off := leAt value 0 4
  let short := decide (value.length < 4)
  let st := worst (checks [(authMissing s i 5, .auth), (short, .type)]) (entryGate index sub s)
  match (blobOf s i).filter (fun b => b.key == keyOf i index sub s) with
  | none => answerReq i tag 5 index sub (worst st .range) s
  | some b =>
    let st := worst st (if b.write = false ∧ value.length ≠ 6 then .type else .ok)
    if st ≠ .ok then answerReq i tag 5 index sub st s
    else if b.write then
      let data := value.drop 4
      if off ≠ b.data.length ∨ b.length < off + data.length then answerReq i tag 5 index sub .range s
      else answerReq i tag 5 index sub .ok (stagePut b.stage off data (blobSet i (some { b with data := b.data ++ data }) s))
    else
      let n := leAt value 4 2
      if b.data.length ≤ off ∨ readMax i < n then answerReq i tag 5 index sub .range s
      else respondAs false i tag 5 index sub .ok ((b.data.drop off).take n) s

/-- BLOB_CLOSE: the transfer ends; a write whose length and CRC-32 are right is accepted as one unit. -/
def reqClose (i : Inst) (tag index sub : Nat) (value : Bytes) (s : State) : State :=
  let st := worst (if authMissing s i 6 then .auth else .ok) (entryGate index sub s)
  match (blobOf s i).filter (fun b => b.key == keyOf i index sub s) with
  | none => answerReq i tag 6 index sub (worst st (if value.length ≠ 0 ∧ value.length ≠ 4 then .type else .range)) s
  | some b =>
    if st ≠ .ok then answerReq i tag 6 index sub st s
    else
      let s := blobSet i none s
      if b.write then
        if value.length ≠ 4 ∨ b.data.length ≠ b.length ∨ crc32 b.data ≠ leVal value then answerReq i tag 6 index sub .type s
        else unitClose i tag 6 index sub [(index, sub, b.data)] (.blobClose i tag index sub b.data b.stage) s
      else answerReq i tag 6 index sub (if value.isEmpty then .ok else .type) s

/-- ABORT: the transfer and the group are discarded. -/
def reqAbort (i : Inst) (tag index sub : Nat) (value : Bytes) (s : State) : State :=
  let st := worst (checks [(authMissing s i 7, .auth), (!value.isEmpty, .type)]) (entryGate index sub s)
  if st ≠ .ok then answerReq i tag 7 index sub st s
  else answerReq i tag 7 index sub .ok (groupSet i [] (blobSet i none s))

/-! ## A transaction -/

/-- An open transport's transaction: OP, FLAGS and value of Table DIC-3. What the hub does not serve now is answered BUSY
before every other check (R112). -/
def transact (i : Inst) (tag op flags index sub : Nat) (value : Bytes) (s : State) : State :=
  received i (fun s =>
    if unserved i index sub (isWriteReq s i op) s then notServed i tag op index sub s else
    match op with
    | 1 => reqRead i tag index sub value s
    | 2 => if bitOf flags 0 then reqGroup i tag index sub value s else reqWrite i tag index sub value s
    | 3 => reqOpenWrite i tag index sub value s
    | 4 => reqOpenRead i tag index sub value s
    | 5 => reqData i tag index sub value s
    | 6 => reqClose i tag index sub value s
    | 7 => reqAbort i tag index sub value s
    | _ => answerReq i tag op index sub
        (worst (if authMissing s i op then .auth else .ok) (worst (entryGate index sub s) .range)) s) s

/-- READ. -/
def execRead (i : Inst) (tag index sub : Nat) (s : State) : Res := .next (transact i tag 1 0 index sub [] s)
/-- WRITE. -/
def execWrite (i : Inst) (tag index sub : Nat) (value : Bytes) (s : State) : Res := .next (transact i tag 2 0 index sub value s)
/-- GROUP_WRITE. -/
def execGroupWrite (i : Inst) (tag index sub : Nat) (value : Bytes) (s : State) : Res := .next (transact i tag 2 1 index sub value s)
/-- BLOB_OPEN_WRITE: the total length. -/
def execBlobOpenWrite (i : Inst) (tag index sub length : Nat) (s : State) : Res :=
  .next (transact i tag 3 0 index sub (leBytes 4 length) s)
/-- BLOB_OPEN_READ. -/
def execBlobOpenRead (i : Inst) (tag index sub : Nat) (s : State) : Res := .next (transact i tag 4 0 index sub [] s)
/-- BLOB_DATA: the value of Table DIC-4. -/
def execBlobData (i : Inst) (tag index sub : Nat) (value : Bytes) (s : State) : Res := .next (transact i tag 5 0 index sub value s)
/-- BLOB_CLOSE: the value of Table DIC-4. -/
def execBlobClose (i : Inst) (tag index sub : Nat) (value : Bytes) (s : State) : Res := .next (transact i tag 6 0 index sub value s)
/-- ABORT. -/
def execAbort (i : Inst) (tag index sub : Nat) (s : State) : Res := .next (transact i tag 7 0 index sub [] s)

/-- GROUP_TIMEOUT: 1 s without a request of its instance discards a group. -/
def execGroupTimeout (i : Inst) (s : State) : Res :=
  .next (if (groupOf s i).isEmpty = false ∧ tabGet 0 s.dic.groupAt (instNum i) + s1 ≤ clk s then groupSet i [] s else s)

/-- BLOB_TIMEOUT: 1 s without a request of its instance discards a transfer. -/
def execBlobTimeout (i : Inst) (s : State) : Res :=
  .next (match blobOf s i with | some b => if b.since + s1 ≤ clk s then blobSet i none s else s | none => s)

end Sys2Proof.Machine
end

