-- ==== Sys2Proof/Machine/Carrier.lean ====
section
/-! DEFINITION. The carriers of the dictionary: envelopes and their authentication (R121, R122, R513), the PCIe mailbox (R123),
UDP on the management port (R124, R241), CAN FD (R125), nodes (R126), the field die's part (R119), the relayed segment (R461). -/
namespace Sys2Proof.Machine

/-! ## Envelopes -/

/-- Where an envelope ends, its TAG included. -/
def envelopeEnd (b : Bytes) : Nat := 16 + leAt b 14 2 + (if leAt b 4 1 = 1 then 8 else 0)

/-- R513: the envelope is malformed; `b` is what the carrier delivered. -/
def malformed (b : Bytes) : Bool :=
  decide (1 < leAt b 4 1 ∨ leAt b 5 3 ≠ 0 ∨ 248 < leAt b 14 2 ∨ b.length < envelopeEnd b)

/-- A malformed envelope is counted, and answered TYPE without authentication; on UDP it is dropped. -/
def malformedReply (i : Inst) (b : Bytes) (s : State) : State :=
  let s := bump (K.DROPS i.tr) s
  if i.tr = 1 then s else sendRsp false i (leAt b 9 1) (leAt b 8 1) (leAt b 10 2) (leAt b 12 1) .type [] s

/-- R122: SEQ is above the highest accepted on the instance, or within the 32 below it and not seen. -/
def seqFresh (w : SeqWin) (q : Nat) : Bool := !w.any || decide (w.high < q) || (decide (q < w.high ∧ w.high ≤ q + 32) && !w.seen.contains q)

/-- The window once a SEQ is accepted. -/
def seqAccept (w : SeqWin) (q : Nat) : SeqWin :=
  let high := if w.any then max w.high q else q
  { any := true, high := high, seen := (q :: w.seen).filter (fun x => decide (high ≤ x + 32)) }

/-- R122, R414: the TAG is right under the transport's slot, which the transport owns, and SEQ is fresh. `none`: the Seal
queue is full. -/
def verifyEnvelope (i : Inst) (b : Bytes) (s : State) : Option Bool × State :=
  let slot := rd s (K.AUTH_SLOT i.tr)
  let n := 16 + leAt b 14 2
  let w := tabGet {} s.dic.seqWin (instNum i)
  match sealNow 0 2 slot 8 (macInput i.tr (b.take n)) (nats ((b.drop n).take 8)) s with
  | (none, s) => (none, s)
  | (some (res, _), s) =>
    let ok := res == sealOk && rd s (K.SLOT_OWNER_SEA slot) == 16 + i.tr && seqFresh w i.seq
    (some ok, upd ok (fun s => { s with dic.seqWin := tabSet {} s.dic.seqWin (instNum i) (seqAccept w i.seq) }) s)

/-- An envelope reaches the hub. Its authentication, when it carries one, is checked in every AUTH_MODE (DEDUCED from R122:
SEQ and the response's TAG are those "of an authenticated request"; assumption 40). -/
def serveEnvelope (i : Inst) (b : Bytes) (s : State) : State :=
  let i := { i with seq := leAt b 0 4 }
  let op := leAt b 8 1
  let tag := leAt b 9 1
  let index := leAt b 10 2
  let sub := leAt b 12 1
  let value := (b.drop 16).take (leAt b 14 2)
  if !tpOpen s i.tr then s
  else if malformed b then malformedReply i b s
  else if unserved i index sub (isWriteReq s i op) s then notServed i tag op index sub (touch i s)
  else if leAt b 4 1 = 0 then transact i tag op (leAt b 13 1) index sub value s
  else
    match verifyEnvelope i b s with
    | (none, s) => answerReq i tag op index sub .busy s
    | (some false, s) => answerReq i tag op index sub .auth (touch i s)
    | (some true, s) => transact { i with auth := true } tag op (leAt b 13 1) index sub value s

/-! ## The PCIe mailbox (R123) -/

/-- The octets of MBX.REQ. -/
def mbxReq (s : State) (m : Nat) : Bytes := let x := mbxOf s m; (List.range 272).map (fun k => tabGet 0 x.req k)

/-- GO submits MBX.REQ; while BUSY it is counted and nothing else. -/
def mbxGo (m : Nat) (s : State) : State :=
  if (mbxOf s m).busy then bump (K.DROPS 0) s
  else serveEnvelope { tr := 0, sub := m } (mbxReq s m) (mbxUpd m (fun x => { x with busy := true }) s)

/-- PCIe reaches the hub: its link is up, from boot step 2 on (R474). -/
def pcieReaches (s : State) : Bool := s.flt.pcieUp && decide (2 ≤ s.boot.step)

/-- MBX_GO. -/
def execMbxGo (slot : Fin 4) (s : State) : Res := .next (if pcieReaches s then mbxGo slot.val s else s)

/-! ## UDP (R124) -/

/-- A datagram at the dictionary's address and port: fragments and payloads over 272 octets are dropped and counted. -/
def udpDatagram (src : Bytes) (sport : Nat) (fragment : Bool) (b : Bytes) (s : State) : State :=
  if rd s (K.TP_EN 1) = 0 then s
  else if fragment ∨ 272 < b.length then bump (K.DROPS 1) s
  else serveEnvelope { tr := 1, peer := (src, sport) } b s

/-- UDP_DICT_DATAGRAM. -/
def execUdpDictDatagram (src : Bytes) (sport : Nat) (fragment : Bool) (octets : Bytes) (s : State) : Res :=
  .next (if rd s K.MGMT_STATE = 0 then s else udpDatagram src sport fragment octets s)

/-! ## The management port (R241) -/

/-- A datagram is the dictionary's: at keys 0210:03–05 and 0210:01, with the transport open. -/
def forDict (s : State) (f : Frame) : Bool :=
  match f.ip, f.body with
  | some ip, .udp u => rd s (K.TP_EN 1) == 1 && !ip.bad && ip.dst == rdBlob s K.IP_ADDR && ip.v6 == (rd s K.IP_MODE == 1)
      && u.dport == rd s K.UDP_PORT && u.sum != .wrong
  | _, _ => false

/-- ARP, neighbour discovery and ICMP echo for the port's own address are answered through system queue 12. -/
def mgmtAnswer (f : Frame) (s : State) : State :=
  match f.body with
  | .arp target => answer 8 0 f.src (ipv4Bytes target) 60 s
  | .icmp .neighbour => answer 8 1 f.src ((f.ip.map Ip.src).getD []) 86 s
  | .icmp .echo => answer 8 2 f.src ((f.ip.map Ip.src).getD []) f.len s
  | _ => s

/-- A frame asks for the management port's own address. -/
def mgmtOwn (s : State) (f : Frame) : Bool :=
  let own := rdBlob s K.IP_ADDR
  match f.body with
  | .arp target => own.length == 4 && ipv4Bytes target == own
  | .icmp .neighbour => true
  | .icmp .echo => match f.ip with | some ip => ip.dst == own && !ip.bad | none => false
  | _ => false

/-- A frame passes a system queue that takes it. -/
def throughQueue (q : Nat) (f : Frame) (act : State → State) (s : State) : State :=
  let a := admitPacket q (rxPacket 8 3 f) s
  match a.1 with
  | none => a.2
  | some id => dropEntry q (.pkt id) (act a.2)

/-- A good frame at the management port. -/
def mgmtFrame (f : Frame) (s : State) : State :=
  let s := bumpBy (K.MGMT_COUNTS 1) (f.len + 4) (bump (K.MGMT_COUNTS 0) s)
  match f.body with
  | .pause q => pauseIn 8 q s
  | .pfc .. => s
  | _ =>
    if forDict s f then
      match f.ip, f.body with
      | some ip, .udp u => throughQueue (qSys 10) f (udpDatagram ip.src u.sport ip.fragment u.octets) s
      | _, _ => s
    else if (ptpOf f).isSome ∧ rd s K.PTP_PORT = 8 then ptpFrame 8 f s
    else if mgmtOwn s f then mgmtAnswer f s
    else if bitOf (rd s K.EXC_EN) 2 then toExc 8 2 13 0xFFFF f s
    else s

/-- MGMT_FRAME_RECEIVED: a frame with a bad FCS, or longer than 1,522 octets, is not received. -/
def execMgmtFrameReceived (f : Frame) (s : State) : Res :=
  .next (if rd s K.MGMT_STATE = 0 ∨ f.fcsBad = true ∨ f.pcsBad = true ∨ 1522 < f.len + 4 then s else mgmtFrame f s)

/-! ## Nodes at the hub (R81, R126, R414) -/

/-- A node's transaction: while NODE_SLOT names a slot it ends with a tag of 4 octets. -/
def serveNode (i : Inst) (b : Bytes) (s : State) : State :=
  let len := leAt b 6 2
  let op := leAt b 0 1
  let tag := leAt b 1 1
  let index := leAt b 2 2
  let sub := leAt b 4 1
  let slot := rd s K.NODE_SLOT
  let run (i : Inst) (s : State) : State := transact i tag op (leAt b 5 1) index sub ((b.drop 8).take len) s
  if !tpOpen s 4 then s
  else if unserved i index sub (isWriteReq s i op) s then notServed i tag op index sub (touch i s)
  else if b.length < 8 + len ∨ 56 < len then
    answerReq i tag op index sub (worst (worst (if slot ≠ 0xFF ∨ authMissing s i op = true then .auth else .ok)
      (worst (entryGate index sub s) (if isWriteReq s i op then rightsGate { i with auth := true } index sub s else .ok))) .type) s
  else if slot = 0xFF then run i s
  else
    let msg := nats (leBytes 2 i.sub ++ leBytes 8 (rd s (K.NODE_SERIAL i.sub)) ++ b.take (8 + len))
    match sealNow 2 2 slot 4 msg (nats (slice (b.drop (8 + len)) 0 4)) s with
    | (none, s) => answerReq i tag op index sub .busy s
    | (some (res, _), s) => if res = sealOk then run { i with auth := true } s else answerReq i tag op index sub .auth (touch i s)

/-- A request that crossed the Lanok link. -/
def serveRequest (i : Inst) (b : Bytes) (s : State) : State := if i.tr = 4 then serveNode i b s else serveEnvelope i b s

/-- DICT_REQ: a node's request on a relayed segment goes on to the active hub. -/
def execDictReq (h : LHdr) (inst : Inst) (body : Bytes) (s : State) : Res :=
  onLanok true true h (fun s =>
    if inst.tr = 4 ∧ relaying s = true then pairSend (.relayMsg false (.dictReq inst body)) s else serveRequest inst body s) s

/-! ## The field die (R119, R125, R126) -/

/-- Segments of a node's response, as DICT_RSP control messages. -/
def nodeSegments (n : Nat) : Nat → Nat → Bytes → State → State
  | 0, _, _, s => s
  | fuel + 1, count, b, s =>
    let rest := b.drop 27
    let head := (if count = 0 then 0x80 else 0) + (if rest.isEmpty then 0x40 else 0) + count
    let c : Ctrl := { rank := 4, dest := nodeIndex n, typ := 5, payload := leBytes 1 head ++ slice b 0 27 }
    let s := trunkUpd (nodeTrunk n) (fun x => { x with ctrl := x.ctrl ++ [c] }) s
    if rest.isEmpty then s else nodeSegments n fuel (count + 1) rest s

/-- The field die gives a response to its requester. -/
def fieldReply (i : Inst) (b : Bytes) (s : State) : State :=
  if i.tr = 2 ∨ i.tr = 3 then canSend (i.tr - 2) b s
  else if i.tr = 4 ∧ nodeServed s i.sub = true then nodeSegments i.sub 3 0 b s
  else s

/-- DICT_RSP. -/
def execDictRsp (h : LHdr) (inst : Inst) (body : Bytes) (s : State) : Res :=
  onLanok false true h (fieldReply inst body) s

/-- The field die's own answer. -/
def fieldAnswer (i : Inst) (tag op index sub : Nat) (st : Status) (value : Bytes) (s : State) : State :=
  let b := rspOctets tag op index sub st value
  fieldReply i (if i.tr = 4 then b else envelope i.seq 0 b) (emit (.dictRsp i tag (op % 128 + 128) index sub st.code value) s)

/-- The field die answers the read itself: no authentication is asked of it, or carried. -/
def fieldAnswers (s : State) (i : Inst) (op index : Nat) (auth : Bool) : Bool :=
  op == 1 && decide (0x1400 ≤ index ∧ index < 0x6000) && !auth && rd s (K.AUTH_MODE i.tr) != 2
    && (i.tr != 4 || rd s K.NODE_SLOT == 0xFF)

/-- A read of keys 1400–5FFF from the field die's copy. -/
def fieldRead (i : Inst) (tag index sub len : Nat) (s : State) : State :=
  let r := fieldValue (keyOf i index sub s) s
  let st := worst (if len ≠ 0 then .type else .ok) (readStatus index sub (readMax i) s r.1)
  if st = .ok then fieldAnswer i tag 1 index sub .ok r.1 r.2 else fieldAnswer i tag 1 index sub st [] s

/-- A request held until the hub is in RUN; POWER wakes it. -/
def holdRequest (i : Inst) (b : Bytes) (s : State) : State :=
  lanokSend false (.power 4 0) { s with fld.heldReq := s.fld.heldReq ++ [(i, b)] }

/-- A whole request at the field die: answered there, held while the hub is in CALM or FROST or enters them, refused while
the hub is off, booting or lost, or forwarded. -/
def fieldRequest (i : Inst) (b : Bytes) (s : State) : State :=
  let node := i.tr == 4
  let o := if node then 0 else 8
  let i := if node then i else { i with seq := leAt b 0 4 }
  let op := leAt b o 1
  let tag := leAt b (o + 1) 1
  let index := leAt b (o + 2) 2
  let sub := leAt b (o + 4) 1
  if !node && malformed b then fieldAnswer i tag op index sub .type [] (bump (K.DROPS i.tr) s)
  else if fieldAnswers s i op index (!node && leAt b 4 1 == 1) then fieldRead i tag index sub (leAt b (o + 6) 2) s
  else if !lanokUp s || !s.fld.hubSeen then fieldAnswer i tag op index sub .busy [] s
  else if s.fld.hubAsleep then holdRequest i b s
  else lanokSend false (.dictReq i b) s

/-- PORUA_FRAME_RETURN: a frame pair returns; a node's request it completes is dealt with. -/
def execPoruaFrameReturn (trunk : Fin 8) (f : FrameReturn) (s : State) : Res :=
  match frameReturn trunk.val f s with
  | (some (n, b), s) => .next (if rd s (K.TP_EN 4) = 0 then s else fieldRequest { tr := 4, sub := n } b s)
  | (none, s) => .next s

/-! ## CAN (R104, R125) -/

/-- A partial request is discarded, which is counted. -/
def canDiscard (b : Nat) (s : State) : State :=
  if (canOf s b).active then bump (K.DROPS (2 + b)) (canUpd b (fun c => { c with part := [], count := 0, active := false }) s) else s

/-- The bus takes part: enabled, the field die runs, bus-off recovery is over. -/
def canRuns (s : State) (b : Nat) : Bool :=
  rdF s (K.CAN_EN b) == 1 && decide (fieldState s ≤ 1 ∧ (canOf s b).resumeAt ≤ fieldClk s)

/-- A frame for the dictionary on an open bus. -/
def canFrame (b : Nat) (octets : Bytes) (s : State) : State :=
  let c := canOf s b
  let s := if c.active ∧ c.lastAt + 100 * ms1 < fieldClk s then canDiscard b s else s
  let head := leAt octets 0 1
  let data := octets.drop 1
  if bitOf head 7 ∧ c.owed.isSome = true then canBusy b data s
  else
    let s := if bitOf head 7 then canUpd b (fun c => { c with active := true, part := [], count := head % 64 }) (canDiscard b s) else s
    let c := canOf s b
    if !c.active then s
    else if head % 64 ≠ c.count then canDiscard b s
    else if bitOf head 6 then
      let env := c.part ++ data
      fieldRequest { tr := 2 + b } env (canUpd b (fun c => { c with part := [], count := 0, active := false, owed := some env }) s)
    else canUpd b (fun c => { c with part := c.part ++ data, count := (c.count + 1) % 64, lastAt := fieldClk s }) s
where
  /-- R125: a FIRST frame while a response is owed is answered BUSY; the request in progress goes on. -/
  canBusy (b : Nat) (data : Bytes) (s : State) : State :=
    let owed := (canOf s b).owed
    canUpd b (fun c => { c with owed := owed }) (canSend b (plainReply data .busy) s)

/-- R104, R125: a frame is one of the dictionary's when it is an FD data frame with the bus's 11-bit request identifier;
remote frames are ignored, and others are for none of the field die's functions. -/
def canForUs (s : State) (b identifier : Nat) (form : CanForm) : Bool :=
  form.fd && !form.ext && !form.remote && identifier == 0x340 + rdF s (K.CAN_NODE_ID b)

/-- CAN_FRAME: a frame on a bus. In CALM it wakes the field die and is not received. -/
def execCanFrame (bus : Fin 2) (identifier : Nat) (form : CanForm) (passive : Bool) (octets : Bytes) (s : State) : Res :=
  let b := bus.val
  if fieldState s = fsCalm then .next (fieldWake s)
  else if !canRuns s b then .next s
  else
    let s := wr (K.CAN_BUS b) (b2n passive) (canUpd b (fun c => { c with passive := passive }) s)
    .next (if !canForUs s b identifier form || rd s (K.TP_EN (2 + b)) == 0 || octets.isEmpty then s else canFrame b octets s)

/-- CAN_REASSEMBLY_TIMEOUT: 100 ms have passed since the last frame of a partial request. -/
def execCanReassemblyTimeout (bus : Fin 2) (s : State) : Res :=
  .next (if (canOf s bus.val).lastAt + 100 * ms1 ≤ fieldClk s then canDiscard bus.val s else s)

/-- CAN_BUS_OFF_RECOVERY: recovery after bus-off has ended; the controller waits a further 100 ms, in which its bus reads
BUS_OFF. -/
def execCanBusOffRecovery (bus : Fin 2) (s : State) : Res :=
  .next (wr (K.CAN_BUS bus.val) 0 <| canUpd bus.val (fun c => { c with resumeAt := fieldClk s + 100 * ms1, passive := false, part := [], count := 0, active := false, owed := none }) s)

/-! ## The relayed segment (R461) -/

/-- RELAY_MSG: at the active, a message of the peer's field die; at the standby, one for its own. -/
def execRelayMsg (h : PHdr) (toField : Bool) (m : LMsg) (s : State) : Res :=
  onPeer true h (fun s =>
    if toField then (if rd s K.ROLE = 2 then lanokSend true m s else s)
    else if rd s K.ROLE ≠ 1 then s
    else
      let s := { s with pair.peerRelays := true }
      match m with
      | .nodeEvent n c T => hubNodeEvent n c T s
      | .nodeClear n => hubNodeClear n s
      | .launchReport num t st late reason => hubReport num t st late reason s
      | .dictReq i b => serveRequest i b s
      | .timeXfer .. | .timeEcho .. | .heartbeat .. | .wake .. | .audioUp .. | .audioDown .. | .nodeAck .. | .dictRsp ..
      | .launchCmd .. | .launchCancel .. | .power .. => s) s

end Sys2Proof.Machine
end

