-- ==== Sys2Proof/Machine/Persist.lean ====
section
/-! DEFINITION. The persist area of the flash (R117, R473). -/
namespace Sys2Proof.Machine

/-- The key is persisted. -/
def isRwp (k : Nat) : Bool := match entryOf (keyIndex k) (keySub k) with | some e => e.acc == .rwp | none => false

/-- Candidates `t` to persist, corrected for what the image in force names: a value equal to its record is left out, one
that is not stands with the present value. `blob` says which kind of entry `t` holds. -/
def overImage {α : Type} (blob : Bool) (now : Nat → α) (same : Nat → Bytes → Bool) (l : List (Nat × Bytes)) (t : Tab α) : Tab α :=
  l.foldl (fun t r =>
    match entryOf (keyIndex r.1) (keySub r.1) with
    | some e =>
      if e.acc = .rwp ∧ decide (e.ty.size = 0) = blob then
        (if same r.1 r.2 then tabErase t r.1 else tabPut t r.1 (now r.1))
      else t
    | none => t) t

/-- RWP values that differ from the image layer: the image's record, else the default (R473). -/
def persistValues (s : State) : Tab Nat :=
  overImage false (rd s) (fun k b => decide (rd s k = leVal b)) s.dic.imageLayer (s.regs.filter (fun e => isRwp e.1))
def persistBlobs (s : State) : Tab (Option Bytes) :=
  overImage true (fun k => some (rdBlob s k)) (fun k b => decide (rdBlob s k = b)) s.dic.imageLayer
    (s.blobs.filter (fun e => isRwp e.1))

/-- PERSIST_FLASH_WRITE: what waits is written to the copy not last written; it is not good until it is whole. -/
def execPersistFlashWrite (s : State) : Res :=
  .next (if s.dic.dirty.isEmpty || s.dic.flashing.isSome || decide (s.boot.step ≠ 9) then s else
    let b := s.boot
    let newer0 := b.persistGood0 && (!b.persistGood1 || decide (b.persistSeq1 ≤ b.persistSeq0))
    { s with
      boot.persistGood0 := newer0, boot.persistGood1 := if newer0 then false else b.persistGood1
      dic.flashing := some { keys := s.dic.dirty, bound := s.dic.entry, values := persistValues s, blobs := persistBlobs s } })

/-- PERSIST_WRITE_COMPLETE: the copy is whole, its SEQ one above the other's; what it holds waits no more, and entries whose
values it holds may be freed. -/
def execPersistWriteComplete (s : State) : Res :=
  match s.dic.flashing with
  | none => .next s
  | some f =>
    let b := s.boot
    let to0 := !b.persistGood0
    let dirty := s.dic.dirty.filter (fun e => !f.keys.contains e)
    let ks := f.keys.map (·.1)
    let seq := (if to0 then b.persistSeq1 else b.persistSeq0) + 1
    let copy := persistOctets seq (rd s K.IMAGE_ID) f.values f.blobs
    let s := emit (.flash (if to0 then 0x01410000 else 0x01810000) copy) { s with
      boot.persistSeq0 := if to0 then seq else b.persistSeq0
      boot.persistSeq1 := if to0 then b.persistSeq1 else seq
      boot.persistGood0 := b.persistGood0 || to0, boot.persistGood1 := b.persistGood1 || !to0
      dic.flashing := none, dic.dirty := dirty, dic.persist := f.values, dic.persistBlobs := f.blobs
      dic.persistId := rd s K.IMAGE_ID
      sch.journal := s.sch.journal.map (fun e =>
        if e.accept ≤ f.bound then { e with unpersisted := e.unpersisted.filter (fun k => !ks.contains k) } else e) }
    .next (jrnlFree (summary 7 (!dirty.isEmpty) (wr K.PERSIST_PENDING dirty.length s)))

end Sys2Proof.Machine
end

