-- ==== Sys2Proof/Machine/Rows.lean ====
section
/-! DEFINITION. Writes of the dictionary that have a row of their own: each is the write of its key, by an instance that holds no
group, and else closes that group (R116). -/
namespace Sys2Proof.Machine

/-- ISB_STEP: key 1001:01. -/
def execIsbStep (inst : Inst) (tag : Nat) (ns : Nat) (s : State) : Res :=
  .next (orClose inst tag 0x1001 1 (leBytes 8 ns) (writeIsbStep inst tag ns) s)

/-- TOD_SET: key 1001:02. -/
def execTodSet (inst : Inst) (tag : Nat) (ns : Nat) (s : State) : Res :=
  .next (orClose inst tag 0x1001 2 (leBytes 8 ns) (writeTodSet inst tag ns) s)

/-- LAUNCH_RECORD: key 1040:02. -/
def execLaunchRecord (inst : Inst) (tag : Nat) (rec : LaunchRec) (s : State) : Res :=
  .next (orClose inst tag 0x1040 2 (launchOctets { time := rec.time, frac := rec.frac, typ := rec.typ, flags := rec.flags, target := rec.target, arg := rec.arg, period := rec.period }) (writeLaunchRecord inst tag rec) s)

/-- PPS_EN: key 1050h + n:01. -/
def execPpsEn (inst : Inst) (tag : Nat) (n : Fin 2) (on : Bool) (s : State) : Res :=
  .next (orClose inst tag (0x1050 + n.val) 1 (boolOctet on) (writePpsEn inst tag n on) s)

/-- LX_EN: key 1060h + n:01. -/
def execLxEn (inst : Inst) (tag : Nat) (n : Fin 4) (on : Bool) (s : State) : Res :=
  .next (orClose inst tag (0x1060 + n.val) 1 (boolOctet on) (writeLxEn inst tag n on) s)

/-- ENUMERATE: key 1800h + 100h × t:05. -/
def execEnumerate (inst : Inst) (tag : Nat) (trunk : Fin 8) (s : State) : Res :=
  .next (orClose inst tag (0x1800 + 256 * trunk.val) 5 [1] (writeEnumerate inst tag trunk) s)

/-- PWR_CLEAR: a trunk port's trips. -/
def execPwrClear (inst : Inst) (tag : Nat) (trunk : Fin 8) (port : Fin 2) (s : State) : Res :=
  .next (orClose inst tag (0x1803 + 256 * trunk.val + port.val) 8 [1] (writePwrClear inst tag trunk port) s)

/-- WARM_RESET: key 0003:01. -/
def execWarmReset (inst : Inst) (tag : Nat) (s : State) : Res :=
  .next (orClose inst tag 0x0003 1 [1] (writeWarmReset inst tag) s)

/-- FACTORY_RESET: key 0005:02. -/
def execFactoryReset (inst : Inst) (tag : Nat) (s : State) : Res :=
  .next (orClose inst tag 0x0005 2 [1] (writeFactoryReset inst tag) s)

/-- MODE_REQUEST: key 0001:02. -/
def execModeRequest (inst : Inst) (tag : Nat) (mode : Nat) (s : State) : Res :=
  .next (orClose inst tag 0x0001 2 (leBytes 1 mode) (writeModeRequest inst tag mode) s)

/-- FW_STAGE: key F801:03. -/
def execFwStage (inst : Inst) (tag : Nat) (octets : Bytes) (s : State) : Res :=
  .next (orClose inst tag 0xF801 3 octets (writeFwStage inst tag octets) s)

/-- FW_ACTIVATE: key F801:04. -/
def execFwActivate (inst : Inst) (tag : Nat) (s : State) : Res :=
  .next (orClose inst tag 0xF801 4 [1] (writeFwActivate inst tag) s)

/-- SCHED_STATS_CLEAR: key F810:0D. -/
def execSchedStatsClear (inst : Inst) (tag : Nat) (s : State) : Res :=
  .next (orClose inst tag 0xF810 0x0D [1] (writeSchedStatsClear inst tag) s)

/-- KUNLOAD: key 6C40h + k:06. -/
def execKunload (inst : Inst) (tag : Nat) (k : Fin 64) (s : State) : Res :=
  .next (orClose inst tag (0x6C40 + k.val) 6 [1] (writeKunload inst tag k) s)

/-- B_EN: key 6D00h + e:07. -/
def execBEn (inst : Inst) (tag : Nat) (e : Fin 256) (on : Bool) (s : State) : Res :=
  .next (orClose inst tag (0x6D00 + e.val) 7 (boolOctet on) (writeBEn inst tag e on) s)

/-- T_EN: key 6E00h + t:09. -/
def execTEn (inst : Inst) (tag : Nat) (t : Fin 8) (on : Bool) (s : State) : Res :=
  .next (orClose inst tag (0x6E00 + t.val) 9 (boolOctet on) (writeTEn inst tag t on) s)

/-- SAP_EN: key 6000h + n:01. -/
def execSapEn (inst : Inst) (tag : Nat) (n : Fin 8) (on : Bool) (s : State) : Res :=
  .next (orClose inst tag (0x6000 + n.val) 1 (boolOctet on) (writeSapEn inst tag n on) s)

/-- EP_EN: a receive or a send endpoint. -/
def execEpEn (inst : Inst) (tag : Nat) (rx : Bool) (e : Fin 64) (on : Bool) (s : State) : Res :=
  .next (orClose inst tag ((if rx then 0x6200 else 0x6280) + e.val) 1 (boolOctet on) (writeEpEn inst tag rx e on) s)

/-- XP_COPY: key 6400:05. -/
def execXpCopy (inst : Inst) (tag : Nat) (set_ : Nat) (s : State) : Res :=
  .next (orClose inst tag 0x6400 5 (leBytes 1 set_) (writeXpCopy inst tag set_) s)

/-- XP_PRESET: key 6400:06. -/
def execXpPreset (inst : Inst) (tag : Nat) (s : State) : Res :=
  .next (orClose inst tag 0x6400 6 [1] (writeXpPreset inst tag) s)

/-- METER_CLR: key 6412:01. -/
def execMeterClr (inst : Inst) (tag : Nat) (s : State) : Res :=
  .next (orClose inst tag 0x6412 1 [1] (writeMeterClr inst tag) s)

/-- LM_RESET: key 6700h + m:07. -/
def execLmReset (inst : Inst) (tag : Nat) (m : Fin 16) (s : State) : Res :=
  .next (orClose inst tag (0x6700 + m.val) 7 [1] (writeLmReset inst tag m) s)

/-- TM_GRANT: key 6420:0E. -/
def execTmGrant (inst : Inst) (tag id : Nat) (s : State) : Res :=
  .next (orClose inst tag 0x6420 0x0E (leBytes 4 id) (writeTmGrant inst tag id) s)

/-- TM_CLOSE: key 6420:0F. -/
def execTmClose (inst : Inst) (tag id : Nat) (s : State) : Res :=
  .next (orClose inst tag 0x6420 0x0F (leBytes 4 id) (writeTmClose inst tag id) s)

/-- TM_CLEAR_QUEUE: key 6420:10. -/
def execTmClearQueue (inst : Inst) (tag : Nat) (s : State) : Res :=
  .next (orClose inst tag 0x6420 0x10 [1] (writeTmClearQueue inst tag) s)

/-- DESK_EN: key 6800h + d:03. -/
def execDeskEn (inst : Inst) (tag : Nat) (d : Fin 256) (on : Bool) (s : State) : Res :=
  .next (orClose inst tag (0x6800 + d.val) 3 (boolOctet on) (writeDeskEn inst tag d on) s)

/-- PORT_EN: key 7000h + p:01. -/
def execPortEn (inst : Inst) (tag : Nat) (p : Fin 8) (on : Bool) (s : State) : Res :=
  .next (orClose inst tag (0x7000 + p.val) 1 (boolOctet on) (writePortEn inst tag p on) s)

/-- Q_FLUSH: key 7110:06. -/
def execQFlush (inst : Inst) (tag : Nat) (s : State) : Res :=
  .next (orClose inst tag 0x7110 6 [1] (writeQFlush inst tag) s)

/-- POOL_TEST: key 7100:0F. -/
def execPoolTest (inst : Inst) (tag : Nat) (s : State) : Res :=
  .next (orClose inst tag 0x7100 0x0F [1] (writePoolTest inst tag) s)

/-- LEG_EN: key 8000h + l:01. -/
def execLegEn (inst : Inst) (tag l : Nat) (on : Bool) (s : State) : Res :=
  .next (orClose inst tag (0x8000 + l) 1 (boolOctet on) (writeLegEn inst tag l on) s)

/-- LEG_CTRL: ENABLE. -/
def execLegCtrlEnable (inst : Inst) (tag leg txn : Nat) (s : State) : Res :=
  .next (orClose inst tag (0x8000 + leg) 0x0C (legBody txn 1 0 0 0) (writeLegCtrlEnable inst tag leg txn) s)

/-- LEG_CTRL: DISABLE. -/
def execLegCtrlDisable (inst : Inst) (tag leg txn : Nat) (s : State) : Res :=
  .next (orClose inst tag (0x8000 + leg) 0x0C (legBody txn 2 0 0 0) (writeLegCtrlDisable inst tag leg txn) s)

/-- LEG_CTRL: SPEAK. -/
def execLegCtrlSpeak (inst : Inst) (tag leg txn : Nat) (s : State) : Res :=
  .next (orClose inst tag (0x8000 + leg) 0x0C (legBody txn 3 0 0 0) (writeLegCtrlSpeak inst tag leg txn) s)

/-- LEG_CTRL: CANCEL. -/
def execLegCtrlCancel (inst : Inst) (tag leg txn : Nat) (s : State) : Res :=
  .next (orClose inst tag (0x8000 + leg) 0x0C (legBody txn 4 0 0 0) (writeLegCtrlCancel inst tag leg txn) s)

/-- LEG_CTRL: SET_SOURCE. -/
def execLegCtrlSetSource (inst : Inst) (tag leg txn slot code : Nat) (s : State) : Res :=
  .next (orClose inst tag (0x8000 + leg) 0x0C (legBody txn 5 slot 0 code) (writeLegCtrlSetSource inst tag leg txn slot code) s)

/-- LEG_CTRL: SET_MAX. -/
def execLegCtrlSetMax (inst : Inst) (tag leg txn slot layer : Nat) (s : State) : Res :=
  .next (orClose inst tag (0x8000 + leg) 0x0C (legBody txn 6 slot layer 0) (writeLegCtrlSetMax inst tag leg txn slot layer) s)

/-- LEG_CTRL: REFRESH. -/
def execLegCtrlRefresh (inst : Inst) (tag leg txn slot : Nat) (s : State) : Res :=
  .next (orClose inst tag (0x8000 + leg) 0x0C (legBody txn 7 slot 0 0) (writeLegCtrlRefresh inst tag leg txn slot) s)

/-- DEC_EN: key D000h + c:01. -/
def execDecEn (inst : Inst) (tag : Nat) (c : Fin 1024) (on : Bool) (s : State) : Res :=
  .next (orClose inst tag (0xD000 + c.val) 1 (boolOctet on) (writeDecEn inst tag c on) s)

/-- ENC_EN: key D400h + e:01. -/
def execEncEn (inst : Inst) (tag : Nat) (e : Fin 256) (on : Bool) (s : State) : Res :=
  .next (orClose inst tag (0xD400 + e.val) 1 (boolOctet on) (writeEncEn inst tag e on) s)

/-- REFRESH: key D400h + e:13. -/
def execRefresh (inst : Inst) (tag : Nat) (e : Fin 256) (s : State) : Res :=
  .next (orClose inst tag (0xD400 + e.val) 0x13 [1] (writeRefresh inst tag e) s)

/-- LAYER_COPY: key E000h + o:0C. -/
def execLayerCopy (inst : Inst) (tag : Nat) (o : Fin 64) (s : State) : Res :=
  .next (orClose inst tag (0xE000 + o.val) 0x0C [1] (writeLayerCopy inst tag o) s)

/-- OUT_EN: key E000h + o:01. -/
def execOutEn (inst : Inst) (tag : Nat) (o : Fin 64) (on : Bool) (s : State) : Res :=
  .next (orClose inst tag (0xE000 + o.val) 1 (boolOctet on) (writeOutEn inst tag o on) s)

/-- OVL_BASE: key E800h + v:01. -/
def execOvlBase (inst : Inst) (tag : Nat) (v : Fin 256) (base : Nat) (s : State) : Res :=
  .next (orClose inst tag (0xE800 + v.val) 1 (leBytes 8 base) (writeOvlBase inst tag v base) s)

/-- DMA_EN: key F000h + n:01. -/
def execDmaEn (inst : Inst) (tag : Nat) (n : Fin 64) (on : Bool) (s : State) : Res :=
  .next (orClose inst tag (0xF000 + n.val) 1 (boolOctet on) (writeDmaEn inst tag n on) s)

/-- MEM_STATS_CLEAR: key F400:0C. -/
def execMemStatsClear (inst : Inst) (tag : Nat) (s : State) : Res :=
  .next (orClose inst tag 0xF400 0x0C [1] (writeMemStatsClear inst tag) s)

/-- SLOT_ERASE: key 7C40h + s:06. -/
def execSlotErase (inst : Inst) (tag : Nat) (slot : Fin 64) (s : State) : Res :=
  .next (orClose inst tag (0x7C40 + slot.val) 6 [1] (writeSlotErase inst tag slot) s)

/-- IN_ERASE: key 7D00:0C, bit 0. -/
def execInErase (inst : Inst) (tag : Nat) (s : State) : Res :=
  .next (orClose inst tag 0x7D00 0x0C [1] (writeInErase inst tag) s)

/-- OUT_ERASE: key 7D00:0C, bit 1. -/
def execOutErase (inst : Inst) (tag : Nat) (s : State) : Res :=
  .next (orClose inst tag 0x7D00 0x0C [2] (writeOutErase inst tag) s)

/-- PD_REQUEST: RUN. -/
def execPdRequestRun (inst : Inst) (tag d : Nat) (s : State) : Res :=
  .next (orClose inst tag (0x0420 + d) 2 [0] (writePdRequestRun inst tag d) s)

/-- PD_REQUEST: CALM. -/
def execPdRequestCalm (inst : Inst) (tag d : Nat) (s : State) : Res :=
  .next (orClose inst tag (0x0420 + d) 2 [2] (writePdRequestCalm inst tag d) s)

/-- PD_REQUEST: FROST. -/
def execPdRequestFrost (inst : Inst) (tag d : Nat) (s : State) : Res :=
  .next (orClose inst tag (0x0420 + d) 2 [3] (writePdRequestFrost inst tag d) s)

/-- PD_RESET: key 0420h + d:04. -/
def execPdReset (inst : Inst) (tag d : Nat) (s : State) : Res :=
  .next (orClose inst tag (0x0420 + d) 4 [1] (writePdReset inst tag d) s)

/-- HUB_OFF: key 0400:04. -/
def execHubOff (inst : Inst) (tag : Nat) (s : State) : Res :=
  .next (orClose inst tag 0x0400 4 [1] (writeHubOff inst tag) s)

/-- HOST_PING: key 0800:07. -/
def execHostPing (inst : Inst) (tag : Nat) (s : State) : Res :=
  .next (orClose inst tag 0x0800 7 [1] (writeHostPing inst tag) s)

/-- CH_CLEAR: key 0820:05. -/
def execChClear (inst : Inst) (tag : Nat) (s : State) : Res :=
  .next (orClose inst tag 0x0820 5 [1] (writeChClear inst tag) s)

/-- CH_RETIRE: key 0820:06. -/
def execChRetire (inst : Inst) (tag : Nat) (s : State) : Res :=
  .next (orClose inst tag 0x0820 6 [1] (writeChRetire inst tag) s)

/-- SWITCHOVER: key 0900:0D. -/
def execSwitchover (inst : Inst) (tag : Nat) (s : State) : Res :=
  .next (orClose inst tag 0x0900 0x0D [1] (writeSwitchover inst tag) s)

/-- FORCE_ACTIVE: key 0900:0E. -/
def execForceActive (inst : Inst) (tag : Nat) (s : State) : Res :=
  .next (orClose inst tag 0x0900 0x0E [1] (writeForceActive inst tag) s)

/-- STORM_CLEAR: key 0C00:05. -/
def execStormClear (inst : Inst) (tag : Nat) (s : State) : Res :=
  .next (orClose inst tag 0x0C00 5 [1] (writeStormClear inst tag) s)

/-- RETURN_PREP: key 0F00:01. -/
def execReturnPrep (inst : Inst) (tag : Nat) (s : State) : Res :=
  .next (orClose inst tag 0x0F00 1 [1] (writeReturnPrep inst tag) s)

/-- VANE_EN: key 0D00:01. -/
def execVaneEn (inst : Inst) (tag : Nat) (on : Bool) (s : State) : Res :=
  .next (orClose inst tag 0x0D00 1 (boolOctet on) (writeVaneEn inst tag on) s)

/-- LAUNCH_CANCEL: key 1040:03 by an instance, or ARM 0 in the launch window. -/
def execLaunchCancel (slot : Fin 1024) (via : Option Inst) (tag : Nat) (s : State) : Res :=
  match via with
  | some inst => .next (orClose inst tag 0x1040 3 (leBytes 2 slot.val) (writeLaunchCancel inst tag slot.val .ok) s)
  | none => .next (windowCancel slot.val s)

end Sys2Proof.Machine
end

