-- ==== Sys2Proof/Machine/Registers.lean ====
section
/-! DEFINITION. Register writes of the host that have no row of their own, and accesses a chapter does not allow (R6, R7). A
reserved bit takes no value; offsets that name no register take none either. -/
namespace Sys2Proof.Machine

/-- W1C: the bits written as 1 are cleared. -/
def w1c (old data width : Nat) : Nat := (List.range width).foldl (fun v b => if bitOf data b then withBit v b false else v) old

/-- An enable register is written; a bit that is set in both from then on signals the vector. -/
def enableIrq (evt old new vector : Nat) (s : State) : State :=
  emitIf ((List.range 32).any (fun b => bitOf evt b && bitOf new b && !bitOf old b)) (.msix vector) s

/-- BAR0 0_6100h: SQ.TAIL; SQ.HEAD is read only and SQ.ERR is cleared by reads alone. -/
def sqRegister (offset data : Nat) (s : State) : State :=
  if offset % 16 = 0 then sqTailPut ((offset - 0x6100) / 16) (data % 64) s else s

/-- BAR0 0_1000h: the mailbox slots (Table DIC-8). -/
def mbxRegister (m o data : Nat) (s : State) : State :=
  if o < 0x110 then
    mbxUpd m (fun x => { x with req := (List.range 4).foldl (fun t k => tabSet 0 t (o + k) (BitVec.ofNat 8 (data / 256 ^ k))) x.req }) s
  else if o = 0x3F0 then
    let s := mbxUpd m (fun x => { x with irqEn := bitOf data 1 }) s
    if bitOf data 0 then mbxGo m s else s
  else if o = 0x3F4 ∧ bitOf data 1 = true then mbxUpd m (fun x => { x with done := false }) s
  else s

/-- BAR0 0_7600h: the key load window; GO executes the record in KEY.DATA by its ACTION. -/
def keyRegister (o data : Nat) (s : State) : State :=
  if o < 0x40 then { s with sea.keyData := patch s.sea.keyData o (leBytes 4 data) }
  else if o = 0x40 then
    let s := { s with sea.keyIrqEn := bitOf data 1 }
    if bitOf data 0 then keyCommand (leAt s.sea.keyData 1 1) (keyRecOf s.sea.keyData) s else s
  else if o = 0x44 ∧ bitOf data 1 = true then { s with sea.keyDone := false }
  else s

/-- BAR0 0_7200h: the composition registers (R370). -/
def cmpRegister (o data : Nat) (s : State) : State :=
  if o = 0 then { s with cmp.status := w1c s.cmp.status data 1 }
  else if o = 4 then { s with cmp.sigEvt0 := w1c s.cmp.sigEvt0 data 32 }
  else if o = 8 then { s with cmp.sigEvt1 := w1c s.cmp.sigEvt1 data 32 }
  else if o = 12 then { s with cmp.irqEn := data % 4 }
  else s

/-- BAR0 0_7800h: the power registers, reachable in RUN and CALM (R440). -/
def pwrRegister (o data : Nat) (s : State) : State :=
  if o = 4 then { s with pwr.evt := w1c s.pwr.evt data 5 }
  else if o = 8 then enableIrq s.pwr.evt s.pwr.irqEn (data % 32) 32 { s with pwr.irqEn := data % 32 }
  else s

/-- A write of an aligned 32-bit register of BAR0. -/
def bar0Register (offset data : Nat) (s : State) : State :=
  if 0x1000 ≤ offset ∧ offset < 0x2000 then mbxRegister ((offset - 0x1000) / 0x400) (offset % 0x400) data s
  else if offset = 0x4010 then { s with isb.launchEvt := w1c s.isb.launchEvt data 32 }
  else if offset = 0x6004 then { s with sch.evt := w1c s.sch.evt data 12 }
  else if offset = 0x6008 then enableIrq s.sch.evt s.sch.irqEn (data % 4096) 16 { s with sch.irqEn := data % 4096 }
  else if 0x6100 ≤ offset ∧ offset < 0x6180 then sqRegister offset data s
  else if offset = 0x7000 then (if bitOf data 8 then { s with mix.refused := false } else s)
  else if 0x7200 ≤ offset ∧ offset < 0x7210 then cmpRegister (offset - 0x7200) data s
  else if offset = 0x7404 then { s with mem.evt := w1c s.mem.evt data 3 }
  else if offset = 0x7408 then enableIrq s.mem.evt s.mem.irqEn (data % 8) 24 { s with mem.irqEn := data % 8 }
  else if 0x7600 ≤ offset ∧ offset < 0x7648 then keyRegister (offset - 0x7600) data s
  else if 0x7800 ≤ offset ∧ offset < 0x780C then pwrRegister (offset - 0x7800) data s
  else s

/-- The operations of DMA.CTRL, lowest bit first (Table DMA-5). -/
def dmaCtrlWrite (n : Nat) (data : Nat) (s : State) : State :=
  if dmaState s n = dsOff then s else
  let s := dmaUpd n (fun x => { x with startSpace := b2n (bitOf data 4) }) s
  let s := if bitOf data 0 then dmaGo n s else s
  let s := if bitOf data 2 then dmaStop n s else s
  if bitOf data 3 then dmaResume n s else s

/-- A write of a channel's register block; while the channel is OFF it is ignored (Table DMA-4). -/
def dmaRegister (n o data : Nat) (s : State) : State :=
  if dmaState s n = dsOff then s
  else if o = 0x00 then dmaCtrlWrite n data s
  else if o = 0x08 then dmaDoorbell n s
  else if o = 0x0C then (if bitOf data 0 then dmaReqWrite n s else s)
  else if o = 0x10 then dmaUpd n (fun x => { x with startLo := data / 64 * 64 }) s
  else if o = 0x14 then dmaUpd n (fun x => { x with startHi := data }) s
  else if o = 0x28 then dmaUpd n (fun x => { x with evt := w1c x.evt data 6 }) s
  else if o = 0x2C then
    let x := dmaOf s n
    enableIrq x.evt x.irqEn (data % 64) (64 + n) (dmaUpd n (fun x => { x with irqEn := data % 64 }) s)
  else s

/-- BAR0 1_0000h: the slots of the submission queues. -/
def sqWindow (offset width data : Nat) (s : State) : State :=
  let q := (offset - 0x10000) / 0x1000
  sqUpd q (fun x =>
    { x with
      slots := (List.range width).foldl
        (fun t k => tabSet 0 t (offset % 0x1000 + k) (BitVec.ofNat 8 (data / 256 ^ k))) x.slots }) s

/-- Where 64-bit writes are allowed beside 32-bit ones: the launch window, the submission slots and BAR2. -/
def wideWindow (bar offset : Nat) : Bool :=
  bar == 2 || (bar == 0 && (decide (0x8000 ≤ offset ∧ offset < 0x10000) || decide (0x10000 ≤ offset ∧ offset < 0x18000)))

/-- A write that reaches the hub, of a width and alignment its chapter allows. -/
def registerPut (bar offset width data : Nat) (s : State) : State :=
  if bar = 2 then
    if offset < 0x1000000 then bar2Put offset width data s else layerTablePut offset data (width == 8) s
  else if bar = 4 then (if offset < 0x10000 then dmaRegister (offset / 0x400) (offset % 0x400) data s else s)
  else if bar ≠ 0 then s
  else if 0x8000 ≤ offset ∧ offset < 0x10000 then windowWrite ((offset - 0x8000) / 32) (offset % 32) (leBytes width data) s
  else if 0x10000 ≤ offset ∧ offset < 0x18000 then sqWindow offset width data s
  else bar0Register offset data s

/-- The host's accesses within the BARs of Table ARC-4 reach the hub; in CALM those of the power registers alone (R440). -/
def barReaches (bar offset : Nat) (s : State) : Bool :=
  (bar == 0 || bar == 2 || bar == 4) && decide (offset < barSize bar) && pcieReaches s && (hubPower s == hpRun || (hubPower s == hpCalm && bar == 0 && decide (0x7800 ≤ offset ∧ offset < 0x780C)))

/-- REGISTER_WRITE: `data` of `width` octets. -/
def execRegisterWrite (bar offset width data : Nat) (s : State) : Res :=
  .next (if !barReaches bar offset s then s
    else if (width = 4 ∨ (width = 8 ∧ wideWindow bar offset = true)) ∧ offset % width = 0 then
      registerPut bar offset width (data % 256 ^ width) s
    else badAccess bar offset s)

/-- BAD_REGISTER_ACCESS: it completes without error, reads 0, writes nothing and is counted (R7). -/
def execBadRegisterAccess (fn bar offset : Nat) (read : Bool) (s : State) : Res :=
  .next (if !barReaches bar offset s then s else emitIf read (.regRead fn bar offset 0) (badAccess bar offset s))

end Sys2Proof.Machine
end

