-- ==== Sys2Proof/Machine/Dispatch.lean ====
section
/-! DEFINITION. Which meaning each command has: one arm per constructor. -/
namespace Sys2Proof.Machine
open Sys2Proof

/-- The effect of a command on everything but the queue. -/
def exec (i : Instr) (s : State) : Host.Outcome State Fault Refusal :=
  match i with
  | .registerWrite bar offset width data => Sys2Proof.Machine.execRegisterWrite bar offset width data s
  | .badRegisterAccess fn bar offset read => Sys2Proof.Machine.execBadRegisterAccess fn bar offset read s
  | .isobarFineTick => Sys2Proof.Machine.execIsobarFineTick s
  | .nowLoRead fn => Sys2Proof.Machine.execNowLoRead fn s
  | .sourceQualify src offset => Sys2Proof.Machine.execSourceQualify src offset s
  | .sourceStopTimeout src => Sys2Proof.Machine.execSourceStopTimeout src s
  | .slewEnd => Sys2Proof.Machine.execSlewEnd s
  | .ppsInEdge rising => Sys2Proof.Machine.execPpsInEdge rising s
  | .ptpMessage m => Sys2Proof.Machine.execPtpMessage m s
  | .ptpSyncInterval => Sys2Proof.Machine.execPtpSyncInterval s
  | .isbStep inst tag ns => Sys2Proof.Machine.execIsbStep inst tag ns s
  | .todSet inst tag ns => Sys2Proof.Machine.execTodSet inst tag ns s
  | .barrierDelayMeasure => Sys2Proof.Machine.execBarrierDelayMeasure s
  | .limpEntry osc locks => Sys2Proof.Machine.execLimpEntry osc locks s
  | .launchArm slot word => Sys2Proof.Machine.execLaunchArm slot word s
  | .launchCancel slot via tag => Sys2Proof.Machine.execLaunchCancel slot via tag s
  | .launchWindowWrite slot offset octets => Sys2Proof.Machine.execLaunchWindowWrite slot offset octets s
  | .launchRecord inst tag rec => Sys2Proof.Machine.execLaunchRecord inst tag rec s
  | .launchCommit num => Sys2Proof.Machine.execLaunchCommit num s
  | .launchWakeLead num => Sys2Proof.Machine.execLaunchWakeLead num s
  | .xpSwap => Sys2Proof.Machine.execXpSwap s
  | .eqSwap => Sys2Proof.Machine.execEqSwap s
  | .srcSwitch => Sys2Proof.Machine.execSrcSwitch s
  | .layerSwap => Sys2Proof.Machine.execLayerSwap s
  | .gateTakeover => Sys2Proof.Machine.execGateTakeover s
  | .lxEdge => Sys2Proof.Machine.execLxEdge s
  | .lxPulseEnd n => Sys2Proof.Machine.execLxPulseEnd n s
  | .sapGroup => Sys2Proof.Machine.execSapGroup s
  | .hallHandover => Sys2Proof.Machine.execHallHandover s
  | .fieldMapSwap => Sys2Proof.Machine.execFieldMapSwap s
  | .voteOpen => Sys2Proof.Machine.execVoteOpen s
  | .voteClose => Sys2Proof.Machine.execVoteClose s
  | .voteSeal session => Sys2Proof.Machine.execVoteSeal session s
  | .nodeActionOff node => Sys2Proof.Machine.execNodeActionOff node s
  | .nodeActionOn node => Sys2Proof.Machine.execNodeActionOn node s
  | .nodeActionLed node => Sys2Proof.Machine.execNodeActionLed node s
  | .slotAssign node => Sys2Proof.Machine.execSlotAssign node s
  | .slotRelease node => Sys2Proof.Machine.execSlotRelease node s
  | .selectChannel node => Sys2Proof.Machine.execSelectChannel node s
  | .nodeActionGain node => Sys2Proof.Machine.execNodeActionGain node s
  | .launchCmd h num rec => Sys2Proof.Machine.execLaunchCmd h num rec s
  | .launchReport h num trunk state late reason => Sys2Proof.Machine.execLaunchReport h num trunk state late reason s
  | .ppsOutEdge n => Sys2Proof.Machine.execPpsOutEdge n s
  | .ppsOutPulseEnd n => Sys2Proof.Machine.execPpsOutPulseEnd n s
  | .ppsEn inst tag n on => Sys2Proof.Machine.execPpsEn inst tag n on s
  | .lxEn inst tag n on => Sys2Proof.Machine.execLxEn inst tag n on s
  | .isobarAlarm => Sys2Proof.Machine.execIsobarAlarm s
  | .fieldReset => Sys2Proof.Machine.execFieldReset s
  | .fieldStart => Sys2Proof.Machine.execFieldStart s
  | .powerSequenceStep => Sys2Proof.Machine.execPowerSequenceStep s
  | .fieldFrame noise skew => Sys2Proof.Machine.execFieldFrame noise skew s
  | .hubFieldFrame => Sys2Proof.Machine.execHubFieldFrame s
  | .poruaFrameReturn trunk f => Sys2Proof.Machine.execPoruaFrameReturn trunk f s
  | .nodeEventResend node => Sys2Proof.Machine.execNodeEventResend node s
  | .heartbeat atHub h mode field role epoch => Sys2Proof.Machine.execHeartbeat atHub h mode field role epoch s
  | .hubLost => Sys2Proof.Machine.execHubLost s
  | .fieldLost => Sys2Proof.Machine.execFieldLost s
  | .timeXfer h time frac isbState freq => Sys2Proof.Machine.execTimeXfer h time frac isbState freq s
  | .timeEcho atHub h sent holdPs => Sys2Proof.Machine.execTimeEcho atHub h sent holdPs s
  | .wake h source data at_ => Sys2Proof.Machine.execWake h source data at_ s
  | .audioUp h trunk block frameTime valid samples => Sys2Proof.Machine.execAudioUp h trunk block frameTime valid samples s
  | .audioDown h frameTime samples => Sys2Proof.Machine.execAudioDown h frameTime samples s
  | .nodeEvent h node code frameTime => Sys2Proof.Machine.execNodeEvent h node code frameTime s
  | .nodeClear h node => Sys2Proof.Machine.execNodeClear h node s
  | .nodeAck h node => Sys2Proof.Machine.execNodeAck h node s
  | .dictReq h inst body => Sys2Proof.Machine.execDictReq h inst body s
  | .dictRsp h inst body => Sys2Proof.Machine.execDictRsp h inst body s
  | .power atHub h kind arg => Sys2Proof.Machine.execPower atHub h kind arg s
  | .lanokResend hub => Sys2Proof.Machine.execLanokResend hub s
  | .lanokLinkStart offset => Sys2Proof.Machine.execLanokLinkStart offset s
  | .enumerate inst tag trunk => Sys2Proof.Machine.execEnumerate inst tag trunk s
  | .hopDown trunk hop => Sys2Proof.Machine.execHopDown trunk hop s
  | .loopbackRemove trunk hop => Sys2Proof.Machine.execLoopbackRemove trunk hop s
  | .trunkPortEnable trunk port => Sys2Proof.Machine.execTrunkPortEnable trunk port s
  | .softStartEnd trunk port current => Sys2Proof.Machine.execSoftStartEnd trunk port current s
  | .overcurrentTrip trunk port current => Sys2Proof.Machine.execOvercurrentTrip trunk port current s
  | .tripRetry trunk port => Sys2Proof.Machine.execTripRetry trunk port s
  | .pwrClear inst tag trunk port => Sys2Proof.Machine.execPwrClear inst tag trunk port s
  | .hdMicCloseEnd node => Sys2Proof.Machine.execHdMicCloseEnd node s
  | .emergencyIn pin => Sys2Proof.Machine.execEmergencyIn pin s
  | .fgpioDebounceEnd pin high heldMs => Sys2Proof.Machine.execFgpioDebounceEnd pin high heldMs s
  | .fieldWake => Sys2Proof.Machine.execFieldWake s
  | .canFrame bus identifier form passive octets => Sys2Proof.Machine.execCanFrame bus identifier form passive octets s
  | .canReassemblyTimeout bus => Sys2Proof.Machine.execCanReassemblyTimeout bus s
  | .canBusOffRecovery bus => Sys2Proof.Machine.execCanBusOffRecovery bus s
  | .reqSpeak => Sys2Proof.Machine.execReqSpeak s
  | .reqCancel => Sys2Proof.Machine.execReqCancel s
  | .priorityOn => Sys2Proof.Machine.execPriorityOn s
  | .priorityOff => Sys2Proof.Machine.execPriorityOff s
  | .voteK => Sys2Proof.Machine.execVoteK s
  | .endpointChange => Sys2Proof.Machine.execEndpointChange s
  | .message => Sys2Proof.Machine.execMessage s
  | .fault => Sys2Proof.Machine.execFault s
  | .read inst tag index sub => Sys2Proof.Machine.execRead inst tag index sub s
  | .write inst tag index sub value => Sys2Proof.Machine.execWrite inst tag index sub value s
  | .groupWrite inst tag index sub value => Sys2Proof.Machine.execGroupWrite inst tag index sub value s
  | .blobOpenWrite inst tag index sub length => Sys2Proof.Machine.execBlobOpenWrite inst tag index sub length s
  | .blobOpenRead inst tag index sub => Sys2Proof.Machine.execBlobOpenRead inst tag index sub s
  | .blobData inst tag index sub value => Sys2Proof.Machine.execBlobData inst tag index sub value s
  | .blobClose inst tag index sub value => Sys2Proof.Machine.execBlobClose inst tag index sub value s
  | .abort inst tag index sub => Sys2Proof.Machine.execAbort inst tag index sub s
  | .cmdComplete index sub st => Sys2Proof.Machine.execCmdComplete index sub st s
  | .groupTimeout inst => Sys2Proof.Machine.execGroupTimeout inst s
  | .blobTimeout inst => Sys2Proof.Machine.execBlobTimeout inst s
  | .mbxGo slot => Sys2Proof.Machine.execMbxGo slot s
  | .udpDictDatagram src sport fragment octets => Sys2Proof.Machine.execUdpDictDatagram src sport fragment octets s
  | .persistFlashWrite => Sys2Proof.Machine.execPersistFlashWrite s
  | .persistWriteComplete => Sys2Proof.Machine.execPersistWriteComplete s
  | .warmReset inst tag => Sys2Proof.Machine.execWarmReset inst tag s
  | .factoryReset inst tag => Sys2Proof.Machine.execFactoryReset inst tag s
  | .modeRequest inst tag mode => Sys2Proof.Machine.execModeRequest inst tag mode s
  | .sqTailWrite q value => Sys2Proof.Machine.execSqTailWrite q value s
  | .sqErrRead fn q => Sys2Proof.Machine.execSqErrRead fn q s
  | .acceptLoRead fn => Sys2Proof.Machine.execAcceptLoRead fn s
  | .workEnqueue source it => Sys2Proof.Machine.execWorkEnqueue source it s
  | .journalAccept => Sys2Proof.Machine.execJournalAccept s
  | .peerCopyTimeout => Sys2Proof.Machine.execPeerCopyTimeout s
  | .meWorkRequest me => Sys2Proof.Machine.execMeWorkRequest me s
  | .affinityWaitExpiry accept => Sys2Proof.Machine.execAffinityWaitExpiry accept s
  | .itemComplete me actions => Sys2Proof.Machine.execItemComplete me actions s
  | .delayDue => Sys2Proof.Machine.execDelayDue s
  | .runLimitExceeded me => Sys2Proof.Machine.execRunLimitExceeded me s
  | .meFault me => Sys2Proof.Machine.execMeFault me s
  | .clusterFault cl => Sys2Proof.Machine.execClusterFault cl s
  | .checkpoint => Sys2Proof.Machine.execCheckpoint s
  | .checkpointComplete => Sys2Proof.Machine.execCheckpointComplete s
  | .mirrorCopyDone => Sys2Proof.Machine.execMirrorCopyDone s
  | .fwStage inst tag octets => Sys2Proof.Machine.execFwStage inst tag octets s
  | .fwActivate inst tag => Sys2Proof.Machine.execFwActivate inst tag s
  | .schedStatsClear inst tag => Sys2Proof.Machine.execSchedStatsClear inst tag s
  | .nop me => Sys2Proof.Machine.execNop me s
  | .mpy me => Sys2Proof.Machine.execMpy me s
  | .mac me => Sys2Proof.Machine.execMac me s
  | .msu me => Sys2Proof.Machine.execMsu me s
  | .mpy2 me => Sys2Proof.Machine.execMpy2 me s
  | .mac2 me => Sys2Proof.Machine.execMac2 me s
  | .macx me => Sys2Proof.Machine.execMacx me s
  | .cmpy me => Sys2Proof.Machine.execCmpy me s
  | .cmac me => Sys2Proof.Machine.execCmac me s
  | .add me => Sys2Proof.Machine.execAdd me s
  | .sub me => Sys2Proof.Machine.execSub me s
  | .bfly me => Sys2Proof.Machine.execBfly me s
  | .abs me => Sys2Proof.Machine.execAbs me s
  | .neg me => Sys2Proof.Machine.execNeg me s
  | .min me => Sys2Proof.Machine.execMin me s
  | .max me => Sys2Proof.Machine.execMax me s
  | .and me => Sys2Proof.Machine.execAnd me s
  | .or me => Sys2Proof.Machine.execOr me s
  | .xor me => Sys2Proof.Machine.execXor me s
  | .shl me => Sys2Proof.Machine.execShl me s
  | .shr me => Sys2Proof.Machine.execShr me s
  | .cmp me => Sys2Proof.Machine.execCmp me s
  | .sel me => Sys2Proof.Machine.execSel me s
  | .perm me => Sys2Proof.Machine.execPerm me s
  | .exp me => Sys2Proof.Machine.execExp me s
  | .aadd me => Sys2Proof.Machine.execAadd me s
  | .asub me => Sys2Proof.Machine.execAsub me s
  | .ash me => Sys2Proof.Machine.execAsh me s
  | .aclr me => Sys2Proof.Machine.execAclr me s
  | .amov me => Sys2Proof.Machine.execAmov me s
  | .rnd me => Sys2Proof.Machine.execRnd me s
  | .rndh me => Sys2Proof.Machine.execRndh me s
  | .ld me y => Sys2Proof.Machine.execLd me y s
  | .st me y => Sys2Proof.Machine.execSt me y s
  | .ldb me y => Sys2Proof.Machine.execLdb me y s
  | .pupd me y => Sys2Proof.Machine.execPupd me y s
  | .cnop me => Sys2Proof.Machine.execCnop me s
  | .setv me => Sys2Proof.Machine.execSetv me s
  | .setp me => Sys2Proof.Machine.execSetp me s
  | .setm me => Sys2Proof.Machine.execSetm me s
  | .addp me => Sys2Proof.Machine.execAddp me s
  | .bra me => Sys2Proof.Machine.execBra me s
  | .bcc me => Sys2Proof.Machine.execBcc me s
  | .loop me => Sys2Proof.Machine.execLoop me s
  | .ldc me => Sys2Proof.Machine.execLdc me s
  | .ldcDataArrive me => Sys2Proof.Machine.execLdcDataArrive me s
  | .clrf me => Sys2Proof.Machine.execClrf me s
  | .rdst me => Sys2Proof.Machine.execRdst me s
  | .halt me => Sys2Proof.Machine.execHalt me s
  | .tickBoundary t => Sys2Proof.Machine.execTickBoundary t s
  | .tickBudgetExpiry t => Sys2Proof.Machine.execTickBudgetExpiry t s
  | .kimageValidated k => Sys2Proof.Machine.execKimageValidated k s
  | .kunload inst tag k => Sys2Proof.Machine.execKunload inst tag k s
  | .bEn inst tag e on => Sys2Proof.Machine.execBEn inst tag e on s
  | .tEn inst tag t on => Sys2Proof.Machine.execTEn inst tag t on s
  | .sapEn inst tag n on => Sys2Proof.Machine.execSapEn inst tag n on s
  | .sapClocksStart n => Sys2Proof.Machine.execSapClocksStart n s
  | .sapLocked n => Sys2Proof.Machine.execSapLocked n s
  | .sapStartFramesDone n => Sys2Proof.Machine.execSapStartFramesDone n s
  | .sapRampOutDone n => Sys2Proof.Machine.execSapRampOutDone n s
  | .sapStopFramesDone n => Sys2Proof.Machine.execSapStopFramesDone n s
  | .clockLost n => Sys2Proof.Machine.execClockLost n s
  | .staleFadeExpiry endpoint n => Sys2Proof.Machine.execStaleFadeExpiry endpoint n s
  | .audioSampleBoundary di mics => Sys2Proof.Machine.execAudioSampleBoundary di mics s
  | .epEn inst tag rx e on => Sys2Proof.Machine.execEpEn inst tag rx e on s
  | .bar2Write offset width data => Sys2Proof.Machine.execBar2Write offset width data s
  | .xpCopy inst tag set_ => Sys2Proof.Machine.execXpCopy inst tag set_ s
  | .xpPreset inst tag => Sys2Proof.Machine.execXpPreset inst tag s
  | .xpCopyDone => Sys2Proof.Machine.execXpCopyDone s
  | .meterClr inst tag => Sys2Proof.Machine.execMeterClr inst tag s
  | .lmReset inst tag m => Sys2Proof.Machine.execLmReset inst tag m s
  | .loudnessUpdate => Sys2Proof.Machine.execLoudnessUpdate s
  | .tmGrant inst tag id => Sys2Proof.Machine.execTmGrant inst tag id s
  | .tmClose inst tag id => Sys2Proof.Machine.execTmClose inst tag id s
  | .tmClearQueue inst tag => Sys2Proof.Machine.execTmClearQueue inst tag s
  | .talkerSwitch => Sys2Proof.Machine.execTalkerSwitch s
  | .deskEn inst tag d on => Sys2Proof.Machine.execDeskEn inst tag d on s
  | .preselection => Sys2Proof.Machine.execPreselection s
  | .candidateConcealEnd c => Sys2Proof.Machine.execCandidateConcealEnd c s
  | .voiceHangExpiry leg => Sys2Proof.Machine.execVoiceHangExpiry leg s
  | .languageFallback l => Sys2Proof.Machine.execLanguageFallback l s
  | .groupFrameBoundary g => Sys2Proof.Machine.execGroupFrameBoundary g s
  | .ethFrameReceived p f => Sys2Proof.Machine.execEthFrameReceived p f s
  | .mgmtFrameReceived f => Sys2Proof.Machine.execMgmtFrameReceived f s
  | .pauseReceived p quanta => Sys2Proof.Machine.execPauseReceived p quanta s
  | .pfcReceived p enabled quanta => Sys2Proof.Machine.execPfcReceived p enabled quanta s
  | .pauseExpiry p => Sys2Proof.Machine.execPauseExpiry p s
  | .pauseResend p => Sys2Proof.Machine.execPauseResend p s
  | .linkLoss p => Sys2Proof.Machine.execLinkLoss p s
  | .linkUp p => Sys2Proof.Machine.execLinkUp p s
  | .fecSecond p corrected uncorrectable => Sys2Proof.Machine.execFecSecond p corrected uncorrectable s
  | .portEn inst tag p on => Sys2Proof.Machine.execPortEn inst tag p on s
  | .qFlush inst tag => Sys2Proof.Machine.execQFlush inst tag s
  | .poolTest inst tag => Sys2Proof.Machine.execPoolTest inst tag s
  | .poolTestDone cells => Sys2Proof.Machine.execPoolTestDone cells s
  | .spillDrainComplete => Sys2Proof.Machine.execSpillDrainComplete s
  | .orphanAudit cells => Sys2Proof.Machine.execOrphanAudit cells s
  | .portTransmitterFree p read => Sys2Proof.Machine.execPortTransmitterFree p read s
  | .shaperConforming leg => Sys2Proof.Machine.execShaperConforming leg s
  | .shaperAdapt => Sys2Proof.Machine.execShaperAdapt s
  | .gateEntryChange p => Sys2Proof.Machine.execGateEntryChange p s
  | .gateConfigChange p => Sys2Proof.Machine.execGateConfigChange p s
  | .copyFormation => Sys2Proof.Machine.execCopyFormation s
  | .estimateUpdate leg => Sys2Proof.Machine.execEstimateUpdate leg s
  | .refreshWaitExpiry => Sys2Proof.Machine.execRefreshWaitExpiry s
  | .refreshMinExpiry => Sys2Proof.Machine.execRefreshMinExpiry s
  | .transportFeedbackTimer => Sys2Proof.Machine.execTransportFeedbackTimer s
  | .rtcpReportTimer => Sys2Proof.Machine.execRtcpReportTimer s
  | .failbackHoldExpiry p => Sys2Proof.Machine.execFailbackHoldExpiry p s
  | .legCkptTimer => Sys2Proof.Machine.execLegCkptTimer s
  | .authFailSecond leg => Sys2Proof.Machine.execAuthFailSecond leg s
  | .legEn inst tag l on => Sys2Proof.Machine.execLegEn inst tag l on s
  | .legCtrlEnable inst tag leg txn => Sys2Proof.Machine.execLegCtrlEnable inst tag leg txn s
  | .legCtrlDisable inst tag leg txn => Sys2Proof.Machine.execLegCtrlDisable inst tag leg txn s
  | .legCtrlSpeak inst tag leg txn => Sys2Proof.Machine.execLegCtrlSpeak inst tag leg txn s
  | .legCtrlCancel inst tag leg txn => Sys2Proof.Machine.execLegCtrlCancel inst tag leg txn s
  | .legCtrlSetSource inst tag leg txn slot code => Sys2Proof.Machine.execLegCtrlSetSource inst tag leg txn slot code s
  | .legCtrlSetMax inst tag leg txn slot layer => Sys2Proof.Machine.execLegCtrlSetMax inst tag leg txn slot layer s
  | .legCtrlRefresh inst tag leg txn slot => Sys2Proof.Machine.execLegCtrlRefresh inst tag leg txn slot s
  | .decEn inst tag c on => Sys2Proof.Machine.execDecEn inst tag c on s
  | .encEn inst tag e on => Sys2Proof.Machine.execEncEn inst tag e on s
  | .decodePictureComplete j => Sys2Proof.Machine.execDecodePictureComplete j s
  | .decodeBufWaitTimeout c => Sys2Proof.Machine.execDecodeBufWaitTimeout c s
  | .pictureTimeout j => Sys2Proof.Machine.execPictureTimeout j s
  | .damageWaitExpiry c => Sys2Proof.Machine.execDamageWaitExpiry c s
  | .encodePictureComplete e rows cutAt units => Sys2Proof.Machine.execEncodePictureComplete e rows cutAt units s
  | .refresh inst tag e => Sys2Proof.Machine.execRefresh inst tag e s
  | .outputPictureBoundary o => Sys2Proof.Machine.execOutputPictureBoundary o s
  | .composedPictureComplete => Sys2Proof.Machine.execComposedPictureComplete s
  | .layerTableBar2Write off value wide => Sys2Proof.Machine.execLayerTableBar2Write off value wide s
  | .layerCopy inst tag o => Sys2Proof.Machine.execLayerCopy inst tag o s
  | .outEn inst tag o on => Sys2Proof.Machine.execOutEn inst tag o on s
  | .ovlBase inst tag v base => Sys2Proof.Machine.execOvlBase inst tag v base s
  | .dmaGo n host => Sys2Proof.Machine.execDmaGo n host s
  | .dmaStop n host => Sys2Proof.Machine.execDmaStop n host s
  | .dmaResume n host => Sys2Proof.Machine.execDmaResume n host s
  | .dmaDoorbell n => Sys2Proof.Machine.execDmaDoorbell n s
  | .dmaReq n => Sys2Proof.Machine.execDmaReq n s
  | .descriptorFetchDone n host failed => Sys2Proof.Machine.execDescriptorFetchDone n host failed s
  | .descriptorComplete n host fail => Sys2Proof.Machine.execDescriptorComplete n host fail s
  | .linkFetchDone n host failed => Sys2Proof.Machine.execLinkFetchDone n host failed s
  | .dmaPacingPermit n => Sys2Proof.Machine.execDmaPacingPermit n s
  | .dmaPaceTimer n => Sys2Proof.Machine.execDmaPaceTimer n s
  | .busTimeout n host done => Sys2Proof.Machine.execBusTimeout n host done s
  | .curLoRead n fn => Sys2Proof.Machine.execCurLoRead n fn s
  | .dmaEn inst tag n on => Sys2Proof.Machine.execDmaEn inst tag n on s
  | .memRequest rs => Sys2Proof.Machine.execMemRequest rs s
  | .reinterleaveDone restored => Sys2Proof.Machine.execReinterleaveDone restored s
  | .dramRefresh c rank issued => Sys2Proof.Machine.execDramRefresh c rank issued s
  | .actWindow => Sys2Proof.Machine.execActWindow s
  | .patrolScrub c corrected bad => Sys2Proof.Machine.execPatrolScrub c corrected bad s
  | .periodicRetrain c margin pause inRange => Sys2Proof.Machine.execPeriodicRetrain c margin pause inRange s
  | .fullTrainingDone c ok => Sys2Proof.Machine.execFullTrainingDone c ok s
  | .pdIdleExpiry c rank => Sys2Proof.Machine.execPdIdleExpiry c rank s
  | .memStatsClear inst tag => Sys2Proof.Machine.execMemStatsClear inst tag s
  | .keyLoad r => Sys2Proof.Machine.execKeyLoad r s
  | .keyErase r => Sys2Proof.Machine.execKeyErase r s
  | .keyLoadNext r => Sys2Proof.Machine.execKeyLoadNext r s
  | .sealRequest r => Sys2Proof.Machine.execSealRequest r s
  | .sealDequeue => Sys2Proof.Machine.execSealDequeue s
  | .sealComplete wrong0 wrong1 agree2 => Sys2Proof.Machine.execSealComplete wrong0 wrong1 agree2 s
  | .slotErase inst tag slot => Sys2Proof.Machine.execSlotErase inst tag slot s
  | .inErase inst tag => Sys2Proof.Machine.execInErase inst tag s
  | .outErase inst tag => Sys2Proof.Machine.execOutErase inst tag s
  | .egressKeyEffective leg => Sys2Proof.Machine.execEgressKeyEffective leg s
  | .prevKeyExpiry leg => Sys2Proof.Machine.execPrevKeyExpiry leg s
  | .pdRequestRun inst tag d => Sys2Proof.Machine.execPdRequestRun inst tag d s
  | .pdRequestCalm inst tag d => Sys2Proof.Machine.execPdRequestCalm inst tag d s
  | .pdRequestFrost inst tag d => Sys2Proof.Machine.execPdRequestFrost inst tag d s
  | .pdReset inst tag d => Sys2Proof.Machine.execPdReset inst tag d s
  | .lullEntry unit => Sys2Proof.Machine.execLullEntry unit s
  | .hubOff inst tag => Sys2Proof.Machine.execHubOff inst tag s
  | .wakeN => Sys2Proof.Machine.execWakeN s
  | .drainComplete => Sys2Proof.Machine.execDrainComplete s
  | .drainTimeout => Sys2Proof.Machine.execDrainTimeout s
  | .hostWakeRequest => Sys2Proof.Machine.execHostWakeRequest s
  | .regulatorReady rail d => Sys2Proof.Machine.execRegulatorReady rail d s
  | .pllLocked d => Sys2Proof.Machine.execPllLocked d s
  | .memoryReady d failed bad => Sys2Proof.Machine.execMemoryReady d failed bad s
  | .logicReady d => Sys2Proof.Machine.execLogicReady d s
  | .wakeStepTimeout d locks => Sys2Proof.Machine.execWakeStepTimeout d locks s
  | .powerGoodLoss rail => Sys2Proof.Machine.execPowerGoodLoss rail s
  | .tempAlarm temp => Sys2Proof.Machine.execTempAlarm temp s
  | .tempShutdown temp => Sys2Proof.Machine.execTempShutdown temp s
  | .standbyIdleTimeout => Sys2Proof.Machine.execStandbyIdleTimeout s
  | .watchdogTimeout => Sys2Proof.Machine.execWatchdogTimeout s
  | .wdtService => Sys2Proof.Machine.execWdtService s
  | .hostWatchTimeout => Sys2Proof.Machine.execHostWatchTimeout s
  | .hostPing inst tag => Sys2Proof.Machine.execHostPing inst tag s
  | .pcieLinkDown => Sys2Proof.Machine.execPcieLinkDown s
  | .perstN high => Sys2Proof.Machine.execPerstN high s
  | .chClear inst tag => Sys2Proof.Machine.execChClear inst tag s
  | .chRetire inst tag => Sys2Proof.Machine.execChRetire inst tag s
  | .pairHeartbeat h role mode pairState hubOk lastAccept time reachable serial usable source => Sys2Proof.Machine.execPairHeartbeat h role mode pairState hubOk lastAccept time reachable serial usable source s
  | .pairHeartbeatSend => Sys2Proof.Machine.execPairHeartbeatSend s
  | .jrnlCopy h entries => Sys2Proof.Machine.execJrnlCopy h entries s
  | .jrnlAck h held => Sys2Proof.Machine.execJrnlAck h held s
  | .jrnlMark h committed freed => Sys2Proof.Machine.execJrnlMark h committed freed s
  | .stagedData h addr off octets => Sys2Proof.Machine.execStagedData h addr off octets s
  | .legCkpt h c => Sys2Proof.Machine.execLegCkpt h c s
  | .sync h part total snap => Sys2Proof.Machine.execSync h part total snap s
  | .role h peer mine epoch finals => Sys2Proof.Machine.execRole h peer mine epoch finals s
  | .relayDown h frameTime samples => Sys2Proof.Machine.execRelayDown h frameTime samples s
  | .relayUp h trunk block frameTime valid samples => Sys2Proof.Machine.execRelayUp h trunk block frameTime valid samples s
  | .relayMsg h toField m => Sys2Proof.Machine.execRelayMsg h toField m s
  | .pairTimeEcho h sent holdPs => Sys2Proof.Machine.execPairTimeEcho h sent holdPs s
  | .pairResend => Sys2Proof.Machine.execPairResend s
  | .pairLinkDown => Sys2Proof.Machine.execPairLinkDown s
  | .pairLinkUp => Sys2Proof.Machine.execPairLinkUp s
  | .beacon serial role mode hubLost take yield_ epoch reachable m => Sys2Proof.Machine.execBeacon serial role mode hubLost take yield_ epoch reachable m s
  | .beaconTimeout => Sys2Proof.Machine.execBeaconTimeout s
  | .splitSettle reach => Sys2Proof.Machine.execSplitSettle reach s
  | .masterSwitch => Sys2Proof.Machine.execMasterSwitch s
  | .takeTimeout => Sys2Proof.Machine.execTakeTimeout s
  | .pairStartTimeout reach => Sys2Proof.Machine.execPairStartTimeout reach s
  | .switchover inst tag => Sys2Proof.Machine.execSwitchover inst tag s
  | .forceActive inst tag => Sys2Proof.Machine.execForceActive inst tag s
  | .bridgeBeacon serial role mode hubLost take yield_ epoch reachable => Sys2Proof.Machine.execBridgeBeacon serial role mode hubLost take yield_ epoch reachable s
  | .bridgeBeaconTimer => Sys2Proof.Machine.execBridgeBeaconTimer s
  | .coldBoot rolePin => Sys2Proof.Machine.execColdBoot rolePin s
  | .bootStepComplete channels cells => Sys2Proof.Machine.execBootStepComplete channels cells s
  | .coreBrownout => Sys2Proof.Machine.execCoreBrownout s
  | .stormFlashCopy => Sys2Proof.Machine.execStormFlashCopy s
  | .stormClear inst tag => Sys2Proof.Machine.execStormClear inst tag s
  | .returnPrep inst tag => Sys2Proof.Machine.execReturnPrep inst tag s
  | .vaneEn inst tag on => Sys2Proof.Machine.execVaneEn inst tag on s
  | .bypass => Sys2Proof.Machine.execBypass s
  | .idcode => Sys2Proof.Machine.execIdcode s
  | .samplePreload => Sys2Proof.Machine.execSamplePreload s
  | .extest => Sys2Proof.Machine.execExtest s
  | .extestPulse => Sys2Proof.Machine.execExtestPulse s
  | .extestTrain => Sys2Proof.Machine.execExtestTrain s
  | .clamp => Sys2Proof.Machine.execClamp s
  | .highz => Sys2Proof.Machine.execHighz s
  | .testUnlock tmode => Sys2Proof.Machine.execTestUnlock tmode s
  | .buttonPress node code => Sys2Proof.Machine.execButtonPress node code s
  | .sapFrame n di => Sys2Proof.Machine.execSapFrame n di s
  | .ref10mInEdge => Sys2Proof.Machine.execRef10mInEdge s
  | .ptpDelayReqInterval => Sys2Proof.Machine.execPtpDelayReqInterval s
  | .ptpAnnounceInterval => Sys2Proof.Machine.execPtpAnnounceInterval s
  | .replayDone locked lost => Sys2Proof.Machine.execReplayDone locked lost s
  | .pcieLinkUp => Sys2Proof.Machine.execPcieLinkUp s
  | .mgmtLinkChange state => Sys2Proof.Machine.execMgmtLinkChange state s
  | .lanokCrcFailure hub foreign => Sys2Proof.Machine.execLanokCrcFailure hub foreign s
  | .fieldSupplyLoss => Sys2Proof.Machine.execFieldSupplyLoss s
  | .vddIoRise => Sys2Proof.Machine.execVddIoRise s
  | .vddIoRemoved => Sys2Proof.Machine.execVddIoRemoved s
  | .rstNLow => Sys2Proof.Machine.execRstNLow s

end Sys2Proof.Machine
end

