-- ==== Sys2Proof/Machine/Touches.lean ====
section
/-! DEFINITION. Which parts of the state each command may change: the frame of every command, in one table. -/
namespace Sys2Proof.Machine

/-- The parts of `State` beside the queue, by field; of two of them one field apart: `octets`, what the hub memory holds, in
`mem`, and `claims`, who owns a resource, in `dic`. -/
inductive StatePart where
  | regs | blobs | out | freeCtr | isb | fld | dic | sch | dsp | sap | mix | pkt
  | trf | fwd | vid | cmp | dma | mem | sea | pwr | flt | pair | boot | diag | octets | claims
deriving DecidableEq, Repr

/-- The part reads the same in both states. -/
def StatePart.same : StatePart → State → State → Prop
  | .regs, s, t => t.regs = s.regs
  | .blobs, s, t => t.blobs = s.blobs
  | .out, s, t => t.out = s.out
  | .freeCtr, s, t => t.freeCtr = s.freeCtr
  | .isb, s, t => t.isb = s.isb
  | .fld, s, t => t.fld = s.fld
  | .dic, s, t => t.dic = s.dic
  | .sch, s, t => t.sch = s.sch
  | .dsp, s, t => t.dsp = s.dsp
  | .sap, s, t => t.sap = s.sap
  | .mix, s, t => t.mix = s.mix
  | .pkt, s, t => t.pkt = s.pkt
  | .trf, s, t => t.trf = s.trf
  | .fwd, s, t => t.fwd = s.fwd
  | .vid, s, t => t.vid = s.vid
  | .cmp, s, t => t.cmp = s.cmp
  | .dma, s, t => t.dma = s.dma
  | .mem, s, t => t.mem = s.mem
  | .sea, s, t => t.sea = s.sea
  | .pwr, s, t => t.pwr = s.pwr
  | .flt, s, t => t.flt = s.flt
  | .pair, s, t => t.pair = s.pair
  | .boot, s, t => t.boot = s.boot
  | .diag, s, t => t.diag = s.diag
  | .octets, s, t => t.mem.cells = s.mem.cells ∧ t.mem.epoch = s.mem.epoch ∧ t.mem.staging = s.mem.staging
  | .claims, s, t => t.dic.claims = s.dic.claims

def StatePart.all : List StatePart :=
  [.regs, .blobs, .out, .freeCtr, .isb, .fld, .dic, .sch, .dsp, .sap, .mix, .pkt,
   .trf, .fwd, .vid, .cmp, .dma, .mem, .sea, .pwr, .flt, .pair, .boot, .diag, .octets, .claims]

/-- Every part but those listed. -/
def StatePart.allBut (l : List StatePart) : List StatePart := StatePart.all.filter (fun p => !l.contains p)

/-- The parts of the state a command may change (derived from the meanings; assumption 136). -/
def touches : Instr → List StatePart
  | .registerWrite _ _ _ _ => StatePart.all
  | .badRegisterAccess _ _ _ _ => [.regs, .out]
  | .isobarFineTick => [.isb, .fld]
  | .nowLoRead _ => [.out, .isb]
  | .sourceQualify _ _ => [.regs, .isb, .fld, .pair]
  | .sourceStopTimeout _ => [.regs, .isb, .fld, .pair]
  | .slewEnd => [.isb]
  | .ppsInEdge _ => [.regs, .isb, .fld, .pair]
  | .ptpMessage _ => [.regs, .out, .freeCtr, .isb, .fld, .pkt, .trf, .dma, .pair]
  | .ptpSyncInterval => [.regs, .out, .freeCtr, .isb, .pkt, .trf, .dma]
  | .isbStep _ _ _ => StatePart.all
  | .todSet _ _ _ => StatePart.all
  | .barrierDelayMeasure => [.out, .isb, .fld, .pair]
  | .limpEntry _ _ => StatePart.allBut [.blobs, .sea]
  | .launchArm _ _ => [.regs, .out, .isb, .dic, .sch, .mem, .pair, .octets, .claims]
  | .launchCancel _ _ _ => StatePart.all
  | .launchWindowWrite _ _ _ => [.regs, .out, .isb, .dic, .sch, .mem, .pair, .octets, .claims]
  | .launchRecord _ _ _ => StatePart.all
  | .launchCommit _ => [.regs, .out, .isb, .dic, .mix, .claims]
  | .launchWakeLead _ => [.regs, .out, .pwr]
  | .xpSwap => [.regs, .out, .isb, .dic, .mix, .claims]
  | .eqSwap => [.regs, .out, .isb, .dic, .mix, .claims]
  | .srcSwitch => [.regs, .out, .isb, .dic, .mix, .fwd, .claims]
  | .layerSwap => [.regs, .out, .isb, .dic, .mix, .claims]
  | .gateTakeover => [.regs, .out, .isb, .dic, .mix, .trf, .claims]
  | .lxEdge => [.regs, .out, .isb, .dic, .claims]
  | .lxPulseEnd _ => [.regs, .out, .isb]
  | .sapGroup => [.regs, .out, .isb, .dic, .sap, .mix, .claims]
  | .hallHandover => StatePart.allBut [.blobs, .dsp, .sea, .flt, .diag]
  | .fieldMapSwap => [.regs, .out, .isb, .fld, .dic, .pair, .claims]
  | .voteOpen => [.regs, .out, .isb, .fld, .dic, .mix, .pair, .claims]
  | .voteClose => [.regs, .out, .isb, .fld, .dic, .mix, .pair, .claims]
  | .voteSeal _ => [.regs, .out, .sch, .mem, .pair, .octets]
  | .nodeActionOff _ => [.regs, .out, .isb, .fld, .dic, .pair, .claims]
  | .nodeActionOn _ => [.regs, .out, .isb, .fld, .dic, .pair, .claims]
  | .nodeActionLed _ => [.regs, .out, .isb, .fld, .dic, .pair, .claims]
  | .slotAssign _ => [.regs, .out, .isb, .fld, .dic, .pair, .claims]
  | .slotRelease _ => [.regs, .out, .isb, .fld, .dic, .pair, .claims]
  | .selectChannel _ => [.regs, .out, .isb, .fld, .dic, .pair, .claims]
  | .nodeActionGain _ => [.regs, .out, .isb, .fld, .dic, .pair, .claims]
  | .launchCmd _ _ _ => [.out, .fld, .pair]
  | .launchReport _ _ _ _ _ _ => [.regs, .out, .isb, .fld, .dic, .mix, .pair, .claims]
  | .ppsOutEdge _ => [.out, .isb]
  | .ppsOutPulseEnd _ => [.out, .isb]
  | .ppsEn _ _ _ _ => StatePart.all
  | .lxEn _ _ _ _ => StatePart.all
  | .isobarAlarm => [.regs, .out, .isb, .pwr]
  | .fieldReset => [.regs, .out, .isb, .fld, .flt]
  | .fieldStart => [.regs, .out, .isb, .fld, .flt]
  | .powerSequenceStep => [.regs, .out, .fld]
  | .fieldFrame _ _ => [.regs, .out, .fld, .pair]
  | .hubFieldFrame => [.regs, .out, .fld, .mix, .pair]
  | .poruaFrameReturn _ _ => [.regs, .out, .freeCtr, .fld, .dic, .flt, .pair, .diag, .claims]
  | .nodeEventResend _ => [.out, .fld, .pair]
  | .heartbeat _ _ _ _ _ _ => [.out, .fld, .pair]
  | .hubLost => [.regs, .out, .isb, .fld]
  | .fieldLost => [.regs, .out, .isb, .fld]
  | .timeXfer _ _ _ _ _ => [.regs, .out, .fld, .pair]
  | .timeEcho _ _ _ _ => [.regs, .out, .isb, .fld, .pair]
  | .wake _ _ _ _ => [.regs, .out, .fld, .pwr, .pair]
  | .audioUp _ _ _ _ _ _ => [.out, .fld, .pair]
  | .audioDown _ _ _ => [.out, .fld, .pair]
  | .nodeEvent _ _ _ _ => [.regs, .out, .fld, .sch, .mem, .pwr, .pair, .octets]
  | .nodeClear _ _ => [.regs, .out, .fld, .sch, .mem, .pair, .octets]
  | .nodeAck _ _ => [.out, .fld, .pair]
  | .dictReq _ _ _ => StatePart.all
  | .dictRsp _ _ _ => [.out, .fld, .pair]
  | .power _ _ _ _ =>
      [.regs, .out, .freeCtr, .fld, .dic, .sch, .pkt, .trf, .dma, .mem, .pwr, .pair, .boot, .octets]
  | .lanokResend _ => [.regs, .out, .isb, .fld]
  | .lanokLinkStart _ => StatePart.allBut [.blobs, .dsp, .sea, .flt, .diag]
  | .enumerate _ _ _ => StatePart.all
  | .hopDown _ _ => [.regs, .fld, .flt, .diag]
  | .loopbackRemove _ _ => [.regs, .fld]
  | .trunkPortEnable _ _ => [.regs, .out, .fld]
  | .softStartEnd _ _ _ => [.regs, .fld]
  | .overcurrentTrip _ _ _ => [.regs, .out, .fld]
  | .tripRetry _ _ => [.regs, .out, .fld]
  | .pwrClear _ _ _ _ => StatePart.all
  | .hdMicCloseEnd _ => [.regs, .fld]
  | .emergencyIn _ => [.regs, .out, .fld, .pair]
  | .fgpioDebounceEnd _ _ _ => [.regs, .out, .fld, .pair]
  | .fieldWake => [.regs]
  | .canFrame _ _ _ _ _ => [.regs, .out, .freeCtr, .fld, .pair]
  | .canReassemblyTimeout _ => [.regs, .fld]
  | .canBusOffRecovery _ => [.regs, .fld]
  | .reqSpeak => [.regs, .out, .isb, .fld, .dic, .mix, .pair, .claims]
  | .reqCancel => [.regs, .out, .isb, .fld, .dic, .mix, .pair, .claims]
  | .priorityOn => [.regs, .out, .isb, .fld, .dic, .mix, .pair, .claims]
  | .priorityOff => [.regs, .out, .isb, .fld, .dic, .mix, .pair, .claims]
  | .voteK => [.regs, .fld]
  | .endpointChange => [.fld]
  | .message => [.fld]
  | .fault => [.fld]
  | .read _ _ _ _ => StatePart.all
  | .write _ _ _ _ _ => StatePart.all
  | .groupWrite _ _ _ _ _ => StatePart.all
  | .blobOpenWrite _ _ _ _ _ => StatePart.all
  | .blobOpenRead _ _ _ _ => StatePart.all
  | .blobData _ _ _ _ _ => StatePart.all
  | .blobClose _ _ _ _ _ => StatePart.all
  | .abort _ _ _ _ => StatePart.all
  | .cmdComplete _ _ _ => [.regs, .out, .freeCtr, .fld, .dic, .pkt, .trf, .dma, .pair, .boot]
  | .groupTimeout _ => [.dic]
  | .blobTimeout _ => [.dic]
  | .mbxGo _ => StatePart.all
  | .udpDictDatagram _ _ _ _ => StatePart.all
  | .persistFlashWrite => [.dic, .boot]
  | .persistWriteComplete => [.regs, .out, .dic, .sch, .mem, .pair, .boot, .octets]
  | .warmReset _ _ => StatePart.all
  | .factoryReset _ _ => StatePart.all
  | .modeRequest _ _ _ => StatePart.all
  | .sqTailWrite _ _ => [.regs, .out, .sch, .mem, .pwr, .pair, .octets]
  | .sqErrRead _ _ => [.out, .sch]
  | .acceptLoRead _ => [.out, .sch]
  | .workEnqueue _ _ => [.regs, .out, .sch, .mem, .pwr, .pair, .octets]
  | .journalAccept => StatePart.all
  | .peerCopyTimeout => StatePart.all
  | .meWorkRequest _ => [.regs, .out, .sch, .dsp, .mem, .pwr, .pair, .octets]
  | .affinityWaitExpiry _ => [.sch]
  | .itemComplete _ _ => [.regs, .out, .sch, .mem, .pwr, .pair, .octets]
  | .delayDue => [.regs, .out, .sch, .mem, .pwr, .octets]
  | .runLimitExceeded _ => [.regs, .out, .sch, .dsp, .mem, .pwr, .flt, .pair, .diag, .octets]
  | .meFault _ => [.regs, .out, .sch, .dsp, .mem, .pwr, .flt, .pair, .diag, .octets]
  | .clusterFault _ => [.regs, .out, .sch, .dsp, .mem, .pwr, .flt, .pair, .diag, .octets]
  | .checkpoint => [.sch]
  | .checkpointComplete => [.regs, .out, .sch, .mem, .pair, .octets]
  | .mirrorCopyDone => [.regs, .sch, .mem, .octets]
  | .fwStage _ _ _ => StatePart.all
  | .fwActivate _ _ => StatePart.all
  | .schedStatsClear _ _ => StatePart.all
  | .nop _ => [.regs, .out, .sch, .dsp, .mem, .pwr, .pair, .octets]
  | .mpy _ => [.regs, .out, .sch, .dsp, .mem, .pwr, .pair, .octets]
  | .mac _ => [.regs, .out, .sch, .dsp, .mem, .pwr, .pair, .octets]
  | .msu _ => [.regs, .out, .sch, .dsp, .mem, .pwr, .pair, .octets]
  | .mpy2 _ => [.regs, .out, .sch, .dsp, .mem, .pwr, .pair, .octets]
  | .mac2 _ => [.regs, .out, .sch, .dsp, .mem, .pwr, .pair, .octets]
  | .macx _ => [.regs, .out, .sch, .dsp, .mem, .pwr, .pair, .octets]
  | .cmpy _ => [.regs, .out, .sch, .dsp, .mem, .pwr, .pair, .octets]
  | .cmac _ => [.regs, .out, .sch, .dsp, .mem, .pwr, .pair, .octets]
  | .add _ => [.regs, .out, .sch, .dsp, .mem, .pwr, .pair, .octets]
  | .sub _ => [.regs, .out, .sch, .dsp, .mem, .pwr, .pair, .octets]
  | .bfly _ => [.regs, .out, .sch, .dsp, .mem, .pwr, .pair, .octets]
  | .abs _ => [.regs, .out, .sch, .dsp, .mem, .pwr, .pair, .octets]
  | .neg _ => [.regs, .out, .sch, .dsp, .mem, .pwr, .pair, .octets]
  | .min _ => [.regs, .out, .sch, .dsp, .mem, .pwr, .pair, .octets]
  | .max _ => [.regs, .out, .sch, .dsp, .mem, .pwr, .pair, .octets]
  | .and _ => [.regs, .out, .sch, .dsp, .mem, .pwr, .pair, .octets]
  | .or _ => [.regs, .out, .sch, .dsp, .mem, .pwr, .pair, .octets]
  | .xor _ => [.regs, .out, .sch, .dsp, .mem, .pwr, .pair, .octets]
  | .shl _ => [.regs, .out, .sch, .dsp, .mem, .pwr, .pair, .octets]
  | .shr _ => [.regs, .out, .sch, .dsp, .mem, .pwr, .pair, .octets]
  | .cmp _ => [.regs, .out, .sch, .dsp, .mem, .pwr, .pair, .octets]
  | .sel _ => [.regs, .out, .sch, .dsp, .mem, .pwr, .pair, .octets]
  | .perm _ => [.regs, .out, .sch, .dsp, .mem, .pwr, .pair, .octets]
  | .exp _ => [.regs, .out, .sch, .dsp, .mem, .pwr, .pair, .octets]
  | .aadd _ => [.regs, .out, .sch, .dsp, .mem, .pwr, .pair, .octets]
  | .asub _ => [.regs, .out, .sch, .dsp, .mem, .pwr, .pair, .octets]
  | .ash _ => [.regs, .out, .sch, .dsp, .mem, .pwr, .pair, .octets]
  | .aclr _ => [.regs, .out, .sch, .dsp, .mem, .pwr, .pair, .octets]
  | .amov _ => [.regs, .out, .sch, .dsp, .mem, .pwr, .pair, .octets]
  | .rnd _ => [.regs, .out, .sch, .dsp, .mem, .pwr, .pair, .octets]
  | .rndh _ => [.regs, .out, .sch, .dsp, .mem, .pwr, .pair, .octets]
  | .ld _ _ => [.regs, .out, .sch, .dsp, .mem, .pwr, .pair, .octets]
  | .st _ _ => [.regs, .out, .sch, .dsp, .mem, .pwr, .pair, .octets]
  | .ldb _ _ => [.regs, .out, .sch, .dsp, .mem, .pwr, .pair, .octets]
  | .pupd _ _ => [.regs, .out, .sch, .dsp, .mem, .pwr, .pair, .octets]
  | .cnop _ => [.dsp]
  | .setv _ => [.dsp]
  | .setp _ => [.dsp]
  | .setm _ => [.dsp]
  | .addp _ => [.dsp]
  | .bra _ => [.dsp]
  | .bcc _ => [.dsp]
  | .loop _ => [.regs, .out, .sch, .dsp, .mem, .pwr, .pair, .octets]
  | .ldc _ => [.regs, .out, .sch, .dsp, .mem, .pwr, .pair, .octets]
  | .ldcDataArrive _ => [.dsp]
  | .clrf _ => [.dsp]
  | .rdst _ => [.dsp]
  | .halt _ => [.regs, .out, .sch, .dsp, .mem, .pwr, .pair, .octets]
  | .tickBoundary _ => [.regs, .sch, .dsp]
  | .tickBudgetExpiry _ => [.regs, .sch, .dsp]
  | .kimageValidated _ => [.regs, .dsp, .mem, .octets]
  | .kunload _ _ _ => StatePart.all
  | .bEn _ _ _ _ => StatePart.all
  | .tEn _ _ _ _ => StatePart.all
  | .sapEn _ _ _ _ => StatePart.all
  | .sapClocksStart _ => [.regs, .out, .sap]
  | .sapLocked _ => [.regs, .sap]
  | .sapStartFramesDone _ => [.regs, .sap]
  | .sapRampOutDone _ => [.regs, .out, .dic, .sap, .mix, .claims]
  | .sapStopFramesDone _ => [.regs, .out, .dic, .sap, .mix, .claims]
  | .clockLost _ => [.regs, .out, .sap, .flt, .diag]
  | .staleFadeExpiry _ _ => [.sap]
  | .audioSampleBoundary _ _ => [.regs, .out, .freeCtr, .fld, .dsp, .sap, .mix, .pkt, .trf, .dma, .flt, .diag]
  | .epEn _ _ _ _ _ => StatePart.all
  | .bar2Write _ _ _ => [.regs, .mix]
  | .xpCopy _ _ _ => StatePart.all
  | .xpPreset _ _ => StatePart.all
  | .xpCopyDone => [.regs, .out, .freeCtr, .fld, .dic, .mix, .pkt, .trf, .dma, .pair, .boot]
  | .meterClr _ _ => StatePart.all
  | .lmReset _ _ _ => StatePart.all
  | .loudnessUpdate => [.regs, .mix]
  | .tmGrant _ _ _ => StatePart.all
  | .tmClose _ _ _ => StatePart.all
  | .tmClearQueue _ _ => StatePart.all
  | .talkerSwitch => [.regs, .out, .isb, .fld, .dic, .mix, .pair, .claims]
  | .deskEn _ _ _ _ => StatePart.all
  | .preselection => [.regs, .out, .isb, .fld, .dic, .mix, .pair, .claims]
  | .candidateConcealEnd _ => [.mix]
  | .voiceHangExpiry _ => [.regs, .out, .isb, .fld, .dic, .mix, .pair, .claims]
  | .languageFallback _ => [.mix]
  | .groupFrameBoundary _ => [.regs, .out, .freeCtr, .mix, .pkt, .trf, .fwd, .dma, .pair]
  | .ethFrameReceived _ _ =>
      [.regs, .out, .freeCtr, .isb, .fld, .sap, .mix, .pkt, .trf, .fwd, .vid, .dma, .sea, .pwr, .pair]
  | .mgmtFrameReceived _ => StatePart.all
  | .pauseReceived _ _ => [.regs, .trf]
  | .pfcReceived _ _ _ => [.regs, .trf]
  | .pauseExpiry _ => [.regs, .trf]
  | .pauseResend _ => [.trf]
  | .linkLoss _ => [.regs, .out, .isb, .fld, .dic, .mix, .pkt, .trf, .fwd, .dma, .flt, .pair, .diag, .claims]
  | .linkUp _ => [.regs, .trf]
  | .fecSecond _ _ _ =>
      [.regs, .out, .isb, .fld, .dic, .mix, .pkt, .trf, .fwd, .dma, .flt, .pair, .diag, .claims]
  | .portEn _ _ _ _ => StatePart.all
  | .qFlush _ _ => StatePart.all
  | .poolTest _ _ => StatePart.all
  | .poolTestDone _ => StatePart.allBut [.blobs, .dsp, .sea, .flt, .diag]
  | .spillDrainComplete => [.regs, .out, .pkt, .trf, .dma]
  | .orphanAudit _ => [.regs, .pkt]
  | .portTransmitterFree _ _ => [.regs, .out, .freeCtr, .isb, .pkt, .trf, .fwd, .dma, .sea]
  | .shaperConforming _ => [.regs, .trf]
  | .shaperAdapt => [.regs, .trf]
  | .gateEntryChange _ => [.regs]
  | .gateConfigChange _ => [.regs, .blobs, .out, .isb, .dic, .pkt, .trf, .fwd, .dma, .claims]
  | .copyFormation => [.regs, .out, .freeCtr, .pkt, .trf, .fwd, .dma, .pair]
  | .estimateUpdate _ => [.regs, .fwd]
  | .refreshWaitExpiry => [.regs, .out, .freeCtr, .pkt, .trf, .fwd, .vid, .dma, .pair]
  | .refreshMinExpiry => [.regs, .out, .freeCtr, .pkt, .trf, .fwd, .dma, .pair]
  | .transportFeedbackTimer => [.regs, .out, .freeCtr, .pkt, .trf, .fwd, .dma, .pair]
  | .rtcpReportTimer => [.regs, .out, .freeCtr, .pkt, .trf, .fwd, .dma, .pair]
  | .failbackHoldExpiry _ => [.regs, .trf]
  | .legCkptTimer => [.out, .fwd, .pair]
  | .authFailSecond _ =>
      [.regs, .out, .isb, .fld, .dic, .mix, .pkt, .trf, .fwd, .dma, .flt, .pair, .diag, .claims]
  | .legEn _ _ _ _ => StatePart.all
  | .legCtrlEnable _ _ _ _ => StatePart.all
  | .legCtrlDisable _ _ _ _ => StatePart.all
  | .legCtrlSpeak _ _ _ _ => StatePart.all
  | .legCtrlCancel _ _ _ _ => StatePart.all
  | .legCtrlSetSource _ _ _ _ _ _ => StatePart.all
  | .legCtrlSetMax _ _ _ _ _ _ => StatePart.all
  | .legCtrlRefresh _ _ _ _ _ => StatePart.all
  | .decEn _ _ _ _ => StatePart.all
  | .encEn _ _ _ _ => StatePart.all
  | .decodePictureComplete _ => [.regs, .out, .freeCtr, .pkt, .trf, .fwd, .vid, .dma, .pwr, .pair]
  | .decodeBufWaitTimeout _ => [.regs, .vid, .pwr]
  | .pictureTimeout _ => [.regs, .vid, .pwr, .flt, .diag]
  | .damageWaitExpiry _ => [.regs, .out, .freeCtr, .pkt, .trf, .fwd, .vid, .dma, .pair]
  | .encodePictureComplete _ _ _ _ =>
      [.regs, .out, .freeCtr, .pkt, .trf, .fwd, .vid, .dma, .mem, .pwr, .octets]
  | .refresh _ _ _ => StatePart.all
  | .outputPictureBoundary _ => [.regs, .blobs, .vid, .cmp, .pwr]
  | .composedPictureComplete => [.regs, .out, .vid, .cmp, .pwr]
  | .layerTableBar2Write _ _ _ => [.regs, .blobs, .out, .cmp]
  | .layerCopy _ _ _ => StatePart.all
  | .outEn _ _ _ _ => StatePart.all
  | .ovlBase _ _ _ _ => StatePart.all
  | .dmaGo _ _ => [.regs, .out, .dic, .dma, .claims]
  | .dmaStop _ _ => [.regs, .out, .dic, .dma, .claims]
  | .dmaResume _ _ => [.regs, .out, .dic, .dma, .claims]
  | .dmaDoorbell _ => [.regs, .out, .dic, .dma, .claims]
  | .dmaReq _ => [.regs, .out, .dma]
  | .descriptorFetchDone _ _ _ => [.regs, .out, .dma]
  | .descriptorComplete _ _ _ => [.regs, .out, .freeCtr, .sch, .pkt, .trf, .dma, .mem, .pwr, .pair, .octets]
  | .linkFetchDone _ _ _ => [.regs, .out, .dic, .dma, .claims]
  | .dmaPacingPermit _ => [.regs, .out, .dic, .dma, .claims]
  | .dmaPaceTimer _ => [.regs, .out, .dma]
  | .busTimeout _ _ _ => [.regs, .out, .freeCtr, .sch, .pkt, .trf, .dma, .mem, .pwr, .pair, .octets]
  | .curLoRead _ _ => [.out, .dma]
  | .dmaEn _ _ _ _ => StatePart.all
  | .memRequest _ => StatePart.allBut [.blobs, .dsp]
  | .reinterleaveDone _ => StatePart.allBut [.blobs, .sea, .flt]
  | .dramRefresh _ _ _ => [.mem]
  | .actWindow => [.mem]
  | .patrolScrub _ _ _ => StatePart.allBut [.blobs, .dsp]
  | .periodicRetrain _ _ _ _ => [.regs, .out, .mem]
  | .fullTrainingDone _ _ => StatePart.allBut [.blobs, .dsp]
  | .pdIdleExpiry _ _ => [.mem]
  | .memStatsClear _ _ => StatePart.all
  | .keyLoad _ => [.regs, .out, .dic, .sea, .claims]
  | .keyErase _ => [.regs, .out, .dic, .sea, .claims]
  | .keyLoadNext _ => [.regs, .out, .dic, .sea, .claims]
  | .sealRequest _ => [.regs, .out, .sch, .mem, .sea, .pwr, .pair, .octets]
  | .sealDequeue => [.regs, .sea]
  | .sealComplete _ _ _ => [.regs, .out, .sch, .mem, .sea, .pwr, .flt, .pair, .diag, .octets]
  | .slotErase _ _ _ => StatePart.all
  | .inErase _ _ => StatePart.all
  | .outErase _ _ => StatePart.all
  | .egressKeyEffective _ => [.regs, .sea]
  | .prevKeyExpiry _ => [.sea]
  | .pdRequestRun _ _ _ => StatePart.all
  | .pdRequestCalm _ _ _ => StatePart.all
  | .pdRequestFrost _ _ _ => StatePart.all
  | .pdReset _ _ _ => StatePart.all
  | .lullEntry _ => [.regs, .pwr]
  | .hubOff _ _ => StatePart.all
  | .wakeN => [.regs, .out, .pwr, .boot]
  | .drainComplete => StatePart.all
  | .drainTimeout =>
      [.regs, .out, .freeCtr, .fld, .dic, .sch, .pkt, .trf, .dma, .mem, .pwr, .pair, .boot, .octets]
  | .hostWakeRequest => [.regs, .out, .pwr]
  | .regulatorReady _ _ => [.pwr]
  | .pllLocked _ => [.pwr]
  | .memoryReady _ _ _ => StatePart.allBut [.blobs]
  | .logicReady _ =>
      [.regs, .out, .freeCtr, .fld, .dic, .sch, .pkt, .trf, .vid, .cmp, .dma, .mem, .pwr, .pair, .boot, .octets]
  | .wakeStepTimeout _ _ => StatePart.allBut [.blobs, .sea]
  | .powerGoodLoss _ => StatePart.allBut [.blobs, .sea]
  | .tempAlarm _ => [.regs, .out, .pwr]
  | .tempShutdown _ => StatePart.allBut [.freeCtr]
  | .standbyIdleTimeout =>
      [.regs, .out, .freeCtr, .fld, .dic, .sch, .pkt, .trf, .dma, .mem, .pwr, .pair, .boot, .octets]
  | .watchdogTimeout => StatePart.allBut [.blobs, .freeCtr, .pair]
  | .wdtService => [.flt]
  | .hostWatchTimeout => [.regs]
  | .hostPing _ _ => StatePart.all
  | .pcieLinkDown => [.regs, .flt]
  | .perstN _ => [.regs, .dic, .flt]
  | .chClear _ _ => StatePart.all
  | .chRetire _ _ => StatePart.all
  | .pairHeartbeat _ _ _ _ _ _ _ _ _ _ _ => StatePart.allBut [.sea, .flt]
  | .pairHeartbeatSend =>
      [.regs, .out, .freeCtr, .isb, .fld, .dic, .sap, .pkt, .trf, .fwd, .vid, .cmp, .dma, .pwr, .pair, .boot]
  | .jrnlCopy _ _ => [.regs, .out, .sch, .fwd, .mem, .pwr, .pair, .octets]
  | .jrnlAck _ _ =>
      [.regs, .out, .freeCtr, .isb, .fld, .dic, .sch, .sap, .pkt, .trf, .fwd, .vid, .cmp, .dma, .mem, .pwr,
       .pair, .boot, .octets]
  | .jrnlMark _ _ _ =>
      [.regs, .blobs, .out, .isb, .fld, .dic, .sch, .dsp, .mix, .fwd, .mem, .pwr, .pair, .diag, .octets, .claims]
  | .stagedData _ _ _ _ => [.regs, .out, .sch, .fwd, .mem, .pwr, .pair, .octets]
  | .legCkpt _ _ => [.regs, .out, .sch, .fwd, .mem, .sea, .pwr, .pair, .octets]
  | .sync _ _ _ _ =>
      [.regs, .blobs, .out, .isb, .fld, .dic, .sch, .mix, .fwd, .mem, .pwr, .pair, .octets, .claims]
  | .role _ _ _ _ _ => StatePart.allBut [.sea, .flt]
  | .relayDown _ _ _ => [.regs, .out, .fld, .sch, .fwd, .mem, .pwr, .pair, .octets]
  | .relayUp _ _ _ _ _ _ => [.regs, .out, .fld, .sch, .fwd, .mem, .pwr, .pair, .octets]
  | .relayMsg _ _ _ => StatePart.all
  | .pairTimeEcho _ _ _ => [.regs, .out, .sch, .fwd, .mem, .pwr, .pair, .octets]
  | .pairResend => [.regs, .out, .freeCtr, .isb, .fld, .dic, .pkt, .trf, .dma, .pwr, .pair, .boot]
  | .pairLinkDown => [.regs, .out, .freeCtr, .isb, .fld, .dic, .pkt, .trf, .dma, .pwr, .pair, .boot]
  | .pairLinkUp => [.regs, .out, .pair]
  | .beacon _ _ _ _ _ _ _ _ _ => StatePart.allBut [.sea, .flt]
  | .beaconTimeout => [.regs, .out, .pwr, .pair]
  | .splitSettle _ => StatePart.allBut [.sea, .flt]
  | .masterSwitch => [.fld, .pair]
  | .takeTimeout => [.pair]
  | .pairStartTimeout _ => StatePart.allBut [.blobs, .dsp, .sea, .flt, .diag]
  | .switchover _ _ => StatePart.all
  | .forceActive _ _ => StatePart.all
  | .bridgeBeacon _ _ _ _ _ _ _ _ => StatePart.allBut [.sea, .flt]
  | .bridgeBeaconTimer => [.out, .pair]
  | .coldBoot _ => [.regs, .out, .pwr, .flt, .boot]
  | .bootStepComplete _ _ => StatePart.allBut [.sea]
  | .coreBrownout => StatePart.allBut [.freeCtr, .diag]
  | .stormFlashCopy => [.regs, .out, .diag]
  | .stormClear _ _ => StatePart.all
  | .returnPrep _ _ => StatePart.all
  | .vaneEn _ _ _ => StatePart.all
  | .bypass => [.out, .diag]
  | .idcode => [.out, .diag]
  | .samplePreload => [.diag]
  | .extest => StatePart.allBut [.freeCtr]
  | .extestPulse => StatePart.allBut [.freeCtr]
  | .extestTrain => StatePart.allBut [.freeCtr]
  | .clamp => StatePart.allBut [.freeCtr]
  | .highz => StatePart.allBut [.freeCtr]
  | .testUnlock _ => [.regs, .diag]
  | .buttonPress _ _ => [.fld]
  | .sapFrame _ _ => [.regs, .out, .sap, .flt, .diag]
  | .ref10mInEdge => [.regs, .isb, .fld, .pair]
  | .ptpDelayReqInterval => [.regs, .out, .freeCtr, .isb, .pkt, .trf, .dma]
  | .ptpAnnounceInterval => [.regs, .out, .freeCtr, .isb, .pkt, .trf, .dma]
  | .replayDone _ _ => StatePart.allBut [.sea, .flt]
  | .pcieLinkUp => [.regs, .flt]
  | .mgmtLinkChange _ => [.regs]
  | .lanokCrcFailure _ _ => [.regs, .out, .isb, .fld]
  | .fieldSupplyLoss => [.regs, .out, .isb, .fld, .flt]
  | .vddIoRise => [.out, .pwr, .boot]
  | .vddIoRemoved => StatePart.allBut [.freeCtr]
  | .rstNLow => StatePart.allBut [.freeCtr]

end Sys2Proof.Machine
end

