-- ==== Sys2Proof/Safety.lean ====
section
/-! DEFINITION. What a state in good order is, in the terms the statements use. -/
namespace Sys2Proof.Machine

/-- The register store in its canonical form: keys strictly rising, no value equal to its default, every value within the
width of its type (Table DIC-1). -/
def regsWf (t : Tab Nat) : Bool :=
  tabSorted t && t.all (fun e => decide (e.2 ≠ regDefault e.1) && decide (e.2 < regModulus e.1))

/-- The hub memory in its canonical form: addresses strictly rising, no octet equal to what an unlisted one reads as. -/
def Memory.wf (s : State) : Bool :=
  tabSorted s.mem.cells && s.mem.cells.all (fun e => decide (e.2 ≠ memDefault s e.1))

/-- The claim table in its canonical form (R127): no resource has two owners, none is listed as free. -/
def claimsWf (t : Tab Nat) : Bool := tabWf 0 t

/-- A state in good order: registers, memory and claims in their canonical forms, at most 256 Storm records in the PD0
ring (R504), private test unlocked only with the RETURNED fuse blown (R509). -/
def State.inOrder (s : State) : Bool :=
  regsWf s.regs && Memory.wf s && claimsWf s.dic.claims && decide (s.diag.ring.length ≤ 256)
    && (!s.diag.unlocked || s.diag.fuse)

/-! ## A write of the dictionary on its way (R111–R118, R135) -/

/-- Nothing but the entry's own checks stands in the way of a write by an instance: its transport is open, it holds no group,
the hub serves it, the instance may write, the journal has room, the request is no repeat of work accepted, and it takes
effect in this step (no earlier entry waits, no copy by the peer is needed). -/
def unhindered (i : Inst) (tag index sub : Nat) (value : Bytes) (s : State) : Bool :=
  tpOpen s i.tr && (groupOf (touch i s) i).isEmpty && !unserved i index sub true (touch i s)
    && decide (writeGate i index sub value.length (touch i s) = .ok)
    && (repeated (.dictWrite i tag index sub value) i tag 2 index sub (touch i s)).isNone && !defers (touch i s)

/-- A command takes effect with its journal entry and is answered with `st`. -/
def cmdTakes (i : Inst) (tag index sub : Nat) (value : Bytes) (st : Status) (f : State → State) (s : State) : State :=
  cmdEnd i tag index sub st (f (acceptNow i tag index sub value (touch i s)))

/-- A key takes its value: the effect of the write, its journal entry, its wait for the flash, its answer OK. -/
def keyTakes (i : Inst) (tag index sub : Nat) (value : Bytes) (f : State → State) (s : State) : State :=
  respond i tag 2 index sub .ok [] (acceptWrite i tag (key index sub 0) value f (touch i s))

/-- The same of a leg's control transaction (R289): its TXN is above the leg's last, it is work of class 5. -/
def legUnhindered (i : Inst) (tag leg txn op slot max source : Nat) (s : State) : Bool :=
  tpOpen s i.tr && (groupOf (touch i s) i).isEmpty && decide (leg < 20480) && decide (rd s (K.LAST_TXN leg) < txn)
    && !unserved i (0x8000 + leg) 0x0C true (touch i s) && decide (writeGate i (0x8000 + leg) 0x0C 16 (touch i s) = .ok)
    && (repeated (.legCtrl i tag leg txn op (legBody txn op slot max source)) i tag 2 (0x8000 + leg) 0x0C (touch i s)).isNone
    && !defers (touch i s)

/-- A transaction takes effect: its entry, LAST_TXN, its effect, its answer OK. -/
def legTakes (i : Inst) (tag leg txn op slot max source : Nat) (f : State → State) (s : State) : State :=
  cmdEnd i tag (0x8000 + leg) 0x0C .ok (f (wr (K.LAST_TXN leg) txn
    (acceptAs 5 16 (.legCtrl i tag leg txn op (legBody txn op slot max source)) (touch i s))))

/-! ## An instruction of a running kernel (R164–R172) -/

/-- An engine issues the word `w` in its active bank `b` (bank 1 where `tick`). -/
def issuing (s : State) (me : Nat) (tick : Bool) (b : Bank) (w : Nat) : Bool :=
  decide (activeBank s me = some (tick, b)) && b.stall.isNone && decide (fetchWord s b.kernel b.pc = some w)

/-- A compute operation of a PAR instruction may issue: its word's format and operation, no fault of a move slot. -/
def issuingPar (s : State) (me : Nat) (tick : Bool) (b : Bank) (w op : Nat) : Bool :=
  issuing s me tick b w && wFmt w == 0 && wOp w == op && (parFault s tick b w).isNone

/-- A control instruction may issue. -/
def issuingCtl (s : State) (me : Nat) (tick : Bool) (b : Bank) (w op : Nat) : Bool :=
  issuing s me tick b w && wFmt w == 1 && wOp w == op

/-- The engine and the bank once both move slots of the word have acted. -/
def moved (s : State) (me : Nat) (b : Bank) (w : Nat) : Me × Bank :=
  let r := doSlotOnce false (wSlot w false) (meOf s me) b
  doSlotOnce true (wSlot w true) r.1 r.2

/-- A PAR instruction has issued with the writes `ws` of latency `lat`. -/
def parIssued (me : Nat) (tick : Bool) (b : Bank) (w lat : Nat) (ws : List RegWrite) (s : State) : State :=
  setBank me tick (advance (issue lat ws (moved s me b w).2)) (meUpd me (fun _ => (moved s me b w).1) s)

/-- A control instruction has issued with writes of latency 1. -/
def ctlIssued (me : Nat) (tick : Bool) (b : Bank) (ws : List RegWrite) (s : State) : State :=
  setBank me tick (advance (issue 1 ws b)) s

/-! ## The pair link (R452, R456) -/

/-- A message of the peer is heard: it is received, a hub that is not ACTIVE takes its higher EPOCH, the peer is confirmed. -/
def pairHears (reliable : Bool) (h : PHdr) (s : State) : Option State :=
  let r := pairRecv reliable h s
  if r.1 then some (peerConfirm (if rd r.2 K.EPOCH < h.epoch ∧ rd r.2 K.ROLE ≠ 1 then wr K.EPOCH h.epoch r.2 else r.2))
  else none

end Sys2Proof.Machine
end

