-- ==== Sys2Proof/Certificates/Slice0/Obligations.lean ====
section
/-! DEFINITION. The statements for the provers. -/
open Sys2Proof Sys2Proof.Machine

/-- For every command c, every state s and every rest of the queue: one step of s with c at the front of its queue is exec
c of s with the queue's rest. The statements about single commands reach a run through this one. -/
def Obligations.StepRunsTheFrontCommand : Prop :=
  ∀ (c : Instr) (rest : List Instr) (s : State),
    step { s with pending := c :: rest } = exec c { s with pending := rest }

/-- With an empty queue a step answers the same state. The spec gives the block no tick of its own in its command table,
so this is the model's choice, log entry 1. -/
def Obligations.EmptyQueueIdles : Prop :=
  ∀ s : State, s.pending = [] → step s = .next s

/-- Whatever the command and the state, exec answers a next state, never a fault and never a refusal: errors the spec
describes are results. The waiting commands are the same, the record of what has left the block only grows at its
front, and the counter of free values drawn never goes back (it is the model's own field, log entry 2). -/
def Obligations.EveryCommandCompletes : Prop :=
  ∀ (c : Instr) (s : State), ∃ t, exec c s = .next t ∧ t.pending = s.pending ∧ s.out <:+ t.out ∧ s.freeCtr ≤ t.freeCtr

/-- From any state with the commands cs in front of a queue q, as many steps as cs has commands answer a next state whose
queue is exactly q and in which everything that had left the block is still on record. Log entry 1 says that the queue
is the model's form of commands waiting. -/
def Obligations.QueueIsServedInOrder : Prop :=
  ∀ (cs q : List Instr) (s : State), ∃ t,
    Sys2Proof.core.run cs.length { s with pending := cs ++ q } = .next t ∧ t.pending = q ∧ s.out <:+ t.out

/-- At reset the register store, the hub memory and the claim table are in their canonical forms, the Storm ring holds at
most 256 records and the private test modes are locked. -/
def Obligations.ResetIsInOrder : Prop :=
  State.reset.inOrder = true

/-- For every state in good order and whatever command is at the front of its queue, the state a step answers is in good
order: dictionary values stay within the width of their type (Table DIC-1) and unwritten keys at their defaults, the
hub memory and the claim table (R127, no resource with two owners) keep their canonical forms, the Storm ring keeps at
most its 256 records (R504), and the private test modes are open only in a part whose RETURNED fuse is blown (R509). -/
def Obligations.StepsKeepGoodOrder : Prop :=
  ∀ s t : State, s.inOrder = true → step s = .next t → t.inOrder = true

/-- For every command c, if it answers a next state then every part of the state that touches c does not list is the same
in both states: a unit's queues, buffers, banks and counters, the dictionary values, the octets of the hub memory, the
claim table, what has left the block. The table is the model's own reading of which units a command reaches (log entry
136). -/
def Obligations.CommandsTouchOnlyTheirParts : Prop :=
  ∀ (c : Instr) (s t : State), exec c s = .next t → ∀ p : StatePart, p ∉ touches c → p.same s t

/-- For every command that does not list the octets of the hub memory among its parts, every read of the hub memory, at
every address and of every length, gives afterwards what it gave before. -/
def Obligations.HubMemoryFrame : Prop :=
  ∀ (c : Instr) (s t : State), exec c s = .next t → StatePart.octets ∉ touches c →
    ∀ a n : Nat, memRead t a n = memRead s a n

/-- In a run of any length from any state, a RETURNED fuse that is blown at the start is blown at the end: R509 says that
the fuse cannot be cleared. -/
def Obligations.FuseStaysBlown : Prop :=
  ∀ (n : Nat) (s t : State), s.diag.fuse = true → Sys2Proof.core.run n s = .next t → t.diag.fuse = true

/-- In a state whose register store is in its canonical form, a key written reads back the value within the number of
values of its type (Table DIC-1), every other key reads as before, and nothing but the store is changed. -/
def Obligations.DictionaryValuesReadBack : Prop :=
  ∀ (s : State) (k v : Nat), regsWf s.regs = true →
    rd (wr k v s) k = v % regModulus k ∧ (∀ k', k' ≠ k → rd (wr k v s) k' = rd s k')
      ∧ ∀ p : StatePart, p ≠ .regs → p.same s (wr k v s)

/-- In a state whose hub memory is in its canonical form, the octets b written from an address read back as b, every octet
outside them reads as before, and no other part of the state changes. -/
def Obligations.HubMemoryReadsBack : Prop :=
  ∀ (s : State) (addr : Nat) (b : Bytes), Memory.wf s = true →
    memRead (memWrite addr b s) addr b.length = b
      ∧ (∀ a, a < addr ∨ addr + b.length ≤ a → memRead (memWrite addr b s) a 1 = memRead s a 1)
      ∧ ∀ p : StatePart, p ≠ .mem → p ≠ .octets → p.same s (memWrite addr b s)

/-- R127's claim table: a claim of a resource by an owner is granted exactly when the resource is free or the owner's
already; granted, the resource is the owner's and every other resource keeps its owner; refused, nothing is claimed.
The table is in its canonical form. -/
def Obligations.ClaimsAreExclusive : Prop :=
  ∀ (s : State) (cls inst owner : Nat), claimsWf s.dic.claims = true →
    (∀ t, claim cls inst owner s = some t → (claimOwner s cls inst = 0 ∨ claimOwner s cls inst = owner)
      ∧ claimOwner t cls inst = owner
      ∧ ∀ c i, resource c i ≠ resource cls inst → claimOwner t c i = claimOwner s c i)
    ∧ (claim cls inst owner s = none ↔ claimOwner s cls inst ≠ 0 ∧ claimOwner s cls inst ≠ owner)

/-- ISOBAR_FINE_TICK with the counter running (T0 of Table BOOT-3 passed), not in LIMP and not in CALM, FROST or WAKING,
takes the count to the next whole multiple of A000h units of 2^-16 ns, from a boundary exactly A000h further; the
running times beside it grow by as much and nothing else changes. A whole second is such a boundary. -/
def Obligations.IsobarCounts : Prop :=
  (∀ (s : State) (n : Instant), 1 ≤ s.boot.step → rd s K.ISB_STATE ≠ 3 →
    rd s K.HUB_PSTATE ≠ 2 → rd s K.HUB_PSTATE ≠ 3 → rd s K.HUB_PSTATE ≠ 4 → n = (s.isb.now / 0xA000 + 1) * 0xA000 →
    exec .isobarFineTick s = .next { s with
      isb.now := n, isb.elapsed := s.isb.elapsed + (n - s.isb.now), fld.elapsed := s.fld.elapsed + (n - s.isb.now) })
  ∧ (∀ s t : State, 1 ≤ s.boot.step → rd s K.ISB_STATE ≠ 3 →
    rd s K.HUB_PSTATE ≠ 2 → rd s K.HUB_PSTATE ≠ 3 → rd s K.HUB_PSTATE ≠ 4 → s.isb.now % 0xA000 = 0 →
    exec .isobarFineTick s = .next t → t.isb.now = s.isb.now + 0xA000 ∧ t.isb.now % 0xA000 = 0)
  ∧ ∀ n : Nat, n * s1 % 0xA000 = 0

/-- ISOBAR_FINE_TICK in LIMP takes the count to the next multiple of 2.5 ns, in CALM, FROST or WAKING and not LIMP to the
next multiple of 40 ns of the board oscillator, and before T0 of Table BOOT-3 leaves the hub's count and moves the
follower's difference by one fine tick. NOW_LO_READ answers the low 32 bits of the whole nanoseconds and latches
NOW_HI and NOW_FRAC for the function. SLEW_END with under 1 ns left of a slew stops it; SLEW_REMAINING then reads 0. -/
def Obligations.IsobarOtherClocks : Prop :=
  (∀ (s : State) (n : Instant), 1 ≤ s.boot.step → rd s K.ISB_STATE = 3 → n = (s.isb.now / 163840 + 1) * 163840 →
    exec .isobarFineTick s = .next { s with
      isb.now := n, isb.elapsed := s.isb.elapsed + (n - s.isb.now), fld.elapsed := s.fld.elapsed + (n - s.isb.now) })
  ∧ (∀ (s : State) (n : Instant), 1 ≤ s.boot.step → rd s K.ISB_STATE ≠ 3 →
    rd s K.HUB_PSTATE = 2 ∨ rd s K.HUB_PSTATE = 3 ∨ rd s K.HUB_PSTATE = 4 → n = (s.isb.now / 2621440 + 1) * 2621440 →
    exec .isobarFineTick s = .next { s with
      isb.now := n, isb.elapsed := s.isb.elapsed + (n - s.isb.now), fld.elapsed := s.fld.elapsed + (n - s.isb.now) })
  ∧ (∀ s : State, s.boot.step = 0 → exec .isobarFineTick s = .next { s with
      fld.followerOffset := s.fld.followerOffset + 0xA000, fld.elapsed := s.fld.elapsed + 0xA000 })
  ∧ (∀ (fn : Nat) (s : State), exec (.nowLoRead fn) s = .next { s with
      out := .regRead fn 0 0x4000 (s.isb.now / 65536 % 4294967296) :: s.out
      isb.latchHi := tabSet 0 s.isb.latchHi fn (s.isb.now / 65536 / 4294967296 % 4294967296)
      isb.latchFrac := tabSet 0 s.isb.latchFrac fn (s.isb.now % 65536) })
  ∧ (∀ s : State, s.isb.slew = true → (slewLeft s).natAbs < 65536 → ∃ t, exec .slewEnd s = .next t
      ∧ t = { s with isb.slew := false, isb.slewFrom := 0 } ∧ slewRemaining t = 0)

/-- SOURCE_QUALIFY of a source that is qualifying or disqualified, present, not stopped, and clean for REQUAL_TIME seconds
makes it qualified (SRC_STATUS 2) with the offset measured, and the best source is then selected. SOURCE_STOP_TIMEOUT
of a source whose STOP condition holds disqualifies it for reason 1. PPS_IN_EDGE on the timing edge meeting no
condition of Table ISB-4 becomes the newest reference edge, numbers its second and disciplines EXT with its offset;
under 999 ms after the last one it is a GLITCH and disqualifies EXT for reason 2. REF10M_IN_EDGE with the input
enabled and no edge before is the first edge measured from. An edge of the wrong sense, and an input that is not
enabled, changes nothing. -/
def Obligations.IsobarSources : Prop :=
  (∀ (src : Fin 4) (off : Int) (s : State), rd s (K.SRC_STATUS src.val) = 1 ∨ rd s (K.SRC_STATUS src.val) = 3 →
    (sourceOf s src.val).stopped = false → (src.val ≠ 2 ∨ (rd s K.REF10M_EN = 1 ∧ rd s K.PPS_IN_EN = 1)) →
    (sourceOf s src.val).cleanSince + rd s K.REQUAL_TIME * s1 ≤ clk s →
    exec (.sourceQualify src off) s = .next (selectSource (wr (K.SRC_STATUS src.val) 2
      { s with isb.sources := tabMod {} s.isb.sources src.val (fun x => { x with offset := some off }) })))
  ∧ (∀ (src : Fin 4) (s : State), rd s (K.SRC_STATUS src.val) ≠ 0 → stopMet s src.val = true →
    exec (.sourceStopTimeout src) s
      = .next (disqualify src.val 1 (if src.val = 2 then { s with isb.ppsEdges := [], isb.ppsSecond := none } else s)))
  ∧ (∀ s : State, rd s K.PPS_IN_EN ≠ 0 → (∀ t ∈ s.isb.ppsEdges.head?, t + 999 * ms1 ≤ clk s) →
    exec (.ppsInEdge (rd s K.PPS_IN_EDGE == 0)) s = .next (ppsTiming { s with isb.ppsSeen := some (clk s) }))
  ∧ (∀ s u : State, ppsReason (clk s) s.isb.ppsEdges = none → u = { upd (rd s K.REF10M_EN == 1) (sourceSeen 2)
      { s with isb.todNext := none } with
        isb.ppsEdges := (clk s :: s.isb.ppsEdges).take 3
        isb.ppsSecond := (match s.isb.todNext with
          | some n => some n
          | none => s.isb.ppsSecond.map (· + ppsGap s * 1000000000)) } →
    ppsTiming s = discipline 2 (ppsOffset u) u)
  ∧ (∀ (s : State) (t : Nat) (l : List Nat), rd s K.PPS_IN_EN ≠ 0 → s.isb.ppsEdges = t :: l →
    clk s < t + 999 * ms1 →
    exec (.ppsInEdge (rd s K.PPS_IN_EDGE == 0)) s = .next (disqualify 2 2 { s with isb.ppsSeen := some (clk s) }))
  ∧ (∀ (s : State) (rising : Bool), rd s K.PPS_IN_EN = 0 ∨ rising ≠ (rd s K.PPS_IN_EDGE == 0) →
    exec (.ppsInEdge rising) s = .next s)
  ∧ (∀ s : State, rd s K.REF10M_EN ≠ 0 → rd s K.PPS_IN_EN ≠ 1 → s.isb.refLast = none →
    exec .ref10mInEdge s = .next { s with isb.refLast := some (clk s) })
  ∧ (∀ (s : State) (t : Nat), rd s K.REF10M_EN ≠ 0 → rd s K.PPS_IN_EN ≠ 1 → s.isb.refLast = some t →
    90 * ns1 ≤ clk s - t → clk s - t ≤ 110 * ns1 → s.isb.refSum + (clk s - t) < ms1 →
    exec .ref10mInEdge s = .next { s with isb.refLast := some (clk s)
                                          isb.refSum := s.isb.refSum + (clk s - t), isb.refCount := s.isb.refCount + 1 })

/-- A PTP message at the PTP port, domain and transport that the profile does not support is discarded and counted; a
Delay_Req at the grandmaster is answered with a Delay_Resp that carries its receive stamp. At its intervals the
grandmaster sends Sync and Announce; a slave that has had a Sync sends Delay_Req and remembers it; a Sync that leaves
is followed by its Follow_Up with the transmit stamp. Every message is a packet of system queue 9 (R275). Every 10 s
with the Lanok link up the hub sends TIME_ECHO and remembers when. How a stamp is rounded is the model's choice, log
entry 159. -/
def Obligations.PtpAndBarrier : Prop :=
  (∀ (m : PtpMsg) (s : State), m.port = rd s K.PTP_PORT → m.domain = rd s K.PTP_DOMAIN →
    m.transport = rd s K.PTP_TRANSPORT → m.kind = .other →
    exec (.ptpMessage m) s = .next (wr K.PTP_DISCARDS (rd s K.PTP_DISCARDS + 1) s))
  ∧ (∀ (m : PtpMsg) (s : State), m.port = rd s K.PTP_PORT → m.domain = rd s K.PTP_DOMAIN →
    m.transport = rd s K.PTP_TRANSPORT → m.kind = .delayReq → s.isb.ptp.isMaster = true →
    exec (.ptpMessage m) s = .next (ptpSend .delayResp (ptpStamp m.port s.isb.now) m.seqId m.sender s))
  ∧ (∀ (k : PtpKind) (time seq who : Nat) (s : State), ∃ x : Packet,
      x.content = .ptp k time seq who (ptpData s) ∧ x.arrival = s.isb.now
        ∧ ptpSend k time seq who s = (admitPacket (qSys 9) x s).2)
  ∧ (∀ s : State, ptpIsMaster s = true → intervalOver s K.LOG_SYNC s.isb.ptp.syncAt = true →
    exec .ptpSyncInterval s = .next (ptpSend .sync s.isb.now s.isb.ptp.txSeq 0 { s with
      isb.ptp.isMaster := true, isb.ptp.txSeq := (s.isb.ptp.txSeq + 1) % 65536, isb.ptp.syncAt := some (clk s) }))
  ∧ (∀ s : State, ptpIsMaster s = true → intervalOver s K.LOG_ANNOUNCE s.isb.ptp.annAt = true →
    exec .ptpAnnounceInterval s = .next (ptpSend .announce s.isb.now s.isb.ptp.annSeq 0 { s with
      isb.ptp.isMaster := true, isb.ptp.annSeq := (s.isb.ptp.annSeq + 1) % 65536, isb.ptp.annAt := some (clk s) }))
  ∧ (∀ s : State, ptpIsMaster s = false → s.isb.ptp.lastSync.isSome = true →
    intervalOver s K.LOG_DELAY_REQ s.isb.ptp.reqAt = true →
    exec .ptpDelayReqInterval s = .next (ptpSend .delayReq s.isb.now s.isb.ptp.reqSeq 0 { s with
      isb.ptp.delayReq := some (s.isb.ptp.reqSeq, s.isb.now)
      isb.ptp.reqSeq := (s.isb.ptp.reqSeq + 1) % 65536, isb.ptp.reqAt := some (clk s) }))
  ∧ (∀ (seq : Nat) (at_ : Instant) (s : State), ptpSent .sync seq at_ s = ptpSend .followUp at_ seq 0 s)
  ∧ (∀ s : State, lanokUp s = true → s.isb.barrierAt + 10 * s1 ≤ clk s →
    exec .barrierDelayMeasure s = .next { lanokSend true (.timeEcho s.isb.now 0) s with
      isb.echoSent := some s.isb.now, isb.barrierAt := clk s })

/-- PPS_OUT_EDGE at an instant t, a whole nanosecond with (t - offset) mod period = 0 that came with the last tick, the
output enabled and not gated by FREE or LIMP, raises the pin and sets when the pulse ends; PPS_OUT_PULSE_END at or
after that time lowers the pin. LX_PULSE_END of an enabled output at or after the end of one of its pulses drives
LX_IDLE and forgets the ends that have come. -/
def Obligations.PpsAndLxOutputs : Prop :=
  (∀ (n : Fin 2) (s : State) (t : Instant), rd s (K.PPS_EN n.val) = 1 →
    (rd s (K.PPS_GATING n.val) ≠ 1 ∨ (rd s K.ISB_STATE ≠ 0 ∧ rd s K.ISB_STATE ≠ 3)) →
    t = ppsInstant s n.val → t ≤ s.isb.now → s.isb.now < t + tickSpan s →
    exec (.ppsOutEdge n) s = .next { s with
      out := .pin (ppsName n.val) true :: s.out
      isb.ppsLevel := tabSet 0 s.isb.ppsLevel n.val 1
      isb.ppsEnd := tabSet 0 s.isb.ppsEnd n.val (clk s + rd s (K.PPS_WIDTH n.val) * ns1 - (s.isb.now - t)) })
  ∧ (∀ (n : Nat) (s : State), 0 < rd s (K.PPS_PERIOD n) → rd s (K.PPS_PERIOD n) ≤ nowNs s →
    ppsInstant s n % ns1 = 0 ∧ ppsInstant s n ≤ s.isb.now
      ∧ (((ppsInstant s n / ns1 : Nat) : Int) - rdI 32 s (K.PPS_OFFSET n)) % (rd s (K.PPS_PERIOD n) : Int) = 0)
  ∧ (∀ (n : Fin 2) (s : State), tabGet 0 s.isb.ppsEnd n.val ≠ 0 → tabGet 0 s.isb.ppsEnd n.val ≤ clk s →
    exec (.ppsOutPulseEnd n) s = .next { s with
      out := .pin (ppsName n.val) false :: s.out
      isb.ppsLevel := tabSet 0 s.isb.ppsLevel n.val 0, isb.ppsEnd := tabSet 0 s.isb.ppsEnd n.val 0 })
  ∧ (∀ (n : Fin 4) (s : State) (e : Instant), e ∈ tabGet [] s.isb.lxEnd n.val → e ≤ clk s → rd s (K.LX_EN n.val) = 1 →
    exec (.lxPulseEnd n) s = .next (emit (.pin (lxName n.val) (rd s (K.LX_IDLE n.val) == 1))
      (wr (K.LX_LEVEL n.val) (rd s (K.LX_IDLE n.val)) { s with
        isb.lxEnd := tabSet [] s.isb.lxEnd n.val ((tabGet [] s.isb.lxEnd n.val).filter (fun x => decide (clk s < x))) })))

/-- LAUNCH_ARM with ARM 1 on a slot that is not taken, with its record's checks and claims passing and room in the
journal, stores the record with what it claimed and writes its class 4 entry; with a failing check the slot is FAILED
with the reason. A window write of 4 aligned octets elsewhere than the arming word stores them in a slot that is not
taken and is discarded and counted in one that is. A cancel of an ARMED slot by BAR0 presents durable work. A slot at
its commit lead becomes COMMITTED (a LAYER_SWAP once its table checks). A launch whose domain is in LULL wakes it 100
ns before. -/
def Obligations.LaunchesAreArmedAndCommitted : Prop :=
  (∀ (n : Fin 1024) (word : Nat) (s u t : State) (a : Nat),
    bitOf word 24 = true → slotTaken s n.val = false → replaying s = false → s.pair.holding = false →
    launchCheck n.val (recOf (patch (launchOctets (launchOf s n.val)) 8 (leBytes 4 word)))
      (launchUpd n.val (fun l => { l with writes := l.writes + 1 })
        (setRecord n.val (recOf (patch (launchOctets (launchOf s n.val)) 8 (leBytes 4 word))) s)) = .ok u →
    jrnlWrite 4 3 0 0xFFFF 0 32 (workKey u (.launchArm n.val (recOf (patch (launchOctets (launchOf s n.val)) 8 (leBytes 4 word)))))
      (.launchArm n.val (recOf (patch (launchOctets (launchOf s n.val)) 8 (leBytes 4 word)))) u = (.written a, t) →
    exec (.launchArm n word) s = .next t)
  ∧ (∀ (n : Fin 1024) (off : Fin 32) (b : Bytes) (s : State), b.length = 4 → off.val % 4 = 0 → off.val ≠ 8 →
    slotTaken s n.val = false → exec (.launchWindowWrite n off b) s
      = .next (setRecord n.val (recOf (patch (launchOctets (launchOf s n.val)) off.val b)) s))
  ∧ (∀ (n : Fin 1024) (off : Fin 32) (b : Bytes) (s : State), b.length = 4 → off.val % 4 = 0 → off.val ≠ 8 →
    slotTaken s n.val = true → exec (.launchWindowWrite n off b) s
      = .next (wr K.LAUNCH_WRITES_REFUSED (rd s K.LAUNCH_WRITES_REFUSED + 1) s))
  ∧ (∀ (n : Fin 1024) (tag : Nat) (s : State), (launchOf s n.val).state = lsArmed →
    exec (.launchCancel n none tag) s = .next (presentWork 3 0 (.launchCancel n.val)
      (launchUpd n.val (fun l => { l with writes := l.writes + 1 }) s)))
  ∧ (∀ (num : Nat) (s : State), (launchOf s num).state = lsArmed → (launchOf s num).typ ≠ ltLayerSwap →
    (launchOf s num).time * ns1 ≤ s.isb.now + commitLead (launchOf s num).typ →
    exec (.launchCommit num) s = .next (launchUpd num (fun l => { l with state := lsCommitted }) s))
  ∧ (∀ (num d : Nat) (s : State), (launchOf s num).active = true → hubPower s ≠ hpCalm → hubPower s ≠ hpFrost →
    d = launchDomain (launchOf s num).typ → d ≠ 0 → d ≠ 19 → pdState s d = pdLull →
    (launchOf s num).instant ≤ s.isb.now + 100 * ns1 →
    exec (.launchWakeLead num) s = .next (leaveLull d s))

/-- XP_SWAP, EQ_SWAP, SRC_SWITCH, SAP_GROUP and LX_EDGE act on the launch of their type that applies first at a boundary
of its grain (lowest number, R54), when its target is not gone (its domain FAILED, its port retired, R55) and its
domain runs: the bank swaps, the table's sources switch (a disabled leg's entry is counted skipped), the group starts
or stops, the pin is set, cleared, toggled or pulsed; the launch then records FIRED, or LATE after its boundary, and
frees its claims. GATE_TAKEOVER finds its change time C and is PENDING. A launch whose target is gone records FAILED.
LAYER_SWAP acts at its output's picture boundary. -/
def Obligations.HubLaunchesFire : Prop :=
  (∀ (n : Nat) (l : Launch) (s : State), dueLaunch s ltXpSwap (fun _ => true) = some (n, l) → hubTargetGone s l = false →
    domainRuns s 13 = true → exec .xpSwap s = .next (launchDone n (isLate (xpSwap s) l) (xpSwap s)))
  ∧ (∀ (n : Nat) (l : Launch) (s : State), dueLaunch s ltEqSwap (fun _ => true) = some (n, l) → hubTargetGone s l = false →
    domainRuns s 13 = true →
    exec .eqSwap s = .next (launchDone n (isLate (eqSwap l.target s) l) (eqSwap l.target s)))
  ∧ (∀ (n : Nat) (l : Launch) (s u : State), dueLaunch s ltSrcSwitch (fun _ => true) = some (n, l) →
    hubTargetGone s l = false → domainRuns s 10 = true →
    u = (switchEntries (rdBlob s (key 0x8000 (0xC0 + l.target) 0))).foldl (fun s e =>
      if legUp s e.1 then setSource e.1 e.2.1 e.2.2 s else wr K.SWITCH_SKIPPED (rd s K.SWITCH_SKIPPED + 1) s) s →
    exec .srcSwitch s = .next (launchDone n (isLate u l) u))
  ∧ (∀ (n : Nat) (l : Launch) (s u : State), dueLaunch s ltSapGroup (fun _ => true) = some (n, l) →
    hubTargetGone s l = false → domainRuns s 13 = true →
    u = (if l.arg = 0 then groupStart l.target s else groupStop l.target s) →
    exec .sapGroup s = .next (launchDone n (isLate u l) u))
  ∧ (∀ (n : Nat) (l : Launch) (s : State), dueLaunch s ltXpSwap (fun _ => true) = some (n, l) → hubTargetGone s l = true →
    exec .xpSwap s = .next (launchFailed n .retired s))
  ∧ (∀ (n : Nat) (l : Launch) (s : State), dueLaunch s ltLxEdge (fun _ => true) = some (n, l) → l.period = 0 →
    l.arg % 4 = 0 → exec .lxEdge s = .next (launchDone n (isLate s l) (lxDrive l.target 1
      { s with isb.lxActed := tabSet 0 s.isb.lxActed l.target 1 })))
  ∧ (∀ (n : Nat) (l : Launch) (s : State) (c : Nat),
    dueLaunch s ltGateTakeover (fun l => (txPort s l.target).takeover.isNone) = some (n, l) →
    hubTargetGone s l = false → domainRuns s 10 = true → c = changeTime s l.target (nowNs s) →
    exec .gateTakeover s = .next (wr (K.CHANGE_TIME l.target) c (wr (K.GATE_STATE l.target) 2
      (launchUpd n (fun x => { x with state := lsCommitted, late := isLate s x })
        (txPortUpd l.target (fun x => { x with takeover := some { slot := n, tl := nowNs s, c := c } }) s)))))

/-- A node action (OFF, ON, LED, SLOT_ASSIGN, SLOT_RELEASE, SELECT_CHANNEL, GAIN) runs the launch of its kind that its
node holds and that applies first: the action's effect and the node's completion, or FAILED with the action's status.
FIELD_MAP_SWAP swaps the bank of each trunk it names and reports each. LAUNCH_CMD received at the field die holds the
launch or drops a cancelled one; LAUNCH_REPORT received at a hub that serves it is recorded. VOTE_OPEN, with no launch
to fail it, opens its session once at the hub and at the nodes; VOTE_CLOSE of an open session closes it; 10 ms after
the close VOTE_SEAL writes its class 6 entry. -/
def Obligations.FieldLaunchesRun : Prop :=
  (∀ (a node num : Nat) (h : HeldLaunch) (s u : State) (c : Instr),
    (a, c) ∈ [(0, .nodeActionOff node), (1, .nodeActionOn node), (2, .nodeActionLed node), (3, .slotAssign node),
      (4, .slotRelease node), (5, .selectChannel node), (6, .nodeActionGain node)] →
    dueHeld s ltNodeAction (nodeNow s node) (fun m h => naAction h.lr.arg == a && h.waiting.contains node
      && ((nodeOf s node).launches.contains m || !nodeServed s node)) = some (num, h) →
    nodeServed s node = true →
    nodeAction node h.lr.arg (if num < 0x400 then ownSlot num else launchOwner num (launchOf s num)) s = .ok u →
    exec c s = .next ((if a = 0 ∨ a = 4 then hdFreed else id)
      (emptyActions a (nodeRan num node (heldLate s (nodeNow s node) h) u))))
  ∧ (∀ (num : Nat) (h : HeldLaunch) (s : State),
    dueLaunch s ltFieldMapSwap (fun l => l.unreported.isEmpty && l.target == 0xFFFF && true) = none →
    dueHeld s ltFieldMapSwap (fieldNow s) (fun _ _ => true) = some (num, h) →
    (∀ t ∈ h.trunks, isRetired s cTrunk t = false ∧ rd s (K.TRUNK_STATE t) ≠ 0) →
    exec .fieldMapSwap s = .next (setHeld num none (h.trunks.foldl (fun s t =>
      report num t (if heldLate s (fieldNow s) h then lsLate else lsFired) 0 0
        (if isRetired s cTrunk t then s else mapSwap (h.lr.arg % 2) t s)) s)))
  ∧ (∀ (hd : LHdr) (num : Nat) (r : LaunchRec) (s u : State), lanokRecv false true hd s = (true, u) →
    exec (.launchCmd hd num (some r)) s = .next (holdLaunch num r u) ∧
    exec (.launchCmd hd num none) s = .next (cancelHeld num u))
  ∧ (∀ (hd : LHdr) (num k st late reason : Nat) (s u : State), lanokRecv true true hd s = (true, u) →
    relaying u = false → rd u K.ROLE ≠ 2 →
    exec (.launchReport hd num k st late reason) s = .next (hubReport num k st late reason u))
  ∧ (∀ (num : Nat) (r : LaunchRec) (s u : State), rd s K.ROLE ≠ 3 → dueVote s ltVoteOpen = some (num, r) →
    (∀ v ∈ List.range 16, v ≠ r.target → rd s (K.VOTE_STATE v) ≠ 1 ∧ rd s (K.VOTE_STATE v) ≠ 2) →
    voteAtHub num none (openSession r.target r.arg) s = (true, u) →
    exec .voteOpen s = .next (runAtNodes num (nodeOpens r.target r.arg) u))
  ∧ (∀ (num : Nat) (r : LaunchRec) (s u : State), rd s K.ROLE ≠ 3 → dueVote s ltVoteClose = some (num, r) →
    rd s (K.VOTE_STATE r.target) = 1 →
    voteAtHub num none (fun z => wr (K.VOTE_STATE r.target) 2
      (voteUpd r.target (fun v => { v with closeAt := z.isb.now }) z)) s = (true, u) →
    exec .voteClose s = .next (runAtNodes num (fun n s => nodeUpd n (fun x =>
      { x with vote := x.vote.filter (fun v => v.session != r.target) }) s) u))
  ∧ (∀ (v : Fin 16) (s u : State) (n : Nat), rd s (K.VOTE_STATE v.val) = 2 →
    (voteOf s v.val).closeAt + 10 * ms1 ≤ s.isb.now → replaying s = false → s.pair.holding = false →
    jrnlWrite 6 3 0 0xFFFF 0 24 (some ((voteOf s v.val).openAt * 16 + v.val + 1))
      (.voteSeal v.val (voteOf s v.val).openAt) s = (.written n, u) →
    exec (.voteSeal v) s = .next u)

/-- FRST_N low and the loss of a field supply clear what the field die holds and leave it in RESET; FIELD_START leaves it
in DEFAULT, its trunks with RESYNC, its power sequence at the first port; FIELD_WAKE from CALM gives DEFAULT, or HUB
when the hub's mix runs over a link that is up. POWER_SEQUENCE_STEP, 50 ms after the last, enables the next port whose
PWR_EN is 1. A port within its limit at the end of its soft start is ON and its trunk starts. A current that trips a
port turns its gate off and counts the trip: TRIPPED, and RETIRED at the sixth within 60 s; 1 s after a trip the port
is enabled again. -/
def Obligations.FieldDieStartsAndPowersTrunks : Prop :=
  (∀ s : State, exec .fieldReset s = .next { fieldClear s with fld.frstHigh := false })
  ∧ (∀ s : State, exec .fieldSupplyLoss s = .next { fieldClear s with fld.powered := false })
  ∧ (∀ s u : State, u = fieldClear s → exec .fieldStart s
      = .next (setFieldState fsDefault (wr K.LANOK_STATE 1 { u with
          fld.frstHigh := true, fld.powered := true, fld.powerStep := 0, fld.powerAt := fieldClk u
          fld.trunks := (List.range 8).map (fun t => (t, { trunkOf u t with resync := true })) })))
  ∧ (∀ s : State, fieldState s = fsCalm →
      exec .fieldWake s = .next (setFieldState (if s.fld.hubMix && lanokUp s then fsHub else fsDefault) s))
  ∧ (∀ s : State, s.fld.powerStep < 16 → fieldState s ≠ fsReset →
      (s.fld.powerStep = 0 ∨ s.fld.powerAt + 50 * ms1 ≤ fieldClk s) →
      rdF s (K.PWR_EN (s.fld.powerStep / 2) (s.fld.powerStep % 2)) = 1 →
      exec .powerSequenceStep s = .next (portEnable (s.fld.powerStep / 2) (s.fld.powerStep % 2)
        { s with fld.powerStep := s.fld.powerStep + 1, fld.powerAt := fieldClk s }))
  ∧ (∀ (k : Fin 8) (p : Fin 2) (s : State), rdF s (K.PWR_EN k.val p.val) = 1 →
      exec (.trunkPortEnable k p) s = .next (portEnable k.val p.val s))
  ∧ (∀ (k : Fin 8) (p : Fin 2) (c : Nat) (s : State), rd s (K.PWR_STATE k.val p.val) = ppSoft →
      (portOf s k.val p.val).onAt + rdF s (K.PWR_SOFT k.val p.val) * ms1 ≤ fieldClk s →
      c ≤ rdF (wr (K.PWR_CURRENT k.val p.val) c s) (K.PWR_LIMIT k.val p.val) →
      exec (.softStartEnd k p c) s
        = .next (trunkStart k.val (wr (K.PWR_STATE k.val p.val) ppOn (wr (K.PWR_CURRENT k.val p.val) c s))))
  ∧ (∀ (k : Fin 8) (p : Fin 2) (c : Nat) (s : State) (l : List Nat), tripMet s k.val p.val c = true →
      l = fieldClk s :: (portOf s k.val p.val).trips.filter (fun i => decide (fieldClk s < i + 60 * s1)) →
      exec (.overcurrentTrip k p c) s = .next (emit (.pin (gateName k.val p.val) false)
        (wr (K.PWR_STATE k.val p.val) (if 6 ≤ l.length then ppRetired else ppTripped)
          (bump (K.PWR_TRIPS k.val p.val) (wr (K.PWR_CURRENT k.val p.val) c
            (portUpd k.val p.val (fun x => { x with trips := l, onAt := fieldClk s }) s))))))
  ∧ (∀ (k : Fin 8) (p : Fin 2) (s : State), rd s (K.PWR_STATE k.val p.val) = ppTripped →
      (portOf s k.val p.val).onAt + s1 ≤ fieldClk s →
      exec (.tripRetry k p) s = .next (portEnable k.val p.val s))

/-- A message received in order acts on the state its reception leaves. At a hub that serves its own field die a node
event and a clear go on to the hub's rules; NODE_ACK makes a node ACKED; HEARTBEAT restarts the loss count; TIME_XFER
makes the follower lock; AUDIO_UP is kept by a hub that is awake; AUDIO_DOWN is what the next frames carry. A pending
event is sent again 10 ms after its last send. Eight missed heartbeats are FIELD_LOST, with its summary bit and every
trunk read as absent, or HUB_LOST, counted, with the hall in the field die's hands from the next frame. -/
def Obligations.LanokMessagesAct : Prop :=
  (∀ (hd : LHdr) (node code ft : Nat) (s u : State), lanokRecv true true hd s = (true, u) → relaying u = false →
    rd u K.ROLE ≠ 2 → exec (.nodeEvent hd node code ft) s = .next (hubNodeEvent node code ft u))
  ∧ (∀ (hd : LHdr) (node : Nat) (s u : State), lanokRecv true true hd s = (true, u) → relaying u = false →
    rd u K.ROLE ≠ 2 → exec (.nodeClear hd node) s = .next (hubNodeClear node u))
  ∧ (∀ (hd : LHdr) (node : Nat) (s u : State), lanokRecv false true hd s = (true, u) →
    exec (.nodeAck hd node) s = .next (nodeUpd node (fun x => { x with hs := 2, ackBit := true, deferred := false }) u))
  ∧ (∀ (hd : LHdr) (mode field role epoch : Nat) (s u : State), lanokRecv true false hd s = (true, u) →
    exec (.heartbeat true hd mode field role epoch) s = .next (endUpd true (fun e => { e with beat := true, missed := 0 }) u))
  ∧ (∀ (hd : LHdr) (a b c : Nat) (f : Int) (s u : State), lanokRecv false false hd s = (true, u) →
    exec (.timeXfer hd a b c f) s = .next (follow (a * ns1 + b) u))
  ∧ (∀ (hd : LHdr) (sent hold : Nat) (s u : State), lanokRecv true false hd s = (true, u) → u.isb.echoSent = some sent →
    exec (.timeEcho true hd sent hold) s
      = .next (wr K.BARRIER_DELAY (((u.isb.now - sent) * 1000 / ns1 - hold) / 2) { u with isb.echoSent := none }))
  ∧ (∀ (hd : LHdr) (k : Fin 8) (b : Fin 4) (ft valid : Nat) (x : List (List Int)) (s u : State),
    lanokRecv true false hd s = (true, u) → hubAsleep u = false → relaying u = false →
    exec (.audioUp hd k b ft valid x) s = .next (takeBlock true k.val b.val valid x u))
  ∧ (∀ (hd : LHdr) (ft : Nat) (x : List (List Int)) (s u : State), lanokRecv false false hd s = (true, u) →
    exec (.audioDown hd ft x) s = .next { u with fld.down := x })
  ∧ (∀ (node : Nat) (s : State), (nodeOf s node).hs = 1 → (nodeOf s node).lastSeen ≠ 0 → s.fld.hubAsleep = false →
    (nodeOf s node).lastSend + 10 * ms1 ≤ fieldClk s →
    exec (.nodeEventResend node) s
      = .next (lanokSend false (.nodeEvent node (nodeOf s node).code ((nodeOf s node).frameTime / ns1))
          (nodeUpd node (fun x => { x with lastSend := fieldClk s }) s)))
  ∧ (∀ s : State, 8 ≤ s.fld.hubEnd.missed → s.fld.lost = false → modeOf s ≠ mBridge →
    exec .fieldLost s
      = .next (summary 4 true { (upd (lanokUp s) (fun s => hallAlone (lanokDown s)) s) with fld.lost := true }))
  ∧ (∀ (s : State) (t : Fin 8), s.fld.lost = true → lanokUp s = false →
    (readValue (K.TRUNK_STATE t.val) s).1 = [0])
  ∧ (∀ s : State, 8 ≤ s.fld.fieldEnd.missed → s.fld.hubSeen = true ∨ lanokUp s = true →
    exec .hubLost s = .next
      (hallAlone (bump K.HUB_LOST (upd (lanokUp s) lanokDown { s with fld.hubSeen := false, fld.hubAsleep := false }))))
  ∧ (∀ s : State, s.fld.hubMix = true →
    fieldState (hdAdopt (startMixFade false (ceilTo framePeriod (fieldNow s)) s)) = fsHub →
    hallAlone s = setFieldState fsDefault (hdAdopt (startMixFade false (ceilTo framePeriod (fieldNow s)) s)))

/-- Unacknowledged messages 20 µs old are re-sent in order and counted; after 8 re-sends of one, or 16 bad CRCs in a row,
the link is down and the field die runs the hall. A foreign message is counted apart. LANOK_LINK_START starts the
link. WAKE for an emergency or a chair's priority, POWER and dictionary traffic act on the state their reception
leaves. HALL_HANDOVER to the field die's mix reports, fades and adopts the hall's microphones. A closing microphone's
end frees its place. A button press joins the node's queue: at its end, priority at its head; a full queue drops it
and notes the overflow. -/
def Obligations.LanokLinkLives : Prop :=
  (∀ (hub : Bool) (u : Unacked) (l : List Unacked) (s : State), (endOf hub s).unacked = u :: l → lanokUp s = true →
    u.at_ + 20 * us1 ≤ clk s → (u :: l).any (fun u => decide (8 ≤ u.tries)) = true → lanokUp (lanokDown s) = false →
    exec (.lanokResend hub) s = .next (hallAlone (lanokDown s)))
  ∧ (∀ (hub : Bool) (u : Unacked) (l : List Unacked) (s v : State), (endOf hub s).unacked = u :: l → lanokUp s = true →
    u.at_ + 20 * us1 ≤ clk s → (u :: l).any (fun u => decide (8 ≤ u.tries)) = false →
    v = (u :: l).foldl (fun x w => lanokEmit hub w.seq (endOf hub s).rxSeq w.msg (bump (K.LANOK_COUNTS 1) x)) s →
    lanokUp (endUpd hub (fun e => { e with
      unacked := e.unacked.map (fun w => { w with tries := w.tries + 1, at_ := clk v }) }) v) = true →
    exec (.lanokResend hub) s = .next (endUpd hub (fun e => { e with
      unacked := e.unacked.map (fun w => { w with tries := w.tries + 1, at_ := clk v }) }) v))
  ∧ (∀ (hub : Bool) (q a : Nat) (m : LMsg) (s : State), lanokEmit hub q a m s
      = emit (.lanokOctets hub (lanokFrame q a m)) (emit (.lanok hub q a m) s))
  ∧ (∀ (hub : Bool) (s u : State), lanokUp s = true →
    u = bump (K.LANOK_COUNTS 0) (endUpd hub (fun e => { e with crcRun := e.crcRun + 1 }) s) →
    (endOf hub u).crcRun < 16 → lanokUp u = true → exec (.lanokCrcFailure hub false) s = .next u)
  ∧ (∀ (hub : Bool) (s u : State), lanokUp s = true →
    u = bump (K.LANOK_COUNTS 0) (endUpd hub (fun e => { e with crcRun := e.crcRun + 1 }) s) →
    16 ≤ (endOf hub u).crcRun → lanokUp (lanokDown u) = false →
    exec (.lanokCrcFailure hub false) s = .next (hallAlone (lanokDown u)))
  ∧ (∀ (hub : Bool) (s u : State), lanokUp s = true →
    u = bump (K.LANOK_COUNTS 3) (endUpd hub (fun e => { e with crcRun := 0 }) s) → lanokUp u = true →
    exec (.lanokCrcFailure hub true) s = .next u)
  ∧ (∀ (off : Int) (s u : State), lanokUp s = false → fieldState s ≠ fsReset → isbRuns s = true →
    u = linkStart off s → exec (.lanokLinkStart off) s = .next (transitionCheck u))
  ∧ (∀ (hd : LHdr) (source data at_ : Nat) (s u : State), lanokRecv true true hd s = (true, u) →
    source = 2 ∨ source = 3 → exec (.wake hd source data at_) s = .next (privileged source data (at_ * ns1) u))
  ∧ (∀ (hd : LHdr) (data at_ : Nat) (s u : State), lanokRecv true true hd s = (true, u) →
    exec (.wake hd 0x10 data at_) s = .next (wakeHub 0x10 u))
  ∧ (∀ (hub : Bool) (hd : LHdr) (kind arg : Nat) (s u : State), lanokRecv hub true hd s = (true, u) →
    exec (.power hub hd kind arg) s = .next (if hub then powerAtHub kind arg u else powerAtField kind u))
  ∧ (∀ (hd : LHdr) (i : Inst) (b : Bytes) (s u : State), lanokRecv true true hd s = (true, u) → i.tr ≠ 4 →
    exec (.dictReq hd i b) s = .next (serveEnvelope i b u))
  ∧ (∀ (hd : LHdr) (i : Inst) (b : Bytes) (s u : State), lanokRecv false true hd s = (true, u) → i.tr = 2 ∨ i.tr = 3 →
    exec (.dictRsp hd i b) s = .next (canSend (i.tr - 2) b u))
  ∧ (∀ (n : Nat) (h : HeldLaunch) (s u v : State), dueHeld s ltHallHandover (fieldNow s) (fun _ _ => true) = some (n, h) →
    h.lr.arg % 2 = 1 →
    u = setHeld n none (report n 0xFF (if heldLate s (fieldNow s) h then lsLate else lsFired) 0 0 s) →
    v = startMixFade false (fieldNow u) u → fieldState v ≠ fsCalm →
    (setFieldState fsDefault (hdAdopt v)).boot.transition = none →
    exec .hallHandover s = .next (setFieldState fsDefault (hdAdopt v)))
  ∧ (∀ (node : Nat) (s : State) (l : List Nat),
    l = s.fld.hd.closing.filter (fun m => m / 16 == node && hdClosed s m) → l ≠ [] →
    exec (.hdMicCloseEnd node) s = .next (hdFreed (l.foldl (fun s m =>
      slotClear node (m % 16) (hdUpd (fun h => { h with closing := h.closing.erase m }) s)) s)))
  ∧ (∀ (node : Nat) (code : Fin 16) (s : State), 1 ≤ code.val → mayRaise s node code.val = true →
    (nodeOf s node).queue.length < 16 →
    exec (.buttonPress node code) s = .next (lightKey node code.val (nodeUpd node (fun x => { x with
      queue := if code.val = evPriorityOn ∨ code.val = evPriorityOff then code.val :: x.queue else x.queue ++ [code.val] }) s)))
  ∧ (∀ (node : Nat) (code : Fin 16) (s : State), 1 ≤ code.val → mayRaise s node code.val = true →
    16 ≤ (nodeOf s node).queue.length →
    exec (.buttonPress node code) s = .next (nodeUpd node (fun x => { x with overflow := true }) s))

/-- At a frame boundary outside RESET the field die frames its trunks while it frames at all, ramps its floor mix and
sends its heartbeat; off the boundary nothing happens. A sleeping hub's frame tick sends its heartbeat alone. The
first returned frame pair of an enumerating trunk ends the enumeration. A hop that goes down on a running trunk is
listed; one good again leaves the list at a frame boundary. A debounced level acts through its pin's function. A CAN
frame wakes a field die in CALM; a partial request is dropped 100 ms after its last frame; after bus-off the
controller waits 100 ms. -/
def Obligations.FramesAndPorts : Prop :=
  (∀ (e : List SectErr) (k : List (Nat × Int)) (s : State), fieldNow s % framePeriod ≠ 0 → exec (.fieldFrame e k) s = .next s)
  ∧ (∀ (e : List SectErr) (k : List (Nat × Int)) (s u : State), fieldNow s % framePeriod = 0 → fieldState s ≠ fsReset →
    u = upd (s.fld.hubSeen || lanokUp s) (countMissed false) s → framing u = false →
    exec (.fieldFrame e k) s = .next (lanokSend false (.heartbeat u.fld.hubMode (fieldState u) 0 0) u))
  ∧ (∀ (e : List SectErr) (k : List (Nat × Int)) (s u v : State) (fl : List Int × Ramp), fieldNow s % framePeriod = 0 →
    fieldState s ≠ fsReset → u = upd (s.fld.hubSeen || lanokUp s) (countMissed false) s → framing u = true →
    fl = hdFloor u 6 u.fld.hd.g →
    v = (List.range 8).foldl (fun x t =>
      if framesTrunk x t then trunkFrame e k (fieldNow s) fl.1 x t else listenerBeacon t (fieldNow s) (fadesDrop t x)) u →
    exec (.fieldFrame e k) s = .next (lanokSend false (.heartbeat v.fld.hubMode (fieldState { v with fld.hd.g := fl.2 }) 0 0)
      { v with fld.hd.g := fl.2 }))
  ∧ (∀ s u : State, u = countMissed true s → rd u K.HUB_PSTATE ≠ 0 →
    exec .hubFieldFrame s
      = .next (lanokSend true (.heartbeat (modeOf u + 128) (rd u K.FIELD_STATE) (rd u K.ROLE) (rd u K.EPOCH)) u))
  ∧ (∀ s u v w : State, u = countMissed true s → rd u K.HUB_PSTATE = 0 →
    w = lanokSend true (.timeXfer (nowNs u) (u.isb.now % ns1) (rd u K.ISB_STATE) (rdI 32 u K.ISB_FREQ_ADJ)) u →
    v = lanokSend true (.heartbeat (modeOf u) (rd w K.FIELD_STATE) (rd w K.ROLE) (rd w K.EPOCH)) w →
    rd v K.ROLE = 2 →
    exec .hubFieldFrame s
      = .next { (List.range 32).foldl latchBlock v with fld.up := [], fld.upValid := [] })
  ∧ (∀ (k : Fin 8) (f : FrameReturn) (s u : State), frameReturn k.val f s = (none, u) →
    exec (.poruaFrameReturn k f) s = .next u)
  ∧ (∀ (k : Fin 8) (f : FrameReturn) (s : State), trunkRuns s k.val = true → fieldState s ≤ 1 → f.cw = true →
    (trunkOf s k.val).enumerating = true → exec (.poruaFrameReturn k f) s = .next (enumDone k.val f.hops s))
  ∧ (∀ (k : Fin 8) (f : FrameReturn) (fl : Flight) (l : List Flight) (s u : State), trunkRuns s k.val = true → fieldState s ≤ 1 →
    (trunkOf s k.val).enumerating = false → (trunkOf s k.val).flight = fl :: l →
    normalReturn k.val f fl (trunkUpd k.val (fun x => { x with flight := l }) s) = (none, u) →
    exec (.poruaFrameReturn k f) s = .next u)
  ∧ (∀ (k : Fin 8) (hop : Nat) (s u w : State), trunkRuns s k.val = true → (trunkOf s k.val).downHops.contains hop = false →
    0 < hop → hop < (trunkOf s k.val).nodes.length →
    u = trunkUpd k.val (fun x => { x with downHops := hop :: x.downHops }) s →
    w = syncPorts k.val (syncNodes k.val (wr (K.BREAK_AT k.val) (breakAt (trunkOf u k.val)) u)) →
    exec (.hopDown k hop) s = .next (if rd w (K.TRUNK_STATE k.val) = tsBroken then w
      else if (upset cTrunk k.val (wr (K.TRUNK_STATE k.val) tsBroken w)).2 = true
        then trunkRetire k.val (upset cTrunk k.val (wr (K.TRUNK_STATE k.val) tsBroken w)).1
        else (upset cTrunk k.val (wr (K.TRUNK_STATE k.val) tsBroken w)).1))
  ∧ (∀ (k : Fin 8) (hop : Nat) (s u : State), (trunkOf s k.val).downHops.contains hop = true → fieldNow s % framePeriod = 0 →
    u = trunkUpd k.val (fun x => { x with downHops := x.downHops.filter (· != hop), pollNext := 0 }) s →
    (trunkOf u k.val).downHops.isEmpty = false →
    exec (.loopbackRemove k hop) s
      = .next (syncPorts k.val (syncNodes k.val (wr (K.BREAK_AT k.val) (breakAt (trunkOf u k.val)) u))))
  ∧ (∀ (p : Fin 16) (s : State), fieldState s ≠ fsReset → rdF s (K.FGPIO_FUNC p.val) = 2 →
    exec (.emergencyIn p) s = .next (fgpioInput p.val (rdF s (K.FGPIO_ACTIVE p.val) == 1) s))
  ∧ (∀ (p : Fin 16) (high : Bool) (ms : Nat) (s : State), fieldState s ≠ fsReset → rdF s (K.FGPIO_DEBOUNCE p.val) ≤ ms →
    exec (.fgpioDebounceEnd p high ms) s = .next (fgpioInput p.val high s))
  ∧ (∀ (b : Fin 2) (id : Nat) (f : CanForm) (v : Bool) (o : Bytes) (s : State), fieldState s = fsCalm →
    exec (.canFrame b id f v o) s = .next (fieldWake s))
  ∧ (∀ (b : Fin 2) (id : Nat) (f : CanForm) (v : Bool) (o : Bytes) (s u : State), fieldState s ≠ fsCalm →
    canRuns s b.val = true → u = wr (K.CAN_BUS b.val) (b2n v) (canUpd b.val (fun c => { c with passive := v }) s) →
    canForUs u b.val id f = true → rd u (K.TP_EN (2 + b.val)) = 1 → o.isEmpty = false →
    exec (.canFrame b id f v o) s = .next (canFrame b.val o u))
  ∧ (∀ (b : Fin 2) (s : State), (canOf s b.val).active = true → (canOf s b.val).lastAt + 100 * ms1 ≤ fieldClk s →
    exec (.canReassemblyTimeout b) s = .next (bump (K.DROPS (2 + b.val))
      (canUpd b.val (fun c => { c with part := [], count := 0, active := false }) s)))
  ∧ (∀ (b : Fin 2) (s : State), exec (.canBusOffRecovery b) s = .next (wr (K.CAN_BUS b.val) 0 (canUpd b.val (fun c =>
      { c with resumeAt := fieldClk s + 100 * ms1, passive := false, part := [], count := 0, active := false, owed := none }) s)))

/-- REQ_SPEAK, REQ_CANCEL, PRIORITY_ON and PRIORITY_OFF take the oldest admitted event of their code off the list: one the
hub admitted goes to the talker manager in HALL and HYBRID, one the field die admitted to Hall Default. VOTE_K counts
the vote in the session last opened. ENDPOINT_CHANGE, MESSAGE and FAULT queue the poll that reads the node's
endpoints, message or status. -/
def Obligations.NodeEventsAreHandled : Prop :=
  (∀ (n : Nat) (c : Nat) (s u : State), takeAdmitted (· == evReqSpeak) s = some ((n, c, true), u) → tmActive u = true →
    exec .reqSpeak s = .next (tmSpeak n u))
  ∧ (∀ (n : Nat) (c : Nat) (s u : State), takeAdmitted (· == evReqSpeak) s = some ((n, c, false), u) →
    exec .reqSpeak s = .next (hdReqSpeak n u))
  ∧ (∀ (n : Nat) (c : Nat) (s u : State), takeAdmitted (· == evReqCancel) s = some ((n, c, true), u) → tmActive u = true →
    exec .reqCancel s = .next (tmCancel n u))
  ∧ (∀ (n : Nat) (c : Nat) (s u : State), takeAdmitted (· == evReqCancel) s = some ((n, c, false), u) →
    exec .reqCancel s = .next (hdReqCancel n u))
  ∧ (∀ (n : Nat) (c : Nat) (s u : State), takeAdmitted (· == evPriorityOn) s = some ((n, c, true), u) → tmActive u = true →
    exec .priorityOn s = .next (tmPriorityOn n u))
  ∧ (∀ (n : Nat) (c : Nat) (s u : State), takeAdmitted (· == evPriorityOn) s = some ((n, c, false), u) →
    exec .priorityOn s = .next (hdPriorityOn n u))
  ∧ (∀ (n : Nat) (c : Nat) (s u : State), takeAdmitted (· == evPriorityOff) s = some ((n, c, true), u) → tmActive u = true →
    exec .priorityOff s = .next (tmPriorityOff n u))
  ∧ (∀ (n : Nat) (c : Nat) (s u : State), takeAdmitted (· == evPriorityOff) s = some ((n, c, false), u) →
    exec .priorityOff s = .next (hdPriorityOff n u))
  ∧ (∀ (n c : Nat) (b : Bool) (s u : State), takeAdmitted isVote s = some ((n, c, b), u) →
    exec .voteK s = .next (countVote n (c - 4) u))
  ∧ (∀ (n c : Nat) (b : Bool) (s u : State), takeAdmitted (· == evEndpointChange) s = some ((n, c, b), u) →
    exec .endpointChange s = .next (pushCtrl (nodeTrunk n) (pollCtrl 5 (nodeIndex n) 2) u))
  ∧ (∀ (n c : Nat) (b : Bool) (s u : State), takeAdmitted (· == evMessage) s = some ((n, c, b), u) →
    exec .message s = .next (pushCtrl (nodeTrunk n) (pollCtrl 2 (nodeIndex n) 3) u))
  ∧ (∀ (n c : Nat) (b : Bool) (s u : State), takeAdmitted (· == evFault) s = some ((n, c, b), u) →
    exec .fault s = .next (pushCtrl (nodeTrunk n) (pollCtrl 5 (nodeIndex n) 0) u))

/-- A write that nothing hinders (R111-R118: open transport, no group held, served, allowed, room in the journal, no
repeat, no wait) and whose own conditions hold takes effect with its journal entry and is answered OK: ISB_STEP,
TOD_SET (a whole second), PPS_EN, LX_EN, LAUNCH_CANCEL, LAUNCH_RECORD (a record without ARM stored in a slot that is
not taken; one with ARM and passing checks armed), ENUMERATE, PWR_CLEAR. -/
def Obligations.ClockAndTrunkKeysTakeEffect : Prop :=
  (∀ (i : Inst) (tag : Nat) (ns : Nat) (s : State), unhindered i tag 0x1001 1 (leBytes 8 ns) s = true → isbStepStatus (touch i s) = .ok →
    exec (.isbStep i tag ns) s
      = .next (cmdTakes i tag 0x1001 1 (leBytes 8 ns) .ok (isbStep ns) s))
  ∧ (∀ (i : Inst) (tag : Nat) (ns : Nat) (s : State), unhindered i tag 0x1001 2 (leBytes 8 ns) s = true → ns % 1000000000 = 0 →
    exec (.todSet i tag ns) s
      = .next (cmdTakes i tag 0x1001 2 (leBytes 8 ns) .ok (todSet ns) s))
  ∧ (∀ (i : Inst) (tag : Nat) (n : Fin 2) (on : Bool) (s : State), unhindered i tag (0x1050 + n.val) 1 (boolOctet on) s = true → ppsEnStatus n.val (b2n on) (touch i s) = .ok →
    exec (.ppsEn i tag n on) s
      = .next (keyTakes i tag (0x1050 + n.val) 1 (boolOctet on) (ppsEn n.val (b2n on)) s))
  ∧ (∀ (i : Inst) (tag : Nat) (n : Fin 4) (on : Bool) (s : State), unhindered i tag (0x1060 + n.val) 1 (boolOctet on) s = true → lxEnStatus n.val (b2n on) (touch i s) = .ok →
    exec (.lxEn i tag n on) s
      = .next (keyTakes i tag (0x1060 + n.val) 1 (boolOctet on) (lxEn n.val (b2n on)) s))
  ∧ (∀ (i : Inst) (tag : Nat) (n : Fin 1024) (s : State), unhindered i tag 0x1040 3 (leBytes 2 n.val) s = true → cancelStatus n.val (touch i s) = .ok →
    exec (.launchCancel n (some i) tag) s
      = .next (cmdTakes i tag 0x1040 3 (leBytes 2 n.val) .ok (cancelAccepted n.val) s))
  ∧ (∀ (i : Inst) (tag : Nat) (k : Fin 8) (s : State), unhindered i tag (0x1800 + 256 * k.val) 5 [1] s = true →
    exec (.enumerate i tag k) s
      = .next (cmdTakes i tag (0x1800 + 256 * k.val) 5 [1] .ok (enumerate k.val) s))
  ∧ (∀ (i : Inst) (tag : Nat) (k : Fin 8) (p : Fin 2) (s : State), unhindered i tag (0x1803 + 256 * k.val + p.val) 8 [1] s = true →
    exec (.pwrClear i tag k p) s
      = .next (cmdTakes i tag (0x1803 + 256 * k.val + p.val) 8 [1] .ok (pwrClear k.val p.val) s))
  ∧ (∀ (i : Inst) (tag n : Nat) (r : LaunchRec) (s : State), unhindered i tag 0x1040 2
      (launchOctets { time := r.time, frac := r.frac, typ := r.typ, flags := r.flags, target := r.target, arg := r.arg, period := r.period }) s = true →
    writeGate i 0x1040 2 32 (touch i s) = .ok → n = rd s K.SLOT_SELECT → slotTaken (touch i s) n = false → bitOf r.flags 0 = false →
    exec (.launchRecord i tag r) s = .next (respond i tag 2 0x1040 2 .ok [] (setRecord n r (acceptNow i tag 0x1040 2
      (launchOctets { time := r.time, frac := r.frac, typ := r.typ, flags := r.flags, target := r.target, arg := r.arg, period := r.period })
      (launchUpd n (fun l => { l with writes := l.writes + 1 }) (touch i s))))))
  ∧ (∀ (i : Inst) (tag n : Nat) (r : LaunchRec) (s u : State), unhindered i tag 0x1040 2
      (launchOctets { time := r.time, frac := r.frac, typ := r.typ, flags := r.flags, target := r.target, arg := r.arg, period := r.period }) s = true →
    writeGate i 0x1040 2 32 (touch i s) = .ok → n = rd s K.SLOT_SELECT → slotTaken (touch i s) n = false → bitOf r.flags 0 = true → launchCheck n r (touch i s) = .ok u →
    exec (.launchRecord i tag r) s = .next (respond i tag 2 0x1040 2 .ok [] (armAccepted n r (acceptNow i tag 0x1040 2
      (launchOctets { time := r.time, frac := r.frac, typ := r.typ, flags := r.flags, target := r.target, arg := r.arg, period := r.period })
      (launchUpd n (fun l => { l with writes := l.writes + 1 }) (touch i s))))))

/-- A command that nothing hinders and whose own conditions hold takes effect with its journal entry and is answered. OK:
WARM_RESET (its action follows the answer), FW_STAGE, statistics clears, STORM_CLEAR in SERVICE, VANE_EN, HOST_PING,
CH_CLEAR, CH_RETIRE, FORCE_ACTIVE in ISLAND, PD_RESET of domains 1-18. PENDING, then its action: FACTORY_RESET,
FW_ACTIVATE and RETURN_PREP in SERVICE, MODE_REQUEST, SWITCHOVER of a HEALTHY pair, PD_REQUEST; HUB_OFF in STANDBY. -/
def Obligations.MaintenanceCommandsTakeEffect : Prop :=
  (∀ (i : Inst) (tag : Nat) (s : State), unhindered i tag 0x0003 1 [1] s = true →
    exec (.warmReset i tag) s
      = .next ((fun u => if u.boot.recovery then wr K.LAST_RESET 1 (barsReset u) else warmReset 1 u) (cmdTakes i tag 0x0003 1 [1] .ok id s)))
  ∧ (∀ (i : Inst) (tag : Nat) (s : State), unhindered i tag 0x0005 2 [1] s = true → modeOf s = mService →
    exec (.factoryReset i tag) s
      = .next (factoryReset (cmdTakes i tag 0x0005 2 [1] .pending id s)))
  ∧ (∀ (i : Inst) (tag : Nat) (m : Nat) (s : State), unhindered i tag 0x0001 2 (leBytes 1 m) s = true → modeStatus m (touch i s) = .pending →
    exec (.modeRequest i tag m) s
      = .next ((transitionStart m) (cmdTakes i tag 0x0001 2 (leBytes 1 m) .pending id s)))
  ∧ (∀ (i : Inst) (tag : Nat) (b : Bytes) (s : State), unhindered i tag 0xF801 3 b s = true → worst (keyStatus K.FW_STAGE b (touch i s)) (if (leAt b 0 4 == 0x4D4B4657 || decide ((slotAt (touch i s) (stagingSlot (touch i s))).image.length + b.length ≤ 8 * 1024 * 1024)) = true then .ok else .range) = .ok →
    exec (.fwStage i tag b) s
      = .next (keyTakes i tag 0xF801 3 b (fwStage b) s))
  ∧ (∀ (i : Inst) (tag : Nat) (s : State), unhindered i tag 0xF801 4 [1] s = true → modeOf s = mService →
    exec (.fwActivate i tag) s
      = .next (fwActivate (cmdTakes i tag 0xF801 4 [1] .pending id s)))
  ∧ (∀ (i : Inst) (tag : Nat) (s : State), unhindered i tag 0xF810 0x0D [1] s = true →
    exec (.schedStatsClear i tag) s
      = .next (cmdTakes i tag 0xF810 0x0D [1] .ok clearSchedStats s))
  ∧ (∀ (i : Inst) (tag : Nat) (s : State), unhindered i tag 0xF400 0x0C [1] s = true →
    exec (.memStatsClear i tag) s
      = .next (cmdTakes i tag 0xF400 0x0C [1] .ok memStatsClear s))
  ∧ (∀ (i : Inst) (tag : Nat) (s : State), unhindered i tag 0x0C00 5 [1] s = true → modeOf s = mService →
    exec (.stormClear i tag) s
      = .next (cmdTakes i tag 0x0C00 5 [1] .ok stormErase s))
  ∧ (∀ (i : Inst) (tag : Nat) (s : State), unhindered i tag 0x0F00 1 [1] s = true → modeOf s = mService →
    exec (.returnPrep i tag) s
      = .next (returnGo (cmdTakes i tag 0x0F00 1 [1] .pending id s)))
  ∧ (∀ (i : Inst) (tag : Nat) (on : Bool) (s : State), unhindered i tag 0x0D00 1 (boolOctet on) s = true →
    exec (.vaneEn i tag on) s
      = .next (keyTakes i tag 0x0D00 1 (boolOctet on) (vaneEnable (b2n on)) s))
  ∧ (∀ (i : Inst) (tag : Nat) (s : State), unhindered i tag 0x0800 7 [1] s = true →
    exec (.hostPing i tag) s
      = .next (cmdTakes i tag 0x0800 7 [1] .ok (fun u => summary 5 false { u with flt.hostPing := clk u }) s))
  ∧ (∀ (i : Inst) (tag : Nat) (s : State), unhindered i tag 0x0820 5 [1] s = true → chStatus i (touch i s) = .ok →
    exec (.chClear i tag) s
      = .next (cmdTakes i tag 0x0820 5 [1] .ok (channelClear (chType i (touch i s)) (chInst i (touch i s))) s))
  ∧ (∀ (i : Inst) (tag : Nat) (s : State), unhindered i tag 0x0820 6 [1] s = true → chStatus i (touch i s) = .ok →
    exec (.chRetire i tag) s
      = .next (cmdTakes i tag 0x0820 6 [1] .ok (channelRetire (chType i (touch i s)) (chInst i (touch i s))) s))
  ∧ (∀ (i : Inst) (tag : Nat) (s : State), unhindered i tag 0x0900 0x0D [1] s = true → rd s K.PAIR_STATE = 2 →
    exec (.switchover i tag) s
      = .next (switchGo (cmdTakes i tag 0x0900 0x0D [1] .pending id s)))
  ∧ (∀ (i : Inst) (tag : Nat) (s : State), unhindered i tag 0x0900 0x0E [1] s = true → rd s K.ROLE = 3 →
    exec (.forceActive i tag) s
      = .next (cmdTakes i tag 0x0900 0x0E [1] .ok (takeover s.pair.healthyBefore) s))
  ∧ (∀ (i : Inst) (tag : Nat) (d : Nat) (s : State), unhindered i tag (0x0420 + d) 2 [0] s = true → pdRequestStatus d 0 (touch i s) = .pending →
    exec (.pdRequestRun i tag d) s
      = .next ((pdRequestGo d 0) (cmdTakes i tag (0x0420 + d) 2 [0] .pending id s)))
  ∧ (∀ (i : Inst) (tag : Nat) (d : Nat) (s : State), unhindered i tag (0x0420 + d) 2 [2] s = true → pdRequestStatus d pdCalm (touch i s) = .pending →
    exec (.pdRequestCalm i tag d) s
      = .next ((pdRequestGo d pdCalm) (cmdTakes i tag (0x0420 + d) 2 [2] .pending id s)))
  ∧ (∀ (i : Inst) (tag : Nat) (d : Nat) (s : State), unhindered i tag (0x0420 + d) 2 [3] s = true → pdRequestStatus d pdFrost (touch i s) = .pending →
    exec (.pdRequestFrost i tag d) s
      = .next ((pdRequestGo d pdFrost) (cmdTakes i tag (0x0420 + d) 2 [3] .pending id s)))
  ∧ (∀ (i : Inst) (tag : Nat) (d : Nat) (s : State), unhindered i tag (0x0420 + d) 4 [1] s = true → 1 ≤ d → d ≤ 18 →
    exec (.pdReset i tag d) s
      = .next (cmdTakes i tag (0x0420 + d) 4 [1] .ok (pdResetGo d) s))
  ∧ (∀ (i : Inst) (tag : Nat) (s : State), unhindered i tag 0x0400 4 [1] s = true → checks [(modeOf s != mStandby, .mode), ((touch i s).boot.transition.isSome || (touch i s).pwr.entry.isSome || !sleepReady (touch i s), .busy), (true, .pending)] = .pending →
    exec (.hubOff i tag) s
      = .next (cmdTakes i tag 0x0400 4 [1] .pending (fun u => entryField (entryStart 4 false u)) s))

/-- A write that nothing hinders and whose own conditions hold takes effect with its journal entry and is answered OK
(XP_COPY and XP_PRESET: PENDING, the copy then under way): KUNLOAD, B_EN, T_EN (its domain awake), SAP_EN, EP_EN,
XP_COPY, XP_PRESET, METER_CLR, LM_RESET, TM_GRANT, TM_CLOSE, TM_CLEAR_QUEUE, DESK_EN. -/
def Obligations.AudioKeysTakeEffect : Prop :=
  (∀ (i : Inst) (tag : Nat) (k : Fin 64) (s : State), unhindered i tag (0x6C40 + k.val) 6 [1] s = true → kernelInUse (touch i s) k.val = false →
    exec (.kunload i tag k) s
      = .next (cmdTakes i tag (0x6C40 + k.val) 6 [1] .ok (fun u => markDirty (K.KIMAGE k.val) (kunload k.val u)) s))
  ∧ (∀ (i : Inst) (tag : Nat) (e : Fin 256) (on : Bool) (s : State), unhindered i tag (0x6D00 + e.val) 7 (boolOctet on) s = true → bindStatus e.val on (touch i s) = .ok →
    exec (.bEn i tag e on) s
      = .next (keyTakes i tag (0x6D00 + e.val) 7 (boolOctet on) (wr (K.B_EN e.val) (b2n on)) s))
  ∧ (∀ (i : Inst) (tag : Nat) (e : Fin 8) (on : Bool) (s : State), unhindered i tag (0x6E00 + e.val) 9 (boolOctet on) s = true → tickEnStatus e.val on (touch i s) = .ok → (on = true → needsWake (touch i s) (1 + rd s (K.T_ME e.val) / 16) = false) →
    exec (.tEn i tag e on) s
      = .next (keyTakes i tag (0x6E00 + e.val) 9 (boolOctet on) (tickEn e.val on) s))
  ∧ (∀ (i : Inst) (tag : Nat) (n : Fin 8) (on : Bool) (s : State), unhindered i tag (0x6000 + n.val) 1 (boolOctet on) s = true → sapEnStatus n.val on (touch i s) = .ok →
    exec (.sapEn i tag n on) s
      = .next (keyTakes i tag (0x6000 + n.val) 1 (boolOctet on) (sapEn n.val on) s))
  ∧ (∀ (i : Inst) (tag : Nat) (rx : Bool) (e : Fin 64) (on : Bool) (s : State), unhindered i tag ((if rx then 0x6200 else 0x6280) + e.val) 1 (boolOctet on) s = true → epEnStatus rx e.val on (touch i s) = .ok →
    exec (.epEn i tag rx e on) s
      = .next (keyTakes i tag ((if rx then 0x6200 else 0x6280) + e.val) 1 (boolOctet on) (epEn rx e.val on) s))
  ∧ (∀ (i : Inst) (tag : Nat) (k : Nat) (s : State), unhindered i tag 0x6400 5 (leBytes 1 k) s = true → copyStatus (touch i s) k = .pending →
    exec (.xpCopy i tag k) s
      = .next (cmdTakes i tag 0x6400 5 (leBytes 1 k) .pending (fun u => { u with mix.copying := some k, mix.written := [] }) s))
  ∧ (∀ (i : Inst) (tag : Nat) (s : State), unhindered i tag 0x6400 6 [1] s = true → copyStatus (touch i s) 0 = .pending →
    exec (.xpPreset i tag) s
      = .next (cmdTakes i tag 0x6400 6 [1] .pending (fun u => { u with mix.copying := some 3, mix.written := [] }) s))
  ∧ (∀ (i : Inst) (tag : Nat) (s : State), unhindered i tag 0x6412 1 [1] s = true →
    exec (.meterClr i tag) s
      = .next (cmdTakes i tag 0x6412 1 [1] .ok (fun u => clearKeys 0x6410 5 (clearKeys 0x6411 7 (clearKeys 0x6411 9 u))) s))
  ∧ (∀ (i : Inst) (tag : Nat) (m : Fin 16) (s : State), unhindered i tag (0x6700 + m.val) 7 [1] s = true →
    exec (.lmReset i tag m) s
      = .next (cmdTakes i tag (0x6700 + m.val) 7 [1] .ok (loudRestart m.val) s))
  ∧ (∀ (i : Inst) (tag : Nat) (n : Nat) (s : State), unhindered i tag 0x6420 0x0E (leBytes 4 n) s = true → grantStatus n (touch i s) = .ok → (tmActive (touch i s) && identOk n && !isLeg n && (tmOpenOf (touch i s) n).isNone && (tmFreeSlot (touch i s) (nodeTrunk n)).isNone) = false →
    exec (.tmGrant i tag n) s
      = .next (cmdTakes i tag 0x6420 0x0E (leBytes 4 n) .ok (grant n) s))
  ∧ (∀ (i : Inst) (tag : Nat) (n : Nat) (s : State), unhindered i tag 0x6420 0x0F (leBytes 4 n) s = true → identOk n = true → tmActive (touch i s) = true →
    exec (.tmClose i tag n) s
      = .next (cmdTakes i tag 0x6420 0x0F (leBytes 4 n) .ok (tmCancel n) s))
  ∧ (∀ (i : Inst) (tag : Nat) (s : State), unhindered i tag 0x6420 0x10 [1] s = true →
    exec (.tmClearQueue i tag) s
      = .next (cmdTakes i tag 0x6420 0x10 [1] .ok (tmUpd (fun x => { x with queue := [] })) s))
  ∧ (∀ (i : Inst) (tag : Nat) (d : Fin 256) (on : Bool) (s : State), unhindered i tag (0x6800 + d.val) 3 (boolOctet on) s = true → deskEnStatus d.val on (touch i s) = .ok →
    exec (.deskEn i tag d on) s
      = .next (keyTakes i tag (0x6800 + d.val) 3 (boolOctet on) (deskEn d.val on) s))

/-- A write that nothing hinders and whose own conditions hold takes effect with its journal entry and is answered OK
(POOL_TEST: PENDING): PORT_EN with its domain awake, Q_FLUSH, LEG_EN, SLOT_ERASE, IN_ERASE and OUT_ERASE of a leg that
is not enabled. A control transaction of a leg whose TXN is above LAST_TXN sets LAST_TXN and takes effect: ENABLE,
DISABLE, SPEAK, CANCEL, SET_SOURCE, SET_MAX, REFRESH. -/
def Obligations.PacketAndLegKeysTakeEffect : Prop :=
  (∀ (i : Inst) (tag : Nat) (p : Fin 8) (on : Bool) (s : State), unhindered i tag (0x7000 + p.val) 1 (boolOctet on) s = true → portEnStatus p.val on (touch i s) = .ok → (on = true → needsWake (touch i s) 11 = false) →
    exec (.portEn i tag p on) s
      = .next (keyTakes i tag (0x7000 + p.val) 1 (boolOctet on) (portEn p.val on) s))
  ∧ (∀ (i : Inst) (tag : Nat) (s : State), unhindered i tag 0x7110 6 [1] s = true →
    exec (.qFlush i tag) s
      = .next (cmdTakes i tag 0x7110 6 [1] .ok (flushQueue (rd s (K.QUEUE_SELECT (instNum i)))) s))
  ∧ (∀ (i : Inst) (tag : Nat) (s : State), unhindered i tag 0x7100 0x0F [1] s = true → poolTestStatus (touch i s) = .pending →
    exec (.poolTest i tag) s
      = .next (cmdTakes i tag 0x7100 0x0F [1] .pending (fun u => spillAll { u with pkt.testing := some (i, tag) }) s))
  ∧ (∀ (i : Inst) (tag : Nat) (l : Nat) (on : Bool) (s : State), unhindered i tag (0x8000 + l) 1 (boolOctet on) s = true → l < 20480 → mediaStatus on (touch i s) = .ok → legEnStatus l on (touch i s) = .ok →
    exec (.legEn i tag l on) s
      = .next (keyTakes i tag (0x8000 + l) 1 (boolOctet on) (legEn l on) s))
  ∧ (∀ (i : Inst) (tag : Nat) (k : Fin 64) (s : State), unhindered i tag (0x7C40 + k.val) 6 [1] s = true →
    exec (.slotErase i tag k) s
      = .next (cmdTakes i tag (0x7C40 + k.val) 6 [1] .ok (sealErase k.val) s))
  ∧ (∀ (i : Inst) (tag : Nat) (s : State), unhindered i tag 0x7D00 0x0C [1] s = true → rd s (K.LEG_EN (rd s (K.CIPHER_LEG (instNum i)))) ≠ 1 →
    exec (.inErase i tag) s
      = .next (cmdTakes i tag 0x7D00 0x0C [1] .ok (srtpErase false (rd s (K.CIPHER_LEG (instNum i)))) s))
  ∧ (∀ (i : Inst) (tag : Nat) (s : State), unhindered i tag 0x7D00 0x0C [2] s = true → rd s (K.LEG_EN (rd s (K.CIPHER_LEG (instNum i)))) ≠ 1 →
    exec (.outErase i tag) s
      = .next (cmdTakes i tag 0x7D00 0x0C [2] .ok (srtpErase true (rd s (K.CIPHER_LEG (instNum i)))) s))
  ∧ (∀ (i : Inst) (tag l txn : Nat) (s : State), legUnhindered i tag l txn 1 0 0 0 s = true → mediaStatus true (touch i s) = .ok → legEnStatus l true (touch i s) = .ok → 
    exec (.legCtrlEnable i tag l txn) s
      = .next (legTakes i tag l txn 1 0 0 0 (fun u => markDirty (K.LEG_EN l) (legEn l true u)) s))
  ∧ (∀ (i : Inst) (tag l txn : Nat) (s : State), legUnhindered i tag l txn 2 0 0 0 s = true → 
    exec (.legCtrlDisable i tag l txn) s
      = .next (legTakes i tag l txn 2 0 0 0 (fun u => markDirty (K.LEG_EN l) (legEn l false u)) s))
  ∧ (∀ (i : Inst) (tag l txn : Nat) (s : State), legUnhindered i tag l txn 3 0 0 0 s = true → l < bidirLegs → 
    exec (.legCtrlSpeak i tag l txn) s
      = .next (legTakes i tag l txn 3 0 0 0 (tmSpeak (legIdent l)) s))
  ∧ (∀ (i : Inst) (tag l txn : Nat) (s : State), legUnhindered i tag l txn 4 0 0 0 s = true → l < bidirLegs → 
    exec (.legCtrlCancel i tag l txn) s
      = .next (legTakes i tag l txn 4 0 0 0 (tmCancel (legIdent l)) s))
  ∧ (∀ (i : Inst) (tag l txn k c : Nat) (s : State), legUnhindered i tag l txn 5 k 0 c s = true → k < 3 → sourceCodeOk c = true → 
    exec (.legCtrlSetSource i tag l txn k c) s
      = .next (legTakes i tag l txn 5 k 0 c (fun u => markDirty (K.SLOT_SOURCE l k) (setSource l k c u)) s))
  ∧ (∀ (i : Inst) (tag l txn k c : Nat) (s : State), legUnhindered i tag l txn 6 k c 0 s = true → k < 3 → c < 256 → layerCodeOk c = true → 
    exec (.legCtrlSetMax i tag l txn k c) s
      = .next (legTakes i tag l txn 6 k c 0 (fun u => markDirty (K.SLOT_MAX l k) (wr (K.SLOT_MAX l k) c u)) s))
  ∧ (∀ (i : Inst) (tag l txn k : Nat) (s : State), legUnhindered i tag l txn 7 k 0 0 s = true → k < 3 → 
    exec (.legCtrlRefresh i tag l txn k) s
      = .next (legTakes i tag l txn 7 k 0 0 (slotRefresh l k false) s))

/-- A write that nothing hinders and whose own conditions hold takes effect with its journal entry and is answered OK:
DEC_EN, ENC_EN and OUT_EN with their domain awake, REFRESH, LAYER_COPY with no swap active, OVL_BASE at a multiple of
64, DMA_EN. -/
def Obligations.PictureKeysTakeEffect : Prop :=
  (∀ (i : Inst) (tag : Nat) (c : Fin 1024) (on : Bool) (s : State), unhindered i tag (0xD000 + c.val) 1 (boolOctet on) s = true → mediaStatus on (touch i s) = .ok → decEnStatus c.val on (touch i s) = .ok → (on = true → needsWake (touch i s) (14 + (placeDec (touch i s) c.val).getD 0) = false) →
    exec (.decEn i tag c on) s
      = .next (keyTakes i tag (0xD000 + c.val) 1 (boolOctet on) (decEn c.val on) s))
  ∧ (∀ (i : Inst) (tag : Nat) (e : Fin 256) (on : Bool) (s : State), unhindered i tag (0xD400 + e.val) 1 (boolOctet on) s = true → mediaStatus on (touch i s) = .ok → encEnStatus e.val on (touch i s) = .ok → (on = true → needsWake (touch i s) 16 = false) →
    exec (.encEn i tag e on) s
      = .next (keyTakes i tag (0xD400 + e.val) 1 (boolOctet on) (encEn e.val on) s))
  ∧ (∀ (i : Inst) (tag : Nat) (e : Fin 256) (s : State), unhindered i tag (0xD400 + e.val) 0x13 [1] s = true →
    exec (.refresh i tag e) s
      = .next (cmdTakes i tag (0xD400 + e.val) 0x13 [1] .ok (fun u => if rd u (K.ENC_EN e.val) = 1 then encRefresh e.val u else u) s))
  ∧ (∀ (i : Inst) (tag : Nat) (o : Fin 64) (s : State), unhindered i tag (0xE000 + o.val) 0x0C [1] s = true → swapActive (touch i s) o.val = false →
    exec (.layerCopy i tag o) s
      = .next (cmdTakes i tag (0xE000 + o.val) 0x0C [1] .ok (fun u => wrBlob (tableKey o.val (1 - rd u (K.ACTIVE_TABLE o.val))) (activeTable u o.val) u) s))
  ∧ (∀ (i : Inst) (tag : Nat) (o : Fin 64) (on : Bool) (s : State), unhindered i tag (0xE000 + o.val) 1 (boolOctet on) s = true → mediaStatus on (touch i s) = .ok → outEnStatus o.val on (touch i s) = .ok → (on = true → needsWake (touch i s) 17 = false) →
    exec (.outEn i tag o on) s
      = .next (keyTakes i tag (0xE000 + o.val) 1 (boolOctet on) (outEn o.val on) s))
  ∧ (∀ (i : Inst) (tag : Nat) (v : Fin 256) (b : Nat) (s : State), unhindered i tag (0xE800 + v.val) 1 (leBytes 8 b) s = true → b % 64 = 0 → b < 18446744073709551616 →
    exec (.ovlBase i tag v b) s
      = .next (keyTakes i tag (0xE800 + v.val) 1 (leBytes 8 b) (ovlBase v.val b) s))
  ∧ (∀ (i : Inst) (tag : Nat) (n : Fin 64) (on : Bool) (s : State), unhindered i tag (0xF000 + n.val) 1 (boolOctet on) s = true → dmaEnStatus n.val on (touch i s) = .ok →
    exec (.dmaEn i tag n on) s
      = .next (keyTakes i tag (0xF000 + n.val) 1 (boolOctet on) (dmaEn n.val on) s))

/-- On an open transport that is served, with the authentication the transport asks for: READ answers the value with OK,
or NO_ENTRY for a key that does not exist. WRITE of a key that is no command, with its checks passing and nothing
hindering, takes effect and is answered OK. A group write is held and answered PENDING; the closing write closes the
group as one unit. BLOB_OPEN_WRITE and BLOB_OPEN_READ open the instance's transfer, BLOB_DATA appends or returns
octets, BLOB_CLOSE ends it, a whole write being accepted as one unit, and ABORT discards transfer and group. -/
def Obligations.TransactionsAreServed : Prop :=
  (∀ (i : Inst) (tag index sub : Nat) (s : State), tpOpen s i.tr = true →
    unserved i index sub false (touch i s) = false → isWriteReq (touch i s) i 1 = false → authMissing (touch i s) i 1 = false →
    readStatus index sub (readMax i) (touch i s) (readValue (keyOf i index sub (touch i s)) (touch i s)).1 = .ok →
    exec (.read i tag index sub) s = .next (respondAs false i tag 1 index sub .ok
      (readValue (keyOf i index sub (touch i s)) (touch i s)).1 (readValue (keyOf i index sub (touch i s)) (touch i s)).2))
  ∧ (∀ (i : Inst) (tag index sub : Nat) (s : State), tpOpen s i.tr = true →
    unserved i index sub false (touch i s) = false → isWriteReq (touch i s) i 1 = false → authMissing (touch i s) i 1 = false →
    entryOf index sub = none →
    exec (.read i tag index sub) s = .next (respondAs false i tag 1 index sub .noEntry [] (touch i s)))
  ∧ (∀ (i : Inst) (tag index sub k : Nat) (v : Bytes) (e : Entry) (s : State), unhindered i tag index sub v s = true →
    entryOf index sub = some e → e.acc ≠ .cmd → (index, sub) ≠ (0x1040, 2) → (index, sub) ≠ (0xF801, 3) →
    enableDomain index sub (touch i s) = none → k = keyOf i index sub (touch i s) → keyIndex k = index → keySub k = sub →
    keyStatus k v (touch i s) = .ok →
    exec (.write i tag index sub v) s
      = .next (respond i tag 2 index sub .ok [] (acceptWrite i tag k v (keyEffect k v) (touch i s))))
  ∧ (∀ (i : Inst) (tag index sub : Nat) (v : Bytes) (s : State), tpOpen s i.tr = true →
    unserved i index sub true (touch i s) = false → authMissing (touch i s) i 2 = false →
    (groupOf (touch i s) i).isEmpty = false →
    exec (.write i tag index sub v) s = .next (unitClose i tag 2 index sub (groupOf (touch i s) i ++ [(index, sub, v)])
      (.group i tag (groupOf (touch i s) i ++ [(index, sub, v)])) (groupSet i [] (touch i s))))
  ∧ (∀ (i : Inst) (tag index sub : Nat) (v : Bytes) (e : Entry) (s : State), tpOpen s i.tr = true →
    unserved i index sub true (touch i s) = false → rightsGate i index sub (touch i s) = .ok →
    entryOf index sub = some e → present index sub (touch i s) = true → e.acc ≠ .ro → typeFits e v = true →
    (groupOf (touch i s) i).length < 32 → unitOctets (groupOf (touch i s) i) + v.length ≤ 4096 →
    exec (.groupWrite i tag index sub v) s = .next (respondAs false i tag 2 index sub .pending []
      (groupSet i (groupOf (touch i s) i ++ [(index, sub, v)]) { (touch i s) with
        dic.groupAt := tabSet 0 (touch i s).dic.groupAt (instNum i) (clk (touch i s)) })))
  ∧ (∀ (i : Inst) (tag index sub n stage : Nat) (e : Entry) (s : State), tpOpen s i.tr = true →
    unserved i index sub true (touch i s) = false → rightsGate i index sub (touch i s) = .ok →
    entryOf index sub = some e → present index sub (touch i s) = true → e.acc ≠ .ro → e.ty = .blob →
    leVal (leBytes 4 n) ≤ blobLimit index e → blobGate index sub (touch i s) = .ok → (blobOf (touch i s) i).isSome = false →
    (∀ x ∈ (touch i s).dic.blob, ∀ b, x.2 = some b → b.write = true → b.key ≠ keyOf i index sub (touch i s)) →
    stageFit (touch i s) (leVal (leBytes 4 n)) = some stage →
    exec (.blobOpenWrite i tag index sub n) s = .next (answerReq i tag 3 index sub .ok (blobSet i (some
      { key := keyOf i index sub (touch i s), write := true, length := leVal (leBytes 4 n), data := [],
        since := clk (touch i s), stage := stage }) (touch i s))))
  ∧ (∀ (i : Inst) (tag index sub : Nat) (e : Entry) (s : State), tpOpen s i.tr = true →
    unserved i index sub false (touch i s) = false → isWriteReq (touch i s) i 4 = false → authMissing (touch i s) i 4 = false →
    entryOf index sub = some e → e.ty = .blob → (blobOf (touch i s) i).isSome = false →
    readStatus index sub 65536 (touch i s) (readValue (keyOf i index sub (touch i s)) (touch i s)).1 = .ok →
    exec (.blobOpenRead i tag index sub) s = .next (respondAs false i tag 4 index sub .ok
      (leBytes 4 (readValue (keyOf i index sub (touch i s)) (touch i s)).1.length
        ++ leBytes 4 (crc32 (readValue (keyOf i index sub (touch i s)) (touch i s)).1))
      (blobSet i (some
        { key := keyOf i index sub (touch i s), write := false
          length := (readValue (keyOf i index sub (touch i s)) (touch i s)).1.length
          data := (readValue (keyOf i index sub (touch i s)) (touch i s)).1, since := clk (touch i s) })
        (readValue (keyOf i index sub (touch i s)) (touch i s)).2)))
  ∧ (∀ (i : Inst) (tag index sub : Nat) (v : Bytes) (b : Blob) (s : State), tpOpen s i.tr = true →
    unserved i index sub (isWriteReq (touch i s) i 5) (touch i s) = false → authMissing (touch i s) i 5 = false → entryGate index sub (touch i s) = .ok →
    blobOf (touch i s) i = some b → b.key = keyOf i index sub (touch i s) → b.write = true → 4 ≤ v.length →
    leAt v 0 4 = b.data.length → leAt v 0 4 + (v.drop 4).length ≤ b.length →
    exec (.blobData i tag index sub v) s = .next (answerReq i tag 5 index sub .ok (stagePut b.stage (leAt v 0 4) (v.drop 4)
      (blobSet i (some { b with data := b.data ++ v.drop 4 }) (touch i s)))))
  ∧ (∀ (i : Inst) (tag index sub : Nat) (v : Bytes) (b : Blob) (s : State), tpOpen s i.tr = true →
    unserved i index sub (isWriteReq (touch i s) i 5) (touch i s) = false → authMissing (touch i s) i 5 = false → entryGate index sub (touch i s) = .ok →
    blobOf (touch i s) i = some b → b.key = keyOf i index sub (touch i s) → b.write = false → v.length = 6 →
    leAt v 0 4 < b.data.length → leAt v 4 2 ≤ readMax i →
    exec (.blobData i tag index sub v) s
      = .next (respondAs false i tag 5 index sub .ok ((b.data.drop (leAt v 0 4)).take (leAt v 4 2)) (touch i s)))
  ∧ (∀ (i : Inst) (tag index sub : Nat) (v : Bytes) (b : Blob) (s : State), tpOpen s i.tr = true →
    unserved i index sub (isWriteReq (touch i s) i 6) (touch i s) = false → authMissing (touch i s) i 6 = false → entryGate index sub (touch i s) = .ok →
    blobOf (touch i s) i = some b → b.key = keyOf i index sub (touch i s) → b.write = true → v.length = 4 →
    b.data.length = b.length → crc32 b.data = leVal v →
    exec (.blobClose i tag index sub v) s = .next (unitClose i tag 6 index sub [(index, sub, b.data)]
      (.blobClose i tag index sub b.data b.stage) (blobSet i none (touch i s))))
  ∧ (∀ (i : Inst) (tag index sub : Nat) (b : Blob) (s : State), tpOpen s i.tr = true →
    unserved i index sub (isWriteReq (touch i s) i 6) (touch i s) = false → authMissing (touch i s) i 6 = false → entryGate index sub (touch i s) = .ok →
    blobOf (touch i s) i = some b → b.key = keyOf i index sub (touch i s) → b.write = false →
    exec (.blobClose i tag index sub []) s = .next (answerReq i tag 6 index sub .ok (blobSet i none (touch i s))))
  ∧ (∀ (i : Inst) (tag index sub : Nat) (s : State), tpOpen s i.tr = true →
    unserved i index sub (isWriteReq (touch i s) i 7) (touch i s) = false → authMissing (touch i s) i 7 = false → entryGate index sub (touch i s) = .ok →
    exec (.abort i tag index sub) s = .next (answerReq i tag 7 index sub .ok (groupSet i [] (blobSet i none (touch i s)))))

/-- MBX.GO serves the slot's envelope and sets BUSY; a GO while BUSY is dropped and counted. A datagram of at most 272
octets that is no fragment is served; a longer one is dropped and counted. A PENDING command's end records LAST_CMD
and sends COMPLETE. A group or transfer idle for 1 s is discarded. A persist write takes what is dirty into the copy
not last written; once whole it is the good one, one SEQ above the other. A register write that reaches the hub with
an allowed width and alignment acts on its register; any other is counted, reads 0 and writes nothing. -/
def Obligations.CarriersAndFlashDeliver : Prop :=
  (∀ (m : Fin 4) (s : State), pcieReaches s = true → (mbxOf s m.val).busy = false →
    exec (.mbxGo m) s = .next (serveEnvelope { tr := 0, sub := m.val } (mbxReq s m.val)
      (mbxUpd m.val (fun x => { x with busy := true }) s)))
  ∧ (∀ (m : Fin 4) (s : State), pcieReaches s = true → (mbxOf s m.val).busy = true →
    exec (.mbxGo m) s = .next (bump (K.DROPS 0) s))
  ∧ (∀ (a : Bytes) (p : Nat) (b : Bytes) (s : State), rd s K.MGMT_STATE ≠ 0 → rd s (K.TP_EN 1) ≠ 0 → b.length ≤ 272 →
    exec (.udpDictDatagram a p false b) s = .next (serveEnvelope { tr := 1, peer := (a, p) } b s))
  ∧ (∀ (a : Bytes) (p : Nat) (f : Bool) (b : Bytes) (s : State), rd s K.MGMT_STATE ≠ 0 → rd s (K.TP_EN 1) ≠ 0 →
    f = true ∨ 272 < b.length → exec (.udpDictDatagram a p f b) s = .next (bump (K.DROPS 1) s))
  ∧ (∀ (index sub : Nat) (i : Inst) (tag : Nat) (s u : State),
    s.dic.pendingCmds.find? (fun c => c.2.2.1 == index && c.2.2.2 == sub) = some (i, tag, index, sub) →
    u = emit (.dictRsp i tag 0x8F index sub Status.ok.code []) (lastCmd i index sub .ok { s with
      dic.pendingCmds := s.dic.pendingCmds.erase (i, tag, index, sub)
      boot.busy := s.boot.busy.filter (· != index * 256 + sub) }) →
    exec (.cmdComplete index sub 11) s = .next (deliver i .ok false (rspOctets tag 0x0F index sub .ok []) u))
  ∧ (∀ (i : Inst) (s : State), (groupOf s i).isEmpty = false → tabGet 0 s.dic.groupAt (instNum i) + s1 ≤ clk s →
    exec (.groupTimeout i) s = .next (groupSet i [] s))
  ∧ (∀ (i : Inst) (b : Blob) (s : State), blobOf s i = some b → b.since + s1 ≤ clk s →
    exec (.blobTimeout i) s = .next (blobSet i none s))
  ∧ (∀ (s : State) (newer0 : Bool), s.dic.dirty.isEmpty = false → s.dic.flashing.isSome = false → s.boot.step = 9 →
    newer0 = (s.boot.persistGood0 && (!s.boot.persistGood1 || decide (s.boot.persistSeq1 ≤ s.boot.persistSeq0))) →
    exec .persistFlashWrite s = .next { s with
      boot.persistGood0 := newer0, boot.persistGood1 := if newer0 then false else s.boot.persistGood1
      dic.flashing := some { keys := s.dic.dirty, bound := s.dic.entry, values := persistValues s, blobs := persistBlobs s } })
  ∧ (∀ (f : Flash) (s : State), s.dic.flashing = some f →
    ∃ t, exec .persistWriteComplete s = .next t
      ∧ t.boot.persistGood0 = true
      ∧ t.boot.persistGood1 = (s.boot.persistGood1 || s.boot.persistGood0)
      ∧ t.boot.persistSeq0 = (if s.boot.persistGood0 then s.boot.persistSeq0 else s.boot.persistSeq1 + 1)
      ∧ t.boot.persistSeq1 = (if s.boot.persistGood0 then s.boot.persistSeq0 + 1 else s.boot.persistSeq1))
  ∧ (∀ (bar offset width data : Nat) (s : State), barReaches bar offset s = true →
    width = 4 ∨ (width = 8 ∧ wideWindow bar offset = true) → offset % width = 0 →
    exec (.registerWrite bar offset width data) s = .next (registerPut bar offset width (data % 256 ^ width) s))
  ∧ (∀ (bar offset width data : Nat) (s : State), barReaches bar offset s = true →
    (width ≠ 4 ∧ width ≠ 8) ∨ offset % width ≠ 0 →
    exec (.registerWrite bar offset width data) s = .next (badAccess bar offset s))
  ∧ (∀ (fn bar offset : Nat) (s : State), barReaches bar offset s = true →
    exec (.badRegisterAccess fn bar offset true) s = .next (emit (.regRead fn bar offset 0)
      (wr K.BAD_ACCESS_LAST (bar / 2 % 4 * 1073741824 + offset % 16777216) (bump K.BAD_ACCESSES s))))
  ∧ (∀ (fn bar offset : Nat) (s : State), barReaches bar offset s = true →
    exec (.badRegisterAccess fn bar offset false) s
      = .next (wr K.BAD_ACCESS_LAST (bar / 2 % 4 * 1073741824 + offset % 16777216) (bump K.BAD_ACCESSES s)))

/-- While an engine issues a PAR word whose compute operation is NOP, MPY, MAC, MSU, MPY2, MAC2, MACX, CMPY, CMAC, AADD,
ASUB, ASH, ACLR, AMOV, RND or RNDH and no move slot faults: both move slots act, the operation issues the accumulator
or lane writes of its row of Table DSP-5, from the registers as they stand at issue, with its latency (4 for products,
5 for complex products, 2 for accumulator operations), issue goes on and a cycle ends. -/
def Obligations.EngineMultipliesAndAccumulates : Prop :=
  ∀ (me : Fin 128) (tick : Bool) (b : Bank) (w : Nat) (s : State),
  (issuingPar s me.val tick b w 0x00 = true →
    exec (.nop me) s = .next (parIssued me.val tick b w 1 [] s))
  ∧ (issuingPar s me.val tick b w 0x01 = true →
    exec (.mpy me) s = .next (parIssued me.val tick b w 4 ([0, 1, 2, 3].map (fun l => .acc (wCd w % 4) l (vInt b (wCa w) l * mulB w b l))) s))
  ∧ (issuingPar s me.val tick b w 0x02 = true →
    exec (.mac me) s = .next (parIssued me.val tick b w 4 ([0, 1, 2, 3].map (fun l => .accAdd (wCd w % 4) l (vInt b (wCa w) l * mulB w b l))) s))
  ∧ (issuingPar s me.val tick b w 0x03 = true →
    exec (.msu me) s = .next (parIssued me.val tick b w 4 ([0, 1, 2, 3].map (fun l => .accAdd (wCd w % 4) l (-(vInt b (wCa w) l * mulB w b l)))) s))
  ∧ (issuingPar s me.val tick b w 0x04 = true →
    exec (.mpy2 me) s = .next (parIssued me.val tick b w 4 ([0, 1, 2, 3].map (fun l => .acc (wCd w % 4) l
      ((vHi b (wCa w) l * vHi b (wCb w) l + vLo b (wCa w) l * vLo b (wCb w) l) * 2 ^ 32))) s))
  ∧ (issuingPar s me.val tick b w 0x05 = true →
    exec (.mac2 me) s = .next (parIssued me.val tick b w 4 ([0, 1, 2, 3].map (fun l => .accAdd (wCd w % 4) l
      ((vHi b (wCa w) l * vHi b (wCb w) l + vLo b (wCa w) l * vLo b (wCb w) l) * 2 ^ 32))) s))
  ∧ (issuingPar s me.val tick b w 0x06 = true →
    exec (.macx me) s = .next (parIssued me.val tick b w 4 ([0, 1, 2, 3].map (fun l => .accAdd (wCd w % 4) l
      ((vHi b (wCa w) l * vLo b (wCb w) l + vLo b (wCa w) l * vHi b (wCb w) l) * 2 ^ 32))) s))
  ∧ (issuingPar s me.val tick b w 0x07 = true →
    exec (.cmpy me) s = .next (parIssued me.val tick b w 5 ([0, 1, 2, 3].map (fun l => .acc (wCd w % 4) l (prodC w b l))) s))
  ∧ (issuingPar s me.val tick b w 0x08 = true →
    exec (.cmac me) s = .next (parIssued me.val tick b w 5 ([0, 1, 2, 3].map (fun l => .accAdd (wCd w % 4) l (prodC w b l))) s))
  ∧ (issuingPar s me.val tick b w 0x20 = true →
    exec (.aadd me) s = .next (parIssued me.val tick b w 2 ([0, 1, 2, 3].map (fun l => .acc (wCd w % 4) l (accOf b (wCa w) l + accOf b (wCb w) l))) s))
  ∧ (issuingPar s me.val tick b w 0x21 = true →
    exec (.asub me) s = .next (parIssued me.val tick b w 2 ([0, 1, 2, 3].map (fun l => .acc (wCd w % 4) l (accOf b (wCa w) l - accOf b (wCb w) l))) s))
  ∧ (issuingPar s me.val tick b w 0x22 = true →
    exec (.ash me) s = .next (parIssued me.val tick b w 2 ([0, 1, 2, 3].map (fun l => .acc (wCd w % 4) l (if 0 ≤ shiftK w
      then accOf b (wCa w) l * 2 ^ (shiftK w).toNat else rnd (accOf b (wCa w) l) (-(shiftK w)).toNat))) s))
  ∧ (issuingPar s me.val tick b w 0x23 = true →
    exec (.aclr me) s = .next (parIssued me.val tick b w 2 (([0, 1, 2, 3].filter (fun l => bitOf (wCx w) l)).map (fun l => .acc (wCd w % 4) l 0)) s))
  ∧ (issuingPar s me.val tick b w 0x24 = true →
    exec (.amov me) s = .next (parIssued me.val tick b w 2 ([0, 1, 2, 3].map (fun l => .acc (wCd w % 4) l (vInt b (wCa w) l * 2 ^ 31))) s))
  ∧ (issuingPar s me.val tick b w 0x28 = true →
    exec (.rnd me) s = .next (parIssued me.val tick b w 2 ([0, 1, 2, 3].flatMap (fun l =>
      laneSat (wCd w) l (rnd (accOf b (wCa w) l) (31 - shiftK w).toNat))) s))
  ∧ (issuingPar s me.val tick b w 0x29 = true →
    exec (.rndh me) s = .next (parIssued me.val tick b w 2 (([0, 1, 2, 3] : List Nat).flatMap (fun l => .half (wCd w) l (bitOf (wCx w) 0)
        (ofInt 16 (satS 16 (rnd (accOf b (wCa w) l) (47 - shiftK w).toNat)))
      :: (if satS 16 (rnd (accOf b (wCa w) l) (47 - shiftK w).toNat) = rnd (accOf b (wCa w) l) (47 - shiftK w).toNat
        then [] else [.sat]))) s))

/-- While an engine issues a PAR word whose compute operation is ADD, SUB, BFLY, ABS, NEG, MIN, MAX, AND, OR, XOR, SHL,
SHR, CMP, SEL, PERM or EXP and no move slot faults: both move slots act, the operation issues its row of Table DSP-5
(lanes or halves clipped with SAT, block exponent with E, condition bits of CMP) with latency 2, issue goes on and a
cycle ends. -/
def Obligations.EngineLaneOperations : Prop :=
  ∀ (me : Fin 128) (tick : Bool) (b : Bank) (w : Nat) (s : State),
  (issuingPar s me.val tick b w 0x10 = true →
    exec (.add me) s = .next (parIssued me.val tick b w 2 (laneOp w (bitOf (wCx w) 0) (bitOf (wCx w) 1) (fun x y => x + y) b) s))
  ∧ (issuingPar s me.val tick b w 0x11 = true →
    exec (.sub me) s = .next (parIssued me.val tick b w 2 (laneOp w (bitOf (wCx w) 0) (bitOf (wCx w) 1) (fun x y => x - y) b) s))
  ∧ (issuingPar s me.val tick b w 0x12 = true →
    exec (.bfly me) s = .next (parIssued me.val tick b w 2 (([0, 1, 2, 3].flatMap (fun l =>
        laneSat (wCd w) l (rnd (vInt b (wCa w) l + vInt b (wCb w) l) (wCx w % 4))
          ++ laneSat (wCd w + 1) l (rnd (vInt b (wCa w) l - vInt b (wCb w) l) (wCx w % 4))))
      ++ (if bitOf (wCx w) 2 then expWrites false ([0, 1, 2, 3].flatMap (fun l =>
        laneSat (wCd w) l (rnd (vInt b (wCa w) l + vInt b (wCb w) l) (wCx w % 4))
          ++ laneSat (wCd w + 1) l (rnd (vInt b (wCa w) l - vInt b (wCb w) l) (wCx w % 4)))) else [])) s))
  ∧ (issuingPar s me.val tick b w 0x13 = true →
    exec (.abs me) s = .next (parIssued me.val tick b w 2 (laneOp w (bitOf (wCx w) 0) (bitOf (wCx w) 1) (fun x _ => if x < 0 then -x else x) b) s))
  ∧ (issuingPar s me.val tick b w 0x14 = true →
    exec (.neg me) s = .next (parIssued me.val tick b w 2 ([0, 1, 2, 3].flatMap (fun l =>
      laneSat (wCd w) l (if bitOf (wCx w) l then -(vInt b (wCa w) l) else vInt b (wCa w) l))) s))
  ∧ (issuingPar s me.val tick b w 0x15 = true →
    exec (.min me) s = .next (parIssued me.val tick b w 2 (laneOp w false (bitOf (wCx w) 1) (fun x y => if x ≤ y then x else y) b) s))
  ∧ (issuingPar s me.val tick b w 0x16 = true →
    exec (.max me) s = .next (parIssued me.val tick b w 2 (laneOp w false (bitOf (wCx w) 1) (fun x y => if x ≤ y then y else x) b) s))
  ∧ (issuingPar s me.val tick b w 0x17 = true →
    exec (.and me) s = .next (parIssued me.val tick b w 2 (laneRaw w (fun l => vRaw b (wCa w) l &&& vRaw b (wCb w) l)) s))
  ∧ (issuingPar s me.val tick b w 0x18 = true →
    exec (.or me) s = .next (parIssued me.val tick b w 2 (laneRaw w (fun l => vRaw b (wCa w) l ||| vRaw b (wCb w) l)) s))
  ∧ (issuingPar s me.val tick b w 0x19 = true →
    exec (.xor me) s = .next (parIssued me.val tick b w 2 (laneRaw w (fun l => Nat.xor (vRaw b (wCa w) l) (vRaw b (wCb w) l))) s))
  ∧ (issuingPar s me.val tick b w 0x1a = true →
    exec (.shl me) s = .next (parIssued me.val tick b w 2 ([0, 1, 2, 3].flatMap (fun l =>
      laneSat (wCd w) l (vInt b (wCa w) l * 2 ^ (wCb w + 16 * (wCx w % 2))))) s))
  ∧ (issuingPar s me.val tick b w 0x1b = true →
    exec (.shr me) s = .next (parIssued me.val tick b w 2 ([0, 1, 2, 3].flatMap (fun l =>
      laneSat (wCd w) l (rnd (vInt b (wCa w) l) (wCb w + 16 * (wCx w % 2))))) s))
  ∧ (issuingPar s me.val tick b w 0x1c = true →
    exec (.cmp me) s = .next (parIssued me.val tick b w 2 [.cond (cmpBits w b)] s))
  ∧ (issuingPar s me.val tick b w 0x1d = true →
    exec (.sel me) s = .next (parIssued me.val tick b w 2 (laneRaw w (fun l => if bitOf b.c l then vRaw b (wCa w) l else vRaw b (wCb w) l)) s))
  ∧ (issuingPar s me.val tick b w 0x1e = true →
    exec (.perm me) s = .next (parIssued me.val tick b w 2 (laneRaw w (fun l => if wCb w = 8
      then vRaw b (wCa w) l % 65536 * 65536 + vRaw b (wCa w) l / 65536 else vRaw b (wCa w) (permLane (wCb w) l))) s))
  ∧ (issuingPar s me.val tick b w 0x1f = true →
    exec (.exp me) s = .next (parIssued me.val tick b w 2 ([0, 1, 2, 3].map (fun l => .bexp (rsbLane (bitOf (wCx w) 0) (vRaw b (wCa w) l)))) s))

/-- While an engine issues: LD, ST, LDB and PUPD do their slot of the word once, unless a slot of it faults, which ends
the kernel with the fault of Table DSP-8. CNOP, SETV, SETP, SETM, ADDP, CLRF and RDST write their registers with
latency 1. BRA and a BCC whose condition holds branch after two delay slots. LOOP pushes its body on the loop stack,
or passes over it at count 0. LDC at an aligned offset inside the shared data stalls issue until LDC_DATA_ARRIVE
brings 16 octets. HALT ends the kernel. -/
def Obligations.EngineMovesAndControl : Prop :=
  ∀ (me : Fin 128) (tick : Bool) (b : Bank) (w : Nat) (s : State),
  (∀ y : Bool, issuing s me.val tick b w = true → wFmt w = 0 → mMop (wSlot w y) = 1 → parFault s tick b w = none →
    exec (.ld me y) s = .next (setBank me.val tick (doSlotOnce y (wSlot w y) (meOf s me.val) b).2
      (meUpd me.val (fun _ => (doSlotOnce y (wSlot w y) (meOf s me.val) b).1) s)))
  ∧ (∀ y : Bool, issuing s me.val tick b w = true → wFmt w = 0 → mMop (wSlot w y) = 2 → parFault s tick b w = none →
    exec (.st me y) s = .next (setBank me.val tick (doSlotOnce y (wSlot w y) (meOf s me.val) b).2
      (meUpd me.val (fun _ => (doSlotOnce y (wSlot w y) (meOf s me.val) b).1) s)))
  ∧ (∀ y : Bool, issuing s me.val tick b w = true → wFmt w = 0 → mMop (wSlot w y) = 3 → parFault s tick b w = none →
    exec (.ldb me y) s = .next (setBank me.val tick (doSlotOnce y (wSlot w y) (meOf s me.val) b).2
      (meUpd me.val (fun _ => (doSlotOnce y (wSlot w y) (meOf s me.val) b).1) s)))
  ∧ (∀ y : Bool, issuing s me.val tick b w = true → wFmt w = 0 → mMop (wSlot w y) = 4 → parFault s tick b w = none →
    exec (.pupd me y) s = .next (setBank me.val tick (doSlotOnce y (wSlot w y) (meOf s me.val) b).2
      (meUpd me.val (fun _ => (doSlotOnce y (wSlot w y) (meOf s me.val) b).1) s)))
  ∧ (∀ y : Bool, issuing s me.val tick b w = true → wFmt w = 0 → mMop (wSlot w y) = 1 → ∀ c, parFault s tick b w = some c →
    exec (.ld me y) s = .next (kernelFault me.val tick b c s))
  ∧ (issuingCtl s me.val tick b w 0x00 = true →
    exec (.cnop me) s = .next (ctlIssued me.val tick b [] s))
  ∧ (issuingCtl s me.val tick b w 0x01 = true →
    exec (.setv me) s = .next (ctlIssued me.val tick b (if bitOf (wCa w) 2 then (List.range 4).map (fun l => .lane (wCd w) l (wImm32 w))
      else [.lane (wCd w) (wCa w % 4) (wImm32 w)]) s))
  ∧ (issuingCtl s me.val tick b w 0x02 = true →
    exec (.setp me) s = .next (ctlIssued me.val tick b [.ptr (wCd w % 8) (wImm32 w % 65536)] s))
  ∧ (issuingCtl s me.val tick b w 0x03 = true →
    exec (.setm me) s = .next (ctlIssued me.val tick b [.modifier (wCd w % 8) (wImm16 w * 4294967296 + wImm32 w)] s))
  ∧ (issuingCtl s me.val tick b w 0x04 = true →
    exec (.addp me) s = .next (ctlIssued me.val tick b [.ptr (wCd w % 8) ((ptrOf b (wCd w % 8) + wImm16 w) % 65536)] s))
  ∧ (issuingCtl s me.val tick b w 0x09 = true →
    exec (.clrf me) s = .next (ctlIssued me.val tick b [.clear (wCa w)] s))
  ∧ (issuingCtl s me.val tick b w 0x0a = true →
    exec (.rdst me) s = .next (ctlIssued me.val tick b [.lane (wCd w) 0 (statOf b), .lane (wCd w) 1 0, .lane (wCd w) 2 0, .lane (wCd w) 3 0] s))
  ∧ (issuingCtl s me.val tick b w 0x05 = true → exec (.bra me) s = .next (setBank me.val tick (branchTo w b) s))
  ∧ (issuingCtl s me.val tick b w 0x06 = true →
    exec (.bcc me) s = .next (setBank me.val tick (if bccHolds w b then branchTo w b else advance b) s))
  ∧ (issuingCtl s me.val tick b w 0x07 = true → loopCount w b ≠ 0 → b.loops.length < 4 →
    exec (.loop me) s = .next (setBank me.val tick (endCycle { b with
      pc := b.pc + 1, loops := (b.pc + 1, wImm16 w % 16384, loopCount w b) :: b.loops }) s))
  ∧ (issuingCtl s me.val tick b w 0x07 = true → loopCount w b = 0 →
    exec (.loop me) s = .next (setBank me.val tick (endCycle { b with pc := wImm16 w % 16384 + 1 }) s))
  ∧ (issuingCtl s me.val tick b w 0x08 = true → ldcOffset w b % 16 = 0 →
    ldcOffset w b + 16 ≤ leAt (rdBlob s (K.KIMAGE b.kernel)) 16 4 →
    exec (.ldc me) s = .next (setBank me.val tick { b with stall := some (wCd w, ldcOffset w b) } s))
  ∧ (∀ r off, activeBank s me.val = some (tick, b) → b.stall = some (r, off) →
    exec (.ldcDataArrive me) s = .next (setBank me.val tick (advance (issue 1 ((List.range 4).map (fun l =>
      RegWrite.lane r l (leVal (memRead s (sharedAt s (clusterOf me.val) b.kernel + off + 4 * l) 4)))) { b with stall := none })) s))
  ∧ (issuingCtl s me.val tick b w 0x0B = true → exec (.halt me) s = .next (haltKernel me.val tick b (wImm32 w % 256) s))

/-- A tail write to a disabled queue, or one that would pass HEAD − 1 modulo 64, is only counted; one equal to the tail
has no effect; any other sets the tail and, in RUN, the slots up to it are read. A read of SQ.ERR returns the first
rejection and clears it; a read of ACCEPT_LO latches the high half. A non-durable item that passes the checks gets the
next acceptance number, is staged and enters its list; a rejected item is counted and its port gets the status; an
item a holding port keeps waits there. At a due instant the delayed items enter their lists, or a sleeping hub wakes.
After AFFINITY_WAIT a waiting non-strict item is eligible anywhere. -/
def Obligations.WorkIsSubmitted : Prop :=
  (∀ (q : Fin 8) (v : Nat) (s : State), rd s (K.SQ_EN q.val) = 0 →
    exec (.sqTailWrite q v) s = .next (bump (K.SQ_REJECTED q.val) s))
  ∧ (∀ (q : Fin 8) (v : Nat) (s : State), rd s (K.SQ_EN q.val) ≠ 0 → v % 64 = (sqOf s q.val).tail →
    exec (.sqTailWrite q v) s = .next s)
  ∧ (∀ (q : Fin 8) (v : Nat) (s : State), rd s (K.SQ_EN q.val) ≠ 0 → v % 64 ≠ (sqOf s q.val).tail →
    ((sqOf s q.val).head + 63 - (sqOf s q.val).tail) % 64 < (v % 64 + 64 - (sqOf s q.val).tail) % 64 →
    exec (.sqTailWrite q v) s = .next (bump (K.SQ_REJECTED q.val) s))
  ∧ (∀ (q : Fin 8) (v : Nat) (s : State), rd s (K.SQ_EN q.val) ≠ 0 → v % 64 ≠ (sqOf s q.val).tail →
    (v % 64 + 64 - (sqOf s q.val).tail) % 64 ≤ ((sqOf s q.val).head + 63 - (sqOf s q.val).tail) % 64 → hubPower s = hpRun →
    exec (.sqTailWrite q v) s = .next (sqRead q.val 64 (sqUpd q.val (fun x => { x with tail := v % 64 }) s)))
  ∧ (∀ (fn : Nat) (q : Fin 8) (s : State), exec (.sqErrRead fn q) s
      = .next (sqUpd q.val (fun x => { x with errStatus := 0, errSlot := 0, errCount := 0 })
        (emit (.regRead fn 0 (0x6108 + 0x10 * q.val) ((sqOf s q.val).errStatus * 16777216 + (sqOf s q.val).errSlot * 65536
          + (sqOf s q.val).errCount)) s)))
  ∧ (∀ (fn : Nat) (s : State), exec (.acceptLoRead fn) s
      = .next (emit (.regRead fn 0 0x600C (rd s K.LAST_ACCEPT % 4294967296))
        { s with sch.acceptHi := rd s K.LAST_ACCEPT / 4294967296 }))
  ∧ (∀ (source c : Nat) (any : Bool) (it jt : Item) (s : State), jt = { it with source := source, accept := 0 } →
    replaying s = false → serves s = true → isDurable it = false → enqueueCheck s source jt = .ok →
    parkedFor s jt = none → stageIn s jt = some (c, any) →
    exec (.workEnqueue source it) s = .next (emit (.enqueued source 0 s.sch.nextAccept)
      (place { it := { jt with accept := s.sch.nextAccept }, accept := s.sch.nextAccept, cluster := c, anywhere := any }
        (syncAccept (vane vEnqueue jt 0 0xFF c (bump (K.CL_STAGED c) { s with sch.nextAccept := s.sch.nextAccept + 1 }))))))
  ∧ (∀ (source : Nat) (it jt : Item) (s : State), jt = { it with source := source, accept := 0 } →
    replaying s = false → serves s = true → (isDurable it && s.pair.holding) = false → enqueueCheck s source jt ≠ .ok →
    exec (.workEnqueue source it) s = .next (emit (.enqueued source (enqueueCheck s source jt).code 0)
      (bump K.ENQ_REJECTS (vane vReject jt 0 0xFF (enqueueCheck s source jt).code s))))
  ∧ (∀ (source : Nat) (it : Item) (s : State), replaying s = true ∨ serves s = false →
    exec (.workEnqueue source it) s = .next { s with
      sch.held := s.sch.held ++ [(source, .host { it := it } 0)] })
  ∧ (∀ s : State, hubPower s = hpRun → exec .delayDue s = .next (delayDue s))
  ∧ (∀ (s : State) (t : Instant), hubPower s ≠ hpRun → delayFirst s = some t → t ≤ s.isb.now →
    exec .delayDue s = .next (wakeHub 0x12 s))
  ∧ (∀ (accept : Nat) (s : State), exec (.affinityWaitExpiry accept) s
      = .next { s with sch.ready := tabMap [] s.sch.ready (fun _ l => l.map (fun st =>
        if decide (st.accept = accept) && !isStrict st.it && st.firstAt.any (fun t =>
          decide (t + rd s K.AFFINITY_WAIT * us1 ≤ clk s)) then { st with waited := true } else st)) })

/-- On a hub that serves, the oldest entry not yet accepted takes effect: outside a HEALTHY pair once written, in one once
the peer's copy is confirmed, or 20 µs after it was written, when the pair is DEGRADED and holds new durable work. A
checkpoint that is due (its period has passed, or the journal is half full) takes the durable state as it stands,
unless one is being written; complete, it replaces the older of the two areas and frees what may be freed. A copied
journal makes its channel a mirror. -/
def Obligations.JournalAcceptsAndCheckpoints : Prop :=
  (∀ (s : State) (e : JEntry), nextEntry s = some e → serves s = true → (pairHealthy s && !e.peerAck) = false →
    exec .journalAccept s = .next (acceptEntry e s))
  ∧ (∀ (s : State) (e : JEntry), nextEntry s = some e → pairHealthy s = true → e.peerAck = false →
    exec .journalAccept s = .next s)
  ∧ (∀ (s : State) (e : JEntry), nextEntry s = some e → serves s = true → pairHealthy s = true → e.peerAck = false →
    e.writtenAt + 20 * us1 ≤ clk s → exec .peerCopyTimeout s
      = .next (acceptEntry e (setPairState 3 { s with pair.holding := true, pair.holdAt := clk s })))
  ∧ (∀ s : State, s.sch.cpRunning = none → s.sch.cpDue = true ∨ s.sch.cpAt + rd s K.CHECKPOINT_PERIOD * ms1 ≤ clk s →
    exec .checkpoint s = .next { s with sch.cpRunning := some (snapshot s), sch.cpAt := clk s, sch.cpDue := false })
  ∧ (∀ s : State, s.sch.cpDue = false → clk s < s.sch.cpAt + rd s K.CHECKPOINT_PERIOD * ms1 → exec .checkpoint s = .next s)
  ∧ (∀ s : State, (snapshot s).highest = checkpointReach s ∧ (snapshot s).votes = s.fld.votes
    ∧ (snapshot s).launches = s.isb.launches ∧ (snapshot s).claims = s.dic.claims)
  ∧ (∀ (s : State) (c : Snapshot), s.sch.cpRunning = some c → exec .checkpointComplete s
      = .next (jrnlFree (wr K.CHECKPOINT_AT (nowNs s) { s with sch.cpRunning := none, sch.cps := c :: s.sch.cps.take 1 })))
  ∧ (∀ (s : State) (c m : Nat) (l r : List Nat), s.sch.copying = c :: l → mirrorChans s = m :: r → exec .mirrorCopyDone s
      = .next { (wr K.JRNL_MIRRORS (withBit (rd (regionCopy m c s) K.JRNL_MIRRORS) c true) (regionCopy m c s)) with
        sch.copying := l })

/-- An idle engine that asks takes the item the scan of the levels finds: it starts, as a kernel where its TYPE is bound
to one. A completed firmware item is released through its flow. A run past the limit it started with, time in tick
kernels left out, and a fault, count an upset of the engine and its item is dispatched again; the upset that retires
the engine takes it out of service. A cluster fault does the same of the items staged there. At an enabled slot's
boundary a good block is taken, the next one written, and the engine starts bank 1 at ENTRY; a tick still running
then, or at its budget, is stopped and counted. A written image's validation ends in LOADED or REJECTED. -/
def Obligations.EnginesRunItems : Prop :=
  (∀ (me : Fin 128) (s u : State) (st : Staged), (meOf s me.val).tick.running = false → meAsks s me.val = true →
    scanLevels me.val (List.range 16) s = (some st, u) →
    exec (.meWorkRequest me) s = .next (if 0x100 ≤ st.it.typ ∧ st.it.typ ≤ 0xFFF
      then kernelStart me.val st (startItem me.val st (meWakes me.val u)) else startItem me.val st (meWakes me.val u)))
  ∧ (∀ (me : Fin 128) (s u : State), (meOf s me.val).tick.running = false → meAsks s me.val = true →
    scanLevels me.val (List.range 16) s = (none, u) → exec (.meWorkRequest me) s = .next u)
  ∧ (∀ (me : Fin 128) (actions : List OutAct) (s : State) (st : Staged), (meOf s me.val).work.running = false →
    runningOn s me.val = some st → exec (.itemComplete me actions) s
      = .next (completeItem me.val st actions (vane vComplete st.it st.accept me.val ((clk s - st.startedAt) / ns1)
        (endRun me.val st s))))
  ∧ (∀ (me : Fin 128) (s : State) (st : Staged), runningOn s me.val = some st →
    st.startedAt + st.limit + st.paused + tickTook s me.val < clk s → exec (.runLimitExceeded me) s = exec (.meFault me) s)
  ∧ (∀ (me : Fin 128) (s : State) (st : Staged), runningOn s me.val = some st →
    clk s ≤ st.startedAt + st.limit + st.paused + tickTook s me.val → exec (.runLimitExceeded me) s = .next s)
  ∧ (∀ (me : Fin 128) (s u : State), upset cME me.val (bump (K.ME_UPSETS me.val) s) = (u, false) →
    exec (.meFault me) s = .next (stopBanks (redispatch me.val u)))
  ∧ (∀ (me : Fin 128) (s u : State), upset cME me.val (bump (K.ME_UPSETS me.val) s) = (u, true) →
    exec (.meFault me) s = .next (clusterUpset (clusterOf me.val)
      (ticksMove (fun m => m == me.val) (wr (K.ME_STATE me.val) 3 (stopBanks (redispatch me.val u))))))
  ∧ (∀ (cl : Fin 8) (s u : State), upset cCluster cl.val s = (u, false) →
    exec (.clusterFault cl) s = .next (stopBanks (clusterLost cl.val u)))
  ∧ (∀ (cl : Fin 8) (s u : State), upset cCluster cl.val s = (u, true) → exec (.clusterFault cl) s
      = .next (ticksMove (fun me => clusterOf me == cl.val) (stopBanks (clusterLost cl.val (wr (K.CL_STATE cl.val) 4 u)))))
  ∧ (∀ (t : Fin 8) (me : Nat) (s : State), rd s (K.T_ACTIVE_ME t.val) = me → rd s (K.T_EN t.val) ≠ 0 → atBoundary s = true →
    boundaryNow s % rd s (K.T_PERIOD t.val) = 0 → me < 128 → (meOf s me).tick.running = false →
    ∀ w : State, w = tickUpd t.val (fun x => { x with ran := true }) (tickWrite t.val (tickTake t.val me s) me) →
    exec (.tickBoundary t) s = .next (bump (K.KRUNS (rd w (K.T_KERNEL t.val)))
      (meUpd me (fun y => { y with tick := tickBank w (rd w (K.T_KERNEL t.val)) y.tick, tickAt := clk w }) w)))
  ∧ (∀ (t : Fin 8) (s : State), rd s (K.T_EN t.val) ≠ 0 → atBoundary s = true →
    boundaryNow s % rd s (K.T_PERIOD t.val) = 0 → 128 ≤ rd s (K.T_ACTIVE_ME t.val) →
    exec (.tickBoundary t) s = .next (tickUpd t.val (fun x => { x with ran := true })
      (bump (K.T_OVERRUNS t.val) (tickTake t.val (rd s (K.T_ACTIVE_ME t.val)) s))))
  ∧ (∀ (t : Fin 8) (me : Nat) (s : State), rd s (K.T_ACTIVE_ME t.val) = me → rd s (K.T_EN t.val) ≠ 0 → me < 128 →
    (meOf s me).tick.running = true → rd s (K.T_BUDGET t.val) * fineTick ≤ tickTook s me → exec (.tickBudgetExpiry t) s
      = .next (tickLost me (tickStop me s)))
  ∧ (∀ (k : Fin 64) (s : State), rd s (K.KSTATE k.val) = ksValidating → ∀ c i, imgCheck s (rdBlob s (K.KIMAGE k.val)) = some (c, i) →
    exec (.kimageValidated k) s = .next (wr (K.KERR k.val) (c + 256 * i) (wr (K.KSTATE k.val) ksRejected s)))
  ∧ (∀ (k : Fin 64) (s u : State) (img : Bytes), rd s (K.KSTATE k.val) = ksValidating → img = rdBlob s (K.KIMAGE k.val) →
    imgCheck s img = none →
    u = sharedInit k.val img { s with dsp.placed := tabSet none s.dsp.placed k.val (imgPlace s img) } →
    exec (.kimageValidated k) s
      = .next (syncKernelSpace (wr (K.KERR k.val) 0 (wr (K.KCODE k.val) (codeLen img) (wr (K.KID k.val) (leAt img 8 4)
        (wr (K.KSTATE k.val) ksLoaded u))))))

/-- At the sample boundary after the enable a master drives its clocks and begins its lead-in of zero frames with filled
buffers, an EXTERNAL port waits for lock. Twenty good frames with a rate within 2 % start the lead-in of a waiting
port, or let a port that lost its clock go on. After START_FRAMES, at a sample boundary, an ungrouped port's data
ramps in and it is RUN; a group's member waits. After the ramp out it sends zero frames and is then OFF, at once where
it has no clock. A clock without an edge for two nominal frames counts a loss, an underrun and an upset; a running
port's inputs go STALE and it is CLOCK_LOST; one in time and in range is not lost. A STALE feed fades out after
STALE_FADE. A frame of a port with an ASRC takes DI and sends DO, and 0 while it waits for lock or has lost its clock. -/
def Obligations.SerialPortsRun : Prop :=
  (∀ (n : Fin 8) (s : State), (sapOf s n.val).phase = 1 → atBoundary s = true → (sapOf s n.val).since < clk s →
    sapMaster s n.val = true → exec (.sapClocksStart n) s
    = .next (sapSync n.val (emit (.sapClock n.val (sapBclk s n.val))
        (sapUpd n.val (fun p => { (sapFill s n.val p) with phase := 3, frames := 0 }) s))))
  ∧ (∀ (n : Fin 8) (s : State), (sapOf s n.val).phase = 1 → atBoundary s = true → (sapOf s n.val).since < clk s →
    sapMaster s n.val = false → exec (.sapClocksStart n) s
    = .next (sapAsrc 3 n.val (sapUpd n.val (fun p => { p with phase := 2 }) s)))
  ∧ (∀ (n : Fin 8) (s u : State), sapMaster s n.val = false → (sapOf s n.val).phase = 2 →
    20 ≤ (sapOf s n.val).fs.good → rateHolds s n.val = true → u = sapAsrc 2 n.val s → exec (.sapLocked n) s
    = .next (sapSync n.val (wr (K.SAP_STATE n.val) sapStarting
      (sapUpd n.val (fun p => { (sapFill u n.val p) with phase := 3, frames := 0, lost := false }) u))))
  ∧ (∀ (n : Fin 8) (s : State), sapMaster s n.val = false → (sapOf s n.val).phase = 5 →
    (sapOf s n.val).lost = true → 20 ≤ (sapOf s n.val).fs.good → rateHolds s n.val = true → exec (.sapLocked n) s
    = .next (sapSync n.val (wr (K.SAP_STATE n.val) sapRun (sapUpd n.val (fun p => { p with lost := false })
      (sapAsrc 2 n.val s)))))
  ∧ (∀ (n : Fin 8) (s : State), (sapOf s n.val).phase = 3 → rd s (K.START_FRAMES n.val) ≤ (sapOf s n.val).frames →
    atBoundary s = true → rd s (K.GROUP n.val) = 0xFF → exec (.sapStartFramesDone n) s
    = .next (sapUpd n.val (fun p => { p with phase := 5, feed.gate := rampTo 0x8000 240 p.feed.gate })
      (wr (K.SAP_STATE n.val) sapRun s)))
  ∧ (∀ (n : Fin 8) (s : State), (sapOf s n.val).phase = 3 → rd s (K.START_FRAMES n.val) ≤ (sapOf s n.val).frames →
    atBoundary s = true → rd s (K.GROUP n.val) ≠ 0xFF →
    exec (.sapStartFramesDone n) s = .next (sapUpd n.val (fun p => { p with phase := 4 }) s))
  ∧ (∀ (n : Fin 8) (s : State), (sapOf s n.val).phase = 6 → rampDone (sapOf s n.val).feed.gate = true →
    rd s (K.ASRC_STATE n.val) ≠ 3 →
    exec (.sapRampOutDone n) s = .next (sapUpd n.val (fun p => { p with phase := 7, frames := 0 }) s))
  ∧ (∀ (n : Fin 8) (s : State), (sapOf s n.val).phase = 6 → rampDone (sapOf s n.val).feed.gate = true →
    rd s (K.ASRC_STATE n.val) = 3 → exec (.sapRampOutDone n) s = .next (sapStop n.val s))
  ∧ (∀ (n : Fin 8) (s : State), (sapOf s n.val).phase = 7 → rd s (K.START_FRAMES n.val) ≤ (sapOf s n.val).frames →
    exec (.sapStopFramesDone n) s = .next (sapStop n.val s))
  ∧ (∀ (n : Fin 8) (s u : State), sapMaster s n.val = false → (sapOf s n.val).phase = 5 →
    (sapOf s n.val).lost = false → (sapOf s n.val).fs.last = none →
    u = sapPin n.val 3 false (sapAsrc 3 n.val (sapUpd n.val (fun p => { p with fs := {} })
      (bump (K.UNDERRUNS n.val) (bump (K.CLOCK_LOSSES n.val) (wr (K.MEASURED_RATE n.val) 0 s))))) →
    exec (.clockLost n) s = .next (sapUpset n.val (sapSync n.val (wr (K.SAP_STATE n.val) sapClockLost
      (sapUpd n.val (fun p => { p with lost := true, feed := feedStale (clk u) p.feed }) u)))))
  ∧ (∀ (n : Fin 8) (l : Instant) (s u : State), sapMaster s n.val = false → (sapOf s n.val).phase = 5 →
    (sapOf s n.val).lost = false → (sapOf s n.val).fs.last = some l → 2 * s1 ≤ (clk s - l) * rd s (K.RATE n.val) →
    u = sapPin n.val 3 false (sapAsrc 3 n.val (sapUpd n.val (fun p => { p with fs := {} })
      (bump (K.UNDERRUNS n.val) (bump (K.CLOCK_LOSSES n.val) (wr (K.MEASURED_RATE n.val) 0 s))))) →
    exec (.clockLost n) s = .next (sapUpset n.val (sapSync n.val (wr (K.SAP_STATE n.val) sapClockLost
      (sapUpd n.val (fun p => { p with lost := true, feed := feedStale (clk u) p.feed }) u)))))
  ∧ (∀ (n : Fin 8) (l : Instant) (s : State), (sapOf s n.val).fs.last = some l →
    (clk s - l) * rd s (K.RATE n.val) < 2 * s1 → rateHolds s n.val = true → exec (.clockLost n) s = .next s)
  ∧ (∀ (n : Fin 8) (s : State), (sapMaster s n.val || (sapOf s n.val).lost) = true → exec (.clockLost n) s = .next s)
  ∧ (∀ (n : Nat) (s : State), rd s (K.STALE_FADE n) ≠ 0 → (sapOf s n).feed.stale = true →
    (sapOf s n).feed.staleAt + rd s (K.STALE_FADE n) * ms1 ≤ clk s → (sapOf s n).feed.fade.new ≠ 0 →
    exec (.staleFadeExpiry false n) s
      = .next (sapUpd n (fun x => { x with feed := { x.feed with fade := rampTo 0 240 x.feed.fade } }) s))
  ∧ (∀ (n : Nat) (s : State), rd s (K.EP_STALE_FADE n) ≠ 0 → (rxOf s n).feed.stale = true →
    (rxOf s n).feed.staleAt + rd s (K.EP_STALE_FADE n) * ms1 ≤ clk s → (rxOf s n).feed.fade.new ≠ 0 →
    exec (.staleFadeExpiry true n) s
      = .next (rxUpd n (fun x => { x with feed := { x.feed with fade := rampTo 0 240 x.feed.fade } }) s))
  ∧ (∀ (n : Fin 8) (di : List Int) (s u : State), sapBypass s n.val = false → 3 ≤ (sapOf s n.val).phase →
    (sapOf s n.val).phase < 8 → (sapOf s n.val).lost = false → frameNow s n.val = true →
    u = (if sapMaster s n.val then sapUpd n.val (fun p => { p with fs := { p.fs with last := some (clk s) } }) s
      else fsEdge n.val s) → exec (.sapFrame n di) s
    = .next (sapSync n.val (sapDo n.val (sapDi n.val di (sapUpd n.val (fun p => { p with frames := p.frames + 1 }) u)))))
  ∧ (∀ (n : Fin 8) (di : List Int) (s u : State), sapBypass s n.val = false → 2 ≤ (sapOf s n.val).phase →
    (sapOf s n.val).phase < 8 → (sapOf s n.val).phase = 2 ∨ (sapOf s n.val).lost = true → frameNow s n.val = true →
    u = (if sapMaster s n.val then sapUpd n.val (fun p => { p with fs := { p.fs with last := some (clk s) } }) s
      else fsEdge n.val s) →
    exec (.sapFrame n di) s = .next (sapSend n.val (List.replicate (rd u (K.OUT_CH n.val)) 0) u))

/-- At a sample boundary with PD13 in RUN and the mode not SAFE the hub mixes; the nodes take their samples at once with
it. A BAR2 write of 4 or 8 aligned octets writes a node of an open bank and is discarded and counted in a closed one.
XP_COPY_DONE fills the inactive bank, but for the words written meanwhile, and completes the command. Each enabled
loudness meter with a full 100 ms updates. The decision whose T_s has come takes effect. At a multiple of 10 ms
preselection runs; its first two passes give a leg a free position, the first also the quietest. Candidate inputs
without packets for 60 ms fade out; VOICE talkers above the threshold for VOICE_HANG close; a language with no live
desk for its delay falls back to the floor. A group's full frame is encoded and sent to its legs. -/
def Obligations.MixerAndTalkersRun : Prop :=
  (∀ (di : List (List Int)) (mics : List (Nat × Nat × Int)) (s u : State), atBoundary s = true →
    (rd s (K.PD_STATE 13) = 0 ∧ modeOf s ≠ mSafe) → u = hubSample (boundaryNow s) di s →
    exec (.audioSampleBoundary di mics) s = .next (u.fld.nodes.foldl (fun x e =>
      nodeSample (sampleAtOrAfter (fieldNow u - 31250 * ns1 / 3)) mics x e.1) u))
  ∧ (∀ (di : List (List Int)) (mics : List (Nat × Nat × Int)) (s : State), atBoundary s = true →
    (rd s (K.PD_STATE 13) ≠ 0 ∨ modeOf s = mSafe) →
    exec (.audioSampleBoundary di mics) s = .next (s.fld.nodes.foldl (fun x e =>
      nodeSample (sampleAtOrAfter (fieldNow s - 31250 * ns1 / 3)) mics x e.1) s))
  ∧ (∀ (offset data : Nat) (s : State), offset % 4 = 0 → offset < 0x800000 → bankOpen s 0 (offset / 0x400000) = true →
    exec (.bar2Write offset 4 data) s
      = .next (nodePut (offset / 0x400000) (offset % 0x400000 / 4) (data % 4294967296) s))
  ∧ (∀ (offset data : Nat) (s : State), offset % 4 = 0 → offset < 0x800000 → bankOpen s 0 (offset / 0x400000) = false →
    exec (.bar2Write offset 4 data) s = .next (bump K.WRITES_REFUSED { s with mix.refused := true }))
  ∧ (∀ (offset width data : Nat) (s : State), ¬((width = 4 ∨ width = 8) ∧ offset % width = 0 ∧ offset < 0x1000000) →
    exec (.bar2Write offset width data) s = .next (badAccess 2 offset s))
  ∧ (∀ s : State, s.mix.copying = some 0 → exec .xpCopyDone s
    = .next (cmdComplete 0x6400 5 .ok { (xpBankUpd (1 - activeBankOf s 0)
        (mergeCopy 0 s.mix.written (xpBank s (activeBankOf s 0))) s) with mix.copying := none, mix.written := [] }))
  ∧ (∀ s : State, s.mix.copying = some 3 → exec .xpCopyDone s
    = .next (cmdComplete 0x6400 6 .ok { (xpBankUpd (1 - activeBankOf s 0)
        (mergeCopy 0 s.mix.written (presetBank s)) s) with mix.copying := none, mix.written := [] }))
  ∧ (∀ (side : Fin 2) (s : State), s.mix.copying = some (side.val + 1) → exec .xpCopyDone s
    = .next (cmdComplete 0x6400 5 .ok { (eqBankUpd side.val (1 - activeBankOf s (side.val + 1))
        (mergeCopy [] s.mix.written (eqBank s side.val (activeBankOf s (side.val + 1)))) s) with
          mix.copying := none, mix.written := [] }))
  ∧ (∀ s : State, exec .loudnessUpdate s
    = .next ((List.range 16).foldl (fun s m =>
      if rd s (K.LM_EN m) = 1 ∧ loudSeg ≤ (tabGet {} s.mix.loud m).seg.length then loudUpdate m s else s) s))
  ∧ (∀ (s : State) (d : Decision) (rest : List Decision) (t : Instant), s.mix.tm.decisions = d :: rest → d.at_ = some t →
    t ≤ s.isb.now → exec .talkerSwitch s = .next (tmFailures (tmApply d s)))
  ∧ (∀ s : State, s.isb.now % (10 * ms1) = 0 → exec .preselection s = .next (preselection s))
  ∧ (∀ (s : State) (p c : Nat), candOf s p = none → freeCand s = some c → presel1 s p = candAssign c (some p) s)
  ∧ (∀ (s : State) (p c l : Nat), candOf s p = none → freeCand s = none →
    quietest s (fun l _ => !legPinned s l) = some (c, l) → presel1 s p = candAssign c (some p) s)
  ∧ (∀ (s : State) (q c : Nat) (rest : List Nat), candOf s q = none → freeCand s = some c →
    presel2 (q :: rest) s = presel2 rest (candAssign c (some q) s))
  ∧ (∀ (c : Fin 64) (s : State), (candAt s c.val).leg.isNone = false → (candAt s c.val).concealed = false →
    (candAt s c.val).packetAt + 60 * ms1 ≤ clk s → exec (.candidateConcealEnd c) s
      = .next (candUpd c.val (fun x => { x with concealed := true, fade := rampTo 0 240 x.fade }) s))
  ∧ (∀ (leg : Nat) (s : State) (t : Talker) (q : Instant), tmOpenOf s (65536 + leg) = some t → t.voice = true →
    (legAudio s leg).quietAt = some q → q + rd s K.VOICE_HANG * ms1 ≤ clk s →
    exec (.voiceHangExpiry leg) s = .next (tmDecide [] [65536 + leg] true none s))
  ∧ (∀ (l : Nat) (s : State), l ≠ 0 → l < 32 → rd s (K.FALLBACK (l - 1)) ≠ 0 → (langOf s l).live = false →
    (langOf s l).fallback = false → (langOf s l).lastLive + rd s (K.FALLBACK_DELAY (l - 1)) * ms1 ≤ clk s →
    exec (.languageFallback l) s = .next (langFade l true s))
  ∧ (∀ (g : Fin 64) (n : Nat) (s u : State) (e : List Nat × Nat), s.isb.now % groupFrame s g.val = 0 → n = groupSamples s g.val → rd s (K.SE_EN g.val) ≠ 0 →
    n ≤ ((tabGet [] s.mix.encWait g.val).take n).length → (positionsHeld s).filter (fun h => h.2.1 == g.val) = [] →
    e = encodeRow (groupParams s g.val) (tabGet 0 s.mix.encoders g.val) ((tabGet [] s.mix.encWait g.val).take n).reverse →
    u = ((upLegs s).filter (fun l => legGroup s l == g.val)).foldl (fun s' l =>
      sendAudio l g.val (sampleAtOrAfter s.isb.now - n) e.1 s') { s with mix.encoders := tabSet 0 s.mix.encoders g.val e.2 } →
    exec (.groupFrameBoundary g) s = .next { u with mix.encWait := tabErase u.mix.encWait g.val })

/-- AUDIO_SAMPLE_BOUNDARY off a sample boundary changes nothing; at one it answers the hub's sample, when PD13 is in RUN
and the mode is not SAFE, and then each node's. BAR2_WRITE of 8 aligned octets writes two nodes of an open bank; a
write inside a section record of an open bank patches the record; one at an address of Table MIX-4 that is not there
changes nothing. XP_COPY_DONE with no copy running changes nothing; with one it answers the bank's copy and the end of
its command. LOUDNESS_UPDATE with one meter enabled and full updates that meter, and with none changes nothing. -/
def Obligations.MixerCommandsComplete : Prop :=
  (∀ (di : List (List Int)) (mics : List (Nat × Nat × Int)) (s : State), atBoundary s = false →
    exec (.audioSampleBoundary di mics) s = .next s)
  ∧ (∀ (di : List (List Int)) (mics : List (Nat × Nat × Int)) (s : State), atBoundary s = true → s.fld.nodes = [] →
    rd s (K.PD_STATE 13) ≠ 0 ∨ modeOf s = mSafe → exec (.audioSampleBoundary di mics) s = .next s)
  ∧ (∀ (di : List (List Int)) (mics : List (Nat × Nat × Int)) (s : State), atBoundary s = true →
    rd s (K.PD_STATE 13) = 0 → modeOf s ≠ mSafe → (hubSample (boundaryNow s) di s).fld.nodes = [] →
    exec (.audioSampleBoundary di mics) s = .next (hubSample (boundaryNow s) di s))
  ∧ (∀ (offset data : Nat) (s : State), offset % 8 = 0 → offset < 0x800000 → bankOpen s 0 (offset / 0x400000) = true →
    exec (.bar2Write offset 8 data) s = .next (nodePut (offset / 0x400000) (offset % 0x400000 / 4 + 1) (data / 4294967296)
      (nodePut (offset / 0x400000) (offset % 0x400000 / 4) (data % 4294967296) s)))
  ∧ (∀ (offset width data side bank k off : Nat) (s : State), (width = 4 ∨ width = 8) → offset % width = 0 →
    offset < 0x1000000 → bar2Item offset = some (side + 1, bank, k, off) → bankOpen s (side + 1) bank = true →
    exec (.bar2Write offset width data) s
      = .next (sectionPut side bank k (patch (eqRec (eqBank s side bank) k) off (leBytes width data)) s))
  ∧ (∀ (offset width data side bank k off : Nat) (s : State), (width = 4 ∨ width = 8) → offset % width = 0 →
    offset < 0x1000000 → bar2Item offset = some (side + 1, bank, k, off) → bankOpen s (side + 1) bank = false →
    exec (.bar2Write offset width data) s = .next (bump K.WRITES_REFUSED { s with mix.refused := true }))
  ∧ (∀ (offset width data : Nat) (s : State), (width = 4 ∨ width = 8) → offset % width = 0 → 0x980000 ≤ offset →
    offset < 0x1000000 → exec (.bar2Write offset width data) s = .next s)
  ∧ (∀ s : State, s.mix.copying = none → exec .xpCopyDone s = .next s)
  ∧ (∀ (n : Nat) (s : State), s.mix.copying = some n → ∃ (sub : Nat) (u : State),
    exec .xpCopyDone s = .next (cmdComplete 0x6400 sub .ok { u with mix.copying := none, mix.written := [] })
      ∧ sub = (if n = 3 then 6 else 5))
  ∧ (∀ s : State, (∀ m, m < 16 → rd s (K.LM_EN m) ≠ 1 ∨ (tabGet {} s.mix.loud m).seg.length < loudSeg) →
    exec .loudnessUpdate s = .next s)

/-- TALKER_SWITCH with no decision due fails the pending ones that must; with one due it answers its closes, opens and
retarget. PRESELECTION off a multiple of 10 ms changes nothing. CANDIDATE_CONCEAL_END and VOICE_HANG_EXPIRY before
their time change nothing; at it the candidate's input begins its ramp to 0, and the talker is closed by a decision.
LANGUAGE_FALLBACK of a language that has no fallback, is live or has fallen back changes nothing; else its fade to the
floor begins at once. -/
def Obligations.TalkerCommandsComplete : Prop :=
  (∀ s : State, s.mix.tm.decisions.find? (decisionDue s) = none →
    exec .talkerSwitch s = .next (tmFailures s))
  ∧ (∀ (s u : State) (d : Decision),
    s.mix.tm.decisions.find? (decisionDue s) = some d →
    u = tmUpd (fun x => { x with decisions := x.decisions.erase d, ducking := d.duck.getD x.ducking }) s →
    exec .talkerSwitch s = .next (tmFailures (tmRetarget (d.opens.foldl tmOpenNow (d.closes.foldl tmCloseNow u)))))
  ∧ (∀ s : State, s.isb.now % (10 * ms1) ≠ 0 → exec .preselection s = .next s)
  ∧ (∀ s : State, s.isb.now % (10 * ms1) = 0 → exec .preselection s = .next (preselection s))
  ∧ (∀ (c : Fin 64) (s : State), clk s < (candAt s c.val).packetAt + 60 * ms1 → exec (.candidateConcealEnd c) s = .next s)
  ∧ (∀ (c : Fin 64) (l : Nat) (s : State), (candAt s c.val).leg = some l → (candAt s c.val).concealed = false →
    (candAt s c.val).packetAt + 60 * ms1 ≤ clk s → exec (.candidateConcealEnd c) s
      = .next (candUpd c.val (fun x => { x with concealed := true, fade := rampTo 0 240 x.fade }) s))
  ∧ (∀ (leg : Nat) (s : State), tmOpenOf s (65536 + leg) = none → exec (.voiceHangExpiry leg) s = .next s)
  ∧ (∀ (leg : Nat) (s : State) (t : Talker) (q : Instant), tmOpenOf s (65536 + leg) = some t →
    (legAudio s leg).quietAt = some q → t.voice = false ∨ clk s < q + rd s K.VOICE_HANG * ms1 →
    exec (.voiceHangExpiry leg) s = .next s)
  ∧ (∀ (l : Nat) (s : State), l = 0 ∨ 32 ≤ l ∨ rd s (K.FALLBACK (l - 1)) = 0 ∨ (langOf s l).live = true
      ∨ (langOf s l).fallback = true → exec (.languageFallback l) s = .next s)
  ∧ (∀ (l : Nat) (s : State), l ≠ 0 → l < 32 → rd s (K.FALLBACK (l - 1)) ≠ 0 → (langOf s l).live = false →
    (langOf s l).fallback = false → (langOf s l).lastLive + rd s (K.FALLBACK_DELAY (l - 1)) * ms1 ≤ clk s →
    exec (.languageFallback l) s = .next (langUpd l (fun x => { x with
      fallback := true, fade := fadeTo (b2n x.fallback) 1 240 s.isb.now x.fade }) s))

/-- GROUP_FRAME_BOUNDARY at an instant that is no multiple of the group's frame changes nothing. At one, where no talker
holds a position in the group: a disabled group, or one whose frame is not full, sends nothing and starts a new frame;
an enabled one with a full frame encodes it once, keeps its encoder's state and sends the payload to every leg of the
group. -/
def Obligations.GroupFramesAreEncoded : Prop :=
  (∀ (g : Fin 64) (s : State), s.isb.now % groupFrame s g.val ≠ 0 → exec (.groupFrameBoundary g) s = .next s)
  ∧ (∀ (g : Fin 64) (s : State), s.isb.now % groupFrame s g.val = 0 → (positionsHeld s).filter (fun h => h.2.1 == g.val) = [] →
    rd s (K.SE_EN g.val) = 0 ∨ ((tabGet [] s.mix.encWait g.val).take (groupSamples s g.val)).length < groupSamples s g.val →
    exec (.groupFrameBoundary g) s = .next { s with mix.encWait := tabErase s.mix.encWait g.val })
  ∧ (∀ (g : Fin 64) (n : Nat) (s u : State) (e : List Nat × Nat), s.isb.now % groupFrame s g.val = 0 →
    n = groupSamples s g.val → rd s (K.SE_EN g.val) ≠ 0 → n ≤ ((tabGet [] s.mix.encWait g.val).take n).length →
    (positionsHeld s).filter (fun h => h.2.1 == g.val) = [] →
    e = encodeRow (groupParams s g.val) (tabGet 0 s.mix.encoders g.val) ((tabGet [] s.mix.encWait g.val).take n).reverse →
    u = ((upLegs s).filter (fun l => legGroup s l == g.val)).foldl (fun s' l =>
      sendAudio l g.val (sampleAtOrAfter s.isb.now - n) e.1 s') { s with mix.encoders := tabSet 0 s.mix.encoders g.val e.2 } →
    exec (.groupFrameBoundary g) s = .next { u with mix.encWait := tabErase u.mix.encWait g.val })

/-- A frame on a port that is UP is counted as a line error, an oversize or runt, or an FCS error, or it is counted,
classified by Table PKT-3 and takes its fate while cells are free; one whose address or tag does not suit the port is
dropped. PAUSE and PFC set the pause times of a port that obeys them; at their end legs wake. A congested port repeats
its PAUSE at half the quanta. A lost link trains again and counts an upset; training complete makes it UP and wakes
its legs. A second's FEC counts are added, above the limit with an upset. A free transmitter picks its next frame. The
pool leaves spill mode when drained; tests, audits and the management link set their registers. -/
def Obligations.PortsAndFramesAct : Prop :=
  (∀ (p : Fin 8) (f : Frame) (s t : State), portUp s p.val = true → f.pcsBad = false → 64 ≤ f.len + 4 →
    f.len + 4 ≤ rd s (K.MAX_FRAME p.val) → f.fcsBad = false →
    t = bumpBy (K.FRAME_COUNTS p.val 1) (f.len + 4) (bump (K.FRAME_COUNTS p.val 0) s) →
    noCells t (classify t p.val f) f.len = false → poolSpill t = false →
    exec (.ethFrameReceived p f) s = .next (runFate p.val f (classify t p.val f) t))
  ∧ (∀ (p : Fin 8) (f : Frame) (s : State), portUp s p.val = true → f.pcsBad = true →
    exec (.ethFrameReceived p f) s = .next (bump (K.RX_ERR p.val 2) s))
  ∧ (∀ (p : Fin 8) (f : Frame) (s : State), portUp s p.val = true → f.pcsBad = false →
    (f.len + 4 < 64 ∨ rd s (K.MAX_FRAME p.val) < f.len + 4) →
    exec (.ethFrameReceived p f) s = .next (bump (K.RX_ERR p.val 1) s))
  ∧ (∀ (p : Fin 8) (f : Frame) (s : State), portUp s p.val = true → f.pcsBad = false → 64 ≤ f.len + 4 →
    f.len + 4 ≤ rd s (K.MAX_FRAME p.val) → f.fcsBad = true →
    exec (.ethFrameReceived p f) s = .next (bump (K.RX_ERR p.val 0) s))
  ∧ (∀ (p : Nat) (f : Frame) (s : State), (macAccepted s p f.dst = false ∨ vlanMismatch s p f = true) →
    runFate p f (classify s p f) s = bump (K.PARSE_DROPS 0) s)
  ∧ (∀ (f : Frame) (s : State), rd s K.MGMT_STATE ≠ 0 → f.fcsBad = false → f.pcsBad = false → f.len + 4 ≤ 1522 →
    exec (.mgmtFrameReceived f) s = .next (mgmtFrame f s))
  ∧ (∀ (p : Fin 9) (q : Nat) (s t : State), p.val ≠ 8 → t = bump (K.PAUSE_RECEIVED p.val) s →
    rd t (K.RX_PAUSE_EN p.val) ≠ 0 → exec (.pauseReceived p q) s
      = .next (pauseSync p.val (txPortUpd p.val (fun x => { x with pauseEnd := clk t + quantaTime t p.val q }) t)))
  ∧ (∀ (q : Nat) (s : State), exec (.pauseReceived 8 q) s
    = .next (txPortUpd 8 (fun x => { x with pauseEnd := clk s + quantaTime s 8 q }) s))
  ∧ (∀ (p : Fin 8) (en : Nat) (q : List Nat) (s t : State), t = bump (K.PAUSE_RECEIVED p.val) s →
    rd t (K.RX_PAUSE_EN p.val) ≠ 0 → exec (.pfcReceived p en q) s
      = .next (pauseSync p.val (txPortUpd p.val (fun x => { x with pfcEnd := (List.range 8).foldl (fun e i =>
          if bitOf en i then tabSet 0 e i (clk t + quantaTime t p.val (q.getD i 0)) else e) (txPort t p.val).pfcEnd }) t)))
  ∧ (∀ (p : Fin 9) (s t u : State), p.val ≠ 8 →
    t = txPortUpd p.val (fun x => { x with
      pfcEnd := (txPort s p.val).pfcEnd.filter (fun e => decide (clk s < e.2)),
      active := x.active.filter (fun l => !pfcPaused s p.val (rd s (K.TX_PCP l))) }) s →
    u = wr (K.LEGS_ACTIVE p.val) (txPort t p.val).active.length t → exec (.pauseExpiry p) s
      = .next (wakePort p.val (wr (K.TX_PAUSED p.val) (b2n (paused u p.val ||
        !((txPort s p.val).pfcEnd.filter (fun e => decide (clk s < e.2))).isEmpty)) u)))
  ∧ (∀ (p : Fin 8) (s : State), (txPort s p.val).congested = true → (txPort s p.val).pauseDue = none →
    (txPort s p.val).pauseAt + rd s (K.PAUSE_QUANTA p.val) * 512 * 1000000000 * ns1 / portRate s / 2 ≤ clk s →
    exec (.pauseResend p) s
      = .next (txPortUpd p.val (fun x => { x with pauseDue := some (rd s (K.PAUSE_QUANTA p.val)) }) s))
  ∧ (∀ (p : Fin 8) (s : State), rd s (K.PORT_EN p.val) ≠ 0 → rd s (K.PORT_STATE p.val) ≠ psRetired →
    exec (.linkLoss p) s = .next (portUpset p.val (portDown p.val psTraining (bump (K.LINK_DOWNS p.val) s))))
  ∧ (∀ (p : Fin 8) (s : State), rd s (K.PORT_STATE p.val) = psTraining → exec (.linkUp p) s
    = .next (wakePort p.val (txPortUpd p.val (fun x => { x with upAt := clk s })
      (wr (K.PORT_STATE p.val) psUp s))))
  ∧ (∀ (p : Fin 8) (c u : Nat) (s t : State), (txPort s p.val).fecAt + s1 ≤ clk s →
    t = bumpBy (K.FEC_CORRECTED p.val) c (bumpBy (K.FEC_UNCORRECTED p.val) u
      (txPortUpd p.val (fun x => { x with fecAt := clk s }) s)) →
    exec (.fecSecond p c u) s = .next (if rd t (K.PORT_EN p.val) = 1 ∧ rd t (K.FEC_UNCORR_LIMIT p.val) < u
      ∧ !isRetired t cPort p.val then portUpset p.val t else t))
  ∧ (∀ (p : Fin 9) (r : Fin 4) (s : State) (f : Sending), (txPort s p.val).sending = some f → clk s < f.freeAt →
    exec (.portTransmitterFree p r) s = .next s)
  ∧ (∀ (p : Fin 9) (r : Fin 4) (s t : State), (∀ f, (txPort s p.val).sending = some f → f.freeAt ≤ clk s) →
    p.val ≠ 8 → t = txPortUpd p.val (fun x => { x with sending := none }) s →
    portUp t p.val = true → exec (.portTransmitterFree p r) s = .next (pickPort p.val 64 r.val t))
  ∧ (∀ (r : Fin 4) (s t : State), (∀ f, (txPort s 8).sending = some f → f.freeAt ≤ clk s) → t = txPortUpd 8 (fun x => { x with sending := none }) s → rd t K.MGMT_STATE ≠ 0 →
    exec (.portTransmitterFree 8 r) s = .next (pickMgmt r.val 64 t))
  ∧ (∀ (cells : Nat) (s : State), 9 ≤ s.boot.step → rd s K.POOL_MODE = pmSpill → s.mem.reinterleave = false →
    exec (.poolTestDone cells) s = .next (poolFailedCause (poolTested cells s)))
  ∧ (∀ s : State, rd s K.POOL_MODE = pmDraining → exec .spillDrainComplete s
    = .next (settle [] (wr K.POOL_MODE pmPool { s with
        pkt.packets := tabMap none s.pkt.packets (fun _ p => p.map (fun p => { p with spilled := false })),
        pkt.queues := tabMap {} s.pkt.queues (fun _ x => { x with spilled := false }),
        pkt.used := s.pkt.used
          + s.pkt.packets.foldl (fun n e => n + (e.2.elim 0 (fun p => if p.spilled then p.cells else 0))) 0
          + s.pkt.queues.foldl (fun n e => n + (if e.2.spilled then e.2.copyCells.length else 0)) 0 })))
  ∧ (∀ (cells : Nat) (s : State), s.pkt.auditAt + 100 * ms1 ≤ clk s →
    exec (.orphanAudit cells) s = .next (bumpBy (K.POOL_ERRORS 2) cells { s with pkt.auditAt := clk s }))
  ∧ (∀ (st : Fin 3) (s : State), s.boot.step ≠ 0 → exec (.mgmtLinkChange st) s = .next (wr K.MGMT_STATE st.val s))

/-- A leg whose shaper conforms again joins its port's list. Every 10 ms automatic shapers follow their estimates. A
gate's next entry and a pending gate configuration take force. A hub that serves forms the next copy of its fan-out.
At a leg's 100 ms instant its estimate and then its layers are chosen. Slots and contexts that have waited raise
refresh requests and merged ones are sent. Each up leg sends transport feedback on what it has seen, and its sender
and receiver reports. After the hold, legs return from their alternate port. The active hub of a HEALTHY pair sends a
checkpoint of each leg. More than 64 authentication failures in a second are an upset of the leg. -/
def Obligations.ForwardingAndShapingAct : Prop :=
  (∀ (l p : Nat) (s t : State), p = legPort s l → (queueOf s (qOut l)).entries.isEmpty = false → conforming s l = true →
    (txPort s p).active.contains l = false → pfcPaused s p (rd s (K.TX_PCP l)) = false → rd s (K.LEG_STATE l) = 1 →
    t = txPortUpd p (fun x => { x with active := x.active ++ [l] }) s →
    exec (.shaperConforming l) s = .next (wr (K.LEGS_ACTIVE p) (txPort t p).active.length t))
  ∧ (∀ s : State, s.isb.now % (10 * ms1) = 0 → exec .shaperAdapt s
    = .next ((listedKeys s 0x7900 0x14).foldl (fun x l =>
        if rd x (K.EST_E l) = (legTraffic x l).adapted then x
        else legTrafficUpd l (fun y => { y with adapted := rd x (K.EST_E l) }) (shaperChange l (wr (K.SH_RATE l)
          (max 1000 (min (rd x (K.SH_MAX l)) (rd x (K.EST_E l) * rd x (K.SH_HEADROOM l) / 100)))) x)) s))
  ∧ (∀ (p : Fin 8) (s : State), exec (.gateEntryChange p) s = .next (wr (K.GATE_OPEN p.val) (gateAt s p.val (nowNs s)).1 s))
  ∧ (∀ (p : Fin 8) (g : GatePend) (s t u v : State), (txPort s p.val).takeover = some g → g.c ≤ nowNs s →
    (txPort s p.val).sending = none → rdBlob s (K.ADMIN_LIST p.val) ≠ [] →
    t = wrBlob (K.OPER_LIST p.val) (rdBlob s (K.ADMIN_LIST p.val)) (wr (K.OPER_BASE p.val) (rd s (K.ADMIN_BASE p.val))
        (wr (K.OPER_CYCLE p.val) (rd s (K.ADMIN_CYCLE p.val)) (wr (K.OPER_EXT p.val) (rd s (K.ADMIN_EXT p.val)) s))) →
    u = txPortUpd p.val (fun x => { x with takeover := none }) t →
    v = launchDone g.slot (launchOf u g.slot).late u →
    exec (.gateConfigChange p) s
      = .next (gateShow p.val (dropOversize p.val 4096 (bump (K.CONFIG_CHANGES p.val) (wr (K.GATE_STATE p.val) 1 v)))))
  ∧ (∀ s : State, serves s = true → exec .copyFormation s
    = .next (fanStep (s.fwd.fan.foldl (fun n f => n + f.slots.length + 1) 0) s))
  ∧ (∀ (l : Nat) (s : State), legUp s l = true → s.isb.now % (100 * ms1) = 0 →
    exec (.estimateUpdate l) s = .next (selectLayers l (estimate l s)))
  ∧ (∀ (s t u : State),
    t = ((upLegs s).flatMap (fun l => ([0, 1, 2].filter (fun j => (slotOf s l (j + 1)).waitSince.any (fun w =>
        decide (w + rd s K.FWD_REFRESH_WAIT * ms1 ≤ clk s)))).map (fun j => (l, j)))).foldl (fun z x =>
      slotRefresh x.1 x.2 false (slotUpd x.1 (x.2 + 1) (fun y => { y with waitSince := some (clk z) }) z)) s →
    u = ((decsOn s).filter (fun c => (decOf s c).waitSince.any (fun w =>
        decide (w + rd s K.FWD_REFRESH_WAIT * ms1 ≤ clk s)))).foldl (fun z c =>
      decRequest c (decUpd c (fun x => { x with waitSince := some (clk z) }) z)) t →
    exec .refreshWaitExpiry s = .next ((s.fwd.sources.flatMap (fun e =>
      (e.2.refresh.filter (fun r => r.2.firAt.any (fun t => decide (t ≤ clk s)))).map (fun r => (e.1, r.1)))).foldl
        (fun z x => sendRefresh x.1 x.2 true z) u))
  ∧ (∀ s : State, exec .refreshMinExpiry s = .next ((s.fwd.sources.flatMap (fun e => (e.2.refresh.filter (fun r => r.2.due &&
      r.2.lastAt.all (fun t => decide (t + rd s K.FWD_REFRESH_MIN * ms1 ≤ clk s)))).map (fun r => (e.1, r.1)))).foldl
        (fun z x => sendRefresh x.1 x.2 false z) s))
  ∧ (∀ (l : Nat) (z s : State), z.fwd.feedbackAt + 50 * ms1 ≤ clk z → s = { z with fwd.feedbackAt := clk z } →
    upLegs s = [l] → rd s (K.EXT_IDS l) % 256 ≠ 0 → (legOf s l).twSeen.isEmpty = false →
    exec .transportFeedbackTimer z = .next (sendRtcp l [.feedback (rd s (K.AUD_OUT_SSRC l))
      ((legOf s l).twSeen.map (fun e => (e.1, some ((e.2 / ns1 : Nat) : Int))))] (legUpd l (fun x => { x with twSeen := [] }) s)))
  ∧ (∀ (l : Nat) (z s : State), z.fwd.reportAt + s1 ≤ clk z → s = { z with fwd.reportAt := clk z } →
    upLegs s = [l] → (legOf s l).rx = [] → exec .rtcpReportTimer z
    = .next (sendRtcp l (([0, 1, 2, 3].filter (fun k => (slotOf s l k).sentSince)).map (senderReport s l))
      (legUpd l (fun x => { x with
        slots := tabMap {} x.slots (fun _ (y : LegSlot) => { y with sentSince := false })
        rx := tabMap {} x.rx (fun _ (r : RxStream) => { r with
          lastExpected := r.highest - r.first + 1, lastCount := r.count }) }) s)))
  ∧ (∀ (p : Fin 8) (s : State), portUp s p.val = true → (txPort s p.val).upAt + rd s K.FWD_FAILBACK_HOLD * s1 ≤ clk s →
    exec (.failbackHoldExpiry p) s = .next (((upLegs s).filter (fun l => rd s (K.LEG_STATE l) == 2
      && rd s (K.LEG_PORT l) == p.val)).foldl (fun x l =>
        legWake l (wr (K.LEG_STATE l) 1 (legUnlist (rd x (K.ALT_PORT l)) l x))) s))
  ∧ (∀ z s : State, z.fwd.ckptAt + rd z K.FWD_CKPT_PERIOD * ms1 ≤ clk z → s = { z with fwd.ckptAt := clk z } →
    pairHealthy s = true → roleOf s = roleActive →
    exec .legCkptTimer z = .next ((upLegs s).foldl (fun x l => sendCkpt l x) s))
  ∧ (∀ (l : Nat) (s : State), (legOf s l).authAt + s1 ≤ clk s → 64 < (legOf s l).authFails →
    exec (.authFailSecond l) s = .next (legUpset l (legUpd l (fun x => { x with authFails := 0, authAt := clk s }) s)))
  ∧ (∀ (l : Nat) (s : State), (legOf s l).authAt + s1 ≤ clk s → (legOf s l).authFails ≤ 64 →
    exec (.authFailSecond l) s = .next (legUpd l (fun x => { x with authFails := 0, authAt := clk s }) s))

/-- A window command (LOAD, ERASE or LOAD_NEXT) ends with the first failing status of its record, takes effect only at OK,
zeroes KEY.DATA, sets DONE, is counted, and signals vector 28 where enabled. A request joins a queue of up to 512,
else it is refused and an engine's item completes with FAILED BUSY. The head of the queue is computed. A computed
request whose cores agree is released with its record in the hub or host area and its item completes. A leg's NEXT
egress key becomes CUR at EFFECTIVE; a PREV ingress key expires. -/
def Obligations.KeysAndSealsAct : Prop :=
  (∀ (r : KeyRec) (s : State), exec (.keyLoad r) s = .next (emitIf (if keyCheck s 1 r = .ok then keyApply 1 r s else s).sea.keyIrqEn
    (.msix 28) (bump K.KEY_COMMANDS { (if keyCheck s 1 r = .ok then keyApply 1 r s else s) with
      sea.keyData := List.replicate 64 0, sea.keyStatus := (keyCheck s 1 r).code, sea.keyDone := true })))
  ∧ (∀ (r : KeyRec) (s : State), exec (.keyErase r) s = .next (emitIf (if keyCheck s 2 r = .ok then keyApply 2 r s else s).sea.keyIrqEn
    (.msix 28) (bump K.KEY_COMMANDS { (if keyCheck s 2 r = .ok then keyApply 2 r s else s) with
      sea.keyData := List.replicate 64 0, sea.keyStatus := (keyCheck s 2 r).code, sea.keyDone := true })))
  ∧ (∀ (r : KeyRec) (s : State), exec (.keyLoadNext r) s = .next (emitIf (if keyCheck s 3 r = .ok then keyApply 3 r s else s).sea.keyIrqEn
    (.msix 28) (bump K.KEY_COMMANDS { (if keyCheck s 3 r = .ok then keyApply 3 r s else s) with
      sea.keyData := List.replicate 64 0, sea.keyStatus := (keyCheck s 3 r).code, sea.keyDone := true })))
  ∧ (∀ (r : KeyRec) (s : State), r.checkOk = false → ∀ a, keyCheck s a r = .type)
  ∧ (∀ (r : KeyRec) (s : State), r.kind = 1 → keyApply 1 r s = sealLoad r s ∧ keyApply 2 r s = sealErase r.target s)
  ∧ (∀ (r : SealReq) (s : State), s.sea.queue.length < 512 →
    exec (.sealRequest r) s = .next { s with sea.queue := s.sea.queue ++ [{ req := r }] })
  ∧ (∀ (r : SealReq) (s : State), 512 ≤ s.sea.queue.length → exec (.sealRequest r) s
    = .next (if r.source == 3 then completeOn r.me [.failed (some 0x07)] (bump K.SEAL_REFUSED s) else bump K.SEAL_REFUSED s))
  ∧ (∀ (w : SealWork) (rest : List SealWork) (s t : State) (res : Nat) (nonce tag : List Nat), s.sea.queue = w :: rest →
    sealCompute w.req w.absent (sealMsg s w.req) ((sealArea s w.req).drop 16) (((sealArea s w.req).drop 4).take 12)
      { s with sea.queue := rest } = ((res, nonce, tag), t) →
    exec .sealDequeue s
      = .next { t with sea.work := t.sea.work ++ [{ w with result := res, nonce := nonce, tag := tag }] })
  ∧ (∀ (w : SealWork) (rest : List SealWork) (a2 : Bool) (s t u : State), s.sea.work = w :: rest →
    sealCores { s with sea.work := rest } ≠ 0 → t = sealSync { s with sea.work := rest } →
    u = bump K.SEAL_REQUESTS (upd (w.result == sealCompareFail) (bump K.COMPARE_FAILS) t) →
    exec (.sealComplete false false a2) s = .next (upd (w.req.source == 3) (completeOn w.req.me [])
      (if bitOf w.req.flags 1 then emit (.hostWrite w.req.resAddr (octets (sealRecord w w.result))) u
        else upd (hubRange u w.req.resAddr 32) (memWrite w.req.resAddr (octets (sealRecord w w.result))) u)))
  ∧ (∀ (l : Nat) (s : State), (tabGet {} s.sea.srtpOut l).next.isSome = true → (tabGet {} s.sea.srtpOut l).effective ≤ nowNs s →
    exec (.egressKeyEffective l) s = .next (bump (K.REKEYS_OUT l) (wr (K.RTCP_EXHAUSTED l) 0 (wr (K.SRTCP_INDEX l) 0
      { s with sea.srtpOut := tabSet {} s.sea.srtpOut l { cur := (tabGet {} s.sea.srtpOut l).next } }))))
  ∧ (∀ (l : Nat) (s : State), exec (.prevKeyExpiry l) s = .next { s with sea.srtpIn := tabMod {} s.sea.srtpIn l (fun c =>
      if c.prev.isSome ∧ c.prevEnd ≤ clk s then { c with prev := none, prevWins := [] } else c) })

/-- In every frame the block sends over IPv4 the words of the IP header sum to the all-ones word, so that a receiver's
check passes, whatever of the header is as received. In both families the words of the pseudo-header and of the UDP
datagram do, a checksum of 0 being sent as FFFFh. A header extension block is a whole number of 32-bit words, whatever
elements it holds. With no key a frame's RTP header and payload leave in clear after the UDP header; with a key the
header stays in clear. -/
def Obligations.SentHeadersCheck : Prop :=
  (∀ (f : TxFrame) (n : Nat), f.v6 = false → inetSum (f.ip n) = 0)
  ∧ (∀ (f : TxFrame) (b : Bytes), inetSum (f.addr f.src ++ f.addr f.dst
      ++ (if f.v6 = true then beOctets 4 (8 + b.length) ++ [0, 0, 0, 17] else [0, 17] ++ beOctets 2 (8 + b.length))
      ++ f.udp b) = 0)
  ∧ (∀ els : List (Nat × Bytes), (extOctets els).length % 4 = 0)
  ∧ (∀ (ssrc : Nat) (header payload : Bytes), srtpOctets none ssrc header payload = header ++ payload)
  ∧ (∀ (k : SrtpKey × Nat) (ssrc : Nat) (header payload : Bytes),
    (srtpOctets (some k) ssrc header payload).take header.length = header)

/-- The picture a VDEC works on is written; one that waited too long for a buffer is lost and counted; a picture 50 ms old
counts an upset and is given up, or coded cut. A context DAMAGED for its wait asks once for a refresh. The head
picture of an encode context is coded, when its octets conform. At an output's boundary a late picture is counted and
given up and the new one latches its layers, stale list and marks. A composed picture is counted with its tile errors,
its regions are checked and its marks go. A write of the inactive layer table patches it; one to the active table, or
while a swap is committed, is refused and counted. A due LAYER_SWAP swaps the tables, or fails with its domain. -/
def Obligations.PicturesAreCodedAndComposed : Prop :=
  (∀ (j : Fin 2) (s : State) (c b : Nat) (q : ReadyPic) (rest : List ReadyPic), vdecPick s j.val = some c →
    (decOf s c).pics = q :: rest → q.target = some b → exec (.decodePictureComplete j) s = .next (decodeDone c q b s))
  ∧ (∀ (c : Fin 1024) (s : State) (q : ReadyPic) (rest : List ReadyPic) (t : Instant), (decOf s c.val).pics = q :: rest →
    q.bufWait = some t → s1 ≤ 2 * rd s (K.MAX_RATE c.val) * (clk s - t) →
    exec (.decodeBufWaitTimeout c) s = .next (popPic c.val (bump (K.BUF_WAITS c.val) s)))
  ∧ (∀ (j : Fin 3) (s : State) (c : Nat) (q : ReadyPic) (rest : List ReadyPic) (t : Instant), j.val < 2 →
    vdecPick s j.val = some c → (decOf s c).pics = q :: rest → q.started = some t → t + 50 * ms1 ≤ clk s →
    exec (.pictureTimeout j) s = .next (popPic c (instUpset j.val s)))
  ∧ (∀ (s : State) (e : Nat) (p : EncPic) (rest : List EncPic) (t : Instant), vencPick s = some e →
    (encOf s e).pics = p :: rest → p.started = some t → t + 50 * ms1 ≤ clk s →
    exec (.pictureTimeout 2) s = .next (vencSync (shortenSweep e (encHead e (fun p => { p with cut := true, started := none })
      (instUpset 2 s)))))
  ∧ (∀ (c : Fin 1024) (s : State) (t : Instant), (decOf s c.val).damagedSince = some t → rd s (K.REQ_POLICY c.val) = 2 →
    (decOf s c.val).asked = false → t + rd s (K.DAMAGE_WAIT c.val) * ms1 ≤ clk s → exec (.damageWaitExpiry c) s
      = .next (decRequest c.val (decUpd c.val (fun x => { x with asked := true }) s)))
  ∧ (∀ (e : Fin 256) (rows : List EncRow) (cut : Nat) (units : List Bytes) (s : State) (p : EncPic)
    (rest : List EncPic), (encOf s e.val).pics = p :: rest → rd s (K.ENC_STATE e.val) ≠ vsSuspended →
    rd s (K.ENC_EN e.val) ≠ 0 → pictureOk s e.val rows units = true →
    exec (.encodePictureComplete e rows cut units) s = .next (encodeDone e.val p rows cut units s))
  ∧ (∀ (o : Fin 64) (s : State), (rd s (K.OUT_EN o.val) = 0 ∨ modeOf s = mSafe ∨ boundaryHere s o.val = none) →
    exec (.outputPictureBoundary o) s = .next s)
  ∧ (∀ (o : Fin 64) (ns : Nat) (s z u : State) (t : Bytes) (x : LayerScan), rd s (K.OUT_EN o.val) ≠ 0 →
    modeOf s ≠ mSafe → boundaryHere s o.val = some ns → z = picOverdue o.val s → t = activeTable z o.val →
    x = (List.range (tableCount t)).foldl (scanLayer z ns (rd z (K.ACTIVE_TABLE o.val)) t) { held := (cmpOut z o.val).held } →
    u = wrBlob (K.STALE_LAYERS o.val) (leBytes 9 x.stale)
      (x.reads.foldl (fun z i => bufUpd i (fun y => { y with read := y.read + 1 }) z) z) →
    exec (.outputPictureBoundary o) s = .next (encBoundary o.val (ns * ns1)
      (cmpSync (cmpUpd o.val (fun y => { y with waiting := some (picLatch o.val ns x z), held := x.held }) u))))
  ∧ (∀ (o : Nat) (s : State) (p : PicLatch), (cmpOut s o).waiting = some p →
    picOverdue o s = bump (K.OUT_LATE o) (picOver o p (cmpUpd o (fun x => { x with waiting := none }) s)))
  ∧ (∀ (s t : State) (o w h d : Nat) (p : PicLatch), s.cmp.current = some o → (cmpOut s o).composing = some p →
    p.sigs = [] → p.layers = [] → w = rd s (K.OUT_WIDTH o) → h = rd s (K.OUT_HEIGHT o) → d = rd s (K.OUT_DEPTH o) →
    t = bumpBy (K.TILE_ERRORS o) 0 (bump (K.OUT_PICTURES o) s) → exec .composedPictureComplete s
      = .next (cmpSync (picOver o p (cmpUpd o (fun x => { x with
          composing := none, surface := writeSurface (p.at_ / ns1) w h d 0 0 (composed s p w h d) })
            { t with cmp.current := none }))))
  ∧ (∀ (o off value : Nat) (s : State), 0x1000000 ≤ off → off < 0x1100000 → off % 4 = 0 → o = (off - 0x1000000) / 0x4000 →
    (off - 0x1000000) / 0x2000 % 2 ≠ rd s (K.ACTIVE_TABLE o) → layerSwapCommitted s o = false →
    (off - 0x1000000) % 0x2000 < 4672 → exec (.layerTableBar2Write off value false) s
      = .next (wrBlob (tableKey o ((off - 0x1000000) / 0x2000 % 2)) (patch (slice (layerTable s o
          ((off - 0x1000000) / 0x2000 % 2)) 0 4672) ((off - 0x1000000) % 0x2000) (leBytes 4 value)) s))
  ∧ (∀ (o off value : Nat) (s : State), 0x1000000 ≤ off → off < 0x1100000 → off % 4 = 0 → o = (off - 0x1000000) / 0x4000 →
    ((off - 0x1000000) / 0x2000 % 2 = rd s (K.ACTIVE_TABLE o) ∨ layerSwapCommitted s o = true) →
    exec (.layerTableBar2Write off value false) s
      = .next (cmpIrq 1 (bump (K.LT_WRITES_REFUSED o) { s with cmp.status := withBit s.cmp.status 0 true })))
  ∧ (∀ (s : State) (n : Nat) (l : Launch), dueSwap s = some (n, l) → domainFailed s 17 = false → domainRuns s 17 = true →
    exec .layerSwap s = .next (launchDone n
      (l.late || (boundaryHere s l.target).any (fun b => decide (swapBoundary s l < b))) (swapTable l.target s)))
  ∧ (∀ (s : State) (n : Nat) (l : Launch), dueSwap s = some (n, l) → domainFailed s 17 = true →
    exec .layerSwap s = .next (launchFailed n .retired s))

/-- GO in IDLE, STOPPED or HALTED begins an activation at START. STOP of a RUNNING channel takes effect at the next
descriptor, in WAITING, PARKED or IDLE at once. RESUME goes on where it stopped. A doorbell of a PARKED channel
fetches the link again or goes on at CUR; it only sets KICK while RUNNING. Requests of kinds 2 and 3 are counted; a
WAITING channel that pacing permits goes on. A fetched descriptor with OWN begins its transfer, without OWN parks the
channel; a failed fetch halts it. A link with END parks; another sets CUR. A transfer finishes its descriptor with its
status. A bus timeout ends it with TIMEOUT or halts a fetch. A read of CUR_LO latches CUR_HI. -/
def Obligations.DmaChannelsRun : Prop :=
  (∀ (n : Fin 64) (host : Bool) (s t : State), t = dmaUpd n.val (fun x => { x with startSpace := b2n host }) s →
    (dmaState s n.val = dsIdle ∨ dmaState s n.val = dsStopped ∨ dmaState s n.val = dsHalted) →
    exec (.dmaGo n host) s = .next (dmaActivate n.val (dmaUpd n.val (fun x => { x with
      cur := dmaStart x, curHost := x.startSpace == 1, stopReq := false }) t)))
  ∧ (∀ (n : Fin 64) (host : Bool) (s t : State), t = dmaUpd n.val (fun x => { x with startSpace := b2n host }) s →
    dmaState s n.val = dsRunning → exec (.dmaStop n host) s = .next (dmaUpd n.val (fun x => { x with stopReq := true }) t))
  ∧ (∀ (n : Fin 64) (host : Bool) (s t : State), t = dmaUpd n.val (fun x => { x with startSpace := b2n host }) s →
    (dmaState s n.val = dsWaiting ∨ dmaState s n.val = dsParked ∨ dmaState s n.val = dsIdle) →
    exec (.dmaStop n host) s = .next (dmaStopped n.val t))
  ∧ (∀ (n : Fin 64) (host : Bool) (s t : State), t = dmaUpd n.val (fun x => { x with startSpace := b2n host }) s →
    dmaState s n.val = dsStopped → exec (.dmaResume n host) s = .next (dmaActivate n.val t))
  ∧ (∀ (n : Fin 64) (host : Bool) (s : State), dmaState s n.val = dsOff →
    exec (.dmaGo n host) s = .next s ∧ exec (.dmaStop n host) s = .next s ∧ exec (.dmaResume n host) s = .next s)
  ∧ (∀ (n : Fin 64) (s : State), (dmaState s n.val = dsRunning ∨ dmaState s n.val = dsWaiting) →
    exec (.dmaDoorbell n) s = .next (dmaUpd n.val (fun x => { x with kick := true }) s))
  ∧ (∀ (n : Fin 64) (s t : State), dmaState s n.val = dsParked → t = dmaUpd n.val (fun x => { x with kick := true }) s →
    (dmaOf t n.val).parkKind = 0 → exec (.dmaDoorbell n) s
      = .next (dmaLink n.val (dmaUpd n.val (fun x => { x with count := 0, halt := 0 }) t)))
  ∧ (∀ (n : Fin 64) (s t : State), dmaState s n.val = dsParked → t = dmaUpd n.val (fun x => { x with kick := true }) s →
    (dmaOf t n.val).parkKind ≠ 0 → exec (.dmaDoorbell n) s = .next (dmaActivate n.val t))
  ∧ (∀ (n : Fin 64) (s : State), dmaState s n.val ≠ dsOff → rd s (K.PACING n.val) = 1 →
    rd s (K.PACE_SOURCE n.val) / 268435456 = 3 → exec (.dmaReq n) s = .next (dmaRequest n.val s))
  ∧ (∀ (n : Fin 64) (s : State), dmaState s n.val ≠ dsOff → rd s (K.PACING n.val) = 1 →
    rd s (K.PACE_SOURCE n.val) / 268435456 = 2 → rd s (K.PACE_SOURCE n.val) % 65536 * us1 ≠ 0 →
    s.isb.now % (rd s (K.PACE_SOURCE n.val) % 65536 * us1) = 0 → (dmaOf s n.val).paceAt ≠ s.isb.now →
    exec (.dmaPaceTimer n) s = .next (dmaRequest n.val (dmaUpd n.val (fun x => { x with paceAt := s.isb.now }) s)))
  ∧ (∀ (n : Fin 64) (s : State), dmaState s n.val = dsWaiting → dmaPermits s n.val = true →
    exec (.dmaPacingPermit n) s = .next (dmaActivate n.val s))
  ∧ (∀ (n : Fin 64) (fn : Nat) (s : State), exec (.curLoRead n fn) s
    = .next (emit (.regRead fn 4 (0x400 * n.val + 0x18) ((dmaOf s n.val).cur % 4294967296))
      (dmaUpd n.val (fun x => { x with curHi := x.cur / 4294967296 }) s)))
  ∧ (∀ (n : Fin 64) (host : Option Bytes) (s : State) (d : Bytes), (dmaOf s n.val).phase = some .boundary →
    dmaFetch s (dmaOf s n.val) 0 64 host = some d → bitOf (leAt d 0 4) 31 = true →
    exec (.descriptorFetchDone n host false) s = .next (dmaUpd n.val (fun x => { x with
      phase := some (.transfer d), askedAt := clk s, count := x.count + 1,
      pendingReq := if rd s (K.PACING n.val) = 1 then x.pendingReq - 1 else x.pendingReq }) s))
  ∧ (∀ (n : Fin 64) (host : Option Bytes) (s : State) (d : Bytes), (dmaOf s n.val).phase = some .boundary →
    dmaFetch s (dmaOf s n.val) 0 64 host = some d → bitOf (leAt d 0 4) 31 = false →
    exec (.descriptorFetchDone n host false) s = .next (dmaPark n.val 1 s))
  ∧ (∀ (n : Fin 64) (host : Option Bytes) (s : State), (dmaOf s n.val).phase = some .boundary →
    exec (.descriptorFetchDone n host true) s = .next (dmaHalt n.val 2 s))
  ∧ (∀ (n : Fin 64) (host : Option Bytes) (s : State) (b : Bytes), (dmaOf s n.val).phase = some .link →
    dmaFetch s (dmaOf s n.val) 8 8 host = some b → leVal b % 2 ≠ 1 → exec (.linkFetchDone n host false) s
      = .next (dmaBoundary n.val (dmaUpd n.val (fun x => { x with
          cur := leVal b / 64 * 64, curHost := leVal b / 2 % 2 == 1 }) s)))
  ∧ (∀ (n : Fin 64) (host : Option Bytes) (s : State) (b : Bytes), (dmaOf s n.val).phase = some .link →
    dmaFetch s (dmaOf s n.val) 8 8 host = some b → leVal b % 2 = 1 → (dmaOf s n.val).kick = false →
    (dmaOf s n.val).stopReq = false → exec (.linkFetchDone n host false) s = .next (dmaPark n.val 0 s))
  ∧ (∀ (n : Fin 64) (host : Bytes) (s : State) (d : Bytes) (r : DmaEnd × State),
    (dmaOf s n.val).phase = some (.transfer d) → r = dmaTransfer d host none s →
    exec (.descriptorComplete n host none) s = .next (dmaFinish n.val d r.1 r.2))
  ∧ (∀ (n : Fin 64) (host : Bytes) (done : Nat) (s : State) (d : Bytes) (r : DmaEnd × State),
    (dmaOf s n.val).askedAt + rd s (K.BUS_TIMEOUT n.val) * us1 ≤ clk s →
    (dmaOf s n.val).phase = some (.transfer d) → r = dmaTransfer d host (some (3, done)) s →
    exec (.busTimeout n host done) s = .next (dmaFinish n.val d r.1 r.2))
  ∧ (∀ (n : Fin 64) (host : Bytes) (done : Nat) (s : State),
    (dmaOf s n.val).askedAt + rd s (K.BUS_TIMEOUT n.val) * us1 ≤ clk s → (dmaOf s n.val).phase = some .boundary →
    exec (.busTimeout n host done) s = .next (dmaHalt n.val 2 s))

/-- Requests of one cycle arrive lowest requester number first. A request outside memory answers a bus error; one behind
an earlier held request, or on a channel that trains or sleeps, is held; any other is served. Patrol scrub touches the
next line and counts a correction, or an uncorrectable error. An elapsed refresh interval owes one more refresh, and
what it issues, at least what goes over the limit, is issued. At a whole 64 ms the activation tables are emptied. An
idle rank enters power-down with its rows closed. At its instant a channel issues what is owed, records its margin and
pause and trains fully below 40 ps or out of range. A full training that succeeds serves what was held; a fourth
failure retires the channel. A re-interleave lays memory out again, restarts the codecs and leaves SAFE. -/
def Obligations.MemoryChannelsServe : Prop :=
  (∀ (r : MemReq) (s : State), reqExists s r = false → exec (.memRequest [r]) s = .next (emit (.memDone r.requester r.addr none) s))
  ∧ (∀ (r : MemReq) (s : State), reqExists s r = true → reqWaits s s.mem.held r = true →
    exec (.memRequest [r]) s = .next { s with mem.held := s.mem.held ++ [r] })
  ∧ (∀ (r : MemReq) (s : State), reqExists s r = true → reqWaits s s.mem.held r = false →
    exec (.memRequest [r]) s = .next (serve r s))
  ∧ (∀ (a b : MemReq) (s : State), b.requester < a.requester →
    exec (.memRequest [a, b]) s = .next (memArrive a (memArrive b s)))
  ∧ (∀ (a b : MemReq) (s : State), a.requester ≤ b.requester →
    exec (.memRequest [a, b]) s = .next (memArrive b (memArrive a s)))
  ∧ (∀ (c : Fin 4) (cor : Bool) (s : State) (x : Nat), chState s c.val = chRun → x = (ddrOf s c.val).scrub →
    exec (.patrolScrub c cor false) s = .next (upd cor (bump (K.CE_COUNT c.val)) (touchLine c.val x (ddrUpd c.val (fun d =>
      { d with scrub := if x + 64 < rd s (K.CH_SIZE c.val) then x + 64 else 0 }) s))))
  ∧ (∀ (c : Fin 4) (cor : Bool) (s : State) (x : Nat), chState s c.val = chRun → x = (ddrOf s c.val).scrub →
    exec (.patrolScrub c cor true) s = .next (chanBad c.val x (touchLine c.val x (ddrUpd c.val (fun d =>
      { d with scrub := if x + 64 < rd s (K.CH_SIZE c.val) then x + 64 else 0 }) s))))
  ∧ (∀ (c : Fin 4) (rank : Fin 2) (n : Fin 10) (s : State) (r : Rank), rank.val < ranksOf s c.val → chState s c.val = chRun →
    r = tabGet {} (ddrOf s c.val).ranks rank.val → r.refreshAt + refreshInterval s c.val ≤ clk s →
    exec (.dramRefresh c rank n) s = .next (refreshIssue c.val rank.val (max n.val (r.owed + 1 - refreshLimit))
      (ddrUpd c.val (fun d => { d with ranks := tabMod {} d.ranks rank.val (fun r =>
        { r with owed := r.owed + 1, refreshAt := clk s }) }) s)))
  ∧ (∀ s : State, s.isb.now % (64 * ms1) = 0 → exec .actWindow s = .next (actsEmpty s))
  ∧ (∀ (c : Fin 4) (rank : Fin 2) (s : State), rd s K.PD_IDLE * ns1 ≠ 0 → rank.val < ranksOf s c.val → chState s c.val = chRun →
    (tabGet {} (ddrOf s c.val).ranks rank.val).lastUse + rd s K.PD_IDLE * ns1 ≤ clk s →
    exec (.pdIdleExpiry c rank) s = .next (ddrUpd c.val (fun d => { d with
      ranks := tabMod {} d.ranks rank.val (fun r => { r with powerDown := true })
      openRow := d.openRow.filter (fun e => e.1 / 16 != rank.val) }) s))
  ∧ (∀ (c : Fin 4) (m p : Nat) (b : Bool) (s u t : State), chState s c.val = chRun →
    s.isb.now % (100 * ms1) = 25 * c.val * ms1 →
    u = (List.range (ranksOf s c.val)).foldl (fun z r => refreshFirst c.val r z) s →
    t = wr (K.EYE_MARGIN c.val) m (wr (K.RETRAIN_MAX c.val) (max p (rd u (K.RETRAIN_MAX c.val))) u) →
    exec (.periodicRetrain c m p b) s = .next (if m < 40 ∨ b = false then fullTrain c.val t else t))
  ∧ (∀ (c : Fin 4) (s : State), chState s c.val = chRetraining → exec (.fullTrainingDone c true) s
    = .next (serveHeld (ddrUpd c.val (fun d => { d with tries := 0 }) (wr (K.CH_STATE c.val) chRun s))))
  ∧ (∀ (c : Fin 4) (s : State), chState s c.val = chRetraining → (ddrOf s c.val).tries < 3 →
    exec (.fullTrainingDone c false) s = .next (ddrUpd c.val (fun d => { d with tries := d.tries + 1 }) s))
  ∧ (∀ (c : Fin 4) (s : State), chState s c.val = chRetraining → 3 ≤ (ddrOf s c.val).tries →
    exec (.fullTrainingDone c false) s
      = .next (chanRetire c.val (markRetired cDdr c.val (recentUpsets s cDdr c.val).length s)))
  ∧ (∀ (l : List Nat) (s t : State), s.mem.reinterleave = true → s.mem.active.isEmpty = false →
    t = vidRestart true (relayout (payloadsLost l { s with mem.reinterleave := false })) → exec (.reinterleaveDone l) s
      = .next (leaveSafe (safeCleared 0 (if rd t K.POOL_MODE = pmSpill ∧ t.pkt.testing.isNone then poolReturns t else t))))

/-- An idle engine, cluster, codec or compositor of a domain in RUN with LULL_EN enters LULL. A drained entry writes a
checkpoint and then sleeps, goes OFF, or is abandoned for a wake source. An entry not drained in DRAIN_TIMEOUT is
abandoned. An idle STANDBY hub enters sleep again. WAKE_N starts an OFF hub with HPWR_EN high and is source 1 of a hub
that runs; an Isobar alarm is source 5, once; a host wake is source 13h in CALM. Each wake step that reports ready
begins the next; the fourth puts the domain in RUN; a cluster whose firmware image is in no mirror fails. A step that
runs longer than its limit is retried twice, then the domain is FAILED, for a regulator with every domain that waits
for its rail; a step that waits for PD18 has not begun. A lost power-good counts an upset of each domain on the rail.
A lost timebase lock is LIMP. -/
def Obligations.DomainsAndHubChangePower : Prop :=
  (∀ (unit : Fin 140) (s : State), unit.val < 128 → rd s (K.LULL_EN (1 + unit.val / 16)) ≠ 0 →
    pdState s (1 + unit.val / 16) = pdRun → rd s (K.ME_STATE unit.val) = 0 → runningOn s unit.val = none →
    tickSlotOn s unit.val = none → exec (.lullEntry unit) s = .next (wr (K.ME_STATE unit.val) 1 s))
  ∧ (∀ (unit : Fin 140) (s : State) (c : Nat), 128 ≤ unit.val → unit.val < 136 → c = unit.val - 128 →
    rd s (K.LULL_EN (1 + c)) ≠ 0 → pdState s (1 + c) = pdRun → rd s (K.CL_STATE c) = 0 →
    (∀ i < 16, rd s (K.ME_STATE (c * 16 + i)) ≠ 0) →
    exec (.lullEntry unit) s = .next (enterLull (1 + c) (wr (K.CL_STATE c) 1 s)))
  ∧ (∀ (unit : Fin 140) (s : State) (j : Nat), unit.val = 136 + j → j < 3 → rd s (K.LULL_EN (14 + j)) ≠ 0 →
    pdState s (14 + j) = pdRun → rd s (K.INST_STATE j) = 0 → (j < 2 → vdecPick s j = none) → (j = 2 → vencPick s = none) →
    exec (.lullEntry unit) s = .next (enterLull (14 + j) (wr (K.INST_STATE j) 1 s)))
  ∧ (∀ (s : State), rd s (K.LULL_EN 17) ≠ 0 → pdState s 17 = pdRun → rd s K.COMP_STATE = 0 → s.cmp.current = none →
    (∀ e ∈ s.cmp.outs, e.2.waiting = none) →
    exec (.lullEntry 139) s = .next (enterLull 17 (wr K.COMP_STATE 1 s)))
  ∧ (∀ (s t : State) (e : PwrEntry), s.pwr.entry = some e → e.step = 3 → drained s e.depth = true →
    t = checkpointDone (checkpointStart s) → exec .drainComplete s
      = .next (if e.wake.isSome = true then entryAbandon t else if e.depth = 4 then hubOff (cmdComplete 0x0400 4 .ok t)
          else entryDown e.depth e.again t))
  ∧ (∀ (s : State) (e : PwrEntry), s.pwr.entry = some e → e.t0 + rd s K.DRAIN_TIMEOUT * ms1 ≤ clk s →
    exec .drainTimeout s = .next (entryAbandon s))
  ∧ (∀ s : State, modeOf s = mStandby → hubPower s = hpRun → s.boot.transition = none → s.pwr.lastActive + 10 * s1 ≤ clk s →
    (∀ e ∈ s.isb.launches, e.2.active = true → s.isb.now + 10 * s1 < e.2.instant) →
    (∀ u, delayFirst s = some u → s.isb.now + 10 * s1 < u) → sleepReady s = true →
    exec .standbyIdleTimeout s = .next (entryField (entryStart (2 + rd s K.STANDBY_DEPTH) true s)))
  ∧ (∀ s : State, s.boot.supply = true → s.boot.rstLow = false → s.diag.suspended = false → s.boot.step = 0 →
    s.pwr.hpwrEn = false → exec .wakeN s = .next (coldStart (emit (.pin "HPWR_EN" true) { s with pwr.hpwrEn := true })))
  ∧ (∀ s : State, s.boot.supply = true → s.boot.rstLow = false → s.diag.suspended = false → s.boot.step ≠ 0 →
    exec .wakeN s = .next (latchReplay (wakeHub 1 (latchEvent 1 0 s.isb.now s))))
  ∧ (∀ s : State, rd s K.ALARM ≠ 0 → s.isb.alarmDone ≠ rd s K.ALARM → rd s K.ALARM * ns1 ≤ s.isb.now → s.boot.step ≠ 0 →
    exec .isobarAlarm s = .next (latchReplay (wakeHub 5 (latchEvent 5 0 (rd s K.ALARM * ns1)
      { s with isb.alarmDone := rd s K.ALARM }))))
  ∧ (∀ s : State, hubPower s = hpCalm → exec .hostWakeRequest s = .next (wakeHub 0x13 s))
  ∧ (∀ (rail : Fin 3) (d : Nat) (s : State), (rail.val = 0 → s.pwr.vmeEn = true → exec (.regulatorReady rail d) s
      = .next ((hubDomains.filter onVme).foldl (fun z e => stepOn 1 e z) { s with pwr.vmePg := true }))
    ∧ (rail.val = 1 → s.pwr.vsdEn = true → exec (.regulatorReady rail d) s
      = .next ((hubDomains.filter onVsd).foldl (fun z e => stepOn 1 e z) { s with pwr.vsdPg := true }))
    ∧ (rail.val = 2 → onVme d = false → onVsd d = false → atStep s 1 d = true → exec (.regulatorReady rail d) s
      = .next (domainUpd d (fun x => { x with step := 2, tries := 0, since := clk s }) s)))
  ∧ (∀ (d : Nat) (s : State), atStep s 2 d = true →
    exec (.pllLocked d) s = .next (domainUpd d (fun x => { x with step := 3, tries := 0, since := clk s }) s))
  ∧ (∀ (d : Nat) (failed bad : List Nat) (s : State), d ≠ 18 → atStep s 3 d = true →
    (needsMemory d = true → pdState s 18 ≤ pdLull) → (onVme d = true → 4 ≤ s.boot.step ∧
      (fwLoads bad s = true ∨ (domainOf s d).from_ = pdCalm)) → exec (.memoryReady d failed bad) s
      = .next (domainUpd d (fun x => { x with step := 4, tries := 0, since := clk s }) s))
  ∧ (∀ (d : Nat) (failed bad : List Nat) (s : State), onVme d = true → atStep s 3 d = true → pdState s 18 ≤ pdLull →
    4 ≤ s.boot.step → fwLoads bad s = false → (domainOf s d).from_ ≠ pdCalm → exec (.memoryReady d failed bad) s = .next (domainFail d 3 s))
  ∧ (∀ (d : Nat) (s : State), atStep s 4 d = true → exec (.logicReady d) s = .next (domainRun d s))
  ∧ (∀ (d locks : Nat) (s : State), pdState s d = pdWaking → (domainOf s d).step = 2 → (domainOf s d).since + stepTimeout 2 ≤ clk s → (d = 9 ∨ d = 10 ∨ d = 13) →
    exec (.wakeStepTimeout d locks) s = .next (limpEnter locks s))
  ∧ (∀ (d locks : Nat) (s : State), pdState s d = pdWaking → (domainOf s d).step ≠ 1 → (domainOf s d).step ≠ 2 →
    (domainOf s d).since + stepTimeout (domainOf s d).step ≤ clk s →
    ((domainOf s d).step = 3 → needsMemory d = true → pdState s 18 ≤ pdLull) →
    exec (.wakeStepTimeout d locks) s = .next (if (domainOf s d).tries < 2 then
        bump (K.PD_RETRIES d) (domainUpd d (fun x => { x with tries := x.tries + 1, since := clk s }) s)
      else domainFail d (domainOf s d).step s))
  ∧ (∀ (d locks : Nat) (s : State), pdState s d = pdWaking → (domainOf s d).step = 1 →
    (domainOf s d).since + stepTimeout 1 ≤ clk s → ((domainOf s d).tries < 2 → exec (.wakeStepTimeout d locks) s
      = .next (railRetry d (bump (K.PD_RETRIES d)
          (domainUpd d (fun x => { x with tries := x.tries + 1, since := clk s + ms1 }) s))))
    ∧ (2 ≤ (domainOf s d).tries → exec (.wakeStepTimeout d locks) s
      = .next ((hubDomains.filter (fun e => sameRail d e && (e == d || atStep s 1 e))).foldl (fun z e => domainFail e 1 z) s)))
  ∧ (∀ (f : State → Nat → State) (s : State), s.pwr.vmeEn = true → (∀ z d, 6 ≤ pdState z d → f z d = z) →
    (∀ z d u, pdState z d < 6 → upset cDomain d (leaveLull d z) = (u, true) → f z d = domainGone d pdRetired u) →
    (∀ z d u, pdState z d < 6 → upset cDomain d (leaveLull d z) = (u, false) → f z d = clusterFollows (d - 1) 3 2
      (enginesReset (d - 1) (stopBanks (clusterLost (d - 1)
        (domainUpd d (fun _ => { step := 1, from_ := pdOff, since := clk u }) (wr (K.PD_STATE d) pdWaking u)))))) →
    exec (.powerGoodLoss 0) s = .next ([1, 2, 3, 4, 5, 6, 7, 8].foldl f { s with pwr.vmePg := false }))
  ∧ (∀ (f : State → Nat → State) (s : State), s.pwr.vsdEn = true → (∀ z d, 6 ≤ pdState z d → f z d = z) →
    (∀ z d u, pdState z d < 6 → upset cDomain d (leaveLull d z) = (u, true) → f z d = domainGone d pdRetired u) →
    (∀ z d u, d = 11 → pdState z d < 6 → upset cDomain d (leaveLull d z) = (u, false) → f z d = pairLanes false (portsAsleep
      (domainUpd d (fun _ => { step := 1, from_ := pdOff, since := clk u }) (wr (K.PD_STATE d) pdWaking u)))) →
    (∀ z d u, d ≠ 11 → pdState z d < 6 → upset cDomain d (leaveLull d z) = (u, false) → f z d
      = domainUpd d (fun _ => { step := 1, from_ := pdOff, since := clk u }) (wr (K.PD_STATE d) pdWaking u)) →
    exec (.powerGoodLoss 1) s = .next ([11, 12].foldl f { s with pwr.vsdPg := false }))
  ∧ (∀ (rail : Fin 2) (s : State), (rail.val = 0 → s.pwr.vmeEn = false) → (rail.val = 1 → s.pwr.vsdEn = false) →
    exec (.powerGoodLoss rail) s = .next s)
  ∧ (∀ (locks : Nat) (s : State), s.boot.step ≠ 0 → rd s K.LIMP ≠ 1 →
    exec (.limpEntry true locks) s = .next (limpEnter locks s))

/-- A die temperature that reaches TEMP_ALARM sets the event and counts; at 125 °C the hub writes a Storm record and is
off with HPWR_EN low. A service of the watchdog restarts its period; a period that ends without one counts, writes a
Storm record and resets the hub warm. A host that has not pinged for HOST_WATCH is lost, once; so is one whose PCIe
link goes down or whose PERST# falls, which also drops the mailboxes. A PCIe link that comes up ends HOST_LOST when no
watch is set. -/
def Obligations.FaultsAndHostWatched : Prop :=
  (∀ (temp : Int) (s t : State), t = wrI 16 K.DIE_TEMP temp s → rdI 16 s K.DIE_TEMP < rdI 16 t K.TEMP_ALARM →
    rdI 16 t K.TEMP_ALARM ≤ temp → exec (.tempAlarm temp) s = .next (bump K.TEMP_EVENTS (pwrEvt 4 t)))
  ∧ (∀ (temp : Int) (s t : State), t = wrI 16 K.DIE_TEMP temp s → (temp < rdI 16 t K.TEMP_ALARM
    ∨ rdI 16 t K.TEMP_ALARM ≤ rdI 16 s K.DIE_TEMP) → exec (.tempAlarm temp) s = .next t)
  ∧ (∀ (temp : Int) (s : State), 1000 ≤ temp → s.boot.step ≠ 0 → exec (.tempShutdown temp) s
    = .next (hubOff (storm 0x0050 (stormChannel 0xFF 0) [ofInt 16 temp] (wrI 16 K.DIE_TEMP temp s))))
  ∧ (∀ s : State, exec .wdtService s = .next { s with flt.wdtServed := clk s })
  ∧ (∀ s t : State, 3 ≤ s.boot.step → s.flt.wdtServed + rd s K.WDT_PERIOD * ms1 ≤ clk s →
    t = { s with flt.wdtResets := clk s :: wdtRecent s } → exec .watchdogTimeout s
      = .next (warmReset 2 (storm 0x0002 (stormChannel 0xFF 0) [(wdtRecent s).length + 1] (bump K.WDT_RESETS t))))
  ∧ (∀ s : State, rd s K.HOST_WATCH ≠ 0 → bitOf (rd s K.SUMMARY) 5 = false →
    s.flt.hostPing + rd s K.HOST_WATCH * ms1 ≤ clk s →
    exec .hostWatchTimeout s = .next (summary 5 true (bump K.HOST_LOSSES s)))
  ∧ (∀ s : State, s.flt.pcieUp = true →
    exec .pcieLinkDown s = .next (summary 5 true (bump K.HOST_LOSSES { s with flt.pcieUp := false })))
  ∧ (∀ s : State, s.flt.perstLow = false → s.flt.pcieUp = false → rd s K.HOST_WATCH = 0 →
    exec .pcieLinkUp s = .next (summary 5 false { s with flt.pcieUp := true }))
  ∧ (∀ s : State, s.flt.perstLow = false → s.flt.pcieUp = false → rd s K.HOST_WATCH ≠ 0 →
    exec .pcieLinkUp s = .next { s with flt.pcieUp := true })
  ∧ (∀ s : State, exec (.perstN true) s = .next { s with flt.perstLow := false })
  ∧ (∀ s : State, s.flt.pcieUp = true → exec (.perstN false) s = .next (summary 5 true (bump K.HOST_LOSSES
      { s with flt.perstLow := true, flt.pcieUp := false, dic.mbx := [] })))

/-- A message that is not heard (link down, lower EPOCH, duplicate, out of order) has only the effect of its receipt.
Heard: a HEARTBEAT records the peer and starts a due sync at the ACTIVE hub; from an ACTIVE peer it measures the
peer's time and disqualifies PEER when the peer's source has changed, and a STANDBY follows mode and pair state, or
takes over when HUB_OK is 0. JRNL_COPY is held and acknowledged; JRNL_ACK ends a sync or moves its progress; JRNL_MARK
applies and frees. STAGED_DATA is written. LEG_CKPT sets the leg's slots, estimate and highest indices. The last SYNC
part loads the checkpoint. ROLE switches, activates or stands by. RELAY_DOWN and RELAY_MSG go to the field die,
RELAY_UP and relayed requests are served. TIME_ECHO measures or is returned. -/
def Obligations.PairMessagesAct : Prop :=
  (∀ (h : PHdr) (addr off held : Nat) (b : Bytes) (s : State),
    (pairHears true h s = none → exec (.stagedData h addr off b) s = .next (pairRecv true h s).2)
    ∧ (pairHears false h s = none → exec (.jrnlAck h held) s = .next (pairRecv false h s).2))
  ∧ (∀ (h : PHdr) (role mode ps la tm rc sn src : Nat) (ok us : Bool) (s u t : State), pairHears false h s = some u →
    (role = 2 ∨ role = 3) → t = reselect (wr K.PEER_SERIAL sn { u with
      pair.peerRole := role, pair.peerHubOk := ok, pair.peerReachable := rc, pair.peerAccept := la
      isb.peerUsable := false, isb.peerSource := some src }) →
    t.pair.startAt = none → rd t K.ROLE = 1 → exec (.pairHeartbeat h role mode ps ok la tm rc sn us src) s
      = .next (if t.pair.syncDue = true then startSync t else t))
  ∧ (∀ (h : PHdr) (mode ps la tm rc sn src : Nat) (ok us moved : Bool) (s u t w m v : State), pairHears false h s = some u →
    t = wr K.PEER_SERIAL sn { u with
      pair.peerRole := 1, pair.peerHubOk := ok, pair.peerReachable := rc, pair.peerAccept := la
      isb.peerUsable := us, isb.peerSource := some src } →
    w = measured srcPeer 16 ((tm * ns1 : Nat) : Int) ((tm * ns1 + t.pair.pathDelay : Nat) - (t.isb.now : Int)) t →
    (moved = true ↔ ∃ x, u.isb.peerSource = some x ∧ x ≠ src) →
    m = reselect (if moved = true then disqualify srcPeer 5 w else w) → m.pair.startAt = none → rd m K.ROLE = 2 → v = (if mode ≠ mSafe ∧ mode ≠ mIsland then wr K.MODE mode m else m) →
    exec (.pairHeartbeat h 1 mode ps ok la tm rc sn us src) s = .next (if !ok then takeover (rd m K.PAIR_STATE == 2) m
      else if 1 ≤ ps ∧ ps ≤ 3 then setPairState ps v else v))
  ∧ (∀ (h : PHdr) (es new : List JEntry) (s u t : State) (n : Nat), pairHears true h s = some u → rd u K.ROLE = 2 →
    new = es.filter (fun e => decide (u.pair.held < e.accept) && !u.sch.journal.any (fun x => x.accept == e.accept)) →
    t = { u with sch.journal := u.sch.journal ++ new.map (fun (e : JEntry) => { e with state := max e.state 1 }) } →
    n = heldUpTo t.sch.journal u.pair.held → exec (.jrnlCopy h es) s = .next (pairSend (.jrnlAck n)
      (syncAccept { t with pair.held := n, sch.nextAccept := max t.sch.nextAccept (n + 1) })))
  ∧ (∀ (h : PHdr) (held : Nat) (s u t : State), pairHears false h s = some u → rd u K.ROLE = 1 →
    t = { u with
      pair.acked := max u.pair.acked held
      sch.journal := u.sch.journal.map (fun e => if e.accept ≤ held then { e with peerAck := true } else e) } →
    exec (.jrnlAck h held) s = .next (handOver (if rd t K.PAIR_STATE ≠ 1 then t
      else if lastEntry t ≤ held then wr K.SYNC_PROGRESS 100 (setPairState 2 t)
      else wr K.SYNC_PROGRESS (held * 100 / lastEntry t) t)))
  ∧ (∀ (h : PHdr) (committed freed : Nat) (gone : JEntry → Bool) (s u t : State), pairHears true h s = some u → rd u K.ROLE = 2 →
    t = u.sch.journal.foldl (fun (z : State) (e : JEntry) => if e.accept ≤ committed ∧ e.state < 2 then
      jrnlUpd e.accept (fun x => { x with state := 2 }) (reapply e z) else z) u →
    gone = (fun e => decide (e.accept ≤ freed) && decide (2 ≤ e.state)) → exec (.jrnlMark h committed freed) s = .next { t with
      sch.journal := t.sch.journal.filter (fun e => !gone e)
      sch.freed := (freedKeys (t.sch.journal.filter gone) ++ t.sch.freed).take 65536
      pair.committed := max t.pair.committed committed, pair.freed := max t.pair.freed freed })
  ∧ (∀ (h : PHdr) (addr off : Nat) (b : Bytes) (s u : State), pairHears true h s = some u →
    exec (.stagedData h addr off b) s = .next (if rd u K.ROLE = 2 then mirrorPut (addr + off) b u else u))
  ∧ (∀ (h : PHdr) (c : LegCkpt) (f : State → Nat → State) (s u t v : State), pairHears true h s = some u → rd u K.ROLE = 2 →
    (∀ z k, c.slots[k]? = none → f z k = z) →
    (∀ z k x, c.slots[k]? = some x → f z k = (if k = 0 then fun y => y else fun y =>
      wr (K.SLOT_CUR c.leg (k - 1)) x.cur (wr (K.SLOT_WANT c.leg (k - 1)) x.want y)) (slotUpd c.leg k (fun y => { y with
        limit := some x.limit, tsOff := x.tsOff, lastTs := x.lastTs, lastArr := x.lastArr, source := x.source }) z)) →
    t = [0, 1, 2, 3].foldl f u → v = wr (K.EST_E c.leg) c.estimate (legUpd c.leg (fun x => { x with tw := c.tw }) t) →
    exec (.legCkpt h c) s = .next (srtpInUpd c.leg (fun x => { x with
      highest := c.highest.foldl (fun y e => tabSet none y e.1 (some e.2)) x.highest }) v))
  ∧ (∀ (h : PHdr) (part total : Nat) (c : Snapshot) (s u : State), pairHears true h s = some u → rd u K.ROLE = 2 →
    exec (.sync h part total (some c)) s
      = .next (if part + 1 = total then pairSend (.jrnlAck c.highest) (loadSnapshot c u) else u))
  ∧ (∀ (h : PHdr) (peer mine e : Nat) (fin : List (Nat × Nat × Nat)) (s u : State), pairHears true h s = some u →
    (rd u K.ROLE = 1 → e = rd u K.EPOCH → mine = 2 → pairHealthy u = true →
      exec (.role h peer mine e fin) s = .next (switchover u))
    ∧ (rd u K.ROLE = 2 → mine = 1 →
      exec (.role h peer mine e fin) s = .next (cmdComplete 0x0900 0x0D .ok (becomeActive e 2 fin u)))
    ∧ (rd u K.ROLE ≠ 1 → mine = 2 → peer = 1 →
      exec (.role h peer mine e fin) s = .next (becomeStandby (wr K.EPOCH (max e (rd u K.EPOCH)) u))))
  ∧ (∀ (h : PHdr) (ft : Nat) (x : List (List Int)) (s u : State), pairHears false h s = some u → rd u K.ROLE = 2 →
    exec (.relayDown h ft x) s = .next (lanokSend true (.audioDown ft x) u))
  ∧ (∀ (h : PHdr) (trunk : Fin 8) (block : Fin 4) (ft valid : Nat) (x : List (List Int)) (s u : State),
    pairHears false h s = some u → rd u K.ROLE = 1 → exec (.relayUp h trunk block ft valid x) s
      = .next (takeBlock false trunk.val block.val valid x { u with pair.peerRelays := true }))
  ∧ (∀ (h : PHdr) (m : LMsg) (s u : State), pairHears true h s = some u → rd u K.ROLE = 2 →
    exec (.relayMsg h true m) s = .next (lanokSend true m u))
  ∧ (∀ (h : PHdr) (n c T : Nat) (s u : State), pairHears true h s = some u → rd u K.ROLE = 1 →
    exec (.relayMsg h false (.nodeEvent n c T)) s = .next (hubNodeEvent n c T { u with pair.peerRelays := true })
    ∧ exec (.relayMsg h false (.nodeClear n)) s = .next (hubNodeClear n { u with pair.peerRelays := true }))
  ∧ (∀ (h : PHdr) (sent hold : Nat) (s u : State), pairHears false h s = some u → exec (.pairTimeEcho h sent hold) s
    = .next (if u.pair.echoSent = some sent then { u with
        pair.echoSent := none, pair.pathDelay := ((u.isb.now - sent) - hold * ns1 / 1000) / 2 }
      else pairSend (.timeEcho sent hold) u))

/-- A hub that sent nothing for 10 µs sends a heartbeat. An unacknowledged message is sent again after 8 µs, at the eighth
time the link is lost; so is one silent for PAIR_LINK_TIMEOUT. A link that comes up starts its counts again and sends
an echo, and ROLE if due. A beacon, over the ring or the bridge network, records the peer, confirms it and sets the
pair state while the link is down; TAKE names the switch instant. A beacon timeout begins a split, which settles:
ALONE, takeover or ISLAND by what the hub reaches. Mastership changes at its instant. A pair that finds no peer 2 s
after its start takes ACTIVE or ISLAND. -/
def Obligations.PairIsWatched : Prop :=
  (∀ s : State, pairLinkUp s = true → s.pair.sentAt + 10 * us1 ≤ clk s → exec .pairHeartbeatSend s
    = .next (handOver (pairSend (.heartbeat (rd s K.ROLE) (modeOf s) (rd s K.PAIR_STATE)
      (modeOf s != mSafe && !s.boot.recovery) (rd s K.LAST_ACCEPT) (nowNs s) (reachable s)) s)))
  ∧ (∀ (s t : State) (q tries t0 : Nat) (m : PMsg) (rest : List (Nat × Nat × Nat × PMsg)),
    s.pair.unacked = (q, tries, t0, m) :: rest → t0 + 8 * us1 ≤ clk s → tries < 8 →
    t = { s with pair.unacked := s.pair.unacked.map (fun e => (e.1, e.2.1 + 1, clk s, e.2.2.2)), pair.sentAt := clk s } →
    exec .pairResend s = .next (bumpBy (K.PAIR_LINK_COUNTS 1) s.pair.unacked.length
      (s.pair.unacked.foldl (fun z e => pairEmit e.1 e.2.2.2 z) t)))
  ∧ (∀ (s : State) (q tries t0 : Nat) (m : PMsg) (rest : List (Nat × Nat × Nat × PMsg)),
    s.pair.unacked = (q, tries, t0, m) :: rest → t0 + 8 * us1 ≤ clk s → 8 ≤ tries →
    exec .pairResend s = .next (linkLost s))
  ∧ (∀ s : State, pairLinkUp s = true → s.pair.lastGood + rd s K.PAIR_LINK_TIMEOUT * us1 ≤ clk s →
    exec .pairLinkDown s = .next (linkLost s))
  ∧ (∀ s t u : State, inPair s = true → rd s K.PAIR_LINK_STATE ≠ 2 → (pdState s 11 = pdRun ∨ pdState s 11 = pdLull) →
    t = wr K.PAIR_LINK_STATE 2 { s with
      pair.txSeq := 0, pair.rxSeq := 0, pair.unacked := [], pair.waiting := [], pair.counters := [], pair.lastGood := clk s
      pair.syncDue := rd s K.ROLE == 1, pair.echoSent := some s.isb.now, pair.splitAt := none } →
    u = pairSend (.timeEcho t.isb.now 0) t → exec .pairLinkUp s
      = .next (if u.pair.roleDue = true then pairSend (.role 1 2 (rd u K.EPOCH) []) { u with pair.roleDue := false } else u))
  ∧ (∀ (sn role mode e rc m : Nat) (hl y : Bool) (s : State), s.pair.master = true → s.pair.switchAt = none → lanokUp s = false →
    exec (.beacon sn role mode hl true y e rc m) s
      = .next { s with pair.switchAt := some (ceilTo ms1 (fieldNow s + 2 * ms1)) })
  ∧ (∀ (sn role mode e rc m : Nat) (hl y : Bool) (s : State), m ≠ 0 → s.pair.master = false → s.pair.takeAt.isSome = true →
    lanokUp s = false → exec (.beacon sn role mode hl false y e rc m) s = .next { s with pair.switchAt := some (m * ns1) })
  ∧ (∀ (sn role mode e rc : Nat) (hl y : Bool) (s : State), s.pair.takeAt = none → lanokUp s = true →
    exec (.beacon sn role mode hl false y e rc 0) s = exec (.bridgeBeacon sn role mode hl false y e rc) s)
  ∧ (∀ (sn role mode e rc : Nat) (tk y : Bool) (s t : State), inPair s = true → hubAsleep s = false →
    t = peerConfirm (wr K.PEER_SERIAL sn { s with
      pair.beaconAt := some (clk s), pair.beaconHubLost := true, pair.peerRole := role, pair.peerReachable := rc }) →
    pairLinkUp t = false → (rd t K.ROLE = 1 ∨ rd t K.ROLE = 2) → exec (.bridgeBeacon sn role mode true tk y e rc) s
      = .next (if rd t K.ROLE = 2 then takeover t.pair.healthyBefore t else setPairState 4 t))
  ∧ (∀ s : State, inPair s = true → modeOf s = mBridge → (rdBlob s K.PEER_MGMT_ADDR).isEmpty = false →
    s.pair.bridgeBeaconAt + ms1 ≤ clk s → exec .bridgeBeaconTimer s = .next (emit
      (.bridgeBeacon (rdBlob s K.PEER_MGMT_ADDR) (rd s K.UDP_PORT + 1) (leBytes 8 (rd s K.SERIAL) ++ leBytes 1 (rd s K.ROLE)
        ++ leBytes 1 (modeOf s) ++ leBytes 1 0 ++ [0] ++ leBytes 4 (rd s K.EPOCH) ++ leBytes 2 (reachable s) ++ [0, 0]
        ++ leBytes 8 0)) { s with pair.bridgeBeaconAt := clk s }))
  ∧ (∀ s t : State, (rd s K.ROLE = 1 ∨ rd s K.ROLE = 2) → beaconSilent s = true → s.pair.splitAt = none → rd s K.PAIR_STATE ≠ 4 →
    t = bump K.SPLITS { s with pair.splitAt := some (clk s), pair.holding := true, pair.holdAt := clk s } →
    exec .beaconTimeout s = .next (if hubAsleep t = true then wakeHub 0x04 t else t))
  ∧ (∀ (reach c : Nat) (s t : State) (u : Instant), s.pair.splitAt = some u → u + rd s K.SPLIT_SETTLE * ms1 ≤ clk s →
    c = ownReach reach s → t = wr K.ENROLLED (enrolled s) (wr K.REACHABLE c s) → exec (.splitSettle reach) s
      = .next (if countsActive c t = true then
          (if rd t K.ROLE = 1 then retryHeld (setPairState 4 { t with pair.splitAt := none, pair.holding := false })
           else takeover t.pair.healthyBefore t)
        else if rd t K.ROLE = 3 then t else enterIsland t))
  ∧ (∀ (s t : State) (m : Instant), s.pair.switchAt = some m → m ≤ fieldNow s → t = { s with
      pair.master := !s.pair.master, pair.switchAt := none, pair.takeAt := none, pair.switchDone := m
      pair.masterChange := !s.pair.master } → exec .masterSwitch s = .next (if s.pair.master = false then
        { t with fld.nodes := tabMap {} t.fld.nodes (fun _ x => { x with calib := 0 }) } else t))
  ∧ (∀ (s : State) (u : Instant), s.pair.takeAt = some u → s.pair.switchAt = none → u + 3 * ms1 ≤ fieldClk s →
    exec .takeTimeout s = .next { s with pair.switchAt := some (ceilTo ms1 (fieldNow s)) })
  ∧ (∀ (reach : Nat) (s t : State) (u : Instant), s.pair.startAt = some u → u + 2 * s1 ≤ clk s →
    t = wr K.ENROLLED (enrolled s) (wr K.REACHABLE (ownReach reach s) s) → exec (.pairStartTimeout reach) s
      = .next (modeStart (reselect (setPairState 4 (wr K.ROLE (if countsActive (ownReach reach s) t = true then 1 else 3) t)))))

/-- VDD_IO rising drives HPWR_EN high. VDD_IO removed clears the hub and its held Storm records; RST_N low and a core
brown-out clear the hub. A cold boot with the supplies present starts the hub with its role pin. Each boot step that
is complete begins the next: links, firmware, memory, clusters, pool, values, and a pair's start or the mode. A replay
that has ended restores the durable values, loses the work named, records its time and enters the mode; the third
watchdog reset within 600 s holds SAFE, and a pair starts first. -/
def Obligations.HubStartsAndStops : Prop :=
  (∀ s : State, (s.boot.supply = false ∨ s.pwr.hpwrEn = false) → exec .vddIoRise s
    = .next (emit (.pin "HPWR_EN" true) { s with boot.supply := true, pwr.hpwrEn := true }))
  ∧ (∀ s : State, s.boot.supply = true → s.pwr.hpwrEn = true → exec .vddIoRise s = .next s)
  ∧ (∀ s t : State, t = hubClear s → exec .vddIoRemoved s = .next (wr K.STORM_HELD 0 { t with
      boot.supply := false, pwr.hpwrEn := false, pwr.vmePg := false, pwr.vsdPg := false
      diag.ring := [], diag.seq := (t.diag.flash.head?.map (fun r => r.seq + 1)).getD 0, diag.suspended := false }))
  ∧ (∀ s t : State, t = hubClear s →
    exec .rstNLow s = .next { t with boot.rstLow := true, diag.suspended := false })
  ∧ (∀ s : State, s.boot.rstLow = false → s.boot.step ≠ 0 → exec .coreBrownout s = .next (hubClear s))
  ∧ (∀ (pin : Bool) (s : State), s.boot.step = 0 → s.boot.supply = true → s.pwr.hpwrEn = true → s.diag.suspended = false →
    exec (.coldBoot pin) s = .next (coldStart (wr K.PAIR_ROLE_PIN (b2n pin)
      { s with boot.rstLow := false, flt.pairRolePin := pin })))
  ∧ (∀ (ch : List ChFact) (cells : Nat) (s : State), s.boot.recovery = false →
    (s.boot.step = 1 → settled s [12] = true → exec (.bootStepComplete ch cells) s
      = .next { s with flt.pcieUp := !s.flt.perstLow, boot.step := 2 })
    ∧ (s.boot.step = 2 → ∀ t, t = bootFirmware s → exec (.bootStepComplete ch cells) s = .next { t with boot.step := 3 })
    ∧ (s.boot.step = 3 → settled s [18] = true → ∀ t, t = bootMemory ch s → exec (.bootStepComplete ch cells) s
      = .next (if t.boot.ddrFailed = true then { t with boot.step := 7 }
        else { imageCopied (mirrorsSet t) with boot.step := 4 }))
    ∧ (s.boot.step = 4 → settled s [1, 2, 3, 4, 5, 6, 7, 8, 9] = true → ∀ t, t = wr K.SCHED_STATE 0 s →
      exec (.bootStepComplete ch cells) s = .next { t with boot.step := 5 })
    ∧ (s.boot.step = 5 → settled s [10] = true → ∀ t, t = poolFailedCause (poolTested cells s) →
      exec (.bootStepComplete ch cells) s = .next { t with boot.step := 6 })
    ∧ (s.boot.step = 6 → ∀ t, t = bootValues s → exec (.bootStepComplete ch cells) s = .next { t with boot.step := 7 })
    ∧ (s.boot.step = 7 → rd s K.PAIR_EN = 1 → exec (.bootStepComplete ch cells) s
      = .next { s with boot.step := 8, pair.startAt := some (clk s) })
    ∧ (s.boot.step = 7 → rd s K.PAIR_EN ≠ 1 → exec (.bootStepComplete ch cells) s = .next { s with boot.step := 8 })
    ∧ (s.boot.step = 8 → s.pair.startAt = none → settled s hubDomains = true →
      exec (.bootStepComplete ch cells) s = .next (modeStart s)))
  ∧ (∀ (locked : Bool) (lost : List Nat) (s t u : State), rd s K.SCHED_STATE = 1 → 9 ≤ s.boot.step →
    t = lost.foldl (fun z n => entryLost n z) (replayValues lost s) →
    u = schEvt 11 (wr K.REPLAY_TIME ((clk t - t.sch.replayAt) / us1) (wr K.SCHED_STATE 0 t)) → rd u K.LIMP ≠ 1 →
    u.boot.step ≠ 1 → ∀ v, v = (if (rd u K.LAST_RESET == 2 && decide (3 ≤ (wdtRecent u).length)) = true then { u with
      boot.safeCauses := u.boot.safeCauses ++ [3], boot.safeHolds := true } else u) → exec (.replayDone locked lost) s
      = .next (if rd v K.PAIR_EN = 1 then { v with pair.startAt := some (clk v) } else safeCleared 3 (modeStart v)))

/-- BYPASS shifts one zero, IDCODE the part's identity; SAMPLE_PRELOAD selects the boundary register and leaves the part
running. EXTEST, EXTEST_PULSE, EXTEST_TRAIN, CLAMP and HIGHZ suspend it and select their register. TEST_UNLOCK with
TMODE high blows the RETURNED fuse and opens the private modes, with TMODE low only notes the pin. The oldest Storm
record is copied to flash while the hub is powered. -/
def Obligations.TestPortActs : Prop :=
  (∀ s : State, exec .bypass s = .next (emit (.jtag 1 0) (jtagLoad 0xFF 0 s))
    ∧ exec .idcode s = .next (emit (.jtag 32 (jtagId s)) (jtagLoad 1 1 s))
    ∧ exec .samplePreload s = .next (jtagLoad 2 2 s))
  ∧ (∀ s : State, exec .extest s = .next (jtagSuspend 3 2 s) ∧ exec .extestPulse s = .next (jtagSuspend 4 2 s)
    ∧ exec .extestTrain s = .next (jtagSuspend 5 2 s) ∧ exec .clamp s = .next (jtagSuspend 6 0 s)
    ∧ exec .highz s = .next (jtagSuspend 7 0 s))
  ∧ (∀ s : State, exec (.testUnlock true) s = .next (summary 8 true (wr K.RETURNED 1
      { s with diag.tmode := true, diag.fuse := true, diag.unlocked := true }))
    ∧ exec (.testUnlock false) s = .next { s with diag.tmode := false })
  ∧ (∀ s : State, s.boot.step ≠ 0 → exec .stormFlashCopy s = .next (flashOldest s))

/-- For every node and every key code a node may raise: with fewer than 16 waiting events, PRIORITY_ON or PRIORITY_OFF
becomes the head of the node's queue and any other event its last, and QUEUE_OVERFLOW is as it was. With 16 waiting
the queue is as it was and QUEUE_OVERFLOW is set. A press a node may not raise (R95) changes nothing. Whatever is
pressed, a node that held at most 16 events holds at most 16, and every other node's record is as it was. -/
def Obligations.NodeHoldsItsEventsInOrder : Prop :=
  (∀ (n : Nat) (c : Fin 16) (s : State), c.val ≠ 0 → mayRaise s n c.val = true → (nodeOf s n).queue.length < 16 →
    ∃ t, exec (.buttonPress n c) s = .next t ∧ (nodeOf t n).overflow = (nodeOf s n).overflow
      ∧ ((c.val = evPriorityOn ∨ c.val = evPriorityOff) → (nodeOf t n).queue = c.val :: (nodeOf s n).queue)
      ∧ (c.val ≠ evPriorityOn → c.val ≠ evPriorityOff → (nodeOf t n).queue = (nodeOf s n).queue ++ [c.val]))
  ∧ (∀ (n : Nat) (c : Fin 16) (s : State), c.val ≠ 0 → mayRaise s n c.val = true → 16 ≤ (nodeOf s n).queue.length →
    ∃ t, exec (.buttonPress n c) s = .next t ∧ (nodeOf t n).queue = (nodeOf s n).queue ∧ (nodeOf t n).overflow = true)
  ∧ (∀ (n : Nat) (c : Fin 16) (s : State), (c.val = 0 ∨ mayRaise s n c.val = false) → exec (.buttonPress n c) s = .next s)
  ∧ (∀ (n m : Nat) (c : Fin 16) (s t : State), exec (.buttonPress n c) s = .next t →
    ((nodeOf s m).queue.length ≤ 16 → (nodeOf t m).queue.length ≤ 16) ∧ (m ≠ n → nodeOf t m = nodeOf s m))
end

