-- ==== Sys2Proof/Laws/Tab.lean ====
section
/-! SUPPORT. Laws of the sparse tables: reading after writing, and the canonical form every operation keeps. -/
set_option Elab.async false
namespace Sys2Proof.Machine

section Reading
variable {α : Type} (d : α)

theorem tabGet_tabPut_same (t : Tab α) (k : Nat) (v : α) : tabGet d (tabPut t k v) k = v := by
  induction t with
  | nil => simp [tabPut, tabGet]
  | cons e t ih =>
    obtain ⟨a, x⟩ := e
    simp only [tabPut]
    split
    · simp [tabGet]
    · split
      · simp [tabGet]
      · rename_i h; simp [tabGet, h, ih]

theorem tabGet_tabPut_other (t : Tab α) (k j : Nat) (v : α) (h : j ≠ k) :
    tabGet d (tabPut t k v) j = tabGet d t j := by
  induction t with
  | nil => simp [tabPut, tabGet, h]
  | cons e t ih =>
    obtain ⟨a, x⟩ := e
    simp only [tabPut]
    split
    · simp [tabGet, h]
    · split
      · rename_i hk; subst hk; simp [tabGet, h]
      · simp [tabGet, ih]

theorem tabGet_tabErase_other (t : Tab α) (k j : Nat) (h : j ≠ k) :
    tabGet d (tabErase t k) j = tabGet d t j := by
  induction t with
  | nil => rfl
  | cons e t ih =>
    obtain ⟨a, x⟩ := e
    simp only [tabErase]
    split
    · rename_i hk; subst hk; simp [tabGet, h]
    · simp [tabGet, ih]

end Reading

theorem tabSorted_iff {α : Type} (t : Tab α) : tabSorted t = true ↔ t.Pairwise (fun a b => a.1 < b.1) := by
  induction t with
  | nil => simp [tabSorted]
  | cons e t ih =>
    cases t with
    | nil => simp [tabSorted]
    | cons f t =>
      obtain ⟨a, x⟩ := e
      obtain ⟨b, y⟩ := f
      simp only [tabSorted, Bool.and_eq_true, decide_eq_true_eq, ih, List.pairwise_cons]
      constructor
      · rintro ⟨h, h1, h2⟩
        refine ⟨?_, h1, h2⟩
        intro c hc
        rcases List.mem_cons.mp hc with rfl | hc
        · exact h
        · exact lt_trans h (h1 c hc)
      · rintro ⟨h, h1, h2⟩
        exact ⟨h (b, y) (by simp), h1, h2⟩

theorem tabErase_sublist {α : Type} (t : Tab α) (k : Nat) : (tabErase t k).Sublist t := by
  induction t with
  | nil => exact List.Sublist.refl _
  | cons e t ih =>
    obtain ⟨a, x⟩ := e
    simp only [tabErase]
    split
    · exact List.sublist_cons_self _ _
    · exact ih.cons_cons _

theorem mem_tabPut {α : Type} {t : Tab α} {k : Nat} {v : α} {e : Nat × α} (h : e ∈ tabPut t k v) : e = (k, v) ∨ e ∈ t := by
  induction t with
  | nil => simpa [tabPut] using h
  | cons f t ih =>
    obtain ⟨a, x⟩ := f
    simp only [tabPut] at h
    split at h
    · simpa using h
    · split at h
      · rcases List.mem_cons.mp h with h | h
        · exact .inl h
        · exact .inr (List.mem_cons_of_mem _ h)
      · rcases List.mem_cons.mp h with h | h
        · exact .inr (h ▸ List.mem_cons_self ..)
        · rcases ih h with h | h
          · exact .inl h
          · exact .inr (List.mem_cons_of_mem _ h)

theorem tabSorted_tabPut {α : Type} (t : Tab α) (k : Nat) (v : α) (h : tabSorted t = true) :
    tabSorted (tabPut t k v) = true := by
  rw [tabSorted_iff] at *
  induction t with
  | nil => simp [tabPut]
  | cons f t ih =>
    obtain ⟨a, x⟩ := f
    rw [List.pairwise_cons] at h
    simp only [tabPut]
    split
    · rename_i hk
      refine List.pairwise_cons.mpr ⟨?_, List.pairwise_cons.mpr h⟩
      intro e he
      rcases List.mem_cons.mp he with rfl | he
      · exact hk
      · exact lt_trans hk (h.1 e he)
    · split
      · rename_i hk; subst hk
        exact List.pairwise_cons.mpr h
      · rename_i h1 h2
        refine List.pairwise_cons.mpr ⟨?_, ih h.2⟩
        intro e he
        rcases mem_tabPut he with rfl | he
        · exact lt_of_le_of_ne (not_lt.mp h1) (Ne.symm h2)
        · exact h.1 e he

theorem tabSorted_tabErase {α : Type} (t : Tab α) (k : Nat) (h : tabSorted t = true) : tabSorted (tabErase t k) = true := by
  rw [tabSorted_iff] at *
  exact h.sublist (tabErase_sublist t k)

theorem tabSorted_filter {α : Type} (t : Tab α) (p : Nat × α → Bool) (h : tabSorted t = true) :
    tabSorted (t.filter p) = true := by
  rw [tabSorted_iff] at *
  exact h.sublist List.filter_sublist

theorem tabSorted_tabSet {α : Type} [DecidableEq α] (d : α) (t : Tab α) (k : Nat) (v : α) (h : tabSorted t = true) :
    tabSorted (tabSet d t k v) = true := by
  unfold tabSet
  split
  · exact tabSorted_tabErase t k h
  · exact tabSorted_tabPut t k v h

/-- An entry of a table after a write is the written one, which is not the default, or was there before. -/
theorem mem_tabSet {α : Type} [DecidableEq α] {d : α} {t : Tab α} {k : Nat} {v : α} {e : Nat × α}
    (h : e ∈ tabSet d t k v) : (e = (k, v) ∧ v ≠ d) ∨ e ∈ t := by
  unfold tabSet at h
  split at h
  · exact .inr ((tabErase_sublist t k).subset h)
  · rename_i hv
    rcases mem_tabPut h with h | h
    · exact .inl ⟨h, hv⟩
    · exact .inr h

/-- A key that a sorted table does not list any more after an erase. -/
theorem tabGet_tabErase_same {α : Type} (d : α) (t : Tab α) (k : Nat) (h : tabSorted t = true) :
    tabGet d (tabErase t k) k = d := by
  rw [tabSorted_iff] at h
  have gone : ∀ u : Tab α, (∀ e ∈ u, k < e.1) → tabGet d u k = d := by
    intro u hu
    induction u with
    | nil => rfl
    | cons e u ih =>
      obtain ⟨a, x⟩ := e
      have h1 := hu (a, x) (by simp)
      simp only [tabGet]
      rw [if_neg (by have : k < a := h1; omega)]
      exact ih (fun e he => hu e (by simp [he]))
  induction t with
  | nil => rfl
  | cons e t ih =>
    obtain ⟨a, x⟩ := e
    rw [List.pairwise_cons] at h
    simp only [tabErase]
    split
    · rename_i hk; subst hk
      exact gone t h.1
    · rename_i hk
      simp only [tabGet, if_neg hk]
      exact ih h.2

/-- Read after write, at the key written. -/
theorem tabGet_tabSet_same {α : Type} [DecidableEq α] (d : α) (t : Tab α) (k : Nat) (v : α) (h : tabSorted t = true) :
    tabGet d (tabSet d t k v) k = v := by
  unfold tabSet
  split
  · rename_i hv; rw [hv]; exact tabGet_tabErase_same d t k h
  · exact tabGet_tabPut_same d t k v

/-- Read after write, at another key. -/
theorem tabGet_tabSet_other {α : Type} [DecidableEq α] (d d' : α) (t : Tab α) (k j : Nat) (v : α) (h : j ≠ k) :
    tabGet d' (tabSet d t k v) j = tabGet d' t j := by
  unfold tabSet
  split
  · exact tabGet_tabErase_other d' t k j h
  · exact tabGet_tabPut_other d' t k j v h

end Sys2Proof.Machine
end

