-- ==== Sys2Proof/Laws/Kept.lean ====
section
/-! SUPPORT. What every effect keeps, whatever the command: the relation `Kept`, and that the named operations keep it. -/
set_option Elab.async false
namespace Sys2Proof.Machine

/-- A part's place in a mask. -/
def StatePart.idx : StatePart → Nat
  | .regs => 1
  | .blobs => 2
  | .out => 3
  | .freeCtr => 4
  | .isb => 5
  | .fld => 6
  | .dic => 7
  | .sch => 8
  | .dsp => 9
  | .sap => 10
  | .mix => 11
  | .pkt => 12
  | .trf => 13
  | .fwd => 14
  | .vid => 15
  | .cmp => 16
  | .dma => 17
  | .mem => 18
  | .sea => 19
  | .pwr => 20
  | .flt => 21
  | .pair => 22
  | .boot => 23
  | .diag => 24
  | .octets => 25
  | .claims => 26

theorem StatePart.same_refl (p : StatePart) (s : State) : p.same s s := by
  cases p <;> first | exact rfl | exact ⟨rfl, rfl, rfl⟩

theorem StatePart.same_trans (p : StatePart) {a b c : State} (h : p.same a b) (k : p.same b c) : p.same a c := by
  cases p <;> first | exact Eq.trans k h | exact ⟨k.1.trans h.1, k.2.1.trans h.2.1, k.2.2.trans h.2.2⟩

/-- The mask `m` has every part that `v` has. -/
def Has (m v : Nat) : Prop := ∀ i, v.testBit i = true → m.testBit i = true

theorem Has.refl (m : Nat) : Has m m := fun _ h => h

theorem Has.sub {m u v : Nat} (h : Has m u) (e : u &&& v = v) : Has m v := by
  intro i hi
  apply h
  rw [← e, Nat.testBit_land] at hi
  exact ((Bool.and_eq_true _ _).mp hi).1

/-- Every part outside the mask `v` reads the same. -/
def SameBut (v : Nat) (s t : State) : Prop := ∀ p : StatePart, v.testBit p.idx = false → p.same s t

theorem SameBut.of (v : Nat) {s t : State} (h : ∀ p : StatePart, v.testBit p.idx = true ∨ p.same s t) : SameBut v s t := by
  intro p hp
  rcases h p with e | e
  · rw [hp] at e; cases e
  · exact e

theorem SameBut.grow {m v : Nat} {s t : State} (h : SameBut v s t) (hm : Has m v) : SameBut m s t := by
  intro p hp
  apply h
  cases e : v.testBit p.idx
  · rfl
  · rw [hm _ e] at hp; cases hp

/-- From `s` to `t` the waiting commands are the same, what has left the block is still on record, draws of free values only
add up, a blown fuse stays blown, a state in good order stays in good order, and the parts outside the mask are untouched. -/
structure Kept (m : Nat) (s t : State) : Prop where
  queue : t.pending = s.pending
  history : s.out <:+ t.out
  draws : s.freeCtr ≤ t.freeCtr
  fuse : s.diag.fuse = true → t.diag.fuse = true
  test : (s.diag.unlocked = true → s.diag.fuse = true) → t.diag.unlocked = true → t.diag.fuse = true
  ring : s.diag.ring.length ≤ 256 → t.diag.ring.length ≤ 256
  regs : regsWf s.regs = true → regsWf t.regs = true
  mem : Memory.wf s = true → Memory.wf t = true
  claims : claimsWf s.dic.claims = true → claimsWf t.dic.claims = true
  parts : SameBut m s t

variable {m : Nat}

theorem Kept.refl (s : State) : Kept m s s :=
  ⟨rfl, List.suffix_refl _, le_refl _, id, id, id, id, id, id, fun p _ => p.same_refl s⟩

theorem Kept.trans {a b c : State} (h : Kept m a b) (k : Kept m b c) : Kept m a c :=
  ⟨k.queue.trans h.queue, h.history.trans k.history, h.draws.trans k.draws, k.fuse ∘ h.fuse, fun i => k.test (h.test i),
   k.ring ∘ h.ring, k.regs ∘ h.regs, k.mem ∘ h.mem, k.claims ∘ h.claims,
   fun p hp => p.same_trans (h.parts p hp) (k.parts p hp)⟩

/-- A record update of other fields. -/
theorem Kept.frame {v : Nat} {a s t : State} (hm : Has m v) (h : Kept m a s) (hv : SameBut v s t)
    (h1 : t.pending = s.pending := by rfl) (h2 : t.out = s.out := by rfl)
    (h3 : t.freeCtr = s.freeCtr := by rfl) (h4 : t.regs = s.regs := by rfl) (h5 : t.mem.cells = s.mem.cells := by rfl)
    (h6 : t.mem.epoch = s.mem.epoch := by rfl) (h6' : t.mem.staging = s.mem.staging := by rfl)
    (h7 : t.diag.fuse = s.diag.fuse := by rfl) (h8 : t.diag.unlocked = s.diag.unlocked := by rfl)
    (h9 : t.diag.ring = s.diag.ring := by rfl) (h10 : t.dic.claims = s.dic.claims := by rfl) : Kept m a t := by
  refine h.trans ⟨h1, by rw [h2], by rw [h3], by rw [h7]; exact id, by rw [h7, h8]; exact id, by rw [h9]; exact id,
    by rw [h4]; exact id, ?_, by rw [h10]; exact id, hv.grow hm⟩
  unfold Memory.wf memDefault
  rw [h5, h6, h6']
  exact id

/-- A state built from the parts of another, those that `Kept` looks at unchanged. -/
theorem Kept.mk' {v : Nat} {a s : State} {pending : List Instr} {regs : Tab Nat} {blobs : Tab (Option Bytes)} {out : List Out}
    {freeCtr : Nat} {isb : Isb} {fld : Fld} {dic : Dic} {sch : Sch} {dsp : Dsp} {sap : Sap} {mix : Mix} {pkt : Pkt}
    {trf : Trf} {fwd : Fwd} {vid : Vid} {cmp : Cmp} {dma : Dma} {mem : Mem} {sea : Sea} {pwr : Pwr} {flt : Flt}
    {pair : Pair} {boot : Boot} {diag : Diag}
    (hm : Has m v) (h1 : pending = s.pending) (h : Kept m a s)
    (hv : SameBut v s ⟨pending, regs, blobs, out, freeCtr, isb, fld, dic, sch, dsp, sap, mix, pkt, trf, fwd, vid, cmp, dma,
      mem, sea, pwr, flt, pair, boot, diag⟩ := by
        intro p hp; cases p <;> first | exact absurd hp (by dsimp only [StatePart.idx]; decide) | rfl | exact ⟨rfl, rfl, rfl⟩)
    (h2 : out = s.out := by rfl) (h3 : freeCtr = s.freeCtr := by rfl)
    (h4 : regs = s.regs := by rfl) (h5 : mem.cells = s.mem.cells := by rfl) (h6 : mem.epoch = s.mem.epoch := by rfl)
    (h6' : mem.staging = s.mem.staging := by rfl)
    (h7 : diag.fuse = s.diag.fuse := by rfl) (h8 : diag.unlocked = s.diag.unlocked := by rfl)
    (h9 : diag.ring = s.diag.ring := by rfl) (h10 : dic.claims = s.dic.claims := by rfl) :
    Kept m a ⟨pending, regs, blobs, out, freeCtr, isb, fld, dic, sch, dsp, sap, mix, pkt, trf, fwd, vid, cmp, dma, mem, sea,
      pwr, flt, pair, boot, diag⟩ :=
  h.frame hm hv h1 h2 h3 h4 h5 h6 h6' h7 h8 h9 h10

theorem Kept.blobs_put {a s : State} {x : Tab (Option Bytes)} (hm : Has m 0x4) (h : Kept m a s) :
    Kept m a { s with blobs := x } :=
  h.frame hm (by intro p hp; cases p <;> first | exact absurd hp (by dsimp only [StatePart.idx]; decide) | rfl | exact ⟨rfl, rfl, rfl⟩)

theorem Kept.isb_put {a s : State} {x : Isb} (hm : Has m 0x20) (h : Kept m a s) :
    Kept m a { s with isb := x } :=
  h.frame hm (by intro p hp; cases p <;> first | exact absurd hp (by dsimp only [StatePart.idx]; decide) | rfl | exact ⟨rfl, rfl, rfl⟩)

theorem Kept.fld_put {a s : State} {x : Fld} (hm : Has m 0x40) (h : Kept m a s) :
    Kept m a { s with fld := x } :=
  h.frame hm (by intro p hp; cases p <;> first | exact absurd hp (by dsimp only [StatePart.idx]; decide) | rfl | exact ⟨rfl, rfl, rfl⟩)

theorem Kept.dic_put {a s : State} {x : Dic} (hm : Has m 0x80) (h : Kept m a s) (h10 : x.claims = s.dic.claims := by rfl) :
    Kept m a { s with dic := x } :=
  h.frame hm (by intro p hp; cases p <;> first | rfl | exact h10 | exact ⟨rfl, rfl, rfl⟩ | exact absurd hp (by decide)) (h10 := h10)

theorem Kept.sch_put {a s : State} {x : Sch} (hm : Has m 0x100) (h : Kept m a s) :
    Kept m a { s with sch := x } :=
  h.frame hm (by intro p hp; cases p <;> first | exact absurd hp (by dsimp only [StatePart.idx]; decide) | rfl | exact ⟨rfl, rfl, rfl⟩)

theorem Kept.dsp_put {a s : State} {x : Dsp} (hm : Has m 0x200) (h : Kept m a s) :
    Kept m a { s with dsp := x } :=
  h.frame hm (by intro p hp; cases p <;> first | exact absurd hp (by dsimp only [StatePart.idx]; decide) | rfl | exact ⟨rfl, rfl, rfl⟩)

theorem Kept.sap_put {a s : State} {x : Sap} (hm : Has m 0x400) (h : Kept m a s) :
    Kept m a { s with sap := x } :=
  h.frame hm (by intro p hp; cases p <;> first | exact absurd hp (by dsimp only [StatePart.idx]; decide) | rfl | exact ⟨rfl, rfl, rfl⟩)

theorem Kept.mix_put {a s : State} {x : Mix} (hm : Has m 0x800) (h : Kept m a s) :
    Kept m a { s with mix := x } :=
  h.frame hm (by intro p hp; cases p <;> first | exact absurd hp (by dsimp only [StatePart.idx]; decide) | rfl | exact ⟨rfl, rfl, rfl⟩)

theorem Kept.pkt_put {a s : State} {x : Pkt} (hm : Has m 0x1000) (h : Kept m a s) :
    Kept m a { s with pkt := x } :=
  h.frame hm (by intro p hp; cases p <;> first | exact absurd hp (by dsimp only [StatePart.idx]; decide) | rfl | exact ⟨rfl, rfl, rfl⟩)

theorem Kept.trf_put {a s : State} {x : Trf} (hm : Has m 0x2000) (h : Kept m a s) :
    Kept m a { s with trf := x } :=
  h.frame hm (by intro p hp; cases p <;> first | exact absurd hp (by dsimp only [StatePart.idx]; decide) | rfl | exact ⟨rfl, rfl, rfl⟩)

theorem Kept.fwd_put {a s : State} {x : Fwd} (hm : Has m 0x4000) (h : Kept m a s) :
    Kept m a { s with fwd := x } :=
  h.frame hm (by intro p hp; cases p <;> first | exact absurd hp (by dsimp only [StatePart.idx]; decide) | rfl | exact ⟨rfl, rfl, rfl⟩)

theorem Kept.vid_put {a s : State} {x : Vid} (hm : Has m 0x8000) (h : Kept m a s) :
    Kept m a { s with vid := x } :=
  h.frame hm (by intro p hp; cases p <;> first | exact absurd hp (by dsimp only [StatePart.idx]; decide) | rfl | exact ⟨rfl, rfl, rfl⟩)

theorem Kept.cmp_put {a s : State} {x : Cmp} (hm : Has m 0x10000) (h : Kept m a s) :
    Kept m a { s with cmp := x } :=
  h.frame hm (by intro p hp; cases p <;> first | exact absurd hp (by dsimp only [StatePart.idx]; decide) | rfl | exact ⟨rfl, rfl, rfl⟩)

theorem Kept.dma_put {a s : State} {x : Dma} (hm : Has m 0x20000) (h : Kept m a s) :
    Kept m a { s with dma := x } :=
  h.frame hm (by intro p hp; cases p <;> first | exact absurd hp (by dsimp only [StatePart.idx]; decide) | rfl | exact ⟨rfl, rfl, rfl⟩)

theorem Kept.mem_put {a s : State} {x : Mem} (hm : Has m 0x40000) (h : Kept m a s) (h5 : x.cells = s.mem.cells := by rfl)
    (h6 : x.epoch = s.mem.epoch := by rfl) (h6' : x.staging = s.mem.staging := by rfl) :
    Kept m a { s with mem := x } :=
  h.frame hm (by intro p hp; cases p <;> first | rfl | exact ⟨h5, h6, h6'⟩ | exact absurd hp (by decide)) (h5 := h5) (h6 := h6) (h6' := h6')

theorem Kept.sea_put {a s : State} {x : Sea} (hm : Has m 0x80000) (h : Kept m a s) :
    Kept m a { s with sea := x } :=
  h.frame hm (by intro p hp; cases p <;> first | exact absurd hp (by dsimp only [StatePart.idx]; decide) | rfl | exact ⟨rfl, rfl, rfl⟩)

theorem Kept.pwr_put {a s : State} {x : Pwr} (hm : Has m 0x100000) (h : Kept m a s) :
    Kept m a { s with pwr := x } :=
  h.frame hm (by intro p hp; cases p <;> first | exact absurd hp (by dsimp only [StatePart.idx]; decide) | rfl | exact ⟨rfl, rfl, rfl⟩)

theorem Kept.flt_put {a s : State} {x : Flt} (hm : Has m 0x200000) (h : Kept m a s) :
    Kept m a { s with flt := x } :=
  h.frame hm (by intro p hp; cases p <;> first | exact absurd hp (by dsimp only [StatePart.idx]; decide) | rfl | exact ⟨rfl, rfl, rfl⟩)

theorem Kept.pair_put {a s : State} {x : Pair} (hm : Has m 0x400000) (h : Kept m a s) :
    Kept m a { s with pair := x } :=
  h.frame hm (by intro p hp; cases p <;> first | exact absurd hp (by dsimp only [StatePart.idx]; decide) | rfl | exact ⟨rfl, rfl, rfl⟩)

theorem Kept.boot_put {a s : State} {x : Boot} (hm : Has m 0x800000) (h : Kept m a s) :
    Kept m a { s with boot := x } :=
  h.frame hm (by intro p hp; cases p <;> first | exact absurd hp (by dsimp only [StatePart.idx]; decide) | rfl | exact ⟨rfl, rfl, rfl⟩)

theorem Kept.diag_put {a s : State} {x : Diag} (hm : Has m 0x1000000) (h : Kept m a s) (h7 : x.fuse = s.diag.fuse := by rfl) (h8 : x.unlocked = s.diag.unlocked := by rfl) (h9 : x.ring = s.diag.ring := by rfl) :
    Kept m a { s with diag := x } :=
  h.frame hm (by intro p hp; cases p <;> first | exact absurd hp (by dsimp only [StatePart.idx]; decide) | rfl | exact ⟨rfl, rfl, rfl⟩) (h7 := h7) (h8 := h8) (h9 := h9)

theorem Kept.ite {a s t : State} {c : Prop} {_ : Decidable c} (h : c → Kept m a s) (k : ¬c → Kept m a t) :
    Kept m a (if c then s else t) := by
  split
  · exact h ‹_›
  · exact k ‹_›

theorem Kept.dite {a : State} {c : Prop} {_ : Decidable c} {f : c → State} {g : ¬c → State} (h : ∀ x, Kept m a (f x))
    (k : ∀ x, Kept m a (g x)) : Kept m a (if x : c then f x else g x) := by
  split
  · exact h ‹_›
  · exact k ‹_›

theorem Kept.foldl {a : State} {β : Type} {f : State → β → State} (l : List β) {s : State}
    (hf : ∀ s b, Kept m a s → Kept m a (f s b)) (h : Kept m a s) : Kept m a (l.foldl f s) := by
  induction l generalizing s with
  | nil => exact h
  | cons b l ih => exact ih (hf s b h)

theorem Kept.foldr {a : State} {β : Type} {f : β → State → State} (l : List β) {s : State}
    (hf : ∀ b s, Kept m a s → Kept m a (f b s)) (h : Kept m a s) : Kept m a (l.foldr f s) := by
  induction l with
  | nil => exact h
  | cons b l ih => exact hf b _ ih

/-! ## Results that hold a state -/

/-- Whatever an option holds has a property. -/
def OptAll {β : Type} (q : β → Prop) : Option β → Prop
  | none => True
  | some x => q x

theorem OptAll.none {β : Type} {q : β → Prop} : OptAll q Option.none := trivial
theorem OptAll.some {β : Type} {q : β → Prop} {x : β} (h : q x) : OptAll q (Option.some x) := h
theorem OptAll.elim {β : Type} {q : β → Prop} {o : Option β} {x : β} (h : OptAll q o) (e : o = Option.some x) : q x := by
  subst e; exact h
theorem OptAll.ite {β : Type} {q : β → Prop} {c : Prop} {_ : Decidable c} {x y : Option β} (h : c → OptAll q x)
    (k : ¬c → OptAll q y) : OptAll q (if c then x else y) := by
  split
  · exact h ‹_›
  · exact k ‹_›

theorem OptAll.getD {β : Type} {q : β → Prop} {o : Option β} {d : β} (h : OptAll q o) (k : q d) : q (o.getD d) := by
  cases o with
  | none => exact k
  | some x => exact h
theorem OptAll.map {β γ : Type} {q : γ → Prop} {o : Option β} {f : β → γ} (h : ∀ x, o = Option.some x → q (f x)) :
    OptAll q (o.map f) := by
  cases o with
  | none => trivial
  | some x => exact h x rfl
theorem OptAll.bind {β γ : Type} {q : γ → Prop} {o : Option β} {f : β → Option γ}
    (h : ∀ x, o = Option.some x → OptAll q (f x)) : OptAll q (o.bind f) := by
  cases o with
  | none => trivial
  | some x => exact h x rfl

/-- A good result has a property. -/
def ExAll {ε β : Type} (q : β → Prop) : Except ε β → Prop
  | .error _ => True
  | .ok x => q x

theorem ExAll.error {ε β : Type} {q : β → Prop} {e : ε} : ExAll q (Except.error e : Except ε β) := trivial
theorem ExAll.ok {ε β : Type} {q : β → Prop} {x : β} (h : q x) : ExAll q (Except.ok x : Except ε β) := h
theorem ExAll.elim {ε β : Type} {q : β → Prop} {o : Except ε β} {x : β} (h : ExAll q o) (e : o = Except.ok x) : q x := by
  subst e; exact h
theorem ExAll.ite {ε β : Type} {q : β → Prop} {c : Prop} {_ : Decidable c} {x y : Except ε β} (h : c → ExAll q x)
    (k : ¬c → ExAll q y) : ExAll q (if c then x else y) := by
  split
  · exact h ‹_›
  · exact k ‹_›

/-- A pair's second part has a property. -/
def SndAll {β γ : Type} (q : γ → Prop) (p : β × γ) : Prop := q p.2

theorem SndAll.mk {β γ : Type} {q : γ → Prop} {x : β} {y : γ} (h : q y) : SndAll q (x, y) := h
theorem SndAll.elim {β γ : Type} {q : γ → Prop} {p : β × γ} {x : β} {y : γ} (h : SndAll q p) (e : p = (x, y)) : q y := by
  subst e; exact h
theorem Kept.snd {β : Type} {a : State} {p : β × State} (h : SndAll (Kept m a) p) : Kept m a p.2 := h
theorem SndAll.snd {β γ δ : Type} {q : γ → Prop} {p : δ × β × γ} (h : SndAll (SndAll q) p) : SndAll q p.2 := h
theorem SndAll.ite {β γ : Type} {q : γ → Prop} {c : Prop} {_ : Decidable c} {x y : β × γ} (h : c → SndAll q x)
    (k : ¬c → SndAll q y) : SndAll q (if c then x else y) := by
  split
  · exact h ‹_›
  · exact k ‹_›
theorem SndAll.foldl {β γ δ : Type} {q : γ → Prop} {f : β × γ → δ → β × γ} (l : List δ) {p : β × γ}
    (hf : ∀ p b, SndAll q p → SndAll q (f p b)) (h : SndAll q p) : SndAll q (l.foldl f p) := by
  induction l generalizing p with
  | nil => exact h
  | cons b l ih => exact ih (hf p b h)

/-- A pair's first part has a property. -/
def FstAll {β γ : Type} (q : β → Prop) (p : β × γ) : Prop := q p.1

theorem FstAll.mk {β γ : Type} {q : β → Prop} {x : β} {y : γ} (h : q x) : FstAll q (x, y) := h
theorem Kept.fst {β : Type} {a : State} {p : State × β} (h : FstAll (Kept m a) p) : Kept m a p.1 := h
theorem FstAll.elim {β γ : Type} {q : β → Prop} {p : β × γ} {x : β} {y : γ} (h : FstAll q p) (e : p = (x, y)) : q x := by
  subst e; exact h
theorem FstAll.ite {β γ : Type} {q : β → Prop} {c : Prop} {_ : Decidable c} {x y : β × γ} (h : c → FstAll q x)
    (k : ¬c → FstAll q y) : FstAll q (if c then x else y) := by
  split
  · exact h ‹_›
  · exact k ‹_›
theorem FstAll.foldl {β γ δ : Type} {q : β → Prop} {f : β × γ → δ → β × γ} (l : List δ) {p : β × γ}
    (hf : ∀ p b, FstAll q p → FstAll q (f p b)) (h : FstAll q p) : FstAll q (l.foldl f p) := by
  induction l generalizing p with
  | nil => exact h
  | cons b l ih => exact ih (hf p b h)

/-- A meaning answers a next state, with a property. -/
def ResAll (q : State → Prop) : Res → Prop
  | .next t => q t
  | _ => False

theorem ResAll.next {q : State → Prop} {t : State} (h : q t) : ResAll q (.next t) := h
theorem ResAll.ite {q : State → Prop} {c : Prop} {_ : Decidable c} {x y : Res} (h : c → ResAll q x)
    (k : ¬c → ResAll q y) : ResAll q (if c then x else y) := by
  split
  · exact h ‹_›
  · exact k ‹_›
theorem ResAll.exists {q : State → Prop} {r : Res} (h : ResAll q r) : ∃ t, r = .next t ∧ q t := by
  cases r with
  | next t => exact ⟨t, rfl, h⟩
  | fault _ => exact h.elim
  | refused _ => exact h.elim

/-! ## The store -/

theorem regsWf_tabSet (t : Tab Nat) (k v : Nat) (h : regsWf t = true) :
    regsWf (tabSet (regDefault k) t k (v % regModulus k)) = true := by
  unfold regsWf at *
  rw [Bool.and_eq_true, List.all_eq_true] at *
  refine ⟨tabSorted_tabSet _ t k _ h.1, ?_⟩
  intro e he
  rcases mem_tabSet he with ⟨rfl, hv⟩ | he
  · have pos : 0 < regModulus k := by
      unfold regModulus; split <;> positivity
    simp only [Bool.and_eq_true, decide_eq_true_eq]
    exact ⟨hv, Nat.mod_lt _ pos⟩
  · exact h.2 e he

theorem regsWf_filter (t : Tab Nat) (p : Nat × Nat → Bool) (h : regsWf t = true) : regsWf (t.filter p) = true := by
  unfold regsWf at *
  rw [Bool.and_eq_true, List.all_eq_true] at *
  exact ⟨tabSorted_filter t p h.1, fun e he => h.2 e (List.mem_of_mem_filter he)⟩

theorem claimsWf_tabSet (t : Tab Nat) (k v : Nat) (h : claimsWf t = true) : claimsWf (tabSet 0 t k v) = true := by
  unfold claimsWf tabWf at *
  rw [Bool.and_eq_true, List.all_eq_true] at *
  refine ⟨tabSorted_tabSet _ t k _ h.1, ?_⟩
  intro e he
  rcases mem_tabSet he with ⟨rfl, hv⟩ | he
  · exact decide_eq_true hv
  · exact h.2 e he

theorem claimsWf_filter (t : Tab Nat) (p : Nat × Nat → Bool) (h : claimsWf t = true) : claimsWf (t.filter p) = true := by
  unfold claimsWf tabWf at *
  rw [Bool.and_eq_true, List.all_eq_true] at *
  exact ⟨tabSorted_filter t p h.1, fun e he => h.2 e (List.mem_of_mem_filter he)⟩

theorem wr_kept {a : State} (hm : Has m 0x2) (k v : Nat) (s : State) (h : Kept m a s) : Kept m a (wr k v s) :=
  h.trans { Kept.refl (m := m) s with
    regs := regsWf_tabSet s.regs k v
    parts := SameBut.grow (by intro p hp; cases p <;> first | exact absurd hp (by dsimp only [StatePart.idx]; decide) | rfl | exact ⟨rfl, rfl, rfl⟩)
      hm }

theorem emit_kept {a : State} (hm : Has m 0x8) (o : Out) (s : State) (h : Kept m a s) : Kept m a (emit o s) :=
  h.trans { Kept.refl (m := m) s with
    history := List.suffix_cons o s.out
    parts := SameBut.grow (by intro p hp; cases p <;> first | exact absurd hp (by dsimp only [StatePart.idx]; decide) | rfl | exact ⟨rfl, rfl, rfl⟩)
      hm }

theorem drew_kept {a : State} (hm : Has m 0x10) (s : State) (h : Kept m a s) : Kept m a (drew s) :=
  h.trans { Kept.refl (m := m) s with
    draws := Nat.le_succ _
    parts := SameBut.grow (by intro p hp; cases p <;> first | exact absurd hp (by dsimp only [StatePart.idx]; decide) | rfl | exact ⟨rfl, rfl, rfl⟩)
      hm }

theorem memSet_wf (s : State) (addr : Nat) (b : Byte) (h : Memory.wf s = true) :
    Memory.wf { s with mem.cells := tabSet (memDefault s addr) s.mem.cells addr b } = true := by
  unfold Memory.wf at *
  rw [Bool.and_eq_true, List.all_eq_true] at *
  refine ⟨tabSorted_tabSet _ _ _ _ h.1, ?_⟩
  intro e he
  rcases mem_tabSet he with ⟨rfl, hv⟩ | he
  · exact decide_eq_true hv
  · exact h.2 e he

theorem memWrite_kept {a : State} (hm : Has m 0x2040000) (addr : Nat) (b : Bytes)
    (s : State) (h : Kept m a s) : Kept m a (memWrite addr b s) := by
  induction b generalizing addr s with
  | nil => exact h
  | cons x b ih => exact ih _ _ (h.trans { Kept.refl (m := m) s with
    mem := memSet_wf s addr x
    parts := SameBut.grow (by intro p hp; cases p <;> first | exact absurd hp (by dsimp only [StatePart.idx]; decide) | rfl)
      hm })

theorem setClaim_kept {a : State} (hm : Has m 0x4000080) (cls inst owner : Nat)
    (s : State) (h : Kept m a s) : Kept m a (setClaim cls inst owner s) :=
  h.trans { Kept.refl (m := m) s with
    claims := claimsWf_tabSet s.dic.claims _ _
    parts := SameBut.grow (by intro p hp; cases p <;> first | exact absurd hp (by dsimp only [StatePart.idx]; decide) | rfl | exact ⟨rfl, rfl, rfl⟩)
      hm }

theorem unclaimAll_kept {a : State} (hm : Has m 0x4000080) (cls owner : Nat)
    (s : State) (h : Kept m a s) : Kept m a (unclaimAll cls owner s) :=
  h.trans { Kept.refl (m := m) s with
    claims := claimsWf_filter s.dic.claims _
    parts := SameBut.grow (by intro p hp; cases p <;> first | exact absurd hp (by dsimp only [StatePart.idx]; decide) | rfl | exact ⟨rfl, rfl, rfl⟩)
      hm }

end Sys2Proof.Machine
end

