-- ==== Sys2Proof/Laws/KeptOps.lean ====
section
/-! SUPPORT. Every effect of Machine/Ops.lean keeps what `Kept` says. -/
set_option Elab.async false
namespace Sys2Proof.Machine

variable {m : Nat} {s₀ : State}

theorem summary_kept (hm : Has m 0x2) (x0 : ℕ) (x1 : Bool) (s : State)
    (hs : Kept m s₀ s) :
    Kept m s₀ (summary x0 x1 s) := by
  unfold summary
  apply wr_kept (hm.sub rfl)
  assumption

theorem memClear_kept (hm : Has m 0x2040000) (x0 x1 : ℕ) (s : State) (hs : Kept m s₀ s) : Kept m s₀ (memClear x0 x1 s) := by
  refine hs.trans { Kept.refl (m := m) s with
      mem := fun h => ?_
      parts := SameBut.grow (v := 0x2040000)
        (by intro p hp; cases p <;> first | exact absurd hp (by dsimp only [StatePart.idx]; decide) | rfl | exact ⟨rfl, rfl, rfl⟩) (hm.sub rfl) }
  unfold Memory.wf at *
  rw [Bool.and_eq_true, List.all_eq_true] at *
  exact ⟨tabSorted_filter _ _ h.1, fun e he => h.2 e (List.mem_of_mem_filter he)⟩

theorem stagingLost_kept (hm : Has m 0x2040000) (c : ℕ) (s : State) (hs : Kept m s₀ s) : Kept m s₀ (stagingLost c s) := by
  refine hs.trans { Kept.refl (m := m) s with
      mem := fun h => ?_
      parts := SameBut.grow (v := 0x2040000)
        (by intro p hp; cases p <;> first | exact absurd hp (by dsimp only [StatePart.idx]; decide) | rfl | exact ⟨rfl, rfl, rfl⟩) (hm.sub rfl) }
  unfold Memory.wf at *
  rw [Bool.and_eq_true, List.all_eq_true] at *
  refine ⟨tabSorted_filter _ _ h.1, ?_⟩
  intro e he
  have h2 := of_decide_eq_true (h.2 e (List.mem_of_mem_filter he))
  have h3 := (List.mem_filter.mp he).2
  simp only [Bool.not_eq_true', Bool.and_eq_false_iff, decide_eq_false_iff_not] at h3
  apply decide_eq_true
  unfold memDefault at *
  split
  · rename_i lt
    rw [if_pos lt] at h2
    exact h2
  · rename_i ge
    rw [if_neg ge] at h2
    split
    · rename_i half
      rw [if_pos half] at h2
      have far : (e.1 - sramBase) / sramSize ≠ c := by
        intro q
        subst q
        have := Nat.div_add_mod (e.1 - sramBase) sramSize
        omega
      have same : tabGet 0 (stagingLost c s).mem.staging ((e.1 - sramBase) / sramSize)
          = tabGet 0 s.mem.staging ((e.1 - sramBase) / sramSize) := by
        show tabGet 0 (tabSet 0 s.mem.staging c (tabGet 0 s.mem.staging c + 1)) _ = _
        exact tabGet_tabSet_other _ _ _ _ _ _ far
      rw [same]
      exact h2
    · rename_i half
      rw [if_neg half] at h2
      exact h2

theorem bumpBy_kept (hm : Has m 0x2) (x0 : ℕ) (x1 : ℕ) (s : State)
    (hs : Kept m s₀ s) :
    Kept m s₀ (bumpBy x0 x1 s) := by
  unfold bumpBy
  apply wr_kept (hm.sub rfl)
  assumption

theorem clearChannel_kept (hm : Has m 0x200002) (x0 : ℕ) (x1 : ℕ) (s : State)
    (hs : Kept m s₀ s) :
    Kept m s₀ (clearChannel x0 x1 s) := by
  unfold clearChannel
  dsimp only
  apply Kept.ite
  · intro h2
    apply summary_kept (hm.sub rfl)
    apply wr_kept (hm.sub rfl)
    apply wr_kept (hm.sub rfl)
    refine Kept.flt_put (hm.sub rfl) ?_
    assumption
  · intro h2
    refine Kept.flt_put (hm.sub rfl) ?_
    assumption

theorem bump_kept (hm : Has m 0x2) (x0 : ℕ) (s : State)
    (hs : Kept m s₀ s) :
    Kept m s₀ (bump x0 s) := by
  unfold bump
  apply bumpBy_kept (hm.sub rfl)
  assumption

theorem upd_kept (hm : Has m 0x0) (x0 : Bool) (x1 : State → State) (s : State)
    (hf1 : ∀ y0, Kept m s₀ y0 → (Kept m s₀) (x1 y0)) (hs : Kept m s₀ s) :
    Kept m s₀ (upd x0 x1 s) := by
  unfold upd
  apply Kept.ite
  · intro h1
    apply hf1
    assumption
  · exact fun _ => by assumption

theorem storm_kept (hm : Has m 0x1000002) (x0 : ℕ) (x1 : ℕ) (x2 : List ℕ) (s : State) (hs : Kept m s₀ s) : Kept m s₀ (storm x0 x1 x2 s) := by
  unfold storm
  dsimp only
  apply upd_kept (hm.sub rfl)
  · intro y h
    exact bump_kept (hm.sub rfl) _ _ h
  · apply wr_kept (hm.sub rfl)
    refine hs.trans { Kept.refl (m := m) s with
      ring := fun _ => ?_
      parts := SameBut.grow (v := 0x1000000)
        (by intro p hp; cases p <;> first | exact absurd hp (by dsimp only [StatePart.idx]; decide) | rfl | exact ⟨rfl, rfl, rfl⟩) (hm.sub rfl) }
    simp only [List.length_cons, List.length_take]
    omega

theorem markRetired_kept (hm : Has m 0x1200002) (x0 : ℕ) (x1 : ℕ) (x2 : ℕ) (s : State)
    (hs : Kept m s₀ s) :
    Kept m s₀ (markRetired x0 x1 x2 s) := by
  unfold markRetired
  apply Kept.ite
  · exact fun _ => by assumption
  · intro h1
    dsimp only
    apply summary_kept (hm.sub rfl)
    apply bump_kept (hm.sub rfl)
    apply bump_kept (hm.sub rfl)
    apply storm_kept (hm.sub rfl)
    refine Kept.flt_put (hm.sub rfl) ?_
    assumption

theorem emitIf_kept (hm : Has m 0x8) (x0 : Bool) (x1 : Out) (s : State)
    (hs : Kept m s₀ s) :
    Kept m s₀ (emitIf x0 x1 s) := by
  unfold emitIf
  apply Kept.ite
  · intro h1
    apply emit_kept (hm.sub rfl)
    assumption
  · exact fun _ => by assumption

theorem pwrEvt_kept (hm : Has m 0x100008) (x0 : ℕ) (s : State)
    (hs : Kept m s₀ s) :
    Kept m s₀ (pwrEvt x0 s) := by
  unfold pwrEvt
  apply emitIf_kept (hm.sub rfl)
  refine Kept.pwr_put (hm.sub rfl) ?_
  assumption

theorem wrI_kept (hm : Has m 0x2) (x0 : ℕ) (x1 : ℕ) (x2 : ℤ) (s : State)
    (hs : Kept m s₀ s) :
    Kept m s₀ (wrI x0 x1 x2 s) := by
  unfold wrI
  apply wr_kept (hm.sub rfl)
  assumption

theorem claim_kept (hm : Has m 0x4000080) (x0 : ℕ) (x1 : ℕ) (x2 : ℕ) (s : State)
    (hs : Kept m s₀ s) :
    OptAll (Kept m s₀) (claim x0 x1 x2 s) := by
  unfold claim
  apply OptAll.ite
  · intro h1
    apply OptAll.some
    apply setClaim_kept (hm.sub rfl)
    assumption
  · exact fun _ => OptAll.none

theorem claim_elim {x0 : ℕ} {x1 : ℕ} {x2 : ℕ} {s : State}  {t : State} (hm : Has m 0x4000080) (e : (claim x0 x1 x2 s) = (some t))
    (hs : Kept m s₀ s) : Kept m s₀ t := by
  have hk := claim_kept hm x0 x1 x2 s hs
  rw [e] at hk
  exact (OptAll.elim hk rfl)

theorem badAccess_kept (hm : Has m 0x2) (x0 : ℕ) (x1 : ℕ) (s : State)
    (hs : Kept m s₀ s) :
    Kept m s₀ (badAccess x0 x1 s) := by
  unfold badAccess
  apply wr_kept (hm.sub rfl)
  apply bump_kept (hm.sub rfl)
  assumption

theorem unclaim_kept (hm : Has m 0x4000080) (x0 : ℕ) (x1 : ℕ) (x2 : ℕ) (s : State)
    (hs : Kept m s₀ s) :
    Kept m s₀ (unclaim x0 x1 x2 s) := by
  unfold unclaim
  apply Kept.ite
  · intro h1
    apply setClaim_kept (hm.sub rfl)
    assumption
  · exact fun _ => by assumption

theorem clearChannels_kept (hm : Has m 0x200002) (x0 : ℕ → Bool) (s : State)
    (hs : Kept m s₀ s) :
    Kept m s₀ (clearChannels x0 s) := by
  unfold clearChannels
  dsimp only
  apply Kept.foldl
  · intro s2 b3 h4
    apply clearChannel_kept (hm.sub rfl)
    assumption
  · assumption

theorem schEvt_kept (hm : Has m 0x108) (x0 : ℕ) (s : State)
    (hs : Kept m s₀ s) :
    Kept m s₀ (schEvt x0 s) := by
  unfold schEvt
  apply emitIf_kept (hm.sub rfl)
  refine Kept.sch_put (hm.sub rfl) ?_
  assumption

theorem wrBlob_kept (hm : Has m 0x4) (x0 : ℕ) (x1 : Bytes) (s : State)
    (hs : Kept m s₀ s) :
    Kept m s₀ (wrBlob x0 x1 s) := by
  unfold wrBlob
  refine Kept.blobs_put (hm.sub rfl) ?_
  assumption

theorem upset_kept (hm : Has m 0x1200002) (x0 : ℕ) (x1 : ℕ) (s : State)
    (hs : Kept m s₀ s) :
    FstAll (Kept m s₀) (upset x0 x1 s) := by
  unfold upset
  dsimp only
  apply FstAll.ite
  · intro h2
    apply FstAll.mk
    apply markRetired_kept (hm.sub rfl)
    apply bump_kept (hm.sub rfl)
    apply bump_kept (hm.sub rfl)
    refine Kept.flt_put (hm.sub rfl) ?_
    assumption
  · intro h2
    apply FstAll.mk
    apply bump_kept (hm.sub rfl)
    apply bump_kept (hm.sub rfl)
    refine Kept.flt_put (hm.sub rfl) ?_
    assumption

theorem upset_elim {x0 : ℕ} {x1 : ℕ} {s : State} {v0} {t : State} (hm : Has m 0x1200002) (e : (upset x0 x1 s) = (t, v0))
    (hs : Kept m s₀ s) : Kept m s₀ t := by
  have hk := upset_kept hm x0 x1 s hs
  rw [e] at hk
  exact (FstAll.elim hk rfl)

end Sys2Proof.Machine
end

