-- ==== Sys2Proof/Laws/KeptDomain.lean ====
section
/-! SUPPORT. Every effect of Machine/Domain.lean keeps what `Kept` says. -/
set_option Elab.async false
namespace Sys2Proof.Machine

variable {m : Nat} {s₀ : State}

theorem domainUpd_kept (hm : Has m 0x100000) (x0 : ℕ) (x1 : Domain → Domain) (s : State)
    (hs : Kept m s₀ s) :
    Kept m s₀ (domainUpd x0 x1 s) := by
  unfold domainUpd
  refine Kept.pwr_put (hm.sub rfl) ?_
  assumption

theorem driveVme_kept (hm : Has m 0x100008) (x0 : Bool) (s : State)
    (hs : Kept m s₀ s) :
    Kept m s₀ (driveVme x0 s) := by
  unfold driveVme
  apply Kept.ite
  · exact fun _ => by assumption
  · intro h1
    apply emit_kept (hm.sub rfl)
    refine Kept.pwr_put (hm.sub rfl) ?_
    assumption

theorem driveVsd_kept (hm : Has m 0x100008) (x0 : Bool) (s : State)
    (hs : Kept m s₀ s) :
    Kept m s₀ (driveVsd x0 s) := by
  unfold driveVsd
  apply Kept.ite
  · exact fun _ => by assumption
  · intro h1
    apply emit_kept (hm.sub rfl)
    refine Kept.pwr_put (hm.sub rfl) ?_
    assumption

theorem wakeDomain_kept (hm : Has m 0x10000a) (x0 : ℕ) (s : State)
    (hs : Kept m s₀ s) :
    Kept m s₀ (wakeDomain x0 s) := by
  unfold wakeDomain
  dsimp only
  apply Kept.ite
  · intro h2
    apply domainUpd_kept (hm.sub rfl)
    apply wr_kept (hm.sub rfl)
    apply upd_kept (hm.sub rfl)
    · intro y06 h7
      apply driveVme_kept (hm.sub rfl)
      assumption
    · apply upd_kept (hm.sub rfl)
      · intro y07 h8
        apply driveVsd_kept (hm.sub rfl)
        assumption
      · assumption
  · exact fun _ => by assumption

theorem enterLull_kept (hm : Has m 0x100002) (x0 : ℕ) (s : State)
    (hs : Kept m s₀ s) :
    Kept m s₀ (enterLull x0 s) := by
  unfold enterLull
  apply Kept.ite
  · intro h1
    apply wr_kept (hm.sub rfl)
    refine Kept.pwr_put (hm.sub rfl) ?_
    assumption
  · exact fun _ => by assumption

theorem wakeHub_kept (hm : Has m 0x10000a) (x0 : ℕ) (s : State)
    (hs : Kept m s₀ s) :
    Kept m s₀ (wakeHub x0 s) := by
  unfold wakeHub
  dsimp only
  apply Kept.ite
  · intro h2
    apply Kept.foldl
    · intro s4 b5 h6
      apply wakeDomain_kept (hm.sub rfl)
      assumption
    · apply wr_kept (hm.sub rfl)
      apply wr_kept (hm.sub rfl)
      apply wr_kept (hm.sub rfl)
      refine Kept.pwr_put (hm.sub rfl) ?_
      assumption
  · intro h2
    split
    · refine Kept.pwr_put (hm.sub rfl) ?_
      assumption
    · assumption

theorem leaveLull_kept (hm : Has m 0x100002) (x0 : ℕ) (s : State)
    (hs : Kept m s₀ s) :
    Kept m s₀ (leaveLull x0 s) := by
  unfold leaveLull
  apply Kept.ite
  · intro h1
    apply wr_kept (hm.sub rfl)
    refine Kept.pwr_put (hm.sub rfl) ?_
    assumption
  · exact fun _ => by assumption

theorem latchEvent_kept (hm : Has m 0x100002) (x0 : ℕ) (x1 : ℕ) (x2 : Instant) (s : State)
    (hs : Kept m s₀ s) :
    Kept m s₀ (latchEvent x0 x1 x2 s) := by
  unfold latchEvent
  dsimp only
  apply Kept.ite
  · intro h2
    apply bump_kept (hm.sub rfl)
    refine Kept.pwr_put (hm.sub rfl) ?_
    assumption
  · intro h2
    apply Kept.ite
    · exact fun _ => by assumption
    · intro h4
      apply wr_kept (hm.sub rfl)
      refine Kept.pwr_put (hm.sub rfl) ?_
      assumption

end Sys2Proof.Machine
end

