-- ==== Sys2Proof/Laws/KeptOctets.lean ====
section
/-! SUPPORT. Every effect of Machine/Octets.lean keeps what `Kept` says. -/
set_option Elab.async false
namespace Sys2Proof.Machine

variable {m : Nat} {s₀ : State}

theorem headerPut_kept (hm : Has m 0x800008) (x0 : Boot → Boot) (s : State)
    (hs : Kept m s₀ s) :
    Kept m s₀ (headerPut x0 s) := by
  unfold headerPut
  dsimp only
  apply emit_kept (hm.sub rfl)
  apply emit_kept (hm.sub rfl)
  refine Kept.boot_put (hm.sub rfl) ?_
  assumption

end Sys2Proof.Machine
end

