-- ==== Sys2Proof/Laws/KeptPairLink.lean ====
section
/-! SUPPORT. Every effect of Machine/PairLink.lean keeps what `Kept` says. -/
set_option Elab.async false
namespace Sys2Proof.Machine

variable {m : Nat} {s₀ : State}

theorem pairEmit_kept (hm : Has m 0x8) (x0 : ℕ) (x1 : PMsg) (s : State)
    (hs : Kept m s₀ s) :
    Kept m s₀ (pairEmit x0 x1 s) := by
  unfold pairEmit
  dsimp only
  apply emit_kept (hm.sub rfl)
  apply emit_kept (hm.sub rfl)
  assumption

theorem pairSend_kept (hm : Has m 0x400008) (x0 : PMsg) (s : State)
    (hs : Kept m s₀ s) :
    Kept m s₀ (pairSend x0 s) := by
  unfold pairSend
  apply Kept.ite
  · exact fun _ => by assumption
  · intro h1
    dsimp only
    apply Kept.ite
    · intro h4
      apply Kept.ite
      · intro h6
        refine Kept.pair_put (hm.sub rfl) ?_
        assumption
      · intro h6
        apply pairEmit_kept (hm.sub rfl)
        refine Kept.pair_put (hm.sub rfl) ?_
        assumption
    · intro h4
      apply pairEmit_kept (hm.sub rfl)
      refine Kept.pair_put (hm.sub rfl) ?_
      assumption

theorem pairDrain_kept (hm : Has m 0x400008) (x0 : ℕ) (s : State)
    (hs : Kept m s₀ s) :
    Kept m s₀ (pairDrain x0 s) := by
  unfold pairDrain
  split
  · assumption
  · split
    · assumption
    · apply Kept.ite
      · exact fun _ => by assumption
      · intro h3
        apply pairDrain_kept (hm.sub rfl)
        apply pairSend_kept (hm.sub rfl)
        refine Kept.pair_put (hm.sub rfl) ?_
        assumption

theorem pairAcked_kept (hm : Has m 0x4000) (x0 : PMsg) (s : State)
    (hs : Kept m s₀ s) :
    Kept m s₀ (pairAcked x0 s) := by
  unfold pairAcked
  split
  · refine Kept.fwd_put (hm.sub rfl) ?_
    assumption
  · assumption

theorem pairAck_kept (hm : Has m 0x404008) (x0 : ℕ) (s : State)
    (hs : Kept m s₀ s) :
    Kept m s₀ (pairAck x0 s) := by
  unfold pairAck
  dsimp only
  apply Kept.ite
  · intro h2
    apply pairDrain_kept (hm.sub rfl)
    apply Kept.foldl
    · intro s5 b6 h7
      apply pairAcked_kept (hm.sub rfl)
      assumption
    · refine Kept.pair_put (hm.sub rfl) ?_
      assumption
  · exact fun _ => by assumption

theorem pairRecv_kept (hm : Has m 0x40400a) (x0 : Bool) (x1 : PHdr) (s : State)
    (hs : Kept m s₀ s) :
    SndAll (Kept m s₀) (pairRecv x0 x1 s) := by
  unfold pairRecv
  apply SndAll.ite
  · intro h1
    apply SndAll.mk
    assumption
  · intro h1
    apply SndAll.ite
    · intro h3
      apply SndAll.mk
      apply bump_kept (hm.sub rfl)
      assumption
    · intro h3
      dsimp only
      apply SndAll.ite
      · intro h6
        apply SndAll.mk
        apply pairAck_kept (hm.sub rfl)
        refine Kept.pair_put (hm.sub rfl) ?_
        assumption
      · intro h6
        apply SndAll.ite
        · intro h8
          apply SndAll.mk
          refine Kept.pair_put (hm.sub rfl) ?_
          apply pairAck_kept (hm.sub rfl)
          refine Kept.pair_put (hm.sub rfl) ?_
          assumption
        · intro h8
          apply SndAll.mk
          apply pairAck_kept (hm.sub rfl)
          refine Kept.pair_put (hm.sub rfl) ?_
          assumption

theorem pairRecv_elim {x0 : Bool} {x1 : PHdr} {s : State} {v0} {t : State} (hm : Has m 0x40400a) (e : (pairRecv x0 x1 s) = (v0, t))
    (hs : Kept m s₀ s) : Kept m s₀ t := by
  have hk := pairRecv_kept hm x0 x1 s hs
  rw [e] at hk
  exact (SndAll.elim hk rfl)

theorem onPair_kept (hm : Has m 0x40400a) (x0 : Bool) (x1 : PHdr) (x2 : State → State) (s : State)
    (hf2 : ∀ y0, Kept m s₀ y0 → (Kept m s₀) (x2 y0)) (hs : Kept m s₀ s) :
    ResAll (Kept m s₀) (onPair x0 x1 x2 s) := by
  unfold onPair
  split
  · apply ResAll.next
    apply hf2
    apply pairRecv_elim (hm.sub rfl) (by assumption)
    assumption
  · apply ResAll.next
    apply pairRecv_elim (hm.sub rfl) (by assumption)
    assumption

end Sys2Proof.Machine
end

