-- ==== Sys2Proof/Laws/KeptSched.lean ====
section
/-! SUPPORT. Every effect of Machine/Sched.lean keeps what `Kept` says. -/
set_option Elab.async false
namespace Sys2Proof.Machine

variable {m : Nat} {s₀ : State}

theorem checkpointStart_kept (hm : Has m 0x100) (s : State)
    (hs : Kept m s₀ s) :
    Kept m s₀ (checkpointStart s) := by
  unfold checkpointStart
  refine Kept.sch_put (hm.sub rfl) ?_
  assumption

theorem execCheckpoint_kept (hm : Has m 0x100) (s : State)
    (hs : Kept m s₀ s) :
    ResAll (Kept m s₀) (execCheckpoint s) := by
  unfold execCheckpoint
  apply ResAll.next
  apply Kept.ite
  · exact fun _ => by assumption
  · intro h2
    refine Kept.sch_put (hm.sub rfl) ?_
    assumption

theorem vanePut_kept (hm : Has m 0x2040102) (x0 : ℕ) (x1 : Item) (x2 : ℕ) (x3 : ℕ) (x4 : ℕ) (s : State)
    (hs : Kept m s₀ s) :
    Kept m s₀ (vanePut x0 x1 x2 x3 x4 s) := by
  unfold vanePut
  dsimp only
  apply Kept.ite
  · intro h2
    apply wr_kept (hm.sub rfl)
    apply bump_kept (hm.sub rfl)
    refine Kept.sch_put (hm.sub rfl) ?_
    apply memWrite_kept (hm.sub rfl)
    assumption
  · intro h2
    apply upd_kept (hm.sub rfl)
    · intro y04 h5
      apply wr_kept (hm.sub rfl)
      assumption
    · apply wr_kept (hm.sub rfl)
      apply bump_kept (hm.sub rfl)
      refine Kept.sch_put (hm.sub rfl) ?_
      apply memWrite_kept (hm.sub rfl)
      assumption

theorem vane_kept (hm : Has m 0x2040102) (x0 : ℕ) (x1 : Item) (x2 : ℕ) (x3 : ℕ) (x4 : ℕ) (s : State)
    (hs : Kept m s₀ s) :
    Kept m s₀ (vane x0 x1 x2 x3 x4 s) := by
  unfold vane
  apply Kept.ite
  · exact fun _ => by assumption
  · intro h1
    apply Kept.ite
    · intro h3
      apply bump_kept (hm.sub rfl)
      refine Kept.sch_put (hm.sub rfl) ?_
      assumption
    · intro h3
      apply vanePut_kept (hm.sub rfl)
      assumption

theorem reject_kept (hm : Has m 0x2040102) (x0 : ℕ) (x1 : Item) (x2 : Status) (s : State)
    (hs : Kept m s₀ s) :
    Kept m s₀ (reject x0 x1 x2 s) := by
  unfold reject
  apply bump_kept (hm.sub rfl)
  apply vane_kept (hm.sub rfl)
  assumption

theorem mirrorPut_kept (hm : Has m 0x2040000) (x0 : ℕ) (x1 : Bytes) (s : State)
    (hs : Kept m s₀ s) :
    Kept m s₀ (mirrorPut x0 x1 s) := by
  unfold mirrorPut
  apply Kept.foldl
  · intro s1 b2 h3
    apply memWrite_kept (hm.sub rfl)
    assumption
  · assumption

theorem stageData_kept (hm : Has m 0x2440008) (x0 : Durable) (x1 : ℕ) (s : State)
    (hs : Kept m s₀ s) :
    Kept m s₀ (stageData x0 x1 s) := by
  unfold stageData
  split
  · dsimp only
    apply upd_kept (hm.sub rfl)
    · intro y03 h4
      apply pairSend_kept (hm.sub rfl)
      assumption
    · apply mirrorPut_kept (hm.sub rfl)
      assumption
  · assumption

theorem jrnlMarks_kept (hm : Has m 0x10a) (x0 : Bool) (s : State)
    (hs : Kept m s₀ s) :
    Kept m s₀ (jrnlMarks x0 s) := by
  unfold jrnlMarks
  dsimp only
  apply upd_kept (hm.sub rfl)
  · intro y02 h3
    apply schEvt_kept (hm.sub rfl)
    assumption
  · apply summary_kept (hm.sub rfl)
    assumption

theorem jrnlWrite_kept (hm : Has m 0x244010a) (x0 : ℕ) (x1 : ℕ) (x2 : ℕ) (x3 : ℕ) (x4 : ℕ) (x5 : ℕ) (x6 : Option ℕ) (x7 : Durable) (s : State)
    (hs : Kept m s₀ s) :
    SndAll (Kept m s₀) (jrnlWrite x0 x1 x2 x3 x4 x5 x6 x7 s) := by
  unfold jrnlWrite
  split
  · apply SndAll.mk
    apply bump_kept (hm.sub rfl)
    assumption
  · dsimp only
    split
    · apply SndAll.mk
      apply upd_kept (hm.sub rfl)
      · intro y05 h6
        apply pairSend_kept (hm.sub rfl)
        assumption
      · refine Kept.sch_put (hm.sub rfl) ?_
        apply jrnlMarks_kept (hm.sub rfl)
        refine Kept.sch_put (hm.sub rfl) ?_
        apply stageData_kept (hm.sub rfl)
        assumption
    · apply SndAll.mk
      assumption

theorem jrnlWrite_elim {x0 : ℕ} {x1 : ℕ} {x2 : ℕ} {x3 : ℕ} {x4 : ℕ} {x5 : ℕ} {x6 : Option ℕ} {x7 : Durable} {s : State} {v0} {t : State} (hm : Has m 0x244010a) (e : (jrnlWrite x0 x1 x2 x3 x4 x5 x6 x7 s) = (v0, t))
    (hs : Kept m s₀ s) : Kept m s₀ t := by
  have hk := jrnlWrite_kept hm x0 x1 x2 x3 x4 x5 x6 x7 s hs
  rw [e] at hk
  exact (SndAll.elim hk rfl)

theorem setReady_kept (hm : Has m 0x100) (x0 : ℕ) (x1 : List Staged) (s : State)
    (hs : Kept m s₀ s) :
    Kept m s₀ (setReady x0 x1 s) := by
  unfold setReady
  refine Kept.sch_put (hm.sub rfl) ?_
  assumption

theorem toReady_kept (hm : Has m 0x100) (x0 : Staged) (s : State)
    (hs : Kept m s₀ s) :
    Kept m s₀ (toReady x0 s) := by
  unfold toReady
  apply setReady_kept (hm.sub rfl)
  assumption

theorem place_kept (hm : Has m 0x2040102) (x0 : Staged) (s : State)
    (hs : Kept m s₀ s) :
    Kept m s₀ (place x0 s) := by
  unfold place
  apply Kept.ite
  · intro h1
    apply toReady_kept (hm.sub rfl)
    assumption
  · intro h1
    dsimp only
    apply vane_kept (hm.sub rfl)
    refine Kept.sch_put (hm.sub rfl) ?_
    assumption

theorem syncAccept_kept (hm : Has m 0x2) (s : State)
    (hs : Kept m s₀ s) :
    Kept m s₀ (syncAccept s) := by
  unfold syncAccept
  apply wr_kept (hm.sub rfl)
  assumption

theorem enqueue_kept (hm : Has m 0x254010a) (x0 : ℕ) (x1 : ℕ) (x2 : Item) (s : State)
    (hs : Kept m s₀ s) :
    SndAll (Kept m s₀) (enqueue x0 x1 x2 s) := by
  unfold enqueue
  dsimp only
  apply SndAll.ite
  · intro h2
    apply SndAll.mk
    assumption
  · intro h2
    split
    · split
      · apply SndAll.mk
        apply wakeDomain_kept (hm.sub rfl)
        assumption
      · apply SndAll.mk
        apply reject_kept (hm.sub rfl)
        assumption
      · apply SndAll.ite
        · intro h6
          split
          · apply SndAll.mk
            apply vane_kept (hm.sub rfl)
            apply bump_kept (hm.sub rfl)
            apply jrnlWrite_elim (hm.sub rfl) (by assumption)
            assumption
          · apply SndAll.mk
            apply jrnlWrite_elim (hm.sub rfl) (by assumption)
            assumption
          · apply SndAll.mk
            refine Kept.sch_put (hm.sub rfl) ?_
            apply jrnlWrite_elim (hm.sub rfl) (by assumption)
            assumption
          · apply SndAll.mk
            apply reject_kept (hm.sub rfl)
            apply jrnlWrite_elim (hm.sub rfl) (by assumption)
            assumption
        · intro h6
          apply SndAll.mk
          apply place_kept (hm.sub rfl)
          apply syncAccept_kept (hm.sub rfl)
          apply vane_kept (hm.sub rfl)
          apply bump_kept (hm.sub rfl)
          refine Kept.sch_put (hm.sub rfl) ?_
          assumption
    · apply SndAll.mk
      apply reject_kept (hm.sub rfl)
      assumption

theorem enqueue_elim {x0 : ℕ} {x1 : ℕ} {x2 : Item} {s : State} {v0} {t : State} (hm : Has m 0x254010a) (e : (enqueue x0 x1 x2 s) = (v0, t))
    (hs : Kept m s₀ s) : Kept m s₀ t := by
  have hk := enqueue_kept hm x0 x1 x2 s hs
  rw [e] at hk
  exact (SndAll.elim hk rfl)

theorem presentItem_kept (hm : Has m 0x254010a) (x0 : ℕ) (x1 : Item) (s : State)
    (hs : Kept m s₀ s) :
    Kept m s₀ (presentItem x0 x1 s) := by
  unfold presentItem
  split
  · apply emit_kept (hm.sub rfl)
    apply enqueue_elim (hm.sub rfl) (by assumption)
    assumption
  · apply enqueue_elim (hm.sub rfl) (by assumption)
    assumption
  · apply emit_kept (hm.sub rfl)
    apply enqueue_elim (hm.sub rfl) (by assumption)
    assumption
  · refine Kept.sch_put (hm.sub rfl) ?_
    apply enqueue_elim (hm.sub rfl) (by assumption)
    assumption

theorem perform_kept (hm : Has m 0x254010a) (x0 : ℕ) (x1 : ℕ) (x2 : OutAct) (s : State)
    (hs : Kept m s₀ s) :
    Kept m s₀ (perform x0 x1 x2 s) := by
  unfold perform
  split
  · apply emit_kept (hm.sub rfl)
    assumption
  · apply presentItem_kept (hm.sub rfl)
    assumption
  · apply wr_kept (hm.sub rfl)
    assumption
  · apply emit_kept (hm.sub rfl)
    assumption
  · apply emit_kept (hm.sub rfl)
    assumption

theorem unstage_kept (hm : Has m 0x2) (x0 : Staged) (s : State)
    (hs : Kept m s₀ s) :
    Kept m s₀ (unstage x0 s) := by
  unfold unstage
  apply Kept.ite
  · intro h1
    apply wr_kept (hm.sub rfl)
    assumption
  · exact fun _ => by assumption

theorem markPeer_kept (hm : Has m 0x400008) (s : State)
    (hs : Kept m s₀ s) :
    Kept m s₀ (markPeer s) := by
  unfold markPeer
  apply upd_kept (hm.sub rfl)
  · intro y01 h2
    apply pairSend_kept (hm.sub rfl)
    assumption
  · assumption

theorem jrnlUpd_kept (hm : Has m 0x100) (x0 : ℕ) (x1 : JEntry → JEntry) (s : State)
    (hs : Kept m s₀ s) :
    Kept m s₀ (jrnlUpd x0 x1 s) := by
  unfold jrnlUpd
  refine Kept.sch_put (hm.sub rfl) ?_
  assumption

theorem jrnlCommit_kept (hm : Has m 0x244010a) (x0 : ℕ) (s : State)
    (hs : Kept m s₀ s) :
    Kept m s₀ (jrnlCommit x0 s) := by
  unfold jrnlCommit
  split
  · apply Kept.ite
    · exact fun _ => by assumption
    · intro h2
      apply markPeer_kept (hm.sub rfl)
      apply vane_kept (hm.sub rfl)
      apply jrnlUpd_kept (hm.sub rfl)
      assumption
  · assumption

theorem releaseItem_kept (hm : Has m 0x254010a) (x0 : ℕ) (x1 : Staged) (x2 : List OutAct) (s : State)
    (hs : Kept m s₀ s) :
    Kept m s₀ (releaseItem x0 x1 x2 s) := by
  unfold releaseItem
  dsimp only
  apply unstage_kept (hm.sub rfl)
  apply Kept.ite
  · intro h3
    apply jrnlCommit_kept (hm.sub rfl)
    apply vane_kept (hm.sub rfl)
    apply Kept.foldl
    · intro s7 b8 h9
      apply perform_kept (hm.sub rfl)
      assumption
    · assumption
  · intro h3
    apply vane_kept (hm.sub rfl)
    apply Kept.foldl
    · intro s6 b7 h8
      apply perform_kept (hm.sub rfl)
      assumption
    · assumption

theorem jrnlFree_kept (hm : Has m 0x244010a) (s : State)
    (hs : Kept m s₀ s) :
    Kept m s₀ (jrnlFree s) := by
  unfold jrnlFree
  split
  · assumption
  · dsimp only
    apply upd_kept (hm.sub rfl)
    · intro y03 h4
      apply markPeer_kept (hm.sub rfl)
      assumption
    · apply jrnlMarks_kept (hm.sub rfl)
      refine Kept.sch_put (hm.sub rfl) ?_
      apply Kept.foldl
      · intro s6 b7 h8
        apply vane_kept (hm.sub rfl)
        assumption
      · assumption

theorem sqUpd_kept (hm : Has m 0x100) (x0 : ℕ) (x1 : Sq → Sq) (s : State)
    (hs : Kept m s₀ s) :
    Kept m s₀ (sqUpd x0 x1 s) := by
  unfold sqUpd
  refine Kept.sch_put (hm.sub rfl) ?_
  assumption

theorem sqDone_kept (hm : Has m 0x100) (x0 : ℕ) (x1 : ℕ) (s : State)
    (hs : Kept m s₀ s) :
    Kept m s₀ (sqDone x0 x1 s) := by
  unfold sqDone
  apply sqUpd_kept (hm.sub rfl)
  assumption

theorem sqReject_kept (hm : Has m 0x10a) (x0 : ℕ) (x1 : ℕ) (x2 : Status) (s : State)
    (hs : Kept m s₀ s) :
    Kept m s₀ (sqReject x0 x1 x2 s) := by
  unfold sqReject
  dsimp only
  apply schEvt_kept (hm.sub rfl)
  apply bump_kept (hm.sub rfl)
  apply sqUpd_kept (hm.sub rfl)
  assumption

theorem sqRead_kept (hm : Has m 0x254010a) (x0 : ℕ) (x1 : ℕ) (s : State)
    (hs : Kept m s₀ s) :
    Kept m s₀ (sqRead x0 x1 s) := by
  unfold sqRead
  split
  · assumption
  · dsimp only
    apply Kept.ite
    · exact fun _ => by assumption
    · intro h3
      split
      · apply sqRead_kept (hm.sub rfl)
        apply sqDone_kept (hm.sub rfl)
        apply sqUpd_kept (hm.sub rfl)
        apply bump_kept (hm.sub rfl)
        apply enqueue_elim (hm.sub rfl) (by assumption)
        assumption
      · apply sqRead_kept (hm.sub rfl)
        apply sqUpd_kept (hm.sub rfl)
        apply bump_kept (hm.sub rfl)
        apply enqueue_elim (hm.sub rfl) (by assumption)
        assumption
      · apply sqRead_kept (hm.sub rfl)
        apply sqDone_kept (hm.sub rfl)
        apply sqReject_kept (hm.sub rfl)
        apply sqUpd_kept (hm.sub rfl)
        apply enqueue_elim (hm.sub rfl) (by assumption)
        assumption
      · apply enqueue_elim (hm.sub rfl) (by assumption)
        assumption

theorem sqTailPut_kept (hm : Has m 0x254010a) (x0 : ℕ) (x1 : ℕ) (s : State)
    (hs : Kept m s₀ s) :
    Kept m s₀ (sqTailPut x0 x1 s) := by
  unfold sqTailPut
  dsimp only
  apply Kept.ite
  · intro h2
    apply bump_kept (hm.sub rfl)
    assumption
  · intro h2
    apply Kept.ite
    · exact fun _ => by assumption
    · intro h4
      apply Kept.ite
      · intro h6
        apply bump_kept (hm.sub rfl)
        assumption
      · intro h6
        apply Kept.ite
        · intro h8
          apply sqRead_kept (hm.sub rfl)
          apply sqUpd_kept (hm.sub rfl)
          assumption
        · intro h8
          apply sqUpd_kept (hm.sub rfl)
          assumption

theorem pendingEnds_kept (hm : Has m 0x10a) (x0 : ℕ) (x1 : ℕ) (x2 : Staged) (s : State)
    (hs : Kept m s₀ s) :
    Kept m s₀ (pendingEnds x0 x1 x2 s) := by
  unfold pendingEnds
  apply Kept.ite
  · intro h1
    apply Kept.ite
    · intro h3
      apply sqDone_kept (hm.sub rfl)
      apply sqReject_kept (hm.sub rfl)
      assumption
    · intro h3
      apply emit_kept (hm.sub rfl)
      assumption
  · exact fun _ => by assumption

theorem unhold_kept (hm : Has m 0x100) (x0 : ℕ) (s : State)
    (hs : Kept m s₀ s) :
    Kept m s₀ (unhold x0 s) := by
  unfold unhold
  split
  · assumption
  · apply Kept.ite
    · intro h2
      apply toReady_kept (hm.sub rfl)
      refine Kept.sch_put (hm.sub rfl) ?_
      assumption
    · exact fun _ => by assumption

theorem releaseFlow_kept (hm : Has m 0x254010a) (x0 : ℕ) (x1 : ℕ) (s : State)
    (hs : Kept m s₀ s) :
    Kept m s₀ (releaseFlow x0 x1 s) := by
  unfold releaseFlow
  split
  · assumption
  · split
    · apply Kept.ite
      · intro h3
        dsimp only
        apply releaseFlow_kept (hm.sub rfl)
        apply unhold_kept (hm.sub rfl)
        apply Kept.ite
        · intro h8
          refine Kept.sch_put (hm.sub rfl) ?_
          assumption
        · intro h8
          apply releaseItem_kept (hm.sub rfl)
          refine Kept.sch_put (hm.sub rfl) ?_
          assumption
      · exact fun _ => by assumption
    · assumption

theorem discardItem_kept (hm : Has m 0x254010a) (x0 : Bool) (x1 : Staged) (s : State)
    (hs : Kept m s₀ s) :
    Kept m s₀ (discardItem x0 x1 s) := by
  unfold discardItem
  dsimp only
  apply Kept.ite
  · intro h2
    apply releaseFlow_kept (hm.sub rfl)
    refine Kept.sch_put (hm.sub rfl) ?_
    apply upd_kept (hm.sub rfl)
    · intro y06 h7
      apply emit_kept (hm.sub rfl)
      assumption
    · apply bump_kept (hm.sub rfl)
      apply schEvt_kept (hm.sub rfl)
      assumption
  · intro h2
    apply upd_kept (hm.sub rfl)
    · intro y04 h5
      apply emit_kept (hm.sub rfl)
      assumption
    · apply bump_kept (hm.sub rfl)
      apply schEvt_kept (hm.sub rfl)
      assumption

theorem joinFlow_kept (hm : Has m 0x100) (x0 : ℕ) (x1 : Staged) (s : State)
    (hs : Kept m s₀ s) :
    Kept m s₀ (joinFlow x0 x1 s) := by
  unfold joinFlow
  apply Kept.ite
  · exact fun _ => by assumption
  · intro h1
    refine Kept.sch_put (hm.sub rfl) ?_
    assumption

theorem completeItem_kept (hm : Has m 0x254010a) (x0 : ℕ) (x1 : Staged) (x2 : List OutAct) (s : State)
    (hs : Kept m s₀ s) :
    Kept m s₀ (completeItem x0 x1 x2 s) := by
  unfold completeItem
  apply Kept.ite
  · intro h1
    dsimp only
    apply releaseFlow_kept (hm.sub rfl)
    refine Kept.sch_put (hm.sub rfl) ?_
    apply joinFlow_kept (hm.sub rfl)
    assumption
  · intro h1
    apply releaseItem_kept (hm.sub rfl)
    assumption

theorem poison_kept (hm : Has m 0x354010a) (x0 : ℕ) (x1 : Staged) (x2 : Option ℕ) (s : State)
    (hs : Kept m s₀ s) :
    Kept m s₀ (poison x0 x1 x2 s) := by
  unfold poison
  dsimp only
  apply completeItem_kept (hm.sub rfl)
  apply schEvt_kept (hm.sub rfl)
  apply bump_kept (hm.sub rfl)
  apply storm_kept (hm.sub rfl)
  apply Kept.ite
  · intro h6
    apply jrnlUpd_kept (hm.sub rfl)
    assumption
  · exact fun _ => by assumption

theorem restage_kept (hm : Has m 0x354010a) (x0 : ℕ) (x1 : Staged) (x2 : Staged → State → State) (s : State)
    (hf2 : ∀ y0 y1, Kept m s₀ y1 → (Kept m s₀) (x2 y0 y1)) (hs : Kept m s₀ s) :
    Kept m s₀ (restage x0 x1 x2 s) := by
  unfold restage
  dsimp only
  apply Kept.ite
  · intro h2
    apply discardItem_kept (hm.sub rfl)
    apply unstage_kept (hm.sub rfl)
    assumption
  · intro h2
    apply Kept.ite
    · intro h4
      apply poison_kept (hm.sub rfl)
      apply unstage_kept (hm.sub rfl)
      assumption
    · intro h4
      split
      · apply hf2
        apply bump_kept (hm.sub rfl)
        apply unstage_kept (hm.sub rfl)
        assumption
      · split
        · apply hf2
          apply bump_kept (hm.sub rfl)
          apply unstage_kept (hm.sub rfl)
          assumption
        · apply hf2
          apply unstage_kept (hm.sub rfl)
          assumption

theorem restagePending_kept (hm : Has m 0x354010a) (x0 : ℕ) (x1 : JEntry) (s : State)
    (hs : Kept m s₀ s) :
    Kept m s₀ (restagePending x0 x1 s) := by
  unfold restagePending
  split
  · apply Kept.ite
    · exact fun _ => by assumption
    · intro h2
      dsimp only
      apply pendingEnds_kept (hm.sub rfl)
      apply restage_kept (hm.sub rfl)
      · intro y06 y17 h8
        apply jrnlUpd_kept (hm.sub rfl)
        assumption
      · assumption
  · assumption

theorem execWorkEnqueue_kept (hm : Has m 0x254010a) (x0 : ℕ) (x1 : Item) (s : State)
    (hs : Kept m s₀ s) :
    ResAll (Kept m s₀) (execWorkEnqueue x0 x1 s) := by
  unfold execWorkEnqueue
  apply ResAll.next
  apply presentItem_kept (hm.sub rfl)
  assumption

theorem endRun_kept (hm : Has m 0x100) (x0 : ℕ) (x1 : Staged) (s : State)
    (hs : Kept m s₀ s) :
    Kept m s₀ (endRun x0 x1 s) := by
  unfold endRun
  refine Kept.sch_put (hm.sub rfl) ?_
  assumption

theorem toReadyFirst_kept (hm : Has m 0x100) (x0 : Staged) (s : State)
    (hs : Kept m s₀ s) :
    Kept m s₀ (toReadyFirst x0 s) := by
  unfold toReadyFirst
  apply setReady_kept (hm.sub rfl)
  assumption

theorem redispatch_kept (hm : Has m 0x354010a) (x0 : ℕ) (s : State)
    (hs : Kept m s₀ s) :
    Kept m s₀ (redispatch x0 s) := by
  unfold redispatch
  split
  · assumption
  · dsimp only
    apply Kept.ite
    · intro h3
      apply poison_kept (hm.sub rfl)
      apply endRun_kept (hm.sub rfl)
      assumption
    · intro h3
      apply vane_kept (hm.sub rfl)
      apply bump_kept (hm.sub rfl)
      apply toReadyFirst_kept (hm.sub rfl)
      apply jrnlUpd_kept (hm.sub rfl)
      apply endRun_kept (hm.sub rfl)
      assumption

theorem jrnlAccepted_kept (hm : Has m 0x2040102) (x0 : ℕ) (s : State)
    (hs : Kept m s₀ s) :
    Kept m s₀ (jrnlAccepted x0 s) := by
  unfold jrnlAccepted
  split
  · dsimp only
    apply syncAccept_kept (hm.sub rfl)
    apply vane_kept (hm.sub rfl)
    apply upd_kept (hm.sub rfl)
    · intro y05 h6
      apply wr_kept (hm.sub rfl)
      assumption
    · apply jrnlUpd_kept (hm.sub rfl)
      assumption
  · assumption

theorem undone_kept (hm : Has m 0x100) (x0 : Staged) (s : State)
    (hs : Kept m s₀ s) :
    Kept m s₀ (undone x0 s) := by
  unfold undone
  refine Kept.sch_put (hm.sub rfl) ?_
  assumption

theorem clusterLost_kept (hm : Has m 0x354010a) (x0 : ℕ) (s : State)
    (hs : Kept m s₀ s) :
    Kept m s₀ (clusterLost x0 s) := by
  unfold clusterLost
  dsimp only
  apply Kept.foldl
  · intro s2 b3 h4
    split
    · assumption
    · apply Kept.ite
      · intro h7
        apply restage_kept (hm.sub rfl)
        · intro y09 y110 h11
          apply toReadyFirst_kept (hm.sub rfl)
          assumption
        · apply endRun_kept (hm.sub rfl)
          assumption
      · intro h7
        apply Kept.ite
        · intro h9
          apply redispatch_kept (hm.sub rfl)
          assumption
        · exact fun _ => by assumption
  · apply Kept.foldl
    · intro s3 b4 h5
      apply restage_kept (hm.sub rfl)
      · intro y07 y18 h9
        apply toReadyFirst_kept (hm.sub rfl)
        apply undone_kept (hm.sub rfl)
        assumption
      · assumption
    · apply Kept.foldl
      · intro s4 b5 h6
        apply restagePending_kept (hm.sub rfl)
        assumption
      · apply Kept.foldl
        · intro s5 b6 h7
          apply restage_kept (hm.sub rfl)
          · intro y09 y110 h11
            refine Kept.sch_put (hm.sub rfl) ?_
            assumption
          · assumption
        · apply Kept.foldl
          · intro s6 b7 h8
            apply restage_kept (hm.sub rfl)
            · intro y010 y111 h12
              apply toReady_kept (hm.sub rfl)
              assumption
            · assumption
          · refine Kept.sch_put (hm.sub rfl) ?_
            assumption

theorem mirrorLost_kept (hm : Has m 0x102) (x0 : ℕ) (s : State)
    (hs : Kept m s₀ s) :
    Kept m s₀ (mirrorLost x0 s) := by
  unfold mirrorLost
  dsimp only
  apply wr_kept (hm.sub rfl)
  refine Kept.sch_put (hm.sub rfl) ?_
  apply wr_kept (hm.sub rfl)
  refine Kept.sch_put (hm.sub rfl) ?_
  assumption

theorem execAffinityWaitExpiry_kept (hm : Has m 0x100) (x0 : ℕ) (s : State)
    (hs : Kept m s₀ s) :
    ResAll (Kept m s₀) (execAffinityWaitExpiry x0 s) := by
  unfold execAffinityWaitExpiry
  apply ResAll.next
  refine Kept.sch_put (hm.sub rfl) ?_
  assumption

theorem execAcceptLoRead_kept (hm : Has m 0x108) (x0 : ℕ) (s : State)
    (hs : Kept m s₀ s) :
    ResAll (Kept m s₀) (execAcceptLoRead x0 s) := by
  unfold execAcceptLoRead
  dsimp only
  apply ResAll.next
  apply emit_kept (hm.sub rfl)
  refine Kept.sch_put (hm.sub rfl) ?_
  assumption

theorem checkpointDone_kept (hm : Has m 0x244010a) (s : State)
    (hs : Kept m s₀ s) :
    Kept m s₀ (checkpointDone s) := by
  unfold checkpointDone
  split
  · assumption
  · apply jrnlFree_kept (hm.sub rfl)
    apply wr_kept (hm.sub rfl)
    refine Kept.sch_put (hm.sub rfl) ?_
    assumption

theorem execCheckpointComplete_kept (hm : Has m 0x244010a) (s : State)
    (hs : Kept m s₀ s) :
    ResAll (Kept m s₀) (execCheckpointComplete s) := by
  unfold execCheckpointComplete
  apply ResAll.next
  apply checkpointDone_kept (hm.sub rfl)
  assumption

theorem execSqErrRead_kept (hm : Has m 0x108) (x0 : ℕ) (x1 : Fin 8) (s : State)
    (hs : Kept m s₀ s) :
    ResAll (Kept m s₀) (execSqErrRead x0 x1 s) := by
  unfold execSqErrRead
  apply ResAll.next
  apply sqUpd_kept (hm.sub rfl)
  apply emit_kept (hm.sub rfl)
  assumption

theorem presentWork_kept (hm : Has m 0x244010a) (x0 : ℕ) (x1 : ℕ) (x2 : Durable) (s : State)
    (hs : Kept m s₀ s) :
    Kept m s₀ (presentWork x0 x1 x2 s) := by
  unfold presentWork
  apply Kept.ite
  · intro h1
    refine Kept.sch_put (hm.sub rfl) ?_
    assumption
  · intro h1
    apply Kept.snd
    apply jrnlWrite_kept (hm.sub rfl)
    assumption

theorem presentHeld_kept (hm : Has m 0x254010a) (s : State) (x1 : ℕ × Durable)
    (hs : Kept m s₀ s) :
    Kept m s₀ (presentHeld s x1) := by
  unfold presentHeld
  split
  · apply presentItem_kept (hm.sub rfl)
    assumption
  · apply presentWork_kept (hm.sub rfl)
    assumption

theorem clearSchedStats_kept (hm : Has m 0x2) (s : State)
    (hs : Kept m s₀ s) :
    Kept m s₀ (clearSchedStats s) := by
  unfold clearSchedStats
  apply Kept.foldl
  · intro s1 b2 h3
    apply wr_kept (hm.sub rfl)
    assumption
  · assumption

theorem completeOn_kept (hm : Has m 0x254010a) (x0 : ℕ) (x1 : List OutAct) (s : State)
    (hs : Kept m s₀ s) :
    Kept m s₀ (completeOn x0 x1 s) := by
  unfold completeOn
  split
  · assumption
  · apply completeItem_kept (hm.sub rfl)
    apply vane_kept (hm.sub rfl)
    apply endRun_kept (hm.sub rfl)
    assumption

theorem regionCopy_kept (hm : Has m 0x2040000) (x0 : ℕ) (x1 : ℕ) (s : State)
    (hs : Kept m s₀ s) :
    Kept m s₀ (regionCopy x0 x1 s) := by
  unfold regionCopy
  apply Kept.foldl
  · intro s1 b2 h3
    apply memWrite_kept (hm.sub rfl)
    assumption
  · assumption

theorem vaneLost_kept (hm : Has m 0x2040102) (s : State)
    (hs : Kept m s₀ s) :
    Kept m s₀ (vaneLost s) := by
  unfold vaneLost
  apply Kept.ite
  · exact fun _ => by assumption
  · intro h1
    dsimp only
    apply Kept.ite
    · intro h4
      apply vanePut_kept (hm.sub rfl)
      refine Kept.sch_put (hm.sub rfl) ?_
      assumption
    · intro h4
      refine Kept.sch_put (hm.sub rfl) ?_
      assumption

theorem toHold_kept (hm : Has m 0x2040102) (x0 : Staged) (s : State)
    (hs : Kept m s₀ s) :
    Kept m s₀ (toHold x0 s) := by
  unfold toHold
  dsimp only
  apply vane_kept (hm.sub rfl)
  apply bump_kept (hm.sub rfl)
  refine Kept.sch_put (hm.sub rfl) ?_
  apply setReady_kept (hm.sub rfl)
  assumption

theorem delayDue_kept (hm : Has m 0x2040102) (s : State)
    (hs : Kept m s₀ s) :
    Kept m s₀ (delayDue s) := by
  unfold delayDue
  dsimp only
  apply Kept.foldl
  · intro s2 b3 h4
    apply toReady_kept (hm.sub rfl)
    apply vane_kept (hm.sub rfl)
    assumption
  · refine Kept.sch_put (hm.sub rfl) ?_
    assumption

theorem execDelayDue_kept (hm : Has m 0x214010a) (s : State)
    (hs : Kept m s₀ s) :
    ResAll (Kept m s₀) (execDelayDue s) := by
  unfold execDelayDue
  dsimp only
  apply ResAll.next
  apply Kept.ite
  · intro h3
    apply delayDue_kept (hm.sub rfl)
    assumption
  · intro h3
    apply Kept.ite
    · intro h5
      apply wakeHub_kept (hm.sub rfl)
      assumption
    · exact fun _ => by assumption

theorem meWakes_kept (hm : Has m 0x100002) (x0 : ℕ) (s : State)
    (hs : Kept m s₀ s) :
    Kept m s₀ (meWakes x0 s) := by
  unfold meWakes
  dsimp only
  apply leaveLull_kept (hm.sub rfl)
  apply upd_kept (hm.sub rfl)
  · intro y03 h4
    apply wr_kept (hm.sub rfl)
    assumption
  · apply wr_kept (hm.sub rfl)
    assumption

theorem startItem_kept (hm : Has m 0x2040102) (x0 : ℕ) (x1 : Staged) (s : State)
    (hs : Kept m s₀ s) :
    Kept m s₀ (startItem x0 x1 s) := by
  unfold startItem
  dsimp only
  apply vane_kept (hm.sub rfl)
  apply bump_kept (hm.sub rfl)
  refine Kept.sch_put (hm.sub rfl) ?_
  apply joinFlow_kept (hm.sub rfl)
  apply setReady_kept (hm.sub rfl)
  assumption

theorem retryHeld_kept (hm : Has m 0x254010a) (s : State)
    (hs : Kept m s₀ s) :
    Kept m s₀ (retryHeld s) := by
  unfold retryHeld
  dsimp only
  apply Kept.foldl
  · intro s2 b3 h4
    apply presentHeld_kept (hm.sub rfl)
    assumption
  · apply Kept.ite
    · intro h3
      apply Kept.foldl
      · intro s5 b6 h7
        apply sqRead_kept (hm.sub rfl)
        assumption
      · apply Kept.foldl
        · intro s6 b7 h8
          apply presentHeld_kept (hm.sub rfl)
          assumption
        · refine Kept.sch_put (hm.sub rfl) ?_
          assumption
    · intro h3
      apply Kept.foldl
      · intro s5 b6 h7
        apply presentHeld_kept (hm.sub rfl)
        assumption
      · refine Kept.sch_put (hm.sub rfl) ?_
        assumption

theorem scanLevel_kept (hm : Has m 0x2040102) (x0 : ℕ) (x1 : List Staged) (s : State)
    (hs : Kept m s₀ s) :
    SndAll (Kept m s₀) (scanLevel x0 x1 s) := by
  unfold scanLevel
  split
  · apply SndAll.mk
    assumption
  · apply SndAll.ite
    · intro h2
      apply scanLevel_kept (hm.sub rfl)
      assumption
    · intro h2
      apply SndAll.ite
      · intro h4
        apply SndAll.ite
        · intro h6
          apply scanLevel_kept (hm.sub rfl)
          apply toHold_kept (hm.sub rfl)
          assumption
        · intro h6
          apply SndAll.ite
          · intro h8
            apply scanLevel_kept (hm.sub rfl)
            apply bump_kept (hm.sub rfl)
            assumption
          · intro h8
            apply SndAll.mk
            assumption
      · intro h4
        apply SndAll.mk
        assumption

theorem scanLevel_elim {x0 : ℕ} {x1 : List Staged} {s : State} {v0} {t : State} (hm : Has m 0x2040102) (e : (scanLevel x0 x1 s) = (v0, t))
    (hs : Kept m s₀ s) : Kept m s₀ t := by
  have hk := scanLevel_kept hm x0 x1 s hs
  rw [e] at hk
  exact (SndAll.elim hk rfl)

theorem scanLevels_kept (hm : Has m 0x2040102) (x0 : ℕ) (x1 : List ℕ) (s : State)
    (hs : Kept m s₀ s) :
    SndAll (Kept m s₀) (scanLevels x0 x1 s) := by
  unfold scanLevels
  split
  · apply SndAll.mk
    assumption
  · split
    · apply SndAll.mk
      apply scanLevel_elim (hm.sub rfl) (by assumption)
      assumption
    · apply scanLevels_kept (hm.sub rfl)
      apply scanLevel_elim (hm.sub rfl) (by assumption)
      assumption

theorem scanLevels_elim {x0 : ℕ} {x1 : List ℕ} {s : State} {v0} {t : State} (hm : Has m 0x2040102) (e : (scanLevels x0 x1 s) = (v0, t))
    (hs : Kept m s₀ s) : Kept m s₀ t := by
  have hk := scanLevels_kept hm x0 x1 s hs
  rw [e] at hk
  exact (SndAll.elim hk rfl)

theorem dispatch_kept (hm : Has m 0x2140102) (x0 : ℕ) (s : State)
    (hs : Kept m s₀ s) :
    SndAll (Kept m s₀) (dispatch x0 s) := by
  unfold dispatch
  apply SndAll.ite
  · intro h1
    apply SndAll.mk
    assumption
  · intro h1
    split
    · apply SndAll.mk
      apply scanLevels_elim (hm.sub rfl) (by assumption)
      assumption
    · apply SndAll.mk
      apply startItem_kept (hm.sub rfl)
      apply meWakes_kept (hm.sub rfl)
      apply scanLevels_elim (hm.sub rfl) (by assumption)
      assumption

theorem dispatch_elim {x0 : ℕ} {s : State} {v0} {t : State} (hm : Has m 0x2140102) (e : (dispatch x0 s) = (v0, t))
    (hs : Kept m s₀ s) : Kept m s₀ t := by
  have hk := dispatch_kept hm x0 s hs
  rw [e] at hk
  exact (SndAll.elim hk rfl)

theorem execMirrorCopyDone_kept (hm : Has m 0x2040102) (s : State)
    (hs : Kept m s₀ s) :
    ResAll (Kept m s₀) (execMirrorCopyDone s) := by
  unfold execMirrorCopyDone
  split
  · apply ResAll.next
    assumption
  · dsimp only
    apply ResAll.next
    refine Kept.sch_put (hm.sub rfl) ?_
    apply wr_kept (hm.sub rfl)
    split
    · apply regionCopy_kept (hm.sub rfl)
      assumption
    · assumption

theorem execSqTailWrite_kept (hm : Has m 0x254010a) (x0 : Fin 8) (x1 : ℕ) (s : State)
    (hs : Kept m s₀ s) :
    ResAll (Kept m s₀) (execSqTailWrite x0 x1 s) := by
  unfold execSqTailWrite
  apply ResAll.next
  apply sqTailPut_kept (hm.sub rfl)
  assumption

theorem poisonWhere_kept (hm : Has m 0x354010a) (x0 : Staged → Bool) (s : State)
    (hs : Kept m s₀ s) :
    Kept m s₀ (poisonWhere x0 s) := by
  unfold poisonWhere
  dsimp only
  apply Kept.foldl
  · intro s2 b3 h4
    apply poison_kept (hm.sub rfl)
    assumption
  · refine Kept.sch_put (hm.sub rfl) ?_
    assumption

end Sys2Proof.Machine
end

