-- ==== Sys2Proof/Laws/KeptLanok.lean ====
section
/-! SUPPORT. Every effect of Machine/Lanok.lean keeps what `Kept` says. -/
set_option Elab.async false
namespace Sys2Proof.Machine

variable {m : Nat} {s₀ : State}

theorem endUpd_kept (hm : Has m 0x40) (x0 : Bool) (x1 : LanokEnd → LanokEnd) (s : State)
    (hs : Kept m s₀ s) :
    Kept m s₀ (endUpd x0 x1 s) := by
  unfold endUpd
  apply Kept.ite
  · intro h1
    refine Kept.fld_put (hm.sub rfl) ?_
    assumption
  · intro h1
    refine Kept.fld_put (hm.sub rfl) ?_
    assumption

theorem canFrames_kept (hm : Has m 0x8) (x0 : ℕ) (x1 : ℕ) (x2 : ℕ) (x3 : Bytes) (s : State)
    (hs : Kept m s₀ s) :
    Kept m s₀ (canFrames x0 x1 x2 x3 s) := by
  unfold canFrames
  split
  · assumption
  · dsimp only
    apply Kept.ite
    · intro h3
      apply emit_kept (hm.sub rfl)
      assumption
    · intro h3
      apply canFrames_kept (hm.sub rfl)
      apply emit_kept (hm.sub rfl)
      assumption

theorem lanokEmit_kept (hm : Has m 0x8) (x0 : Bool) (x1 : ℕ) (x2 : ℕ) (x3 : LMsg) (s : State)
    (hs : Kept m s₀ s) :
    Kept m s₀ (lanokEmit x0 x1 x2 x3 s) := by
  unfold lanokEmit
  apply emit_kept (hm.sub rfl)
  apply emit_kept (hm.sub rfl)
  assumption

theorem lanokSend_kept (hm : Has m 0x400048) (x0 : Bool) (x1 : LMsg) (s : State)
    (hs : Kept m s₀ s) :
    Kept m s₀ (lanokSend x0 x1 s) := by
  unfold lanokSend
  dsimp only
  apply Kept.ite
  · intro h2
    apply upd_kept (hm.sub rfl)
    · intro y04 h5
      apply pairSend_kept (hm.sub rfl)
      assumption
    · assumption
  · intro h2
    apply Kept.ite
    · intro h4
      apply Kept.ite
      · intro h6
        apply endUpd_kept (hm.sub rfl)
        apply upd_kept (hm.sub rfl)
        · intro y09 h10
          apply pairSend_kept (hm.sub rfl)
          assumption
        · assumption
      · intro h6
        apply lanokEmit_kept (hm.sub rfl)
        apply endUpd_kept (hm.sub rfl)
        apply upd_kept (hm.sub rfl)
        · intro y010 h11
          apply pairSend_kept (hm.sub rfl)
          assumption
        · assumption
    · intro h4
      apply lanokEmit_kept (hm.sub rfl)
      apply endUpd_kept (hm.sub rfl)
      apply upd_kept (hm.sub rfl)
      · intro y08 h9
        apply pairSend_kept (hm.sub rfl)
        assumption
      · assumption

theorem lanokDrain_kept (hm : Has m 0x400048) (x0 : Bool) (x1 : ℕ) (s : State)
    (hs : Kept m s₀ s) :
    Kept m s₀ (lanokDrain x0 x1 s) := by
  unfold lanokDrain
  split
  · assumption
  · dsimp only
    split
    · assumption
    · apply Kept.ite
      · exact fun _ => by assumption
      · intro h4
        apply lanokDrain_kept (hm.sub rfl)
        apply lanokSend_kept (hm.sub rfl)
        apply endUpd_kept (hm.sub rfl)
        assumption

theorem lanokAck_kept (hm : Has m 0x400048) (x0 : Bool) (x1 : ℕ) (s : State)
    (hs : Kept m s₀ s) :
    Kept m s₀ (lanokAck x0 x1 s) := by
  unfold lanokAck
  dsimp only
  apply Kept.ite
  · intro h2
    apply lanokDrain_kept (hm.sub rfl)
    apply endUpd_kept (hm.sub rfl)
    assumption
  · exact fun _ => by assumption

theorem lanokRecv_kept (hm : Has m 0x400048) (x0 : Bool) (x1 : Bool) (x2 : LHdr) (s : State)
    (hs : Kept m s₀ s) :
    SndAll (Kept m s₀) (lanokRecv x0 x1 x2 s) := by
  unfold lanokRecv
  apply SndAll.ite
  · intro h1
    apply SndAll.mk
    assumption
  · intro h1
    dsimp only
    apply SndAll.ite
    · intro h4
      apply SndAll.mk
      apply lanokAck_kept (hm.sub rfl)
      apply endUpd_kept (hm.sub rfl)
      assumption
    · intro h4
      apply SndAll.ite
      · intro h6
        apply SndAll.mk
        apply endUpd_kept (hm.sub rfl)
        apply lanokAck_kept (hm.sub rfl)
        apply endUpd_kept (hm.sub rfl)
        assumption
      · intro h6
        apply SndAll.mk
        apply lanokAck_kept (hm.sub rfl)
        apply endUpd_kept (hm.sub rfl)
        assumption

theorem lanokRecv_elim {x0 : Bool} {x1 : Bool} {x2 : LHdr} {s : State} {v0} {t : State} (hm : Has m 0x400048) (e : (lanokRecv x0 x1 x2 s) = (v0, t))
    (hs : Kept m s₀ s) : Kept m s₀ t := by
  have hk := lanokRecv_kept hm x0 x1 x2 s hs
  rw [e] at hk
  exact (SndAll.elim hk rfl)

theorem hubSnapshot_kept (hm : Has m 0x40) (s : State)
    (hs : Kept m s₀ s) :
    Kept m s₀ (hubSnapshot s) := by
  unfold hubSnapshot
  apply Kept.ite
  · exact fun _ => by assumption
  · intro h1
    refine Kept.fld_put (hm.sub rfl) ?_
    assumption

theorem canUpd_kept (hm : Has m 0x40) (x0 : ℕ) (x1 : Can → Can) (s : State)
    (hs : Kept m s₀ s) :
    Kept m s₀ (canUpd x0 x1 s) := by
  unfold canUpd
  refine Kept.fld_put (hm.sub rfl) ?_
  assumption

theorem canSend_kept (hm : Has m 0x48) (x0 : ℕ) (x1 : Bytes) (s : State)
    (hs : Kept m s₀ s) :
    Kept m s₀ (canSend x0 x1 s) := by
  unfold canSend
  apply canFrames_kept (hm.sub rfl)
  apply canUpd_kept (hm.sub rfl)
  assumption

theorem canLost_kept (hm : Has m 0x48) (s : State)
    (hs : Kept m s₀ s) :
    Kept m s₀ (canLost s) := by
  unfold canLost
  apply Kept.foldl
  · intro s1 b2 h3
    split
    · apply canSend_kept (hm.sub rfl)
      assumption
    · assumption
  · refine Kept.fld_put (hm.sub rfl) ?_
    assumption

theorem lanokDown_kept (hm : Has m 0x6a) (s : State)
    (hs : Kept m s₀ s) :
    Kept m s₀ (lanokDown s) := by
  unfold lanokDown
  dsimp only
  apply canLost_kept (hm.sub rfl)
  apply wr_kept (hm.sub rfl)
  apply wr_kept (hm.sub rfl)
  refine Kept.mk' (v := 96) (hm.sub rfl) rfl ?_ ?_
  · apply hubSnapshot_kept (hm.sub rfl)
    assumption
  · intro p hp
    cases p <;> first | exact absurd hp (by dsimp only [StatePart.idx]; decide) | exact Eq.refl _ | exact ⟨Eq.refl _, Eq.refl _, Eq.refl _⟩

theorem lanokResend_kept (hm : Has m 0x6a) (x0 : Bool) (s : State)
    (hs : Kept m s₀ s) :
    Kept m s₀ (lanokResend x0 s) := by
  unfold lanokResend
  dsimp only
  split
  · assumption
  · apply Kept.ite
    · exact fun _ => by assumption
    · intro h3
      apply Kept.ite
      · intro h5
        apply lanokDown_kept (hm.sub rfl)
        assumption
      · intro h5
        apply endUpd_kept (hm.sub rfl)
        apply Kept.foldl
        · intro s8 b9 h10
          apply lanokEmit_kept (hm.sub rfl)
          apply bump_kept (hm.sub rfl)
          assumption
        · assumption

theorem hubGets_kept (hm : Has m 0x400008) (x0 : LMsg) (x1 : State → State) (s : State)
    (hf1 : ∀ y0, Kept m s₀ y0 → (Kept m s₀) (x1 y0)) (hs : Kept m s₀ s) :
    Kept m s₀ (hubGets x0 x1 s) := by
  unfold hubGets
  apply Kept.ite
  · intro h1
    apply pairSend_kept (hm.sub rfl)
    assumption
  · intro h1
    apply Kept.ite
    · exact fun _ => by assumption
    · intro h3
      apply hf1
      assumption

theorem lanokCrcFailure_kept (hm : Has m 0x6a) (x0 : Bool) (x1 : Bool) (s : State)
    (hs : Kept m s₀ s) :
    Kept m s₀ (lanokCrcFailure x0 x1 s) := by
  unfold lanokCrcFailure
  apply Kept.ite
  · exact fun _ => by assumption
  · intro h1
    apply Kept.ite
    · intro h3
      apply bump_kept (hm.sub rfl)
      apply endUpd_kept (hm.sub rfl)
      assumption
    · intro h3
      dsimp only
      apply Kept.ite
      · intro h6
        apply lanokDown_kept (hm.sub rfl)
        apply bump_kept (hm.sub rfl)
        apply endUpd_kept (hm.sub rfl)
        assumption
      · intro h6
        apply bump_kept (hm.sub rfl)
        apply endUpd_kept (hm.sub rfl)
        assumption

theorem onLanok_kept (hm : Has m 0x400048) (x0 : Bool) (x1 : Bool) (x2 : LHdr) (x3 : State → State) (s : State)
    (hf3 : ∀ y0, Kept m s₀ y0 → (Kept m s₀) (x3 y0)) (hs : Kept m s₀ s) :
    ResAll (Kept m s₀) (onLanok x0 x1 x2 x3 s) := by
  unfold onLanok
  split
  · apply ResAll.next
    apply hf3
    apply lanokRecv_elim (hm.sub rfl) (by assumption)
    assumption
  · apply ResAll.next
    apply lanokRecv_elim (hm.sub rfl) (by assumption)
    assumption

end Sys2Proof.Machine
end

