-- ==== Sys2Proof/Laws/KeptPool.lean ====
section
/-! SUPPORT. Every effect of Machine/Pool.lean keeps what `Kept` says. -/
set_option Elab.async false
namespace Sys2Proof.Machine

variable {m : Nat} {s₀ : State}

theorem fcoSync_kept (hm : Has m 0xa) (s : State) (x1 : ℕ)
    (hs : Kept m s₀ s) :
    Kept m s₀ (fcoSync s x1) := by
  unfold fcoSync
  apply Kept.ite
  · exact fun _ => by assumption
  · intro h1
    dsimp only
    apply Kept.ite
    · exact fun _ => by assumption
    · intro h4
      apply emit_kept (hm.sub rfl)
      apply wr_kept (hm.sub rfl)
      assumption

theorem packetUpd_kept (hm : Has m 0x1000) (x0 : ℕ) (x1 : Packet → Packet) (s : State)
    (hs : Kept m s₀ s) :
    Kept m s₀ (packetUpd x0 x1 s) := by
  unfold packetUpd
  refine Kept.pkt_put (hm.sub rfl) ?_
  assumption

theorem addPacket_kept (hm : Has m 0x1012) (x0 : Packet) (x1 : Bool) (s : State)
    (hs : Kept m s₀ s) :
    SndAll (Kept m s₀) (addPacket x0 x1 s) := by
  unfold addPacket
  dsimp only
  apply SndAll.mk
  refine Kept.pkt_put (hm.sub rfl) ?_
  apply Kept.ite
  · intro h4
    apply wr_kept (hm.sub rfl)
    apply drew_kept (hm.sub rfl)
    assumption
  · intro h4
    apply drew_kept (hm.sub rfl)
    assumption

theorem addPacket_elim {x0 : Packet} {x1 : Bool} {s : State} {v0} {t : State} (hm : Has m 0x1012) (e : (addPacket x0 x1 s) = (v0, t))
    (hs : Kept m s₀ s) : Kept m s₀ t := by
  have hk := addPacket_kept hm x0 x1 s hs
  rw [e] at hk
  exact (SndAll.elim hk rfl)

theorem dmaUpd_kept (hm : Has m 0x20000) (x0 : ℕ) (x1 : DmaCh → DmaCh) (s : State)
    (hs : Kept m s₀ s) :
    Kept m s₀ (dmaUpd x0 x1 s) := by
  unfold dmaUpd
  refine Kept.dma_put (hm.sub rfl) ?_
  assumption

theorem dmaWatch_kept (hm : Has m 0x20000) (s : State) (x1 : ℕ)
    (hs : Kept m s₀ s) :
    Kept m s₀ (dmaWatch s x1) := by
  unfold dmaWatch
  apply Kept.foldl
  · intro s1 b2 h3
    dsimp only
    apply dmaUpd_kept (hm.sub rfl)
    assumption
  · assumption

theorem queueUpd_kept (hm : Has m 0x1000) (x0 : ℕ) (x1 : Queue → Queue) (s : State)
    (hs : Kept m s₀ s) :
    Kept m s₀ (queueUpd x0 x1 s) := by
  unfold queueUpd
  refine Kept.pkt_put (hm.sub rfl) ?_
  assumption

theorem aboveOf_kept (hm : Has m 0x1000) (s : State) (x1 : ℕ)
    (hs : Kept m s₀ s) :
    Kept m s₀ (aboveOf s x1) := by
  unfold aboveOf
  dsimp only
  apply Kept.ite
  · intro h2
    apply queueUpd_kept (hm.sub rfl)
    assumption
  · intro h2
    apply Kept.ite
    · intro h4
      apply queueUpd_kept (hm.sub rfl)
      assumption
    · exact fun _ => by assumption

theorem txPortUpd_kept (hm : Has m 0x2000) (x0 : ℕ) (x1 : TxPort → TxPort) (s : State)
    (hs : Kept m s₀ s) :
    Kept m s₀ (txPortUpd x0 x1 s) := by
  unfold txPortUpd
  refine Kept.trf_put (hm.sub rfl) ?_
  assumption

theorem congestPort_kept (hm : Has m 0x2000) (s : State) (x1 : ℕ)
    (hs : Kept m s₀ s) :
    Kept m s₀ (congestPort s x1) := by
  unfold congestPort
  apply Kept.ite
  · intro h1
    apply txPortUpd_kept (hm.sub rfl)
    assumption
  · intro h1
    dsimp only
    apply Kept.ite
    · exact fun _ => by assumption
    · intro h4
      apply txPortUpd_kept (hm.sub rfl)
      assumption

theorem settle_kept (hm : Has m 0x2300a) (x0 : List ℕ) (s : State)
    (hs : Kept m s₀ s) :
    Kept m s₀ (settle x0 s) := by
  unfold settle
  dsimp only
  apply Kept.foldl
  · intro s2 b3 h4
    apply fcoSync_kept (hm.sub rfl)
    assumption
  · apply Kept.foldl
    · intro s3 b4 h5
      apply congestPort_kept (hm.sub rfl)
      assumption
    · apply wr_kept (hm.sub rfl)
      apply Kept.foldl
      · intro s5 b6 h7
        apply dmaWatch_kept (hm.sub rfl)
        assumption
      · apply Kept.foldl
        · intro s6 b7 h8
          apply aboveOf_kept (hm.sub rfl)
          assumption
        · assumption

theorem releaseRef_kept (hm : Has m 0x2300a) (x0 : ℕ) (s : State)
    (hs : Kept m s₀ s) :
    Kept m s₀ (releaseRef x0 s) := by
  unfold releaseRef
  split
  · assumption
  · apply Kept.ite
    · intro h2
      apply packetUpd_kept (hm.sub rfl)
      assumption
    · intro h2
      dsimp only
      split
      · apply settle_kept (hm.sub rfl)
        apply queueUpd_kept (hm.sub rfl)
        apply Kept.ite
        · intro h8
          apply wr_kept (hm.sub rfl)
          refine Kept.pkt_put (hm.sub rfl) ?_
          assumption
        · intro h8
          refine Kept.pkt_put (hm.sub rfl) ?_
          assumption
      · apply settle_kept (hm.sub rfl)
        apply Kept.ite
        · intro h7
          apply wr_kept (hm.sub rfl)
          refine Kept.pkt_put (hm.sub rfl) ?_
          assumption
        · intro h7
          refine Kept.pkt_put (hm.sub rfl) ?_
          assumption

theorem releaseEntry_kept (hm : Has m 0x2300a) (x0 : ℕ) (x1 : QEntry) (s : State)
    (hs : Kept m s₀ s) :
    Kept m s₀ (releaseEntry x0 x1 s) := by
  unfold releaseEntry
  split
  · apply releaseRef_kept (hm.sub rfl)
    assumption
  · dsimp only
    apply releaseRef_kept (hm.sub rfl)
    refine Kept.pkt_put (hm.sub rfl) ?_
    apply queueUpd_kept (hm.sub rfl)
    assumption

theorem refuse_kept (hm : Has m 0x1002) (x0 : ℕ) (x1 : Admission) (s : State)
    (hs : Kept m s₀ s) :
    Kept m s₀ (refuse x0 x1 s) := by
  unfold refuse
  split
  · apply bump_kept (hm.sub rfl)
    assumption
  · apply queueUpd_kept (hm.sub rfl)
    assumption

theorem admitCopy_kept (hm : Has m 0x2301a) (x0 : ℕ) (x1 : CopyRec) (s : State)
    (hs : Kept m s₀ s) :
    SndAll (Kept m s₀) (admitCopy x0 x1 s) := by
  unfold admitCopy
  dsimp only
  split
  · apply SndAll.mk
    apply settle_kept (hm.sub rfl)
    refine Kept.pkt_put (hm.sub rfl) ?_
    apply queueUpd_kept (hm.sub rfl)
    apply packetUpd_kept (hm.sub rfl)
    apply Kept.ite
    · intro h8
      apply drew_kept (hm.sub rfl)
      assumption
    · exact fun _ => by assumption
  · apply SndAll.mk
    apply refuse_kept (hm.sub rfl)
    assumption

theorem admitCopy_elim {x0 : ℕ} {x1 : CopyRec} {s : State} {v0} {t : State} (hm : Has m 0x2301a) (e : (admitCopy x0 x1 s) = (v0, t))
    (hs : Kept m s₀ s) : Kept m s₀ t := by
  have hk := admitCopy_kept hm x0 x1 s hs
  rw [e] at hk
  exact (SndAll.elim hk rfl)

theorem dmaEvt_kept (hm : Has m 0x20008) (x0 : ℕ) (x1 : ℕ) (s : State)
    (hs : Kept m s₀ s) :
    Kept m s₀ (dmaEvt x0 x1 s) := by
  unfold dmaEvt
  dsimp only
  apply emitIf_kept (hm.sub rfl)
  apply dmaUpd_kept (hm.sub rfl)
  assumption

theorem dropEntry_kept (hm : Has m 0x2300a) (x0 : ℕ) (x1 : QEntry) (s : State)
    (hs : Kept m s₀ s) :
    Kept m s₀ (dropEntry x0 x1 s) := by
  unfold dropEntry
  apply Kept.ite
  · intro h1
    apply settle_kept (hm.sub rfl)
    apply releaseEntry_kept (hm.sub rfl)
    apply queueUpd_kept (hm.sub rfl)
    assumption
  · exact fun _ => by assumption

theorem holdPacket_kept (hm : Has m 0x1000) (x0 : ℕ) (s : State)
    (hs : Kept m s₀ s) :
    Kept m s₀ (holdPacket x0 s) := by
  unfold holdPacket
  apply packetUpd_kept (hm.sub rfl)
  assumption

theorem admitPacket_kept (hm : Has m 0x2301a) (x0 : ℕ) (x1 : Packet) (s : State)
    (hs : Kept m s₀ s) :
    SndAll (Kept m s₀) (admitPacket x0 x1 s) := by
  unfold admitPacket
  split
  · dsimp only
    apply SndAll.mk
    apply settle_kept (hm.sub rfl)
    apply queueUpd_kept (hm.sub rfl)
    apply Kept.snd
    apply addPacket_kept (hm.sub rfl)
    assumption
  · apply SndAll.mk
    apply refuse_kept (hm.sub rfl)
    assumption

theorem admitPacket_elim {x0 : ℕ} {x1 : Packet} {s : State} {v0} {t : State} (hm : Has m 0x2301a) (e : (admitPacket x0 x1 s) = (v0, t))
    (hs : Kept m s₀ s) : Kept m s₀ t := by
  have hk := admitPacket_kept hm x0 x1 s hs
  rw [e] at hk
  exact (SndAll.elim hk rfl)

theorem dmaRequest_kept (hm : Has m 0x2000a) (x0 : ℕ) (s : State)
    (hs : Kept m s₀ s) :
    Kept m s₀ (dmaRequest x0 s) := by
  unfold dmaRequest
  apply Kept.ite
  · intro h1
    apply dmaUpd_kept (hm.sub rfl)
    assumption
  · intro h1
    apply dmaEvt_kept (hm.sub rfl)
    apply bump_kept (hm.sub rfl)
    assumption

theorem spillCharge_kept (hm : Has m 0x1000) (x0 : ℕ) (s : State)
    (hs : Kept m s₀ s) :
    Kept m s₀ (spillCharge x0 s) := by
  unfold spillCharge
  refine Kept.pkt_put (hm.sub rfl) ?_
  assumption

theorem flushQueue_kept (hm : Has m 0x2300a) (x0 : ℕ) (s : State)
    (hs : Kept m s₀ s) :
    Kept m s₀ (flushQueue x0 s) := by
  unfold flushQueue
  dsimp only
  apply settle_kept (hm.sub rfl)
  apply queueUpd_kept (hm.sub rfl)
  apply Kept.foldl
  · intro s4 b5 h6
    apply releaseEntry_kept (hm.sub rfl)
    assumption
  · apply queueUpd_kept (hm.sub rfl)
    split
    · apply bumpBy_kept (hm.sub rfl)
      assumption
    · assumption

theorem popEntry_kept (hm : Has m 0x2300a) (x0 : ℕ) (s : State)
    (hs : Kept m s₀ s) :
    Kept m s₀ (popEntry x0 s) := by
  unfold popEntry
  split
  · assumption
  · dsimp only
    apply settle_kept (hm.sub rfl)
    apply Kept.ite
    · intro h4
      apply queueUpd_kept (hm.sub rfl)
      apply releaseEntry_kept (hm.sub rfl)
      apply queueUpd_kept (hm.sub rfl)
      assumption
    · intro h4
      apply releaseEntry_kept (hm.sub rfl)
      apply queueUpd_kept (hm.sub rfl)
      assumption

end Sys2Proof.Machine
end

