-- ==== Sys2Proof/Laws/KeptSeal.lean ====
section
/-! SUPPORT. Every effect of Machine/Seal.lean keeps what `Kept` says. -/
set_option Elab.async false
namespace Sys2Proof.Machine

variable {m : Nat} {s₀ : State}

theorem sealErase_kept (hm : Has m 0x4080082) (x0 : ℕ) (s : State)
    (hs : Kept m s₀ s) :
    Kept m s₀ (sealErase x0 s) := by
  unfold sealErase
  dsimp only
  refine Kept.sea_put (hm.sub rfl) ?_
  apply Kept.foldl
  · intro s3 b4 h5
    apply wr_kept (hm.sub rfl)
    assumption
  · apply unclaim_kept (hm.sub rfl)
    assumption

theorem sealLoad_kept (hm : Has m 0x4080082) (x0 : KeyRec) (s : State)
    (hs : Kept m s₀ s) :
    Kept m s₀ (sealLoad x0 s) := by
  unfold sealLoad
  dsimp only
  apply wr_kept (hm.sub rfl)
  apply wr_kept (hm.sub rfl)
  apply wr_kept (hm.sub rfl)
  apply wr_kept (hm.sub rfl)
  apply wr_kept (hm.sub rfl)
  apply wr_kept (hm.sub rfl)
  apply setClaim_kept (hm.sub rfl)
  refine Kept.sea_put (hm.sub rfl) ?_
  assumption

theorem sealUpset_kept (hm : Has m 0x1200002) (x0 : ℕ) (s : State)
    (hs : Kept m s₀ s) :
    Kept m s₀ (sealUpset x0 s) := by
  unfold sealUpset
  split
  · apply upset_elim (hm.sub rfl) (by assumption)
    apply bump_kept (hm.sub rfl)
    assumption
  · apply upset_elim (hm.sub rfl) (by assumption)
    apply bump_kept (hm.sub rfl)
    assumption

theorem sealSync_kept (hm : Has m 0x2) (s : State)
    (hs : Kept m s₀ s) :
    Kept m s₀ (sealSync s) := by
  unfold sealSync
  dsimp only
  apply upd_kept (hm.sub rfl)
  · intro y02 h3
    apply summary_kept (hm.sub rfl)
    assumption
  · apply wr_kept (hm.sub rfl)
    apply wr_kept (hm.sub rfl)
    apply wr_kept (hm.sub rfl)
    assumption

theorem execSealComplete_kept (hm : Has m 0x37c010a) (x0 : Bool) (x1 : Bool) (x2 : Bool) (s : State)
    (hs : Kept m s₀ s) :
    ResAll (Kept m s₀) (execSealComplete x0 x1 x2 s) := by
  unfold execSealComplete
  split
  · apply ResAll.next
    assumption
  · dsimp only
    apply ResAll.next
    apply upd_kept (hm.sub rfl)
    · intro y04 h5
      apply completeOn_kept (hm.sub rfl)
      assumption
    · apply Kept.ite
      · intro h5
        apply emit_kept (hm.sub rfl)
        apply bump_kept (hm.sub rfl)
        apply upd_kept (hm.sub rfl)
        · intro y09 h10
          apply bump_kept (hm.sub rfl)
          assumption
        · apply sealSync_kept (hm.sub rfl)
          apply upd_kept (hm.sub rfl)
          · intro y011 h12
            apply sealUpset_kept (hm.sub rfl)
            assumption
          · apply upd_kept (hm.sub rfl)
            · intro y012 h13
              apply sealUpset_kept (hm.sub rfl)
              assumption
            · refine Kept.sea_put (hm.sub rfl) ?_
              assumption
      · intro h5
        apply upd_kept (hm.sub rfl)
        · intro y07 h8
          apply memWrite_kept (hm.sub rfl)
          assumption
        · apply bump_kept (hm.sub rfl)
          apply upd_kept (hm.sub rfl)
          · intro y09 h10
            apply bump_kept (hm.sub rfl)
            assumption
          · apply sealSync_kept (hm.sub rfl)
            apply upd_kept (hm.sub rfl)
            · intro y011 h12
              apply sealUpset_kept (hm.sub rfl)
              assumption
            · apply upd_kept (hm.sub rfl)
              · intro y012 h13
                apply sealUpset_kept (hm.sub rfl)
                assumption
              · refine Kept.sea_put (hm.sub rfl) ?_
                assumption

theorem srtpErase_kept (hm : Has m 0x80002) (x0 : Bool) (x1 : ℕ) (s : State)
    (hs : Kept m s₀ s) :
    Kept m s₀ (srtpErase x0 x1 s) := by
  unfold srtpErase
  apply Kept.ite
  · intro h1
    apply wr_kept (hm.sub rfl)
    apply wr_kept (hm.sub rfl)
    refine Kept.sea_put (hm.sub rfl) ?_
    assumption
  · intro h1
    refine Kept.sea_put (hm.sub rfl) ?_
    assumption

theorem egressApply_kept (hm : Has m 0x2) (x0 : ℕ) (s : State)
    (hs : Kept m s₀ s) :
    Kept m s₀ (egressApply x0 s) := by
  unfold egressApply
  apply bump_kept (hm.sub rfl)
  apply wr_kept (hm.sub rfl)
  apply wr_kept (hm.sub rfl)
  assumption

theorem egressPromote_kept (hm : Has m 0x80002) (x0 : ℕ) (s : State)
    (hs : Kept m s₀ s) :
    Kept m s₀ (egressPromote x0 s) := by
  unfold egressPromote
  dsimp only
  apply Kept.ite
  · intro h2
    apply egressApply_kept (hm.sub rfl)
    refine Kept.sea_put (hm.sub rfl) ?_
    assumption
  · exact fun _ => by assumption

theorem keyApply_kept (hm : Has m 0x4080082) (x0 : ℕ) (x1 : KeyRec) (s : State)
    (hs : Kept m s₀ s) :
    Kept m s₀ (keyApply x0 x1 s) := by
  unfold keyApply
  dsimp only
  apply Kept.ite
  · intro h2
    apply Kept.ite
    · intro h4
      apply sealLoad_kept (hm.sub rfl)
      assumption
    · intro h4
      apply sealErase_kept (hm.sub rfl)
      assumption
  · intro h2
    apply Kept.ite
    · intro h4
      apply srtpErase_kept (hm.sub rfl)
      assumption
    · intro h4
      apply Kept.ite
      · intro h6
        apply Kept.ite
        · intro h8
          apply bump_kept (hm.sub rfl)
          refine Kept.sea_put (hm.sub rfl) ?_
          assumption
        · intro h8
          refine Kept.sea_put (hm.sub rfl) ?_
          assumption
      · intro h6
        apply Kept.ite
        · intro h8
          apply egressApply_kept (hm.sub rfl)
          refine Kept.sea_put (hm.sub rfl) ?_
          assumption
        · intro h8
          apply egressPromote_kept (hm.sub rfl)
          refine Kept.sea_put (hm.sub rfl) ?_
          assumption

theorem keyCommand_kept (hm : Has m 0x408008a) (x0 : ℕ) (x1 : KeyRec) (s : State)
    (hs : Kept m s₀ s) :
    Kept m s₀ (keyCommand x0 x1 s) := by
  unfold keyCommand
  dsimp only
  apply emitIf_kept (hm.sub rfl)
  apply bump_kept (hm.sub rfl)
  refine Kept.sea_put (hm.sub rfl) ?_
  apply Kept.ite
  · intro h5
    apply keyApply_kept (hm.sub rfl)
    assumption
  · exact fun _ => by assumption

theorem execKeyErase_kept (hm : Has m 0x408008a) (x0 : KeyRec) (s : State)
    (hs : Kept m s₀ s) :
    ResAll (Kept m s₀) (execKeyErase x0 s) := by
  unfold execKeyErase
  apply ResAll.next
  apply keyCommand_kept (hm.sub rfl)
  assumption

theorem sealCount_kept (hm : Has m 0x2) (x0 : ℕ) (s : State)
    (hs : Kept m s₀ s) :
    Kept m s₀ (sealCount x0 s) := by
  unfold sealCount
  dsimp only
  apply upd_kept (hm.sub rfl)
  · intro y02 h3
    apply wr_kept (hm.sub rfl)
    assumption
  · apply wr_kept (hm.sub rfl)
    assumption

theorem execSealRequest_kept (hm : Has m 0x25c010a) (x0 : SealReq) (s : State)
    (hs : Kept m s₀ s) :
    ResAll (Kept m s₀) (execSealRequest x0 s) := by
  unfold execSealRequest
  apply ResAll.ite
  · intro h1
    dsimp only
    apply ResAll.next
    apply upd_kept (hm.sub rfl)
    · intro y05 h6
      apply completeOn_kept (hm.sub rfl)
      assumption
    · apply bump_kept (hm.sub rfl)
      assumption
  · intro h1
    apply ResAll.next
    refine Kept.sea_put (hm.sub rfl) ?_
    assumption

theorem execPrevKeyExpiry_kept (hm : Has m 0x80000) (x0 : ℕ) (s : State)
    (hs : Kept m s₀ s) :
    ResAll (Kept m s₀) (execPrevKeyExpiry x0 s) := by
  unfold execPrevKeyExpiry
  apply ResAll.next
  refine Kept.sea_put (hm.sub rfl) ?_
  assumption

theorem sealCompute_kept (hm : Has m 0x2) (x0 : SealReq) (x1 : Bool) (x2 : List ℕ) (x3 : List ℕ) (x4 : List ℕ) (s : State)
    (hs : Kept m s₀ s) :
    SndAll (Kept m s₀) (sealCompute x0 x1 x2 x3 x4 s) := by
  unfold sealCompute
  dsimp only
  apply SndAll.ite
  · intro h2
    apply SndAll.mk
    assumption
  · intro h2
    apply SndAll.ite
    · intro h4
      apply SndAll.mk
      assumption
    · intro h4
      apply SndAll.ite
      · intro h6
        apply SndAll.mk
        apply sealCount_kept (hm.sub rfl)
        assumption
      · intro h6
        apply SndAll.ite
        · intro h8
          apply SndAll.mk
          apply sealCount_kept (hm.sub rfl)
          assumption
        · intro h8
          apply SndAll.ite
          · intro h10
            apply SndAll.mk
            apply sealCount_kept (hm.sub rfl)
            assumption
          · intro h10
            apply SndAll.ite
            · intro h12
              apply SndAll.mk
              apply sealCount_kept (hm.sub rfl)
              assumption
            · intro h12
              apply SndAll.ite
              · intro h14
                apply SndAll.mk
                apply sealCount_kept (hm.sub rfl)
                assumption
              · intro h14
                apply SndAll.ite
                · intro h16
                  apply SndAll.mk
                  apply sealCount_kept (hm.sub rfl)
                  assumption
                · intro h16
                  apply SndAll.mk
                  apply sealCount_kept (hm.sub rfl)
                  assumption

theorem sealCompute_elim {x0 : SealReq} {x1 : Bool} {x2 : List ℕ} {x3 : List ℕ} {x4 : List ℕ} {s : State} {v0} {t : State} (hm : Has m 0x2) (e : (sealCompute x0 x1 x2 x3 x4 s) = (v0, t))
    (hs : Kept m s₀ s) : Kept m s₀ t := by
  have hk := sealCompute_kept hm x0 x1 x2 x3 x4 s hs
  rw [e] at hk
  exact (SndAll.elim hk rfl)

theorem execSealDequeue_kept (hm : Has m 0x80002) (s : State)
    (hs : Kept m s₀ s) :
    ResAll (Kept m s₀) (execSealDequeue s) := by
  unfold execSealDequeue
  split
  · apply ResAll.next
    assumption
  · dsimp only
    apply ResAll.next
    refine Kept.sea_put (hm.sub rfl) ?_
    apply Kept.snd
    apply sealCompute_kept (hm.sub rfl)
    refine Kept.sea_put (hm.sub rfl) ?_
    assumption

theorem sealNow_kept (hm : Has m 0x2) (x0 : ℕ) (x1 : ℕ) (x2 : ℕ) (x3 : ℕ) (x4 : List ℕ) (x5 : List ℕ) (s : State)
    (hs : Kept m s₀ s) :
    SndAll (Kept m s₀) (sealNow x0 x1 x2 x3 x4 x5 s) := by
  unfold sealNow
  apply SndAll.ite
  · intro h1
    apply SndAll.mk
    apply bump_kept (hm.sub rfl)
    assumption
  · intro h1
    dsimp only
    apply SndAll.ite
    · intro h4
      apply SndAll.mk
      apply bump_kept (hm.sub rfl)
      apply Kept.snd
      apply sealCompute_kept (hm.sub rfl)
      assumption
    · intro h4
      apply SndAll.mk
      apply bump_kept (hm.sub rfl)
      apply Kept.snd
      apply sealCompute_kept (hm.sub rfl)
      assumption

theorem sealNow_elim {x0 : ℕ} {x1 : ℕ} {x2 : ℕ} {x3 : ℕ} {x4 : List ℕ} {x5 : List ℕ} {s : State} {v0} {t : State} (hm : Has m 0x2) (e : (sealNow x0 x1 x2 x3 x4 x5 s) = (v0, t))
    (hs : Kept m s₀ s) : Kept m s₀ t := by
  have hk := sealNow_kept hm x0 x1 x2 x3 x4 x5 s hs
  rw [e] at hk
  exact (SndAll.elim hk rfl)

theorem execEgressKeyEffective_kept (hm : Has m 0x80002) (x0 : ℕ) (s : State)
    (hs : Kept m s₀ s) :
    ResAll (Kept m s₀) (execEgressKeyEffective x0 s) := by
  unfold execEgressKeyEffective
  apply ResAll.next
  apply egressPromote_kept (hm.sub rfl)
  assumption

theorem execKeyLoad_kept (hm : Has m 0x408008a) (x0 : KeyRec) (s : State)
    (hs : Kept m s₀ s) :
    ResAll (Kept m s₀) (execKeyLoad x0 s) := by
  unfold execKeyLoad
  apply ResAll.next
  apply keyCommand_kept (hm.sub rfl)
  assumption

theorem execKeyLoadNext_kept (hm : Has m 0x408008a) (x0 : KeyRec) (s : State)
    (hs : Kept m s₀ s) :
    ResAll (Kept m s₀) (execKeyLoadNext x0 s) := by
  unfold execKeyLoadNext
  apply ResAll.next
  apply keyCommand_kept (hm.sub rfl)
  assumption

end Sys2Proof.Machine
end

