-- ==== Sys2Proof/Laws/KeptResp.lean ====
section
/-! SUPPORT. Every effect of Machine/Resp.lean keeps what `Kept` says. -/
set_option Elab.async false
namespace Sys2Proof.Machine

variable {m : Nat} {s₀ : State}

theorem rspEnvelope_kept (hm : Has m 0x2) (x0 : Inst) (x1 : Status) (x2 : Bytes) (s : State)
    (hs : Kept m s₀ s) :
    SndAll (Kept m s₀) (rspEnvelope x0 x1 x2 s) := by
  unfold rspEnvelope
  dsimp only
  apply SndAll.ite
  · intro h2
    apply SndAll.mk
    assumption
  · intro h2
    split
    · apply SndAll.mk
      apply sealNow_elim (hm.sub rfl) (by assumption)
      assumption
    · apply SndAll.mk
      apply sealNow_elim (hm.sub rfl) (by assumption)
      assumption

theorem rspEnvelope_elim {x0 : Inst} {x1 : Status} {x2 : Bytes} {s : State} {v0} {t : State} (hm : Has m 0x2) (e : (rspEnvelope x0 x1 x2 s) = (v0, t))
    (hs : Kept m s₀ s) : Kept m s₀ t := by
  have hk := rspEnvelope_kept hm x0 x1 x2 s hs
  rw [e] at hk
  exact (SndAll.elim hk rfl)

theorem mbxUpd_kept (hm : Has m 0x80) (x0 : ℕ) (x1 : Mbx → Mbx) (s : State)
    (hs : Kept m s₀ s) :
    Kept m s₀ (mbxUpd x0 x1 s) := by
  unfold mbxUpd
  refine Kept.dic_put (hm.sub rfl) ?_
  assumption

theorem mbxDone_kept (hm : Has m 0x88) (x0 : ℕ) (x1 : Status) (x2 : Bool) (x3 : Bytes) (s : State)
    (hs : Kept m s₀ s) :
    Kept m s₀ (mbxDone x0 x1 x2 x3 s) := by
  unfold mbxDone
  apply emitIf_kept (hm.sub rfl)
  apply mbxUpd_kept (hm.sub rfl)
  assumption

theorem udpSend_kept (hm : Has m 0x2301a) (x0 : Bytes × ℕ) (x1 : Bytes) (s : State)
    (hs : Kept m s₀ s) :
    Kept m s₀ (udpSend x0 x1 s) := by
  unfold udpSend
  dsimp only
  apply Kept.snd
  apply admitPacket_kept (hm.sub rfl)
  assumption

theorem deliver_kept (hm : Has m 0x4230da) (x0 : Inst) (x1 : Status) (x2 : Bool) (x3 : Bytes) (s : State)
    (hs : Kept m s₀ s) :
    Kept m s₀ (deliver x0 x1 x2 x3 s) := by
  unfold deliver
  apply Kept.ite
  · intro h1
    apply lanokSend_kept (hm.sub rfl)
    assumption
  · intro h1
    split
    apply Kept.ite
    · intro h4
      apply mbxDone_kept (hm.sub rfl)
      apply rspEnvelope_elim (hm.sub rfl) (by assumption)
      assumption
    · intro h4
      apply Kept.ite
      · intro h6
        apply udpSend_kept (hm.sub rfl)
        apply rspEnvelope_elim (hm.sub rfl) (by assumption)
        assumption
      · intro h6
        apply lanokSend_kept (hm.sub rfl)
        apply rspEnvelope_elim (hm.sub rfl) (by assumption)
        assumption

theorem sendRsp_kept (hm : Has m 0x4230da) (x0 : Bool) (x1 : Inst) (x2 : ℕ) (x3 : ℕ) (x4 : ℕ) (x5 : ℕ) (x6 : Status) (x7 : Bytes) (s : State)
    (hs : Kept m s₀ s) :
    Kept m s₀ (sendRsp x0 x1 x2 x3 x4 x5 x6 x7 s) := by
  unfold sendRsp
  dsimp only
  apply deliver_kept (hm.sub rfl)
  apply upd_kept (hm.sub rfl)
  · intro y03 h4
    refine Kept.dic_put (hm.sub rfl) ?_
    assumption
  · apply emit_kept (hm.sub rfl)
    assumption

theorem respondAs_kept (hm : Has m 0x4230da) (x0 : Bool) (x1 : Inst) (x2 : ℕ) (x3 : ℕ) (x4 : ℕ) (x5 : ℕ) (x6 : Status) (x7 : Bytes) (s : State)
    (hs : Kept m s₀ s) :
    Kept m s₀ (respondAs x0 x1 x2 x3 x4 x5 x6 x7 s) := by
  unfold respondAs
  dsimp only
  apply Kept.ite
  · intro h2
    apply upd_kept (hm.sub rfl)
    · intro y04 h5
      refine Kept.dic_put (hm.sub rfl) ?_
      assumption
    · refine Kept.dic_put (hm.sub rfl) ?_
      apply upd_kept (hm.sub rfl)
      · intro y06 h7
        refine Kept.dic_put (hm.sub rfl) ?_
        assumption
      · assumption
  · intro h2
    apply Kept.ite
    · intro h4
      apply Kept.ite
      · intro h6
        apply bump_kept (hm.sub rfl)
        apply upd_kept (hm.sub rfl)
        · intro y09 h10
          refine Kept.dic_put (hm.sub rfl) ?_
          assumption
        · assumption
      · intro h6
        apply sendRsp_kept (hm.sub rfl)
        apply bump_kept (hm.sub rfl)
        apply upd_kept (hm.sub rfl)
        · intro y010 h11
          refine Kept.dic_put (hm.sub rfl) ?_
          assumption
        · assumption
    · intro h4
      apply sendRsp_kept (hm.sub rfl)
      apply bump_kept (hm.sub rfl)
      apply upd_kept (hm.sub rfl)
      · intro y08 h9
        refine Kept.dic_put (hm.sub rfl) ?_
        assumption
      · assumption

theorem respond_kept (hm : Has m 0x4230da) (x0 : Inst) (x1 : ℕ) (x2 : ℕ) (x3 : ℕ) (x4 : ℕ) (x5 : Status) (x6 : Bytes) (s : State)
    (hs : Kept m s₀ s) :
    Kept m s₀ (respond x0 x1 x2 x3 x4 x5 x6 s) := by
  unfold respond
  apply respondAs_kept (hm.sub rfl)
  assumption

theorem repeated_kept (hm : Has m 0x4230da) (x0 : Durable) (x1 : Inst) (x2 : ℕ) (x3 : ℕ) (x4 : ℕ) (x5 : ℕ) (s : State)
    (hs : Kept m s₀ s) :
    OptAll (Kept m s₀) (repeated x0 x1 x2 x3 x4 x5 s) := by
  unfold repeated
  apply OptAll.ite
  · exact fun _ => OptAll.none
  · intro h1
    split
    · apply OptAll.some
      apply bump_kept (hm.sub rfl)
      refine Kept.dic_put (hm.sub rfl) ?_
      assumption
    · apply OptAll.some
      apply respond_kept (hm.sub rfl)
      apply bump_kept (hm.sub rfl)
      assumption
    · exact OptAll.none

theorem repeated_elim {x0 : Durable} {x1 : Inst} {x2 : ℕ} {x3 : ℕ} {x4 : ℕ} {x5 : ℕ} {s : State}  {t : State} (hm : Has m 0x4230da) (e : (repeated x0 x1 x2 x3 x4 x5 s) = (some t))
    (hs : Kept m s₀ s) : Kept m s₀ t := by
  have hk := repeated_kept hm x0 x1 x2 x3 x4 x5 s hs
  rw [e] at hk
  exact (OptAll.elim hk rfl)

theorem markDirty_kept (hm : Has m 0x182) (x0 : ℕ) (s : State)
    (hs : Kept m s₀ s) :
    Kept m s₀ (markDirty x0 s) := by
  unfold markDirty
  split
  · apply Kept.ite
    · intro h2
      dsimp only
      apply summary_kept (hm.sub rfl)
      apply wr_kept (hm.sub rfl)
      refine Kept.dic_put (hm.sub rfl) ?_
      apply jrnlUpd_kept (hm.sub rfl)
      assumption
    · exact fun _ => by assumption
  · assumption

theorem acceptAs_kept (hm : Has m 0x244018a) (x0 : ℕ) (x1 : ℕ) (x2 : Durable) (s : State)
    (hs : Kept m s₀ s) :
    Kept m s₀ (acceptAs x0 x1 x2 s) := by
  unfold acceptAs
  apply Kept.ite
  · intro h1
    refine Kept.dic_put (hm.sub rfl) ?_
    assumption
  · intro h1
    dsimp only
    split
    · apply jrnlCommit_kept (hm.sub rfl)
      apply jrnlAccepted_kept (hm.sub rfl)
      refine Kept.dic_put (hm.sub rfl) ?_
      assumption
    · split
      · apply jrnlCommit_kept (hm.sub rfl)
        apply jrnlAccepted_kept (hm.sub rfl)
        refine Kept.dic_put (hm.sub rfl) ?_
        apply jrnlWrite_elim (hm.sub rfl) (by assumption)
        assumption
      · apply jrnlWrite_elim (hm.sub rfl) (by assumption)
        assumption

theorem acceptNow_kept (hm : Has m 0x244018a) (x0 : Inst) (x1 : ℕ) (x2 : ℕ) (x3 : ℕ) (x4 : Bytes) (s : State)
    (hs : Kept m s₀ s) :
    Kept m s₀ (acceptNow x0 x1 x2 x3 x4 s) := by
  unfold acceptNow
  apply acceptAs_kept (hm.sub rfl)
  assumption

theorem acceptWrite_kept (hm : Has m 0x244018a) (x0 : Inst) (x1 : ℕ) (x2 : ℕ) (x3 : Bytes) (x4 : State → State) (s : State)
    (hf4 : ∀ y0, Kept m s₀ y0 → (Kept m s₀) (x4 y0)) (hs : Kept m s₀ s) :
    Kept m s₀ (acceptWrite x0 x1 x2 x3 x4 s) := by
  unfold acceptWrite
  apply markDirty_kept (hm.sub rfl)
  apply acceptNow_kept (hm.sub rfl)
  apply hf4
  assumption

theorem notServed_kept (hm : Has m 0x4230da) (x0 : Inst) (x1 : ℕ) (x2 : ℕ) (x3 : ℕ) (x4 : ℕ) (s : State)
    (hs : Kept m s₀ s) :
    Kept m s₀ (notServed x0 x1 x2 x3 x4 s) := by
  unfold notServed
  apply sendRsp_kept (hm.sub rfl)
  assumption

theorem deferAs_kept (hm : Has m 0x244010a) (x0 : ℕ) (x1 : ℕ) (x2 : Durable) (s : State)
    (hs : Kept m s₀ s) :
    Kept m s₀ (deferAs x0 x1 x2 s) := by
  unfold deferAs
  apply Kept.snd
  apply jrnlWrite_kept (hm.sub rfl)
  assumption

theorem runWriteV_kept (hm : Has m 0x24631da) (x0 : Inst) (x1 : ℕ) (x2 : ℕ) (x3 : Bytes) (x4 : Status) (x5 : State → State) (s : State)
    (hf5 : ∀ y0, Kept m s₀ y0 → (Kept m s₀) (x5 y0)) (hs : Kept m s₀ s) :
    Kept m s₀ (runWriteV x0 x1 x2 x3 x4 x5 s) := by
  unfold runWriteV
  apply Kept.ite
  · intro h1
    apply notServed_kept (hm.sub rfl)
    assumption
  · intro h1
    dsimp only
    apply Kept.ite
    · intro h4
      apply OptAll.getD
      · apply repeated_kept (hm.sub rfl)
        assumption
      · apply Kept.ite
        · intro h7
          apply deferAs_kept (hm.sub rfl)
          assumption
        · intro h7
          apply respond_kept (hm.sub rfl)
          apply acceptWrite_kept (hm.sub rfl)
          · intro y010 h11
            apply hf5
            assumption
          · assumption
    · intro h4
      apply respond_kept (hm.sub rfl)
      assumption

theorem runWrite_kept (hm : Has m 0x24631da) (x0 : Inst) (x1 : ℕ) (x2 : ℕ) (x3 : ℕ) (x4 : Bool) (x5 : Status) (x6 : State → State) (s : State)
    (hf6 : ∀ y0, Kept m s₀ y0 → (Kept m s₀) (x6 y0)) (hs : Kept m s₀ s) :
    Kept m s₀ (runWrite x0 x1 x2 x3 x4 x5 x6 s) := by
  unfold runWrite
  apply runWriteV_kept (hm.sub rfl)
  · intro y01 h2
    apply hf6
    assumption
  · assumption

theorem runEnable_kept (hm : Has m 0x25631da) (x0 : Inst) (x1 : ℕ) (x2 : ℕ) (x3 : ℕ) (x4 : Status) (x5 : ℕ) (x6 : Bool) (x7 : State → State) (s : State)
    (hf7 : ∀ y0, Kept m s₀ y0 → (Kept m s₀) (x7 y0)) (hs : Kept m s₀ s) :
    Kept m s₀ (runEnable x0 x1 x2 x3 x4 x5 x6 x7 s) := by
  unfold runEnable
  apply Kept.ite
  · intro h1
    dsimp only
    apply respondAs_kept (hm.sub rfl)
    apply acceptWrite_kept (hm.sub rfl)
    · intro y05 h6
      apply hf7
      assumption
    · apply wakeDomain_kept (hm.sub rfl)
      refine Kept.pwr_put (hm.sub rfl) ?_
      assumption
  · intro h1
    apply runWrite_kept (hm.sub rfl)
    · intro y03 h4
      apply hf7
      assumption
    · assumption

theorem lastCmd_kept (hm : Has m 0x2) (x0 : Inst) (x1 : ℕ) (x2 : ℕ) (x3 : Status) (s : State)
    (hs : Kept m s₀ s) :
    Kept m s₀ (lastCmd x0 x1 x2 x3 s) := by
  unfold lastCmd
  apply wr_kept (hm.sub rfl)
  assumption

theorem cmdEnd_kept (hm : Has m 0x4230da) (x0 : Inst) (x1 : ℕ) (x2 : ℕ) (x3 : ℕ) (x4 : Status) (s : State)
    (hs : Kept m s₀ s) :
    Kept m s₀ (cmdEnd x0 x1 x2 x3 x4 s) := by
  unfold cmdEnd
  apply respond_kept (hm.sub rfl)
  apply upd_kept (hm.sub rfl)
  · intro y02 h3
    apply lastCmd_kept (hm.sub rfl)
    assumption
  · assumption

theorem runCmdV_kept (hm : Has m 0x24631da) (x0 : Inst) (x1 : ℕ) (x2 : ℕ) (x3 : ℕ) (x4 : Bytes) (x5 : Status) (x6 : State → State) (s : State)
    (hf6 : ∀ y0, Kept m s₀ y0 → (Kept m s₀) (x6 y0)) (hs : Kept m s₀ s) :
    Kept m s₀ (runCmdV x0 x1 x2 x3 x4 x5 x6 s) := by
  unfold runCmdV
  apply Kept.ite
  · intro h1
    apply notServed_kept (hm.sub rfl)
    assumption
  · intro h1
    dsimp only
    apply Kept.ite
    · intro h4
      apply OptAll.getD
      · apply repeated_kept (hm.sub rfl)
        assumption
      · apply Kept.ite
        · intro h7
          apply deferAs_kept (hm.sub rfl)
          assumption
        · intro h7
          apply cmdEnd_kept (hm.sub rfl)
          apply hf6
          apply acceptNow_kept (hm.sub rfl)
          assumption
    · intro h4
      apply cmdEnd_kept (hm.sub rfl)
      assumption

theorem runCmd_kept (hm : Has m 0x24631da) (x0 : Inst) (x1 : ℕ) (x2 : ℕ) (x3 : ℕ) (x4 : Status) (x5 : State → State) (s : State)
    (hf5 : ∀ y0, Kept m s₀ y0 → (Kept m s₀) (x5 y0)) (hs : Kept m s₀ s) :
    Kept m s₀ (runCmd x0 x1 x2 x3 x4 x5 s) := by
  unfold runCmd
  apply runCmdV_kept (hm.sub rfl)
  · intro y01 h2
    apply hf5
    assumption
  · assumption

theorem writeSlotErase_kept (hm : Has m 0x64e31da) (x0 : Inst) (x1 : ℕ) (x2 : Fin 64) (s : State)
    (hs : Kept m s₀ s) :
    Kept m s₀ (writeSlotErase x0 x1 x2 s) := by
  unfold writeSlotErase
  apply runCmd_kept (hm.sub rfl)
  · intro y01 h2
    apply sealErase_kept (hm.sub rfl)
    assumption
  · assumption

theorem legErase_kept (hm : Has m 0x24e31da) (x0 : Inst) (x1 : ℕ) (x2 : ℕ) (x3 : Status) (s : State)
    (hs : Kept m s₀ s) :
    Kept m s₀ (legErase x0 x1 x2 x3 s) := by
  unfold legErase
  dsimp only
  apply runCmdV_kept (hm.sub rfl)
  · intro y02 h3
    apply upd_kept (hm.sub rfl)
    · intro y05 h6
      apply srtpErase_kept (hm.sub rfl)
      assumption
    · apply upd_kept (hm.sub rfl)
      · intro y06 h7
        apply srtpErase_kept (hm.sub rfl)
        assumption
      · assumption
  · assumption

theorem writeOutErase_kept (hm : Has m 0x24e31da) (x0 : Inst) (x1 : ℕ) (s : State)
    (hs : Kept m s₀ s) :
    Kept m s₀ (writeOutErase x0 x1 s) := by
  unfold writeOutErase
  apply legErase_kept (hm.sub rfl)
  assumption

theorem runPending_kept (hm : Has m 0x24631da) (x0 : Inst) (x1 : ℕ) (x2 : ℕ) (x3 : ℕ) (x4 : Bytes) (x5 : Status) (x6 : State → State) (s : State)
    (hf6 : ∀ y0, Kept m s₀ y0 → (Kept m s₀) (x6 y0)) (hs : Kept m s₀ s) :
    Kept m s₀ (runPending x0 x1 x2 x3 x4 x5 x6 s) := by
  unfold runPending
  dsimp only
  apply Kept.ite
  · intro h2
    apply OptAll.getD
    · apply repeated_kept (hm.sub rfl)
      assumption
    · apply Kept.ite
      · intro h5
        apply deferAs_kept (hm.sub rfl)
        assumption
      · intro h5
        apply hf6
        apply cmdEnd_kept (hm.sub rfl)
        apply acceptNow_kept (hm.sub rfl)
        assumption
  · intro h2
    apply runCmdV_kept (hm.sub rfl)
    · intro y04 h5
      dsimp only [id]
      assumption
    · assumption

theorem cmdComplete_kept (hm : Has m 0xc230da) (x0 : ℕ) (x1 : ℕ) (x2 : Status) (s : State)
    (hs : Kept m s₀ s) :
    Kept m s₀ (cmdComplete x0 x1 x2 s) := by
  unfold cmdComplete
  split
  · assumption
  · dsimp only
    apply deliver_kept (hm.sub rfl)
    apply emit_kept (hm.sub rfl)
    apply lastCmd_kept (hm.sub rfl)
    refine Kept.mk' (v := 8388736) (hm.sub rfl) rfl ?_ ?_
    · assumption
    · intro p hp
      cases p <;> first | exact absurd hp (by dsimp only [StatePart.idx]; decide) | exact Eq.refl _ | exact ⟨Eq.refl _, Eq.refl _, Eq.refl _⟩

theorem execCmdComplete_kept (hm : Has m 0xc230da) (x0 : ℕ) (x1 : ℕ) (x2 : Fin 12) (s : State)
    (hs : Kept m s₀ s) :
    ResAll (Kept m s₀) (execCmdComplete x0 x1 x2 s) := by
  unfold execCmdComplete
  apply ResAll.next
  apply cmdComplete_kept (hm.sub rfl)
  assumption

theorem runAfter_kept (hm : Has m 0x24631da) (x0 : Inst) (x1 : ℕ) (x2 : ℕ) (x3 : ℕ) (x4 : Status) (x5 : State → State) (s : State)
    (hf5 : ∀ y0, Kept m s₀ y0 → (Kept m s₀) (x5 y0)) (hs : Kept m s₀ s) :
    Kept m s₀ (runAfter x0 x1 x2 x3 x4 x5 s) := by
  unfold runAfter
  apply Kept.ite
  · intro h1
    apply hf5
    apply cmdEnd_kept (hm.sub rfl)
    apply acceptNow_kept (hm.sub rfl)
    assumption
  · intro h1
    apply runCmd_kept (hm.sub rfl)
    · intro y03 h4
      dsimp only [id]
      assumption
    · assumption

theorem writeInErase_kept (hm : Has m 0x24e31da) (x0 : Inst) (x1 : ℕ) (s : State)
    (hs : Kept m s₀ s) :
    Kept m s₀ (writeInErase x0 x1 s) := by
  unfold writeInErase
  apply legErase_kept (hm.sub rfl)
  assumption

theorem writeSchedStatsClear_kept (hm : Has m 0x24631da) (x0 : Inst) (x1 : ℕ) (s : State)
    (hs : Kept m s₀ s) :
    Kept m s₀ (writeSchedStatsClear x0 x1 s) := by
  unfold writeSchedStatsClear
  apply runCmd_kept (hm.sub rfl)
  · intro y01 h2
    apply clearSchedStats_kept (hm.sub rfl)
    assumption
  · assumption

end Sys2Proof.Machine
end

