-- ==== Sys2Proof/Laws/KeptTime.lean ====
section
/-! SUPPORT. Every effect of Machine/Time.lean keeps what `Kept` says. -/
set_option Elab.async false
namespace Sys2Proof.Machine

variable {m : Nat} {s₀ : State}

theorem barrierMeasure_kept (hm : Has m 0x400068) (s : State)
    (hs : Kept m s₀ s) :
    Kept m s₀ (barrierMeasure s) := by
  unfold barrierMeasure
  apply Kept.ite
  · intro h1
    dsimp only
    refine Kept.isb_put (hm.sub rfl) ?_
    apply lanokSend_kept (hm.sub rfl)
    assumption
  · exact fun _ => by assumption

theorem ptpUpd_kept (hm : Has m 0x20) (x0 : Ptp → Ptp) (s : State)
    (hs : Kept m s₀ s) :
    Kept m s₀ (ptpUpd x0 s) := by
  unfold ptpUpd
  refine Kept.isb_put (hm.sub rfl) ?_
  assumption

theorem ptpDelayResp_kept (hm : Has m 0x20) (x0 : PtpMsg) (s : State)
    (hs : Kept m s₀ s) :
    Kept m s₀ (ptpDelayResp x0 s) := by
  unfold ptpDelayResp
  split
  · apply Kept.ite
    · intro h2
      apply ptpUpd_kept (hm.sub rfl)
      assumption
    · exact fun _ => by assumption
  · assumption

theorem execPpsOutEdge_kept (hm : Has m 0x28) (x0 : Fin 2) (s : State)
    (hs : Kept m s₀ s) :
    ResAll (Kept m s₀) (execPpsOutEdge x0 s) := by
  unfold execPpsOutEdge
  dsimp only
  apply ResAll.ite
  · intro h2
    apply ResAll.next
    apply emit_kept (hm.sub rfl)
    refine Kept.isb_put (hm.sub rfl) ?_
    assumption
  · intro h2
    apply ResAll.next
    assumption

theorem sourceUpd_kept (hm : Has m 0x20) (x0 : ℕ) (x1 : Source → Source) (s : State)
    (hs : Kept m s₀ s) :
    Kept m s₀ (sourceUpd x0 x1 s) := by
  unfold sourceUpd
  refine Kept.isb_put (hm.sub rfl) ?_
  assumption

theorem stopSlew_kept (hm : Has m 0x20) (s : State)
    (hs : Kept m s₀ s) :
    Kept m s₀ (stopSlew s) := by
  unfold stopSlew
  refine Kept.isb_put (hm.sub rfl) ?_
  assumption

theorem stepIsobar_kept (hm : Has m 0x400060) (x0 : Instant) (s : State)
    (hs : Kept m s₀ s) :
    Kept m s₀ (stepIsobar x0 s) := by
  unfold stepIsobar
  dsimp only
  refine Kept.mk' (v := 4194400) (hm.sub rfl) rfl ?_ ?_
  · assumption
  · intro p hp
    cases p <;> first | exact absurd hp (by dsimp only [StatePart.idx]; decide) | exact Eq.refl _ | exact ⟨Eq.refl _, Eq.refl _, Eq.refl _⟩

theorem initialAlign_kept (hm : Has m 0x400062) (x0 : ℤ) (s : State)
    (hs : Kept m s₀ s) :
    Kept m s₀ (initialAlign x0 s) := by
  unfold initialAlign
  apply wr_kept (hm.sub rfl)
  apply stepIsobar_kept (hm.sub rfl)
  assumption

theorem startSlew_kept (hm : Has m 0x22) (x0 : ℤ) (s : State)
    (hs : Kept m s₀ s) :
    Kept m s₀ (startSlew x0 s) := by
  unfold startSlew
  dsimp only
  apply Kept.ite
  · intro h2
    apply wrI_kept (hm.sub rfl)
    assumption
  · intro h2
    refine Kept.isb_put (hm.sub rfl) ?_
    apply wrI_kept (hm.sub rfl)
    assumption

theorem firstAlign_kept (hm : Has m 0x400062) (x0 : ℤ) (s : State)
    (hs : Kept m s₀ s) :
    Kept m s₀ (firstAlign x0 s) := by
  unfold firstAlign
  apply Kept.ite
  · intro h1
    apply initialAlign_kept (hm.sub rfl)
    assumption
  · intro h1
    apply wr_kept (hm.sub rfl)
    apply startSlew_kept (hm.sub rfl)
    assumption

theorem selectSource_kept (hm : Has m 0x400062) (s : State)
    (hs : Kept m s₀ s) :
    Kept m s₀ (selectSource s) := by
  unfold selectSource
  apply Kept.ite
  · exact fun _ => by assumption
  · intro h1
    split
    · assumption
    · apply Kept.ite
      · exact fun _ => by assumption
      · intro h4
        dsimp only
        apply Kept.ite
        · intro h7
          apply firstAlign_kept (hm.sub rfl)
          apply summary_kept (hm.sub rfl)
          apply wr_kept (hm.sub rfl)
          apply wr_kept (hm.sub rfl)
          apply stopSlew_kept (hm.sub rfl)
          assumption
        · intro h7
          apply startSlew_kept (hm.sub rfl)
          apply summary_kept (hm.sub rfl)
          apply wr_kept (hm.sub rfl)
          apply wr_kept (hm.sub rfl)
          apply stopSlew_kept (hm.sub rfl)
          assumption

theorem setFreq_kept (hm : Has m 0x22) (x0 : ℤ) (s : State)
    (hs : Kept m s₀ s) :
    Kept m s₀ (setFreq x0 s) := by
  unfold setFreq
  dsimp only
  apply wrI_kept (hm.sub rfl)
  refine Kept.isb_put (hm.sub rfl) ?_
  apply upd_kept (hm.sub rfl)
  · intro y04 h5
    apply bump_kept (hm.sub rfl)
    assumption
  · assumption

theorem enterHoldover_kept (hm : Has m 0x22) (s : State)
    (hs : Kept m s₀ s) :
    Kept m s₀ (enterHoldover s) := by
  unfold enterHoldover
  apply Kept.ite
  · exact fun _ => by assumption
  · intro h1
    dsimp only
    apply setFreq_kept (hm.sub rfl)
    apply summary_kept (hm.sub rfl)
    apply wr_kept (hm.sub rfl)
    apply wr_kept (hm.sub rfl)
    apply stopSlew_kept (hm.sub rfl)
    assumption

theorem disqualify_kept (hm : Has m 0x400062) (x0 : ℕ) (x1 : ℕ) (s : State)
    (hs : Kept m s₀ s) :
    Kept m s₀ (disqualify x0 x1 s) := by
  unfold disqualify
  dsimp only
  apply Kept.ite
  · intro h2
    apply selectSource_kept (hm.sub rfl)
    apply enterHoldover_kept (hm.sub rfl)
    apply sourceUpd_kept (hm.sub rfl)
    apply wr_kept (hm.sub rfl)
    apply wr_kept (hm.sub rfl)
    assumption
  · intro h2
    apply sourceUpd_kept (hm.sub rfl)
    apply wr_kept (hm.sub rfl)
    apply wr_kept (hm.sub rfl)
    assumption

theorem discipline_kept (hm : Has m 0x22) (x0 : ℕ) (x1 : ℤ) (s : State)
    (hs : Kept m s₀ s) :
    Kept m s₀ (discipline x0 x1 s) := by
  unfold discipline
  dsimp only
  apply Kept.ite
  · intro h2
    apply setFreq_kept (hm.sub rfl)
    apply wrI_kept (hm.sub rfl)
    apply sourceUpd_kept (hm.sub rfl)
    assumption
  · intro h2
    apply sourceUpd_kept (hm.sub rfl)
    assumption

theorem sourceSeen_kept (hm : Has m 0x22) (x0 : ℕ) (s : State)
    (hs : Kept m s₀ s) :
    Kept m s₀ (sourceSeen x0 s) := by
  unfold sourceSeen
  dsimp only
  apply Kept.ite
  · intro h2
    apply sourceUpd_kept (hm.sub rfl)
    apply upd_kept (hm.sub rfl)
    · intro y05 h6
      apply wr_kept (hm.sub rfl)
      apply sourceUpd_kept (hm.sub rfl)
      assumption
    · assumption
  · intro h2
    apply upd_kept (hm.sub rfl)
    · intro y04 h5
      apply wr_kept (hm.sub rfl)
      apply sourceUpd_kept (hm.sub rfl)
      assumption
    · assumption

theorem measured_kept (hm : Has m 0x400062) (x0 : ℕ) (x1 : ℕ) (x2 : ℤ) (x3 : ℤ) (s : State)
    (hs : Kept m s₀ s) :
    Kept m s₀ (measured x0 x1 x2 x3 s) := by
  unfold measured
  split
  · apply sourceUpd_kept (hm.sub rfl)
    apply disqualify_kept (hm.sub rfl)
    assumption
  · apply discipline_kept (hm.sub rfl)
    apply sourceUpd_kept (hm.sub rfl)
    apply sourceSeen_kept (hm.sub rfl)
    assumption

theorem ptpOffset_kept (hm : Has m 0x400062) (x0 : ℕ) (x1 : ℕ) (s : State)
    (hs : Kept m s₀ s) :
    Kept m s₀ (ptpOffset x0 x1 s) := by
  unfold ptpOffset
  dsimp only
  apply measured_kept (hm.sub rfl)
  apply ptpUpd_kept (hm.sub rfl)
  assumption

theorem slewLimit_kept (hm : Has m 0x22) (x0 : ℕ) (s : State)
    (hs : Kept m s₀ s) :
    Kept m s₀ (slewLimit x0 s) := by
  unfold slewLimit
  apply wr_kept (hm.sub rfl)
  apply Kept.ite
  · intro h2
    refine Kept.isb_put (hm.sub rfl) ?_
    assumption
  · exact fun _ => by assumption

theorem lxDrive_kept (hm : Has m 0xa) (x0 : ℕ) (x1 : ℕ) (s : State)
    (hs : Kept m s₀ s) :
    Kept m s₀ (lxDrive x0 x1 s) := by
  unfold lxDrive
  apply emit_kept (hm.sub rfl)
  apply wr_kept (hm.sub rfl)
  assumption

theorem ptpSend_kept (hm : Has m 0x2301a) (x0 : PtpKind) (x1 : ℕ) (x2 : ℕ) (x3 : ℕ) (s : State)
    (hs : Kept m s₀ s) :
    Kept m s₀ (ptpSend x0 x1 x2 x3 s) := by
  unfold ptpSend
  dsimp only
  apply Kept.snd
  apply admitPacket_kept (hm.sub rfl)
  assumption

theorem claimComparator_kept (hm : Has m 0x4000080) (x0 : ℕ) (s : State)
    (hs : Kept m s₀ s) :
    OptAll (SndAll (Kept m s₀)) (claimComparator x0 s) := by
  unfold claimComparator
  apply OptAll.map
  intro x1 h2
  apply SndAll.mk
  apply setClaim_kept (hm.sub rfl)
  assumption

theorem claimComparator_elim {x0 : ℕ} {s : State} {v0} {t : State} (hm : Has m 0x4000080) (e : (claimComparator x0 s) = (some (v0, t)))
    (hs : Kept m s₀ s) : Kept m s₀ t := by
  have hk := claimComparator_kept hm x0 s hs
  rw [e] at hk
  exact (SndAll.elim (OptAll.elim hk rfl) rfl)

theorem ppsEn_kept (hm : Has m 0x40000aa) (x0 : ℕ) (x1 : ℕ) (s : State)
    (hs : Kept m s₀ s) :
    Kept m s₀ (ppsEn x0 x1 s) := by
  unfold ppsEn
  dsimp only
  apply Kept.ite
  · intro h2
    apply Kept.ite
    · intro h4
      split
      · apply claimComparator_elim (hm.sub rfl) (by assumption)
        apply wr_kept (hm.sub rfl)
        assumption
      · apply wr_kept (hm.sub rfl)
        assumption
    · intro h4
      apply wr_kept (hm.sub rfl)
      assumption
  · intro h2
    apply unclaimAll_kept (hm.sub rfl)
    apply emit_kept (hm.sub rfl)
    refine Kept.isb_put (hm.sub rfl) ?_
    apply wr_kept (hm.sub rfl)
    assumption

theorem ptpSync_kept (hm : Has m 0x400062) (x0 : PtpMsg) (x1 : Instant) (s : State)
    (hs : Kept m s₀ s) :
    Kept m s₀ (ptpSync x0 x1 s) := by
  unfold ptpSync
  dsimp only
  apply Kept.ite
  · intro h2
    apply disqualify_kept (hm.sub rfl)
    apply sourceSeen_kept (hm.sub rfl)
    apply ptpUpd_kept (hm.sub rfl)
    assumption
  · intro h2
    apply Kept.ite
    · intro h4
      apply ptpUpd_kept (hm.sub rfl)
      apply sourceSeen_kept (hm.sub rfl)
      apply ptpUpd_kept (hm.sub rfl)
      assumption
    · intro h4
      apply ptpOffset_kept (hm.sub rfl)
      apply sourceSeen_kept (hm.sub rfl)
      apply ptpUpd_kept (hm.sub rfl)
      assumption

theorem ptpFollow_kept (hm : Has m 0x400062) (x0 : PtpMsg) (s : State)
    (hs : Kept m s₀ s) :
    Kept m s₀ (ptpFollow x0 s) := by
  unfold ptpFollow
  dsimp only
  apply Kept.ite
  · intro h2
    apply disqualify_kept (hm.sub rfl)
    apply upd_kept (hm.sub rfl)
    · intro y05 h6
      apply wrI_kept (hm.sub rfl)
      assumption
    · apply wr_kept (hm.sub rfl)
      apply wr_kept (hm.sub rfl)
      apply sourceSeen_kept (hm.sub rfl)
      apply ptpUpd_kept (hm.sub rfl)
      apply upd_kept (hm.sub rfl)
      · intro y010 h11
        apply ptpUpd_kept (hm.sub rfl)
        assumption
      · assumption
  · intro h2
    apply upd_kept (hm.sub rfl)
    · intro y04 h5
      apply wrI_kept (hm.sub rfl)
      assumption
    · apply wr_kept (hm.sub rfl)
      apply wr_kept (hm.sub rfl)
      apply sourceSeen_kept (hm.sub rfl)
      apply ptpUpd_kept (hm.sub rfl)
      apply upd_kept (hm.sub rfl)
      · intro y09 h10
        apply ptpUpd_kept (hm.sub rfl)
        assumption
      · assumption

theorem ptpAnnounce_kept (hm : Has m 0x400062) (x0 : PtpMsg) (s : State)
    (hs : Kept m s₀ s) :
    Kept m s₀ (ptpAnnounce x0 s) := by
  unfold ptpAnnounce
  apply Kept.ite
  · exact fun _ => by assumption
  · intro h1
    dsimp only
    split
    · apply ptpUpd_kept (hm.sub rfl)
      assumption
    · apply Kept.ite
      · intro h5
        apply ptpUpd_kept (hm.sub rfl)
        apply ptpUpd_kept (hm.sub rfl)
        assumption
      · intro h5
        apply ptpFollow_kept (hm.sub rfl)
        apply upd_kept (hm.sub rfl)
        · intro y08 h9
          apply ptpUpd_kept (hm.sub rfl)
          assumption
        · apply ptpUpd_kept (hm.sub rfl)
          assumption

theorem ppsTiming_kept (hm : Has m 0x400062) (s : State)
    (hs : Kept m s₀ s) :
    Kept m s₀ (ppsTiming s) := by
  unfold ppsTiming
  dsimp only
  split
  · apply disqualify_kept (hm.sub rfl)
    refine Kept.isb_put (hm.sub rfl) ?_
    apply upd_kept (hm.sub rfl)
    · intro y05 h6
      apply sourceSeen_kept (hm.sub rfl)
      assumption
    · refine Kept.isb_put (hm.sub rfl) ?_
      assumption
  · apply discipline_kept (hm.sub rfl)
    refine Kept.isb_put (hm.sub rfl) ?_
    apply upd_kept (hm.sub rfl)
    · intro y05 h6
      apply sourceSeen_kept (hm.sub rfl)
      assumption
    · refine Kept.isb_put (hm.sub rfl) ?_
      assumption

theorem execPpsInEdge_kept (hm : Has m 0x400062) (x0 : Bool) (s : State)
    (hs : Kept m s₀ s) :
    ResAll (Kept m s₀) (execPpsInEdge x0 s) := by
  unfold execPpsInEdge
  apply ResAll.next
  apply Kept.ite
  · exact fun _ => by assumption
  · intro h2
    apply Kept.ite
    · intro h4
      apply disqualify_kept (hm.sub rfl)
      refine Kept.isb_put (hm.sub rfl) ?_
      assumption
    · intro h4
      apply ppsTiming_kept (hm.sub rfl)
      refine Kept.isb_put (hm.sub rfl) ?_
      assumption

theorem isbStep_kept (hm : Has m 0x400060) (x0 : ℕ) (s : State)
    (hs : Kept m s₀ s) :
    Kept m s₀ (isbStep x0 s) := by
  unfold isbStep
  apply stepIsobar_kept (hm.sub rfl)
  assumption

theorem writeIsbStep_kept (hm : Has m 0x24631fa) (x0 : Inst) (x1 : ℕ) (x2 : ℕ) (s : State)
    (hs : Kept m s₀ s) :
    Kept m s₀ (writeIsbStep x0 x1 x2 s) := by
  unfold writeIsbStep
  apply runCmdV_kept (hm.sub rfl)
  · intro y01 h2
    apply isbStep_kept (hm.sub rfl)
    assumption
  · assumption

theorem execPtpDelayReqInterval_kept (hm : Has m 0x2303a) (s : State)
    (hs : Kept m s₀ s) :
    ResAll (Kept m s₀) (execPtpDelayReqInterval s) := by
  unfold execPtpDelayReqInterval
  apply ResAll.ite
  · intro h1
    apply ResAll.next
    assumption
  · intro h1
    dsimp only
    apply ResAll.next
    apply ptpSend_kept (hm.sub rfl)
    apply ptpUpd_kept (hm.sub rfl)
    assumption

theorem execSourceQualify_kept (hm : Has m 0x400062) (x0 : Fin 4) (x1 : ℤ) (s : State)
    (hs : Kept m s₀ s) :
    ResAll (Kept m s₀) (execSourceQualify x0 x1 s) := by
  unfold execSourceQualify
  dsimp only
  apply ResAll.ite
  · intro h2
    apply ResAll.next
    apply selectSource_kept (hm.sub rfl)
    apply wr_kept (hm.sub rfl)
    apply sourceUpd_kept (hm.sub rfl)
    assumption
  · intro h2
    apply ResAll.next
    assumption

theorem ptpFollowUp_kept (hm : Has m 0x400062) (x0 : PtpMsg) (s : State)
    (hs : Kept m s₀ s) :
    Kept m s₀ (ptpFollowUp x0 s) := by
  unfold ptpFollowUp
  split
  · apply Kept.ite
    · intro h2
      apply ptpOffset_kept (hm.sub rfl)
      assumption
    · intro h2
      apply disqualify_kept (hm.sub rfl)
      assumption
  · apply disqualify_kept (hm.sub rfl)
    assumption

theorem ptpMessage_kept (hm : Has m 0x42307a) (x0 : PtpMsg) (x1 : Instant) (s : State)
    (hs : Kept m s₀ s) :
    Kept m s₀ (ptpMessage x0 x1 s) := by
  unfold ptpMessage
  apply Kept.ite
  · exact fun _ => by assumption
  · intro h1
    dsimp only
    split
    · apply ptpAnnounce_kept (hm.sub rfl)
      assumption
    · apply Kept.ite
      · intro h5
        apply ptpSync_kept (hm.sub rfl)
        assumption
      · exact fun _ => by assumption
    · apply Kept.ite
      · intro h5
        apply ptpFollowUp_kept (hm.sub rfl)
        assumption
      · exact fun _ => by assumption
    · apply Kept.ite
      · intro h5
        apply ptpSend_kept (hm.sub rfl)
        assumption
      · exact fun _ => by assumption
    · apply Kept.ite
      · intro h5
        apply ptpDelayResp_kept (hm.sub rfl)
        assumption
      · exact fun _ => by assumption
    · apply bump_kept (hm.sub rfl)
      assumption

theorem todSet_kept (hm : Has m 0x20) (x0 : ℕ) (s : State)
    (hs : Kept m s₀ s) :
    Kept m s₀ (todSet x0 s) := by
  unfold todSet
  refine Kept.isb_put (hm.sub rfl) ?_
  assumption

theorem execPtpSyncInterval_kept (hm : Has m 0x2303a) (s : State)
    (hs : Kept m s₀ s) :
    ResAll (Kept m s₀) (execPtpSyncInterval s) := by
  unfold execPtpSyncInterval
  apply ResAll.ite
  · intro h1
    apply ResAll.next
    assumption
  · intro h1
    dsimp only
    apply ResAll.next
    apply ptpSend_kept (hm.sub rfl)
    apply ptpUpd_kept (hm.sub rfl)
    assumption

theorem ptpSent_kept (hm : Has m 0x2303a) (x0 : PtpKind) (x1 : ℕ) (x2 : Instant) (s : State)
    (hs : Kept m s₀ s) :
    Kept m s₀ (ptpSent x0 x1 x2 s) := by
  unfold ptpSent
  split
  · apply ptpSend_kept (hm.sub rfl)
    assumption
  · apply ptpUpd_kept (hm.sub rfl)
    assumption
  · assumption

theorem execNowLoRead_kept (hm : Has m 0x28) (x0 : ℕ) (s : State)
    (hs : Kept m s₀ s) :
    ResAll (Kept m s₀) (execNowLoRead x0 s) := by
  unfold execNowLoRead
  apply ResAll.next
  apply emit_kept (hm.sub rfl)
  refine Kept.isb_put (hm.sub rfl) ?_
  assumption

theorem execBarrierDelayMeasure_kept (hm : Has m 0x400068) (s : State)
    (hs : Kept m s₀ s) :
    ResAll (Kept m s₀) (execBarrierDelayMeasure s) := by
  unfold execBarrierDelayMeasure
  apply ResAll.next
  apply Kept.ite
  · intro h2
    apply barrierMeasure_kept (hm.sub rfl)
    assumption
  · exact fun _ => by assumption

theorem execPtpMessage_kept (hm : Has m 0x42307a) (x0 : PtpMsg) (s : State)
    (hs : Kept m s₀ s) :
    ResAll (Kept m s₀) (execPtpMessage x0 s) := by
  unfold execPtpMessage
  apply ResAll.next
  apply ptpMessage_kept (hm.sub rfl)
  assumption

theorem execTimeEcho_kept (hm : Has m 0x40006a) (x0 : Bool) (x1 : LHdr) (x2 : ℕ) (x3 : ℕ) (s : State)
    (hs : Kept m s₀ s) :
    ResAll (Kept m s₀) (execTimeEcho x0 x1 x2 x3 s) := by
  unfold execTimeEcho
  apply onLanok_kept (hm.sub rfl)
  · intro y01 h2
    apply Kept.ite
    · intro h4
      split
      · apply Kept.ite
        · intro h7
          apply wr_kept (hm.sub rfl)
          refine Kept.isb_put (hm.sub rfl) ?_
          assumption
        · exact fun _ => by assumption
      · assumption
    · intro h4
      apply lanokSend_kept (hm.sub rfl)
      assumption
  · assumption

theorem lxIdle_kept (hm : Has m 0xa) (x0 : ℕ) (x1 : ℕ) (s : State)
    (hs : Kept m s₀ s) :
    Kept m s₀ (lxIdle x0 x1 s) := by
  unfold lxIdle
  dsimp only
  apply Kept.ite
  · intro h2
    apply lxDrive_kept (hm.sub rfl)
    apply wr_kept (hm.sub rfl)
    assumption
  · intro h2
    apply wr_kept (hm.sub rfl)
    assumption

theorem execIsobarFineTick_kept (hm : Has m 0x60) (s : State)
    (hs : Kept m s₀ s) :
    ResAll (Kept m s₀) (execIsobarFineTick s) := by
  unfold execIsobarFineTick
  apply ResAll.next
  apply Kept.ite
  · intro h2
    refine Kept.mk' (v := 96) (hm.sub rfl) rfl ?_ ?_
    · assumption
    · intro p hp
      cases p <;> first | exact absurd hp (by dsimp only [StatePart.idx]; decide) | exact Eq.refl _ | exact ⟨Eq.refl _, Eq.refl _, Eq.refl _⟩
  · intro h2
    refine Kept.fld_put (hm.sub rfl) ?_
    assumption

theorem execSourceStopTimeout_kept (hm : Has m 0x400062) (x0 : Fin 4) (s : State)
    (hs : Kept m s₀ s) :
    ResAll (Kept m s₀) (execSourceStopTimeout x0 s) := by
  unfold execSourceStopTimeout
  apply ResAll.next
  apply Kept.ite
  · intro h2
    apply disqualify_kept (hm.sub rfl)
    apply Kept.ite
    · intro h5
      refine Kept.isb_put (hm.sub rfl) ?_
      assumption
    · exact fun _ => by assumption
  · exact fun _ => by assumption

theorem reselect_kept (hm : Has m 0x400062) (s : State)
    (hs : Kept m s₀ s) :
    Kept m s₀ (reselect s) := by
  unfold reselect
  apply selectSource_kept (hm.sub rfl)
  split
  · apply Kept.ite
    · exact fun _ => by assumption
    · intro h3
      apply enterHoldover_kept (hm.sub rfl)
      assumption
  · assumption

theorem execPtpAnnounceInterval_kept (hm : Has m 0x2303a) (s : State)
    (hs : Kept m s₀ s) :
    ResAll (Kept m s₀) (execPtpAnnounceInterval s) := by
  unfold execPtpAnnounceInterval
  apply ResAll.ite
  · intro h1
    apply ResAll.next
    assumption
  · intro h1
    dsimp only
    apply ResAll.next
    apply ptpSend_kept (hm.sub rfl)
    apply ptpUpd_kept (hm.sub rfl)
    assumption

theorem execLxPulseEnd_kept (hm : Has m 0x2a) (x0 : Fin 4) (s : State)
    (hs : Kept m s₀ s) :
    ResAll (Kept m s₀) (execLxPulseEnd x0 s) := by
  unfold execLxPulseEnd
  dsimp only
  apply ResAll.next
  apply Kept.ite
  · intro h3
    apply lxDrive_kept (hm.sub rfl)
    refine Kept.isb_put (hm.sub rfl) ?_
    assumption
  · exact fun _ => by assumption

theorem writePpsEn_kept (hm : Has m 0x64631fa) (x0 : Inst) (x1 : ℕ) (x2 : Fin 2) (x3 : Bool) (s : State)
    (hs : Kept m s₀ s) :
    Kept m s₀ (writePpsEn x0 x1 x2 x3 s) := by
  unfold writePpsEn
  apply runWrite_kept (hm.sub rfl)
  · intro y01 h2
    apply ppsEn_kept (hm.sub rfl)
    assumption
  · assumption

theorem writeTodSet_kept (hm : Has m 0x24631fa) (x0 : Inst) (x1 : ℕ) (x2 : ℕ) (s : State)
    (hs : Kept m s₀ s) :
    Kept m s₀ (writeTodSet x0 x1 x2 s) := by
  unfold writeTodSet
  apply runCmdV_kept (hm.sub rfl)
  · intro y01 h2
    apply todSet_kept (hm.sub rfl)
    assumption
  · assumption

theorem execRef10mInEdge_kept (hm : Has m 0x400062) (s : State)
    (hs : Kept m s₀ s) :
    ResAll (Kept m s₀) (execRef10mInEdge s) := by
  unfold execRef10mInEdge
  apply ResAll.ite
  · intro h1
    apply ResAll.next
    assumption
  · intro h1
    dsimp only
    split
    · apply ResAll.next
      refine Kept.isb_put (hm.sub rfl) ?_
      apply upd_kept (hm.sub rfl)
      · intro y07 h8
        apply sourceSeen_kept (hm.sub rfl)
        assumption
      · assumption
    · apply ResAll.ite
      · intro h5
        apply ResAll.next
        apply disqualify_kept (hm.sub rfl)
        refine Kept.isb_put (hm.sub rfl) ?_
        apply upd_kept (hm.sub rfl)
        · intro y010 h11
          apply sourceSeen_kept (hm.sub rfl)
          assumption
        · assumption
      · intro h5
        apply ResAll.ite
        · intro h7
          apply ResAll.next
          refine Kept.isb_put (hm.sub rfl) ?_
          apply upd_kept (hm.sub rfl)
          · intro y011 h12
            apply sourceSeen_kept (hm.sub rfl)
            assumption
          · assumption
        · intro h7
          apply ResAll.next
          apply Kept.ite
          · intro h10
            apply disqualify_kept (hm.sub rfl)
            refine Kept.isb_put (hm.sub rfl) ?_
            apply upd_kept (hm.sub rfl)
            · intro y014 h15
              apply sourceSeen_kept (hm.sub rfl)
              assumption
            · assumption
          · intro h10
            refine Kept.isb_put (hm.sub rfl) ?_
            apply upd_kept (hm.sub rfl)
            · intro y013 h14
              apply sourceSeen_kept (hm.sub rfl)
              assumption
            · assumption

theorem execPpsOutPulseEnd_kept (hm : Has m 0x28) (x0 : Fin 2) (s : State)
    (hs : Kept m s₀ s) :
    ResAll (Kept m s₀) (execPpsOutPulseEnd x0 s) := by
  unfold execPpsOutPulseEnd
  dsimp only
  apply ResAll.next
  apply Kept.ite
  · intro h3
    apply emit_kept (hm.sub rfl)
    refine Kept.isb_put (hm.sub rfl) ?_
    assumption
  · exact fun _ => by assumption

theorem execSlewEnd_kept (hm : Has m 0x20) (s : State)
    (hs : Kept m s₀ s) :
    ResAll (Kept m s₀) (execSlewEnd s) := by
  unfold execSlewEnd
  apply ResAll.next
  apply Kept.ite
  · intro h2
    apply stopSlew_kept (hm.sub rfl)
    assumption
  · exact fun _ => by assumption

end Sys2Proof.Machine
end

