-- ==== Sys2Proof/Laws/KeptLaunch.lean ====
section
/-! SUPPORT. Every effect of Machine/Launch.lean keeps what `Kept` says. -/
set_option Elab.async false
namespace Sys2Proof.Machine

variable {m : Nat} {s₀ : State}

theorem launchUpd_kept (hm : Has m 0x20) (x0 : ℕ) (x1 : Launch → Launch) (s : State)
    (hs : Kept m s₀ s) :
    Kept m s₀ (launchUpd x0 x1 s) := by
  unfold launchUpd
  refine Kept.isb_put (hm.sub rfl) ?_
  assumption

theorem carryLaunch_kept (hm : Has m 0x400068) (x0 : ℕ) (s : State)
    (hs : Kept m s₀ s) :
    Kept m s₀ (carryLaunch x0 s) := by
  unfold carryLaunch
  dsimp only
  apply Kept.ite
  · intro h2
    apply launchUpd_kept (hm.sub rfl)
    apply lanokSend_kept (hm.sub rfl)
    assumption
  · exact fun _ => by assumption

theorem armLaunch_kept (hm : Has m 0x400068) (x0 : ℕ) (x1 : LaunchRec) (x2 : Option ℕ) (x3 : List (ℕ × ℕ)) (x4 : Option ℕ) (s : State)
    (hs : Kept m s₀ s) :
    Kept m s₀ (armLaunch x0 x1 x2 x3 x4 s) := by
  unfold armLaunch
  dsimp only
  apply carryLaunch_kept (hm.sub rfl)
  apply launchUpd_kept (hm.sub rfl)
  assumption

theorem dropAssignClaim_kept (hm : Has m 0x4000080) (x0 : ℕ) (s : State)
    (hs : Kept m s₀ s) :
    Kept m s₀ (dropAssignClaim x0 s) := by
  unfold dropAssignClaim
  dsimp only
  apply Kept.ite
  · intro h2
    apply Kept.foldl
    · intro s4 b5 h6
      apply unclaim_kept (hm.sub rfl)
      assumption
    · assumption
  · exact fun _ => by assumption

theorem freeLaunchClaims_kept (hm : Has m 0x40000a0) (x0 : ℕ) (s : State)
    (hs : Kept m s₀ s) :
    Kept m s₀ (freeLaunchClaims x0 s) := by
  unfold freeLaunchClaims
  dsimp only
  apply launchUpd_kept (hm.sub rfl)
  apply Kept.foldl
  · intro s3 b4 h5
    apply unclaim_kept (hm.sub rfl)
    assumption
  · split
    · apply unclaim_kept (hm.sub rfl)
      apply Kept.ite
      · intro h6
        apply unclaimAll_kept (hm.sub rfl)
        assumption
      · exact fun _ => by assumption
    · apply Kept.ite
      · intro h5
        apply unclaimAll_kept (hm.sub rfl)
        assumption
      · exact fun _ => by assumption

theorem dropDevice_kept (hm : Has m 0x20) (x0 : ℕ) (s : State)
    (hs : Kept m s₀ s) :
    Kept m s₀ (dropDevice x0 s) := by
  unfold dropDevice
  apply Kept.ite
  · intro h1
    refine Kept.isb_put (hm.sub rfl) ?_
    assumption
  · exact fun _ => by assumption

theorem launchIrq_kept (hm : Has m 0x28) (x0 : ℕ) (s : State)
    (hs : Kept m s₀ s) :
    Kept m s₀ (launchIrq x0 s) := by
  unfold launchIrq
  apply Kept.ite
  · intro h1
    apply emit_kept (hm.sub rfl)
    refine Kept.isb_put (hm.sub rfl) ?_
    assumption
  · exact fun _ => by assumption

theorem launchFailed_kept (hm : Has m 0x40008aa) (x0 : ℕ) (x1 : Status) (s : State)
    (hs : Kept m s₀ s) :
    Kept m s₀ (launchFailed x0 x1 s) := by
  unfold launchFailed
  dsimp only
  apply dropDevice_kept (hm.sub rfl)
  apply launchIrq_kept (hm.sub rfl)
  apply launchUpd_kept (hm.sub rfl)
  apply freeLaunchClaims_kept (hm.sub rfl)
  apply dropAssignClaim_kept (hm.sub rfl)
  apply bump_kept (hm.sub rfl)
  apply Kept.ite
  · intro h8
    refine Kept.mix_put (hm.sub rfl) ?_
    assumption
  · exact fun _ => by assumption

theorem launchDone_kept (hm : Has m 0x40000aa) (x0 : ℕ) (x1 : Bool) (s : State)
    (hs : Kept m s₀ s) :
    Kept m s₀ (launchDone x0 x1 s) := by
  unfold launchDone
  dsimp only
  apply dropDevice_kept (hm.sub rfl)
  apply launchIrq_kept (hm.sub rfl)
  apply launchUpd_kept (hm.sub rfl)
  apply freeLaunchClaims_kept (hm.sub rfl)
  apply upd_kept (hm.sub rfl)
  · intro y06 h7
    apply bump_kept (hm.sub rfl)
    assumption
  · assumption

theorem fireHub_kept (hm : Has m 0x40008aa) (x0 : ℕ) (x1 : Launch → Bool) (x2 : ℕ → Launch → State → Except Status State) (s : State)
    (hf2 : ∀ y0 y1 y2, Kept m s₀ y2 → (ExAll (Kept m s₀)) (x2 y0 y1 y2)) (hs : Kept m s₀ s) :
    Kept m s₀ (fireHub x0 x1 x2 s) := by
  unfold fireHub
  split
  · assumption
  · apply Kept.ite
    · intro h2
      apply launchFailed_kept (hm.sub rfl)
      assumption
    · intro h2
      apply Kept.ite
      · exact fun _ => by assumption
      · intro h4
        split
        · apply launchFailed_kept (hm.sub rfl)
          assumption
        · apply launchDone_kept (hm.sub rfl)
          refine ExAll.elim (hf2 _ _ _ ?_) (by assumption)
          assumption

theorem claimTrunkSlots_kept (hm : Has m 0x4000080) (x0 : ℕ) (x1 : List ℕ) (s : State)
    (hs : Kept m s₀ s) :
    OptAll (SndAll (Kept m s₀)) (claimTrunkSlots x0 x1 s) := by
  unfold claimTrunkSlots
  split
  · apply OptAll.some
    apply SndAll.mk
    assumption
  · split
    · exact OptAll.none
    · apply OptAll.map
      intro x3 h4
      apply SndAll.mk
      apply Kept.snd
      refine OptAll.elim ?_ (by assumption)
      apply claimTrunkSlots_kept (hm.sub rfl)
      apply setClaim_kept (hm.sub rfl)
      assumption

theorem claimTrunkSlots_elim {x0 : ℕ} {x1 : List ℕ} {s : State} {v0} {t : State} (hm : Has m 0x4000080) (e : (claimTrunkSlots x0 x1 s) = (some (v0, t)))
    (hs : Kept m s₀ s) : Kept m s₀ t := by
  have hk := claimTrunkSlots_kept hm x0 x1 s hs
  rw [e] at hk
  exact (SndAll.elim (OptAll.elim hk rfl) rfl)

theorem armDevice_kept (hm : Has m 0x44000e8) (x0 : ℕ) (x1 : LaunchRec) (s : State)
    (hs : Kept m s₀ s) :
    OptAll (SndAll (Kept m s₀)) (armDevice x0 x1 s) := by
  unfold armDevice
  apply OptAll.map
  intro x1 h2
  dsimp only
  apply SndAll.mk
  apply armLaunch_kept (hm.sub rfl)
  refine Kept.isb_put (hm.sub rfl) ?_
  apply Kept.snd
  refine OptAll.elim ?_ (by assumption)
  apply claimTrunkSlots_kept (hm.sub rfl)
  assumption

theorem armDevice_elim {x0 : ℕ} {x1 : LaunchRec} {s : State} {v0} {t : State} (hm : Has m 0x44000e8) (e : (armDevice x0 x1 s) = (some (v0, t)))
    (hs : Kept m s₀ s) : Kept m s₀ t := by
  have hk := armDevice_kept hm x0 x1 s hs
  rw [e] at hk
  exact (SndAll.elim (OptAll.elim hk rfl) rfl)

theorem lxAction_kept (hm : Has m 0x2a) (x0 : Launch) (s : State)
    (hs : Kept m s₀ s) :
    Kept m s₀ (lxAction x0 s) := by
  unfold lxAction
  dsimp only
  apply Kept.ite
  · intro h2
    apply lxDrive_kept (hm.sub rfl)
    refine Kept.isb_put (hm.sub rfl) ?_
    assumption
  · intro h2
    apply Kept.ite
    · intro h4
      apply lxDrive_kept (hm.sub rfl)
      refine Kept.isb_put (hm.sub rfl) ?_
      assumption
    · intro h4
      apply Kept.ite
      · intro h6
        apply lxDrive_kept (hm.sub rfl)
        refine Kept.isb_put (hm.sub rfl) ?_
        assumption
      · intro h6
        refine Kept.isb_put (hm.sub rfl) ?_
        apply lxDrive_kept (hm.sub rfl)
        refine Kept.isb_put (hm.sub rfl) ?_
        assumption

theorem execLxEdge_kept (hm : Has m 0x40000aa) (s : State)
    (hs : Kept m s₀ s) :
    ResAll (Kept m s₀) (execLxEdge s) := by
  unfold execLxEdge
  split
  · apply ResAll.next
    assumption
  · dsimp only
    apply ResAll.ite
    · intro h3
      apply ResAll.next
      apply launchDone_kept (hm.sub rfl)
      apply lxAction_kept (hm.sub rfl)
      assumption
    · intro h3
      apply ResAll.next
      apply launchUpd_kept (hm.sub rfl)
      apply launchIrq_kept (hm.sub rfl)
      apply upd_kept (hm.sub rfl)
      · intro y08 h9
        apply bump_kept (hm.sub rfl)
        assumption
      · apply lxAction_kept (hm.sub rfl)
        assumption

theorem fireEmpty_kept (hm : Has m 0x40000aa) (x0 : ℕ) (x1 : Launch → Bool) (s : State)
    (hs : Kept m s₀ s) :
    Kept m s₀ (fireEmpty x0 x1 s) := by
  unfold fireEmpty
  split
  · assumption
  · apply launchDone_kept (hm.sub rfl)
    assumption

theorem lxEn_kept (hm : Has m 0x40008aa) (x0 : ℕ) (x1 : ℕ) (s : State)
    (hs : Kept m s₀ s) :
    Kept m s₀ (lxEn x0 x1 s) := by
  unfold lxEn
  dsimp only
  apply Kept.ite
  · intro h2
    apply Kept.ite
    · intro h4
      apply wr_kept (hm.sub rfl)
      assumption
    · intro h4
      apply lxDrive_kept (hm.sub rfl)
      apply setClaim_kept (hm.sub rfl)
      apply wr_kept (hm.sub rfl)
      assumption
  · intro h2
    apply Kept.foldl
    · intro s4 b5 h6
      apply launchFailed_kept (hm.sub rfl)
      assumption
    · apply wr_kept (hm.sub rfl)
      refine Kept.isb_put (hm.sub rfl) ?_
      apply unclaim_kept (hm.sub rfl)
      apply wr_kept (hm.sub rfl)
      assumption

theorem writeLxEn_kept (hm : Has m 0x64639fa) (x0 : Inst) (x1 : ℕ) (x2 : Fin 4) (x3 : Bool) (s : State)
    (hs : Kept m s₀ s) :
    Kept m s₀ (writeLxEn x0 x1 x2 x3 s) := by
  unfold writeLxEn
  apply runWrite_kept (hm.sub rfl)
  · intro y01 h2
    apply lxEn_kept (hm.sub rfl)
    assumption
  · assumption

theorem launchReport_kept (hm : Has m 0x40008aa) (x0 : ℕ) (x1 : ℕ) (x2 : ℕ) (x3 : ℕ) (x4 : ℕ) (s : State)
    (hs : Kept m s₀ s) :
    Kept m s₀ (launchReport x0 x1 x2 x3 x4 s) := by
  unfold launchReport
  dsimp only
  apply Kept.ite
  · exact fun _ => by assumption
  · intro h2
    apply Kept.ite
    · intro h4
      apply launchFailed_kept (hm.sub rfl)
      apply upd_kept (hm.sub rfl)
      · intro y07 h8
        apply bumpBy_kept (hm.sub rfl)
        assumption
      · assumption
    · intro h4
      apply Kept.ite
      · intro h6
        apply launchDone_kept (hm.sub rfl)
        apply launchUpd_kept (hm.sub rfl)
        apply upd_kept (hm.sub rfl)
        · intro y010 h11
          apply bumpBy_kept (hm.sub rfl)
          assumption
        · assumption
      · intro h6
        apply launchUpd_kept (hm.sub rfl)
        apply upd_kept (hm.sub rfl)
        · intro y09 h10
          apply bumpBy_kept (hm.sub rfl)
          assumption
        · assumption

end Sys2Proof.Machine
end

