-- ==== Sys2Proof/Laws/KeptNode.lean ====
section
/-! SUPPORT. Every effect of Machine/Node.lean keeps what `Kept` says. -/
set_option Elab.async false
namespace Sys2Proof.Machine

variable {m : Nat} {s₀ : State}

theorem nodeUpd_kept (hm : Has m 0x40) (x0 : ℕ) (x1 : Node → Node) (s : State)
    (hs : Kept m s₀ s) :
    Kept m s₀ (nodeUpd x0 x1 s) := by
  unfold nodeUpd
  refine Kept.fld_put (hm.sub rfl) ?_
  assumption

theorem epUpd_kept (hm : Has m 0x40) (x0 : ℕ) (x1 : ℕ) (x2 : Endpoint → Endpoint) (s : State)
    (hs : Kept m s₀ s) :
    Kept m s₀ (epUpd x0 x1 x2 s) := by
  unfold epUpd
  apply nodeUpd_kept (hm.sub rfl)
  assumption

theorem slotSet_kept (hm : Has m 0x42) (x0 : ℕ) (x1 : ℕ) (x2 : ℕ) (s : State)
    (hs : Kept m s₀ s) :
    Kept m s₀ (slotSet x0 x1 x2 s) := by
  unfold slotSet
  dsimp only
  apply wr_kept (hm.sub rfl)
  apply epUpd_kept (hm.sub rfl)
  split
  · apply wr_kept (hm.sub rfl)
    assumption
  · assumption

theorem dropFromNodes_kept (hm : Has m 0x40) (x0 : ℕ) (s : State)
    (hs : Kept m s₀ s) :
    Kept m s₀ (dropFromNodes x0 s) := by
  unfold dropFromNodes
  refine Kept.fld_put (hm.sub rfl) ?_
  assumption

theorem setHeld_kept (hm : Has m 0x40) (x0 : ℕ) (x1 : Option HeldLaunch) (s : State)
    (hs : Kept m s₀ s) :
    Kept m s₀ (setHeld x0 x1 s) := by
  unfold setHeld
  refine Kept.fld_put (hm.sub rfl) ?_
  assumption

theorem voteAtHub_kept (hm : Has m 0x40008ea) (x0 : ℕ) (x1 : Option Status) (x2 : State → State) (s : State)
    (hf2 : ∀ y0, Kept m s₀ y0 → (Kept m s₀) (x2 y0)) (hs : Kept m s₀ s) :
    SndAll (Kept m s₀) (voteAtHub x0 x1 x2 s) := by
  unfold voteAtHub
  dsimp only
  apply SndAll.ite
  · intro h2
    apply SndAll.mk
    assumption
  · intro h2
    split
    · apply SndAll.mk
      apply dropFromNodes_kept (hm.sub rfl)
      apply setHeld_kept (hm.sub rfl)
      apply launchFailed_kept (hm.sub rfl)
      assumption
    · apply SndAll.mk
      apply Kept.ite
      · intro h6
        apply launchDone_kept (hm.sub rfl)
        apply launchUpd_kept (hm.sub rfl)
        apply hf2
        assumption
      · intro h6
        apply launchUpd_kept (hm.sub rfl)
        apply hf2
        assumption

theorem voteAtHub_elim {x0 : ℕ} {x1 : Option Status} {x2 : State → State} {s : State} {v0} {t : State} (hm : Has m 0x40008ea) (e : (voteAtHub x0 x1 x2 s) = (v0, t))
    (hf2 : ∀ y0, Kept m s₀ y0 → (Kept m s₀) (x2 y0)) (hs : Kept m s₀ s) : Kept m s₀ t := by
  have hk := voteAtHub_kept hm x0 x1 x2 s hf2 hs
  rw [e] at hk
  exact (SndAll.elim hk rfl)

theorem voteUpd_kept (hm : Has m 0x40) (x0 : ℕ) (x1 : Vote → Vote) (s : State)
    (hs : Kept m s₀ s) :
    Kept m s₀ (voteUpd x0 x1 s) := by
  unfold voteUpd
  refine Kept.fld_put (hm.sub rfl) ?_
  assumption

theorem openSession_kept (hm : Has m 0x42) (x0 : ℕ) (x1 : ℕ) (s : State)
    (hs : Kept m s₀ s) :
    Kept m s₀ (openSession x0 x1 s) := by
  unfold openSession
  dsimp only
  refine Kept.fld_put (hm.sub rfl) ?_
  apply voteUpd_kept (hm.sub rfl)
  apply wr_kept (hm.sub rfl)
  apply wr_kept (hm.sub rfl)
  apply wr_kept (hm.sub rfl)
  apply wr_kept (hm.sub rfl)
  apply wr_kept (hm.sub rfl)
  apply Kept.foldl
  · intro s9 b10 h11
    apply wr_kept (hm.sub rfl)
    assumption
  · assumption

theorem report_kept (hm : Has m 0x400048) (x0 : ℕ) (x1 : ℕ) (x2 : ℕ) (x3 : ℕ) (x4 : ℕ) (s : State)
    (hs : Kept m s₀ s) :
    Kept m s₀ (report x0 x1 x2 x3 x4 s) := by
  unfold report
  apply Kept.ite
  · intro h1
    apply lanokSend_kept (hm.sub rfl)
    assumption
  · intro h1
    refine Kept.fld_put (hm.sub rfl) ?_
    assumption

theorem trunkReports_kept (hm : Has m 0x400048) (x0 : ℕ) (x1 : ℕ) (x2 : ℕ) (x3 : ℕ) (s : State)
    (hs : Kept m s₀ s) :
    Kept m s₀ (trunkReports x0 x1 x2 x3 s) := by
  unfold trunkReports
  dsimp only
  split
  · apply report_kept (hm.sub rfl)
    assumption
  · apply setHeld_kept (hm.sub rfl)
    apply report_kept (hm.sub rfl)
    assumption

theorem reportEmpty_kept (hm : Has m 0x400048) (x0 : ℕ) (s : State)
    (hs : Kept m s₀ s) :
    Kept m s₀ (reportEmpty x0 s) := by
  unfold reportEmpty
  split
  · assumption
  · apply Kept.foldl
    · intro s2 b3 h4
      apply trunkReports_kept (hm.sub rfl)
      assumption
    · assumption

theorem nodeRan_kept (hm : Has m 0x400048) (x0 : ℕ) (x1 : ℕ) (x2 : Bool) (s : State)
    (hs : Kept m s₀ s) :
    Kept m s₀ (nodeRan x0 x1 x2 s) := by
  unfold nodeRan
  dsimp only
  split
  · apply nodeUpd_kept (hm.sub rfl)
    assumption
  · apply Kept.ite
    · intro h3
      apply setHeld_kept (hm.sub rfl)
      apply nodeUpd_kept (hm.sub rfl)
      assumption
    · intro h3
      apply trunkReports_kept (hm.sub rfl)
      apply setHeld_kept (hm.sub rfl)
      apply nodeUpd_kept (hm.sub rfl)
      assumption

theorem runAtNodes_kept (hm : Has m 0x400048) (x0 : ℕ) (x1 : ℕ → State → State) (s : State)
    (hf1 : ∀ y0 y1, Kept m s₀ y1 → (Kept m s₀) (x1 y0 y1)) (hs : Kept m s₀ s) :
    Kept m s₀ (runAtNodes x0 x1 s) := by
  unfold runAtNodes
  split
  · assumption
  · apply reportEmpty_kept (hm.sub rfl)
    apply Kept.foldl
    · intro s3 b4 h5
      apply Kept.ite
      · intro h7
        apply nodeRan_kept (hm.sub rfl)
        apply hf1
        assumption
      · intro h7
        apply nodeRan_kept (hm.sub rfl)
        assumption
    · assumption

theorem nodeOpens_kept (hm : Has m 0x40) (x0 : ℕ) (x1 : ℕ) (x2 : ℕ) (s : State)
    (hs : Kept m s₀ s) :
    Kept m s₀ (nodeOpens x0 x1 x2 s) := by
  unfold nodeOpens
  apply Kept.ite
  · exact fun _ => by assumption
  · intro h1
    apply nodeUpd_kept (hm.sub rfl)
    assumption

theorem execVoteOpen_kept (hm : Has m 0x44008ea) (s : State)
    (hs : Kept m s₀ s) :
    ResAll (Kept m s₀) (execVoteOpen s) := by
  unfold execVoteOpen
  apply ResAll.ite
  · intro h1
    apply ResAll.next
    assumption
  · intro h1
    split
    · apply ResAll.next
      assumption
    · dsimp only
      split
      · apply ResAll.next
        apply voteAtHub_elim (hm.sub rfl) (by assumption)
        · intro y07 h8
          apply openSession_kept (hm.sub rfl)
          assumption
        · assumption
      · apply ResAll.next
        apply runAtNodes_kept (hm.sub rfl)
        · intro y07 y18 h9
          apply nodeOpens_kept (hm.sub rfl)
          assumption
        · apply voteAtHub_elim (hm.sub rfl) (by assumption)
          · intro y08 h9
            apply openSession_kept (hm.sub rfl)
            assumption
          · assumption

theorem trunkUpd_kept (hm : Has m 0x40) (x0 : ℕ) (x1 : Trunk → Trunk) (s : State)
    (hs : Kept m s₀ s) :
    Kept m s₀ (trunkUpd x0 x1 s) := by
  unfold trunkUpd
  refine Kept.fld_put (hm.sub rfl) ?_
  assumption

theorem cancelHeld_kept (hm : Has m 0x40) (x0 : ℕ) (s : State)
    (hs : Kept m s₀ s) :
    Kept m s₀ (cancelHeld x0 s) := by
  unfold cancelHeld
  dsimp only
  apply Kept.foldl
  · intro s2 b3 h4
    apply trunkUpd_kept (hm.sub rfl)
    assumption
  · apply setHeld_kept (hm.sub rfl)
    assumption

theorem execVoteSeal_kept (hm : Has m 0x244010a) (x0 : Fin 16) (s : State)
    (hs : Kept m s₀ s) :
    ResAll (Kept m s₀) (execVoteSeal x0 s) := by
  unfold execVoteSeal
  dsimp only
  apply ResAll.ite
  · intro h2
    apply ResAll.next
    assumption
  · intro h2
    apply ResAll.next
    apply presentWork_kept (hm.sub rfl)
    assumption

theorem hdUpd_kept (hm : Has m 0x40) (x0 : HallDefault → HallDefault) (s : State)
    (hs : Kept m s₀ s) :
    Kept m s₀ (hdUpd x0 s) := by
  unfold hdUpd
  refine Kept.fld_put (hm.sub rfl) ?_
  assumption

theorem hdGainFollow_kept (hm : Has m 0x40) (s : State)
    (hs : Kept m s₀ s) :
    Kept m s₀ (hdGainFollow s) := by
  unfold hdGainFollow
  dsimp only
  apply Kept.ite
  · exact fun _ => by assumption
  · intro h2
    apply hdUpd_kept (hm.sub rfl)
    assumption

theorem lightKey_kept (hm : Has m 0x40) (x0 : ℕ) (x1 : ℕ) (s : State)
    (hs : Kept m s₀ s) :
    Kept m s₀ (lightKey x0 x1 s) := by
  unfold lightKey
  split
  · apply Kept.ite
    · intro h2
      apply nodeUpd_kept (hm.sub rfl)
      assumption
    · exact fun _ => by assumption
  · assumption

theorem micsFollow_kept (hm : Has m 0x40) (x0 : ℕ) (x1 : ℕ) (x2 : Bool) (s : State)
    (hs : Kept m s₀ s) :
    Kept m s₀ (micsFollow x0 x1 x2 s) := by
  unfold micsFollow
  dsimp only
  apply Kept.ite
  · exact fun _ => by assumption
  · intro h2
    apply hdGainFollow_kept (hm.sub rfl)
    apply hdUpd_kept (hm.sub rfl)
    assumption

theorem attenFollow_kept (hm : Has m 0x40) (x0 : ℕ) (x1 : Bool) (s : State)
    (hs : Kept m s₀ s) :
    Kept m s₀ (attenFollow x0 x1 s) := by
  unfold attenFollow
  dsimp only
  apply Kept.ite
  · exact fun _ => by assumption
  · intro h2
    apply nodeUpd_kept (hm.sub rfl)
    refine Kept.fld_put (hm.sub rfl) ?_
    assumption

theorem epSetOpen_kept (hm : Has m 0x40) (x0 : ℕ) (x1 : ℕ) (x2 : Bool) (s : State)
    (hs : Kept m s₀ s) :
    Kept m s₀ (epSetOpen x0 x1 x2 s) := by
  unfold epSetOpen
  dsimp only
  apply micsFollow_kept (hm.sub rfl)
  apply attenFollow_kept (hm.sub rfl)
  apply epUpd_kept (hm.sub rfl)
  assumption

theorem sealVote_kept (hm : Has m 0x1000006) (x0 : ℕ) (s : State)
    (hs : Kept m s₀ s) :
    Kept m s₀ (sealVote x0 s) := by
  unfold sealVote
  dsimp only
  apply Kept.ite
  · intro h2
    apply wr_kept (hm.sub rfl)
    apply wr_kept (hm.sub rfl)
    apply wr_kept (hm.sub rfl)
    assumption
  · intro h2
    split
    · apply wrBlob_kept (hm.sub rfl)
      apply sealNow_elim (hm.sub rfl) (by assumption)
      apply wrBlob_kept (hm.sub rfl)
      apply wr_kept (hm.sub rfl)
      apply wr_kept (hm.sub rfl)
      apply wr_kept (hm.sub rfl)
      assumption
    · apply storm_kept (hm.sub rfl)
      apply wrBlob_kept (hm.sub rfl)
      apply sealNow_elim (hm.sub rfl) (by assumption)
      apply wrBlob_kept (hm.sub rfl)
      apply wr_kept (hm.sub rfl)
      apply wr_kept (hm.sub rfl)
      apply wr_kept (hm.sub rfl)
      assumption

theorem slotClear_kept (hm : Has m 0x42) (x0 : ℕ) (x1 : ℕ) (s : State)
    (hs : Kept m s₀ s) :
    Kept m s₀ (slotClear x0 x1 s) := by
  unfold slotClear
  split
  · assumption
  · dsimp only
    apply trunkUpd_kept (hm.sub rfl)
    apply wr_kept (hm.sub rfl)
    apply epUpd_kept (hm.sub rfl)
    assumption

theorem holdLaunch_kept (hm : Has m 0x40) (x0 : ℕ) (x1 : LaunchRec) (s : State)
    (hs : Kept m s₀ s) :
    Kept m s₀ (holdLaunch x0 x1 s) := by
  unfold holdLaunch
  dsimp only
  apply setHeld_kept (hm.sub rfl)
  assumption

theorem execLaunchCmd_kept (hm : Has m 0x400048) (x0 : LHdr) (x1 : ℕ) (x2 : Option LaunchRec) (s : State)
    (hs : Kept m s₀ s) :
    ResAll (Kept m s₀) (execLaunchCmd x0 x1 x2 s) := by
  unfold execLaunchCmd
  apply onLanok_kept (hm.sub rfl)
  · intro y01 h2
    split
    · apply holdLaunch_kept (hm.sub rfl)
      assumption
    · apply cancelHeld_kept (hm.sub rfl)
      assumption
  · assumption

theorem countVote_kept (hm : Has m 0x42) (x0 : ℕ) (x1 : ℕ) (s : State)
    (hs : Kept m s₀ s) :
    Kept m s₀ (countVote x0 x1 s) := by
  unfold countVote
  split
  · apply bump_kept (hm.sub rfl)
    assumption
  · dsimp only
    apply Kept.ite
    · intro h3
      apply bump_kept (hm.sub rfl)
      assumption
    · intro h3
      apply Kept.ite
      · exact fun _ => by assumption
      · intro h5
        apply bump_kept (hm.sub rfl)
        apply voteUpd_kept (hm.sub rfl)
        apply upd_kept (hm.sub rfl)
        · intro y09 h10
          apply wr_kept (hm.sub rfl)
          assumption
        · assumption

theorem hdForget_kept (hm : Has m 0x40) (x0 : ℕ) (s : State)
    (hs : Kept m s₀ s) :
    Kept m s₀ (hdForget x0 s) := by
  unfold hdForget
  dsimp only
  apply hdGainFollow_kept (hm.sub rfl)
  apply hdUpd_kept (hm.sub rfl)
  assumption

theorem nodeSlotsFree_kept (hm : Has m 0x40000c2) (x0 : ℕ) (s : State)
    (hs : Kept m s₀ s) :
    Kept m s₀ (nodeSlotsFree x0 s) := by
  unfold nodeSlotsFree
  dsimp only
  apply hdForget_kept (hm.sub rfl)
  refine Kept.fld_put (hm.sub rfl) ?_
  apply Kept.foldl
  · intro s4 b5 h6
    split
    · apply slotClear_kept (hm.sub rfl)
      apply upd_kept (hm.sub rfl)
      · intro y010 h11
        apply setClaim_kept (hm.sub rfl)
        assumption
      · assumption
    · assumption
  · assumption

theorem nodeUpset_kept (hm : Has m 0x52000c2) (x0 : ℕ) (s : State)
    (hs : Kept m s₀ s) :
    Kept m s₀ (nodeUpset x0 s) := by
  unfold nodeUpset
  split
  · apply upset_elim (hm.sub rfl) (by assumption)
    apply bump_kept (hm.sub rfl)
    assumption
  · apply wr_kept (hm.sub rfl)
    apply nodeSlotsFree_kept (hm.sub rfl)
    apply upset_elim (hm.sub rfl) (by assumption)
    apply bump_kept (hm.sub rfl)
    assumption

theorem nodeSample_kept (hm : Has m 0x48) (x0 : ℕ) (x1 : List (ℕ × ℕ × ℤ)) (s : State) (x3 : ℕ)
    (hs : Kept m s₀ s) :
    Kept m s₀ (nodeSample x0 x1 s x3) := by
  unfold nodeSample
  dsimp only
  apply nodeUpd_kept (hm.sub rfl)
  apply Kept.foldl
  · intro s3 b4 h5
    apply Kept.ite
    · intro h7
      apply emit_kept (hm.sub rfl)
      apply epUpd_kept (hm.sub rfl)
      assumption
    · intro h7
      apply Kept.ite
      · intro h9
        apply epUpd_kept (hm.sub rfl)
        assumption
      · exact fun _ => by assumption
  · assumption

theorem releaseClaim_kept (hm : Has m 0x4000080) (x0 : ℕ) (x1 : ℕ) (x2 : ℕ) (s : State)
    (hs : Kept m s₀ s) :
    Kept m s₀ (releaseClaim x0 x1 x2 s) := by
  unfold releaseClaim
  split
  · assumption
  · dsimp only
    apply Kept.ite
    · intro h3
      apply setClaim_kept (hm.sub rfl)
      assumption
    · exact fun _ => by assumption

theorem nodeAction_kept (hm : Has m 0x40000c2) (x0 : ℕ) (x1 : ℕ) (x2 : ℕ) (s : State)
    (hs : Kept m s₀ s) :
    ExAll (Kept m s₀) (nodeAction x0 x1 x2 s) := by
  unfold nodeAction
  dsimp only
  apply ExAll.ite
  · intro h2
    exact ExAll.error
  · intro h2
    apply ExAll.ite
    · intro h4
      apply ExAll.ok
      apply epSetOpen_kept (hm.sub rfl)
      assumption
    · intro h4
      apply ExAll.ite
      · intro h6
        apply ExAll.ok
        apply epSetOpen_kept (hm.sub rfl)
        assumption
      · intro h6
        apply ExAll.ite
        · intro h8
          apply ExAll.ok
          apply epUpd_kept (hm.sub rfl)
          assumption
        · intro h8
          apply ExAll.ite
          · intro h10
            apply ExAll.ite
            · intro h12
              exact ExAll.error
            · intro h12
              apply ExAll.ok
              apply slotSet_kept (hm.sub rfl)
              assumption
          · intro h10
            apply ExAll.ite
            · intro h12
              apply ExAll.ok
              apply slotClear_kept (hm.sub rfl)
              apply releaseClaim_kept (hm.sub rfl)
              assumption
            · intro h12
              apply ExAll.ite
              · intro h14
                apply ExAll.ok
                apply epUpd_kept (hm.sub rfl)
                assumption
              · intro h14
                apply ExAll.ok
                apply epUpd_kept (hm.sub rfl)
                assumption

theorem nodeAction_elim {x0 : ℕ} {x1 : ℕ} {x2 : ℕ} {s : State}  {t : State} (hm : Has m 0x40000c2) (e : (nodeAction x0 x1 x2 s) = (.ok t))
    (hs : Kept m s₀ s) : Kept m s₀ t := by
  have hk := nodeAction_kept hm x0 x1 x2 s hs
  rw [e] at hk
  exact (ExAll.elim hk rfl)

theorem heldFailed_kept (hm : Has m 0x400048) (x0 : ℕ) (x1 : ℕ) (x2 : Status) (s : State)
    (hs : Kept m s₀ s) :
    Kept m s₀ (heldFailed x0 x1 x2 s) := by
  unfold heldFailed
  apply report_kept (hm.sub rfl)
  apply dropFromNodes_kept (hm.sub rfl)
  apply setHeld_kept (hm.sub rfl)
  assumption

theorem runNodeAction_kept (hm : Has m 0x44000ca) (x0 : ℕ) (x1 : ℕ) (s : State)
    (hs : Kept m s₀ s) :
    Kept m s₀ (runNodeAction x0 x1 s) := by
  unfold runNodeAction
  split
  · assumption
  · apply Kept.ite
    · intro h2
      split
      · apply heldFailed_kept (hm.sub rfl)
        assumption
      · apply nodeRan_kept (hm.sub rfl)
        apply nodeAction_elim (hm.sub rfl) (by assumption)
        assumption
    · intro h2
      apply Kept.ite
      · intro h4
        apply nodeRan_kept (hm.sub rfl)
        assumption
      · intro h4
        apply heldFailed_kept (hm.sub rfl)
        assumption

theorem emptyActions_kept (hm : Has m 0x44000ea) (x0 : ℕ) (s : State)
    (hs : Kept m s₀ s) :
    Kept m s₀ (emptyActions x0 s) := by
  unfold emptyActions
  dsimp only
  apply fireEmpty_kept (hm.sub rfl)
  split
  · apply reportEmpty_kept (hm.sub rfl)
    assumption
  · assumption

theorem execVoteClose_kept (hm : Has m 0x44008ea) (s : State)
    (hs : Kept m s₀ s) :
    ResAll (Kept m s₀) (execVoteClose s) := by
  unfold execVoteClose
  apply ResAll.ite
  · intro h1
    apply ResAll.next
    assumption
  · intro h1
    split
    · apply ResAll.next
      assumption
    · dsimp only
      split
      · apply ResAll.next
        apply voteAtHub_elim (hm.sub rfl) (by assumption)
        · intro y07 h8
          apply wr_kept (hm.sub rfl)
          apply voteUpd_kept (hm.sub rfl)
          assumption
        · assumption
      · apply ResAll.next
        apply runAtNodes_kept (hm.sub rfl)
        · intro y07 y18 h9
          apply nodeUpd_kept (hm.sub rfl)
          assumption
        · apply voteAtHub_elim (hm.sub rfl) (by assumption)
          · intro y08 h9
            apply wr_kept (hm.sub rfl)
            apply voteUpd_kept (hm.sub rfl)
            assumption
          · assumption

theorem execButtonPress_kept (hm : Has m 0x40) (x0 : ℕ) (x1 : Fin 16) (s : State)
    (hs : Kept m s₀ s) :
    ResAll (Kept m s₀) (execButtonPress x0 x1 s) := by
  unfold execButtonPress
  dsimp only
  apply ResAll.ite
  · intro h2
    apply ResAll.next
    assumption
  · intro h2
    apply ResAll.ite
    · intro h4
      apply ResAll.next
      apply nodeUpd_kept (hm.sub rfl)
      assumption
    · intro h4
      apply ResAll.next
      apply lightKey_kept (hm.sub rfl)
      apply nodeUpd_kept (hm.sub rfl)
      assumption

end Sys2Proof.Machine
end

