-- ==== Sys2Proof/Laws/KeptHallDefault.lean ====
section
/-! SUPPORT. Every effect of Machine/HallDefault.lean keeps what `Kept` says. -/
set_option Elab.async false
namespace Sys2Proof.Machine

variable {m : Nat} {s₀ : State}

theorem hdOpen_kept (hm : Has m 0x42) (x0 : ℕ) (s : State)
    (hs : Kept m s₀ s) :
    Kept m s₀ (hdOpen x0 s) := by
  unfold hdOpen
  split
  · assumption
  · split
    · assumption
    · dsimp only
      apply epSetOpen_kept (hm.sub rfl)
      apply Kept.ite
      · intro h5
        apply hdUpd_kept (hm.sub rfl)
        assumption
      · intro h5
        apply slotSet_kept (hm.sub rfl)
        apply hdUpd_kept (hm.sub rfl)
        assumption

theorem hdAdmit_kept (hm : Has m 0x42) (x0 : List ℕ) (s : State)
    (hs : Kept m s₀ s) :
    Kept m s₀ (hdAdmit x0 s) := by
  unfold hdAdmit
  split
  · assumption
  · apply hdAdmit_kept (hm.sub rfl)
    apply Kept.ite
    · intro h3
      apply hdOpen_kept (hm.sub rfl)
      assumption
    · exact fun _ => by assumption

theorem hdWaiting_kept (hm : Has m 0x42) (s : State)
    (hs : Kept m s₀ s) :
    Kept m s₀ (hdWaiting s) := by
  unfold hdWaiting
  dsimp only
  apply Kept.ite
  · intro h2
    apply hdAdmit_kept (hm.sub rfl)
    apply hdAdmit_kept (hm.sub rfl)
    assumption
  · intro h2
    apply hdAdmit_kept (hm.sub rfl)
    assumption

theorem hdFreed_kept (hm : Has m 0x42) (s : State)
    (hs : Kept m s₀ s) :
    Kept m s₀ (hdFreed s) := by
  unfold hdFreed
  apply Kept.ite
  · intro h1
    apply hdWaiting_kept (hm.sub rfl)
    assumption
  · exact fun _ => by assumption

theorem nodeMissed_kept (hm : Has m 0x52000c2) (x0 : ℕ) (s : State)
    (hs : Kept m s₀ s) :
    Kept m s₀ (nodeMissed x0 s) := by
  unfold nodeMissed
  apply hdFreed_kept (hm.sub rfl)
  apply nodeUpset_kept (hm.sub rfl)
  assumption

theorem execNodeActionGain_kept (hm : Has m 0x44000ea) (x0 : ℕ) (s : State)
    (hs : Kept m s₀ s) :
    ResAll (Kept m s₀) (execNodeActionGain x0 s) := by
  unfold execNodeActionGain
  apply ResAll.next
  apply emptyActions_kept (hm.sub rfl)
  apply runNodeAction_kept (hm.sub rfl)
  assumption

theorem execNodeActionOff_kept (hm : Has m 0x44000ea) (x0 : ℕ) (s : State)
    (hs : Kept m s₀ s) :
    ResAll (Kept m s₀) (execNodeActionOff x0 s) := by
  unfold execNodeActionOff
  apply ResAll.next
  apply hdFreed_kept (hm.sub rfl)
  apply emptyActions_kept (hm.sub rfl)
  apply runNodeAction_kept (hm.sub rfl)
  assumption

theorem hdCloseEnd_kept (hm : Has m 0x42) (x0 : ℕ) (s : State)
    (hs : Kept m s₀ s) :
    Kept m s₀ (hdCloseEnd x0 s) := by
  unfold hdCloseEnd
  dsimp only
  apply Kept.ite
  · exact fun _ => by assumption
  · intro h2
    apply hdFreed_kept (hm.sub rfl)
    apply Kept.foldl
    · intro s5 b6 h7
      apply slotClear_kept (hm.sub rfl)
      apply hdUpd_kept (hm.sub rfl)
      assumption
    · assumption

theorem execHdMicCloseEnd_kept (hm : Has m 0x42) (x0 : ℕ) (s : State)
    (hs : Kept m s₀ s) :
    ResAll (Kept m s₀) (execHdMicCloseEnd x0 s) := by
  unfold execHdMicCloseEnd
  apply ResAll.next
  apply hdCloseEnd_kept (hm.sub rfl)
  assumption

theorem execNodeActionLed_kept (hm : Has m 0x44000ea) (x0 : ℕ) (s : State)
    (hs : Kept m s₀ s) :
    ResAll (Kept m s₀) (execNodeActionLed x0 s) := by
  unfold execNodeActionLed
  apply ResAll.next
  apply emptyActions_kept (hm.sub rfl)
  apply runNodeAction_kept (hm.sub rfl)
  assumption

theorem hdMute_kept (hm : Has m 0x40) (x0 : Bool) (x1 : ℕ) (s : State)
    (hs : Kept m s₀ s) :
    Kept m s₀ (hdMute x0 x1 s) := by
  unfold hdMute
  apply nodeUpd_kept (hm.sub rfl)
  assumption

theorem hdMuteDelegates_kept (hm : Has m 0x40) (x0 : Bool) (s : State)
    (hs : Kept m s₀ s) :
    Kept m s₀ (hdMuteDelegates x0 s) := by
  unfold hdMuteDelegates
  apply Kept.foldl
  · intro s1 b2 h3
    apply nodeUpd_kept (hm.sub rfl)
    assumption
  · assumption

theorem hdHandBack_kept (hm : Has m 0x40) (s : State)
    (hs : Kept m s₀ s) :
    Kept m s₀ (hdHandBack s) := by
  unfold hdHandBack
  apply Kept.ite
  · exact fun _ => by assumption
  · intro h1
    apply hdMuteDelegates_kept (hm.sub rfl)
    apply hdUpd_kept (hm.sub rfl)
    assumption

theorem hdClose_kept (hm : Has m 0x40) (x0 : ℕ) (s : State)
    (hs : Kept m s₀ s) :
    Kept m s₀ (hdClose x0 s) := by
  unfold hdClose
  apply Kept.foldl
  · intro s1 b2 h3
    apply hdUpd_kept (hm.sub rfl)
    apply epSetOpen_kept (hm.sub rfl)
    assumption
  · assumption

theorem hdRequest_kept (hm : Has m 0x42) (x0 : ℕ) (s : State)
    (hs : Kept m s₀ s) :
    Kept m s₀ (hdRequest x0 s) := by
  unfold hdRequest
  apply Kept.ite
  · exact fun _ => by assumption
  · intro h1
    apply Kept.ite
    · intro h3
      apply hdOpen_kept (hm.sub rfl)
      assumption
    · intro h3
      apply Kept.ite
      · intro h5
        dsimp only
        split
        · apply hdWaiting_kept (hm.sub rfl)
          apply hdClose_kept (hm.sub rfl)
          apply hdUpd_kept (hm.sub rfl)
          assumption
        · apply hdUpd_kept (hm.sub rfl)
          assumption
      · intro h5
        apply Kept.ite
        · exact fun _ => by assumption
        · intro h7
          apply Kept.ite
          · intro h9
            apply hdUpd_kept (hm.sub rfl)
            assumption
          · exact fun _ => by assumption

theorem hdPriorityOff_kept (hm : Has m 0x42) (x0 : ℕ) (s : State)
    (hs : Kept m s₀ s) :
    Kept m s₀ (hdPriorityOff x0 s) := by
  unfold hdPriorityOff
  dsimp only
  apply Kept.ite
  · exact fun _ => by assumption
  · intro h2
    apply Kept.ite
    · intro h4
      apply Kept.ite
      · intro h6
        apply hdWaiting_kept (hm.sub rfl)
        apply hdMuteDelegates_kept (hm.sub rfl)
        apply Kept.ite
        · intro h10
          apply hdClose_kept (hm.sub rfl)
          apply hdUpd_kept (hm.sub rfl)
          assumption
        · intro h10
          apply hdUpd_kept (hm.sub rfl)
          assumption
      · intro h6
        apply hdWaiting_kept (hm.sub rfl)
        apply hdMuteDelegates_kept (hm.sub rfl)
        apply Kept.foldl
        · intro s10 b11 h12
          apply hdClose_kept (hm.sub rfl)
          assumption
        · apply Kept.ite
          · intro h11
            apply hdClose_kept (hm.sub rfl)
            apply hdUpd_kept (hm.sub rfl)
            assumption
          · intro h11
            apply hdUpd_kept (hm.sub rfl)
            assumption
    · intro h4
      apply hdWaiting_kept (hm.sub rfl)
      apply Kept.ite
      · intro h7
        apply hdClose_kept (hm.sub rfl)
        apply hdUpd_kept (hm.sub rfl)
        assumption
      · intro h7
        apply hdUpd_kept (hm.sub rfl)
        assumption

theorem execSelectChannel_kept (hm : Has m 0x44000ea) (x0 : ℕ) (s : State)
    (hs : Kept m s₀ s) :
    ResAll (Kept m s₀) (execSelectChannel x0 s) := by
  unfold execSelectChannel
  apply ResAll.next
  apply emptyActions_kept (hm.sub rfl)
  apply runNodeAction_kept (hm.sub rfl)
  assumption

theorem hdReqSpeak_kept (hm : Has m 0x42) (x0 : ℕ) (s : State)
    (hs : Kept m s₀ s) :
    Kept m s₀ (hdReqSpeak x0 s) := by
  unfold hdReqSpeak
  apply Kept.ite
  · exact fun _ => by assumption
  · intro h1
    apply hdRequest_kept (hm.sub rfl)
    assumption

theorem execSlotRelease_kept (hm : Has m 0x44000ea) (x0 : ℕ) (s : State)
    (hs : Kept m s₀ s) :
    ResAll (Kept m s₀) (execSlotRelease x0 s) := by
  unfold execSlotRelease
  apply ResAll.next
  apply hdFreed_kept (hm.sub rfl)
  apply emptyActions_kept (hm.sub rfl)
  apply runNodeAction_kept (hm.sub rfl)
  assumption

theorem hdReqCancel_kept (hm : Has m 0x42) (x0 : ℕ) (s : State)
    (hs : Kept m s₀ s) :
    Kept m s₀ (hdReqCancel x0 s) := by
  unfold hdReqCancel
  dsimp only
  apply Kept.ite
  · intro h2
    apply hdWaiting_kept (hm.sub rfl)
    apply hdClose_kept (hm.sub rfl)
    apply hdUpd_kept (hm.sub rfl)
    assumption
  · intro h2
    apply hdUpd_kept (hm.sub rfl)
    assumption

theorem execNodeActionOn_kept (hm : Has m 0x44000ea) (x0 : ℕ) (s : State)
    (hs : Kept m s₀ s) :
    ResAll (Kept m s₀) (execNodeActionOn x0 s) := by
  unfold execNodeActionOn
  apply ResAll.next
  apply emptyActions_kept (hm.sub rfl)
  apply runNodeAction_kept (hm.sub rfl)
  assumption

theorem hdPriorityOn_kept (hm : Has m 0x42) (x0 : ℕ) (s : State)
    (hs : Kept m s₀ s) :
    Kept m s₀ (hdPriorityOn x0 s) := by
  unfold hdPriorityOn
  apply Kept.ite
  · exact fun _ => by assumption
  · intro h1
    dsimp only
    apply Kept.ite
    · intro h4
      apply hdMuteDelegates_kept (hm.sub rfl)
      apply hdUpd_kept (hm.sub rfl)
      assumption
    · intro h4
      apply hdRequest_kept (hm.sub rfl)
      apply hdMuteDelegates_kept (hm.sub rfl)
      apply hdUpd_kept (hm.sub rfl)
      assumption

theorem fgpioFollow_kept (hm : Has m 0x2) (x0 : ℕ) (x1 : Bool) (s : State)
    (hs : Kept m s₀ s) :
    Kept m s₀ (fgpioFollow x0 x1 s) := by
  unfold fgpioFollow
  apply Kept.foldl
  · intro s1 b2 h3
    apply Kept.ite
    · intro h5
      dsimp only
      apply wr_kept (hm.sub rfl)
      assumption
    · exact fun _ => by assumption
  · assumption

theorem prioSeen_kept (hm : Has m 0x42) (x0 : ℕ) (x1 : ℕ) (s : State)
    (hs : Kept m s₀ s) :
    Kept m s₀ (prioSeen x0 x1 s) := by
  unfold prioSeen
  apply Kept.ite
  · intro h1
    apply fgpioFollow_kept (hm.sub rfl)
    refine Kept.fld_put (hm.sub rfl) ?_
    assumption
  · intro h1
    apply Kept.ite
    · intro h3
      dsimp only
      apply fgpioFollow_kept (hm.sub rfl)
      refine Kept.fld_put (hm.sub rfl) ?_
      assumption
    · exact fun _ => by assumption

theorem hdMuteNew_kept (hm : Has m 0x40) (x0 : ℕ) (s : State)
    (hs : Kept m s₀ s) :
    Kept m s₀ (hdMuteNew x0 s) := by
  unfold hdMuteNew
  apply Kept.ite
  · exact fun _ => by assumption
  · intro h1
    apply hdMute_kept (hm.sub rfl)
    assumption

theorem hdAdopt_kept (hm : Has m 0x42) (s : State)
    (hs : Kept m s₀ s) :
    Kept m s₀ (hdAdopt s) := by
  unfold hdAdopt
  apply Kept.foldl
  · intro s1 b2 h3
    apply hdPriorityOn_kept (hm.sub rfl)
    assumption
  · apply hdUpd_kept (hm.sub rfl)
    assumption

theorem emergencyClose_kept (hm : Has m 0x40) (s : State)
    (hs : Kept m s₀ s) :
    Kept m s₀ (emergencyClose s) := by
  unfold emergencyClose
  apply Kept.ite
  · exact fun _ => by assumption
  · intro h1
    dsimp only
    apply Kept.ite
    · intro h4
      apply hdUpd_kept (hm.sub rfl)
      apply Kept.foldl
      · intro s7 b8 h9
        apply Kept.foldl
        · intro s11 b12 h13
          apply epSetOpen_kept (hm.sub rfl)
          assumption
        · assumption
      · assumption
    · intro h4
      apply Kept.foldl
      · intro s6 b7 h8
        apply Kept.foldl
        · intro s10 b11 h12
          apply epSetOpen_kept (hm.sub rfl)
          assumption
        · assumption
      · assumption

theorem execSlotAssign_kept (hm : Has m 0x44000ea) (x0 : ℕ) (s : State)
    (hs : Kept m s₀ s) :
    ResAll (Kept m s₀) (execSlotAssign x0 s) := by
  unfold execSlotAssign
  apply ResAll.next
  apply emptyActions_kept (hm.sub rfl)
  apply runNodeAction_kept (hm.sub rfl)
  assumption

end Sys2Proof.Machine
end

