-- ==== Sys2Proof/Laws/KeptField.lean ====
section
/-! SUPPORT. Every effect of Machine/Field.lean keeps what `Kept` says. -/
set_option Elab.async false
namespace Sys2Proof.Machine

variable {m : Nat} {s₀ : State}

theorem setFieldState_kept (hm : Has m 0x2) (x0 : ℕ) (s : State)
    (hs : Kept m s₀ s) :
    Kept m s₀ (setFieldState x0 s) := by
  unfold setFieldState
  apply fgpioFollow_kept (hm.sub rfl)
  apply fgpioFollow_kept (hm.sub rfl)
  apply wr_kept (hm.sub rfl)
  assumption

/-- The regs filtered by a test. -/
theorem regsFilter_kept (hm : Has m 0x2) (p : Nat × Nat → Bool) (s : State) (hs : Kept m s₀ s) : Kept m s₀ { s with regs := s.regs.filter p } :=
  hs.trans { Kept.refl (m := m) s with
      regs := regsWf_filter s.regs p
      parts := SameBut.grow (v := 0x2)
        (by intro p hp; cases p <;> first | exact absurd hp (by dsimp only [StatePart.idx]; decide) | rfl | exact ⟨rfl, rfl, rfl⟩) (hm.sub rfl) }

theorem fieldClear_kept (hm : Has m 0x20006a) (s : State) (hs : Kept m s₀ s) : Kept m s₀ (fieldClear s) := by
  unfold fieldClear
  dsimp only
  apply setFieldState_kept (hm.sub rfl)
  apply wr_kept (hm.sub rfl)
  refine Kept.fld_put (hm.sub rfl) (regsFilter_kept (hm.sub rfl) (fun e => !fieldHeld e.1) _ (lanokDown_kept (hm.sub rfl) _ (clearChannels_kept (hm.sub rfl) (fun t => decide (5 ≤ t ∧ t ≤ 7)) _ hs)))


theorem pushCtrl_kept (hm : Has m 0x40) (x0 : ℕ) (x1 : Ctrl) (s : State)
    (hs : Kept m s₀ s) :
    Kept m s₀ (pushCtrl x0 x1 s) := by
  unfold pushCtrl
  apply trunkUpd_kept (hm.sub rfl)
  assumption

theorem sendSet_kept (hm : Has m 0x40) (x0 : ℕ) (x1 : ℕ) (x2 : ℕ) (x3 : ℕ) (s : State)
    (hs : Kept m s₀ s) :
    Kept m s₀ (sendSet x0 x1 x2 x3 s) := by
  unfold sendSet
  apply pushCtrl_kept (hm.sub rfl)
  assumption

theorem countMissed_kept (hm : Has m 0x42) (x0 : Bool) (s : State)
    (hs : Kept m s₀ s) :
    Kept m s₀ (countMissed x0 s) := by
  unfold countMissed
  dsimp only
  apply endUpd_kept (hm.sub rfl)
  apply upd_kept (hm.sub rfl)
  · intro y03 h4
    apply bump_kept (hm.sub rfl)
    assumption
  · assumption

theorem fadesDrop_kept (hm : Has m 0x40) (x0 : ℕ) (s : State)
    (hs : Kept m s₀ s) :
    Kept m s₀ (fadesDrop x0 s) := by
  unfold fadesDrop
  apply trunkUpd_kept (hm.sub rfl)
  assumption

theorem putCtrl_kept (hm : Has m 0x48) (x0 : ℕ) (x1 : Ctrl) (s : State)
    (hs : Kept m s₀ s) :
    Kept m s₀ (putCtrl x0 x1 s) := by
  unfold putCtrl
  apply emit_kept (hm.sub rfl)
  apply trunkUpd_kept (hm.sub rfl)
  assumption

theorem sendCtrl_kept (hm : Has m 0x48) (x0 : ℕ) (x1 : Ctrl) (s : State)
    (hs : Kept m s₀ s) :
    Kept m s₀ (sendCtrl x0 x1 s) := by
  unfold sendCtrl
  apply putCtrl_kept (hm.sub rfl)
  apply trunkUpd_kept (hm.sub rfl)
  assumption

theorem giveLaunch_kept (hm : Has m 0x40) (x0 : ℕ) (x1 : List ℕ) (s : State)
    (hs : Kept m s₀ s) :
    Kept m s₀ (giveLaunch x0 x1 s) := by
  unfold giveLaunch
  split
  · apply setHeld_kept (hm.sub rfl)
    assumption
  · assumption

theorem sendControl_kept (hm : Has m 0x48) (x0 : ℕ) (x1 : Instant) (s : State)
    (hs : Kept m s₀ s) :
    Kept m s₀ (sendControl x0 x1 s) := by
  unfold sendControl
  dsimp only
  apply Kept.ite
  · intro h2
    apply putCtrl_kept (hm.sub rfl)
    assumption
  · intro h2
    split
    · apply sendCtrl_kept (hm.sub rfl)
      assumption
    · split
      · apply putCtrl_kept (hm.sub rfl)
        apply giveLaunch_kept (hm.sub rfl)
        assumption
      · split
        · apply sendCtrl_kept (hm.sub rfl)
          assumption
        · apply Kept.ite
          · intro h7
            apply putCtrl_kept (hm.sub rfl)
            assumption
          · intro h7
            apply putCtrl_kept (hm.sub rfl)
            apply trunkUpd_kept (hm.sub rfl)
            assumption

theorem nodeTakes_kept (hm : Has m 0x40) (x0 : Ctrl) (x1 : ℕ) (s : State)
    (hs : Kept m s₀ s) :
    Kept m s₀ (nodeTakes x0 x1 s) := by
  unfold nodeTakes
  apply Kept.ite
  · intro h1
    dsimp only
    apply Kept.ite
    · intro h4
      apply nodeUpd_kept (hm.sub rfl)
      assumption
    · exact fun _ => by assumption
  · intro h1
    apply Kept.ite
    · intro h3
      apply nodeUpd_kept (hm.sub rfl)
      assumption
    · intro h3
      apply Kept.ite
      · intro h5
        dsimp only
        apply Kept.ite
        · intro h8
          apply nodeUpd_kept (hm.sub rfl)
          assumption
        · intro h8
          apply Kept.ite
          · intro h10
            apply Kept.foldl
            · intro s12 b13 h14
              apply Kept.ite
              · intro h16
                apply epUpd_kept (hm.sub rfl)
                assumption
              · exact fun _ => by assumption
            · assumption
          · exact fun _ => by assumption
      · exact fun _ => by assumption

theorem nodePass_kept (hm : Has m 0x40) (x0 : List SectErr) (x1 : List (ℕ × ℤ)) (x2 : Instant) (x3 : ℕ) (x4 : State × Flight) (x5 : ℕ)
    (h : FstAll (Kept m s₀) x4) : FstAll (Kept m s₀) (nodePass x0 x1 x2 x3 x4 x5) := by
  unfold nodePass
  dsimp only
  apply FstAll.foldl
  · intro r e hr
    split
    · exact hr
    · apply FstAll.ite
      · intro _
        exact FstAll.mk (epUpd_kept (hm.sub rfl) _ _ _ _ hr)
      · intro _
        exact FstAll.mk (epUpd_kept (hm.sub rfl) _ _ _ _ hr)
  · apply FstAll.mk
    have iteKept : ∀ (c : Prop) (_ : Decidable c) (f : State → State) u, (∀ u, Kept m s₀ u → Kept m s₀ (f u)) → Kept m s₀ u →
        Kept m s₀ (if c then f u else u) := fun c _ f u hf hu => Kept.ite (fun _ => hf u hu) (fun _ => hu)
    have iteKept' : ∀ (c : Prop) (_ : Decidable c) (f : State → State) u, (∀ u, Kept m s₀ u → Kept m s₀ (f u)) → Kept m s₀ u →
        Kept m s₀ (if c then u else f u) := fun c _ f u hf hu => Kept.ite (fun _ => hu) (fun _ => hf u hu)
    refine iteKept' _ _ (nodeUpd _ _) _ (fun u hu => nodeUpd_kept (hm.sub rfl) _ _ _ hu) ?_
    refine iteKept _ _ (nodeTakes _ _) _ (fun u hu => nodeTakes_kept (hm.sub rfl) _ _ _ hu) ?_
    exact nodeUpd_kept (hm.sub rfl) _ _ _ h

theorem trunkFrame_kept (hm : Has m 0x48) (x0 : List SectErr) (x1 : List (ℕ × ℤ)) (x2 : Instant) (x3 : List ℤ) (s : State) (x5 : ℕ)
    (hs : Kept m s₀ s) :
    Kept m s₀ (trunkFrame x0 x1 x2 x3 s x5) := by
  unfold trunkFrame
  dsimp only
  apply Kept.ite
  · intro h2
    apply fadesDrop_kept (hm.sub rfl)
    assumption
  · intro h2
    apply Kept.ite
    · intro h4
      apply emit_kept (hm.sub rfl)
      apply emit_kept (hm.sub rfl)
      apply fadesDrop_kept (hm.sub rfl)
      assumption
    · intro h4
      apply trunkUpd_kept (hm.sub rfl)
      apply Kept.fst
      apply FstAll.foldl
      · intro p8 b9 h10
        apply nodePass_kept (hm.sub rfl)
        assumption
      · apply FstAll.mk
        apply emit_kept (hm.sub rfl)
        apply upd_kept (hm.sub rfl)
        · intro y011 h12
          apply emit_kept (hm.sub rfl)
          apply emit_kept (hm.sub rfl)
          assumption
        · apply emit_kept (hm.sub rfl)
          apply emit_kept (hm.sub rfl)
          apply sendControl_kept (hm.sub rfl)
          apply trunkUpd_kept (hm.sub rfl)
          assumption

theorem listenerBeacon_kept (hm : Has m 0x8) (x0 : ℕ) (x1 : Instant) (s : State)
    (hs : Kept m s₀ s) :
    Kept m s₀ (listenerBeacon x0 x1 s) := by
  unfold listenerBeacon
  apply Kept.ite
  · exact fun _ => by assumption
  · intro h1
    apply emit_kept (hm.sub rfl)
    assumption

theorem execFieldFrame_kept (hm : Has m 0x40004a) (x0 : List SectErr) (x1 : List (ℕ × ℤ)) (s : State)
    (hs : Kept m s₀ s) :
    ResAll (Kept m s₀) (execFieldFrame x0 x1 s) := by
  unfold execFieldFrame
  apply ResAll.ite
  · intro h1
    apply ResAll.next
    assumption
  · intro h1
    dsimp only
    apply ResAll.next
    apply lanokSend_kept (hm.sub rfl)
    apply Kept.ite
    · intro h6
      refine Kept.fld_put (hm.sub rfl) ?_
      apply Kept.foldl
      · intro s9 b10 h11
        apply Kept.ite
        · intro h13
          apply trunkFrame_kept (hm.sub rfl)
          assumption
        · intro h13
          apply listenerBeacon_kept (hm.sub rfl)
          apply fadesDrop_kept (hm.sub rfl)
          assumption
      · apply upd_kept (hm.sub rfl)
        · intro y010 h11
          apply countMissed_kept (hm.sub rfl)
          assumption
        · assumption
    · intro h6
      apply upd_kept (hm.sub rfl)
      · intro y08 h9
        apply countMissed_kept (hm.sub rfl)
        assumption
      · assumption

theorem execNodeEventResend_kept (hm : Has m 0x400048) (x0 : ℕ) (s : State)
    (hs : Kept m s₀ s) :
    ResAll (Kept m s₀) (execNodeEventResend x0 s) := by
  unfold execNodeEventResend
  dsimp only
  apply ResAll.ite
  · intro h2
    apply ResAll.next
    apply lanokSend_kept (hm.sub rfl)
    apply nodeUpd_kept (hm.sub rfl)
    assumption
  · intro h2
    apply ResAll.next
    assumption

theorem fieldWake_kept (hm : Has m 0x2) (s : State)
    (hs : Kept m s₀ s) :
    Kept m s₀ (fieldWake s) := by
  unfold fieldWake
  apply Kept.ite
  · intro h1
    apply setFieldState_kept (hm.sub rfl)
    assumption
  · exact fun _ => by assumption

theorem emergency_kept (hm : Has m 0x40004a) (x0 : ℕ) (s : State)
    (hs : Kept m s₀ s) :
    Kept m s₀ (emergency x0 s) := by
  unfold emergency
  apply emergencyClose_kept (hm.sub rfl)
  apply lanokSend_kept (hm.sub rfl)
  apply fieldWake_kept (hm.sub rfl)
  assumption

theorem fgpioInput_kept (hm : Has m 0x40004a) (x0 : ℕ) (x1 : Bool) (s : State)
    (hs : Kept m s₀ s) :
    Kept m s₀ (fgpioInput x0 x1 s) := by
  unfold fgpioInput
  dsimp only
  apply Kept.ite
  · exact fun _ => by assumption
  · intro h2
    apply Kept.ite
    · intro h4
      apply wr_kept (hm.sub rfl)
      refine Kept.fld_put (hm.sub rfl) ?_
      assumption
    · intro h4
      apply Kept.ite
      · intro h6
        apply emergency_kept (hm.sub rfl)
        apply wr_kept (hm.sub rfl)
        refine Kept.fld_put (hm.sub rfl) ?_
        assumption
      · intro h6
        apply Kept.ite
        · intro h8
          apply fieldWake_kept (hm.sub rfl)
          apply wr_kept (hm.sub rfl)
          refine Kept.fld_put (hm.sub rfl) ?_
          assumption
        · intro h8
          apply wr_kept (hm.sub rfl)
          refine Kept.fld_put (hm.sub rfl) ?_
          assumption

theorem execFgpioDebounceEnd_kept (hm : Has m 0x40004a) (x0 : Fin 16) (x1 : Bool) (x2 : ℕ) (s : State)
    (hs : Kept m s₀ s) :
    ResAll (Kept m s₀) (execFgpioDebounceEnd x0 x1 x2 s) := by
  unfold execFgpioDebounceEnd
  apply ResAll.next
  apply Kept.ite
  · exact fun _ => by assumption
  · intro h2
    apply fgpioInput_kept (hm.sub rfl)
    assumption

theorem startMixFade_kept (hm : Has m 0x40) (x0 : Bool) (x1 : Instant) (s : State)
    (hs : Kept m s₀ s) :
    Kept m s₀ (startMixFade x0 x1 s) := by
  unfold startMixFade
  dsimp only
  refine Kept.fld_put (hm.sub rfl) ?_
  apply Kept.foldl
  · intro s3 b4 h5
    apply trunkUpd_kept (hm.sub rfl)
    assumption
  · assumption

theorem hallAlone_kept (hm : Has m 0x42) (s : State)
    (hs : Kept m s₀ s) :
    Kept m s₀ (hallAlone s) := by
  unfold hallAlone
  dsimp only
  apply Kept.ite
  · intro h2
    apply setFieldState_kept (hm.sub rfl)
    apply Kept.ite
    · intro h5
      apply hdAdopt_kept (hm.sub rfl)
      apply startMixFade_kept (hm.sub rfl)
      assumption
    · exact fun _ => by assumption
  · intro h2
    apply Kept.ite
    · intro h4
      apply hdAdopt_kept (hm.sub rfl)
      apply startMixFade_kept (hm.sub rfl)
      assumption
    · exact fun _ => by assumption

theorem trunkFlag_kept (hm : Has m 0x2) (x0 : ℕ) (x1 : ℕ) (x2 : Bool) (s : State)
    (hs : Kept m s₀ s) :
    Kept m s₀ (trunkFlag x0 x1 x2 s) := by
  unfold trunkFlag
  apply wr_kept (hm.sub rfl)
  assumption

theorem syncPorts_kept (hm : Has m 0x2) (x0 : ℕ) (s : State)
    (hs : Kept m s₀ s) :
    Kept m s₀ (syncPorts x0 s) := by
  unfold syncPorts
  dsimp only
  apply wr_kept (hm.sub rfl)
  apply wr_kept (hm.sub rfl)
  assumption

theorem syncNodes_kept (hm : Has m 0x2) (x0 : ℕ) (s : State)
    (hs : Kept m s₀ s) :
    Kept m s₀ (syncNodes x0 s) := by
  unfold syncNodes
  dsimp only
  apply trunkFlag_kept (hm.sub rfl)
  apply wr_kept (hm.sub rfl)
  apply Kept.foldl
  · intro s4 b5 h6
    apply wr_kept (hm.sub rfl)
    assumption
  · assumption

theorem portsReturn_kept (hm : Has m 0x42) (x0 : ℕ) (x1 : FrameReturn) (x2 : Flight) (s : State)
    (hs : Kept m s₀ s) :
    Kept m s₀ (portsReturn x0 x1 x2 s) := by
  unfold portsReturn
  dsimp only
  apply Kept.ite
  · intro h2
    apply syncPorts_kept (hm.sub rfl)
    apply syncNodes_kept (hm.sub rfl)
    apply wr_kept (hm.sub rfl)
    apply Kept.ite
    · intro h7
      apply Kept.ite
      · intro h9
        apply trunkFlag_kept (hm.sub rfl)
        apply wr_kept (hm.sub rfl)
        apply Kept.foldl
        · intro s13 b14 h15
          apply bumpBy_kept (hm.sub rfl)
          assumption
        · assumption
      · intro h9
        apply Kept.foldl
        · intro s11 b12 h13
          apply bumpBy_kept (hm.sub rfl)
          assumption
        · assumption
    · intro h7
      apply Kept.ite
      · intro h9
        apply trunkUpd_kept (hm.sub rfl)
        apply Kept.foldl
        · intro s12 b13 h14
          apply bumpBy_kept (hm.sub rfl)
          assumption
        · assumption
      · intro h9
        apply trunkUpd_kept (hm.sub rfl)
        apply Kept.foldl
        · intro s12 b13 h14
          apply bumpBy_kept (hm.sub rfl)
          assumption
        · assumption
  · intro h2
    apply Kept.ite
    · intro h4
      apply Kept.ite
      · intro h6
        apply trunkFlag_kept (hm.sub rfl)
        apply wr_kept (hm.sub rfl)
        apply Kept.foldl
        · intro s10 b11 h12
          apply bumpBy_kept (hm.sub rfl)
          assumption
        · assumption
      · intro h6
        apply Kept.foldl
        · intro s8 b9 h10
          apply bumpBy_kept (hm.sub rfl)
          assumption
        · assumption
    · intro h4
      apply Kept.ite
      · intro h6
        apply trunkUpd_kept (hm.sub rfl)
        apply Kept.foldl
        · intro s9 b10 h11
          apply bumpBy_kept (hm.sub rfl)
          assumption
        · assumption
      · intro h6
        apply trunkUpd_kept (hm.sub rfl)
        apply Kept.foldl
        · intro s9 b10 h11
          apply bumpBy_kept (hm.sub rfl)
          assumption
        · assumption

theorem wakeFor_kept (hm : Has m 0x400048) (x0 : ℕ) (x1 : ℕ) (s : State)
    (hs : Kept m s₀ s) :
    Kept m s₀ (wakeFor x0 x1 s) := by
  unfold wakeFor
  split
  · apply lanokSend_kept (hm.sub rfl)
    assumption
  · assumption

theorem selfAck_kept (hm : Has m 0x40004a) (x0 : ℕ) (s : State)
    (hs : Kept m s₀ s) :
    Kept m s₀ (selfAck x0 s) := by
  unfold selfAck
  dsimp only
  apply Kept.ite
  · intro h2
    refine Kept.fld_put (hm.sub rfl) ?_
    apply nodeUpd_kept (hm.sub rfl)
    apply wakeFor_kept (hm.sub rfl)
    assumption
  · intro h2
    apply bump_kept (hm.sub rfl)
    apply nodeUpd_kept (hm.sub rfl)
    apply wakeFor_kept (hm.sub rfl)
    assumption

theorem raiseEvent_kept (hm : Has m 0x400048) (x0 : ℕ) (s : State)
    (hs : Kept m s₀ s) :
    Kept m s₀ (raiseEvent x0 s) := by
  unfold raiseEvent
  dsimp only
  apply Kept.ite
  · intro h2
    apply nodeUpd_kept (hm.sub rfl)
    apply wakeFor_kept (hm.sub rfl)
    assumption
  · intro h2
    apply lanokSend_kept (hm.sub rfl)
    apply nodeUpd_kept (hm.sub rfl)
    apply wakeFor_kept (hm.sub rfl)
    assumption

theorem sight_kept (hm : Has m 0x40004a) (x0 : ℕ) (x1 : ℕ) (x2 : Instant) (s : State)
    (hs : Kept m s₀ s) :
    Kept m s₀ (sight x0 x1 x2 s) := by
  unfold sight
  apply Kept.ite
  · exact fun _ => by assumption
  · intro h1
    dsimp only
    apply Kept.ite
    · intro h4
      apply bump_kept (hm.sub rfl)
      apply Kept.ite
      · intro h7
        apply pushCtrl_kept (hm.sub rfl)
        apply nodeUpd_kept (hm.sub rfl)
        assumption
      · intro h7
        apply nodeUpd_kept (hm.sub rfl)
        assumption
    · intro h4
      apply Kept.ite
      · intro h6
        apply Kept.ite
        · intro h8
          apply selfAck_kept (hm.sub rfl)
          apply prioSeen_kept (hm.sub rfl)
          apply nodeUpd_kept (hm.sub rfl)
          apply Kept.ite
          · intro h13
            apply pushCtrl_kept (hm.sub rfl)
            apply nodeUpd_kept (hm.sub rfl)
            assumption
          · intro h13
            apply nodeUpd_kept (hm.sub rfl)
            assumption
        · intro h8
          apply raiseEvent_kept (hm.sub rfl)
          apply prioSeen_kept (hm.sub rfl)
          apply nodeUpd_kept (hm.sub rfl)
          apply Kept.ite
          · intro h13
            apply pushCtrl_kept (hm.sub rfl)
            apply nodeUpd_kept (hm.sub rfl)
            assumption
          · intro h13
            apply nodeUpd_kept (hm.sub rfl)
            assumption
      · intro h6
        apply Kept.ite
        · intro h8
          apply bump_kept (hm.sub rfl)
          apply Kept.ite
          · intro h11
            apply pushCtrl_kept (hm.sub rfl)
            apply nodeUpd_kept (hm.sub rfl)
            assumption
          · intro h11
            apply nodeUpd_kept (hm.sub rfl)
            assumption
        · intro h8
          apply Kept.ite
          · intro h10
            apply Kept.ite
            · intro h12
              apply nodeUpd_kept (hm.sub rfl)
              apply Kept.ite
              · intro h15
                apply pushCtrl_kept (hm.sub rfl)
                apply nodeUpd_kept (hm.sub rfl)
                assumption
              · intro h15
                apply nodeUpd_kept (hm.sub rfl)
                assumption
            · intro h12
              apply lanokSend_kept (hm.sub rfl)
              apply nodeUpd_kept (hm.sub rfl)
              apply Kept.ite
              · intro h16
                apply pushCtrl_kept (hm.sub rfl)
                apply nodeUpd_kept (hm.sub rfl)
                assumption
              · intro h16
                apply nodeUpd_kept (hm.sub rfl)
                assumption
          · intro h10
            apply Kept.ite
            · intro h12
              apply lanokSend_kept (hm.sub rfl)
              apply Kept.ite
              · intro h15
                apply pushCtrl_kept (hm.sub rfl)
                apply nodeUpd_kept (hm.sub rfl)
                assumption
              · intro h15
                apply nodeUpd_kept (hm.sub rfl)
                assumption
            · intro h12
              apply Kept.ite
              · intro h14
                apply pushCtrl_kept (hm.sub rfl)
                apply nodeUpd_kept (hm.sub rfl)
                assumption
              · intro h14
                apply nodeUpd_kept (hm.sub rfl)
                assumption

theorem statusReply_kept (hm : Has m 0x42) (x0 : ℕ) (x1 : NodeStatus) (s : State)
    (hs : Kept m s₀ s) :
    Kept m s₀ (statusReply x0 x1 s) := by
  unfold statusReply
  dsimp only
  apply pushCtrl_kept (hm.sub rfl)
  apply nodeUpd_kept (hm.sub rfl)
  apply wr_kept (hm.sub rfl)
  apply wrI_kept (hm.sub rfl)
  apply wr_kept (hm.sub rfl)
  assumption

theorem reconcileLaunches_kept (hm : Has m 0x44008ea) (s : State)
    (hs : Kept m s₀ s) :
    Kept m s₀ (reconcileLaunches s) := by
  unfold reconcileLaunches
  apply Kept.foldl
  · intro s1 b2 h3
    dsimp only
    apply Kept.ite
    · exact fun _ => by assumption
    · intro h6
      apply Kept.ite
      · intro h8
        apply Kept.ite
        · exact fun _ => by assumption
        · intro h10
          apply launchFailed_kept (hm.sub rfl)
          assumption
      · intro h8
        apply carryLaunch_kept (hm.sub rfl)
        assumption
  · assumption

theorem execAudioDown_kept (hm : Has m 0x400048) (x0 : LHdr) (x1 : ℕ) (x2 : List (List ℤ)) (s : State)
    (hs : Kept m s₀ s) :
    ResAll (Kept m s₀) (execAudioDown x0 x1 x2 s) := by
  unfold execAudioDown
  apply onLanok_kept (hm.sub rfl)
  · intro y01 h2
    refine Kept.fld_put (hm.sub rfl) ?_
    assumption
  · assumption

theorem requestSegment_kept (hm : Has m 0x40) (x0 : ℕ) (x1 : Bytes) (s : State)
    (hs : Kept m s₀ s) :
    SndAll (Kept m s₀) (requestSegment x0 x1 s) := by
  unfold requestSegment
  dsimp only
  apply SndAll.ite
  · intro h2
    apply SndAll.mk
    apply nodeUpd_kept (hm.sub rfl)
    assumption
  · intro h2
    apply SndAll.ite
    · intro h4
      apply SndAll.mk
      apply nodeUpd_kept (hm.sub rfl)
      assumption
    · intro h4
      apply SndAll.ite
      · intro h6
        apply SndAll.mk
        apply nodeUpd_kept (hm.sub rfl)
        assumption
      · intro h6
        apply SndAll.mk
        apply pushCtrl_kept (hm.sub rfl)
        apply nodeUpd_kept (hm.sub rfl)
        assumption

theorem requestSegment_elim {x0 : ℕ} {x1 : Bytes} {s : State} {v0} {t : State} (hm : Has m 0x40) (e : (requestSegment x0 x1 s) = (v0, t))
    (hs : Kept m s₀ s) : Kept m s₀ t := by
  have hk := requestSegment_kept hm x0 x1 s hs
  rw [e] at hk
  exact (SndAll.elim hk rfl)

theorem hubNodeEvent_kept (hm : Has m 0x254014a) (x0 : ℕ) (x1 : ℕ) (x2 : ℕ) (s : State)
    (hs : Kept m s₀ s) :
    Kept m s₀ (hubNodeEvent x0 x1 x2 s) := by
  unfold hubNodeEvent
  apply Kept.ite
  · exact fun _ => by assumption
  · intro h1
    dsimp only
    apply Kept.ite
    · intro h4
      apply bump_kept (hm.sub rfl)
      apply lanokSend_kept (hm.sub rfl)
      refine Kept.pwr_put (hm.sub rfl) ?_
      assumption
    · intro h4
      apply Kept.ite
      · intro h6
        apply bump_kept (hm.sub rfl)
        apply lanokSend_kept (hm.sub rfl)
        refine Kept.pwr_put (hm.sub rfl) ?_
        assumption
      · intro h6
        apply Kept.ite
        · intro h8
          refine Kept.pwr_put (hm.sub rfl) ?_
          assumption
        · intro h8
          apply presentWork_kept (hm.sub rfl)
          refine Kept.pwr_put (hm.sub rfl) ?_
          assumption

theorem trunkRetire_kept (hm : Has m 0x2) (x0 : ℕ) (s : State)
    (hs : Kept m s₀ s) :
    Kept m s₀ (trunkRetire x0 s) := by
  unfold trunkRetire
  dsimp only
  apply wr_kept (hm.sub rfl)
  apply wr_kept (hm.sub rfl)
  apply Kept.foldl
  · intro s4 b5 h6
    apply wr_kept (hm.sub rfl)
    assumption
  · assumption

theorem sendKey_kept (hm : Has m 0x400048) (x0 : ℕ) (x1 : ℕ) (s : State)
    (hs : Kept m s₀ s) :
    Kept m s₀ (sendKey x0 x1 s) := by
  unfold sendKey
  split
  · assumption
  · apply lanokSend_kept (hm.sub rfl)
    assumption

theorem trunkOff_kept (hm : Has m 0x2) (x0 : ℕ) (s : State)
    (hs : Kept m s₀ s) :
    Kept m s₀ (trunkOff x0 s) := by
  unfold trunkOff
  apply Kept.ite
  · exact fun _ => by assumption
  · intro h1
    apply wr_kept (hm.sub rfl)
    apply trunkRetire_kept (hm.sub rfl)
    assumption

theorem trunkStart_kept (hm : Has m 0x42) (x0 : ℕ) (s : State)
    (hs : Kept m s₀ s) :
    Kept m s₀ (trunkStart x0 s) := by
  unfold trunkStart
  apply Kept.ite
  · exact fun _ => by assumption
  · intro h1
    apply wr_kept (hm.sub rfl)
    apply trunkUpd_kept (hm.sub rfl)
    assumption

theorem portUpd_kept (hm : Has m 0x40) (x0 : ℕ) (x1 : ℕ) (x2 : PortPower → PortPower) (s : State)
    (hs : Kept m s₀ s) :
    Kept m s₀ (portUpd x0 x1 x2 s) := by
  unfold portUpd
  apply trunkUpd_kept (hm.sub rfl)
  assumption

theorem portEnable_kept (hm : Has m 0x4a) (x0 : ℕ) (x1 : ℕ) (s : State)
    (hs : Kept m s₀ s) :
    Kept m s₀ (portEnable x0 x1 s) := by
  unfold portEnable
  apply Kept.ite
  · exact fun _ => by assumption
  · intro h1
    apply emit_kept (hm.sub rfl)
    apply wr_kept (hm.sub rfl)
    apply portUpd_kept (hm.sub rfl)
    assumption

theorem portDisable_kept (hm : Has m 0xa) (x0 : ℕ) (x1 : ℕ) (s : State)
    (hs : Kept m s₀ s) :
    Kept m s₀ (portDisable x0 x1 s) := by
  unfold portDisable
  apply Kept.ite
  · exact fun _ => by assumption
  · intro h1
    apply emit_kept (hm.sub rfl)
    apply wr_kept (hm.sub rfl)
    assumption

theorem fgpioDrive_kept (hm : Has m 0x2) (x0 : ℕ) (s : State)
    (hs : Kept m s₀ s) :
    Kept m s₀ (fgpioDrive x0 s) := by
  unfold fgpioDrive
  dsimp only
  split
  · apply wr_kept (hm.sub rfl)
    assumption
  · apply wr_kept (hm.sub rfl)
    assumption
  · apply wr_kept (hm.sub rfl)
    assumption
  · assumption

theorem fieldKeyEffect_kept (hm : Has m 0x4a) (x0 : ℕ) (x1 : ℕ) (s : State)
    (hs : Kept m s₀ s) :
    Kept m s₀ (fieldKeyEffect x0 x1 s) := by
  unfold fieldKeyEffect
  dsimp only
  apply Kept.ite
  · intro h2
    apply Kept.ite
    · intro h4
      apply Kept.ite
      · intro h6
        apply trunkOff_kept (hm.sub rfl)
        assumption
      · intro h6
        apply Kept.ite
        · exact fun _ => by assumption
        · intro h8
          apply Kept.ite
          · intro h10
            apply trunkStart_kept (hm.sub rfl)
            assumption
          · intro h10
            apply wr_kept (hm.sub rfl)
            assumption
    · intro h4
      apply Kept.ite
      · intro h6
        apply Kept.ite
        · intro h8
          apply portEnable_kept (hm.sub rfl)
          assumption
        · intro h8
          apply portDisable_kept (hm.sub rfl)
          assumption
      · exact fun _ => by assumption
  · intro h2
    apply Kept.ite
    · intro h4
      apply fgpioDrive_kept (hm.sub rfl)
      assumption
    · intro h4
      apply Kept.ite
      · intro h6
        split
        · apply sendSet_kept (hm.sub rfl)
          apply Kept.foldl
          · intro s10 b11 h12
            apply Kept.ite
            · intro h14
              apply epUpd_kept (hm.sub rfl)
              assumption
            · exact fun _ => by assumption
          · assumption
        · apply sendSet_kept (hm.sub rfl)
          apply Kept.foldl
          · intro s10 b11 h12
            apply Kept.ite
            · intro h14
              apply epUpd_kept (hm.sub rfl)
              assumption
            · exact fun _ => by assumption
          · assumption
        · apply sendSet_kept (hm.sub rfl)
          assumption
        · apply sendSet_kept (hm.sub rfl)
          assumption
        · assumption
      · exact fun _ => by assumption

theorem fieldKeyWrite_kept (hm : Has m 0x40004a) (x0 : ℕ) (x1 : ℕ) (s : State)
    (hs : Kept m s₀ s) :
    Kept m s₀ (fieldKeyWrite x0 x1 s) := by
  unfold fieldKeyWrite
  dsimp only
  apply Kept.ite
  · exact fun _ => by assumption
  · intro h2
    apply Kept.ite
    · intro h4
      apply Kept.ite
      · intro h6
        apply sendKey_kept (hm.sub rfl)
        apply wr_kept (hm.sub rfl)
        assumption
      · intro h6
        apply fieldKeyEffect_kept (hm.sub rfl)
        apply sendKey_kept (hm.sub rfl)
        apply wr_kept (hm.sub rfl)
        assumption
    · intro h4
      apply Kept.ite
      · intro h6
        apply wr_kept (hm.sub rfl)
        assumption
      · intro h6
        apply wr_kept (hm.sub rfl)
        refine Kept.fld_put (hm.sub rfl) ?_
        assumption

theorem takeBlock_kept (hm : Has m 0x40) (x0 : Bool) (x1 : ℕ) (x2 : ℕ) (x3 : ℕ) (x4 : List (List ℤ)) (s : State)
    (hs : Kept m s₀ s) :
    Kept m s₀ (takeBlock x0 x1 x2 x3 x4 s) := by
  unfold takeBlock
  dsimp only
  refine Kept.fld_put (hm.sub rfl) ?_
  assumption

theorem mapSwap_kept (hm : Has m 0x42) (x0 : ℕ) (x1 : ℕ) (s : State)
    (hs : Kept m s₀ s) :
    Kept m s₀ (mapSwap x0 x1 s) := by
  unfold mapSwap
  dsimp only
  apply wr_kept (hm.sub rfl)
  apply trunkUpd_kept (hm.sub rfl)
  assumption

theorem swapTrunks_kept (hm : Has m 0x40004a) (x0 : ℕ) (x1 : HeldLaunch) (s : State)
    (hs : Kept m s₀ s) :
    Kept m s₀ (swapTrunks x0 x1 s) := by
  unfold swapTrunks
  apply setHeld_kept (hm.sub rfl)
  apply Kept.foldl
  · intro s2 b3 h4
    apply report_kept (hm.sub rfl)
    apply upd_kept (hm.sub rfl)
    · intro y07 h8
      apply mapSwap_kept (hm.sub rfl)
      assumption
    · assumption
  · assumption

theorem execAudioUp_kept (hm : Has m 0x400048) (x0 : LHdr) (x1 : Fin 8) (x2 : Fin 4) (x3 : ℕ) (x4 : ℕ) (x5 : List (List ℤ)) (s : State)
    (hs : Kept m s₀ s) :
    ResAll (Kept m s₀) (execAudioUp x0 x1 x2 x3 x4 x5 s) := by
  unfold execAudioUp
  apply onLanok_kept (hm.sub rfl)
  · intro y01 h2
    apply Kept.ite
    · exact fun _ => by assumption
    · intro h4
      apply Kept.ite
      · intro h6
        apply pairSend_kept (hm.sub rfl)
        assumption
      · intro h6
        apply takeBlock_kept (hm.sub rfl)
        assumption
  · assumption

theorem execPowerSequenceStep_kept (hm : Has m 0x4a) (s : State)
    (hs : Kept m s₀ s) :
    ResAll (Kept m s₀) (execPowerSequenceStep s) := by
  unfold execPowerSequenceStep
  dsimp only
  apply ResAll.ite
  · intro h2
    apply ResAll.next
    assumption
  · intro h2
    apply ResAll.next
    apply Kept.ite
    · intro h5
      apply portEnable_kept (hm.sub rfl)
      refine Kept.fld_put (hm.sub rfl) ?_
      assumption
    · intro h5
      refine Kept.fld_put (hm.sub rfl) ?_
      assumption

theorem loadTables_kept (hm : Has m 0x42) (s : State)
    (hs : Kept m s₀ s) :
    Kept m s₀ (loadTables s) := by
  unfold loadTables
  apply Kept.foldl
  · intro s1 b2 h3
    dsimp only
    apply Kept.ite
    · intro h6
      apply syncNodes_kept (hm.sub rfl)
      apply trunkUpd_kept (hm.sub rfl)
      assumption
    · intro h6
      apply trunkUpd_kept (hm.sub rfl)
      assumption
  · assumption

theorem execNodeAck_kept (hm : Has m 0x400048) (x0 : LHdr) (x1 : ℕ) (s : State)
    (hs : Kept m s₀ s) :
    ResAll (Kept m s₀) (execNodeAck x0 x1 s) := by
  unfold execNodeAck
  apply onLanok_kept (hm.sub rfl)
  · intro y01 h2
    apply nodeUpd_kept (hm.sub rfl)
    assumption
  · assumption

theorem portLoss_kept (hm : Has m 0x1200002) (x0 : ℕ) (x1 : ℕ) (s : State)
    (hs : Kept m s₀ s) :
    Kept m s₀ (portLoss x0 x1 s) := by
  unfold portLoss
  apply Kept.ite
  · intro h1
    apply Kept.fst
    apply upset_kept (hm.sub rfl)
    assumption
  · exact fun _ => by assumption

theorem hopDown_kept (hm : Has m 0x1200042) (x0 : ℕ) (x1 : ℕ) (s : State)
    (hs : Kept m s₀ s) :
    Kept m s₀ (hopDown x0 x1 s) := by
  unfold hopDown
  dsimp only
  apply Kept.ite
  · exact fun _ => by assumption
  · intro h2
    apply Kept.ite
    · intro h4
      apply syncPorts_kept (hm.sub rfl)
      apply syncNodes_kept (hm.sub rfl)
      apply upd_kept (hm.sub rfl)
      · intro y08 h9
        apply portLoss_kept (hm.sub rfl)
        assumption
      · apply upd_kept (hm.sub rfl)
        · intro y09 h10
          apply portLoss_kept (hm.sub rfl)
          assumption
        · apply wr_kept (hm.sub rfl)
          apply trunkUpd_kept (hm.sub rfl)
          assumption
    · intro h4
      split
      · apply trunkRetire_kept (hm.sub rfl)
        apply upset_elim (hm.sub rfl) (by assumption)
        apply wr_kept (hm.sub rfl)
        apply syncPorts_kept (hm.sub rfl)
        apply syncNodes_kept (hm.sub rfl)
        apply upd_kept (hm.sub rfl)
        · intro y012 h13
          apply portLoss_kept (hm.sub rfl)
          assumption
        · apply upd_kept (hm.sub rfl)
          · intro y013 h14
            apply portLoss_kept (hm.sub rfl)
            assumption
          · apply wr_kept (hm.sub rfl)
            apply trunkUpd_kept (hm.sub rfl)
            assumption
      · apply upset_elim (hm.sub rfl) (by assumption)
        apply wr_kept (hm.sub rfl)
        apply syncPorts_kept (hm.sub rfl)
        apply syncNodes_kept (hm.sub rfl)
        apply upd_kept (hm.sub rfl)
        · intro y011 h12
          apply portLoss_kept (hm.sub rfl)
          assumption
        · apply upd_kept (hm.sub rfl)
          · intro y012 h13
            apply portLoss_kept (hm.sub rfl)
            assumption
          · apply wr_kept (hm.sub rfl)
            apply trunkUpd_kept (hm.sub rfl)
            assumption

theorem follow_kept (hm : Has m 0x42) (x0 : Instant) (s : State)
    (hs : Kept m s₀ s) :
    Kept m s₀ (follow x0 s) := by
  unfold follow
  dsimp only
  apply Kept.ite
  · intro h2
    apply wr_kept (hm.sub rfl)
    refine Kept.fld_put (hm.sub rfl) ?_
    assumption
  · intro h2
    apply Kept.ite
    · intro h4
      apply wrI_kept (hm.sub rfl)
      apply wr_kept (hm.sub rfl)
      refine Kept.fld_put (hm.sub rfl) ?_
      assumption
    · intro h4
      apply wrI_kept (hm.sub rfl)
      apply wr_kept (hm.sub rfl)
      refine Kept.fld_put (hm.sub rfl) ?_
      assumption

theorem execTimeXfer_kept (hm : Has m 0x40004a) (x0 : LHdr) (x1 : ℕ) (x2 : ℕ) (x3 : ℕ) (x4 : ℤ) (s : State)
    (hs : Kept m s₀ s) :
    ResAll (Kept m s₀) (execTimeXfer x0 x1 x2 x3 x4 s) := by
  unfold execTimeXfer
  apply onLanok_kept (hm.sub rfl)
  · intro y01 h2
    apply follow_kept (hm.sub rfl)
    assumption
  · assumption

theorem execNodeEvent_kept (hm : Has m 0x254014a) (x0 : LHdr) (x1 : ℕ) (x2 : ℕ) (x3 : ℕ) (s : State)
    (hs : Kept m s₀ s) :
    ResAll (Kept m s₀) (execNodeEvent x0 x1 x2 x3 s) := by
  unfold execNodeEvent
  apply onLanok_kept (hm.sub rfl)
  · intro y01 h2
    apply hubGets_kept (hm.sub rfl)
    · intro y04 h5
      apply hubNodeEvent_kept (hm.sub rfl)
      assumption
    · assumption
  · assumption

theorem execTripRetry_kept (hm : Has m 0x4a) (x0 : Fin 8) (x1 : Fin 2) (s : State)
    (hs : Kept m s₀ s) :
    ResAll (Kept m s₀) (execTripRetry x0 x1 s) := by
  unfold execTripRetry
  dsimp only
  apply ResAll.next
  apply Kept.ite
  · intro h3
    apply portEnable_kept (hm.sub rfl)
    assumption
  · exact fun _ => by assumption

theorem pollAnswer_kept (hm : Has m 0x52000c2) (x0 : ℕ) (x1 : PollAnswer) (s : State)
    (hs : Kept m s₀ s) :
    SndAll (Kept m s₀) (pollAnswer x0 x1 s) := by
  unfold pollAnswer
  split
  · apply SndAll.mk
    apply nodeMissed_kept (hm.sub rfl)
    assumption
  · apply SndAll.mk
    apply statusReply_kept (hm.sub rfl)
    assumption
  · dsimp only
    apply SndAll.mk
    apply hdMuteNew_kept (hm.sub rfl)
    apply wr_kept (hm.sub rfl)
    apply wr_kept (hm.sub rfl)
    apply wr_kept (hm.sub rfl)
    assumption
  · apply SndAll.mk
    apply wr_kept (hm.sub rfl)
    apply wr_kept (hm.sub rfl)
    assumption
  · apply requestSegment_kept (hm.sub rfl)
    assumption

theorem pollAnswer_elim {x0 : ℕ} {x1 : PollAnswer} {s : State} {v0} {t : State} (hm : Has m 0x52000c2) (e : (pollAnswer x0 x1 s) = (v0, t))
    (hs : Kept m s₀ s) : Kept m s₀ t := by
  have hk := pollAnswer_kept hm x0 x1 s hs
  rw [e] at hk
  exact (SndAll.elim hk rfl)

theorem forwardHeld_kept (hm : Has m 0x400048) (s : State)
    (hs : Kept m s₀ s) :
    Kept m s₀ (forwardHeld s) := by
  unfold forwardHeld
  apply Kept.foldl
  · intro s1 b2 h3
    apply lanokSend_kept (hm.sub rfl)
    assumption
  · refine Kept.fld_put (hm.sub rfl) ?_
    assumption

theorem resyncEnd_kept (hm : Has m 0x40) (x0 : ℕ) (s : State)
    (hs : Kept m s₀ s) :
    Kept m s₀ (resyncEnd x0 s) := by
  unfold resyncEnd
  dsimp only
  apply Kept.ite
  · intro h2
    apply trunkUpd_kept (hm.sub rfl)
    assumption
  · exact fun _ => by assumption

theorem execLoopbackRemove_kept (hm : Has m 0x42) (x0 : Fin 8) (x1 : ℕ) (s : State)
    (hs : Kept m s₀ s) :
    ResAll (Kept m s₀) (execLoopbackRemove x0 x1 s) := by
  unfold execLoopbackRemove
  dsimp only
  apply ResAll.ite
  · intro h2
    apply ResAll.next
    assumption
  · intro h2
    apply ResAll.next
    apply syncPorts_kept (hm.sub rfl)
    apply syncNodes_kept (hm.sub rfl)
    apply Kept.ite
    · intro h7
      apply wr_kept (hm.sub rfl)
      apply wr_kept (hm.sub rfl)
      apply trunkUpd_kept (hm.sub rfl)
      assumption
    · intro h7
      apply wr_kept (hm.sub rfl)
      apply trunkUpd_kept (hm.sub rfl)
      assumption

theorem nodeJoins_kept (hm : Has m 0x42) (x0 : ℕ) (s : State)
    (hs : Kept m s₀ s) :
    Kept m s₀ (nodeJoins x0 s) := by
  unfold nodeJoins
  dsimp only
  split
  · apply trunkFlag_kept (hm.sub rfl)
    assumption
  · apply syncNodes_kept (hm.sub rfl)
    apply trunkFlag_kept (hm.sub rfl)
    apply trunkUpd_kept (hm.sub rfl)
    assumption

theorem masterChangeEnd_kept (hm : Has m 0x400000) (s : State)
    (hs : Kept m s₀ s) :
    Kept m s₀ (masterChangeEnd s) := by
  unfold masterChangeEnd
  apply Kept.ite
  · intro h1
    refine Kept.pair_put (hm.sub rfl) ?_
    assumption
  · exact fun _ => by assumption

theorem execFieldReset_kept (hm : Has m 0x20006a) (s : State)
    (hs : Kept m s₀ s) :
    ResAll (Kept m s₀) (execFieldReset s) := by
  unfold execFieldReset
  apply ResAll.next
  dsimp only
  refine Kept.fld_put (hm.sub rfl) ?_
  apply fieldClear_kept (hm.sub rfl)
  assumption

theorem pwrClear_kept (hm : Has m 0x4a) (x0 : ℕ) (x1 : ℕ) (s : State)
    (hs : Kept m s₀ s) :
    Kept m s₀ (pwrClear x0 x1 s) := by
  unfold pwrClear
  apply Kept.ite
  · exact fun _ => by assumption
  · intro h1
    dsimp only
    apply Kept.ite
    · intro h4
      apply portEnable_kept (hm.sub rfl)
      apply wr_kept (hm.sub rfl)
      apply portUpd_kept (hm.sub rfl)
      assumption
    · intro h4
      apply wr_kept (hm.sub rfl)
      apply portUpd_kept (hm.sub rfl)
      assumption

theorem enumDone_kept (hm : Has m 0x42) (x0 : ℕ) (x1 : ℕ) (s : State)
    (hs : Kept m s₀ s) :
    Kept m s₀ (enumDone x0 x1 s) := by
  unfold enumDone
  dsimp only
  apply syncPorts_kept (hm.sub rfl)
  apply syncNodes_kept (hm.sub rfl)
  apply wr_kept (hm.sub rfl)
  apply trunkFlag_kept (hm.sub rfl)
  apply trunkUpd_kept (hm.sub rfl)
  apply Kept.foldl
  · intro s7 b8 h9
    apply wr_kept (hm.sub rfl)
    assumption
  · assumption

theorem upBlock_kept (hm : Has m 0x400048) (x0 : ℕ) (x1 : FrameReturn) (x2 : Flight) (s : State) (x4 : ℕ)
    (hs : Kept m s₀ s) :
    Kept m s₀ (upBlock x0 x1 x2 s x4) := by
  unfold upBlock
  dsimp only
  apply lanokSend_kept (hm.sub rfl)
  apply trunkUpd_kept (hm.sub rfl)
  assumption

theorem pollReturn_kept (hm : Has m 0x52000ca) (x0 : ℕ) (x1 : FrameReturn) (x2 : Flight) (s : State)
    (hs : Kept m s₀ s) :
    SndAll (Kept m s₀) (pollReturn x0 x1 x2 s) := by
  unfold pollReturn
  split
  · apply SndAll.mk
    assumption
  · dsimp only
    split
    · apply SndAll.ite
      · intro h4
        apply SndAll.mk
        apply Kept.snd
        apply pollAnswer_kept (hm.sub rfl)
        apply emit_kept (hm.sub rfl)
        assumption
      · intro h4
        apply SndAll.mk
        apply nodeMissed_kept (hm.sub rfl)
        assumption
    · apply SndAll.mk
      apply nodeMissed_kept (hm.sub rfl)
      assumption

theorem pollReturn_elim {x0 : ℕ} {x1 : FrameReturn} {x2 : Flight} {s : State} {v0} {t : State} (hm : Has m 0x52000ca) (e : (pollReturn x0 x1 x2 s) = (v0, t))
    (hs : Kept m s₀ s) : Kept m s₀ t := by
  have hk := pollReturn_kept hm x0 x1 x2 s hs
  rw [e] at hk
  exact (SndAll.elim hk rfl)

theorem normalReturn_kept (hm : Has m 0x56000ca) (x0 : ℕ) (x1 : FrameReturn) (x2 : Flight) (s : State)
    (hs : Kept m s₀ s) :
    SndAll (Kept m s₀) (normalReturn x0 x1 x2 s) := by
  unfold normalReturn
  dsimp only
  apply SndAll.mk
  apply masterChangeEnd_kept (hm.sub rfl)
  apply Kept.snd
  apply pollReturn_kept (hm.sub rfl)
  apply Kept.foldl
  · intro s6 b7 h8
    apply nodeJoins_kept (hm.sub rfl)
    assumption
  · apply resyncEnd_kept (hm.sub rfl)
    apply Kept.foldl
    · intro s8 b9 h10
      split
      · apply sight_kept (hm.sub rfl)
        assumption
      · assumption
    · apply Kept.foldl
      · intro s9 b10 h11
        apply upBlock_kept (hm.sub rfl)
        assumption
      · apply upd_kept (hm.sub rfl)
        · intro y010 h11
          apply portsReturn_kept (hm.sub rfl)
          assumption
        · assumption

theorem normalReturn_elim {x0 : ℕ} {x1 : FrameReturn} {x2 : Flight} {s : State} {v0} {t : State} (hm : Has m 0x56000ca) (e : (normalReturn x0 x1 x2 s) = (v0, t))
    (hs : Kept m s₀ s) : Kept m s₀ t := by
  have hk := normalReturn_kept hm x0 x1 x2 s hs
  rw [e] at hk
  exact (SndAll.elim hk rfl)

theorem frameReturn_kept (hm : Has m 0x56000ca) (x0 : ℕ) (x1 : FrameReturn) (s : State)
    (hs : Kept m s₀ s) :
    SndAll (Kept m s₀) (frameReturn x0 x1 s) := by
  unfold frameReturn
  dsimp only
  apply SndAll.ite
  · intro h2
    apply SndAll.mk
    assumption
  · intro h2
    apply SndAll.ite
    · intro h4
      apply SndAll.mk
      apply Kept.ite
      · intro h7
        apply enumDone_kept (hm.sub rfl)
        assumption
      · exact fun _ => by assumption
    · intro h4
      split
      · apply SndAll.mk
        assumption
      · apply normalReturn_kept (hm.sub rfl)
        apply trunkUpd_kept (hm.sub rfl)
        assumption

theorem frameReturn_elim {x0 : ℕ} {x1 : FrameReturn} {s : State} {v0} {t : State} (hm : Has m 0x56000ca) (e : (frameReturn x0 x1 s) = (v0, t))
    (hs : Kept m s₀ s) : Kept m s₀ t := by
  have hk := frameReturn_kept hm x0 x1 s hs
  rw [e] at hk
  exact (SndAll.elim hk rfl)

theorem fieldRewrite_kept (hm : Has m 0x40004a) (s : State)
    (hs : Kept m s₀ s) :
    Kept m s₀ (fieldRewrite s) := by
  unfold fieldRewrite
  dsimp only
  apply loadTables_kept (hm.sub rfl)
  apply Kept.foldl
  · intro s3 b4 h5
    apply fieldKeyEffect_kept (hm.sub rfl)
    assumption
  · apply Kept.foldl
    · intro s4 b5 h6
      apply sendKey_kept (hm.sub rfl)
      assumption
    · refine Kept.fld_put (hm.sub rfl) ?_
      assumption

theorem execFieldLost_kept (hm : Has m 0x6a) (s : State)
    (hs : Kept m s₀ s) :
    ResAll (Kept m s₀) (execFieldLost s) := by
  unfold execFieldLost
  apply ResAll.ite
  · intro h1
    apply ResAll.next
    assumption
  · intro h1
    dsimp only
    apply ResAll.next
    apply upd_kept (hm.sub rfl)
    · intro y05 h6
      apply summary_kept (hm.sub rfl)
      assumption
    · refine Kept.fld_put (hm.sub rfl) ?_
      apply upd_kept (hm.sub rfl)
      · intro y07 h8
        apply hallAlone_kept (hm.sub rfl)
        apply lanokDown_kept (hm.sub rfl)
        assumption
      · assumption

theorem execFieldSupplyLoss_kept (hm : Has m 0x20006a) (s : State)
    (hs : Kept m s₀ s) :
    ResAll (Kept m s₀) (execFieldSupplyLoss s) := by
  unfold execFieldSupplyLoss
  apply ResAll.next
  dsimp only
  refine Kept.fld_put (hm.sub rfl) ?_
  apply fieldClear_kept (hm.sub rfl)
  assumption

theorem flushReports_kept (hm : Has m 0x400048) (s : State)
    (hs : Kept m s₀ s) :
    Kept m s₀ (flushReports s) := by
  unfold flushReports
  apply Kept.foldl
  · intro s1 b2 h3
    apply lanokSend_kept (hm.sub rfl)
    assumption
  · refine Kept.fld_put (hm.sub rfl) ?_
    assumption

theorem alignFollower_kept (hm : Has m 0x400062) (x0 : ℤ) (s : State)
    (hs : Kept m s₀ s) :
    Kept m s₀ (alignFollower x0 s) := by
  unfold alignFollower
  apply Kept.ite
  · intro h1
    dsimp only
    apply firstAlign_kept (hm.sub rfl)
    apply wr_kept (hm.sub rfl)
    refine Kept.fld_put (hm.sub rfl) ?_
    assumption
  · intro h1
    apply wr_kept (hm.sub rfl)
    refine Kept.fld_put (hm.sub rfl) ?_
    assumption

theorem resendEvents_kept (hm : Has m 0x400048) (s : State)
    (hs : Kept m s₀ s) :
    Kept m s₀ (resendEvents s) := by
  unfold resendEvents
  apply Kept.foldl
  · intro s1 b2 h3
    dsimp only
    apply Kept.ite
    · intro h6
      apply lanokSend_kept (hm.sub rfl)
      assumption
    · intro h6
      apply lanokSend_kept (hm.sub rfl)
      apply nodeUpd_kept (hm.sub rfl)
      assumption
  · assumption

theorem linkStart_kept (hm : Has m 0x44008ea) (x0 : ℤ) (s : State)
    (hs : Kept m s₀ s) :
    Kept m s₀ (linkStart x0 s) := by
  unfold linkStart
  apply Kept.ite
  · exact fun _ => by assumption
  · intro h1
    dsimp only
    apply Kept.ite
    · intro h4
      apply flushReports_kept (hm.sub rfl)
      apply reconcileLaunches_kept (hm.sub rfl)
      apply barrierMeasure_kept (hm.sub rfl)
      apply summary_kept (hm.sub rfl)
      apply alignFollower_kept (hm.sub rfl)
      apply fieldRewrite_kept (hm.sub rfl)
      apply wr_kept (hm.sub rfl)
      refine Kept.fld_put (hm.sub rfl) ?_
      assumption
    · intro h4
      apply forwardHeld_kept (hm.sub rfl)
      apply resendEvents_kept (hm.sub rfl)
      apply flushReports_kept (hm.sub rfl)
      apply reconcileLaunches_kept (hm.sub rfl)
      apply barrierMeasure_kept (hm.sub rfl)
      apply summary_kept (hm.sub rfl)
      apply alignFollower_kept (hm.sub rfl)
      apply fieldRewrite_kept (hm.sub rfl)
      apply wr_kept (hm.sub rfl)
      refine Kept.fld_put (hm.sub rfl) ?_
      assumption

theorem hubNodeClear_kept (hm : Has m 0x244010a) (x0 : ℕ) (s : State)
    (hs : Kept m s₀ s) :
    Kept m s₀ (hubNodeClear x0 s) := by
  unfold hubNodeClear
  apply Kept.ite
  · intro h1
    apply presentWork_kept (hm.sub rfl)
    assumption
  · exact fun _ => by assumption

theorem execNodeClear_kept (hm : Has m 0x244014a) (x0 : LHdr) (x1 : ℕ) (s : State)
    (hs : Kept m s₀ s) :
    ResAll (Kept m s₀) (execNodeClear x0 x1 s) := by
  unfold execNodeClear
  apply onLanok_kept (hm.sub rfl)
  · intro y01 h2
    apply hubGets_kept (hm.sub rfl)
    · intro y04 h5
      apply hubNodeClear_kept (hm.sub rfl)
      assumption
    · assumption
  · assumption

theorem enumerate_kept (hm : Has m 0x40) (x0 : ℕ) (s : State)
    (hs : Kept m s₀ s) :
    Kept m s₀ (enumerate x0 s) := by
  unfold enumerate
  apply Kept.ite
  · intro h1
    apply trunkUpd_kept (hm.sub rfl)
    assumption
  · exact fun _ => by assumption

theorem execOvercurrentTrip_kept (hm : Has m 0x4a) (x0 : Fin 8) (x1 : Fin 2) (x2 : ℕ) (s : State)
    (hs : Kept m s₀ s) :
    ResAll (Kept m s₀) (execOvercurrentTrip x0 x1 x2 s) := by
  unfold execOvercurrentTrip
  dsimp only
  apply ResAll.ite
  · intro h2
    apply ResAll.next
    assumption
  · intro h2
    apply ResAll.next
    apply emit_kept (hm.sub rfl)
    apply wr_kept (hm.sub rfl)
    apply bump_kept (hm.sub rfl)
    apply wr_kept (hm.sub rfl)
    apply portUpd_kept (hm.sub rfl)
    assumption

theorem execFieldStart_kept (hm : Has m 0x20006a) (s : State)
    (hs : Kept m s₀ s) :
    ResAll (Kept m s₀) (execFieldStart s) := by
  unfold execFieldStart
  dsimp only
  apply ResAll.next
  apply setFieldState_kept (hm.sub rfl)
  apply wr_kept (hm.sub rfl)
  refine Kept.fld_put (hm.sub rfl) ?_
  apply fieldClear_kept (hm.sub rfl)
  assumption

theorem execTrunkPortEnable_kept (hm : Has m 0x4a) (x0 : Fin 8) (x1 : Fin 2) (s : State)
    (hs : Kept m s₀ s) :
    ResAll (Kept m s₀) (execTrunkPortEnable x0 x1 s) := by
  unfold execTrunkPortEnable
  apply ResAll.next
  apply Kept.ite
  · intro h2
    apply portEnable_kept (hm.sub rfl)
    assumption
  · exact fun _ => by assumption

theorem execLanokCrcFailure_kept (hm : Has m 0x6a) (x0 : Bool) (x1 : Bool) (s : State)
    (hs : Kept m s₀ s) :
    ResAll (Kept m s₀) (execLanokCrcFailure x0 x1 s) := by
  unfold execLanokCrcFailure
  dsimp only
  apply ResAll.next
  apply upd_kept (hm.sub rfl)
  · intro y03 h4
    apply hallAlone_kept (hm.sub rfl)
    assumption
  · apply lanokCrcFailure_kept (hm.sub rfl)
    assumption

theorem writePwrClear_kept (hm : Has m 0x24631da) (x0 : Inst) (x1 : ℕ) (x2 : Fin 8) (x3 : Fin 2) (s : State)
    (hs : Kept m s₀ s) :
    Kept m s₀ (writePwrClear x0 x1 x2 x3 s) := by
  unfold writePwrClear
  apply runCmd_kept (hm.sub rfl)
  · intro y01 h2
    apply pwrClear_kept (hm.sub rfl)
    assumption
  · assumption

theorem execFieldWake_kept (hm : Has m 0x2) (s : State)
    (hs : Kept m s₀ s) :
    ResAll (Kept m s₀) (execFieldWake s) := by
  unfold execFieldWake
  apply ResAll.next
  apply fieldWake_kept (hm.sub rfl)
  assumption

theorem execSoftStartEnd_kept (hm : Has m 0x42) (x0 : Fin 8) (x1 : Fin 2) (x2 : ℕ) (s : State)
    (hs : Kept m s₀ s) :
    ResAll (Kept m s₀) (execSoftStartEnd x0 x1 x2 s) := by
  unfold execSoftStartEnd
  dsimp only
  apply ResAll.ite
  · intro h2
    apply ResAll.next
    assumption
  · intro h2
    apply ResAll.next
    apply Kept.ite
    · intro h5
      apply trunkStart_kept (hm.sub rfl)
      apply wr_kept (hm.sub rfl)
      apply wr_kept (hm.sub rfl)
      assumption
    · intro h5
      apply wr_kept (hm.sub rfl)
      assumption

theorem execHubLost_kept (hm : Has m 0x6a) (s : State)
    (hs : Kept m s₀ s) :
    ResAll (Kept m s₀) (execHubLost s) := by
  unfold execHubLost
  apply ResAll.ite
  · intro h1
    apply ResAll.next
    assumption
  · intro h1
    apply ResAll.next
    apply hallAlone_kept (hm.sub rfl)
    apply bump_kept (hm.sub rfl)
    apply upd_kept (hm.sub rfl)
    · intro y06 h7
      apply lanokDown_kept (hm.sub rfl)
      assumption
    · refine Kept.fld_put (hm.sub rfl) ?_
      assumption

theorem execEmergencyIn_kept (hm : Has m 0x40004a) (x0 : Fin 16) (s : State)
    (hs : Kept m s₀ s) :
    ResAll (Kept m s₀) (execEmergencyIn x0 s) := by
  unfold execEmergencyIn
  apply ResAll.next
  apply Kept.ite
  · exact fun _ => by assumption
  · intro h2
    apply fgpioInput_kept (hm.sub rfl)
    assumption

theorem execLanokResend_kept (hm : Has m 0x6a) (x0 : Bool) (s : State)
    (hs : Kept m s₀ s) :
    ResAll (Kept m s₀) (execLanokResend x0 s) := by
  unfold execLanokResend
  dsimp only
  apply ResAll.next
  apply upd_kept (hm.sub rfl)
  · intro y03 h4
    apply hallAlone_kept (hm.sub rfl)
    assumption
  · apply lanokResend_kept (hm.sub rfl)
    assumption

theorem execHopDown_kept (hm : Has m 0x1200042) (x0 : Fin 8) (x1 : ℕ) (s : State)
    (hs : Kept m s₀ s) :
    ResAll (Kept m s₀) (execHopDown x0 x1 s) := by
  unfold execHopDown
  apply ResAll.next
  apply hopDown_kept (hm.sub rfl)
  assumption

theorem execHeartbeat_kept (hm : Has m 0x400048) (x0 : Bool) (x1 : LHdr) (x2 : ℕ) (x3 : ℕ) (x4 : ℕ) (x5 : ℕ) (s : State)
    (hs : Kept m s₀ s) :
    ResAll (Kept m s₀) (execHeartbeat x0 x1 x2 x3 x4 x5 s) := by
  unfold execHeartbeat
  apply onLanok_kept (hm.sub rfl)
  · intro y01 h2
    dsimp only
    apply Kept.ite
    · intro h5
      apply endUpd_kept (hm.sub rfl)
      assumption
    · intro h5
      apply Kept.ite
      · intro h7
        apply forwardHeld_kept (hm.sub rfl)
        apply resendEvents_kept (hm.sub rfl)
        refine Kept.fld_put (hm.sub rfl) ?_
        apply endUpd_kept (hm.sub rfl)
        assumption
      · intro h7
        refine Kept.fld_put (hm.sub rfl) ?_
        apply endUpd_kept (hm.sub rfl)
        assumption
  · assumption

theorem execFieldMapSwap_kept (hm : Has m 0x44000ea) (s : State)
    (hs : Kept m s₀ s) :
    ResAll (Kept m s₀) (execFieldMapSwap s) := by
  unfold execFieldMapSwap
  dsimp only
  split
  · apply ResAll.next
    apply fireEmpty_kept (hm.sub rfl)
    assumption
  · split
    · apply ResAll.ite
      · intro h4
        apply ResAll.next
        apply swapTrunks_kept (hm.sub rfl)
        apply fireEmpty_kept (hm.sub rfl)
        assumption
      · intro h4
        apply ResAll.next
        apply heldFailed_kept (hm.sub rfl)
        apply fireEmpty_kept (hm.sub rfl)
        assumption
    · apply ResAll.next
      apply swapTrunks_kept (hm.sub rfl)
      apply fireEmpty_kept (hm.sub rfl)
      assumption

theorem writeEnumerate_kept (hm : Has m 0x24631da) (x0 : Inst) (x1 : ℕ) (x2 : Fin 8) (s : State)
    (hs : Kept m s₀ s) :
    Kept m s₀ (writeEnumerate x0 x1 x2 s) := by
  unfold writeEnumerate
  apply runCmd_kept (hm.sub rfl)
  · intro y01 h2
    apply enumerate_kept (hm.sub rfl)
    assumption
  · assumption

end Sys2Proof.Machine
end

