-- ==== Sys2Proof/Laws/KeptSap.lean ====
section
/-! SUPPORT. Every effect of Machine/Sap.lean keeps what `Kept` says. -/
set_option Elab.async false
namespace Sys2Proof.Machine

variable {m : Nat} {s₀ : State}

theorem rxUpd_kept (hm : Has m 0x400) (x0 : ℕ) (x1 : RxEnd → RxEnd) (s : State)
    (hs : Kept m s₀ s) :
    Kept m s₀ (rxUpd x0 x1 s) := by
  unfold rxUpd
  refine Kept.sap_put (hm.sub rfl) ?_
  assumption

theorem sapUpd_kept (hm : Has m 0x400) (x0 : ℕ) (x1 : SapPort → SapPort) (s : State)
    (hs : Kept m s₀ s) :
    Kept m s₀ (sapUpd x0 x1 s) := by
  unfold sapUpd
  refine Kept.sap_put (hm.sub rfl) ?_
  assumption

theorem execStaleFadeExpiry_kept (hm : Has m 0x400) (x0 : Bool) (x1 : ℕ) (s : State)
    (hs : Kept m s₀ s) :
    ResAll (Kept m s₀) (execStaleFadeExpiry x0 x1 s) := by
  unfold execStaleFadeExpiry
  dsimp only
  apply ResAll.ite
  · intro h2
    apply ResAll.next
    assumption
  · intro h2
    apply ResAll.next
    apply Kept.ite
    · intro h5
      apply rxUpd_kept (hm.sub rfl)
      assumption
    · intro h5
      apply sapUpd_kept (hm.sub rfl)
      assumption

theorem rxAccept_kept (hm : Has m 0x402) (x0 : ℕ) (x1 : ℕ) (x2 : List (List ℤ)) (s : State)
    (hs : Kept m s₀ s) :
    Kept m s₀ (rxAccept x0 x1 x2 s) := by
  unfold rxAccept
  dsimp only
  apply Kept.ite
  · intro h2
    apply bump_kept (hm.sub rfl)
    assumption
  · intro h2
    apply upd_kept (hm.sub rfl)
    · intro y04 h5
      apply bump_kept (hm.sub rfl)
      assumption
    · apply rxUpd_kept (hm.sub rfl)
      assumption

theorem sapPin_kept (hm : Has m 0x8) (x0 : ℕ) (x1 : ℕ) (x2 : Bool) (s : State)
    (hs : Kept m s₀ s) :
    Kept m s₀ (sapPin x0 x1 x2 s) := by
  unfold sapPin
  dsimp only
  apply emitIf_kept (hm.sub rfl)
  assumption

theorem clocksStop_kept (hm : Has m 0x8) (x0 : ℕ) (s : State)
    (hs : Kept m s₀ s) :
    Kept m s₀ (clocksStop x0 s) := by
  unfold clocksStop
  apply Kept.ite
  · intro h1
    apply sapPin_kept (hm.sub rfl)
    apply sapPin_kept (hm.sub rfl)
    apply emit_kept (hm.sub rfl)
    assumption
  · exact fun _ => by assumption

theorem sapIdle_kept (hm : Has m 0x8) (x0 : ℕ) (s : State)
    (hs : Kept m s₀ s) :
    Kept m s₀ (sapIdle x0 s) := by
  unfold sapIdle
  apply sapPin_kept (hm.sub rfl)
  apply clocksStop_kept (hm.sub rfl)
  assumption

theorem sapFree_kept (hm : Has m 0x4000880) (x0 : ℕ) (s : State)
    (hs : Kept m s₀ s) :
    Kept m s₀ (sapFree x0 s) := by
  unfold sapFree
  dsimp only
  refine Kept.mix_put (hm.sub rfl) ?_
  apply Kept.ite
  · intro h3
    apply unclaimAll_kept (hm.sub rfl)
    assumption
  · exact fun _ => by assumption

theorem sapSync_kept (hm : Has m 0x2) (x0 : ℕ) (s : State)
    (hs : Kept m s₀ s) :
    Kept m s₀ (sapSync x0 s) := by
  unfold sapSync
  dsimp only
  apply wr_kept (hm.sub rfl)
  apply wr_kept (hm.sub rfl)
  assumption

theorem sapStop_kept (hm : Has m 0x4000c8a) (x0 : ℕ) (s : State)
    (hs : Kept m s₀ s) :
    Kept m s₀ (sapStop x0 s) := by
  unfold sapStop
  dsimp only
  apply sapSync_kept (hm.sub rfl)
  apply wr_kept (hm.sub rfl)
  apply wr_kept (hm.sub rfl)
  apply wr_kept (hm.sub rfl)
  apply wr_kept (hm.sub rfl)
  apply sapIdle_kept (hm.sub rfl)
  apply sapUpd_kept (hm.sub rfl)
  apply sapFree_kept (hm.sub rfl)
  assumption

theorem execSapStopFramesDone_kept (hm : Has m 0x4000c8a) (x0 : Fin 8) (s : State)
    (hs : Kept m s₀ s) :
    ResAll (Kept m s₀) (execSapStopFramesDone x0 s) := by
  unfold execSapStopFramesDone
  dsimp only
  apply ResAll.ite
  · intro h2
    apply ResAll.next
    assumption
  · intro h2
    apply ResAll.next
    apply sapStop_kept (hm.sub rfl)
    assumption

theorem sapData_kept (hm : Has m 0x402) (x0 : ℕ) (s : State)
    (hs : Kept m s₀ s) :
    Kept m s₀ (sapData x0 s) := by
  unfold sapData
  apply sapUpd_kept (hm.sub rfl)
  apply wr_kept (hm.sub rfl)
  assumption

theorem sapSend_kept (hm : Has m 0x8) (x0 : ℕ) (x1 : List ℤ) (s : State)
    (hs : Kept m s₀ s) :
    Kept m s₀ (sapSend x0 x1 s) := by
  unfold sapSend
  dsimp only
  apply emit_kept (hm.sub rfl)
  apply emit_kept (hm.sub rfl)
  assumption

theorem sapRetire_kept (hm : Has m 0x40a) (x0 : ℕ) (s : State)
    (hs : Kept m s₀ s) :
    Kept m s₀ (sapRetire x0 s) := by
  unfold sapRetire
  apply sapPin_kept (hm.sub rfl)
  apply sapUpd_kept (hm.sub rfl)
  apply wr_kept (hm.sub rfl)
  assumption

theorem sapUpset_kept (hm : Has m 0x120040a) (x0 : ℕ) (s : State)
    (hs : Kept m s₀ s) :
    Kept m s₀ (sapUpset x0 s) := by
  unfold sapUpset
  dsimp only
  apply Kept.ite
  · intro h2
    apply sapRetire_kept (hm.sub rfl)
    apply Kept.fst
    apply upset_kept (hm.sub rfl)
    assumption
  · intro h2
    apply Kept.fst
    apply upset_kept (hm.sub rfl)
    assumption

theorem sapDo_kept (hm : Has m 0x120040a) (x0 : ℕ) (s : State)
    (hs : Kept m s₀ s) :
    Kept m s₀ (sapDo x0 s) := by
  unfold sapDo
  dsimp only
  apply Kept.ite
  · intro h2
    apply sapUpset_kept (hm.sub rfl)
    apply bump_kept (hm.sub rfl)
    apply sapSend_kept (hm.sub rfl)
    apply sapUpd_kept (hm.sub rfl)
    assumption
  · intro h2
    apply sapSend_kept (hm.sub rfl)
    apply sapUpd_kept (hm.sub rfl)
    assumption

theorem txUpd_kept (hm : Has m 0x400) (x0 : ℕ) (x1 : TxEnd → TxEnd) (s : State)
    (hs : Kept m s₀ s) :
    Kept m s₀ (txUpd x0 x1 s) := by
  unfold txUpd
  refine Kept.sap_put (hm.sub rfl) ?_
  assumption

theorem txEn_kept (hm : Has m 0xc02) (x0 : ℕ) (x1 : Bool) (s : State)
    (hs : Kept m s₀ s) :
    Kept m s₀ (txEn x0 x1 s) := by
  unfold txEn
  apply Kept.ite
  · exact fun _ => by assumption
  · intro h1
    dsimp only
    refine Kept.mix_put (hm.sub rfl) ?_
    apply txUpd_kept (hm.sub rfl)
    apply wr_kept (hm.sub rfl)
    apply wr_kept (hm.sub rfl)
    assumption

theorem sapAsrc_kept (hm : Has m 0x2) (x0 : ℕ) (x1 : ℕ) (s : State)
    (hs : Kept m s₀ s) :
    Kept m s₀ (sapAsrc x0 x1 s) := by
  unfold sapAsrc
  dsimp only
  apply wr_kept (hm.sub rfl)
  apply wr_kept (hm.sub rfl)
  assumption

theorem fsEdge_kept (hm : Has m 0x402) (x0 : ℕ) (s : State)
    (hs : Kept m s₀ s) :
    Kept m s₀ (fsEdge x0 s) := by
  unfold fsEdge
  dsimp only
  split
  · apply sapUpd_kept (hm.sub rfl)
    assumption
  · apply Kept.ite
    · intro h3
      apply sapUpd_kept (hm.sub rfl)
      assumption
    · intro h3
      apply upd_kept (hm.sub rfl)
      · intro y05 h6
        apply sapAsrc_kept (hm.sub rfl)
        assumption
      · apply sapUpd_kept (hm.sub rfl)
        apply wr_kept (hm.sub rfl)
        assumption

theorem sapDi_kept (hm : Has m 0x120040a) (x0 : ℕ) (x1 : List ℤ) (s : State)
    (hs : Kept m s₀ s) :
    Kept m s₀ (sapDi x0 x1 s) := by
  unfold sapDi
  dsimp only
  apply Kept.ite
  · intro h2
    apply sapUpset_kept (hm.sub rfl)
    apply bump_kept (hm.sub rfl)
    apply sapUpd_kept (hm.sub rfl)
    assumption
  · intro h2
    apply sapUpd_kept (hm.sub rfl)
    assumption

theorem execSapFrame_kept (hm : Has m 0x120040a) (x0 : Fin 8) (x1 : List ℤ) (s : State)
    (hs : Kept m s₀ s) :
    ResAll (Kept m s₀) (execSapFrame x0 x1 s) := by
  unfold execSapFrame
  dsimp only
  apply ResAll.ite
  · intro h2
    apply ResAll.next
    assumption
  · intro h2
    apply ResAll.ite
    · intro h4
      apply ResAll.next
      apply sapSend_kept (hm.sub rfl)
      apply Kept.ite
      · intro h8
        apply sapUpd_kept (hm.sub rfl)
        assumption
      · intro h8
        apply fsEdge_kept (hm.sub rfl)
        assumption
    · intro h4
      apply ResAll.next
      apply sapSync_kept (hm.sub rfl)
      apply sapDo_kept (hm.sub rfl)
      apply sapDi_kept (hm.sub rfl)
      apply sapUpd_kept (hm.sub rfl)
      apply Kept.ite
      · intro h11
        apply sapUpd_kept (hm.sub rfl)
        assumption
      · intro h11
        apply fsEdge_kept (hm.sub rfl)
        assumption

theorem execSapClocksStart_kept (hm : Has m 0x40a) (x0 : Fin 8) (s : State)
    (hs : Kept m s₀ s) :
    ResAll (Kept m s₀) (execSapClocksStart x0 s) := by
  unfold execSapClocksStart
  apply ResAll.ite
  · intro h1
    apply ResAll.next
    assumption
  · intro h1
    apply ResAll.ite
    · intro h3
      apply ResAll.next
      apply sapSync_kept (hm.sub rfl)
      apply emit_kept (hm.sub rfl)
      apply sapUpd_kept (hm.sub rfl)
      assumption
    · intro h3
      apply ResAll.next
      apply sapAsrc_kept (hm.sub rfl)
      apply sapUpd_kept (hm.sub rfl)
      assumption

theorem groupStart_kept (hm : Has m 0x402) (x0 : ℕ) (s : State)
    (hs : Kept m s₀ s) :
    Kept m s₀ (groupStart x0 s) := by
  unfold groupStart
  dsimp only
  apply Kept.foldl
  · intro s2 b3 h4
    apply Kept.ite
    · intro h6
      apply wr_kept (hm.sub rfl)
      apply txUpd_kept (hm.sub rfl)
      assumption
    · exact fun _ => by assumption
  · apply Kept.foldl
    · intro s3 b4 h5
      apply Kept.ite
      · intro h7
        apply rxUpd_kept (hm.sub rfl)
        assumption
      · exact fun _ => by assumption
    · apply Kept.foldl
      · intro s4 b5 h6
        apply Kept.ite
        · intro h8
          apply sapData_kept (hm.sub rfl)
          assumption
        · exact fun _ => by assumption
      · apply wr_kept (hm.sub rfl)
        assumption

theorem execSapRampOutDone_kept (hm : Has m 0x4000c8a) (x0 : Fin 8) (s : State)
    (hs : Kept m s₀ s) :
    ResAll (Kept m s₀) (execSapRampOutDone x0 s) := by
  unfold execSapRampOutDone
  dsimp only
  apply ResAll.ite
  · intro h2
    apply ResAll.next
    assumption
  · intro h2
    apply ResAll.ite
    · intro h4
      apply ResAll.next
      apply sapStop_kept (hm.sub rfl)
      assumption
    · intro h4
      apply ResAll.next
      apply sapUpd_kept (hm.sub rfl)
      assumption

theorem groupStop_kept (hm : Has m 0x402) (x0 : ℕ) (s : State)
    (hs : Kept m s₀ s) :
    Kept m s₀ (groupStop x0 s) := by
  unfold groupStop
  dsimp only
  apply Kept.foldl
  · intro s2 b3 h4
    apply Kept.ite
    · intro h6
      apply txUpd_kept (hm.sub rfl)
      assumption
    · exact fun _ => by assumption
  · apply Kept.foldl
    · intro s3 b4 h5
      apply Kept.ite
      · intro h7
        apply rxUpd_kept (hm.sub rfl)
        assumption
      · exact fun _ => by assumption
    · apply Kept.foldl
      · intro s4 b5 h6
        apply Kept.ite
        · intro h8
          apply sapUpd_kept (hm.sub rfl)
          assumption
        · exact fun _ => by assumption
      · apply wr_kept (hm.sub rfl)
        assumption

theorem sapJoin_kept (hm : Has m 0x402) (x0 : ℕ) (x1 : ℕ) (s : State)
    (hs : Kept m s₀ s) :
    Kept m s₀ (sapJoin x0 x1 s) := by
  unfold sapJoin
  dsimp only
  apply upd_kept (hm.sub rfl)
  · intro y02 h3
    apply bump_kept (hm.sub rfl)
    assumption
  · apply Kept.ite
    · intro h3
      apply sapUpd_kept (hm.sub rfl)
      apply Kept.ite
      · intro h6
        apply sapUpd_kept (hm.sub rfl)
        apply Kept.ite
        · intro h9
          apply sapData_kept (hm.sub rfl)
          assumption
        · exact fun _ => by assumption
      · intro h6
        apply Kept.ite
        · intro h8
          apply sapData_kept (hm.sub rfl)
          assumption
        · exact fun _ => by assumption
    · intro h3
      apply Kept.ite
      · intro h5
        apply sapUpd_kept (hm.sub rfl)
        apply Kept.ite
        · intro h8
          apply sapData_kept (hm.sub rfl)
          assumption
        · exact fun _ => by assumption
      · intro h5
        apply Kept.ite
        · intro h7
          apply sapData_kept (hm.sub rfl)
          assumption
        · exact fun _ => by assumption

theorem setInputs_kept (hm : Has m 0x800) (x0 : ℕ) (x1 : List ℤ) (s : State)
    (hs : Kept m s₀ s) :
    Kept m s₀ (setInputs x0 x1 s) := by
  unfold setInputs
  refine Kept.mix_put (hm.sub rfl) ?_
  assumption

theorem execSapGroup_kept (hm : Has m 0x4000caa) (s : State)
    (hs : Kept m s₀ s) :
    ResAll (Kept m s₀) (execSapGroup s) := by
  unfold execSapGroup
  apply ResAll.next
  apply fireHub_kept (hm.sub rfl)
  · intro y02 y13 y24 h5
    apply ExAll.ok
    apply Kept.ite
    · intro h8
      apply groupStart_kept (hm.sub rfl)
      assumption
    · intro h8
      apply groupStop_kept (hm.sub rfl)
      assumption
  · assumption

theorem sapOutputs_kept (hm : Has m 0x120040a) (x0 : ℕ) (s : State)
    (hs : Kept m s₀ s) :
    Kept m s₀ (sapOutputs x0 s) := by
  unfold sapOutputs
  dsimp only
  apply Kept.ite
  · exact fun _ => by assumption
  · intro h2
    apply Kept.ite
    · intro h4
      apply upd_kept (hm.sub rfl)
      · intro y06 h7
        apply clocksStop_kept (hm.sub rfl)
        assumption
      · apply sapUpd_kept (hm.sub rfl)
        assumption
    · intro h4
      apply Kept.ite
      · intro h6
        apply sapSend_kept (hm.sub rfl)
        apply sapUpd_kept (hm.sub rfl)
        assumption
      · intro h6
        apply Kept.ite
        · intro h8
          apply sapUpset_kept (hm.sub rfl)
          apply bump_kept (hm.sub rfl)
          apply sapSync_kept (hm.sub rfl)
          apply sapUpd_kept (hm.sub rfl)
          assumption
        · intro h8
          apply sapSync_kept (hm.sub rfl)
          apply sapUpd_kept (hm.sub rfl)
          assumption

theorem execSapStartFramesDone_kept (hm : Has m 0x402) (x0 : Fin 8) (s : State)
    (hs : Kept m s₀ s) :
    ResAll (Kept m s₀) (execSapStartFramesDone x0 s) := by
  unfold execSapStartFramesDone
  dsimp only
  apply ResAll.ite
  · intro h2
    apply ResAll.next
    assumption
  · intro h2
    apply ResAll.ite
    · intro h4
      apply ResAll.next
      apply sapData_kept (hm.sub rfl)
      assumption
    · intro h4
      apply ResAll.next
      apply sapUpd_kept (hm.sub rfl)
      assumption

theorem sapClaim_kept (hm : Has m 0x4000880) (x0 : ℕ) (s : State)
    (hs : Kept m s₀ s) :
    Kept m s₀ (sapClaim x0 s) := by
  unfold sapClaim
  dsimp only
  refine Kept.mix_put (hm.sub rfl) ?_
  apply Kept.foldl
  · intro s3 b4 h5
    apply setClaim_kept (hm.sub rfl)
    assumption
  · assumption

theorem sapStart_kept (hm : Has m 0x4000c82) (x0 : ℕ) (s : State)
    (hs : Kept m s₀ s) :
    Kept m s₀ (sapStart x0 s) := by
  unfold sapStart
  dsimp only
  apply sapAsrc_kept (hm.sub rfl)
  apply wr_kept (hm.sub rfl)
  apply sapUpd_kept (hm.sub rfl)
  apply sapClaim_kept (hm.sub rfl)
  assumption

theorem rxEn_kept (hm : Has m 0xc02) (x0 : ℕ) (x1 : Bool) (s : State)
    (hs : Kept m s₀ s) :
    Kept m s₀ (rxEn x0 x1 s) := by
  unfold rxEn
  apply Kept.ite
  · exact fun _ => by assumption
  · intro h1
    dsimp only
    refine Kept.mix_put (hm.sub rfl) ?_
    apply rxUpd_kept (hm.sub rfl)
    apply wr_kept (hm.sub rfl)
    apply wr_kept (hm.sub rfl)
    assumption

theorem sapEn_kept (hm : Has m 0x4000c82) (x0 : ℕ) (x1 : Bool) (s : State)
    (hs : Kept m s₀ s) :
    Kept m s₀ (sapEn x0 x1 s) := by
  unfold sapEn
  dsimp only
  apply Kept.ite
  · intro h2
    apply Kept.ite
    · intro h4
      apply wr_kept (hm.sub rfl)
      assumption
    · intro h4
      apply sapStart_kept (hm.sub rfl)
      apply wr_kept (hm.sub rfl)
      assumption
  · intro h2
    apply Kept.ite
    · intro h4
      apply wr_kept (hm.sub rfl)
      assumption
    · intro h4
      apply Kept.ite
      · intro h6
        apply wr_kept (hm.sub rfl)
        assumption
      · intro h6
        apply sapUpd_kept (hm.sub rfl)
        apply wr_kept (hm.sub rfl)
        apply wr_kept (hm.sub rfl)
        assumption

theorem execClockLost_kept (hm : Has m 0x120040a) (x0 : Fin 8) (s : State)
    (hs : Kept m s₀ s) :
    ResAll (Kept m s₀) (execClockLost x0 s) := by
  unfold execClockLost
  dsimp only
  apply ResAll.ite
  · intro h2
    apply ResAll.next
    assumption
  · intro h2
    apply ResAll.next
    apply sapUpset_kept (hm.sub rfl)
    apply sapSync_kept (hm.sub rfl)
    apply upd_kept (hm.sub rfl)
    · intro y07 h8
      apply wr_kept (hm.sub rfl)
      assumption
    · apply Kept.ite
      · intro h8
        apply sapUpd_kept (hm.sub rfl)
        apply sapPin_kept (hm.sub rfl)
        apply sapAsrc_kept (hm.sub rfl)
        apply sapUpd_kept (hm.sub rfl)
        apply bump_kept (hm.sub rfl)
        apply bump_kept (hm.sub rfl)
        apply upd_kept (hm.sub rfl)
        · intro y016 h17
          apply wr_kept (hm.sub rfl)
          assumption
        · assumption
      · intro h8
        apply sapUpd_kept (hm.sub rfl)
        apply sapPin_kept (hm.sub rfl)
        apply sapAsrc_kept (hm.sub rfl)
        apply sapUpd_kept (hm.sub rfl)
        apply bump_kept (hm.sub rfl)
        apply bump_kept (hm.sub rfl)
        apply upd_kept (hm.sub rfl)
        · intro y016 h17
          apply wr_kept (hm.sub rfl)
          assumption
        · assumption

theorem rxInputs_kept (hm : Has m 0xc02) (x0 : ℕ) (x1 : ℕ) (s : State)
    (hs : Kept m s₀ s) :
    Kept m s₀ (rxInputs x0 x1 s) := by
  unfold rxInputs
  apply Kept.ite
  · exact fun _ => by assumption
  · intro h1
    dsimp only
    apply setInputs_kept (hm.sub rfl)
    apply upd_kept (hm.sub rfl)
    · intro y05 h6
      apply bump_kept (hm.sub rfl)
      assumption
    · apply upd_kept (hm.sub rfl)
      · intro y06 h7
        apply bump_kept (hm.sub rfl)
        assumption
      · apply rxUpd_kept (hm.sub rfl)
        apply wr_kept (hm.sub rfl)
        assumption

theorem txTake_kept (hm : Has m 0x402) (x0 : ℕ) (x1 : ℕ) (s : State)
    (hs : Kept m s₀ s) :
    SndAll (Kept m s₀) (txTake x0 x1 s) := by
  unfold txTake
  apply SndAll.ite
  · intro h1
    apply SndAll.mk
    assumption
  · intro h1
    dsimp only
    apply SndAll.ite
    · intro h4
      apply SndAll.mk
      apply Kept.ite
      · intro h7
        apply wr_kept (hm.sub rfl)
        apply txUpd_kept (hm.sub rfl)
        assumption
      · exact fun _ => by assumption
    · intro h4
      apply SndAll.ite
      · intro h6
        apply SndAll.mk
        apply txUpd_kept (hm.sub rfl)
        apply Kept.ite
        · intro h10
          apply wr_kept (hm.sub rfl)
          apply txUpd_kept (hm.sub rfl)
          assumption
        · exact fun _ => by assumption
      · intro h6
        apply SndAll.mk
        apply txUpd_kept (hm.sub rfl)
        apply Kept.ite
        · intro h10
          apply wr_kept (hm.sub rfl)
          apply txUpd_kept (hm.sub rfl)
          assumption
        · exact fun _ => by assumption

theorem txTake_elim {x0 : ℕ} {x1 : ℕ} {s : State} {v0} {t : State} (hm : Has m 0x402) (e : (txTake x0 x1 s) = (v0, t))
    (hs : Kept m s₀ s) : Kept m s₀ t := by
  have hk := txTake_kept hm x0 x1 s hs
  rw [e] at hk
  exact (SndAll.elim hk rfl)

theorem writeSapEn_kept (hm : Has m 0x6463dda) (x0 : Inst) (x1 : ℕ) (x2 : Fin 8) (x3 : Bool) (s : State)
    (hs : Kept m s₀ s) :
    Kept m s₀ (writeSapEn x0 x1 x2 x3 s) := by
  unfold writeSapEn
  apply runWrite_kept (hm.sub rfl)
  · intro y01 h2
    apply sapEn_kept (hm.sub rfl)
    assumption
  · assumption

theorem sapCleared_kept (hm : Has m 0x4000c8a) (x0 : ℕ) (s : State)
    (hs : Kept m s₀ s) :
    Kept m s₀ (sapCleared x0 s) := by
  unfold sapCleared
  apply Kept.ite
  · intro h1
    apply sapStart_kept (hm.sub rfl)
    assumption
  · intro h1
    apply sapStop_kept (hm.sub rfl)
    assumption

theorem sapInputs_kept (hm : Has m 0x1200c0a) (x0 : ℕ) (x1 : ℕ) (x2 : List ℤ) (s : State)
    (hs : Kept m s₀ s) :
    Kept m s₀ (sapInputs x0 x1 x2 s) := by
  unfold sapInputs
  dsimp only
  apply Kept.ite
  · intro h2
    apply sapJoin_kept (hm.sub rfl)
    assumption
  · intro h2
    apply Kept.ite
    · intro h4
      apply setInputs_kept (hm.sub rfl)
      apply sapJoin_kept (hm.sub rfl)
      assumption
    · intro h4
      apply Kept.ite
      · intro h6
        apply setInputs_kept (hm.sub rfl)
        apply sapUpd_kept (hm.sub rfl)
        apply sapJoin_kept (hm.sub rfl)
        assumption
      · intro h6
        apply sapSync_kept (hm.sub rfl)
        apply Kept.ite
        · intro h9
          apply sapUpset_kept (hm.sub rfl)
          apply bump_kept (hm.sub rfl)
          apply setInputs_kept (hm.sub rfl)
          apply sapUpd_kept (hm.sub rfl)
          apply sapJoin_kept (hm.sub rfl)
          assumption
        · intro h9
          apply setInputs_kept (hm.sub rfl)
          apply sapUpd_kept (hm.sub rfl)
          apply sapJoin_kept (hm.sub rfl)
          assumption

theorem execSapLocked_kept (hm : Has m 0x402) (x0 : Fin 8) (s : State)
    (hs : Kept m s₀ s) :
    ResAll (Kept m s₀) (execSapLocked x0 s) := by
  unfold execSapLocked
  dsimp only
  apply ResAll.ite
  · intro h2
    apply ResAll.next
    assumption
  · intro h2
    apply ResAll.next
    apply sapSync_kept (hm.sub rfl)
    apply wr_kept (hm.sub rfl)
    apply Kept.ite
    · intro h7
      apply sapUpd_kept (hm.sub rfl)
      apply sapAsrc_kept (hm.sub rfl)
      assumption
    · intro h7
      apply sapUpd_kept (hm.sub rfl)
      apply sapAsrc_kept (hm.sub rfl)
      assumption

end Sys2Proof.Machine
end

