-- ==== Sys2Proof/Laws/KeptMix.lean ====
section
/-! SUPPORT. Every effect of Machine/Mix.lean keeps what `Kept` says. -/
set_option Elab.async false
namespace Sys2Proof.Machine

variable {m : Nat} {s₀ : State}

theorem peak_kept (hm : Has m 0x2) (x0 : ℕ) (x1 : ℤ) (s : State)
    (hs : Kept m s₀ s) :
    Kept m s₀ (peak x0 x1 s) := by
  unfold peak
  apply Kept.ite
  · intro h1
    apply wr_kept (hm.sub rfl)
    assumption
  · exact fun _ => by assumption

theorem inputChain_kept (hm : Has m 0x802) (s : State) (x1 : ℕ) (x2 : ℤ)
    (hs : Kept m s₀ s) :
    SndAll (Kept m s₀) (inputChain s x1 x2) := by
  unfold inputChain
  dsimp only
  apply SndAll.mk
  apply peak_kept (hm.sub rfl)
  refine Kept.mix_put (hm.sub rfl) ?_
  assumption

theorem inputChain_elim {s : State} {x1 : ℕ} {x2 : ℤ} {v0} {t : State} (hm : Has m 0x802) (e : (inputChain s x1 x2) = (v0, t))
    (hs : Kept m s₀ s) : Kept m s₀ t := by
  have hk := inputChain_kept hm s x1 x2 hs
  rw [e] at hk
  exact (SndAll.elim hk rfl)

theorem mixMinus_kept (hm : Has m 0x800) (s : State) (x1 : Tab ℤ) (x2 : Tab ℤ) (x3 : ℕ) (x4 : ℕ) (x5 : Option ℕ)
    (hs : Kept m s₀ s) :
    Kept m s₀ (mixMinus s x1 x2 x3 x4 x5) := by
  unfold mixMinus
  dsimp only
  refine Kept.mix_put (hm.sub rfl) ?_
  assumption

theorem xpSwap_kept (hm : Has m 0x802) (s : State)
    (hs : Kept m s₀ s) :
    Kept m s₀ (xpSwap s) := by
  unfold xpSwap
  dsimp only
  apply wr_kept (hm.sub rfl)
  refine Kept.mix_put (hm.sub rfl) ?_
  assumption

theorem execXpSwap_kept (hm : Has m 0x40008aa) (s : State)
    (hs : Kept m s₀ s) :
    ResAll (Kept m s₀) (execXpSwap s) := by
  unfold execXpSwap
  apply ResAll.next
  apply fireHub_kept (hm.sub rfl)
  · intro y02 y13 y24 h5
    apply ExAll.ok
    apply xpSwap_kept (hm.sub rfl)
    assumption
  · assumption

theorem inputChains_kept (hm : Has m 0x802) (s : State)
    (hs : Kept m s₀ s) :
    SndAll (Kept m s₀) (inputChains s) := by
  unfold inputChains
  dsimp only
  apply SndAll.foldl
  · intro p2 b3 h4
    apply SndAll.mk
    apply Kept.snd
    apply inputChain_kept (hm.sub rfl)
    apply Kept.snd
    assumption
  · apply SndAll.mk
    assumption

theorem inputChains_elim {s : State} {v0} {t : State} (hm : Has m 0x802) (e : (inputChains s) = (v0, t))
    (hs : Kept m s₀ s) : Kept m s₀ t := by
  have hk := inputChains_kept hm s hs
  rw [e] at hk
  exact (SndAll.elim hk rfl)

theorem langRow_kept (hm : Has m 0x800) (x0 : ℕ) (x1 : ℤ) (s : State)
    (hs : Kept m s₀ s) :
    SndAll (Kept m s₀) (langRow x0 x1 s) := by
  unfold langRow
  dsimp only
  apply SndAll.ite
  · intro h2
    apply SndAll.mk
    assumption
  · intro h2
    apply SndAll.mk
    refine Kept.mix_put (hm.sub rfl) ?_
    assumption

theorem langRow_elim {x0 : ℕ} {x1 : ℤ} {s : State} {v0} {t : State} (hm : Has m 0x800) (e : (langRow x0 x1 s) = (v0, t))
    (hs : Kept m s₀ s) : Kept m s₀ t := by
  have hk := langRow_kept hm x0 x1 s hs
  rw [e] at hk
  exact (SndAll.elim hk rfl)

theorem eqSwap_kept (hm : Has m 0x802) (x0 : ℕ) (s : State)
    (hs : Kept m s₀ s) :
    Kept m s₀ (eqSwap x0 s) := by
  unfold eqSwap
  dsimp only
  apply bumpBy_kept (hm.sub rfl)
  apply wr_kept (hm.sub rfl)
  refine Kept.mix_put (hm.sub rfl) ?_
  assumption

theorem clearKeys_kept (hm : Has m 0x2) (x0 x1 : ℕ) (s : State) (hs : Kept m s₀ s) : Kept m s₀ (clearKeys x0 x1 s) :=
  regsFilter_kept (hm.sub rfl) _ s hs

theorem writeMeterClr_kept (hm : Has m 0x24631da) (x0 : Inst) (x1 : ℕ) (s : State)
    (hs : Kept m s₀ s) :
    Kept m s₀ (writeMeterClr x0 x1 s) := by
  unfold writeMeterClr
  apply runCmd_kept (hm.sub rfl)
  · intro y01 h2
    apply clearKeys_kept (hm.sub rfl)
    apply clearKeys_kept (hm.sub rfl)
    apply clearKeys_kept (hm.sub rfl)
    assumption
  · assumption

theorem noteWritten_kept (hm : Has m 0x800) (x0 : ℕ) (x1 : ℕ) (x2 : ℕ) (s : State)
    (hs : Kept m s₀ s) :
    Kept m s₀ (noteWritten x0 x1 x2 s) := by
  unfold noteWritten
  dsimp only
  apply Kept.ite
  · intro h2
    refine Kept.mix_put (hm.sub rfl) ?_
    assumption
  · exact fun _ => by assumption

theorem xpBankUpd_kept (hm : Has m 0x800) (x0 : ℕ) (x1 : Tab ℕ → Tab ℕ) (s : State)
    (hs : Kept m s₀ s) :
    Kept m s₀ (xpBankUpd x0 x1 s) := by
  unfold xpBankUpd
  apply Kept.ite
  · intro h1
    refine Kept.mix_put (hm.sub rfl) ?_
    assumption
  · intro h1
    refine Kept.mix_put (hm.sub rfl) ?_
    assumption

theorem nodePut_kept (hm : Has m 0x800) (x0 : ℕ) (x1 : ℕ) (x2 : ℕ) (s : State)
    (hs : Kept m s₀ s) :
    Kept m s₀ (nodePut x0 x1 x2 s) := by
  unfold nodePut
  dsimp only
  apply Kept.ite
  · intro h2
    refine Kept.mix_put (hm.sub rfl) ?_
    apply noteWritten_kept (hm.sub rfl)
    apply xpBankUpd_kept (hm.sub rfl)
    assumption
  · intro h2
    apply noteWritten_kept (hm.sub rfl)
    apply xpBankUpd_kept (hm.sub rfl)
    assumption

theorem outputChain_kept (hm : Has m 0x802) (s : State) (x1 : ℕ) (x2 : ℤ)
    (hs : Kept m s₀ s) :
    Kept m s₀ (outputChain s x1 x2) := by
  unfold outputChain
  dsimp only
  apply peak_kept (hm.sub rfl)
  refine Kept.mix_put (hm.sub rfl) ?_
  assumption

theorem copyRow_kept (hm : Has m 0x802) (s : State) (x1 : ℕ)
    (hs : Kept m s₀ s) :
    Kept m s₀ (copyRow s x1) := by
  unfold copyRow
  apply outputChain_kept (hm.sub rfl)
  assumption

theorem execEqSwap_kept (hm : Has m 0x40008aa) (s : State)
    (hs : Kept m s₀ s) :
    ResAll (Kept m s₀) (execEqSwap s) := by
  unfold execEqSwap
  apply ResAll.next
  apply fireHub_kept (hm.sub rfl)
  · intro y02 y13 y24 h5
    apply ExAll.ok
    apply eqSwap_kept (hm.sub rfl)
    assumption
  · assumption

theorem keepHall_kept (hm : Has m 0x800) (s : State)
    (hs : Kept m s₀ s) :
    Kept m s₀ (keepHall s) := by
  unfold keepHall
  refine Kept.mix_put (hm.sub rfl) ?_
  assumption

theorem writeXpCopy_kept (hm : Has m 0x24639da) (x0 : Inst) (x1 : ℕ) (x2 : ℕ) (s : State)
    (hs : Kept m s₀ s) :
    Kept m s₀ (writeXpCopy x0 x1 x2 s) := by
  unfold writeXpCopy
  apply runCmdV_kept (hm.sub rfl)
  · intro y01 h2
    refine Kept.mix_put (hm.sub rfl) ?_
    assumption
  · assumption

theorem loudRestart_kept (hm : Has m 0x802) (x0 : ℕ) (s : State)
    (hs : Kept m s₀ s) :
    Kept m s₀ (loudRestart x0 s) := by
  unfold loudRestart
  apply wr_kept (hm.sub rfl)
  apply wr_kept (hm.sub rfl)
  refine Kept.mix_put (hm.sub rfl) ?_
  assumption

theorem eqBankUpd_kept (hm : Has m 0x800) (x0 : ℕ) (x1 : ℕ) (x2 : Tab Bytes → Tab Bytes) (s : State)
    (hs : Kept m s₀ s) :
    Kept m s₀ (eqBankUpd x0 x1 x2 s) := by
  unfold eqBankUpd
  apply Kept.ite
  · intro h1
    apply Kept.ite
    · intro h3
      refine Kept.mix_put (hm.sub rfl) ?_
      assumption
    · intro h3
      refine Kept.mix_put (hm.sub rfl) ?_
      assumption
  · intro h1
    apply Kept.ite
    · intro h3
      refine Kept.mix_put (hm.sub rfl) ?_
      assumption
    · intro h3
      refine Kept.mix_put (hm.sub rfl) ?_
      assumption

theorem bar2Refuse_kept (hm : Has m 0x802) (s : State)
    (hs : Kept m s₀ s) :
    Kept m s₀ (bar2Refuse s) := by
  unfold bar2Refuse
  apply bump_kept (hm.sub rfl)
  refine Kept.mix_put (hm.sub rfl) ?_
  assumption

theorem sectionPut_kept (hm : Has m 0x802) (x0 : ℕ) (x1 : ℕ) (x2 : ℕ) (x3 : Bytes) (s : State)
    (hs : Kept m s₀ s) :
    Kept m s₀ (sectionPut x0 x1 x2 x3 s) := by
  unfold sectionPut
  dsimp only
  apply Kept.ite
  · intro h2
    apply upd_kept (hm.sub rfl)
    · intro y04 h5
      apply bump_kept (hm.sub rfl)
      assumption
    · refine Kept.mix_put (hm.sub rfl) ?_
      apply noteWritten_kept (hm.sub rfl)
      apply eqBankUpd_kept (hm.sub rfl)
      assumption
  · intro h2
    apply noteWritten_kept (hm.sub rfl)
    apply eqBankUpd_kept (hm.sub rfl)
    assumption

theorem bar2Put_kept (hm : Has m 0x802) (x0 : ℕ) (x1 : ℕ) (x2 : ℕ) (s : State)
    (hs : Kept m s₀ s) :
    Kept m s₀ (bar2Put x0 x1 x2 s) := by
  unfold bar2Put
  split
  · assumption
  · apply Kept.ite
    · intro h2
      apply bar2Refuse_kept (hm.sub rfl)
      assumption
    · intro h2
      apply Kept.ite
      · intro h4
        dsimp only
        apply Kept.ite
        · intro h7
          apply nodePut_kept (hm.sub rfl)
          apply nodePut_kept (hm.sub rfl)
          assumption
        · intro h7
          apply nodePut_kept (hm.sub rfl)
          assumption
      · intro h4
        apply sectionPut_kept (hm.sub rfl)
        assumption

theorem execBar2Write_kept (hm : Has m 0x802) (x0 : ℕ) (x1 : ℕ) (x2 : ℕ) (s : State)
    (hs : Kept m s₀ s) :
    ResAll (Kept m s₀) (execBar2Write x0 x1 x2 s) := by
  unfold execBar2Write
  apply ResAll.ite
  · intro h1
    apply ResAll.next
    apply bar2Put_kept (hm.sub rfl)
    assumption
  · intro h1
    apply ResAll.next
    apply badAccess_kept (hm.sub rfl)
    assumption

theorem trimWrite_kept (hm : Has m 0x802) (x0 : ℕ) (x1 : ℕ) (s : State)
    (hs : Kept m s₀ s) :
    Kept m s₀ (trimWrite x0 x1 s) := by
  unfold trimWrite
  dsimp only
  apply wr_kept (hm.sub rfl)
  refine Kept.mix_put (hm.sub rfl) ?_
  assumption

theorem writeXpPreset_kept (hm : Has m 0x24639da) (x0 : Inst) (x1 : ℕ) (s : State)
    (hs : Kept m s₀ s) :
    Kept m s₀ (writeXpPreset x0 x1 s) := by
  unfold writeXpPreset
  apply runCmd_kept (hm.sub rfl)
  · intro y01 h2
    refine Kept.mix_put (hm.sub rfl) ?_
    assumption
  · assumption

theorem execXpCopyDone_kept (hm : Has m 0xc238da) (s : State)
    (hs : Kept m s₀ s) :
    ResAll (Kept m s₀) (execXpCopyDone s) := by
  unfold execXpCopyDone
  dsimp only
  split
  · apply ResAll.next
    assumption
  · apply ResAll.next
    apply cmdComplete_kept (hm.sub rfl)
    refine Kept.mix_put (hm.sub rfl) ?_
    apply xpBankUpd_kept (hm.sub rfl)
    assumption
  · apply ResAll.next
    apply cmdComplete_kept (hm.sub rfl)
    refine Kept.mix_put (hm.sub rfl) ?_
    apply xpBankUpd_kept (hm.sub rfl)
    assumption
  · apply ResAll.next
    apply cmdComplete_kept (hm.sub rfl)
    refine Kept.mix_put (hm.sub rfl) ?_
    apply eqBankUpd_kept (hm.sub rfl)
    assumption

theorem writeLmReset_kept (hm : Has m 0x24639da) (x0 : Inst) (x1 : ℕ) (x2 : Fin 16) (s : State)
    (hs : Kept m s₀ s) :
    Kept m s₀ (writeLmReset x0 x1 x2 s) := by
  unfold writeLmReset
  apply runCmd_kept (hm.sub rfl)
  · intro y01 h2
    apply loudRestart_kept (hm.sub rfl)
    assumption
  · assumption

theorem loudUpdate_kept (hm : Has m 0x802) (x0 : ℕ) (s : State)
    (hs : Kept m s₀ s) :
    Kept m s₀ (loudUpdate x0 s) := by
  unfold loudUpdate
  dsimp only
  refine Kept.mix_put (hm.sub rfl) ?_
  apply Kept.ite
  · intro h3
    apply wrI_kept (hm.sub rfl)
    apply wr_kept (hm.sub rfl)
    apply wr_kept (hm.sub rfl)
    apply wr_kept (hm.sub rfl)
    assumption
  · intro h3
    apply wr_kept (hm.sub rfl)
    apply wr_kept (hm.sub rfl)
    apply wr_kept (hm.sub rfl)
    assumption

theorem execLoudnessUpdate_kept (hm : Has m 0x802) (s : State)
    (hs : Kept m s₀ s) :
    ResAll (Kept m s₀) (execLoudnessUpdate s) := by
  unfold execLoudnessUpdate
  apply ResAll.next
  apply Kept.foldl
  · intro s2 b3 h4
    apply Kept.ite
    · intro h6
      apply loudUpdate_kept (hm.sub rfl)
      assumption
    · exact fun _ => by assumption
  · assumption

theorem outMuteWrite_kept (hm : Has m 0x802) (x0 : ℕ) (x1 : ℕ) (s : State)
    (hs : Kept m s₀ s) :
    Kept m s₀ (outMuteWrite x0 x1 s) := by
  unfold outMuteWrite
  dsimp only
  apply Kept.ite
  · exact fun _ => by assumption
  · intro h2
    apply wr_kept (hm.sub rfl)
    refine Kept.mix_put (hm.sub rfl) ?_
    assumption

theorem loudEn_kept (hm : Has m 0x802) (x0 : ℕ) (x1 : ℕ) (s : State)
    (hs : Kept m s₀ s) :
    Kept m s₀ (loudEn x0 x1 s) := by
  unfold loudEn
  apply Kept.ite
  · exact fun _ => by assumption
  · intro h1
    dsimp only
    apply loudRestart_kept (hm.sub rfl)
    apply wr_kept (hm.sub rfl)
    apply wr_kept (hm.sub rfl)
    apply wr_kept (hm.sub rfl)
    refine Kept.mix_put (hm.sub rfl) ?_
    assumption

theorem outGainWrite_kept (hm : Has m 0x802) (x0 : ℕ) (x1 : ℕ) (s : State)
    (hs : Kept m s₀ s) :
    Kept m s₀ (outGainWrite x0 x1 s) := by
  unfold outGainWrite
  dsimp only
  apply wr_kept (hm.sub rfl)
  refine Kept.mix_put (hm.sub rfl) ?_
  assumption

theorem loudTake_kept (hm : Has m 0x800) (s : State)
    (hs : Kept m s₀ s) :
    Kept m s₀ (loudTake s) := by
  unfold loudTake
  apply Kept.foldl
  · intro s1 b2 h3
    apply Kept.ite
    · exact fun _ => by assumption
    · intro h5
      refine Kept.mix_put (hm.sub rfl) ?_
      assumption
  · assumption

theorem mixRow_kept (hm : Has m 0x802) (x0 : Tab ℤ) (s : State) (x2 : ℕ)
    (hs : Kept m s₀ s) :
    Kept m s₀ (mixRow x0 s x2) := by
  unfold mixRow
  dsimp only
  apply outputChain_kept (hm.sub rfl)
  apply Kept.snd
  apply langRow_kept (hm.sub rfl)
  apply upd_kept (hm.sub rfl)
  · intro y05 h6
    apply bump_kept (hm.sub rfl)
    assumption
  · assumption

theorem mixAll_kept (hm : Has m 0x802) (s : State)
    (hs : Kept m s₀ s) :
    Kept m s₀ (mixAll s) := by
  unfold mixAll
  dsimp only
  refine Kept.mix_put (hm.sub rfl) ?_
  apply Kept.foldl
  · intro s3 b4 h5
    apply copyRow_kept (hm.sub rfl)
    assumption
  · apply Kept.foldl
    · intro s4 b5 h6
      apply mixRow_kept (hm.sub rfl)
      assumption
    · apply Kept.ite
      · intro h5
        apply copyRow_kept (hm.sub rfl)
        apply Kept.foldl
        · intro s8 b9 h10
          apply mixMinus_kept (hm.sub rfl)
          assumption
        · apply Kept.foldl
          · intro s9 b10 h11
            refine Kept.mix_put (hm.sub rfl) ?_
            assumption
          · apply Kept.foldl
            · intro s10 b11 h12
              apply mixRow_kept (hm.sub rfl)
              assumption
            · apply Kept.foldl
              · intro s11 b12 h13
                refine Kept.mix_put (hm.sub rfl) ?_
                assumption
              · apply Kept.snd
                apply inputChains_kept (hm.sub rfl)
                assumption
      · intro h5
        apply Kept.foldl
        · intro s7 b8 h9
          apply mixMinus_kept (hm.sub rfl)
          assumption
        · apply Kept.foldl
          · intro s8 b9 h10
            refine Kept.mix_put (hm.sub rfl) ?_
            assumption
          · apply Kept.foldl
            · intro s9 b10 h11
              apply mixRow_kept (hm.sub rfl)
              assumption
            · apply Kept.foldl
              · intro s10 b11 h12
                refine Kept.mix_put (hm.sub rfl) ?_
                assumption
              · apply Kept.snd
                apply inputChains_kept (hm.sub rfl)
                assumption

end Sys2Proof.Machine
end

