-- ==== Sys2Proof/Laws/KeptTalker.lean ====
section
/-! SUPPORT. Every effect of Machine/Talker.lean keeps what `Kept` says. -/
set_option Elab.async false
namespace Sys2Proof.Machine

variable {m : Nat} {s₀ : State}

theorem tmUpd_kept (hm : Has m 0x800) (x0 : Tm → Tm) (s : State)
    (hs : Kept m s₀ s) :
    Kept m s₀ (tmUpd x0 s) := by
  unfold tmUpd
  refine Kept.mix_put (hm.sub rfl) ?_
  assumption

theorem setTalk_kept (hm : Has m 0x802) (x0 : ℕ) (x1 : ℤ) (x2 : ℕ) (s : State)
    (hs : Kept m s₀ s) :
    Kept m s₀ (setTalk x0 x1 x2 s) := by
  unfold setTalk
  apply Kept.ite
  · exact fun _ => by assumption
  · intro h1
    dsimp only
    apply wr_kept (hm.sub rfl)
    refine Kept.mix_put (hm.sub rfl) ?_
    assumption

theorem tmRetarget_kept (hm : Has m 0x802) (s : State)
    (hs : Kept m s₀ s) :
    Kept m s₀ (tmRetarget s) := by
  unfold tmRetarget
  apply Kept.foldl
  · intro s1 b2 h3
    apply setTalk_kept (hm.sub rfl)
    assumption
  · assumption

theorem langUpd_kept (hm : Has m 0x800) (x0 : ℕ) (x1 : Lang → Lang) (s : State)
    (hs : Kept m s₀ s) :
    Kept m s₀ (langUpd x0 x1 s) := by
  unfold langUpd
  refine Kept.mix_put (hm.sub rfl) ?_
  assumption

theorem langFade_kept (hm : Has m 0x800) (x0 : ℕ) (x1 : Bool) (s : State)
    (hs : Kept m s₀ s) :
    Kept m s₀ (langFade x0 x1 s) := by
  unfold langFade
  apply langUpd_kept (hm.sub rfl)
  assumption

theorem tmRefuse_kept (hm : Has m 0x2) (s : State)
    (hs : Kept m s₀ s) :
    Kept m s₀ (tmRefuse s) := by
  unfold tmRefuse
  apply bump_kept (hm.sub rfl)
  assumption

theorem tmOpenNow_kept (hm : Has m 0x802) (s : State) (x1 : Talker)
    (hs : Kept m s₀ s) :
    Kept m s₀ (tmOpenNow s x1) := by
  unfold tmOpenNow
  split
  · dsimp only
    apply langUpd_kept (hm.sub rfl)
    apply Kept.ite
    · intro h4
      apply langFade_kept (hm.sub rfl)
      assumption
    · exact fun _ => by assumption
  · apply Kept.ite
    · intro h2
      dsimp only
      split
      · apply setTalk_kept (hm.sub rfl)
        apply tmUpd_kept (hm.sub rfl)
        apply wr_kept (hm.sub rfl)
        apply wr_kept (hm.sub rfl)
        apply wr_kept (hm.sub rfl)
        assumption
      · apply tmRefuse_kept (hm.sub rfl)
        apply tmUpd_kept (hm.sub rfl)
        assumption
    · intro h2
      dsimp only
      apply setTalk_kept (hm.sub rfl)
      apply tmUpd_kept (hm.sub rfl)
      assumption

theorem tmCloseNow_kept (hm : Has m 0x802) (s : State) (x1 : Talker)
    (hs : Kept m s₀ s) :
    Kept m s₀ (tmCloseNow s x1) := by
  unfold tmCloseNow
  dsimp only
  split
  · apply langUpd_kept (hm.sub rfl)
    apply tmUpd_kept (hm.sub rfl)
    assumption
  · apply Kept.ite
    · intro h3
      apply setTalk_kept (hm.sub rfl)
      refine Kept.mix_put (hm.sub rfl) ?_
      apply tmUpd_kept (hm.sub rfl)
      assumption
    · intro h3
      apply tmUpd_kept (hm.sub rfl)
      assumption

theorem tmApply_kept (hm : Has m 0x802) (x0 : Decision) (s : State)
    (hs : Kept m s₀ s) :
    Kept m s₀ (tmApply x0 s) := by
  unfold tmApply
  dsimp only
  apply tmRetarget_kept (hm.sub rfl)
  apply Kept.foldl
  · intro s3 b4 h5
    apply tmOpenNow_kept (hm.sub rfl)
    assumption
  · apply Kept.foldl
    · intro s4 b5 h6
      apply tmCloseNow_kept (hm.sub rfl)
      assumption
    · apply tmUpd_kept (hm.sub rfl)
      assumption

theorem tmUnslot_kept (hm : Has m 0x4000080) (x0 : Talker) (s : State)
    (hs : Kept m s₀ s) :
    Kept m s₀ (tmUnslot x0 s) := by
  unfold tmUnslot
  split
  · apply unclaim_kept (hm.sub rfl)
    assumption
  · assumption

theorem tmDrop_kept (hm : Has m 0x4000880) (x0 : List ℕ) (s : State)
    (hs : Kept m s₀ s) :
    SndAll (Kept m s₀) (tmDrop x0 s) := by
  unfold tmDrop
  split
  · apply SndAll.mk
    assumption
  · split
    · apply tmDrop_kept (hm.sub rfl)
      assumption
    · dsimp only
      apply SndAll.ite
      · intro h4
        apply tmDrop_kept (hm.sub rfl)
        apply tmUnslot_kept (hm.sub rfl)
        apply tmUpd_kept (hm.sub rfl)
        apply tmUpd_kept (hm.sub rfl)
        assumption
      · intro h4
        apply SndAll.mk
        apply Kept.snd
        apply tmDrop_kept (hm.sub rfl)
        apply tmUpd_kept (hm.sub rfl)
        assumption

theorem tmDrop_elim {x0 : List ℕ} {s : State} {v0} {t : State} (hm : Has m 0x4000880) (e : (tmDrop x0 s) = (v0, t))
    (hs : Kept m s₀ s) : Kept m s₀ t := by
  have hk := tmDrop_kept hm x0 s hs
  rw [e] at hk
  exact (SndAll.elim hk rfl)

theorem tmNew_kept (hm : Has m 0x4000880) (x0 : ℕ) (x1 : Bool) (s : State)
    (hs : Kept m s₀ s) :
    SndAll (Kept m s₀) (tmNew x0 x1 s) := by
  unfold tmNew
  dsimp only
  apply SndAll.ite
  · intro h2
    apply SndAll.mk
    apply tmUpd_kept (hm.sub rfl)
    assumption
  · intro h2
    split
    · apply SndAll.mk
      assumption
    · apply SndAll.mk
      apply setClaim_kept (hm.sub rfl)
      apply tmUpd_kept (hm.sub rfl)
      assumption

theorem tmNew_elim {x0 : ℕ} {x1 : Bool} {s : State} {v0} {t : State} (hm : Has m 0x4000880) (e : (tmNew x0 x1 s) = (v0, t))
    (hs : Kept m s₀ s) : Kept m s₀ t := by
  have hk := tmNew_kept hm x0 x1 s hs
  rw [e] at hk
  exact (SndAll.elim hk rfl)

theorem tmPromote_kept (hm : Has m 0x4000882) (x0 : ℕ) (s : State)
    (hs : Kept m s₀ s) :
    SndAll (Kept m s₀) (tmPromote x0 s) := by
  unfold tmPromote
  split
  · apply SndAll.mk
    assumption
  · split
    · apply SndAll.mk
      assumption
    · dsimp only
      split
      · apply tmPromote_kept (hm.sub rfl)
        apply tmRefuse_kept (hm.sub rfl)
        apply tmUpd_kept (hm.sub rfl)
        assumption
      · apply SndAll.ite
        · intro h5
          apply SndAll.mk
          assumption
        · intro h5
          split
          · apply SndAll.mk
            apply tmNew_elim (hm.sub rfl) (by assumption)
            assumption
          · apply SndAll.mk
            apply Kept.snd
            apply tmPromote_kept (hm.sub rfl)
            apply tmUpd_kept (hm.sub rfl)
            apply tmUpd_kept (hm.sub rfl)
            apply tmNew_elim (hm.sub rfl) (by assumption)
            assumption

theorem tmPromote_elim {x0 : ℕ} {s : State} {v0} {t : State} (hm : Has m 0x4000882) (e : (tmPromote x0 s) = (v0, t))
    (hs : Kept m s₀ s) : Kept m s₀ t := by
  have hk := tmPromote_kept hm x0 s hs
  rw [e] at hk
  exact (SndAll.elim hk rfl)

theorem tmTakeReserve_kept (hm : Has m 0x4000880) (x0 : ℕ) (s : State)
    (hs : Kept m s₀ s) :
    Kept m s₀ (tmTakeReserve x0 s) := by
  unfold tmTakeReserve
  split
  · apply tmUpd_kept (hm.sub rfl)
    apply setClaim_kept (hm.sub rfl)
    assumption
  · assumption

theorem tmArm_kept (hm : Has m 0x44008e8) (x0 : ℕ) (x1 : ℕ) (x2 : ℕ) (x3 : Instant) (s : State)
    (hs : Kept m s₀ s) :
    Kept m s₀ (tmArm x0 x1 x2 x3 s) := by
  unfold tmArm
  dsimp only
  split
  · apply armDevice_elim (hm.sub rfl) (by assumption)
    apply tmTakeReserve_kept (hm.sub rfl)
    assumption
  · apply tmUpd_kept (hm.sub rfl)
    assumption

theorem tmRefillTrunk_kept (hm : Has m 0x4000880) (x0 : ℕ) (x1 : ℕ) (s : State)
    (hs : Kept m s₀ s) :
    Kept m s₀ (tmRefillTrunk x0 x1 s) := by
  unfold tmRefillTrunk
  split
  · assumption
  · apply Kept.ite
    · exact fun _ => by assumption
    · intro h2
      split
      · assumption
      · apply tmRefillTrunk_kept (hm.sub rfl)
        apply tmUpd_kept (hm.sub rfl)
        apply setClaim_kept (hm.sub rfl)
        assumption

theorem tmRefill_kept (hm : Has m 0x4000880) (s : State)
    (hs : Kept m s₀ s) :
    Kept m s₀ (tmRefill s) := by
  unfold tmRefill
  apply Kept.foldl
  · intro s1 b2 h3
    apply tmRefillTrunk_kept (hm.sub rfl)
    assumption
  · assumption

theorem tmArmAll_kept (hm : Has m 0x44008e8) (x0 : Decision) (x1 : Instant) (s : State)
    (hs : Kept m s₀ s) :
    Kept m s₀ (tmArmAll x0 x1 s) := by
  unfold tmArmAll
  dsimp only
  apply tmRefill_kept (hm.sub rfl)
  apply Kept.foldl
  · intro s3 b4 h5
    apply Kept.ite
    · exact fun _ => by assumption
    · intro h7
      apply tmArm_kept (hm.sub rfl)
      assumption
  · apply Kept.foldl
    · intro s4 b5 h6
      apply tmArm_kept (hm.sub rfl)
      apply tmArm_kept (hm.sub rfl)
      assumption
    · apply Kept.foldl
      · intro s5 b6 h7
        apply Kept.ite
        · intro h9
          apply tmArm_kept (hm.sub rfl)
          apply tmArm_kept (hm.sub rfl)
          assumption
        · intro h9
          apply tmArm_kept (hm.sub rfl)
          assumption
      · assumption

theorem tmSchedule_kept (hm : Has m 0x44008e8) (x0 : Decision) (s : State)
    (hs : Kept m s₀ s) :
    Kept m s₀ (tmSchedule x0 s) := by
  unfold tmSchedule
  split
  · apply tmUpd_kept (hm.sub rfl)
    assumption
  · dsimp only
    apply tmArmAll_kept (hm.sub rfl)
    apply tmUpd_kept (hm.sub rfl)
    refine Kept.mix_put (hm.sub rfl) ?_
    assumption

theorem tmDecide_kept (hm : Has m 0x44008ea) (x0 : List Talker) (x1 : List ℕ) (x2 : Bool) (x3 : Option Bool) (s : State)
    (hs : Kept m s₀ s) :
    Kept m s₀ (tmDecide x0 x1 x2 x3 s) := by
  unfold tmDecide
  dsimp only
  apply Kept.ite
  · intro h2
    apply Kept.snd
    apply SndAll.ite
    · intro h5
      apply tmPromote_kept (hm.sub rfl)
      apply tmUpd_kept (hm.sub rfl)
      apply Kept.snd
      apply tmDrop_kept (hm.sub rfl)
      assumption
    · intro h5
      apply SndAll.mk
      apply tmUpd_kept (hm.sub rfl)
      apply Kept.snd
      apply tmDrop_kept (hm.sub rfl)
      assumption
  · intro h2
    apply tmSchedule_kept (hm.sub rfl)
    apply Kept.snd
    apply SndAll.ite
    · intro h6
      apply tmPromote_kept (hm.sub rfl)
      apply tmUpd_kept (hm.sub rfl)
      apply Kept.snd
      apply tmDrop_kept (hm.sub rfl)
      assumption
    · intro h6
      apply SndAll.mk
      apply tmUpd_kept (hm.sub rfl)
      apply Kept.snd
      apply tmDrop_kept (hm.sub rfl)
      assumption

theorem execVoiceHangExpiry_kept (hm : Has m 0x44008ea) (x0 : ℕ) (s : State)
    (hs : Kept m s₀ s) :
    ResAll (Kept m s₀) (execVoiceHangExpiry x0 s) := by
  unfold execVoiceHangExpiry
  split
  · apply ResAll.ite
    · intro h2
      apply ResAll.next
      apply tmDecide_kept (hm.sub rfl)
      assumption
    · intro h2
      apply ResAll.next
      assumption
  · apply ResAll.next
    assumption

theorem deskDecide_kept (hm : Has m 0x44008e8) (x0 : ℕ) (x1 : Option (ℕ × Talker)) (s : State)
    (hs : Kept m s₀ s) :
    Kept m s₀ (deskDecide x0 x1 s) := by
  unfold deskDecide
  dsimp only
  apply Kept.ite
  · intro h2
    apply langUpd_kept (hm.sub rfl)
    assumption
  · intro h2
    apply tmSchedule_kept (hm.sub rfl)
    apply langUpd_kept (hm.sub rfl)
    assumption

theorem deskSpeak_kept (hm : Has m 0x44008ea) (x0 : ℕ) (s : State)
    (hs : Kept m s₀ s) :
    Kept m s₀ (deskSpeak x0 s) := by
  unfold deskSpeak
  split
  · apply tmRefuse_kept (hm.sub rfl)
    assumption
  · dsimp only
    split
    · apply tmRefuse_kept (hm.sub rfl)
      assumption
    · split
      · apply deskDecide_kept (hm.sub rfl)
        assumption
      · apply Kept.ite
        · intro h5
          apply tmRefuse_kept (hm.sub rfl)
          assumption
        · intro h5
          apply deskDecide_kept (hm.sub rfl)
          assumption

theorem grant_kept (hm : Has m 0x44008ea) (x0 : ℕ) (s : State)
    (hs : Kept m s₀ s) :
    Kept m s₀ (grant x0 s) := by
  unfold grant
  apply Kept.ite
  · exact fun _ => by assumption
  · intro h1
    apply Kept.ite
    · intro h3
      apply upd_kept (hm.sub rfl)
      · intro y05 h6
        apply deskSpeak_kept (hm.sub rfl)
        assumption
      · assumption
    · intro h3
      split
      · apply tmDecide_kept (hm.sub rfl)
        apply tmNew_elim (hm.sub rfl) (by assumption)
        apply tmUpd_kept (hm.sub rfl)
        assumption
      · apply tmNew_elim (hm.sub rfl) (by assumption)
        apply tmUpd_kept (hm.sub rfl)
        assumption

theorem tmChair_kept (hm : Has m 0x44008ea) (x0 : ℕ) (x1 : Option Bool) (s : State)
    (hs : Kept m s₀ s) :
    Kept m s₀ (tmChair x0 x1 s) := by
  unfold tmChair
  split
  · dsimp only
    apply tmDecide_kept (hm.sub rfl)
    apply tmNew_elim (hm.sub rfl) (by assumption)
    assumption
  · dsimp only
    apply tmDecide_kept (hm.sub rfl)
    apply tmUpd_kept (hm.sub rfl)
    apply bump_kept (hm.sub rfl)
    apply tmNew_elim (hm.sub rfl) (by assumption)
    assumption

theorem tmRetry_kept (hm : Has m 0x44008e8) (s : State)
    (hs : Kept m s₀ s) :
    Kept m s₀ (tmRetry s) := by
  unfold tmRetry
  dsimp only
  apply Kept.foldl
  · intro s2 b3 h4
    apply Kept.ite
    · exact fun _ => by assumption
    · intro h6
      apply tmSchedule_kept (hm.sub rfl)
      assumption
  · apply tmUpd_kept (hm.sub rfl)
    assumption

theorem candUpd_kept (hm : Has m 0x800) (x0 : ℕ) (x1 : Cand → Cand) (s : State)
    (hs : Kept m s₀ s) :
    Kept m s₀ (candUpd x0 x1 s) := by
  unfold candUpd
  refine Kept.mix_put (hm.sub rfl) ?_
  assumption

theorem candAssign_kept (hm : Has m 0x802) (x0 : ℕ) (x1 : Option ℕ) (s : State)
    (hs : Kept m s₀ s) :
    Kept m s₀ (candAssign x0 x1 s) := by
  unfold candAssign
  dsimp only
  apply candUpd_kept (hm.sub rfl)
  apply wr_kept (hm.sub rfl)
  apply wr_kept (hm.sub rfl)
  apply wr_kept (hm.sub rfl)
  apply upd_kept (hm.sub rfl)
  · intro y06 h7
    apply bump_kept (hm.sub rfl)
    assumption
  · assumption

theorem presel3_kept (hm : Has m 0x802) (x0 : List ℕ) (x1 : ℕ) (x2 : List ℕ) (s : State)
    (hs : Kept m s₀ s) :
    Kept m s₀ (presel3 x0 x1 x2 s) := by
  unfold presel3
  split
  · assumption
  · dsimp only
    split
    · assumption
    · split
      · apply presel3_kept (hm.sub rfl)
        apply candAssign_kept (hm.sub rfl)
        assumption
      · split
        · assumption
        · apply Kept.ite
          · intro h6
            apply presel3_kept (hm.sub rfl)
            apply candAssign_kept (hm.sub rfl)
            assumption
          · exact fun _ => by assumption

theorem presel2_kept (hm : Has m 0x802) (x0 : List ℕ) (s : State)
    (hs : Kept m s₀ s) :
    Kept m s₀ (presel2 x0 s) := by
  unfold presel2
  split
  · assumption
  · apply Kept.ite
    · intro h2
      apply presel2_kept (hm.sub rfl)
      assumption
    · intro h2
      split
      · apply presel2_kept (hm.sub rfl)
        apply candAssign_kept (hm.sub rfl)
        assumption
      · split
        · apply presel2_kept (hm.sub rfl)
          apply candAssign_kept (hm.sub rfl)
          assumption
        · assumption

theorem presel1_kept (hm : Has m 0x802) (s : State) (x1 : ℕ)
    (hs : Kept m s₀ s) :
    Kept m s₀ (presel1 s x1) := by
  unfold presel1
  apply Kept.ite
  · exact fun _ => by assumption
  · intro h1
    split
    · apply candAssign_kept (hm.sub rfl)
      assumption
    · split
      · apply candAssign_kept (hm.sub rfl)
        assumption
      · assumption

theorem legAudioUpd_kept (hm : Has m 0x800) (x0 : ℕ) (x1 : LegAudio → LegAudio) (s : State)
    (hs : Kept m s₀ s) :
    Kept m s₀ (legAudioUpd x0 x1 s) := by
  unfold legAudioUpd
  refine Kept.mix_put (hm.sub rfl) ?_
  assumption

theorem voiceQuiet_kept (hm : Has m 0x800) (s : State)
    (hs : Kept m s₀ s) :
    Kept m s₀ (voiceQuiet s) := by
  unfold voiceQuiet
  apply Kept.foldl
  · intro s1 b2 h3
    dsimp only
    apply legAudioUpd_kept (hm.sub rfl)
    assumption
  · assumption

theorem voiceOpen_kept (hm : Has m 0x44008ea) (s : State)
    (hs : Kept m s₀ s) :
    Kept m s₀ (voiceOpen s) := by
  unfold voiceOpen
  apply Kept.ite
  · exact fun _ => by assumption
  · intro h1
    dsimp only
    apply Kept.foldl
    · intro s4 b5 h6
      split
      · apply tmDecide_kept (hm.sub rfl)
        apply tmNew_elim (hm.sub rfl) (by assumption)
        assumption
      · apply tmNew_elim (hm.sub rfl) (by assumption)
        assumption
    · assumption

theorem preselection_kept (hm : Has m 0x44008ea) (s : State)
    (hs : Kept m s₀ s) :
    Kept m s₀ (preselection s) := by
  unfold preselection
  dsimp only
  refine Kept.mix_put (hm.sub rfl) ?_
  apply voiceQuiet_kept (hm.sub rfl)
  apply voiceOpen_kept (hm.sub rfl)
  apply tmRetry_kept (hm.sub rfl)
  apply Kept.foldl
  · intro s6 b7 h8
    split
    · apply wr_kept (hm.sub rfl)
      assumption
    · assumption
  · apply Kept.foldl
    · intro s7 b8 h9
      split
      · apply wr_kept (hm.sub rfl)
        assumption
      · apply wr_kept (hm.sub rfl)
        assumption
    · apply presel3_kept (hm.sub rfl)
      apply presel2_kept (hm.sub rfl)
      apply Kept.foldl
      · intro s10 b11 h12
        apply presel1_kept (hm.sub rfl)
        assumption
      · apply Kept.foldl
        · intro s11 b12 h13
          apply candAssign_kept (hm.sub rfl)
          assumption
        · assumption

theorem execPreselection_kept (hm : Has m 0x44008ea) (s : State)
    (hs : Kept m s₀ s) :
    ResAll (Kept m s₀) (execPreselection s) := by
  unfold execPreselection
  apply ResAll.next
  apply Kept.ite
  · intro h2
    apply preselection_kept (hm.sub rfl)
    assumption
  · exact fun _ => by assumption

theorem takeAdmitted_kept (hm : Has m 0x40) (x0 : ℕ → Bool) (s : State)
    (hs : Kept m s₀ s) :
    OptAll (SndAll (Kept m s₀)) (takeAdmitted x0 s) := by
  unfold takeAdmitted
  apply OptAll.map
  intro x1 h2
  apply SndAll.mk
  refine Kept.fld_put (hm.sub rfl) ?_
  assumption

theorem takeAdmitted_elim {x0 : ℕ → Bool} {s : State} {v0} {t : State} (hm : Has m 0x40) (e : (takeAdmitted x0 s) = (some (v0, t)))
    (hs : Kept m s₀ s) : Kept m s₀ t := by
  have hk := takeAdmitted_kept hm x0 s hs
  rw [e] at hk
  exact (SndAll.elim (OptAll.elim hk rfl) rfl)

theorem execVoteK_kept (hm : Has m 0x42) (s : State)
    (hs : Kept m s₀ s) :
    ResAll (Kept m s₀) (execVoteK s) := by
  unfold execVoteK
  split
  · apply ResAll.next
    assumption
  · apply ResAll.next
    apply countVote_kept (hm.sub rfl)
    apply takeAdmitted_elim (hm.sub rfl) (by assumption)
    assumption

theorem tmAdopt_kept (hm : Has m 0x4000882) (s : State)
    (hs : Kept m s₀ s) :
    Kept m s₀ (tmAdopt s) := by
  unfold tmAdopt
  dsimp only
  apply tmRetarget_kept (hm.sub rfl)
  apply tmUpd_kept (hm.sub rfl)
  apply Kept.foldl
  · intro s4 b5 h6
    apply Kept.ite
    · exact fun _ => by assumption
    · intro h8
      apply setClaim_kept (hm.sub rfl)
      apply tmUpd_kept (hm.sub rfl)
      assumption
  · assumption

theorem tmPriorityOn_kept (hm : Has m 0x44008ea) (x0 : ℕ) (s : State)
    (hs : Kept m s₀ s) :
    Kept m s₀ (tmPriorityOn x0 s) := by
  unfold tmPriorityOn
  apply Kept.ite
  · exact fun _ => by assumption
  · intro h1
    apply Kept.ite
    · intro h3
      apply tmRefuse_kept (hm.sub rfl)
      assumption
    · intro h3
      dsimp only
      apply Kept.ite
      · intro h6
        apply tmDecide_kept (hm.sub rfl)
        apply tmUpd_kept (hm.sub rfl)
        assumption
      · intro h6
        apply tmChair_kept (hm.sub rfl)
        apply tmUpd_kept (hm.sub rfl)
        assumption

theorem tmFailures_kept (hm : Has m 0x44008ea) (s : State)
    (hs : Kept m s₀ s) :
    Kept m s₀ (tmFailures s) := by
  unfold tmFailures
  dsimp only
  apply Kept.foldl
  · intro s2 b3 h4
    split
    · apply tmRefuse_kept (hm.sub rfl)
      apply deskDecide_kept (hm.sub rfl)
      assumption
    · apply Kept.ite
      · intro h7
        apply tmDecide_kept (hm.sub rfl)
        apply tmRefuse_kept (hm.sub rfl)
        assumption
      · exact fun _ => by assumption
  · apply tmUpd_kept (hm.sub rfl)
    assumption

theorem execTalkerSwitch_kept (hm : Has m 0x44008ea) (s : State)
    (hs : Kept m s₀ s) :
    ResAll (Kept m s₀) (execTalkerSwitch s) := by
  unfold execTalkerSwitch
  split
  · apply ResAll.next
    apply tmFailures_kept (hm.sub rfl)
    assumption
  · apply ResAll.next
    apply tmFailures_kept (hm.sub rfl)
    apply tmApply_kept (hm.sub rfl)
    assumption

theorem tmLeave_kept (hm : Has m 0x4000882) (s : State)
    (hs : Kept m s₀ s) :
    Kept m s₀ (tmLeave s) := by
  unfold tmLeave
  dsimp only
  refine Kept.mix_put (hm.sub rfl) ?_
  apply Kept.foldl
  · intro s3 b4 h5
    apply wr_kept (hm.sub rfl)
    assumption
  · apply Kept.foldl
    · intro s4 b5 h6
      apply setTalk_kept (hm.sub rfl)
      assumption
    · apply Kept.foldl
      · intro s5 b6 h7
        apply wr_kept (hm.sub rfl)
        apply wr_kept (hm.sub rfl)
        assumption
      · apply Kept.foldl
        · intro s6 b7 h8
          apply setClaim_kept (hm.sub rfl)
          assumption
        · assumption

theorem tmQueue_kept (hm : Has m 0x802) (x0 : ℕ) (s : State)
    (hs : Kept m s₀ s) :
    Kept m s₀ (tmQueue x0 s) := by
  unfold tmQueue
  apply Kept.ite
  · intro h1
    apply tmUpd_kept (hm.sub rfl)
    assumption
  · intro h1
    apply tmRefuse_kept (hm.sub rfl)
    assumption

theorem tmDelegate_kept (hm : Has m 0x44008ea) (x0 : ℕ) (s : State)
    (hs : Kept m s₀ s) :
    Kept m s₀ (tmDelegate x0 s) := by
  unfold tmDelegate
  dsimp only
  apply Kept.ite
  · intro h2
    apply tmQueue_kept (hm.sub rfl)
    assumption
  · intro h2
    split
    · apply Kept.ite
      · intro h5
        apply tmQueue_kept (hm.sub rfl)
        apply bump_kept (hm.sub rfl)
        apply tmNew_elim (hm.sub rfl) (by assumption)
        assumption
      · intro h5
        apply tmRefuse_kept (hm.sub rfl)
        apply bump_kept (hm.sub rfl)
        apply tmNew_elim (hm.sub rfl) (by assumption)
        assumption
    · apply Kept.ite
      · intro h5
        apply tmDecide_kept (hm.sub rfl)
        apply tmNew_elim (hm.sub rfl) (by assumption)
        assumption
      · intro h5
        apply Kept.ite
        · intro h7
          apply tmQueue_kept (hm.sub rfl)
          assumption
        · intro h7
          apply Kept.ite
          · intro h9
            apply tmDecide_kept (hm.sub rfl)
            apply tmNew_elim (hm.sub rfl) (by assumption)
            assumption
          · intro h9
            apply tmRefuse_kept (hm.sub rfl)
            assumption

theorem tmSpeak_kept (hm : Has m 0x44008ea) (x0 : ℕ) (s : State)
    (hs : Kept m s₀ s) :
    Kept m s₀ (tmSpeak x0 s) := by
  unfold tmSpeak
  apply Kept.ite
  · intro h1
    apply deskSpeak_kept (hm.sub rfl)
    assumption
  · intro h1
    apply Kept.ite
    · intro h3
      apply tmRefuse_kept (hm.sub rfl)
      assumption
    · intro h3
      apply Kept.ite
      · exact fun _ => by assumption
      · intro h5
        split
        · apply tmRefuse_kept (hm.sub rfl)
          assumption
        · apply tmChair_kept (hm.sub rfl)
          assumption
        · apply tmDelegate_kept (hm.sub rfl)
          assumption

theorem setLanguage_kept (hm : Has m 0x42) (x0 : ℕ) (x1 : ℕ) (s : State)
    (hs : Kept m s₀ s) :
    Kept m s₀ (setLanguage x0 x1 s) := by
  unfold setLanguage
  apply pushCtrl_kept (hm.sub rfl)
  apply wr_kept (hm.sub rfl)
  assumption

theorem execCandidateConcealEnd_kept (hm : Has m 0x800) (x0 : Fin 64) (s : State)
    (hs : Kept m s₀ s) :
    ResAll (Kept m s₀) (execCandidateConcealEnd x0 s) := by
  unfold execCandidateConcealEnd
  dsimp only
  apply ResAll.ite
  · intro h2
    apply ResAll.next
    assumption
  · intro h2
    apply ResAll.next
    apply candUpd_kept (hm.sub rfl)
    assumption

theorem writeTmGrant_kept (hm : Has m 0x64639fa) (x0 : Inst) (x1 : ℕ) (x2 : ℕ) (s : State)
    (hs : Kept m s₀ s) :
    Kept m s₀ (writeTmGrant x0 x1 x2 s) := by
  unfold writeTmGrant
  dsimp only
  apply runCmdV_kept (hm.sub rfl)
  · intro y02 h3
    apply grant_kept (hm.sub rfl)
    assumption
  · apply upd_kept (hm.sub rfl)
    · intro y03 h4
      apply bump_kept (hm.sub rfl)
      assumption
    · assumption

theorem legLeaves_kept (hm : Has m 0x44008ea) (x0 : ℕ) (s : State)
    (hs : Kept m s₀ s) :
    Kept m s₀ (legLeaves x0 s) := by
  unfold legLeaves
  dsimp only
  split
  · apply candAssign_kept (hm.sub rfl)
    apply Kept.ite
    · intro h4
      apply tmDecide_kept (hm.sub rfl)
      apply tmUpd_kept (hm.sub rfl)
      assumption
    · intro h4
      apply tmUpd_kept (hm.sub rfl)
      assumption
  · apply Kept.ite
    · intro h3
      apply tmDecide_kept (hm.sub rfl)
      apply tmUpd_kept (hm.sub rfl)
      assumption
    · intro h3
      apply tmUpd_kept (hm.sub rfl)
      assumption

theorem tmFollow_kept (hm : Has m 0x44008ea) (s : State)
    (hs : Kept m s₀ s) :
    Kept m s₀ (tmFollow s) := by
  unfold tmFollow
  apply Kept.ite
  · intro h1
    apply tmDecide_kept (hm.sub rfl)
    assumption
  · exact fun _ => by assumption

theorem tmPriorityOff_kept (hm : Has m 0x44008ea) (x0 : ℕ) (s : State)
    (hs : Kept m s₀ s) :
    Kept m s₀ (tmPriorityOff x0 s) := by
  unfold tmPriorityOff
  dsimp only
  apply Kept.ite
  · exact fun _ => by assumption
  · intro h2
    apply Kept.ite
    · intro h4
      apply tmDecide_kept (hm.sub rfl)
      apply Kept.ite
      · intro h7
        apply tmUpd_kept (hm.sub rfl)
        apply tmUpd_kept (hm.sub rfl)
        assumption
      · intro h7
        apply tmUpd_kept (hm.sub rfl)
        assumption
    · intro h4
      apply tmDecide_kept (hm.sub rfl)
      apply Kept.ite
      · intro h7
        apply tmUpd_kept (hm.sub rfl)
        apply tmUpd_kept (hm.sub rfl)
        assumption
      · intro h7
        apply tmUpd_kept (hm.sub rfl)
        assumption

theorem execMessage_kept (hm : Has m 0x40) (s : State)
    (hs : Kept m s₀ s) :
    ResAll (Kept m s₀) (execMessage s) := by
  unfold execMessage
  split
  · apply ResAll.next
    assumption
  · apply ResAll.next
    apply pushCtrl_kept (hm.sub rfl)
    apply takeAdmitted_elim (hm.sub rfl) (by assumption)
    assumption

theorem candInputs_kept (hm : Has m 0x800) (s : State)
    (hs : Kept m s₀ s) :
    Kept m s₀ (candInputs s) := by
  unfold candInputs
  apply Kept.foldl
  · intro s1 b2 h3
    apply Kept.ite
    · intro h5
      apply setInputs_kept (hm.sub rfl)
      assumption
    · intro h5
      dsimp only
      apply setInputs_kept (hm.sub rfl)
      apply candUpd_kept (hm.sub rfl)
      assumption
  · assumption

theorem execEndpointChange_kept (hm : Has m 0x40) (s : State)
    (hs : Kept m s₀ s) :
    ResAll (Kept m s₀) (execEndpointChange s) := by
  unfold execEndpointChange
  split
  · apply ResAll.next
    assumption
  · apply ResAll.next
    apply pushCtrl_kept (hm.sub rfl)
    apply takeAdmitted_elim (hm.sub rfl) (by assumption)
    assumption

theorem handleEvent_kept (hm : Has m 0x40) (x0 : ℕ) (x1 : ℕ → State → State) (x2 : ℕ → State → State) (s : State)
    (hf1 : ∀ y0 y1, Kept m s₀ y1 → (Kept m s₀) (x1 y0 y1)) (hf2 : ∀ y0 y1, Kept m s₀ y1 → (Kept m s₀) (x2 y0 y1)) (hs : Kept m s₀ s) :
    Kept m s₀ (handleEvent x0 x1 x2 s) := by
  unfold handleEvent
  split
  · assumption
  · apply Kept.ite
    · intro h2
      apply Kept.ite
      · intro h4
        apply hf1
        apply takeAdmitted_elim (hm.sub rfl) (by assumption)
        assumption
      · intro h4
        apply takeAdmitted_elim (hm.sub rfl) (by assumption)
        assumption
    · intro h2
      apply hf2
      apply takeAdmitted_elim (hm.sub rfl) (by assumption)
      assumption

theorem execReqSpeak_kept (hm : Has m 0x44008ea) (s : State)
    (hs : Kept m s₀ s) :
    ResAll (Kept m s₀) (execReqSpeak s) := by
  unfold execReqSpeak
  apply ResAll.next
  apply handleEvent_kept (hm.sub rfl)
  · intro y02 y13 h4
    apply tmSpeak_kept (hm.sub rfl)
    assumption
  · intro y02 y13 h4
    apply hdReqSpeak_kept (hm.sub rfl)
    assumption
  · assumption

theorem deskEn_kept (hm : Has m 0x44008ea) (x0 : ℕ) (x1 : Bool) (s : State)
    (hs : Kept m s₀ s) :
    Kept m s₀ (deskEn x0 x1 s) := by
  unfold deskEn
  dsimp only
  apply Kept.ite
  · intro h2
    apply setLanguage_kept (hm.sub rfl)
    apply wr_kept (hm.sub rfl)
    assumption
  · intro h2
    apply Kept.ite
    · intro h4
      apply deskDecide_kept (hm.sub rfl)
      apply wr_kept (hm.sub rfl)
      assumption
    · intro h4
      apply wr_kept (hm.sub rfl)
      assumption

theorem execFault_kept (hm : Has m 0x40) (s : State)
    (hs : Kept m s₀ s) :
    ResAll (Kept m s₀) (execFault s) := by
  unfold execFault
  split
  · apply ResAll.next
    assumption
  · apply ResAll.next
    apply pushCtrl_kept (hm.sub rfl)
    apply takeAdmitted_elim (hm.sub rfl) (by assumption)
    assumption

theorem execLanguageFallback_kept (hm : Has m 0x800) (x0 : ℕ) (s : State)
    (hs : Kept m s₀ s) :
    ResAll (Kept m s₀) (execLanguageFallback x0 s) := by
  unfold execLanguageFallback
  dsimp only
  apply ResAll.ite
  · intro h2
    apply ResAll.next
    assumption
  · intro h2
    apply ResAll.next
    apply langFade_kept (hm.sub rfl)
    assumption

theorem tmCancel_kept (hm : Has m 0x44008ea) (x0 : ℕ) (s : State)
    (hs : Kept m s₀ s) :
    Kept m s₀ (tmCancel x0 s) := by
  unfold tmCancel
  split
  · apply Kept.ite
    · exact fun _ => by assumption
    · intro h2
      apply deskDecide_kept (hm.sub rfl)
      assumption
  · apply Kept.ite
    · intro h2
      apply tmDecide_kept (hm.sub rfl)
      assumption
    · intro h2
      apply Kept.ite
      · intro h4
        apply tmUpd_kept (hm.sub rfl)
        assumption
      · intro h4
        apply tmRefuse_kept (hm.sub rfl)
        assumption

theorem legAudioPacket_kept (hm : Has m 0x802) (x0 : ℕ) (x1 : ℕ) (x2 : ℕ) (x3 : Bytes) (s : State)
    (hs : Kept m s₀ s) :
    Kept m s₀ (legAudioPacket x0 x1 x2 x3 s) := by
  unfold legAudioPacket
  dsimp only
  split
  · apply wr_kept (hm.sub rfl)
    apply legAudioUpd_kept (hm.sub rfl)
    assumption
  · apply candUpd_kept (hm.sub rfl)
    apply legAudioUpd_kept (hm.sub rfl)
    apply wr_kept (hm.sub rfl)
    apply legAudioUpd_kept (hm.sub rfl)
    assumption

theorem execPriorityOn_kept (hm : Has m 0x44008ea) (s : State)
    (hs : Kept m s₀ s) :
    ResAll (Kept m s₀) (execPriorityOn s) := by
  unfold execPriorityOn
  apply ResAll.next
  apply handleEvent_kept (hm.sub rfl)
  · intro y02 y13 h4
    apply tmPriorityOn_kept (hm.sub rfl)
    assumption
  · intro y02 y13 h4
    apply hdPriorityOn_kept (hm.sub rfl)
    assumption
  · assumption

theorem tmEnter_kept (hm : Has m 0x4000882) (s : State)
    (hs : Kept m s₀ s) :
    Kept m s₀ (tmEnter s) := by
  unfold tmEnter
  apply tmRefill_kept (hm.sub rfl)
  apply Kept.foldl
  · intro s2 b3 h4
    apply setTalk_kept (hm.sub rfl)
    assumption
  · assumption

theorem writeDeskEn_kept (hm : Has m 0x64639fa) (x0 : Inst) (x1 : ℕ) (x2 : Fin 256) (x3 : Bool) (s : State)
    (hs : Kept m s₀ s) :
    Kept m s₀ (writeDeskEn x0 x1 x2 x3 s) := by
  unfold writeDeskEn
  apply runWrite_kept (hm.sub rfl)
  · intro y01 h2
    apply deskEn_kept (hm.sub rfl)
    assumption
  · assumption

theorem writeTmClose_kept (hm : Has m 0x64639fa) (x0 : Inst) (x1 : ℕ) (x2 : ℕ) (s : State)
    (hs : Kept m s₀ s) :
    Kept m s₀ (writeTmClose x0 x1 x2 s) := by
  unfold writeTmClose
  apply runCmdV_kept (hm.sub rfl)
  · intro y01 h2
    apply tmCancel_kept (hm.sub rfl)
    assumption
  · assumption

theorem relaySend_kept (hm : Has m 0x42) (x0 : ℕ) (s : State)
    (hs : Kept m s₀ s) :
    Kept m s₀ (relaySend x0 s) := by
  unfold relaySend
  apply Kept.foldl
  · intro s1 b2 h3
    apply Kept.ite
    · intro h5
      apply setLanguage_kept (hm.sub rfl)
      assumption
    · exact fun _ => by assumption
  · assumption

theorem hubReport_kept (hm : Has m 0x44008ea) (x0 : ℕ) (x1 : ℕ) (x2 : ℕ) (x3 : ℕ) (x4 : ℕ) (s : State)
    (hs : Kept m s₀ s) :
    Kept m s₀ (hubReport x0 x1 x2 x3 x4 s) := by
  unfold hubReport
  dsimp only
  apply Kept.ite
  · intro h2
    apply tmRefill_kept (hm.sub rfl)
    apply tmFollow_kept (hm.sub rfl)
    apply tmFailures_kept (hm.sub rfl)
    apply Kept.ite
    · intro h7
      apply setTalk_kept (hm.sub rfl)
      apply launchReport_kept (hm.sub rfl)
      assumption
    · intro h7
      apply launchReport_kept (hm.sub rfl)
      assumption
  · intro h2
    apply launchReport_kept (hm.sub rfl)
    assumption

theorem execLaunchReport_kept (hm : Has m 0x44008ea) (x0 : LHdr) (x1 : ℕ) (x2 : ℕ) (x3 : ℕ) (x4 : ℕ) (x5 : ℕ) (s : State)
    (hs : Kept m s₀ s) :
    ResAll (Kept m s₀) (execLaunchReport x0 x1 x2 x3 x4 x5 s) := by
  unfold execLaunchReport
  apply onLanok_kept (hm.sub rfl)
  · intro y01 h2
    apply hubGets_kept (hm.sub rfl)
    · intro y04 h5
      apply hubReport_kept (hm.sub rfl)
      assumption
    · assumption
  · assumption

theorem execReqCancel_kept (hm : Has m 0x44008ea) (s : State)
    (hs : Kept m s₀ s) :
    ResAll (Kept m s₀) (execReqCancel s) := by
  unfold execReqCancel
  apply ResAll.next
  apply handleEvent_kept (hm.sub rfl)
  · intro y02 y13 h4
    apply tmCancel_kept (hm.sub rfl)
    assumption
  · intro y02 y13 h4
    apply hdReqCancel_kept (hm.sub rfl)
    assumption
  · assumption

theorem writeTmClearQueue_kept (hm : Has m 0x24639da) (x0 : Inst) (x1 : ℕ) (s : State)
    (hs : Kept m s₀ s) :
    Kept m s₀ (writeTmClearQueue x0 x1 s) := by
  unfold writeTmClearQueue
  apply runCmd_kept (hm.sub rfl)
  · intro y01 h2
    apply tmUpd_kept (hm.sub rfl)
    assumption
  · assumption

theorem execPriorityOff_kept (hm : Has m 0x44008ea) (s : State)
    (hs : Kept m s₀ s) :
    ResAll (Kept m s₀) (execPriorityOff s) := by
  unfold execPriorityOff
  apply ResAll.next
  apply handleEvent_kept (hm.sub rfl)
  · intro y02 y13 h4
    apply tmPriorityOff_kept (hm.sub rfl)
    assumption
  · intro y02 y13 h4
    apply hdPriorityOff_kept (hm.sub rfl)
    assumption
  · assumption

end Sys2Proof.Machine
end

