-- ==== Sys2Proof/Laws/KeptPkt.lean ====
section
/-! SUPPORT. Every effect of Machine/Pkt.lean keeps what `Kept` says. -/
set_option Elab.async false
namespace Sys2Proof.Machine

variable {m : Nat} {s₀ : State}

theorem poolRecovery_kept (hm : Has m 0x2300a) (s : State)
    (hs : Kept m s₀ s) :
    Kept m s₀ (poolRecovery s) := by
  unfold poolRecovery
  dsimp only
  apply wr_kept (hm.sub rfl)
  apply bump_kept (hm.sub rfl)
  refine Kept.pkt_put (hm.sub rfl) ?_
  apply Kept.foldl
  · intro s5 b6 h7
    apply flushQueue_kept (hm.sub rfl)
    assumption
  · assumption

theorem poolUpset_kept (hm : Has m 0x2300a) (s : State)
    (hs : Kept m s₀ s) :
    Kept m s₀ (poolUpset s) := by
  unfold poolUpset
  dsimp only
  apply Kept.ite
  · intro h2
    apply poolRecovery_kept (hm.sub rfl)
    refine Kept.pkt_put (hm.sub rfl) ?_
    assumption
  · intro h2
    refine Kept.pkt_put (hm.sub rfl) ?_
    assumption

theorem linkError_kept (hm : Has m 0x2300a) (x0 : ℕ) (s : State)
    (hs : Kept m s₀ s) :
    Kept m s₀ (linkError x0 s) := by
  unfold linkError
  apply poolUpset_kept (hm.sub rfl)
  apply bump_kept (hm.sub rfl)
  apply flushQueue_kept (hm.sub rfl)
  assumption

theorem execOrphanAudit_kept (hm : Has m 0x1002) (x0 : ℕ) (s : State)
    (hs : Kept m s₀ s) :
    ResAll (Kept m s₀) (execOrphanAudit x0 s) := by
  unfold execOrphanAudit
  apply ResAll.ite
  · intro h1
    apply ResAll.next
    assumption
  · intro h1
    apply ResAll.next
    apply bumpBy_kept (hm.sub rfl)
    refine Kept.pkt_put (hm.sub rfl) ?_
    assumption

theorem fecSecond_kept (hm : Has m 0x2) (x0 : ℕ) (x1 : ℕ) (x2 : ℕ) (s : State)
    (hs : Kept m s₀ s) :
    Kept m s₀ (fecSecond x0 x1 x2 s) := by
  unfold fecSecond
  apply bumpBy_kept (hm.sub rfl)
  apply bumpBy_kept (hm.sub rfl)
  assumption

theorem poolReturns_kept (hm : Has m 0x2300a) (s : State)
    (hs : Kept m s₀ s) :
    Kept m s₀ (poolReturns s) := by
  unfold poolReturns
  apply settle_kept (hm.sub rfl)
  apply wr_kept (hm.sub rfl)
  assumption

theorem poolTested_kept (hm : Has m 0xc230da) (x0 : ℕ) (s : State)
    (hs : Kept m s₀ s) :
    Kept m s₀ (poolTested x0 s) := by
  unfold poolTested
  dsimp only
  apply Kept.ite
  · intro h2
    apply cmdComplete_kept (hm.sub rfl)
    refine Kept.pkt_put (hm.sub rfl) ?_
    apply Kept.ite
    · intro h6
      apply poolReturns_kept (hm.sub rfl)
      apply wr_kept (hm.sub rfl)
      assumption
    · intro h6
      apply summary_kept (hm.sub rfl)
      apply wr_kept (hm.sub rfl)
      assumption
  · intro h2
    apply Kept.ite
    · intro h4
      apply poolReturns_kept (hm.sub rfl)
      apply wr_kept (hm.sub rfl)
      assumption
    · intro h4
      apply summary_kept (hm.sub rfl)
      apply wr_kept (hm.sub rfl)
      assumption

theorem spillAll_kept (hm : Has m 0x2300a) (s : State)
    (hs : Kept m s₀ s) :
    Kept m s₀ (spillAll s) := by
  unfold spillAll
  dsimp only
  apply settle_kept (hm.sub rfl)
  apply wr_kept (hm.sub rfl)
  refine Kept.pkt_put (hm.sub rfl) ?_
  assumption

theorem writePoolTest_kept (hm : Has m 0x24631da) (x0 : Inst) (x1 : ℕ) (s : State)
    (hs : Kept m s₀ s) :
    Kept m s₀ (writePoolTest x0 x1 s) := by
  unfold writePoolTest
  apply runCmd_kept (hm.sub rfl)
  · intro y01 h2
    apply spillAll_kept (hm.sub rfl)
    refine Kept.pkt_put (hm.sub rfl) ?_
    assumption
  · assumption

theorem writeQFlush_kept (hm : Has m 0x24631da) (x0 : Inst) (x1 : ℕ) (s : State)
    (hs : Kept m s₀ s) :
    Kept m s₀ (writeQFlush x0 x1 s) := by
  unfold writeQFlush
  apply runCmd_kept (hm.sub rfl)
  · intro y01 h2
    apply flushQueue_kept (hm.sub rfl)
    assumption
  · assumption

theorem execSpillDrainComplete_kept (hm : Has m 0x2300a) (s : State)
    (hs : Kept m s₀ s) :
    ResAll (Kept m s₀) (execSpillDrainComplete s) := by
  unfold execSpillDrainComplete
  apply ResAll.ite
  · intro h1
    apply ResAll.next
    assumption
  · intro h1
    dsimp only
    apply ResAll.next
    apply settle_kept (hm.sub rfl)
    apply wr_kept (hm.sub rfl)
    refine Kept.pkt_put (hm.sub rfl) ?_
    assumption

theorem execPauseResend_kept (hm : Has m 0x2000) (x0 : Fin 8) (s : State)
    (hs : Kept m s₀ s) :
    ResAll (Kept m s₀) (execPauseResend x0 s) := by
  unfold execPauseResend
  dsimp only
  apply ResAll.ite
  · intro h2
    apply ResAll.next
    apply txPortUpd_kept (hm.sub rfl)
    assumption
  · intro h2
    apply ResAll.next
    assumption

theorem packetBad_kept (hm : Has m 0x2300a) (x0 : ℕ) (s : State)
    (hs : Kept m s₀ s) :
    Kept m s₀ (packetBad x0 s) := by
  unfold packetBad
  apply poolUpset_kept (hm.sub rfl)
  apply bump_kept (hm.sub rfl)
  apply packetUpd_kept (hm.sub rfl)
  assumption

end Sys2Proof.Machine
end

