-- ==== Sys2Proof/Laws/KeptTraffic.lean ====
section
/-! SUPPORT. Every effect of Machine/Traffic.lean keeps what `Kept` says. -/
set_option Elab.async false
namespace Sys2Proof.Machine

variable {m : Nat} {s₀ : State}

/-- The state a port's choice leaves has a property. -/
def PickAll (q : State → Prop) : Pick → Prop
  | .sent s => q s
  | .again s => q s
  | .nothing => True

theorem PickAll.sent {q : State → Prop} {s : State} (h : q s) : PickAll q (.sent s) := h
theorem PickAll.again {q : State → Prop} {s : State} (h : q s) : PickAll q (.again s) := h
theorem PickAll.nothing {q : State → Prop} : PickAll q .nothing := trivial
theorem PickAll.ofSent {q : State → Prop} {p : Pick} {s : State} (h : PickAll q p) (e : p = .sent s) : q s := by
  subst e; exact h
theorem PickAll.ofAgain {q : State → Prop} {p : Pick} {s : State} (h : PickAll q p) (e : p = .again s) : q s := by
  subst e; exact h
theorem PickAll.ite {q : State → Prop} {c : Prop} {_ : Decidable c} {x y : Pick} (h : c → PickAll q x)
    (k : ¬c → PickAll q y) : PickAll q (if c then x else y) := by
  split
  · exact h ‹_›
  · exact k ‹_›

theorem classUpd_kept (hm : Has m 0x2000) (x0 : ℕ) (x1 : ℕ) (x2 : Bucket → Bucket) (s : State)
    (hs : Kept m s₀ s) :
    Kept m s₀ (classUpd x0 x1 x2 s) := by
  unfold classUpd
  apply txPortUpd_kept (hm.sub rfl)
  assumption

theorem classChange_kept (hm : Has m 0x2000) (x0 : ℕ) (x1 : ℕ) (x2 : State → State) (s : State)
    (hf2 : ∀ y0, Kept m s₀ y0 → (Kept m s₀) (x2 y0)) (hs : Kept m s₀ s) :
    Kept m s₀ (classChange x0 x1 x2 s) := by
  unfold classChange
  dsimp only
  apply classUpd_kept (hm.sub rfl)
  apply hf2
  assumption

theorem policed_kept (hm : Has m 0x2) (x0 : ℕ) (x1 : ℕ) (s : State)
    (hs : Kept m s₀ s) :
    SndAll (Kept m s₀) (policed x0 x1 s) := by
  unfold policed
  dsimp only
  apply SndAll.mk
  apply upd_kept (hm.sub rfl)
  · intro y03 h4
    apply bump_kept (hm.sub rfl)
    assumption
  · apply bump_kept (hm.sub rfl)
    assumption

theorem policed_elim {x0 : ℕ} {x1 : ℕ} {s : State} {v0} {t : State} (hm : Has m 0x2) (e : (policed x0 x1 s) = (v0, t))
    (hs : Kept m s₀ s) : Kept m s₀ t := by
  have hk := policed_kept hm x0 x1 s hs
  rw [e] at hk
  exact (SndAll.elim hk rfl)

theorem legWake_kept (hm : Has m 0x2002) (x0 : ℕ) (s : State)
    (hs : Kept m s₀ s) :
    Kept m s₀ (legWake x0 s) := by
  unfold legWake
  dsimp only
  apply Kept.ite
  · exact fun _ => by assumption
  · intro h2
    apply wr_kept (hm.sub rfl)
    apply txPortUpd_kept (hm.sub rfl)
    assumption

theorem wakePort_kept (hm : Has m 0x2002) (x0 : ℕ) (s : State)
    (hs : Kept m s₀ s) :
    Kept m s₀ (wakePort x0 s) := by
  unfold wakePort
  apply Kept.foldl
  · intro s1 b2 h3
    apply legWake_kept (hm.sub rfl)
    assumption
  · assumption

theorem pauseSync_kept (hm : Has m 0x2002) (x0 : ℕ) (s : State)
    (hs : Kept m s₀ s) :
    Kept m s₀ (pauseSync x0 s) := by
  unfold pauseSync
  apply Kept.ite
  · exact fun _ => by assumption
  · intro h1
    dsimp only
    apply wakePort_kept (hm.sub rfl)
    apply wr_kept (hm.sub rfl)
    apply wr_kept (hm.sub rfl)
    apply txPortUpd_kept (hm.sub rfl)
    assumption

theorem pfcIn_kept (hm : Has m 0x2002) (x0 : ℕ) (x1 : ℕ) (x2 : List ℕ) (s : State)
    (hs : Kept m s₀ s) :
    Kept m s₀ (pfcIn x0 x1 x2 s) := by
  unfold pfcIn
  dsimp only
  apply Kept.ite
  · intro h2
    apply bump_kept (hm.sub rfl)
    assumption
  · intro h2
    apply pauseSync_kept (hm.sub rfl)
    apply txPortUpd_kept (hm.sub rfl)
    apply bump_kept (hm.sub rfl)
    assumption

theorem transmit_kept (hm : Has m 0x2303a) (x0 : ℕ) (x1 : ℕ) (x2 : Option ℕ) (x3 : TxFrame) (s : State)
    (hs : Kept m s₀ s) :
    Kept m s₀ (transmit x0 x1 x2 x3 s) := by
  unfold transmit
  dsimp only
  split
  · apply ptpSent_kept (hm.sub rfl)
    apply emit_kept (hm.sub rfl)
    apply emit_kept (hm.sub rfl)
    apply Kept.ite
    · intro h6
      apply bumpBy_kept (hm.sub rfl)
      apply bump_kept (hm.sub rfl)
      apply txPortUpd_kept (hm.sub rfl)
      assumption
    · intro h6
      apply bumpBy_kept (hm.sub rfl)
      apply bump_kept (hm.sub rfl)
      apply txPortUpd_kept (hm.sub rfl)
      assumption
  · apply emit_kept (hm.sub rfl)
    apply emit_kept (hm.sub rfl)
    apply Kept.ite
    · intro h5
      apply bumpBy_kept (hm.sub rfl)
      apply bump_kept (hm.sub rfl)
      apply txPortUpd_kept (hm.sub rfl)
      assumption
    · intro h5
      apply bumpBy_kept (hm.sub rfl)
      apply bump_kept (hm.sub rfl)
      apply txPortUpd_kept (hm.sub rfl)
      assumption

theorem sendPause_kept (hm : Has m 0x2303a) (x0 : ℕ) (x1 : ℕ) (s : State)
    (hs : Kept m s₀ s) :
    Kept m s₀ (sendPause x0 x1 s) := by
  unfold sendPause
  dsimp only
  apply bump_kept (hm.sub rfl)
  apply txPortUpd_kept (hm.sub rfl)
  apply transmit_kept (hm.sub rfl)
  assumption

theorem readEntry_kept (hm : Has m 0x2300a) (x0 : ℕ) (x1 : ℕ) (x2 : QEntry) (s : State)
    (hs : Kept m s₀ s) :
    OptAll (Kept m s₀) (readEntry x0 x1 x2 s) := by
  unfold readEntry
  dsimp only
  apply OptAll.ite
  · intro h2
    apply OptAll.some
    apply linkError_kept (hm.sub rfl)
    assumption
  · intro h2
    apply OptAll.ite
    · intro h4
      apply OptAll.some
      apply dropEntry_kept (hm.sub rfl)
      split
      · apply bump_kept (hm.sub rfl)
        apply packetBad_kept (hm.sub rfl)
        assumption
      · apply packetBad_kept (hm.sub rfl)
        assumption
    · intro h4
      apply OptAll.ite
      · intro h6
        apply OptAll.some
        apply dropEntry_kept (hm.sub rfl)
        split
        · apply bump_kept (hm.sub rfl)
          assumption
        · assumption
      · exact fun _ => OptAll.none

theorem readEntry_elim {x0 : ℕ} {x1 : ℕ} {x2 : QEntry} {s : State}  {t : State} (hm : Has m 0x2300a) (e : (readEntry x0 x1 x2 s) = (some t))
    (hs : Kept m s₀ s) : Kept m s₀ t := by
  have hk := readEntry_kept hm x0 x1 x2 s hs
  rw [e] at hk
  exact (OptAll.elim hk rfl)

theorem pickClass_kept (hm : Has m 0x2303a) (x0 : ℕ) (x1 : ℕ) (x2 : ℕ) (s : State) (x4 : List ℕ)
    (hs : Kept m s₀ s) :
    PickAll (Kept m s₀) (pickClass x0 x1 x2 s x4) := by
  unfold pickClass
  split
  · exact PickAll.nothing
  · split
    · apply pickClass_kept (hm.sub rfl)
      assumption
    · split
      · apply PickAll.again
        apply readEntry_elim (hm.sub rfl) (by assumption)
        assumption
      · apply PickAll.ite
        · intro h4
          apply PickAll.again
          apply bump_kept (hm.sub rfl)
          apply dropEntry_kept (hm.sub rfl)
          assumption
        · intro h4
          apply PickAll.ite
          · intro h6
            apply pickClass_kept (hm.sub rfl)
            assumption
          · intro h6
            dsimp only
            apply PickAll.sent
            apply dropEntry_kept (hm.sub rfl)
            apply bump_kept (hm.sub rfl)
            apply transmit_kept (hm.sub rfl)
            apply txPortUpd_kept (hm.sub rfl)
            apply Kept.ite
            · intro h14
              apply upd_kept (hm.sub rfl)
              · intro y016 h17
                apply bump_kept (hm.sub rfl)
                assumption
              · assumption
            · intro h14
              apply classUpd_kept (hm.sub rfl)
              apply upd_kept (hm.sub rfl)
              · intro y017 h18
                apply bump_kept (hm.sub rfl)
                assumption
              · assumption

theorem pickStrict_kept (hm : Has m 0x2303a) (x0 : ℕ) (x1 : ℕ) (s : State) (x3 : List ℕ)
    (hs : Kept m s₀ s) :
    PickAll (Kept m s₀) (pickStrict x0 x1 s x3) := by
  unfold pickStrict
  split
  · exact PickAll.nothing
  · apply PickAll.ite
    · intro h2
      apply pickStrict_kept (hm.sub rfl)
      assumption
    · intro h2
      split
      · apply pickStrict_kept (hm.sub rfl)
        assumption
      · apply pickClass_kept (hm.sub rfl)
        assumption

theorem gateShow_kept (hm : Has m 0x2) (x0 : ℕ) (s : State)
    (hs : Kept m s₀ s) :
    Kept m s₀ (gateShow x0 s) := by
  unfold gateShow
  apply wr_kept (hm.sub rfl)
  assumption

theorem execGateEntryChange_kept (hm : Has m 0x2) (x0 : Fin 8) (s : State)
    (hs : Kept m s₀ s) :
    ResAll (Kept m s₀) (execGateEntryChange x0 s) := by
  unfold execGateEntryChange
  apply ResAll.next
  apply gateShow_kept (hm.sub rfl)
  assumption

theorem legTrafficUpd_kept (hm : Has m 0x2000) (x0 : ℕ) (x1 : LegTraffic → LegTraffic) (s : State)
    (hs : Kept m s₀ s) :
    Kept m s₀ (legTrafficUpd x0 x1 s) := by
  unfold legTrafficUpd
  refine Kept.trf_put (hm.sub rfl) ?_
  assumption

theorem copyGranted_kept (hm : Has m 0x4002) (x0 : ℕ) (x1 : CopyRec) (x2 : TxFrame) (s : State)
    (hs : Kept m s₀ s) :
    Kept m s₀ (copyGranted x0 x1 x2 s) := by
  unfold copyGranted
  dsimp only
  apply Kept.ite
  · intro h2
    apply upd_kept (hm.sub rfl)
    · intro y04 h5
      apply wr_kept (hm.sub rfl)
      assumption
    · apply wr_kept (hm.sub rfl)
      apply bump_kept (hm.sub rfl)
      refine Kept.fwd_put (hm.sub rfl) ?_
      assumption
  · intro h2
    apply bump_kept (hm.sub rfl)
    refine Kept.fwd_put (hm.sub rfl) ?_
    assumption

theorem legUnlist_kept (hm : Has m 0x2002) (x0 : ℕ) (x1 : ℕ) (s : State)
    (hs : Kept m s₀ s) :
    Kept m s₀ (legUnlist x0 x1 s) := by
  unfold legUnlist
  dsimp only
  apply wr_kept (hm.sub rfl)
  apply txPortUpd_kept (hm.sub rfl)
  assumption

theorem shaperPublish_kept (hm : Has m 0x2) (x0 : ℕ) (s : State)
    (hs : Kept m s₀ s) :
    Kept m s₀ (shaperPublish x0 s) := by
  unfold shaperPublish
  dsimp only
  apply wr_kept (hm.sub rfl)
  apply wr_kept (hm.sub rfl)
  assumption

theorem pickLegs_kept (hm : Has m 0xa703a) (x0 : ℕ) (x1 : ℕ) (x2 : ℕ) (s : State)
    (hs : Kept m s₀ s) :
    PickAll (Kept m s₀) (pickLegs x0 x1 x2 s) := by
  unfold pickLegs
  split
  · exact PickAll.nothing
  · split
    · exact PickAll.nothing
    · split
      · dsimp only
        split
        · apply PickAll.again
          apply readEntry_elim (hm.sub rfl) (by assumption)
          apply legTrafficUpd_kept (hm.sub rfl)
          apply egressPromote_kept (hm.sub rfl)
          assumption
        · apply PickAll.ite
          · intro h6
            apply PickAll.again
            apply popEntry_kept (hm.sub rfl)
            apply legTrafficUpd_kept (hm.sub rfl)
            apply egressPromote_kept (hm.sub rfl)
            assumption
          · intro h6
            apply PickAll.ite
            · intro h8
              apply pickLegs_kept (hm.sub rfl)
              apply txPortUpd_kept (hm.sub rfl)
              apply legTrafficUpd_kept (hm.sub rfl)
              apply legTrafficUpd_kept (hm.sub rfl)
              apply egressPromote_kept (hm.sub rfl)
              assumption
            · intro h8
              apply PickAll.ite
              · intro h10
                apply PickAll.again
                refine Kept.fwd_put (hm.sub rfl) ?_
                apply bump_kept (hm.sub rfl)
                apply bump_kept (hm.sub rfl)
                apply popEntry_kept (hm.sub rfl)
                apply legTrafficUpd_kept (hm.sub rfl)
                apply egressPromote_kept (hm.sub rfl)
                assumption
              · intro h10
                apply PickAll.ite
                · intro h12
                  exact PickAll.nothing
                · intro h12
                  apply PickAll.sent
                  apply shaperPublish_kept (hm.sub rfl)
                  apply Kept.ite
                  · intro h16
                    apply legUnlist_kept (hm.sub rfl)
                    apply legTrafficUpd_kept (hm.sub rfl)
                    apply legTrafficUpd_kept (hm.sub rfl)
                    apply bumpBy_kept (hm.sub rfl)
                    apply popEntry_kept (hm.sub rfl)
                    apply copyGranted_kept (hm.sub rfl)
                    apply bump_kept (hm.sub rfl)
                    apply transmit_kept (hm.sub rfl)
                    apply upd_kept (hm.sub rfl)
                    · intro y026 h27
                      apply bump_kept (hm.sub rfl)
                      assumption
                    · apply legTrafficUpd_kept (hm.sub rfl)
                      apply egressPromote_kept (hm.sub rfl)
                      assumption
                  · intro h16
                    apply Kept.ite
                    · intro h18
                      apply legUnlist_kept (hm.sub rfl)
                      apply legTrafficUpd_kept (hm.sub rfl)
                      apply legTrafficUpd_kept (hm.sub rfl)
                      apply bumpBy_kept (hm.sub rfl)
                      apply popEntry_kept (hm.sub rfl)
                      apply copyGranted_kept (hm.sub rfl)
                      apply bump_kept (hm.sub rfl)
                      apply transmit_kept (hm.sub rfl)
                      apply upd_kept (hm.sub rfl)
                      · intro y028 h29
                        apply bump_kept (hm.sub rfl)
                        assumption
                      · apply legTrafficUpd_kept (hm.sub rfl)
                        apply egressPromote_kept (hm.sub rfl)
                        assumption
                    · intro h18
                      apply legTrafficUpd_kept (hm.sub rfl)
                      apply bumpBy_kept (hm.sub rfl)
                      apply popEntry_kept (hm.sub rfl)
                      apply copyGranted_kept (hm.sub rfl)
                      apply bump_kept (hm.sub rfl)
                      apply transmit_kept (hm.sub rfl)
                      apply upd_kept (hm.sub rfl)
                      · intro y026 h27
                        apply bump_kept (hm.sub rfl)
                        assumption
                      · apply legTrafficUpd_kept (hm.sub rfl)
                        apply egressPromote_kept (hm.sub rfl)
                        assumption
      · apply pickLegs_kept (hm.sub rfl)
        apply legUnlist_kept (hm.sub rfl)
        apply legTrafficUpd_kept (hm.sub rfl)
        assumption

theorem shaperChange_kept (hm : Has m 0x2002) (x0 : ℕ) (x1 : State → State) (s : State)
    (hf1 : ∀ y0, Kept m s₀ y0 → (Kept m s₀) (x1 y0)) (hs : Kept m s₀ s) :
    Kept m s₀ (shaperChange x0 x1 s) := by
  unfold shaperChange
  dsimp only
  apply shaperPublish_kept (hm.sub rfl)
  apply legTrafficUpd_kept (hm.sub rfl)
  apply hf1
  assumption

theorem pauseIn_kept (hm : Has m 0x2002) (x0 : ℕ) (x1 : ℕ) (s : State)
    (hs : Kept m s₀ s) :
    Kept m s₀ (pauseIn x0 x1 s) := by
  unfold pauseIn
  apply Kept.ite
  · intro h1
    apply txPortUpd_kept (hm.sub rfl)
    assumption
  · intro h1
    dsimp only
    apply Kept.ite
    · intro h4
      apply bump_kept (hm.sub rfl)
      assumption
    · intro h4
      apply pauseSync_kept (hm.sub rfl)
      apply txPortUpd_kept (hm.sub rfl)
      apply bump_kept (hm.sub rfl)
      assumption

theorem execPauseReceived_kept (hm : Has m 0x2002) (x0 : Fin 9) (x1 : ℕ) (s : State)
    (hs : Kept m s₀ s) :
    ResAll (Kept m s₀) (execPauseReceived x0 x1 s) := by
  unfold execPauseReceived
  apply ResAll.next
  apply pauseIn_kept (hm.sub rfl)
  assumption

theorem dropOversize_kept (hm : Has m 0x2700a) (x0 : ℕ) (x1 : ℕ) (s : State)
    (hs : Kept m s₀ s) :
    Kept m s₀ (dropOversize x0 x1 s) := by
  unfold dropOversize
  split
  · assumption
  · dsimp only
    split
    · apply dropOversize_kept (hm.sub rfl)
      apply bump_kept (hm.sub rfl)
      apply dropEntry_kept (hm.sub rfl)
      assumption
    · split
      · apply dropOversize_kept (hm.sub rfl)
        refine Kept.fwd_put (hm.sub rfl) ?_
        apply bump_kept (hm.sub rfl)
        apply bump_kept (hm.sub rfl)
        apply popEntry_kept (hm.sub rfl)
        assumption
      · assumption

theorem execGateConfigChange_kept (hm : Has m 0x40270ae) (x0 : Fin 8) (s : State)
    (hs : Kept m s₀ s) :
    ResAll (Kept m s₀) (execGateConfigChange x0 s) := by
  unfold execGateConfigChange
  split
  · apply ResAll.next
    assumption
  · apply ResAll.ite
    · intro h2
      apply ResAll.next
      assumption
    · intro h2
      dsimp only
      apply ResAll.next
      apply gateShow_kept (hm.sub rfl)
      apply dropOversize_kept (hm.sub rfl)
      apply upd_kept (hm.sub rfl)
      · intro y08 h9
        apply bump_kept (hm.sub rfl)
        assumption
      · apply bump_kept (hm.sub rfl)
        apply wr_kept (hm.sub rfl)
        apply Kept.ite
        · intro h11
          apply unclaimAll_kept (hm.sub rfl)
          apply launchDone_kept (hm.sub rfl)
          apply txPortUpd_kept (hm.sub rfl)
          apply wrBlob_kept (hm.sub rfl)
          apply wr_kept (hm.sub rfl)
          apply wr_kept (hm.sub rfl)
          apply wr_kept (hm.sub rfl)
          assumption
        · intro h11
          apply launchDone_kept (hm.sub rfl)
          apply txPortUpd_kept (hm.sub rfl)
          apply wrBlob_kept (hm.sub rfl)
          apply wr_kept (hm.sub rfl)
          apply wr_kept (hm.sub rfl)
          apply wr_kept (hm.sub rfl)
          assumption

theorem polWrite_kept (hm : Has m 0x2002) (x0 : ℕ) (x1 : ℕ) (x2 : ℕ) (s : State)
    (hs : Kept m s₀ s) :
    Kept m s₀ (polWrite x0 x1 x2 s) := by
  unfold polWrite
  dsimp only
  apply legTrafficUpd_kept (hm.sub rfl)
  apply wr_kept (hm.sub rfl)
  assumption

theorem execPauseExpiry_kept (hm : Has m 0x2002) (x0 : Fin 9) (s : State)
    (hs : Kept m s₀ s) :
    ResAll (Kept m s₀) (execPauseExpiry x0 s) := by
  unfold execPauseExpiry
  apply ResAll.next
  apply pauseSync_kept (hm.sub rfl)
  assumption

theorem execShaperAdapt_kept (hm : Has m 0x2002) (s : State)
    (hs : Kept m s₀ s) :
    ResAll (Kept m s₀) (execShaperAdapt s) := by
  unfold execShaperAdapt
  apply ResAll.ite
  · intro h1
    apply ResAll.next
    assumption
  · intro h1
    apply ResAll.next
    apply Kept.foldl
    · intro s4 b5 h6
      dsimp only
      apply Kept.ite
      · exact fun _ => by assumption
      · intro h9
        apply legTrafficUpd_kept (hm.sub rfl)
        apply shaperChange_kept (hm.sub rfl)
        · intro y012 h13
          apply wr_kept (hm.sub rfl)
          assumption
        · assumption
    · assumption

theorem pickPort_kept (hm : Has m 0xa703a) (x0 : ℕ) (x1 : ℕ) (x2 : ℕ) (s : State)
    (hs : Kept m s₀ s) :
    Kept m s₀ (pickPort x0 x1 x2 s) := by
  unfold pickPort
  split
  · assumption
  · split
    · apply sendPause_kept (hm.sub rfl)
      assumption
    · apply Kept.ite
      · exact fun _ => by assumption
      · intro h3
        split
        · refine PickAll.ofSent ?_ (by assumption)
          apply pickStrict_kept (hm.sub rfl)
          assumption
        · apply pickPort_kept (hm.sub rfl)
          refine PickAll.ofAgain ?_ (by assumption)
          apply pickStrict_kept (hm.sub rfl)
          assumption
        · split
          · refine PickAll.ofSent ?_ (by assumption)
            apply pickLegs_kept (hm.sub rfl)
            assumption
          · apply pickPort_kept (hm.sub rfl)
            refine PickAll.ofAgain ?_ (by assumption)
            apply pickLegs_kept (hm.sub rfl)
            assumption
          · assumption

theorem pickMgmt_kept (hm : Has m 0x2303a) (x0 : ℕ) (x1 : ℕ) (s : State)
    (hs : Kept m s₀ s) :
    Kept m s₀ (pickMgmt x0 x1 s) := by
  unfold pickMgmt
  split
  · assumption
  · apply Kept.ite
    · exact fun _ => by assumption
    · intro h2
      split
      · assumption
      · split
        · apply pickMgmt_kept (hm.sub rfl)
          apply readEntry_elim (hm.sub rfl) (by assumption)
          assumption
        · dsimp only
          apply dropEntry_kept (hm.sub rfl)
          apply transmit_kept (hm.sub rfl)
          apply Kept.ite
          · intro h9
            apply txPortUpd_kept (hm.sub rfl)
            apply upd_kept (hm.sub rfl)
            · intro y012 h13
              apply bump_kept (hm.sub rfl)
              assumption
            · assumption
          · intro h9
            apply upd_kept (hm.sub rfl)
            · intro y011 h12
              apply bump_kept (hm.sub rfl)
              assumption
            · assumption

theorem execPortTransmitterFree_kept (hm : Has m 0xa703a) (x0 : Fin 9) (x1 : Fin 4) (s : State)
    (hs : Kept m s₀ s) :
    ResAll (Kept m s₀) (execPortTransmitterFree x0 x1 s) := by
  unfold execPortTransmitterFree
  apply ResAll.ite
  · intro h1
    apply ResAll.next
    assumption
  · intro h1
    dsimp only
    apply ResAll.ite
    · intro h4
      apply ResAll.next
      apply Kept.ite
      · intro h7
        apply txPortUpd_kept (hm.sub rfl)
        assumption
      · intro h7
        apply pickMgmt_kept (hm.sub rfl)
        apply txPortUpd_kept (hm.sub rfl)
        assumption
    · intro h4
      apply ResAll.ite
      · intro h6
        apply ResAll.next
        apply pickPort_kept (hm.sub rfl)
        apply txPortUpd_kept (hm.sub rfl)
        assumption
      · intro h6
        apply ResAll.next
        apply txPortUpd_kept (hm.sub rfl)
        assumption

theorem execGateTakeover_kept (hm : Has m 0x40028aa) (s : State)
    (hs : Kept m s₀ s) :
    ResAll (Kept m s₀) (execGateTakeover s) := by
  unfold execGateTakeover
  split
  · apply ResAll.next
    assumption
  · apply ResAll.ite
    · intro h2
      apply ResAll.next
      apply launchFailed_kept (hm.sub rfl)
      assumption
    · intro h2
      apply ResAll.ite
      · intro h4
        apply ResAll.next
        assumption
      · intro h4
        dsimp only
        apply ResAll.next
        apply wr_kept (hm.sub rfl)
        apply wr_kept (hm.sub rfl)
        apply launchUpd_kept (hm.sub rfl)
        apply txPortUpd_kept (hm.sub rfl)
        assumption

theorem meter_kept (hm : Has m 0x2000) (x0 : ℕ) (x1 : ℕ) (x2 : ℕ) (x3 : Bool) (x4 : ℕ) (s : State)
    (hs : Kept m s₀ s) :
    SndAll (Kept m s₀) (meter x0 x1 x2 x3 x4 s) := by
  unfold meter
  apply SndAll.ite
  · intro h1
    apply SndAll.mk
    assumption
  · intro h1
    dsimp only
    apply SndAll.mk
    apply legTrafficUpd_kept (hm.sub rfl)
    assumption

theorem meter_elim {x0 : ℕ} {x1 : ℕ} {x2 : ℕ} {x3 : Bool} {x4 : ℕ} {s : State} {v0} {t : State} (hm : Has m 0x2000) (e : (meter x0 x1 x2 x3 x4 s) = (v0, t))
    (hs : Kept m s₀ s) : Kept m s₀ t := by
  have hk := meter_kept hm x0 x1 x2 x3 x4 s hs
  rw [e] at hk
  exact (SndAll.elim hk rfl)

theorem execPfcReceived_kept (hm : Has m 0x2002) (x0 : Fin 8) (x1 : ℕ) (x2 : List ℕ) (s : State)
    (hs : Kept m s₀ s) :
    ResAll (Kept m s₀) (execPfcReceived x0 x1 x2 s) := by
  unfold execPfcReceived
  apply ResAll.next
  apply pfcIn_kept (hm.sub rfl)
  assumption

theorem execShaperConforming_kept (hm : Has m 0x2002) (x0 : ℕ) (s : State)
    (hs : Kept m s₀ s) :
    ResAll (Kept m s₀) (execShaperConforming x0 s) := by
  unfold execShaperConforming
  apply ResAll.next
  apply legWake_kept (hm.sub rfl)
  assumption

end Sys2Proof.Machine
end

