-- ==== Sys2Proof/Laws/KeptForward.lean ====
section
/-! SUPPORT. Every effect of Machine/Forward.lean keeps what `Kept` says. -/
set_option Elab.async false
namespace Sys2Proof.Machine

variable {m : Nat} {s₀ : State}

theorem countFormed_kept (hm : Has m 0x4002) (s : State)
    (hs : Kept m s₀ s) :
    Kept m s₀ (countFormed s) := by
  unfold countFormed
  dsimp only
  apply wr_kept (hm.sub rfl)
  refine Kept.fwd_put (hm.sub rfl) ?_
  assumption

theorem vsrcUpd_kept (hm : Has m 0x4000) (x0 : ℕ) (x1 : VideoSource → VideoSource) (s : State)
    (hs : Kept m s₀ s) :
    Kept m s₀ (vsrcUpd x0 x1 s) := by
  unfold vsrcUpd
  refine Kept.fwd_put (hm.sub rfl) ?_
  assumption

theorem legUpd_kept (hm : Has m 0x4000) (x0 : ℕ) (x1 : Leg → Leg) (s : State)
    (hs : Kept m s₀ s) :
    Kept m s₀ (legUpd x0 x1 s) := by
  unfold legUpd
  refine Kept.fwd_put (hm.sub rfl) ?_
  assumption

theorem slotUpd_kept (hm : Has m 0x4000) (x0 : ℕ) (x1 : ℕ) (x2 : LegSlot → LegSlot) (s : State)
    (hs : Kept m s₀ s) :
    Kept m s₀ (slotUpd x0 x1 x2 s) := by
  unfold slotUpd
  apply legUpd_kept (hm.sub rfl)
  assumption

theorem sendCkpt_kept (hm : Has m 0x404008) (x0 : ℕ) (s : State)
    (hs : Kept m s₀ s) :
    Kept m s₀ (sendCkpt x0 s) := by
  unfold sendCkpt
  dsimp only
  apply pairSend_kept (hm.sub rfl)
  apply Kept.foldl
  · intro s3 b4 h5
    apply slotUpd_kept (hm.sub rfl)
    assumption
  · assumption

theorem copyRefused_kept (hm : Has m 0x4002) (x0 : ℕ) (s : State)
    (hs : Kept m s₀ s) :
    Kept m s₀ (copyRefused x0 s) := by
  unfold copyRefused
  apply bump_kept (hm.sub rfl)
  apply legUpd_kept (hm.sub rfl)
  assumption

theorem presentCopy_kept (hm : Has m 0x42701a) (x0 : ℕ) (x1 : CopyRec) (s : State)
    (hs : Kept m s₀ s) :
    Kept m s₀ (presentCopy x0 x1 s) := by
  unfold presentCopy
  apply Kept.ite
  · intro h1
    apply sendCkpt_kept (hm.sub rfl)
    apply copyRefused_kept (hm.sub rfl)
    assumption
  · intro h1
    dsimp only
    apply Kept.ite
    · intro h4
      apply shaperPublish_kept (hm.sub rfl)
      apply legWake_kept (hm.sub rfl)
      apply Kept.snd
      apply admitCopy_kept (hm.sub rfl)
      assumption
    · intro h4
      apply copyRefused_kept (hm.sub rfl)
      apply Kept.snd
      apply admitCopy_kept (hm.sub rfl)
      assumption

theorem sendMade_kept (hm : Has m 0x42701a) (x0 : ℕ) (x1 : Packet) (x2 : CopyRec) (s : State)
    (hs : Kept m s₀ s) :
    Kept m s₀ (sendMade x0 x1 x2 s) := by
  unfold sendMade
  dsimp only
  apply Kept.ite
  · exact fun _ => by assumption
  · intro h2
    apply Kept.ite
    · intro h4
      apply sendCkpt_kept (hm.sub rfl)
      apply copyRefused_kept (hm.sub rfl)
      assumption
    · intro h4
      split
      · apply shaperPublish_kept (hm.sub rfl)
        apply legWake_kept (hm.sub rfl)
        apply Kept.snd
        apply admitCopy_kept (hm.sub rfl)
        apply queueUpd_kept (hm.sub rfl)
        apply Kept.snd
        apply addPacket_kept (hm.sub rfl)
        assumption
      · apply copyRefused_kept (hm.sub rfl)
        apply refuse_kept (hm.sub rfl)
        assumption

theorem sendRtcp_kept (hm : Has m 0x42701a) (x0 : ℕ) (x1 : List RtcpItem) (s : State)
    (hs : Kept m s₀ s) :
    Kept m s₀ (sendRtcp x0 x1 s) := by
  unfold sendRtcp
  apply Kept.ite
  · exact fun _ => by assumption
  · intro h1
    dsimp only
    apply sendMade_kept (hm.sub rfl)
    assumption

theorem srcLog_kept (hm : Has m 0x4000) (x0 : ℕ) (x1 : ℕ) (x2 : List ℕ) (s : State)
    (hs : Kept m s₀ s) :
    Kept m s₀ (srcLog x0 x1 x2 s) := by
  unfold srcLog
  apply vsrcUpd_kept (hm.sub rfl)
  assumption

theorem slotSync_kept (hm : Has m 0x4002) (x0 : ℕ) (x1 : ℕ) (s : State)
    (hs : Kept m s₀ s) :
    Kept m s₀ (slotSync x0 x1 s) := by
  unfold slotSync
  dsimp only
  apply wr_kept (hm.sub rfl)
  apply slotUpd_kept (hm.sub rfl)
  assumption

theorem setWant_kept (hm : Has m 0x4002) (x0 : ℕ) (x1 : ℕ) (x2 : ℕ) (s : State)
    (hs : Kept m s₀ s) :
    Kept m s₀ (setWant x0 x1 x2 s) := by
  unfold setWant
  apply Kept.ite
  · exact fun _ => by assumption
  · intro h1
    dsimp only
    apply slotSync_kept (hm.sub rfl)
    apply slotUpd_kept (hm.sub rfl)
    apply wr_kept (hm.sub rfl)
    assumption

theorem legStart_kept (hm : Has m 0x7002) (x0 : ℕ) (s : State)
    (hs : Kept m s₀ s) :
    Kept m s₀ (legStart x0 s) := by
  unfold legStart
  dsimp only
  apply Kept.foldl
  · intro s2 b3 h4
    apply slotSync_kept (hm.sub rfl)
    apply wr_kept (hm.sub rfl)
    apply wr_kept (hm.sub rfl)
    apply wr_kept (hm.sub rfl)
    assumption
  · apply wr_kept (hm.sub rfl)
    apply wr_kept (hm.sub rfl)
    apply queueUpd_kept (hm.sub rfl)
    apply queueUpd_kept (hm.sub rfl)
    apply legTrafficUpd_kept (hm.sub rfl)
    refine Kept.fwd_put (hm.sub rfl) ?_
    assumption

theorem pauseSlotsOf_kept (hm : Has m 0x4002) (x0 : ℕ) (s : State)
    (hs : Kept m s₀ s) :
    Kept m s₀ (pauseSlotsOf x0 s) := by
  unfold pauseSlotsOf
  apply Kept.foldl
  · intro s1 b2 h3
    apply Kept.foldl
    · intro s5 b6 h7
      dsimp only
      apply Kept.ite
      · intro h10
        apply slotSync_kept (hm.sub rfl)
        apply setWant_kept (hm.sub rfl)
        apply wr_kept (hm.sub rfl)
        assumption
      · exact fun _ => by assumption
    · assumption
  · assumption

theorem legStop_kept (hm : Has m 0x44278ea) (x0 : ℕ) (x1 : ℕ) (s : State)
    (hs : Kept m s₀ s) :
    Kept m s₀ (legStop x0 x1 s) := by
  unfold legStop
  dsimp only
  apply Kept.foldl
  · intro s2 b3 h4
    apply slotSync_kept (hm.sub rfl)
    apply wr_kept (hm.sub rfl)
    apply wr_kept (hm.sub rfl)
    apply slotUpd_kept (hm.sub rfl)
    assumption
  · refine Kept.fwd_put (hm.sub rfl) ?_
    apply Kept.ite
    · intro h4
      apply pauseSlotsOf_kept (hm.sub rfl)
      apply legLeaves_kept (hm.sub rfl)
      refine Kept.fwd_put (hm.sub rfl) ?_
      apply legUnlist_kept (hm.sub rfl)
      apply wr_kept (hm.sub rfl)
      apply queueUpd_kept (hm.sub rfl)
      apply queueUpd_kept (hm.sub rfl)
      apply flushQueue_kept (hm.sub rfl)
      apply flushQueue_kept (hm.sub rfl)
      assumption
    · intro h4
      refine Kept.fwd_put (hm.sub rfl) ?_
      apply legUnlist_kept (hm.sub rfl)
      apply wr_kept (hm.sub rfl)
      apply queueUpd_kept (hm.sub rfl)
      apply queueUpd_kept (hm.sub rfl)
      apply flushQueue_kept (hm.sub rfl)
      apply flushQueue_kept (hm.sub rfl)
      assumption

theorem legEn_kept (hm : Has m 0x44278ea) (x0 : ℕ) (x1 : Bool) (s : State)
    (hs : Kept m s₀ s) :
    Kept m s₀ (legEn x0 x1 s) := by
  unfold legEn
  dsimp only
  apply Kept.ite
  · intro h2
    apply wr_kept (hm.sub rfl)
    assumption
  · intro h2
    apply Kept.ite
    · intro h4
      apply legStart_kept (hm.sub rfl)
      apply wr_kept (hm.sub rfl)
      assumption
    · intro h4
      apply legStop_kept (hm.sub rfl)
      apply wr_kept (hm.sub rfl)
      assumption

theorem writeLegEn_kept (hm : Has m 0x64679fa) (x0 : Inst) (x1 : ℕ) (x2 : ℕ) (x3 : Bool) (s : State)
    (hs : Kept m s₀ s) :
    Kept m s₀ (writeLegEn x0 x1 x2 x3 s) := by
  unfold writeLegEn
  apply runWrite_kept (hm.sub rfl)
  · intro y01 h2
    apply legEn_kept (hm.sub rfl)
    assumption
  · assumption

theorem failover_kept (hm : Has m 0x200a) (x0 : ℕ) (s : State)
    (hs : Kept m s₀ s) :
    Kept m s₀ (failover x0 s) := by
  unfold failover
  apply Kept.foldl
  · intro s1 b2 h3
    apply Kept.ite
    · intro h5
      dsimp only
      apply emit_kept (hm.sub rfl)
      apply legWake_kept (hm.sub rfl)
      apply legTrafficUpd_kept (hm.sub rfl)
      apply legUnlist_kept (hm.sub rfl)
      apply bump_kept (hm.sub rfl)
      apply wr_kept (hm.sub rfl)
      assumption
    · exact fun _ => by assumption
  · assumption

theorem legUpset_kept (hm : Has m 0x56278ea) (x0 : ℕ) (s : State)
    (hs : Kept m s₀ s) :
    Kept m s₀ (legUpset x0 s) := by
  unfold legUpset
  dsimp only
  apply Kept.ite
  · intro h2
    apply legStop_kept (hm.sub rfl)
    apply Kept.fst
    apply upset_kept (hm.sub rfl)
    apply bump_kept (hm.sub rfl)
    assumption
  · intro h2
    apply Kept.fst
    apply upset_kept (hm.sub rfl)
    apply bump_kept (hm.sub rfl)
    assumption

theorem portDown_kept (hm : Has m 0x56278ea) (x0 : ℕ) (x1 : ℕ) (s : State)
    (hs : Kept m s₀ s) :
    Kept m s₀ (portDown x0 x1 s) := by
  unfold portDown
  dsimp only
  apply Kept.ite
  · intro h2
    apply wr_kept (hm.sub rfl)
    apply wr_kept (hm.sub rfl)
    apply txPortUpd_kept (hm.sub rfl)
    assumption
  · intro h2
    split
    · apply legUpset_kept (hm.sub rfl)
      apply bump_kept (hm.sub rfl)
      apply failover_kept (hm.sub rfl)
      apply wr_kept (hm.sub rfl)
      apply wr_kept (hm.sub rfl)
      apply txPortUpd_kept (hm.sub rfl)
      assumption
    · apply failover_kept (hm.sub rfl)
      apply wr_kept (hm.sub rfl)
      apply wr_kept (hm.sub rfl)
      apply txPortUpd_kept (hm.sub rfl)
      assumption

theorem portCleared_kept (hm : Has m 0x2) (x0 : ℕ) (s : State)
    (hs : Kept m s₀ s) :
    Kept m s₀ (portCleared x0 s) := by
  unfold portCleared
  apply wr_kept (hm.sub rfl)
  assumption

theorem execTransportFeedbackTimer_kept (hm : Has m 0x42701a) (s : State)
    (hs : Kept m s₀ s) :
    ResAll (Kept m s₀) (execTransportFeedbackTimer s) := by
  unfold execTransportFeedbackTimer
  apply ResAll.ite
  · intro h1
    apply ResAll.next
    assumption
  · intro h1
    dsimp only
    apply ResAll.next
    apply Kept.foldl
    · intro s5 b6 h7
      apply Kept.ite
      · exact fun _ => by assumption
      · intro h9
        apply sendRtcp_kept (hm.sub rfl)
        apply legUpd_kept (hm.sub rfl)
        assumption
    · refine Kept.fwd_put (hm.sub rfl) ?_
      assumption

theorem sendAes67_kept (hm : Has m 0x2301a) (x0 : ℕ) (x1 : ℕ) (x2 : List (List ℤ)) (s : State)
    (hs : Kept m s₀ s) :
    Kept m s₀ (sendAes67 x0 x1 x2 s) := by
  unfold sendAes67
  dsimp only
  apply Kept.snd
  apply admitPacket_kept (hm.sub rfl)
  assumption

theorem selectLayers_kept (hm : Has m 0x4002) (x0 : ℕ) (s : State)
    (hs : Kept m s₀ s) :
    Kept m s₀ (selectLayers x0 s) := by
  unfold selectLayers
  dsimp only
  apply legUpd_kept (hm.sub rfl)
  apply Kept.snd
  apply SndAll.foldl
  · intro p4 b5 h6
    split
    · apply SndAll.mk
      apply setWant_kept (hm.sub rfl)
      apply Kept.snd
      assumption
    · apply SndAll.mk
      apply setWant_kept (hm.sub rfl)
      apply Kept.snd
      assumption
  · apply SndAll.mk
    assumption

theorem estimate_kept (hm : Has m 0x4002) (x0 : ℕ) (s : State)
    (hs : Kept m s₀ s) :
    Kept m s₀ (estimate x0 s) := by
  unfold estimate
  apply Kept.ite
  · exact fun _ => by assumption
  · intro h1
    dsimp only
    split
    · apply Kept.ite
      · intro h5
        apply wr_kept (hm.sub rfl)
        apply legUpd_kept (hm.sub rfl)
        assumption
      · intro h5
        apply legUpd_kept (hm.sub rfl)
        assumption
    · apply wr_kept (hm.sub rfl)
      apply legUpd_kept (hm.sub rfl)
      assumption

theorem execEstimateUpdate_kept (hm : Has m 0x4002) (x0 : ℕ) (s : State)
    (hs : Kept m s₀ s) :
    ResAll (Kept m s₀) (execEstimateUpdate x0 s) := by
  unfold execEstimateUpdate
  apply ResAll.ite
  · intro h1
    apply ResAll.next
    assumption
  · intro h1
    apply ResAll.next
    apply selectLayers_kept (hm.sub rfl)
    apply estimate_kept (hm.sub rfl)
    assumption

theorem execRtcpReportTimer_kept (hm : Has m 0x42701a) (s : State)
    (hs : Kept m s₀ s) :
    ResAll (Kept m s₀) (execRtcpReportTimer s) := by
  unfold execRtcpReportTimer
  apply ResAll.ite
  · intro h1
    apply ResAll.next
    assumption
  · intro h1
    dsimp only
    apply ResAll.next
    apply Kept.foldl
    · intro s5 b6 h7
      apply sendRtcp_kept (hm.sub rfl)
      apply legUpd_kept (hm.sub rfl)
      apply Kept.ite
      · exact fun _ => by assumption
      · intro h11
        apply drew_kept (hm.sub rfl)
        assumption
    · refine Kept.fwd_put (hm.sub rfl) ?_
      assumption

theorem takeIndex_kept (hm : Has m 0x4002) (x0 : ℕ) (x1 : ℕ) (s : State)
    (hs : Kept m s₀ s) :
    SndAll (Kept m s₀) (takeIndex x0 x1 s) := by
  unfold takeIndex
  dsimp only
  apply SndAll.mk
  apply Kept.ite
  · intro h3
    apply slotUpd_kept (hm.sub rfl)
    assumption
  · intro h3
    apply wr_kept (hm.sub rfl)
    apply slotUpd_kept (hm.sub rfl)
    assumption

theorem takeIndex_elim {x0 : ℕ} {x1 : ℕ} {s : State} {v0} {t : State} (hm : Has m 0x4002) (e : (takeIndex x0 x1 s) = (v0, t))
    (hs : Kept m s₀ s) : Kept m s₀ t := by
  have hk := takeIndex_kept hm x0 x1 s hs
  rw [e] at hk
  exact (SndAll.elim hk rfl)

theorem formCopy_kept (hm : Has m 0x42701a) (x0 : FanOut) (x1 : ℕ) (x2 : ℕ) (x3 : Bool) (s : State)
    (hs : Kept m s₀ s) :
    Kept m s₀ (formCopy x0 x1 x2 x3 s) := by
  unfold formCopy
  split
  · assumption
  · dsimp only
    apply presentCopy_kept (hm.sub rfl)
    apply countFormed_kept (hm.sub rfl)
    apply slotUpd_kept (hm.sub rfl)
    apply Kept.snd
    apply takeIndex_kept (hm.sub rfl)
    assumption

theorem fanDone_kept (hm : Has m 0x2700a) (x0 : FanOut) (s : State)
    (hs : Kept m s₀ s) :
    Kept m s₀ (fanDone x0 s) := by
  unfold fanDone
  dsimp only
  split
  · apply dropEntry_kept (hm.sub rfl)
    refine Kept.fwd_put (hm.sub rfl) ?_
    assumption
  · apply releaseRef_kept (hm.sub rfl)
    refine Kept.fwd_put (hm.sub rfl) ?_
    assumption

theorem slotTake_kept (hm : Has m 0x4002) (x0 : FanOut) (x1 : ℕ) (x2 : ℕ) (s : State)
    (hs : Kept m s₀ s) :
    SndAll (SndAll (Kept m s₀)) (slotTake x0 x1 x2 s) := by
  unfold slotTake
  dsimp only
  apply SndAll.ite
  · intro h2
    apply SndAll.mk
    apply SndAll.mk
    apply slotSync_kept (hm.sub rfl)
    apply slotUpd_kept (hm.sub rfl)
    apply upd_kept (hm.sub rfl)
    · intro y08 h9
      apply bump_kept (hm.sub rfl)
      assumption
    · apply wr_kept (hm.sub rfl)
      assumption
  · intro h2
    apply SndAll.ite
    · intro h4
      apply SndAll.mk
      apply SndAll.mk
      assumption
    · intro h4
      apply SndAll.ite
      · intro h6
        apply SndAll.mk
        apply SndAll.mk
        assumption
      · intro h6
        apply SndAll.mk
        apply SndAll.mk
        apply slotSync_kept (hm.sub rfl)
        apply slotUpd_kept (hm.sub rfl)
        apply upd_kept (hm.sub rfl)
        · intro y012 h13
          apply bump_kept (hm.sub rfl)
          assumption
        · apply wr_kept (hm.sub rfl)
          assumption

theorem slotTake_elim {x0 : FanOut} {x1 : ℕ} {x2 : ℕ} {s : State} {v0} {v1} {t : State} (hm : Has m 0x4002) (e : (slotTake x0 x1 x2 s) = (v0, (v1, t)))
    (hs : Kept m s₀ s) : Kept m s₀ t := by
  have hk := slotTake_kept hm x0 x1 x2 s hs
  rw [e] at hk
  exact (SndAll.elim (SndAll.elim hk rfl) rfl)

theorem fanStep_kept (hm : Has m 0x42701a) (x0 : ℕ) (s : State)
    (hs : Kept m s₀ s) :
    Kept m s₀ (fanStep x0 s) := by
  unfold fanStep
  split
  · assumption
  · split
    · assumption
    · dsimp only
      split
      · apply fanStep_kept (hm.sub rfl)
        apply fanDone_kept (hm.sub rfl)
        assumption
      · apply Kept.ite
        · intro h5
          apply Kept.ite
          · intro h7
            apply fanDone_kept (hm.sub rfl)
            apply Kept.ite
            · intro h10
              apply formCopy_kept (hm.sub rfl)
              apply Kept.snd
              apply SndAll.snd
              apply slotTake_kept (hm.sub rfl)
              refine Kept.fwd_put (hm.sub rfl) ?_
              assumption
            · intro h10
              apply Kept.snd
              apply SndAll.snd
              apply slotTake_kept (hm.sub rfl)
              refine Kept.fwd_put (hm.sub rfl) ?_
              assumption
          · intro h7
            apply Kept.ite
            · intro h9
              apply formCopy_kept (hm.sub rfl)
              apply Kept.snd
              apply SndAll.snd
              apply slotTake_kept (hm.sub rfl)
              refine Kept.fwd_put (hm.sub rfl) ?_
              assumption
            · intro h9
              apply Kept.snd
              apply SndAll.snd
              apply slotTake_kept (hm.sub rfl)
              refine Kept.fwd_put (hm.sub rfl) ?_
              assumption
        · intro h5
          apply fanStep_kept (hm.sub rfl)
          apply Kept.ite
          · intro h8
            apply fanDone_kept (hm.sub rfl)
            apply Kept.ite
            · intro h11
              apply formCopy_kept (hm.sub rfl)
              apply Kept.snd
              apply SndAll.snd
              apply slotTake_kept (hm.sub rfl)
              refine Kept.fwd_put (hm.sub rfl) ?_
              assumption
            · intro h11
              apply Kept.snd
              apply SndAll.snd
              apply slotTake_kept (hm.sub rfl)
              refine Kept.fwd_put (hm.sub rfl) ?_
              assumption
          · intro h8
            apply Kept.ite
            · intro h10
              apply formCopy_kept (hm.sub rfl)
              apply Kept.snd
              apply SndAll.snd
              apply slotTake_kept (hm.sub rfl)
              refine Kept.fwd_put (hm.sub rfl) ?_
              assumption
            · intro h10
              apply Kept.snd
              apply SndAll.snd
              apply slotTake_kept (hm.sub rfl)
              refine Kept.fwd_put (hm.sub rfl) ?_
              assumption

theorem setSource_kept (hm : Has m 0x4002) (x0 : ℕ) (x1 : ℕ) (x2 : ℕ) (s : State)
    (hs : Kept m s₀ s) :
    Kept m s₀ (setSource x0 x1 x2 s) := by
  unfold setSource
  apply Kept.ite
  · exact fun _ => by assumption
  · intro h1
    apply slotSync_kept (hm.sub rfl)
    apply slotUpd_kept (hm.sub rfl)
    apply wr_kept (hm.sub rfl)
    assumption

theorem execSrcSwitch_kept (hm : Has m 0x40048aa) (s : State)
    (hs : Kept m s₀ s) :
    ResAll (Kept m s₀) (execSrcSwitch s) := by
  unfold execSrcSwitch
  apply ResAll.next
  apply fireHub_kept (hm.sub rfl)
  · intro y02 y13 y24 h5
    apply ExAll.ok
    apply Kept.foldl
    · intro s8 b9 h10
      apply Kept.ite
      · intro h12
        apply setSource_kept (hm.sub rfl)
        assumption
      · intro h12
        apply bump_kept (hm.sub rfl)
        assumption
    · assumption
  · assumption

theorem templateChanged_kept (hm : Has m 0x4002) (x0 : ℕ) (s : State)
    (hs : Kept m s₀ s) :
    Kept m s₀ (templateChanged x0 s) := by
  unfold templateChanged
  dsimp only
  apply Kept.foldl
  · intro s2 b3 h4
    apply Kept.ite
    · intro h6
      apply slotUpd_kept (hm.sub rfl)
      apply Kept.ite
      · intro h9
        apply setWant_kept (hm.sub rfl)
        assumption
      · exact fun _ => by assumption
    · intro h6
      apply Kept.ite
      · intro h8
        apply setWant_kept (hm.sub rfl)
        assumption
      · exact fun _ => by assumption
  · assumption

theorem sendAudio_kept (hm : Has m 0x42701a) (x0 : ℕ) (x1 : ℕ) (x2 : ℕ) (x3 : List ℕ) (s : State)
    (hs : Kept m s₀ s) :
    Kept m s₀ (sendAudio x0 x1 x2 x3 s) := by
  unfold sendAudio
  apply Kept.ite
  · exact fun _ => by assumption
  · intro h1
    dsimp only
    apply sendMade_kept (hm.sub rfl)
    apply slotUpd_kept (hm.sub rfl)
    apply Kept.snd
    apply takeIndex_kept (hm.sub rfl)
    assumption

theorem answer_kept (hm : Has m 0x2301a) (x0 : ℕ) (x1 : ℕ) (x2 : ℕ) (x3 : Bytes) (x4 : ℕ) (s : State)
    (hs : Kept m s₀ s) :
    Kept m s₀ (answer x0 x1 x2 x3 x4 s) := by
  unfold answer
  apply Kept.snd
  apply admitPacket_kept (hm.sub rfl)
  assumption

theorem epEn_kept (hm : Has m 0x23c1a) (x0 : Bool) (x1 : ℕ) (x2 : Bool) (s : State)
    (hs : Kept m s₀ s) :
    Kept m s₀ (epEn x0 x1 x2 s) := by
  unfold epEn
  apply Kept.ite
  · intro h1
    dsimp only
    apply Kept.ite
    · intro h4
      apply answer_kept (hm.sub rfl)
      apply rxEn_kept (hm.sub rfl)
      refine Kept.pkt_put (hm.sub rfl) ?_
      assumption
    · intro h4
      apply rxEn_kept (hm.sub rfl)
      refine Kept.pkt_put (hm.sub rfl) ?_
      assumption
  · intro h1
    apply txEn_kept (hm.sub rfl)
    apply Kept.ite
    · exact fun _ => by assumption
    · intro h4
      apply flushQueue_kept (hm.sub rfl)
      assumption

theorem writeEpEn_kept (hm : Has m 0x2463dda) (x0 : Inst) (x1 : ℕ) (x2 : Bool) (x3 : Fin 64) (x4 : Bool) (s : State)
    (hs : Kept m s₀ s) :
    Kept m s₀ (writeEpEn x0 x1 x2 x3 x4 s) := by
  unfold writeEpEn
  apply runWrite_kept (hm.sub rfl)
  · intro y01 h2
    apply epEn_kept (hm.sub rfl)
    assumption
  · assumption

theorem portEn_kept (hm : Has m 0x56278ea) (x0 : ℕ) (x1 : Bool) (s : State)
    (hs : Kept m s₀ s) :
    Kept m s₀ (portEn x0 x1 s) := by
  unfold portEn
  dsimp only
  apply Kept.ite
  · intro h2
    apply wr_kept (hm.sub rfl)
    assumption
  · intro h2
    apply Kept.ite
    · intro h4
      apply wr_kept (hm.sub rfl)
      assumption
    · intro h4
      apply portDown_kept (hm.sub rfl)
      apply wr_kept (hm.sub rfl)
      assumption

theorem writePortEn_kept (hm : Has m 0x77679fa) (x0 : Inst) (x1 : ℕ) (x2 : Fin 8) (x3 : Bool) (s : State)
    (hs : Kept m s₀ s) :
    Kept m s₀ (writePortEn x0 x1 x2 x3 s) := by
  unfold writePortEn
  apply runEnable_kept (hm.sub rfl)
  · intro y01 h2
    apply portEn_kept (hm.sub rfl)
    assumption
  · assumption

theorem execAuthFailSecond_kept (hm : Has m 0x56278ea) (x0 : ℕ) (s : State)
    (hs : Kept m s₀ s) :
    ResAll (Kept m s₀) (execAuthFailSecond x0 s) := by
  unfold execAuthFailSecond
  apply ResAll.ite
  · intro h1
    apply ResAll.next
    assumption
  · intro h1
    dsimp only
    apply ResAll.next
    apply Kept.ite
    · intro h5
      apply legUpset_kept (hm.sub rfl)
      apply legUpd_kept (hm.sub rfl)
      assumption
    · intro h5
      apply legUpd_kept (hm.sub rfl)
      assumption

theorem portUpset_kept (hm : Has m 0x56278ea) (x0 : ℕ) (s : State)
    (hs : Kept m s₀ s) :
    Kept m s₀ (portUpset x0 s) := by
  unfold portUpset
  dsimp only
  apply Kept.ite
  · intro h2
    apply portDown_kept (hm.sub rfl)
    apply Kept.fst
    apply upset_kept (hm.sub rfl)
    assumption
  · intro h2
    apply Kept.fst
    apply upset_kept (hm.sub rfl)
    assumption

theorem execLinkLoss_kept (hm : Has m 0x56278ea) (x0 : Fin 8) (s : State)
    (hs : Kept m s₀ s) :
    ResAll (Kept m s₀) (execLinkLoss x0 s) := by
  unfold execLinkLoss
  apply ResAll.ite
  · intro h1
    apply ResAll.next
    assumption
  · intro h1
    apply ResAll.next
    apply portUpset_kept (hm.sub rfl)
    apply portDown_kept (hm.sub rfl)
    apply bump_kept (hm.sub rfl)
    assumption

theorem execFecSecond_kept (hm : Has m 0x56278ea) (x0 : Fin 8) (x1 : ℕ) (x2 : ℕ) (s : State)
    (hs : Kept m s₀ s) :
    ResAll (Kept m s₀) (execFecSecond x0 x1 x2 s) := by
  unfold execFecSecond
  apply ResAll.ite
  · intro h1
    apply ResAll.next
    assumption
  · intro h1
    dsimp only
    apply ResAll.next
    apply Kept.ite
    · intro h5
      apply portUpset_kept (hm.sub rfl)
      apply fecSecond_kept (hm.sub rfl)
      apply txPortUpd_kept (hm.sub rfl)
      assumption
    · intro h5
      apply fecSecond_kept (hm.sub rfl)
      apply txPortUpd_kept (hm.sub rfl)
      assumption

theorem execCopyFormation_kept (hm : Has m 0x42701a) (s : State)
    (hs : Kept m s₀ s) :
    ResAll (Kept m s₀) (execCopyFormation s) := by
  unfold execCopyFormation
  apply ResAll.next
  apply Kept.ite
  · exact fun _ => by assumption
  · intro h2
    apply fanStep_kept (hm.sub rfl)
    assumption

theorem execGroupFrameBoundary_kept (hm : Has m 0x42781a) (x0 : Fin 64) (s : State)
    (hs : Kept m s₀ s) :
    ResAll (Kept m s₀) (execGroupFrameBoundary x0 s) := by
  unfold execGroupFrameBoundary
  apply ResAll.ite
  · intro h1
    apply ResAll.next
    assumption
  · intro h1
    dsimp only
    apply ResAll.next
    apply Kept.foldl
    · intro s5 b6 h7
      split
      · apply Kept.ite
        · intro h10
          refine Kept.mix_put (hm.sub rfl) ?_
          assumption
        · intro h10
          apply wr_kept (hm.sub rfl)
          apply wr_kept (hm.sub rfl)
          refine Kept.mix_put (hm.sub rfl) ?_
          split
          · apply wr_kept (hm.sub rfl)
            apply legAudioUpd_kept (hm.sub rfl)
            refine Kept.mix_put (hm.sub rfl) ?_
            assumption
          · apply legAudioUpd_kept (hm.sub rfl)
            refine Kept.mix_put (hm.sub rfl) ?_
            assumption
      · refine Kept.mix_put (hm.sub rfl) ?_
        assumption
    · refine Kept.mix_put (hm.sub rfl) ?_
      apply Kept.ite
      · exact fun _ => by assumption
      · intro h7
        apply Kept.foldl
        · intro s9 b10 h11
          split
          · apply sendAudio_kept (hm.sub rfl)
            assumption
          · apply sendAudio_kept (hm.sub rfl)
            assumption
        · apply Kept.foldl
          · intro s10 b11 h12
            refine Kept.mix_put (hm.sub rfl) ?_
            assumption
          · refine Kept.mix_put (hm.sub rfl) ?_
            assumption

theorem feedbackIn_kept (hm : Has m 0x4000) (x0 : ℕ) (x1 : List (ℕ × Option ℤ)) (s : State)
    (hs : Kept m s₀ s) :
    Kept m s₀ (feedbackIn x0 x1 s) := by
  unfold feedbackIn
  apply legUpd_kept (hm.sub rfl)
  assumption

theorem execFailbackHoldExpiry_kept (hm : Has m 0x2002) (x0 : Fin 8) (s : State)
    (hs : Kept m s₀ s) :
    ResAll (Kept m s₀) (execFailbackHoldExpiry x0 s) := by
  unfold execFailbackHoldExpiry
  apply ResAll.ite
  · intro h1
    apply ResAll.next
    assumption
  · intro h1
    apply ResAll.next
    apply Kept.foldl
    · intro s4 b5 h6
      apply legWake_kept (hm.sub rfl)
      apply wr_kept (hm.sub rfl)
      apply legUnlist_kept (hm.sub rfl)
      assumption
    · assumption

theorem execLinkUp_kept (hm : Has m 0x2002) (x0 : Fin 8) (s : State)
    (hs : Kept m s₀ s) :
    ResAll (Kept m s₀) (execLinkUp x0 s) := by
  unfold execLinkUp
  apply ResAll.ite
  · intro h1
    apply ResAll.next
    assumption
  · intro h1
    apply ResAll.next
    apply wakePort_kept (hm.sub rfl)
    apply txPortUpd_kept (hm.sub rfl)
    apply wr_kept (hm.sub rfl)
    assumption

theorem legCleared_kept (hm : Has m 0x7002) (x0 : ℕ) (s : State)
    (hs : Kept m s₀ s) :
    Kept m s₀ (legCleared x0 s) := by
  unfold legCleared
  apply Kept.ite
  · intro h1
    apply legStart_kept (hm.sub rfl)
    assumption
  · intro h1
    apply wr_kept (hm.sub rfl)
    assumption

theorem encodeTake_kept (hm : Has m 0x800) (s : State)
    (hs : Kept m s₀ s) :
    Kept m s₀ (encodeTake s) := by
  unfold encodeTake
  dsimp only
  refine Kept.mix_put (hm.sub rfl) ?_
  assumption

theorem execLegCkptTimer_kept (hm : Has m 0x404008) (s : State)
    (hs : Kept m s₀ s) :
    ResAll (Kept m s₀) (execLegCkptTimer s) := by
  unfold execLegCkptTimer
  apply ResAll.ite
  · intro h1
    apply ResAll.next
    assumption
  · intro h1
    dsimp only
    apply ResAll.next
    apply Kept.ite
    · intro h5
      apply Kept.foldl
      · intro s7 b8 h9
        apply sendCkpt_kept (hm.sub rfl)
        assumption
      · refine Kept.fwd_put (hm.sub rfl) ?_
        assumption
    · intro h5
      refine Kept.fwd_put (hm.sub rfl) ?_
      assumption

end Sys2Proof.Machine
end

