-- ==== Sys2Proof/Laws/KeptKernel.lean ====
section
/-! SUPPORT. Every effect of Machine/Kernel.lean keeps what `Kept` says. -/
set_option Elab.async false
namespace Sys2Proof.Machine

variable {m : Nat} {s₀ : State}

theorem tickLost_kept (hm : Has m 0x202) (x0 : ℕ) (s : State)
    (hs : Kept m s₀ s) :
    Kept m s₀ (tickLost x0 s) := by
  unfold tickLost
  split
  · assumption
  · apply bump_kept (hm.sub rfl)
    refine Kept.dsp_put (hm.sub rfl) ?_
    assumption

theorem onIssue_kept (hm : Has m 0x0) (x0 : ℕ) (x1 : ℕ → Bool) (x2 : Bool → Bank → ℕ → State → State) (s : State)
    (hf2 : ∀ y0 y1 y2 y3, Kept m s₀ y3 → (Kept m s₀) (x2 y0 y1 y2 y3)) (hs : Kept m s₀ s) :
    Kept m s₀ (onIssue x0 x1 x2 s) := by
  unfold onIssue
  split
  · assumption
  · apply Kept.ite
    · exact fun _ => by assumption
    · intro h2
      split
      · assumption
      · apply Kept.ite
        · intro h5
          apply hf2
          assumption
        · exact fun _ => by assumption

theorem meUpd_kept (hm : Has m 0x200) (x0 : ℕ) (x1 : Me → Me) (s : State)
    (hs : Kept m s₀ s) :
    Kept m s₀ (meUpd x0 x1 s) := by
  unfold meUpd
  refine Kept.dsp_put (hm.sub rfl) ?_
  assumption

theorem tickStop_kept (hm : Has m 0x300) (x0 : ℕ) (s : State)
    (hs : Kept m s₀ s) :
    Kept m s₀ (tickStop x0 s) := by
  unfold tickStop
  dsimp only
  apply meUpd_kept (hm.sub rfl)
  refine Kept.sch_put (hm.sub rfl) ?_
  assumption

theorem setBank_kept (hm : Has m 0x200) (x0 : ℕ) (x1 : Bool) (x2 : Bank) (s : State)
    (hs : Kept m s₀ s) :
    Kept m s₀ (setBank x0 x1 x2 s) := by
  unfold setBank
  apply meUpd_kept (hm.sub rfl)
  assumption

theorem kernelEnd_kept (hm : Has m 0x254030a) (x0 : ℕ) (x1 : Bool) (x2 : Bank) (x3 : List OutAct) (s : State)
    (hs : Kept m s₀ s) :
    Kept m s₀ (kernelEnd x0 x1 x2 x3 s) := by
  unfold kernelEnd
  apply Kept.ite
  · intro h1
    apply tickStop_kept (hm.sub rfl)
    apply setBank_kept (hm.sub rfl)
    assumption
  · intro h1
    apply completeOn_kept (hm.sub rfl)
    apply setBank_kept (hm.sub rfl)
    assumption

theorem kernelFault_kept (hm : Has m 0x254030a) (x0 : ℕ) (x1 : Bool) (x2 : Bank) (x3 : ℕ) (s : State)
    (hs : Kept m s₀ s) :
    Kept m s₀ (kernelFault x0 x1 x2 x3 s) := by
  unfold kernelFault
  dsimp only
  apply Kept.ite
  · intro h2
    apply tickLost_kept (hm.sub rfl)
    apply kernelEnd_kept (hm.sub rfl)
    apply wr_kept (hm.sub rfl)
    apply bump_kept (hm.sub rfl)
    apply bump_kept (hm.sub rfl)
    assumption
  · intro h2
    apply kernelEnd_kept (hm.sub rfl)
    apply wr_kept (hm.sub rfl)
    apply bump_kept (hm.sub rfl)
    apply bump_kept (hm.sub rfl)
    assumption

theorem issueMove_kept (hm : Has m 0x254030a) (x0 : ℕ) (x1 : Bool) (x2 : ℕ) (s : State)
    (hs : Kept m s₀ s) :
    Kept m s₀ (issueMove x0 x1 x2 s) := by
  unfold issueMove
  apply onIssue_kept (hm.sub rfl)
  · intro y01 y12 y23 y34 h5
    split
    · apply kernelFault_kept (hm.sub rfl)
      assumption
    · dsimp only
      apply setBank_kept (hm.sub rfl)
      apply meUpd_kept (hm.sub rfl)
      assumption
  · assumption

theorem copyIn_kept (hm : Has m 0x200) (x0 : ℕ) (x1 : Descr) (s : State)
    (hs : Kept m s₀ s) :
    Kept m s₀ (copyIn x0 x1 s) := by
  unfold copyIn
  apply Kept.ite
  · intro h1
    apply meUpd_kept (hm.sub rfl)
    assumption
  · exact fun _ => by assumption

theorem kernelStart_kept (hm : Has m 0x254030a) (x0 : ℕ) (x1 : Staged) (s : State)
    (hs : Kept m s₀ s) :
    Kept m s₀ (kernelStart x0 x1 s) := by
  unfold kernelStart
  split
  · assumption
  · dsimp only
    apply Kept.ite
    · intro h3
      apply completeOn_kept (hm.sub rfl)
      assumption
    · intro h3
      apply bump_kept (hm.sub rfl)
      apply setBank_kept (hm.sub rfl)
      apply copyIn_kept (hm.sub rfl)
      apply copyIn_kept (hm.sub rfl)
      assumption

theorem execMeWorkRequest_kept (hm : Has m 0x254030a) (x0 : Fin 128) (s : State)
    (hs : Kept m s₀ s) :
    ResAll (Kept m s₀) (execMeWorkRequest x0 s) := by
  unfold execMeWorkRequest
  apply ResAll.ite
  · intro h1
    apply ResAll.next
    assumption
  · intro h1
    split
    · apply ResAll.next
      apply dispatch_elim (hm.sub rfl) (by assumption)
      assumption
    · apply ResAll.next
      apply Kept.ite
      · intro h5
        apply kernelStart_kept (hm.sub rfl)
        apply dispatch_elim (hm.sub rfl) (by assumption)
        assumption
      · intro h5
        apply dispatch_elim (hm.sub rfl) (by assumption)
        assumption

theorem issuePar_kept (hm : Has m 0x254030a) (x0 : ℕ) (x1 : ℕ) (x2 : ℕ → Bank → List RegWrite) (x3 : ℕ) (s : State)
    (hs : Kept m s₀ s) :
    Kept m s₀ (issuePar x0 x1 x2 x3 s) := by
  unfold issuePar
  apply onIssue_kept (hm.sub rfl)
  · intro y01 y12 y23 y34 h5
    split
    · apply kernelFault_kept (hm.sub rfl)
      assumption
    · dsimp only
      apply setBank_kept (hm.sub rfl)
      apply meUpd_kept (hm.sub rfl)
      assumption
  · assumption

theorem execExp_kept (hm : Has m 0x254030a) (x0 : Fin 128) (s : State)
    (hs : Kept m s₀ s) :
    ResAll (Kept m s₀) (execExp x0 s) := by
  unfold execExp
  apply ResAll.next
  apply issuePar_kept (hm.sub rfl)
  assumption

theorem execAclr_kept (hm : Has m 0x254030a) (x0 : Fin 128) (s : State)
    (hs : Kept m s₀ s) :
    ResAll (Kept m s₀) (execAclr x0 s) := by
  unfold execAclr
  apply ResAll.next
  apply issuePar_kept (hm.sub rfl)
  assumption

theorem execOr_kept (hm : Has m 0x254030a) (x0 : Fin 128) (s : State)
    (hs : Kept m s₀ s) :
    ResAll (Kept m s₀) (execOr x0 s) := by
  unfold execOr
  apply ResAll.next
  apply issuePar_kept (hm.sub rfl)
  assumption

theorem execShl_kept (hm : Has m 0x254030a) (x0 : Fin 128) (s : State)
    (hs : Kept m s₀ s) :
    ResAll (Kept m s₀) (execShl x0 s) := by
  unfold execShl
  apply ResAll.next
  apply issuePar_kept (hm.sub rfl)
  assumption

theorem execAsh_kept (hm : Has m 0x254030a) (x0 : Fin 128) (s : State)
    (hs : Kept m s₀ s) :
    ResAll (Kept m s₀) (execAsh x0 s) := by
  unfold execAsh
  apply ResAll.next
  apply issuePar_kept (hm.sub rfl)
  assumption

theorem execLdc_kept (hm : Has m 0x254030a) (x0 : Fin 128) (s : State)
    (hs : Kept m s₀ s) :
    ResAll (Kept m s₀) (execLdc x0 s) := by
  unfold execLdc
  apply ResAll.next
  apply onIssue_kept (hm.sub rfl)
  · intro y02 y13 y24 y35 h6
    dsimp only
    apply Kept.ite
    · intro h9
      apply kernelFault_kept (hm.sub rfl)
      assumption
    · intro h9
      apply Kept.ite
      · intro h11
        apply kernelFault_kept (hm.sub rfl)
        assumption
      · intro h11
        apply setBank_kept (hm.sub rfl)
        assumption
  · assumption

theorem execAbs_kept (hm : Has m 0x254030a) (x0 : Fin 128) (s : State)
    (hs : Kept m s₀ s) :
    ResAll (Kept m s₀) (execAbs x0 s) := by
  unfold execAbs
  apply ResAll.next
  apply issuePar_kept (hm.sub rfl)
  assumption

theorem issueCtl_kept (hm : Has m 0x200) (x0 : ℕ) (x1 : ℕ → Bank → List RegWrite) (x2 : ℕ) (s : State)
    (hs : Kept m s₀ s) :
    Kept m s₀ (issueCtl x0 x1 x2 s) := by
  unfold issueCtl
  apply onIssue_kept (hm.sub rfl)
  · intro y01 y12 y23 y34 h5
    apply setBank_kept (hm.sub rfl)
    assumption
  · assumption

theorem execSetv_kept (hm : Has m 0x200) (x0 : Fin 128) (s : State)
    (hs : Kept m s₀ s) :
    ResAll (Kept m s₀) (execSetv x0 s) := by
  unfold execSetv
  apply ResAll.next
  apply issueCtl_kept (hm.sub rfl)
  assumption

theorem execMsu_kept (hm : Has m 0x254030a) (x0 : Fin 128) (s : State)
    (hs : Kept m s₀ s) :
    ResAll (Kept m s₀) (execMsu x0 s) := by
  unfold execMsu
  apply ResAll.next
  apply issuePar_kept (hm.sub rfl)
  assumption

theorem execSel_kept (hm : Has m 0x254030a) (x0 : Fin 128) (s : State)
    (hs : Kept m s₀ s) :
    ResAll (Kept m s₀) (execSel x0 s) := by
  unfold execSel
  apply ResAll.next
  apply issuePar_kept (hm.sub rfl)
  assumption

theorem execLdb_kept (hm : Has m 0x254030a) (x0 : Fin 128) (x1 : Bool) (s : State)
    (hs : Kept m s₀ s) :
    ResAll (Kept m s₀) (execLdb x0 x1 s) := by
  unfold execLdb
  apply ResAll.next
  apply issueMove_kept (hm.sub rfl)
  assumption

theorem execSetp_kept (hm : Has m 0x200) (x0 : Fin 128) (s : State)
    (hs : Kept m s₀ s) :
    ResAll (Kept m s₀) (execSetp x0 s) := by
  unfold execSetp
  apply ResAll.next
  apply issueCtl_kept (hm.sub rfl)
  assumption

theorem copyOut_kept (hm : Has m 0x2040000) (x0 : ℕ) (x1 : Descr) (s : State)
    (hs : Kept m s₀ s) :
    Kept m s₀ (copyOut x0 x1 s) := by
  unfold copyOut
  apply Kept.ite
  · intro h1
    apply memWrite_kept (hm.sub rfl)
    assumption
  · exact fun _ => by assumption

theorem haltKernel_kept (hm : Has m 0x254030a) (x0 : ℕ) (x1 : Bool) (x2 : Bank) (x3 : ℕ) (s : State)
    (hs : Kept m s₀ s) :
    Kept m s₀ (haltKernel x0 x1 x2 x3 s) := by
  unfold haltKernel
  dsimp only
  apply Kept.ite
  · intro h2
    apply Kept.ite
    · intro h4
      split
      · refine Kept.dsp_put (hm.sub rfl) ?_
        apply kernelEnd_kept (hm.sub rfl)
        apply upd_kept (hm.sub rfl)
        · intro y09 h10
          apply bump_kept (hm.sub rfl)
          assumption
        · assumption
      · apply kernelEnd_kept (hm.sub rfl)
        apply upd_kept (hm.sub rfl)
        · intro y08 h9
          apply bump_kept (hm.sub rfl)
          assumption
        · assumption
    · intro h4
      apply tickLost_kept (hm.sub rfl)
      apply kernelEnd_kept (hm.sub rfl)
      apply upd_kept (hm.sub rfl)
      · intro y08 h9
        apply bump_kept (hm.sub rfl)
        assumption
      · assumption
  · intro h2
    apply Kept.ite
    · intro h4
      apply kernelEnd_kept (hm.sub rfl)
      apply upd_kept (hm.sub rfl)
      · intro y07 h8
        apply bump_kept (hm.sub rfl)
        assumption
      · assumption
    · intro h4
      split
      · apply kernelEnd_kept (hm.sub rfl)
        apply upd_kept (hm.sub rfl)
        · intro y08 h9
          apply bump_kept (hm.sub rfl)
          assumption
        · assumption
      · apply kernelEnd_kept (hm.sub rfl)
        apply copyOut_kept (hm.sub rfl)
        apply copyOut_kept (hm.sub rfl)
        apply upd_kept (hm.sub rfl)
        · intro y010 h11
          apply bump_kept (hm.sub rfl)
          assumption
        · assumption

theorem execHalt_kept (hm : Has m 0x254030a) (x0 : Fin 128) (s : State)
    (hs : Kept m s₀ s) :
    ResAll (Kept m s₀) (execHalt x0 s) := by
  unfold execHalt
  apply ResAll.next
  apply onIssue_kept (hm.sub rfl)
  · intro y02 y13 y24 y35 h6
    apply haltKernel_kept (hm.sub rfl)
    assumption
  · assumption

theorem execCmac_kept (hm : Has m 0x254030a) (x0 : Fin 128) (s : State)
    (hs : Kept m s₀ s) :
    ResAll (Kept m s₀) (execCmac x0 s) := by
  unfold execCmac
  apply ResAll.next
  apply issuePar_kept (hm.sub rfl)
  assumption

theorem execShr_kept (hm : Has m 0x254030a) (x0 : Fin 128) (s : State)
    (hs : Kept m s₀ s) :
    ResAll (Kept m s₀) (execShr x0 s) := by
  unfold execShr
  apply ResAll.next
  apply issuePar_kept (hm.sub rfl)
  assumption

theorem execCmp_kept (hm : Has m 0x254030a) (x0 : Fin 128) (s : State)
    (hs : Kept m s₀ s) :
    ResAll (Kept m s₀) (execCmp x0 s) := by
  unfold execCmp
  apply ResAll.next
  apply issuePar_kept (hm.sub rfl)
  assumption

theorem execMacx_kept (hm : Has m 0x254030a) (x0 : Fin 128) (s : State)
    (hs : Kept m s₀ s) :
    ResAll (Kept m s₀) (execMacx x0 s) := by
  unfold execMacx
  apply ResAll.next
  apply issuePar_kept (hm.sub rfl)
  assumption

theorem execCnop_kept (hm : Has m 0x200) (x0 : Fin 128) (s : State)
    (hs : Kept m s₀ s) :
    ResAll (Kept m s₀) (execCnop x0 s) := by
  unfold execCnop
  apply ResAll.next
  apply issueCtl_kept (hm.sub rfl)
  assumption

theorem execPupd_kept (hm : Has m 0x254030a) (x0 : Fin 128) (x1 : Bool) (s : State)
    (hs : Kept m s₀ s) :
    ResAll (Kept m s₀) (execPupd x0 x1 s) := by
  unfold execPupd
  apply ResAll.next
  apply issueMove_kept (hm.sub rfl)
  assumption

theorem execRndh_kept (hm : Has m 0x254030a) (x0 : Fin 128) (s : State)
    (hs : Kept m s₀ s) :
    ResAll (Kept m s₀) (execRndh x0 s) := by
  unfold execRndh
  apply ResAll.next
  apply issuePar_kept (hm.sub rfl)
  assumption

theorem execNeg_kept (hm : Has m 0x254030a) (x0 : Fin 128) (s : State)
    (hs : Kept m s₀ s) :
    ResAll (Kept m s₀) (execNeg x0 s) := by
  unfold execNeg
  apply ResAll.next
  apply issuePar_kept (hm.sub rfl)
  assumption

theorem execBra_kept (hm : Has m 0x200) (x0 : Fin 128) (s : State)
    (hs : Kept m s₀ s) :
    ResAll (Kept m s₀) (execBra x0 s) := by
  unfold execBra
  apply ResAll.next
  apply onIssue_kept (hm.sub rfl)
  · intro y02 y13 y24 y35 h6
    apply setBank_kept (hm.sub rfl)
    assumption
  · assumption

theorem execAdd_kept (hm : Has m 0x254030a) (x0 : Fin 128) (s : State)
    (hs : Kept m s₀ s) :
    ResAll (Kept m s₀) (execAdd x0 s) := by
  unfold execAdd
  apply ResAll.next
  apply issuePar_kept (hm.sub rfl)
  assumption

theorem execAadd_kept (hm : Has m 0x254030a) (x0 : Fin 128) (s : State)
    (hs : Kept m s₀ s) :
    ResAll (Kept m s₀) (execAadd x0 s) := by
  unfold execAadd
  apply ResAll.next
  apply issuePar_kept (hm.sub rfl)
  assumption

theorem execSub_kept (hm : Has m 0x254030a) (x0 : Fin 128) (s : State)
    (hs : Kept m s₀ s) :
    ResAll (Kept m s₀) (execSub x0 s) := by
  unfold execSub
  apply ResAll.next
  apply issuePar_kept (hm.sub rfl)
  assumption

theorem execAddp_kept (hm : Has m 0x200) (x0 : Fin 128) (s : State)
    (hs : Kept m s₀ s) :
    ResAll (Kept m s₀) (execAddp x0 s) := by
  unfold execAddp
  apply ResAll.next
  apply issueCtl_kept (hm.sub rfl)
  assumption

theorem execMac2_kept (hm : Has m 0x254030a) (x0 : Fin 128) (s : State)
    (hs : Kept m s₀ s) :
    ResAll (Kept m s₀) (execMac2 x0 s) := by
  unfold execMac2
  apply ResAll.next
  apply issuePar_kept (hm.sub rfl)
  assumption

theorem execAmov_kept (hm : Has m 0x254030a) (x0 : Fin 128) (s : State)
    (hs : Kept m s₀ s) :
    ResAll (Kept m s₀) (execAmov x0 s) := by
  unfold execAmov
  apply ResAll.next
  apply issuePar_kept (hm.sub rfl)
  assumption

theorem execLd_kept (hm : Has m 0x254030a) (x0 : Fin 128) (x1 : Bool) (s : State)
    (hs : Kept m s₀ s) :
    ResAll (Kept m s₀) (execLd x0 x1 s) := by
  unfold execLd
  apply ResAll.next
  apply issueMove_kept (hm.sub rfl)
  assumption

theorem execXor_kept (hm : Has m 0x254030a) (x0 : Fin 128) (s : State)
    (hs : Kept m s₀ s) :
    ResAll (Kept m s₀) (execXor x0 s) := by
  unfold execXor
  apply ResAll.next
  apply issuePar_kept (hm.sub rfl)
  assumption

theorem execNop_kept (hm : Has m 0x254030a) (x0 : Fin 128) (s : State)
    (hs : Kept m s₀ s) :
    ResAll (Kept m s₀) (execNop x0 s) := by
  unfold execNop
  apply ResAll.next
  apply issuePar_kept (hm.sub rfl)
  assumption

theorem execLdcDataArrive_kept (hm : Has m 0x200) (x0 : Fin 128) (s : State)
    (hs : Kept m s₀ s) :
    ResAll (Kept m s₀) (execLdcDataArrive x0 s) := by
  unfold execLdcDataArrive
  split
  · apply ResAll.next
    assumption
  · split
    · apply ResAll.next
      assumption
    · dsimp only
      apply ResAll.next
      apply setBank_kept (hm.sub rfl)
      assumption

theorem execMpy_kept (hm : Has m 0x254030a) (x0 : Fin 128) (s : State)
    (hs : Kept m s₀ s) :
    ResAll (Kept m s₀) (execMpy x0 s) := by
  unfold execMpy
  apply ResAll.next
  apply issuePar_kept (hm.sub rfl)
  assumption

theorem execRdst_kept (hm : Has m 0x200) (x0 : Fin 128) (s : State)
    (hs : Kept m s₀ s) :
    ResAll (Kept m s₀) (execRdst x0 s) := by
  unfold execRdst
  apply ResAll.next
  apply issueCtl_kept (hm.sub rfl)
  assumption

theorem execMax_kept (hm : Has m 0x254030a) (x0 : Fin 128) (s : State)
    (hs : Kept m s₀ s) :
    ResAll (Kept m s₀) (execMax x0 s) := by
  unfold execMax
  apply ResAll.next
  apply issuePar_kept (hm.sub rfl)
  assumption

theorem execRnd_kept (hm : Has m 0x254030a) (x0 : Fin 128) (s : State)
    (hs : Kept m s₀ s) :
    ResAll (Kept m s₀) (execRnd x0 s) := by
  unfold execRnd
  apply ResAll.next
  apply issuePar_kept (hm.sub rfl)
  assumption

theorem execCmpy_kept (hm : Has m 0x254030a) (x0 : Fin 128) (s : State)
    (hs : Kept m s₀ s) :
    ResAll (Kept m s₀) (execCmpy x0 s) := by
  unfold execCmpy
  apply ResAll.next
  apply issuePar_kept (hm.sub rfl)
  assumption

theorem execBfly_kept (hm : Has m 0x254030a) (x0 : Fin 128) (s : State)
    (hs : Kept m s₀ s) :
    ResAll (Kept m s₀) (execBfly x0 s) := by
  unfold execBfly
  apply ResAll.next
  apply issuePar_kept (hm.sub rfl)
  assumption

theorem execAnd_kept (hm : Has m 0x254030a) (x0 : Fin 128) (s : State)
    (hs : Kept m s₀ s) :
    ResAll (Kept m s₀) (execAnd x0 s) := by
  unfold execAnd
  apply ResAll.next
  apply issuePar_kept (hm.sub rfl)
  assumption

theorem execLoop_kept (hm : Has m 0x254030a) (x0 : Fin 128) (s : State)
    (hs : Kept m s₀ s) :
    ResAll (Kept m s₀) (execLoop x0 s) := by
  unfold execLoop
  apply ResAll.next
  apply onIssue_kept (hm.sub rfl)
  · intro y02 y13 y24 y35 h6
    dsimp only
    apply Kept.ite
    · intro h9
      apply setBank_kept (hm.sub rfl)
      assumption
    · intro h9
      apply Kept.ite
      · intro h11
        apply kernelFault_kept (hm.sub rfl)
        assumption
      · intro h11
        apply setBank_kept (hm.sub rfl)
        assumption
  · assumption

theorem execBcc_kept (hm : Has m 0x200) (x0 : Fin 128) (s : State)
    (hs : Kept m s₀ s) :
    ResAll (Kept m s₀) (execBcc x0 s) := by
  unfold execBcc
  apply ResAll.next
  apply onIssue_kept (hm.sub rfl)
  · intro y02 y13 y24 y35 h6
    apply setBank_kept (hm.sub rfl)
    assumption
  · assumption

theorem execMpy2_kept (hm : Has m 0x254030a) (x0 : Fin 128) (s : State)
    (hs : Kept m s₀ s) :
    ResAll (Kept m s₀) (execMpy2 x0 s) := by
  unfold execMpy2
  apply ResAll.next
  apply issuePar_kept (hm.sub rfl)
  assumption

theorem execPerm_kept (hm : Has m 0x254030a) (x0 : Fin 128) (s : State)
    (hs : Kept m s₀ s) :
    ResAll (Kept m s₀) (execPerm x0 s) := by
  unfold execPerm
  apply ResAll.next
  apply issuePar_kept (hm.sub rfl)
  assumption

theorem execClrf_kept (hm : Has m 0x200) (x0 : Fin 128) (s : State)
    (hs : Kept m s₀ s) :
    ResAll (Kept m s₀) (execClrf x0 s) := by
  unfold execClrf
  apply ResAll.next
  apply issueCtl_kept (hm.sub rfl)
  assumption

theorem execMac_kept (hm : Has m 0x254030a) (x0 : Fin 128) (s : State)
    (hs : Kept m s₀ s) :
    ResAll (Kept m s₀) (execMac x0 s) := by
  unfold execMac
  apply ResAll.next
  apply issuePar_kept (hm.sub rfl)
  assumption

theorem execAsub_kept (hm : Has m 0x254030a) (x0 : Fin 128) (s : State)
    (hs : Kept m s₀ s) :
    ResAll (Kept m s₀) (execAsub x0 s) := by
  unfold execAsub
  apply ResAll.next
  apply issuePar_kept (hm.sub rfl)
  assumption

theorem execMin_kept (hm : Has m 0x254030a) (x0 : Fin 128) (s : State)
    (hs : Kept m s₀ s) :
    ResAll (Kept m s₀) (execMin x0 s) := by
  unfold execMin
  apply ResAll.next
  apply issuePar_kept (hm.sub rfl)
  assumption

theorem execSetm_kept (hm : Has m 0x200) (x0 : Fin 128) (s : State)
    (hs : Kept m s₀ s) :
    ResAll (Kept m s₀) (execSetm x0 s) := by
  unfold execSetm
  apply ResAll.next
  apply issueCtl_kept (hm.sub rfl)
  assumption

theorem execSt_kept (hm : Has m 0x254030a) (x0 : Fin 128) (x1 : Bool) (s : State)
    (hs : Kept m s₀ s) :
    ResAll (Kept m s₀) (execSt x0 x1 s) := by
  unfold execSt
  apply ResAll.next
  apply issueMove_kept (hm.sub rfl)
  assumption

end Sys2Proof.Machine
end

