-- ==== Sys2Proof/Laws/KeptImage.lean ====
section
/-! SUPPORT. Every effect of Machine/Image.lean keeps what `Kept` says. -/
set_option Elab.async false
namespace Sys2Proof.Machine

variable {m : Nat} {s₀ : State}

theorem stopBanks_kept (hm : Has m 0x200) (s : State)
    (hs : Kept m s₀ s) :
    Kept m s₀ (stopBanks s) := by
  unfold stopBanks
  refine Kept.dsp_put (hm.sub rfl) ?_
  assumption

theorem tickMove_kept (hm : Has m 0x302) (x0 : ℕ) (s : State)
    (hs : Kept m s₀ s) :
    Kept m s₀ (tickMove x0 s) := by
  unfold tickMove
  dsimp only
  split
  · apply wr_kept (hm.sub rfl)
    apply meUpd_kept (hm.sub rfl)
    apply upd_kept (hm.sub rfl)
    · intro y05 h6
      apply tickLost_kept (hm.sub rfl)
      assumption
    · apply tickStop_kept (hm.sub rfl)
      assumption
  · apply wr_kept (hm.sub rfl)
    apply upd_kept (hm.sub rfl)
    · intro y04 h5
      apply tickLost_kept (hm.sub rfl)
      assumption
    · apply tickStop_kept (hm.sub rfl)
      assumption

theorem ticksMove_kept (hm : Has m 0x302) (x0 : ℕ → Bool) (s : State)
    (hs : Kept m s₀ s) :
    Kept m s₀ (ticksMove x0 s) := by
  unfold ticksMove
  apply Kept.foldl
  · intro s1 b2 h3
    apply tickMove_kept (hm.sub rfl)
    assumption
  · assumption

theorem clusterGone_kept (hm : Has m 0x354030a) (x0 : ℕ) (x1 : ℕ) (s : State)
    (hs : Kept m s₀ s) :
    Kept m s₀ (clusterGone x0 x1 s) := by
  unfold clusterGone
  apply ticksMove_kept (hm.sub rfl)
  apply stopBanks_kept (hm.sub rfl)
  apply clusterLost_kept (hm.sub rfl)
  apply wr_kept (hm.sub rfl)
  assumption

theorem clusterUpset_kept (hm : Has m 0x374030a) (x0 : ℕ) (s : State)
    (hs : Kept m s₀ s) :
    Kept m s₀ (clusterUpset x0 s) := by
  unfold clusterUpset
  split
  · apply clusterGone_kept (hm.sub rfl)
    apply upset_elim (hm.sub rfl) (by assumption)
    assumption
  · apply upset_elim (hm.sub rfl) (by assumption)
    assumption

theorem meRetired_kept (hm : Has m 0x374030a) (x0 : ℕ) (s : State)
    (hs : Kept m s₀ s) :
    Kept m s₀ (meRetired x0 s) := by
  unfold meRetired
  dsimp only
  apply clusterUpset_kept (hm.sub rfl)
  apply ticksMove_kept (hm.sub rfl)
  apply wr_kept (hm.sub rfl)
  apply stopBanks_kept (hm.sub rfl)
  apply redispatch_kept (hm.sub rfl)
  assumption

theorem sharedInit_kept (hm : Has m 0x2040000) (x0 : ℕ) (x1 : Bytes) (s : State)
    (hs : Kept m s₀ s) :
    Kept m s₀ (sharedInit x0 x1 s) := by
  unfold sharedInit
  apply Kept.foldl
  · intro s1 b2 h3
    apply memWrite_kept (hm.sub rfl)
    apply memClear_kept (hm.sub rfl)
    assumption
  · assumption

theorem syncKernelSpace_kept (hm : Has m 0x2) (s : State)
    (hs : Kept m s₀ s) :
    Kept m s₀ (syncKernelSpace s) := by
  unfold syncKernelSpace
  dsimp only
  apply wr_kept (hm.sub rfl)
  apply wr_kept (hm.sub rfl)
  assumption

theorem unplace_kept (hm : Has m 0x202) (x0 : ℕ) (s : State)
    (hs : Kept m s₀ s) :
    Kept m s₀ (unplace x0 s) := by
  unfold unplace
  apply syncKernelSpace_kept (hm.sub rfl)
  apply wr_kept (hm.sub rfl)
  apply wr_kept (hm.sub rfl)
  refine Kept.dsp_put (hm.sub rfl) ?_
  assumption

theorem kunload_kept (hm : Has m 0x206) (x0 : ℕ) (s : State)
    (hs : Kept m s₀ s) :
    Kept m s₀ (kunload x0 s) := by
  unfold kunload
  apply wr_kept (hm.sub rfl)
  apply wr_kept (hm.sub rfl)
  apply unplace_kept (hm.sub rfl)
  refine Kept.blobs_put (hm.sub rfl) ?_
  assumption

theorem writeKunload_kept (hm : Has m 0x24633de) (x0 : Inst) (x1 : ℕ) (x2 : Fin 64) (s : State)
    (hs : Kept m s₀ s) :
    Kept m s₀ (writeKunload x0 x1 x2 s) := by
  unfold writeKunload
  apply runCmd_kept (hm.sub rfl)
  · intro y01 h2
    apply markDirty_kept (hm.sub rfl)
    apply kunload_kept (hm.sub rfl)
    assumption
  · assumption

theorem execItemComplete_kept (hm : Has m 0x254010a) (x0 : Fin 128) (x1 : List OutAct) (s : State)
    (hs : Kept m s₀ s) :
    ResAll (Kept m s₀) (execItemComplete x0 x1 s) := by
  unfold execItemComplete
  apply ResAll.next
  apply Kept.ite
  · exact fun _ => by assumption
  · intro h2
    apply completeOn_kept (hm.sub rfl)
    assumption

theorem meFault_kept (hm : Has m 0x374030a) (x0 : ℕ) (s : State)
    (hs : Kept m s₀ s) :
    Kept m s₀ (meFault x0 s) := by
  unfold meFault
  split
  · apply meRetired_kept (hm.sub rfl)
    apply upset_elim (hm.sub rfl) (by assumption)
    apply bump_kept (hm.sub rfl)
    assumption
  · apply stopBanks_kept (hm.sub rfl)
    apply redispatch_kept (hm.sub rfl)
    apply upset_elim (hm.sub rfl) (by assumption)
    apply bump_kept (hm.sub rfl)
    assumption

theorem execRunLimitExceeded_kept (hm : Has m 0x374030a) (x0 : Fin 128) (s : State)
    (hs : Kept m s₀ s) :
    ResAll (Kept m s₀) (execRunLimitExceeded x0 s) := by
  unfold execRunLimitExceeded
  split
  · apply ResAll.next
    assumption
  · apply ResAll.next
    apply Kept.ite
    · intro h3
      apply meFault_kept (hm.sub rfl)
      assumption
    · exact fun _ => by assumption

theorem validateImage_kept (hm : Has m 0x2040202) (x0 : ℕ) (s : State)
    (hs : Kept m s₀ s) :
    Kept m s₀ (validateImage x0 s) := by
  unfold validateImage
  dsimp only
  split
  · apply wr_kept (hm.sub rfl)
    apply wr_kept (hm.sub rfl)
    assumption
  · apply syncKernelSpace_kept (hm.sub rfl)
    apply wr_kept (hm.sub rfl)
    apply wr_kept (hm.sub rfl)
    apply wr_kept (hm.sub rfl)
    apply wr_kept (hm.sub rfl)
    apply sharedInit_kept (hm.sub rfl)
    refine Kept.dsp_put (hm.sub rfl) ?_
    assumption

theorem execKimageValidated_kept (hm : Has m 0x2040202) (x0 : Fin 64) (s : State)
    (hs : Kept m s₀ s) :
    ResAll (Kept m s₀) (execKimageValidated x0 s) := by
  unfold execKimageValidated
  apply ResAll.next
  apply Kept.ite
  · intro h2
    apply validateImage_kept (hm.sub rfl)
    assumption
  · exact fun _ => by assumption

theorem execMeFault_kept (hm : Has m 0x374030a) (x0 : Fin 128) (s : State)
    (hs : Kept m s₀ s) :
    ResAll (Kept m s₀) (execMeFault x0 s) := by
  unfold execMeFault
  apply ResAll.next
  apply meFault_kept (hm.sub rfl)
  assumption

theorem execClusterFault_kept (hm : Has m 0x374030a) (x0 : Fin 8) (s : State)
    (hs : Kept m s₀ s) :
    ResAll (Kept m s₀) (execClusterFault x0 s) := by
  unfold execClusterFault
  dsimp only
  apply ResAll.next
  split
  · apply clusterGone_kept (hm.sub rfl)
    apply upset_elim (hm.sub rfl) (by assumption)
    assumption
  · apply stopBanks_kept (hm.sub rfl)
    apply clusterLost_kept (hm.sub rfl)
    apply upset_elim (hm.sub rfl) (by assumption)
    assumption

theorem imageWritten_kept (hm : Has m 0x202) (x0 : ℕ) (s : State)
    (hs : Kept m s₀ s) :
    Kept m s₀ (imageWritten x0 s) := by
  unfold imageWritten
  apply wr_kept (hm.sub rfl)
  apply wr_kept (hm.sub rfl)
  apply unplace_kept (hm.sub rfl)
  assumption

theorem writeBEn_kept (hm : Has m 0x24631da) (x0 : Inst) (x1 : ℕ) (x2 : Fin 256) (x3 : Bool) (s : State)
    (hs : Kept m s₀ s) :
    Kept m s₀ (writeBEn x0 x1 x2 x3 s) := by
  unfold writeBEn
  apply runWrite_kept (hm.sub rfl)
  · intro y01 h2
    apply wr_kept (hm.sub rfl)
    assumption
  · assumption

end Sys2Proof.Machine
end

