-- ==== Sys2Proof/Laws/KeptTick.lean ====
section
/-! SUPPORT. Every effect of Machine/Tick.lean keeps what `Kept` says. -/
set_option Elab.async false
namespace Sys2Proof.Machine

variable {m : Nat} {s₀ : State}

theorem tickUpd_kept (hm : Has m 0x200) (x0 : ℕ) (x1 : TickSlot → TickSlot) (s : State)
    (hs : Kept m s₀ s) :
    Kept m s₀ (tickUpd x0 x1 s) := by
  unfold tickUpd
  refine Kept.dsp_put (hm.sub rfl) ?_
  assumption

theorem tickEn_kept (hm : Has m 0xa02) (x0 : ℕ) (x1 : Bool) (s : State)
    (hs : Kept m s₀ s) :
    Kept m s₀ (tickEn x0 x1 s) := by
  unfold tickEn
  dsimp only
  apply Kept.ite
  · intro h2
    apply wr_kept (hm.sub rfl)
    assumption
  · intro h2
    apply Kept.ite
    · intro h4
      apply wr_kept (hm.sub rfl)
      apply tickUpd_kept (hm.sub rfl)
      apply meUpd_kept (hm.sub rfl)
      refine Kept.mix_put (hm.sub rfl) ?_
      apply wr_kept (hm.sub rfl)
      assumption
    · intro h4
      apply wr_kept (hm.sub rfl)
      apply tickUpd_kept (hm.sub rfl)
      refine Kept.mix_put (hm.sub rfl) ?_
      apply Kept.ite
      · intro h9
        apply meUpd_kept (hm.sub rfl)
        apply wr_kept (hm.sub rfl)
        assumption
      · intro h9
        apply wr_kept (hm.sub rfl)
        assumption

theorem writeTEn_kept (hm : Has m 0x2563bda) (x0 : Inst) (x1 : ℕ) (x2 : Fin 8) (x3 : Bool) (s : State)
    (hs : Kept m s₀ s) :
    Kept m s₀ (writeTEn x0 x1 x2 x3 s) := by
  unfold writeTEn
  apply runEnable_kept (hm.sub rfl)
  · intro y01 h2
    apply tickEn_kept (hm.sub rfl)
    assumption
  · assumption

theorem execTickBudgetExpiry_kept (hm : Has m 0x302) (x0 : Fin 8) (s : State)
    (hs : Kept m s₀ s) :
    ResAll (Kept m s₀) (execTickBudgetExpiry x0 s) := by
  unfold execTickBudgetExpiry
  dsimp only
  apply ResAll.ite
  · intro h2
    apply ResAll.next
    assumption
  · intro h2
    apply ResAll.next
    apply tickLost_kept (hm.sub rfl)
    apply tickStop_kept (hm.sub rfl)
    assumption

theorem tickWrite_kept (hm : Has m 0x200) (x0 : ℕ) (s : State) (x2 : ℕ)
    (hs : Kept m s₀ s) :
    Kept m s₀ (tickWrite x0 s x2) := by
  unfold tickWrite
  dsimp only
  apply meUpd_kept (hm.sub rfl)
  assumption

theorem tickSample_kept (hm : Has m 0x200) (x0 : ℕ) (s : State)
    (hs : Kept m s₀ s) :
    Kept m s₀ (tickSample x0 s) := by
  unfold tickSample
  apply Kept.ite
  · exact fun _ => by assumption
  · intro h1
    dsimp only
    apply tickUpd_kept (hm.sub rfl)
    assumption

theorem tickInputs_kept (hm : Has m 0xa00) (x0 : ℕ) (s : State)
    (hs : Kept m s₀ s) :
    Kept m s₀ (tickInputs x0 s) := by
  unfold tickInputs
  apply Kept.ite
  · exact fun _ => by assumption
  · intro h1
    dsimp only
    apply setInputs_kept (hm.sub rfl)
    apply tickUpd_kept (hm.sub rfl)
    assumption

theorem tickTake_kept (hm : Has m 0x200) (x0 : ℕ) (x1 : ℕ) (s : State)
    (hs : Kept m s₀ s) :
    Kept m s₀ (tickTake x0 x1 s) := by
  unfold tickTake
  dsimp only
  apply Kept.ite
  · intro h2
    apply tickUpd_kept (hm.sub rfl)
    assumption
  · intro h2
    apply tickUpd_kept (hm.sub rfl)
    assumption

theorem execTickBoundary_kept (hm : Has m 0x302) (x0 : Fin 8) (s : State)
    (hs : Kept m s₀ s) :
    ResAll (Kept m s₀) (execTickBoundary x0 s) := by
  unfold execTickBoundary
  dsimp only
  apply ResAll.ite
  · intro h2
    apply ResAll.next
    assumption
  · intro h2
    apply ResAll.ite
    · intro h4
      apply ResAll.next
      apply tickUpd_kept (hm.sub rfl)
      apply bump_kept (hm.sub rfl)
      apply tickTake_kept (hm.sub rfl)
      assumption
    · intro h4
      apply ResAll.next
      apply bump_kept (hm.sub rfl)
      apply meUpd_kept (hm.sub rfl)
      apply tickUpd_kept (hm.sub rfl)
      apply tickWrite_kept (hm.sub rfl)
      apply tickTake_kept (hm.sub rfl)
      apply Kept.ite
      · intro h12
        apply tickLost_kept (hm.sub rfl)
        apply tickStop_kept (hm.sub rfl)
        assumption
      · exact fun _ => by assumption

end Sys2Proof.Machine
end

