-- ==== Sys2Proof/Laws/KeptAudio.lean ====
section
/-! SUPPORT. Every effect of Machine/Audio.lean keeps what `Kept` says. -/
set_option Elab.async false
namespace Sys2Proof.Machine

variable {m : Nat} {s₀ : State}

theorem slotInputs_kept (hm : Has m 0x800) (s : State)
    (hs : Kept m s₀ s) :
    Kept m s₀ (slotInputs s) := by
  unfold slotInputs
  apply Kept.foldl
  · intro s1 b2 h3
    split
    · assumption
    · apply setInputs_kept (hm.sub rfl)
      refine Kept.mix_put (hm.sub rfl) ?_
      assumption
  · assumption

theorem hubSample_kept (hm : Has m 0x1223e1a) (x0 : ℕ) (x1 : List (List ℤ)) (s : State)
    (hs : Kept m s₀ s) :
    Kept m s₀ (hubSample x0 x1 s) := by
  unfold hubSample
  dsimp only
  apply encodeTake_kept (hm.sub rfl)
  apply loudTake_kept (hm.sub rfl)
  apply keepHall_kept (hm.sub rfl)
  apply Kept.foldl
  · intro s5 b6 h7
    apply tickSample_kept (hm.sub rfl)
    assumption
  · apply Kept.foldl
    · intro s6 b7 h8
      split
      · apply sendAes67_kept (hm.sub rfl)
        apply txTake_elim (hm.sub rfl) (by assumption)
        assumption
      · apply txTake_elim (hm.sub rfl) (by assumption)
        assumption
    · apply Kept.foldl
      · intro s7 b8 h9
        apply sapOutputs_kept (hm.sub rfl)
        assumption
      · apply mixAll_kept (hm.sub rfl)
        apply Kept.foldl
        · intro s9 b10 h11
          apply tickInputs_kept (hm.sub rfl)
          assumption
        · apply candInputs_kept (hm.sub rfl)
          apply slotInputs_kept (hm.sub rfl)
          apply Kept.foldl
          · intro s12 b13 h14
            apply rxInputs_kept (hm.sub rfl)
            assumption
          · apply Kept.foldl
            · intro s13 b14 h15
              apply sapInputs_kept (hm.sub rfl)
              assumption
            · assumption

theorem latchBlock_kept (hm : Has m 0x800) (s : State) (x1 : ℕ)
    (hs : Kept m s₀ s) :
    Kept m s₀ (latchBlock s x1) := by
  unfold latchBlock
  dsimp only
  apply Kept.foldl
  · intro s2 b3 h4
    apply Kept.ite
    · intro h6
      apply Kept.ite
      · exact fun _ => by assumption
      · intro h8
        refine Kept.mix_put (hm.sub rfl) ?_
        assumption
    · intro h6
      refine Kept.mix_put (hm.sub rfl) ?_
      assumption
  · assumption

theorem execHubFieldFrame_kept (hm : Has m 0x40084a) (s : State)
    (hs : Kept m s₀ s) :
    ResAll (Kept m s₀) (execHubFieldFrame s) := by
  unfold execHubFieldFrame
  dsimp only
  apply ResAll.ite
  · intro h2
    apply ResAll.next
    apply lanokSend_kept (hm.sub rfl)
    apply Kept.ite
    · intro h6
      apply lanokSend_kept (hm.sub rfl)
      apply countMissed_kept (hm.sub rfl)
      assumption
    · intro h6
      apply countMissed_kept (hm.sub rfl)
      assumption
  · intro h2
    apply ResAll.next
    refine Kept.fld_put (hm.sub rfl) ?_
    apply Kept.foldl
    · intro s6 b7 h8
      apply latchBlock_kept (hm.sub rfl)
      assumption
    · apply upd_kept (hm.sub rfl)
      · intro y07 h8
        apply pairSend_kept (hm.sub rfl)
        assumption
      · apply Kept.ite
        · intro h8
          apply lanokSend_kept (hm.sub rfl)
          apply Kept.ite
          · intro h11
            apply lanokSend_kept (hm.sub rfl)
            apply countMissed_kept (hm.sub rfl)
            assumption
          · intro h11
            apply countMissed_kept (hm.sub rfl)
            assumption
        · intro h8
          apply lanokSend_kept (hm.sub rfl)
          apply lanokSend_kept (hm.sub rfl)
          apply Kept.ite
          · intro h12
            apply lanokSend_kept (hm.sub rfl)
            apply countMissed_kept (hm.sub rfl)
            assumption
          · intro h12
            apply countMissed_kept (hm.sub rfl)
            assumption

theorem execAudioSampleBoundary_kept (hm : Has m 0x1223e5a) (x0 : List (List ℤ)) (x1 : List (ℕ × ℕ × ℤ)) (s : State)
    (hs : Kept m s₀ s) :
    ResAll (Kept m s₀) (execAudioSampleBoundary x0 x1 s) := by
  unfold execAudioSampleBoundary
  dsimp only
  apply ResAll.ite
  · intro h2
    apply ResAll.next
    assumption
  · intro h2
    apply ResAll.next
    apply Kept.foldl
    · intro s5 b6 h7
      apply nodeSample_kept (hm.sub rfl)
      assumption
    · apply Kept.ite
      · intro h6
        apply hubSample_kept (hm.sub rfl)
        assumption
      · exact fun _ => by assumption

end Sys2Proof.Machine
end

