-- ==== Sys2Proof/Laws/KeptVideo.lean ====
section
/-! SUPPORT. Every effect of Machine/Video.lean keeps what `Kept` says. -/
set_option Elab.async false
namespace Sys2Proof.Machine

variable {m : Nat} {s₀ : State}

theorem decStart_kept (hm : Has m 0x8002) (x0 : ℕ) (x1 : ℕ) (s : State)
    (hs : Kept m s₀ s) :
    Kept m s₀ (decStart x0 x1 s) := by
  unfold decStart
  dsimp only
  apply wr_kept (hm.sub rfl)
  apply wr_kept (hm.sub rfl)
  apply wr_kept (hm.sub rfl)
  refine Kept.vid_put (hm.sub rfl) ?_
  assumption

theorem encStart_kept (hm : Has m 0x8002) (x0 : ℕ) (s : State)
    (hs : Kept m s₀ s) :
    Kept m s₀ (encStart x0 s) := by
  unfold encStart
  dsimp only
  apply wr_kept (hm.sub rfl)
  apply wr_kept (hm.sub rfl)
  apply wr_kept (hm.sub rfl)
  refine Kept.vid_put (hm.sub rfl) ?_
  assumption

theorem encUpd_kept (hm : Has m 0x8000) (x0 : ℕ) (x1 : EncCtx → EncCtx) (s : State)
    (hs : Kept m s₀ s) :
    Kept m s₀ (encUpd x0 x1 s) := by
  unfold encUpd
  refine Kept.vid_put (hm.sub rfl) ?_
  assumption

theorem encHead_kept (hm : Has m 0x8000) (x0 : ℕ) (x1 : EncPic → EncPic) (s : State)
    (hs : Kept m s₀ s) :
    Kept m s₀ (encHead x0 x1 s) := by
  unfold encHead
  apply encUpd_kept (hm.sub rfl)
  assumption

theorem vencSync_kept (hm : Has m 0x108002) (s : State)
    (hs : Kept m s₀ s) :
    Kept m s₀ (vencSync s) := by
  unfold vencSync
  apply Kept.ite
  · exact fun _ => by assumption
  · intro h1
    split
    · assumption
    · dsimp only
      apply encHead_kept (hm.sub rfl)
      apply Kept.ite
      · intro h6
        apply leaveLull_kept (hm.sub rfl)
        apply wr_kept (hm.sub rfl)
        assumption
      · exact fun _ => by assumption

theorem shortenSweep_kept (hm : Has m 0x8002) (x0 : ℕ) (s : State)
    (hs : Kept m s₀ s) :
    Kept m s₀ (shortenSweep x0 s) := by
  unfold shortenSweep
  dsimp only
  apply Kept.ite
  · exact fun _ => by assumption
  · intro h2
    apply wr_kept (hm.sub rfl)
    apply encUpd_kept (hm.sub rfl)
    assumption

theorem encRefresh_kept (hm : Has m 0x8002) (x0 : ℕ) (s : State)
    (hs : Kept m s₀ s) :
    Kept m s₀ (encRefresh x0 s) := by
  unfold encRefresh
  apply shortenSweep_kept (hm.sub rfl)
  apply bump_kept (hm.sub rfl)
  assumption

theorem decUpd_kept (hm : Has m 0x8000) (x0 : ℕ) (x1 : DecCtx → DecCtx) (s : State)
    (hs : Kept m s₀ s) :
    Kept m s₀ (decUpd x0 x1 s) := by
  unfold decUpd
  refine Kept.vid_put (hm.sub rfl) ?_
  assumption

theorem refreshUpd_kept (hm : Has m 0x4000) (x0 : ℕ) (x1 : ℕ) (x2 : Refresh → Refresh) (s : State)
    (hs : Kept m s₀ s) :
    Kept m s₀ (refreshUpd x0 x1 x2 s) := by
  unfold refreshUpd
  apply vsrcUpd_kept (hm.sub rfl)
  assumption

theorem sendRefresh_kept (hm : Has m 0x42701a) (x0 : ℕ) (x1 : ℕ) (x2 : Bool) (s : State)
    (hs : Kept m s₀ s) :
    Kept m s₀ (sendRefresh x0 x1 x2 s) := by
  unfold sendRefresh
  dsimp only
  apply bump_kept (hm.sub rfl)
  apply sendRtcp_kept (hm.sub rfl)
  apply refreshUpd_kept (hm.sub rfl)
  assumption

theorem raiseRefresh_kept (hm : Has m 0x42f01a) (x0 : ℕ) (x1 : ℕ) (s : State)
    (hs : Kept m s₀ s) :
    Kept m s₀ (raiseRefresh x0 x1 s) := by
  unfold raiseRefresh
  apply Kept.ite
  · intro h1
    split
    · apply encRefresh_kept (hm.sub rfl)
      assumption
    · assumption
  · intro h1
    dsimp only
    apply Kept.ite
    · intro h4
      apply refreshUpd_kept (hm.sub rfl)
      assumption
    · intro h4
      apply sendRefresh_kept (hm.sub rfl)
      assumption

theorem slotRefresh_kept (hm : Has m 0x42f01a) (x0 : ℕ) (x1 : ℕ) (x2 : Bool) (s : State)
    (hs : Kept m s₀ s) :
    Kept m s₀ (slotRefresh x0 x1 x2 s) := by
  unfold slotRefresh
  dsimp only
  split
  · assumption
  · apply Kept.ite
    · exact fun _ => by assumption
    · intro h3
      apply raiseRefresh_kept (hm.sub rfl)
      assumption

theorem decRequest_kept (hm : Has m 0x42f01a) (x0 : ℕ) (s : State)
    (hs : Kept m s₀ s) :
    Kept m s₀ (decRequest x0 s) := by
  unfold decRequest
  split
  · assumption
  · apply raiseRefresh_kept (hm.sub rfl)
    apply bump_kept (hm.sub rfl)
    assumption

theorem execRefreshWaitExpiry_kept (hm : Has m 0x42f01a) (s : State)
    (hs : Kept m s₀ s) :
    ResAll (Kept m s₀) (execRefreshWaitExpiry s) := by
  unfold execRefreshWaitExpiry
  dsimp only
  apply ResAll.next
  apply Kept.foldl
  · intro s3 b4 h5
    apply sendRefresh_kept (hm.sub rfl)
    assumption
  · apply Kept.foldl
    · intro s4 b5 h6
      apply decRequest_kept (hm.sub rfl)
      apply decUpd_kept (hm.sub rfl)
      assumption
    · apply Kept.foldl
      · intro s5 b6 h7
        apply slotRefresh_kept (hm.sub rfl)
        apply slotUpd_kept (hm.sub rfl)
        assumption
      · assumption

theorem freeBufs_kept (hm : Has m 0x8000) (s : State)
    (hs : Kept m s₀ s) :
    Kept m s₀ (freeBufs s) := by
  unfold freeBufs
  refine Kept.vid_put (hm.sub rfl) ?_
  assumption

theorem headPic_kept (hm : Has m 0x8000) (x0 : ℕ) (x1 : ReadyPic → ReadyPic) (s : State)
    (hs : Kept m s₀ s) :
    Kept m s₀ (headPic x0 x1 s) := by
  unfold headPic
  apply decUpd_kept (hm.sub rfl)
  assumption

theorem takeBuf_kept (hm : Has m 0x8000) (x0 : ℕ) (s : State)
    (hs : Kept m s₀ s) :
    OptAll (SndAll (Kept m s₀)) (takeBuf x0 s) := by
  unfold takeBuf
  apply OptAll.ite
  · exact fun _ => OptAll.none
  · intro h1
    apply OptAll.some
    apply SndAll.mk
    refine Kept.vid_put (hm.sub rfl) ?_
    assumption

theorem takeBuf_elim {x0 : ℕ} {s : State} {v0} {t : State} (hm : Has m 0x8000) (e : (takeBuf x0 s) = (some (v0, t)))
    (hs : Kept m s₀ s) : Kept m s₀ t := by
  have hk := takeBuf_kept hm x0 s hs
  rw [e] at hk
  exact (SndAll.elim (OptAll.elim hk rfl) rfl)

theorem vdecStart_kept (hm : Has m 0x8000) (x0 : ℕ) (x1 : ℕ) (s : State)
    (hs : Kept m s₀ s) :
    Kept m s₀ (vdecStart x0 x1 s) := by
  unfold vdecStart
  split
  · assumption
  · split
    · assumption
    · split
      · assumption
      · apply Kept.ite
        · exact fun _ => by assumption
        · intro h4
          split
          · apply headPic_kept (hm.sub rfl)
            apply takeBuf_elim (hm.sub rfl) (by assumption)
            assumption
          · apply vdecStart_kept (hm.sub rfl)
            apply headPic_kept (hm.sub rfl)
            assumption

theorem vdecSync_kept (hm : Has m 0x108002) (s : State)
    (hs : Kept m s₀ s) :
    Kept m s₀ (vdecSync s) := by
  unfold vdecSync
  dsimp only
  apply Kept.foldl
  · intro s2 b3 h4
    apply Kept.ite
    · intro h6
      apply leaveLull_kept (hm.sub rfl)
      apply wr_kept (hm.sub rfl)
      apply Kept.ite
      · intro h10
        apply vdecStart_kept (hm.sub rfl)
        assumption
      · exact fun _ => by assumption
    · intro h6
      apply Kept.ite
      · intro h8
        apply vdecStart_kept (hm.sub rfl)
        assumption
      · exact fun _ => by assumption
  · apply Kept.foldl
    · intro s3 b4 h5
      apply Kept.ite
      · intro h7
        apply headPic_kept (hm.sub rfl)
        assumption
      · exact fun _ => by assumption
    · apply freeBufs_kept (hm.sub rfl)
      assumption

theorem dropBufs_kept (hm : Has m 0x8000) (x0 : ℕ) (s : State)
    (hs : Kept m s₀ s) :
    Kept m s₀ (dropBufs x0 s) := by
  unfold dropBufs
  dsimp only
  apply freeBufs_kept (hm.sub rfl)
  refine Kept.vid_put (hm.sub rfl) ?_
  assumption

theorem suspendEnc_kept (hm : Has m 0x8002) (x0 : ℕ) (s : State)
    (hs : Kept m s₀ s) :
    Kept m s₀ (suspendEnc x0 s) := by
  unfold suspendEnc
  apply wr_kept (hm.sub rfl)
  apply encUpd_kept (hm.sub rfl)
  assumption

theorem damagePolicy_kept (hm : Has m 0x42f01a) (x0 : ℕ) (x1 : Bool) (s : State)
    (hs : Kept m s₀ s) :
    Kept m s₀ (damagePolicy x0 x1 s) := by
  unfold damagePolicy
  dsimp only
  apply Kept.ite
  · intro h2
    apply decRequest_kept (hm.sub rfl)
    apply decUpd_kept (hm.sub rfl)
    assumption
  · intro h2
    apply decUpd_kept (hm.sub rfl)
    assumption

theorem decodeDone_kept (hm : Has m 0x52f01a) (x0 : ℕ) (x1 : ReadyPic) (x2 : ℕ) (s : State)
    (hs : Kept m s₀ s) :
    Kept m s₀ (decodeDone x0 x1 x2 s) := by
  unfold decodeDone
  dsimp only
  apply vdecSync_kept (hm.sub rfl)
  apply Kept.ite
  · intro h3
    apply damagePolicy_kept (hm.sub rfl)
    apply wr_kept (hm.sub rfl)
    apply wr_kept (hm.sub rfl)
    apply wr_kept (hm.sub rfl)
    apply upd_kept (hm.sub rfl)
    · intro y09 h10
      apply bump_kept (hm.sub rfl)
      assumption
    · apply bump_kept (hm.sub rfl)
      apply decUpd_kept (hm.sub rfl)
      refine Kept.vid_put (hm.sub rfl) ?_
      apply upd_kept (hm.sub rfl)
      · intro y013 h14
        apply bump_kept (hm.sub rfl)
        assumption
      · apply bumpBy_kept (hm.sub rfl)
        apply drew_kept (hm.sub rfl)
        assumption
  · intro h3
    apply decUpd_kept (hm.sub rfl)
    refine Kept.vid_put (hm.sub rfl) ?_
    apply upd_kept (hm.sub rfl)
    · intro y07 h8
      apply bump_kept (hm.sub rfl)
      assumption
    · apply bumpBy_kept (hm.sub rfl)
      apply drew_kept (hm.sub rfl)
      assumption

theorem decDisable_kept (hm : Has m 0x108002) (x0 : ℕ) (s : State)
    (hs : Kept m s₀ s) :
    Kept m s₀ (decDisable x0 s) := by
  unfold decDisable
  dsimp only
  apply vdecSync_kept (hm.sub rfl)
  apply wr_kept (hm.sub rfl)
  apply wr_kept (hm.sub rfl)
  apply wr_kept (hm.sub rfl)
  apply wr_kept (hm.sub rfl)
  apply wr_kept (hm.sub rfl)
  apply wr_kept (hm.sub rfl)
  refine Kept.vid_put (hm.sub rfl) ?_
  apply dropBufs_kept (hm.sub rfl)
  apply Kept.ite
  · intro h11
    apply wr_kept (hm.sub rfl)
    assumption
  · exact fun _ => by assumption

theorem decEnable_kept (hm : Has m 0x8002) (x0 : ℕ) (s : State)
    (hs : Kept m s₀ s) :
    Kept m s₀ (decEnable x0 s) := by
  unfold decEnable
  split
  · assumption
  · dsimp only
    apply decStart_kept (hm.sub rfl)
    apply wr_kept (hm.sub rfl)
    apply wr_kept (hm.sub rfl)
    apply wr_kept (hm.sub rfl)
    apply wr_kept (hm.sub rfl)
    assumption

theorem decEn_kept (hm : Has m 0x108002) (x0 : ℕ) (x1 : Bool) (s : State)
    (hs : Kept m s₀ s) :
    Kept m s₀ (decEn x0 x1 s) := by
  unfold decEn
  dsimp only
  apply Kept.ite
  · exact fun _ => by assumption
  · intro h2
    apply Kept.ite
    · intro h4
      apply wr_kept (hm.sub rfl)
      apply decEnable_kept (hm.sub rfl)
      assumption
    · intro h4
      apply wr_kept (hm.sub rfl)
      apply decDisable_kept (hm.sub rfl)
      assumption

theorem execDecodePictureComplete_kept (hm : Has m 0x52f01a) (x0 : Fin 2) (s : State)
    (hs : Kept m s₀ s) :
    ResAll (Kept m s₀) (execDecodePictureComplete x0 s) := by
  unfold execDecodePictureComplete
  apply ResAll.next
  split
  · assumption
  · split
    · assumption
    · split
      · apply decodeDone_kept (hm.sub rfl)
        assumption
      · assumption

theorem clearTargets_kept (hm : Has m 0x8000) (x0 : ℕ) (s : State)
    (hs : Kept m s₀ s) :
    Kept m s₀ (clearTargets x0 s) := by
  unfold clearTargets
  refine Kept.vid_put (hm.sub rfl) ?_
  assumption

theorem encEnable_kept (hm : Has m 0x8002) (x0 : ℕ) (s : State)
    (hs : Kept m s₀ s) :
    Kept m s₀ (encEnable x0 s) := by
  unfold encEnable
  dsimp only
  apply encStart_kept (hm.sub rfl)
  apply wr_kept (hm.sub rfl)
  apply wr_kept (hm.sub rfl)
  apply wr_kept (hm.sub rfl)
  refine Kept.vid_put (hm.sub rfl) ?_
  assumption

theorem encDisable_kept (hm : Has m 0x8002) (x0 : ℕ) (s : State)
    (hs : Kept m s₀ s) :
    Kept m s₀ (encDisable x0 s) := by
  unfold encDisable
  apply wr_kept (hm.sub rfl)
  apply wr_kept (hm.sub rfl)
  apply wr_kept (hm.sub rfl)
  apply wr_kept (hm.sub rfl)
  refine Kept.vid_put (hm.sub rfl) ?_
  assumption

theorem encEn_kept (hm : Has m 0x8002) (x0 : ℕ) (x1 : Bool) (s : State)
    (hs : Kept m s₀ s) :
    Kept m s₀ (encEn x0 x1 s) := by
  unfold encEn
  dsimp only
  apply Kept.ite
  · exact fun _ => by assumption
  · intro h2
    apply Kept.ite
    · intro h4
      apply wr_kept (hm.sub rfl)
      apply encEnable_kept (hm.sub rfl)
      assumption
    · intro h4
      apply wr_kept (hm.sub rfl)
      apply encDisable_kept (hm.sub rfl)
      assumption

theorem bufUpd_kept (hm : Has m 0x8000) (x0 : ℕ) (x1 : VBuf → VBuf) (s : State)
    (hs : Kept m s₀ s) :
    Kept m s₀ (bufUpd x0 x1 s) := by
  unfold bufUpd
  refine Kept.vid_put (hm.sub rfl) ?_
  assumption

theorem popPic_kept (hm : Has m 0x108002) (x0 : ℕ) (s : State)
    (hs : Kept m s₀ s) :
    Kept m s₀ (popPic x0 s) := by
  unfold popPic
  dsimp only
  apply vdecSync_kept (hm.sub rfl)
  apply decUpd_kept (hm.sub rfl)
  split
  · split
    · apply bufUpd_kept (hm.sub rfl)
      assumption
    · assumption
  · assumption

theorem execDecodeBufWaitTimeout_kept (hm : Has m 0x108002) (x0 : Fin 1024) (s : State)
    (hs : Kept m s₀ s) :
    ResAll (Kept m s₀) (execDecodeBufWaitTimeout x0 s) := by
  unfold execDecodeBufWaitTimeout
  apply ResAll.next
  split
  · assumption
  · split
    · apply Kept.ite
      · intro h4
        apply popPic_kept (hm.sub rfl)
        apply bump_kept (hm.sub rfl)
        assumption
      · exact fun _ => by assumption
    · assumption

theorem execRefreshMinExpiry_kept (hm : Has m 0x42701a) (s : State)
    (hs : Kept m s₀ s) :
    ResAll (Kept m s₀) (execRefreshMinExpiry s) := by
  unfold execRefreshMinExpiry
  dsimp only
  apply ResAll.next
  apply Kept.foldl
  · intro s3 b4 h5
    apply sendRefresh_kept (hm.sub rfl)
    assumption
  · assumption

theorem writeEncEn_kept (hm : Has m 0x256b1da) (x0 : Inst) (x1 : ℕ) (x2 : Fin 256) (x3 : Bool) (s : State)
    (hs : Kept m s₀ s) :
    Kept m s₀ (writeEncEn x0 x1 x2 x3 s) := by
  unfold writeEncEn
  apply runEnable_kept (hm.sub rfl)
  · intro y01 h2
    apply encEn_kept (hm.sub rfl)
    assumption
  · assumption

theorem writeDecEn_kept (hm : Has m 0x256b1da) (x0 : Inst) (x1 : ℕ) (x2 : Fin 1024) (x3 : Bool) (s : State)
    (hs : Kept m s₀ s) :
    Kept m s₀ (writeDecEn x0 x1 x2 x3 s) := by
  unfold writeDecEn
  apply runEnable_kept (hm.sub rfl)
  · intro y01 h2
    apply decEn_kept (hm.sub rfl)
    assumption
  · assumption

theorem suspendDec_kept (hm : Has m 0x8002) (x0 : ℕ) (s : State)
    (hs : Kept m s₀ s) :
    Kept m s₀ (suspendDec x0 s) := by
  unfold suspendDec
  dsimp only
  apply wr_kept (hm.sub rfl)
  apply decUpd_kept (hm.sub rfl)
  assumption

theorem vidRestart_kept (hm : Has m 0x52f01a) (x0 : Bool) (s : State)
    (hs : Kept m s₀ s) :
    Kept m s₀ (vidRestart x0 s) := by
  unfold vidRestart
  dsimp only
  apply vdecSync_kept (hm.sub rfl)
  apply Kept.foldl
  · intro s3 b4 h5
    apply Kept.ite
    · intro h7
      apply suspendEnc_kept (hm.sub rfl)
      assumption
    · intro h7
      apply encStart_kept (hm.sub rfl)
      assumption
  · apply Kept.foldl
    · intro s4 b5 h6
      apply Kept.ite
      · intro h8
        apply suspendDec_kept (hm.sub rfl)
        assumption
      · intro h8
        apply decRequest_kept (hm.sub rfl)
        apply decUpd_kept (hm.sub rfl)
        apply decStart_kept (hm.sub rfl)
        apply wr_kept (hm.sub rfl)
        assumption
    · apply Kept.ite
      · intro h5
        apply Kept.foldl
        · intro s7 b8 h9
          apply encUpd_kept (hm.sub rfl)
          assumption
        · apply Kept.foldl
          · intro s8 b9 h10
            apply decUpd_kept (hm.sub rfl)
            apply dropBufs_kept (hm.sub rfl)
            apply upd_kept (hm.sub rfl)
            · intro y014 h15
              apply wr_kept (hm.sub rfl)
              assumption
            · assumption
          · assumption
      · intro h5
        apply Kept.foldl
        · intro s7 b8 h9
          apply decUpd_kept (hm.sub rfl)
          apply dropBufs_kept (hm.sub rfl)
          apply upd_kept (hm.sub rfl)
          · intro y013 h14
            apply wr_kept (hm.sub rfl)
            assumption
          · assumption
        · assumption

theorem sendPackets_kept (hm : Has m 0x2701a) (x0 : ℕ) (x1 : Instant) (x2 : Bool) (x3 : List Bytes) (s : State)
    (hs : Kept m s₀ s) :
    Kept m s₀ (sendPackets x0 x1 x2 x3 s) := by
  unfold sendPackets
  dsimp only
  apply Kept.foldl
  · intro s2 b3 h4
    refine Kept.fwd_put (hm.sub rfl) ?_
    apply srcLog_kept (hm.sub rfl)
    apply settle_kept (hm.sub rfl)
    apply Kept.snd
    apply addPacket_kept (hm.sub rfl)
    assumption
  · assumption

theorem ringWrite_kept (hm : Has m 0x206800a) (x0 : ℕ) (x1 : ℕ → Bytes) (x2 : Bytes) (s : State)
    (hs : Kept m s₀ s) :
    Kept m s₀ (ringWrite x0 x1 x2 s) := by
  unfold ringWrite
  dsimp only
  apply Kept.ite
  · intro h2
    apply bump_kept (hm.sub rfl)
    apply encUpd_kept (hm.sub rfl)
    assumption
  · intro h2
    apply Kept.foldl
    · intro s4 b5 h6
      apply dmaRequest_kept (hm.sub rfl)
      assumption
    · apply encUpd_kept (hm.sub rfl)
      apply memWrite_kept (hm.sub rfl)
      apply memWrite_kept (hm.sub rfl)
      apply Kept.ite
      · exact fun _ => by assumption
      · intro h8
        apply memWrite_kept (hm.sub rfl)
        assumption

theorem encodeDone_kept (hm : Has m 0x216f01a) (x0 : ℕ) (x1 : EncPic) (x2 : List EncRow) (x3 : ℕ) (x4 : List Bytes) (s : State)
    (hs : Kept m s₀ s) :
    Kept m s₀ (encodeDone x0 x1 x2 x3 x4 s) := by
  unfold encodeDone
  dsimp only
  apply vencSync_kept (hm.sub rfl)
  apply Kept.ite
  · intro h3
    apply sendPackets_kept (hm.sub rfl)
    apply upd_kept (hm.sub rfl)
    · intro y06 h7
      apply bump_kept (hm.sub rfl)
      assumption
    · apply upd_kept (hm.sub rfl)
      · intro y07 h8
        apply bump_kept (hm.sub rfl)
        assumption
      · apply upd_kept (hm.sub rfl)
        · intro y08 h9
          apply bump_kept (hm.sub rfl)
          assumption
        · apply upd_kept (hm.sub rfl)
          · intro y09 h10
            apply wr_kept (hm.sub rfl)
            assumption
          · apply wr_kept (hm.sub rfl)
            apply wr_kept (hm.sub rfl)
            apply wr_kept (hm.sub rfl)
            apply bump_kept (hm.sub rfl)
            apply encUpd_kept (hm.sub rfl)
            refine Kept.vid_put (hm.sub rfl) ?_
            assumption
  · intro h3
    apply ringWrite_kept (hm.sub rfl)
    apply upd_kept (hm.sub rfl)
    · intro y06 h7
      apply bump_kept (hm.sub rfl)
      assumption
    · apply upd_kept (hm.sub rfl)
      · intro y07 h8
        apply bump_kept (hm.sub rfl)
        assumption
      · apply upd_kept (hm.sub rfl)
        · intro y08 h9
          apply bump_kept (hm.sub rfl)
          assumption
        · apply upd_kept (hm.sub rfl)
          · intro y09 h10
            apply wr_kept (hm.sub rfl)
            assumption
          · apply wr_kept (hm.sub rfl)
            apply wr_kept (hm.sub rfl)
            apply wr_kept (hm.sub rfl)
            apply bump_kept (hm.sub rfl)
            apply encUpd_kept (hm.sub rfl)
            refine Kept.vid_put (hm.sub rfl) ?_
            assumption

theorem execEncodePictureComplete_kept (hm : Has m 0x216f01a) (x0 : Fin 256) (x1 : List EncRow) (x2 : ℕ) (x3 : List Bytes) (s : State)
    (hs : Kept m s₀ s) :
    ResAll (Kept m s₀) (execEncodePictureComplete x0 x1 x2 x3 s) := by
  unfold execEncodePictureComplete
  apply ResAll.next
  split
  · assumption
  · apply Kept.ite
    · exact fun _ => by assumption
    · intro h3
      apply encodeDone_kept (hm.sub rfl)
      assumption

theorem picReady_kept (hm : Has m 0x108002) (x0 : ℕ) (x1 : PicInfo) (s : State)
    (hs : Kept m s₀ s) :
    Kept m s₀ (picReady x0 x1 s) := by
  unfold picReady
  dsimp only
  apply Kept.ite
  · intro h2
    apply bump_kept (hm.sub rfl)
    assumption
  · intro h2
    apply Kept.ite
    · intro h4
      apply bump_kept (hm.sub rfl)
      assumption
    · intro h4
      apply vdecSync_kept (hm.sub rfl)
      apply decUpd_kept (hm.sub rfl)
      assumption

theorem instRetired_kept (hm : Has m 0x108002) (x0 : ℕ) (s : State)
    (hs : Kept m s₀ s) :
    Kept m s₀ (instRetired x0 s) := by
  unfold instRetired
  dsimp only
  apply Kept.ite
  · intro h2
    apply Kept.foldl
    · intro s4 b5 h6
      apply suspendEnc_kept (hm.sub rfl)
      assumption
    · apply wr_kept (hm.sub rfl)
      assumption
  · intro h2
    apply vdecSync_kept (hm.sub rfl)
    apply Kept.foldl
    · intro s5 b6 h7
      apply Kept.ite
      · intro h9
        apply wr_kept (hm.sub rfl)
        apply wr_kept (hm.sub rfl)
        apply wr_kept (hm.sub rfl)
        apply clearTargets_kept (hm.sub rfl)
        apply headPic_kept (hm.sub rfl)
        assumption
      · intro h9
        apply suspendDec_kept (hm.sub rfl)
        apply clearTargets_kept (hm.sub rfl)
        apply headPic_kept (hm.sub rfl)
        assumption
    · apply wr_kept (hm.sub rfl)
      assumption

theorem instUpset_kept (hm : Has m 0x1308002) (x0 : ℕ) (s : State)
    (hs : Kept m s₀ s) :
    Kept m s₀ (instUpset x0 s) := by
  unfold instUpset
  dsimp only
  apply Kept.ite
  · intro h2
    apply instRetired_kept (hm.sub rfl)
    apply Kept.fst
    apply upset_kept (hm.sub rfl)
    apply bump_kept (hm.sub rfl)
    assumption
  · intro h2
    apply Kept.fst
    apply upset_kept (hm.sub rfl)
    apply bump_kept (hm.sub rfl)
    assumption

theorem writeRefresh_kept (hm : Has m 0x246b1da) (x0 : Inst) (x1 : ℕ) (x2 : Fin 256) (s : State)
    (hs : Kept m s₀ s) :
    Kept m s₀ (writeRefresh x0 x1 x2 s) := by
  unfold writeRefresh
  apply runCmd_kept (hm.sub rfl)
  · intro y01 h2
    apply Kept.ite
    · intro h4
      apply encRefresh_kept (hm.sub rfl)
      assumption
    · exact fun _ => by assumption
  · assumption

theorem encBoundary_kept (hm : Has m 0x108002) (x0 : ℕ) (x1 : Instant) (s : State)
    (hs : Kept m s₀ s) :
    Kept m s₀ (encBoundary x0 x1 s) := by
  unfold encBoundary
  apply vencSync_kept (hm.sub rfl)
  apply Kept.foldl
  · intro s2 b3 h4
    dsimp only
    apply bumpBy_kept (hm.sub rfl)
    apply encUpd_kept (hm.sub rfl)
    assumption
  · assumption

theorem execPictureTimeout_kept (hm : Has m 0x1308002) (x0 : Fin 3) (s : State)
    (hs : Kept m s₀ s) :
    ResAll (Kept m s₀) (execPictureTimeout x0 s) := by
  unfold execPictureTimeout
  dsimp only
  apply ResAll.next
  apply Kept.ite
  · intro h3
    split
    · assumption
    · split
      · apply Kept.ite
        · intro h7
          apply popPic_kept (hm.sub rfl)
          apply instUpset_kept (hm.sub rfl)
          assumption
        · exact fun _ => by assumption
      · assumption
  · intro h3
    split
    · assumption
    · split
      · apply Kept.ite
        · intro h7
          apply vencSync_kept (hm.sub rfl)
          apply shortenSweep_kept (hm.sub rfl)
          apply encHead_kept (hm.sub rfl)
          apply instUpset_kept (hm.sub rfl)
          assumption
        · exact fun _ => by assumption
      · assumption

theorem instReturned_kept (hm : Has m 0x8002) (x0 : ℕ) (s : State)
    (hs : Kept m s₀ s) :
    Kept m s₀ (instReturned x0 s) := by
  unfold instReturned
  dsimp only
  apply Kept.ite
  · intro h2
    apply Kept.foldl
    · intro s4 b5 h6
      apply encStart_kept (hm.sub rfl)
      assumption
    · apply wr_kept (hm.sub rfl)
      assumption
  · intro h2
    apply Kept.foldl
    · intro s4 b5 h6
      apply decStart_kept (hm.sub rfl)
      apply dropBufs_kept (hm.sub rfl)
      assumption
    · apply wr_kept (hm.sub rfl)
      assumption

theorem decodeTake_kept (hm : Has m 0x108002) (x0 : ℕ) (x1 : FanOut) (x2 : ℕ) (x3 : Option PicInfo) (s : State)
    (hs : Kept m s₀ s) :
    Kept m s₀ (decodeTake x0 x1 x2 x3 s) := by
  unfold decodeTake
  apply Kept.ite
  · exact fun _ => by assumption
  · intro h1
    dsimp only
    apply Kept.ite
    · intro h4
      apply decUpd_kept (hm.sub rfl)
      assumption
    · intro h4
      apply Kept.ite
      · intro h6
        apply decUpd_kept (hm.sub rfl)
        assumption
      · intro h6
        split
        · apply decUpd_kept (hm.sub rfl)
          split
          · apply Kept.ite
            · intro h11
              apply picReady_kept (hm.sub rfl)
              apply wr_kept (hm.sub rfl)
              apply decUpd_kept (hm.sub rfl)
              assumption
            · intro h11
              apply wr_kept (hm.sub rfl)
              apply decUpd_kept (hm.sub rfl)
              assumption
          · apply wr_kept (hm.sub rfl)
            apply decUpd_kept (hm.sub rfl)
            assumption
        · apply Kept.ite
          · intro h9
            apply picReady_kept (hm.sub rfl)
            apply decUpd_kept (hm.sub rfl)
            split
            · apply Kept.ite
              · intro h14
                apply picReady_kept (hm.sub rfl)
                apply wr_kept (hm.sub rfl)
                apply decUpd_kept (hm.sub rfl)
                assumption
              · intro h14
                apply wr_kept (hm.sub rfl)
                apply decUpd_kept (hm.sub rfl)
                assumption
            · apply wr_kept (hm.sub rfl)
              apply decUpd_kept (hm.sub rfl)
              assumption
          · intro h9
            apply decUpd_kept (hm.sub rfl)
            split
            · apply Kept.ite
              · intro h13
                apply picReady_kept (hm.sub rfl)
                apply wr_kept (hm.sub rfl)
                apply decUpd_kept (hm.sub rfl)
                assumption
              · intro h13
                apply wr_kept (hm.sub rfl)
                apply decUpd_kept (hm.sub rfl)
                assumption
            · apply wr_kept (hm.sub rfl)
              apply decUpd_kept (hm.sub rfl)
              assumption

theorem execDamageWaitExpiry_kept (hm : Has m 0x42f01a) (x0 : Fin 1024) (s : State)
    (hs : Kept m s₀ s) :
    ResAll (Kept m s₀) (execDamageWaitExpiry x0 s) := by
  unfold execDamageWaitExpiry
  apply ResAll.next
  split
  · apply Kept.ite
    · intro h3
      apply decRequest_kept (hm.sub rfl)
      apply decUpd_kept (hm.sub rfl)
      assumption
    · exact fun _ => by assumption
  · assumption

end Sys2Proof.Machine
end

