-- ==== Sys2Proof/Laws/KeptComp.lean ====
section
/-! SUPPORT. Every effect of Machine/Comp.lean keeps what `Kept` says. -/
set_option Elab.async false
namespace Sys2Proof.Machine

variable {m : Nat} {s₀ : State}

theorem execLaunchCommit_kept (hm : Has m 0x40008aa) (x0 : ℕ) (s : State)
    (hs : Kept m s₀ s) :
    ResAll (Kept m s₀) (execLaunchCommit x0 s) := by
  unfold execLaunchCommit
  dsimp only
  apply ResAll.next
  apply Kept.ite
  · intro h3
    split
    · apply launchUpd_kept (hm.sub rfl)
      assumption
    · apply launchFailed_kept (hm.sub rfl)
      assumption
  · exact fun _ => by assumption

theorem releaseReads_kept (hm : Has m 0x108002) (x0 : List ℕ) (s : State)
    (hs : Kept m s₀ s) :
    Kept m s₀ (releaseReads x0 s) := by
  unfold releaseReads
  apply vdecSync_kept (hm.sub rfl)
  apply Kept.foldl
  · intro s2 b3 h4
    apply bufUpd_kept (hm.sub rfl)
    assumption
  · assumption

theorem picOver_kept (hm : Has m 0x118002) (x0 : ℕ) (x1 : PicLatch) (s : State)
    (hs : Kept m s₀ s) :
    Kept m s₀ (picOver x0 x1 s) := by
  unfold picOver
  dsimp only
  apply Kept.foldl
  · intro s2 b3 h4
    apply Kept.ite
    · exact fun _ => by assumption
    · intro h6
      apply wr_kept (hm.sub rfl)
      refine Kept.cmp_put (hm.sub rfl) ?_
      assumption
  · apply releaseReads_kept (hm.sub rfl)
    assumption

theorem cmpUpd_kept (hm : Has m 0x10000) (x0 : ℕ) (x1 : CmpOut → CmpOut) (s : State)
    (hs : Kept m s₀ s) :
    Kept m s₀ (cmpUpd x0 x1 s) := by
  unfold cmpUpd
  refine Kept.cmp_put (hm.sub rfl) ?_
  assumption

theorem picOverdue_kept (hm : Has m 0x118002) (x0 : ℕ) (s : State)
    (hs : Kept m s₀ s) :
    Kept m s₀ (picOverdue x0 s) := by
  unfold picOverdue
  split
  · apply bump_kept (hm.sub rfl)
    apply picOver_kept (hm.sub rfl)
    apply cmpUpd_kept (hm.sub rfl)
    assumption
  · assumption

theorem cmpSync_kept (hm : Has m 0x110002) (s : State)
    (hs : Kept m s₀ s) :
    Kept m s₀ (cmpSync s) := by
  unfold cmpSync
  apply Kept.ite
  · exact fun _ => by assumption
  · intro h1
    dsimp only
    split
    · assumption
    · apply cmpUpd_kept (hm.sub rfl)
      refine Kept.cmp_put (hm.sub rfl) ?_
      apply Kept.ite
      · intro h7
        apply leaveLull_kept (hm.sub rfl)
        apply wr_kept (hm.sub rfl)
        assumption
      · exact fun _ => by assumption

theorem outBoundary_kept (hm : Has m 0x118006) (x0 : ℕ) (x1 : ℕ) (s : State)
    (hs : Kept m s₀ s) :
    Kept m s₀ (outBoundary x0 x1 s) := by
  unfold outBoundary
  dsimp only
  apply encBoundary_kept (hm.sub rfl)
  apply cmpSync_kept (hm.sub rfl)
  apply cmpUpd_kept (hm.sub rfl)
  apply wrBlob_kept (hm.sub rfl)
  apply Kept.foldl
  · intro s6 b7 h8
    apply bufUpd_kept (hm.sub rfl)
    assumption
  · assumption

theorem execOutputPictureBoundary_kept (hm : Has m 0x118006) (x0 : Fin 64) (s : State)
    (hs : Kept m s₀ s) :
    ResAll (Kept m s₀) (execOutputPictureBoundary x0 s) := by
  unfold execOutputPictureBoundary
  apply ResAll.ite
  · intro h1
    apply ResAll.next
    assumption
  · intro h1
    split
    · apply ResAll.next
      assumption
    · apply ResAll.next
      apply outBoundary_kept (hm.sub rfl)
      apply picOverdue_kept (hm.sub rfl)
      assumption

theorem ovlBase_kept (hm : Has m 0x10002) (x0 : ℕ) (x1 : ℕ) (s : State)
    (hs : Kept m s₀ s) :
    Kept m s₀ (ovlBase x0 x1 s) := by
  unfold ovlBase
  dsimp only
  apply wr_kept (hm.sub rfl)
  apply wr_kept (hm.sub rfl)
  refine Kept.cmp_put (hm.sub rfl) ?_
  assumption

theorem cmpIrq_kept (hm : Has m 0x8) (x0 : ℕ) (s : State)
    (hs : Kept m s₀ s) :
    Kept m s₀ (cmpIrq x0 s) := by
  unfold cmpIrq
  apply emitIf_kept (hm.sub rfl)
  assumption

theorem layerTablePut_kept (hm : Has m 0x1000e) (x0 : ℕ) (x1 : ℕ) (x2 : Bool) (s : State)
    (hs : Kept m s₀ s) :
    Kept m s₀ (layerTablePut x0 x1 x2 s) := by
  unfold layerTablePut
  dsimp only
  apply Kept.ite
  · exact fun _ => by assumption
  · intro h2
    apply Kept.ite
    · intro h4
      apply badAccess_kept (hm.sub rfl)
      assumption
    · intro h4
      apply Kept.ite
      · intro h6
        apply cmpIrq_kept (hm.sub rfl)
        apply bump_kept (hm.sub rfl)
        refine Kept.cmp_put (hm.sub rfl) ?_
        assumption
      · intro h6
        apply Kept.ite
        · exact fun _ => by assumption
        · intro h8
          apply wrBlob_kept (hm.sub rfl)
          assumption

theorem execLayerTableBar2Write_kept (hm : Has m 0x1000e) (x0 : ℕ) (x1 : ℕ) (x2 : Bool) (s : State)
    (hs : Kept m s₀ s) :
    ResAll (Kept m s₀) (execLayerTableBar2Write x0 x1 x2 s) := by
  unfold execLayerTableBar2Write
  apply ResAll.next
  apply layerTablePut_kept (hm.sub rfl)
  assumption

theorem writeLayerCopy_kept (hm : Has m 0x24631de) (x0 : Inst) (x1 : ℕ) (x2 : Fin 64) (s : State)
    (hs : Kept m s₀ s) :
    Kept m s₀ (writeLayerCopy x0 x1 x2 s) := by
  unfold writeLayerCopy
  apply runCmd_kept (hm.sub rfl)
  · intro y01 h2
    apply wrBlob_kept (hm.sub rfl)
    assumption
  · assumption

theorem swapTable_kept (hm : Has m 0x2) (x0 : ℕ) (s : State)
    (hs : Kept m s₀ s) :
    Kept m s₀ (swapTable x0 s) := by
  unfold swapTable
  dsimp only
  apply Kept.ite
  · intro h2
    apply wr_kept (hm.sub rfl)
    apply wr_kept (hm.sub rfl)
    apply wr_kept (hm.sub rfl)
    assumption
  · intro h2
    apply wr_kept (hm.sub rfl)
    assumption

theorem execLayerSwap_kept (hm : Has m 0x40008aa) (s : State)
    (hs : Kept m s₀ s) :
    ResAll (Kept m s₀) (execLayerSwap s) := by
  unfold execLayerSwap
  apply ResAll.next
  split
  · assumption
  · apply Kept.ite
    · intro h3
      apply launchFailed_kept (hm.sub rfl)
      assumption
    · intro h3
      apply Kept.ite
      · exact fun _ => by assumption
      · intro h5
        apply launchDone_kept (hm.sub rfl)
        apply swapTable_kept (hm.sub rfl)
        assumption

theorem outEn_kept (hm : Has m 0x118002) (x0 : ℕ) (x1 : Bool) (s : State)
    (hs : Kept m s₀ s) :
    Kept m s₀ (outEn x0 x1 s) := by
  unfold outEn
  apply Kept.ite
  · exact fun _ => by assumption
  · intro h1
    apply Kept.ite
    · intro h3
      dsimp only
      apply wr_kept (hm.sub rfl)
      apply wr_kept (hm.sub rfl)
      apply wr_kept (hm.sub rfl)
      apply wr_kept (hm.sub rfl)
      apply wr_kept (hm.sub rfl)
      assumption
    · intro h3
      dsimp only
      apply wr_kept (hm.sub rfl)
      apply wr_kept (hm.sub rfl)
      apply wr_kept (hm.sub rfl)
      apply wr_kept (hm.sub rfl)
      apply wr_kept (hm.sub rfl)
      refine Kept.cmp_put (hm.sub rfl) ?_
      apply Kept.foldl
      · intro s12 b13 h14
        apply picOver_kept (hm.sub rfl)
        assumption
      · assumption

theorem checkRegion_kept (hm : Has m 0x1000a) (x0 : ℕ) (x1 : ℕ) (x2 : SigLatch) (x3 : ℕ) (s : State)
    (hs : Kept m s₀ s) :
    Kept m s₀ (checkRegion x0 x1 x2 x3 s) := by
  unfold checkRegion
  dsimp only
  apply Kept.ite
  · intro h2
    apply cmpIrq_kept (hm.sub rfl)
    apply Kept.ite
    · intro h5
      refine Kept.cmp_put (hm.sub rfl) ?_
      apply bump_kept (hm.sub rfl)
      apply wr_kept (hm.sub rfl)
      apply cmpUpd_kept (hm.sub rfl)
      apply wr_kept (hm.sub rfl)
      assumption
    · intro h5
      refine Kept.cmp_put (hm.sub rfl) ?_
      apply bump_kept (hm.sub rfl)
      apply wr_kept (hm.sub rfl)
      apply cmpUpd_kept (hm.sub rfl)
      apply wr_kept (hm.sub rfl)
      assumption
  · intro h2
    apply wr_kept (hm.sub rfl)
    apply cmpUpd_kept (hm.sub rfl)
    apply wr_kept (hm.sub rfl)
    assumption

theorem execComposedPictureComplete_kept (hm : Has m 0x11800a) (s : State)
    (hs : Kept m s₀ s) :
    ResAll (Kept m s₀) (execComposedPictureComplete s) := by
  unfold execComposedPictureComplete
  apply ResAll.next
  split
  · assumption
  · split
    · assumption
    · dsimp only
      apply cmpSync_kept (hm.sub rfl)
      apply picOver_kept (hm.sub rfl)
      apply Kept.foldl
      · intro s7 b8 h9
        apply checkRegion_kept (hm.sub rfl)
        assumption
      · apply cmpUpd_kept (hm.sub rfl)
        refine Kept.cmp_put (hm.sub rfl) ?_
        apply bumpBy_kept (hm.sub rfl)
        apply bump_kept (hm.sub rfl)
        assumption

theorem writeOvlBase_kept (hm : Has m 0x24731da) (x0 : Inst) (x1 : ℕ) (x2 : Fin 256) (x3 : ℕ) (s : State)
    (hs : Kept m s₀ s) :
    Kept m s₀ (writeOvlBase x0 x1 x2 x3 s) := by
  unfold writeOvlBase
  apply runWriteV_kept (hm.sub rfl)
  · intro y01 h2
    apply ovlBase_kept (hm.sub rfl)
    assumption
  · assumption

theorem writeOutEn_kept (hm : Has m 0x257b1da) (x0 : Inst) (x1 : ℕ) (x2 : Fin 64) (x3 : Bool) (s : State)
    (hs : Kept m s₀ s) :
    Kept m s₀ (writeOutEn x0 x1 x2 x3 s) := by
  unfold writeOutEn
  apply runEnable_kept (hm.sub rfl)
  · intro y01 h2
    apply outEn_kept (hm.sub rfl)
    assumption
  · assumption

end Sys2Proof.Machine
end

