-- ==== Sys2Proof/Laws/KeptIntake.lean ====
section
/-! SUPPORT. Every effect of Machine/Intake.lean keeps what `Kept` says. -/
set_option Elab.async false
namespace Sys2Proof.Machine

variable {m : Nat} {s₀ : State}

theorem legCtrl_kept (hm : Has m 0x24631da) (x0 : Inst) (x1 : ℕ) (x2 : ℕ) (x3 : ℕ) (x4 : ℕ) (x5 : ℕ) (x6 : ℕ) (x7 : ℕ) (x8 : Status) (x9 : State → State) (s : State)
    (hf9 : ∀ y0, Kept m s₀ y0 → (Kept m s₀) (x9 y0)) (hs : Kept m s₀ s) :
    Kept m s₀ (legCtrl x0 x1 x2 x3 x4 x5 x6 x7 x8 x9 s) := by
  unfold legCtrl
  dsimp only
  apply Kept.ite
  · intro h2
    apply runCmdV_kept (hm.sub rfl)
    · intro y04 h5
      dsimp only [id]
      assumption
    · assumption
  · intro h2
    apply Kept.ite
    · intro h4
      apply runCmdV_kept (hm.sub rfl)
      · intro y06 h7
        dsimp only [id]
        assumption
      · assumption
    · intro h4
      apply Kept.ite
      · intro h6
        apply notServed_kept (hm.sub rfl)
        assumption
      · intro h6
        apply Kept.ite
        · intro h8
          apply OptAll.getD
          · apply repeated_kept (hm.sub rfl)
            assumption
          · apply Kept.ite
            · intro h11
              apply deferAs_kept (hm.sub rfl)
              assumption
            · intro h11
              apply cmdEnd_kept (hm.sub rfl)
              apply hf9
              apply wr_kept (hm.sub rfl)
              apply acceptAs_kept (hm.sub rfl)
              assumption
        · intro h8
          apply cmdEnd_kept (hm.sub rfl)
          assumption

theorem writeLegCtrlCancel_kept (hm : Has m 0x64639fa) (x0 : Inst) (x1 : ℕ) (x2 : ℕ) (x3 : ℕ) (s : State)
    (hs : Kept m s₀ s) :
    Kept m s₀ (writeLegCtrlCancel x0 x1 x2 x3 s) := by
  unfold writeLegCtrlCancel
  apply legCtrl_kept (hm.sub rfl)
  · intro y01 h2
    apply tmCancel_kept (hm.sub rfl)
    assumption
  · assumption

theorem toExc_kept (hm : Has m 0x2301a) (x0 : ℕ) (x1 : ℕ) (x2 : ℕ) (x3 : ℕ) (x4 : Frame) (s : State)
    (hs : Kept m s₀ s) :
    Kept m s₀ (toExc x0 x1 x2 x3 x4 s) := by
  unfold toExc
  apply Kept.snd
  apply admitPacket_kept (hm.sub rfl)
  assumption

theorem writeLegCtrlEnable_kept (hm : Has m 0x64679fa) (x0 : Inst) (x1 : ℕ) (x2 : ℕ) (x3 : ℕ) (s : State)
    (hs : Kept m s₀ s) :
    Kept m s₀ (writeLegCtrlEnable x0 x1 x2 x3 s) := by
  unfold writeLegCtrlEnable
  apply legCtrl_kept (hm.sub rfl)
  · intro y01 h2
    apply markDirty_kept (hm.sub rfl)
    apply legEn_kept (hm.sub rfl)
    assumption
  · assumption

theorem writeLegCtrlSpeak_kept (hm : Has m 0x64639fa) (x0 : Inst) (x1 : ℕ) (x2 : ℕ) (x3 : ℕ) (s : State)
    (hs : Kept m s₀ s) :
    Kept m s₀ (writeLegCtrlSpeak x0 x1 x2 x3 s) := by
  unfold writeLegCtrlSpeak
  apply legCtrl_kept (hm.sub rfl)
  · intro y01 h2
    apply tmSpeak_kept (hm.sub rfl)
    assumption
  · assumption

theorem countRx_kept (hm : Has m 0x4000) (x0 : ℕ) (x1 : ℕ) (x2 : ℕ) (x3 : ℕ) (x4 : Option ℕ) (s : State)
    (hs : Kept m s₀ s) :
    Kept m s₀ (countRx x0 x1 x2 x3 x4 s) := by
  unfold countRx
  apply legUpd_kept (hm.sub rfl)
  assumption

theorem rtcpItem_kept (hm : Has m 0x42f01a) (x0 : ℕ) (s : State) (x2 : RtcpItem)
    (hs : Kept m s₀ s) :
    Kept m s₀ (rtcpItem x0 s x2) := by
  unfold rtcpItem
  dsimp only
  split
  · apply feedbackIn_kept (hm.sub rfl)
    assumption
  · split
    · apply slotRefresh_kept (hm.sub rfl)
      assumption
    · assumption
  · split
    · apply slotRefresh_kept (hm.sub rfl)
      assumption
    · assumption
  · apply legUpd_kept (hm.sub rfl)
    assumption
  · apply Kept.ite
    · exact fun _ => by assumption
    · intro h3
      apply Kept.ite
      · intro h5
        apply wr_kept (hm.sub rfl)
        assumption
      · intro h5
        apply wr_kept (hm.sub rfl)
        apply wr_kept (hm.sub rfl)
        assumption
  · apply bump_kept (hm.sub rfl)
    assumption

theorem writeLegCtrlDisable_kept (hm : Has m 0x64679fa) (x0 : Inst) (x1 : ℕ) (x2 : ℕ) (x3 : ℕ) (s : State)
    (hs : Kept m s₀ s) :
    Kept m s₀ (writeLegCtrlDisable x0 x1 x2 x3 s) := by
  unfold writeLegCtrlDisable
  apply legCtrl_kept (hm.sub rfl)
  · intro y01 h2
    apply markDirty_kept (hm.sub rfl)
    apply legEn_kept (hm.sub rfl)
    assumption
  · assumption

theorem ptpFrame_kept (hm : Has m 0x42307a) (x0 : ℕ) (x1 : Frame) (s : State)
    (hs : Kept m s₀ s) :
    Kept m s₀ (ptpFrame x0 x1 s) := by
  unfold ptpFrame
  dsimp only
  split
  · apply Kept.snd
    apply admitPacket_kept (hm.sub rfl)
    assumption
  · apply dropEntry_kept (hm.sub rfl)
    split
    · apply ptpMessage_kept (hm.sub rfl)
      apply Kept.snd
      apply admitPacket_kept (hm.sub rfl)
      assumption
    · apply Kept.snd
      apply admitPacket_kept (hm.sub rfl)
      assumption

theorem answered_kept (hm : Has m 0x2301a) (x0 : ℕ) (x1 : Frame) (s : State)
    (hs : Kept m s₀ s) :
    Kept m s₀ (answered x0 x1 s) := by
  unfold answered
  dsimp only
  split
  · apply Kept.ite
    · intro h3
      apply answer_kept (hm.sub rfl)
      apply Kept.ite
      · intro h6
        apply toExc_kept (hm.sub rfl)
        assumption
      · exact fun _ => by assumption
    · intro h3
      apply Kept.ite
      · intro h5
        apply toExc_kept (hm.sub rfl)
        assumption
      · exact fun _ => by assumption
  · split
    · apply Kept.ite
      · intro h4
        apply toExc_kept (hm.sub rfl)
        assumption
      · exact fun _ => by assumption
    · split
      · apply answer_kept (hm.sub rfl)
        apply Kept.ite
        · intro h6
          apply toExc_kept (hm.sub rfl)
          assumption
        · exact fun _ => by assumption
      · apply answer_kept (hm.sub rfl)
        apply Kept.ite
        · intro h6
          apply toExc_kept (hm.sub rfl)
          assumption
        · exact fun _ => by assumption
      · apply Kept.foldl
        · intro s5 b6 h7
          apply answer_kept (hm.sub rfl)
          assumption
        · apply Kept.ite
          · intro h6
            apply toExc_kept (hm.sub rfl)
            assumption
          · exact fun _ => by assumption
      · apply Kept.ite
        · intro h5
          apply toExc_kept (hm.sub rfl)
          assumption
        · exact fun _ => by assumption
  · apply Kept.ite
    · intro h3
      apply toExc_kept (hm.sub rfl)
      assumption
    · exact fun _ => by assumption

theorem cipherDrop_kept (hm : Has m 0x4002) (x0 : ℕ) (x1 : ℕ) (s : State)
    (hs : Kept m s₀ s) :
    Kept m s₀ (cipherDrop x0 x1 s) := by
  unfold cipherDrop
  apply bump_kept (hm.sub rfl)
  apply legUpd_kept (hm.sub rfl)
  assumption

theorem srtpInUpd_kept (hm : Has m 0x80000) (x0 : ℕ) (x1 : SrtpIn → SrtpIn) (s : State)
    (hs : Kept m s₀ s) :
    Kept m s₀ (srtpInUpd x0 x1 s) := by
  unfold srtpInUpd
  refine Kept.sea_put (hm.sub rfl) ?_
  assumption

theorem rtcpCipher_kept (hm : Has m 0x80002) (x0 : ℕ) (x1 : Option Prot) (s : State)
    (hs : Kept m s₀ s) :
    SndAll (SndAll (Kept m s₀)) (rtcpCipher x0 x1 s) := by
  unfold rtcpCipher
  dsimp only
  apply SndAll.ite
  · intro h2
    apply SndAll.mk
    apply SndAll.mk
    assumption
  · intro h2
    apply SndAll.ite
    · intro h4
      apply SndAll.mk
      apply SndAll.mk
      assumption
    · intro h4
      split
      · apply SndAll.ite
        · intro h7
          apply SndAll.mk
          apply SndAll.mk
          apply bump_kept (hm.sub rfl)
          apply srtpInUpd_kept (hm.sub rfl)
          assumption
        · intro h7
          apply SndAll.mk
          apply SndAll.mk
          assumption
      · apply SndAll.mk
        apply SndAll.mk
        apply Kept.ite
        · intro h9
          apply bump_kept (hm.sub rfl)
          apply srtpInUpd_kept (hm.sub rfl)
          apply srtpInUpd_kept (hm.sub rfl)
          assumption
        · intro h9
          apply srtpInUpd_kept (hm.sub rfl)
          assumption

theorem rtcpCipher_elim {x0 : ℕ} {x1 : Option Prot} {s : State} {v0} {v1} {t : State} (hm : Has m 0x80002) (e : (rtcpCipher x0 x1 s) = (v0, (v1, t)))
    (hs : Kept m s₀ s) : Kept m s₀ t := by
  have hk := rtcpCipher_kept hm x0 x1 s hs
  rw [e] at hk
  exact (SndAll.elim (SndAll.elim hk rfl) rfl)

theorem legAdmit_kept (hm : Has m 0x2301a) (x0 : ℕ) (x1 : Packet) (x2 : ℕ) (x3 : Bool) (x4 : Frame) (s : State)
    (hs : Kept m s₀ s) :
    SndAll (Kept m s₀) (legAdmit x0 x1 x2 x3 x4 s) := by
  unfold legAdmit
  dsimp only
  apply SndAll.ite
  · intro h2
    apply SndAll.mk
    apply Kept.snd
    apply policed_kept (hm.sub rfl)
    apply Kept.snd
    apply meter_kept (hm.sub rfl)
    assumption
  · intro h2
    apply SndAll.ite
    · intro h4
      apply SndAll.mk
      apply bump_kept (hm.sub rfl)
      apply Kept.snd
      apply policed_kept (hm.sub rfl)
      apply Kept.snd
      apply meter_kept (hm.sub rfl)
      assumption
    · intro h4
      apply admitPacket_kept (hm.sub rfl)
      apply Kept.snd
      apply policed_kept (hm.sub rfl)
      apply Kept.snd
      apply meter_kept (hm.sub rfl)
      assumption

theorem legAdmit_elim {x0 : ℕ} {x1 : Packet} {x2 : ℕ} {x3 : Bool} {x4 : Frame} {s : State} {v0} {t : State} (hm : Has m 0x2301a) (e : (legAdmit x0 x1 x2 x3 x4 s) = (v0, t))
    (hs : Kept m s₀ s) : Kept m s₀ t := by
  have hk := legAdmit_kept hm x0 x1 x2 x3 x4 s hs
  rw [e] at hk
  exact (SndAll.elim hk rfl)

theorem rtpCipher_kept (hm : Has m 0x80002) (x0 : ℕ) (x1 : ℕ) (x2 : ℕ) (x3 : Option Prot) (s : State)
    (hs : Kept m s₀ s) :
    SndAll (SndAll (Kept m s₀)) (rtpCipher x0 x1 x2 x3 s) := by
  unfold rtpCipher
  dsimp only
  apply SndAll.ite
  · intro h2
    apply SndAll.mk
    apply SndAll.mk
    assumption
  · intro h2
    apply SndAll.ite
    · intro h4
      split
      · apply SndAll.mk
        apply SndAll.mk
        assumption
      · apply SndAll.mk
        apply SndAll.mk
        apply srtpInUpd_kept (hm.sub rfl)
        assumption
    · intro h4
      apply SndAll.ite
      · intro h6
        apply SndAll.mk
        apply SndAll.mk
        apply bump_kept (hm.sub rfl)
        apply srtpInUpd_kept (hm.sub rfl)
        assumption
      · intro h6
        apply SndAll.ite
        · intro h8
          split
          · apply SndAll.mk
            apply SndAll.mk
            assumption
          · apply SndAll.mk
            apply SndAll.mk
            apply srtpInUpd_kept (hm.sub rfl)
            assumption
        · intro h8
          apply SndAll.mk
          apply SndAll.mk
          assumption

theorem rtpCipher_elim {x0 : ℕ} {x1 : ℕ} {x2 : ℕ} {x3 : Option Prot} {s : State} {v0} {v1} {t : State} (hm : Has m 0x80002) (e : (rtpCipher x0 x1 x2 x3 s) = (v0, (v1, t)))
    (hs : Kept m s₀ s) : Kept m s₀ t := by
  have hk := rtpCipher_kept hm x0 x1 x2 x3 s hs
  rw [e] at hk
  exact (SndAll.elim (SndAll.elim hk rfl) rfl)

theorem videoPacket_kept (hm : Has m 0x12f00a) (x0 : ℕ) (x1 : ℕ) (x2 : ℕ) (x3 : ℕ) (x4 : Rtp) (x5 : Frame) (s : State)
    (hs : Kept m s₀ s) :
    Kept m s₀ (videoPacket x0 x1 x2 x3 x4 x5 s) := by
  unfold videoPacket
  dsimp only
  apply Kept.ite
  · intro h2
    apply dropEntry_kept (hm.sub rfl)
    apply Kept.foldl
    · intro s5 b6 h7
      apply decodeTake_kept (hm.sub rfl)
      assumption
    · apply Kept.ite
      · intro h6
        apply refreshUpd_kept (hm.sub rfl)
        apply srcLog_kept (hm.sub rfl)
        apply upd_kept (hm.sub rfl)
        · intro y010 h11
          apply bump_kept (hm.sub rfl)
          assumption
        · split
          · apply vsrcUpd_kept (hm.sub rfl)
            assumption
          · apply Kept.ite
            · intro h12
              apply templateChanged_kept (hm.sub rfl)
              apply vsrcUpd_kept (hm.sub rfl)
              apply vsrcUpd_kept (hm.sub rfl)
              assumption
            · intro h12
              apply vsrcUpd_kept (hm.sub rfl)
              apply vsrcUpd_kept (hm.sub rfl)
              assumption
      · intro h6
        apply srcLog_kept (hm.sub rfl)
        apply upd_kept (hm.sub rfl)
        · intro y09 h10
          apply bump_kept (hm.sub rfl)
          assumption
        · split
          · apply vsrcUpd_kept (hm.sub rfl)
            assumption
          · apply Kept.ite
            · intro h11
              apply templateChanged_kept (hm.sub rfl)
              apply vsrcUpd_kept (hm.sub rfl)
              apply vsrcUpd_kept (hm.sub rfl)
              assumption
            · intro h11
              apply vsrcUpd_kept (hm.sub rfl)
              apply vsrcUpd_kept (hm.sub rfl)
              assumption
  · intro h2
    refine Kept.fwd_put (hm.sub rfl) ?_
    apply Kept.foldl
    · intro s5 b6 h7
      apply decodeTake_kept (hm.sub rfl)
      assumption
    · apply Kept.ite
      · intro h6
        apply refreshUpd_kept (hm.sub rfl)
        apply srcLog_kept (hm.sub rfl)
        apply upd_kept (hm.sub rfl)
        · intro y010 h11
          apply bump_kept (hm.sub rfl)
          assumption
        · split
          · apply vsrcUpd_kept (hm.sub rfl)
            assumption
          · apply Kept.ite
            · intro h12
              apply templateChanged_kept (hm.sub rfl)
              apply vsrcUpd_kept (hm.sub rfl)
              apply vsrcUpd_kept (hm.sub rfl)
              assumption
            · intro h12
              apply vsrcUpd_kept (hm.sub rfl)
              apply vsrcUpd_kept (hm.sub rfl)
              assumption
      · intro h6
        apply srcLog_kept (hm.sub rfl)
        apply upd_kept (hm.sub rfl)
        · intro y09 h10
          apply bump_kept (hm.sub rfl)
          assumption
        · split
          · apply vsrcUpd_kept (hm.sub rfl)
            assumption
          · apply Kept.ite
            · intro h11
              apply templateChanged_kept (hm.sub rfl)
              apply vsrcUpd_kept (hm.sub rfl)
              apply vsrcUpd_kept (hm.sub rfl)
              assumption
            · intro h11
              apply vsrcUpd_kept (hm.sub rfl)
              apply vsrcUpd_kept (hm.sub rfl)
              assumption

theorem legPacket_kept (hm : Has m 0x5af81a) (x0 : ℕ) (x1 : ℕ) (x2 : Bool) (x3 : Frame) (x4 : Ip) (x5 : Udp) (s : State)
    (hs : Kept m s₀ s) :
    Kept m s₀ (legPacket x0 x1 x2 x3 x4 x5 s) := by
  unfold legPacket
  dsimp only
  split
  · apply Kept.ite
    · intro h3
      split
      · apply cipherDrop_kept (hm.sub rfl)
        apply Kept.snd
        apply SndAll.snd
        apply rtcpCipher_kept (hm.sub rfl)
        assumption
      · apply cipherDrop_kept (hm.sub rfl)
        apply Kept.snd
        apply SndAll.snd
        apply rtcpCipher_kept (hm.sub rfl)
        assumption
      · apply cipherDrop_kept (hm.sub rfl)
        apply Kept.snd
        apply SndAll.snd
        apply rtcpCipher_kept (hm.sub rfl)
        assumption
      · apply Kept.snd
        apply SndAll.snd
        apply rtcpCipher_kept (hm.sub rfl)
        assumption
    · intro h3
      split
      · apply Kept.snd
        apply legAdmit_kept (hm.sub rfl)
        apply Kept.snd
        apply SndAll.snd
        apply rtcpCipher_kept (hm.sub rfl)
        assumption
      · apply dropEntry_kept (hm.sub rfl)
        apply Kept.foldl
        · intro s7 b8 h9
          apply rtcpItem_kept (hm.sub rfl)
          assumption
        · apply Kept.snd
          apply legAdmit_kept (hm.sub rfl)
          apply Kept.snd
          apply SndAll.snd
          apply rtcpCipher_kept (hm.sub rfl)
          assumption
  · apply Kept.ite
    · intro h3
      split
      · apply cipherDrop_kept (hm.sub rfl)
        apply Kept.snd
        apply SndAll.snd
        apply rtpCipher_kept (hm.sub rfl)
        assumption
      · apply cipherDrop_kept (hm.sub rfl)
        apply Kept.snd
        apply SndAll.snd
        apply rtpCipher_kept (hm.sub rfl)
        assumption
      · apply cipherDrop_kept (hm.sub rfl)
        apply Kept.snd
        apply SndAll.snd
        apply rtpCipher_kept (hm.sub rfl)
        assumption
      · apply Kept.snd
        apply SndAll.snd
        apply rtpCipher_kept (hm.sub rfl)
        assumption
    · intro h3
      split
      · split
        · apply dropEntry_kept (hm.sub rfl)
          apply legAudioPacket_kept (hm.sub rfl)
          apply countRx_kept (hm.sub rfl)
          apply Kept.snd
          apply legAdmit_kept (hm.sub rfl)
          apply Kept.snd
          apply SndAll.snd
          apply rtpCipher_kept (hm.sub rfl)
          assumption
        · apply videoPacket_kept (hm.sub rfl)
          apply countRx_kept (hm.sub rfl)
          apply Kept.snd
          apply legAdmit_kept (hm.sub rfl)
          apply Kept.snd
          apply SndAll.snd
          apply rtpCipher_kept (hm.sub rfl)
          assumption
      · apply Kept.snd
        apply legAdmit_kept (hm.sub rfl)
        apply Kept.snd
        apply SndAll.snd
        apply rtpCipher_kept (hm.sub rfl)
        assumption
  · apply bump_kept (hm.sub rfl)
    assumption
  · split
    · apply cipherDrop_kept (hm.sub rfl)
      apply Kept.snd
      apply SndAll.snd
      apply rtcpCipher_kept (hm.sub rfl)
      assumption
    · apply cipherDrop_kept (hm.sub rfl)
      apply Kept.snd
      apply SndAll.snd
      apply rtcpCipher_kept (hm.sub rfl)
      assumption
    · apply cipherDrop_kept (hm.sub rfl)
      apply Kept.snd
      apply SndAll.snd
      apply rtcpCipher_kept (hm.sub rfl)
      assumption
    · apply Kept.snd
      apply SndAll.snd
      apply rtcpCipher_kept (hm.sub rfl)
      assumption

theorem endpointPacket_kept (hm : Has m 0x2341a) (x0 : ℕ) (x1 : ℕ) (x2 : Frame) (x3 : Udp) (s : State)
    (hs : Kept m s₀ s) :
    Kept m s₀ (endpointPacket x0 x1 x2 x3 s) := by
  unfold endpointPacket
  dsimp only
  split
  · apply Kept.ite
    · intro h3
      apply bump_kept (hm.sub rfl)
      assumption
    · intro h3
      split
      · apply Kept.snd
        apply admitPacket_kept (hm.sub rfl)
        assumption
      · apply dropEntry_kept (hm.sub rfl)
        apply rxAccept_kept (hm.sub rfl)
        apply Kept.ite
        · intro h8
          refine Kept.pkt_put (hm.sub rfl) ?_
          apply Kept.snd
          apply admitPacket_kept (hm.sub rfl)
          assumption
        · intro h8
          apply Kept.snd
          apply admitPacket_kept (hm.sub rfl)
          assumption
  · apply bump_kept (hm.sub rfl)
    assumption

theorem runFate_kept (hm : Has m 0x5afc7a) (x0 : ℕ) (x1 : Frame) (x2 : Fate) (s : State)
    (hs : Kept m s₀ s) :
    Kept m s₀ (runFate x0 x1 x2 s) := by
  unfold runFate
  split
  · apply bump_kept (hm.sub rfl)
    assumption
  · assumption
  · split
    · apply pauseIn_kept (hm.sub rfl)
      assumption
    · apply pfcIn_kept (hm.sub rfl)
      assumption
    · assumption
  · apply Kept.ite
    · intro h2
      apply ptpFrame_kept (hm.sub rfl)
      assumption
    · intro h2
      apply answered_kept (hm.sub rfl)
      assumption
  · dsimp only
    apply toExc_kept (hm.sub rfl)
    assumption
  · split
    · apply legPacket_kept (hm.sub rfl)
      assumption
    · assumption
  · split
    · apply endpointPacket_kept (hm.sub rfl)
      assumption
    · assumption

theorem writeLegCtrlRefresh_kept (hm : Has m 0x246f1da) (x0 : Inst) (x1 : ℕ) (x2 : ℕ) (x3 : ℕ) (x4 : ℕ) (s : State)
    (hs : Kept m s₀ s) :
    Kept m s₀ (writeLegCtrlRefresh x0 x1 x2 x3 x4 s) := by
  unfold writeLegCtrlRefresh
  apply legCtrl_kept (hm.sub rfl)
  · intro y01 h2
    apply slotRefresh_kept (hm.sub rfl)
    assumption
  · assumption

theorem execEthFrameReceived_kept (hm : Has m 0x5afc7a) (x0 : Fin 8) (x1 : Frame) (s : State)
    (hs : Kept m s₀ s) :
    ResAll (Kept m s₀) (execEthFrameReceived x0 x1 s) := by
  unfold execEthFrameReceived
  dsimp only
  apply ResAll.next
  apply Kept.ite
  · exact fun _ => by assumption
  · intro h3
    apply Kept.ite
    · intro h5
      apply bump_kept (hm.sub rfl)
      assumption
    · intro h5
      apply Kept.ite
      · intro h7
        apply bump_kept (hm.sub rfl)
        assumption
      · intro h7
        apply Kept.ite
        · intro h9
          apply bump_kept (hm.sub rfl)
          assumption
        · intro h9
          apply Kept.ite
          · intro h11
            apply bump_kept (hm.sub rfl)
            apply bumpBy_kept (hm.sub rfl)
            apply bump_kept (hm.sub rfl)
            assumption
          · intro h11
            apply Kept.ite
            · intro h13
              split
              · apply runFate_kept (hm.sub rfl)
                apply bumpBy_kept (hm.sub rfl)
                apply bump_kept (hm.sub rfl)
                assumption
              · apply runFate_kept (hm.sub rfl)
                apply bumpBy_kept (hm.sub rfl)
                apply bump_kept (hm.sub rfl)
                assumption
              · apply runFate_kept (hm.sub rfl)
                apply bumpBy_kept (hm.sub rfl)
                apply bump_kept (hm.sub rfl)
                assumption
              · apply Kept.ite
                · intro h16
                  apply runFate_kept (hm.sub rfl)
                  apply spillCharge_kept (hm.sub rfl)
                  apply bumpBy_kept (hm.sub rfl)
                  apply bump_kept (hm.sub rfl)
                  assumption
                · intro h16
                  apply bump_kept (hm.sub rfl)
                  apply bumpBy_kept (hm.sub rfl)
                  apply bump_kept (hm.sub rfl)
                  assumption
            · intro h13
              apply runFate_kept (hm.sub rfl)
              apply bumpBy_kept (hm.sub rfl)
              apply bump_kept (hm.sub rfl)
              assumption

theorem writeLegCtrlSetMax_kept (hm : Has m 0x24631da) (x0 : Inst) (x1 : ℕ) (x2 : ℕ) (x3 : ℕ) (x4 : ℕ) (x5 : ℕ) (s : State)
    (hs : Kept m s₀ s) :
    Kept m s₀ (writeLegCtrlSetMax x0 x1 x2 x3 x4 x5 s) := by
  unfold writeLegCtrlSetMax
  apply legCtrl_kept (hm.sub rfl)
  · intro y01 h2
    apply markDirty_kept (hm.sub rfl)
    apply wr_kept (hm.sub rfl)
    assumption
  · assumption

theorem writeLegCtrlSetSource_kept (hm : Has m 0x24671da) (x0 : Inst) (x1 : ℕ) (x2 : ℕ) (x3 : ℕ) (x4 : ℕ) (x5 : ℕ) (s : State)
    (hs : Kept m s₀ s) :
    Kept m s₀ (writeLegCtrlSetSource x0 x1 x2 x3 x4 x5 s) := by
  unfold writeLegCtrlSetSource
  apply legCtrl_kept (hm.sub rfl)
  · intro y01 h2
    apply markDirty_kept (hm.sub rfl)
    apply setSource_kept (hm.sub rfl)
    assumption
  · assumption

end Sys2Proof.Machine
end

