-- ==== Sys2Proof/Laws/KeptDma.lean ====
section
/-! SUPPORT. Every effect of Machine/Dma.lean keeps what `Kept` says. -/
set_option Elab.async false
namespace Sys2Proof.Machine

variable {m : Nat} {s₀ : State}

theorem dmaSet_kept (hm : Has m 0x2) (x0 : ℕ) (x1 : ℕ) (s : State)
    (hs : Kept m s₀ s) :
    Kept m s₀ (dmaSet x0 x1 s) := by
  unfold dmaSet
  apply wr_kept (hm.sub rfl)
  assumption

theorem dmaHalt_kept (hm : Has m 0x2000a) (x0 : ℕ) (x1 : ℕ) (s : State)
    (hs : Kept m s₀ s) :
    Kept m s₀ (dmaHalt x0 x1 s) := by
  unfold dmaHalt
  dsimp only
  apply dmaEvt_kept (hm.sub rfl)
  apply dmaUpd_kept (hm.sub rfl)
  apply wr_kept (hm.sub rfl)
  apply bump_kept (hm.sub rfl)
  apply dmaSet_kept (hm.sub rfl)
  assumption

theorem dmaPark_kept (hm : Has m 0x2000a) (x0 : ℕ) (x1 : ℕ) (s : State)
    (hs : Kept m s₀ s) :
    Kept m s₀ (dmaPark x0 x1 s) := by
  unfold dmaPark
  apply dmaEvt_kept (hm.sub rfl)
  apply dmaSet_kept (hm.sub rfl)
  apply dmaUpd_kept (hm.sub rfl)
  assumption

theorem dmaLink_kept (hm : Has m 0x20002) (x0 : ℕ) (s : State)
    (hs : Kept m s₀ s) :
    Kept m s₀ (dmaLink x0 s) := by
  unfold dmaLink
  apply dmaSet_kept (hm.sub rfl)
  apply dmaUpd_kept (hm.sub rfl)
  assumption

theorem dmaStopped_kept (hm : Has m 0x402008a) (x0 : ℕ) (s : State)
    (hs : Kept m s₀ s) :
    Kept m s₀ (dmaStopped x0 s) := by
  unfold dmaStopped
  dsimp only
  apply Kept.ite
  · intro h2
    apply unclaim_kept (hm.sub rfl)
    apply dmaSet_kept (hm.sub rfl)
    refine Kept.dma_put (hm.sub rfl) ?_
    apply dmaEvt_kept (hm.sub rfl)
    apply dmaSet_kept (hm.sub rfl)
    apply dmaUpd_kept (hm.sub rfl)
    assumption
  · intro h2
    apply dmaEvt_kept (hm.sub rfl)
    apply dmaSet_kept (hm.sub rfl)
    apply dmaUpd_kept (hm.sub rfl)
    assumption

theorem dmaBoundary_kept (hm : Has m 0x402008a) (x0 : ℕ) (s : State)
    (hs : Kept m s₀ s) :
    Kept m s₀ (dmaBoundary x0 s) := by
  unfold dmaBoundary
  dsimp only
  apply Kept.ite
  · intro h2
    apply dmaStopped_kept (hm.sub rfl)
    assumption
  · intro h2
    apply Kept.ite
    · intro h4
      apply dmaHalt_kept (hm.sub rfl)
      assumption
    · intro h4
      apply Kept.ite
      · intro h6
        apply dmaSet_kept (hm.sub rfl)
        apply dmaUpd_kept (hm.sub rfl)
        assumption
      · intro h6
        apply dmaSet_kept (hm.sub rfl)
        apply dmaUpd_kept (hm.sub rfl)
        assumption

theorem execLinkFetchDone_kept (hm : Has m 0x402008a) (x0 : Fin 64) (x1 : Option Bytes) (x2 : Bool) (s : State)
    (hs : Kept m s₀ s) :
    ResAll (Kept m s₀) (execLinkFetchDone x0 x1 x2 s) := by
  unfold execLinkFetchDone
  dsimp only
  apply ResAll.next
  apply Kept.ite
  · exact fun _ => by assumption
  · intro h3
    split
    · apply dmaHalt_kept (hm.sub rfl)
      assumption
    · apply Kept.ite
      · intro h6
        apply Kept.ite
        · intro h8
          apply dmaLink_kept (hm.sub rfl)
          apply dmaPark_kept (hm.sub rfl)
          assumption
        · intro h8
          apply Kept.ite
          · intro h10
            apply dmaStopped_kept (hm.sub rfl)
            apply dmaPark_kept (hm.sub rfl)
            assumption
          · intro h10
            apply dmaPark_kept (hm.sub rfl)
            assumption
      · intro h6
        apply dmaBoundary_kept (hm.sub rfl)
        apply dmaUpd_kept (hm.sub rfl)
        assumption

theorem dmaStop_kept (hm : Has m 0x402008a) (x0 : ℕ) (s : State)
    (hs : Kept m s₀ s) :
    Kept m s₀ (dmaStop x0 s) := by
  unfold dmaStop
  dsimp only
  apply Kept.ite
  · intro h2
    apply dmaUpd_kept (hm.sub rfl)
    assumption
  · intro h2
    apply Kept.ite
    · intro h4
      apply dmaStopped_kept (hm.sub rfl)
      assumption
    · exact fun _ => by assumption

theorem dmaWriteBack_kept (hm : Has m 0x2040008) (x0 : DmaCh) (x1 : ℕ) (x2 : Bytes) (s : State)
    (hs : Kept m s₀ s) :
    Kept m s₀ (dmaWriteBack x0 x1 x2 s) := by
  unfold dmaWriteBack
  apply Kept.ite
  · intro h1
    apply emit_kept (hm.sub rfl)
    assumption
  · intro h1
    apply memWrite_kept (hm.sub rfl)
    assumption

theorem dmaFinish_kept (hm : Has m 0x256010a) (x0 : ℕ) (x1 : Bytes) (x2 : DmaEnd) (s : State)
    (hs : Kept m s₀ s) :
    Kept m s₀ (dmaFinish x0 x1 x2 s) := by
  unfold dmaFinish
  dsimp only
  apply dmaLink_kept (hm.sub rfl)
  apply Kept.ite
  · intro h3
    split
    · apply bump_kept (hm.sub rfl)
      apply enqueue_elim (hm.sub rfl) (by assumption)
      apply Kept.ite
      · intro h8
        apply dmaEvt_kept (hm.sub rfl)
        apply Kept.ite
        · intro h11
          apply bump_kept (hm.sub rfl)
          apply dmaUpd_kept (hm.sub rfl)
          apply dmaWriteBack_kept (hm.sub rfl)
          apply dmaWriteBack_kept (hm.sub rfl)
          assumption
        · intro h11
          apply dmaEvt_kept (hm.sub rfl)
          apply bump_kept (hm.sub rfl)
          apply bump_kept (hm.sub rfl)
          apply dmaUpd_kept (hm.sub rfl)
          apply dmaWriteBack_kept (hm.sub rfl)
          apply dmaWriteBack_kept (hm.sub rfl)
          assumption
      · intro h8
        apply Kept.ite
        · intro h10
          apply bump_kept (hm.sub rfl)
          apply dmaUpd_kept (hm.sub rfl)
          apply dmaWriteBack_kept (hm.sub rfl)
          apply dmaWriteBack_kept (hm.sub rfl)
          assumption
        · intro h10
          apply dmaEvt_kept (hm.sub rfl)
          apply bump_kept (hm.sub rfl)
          apply bump_kept (hm.sub rfl)
          apply dmaUpd_kept (hm.sub rfl)
          apply dmaWriteBack_kept (hm.sub rfl)
          apply dmaWriteBack_kept (hm.sub rfl)
          assumption
    · refine Kept.sch_put (hm.sub rfl) ?_
      apply enqueue_elim (hm.sub rfl) (by assumption)
      apply Kept.ite
      · intro h8
        apply dmaEvt_kept (hm.sub rfl)
        apply Kept.ite
        · intro h11
          apply bump_kept (hm.sub rfl)
          apply dmaUpd_kept (hm.sub rfl)
          apply dmaWriteBack_kept (hm.sub rfl)
          apply dmaWriteBack_kept (hm.sub rfl)
          assumption
        · intro h11
          apply dmaEvt_kept (hm.sub rfl)
          apply bump_kept (hm.sub rfl)
          apply bump_kept (hm.sub rfl)
          apply dmaUpd_kept (hm.sub rfl)
          apply dmaWriteBack_kept (hm.sub rfl)
          apply dmaWriteBack_kept (hm.sub rfl)
          assumption
      · intro h8
        apply Kept.ite
        · intro h10
          apply bump_kept (hm.sub rfl)
          apply dmaUpd_kept (hm.sub rfl)
          apply dmaWriteBack_kept (hm.sub rfl)
          apply dmaWriteBack_kept (hm.sub rfl)
          assumption
        · intro h10
          apply dmaEvt_kept (hm.sub rfl)
          apply bump_kept (hm.sub rfl)
          apply bump_kept (hm.sub rfl)
          apply dmaUpd_kept (hm.sub rfl)
          apply dmaWriteBack_kept (hm.sub rfl)
          apply dmaWriteBack_kept (hm.sub rfl)
          assumption
    · apply enqueue_elim (hm.sub rfl) (by assumption)
      apply Kept.ite
      · intro h7
        apply dmaEvt_kept (hm.sub rfl)
        apply Kept.ite
        · intro h10
          apply bump_kept (hm.sub rfl)
          apply dmaUpd_kept (hm.sub rfl)
          apply dmaWriteBack_kept (hm.sub rfl)
          apply dmaWriteBack_kept (hm.sub rfl)
          assumption
        · intro h10
          apply dmaEvt_kept (hm.sub rfl)
          apply bump_kept (hm.sub rfl)
          apply bump_kept (hm.sub rfl)
          apply dmaUpd_kept (hm.sub rfl)
          apply dmaWriteBack_kept (hm.sub rfl)
          apply dmaWriteBack_kept (hm.sub rfl)
          assumption
      · intro h7
        apply Kept.ite
        · intro h9
          apply bump_kept (hm.sub rfl)
          apply dmaUpd_kept (hm.sub rfl)
          apply dmaWriteBack_kept (hm.sub rfl)
          apply dmaWriteBack_kept (hm.sub rfl)
          assumption
        · intro h9
          apply dmaEvt_kept (hm.sub rfl)
          apply bump_kept (hm.sub rfl)
          apply bump_kept (hm.sub rfl)
          apply dmaUpd_kept (hm.sub rfl)
          apply dmaWriteBack_kept (hm.sub rfl)
          apply dmaWriteBack_kept (hm.sub rfl)
          assumption
  · intro h3
    apply Kept.ite
    · intro h5
      apply dmaEvt_kept (hm.sub rfl)
      apply Kept.ite
      · intro h8
        apply bump_kept (hm.sub rfl)
        apply dmaUpd_kept (hm.sub rfl)
        apply dmaWriteBack_kept (hm.sub rfl)
        apply dmaWriteBack_kept (hm.sub rfl)
        assumption
      · intro h8
        apply dmaEvt_kept (hm.sub rfl)
        apply bump_kept (hm.sub rfl)
        apply bump_kept (hm.sub rfl)
        apply dmaUpd_kept (hm.sub rfl)
        apply dmaWriteBack_kept (hm.sub rfl)
        apply dmaWriteBack_kept (hm.sub rfl)
        assumption
    · intro h5
      apply Kept.ite
      · intro h7
        apply bump_kept (hm.sub rfl)
        apply dmaUpd_kept (hm.sub rfl)
        apply dmaWriteBack_kept (hm.sub rfl)
        apply dmaWriteBack_kept (hm.sub rfl)
        assumption
      · intro h7
        apply dmaEvt_kept (hm.sub rfl)
        apply bump_kept (hm.sub rfl)
        apply bump_kept (hm.sub rfl)
        apply dmaUpd_kept (hm.sub rfl)
        apply dmaWriteBack_kept (hm.sub rfl)
        apply dmaWriteBack_kept (hm.sub rfl)
        assumption

theorem execDmaPaceTimer_kept (hm : Has m 0x2000a) (x0 : Fin 64) (s : State)
    (hs : Kept m s₀ s) :
    ResAll (Kept m s₀) (execDmaPaceTimer x0 s) := by
  unfold execDmaPaceTimer
  dsimp only
  apply ResAll.next
  apply Kept.ite
  · exact fun _ => by assumption
  · intro h3
    apply dmaRequest_kept (hm.sub rfl)
    apply dmaUpd_kept (hm.sub rfl)
    assumption

theorem writeSide_kept (hm : Has m 0x2040008) (x0 : Side) (x1 : Bytes) (s : State)
    (hs : Kept m s₀ s) :
    Kept m s₀ (writeSide x0 x1 s) := by
  unfold writeSide
  apply Kept.ite
  · intro h1
    apply Kept.foldl
    · intro s3 b4 h5
      apply emit_kept (hm.sub rfl)
      assumption
    · assumption
  · intro h1
    apply Kept.foldl
    · intro s3 b4 h5
      apply memWrite_kept (hm.sub rfl)
      assumption
    · assumption

theorem dmaBroken_kept (hm : Has m 0x2040018) (x0 : ℕ) (x1 : ℕ) (x2 : Side) (x3 : Bytes) (s : State)
    (hs : Kept m s₀ s) :
    SndAll (Kept m s₀) (dmaBroken x0 x1 x2 x3 s) := by
  unfold dmaBroken
  dsimp only
  apply SndAll.mk
  apply writeSide_kept (hm.sub rfl)
  apply drew_kept (hm.sub rfl)
  apply drew_kept (hm.sub rfl)
  assumption

theorem dmaBroken_elim {x0 : ℕ} {x1 : ℕ} {x2 : Side} {x3 : Bytes} {s : State} {v0} {t : State} (hm : Has m 0x2040018) (e : (dmaBroken x0 x1 x2 x3 s) = (v0, t))
    (hs : Kept m s₀ s) : Kept m s₀ t := by
  have hk := dmaBroken_kept hm x0 x1 x2 x3 s hs
  rw [e] at hk
  exact (SndAll.elim hk rfl)

theorem dmaTransfer_kept (hm : Has m 0x206301a) (x0 : Bytes) (x1 : Bytes) (x2 : Option (ℕ × ℕ)) (s : State)
    (hs : Kept m s₀ s) :
    SndAll (Kept m s₀) (dmaTransfer x0 x1 x2 s) := by
  unfold dmaTransfer
  dsimp only
  apply SndAll.ite
  · intro h2
    apply SndAll.mk
    assumption
  · intro h2
    apply SndAll.ite
    · intro h4
      split
      · split
        · apply SndAll.mk
          assumption
        · split
          · apply SndAll.mk
            apply popEntry_kept (hm.sub rfl)
            apply Kept.snd
            apply dmaBroken_kept (hm.sub rfl)
            assumption
          · apply SndAll.mk
            apply popEntry_kept (hm.sub rfl)
            apply writeSide_kept (hm.sub rfl)
            assumption
      · apply SndAll.mk
        assumption
    · intro h4
      split
      · apply SndAll.ite
        · intro h7
          apply SndAll.mk
          assumption
        · intro h7
          apply dmaBroken_kept (hm.sub rfl)
          assumption
      · apply SndAll.ite
        · intro h7
          apply SndAll.mk
          apply Kept.snd
          apply admitPacket_kept (hm.sub rfl)
          assumption
        · intro h7
          split
          · apply dmaBroken_kept (hm.sub rfl)
            assumption
          · apply SndAll.mk
            apply writeSide_kept (hm.sub rfl)
            assumption

theorem dmaTransfer_elim {x0 : Bytes} {x1 : Bytes} {x2 : Option (ℕ × ℕ)} {s : State} {v0} {t : State} (hm : Has m 0x206301a) (e : (dmaTransfer x0 x1 x2 s) = (v0, t))
    (hs : Kept m s₀ s) : Kept m s₀ t := by
  have hk := dmaTransfer_kept hm x0 x1 x2 s hs
  rw [e] at hk
  exact (SndAll.elim hk rfl)

theorem execBusTimeout_kept (hm : Has m 0x256311a) (x0 : Fin 64) (x1 : Bytes) (x2 : ℕ) (s : State)
    (hs : Kept m s₀ s) :
    ResAll (Kept m s₀) (execBusTimeout x0 x1 x2 s) := by
  unfold execBusTimeout
  apply ResAll.ite
  · intro h1
    apply ResAll.next
    assumption
  · intro h1
    apply ResAll.next
    split
    · dsimp only
      apply dmaFinish_kept (hm.sub rfl)
      apply Kept.snd
      apply dmaTransfer_kept (hm.sub rfl)
      assumption
    · apply dmaHalt_kept (hm.sub rfl)
      assumption
    · apply dmaHalt_kept (hm.sub rfl)
      assumption
    · assumption

theorem execDescriptorComplete_kept (hm : Has m 0x256311a) (x0 : Fin 64) (x1 : Bytes) (x2 : Option (Fin 3 × ℕ)) (s : State)
    (hs : Kept m s₀ s) :
    ResAll (Kept m s₀) (execDescriptorComplete x0 x1 x2 s) := by
  unfold execDescriptorComplete
  apply ResAll.next
  split
  · dsimp only
    apply dmaFinish_kept (hm.sub rfl)
    apply Kept.snd
    apply dmaTransfer_kept (hm.sub rfl)
    assumption
  · assumption

theorem dmaCtrl_kept (hm : Has m 0x20000) (x0 : ℕ) (x1 : Bool) (x2 : State → State) (s : State)
    (hf2 : ∀ y0, Kept m s₀ y0 → (Kept m s₀) (x2 y0)) (hs : Kept m s₀ s) :
    Kept m s₀ (dmaCtrl x0 x1 x2 s) := by
  unfold dmaCtrl
  apply Kept.ite
  · exact fun _ => by assumption
  · intro h1
    apply hf2
    apply dmaUpd_kept (hm.sub rfl)
    assumption

theorem dmaActivate_kept (hm : Has m 0x402008a) (x0 : ℕ) (s : State)
    (hs : Kept m s₀ s) :
    Kept m s₀ (dmaActivate x0 s) := by
  unfold dmaActivate
  apply dmaBoundary_kept (hm.sub rfl)
  apply dmaUpd_kept (hm.sub rfl)
  assumption

theorem dmaResume_kept (hm : Has m 0x402008a) (x0 : ℕ) (s : State)
    (hs : Kept m s₀ s) :
    Kept m s₀ (dmaResume x0 s) := by
  unfold dmaResume
  apply Kept.ite
  · intro h1
    apply dmaActivate_kept (hm.sub rfl)
    assumption
  · exact fun _ => by assumption

theorem execDmaResume_kept (hm : Has m 0x402008a) (x0 : Fin 64) (x1 : Bool) (s : State)
    (hs : Kept m s₀ s) :
    ResAll (Kept m s₀) (execDmaResume x0 x1 s) := by
  unfold execDmaResume
  apply ResAll.next
  apply dmaCtrl_kept (hm.sub rfl)
  · intro y02 h3
    apply dmaResume_kept (hm.sub rfl)
    assumption
  · assumption

theorem dmaReset_kept (hm : Has m 0x4020082) (s : State)
    (hs : Kept m s₀ s) :
    Kept m s₀ (dmaReset s) := by
  unfold dmaReset
  dsimp only
  apply Kept.foldl
  · intro s2 b3 h4
    apply dmaSet_kept (hm.sub rfl)
    assumption
  · refine Kept.dma_put (hm.sub rfl) ?_
    apply Kept.foldl
    · intro s4 b5 h6
      apply unclaim_kept (hm.sub rfl)
      apply dmaSet_kept (hm.sub rfl)
      assumption
    · assumption

theorem dmaReqWrite_kept (hm : Has m 0x2000a) (x0 : ℕ) (s : State)
    (hs : Kept m s₀ s) :
    Kept m s₀ (dmaReqWrite x0 s) := by
  unfold dmaReqWrite
  apply Kept.ite
  · intro h1
    apply dmaRequest_kept (hm.sub rfl)
    assumption
  · exact fun _ => by assumption

theorem execDmaReq_kept (hm : Has m 0x2000a) (x0 : Fin 64) (s : State)
    (hs : Kept m s₀ s) :
    ResAll (Kept m s₀) (execDmaReq x0 s) := by
  unfold execDmaReq
  apply ResAll.next
  apply dmaReqWrite_kept (hm.sub rfl)
  assumption

theorem execDmaStop_kept (hm : Has m 0x402008a) (x0 : Fin 64) (x1 : Bool) (s : State)
    (hs : Kept m s₀ s) :
    ResAll (Kept m s₀) (execDmaStop x0 x1 s) := by
  unfold execDmaStop
  apply ResAll.next
  apply dmaCtrl_kept (hm.sub rfl)
  · intro y02 h3
    apply dmaStop_kept (hm.sub rfl)
    assumption
  · assumption

theorem execDmaPacingPermit_kept (hm : Has m 0x402008a) (x0 : Fin 64) (s : State)
    (hs : Kept m s₀ s) :
    ResAll (Kept m s₀) (execDmaPacingPermit x0 s) := by
  unfold execDmaPacingPermit
  apply ResAll.next
  apply Kept.ite
  · intro h2
    apply dmaActivate_kept (hm.sub rfl)
    assumption
  · exact fun _ => by assumption

theorem execDescriptorFetchDone_kept (hm : Has m 0x2000a) (x0 : Fin 64) (x1 : Option Bytes) (x2 : Bool) (s : State)
    (hs : Kept m s₀ s) :
    ResAll (Kept m s₀) (execDescriptorFetchDone x0 x1 x2 s) := by
  unfold execDescriptorFetchDone
  dsimp only
  apply ResAll.next
  apply Kept.ite
  · exact fun _ => by assumption
  · intro h3
    split
    · apply dmaHalt_kept (hm.sub rfl)
      assumption
    · apply Kept.ite
      · intro h6
        apply dmaUpd_kept (hm.sub rfl)
        assumption
      · intro h6
        apply dmaPark_kept (hm.sub rfl)
        assumption

theorem dmaDoorbell_kept (hm : Has m 0x402008a) (x0 : ℕ) (s : State)
    (hs : Kept m s₀ s) :
    Kept m s₀ (dmaDoorbell x0 s) := by
  unfold dmaDoorbell
  dsimp only
  apply Kept.ite
  · exact fun _ => by assumption
  · intro h2
    apply Kept.ite
    · intro h4
      apply dmaUpd_kept (hm.sub rfl)
      assumption
    · intro h4
      apply Kept.ite
      · intro h6
        apply dmaLink_kept (hm.sub rfl)
        apply dmaUpd_kept (hm.sub rfl)
        apply dmaUpd_kept (hm.sub rfl)
        assumption
      · intro h6
        apply dmaActivate_kept (hm.sub rfl)
        apply dmaUpd_kept (hm.sub rfl)
        assumption

theorem execDmaDoorbell_kept (hm : Has m 0x402008a) (x0 : Fin 64) (s : State)
    (hs : Kept m s₀ s) :
    ResAll (Kept m s₀) (execDmaDoorbell x0 s) := by
  unfold execDmaDoorbell
  apply ResAll.next
  apply dmaDoorbell_kept (hm.sub rfl)
  assumption

theorem execCurLoRead_kept (hm : Has m 0x20008) (x0 : Fin 64) (x1 : ℕ) (s : State)
    (hs : Kept m s₀ s) :
    ResAll (Kept m s₀) (execCurLoRead x0 x1 s) := by
  unfold execCurLoRead
  dsimp only
  apply ResAll.next
  apply emit_kept (hm.sub rfl)
  apply dmaUpd_kept (hm.sub rfl)
  assumption

theorem dmaGo_kept (hm : Has m 0x402008a) (x0 : ℕ) (s : State)
    (hs : Kept m s₀ s) :
    Kept m s₀ (dmaGo x0 s) := by
  unfold dmaGo
  dsimp only
  apply Kept.ite
  · intro h2
    apply dmaActivate_kept (hm.sub rfl)
    apply dmaUpd_kept (hm.sub rfl)
    assumption
  · exact fun _ => by assumption

theorem dmaEn_kept (hm : Has m 0x402008a) (x0 : ℕ) (x1 : Bool) (s : State)
    (hs : Kept m s₀ s) :
    Kept m s₀ (dmaEn x0 x1 s) := by
  unfold dmaEn
  dsimp only
  apply Kept.ite
  · intro h2
    apply wr_kept (hm.sub rfl)
    assumption
  · intro h2
    apply Kept.ite
    · intro h4
      apply Kept.ite
      · intro h6
        apply dmaWatch_kept (hm.sub rfl)
        apply setClaim_kept (hm.sub rfl)
        apply dmaSet_kept (hm.sub rfl)
        refine Kept.dma_put (hm.sub rfl) ?_
        apply wr_kept (hm.sub rfl)
        assumption
      · intro h6
        apply setClaim_kept (hm.sub rfl)
        apply dmaSet_kept (hm.sub rfl)
        refine Kept.dma_put (hm.sub rfl) ?_
        apply wr_kept (hm.sub rfl)
        assumption
    · intro h4
      apply Kept.ite
      · intro h6
        apply unclaim_kept (hm.sub rfl)
        apply dmaSet_kept (hm.sub rfl)
        refine Kept.dma_put (hm.sub rfl) ?_
        apply dmaUpd_kept (hm.sub rfl)
        apply wr_kept (hm.sub rfl)
        assumption
      · intro h6
        apply dmaStop_kept (hm.sub rfl)
        apply dmaUpd_kept (hm.sub rfl)
        apply wr_kept (hm.sub rfl)
        assumption

theorem writeDmaEn_kept (hm : Has m 0x64631da) (x0 : Inst) (x1 : ℕ) (x2 : Fin 64) (x3 : Bool) (s : State)
    (hs : Kept m s₀ s) :
    Kept m s₀ (writeDmaEn x0 x1 x2 x3 s) := by
  unfold writeDmaEn
  apply runWrite_kept (hm.sub rfl)
  · intro y01 h2
    apply dmaEn_kept (hm.sub rfl)
    assumption
  · assumption

theorem execDmaGo_kept (hm : Has m 0x402008a) (x0 : Fin 64) (x1 : Bool) (s : State)
    (hs : Kept m s₀ s) :
    ResAll (Kept m s₀) (execDmaGo x0 x1 s) := by
  unfold execDmaGo
  apply ResAll.next
  apply dmaCtrl_kept (hm.sub rfl)
  · intro y02 h3
    apply dmaGo_kept (hm.sub rfl)
    assumption
  · assumption

end Sys2Proof.Machine
end

