-- ==== Sys2Proof/Laws/KeptModes.lean ====
section
/-! SUPPORT. Every effect of Machine/Modes.lean keeps what `Kept` says. -/
set_option Elab.async false
namespace Sys2Proof.Machine

variable {m : Nat} {s₀ : State}

theorem intakeOpens_kept (hm : Has m 0x254010a) (s : State)
    (hs : Kept m s₀ s) :
    Kept m s₀ (intakeOpens s) := by
  unfold intakeOpens
  apply retryHeld_kept (hm.sub rfl)
  apply wr_kept (hm.sub rfl)
  assumption

theorem entryAbandon_kept (hm : Has m 0x2d631da) (s : State)
    (hs : Kept m s₀ s) :
    Kept m s₀ (entryAbandon s) := by
  unfold entryAbandon
  split
  · assumption
  · dsimp only
    apply Kept.ite
    · intro h3
      apply cmdComplete_kept (hm.sub rfl)
      apply intakeOpens_kept (hm.sub rfl)
      apply pwrEvt_kept (hm.sub rfl)
      apply bump_kept (hm.sub rfl)
      apply upd_kept (hm.sub rfl)
      · intro y09 h10
        apply lanokSend_kept (hm.sub rfl)
        assumption
      · refine Kept.pwr_put (hm.sub rfl) ?_
        assumption
    · intro h3
      apply Kept.ite
      · intro h5
        apply intakeOpens_kept (hm.sub rfl)
        apply pwrEvt_kept (hm.sub rfl)
        apply bump_kept (hm.sub rfl)
        apply upd_kept (hm.sub rfl)
        · intro y010 h11
          apply lanokSend_kept (hm.sub rfl)
          assumption
        · refine Kept.pwr_put (hm.sub rfl) ?_
          assumption
      · intro h5
        apply cmdComplete_kept (hm.sub rfl)
        refine Kept.boot_put (hm.sub rfl) ?_
        apply intakeOpens_kept (hm.sub rfl)
        apply pwrEvt_kept (hm.sub rfl)
        apply bump_kept (hm.sub rfl)
        apply upd_kept (hm.sub rfl)
        · intro y012 h13
          apply lanokSend_kept (hm.sub rfl)
          assumption
        · refine Kept.pwr_put (hm.sub rfl) ?_
          assumption

theorem entryAbort_kept (hm : Has m 0x2d631da) (s : State)
    (hs : Kept m s₀ s) :
    Kept m s₀ (entryAbort s) := by
  unfold entryAbort
  split
  · apply Kept.ite
    · intro h2
      apply entryAbandon_kept (hm.sub rfl)
      assumption
    · exact fun _ => by assumption
  · assumption

theorem entryCalm_kept (hm : Has m 0x2d631da) (s : State)
    (hs : Kept m s₀ s) :
    Kept m s₀ (entryCalm s) := by
  unfold entryCalm
  split
  · apply entryAbort_kept (hm.sub rfl)
    refine Kept.pwr_put (hm.sub rfl) ?_
    assumption
  · assumption

theorem legResume_kept (hm : Has m 0x7002) (x0 : ℕ) (s : State)
    (hs : Kept m s₀ s) :
    Kept m s₀ (legResume x0 s) := by
  unfold legResume
  dsimp only
  apply Kept.ite
  · intro h2
    apply legStart_kept (hm.sub rfl)
    assumption
  · intro h2
    apply Kept.foldl
    · intro s4 b5 h6
      apply wr_kept (hm.sub rfl)
      assumption
    · apply legUpd_kept (hm.sub rfl)
      apply legStart_kept (hm.sub rfl)
      assumption

theorem transitionFail_kept (hm : Has m 0x2d631da) (s : State)
    (hs : Kept m s₀ s) :
    Kept m s₀ (transitionFail s) := by
  unfold transitionFail
  split
  · assumption
  · apply Kept.ite
    · intro h2
      apply entryAbandon_kept (hm.sub rfl)
      assumption
    · intro h2
      apply cmdComplete_kept (hm.sub rfl)
      refine Kept.boot_put (hm.sub rfl) ?_
      assumption

theorem armHandover_kept (hm : Has m 0x44000e8) (x0 : ℕ) (s : State)
    (hs : Kept m s₀ s) :
    OptAll (SndAll (Kept m s₀)) (armHandover x0 s) := by
  unfold armHandover
  apply armDevice_kept (hm.sub rfl)
  assumption

theorem armHandover_elim {x0 : ℕ} {s : State} {v0} {t : State} (hm : Has m 0x44000e8) (e : (armHandover x0 s) = (some (v0, t)))
    (hs : Kept m s₀ s) : Kept m s₀ t := by
  have hk := armHandover_kept hm x0 s hs
  rw [e] at hk
  exact (SndAll.elim (OptAll.elim hk rfl) rfl)

theorem entryField_kept (hm : Has m 0x2d631da) (s : State)
    (hs : Kept m s₀ s) :
    Kept m s₀ (entryField s) := by
  unfold entryField
  split
  · assumption
  · dsimp only
    apply Kept.ite
    · intro h3
      apply entryCalm_kept (hm.sub rfl)
      refine Kept.pwr_put (hm.sub rfl) ?_
      assumption
    · intro h3
      apply lanokSend_kept (hm.sub rfl)
      refine Kept.pwr_put (hm.sub rfl) ?_
      assumption

theorem clearEnable_kept (hm : Has m 0x244018a) (x0 : ℕ) (x1 : ℕ → Bool → State → State) (s : State) (x3 : ℕ)
    (hf1 : ∀ y0 y1 y2, Kept m s₀ y2 → (Kept m s₀) (x1 y0 y1 y2)) (hs : Kept m s₀ s) :
    Kept m s₀ (clearEnable x0 x1 s x3) := by
  unfold clearEnable
  apply acceptWrite_kept (hm.sub rfl)
  · intro y01 h2
    apply hf1
    assumption
  · assumption

theorem clearEnables_kept (hm : Has m 0x657f9ea) (s : State)
    (hs : Kept m s₀ s) :
    Kept m s₀ (clearEnables s) := by
  unfold clearEnables
  dsimp only
  apply Kept.foldl
  · intro s2 b3 h4
    apply clearEnable_kept (hm.sub rfl)
    · intro y06 y17 y28 h9
      apply encEn_kept (hm.sub rfl)
      assumption
    · assumption
  · apply Kept.foldl
    · intro s3 b4 h5
      apply clearEnable_kept (hm.sub rfl)
      · intro y07 y18 y29 h10
        apply decEn_kept (hm.sub rfl)
        assumption
      · assumption
    · apply Kept.foldl
      · intro s4 b5 h6
        apply clearEnable_kept (hm.sub rfl)
        · intro y08 y19 y210 h11
          apply outEn_kept (hm.sub rfl)
          assumption
        · assumption
      · apply Kept.foldl
        · intro s5 b6 h7
          apply clearEnable_kept (hm.sub rfl)
          · intro y09 y110 y211 h12
            apply legEn_kept (hm.sub rfl)
            assumption
          · assumption
        · assumption

theorem trialEnd_kept (hm : Has m 0x800008) (s : State)
    (hs : Kept m s₀ s) :
    Kept m s₀ (trialEnd s) := by
  unfold trialEnd
  apply upd_kept (hm.sub rfl)
  · intro y01 h2
    apply headerPut_kept (hm.sub rfl)
    assumption
  · refine Kept.boot_put (hm.sub rfl) ?_
    assumption

theorem legsDown_kept (hm : Has m 0x2700a) (s : State)
    (hs : Kept m s₀ s) :
    Kept m s₀ (legsDown s) := by
  unfold legsDown
  dsimp only
  refine Kept.fwd_put (hm.sub rfl) ?_
  apply Kept.foldl
  · intro s3 b4 h5
    apply legUnlist_kept (hm.sub rfl)
    apply queueUpd_kept (hm.sub rfl)
    apply queueUpd_kept (hm.sub rfl)
    apply flushQueue_kept (hm.sub rfl)
    apply flushQueue_kept (hm.sub rfl)
    assumption
  · assumption

theorem sapHalt_kept (hm : Has m 0x402) (x0 : ℕ) (s : State)
    (hs : Kept m s₀ s) :
    Kept m s₀ (sapHalt x0 s) := by
  unfold sapHalt
  apply Kept.ite
  · exact fun _ => by assumption
  · intro h1
    apply sapSync_kept (hm.sub rfl)
    apply wr_kept (hm.sub rfl)
    apply wr_kept (hm.sub rfl)
    apply wr_kept (hm.sub rfl)
    apply sapUpd_kept (hm.sub rfl)
    assumption

theorem featuresStop_kept (hm : Has m 0x13f40a) (s : State)
    (hs : Kept m s₀ s) :
    Kept m s₀ (featuresStop s) := by
  unfold featuresStop
  dsimp only
  apply Kept.foldl
  · intro s2 b3 h4
    apply Kept.ite
    · intro h6
      apply wr_kept (hm.sub rfl)
      apply txUpd_kept (hm.sub rfl)
      apply Kept.ite
      · intro h10
        apply wr_kept (hm.sub rfl)
        apply rxUpd_kept (hm.sub rfl)
        assumption
      · exact fun _ => by assumption
    · intro h6
      apply Kept.ite
      · intro h8
        apply wr_kept (hm.sub rfl)
        apply rxUpd_kept (hm.sub rfl)
        assumption
      · exact fun _ => by assumption
  · apply Kept.foldl
    · intro s3 b4 h5
      apply sapHalt_kept (hm.sub rfl)
      assumption
    · refine Kept.cmp_put (hm.sub rfl) ?_
      apply Kept.foldl
      · intro s5 b6 h7
        apply cmpUpd_kept (hm.sub rfl)
        apply Kept.foldl
        · intro s10 b11 h12
          apply picOver_kept (hm.sub rfl)
          assumption
        · assumption
      · apply legsDown_kept (hm.sub rfl)
        assumption

theorem featuresStart_kept (hm : Has m 0x452fc9a) (x0 : Bool) (s : State)
    (hs : Kept m s₀ s) :
    Kept m s₀ (featuresStart x0 s) := by
  unfold featuresStart
  dsimp only
  apply Kept.foldl
  · intro s2 b3 h4
    apply Kept.ite
    · intro h6
      apply txEn_kept (hm.sub rfl)
      apply wr_kept (hm.sub rfl)
      apply Kept.ite
      · intro h10
        apply rxEn_kept (hm.sub rfl)
        apply wr_kept (hm.sub rfl)
        assumption
      · exact fun _ => by assumption
    · intro h6
      apply Kept.ite
      · intro h8
        apply rxEn_kept (hm.sub rfl)
        apply wr_kept (hm.sub rfl)
        assumption
      · exact fun _ => by assumption
  · apply Kept.foldl
    · intro s3 b4 h5
      apply Kept.ite
      · intro h7
        apply sapStart_kept (hm.sub rfl)
        assumption
      · exact fun _ => by assumption
    · apply Kept.foldl
      · intro s4 b5 h6
        apply Kept.ite
        · exact fun _ => by assumption
        · intro h8
          apply Kept.ite
          · intro h10
            apply legResume_kept (hm.sub rfl)
            assumption
          · intro h10
            apply legStart_kept (hm.sub rfl)
            assumption
      · apply vidRestart_kept (hm.sub rfl)
        assumption

theorem enterMode_kept (hm : Has m 0x6d7fdfa) (x0 : ℕ) (s : State)
    (hs : Kept m s₀ s) :
    Kept m s₀ (enterMode x0 s) := by
  unfold enterMode
  dsimp only
  apply Kept.ite
  · intro h2
    apply featuresStop_kept (hm.sub rfl)
    refine Kept.boot_put (hm.sub rfl) ?_
    apply upd_kept (hm.sub rfl)
    · intro y06 h7
      apply trialEnd_kept (hm.sub rfl)
      assumption
    · apply upd_kept (hm.sub rfl)
      · intro y07 h8
        apply tmEnter_kept (hm.sub rfl)
        assumption
      · apply upd_kept (hm.sub rfl)
        · intro y08 h9
          apply tmLeave_kept (hm.sub rfl)
          assumption
        · apply upd_kept (hm.sub rfl)
          · intro y09 h10
            apply clearEnables_kept (hm.sub rfl)
            assumption
          · apply upd_kept (hm.sub rfl)
            · intro y010 h11
              refine Kept.mix_put (hm.sub rfl) ?_
              assumption
            · apply wr_kept (hm.sub rfl)
              apply wr_kept (hm.sub rfl)
              assumption
  · intro h2
    apply Kept.ite
    · intro h4
      apply featuresStart_kept (hm.sub rfl)
      refine Kept.boot_put (hm.sub rfl) ?_
      apply upd_kept (hm.sub rfl)
      · intro y08 h9
        apply trialEnd_kept (hm.sub rfl)
        assumption
      · apply upd_kept (hm.sub rfl)
        · intro y09 h10
          apply tmEnter_kept (hm.sub rfl)
          assumption
        · apply upd_kept (hm.sub rfl)
          · intro y010 h11
            apply tmLeave_kept (hm.sub rfl)
            assumption
          · apply upd_kept (hm.sub rfl)
            · intro y011 h12
              apply clearEnables_kept (hm.sub rfl)
              assumption
            · apply upd_kept (hm.sub rfl)
              · intro y012 h13
                refine Kept.mix_put (hm.sub rfl) ?_
                assumption
              · apply wr_kept (hm.sub rfl)
                apply wr_kept (hm.sub rfl)
                assumption
    · intro h4
      refine Kept.boot_put (hm.sub rfl) ?_
      apply upd_kept (hm.sub rfl)
      · intro y07 h8
        apply trialEnd_kept (hm.sub rfl)
        assumption
      · apply upd_kept (hm.sub rfl)
        · intro y08 h9
          apply tmEnter_kept (hm.sub rfl)
          assumption
        · apply upd_kept (hm.sub rfl)
          · intro y09 h10
            apply tmLeave_kept (hm.sub rfl)
            assumption
          · apply upd_kept (hm.sub rfl)
            · intro y010 h11
              apply clearEnables_kept (hm.sub rfl)
              assumption
            · apply upd_kept (hm.sub rfl)
              · intro y011 h12
                refine Kept.mix_put (hm.sub rfl) ?_
                assumption
              · apply wr_kept (hm.sub rfl)
                apply wr_kept (hm.sub rfl)
                assumption

theorem transitionDone_kept (hm : Has m 0x6d7fdfa) (x0 : ℕ) (s : State)
    (hs : Kept m s₀ s) :
    Kept m s₀ (transitionDone x0 s) := by
  unfold transitionDone
  apply cmdComplete_kept (hm.sub rfl)
  apply enterMode_kept (hm.sub rfl)
  refine Kept.boot_put (hm.sub rfl) ?_
  assumption

theorem transitionGo_kept (hm : Has m 0x6d7fdfa) (x0 : ℕ) (s : State)
    (hs : Kept m s₀ s) :
    Kept m s₀ (transitionGo x0 s) := by
  unfold transitionGo
  apply Kept.ite
  · intro h1
    apply entryField_kept (hm.sub rfl)
    refine Kept.boot_put (hm.sub rfl) ?_
    assumption
  · intro h1
    apply transitionDone_kept (hm.sub rfl)
    assumption

theorem execHallHandover_kept (hm : Has m 0x6d7fdfa) (s : State)
    (hs : Kept m s₀ s) :
    ResAll (Kept m s₀) (execHallHandover s) := by
  unfold execHallHandover
  split
  · apply ResAll.next
    assumption
  · dsimp only
    apply ResAll.ite
    · intro h3
      apply ResAll.next
      apply setHeld_kept (hm.sub rfl)
      apply report_kept (hm.sub rfl)
      assumption
    · intro h3
      apply ResAll.next
      apply upd_kept (hm.sub rfl)
      · intro y06 h7
        apply tmAdopt_kept (hm.sub rfl)
        assumption
      · split
        · apply Kept.ite
          · intro h8
            apply transitionGo_kept (hm.sub rfl)
            apply Kept.ite
            · intro h11
              apply startMixFade_kept (hm.sub rfl)
              apply setHeld_kept (hm.sub rfl)
              apply report_kept (hm.sub rfl)
              assumption
            · intro h11
              apply Kept.ite
              · intro h13
                apply setFieldState_kept (hm.sub rfl)
                apply hdHandBack_kept (hm.sub rfl)
                apply startMixFade_kept (hm.sub rfl)
                apply setHeld_kept (hm.sub rfl)
                apply report_kept (hm.sub rfl)
                assumption
              · intro h13
                apply setFieldState_kept (hm.sub rfl)
                apply hdAdopt_kept (hm.sub rfl)
                apply startMixFade_kept (hm.sub rfl)
                apply setHeld_kept (hm.sub rfl)
                apply report_kept (hm.sub rfl)
                assumption
          · intro h8
            apply Kept.ite
            · intro h10
              apply startMixFade_kept (hm.sub rfl)
              apply setHeld_kept (hm.sub rfl)
              apply report_kept (hm.sub rfl)
              assumption
            · intro h10
              apply Kept.ite
              · intro h12
                apply setFieldState_kept (hm.sub rfl)
                apply hdHandBack_kept (hm.sub rfl)
                apply startMixFade_kept (hm.sub rfl)
                apply setHeld_kept (hm.sub rfl)
                apply report_kept (hm.sub rfl)
                assumption
              · intro h12
                apply setFieldState_kept (hm.sub rfl)
                apply hdAdopt_kept (hm.sub rfl)
                apply startMixFade_kept (hm.sub rfl)
                apply setHeld_kept (hm.sub rfl)
                apply report_kept (hm.sub rfl)
                assumption
        · apply Kept.ite
          · intro h8
            apply startMixFade_kept (hm.sub rfl)
            apply setHeld_kept (hm.sub rfl)
            apply report_kept (hm.sub rfl)
            assumption
          · intro h8
            apply Kept.ite
            · intro h10
              apply setFieldState_kept (hm.sub rfl)
              apply hdHandBack_kept (hm.sub rfl)
              apply startMixFade_kept (hm.sub rfl)
              apply setHeld_kept (hm.sub rfl)
              apply report_kept (hm.sub rfl)
              assumption
            · intro h10
              apply setFieldState_kept (hm.sub rfl)
              apply hdAdopt_kept (hm.sub rfl)
              apply startMixFade_kept (hm.sub rfl)
              apply setHeld_kept (hm.sub rfl)
              apply report_kept (hm.sub rfl)
              assumption

theorem safeCleared_kept (hm : Has m 0x800000) (x0 : ℕ) (s : State)
    (hs : Kept m s₀ s) :
    Kept m s₀ (safeCleared x0 s) := by
  unfold safeCleared
  refine Kept.boot_put (hm.sub rfl) ?_
  assumption

theorem transitionCheck_kept (hm : Has m 0x6d7fdfa) (s : State)
    (hs : Kept m s₀ s) :
    Kept m s₀ (transitionCheck s) := by
  unfold transitionCheck
  split
  · apply Kept.ite
    · exact fun _ => by assumption
    · intro h2
      apply Kept.ite
      · intro h4
        apply transitionFail_kept (hm.sub rfl)
        assumption
      · intro h4
        apply transitionGo_kept (hm.sub rfl)
        assumption
  · assumption

theorem entryStart_kept (hm : Has m 0x100002) (x0 : ℕ) (x1 : Bool) (s : State)
    (hs : Kept m s₀ s) :
    Kept m s₀ (entryStart x0 x1 s) := by
  unfold entryStart
  apply wr_kept (hm.sub rfl)
  refine Kept.pwr_put (hm.sub rfl) ?_
  assumption

theorem transitionStart_kept (hm : Has m 0x6d7fdfa) (x0 : ℕ) (s : State)
    (hs : Kept m s₀ s) :
    Kept m s₀ (transitionStart x0 s) := by
  unfold transitionStart
  dsimp only
  apply Kept.ite
  · intro h2
    split
    · refine Kept.boot_put (hm.sub rfl) ?_
      apply armHandover_elim (hm.sub rfl) (by assumption)
      apply upd_kept (hm.sub rfl)
      · intro y07 h8
        apply entryStart_kept (hm.sub rfl)
        assumption
      · refine Kept.boot_put (hm.sub rfl) ?_
        assumption
    · apply transitionGo_kept (hm.sub rfl)
      apply upd_kept (hm.sub rfl)
      · intro y06 h7
        apply entryStart_kept (hm.sub rfl)
        assumption
      · refine Kept.boot_put (hm.sub rfl) ?_
        assumption
  · intro h2
    apply transitionGo_kept (hm.sub rfl)
    apply upd_kept (hm.sub rfl)
    · intro y05 h6
      apply entryStart_kept (hm.sub rfl)
      assumption
    · refine Kept.boot_put (hm.sub rfl) ?_
      assumption

theorem writeModeRequest_kept (hm : Has m 0x6d7fdfa) (x0 : Inst) (x1 : ℕ) (x2 : ℕ) (s : State)
    (hs : Kept m s₀ s) :
    Kept m s₀ (writeModeRequest x0 x1 x2 s) := by
  unfold writeModeRequest
  apply runPending_kept (hm.sub rfl)
  · intro y01 h2
    apply transitionStart_kept (hm.sub rfl)
    assumption
  · assumption

theorem legsUp_kept (hm : Has m 0x7002) (s : State)
    (hs : Kept m s₀ s) :
    Kept m s₀ (legsUp s) := by
  unfold legsUp
  apply Kept.foldl
  · intro s1 b2 h3
    apply Kept.ite
    · exact fun _ => by assumption
    · intro h5
      apply Kept.ite
      · intro h7
        apply queueUpd_kept (hm.sub rfl)
        apply queueUpd_kept (hm.sub rfl)
        assumption
      · intro h7
        apply legStart_kept (hm.sub rfl)
        assumption
  · assumption

theorem handOver_kept (hm : Has m 0xd3f4fa) (s : State)
    (hs : Kept m s₀ s) :
    Kept m s₀ (handOver s) := by
  unfold handOver
  apply Kept.ite
  · intro h1
    dsimp only
    apply reselect_kept (hm.sub rfl)
    apply cmdComplete_kept (hm.sub rfl)
    apply wr_kept (hm.sub rfl)
    apply featuresStop_kept (hm.sub rfl)
    refine Kept.mk' (v := 12582912) (hm.sub rfl) rfl ?_ ?_
    · apply pairSend_kept (hm.sub rfl)
      apply wr_kept (hm.sub rfl)
      assumption
    · intro p hp
      cases p <;> first | exact absurd hp (by dsimp only [StatePart.idx]; decide) | exact Eq.refl _ | exact ⟨Eq.refl _, Eq.refl _, Eq.refl _⟩
  · exact fun _ => by assumption

theorem switchover_kept (hm : Has m 0xd3f4fa) (s : State)
    (hs : Kept m s₀ s) :
    Kept m s₀ (switchover s) := by
  unfold switchover
  apply Kept.ite
  · intro h1
    apply handOver_kept (hm.sub rfl)
    refine Kept.pair_put (hm.sub rfl) ?_
    assumption
  · exact fun _ => by assumption

theorem enterSafe_kept (hm : Has m 0x6d7fdfa) (x0 : ℕ) (s : State)
    (hs : Kept m s₀ s) :
    Kept m s₀ (enterSafe x0 s) := by
  unfold enterSafe
  dsimp only
  apply Kept.ite
  · intro h2
    refine Kept.boot_put (hm.sub rfl) ?_
    assumption
  · intro h2
    apply enterMode_kept (hm.sub rfl)
    apply Kept.ite
    · intro h5
      split
      · apply armHandover_elim (hm.sub rfl) (by assumption)
        apply transitionFail_kept (hm.sub rfl)
        refine Kept.boot_put (hm.sub rfl) ?_
        apply upd_kept (hm.sub rfl)
        · intro y011 h12
          apply switchover_kept (hm.sub rfl)
          assumption
        · refine Kept.boot_put (hm.sub rfl) ?_
          assumption
      · apply transitionFail_kept (hm.sub rfl)
        refine Kept.boot_put (hm.sub rfl) ?_
        apply upd_kept (hm.sub rfl)
        · intro y010 h11
          apply switchover_kept (hm.sub rfl)
          assumption
        · refine Kept.boot_put (hm.sub rfl) ?_
          assumption
    · intro h5
      apply transitionFail_kept (hm.sub rfl)
      refine Kept.boot_put (hm.sub rfl) ?_
      apply upd_kept (hm.sub rfl)
      · intro y09 h10
        apply switchover_kept (hm.sub rfl)
        assumption
      · refine Kept.boot_put (hm.sub rfl) ?_
        assumption

theorem leaveSafe_kept (hm : Has m 0x6d7fdfa) (s : State)
    (hs : Kept m s₀ s) :
    Kept m s₀ (leaveSafe s) := by
  unfold leaveSafe
  apply Kept.ite
  · exact fun _ => by assumption
  · intro h1
    dsimp only
    apply transitionStart_kept (hm.sub rfl)
    assumption

theorem execLanokLinkStart_kept (hm : Has m 0x6d7fdfa) (x0 : ℤ) (s : State)
    (hs : Kept m s₀ s) :
    ResAll (Kept m s₀) (execLanokLinkStart x0 s) := by
  unfold execLanokLinkStart
  apply ResAll.next
  apply transitionCheck_kept (hm.sub rfl)
  apply linkStart_kept (hm.sub rfl)
  assumption

end Sys2Proof.Machine
end

