-- ==== Sys2Proof/Laws/KeptDram.lean ====
section
/-! SUPPORT. Every effect of Machine/Dram.lean keeps what `Kept` says. -/
set_option Elab.async false
namespace Sys2Proof.Machine

variable {m : Nat} {s₀ : State}

theorem memStatsClear_kept (hm : Has m 0x2) (s : State)
    (hs : Kept m s₀ s) :
    Kept m s₀ (memStatsClear s) := by
  unfold memStatsClear
  apply Kept.foldl
  · intro s1 b2 h3
    apply Kept.foldl
    · intro s5 b6 h7
      apply wr_kept (hm.sub rfl)
      assumption
    · assumption
  · assumption

theorem memEvt_kept (hm : Has m 0x40008) (x0 : ℕ) (s : State)
    (hs : Kept m s₀ s) :
    Kept m s₀ (memEvt x0 s) := by
  unfold memEvt
  apply emitIf_kept (hm.sub rfl)
  refine Kept.mem_put (hm.sub rfl) ?_
  assumption

theorem ddrUpd_kept (hm : Has m 0x40000) (x0 : ℕ) (x1 : DdrCh → DdrCh) (s : State)
    (hs : Kept m s₀ s) :
    Kept m s₀ (ddrUpd x0 x1 s) := by
  unfold ddrUpd
  refine Kept.mem_put (hm.sub rfl) ?_
  assumption

theorem fullTrain_kept (hm : Has m 0x4000a) (x0 : ℕ) (s : State)
    (hs : Kept m s₀ s) :
    Kept m s₀ (fullTrain x0 s) := by
  unfold fullTrain
  apply memEvt_kept (hm.sub rfl)
  apply bump_kept (hm.sub rfl)
  apply ddrUpd_kept (hm.sub rfl)
  apply wr_kept (hm.sub rfl)
  assumption

theorem refreshIssue_kept (hm : Has m 0x40000) (x0 : ℕ) (x1 : ℕ) (x2 : ℕ) (s : State)
    (hs : Kept m s₀ s) :
    Kept m s₀ (refreshIssue x0 x1 x2 s) := by
  unfold refreshIssue
  apply ddrUpd_kept (hm.sub rfl)
  assumption

theorem refreshFirst_kept (hm : Has m 0x40000) (x0 : ℕ) (x1 : ℕ) (s : State)
    (hs : Kept m s₀ s) :
    Kept m s₀ (refreshFirst x0 x1 s) := by
  unfold refreshFirst
  apply Kept.ite
  · intro h1
    apply refreshIssue_kept (hm.sub rfl)
    assumption
  · exact fun _ => by assumption

theorem touchLine_kept (hm : Has m 0x40002) (x0 : ℕ) (x1 : ℕ) (s : State)
    (hs : Kept m s₀ s) :
    Kept m s₀ (touchLine x0 x1 s) := by
  unfold touchLine
  dsimp only
  apply Kept.ite
  · intro h2
    apply ddrUpd_kept (hm.sub rfl)
    apply refreshFirst_kept (hm.sub rfl)
    assumption
  · intro h2
    apply Kept.ite
    · intro h4
      apply bump_kept (hm.sub rfl)
      apply ddrUpd_kept (hm.sub rfl)
      apply ddrUpd_kept (hm.sub rfl)
      apply refreshFirst_kept (hm.sub rfl)
      assumption
    · intro h4
      apply ddrUpd_kept (hm.sub rfl)
      apply ddrUpd_kept (hm.sub rfl)
      apply refreshFirst_kept (hm.sub rfl)
      assumption

theorem execDramRefresh_kept (hm : Has m 0x40000) (x0 : Fin 4) (x1 : Fin 2) (x2 : Fin 10) (s : State)
    (hs : Kept m s₀ s) :
    ResAll (Kept m s₀) (execDramRefresh x0 x1 x2 s) := by
  unfold execDramRefresh
  dsimp only
  apply ResAll.ite
  · intro h2
    apply ResAll.next
    assumption
  · intro h2
    apply ResAll.next
    apply refreshIssue_kept (hm.sub rfl)
    apply ddrUpd_kept (hm.sub rfl)
    assumption

theorem actsEmpty_kept (hm : Has m 0x40000) (s : State)
    (hs : Kept m s₀ s) :
    Kept m s₀ (actsEmpty s) := by
  unfold actsEmpty
  apply Kept.foldl
  · intro s1 b2 h3
    apply ddrUpd_kept (hm.sub rfl)
    assumption
  · assumption

theorem dropHeld_kept (hm : Has m 0x40008) (x0 : MemReq → Bool) (s : State)
    (hs : Kept m s₀ s) :
    Kept m s₀ (dropHeld x0 s) := by
  unfold dropHeld
  apply Kept.foldl
  · intro s1 b2 h3
    apply Kept.ite
    · intro h5
      apply emit_kept (hm.sub rfl)
      assumption
    · exact fun _ => by assumption
  · refine Kept.mem_put (hm.sub rfl) ?_
    assumption

theorem setActive_kept (hm : Has m 0x40002) (x0 : List ℕ) (s : State)
    (hs : Kept m s₀ s) :
    Kept m s₀ (setActive x0 s) := by
  unfold setActive
  dsimp only
  apply wr_kept (hm.sub rfl)
  apply wr_kept (hm.sub rfl)
  refine Kept.mem_put (hm.sub rfl) ?_
  assumption

theorem memcFailed_kept (hm : Has m 0x7f7fdfa) (s : State)
    (hs : Kept m s₀ s) :
    Kept m s₀ (memcFailed s) := by
  unfold memcFailed
  apply Kept.ite
  · exact fun _ => by assumption
  · intro h1
    apply enterSafe_kept (hm.sub rfl)
    apply markRetired_kept (hm.sub rfl)
    apply pwrEvt_kept (hm.sub rfl)
    apply wr_kept (hm.sub rfl)
    assumption

/-- The interleaved space becomes undefined; other octets stay, or are gone. -/
theorem epoch_kept (hm : Has m 0x2040000) (p : Nat × Byte → Bool) (s : State) (hs : Kept m s₀ s) : Kept m s₀ { s with
    mem.cells := s.mem.cells.filter (fun e => decide (sramBase ≤ e.1 ∧ p e = true)), mem.epoch := s.mem.epoch + 1 } := by
  refine hs.trans { Kept.refl (m := m) s with
      mem := fun h => ?_
      parts := SameBut.grow (v := 0x2040000)
        (by intro p hp; cases p <;> first | exact absurd hp (by dsimp only [StatePart.idx]; decide) | rfl | exact ⟨rfl, rfl, rfl⟩) (hm.sub rfl) }
  unfold Memory.wf at *
  rw [Bool.and_eq_true, List.all_eq_true] at *
  refine ⟨tabSorted_filter _ _ h.1, ?_⟩
  intro e he
  have h2 := of_decide_eq_true (h.2 e (List.mem_of_mem_filter he))
  have h3 := (of_decide_eq_true (List.mem_filter.mp he).2).1
  apply decide_eq_true
  unfold memDefault at *
  rw [if_neg (Nat.not_lt.mpr h3)] at h2 ⊢
  exact h2

theorem chanRetire_kept (hm : Has m 0x7fffdfa) (x0 : ℕ) (s : State) (hs : Kept m s₀ s) : Kept m s₀ (chanRetire x0 s) := by
  unfold chanRetire
  dsimp only
  have h1 := setActive_kept (hm.sub rfl) ((mirrorLost x0 (enterSafe 0 (ddrUpd x0 (fun _ => {}) (memEvt 2 (wr (K.CH_STATE x0) chRetired
    (dropHeld (fun r => (reqLines s r).any (fun l => l.1 == x0)) s)))))).mem.active.filter (· != x0)) _
    (mirrorLost_kept (hm.sub rfl) x0 _ (enterSafe_kept (hm.sub rfl) 0 _ (ddrUpd_kept (hm.sub rfl) x0 (fun _ => {}) _ (memEvt_kept (hm.sub rfl) 2 _ (wr_kept (hm.sub rfl) (K.CH_STATE x0)
      chRetired _ (dropHeld_kept (hm.sub rfl) (fun r => (reqLines s r).any (fun l => l.1 == x0)) _ hs))))))
  have key : ∀ u, Kept m s₀ u → Kept m s₀ (if u.mem.active.isEmpty = true then memcFailed u else u) := by
    intro u hu
    split
    · exact memcFailed_kept (hm.sub rfl) _ hu
    · exact hu
  apply key
  apply wr_kept (hm.sub rfl)
  have h2 := epoch_kept (hm.sub rfl) (fun e => !decide (localBase x0 ≤ e.1 ∧ e.1 < localBase (x0 + 1))) _ h1
  simp only [Bool.not_eq_true', decide_eq_false_iff_not] at h2
  exact Kept.frame (v := 786432) (hm.sub rfl) h2
    (by intro p hp; cases p <;> first | exact absurd hp (by dsimp only [StatePart.idx]; decide) | rfl | exact ⟨rfl, rfl, rfl⟩)

theorem chanUpset_kept (hm : Has m 0x7fffdfa) (x0 : ℕ) (s : State)
    (hs : Kept m s₀ s) :
    Kept m s₀ (chanUpset x0 s) := by
  unfold chanUpset
  split
  · apply chanRetire_kept (hm.sub rfl)
    apply upset_elim (hm.sub rfl) (by assumption)
    assumption
  · apply upset_elim (hm.sub rfl) (by assumption)
    assumption

theorem chanBad_kept (hm : Has m 0x7fffdfa) (x0 : ℕ) (x1 : ℕ) (s : State)
    (hs : Kept m s₀ s) :
    Kept m s₀ (chanBad x0 x1 s) := by
  unfold chanBad
  apply chanUpset_kept (hm.sub rfl)
  apply memEvt_kept (hm.sub rfl)
  apply wr_kept (hm.sub rfl)
  apply bump_kept (hm.sub rfl)
  assumption

theorem serve_kept (hm : Has m 0x7fffdfa) (x0 : MemReq) (s : State)
    (hs : Kept m s₀ s) :
    Kept m s₀ (serve x0 s) := by
  unfold serve
  dsimp only
  apply Kept.ite
  · intro h2
    apply chanBad_kept (hm.sub rfl)
    apply emit_kept (hm.sub rfl)
    apply bumpBy_kept (hm.sub rfl)
    apply bumpBy_kept (hm.sub rfl)
    apply Kept.foldl
    · intro s8 b9 h10
      apply touchLine_kept (hm.sub rfl)
      assumption
    · assumption
  · intro h2
    split
    · apply emit_kept (hm.sub rfl)
      apply memWrite_kept (hm.sub rfl)
      apply bumpBy_kept (hm.sub rfl)
      apply bumpBy_kept (hm.sub rfl)
      apply Kept.foldl
      · intro s9 b10 h11
        apply touchLine_kept (hm.sub rfl)
        assumption
      · assumption
    · apply emit_kept (hm.sub rfl)
      apply bumpBy_kept (hm.sub rfl)
      apply bumpBy_kept (hm.sub rfl)
      apply Kept.foldl
      · intro s8 b9 h10
        apply touchLine_kept (hm.sub rfl)
        assumption
      · assumption

theorem serveHeld_kept (hm : Has m 0x7fffdfa) (s : State)
    (hs : Kept m s₀ s) :
    Kept m s₀ (serveHeld s) := by
  unfold serveHeld
  apply Kept.foldl
  · intro s1 b2 h3
    apply Kept.ite
    · intro h5
      refine Kept.mem_put (hm.sub rfl) ?_
      assumption
    · intro h5
      apply Kept.ite
      · intro h7
        apply serve_kept (hm.sub rfl)
        assumption
      · intro h7
        apply emit_kept (hm.sub rfl)
        assumption
  · refine Kept.mem_put (hm.sub rfl) ?_
    assumption

theorem leaveSelfRefresh_kept (hm : Has m 0x7fffdfa) (x0 : List ℕ) (s : State)
    (hs : Kept m s₀ s) :
    Kept m s₀ (leaveSelfRefresh x0 s) := by
  unfold leaveSelfRefresh
  apply serveHeld_kept (hm.sub rfl)
  apply Kept.foldl
  · intro s2 b3 h4
    apply Kept.ite
    · intro h6
      apply Kept.ite
      · intro h8
        apply fullTrain_kept (hm.sub rfl)
        assumption
      · intro h8
        apply wr_kept (hm.sub rfl)
        assumption
    · exact fun _ => by assumption
  · assumption

theorem execPatrolScrub_kept (hm : Has m 0x7fffdfa) (x0 : Fin 4) (x1 : Bool) (x2 : Bool) (s : State)
    (hs : Kept m s₀ s) :
    ResAll (Kept m s₀) (execPatrolScrub x0 x1 x2 s) := by
  unfold execPatrolScrub
  dsimp only
  apply ResAll.ite
  · intro h2
    apply ResAll.next
    assumption
  · intro h2
    apply ResAll.next
    apply Kept.ite
    · intro h5
      apply chanBad_kept (hm.sub rfl)
      apply touchLine_kept (hm.sub rfl)
      apply ddrUpd_kept (hm.sub rfl)
      assumption
    · intro h5
      apply upd_kept (hm.sub rfl)
      · intro y07 h8
        apply bump_kept (hm.sub rfl)
        assumption
      · apply touchLine_kept (hm.sub rfl)
        apply ddrUpd_kept (hm.sub rfl)
        assumption

theorem chanFails_kept (hm : Has m 0x7fffdfa) (x0 : ℕ) (s : State)
    (hs : Kept m s₀ s) :
    Kept m s₀ (chanFails x0 s) := by
  unfold chanFails
  apply chanRetire_kept (hm.sub rfl)
  apply markRetired_kept (hm.sub rfl)
  assumption

theorem execPdIdleExpiry_kept (hm : Has m 0x40000) (x0 : Fin 4) (x1 : Fin 2) (s : State)
    (hs : Kept m s₀ s) :
    ResAll (Kept m s₀) (execPdIdleExpiry x0 x1 s) := by
  unfold execPdIdleExpiry
  dsimp only
  apply ResAll.ite
  · intro h2
    apply ResAll.next
    assumption
  · intro h2
    apply ResAll.next
    apply ddrUpd_kept (hm.sub rfl)
    assumption

theorem relayout_kept (hm : Has m 0x2) (s : State)
    (hs : Kept m s₀ s) :
    Kept m s₀ (relayout s) := by
  unfold relayout
  dsimp only
  apply Kept.ite
  · intro h2
    apply Kept.ite
    · exact fun _ => by assumption
    · intro h4
      apply wr_kept (hm.sub rfl)
      assumption
  · intro h2
    apply wr_kept (hm.sub rfl)
    apply wr_kept (hm.sub rfl)
    apply Kept.ite
    · exact fun _ => by assumption
    · intro h6
      apply wr_kept (hm.sub rfl)
      assumption

theorem payloadsLost_kept (hm : Has m 0x354030a) (x0 : List ℕ) (s : State)
    (hs : Kept m s₀ s) :
    Kept m s₀ (payloadsLost x0 s) := by
  unfold payloadsLost
  dsimp only
  apply stopBanks_kept (hm.sub rfl)
  apply Kept.foldl
  · intro s3 b4 h5
    split
    · assumption
    · apply Kept.ite
      · intro h8
        apply poison_kept (hm.sub rfl)
        apply endRun_kept (hm.sub rfl)
        assumption
      · intro h8
        apply Kept.ite
        · intro h10
          apply redispatch_kept (hm.sub rfl)
          assumption
        · exact fun _ => by assumption
  · apply Kept.foldl
    · intro s4 b5 h6
      split
      · apply Kept.ite
        · intro h9
          apply pendingEnds_kept (hm.sub rfl)
          apply poison_kept (hm.sub rfl)
          assumption
        · exact fun _ => by assumption
      · assumption
    · apply poisonWhere_kept (hm.sub rfl)
      refine Kept.mem_put (hm.sub rfl) ?_
      assumption

theorem execReinterleaveDone_kept (hm : Has m 0x7d7fffa) (restored : List Nat) (s : State) (hs : Kept m s₀ s) : ResAll (Kept m s₀) (execReinterleaveDone restored s) := by
  unfold execReinterleaveDone
  have key : ∀ u, Kept m s₀ u →
      Kept m s₀ (if rd u K.POOL_MODE = pmSpill ∧ u.pkt.testing.isNone = true then poolReturns u else u) := by
    intro u hu
    split
    · exact poolReturns_kept (hm.sub rfl) _ hu
    · exact hu
  split
  · exact ResAll.next hs
  · apply ResAll.next
    apply leaveSafe_kept (hm.sub rfl)
    apply safeCleared_kept (hm.sub rfl)
    apply key
    apply vidRestart_kept (hm.sub rfl)
    apply relayout_kept (hm.sub rfl)
    apply payloadsLost_kept (hm.sub rfl)
    refine Kept.mem_put (hm.sub rfl) ?_
    assumption

theorem execFullTrainingDone_kept (hm : Has m 0x7fffdfa) (x0 : Fin 4) (x1 : Bool) (s : State)
    (hs : Kept m s₀ s) :
    ResAll (Kept m s₀) (execFullTrainingDone x0 x1 s) := by
  unfold execFullTrainingDone
  dsimp only
  apply ResAll.ite
  · intro h2
    apply ResAll.next
    assumption
  · intro h2
    apply ResAll.ite
    · intro h4
      apply ResAll.next
      apply serveHeld_kept (hm.sub rfl)
      apply ddrUpd_kept (hm.sub rfl)
      apply wr_kept (hm.sub rfl)
      assumption
    · intro h4
      apply ResAll.ite
      · intro h6
        apply ResAll.next
        apply ddrUpd_kept (hm.sub rfl)
        assumption
      · intro h6
        apply ResAll.next
        apply chanFails_kept (hm.sub rfl)
        assumption

theorem memArrive_kept (hm : Has m 0x7fffdfa) (x0 : MemReq) (s : State)
    (hs : Kept m s₀ s) :
    Kept m s₀ (memArrive x0 s) := by
  unfold memArrive
  apply Kept.ite
  · intro h1
    apply emit_kept (hm.sub rfl)
    assumption
  · intro h1
    apply Kept.ite
    · intro h3
      refine Kept.mem_put (hm.sub rfl) ?_
      assumption
    · intro h3
      apply serve_kept (hm.sub rfl)
      assumption

theorem execActWindow_kept (hm : Has m 0x40000) (s : State)
    (hs : Kept m s₀ s) :
    ResAll (Kept m s₀) (execActWindow s) := by
  unfold execActWindow
  apply ResAll.next
  apply Kept.ite
  · intro h2
    apply actsEmpty_kept (hm.sub rfl)
    assumption
  · exact fun _ => by assumption

theorem selfRefresh_kept (hm : Has m 0x40002) (s : State)
    (hs : Kept m s₀ s) :
    Kept m s₀ (selfRefresh s) := by
  unfold selfRefresh
  apply Kept.foldl
  · intro s1 b2 h3
    apply Kept.ite
    · intro h5
      apply wr_kept (hm.sub rfl)
      apply ddrUpd_kept (hm.sub rfl)
      assumption
    · exact fun _ => by assumption
  · assumption

theorem execPeriodicRetrain_kept (hm : Has m 0x4000a) (x0 : Fin 4) (x1 : ℕ) (x2 : ℕ) (x3 : Bool) (s : State)
    (hs : Kept m s₀ s) :
    ResAll (Kept m s₀) (execPeriodicRetrain x0 x1 x2 x3 s) := by
  unfold execPeriodicRetrain
  dsimp only
  apply ResAll.ite
  · intro h2
    apply ResAll.next
    assumption
  · intro h2
    apply ResAll.next
    apply Kept.ite
    · intro h5
      apply fullTrain_kept (hm.sub rfl)
      apply wr_kept (hm.sub rfl)
      apply wr_kept (hm.sub rfl)
      apply Kept.foldl
      · intro s10 b11 h12
        apply refreshFirst_kept (hm.sub rfl)
        assumption
      · assumption
    · intro h5
      apply wr_kept (hm.sub rfl)
      apply wr_kept (hm.sub rfl)
      apply Kept.foldl
      · intro s9 b10 h11
        apply refreshFirst_kept (hm.sub rfl)
        assumption
      · assumption

theorem writeMemStatsClear_kept (hm : Has m 0x24631da) (x0 : Inst) (x1 : ℕ) (s : State)
    (hs : Kept m s₀ s) :
    Kept m s₀ (writeMemStatsClear x0 x1 s) := by
  unfold writeMemStatsClear
  apply runCmd_kept (hm.sub rfl)
  · intro y01 h2
    apply memStatsClear_kept (hm.sub rfl)
    assumption
  · assumption

theorem execMemRequest_kept (hm : Has m 0x7fffdfa) (x0 : List MemReq) (s : State)
    (hs : Kept m s₀ s) :
    ResAll (Kept m s₀) (execMemRequest x0 s) := by
  unfold execMemRequest
  apply ResAll.next
  apply Kept.foldl
  · intro s2 b3 h4
    apply memArrive_kept (hm.sub rfl)
    assumption
  · assumption

end Sys2Proof.Machine
end

