-- ==== Sys2Proof/Laws/KeptReset.lean ====
section
/-! SUPPORT. Every effect of Machine/Reset.lean keeps what `Kept` says. -/
set_option Elab.async false
namespace Sys2Proof.Machine

variable {m : Nat} {s₀ : State}

theorem replayItem_kept (hm : Has m 0x2040102) (x0 : JEntry) (s : State)
    (hs : Kept m s₀ s) :
    Kept m s₀ (replayItem x0 s) := by
  unfold replayItem
  split
  · dsimp only
    split
    · apply place_kept (hm.sub rfl)
      apply bump_kept (hm.sub rfl)
      assumption
    · apply place_kept (hm.sub rfl)
      assumption
  · assumption

theorem enginesReset_kept (hm : Has m 0x202) (x0 : ℕ) (s : State)
    (hs : Kept m s₀ s) :
    Kept m s₀ (enginesReset x0 s) := by
  unfold enginesReset
  apply Kept.foldl
  · intro s1 b2 h3
    dsimp only
    apply meUpd_kept (hm.sub rfl)
    split
    · apply upd_kept (hm.sub rfl)
      · intro y08 h9
        apply tickLost_kept (hm.sub rfl)
        assumption
      · assumption
    · assumption
  · assumption

theorem replayEntry_kept (hm : Has m 0x2040102) (s : State) (x1 : JEntry)
    (hs : Kept m s₀ s) :
    Kept m s₀ (replayEntry s x1) := by
  unfold replayEntry
  apply Kept.ite
  · intro h1
    dsimp only
    apply Kept.ite
    · intro h4
      apply replayItem_kept (hm.sub rfl)
      apply vane_kept (hm.sub rfl)
      assumption
    · intro h4
      apply vane_kept (hm.sub rfl)
      assumption
  · exact fun _ => by assumption

theorem replayStart_kept (hm : Has m 0x60403a2) (s : State)
    (hs : Kept m s₀ s) :
    Kept m s₀ (replayStart s) := by
  unfold replayStart
  dsimp only
  apply syncAccept_kept (hm.sub rfl)
  apply Kept.foldl
  · intro s3 b4 h5
    apply replayEntry_kept (hm.sub rfl)
    assumption
  · apply wr_kept (hm.sub rfl)
    apply wr_kept (hm.sub rfl)
    apply Kept.foldl
    · intro s6 b7 h8
      apply wr_kept (hm.sub rfl)
      assumption
    · apply stopBanks_kept (hm.sub rfl)
      refine Kept.mk' (v := 384) (hm.sub rfl) rfl ?_ ?_
      · apply Kept.foldl
        · intro s9 b10 h11
          split
          · apply Kept.ite
            · intro h14
              apply freeLaunchClaims_kept (hm.sub rfl)
              apply dropAssignClaim_kept (hm.sub rfl)
              assumption
            · exact fun _ => by assumption
          · assumption
        · assumption
      · intro p hp
        cases p <;> first | exact absurd hp (by dsimp only [StatePart.idx]; decide) | exact Eq.refl _ | exact ⟨Eq.refl _, Eq.refl _, Eq.refl _⟩

theorem poolReset_kept (hm : Has m 0x7002) (s : State)
    (hs : Kept m s₀ s) :
    Kept m s₀ (poolReset s) := by
  unfold poolReset
  dsimp only
  apply Kept.ite
  · intro h2
    apply wr_kept (hm.sub rfl)
    refine Kept.mk' (v := 28672) (hm.sub rfl) rfl ?_ ?_
    · assumption
    · intro p hp
      cases p <;> first | exact absurd hp (by dsimp only [StatePart.idx]; decide) | exact Eq.refl _ | exact ⟨Eq.refl _, Eq.refl _, Eq.refl _⟩
  · intro h2
    refine Kept.mk' (v := 28672) (hm.sub rfl) rfl ?_ ?_
    · assumption
    · intro p hp
      cases p <;> first | exact absurd hp (by dsimp only [StatePart.idx]; decide) | exact Eq.refl _ | exact ⟨Eq.refl _, Eq.refl _, Eq.refl _⟩

theorem mixReset_kept (hm : Has m 0x800) (s : State)
    (hs : Kept m s₀ s) :
    Kept m s₀ (mixReset s) := by
  unfold mixReset
  dsimp only
  refine Kept.mix_put (hm.sub rfl) ?_
  assumption

theorem instReset_kept (hm : Has m 0x108002) (x0 : ℕ) (s : State)
    (hs : Kept m s₀ s) :
    Kept m s₀ (instReset x0 s) := by
  unfold instReset
  apply Kept.ite
  · intro h1
    split
    · apply Kept.ite
      · intro h4
        apply popPic_kept (hm.sub rfl)
        assumption
      · exact fun _ => by assumption
    · assumption
  · intro h1
    split
    · apply Kept.ite
      · intro h4
        apply vencSync_kept (hm.sub rfl)
        apply shortenSweep_kept (hm.sub rfl)
        apply encHead_kept (hm.sub rfl)
        assumption
      · exact fun _ => by assumption
    · assumption

theorem compReset_kept (hm : Has m 0x118002) (s : State)
    (hs : Kept m s₀ s) :
    Kept m s₀ (compReset s) := by
  unfold compReset
  dsimp only
  refine Kept.cmp_put (hm.sub rfl) ?_
  apply Kept.foldl
  · intro s3 b4 h5
    apply Kept.foldl
    · intro s7 b8 h9
      apply picOver_kept (hm.sub rfl)
      assumption
    · assumption
  · assumption

theorem memcReset_kept (hm : Has m 0x40008) (s : State)
    (hs : Kept m s₀ s) :
    Kept m s₀ (memcReset s) := by
  unfold memcReset
  apply Kept.foldl
  · intro s1 b2 h3
    apply ddrUpd_kept (hm.sub rfl)
    assumption
  · apply dropHeld_kept (hm.sub rfl)
    refine Kept.mem_put (hm.sub rfl) ?_
    assumption

theorem domainReset_kept (hm : Has m 0x77fffea) (x0 : ℕ) (s : State)
    (hs : Kept m s₀ s) :
    Kept m s₀ (domainReset x0 s) := by
  unfold domainReset
  apply Kept.ite
  · intro h1
    apply enginesReset_kept (hm.sub rfl)
    apply stopBanks_kept (hm.sub rfl)
    apply clusterLost_kept (hm.sub rfl)
    assumption
  · intro h1
    apply Kept.ite
    · intro h3
      dsimp only
      apply replayStart_kept (hm.sub rfl)
      apply dmaReset_kept (hm.sub rfl)
      refine Kept.mk' (v := 524544) (hm.sub rfl) rfl ?_ ?_
      · assumption
      · intro p hp
        cases p <;> first | exact absurd hp (by dsimp only [StatePart.idx]; decide) | exact Eq.refl _ | exact ⟨Eq.refl _, Eq.refl _, Eq.refl _⟩
    · intro h3
      apply Kept.ite
      · intro h5
        apply poolReset_kept (hm.sub rfl)
        assumption
      · intro h5
        apply Kept.ite
        · intro h7
          dsimp only
          apply Kept.ite
          · intro h10
            apply wr_kept (hm.sub rfl)
            refine Kept.pair_put (hm.sub rfl) ?_
            apply Kept.foldl
            · intro s14 b15 h16
              apply Kept.ite
              · intro h18
                apply portDown_kept (hm.sub rfl)
                assumption
              · exact fun _ => by assumption
            · refine Kept.trf_put (hm.sub rfl) ?_
              assumption
          · intro h10
            apply Kept.foldl
            · intro s12 b13 h14
              apply Kept.ite
              · intro h16
                apply portDown_kept (hm.sub rfl)
                assumption
              · exact fun _ => by assumption
            · refine Kept.trf_put (hm.sub rfl) ?_
              assumption
        · intro h7
          apply Kept.ite
          · intro h9
            refine Kept.dic_put (hm.sub rfl) ?_
            assumption
          · intro h9
            apply Kept.ite
            · intro h11
              dsimp only
              apply Kept.foldl
              · intro s14 b15 h16
                apply Kept.ite
                · intro h18
                  apply sapStart_kept (hm.sub rfl)
                  apply sapHalt_kept (hm.sub rfl)
                  assumption
                · exact fun _ => by assumption
              · apply mixReset_kept (hm.sub rfl)
                refine Kept.mix_put (hm.sub rfl) ?_
                assumption
            · intro h11
              apply Kept.ite
              · intro h13
                apply instReset_kept (hm.sub rfl)
                assumption
              · intro h13
                apply Kept.ite
                · intro h15
                  apply cmpSync_kept (hm.sub rfl)
                  apply compReset_kept (hm.sub rfl)
                  refine Kept.cmp_put (hm.sub rfl) ?_
                  assumption
                · intro h15
                  apply memcReset_kept (hm.sub rfl)
                  assumption

/-- The hub's memory, claims, Storm ring in PD0's keeping: cleared with the hub, the rest of what `Kept` says stands. -/
theorem cleared_kept {v : Nat} (hm : Has m v) {s t : State} (hs : Kept m s₀ s) (h1 : t.pending = s.pending) (h2 : t.out = s.out)
    (h3 : t.freeCtr = s.freeCtr) (p : Nat × Nat → Bool) (h4 : t.regs = s.regs.filter p) (h5 : t.mem.cells = [])
    (h7 : t.diag = s.diag) (h10 : t.dic.claims = [])
    (hv : SameBut v s t) : Kept m s₀ t := by
  refine hs.trans ⟨h1, by rw [h2], by rw [h3], by rw [h7]; exact id, by rw [h7]; exact id, by rw [h7]; exact id,
    ?_, ?_, ?_, hv.grow hm⟩
  · rw [h4]; exact regsWf_filter _ _
  · intro _; unfold Memory.wf; rw [h5]; rfl
  · intro _; rw [h10]; rfl

theorem hubClear_kept (hm : Has m 0x6ffffee) (s : State) (hs : Kept m s₀ s) : Kept m s₀ (hubClear s) := by
  unfold hubClear
  dsimp only
  have h := lanokDown_kept (hm.sub rfl) _ (driveVme_kept (hm.sub rfl) false _ (driveVsd_kept (hm.sub rfl) false _
    (clearChannels_kept (hm.sub rfl) (fun t => !fieldChannel t) _ hs)))
  apply wr_kept (hm.sub rfl)
  apply upd_kept (hm.sub rfl)
  · intro y hy
    exact summary_kept (hm.sub rfl) _ _ _ hy
  · apply upd_kept (hm.sub rfl)
    · intro y hy
      exact summary_kept (hm.sub rfl) _ _ _ hy
    · exact cleared_kept (v := 0x6ffffe6) (hm.sub rfl) h rfl rfl rfl (fun e => coldKeeps e.1) rfl rfl rfl rfl
        (by intro p hp; cases p <;> first | exact absurd hp (by dsimp only [StatePart.idx]; decide) | rfl | exact ⟨rfl, rfl, rfl⟩)

theorem hubOff_kept (hm : Has m 0x6ffffee) (s : State)
    (hs : Kept m s₀ s) :
    Kept m s₀ (hubOff s) := by
  unfold hubOff
  dsimp only
  apply Kept.ite
  · intro h2
    apply emit_kept (hm.sub rfl)
    refine Kept.pwr_put (hm.sub rfl) ?_
    apply hubClear_kept (hm.sub rfl)
    assumption
  · intro h2
    apply hubClear_kept (hm.sub rfl)
    assumption

theorem unitsReset_kept (hm : Has m 0x1ffeea) (s : State) (hs : Kept m s₀ s) : Kept m s₀ (unitsReset s) := by
  have k1 : ∀ u, Kept m s₀ u → Kept m s₀ (if hubPower u = hpEntering then wr K.HUB_PSTATE hpRun u else u) := by
    intro u hu
    split
    · exact wr_kept (hm.sub rfl) _ _ _ hu
    · exact hu
  have k2 : ∀ u, Kept m s₀ u → Kept m s₀ (upd (lanokUp u) lanokDown u) := by
    intro u hu
    exact upd_kept (hm.sub rfl) _ _ _ (fun y hy => lanokDown_kept (hm.sub rfl) _ hy) hu
  have k3 : ∀ u, Kept m s₀ u → Kept m s₀ (dropHeld (fun _ => true) { u with
      sea.queue := [], sea.work := [], mix.tm := { opens := u.mix.tm.opens }, mix.cands := [], mix.legs := []
      mix.langs := tabMap {} u.mix.langs (fun _ x => { x with desk := none, live := false })
      fwd.sources := [], fld.up := [], fld.upValid := []
      pwr.entry := none, pwr.waits := []
      dic.blob := [], dic.group := [], dic.groupAt := [], dic.flashing := none }) := by
    intro u hu
    apply dropHeld_kept (hm.sub rfl)
    refine Kept.mk' (v := 1591488) (hm.sub rfl) rfl hu ?_
    intro p hp
    cases p <;> first | exact absurd hp (by dsimp only [StatePart.idx]; decide) | rfl | exact ⟨rfl, rfl, rfl⟩
  unfold unitsReset
  apply k1
  apply k2
  apply k3
  apply featuresStop_kept (hm.sub rfl)
  apply Kept.foldl
  · intro u c hu
    exact enginesReset_kept (hm.sub rfl) _ _ hu
  · exact compReset_kept (hm.sub rfl) _ (mixReset_kept (hm.sub rfl) _ (poolReset_kept (hm.sub rfl) _ hs))

theorem barsReset_kept (hm : Has m 0x41f09a2) (s : State)
    (hs : Kept m s₀ s) :
    Kept m s₀ (barsReset s) := by
  unfold barsReset
  dsimp only
  refine Kept.mk' (v := 1903008) (hm.sub rfl) rfl ?_ ?_
  · apply dmaReset_kept (hm.sub rfl)
    assumption
  · intro p hp
    cases p <;> first | exact absurd hp (by dsimp only [StatePart.idx]; decide) | exact Eq.refl _ | exact ⟨Eq.refl _, Eq.refl _, Eq.refl _⟩

theorem warmReset_kept (hm : Has m 0x6bfffea) (x0 : ℕ) (s : State) (hs : Kept m s₀ s) : Kept m s₀ (warmReset x0 s) := by
  have last : ∀ u, Kept m s₀ u → Kept m s₀ { u with boot.restart := true, flt.wdtServed := clk u } := by
    intro u hu
    refine Kept.mk' (v := 10485760) (hm.sub rfl) rfl hu ?_
    intro p hp
    cases p <;> first | exact absurd hp (by dsimp only [StatePart.idx]; decide) | rfl | exact ⟨rfl, rfl, rfl⟩
  have first : ∀ u, Kept m s₀ u → Kept m s₀ { u with boot.transition := none, sch.held := [] } := by
    intro u hu
    refine Kept.mk' (v := 8388864) (hm.sub rfl) rfl hu ?_
    intro p hp
    cases p <;> first | exact absurd hp (by dsimp only [StatePart.idx]; decide) | rfl | exact ⟨rfl, rfl, rfl⟩
  exact last _ (replayStart_kept (hm.sub rfl) _ (barsReset_kept (hm.sub rfl) _ (unitsReset_kept (hm.sub rfl) _
    (first _ (wr_kept (hm.sub rfl) _ _ _ (Kept.boot_put (hm.sub rfl) hs))))))

end Sys2Proof.Machine
end

