-- ==== Sys2Proof/Laws/KeptPower.lean ====
section
/-! SUPPORT. Every effect of Machine/Power.lean keeps what `Kept` says. -/
set_option Elab.async false
namespace Sys2Proof.Machine

variable {m : Nat} {s₀ : State}

theorem clusterFollows_kept (hm : Has m 0x2) (x0 : ℕ) (x1 : ℕ) (x2 : ℕ) (s : State)
    (hs : Kept m s₀ s) :
    Kept m s₀ (clusterFollows x0 x1 x2 s) := by
  unfold clusterFollows
  apply Kept.foldl
  · intro s1 b2 h3
    apply Kept.ite
    · intro h5
      apply wr_kept (hm.sub rfl)
      assumption
    · exact fun _ => by assumption
  · apply wr_kept (hm.sub rfl)
    assumption

theorem pairLanes_kept (hm : Has m 0x400002) (x0 : Bool) (s : State)
    (hs : Kept m s₀ s) :
    Kept m s₀ (pairLanes x0 s) := by
  unfold pairLanes
  apply Kept.ite
  · exact fun _ => by assumption
  · intro h1
    apply Kept.ite
    · intro h3
      apply Kept.ite
      · exact fun _ => by assumption
      · intro h5
        apply wr_kept (hm.sub rfl)
        assumption
    · intro h3
      apply wr_kept (hm.sub rfl)
      refine Kept.pair_put (hm.sub rfl) ?_
      assumption

theorem portsAsleep_kept (hm : Has m 0x56278ea) (s : State)
    (hs : Kept m s₀ s) :
    Kept m s₀ (portsAsleep s) := by
  unfold portsAsleep
  apply Kept.foldl
  · intro s1 b2 h3
    apply Kept.ite
    · intro h5
      apply portDown_kept (hm.sub rfl)
      assumption
    · exact fun _ => by assumption
  · assumption

theorem latchReplay_kept (hm : Has m 0x100002) (s : State)
    (hs : Kept m s₀ s) :
    Kept m s₀ (latchReplay s) := by
  unfold latchReplay
  apply Kept.ite
  · intro h1
    apply wr_kept (hm.sub rfl)
    refine Kept.pwr_put (hm.sub rfl) ?_
    assumption
  · exact fun _ => by assumption

theorem limpEnter_kept (hm : Has m 0x7f7fffa) (x0 : ℕ) (s : State)
    (hs : Kept m s₀ s) :
    Kept m s₀ (limpEnter x0 s) := by
  unfold limpEnter
  dsimp only
  apply latchReplay_kept (hm.sub rfl)
  apply enterSafe_kept (hm.sub rfl)
  apply Kept.ite
  · intro h4
    refine Kept.boot_put (hm.sub rfl) ?_
    apply storm_kept (hm.sub rfl)
    apply pwrEvt_kept (hm.sub rfl)
    apply wr_kept (hm.sub rfl)
    apply summary_kept (hm.sub rfl)
    apply wr_kept (hm.sub rfl)
    apply wr_kept (hm.sub rfl)
    apply wr_kept (hm.sub rfl)
    refine Kept.pwr_put (hm.sub rfl) ?_
    apply pairLanes_kept (hm.sub rfl)
    apply portsAsleep_kept (hm.sub rfl)
    apply driveVme_kept (hm.sub rfl)
    apply driveVsd_kept (hm.sub rfl)
    apply Kept.foldl
    · intro s19 b20 h21
      apply Kept.ite
      · intro h23
        apply domainUpd_kept (hm.sub rfl)
        apply wr_kept (hm.sub rfl)
        assumption
      · intro h23
        apply Kept.ite
        · intro h25
          apply Kept.ite
          · intro h27
            apply clusterFollows_kept (hm.sub rfl)
            apply stopBanks_kept (hm.sub rfl)
            apply clusterLost_kept (hm.sub rfl)
            apply domainUpd_kept (hm.sub rfl)
            apply wr_kept (hm.sub rfl)
            apply leaveLull_kept (hm.sub rfl)
            assumption
          · intro h27
            apply domainUpd_kept (hm.sub rfl)
            apply wr_kept (hm.sub rfl)
            apply leaveLull_kept (hm.sub rfl)
            assumption
        · exact fun _ => by assumption
    · assumption
  · intro h4
    apply storm_kept (hm.sub rfl)
    apply pwrEvt_kept (hm.sub rfl)
    apply wr_kept (hm.sub rfl)
    apply summary_kept (hm.sub rfl)
    apply wr_kept (hm.sub rfl)
    apply wr_kept (hm.sub rfl)
    apply wr_kept (hm.sub rfl)
    refine Kept.pwr_put (hm.sub rfl) ?_
    apply pairLanes_kept (hm.sub rfl)
    apply portsAsleep_kept (hm.sub rfl)
    apply driveVme_kept (hm.sub rfl)
    apply driveVsd_kept (hm.sub rfl)
    apply Kept.foldl
    · intro s18 b19 h20
      apply Kept.ite
      · intro h22
        apply domainUpd_kept (hm.sub rfl)
        apply wr_kept (hm.sub rfl)
        assumption
      · intro h22
        apply Kept.ite
        · intro h24
          apply Kept.ite
          · intro h26
            apply clusterFollows_kept (hm.sub rfl)
            apply stopBanks_kept (hm.sub rfl)
            apply clusterLost_kept (hm.sub rfl)
            apply domainUpd_kept (hm.sub rfl)
            apply wr_kept (hm.sub rfl)
            apply leaveLull_kept (hm.sub rfl)
            assumption
          · intro h26
            apply domainUpd_kept (hm.sub rfl)
            apply wr_kept (hm.sub rfl)
            apply leaveLull_kept (hm.sub rfl)
            assumption
        · exact fun _ => by assumption
    · assumption

theorem hubAwake_kept (hm : Has m 0x254010a) (s : State)
    (hs : Kept m s₀ s) :
    Kept m s₀ (hubAwake s) := by
  unfold hubAwake
  apply Kept.ite
  · intro h1
    apply intakeOpens_kept (hm.sub rfl)
    apply pwrEvt_kept (hm.sub rfl)
    apply wr_kept (hm.sub rfl)
    assumption
  · exact fun _ => by assumption

theorem waitsEnd_kept (hm : Has m 0xd230da) (x0 : ℕ) (x1 : Status) (s : State)
    (hs : Kept m s₀ s) :
    Kept m s₀ (waitsEnd x0 x1 s) := by
  unfold waitsEnd
  dsimp only
  apply Kept.foldl
  · intro s2 b3 h4
    apply cmdComplete_kept (hm.sub rfl)
    assumption
  · refine Kept.pwr_put (hm.sub rfl) ?_
    assumption

theorem domainGone_kept (hm : Has m 0x7f7fffa) (x0 : ℕ) (x1 : ℕ) (s : State)
    (hs : Kept m s₀ s) :
    Kept m s₀ (domainGone x0 x1 s) := by
  unfold domainGone
  dsimp only
  apply hubAwake_kept (hm.sub rfl)
  apply upd_kept (hm.sub rfl)
  · intro y03 h4
    apply enterSafe_kept (hm.sub rfl)
    assumption
  · apply waitsEnd_kept (hm.sub rfl)
    apply Kept.ite
    · intro h5
      apply Kept.foldl
      · intro s7 b8 h9
        apply wr_kept (hm.sub rfl)
        assumption
      · apply clusterGone_kept (hm.sub rfl)
        apply domainUpd_kept (hm.sub rfl)
        apply wr_kept (hm.sub rfl)
        assumption
    · intro h5
      apply Kept.ite
      · intro h7
        apply pairLanes_kept (hm.sub rfl)
        apply portsAsleep_kept (hm.sub rfl)
        apply domainUpd_kept (hm.sub rfl)
        apply wr_kept (hm.sub rfl)
        assumption
      · intro h7
        apply Kept.ite
        · intro h9
          apply wr_kept (hm.sub rfl)
          apply instRetired_kept (hm.sub rfl)
          apply domainUpd_kept (hm.sub rfl)
          apply wr_kept (hm.sub rfl)
          assumption
        · intro h9
          apply Kept.ite
          · intro h11
            apply wr_kept (hm.sub rfl)
            apply compReset_kept (hm.sub rfl)
            apply domainUpd_kept (hm.sub rfl)
            apply wr_kept (hm.sub rfl)
            assumption
          · intro h11
            apply Kept.ite
            · intro h13
              apply wr_kept (hm.sub rfl)
              apply domainUpd_kept (hm.sub rfl)
              apply wr_kept (hm.sub rfl)
              assumption
            · intro h13
              apply domainUpd_kept (hm.sub rfl)
              apply wr_kept (hm.sub rfl)
              assumption

theorem parkDomain_kept (hm : Has m 0x2147a02) (x0 : ℕ) (x1 : ℕ) (s : State)
    (hs : Kept m s₀ s) :
    Kept m s₀ (parkDomain x0 x1 s) := by
  unfold parkDomain
  dsimp only
  apply Kept.ite
  · intro h2
    apply Kept.ite
    · intro h4
      apply stagingLost_kept (hm.sub rfl)
      apply enginesReset_kept (hm.sub rfl)
      apply clusterFollows_kept (hm.sub rfl)
      apply wr_kept (hm.sub rfl)
      apply leaveLull_kept (hm.sub rfl)
      assumption
    · intro h4
      apply clusterFollows_kept (hm.sub rfl)
      apply wr_kept (hm.sub rfl)
      apply leaveLull_kept (hm.sub rfl)
      assumption
  · intro h2
    apply Kept.ite
    · intro h4
      apply poolReset_kept (hm.sub rfl)
      apply wr_kept (hm.sub rfl)
      apply leaveLull_kept (hm.sub rfl)
      assumption
    · intro h4
      apply Kept.ite
      · intro h6
        apply mixReset_kept (hm.sub rfl)
        apply wr_kept (hm.sub rfl)
        apply leaveLull_kept (hm.sub rfl)
        assumption
      · intro h6
        apply wr_kept (hm.sub rfl)
        apply leaveLull_kept (hm.sub rfl)
        assumption

theorem entryDown_kept (hm : Has m 0x7f7fffa) (x0 : ℕ) (x1 : Bool) (s : State)
    (hs : Kept m s₀ s) :
    Kept m s₀ (entryDown x0 x1 s) := by
  unfold entryDown
  dsimp only
  apply Kept.ite
  · intro h2
    apply wr_kept (hm.sub rfl)
    refine Kept.pwr_put (hm.sub rfl) ?_
    apply upd_kept (hm.sub rfl)
    · intro y06 h7
      apply driveVme_kept (hm.sub rfl)
      apply driveVsd_kept (hm.sub rfl)
      assumption
    · apply Kept.foldl
      · intro s7 b8 h9
        apply Kept.ite
        · intro h11
          apply parkDomain_kept (hm.sub rfl)
          assumption
        · intro h11
          apply Kept.ite
          · intro h13
            apply parkDomain_kept (hm.sub rfl)
            assumption
          · exact fun _ => by assumption
      · apply pairLanes_kept (hm.sub rfl)
        apply portsAsleep_kept (hm.sub rfl)
        apply selfRefresh_kept (hm.sub rfl)
        assumption
  · intro h2
    apply transitionDone_kept (hm.sub rfl)
    apply wr_kept (hm.sub rfl)
    refine Kept.pwr_put (hm.sub rfl) ?_
    apply upd_kept (hm.sub rfl)
    · intro y07 h8
      apply driveVme_kept (hm.sub rfl)
      apply driveVsd_kept (hm.sub rfl)
      assumption
    · apply Kept.foldl
      · intro s8 b9 h10
        apply Kept.ite
        · intro h12
          apply parkDomain_kept (hm.sub rfl)
          assumption
        · intro h12
          apply Kept.ite
          · intro h14
            apply parkDomain_kept (hm.sub rfl)
            assumption
          · exact fun _ => by assumption
      · apply pairLanes_kept (hm.sub rfl)
        apply portsAsleep_kept (hm.sub rfl)
        apply selfRefresh_kept (hm.sub rfl)
        assumption

theorem pdRequestGo_kept (hm : Has m 0x2d67ada) (x0 : ℕ) (x1 : ℕ) (s : State)
    (hs : Kept m s₀ s) :
    Kept m s₀ (pdRequestGo x0 x1 s) := by
  unfold pdRequestGo
  apply Kept.ite
  · intro h1
    apply lanokSend_kept (hm.sub rfl)
    assumption
  · intro h1
    apply Kept.ite
    · intro h3
      apply wakeDomain_kept (hm.sub rfl)
      refine Kept.pwr_put (hm.sub rfl) ?_
      assumption
    · intro h3
      apply cmdComplete_kept (hm.sub rfl)
      apply parkDomain_kept (hm.sub rfl)
      assumption

theorem pdRequest_kept (hm : Has m 0x2d67bda) (x0 : Inst) (x1 : ℕ) (x2 : ℕ) (x3 : ℕ) (s : State)
    (hs : Kept m s₀ s) :
    Kept m s₀ (pdRequest x0 x1 x2 x3 s) := by
  unfold pdRequest
  apply runPending_kept (hm.sub rfl)
  · intro y01 h2
    apply pdRequestGo_kept (hm.sub rfl)
    assumption
  · assumption

theorem domainFail_kept (hm : Has m 0x7f7fffa) (x0 : ℕ) (x1 : ℕ) (s : State)
    (hs : Kept m s₀ s) :
    Kept m s₀ (domainFail x0 x1 s) := by
  unfold domainFail
  apply Kept.ite
  · exact fun _ => by assumption
  · intro h1
    dsimp only
    apply domainGone_kept (hm.sub rfl)
    apply markRetired_kept (hm.sub rfl)
    apply storm_kept (hm.sub rfl)
    apply pwrEvt_kept (hm.sub rfl)
    apply wr_kept (hm.sub rfl)
    assumption

theorem pdResetGo_kept (hm : Has m 0x7fffffa) (x0 : ℕ) (s : State)
    (hs : Kept m s₀ s) :
    Kept m s₀ (pdResetGo x0 s) := by
  unfold pdResetGo
  dsimp only
  apply Kept.ite
  · intro h2
    apply domainFail_kept (hm.sub rfl)
    apply domainReset_kept (hm.sub rfl)
    assumption
  · intro h2
    apply domainReset_kept (hm.sub rfl)
    assumption

theorem writePdReset_kept (hm : Has m 0x7fffffa) (x0 : Inst) (x1 : ℕ) (x2 : ℕ) (s : State)
    (hs : Kept m s₀ s) :
    Kept m s₀ (writePdReset x0 x1 x2 s) := by
  unfold writePdReset
  apply runCmd_kept (hm.sub rfl)
  · intro y01 h2
    apply pdResetGo_kept (hm.sub rfl)
    assumption
  · assumption

theorem execDrainTimeout_kept (hm : Has m 0x2d631da) (s : State)
    (hs : Kept m s₀ s) :
    ResAll (Kept m s₀) (execDrainTimeout s) := by
  unfold execDrainTimeout
  split
  · apply ResAll.next
    assumption
  · apply ResAll.next
    apply Kept.ite
    · intro h3
      apply entryAbandon_kept (hm.sub rfl)
      assumption
    · exact fun _ => by assumption

theorem powerAtHub_kept (hm : Has m 0x2d631da) (x0 : ℕ) (x1 : ℕ) (s : State)
    (hs : Kept m s₀ s) :
    Kept m s₀ (powerAtHub x0 x1 s) := by
  unfold powerAtHub
  dsimp only
  apply Kept.ite
  · intro h2
    apply Kept.ite
    · intro h4
      apply entryCalm_kept (hm.sub rfl)
      assumption
    · intro h4
      apply cmdComplete_kept (hm.sub rfl)
      assumption
  · intro h2
    apply Kept.ite
    · intro h4
      apply Kept.ite
      · intro h6
        apply entryAbandon_kept (hm.sub rfl)
        assumption
      · intro h6
        apply cmdComplete_kept (hm.sub rfl)
        assumption
    · intro h4
      apply Kept.ite
      · intro h6
        apply wakeHub_kept (hm.sub rfl)
        assumption
      · exact fun _ => by assumption

theorem fieldCalm_kept (hm : Has m 0x2) (s : State)
    (hs : Kept m s₀ s) :
    Kept m s₀ (fieldCalm s) := by
  unfold fieldCalm
  apply setFieldState_kept (hm.sub rfl)
  assumption

theorem powerAtField_kept (hm : Has m 0x40004a) (x0 : ℕ) (s : State)
    (hs : Kept m s₀ s) :
    Kept m s₀ (powerAtField x0 s) := by
  unfold powerAtField
  apply Kept.ite
  · intro h1
    apply Kept.ite
    · intro h3
      apply lanokSend_kept (hm.sub rfl)
      assumption
    · intro h3
      apply Kept.ite
      · intro h5
        apply lanokSend_kept (hm.sub rfl)
        assumption
      · intro h5
        apply lanokSend_kept (hm.sub rfl)
        apply fieldCalm_kept (hm.sub rfl)
        assumption
  · intro h1
    apply Kept.ite
    · intro h3
      apply lanokSend_kept (hm.sub rfl)
      apply fieldWake_kept (hm.sub rfl)
      assumption
    · exact fun _ => by assumption

theorem execPower_kept (hm : Has m 0x2d631da) (x0 : Bool) (x1 : LHdr) (x2 : ℕ) (x3 : ℕ) (s : State)
    (hs : Kept m s₀ s) :
    ResAll (Kept m s₀) (execPower x0 x1 x2 x3 s) := by
  unfold execPower
  apply onLanok_kept (hm.sub rfl)
  · intro y01 h2
    apply Kept.ite
    · intro h4
      apply powerAtHub_kept (hm.sub rfl)
      assumption
    · intro h4
      apply powerAtField_kept (hm.sub rfl)
      assumption
  · assumption

theorem railRetry_kept (hm : Has m 0x100008) (x0 : ℕ) (s : State)
    (hs : Kept m s₀ s) :
    Kept m s₀ (railRetry x0 s) := by
  unfold railRetry
  apply Kept.ite
  · intro h1
    apply driveVme_kept (hm.sub rfl)
    apply driveVme_kept (hm.sub rfl)
    assumption
  · intro h1
    apply Kept.ite
    · intro h3
      apply driveVsd_kept (hm.sub rfl)
      apply driveVsd_kept (hm.sub rfl)
      assumption
    · exact fun _ => by assumption

theorem execWakeStepTimeout_kept (hm : Has m 0x7f7fffa) (x0 : ℕ) (x1 : ℕ) (s : State)
    (hs : Kept m s₀ s) :
    ResAll (Kept m s₀) (execWakeStepTimeout x0 x1 s) := by
  unfold execWakeStepTimeout
  apply ResAll.ite
  · intro h1
    apply ResAll.next
    assumption
  · intro h1
    dsimp only
    apply ResAll.ite
    · intro h4
      apply ResAll.next
      apply limpEnter_kept (hm.sub rfl)
      assumption
    · intro h4
      apply ResAll.ite
      · intro h6
        apply ResAll.next
        apply Kept.ite
        · intro h9
          apply railRetry_kept (hm.sub rfl)
          apply bump_kept (hm.sub rfl)
          apply domainUpd_kept (hm.sub rfl)
          assumption
        · intro h9
          apply bump_kept (hm.sub rfl)
          apply domainUpd_kept (hm.sub rfl)
          assumption
      · intro h6
        apply ResAll.ite
        · intro h8
          apply ResAll.next
          apply Kept.foldl
          · intro s11 b12 h13
            apply domainFail_kept (hm.sub rfl)
            assumption
          · assumption
        · intro h8
          apply ResAll.next
          apply domainFail_kept (hm.sub rfl)
          assumption

theorem execTempShutdown_kept (hm : Has m 0x7ffffee) (x0 : ℤ) (s : State)
    (hs : Kept m s₀ s) :
    ResAll (Kept m s₀) (execTempShutdown x0 s) := by
  unfold execTempShutdown
  apply ResAll.next
  apply Kept.ite
  · exact fun _ => by assumption
  · intro h2
    apply hubOff_kept (hm.sub rfl)
    apply storm_kept (hm.sub rfl)
    apply wrI_kept (hm.sub rfl)
    assumption

theorem execLimpEntry_kept (hm : Has m 0x7f7fffa) (x0 : Bool) (x1 : ℕ) (s : State)
    (hs : Kept m s₀ s) :
    ResAll (Kept m s₀) (execLimpEntry x0 x1 s) := by
  unfold execLimpEntry
  dsimp only
  apply ResAll.ite
  · intro h2
    apply ResAll.next
    assumption
  · intro h2
    apply ResAll.next
    apply limpEnter_kept (hm.sub rfl)
    assumption

theorem domainRun_kept (hm : Has m 0x2d7b1da) (x0 : ℕ) (s : State)
    (hs : Kept m s₀ s) :
    Kept m s₀ (domainRun x0 s) := by
  unfold domainRun
  dsimp only
  apply Kept.ite
  · intro h2
    apply retryHeld_kept (hm.sub rfl)
    apply hubAwake_kept (hm.sub rfl)
    apply upd_kept (hm.sub rfl)
    · intro y06 h7
      apply safeCleared_kept (hm.sub rfl)
      assumption
    · apply latchReplay_kept (hm.sub rfl)
      apply waitsEnd_kept (hm.sub rfl)
      apply Kept.ite
      · intro h9
        apply clusterFollows_kept (hm.sub rfl)
        apply upd_kept (hm.sub rfl)
        · intro y012 h13
          apply bump_kept (hm.sub rfl)
          assumption
        · apply domainUpd_kept (hm.sub rfl)
          apply wr_kept (hm.sub rfl)
          assumption
      · intro h9
        apply Kept.ite
        · intro h11
          apply pairLanes_kept (hm.sub rfl)
          apply upd_kept (hm.sub rfl)
          · intro y014 h15
            apply bump_kept (hm.sub rfl)
            assumption
          · apply domainUpd_kept (hm.sub rfl)
            apply wr_kept (hm.sub rfl)
            assumption
        · intro h11
          apply Kept.ite
          · intro h13
            apply Kept.foldl
            · intro s15 b16 h17
              apply domainUpd_kept (hm.sub rfl)
              assumption
            · apply upd_kept (hm.sub rfl)
              · intro y016 h17
                apply bump_kept (hm.sub rfl)
                assumption
              · apply domainUpd_kept (hm.sub rfl)
                apply wr_kept (hm.sub rfl)
                assumption
          · intro h13
            apply Kept.ite
            · intro h15
              apply vdecSync_kept (hm.sub rfl)
              apply upd_kept (hm.sub rfl)
              · intro y018 h19
                apply bump_kept (hm.sub rfl)
                assumption
              · apply domainUpd_kept (hm.sub rfl)
                apply wr_kept (hm.sub rfl)
                assumption
            · intro h15
              apply Kept.ite
              · intro h17
                apply vencSync_kept (hm.sub rfl)
                apply upd_kept (hm.sub rfl)
                · intro y020 h21
                  apply bump_kept (hm.sub rfl)
                  assumption
                · apply domainUpd_kept (hm.sub rfl)
                  apply wr_kept (hm.sub rfl)
                  assumption
              · intro h17
                apply Kept.ite
                · intro h19
                  apply cmpSync_kept (hm.sub rfl)
                  apply upd_kept (hm.sub rfl)
                  · intro y022 h23
                    apply bump_kept (hm.sub rfl)
                    assumption
                  · apply domainUpd_kept (hm.sub rfl)
                    apply wr_kept (hm.sub rfl)
                    assumption
                · intro h19
                  apply upd_kept (hm.sub rfl)
                  · intro y021 h22
                    apply bump_kept (hm.sub rfl)
                    assumption
                  · apply domainUpd_kept (hm.sub rfl)
                    apply wr_kept (hm.sub rfl)
                    assumption
  · intro h2
    apply hubAwake_kept (hm.sub rfl)
    apply upd_kept (hm.sub rfl)
    · intro y05 h6
      apply safeCleared_kept (hm.sub rfl)
      assumption
    · apply latchReplay_kept (hm.sub rfl)
      apply waitsEnd_kept (hm.sub rfl)
      apply Kept.ite
      · intro h8
        apply clusterFollows_kept (hm.sub rfl)
        apply upd_kept (hm.sub rfl)
        · intro y011 h12
          apply bump_kept (hm.sub rfl)
          assumption
        · apply domainUpd_kept (hm.sub rfl)
          apply wr_kept (hm.sub rfl)
          assumption
      · intro h8
        apply Kept.ite
        · intro h10
          apply pairLanes_kept (hm.sub rfl)
          apply upd_kept (hm.sub rfl)
          · intro y013 h14
            apply bump_kept (hm.sub rfl)
            assumption
          · apply domainUpd_kept (hm.sub rfl)
            apply wr_kept (hm.sub rfl)
            assumption
        · intro h10
          apply Kept.ite
          · intro h12
            apply Kept.foldl
            · intro s14 b15 h16
              apply domainUpd_kept (hm.sub rfl)
              assumption
            · apply upd_kept (hm.sub rfl)
              · intro y015 h16
                apply bump_kept (hm.sub rfl)
                assumption
              · apply domainUpd_kept (hm.sub rfl)
                apply wr_kept (hm.sub rfl)
                assumption
          · intro h12
            apply Kept.ite
            · intro h14
              apply vdecSync_kept (hm.sub rfl)
              apply upd_kept (hm.sub rfl)
              · intro y017 h18
                apply bump_kept (hm.sub rfl)
                assumption
              · apply domainUpd_kept (hm.sub rfl)
                apply wr_kept (hm.sub rfl)
                assumption
            · intro h14
              apply Kept.ite
              · intro h16
                apply vencSync_kept (hm.sub rfl)
                apply upd_kept (hm.sub rfl)
                · intro y019 h20
                  apply bump_kept (hm.sub rfl)
                  assumption
                · apply domainUpd_kept (hm.sub rfl)
                  apply wr_kept (hm.sub rfl)
                  assumption
              · intro h16
                apply Kept.ite
                · intro h18
                  apply cmpSync_kept (hm.sub rfl)
                  apply upd_kept (hm.sub rfl)
                  · intro y021 h22
                    apply bump_kept (hm.sub rfl)
                    assumption
                  · apply domainUpd_kept (hm.sub rfl)
                    apply wr_kept (hm.sub rfl)
                    assumption
                · intro h18
                  apply upd_kept (hm.sub rfl)
                  · intro y020 h21
                    apply bump_kept (hm.sub rfl)
                    assumption
                  · apply domainUpd_kept (hm.sub rfl)
                    apply wr_kept (hm.sub rfl)
                    assumption

theorem privileged_kept (hm : Has m 0x10000a) (x0 : ℕ) (x1 : ℕ) (x2 : Instant) (s : State)
    (hs : Kept m s₀ s) :
    Kept m s₀ (privileged x0 x1 x2 s) := by
  unfold privileged
  apply Kept.ite
  · exact fun _ => by assumption
  · intro h1
    apply latchReplay_kept (hm.sub rfl)
    apply wakeHub_kept (hm.sub rfl)
    apply latchEvent_kept (hm.sub rfl)
    assumption

theorem stepOn_kept (hm : Has m 0x100000) (x0 : ℕ) (x1 : ℕ) (s : State)
    (hs : Kept m s₀ s) :
    Kept m s₀ (stepOn x0 x1 s) := by
  unfold stepOn
  apply Kept.ite
  · intro h1
    apply domainUpd_kept (hm.sub rfl)
    assumption
  · exact fun _ => by assumption

theorem execPllLocked_kept (hm : Has m 0x100000) (x0 : ℕ) (s : State)
    (hs : Kept m s₀ s) :
    ResAll (Kept m s₀) (execPllLocked x0 s) := by
  unfold execPllLocked
  apply ResAll.next
  apply stepOn_kept (hm.sub rfl)
  assumption

theorem execLogicReady_kept (hm : Has m 0x2d7b1da) (x0 : ℕ) (s : State)
    (hs : Kept m s₀ s) :
    ResAll (Kept m s₀) (execLogicReady x0 s) := by
  unfold execLogicReady
  apply ResAll.next
  apply Kept.ite
  · intro h2
    apply domainRun_kept (hm.sub rfl)
    assumption
  · exact fun _ => by assumption

theorem writePdRequestFrost_kept (hm : Has m 0x2d67bda) (x0 : Inst) (x1 : ℕ) (x2 : ℕ) (s : State)
    (hs : Kept m s₀ s) :
    Kept m s₀ (writePdRequestFrost x0 x1 x2 s) := by
  unfold writePdRequestFrost
  apply pdRequest_kept (hm.sub rfl)
  assumption

theorem execPowerGoodLoss_kept (hm : Has m 0x7f7fffa) (x0 : Fin 2) (s : State)
    (hs : Kept m s₀ s) :
    ResAll (Kept m s₀) (execPowerGoodLoss x0 s) := by
  unfold execPowerGoodLoss
  dsimp only
  apply ResAll.ite
  · intro h2
    apply ResAll.next
    assumption
  · intro h2
    apply ResAll.next
    apply Kept.foldl
    · intro s5 b6 h7
      apply Kept.ite
      · exact fun _ => by assumption
      · intro h9
        split
        · apply domainGone_kept (hm.sub rfl)
          apply upset_elim (hm.sub rfl) (by assumption)
          apply leaveLull_kept (hm.sub rfl)
          assumption
        · apply Kept.ite
          · intro h12
            apply clusterFollows_kept (hm.sub rfl)
            apply enginesReset_kept (hm.sub rfl)
            apply stopBanks_kept (hm.sub rfl)
            apply clusterLost_kept (hm.sub rfl)
            apply domainUpd_kept (hm.sub rfl)
            apply wr_kept (hm.sub rfl)
            apply upset_elim (hm.sub rfl) (by assumption)
            apply leaveLull_kept (hm.sub rfl)
            assumption
          · intro h12
            apply Kept.ite
            · intro h14
              apply pairLanes_kept (hm.sub rfl)
              apply portsAsleep_kept (hm.sub rfl)
              apply domainUpd_kept (hm.sub rfl)
              apply wr_kept (hm.sub rfl)
              apply upset_elim (hm.sub rfl) (by assumption)
              apply leaveLull_kept (hm.sub rfl)
              assumption
            · intro h14
              apply domainUpd_kept (hm.sub rfl)
              apply wr_kept (hm.sub rfl)
              apply upset_elim (hm.sub rfl) (by assumption)
              apply leaveLull_kept (hm.sub rfl)
              assumption
    · apply Kept.ite
      · intro h6
        refine Kept.pwr_put (hm.sub rfl) ?_
        assumption
      · intro h6
        refine Kept.pwr_put (hm.sub rfl) ?_
        assumption

theorem execHostWakeRequest_kept (hm : Has m 0x10000a) (s : State)
    (hs : Kept m s₀ s) :
    ResAll (Kept m s₀) (execHostWakeRequest s) := by
  unfold execHostWakeRequest
  apply ResAll.next
  apply Kept.ite
  · intro h2
    apply wakeHub_kept (hm.sub rfl)
    assumption
  · exact fun _ => by assumption

theorem writeHubOff_kept (hm : Has m 0x2d631da) (x0 : Inst) (x1 : ℕ) (s : State)
    (hs : Kept m s₀ s) :
    Kept m s₀ (writeHubOff x0 x1 s) := by
  unfold writeHubOff
  dsimp only
  apply runCmd_kept (hm.sub rfl)
  · intro y02 h3
    apply entryField_kept (hm.sub rfl)
    apply entryStart_kept (hm.sub rfl)
    assumption
  · assumption

theorem execLullEntry_kept (hm : Has m 0x100002) (x0 : Fin 140) (s : State)
    (hs : Kept m s₀ s) :
    ResAll (Kept m s₀) (execLullEntry x0 s) := by
  unfold execLullEntry
  dsimp only
  apply ResAll.ite
  · intro h2
    apply ResAll.next
    assumption
  · intro h2
    apply ResAll.ite
    · intro h4
      apply ResAll.next
      apply Kept.ite
      · intro h7
        apply wr_kept (hm.sub rfl)
        assumption
      · exact fun _ => by assumption
    · intro h4
      apply ResAll.ite
      · intro h6
        apply ResAll.next
        apply Kept.ite
        · intro h9
          apply enterLull_kept (hm.sub rfl)
          apply wr_kept (hm.sub rfl)
          assumption
        · exact fun _ => by assumption
      · intro h6
        apply ResAll.ite
        · intro h8
          apply ResAll.next
          apply Kept.ite
          · intro h11
            apply enterLull_kept (hm.sub rfl)
            apply wr_kept (hm.sub rfl)
            assumption
          · exact fun _ => by assumption
        · intro h8
          apply ResAll.next
          apply Kept.ite
          · intro h11
            apply enterLull_kept (hm.sub rfl)
            apply wr_kept (hm.sub rfl)
            assumption
          · exact fun _ => by assumption

theorem execTempAlarm_kept (hm : Has m 0x10000a) (x0 : ℤ) (s : State)
    (hs : Kept m s₀ s) :
    ResAll (Kept m s₀) (execTempAlarm x0 s) := by
  unfold execTempAlarm
  dsimp only
  apply ResAll.next
  apply Kept.ite
  · intro h3
    apply bump_kept (hm.sub rfl)
    apply pwrEvt_kept (hm.sub rfl)
    apply wrI_kept (hm.sub rfl)
    assumption
  · intro h3
    apply wrI_kept (hm.sub rfl)
    assumption

theorem execStandbyIdleTimeout_kept (hm : Has m 0x2d631da) (s : State)
    (hs : Kept m s₀ s) :
    ResAll (Kept m s₀) (execStandbyIdleTimeout s) := by
  unfold execStandbyIdleTimeout
  dsimp only
  apply ResAll.ite
  · intro h2
    apply ResAll.next
    apply entryField_kept (hm.sub rfl)
    apply entryStart_kept (hm.sub rfl)
    assumption
  · intro h2
    apply ResAll.next
    assumption

theorem execMemoryReady_kept (hm : Has m 0x7fffffa) (x0 : ℕ) (x1 : List ℕ) (x2 : List ℕ) (s : State)
    (hs : Kept m s₀ s) :
    ResAll (Kept m s₀) (execMemoryReady x0 x1 x2 s) := by
  unfold execMemoryReady
  apply ResAll.ite
  · intro h1
    apply ResAll.next
    assumption
  · intro h1
    apply ResAll.ite
    · intro h3
      apply ResAll.next
      apply domainFail_kept (hm.sub rfl)
      assumption
    · intro h3
      apply ResAll.next
      apply stepOn_kept (hm.sub rfl)
      apply upd_kept (hm.sub rfl)
      · intro y07 h8
        apply leaveSelfRefresh_kept (hm.sub rfl)
        assumption
      · assumption

theorem execWake_kept (hm : Has m 0x50004a) (x0 : LHdr) (x1 : ℕ) (x2 : ℕ) (x3 : ℕ) (s : State)
    (hs : Kept m s₀ s) :
    ResAll (Kept m s₀) (execWake x0 x1 x2 x3 s) := by
  unfold execWake
  apply onLanok_kept (hm.sub rfl)
  · intro y01 h2
    apply Kept.ite
    · intro h4
      apply privileged_kept (hm.sub rfl)
      assumption
    · intro h4
      apply Kept.ite
      · intro h6
        apply wakeHub_kept (hm.sub rfl)
        assumption
      · exact fun _ => by assumption
  · assumption

theorem writePdRequestCalm_kept (hm : Has m 0x2d67bda) (x0 : Inst) (x1 : ℕ) (x2 : ℕ) (s : State)
    (hs : Kept m s₀ s) :
    Kept m s₀ (writePdRequestCalm x0 x1 x2 s) := by
  unfold writePdRequestCalm
  apply pdRequest_kept (hm.sub rfl)
  assumption

theorem writePdRequestRun_kept (hm : Has m 0x2d67bda) (x0 : Inst) (x1 : ℕ) (x2 : ℕ) (s : State)
    (hs : Kept m s₀ s) :
    Kept m s₀ (writePdRequestRun x0 x1 x2 s) := by
  unfold writePdRequestRun
  apply pdRequest_kept (hm.sub rfl)
  assumption

theorem execRegulatorReady_kept (hm : Has m 0x100000) (x0 : Fin 3) (x1 : ℕ) (s : State)
    (hs : Kept m s₀ s) :
    ResAll (Kept m s₀) (execRegulatorReady x0 x1 s) := by
  unfold execRegulatorReady
  apply ResAll.next
  apply Kept.ite
  · intro h2
    apply Kept.ite
    · intro h4
      apply Kept.foldl
      · intro s6 b7 h8
        apply stepOn_kept (hm.sub rfl)
        assumption
      · refine Kept.pwr_put (hm.sub rfl) ?_
        assumption
    · exact fun _ => by assumption
  · intro h2
    apply Kept.ite
    · intro h4
      apply Kept.ite
      · intro h6
        apply Kept.foldl
        · intro s8 b9 h10
          apply stepOn_kept (hm.sub rfl)
          assumption
        · refine Kept.pwr_put (hm.sub rfl) ?_
          assumption
      · exact fun _ => by assumption
    · intro h4
      apply Kept.ite
      · exact fun _ => by assumption
      · intro h6
        apply stepOn_kept (hm.sub rfl)
        assumption

theorem execDrainComplete_kept (hm : Has m 0x7fffffe) (s : State)
    (hs : Kept m s₀ s) :
    ResAll (Kept m s₀) (execDrainComplete s) := by
  unfold execDrainComplete
  split
  · apply ResAll.next
    assumption
  · apply ResAll.ite
    · intro h2
      apply ResAll.next
      assumption
    · intro h2
      dsimp only
      apply ResAll.ite
      · intro h5
        apply ResAll.next
        apply entryAbandon_kept (hm.sub rfl)
        apply checkpointDone_kept (hm.sub rfl)
        refine Kept.sch_put (hm.sub rfl) ?_
        assumption
      · intro h5
        apply ResAll.ite
        · intro h7
          apply ResAll.next
          apply hubOff_kept (hm.sub rfl)
          apply cmdComplete_kept (hm.sub rfl)
          apply checkpointDone_kept (hm.sub rfl)
          refine Kept.sch_put (hm.sub rfl) ?_
          assumption
        · intro h7
          apply ResAll.next
          apply entryDown_kept (hm.sub rfl)
          apply checkpointDone_kept (hm.sub rfl)
          refine Kept.sch_put (hm.sub rfl) ?_
          assumption

theorem execIsobarAlarm_kept (hm : Has m 0x10002a) (s : State)
    (hs : Kept m s₀ s) :
    ResAll (Kept m s₀) (execIsobarAlarm s) := by
  unfold execIsobarAlarm
  dsimp only
  apply ResAll.ite
  · intro h2
    apply ResAll.next
    assumption
  · intro h2
    apply ResAll.next
    apply privileged_kept (hm.sub rfl)
    refine Kept.isb_put (hm.sub rfl) ?_
    assumption

end Sys2Proof.Machine
end

