-- ==== Sys2Proof/Laws/KeptFaults.lean ====
section
/-! SUPPORT. Every effect of Machine/Faults.lean keeps what `Kept` says. -/
set_option Elab.async false
namespace Sys2Proof.Machine

variable {m : Nat} {s₀ : State}

theorem execWatchdogTimeout_kept (hm : Has m 0x7bfffea) (s : State)
    (hs : Kept m s₀ s) :
    ResAll (Kept m s₀) (execWatchdogTimeout s) := by
  unfold execWatchdogTimeout
  apply ResAll.ite
  · intro h1
    apply ResAll.next
    assumption
  · intro h1
    dsimp only
    apply ResAll.next
    apply warmReset_kept (hm.sub rfl)
    apply storm_kept (hm.sub rfl)
    apply bump_kept (hm.sub rfl)
    refine Kept.flt_put (hm.sub rfl) ?_
    assumption

theorem hostLost_kept (hm : Has m 0x2) (s : State)
    (hs : Kept m s₀ s) :
    Kept m s₀ (hostLost s) := by
  unfold hostLost
  apply summary_kept (hm.sub rfl)
  apply bump_kept (hm.sub rfl)
  assumption

theorem writeHostPing_kept (hm : Has m 0x26631da) (x0 : Inst) (x1 : ℕ) (s : State)
    (hs : Kept m s₀ s) :
    Kept m s₀ (writeHostPing x0 x1 s) := by
  unfold writeHostPing
  apply runCmd_kept (hm.sub rfl)
  · intro y01 h2
    apply summary_kept (hm.sub rfl)
    refine Kept.flt_put (hm.sub rfl) ?_
    assumption
  · assumption

theorem execHostWatchTimeout_kept (hm : Has m 0x2) (s : State)
    (hs : Kept m s₀ s) :
    ResAll (Kept m s₀) (execHostWatchTimeout s) := by
  unfold execHostWatchTimeout
  dsimp only
  apply ResAll.next
  apply Kept.ite
  · exact fun _ => by assumption
  · intro h3
    apply hostLost_kept (hm.sub rfl)
    assumption

theorem execWdtService_kept (hm : Has m 0x200000) (s : State)
    (hs : Kept m s₀ s) :
    ResAll (Kept m s₀) (execWdtService s) := by
  unfold execWdtService
  apply ResAll.next
  refine Kept.flt_put (hm.sub rfl) ?_
  assumption

theorem meCleared_kept (hm : Has m 0x2) (x0 : ℕ) (s : State)
    (hs : Kept m s₀ s) :
    Kept m s₀ (meCleared x0 s) := by
  unfold meCleared
  apply wr_kept (hm.sub rfl)
  assumption

theorem clusterCleared_kept (hm : Has m 0x2) (x0 : ℕ) (s : State)
    (hs : Kept m s₀ s) :
    Kept m s₀ (clusterCleared x0 s) := by
  unfold clusterCleared
  dsimp only
  apply Kept.foldl
  · intro s2 b3 h4
    apply Kept.ite
    · exact fun _ => by assumption
    · intro h6
      apply meCleared_kept (hm.sub rfl)
      assumption
  · apply wr_kept (hm.sub rfl)
    assumption

theorem execPerstN_kept (hm : Has m 0x200082) (x0 : Bool) (s : State)
    (hs : Kept m s₀ s) :
    ResAll (Kept m s₀) (execPerstN x0 s) := by
  unfold execPerstN
  apply ResAll.next
  apply Kept.ite
  · intro h2
    refine Kept.flt_put (hm.sub rfl) ?_
    assumption
  · intro h2
    apply upd_kept (hm.sub rfl)
    · intro y04 h5
      apply hostLost_kept (hm.sub rfl)
      assumption
    · refine Kept.mk' (v := 2097280) (hm.sub rfl) rfl ?_ ?_
      · assumption
      · intro p hp
        cases p <;> first | exact absurd hp (by dsimp only [StatePart.idx]; decide) | exact Eq.refl _ | exact ⟨Eq.refl _, Eq.refl _, Eq.refl _⟩

theorem instanceRetired_kept (hm : Has m 0x7fffffa) (x0 : ℕ) (x1 : ℕ) (s : State)
    (hs : Kept m s₀ s) :
    Kept m s₀ (instanceRetired x0 x1 s) := by
  unfold instanceRetired
  apply Kept.ite
  · intro h1
    apply meRetired_kept (hm.sub rfl)
    assumption
  · intro h1
    apply Kept.ite
    · intro h3
      apply clusterGone_kept (hm.sub rfl)
      assumption
    · intro h3
      apply Kept.ite
      · intro h5
        apply chanRetire_kept (hm.sub rfl)
        assumption
      · intro h5
        apply Kept.ite
        · intro h7
          apply portDown_kept (hm.sub rfl)
          assumption
        · intro h7
          apply Kept.ite
          · intro h9
            apply Kept.ite
            · intro h11
              apply sapRetire_kept (hm.sub rfl)
              assumption
            · intro h11
              apply wr_kept (hm.sub rfl)
              assumption
          · intro h9
            apply Kept.ite
            · intro h11
              apply trunkRetire_kept (hm.sub rfl)
              assumption
            · intro h11
              apply Kept.ite
              · intro h13
                apply wr_kept (hm.sub rfl)
                apply nodeSlotsFree_kept (hm.sub rfl)
                assumption
              · intro h13
                apply Kept.ite
                · intro h15
                  apply legStop_kept (hm.sub rfl)
                  assumption
                · intro h15
                  apply Kept.ite
                  · intro h17
                    apply instRetired_kept (hm.sub rfl)
                    assumption
                  · intro h17
                    apply Kept.ite
                    · intro h19
                      apply domainGone_kept (hm.sub rfl)
                      assumption
                    · intro h19
                      apply Kept.ite
                      · intro h21
                        apply sealSync_kept (hm.sub rfl)
                        assumption
                      · exact fun _ => by assumption

theorem channelRetire_kept (hm : Has m 0x7fffffa) (x0 : ℕ) (x1 : ℕ) (s : State)
    (hs : Kept m s₀ s) :
    Kept m s₀ (channelRetire x0 x1 s) := by
  unfold channelRetire
  apply Kept.ite
  · exact fun _ => by assumption
  · intro h1
    apply instanceRetired_kept (hm.sub rfl)
    apply markRetired_kept (hm.sub rfl)
    assumption

theorem writeChRetire_kept (hm : Has m 0x7fffffa) (x0 : Inst) (x1 : ℕ) (s : State)
    (hs : Kept m s₀ s) :
    Kept m s₀ (writeChRetire x0 x1 s) := by
  unfold writeChRetire
  apply runCmd_kept (hm.sub rfl)
  · intro y01 h2
    apply channelRetire_kept (hm.sub rfl)
    assumption
  · assumption

theorem execPcieLinkUp_kept (hm : Has m 0x200002) (s : State)
    (hs : Kept m s₀ s) :
    ResAll (Kept m s₀) (execPcieLinkUp s) := by
  unfold execPcieLinkUp
  apply ResAll.next
  apply Kept.ite
  · exact fun _ => by assumption
  · intro h2
    apply upd_kept (hm.sub rfl)
    · intro y04 h5
      apply summary_kept (hm.sub rfl)
      assumption
    · refine Kept.flt_put (hm.sub rfl) ?_
      assumption

theorem domainCleared_kept (hm : Has m 0x10000a) (x0 : ℕ) (s : State)
    (hs : Kept m s₀ s) :
    Kept m s₀ (domainCleared x0 s) := by
  unfold domainCleared
  apply Kept.ite
  · exact fun _ => by assumption
  · intro h1
    dsimp only
    apply wakeDomain_kept (hm.sub rfl)
    apply Kept.ite
    · intro h5
      apply clusterFollows_kept (hm.sub rfl)
      apply wr_kept (hm.sub rfl)
      apply wr_kept (hm.sub rfl)
      assumption
    · intro h5
      apply wr_kept (hm.sub rfl)
      apply wr_kept (hm.sub rfl)
      assumption

theorem instanceCleared_kept (hm : Has m 0x410fcca) (x0 : ℕ) (x1 : ℕ) (s : State)
    (hs : Kept m s₀ s) :
    Kept m s₀ (instanceCleared x0 x1 s) := by
  unfold instanceCleared
  apply Kept.ite
  · intro h1
    apply meCleared_kept (hm.sub rfl)
    assumption
  · intro h1
    apply Kept.ite
    · intro h3
      apply clusterCleared_kept (hm.sub rfl)
      assumption
    · intro h3
      apply Kept.ite
      · intro h5
        apply portCleared_kept (hm.sub rfl)
        assumption
      · intro h5
        apply Kept.ite
        · intro h7
          apply sapCleared_kept (hm.sub rfl)
          assumption
        · intro h7
          apply Kept.ite
          · intro h9
            apply trunkStart_kept (hm.sub rfl)
            apply wr_kept (hm.sub rfl)
            assumption
          · intro h9
            apply Kept.ite
            · intro h11
              apply wr_kept (hm.sub rfl)
              assumption
            · intro h11
              apply Kept.ite
              · intro h13
                apply legCleared_kept (hm.sub rfl)
                assumption
              · intro h13
                apply Kept.ite
                · intro h15
                  apply instReturned_kept (hm.sub rfl)
                  assumption
                · intro h15
                  apply Kept.ite
                  · intro h17
                    apply domainCleared_kept (hm.sub rfl)
                    assumption
                  · intro h17
                    apply Kept.ite
                    · intro h19
                      apply sealSync_kept (hm.sub rfl)
                      assumption
                    · exact fun _ => by assumption

theorem channelClear_kept (hm : Has m 0x430fcca) (x0 : ℕ) (x1 : ℕ) (s : State)
    (hs : Kept m s₀ s) :
    Kept m s₀ (channelClear x0 x1 s) := by
  unfold channelClear
  apply Kept.ite
  · intro h1
    apply instanceCleared_kept (hm.sub rfl)
    apply clearChannel_kept (hm.sub rfl)
    assumption
  · exact fun _ => by assumption

theorem execPcieLinkDown_kept (hm : Has m 0x200002) (s : State)
    (hs : Kept m s₀ s) :
    ResAll (Kept m s₀) (execPcieLinkDown s) := by
  unfold execPcieLinkDown
  apply ResAll.next
  apply Kept.ite
  · intro h2
    apply hostLost_kept (hm.sub rfl)
    refine Kept.flt_put (hm.sub rfl) ?_
    assumption
  · exact fun _ => by assumption

theorem writeChClear_kept (hm : Has m 0x676fdda) (x0 : Inst) (x1 : ℕ) (s : State)
    (hs : Kept m s₀ s) :
    Kept m s₀ (writeChClear x0 x1 s) := by
  unfold writeChClear
  apply runCmd_kept (hm.sub rfl)
  · intro y01 h2
    apply channelClear_kept (hm.sub rfl)
    assumption
  · assumption

end Sys2Proof.Machine
end

