-- ==== Sys2Proof/Laws/KeptArm.lean ====
section
/-! SUPPORT. Every effect of Machine/Arm.lean keeps what `Kept` says. -/
set_option Elab.async false
namespace Sys2Proof.Machine

variable {m : Nat} {s₀ : State}

theorem windowCancel_kept (hm : Has m 0x244012a) (x0 : ℕ) (s : State)
    (hs : Kept m s₀ s) :
    Kept m s₀ (windowCancel x0 s) := by
  unfold windowCancel
  dsimp only
  apply Kept.ite
  · intro h2
    apply presentWork_kept (hm.sub rfl)
    apply launchUpd_kept (hm.sub rfl)
    assumption
  · exact fun _ => by assumption

theorem windowRefused_kept (hm : Has m 0x2) (s : State)
    (hs : Kept m s₀ s) :
    Kept m s₀ (windowRefused s) := by
  unfold windowRefused
  apply bump_kept (hm.sub rfl)
  assumption

theorem setRecord_kept (hm : Has m 0x20) (x0 : ℕ) (x1 : LaunchRec) (s : State)
    (hs : Kept m s₀ s) :
    Kept m s₀ (setRecord x0 x1 s) := by
  unfold setRecord
  apply launchUpd_kept (hm.sub rfl)
  assumption

theorem claimTimers_kept (hm : Has m 0x4000080) (x0 : ℕ) (x1 : LaunchRec) (s : State)
    (hs : Kept m s₀ s) :
    OptAll (SndAll (Kept m s₀)) (claimTimers x0 x1 s) := by
  unfold claimTimers
  apply OptAll.ite
  · intro h1
    apply OptAll.some
    apply SndAll.mk
    assumption
  · intro h1
    split
    · exact OptAll.none
    · apply OptAll.ite
      · intro h4
        apply OptAll.map
        intro x6 h7
        apply SndAll.mk
        apply Kept.snd
        refine OptAll.elim ?_ (by assumption)
        apply claimComparator_kept (hm.sub rfl)
        apply claimComparator_elim (hm.sub rfl) (by assumption)
        assumption
      · intro h4
        apply OptAll.some
        apply SndAll.mk
        apply claimComparator_elim (hm.sub rfl) (by assumption)
        assumption

theorem claimTimers_elim {x0 : ℕ} {x1 : LaunchRec} {s : State} {v0} {t : State} (hm : Has m 0x4000080) (e : (claimTimers x0 x1 s) = (some (v0, t)))
    (hs : Kept m s₀ s) : Kept m s₀ t := by
  have hk := claimTimers_kept hm x0 x1 s hs
  rw [e] at hk
  exact (SndAll.elim (OptAll.elim hk rfl) rfl)

theorem claimUpstream_kept (hm : Has m 0x4000080) (n : Nat) (r : LaunchRec) (s : State) (hs : Kept m s₀ s) :
    OptAll (Kept m s₀) (claimUpstream n r s) := by
  have walk : ∀ (l : List Nat) (o : Option State), OptAll (Kept m s₀) o →
      OptAll (Kept m s₀) (l.foldl (fun (o : Option State) t =>
        o.bind (fun s =>
          let i := t * 32 + naSlot r.arg
          let w := claimOwner s 5 i
          if w = 0 ∨ releasedBefore s n r i w = true then some (setClaim 5 i (ownSlot n) s)
          else if w / 0x40000000 = 2 then some s else none)) o) := by
    intro l
    induction l with
    | nil => exact fun _ h => h
    | cons t l ih =>
      intro o h
      apply ih
      apply OptAll.bind
      intro x e
      have hx : Kept m s₀ x := h.elim e
      dsimp only
      apply OptAll.ite
      · intro _
        exact OptAll.some (setClaim_kept (hm.sub rfl) _ _ _ _ hx)
      · intro _
        apply OptAll.ite
        · exact fun _ => OptAll.some hx
        · exact fun _ => OptAll.none
  unfold claimUpstream
  apply OptAll.ite
  · exact fun _ => OptAll.some hs
  · intro _
    apply OptAll.ite
    · exact fun _ => walk _ _ (OptAll.some hs)
    · intro _
      apply OptAll.ite
      · intro _
        split
        · dsimp only
          apply OptAll.ite
          · exact fun _ => OptAll.some hs
          · exact fun _ => OptAll.none
        · exact OptAll.some hs
      · exact fun _ => OptAll.some hs

theorem claimUpstream_elim {x0 : ℕ} {x1 : LaunchRec} {s : State}  {t : State} (hm : Has m 0x4000080) (e : (claimUpstream x0 x1 s) = (some t))
    (hs : Kept m s₀ s) : Kept m s₀ t := by
  have hk := claimUpstream_kept hm x0 x1 s hs
  rw [e] at hk
  exact (OptAll.elim hk rfl)

theorem launchClaims_kept (hm : Has m 0x4000080) (x0 : ℕ) (x1 : LaunchRec) (s : State)
    (hs : Kept m s₀ s) :
    OptAll (SndAll (SndAll (Kept m s₀))) (launchClaims x0 x1 s) := by
  unfold launchClaims
  split
  · exact OptAll.none
  · split
    · exact OptAll.none
    · apply OptAll.map
      intro x3 h4
      apply SndAll.mk
      apply SndAll.mk
      apply claimUpstream_elim (hm.sub rfl) (by assumption)
      apply claimTrunkSlots_elim (hm.sub rfl) (by assumption)
      apply claimTimers_elim (hm.sub rfl) (by assumption)
      assumption

theorem launchClaims_elim {x0 : ℕ} {x1 : LaunchRec} {s : State} {v0} {v1} {t : State} (hm : Has m 0x4000080) (e : (launchClaims x0 x1 s) = (some (v0, (v1, t))))
    (hs : Kept m s₀ s) : Kept m s₀ t := by
  have hk := launchClaims_kept hm x0 x1 s hs
  rw [e] at hk
  exact (SndAll.elim (SndAll.elim (OptAll.elim hk rfl) rfl) rfl)

theorem launchCheck_kept (hm : Has m 0x40000a0) (x0 : ℕ) (x1 : LaunchRec) (s : State)
    (hs : Kept m s₀ s) :
    ExAll (Kept m s₀) (launchCheck x0 x1 s) := by
  unfold launchCheck
  split
  · split
    · exact ExAll.error
    · apply ExAll.ok
      apply launchUpd_kept (hm.sub rfl)
      apply setRecord_kept (hm.sub rfl)
      apply launchClaims_elim (hm.sub rfl) (by assumption)
      assumption
  · exact ExAll.error

theorem launchCheck_elim {x0 : ℕ} {x1 : LaunchRec} {s : State}  {t : State} (hm : Has m 0x40000a0) (e : (launchCheck x0 x1 s) = (.ok t))
    (hs : Kept m s₀ s) : Kept m s₀ t := by
  have hk := launchCheck_kept hm x0 x1 s hs
  rw [e] at hk
  exact (ExAll.elim hk rfl)

theorem armFails_kept (hm : Has m 0x2a) (x0 : ℕ) (x1 : ℕ) (x2 : Status) (s : State)
    (hs : Kept m s₀ s) :
    Kept m s₀ (armFails x0 x1 x2 s) := by
  unfold armFails
  dsimp only
  apply Kept.ite
  · intro h2
    apply emit_kept (hm.sub rfl)
    refine Kept.isb_put (hm.sub rfl) ?_
    apply bump_kept (hm.sub rfl)
    apply launchUpd_kept (hm.sub rfl)
    assumption
  · intro h2
    apply bump_kept (hm.sub rfl)
    apply launchUpd_kept (hm.sub rfl)
    assumption

theorem windowArm_kept (hm : Has m 0x64401aa) (x0 : ℕ) (x1 : ℕ) (s : State)
    (hs : Kept m s₀ s) :
    Kept m s₀ (windowArm x0 x1 s) := by
  unfold windowArm
  apply Kept.ite
  · intro h1
    apply windowRefused_kept (hm.sub rfl)
    assumption
  · intro h1
    dsimp only
    apply Kept.ite
    · intro h4
      apply presentWork_kept (hm.sub rfl)
      apply launchUpd_kept (hm.sub rfl)
      apply setRecord_kept (hm.sub rfl)
      assumption
    · intro h4
      split
      · apply armFails_kept (hm.sub rfl)
        apply launchUpd_kept (hm.sub rfl)
        apply setRecord_kept (hm.sub rfl)
        assumption
      · split
        · apply jrnlWrite_elim (hm.sub rfl) (by assumption)
          apply launchCheck_elim (hm.sub rfl) (by assumption)
          apply launchUpd_kept (hm.sub rfl)
          apply setRecord_kept (hm.sub rfl)
          assumption
        · apply armFails_kept (hm.sub rfl)
          apply launchUpd_kept (hm.sub rfl)
          apply setRecord_kept (hm.sub rfl)
          assumption

theorem windowWord_kept (hm : Has m 0x64401aa) (x0 : ℕ) (x1 : ℕ) (s : State)
    (hs : Kept m s₀ s) :
    Kept m s₀ (windowWord x0 x1 s) := by
  unfold windowWord
  apply Kept.ite
  · intro h1
    apply windowArm_kept (hm.sub rfl)
    assumption
  · intro h1
    apply Kept.ite
    · intro h3
      apply windowCancel_kept (hm.sub rfl)
      assumption
    · intro h3
      apply setRecord_kept (hm.sub rfl)
      assumption

theorem windowPatch_kept (hm : Has m 0x22) (x0 : ℕ) (x1 : ℕ) (x2 : Bytes) (s : State)
    (hs : Kept m s₀ s) :
    Kept m s₀ (windowPatch x0 x1 x2 s) := by
  unfold windowPatch
  apply Kept.ite
  · intro h1
    apply windowRefused_kept (hm.sub rfl)
    assumption
  · intro h1
    apply setRecord_kept (hm.sub rfl)
    assumption

theorem windowWrite_kept (hm : Has m 0x64401aa) (x0 : ℕ) (x1 : ℕ) (x2 : Bytes) (s : State)
    (hs : Kept m s₀ s) :
    Kept m s₀ (windowWrite x0 x1 x2 s) := by
  unfold windowWrite
  apply Kept.ite
  · intro h1
    apply badAccess_kept (hm.sub rfl)
    assumption
  · intro h1
    apply Kept.ite
    · intro h3
      apply windowWord_kept (hm.sub rfl)
      apply Kept.ite
      · intro h6
        apply windowPatch_kept (hm.sub rfl)
        assumption
      · exact fun _ => by assumption
    · intro h3
      apply windowPatch_kept (hm.sub rfl)
      assumption

theorem cancelAccepted_kept (hm : Has m 0x44000e8) (x0 : ℕ) (s : State)
    (hs : Kept m s₀ s) :
    Kept m s₀ (cancelAccepted x0 s) := by
  unfold cancelAccepted
  dsimp only
  apply Kept.ite
  · exact fun _ => by assumption
  · intro h2
    apply launchUpd_kept (hm.sub rfl)
    apply upd_kept (hm.sub rfl)
    · intro y05 h6
      apply lanokSend_kept (hm.sub rfl)
      assumption
    · apply freeLaunchClaims_kept (hm.sub rfl)
      apply dropAssignClaim_kept (hm.sub rfl)
      assumption

theorem writeLaunchCancel_kept (hm : Has m 0x64631fa) (x0 : Inst) (x1 : ℕ) (x2 : ℕ) (x3 : Status) (s : State)
    (hs : Kept m s₀ s) :
    Kept m s₀ (writeLaunchCancel x0 x1 x2 x3 s) := by
  unfold writeLaunchCancel
  apply runCmdV_kept (hm.sub rfl)
  · intro y01 h2
    apply cancelAccepted_kept (hm.sub rfl)
    assumption
  · assumption

theorem armAccepted_kept (hm : Has m 0x44000ea) (x0 : ℕ) (x1 : LaunchRec) (s : State)
    (hs : Kept m s₀ s) :
    Kept m s₀ (armAccepted x0 x1 s) := by
  unfold armAccepted
  dsimp only
  apply Kept.ite
  · intro h2
    apply armLaunch_kept (hm.sub rfl)
    assumption
  · intro h2
    split
    · apply armLaunch_kept (hm.sub rfl)
      apply launchCheck_elim (hm.sub rfl) (by assumption)
      assumption
    · apply armFails_kept (hm.sub rfl)
      assumption

theorem execLaunchWakeLead_kept (hm : Has m 0x10000a) (x0 : ℕ) (s : State)
    (hs : Kept m s₀ s) :
    ResAll (Kept m s₀) (execLaunchWakeLead x0 s) := by
  unfold execLaunchWakeLead
  dsimp only
  apply ResAll.next
  apply Kept.ite
  · exact fun _ => by assumption
  · intro h3
    apply Kept.ite
    · intro h5
      apply Kept.ite
      · intro h7
        apply wakeHub_kept (hm.sub rfl)
        assumption
      · exact fun _ => by assumption
    · intro h5
      apply Kept.ite
      · intro h7
        apply Kept.ite
        · intro h9
          apply wakeHub_kept (hm.sub rfl)
          assumption
        · exact fun _ => by assumption
      · intro h7
        apply Kept.ite
        · exact fun _ => by assumption
        · intro h9
          apply Kept.ite
          · intro h11
            apply leaveLull_kept (hm.sub rfl)
            assumption
          · intro h11
            apply Kept.ite
            · intro h13
              apply wakeDomain_kept (hm.sub rfl)
              assumption
            · exact fun _ => by assumption

theorem execLaunchArm_kept (hm : Has m 0x64401aa) (x0 : Fin 1024) (x1 : ℕ) (s : State)
    (hs : Kept m s₀ s) :
    ResAll (Kept m s₀) (execLaunchArm x0 x1 s) := by
  unfold execLaunchArm
  apply ResAll.next
  apply windowWord_kept (hm.sub rfl)
  assumption

theorem execLaunchWindowWrite_kept (hm : Has m 0x64401aa) (x0 : Fin 1024) (x1 : Fin 32) (x2 : Bytes) (s : State)
    (hs : Kept m s₀ s) :
    ResAll (Kept m s₀) (execLaunchWindowWrite x0 x1 x2 s) := by
  unfold execLaunchWindowWrite
  apply ResAll.next
  apply windowWrite_kept (hm.sub rfl)
  assumption

theorem writeLaunchRecord_kept (hm : Has m 0x64631fa) (x0 : Inst) (x1 : ℕ) (x2 : LaunchRec) (s : State)
    (hs : Kept m s₀ s) :
    Kept m s₀ (writeLaunchRecord x0 x1 x2 s) := by
  unfold writeLaunchRecord
  dsimp only
  apply Kept.ite
  · intro h2
    apply notServed_kept (hm.sub rfl)
    assumption
  · intro h2
    apply Kept.ite
    · intro h4
      apply respond_kept (hm.sub rfl)
      assumption
    · intro h4
      apply Kept.ite
      · intro h6
        apply Kept.ite
        · intro h8
          apply respond_kept (hm.sub rfl)
          assumption
        · intro h8
          split
          · apply OptAll.getD
            · apply repeated_kept (hm.sub rfl)
              assumption
            · apply Kept.ite
              · intro h12
                apply deferAs_kept (hm.sub rfl)
                assumption
              · intro h12
                apply respond_kept (hm.sub rfl)
                apply cancelAccepted_kept (hm.sub rfl)
                apply acceptNow_kept (hm.sub rfl)
                apply launchUpd_kept (hm.sub rfl)
                assumption
          · apply respond_kept (hm.sub rfl)
            assumption
      · intro h6
        apply Kept.ite
        · intro h8
          apply OptAll.getD
          · apply repeated_kept (hm.sub rfl)
            assumption
          · apply Kept.ite
            · intro h11
              apply deferAs_kept (hm.sub rfl)
              assumption
            · intro h11
              apply respond_kept (hm.sub rfl)
              apply setRecord_kept (hm.sub rfl)
              apply acceptNow_kept (hm.sub rfl)
              apply launchUpd_kept (hm.sub rfl)
              assumption
        · intro h8
          split
          · apply respond_kept (hm.sub rfl)
            apply armFails_kept (hm.sub rfl)
            assumption
          · apply OptAll.getD
            · apply repeated_kept (hm.sub rfl)
              assumption
            · apply Kept.ite
              · intro h12
                apply deferAs_kept (hm.sub rfl)
                assumption
              · intro h12
                apply respond_kept (hm.sub rfl)
                apply armAccepted_kept (hm.sub rfl)
                apply acceptNow_kept (hm.sub rfl)
                apply launchUpd_kept (hm.sub rfl)
                assumption

end Sys2Proof.Machine
end

