-- ==== Sys2Proof/Laws/KeptStore.lean ====
section
/-! SUPPORT. Every effect of Machine/Store.lean keeps what `Kept` says. -/
set_option Elab.async false
namespace Sys2Proof.Machine

variable {m : Nat} {s₀ : State}

theorem rowPut_kept (hm : Has m 0x800) (x0 : ℕ) (x1 : Bytes) (s : State)
    (hs : Kept m s₀ s) :
    Kept m s₀ (rowPut x0 x1 s) := by
  unfold rowPut
  apply Kept.foldl
  · intro s1 b2 h3
    apply nodePut_kept (hm.sub rfl)
    assumption
  · assumption

theorem keyStore_kept (hm : Has m 0x806) (x0 : ℕ) (x1 : Bytes) (s : State)
    (hs : Kept m s₀ s) :
    Kept m s₀ (keyStore x0 x1 s) := by
  unfold keyStore
  dsimp only
  apply Kept.ite
  · intro h2
    apply nodePut_kept (hm.sub rfl)
    assumption
  · intro h2
    apply Kept.ite
    · intro h4
      apply rowPut_kept (hm.sub rfl)
      assumption
    · intro h4
      apply Kept.ite
      · intro h6
        apply sectionPut_kept (hm.sub rfl)
        assumption
      · intro h6
        split
        · apply Kept.ite
          · exact fun _ => by assumption
          · intro h9
            apply Kept.ite
            · intro h11
              apply wrBlob_kept (hm.sub rfl)
              assumption
            · intro h11
              apply wr_kept (hm.sub rfl)
              assumption
        · assumption

end Sys2Proof.Machine
end

