-- ==== Sys2Proof/Laws/KeptPair.lean ====
section
/-! SUPPORT. Every effect of Machine/Pair.lean keeps what `Kept` says. -/
set_option Elab.async false
namespace Sys2Proof.Machine

variable {m : Nat} {s₀ : State}

theorem peerConfirm_kept (hm : Has m 0x254010a) (s : State)
    (hs : Kept m s₀ s) :
    Kept m s₀ (peerConfirm s) := by
  unfold peerConfirm
  dsimp only
  apply Kept.ite
  · intro h2
    apply retryHeld_kept (hm.sub rfl)
    refine Kept.pair_put (hm.sub rfl) ?_
    assumption
  · intro h2
    refine Kept.pair_put (hm.sub rfl) ?_
    assumption

theorem setPairState_kept (hm : Has m 0x2) (x0 : ℕ) (s : State)
    (hs : Kept m s₀ s) :
    Kept m s₀ (setPairState x0 s) := by
  unfold setPairState
  apply summary_kept (hm.sub rfl)
  apply wr_kept (hm.sub rfl)
  assumption

theorem enterIsland_kept (hm : Has m 0x6d6fdfa) (s : State)
    (hs : Kept m s₀ s) :
    Kept m s₀ (enterIsland s) := by
  unfold enterIsland
  dsimp only
  apply reselect_kept (hm.sub rfl)
  apply legsDown_kept (hm.sub rfl)
  apply Kept.ite
  · intro h4
    apply setPairState_kept (hm.sub rfl)
    apply wr_kept (hm.sub rfl)
    apply wr_kept (hm.sub rfl)
    apply wr_kept (hm.sub rfl)
    refine Kept.mk' (v := 12583168) (hm.sub rfl) rfl ?_ ?_
    · apply transitionFail_kept (hm.sub rfl)
      assumption
    · intro p hp
      cases p <;> first | exact absurd hp (by dsimp only [StatePart.idx]; decide) | exact Eq.refl _ | exact ⟨Eq.refl _, Eq.refl _, Eq.refl _⟩
  · intro h4
    apply featuresStart_kept (hm.sub rfl)
    apply setPairState_kept (hm.sub rfl)
    apply wr_kept (hm.sub rfl)
    apply wr_kept (hm.sub rfl)
    apply wr_kept (hm.sub rfl)
    refine Kept.mk' (v := 12583168) (hm.sub rfl) rfl ?_ ?_
    · apply transitionFail_kept (hm.sub rfl)
      assumption
    · intro p hp
      cases p <;> first | exact absurd hp (by dsimp only [StatePart.idx]; decide) | exact Eq.refl _ | exact ⟨Eq.refl _, Eq.refl _, Eq.refl _⟩

theorem modeResume_kept (hm : Has m 0x6d7fdfa) (x0 : ℕ) (s : State)
    (hs : Kept m s₀ s) :
    Kept m s₀ (modeResume x0 s) := by
  unfold modeResume
  apply Kept.ite
  · intro h1
    split
    · refine Kept.boot_put (hm.sub rfl) ?_
      apply armHandover_elim (hm.sub rfl) (by assumption)
      refine Kept.boot_put (hm.sub rfl) ?_
      assumption
    · apply enterMode_kept (hm.sub rfl)
      refine Kept.boot_put (hm.sub rfl) ?_
      assumption
  · intro h1
    apply enterMode_kept (hm.sub rfl)
    assumption

theorem modeStart_kept (hm : Has m 0x6d7fdfa) (s : State)
    (hs : Kept m s₀ s) :
    Kept m s₀ (modeStart s) := by
  unfold modeStart
  dsimp only
  apply Kept.ite
  · intro h2
    apply retryHeld_kept (hm.sub rfl)
    apply wr_kept (hm.sub rfl)
    apply wr_kept (hm.sub rfl)
    apply upd_kept (hm.sub rfl)
    · intro y07 h8
      apply trialEnd_kept (hm.sub rfl)
      assumption
    · refine Kept.mk' (v := 12582912) (hm.sub rfl) rfl ?_ ?_
      · assumption
      · intro p hp
        cases p <;> first | exact absurd hp (by dsimp only [StatePart.idx]; decide) | exact Eq.refl _ | exact ⟨Eq.refl _, Eq.refl _, Eq.refl _⟩
  · intro h2
    apply Kept.ite
    · intro h4
      apply enterIsland_kept (hm.sub rfl)
      apply upd_kept (hm.sub rfl)
      · intro y07 h8
        apply trialEnd_kept (hm.sub rfl)
        assumption
      · apply wr_kept (hm.sub rfl)
        refine Kept.mk' (v := 12582912) (hm.sub rfl) rfl ?_ ?_
        · assumption
        · intro p hp
          cases p <;> first | exact absurd hp (by dsimp only [StatePart.idx]; decide) | exact Eq.refl _ | exact ⟨Eq.refl _, Eq.refl _, Eq.refl _⟩
    · intro h4
      apply retryHeld_kept (hm.sub rfl)
      split
      · apply enterSafe_kept (hm.sub rfl)
        refine Kept.mk' (v := 12582912) (hm.sub rfl) rfl ?_ ?_
        · assumption
        · intro p hp
          cases p <;> first | exact absurd hp (by dsimp only [StatePart.idx]; decide) | exact Eq.refl _ | exact ⟨Eq.refl _, Eq.refl _, Eq.refl _⟩
      · apply Kept.ite
        · intro h8
          apply modeResume_kept (hm.sub rfl)
          refine Kept.mk' (v := 12582912) (hm.sub rfl) rfl ?_ ?_
          · assumption
          · intro p hp
            cases p <;> first | exact absurd hp (by dsimp only [StatePart.idx]; decide) | exact Eq.refl _ | exact ⟨Eq.refl _, Eq.refl _, Eq.refl _⟩
        · intro h8
          apply summary_kept (hm.sub rfl)
          apply enterMode_kept (hm.sub rfl)
          refine Kept.mk' (v := 12582912) (hm.sub rfl) rfl ?_ ?_
          · assumption
          · intro p hp
            cases p <;> first | exact absurd hp (by dsimp only [StatePart.idx]; decide) | exact Eq.refl _ | exact ⟨Eq.refl _, Eq.refl _, Eq.refl _⟩

theorem becomeStandby_kept (hm : Has m 0x2d7f7fa) (s : State) (hs : Kept m s₀ s) : Kept m s₀ (becomeStandby s) := by
  have first : ∀ u n, Kept m s₀ u → Kept m s₀ { u with
      sch.journal := u.sch.journal.filter (fun e => decide (e.accept ≤ n)), sch.nextAccept := n + 1, sch.held := []
      sch.ready := [], sch.hold := [], sch.delay := [], sch.running := [], sch.inflight := [], sch.cpRunning := none
      pair.holding := false, pair.handing := false, pair.splitAt := none, pair.held := n, pair.committed := n
      pair.freed := freedReach u, pair.master := false, pair.startAt := none, boot.restart := true } := by
    intro u n hu
    refine Kept.mk' (v := 12583168) (hm.sub rfl) rfl hu ?_
    intro p hp
    cases p <;> first | exact absurd hp (by dsimp only [StatePart.idx]; decide) | rfl | exact ⟨rfl, rfl, rfl⟩
  have second : ∀ u x, Kept m s₀ u →
      Kept m s₀ (if modeOf u = mIsland then wr K.MODE_SINCE (nowNs u) (wr K.MODE x u) else u) := by
    intro u x hu
    split
    · exact wr_kept (hm.sub rfl) _ _ _ (wr_kept (hm.sub rfl) _ _ _ hu)
    · exact hu
  unfold becomeStandby
  split
  · exact hs
  · apply reselect_kept (hm.sub rfl)
    apply setPairState_kept (hm.sub rfl)
    apply syncAccept_kept (hm.sub rfl)
    apply wr_kept (hm.sub rfl)
    apply second
    apply first
    exact featuresStop_kept (hm.sub rfl) _ (stopBanks_kept (hm.sub rfl) _ (transitionFail_kept (hm.sub rfl) _ hs))

theorem takeLaunches_kept (hm : Has m 0x44008ea) (s : State)
    (hs : Kept m s₀ s) :
    Kept m s₀ (takeLaunches s) := by
  unfold takeLaunches
  apply Kept.foldl
  · intro s1 b2 h3
    apply Kept.ite
    · exact fun _ => by assumption
    · intro h5
      apply Kept.ite
      · intro h7
        apply launchFailed_kept (hm.sub rfl)
        assumption
      · intro h7
        apply carryLaunch_kept (hm.sub rfl)
        assumption
  · assumption

theorem reapplyCmd_kept (hm : Has m 0x4400aee) (x0 : ℕ) (x1 : ℕ) (x2 : Bytes) (s : State)
    (hs : Kept m s₀ s) :
    OptAll (Kept m s₀) (reapplyCmd x0 x1 x2 s) := by
  unfold reapplyCmd
  dsimp only
  apply OptAll.ite
  · intro h2
    apply OptAll.some
    apply wr_kept (hm.sub rfl)
    assumption
  · intro h2
    apply OptAll.ite
    · intro h4
      apply OptAll.some
      apply Kept.ite
      · intro h7
        apply cancelAccepted_kept (hm.sub rfl)
        assumption
      · intro h7
        apply Kept.ite
        · intro h9
          apply armAccepted_kept (hm.sub rfl)
          assumption
        · intro h9
          apply setRecord_kept (hm.sub rfl)
          assumption
    · intro h4
      apply OptAll.ite
      · intro h6
        apply OptAll.some
        apply cancelAccepted_kept (hm.sub rfl)
        assumption
      · intro h6
        apply OptAll.ite
        · intro h8
          apply OptAll.some
          apply Kept.ite
          · intro h11
            apply xpBankUpd_kept (hm.sub rfl)
            assumption
          · intro h11
            apply eqBankUpd_kept (hm.sub rfl)
            assumption
        · intro h8
          apply OptAll.ite
          · intro h10
            apply OptAll.some
            apply xpBankUpd_kept (hm.sub rfl)
            assumption
          · intro h10
            apply OptAll.ite
            · intro h12
              apply OptAll.some
              apply kunload_kept (hm.sub rfl)
              assumption
            · intro h12
              apply OptAll.ite
              · intro h14
                apply OptAll.some
                apply wrBlob_kept (hm.sub rfl)
                assumption
              · exact fun _ => OptAll.none

theorem reapplyCmd_elim {x0 : ℕ} {x1 : ℕ} {x2 : Bytes} {s : State}  {t : State} (hm : Has m 0x4400aee) (e : (reapplyCmd x0 x1 x2 s) = (some t))
    (hs : Kept m s₀ s) : Kept m s₀ t := by
  have hk := reapplyCmd_kept hm x0 x1 x2 s hs
  rw [e] at hk
  exact (OptAll.elim hk rfl)

theorem reapplyWrite_kept (hm : Has m 0x4400aee) (x0 : Inst) (x1 : ℕ) (x2 : ℕ) (x3 : Bytes) (s : State)
    (hs : Kept m s₀ s) :
    Kept m s₀ (reapplyWrite x0 x1 x2 x3 s) := by
  unfold reapplyWrite
  apply OptAll.getD
  · apply reapplyCmd_kept (hm.sub rfl)
    assumption
  · apply keyStore_kept (hm.sub rfl)
    assumption

theorem reapplyEvent_kept (hm : Has m 0x42) (x0 : ℕ) (x1 : ℕ) (s : State)
    (hs : Kept m s₀ s) :
    Kept m s₀ (reapplyEvent x0 x1 s) := by
  unfold reapplyEvent
  dsimp only
  apply Kept.ite
  · intro h2
    apply countVote_kept (hm.sub rfl)
    apply nodeUpd_kept (hm.sub rfl)
    assumption
  · intro h2
    apply nodeUpd_kept (hm.sub rfl)
    assumption

theorem reapplyLeg_kept (hm : Has m 0x2) (x0 : ℕ) (x1 : ℕ) (x2 : ℕ) (x3 : Bytes) (s : State)
    (hs : Kept m s₀ s) :
    Kept m s₀ (reapplyLeg x0 x1 x2 x3 s) := by
  unfold reapplyLeg
  dsimp only
  split
  · apply wr_kept (hm.sub rfl)
    apply wr_kept (hm.sub rfl)
    assumption
  · apply wr_kept (hm.sub rfl)
    apply wr_kept (hm.sub rfl)
    assumption
  · apply wr_kept (hm.sub rfl)
    apply wr_kept (hm.sub rfl)
    assumption
  · apply wr_kept (hm.sub rfl)
    apply wr_kept (hm.sub rfl)
    assumption
  · apply wr_kept (hm.sub rfl)
    assumption

theorem reapply_kept (hm : Has m 0x5400aee) (x0 : JEntry) (s : State)
    (hs : Kept m s₀ s) :
    Kept m s₀ (reapply x0 s) := by
  unfold reapply
  split
  · apply reapplyWrite_kept (hm.sub rfl)
    assumption
  · apply reapplyWrite_kept (hm.sub rfl)
    assumption
  · apply Kept.foldl
    · intro s2 b3 h4
      apply reapplyWrite_kept (hm.sub rfl)
      assumption
    · assumption
  · apply reapplyEvent_kept (hm.sub rfl)
    assumption
  · apply nodeUpd_kept (hm.sub rfl)
    assumption
  · apply armAccepted_kept (hm.sub rfl)
    assumption
  · apply cancelAccepted_kept (hm.sub rfl)
    assumption
  · apply reapplyLeg_kept (hm.sub rfl)
    assumption
  · apply sealVote_kept (hm.sub rfl)
    assumption
  · assumption

theorem takeEntries_kept (hm : Has m 0x7440bee) (s : State)
    (hs : Kept m s₀ s) :
    Kept m s₀ (takeEntries s) := by
  unfold takeEntries
  apply Kept.foldl
  · intro s1 b2 h3
    apply Kept.ite
    · exact fun _ => by assumption
    · intro h5
      split
      · apply replayItem_kept (hm.sub rfl)
        apply jrnlUpd_kept (hm.sub rfl)
        assumption
      · apply jrnlCommit_kept (hm.sub rfl)
        apply jrnlUpd_kept (hm.sub rfl)
        apply reapply_kept (hm.sub rfl)
        assumption
  · assumption

theorem slotsResume_kept (hm : Has m 0x4000) (x0 : List (ℕ × ℕ × ℕ)) (s : State)
    (hs : Kept m s₀ s) :
    Kept m s₀ (slotsResume x0 s) := by
  unfold slotsResume
  apply Kept.foldl
  · intro s1 b2 h3
    apply Kept.foldl
    · intro s5 b6 h7
      dsimp only
      split
      · apply slotUpd_kept (hm.sub rfl)
        assumption
      · assumption
    · assumption
  · assumption

theorem becomeActive_kept (hm : Has m 0x7d7fffe) (x0 : ℕ) (x1 : ℕ) (x2 : List (ℕ × ℕ × ℕ)) (s : State)
    (hs : Kept m s₀ s) :
    Kept m s₀ (becomeActive x0 x1 x2 s) := by
  unfold becomeActive
  dsimp only
  apply retryHeld_kept (hm.sub rfl)
  apply upd_kept (hm.sub rfl)
  · intro y03 h4
    split
    · apply armHandover_elim (hm.sub rfl) (by assumption)
      assumption
    · assumption
  · apply Kept.foldl
    · intro s4 b5 h6
      apply emit_kept (hm.sub rfl)
      assumption
    · apply legsUp_kept (hm.sub rfl)
      apply enterMode_kept (hm.sub rfl)
      refine Kept.boot_put (hm.sub rfl) ?_
      apply upd_kept (hm.sub rfl)
      · intro y08 h9
        refine Kept.pair_put (hm.sub rfl) ?_
        assumption
      · apply slotsResume_kept (hm.sub rfl)
        apply takeLaunches_kept (hm.sub rfl)
        apply syncAccept_kept (hm.sub rfl)
        apply takeEntries_kept (hm.sub rfl)
        refine Kept.sch_put (hm.sub rfl) ?_
        apply upd_kept (hm.sub rfl)
        · intro y014 h15
          apply pairSend_kept (hm.sub rfl)
          assumption
        · refine Kept.pair_put (hm.sub rfl) ?_
          apply reselect_kept (hm.sub rfl)
          apply setPairState_kept (hm.sub rfl)
          apply wr_kept (hm.sub rfl)
          apply wr_kept (hm.sub rfl)
          assumption

theorem roleFacts_kept (hm : Has m 0x7d7fffe) (x0 : PHdr) (x1 : ℕ) (x2 : ℕ) (s : State)
    (hs : Kept m s₀ s) :
    Kept m s₀ (roleFacts x0 x1 x2 s) := by
  unfold roleFacts
  dsimp only
  apply Kept.ite
  · intro h2
    apply Kept.ite
    · intro h4
      apply modeStart_kept (hm.sub rfl)
      apply becomeStandby_kept (hm.sub rfl)
      assumption
    · intro h4
      apply Kept.ite
      · intro h6
        apply modeStart_kept (hm.sub rfl)
        apply reselect_kept (hm.sub rfl)
        apply setPairState_kept (hm.sub rfl)
        apply wr_kept (hm.sub rfl)
        assumption
      · exact fun _ => by assumption
  · intro h2
    apply Kept.ite
    · intro h4
      apply Kept.ite
      · intro h6
        apply becomeStandby_kept (hm.sub rfl)
        assumption
      · intro h6
        apply Kept.ite
        · intro h8
          apply Kept.ite
          · intro h10
            apply becomeActive_kept (hm.sub rfl)
            assumption
          · intro h10
            apply becomeStandby_kept (hm.sub rfl)
            assumption
        · exact fun _ => by assumption
    · intro h4
      apply Kept.ite
      · intro h6
        apply becomeStandby_kept (hm.sub rfl)
        apply wr_kept (hm.sub rfl)
        assumption
      · exact fun _ => by assumption

theorem takeover_kept (hm : Has m 0x7d7fffe) (x0 : Bool) (s : State)
    (hs : Kept m s₀ s) :
    Kept m s₀ (takeover x0 s) := by
  unfold takeover
  dsimp only
  apply becomeActive_kept (hm.sub rfl)
  apply wr_kept (hm.sub rfl)
  apply upd_kept (hm.sub rfl)
  · intro y04 h5
    apply bump_kept (hm.sub rfl)
    assumption
  · apply bump_kept (hm.sub rfl)
    apply wr_kept (hm.sub rfl)
    assumption

theorem beaconFacts_kept (hm : Has m 0x7d7fffe) (x0 : ℕ) (x1 : ℕ) (x2 : Bool) (x3 : ℕ) (x4 : ℕ) (s : State)
    (hs : Kept m s₀ s) :
    Kept m s₀ (beaconFacts x0 x1 x2 x3 x4 s) := by
  unfold beaconFacts
  apply Kept.ite
  · exact fun _ => by assumption
  · intro h1
    dsimp only
    apply Kept.ite
    · intro h4
      apply Kept.ite
      · intro h6
        apply peerConfirm_kept (hm.sub rfl)
        apply wr_kept (hm.sub rfl)
        refine Kept.pair_put (hm.sub rfl) ?_
        assumption
      · intro h6
        apply roleFacts_kept (hm.sub rfl)
        apply peerConfirm_kept (hm.sub rfl)
        apply wr_kept (hm.sub rfl)
        refine Kept.pair_put (hm.sub rfl) ?_
        assumption
    · intro h4
      apply Kept.ite
      · intro h6
        apply Kept.ite
        · intro h8
          apply takeover_kept (hm.sub rfl)
          apply Kept.ite
          · intro h11
            apply peerConfirm_kept (hm.sub rfl)
            apply wr_kept (hm.sub rfl)
            refine Kept.pair_put (hm.sub rfl) ?_
            assumption
          · intro h11
            apply roleFacts_kept (hm.sub rfl)
            apply peerConfirm_kept (hm.sub rfl)
            apply wr_kept (hm.sub rfl)
            refine Kept.pair_put (hm.sub rfl) ?_
            assumption
        · intro h8
          apply setPairState_kept (hm.sub rfl)
          apply Kept.ite
          · intro h11
            apply peerConfirm_kept (hm.sub rfl)
            apply wr_kept (hm.sub rfl)
            refine Kept.pair_put (hm.sub rfl) ?_
            assumption
          · intro h11
            apply roleFacts_kept (hm.sub rfl)
            apply peerConfirm_kept (hm.sub rfl)
            apply wr_kept (hm.sub rfl)
            refine Kept.pair_put (hm.sub rfl) ?_
            assumption
      · intro h6
        apply Kept.ite
        · intro h8
          apply setPairState_kept (hm.sub rfl)
          apply Kept.ite
          · intro h11
            apply peerConfirm_kept (hm.sub rfl)
            apply wr_kept (hm.sub rfl)
            refine Kept.pair_put (hm.sub rfl) ?_
            assumption
          · intro h11
            apply roleFacts_kept (hm.sub rfl)
            apply peerConfirm_kept (hm.sub rfl)
            apply wr_kept (hm.sub rfl)
            refine Kept.pair_put (hm.sub rfl) ?_
            assumption
        · intro h8
          apply Kept.ite
          · intro h10
            apply peerConfirm_kept (hm.sub rfl)
            apply wr_kept (hm.sub rfl)
            refine Kept.pair_put (hm.sub rfl) ?_
            assumption
          · intro h10
            apply roleFacts_kept (hm.sub rfl)
            apply peerConfirm_kept (hm.sub rfl)
            apply wr_kept (hm.sub rfl)
            refine Kept.pair_put (hm.sub rfl) ?_
            assumption

theorem claimsWf_rebuilt (l : List (Nat × Nat)) (t : Tab Nat) (h : claimsWf t = true) :
    claimsWf (l.foldl (fun t e => tabSet 0 t e.1 e.2) t) = true := by
  induction l generalizing t with
  | nil => exact h
  | cons e l ih => exact ih _ (claimsWf_tabSet t _ _ h)

theorem regsWf_replaceKeys (p : Nat → Bool) (own copy : Tab Nat) (h : regsWf own = true) :
    regsWf (replaceKeys p (fun t k v => tabSet (regDefault k) t k (v % regModulus k)) own copy) = true := by
  have walk : ∀ (l : List (Nat × Nat)) (t : Tab Nat), regsWf t = true →
      regsWf (l.foldl (fun t e => tabSet (regDefault e.1) t e.1 (e.2 % regModulus e.1)) t) = true := by
    intro l
    induction l with
    | nil => exact fun _ h => h
    | cons e l ih => exact fun t h => ih _ (regsWf_tabSet t _ _ h)
  unfold replaceKeys
  exact walk _ _ (regsWf_filter own _ h)

theorem loadValues_kept (hm : Has m 0x40008e6) (c : Snapshot) (s : State) (hs : Kept m s₀ s) : Kept m s₀ (loadValues c s) := by
  unfold loadValues
  dsimp only
  apply Kept.foldl
  · intro u n hu
    exact nodeUpd_kept (hm.sub rfl) _ _ _ hu
  · exact hs.trans { Kept.refl (m := m) s with
      regs := regsWf_replaceKeys _ _ _
      claims := fun _ => claimsWf_rebuilt _ [] rfl
      parts := SameBut.grow (v := 0x40008e6)
        (by intro p hp; cases p <;> first | exact absurd hp (by dsimp only [StatePart.idx]; decide) | rfl | exact ⟨rfl, rfl, rfl⟩) (hm.sub rfl) }

theorem linkLost_kept (hm : Has m 0xd230fa) (s : State)
    (hs : Kept m s₀ s) :
    Kept m s₀ (linkLost s) := by
  unfold linkLost
  dsimp only
  apply upd_kept (hm.sub rfl)
  · intro y02 h3
    apply wakeHub_kept (hm.sub rfl)
    assumption
  · apply Kept.ite
    · intro h3
      apply Kept.ite
      · intro h5
        apply reselect_kept (hm.sub rfl)
        apply wr_kept (hm.sub rfl)
        apply upd_kept (hm.sub rfl)
        · intro y09 h10
          apply cmdComplete_kept (hm.sub rfl)
          assumption
        · refine Kept.mk' (v := 4194336) (hm.sub rfl) rfl ?_ ?_
          · assumption
          · intro p hp
            cases p <;> first | exact absurd hp (by dsimp only [StatePart.idx]; decide) | exact Eq.refl _ | exact ⟨Eq.refl _, Eq.refl _, Eq.refl _⟩
      · intro h5
        apply setPairState_kept (hm.sub rfl)
        apply reselect_kept (hm.sub rfl)
        apply wr_kept (hm.sub rfl)
        apply upd_kept (hm.sub rfl)
        · intro y010 h11
          apply cmdComplete_kept (hm.sub rfl)
          assumption
        · refine Kept.mk' (v := 4194336) (hm.sub rfl) rfl ?_ ?_
          · assumption
          · intro p hp
            cases p <;> first | exact absurd hp (by dsimp only [StatePart.idx]; decide) | exact Eq.refl _ | exact ⟨Eq.refl _, Eq.refl _, Eq.refl _⟩
    · intro h3
      apply reselect_kept (hm.sub rfl)
      apply wr_kept (hm.sub rfl)
      apply upd_kept (hm.sub rfl)
      · intro y07 h8
        apply cmdComplete_kept (hm.sub rfl)
        assumption
      · refine Kept.mk' (v := 4194336) (hm.sub rfl) rfl ?_ ?_
        · assumption
        · intro p hp
          cases p <;> first | exact absurd hp (by dsimp only [StatePart.idx]; decide) | exact Eq.refl _ | exact ⟨Eq.refl _, Eq.refl _, Eq.refl _⟩

theorem execPairLinkDown_kept (hm : Has m 0xd230fa) (s : State)
    (hs : Kept m s₀ s) :
    ResAll (Kept m s₀) (execPairLinkDown s) := by
  unfold execPairLinkDown
  apply ResAll.next
  apply Kept.ite
  · intro h2
    apply linkLost_kept (hm.sub rfl)
    assumption
  · exact fun _ => by assumption

theorem execBridgeBeacon_kept (hm : Has m 0x7d7fffe) (x0 : ℕ) (x1 : ℕ) (x2 : ℕ) (x3 : Bool) (x4 : Bool) (x5 : Bool) (x6 : ℕ) (x7 : ℕ) (s : State)
    (hs : Kept m s₀ s) :
    ResAll (Kept m s₀) (execBridgeBeacon x0 x1 x2 x3 x4 x5 x6 x7 s) := by
  unfold execBridgeBeacon
  dsimp only
  apply ResAll.next
  apply beaconFacts_kept (hm.sub rfl)
  assumption

theorem switchGo_kept (hm : Has m 0xd3f4fa) (s : State)
    (hs : Kept m s₀ s) :
    Kept m s₀ (switchGo s) := by
  unfold switchGo
  apply Kept.ite
  · intro h1
    apply switchover_kept (hm.sub rfl)
    assumption
  · intro h1
    apply pairSend_kept (hm.sub rfl)
    assumption

theorem writeSwitchover_kept (hm : Has m 0x2d7f5fa) (x0 : Inst) (x1 : ℕ) (s : State)
    (hs : Kept m s₀ s) :
    Kept m s₀ (writeSwitchover x0 x1 s) := by
  unfold writeSwitchover
  apply runPending_kept (hm.sub rfl)
  · intro y01 h2
    apply switchGo_kept (hm.sub rfl)
    assumption
  · assumption

theorem onPeer_kept (hm : Has m 0x254410a) (x0 : Bool) (x1 : PHdr) (x2 : State → State) (s : State)
    (hf2 : ∀ y0, Kept m s₀ y0 → (Kept m s₀) (x2 y0)) (hs : Kept m s₀ s) :
    ResAll (Kept m s₀) (onPeer x0 x1 x2 s) := by
  unfold onPeer
  apply onPair_kept (hm.sub rfl)
  · intro y01 h2
    dsimp only
    apply hf2
    apply peerConfirm_kept (hm.sub rfl)
    apply Kept.ite
    · intro h7
      apply wr_kept (hm.sub rfl)
      assumption
    · exact fun _ => by assumption
  · assumption

theorem execRelayDown_kept (hm : Has m 0x254414a) (x0 : PHdr) (x1 : ℕ) (x2 : List (List ℤ)) (s : State)
    (hs : Kept m s₀ s) :
    ResAll (Kept m s₀) (execRelayDown x0 x1 x2 s) := by
  unfold execRelayDown
  apply onPeer_kept (hm.sub rfl)
  · intro y01 h2
    apply Kept.ite
    · intro h4
      apply lanokSend_kept (hm.sub rfl)
      assumption
    · exact fun _ => by assumption
  · assumption

theorem execJrnlMark_kept (hm : Has m 0x7544bee) (x0 : PHdr) (x1 : ℕ) (x2 : ℕ) (s : State)
    (hs : Kept m s₀ s) :
    ResAll (Kept m s₀) (execJrnlMark x0 x1 x2 s) := by
  unfold execJrnlMark
  apply onPeer_kept (hm.sub rfl)
  · intro y01 h2
    apply Kept.ite
    · exact fun _ => by assumption
    · intro h4
      dsimp only
      refine Kept.mk' (v := 4194560) (hm.sub rfl) rfl ?_ ?_
      · apply Kept.foldl
        · intro s8 b9 h10
          apply Kept.ite
          · intro h12
            apply jrnlUpd_kept (hm.sub rfl)
            apply reapply_kept (hm.sub rfl)
            assumption
          · exact fun _ => by assumption
        · assumption
      · intro p hp
        cases p <;> first | exact absurd hp (by dsimp only [StatePart.idx]; decide) | exact Eq.refl _ | exact ⟨Eq.refl _, Eq.refl _, Eq.refl _⟩
  · assumption

theorem execPairTimeEcho_kept (hm : Has m 0x254410a) (x0 : PHdr) (x1 : ℕ) (x2 : ℕ) (s : State)
    (hs : Kept m s₀ s) :
    ResAll (Kept m s₀) (execPairTimeEcho x0 x1 x2 s) := by
  unfold execPairTimeEcho
  apply onPeer_kept (hm.sub rfl)
  · intro y01 h2
    apply Kept.ite
    · intro h4
      refine Kept.pair_put (hm.sub rfl) ?_
      assumption
    · intro h4
      apply pairSend_kept (hm.sub rfl)
      assumption
  · assumption

theorem sendEntries_kept (hm : Has m 0x400008) (x0 : ℕ) (x1 : List JEntry) (s : State)
    (hs : Kept m s₀ s) :
    Kept m s₀ (sendEntries x0 x1 s) := by
  unfold sendEntries
  split
  · assumption
  · apply Kept.ite
    · exact fun _ => by assumption
    · intro h2
      apply sendEntries_kept (hm.sub rfl)
      apply pairSend_kept (hm.sub rfl)
      assumption

theorem execBeacon_kept (hm : Has m 0x7d7fffe) (x0 : ℕ) (x1 : ℕ) (x2 : ℕ) (x3 : Bool) (x4 : Bool) (x5 : Bool) (x6 : ℕ) (x7 : ℕ) (x8 : ℕ) (s : State)
    (hs : Kept m s₀ s) :
    ResAll (Kept m s₀) (execBeacon x0 x1 x2 x3 x4 x5 x6 x7 x8 s) := by
  unfold execBeacon
  dsimp only
  apply ResAll.next
  apply upd_kept (hm.sub rfl)
  · intro y03 h4
    apply beaconFacts_kept (hm.sub rfl)
    assumption
  · apply Kept.ite
    · intro h4
      refine Kept.pair_put (hm.sub rfl) ?_
      assumption
    · intro h4
      apply Kept.ite
      · intro h6
        refine Kept.pair_put (hm.sub rfl) ?_
        assumption
      · exact fun _ => by assumption

theorem loadSnapshot_kept (hm : Has m 0x44009e6) (x0 : Snapshot) (s : State)
    (hs : Kept m s₀ s) :
    Kept m s₀ (loadSnapshot x0 s) := by
  unfold loadSnapshot
  apply syncAccept_kept (hm.sub rfl)
  dsimp only
  refine Kept.mk' (v := 4194560) (hm.sub rfl) rfl ?_ ?_
  · apply loadValues_kept (hm.sub rfl)
    assumption
  · intro p hp
    cases p <;> first | exact absurd hp (by dsimp only [StatePart.idx]; decide) | exact Eq.refl _ | exact ⟨Eq.refl _, Eq.refl _, Eq.refl _⟩

theorem execPairLinkUp_kept (hm : Has m 0x40000a) (s : State)
    (hs : Kept m s₀ s) :
    ResAll (Kept m s₀) (execPairLinkUp s) := by
  unfold execPairLinkUp
  apply ResAll.ite
  · intro h1
    apply ResAll.next
    assumption
  · intro h1
    dsimp only
    apply ResAll.next
    apply Kept.ite
    · intro h5
      apply pairSend_kept (hm.sub rfl)
      refine Kept.pair_put (hm.sub rfl) ?_
      apply pairSend_kept (hm.sub rfl)
      apply wr_kept (hm.sub rfl)
      refine Kept.pair_put (hm.sub rfl) ?_
      assumption
    · intro h5
      apply pairSend_kept (hm.sub rfl)
      apply wr_kept (hm.sub rfl)
      refine Kept.pair_put (hm.sub rfl) ?_
      assumption

theorem execTakeTimeout_kept (hm : Has m 0x400000) (s : State)
    (hs : Kept m s₀ s) :
    ResAll (Kept m s₀) (execTakeTimeout s) := by
  unfold execTakeTimeout
  apply ResAll.next
  split
  · apply Kept.ite
    · intro h3
      refine Kept.pair_put (hm.sub rfl) ?_
      assumption
    · exact fun _ => by assumption
  · assumption

theorem execBeaconTimeout_kept (hm : Has m 0x50000a) (s : State)
    (hs : Kept m s₀ s) :
    ResAll (Kept m s₀) (execBeaconTimeout s) := by
  unfold execBeaconTimeout
  apply ResAll.next
  apply Kept.ite
  · intro h2
    dsimp only
    apply upd_kept (hm.sub rfl)
    · intro y05 h6
      apply wakeHub_kept (hm.sub rfl)
      assumption
    · apply bump_kept (hm.sub rfl)
      refine Kept.pair_put (hm.sub rfl) ?_
      assumption
  · exact fun _ => by assumption

theorem execMasterSwitch_kept (hm : Has m 0x400040) (s : State)
    (hs : Kept m s₀ s) :
    ResAll (Kept m s₀) (execMasterSwitch s) := by
  unfold execMasterSwitch
  split
  · apply ResAll.next
    assumption
  · apply ResAll.ite
    · intro h2
      apply ResAll.next
      assumption
    · intro h2
      dsimp only
      apply ResAll.next
      apply Kept.ite
      · intro h6
        refine Kept.mk' (v := 4194368) (hm.sub rfl) rfl ?_ ?_
        · assumption
        · intro p hp
          cases p <;> first | exact absurd hp (by dsimp only [StatePart.idx]; decide) | exact Eq.refl _ | exact ⟨Eq.refl _, Eq.refl _, Eq.refl _⟩
      · intro h6
        refine Kept.pair_put (hm.sub rfl) ?_
        assumption

theorem execJrnlCopy_kept (hm : Has m 0x254410a) (x0 : PHdr) (x1 : List JEntry) (s : State)
    (hs : Kept m s₀ s) :
    ResAll (Kept m s₀) (execJrnlCopy x0 x1 s) := by
  unfold execJrnlCopy
  apply onPeer_kept (hm.sub rfl)
  · intro y01 h2
    apply Kept.ite
    · exact fun _ => by assumption
    · intro h4
      dsimp only
      apply pairSend_kept (hm.sub rfl)
      apply syncAccept_kept (hm.sub rfl)
      refine Kept.mk' (v := 4194560) (hm.sub rfl) rfl ?_ ?_
      · assumption
      · intro p hp
        cases p <;> first | exact absurd hp (by dsimp only [StatePart.idx]; decide) | exact Eq.refl _ | exact ⟨Eq.refl _, Eq.refl _, Eq.refl _⟩
  · assumption

theorem execRole_kept (hm : Has m 0x7d7fffe) (x0 : PHdr) (x1 : ℕ) (x2 : ℕ) (x3 : ℕ) (x4 : List (ℕ × ℕ × ℕ)) (s : State)
    (hs : Kept m s₀ s) :
    ResAll (Kept m s₀) (execRole x0 x1 x2 x3 x4 s) := by
  unfold execRole
  apply onPeer_kept (hm.sub rfl)
  · intro y01 h2
    apply Kept.ite
    · intro h4
      apply Kept.ite
      · intro h6
        apply switchover_kept (hm.sub rfl)
        assumption
      · exact fun _ => by assumption
    · intro h4
      apply Kept.ite
      · intro h6
        apply cmdComplete_kept (hm.sub rfl)
        apply becomeActive_kept (hm.sub rfl)
        assumption
      · intro h6
        apply Kept.ite
        · intro h8
          apply becomeStandby_kept (hm.sub rfl)
          apply wr_kept (hm.sub rfl)
          assumption
        · exact fun _ => by assumption
  · assumption

theorem execJrnlAck_kept (hm : Has m 0x2d7f5fa) (x0 : PHdr) (x1 : ℕ) (s : State)
    (hs : Kept m s₀ s) :
    ResAll (Kept m s₀) (execJrnlAck x0 x1 s) := by
  unfold execJrnlAck
  apply onPeer_kept (hm.sub rfl)
  · intro y01 h2
    apply Kept.ite
    · exact fun _ => by assumption
    · intro h4
      dsimp only
      apply handOver_kept (hm.sub rfl)
      apply Kept.ite
      · intro h8
        refine Kept.mk' (v := 4194560) (hm.sub rfl) rfl ?_ ?_
        · assumption
        · intro p hp
          cases p <;> first | exact absurd hp (by dsimp only [StatePart.idx]; decide) | exact Eq.refl _ | exact ⟨Eq.refl _, Eq.refl _, Eq.refl _⟩
      · intro h8
        apply Kept.ite
        · intro h10
          apply wr_kept (hm.sub rfl)
          apply setPairState_kept (hm.sub rfl)
          refine Kept.mk' (v := 4194560) (hm.sub rfl) rfl ?_ ?_
          · assumption
          · intro p hp
            cases p <;> first | exact absurd hp (by dsimp only [StatePart.idx]; decide) | exact Eq.refl _ | exact ⟨Eq.refl _, Eq.refl _, Eq.refl _⟩
        · intro h10
          apply wr_kept (hm.sub rfl)
          refine Kept.mk' (v := 4194560) (hm.sub rfl) rfl ?_ ?_
          · assumption
          · intro p hp
            cases p <;> first | exact absurd hp (by dsimp only [StatePart.idx]; decide) | exact Eq.refl _ | exact ⟨Eq.refl _, Eq.refl _, Eq.refl _⟩
  · assumption

theorem startSync_kept (hm : Has m 0x244010a) (s : State)
    (hs : Kept m s₀ s) :
    Kept m s₀ (startSync s) := by
  unfold startSync
  dsimp only
  split
  · apply Kept.ite
    · intro h3
      apply checkpointDone_kept (hm.sub rfl)
      refine Kept.sch_put (hm.sub rfl) ?_
      assumption
    · exact fun _ => by assumption
  · apply markPeer_kept (hm.sub rfl)
    apply sendEntries_kept (hm.sub rfl)
    apply pairSend_kept (hm.sub rfl)
    apply wr_kept (hm.sub rfl)
    apply setPairState_kept (hm.sub rfl)
    refine Kept.pair_put (hm.sub rfl) ?_
    apply Kept.ite
    · intro h9
      apply checkpointDone_kept (hm.sub rfl)
      refine Kept.sch_put (hm.sub rfl) ?_
      assumption
    · exact fun _ => by assumption

theorem execPairHeartbeat_kept (hm : Has m 0x7d7fffe) (x0 : PHdr) (x1 : ℕ) (x2 : ℕ) (x3 : ℕ) (x4 : Bool) (x5 : ℕ) (x6 : ℕ) (x7 : ℕ) (x8 : ℕ) (x9 : Bool) (x10 : ℕ) (s : State)
    (hs : Kept m s₀ s) :
    ResAll (Kept m s₀) (execPairHeartbeat x0 x1 x2 x3 x4 x5 x6 x7 x8 x9 x10 s) := by
  unfold execPairHeartbeat
  apply onPeer_kept (hm.sub rfl)
  · intro y01 h2
    dsimp only
    apply Kept.ite
    · intro h5
      apply Kept.ite
      · intro h7
        apply takeover_kept (hm.sub rfl)
        apply roleFacts_kept (hm.sub rfl)
        apply reselect_kept (hm.sub rfl)
        apply upd_kept (hm.sub rfl)
        · intro y012 h13
          apply disqualify_kept (hm.sub rfl)
          assumption
        · apply upd_kept (hm.sub rfl)
          · intro y013 h14
            apply measured_kept (hm.sub rfl)
            assumption
          · apply wr_kept (hm.sub rfl)
            refine Kept.mk' (v := 4194336) (hm.sub rfl) rfl ?_ ?_
            · assumption
            · intro p hp
              cases p <;> first | exact absurd hp (by dsimp only [StatePart.idx]; decide) | exact Eq.refl _ | exact ⟨Eq.refl _, Eq.refl _, Eq.refl _⟩
      · intro h7
        apply Kept.ite
        · intro h9
          apply Kept.ite
          · intro h11
            apply setPairState_kept (hm.sub rfl)
            apply upd_kept (hm.sub rfl)
            · intro y014 h15
              apply wr_kept (hm.sub rfl)
              assumption
            · apply roleFacts_kept (hm.sub rfl)
              apply reselect_kept (hm.sub rfl)
              apply upd_kept (hm.sub rfl)
              · intro y017 h18
                apply disqualify_kept (hm.sub rfl)
                assumption
              · apply upd_kept (hm.sub rfl)
                · intro y018 h19
                  apply measured_kept (hm.sub rfl)
                  assumption
                · apply wr_kept (hm.sub rfl)
                  refine Kept.mk' (v := 4194336) (hm.sub rfl) rfl ?_ ?_
                  · assumption
                  · intro p hp
                    cases p <;> first | exact absurd hp (by dsimp only [StatePart.idx]; decide) | exact Eq.refl _ | exact ⟨Eq.refl _, Eq.refl _, Eq.refl _⟩
          · intro h11
            apply upd_kept (hm.sub rfl)
            · intro y013 h14
              apply wr_kept (hm.sub rfl)
              assumption
            · apply roleFacts_kept (hm.sub rfl)
              apply reselect_kept (hm.sub rfl)
              apply upd_kept (hm.sub rfl)
              · intro y016 h17
                apply disqualify_kept (hm.sub rfl)
                assumption
              · apply upd_kept (hm.sub rfl)
                · intro y017 h18
                  apply measured_kept (hm.sub rfl)
                  assumption
                · apply wr_kept (hm.sub rfl)
                  refine Kept.mk' (v := 4194336) (hm.sub rfl) rfl ?_ ?_
                  · assumption
                  · intro p hp
                    cases p <;> first | exact absurd hp (by dsimp only [StatePart.idx]; decide) | exact Eq.refl _ | exact ⟨Eq.refl _, Eq.refl _, Eq.refl _⟩
        · intro h9
          apply roleFacts_kept (hm.sub rfl)
          apply reselect_kept (hm.sub rfl)
          apply upd_kept (hm.sub rfl)
          · intro y013 h14
            apply disqualify_kept (hm.sub rfl)
            assumption
          · apply upd_kept (hm.sub rfl)
            · intro y014 h15
              apply measured_kept (hm.sub rfl)
              assumption
            · apply wr_kept (hm.sub rfl)
              refine Kept.mk' (v := 4194336) (hm.sub rfl) rfl ?_ ?_
              · assumption
              · intro p hp
                cases p <;> first | exact absurd hp (by dsimp only [StatePart.idx]; decide) | exact Eq.refl _ | exact ⟨Eq.refl _, Eq.refl _, Eq.refl _⟩
    · intro h5
      apply Kept.ite
      · intro h7
        apply startSync_kept (hm.sub rfl)
        apply roleFacts_kept (hm.sub rfl)
        apply reselect_kept (hm.sub rfl)
        apply upd_kept (hm.sub rfl)
        · intro y012 h13
          apply disqualify_kept (hm.sub rfl)
          assumption
        · apply upd_kept (hm.sub rfl)
          · intro y013 h14
            apply measured_kept (hm.sub rfl)
            assumption
          · apply wr_kept (hm.sub rfl)
            refine Kept.mk' (v := 4194336) (hm.sub rfl) rfl ?_ ?_
            · assumption
            · intro p hp
              cases p <;> first | exact absurd hp (by dsimp only [StatePart.idx]; decide) | exact Eq.refl _ | exact ⟨Eq.refl _, Eq.refl _, Eq.refl _⟩
      · intro h7
        apply roleFacts_kept (hm.sub rfl)
        apply reselect_kept (hm.sub rfl)
        apply upd_kept (hm.sub rfl)
        · intro y011 h12
          apply disqualify_kept (hm.sub rfl)
          assumption
        · apply upd_kept (hm.sub rfl)
          · intro y012 h13
            apply measured_kept (hm.sub rfl)
            assumption
          · apply wr_kept (hm.sub rfl)
            refine Kept.mk' (v := 4194336) (hm.sub rfl) rfl ?_ ?_
            · assumption
            · intro p hp
              cases p <;> first | exact absurd hp (by dsimp only [StatePart.idx]; decide) | exact Eq.refl _ | exact ⟨Eq.refl _, Eq.refl _, Eq.refl _⟩
  · assumption

theorem execPairResend_kept (hm : Has m 0xd230fa) (s : State)
    (hs : Kept m s₀ s) :
    ResAll (Kept m s₀) (execPairResend s) := by
  unfold execPairResend
  split
  · apply ResAll.next
    assumption
  · apply ResAll.ite
    · intro h2
      apply ResAll.next
      assumption
    · intro h2
      apply ResAll.ite
      · intro h4
        apply ResAll.next
        apply linkLost_kept (hm.sub rfl)
        assumption
      · intro h4
        dsimp only
        apply ResAll.next
        apply bumpBy_kept (hm.sub rfl)
        apply Kept.foldl
        · intro s9 b10 h11
          apply pairEmit_kept (hm.sub rfl)
          assumption
        · refine Kept.pair_put (hm.sub rfl) ?_
          assumption

theorem execStagedData_kept (hm : Has m 0x254410a) (x0 : PHdr) (x1 : ℕ) (x2 : ℕ) (x3 : Bytes) (s : State)
    (hs : Kept m s₀ s) :
    ResAll (Kept m s₀) (execStagedData x0 x1 x2 x3 s) := by
  unfold execStagedData
  apply onPeer_kept (hm.sub rfl)
  · intro y01 h2
    apply Kept.ite
    · intro h4
      apply mirrorPut_kept (hm.sub rfl)
      assumption
    · exact fun _ => by assumption
  · assumption

theorem execLegCkpt_kept (hm : Has m 0x25c410a) (x0 : PHdr) (x1 : LegCkpt) (s : State)
    (hs : Kept m s₀ s) :
    ResAll (Kept m s₀) (execLegCkpt x0 x1 s) := by
  unfold execLegCkpt
  apply onPeer_kept (hm.sub rfl)
  · intro y01 h2
    apply Kept.ite
    · exact fun _ => by assumption
    · intro h4
      dsimp only
      apply srtpInUpd_kept (hm.sub rfl)
      apply wr_kept (hm.sub rfl)
      apply legUpd_kept (hm.sub rfl)
      apply Kept.foldl
      · intro s10 b11 h12
        split
        · assumption
        · apply Kept.ite
          · intro h15
            apply slotUpd_kept (hm.sub rfl)
            assumption
          · intro h15
            apply wr_kept (hm.sub rfl)
            apply wr_kept (hm.sub rfl)
            apply slotUpd_kept (hm.sub rfl)
            assumption
      · assumption
  · assumption

theorem execSync_kept (hm : Has m 0x65449ee) (x0 : PHdr) (x1 : ℕ) (x2 : ℕ) (x3 : Option Snapshot) (s : State)
    (hs : Kept m s₀ s) :
    ResAll (Kept m s₀) (execSync x0 x1 x2 x3 s) := by
  unfold execSync
  apply onPeer_kept (hm.sub rfl)
  · intro y01 h2
    apply Kept.ite
    · exact fun _ => by assumption
    · intro h4
      split
      · apply Kept.ite
        · intro h7
          apply pairSend_kept (hm.sub rfl)
          apply loadSnapshot_kept (hm.sub rfl)
          assumption
        · exact fun _ => by assumption
      · assumption
  · assumption

theorem execRelayUp_kept (hm : Has m 0x254414a) (x0 : PHdr) (x1 : Fin 8) (x2 : Fin 4) (x3 : ℕ) (x4 : ℕ) (x5 : List (List ℤ)) (s : State)
    (hs : Kept m s₀ s) :
    ResAll (Kept m s₀) (execRelayUp x0 x1 x2 x3 x4 x5 s) := by
  unfold execRelayUp
  apply onPeer_kept (hm.sub rfl)
  · intro y01 h2
    apply Kept.ite
    · intro h4
      apply takeBlock_kept (hm.sub rfl)
      refine Kept.pair_put (hm.sub rfl) ?_
      assumption
    · exact fun _ => by assumption
  · assumption

theorem execPairHeartbeatSend_kept (hm : Has m 0xd3f4fa) (s : State)
    (hs : Kept m s₀ s) :
    ResAll (Kept m s₀) (execPairHeartbeatSend s) := by
  unfold execPairHeartbeatSend
  apply ResAll.next
  apply Kept.ite
  · exact fun _ => by assumption
  · intro h2
    apply handOver_kept (hm.sub rfl)
    apply pairSend_kept (hm.sub rfl)
    assumption

theorem execPairStartTimeout_kept (hm : Has m 0x6d7fdfa) (x0 : ℕ) (s : State)
    (hs : Kept m s₀ s) :
    ResAll (Kept m s₀) (execPairStartTimeout x0 s) := by
  unfold execPairStartTimeout
  split
  · apply ResAll.next
    assumption
  · apply ResAll.ite
    · intro h2
      apply ResAll.next
      assumption
    · intro h2
      dsimp only
      apply ResAll.next
      apply modeStart_kept (hm.sub rfl)
      apply reselect_kept (hm.sub rfl)
      apply setPairState_kept (hm.sub rfl)
      apply wr_kept (hm.sub rfl)
      apply wr_kept (hm.sub rfl)
      apply wr_kept (hm.sub rfl)
      assumption

theorem execSplitSettle_kept (hm : Has m 0x7d7fffe) (x0 : ℕ) (s : State)
    (hs : Kept m s₀ s) :
    ResAll (Kept m s₀) (execSplitSettle x0 s) := by
  unfold execSplitSettle
  dsimp only
  apply ResAll.ite
  · intro h2
    apply ResAll.next
    assumption
  · intro h2
    apply ResAll.next
    apply Kept.ite
    · intro h5
      apply Kept.ite
      · intro h7
        apply retryHeld_kept (hm.sub rfl)
        apply setPairState_kept (hm.sub rfl)
        refine Kept.pair_put (hm.sub rfl) ?_
        apply wr_kept (hm.sub rfl)
        apply wr_kept (hm.sub rfl)
        assumption
      · intro h7
        apply enterIsland_kept (hm.sub rfl)
        apply wr_kept (hm.sub rfl)
        apply wr_kept (hm.sub rfl)
        assumption
    · intro h5
      apply Kept.ite
      · intro h7
        apply takeover_kept (hm.sub rfl)
        apply wr_kept (hm.sub rfl)
        apply wr_kept (hm.sub rfl)
        assumption
      · intro h7
        apply Kept.ite
        · intro h9
          apply wr_kept (hm.sub rfl)
          apply wr_kept (hm.sub rfl)
          assumption
        · intro h9
          apply enterIsland_kept (hm.sub rfl)
          apply wr_kept (hm.sub rfl)
          apply wr_kept (hm.sub rfl)
          assumption

theorem writeForceActive_kept (hm : Has m 0x7d7fffe) (x0 : Inst) (x1 : ℕ) (s : State)
    (hs : Kept m s₀ s) :
    Kept m s₀ (writeForceActive x0 x1 s) := by
  unfold writeForceActive
  apply runCmd_kept (hm.sub rfl)
  · intro y01 h2
    apply takeover_kept (hm.sub rfl)
    assumption
  · assumption

theorem execBridgeBeaconTimer_kept (hm : Has m 0x400008) (s : State)
    (hs : Kept m s₀ s) :
    ResAll (Kept m s₀) (execBridgeBeaconTimer s) := by
  unfold execBridgeBeaconTimer
  dsimp only
  apply ResAll.next
  apply Kept.ite
  · exact fun _ => by assumption
  · intro h3
    apply emit_kept (hm.sub rfl)
    refine Kept.pair_put (hm.sub rfl) ?_
    assumption

end Sys2Proof.Machine
end

