-- ==== Sys2Proof/Laws/KeptDiag.lean ====
section
/-! SUPPORT. Every effect of Machine/Diag.lean keeps what `Kept` says. -/
set_option Elab.async false
namespace Sys2Proof.Machine

variable {m : Nat} {s₀ : State}

theorem jtagLoad_kept (hm : Has m 0x1000000) (x0 : ℕ) (x1 : ℕ) (s : State)
    (hs : Kept m s₀ s) :
    Kept m s₀ (jtagLoad x0 x1 s) := by
  unfold jtagLoad
  refine Kept.diag_put (hm.sub rfl) ?_
  assumption

theorem jtagSuspend_kept (hm : Has m 0x7ffffee) (x0 : ℕ) (x1 : ℕ) (s : State)
    (hs : Kept m s₀ s) :
    Kept m s₀ (jtagSuspend x0 x1 s) := by
  unfold jtagSuspend
  dsimp only
  apply Kept.ite
  · intro h2
    apply jtagLoad_kept (hm.sub rfl)
    assumption
  · intro h2
    refine Kept.diag_put (hm.sub rfl) ?_
    apply hubClear_kept (hm.sub rfl)
    apply jtagLoad_kept (hm.sub rfl)
    assumption

theorem execExtest_kept (hm : Has m 0x7ffffee) (s : State)
    (hs : Kept m s₀ s) :
    ResAll (Kept m s₀) (execExtest s) := by
  unfold execExtest
  apply ResAll.next
  apply jtagSuspend_kept (hm.sub rfl)
  assumption

theorem execIdcode_kept (hm : Has m 0x1000008) (s : State)
    (hs : Kept m s₀ s) :
    ResAll (Kept m s₀) (execIdcode s) := by
  unfold execIdcode
  apply ResAll.next
  apply emit_kept (hm.sub rfl)
  apply jtagLoad_kept (hm.sub rfl)
  assumption

theorem flashRecord_kept (hm : Has m 0x100000a) (x0 : Storm) (s : State)
    (hs : Kept m s₀ s) :
    Kept m s₀ (flashRecord x0 s) := by
  unfold flashRecord
  dsimp only
  apply emit_kept (hm.sub rfl)
  apply wr_kept (hm.sub rfl)
  refine Kept.diag_put (hm.sub rfl) ?_
  assumption

theorem flashOldest_kept (hm : Has m 0x100000a) (s : State) (hs : Kept m s₀ s) : Kept m s₀ (flashOldest s) := by
  unfold flashOldest
  split
  · exact hs
  · apply flashRecord_kept (hm.sub rfl)
    exact hs.trans { Kept.refl (m := m) s with
      ring := fun h => by rw [List.length_map]; exact h
      parts := SameBut.grow (v := 0x1000000)
        (by intro p hp; cases p <;> first | exact absurd hp (by dsimp only [StatePart.idx]; decide) | rfl | exact ⟨rfl, rfl, rfl⟩) (hm.sub rfl) }

theorem stormErase_kept (hm : Has m 0x1000002) (s : State) (hs : Kept m s₀ s) : Kept m s₀ (stormErase s) := by
  unfold stormErase
  apply wr_kept (hm.sub rfl)
  apply wr_kept (hm.sub rfl)
  exact hs.trans { Kept.refl (m := m) s with
      ring := fun _ => Nat.zero_le _
      parts := SameBut.grow (v := 0x1000000)
        (by intro p hp; cases p <;> first | exact absurd hp (by dsimp only [StatePart.idx]; decide) | rfl | exact ⟨rfl, rfl, rfl⟩) (hm.sub rfl) }

theorem writeStormClear_kept (hm : Has m 0x34631da) (x0 : Inst) (x1 : ℕ) (s : State)
    (hs : Kept m s₀ s) :
    Kept m s₀ (writeStormClear x0 x1 s) := by
  unfold writeStormClear
  apply runCmd_kept (hm.sub rfl)
  · intro y01 h2
    apply stormErase_kept (hm.sub rfl)
    assumption
  · assumption

theorem execSamplePreload_kept (hm : Has m 0x1000000) (s : State)
    (hs : Kept m s₀ s) :
    ResAll (Kept m s₀) (execSamplePreload s) := by
  unfold execSamplePreload
  apply ResAll.next
  apply jtagLoad_kept (hm.sub rfl)
  assumption

theorem persistErase_kept (hm : Has m 0x800080) (s : State)
    (hs : Kept m s₀ s) :
    Kept m s₀ (persistErase s) := by
  unfold persistErase
  refine Kept.mk' (v := 8388736) (hm.sub rfl) rfl ?_ ?_
  · assumption
  · intro p hp
    cases p <;> first | exact absurd hp (by dsimp only [StatePart.idx]; decide) | exact Eq.refl _ | exact ⟨Eq.refl _, Eq.refl _, Eq.refl _⟩

theorem returnGo_kept (hm : Has m 0x180008a) (s : State)
    (hs : Kept m s₀ s) :
    Kept m s₀ (returnGo s) := by
  unfold returnGo
  dsimp only
  refine Kept.boot_put (hm.sub rfl) ?_
  apply persistErase_kept (hm.sub rfl)
  apply storm_kept (hm.sub rfl)
  apply Kept.foldl
  · intro s5 b6 h7
    apply flashOldest_kept (hm.sub rfl)
    assumption
  · assumption

theorem execExtestTrain_kept (hm : Has m 0x7ffffee) (s : State)
    (hs : Kept m s₀ s) :
    ResAll (Kept m s₀) (execExtestTrain s) := by
  unfold execExtestTrain
  apply ResAll.next
  apply jtagSuspend_kept (hm.sub rfl)
  assumption

theorem execStormFlashCopy_kept (hm : Has m 0x100000a) (s : State)
    (hs : Kept m s₀ s) :
    ResAll (Kept m s₀) (execStormFlashCopy s) := by
  unfold execStormFlashCopy
  apply ResAll.next
  apply Kept.ite
  · exact fun _ => by assumption
  · intro h2
    apply flashOldest_kept (hm.sub rfl)
    assumption

theorem vaneEnable_kept (hm : Has m 0x2040102) (x0 : ℕ) (s : State)
    (hs : Kept m s₀ s) :
    Kept m s₀ (vaneEnable x0 s) := by
  unfold vaneEnable
  dsimp only
  apply Kept.ite
  · intro h2
    apply vaneLost_kept (hm.sub rfl)
    apply wr_kept (hm.sub rfl)
    apply wr_kept (hm.sub rfl)
    refine Kept.sch_put (hm.sub rfl) ?_
    apply wr_kept (hm.sub rfl)
    assumption
  · intro h2
    apply wr_kept (hm.sub rfl)
    assumption

theorem writeVaneEn_kept (hm : Has m 0x24631da) (x0 : Inst) (x1 : ℕ) (x2 : Bool) (s : State)
    (hs : Kept m s₀ s) :
    Kept m s₀ (writeVaneEn x0 x1 x2 s) := by
  unfold writeVaneEn
  apply runWrite_kept (hm.sub rfl)
  · intro y01 h2
    apply vaneEnable_kept (hm.sub rfl)
    assumption
  · assumption

theorem execExtestPulse_kept (hm : Has m 0x7ffffee) (s : State)
    (hs : Kept m s₀ s) :
    ResAll (Kept m s₀) (execExtestPulse s) := by
  unfold execExtestPulse
  apply ResAll.next
  apply jtagSuspend_kept (hm.sub rfl)
  assumption

theorem execTestUnlock_kept (hm : Has m 0x1000002) (tmode : Bool) (s : State) (hs : Kept m s₀ s) : ResAll (Kept m s₀) (execTestUnlock tmode s) := by
  unfold execTestUnlock
  apply ResAll.next
  apply Kept.ite
  · intro _
    apply summary_kept (hm.sub rfl)
    apply wr_kept (hm.sub rfl)
    exact hs.trans { Kept.refl (m := m) s with
      fuse := fun _ => rfl
      test := fun _ _ => rfl
      parts := SameBut.grow (v := 0x1000000)
        (by intro p hp; cases p <;> first | exact absurd hp (by dsimp only [StatePart.idx]; decide) | rfl | exact ⟨rfl, rfl, rfl⟩) (hm.sub rfl) }
  · intro _
    refine Kept.diag_put (hm.sub rfl) ?_
    exact hs

theorem execBypass_kept (hm : Has m 0x1000008) (s : State)
    (hs : Kept m s₀ s) :
    ResAll (Kept m s₀) (execBypass s) := by
  unfold execBypass
  apply ResAll.next
  apply emit_kept (hm.sub rfl)
  apply jtagLoad_kept (hm.sub rfl)
  assumption

theorem writeReturnPrep_kept (hm : Has m 0x3c631da) (x0 : Inst) (x1 : ℕ) (s : State)
    (hs : Kept m s₀ s) :
    Kept m s₀ (writeReturnPrep x0 x1 s) := by
  unfold writeReturnPrep
  apply runPending_kept (hm.sub rfl)
  · intro y01 h2
    apply returnGo_kept (hm.sub rfl)
    assumption
  · assumption

theorem execClamp_kept (hm : Has m 0x7ffffee) (s : State)
    (hs : Kept m s₀ s) :
    ResAll (Kept m s₀) (execClamp s) := by
  unfold execClamp
  apply ResAll.next
  apply jtagSuspend_kept (hm.sub rfl)
  assumption

theorem execHighz_kept (hm : Has m 0x7ffffee) (s : State)
    (hs : Kept m s₀ s) :
    ResAll (Kept m s₀) (execHighz s) := by
  unfold execHighz
  apply ResAll.next
  apply jtagSuspend_kept (hm.sub rfl)
  assumption

end Sys2Proof.Machine
end

