-- ==== Sys2Proof/Laws/KeptEffects.lean ====
section
/-! SUPPORT. Every effect of Machine/Effects.lean keeps what `Kept` says. -/
set_option Elab.async false
namespace Sys2Proof.Machine

variable {m : Nat} {s₀ : State}

theorem fcoEn_kept (hm : Has m 0x400008a) (x0 : ℕ) (x1 : ℕ) (s : State)
    (hs : Kept m s₀ s) :
    Kept m s₀ (fcoEn x0 x1 s) := by
  unfold fcoEn
  dsimp only
  apply Kept.ite
  · intro h2
    apply Kept.ite
    · intro h4
      apply wr_kept (hm.sub rfl)
      assumption
    · intro h4
      apply emit_kept (hm.sub rfl)
      apply wr_kept (hm.sub rfl)
      apply setClaim_kept (hm.sub rfl)
      apply wr_kept (hm.sub rfl)
      assumption
  · intro h2
    apply wr_kept (hm.sub rfl)
    apply unclaim_kept (hm.sub rfl)
    apply wr_kept (hm.sub rfl)
    assumption

theorem pktEffect_kept (hm : Has m 0x56278ee) (x0 : ℕ) (x1 : ℕ) (x2 : ℕ) (x3 : ℕ) (x4 : ℕ) (x5 : Bytes) (s : State)
    (hs : Kept m s₀ s) :
    OptAll (Kept m s₀) (pktEffect x0 x1 x2 x3 x4 x5 s) := by
  unfold pktEffect
  apply OptAll.ite
  · intro h1
    dsimp only
    apply OptAll.ite
    · intro h4
      apply OptAll.some
      apply portEn_kept (hm.sub rfl)
      assumption
    · intro h4
      apply OptAll.ite
      · intro h6
        apply OptAll.some
        apply congestPort_kept (hm.sub rfl)
        apply wr_kept (hm.sub rfl)
        assumption
      · exact fun _ => OptAll.none
  · intro h1
    apply OptAll.ite
    · intro h3
      apply OptAll.some
      apply settle_kept (hm.sub rfl)
      apply wr_kept (hm.sub rfl)
      assumption
    · intro h3
      apply OptAll.ite
      · intro h5
        apply OptAll.some
        apply settle_kept (hm.sub rfl)
        apply wr_kept (hm.sub rfl)
        assumption
      · intro h5
        apply OptAll.ite
        · intro h7
          apply OptAll.some
          apply fcoEn_kept (hm.sub rfl)
          assumption
        · intro h7
          apply OptAll.ite
          · intro h9
            apply OptAll.some
            apply fcoSync_kept (hm.sub rfl)
            apply keyStore_kept (hm.sub rfl)
            assumption
          · exact fun _ => OptAll.none

theorem pktEffect_elim {x0 : ℕ} {x1 : ℕ} {x2 : ℕ} {x3 : ℕ} {x4 : ℕ} {x5 : Bytes} {s : State}  {t : State} (hm : Has m 0x56278ee) (e : (pktEffect x0 x1 x2 x3 x4 x5 s) = (some t))
    (hs : Kept m s₀ s) : Kept m s₀ t := by
  have hk := pktEffect_kept hm x0 x1 x2 x3 x4 x5 s hs
  rw [e] at hk
  exact (OptAll.elim hk rfl)

theorem dmaEffect_kept (hm : Has m 0x402008a) (x0 : ℕ) (x1 : ℕ) (x2 : ℕ) (s : State)
    (hs : Kept m s₀ s) :
    OptAll (Kept m s₀) (dmaEffect x0 x1 x2 s) := by
  unfold dmaEffect
  apply OptAll.ite
  · intro h1
    apply OptAll.some
    apply dmaEn_kept (hm.sub rfl)
    assumption
  · exact fun _ => OptAll.none

theorem dmaEffect_elim {x0 : ℕ} {x1 : ℕ} {x2 : ℕ} {s : State}  {t : State} (hm : Has m 0x402008a) (e : (dmaEffect x0 x1 x2 s) = (some t))
    (hs : Kept m s₀ s) : Kept m s₀ t := by
  have hk := dmaEffect_kept hm x0 x1 x2 s hs
  rw [e] at hk
  exact (OptAll.elim hk rfl)

theorem sigMode_kept (hm : Has m 0x10002) (x0 : ℕ) (x1 : ℕ) (s : State)
    (hs : Kept m s₀ s) :
    Kept m s₀ (sigMode x0 x1 s) := by
  unfold sigMode
  apply Kept.ite
  · exact fun _ => by assumption
  · intro h1
    apply cmpUpd_kept (hm.sub rfl)
    apply wr_kept (hm.sub rfl)
    apply wr_kept (hm.sub rfl)
    assumption

theorem profileLoad_kept (hm : Has m 0x2) (x0 : ℕ) (s : State)
    (hs : Kept m s₀ s) :
    Kept m s₀ (profileLoad x0 s) := by
  unfold profileLoad
  dsimp only
  apply wrI_kept (hm.sub rfl)
  apply wrI_kept (hm.sub rfl)
  apply wrI_kept (hm.sub rfl)
  apply wr_kept (hm.sub rfl)
  assumption

theorem vidEffect_kept (hm : Has m 0x108002) (x0 : ℕ) (x1 : ℕ) (x2 : ℕ) (s : State)
    (hs : Kept m s₀ s) :
    OptAll (Kept m s₀) (vidEffect x0 x1 x2 s) := by
  unfold vidEffect
  apply OptAll.ite
  · exact fun _ => OptAll.none
  · intro h1
    apply OptAll.ite
    · intro h3
      apply OptAll.some
      apply decEn_kept (hm.sub rfl)
      assumption
    · intro h3
      apply OptAll.ite
      · intro h5
        apply OptAll.some
        apply encEn_kept (hm.sub rfl)
        assumption
      · exact fun _ => OptAll.none

theorem vidEffect_elim {x0 : ℕ} {x1 : ℕ} {x2 : ℕ} {s : State}  {t : State} (hm : Has m 0x108002) (e : (vidEffect x0 x1 x2 s) = (some t))
    (hs : Kept m s₀ s) : Kept m s₀ t := by
  have hk := vidEffect_kept hm x0 x1 x2 s hs
  rw [e] at hk
  exact (OptAll.elim hk rfl)

theorem boothWrite_kept (hm : Has m 0x4000082) (x0 : ℕ) (x1 : ℕ) (x2 : ℕ) (s : State)
    (hs : Kept m s₀ s) :
    Kept m s₀ (boothWrite x0 x1 x2 s) := by
  unfold boothWrite
  dsimp only
  split
  · apply setClaim_kept (hm.sub rfl)
    apply wr_kept (hm.sub rfl)
    split
    · apply unclaim_kept (hm.sub rfl)
      assumption
    · assumption
  · apply wr_kept (hm.sub rfl)
    split
    · apply unclaim_kept (hm.sub rfl)
      assumption
    · assumption

theorem mixEffect_kept (hm : Has m 0x44008ea) (x0 : ℕ) (x1 : ℕ) (x2 : ℕ) (x3 : ℕ) (s : State)
    (hs : Kept m s₀ s) :
    OptAll (Kept m s₀) (mixEffect x0 x1 x2 x3 s) := by
  unfold mixEffect
  apply OptAll.ite
  · intro h1
    apply OptAll.some
    apply trimWrite_kept (hm.sub rfl)
    assumption
  · intro h1
    apply OptAll.ite
    · intro h3
      apply OptAll.some
      apply outGainWrite_kept (hm.sub rfl)
      assumption
    · intro h3
      apply OptAll.ite
      · intro h5
        apply OptAll.some
        apply outMuteWrite_kept (hm.sub rfl)
        assumption
      · intro h5
        apply OptAll.ite
        · intro h7
          apply OptAll.some
          apply tmFollow_kept (hm.sub rfl)
          apply wr_kept (hm.sub rfl)
          assumption
        · intro h7
          apply OptAll.ite
          · intro h9
            apply OptAll.some
            apply tmRetarget_kept (hm.sub rfl)
            apply wr_kept (hm.sub rfl)
            assumption
          · intro h9
            apply OptAll.ite
            · intro h11
              dsimp only
              apply OptAll.ite
              · intro h14
                apply OptAll.some
                apply boothWrite_kept (hm.sub rfl)
                assumption
              · intro h14
                apply OptAll.ite
                · intro h16
                  apply OptAll.some
                  apply Kept.ite
                  · exact fun _ => by assumption
                  · intro h19
                    apply relaySend_kept (hm.sub rfl)
                    apply wr_kept (hm.sub rfl)
                    assumption
                · intro h16
                  apply OptAll.ite
                  · intro h18
                    apply OptAll.some
                    apply langFade_kept (hm.sub rfl)
                    apply wr_kept (hm.sub rfl)
                    assumption
                  · exact fun _ => OptAll.none
            · intro h11
              apply OptAll.ite
              · intro h13
                apply OptAll.some
                apply loudEn_kept (hm.sub rfl)
                assumption
              · intro h13
                apply OptAll.ite
                · intro h15
                  apply OptAll.some
                  apply deskEn_kept (hm.sub rfl)
                  assumption
                · exact fun _ => OptAll.none

theorem mixEffect_elim {x0 : ℕ} {x1 : ℕ} {x2 : ℕ} {x3 : ℕ} {s : State}  {t : State} (hm : Has m 0x44008ea) (e : (mixEffect x0 x1 x2 x3 s) = (some t))
    (hs : Kept m s₀ s) : Kept m s₀ t := by
  have hk := mixEffect_kept hm x0 x1 x2 x3 s hs
  rw [e] at hk
  exact (OptAll.elim hk rfl)

theorem fwdEffect_kept (hm : Has m 0x44278ea) (x0 : ℕ) (x1 : ℕ) (x2 : ℕ) (s : State)
    (hs : Kept m s₀ s) :
    OptAll (Kept m s₀) (fwdEffect x0 x1 x2 s) := by
  unfold fwdEffect
  dsimp only
  apply OptAll.ite
  · intro h2
    apply OptAll.some
    apply legEn_kept (hm.sub rfl)
    assumption
  · intro h2
    apply OptAll.ite
    · intro h4
      apply OptAll.some
      apply setSource_kept (hm.sub rfl)
      assumption
    · exact fun _ => OptAll.none

theorem fwdEffect_elim {x0 : ℕ} {x1 : ℕ} {x2 : ℕ} {s : State}  {t : State} (hm : Has m 0x44278ea) (e : (fwdEffect x0 x1 x2 s) = (some t))
    (hs : Kept m s₀ s) : Kept m s₀ t := by
  have hk := fwdEffect_kept hm x0 x1 x2 s hs
  rw [e] at hk
  exact (OptAll.elim hk rfl)

theorem sourcePrio_kept (hm : Has m 0x400062) (x0 : ℕ) (x1 : ℕ) (s : State)
    (hs : Kept m s₀ s) :
    Kept m s₀ (sourcePrio x0 x1 s) := by
  unfold sourcePrio
  dsimp only
  apply reselect_kept (hm.sub rfl)
  apply wr_kept (hm.sub rfl)
  assumption

theorem isbEffect_kept (hm : Has m 0x44008ea) (x0 : ℕ) (x1 : ℕ) (x2 : ℕ) (s : State)
    (hs : Kept m s₀ s) :
    OptAll (Kept m s₀) (isbEffect x0 x1 x2 s) := by
  unfold isbEffect
  dsimp only
  apply OptAll.ite
  · intro h2
    apply OptAll.some
    apply sourcePrio_kept (hm.sub rfl)
    assumption
  · intro h2
    apply OptAll.ite
    · intro h4
      apply OptAll.some
      apply profileLoad_kept (hm.sub rfl)
      assumption
    · intro h4
      apply OptAll.ite
      · intro h6
        apply OptAll.some
        apply ppsEn_kept (hm.sub rfl)
        assumption
      · intro h6
        apply OptAll.ite
        · intro h8
          apply OptAll.some
          apply lxEn_kept (hm.sub rfl)
          assumption
        · intro h8
          apply OptAll.ite
          · intro h10
            apply OptAll.some
            apply lxIdle_kept (hm.sub rfl)
            assumption
          · intro h10
            apply OptAll.ite
            · intro h12
              apply OptAll.some
              apply slewLimit_kept (hm.sub rfl)
              assumption
            · intro h12
              apply OptAll.ite
              · intro h14
                apply OptAll.some
                apply wr_kept (hm.sub rfl)
                refine Kept.isb_put (hm.sub rfl) ?_
                assumption
              · exact fun _ => OptAll.none

theorem isbEffect_elim {x0 : ℕ} {x1 : ℕ} {x2 : ℕ} {s : State}  {t : State} (hm : Has m 0x44008ea) (e : (isbEffect x0 x1 x2 s) = (some t))
    (hs : Kept m s₀ s) : Kept m s₀ t := by
  have hk := isbEffect_kept hm x0 x1 x2 s hs
  rw [e] at hk
  exact (OptAll.elim hk rfl)

theorem trfEffect_kept (hm : Has m 0x2002) (x0 : ℕ) (x1 : ℕ) (x2 : ℕ) (x3 : ℕ) (x4 : ℕ) (s : State)
    (hs : Kept m s₀ s) :
    OptAll (Kept m s₀) (trfEffect x0 x1 x2 x3 x4 s) := by
  unfold trfEffect
  apply OptAll.ite
  · intro h1
    apply OptAll.some
    apply polWrite_kept (hm.sub rfl)
    assumption
  · intro h1
    apply OptAll.ite
    · intro h3
      apply OptAll.some
      apply shaperChange_kept (hm.sub rfl)
      · intro y06 h7
        apply wr_kept (hm.sub rfl)
        assumption
      · assumption
    · intro h3
      apply OptAll.ite
      · intro h5
        apply OptAll.some
        apply classChange_kept (hm.sub rfl)
        · intro y08 h9
          apply wr_kept (hm.sub rfl)
          assumption
        · assumption
      · exact fun _ => OptAll.none

theorem trfEffect_elim {x0 : ℕ} {x1 : ℕ} {x2 : ℕ} {x3 : ℕ} {x4 : ℕ} {s : State}  {t : State} (hm : Has m 0x2002) (e : (trfEffect x0 x1 x2 x3 x4 s) = (some t))
    (hs : Kept m s₀ s) : Kept m s₀ t := by
  have hk := trfEffect_kept hm x0 x1 x2 x3 x4 s hs
  rw [e] at hk
  exact (OptAll.elim hk rfl)

theorem dspEffect_kept (hm : Has m 0xa06) (x0 : ℕ) (x1 : ℕ) (x2 : ℕ) (x3 : Bytes) (s : State)
    (hs : Kept m s₀ s) :
    OptAll (Kept m s₀) (dspEffect x0 x1 x2 x3 s) := by
  unfold dspEffect
  apply OptAll.ite
  · intro h1
    apply OptAll.some
    apply imageWritten_kept (hm.sub rfl)
    apply wrBlob_kept (hm.sub rfl)
    assumption
  · intro h1
    apply OptAll.ite
    · intro h3
      apply OptAll.some
      apply tickEn_kept (hm.sub rfl)
      assumption
    · exact fun _ => OptAll.none

theorem dspEffect_elim {x0 : ℕ} {x1 : ℕ} {x2 : ℕ} {x3 : Bytes} {s : State}  {t : State} (hm : Has m 0xa06) (e : (dspEffect x0 x1 x2 x3 s) = (some t))
    (hs : Kept m s₀ s) : Kept m s₀ t := by
  have hk := dspEffect_kept hm x0 x1 x2 x3 s hs
  rw [e] at hk
  exact (OptAll.elim hk rfl)

theorem cmpEffect_kept (hm : Has m 0x118002) (x0 : ℕ) (x1 : ℕ) (x2 : ℕ) (s : State)
    (hs : Kept m s₀ s) :
    OptAll (Kept m s₀) (cmpEffect x0 x1 x2 s) := by
  unfold cmpEffect
  apply OptAll.ite
  · intro h1
    apply OptAll.some
    apply outEn_kept (hm.sub rfl)
    assumption
  · intro h1
    apply OptAll.ite
    · intro h3
      apply OptAll.some
      apply sigMode_kept (hm.sub rfl)
      assumption
    · intro h3
      apply OptAll.ite
      · intro h5
        apply OptAll.some
        apply ovlBase_kept (hm.sub rfl)
        assumption
      · exact fun _ => OptAll.none

theorem cmpEffect_elim {x0 : ℕ} {x1 : ℕ} {x2 : ℕ} {s : State}  {t : State} (hm : Has m 0x118002) (e : (cmpEffect x0 x1 x2 s) = (some t))
    (hs : Kept m s₀ s) : Kept m s₀ t := by
  have hk := cmpEffect_kept hm x0 x1 x2 s hs
  rw [e] at hk
  exact (OptAll.elim hk rfl)

theorem fwStage_kept (hm : Has m 0x800008) (x0 : Bytes) (s : State)
    (hs : Kept m s₀ s) :
    Kept m s₀ (fwStage x0 s) := by
  unfold fwStage
  dsimp only
  apply upd_kept (hm.sub rfl)
  · intro y02 h3
    apply headerPut_kept (hm.sub rfl)
    assumption
  · apply emit_kept (hm.sub rfl)
    apply Kept.ite
    · intro h4
      refine Kept.boot_put (hm.sub rfl) ?_
      assumption
    · intro h4
      refine Kept.boot_put (hm.sub rfl) ?_
      assumption

theorem mirrorsSet_kept (hm : Has m 0x102) (s : State)
    (hs : Kept m s₀ s) :
    Kept m s₀ (mirrorsSet s) := by
  unfold mirrorsSet
  dsimp only
  apply wr_kept (hm.sub rfl)
  apply wr_kept (hm.sub rfl)
  refine Kept.sch_put (hm.sub rfl) ?_
  assumption

theorem sysEffect_kept (hm : Has m 0x2b4010a) (x0 : ℕ) (x1 : ℕ) (x2 : ℕ) (x3 : Bytes) (s : State)
    (hs : Kept m s₀ s) :
    OptAll (Kept m s₀) (sysEffect x0 x1 x2 x3 s) := by
  unfold sysEffect
  apply OptAll.ite
  · intro h1
    apply OptAll.some
    apply jrnlMarks_kept (hm.sub rfl)
    apply wr_kept (hm.sub rfl)
    assumption
  · intro h1
    apply OptAll.ite
    · intro h3
      apply OptAll.some
      apply mirrorsSet_kept (hm.sub rfl)
      apply wr_kept (hm.sub rfl)
      assumption
    · intro h3
      apply OptAll.ite
      · intro h5
        apply OptAll.some
        apply fwStage_kept (hm.sub rfl)
        assumption
      · intro h5
        apply OptAll.ite
        · intro h7
          apply OptAll.some
          apply upd_kept (hm.sub rfl)
          · intro y010 h11
            apply leaveLull_kept (hm.sub rfl)
            assumption
          · apply wr_kept (hm.sub rfl)
            assumption
        · intro h7
          apply OptAll.ite
          · intro h9
            apply OptAll.some
            apply wr_kept (hm.sub rfl)
            refine Kept.flt_put (hm.sub rfl) ?_
            assumption
          · intro h9
            apply OptAll.ite
            · intro h11
              apply OptAll.some
              apply vaneEnable_kept (hm.sub rfl)
              assumption
            · exact fun _ => OptAll.none

theorem sysEffect_elim {x0 : ℕ} {x1 : ℕ} {x2 : ℕ} {x3 : Bytes} {s : State}  {t : State} (hm : Has m 0x2b4010a) (e : (sysEffect x0 x1 x2 x3 s) = (some t))
    (hs : Kept m s₀ s) : Kept m s₀ t := by
  have hk := sysEffect_kept hm x0 x1 x2 x3 s hs
  rw [e] at hk
  exact (OptAll.elim hk rfl)

theorem sapEffect_kept (hm : Has m 0x4023c9a) (x0 : ℕ) (x1 : ℕ) (x2 : ℕ) (s : State)
    (hs : Kept m s₀ s) :
    OptAll (Kept m s₀) (sapEffect x0 x1 x2 s) := by
  unfold sapEffect
  apply OptAll.ite
  · intro h1
    apply OptAll.some
    apply sapEn_kept (hm.sub rfl)
    assumption
  · intro h1
    apply OptAll.ite
    · intro h3
      apply OptAll.some
      apply clocksStop_kept (hm.sub rfl)
      apply wr_kept (hm.sub rfl)
      assumption
    · intro h3
      apply OptAll.ite
      · intro h5
        apply OptAll.some
        apply clocksStop_kept (hm.sub rfl)
        apply wr_kept (hm.sub rfl)
        assumption
      · intro h5
        apply OptAll.ite
        · intro h7
          apply OptAll.some
          apply epEn_kept (hm.sub rfl)
          assumption
        · intro h7
          apply OptAll.ite
          · intro h9
            apply OptAll.some
            apply epEn_kept (hm.sub rfl)
            assumption
          · exact fun _ => OptAll.none

theorem sapEffect_elim {x0 : ℕ} {x1 : ℕ} {x2 : ℕ} {s : State}  {t : State} (hm : Has m 0x4023c9a) (e : (sapEffect x0 x1 x2 s) = (some t))
    (hs : Kept m s₀ s) : Kept m s₀ t := by
  have hk := sapEffect_kept hm x0 x1 x2 s hs
  rw [e] at hk
  exact (OptAll.elim hk rfl)

theorem keyEffect_kept (hm : Has m 0x7f7fffe) (x0 : ℕ) (x1 : Bytes) (s : State)
    (hs : Kept m s₀ s) :
    Kept m s₀ (keyEffect x0 x1 s) := by
  unfold keyEffect
  dsimp only
  apply OptAll.getD
  · apply OptAll.ite
    · intro h3
      apply sysEffect_kept (hm.sub rfl)
      assumption
    · intro h3
      apply OptAll.ite
      · intro h5
        apply isbEffect_kept (hm.sub rfl)
        assumption
      · intro h5
        apply OptAll.ite
        · intro h7
          apply OptAll.some
          apply fieldKeyWrite_kept (hm.sub rfl)
          assumption
        · intro h7
          apply OptAll.ite
          · intro h9
            apply sapEffect_kept (hm.sub rfl)
            assumption
          · intro h9
            apply OptAll.ite
            · intro h11
              apply mixEffect_kept (hm.sub rfl)
              assumption
            · intro h11
              apply OptAll.ite
              · intro h13
                apply dspEffect_kept (hm.sub rfl)
                assumption
              · intro h13
                apply OptAll.ite
                · intro h15
                  apply pktEffect_kept (hm.sub rfl)
                  assumption
                · intro h15
                  apply OptAll.ite
                  · intro h17
                    apply trfEffect_kept (hm.sub rfl)
                    assumption
                  · intro h17
                    apply OptAll.ite
                    · exact fun _ => OptAll.none
                    · intro h19
                      apply OptAll.ite
                      · intro h21
                        apply fwdEffect_kept (hm.sub rfl)
                        assumption
                      · intro h21
                        apply OptAll.ite
                        · intro h23
                          apply vidEffect_kept (hm.sub rfl)
                          assumption
                        · intro h23
                          apply OptAll.ite
                          · intro h25
                            apply cmpEffect_kept (hm.sub rfl)
                            assumption
                          · intro h25
                            apply OptAll.ite
                            · intro h27
                              apply dmaEffect_kept (hm.sub rfl)
                              assumption
                            · intro h27
                              apply sysEffect_kept (hm.sub rfl)
                              assumption
  · apply keyStore_kept (hm.sub rfl)
    assumption

end Sys2Proof.Machine
end

