-- ==== Sys2Proof/Laws/KeptBoot.lean ====
section
/-! SUPPORT. Every effect of Machine/Boot.lean keeps what `Kept` says. -/
set_option Elab.async false
namespace Sys2Proof.Machine

variable {m : Nat} {s₀ : State}

theorem tablePut_kept (hm : Has m 0x80) (x0 : ℕ) (x1 : Bytes) (s : State)
    (hs : Kept m s₀ s) :
    Kept m s₀ (tablePut x0 x1 s) := by
  unfold tablePut
  refine Kept.dic_put (hm.sub rfl) ?_
  assumption

theorem layerPut_kept (hm : Has m 0x7f7fffe) (x0 : ℕ) (x1 : Bytes) (s : State)
    (hs : Kept m s₀ s) :
    Kept m s₀ (layerPut x0 x1 s) := by
  unfold layerPut
  apply Kept.ite
  · intro h1
    apply tablePut_kept (hm.sub rfl)
    assumption
  · intro h1
    dsimp only
    apply Kept.ite
    · intro h4
      apply validateImage_kept (hm.sub rfl)
      apply keyEffect_kept (hm.sub rfl)
      assumption
    · intro h4
      apply keyEffect_kept (hm.sub rfl)
      assumption

theorem entryLost_kept (hm : Has m 0x1000102) (x0 : ℕ) (s : State)
    (hs : Kept m s₀ s) :
    Kept m s₀ (entryLost x0 s) := by
  unfold entryLost
  split
  · assumption
  · dsimp only
    apply summary_kept (hm.sub rfl)
    apply storm_kept (hm.sub rfl)
    refine Kept.sch_put (hm.sub rfl) ?_
    apply Kept.foldl
    · intro s6 b7 h8
      apply Kept.ite
      · intro h10
        apply wr_kept (hm.sub rfl)
        assumption
      · exact fun _ => by assumption
    · assumption

theorem replayValues_kept (hm : Has m 0x5400aee) (x0 : List ℕ) (s : State)
    (hs : Kept m s₀ s) :
    Kept m s₀ (replayValues x0 s) := by
  unfold replayValues
  split
  · assumption
  · dsimp only
    apply Kept.ite
    · exact fun _ => by assumption
    · intro h3
      apply Kept.foldl
      · intro s5 b6 h7
        apply reapply_kept (hm.sub rfl)
        assumption
      · apply loadValues_kept (hm.sub rfl)
        assumption

theorem limpEnd_kept (hm : Has m 0x90000a) (s : State)
    (hs : Kept m s₀ s) :
    Kept m s₀ (limpEnd s) := by
  unfold limpEnd
  dsimp only
  apply Kept.ite
  · intro h2
    apply wr_kept (hm.sub rfl)
    apply wr_kept (hm.sub rfl)
    refine Kept.boot_put (hm.sub rfl) ?_
    apply Kept.foldl
    · intro s7 b8 h9
      apply wakeDomain_kept (hm.sub rfl)
      assumption
    · apply safeCleared_kept (hm.sub rfl)
      apply wr_kept (hm.sub rfl)
      apply wr_kept (hm.sub rfl)
      assumption
  · intro h2
    apply Kept.foldl
    · intro s4 b5 h6
      apply wakeDomain_kept (hm.sub rfl)
      assumption
    · apply safeCleared_kept (hm.sub rfl)
      apply wr_kept (hm.sub rfl)
      apply wr_kept (hm.sub rfl)
      assumption

theorem execReplayDone_kept (hm : Has m 0x7d7fffe) (x0 : Bool) (x1 : List ℕ) (s : State)
    (hs : Kept m s₀ s) :
    ResAll (Kept m s₀) (execReplayDone x0 x1 s) := by
  unfold execReplayDone
  apply ResAll.ite
  · intro h1
    apply ResAll.next
    assumption
  · intro h1
    dsimp only
    apply ResAll.ite
    · intro h4
      apply ResAll.next
      apply Kept.ite
      · intro h7
        apply Kept.ite
        · intro h9
          apply limpEnd_kept (hm.sub rfl)
          apply schEvt_kept (hm.sub rfl)
          apply wr_kept (hm.sub rfl)
          apply wr_kept (hm.sub rfl)
          apply Kept.foldl
          · intro s15 b16 h17
            apply entryLost_kept (hm.sub rfl)
            assumption
          · apply replayValues_kept (hm.sub rfl)
            assumption
        · intro h9
          apply wr_kept (hm.sub rfl)
          apply schEvt_kept (hm.sub rfl)
          apply wr_kept (hm.sub rfl)
          apply wr_kept (hm.sub rfl)
          apply Kept.foldl
          · intro s15 b16 h17
            apply entryLost_kept (hm.sub rfl)
            assumption
          · apply replayValues_kept (hm.sub rfl)
            assumption
      · intro h7
        apply schEvt_kept (hm.sub rfl)
        apply wr_kept (hm.sub rfl)
        apply wr_kept (hm.sub rfl)
        apply Kept.foldl
        · intro s12 b13 h14
          apply entryLost_kept (hm.sub rfl)
          assumption
        · apply replayValues_kept (hm.sub rfl)
          assumption
    · intro h4
      apply ResAll.ite
      · intro h6
        apply ResAll.next
        refine Kept.pair_put (hm.sub rfl) ?_
        apply upd_kept (hm.sub rfl)
        · intro y010 h11
          refine Kept.boot_put (hm.sub rfl) ?_
          assumption
        · apply Kept.ite
          · intro h11
            apply Kept.ite
            · intro h13
              apply limpEnd_kept (hm.sub rfl)
              apply schEvt_kept (hm.sub rfl)
              apply wr_kept (hm.sub rfl)
              apply wr_kept (hm.sub rfl)
              apply Kept.foldl
              · intro s19 b20 h21
                apply entryLost_kept (hm.sub rfl)
                assumption
              · apply replayValues_kept (hm.sub rfl)
                assumption
            · intro h13
              apply wr_kept (hm.sub rfl)
              apply schEvt_kept (hm.sub rfl)
              apply wr_kept (hm.sub rfl)
              apply wr_kept (hm.sub rfl)
              apply Kept.foldl
              · intro s19 b20 h21
                apply entryLost_kept (hm.sub rfl)
                assumption
              · apply replayValues_kept (hm.sub rfl)
                assumption
          · intro h11
            apply schEvt_kept (hm.sub rfl)
            apply wr_kept (hm.sub rfl)
            apply wr_kept (hm.sub rfl)
            apply Kept.foldl
            · intro s16 b17 h18
              apply entryLost_kept (hm.sub rfl)
              assumption
            · apply replayValues_kept (hm.sub rfl)
              assumption
      · intro h6
        apply ResAll.next
        apply safeCleared_kept (hm.sub rfl)
        apply modeStart_kept (hm.sub rfl)
        apply upd_kept (hm.sub rfl)
        · intro y011 h12
          refine Kept.boot_put (hm.sub rfl) ?_
          assumption
        · apply Kept.ite
          · intro h12
            apply Kept.ite
            · intro h14
              apply limpEnd_kept (hm.sub rfl)
              apply schEvt_kept (hm.sub rfl)
              apply wr_kept (hm.sub rfl)
              apply wr_kept (hm.sub rfl)
              apply Kept.foldl
              · intro s20 b21 h22
                apply entryLost_kept (hm.sub rfl)
                assumption
              · apply replayValues_kept (hm.sub rfl)
                assumption
            · intro h14
              apply wr_kept (hm.sub rfl)
              apply schEvt_kept (hm.sub rfl)
              apply wr_kept (hm.sub rfl)
              apply wr_kept (hm.sub rfl)
              apply Kept.foldl
              · intro s20 b21 h22
                apply entryLost_kept (hm.sub rfl)
                assumption
              · apply replayValues_kept (hm.sub rfl)
                assumption
          · intro h12
            apply schEvt_kept (hm.sub rfl)
            apply wr_kept (hm.sub rfl)
            apply wr_kept (hm.sub rfl)
            apply Kept.foldl
            · intro s17 b18 h19
              apply entryLost_kept (hm.sub rfl)
              assumption
            · apply replayValues_kept (hm.sub rfl)
              assumption

theorem writeWarmReset_kept (hm : Has m 0x6fffffa) (x0 : Inst) (x1 : ℕ) (s : State)
    (hs : Kept m s₀ s) :
    Kept m s₀ (writeWarmReset x0 x1 s) := by
  unfold writeWarmReset
  apply runAfter_kept (hm.sub rfl)
  · intro y01 h2
    apply Kept.ite
    · intro h4
      apply wr_kept (hm.sub rfl)
      apply barsReset_kept (hm.sub rfl)
      assumption
    · intro h4
      apply warmReset_kept (hm.sub rfl)
      assumption
  · assumption

theorem writeFwStage_kept (hm : Has m 0x2c631da) (x0 : Inst) (x1 : ℕ) (x2 : Bytes) (s : State)
    (hs : Kept m s₀ s) :
    Kept m s₀ (writeFwStage x0 x1 x2 s) := by
  unfold writeFwStage
  dsimp only
  apply runWriteV_kept (hm.sub rfl)
  · intro y02 h3
    apply fwStage_kept (hm.sub rfl)
    assumption
  · assumption

theorem channelBoot_kept (hm : Has m 0x1240002) (s : State) (x1 : ChFact)
    (hs : Kept m s₀ s) :
    Kept m s₀ (channelBoot s x1) := by
  unfold channelBoot
  dsimp only
  split
  · apply wr_kept (hm.sub rfl)
    apply wr_kept (hm.sub rfl)
    apply wr_kept (hm.sub rfl)
    assumption
  · apply Kept.ite
    · intro h3
      apply wr_kept (hm.sub rfl)
      apply ddrUpd_kept (hm.sub rfl)
      apply wr_kept (hm.sub rfl)
      apply wr_kept (hm.sub rfl)
      apply wr_kept (hm.sub rfl)
      assumption
    · intro h3
      apply wr_kept (hm.sub rfl)
      apply markRetired_kept (hm.sub rfl)
      apply ddrUpd_kept (hm.sub rfl)
      apply wr_kept (hm.sub rfl)
      apply wr_kept (hm.sub rfl)
      apply wr_kept (hm.sub rfl)
      assumption

theorem coldStart_kept (hm : Has m 0x90000a) (s : State)
    (hs : Kept m s₀ s) :
    Kept m s₀ (coldStart s) := by
  unfold coldStart
  dsimp only
  apply Kept.foldl
  · intro s2 b3 h4
    apply domainUpd_kept (hm.sub rfl)
    apply wr_kept (hm.sub rfl)
    assumption
  · apply driveVme_kept (hm.sub rfl)
    apply driveVsd_kept (hm.sub rfl)
    apply summary_kept (hm.sub rfl)
    apply wr_kept (hm.sub rfl)
    refine Kept.boot_put (hm.sub rfl) ?_
    assumption

theorem execWakeN_kept (hm : Has m 0x90000a) (s : State)
    (hs : Kept m s₀ s) :
    ResAll (Kept m s₀) (execWakeN s) := by
  unfold execWakeN
  apply ResAll.next
  apply Kept.ite
  · exact fun _ => by assumption
  · intro h2
    apply Kept.ite
    · intro h4
      apply Kept.ite
      · exact fun _ => by assumption
      · intro h6
        apply coldStart_kept (hm.sub rfl)
        apply emit_kept (hm.sub rfl)
        refine Kept.pwr_put (hm.sub rfl) ?_
        assumption
    · intro h4
      apply privileged_kept (hm.sub rfl)
      assumption

theorem fwActivate_kept (hm : Has m 0x800008) (s : State)
    (hs : Kept m s₀ s) :
    Kept m s₀ (fwActivate s) := by
  unfold fwActivate
  dsimp only
  apply Kept.ite
  · intro h2
    apply headerPut_kept (hm.sub rfl)
    refine Kept.boot_put (hm.sub rfl) ?_
    assumption
  · intro h2
    refine Kept.boot_put (hm.sub rfl) ?_
    assumption

theorem bootSlot_kept (hm : Has m 0x180000a) (s : State)
    (hs : Kept m s₀ s) :
    Kept m s₀ (bootSlot s) := by
  unfold bootSlot
  dsimp only
  apply Kept.ite
  · intro h2
    refine Kept.boot_put (hm.sub rfl) ?_
    apply Kept.ite
    · intro h5
      apply headerPut_kept (hm.sub rfl)
      apply upd_kept (hm.sub rfl)
      · intro y08 h9
        apply headerPut_kept (hm.sub rfl)
        assumption
      · apply Kept.ite
        · exact fun _ => by assumption
        · intro h9
          refine Kept.boot_put (hm.sub rfl) ?_
          assumption
    · intro h5
      apply upd_kept (hm.sub rfl)
      · intro y07 h8
        apply headerPut_kept (hm.sub rfl)
        assumption
      · apply Kept.ite
        · exact fun _ => by assumption
        · intro h8
          refine Kept.boot_put (hm.sub rfl) ?_
          assumption
  · intro h2
    apply Kept.ite
    · intro h4
      refine Kept.boot_put (hm.sub rfl) ?_
      apply storm_kept (hm.sub rfl)
      apply Kept.ite
      · intro h8
        apply headerPut_kept (hm.sub rfl)
        apply upd_kept (hm.sub rfl)
        · intro y011 h12
          apply headerPut_kept (hm.sub rfl)
          assumption
        · apply Kept.ite
          · exact fun _ => by assumption
          · intro h12
            refine Kept.boot_put (hm.sub rfl) ?_
            assumption
      · intro h8
        apply upd_kept (hm.sub rfl)
        · intro y010 h11
          apply headerPut_kept (hm.sub rfl)
          assumption
        · apply Kept.ite
          · exact fun _ => by assumption
          · intro h11
            refine Kept.boot_put (hm.sub rfl) ?_
            assumption
    · intro h4
      refine Kept.boot_put (hm.sub rfl) ?_
      apply storm_kept (hm.sub rfl)
      apply Kept.ite
      · intro h8
        apply headerPut_kept (hm.sub rfl)
        apply upd_kept (hm.sub rfl)
        · intro y011 h12
          apply headerPut_kept (hm.sub rfl)
          assumption
        · apply Kept.ite
          · exact fun _ => by assumption
          · intro h12
            refine Kept.boot_put (hm.sub rfl) ?_
            assumption
      · intro h8
        apply upd_kept (hm.sub rfl)
        · intro y010 h11
          apply headerPut_kept (hm.sub rfl)
          assumption
        · apply Kept.ite
          · exact fun _ => by assumption
          · intro h11
            refine Kept.boot_put (hm.sub rfl) ?_
            assumption

theorem bootFirmware_kept (hm : Has m 0x1b0000e) (s : State)
    (hs : Kept m s₀ s) :
    Kept m s₀ (bootFirmware s) := by
  unfold bootFirmware
  dsimp only
  apply Kept.ite
  · intro h2
    apply wr_kept (hm.sub rfl)
    apply driveVme_kept (hm.sub rfl)
    apply Kept.foldl
    · intro s6 b7 h8
      apply domainUpd_kept (hm.sub rfl)
      apply wr_kept (hm.sub rfl)
      assumption
    · apply bootSlot_kept (hm.sub rfl)
      assumption
  · intro h2
    apply storm_kept (hm.sub rfl)
    refine Kept.flt_put (hm.sub rfl) ?_
    apply wrBlob_kept (hm.sub rfl)
    apply wr_kept (hm.sub rfl)
    apply wr_kept (hm.sub rfl)
    apply bootSlot_kept (hm.sub rfl)
    assumption

theorem bootMemory_kept (hm : Has m 0x1b4000a) (x0 : List ChFact) (s : State)
    (hs : Kept m s₀ s) :
    Kept m s₀ (bootMemory x0 s) := by
  unfold bootMemory
  dsimp only
  apply Kept.ite
  · intro h2
    refine Kept.boot_put (hm.sub rfl) ?_
    apply markRetired_kept (hm.sub rfl)
    apply pwrEvt_kept (hm.sub rfl)
    apply wr_kept (hm.sub rfl)
    apply wr_kept (hm.sub rfl)
    apply wr_kept (hm.sub rfl)
    apply wr_kept (hm.sub rfl)
    apply setActive_kept (hm.sub rfl)
    apply upd_kept (hm.sub rfl)
    · intro y012 h13
      apply wr_kept (hm.sub rfl)
      assumption
    · apply Kept.foldl
      · intro s13 b14 h15
        apply channelBoot_kept (hm.sub rfl)
        assumption
      · refine Kept.mem_put (hm.sub rfl) ?_
        assumption
  · intro h2
    apply wr_kept (hm.sub rfl)
    apply wr_kept (hm.sub rfl)
    apply wr_kept (hm.sub rfl)
    apply setActive_kept (hm.sub rfl)
    apply upd_kept (hm.sub rfl)
    · intro y08 h9
      apply wr_kept (hm.sub rfl)
      assumption
    · apply Kept.foldl
      · intro s9 b10 h11
        apply channelBoot_kept (hm.sub rfl)
        assumption
      · refine Kept.mem_put (hm.sub rfl) ?_
        assumption

theorem imageCopied_kept (hm : Has m 0x2040000) (s : State)
    (hs : Kept m s₀ s) :
    Kept m s₀ (imageCopied s) := by
  unfold imageCopied
  apply mirrorPut_kept (hm.sub rfl)
  assumption

theorem poolFailedCause_kept (hm : Has m 0x6d7fdfa) (s : State)
    (hs : Kept m s₀ s) :
    Kept m s₀ (poolFailedCause s) := by
  unfold poolFailedCause
  apply Kept.ite
  · intro h1
    apply safeCleared_kept (hm.sub rfl)
    assumption
  · intro h1
    apply enterSafe_kept (hm.sub rfl)
    assumption

theorem fieldDefaults_kept (hm : Has m 0x40004a) (s : State)
    (hs : Kept m s₀ s) :
    Kept m s₀ (fieldDefaults s) := by
  unfold fieldDefaults
  apply Kept.foldl
  · intro s1 b2 h3
    apply Kept.ite
    · exact fun _ => by assumption
    · intro h5
      apply fieldKeyWrite_kept (hm.sub rfl)
      assumption
  · assumption

theorem applyLayers_kept (hm : Has m 0x7f7fffe) (s : State)
    (hs : Kept m s₀ s) :
    Kept m s₀ (applyLayers s) := by
  unfold applyLayers
  dsimp only
  apply featuresStop_kept (hm.sub rfl)
  apply Kept.foldl
  · intro s3 b4 h5
    apply layerPut_kept (hm.sub rfl)
    assumption
  · apply Kept.foldl
    · intro s4 b5 h6
      apply layerPut_kept (hm.sub rfl)
      assumption
    · apply Kept.ite
      · intro h5
        apply Kept.ite
        · intro h7
          apply Kept.snd
          split
          · apply SndAll.mk
            apply fieldDefaults_kept (hm.sub rfl)
            refine Kept.dic_put (hm.sub rfl) ?_
            assumption
          · split
            · apply SndAll.mk
              apply wr_kept (hm.sub rfl)
              apply wr_kept (hm.sub rfl)
              refine Kept.dic_put (hm.sub rfl) ?_
              apply fieldDefaults_kept (hm.sub rfl)
              refine Kept.dic_put (hm.sub rfl) ?_
              assumption
            · apply SndAll.mk
              apply wr_kept (hm.sub rfl)
              apply wr_kept (hm.sub rfl)
              apply fieldDefaults_kept (hm.sub rfl)
              refine Kept.dic_put (hm.sub rfl) ?_
              assumption
        · intro h7
          apply storm_kept (hm.sub rfl)
          apply summary_kept (hm.sub rfl)
          apply Kept.snd
          split
          · apply SndAll.mk
            apply fieldDefaults_kept (hm.sub rfl)
            refine Kept.dic_put (hm.sub rfl) ?_
            assumption
          · split
            · apply SndAll.mk
              apply wr_kept (hm.sub rfl)
              apply wr_kept (hm.sub rfl)
              refine Kept.dic_put (hm.sub rfl) ?_
              apply fieldDefaults_kept (hm.sub rfl)
              refine Kept.dic_put (hm.sub rfl) ?_
              assumption
            · apply SndAll.mk
              apply wr_kept (hm.sub rfl)
              apply wr_kept (hm.sub rfl)
              apply fieldDefaults_kept (hm.sub rfl)
              refine Kept.dic_put (hm.sub rfl) ?_
              assumption
      · intro h5
        refine Kept.dic_put (hm.sub rfl) ?_
        apply Kept.ite
        · intro h8
          apply Kept.snd
          split
          · apply SndAll.mk
            apply fieldDefaults_kept (hm.sub rfl)
            refine Kept.dic_put (hm.sub rfl) ?_
            assumption
          · split
            · apply SndAll.mk
              apply wr_kept (hm.sub rfl)
              apply wr_kept (hm.sub rfl)
              refine Kept.dic_put (hm.sub rfl) ?_
              apply fieldDefaults_kept (hm.sub rfl)
              refine Kept.dic_put (hm.sub rfl) ?_
              assumption
            · apply SndAll.mk
              apply wr_kept (hm.sub rfl)
              apply wr_kept (hm.sub rfl)
              apply fieldDefaults_kept (hm.sub rfl)
              refine Kept.dic_put (hm.sub rfl) ?_
              assumption
        · intro h8
          apply storm_kept (hm.sub rfl)
          apply summary_kept (hm.sub rfl)
          apply Kept.snd
          split
          · apply SndAll.mk
            apply fieldDefaults_kept (hm.sub rfl)
            refine Kept.dic_put (hm.sub rfl) ?_
            assumption
          · split
            · apply SndAll.mk
              apply wr_kept (hm.sub rfl)
              apply wr_kept (hm.sub rfl)
              refine Kept.dic_put (hm.sub rfl) ?_
              apply fieldDefaults_kept (hm.sub rfl)
              refine Kept.dic_put (hm.sub rfl) ?_
              assumption
            · apply SndAll.mk
              apply wr_kept (hm.sub rfl)
              apply wr_kept (hm.sub rfl)
              apply fieldDefaults_kept (hm.sub rfl)
              refine Kept.dic_put (hm.sub rfl) ?_
              assumption

theorem bootValues_kept (hm : Has m 0x7f7fffe) (s : State)
    (hs : Kept m s₀ s) :
    Kept m s₀ (bootValues s) := by
  unfold bootValues
  dsimp only
  apply Kept.ite
  · intro h2
    apply stepIsobar_kept (hm.sub rfl)
    refine Kept.isb_put (hm.sub rfl) ?_
    apply Kept.foldl
    · intro s6 b7 h8
      apply Kept.ite
      · intro h10
        apply sapIdle_kept (hm.sub rfl)
        assumption
      · exact fun _ => by assumption
    · apply applyLayers_kept (hm.sub rfl)
      assumption
  · intro h2
    refine Kept.isb_put (hm.sub rfl) ?_
    apply Kept.foldl
    · intro s5 b6 h7
      apply Kept.ite
      · intro h9
        apply sapIdle_kept (hm.sub rfl)
        assumption
      · exact fun _ => by assumption
    · apply applyLayers_kept (hm.sub rfl)
      assumption

theorem execBootStepComplete_kept (hm : Has m 0x7f7fffe) (x0 : List ChFact) (x1 : ℕ) (s : State)
    (hs : Kept m s₀ s) :
    ResAll (Kept m s₀) (execBootStepComplete x0 x1 s) := by
  unfold execBootStepComplete
  dsimp only
  apply ResAll.next
  apply Kept.ite
  · exact fun _ => by assumption
  · intro h3
    split
    · apply Kept.ite
      · intro h6
        refine Kept.mk' (v := 10485760) (hm.sub rfl) rfl ?_ ?_
        · assumption
        · intro p hp
          cases p <;> first | exact absurd hp (by dsimp only [StatePart.idx]; decide) | exact Eq.refl _ | exact ⟨Eq.refl _, Eq.refl _, Eq.refl _⟩
      · exact fun _ => by assumption
    · refine Kept.boot_put (hm.sub rfl) ?_
      apply bootFirmware_kept (hm.sub rfl)
      assumption
    · apply Kept.ite
      · intro h6
        apply Kept.ite
        · intro h8
          refine Kept.boot_put (hm.sub rfl) ?_
          apply bootMemory_kept (hm.sub rfl)
          assumption
        · intro h8
          refine Kept.boot_put (hm.sub rfl) ?_
          apply imageCopied_kept (hm.sub rfl)
          apply mirrorsSet_kept (hm.sub rfl)
          apply bootMemory_kept (hm.sub rfl)
          assumption
      · exact fun _ => by assumption
    · apply Kept.ite
      · intro h6
        refine Kept.boot_put (hm.sub rfl) ?_
        apply wr_kept (hm.sub rfl)
        assumption
      · exact fun _ => by assumption
    · apply Kept.ite
      · intro h6
        refine Kept.boot_put (hm.sub rfl) ?_
        apply poolFailedCause_kept (hm.sub rfl)
        apply poolTested_kept (hm.sub rfl)
        assumption
      · exact fun _ => by assumption
    · refine Kept.boot_put (hm.sub rfl) ?_
      apply bootValues_kept (hm.sub rfl)
      assumption
    · apply Kept.ite
      · intro h6
        refine Kept.mk' (v := 12582912) (hm.sub rfl) rfl ?_ ?_
        · assumption
        · intro p hp
          cases p <;> first | exact absurd hp (by dsimp only [StatePart.idx]; decide) | exact Eq.refl _ | exact ⟨Eq.refl _, Eq.refl _, Eq.refl _⟩
      · intro h6
        refine Kept.boot_put (hm.sub rfl) ?_
        assumption
    · apply Kept.ite
      · exact fun _ => by assumption
      · intro h6
        apply modeStart_kept (hm.sub rfl)
        assumption
    · assumption

theorem execRstNLow_kept (hm : Has m 0x7ffffee) (s : State) (hs : Kept m s₀ s) : ResAll (Kept m s₀) (execRstNLow s) := by
  have last : ∀ u, Kept m s₀ u → Kept m s₀ { u with boot.rstLow := true, diag.suspended := false } := by
    intro u hu
    refine Kept.mk' (v := 0x1800000) (hm.sub rfl) rfl hu ?_
    intro p hp
    cases p <;> first | exact absurd hp (by dsimp only [StatePart.idx]; decide) | rfl | exact ⟨rfl, rfl, rfl⟩
  exact ResAll.next (last _ (hubClear_kept (hm.sub rfl) s hs))

theorem execVddIoRise_kept (hm : Has m 0x900008) (s : State)
    (hs : Kept m s₀ s) :
    ResAll (Kept m s₀) (execVddIoRise s) := by
  unfold execVddIoRise
  apply ResAll.next
  apply Kept.ite
  · exact fun _ => by assumption
  · intro h2
    apply emit_kept (hm.sub rfl)
    refine Kept.mk' (v := 9437184) (hm.sub rfl) rfl ?_ ?_
    · assumption
    · intro p hp
      cases p <;> first | exact absurd hp (by dsimp only [StatePart.idx]; decide) | exact Eq.refl _ | exact ⟨Eq.refl _, Eq.refl _, Eq.refl _⟩

theorem factoryReset_kept (hm : Has m 0x80018a) (s : State)
    (hs : Kept m s₀ s) :
    Kept m s₀ (factoryReset s) := by
  unfold factoryReset
  dsimp only
  apply summary_kept (hm.sub rfl)
  apply wr_kept (hm.sub rfl)
  refine Kept.mk' (v := 8388992) (hm.sub rfl) rfl ?_ ?_
  · apply emit_kept (hm.sub rfl)
    assumption
  · intro p hp
    cases p <;> first | exact absurd hp (by dsimp only [StatePart.idx]; decide) | exact Eq.refl _ | exact ⟨Eq.refl _, Eq.refl _, Eq.refl _⟩

theorem writeFactoryReset_kept (hm : Has m 0x2c631da) (x0 : Inst) (x1 : ℕ) (s : State)
    (hs : Kept m s₀ s) :
    Kept m s₀ (writeFactoryReset x0 x1 s) := by
  unfold writeFactoryReset
  apply runPending_kept (hm.sub rfl)
  · intro y01 h2
    apply factoryReset_kept (hm.sub rfl)
    assumption
  · assumption

theorem recordPut_kept (hm : Has m 0x7f7fffe) (x0 : ImgRec) (s : State)
    (hs : Kept m s₀ s) :
    OptAll (SndAll (Kept m s₀)) (recordPut x0 s) := by
  unfold recordPut
  split
  · exact OptAll.none
  · dsimp only
    apply OptAll.ite
    · intro h3
      apply OptAll.ite
      · intro h5
        apply OptAll.some
        apply SndAll.mk
        apply layerPut_kept (hm.sub rfl)
        assumption
      · exact fun _ => OptAll.none
    · intro h3
      apply OptAll.ite
      · exact fun _ => OptAll.none
      · intro h5
        apply OptAll.some
        apply SndAll.mk
        apply layerPut_kept (hm.sub rfl)
        assumption

theorem recordPut_elim {x0 : ImgRec} {s : State} {v0} {t : State} (hm : Has m 0x7f7fffe) (e : (recordPut x0 s) = (some (v0, t)))
    (hs : Kept m s₀ s) : Kept m s₀ t := by
  have hk := recordPut_kept hm x0 s hs
  rw [e] at hk
  exact (SndAll.elim (OptAll.elim hk rfl) rfl)

theorem execColdBoot_kept (hm : Has m 0xb0000a) (x0 : Bool) (s : State)
    (hs : Kept m s₀ s) :
    ResAll (Kept m s₀) (execColdBoot x0 s) := by
  unfold execColdBoot
  apply ResAll.next
  apply Kept.ite
  · exact fun _ => by assumption
  · intro h2
    apply coldStart_kept (hm.sub rfl)
    apply wr_kept (hm.sub rfl)
    refine Kept.mk' (v := 10485760) (hm.sub rfl) rfl ?_ ?_
    · assumption
    · intro p hp
      cases p <;> first | exact absurd hp (by dsimp only [StatePart.idx]; decide) | exact Eq.refl _ | exact ⟨Eq.refl _, Eq.refl _, Eq.refl _⟩

theorem execPoolTestDone_kept (hm : Has m 0x6d7fdfa) (x0 : ℕ) (s : State)
    (hs : Kept m s₀ s) :
    ResAll (Kept m s₀) (execPoolTestDone x0 s) := by
  unfold execPoolTestDone
  apply ResAll.next
  apply Kept.ite
  · exact fun _ => by assumption
  · intro h2
    apply poolFailedCause_kept (hm.sub rfl)
    apply poolTested_kept (hm.sub rfl)
    assumption

theorem execCoreBrownout_kept (hm : Has m 0x6ffffee) (s : State)
    (hs : Kept m s₀ s) :
    ResAll (Kept m s₀) (execCoreBrownout s) := by
  unfold execCoreBrownout
  apply ResAll.next
  apply Kept.ite
  · exact fun _ => by assumption
  · intro h2
    apply hubClear_kept (hm.sub rfl)
    assumption

theorem execVddIoRemoved_kept (hm : Has m 0x7ffffee) (s : State) (hs : Kept m s₀ s) : ResAll (Kept m s₀) (execVddIoRemoved s) := by
  have last : ∀ u n, Kept m s₀ u → Kept m s₀ { u with
      boot.supply := false, pwr.hpwrEn := false, pwr.vmePg := false, pwr.vsdPg := false
      diag.ring := [], diag.seq := n, diag.suspended := false } := by
    intro u n hu
    exact hu.trans { Kept.refl (m := m) u with
      ring := fun _ => Nat.zero_le _
      parts := SameBut.grow (v := 0x1900000)
        (by intro p hp; cases p <;> first | exact absurd hp (by dsimp only [StatePart.idx]; decide) | rfl | exact ⟨rfl, rfl, rfl⟩) (hm.sub rfl) }
  unfold execVddIoRemoved
  apply ResAll.next
  apply wr_kept (hm.sub rfl)
  exact last _ _ (hubClear_kept (hm.sub rfl) s hs)

theorem execMgmtLinkChange_kept (hm : Has m 0x2) (x0 : Fin 3) (s : State)
    (hs : Kept m s₀ s) :
    ResAll (Kept m s₀) (execMgmtLinkChange x0 s) := by
  unfold execMgmtLinkChange
  apply ResAll.next
  apply Kept.ite
  · exact fun _ => by assumption
  · intro h2
    apply wr_kept (hm.sub rfl)
    assumption

theorem writeFwActivate_kept (hm : Has m 0x2c631da) (x0 : Inst) (x1 : ℕ) (s : State)
    (hs : Kept m s₀ s) :
    Kept m s₀ (writeFwActivate x0 x1 s) := by
  unfold writeFwActivate
  apply runPending_kept (hm.sub rfl)
  · intro y01 h2
    apply fwActivate_kept (hm.sub rfl)
    assumption
  · assumption

end Sys2Proof.Machine
end

