-- ==== Sys2Proof/Laws/KeptApply.lean ====
section
/-! SUPPORT. Every effect of Machine/Apply.lean keeps what `Kept` says. -/
set_option Elab.async false
namespace Sys2Proof.Machine

variable {m : Nat} {s₀ : State}

theorem writeLegCtrl_kept (hm : Has m 0x646f9fa) (x0 : Inst) (x1 : ℕ) (x2 : ℕ) (x3 : Bytes) (s : State)
    (hs : Kept m s₀ s) :
    Kept m s₀ (writeLegCtrl x0 x1 x2 x3 s) := by
  unfold writeLegCtrl
  dsimp only
  apply Kept.ite
  · intro h2
    apply runCmdV_kept (hm.sub rfl)
    · intro y04 h5
      dsimp only [id]
      assumption
    · assumption
  · intro h2
    split
    · apply writeLegCtrlEnable_kept (hm.sub rfl)
      assumption
    · apply writeLegCtrlDisable_kept (hm.sub rfl)
      assumption
    · apply writeLegCtrlSpeak_kept (hm.sub rfl)
      assumption
    · apply writeLegCtrlCancel_kept (hm.sub rfl)
      assumption
    · apply writeLegCtrlSetSource_kept (hm.sub rfl)
      assumption
    · apply writeLegCtrlSetMax_kept (hm.sub rfl)
      assumption
    · apply writeLegCtrlRefresh_kept (hm.sub rfl)
      assumption
    · apply runCmdV_kept (hm.sub rfl)
      · intro y05 h6
        dsimp only [id]
        assumption
      · assumption

theorem answerRepeats_kept (hm : Has m 0x4231da) (x0 : ℕ) (x1 : Status) (s : State)
    (hs : Kept m s₀ s) :
    Kept m s₀ (answerRepeats x0 x1 s) := by
  unfold answerRepeats
  dsimp only
  apply Kept.foldl
  · intro s2 b3 h4
    apply Kept.ite
    · intro h6
      apply sqDone_kept (hm.sub rfl)
      assumption
    · intro h6
      apply emit_kept (hm.sub rfl)
      assumption
  · apply Kept.foldl
    · intro s3 b4 h5
      apply respond_kept (hm.sub rfl)
      assumption
    · refine Kept.mk' (v := 384) (hm.sub rfl) rfl ?_ ?_
      · assumption
      · intro p hp
        cases p <;> first | exact absurd hp (by dsimp only [StatePart.idx]; decide) | exact Eq.refl _ | exact ⟨Eq.refl _, Eq.refl _, Eq.refl _⟩

theorem acceptDict_kept (hm : Has m 0x24631da) (x0 : ℕ) (x1 : State → State) (s : State)
    (hf1 : ∀ y0, Kept m s₀ y0 → (Kept m s₀) (x1 y0)) (hs : Kept m s₀ s) :
    Kept m s₀ (acceptDict x0 x1 s) := by
  unfold acceptDict
  dsimp only
  apply Kept.ite
  · intro h2
    apply answerRepeats_kept (hm.sub rfl)
    apply jrnlCommit_kept (hm.sub rfl)
    apply jrnlAccepted_kept (hm.sub rfl)
    refine Kept.dic_put (hm.sub rfl) ?_
    apply hf1
    refine Kept.dic_put (hm.sub rfl) ?_
    assumption
  · intro h2
    apply answerRepeats_kept (hm.sub rfl)
    apply hf1
    refine Kept.dic_put (hm.sub rfl) ?_
    assumption

theorem writeCmdOne_kept (hm : Has m 0x7fffffe) (x0 : Inst) (x1 : ℕ) (x2 : ℕ) (x3 : ℕ) (x4 : Bytes) (s : State)
    (hs : Kept m s₀ s) :
    Kept m s₀ (writeCmdOne x0 x1 x2 x3 x4 s) := by
  unfold writeCmdOne
  dsimp only
  split
  · apply writeIsbStep_kept (hm.sub rfl)
    assumption
  · apply writeTodSet_kept (hm.sub rfl)
    assumption
  · apply writeLaunchCancel_kept (hm.sub rfl)
    assumption
  · apply writeModeRequest_kept (hm.sub rfl)
    assumption
  · apply writeWarmReset_kept (hm.sub rfl)
    assumption
  · apply writeFactoryReset_kept (hm.sub rfl)
    assumption
  · apply writeFwActivate_kept (hm.sub rfl)
    assumption
  · apply writeSchedStatsClear_kept (hm.sub rfl)
    assumption
  · apply writeXpCopy_kept (hm.sub rfl)
    assumption
  · apply writeXpPreset_kept (hm.sub rfl)
    assumption
  · apply writeMeterClr_kept (hm.sub rfl)
    assumption
  · apply writeTmGrant_kept (hm.sub rfl)
    assumption
  · apply writeTmClose_kept (hm.sub rfl)
    assumption
  · apply writeTmClearQueue_kept (hm.sub rfl)
    assumption
  · apply writePoolTest_kept (hm.sub rfl)
    assumption
  · apply writeQFlush_kept (hm.sub rfl)
    assumption
  · apply legErase_kept (hm.sub rfl)
    assumption
  · apply writeMemStatsClear_kept (hm.sub rfl)
    assumption
  · apply writeHubOff_kept (hm.sub rfl)
    assumption
  · apply writeHostPing_kept (hm.sub rfl)
    assumption
  · apply writeChClear_kept (hm.sub rfl)
    assumption
  · apply writeChRetire_kept (hm.sub rfl)
    assumption
  · apply writeSwitchover_kept (hm.sub rfl)
    assumption
  · apply writeForceActive_kept (hm.sub rfl)
    assumption
  · apply writeStormClear_kept (hm.sub rfl)
    assumption
  · apply writeReturnPrep_kept (hm.sub rfl)
    assumption

theorem writeCmdMany_kept (hm : Has m 0x7fffffe) (x0 : Inst) (x1 : ℕ) (x2 : ℕ) (x3 : ℕ) (x4 : Bytes) (s : State)
    (hs : Kept m s₀ s) :
    Kept m s₀ (writeCmdMany x0 x1 x2 x3 x4 s) := by
  unfold writeCmdMany
  dsimp only
  apply Kept.ite
  · intro h2
    apply writeLegCtrl_kept (hm.sub rfl)
    assumption
  · intro h2
    apply Kept.ite
    · intro h4
      apply Kept.ite
      · intro h6
        apply writeEnumerate_kept (hm.sub rfl)
        assumption
      · intro h6
        apply writePwrClear_kept (hm.sub rfl)
        assumption
    · intro h4
      apply Kept.ite
      · intro h6
        apply Kept.ite
        · intro h8
          apply writePdReset_kept (hm.sub rfl)
          assumption
        · intro h8
          apply Kept.ite
          · intro h10
            apply writePdRequestRun_kept (hm.sub rfl)
            assumption
          · intro h10
            apply Kept.ite
            · intro h12
              apply writePdRequestCalm_kept (hm.sub rfl)
              assumption
            · intro h12
              apply writePdRequestFrost_kept (hm.sub rfl)
              assumption
      · intro h6
        apply Kept.ite
        · intro h8
          apply writeKunload_kept (hm.sub rfl)
          assumption
        · intro h8
          apply Kept.ite
          · intro h10
            apply writeLmReset_kept (hm.sub rfl)
            assumption
          · intro h10
            apply Kept.ite
            · intro h12
              apply writeRefresh_kept (hm.sub rfl)
              assumption
            · intro h12
              apply Kept.ite
              · intro h14
                apply writeLayerCopy_kept (hm.sub rfl)
                assumption
              · intro h14
                apply Kept.ite
                · intro h16
                  apply writeSlotErase_kept (hm.sub rfl)
                  assumption
                · intro h16
                  apply writeCmdOne_kept (hm.sub rfl)
                  assumption

theorem writeCmd_kept (hm : Has m 0x7fffffe) (x0 : Inst) (x1 : ℕ) (x2 : Entry) (x3 : ℕ) (x4 : ℕ) (x5 : Bytes) (s : State)
    (hs : Kept m s₀ s) :
    Kept m s₀ (writeCmd x0 x1 x2 x3 x4 x5 s) := by
  unfold writeCmd
  dsimp only
  apply Kept.ite
  · intro h2
    apply writeCmdMany_kept (hm.sub rfl)
    assumption
  · intro h2
    apply runCmdV_kept (hm.sub rfl)
    · intro y04 h5
      dsimp only [id]
      assumption
    · assumption

theorem writeKey_kept (hm : Has m 0x7fffffe) (x0 : Inst) (x1 : ℕ) (x2 : ℕ) (x3 : ℕ) (x4 : Bytes) (s : State)
    (hs : Kept m s₀ s) :
    Kept m s₀ (writeKey x0 x1 x2 x3 x4 s) := by
  unfold writeKey
  dsimp only
  split
  · apply runWriteV_kept (hm.sub rfl)
    · intro y03 h4
      dsimp only [id]
      assumption
    · assumption
  · apply Kept.ite
    · intro h3
      apply writeCmd_kept (hm.sub rfl)
      assumption
    · intro h3
      apply Kept.ite
      · intro h5
        apply writeLaunchRecord_kept (hm.sub rfl)
        assumption
      · intro h5
        apply Kept.ite
        · intro h7
          apply writeFwStage_kept (hm.sub rfl)
          assumption
        · intro h7
          split
          · apply Kept.ite
            · intro h10
              apply runEnable_kept (hm.sub rfl)
              · intro y012 h13
                apply keyEffect_kept (hm.sub rfl)
                assumption
              · assumption
            · intro h10
              apply runWriteV_kept (hm.sub rfl)
              · intro y012 h13
                dsimp only [id]
                assumption
              · assumption
          · apply runWriteV_kept (hm.sub rfl)
            · intro y010 h11
              apply keyEffect_kept (hm.sub rfl)
              assumption
            · assumption

theorem unitRun_kept (hm : Has m 0x7fffffe) (x0 : Inst) (x1 : ℕ) (x2 : List (ℕ × ℕ × Bytes)) (s : State)
    (hs : Kept m s₀ s) :
    ExAll (Kept m s₀) (unitRun x0 x1 x2 s) := by
  unfold unitRun
  split
  · apply ExAll.ok
    assumption
  · dsimp only
    apply ExAll.ite
    · intro h3
      exact ExAll.error
    · intro h3
      apply ExAll.ite
      · intro h5
        exact ExAll.error
      · intro h5
        apply unitRun_kept (hm.sub rfl)
        apply writeKey_kept (hm.sub rfl)
        refine Kept.dic_put (hm.sub rfl) ?_
        assumption

theorem unitRun_elim {x0 : Inst} {x1 : ℕ} {x2 : List (ℕ × ℕ × Bytes)} {s : State}  {t : State} (hm : Has m 0x7fffffe) (e : (unitRun x0 x1 x2 s) = (.ok t))
    (hs : Kept m s₀ s) : Kept m s₀ t := by
  have hk := unitRun_kept hm x0 x1 x2 s hs
  rw [e] at hk
  exact (ExAll.elim hk rfl)

theorem unitGo_kept (hm : Has m 0x7fffffe) (x0 : Inst) (x1 : ℕ) (x2 : ℕ) (x3 : ℕ) (x4 : ℕ) (x5 : List (ℕ × ℕ × Bytes)) (x6 : Durable) (s : State)
    (hs : Kept m s₀ s) :
    Kept m s₀ (unitGo x0 x1 x2 x3 x4 x5 x6 s) := by
  unfold unitGo
  split
  · apply respond_kept (hm.sub rfl)
    assumption
  · split
    · apply respond_kept (hm.sub rfl)
      assumption
    · dsimp only
      apply respond_kept (hm.sub rfl)
      refine Kept.dic_put (hm.sub rfl) ?_
      apply unitRun_elim (hm.sub rfl) (by assumption)
      apply acceptAs_kept (hm.sub rfl)
      assumption

theorem acceptEntry_kept (hm : Has m 0x7fffffe) (x0 : JEntry) (s : State)
    (hs : Kept m s₀ s) :
    Kept m s₀ (acceptEntry x0 s) := by
  unfold acceptEntry
  dsimp only
  split
  · apply acceptDict_kept (hm.sub rfl)
    · intro y03 h4
      apply writeKey_kept (hm.sub rfl)
      assumption
    · assumption
  · split
    · apply acceptDict_kept (hm.sub rfl)
      · intro y04 h5
        apply unitGo_kept (hm.sub rfl)
        assumption
      · assumption
    · apply jrnlCommit_kept (hm.sub rfl)
      dsimp only [id]
      apply jrnlAccepted_kept (hm.sub rfl)
      assumption
  · apply acceptDict_kept (hm.sub rfl)
    · intro y03 h4
      apply unitGo_kept (hm.sub rfl)
      assumption
    · assumption
  · apply acceptDict_kept (hm.sub rfl)
    · intro y03 h4
      apply writeLegCtrl_kept (hm.sub rfl)
      assumption
    · assumption
  · apply jrnlCommit_kept (hm.sub rfl)
    refine Kept.fld_put (hm.sub rfl) ?_
    apply lanokSend_kept (hm.sub rfl)
    apply bump_kept (hm.sub rfl)
    apply nodeUpd_kept (hm.sub rfl)
    apply jrnlAccepted_kept (hm.sub rfl)
    assumption
  · apply jrnlCommit_kept (hm.sub rfl)
    apply nodeUpd_kept (hm.sub rfl)
    apply jrnlAccepted_kept (hm.sub rfl)
    assumption
  · apply jrnlCommit_kept (hm.sub rfl)
    apply armAccepted_kept (hm.sub rfl)
    apply jrnlAccepted_kept (hm.sub rfl)
    assumption
  · apply jrnlCommit_kept (hm.sub rfl)
    apply cancelAccepted_kept (hm.sub rfl)
    apply jrnlAccepted_kept (hm.sub rfl)
    assumption
  · apply jrnlCommit_kept (hm.sub rfl)
    apply sealVote_kept (hm.sub rfl)
    apply jrnlAccepted_kept (hm.sub rfl)
    assumption
  · apply answerRepeats_kept (hm.sub rfl)
    apply place_kept (hm.sub rfl)
    apply Kept.ite
    · intro h5
      apply sqDone_kept (hm.sub rfl)
      apply upd_kept (hm.sub rfl)
      · intro y08 h9
        apply jrnlUpd_kept (hm.sub rfl)
        assumption
      · apply jrnlAccepted_kept (hm.sub rfl)
        assumption
    · intro h5
      apply emit_kept (hm.sub rfl)
      apply upd_kept (hm.sub rfl)
      · intro y08 h9
        apply jrnlUpd_kept (hm.sub rfl)
        assumption
      · apply jrnlAccepted_kept (hm.sub rfl)
        assumption

theorem execJournalAccept_kept (hm : Has m 0x7fffffe) (s : State)
    (hs : Kept m s₀ s) :
    ResAll (Kept m s₀) (execJournalAccept s) := by
  unfold execJournalAccept
  split
  · apply ResAll.next
    apply Kept.ite
    · exact fun _ => by assumption
    · intro h3
      apply acceptEntry_kept (hm.sub rfl)
      assumption
  · apply ResAll.next
    assumption

theorem unitClose_kept (hm : Has m 0x7fffffe) (x0 : Inst) (x1 : ℕ) (x2 : ℕ) (x3 : ℕ) (x4 : ℕ) (x5 : List (ℕ × ℕ × Bytes)) (x6 : Durable) (s : State)
    (hs : Kept m s₀ s) :
    Kept m s₀ (unitClose x0 x1 x2 x3 x4 x5 x6 s) := by
  unfold unitClose
  split
  · apply respond_kept (hm.sub rfl)
    assumption
  · apply Kept.ite
    · intro h2
      apply respond_kept (hm.sub rfl)
      assumption
    · intro h2
      apply OptAll.getD
      · apply repeated_kept (hm.sub rfl)
        assumption
      · apply Kept.ite
        · intro h5
          apply deferAs_kept (hm.sub rfl)
          assumption
        · intro h5
          apply unitGo_kept (hm.sub rfl)
          assumption

theorem execPeerCopyTimeout_kept (hm : Has m 0x7fffffe) (s : State)
    (hs : Kept m s₀ s) :
    ResAll (Kept m s₀) (execPeerCopyTimeout s) := by
  unfold execPeerCopyTimeout
  split
  · apply ResAll.next
    apply Kept.ite
    · exact fun _ => by assumption
    · intro h3
      apply acceptEntry_kept (hm.sub rfl)
      apply setPairState_kept (hm.sub rfl)
      refine Kept.pair_put (hm.sub rfl) ?_
      assumption
  · apply ResAll.next
    assumption

end Sys2Proof.Machine
end

