-- ==== Sys2Proof/Laws/KeptRead.lean ====
section
/-! SUPPORT. Every effect of Machine/Read.lean keeps what `Kept` says. -/
set_option Elab.async false
namespace Sys2Proof.Machine

variable {m : Nat} {s₀ : State}

theorem liveValue_kept (hm : Has m 0x10) (x0 : ℕ) (s : State)
    (hs : Kept m s₀ s) :
    SndAll (Kept m s₀) (liveValue x0 s) := by
  unfold liveValue
  dsimp only
  split
  · apply SndAll.ite
    · intro h3
      apply SndAll.mk
      assumption
    · intro h3
      apply SndAll.mk
      apply drew_kept (hm.sub rfl)
      assumption
  · split
    · apply SndAll.mk
      assumption
    · apply SndAll.ite
      · intro h4
        apply SndAll.mk
        assumption
      · intro h4
        apply SndAll.ite
        · intro h6
          apply SndAll.mk
          assumption
        · intro h6
          apply SndAll.mk
          assumption

theorem liveValue_elim {x0 : ℕ} {s : State} {v0} {t : State} (hm : Has m 0x10) (e : (liveValue x0 s) = (v0, t))
    (hs : Kept m s₀ s) : Kept m s₀ t := by
  have hk := liveValue_kept hm x0 s hs
  rw [e] at hk
  exact (SndAll.elim hk rfl)

theorem readValue_kept (hm : Has m 0x12) (x0 : ℕ) (s : State)
    (hs : Kept m s₀ s) :
    SndAll (Kept m s₀) (readValue x0 s) := by
  unfold readValue
  dsimp only
  apply SndAll.ite
  · intro h2
    apply SndAll.mk
    assumption
  · intro h2
    apply liveValue_kept (hm.sub rfl)
    assumption

theorem readValue_elim {x0 : ℕ} {s : State} {v0} {t : State} (hm : Has m 0x12) (e : (readValue x0 s) = (v0, t))
    (hs : Kept m s₀ s) : Kept m s₀ t := by
  have hk := readValue_kept hm x0 s hs
  rw [e] at hk
  exact (SndAll.elim hk rfl)

theorem fieldValue_kept (hm : Has m 0x10) (x0 : ℕ) (s : State)
    (hs : Kept m s₀ s) :
    SndAll (Kept m s₀) (fieldValue x0 s) := by
  unfold fieldValue
  split
  · apply SndAll.ite
    · intro h2
      apply SndAll.mk
      assumption
    · intro h2
      apply liveValue_kept (hm.sub rfl)
      assumption
  · apply SndAll.mk
    assumption

theorem fieldValue_elim {x0 : ℕ} {s : State} {v0} {t : State} (hm : Has m 0x10) (e : (fieldValue x0 s) = (v0, t))
    (hs : Kept m s₀ s) : Kept m s₀ t := by
  have hk := fieldValue_kept hm x0 s hs
  rw [e] at hk
  exact (SndAll.elim hk rfl)

end Sys2Proof.Machine
end

