-- ==== Sys2Proof/Laws/KeptDict.lean ====
section
/-! SUPPORT. Every effect of Machine/Dict.lean keeps what `Kept` says. -/
set_option Elab.async false
namespace Sys2Proof.Machine

variable {m : Nat} {s₀ : State}

theorem blobSet_kept (hm : Has m 0x80) (x0 : Inst) (x1 : Option Blob) (s : State)
    (hs : Kept m s₀ s) :
    Kept m s₀ (blobSet x0 x1 s) := by
  unfold blobSet
  refine Kept.dic_put (hm.sub rfl) ?_
  assumption

theorem touch_kept (hm : Has m 0x100080) (x0 : Inst) (s : State)
    (hs : Kept m s₀ s) :
    Kept m s₀ (touch x0 s) := by
  unfold touch
  dsimp only
  refine Kept.mk' (v := 1048704) (hm.sub rfl) rfl ?_ ?_
  · split
    · apply blobSet_kept (hm.sub rfl)
      assumption
    · assumption
  · intro p hp
    cases p <;> first | exact absurd hp (by dsimp only [StatePart.idx]; decide) | exact Eq.refl _ | exact ⟨Eq.refl _, Eq.refl _, Eq.refl _⟩

theorem received_kept (hm : Has m 0x100080) (x0 : Inst) (x1 : State → State) (s : State)
    (hf1 : ∀ y0, Kept m s₀ y0 → (Kept m s₀) (x1 y0)) (hs : Kept m s₀ s) :
    Kept m s₀ (received x0 x1 s) := by
  unfold received
  apply Kept.ite
  · intro h1
    apply hf1
    apply touch_kept (hm.sub rfl)
    assumption
  · exact fun _ => by assumption

theorem reqRead_kept (hm : Has m 0x4230da) (x0 : Inst) (x1 : ℕ) (x2 : ℕ) (x3 : ℕ) (x4 : Bytes) (s : State)
    (hs : Kept m s₀ s) :
    Kept m s₀ (reqRead x0 x1 x2 x3 x4 s) := by
  unfold reqRead
  dsimp only
  apply Kept.ite
  · intro h2
    apply respondAs_kept (hm.sub rfl)
    apply Kept.snd
    apply readValue_kept (hm.sub rfl)
    assumption
  · intro h2
    apply respondAs_kept (hm.sub rfl)
    assumption

theorem groupSet_kept (hm : Has m 0x80) (x0 : Inst) (x1 : List (ℕ × ℕ × Bytes)) (s : State)
    (hs : Kept m s₀ s) :
    Kept m s₀ (groupSet x0 x1 s) := by
  unfold groupSet
  refine Kept.dic_put (hm.sub rfl) ?_
  assumption

theorem reqGroup_kept (hm : Has m 0x4230da) (x0 : Inst) (x1 : ℕ) (x2 : ℕ) (x3 : ℕ) (x4 : Bytes) (s : State)
    (hs : Kept m s₀ s) :
    Kept m s₀ (reqGroup x0 x1 x2 x3 x4 s) := by
  unfold reqGroup
  dsimp only
  apply Kept.ite
  · intro h2
    apply respondAs_kept (hm.sub rfl)
    assumption
  · intro h2
    apply Kept.ite
    · intro h4
      apply respondAs_kept (hm.sub rfl)
      apply groupSet_kept (hm.sub rfl)
      assumption
    · intro h4
      apply respondAs_kept (hm.sub rfl)
      apply groupSet_kept (hm.sub rfl)
      refine Kept.dic_put (hm.sub rfl) ?_
      assumption

theorem answerReq_kept (hm : Has m 0x4230da) (x0 : Inst) (x1 : ℕ) (x2 : ℕ) (x3 : ℕ) (x4 : ℕ) (x5 : Status) (s : State)
    (hs : Kept m s₀ s) :
    Kept m s₀ (answerReq x0 x1 x2 x3 x4 x5 s) := by
  unfold answerReq
  apply respond_kept (hm.sub rfl)
  assumption

theorem closeGroup_kept (hm : Has m 0x7fffffe) (x0 : Inst) (x1 : ℕ) (x2 : ℕ) (x3 : ℕ) (x4 : Bytes) (s : State)
    (hs : Kept m s₀ s) :
    Kept m s₀ (closeGroup x0 x1 x2 x3 x4 s) := by
  unfold closeGroup
  apply Kept.ite
  · intro h1
    apply notServed_kept (hm.sub rfl)
    assumption
  · intro h1
    apply Kept.ite
    · intro h3
      apply answerReq_kept (hm.sub rfl)
      assumption
    · intro h3
      dsimp only
      apply unitClose_kept (hm.sub rfl)
      apply groupSet_kept (hm.sub rfl)
      assumption

theorem reqWrite_kept (hm : Has m 0x7fffffe) (x0 : Inst) (x1 : ℕ) (x2 : ℕ) (x3 : ℕ) (x4 : Bytes) (s : State)
    (hs : Kept m s₀ s) :
    Kept m s₀ (reqWrite x0 x1 x2 x3 x4 s) := by
  unfold reqWrite
  apply Kept.ite
  · intro h1
    apply writeKey_kept (hm.sub rfl)
    assumption
  · intro h1
    apply closeGroup_kept (hm.sub rfl)
    assumption

theorem reqOpenWrite_kept (hm : Has m 0x4230da) (x0 : Inst) (x1 : ℕ) (x2 : ℕ) (x3 : ℕ) (x4 : Bytes) (s : State)
    (hs : Kept m s₀ s) :
    Kept m s₀ (reqOpenWrite x0 x1 x2 x3 x4 s) := by
  unfold reqOpenWrite
  dsimp only
  apply Kept.ite
  · intro h2
    apply answerReq_kept (hm.sub rfl)
    assumption
  · intro h2
    split
    · apply answerReq_kept (hm.sub rfl)
      apply blobSet_kept (hm.sub rfl)
      assumption
    · apply answerReq_kept (hm.sub rfl)
      assumption

theorem reqOpenRead_kept (hm : Has m 0x4230da) (x0 : Inst) (x1 : ℕ) (x2 : ℕ) (x3 : ℕ) (x4 : Bytes) (s : State)
    (hs : Kept m s₀ s) :
    Kept m s₀ (reqOpenRead x0 x1 x2 x3 x4 s) := by
  unfold reqOpenRead
  dsimp only
  apply Kept.ite
  · intro h2
    apply respondAs_kept (hm.sub rfl)
    apply blobSet_kept (hm.sub rfl)
    apply Kept.snd
    apply readValue_kept (hm.sub rfl)
    assumption
  · intro h2
    apply answerReq_kept (hm.sub rfl)
    assumption

theorem stagePut_kept (hm : Has m 0x2440008) (x0 : ℕ) (x1 : ℕ) (x2 : Bytes) (s : State)
    (hs : Kept m s₀ s) :
    Kept m s₀ (stagePut x0 x1 x2 s) := by
  unfold stagePut
  apply upd_kept (hm.sub rfl)
  · intro y01 h2
    apply pairSend_kept (hm.sub rfl)
    assumption
  · apply mirrorPut_kept (hm.sub rfl)
    assumption

theorem reqData_kept (hm : Has m 0x24630da) (x0 : Inst) (x1 : ℕ) (x2 : ℕ) (x3 : ℕ) (x4 : Bytes) (s : State)
    (hs : Kept m s₀ s) :
    Kept m s₀ (reqData x0 x1 x2 x3 x4 s) := by
  unfold reqData
  dsimp only
  split
  · apply answerReq_kept (hm.sub rfl)
    assumption
  · apply Kept.ite
    · intro h3
      apply answerReq_kept (hm.sub rfl)
      assumption
    · intro h3
      apply Kept.ite
      · intro h5
        apply Kept.ite
        · intro h7
          apply answerReq_kept (hm.sub rfl)
          assumption
        · intro h7
          apply answerReq_kept (hm.sub rfl)
          apply stagePut_kept (hm.sub rfl)
          apply blobSet_kept (hm.sub rfl)
          assumption
      · intro h5
        apply Kept.ite
        · intro h7
          apply answerReq_kept (hm.sub rfl)
          assumption
        · intro h7
          apply respondAs_kept (hm.sub rfl)
          assumption

theorem reqClose_kept (hm : Has m 0x7fffffe) (x0 : Inst) (x1 : ℕ) (x2 : ℕ) (x3 : ℕ) (x4 : Bytes) (s : State)
    (hs : Kept m s₀ s) :
    Kept m s₀ (reqClose x0 x1 x2 x3 x4 s) := by
  unfold reqClose
  dsimp only
  split
  · apply answerReq_kept (hm.sub rfl)
    assumption
  · apply Kept.ite
    · intro h3
      apply answerReq_kept (hm.sub rfl)
      assumption
    · intro h3
      apply Kept.ite
      · intro h5
        apply Kept.ite
        · intro h7
          apply answerReq_kept (hm.sub rfl)
          apply blobSet_kept (hm.sub rfl)
          assumption
        · intro h7
          apply unitClose_kept (hm.sub rfl)
          apply blobSet_kept (hm.sub rfl)
          assumption
      · intro h5
        apply answerReq_kept (hm.sub rfl)
        apply blobSet_kept (hm.sub rfl)
        assumption

theorem reqAbort_kept (hm : Has m 0x4230da) (x0 : Inst) (x1 : ℕ) (x2 : ℕ) (x3 : ℕ) (x4 : Bytes) (s : State)
    (hs : Kept m s₀ s) :
    Kept m s₀ (reqAbort x0 x1 x2 x3 x4 s) := by
  unfold reqAbort
  dsimp only
  apply Kept.ite
  · intro h2
    apply answerReq_kept (hm.sub rfl)
    assumption
  · intro h2
    apply answerReq_kept (hm.sub rfl)
    apply groupSet_kept (hm.sub rfl)
    apply blobSet_kept (hm.sub rfl)
    assumption

theorem transact_kept (hm : Has m 0x7fffffe) (x0 : Inst) (x1 : ℕ) (x2 : ℕ) (x3 : ℕ) (x4 : ℕ) (x5 : ℕ) (x6 : Bytes) (s : State)
    (hs : Kept m s₀ s) :
    Kept m s₀ (transact x0 x1 x2 x3 x4 x5 x6 s) := by
  unfold transact
  apply received_kept (hm.sub rfl)
  · intro y01 h2
    apply Kept.ite
    · intro h4
      apply notServed_kept (hm.sub rfl)
      assumption
    · intro h4
      split
      · apply reqRead_kept (hm.sub rfl)
        assumption
      · apply Kept.ite
        · intro h7
          apply reqGroup_kept (hm.sub rfl)
          assumption
        · intro h7
          apply reqWrite_kept (hm.sub rfl)
          assumption
      · apply reqOpenWrite_kept (hm.sub rfl)
        assumption
      · apply reqOpenRead_kept (hm.sub rfl)
        assumption
      · apply reqData_kept (hm.sub rfl)
        assumption
      · apply reqClose_kept (hm.sub rfl)
        assumption
      · apply reqAbort_kept (hm.sub rfl)
        assumption
      · apply answerReq_kept (hm.sub rfl)
        assumption
  · assumption

theorem execBlobData_kept (hm : Has m 0x7fffffe) (x0 : Inst) (x1 : ℕ) (x2 : ℕ) (x3 : ℕ) (x4 : Bytes) (s : State)
    (hs : Kept m s₀ s) :
    ResAll (Kept m s₀) (execBlobData x0 x1 x2 x3 x4 s) := by
  unfold execBlobData
  apply ResAll.next
  apply transact_kept (hm.sub rfl)
  assumption

theorem execGroupWrite_kept (hm : Has m 0x7fffffe) (x0 : Inst) (x1 : ℕ) (x2 : ℕ) (x3 : ℕ) (x4 : Bytes) (s : State)
    (hs : Kept m s₀ s) :
    ResAll (Kept m s₀) (execGroupWrite x0 x1 x2 x3 x4 s) := by
  unfold execGroupWrite
  apply ResAll.next
  apply transact_kept (hm.sub rfl)
  assumption

theorem orClose_kept (hm : Has m 0x7fffffe) (x0 : Inst) (x1 : ℕ) (x2 : ℕ) (x3 : ℕ) (x4 : Bytes) (x5 : State → State) (s : State)
    (hf5 : ∀ y0, Kept m s₀ y0 → (Kept m s₀) (x5 y0)) (hs : Kept m s₀ s) :
    Kept m s₀ (orClose x0 x1 x2 x3 x4 x5 s) := by
  unfold orClose
  apply received_kept (hm.sub rfl)
  · intro y01 h2
    apply Kept.ite
    · intro h4
      apply hf5
      assumption
    · intro h4
      apply closeGroup_kept (hm.sub rfl)
      assumption
  · assumption

theorem execGroupTimeout_kept (hm : Has m 0x80) (x0 : Inst) (s : State)
    (hs : Kept m s₀ s) :
    ResAll (Kept m s₀) (execGroupTimeout x0 s) := by
  unfold execGroupTimeout
  apply ResAll.next
  apply Kept.ite
  · intro h2
    apply groupSet_kept (hm.sub rfl)
    assumption
  · exact fun _ => by assumption

theorem execBlobTimeout_kept (hm : Has m 0x80) (x0 : Inst) (s : State)
    (hs : Kept m s₀ s) :
    ResAll (Kept m s₀) (execBlobTimeout x0 s) := by
  unfold execBlobTimeout
  apply ResAll.next
  split
  · apply Kept.ite
    · intro h3
      apply blobSet_kept (hm.sub rfl)
      assumption
    · exact fun _ => by assumption
  · assumption

theorem execWrite_kept (hm : Has m 0x7fffffe) (x0 : Inst) (x1 : ℕ) (x2 : ℕ) (x3 : ℕ) (x4 : Bytes) (s : State)
    (hs : Kept m s₀ s) :
    ResAll (Kept m s₀) (execWrite x0 x1 x2 x3 x4 s) := by
  unfold execWrite
  apply ResAll.next
  apply transact_kept (hm.sub rfl)
  assumption

theorem execBlobClose_kept (hm : Has m 0x7fffffe) (x0 : Inst) (x1 : ℕ) (x2 : ℕ) (x3 : ℕ) (x4 : Bytes) (s : State)
    (hs : Kept m s₀ s) :
    ResAll (Kept m s₀) (execBlobClose x0 x1 x2 x3 x4 s) := by
  unfold execBlobClose
  apply ResAll.next
  apply transact_kept (hm.sub rfl)
  assumption

theorem execRead_kept (hm : Has m 0x7fffffe) (x0 : Inst) (x1 : ℕ) (x2 : ℕ) (x3 : ℕ) (s : State)
    (hs : Kept m s₀ s) :
    ResAll (Kept m s₀) (execRead x0 x1 x2 x3 s) := by
  unfold execRead
  apply ResAll.next
  apply transact_kept (hm.sub rfl)
  assumption

theorem execBlobOpenWrite_kept (hm : Has m 0x7fffffe) (x0 : Inst) (x1 : ℕ) (x2 : ℕ) (x3 : ℕ) (x4 : ℕ) (s : State)
    (hs : Kept m s₀ s) :
    ResAll (Kept m s₀) (execBlobOpenWrite x0 x1 x2 x3 x4 s) := by
  unfold execBlobOpenWrite
  apply ResAll.next
  apply transact_kept (hm.sub rfl)
  assumption

theorem execAbort_kept (hm : Has m 0x7fffffe) (x0 : Inst) (x1 : ℕ) (x2 : ℕ) (x3 : ℕ) (s : State)
    (hs : Kept m s₀ s) :
    ResAll (Kept m s₀) (execAbort x0 x1 x2 x3 s) := by
  unfold execAbort
  apply ResAll.next
  apply transact_kept (hm.sub rfl)
  assumption

theorem execBlobOpenRead_kept (hm : Has m 0x7fffffe) (x0 : Inst) (x1 : ℕ) (x2 : ℕ) (x3 : ℕ) (s : State)
    (hs : Kept m s₀ s) :
    ResAll (Kept m s₀) (execBlobOpenRead x0 x1 x2 x3 s) := by
  unfold execBlobOpenRead
  apply ResAll.next
  apply transact_kept (hm.sub rfl)
  assumption

end Sys2Proof.Machine
end

