-- ==== Sys2Proof/Laws/KeptCarrier.lean ====
section
/-! SUPPORT. Every effect of Machine/Carrier.lean keeps what `Kept` says. -/
set_option Elab.async false
namespace Sys2Proof.Machine

variable {m : Nat} {s₀ : State}

theorem serveNode_kept (hm : Has m 0x7fffffe) (x0 : Inst) (x1 : Bytes) (s : State)
    (hs : Kept m s₀ s) :
    Kept m s₀ (serveNode x0 x1 s) := by
  unfold serveNode
  dsimp only
  apply Kept.ite
  · exact fun _ => by assumption
  · intro h2
    apply Kept.ite
    · intro h4
      apply notServed_kept (hm.sub rfl)
      apply touch_kept (hm.sub rfl)
      assumption
    · intro h4
      apply Kept.ite
      · intro h6
        apply answerReq_kept (hm.sub rfl)
        assumption
      · intro h6
        apply Kept.ite
        · intro h8
          apply transact_kept (hm.sub rfl)
          assumption
        · intro h8
          split
          · apply answerReq_kept (hm.sub rfl)
            apply sealNow_elim (hm.sub rfl) (by assumption)
            assumption
          · apply Kept.ite
            · intro h11
              apply transact_kept (hm.sub rfl)
              apply sealNow_elim (hm.sub rfl) (by assumption)
              assumption
            · intro h11
              apply answerReq_kept (hm.sub rfl)
              apply touch_kept (hm.sub rfl)
              apply sealNow_elim (hm.sub rfl) (by assumption)
              assumption

theorem malformedReply_kept (hm : Has m 0x4230da) (x0 : Inst) (x1 : Bytes) (s : State)
    (hs : Kept m s₀ s) :
    Kept m s₀ (malformedReply x0 x1 s) := by
  unfold malformedReply
  dsimp only
  apply Kept.ite
  · intro h2
    apply bump_kept (hm.sub rfl)
    assumption
  · intro h2
    apply sendRsp_kept (hm.sub rfl)
    apply bump_kept (hm.sub rfl)
    assumption

theorem verifyEnvelope_kept (hm : Has m 0x82) (x0 : Inst) (x1 : Bytes) (s : State)
    (hs : Kept m s₀ s) :
    SndAll (Kept m s₀) (verifyEnvelope x0 x1 s) := by
  unfold verifyEnvelope
  dsimp only
  split
  · apply SndAll.mk
    apply sealNow_elim (hm.sub rfl) (by assumption)
    assumption
  · apply SndAll.mk
    apply upd_kept (hm.sub rfl)
    · intro y04 h5
      refine Kept.dic_put (hm.sub rfl) ?_
      assumption
    · apply sealNow_elim (hm.sub rfl) (by assumption)
      assumption

theorem verifyEnvelope_elim {x0 : Inst} {x1 : Bytes} {s : State} {v0} {t : State} (hm : Has m 0x82) (e : (verifyEnvelope x0 x1 s) = (v0, t))
    (hs : Kept m s₀ s) : Kept m s₀ t := by
  have hk := verifyEnvelope_kept hm x0 x1 s hs
  rw [e] at hk
  exact (SndAll.elim hk rfl)

theorem serveEnvelope_kept (hm : Has m 0x7fffffe) (x0 : Inst) (x1 : Bytes) (s : State)
    (hs : Kept m s₀ s) :
    Kept m s₀ (serveEnvelope x0 x1 s) := by
  unfold serveEnvelope
  dsimp only
  apply Kept.ite
  · exact fun _ => by assumption
  · intro h2
    apply Kept.ite
    · intro h4
      apply malformedReply_kept (hm.sub rfl)
      assumption
    · intro h4
      apply Kept.ite
      · intro h6
        apply notServed_kept (hm.sub rfl)
        apply touch_kept (hm.sub rfl)
        assumption
      · intro h6
        apply Kept.ite
        · intro h8
          apply transact_kept (hm.sub rfl)
          assumption
        · intro h8
          split
          · apply answerReq_kept (hm.sub rfl)
            apply verifyEnvelope_elim (hm.sub rfl) (by assumption)
            assumption
          · apply answerReq_kept (hm.sub rfl)
            apply touch_kept (hm.sub rfl)
            apply verifyEnvelope_elim (hm.sub rfl) (by assumption)
            assumption
          · apply transact_kept (hm.sub rfl)
            apply verifyEnvelope_elim (hm.sub rfl) (by assumption)
            assumption

theorem serveRequest_kept (hm : Has m 0x7fffffe) (x0 : Inst) (x1 : Bytes) (s : State)
    (hs : Kept m s₀ s) :
    Kept m s₀ (serveRequest x0 x1 s) := by
  unfold serveRequest
  apply Kept.ite
  · intro h1
    apply serveNode_kept (hm.sub rfl)
    assumption
  · intro h1
    apply serveEnvelope_kept (hm.sub rfl)
    assumption

theorem execDictReq_kept (hm : Has m 0x7fffffe) (x0 : LHdr) (x1 : Inst) (x2 : Bytes) (s : State)
    (hs : Kept m s₀ s) :
    ResAll (Kept m s₀) (execDictReq x0 x1 x2 s) := by
  unfold execDictReq
  apply onLanok_kept (hm.sub rfl)
  · intro y01 h2
    apply Kept.ite
    · intro h4
      apply pairSend_kept (hm.sub rfl)
      assumption
    · intro h4
      apply serveRequest_kept (hm.sub rfl)
      assumption
  · assumption

theorem nodeSegments_kept (hm : Has m 0x40) (x0 : ℕ) (x1 : ℕ) (x2 : ℕ) (x3 : Bytes) (s : State)
    (hs : Kept m s₀ s) :
    Kept m s₀ (nodeSegments x0 x1 x2 x3 s) := by
  unfold nodeSegments
  split
  · assumption
  · dsimp only
    apply Kept.ite
    · intro h3
      apply trunkUpd_kept (hm.sub rfl)
      assumption
    · intro h3
      apply nodeSegments_kept (hm.sub rfl)
      apply trunkUpd_kept (hm.sub rfl)
      assumption

theorem fieldReply_kept (hm : Has m 0x48) (x0 : Inst) (x1 : Bytes) (s : State)
    (hs : Kept m s₀ s) :
    Kept m s₀ (fieldReply x0 x1 s) := by
  unfold fieldReply
  apply Kept.ite
  · intro h1
    apply canSend_kept (hm.sub rfl)
    assumption
  · intro h1
    apply Kept.ite
    · intro h3
      apply nodeSegments_kept (hm.sub rfl)
      assumption
    · exact fun _ => by assumption

theorem execDictRsp_kept (hm : Has m 0x400048) (x0 : LHdr) (x1 : Inst) (x2 : Bytes) (s : State)
    (hs : Kept m s₀ s) :
    ResAll (Kept m s₀) (execDictRsp x0 x1 x2 s) := by
  unfold execDictRsp
  apply onLanok_kept (hm.sub rfl)
  · intro y01 h2
    apply fieldReply_kept (hm.sub rfl)
    assumption
  · assumption

theorem canFrame.canBusy_kept (hm : Has m 0x48) (x0 : ℕ) (x1 : Bytes) (s : State)
    (hs : Kept m s₀ s) :
    Kept m s₀ (canFrame.canBusy x0 x1 s) := by
  unfold canFrame.canBusy
  dsimp only
  apply canUpd_kept (hm.sub rfl)
  apply canSend_kept (hm.sub rfl)
  assumption

theorem mbxGo_kept (hm : Has m 0x7fffffe) (x0 : ℕ) (s : State)
    (hs : Kept m s₀ s) :
    Kept m s₀ (mbxGo x0 s) := by
  unfold mbxGo
  apply Kept.ite
  · intro h1
    apply bump_kept (hm.sub rfl)
    assumption
  · intro h1
    apply serveEnvelope_kept (hm.sub rfl)
    apply mbxUpd_kept (hm.sub rfl)
    assumption

theorem throughQueue_kept (hm : Has m 0x2301a) (x0 : ℕ) (x1 : Frame) (x2 : State → State) (s : State)
    (hf2 : ∀ y0, Kept m s₀ y0 → (Kept m s₀) (x2 y0)) (hs : Kept m s₀ s) :
    Kept m s₀ (throughQueue x0 x1 x2 s) := by
  unfold throughQueue
  dsimp only
  split
  · apply Kept.snd
    apply admitPacket_kept (hm.sub rfl)
    assumption
  · apply dropEntry_kept (hm.sub rfl)
    apply hf2
    apply Kept.snd
    apply admitPacket_kept (hm.sub rfl)
    assumption

theorem udpDatagram_kept (hm : Has m 0x7fffffe) (x0 : Bytes) (x1 : ℕ) (x2 : Bool) (x3 : Bytes) (s : State)
    (hs : Kept m s₀ s) :
    Kept m s₀ (udpDatagram x0 x1 x2 x3 s) := by
  unfold udpDatagram
  apply Kept.ite
  · exact fun _ => by assumption
  · intro h1
    apply Kept.ite
    · intro h3
      apply bump_kept (hm.sub rfl)
      assumption
    · intro h3
      apply serveEnvelope_kept (hm.sub rfl)
      assumption

theorem mgmtAnswer_kept (hm : Has m 0x2301a) (x0 : Frame) (s : State)
    (hs : Kept m s₀ s) :
    Kept m s₀ (mgmtAnswer x0 s) := by
  unfold mgmtAnswer
  split
  · apply answer_kept (hm.sub rfl)
    assumption
  · apply answer_kept (hm.sub rfl)
    assumption
  · apply answer_kept (hm.sub rfl)
    assumption
  · assumption

theorem mgmtFrame_kept (hm : Has m 0x7fffffe) (x0 : Frame) (s : State)
    (hs : Kept m s₀ s) :
    Kept m s₀ (mgmtFrame x0 s) := by
  unfold mgmtFrame
  dsimp only
  split
  · apply pauseIn_kept (hm.sub rfl)
    apply bumpBy_kept (hm.sub rfl)
    apply bump_kept (hm.sub rfl)
    assumption
  · apply bumpBy_kept (hm.sub rfl)
    apply bump_kept (hm.sub rfl)
    assumption
  · apply Kept.ite
    · intro h3
      split
      · apply throughQueue_kept (hm.sub rfl)
        · intro y06 h7
          apply udpDatagram_kept (hm.sub rfl)
          assumption
        · apply bumpBy_kept (hm.sub rfl)
          apply bump_kept (hm.sub rfl)
          assumption
      · apply bumpBy_kept (hm.sub rfl)
        apply bump_kept (hm.sub rfl)
        assumption
    · intro h3
      apply Kept.ite
      · intro h5
        apply ptpFrame_kept (hm.sub rfl)
        apply bumpBy_kept (hm.sub rfl)
        apply bump_kept (hm.sub rfl)
        assumption
      · intro h5
        apply Kept.ite
        · intro h7
          apply mgmtAnswer_kept (hm.sub rfl)
          apply bumpBy_kept (hm.sub rfl)
          apply bump_kept (hm.sub rfl)
          assumption
        · intro h7
          apply Kept.ite
          · intro h9
            apply toExc_kept (hm.sub rfl)
            apply bumpBy_kept (hm.sub rfl)
            apply bump_kept (hm.sub rfl)
            assumption
          · intro h9
            apply bumpBy_kept (hm.sub rfl)
            apply bump_kept (hm.sub rfl)
            assumption

theorem execMgmtFrameReceived_kept (hm : Has m 0x7fffffe) (x0 : Frame) (s : State)
    (hs : Kept m s₀ s) :
    ResAll (Kept m s₀) (execMgmtFrameReceived x0 s) := by
  unfold execMgmtFrameReceived
  apply ResAll.next
  apply Kept.ite
  · exact fun _ => by assumption
  · intro h2
    apply mgmtFrame_kept (hm.sub rfl)
    assumption

theorem fieldAnswer_kept (hm : Has m 0x48) (x0 : Inst) (x1 : ℕ) (x2 : ℕ) (x3 : ℕ) (x4 : ℕ) (x5 : Status) (x6 : Bytes) (s : State)
    (hs : Kept m s₀ s) :
    Kept m s₀ (fieldAnswer x0 x1 x2 x3 x4 x5 x6 s) := by
  unfold fieldAnswer
  dsimp only
  apply fieldReply_kept (hm.sub rfl)
  apply emit_kept (hm.sub rfl)
  assumption

theorem fieldRead_kept (hm : Has m 0x58) (x0 : Inst) (x1 : ℕ) (x2 : ℕ) (x3 : ℕ) (x4 : ℕ) (s : State)
    (hs : Kept m s₀ s) :
    Kept m s₀ (fieldRead x0 x1 x2 x3 x4 s) := by
  unfold fieldRead
  dsimp only
  apply Kept.ite
  · intro h2
    apply fieldAnswer_kept (hm.sub rfl)
    apply Kept.snd
    apply fieldValue_kept (hm.sub rfl)
    assumption
  · intro h2
    apply fieldAnswer_kept (hm.sub rfl)
    assumption

theorem holdRequest_kept (hm : Has m 0x400048) (x0 : Inst) (x1 : Bytes) (s : State)
    (hs : Kept m s₀ s) :
    Kept m s₀ (holdRequest x0 x1 s) := by
  unfold holdRequest
  apply lanokSend_kept (hm.sub rfl)
  refine Kept.fld_put (hm.sub rfl) ?_
  assumption

theorem fieldRequest_kept (hm : Has m 0x40005a) (x0 : Inst) (x1 : Bytes) (s : State)
    (hs : Kept m s₀ s) :
    Kept m s₀ (fieldRequest x0 x1 s) := by
  unfold fieldRequest
  dsimp only
  apply Kept.ite
  · intro h2
    apply fieldAnswer_kept (hm.sub rfl)
    apply bump_kept (hm.sub rfl)
    assumption
  · intro h2
    apply Kept.ite
    · intro h4
      apply fieldRead_kept (hm.sub rfl)
      assumption
    · intro h4
      apply Kept.ite
      · intro h6
        apply fieldAnswer_kept (hm.sub rfl)
        assumption
      · intro h6
        apply Kept.ite
        · intro h8
          apply holdRequest_kept (hm.sub rfl)
          assumption
        · intro h8
          apply lanokSend_kept (hm.sub rfl)
          assumption

theorem canDiscard_kept (hm : Has m 0x42) (x0 : ℕ) (s : State)
    (hs : Kept m s₀ s) :
    Kept m s₀ (canDiscard x0 s) := by
  unfold canDiscard
  apply Kept.ite
  · intro h1
    apply bump_kept (hm.sub rfl)
    apply canUpd_kept (hm.sub rfl)
    assumption
  · exact fun _ => by assumption

theorem execCanReassemblyTimeout_kept (hm : Has m 0x42) (x0 : Fin 2) (s : State)
    (hs : Kept m s₀ s) :
    ResAll (Kept m s₀) (execCanReassemblyTimeout x0 s) := by
  unfold execCanReassemblyTimeout
  apply ResAll.next
  apply Kept.ite
  · intro h2
    apply canDiscard_kept (hm.sub rfl)
    assumption
  · exact fun _ => by assumption

theorem execRelayMsg_kept (hm : Has m 0x7fffffe) (x0 : PHdr) (x1 : Bool) (x2 : LMsg) (s : State)
    (hs : Kept m s₀ s) :
    ResAll (Kept m s₀) (execRelayMsg x0 x1 x2 s) := by
  unfold execRelayMsg
  apply onPeer_kept (hm.sub rfl)
  · intro y01 h2
    apply Kept.ite
    · intro h4
      apply Kept.ite
      · intro h6
        apply lanokSend_kept (hm.sub rfl)
        assumption
      · exact fun _ => by assumption
    · intro h4
      apply Kept.ite
      · exact fun _ => by assumption
      · intro h6
        dsimp only
        split
        · apply hubNodeEvent_kept (hm.sub rfl)
          refine Kept.pair_put (hm.sub rfl) ?_
          assumption
        · apply hubNodeClear_kept (hm.sub rfl)
          refine Kept.pair_put (hm.sub rfl) ?_
          assumption
        · apply hubReport_kept (hm.sub rfl)
          refine Kept.pair_put (hm.sub rfl) ?_
          assumption
        · apply serveRequest_kept (hm.sub rfl)
          refine Kept.pair_put (hm.sub rfl) ?_
          assumption
        · refine Kept.pair_put (hm.sub rfl) ?_
          assumption
        · refine Kept.pair_put (hm.sub rfl) ?_
          assumption
        · refine Kept.pair_put (hm.sub rfl) ?_
          assumption
        · refine Kept.pair_put (hm.sub rfl) ?_
          assumption
        · refine Kept.pair_put (hm.sub rfl) ?_
          assumption
        · refine Kept.pair_put (hm.sub rfl) ?_
          assumption
        · refine Kept.pair_put (hm.sub rfl) ?_
          assumption
        · refine Kept.pair_put (hm.sub rfl) ?_
          assumption
        · refine Kept.pair_put (hm.sub rfl) ?_
          assumption
        · refine Kept.pair_put (hm.sub rfl) ?_
          assumption
        · refine Kept.pair_put (hm.sub rfl) ?_
          assumption
  · assumption

theorem execMbxGo_kept (hm : Has m 0x7fffffe) (x0 : Fin 4) (s : State)
    (hs : Kept m s₀ s) :
    ResAll (Kept m s₀) (execMbxGo x0 s) := by
  unfold execMbxGo
  apply ResAll.next
  apply Kept.ite
  · intro h2
    apply mbxGo_kept (hm.sub rfl)
    assumption
  · exact fun _ => by assumption

theorem canFrame_kept (hm : Has m 0x40005a) (x0 : ℕ) (x1 : Bytes) (s : State)
    (hs : Kept m s₀ s) :
    Kept m s₀ (canFrame x0 x1 s) := by
  unfold canFrame
  dsimp only
  apply Kept.ite
  · intro h2
    apply canFrame.canBusy_kept (hm.sub rfl)
    apply Kept.ite
    · intro h5
      apply canDiscard_kept (hm.sub rfl)
      assumption
    · exact fun _ => by assumption
  · intro h2
    apply Kept.ite
    · intro h4
      apply Kept.ite
      · intro h6
        apply canUpd_kept (hm.sub rfl)
        apply canDiscard_kept (hm.sub rfl)
        apply Kept.ite
        · intro h10
          apply canDiscard_kept (hm.sub rfl)
          assumption
        · exact fun _ => by assumption
      · intro h6
        apply Kept.ite
        · intro h8
          apply canDiscard_kept (hm.sub rfl)
          assumption
        · exact fun _ => by assumption
    · intro h4
      apply Kept.ite
      · intro h6
        apply canDiscard_kept (hm.sub rfl)
        apply Kept.ite
        · intro h9
          apply canUpd_kept (hm.sub rfl)
          apply canDiscard_kept (hm.sub rfl)
          apply Kept.ite
          · intro h13
            apply canDiscard_kept (hm.sub rfl)
            assumption
          · exact fun _ => by assumption
        · intro h9
          apply Kept.ite
          · intro h11
            apply canDiscard_kept (hm.sub rfl)
            assumption
          · exact fun _ => by assumption
      · intro h6
        apply Kept.ite
        · intro h8
          apply fieldRequest_kept (hm.sub rfl)
          apply canUpd_kept (hm.sub rfl)
          apply Kept.ite
          · intro h12
            apply canUpd_kept (hm.sub rfl)
            apply canDiscard_kept (hm.sub rfl)
            apply Kept.ite
            · intro h16
              apply canDiscard_kept (hm.sub rfl)
              assumption
            · exact fun _ => by assumption
          · intro h12
            apply Kept.ite
            · intro h14
              apply canDiscard_kept (hm.sub rfl)
              assumption
            · exact fun _ => by assumption
        · intro h8
          apply canUpd_kept (hm.sub rfl)
          apply Kept.ite
          · intro h11
            apply canUpd_kept (hm.sub rfl)
            apply canDiscard_kept (hm.sub rfl)
            apply Kept.ite
            · intro h15
              apply canDiscard_kept (hm.sub rfl)
              assumption
            · exact fun _ => by assumption
          · intro h11
            apply Kept.ite
            · intro h13
              apply canDiscard_kept (hm.sub rfl)
              assumption
            · exact fun _ => by assumption

theorem execPoruaFrameReturn_kept (hm : Has m 0x56000da) (x0 : Fin 8) (x1 : FrameReturn) (s : State)
    (hs : Kept m s₀ s) :
    ResAll (Kept m s₀) (execPoruaFrameReturn x0 x1 s) := by
  unfold execPoruaFrameReturn
  split
  · apply ResAll.next
    apply Kept.ite
    · intro h3
      apply frameReturn_elim (hm.sub rfl) (by assumption)
      assumption
    · intro h3
      apply fieldRequest_kept (hm.sub rfl)
      apply frameReturn_elim (hm.sub rfl) (by assumption)
      assumption
  · apply ResAll.next
    apply frameReturn_elim (hm.sub rfl) (by assumption)
    assumption

theorem execCanBusOffRecovery_kept (hm : Has m 0x42) (x0 : Fin 2) (s : State)
    (hs : Kept m s₀ s) :
    ResAll (Kept m s₀) (execCanBusOffRecovery x0 s) := by
  unfold execCanBusOffRecovery
  apply ResAll.next
  apply wr_kept (hm.sub rfl)
  apply canUpd_kept (hm.sub rfl)
  assumption

theorem execUdpDictDatagram_kept (hm : Has m 0x7fffffe) (x0 : Bytes) (x1 : ℕ) (x2 : Bool) (x3 : Bytes) (s : State)
    (hs : Kept m s₀ s) :
    ResAll (Kept m s₀) (execUdpDictDatagram x0 x1 x2 x3 s) := by
  unfold execUdpDictDatagram
  apply ResAll.next
  apply Kept.ite
  · exact fun _ => by assumption
  · intro h2
    apply udpDatagram_kept (hm.sub rfl)
    assumption

theorem execCanFrame_kept (hm : Has m 0x40005a) (x0 : Fin 2) (x1 : ℕ) (x2 : CanForm) (x3 : Bool) (x4 : Bytes) (s : State)
    (hs : Kept m s₀ s) :
    ResAll (Kept m s₀) (execCanFrame x0 x1 x2 x3 x4 s) := by
  unfold execCanFrame
  dsimp only
  apply ResAll.ite
  · intro h2
    apply ResAll.next
    apply fieldWake_kept (hm.sub rfl)
    assumption
  · intro h2
    apply ResAll.ite
    · intro h4
      apply ResAll.next
      assumption
    · intro h4
      apply ResAll.next
      apply Kept.ite
      · intro h7
        apply wr_kept (hm.sub rfl)
        apply canUpd_kept (hm.sub rfl)
        assumption
      · intro h7
        apply canFrame_kept (hm.sub rfl)
        apply wr_kept (hm.sub rfl)
        apply canUpd_kept (hm.sub rfl)
        assumption

end Sys2Proof.Machine
end

