-- ==== Sys2Proof/Laws/KeptPersist.lean ====
section
/-! SUPPORT. Every effect of Machine/Persist.lean keeps what `Kept` says. -/
set_option Elab.async false
namespace Sys2Proof.Machine

variable {m : Nat} {s₀ : State}

theorem execPersistFlashWrite_kept (hm : Has m 0x800080) (s : State)
    (hs : Kept m s₀ s) :
    ResAll (Kept m s₀) (execPersistFlashWrite s) := by
  unfold execPersistFlashWrite
  apply ResAll.next
  apply Kept.ite
  · exact fun _ => by assumption
  · intro h2
    dsimp only
    refine Kept.mk' (v := 8388736) (hm.sub rfl) rfl ?_ ?_
    · assumption
    · intro p hp
      cases p <;> first | exact absurd hp (by dsimp only [StatePart.idx]; decide) | exact Eq.refl _ | exact ⟨Eq.refl _, Eq.refl _, Eq.refl _⟩

theorem execPersistWriteComplete_kept (hm : Has m 0x2c4018a) (s : State)
    (hs : Kept m s₀ s) :
    ResAll (Kept m s₀) (execPersistWriteComplete s) := by
  unfold execPersistWriteComplete
  split
  · apply ResAll.next
    assumption
  · dsimp only
    apply ResAll.next
    apply jrnlFree_kept (hm.sub rfl)
    apply summary_kept (hm.sub rfl)
    apply wr_kept (hm.sub rfl)
    apply emit_kept (hm.sub rfl)
    refine Kept.mk' (v := 8388992) (hm.sub rfl) rfl ?_ ?_
    · assumption
    · intro p hp
      cases p <;> first | exact absurd hp (by dsimp only [StatePart.idx]; decide) | exact Eq.refl _ | exact ⟨Eq.refl _, Eq.refl _, Eq.refl _⟩

end Sys2Proof.Machine
end

