-- ==== Sys2Proof/Laws/KeptRows.lean ====
section
/-! SUPPORT. Every effect of Machine/Rows.lean keeps what `Kept` says. -/
set_option Elab.async false
namespace Sys2Proof.Machine

variable {m : Nat} {s₀ : State}

theorem execStormClear_kept (hm : Has m 0x7fffffe) (x0 : Inst) (x1 : ℕ) (s : State)
    (hs : Kept m s₀ s) :
    ResAll (Kept m s₀) (execStormClear x0 x1 s) := by
  unfold execStormClear
  apply ResAll.next
  apply orClose_kept (hm.sub rfl)
  · intro y02 h3
    apply writeStormClear_kept (hm.sub rfl)
    assumption
  · assumption

theorem execForceActive_kept (hm : Has m 0x7fffffe) (x0 : Inst) (x1 : ℕ) (s : State)
    (hs : Kept m s₀ s) :
    ResAll (Kept m s₀) (execForceActive x0 x1 s) := by
  unfold execForceActive
  apply ResAll.next
  apply orClose_kept (hm.sub rfl)
  · intro y02 h3
    apply writeForceActive_kept (hm.sub rfl)
    assumption
  · assumption

theorem execTmGrant_kept (hm : Has m 0x7fffffe) (x0 : Inst) (x1 : ℕ) (x2 : ℕ) (s : State)
    (hs : Kept m s₀ s) :
    ResAll (Kept m s₀) (execTmGrant x0 x1 x2 s) := by
  unfold execTmGrant
  apply ResAll.next
  apply orClose_kept (hm.sub rfl)
  · intro y02 h3
    apply writeTmGrant_kept (hm.sub rfl)
    assumption
  · assumption

theorem execPwrClear_kept (hm : Has m 0x7fffffe) (x0 : Inst) (x1 : ℕ) (x2 : Fin 8) (x3 : Fin 2) (s : State)
    (hs : Kept m s₀ s) :
    ResAll (Kept m s₀) (execPwrClear x0 x1 x2 x3 s) := by
  unfold execPwrClear
  apply ResAll.next
  apply orClose_kept (hm.sub rfl)
  · intro y02 h3
    apply writePwrClear_kept (hm.sub rfl)
    assumption
  · assumption

theorem execSapEn_kept (hm : Has m 0x7fffffe) (x0 : Inst) (x1 : ℕ) (x2 : Fin 8) (x3 : Bool) (s : State)
    (hs : Kept m s₀ s) :
    ResAll (Kept m s₀) (execSapEn x0 x1 x2 x3 s) := by
  unfold execSapEn
  apply ResAll.next
  apply orClose_kept (hm.sub rfl)
  · intro y02 h3
    apply writeSapEn_kept (hm.sub rfl)
    assumption
  · assumption

theorem execPpsEn_kept (hm : Has m 0x7fffffe) (x0 : Inst) (x1 : ℕ) (x2 : Fin 2) (x3 : Bool) (s : State)
    (hs : Kept m s₀ s) :
    ResAll (Kept m s₀) (execPpsEn x0 x1 x2 x3 s) := by
  unfold execPpsEn
  apply ResAll.next
  apply orClose_kept (hm.sub rfl)
  · intro y02 h3
    apply writePpsEn_kept (hm.sub rfl)
    assumption
  · assumption

theorem execFwActivate_kept (hm : Has m 0x7fffffe) (x0 : Inst) (x1 : ℕ) (s : State)
    (hs : Kept m s₀ s) :
    ResAll (Kept m s₀) (execFwActivate x0 x1 s) := by
  unfold execFwActivate
  apply ResAll.next
  apply orClose_kept (hm.sub rfl)
  · intro y02 h3
    apply writeFwActivate_kept (hm.sub rfl)
    assumption
  · assumption

theorem execFwStage_kept (hm : Has m 0x7fffffe) (x0 : Inst) (x1 : ℕ) (x2 : Bytes) (s : State)
    (hs : Kept m s₀ s) :
    ResAll (Kept m s₀) (execFwStage x0 x1 x2 s) := by
  unfold execFwStage
  apply ResAll.next
  apply orClose_kept (hm.sub rfl)
  · intro y02 h3
    apply writeFwStage_kept (hm.sub rfl)
    assumption
  · assumption

theorem execIsbStep_kept (hm : Has m 0x7fffffe) (x0 : Inst) (x1 : ℕ) (x2 : ℕ) (s : State)
    (hs : Kept m s₀ s) :
    ResAll (Kept m s₀) (execIsbStep x0 x1 x2 s) := by
  unfold execIsbStep
  apply ResAll.next
  apply orClose_kept (hm.sub rfl)
  · intro y02 h3
    apply writeIsbStep_kept (hm.sub rfl)
    assumption
  · assumption

theorem execMeterClr_kept (hm : Has m 0x7fffffe) (x0 : Inst) (x1 : ℕ) (s : State)
    (hs : Kept m s₀ s) :
    ResAll (Kept m s₀) (execMeterClr x0 x1 s) := by
  unfold execMeterClr
  apply ResAll.next
  apply orClose_kept (hm.sub rfl)
  · intro y02 h3
    apply writeMeterClr_kept (hm.sub rfl)
    assumption
  · assumption

theorem execLaunchCancel_kept (hm : Has m 0x7fffffe) (x0 : Fin 1024) (x1 : Option Inst) (x2 : ℕ) (s : State)
    (hs : Kept m s₀ s) :
    ResAll (Kept m s₀) (execLaunchCancel x0 x1 x2 s) := by
  unfold execLaunchCancel
  split
  · apply ResAll.next
    apply orClose_kept (hm.sub rfl)
    · intro y03 h4
      apply writeLaunchCancel_kept (hm.sub rfl)
      assumption
    · assumption
  · apply ResAll.next
    apply windowCancel_kept (hm.sub rfl)
    assumption

theorem execSwitchover_kept (hm : Has m 0x7fffffe) (x0 : Inst) (x1 : ℕ) (s : State)
    (hs : Kept m s₀ s) :
    ResAll (Kept m s₀) (execSwitchover x0 x1 s) := by
  unfold execSwitchover
  apply ResAll.next
  apply orClose_kept (hm.sub rfl)
  · intro y02 h3
    apply writeSwitchover_kept (hm.sub rfl)
    assumption
  · assumption

theorem execLxEn_kept (hm : Has m 0x7fffffe) (x0 : Inst) (x1 : ℕ) (x2 : Fin 4) (x3 : Bool) (s : State)
    (hs : Kept m s₀ s) :
    ResAll (Kept m s₀) (execLxEn x0 x1 x2 x3 s) := by
  unfold execLxEn
  apply ResAll.next
  apply orClose_kept (hm.sub rfl)
  · intro y02 h3
    apply writeLxEn_kept (hm.sub rfl)
    assumption
  · assumption

theorem execVaneEn_kept (hm : Has m 0x7fffffe) (x0 : Inst) (x1 : ℕ) (x2 : Bool) (s : State)
    (hs : Kept m s₀ s) :
    ResAll (Kept m s₀) (execVaneEn x0 x1 x2 s) := by
  unfold execVaneEn
  apply ResAll.next
  apply orClose_kept (hm.sub rfl)
  · intro y02 h3
    apply writeVaneEn_kept (hm.sub rfl)
    assumption
  · assumption

theorem execTEn_kept (hm : Has m 0x7fffffe) (x0 : Inst) (x1 : ℕ) (x2 : Fin 8) (x3 : Bool) (s : State)
    (hs : Kept m s₀ s) :
    ResAll (Kept m s₀) (execTEn x0 x1 x2 x3 s) := by
  unfold execTEn
  apply ResAll.next
  apply orClose_kept (hm.sub rfl)
  · intro y02 h3
    apply writeTEn_kept (hm.sub rfl)
    assumption
  · assumption

theorem execLegCtrlEnable_kept (hm : Has m 0x7fffffe) (x0 : Inst) (x1 : ℕ) (x2 : ℕ) (x3 : ℕ) (s : State)
    (hs : Kept m s₀ s) :
    ResAll (Kept m s₀) (execLegCtrlEnable x0 x1 x2 x3 s) := by
  unfold execLegCtrlEnable
  apply ResAll.next
  apply orClose_kept (hm.sub rfl)
  · intro y02 h3
    apply writeLegCtrlEnable_kept (hm.sub rfl)
    assumption
  · assumption

theorem execDmaEn_kept (hm : Has m 0x7fffffe) (x0 : Inst) (x1 : ℕ) (x2 : Fin 64) (x3 : Bool) (s : State)
    (hs : Kept m s₀ s) :
    ResAll (Kept m s₀) (execDmaEn x0 x1 x2 x3 s) := by
  unfold execDmaEn
  apply ResAll.next
  apply orClose_kept (hm.sub rfl)
  · intro y02 h3
    apply writeDmaEn_kept (hm.sub rfl)
    assumption
  · assumption

theorem execPdRequestRun_kept (hm : Has m 0x7fffffe) (x0 : Inst) (x1 : ℕ) (x2 : ℕ) (s : State)
    (hs : Kept m s₀ s) :
    ResAll (Kept m s₀) (execPdRequestRun x0 x1 x2 s) := by
  unfold execPdRequestRun
  apply ResAll.next
  apply orClose_kept (hm.sub rfl)
  · intro y02 h3
    apply writePdRequestRun_kept (hm.sub rfl)
    assumption
  · assumption

theorem execOutEn_kept (hm : Has m 0x7fffffe) (x0 : Inst) (x1 : ℕ) (x2 : Fin 64) (x3 : Bool) (s : State)
    (hs : Kept m s₀ s) :
    ResAll (Kept m s₀) (execOutEn x0 x1 x2 x3 s) := by
  unfold execOutEn
  apply ResAll.next
  apply orClose_kept (hm.sub rfl)
  · intro y02 h3
    apply writeOutEn_kept (hm.sub rfl)
    assumption
  · assumption

theorem execEpEn_kept (hm : Has m 0x7fffffe) (x0 : Inst) (x1 : ℕ) (x2 : Bool) (x3 : Fin 64) (x4 : Bool) (s : State)
    (hs : Kept m s₀ s) :
    ResAll (Kept m s₀) (execEpEn x0 x1 x2 x3 x4 s) := by
  unfold execEpEn
  apply ResAll.next
  apply orClose_kept (hm.sub rfl)
  · intro y02 h3
    apply writeEpEn_kept (hm.sub rfl)
    assumption
  · assumption

theorem execHubOff_kept (hm : Has m 0x7fffffe) (x0 : Inst) (x1 : ℕ) (s : State)
    (hs : Kept m s₀ s) :
    ResAll (Kept m s₀) (execHubOff x0 x1 s) := by
  unfold execHubOff
  apply ResAll.next
  apply orClose_kept (hm.sub rfl)
  · intro y02 h3
    apply writeHubOff_kept (hm.sub rfl)
    assumption
  · assumption

theorem execFactoryReset_kept (hm : Has m 0x7fffffe) (x0 : Inst) (x1 : ℕ) (s : State)
    (hs : Kept m s₀ s) :
    ResAll (Kept m s₀) (execFactoryReset x0 x1 s) := by
  unfold execFactoryReset
  apply ResAll.next
  apply orClose_kept (hm.sub rfl)
  · intro y02 h3
    apply writeFactoryReset_kept (hm.sub rfl)
    assumption
  · assumption

theorem execLegCtrlSetSource_kept (hm : Has m 0x7fffffe) (x0 : Inst) (x1 : ℕ) (x2 : ℕ) (x3 : ℕ) (x4 : ℕ) (x5 : ℕ) (s : State)
    (hs : Kept m s₀ s) :
    ResAll (Kept m s₀) (execLegCtrlSetSource x0 x1 x2 x3 x4 x5 s) := by
  unfold execLegCtrlSetSource
  apply ResAll.next
  apply orClose_kept (hm.sub rfl)
  · intro y02 h3
    apply writeLegCtrlSetSource_kept (hm.sub rfl)
    assumption
  · assumption

theorem execOvlBase_kept (hm : Has m 0x7fffffe) (x0 : Inst) (x1 : ℕ) (x2 : Fin 256) (x3 : ℕ) (s : State)
    (hs : Kept m s₀ s) :
    ResAll (Kept m s₀) (execOvlBase x0 x1 x2 x3 s) := by
  unfold execOvlBase
  apply ResAll.next
  apply orClose_kept (hm.sub rfl)
  · intro y02 h3
    apply writeOvlBase_kept (hm.sub rfl)
    assumption
  · assumption

theorem execLaunchRecord_kept (hm : Has m 0x7fffffe) (x0 : Inst) (x1 : ℕ) (x2 : LaunchRec) (s : State)
    (hs : Kept m s₀ s) :
    ResAll (Kept m s₀) (execLaunchRecord x0 x1 x2 s) := by
  unfold execLaunchRecord
  apply ResAll.next
  apply orClose_kept (hm.sub rfl)
  · intro y02 h3
    apply writeLaunchRecord_kept (hm.sub rfl)
    assumption
  · assumption

theorem execPdReset_kept (hm : Has m 0x7fffffe) (x0 : Inst) (x1 : ℕ) (x2 : ℕ) (s : State)
    (hs : Kept m s₀ s) :
    ResAll (Kept m s₀) (execPdReset x0 x1 x2 s) := by
  unfold execPdReset
  apply ResAll.next
  apply orClose_kept (hm.sub rfl)
  · intro y02 h3
    apply writePdReset_kept (hm.sub rfl)
    assumption
  · assumption

theorem execInErase_kept (hm : Has m 0x7fffffe) (x0 : Inst) (x1 : ℕ) (s : State)
    (hs : Kept m s₀ s) :
    ResAll (Kept m s₀) (execInErase x0 x1 s) := by
  unfold execInErase
  apply ResAll.next
  apply orClose_kept (hm.sub rfl)
  · intro y02 h3
    apply writeInErase_kept (hm.sub rfl)
    assumption
  · assumption

theorem execDecEn_kept (hm : Has m 0x7fffffe) (x0 : Inst) (x1 : ℕ) (x2 : Fin 1024) (x3 : Bool) (s : State)
    (hs : Kept m s₀ s) :
    ResAll (Kept m s₀) (execDecEn x0 x1 x2 x3 s) := by
  unfold execDecEn
  apply ResAll.next
  apply orClose_kept (hm.sub rfl)
  · intro y02 h3
    apply writeDecEn_kept (hm.sub rfl)
    assumption
  · assumption

theorem execTmClose_kept (hm : Has m 0x7fffffe) (x0 : Inst) (x1 : ℕ) (x2 : ℕ) (s : State)
    (hs : Kept m s₀ s) :
    ResAll (Kept m s₀) (execTmClose x0 x1 x2 s) := by
  unfold execTmClose
  apply ResAll.next
  apply orClose_kept (hm.sub rfl)
  · intro y02 h3
    apply writeTmClose_kept (hm.sub rfl)
    assumption
  · assumption

theorem execXpCopy_kept (hm : Has m 0x7fffffe) (x0 : Inst) (x1 : ℕ) (x2 : ℕ) (s : State)
    (hs : Kept m s₀ s) :
    ResAll (Kept m s₀) (execXpCopy x0 x1 x2 s) := by
  unfold execXpCopy
  apply ResAll.next
  apply orClose_kept (hm.sub rfl)
  · intro y02 h3
    apply writeXpCopy_kept (hm.sub rfl)
    assumption
  · assumption

theorem execChClear_kept (hm : Has m 0x7fffffe) (x0 : Inst) (x1 : ℕ) (s : State)
    (hs : Kept m s₀ s) :
    ResAll (Kept m s₀) (execChClear x0 x1 s) := by
  unfold execChClear
  apply ResAll.next
  apply orClose_kept (hm.sub rfl)
  · intro y02 h3
    apply writeChClear_kept (hm.sub rfl)
    assumption
  · assumption

theorem execRefresh_kept (hm : Has m 0x7fffffe) (x0 : Inst) (x1 : ℕ) (x2 : Fin 256) (s : State)
    (hs : Kept m s₀ s) :
    ResAll (Kept m s₀) (execRefresh x0 x1 x2 s) := by
  unfold execRefresh
  apply ResAll.next
  apply orClose_kept (hm.sub rfl)
  · intro y02 h3
    apply writeRefresh_kept (hm.sub rfl)
    assumption
  · assumption

theorem execOutErase_kept (hm : Has m 0x7fffffe) (x0 : Inst) (x1 : ℕ) (s : State)
    (hs : Kept m s₀ s) :
    ResAll (Kept m s₀) (execOutErase x0 x1 s) := by
  unfold execOutErase
  apply ResAll.next
  apply orClose_kept (hm.sub rfl)
  · intro y02 h3
    apply writeOutErase_kept (hm.sub rfl)
    assumption
  · assumption

theorem execEncEn_kept (hm : Has m 0x7fffffe) (x0 : Inst) (x1 : ℕ) (x2 : Fin 256) (x3 : Bool) (s : State)
    (hs : Kept m s₀ s) :
    ResAll (Kept m s₀) (execEncEn x0 x1 x2 x3 s) := by
  unfold execEncEn
  apply ResAll.next
  apply orClose_kept (hm.sub rfl)
  · intro y02 h3
    apply writeEncEn_kept (hm.sub rfl)
    assumption
  · assumption

theorem execSchedStatsClear_kept (hm : Has m 0x7fffffe) (x0 : Inst) (x1 : ℕ) (s : State)
    (hs : Kept m s₀ s) :
    ResAll (Kept m s₀) (execSchedStatsClear x0 x1 s) := by
  unfold execSchedStatsClear
  apply ResAll.next
  apply orClose_kept (hm.sub rfl)
  · intro y02 h3
    apply writeSchedStatsClear_kept (hm.sub rfl)
    assumption
  · assumption

theorem execMemStatsClear_kept (hm : Has m 0x7fffffe) (x0 : Inst) (x1 : ℕ) (s : State)
    (hs : Kept m s₀ s) :
    ResAll (Kept m s₀) (execMemStatsClear x0 x1 s) := by
  unfold execMemStatsClear
  apply ResAll.next
  apply orClose_kept (hm.sub rfl)
  · intro y02 h3
    apply writeMemStatsClear_kept (hm.sub rfl)
    assumption
  · assumption

theorem execPoolTest_kept (hm : Has m 0x7fffffe) (x0 : Inst) (x1 : ℕ) (s : State)
    (hs : Kept m s₀ s) :
    ResAll (Kept m s₀) (execPoolTest x0 x1 s) := by
  unfold execPoolTest
  apply ResAll.next
  apply orClose_kept (hm.sub rfl)
  · intro y02 h3
    apply writePoolTest_kept (hm.sub rfl)
    assumption
  · assumption

theorem execHostPing_kept (hm : Has m 0x7fffffe) (x0 : Inst) (x1 : ℕ) (s : State)
    (hs : Kept m s₀ s) :
    ResAll (Kept m s₀) (execHostPing x0 x1 s) := by
  unfold execHostPing
  apply ResAll.next
  apply orClose_kept (hm.sub rfl)
  · intro y02 h3
    apply writeHostPing_kept (hm.sub rfl)
    assumption
  · assumption

theorem execLegCtrlRefresh_kept (hm : Has m 0x7fffffe) (x0 : Inst) (x1 : ℕ) (x2 : ℕ) (x3 : ℕ) (x4 : ℕ) (s : State)
    (hs : Kept m s₀ s) :
    ResAll (Kept m s₀) (execLegCtrlRefresh x0 x1 x2 x3 x4 s) := by
  unfold execLegCtrlRefresh
  apply ResAll.next
  apply orClose_kept (hm.sub rfl)
  · intro y02 h3
    apply writeLegCtrlRefresh_kept (hm.sub rfl)
    assumption
  · assumption

theorem execReturnPrep_kept (hm : Has m 0x7fffffe) (x0 : Inst) (x1 : ℕ) (s : State)
    (hs : Kept m s₀ s) :
    ResAll (Kept m s₀) (execReturnPrep x0 x1 s) := by
  unfold execReturnPrep
  apply ResAll.next
  apply orClose_kept (hm.sub rfl)
  · intro y02 h3
    apply writeReturnPrep_kept (hm.sub rfl)
    assumption
  · assumption

theorem execPdRequestFrost_kept (hm : Has m 0x7fffffe) (x0 : Inst) (x1 : ℕ) (x2 : ℕ) (s : State)
    (hs : Kept m s₀ s) :
    ResAll (Kept m s₀) (execPdRequestFrost x0 x1 x2 s) := by
  unfold execPdRequestFrost
  apply ResAll.next
  apply orClose_kept (hm.sub rfl)
  · intro y02 h3
    apply writePdRequestFrost_kept (hm.sub rfl)
    assumption
  · assumption

theorem execTodSet_kept (hm : Has m 0x7fffffe) (x0 : Inst) (x1 : ℕ) (x2 : ℕ) (s : State)
    (hs : Kept m s₀ s) :
    ResAll (Kept m s₀) (execTodSet x0 x1 x2 s) := by
  unfold execTodSet
  apply ResAll.next
  apply orClose_kept (hm.sub rfl)
  · intro y02 h3
    apply writeTodSet_kept (hm.sub rfl)
    assumption
  · assumption

theorem execWarmReset_kept (hm : Has m 0x7fffffe) (x0 : Inst) (x1 : ℕ) (s : State)
    (hs : Kept m s₀ s) :
    ResAll (Kept m s₀) (execWarmReset x0 x1 s) := by
  unfold execWarmReset
  apply ResAll.next
  apply orClose_kept (hm.sub rfl)
  · intro y02 h3
    apply writeWarmReset_kept (hm.sub rfl)
    assumption
  · assumption

theorem execTmClearQueue_kept (hm : Has m 0x7fffffe) (x0 : Inst) (x1 : ℕ) (s : State)
    (hs : Kept m s₀ s) :
    ResAll (Kept m s₀) (execTmClearQueue x0 x1 s) := by
  unfold execTmClearQueue
  apply ResAll.next
  apply orClose_kept (hm.sub rfl)
  · intro y02 h3
    apply writeTmClearQueue_kept (hm.sub rfl)
    assumption
  · assumption

theorem execSlotErase_kept (hm : Has m 0x7fffffe) (x0 : Inst) (x1 : ℕ) (x2 : Fin 64) (s : State)
    (hs : Kept m s₀ s) :
    ResAll (Kept m s₀) (execSlotErase x0 x1 x2 s) := by
  unfold execSlotErase
  apply ResAll.next
  apply orClose_kept (hm.sub rfl)
  · intro y02 h3
    apply writeSlotErase_kept (hm.sub rfl)
    assumption
  · assumption

theorem execLegCtrlDisable_kept (hm : Has m 0x7fffffe) (x0 : Inst) (x1 : ℕ) (x2 : ℕ) (x3 : ℕ) (s : State)
    (hs : Kept m s₀ s) :
    ResAll (Kept m s₀) (execLegCtrlDisable x0 x1 x2 x3 s) := by
  unfold execLegCtrlDisable
  apply ResAll.next
  apply orClose_kept (hm.sub rfl)
  · intro y02 h3
    apply writeLegCtrlDisable_kept (hm.sub rfl)
    assumption
  · assumption

theorem execLayerCopy_kept (hm : Has m 0x7fffffe) (x0 : Inst) (x1 : ℕ) (x2 : Fin 64) (s : State)
    (hs : Kept m s₀ s) :
    ResAll (Kept m s₀) (execLayerCopy x0 x1 x2 s) := by
  unfold execLayerCopy
  apply ResAll.next
  apply orClose_kept (hm.sub rfl)
  · intro y02 h3
    apply writeLayerCopy_kept (hm.sub rfl)
    assumption
  · assumption

theorem execChRetire_kept (hm : Has m 0x7fffffe) (x0 : Inst) (x1 : ℕ) (s : State)
    (hs : Kept m s₀ s) :
    ResAll (Kept m s₀) (execChRetire x0 x1 s) := by
  unfold execChRetire
  apply ResAll.next
  apply orClose_kept (hm.sub rfl)
  · intro y02 h3
    apply writeChRetire_kept (hm.sub rfl)
    assumption
  · assumption

theorem execModeRequest_kept (hm : Has m 0x7fffffe) (x0 : Inst) (x1 : ℕ) (x2 : ℕ) (s : State)
    (hs : Kept m s₀ s) :
    ResAll (Kept m s₀) (execModeRequest x0 x1 x2 s) := by
  unfold execModeRequest
  apply ResAll.next
  apply orClose_kept (hm.sub rfl)
  · intro y02 h3
    apply writeModeRequest_kept (hm.sub rfl)
    assumption
  · assumption

theorem execQFlush_kept (hm : Has m 0x7fffffe) (x0 : Inst) (x1 : ℕ) (s : State)
    (hs : Kept m s₀ s) :
    ResAll (Kept m s₀) (execQFlush x0 x1 s) := by
  unfold execQFlush
  apply ResAll.next
  apply orClose_kept (hm.sub rfl)
  · intro y02 h3
    apply writeQFlush_kept (hm.sub rfl)
    assumption
  · assumption

theorem execXpPreset_kept (hm : Has m 0x7fffffe) (x0 : Inst) (x1 : ℕ) (s : State)
    (hs : Kept m s₀ s) :
    ResAll (Kept m s₀) (execXpPreset x0 x1 s) := by
  unfold execXpPreset
  apply ResAll.next
  apply orClose_kept (hm.sub rfl)
  · intro y02 h3
    apply writeXpPreset_kept (hm.sub rfl)
    assumption
  · assumption

theorem execDeskEn_kept (hm : Has m 0x7fffffe) (x0 : Inst) (x1 : ℕ) (x2 : Fin 256) (x3 : Bool) (s : State)
    (hs : Kept m s₀ s) :
    ResAll (Kept m s₀) (execDeskEn x0 x1 x2 x3 s) := by
  unfold execDeskEn
  apply ResAll.next
  apply orClose_kept (hm.sub rfl)
  · intro y02 h3
    apply writeDeskEn_kept (hm.sub rfl)
    assumption
  · assumption

theorem execPdRequestCalm_kept (hm : Has m 0x7fffffe) (x0 : Inst) (x1 : ℕ) (x2 : ℕ) (s : State)
    (hs : Kept m s₀ s) :
    ResAll (Kept m s₀) (execPdRequestCalm x0 x1 x2 s) := by
  unfold execPdRequestCalm
  apply ResAll.next
  apply orClose_kept (hm.sub rfl)
  · intro y02 h3
    apply writePdRequestCalm_kept (hm.sub rfl)
    assumption
  · assumption

theorem execPortEn_kept (hm : Has m 0x7fffffe) (x0 : Inst) (x1 : ℕ) (x2 : Fin 8) (x3 : Bool) (s : State)
    (hs : Kept m s₀ s) :
    ResAll (Kept m s₀) (execPortEn x0 x1 x2 x3 s) := by
  unfold execPortEn
  apply ResAll.next
  apply orClose_kept (hm.sub rfl)
  · intro y02 h3
    apply writePortEn_kept (hm.sub rfl)
    assumption
  · assumption

theorem execLegCtrlSpeak_kept (hm : Has m 0x7fffffe) (x0 : Inst) (x1 : ℕ) (x2 : ℕ) (x3 : ℕ) (s : State)
    (hs : Kept m s₀ s) :
    ResAll (Kept m s₀) (execLegCtrlSpeak x0 x1 x2 x3 s) := by
  unfold execLegCtrlSpeak
  apply ResAll.next
  apply orClose_kept (hm.sub rfl)
  · intro y02 h3
    apply writeLegCtrlSpeak_kept (hm.sub rfl)
    assumption
  · assumption

theorem execKunload_kept (hm : Has m 0x7fffffe) (x0 : Inst) (x1 : ℕ) (x2 : Fin 64) (s : State)
    (hs : Kept m s₀ s) :
    ResAll (Kept m s₀) (execKunload x0 x1 x2 s) := by
  unfold execKunload
  apply ResAll.next
  apply orClose_kept (hm.sub rfl)
  · intro y02 h3
    apply writeKunload_kept (hm.sub rfl)
    assumption
  · assumption

theorem execLegCtrlSetMax_kept (hm : Has m 0x7fffffe) (x0 : Inst) (x1 : ℕ) (x2 : ℕ) (x3 : ℕ) (x4 : ℕ) (x5 : ℕ) (s : State)
    (hs : Kept m s₀ s) :
    ResAll (Kept m s₀) (execLegCtrlSetMax x0 x1 x2 x3 x4 x5 s) := by
  unfold execLegCtrlSetMax
  apply ResAll.next
  apply orClose_kept (hm.sub rfl)
  · intro y02 h3
    apply writeLegCtrlSetMax_kept (hm.sub rfl)
    assumption
  · assumption

theorem execBEn_kept (hm : Has m 0x7fffffe) (x0 : Inst) (x1 : ℕ) (x2 : Fin 256) (x3 : Bool) (s : State)
    (hs : Kept m s₀ s) :
    ResAll (Kept m s₀) (execBEn x0 x1 x2 x3 s) := by
  unfold execBEn
  apply ResAll.next
  apply orClose_kept (hm.sub rfl)
  · intro y02 h3
    apply writeBEn_kept (hm.sub rfl)
    assumption
  · assumption

theorem execLmReset_kept (hm : Has m 0x7fffffe) (x0 : Inst) (x1 : ℕ) (x2 : Fin 16) (s : State)
    (hs : Kept m s₀ s) :
    ResAll (Kept m s₀) (execLmReset x0 x1 x2 s) := by
  unfold execLmReset
  apply ResAll.next
  apply orClose_kept (hm.sub rfl)
  · intro y02 h3
    apply writeLmReset_kept (hm.sub rfl)
    assumption
  · assumption

theorem execLegEn_kept (hm : Has m 0x7fffffe) (x0 : Inst) (x1 : ℕ) (x2 : ℕ) (x3 : Bool) (s : State)
    (hs : Kept m s₀ s) :
    ResAll (Kept m s₀) (execLegEn x0 x1 x2 x3 s) := by
  unfold execLegEn
  apply ResAll.next
  apply orClose_kept (hm.sub rfl)
  · intro y02 h3
    apply writeLegEn_kept (hm.sub rfl)
    assumption
  · assumption

theorem execEnumerate_kept (hm : Has m 0x7fffffe) (x0 : Inst) (x1 : ℕ) (x2 : Fin 8) (s : State)
    (hs : Kept m s₀ s) :
    ResAll (Kept m s₀) (execEnumerate x0 x1 x2 s) := by
  unfold execEnumerate
  apply ResAll.next
  apply orClose_kept (hm.sub rfl)
  · intro y02 h3
    apply writeEnumerate_kept (hm.sub rfl)
    assumption
  · assumption

theorem execLegCtrlCancel_kept (hm : Has m 0x7fffffe) (x0 : Inst) (x1 : ℕ) (x2 : ℕ) (x3 : ℕ) (s : State)
    (hs : Kept m s₀ s) :
    ResAll (Kept m s₀) (execLegCtrlCancel x0 x1 x2 x3 s) := by
  unfold execLegCtrlCancel
  apply ResAll.next
  apply orClose_kept (hm.sub rfl)
  · intro y02 h3
    apply writeLegCtrlCancel_kept (hm.sub rfl)
    assumption
  · assumption

end Sys2Proof.Machine
end

