-- ==== Sys2Proof/Laws/KeptRegisters.lean ====
section
/-! SUPPORT. Every effect of Machine/Registers.lean keeps what `Kept` says. -/
set_option Elab.async false
namespace Sys2Proof.Machine

variable {m : Nat} {s₀ : State}

theorem enableIrq_kept (hm : Has m 0x8) (x0 : ℕ) (x1 : ℕ) (x2 : ℕ) (x3 : ℕ) (s : State)
    (hs : Kept m s₀ s) :
    Kept m s₀ (enableIrq x0 x1 x2 x3 s) := by
  unfold enableIrq
  apply emitIf_kept (hm.sub rfl)
  assumption

theorem pwrRegister_kept (hm : Has m 0x100008) (x0 : ℕ) (x1 : ℕ) (s : State)
    (hs : Kept m s₀ s) :
    Kept m s₀ (pwrRegister x0 x1 s) := by
  unfold pwrRegister
  apply Kept.ite
  · intro h1
    refine Kept.pwr_put (hm.sub rfl) ?_
    assumption
  · intro h1
    apply Kept.ite
    · intro h3
      apply enableIrq_kept (hm.sub rfl)
      refine Kept.pwr_put (hm.sub rfl) ?_
      assumption
    · exact fun _ => by assumption

theorem cmpRegister_kept (hm : Has m 0x10000) (x0 : ℕ) (x1 : ℕ) (s : State)
    (hs : Kept m s₀ s) :
    Kept m s₀ (cmpRegister x0 x1 s) := by
  unfold cmpRegister
  apply Kept.ite
  · intro h1
    refine Kept.cmp_put (hm.sub rfl) ?_
    assumption
  · intro h1
    apply Kept.ite
    · intro h3
      refine Kept.cmp_put (hm.sub rfl) ?_
      assumption
    · intro h3
      apply Kept.ite
      · intro h5
        refine Kept.cmp_put (hm.sub rfl) ?_
        assumption
      · intro h5
        apply Kept.ite
        · intro h7
          refine Kept.cmp_put (hm.sub rfl) ?_
          assumption
        · exact fun _ => by assumption

theorem execBadRegisterAccess_kept (hm : Has m 0xa) (x0 : ℕ) (x1 : ℕ) (x2 : ℕ) (x3 : Bool) (s : State)
    (hs : Kept m s₀ s) :
    ResAll (Kept m s₀) (execBadRegisterAccess x0 x1 x2 x3 s) := by
  unfold execBadRegisterAccess
  apply ResAll.next
  apply Kept.ite
  · exact fun _ => by assumption
  · intro h2
    apply emitIf_kept (hm.sub rfl)
    apply badAccess_kept (hm.sub rfl)
    assumption

theorem sqWindow_kept (hm : Has m 0x100) (x0 : ℕ) (x1 : ℕ) (x2 : ℕ) (s : State)
    (hs : Kept m s₀ s) :
    Kept m s₀ (sqWindow x0 x1 x2 s) := by
  unfold sqWindow
  dsimp only
  apply sqUpd_kept (hm.sub rfl)
  assumption

theorem dmaCtrlWrite_kept (hm : Has m 0x402008a) (x0 : ℕ) (x1 : ℕ) (s : State)
    (hs : Kept m s₀ s) :
    Kept m s₀ (dmaCtrlWrite x0 x1 s) := by
  unfold dmaCtrlWrite
  apply Kept.ite
  · exact fun _ => by assumption
  · intro h1
    dsimp only
    apply Kept.ite
    · intro h4
      apply dmaResume_kept (hm.sub rfl)
      apply Kept.ite
      · intro h7
        apply dmaStop_kept (hm.sub rfl)
        apply Kept.ite
        · intro h10
          apply dmaGo_kept (hm.sub rfl)
          apply dmaUpd_kept (hm.sub rfl)
          assumption
        · intro h10
          apply dmaUpd_kept (hm.sub rfl)
          assumption
      · intro h7
        apply Kept.ite
        · intro h9
          apply dmaGo_kept (hm.sub rfl)
          apply dmaUpd_kept (hm.sub rfl)
          assumption
        · intro h9
          apply dmaUpd_kept (hm.sub rfl)
          assumption
    · intro h4
      apply Kept.ite
      · intro h6
        apply dmaStop_kept (hm.sub rfl)
        apply Kept.ite
        · intro h9
          apply dmaGo_kept (hm.sub rfl)
          apply dmaUpd_kept (hm.sub rfl)
          assumption
        · intro h9
          apply dmaUpd_kept (hm.sub rfl)
          assumption
      · intro h6
        apply Kept.ite
        · intro h8
          apply dmaGo_kept (hm.sub rfl)
          apply dmaUpd_kept (hm.sub rfl)
          assumption
        · intro h8
          apply dmaUpd_kept (hm.sub rfl)
          assumption

theorem dmaRegister_kept (hm : Has m 0x402008a) (x0 : ℕ) (x1 : ℕ) (x2 : ℕ) (s : State)
    (hs : Kept m s₀ s) :
    Kept m s₀ (dmaRegister x0 x1 x2 s) := by
  unfold dmaRegister
  apply Kept.ite
  · exact fun _ => by assumption
  · intro h1
    apply Kept.ite
    · intro h3
      apply dmaCtrlWrite_kept (hm.sub rfl)
      assumption
    · intro h3
      apply Kept.ite
      · intro h5
        apply dmaDoorbell_kept (hm.sub rfl)
        assumption
      · intro h5
        apply Kept.ite
        · intro h7
          apply Kept.ite
          · intro h9
            apply dmaReqWrite_kept (hm.sub rfl)
            assumption
          · exact fun _ => by assumption
        · intro h7
          apply Kept.ite
          · intro h9
            apply dmaUpd_kept (hm.sub rfl)
            assumption
          · intro h9
            apply Kept.ite
            · intro h11
              apply dmaUpd_kept (hm.sub rfl)
              assumption
            · intro h11
              apply Kept.ite
              · intro h13
                apply dmaUpd_kept (hm.sub rfl)
                assumption
              · intro h13
                apply Kept.ite
                · intro h15
                  dsimp only
                  apply enableIrq_kept (hm.sub rfl)
                  apply dmaUpd_kept (hm.sub rfl)
                  assumption
                · exact fun _ => by assumption

theorem mbxRegister_kept (hm : Has m 0x7fffffe) (x0 : ℕ) (x1 : ℕ) (x2 : ℕ) (s : State)
    (hs : Kept m s₀ s) :
    Kept m s₀ (mbxRegister x0 x1 x2 s) := by
  unfold mbxRegister
  apply Kept.ite
  · intro h1
    apply mbxUpd_kept (hm.sub rfl)
    assumption
  · intro h1
    apply Kept.ite
    · intro h3
      dsimp only
      apply Kept.ite
      · intro h6
        apply mbxGo_kept (hm.sub rfl)
        apply mbxUpd_kept (hm.sub rfl)
        assumption
      · intro h6
        apply mbxUpd_kept (hm.sub rfl)
        assumption
    · intro h3
      apply Kept.ite
      · intro h5
        apply mbxUpd_kept (hm.sub rfl)
        assumption
      · exact fun _ => by assumption

theorem sqRegister_kept (hm : Has m 0x254010a) (x0 : ℕ) (x1 : ℕ) (s : State)
    (hs : Kept m s₀ s) :
    Kept m s₀ (sqRegister x0 x1 s) := by
  unfold sqRegister
  apply Kept.ite
  · intro h1
    apply sqTailPut_kept (hm.sub rfl)
    assumption
  · exact fun _ => by assumption

theorem keyRegister_kept (hm : Has m 0x408008a) (x0 : ℕ) (x1 : ℕ) (s : State)
    (hs : Kept m s₀ s) :
    Kept m s₀ (keyRegister x0 x1 s) := by
  unfold keyRegister
  apply Kept.ite
  · intro h1
    refine Kept.sea_put (hm.sub rfl) ?_
    assumption
  · intro h1
    apply Kept.ite
    · intro h3
      dsimp only
      apply Kept.ite
      · intro h6
        apply keyCommand_kept (hm.sub rfl)
        refine Kept.sea_put (hm.sub rfl) ?_
        assumption
      · intro h6
        refine Kept.sea_put (hm.sub rfl) ?_
        assumption
    · intro h3
      apply Kept.ite
      · intro h5
        refine Kept.sea_put (hm.sub rfl) ?_
        assumption
      · exact fun _ => by assumption

theorem bar0Register_kept (hm : Has m 0x7fffffe) (x0 : ℕ) (x1 : ℕ) (s : State)
    (hs : Kept m s₀ s) :
    Kept m s₀ (bar0Register x0 x1 s) := by
  unfold bar0Register
  apply Kept.ite
  · intro h1
    apply mbxRegister_kept (hm.sub rfl)
    assumption
  · intro h1
    apply Kept.ite
    · intro h3
      refine Kept.isb_put (hm.sub rfl) ?_
      assumption
    · intro h3
      apply Kept.ite
      · intro h5
        refine Kept.sch_put (hm.sub rfl) ?_
        assumption
      · intro h5
        apply Kept.ite
        · intro h7
          apply enableIrq_kept (hm.sub rfl)
          refine Kept.sch_put (hm.sub rfl) ?_
          assumption
        · intro h7
          apply Kept.ite
          · intro h9
            apply sqRegister_kept (hm.sub rfl)
            assumption
          · intro h9
            apply Kept.ite
            · intro h11
              apply Kept.ite
              · intro h13
                refine Kept.mix_put (hm.sub rfl) ?_
                assumption
              · exact fun _ => by assumption
            · intro h11
              apply Kept.ite
              · intro h13
                apply cmpRegister_kept (hm.sub rfl)
                assumption
              · intro h13
                apply Kept.ite
                · intro h15
                  refine Kept.mem_put (hm.sub rfl) ?_
                  assumption
                · intro h15
                  apply Kept.ite
                  · intro h17
                    apply enableIrq_kept (hm.sub rfl)
                    refine Kept.mem_put (hm.sub rfl) ?_
                    assumption
                  · intro h17
                    apply Kept.ite
                    · intro h19
                      apply keyRegister_kept (hm.sub rfl)
                      assumption
                    · intro h19
                      apply Kept.ite
                      · intro h21
                        apply pwrRegister_kept (hm.sub rfl)
                        assumption
                      · exact fun _ => by assumption

theorem registerPut_kept (hm : Has m 0x7fffffe) (x0 : ℕ) (x1 : ℕ) (x2 : ℕ) (x3 : ℕ) (s : State)
    (hs : Kept m s₀ s) :
    Kept m s₀ (registerPut x0 x1 x2 x3 s) := by
  unfold registerPut
  apply Kept.ite
  · intro h1
    apply Kept.ite
    · intro h3
      apply bar2Put_kept (hm.sub rfl)
      assumption
    · intro h3
      apply layerTablePut_kept (hm.sub rfl)
      assumption
  · intro h1
    apply Kept.ite
    · intro h3
      apply Kept.ite
      · intro h5
        apply dmaRegister_kept (hm.sub rfl)
        assumption
      · exact fun _ => by assumption
    · intro h3
      apply Kept.ite
      · exact fun _ => by assumption
      · intro h5
        apply Kept.ite
        · intro h7
          apply windowWrite_kept (hm.sub rfl)
          assumption
        · intro h7
          apply Kept.ite
          · intro h9
            apply sqWindow_kept (hm.sub rfl)
            assumption
          · intro h9
            apply bar0Register_kept (hm.sub rfl)
            assumption

theorem execRegisterWrite_kept (hm : Has m 0x7fffffe) (x0 : ℕ) (x1 : ℕ) (x2 : ℕ) (x3 : ℕ) (s : State)
    (hs : Kept m s₀ s) :
    ResAll (Kept m s₀) (execRegisterWrite x0 x1 x2 x3 s) := by
  unfold execRegisterWrite
  apply ResAll.next
  apply Kept.ite
  · exact fun _ => by assumption
  · intro h2
    apply Kept.ite
    · intro h4
      apply registerPut_kept (hm.sub rfl)
      assumption
    · intro h4
      apply badAccess_kept (hm.sub rfl)
      assumption

end Sys2Proof.Machine
end

