-- ==== Sys2Proof/Laws/Exec.lean ====
section
/-! SUPPORT. Every command answers a next state, what it keeps, and which parts of the state it leaves alone. -/
set_option Elab.async false
namespace Sys2Proof.Machine

variable {m : Nat} {s₀ : State}

/-- The mask of a list of parts. -/
def maskOf : List StatePart → Nat
  | [] => 0
  | p :: l => 2 ^ p.idx ||| maskOf l

theorem StatePart.idx_inj {p q : StatePart} (h : p.idx = q.idx) : p = q := by
  cases p <;> cases q <;> first | rfl | exact absurd h (by decide)

theorem testBit_maskOf {p : StatePart} {l : List StatePart} (h : p ∉ l) : (maskOf l).testBit p.idx = false := by
  induction l with
  | nil => exact Nat.zero_testBit _
  | cons q l ih =>
    rw [List.mem_cons, not_or] at h
    rw [maskOf, Nat.testBit_lor, ih h.2, Nat.testBit_two_pow_of_ne (fun e => h.1 (StatePart.idx_inj e.symm))]
    rfl

theorem Has.lit {v : Nat} (l : List StatePart) (e : maskOf l &&& v = v) : Has (maskOf l) v :=
  (Has.refl _).sub e

theorem exec_kept (c : Instr) (s : State) (hs : Kept (maskOf (touches c)) s₀ s) :
    ResAll (Kept (maskOf (touches c)) s₀) (exec c s) := by
  match c with
  | .registerWrite bar offset width data => exact execRegisterWrite_kept (Has.lit StatePart.all rfl) bar offset width data s hs
  | .badRegisterAccess fn bar offset read => exact execBadRegisterAccess_kept (Has.lit [.regs, .out] rfl) fn bar offset read s hs
  | .isobarFineTick => exact execIsobarFineTick_kept (Has.lit [.isb, .fld] rfl) s hs
  | .nowLoRead fn => exact execNowLoRead_kept (Has.lit [.out, .isb] rfl) fn s hs
  | .sourceQualify src offset => exact execSourceQualify_kept (Has.lit [.regs, .isb, .fld, .pair] rfl) src offset s hs
  | .sourceStopTimeout src => exact execSourceStopTimeout_kept (Has.lit [.regs, .isb, .fld, .pair] rfl) src s hs
  | .slewEnd => exact execSlewEnd_kept (Has.lit [.isb] rfl) s hs
  | .ppsInEdge rising => exact execPpsInEdge_kept (Has.lit [.regs, .isb, .fld, .pair] rfl) rising s hs
  | .ptpMessage m => exact execPtpMessage_kept (Has.lit [.regs, .out, .freeCtr, .isb, .fld, .pkt, .trf, .dma, .pair] rfl) m s hs
  | .ptpSyncInterval => exact execPtpSyncInterval_kept (Has.lit [.regs, .out, .freeCtr, .isb, .pkt, .trf, .dma] rfl) s hs
  | .isbStep inst tag ns => exact execIsbStep_kept (Has.lit StatePart.all rfl) inst tag ns s hs
  | .todSet inst tag ns => exact execTodSet_kept (Has.lit StatePart.all rfl) inst tag ns s hs
  | .barrierDelayMeasure => exact execBarrierDelayMeasure_kept (Has.lit [.out, .isb, .fld, .pair] rfl) s hs
  | .limpEntry osc locks => exact execLimpEntry_kept (Has.lit (StatePart.allBut [.blobs, .sea]) rfl) osc locks s hs
  | .launchArm slot word => exact execLaunchArm_kept (Has.lit [.regs, .out, .isb, .dic, .sch, .mem, .pair, .octets, .claims] rfl) slot word s hs
  | .launchCancel slot via tag => exact execLaunchCancel_kept (Has.lit StatePart.all rfl) slot via tag s hs
  | .launchWindowWrite slot offset octets => exact execLaunchWindowWrite_kept (Has.lit [.regs, .out, .isb, .dic, .sch, .mem, .pair, .octets, .claims] rfl) slot offset octets s hs
  | .launchRecord inst tag rec => exact execLaunchRecord_kept (Has.lit StatePart.all rfl) inst tag rec s hs
  | .launchCommit num => exact execLaunchCommit_kept (Has.lit [.regs, .out, .isb, .dic, .mix, .claims] rfl) num s hs
  | .launchWakeLead num => exact execLaunchWakeLead_kept (Has.lit [.regs, .out, .pwr] rfl) num s hs
  | .xpSwap => exact execXpSwap_kept (Has.lit [.regs, .out, .isb, .dic, .mix, .claims] rfl) s hs
  | .eqSwap => exact execEqSwap_kept (Has.lit [.regs, .out, .isb, .dic, .mix, .claims] rfl) s hs
  | .srcSwitch => exact execSrcSwitch_kept (Has.lit [.regs, .out, .isb, .dic, .mix, .fwd, .claims] rfl) s hs
  | .layerSwap => exact execLayerSwap_kept (Has.lit [.regs, .out, .isb, .dic, .mix, .claims] rfl) s hs
  | .gateTakeover => exact execGateTakeover_kept (Has.lit [.regs, .out, .isb, .dic, .mix, .trf, .claims] rfl) s hs
  | .lxEdge => exact execLxEdge_kept (Has.lit [.regs, .out, .isb, .dic, .claims] rfl) s hs
  | .lxPulseEnd n => exact execLxPulseEnd_kept (Has.lit [.regs, .out, .isb] rfl) n s hs
  | .sapGroup => exact execSapGroup_kept (Has.lit [.regs, .out, .isb, .dic, .sap, .mix, .claims] rfl) s hs
  | .hallHandover => exact execHallHandover_kept (Has.lit (StatePart.allBut [.blobs, .dsp, .sea, .flt, .diag]) rfl) s hs
  | .fieldMapSwap => exact execFieldMapSwap_kept (Has.lit [.regs, .out, .isb, .fld, .dic, .pair, .claims] rfl) s hs
  | .voteOpen => exact execVoteOpen_kept (Has.lit [.regs, .out, .isb, .fld, .dic, .mix, .pair, .claims] rfl) s hs
  | .voteClose => exact execVoteClose_kept (Has.lit [.regs, .out, .isb, .fld, .dic, .mix, .pair, .claims] rfl) s hs
  | .voteSeal session => exact execVoteSeal_kept (Has.lit [.regs, .out, .sch, .mem, .pair, .octets] rfl) session s hs
  | .nodeActionOff node => exact execNodeActionOff_kept (Has.lit [.regs, .out, .isb, .fld, .dic, .pair, .claims] rfl) node s hs
  | .nodeActionOn node => exact execNodeActionOn_kept (Has.lit [.regs, .out, .isb, .fld, .dic, .pair, .claims] rfl) node s hs
  | .nodeActionLed node => exact execNodeActionLed_kept (Has.lit [.regs, .out, .isb, .fld, .dic, .pair, .claims] rfl) node s hs
  | .slotAssign node => exact execSlotAssign_kept (Has.lit [.regs, .out, .isb, .fld, .dic, .pair, .claims] rfl) node s hs
  | .slotRelease node => exact execSlotRelease_kept (Has.lit [.regs, .out, .isb, .fld, .dic, .pair, .claims] rfl) node s hs
  | .selectChannel node => exact execSelectChannel_kept (Has.lit [.regs, .out, .isb, .fld, .dic, .pair, .claims] rfl) node s hs
  | .nodeActionGain node => exact execNodeActionGain_kept (Has.lit [.regs, .out, .isb, .fld, .dic, .pair, .claims] rfl) node s hs
  | .launchCmd h num rec => exact execLaunchCmd_kept (Has.lit [.out, .fld, .pair] rfl) h num rec s hs
  | .launchReport h num trunk state late reason => exact execLaunchReport_kept (Has.lit [.regs, .out, .isb, .fld, .dic, .mix, .pair, .claims] rfl) h num trunk state late reason s hs
  | .ppsOutEdge n => exact execPpsOutEdge_kept (Has.lit [.out, .isb] rfl) n s hs
  | .ppsOutPulseEnd n => exact execPpsOutPulseEnd_kept (Has.lit [.out, .isb] rfl) n s hs
  | .ppsEn inst tag n on => exact execPpsEn_kept (Has.lit StatePart.all rfl) inst tag n on s hs
  | .lxEn inst tag n on => exact execLxEn_kept (Has.lit StatePart.all rfl) inst tag n on s hs
  | .isobarAlarm => exact execIsobarAlarm_kept (Has.lit [.regs, .out, .isb, .pwr] rfl) s hs
  | .fieldReset => exact execFieldReset_kept (Has.lit [.regs, .out, .isb, .fld, .flt] rfl) s hs
  | .fieldStart => exact execFieldStart_kept (Has.lit [.regs, .out, .isb, .fld, .flt] rfl) s hs
  | .powerSequenceStep => exact execPowerSequenceStep_kept (Has.lit [.regs, .out, .fld] rfl) s hs
  | .fieldFrame noise skew => exact execFieldFrame_kept (Has.lit [.regs, .out, .fld, .pair] rfl) noise skew s hs
  | .hubFieldFrame => exact execHubFieldFrame_kept (Has.lit [.regs, .out, .fld, .mix, .pair] rfl) s hs
  | .poruaFrameReturn trunk f => exact execPoruaFrameReturn_kept (Has.lit [.regs, .out, .freeCtr, .fld, .dic, .flt, .pair, .diag, .claims] rfl) trunk f s hs
  | .nodeEventResend node => exact execNodeEventResend_kept (Has.lit [.out, .fld, .pair] rfl) node s hs
  | .heartbeat atHub h mode field role epoch => exact execHeartbeat_kept (Has.lit [.out, .fld, .pair] rfl) atHub h mode field role epoch s hs
  | .hubLost => exact execHubLost_kept (Has.lit [.regs, .out, .isb, .fld] rfl) s hs
  | .fieldLost => exact execFieldLost_kept (Has.lit [.regs, .out, .isb, .fld] rfl) s hs
  | .timeXfer h time frac isbState freq => exact execTimeXfer_kept (Has.lit [.regs, .out, .fld, .pair] rfl) h time frac isbState freq s hs
  | .timeEcho atHub h sent holdPs => exact execTimeEcho_kept (Has.lit [.regs, .out, .isb, .fld, .pair] rfl) atHub h sent holdPs s hs
  | .wake h source data at_ => exact execWake_kept (Has.lit [.regs, .out, .fld, .pwr, .pair] rfl) h source data at_ s hs
  | .audioUp h trunk block frameTime valid samples => exact execAudioUp_kept (Has.lit [.out, .fld, .pair] rfl) h trunk block frameTime valid samples s hs
  | .audioDown h frameTime samples => exact execAudioDown_kept (Has.lit [.out, .fld, .pair] rfl) h frameTime samples s hs
  | .nodeEvent h node code frameTime => exact execNodeEvent_kept (Has.lit [.regs, .out, .fld, .sch, .mem, .pwr, .pair, .octets] rfl) h node code frameTime s hs
  | .nodeClear h node => exact execNodeClear_kept (Has.lit [.regs, .out, .fld, .sch, .mem, .pair, .octets] rfl) h node s hs
  | .nodeAck h node => exact execNodeAck_kept (Has.lit [.out, .fld, .pair] rfl) h node s hs
  | .dictReq h inst body => exact execDictReq_kept (Has.lit StatePart.all rfl) h inst body s hs
  | .dictRsp h inst body => exact execDictRsp_kept (Has.lit [.out, .fld, .pair] rfl) h inst body s hs
  | .power atHub h kind arg => exact execPower_kept (Has.lit [.regs, .out, .freeCtr, .fld, .dic, .sch, .pkt, .trf, .dma, .mem, .pwr, .pair, .boot, .octets] rfl) atHub h kind arg s hs
  | .lanokResend hub => exact execLanokResend_kept (Has.lit [.regs, .out, .isb, .fld] rfl) hub s hs
  | .lanokLinkStart offset => exact execLanokLinkStart_kept (Has.lit (StatePart.allBut [.blobs, .dsp, .sea, .flt, .diag]) rfl) offset s hs
  | .enumerate inst tag trunk => exact execEnumerate_kept (Has.lit StatePart.all rfl) inst tag trunk s hs
  | .hopDown trunk hop => exact execHopDown_kept (Has.lit [.regs, .fld, .flt, .diag] rfl) trunk hop s hs
  | .loopbackRemove trunk hop => exact execLoopbackRemove_kept (Has.lit [.regs, .fld] rfl) trunk hop s hs
  | .trunkPortEnable trunk port => exact execTrunkPortEnable_kept (Has.lit [.regs, .out, .fld] rfl) trunk port s hs
  | .softStartEnd trunk port current => exact execSoftStartEnd_kept (Has.lit [.regs, .fld] rfl) trunk port current s hs
  | .overcurrentTrip trunk port current => exact execOvercurrentTrip_kept (Has.lit [.regs, .out, .fld] rfl) trunk port current s hs
  | .tripRetry trunk port => exact execTripRetry_kept (Has.lit [.regs, .out, .fld] rfl) trunk port s hs
  | .pwrClear inst tag trunk port => exact execPwrClear_kept (Has.lit StatePart.all rfl) inst tag trunk port s hs
  | .hdMicCloseEnd node => exact execHdMicCloseEnd_kept (Has.lit [.regs, .fld] rfl) node s hs
  | .emergencyIn pin => exact execEmergencyIn_kept (Has.lit [.regs, .out, .fld, .pair] rfl) pin s hs
  | .fgpioDebounceEnd pin high heldMs => exact execFgpioDebounceEnd_kept (Has.lit [.regs, .out, .fld, .pair] rfl) pin high heldMs s hs
  | .fieldWake => exact execFieldWake_kept (Has.lit [.regs] rfl) s hs
  | .canFrame bus identifier form passive octets => exact execCanFrame_kept (Has.lit [.regs, .out, .freeCtr, .fld, .pair] rfl) bus identifier form passive octets s hs
  | .canReassemblyTimeout bus => exact execCanReassemblyTimeout_kept (Has.lit [.regs, .fld] rfl) bus s hs
  | .canBusOffRecovery bus => exact execCanBusOffRecovery_kept (Has.lit [.regs, .fld] rfl) bus s hs
  | .reqSpeak => exact execReqSpeak_kept (Has.lit [.regs, .out, .isb, .fld, .dic, .mix, .pair, .claims] rfl) s hs
  | .reqCancel => exact execReqCancel_kept (Has.lit [.regs, .out, .isb, .fld, .dic, .mix, .pair, .claims] rfl) s hs
  | .priorityOn => exact execPriorityOn_kept (Has.lit [.regs, .out, .isb, .fld, .dic, .mix, .pair, .claims] rfl) s hs
  | .priorityOff => exact execPriorityOff_kept (Has.lit [.regs, .out, .isb, .fld, .dic, .mix, .pair, .claims] rfl) s hs
  | .voteK => exact execVoteK_kept (Has.lit [.regs, .fld] rfl) s hs
  | .endpointChange => exact execEndpointChange_kept (Has.lit [.fld] rfl) s hs
  | .message => exact execMessage_kept (Has.lit [.fld] rfl) s hs
  | .fault => exact execFault_kept (Has.lit [.fld] rfl) s hs
  | .read inst tag index sub => exact execRead_kept (Has.lit StatePart.all rfl) inst tag index sub s hs
  | .write inst tag index sub value => exact execWrite_kept (Has.lit StatePart.all rfl) inst tag index sub value s hs
  | .groupWrite inst tag index sub value => exact execGroupWrite_kept (Has.lit StatePart.all rfl) inst tag index sub value s hs
  | .blobOpenWrite inst tag index sub length => exact execBlobOpenWrite_kept (Has.lit StatePart.all rfl) inst tag index sub length s hs
  | .blobOpenRead inst tag index sub => exact execBlobOpenRead_kept (Has.lit StatePart.all rfl) inst tag index sub s hs
  | .blobData inst tag index sub value => exact execBlobData_kept (Has.lit StatePart.all rfl) inst tag index sub value s hs
  | .blobClose inst tag index sub value => exact execBlobClose_kept (Has.lit StatePart.all rfl) inst tag index sub value s hs
  | .abort inst tag index sub => exact execAbort_kept (Has.lit StatePart.all rfl) inst tag index sub s hs
  | .cmdComplete index sub st => exact execCmdComplete_kept (Has.lit [.regs, .out, .freeCtr, .fld, .dic, .pkt, .trf, .dma, .pair, .boot] rfl) index sub st s hs
  | .groupTimeout inst => exact execGroupTimeout_kept (Has.lit [.dic] rfl) inst s hs
  | .blobTimeout inst => exact execBlobTimeout_kept (Has.lit [.dic] rfl) inst s hs
  | .mbxGo slot => exact execMbxGo_kept (Has.lit StatePart.all rfl) slot s hs
  | .udpDictDatagram src sport fragment octets => exact execUdpDictDatagram_kept (Has.lit StatePart.all rfl) src sport fragment octets s hs
  | .persistFlashWrite => exact execPersistFlashWrite_kept (Has.lit [.dic, .boot] rfl) s hs
  | .persistWriteComplete => exact execPersistWriteComplete_kept (Has.lit [.regs, .out, .dic, .sch, .mem, .pair, .boot, .octets] rfl) s hs
  | .warmReset inst tag => exact execWarmReset_kept (Has.lit StatePart.all rfl) inst tag s hs
  | .factoryReset inst tag => exact execFactoryReset_kept (Has.lit StatePart.all rfl) inst tag s hs
  | .modeRequest inst tag mode => exact execModeRequest_kept (Has.lit StatePart.all rfl) inst tag mode s hs
  | .sqTailWrite q value => exact execSqTailWrite_kept (Has.lit [.regs, .out, .sch, .mem, .pwr, .pair, .octets] rfl) q value s hs
  | .sqErrRead fn q => exact execSqErrRead_kept (Has.lit [.out, .sch] rfl) fn q s hs
  | .acceptLoRead fn => exact execAcceptLoRead_kept (Has.lit [.out, .sch] rfl) fn s hs
  | .workEnqueue source it => exact execWorkEnqueue_kept (Has.lit [.regs, .out, .sch, .mem, .pwr, .pair, .octets] rfl) source it s hs
  | .journalAccept => exact execJournalAccept_kept (Has.lit StatePart.all rfl) s hs
  | .peerCopyTimeout => exact execPeerCopyTimeout_kept (Has.lit StatePart.all rfl) s hs
  | .meWorkRequest me => exact execMeWorkRequest_kept (Has.lit [.regs, .out, .sch, .dsp, .mem, .pwr, .pair, .octets] rfl) me s hs
  | .affinityWaitExpiry accept => exact execAffinityWaitExpiry_kept (Has.lit [.sch] rfl) accept s hs
  | .itemComplete me actions => exact execItemComplete_kept (Has.lit [.regs, .out, .sch, .mem, .pwr, .pair, .octets] rfl) me actions s hs
  | .delayDue => exact execDelayDue_kept (Has.lit [.regs, .out, .sch, .mem, .pwr, .octets] rfl) s hs
  | .runLimitExceeded me => exact execRunLimitExceeded_kept (Has.lit [.regs, .out, .sch, .dsp, .mem, .pwr, .flt, .pair, .diag, .octets] rfl) me s hs
  | .meFault me => exact execMeFault_kept (Has.lit [.regs, .out, .sch, .dsp, .mem, .pwr, .flt, .pair, .diag, .octets] rfl) me s hs
  | .clusterFault cl => exact execClusterFault_kept (Has.lit [.regs, .out, .sch, .dsp, .mem, .pwr, .flt, .pair, .diag, .octets] rfl) cl s hs
  | .checkpoint => exact execCheckpoint_kept (Has.lit [.sch] rfl) s hs
  | .checkpointComplete => exact execCheckpointComplete_kept (Has.lit [.regs, .out, .sch, .mem, .pair, .octets] rfl) s hs
  | .mirrorCopyDone => exact execMirrorCopyDone_kept (Has.lit [.regs, .sch, .mem, .octets] rfl) s hs
  | .fwStage inst tag octets => exact execFwStage_kept (Has.lit StatePart.all rfl) inst tag octets s hs
  | .fwActivate inst tag => exact execFwActivate_kept (Has.lit StatePart.all rfl) inst tag s hs
  | .schedStatsClear inst tag => exact execSchedStatsClear_kept (Has.lit StatePart.all rfl) inst tag s hs
  | .nop me => exact execNop_kept (Has.lit [.regs, .out, .sch, .dsp, .mem, .pwr, .pair, .octets] rfl) me s hs
  | .mpy me => exact execMpy_kept (Has.lit [.regs, .out, .sch, .dsp, .mem, .pwr, .pair, .octets] rfl) me s hs
  | .mac me => exact execMac_kept (Has.lit [.regs, .out, .sch, .dsp, .mem, .pwr, .pair, .octets] rfl) me s hs
  | .msu me => exact execMsu_kept (Has.lit [.regs, .out, .sch, .dsp, .mem, .pwr, .pair, .octets] rfl) me s hs
  | .mpy2 me => exact execMpy2_kept (Has.lit [.regs, .out, .sch, .dsp, .mem, .pwr, .pair, .octets] rfl) me s hs
  | .mac2 me => exact execMac2_kept (Has.lit [.regs, .out, .sch, .dsp, .mem, .pwr, .pair, .octets] rfl) me s hs
  | .macx me => exact execMacx_kept (Has.lit [.regs, .out, .sch, .dsp, .mem, .pwr, .pair, .octets] rfl) me s hs
  | .cmpy me => exact execCmpy_kept (Has.lit [.regs, .out, .sch, .dsp, .mem, .pwr, .pair, .octets] rfl) me s hs
  | .cmac me => exact execCmac_kept (Has.lit [.regs, .out, .sch, .dsp, .mem, .pwr, .pair, .octets] rfl) me s hs
  | .add me => exact execAdd_kept (Has.lit [.regs, .out, .sch, .dsp, .mem, .pwr, .pair, .octets] rfl) me s hs
  | .sub me => exact execSub_kept (Has.lit [.regs, .out, .sch, .dsp, .mem, .pwr, .pair, .octets] rfl) me s hs
  | .bfly me => exact execBfly_kept (Has.lit [.regs, .out, .sch, .dsp, .mem, .pwr, .pair, .octets] rfl) me s hs
  | .abs me => exact execAbs_kept (Has.lit [.regs, .out, .sch, .dsp, .mem, .pwr, .pair, .octets] rfl) me s hs
  | .neg me => exact execNeg_kept (Has.lit [.regs, .out, .sch, .dsp, .mem, .pwr, .pair, .octets] rfl) me s hs
  | .min me => exact execMin_kept (Has.lit [.regs, .out, .sch, .dsp, .mem, .pwr, .pair, .octets] rfl) me s hs
  | .max me => exact execMax_kept (Has.lit [.regs, .out, .sch, .dsp, .mem, .pwr, .pair, .octets] rfl) me s hs
  | .and me => exact execAnd_kept (Has.lit [.regs, .out, .sch, .dsp, .mem, .pwr, .pair, .octets] rfl) me s hs
  | .or me => exact execOr_kept (Has.lit [.regs, .out, .sch, .dsp, .mem, .pwr, .pair, .octets] rfl) me s hs
  | .xor me => exact execXor_kept (Has.lit [.regs, .out, .sch, .dsp, .mem, .pwr, .pair, .octets] rfl) me s hs
  | .shl me => exact execShl_kept (Has.lit [.regs, .out, .sch, .dsp, .mem, .pwr, .pair, .octets] rfl) me s hs
  | .shr me => exact execShr_kept (Has.lit [.regs, .out, .sch, .dsp, .mem, .pwr, .pair, .octets] rfl) me s hs
  | .cmp me => exact execCmp_kept (Has.lit [.regs, .out, .sch, .dsp, .mem, .pwr, .pair, .octets] rfl) me s hs
  | .sel me => exact execSel_kept (Has.lit [.regs, .out, .sch, .dsp, .mem, .pwr, .pair, .octets] rfl) me s hs
  | .perm me => exact execPerm_kept (Has.lit [.regs, .out, .sch, .dsp, .mem, .pwr, .pair, .octets] rfl) me s hs
  | .exp me => exact execExp_kept (Has.lit [.regs, .out, .sch, .dsp, .mem, .pwr, .pair, .octets] rfl) me s hs
  | .aadd me => exact execAadd_kept (Has.lit [.regs, .out, .sch, .dsp, .mem, .pwr, .pair, .octets] rfl) me s hs
  | .asub me => exact execAsub_kept (Has.lit [.regs, .out, .sch, .dsp, .mem, .pwr, .pair, .octets] rfl) me s hs
  | .ash me => exact execAsh_kept (Has.lit [.regs, .out, .sch, .dsp, .mem, .pwr, .pair, .octets] rfl) me s hs
  | .aclr me => exact execAclr_kept (Has.lit [.regs, .out, .sch, .dsp, .mem, .pwr, .pair, .octets] rfl) me s hs
  | .amov me => exact execAmov_kept (Has.lit [.regs, .out, .sch, .dsp, .mem, .pwr, .pair, .octets] rfl) me s hs
  | .rnd me => exact execRnd_kept (Has.lit [.regs, .out, .sch, .dsp, .mem, .pwr, .pair, .octets] rfl) me s hs
  | .rndh me => exact execRndh_kept (Has.lit [.regs, .out, .sch, .dsp, .mem, .pwr, .pair, .octets] rfl) me s hs
  | .ld me y => exact execLd_kept (Has.lit [.regs, .out, .sch, .dsp, .mem, .pwr, .pair, .octets] rfl) me y s hs
  | .st me y => exact execSt_kept (Has.lit [.regs, .out, .sch, .dsp, .mem, .pwr, .pair, .octets] rfl) me y s hs
  | .ldb me y => exact execLdb_kept (Has.lit [.regs, .out, .sch, .dsp, .mem, .pwr, .pair, .octets] rfl) me y s hs
  | .pupd me y => exact execPupd_kept (Has.lit [.regs, .out, .sch, .dsp, .mem, .pwr, .pair, .octets] rfl) me y s hs
  | .cnop me => exact execCnop_kept (Has.lit [.dsp] rfl) me s hs
  | .setv me => exact execSetv_kept (Has.lit [.dsp] rfl) me s hs
  | .setp me => exact execSetp_kept (Has.lit [.dsp] rfl) me s hs
  | .setm me => exact execSetm_kept (Has.lit [.dsp] rfl) me s hs
  | .addp me => exact execAddp_kept (Has.lit [.dsp] rfl) me s hs
  | .bra me => exact execBra_kept (Has.lit [.dsp] rfl) me s hs
  | .bcc me => exact execBcc_kept (Has.lit [.dsp] rfl) me s hs
  | .loop me => exact execLoop_kept (Has.lit [.regs, .out, .sch, .dsp, .mem, .pwr, .pair, .octets] rfl) me s hs
  | .ldc me => exact execLdc_kept (Has.lit [.regs, .out, .sch, .dsp, .mem, .pwr, .pair, .octets] rfl) me s hs
  | .ldcDataArrive me => exact execLdcDataArrive_kept (Has.lit [.dsp] rfl) me s hs
  | .clrf me => exact execClrf_kept (Has.lit [.dsp] rfl) me s hs
  | .rdst me => exact execRdst_kept (Has.lit [.dsp] rfl) me s hs
  | .halt me => exact execHalt_kept (Has.lit [.regs, .out, .sch, .dsp, .mem, .pwr, .pair, .octets] rfl) me s hs
  | .tickBoundary t => exact execTickBoundary_kept (Has.lit [.regs, .sch, .dsp] rfl) t s hs
  | .tickBudgetExpiry t => exact execTickBudgetExpiry_kept (Has.lit [.regs, .sch, .dsp] rfl) t s hs
  | .kimageValidated k => exact execKimageValidated_kept (Has.lit [.regs, .dsp, .mem, .octets] rfl) k s hs
  | .kunload inst tag k => exact execKunload_kept (Has.lit StatePart.all rfl) inst tag k s hs
  | .bEn inst tag e on => exact execBEn_kept (Has.lit StatePart.all rfl) inst tag e on s hs
  | .tEn inst tag t on => exact execTEn_kept (Has.lit StatePart.all rfl) inst tag t on s hs
  | .sapEn inst tag n on => exact execSapEn_kept (Has.lit StatePart.all rfl) inst tag n on s hs
  | .sapClocksStart n => exact execSapClocksStart_kept (Has.lit [.regs, .out, .sap] rfl) n s hs
  | .sapLocked n => exact execSapLocked_kept (Has.lit [.regs, .sap] rfl) n s hs
  | .sapStartFramesDone n => exact execSapStartFramesDone_kept (Has.lit [.regs, .sap] rfl) n s hs
  | .sapRampOutDone n => exact execSapRampOutDone_kept (Has.lit [.regs, .out, .dic, .sap, .mix, .claims] rfl) n s hs
  | .sapStopFramesDone n => exact execSapStopFramesDone_kept (Has.lit [.regs, .out, .dic, .sap, .mix, .claims] rfl) n s hs
  | .clockLost n => exact execClockLost_kept (Has.lit [.regs, .out, .sap, .flt, .diag] rfl) n s hs
  | .staleFadeExpiry endpoint n => exact execStaleFadeExpiry_kept (Has.lit [.sap] rfl) endpoint n s hs
  | .audioSampleBoundary di mics => exact execAudioSampleBoundary_kept (Has.lit [.regs, .out, .freeCtr, .fld, .dsp, .sap, .mix, .pkt, .trf, .dma, .flt, .diag] rfl) di mics s hs
  | .epEn inst tag rx e on => exact execEpEn_kept (Has.lit StatePart.all rfl) inst tag rx e on s hs
  | .bar2Write offset width data => exact execBar2Write_kept (Has.lit [.regs, .mix] rfl) offset width data s hs
  | .xpCopy inst tag set_ => exact execXpCopy_kept (Has.lit StatePart.all rfl) inst tag set_ s hs
  | .xpPreset inst tag => exact execXpPreset_kept (Has.lit StatePart.all rfl) inst tag s hs
  | .xpCopyDone => exact execXpCopyDone_kept (Has.lit [.regs, .out, .freeCtr, .fld, .dic, .mix, .pkt, .trf, .dma, .pair, .boot] rfl) s hs
  | .meterClr inst tag => exact execMeterClr_kept (Has.lit StatePart.all rfl) inst tag s hs
  | .lmReset inst tag m => exact execLmReset_kept (Has.lit StatePart.all rfl) inst tag m s hs
  | .loudnessUpdate => exact execLoudnessUpdate_kept (Has.lit [.regs, .mix] rfl) s hs
  | .tmGrant inst tag id => exact execTmGrant_kept (Has.lit StatePart.all rfl) inst tag id s hs
  | .tmClose inst tag id => exact execTmClose_kept (Has.lit StatePart.all rfl) inst tag id s hs
  | .tmClearQueue inst tag => exact execTmClearQueue_kept (Has.lit StatePart.all rfl) inst tag s hs
  | .talkerSwitch => exact execTalkerSwitch_kept (Has.lit [.regs, .out, .isb, .fld, .dic, .mix, .pair, .claims] rfl) s hs
  | .deskEn inst tag d on => exact execDeskEn_kept (Has.lit StatePart.all rfl) inst tag d on s hs
  | .preselection => exact execPreselection_kept (Has.lit [.regs, .out, .isb, .fld, .dic, .mix, .pair, .claims] rfl) s hs
  | .candidateConcealEnd c => exact execCandidateConcealEnd_kept (Has.lit [.mix] rfl) c s hs
  | .voiceHangExpiry leg => exact execVoiceHangExpiry_kept (Has.lit [.regs, .out, .isb, .fld, .dic, .mix, .pair, .claims] rfl) leg s hs
  | .languageFallback l => exact execLanguageFallback_kept (Has.lit [.mix] rfl) l s hs
  | .groupFrameBoundary g => exact execGroupFrameBoundary_kept (Has.lit [.regs, .out, .freeCtr, .mix, .pkt, .trf, .fwd, .dma, .pair] rfl) g s hs
  | .ethFrameReceived p f => exact execEthFrameReceived_kept (Has.lit [.regs, .out, .freeCtr, .isb, .fld, .sap, .mix, .pkt, .trf, .fwd, .vid, .dma, .sea, .pwr, .pair] rfl) p f s hs
  | .mgmtFrameReceived f => exact execMgmtFrameReceived_kept (Has.lit StatePart.all rfl) f s hs
  | .pauseReceived p quanta => exact execPauseReceived_kept (Has.lit [.regs, .trf] rfl) p quanta s hs
  | .pfcReceived p enabled quanta => exact execPfcReceived_kept (Has.lit [.regs, .trf] rfl) p enabled quanta s hs
  | .pauseExpiry p => exact execPauseExpiry_kept (Has.lit [.regs, .trf] rfl) p s hs
  | .pauseResend p => exact execPauseResend_kept (Has.lit [.trf] rfl) p s hs
  | .linkLoss p => exact execLinkLoss_kept (Has.lit [.regs, .out, .isb, .fld, .dic, .mix, .pkt, .trf, .fwd, .dma, .flt, .pair, .diag, .claims] rfl) p s hs
  | .linkUp p => exact execLinkUp_kept (Has.lit [.regs, .trf] rfl) p s hs
  | .fecSecond p corrected uncorrectable => exact execFecSecond_kept (Has.lit [.regs, .out, .isb, .fld, .dic, .mix, .pkt, .trf, .fwd, .dma, .flt, .pair, .diag, .claims] rfl) p corrected uncorrectable s hs
  | .portEn inst tag p on => exact execPortEn_kept (Has.lit StatePart.all rfl) inst tag p on s hs
  | .qFlush inst tag => exact execQFlush_kept (Has.lit StatePart.all rfl) inst tag s hs
  | .poolTest inst tag => exact execPoolTest_kept (Has.lit StatePart.all rfl) inst tag s hs
  | .poolTestDone cells => exact execPoolTestDone_kept (Has.lit (StatePart.allBut [.blobs, .dsp, .sea, .flt, .diag]) rfl) cells s hs
  | .spillDrainComplete => exact execSpillDrainComplete_kept (Has.lit [.regs, .out, .pkt, .trf, .dma] rfl) s hs
  | .orphanAudit cells => exact execOrphanAudit_kept (Has.lit [.regs, .pkt] rfl) cells s hs
  | .portTransmitterFree p read => exact execPortTransmitterFree_kept (Has.lit [.regs, .out, .freeCtr, .isb, .pkt, .trf, .fwd, .dma, .sea] rfl) p read s hs
  | .shaperConforming leg => exact execShaperConforming_kept (Has.lit [.regs, .trf] rfl) leg s hs
  | .shaperAdapt => exact execShaperAdapt_kept (Has.lit [.regs, .trf] rfl) s hs
  | .gateEntryChange p => exact execGateEntryChange_kept (Has.lit [.regs] rfl) p s hs
  | .gateConfigChange p => exact execGateConfigChange_kept (Has.lit [.regs, .blobs, .out, .isb, .dic, .pkt, .trf, .fwd, .dma, .claims] rfl) p s hs
  | .copyFormation => exact execCopyFormation_kept (Has.lit [.regs, .out, .freeCtr, .pkt, .trf, .fwd, .dma, .pair] rfl) s hs
  | .estimateUpdate leg => exact execEstimateUpdate_kept (Has.lit [.regs, .fwd] rfl) leg s hs
  | .refreshWaitExpiry => exact execRefreshWaitExpiry_kept (Has.lit [.regs, .out, .freeCtr, .pkt, .trf, .fwd, .vid, .dma, .pair] rfl) s hs
  | .refreshMinExpiry => exact execRefreshMinExpiry_kept (Has.lit [.regs, .out, .freeCtr, .pkt, .trf, .fwd, .dma, .pair] rfl) s hs
  | .transportFeedbackTimer => exact execTransportFeedbackTimer_kept (Has.lit [.regs, .out, .freeCtr, .pkt, .trf, .fwd, .dma, .pair] rfl) s hs
  | .rtcpReportTimer => exact execRtcpReportTimer_kept (Has.lit [.regs, .out, .freeCtr, .pkt, .trf, .fwd, .dma, .pair] rfl) s hs
  | .failbackHoldExpiry p => exact execFailbackHoldExpiry_kept (Has.lit [.regs, .trf] rfl) p s hs
  | .legCkptTimer => exact execLegCkptTimer_kept (Has.lit [.out, .fwd, .pair] rfl) s hs
  | .authFailSecond leg => exact execAuthFailSecond_kept (Has.lit [.regs, .out, .isb, .fld, .dic, .mix, .pkt, .trf, .fwd, .dma, .flt, .pair, .diag, .claims] rfl) leg s hs
  | .legEn inst tag l on => exact execLegEn_kept (Has.lit StatePart.all rfl) inst tag l on s hs
  | .legCtrlEnable inst tag leg txn => exact execLegCtrlEnable_kept (Has.lit StatePart.all rfl) inst tag leg txn s hs
  | .legCtrlDisable inst tag leg txn => exact execLegCtrlDisable_kept (Has.lit StatePart.all rfl) inst tag leg txn s hs
  | .legCtrlSpeak inst tag leg txn => exact execLegCtrlSpeak_kept (Has.lit StatePart.all rfl) inst tag leg txn s hs
  | .legCtrlCancel inst tag leg txn => exact execLegCtrlCancel_kept (Has.lit StatePart.all rfl) inst tag leg txn s hs
  | .legCtrlSetSource inst tag leg txn slot code => exact execLegCtrlSetSource_kept (Has.lit StatePart.all rfl) inst tag leg txn slot code s hs
  | .legCtrlSetMax inst tag leg txn slot layer => exact execLegCtrlSetMax_kept (Has.lit StatePart.all rfl) inst tag leg txn slot layer s hs
  | .legCtrlRefresh inst tag leg txn slot => exact execLegCtrlRefresh_kept (Has.lit StatePart.all rfl) inst tag leg txn slot s hs
  | .decEn inst tag c on => exact execDecEn_kept (Has.lit StatePart.all rfl) inst tag c on s hs
  | .encEn inst tag e on => exact execEncEn_kept (Has.lit StatePart.all rfl) inst tag e on s hs
  | .decodePictureComplete j => exact execDecodePictureComplete_kept (Has.lit [.regs, .out, .freeCtr, .pkt, .trf, .fwd, .vid, .dma, .pwr, .pair] rfl) j s hs
  | .decodeBufWaitTimeout c => exact execDecodeBufWaitTimeout_kept (Has.lit [.regs, .vid, .pwr] rfl) c s hs
  | .pictureTimeout j => exact execPictureTimeout_kept (Has.lit [.regs, .vid, .pwr, .flt, .diag] rfl) j s hs
  | .damageWaitExpiry c => exact execDamageWaitExpiry_kept (Has.lit [.regs, .out, .freeCtr, .pkt, .trf, .fwd, .vid, .dma, .pair] rfl) c s hs
  | .encodePictureComplete e rows cutAt units => exact execEncodePictureComplete_kept (Has.lit [.regs, .out, .freeCtr, .pkt, .trf, .fwd, .vid, .dma, .mem, .pwr, .octets] rfl) e rows cutAt units s hs
  | .refresh inst tag e => exact execRefresh_kept (Has.lit StatePart.all rfl) inst tag e s hs
  | .outputPictureBoundary o => exact execOutputPictureBoundary_kept (Has.lit [.regs, .blobs, .vid, .cmp, .pwr] rfl) o s hs
  | .composedPictureComplete => exact execComposedPictureComplete_kept (Has.lit [.regs, .out, .vid, .cmp, .pwr] rfl) s hs
  | .layerTableBar2Write off value wide => exact execLayerTableBar2Write_kept (Has.lit [.regs, .blobs, .out, .cmp] rfl) off value wide s hs
  | .layerCopy inst tag o => exact execLayerCopy_kept (Has.lit StatePart.all rfl) inst tag o s hs
  | .outEn inst tag o on => exact execOutEn_kept (Has.lit StatePart.all rfl) inst tag o on s hs
  | .ovlBase inst tag v base => exact execOvlBase_kept (Has.lit StatePart.all rfl) inst tag v base s hs
  | .dmaGo n host => exact execDmaGo_kept (Has.lit [.regs, .out, .dic, .dma, .claims] rfl) n host s hs
  | .dmaStop n host => exact execDmaStop_kept (Has.lit [.regs, .out, .dic, .dma, .claims] rfl) n host s hs
  | .dmaResume n host => exact execDmaResume_kept (Has.lit [.regs, .out, .dic, .dma, .claims] rfl) n host s hs
  | .dmaDoorbell n => exact execDmaDoorbell_kept (Has.lit [.regs, .out, .dic, .dma, .claims] rfl) n s hs
  | .dmaReq n => exact execDmaReq_kept (Has.lit [.regs, .out, .dma] rfl) n s hs
  | .descriptorFetchDone n host failed => exact execDescriptorFetchDone_kept (Has.lit [.regs, .out, .dma] rfl) n host failed s hs
  | .descriptorComplete n host fail => exact execDescriptorComplete_kept (Has.lit [.regs, .out, .freeCtr, .sch, .pkt, .trf, .dma, .mem, .pwr, .pair, .octets] rfl) n host fail s hs
  | .linkFetchDone n host failed => exact execLinkFetchDone_kept (Has.lit [.regs, .out, .dic, .dma, .claims] rfl) n host failed s hs
  | .dmaPacingPermit n => exact execDmaPacingPermit_kept (Has.lit [.regs, .out, .dic, .dma, .claims] rfl) n s hs
  | .dmaPaceTimer n => exact execDmaPaceTimer_kept (Has.lit [.regs, .out, .dma] rfl) n s hs
  | .busTimeout n host done => exact execBusTimeout_kept (Has.lit [.regs, .out, .freeCtr, .sch, .pkt, .trf, .dma, .mem, .pwr, .pair, .octets] rfl) n host done s hs
  | .curLoRead n fn => exact execCurLoRead_kept (Has.lit [.out, .dma] rfl) n fn s hs
  | .dmaEn inst tag n on => exact execDmaEn_kept (Has.lit StatePart.all rfl) inst tag n on s hs
  | .memRequest rs => exact execMemRequest_kept (Has.lit (StatePart.allBut [.blobs, .dsp]) rfl) rs s hs
  | .reinterleaveDone restored => exact execReinterleaveDone_kept (Has.lit (StatePart.allBut [.blobs, .sea, .flt]) rfl) restored s hs
  | .dramRefresh c rank issued => exact execDramRefresh_kept (Has.lit [.mem] rfl) c rank issued s hs
  | .actWindow => exact execActWindow_kept (Has.lit [.mem] rfl) s hs
  | .patrolScrub c corrected bad => exact execPatrolScrub_kept (Has.lit (StatePart.allBut [.blobs, .dsp]) rfl) c corrected bad s hs
  | .periodicRetrain c margin pause inRange => exact execPeriodicRetrain_kept (Has.lit [.regs, .out, .mem] rfl) c margin pause inRange s hs
  | .fullTrainingDone c ok => exact execFullTrainingDone_kept (Has.lit (StatePart.allBut [.blobs, .dsp]) rfl) c ok s hs
  | .pdIdleExpiry c rank => exact execPdIdleExpiry_kept (Has.lit [.mem] rfl) c rank s hs
  | .memStatsClear inst tag => exact execMemStatsClear_kept (Has.lit StatePart.all rfl) inst tag s hs
  | .keyLoad r => exact execKeyLoad_kept (Has.lit [.regs, .out, .dic, .sea, .claims] rfl) r s hs
  | .keyErase r => exact execKeyErase_kept (Has.lit [.regs, .out, .dic, .sea, .claims] rfl) r s hs
  | .keyLoadNext r => exact execKeyLoadNext_kept (Has.lit [.regs, .out, .dic, .sea, .claims] rfl) r s hs
  | .sealRequest r => exact execSealRequest_kept (Has.lit [.regs, .out, .sch, .mem, .sea, .pwr, .pair, .octets] rfl) r s hs
  | .sealDequeue => exact execSealDequeue_kept (Has.lit [.regs, .sea] rfl) s hs
  | .sealComplete wrong0 wrong1 agree2 => exact execSealComplete_kept (Has.lit [.regs, .out, .sch, .mem, .sea, .pwr, .flt, .pair, .diag, .octets] rfl) wrong0 wrong1 agree2 s hs
  | .slotErase inst tag slot => exact execSlotErase_kept (Has.lit StatePart.all rfl) inst tag slot s hs
  | .inErase inst tag => exact execInErase_kept (Has.lit StatePart.all rfl) inst tag s hs
  | .outErase inst tag => exact execOutErase_kept (Has.lit StatePart.all rfl) inst tag s hs
  | .egressKeyEffective leg => exact execEgressKeyEffective_kept (Has.lit [.regs, .sea] rfl) leg s hs
  | .prevKeyExpiry leg => exact execPrevKeyExpiry_kept (Has.lit [.sea] rfl) leg s hs
  | .pdRequestRun inst tag d => exact execPdRequestRun_kept (Has.lit StatePart.all rfl) inst tag d s hs
  | .pdRequestCalm inst tag d => exact execPdRequestCalm_kept (Has.lit StatePart.all rfl) inst tag d s hs
  | .pdRequestFrost inst tag d => exact execPdRequestFrost_kept (Has.lit StatePart.all rfl) inst tag d s hs
  | .pdReset inst tag d => exact execPdReset_kept (Has.lit StatePart.all rfl) inst tag d s hs
  | .lullEntry unit => exact execLullEntry_kept (Has.lit [.regs, .pwr] rfl) unit s hs
  | .hubOff inst tag => exact execHubOff_kept (Has.lit StatePart.all rfl) inst tag s hs
  | .wakeN => exact execWakeN_kept (Has.lit [.regs, .out, .pwr, .boot] rfl) s hs
  | .drainComplete => exact execDrainComplete_kept (Has.lit StatePart.all rfl) s hs
  | .drainTimeout => exact execDrainTimeout_kept (Has.lit [.regs, .out, .freeCtr, .fld, .dic, .sch, .pkt, .trf, .dma, .mem, .pwr, .pair, .boot, .octets] rfl) s hs
  | .hostWakeRequest => exact execHostWakeRequest_kept (Has.lit [.regs, .out, .pwr] rfl) s hs
  | .regulatorReady rail d => exact execRegulatorReady_kept (Has.lit [.pwr] rfl) rail d s hs
  | .pllLocked d => exact execPllLocked_kept (Has.lit [.pwr] rfl) d s hs
  | .memoryReady d failed bad => exact execMemoryReady_kept (Has.lit (StatePart.allBut [.blobs]) rfl) d failed bad s hs
  | .logicReady d => exact execLogicReady_kept (Has.lit [.regs, .out, .freeCtr, .fld, .dic, .sch, .pkt, .trf, .vid, .cmp, .dma, .mem, .pwr, .pair, .boot, .octets] rfl) d s hs
  | .wakeStepTimeout d locks => exact execWakeStepTimeout_kept (Has.lit (StatePart.allBut [.blobs, .sea]) rfl) d locks s hs
  | .powerGoodLoss rail => exact execPowerGoodLoss_kept (Has.lit (StatePart.allBut [.blobs, .sea]) rfl) rail s hs
  | .tempAlarm temp => exact execTempAlarm_kept (Has.lit [.regs, .out, .pwr] rfl) temp s hs
  | .tempShutdown temp => exact execTempShutdown_kept (Has.lit (StatePart.allBut [.freeCtr]) rfl) temp s hs
  | .standbyIdleTimeout => exact execStandbyIdleTimeout_kept (Has.lit [.regs, .out, .freeCtr, .fld, .dic, .sch, .pkt, .trf, .dma, .mem, .pwr, .pair, .boot, .octets] rfl) s hs
  | .watchdogTimeout => exact execWatchdogTimeout_kept (Has.lit (StatePart.allBut [.blobs, .freeCtr, .pair]) rfl) s hs
  | .wdtService => exact execWdtService_kept (Has.lit [.flt] rfl) s hs
  | .hostWatchTimeout => exact execHostWatchTimeout_kept (Has.lit [.regs] rfl) s hs
  | .hostPing inst tag => exact execHostPing_kept (Has.lit StatePart.all rfl) inst tag s hs
  | .pcieLinkDown => exact execPcieLinkDown_kept (Has.lit [.regs, .flt] rfl) s hs
  | .perstN high => exact execPerstN_kept (Has.lit [.regs, .dic, .flt] rfl) high s hs
  | .chClear inst tag => exact execChClear_kept (Has.lit StatePart.all rfl) inst tag s hs
  | .chRetire inst tag => exact execChRetire_kept (Has.lit StatePart.all rfl) inst tag s hs
  | .pairHeartbeat h role mode pairState hubOk lastAccept time reachable serial usable source => exact execPairHeartbeat_kept (Has.lit (StatePart.allBut [.sea, .flt]) rfl) h role mode pairState hubOk lastAccept time reachable serial usable source s hs
  | .pairHeartbeatSend => exact execPairHeartbeatSend_kept (Has.lit [.regs, .out, .freeCtr, .isb, .fld, .dic, .sap, .pkt, .trf, .fwd, .vid, .cmp, .dma, .pwr, .pair, .boot] rfl) s hs
  | .jrnlCopy h entries => exact execJrnlCopy_kept (Has.lit [.regs, .out, .sch, .fwd, .mem, .pwr, .pair, .octets] rfl) h entries s hs
  | .jrnlAck h held => exact execJrnlAck_kept (Has.lit [.regs, .out, .freeCtr, .isb, .fld, .dic, .sch, .sap, .pkt, .trf, .fwd, .vid, .cmp, .dma, .mem, .pwr, .pair, .boot, .octets] rfl) h held s hs
  | .jrnlMark h committed freed => exact execJrnlMark_kept (Has.lit [.regs, .blobs, .out, .isb, .fld, .dic, .sch, .dsp, .mix, .fwd, .mem, .pwr, .pair, .diag, .octets, .claims] rfl) h committed freed s hs
  | .stagedData h addr off octets => exact execStagedData_kept (Has.lit [.regs, .out, .sch, .fwd, .mem, .pwr, .pair, .octets] rfl) h addr off octets s hs
  | .legCkpt h c => exact execLegCkpt_kept (Has.lit [.regs, .out, .sch, .fwd, .mem, .sea, .pwr, .pair, .octets] rfl) h c s hs
  | .sync h part total snap => exact execSync_kept (Has.lit [.regs, .blobs, .out, .isb, .fld, .dic, .sch, .mix, .fwd, .mem, .pwr, .pair, .octets, .claims] rfl) h part total snap s hs
  | .role h peer mine epoch finals => exact execRole_kept (Has.lit (StatePart.allBut [.sea, .flt]) rfl) h peer mine epoch finals s hs
  | .relayDown h frameTime samples => exact execRelayDown_kept (Has.lit [.regs, .out, .fld, .sch, .fwd, .mem, .pwr, .pair, .octets] rfl) h frameTime samples s hs
  | .relayUp h trunk block frameTime valid samples => exact execRelayUp_kept (Has.lit [.regs, .out, .fld, .sch, .fwd, .mem, .pwr, .pair, .octets] rfl) h trunk block frameTime valid samples s hs
  | .relayMsg h toField m => exact execRelayMsg_kept (Has.lit StatePart.all rfl) h toField m s hs
  | .pairTimeEcho h sent holdPs => exact execPairTimeEcho_kept (Has.lit [.regs, .out, .sch, .fwd, .mem, .pwr, .pair, .octets] rfl) h sent holdPs s hs
  | .pairResend => exact execPairResend_kept (Has.lit [.regs, .out, .freeCtr, .isb, .fld, .dic, .pkt, .trf, .dma, .pwr, .pair, .boot] rfl) s hs
  | .pairLinkDown => exact execPairLinkDown_kept (Has.lit [.regs, .out, .freeCtr, .isb, .fld, .dic, .pkt, .trf, .dma, .pwr, .pair, .boot] rfl) s hs
  | .pairLinkUp => exact execPairLinkUp_kept (Has.lit [.regs, .out, .pair] rfl) s hs
  | .beacon serial role mode hubLost take yield_ epoch reachable m => exact execBeacon_kept (Has.lit (StatePart.allBut [.sea, .flt]) rfl) serial role mode hubLost take yield_ epoch reachable m s hs
  | .beaconTimeout => exact execBeaconTimeout_kept (Has.lit [.regs, .out, .pwr, .pair] rfl) s hs
  | .splitSettle reach => exact execSplitSettle_kept (Has.lit (StatePart.allBut [.sea, .flt]) rfl) reach s hs
  | .masterSwitch => exact execMasterSwitch_kept (Has.lit [.fld, .pair] rfl) s hs
  | .takeTimeout => exact execTakeTimeout_kept (Has.lit [.pair] rfl) s hs
  | .pairStartTimeout reach => exact execPairStartTimeout_kept (Has.lit (StatePart.allBut [.blobs, .dsp, .sea, .flt, .diag]) rfl) reach s hs
  | .switchover inst tag => exact execSwitchover_kept (Has.lit StatePart.all rfl) inst tag s hs
  | .forceActive inst tag => exact execForceActive_kept (Has.lit StatePart.all rfl) inst tag s hs
  | .bridgeBeacon serial role mode hubLost take yield_ epoch reachable => exact execBridgeBeacon_kept (Has.lit (StatePart.allBut [.sea, .flt]) rfl) serial role mode hubLost take yield_ epoch reachable s hs
  | .bridgeBeaconTimer => exact execBridgeBeaconTimer_kept (Has.lit [.out, .pair] rfl) s hs
  | .coldBoot rolePin => exact execColdBoot_kept (Has.lit [.regs, .out, .pwr, .flt, .boot] rfl) rolePin s hs
  | .bootStepComplete channels cells => exact execBootStepComplete_kept (Has.lit (StatePart.allBut [.sea]) rfl) channels cells s hs
  | .coreBrownout => exact execCoreBrownout_kept (Has.lit (StatePart.allBut [.freeCtr, .diag]) rfl) s hs
  | .stormFlashCopy => exact execStormFlashCopy_kept (Has.lit [.regs, .out, .diag] rfl) s hs
  | .stormClear inst tag => exact execStormClear_kept (Has.lit StatePart.all rfl) inst tag s hs
  | .returnPrep inst tag => exact execReturnPrep_kept (Has.lit StatePart.all rfl) inst tag s hs
  | .vaneEn inst tag on => exact execVaneEn_kept (Has.lit StatePart.all rfl) inst tag on s hs
  | .bypass => exact execBypass_kept (Has.lit [.out, .diag] rfl) s hs
  | .idcode => exact execIdcode_kept (Has.lit [.out, .diag] rfl) s hs
  | .samplePreload => exact execSamplePreload_kept (Has.lit [.diag] rfl) s hs
  | .extest => exact execExtest_kept (Has.lit (StatePart.allBut [.freeCtr]) rfl) s hs
  | .extestPulse => exact execExtestPulse_kept (Has.lit (StatePart.allBut [.freeCtr]) rfl) s hs
  | .extestTrain => exact execExtestTrain_kept (Has.lit (StatePart.allBut [.freeCtr]) rfl) s hs
  | .clamp => exact execClamp_kept (Has.lit (StatePart.allBut [.freeCtr]) rfl) s hs
  | .highz => exact execHighz_kept (Has.lit (StatePart.allBut [.freeCtr]) rfl) s hs
  | .testUnlock tmode => exact execTestUnlock_kept (Has.lit [.regs, .diag] rfl) tmode s hs
  | .buttonPress node code => exact execButtonPress_kept (Has.lit [.fld] rfl) node code s hs
  | .sapFrame n di => exact execSapFrame_kept (Has.lit [.regs, .out, .sap, .flt, .diag] rfl) n di s hs
  | .ref10mInEdge => exact execRef10mInEdge_kept (Has.lit [.regs, .isb, .fld, .pair] rfl) s hs
  | .ptpDelayReqInterval => exact execPtpDelayReqInterval_kept (Has.lit [.regs, .out, .freeCtr, .isb, .pkt, .trf, .dma] rfl) s hs
  | .ptpAnnounceInterval => exact execPtpAnnounceInterval_kept (Has.lit [.regs, .out, .freeCtr, .isb, .pkt, .trf, .dma] rfl) s hs
  | .replayDone locked lost => exact execReplayDone_kept (Has.lit (StatePart.allBut [.sea, .flt]) rfl) locked lost s hs
  | .pcieLinkUp => exact execPcieLinkUp_kept (Has.lit [.regs, .flt] rfl) s hs
  | .mgmtLinkChange state => exact execMgmtLinkChange_kept (Has.lit [.regs] rfl) state s hs
  | .lanokCrcFailure hub foreign => exact execLanokCrcFailure_kept (Has.lit [.regs, .out, .isb, .fld] rfl) hub foreign s hs
  | .fieldSupplyLoss => exact execFieldSupplyLoss_kept (Has.lit [.regs, .out, .isb, .fld, .flt] rfl) s hs
  | .vddIoRise => exact execVddIoRise_kept (Has.lit [.out, .pwr, .boot] rfl) s hs
  | .vddIoRemoved => exact execVddIoRemoved_kept (Has.lit (StatePart.allBut [.freeCtr]) rfl) s hs
  | .rstNLow => exact execRstNLow_kept (Has.lit (StatePart.allBut [.freeCtr]) rfl) s hs

/-- Whatever the command and the state, the block goes on, and what `Kept` says holds from the one state to the other. -/
theorem exec_next (c : Instr) (s : State) : ∃ t, exec c s = .next t ∧ Kept (maskOf (touches c)) s t :=
  ResAll.exists (exec_kept c s (Kept.refl s))

theorem Kept.of_exec {c : Instr} {s t : State} (h : exec c s = .next t) : Kept (maskOf (touches c)) s t := by
  obtain ⟨u, hu, k⟩ := exec_next c s
  rw [hu] at h
  cases h
  exact k

/-- A part outside the mask reads the same. -/
theorem Kept.part {l : List StatePart} {s t : State} (k : Kept (maskOf l) s t) {p : StatePart} (h : p ∉ l) : p.same s t :=
  k.parts p (testBit_maskOf h)

/-- A state in good order stays in good order. -/
theorem Kept.inOrder {s t : State} (k : Kept m s t) (h : s.inOrder = true) : t.inOrder = true := by
  simp only [State.inOrder, Bool.and_eq_true, decide_eq_true_eq, Bool.or_eq_true, Bool.not_eq_true'] at h ⊢
  obtain ⟨⟨⟨⟨h1, h2⟩, h3⟩, h4⟩, h5⟩ := h
  refine ⟨⟨⟨⟨k.regs h1, k.mem h2⟩, k.claims h3⟩, k.ring h4⟩, ?_⟩
  by_cases e : t.diag.unlocked = true
  · right
    apply k.test _ e
    intro u
    rcases h5 with h5 | h5
    · rw [u] at h5; cases h5
    · exact h5
  · left
    simpa using e

end Sys2Proof.Machine
end

