-- ==== Sys2Proof/Laws/State.lean ====
section
/-! SUPPORT. What the named operations leave of each field of State, read after write, and the hub memory's laws. -/
set_option Elab.async false
namespace Sys2Proof.Machine

variable (s : State)

@[simp] theorem wr_pending (k v : Nat) : (wr k v s).pending = s.pending := rfl
@[simp] theorem wr_blobs (k v : Nat) : (wr k v s).blobs = s.blobs := rfl
@[simp] theorem wr_out (k v : Nat) : (wr k v s).out = s.out := rfl
@[simp] theorem wr_freeCtr (k v : Nat) : (wr k v s).freeCtr = s.freeCtr := rfl
@[simp] theorem wr_isb (k v : Nat) : (wr k v s).isb = s.isb := rfl
@[simp] theorem wr_fld (k v : Nat) : (wr k v s).fld = s.fld := rfl
@[simp] theorem wr_dic (k v : Nat) : (wr k v s).dic = s.dic := rfl
@[simp] theorem wr_sch (k v : Nat) : (wr k v s).sch = s.sch := rfl
@[simp] theorem wr_dsp (k v : Nat) : (wr k v s).dsp = s.dsp := rfl
@[simp] theorem wr_sap (k v : Nat) : (wr k v s).sap = s.sap := rfl
@[simp] theorem wr_mix (k v : Nat) : (wr k v s).mix = s.mix := rfl
@[simp] theorem wr_pkt (k v : Nat) : (wr k v s).pkt = s.pkt := rfl
@[simp] theorem wr_trf (k v : Nat) : (wr k v s).trf = s.trf := rfl
@[simp] theorem wr_fwd (k v : Nat) : (wr k v s).fwd = s.fwd := rfl
@[simp] theorem wr_vid (k v : Nat) : (wr k v s).vid = s.vid := rfl
@[simp] theorem wr_cmp (k v : Nat) : (wr k v s).cmp = s.cmp := rfl
@[simp] theorem wr_dma (k v : Nat) : (wr k v s).dma = s.dma := rfl
@[simp] theorem wr_mem (k v : Nat) : (wr k v s).mem = s.mem := rfl
@[simp] theorem wr_sea (k v : Nat) : (wr k v s).sea = s.sea := rfl
@[simp] theorem wr_pwr (k v : Nat) : (wr k v s).pwr = s.pwr := rfl
@[simp] theorem wr_flt (k v : Nat) : (wr k v s).flt = s.flt := rfl
@[simp] theorem wr_pair (k v : Nat) : (wr k v s).pair = s.pair := rfl
@[simp] theorem wr_boot (k v : Nat) : (wr k v s).boot = s.boot := rfl
@[simp] theorem wr_diag (k v : Nat) : (wr k v s).diag = s.diag := rfl

@[simp] theorem wrI_pending (w k : Nat) (v : Int) : (wrI w k v s).pending = s.pending := rfl
@[simp] theorem wrI_blobs (w k : Nat) (v : Int) : (wrI w k v s).blobs = s.blobs := rfl
@[simp] theorem wrI_out (w k : Nat) (v : Int) : (wrI w k v s).out = s.out := rfl
@[simp] theorem wrI_freeCtr (w k : Nat) (v : Int) : (wrI w k v s).freeCtr = s.freeCtr := rfl
@[simp] theorem wrI_isb (w k : Nat) (v : Int) : (wrI w k v s).isb = s.isb := rfl
@[simp] theorem wrI_fld (w k : Nat) (v : Int) : (wrI w k v s).fld = s.fld := rfl
@[simp] theorem wrI_dic (w k : Nat) (v : Int) : (wrI w k v s).dic = s.dic := rfl
@[simp] theorem wrI_sch (w k : Nat) (v : Int) : (wrI w k v s).sch = s.sch := rfl
@[simp] theorem wrI_dsp (w k : Nat) (v : Int) : (wrI w k v s).dsp = s.dsp := rfl
@[simp] theorem wrI_sap (w k : Nat) (v : Int) : (wrI w k v s).sap = s.sap := rfl
@[simp] theorem wrI_mix (w k : Nat) (v : Int) : (wrI w k v s).mix = s.mix := rfl
@[simp] theorem wrI_pkt (w k : Nat) (v : Int) : (wrI w k v s).pkt = s.pkt := rfl
@[simp] theorem wrI_trf (w k : Nat) (v : Int) : (wrI w k v s).trf = s.trf := rfl
@[simp] theorem wrI_fwd (w k : Nat) (v : Int) : (wrI w k v s).fwd = s.fwd := rfl
@[simp] theorem wrI_vid (w k : Nat) (v : Int) : (wrI w k v s).vid = s.vid := rfl
@[simp] theorem wrI_cmp (w k : Nat) (v : Int) : (wrI w k v s).cmp = s.cmp := rfl
@[simp] theorem wrI_dma (w k : Nat) (v : Int) : (wrI w k v s).dma = s.dma := rfl
@[simp] theorem wrI_mem (w k : Nat) (v : Int) : (wrI w k v s).mem = s.mem := rfl
@[simp] theorem wrI_sea (w k : Nat) (v : Int) : (wrI w k v s).sea = s.sea := rfl
@[simp] theorem wrI_pwr (w k : Nat) (v : Int) : (wrI w k v s).pwr = s.pwr := rfl
@[simp] theorem wrI_flt (w k : Nat) (v : Int) : (wrI w k v s).flt = s.flt := rfl
@[simp] theorem wrI_pair (w k : Nat) (v : Int) : (wrI w k v s).pair = s.pair := rfl
@[simp] theorem wrI_boot (w k : Nat) (v : Int) : (wrI w k v s).boot = s.boot := rfl
@[simp] theorem wrI_diag (w k : Nat) (v : Int) : (wrI w k v s).diag = s.diag := rfl

@[simp] theorem bumpBy_pending (k n : Nat) : (bumpBy k n s).pending = s.pending := rfl
@[simp] theorem bumpBy_blobs (k n : Nat) : (bumpBy k n s).blobs = s.blobs := rfl
@[simp] theorem bumpBy_out (k n : Nat) : (bumpBy k n s).out = s.out := rfl
@[simp] theorem bumpBy_freeCtr (k n : Nat) : (bumpBy k n s).freeCtr = s.freeCtr := rfl
@[simp] theorem bumpBy_isb (k n : Nat) : (bumpBy k n s).isb = s.isb := rfl
@[simp] theorem bumpBy_fld (k n : Nat) : (bumpBy k n s).fld = s.fld := rfl
@[simp] theorem bumpBy_dic (k n : Nat) : (bumpBy k n s).dic = s.dic := rfl
@[simp] theorem bumpBy_sch (k n : Nat) : (bumpBy k n s).sch = s.sch := rfl
@[simp] theorem bumpBy_dsp (k n : Nat) : (bumpBy k n s).dsp = s.dsp := rfl
@[simp] theorem bumpBy_sap (k n : Nat) : (bumpBy k n s).sap = s.sap := rfl
@[simp] theorem bumpBy_mix (k n : Nat) : (bumpBy k n s).mix = s.mix := rfl
@[simp] theorem bumpBy_pkt (k n : Nat) : (bumpBy k n s).pkt = s.pkt := rfl
@[simp] theorem bumpBy_trf (k n : Nat) : (bumpBy k n s).trf = s.trf := rfl
@[simp] theorem bumpBy_fwd (k n : Nat) : (bumpBy k n s).fwd = s.fwd := rfl
@[simp] theorem bumpBy_vid (k n : Nat) : (bumpBy k n s).vid = s.vid := rfl
@[simp] theorem bumpBy_cmp (k n : Nat) : (bumpBy k n s).cmp = s.cmp := rfl
@[simp] theorem bumpBy_dma (k n : Nat) : (bumpBy k n s).dma = s.dma := rfl
@[simp] theorem bumpBy_mem (k n : Nat) : (bumpBy k n s).mem = s.mem := rfl
@[simp] theorem bumpBy_sea (k n : Nat) : (bumpBy k n s).sea = s.sea := rfl
@[simp] theorem bumpBy_pwr (k n : Nat) : (bumpBy k n s).pwr = s.pwr := rfl
@[simp] theorem bumpBy_flt (k n : Nat) : (bumpBy k n s).flt = s.flt := rfl
@[simp] theorem bumpBy_pair (k n : Nat) : (bumpBy k n s).pair = s.pair := rfl
@[simp] theorem bumpBy_boot (k n : Nat) : (bumpBy k n s).boot = s.boot := rfl
@[simp] theorem bumpBy_diag (k n : Nat) : (bumpBy k n s).diag = s.diag := rfl

@[simp] theorem bump_pending (k : Nat) : (bump k s).pending = s.pending := rfl
@[simp] theorem bump_blobs (k : Nat) : (bump k s).blobs = s.blobs := rfl
@[simp] theorem bump_out (k : Nat) : (bump k s).out = s.out := rfl
@[simp] theorem bump_freeCtr (k : Nat) : (bump k s).freeCtr = s.freeCtr := rfl
@[simp] theorem bump_isb (k : Nat) : (bump k s).isb = s.isb := rfl
@[simp] theorem bump_fld (k : Nat) : (bump k s).fld = s.fld := rfl
@[simp] theorem bump_dic (k : Nat) : (bump k s).dic = s.dic := rfl
@[simp] theorem bump_sch (k : Nat) : (bump k s).sch = s.sch := rfl
@[simp] theorem bump_dsp (k : Nat) : (bump k s).dsp = s.dsp := rfl
@[simp] theorem bump_sap (k : Nat) : (bump k s).sap = s.sap := rfl
@[simp] theorem bump_mix (k : Nat) : (bump k s).mix = s.mix := rfl
@[simp] theorem bump_pkt (k : Nat) : (bump k s).pkt = s.pkt := rfl
@[simp] theorem bump_trf (k : Nat) : (bump k s).trf = s.trf := rfl
@[simp] theorem bump_fwd (k : Nat) : (bump k s).fwd = s.fwd := rfl
@[simp] theorem bump_vid (k : Nat) : (bump k s).vid = s.vid := rfl
@[simp] theorem bump_cmp (k : Nat) : (bump k s).cmp = s.cmp := rfl
@[simp] theorem bump_dma (k : Nat) : (bump k s).dma = s.dma := rfl
@[simp] theorem bump_mem (k : Nat) : (bump k s).mem = s.mem := rfl
@[simp] theorem bump_sea (k : Nat) : (bump k s).sea = s.sea := rfl
@[simp] theorem bump_pwr (k : Nat) : (bump k s).pwr = s.pwr := rfl
@[simp] theorem bump_flt (k : Nat) : (bump k s).flt = s.flt := rfl
@[simp] theorem bump_pair (k : Nat) : (bump k s).pair = s.pair := rfl
@[simp] theorem bump_boot (k : Nat) : (bump k s).boot = s.boot := rfl
@[simp] theorem bump_diag (k : Nat) : (bump k s).diag = s.diag := rfl

@[simp] theorem summary_pending (b : Nat) (on : Bool) : (summary b on s).pending = s.pending := rfl
@[simp] theorem summary_blobs (b : Nat) (on : Bool) : (summary b on s).blobs = s.blobs := rfl
@[simp] theorem summary_out (b : Nat) (on : Bool) : (summary b on s).out = s.out := rfl
@[simp] theorem summary_freeCtr (b : Nat) (on : Bool) : (summary b on s).freeCtr = s.freeCtr := rfl
@[simp] theorem summary_isb (b : Nat) (on : Bool) : (summary b on s).isb = s.isb := rfl
@[simp] theorem summary_fld (b : Nat) (on : Bool) : (summary b on s).fld = s.fld := rfl
@[simp] theorem summary_dic (b : Nat) (on : Bool) : (summary b on s).dic = s.dic := rfl
@[simp] theorem summary_sch (b : Nat) (on : Bool) : (summary b on s).sch = s.sch := rfl
@[simp] theorem summary_dsp (b : Nat) (on : Bool) : (summary b on s).dsp = s.dsp := rfl
@[simp] theorem summary_sap (b : Nat) (on : Bool) : (summary b on s).sap = s.sap := rfl
@[simp] theorem summary_mix (b : Nat) (on : Bool) : (summary b on s).mix = s.mix := rfl
@[simp] theorem summary_pkt (b : Nat) (on : Bool) : (summary b on s).pkt = s.pkt := rfl
@[simp] theorem summary_trf (b : Nat) (on : Bool) : (summary b on s).trf = s.trf := rfl
@[simp] theorem summary_fwd (b : Nat) (on : Bool) : (summary b on s).fwd = s.fwd := rfl
@[simp] theorem summary_vid (b : Nat) (on : Bool) : (summary b on s).vid = s.vid := rfl
@[simp] theorem summary_cmp (b : Nat) (on : Bool) : (summary b on s).cmp = s.cmp := rfl
@[simp] theorem summary_dma (b : Nat) (on : Bool) : (summary b on s).dma = s.dma := rfl
@[simp] theorem summary_mem (b : Nat) (on : Bool) : (summary b on s).mem = s.mem := rfl
@[simp] theorem summary_sea (b : Nat) (on : Bool) : (summary b on s).sea = s.sea := rfl
@[simp] theorem summary_pwr (b : Nat) (on : Bool) : (summary b on s).pwr = s.pwr := rfl
@[simp] theorem summary_flt (b : Nat) (on : Bool) : (summary b on s).flt = s.flt := rfl
@[simp] theorem summary_pair (b : Nat) (on : Bool) : (summary b on s).pair = s.pair := rfl
@[simp] theorem summary_boot (b : Nat) (on : Bool) : (summary b on s).boot = s.boot := rfl
@[simp] theorem summary_diag (b : Nat) (on : Bool) : (summary b on s).diag = s.diag := rfl

@[simp] theorem wrBlob_pending (k : Nat) (v : Bytes) : (wrBlob k v s).pending = s.pending := rfl
@[simp] theorem wrBlob_regs (k : Nat) (v : Bytes) : (wrBlob k v s).regs = s.regs := rfl
@[simp] theorem wrBlob_out (k : Nat) (v : Bytes) : (wrBlob k v s).out = s.out := rfl
@[simp] theorem wrBlob_freeCtr (k : Nat) (v : Bytes) : (wrBlob k v s).freeCtr = s.freeCtr := rfl
@[simp] theorem wrBlob_isb (k : Nat) (v : Bytes) : (wrBlob k v s).isb = s.isb := rfl
@[simp] theorem wrBlob_fld (k : Nat) (v : Bytes) : (wrBlob k v s).fld = s.fld := rfl
@[simp] theorem wrBlob_dic (k : Nat) (v : Bytes) : (wrBlob k v s).dic = s.dic := rfl
@[simp] theorem wrBlob_sch (k : Nat) (v : Bytes) : (wrBlob k v s).sch = s.sch := rfl
@[simp] theorem wrBlob_dsp (k : Nat) (v : Bytes) : (wrBlob k v s).dsp = s.dsp := rfl
@[simp] theorem wrBlob_sap (k : Nat) (v : Bytes) : (wrBlob k v s).sap = s.sap := rfl
@[simp] theorem wrBlob_mix (k : Nat) (v : Bytes) : (wrBlob k v s).mix = s.mix := rfl
@[simp] theorem wrBlob_pkt (k : Nat) (v : Bytes) : (wrBlob k v s).pkt = s.pkt := rfl
@[simp] theorem wrBlob_trf (k : Nat) (v : Bytes) : (wrBlob k v s).trf = s.trf := rfl
@[simp] theorem wrBlob_fwd (k : Nat) (v : Bytes) : (wrBlob k v s).fwd = s.fwd := rfl
@[simp] theorem wrBlob_vid (k : Nat) (v : Bytes) : (wrBlob k v s).vid = s.vid := rfl
@[simp] theorem wrBlob_cmp (k : Nat) (v : Bytes) : (wrBlob k v s).cmp = s.cmp := rfl
@[simp] theorem wrBlob_dma (k : Nat) (v : Bytes) : (wrBlob k v s).dma = s.dma := rfl
@[simp] theorem wrBlob_mem (k : Nat) (v : Bytes) : (wrBlob k v s).mem = s.mem := rfl
@[simp] theorem wrBlob_sea (k : Nat) (v : Bytes) : (wrBlob k v s).sea = s.sea := rfl
@[simp] theorem wrBlob_pwr (k : Nat) (v : Bytes) : (wrBlob k v s).pwr = s.pwr := rfl
@[simp] theorem wrBlob_flt (k : Nat) (v : Bytes) : (wrBlob k v s).flt = s.flt := rfl
@[simp] theorem wrBlob_pair (k : Nat) (v : Bytes) : (wrBlob k v s).pair = s.pair := rfl
@[simp] theorem wrBlob_boot (k : Nat) (v : Bytes) : (wrBlob k v s).boot = s.boot := rfl
@[simp] theorem wrBlob_diag (k : Nat) (v : Bytes) : (wrBlob k v s).diag = s.diag := rfl

@[simp] theorem emit_pending (o : Out) : (emit o s).pending = s.pending := rfl
@[simp] theorem emit_regs (o : Out) : (emit o s).regs = s.regs := rfl
@[simp] theorem emit_blobs (o : Out) : (emit o s).blobs = s.blobs := rfl
@[simp] theorem emit_freeCtr (o : Out) : (emit o s).freeCtr = s.freeCtr := rfl
@[simp] theorem emit_isb (o : Out) : (emit o s).isb = s.isb := rfl
@[simp] theorem emit_fld (o : Out) : (emit o s).fld = s.fld := rfl
@[simp] theorem emit_dic (o : Out) : (emit o s).dic = s.dic := rfl
@[simp] theorem emit_sch (o : Out) : (emit o s).sch = s.sch := rfl
@[simp] theorem emit_dsp (o : Out) : (emit o s).dsp = s.dsp := rfl
@[simp] theorem emit_sap (o : Out) : (emit o s).sap = s.sap := rfl
@[simp] theorem emit_mix (o : Out) : (emit o s).mix = s.mix := rfl
@[simp] theorem emit_pkt (o : Out) : (emit o s).pkt = s.pkt := rfl
@[simp] theorem emit_trf (o : Out) : (emit o s).trf = s.trf := rfl
@[simp] theorem emit_fwd (o : Out) : (emit o s).fwd = s.fwd := rfl
@[simp] theorem emit_vid (o : Out) : (emit o s).vid = s.vid := rfl
@[simp] theorem emit_cmp (o : Out) : (emit o s).cmp = s.cmp := rfl
@[simp] theorem emit_dma (o : Out) : (emit o s).dma = s.dma := rfl
@[simp] theorem emit_mem (o : Out) : (emit o s).mem = s.mem := rfl
@[simp] theorem emit_sea (o : Out) : (emit o s).sea = s.sea := rfl
@[simp] theorem emit_pwr (o : Out) : (emit o s).pwr = s.pwr := rfl
@[simp] theorem emit_flt (o : Out) : (emit o s).flt = s.flt := rfl
@[simp] theorem emit_pair (o : Out) : (emit o s).pair = s.pair := rfl
@[simp] theorem emit_boot (o : Out) : (emit o s).boot = s.boot := rfl
@[simp] theorem emit_diag (o : Out) : (emit o s).diag = s.diag := rfl

@[simp] theorem drew_pending : (drew s).pending = s.pending := rfl
@[simp] theorem drew_regs : (drew s).regs = s.regs := rfl
@[simp] theorem drew_blobs : (drew s).blobs = s.blobs := rfl
@[simp] theorem drew_out : (drew s).out = s.out := rfl
@[simp] theorem drew_isb : (drew s).isb = s.isb := rfl
@[simp] theorem drew_fld : (drew s).fld = s.fld := rfl
@[simp] theorem drew_dic : (drew s).dic = s.dic := rfl
@[simp] theorem drew_sch : (drew s).sch = s.sch := rfl
@[simp] theorem drew_dsp : (drew s).dsp = s.dsp := rfl
@[simp] theorem drew_sap : (drew s).sap = s.sap := rfl
@[simp] theorem drew_mix : (drew s).mix = s.mix := rfl
@[simp] theorem drew_pkt : (drew s).pkt = s.pkt := rfl
@[simp] theorem drew_trf : (drew s).trf = s.trf := rfl
@[simp] theorem drew_fwd : (drew s).fwd = s.fwd := rfl
@[simp] theorem drew_vid : (drew s).vid = s.vid := rfl
@[simp] theorem drew_cmp : (drew s).cmp = s.cmp := rfl
@[simp] theorem drew_dma : (drew s).dma = s.dma := rfl
@[simp] theorem drew_mem : (drew s).mem = s.mem := rfl
@[simp] theorem drew_sea : (drew s).sea = s.sea := rfl
@[simp] theorem drew_pwr : (drew s).pwr = s.pwr := rfl
@[simp] theorem drew_flt : (drew s).flt = s.flt := rfl
@[simp] theorem drew_pair : (drew s).pair = s.pair := rfl
@[simp] theorem drew_boot : (drew s).boot = s.boot := rfl
@[simp] theorem drew_diag : (drew s).diag = s.diag := rfl

@[simp] theorem setClaim_pending (cls inst owner : Nat) : (setClaim cls inst owner s).pending = s.pending := rfl
@[simp] theorem setClaim_regs (cls inst owner : Nat) : (setClaim cls inst owner s).regs = s.regs := rfl
@[simp] theorem setClaim_blobs (cls inst owner : Nat) : (setClaim cls inst owner s).blobs = s.blobs := rfl
@[simp] theorem setClaim_out (cls inst owner : Nat) : (setClaim cls inst owner s).out = s.out := rfl
@[simp] theorem setClaim_freeCtr (cls inst owner : Nat) : (setClaim cls inst owner s).freeCtr = s.freeCtr := rfl
@[simp] theorem setClaim_isb (cls inst owner : Nat) : (setClaim cls inst owner s).isb = s.isb := rfl
@[simp] theorem setClaim_fld (cls inst owner : Nat) : (setClaim cls inst owner s).fld = s.fld := rfl
@[simp] theorem setClaim_sch (cls inst owner : Nat) : (setClaim cls inst owner s).sch = s.sch := rfl
@[simp] theorem setClaim_dsp (cls inst owner : Nat) : (setClaim cls inst owner s).dsp = s.dsp := rfl
@[simp] theorem setClaim_sap (cls inst owner : Nat) : (setClaim cls inst owner s).sap = s.sap := rfl
@[simp] theorem setClaim_mix (cls inst owner : Nat) : (setClaim cls inst owner s).mix = s.mix := rfl
@[simp] theorem setClaim_pkt (cls inst owner : Nat) : (setClaim cls inst owner s).pkt = s.pkt := rfl
@[simp] theorem setClaim_trf (cls inst owner : Nat) : (setClaim cls inst owner s).trf = s.trf := rfl
@[simp] theorem setClaim_fwd (cls inst owner : Nat) : (setClaim cls inst owner s).fwd = s.fwd := rfl
@[simp] theorem setClaim_vid (cls inst owner : Nat) : (setClaim cls inst owner s).vid = s.vid := rfl
@[simp] theorem setClaim_cmp (cls inst owner : Nat) : (setClaim cls inst owner s).cmp = s.cmp := rfl
@[simp] theorem setClaim_dma (cls inst owner : Nat) : (setClaim cls inst owner s).dma = s.dma := rfl
@[simp] theorem setClaim_mem (cls inst owner : Nat) : (setClaim cls inst owner s).mem = s.mem := rfl
@[simp] theorem setClaim_sea (cls inst owner : Nat) : (setClaim cls inst owner s).sea = s.sea := rfl
@[simp] theorem setClaim_pwr (cls inst owner : Nat) : (setClaim cls inst owner s).pwr = s.pwr := rfl
@[simp] theorem setClaim_flt (cls inst owner : Nat) : (setClaim cls inst owner s).flt = s.flt := rfl
@[simp] theorem setClaim_pair (cls inst owner : Nat) : (setClaim cls inst owner s).pair = s.pair := rfl
@[simp] theorem setClaim_boot (cls inst owner : Nat) : (setClaim cls inst owner s).boot = s.boot := rfl
@[simp] theorem setClaim_diag (cls inst owner : Nat) : (setClaim cls inst owner s).diag = s.diag := rfl

@[simp] theorem unclaimAll_pending (cls owner : Nat) : (unclaimAll cls owner s).pending = s.pending := rfl
@[simp] theorem unclaimAll_regs (cls owner : Nat) : (unclaimAll cls owner s).regs = s.regs := rfl
@[simp] theorem unclaimAll_blobs (cls owner : Nat) : (unclaimAll cls owner s).blobs = s.blobs := rfl
@[simp] theorem unclaimAll_out (cls owner : Nat) : (unclaimAll cls owner s).out = s.out := rfl
@[simp] theorem unclaimAll_freeCtr (cls owner : Nat) : (unclaimAll cls owner s).freeCtr = s.freeCtr := rfl
@[simp] theorem unclaimAll_isb (cls owner : Nat) : (unclaimAll cls owner s).isb = s.isb := rfl
@[simp] theorem unclaimAll_fld (cls owner : Nat) : (unclaimAll cls owner s).fld = s.fld := rfl
@[simp] theorem unclaimAll_sch (cls owner : Nat) : (unclaimAll cls owner s).sch = s.sch := rfl
@[simp] theorem unclaimAll_dsp (cls owner : Nat) : (unclaimAll cls owner s).dsp = s.dsp := rfl
@[simp] theorem unclaimAll_sap (cls owner : Nat) : (unclaimAll cls owner s).sap = s.sap := rfl
@[simp] theorem unclaimAll_mix (cls owner : Nat) : (unclaimAll cls owner s).mix = s.mix := rfl
@[simp] theorem unclaimAll_pkt (cls owner : Nat) : (unclaimAll cls owner s).pkt = s.pkt := rfl
@[simp] theorem unclaimAll_trf (cls owner : Nat) : (unclaimAll cls owner s).trf = s.trf := rfl
@[simp] theorem unclaimAll_fwd (cls owner : Nat) : (unclaimAll cls owner s).fwd = s.fwd := rfl
@[simp] theorem unclaimAll_vid (cls owner : Nat) : (unclaimAll cls owner s).vid = s.vid := rfl
@[simp] theorem unclaimAll_cmp (cls owner : Nat) : (unclaimAll cls owner s).cmp = s.cmp := rfl
@[simp] theorem unclaimAll_dma (cls owner : Nat) : (unclaimAll cls owner s).dma = s.dma := rfl
@[simp] theorem unclaimAll_mem (cls owner : Nat) : (unclaimAll cls owner s).mem = s.mem := rfl
@[simp] theorem unclaimAll_sea (cls owner : Nat) : (unclaimAll cls owner s).sea = s.sea := rfl
@[simp] theorem unclaimAll_pwr (cls owner : Nat) : (unclaimAll cls owner s).pwr = s.pwr := rfl
@[simp] theorem unclaimAll_flt (cls owner : Nat) : (unclaimAll cls owner s).flt = s.flt := rfl
@[simp] theorem unclaimAll_pair (cls owner : Nat) : (unclaimAll cls owner s).pair = s.pair := rfl
@[simp] theorem unclaimAll_boot (cls owner : Nat) : (unclaimAll cls owner s).boot = s.boot := rfl
@[simp] theorem unclaimAll_diag (cls owner : Nat) : (unclaimAll cls owner s).diag = s.diag := rfl

@[simp] theorem emit_out (o : Out) : (emit o s).out = o :: s.out := rfl
@[simp] theorem drew_freeCtr : (drew s).freeCtr = s.freeCtr + 1 := rfl

/-! ## Dictionary values -/

@[simp] theorem rd_emit (o : Out) (k : Nat) : rd (emit o s) k = rd s k := rfl
@[simp] theorem rd_drew (k : Nat) : rd (drew s) k = rd s k := rfl
@[simp] theorem rd_setClaim (cls inst owner k : Nat) : rd (setClaim cls inst owner s) k = rd s k := rfl

theorem rd_congr {s t : State} (h : t.regs = s.regs) (k : Nat) : rd t k = rd s k := by
  unfold rd
  rw [h]

/-- A value reads back within the width of its type. -/
theorem rd_wr_same {s : State} (h : tabSorted s.regs = true) (k v : Nat) : rd (wr k v s) k = v % regModulus k :=
  tabGet_tabSet_same _ _ _ _ h

/-- A write leaves every other key alone. -/
theorem rd_wr_other {k k' : Nat} (h : k' ≠ k) (v : Nat) : rd (wr k v s) k' = rd s k' :=
  tabGet_tabSet_other _ _ _ _ _ _ h

/-! ## Claims (R127) -/

theorem claimOwner_setClaim_same {s : State} (h : tabSorted s.dic.claims = true) (cls inst owner : Nat) :
    claimOwner (setClaim cls inst owner s) cls inst = owner :=
  tabGet_tabSet_same _ _ _ _ h

end Sys2Proof.Machine
end

