-- ==== Sys2Proof/Laws/Dict.lean ====
section
/-! SUPPORT. A dictionary write that nothing hinders: what its row's meaning comes to. -/
set_option Elab.async false
namespace Sys2Proof.Machine

variable (i : Inst) (s : State)

/-- What a request touches: its group's and its transfer's time, the hub's last activity. -/
theorem touch_keeps : Kept (maskOf [.dic, .pwr]) s (touch i s) :=
  touch_kept (Has.lit [.dic, .pwr] rfl) i s (Kept.refl s)

@[simp] theorem touch_regs : (touch i s).regs = s.regs := (touch_keeps i s).part (p := .regs) (by decide)
@[simp] theorem touch_blobs : (touch i s).blobs = s.blobs := (touch_keeps i s).part (p := .blobs) (by decide)
@[simp] theorem touch_out : (touch i s).out = s.out := (touch_keeps i s).part (p := .out) (by decide)
@[simp] theorem touch_freeCtr : (touch i s).freeCtr = s.freeCtr := (touch_keeps i s).part (p := .freeCtr) (by decide)
@[simp] theorem touch_isb : (touch i s).isb = s.isb := (touch_keeps i s).part (p := .isb) (by decide)
@[simp] theorem touch_fld : (touch i s).fld = s.fld := (touch_keeps i s).part (p := .fld) (by decide)
@[simp] theorem touch_sch : (touch i s).sch = s.sch := (touch_keeps i s).part (p := .sch) (by decide)
@[simp] theorem touch_dsp : (touch i s).dsp = s.dsp := (touch_keeps i s).part (p := .dsp) (by decide)
@[simp] theorem touch_sap : (touch i s).sap = s.sap := (touch_keeps i s).part (p := .sap) (by decide)
@[simp] theorem touch_mix : (touch i s).mix = s.mix := (touch_keeps i s).part (p := .mix) (by decide)
@[simp] theorem touch_pkt : (touch i s).pkt = s.pkt := (touch_keeps i s).part (p := .pkt) (by decide)
@[simp] theorem touch_trf : (touch i s).trf = s.trf := (touch_keeps i s).part (p := .trf) (by decide)
@[simp] theorem touch_fwd : (touch i s).fwd = s.fwd := (touch_keeps i s).part (p := .fwd) (by decide)
@[simp] theorem touch_vid : (touch i s).vid = s.vid := (touch_keeps i s).part (p := .vid) (by decide)
@[simp] theorem touch_cmp : (touch i s).cmp = s.cmp := (touch_keeps i s).part (p := .cmp) (by decide)
@[simp] theorem touch_dma : (touch i s).dma = s.dma := (touch_keeps i s).part (p := .dma) (by decide)
@[simp] theorem touch_mem : (touch i s).mem = s.mem := (touch_keeps i s).part (p := .mem) (by decide)
@[simp] theorem touch_sea : (touch i s).sea = s.sea := (touch_keeps i s).part (p := .sea) (by decide)
@[simp] theorem touch_flt : (touch i s).flt = s.flt := (touch_keeps i s).part (p := .flt) (by decide)
@[simp] theorem touch_pair : (touch i s).pair = s.pair := (touch_keeps i s).part (p := .pair) (by decide)
@[simp] theorem touch_boot : (touch i s).boot = s.boot := (touch_keeps i s).part (p := .boot) (by decide)
@[simp] theorem touch_diag : (touch i s).diag = s.diag := (touch_keeps i s).part (p := .diag) (by decide)
@[simp] theorem touch_pending : (touch i s).pending = s.pending := (touch_keeps i s).queue
@[simp] theorem rd_touch (k : Nat) : rd (touch i s) k = rd s k := rd_congr (touch_regs i s) k
@[simp] theorem modeOf_touch : modeOf (touch i s) = modeOf s := rd_touch i s _

@[simp] theorem worst_ok (st : Status) : worst .ok st = st := by cases st <;> rfl

variable {i s}

/-- The parts of `unhindered`. -/
theorem unhindered_parts {tag index sub : Nat} {value : Bytes} (h : unhindered i tag index sub value s = true) :
    tpOpen s i.tr = true ∧ (groupOf (touch i s) i).isEmpty = true ∧ unserved i index sub true (touch i s) = false
      ∧ writeGate i index sub value.length (touch i s) = .ok
      ∧ repeated (.dictWrite i tag index sub value) i tag 2 index sub (touch i s) = none ∧ defers (touch i s) = false := by
  simp only [unhindered, Bool.and_eq_true, Bool.not_eq_true', decide_eq_true_eq, Option.isNone_iff_eq_none] at h
  obtain ⟨⟨⟨⟨⟨h1, h2⟩, h3⟩, h4⟩, h5⟩, h6⟩ := h
  exact ⟨h1, h2, h3, h4, h5, h6⟩

/-- A row of its own reaches its write. -/
theorem orClose_takes {tag index sub : Nat} {value : Bytes} (h : unhindered i tag index sub value s = true)
    (f : State → State) : orClose i tag index sub value f s = f (touch i s) := by
  obtain ⟨h1, h2, -⟩ := unhindered_parts h
  simp only [orClose, received, h1, h2, if_true]

/-- A command whose own checks pass takes effect and is answered. -/
theorem runCmdV_takes {tag index sub : Nat} {value : Bytes} {st : Status} (h : unhindered i tag index sub value s = true)
    (hst : st = .ok ∨ st = .pending) (f : State → State) :
    runCmdV i tag index sub value st f (touch i s) = cmdTakes i tag index sub value st f s := by
  obtain ⟨-, -, h3, h4, h5, h6⟩ := unhindered_parts h
  simp only [runCmdV, h3, h4, h5, h6, worst_ok, hst, if_true, Option.getD_none, Bool.false_eq_true, if_false]
  rfl

theorem runCmd_takes {tag index sub : Nat} (h : unhindered i tag index sub [1] s = true) (f : State → State) :
    runCmd i tag index sub .ok f (touch i s) = cmdTakes i tag index sub [1] .ok f s :=
  runCmdV_takes h (Or.inl rfl) f

/-- A command whose action follows its answer. -/
theorem runAfter_takes {tag index sub : Nat} (h : unhindered i tag index sub [1] s = true) (f : State → State) :
    runAfter i tag index sub .ok f (touch i s) = f (cmdTakes i tag index sub [1] .ok id s) := by
  obtain ⟨-, -, h3, h4, h5, h6⟩ := unhindered_parts h
  rw [show ([1] : Bytes).length = 1 from rfl] at h4
  unfold runAfter
  rw [h4, h5, if_pos ⟨rfl, h3, h6, rfl⟩]
  rfl

/-- A command answered PENDING before its action begins. -/
theorem runPending_takes {tag index sub : Nat} {value : Bytes} (h : unhindered i tag index sub value s = true)
    (f : State → State) :
    runPending i tag index sub value .pending f (touch i s) = f (cmdTakes i tag index sub value .pending id s) := by
  obtain ⟨-, -, h3, h4, h5, h6⟩ := unhindered_parts h
  unfold runPending
  rw [h4]
  simp only [h3, h5, h6, worst_ok, and_self, if_true, Option.getD_none, Bool.false_eq_true, if_false]
  rfl

theorem keySub_key {index sub : Nat} (h : sub < 256) : keySub (key index sub 0) = sub := by
  unfold keySub key
  rw [Nat.add_zero, Nat.mul_div_cancel _ (by decide)]
  omega

theorem div_two_steps (a b c d : Nat) (hb : 0 < b) (hd : d = b * c) (x : Nat) (hx : x = a * b) : x / d = a / c := by
  subst hd hx
  rw [← Nat.div_div_eq_div_mul, Nat.mul_div_cancel _ hb]

theorem keyIndex_key {index sub : Nat} (h : sub < 256) : keyIndex (key index sub 0) = index := by
  have e : keyIndex (key index sub 0) = (index * 256 + sub) / 256 :=
    div_two_steps (index * 256 + sub) 16777216 256 4294967296 (by norm_num) (by norm_num) _ (Nat.add_zero _)
  rw [e]
  omega

theorem runWriteV_of {tag k index sub : Nat} {value : Bytes} (hi : keyIndex k = index) (hs : keySub k = sub)
    (h : unhindered i tag index sub value s = true) (f : State → State) :
    runWriteV i tag k value .ok f (touch i s)
      = respond i tag 2 index sub .ok [] (acceptWrite i tag k value f (touch i s)) := by
  obtain ⟨-, -, h3, h4, h5, h6⟩ := unhindered_parts h
  simp only [runWriteV, hi, hs, h3, h4, h5, h6, worst_ok, if_true, Option.getD_none, Bool.false_eq_true, if_false]

/-- A key whose own checks pass takes its value. -/
theorem runWriteV_takes {tag index sub : Nat} {value : Bytes} (hs : sub < 256) (h : unhindered i tag index sub value s = true)
    (f : State → State) :
    runWriteV i tag (key index sub 0) value .ok f (touch i s) = keyTakes i tag index sub value f s := by
  unfold keyTakes
  exact runWriteV_of (keyIndex_key hs) (keySub_key hs) h f

theorem runWrite_takes {tag index sub : Nat} {on : Bool} (hs : sub < 256)
    (h : unhindered i tag index sub (boolOctet on) s = true) (f : State → State) :
    runWrite i tag index sub on .ok f (touch i s) = keyTakes i tag index sub (boolOctet on) f s :=
  runWriteV_takes hs h f

/-- An enable whose domain is not parked takes its value as any key. -/
theorem runEnable_takes {tag index sub d : Nat} {on : Bool} (hs : sub < 256)
    (h : unhindered i tag index sub (boolOctet on) s = true) (hd : on = true → needsWake (touch i s) d = false)
    (f : State → State) :
    runEnable i tag index sub .ok d on f (touch i s) = keyTakes i tag index sub (boolOctet on) f s := by
  unfold runEnable
  rw [if_neg]
  · exact runWrite_takes hs h f
  · rintro ⟨-, h1, h2, -⟩
    rw [hd h1] at h2
    cases h2

/-- The parts of `legUnhindered`. -/
theorem legUnhindered_parts {tag leg txn op slot max source : Nat} (h : legUnhindered i tag leg txn op slot max source s = true) :
    tpOpen s i.tr = true ∧ (groupOf (touch i s) i).isEmpty = true ∧ leg < 20480 ∧ rd s (K.LAST_TXN leg) < txn
      ∧ unserved i (0x8000 + leg) 0x0C true (touch i s) = false ∧ writeGate i (0x8000 + leg) 0x0C 16 (touch i s) = .ok
      ∧ repeated (.legCtrl i tag leg txn op (legBody txn op slot max source)) i tag 2 (0x8000 + leg) 0x0C (touch i s) = none
      ∧ defers (touch i s) = false := by
  simp only [legUnhindered, Bool.and_eq_true, Bool.not_eq_true', decide_eq_true_eq, Option.isNone_iff_eq_none] at h
  obtain ⟨⟨⟨⟨⟨⟨⟨h1, h2⟩, h3⟩, h4⟩, h5⟩, h6⟩, h7⟩, h8⟩ := h
  exact ⟨h1, h2, h3, h4, h5, h6, h7, h8⟩

theorem orClose_leg {tag leg txn op slot max source : Nat} (h : legUnhindered i tag leg txn op slot max source s = true)
    (v : Bytes) (f : State → State) : orClose i tag (0x8000 + leg) 0x0C v f s = f (touch i s) := by
  obtain ⟨h1, h2, -⟩ := legUnhindered_parts h
  simp only [orClose, received, h1, h2, if_true]

/-- A leg's control transaction that nothing hinders. -/
theorem legCtrl_takes {tag leg txn op slot max source : Nat} (h : legUnhindered i tag leg txn op slot max source s = true)
    (f : State → State) :
    legCtrl i tag leg txn op slot max source .ok f (touch i s) = legTakes i tag leg txn op slot max source f s := by
  obtain ⟨-, -, h3, h4, h5, h6, h7, h8⟩ := legUnhindered_parts h
  have h3' : ¬ 20480 ≤ leg := Nat.not_le.mpr h3
  have h4' : ¬ txn ≤ rd (touch i s) (K.LAST_TXN leg) := by rw [rd_touch]; exact Nat.not_le.mpr h4
  unfold legCtrl
  simp only [h3', h4', h5, h6, h7, h8, worst_ok, if_true, if_false, Option.getD_none, Bool.false_eq_true]
  rfl

end Sys2Proof.Machine
end

