-- ==== Sys2Proof/Laws/Dispatch.lean ====
section
/-! SUPPORT. Every command's meaning, named: what `exec` answers for it. -/
set_option Elab.async false
namespace Sys2Proof.Machine

variable (s : State)

@[simp] theorem exec_registerWrite (bar : Nat) (offset : Nat) (width : Nat) (data : Nat) :
    exec (.registerWrite bar offset width data) s = execRegisterWrite bar offset width data s := rfl
@[simp] theorem exec_badRegisterAccess (fn : Nat) (bar : Nat) (offset : Nat) (read : Bool) :
    exec (.badRegisterAccess fn bar offset read) s = execBadRegisterAccess fn bar offset read s := rfl
@[simp] theorem exec_isobarFineTick : exec .isobarFineTick s = execIsobarFineTick s := rfl
@[simp] theorem exec_nowLoRead (fn : Nat) : exec (.nowLoRead fn) s = execNowLoRead fn s := rfl
@[simp] theorem exec_sourceQualify (src : Fin 4) (offset : Int) :
    exec (.sourceQualify src offset) s = execSourceQualify src offset s := rfl
@[simp] theorem exec_sourceStopTimeout (src : Fin 4) : exec (.sourceStopTimeout src) s = execSourceStopTimeout src s := rfl
@[simp] theorem exec_slewEnd : exec .slewEnd s = execSlewEnd s := rfl
@[simp] theorem exec_ppsInEdge (rising : Bool) : exec (.ppsInEdge rising) s = execPpsInEdge rising s := rfl
@[simp] theorem exec_ptpMessage (m : PtpMsg) : exec (.ptpMessage m) s = execPtpMessage m s := rfl
@[simp] theorem exec_ptpSyncInterval : exec .ptpSyncInterval s = execPtpSyncInterval s := rfl
@[simp] theorem exec_isbStep (inst : Inst) (tag : Nat) (ns : Nat) :
    exec (.isbStep inst tag ns) s = execIsbStep inst tag ns s := rfl
@[simp] theorem exec_todSet (inst : Inst) (tag : Nat) (ns : Nat) :
    exec (.todSet inst tag ns) s = execTodSet inst tag ns s := rfl
@[simp] theorem exec_barrierDelayMeasure : exec .barrierDelayMeasure s = execBarrierDelayMeasure s := rfl
@[simp] theorem exec_limpEntry (osc : Bool) (locks : Nat) : exec (.limpEntry osc locks) s = execLimpEntry osc locks s := rfl
@[simp] theorem exec_launchArm (slot : Fin 1024) (word : Nat) :
    exec (.launchArm slot word) s = execLaunchArm slot word s := rfl
@[simp] theorem exec_launchCancel (slot : Fin 1024) (via : Option Inst) (tag : Nat) :
    exec (.launchCancel slot via tag) s = execLaunchCancel slot via tag s := rfl
@[simp] theorem exec_launchWindowWrite (slot : Fin 1024) (offset : Fin 32) (octets : Bytes) :
    exec (.launchWindowWrite slot offset octets) s = execLaunchWindowWrite slot offset octets s := rfl
@[simp] theorem exec_launchRecord (inst : Inst) (tag : Nat) (rec : LaunchRec) :
    exec (.launchRecord inst tag rec) s = execLaunchRecord inst tag rec s := rfl
@[simp] theorem exec_launchCommit (num : Nat) : exec (.launchCommit num) s = execLaunchCommit num s := rfl
@[simp] theorem exec_launchWakeLead (num : Nat) : exec (.launchWakeLead num) s = execLaunchWakeLead num s := rfl
@[simp] theorem exec_xpSwap : exec .xpSwap s = execXpSwap s := rfl
@[simp] theorem exec_eqSwap : exec .eqSwap s = execEqSwap s := rfl
@[simp] theorem exec_srcSwitch : exec .srcSwitch s = execSrcSwitch s := rfl
@[simp] theorem exec_layerSwap : exec .layerSwap s = execLayerSwap s := rfl
@[simp] theorem exec_gateTakeover : exec .gateTakeover s = execGateTakeover s := rfl
@[simp] theorem exec_lxEdge : exec .lxEdge s = execLxEdge s := rfl
@[simp] theorem exec_lxPulseEnd (n : Fin 4) : exec (.lxPulseEnd n) s = execLxPulseEnd n s := rfl
@[simp] theorem exec_sapGroup : exec .sapGroup s = execSapGroup s := rfl
@[simp] theorem exec_hallHandover : exec .hallHandover s = execHallHandover s := rfl
@[simp] theorem exec_fieldMapSwap : exec .fieldMapSwap s = execFieldMapSwap s := rfl
@[simp] theorem exec_voteOpen : exec .voteOpen s = execVoteOpen s := rfl
@[simp] theorem exec_voteClose : exec .voteClose s = execVoteClose s := rfl
@[simp] theorem exec_voteSeal (session : Fin 16) : exec (.voteSeal session) s = execVoteSeal session s := rfl
@[simp] theorem exec_nodeActionOff (node : Nat) : exec (.nodeActionOff node) s = execNodeActionOff node s := rfl
@[simp] theorem exec_nodeActionOn (node : Nat) : exec (.nodeActionOn node) s = execNodeActionOn node s := rfl
@[simp] theorem exec_nodeActionLed (node : Nat) : exec (.nodeActionLed node) s = execNodeActionLed node s := rfl
@[simp] theorem exec_slotAssign (node : Nat) : exec (.slotAssign node) s = execSlotAssign node s := rfl
@[simp] theorem exec_slotRelease (node : Nat) : exec (.slotRelease node) s = execSlotRelease node s := rfl
@[simp] theorem exec_selectChannel (node : Nat) : exec (.selectChannel node) s = execSelectChannel node s := rfl
@[simp] theorem exec_nodeActionGain (node : Nat) : exec (.nodeActionGain node) s = execNodeActionGain node s := rfl
@[simp] theorem exec_launchCmd (h : LHdr) (num : Nat) (rec : Option LaunchRec) :
    exec (.launchCmd h num rec) s = execLaunchCmd h num rec s := rfl
@[simp] theorem exec_launchReport (h : LHdr) (num : Nat) (trunk : Nat) (state : Nat) (late : Nat) (reason : Nat) :
    exec (.launchReport h num trunk state late reason) s = execLaunchReport h num trunk state late reason s := rfl
@[simp] theorem exec_ppsOutEdge (n : Fin 2) : exec (.ppsOutEdge n) s = execPpsOutEdge n s := rfl
@[simp] theorem exec_ppsOutPulseEnd (n : Fin 2) : exec (.ppsOutPulseEnd n) s = execPpsOutPulseEnd n s := rfl
@[simp] theorem exec_ppsEn (inst : Inst) (tag : Nat) (n : Fin 2) (on : Bool) :
    exec (.ppsEn inst tag n on) s = execPpsEn inst tag n on s := rfl
@[simp] theorem exec_lxEn (inst : Inst) (tag : Nat) (n : Fin 4) (on : Bool) :
    exec (.lxEn inst tag n on) s = execLxEn inst tag n on s := rfl
@[simp] theorem exec_isobarAlarm : exec .isobarAlarm s = execIsobarAlarm s := rfl
@[simp] theorem exec_fieldReset : exec .fieldReset s = execFieldReset s := rfl
@[simp] theorem exec_fieldStart : exec .fieldStart s = execFieldStart s := rfl
@[simp] theorem exec_powerSequenceStep : exec .powerSequenceStep s = execPowerSequenceStep s := rfl
@[simp] theorem exec_fieldFrame (noise : List SectErr) (skew : List (Nat × Int)) :
    exec (.fieldFrame noise skew) s = execFieldFrame noise skew s := rfl
@[simp] theorem exec_hubFieldFrame : exec .hubFieldFrame s = execHubFieldFrame s := rfl
@[simp] theorem exec_poruaFrameReturn (trunk : Fin 8) (f : FrameReturn) :
    exec (.poruaFrameReturn trunk f) s = execPoruaFrameReturn trunk f s := rfl
@[simp] theorem exec_nodeEventResend (node : Nat) : exec (.nodeEventResend node) s = execNodeEventResend node s := rfl
@[simp] theorem exec_heartbeat (atHub : Bool) (h : LHdr) (mode : Nat) (field : Nat) (role : Nat) (epoch : Nat) :
    exec (.heartbeat atHub h mode field role epoch) s = execHeartbeat atHub h mode field role epoch s := rfl
@[simp] theorem exec_hubLost : exec .hubLost s = execHubLost s := rfl
@[simp] theorem exec_fieldLost : exec .fieldLost s = execFieldLost s := rfl
@[simp] theorem exec_timeXfer (h : LHdr) (time : Nat) (frac : Nat) (isbState : Nat) (freq : Int) :
    exec (.timeXfer h time frac isbState freq) s = execTimeXfer h time frac isbState freq s := rfl
@[simp] theorem exec_timeEcho (atHub : Bool) (h : LHdr) (sent : Nat) (holdPs : Nat) :
    exec (.timeEcho atHub h sent holdPs) s = execTimeEcho atHub h sent holdPs s := rfl
@[simp] theorem exec_wake (h : LHdr) (source : Nat) (data : Nat) (at_ : Nat) :
    exec (.wake h source data at_) s = execWake h source data at_ s := rfl
@[simp] theorem exec_audioUp (h : LHdr) (trunk : Fin 8) (block : Fin 4) (frameTime : Nat) (valid : Nat) (samples : List (List Int)) :
    exec (.audioUp h trunk block frameTime valid samples) s = execAudioUp h trunk block frameTime valid samples s := rfl
@[simp] theorem exec_audioDown (h : LHdr) (frameTime : Nat) (samples : List (List Int)) :
    exec (.audioDown h frameTime samples) s = execAudioDown h frameTime samples s := rfl
@[simp] theorem exec_nodeEvent (h : LHdr) (node : Nat) (code : Nat) (frameTime : Nat) :
    exec (.nodeEvent h node code frameTime) s = execNodeEvent h node code frameTime s := rfl
@[simp] theorem exec_nodeClear (h : LHdr) (node : Nat) : exec (.nodeClear h node) s = execNodeClear h node s := rfl
@[simp] theorem exec_nodeAck (h : LHdr) (node : Nat) : exec (.nodeAck h node) s = execNodeAck h node s := rfl
@[simp] theorem exec_dictReq (h : LHdr) (inst : Inst) (body : Bytes) :
    exec (.dictReq h inst body) s = execDictReq h inst body s := rfl
@[simp] theorem exec_dictRsp (h : LHdr) (inst : Inst) (body : Bytes) :
    exec (.dictRsp h inst body) s = execDictRsp h inst body s := rfl
@[simp] theorem exec_power (atHub : Bool) (h : LHdr) (kind : Nat) (arg : Nat) :
    exec (.power atHub h kind arg) s = execPower atHub h kind arg s := rfl
@[simp] theorem exec_lanokResend (hub : Bool) : exec (.lanokResend hub) s = execLanokResend hub s := rfl
@[simp] theorem exec_lanokLinkStart (offset : Int) : exec (.lanokLinkStart offset) s = execLanokLinkStart offset s := rfl
@[simp] theorem exec_enumerate (inst : Inst) (tag : Nat) (trunk : Fin 8) :
    exec (.enumerate inst tag trunk) s = execEnumerate inst tag trunk s := rfl
@[simp] theorem exec_hopDown (trunk : Fin 8) (hop : Nat) : exec (.hopDown trunk hop) s = execHopDown trunk hop s := rfl
@[simp] theorem exec_loopbackRemove (trunk : Fin 8) (hop : Nat) :
    exec (.loopbackRemove trunk hop) s = execLoopbackRemove trunk hop s := rfl
@[simp] theorem exec_trunkPortEnable (trunk : Fin 8) (port : Fin 2) :
    exec (.trunkPortEnable trunk port) s = execTrunkPortEnable trunk port s := rfl
@[simp] theorem exec_softStartEnd (trunk : Fin 8) (port : Fin 2) (current : Nat) :
    exec (.softStartEnd trunk port current) s = execSoftStartEnd trunk port current s := rfl
@[simp] theorem exec_overcurrentTrip (trunk : Fin 8) (port : Fin 2) (current : Nat) :
    exec (.overcurrentTrip trunk port current) s = execOvercurrentTrip trunk port current s := rfl
@[simp] theorem exec_tripRetry (trunk : Fin 8) (port : Fin 2) :
    exec (.tripRetry trunk port) s = execTripRetry trunk port s := rfl
@[simp] theorem exec_pwrClear (inst : Inst) (tag : Nat) (trunk : Fin 8) (port : Fin 2) :
    exec (.pwrClear inst tag trunk port) s = execPwrClear inst tag trunk port s := rfl
@[simp] theorem exec_hdMicCloseEnd (node : Nat) : exec (.hdMicCloseEnd node) s = execHdMicCloseEnd node s := rfl
@[simp] theorem exec_emergencyIn (pin : Fin 16) : exec (.emergencyIn pin) s = execEmergencyIn pin s := rfl
@[simp] theorem exec_fgpioDebounceEnd (pin : Fin 16) (high : Bool) (heldMs : Nat) :
    exec (.fgpioDebounceEnd pin high heldMs) s = execFgpioDebounceEnd pin high heldMs s := rfl
@[simp] theorem exec_fieldWake : exec .fieldWake s = execFieldWake s := rfl
@[simp] theorem exec_canFrame (bus : Fin 2) (identifier : Nat) (form : CanForm) (passive : Bool) (octets : Bytes) :
    exec (.canFrame bus identifier form passive octets) s = execCanFrame bus identifier form passive octets s := rfl
@[simp] theorem exec_canReassemblyTimeout (bus : Fin 2) :
    exec (.canReassemblyTimeout bus) s = execCanReassemblyTimeout bus s := rfl
@[simp] theorem exec_canBusOffRecovery (bus : Fin 2) : exec (.canBusOffRecovery bus) s = execCanBusOffRecovery bus s := rfl
@[simp] theorem exec_reqSpeak : exec .reqSpeak s = execReqSpeak s := rfl
@[simp] theorem exec_reqCancel : exec .reqCancel s = execReqCancel s := rfl
@[simp] theorem exec_priorityOn : exec .priorityOn s = execPriorityOn s := rfl
@[simp] theorem exec_priorityOff : exec .priorityOff s = execPriorityOff s := rfl
@[simp] theorem exec_voteK : exec .voteK s = execVoteK s := rfl
@[simp] theorem exec_endpointChange : exec .endpointChange s = execEndpointChange s := rfl
@[simp] theorem exec_message : exec .message s = execMessage s := rfl
@[simp] theorem exec_fault : exec .fault s = execFault s := rfl
@[simp] theorem exec_read (inst : Inst) (tag : Nat) (index : Nat) (sub : Nat) :
    exec (.read inst tag index sub) s = execRead inst tag index sub s := rfl
@[simp] theorem exec_write (inst : Inst) (tag : Nat) (index : Nat) (sub : Nat) (value : Bytes) :
    exec (.write inst tag index sub value) s = execWrite inst tag index sub value s := rfl
@[simp] theorem exec_groupWrite (inst : Inst) (tag : Nat) (index : Nat) (sub : Nat) (value : Bytes) :
    exec (.groupWrite inst tag index sub value) s = execGroupWrite inst tag index sub value s := rfl
@[simp] theorem exec_blobOpenWrite (inst : Inst) (tag : Nat) (index : Nat) (sub : Nat) (length : Nat) :
    exec (.blobOpenWrite inst tag index sub length) s = execBlobOpenWrite inst tag index sub length s := rfl
@[simp] theorem exec_blobOpenRead (inst : Inst) (tag : Nat) (index : Nat) (sub : Nat) :
    exec (.blobOpenRead inst tag index sub) s = execBlobOpenRead inst tag index sub s := rfl
@[simp] theorem exec_blobData (inst : Inst) (tag : Nat) (index : Nat) (sub : Nat) (value : Bytes) :
    exec (.blobData inst tag index sub value) s = execBlobData inst tag index sub value s := rfl
@[simp] theorem exec_blobClose (inst : Inst) (tag : Nat) (index : Nat) (sub : Nat) (value : Bytes) :
    exec (.blobClose inst tag index sub value) s = execBlobClose inst tag index sub value s := rfl
@[simp] theorem exec_abort (inst : Inst) (tag : Nat) (index : Nat) (sub : Nat) :
    exec (.abort inst tag index sub) s = execAbort inst tag index sub s := rfl
@[simp] theorem exec_cmdComplete (index : Nat) (sub : Nat) (st : Fin 12) :
    exec (.cmdComplete index sub st) s = execCmdComplete index sub st s := rfl
@[simp] theorem exec_groupTimeout (inst : Inst) : exec (.groupTimeout inst) s = execGroupTimeout inst s := rfl
@[simp] theorem exec_blobTimeout (inst : Inst) : exec (.blobTimeout inst) s = execBlobTimeout inst s := rfl
@[simp] theorem exec_mbxGo (slot : Fin 4) : exec (.mbxGo slot) s = execMbxGo slot s := rfl
@[simp] theorem exec_udpDictDatagram (src : Bytes) (sport : Nat) (fragment : Bool) (octets : Bytes) :
    exec (.udpDictDatagram src sport fragment octets) s = execUdpDictDatagram src sport fragment octets s := rfl
@[simp] theorem exec_persistFlashWrite : exec .persistFlashWrite s = execPersistFlashWrite s := rfl
@[simp] theorem exec_persistWriteComplete : exec .persistWriteComplete s = execPersistWriteComplete s := rfl
@[simp] theorem exec_warmReset (inst : Inst) (tag : Nat) : exec (.warmReset inst tag) s = execWarmReset inst tag s := rfl
@[simp] theorem exec_factoryReset (inst : Inst) (tag : Nat) :
    exec (.factoryReset inst tag) s = execFactoryReset inst tag s := rfl
@[simp] theorem exec_modeRequest (inst : Inst) (tag : Nat) (mode : Nat) :
    exec (.modeRequest inst tag mode) s = execModeRequest inst tag mode s := rfl
@[simp] theorem exec_sqTailWrite (q : Fin 8) (value : Nat) : exec (.sqTailWrite q value) s = execSqTailWrite q value s := rfl
@[simp] theorem exec_sqErrRead (fn : Nat) (q : Fin 8) : exec (.sqErrRead fn q) s = execSqErrRead fn q s := rfl
@[simp] theorem exec_acceptLoRead (fn : Nat) : exec (.acceptLoRead fn) s = execAcceptLoRead fn s := rfl
@[simp] theorem exec_workEnqueue (source : Nat) (it : Item) :
    exec (.workEnqueue source it) s = execWorkEnqueue source it s := rfl
@[simp] theorem exec_journalAccept : exec .journalAccept s = execJournalAccept s := rfl
@[simp] theorem exec_peerCopyTimeout : exec .peerCopyTimeout s = execPeerCopyTimeout s := rfl
@[simp] theorem exec_meWorkRequest (me : Fin 128) : exec (.meWorkRequest me) s = execMeWorkRequest me s := rfl
@[simp] theorem exec_affinityWaitExpiry (accept : Nat) :
    exec (.affinityWaitExpiry accept) s = execAffinityWaitExpiry accept s := rfl
@[simp] theorem exec_itemComplete (me : Fin 128) (actions : List OutAct) :
    exec (.itemComplete me actions) s = execItemComplete me actions s := rfl
@[simp] theorem exec_delayDue : exec .delayDue s = execDelayDue s := rfl
@[simp] theorem exec_runLimitExceeded (me : Fin 128) : exec (.runLimitExceeded me) s = execRunLimitExceeded me s := rfl
@[simp] theorem exec_meFault (me : Fin 128) : exec (.meFault me) s = execMeFault me s := rfl
@[simp] theorem exec_clusterFault (cl : Fin 8) : exec (.clusterFault cl) s = execClusterFault cl s := rfl
@[simp] theorem exec_checkpoint : exec .checkpoint s = execCheckpoint s := rfl
@[simp] theorem exec_checkpointComplete : exec .checkpointComplete s = execCheckpointComplete s := rfl
@[simp] theorem exec_mirrorCopyDone : exec .mirrorCopyDone s = execMirrorCopyDone s := rfl
@[simp] theorem exec_fwStage (inst : Inst) (tag : Nat) (octets : Bytes) :
    exec (.fwStage inst tag octets) s = execFwStage inst tag octets s := rfl
@[simp] theorem exec_fwActivate (inst : Inst) (tag : Nat) : exec (.fwActivate inst tag) s = execFwActivate inst tag s := rfl
@[simp] theorem exec_schedStatsClear (inst : Inst) (tag : Nat) :
    exec (.schedStatsClear inst tag) s = execSchedStatsClear inst tag s := rfl
@[simp] theorem exec_nop (me : Fin 128) : exec (.nop me) s = execNop me s := rfl
@[simp] theorem exec_mpy (me : Fin 128) : exec (.mpy me) s = execMpy me s := rfl
@[simp] theorem exec_mac (me : Fin 128) : exec (.mac me) s = execMac me s := rfl
@[simp] theorem exec_msu (me : Fin 128) : exec (.msu me) s = execMsu me s := rfl
@[simp] theorem exec_mpy2 (me : Fin 128) : exec (.mpy2 me) s = execMpy2 me s := rfl
@[simp] theorem exec_mac2 (me : Fin 128) : exec (.mac2 me) s = execMac2 me s := rfl
@[simp] theorem exec_macx (me : Fin 128) : exec (.macx me) s = execMacx me s := rfl
@[simp] theorem exec_cmpy (me : Fin 128) : exec (.cmpy me) s = execCmpy me s := rfl
@[simp] theorem exec_cmac (me : Fin 128) : exec (.cmac me) s = execCmac me s := rfl
@[simp] theorem exec_add (me : Fin 128) : exec (.add me) s = execAdd me s := rfl
@[simp] theorem exec_sub (me : Fin 128) : exec (.sub me) s = execSub me s := rfl
@[simp] theorem exec_bfly (me : Fin 128) : exec (.bfly me) s = execBfly me s := rfl
@[simp] theorem exec_abs (me : Fin 128) : exec (.abs me) s = execAbs me s := rfl
@[simp] theorem exec_neg (me : Fin 128) : exec (.neg me) s = execNeg me s := rfl
@[simp] theorem exec_min (me : Fin 128) : exec (.min me) s = execMin me s := rfl
@[simp] theorem exec_max (me : Fin 128) : exec (.max me) s = execMax me s := rfl
@[simp] theorem exec_and (me : Fin 128) : exec (.and me) s = execAnd me s := rfl
@[simp] theorem exec_or (me : Fin 128) : exec (.or me) s = execOr me s := rfl
@[simp] theorem exec_xor (me : Fin 128) : exec (.xor me) s = execXor me s := rfl
@[simp] theorem exec_shl (me : Fin 128) : exec (.shl me) s = execShl me s := rfl
@[simp] theorem exec_shr (me : Fin 128) : exec (.shr me) s = execShr me s := rfl
@[simp] theorem exec_cmp (me : Fin 128) : exec (.cmp me) s = execCmp me s := rfl
@[simp] theorem exec_sel (me : Fin 128) : exec (.sel me) s = execSel me s := rfl
@[simp] theorem exec_perm (me : Fin 128) : exec (.perm me) s = execPerm me s := rfl
@[simp] theorem exec_exp (me : Fin 128) : exec (.exp me) s = execExp me s := rfl
@[simp] theorem exec_aadd (me : Fin 128) : exec (.aadd me) s = execAadd me s := rfl
@[simp] theorem exec_asub (me : Fin 128) : exec (.asub me) s = execAsub me s := rfl
@[simp] theorem exec_ash (me : Fin 128) : exec (.ash me) s = execAsh me s := rfl
@[simp] theorem exec_aclr (me : Fin 128) : exec (.aclr me) s = execAclr me s := rfl
@[simp] theorem exec_amov (me : Fin 128) : exec (.amov me) s = execAmov me s := rfl
@[simp] theorem exec_rnd (me : Fin 128) : exec (.rnd me) s = execRnd me s := rfl
@[simp] theorem exec_rndh (me : Fin 128) : exec (.rndh me) s = execRndh me s := rfl
@[simp] theorem exec_ld (me : Fin 128) (y : Bool) : exec (.ld me y) s = execLd me y s := rfl
@[simp] theorem exec_st (me : Fin 128) (y : Bool) : exec (.st me y) s = execSt me y s := rfl
@[simp] theorem exec_ldb (me : Fin 128) (y : Bool) : exec (.ldb me y) s = execLdb me y s := rfl
@[simp] theorem exec_pupd (me : Fin 128) (y : Bool) : exec (.pupd me y) s = execPupd me y s := rfl
@[simp] theorem exec_cnop (me : Fin 128) : exec (.cnop me) s = execCnop me s := rfl
@[simp] theorem exec_setv (me : Fin 128) : exec (.setv me) s = execSetv me s := rfl
@[simp] theorem exec_setp (me : Fin 128) : exec (.setp me) s = execSetp me s := rfl
@[simp] theorem exec_setm (me : Fin 128) : exec (.setm me) s = execSetm me s := rfl
@[simp] theorem exec_addp (me : Fin 128) : exec (.addp me) s = execAddp me s := rfl
@[simp] theorem exec_bra (me : Fin 128) : exec (.bra me) s = execBra me s := rfl
@[simp] theorem exec_bcc (me : Fin 128) : exec (.bcc me) s = execBcc me s := rfl
@[simp] theorem exec_loop (me : Fin 128) : exec (.loop me) s = execLoop me s := rfl
@[simp] theorem exec_ldc (me : Fin 128) : exec (.ldc me) s = execLdc me s := rfl
@[simp] theorem exec_ldcDataArrive (me : Fin 128) : exec (.ldcDataArrive me) s = execLdcDataArrive me s := rfl
@[simp] theorem exec_clrf (me : Fin 128) : exec (.clrf me) s = execClrf me s := rfl
@[simp] theorem exec_rdst (me : Fin 128) : exec (.rdst me) s = execRdst me s := rfl
@[simp] theorem exec_halt (me : Fin 128) : exec (.halt me) s = execHalt me s := rfl
@[simp] theorem exec_tickBoundary (t : Fin 8) : exec (.tickBoundary t) s = execTickBoundary t s := rfl
@[simp] theorem exec_tickBudgetExpiry (t : Fin 8) : exec (.tickBudgetExpiry t) s = execTickBudgetExpiry t s := rfl
@[simp] theorem exec_kimageValidated (k : Fin 64) : exec (.kimageValidated k) s = execKimageValidated k s := rfl
@[simp] theorem exec_kunload (inst : Inst) (tag : Nat) (k : Fin 64) :
    exec (.kunload inst tag k) s = execKunload inst tag k s := rfl
@[simp] theorem exec_bEn (inst : Inst) (tag : Nat) (e : Fin 256) (on : Bool) :
    exec (.bEn inst tag e on) s = execBEn inst tag e on s := rfl
@[simp] theorem exec_tEn (inst : Inst) (tag : Nat) (t : Fin 8) (on : Bool) :
    exec (.tEn inst tag t on) s = execTEn inst tag t on s := rfl
@[simp] theorem exec_sapEn (inst : Inst) (tag : Nat) (n : Fin 8) (on : Bool) :
    exec (.sapEn inst tag n on) s = execSapEn inst tag n on s := rfl
@[simp] theorem exec_sapClocksStart (n : Fin 8) : exec (.sapClocksStart n) s = execSapClocksStart n s := rfl
@[simp] theorem exec_sapLocked (n : Fin 8) : exec (.sapLocked n) s = execSapLocked n s := rfl
@[simp] theorem exec_sapStartFramesDone (n : Fin 8) : exec (.sapStartFramesDone n) s = execSapStartFramesDone n s := rfl
@[simp] theorem exec_sapRampOutDone (n : Fin 8) : exec (.sapRampOutDone n) s = execSapRampOutDone n s := rfl
@[simp] theorem exec_sapStopFramesDone (n : Fin 8) : exec (.sapStopFramesDone n) s = execSapStopFramesDone n s := rfl
@[simp] theorem exec_clockLost (n : Fin 8) : exec (.clockLost n) s = execClockLost n s := rfl
@[simp] theorem exec_staleFadeExpiry (endpoint : Bool) (n : Nat) :
    exec (.staleFadeExpiry endpoint n) s = execStaleFadeExpiry endpoint n s := rfl
@[simp] theorem exec_audioSampleBoundary (di : List (List Int)) (mics : List (Nat × Nat × Int)) :
    exec (.audioSampleBoundary di mics) s = execAudioSampleBoundary di mics s := rfl
@[simp] theorem exec_epEn (inst : Inst) (tag : Nat) (rx : Bool) (e : Fin 64) (on : Bool) :
    exec (.epEn inst tag rx e on) s = execEpEn inst tag rx e on s := rfl
@[simp] theorem exec_bar2Write (offset : Nat) (width : Nat) (data : Nat) :
    exec (.bar2Write offset width data) s = execBar2Write offset width data s := rfl
@[simp] theorem exec_xpCopy (inst : Inst) (tag : Nat) (set_ : Nat) :
    exec (.xpCopy inst tag set_) s = execXpCopy inst tag set_ s := rfl
@[simp] theorem exec_xpPreset (inst : Inst) (tag : Nat) : exec (.xpPreset inst tag) s = execXpPreset inst tag s := rfl
@[simp] theorem exec_xpCopyDone : exec .xpCopyDone s = execXpCopyDone s := rfl
@[simp] theorem exec_meterClr (inst : Inst) (tag : Nat) : exec (.meterClr inst tag) s = execMeterClr inst tag s := rfl
@[simp] theorem exec_lmReset (inst : Inst) (tag : Nat) (m : Fin 16) :
    exec (.lmReset inst tag m) s = execLmReset inst tag m s := rfl
@[simp] theorem exec_loudnessUpdate : exec .loudnessUpdate s = execLoudnessUpdate s := rfl
@[simp] theorem exec_tmGrant (inst : Inst) (tag : Nat) (id : Nat) :
    exec (.tmGrant inst tag id) s = execTmGrant inst tag id s := rfl
@[simp] theorem exec_tmClose (inst : Inst) (tag : Nat) (id : Nat) :
    exec (.tmClose inst tag id) s = execTmClose inst tag id s := rfl
@[simp] theorem exec_tmClearQueue (inst : Inst) (tag : Nat) :
    exec (.tmClearQueue inst tag) s = execTmClearQueue inst tag s := rfl
@[simp] theorem exec_talkerSwitch : exec .talkerSwitch s = execTalkerSwitch s := rfl
@[simp] theorem exec_deskEn (inst : Inst) (tag : Nat) (d : Fin 256) (on : Bool) :
    exec (.deskEn inst tag d on) s = execDeskEn inst tag d on s := rfl
@[simp] theorem exec_preselection : exec .preselection s = execPreselection s := rfl
@[simp] theorem exec_candidateConcealEnd (c : Fin 64) : exec (.candidateConcealEnd c) s = execCandidateConcealEnd c s := rfl
@[simp] theorem exec_voiceHangExpiry (leg : Nat) : exec (.voiceHangExpiry leg) s = execVoiceHangExpiry leg s := rfl
@[simp] theorem exec_languageFallback (l : Nat) : exec (.languageFallback l) s = execLanguageFallback l s := rfl
@[simp] theorem exec_groupFrameBoundary (g : Fin 64) : exec (.groupFrameBoundary g) s = execGroupFrameBoundary g s := rfl
@[simp] theorem exec_ethFrameReceived (p : Fin 8) (f : Frame) :
    exec (.ethFrameReceived p f) s = execEthFrameReceived p f s := rfl
@[simp] theorem exec_mgmtFrameReceived (f : Frame) : exec (.mgmtFrameReceived f) s = execMgmtFrameReceived f s := rfl
@[simp] theorem exec_pauseReceived (p : Fin 9) (quanta : Nat) :
    exec (.pauseReceived p quanta) s = execPauseReceived p quanta s := rfl
@[simp] theorem exec_pfcReceived (p : Fin 8) (enabled : Nat) (quanta : List Nat) :
    exec (.pfcReceived p enabled quanta) s = execPfcReceived p enabled quanta s := rfl
@[simp] theorem exec_pauseExpiry (p : Fin 9) : exec (.pauseExpiry p) s = execPauseExpiry p s := rfl
@[simp] theorem exec_pauseResend (p : Fin 8) : exec (.pauseResend p) s = execPauseResend p s := rfl
@[simp] theorem exec_linkLoss (p : Fin 8) : exec (.linkLoss p) s = execLinkLoss p s := rfl
@[simp] theorem exec_linkUp (p : Fin 8) : exec (.linkUp p) s = execLinkUp p s := rfl
@[simp] theorem exec_fecSecond (p : Fin 8) (corrected : Nat) (uncorrectable : Nat) :
    exec (.fecSecond p corrected uncorrectable) s = execFecSecond p corrected uncorrectable s := rfl
@[simp] theorem exec_portEn (inst : Inst) (tag : Nat) (p : Fin 8) (on : Bool) :
    exec (.portEn inst tag p on) s = execPortEn inst tag p on s := rfl
@[simp] theorem exec_qFlush (inst : Inst) (tag : Nat) : exec (.qFlush inst tag) s = execQFlush inst tag s := rfl
@[simp] theorem exec_poolTest (inst : Inst) (tag : Nat) : exec (.poolTest inst tag) s = execPoolTest inst tag s := rfl
@[simp] theorem exec_poolTestDone (cells : Nat) : exec (.poolTestDone cells) s = execPoolTestDone cells s := rfl
@[simp] theorem exec_spillDrainComplete : exec .spillDrainComplete s = execSpillDrainComplete s := rfl
@[simp] theorem exec_orphanAudit (cells : Nat) : exec (.orphanAudit cells) s = execOrphanAudit cells s := rfl
@[simp] theorem exec_portTransmitterFree (p : Fin 9) (read : Fin 4) :
    exec (.portTransmitterFree p read) s = execPortTransmitterFree p read s := rfl
@[simp] theorem exec_shaperConforming (leg : Nat) : exec (.shaperConforming leg) s = execShaperConforming leg s := rfl
@[simp] theorem exec_shaperAdapt : exec .shaperAdapt s = execShaperAdapt s := rfl
@[simp] theorem exec_gateEntryChange (p : Fin 8) : exec (.gateEntryChange p) s = execGateEntryChange p s := rfl
@[simp] theorem exec_gateConfigChange (p : Fin 8) : exec (.gateConfigChange p) s = execGateConfigChange p s := rfl
@[simp] theorem exec_copyFormation : exec .copyFormation s = execCopyFormation s := rfl
@[simp] theorem exec_estimateUpdate (leg : Nat) : exec (.estimateUpdate leg) s = execEstimateUpdate leg s := rfl
@[simp] theorem exec_refreshWaitExpiry : exec .refreshWaitExpiry s = execRefreshWaitExpiry s := rfl
@[simp] theorem exec_refreshMinExpiry : exec .refreshMinExpiry s = execRefreshMinExpiry s := rfl
@[simp] theorem exec_transportFeedbackTimer : exec .transportFeedbackTimer s = execTransportFeedbackTimer s := rfl
@[simp] theorem exec_rtcpReportTimer : exec .rtcpReportTimer s = execRtcpReportTimer s := rfl
@[simp] theorem exec_failbackHoldExpiry (p : Fin 8) : exec (.failbackHoldExpiry p) s = execFailbackHoldExpiry p s := rfl
@[simp] theorem exec_legCkptTimer : exec .legCkptTimer s = execLegCkptTimer s := rfl
@[simp] theorem exec_authFailSecond (leg : Nat) : exec (.authFailSecond leg) s = execAuthFailSecond leg s := rfl
@[simp] theorem exec_legEn (inst : Inst) (tag : Nat) (l : Nat) (on : Bool) :
    exec (.legEn inst tag l on) s = execLegEn inst tag l on s := rfl
@[simp] theorem exec_legCtrlEnable (inst : Inst) (tag : Nat) (leg : Nat) (txn : Nat) :
    exec (.legCtrlEnable inst tag leg txn) s = execLegCtrlEnable inst tag leg txn s := rfl
@[simp] theorem exec_legCtrlDisable (inst : Inst) (tag : Nat) (leg : Nat) (txn : Nat) :
    exec (.legCtrlDisable inst tag leg txn) s = execLegCtrlDisable inst tag leg txn s := rfl
@[simp] theorem exec_legCtrlSpeak (inst : Inst) (tag : Nat) (leg : Nat) (txn : Nat) :
    exec (.legCtrlSpeak inst tag leg txn) s = execLegCtrlSpeak inst tag leg txn s := rfl
@[simp] theorem exec_legCtrlCancel (inst : Inst) (tag : Nat) (leg : Nat) (txn : Nat) :
    exec (.legCtrlCancel inst tag leg txn) s = execLegCtrlCancel inst tag leg txn s := rfl
@[simp] theorem exec_legCtrlSetSource (inst : Inst) (tag : Nat) (leg : Nat) (txn : Nat) (slot : Nat) (code : Nat) :
    exec (.legCtrlSetSource inst tag leg txn slot code) s = execLegCtrlSetSource inst tag leg txn slot code s := rfl
@[simp] theorem exec_legCtrlSetMax (inst : Inst) (tag : Nat) (leg : Nat) (txn : Nat) (slot : Nat) (layer : Nat) :
    exec (.legCtrlSetMax inst tag leg txn slot layer) s = execLegCtrlSetMax inst tag leg txn slot layer s := rfl
@[simp] theorem exec_legCtrlRefresh (inst : Inst) (tag : Nat) (leg : Nat) (txn : Nat) (slot : Nat) :
    exec (.legCtrlRefresh inst tag leg txn slot) s = execLegCtrlRefresh inst tag leg txn slot s := rfl
@[simp] theorem exec_decEn (inst : Inst) (tag : Nat) (c : Fin 1024) (on : Bool) :
    exec (.decEn inst tag c on) s = execDecEn inst tag c on s := rfl
@[simp] theorem exec_encEn (inst : Inst) (tag : Nat) (e : Fin 256) (on : Bool) :
    exec (.encEn inst tag e on) s = execEncEn inst tag e on s := rfl
@[simp] theorem exec_decodePictureComplete (j : Fin 2) :
    exec (.decodePictureComplete j) s = execDecodePictureComplete j s := rfl
@[simp] theorem exec_decodeBufWaitTimeout (c : Fin 1024) :
    exec (.decodeBufWaitTimeout c) s = execDecodeBufWaitTimeout c s := rfl
@[simp] theorem exec_pictureTimeout (j : Fin 3) : exec (.pictureTimeout j) s = execPictureTimeout j s := rfl
@[simp] theorem exec_damageWaitExpiry (c : Fin 1024) : exec (.damageWaitExpiry c) s = execDamageWaitExpiry c s := rfl
@[simp] theorem exec_encodePictureComplete (e : Fin 256) (rows : List EncRow) (cutAt : Nat) (units : List Bytes) :
    exec (.encodePictureComplete e rows cutAt units) s = execEncodePictureComplete e rows cutAt units s := rfl
@[simp] theorem exec_refresh (inst : Inst) (tag : Nat) (e : Fin 256) :
    exec (.refresh inst tag e) s = execRefresh inst tag e s := rfl
@[simp] theorem exec_outputPictureBoundary (o : Fin 64) :
    exec (.outputPictureBoundary o) s = execOutputPictureBoundary o s := rfl
@[simp] theorem exec_composedPictureComplete : exec .composedPictureComplete s = execComposedPictureComplete s := rfl
@[simp] theorem exec_layerTableBar2Write (off : Nat) (value : Nat) (wide : Bool) :
    exec (.layerTableBar2Write off value wide) s = execLayerTableBar2Write off value wide s := rfl
@[simp] theorem exec_layerCopy (inst : Inst) (tag : Nat) (o : Fin 64) :
    exec (.layerCopy inst tag o) s = execLayerCopy inst tag o s := rfl
@[simp] theorem exec_outEn (inst : Inst) (tag : Nat) (o : Fin 64) (on : Bool) :
    exec (.outEn inst tag o on) s = execOutEn inst tag o on s := rfl
@[simp] theorem exec_ovlBase (inst : Inst) (tag : Nat) (v : Fin 256) (base : Nat) :
    exec (.ovlBase inst tag v base) s = execOvlBase inst tag v base s := rfl
@[simp] theorem exec_dmaGo (n : Fin 64) (host : Bool) : exec (.dmaGo n host) s = execDmaGo n host s := rfl
@[simp] theorem exec_dmaStop (n : Fin 64) (host : Bool) : exec (.dmaStop n host) s = execDmaStop n host s := rfl
@[simp] theorem exec_dmaResume (n : Fin 64) (host : Bool) : exec (.dmaResume n host) s = execDmaResume n host s := rfl
@[simp] theorem exec_dmaDoorbell (n : Fin 64) : exec (.dmaDoorbell n) s = execDmaDoorbell n s := rfl
@[simp] theorem exec_dmaReq (n : Fin 64) : exec (.dmaReq n) s = execDmaReq n s := rfl
@[simp] theorem exec_descriptorFetchDone (n : Fin 64) (host : Option Bytes) (failed : Bool) :
    exec (.descriptorFetchDone n host failed) s = execDescriptorFetchDone n host failed s := rfl
@[simp] theorem exec_descriptorComplete (n : Fin 64) (host : Bytes) (fail : Option (Fin 3 × Nat)) :
    exec (.descriptorComplete n host fail) s = execDescriptorComplete n host fail s := rfl
@[simp] theorem exec_linkFetchDone (n : Fin 64) (host : Option Bytes) (failed : Bool) :
    exec (.linkFetchDone n host failed) s = execLinkFetchDone n host failed s := rfl
@[simp] theorem exec_dmaPacingPermit (n : Fin 64) : exec (.dmaPacingPermit n) s = execDmaPacingPermit n s := rfl
@[simp] theorem exec_dmaPaceTimer (n : Fin 64) : exec (.dmaPaceTimer n) s = execDmaPaceTimer n s := rfl
@[simp] theorem exec_busTimeout (n : Fin 64) (host : Bytes) (done : Nat) :
    exec (.busTimeout n host done) s = execBusTimeout n host done s := rfl
@[simp] theorem exec_curLoRead (n : Fin 64) (fn : Nat) : exec (.curLoRead n fn) s = execCurLoRead n fn s := rfl
@[simp] theorem exec_dmaEn (inst : Inst) (tag : Nat) (n : Fin 64) (on : Bool) :
    exec (.dmaEn inst tag n on) s = execDmaEn inst tag n on s := rfl
@[simp] theorem exec_memRequest (rs : List MemReq) : exec (.memRequest rs) s = execMemRequest rs s := rfl
@[simp] theorem exec_reinterleaveDone (restored : List Nat) :
    exec (.reinterleaveDone restored) s = execReinterleaveDone restored s := rfl
@[simp] theorem exec_dramRefresh (c : Fin 4) (rank : Fin 2) (issued : Fin 10) :
    exec (.dramRefresh c rank issued) s = execDramRefresh c rank issued s := rfl
@[simp] theorem exec_actWindow : exec .actWindow s = execActWindow s := rfl
@[simp] theorem exec_patrolScrub (c : Fin 4) (corrected : Bool) (bad : Bool) :
    exec (.patrolScrub c corrected bad) s = execPatrolScrub c corrected bad s := rfl
@[simp] theorem exec_periodicRetrain (c : Fin 4) (margin : Nat) (pause : Nat) (inRange : Bool) :
    exec (.periodicRetrain c margin pause inRange) s = execPeriodicRetrain c margin pause inRange s := rfl
@[simp] theorem exec_fullTrainingDone (c : Fin 4) (ok : Bool) :
    exec (.fullTrainingDone c ok) s = execFullTrainingDone c ok s := rfl
@[simp] theorem exec_pdIdleExpiry (c : Fin 4) (rank : Fin 2) :
    exec (.pdIdleExpiry c rank) s = execPdIdleExpiry c rank s := rfl
@[simp] theorem exec_memStatsClear (inst : Inst) (tag : Nat) :
    exec (.memStatsClear inst tag) s = execMemStatsClear inst tag s := rfl
@[simp] theorem exec_keyLoad (r : KeyRec) : exec (.keyLoad r) s = execKeyLoad r s := rfl
@[simp] theorem exec_keyErase (r : KeyRec) : exec (.keyErase r) s = execKeyErase r s := rfl
@[simp] theorem exec_keyLoadNext (r : KeyRec) : exec (.keyLoadNext r) s = execKeyLoadNext r s := rfl
@[simp] theorem exec_sealRequest (r : SealReq) : exec (.sealRequest r) s = execSealRequest r s := rfl
@[simp] theorem exec_sealDequeue : exec .sealDequeue s = execSealDequeue s := rfl
@[simp] theorem exec_sealComplete (wrong0 : Bool) (wrong1 : Bool) (agree2 : Bool) :
    exec (.sealComplete wrong0 wrong1 agree2) s = execSealComplete wrong0 wrong1 agree2 s := rfl
@[simp] theorem exec_slotErase (inst : Inst) (tag : Nat) (slot : Fin 64) :
    exec (.slotErase inst tag slot) s = execSlotErase inst tag slot s := rfl
@[simp] theorem exec_inErase (inst : Inst) (tag : Nat) : exec (.inErase inst tag) s = execInErase inst tag s := rfl
@[simp] theorem exec_outErase (inst : Inst) (tag : Nat) : exec (.outErase inst tag) s = execOutErase inst tag s := rfl
@[simp] theorem exec_egressKeyEffective (leg : Nat) : exec (.egressKeyEffective leg) s = execEgressKeyEffective leg s := rfl
@[simp] theorem exec_prevKeyExpiry (leg : Nat) : exec (.prevKeyExpiry leg) s = execPrevKeyExpiry leg s := rfl
@[simp] theorem exec_pdRequestRun (inst : Inst) (tag : Nat) (d : Nat) :
    exec (.pdRequestRun inst tag d) s = execPdRequestRun inst tag d s := rfl
@[simp] theorem exec_pdRequestCalm (inst : Inst) (tag : Nat) (d : Nat) :
    exec (.pdRequestCalm inst tag d) s = execPdRequestCalm inst tag d s := rfl
@[simp] theorem exec_pdRequestFrost (inst : Inst) (tag : Nat) (d : Nat) :
    exec (.pdRequestFrost inst tag d) s = execPdRequestFrost inst tag d s := rfl
@[simp] theorem exec_pdReset (inst : Inst) (tag : Nat) (d : Nat) :
    exec (.pdReset inst tag d) s = execPdReset inst tag d s := rfl
@[simp] theorem exec_lullEntry (unit : Fin 140) : exec (.lullEntry unit) s = execLullEntry unit s := rfl
@[simp] theorem exec_hubOff (inst : Inst) (tag : Nat) : exec (.hubOff inst tag) s = execHubOff inst tag s := rfl
@[simp] theorem exec_wakeN : exec .wakeN s = execWakeN s := rfl
@[simp] theorem exec_drainComplete : exec .drainComplete s = execDrainComplete s := rfl
@[simp] theorem exec_drainTimeout : exec .drainTimeout s = execDrainTimeout s := rfl
@[simp] theorem exec_hostWakeRequest : exec .hostWakeRequest s = execHostWakeRequest s := rfl
@[simp] theorem exec_regulatorReady (rail : Fin 3) (d : Nat) :
    exec (.regulatorReady rail d) s = execRegulatorReady rail d s := rfl
@[simp] theorem exec_pllLocked (d : Nat) : exec (.pllLocked d) s = execPllLocked d s := rfl
@[simp] theorem exec_memoryReady (d : Nat) (failed : List Nat) (bad : List Nat) :
    exec (.memoryReady d failed bad) s = execMemoryReady d failed bad s := rfl
@[simp] theorem exec_logicReady (d : Nat) : exec (.logicReady d) s = execLogicReady d s := rfl
@[simp] theorem exec_wakeStepTimeout (d : Nat) (locks : Nat) :
    exec (.wakeStepTimeout d locks) s = execWakeStepTimeout d locks s := rfl
@[simp] theorem exec_powerGoodLoss (rail : Fin 2) : exec (.powerGoodLoss rail) s = execPowerGoodLoss rail s := rfl
@[simp] theorem exec_tempAlarm (temp : Int) : exec (.tempAlarm temp) s = execTempAlarm temp s := rfl
@[simp] theorem exec_tempShutdown (temp : Int) : exec (.tempShutdown temp) s = execTempShutdown temp s := rfl
@[simp] theorem exec_standbyIdleTimeout : exec .standbyIdleTimeout s = execStandbyIdleTimeout s := rfl
@[simp] theorem exec_watchdogTimeout : exec .watchdogTimeout s = execWatchdogTimeout s := rfl
@[simp] theorem exec_wdtService : exec .wdtService s = execWdtService s := rfl
@[simp] theorem exec_hostWatchTimeout : exec .hostWatchTimeout s = execHostWatchTimeout s := rfl
@[simp] theorem exec_hostPing (inst : Inst) (tag : Nat) : exec (.hostPing inst tag) s = execHostPing inst tag s := rfl
@[simp] theorem exec_pcieLinkDown : exec .pcieLinkDown s = execPcieLinkDown s := rfl
@[simp] theorem exec_perstN (high : Bool) : exec (.perstN high) s = execPerstN high s := rfl
@[simp] theorem exec_chClear (inst : Inst) (tag : Nat) : exec (.chClear inst tag) s = execChClear inst tag s := rfl
@[simp] theorem exec_chRetire (inst : Inst) (tag : Nat) : exec (.chRetire inst tag) s = execChRetire inst tag s := rfl
@[simp] theorem exec_pairHeartbeat (h : PHdr) (role : Nat) (mode : Nat) (pairState : Nat) (hubOk : Bool) (lastAccept : Nat) (time : Nat) (reachable : Nat) (serial : Nat) (usable : Bool) (source : Nat) :
    exec (.pairHeartbeat h role mode pairState hubOk lastAccept time reachable serial usable source) s = execPairHeartbeat h role mode pairState hubOk lastAccept time reachable serial usable source s := rfl
@[simp] theorem exec_pairHeartbeatSend : exec .pairHeartbeatSend s = execPairHeartbeatSend s := rfl
@[simp] theorem exec_jrnlCopy (h : PHdr) (entries : List JEntry) :
    exec (.jrnlCopy h entries) s = execJrnlCopy h entries s := rfl
@[simp] theorem exec_jrnlAck (h : PHdr) (held : Nat) : exec (.jrnlAck h held) s = execJrnlAck h held s := rfl
@[simp] theorem exec_jrnlMark (h : PHdr) (committed : Nat) (freed : Nat) :
    exec (.jrnlMark h committed freed) s = execJrnlMark h committed freed s := rfl
@[simp] theorem exec_stagedData (h : PHdr) (addr : Nat) (off : Nat) (octets : Bytes) :
    exec (.stagedData h addr off octets) s = execStagedData h addr off octets s := rfl
@[simp] theorem exec_legCkpt (h : PHdr) (c : LegCkpt) : exec (.legCkpt h c) s = execLegCkpt h c s := rfl
@[simp] theorem exec_sync (h : PHdr) (part : Nat) (total : Nat) (snap : Option Snapshot) :
    exec (.sync h part total snap) s = execSync h part total snap s := rfl
@[simp] theorem exec_role (h : PHdr) (peer : Nat) (mine : Nat) (epoch : Nat) (finals : List (Nat × Nat × Nat)) :
    exec (.role h peer mine epoch finals) s = execRole h peer mine epoch finals s := rfl
@[simp] theorem exec_relayDown (h : PHdr) (frameTime : Nat) (samples : List (List Int)) :
    exec (.relayDown h frameTime samples) s = execRelayDown h frameTime samples s := rfl
@[simp] theorem exec_relayUp (h : PHdr) (trunk : Fin 8) (block : Fin 4) (frameTime : Nat) (valid : Nat) (samples : List (List Int)) :
    exec (.relayUp h trunk block frameTime valid samples) s = execRelayUp h trunk block frameTime valid samples s := rfl
@[simp] theorem exec_relayMsg (h : PHdr) (toField : Bool) (m : LMsg) :
    exec (.relayMsg h toField m) s = execRelayMsg h toField m s := rfl
@[simp] theorem exec_pairTimeEcho (h : PHdr) (sent : Nat) (holdPs : Nat) :
    exec (.pairTimeEcho h sent holdPs) s = execPairTimeEcho h sent holdPs s := rfl
@[simp] theorem exec_pairResend : exec .pairResend s = execPairResend s := rfl
@[simp] theorem exec_pairLinkDown : exec .pairLinkDown s = execPairLinkDown s := rfl
@[simp] theorem exec_pairLinkUp : exec .pairLinkUp s = execPairLinkUp s := rfl
@[simp] theorem exec_beacon (serial : Nat) (role : Nat) (mode : Nat) (hubLost : Bool) (take : Bool) (yield_ : Bool) (epoch : Nat) (reachable : Nat) (m : Nat) :
    exec (.beacon serial role mode hubLost take yield_ epoch reachable m) s = execBeacon serial role mode hubLost take yield_ epoch reachable m s := rfl
@[simp] theorem exec_beaconTimeout : exec .beaconTimeout s = execBeaconTimeout s := rfl
@[simp] theorem exec_splitSettle (reach : Nat) : exec (.splitSettle reach) s = execSplitSettle reach s := rfl
@[simp] theorem exec_masterSwitch : exec .masterSwitch s = execMasterSwitch s := rfl
@[simp] theorem exec_takeTimeout : exec .takeTimeout s = execTakeTimeout s := rfl
@[simp] theorem exec_pairStartTimeout (reach : Nat) : exec (.pairStartTimeout reach) s = execPairStartTimeout reach s := rfl
@[simp] theorem exec_switchover (inst : Inst) (tag : Nat) : exec (.switchover inst tag) s = execSwitchover inst tag s := rfl
@[simp] theorem exec_forceActive (inst : Inst) (tag : Nat) :
    exec (.forceActive inst tag) s = execForceActive inst tag s := rfl
@[simp] theorem exec_bridgeBeacon (serial : Nat) (role : Nat) (mode : Nat) (hubLost : Bool) (take : Bool) (yield_ : Bool) (epoch : Nat) (reachable : Nat) :
    exec (.bridgeBeacon serial role mode hubLost take yield_ epoch reachable) s = execBridgeBeacon serial role mode hubLost take yield_ epoch reachable s := rfl
@[simp] theorem exec_bridgeBeaconTimer : exec .bridgeBeaconTimer s = execBridgeBeaconTimer s := rfl
@[simp] theorem exec_coldBoot (rolePin : Bool) : exec (.coldBoot rolePin) s = execColdBoot rolePin s := rfl
@[simp] theorem exec_bootStepComplete (channels : List ChFact) (cells : Nat) :
    exec (.bootStepComplete channels cells) s = execBootStepComplete channels cells s := rfl
@[simp] theorem exec_coreBrownout : exec .coreBrownout s = execCoreBrownout s := rfl
@[simp] theorem exec_stormFlashCopy : exec .stormFlashCopy s = execStormFlashCopy s := rfl
@[simp] theorem exec_stormClear (inst : Inst) (tag : Nat) : exec (.stormClear inst tag) s = execStormClear inst tag s := rfl
@[simp] theorem exec_returnPrep (inst : Inst) (tag : Nat) : exec (.returnPrep inst tag) s = execReturnPrep inst tag s := rfl
@[simp] theorem exec_vaneEn (inst : Inst) (tag : Nat) (on : Bool) :
    exec (.vaneEn inst tag on) s = execVaneEn inst tag on s := rfl
@[simp] theorem exec_bypass : exec .bypass s = execBypass s := rfl
@[simp] theorem exec_idcode : exec .idcode s = execIdcode s := rfl
@[simp] theorem exec_samplePreload : exec .samplePreload s = execSamplePreload s := rfl
@[simp] theorem exec_extest : exec .extest s = execExtest s := rfl
@[simp] theorem exec_extestPulse : exec .extestPulse s = execExtestPulse s := rfl
@[simp] theorem exec_extestTrain : exec .extestTrain s = execExtestTrain s := rfl
@[simp] theorem exec_clamp : exec .clamp s = execClamp s := rfl
@[simp] theorem exec_highz : exec .highz s = execHighz s := rfl
@[simp] theorem exec_testUnlock (tmode : Bool) : exec (.testUnlock tmode) s = execTestUnlock tmode s := rfl
@[simp] theorem exec_buttonPress (node : Nat) (code : Fin 16) :
    exec (.buttonPress node code) s = execButtonPress node code s := rfl
@[simp] theorem exec_sapFrame (n : Fin 8) (di : List Int) : exec (.sapFrame n di) s = execSapFrame n di s := rfl
@[simp] theorem exec_ref10mInEdge : exec .ref10mInEdge s = execRef10mInEdge s := rfl
@[simp] theorem exec_ptpDelayReqInterval : exec .ptpDelayReqInterval s = execPtpDelayReqInterval s := rfl
@[simp] theorem exec_ptpAnnounceInterval : exec .ptpAnnounceInterval s = execPtpAnnounceInterval s := rfl
@[simp] theorem exec_replayDone (locked : Bool) (lost : List Nat) :
    exec (.replayDone locked lost) s = execReplayDone locked lost s := rfl
@[simp] theorem exec_pcieLinkUp : exec .pcieLinkUp s = execPcieLinkUp s := rfl
@[simp] theorem exec_mgmtLinkChange (state : Fin 3) : exec (.mgmtLinkChange state) s = execMgmtLinkChange state s := rfl
@[simp] theorem exec_lanokCrcFailure (hub : Bool) (foreign : Bool) :
    exec (.lanokCrcFailure hub foreign) s = execLanokCrcFailure hub foreign s := rfl
@[simp] theorem exec_fieldSupplyLoss : exec .fieldSupplyLoss s = execFieldSupplyLoss s := rfl
@[simp] theorem exec_vddIoRise : exec .vddIoRise s = execVddIoRise s := rfl
@[simp] theorem exec_vddIoRemoved : exec .vddIoRemoved s = execVddIoRemoved s := rfl
@[simp] theorem exec_rstNLow : exec .rstNLow s = execRstNLow s := rfl

end Sys2Proof.Machine
end

