-- ==== Sys2Proof/Laws/Engine.lean ====
section
/-! SUPPORT. The instruction of a running kernel: what an issue comes to once its word and its bank are known. -/
set_option Elab.async false
namespace Sys2Proof.Machine

variable {s : State} {me : Nat} {tick : Bool} {b : Bank} {w op : Nat}

theorem issuing_parts (h : issuing s me tick b w = true) :
    activeBank s me = some (tick, b) ∧ b.stall.isSome = false ∧ fetchWord s b.kernel b.pc = some w := by
  simp only [issuing, Bool.and_eq_true, decide_eq_true_eq, Option.isNone_iff_eq_none] at h
  refine ⟨h.1.1, ?_, h.2⟩
  rw [h.1.2]
  rfl

theorem issuingPar_parts (h : issuingPar s me tick b w op = true) :
    issuing s me tick b w = true ∧ wFmt w = 0 ∧ wOp w = op ∧ parFault s tick b w = none := by
  simp only [issuingPar, Bool.and_eq_true, beq_iff_eq, Option.isNone_iff_eq_none] at h
  exact ⟨h.1.1.1, h.1.1.2, h.1.2, h.2⟩

theorem issuingCtl_parts (h : issuingCtl s me tick b w op = true) :
    issuing s me tick b w = true ∧ wFmt w = 1 ∧ wOp w = op := by
  simp only [issuingCtl, Bool.and_eq_true, beq_iff_eq] at h
  exact ⟨h.1.1, h.1.2, h.2⟩

/-- An issue whose word passes the test runs its action. -/
theorem onIssue_of (h : issuing s me tick b w = true) {ok : Nat → Bool} (hw : ok w = true)
    (f : Bool → Bank → Nat → State → State) : onIssue me ok f s = f tick b w s := by
  obtain ⟨h1, h2, h3⟩ := issuing_parts h
  simp only [onIssue, h1, h2, h3, hw, if_true, Bool.false_eq_true, if_false]

/-- A PAR instruction issues. -/
theorem issuePar_issued (h : issuingPar s me tick b w op = true) (lat : Nat) (ws : Nat → Bank → List RegWrite) :
    issuePar op lat ws me s = parIssued me tick b w lat (ws w b) s := by
  obtain ⟨h1, h2, h3, h4⟩ := issuingPar_parts h
  rw [issuePar, onIssue_of h1 (by rw [h2, h3, beq_self_eq_true, beq_self_eq_true]; rfl)]
  rw [h4]
  rfl

/-- A control instruction issues. -/
theorem issueCtl_issued (h : issuingCtl s me tick b w op = true) (ws : Nat → Bank → List RegWrite) :
    issueCtl op ws me s = ctlIssued me tick b (ws w b) s := by
  obtain ⟨h1, h2, h3⟩ := issuingCtl_parts h
  rw [issueCtl, onIssue_of h1 (by rw [h2, h3, beq_self_eq_true, beq_self_eq_true]; rfl)]
  rfl

end Sys2Proof.Machine
end

