-- ==== Sys2Proof/Laws/Memory.lean ====
section
/-! SUPPORT. The hub memory (R372): an octet written reads back, every other octet is untouched. -/
set_option Elab.async false
namespace Sys2Proof.Machine

/-- One octet as it reads. -/
theorem memRead_one (s : State) (a : Nat) : memRead s a 1 = [tabGet (memDefault s a) s.mem.cells a] := by
  simp [memRead]

/-- Writing octets changes neither what an unlisted octet reads as nor any other part of the state. -/
theorem memWrite_epoch (b : Bytes) (addr : Nat) (s : State) : (memWrite addr b s).mem.epoch = s.mem.epoch := by
  induction b generalizing addr s with
  | nil => rfl
  | cons x b ih => exact ih _ _

theorem memDefault_congr {s t : State} (h : t.mem.epoch = s.mem.epoch) (k : t.mem.staging = s.mem.staging) (a : Nat) :
    memDefault t a = memDefault s a := by
  unfold memDefault
  rw [h, k]

/-- What an octet reads as. -/
def octet (s : State) (a : Nat) : Byte := tabGet (memDefault s a) s.mem.cells a

theorem memRead_eq (s : State) (a n : Nat) : memRead s a n = (List.range n).map (fun i => octet s (a + i)) := rfl

theorem octet_step_same {s : State} (h : tabSorted s.mem.cells = true) (addr : Nat) (x : Byte) :
    octet { s with mem.cells := tabSet (memDefault s addr) s.mem.cells addr x } addr = x :=
  tabGet_tabSet_same _ _ _ _ h

theorem octet_step_other (s : State) {addr a : Nat} (h : a ≠ addr) (x : Byte) :
    octet { s with mem.cells := tabSet (memDefault s addr) s.mem.cells addr x } a = octet s a :=
  tabGet_tabSet_other _ _ _ _ _ _ h

/-- An octet outside the written ones reads as before. -/
theorem octet_memWrite_other (b : Bytes) (addr a : Nat) (s : State) (h : a < addr ∨ addr + b.length ≤ a) :
    octet (memWrite addr b s) a = octet s a := by
  induction b generalizing addr s with
  | nil => rfl
  | cons x b ih =>
    rw [List.length_cons] at h
    unfold memWrite
    rw [ih _ _ (by omega), octet_step_other s (by omega)]

/-- A written octet reads back. -/
theorem octet_memWrite_same (b : Bytes) (addr i : Nat) (s : State) (h : tabSorted s.mem.cells = true) (hi : i < b.length) :
    octet (memWrite addr b s) (addr + i) = b[i] := by
  induction b generalizing addr i s with
  | nil => exact absurd hi (Nat.not_lt_zero i)
  | cons x b ih =>
    unfold memWrite
    cases i with
    | zero =>
      rw [octet_memWrite_other b _ _ _ (Or.inl (by omega)), Nat.add_zero, octet_step_same h]
      rfl
    | succ i =>
      rw [show addr + (i + 1) = addr + 1 + i by omega, ih _ _ _ (tabSorted_tabSet _ _ _ _ h) (by simpa using hi)]
      rfl

end Sys2Proof.Machine
end

