-- ==== Sys2Proof/Laws/Wire.lean ====
section
/-! SUPPORT. Lengths of the octets of frames, and the arithmetic of the Internet checksum. -/
set_option Elab.async false
namespace Sys2Proof.Machine

@[simp] theorem leBytes_length (n v : Nat) : (leBytes n v).length = n := by
  induction n generalizing v with
  | zero => rfl
  | succ n ih => simp [leBytes, ih]

@[simp] theorem beOctets_length (n v : Nat) : (beOctets n v).length = n := by simp [beOctets]

@[simp] theorem slice_length (b : Bytes) (off n : Nat) : (slice b off n).length = n := by
  simp only [slice, List.length_append, List.length_take, List.length_drop, List.length_replicate]; omega

/-- The sum of octets after an even number of others. -/
theorem wordSum_append : ∀ a b : Bytes, a.length % 2 = 0 → wordSum (a ++ b) = wordSum a + wordSum b
  | [], b, _ => by simp [wordSum]
  | [_], _, h => by simp at h
  | x :: y :: t, b, h => by
    have := wordSum_append t b (by simp only [List.length_cons] at h; omega)
    simp only [List.cons_append, wordSum, this]; omega

/-- A 16-bit field in network byte order is summed as itself. -/
theorem wordSum_word {c : Nat} (h : c < 65536) : wordSum (beOctets 2 c) = c := by
  simp [beOctets, leBytes, wordSum]; omega

theorem inetSum_lt (b : Bytes) : inetSum b < 65536 := Nat.lt_succ_of_le (Nat.sub_le _ _)

/-- Octets check once their checksum stands in a field that was summed as 0; FFFFh stands for a checksum of 0. -/
theorem inetSum_field {h t : Bytes} {c : Nat} (hl : h.length % 2 = 0) (h0 : wordSum h ≠ 0)
    (hc : c = if inetSum (h ++ [0, 0] ++ t) = 0 then 65535 else inetSum (h ++ [0, 0] ++ t)) :
    inetSum (h ++ beOctets 2 c ++ t) = 0 ∧ inetSum (h ++ beOctets 2 (inetSum (h ++ [0, 0] ++ t)) ++ t) = 0 := by
  have e := inetSum_lt (h ++ [0, 0] ++ t)
  have hs : wordSum (h ++ [0, 0] ++ t) = wordSum h + wordSum t := by
    rw [List.append_assoc, wordSum_append _ _ hl]; simp [wordSum]
  have sum : ∀ x, x < 65536 → wordSum (h ++ beOctets 2 x ++ t) = wordSum h + wordSum t + x := by
    intro x hx
    rw [List.append_assoc, wordSum_append _ _ hl, wordSum_append _ _ (by simp), wordSum_word hx]; omega
  have ec : c < 65536 := by rw [hc]; split <;> omega
  have pos : 0 < wordSum h + wordSum t := by omega
  have val : inetSum (h ++ [0, 0] ++ t) = 65535 - ((wordSum h + wordSum t - 1) % 65535 + 1) := by
    simp only [inetSum, hs, if_neg (Nat.pos_iff_ne_zero.mp pos)]
  have closes : ∀ x, x < 65536 →
      x = 65535 - ((wordSum h + wordSum t - 1) % 65535 + 1) ∨ (wordSum h + wordSum t - 1) % 65535 = 65534 ∧ x = 65535 →
      inetSum (h ++ beOctets 2 x ++ t) = 0 := by
    intro x hx hv
    simp only [inetSum, sum x hx, if_neg (show ¬wordSum h + wordSum t + x = 0 by omega)]
    omega
  refine ⟨closes c ec ?_, closes _ e (.inl val)⟩
  rw [val] at hc
  split at hc <;> omega

/-- A header extension block is made of whole words. -/
theorem extOctets_length (els : List (Nat × Bytes)) : (extOctets els).length % 4 = 0 := by
  unfold extOctets
  split
  · rfl
  · simp only [List.length_append, beOctets_length, slice_length]; omega

end Sys2Proof.Machine
end

