-- ==== Sys2Proof/Tests/Slice0.lean ====
section
/-! SUPPORT. Own tests: the checks of well-formedness refuse an ill-formed command each; no word spells a command; for every
statement, a state and operands that meet the hypotheses of each of its clauses. -/
set_option Elab.async false
namespace Sys2Proof.Tests
open Sys2Proof Sys2Proof.Machine

/-! ## Well-formedness: one ill-formed command for each check -/

theorem test_wf_refuses_0 : (
  [.registerWrite 1 0 4 0, .registerWrite 1 0 4 0, .registerWrite 0 0 3 0, .registerWrite 0 0 3 0,
   .badRegisterAccess 256 0 0 false, .badRegisterAccess 0 1 0 false, .badRegisterAccess 0 1 0 false, .nowLoRead 256,
   .isbStep { tr := 5 } 0 0, .isbStep { tr := 1, seq := 4294967296 } 0 0, .isbStep { tr := 0, sub := 4 } 0 0,
   .isbStep { tr := 4, sub := 16384 } 0 0, .isbStep { tr := 1, sub := 1 } 0 0, .isbStep { tr := 1 } 65536 0,
   .isbStep { tr := 1 } 0 18446744073709551616, .todSet { tr := 5 } 0 0, .todSet { tr := 1 } 65536 0,
   .todSet { tr := 1 } 0 18446744073709551616, .launchArm 0 4294967296, .launchCancel 0 (some { tr := 5 }) 0,
   .launchCancel 0 none 65536, .launchWindowWrite 0 0 [0, 0, 0], .launchRecord { tr := 5 } 0 { time := 0, typ := 1 },
   .launchRecord { tr := 1 } 65536 { time := 0, typ := 1 },
   .launchRecord { tr := 1 } 0 { time := 18446744073709551616, typ := 1 },
   .launchRecord { tr := 1 } 0 { time := 0, typ := 1, frac := 65536 },
   .launchRecord { tr := 1 } 0 { time := 0, typ := 256 }, .launchRecord { tr := 1 } 0 { time := 0, typ := 1, flags := 256 },
   .launchRecord { tr := 1 } 0 { time := 0, typ := 1, target := 65536 },
   .launchRecord { tr := 1 } 0 { time := 0, typ := 1, arg := 18446744073709551616 },
   .launchRecord { tr := 1 } 0 { time := 0, typ := 1, period := 18446744073709551616 }, .launchCommit 65536,
   .launchWakeLead 65536, .nodeActionOff 16384, .nodeActionOn 16384, .nodeActionLed 16384, .slotAssign 16384,
   .slotRelease 16384, .selectChannel 16384, .nodeActionGain 16384, .launchCmd { seq := 65536, ack := 0 } 0 none,
   .launchCmd { seq := 0, ack := 65536 } 0 none, .launchCmd { seq := 0, ack := 0 } 65536 none,
   .launchCmd { seq := 0, ack := 0 } 0 (some { time := 0, typ := 256 }), .launchReport { seq := 65536, ack := 0 } 0 0 3 0 0,
   .launchReport { seq := 0, ack := 0 } 65536 0 3 0 0, .launchReport { seq := 0, ack := 0 } 0 8 3 0 0,
   .launchReport { seq := 0, ack := 0 } 0 0 2 0 0] : List Instr).all (fun i => !i.wf) = true := by decide +kernel

theorem test_wf_refuses_1 : (
  [.launchReport { seq := 0, ack := 0 } 0 0 7 0 0, .ppsEn { tr := 5 } 0 0 false, .ppsEn { tr := 1 } 65536 0 false,
   .lxEn { tr := 5 } 0 0 false, .lxEn { tr := 1 } 65536 0 false, .nodeEventResend 16384,
   .heartbeat false { seq := 65536, ack := 0 } 0 0 0 0, .heartbeat false { seq := 0, ack := 0 } 256 0 0 0,
   .heartbeat false { seq := 0, ack := 0 } 0 256 0 0, .heartbeat false { seq := 0, ack := 0 } 0 0 0 4294967296,
   .timeXfer { seq := 65536, ack := 0 } 0 0 0 0, .timeXfer { seq := 0, ack := 0 } 0 65536 0 0,
   .timeEcho false { seq := 65536, ack := 0 } 0 0, .wake { seq := 65536, ack := 0 } 0 0 0,
   .audioUp { seq := 65536, ack := 0 } 0 0 0 0 (List.replicate 8 (List.replicate 6 0)),
   .audioUp { seq := 0, ack := 0 } 0 0 18446744073709551616 0 (List.replicate 8 (List.replicate 6 0)),
   .audioUp { seq := 0, ack := 0 } 0 0 0 0 [],
   .audioUp { seq := 0, ack := 0 } 0 0 0 0 (List.replicate 8 (List.replicate 5 0)),
   .audioDown { seq := 65536, ack := 0 } 0 (List.replicate 64 (List.replicate 6 0)),
   .audioDown { seq := 0, ack := 0 } 18446744073709551616 (List.replicate 64 (List.replicate 6 0)),
   .audioDown { seq := 0, ack := 0 } 0 [], .audioDown { seq := 0, ack := 0 } 0 (List.replicate 64 (List.replicate 5 0)),
   .nodeEvent { seq := 65536, ack := 0 } 0 0 0, .nodeEvent { seq := 0, ack := 0 } 16384 0 0,
   .nodeEvent { seq := 0, ack := 0 } 0 16 0, .nodeEvent { seq := 0, ack := 0 } 0 0 18446744073709551616,
   .nodeClear { seq := 65536, ack := 0 } 0, .nodeClear { seq := 0, ack := 0 } 16384, .nodeAck { seq := 65536, ack := 0 } 0,
   .nodeAck { seq := 0, ack := 0 } 16384, .dictReq { seq := 65536, ack := 0 } { tr := 1 } [],
   .dictReq { seq := 0, ack := 0 } { tr := 5 } [], .dictRsp { seq := 65536, ack := 0 } { tr := 1 } [],
   .dictRsp { seq := 0, ack := 0 } { tr := 5 } [], .power false { seq := 65536, ack := 0 } 0 0,
   .power false { seq := 0, ack := 0 } 5 0, .enumerate { tr := 5 } 0 0, .enumerate { tr := 1 } 65536 0, .hopDown 0 2048,
   .loopbackRemove 0 2048, .softStartEnd 0 0 65536, .overcurrentTrip 0 0 65536, .pwrClear { tr := 5 } 0 0 0,
   .pwrClear { tr := 1 } 65536 0 0, .hdMicCloseEnd 16384, .canFrame 0 2048 {} false [],
   .canFrame 0 0 {} false (List.replicate 65 0), .canFrame 0 0 {} false (List.replicate 9 0)] : List Instr).all (fun i => !i.wf) = true := by decide +kernel

theorem test_wf_refuses_2 : (
  [.read { tr := 5 } 0 0 0, .read { tr := 1 } 65536 0 0, .read { tr := 1 } 0 65536 0, .read { tr := 1 } 0 0 256,
   .write { tr := 5 } 0 0 0 [], .write { tr := 1 } 65536 0 0 [], .write { tr := 1 } 0 65536 0 [],
   .write { tr := 1 } 0 0 256 [], .write { tr := 1 } 0 0 0 (List.replicate 249 0), .groupWrite { tr := 5 } 0 0 0 [],
   .groupWrite { tr := 1 } 65536 0 0 [], .groupWrite { tr := 1 } 0 65536 0 [], .groupWrite { tr := 1 } 0 0 256 [],
   .groupWrite { tr := 1 } 0 0 0 (List.replicate 249 0), .blobOpenWrite { tr := 5 } 0 0 0 0,
   .blobOpenWrite { tr := 1 } 65536 0 0 0, .blobOpenWrite { tr := 1 } 0 65536 0 0, .blobOpenWrite { tr := 1 } 0 0 256 0,
   .blobOpenWrite { tr := 1 } 0 0 0 4294967296, .blobOpenRead { tr := 5 } 0 0 0, .blobOpenRead { tr := 1 } 65536 0 0,
   .blobOpenRead { tr := 1 } 0 65536 0, .blobOpenRead { tr := 1 } 0 0 256, .blobData { tr := 5 } 0 0 0 [],
   .blobData { tr := 1 } 65536 0 0 [], .blobData { tr := 1 } 0 65536 0 [], .blobData { tr := 1 } 0 0 256 [],
   .blobData { tr := 1 } 0 0 0 (List.replicate 249 0), .blobClose { tr := 5 } 0 0 0 [], .blobClose { tr := 1 } 65536 0 0 [],
   .blobClose { tr := 1 } 0 65536 0 [], .blobClose { tr := 1 } 0 0 256 [],
   .blobClose { tr := 1 } 0 0 0 (List.replicate 249 0), .abort { tr := 5 } 0 0 0, .abort { tr := 1 } 65536 0 0,
   .abort { tr := 1 } 0 65536 0, .abort { tr := 1 } 0 0 256, .cmdComplete 65536 0 0, .cmdComplete 0 256 0,
   .groupTimeout { tr := 5 }, .blobTimeout { tr := 5 }, .udpDictDatagram [0] 0 false [],
   .udpDictDatagram [0, 0, 0, 0] 65536 false [], .warmReset { tr := 5 } 0, .warmReset { tr := 1 } 65536,
   .factoryReset { tr := 5 } 0, .factoryReset { tr := 1 } 65536, .modeRequest { tr := 5 } 0 0] : List Instr).all (fun i => !i.wf) = true := by decide +kernel

theorem test_wf_refuses_3 : (
  [.modeRequest { tr := 1 } 65536 0, .modeRequest { tr := 1 } 0 256, .sqTailWrite 0 4294967296, .sqErrRead 256 0,
   .acceptLoRead 256, .workEnqueue 20 { typ := 1 }, .workEnqueue 0 { typ := 65536 },
   .workEnqueue 0 { typ := 1, level := 256 }, .workEnqueue 0 { typ := 1, flags := 256 },
   .workEnqueue 0 { typ := 1, flow := 65536 }, .workEnqueue 0 { typ := 1, affinity := 256 },
   .workEnqueue 0 { typ := 1, cls := 256 }, .workEnqueue 0 { typ := 1, delay := 4294967296 },
   .workEnqueue 0 { typ := 1, dedup := 18446744073709551616 }, .workEnqueue 0 { typ := 1, payload := List.replicate 33 0 },
   .fwStage { tr := 5 } 0 [], .fwStage { tr := 1 } 65536 [], .fwActivate { tr := 5 } 0, .fwActivate { tr := 1 } 65536,
   .schedStatsClear { tr := 5 } 0, .schedStatsClear { tr := 1 } 65536, .kunload { tr := 5 } 0 0,
   .kunload { tr := 1 } 65536 0, .bEn { tr := 5 } 0 0 false, .bEn { tr := 1 } 65536 0 false, .tEn { tr := 5 } 0 0 false,
   .tEn { tr := 1 } 65536 0 false, .sapEn { tr := 5 } 0 0 false, .sapEn { tr := 1 } 65536 0 false,
   .staleFadeExpiry false 64, .epEn { tr := 5 } 0 false 0 false, .epEn { tr := 1 } 65536 false 0 false,
   .bar2Write 67108864 4 0, .bar2Write 0 3 0, .bar2Write 0 3 0, .xpCopy { tr := 5 } 0 0, .xpCopy { tr := 1 } 65536 0,
   .xpCopy { tr := 1 } 0 3, .xpPreset { tr := 5 } 0, .xpPreset { tr := 1 } 65536, .meterClr { tr := 5 } 0,
   .meterClr { tr := 1 } 65536, .lmReset { tr := 5 } 0 0, .lmReset { tr := 1 } 65536 0, .tmGrant { tr := 5 } 0 0,
   .tmGrant { tr := 1 } 65536 0, .tmGrant { tr := 1 } 0 65536, .tmClose { tr := 5 } 0 0] : List Instr).all (fun i => !i.wf) = true := by decide +kernel

theorem test_wf_refuses_4 : (
  [.tmClose { tr := 1 } 65536 0, .tmClose { tr := 1 } 0 65536, .tmClearQueue { tr := 5 } 0, .tmClearQueue { tr := 1 } 65536,
   .deskEn { tr := 5 } 0 0 false, .deskEn { tr := 1 } 65536 0 false, .voiceHangExpiry 20480, .languageFallback 0,
   .languageFallback 32, .ethFrameReceived 0 { len := 60, arrival := 0, dst := 281474976710656, body := .other },
   .ethFrameReceived 0 { len := 60, arrival := 0, dst := 0, body := .other, src := 281474976710656 },
   .ethFrameReceived 0 { len := 60, arrival := 0, dst := 0, body := .other, tag := some (4096, 0) },
   .ethFrameReceived 0 { len := 60, arrival := 0, dst := 0, body := .other, tag := some (0, 8) },
   .mgmtFrameReceived { len := 60, arrival := 0, dst := 281474976710656, body := .other }, .pauseReceived 0 65536,
   .pfcReceived 0 256 (List.replicate 8 0), .pfcReceived 0 0 [], .portEn { tr := 5 } 0 0 false,
   .portEn { tr := 1 } 65536 0 false, .qFlush { tr := 5 } 0, .qFlush { tr := 1 } 65536, .poolTest { tr := 5 } 0,
   .poolTest { tr := 1 } 65536, .shaperConforming 20480, .estimateUpdate 20480, .authFailSecond 20480,
   .legEn { tr := 5 } 0 0 false, .legEn { tr := 1 } 65536 0 false, .legEn { tr := 1 } 0 20480 false,
   .legCtrlEnable { tr := 5 } 0 0 0, .legCtrlEnable { tr := 1 } 65536 0 0, .legCtrlEnable { tr := 1 } 0 20480 0,
   .legCtrlEnable { tr := 1 } 0 0 4294967296, .legCtrlDisable { tr := 5 } 0 0 0, .legCtrlDisable { tr := 1 } 65536 0 0,
   .legCtrlDisable { tr := 1 } 0 20480 0, .legCtrlDisable { tr := 1 } 0 0 4294967296, .legCtrlSpeak { tr := 5 } 0 0 0,
   .legCtrlSpeak { tr := 1 } 65536 0 0, .legCtrlSpeak { tr := 1 } 0 20480 0, .legCtrlSpeak { tr := 1 } 0 0 4294967296,
   .legCtrlCancel { tr := 5 } 0 0 0, .legCtrlCancel { tr := 1 } 65536 0 0, .legCtrlCancel { tr := 1 } 0 20480 0,
   .legCtrlCancel { tr := 1 } 0 0 4294967296, .legCtrlSetSource { tr := 5 } 0 0 0 0 0,
   .legCtrlSetSource { tr := 1 } 65536 0 0 0 0, .legCtrlSetSource { tr := 1 } 0 20480 0 0 0] : List Instr).all (fun i => !i.wf) = true := by decide +kernel

theorem test_wf_refuses_5 : (
  [.legCtrlSetSource { tr := 1 } 0 0 4294967296 0 0, .legCtrlSetSource { tr := 1 } 0 0 0 256 0,
   .legCtrlSetSource { tr := 1 } 0 0 0 0 65536, .legCtrlSetMax { tr := 5 } 0 0 0 0 0,
   .legCtrlSetMax { tr := 1 } 65536 0 0 0 0, .legCtrlSetMax { tr := 1 } 0 20480 0 0 0,
   .legCtrlSetMax { tr := 1 } 0 0 4294967296 0 0, .legCtrlSetMax { tr := 1 } 0 0 0 256 0,
   .legCtrlSetMax { tr := 1 } 0 0 0 0 256, .legCtrlRefresh { tr := 5 } 0 0 0 0, .legCtrlRefresh { tr := 1 } 65536 0 0 0,
   .legCtrlRefresh { tr := 1 } 0 20480 0 0, .legCtrlRefresh { tr := 1 } 0 0 4294967296 0,
   .legCtrlRefresh { tr := 1 } 0 0 0 256, .decEn { tr := 5 } 0 0 false, .decEn { tr := 1 } 65536 0 false,
   .encEn { tr := 5 } 0 0 false, .encEn { tr := 1 } 65536 0 false, .refresh { tr := 5 } 0 0, .refresh { tr := 1 } 65536 0,
   .layerTableBar2Write 0 0 false, .layerTableBar2Write 67108864 0 false, .layerTableBar2Write 16777216 4294967296 false,
   .layerCopy { tr := 5 } 0 0, .layerCopy { tr := 1 } 65536 0, .outEn { tr := 5 } 0 0 false,
   .outEn { tr := 1 } 65536 0 false, .ovlBase { tr := 5 } 0 0 0, .ovlBase { tr := 1 } 65536 0 0,
   .ovlBase { tr := 1 } 0 0 18446744073709551616, .curLoRead 0 256, .dmaEn { tr := 5 } 0 0 false,
   .dmaEn { tr := 1 } 65536 0 false, .memRequest [{ requester := 1, addr := 0, channel := some 4 }],
   .memRequest [{ requester := 18, addr := 0 }], .memRequest [{ requester := 1, addr := 281474976710656 }],
   .memRequest [{ requester := 1, addr := 17179869184, channel := some 0 }], .memStatsClear { tr := 5 } 0,
   .memStatsClear { tr := 1 } 65536,
   .keyLoad { kind := 256, target := 0, key := List.replicate 32 0, salt := List.replicate 12 0 },
   .keyLoad { kind := 1, target := 65536, key := List.replicate 32 0, salt := List.replicate 12 0 },
   .keyLoad { kind := 1, target := 0, key := List.replicate 32 0, salt := List.replicate 12 0, alg := 256 },
   .keyLoad { kind := 1, target := 0, key := List.replicate 32 0, salt := List.replicate 12 0, owner := 256 },
   .keyLoad { kind := 1, target := 0, key := List.replicate 32 0, salt := List.replicate 12 0, limitLog2 := 256 },
   .keyLoad { kind := 1, target := 0, key := List.replicate 32 0, salt := List.replicate 12 0, pad := 256 },
   .keyLoad { kind := 1, target := 0, key := List.replicate 32 0, salt := List.replicate 12 0, timing := 18446744073709551616 },
   .keyLoad { kind := 1, target := 0, key := List.replicate 31 0, salt := List.replicate 12 0 },
   .keyLoad { kind := 1, target := 0, key := List.replicate 32 0, salt := List.replicate 13 0 }] : List Instr).all (fun i => !i.wf) = true := by decide +kernel

theorem test_wf_refuses_6 : (
  [.keyErase { kind := 256, target := 0, key := List.replicate 32 0, salt := List.replicate 12 0 },
   .keyLoadNext { kind := 256, target := 0, key := List.replicate 32 0, salt := List.replicate 12 0 },
   .sealRequest { op := 256, slot := 0 }, .sealRequest { op := 1, slot := 256 },
   .sealRequest { op := 1, slot := 0, source := 4 }, .sealRequest { op := 1, slot := 0, tagLen := 256 },
   .sealRequest { op := 1, slot := 0, flags := 256 }, .sealRequest { op := 1, slot := 0, len := 4294967296 },
   .sealRequest { op := 1, slot := 0, msgAddr := 18446744073709551616 },
   .sealRequest { op := 1, slot := 0, resAddr := 18446744073709551616 },
   .sealRequest { op := 1, slot := 0, reserved := 18446744073709551616 }, .slotErase { tr := 5 } 0 0,
   .slotErase { tr := 1 } 65536 0, .inErase { tr := 5 } 0, .inErase { tr := 1 } 65536, .outErase { tr := 5 } 0,
   .outErase { tr := 1 } 65536, .egressKeyEffective 20480, .prevKeyExpiry 20480, .pdRequestRun { tr := 5 } 0 0,
   .pdRequestRun { tr := 1 } 65536 0, .pdRequestRun { tr := 1 } 0 256, .pdRequestCalm { tr := 5 } 0 0,
   .pdRequestCalm { tr := 1 } 65536 0, .pdRequestCalm { tr := 1 } 0 256, .pdRequestFrost { tr := 5 } 0 0,
   .pdRequestFrost { tr := 1 } 65536 0, .pdRequestFrost { tr := 1 } 0 256, .pdReset { tr := 5 } 0 0,
   .pdReset { tr := 1 } 65536 0, .pdReset { tr := 1 } 0 256, .hubOff { tr := 5 } 0, .hubOff { tr := 1 } 65536,
   .regulatorReady 0 20, .pllLocked 20, .memoryReady 20 [] [], .memoryReady 0 [4] [], .logicReady 20, .wakeStepTimeout 20 0,
   .hostPing { tr := 5 } 0, .hostPing { tr := 1 } 65536, .chClear { tr := 5 } 0, .chClear { tr := 1 } 65536,
   .chRetire { tr := 5 } 0, .chRetire { tr := 1 } 65536,
   .pairHeartbeat { seq := 4294967296, ack := 0, epoch := 0 } 0 0 0 false 0 0 0 0 false 0,
   .pairHeartbeat { seq := 0, ack := 4294967296, epoch := 0 } 0 0 0 false 0 0 0 0 false 0,
   .pairHeartbeat { seq := 0, ack := 0, epoch := 4294967296 } 0 0 0 false 0 0 0 0 false 0] : List Instr).all (fun i => !i.wf) = true := by decide +kernel

theorem test_wf_refuses_7 : (
  [.jrnlCopy { seq := 4294967296, ack := 0, epoch := 0 } [{ accept := 1, cls := 1, act := .launchCancel 3 }],
   .jrnlCopy { seq := 0, ack := 0, epoch := 0 } [],
   .jrnlCopy { seq := 0, ack := 0, epoch := 0 } (List.replicate 17 { accept := 1, cls := 1, act := .launchCancel 3 }),
   .jrnlAck { seq := 4294967296, ack := 0, epoch := 0 } 0, .jrnlMark { seq := 4294967296, ack := 0, epoch := 0 } 0 0,
   .stagedData { seq := 4294967296, ack := 0, epoch := 0 } 0 0 [],
   .stagedData { seq := 0, ack := 0, epoch := 0 } 0 0 (List.replicate 4081 0),
   .legCkpt { seq := 4294967296, ack := 0, epoch := 0 } { leg := 0 },
   .sync { seq := 4294967296, ack := 0, epoch := 0 } 0 0 none, .role { seq := 4294967296, ack := 0, epoch := 0 } 0 0 0 [],
   .role { seq := 0, ack := 0, epoch := 0 } 3 0 0 [], .role { seq := 0, ack := 0, epoch := 0 } 0 3 0 [],
   .role { seq := 0, ack := 0, epoch := 0 } 0 0 4294967296 [],
   .relayDown { seq := 4294967296, ack := 0, epoch := 0 } 0 (List.replicate 64 (List.replicate 6 0)),
   .relayDown { seq := 0, ack := 0, epoch := 0 } 18446744073709551616 (List.replicate 64 (List.replicate 6 0)),
   .relayDown { seq := 0, ack := 0, epoch := 0 } 0 [],
   .relayDown { seq := 0, ack := 0, epoch := 0 } 0 (List.replicate 64 (List.replicate 5 0)),
   .relayUp { seq := 4294967296, ack := 0, epoch := 0 } 0 0 0 0 (List.replicate 8 (List.replicate 6 0)),
   .relayUp { seq := 0, ack := 0, epoch := 0 } 0 0 18446744073709551616 0 (List.replicate 8 (List.replicate 6 0)),
   .relayUp { seq := 0, ack := 0, epoch := 0 } 0 0 0 0 [],
   .relayUp { seq := 0, ack := 0, epoch := 0 } 0 0 0 0 (List.replicate 8 (List.replicate 5 0)),
   .relayMsg { seq := 4294967296, ack := 0, epoch := 0 } false (.nodeClear 0),
   .pairTimeEcho { seq := 4294967296, ack := 0, epoch := 0 } 0 0, .beacon 0 0 0 false false false 4294967296 0 0,
   .switchover { tr := 5 } 0, .switchover { tr := 1 } 65536, .forceActive { tr := 5 } 0, .forceActive { tr := 1 } 65536,
   .bridgeBeacon 0 0 0 false false false 4294967296 0, .bootStepComplete [{ channel := 4 }] 0, .stormClear { tr := 5 } 0,
   .stormClear { tr := 1 } 65536, .returnPrep { tr := 5 } 0, .returnPrep { tr := 1 } 65536, .vaneEn { tr := 5 } 0 false,
   .vaneEn { tr := 1 } 65536 false, .buttonPress 16384 0] : List Instr).all (fun i => !i.wf) = true := by decide +kernel

/-- The same commands with no field out of range. -/
theorem test_wf_accepts : (
  [.registerWrite 0 0 4 0, .badRegisterAccess 0 0 0 false, .nowLoRead 0, .isbStep { tr := 1 } 0 0, .todSet { tr := 1 } 0 0,
   .launchArm 0 0, .launchCancel 0 none 0, .launchWindowWrite 0 0 [0, 0, 0, 0],
   .launchRecord { tr := 1 } 0 { time := 0, typ := 1 }, .launchCommit 0, .launchWakeLead 0, .nodeActionOff 0,
   .nodeActionOn 0, .nodeActionLed 0, .slotAssign 0, .slotRelease 0, .selectChannel 0, .nodeActionGain 0,
   .launchCmd { seq := 0, ack := 0 } 0 none, .launchReport { seq := 0, ack := 0 } 0 0 3 0 0, .ppsEn { tr := 1 } 0 0 false,
   .lxEn { tr := 1 } 0 0 false, .nodeEventResend 0, .heartbeat false { seq := 0, ack := 0 } 0 0 0 0,
   .timeXfer { seq := 0, ack := 0 } 0 0 0 0, .timeEcho false { seq := 0, ack := 0 } 0 0, .wake { seq := 0, ack := 0 } 0 0 0,
   .audioUp { seq := 0, ack := 0 } 0 0 0 0 (List.replicate 8 (List.replicate 6 0)),
   .audioDown { seq := 0, ack := 0 } 0 (List.replicate 64 (List.replicate 6 0)), .nodeEvent { seq := 0, ack := 0 } 0 0 0,
   .nodeClear { seq := 0, ack := 0 } 0, .nodeAck { seq := 0, ack := 0 } 0, .dictReq { seq := 0, ack := 0 } { tr := 1 } [],
   .dictRsp { seq := 0, ack := 0 } { tr := 1 } [], .power false { seq := 0, ack := 0 } 0 0, .enumerate { tr := 1 } 0 0,
   .hopDown 0 0, .loopbackRemove 0 0, .softStartEnd 0 0 0, .overcurrentTrip 0 0 0, .pwrClear { tr := 1 } 0 0 0,
   .hdMicCloseEnd 0, .canFrame 0 0 {} false [], .read { tr := 1 } 0 0 0, .write { tr := 1 } 0 0 0 [],
   .groupWrite { tr := 1 } 0 0 0 [], .blobOpenWrite { tr := 1 } 0 0 0 0, .blobOpenRead { tr := 1 } 0 0 0,
   .blobData { tr := 1 } 0 0 0 [], .blobClose { tr := 1 } 0 0 0 [], .abort { tr := 1 } 0 0 0, .cmdComplete 0 0 0,
   .groupTimeout { tr := 1 }, .blobTimeout { tr := 1 }, .udpDictDatagram [0, 0, 0, 0] 0 false [], .warmReset { tr := 1 } 0,
   .factoryReset { tr := 1 } 0, .modeRequest { tr := 1 } 0 0, .sqTailWrite 0 0, .sqErrRead 0 0]
    : List Instr).all Instr.wf = true := by decide +kernel

/-! ## Words of the table: no row has bits -/

theorem test_word_spells_no_command : decodeTableWord 8 0x13 = none := by decide
theorem test_placing_a_word_changes_nothing : State.reset.withFetchWord 8 0x13 = State.reset := by decide

/-! ## What the statements assume can be met -/

def okOf {ε α : Type} (d : α) : Except ε α → α
  | .ok a => a
  | .error _ => d
theorem okOf_eq {ε α : Type} {d : α} {e : Except ε α} (h : e.isOk = true) : e = .ok (okOf d e) := by
  cases e with
  | ok a => rfl
  | error a => exact absurd h Bool.false_ne_true
theorem pairEq {α β : Type} {a : α × β} {x : α} (h : a.1 = x) : a = (x, a.2) := by subst h; rfl
theorem pairEq2 {α β : Type} {a : α × β} {x : β} (h : a.2 = x) : a = (a.1, x) := by subst h; rfl
/-- A hub that has come up: RUN, replay done. -/
def up : State := wr K.HUB_PSTATE 0 (wr K.SCHED_STATE 0 { State.reset with boot.step := 9 })

/-- A kernel image with code `c`, 16 octets of shared data. -/
def image (c : Bytes) : Bytes :=
  leBytes 4 0x4B4E4C4B ++ leBytes 2 1 ++ leBytes 2 1 ++ List.replicate 4 0 ++ leBytes 4 (c.length / 8) ++ leBytes 4 16
    ++ List.replicate 8 0 ++ leBytes 4 (crc32 c) ++ List.replicate 32 0 ++ c
/-- The bank of a kernel at its start. -/
def run0 : Bank := { running := true }
/-- Engine 0 runs a kernel whose first instruction is `w`. -/
def eng (w : Nat) : State := wrBlob (K.KIMAGE 0) (image (leBytes 8 w)) { State.reset with dsp.mes := [(0, { work := run0 })] }
def item1 : Staged := { it := { typ := 1 } }
def entry1 : JEntry := { accept := 1, cls := 1, act := .launchCancel 3 }
/-- Every domain runs. -/
def allRun : State := (List.range 19).foldl (fun z d => wr (K.PD_STATE d) 0 z) State.reset

theorem hypotheses_met_empty_queue_idles :
    ∃ (s : State), (s.pending = []) :=
  ⟨{ State.reset with pending := [] }, by decide⟩

theorem hypotheses_met_steps_keep_good_order :
    ∃ (s : State) (t : State), (s.inOrder = true) ∧ (step s = .next t) :=
  ⟨State.reset, _, by decide, rfl⟩

theorem hypotheses_met_commands_touch_only_their_parts :
    ∃ (c : Instr) (s : State) (t : State) (p : StatePart), (exec c s = .next t) ∧ (p ∉ touches c) :=
  ⟨.idcode, State.reset, _, .mem, rfl, by decide⟩

theorem hypotheses_met_hub_memory_frame :
    ∃ (c : Instr) (s : State) (t : State), (exec c s = .next t) ∧ (StatePart.octets ∉ touches c) :=
  ⟨.idcode, State.reset, _, rfl, by decide⟩

theorem hypotheses_met_fuse_stays_blown :
    ∃ (n : Nat) (s : State) (t : State), (s.diag.fuse = true) ∧ (Sys2Proof.core.run n s = .next t) :=
  ⟨1, { State.reset with diag.fuse := true }, _, rfl, rfl⟩

theorem hypotheses_met_dictionary_values_read_back :
    regsWf State.reset.regs = true ∧ regsWf (wr K.MODE 7 State.reset).regs = true :=
  ⟨by decide, by decide⟩

theorem hypotheses_met_hub_memory_reads_back :
    Memory.wf State.reset = true ∧ Memory.wf (memWrite 0x1000 [1, 2] State.reset) = true :=
  ⟨by decide, by decide⟩

theorem hypotheses_met_claims_are_exclusive :
    (∃ t, claimsWf State.reset.dic.claims = true ∧ claim 1 0 5 State.reset = some t)
  ∧ (∃ (s : State), (claimsWf s.dic.claims = true)) :=
  ⟨⟨_, by decide, rfl⟩,
    ⟨State.reset, by decide⟩⟩

theorem hypotheses_met_isobar_counts :
    (∃ (s : State) (n : Instant), (1 ≤ s.boot.step) ∧ (rd s K.ISB_STATE ≠ 3) ∧ (rd s K.HUB_PSTATE ≠ 2) ∧
    (rd s K.HUB_PSTATE ≠ 3) ∧ (rd s K.HUB_PSTATE ≠ 4) ∧ (n = (s.isb.now / 0xA000 + 1) * 0xA000))
  ∧ (∃ (s : State) (t : State), (1 ≤ s.boot.step) ∧ (rd s K.ISB_STATE ≠ 3) ∧ (rd s K.HUB_PSTATE ≠ 2) ∧
    (rd s K.HUB_PSTATE ≠ 3) ∧ (rd s K.HUB_PSTATE ≠ 4) ∧ (s.isb.now % 0xA000 = 0) ∧ (exec .isobarFineTick s = .next t)) :=
  ⟨⟨{ up with boot.step := 1 }, _, by decide, by decide, by decide, by decide, by decide, rfl⟩,
    ⟨up, _, by decide, by decide, by decide, by decide, by decide, by decide, rfl⟩⟩

theorem hypotheses_met_isobar_other_clocks :
    (∃ (s : State) (n : Instant), (1 ≤ s.boot.step) ∧ (rd s K.ISB_STATE = 3) ∧ (n = (s.isb.now / 163840 + 1) * 163840))
  ∧ (∃ (s : State) (n : Instant), (1 ≤ s.boot.step) ∧ (rd s K.ISB_STATE ≠ 3) ∧
    (rd s K.HUB_PSTATE = 2 ∨ rd s K.HUB_PSTATE = 3 ∨ rd s K.HUB_PSTATE = 4) ∧ (n = (s.isb.now / 2621440 + 1) * 2621440))
  ∧ (∃ (s : State), (s.boot.step = 0))
  ∧ (∃ (s : State), (s.isb.slew = true) ∧ ((slewLeft s).natAbs < 65536)) :=
  ⟨⟨wr K.ISB_STATE (3) { State.reset with boot.step := 1 }, _, by decide, by decide, rfl⟩,
    ⟨wr K.HUB_PSTATE (2) { State.reset with boot.step := 1 }, _, by decide, by decide, by decide, rfl⟩,
    ⟨{ State.reset with boot.step := 0 }, by decide⟩,
    ⟨{ State.reset with isb.slew := true }, by decide, by decide⟩⟩

theorem hypotheses_met_isobar_sources :
    (∃ (src : Fin 4) (s : State), (rd s (K.SRC_STATUS src.val) = 1 ∨ rd s (K.SRC_STATUS src.val) = 3) ∧
    ((sourceOf s src.val).stopped = false) ∧ (src.val ≠ 2 ∨ (rd s K.REF10M_EN = 1 ∧ rd s K.PPS_IN_EN = 1)) ∧
    ((sourceOf s src.val).cleanSince + rd s K.REQUAL_TIME * s1 ≤ clk s))
  ∧ (∃ (src : Fin 4) (s : State), (rd s (K.SRC_STATUS src.val) ≠ 0) ∧ (stopMet s src.val = true))
  ∧ (∃ (s : State), (rd s K.PPS_IN_EN ≠ 0) ∧ (∀ t ∈ s.isb.ppsEdges.head?, t + 999 * ms1 ≤ clk s))
  ∧ (∃ (s : State) (u : State), (ppsReason (clk s) s.isb.ppsEdges = none) ∧
    (u = { upd (rd s K.REF10M_EN == 1) (sourceSeen 2) { s with isb.todNext := none } with isb.ppsEdges := (clk s :: s.isb.ppsEdges).take 3, isb.ppsSecond := (match s.isb.todNext with | some n => some n | none => s.isb.ppsSecond.map (· + ppsGap s * 1000000000)) }))
  ∧ (∃ (s : State) (t : Nat) (l : List Nat), (rd s K.PPS_IN_EN ≠ 0) ∧ (s.isb.ppsEdges = t :: l) ∧ (clk s < t + 999 * ms1))
  ∧ (∃ (s : State) (rising : Bool), (rd s K.PPS_IN_EN = 0 ∨ rising ≠ (rd s K.PPS_IN_EDGE == 0)))
  ∧ (∃ (s : State), (rd s K.REF10M_EN ≠ 0) ∧ (rd s K.PPS_IN_EN ≠ 1) ∧ (s.isb.refLast = none))
  ∧ (∃ (s : State) (t : Nat), (rd s K.REF10M_EN ≠ 0) ∧ (rd s K.PPS_IN_EN ≠ 1) ∧ (s.isb.refLast = some t) ∧
    (90 * ns1 ≤ clk s - t) ∧ (clk s - t ≤ 110 * ns1) ∧ (s.isb.refSum + (clk s - t) < ms1)) :=
  ⟨⟨(0 : Fin 4),
    wr (K.SRC_STATUS 0) (1) (wr (K.SRC_STATUS (0 : Fin 4).val) (1) { State.reset with isb.elapsed := 10000000000000000000000, isb.now := 10000000000000000000000, isb.sources := [(0, { stopped := false })] }),
    by decide, by decide, by decide, by decide⟩,
    ⟨(0 : Fin 4),
    wr (K.SRC_STATUS 0) (2) (wr (K.SRC_STATUS (0 : Fin 4).val) (1) { State.reset with isb.now := 10000000000000000000000 }),
    by decide, by decide⟩,
    ⟨wr K.PPS_IN_EN (1) { State.reset with isb.elapsed := 10000000000000000000000 }, by decide, by decide⟩,
    ⟨State.reset, _, by decide, rfl⟩,
    ⟨wr K.PPS_IN_EN (1) { State.reset with isb.ppsEdges := [5] }, 5, [], by decide, by decide, by decide⟩,
    ⟨wr K.PPS_IN_EN (0) State.reset, false, by decide⟩,
    ⟨wr K.REF10M_EN (1) { State.reset with isb.refLast := none }, by decide, by decide, by decide⟩,
    ⟨wr K.REF10M_EN (1) { State.reset with isb.refLast := some 0, isb.elapsed := 100 * ns1 }, 0, by decide, by decide,
    by decide, by decide, by decide, by decide⟩⟩

theorem hypotheses_met_ptp_and_barrier :
    (∃ (m : PtpMsg) (s : State), (m.port = rd s K.PTP_PORT) ∧ (m.domain = rd s K.PTP_DOMAIN) ∧
    (m.transport = rd s K.PTP_TRANSPORT) ∧ (m.kind = .other))
  ∧ (∃ (m : PtpMsg) (s : State), (m.port = rd s K.PTP_PORT) ∧ (m.domain = rd s K.PTP_DOMAIN) ∧
    (m.transport = rd s K.PTP_TRANSPORT) ∧ (m.kind = .delayReq) ∧ (s.isb.ptp.isMaster = true))
  ∧ (∃ (s : State), (ptpIsMaster s = true) ∧ (intervalOver s K.LOG_SYNC s.isb.ptp.syncAt = true))
  ∧ (∃ (s : State), (ptpIsMaster s = true) ∧ (intervalOver s K.LOG_ANNOUNCE s.isb.ptp.annAt = true))
  ∧ (∃ (s : State), (ptpIsMaster s = false) ∧ (s.isb.ptp.lastSync.isSome = true) ∧
    (intervalOver s K.LOG_DELAY_REQ s.isb.ptp.reqAt = true))
  ∧ (∃ (s : State), (lanokUp s = true) ∧ (s.isb.barrierAt + 10 * s1 ≤ clk s)) :=
  ⟨⟨({ kind := .other, port := 9 } : PtpMsg), wr K.PTP_PORT (9) State.reset, by decide, by decide, by decide, by decide⟩,
    ⟨({ kind := .delayReq, port := 9 } : PtpMsg), wr K.PTP_PORT (9) { State.reset with isb.ptp.isMaster := true }, by decide,
    by decide, by decide, by decide, by decide⟩,
    ⟨wr K.PTP_ROLE (1) { State.reset with isb.ptp.isMaster := true }, by decide, by decide⟩,
    ⟨wr K.PTP_ROLE (1) { State.reset with isb.ptp.isMaster := true }, by decide, by decide⟩,
    ⟨wr K.PTP_ROLE (0) { State.reset with isb.ptp.lastSync := some (5, 7) }, by decide, by decide, by decide⟩,
    ⟨wr K.LANOK_STATE (2) { State.reset with isb.elapsed := 10000000000000000000000 }, by decide, by decide⟩⟩

theorem hypotheses_met_pps_and_lx_outputs :
    (∃ (n : Fin 2) (s : State) (t : Instant), (rd s (K.PPS_EN n.val) = 1) ∧
    (rd s (K.PPS_GATING n.val) ≠ 1 ∨ (rd s K.ISB_STATE ≠ 0 ∧ rd s K.ISB_STATE ≠ 3)) ∧ (t = ppsInstant s n.val) ∧
    (t ≤ s.isb.now) ∧ (s.isb.now < t + tickSpan s))
  ∧ (∃ (n : Nat) (s : State), (0 < rd s (K.PPS_PERIOD n)) ∧ (rd s (K.PPS_PERIOD n) ≤ nowNs s))
  ∧ (∃ (n : Fin 2) (s : State), (tabGet 0 s.isb.ppsEnd n.val ≠ 0) ∧ (tabGet 0 s.isb.ppsEnd n.val ≤ clk s))
  ∧ (∃ (n : Fin 4) (s : State) (e : Instant), (e ∈ tabGet [] s.isb.lxEnd n.val) ∧ (e ≤ clk s) ∧ (rd s (K.LX_EN n.val) = 1)) :=
  ⟨⟨(0 : Fin 2),
    wr (K.PPS_PERIOD 0) (1) (wr (K.PPS_GATING 0) (0) (wr (K.PPS_EN 0) (1) (wr (K.PPS_EN (0 : Fin 2).val) (1) { up with isb.now := 10000000000000000000000 }))),
    _, by decide, by decide, rfl, by decide, by decide⟩,
    ⟨0, wr (K.PPS_PERIOD 0) (1) { State.reset with isb.now := 10000000000000000000000 }, by decide, by decide⟩,
    ⟨(1 : Fin 2), { State.reset with isb.elapsed := 10000000000000000000000, isb.ppsEnd := [(1, 5)], isb.now := 5 },
    by decide, by decide⟩,
    ⟨(3 : Fin 4),
    wr (K.LX_EN 3) (1) (wr (K.LX_EN (3 : Fin 4).val) (1) { State.reset with isb.elapsed := 5, isb.lxEnd := [(3, [5])] }), 5,
    by decide, by decide, by decide⟩⟩

theorem hypotheses_met_launches_are_armed_and_committed :
    (∃ (n : Fin 1024) (word : Nat) (s : State) (u : State) (t : State) (a : Nat), (bitOf word 24 = true) ∧
    (slotTaken s n.val = false) ∧ (replaying s = false) ∧ (s.pair.holding = false) ∧
    (launchCheck n.val (recOf (patch (launchOctets (launchOf s n.val)) 8 (leBytes 4 word))) (launchUpd n.val (fun l => { l with writes := l.writes + 1 }) (setRecord n.val (recOf (patch (launchOctets (launchOf s n.val)) 8 (leBytes 4 word))) s)) = .ok u) ∧
    (jrnlWrite 4 3 0 0xFFFF 0 32 (workKey u (.launchArm n.val (recOf (patch (launchOctets (launchOf s n.val)) 8 (leBytes 4 word))))) (.launchArm n.val (recOf (patch (launchOctets (launchOf s n.val)) 8 (leBytes 4 word)))) u = (.written a,
    t)))
  ∧ (∃ (n : Fin 1024) (off : Fin 32) (b : Bytes) (s : State), (b.length = 4) ∧ (off.val % 4 = 0) ∧ (off.val ≠ 8) ∧
    (slotTaken s n.val = false))
  ∧ (∃ (n : Fin 1024) (off : Fin 32) (b : Bytes) (s : State), (b.length = 4) ∧ (off.val % 4 = 0) ∧ (off.val ≠ 8) ∧
    (slotTaken s n.val = true))
  ∧ (∃ (n : Fin 1024) (s : State), ((launchOf s n.val).state = lsArmed))
  ∧ (∃ (num : Nat) (s : State), ((launchOf s num).state = lsArmed) ∧ ((launchOf s num).typ ≠ ltLayerSwap) ∧
    ((launchOf s num).time * ns1 ≤ s.isb.now + commitLead (launchOf s num).typ))
  ∧ (∃ (num : Nat) (d : Nat) (s : State), ((launchOf s num).active = true) ∧ (hubPower s ≠ hpCalm) ∧ (hubPower s ≠ hpFrost) ∧
    (d = launchDomain (launchOf s num).typ) ∧ (d ≠ 0) ∧ (d ≠ 19) ∧ (pdState s d = pdLull) ∧
    ((launchOf s num).instant ≤ s.isb.now + 100 * ns1)) :=
  ⟨⟨(1023 : Fin 1024), 0x01010000, { up with pair.holding := false },
    okOf State.reset (launchCheck (1023 : Fin 1024).val (recOf (patch (launchOctets (launchOf ({ up with pair.holding := false }) (1023 : Fin 1024).val)) 8 (leBytes 4 0x01010000))) (launchUpd (1023 : Fin 1024).val (fun l => { l with writes := l.writes + 1 }) (setRecord (1023 : Fin 1024).val (recOf (patch (launchOctets (launchOf ({ up with pair.holding := false }) (1023 : Fin 1024).val)) 8 (leBytes 4 0x01010000))) ({ up with pair.holding := false })))),
    (jrnlWrite 4 3 0 0xFFFF 0 32 (workKey (okOf State.reset (launchCheck (1023 : Fin 1024).val (recOf (patch (launchOctets (launchOf ({ up with pair.holding := false }) (1023 : Fin 1024).val)) 8 (leBytes 4 0x01010000))) (launchUpd (1023 : Fin 1024).val (fun l => { l with writes := l.writes + 1 }) (setRecord (1023 : Fin 1024).val (recOf (patch (launchOctets (launchOf ({ up with pair.holding := false }) (1023 : Fin 1024).val)) 8 (leBytes 4 0x01010000))) ({ up with pair.holding := false }))))) (.launchArm (1023 : Fin 1024).val (recOf (patch (launchOctets (launchOf ({ up with pair.holding := false }) (1023 : Fin 1024).val)) 8 (leBytes 4 0x01010000))))) (.launchArm (1023 : Fin 1024).val (recOf (patch (launchOctets (launchOf ({ up with pair.holding := false }) (1023 : Fin 1024).val)) 8 (leBytes 4 0x01010000)))) (okOf State.reset (launchCheck (1023 : Fin 1024).val (recOf (patch (launchOctets (launchOf ({ up with pair.holding := false }) (1023 : Fin 1024).val)) 8 (leBytes 4 0x01010000))) (launchUpd (1023 : Fin 1024).val (fun l => { l with writes := l.writes + 1 }) (setRecord (1023 : Fin 1024).val (recOf (patch (launchOctets (launchOf ({ up with pair.holding := false }) (1023 : Fin 1024).val)) 8 (leBytes 4 0x01010000))) ({ up with pair.holding := false })))))).2,
    1, by decide, by decide, by decide, by decide, okOf_eq (by decide), pairEq (by decide)⟩,
    ⟨(1023 : Fin 1024), (28 : Fin 32), [1, 2, 3, 4], State.reset, by decide, by decide, by decide, by decide⟩,
    ⟨(0 : Fin 1024), (12 : Fin 32), [1, 2, 3, 4], { State.reset with isb.launches := [(0, { state := 1 })] }, by decide,
    by decide, by decide, by decide⟩,
    ⟨(0 : Fin 1024), { State.reset with isb.launches := [(0, { state := 1 })] }, by decide⟩,
    ⟨1023, { State.reset with isb.launches := [(1023, { state := 1, typ := 1 })] }, by decide, by decide, by decide⟩,
    ⟨5, 13,
    wr (K.PD_STATE 13) (1) (wr (K.PD_STATE 13) (pdLull) { State.reset with isb.launches := [(5, { state := 1, typ := 1 })] }),
    by decide, by decide, by decide, by decide, by decide, by decide, by decide, by decide⟩⟩

theorem hypotheses_met_hub_launches_fire :
    (∃ (n : Nat) (l : Launch) (s : State), (dueLaunch s ltXpSwap (fun _ => true) = some (n, l)) ∧ (hubTargetGone s l = false) ∧
    (domainRuns s 13 = true))
  ∧ (∃ (n : Nat) (l : Launch) (s : State), (dueLaunch s ltEqSwap (fun _ => true) = some (n, l)) ∧ (hubTargetGone s l = false) ∧
    (domainRuns s 13 = true))
  ∧ (∃ (n : Nat) (l : Launch) (s : State) (u : State), (dueLaunch s ltSrcSwitch (fun _ => true) = some (n, l)) ∧
    (hubTargetGone s l = false) ∧ (domainRuns s 10 = true) ∧
    (u = (switchEntries (rdBlob s (key 0x8000 (0xC0 + l.target) 0))).foldl (fun s e => if legUp s e.1 then setSource e.1 e.2.1 e.2.2 s else wr K.SWITCH_SKIPPED (rd s K.SWITCH_SKIPPED + 1) s) s))
  ∧ (∃ (n : Nat) (l : Launch) (s : State) (u : State), (dueLaunch s ltSapGroup (fun _ => true) = some (n, l)) ∧
    (hubTargetGone s l = false) ∧ (domainRuns s 13 = true) ∧
    (u = (if l.arg = 0 then groupStart l.target s else groupStop l.target s)))
  ∧ (∃ (n : Nat) (l : Launch) (s : State), (dueLaunch s ltXpSwap (fun _ => true) = some (n, l)) ∧ (hubTargetGone s l = true))
  ∧ (∃ (n : Nat) (l : Launch) (s : State), (dueLaunch s ltLxEdge (fun _ => true) = some (n, l)) ∧ (l.period = 0) ∧
    (l.arg % 4 = 0))
  ∧ (∃ (n : Nat) (l : Launch) (s : State) (c : Nat),
    (dueLaunch s ltGateTakeover (fun l => (txPort s l.target).takeover.isNone) = some (n, l)) ∧ (hubTargetGone s l = false) ∧
    (domainRuns s 10 = true) ∧ (c = changeTime s l.target (nowNs s))) :=
  ⟨⟨3, ({ state := 1, typ := 1 } : Launch),
    wr (K.PD_STATE 13) (0) { State.reset with isb.launches := [(3, { state := 1, typ := 1 })] }, by decide, by decide,
    by decide⟩,
    ⟨3, ({ state := 1, typ := 2 } : Launch),
    wr (K.PD_STATE 13) (0) { State.reset with isb.launches := [(3, { state := 1, typ := 2 })] }, by decide, by decide,
    by decide⟩,
    ⟨3, ({ state := 1, typ := 3 } : Launch),
    wr (K.PD_STATE 10) (0) { State.reset with isb.launches := [(3, { state := 1, typ := 3 })] }, _, by decide, by decide,
    by decide, rfl⟩,
    ⟨3, ({ state := 1, typ := 7 } : Launch),
    wr (K.PD_STATE 13) (0) { State.reset with isb.launches := [(3, { state := 1, typ := 7 })] }, _, by decide, by decide,
    by decide, rfl⟩,
    ⟨3, ({ state := 1, typ := 1 } : Launch),
    wr (K.PD_STATE 13) (6) { State.reset with isb.launches := [(3, { state := 1, typ := 1 })] }, by decide, by decide⟩,
    ⟨3, ({ state := 1, typ := 6 } : Launch), { State.reset with isb.launches := [(3, { state := 1, typ := 6 })] }, by decide,
    by decide, by decide⟩,
    ⟨3, ({ state := 1, typ := 5 } : Launch),
    wr (K.PD_STATE 10) (0) { State.reset with isb.launches := [(3, { state := 1, typ := 5 })] }, _, by decide, by decide,
    by decide, rfl⟩⟩

theorem hypotheses_met_field_launches_run :
    (∃ (a : Nat) (node : Nat) (num : Nat) (h : HeldLaunch) (s : State) (u : State) (c : Instr), ((a, c) ∈ [(0,
    .nodeActionOff node), (1, .nodeActionOn node), (2, .nodeActionLed node), (3, .slotAssign node), (4, .slotRelease node),
    (5, .selectChannel node), (6, .nodeActionGain node)]) ∧
    (dueHeld s ltNodeAction (nodeNow s node) (fun m h => naAction h.lr.arg == a && h.waiting.contains node && ((nodeOf s node).launches.contains m || !nodeServed s node)) = some (num,
    h)) ∧ (nodeServed s node = true) ∧
    (nodeAction node h.lr.arg (if num < 0x400 then ownSlot num else launchOwner num (launchOf s num)) s = .ok u))
  ∧ (∃ (num : Nat) (h : HeldLaunch) (s : State),
    (dueLaunch s ltFieldMapSwap (fun l => l.unreported.isEmpty && l.target == 0xFFFF && true) = none) ∧
    (dueHeld s ltFieldMapSwap (fieldNow s) (fun _ _ => true) = some (num, h)) ∧ (∀ t ∈ h.trunks,
    isRetired s cTrunk t = false ∧ rd s (K.TRUNK_STATE t) ≠ 0))
  ∧ (∃ (hd : LHdr) (s : State) (u : State), (lanokRecv false true hd s = (true, u)))
  ∧ (∃ (hd : LHdr) (s : State) (u : State), (lanokRecv true true hd s = (true, u)) ∧ (relaying u = false) ∧ (rd u K.ROLE ≠ 2))
  ∧ (∃ (num : Nat) (r : LaunchRec) (s : State) (u : State), (rd s K.ROLE ≠ 3) ∧ (dueVote s ltVoteOpen = some (num, r)) ∧
    (∀ v ∈ List.range 16, v ≠ r.target → rd s (K.VOTE_STATE v) ≠ 1 ∧ rd s (K.VOTE_STATE v) ≠ 2) ∧
    (voteAtHub num none (openSession r.target r.arg) s = (true, u)))
  ∧ (∃ (num : Nat) (r : LaunchRec) (s : State) (u : State), (rd s K.ROLE ≠ 3) ∧ (dueVote s ltVoteClose = some (num, r)) ∧
    (rd s (K.VOTE_STATE r.target) = 1) ∧
    (voteAtHub num none (fun z => wr (K.VOTE_STATE r.target) 2 (voteUpd r.target (fun v => { v with closeAt := z.isb.now }) z)) s = (true,
    u)))
  ∧ (∃ (v : Fin 16) (s : State) (u : State) (n : Nat), (rd s (K.VOTE_STATE v.val) = 2) ∧
    ((voteOf s v.val).closeAt + 10 * ms1 ≤ s.isb.now) ∧ (replaying s = false) ∧ (s.pair.holding = false) ∧
    (jrnlWrite 6 3 0 0xFFFF 0 24 (some ((voteOf s v.val).openAt * 16 + v.val + 1)) (.voteSeal v.val (voteOf s v.val).openAt) s = (.written n,
    u))) :=
  ⟨⟨1, 0, 1023, ({ lr := { time := 0, typ := 12, arg := 16 }, waiting := [0] } : HeldLaunch),
    wr (K.NODE_ENDPOINTS 0) (2) (wr (K.NODE_STATE 0) (nsServed) { State.reset with fld.held := [(1023, some { lr := { time := 0, typ := 12, arg := 16 }, waiting := [0] })], fld.nodes := [(0, { launches := [1023] })] }),
    okOf State.reset (nodeAction 0 ({ lr := { time := 0, typ := 12, arg := 16 }, waiting := [0] } : HeldLaunch).lr.arg (if 1023 < 0x400 then ownSlot 1023 else launchOwner 1023 (launchOf (wr (K.NODE_ENDPOINTS 0) (2) (wr (K.NODE_STATE 0) (nsServed) { State.reset with fld.held := [(1023, some { lr := { time := 0, typ := 12, arg := 16 }, waiting := [0] })], fld.nodes := [(0, { launches := [1023] })] })) 1023)) (wr (K.NODE_ENDPOINTS 0) (2) (wr (K.NODE_STATE 0) (nsServed) { State.reset with fld.held := [(1023, some { lr := { time := 0, typ := 12, arg := 16 }, waiting := [0] })], fld.nodes := [(0, { launches := [1023] })] }))),
    .nodeActionOn 0, by decide, by decide, by decide, okOf_eq (by decide)⟩,
    ⟨4, { lr := { time := 0, typ := 9 }, trunks := [1] },
    wr (K.TRUNK_STATE 1) 2 { State.reset with fld.held := [(4, some { lr := { time := 0, typ := 9 }, trunks := [1] })] },
    by decide +kernel, by decide +kernel, by decide +kernel⟩,
    ⟨({ seq := 1, ack := 0 } : LHdr), wr K.LANOK_STATE (2) State.reset,
    (lanokRecv false true ({ seq := 1, ack := 0 } : LHdr) (wr K.LANOK_STATE (2) State.reset)).2, pairEq (by decide)⟩,
    ⟨({ seq := 1, ack := 0 } : LHdr), wr K.LANOK_STATE (2) State.reset,
    (lanokRecv true true ({ seq := 1, ack := 0 } : LHdr) (wr K.LANOK_STATE (2) State.reset)).2, pairEq (by decide), by decide,
    by decide⟩,
    ⟨2, ({ time := 0, typ := 10, flags := 0 } : LaunchRec),
    { State.reset with isb.launches := [(2, { state := 1, typ := 10 })] },
    (voteAtHub 2 none (openSession ({ time := 0, typ := 10, flags := 0 } : LaunchRec).target ({ time := 0, typ := 10, flags := 0 } : LaunchRec).arg) ({ State.reset with isb.launches := [(2, { state := 1, typ := 10 })] })).2,
    by decide, by decide, by decide, pairEq (by decide)⟩,
    ⟨2, ({ time := 0, typ := 11, flags := 0 } : LaunchRec),
    wr (K.VOTE_STATE 0) (1) (wr (K.VOTE_STATE ({ time := 0, typ := 11, flags := 0 } : LaunchRec).target) (1) { State.reset with isb.launches := [(2, { state := 1, typ := 11 })] }),
    (voteAtHub 2 none (fun z => wr (K.VOTE_STATE ({ time := 0, typ := 11, flags := 0 } : LaunchRec).target) 2 (voteUpd ({ time := 0, typ := 11, flags := 0 } : LaunchRec).target (fun v => { v with closeAt := z.isb.now }) z)) (wr (K.VOTE_STATE 0) (1) (wr (K.VOTE_STATE ({ time := 0, typ := 11, flags := 0 } : LaunchRec).target) (1) { State.reset with isb.launches := [(2, { state := 1, typ := 11 })] }))).2,
    by decide, by decide, by decide, pairEq (by decide)⟩,
    ⟨(15 : Fin 16),
    wr (K.VOTE_STATE 15) (2) (wr (K.VOTE_STATE (15 : Fin 16).val) (2) { up with isb.now := 10000000000000000000000, pair.holding := false }),
    (jrnlWrite 6 3 0 0xFFFF 0 24 (some ((voteOf (wr (K.VOTE_STATE 15) (2) (wr (K.VOTE_STATE (15 : Fin 16).val) (2) { up with isb.now := 10000000000000000000000, pair.holding := false })) (15 : Fin 16).val).openAt * 16 + (15 : Fin 16).val + 1)) (.voteSeal (15 : Fin 16).val (voteOf (wr (K.VOTE_STATE 15) (2) (wr (K.VOTE_STATE (15 : Fin 16).val) (2) { up with isb.now := 10000000000000000000000, pair.holding := false })) (15 : Fin 16).val).openAt) (wr (K.VOTE_STATE 15) (2) (wr (K.VOTE_STATE (15 : Fin 16).val) (2) { up with isb.now := 10000000000000000000000, pair.holding := false }))).2,
    1, by decide, by decide, by decide, by decide, pairEq (by decide)⟩⟩

theorem hypotheses_met_field_die_starts_and_powers_trunks :
    (∃ (s : State) (u : State), (u = fieldClear s))
  ∧ (∃ (s : State), (fieldState s = fsCalm))
  ∧ (∃ (s : State), (s.fld.powerStep < 16) ∧ (fieldState s ≠ fsReset) ∧
    (s.fld.powerStep = 0 ∨ s.fld.powerAt + 50 * ms1 ≤ fieldClk s) ∧
    (rdF s (K.PWR_EN (s.fld.powerStep / 2) (s.fld.powerStep % 2)) = 1))
  ∧ (∃ (k : Fin 8) (p : Fin 2) (s : State), (rdF s (K.PWR_EN k.val p.val) = 1))
  ∧ (∃ (k : Fin 8) (p : Fin 2) (c : Nat) (s : State), (rd s (K.PWR_STATE k.val p.val) = ppSoft) ∧
    ((portOf s k.val p.val).onAt + rdF s (K.PWR_SOFT k.val p.val) * ms1 ≤ fieldClk s) ∧
    (c ≤ rdF (wr (K.PWR_CURRENT k.val p.val) c s) (K.PWR_LIMIT k.val p.val)))
  ∧ (∃ (k : Fin 8) (p : Fin 2) (c : Nat) (s : State) (l : List Nat), (tripMet s k.val p.val c = true) ∧
    (l = fieldClk s :: (portOf s k.val p.val).trips.filter (fun i => decide (fieldClk s < i + 60 * s1))))
  ∧ (∃ (k : Fin 8) (p : Fin 2) (s : State), (rd s (K.PWR_STATE k.val p.val) = ppTripped) ∧
    ((portOf s k.val p.val).onAt + s1 ≤ fieldClk s)) :=
  ⟨⟨State.reset, _, rfl⟩,
    ⟨wr K.FIELD_STATE (fsCalm) State.reset, by decide⟩,
    ⟨wr (K.PWR_EN 0 0) (1) (wr K.FIELD_STATE (1) { State.reset with fld.powerStep := 0 }), by decide, by decide, by decide,
    by decide⟩,
    ⟨(0 : Fin 8), (0 : Fin 2), State.reset, by decide⟩,
    ⟨(0 : Fin 8), (0 : Fin 2), 1,
    wr (K.PWR_STATE 0 0) (1) (wr (K.PWR_STATE (0 : Fin 8).val (0 : Fin 2).val) (ppSoft) { State.reset with isb.elapsed := 10000000000000000000000, fld.elapsed := 10000000000000000000000, isb.now := 10000000000000000000000 }),
    by decide, by decide, by decide⟩,
    ⟨(7 : Fin 8), (1 : Fin 2), 65535, wr (K.PWR_STATE 7 1) (2) State.reset, _, by decide, rfl⟩,
    ⟨(0 : Fin 8), (0 : Fin 2),
    wr (K.PWR_STATE 0 0) (3) (wr (K.PWR_STATE (0 : Fin 8).val (0 : Fin 2).val) (ppTripped) { State.reset with isb.elapsed := 10000000000000000000000, fld.elapsed := 10000000000000000000000, isb.now := s1 }),
    by decide, by decide⟩⟩

theorem hypotheses_met_lanok_messages_act :
    (∃ (hd : LHdr) (s : State) (u : State), (lanokRecv true true hd s = (true, u)) ∧ (relaying u = false) ∧ (rd u K.ROLE ≠ 2))
  ∧ (∃ (hd : LHdr) (s : State) (u : State), (lanokRecv true true hd s = (true, u)) ∧ (relaying u = false) ∧ (rd u K.ROLE ≠ 2))
  ∧ (∃ (hd : LHdr) (s : State) (u : State), (lanokRecv false true hd s = (true, u)))
  ∧ (∃ (hd : LHdr) (s : State) (u : State), (lanokRecv true false hd s = (true, u)))
  ∧ (∃ (hd : LHdr) (s : State) (u : State), (lanokRecv false false hd s = (true, u)))
  ∧ (∃ (hd : LHdr) (sent : Nat) (s : State) (u : State), (lanokRecv true false hd s = (true, u)) ∧ (u.isb.echoSent = some sent))
  ∧ (∃ (hd : LHdr) (s : State) (u : State), (lanokRecv true false hd s = (true, u)) ∧ (hubAsleep u = false) ∧
    (relaying u = false))
  ∧ (∃ (hd : LHdr) (s : State) (u : State), (lanokRecv false false hd s = (true, u)))
  ∧ (∃ (node : Nat) (s : State), ((nodeOf s node).hs = 1) ∧ ((nodeOf s node).lastSeen ≠ 0) ∧ (s.fld.hubAsleep = false) ∧
    ((nodeOf s node).lastSend + 10 * ms1 ≤ fieldClk s))
  ∧ (∃ (s : State), (8 ≤ s.fld.hubEnd.missed) ∧ (s.fld.lost = false) ∧ (modeOf s ≠ mBridge))
  ∧ (∃ (s : State), (s.fld.lost = true) ∧ (lanokUp s = false))
  ∧ (∃ (s : State), (8 ≤ s.fld.fieldEnd.missed) ∧ (s.fld.hubSeen = true ∨ lanokUp s = true))
  ∧ (∃ (s : State), (s.fld.hubMix = true) ∧
    (fieldState (hdAdopt (startMixFade false (ceilTo framePeriod (fieldNow s)) s)) = fsHub)) :=
  ⟨⟨({ seq := 1, ack := 0 } : LHdr), wr K.LANOK_STATE (2) State.reset,
    (lanokRecv true true ({ seq := 1, ack := 0 } : LHdr) (wr K.LANOK_STATE (2) State.reset)).2, pairEq (by decide), by decide,
    by decide⟩,
    ⟨({ seq := 1, ack := 0 } : LHdr), wr K.LANOK_STATE (2) State.reset,
    (lanokRecv true true ({ seq := 1, ack := 0 } : LHdr) (wr K.LANOK_STATE (2) State.reset)).2, pairEq (by decide), by decide,
    by decide⟩,
    ⟨({ seq := 1, ack := 0 } : LHdr), wr K.LANOK_STATE (2) { State.reset with fld.nodes := [(0, { hs := 1 })] },
    (lanokRecv false true ({ seq := 1, ack := 0 } : LHdr) (wr K.LANOK_STATE (2) { State.reset with fld.nodes := [(0, { hs := 1 })] })).2,
    pairEq (by decide)⟩,
    ⟨({ seq := 1, ack := 0 } : LHdr), wr K.LANOK_STATE (2) State.reset,
    (lanokRecv true false ({ seq := 1, ack := 0 } : LHdr) (wr K.LANOK_STATE (2) State.reset)).2, pairEq (by decide)⟩,
    ⟨({ seq := 1, ack := 0 } : LHdr), wr K.LANOK_STATE (2) State.reset,
    (lanokRecv false false ({ seq := 1, ack := 0 } : LHdr) (wr K.LANOK_STATE (2) State.reset)).2, pairEq (by decide)⟩,
    ⟨({ seq := 1, ack := 0 } : LHdr), 5, wr K.LANOK_STATE (2) { State.reset with isb.echoSent := some 5 },
    (lanokRecv true false ({ seq := 1, ack := 0 } : LHdr) (wr K.LANOK_STATE (2) { State.reset with isb.echoSent := some 5 })).2,
    pairEq (by decide), by decide⟩,
    ⟨({ seq := 1, ack := 0 } : LHdr), wr K.LANOK_STATE (2) State.reset,
    (lanokRecv true false ({ seq := 1, ack := 0 } : LHdr) (wr K.LANOK_STATE (2) State.reset)).2, pairEq (by decide),
    by decide, by decide⟩,
    ⟨({ seq := 1, ack := 0 } : LHdr), wr K.LANOK_STATE (2) State.reset,
    (lanokRecv false false ({ seq := 1, ack := 0 } : LHdr) (wr K.LANOK_STATE (2) State.reset)).2, pairEq (by decide)⟩,
    ⟨16383,
    { State.reset with fld.hubAsleep := false, isb.elapsed := 10000000000000000000000, fld.elapsed := 10000000000000000000000, isb.now := 10 * ms1, fld.nodes := [(16383, { hs := 1, lastSeen := 1 })] },
    by decide, by decide, by decide, by decide⟩,
    ⟨{ State.reset with fld.hubEnd.missed := 8, fld.lost := false }, by decide, by decide, by decide⟩,
    ⟨{ State.reset with fld.lost := true }, by decide, by decide⟩,
    ⟨{ State.reset with fld.fieldEnd.missed := 8, fld.hubSeen := true }, by decide, by decide⟩,
    ⟨wr K.FIELD_STATE (0) { State.reset with fld.hubMix := true }, by decide, by decide⟩⟩

theorem hypotheses_met_lanok_link_lives :
    (∃ (hub : Bool) (u : Unacked) (l : List Unacked) (s : State), ((endOf hub s).unacked = u :: l) ∧ (lanokUp s = true) ∧
    (u.at_ + 20 * us1 ≤ clk s) ∧ ((u :: l).any (fun u => decide (8 ≤ u.tries)) = true) ∧ (lanokUp (lanokDown s) = false))
  ∧ (∃ (hub : Bool) (u : Unacked) (l : List Unacked) (s : State) (v : State), ((endOf hub s).unacked = u :: l) ∧
    (lanokUp s = true) ∧ (u.at_ + 20 * us1 ≤ clk s) ∧ ((u :: l).any (fun u => decide (8 ≤ u.tries)) = false) ∧
    (v = (u :: l).foldl (fun x w => lanokEmit hub w.seq (endOf hub s).rxSeq w.msg (bump (K.LANOK_COUNTS 1) x)) s) ∧
    (lanokUp (endUpd hub (fun e => { e with unacked := e.unacked.map (fun w => { w with tries := w.tries + 1, at_ := clk v }) }) v) = true))
  ∧ (∃ (hub : Bool) (s : State) (u : State), (lanokUp s = true) ∧
    (u = bump (K.LANOK_COUNTS 0) (endUpd hub (fun e => { e with crcRun := e.crcRun + 1 }) s)) ∧ ((endOf hub u).crcRun < 16) ∧
    (lanokUp u = true))
  ∧ (∃ (hub : Bool) (s : State) (u : State), (lanokUp s = true) ∧
    (u = bump (K.LANOK_COUNTS 0) (endUpd hub (fun e => { e with crcRun := e.crcRun + 1 }) s)) ∧ (16 ≤ (endOf hub u).crcRun) ∧
    (lanokUp (lanokDown u) = false))
  ∧ (∃ (hub : Bool) (s : State) (u : State), (lanokUp s = true) ∧
    (u = bump (K.LANOK_COUNTS 3) (endUpd hub (fun e => { e with crcRun := 0 }) s)) ∧ (lanokUp u = true))
  ∧ (∃ (off : Int) (s : State) (u : State), (lanokUp s = false) ∧ (fieldState s ≠ fsReset) ∧ (isbRuns s = true) ∧
    (u = linkStart off s))
  ∧ (∃ (hd : LHdr) (source : Nat) (s : State) (u : State), (lanokRecv true true hd s = (true, u)) ∧ (source = 2 ∨ source = 3))
  ∧ (∃ (hd : LHdr) (s : State) (u : State), (lanokRecv true true hd s = (true, u)))
  ∧ (∃ (hub : Bool) (hd : LHdr) (s : State) (u : State), (lanokRecv hub true hd s = (true, u)))
  ∧ (∃ (hd : LHdr) (i : Inst) (s : State) (u : State), (lanokRecv true true hd s = (true, u)) ∧ (i.tr ≠ 4))
  ∧ (∃ (hd : LHdr) (i : Inst) (s : State) (u : State), (lanokRecv false true hd s = (true, u)) ∧ (i.tr = 2 ∨ i.tr = 3))
  ∧ (∃ (n : Nat) (h : HeldLaunch) (s : State) (u : State) (v : State),
    (dueHeld s ltHallHandover (fieldNow s) (fun _ _ => true) = some (n, h)) ∧ (h.lr.arg % 2 = 1) ∧
    (u = setHeld n none (report n 0xFF (if heldLate s (fieldNow s) h then lsLate else lsFired) 0 0 s)) ∧
    (v = startMixFade false (fieldNow u) u) ∧ (fieldState v ≠ fsCalm) ∧
    ((setFieldState fsDefault (hdAdopt v)).boot.transition = none))
  ∧ (∃ (node : Nat) (s : State) (l : List Nat), (l = s.fld.hd.closing.filter (fun m => m / 16 == node && hdClosed s m)) ∧
    (l ≠ []))
  ∧ (∃ (node : Nat) (code : Fin 16) (s : State), (1 ≤ code.val) ∧ (mayRaise s node code.val = true) ∧
    ((nodeOf s node).queue.length < 16))
  ∧ (∃ (node : Nat) (code : Fin 16) (s : State), (1 ≤ code.val) ∧ (mayRaise s node code.val = true) ∧
    (16 ≤ (nodeOf s node).queue.length)) :=
  ⟨⟨true, ({ seq := 1, tries := 8, msg := .nodeClear 0 } : Unacked), [],
    wr K.LANOK_STATE (2) { State.reset with isb.elapsed := 10000000000000000000000, isb.now := 20 * us1, fld.hubEnd := { unacked := [{ seq := 1, tries := 8, msg := .nodeClear 0 }] } },
    by decide, by decide, by decide, by decide, by decide⟩,
    ⟨true, ({ seq := 1, tries := 7, msg := .nodeClear 0 } : Unacked), [],
    wr K.LANOK_STATE (2) { State.reset with isb.elapsed := 10000000000000000000000, isb.now := 20 * us1, fld.hubEnd := { unacked := [{ seq := 1, tries := 7, msg := .nodeClear 0 }] } },
    _, by decide, by decide, by decide, by decide, rfl, by decide⟩,
    ⟨false, wr K.LANOK_STATE (2) State.reset, _, by decide, rfl, by decide, by decide⟩,
    ⟨true, wr K.LANOK_STATE (2) { State.reset with fld.hubEnd := { crcRun := 15 } }, _, by decide, rfl, by decide, by decide⟩,
    ⟨false, wr K.LANOK_STATE (2) State.reset, _, by decide, rfl, by decide⟩,
    ⟨0, wr K.FIELD_STATE (1) { State.reset with boot.step := 1 }, _, by decide, by decide, by decide, rfl⟩,
    ⟨({ seq := 1, ack := 0 } : LHdr), 3, wr K.LANOK_STATE (2) State.reset,
    (lanokRecv true true ({ seq := 1, ack := 0 } : LHdr) (wr K.LANOK_STATE (2) State.reset)).2, pairEq (by decide), by decide⟩,
    ⟨({ seq := 1, ack := 0 } : LHdr), wr K.LANOK_STATE (2) State.reset,
    (lanokRecv true true ({ seq := 1, ack := 0 } : LHdr) (wr K.LANOK_STATE (2) State.reset)).2, pairEq (by decide)⟩,
    ⟨true, ({ seq := 1, ack := 0 } : LHdr), wr K.LANOK_STATE (2) State.reset,
    (lanokRecv true true ({ seq := 1, ack := 0 } : LHdr) (wr K.LANOK_STATE (2) State.reset)).2, pairEq (by decide)⟩,
    ⟨({ seq := 1, ack := 0 } : LHdr), ({ tr := 0 } : Inst), wr K.LANOK_STATE (2) State.reset,
    (lanokRecv true true ({ seq := 1, ack := 0 } : LHdr) (wr K.LANOK_STATE (2) State.reset)).2, pairEq (by decide), by decide⟩,
    ⟨({ seq := 1, ack := 0 } : LHdr), ({ tr := 3 } : Inst), wr K.LANOK_STATE (2) State.reset,
    (lanokRecv false true ({ seq := 1, ack := 0 } : LHdr) (wr K.LANOK_STATE (2) State.reset)).2, pairEq (by decide),
    by decide⟩,
    ⟨2, ({ lr := { time := 0, typ := 8, arg := 1 } } : HeldLaunch),
    wr K.FIELD_STATE (0) { State.reset with fld.held := [(2, some { lr := { time := 0, typ := 8, arg := 1 } })] }, _, _,
    by decide +kernel, by decide +kernel, rfl, rfl, by decide +kernel, by decide +kernel⟩,
    ⟨0, { State.reset with fld.hd := { closing := [3] } }, _, rfl, by decide⟩,
    ⟨4, (3 : Fin 16), State.reset, by decide, by decide, by decide⟩,
    ⟨4, (3 : Fin 16), { State.reset with fld.nodes := [(4, { queue := [1, 1, 1, 1, 1, 1, 1, 1, 1, 1, 1, 1, 1, 1, 1, 1] })] },
    by decide, by decide, by decide⟩⟩

theorem hypotheses_met_frames_and_ports :
    (∃ (s : State), (fieldNow s % framePeriod ≠ 0))
  ∧ (∃ (s : State) (u : State), (fieldNow s % framePeriod = 0) ∧ (fieldState s ≠ fsReset) ∧
    (u = upd (s.fld.hubSeen || lanokUp s) (countMissed false) s) ∧ (framing u = false))
  ∧ (∃ (e : List SectErr) (k : List (Nat × Int)) (s : State) (u : State) (v : State) (fl : List Int × Ramp),
    (fieldNow s % framePeriod = 0) ∧ (fieldState s ≠ fsReset) ∧ (u = upd (s.fld.hubSeen || lanokUp s) (countMissed false) s) ∧
    (framing u = true) ∧ (fl = hdFloor u 6 u.fld.hd.g) ∧
    (v = (List.range 8).foldl (fun x t => if framesTrunk x t then trunkFrame e k (fieldNow s) fl.1 x t else listenerBeacon t (fieldNow s) (fadesDrop t x)) u))
  ∧ (∃ (s : State) (u : State), (u = countMissed true s) ∧ (rd u K.HUB_PSTATE ≠ 0))
  ∧ (∃ (s : State) (u : State) (v : State) (w : State), (u = countMissed true s) ∧ (rd u K.HUB_PSTATE = 0) ∧
    (w = lanokSend true (.timeXfer (nowNs u) (u.isb.now % ns1) (rd u K.ISB_STATE) (rdI 32 u K.ISB_FREQ_ADJ)) u) ∧
    (v = lanokSend true (.heartbeat (modeOf u) (rd w K.FIELD_STATE) (rd w K.ROLE) (rd w K.EPOCH)) w) ∧ (rd v K.ROLE = 2))
  ∧ (∃ (k : Fin 8) (f : FrameReturn) (s : State) (u : State), (frameReturn k.val f s = (none, u)))
  ∧ (∃ (k : Fin 8) (f : FrameReturn) (s : State), (trunkRuns s k.val = true) ∧ (fieldState s ≤ 1) ∧ (f.cw = true) ∧
    ((trunkOf s k.val).enumerating = true))
  ∧ (∃ (k : Fin 8) (f : FrameReturn) (fl : Flight) (l : List Flight) (s : State) (u : State), (trunkRuns s k.val = true) ∧
    (fieldState s ≤ 1) ∧ ((trunkOf s k.val).enumerating = false) ∧ ((trunkOf s k.val).flight = fl :: l) ∧
    (normalReturn k.val f fl (trunkUpd k.val (fun x => { x with flight := l }) s) = (none, u)))
  ∧ (∃ (k : Fin 8) (hop : Nat) (s : State) (u : State) (w : State), (trunkRuns s k.val = true) ∧
    ((trunkOf s k.val).downHops.contains hop = false) ∧ (0 < hop) ∧ (hop < (trunkOf s k.val).nodes.length) ∧
    (u = trunkUpd k.val (fun x => { x with downHops := hop :: x.downHops }) s) ∧
    (w = syncPorts k.val (syncNodes k.val (wr (K.BREAK_AT k.val) (breakAt (trunkOf u k.val)) u))))
  ∧ (∃ (k : Fin 8) (hop : Nat) (s : State) (u : State), ((trunkOf s k.val).downHops.contains hop = true) ∧
    (fieldNow s % framePeriod = 0) ∧
    (u = trunkUpd k.val (fun x => { x with downHops := x.downHops.filter (· != hop), pollNext := 0 }) s) ∧
    ((trunkOf u k.val).downHops.isEmpty = false))
  ∧ (∃ (p : Fin 16) (s : State), (fieldState s ≠ fsReset) ∧ (rdF s (K.FGPIO_FUNC p.val) = 2))
  ∧ (∃ (p : Fin 16) (ms : Nat) (s : State), (fieldState s ≠ fsReset) ∧ (rdF s (K.FGPIO_DEBOUNCE p.val) ≤ ms))
  ∧ (∃ (s : State), (fieldState s = fsCalm))
  ∧ (∃ (b : Fin 2) (id : Nat) (f : CanForm) (v : Bool) (o : Bytes) (s : State) (u : State), (fieldState s ≠ fsCalm) ∧
    (canRuns s b.val = true) ∧ (u = wr (K.CAN_BUS b.val) (b2n v) (canUpd b.val (fun c => { c with passive := v }) s)) ∧
    (canForUs u b.val id f = true) ∧ (rd u (K.TP_EN (2 + b.val)) = 1) ∧ (o.isEmpty = false))
  ∧ (∃ (b : Fin 2) (s : State), ((canOf s b.val).active = true) ∧ ((canOf s b.val).lastAt + 100 * ms1 ≤ fieldClk s)) :=
  ⟨⟨{ State.reset with isb.now := 1 }, by decide⟩,
    ⟨wr K.FIELD_STATE (2) State.reset, _, by decide, by decide, rfl, by decide⟩,
    ⟨[], [], wr K.FIELD_STATE (1) State.reset, _, _, _, by decide, by decide, rfl, by decide, rfl, rfl⟩,
    ⟨State.reset, _, rfl, by decide⟩,
    ⟨wr K.ROLE (2) (wr K.HUB_PSTATE (0) State.reset), _, _, _, rfl, by decide, rfl, rfl, by decide⟩,
    ⟨(0 : Fin 8), ({} : FrameReturn), State.reset, (frameReturn (0 : Fin 8).val ({} : FrameReturn) State.reset).2,
    pairEq (by decide)⟩,
    ⟨(0 : Fin 8), ({ hops := 3 } : FrameReturn),
    wr K.FIELD_STATE (1) (wr (K.TRUNK_STATE 0) (2) { State.reset with fld.trunks := [(0, { enumerating := true })] }),
    by decide, by decide, by decide, by decide⟩,
    ⟨(0 : Fin 8), ({ cw := false, ccw := false } : FrameReturn), ({ at_ := 0 } : Flight), [],
    wr K.FIELD_STATE (0) (wr (K.TRUNK_STATE 0) (2) { State.reset with fld.trunks := [(0, { flight := [{ at_ := 0 }] })] }),
    (normalReturn (0 : Fin 8).val ({ cw := false, ccw := false } : FrameReturn) ({ at_ := 0 } : Flight) (trunkUpd (0 : Fin 8).val (fun x => { x with flight := [] }) (wr K.FIELD_STATE (0) (wr (K.TRUNK_STATE 0) (2) { State.reset with fld.trunks := [(0, { flight := [{ at_ := 0 }] })] })))).2,
    by decide, by decide, by decide, by decide, pairEq (by decide)⟩,
    ⟨(0 : Fin 8), 1, wr (K.TRUNK_STATE 0) (2) { State.reset with fld.trunks := [(0, { nodes := [0, 1] })] }, _, _, by decide,
    by decide, by decide, by decide, rfl, rfl⟩,
    ⟨(0 : Fin 8), 1, { State.reset with fld.trunks := [(0, { downHops := [1, 2] })] }, _, by decide, by decide, rfl,
    by decide⟩,
    ⟨(0 : Fin 16), wr (K.FGPIO_FUNC 0) (2) (wr K.FIELD_STATE (1) { State.reset with fld.copyStale := false }), by decide,
    by decide⟩,
    ⟨(0 : Fin 16), 100, wr K.FIELD_STATE (1) State.reset, by decide, by decide⟩,
    ⟨wr K.FIELD_STATE (fsCalm) State.reset, by decide⟩,
    ⟨(0 : Fin 2), 0x340, ({} : CanForm), false, [1],
    wr (K.CAN_BUS 0) (0) (wr (K.CAN_NODE_ID 0) (0) (wr (K.TP_EN 2) (1) (wr (K.CAN_EN 0) (1) (wr K.FIELD_STATE (0) { State.reset with fld.copyStale := false })))),
    _, by decide, by decide, rfl, by decide, by decide, by decide⟩,
    ⟨(0 : Fin 2),
    { State.reset with isb.elapsed := 10000000000000000000000, fld.elapsed := 10000000000000000000000, fld.cans := [(0, { active := true })], isb.now := 100 * ms1 },
    by decide, by decide⟩⟩

theorem hypotheses_met_node_events_are_handled :
    (∃ (n : Nat) (c : Nat) (s : State) (u : State), (takeAdmitted (· == evReqSpeak) s = some ((n, c, true), u)) ∧
    (tmActive u = true))
  ∧ (∃ (n : Nat) (c : Nat) (s : State) (u : State), (takeAdmitted (· == evReqSpeak) s = some ((n, c, false), u)))
  ∧ (∃ (n : Nat) (c : Nat) (s : State) (u : State), (takeAdmitted (· == evReqCancel) s = some ((n, c, true), u)) ∧
    (tmActive u = true))
  ∧ (∃ (n : Nat) (c : Nat) (s : State) (u : State), (takeAdmitted (· == evReqCancel) s = some ((n, c, false), u)))
  ∧ (∃ (n : Nat) (c : Nat) (s : State) (u : State), (takeAdmitted (· == evPriorityOn) s = some ((n, c, true), u)) ∧
    (tmActive u = true))
  ∧ (∃ (n : Nat) (c : Nat) (s : State) (u : State), (takeAdmitted (· == evPriorityOn) s = some ((n, c, false), u)))
  ∧ (∃ (n : Nat) (c : Nat) (s : State) (u : State), (takeAdmitted (· == evPriorityOff) s = some ((n, c, true), u)) ∧
    (tmActive u = true))
  ∧ (∃ (n : Nat) (c : Nat) (s : State) (u : State), (takeAdmitted (· == evPriorityOff) s = some ((n, c, false), u)))
  ∧ (∃ (n : Nat) (c : Nat) (b : Bool) (s : State) (u : State), (takeAdmitted isVote s = some ((n, c, b), u)))
  ∧ (∃ (n : Nat) (c : Nat) (b : Bool) (s : State) (u : State), (takeAdmitted (· == evEndpointChange) s = some ((n, c, b), u)))
  ∧ (∃ (n : Nat) (c : Nat) (b : Bool) (s : State) (u : State), (takeAdmitted (· == evMessage) s = some ((n, c, b), u)))
  ∧ (∃ (n : Nat) (c : Nat) (b : Bool) (s : State) (u : State), (takeAdmitted (· == evFault) s = some ((n, c, b), u))) :=
  ⟨⟨3, 1, wr K.MODE (1) (wr K.MODE (1) { State.reset with fld.admitted := [(3, 1, true)] }), _, rfl, by decide⟩,
    ⟨3, 1, { State.reset with fld.admitted := [(3, 1, false)] }, _, rfl⟩,
    ⟨3, 2, wr K.MODE (1) (wr K.MODE (1) { State.reset with fld.admitted := [(3, 2, true)] }), _, rfl, by decide⟩,
    ⟨3, 2, { State.reset with fld.admitted := [(3, 2, false)] }, _, rfl⟩,
    ⟨3, 3, wr K.MODE (1) (wr K.MODE (1) { State.reset with fld.admitted := [(3, 3, true)] }), _, rfl, by decide⟩,
    ⟨3, 3, { State.reset with fld.admitted := [(3, 3, false)] }, _, rfl⟩,
    ⟨3, 4, wr K.MODE (1) (wr K.MODE (1) { State.reset with fld.admitted := [(3, 4, true)] }), _, rfl, by decide⟩,
    ⟨3, 4, { State.reset with fld.admitted := [(3, 4, false)] }, _, rfl⟩,
    ⟨3, 11, false, { State.reset with fld.admitted := [(3, 11, false)] }, _, rfl⟩,
    ⟨3, 12, false, { State.reset with fld.admitted := [(3, 12, false)] }, _, rfl⟩,
    ⟨3, 13, false, { State.reset with fld.admitted := [(3, 13, false)] }, _, rfl⟩,
    ⟨3, 14, false, { State.reset with fld.admitted := [(3, 14, false)] }, _, rfl⟩⟩

theorem hypotheses_met_clock_and_trunk_keys_take_effect :
    (∃ (i : Inst) (tag : Nat) (ns : Nat) (s : State), (unhindered i tag 0x1001 1 (leBytes 8 ns) s = true) ∧
    (isbStepStatus (touch i s) = .ok))
  ∧ (∃ (i : Inst) (tag : Nat) (ns : Nat) (s : State), (unhindered i tag 0x1001 2 (leBytes 8 ns) s = true) ∧
    (ns % 1000000000 = 0))
  ∧ (∃ (i : Inst) (tag : Nat) (n : Fin 2) (on : Bool) (s : State),
    (unhindered i tag (0x1050 + n.val) 1 (boolOctet on) s = true) ∧ (ppsEnStatus n.val (b2n on) (touch i s) = .ok))
  ∧ (∃ (i : Inst) (tag : Nat) (n : Fin 4) (on : Bool) (s : State),
    (unhindered i tag (0x1060 + n.val) 1 (boolOctet on) s = true) ∧ (lxEnStatus n.val (b2n on) (touch i s) = .ok))
  ∧ (∃ (i : Inst) (tag : Nat) (n : Fin 1024) (s : State), (unhindered i tag 0x1040 3 (leBytes 2 n.val) s = true) ∧
    (cancelStatus n.val (touch i s) = .ok))
  ∧ (∃ (i : Inst) (tag : Nat) (k : Fin 8) (s : State), (unhindered i tag (0x1800 + 256 * k.val) 5 [1] s = true))
  ∧ (∃ (i : Inst) (tag : Nat) (k : Fin 8) (p : Fin 2) (s : State),
    (unhindered i tag (0x1803 + 256 * k.val + p.val) 8 [1] s = true))
  ∧ (∃ (i : Inst) (tag : Nat) (n : Nat) (r : LaunchRec) (s : State),
    (unhindered i tag 0x1040 2 (launchOctets { time := r.time, frac := r.frac, typ := r.typ, flags := r.flags, target := r.target, arg := r.arg, period := r.period }) s = true) ∧
    (writeGate i 0x1040 2 32 (touch i s) = .ok) ∧ (n = rd s K.SLOT_SELECT) ∧ (slotTaken (touch i s) n = false) ∧
    (bitOf r.flags 0 = false))
  ∧ (∃ (i : Inst) (tag : Nat) (n : Nat) (r : LaunchRec) (s : State) (u : State),
    (unhindered i tag 0x1040 2 (launchOctets { time := r.time, frac := r.frac, typ := r.typ, flags := r.flags, target := r.target, arg := r.arg, period := r.period }) s = true) ∧
    (writeGate i 0x1040 2 32 (touch i s) = .ok) ∧ (n = rd s K.SLOT_SELECT) ∧ (slotTaken (touch i s) n = false) ∧
    (bitOf r.flags 0 = true) ∧ (launchCheck n r (touch i s) = .ok u)) :=
  ⟨⟨({ tr := 0 } : Inst), 0, 0, wr K.MODE (mService) up, by decide, by decide⟩,
    ⟨({ tr := 0 } : Inst), 0, 0, up, by decide, by decide⟩,
    ⟨({ tr := 0 } : Inst), 0, (0 : Fin 2), false, up, by decide, by decide⟩,
    ⟨({ tr := 0 } : Inst), 0, (0 : Fin 4), false, up, by decide, by decide⟩,
    ⟨({ tr := 0 } : Inst), 0, (0 : Fin 1024), up, by decide, by decide⟩,
    ⟨({ tr := 0 } : Inst), 0, (0 : Fin 8), up, by decide⟩,
    ⟨({ tr := 0 } : Inst), 0, (0 : Fin 8), (0 : Fin 2), up, by decide⟩,
    ⟨({ tr := 0 } : Inst), 0, _, ({ time := 5, typ := 1, flags := 0 } : LaunchRec), up, by decide, by decide, rfl, by decide,
    by decide⟩,
    ⟨({ tr := 0 } : Inst), 0, _, ({ time := 10000000, typ := 1, flags := 1 } : LaunchRec), up,
    okOf State.reset (launchCheck (rd up K.SLOT_SELECT) ({ time := 10000000, typ := 1, flags := 1 } : LaunchRec) (touch ({ tr := 0 } : Inst) up)),
    by decide, by decide, rfl, by decide, by decide, okOf_eq (by decide)⟩⟩

theorem hypotheses_met_maintenance_commands_take_effect :
    (∃ (i : Inst) (tag : Nat) (s : State), (unhindered i tag 0x0003 1 [1] s = true))
  ∧ (∃ (i : Inst) (tag : Nat) (s : State), (unhindered i tag 0x0005 2 [1] s = true) ∧ (modeOf s = mService))
  ∧ (∃ (i : Inst) (tag : Nat) (m : Nat) (s : State), (unhindered i tag 0x0001 2 (leBytes 1 m) s = true) ∧
    (modeStatus m (touch i s) = .pending))
  ∧ (∃ (i : Inst) (tag : Nat) (b : Bytes) (s : State), (unhindered i tag 0xF801 3 b s = true) ∧
    (worst (keyStatus K.FW_STAGE b (touch i s)) (if (leAt b 0 4 == 0x4D4B4657 || decide ((slotAt (touch i s) (stagingSlot (touch i s))).image.length + b.length ≤ 8 * 1024 * 1024)) = true then .ok else .range) = .ok))
  ∧ (∃ (i : Inst) (tag : Nat) (s : State), (unhindered i tag 0xF801 4 [1] s = true) ∧ (modeOf s = mService))
  ∧ (∃ (i : Inst) (tag : Nat) (s : State), (unhindered i tag 0xF810 0x0D [1] s = true))
  ∧ (∃ (i : Inst) (tag : Nat) (s : State), (unhindered i tag 0xF400 0x0C [1] s = true))
  ∧ (∃ (i : Inst) (tag : Nat) (s : State), (unhindered i tag 0x0C00 5 [1] s = true) ∧ (modeOf s = mService))
  ∧ (∃ (i : Inst) (tag : Nat) (s : State), (unhindered i tag 0x0F00 1 [1] s = true) ∧ (modeOf s = mService))
  ∧ (∃ (i : Inst) (tag : Nat) (on : Bool) (s : State), (unhindered i tag 0x0D00 1 (boolOctet on) s = true))
  ∧ (∃ (i : Inst) (tag : Nat) (s : State), (unhindered i tag 0x0800 7 [1] s = true))
  ∧ (∃ (i : Inst) (tag : Nat) (s : State), (unhindered i tag 0x0820 5 [1] s = true) ∧ (chStatus i (touch i s) = .ok))
  ∧ (∃ (i : Inst) (tag : Nat) (s : State), (unhindered i tag 0x0820 6 [1] s = true) ∧ (chStatus i (touch i s) = .ok))
  ∧ (∃ (i : Inst) (tag : Nat) (s : State), (unhindered i tag 0x0900 0x0D [1] s = true) ∧ (rd s K.PAIR_STATE = 2))
  ∧ (∃ (i : Inst) (tag : Nat) (s : State), (unhindered i tag 0x0900 0x0E [1] s = true) ∧ (rd s K.ROLE = 3))
  ∧ (∃ (i : Inst) (tag : Nat) (d : Nat) (s : State), (unhindered i tag (0x0420 + d) 2 [0] s = true) ∧
    (pdRequestStatus d 0 (touch i s) = .pending))
  ∧ (∃ (i : Inst) (tag : Nat) (d : Nat) (s : State), (unhindered i tag (0x0420 + d) 2 [2] s = true) ∧
    (pdRequestStatus d pdCalm (touch i s) = .pending))
  ∧ (∃ (i : Inst) (tag : Nat) (d : Nat) (s : State), (unhindered i tag (0x0420 + d) 2 [3] s = true) ∧
    (pdRequestStatus d pdFrost (touch i s) = .pending))
  ∧ (∃ (i : Inst) (tag : Nat) (d : Nat) (s : State), (unhindered i tag (0x0420 + d) 4 [1] s = true) ∧ (1 ≤ d) ∧ (d ≤ 18))
  ∧ (∃ (i : Inst) (tag : Nat) (s : State), (unhindered i tag 0x0400 4 [1] s = true) ∧ (checks [(modeOf s != mStandby, .mode),
    ((touch i s).boot.transition.isSome || (touch i s).pwr.entry.isSome || !sleepReady (touch i s), .busy), (true,
    .pending)] = .pending)) :=
  ⟨⟨({ tr := 0 } : Inst), 0, up, by decide⟩,
    ⟨({ tr := 0 } : Inst), 0, wr K.MODE (mService) up, by decide, by decide⟩,
    ⟨({ tr := 0 } : Inst), 0, 4, up, by decide, by decide⟩,
    ⟨({ tr := 0 } : Inst), 0, leBytes 4 0x4D4B4657, wr K.MODE (mService) up, by decide, by decide⟩,
    ⟨({ tr := 0 } : Inst), 0, wr K.MODE (mService) up, by decide, by decide⟩,
    ⟨({ tr := 0 } : Inst), 0, up, by decide⟩,
    ⟨({ tr := 0 } : Inst), 0, up, by decide⟩,
    ⟨({ tr := 0 } : Inst), 0, wr K.MODE (mService) up, by decide, by decide⟩,
    ⟨({ tr := 0 } : Inst), 0, wr K.MODE (mService) up, by decide, by decide⟩,
    ⟨({ tr := 0 } : Inst), 0, false, up, by decide⟩,
    ⟨({ tr := 0 } : Inst), 0, up, by decide⟩,
    ⟨({ tr := 0 } : Inst), 0, up, by decide, by decide⟩,
    ⟨({ tr := 0 } : Inst), 0, up, by decide, by decide⟩,
    ⟨({ tr := 0 } : Inst), 0, wr K.PAIR_STATE (2) (wr K.ROLE (2) up), by decide, by decide⟩,
    ⟨({ tr := 0 } : Inst), 0, wr K.ROLE (3) up, by decide, by decide⟩,
    ⟨({ tr := 0 } : Inst), 0, 0, up, by decide, by decide⟩,
    ⟨({ tr := 0 } : Inst), 0, 17, wr (K.PD_STATE 17) (0) up, by decide, by decide⟩,
    ⟨({ tr := 0 } : Inst), 0, 17, wr (K.PD_STATE 17) (0) up, by decide, by decide⟩,
    ⟨({ tr := 0 } : Inst), 0, 1, up, by decide, by decide, by decide⟩,
    ⟨({ tr := 0 } : Inst), 0, wr K.MODE (mStandby) up, by decide, by decide⟩⟩

theorem hypotheses_met_audio_keys_take_effect :
    (∃ (i : Inst) (tag : Nat) (k : Fin 64) (s : State), (unhindered i tag (0x6C40 + k.val) 6 [1] s = true) ∧
    (kernelInUse (touch i s) k.val = false))
  ∧ (∃ (i : Inst) (tag : Nat) (e : Fin 256) (on : Bool) (s : State),
    (unhindered i tag (0x6D00 + e.val) 7 (boolOctet on) s = true) ∧ (bindStatus e.val on (touch i s) = .ok))
  ∧ (∃ (i : Inst) (tag : Nat) (e : Fin 8) (on : Bool) (s : State),
    (unhindered i tag (0x6E00 + e.val) 9 (boolOctet on) s = true) ∧ (tickEnStatus e.val on (touch i s) = .ok) ∧ (on = true →
    needsWake (touch i s) (1 + rd s (K.T_ME e.val) / 16) = false))
  ∧ (∃ (i : Inst) (tag : Nat) (n : Fin 8) (on : Bool) (s : State),
    (unhindered i tag (0x6000 + n.val) 1 (boolOctet on) s = true) ∧ (sapEnStatus n.val on (touch i s) = .ok))
  ∧ (∃ (i : Inst) (tag : Nat) (rx : Bool) (e : Fin 64) (on : Bool) (s : State),
    (unhindered i tag ((if rx then 0x6200 else 0x6280) + e.val) 1 (boolOctet on) s = true) ∧
    (epEnStatus rx e.val on (touch i s) = .ok))
  ∧ (∃ (i : Inst) (tag : Nat) (k : Nat) (s : State), (unhindered i tag 0x6400 5 (leBytes 1 k) s = true) ∧
    (copyStatus (touch i s) k = .pending))
  ∧ (∃ (i : Inst) (tag : Nat) (s : State), (unhindered i tag 0x6400 6 [1] s = true) ∧ (copyStatus (touch i s) 0 = .pending))
  ∧ (∃ (i : Inst) (tag : Nat) (s : State), (unhindered i tag 0x6412 1 [1] s = true))
  ∧ (∃ (i : Inst) (tag : Nat) (m : Fin 16) (s : State), (unhindered i tag (0x6700 + m.val) 7 [1] s = true))
  ∧ (∃ (i : Inst) (tag : Nat) (n : Nat) (s : State), (unhindered i tag 0x6420 0x0E (leBytes 4 n) s = true) ∧
    (grantStatus n (touch i s) = .ok) ∧
    ((tmActive (touch i s) && identOk n && !isLeg n && (tmOpenOf (touch i s) n).isNone && (tmFreeSlot (touch i s) (nodeTrunk n)).isNone) = false))
  ∧ (∃ (i : Inst) (tag : Nat) (n : Nat) (s : State), (unhindered i tag 0x6420 0x0F (leBytes 4 n) s = true) ∧
    (identOk n = true) ∧ (tmActive (touch i s) = true))
  ∧ (∃ (i : Inst) (tag : Nat) (s : State), (unhindered i tag 0x6420 0x10 [1] s = true))
  ∧ (∃ (i : Inst) (tag : Nat) (d : Fin 256) (on : Bool) (s : State),
    (unhindered i tag (0x6800 + d.val) 3 (boolOctet on) s = true) ∧ (deskEnStatus d.val on (touch i s) = .ok)) :=
  ⟨⟨({ tr := 0 } : Inst), 0, (0 : Fin 64), up, by decide +kernel, by decide +kernel⟩,
    ⟨({ tr := 0 } : Inst), 0, (0 : Fin 256), false, up, by decide, by decide⟩,
    ⟨({ tr := 0 } : Inst), 0, (0 : Fin 8), false, up, by decide, by decide, by decide⟩,
    ⟨({ tr := 0 } : Inst), 0, (0 : Fin 8), false, up, by decide, by decide⟩,
    ⟨({ tr := 0 } : Inst), 0, false, (0 : Fin 64), false, up, by decide, by decide⟩,
    ⟨({ tr := 0 } : Inst), 0, 0, up, by decide, by decide⟩,
    ⟨({ tr := 0 } : Inst), 0, up, by decide, by decide⟩,
    ⟨({ tr := 0 } : Inst), 0, up, by decide⟩,
    ⟨({ tr := 0 } : Inst), 0, (0 : Fin 16), up, by decide⟩,
    ⟨({ tr := 0 } : Inst), 0, 65536, wr (K.LEG_GROUP 0) (0) (wr K.MODE (mHybrid) up), by decide, by decide, by decide⟩,
    ⟨({ tr := 0 } : Inst), 0, 0, wr K.MODE (mHall) up, by decide, by decide, by decide⟩,
    ⟨({ tr := 0 } : Inst), 0, up, by decide⟩,
    ⟨({ tr := 0 } : Inst), 0, (0 : Fin 256), false, up, by decide, by decide⟩⟩

theorem hypotheses_met_packet_and_leg_keys_take_effect :
    (∃ (i : Inst) (tag : Nat) (p : Fin 8) (on : Bool) (s : State),
    (unhindered i tag (0x7000 + p.val) 1 (boolOctet on) s = true) ∧ (portEnStatus p.val on (touch i s) = .ok) ∧ (on = true →
    needsWake (touch i s) 11 = false))
  ∧ (∃ (i : Inst) (tag : Nat) (s : State), (unhindered i tag 0x7110 6 [1] s = true))
  ∧ (∃ (i : Inst) (tag : Nat) (s : State), (unhindered i tag 0x7100 0x0F [1] s = true) ∧
    (poolTestStatus (touch i s) = .pending))
  ∧ (∃ (i : Inst) (tag : Nat) (l : Nat) (on : Bool) (s : State), (unhindered i tag (0x8000 + l) 1 (boolOctet on) s = true) ∧
    (l < 20480) ∧ (mediaStatus on (touch i s) = .ok) ∧ (legEnStatus l on (touch i s) = .ok))
  ∧ (∃ (i : Inst) (tag : Nat) (k : Fin 64) (s : State), (unhindered i tag (0x7C40 + k.val) 6 [1] s = true))
  ∧ (∃ (i : Inst) (tag : Nat) (s : State), (unhindered i tag 0x7D00 0x0C [1] s = true) ∧
    (rd s (K.LEG_EN (rd s (K.CIPHER_LEG (instNum i)))) ≠ 1))
  ∧ (∃ (i : Inst) (tag : Nat) (s : State), (unhindered i tag 0x7D00 0x0C [2] s = true) ∧
    (rd s (K.LEG_EN (rd s (K.CIPHER_LEG (instNum i)))) ≠ 1))
  ∧ (∃ (i : Inst) (tag : Nat) (l : Nat) (txn : Nat) (s : State), (legUnhindered i tag l txn 1 0 0 0 s = true) ∧
    (mediaStatus true (touch i s) = .ok) ∧ (legEnStatus l true (touch i s) = .ok))
  ∧ (∃ (i : Inst) (tag : Nat) (l : Nat) (txn : Nat) (s : State), (legUnhindered i tag l txn 2 0 0 0 s = true))
  ∧ (∃ (i : Inst) (tag : Nat) (l : Nat) (txn : Nat) (s : State), (legUnhindered i tag l txn 3 0 0 0 s = true) ∧ (l < bidirLegs))
  ∧ (∃ (i : Inst) (tag : Nat) (l : Nat) (txn : Nat) (s : State), (legUnhindered i tag l txn 4 0 0 0 s = true) ∧ (l < bidirLegs))
  ∧ (∃ (i : Inst) (tag : Nat) (l : Nat) (txn : Nat) (k : Nat) (c : Nat) (s : State),
    (legUnhindered i tag l txn 5 k 0 c s = true) ∧ (k < 3) ∧ (sourceCodeOk c = true))
  ∧ (∃ (i : Inst) (tag : Nat) (l : Nat) (txn : Nat) (k : Nat) (c : Nat) (s : State),
    (legUnhindered i tag l txn 6 k c 0 s = true) ∧ (k < 3) ∧ (c < 256) ∧ (layerCodeOk c = true))
  ∧ (∃ (i : Inst) (tag : Nat) (l : Nat) (txn : Nat) (k : Nat) (s : State), (legUnhindered i tag l txn 7 k 0 0 s = true) ∧
    (k < 3)) :=
  ⟨⟨({ tr := 0 } : Inst), 0, (0 : Fin 8), false, up, by decide, by decide, by decide⟩,
    ⟨({ tr := 0 } : Inst), 0, up, by decide⟩,
    ⟨({ tr := 0 } : Inst), 0, wr K.POOL_MODE (0) (wr K.MODE (mService) up), by decide, by decide⟩,
    ⟨({ tr := 0 } : Inst), 0, 0, false, up, by decide, by decide, by decide, by decide⟩,
    ⟨({ tr := 0 } : Inst), 0, (0 : Fin 64), up, by decide⟩,
    ⟨({ tr := 0 } : Inst), 0, up, by decide, by decide⟩,
    ⟨({ tr := 0 } : Inst), 0, up, by decide, by decide⟩,
    ⟨({ tr := 0 } : Inst), 0, 0, 1, wr (K.LEG_EN 0) (1) (wr K.MODE (mHybrid) up), by decide, by decide, by decide⟩,
    ⟨({ tr := 0 } : Inst), 0, 0, 1, up, by decide⟩,
    ⟨({ tr := 0 } : Inst), 0, 4095, 1, up, by decide, by decide⟩,
    ⟨({ tr := 0 } : Inst), 0, 0, 1, up, by decide, by decide⟩,
    ⟨({ tr := 0 } : Inst), 0, 20479, 1, 2, 0, up, by decide, by decide, by decide⟩,
    ⟨({ tr := 0 } : Inst), 0, 0, 1, 2, 0, up, by decide, by decide, by decide, by decide⟩,
    ⟨({ tr := 0 } : Inst), 0, 0, 4294967295, 2, up, by decide, by decide⟩⟩

theorem hypotheses_met_picture_keys_take_effect :
    (∃ (i : Inst) (tag : Nat) (c : Fin 1024) (on : Bool) (s : State),
    (unhindered i tag (0xD000 + c.val) 1 (boolOctet on) s = true) ∧ (mediaStatus on (touch i s) = .ok) ∧
    (decEnStatus c.val on (touch i s) = .ok) ∧ (on = true →
    needsWake (touch i s) (14 + (placeDec (touch i s) c.val).getD 0) = false))
  ∧ (∃ (i : Inst) (tag : Nat) (e : Fin 256) (on : Bool) (s : State),
    (unhindered i tag (0xD400 + e.val) 1 (boolOctet on) s = true) ∧ (mediaStatus on (touch i s) = .ok) ∧
    (encEnStatus e.val on (touch i s) = .ok) ∧ (on = true → needsWake (touch i s) 16 = false))
  ∧ (∃ (i : Inst) (tag : Nat) (e : Fin 256) (s : State), (unhindered i tag (0xD400 + e.val) 0x13 [1] s = true))
  ∧ (∃ (i : Inst) (tag : Nat) (o : Fin 64) (s : State), (unhindered i tag (0xE000 + o.val) 0x0C [1] s = true) ∧
    (swapActive (touch i s) o.val = false))
  ∧ (∃ (i : Inst) (tag : Nat) (o : Fin 64) (on : Bool) (s : State),
    (unhindered i tag (0xE000 + o.val) 1 (boolOctet on) s = true) ∧ (mediaStatus on (touch i s) = .ok) ∧
    (outEnStatus o.val on (touch i s) = .ok) ∧ (on = true → needsWake (touch i s) 17 = false))
  ∧ (∃ (i : Inst) (tag : Nat) (v : Fin 256) (b : Nat) (s : State),
    (unhindered i tag (0xE800 + v.val) 1 (leBytes 8 b) s = true) ∧ (b % 64 = 0) ∧ (b < 18446744073709551616))
  ∧ (∃ (i : Inst) (tag : Nat) (n : Fin 64) (on : Bool) (s : State),
    (unhindered i tag (0xF000 + n.val) 1 (boolOctet on) s = true) ∧ (dmaEnStatus n.val on (touch i s) = .ok)) :=
  ⟨⟨({ tr := 0 } : Inst), 0, (0 : Fin 1024), false, up, by decide, by decide, by decide, by decide⟩,
    ⟨({ tr := 0 } : Inst), 0, (0 : Fin 256), false, up, by decide, by decide, by decide, by decide⟩,
    ⟨({ tr := 0 } : Inst), 0, (0 : Fin 256), up, by decide⟩,
    ⟨({ tr := 0 } : Inst), 0, (0 : Fin 64), up, by decide, by decide⟩,
    ⟨({ tr := 0 } : Inst), 0, (0 : Fin 64), false, up, by decide, by decide, by decide, by decide⟩,
    ⟨({ tr := 0 } : Inst), 0, (0 : Fin 256), 0, up, by decide, by decide, by decide⟩,
    ⟨({ tr := 0 } : Inst), 0, (0 : Fin 64), false, up, by decide, by decide⟩⟩

theorem hypotheses_met_transactions_are_served :
    (∃ (i : Inst) (index : Nat) (sub : Nat) (s : State), (tpOpen s i.tr = true) ∧
    (unserved i index sub false (touch i s) = false) ∧ (isWriteReq (touch i s) i 1 = false) ∧
    (authMissing (touch i s) i 1 = false) ∧
    (readStatus index sub (readMax i) (touch i s) (readValue (keyOf i index sub (touch i s)) (touch i s)).1 = .ok))
  ∧ (∃ (i : Inst) (index : Nat) (sub : Nat) (s : State), (tpOpen s i.tr = true) ∧
    (unserved i index sub false (touch i s) = false) ∧ (isWriteReq (touch i s) i 1 = false) ∧
    (authMissing (touch i s) i 1 = false) ∧ (entryOf index sub = none))
  ∧ (∃ (i : Inst) (tag : Nat) (index : Nat) (sub : Nat) (k : Nat) (v : Bytes) (e : Entry) (s : State),
    (unhindered i tag index sub v s = true) ∧ (entryOf index sub = some e) ∧ (e.acc ≠ .cmd) ∧ ((index, sub) ≠ (0x1040, 2)) ∧
    ((index, sub) ≠ (0xF801, 3)) ∧ (enableDomain index sub (touch i s) = none) ∧ (k = keyOf i index sub (touch i s)) ∧
    (keyIndex k = index) ∧ (keySub k = sub) ∧ (keyStatus k v (touch i s) = .ok))
  ∧ (∃ (i : Inst) (index : Nat) (sub : Nat) (s : State), (tpOpen s i.tr = true) ∧
    (unserved i index sub true (touch i s) = false) ∧ (authMissing (touch i s) i 2 = false) ∧
    ((groupOf (touch i s) i).isEmpty = false))
  ∧ (∃ (i : Inst) (index : Nat) (sub : Nat) (v : Bytes) (e : Entry) (s : State), (tpOpen s i.tr = true) ∧
    (unserved i index sub true (touch i s) = false) ∧ (rightsGate i index sub (touch i s) = .ok) ∧
    (entryOf index sub = some e) ∧ (present index sub (touch i s) = true) ∧ (e.acc ≠ .ro) ∧ (typeFits e v = true) ∧
    ((groupOf (touch i s) i).length < 32) ∧ (unitOctets (groupOf (touch i s) i) + v.length ≤ 4096))
  ∧ (∃ (i : Inst) (index : Nat) (sub : Nat) (n : Nat) (stage : Nat) (e : Entry) (s : State), (tpOpen s i.tr = true) ∧
    (unserved i index sub true (touch i s) = false) ∧ (rightsGate i index sub (touch i s) = .ok) ∧
    (entryOf index sub = some e) ∧ (present index sub (touch i s) = true) ∧ (e.acc ≠ .ro) ∧ (e.ty = .blob) ∧
    (leVal (leBytes 4 n) ≤ blobLimit index e) ∧ (blobGate index sub (touch i s) = .ok) ∧
    ((blobOf (touch i s) i).isSome = false) ∧ (∀ x ∈ (touch i s).dic.blob, ∀ b, x.2 = some b → b.write = true →
    b.key ≠ keyOf i index sub (touch i s)) ∧ (stageFit (touch i s) (leVal (leBytes 4 n)) = some stage))
  ∧ (∃ (i : Inst) (index : Nat) (sub : Nat) (e : Entry) (s : State), (tpOpen s i.tr = true) ∧
    (unserved i index sub false (touch i s) = false) ∧ (isWriteReq (touch i s) i 4 = false) ∧
    (authMissing (touch i s) i 4 = false) ∧ (entryOf index sub = some e) ∧ (e.ty = .blob) ∧
    ((blobOf (touch i s) i).isSome = false) ∧
    (readStatus index sub 65536 (touch i s) (readValue (keyOf i index sub (touch i s)) (touch i s)).1 = .ok))
  ∧ (∃ (i : Inst) (index : Nat) (sub : Nat) (v : Bytes) (b : Blob) (s : State), (tpOpen s i.tr = true) ∧
    (unserved i index sub (isWriteReq (touch i s) i 5) (touch i s) = false) ∧ (authMissing (touch i s) i 5 = false) ∧
    (entryGate index sub (touch i s) = .ok) ∧ (blobOf (touch i s) i = some b) ∧ (b.key = keyOf i index sub (touch i s)) ∧
    (b.write = true) ∧ (4 ≤ v.length) ∧ (leAt v 0 4 = b.data.length) ∧ (leAt v 0 4 + (v.drop 4).length ≤ b.length))
  ∧ (∃ (i : Inst) (index : Nat) (sub : Nat) (v : Bytes) (b : Blob) (s : State), (tpOpen s i.tr = true) ∧
    (unserved i index sub (isWriteReq (touch i s) i 5) (touch i s) = false) ∧ (authMissing (touch i s) i 5 = false) ∧
    (entryGate index sub (touch i s) = .ok) ∧ (blobOf (touch i s) i = some b) ∧ (b.key = keyOf i index sub (touch i s)) ∧
    (b.write = false) ∧ (v.length = 6) ∧ (leAt v 0 4 < b.data.length) ∧ (leAt v 4 2 ≤ readMax i))
  ∧ (∃ (i : Inst) (index : Nat) (sub : Nat) (v : Bytes) (b : Blob) (s : State), (tpOpen s i.tr = true) ∧
    (unserved i index sub (isWriteReq (touch i s) i 6) (touch i s) = false) ∧ (authMissing (touch i s) i 6 = false) ∧
    (entryGate index sub (touch i s) = .ok) ∧ (blobOf (touch i s) i = some b) ∧ (b.key = keyOf i index sub (touch i s)) ∧
    (b.write = true) ∧ (v.length = 4) ∧ (b.data.length = b.length) ∧ (crc32 b.data = leVal v))
  ∧ (∃ (i : Inst) (index : Nat) (sub : Nat) (b : Blob) (s : State), (tpOpen s i.tr = true) ∧
    (unserved i index sub (isWriteReq (touch i s) i 6) (touch i s) = false) ∧ (authMissing (touch i s) i 6 = false) ∧
    (entryGate index sub (touch i s) = .ok) ∧ (blobOf (touch i s) i = some b) ∧ (b.key = keyOf i index sub (touch i s)) ∧
    (b.write = false))
  ∧ (∃ (i : Inst) (index : Nat) (sub : Nat) (s : State), (tpOpen s i.tr = true) ∧
    (unserved i index sub (isWriteReq (touch i s) i 7) (touch i s) = false) ∧ (authMissing (touch i s) i 7 = false) ∧
    (entryGate index sub (touch i s) = .ok)) :=
  ⟨⟨({ tr := 0 } : Inst), 0x0001, 1, up, by decide, by decide, by decide, by decide, by decide⟩,
    ⟨({ tr := 0 } : Inst), 0x0001, 0xFF, up, by decide, by decide, by decide, by decide, by decide⟩,
    ⟨({ tr := 0 } : Inst), 0, 0x0400, 3, _, leBytes 2 100, (entryOf 0x0400 3).get (by decide), up, by decide,
    (Option.some_get _).symm, by decide, by decide, by decide, by decide, rfl, by decide, by decide, by decide⟩,
    ⟨({ tr := 0 } : Inst), 0x0400, 3, { up with dic.group := [(0, [(0x0400, 3, [20, 0])])] }, by decide, by decide, by decide,
    by decide⟩,
    ⟨({ tr := 0 } : Inst), 0x0400, 3, leBytes 2 100, (entryOf 0x0400 3).get (by decide), up, by decide, by decide, by decide,
    (Option.some_get _).symm, by decide, by decide, by decide, by decide, by decide⟩,
    ⟨({ tr := 0 } : Inst), 0x0210, 3, 16, (stageFit (touch ({ tr := 0 } : Inst) up) (leVal (leBytes 4 16))).get (by decide),
    (entryOf 0x0210 3).get (by decide), up, by decide, by decide, by decide, (Option.some_get _).symm, by decide, by decide,
    by decide, by decide, by decide, by decide, by decide, (Option.some_get _).symm⟩,
    ⟨({ tr := 0 } : Inst), 0x0210, 3, (entryOf 0x0210 3).get (by decide), up, by decide, by decide, by decide, by decide,
    (Option.some_get _).symm, by decide, by decide, by decide⟩,
    ⟨({ tr := 0 } : Inst), 0x0210, 3, leBytes 4 0 ++ [7],
    (blobOf (touch ({ tr := 0 } : Inst) ({ up with dic.blob := [(0, some { key := key 0x0210 3 0, write := true, length := 1, data := [] })] })) ({ tr := 0 } : Inst)).get (by decide),
    { up with dic.blob := [(0, some { key := key 0x0210 3 0, write := true, length := 1, data := [] })] }, by decide,
    by decide, by decide, by decide, (Option.some_get _).symm, by decide, by decide, by decide, by decide, by decide⟩,
    ⟨({ tr := 0 } : Inst), 0x0210, 3, leBytes 4 0 ++ leBytes 2 248,
    (blobOf (touch ({ tr := 0 } : Inst) ({ up with dic.blob := [(0, some { key := key 0x0210 3 0, write := false, length := 1, data := [9] })] })) ({ tr := 0 } : Inst)).get (by decide),
    { up with dic.blob := [(0, some { key := key 0x0210 3 0, write := false, length := 1, data := [9] })] }, by decide,
    by decide, by decide, by decide, (Option.some_get _).symm, by decide, by decide, by decide, by decide, by decide⟩,
    ⟨({ tr := 0 } : Inst), 0x0210, 3, leBytes 4 (crc32 [9]),
    (blobOf (touch ({ tr := 0 } : Inst) ({ up with dic.blob := [(0, some { key := key 0x0210 3 0, write := true, length := 1, data := [9] })] })) ({ tr := 0 } : Inst)).get (by decide),
    { up with dic.blob := [(0, some { key := key 0x0210 3 0, write := true, length := 1, data := [9] })] }, by decide,
    by decide, by decide, by decide, (Option.some_get _).symm, by decide, by decide, by decide, by decide, by decide⟩,
    ⟨({ tr := 0 } : Inst), 0x0210, 3,
    (blobOf (touch ({ tr := 0 } : Inst) ({ up with dic.blob := [(0, some { key := key 0x0210 3 0, write := false, length := 1, data := [9] })] })) ({ tr := 0 } : Inst)).get (by decide),
    { up with dic.blob := [(0, some { key := key 0x0210 3 0, write := false, length := 1, data := [9] })] }, by decide,
    by decide, by decide, by decide, (Option.some_get _).symm, by decide, by decide⟩,
    ⟨({ tr := 0 } : Inst), 0x0210, 3, up, by decide, by decide, by decide, by decide⟩⟩

theorem hypotheses_met_carriers_and_flash_deliver :
    (∃ (m : Fin 4) (s : State), (pcieReaches s = true) ∧ ((mbxOf s m.val).busy = false))
  ∧ (∃ (m : Fin 4) (s : State), (pcieReaches s = true) ∧ ((mbxOf s m.val).busy = true))
  ∧ (∃ (b : Bytes) (s : State), (rd s K.MGMT_STATE ≠ 0) ∧ (rd s (K.TP_EN 1) ≠ 0) ∧ (b.length ≤ 272))
  ∧ (∃ (f : Bool) (b : Bytes) (s : State), (rd s K.MGMT_STATE ≠ 0) ∧ (rd s (K.TP_EN 1) ≠ 0) ∧ (f = true ∨ 272 < b.length))
  ∧ (∃ (index : Nat) (sub : Nat) (i : Inst) (tag : Nat) (s : State) (u : State),
    (s.dic.pendingCmds.find? (fun c => c.2.2.1 == index && c.2.2.2 == sub) = some (i, tag, index, sub)) ∧
    (u = emit (.dictRsp i tag 0x8F index sub Status.ok.code []) (lastCmd i index sub .ok { s with dic.pendingCmds := s.dic.pendingCmds.erase (i, tag, index, sub), boot.busy := s.boot.busy.filter (· != index * 256 + sub) })))
  ∧ (∃ (i : Inst) (s : State), ((groupOf s i).isEmpty = false) ∧ (tabGet 0 s.dic.groupAt (instNum i) + s1 ≤ clk s))
  ∧ (∃ (i : Inst) (b : Blob) (s : State), (blobOf s i = some b) ∧ (b.since + s1 ≤ clk s))
  ∧ (∃ (s : State) (newer0 : Bool), (s.dic.dirty.isEmpty = false) ∧ (s.dic.flashing.isSome = false) ∧ (s.boot.step = 9) ∧
    (newer0 = (s.boot.persistGood0 && (!s.boot.persistGood1 || decide (s.boot.persistSeq1 ≤ s.boot.persistSeq0)))))
  ∧ (∃ (f : Flash) (s : State), (s.dic.flashing = some f))
  ∧ (∃ (bar : Nat) (offset : Nat) (width : Nat) (s : State), (barReaches bar offset s = true) ∧ (width = 4 ∨ (width = 8 ∧
    wideWindow bar offset = true)) ∧ (offset % width = 0))
  ∧ (∃ (bar : Nat) (offset : Nat) (width : Nat) (s : State), (barReaches bar offset s = true) ∧ ((width ≠ 4 ∧
    width ≠ 8) ∨ offset % width ≠ 0))
  ∧ (∃ (bar : Nat) (offset : Nat) (s : State), (barReaches bar offset s = true))
  ∧ (∃ (bar : Nat) (offset : Nat) (s : State), (barReaches bar offset s = true)) :=
  ⟨⟨(3 : Fin 4), { up with flt.pcieUp := true }, by decide, by decide⟩,
    ⟨(0 : Fin 4), { up with flt.pcieUp := true, dic.mbx := [(0, { busy := true })] }, by decide, by decide⟩,
    ⟨[], wr (K.TP_EN 1) (1) (wr K.MGMT_STATE (1) State.reset), by decide, by decide, by decide⟩,
    ⟨true, [], wr (K.TP_EN 1) (1) (wr K.MGMT_STATE (1) State.reset), by decide, by decide, by decide⟩,
    ⟨0x0001, 2, ({ tr := 0 } : Inst), 9, { State.reset with dic.pendingCmds := [({ tr := 0 }, 9, 0x0001, 2)] }, _, by decide,
    rfl⟩,
    ⟨({ tr := 0 } : Inst),
    { State.reset with isb.elapsed := 10000000000000000000000, dic.group := [(0, [(0x0400, 3, [20, 0])])], isb.now := s1 },
    by decide, by decide⟩,
    ⟨({ tr := 0 } : Inst), ({ key := 5, write := true, length := 1, data := [] } : Blob),
    { State.reset with isb.elapsed := 10000000000000000000000, dic.blob := [(0, some { key := 5, write := true, length := 1, data := [] })], isb.now := s1 },
    by decide, by decide⟩,
    ⟨{ State.reset with boot.step := 9, dic.dirty := [(1, 1)] }, true, by decide, by decide, by decide, by decide⟩,
    ⟨({ keys := [], bound := 0, values := [], blobs := [] } : Flash),
    { State.reset with dic.flashing := some { keys := [], bound := 0, values := [], blobs := [] } }, by decide⟩,
    ⟨0, 0x7800, 4, { up with flt.pcieUp := true }, by decide, by decide, by decide⟩,
    ⟨0, 0x7801, 4, { up with flt.pcieUp := true }, by decide, by decide⟩,
    ⟨0, 8, { up with flt.pcieUp := true }, by decide⟩,
    ⟨0, 8, { up with flt.pcieUp := true }, by decide⟩⟩

theorem hypotheses_met_engine_multiplies_and_accumulates :
    (∃ (me : Fin 128) (tick : Bool) (b : Bank) (w : Nat) (s : State), (issuingPar s me.val tick b w 0x00 = true))
  ∧ (∃ (me : Fin 128) (tick : Bool) (b : Bank) (w : Nat) (s : State), (issuingPar s me.val tick b w 0x01 = true))
  ∧ (∃ (me : Fin 128) (tick : Bool) (b : Bank) (w : Nat) (s : State), (issuingPar s me.val tick b w 0x02 = true))
  ∧ (∃ (me : Fin 128) (tick : Bool) (b : Bank) (w : Nat) (s : State), (issuingPar s me.val tick b w 0x03 = true))
  ∧ (∃ (me : Fin 128) (tick : Bool) (b : Bank) (w : Nat) (s : State), (issuingPar s me.val tick b w 0x04 = true))
  ∧ (∃ (me : Fin 128) (tick : Bool) (b : Bank) (w : Nat) (s : State), (issuingPar s me.val tick b w 0x05 = true))
  ∧ (∃ (me : Fin 128) (tick : Bool) (b : Bank) (w : Nat) (s : State), (issuingPar s me.val tick b w 0x06 = true))
  ∧ (∃ (me : Fin 128) (tick : Bool) (b : Bank) (w : Nat) (s : State), (issuingPar s me.val tick b w 0x07 = true))
  ∧ (∃ (me : Fin 128) (tick : Bool) (b : Bank) (w : Nat) (s : State), (issuingPar s me.val tick b w 0x08 = true))
  ∧ (∃ (me : Fin 128) (tick : Bool) (b : Bank) (w : Nat) (s : State), (issuingPar s me.val tick b w 0x20 = true))
  ∧ (∃ (me : Fin 128) (tick : Bool) (b : Bank) (w : Nat) (s : State), (issuingPar s me.val tick b w 0x21 = true))
  ∧ (∃ (me : Fin 128) (tick : Bool) (b : Bank) (w : Nat) (s : State), (issuingPar s me.val tick b w 0x22 = true))
  ∧ (∃ (me : Fin 128) (tick : Bool) (b : Bank) (w : Nat) (s : State), (issuingPar s me.val tick b w 0x23 = true))
  ∧ (∃ (me : Fin 128) (tick : Bool) (b : Bank) (w : Nat) (s : State), (issuingPar s me.val tick b w 0x24 = true))
  ∧ (∃ (me : Fin 128) (tick : Bool) (b : Bank) (w : Nat) (s : State), (issuingPar s me.val tick b w 0x28 = true))
  ∧ (∃ (me : Fin 128) (tick : Bool) (b : Bank) (w : Nat) (s : State), (issuingPar s me.val tick b w 0x29 = true)) :=
  ⟨⟨(0 : Fin 128), false, run0, 0x0, eng 0x0, by decide⟩,
    ⟨(0 : Fin 128), false, run0, 0x100000000000000, eng 0x100000000000000, by decide⟩,
    ⟨(0 : Fin 128), false, run0, 0x200000000000000, eng 0x200000000000000, by decide⟩,
    ⟨(0 : Fin 128), false, run0, 0x300000000000000, eng 0x300000000000000, by decide⟩,
    ⟨(0 : Fin 128), false, run0, 0x400000000000000, eng 0x400000000000000, by decide⟩,
    ⟨(0 : Fin 128), false, run0, 0x500000000000000, eng 0x500000000000000, by decide⟩,
    ⟨(0 : Fin 128), false, run0, 0x600000000000000, eng 0x600000000000000, by decide⟩,
    ⟨(0 : Fin 128), false, run0, 0x700000000000000, eng 0x700000000000000, by decide⟩,
    ⟨(0 : Fin 128), false, run0, 0x800000000000000, eng 0x800000000000000, by decide⟩,
    ⟨(0 : Fin 128), false, run0, 0x2000000000000000, eng 0x2000000000000000, by decide⟩,
    ⟨(0 : Fin 128), false, run0, 0x2100000000000000, eng 0x2100000000000000, by decide⟩,
    ⟨(0 : Fin 128), false, run0, 0x2200000000000000, eng 0x2200000000000000, by decide⟩,
    ⟨(0 : Fin 128), false, run0, 0x2300000000000000, eng 0x2300000000000000, by decide⟩,
    ⟨(0 : Fin 128), false, run0, 0x2400000000000000, eng 0x2400000000000000, by decide⟩,
    ⟨(0 : Fin 128), false, run0, 0x2800000000000000, eng 0x2800000000000000, by decide⟩,
    ⟨(0 : Fin 128), false, run0, 0x2900000000000000, eng 0x2900000000000000, by decide⟩⟩

theorem hypotheses_met_engine_lane_operations :
    (∃ (me : Fin 128) (tick : Bool) (b : Bank) (w : Nat) (s : State), (issuingPar s me.val tick b w 0x10 = true))
  ∧ (∃ (me : Fin 128) (tick : Bool) (b : Bank) (w : Nat) (s : State), (issuingPar s me.val tick b w 0x11 = true))
  ∧ (∃ (me : Fin 128) (tick : Bool) (b : Bank) (w : Nat) (s : State), (issuingPar s me.val tick b w 0x12 = true))
  ∧ (∃ (me : Fin 128) (tick : Bool) (b : Bank) (w : Nat) (s : State), (issuingPar s me.val tick b w 0x13 = true))
  ∧ (∃ (me : Fin 128) (tick : Bool) (b : Bank) (w : Nat) (s : State), (issuingPar s me.val tick b w 0x14 = true))
  ∧ (∃ (me : Fin 128) (tick : Bool) (b : Bank) (w : Nat) (s : State), (issuingPar s me.val tick b w 0x15 = true))
  ∧ (∃ (me : Fin 128) (tick : Bool) (b : Bank) (w : Nat) (s : State), (issuingPar s me.val tick b w 0x16 = true))
  ∧ (∃ (me : Fin 128) (tick : Bool) (b : Bank) (w : Nat) (s : State), (issuingPar s me.val tick b w 0x17 = true))
  ∧ (∃ (me : Fin 128) (tick : Bool) (b : Bank) (w : Nat) (s : State), (issuingPar s me.val tick b w 0x18 = true))
  ∧ (∃ (me : Fin 128) (tick : Bool) (b : Bank) (w : Nat) (s : State), (issuingPar s me.val tick b w 0x19 = true))
  ∧ (∃ (me : Fin 128) (tick : Bool) (b : Bank) (w : Nat) (s : State), (issuingPar s me.val tick b w 0x1a = true))
  ∧ (∃ (me : Fin 128) (tick : Bool) (b : Bank) (w : Nat) (s : State), (issuingPar s me.val tick b w 0x1b = true))
  ∧ (∃ (me : Fin 128) (tick : Bool) (b : Bank) (w : Nat) (s : State), (issuingPar s me.val tick b w 0x1c = true))
  ∧ (∃ (me : Fin 128) (tick : Bool) (b : Bank) (w : Nat) (s : State), (issuingPar s me.val tick b w 0x1d = true))
  ∧ (∃ (me : Fin 128) (tick : Bool) (b : Bank) (w : Nat) (s : State), (issuingPar s me.val tick b w 0x1e = true))
  ∧ (∃ (me : Fin 128) (tick : Bool) (b : Bank) (w : Nat) (s : State), (issuingPar s me.val tick b w 0x1f = true)) :=
  ⟨⟨(0 : Fin 128), false, run0, 0x1000000000000000, eng 0x1000000000000000, by decide⟩,
    ⟨(0 : Fin 128), false, run0, 0x1100000000000000, eng 0x1100000000000000, by decide⟩,
    ⟨(0 : Fin 128), false, run0, 0x1200000000000000, eng 0x1200000000000000, by decide⟩,
    ⟨(0 : Fin 128), false, run0, 0x1300000000000000, eng 0x1300000000000000, by decide⟩,
    ⟨(0 : Fin 128), false, run0, 0x1400000000000000, eng 0x1400000000000000, by decide⟩,
    ⟨(0 : Fin 128), false, run0, 0x1500000000000000, eng 0x1500000000000000, by decide⟩,
    ⟨(0 : Fin 128), false, run0, 0x1600000000000000, eng 0x1600000000000000, by decide⟩,
    ⟨(0 : Fin 128), false, run0, 0x1700000000000000, eng 0x1700000000000000, by decide⟩,
    ⟨(0 : Fin 128), false, run0, 0x1800000000000000, eng 0x1800000000000000, by decide⟩,
    ⟨(0 : Fin 128), false, run0, 0x1900000000000000, eng 0x1900000000000000, by decide⟩,
    ⟨(0 : Fin 128), false, run0, 0x1a00000000000000, eng 0x1a00000000000000, by decide⟩,
    ⟨(0 : Fin 128), false, run0, 0x1b00000000000000, eng 0x1b00000000000000, by decide⟩,
    ⟨(0 : Fin 128), false, run0, 0x1c00000000000000, eng 0x1c00000000000000, by decide⟩,
    ⟨(0 : Fin 128), false, run0, 0x1d00000000000000, eng 0x1d00000000000000, by decide⟩,
    ⟨(0 : Fin 128), false, run0, 0x1e00000000000000, eng 0x1e00000000000000, by decide⟩,
    ⟨(0 : Fin 128), false, run0, 0x1f00000000000000, eng 0x1f00000000000000, by decide⟩⟩

theorem hypotheses_met_engine_moves_and_control :
    (∃ (me : Fin 128) (tick : Bool) (b : Bank) (w : Nat) (s : State) (y : Bool), (issuing s me.val tick b w = true) ∧
    (wFmt w = 0) ∧ (mMop (wSlot w y) = 1) ∧ (parFault s tick b w = none))
  ∧ (∃ (me : Fin 128) (tick : Bool) (b : Bank) (w : Nat) (s : State) (y : Bool), (issuing s me.val tick b w = true) ∧
    (wFmt w = 0) ∧ (mMop (wSlot w y) = 2) ∧ (parFault s tick b w = none))
  ∧ (∃ (me : Fin 128) (tick : Bool) (b : Bank) (w : Nat) (s : State) (y : Bool), (issuing s me.val tick b w = true) ∧
    (wFmt w = 0) ∧ (mMop (wSlot w y) = 3) ∧ (parFault s tick b w = none))
  ∧ (∃ (me : Fin 128) (tick : Bool) (b : Bank) (w : Nat) (s : State) (y : Bool), (issuing s me.val tick b w = true) ∧
    (wFmt w = 0) ∧ (mMop (wSlot w y) = 4) ∧ (parFault s tick b w = none))
  ∧ (∃ (me : Fin 128) (tick : Bool) (b : Bank) (w : Nat) (s : State) (y : Bool) (c : _), (issuing s me.val tick b w = true) ∧
    (wFmt w = 0) ∧ (mMop (wSlot w y) = 1) ∧ (parFault s tick b w = some c))
  ∧ (∃ (me : Fin 128) (tick : Bool) (b : Bank) (w : Nat) (s : State), (issuingCtl s me.val tick b w 0x00 = true))
  ∧ (∃ (me : Fin 128) (tick : Bool) (b : Bank) (w : Nat) (s : State), (issuingCtl s me.val tick b w 0x01 = true))
  ∧ (∃ (me : Fin 128) (tick : Bool) (b : Bank) (w : Nat) (s : State), (issuingCtl s me.val tick b w 0x02 = true))
  ∧ (∃ (me : Fin 128) (tick : Bool) (b : Bank) (w : Nat) (s : State), (issuingCtl s me.val tick b w 0x03 = true))
  ∧ (∃ (me : Fin 128) (tick : Bool) (b : Bank) (w : Nat) (s : State), (issuingCtl s me.val tick b w 0x04 = true))
  ∧ (∃ (me : Fin 128) (tick : Bool) (b : Bank) (w : Nat) (s : State), (issuingCtl s me.val tick b w 0x09 = true))
  ∧ (∃ (me : Fin 128) (tick : Bool) (b : Bank) (w : Nat) (s : State), (issuingCtl s me.val tick b w 0x0a = true))
  ∧ (∃ (me : Fin 128) (tick : Bool) (b : Bank) (w : Nat) (s : State), (issuingCtl s me.val tick b w 0x05 = true))
  ∧ (∃ (me : Fin 128) (tick : Bool) (b : Bank) (w : Nat) (s : State), (issuingCtl s me.val tick b w 0x06 = true))
  ∧ (∃ (me : Fin 128) (tick : Bool) (b : Bank) (w : Nat) (s : State), (issuingCtl s me.val tick b w 0x07 = true) ∧
    (loopCount w b ≠ 0) ∧ (b.loops.length < 4))
  ∧ (∃ (me : Fin 128) (tick : Bool) (b : Bank) (w : Nat) (s : State), (issuingCtl s me.val tick b w 0x07 = true) ∧
    (loopCount w b = 0))
  ∧ (∃ (me : Fin 128) (tick : Bool) (b : Bank) (w : Nat) (s : State), (issuingCtl s me.val tick b w 0x08 = true) ∧
    (ldcOffset w b % 16 = 0) ∧ (ldcOffset w b + 16 ≤ leAt (rdBlob s (K.KIMAGE b.kernel)) 16 4))
  ∧ (∃ (me : Fin 128) (tick : Bool) (b : Bank) (s : State) (r : _) (off : _), (activeBank s me.val = some (tick, b)) ∧
    (b.stall = some (r, off)))
  ∧ (∃ (me : Fin 128) (tick : Bool) (b : Bank) (w : Nat) (s : State), (issuingCtl s me.val tick b w 0x0B = true)) :=
  ⟨⟨(0 : Fin 128), false, run0, 0x2000000000, wr (K.B_XWIN 0) 0x1000000 (eng 0x2000000000), false, by decide, by decide,
    by decide, by decide⟩,
    ⟨(0 : Fin 128), false, run0, 0x40000, wr (K.B_YWIN 0) 0x1000000 (eng 0x40000), true, by decide, by decide, by decide,
    by decide⟩,
    ⟨(0 : Fin 128), false, run0, 0x6000000000, wr (K.B_XWIN 0) 0x1000000 (eng 0x6000000000), false, by decide, by decide,
    by decide, by decide⟩,
    ⟨(0 : Fin 128), false, run0, 0x8000000000, eng 0x8000000000, false, by decide, by decide, by decide, by decide⟩,
    ⟨(0 : Fin 128), false, run0, 0x2000000000, eng 0x2000000000, false, 1, by decide, by decide, by decide, by decide⟩,
    ⟨(0 : Fin 128), false, run0, 0x4000000000000000, eng 0x4000000000000000, by decide⟩,
    ⟨(0 : Fin 128), false, run0, 0x4100000000000000, eng 0x4100000000000000, by decide⟩,
    ⟨(0 : Fin 128), false, run0, 0x4200000000000000, eng 0x4200000000000000, by decide⟩,
    ⟨(0 : Fin 128), false, run0, 0x4300000000000000, eng 0x4300000000000000, by decide⟩,
    ⟨(0 : Fin 128), false, run0, 0x4400000000000000, eng 0x4400000000000000, by decide⟩,
    ⟨(0 : Fin 128), false, run0, 0x4900000000000000, eng 0x4900000000000000, by decide⟩,
    ⟨(0 : Fin 128), false, run0, 0x4a00000000000000, eng 0x4a00000000000000, by decide⟩,
    ⟨(0 : Fin 128), false, run0, 0x4500000000000000, eng 0x4500000000000000, by decide⟩,
    ⟨(0 : Fin 128), false, run0, 0x4600000000000000, eng 0x4600000000000000, by decide⟩,
    ⟨(0 : Fin 128), false, run0, 0x4700000000000003, eng 0x4700000000000003, by decide, by decide, by decide⟩,
    ⟨(0 : Fin 128), false, run0, 0x4700000000000000, eng 0x4700000000000000, by decide, by decide⟩,
    ⟨(0 : Fin 128), false, run0, 0x4800000000000000, eng 0x4800000000000000, by decide, by decide, by decide⟩,
    ⟨(0 : Fin 128), false, ({ run0 with stall := some (3, 16) } : Bank),
    { State.reset with dsp.mes := [(0, { work := { run0 with stall := some (3, 16) } })] }, 3, 16, by decide, by decide⟩,
    ⟨(0 : Fin 128), false, run0, 0x4b00000000000000, eng 0x4b00000000000000, by decide⟩⟩

theorem hypotheses_met_work_is_submitted :
    (∃ (q : Fin 8) (s : State), (rd s (K.SQ_EN q.val) = 0))
  ∧ (∃ (q : Fin 8) (v : Nat) (s : State), (rd s (K.SQ_EN q.val) ≠ 0) ∧ (v % 64 = (sqOf s q.val).tail))
  ∧ (∃ (q : Fin 8) (v : Nat) (s : State), (rd s (K.SQ_EN q.val) ≠ 0) ∧ (v % 64 ≠ (sqOf s q.val).tail) ∧
    (((sqOf s q.val).head + 63 - (sqOf s q.val).tail) % 64 < (v % 64 + 64 - (sqOf s q.val).tail) % 64))
  ∧ (∃ (q : Fin 8) (v : Nat) (s : State), (rd s (K.SQ_EN q.val) ≠ 0) ∧ (v % 64 ≠ (sqOf s q.val).tail) ∧
    ((v % 64 + 64 - (sqOf s q.val).tail) % 64 ≤ ((sqOf s q.val).head + 63 - (sqOf s q.val).tail) % 64) ∧ (hubPower s = hpRun))
  ∧ (∃ (source : Nat) (c : Nat) (any : Bool) (it : Item) (jt : Item) (s : State),
    (jt = { it with source := source, accept := 0 }) ∧ (replaying s = false) ∧ (serves s = true) ∧ (isDurable it = false) ∧
    (enqueueCheck s source jt = .ok) ∧ (parkedFor s jt = none) ∧ (stageIn s jt = some (c, any)))
  ∧ (∃ (source : Nat) (it : Item) (jt : Item) (s : State), (jt = { it with source := source, accept := 0 }) ∧
    (replaying s = false) ∧ (serves s = true) ∧ ((isDurable it && s.pair.holding) = false) ∧ (enqueueCheck s source jt ≠ .ok))
  ∧ (∃ (s : State), (replaying s = true ∨ serves s = false))
  ∧ (∃ (s : State), (hubPower s = hpRun))
  ∧ (∃ (s : State) (t : Instant), (hubPower s ≠ hpRun) ∧ (delayFirst s = some t) ∧ (t ≤ s.isb.now)) :=
  ⟨⟨(0 : Fin 8), wr (K.SQ_EN (0 : Fin 8).val) (0) State.reset, by decide⟩,
    ⟨(0 : Fin 8), 64, wr (K.SQ_EN 0) (1) (wr (K.SQ_EN (0 : Fin 8).val) (1) State.reset), by decide, by decide⟩,
    ⟨(0 : Fin 8), 1,
    wr (K.SQ_EN 0) (1) (wr (K.SQ_EN (0 : Fin 8).val) (1) { State.reset with sch.sqs := [(0, { tail := 63, head := 0 })] }),
    by decide, by decide, by decide⟩,
    ⟨(0 : Fin 8), 63, wr K.HUB_PSTATE (0) (wr (K.SQ_EN 0) (1) (wr (K.SQ_EN (0 : Fin 8).val) (1) State.reset)), by decide,
    by decide, by decide, by decide⟩,
    ⟨8, 0, false, ({ typ := 1 } : Item), _, up, rfl, by decide, by decide, by decide, by decide, by decide, by decide⟩,
    ⟨8, ({ typ := 0 } : Item), _, up, rfl, by decide, by decide, by decide, by decide⟩,
    ⟨State.reset, by decide⟩,
    ⟨wr K.HUB_PSTATE (hpRun) State.reset, by decide⟩,
    ⟨{ State.reset with isb.now := 5, sch.delay := [{ it := { typ := 1 }, due := 5 }] }, 5, by decide, by decide, by decide⟩⟩

theorem hypotheses_met_journal_accepts_and_checkpoints :
    (∃ (s : State) (e : JEntry), (nextEntry s = some e) ∧ (serves s = true) ∧ ((pairHealthy s && !e.peerAck) = false))
  ∧ (∃ (s : State) (e : JEntry), (nextEntry s = some e) ∧ (pairHealthy s = true) ∧ (e.peerAck = false))
  ∧ (∃ (s : State) (e : JEntry), (nextEntry s = some e) ∧ (serves s = true) ∧ (pairHealthy s = true) ∧ (e.peerAck = false) ∧
    (e.writtenAt + 20 * us1 ≤ clk s))
  ∧ (∃ (s : State), (s.sch.cpRunning = none) ∧ (s.sch.cpDue = true ∨ s.sch.cpAt + rd s K.CHECKPOINT_PERIOD * ms1 ≤ clk s))
  ∧ (∃ (s : State), (s.sch.cpDue = false) ∧ (clk s < s.sch.cpAt + rd s K.CHECKPOINT_PERIOD * ms1))
  ∧ (∃ (s : State) (c : Snapshot), (s.sch.cpRunning = some c))
  ∧ (∃ (s : State) (c : Nat) (m : Nat) (l : List Nat) (r : List Nat), (s.sch.copying = c :: l) ∧ (mirrorChans s = m :: r)) :=
  ⟨⟨{ State.reset with sch.journal := [entry1] }, entry1, by decide, by decide, by decide⟩,
    ⟨wr K.PAIR_STATE (2) { State.reset with sch.journal := [entry1] }, entry1, by decide, by decide, by decide⟩,
    ⟨wr K.PAIR_STATE (2) { State.reset with isb.elapsed := 10000000000000000000000, sch.journal := [entry1], isb.now := 20 * us1 },
    entry1, by decide, by decide, by decide, by decide, by decide⟩,
    ⟨{ State.reset with sch.cpRunning := none, sch.cpDue := true }, by decide, by decide⟩,
    ⟨{ State.reset with sch.cpDue := false }, by decide, by decide⟩,
    ⟨{ State.reset with sch.cpRunning := some ({} : Snapshot) }, ({} : Snapshot), by decide⟩,
    ⟨wr K.JRNL_MIRRORS (1) { State.reset with sch.copying := [1] }, 1, 0, [], [], by decide, by decide⟩⟩

theorem hypotheses_met_engines_run_items :
    (∃ (me : Fin 128) (s : State) (u : State) (st : Staged), ((meOf s me.val).tick.running = false) ∧
    (meAsks s me.val = true) ∧ (scanLevels me.val (List.range 16) s = (some st, u)))
  ∧ (∃ (me : Fin 128) (s : State) (u : State), ((meOf s me.val).tick.running = false) ∧ (meAsks s me.val = true) ∧
    (scanLevels me.val (List.range 16) s = (none, u)))
  ∧ (∃ (me : Fin 128) (s : State) (st : Staged), ((meOf s me.val).work.running = false) ∧ (runningOn s me.val = some st))
  ∧ (∃ (me : Fin 128) (s : State) (st : Staged), (runningOn s me.val = some st) ∧
    (st.startedAt + st.limit + st.paused + tickTook s me.val < clk s))
  ∧ (∃ (me : Fin 128) (s : State) (st : Staged), (runningOn s me.val = some st) ∧
    (clk s ≤ st.startedAt + st.limit + st.paused + tickTook s me.val))
  ∧ (∃ (me : Fin 128) (s : State) (u : State), (upset cME me.val (bump (K.ME_UPSETS me.val) s) = (u, false)))
  ∧ (∃ (me : Fin 128) (s : State) (u : State), (upset cME me.val (bump (K.ME_UPSETS me.val) s) = (u, true)))
  ∧ (∃ (cl : Fin 8) (s : State) (u : State), (upset cCluster cl.val s = (u, false)))
  ∧ (∃ (cl : Fin 8) (s : State) (u : State), (upset cCluster cl.val s = (u, true)))
  ∧ (∃ (t : Fin 8) (me : Nat) (s : State) (w : State), (rd s (K.T_ACTIVE_ME t.val) = me) ∧ (rd s (K.T_EN t.val) ≠ 0) ∧
    (atBoundary s = true) ∧ (boundaryNow s % rd s (K.T_PERIOD t.val) = 0) ∧ (me < 128) ∧ ((meOf s me).tick.running = false) ∧
    (w = tickUpd t.val (fun x => { x with ran := true }) (tickWrite t.val (tickTake t.val me s) me)))
  ∧ (∃ (t : Fin 8) (s : State), (rd s (K.T_EN t.val) ≠ 0) ∧ (atBoundary s = true) ∧
    (boundaryNow s % rd s (K.T_PERIOD t.val) = 0) ∧ (128 ≤ rd s (K.T_ACTIVE_ME t.val)))
  ∧ (∃ (t : Fin 8) (me : Nat) (s : State), (rd s (K.T_ACTIVE_ME t.val) = me) ∧ (rd s (K.T_EN t.val) ≠ 0) ∧ (me < 128) ∧
    ((meOf s me).tick.running = true) ∧ (rd s (K.T_BUDGET t.val) * fineTick ≤ tickTook s me))
  ∧ (∃ (k : Fin 64) (s : State) (c : _) (i : _), (rd s (K.KSTATE k.val) = ksValidating) ∧
    (imgCheck s (rdBlob s (K.KIMAGE k.val)) = some (c, i)))
  ∧ (∃ (k : Fin 64) (s : State) (u : State) (img : Bytes), (rd s (K.KSTATE k.val) = ksValidating) ∧
    (img = rdBlob s (K.KIMAGE k.val)) ∧ (imgCheck s img = none) ∧
    (u = sharedInit k.val img { s with dsp.placed := tabSet none s.dsp.placed k.val (imgPlace s img) })) :=
  ⟨⟨(0 : Fin 128), { up with sch.ready := [(4, [item1])] },
    (scanLevels (0 : Fin 128).val (List.range 16) ({ up with sch.ready := [(4, [item1])] })).2, item1, by decide, by decide,
    pairEq (by decide)⟩,
    ⟨(0 : Fin 128), up, (scanLevels (0 : Fin 128).val (List.range 16) up).2, by decide, by decide, pairEq (by decide)⟩,
    ⟨(0 : Fin 128), { State.reset with sch.running := [(0, some item1)] }, item1, by decide, by decide⟩,
    ⟨(0 : Fin 128),
    { State.reset with isb.elapsed := 10000000000000000000000, sch.running := [(0, some item1)], isb.now := s1 }, item1,
    by decide +kernel, by decide +kernel⟩,
    ⟨(0 : Fin 128), { State.reset with sch.running := [(0, some item1)] }, item1, by decide +kernel, by decide +kernel⟩,
    ⟨(0 : Fin 128), State.reset, (upset cME (0 : Fin 128).val (bump (K.ME_UPSETS (0 : Fin 128).val) State.reset)).1,
    pairEq2 (by decide)⟩,
    ⟨(127 : Fin 128),
    { State.reset with flt.upsets := [(channel cME 127, [0, 0, 0, 0, 0, 0, 0, 0, 0, 0, 0, 0, 0, 0, 0, 0, 0, 0, 0, 0])] },
    (upset cME (127 : Fin 128).val (bump (K.ME_UPSETS (127 : Fin 128).val) ({ State.reset with flt.upsets := [(channel cME 127, [0, 0, 0, 0, 0, 0, 0, 0, 0, 0, 0, 0, 0, 0, 0, 0, 0, 0, 0, 0])] }))).1,
    pairEq2 (by decide)⟩,
    ⟨(0 : Fin 8), State.reset, (upset cCluster (0 : Fin 8).val State.reset).1, pairEq2 (by decide)⟩,
    ⟨(0 : Fin 8),
    { State.reset with flt.upsets := [(channel cCluster 0, [0, 0, 0, 0, 0, 0, 0, 0, 0, 0, 0, 0, 0, 0, 0, 0, 0, 0, 0, 0])] },
    (upset cCluster (0 : Fin 8).val ({ State.reset with flt.upsets := [(channel cCluster 0, [0, 0, 0, 0, 0, 0, 0, 0, 0, 0, 0, 0, 0, 0, 0, 0, 0, 0, 0, 0])] })).1,
    pairEq2 (by decide)⟩,
    ⟨(0 : Fin 8), 5,
    wr (K.T_EN 0) (1) (wr (K.T_ACTIVE_ME 0) (5) (wr (K.T_EN (0 : Fin 8).val) (1) (wr (K.T_ACTIVE_ME (0 : Fin 8).val) (5) State.reset))),
    _, by decide, by decide, by decide, by decide, by decide, by decide, rfl⟩,
    ⟨(0 : Fin 8),
    wr (K.T_PERIOD 0) (1) (wr (K.T_ACTIVE_ME 0) (255) (wr (K.T_EN 0) (1) (wr (K.T_EN (0 : Fin 8).val) (1) State.reset))),
    by decide, by decide, by decide, by decide⟩,
    ⟨(0 : Fin 8), 3,
    wr (K.T_ACTIVE_ME 0) (3) (wr (K.T_EN 0) (1) (wr (K.T_EN (0 : Fin 8).val) (1) (wr (K.T_ACTIVE_ME (0 : Fin 8).val) (3) { State.reset with dsp.mes := [(3, { tick := run0 })], isb.elapsed := 10000000000000000000000 }))),
    by decide, by decide, by decide, by decide, by decide⟩,
    ⟨(0 : Fin 64), wr (K.KSTATE (0 : Fin 64).val) (ksValidating) State.reset, 1, 0, by decide, by decide⟩,
    ⟨(0 : Fin 64), wr (K.KSTATE 0) 1 (wrBlob (K.KIMAGE 0) (image (leBytes 8 0 ++ leBytes 8 0x4B00000000000000)) State.reset),
    _, _, by decide +kernel, rfl, by decide +kernel, rfl⟩⟩

theorem hypotheses_met_serial_ports_run :
    (∃ (n : Fin 8) (s : State), ((sapOf s n.val).phase = 1) ∧ (atBoundary s = true) ∧ ((sapOf s n.val).since < clk s) ∧
    (sapMaster s n.val = true))
  ∧ (∃ (n : Fin 8) (s : State), ((sapOf s n.val).phase = 1) ∧ (atBoundary s = true) ∧ ((sapOf s n.val).since < clk s) ∧
    (sapMaster s n.val = false))
  ∧ (∃ (n : Fin 8) (s : State) (u : State), (sapMaster s n.val = false) ∧ ((sapOf s n.val).phase = 2) ∧
    (20 ≤ (sapOf s n.val).fs.good) ∧ (rateHolds s n.val = true) ∧ (u = sapAsrc 2 n.val s))
  ∧ (∃ (n : Fin 8) (s : State), (sapMaster s n.val = false) ∧ ((sapOf s n.val).phase = 5) ∧ ((sapOf s n.val).lost = true) ∧
    (20 ≤ (sapOf s n.val).fs.good) ∧ (rateHolds s n.val = true))
  ∧ (∃ (n : Fin 8) (s : State), ((sapOf s n.val).phase = 3) ∧ (rd s (K.START_FRAMES n.val) ≤ (sapOf s n.val).frames) ∧
    (atBoundary s = true) ∧ (rd s (K.GROUP n.val) = 0xFF))
  ∧ (∃ (n : Fin 8) (s : State), ((sapOf s n.val).phase = 3) ∧ (rd s (K.START_FRAMES n.val) ≤ (sapOf s n.val).frames) ∧
    (atBoundary s = true) ∧ (rd s (K.GROUP n.val) ≠ 0xFF))
  ∧ (∃ (n : Fin 8) (s : State), ((sapOf s n.val).phase = 6) ∧ (rampDone (sapOf s n.val).feed.gate = true) ∧
    (rd s (K.ASRC_STATE n.val) ≠ 3))
  ∧ (∃ (n : Fin 8) (s : State), ((sapOf s n.val).phase = 6) ∧ (rampDone (sapOf s n.val).feed.gate = true) ∧
    (rd s (K.ASRC_STATE n.val) = 3))
  ∧ (∃ (n : Fin 8) (s : State), ((sapOf s n.val).phase = 7) ∧ (rd s (K.START_FRAMES n.val) ≤ (sapOf s n.val).frames))
  ∧ (∃ (n : Fin 8) (s : State) (u : State), (sapMaster s n.val = false) ∧ ((sapOf s n.val).phase = 5) ∧
    ((sapOf s n.val).lost = false) ∧ ((sapOf s n.val).fs.last = none) ∧
    (u = sapPin n.val 3 false (sapAsrc 3 n.val (sapUpd n.val (fun p => { p with fs := {} }) (bump (K.UNDERRUNS n.val) (bump (K.CLOCK_LOSSES n.val) (wr (K.MEASURED_RATE n.val) 0 s)))))))
  ∧ (∃ (n : Fin 8) (l : Instant) (s : State) (u : State), (sapMaster s n.val = false) ∧ ((sapOf s n.val).phase = 5) ∧
    ((sapOf s n.val).lost = false) ∧ ((sapOf s n.val).fs.last = some l) ∧ (2 * s1 ≤ (clk s - l) * rd s (K.RATE n.val)) ∧
    (u = sapPin n.val 3 false (sapAsrc 3 n.val (sapUpd n.val (fun p => { p with fs := {} }) (bump (K.UNDERRUNS n.val) (bump (K.CLOCK_LOSSES n.val) (wr (K.MEASURED_RATE n.val) 0 s)))))))
  ∧ (∃ (n : Fin 8) (l : Instant) (s : State), ((sapOf s n.val).fs.last = some l) ∧
    ((clk s - l) * rd s (K.RATE n.val) < 2 * s1) ∧ (rateHolds s n.val = true))
  ∧ (∃ (n : Fin 8) (s : State), ((sapMaster s n.val || (sapOf s n.val).lost) = true))
  ∧ (∃ (n : Nat) (s : State), (rd s (K.STALE_FADE n) ≠ 0) ∧ ((sapOf s n).feed.stale = true) ∧
    ((sapOf s n).feed.staleAt + rd s (K.STALE_FADE n) * ms1 ≤ clk s) ∧ ((sapOf s n).feed.fade.new ≠ 0))
  ∧ (∃ (n : Nat) (s : State), (rd s (K.EP_STALE_FADE n) ≠ 0) ∧ ((rxOf s n).feed.stale = true) ∧
    ((rxOf s n).feed.staleAt + rd s (K.EP_STALE_FADE n) * ms1 ≤ clk s) ∧ ((rxOf s n).feed.fade.new ≠ 0))
  ∧ (∃ (n : Fin 8) (s : State) (u : State), (sapBypass s n.val = false) ∧ (3 ≤ (sapOf s n.val).phase) ∧
    ((sapOf s n.val).phase < 8) ∧ ((sapOf s n.val).lost = false) ∧ (frameNow s n.val = true) ∧
    (u = (if sapMaster s n.val then sapUpd n.val (fun p => { p with fs := { p.fs with last := some (clk s) } }) s else fsEdge n.val s)))
  ∧ (∃ (n : Fin 8) (s : State) (u : State), (sapBypass s n.val = false) ∧ (2 ≤ (sapOf s n.val).phase) ∧
    ((sapOf s n.val).phase < 8) ∧ ((sapOf s n.val).phase = 2 ∨ (sapOf s n.val).lost = true) ∧ (frameNow s n.val = true) ∧
    (u = (if sapMaster s n.val then sapUpd n.val (fun p => { p with fs := { p.fs with last := some (clk s) } }) s else fsEdge n.val s))) :=
  ⟨⟨(7 : Fin 8),
    wr (K.CLOCK 7) (0) { State.reset with isb.elapsed := 10000000000000000000000, sap.ports := [(7, { phase := 1 })] },
    by decide, by decide, by decide, by decide⟩,
    ⟨(7 : Fin 8),
    wr (K.CLOCK 7) (2) { State.reset with isb.elapsed := 10000000000000000000000, sap.ports := [(7, { phase := 1 })] },
    by decide, by decide, by decide, by decide⟩,
    ⟨(0 : Fin 8),
    wr (K.MEASURED_RATE 0) (48000) (wr (K.RATE 0) (48) (wr (K.CLOCK 0) (2) { State.reset with sap.ports := [(0, { phase := 2, fs := { good := 20 } })] })),
    _, by decide, by decide, by decide, by decide, rfl⟩,
    ⟨(0 : Fin 8),
    wr (K.MEASURED_RATE 0) (48000) (wr (K.RATE 0) (48) (wr (K.CLOCK 0) (2) { State.reset with sap.ports := [(0, { phase := 5, lost := true, fs := { good := 20 } })] })),
    by decide, by decide, by decide, by decide, by decide⟩,
    ⟨(7 : Fin 8),
    wr (K.GROUP 7) (255) (wr (K.START_FRAMES 7) (4) (wr (K.GROUP (7 : Fin 8).val) (0xFF) { State.reset with sap.ports := [(7, { phase := 3, frames := 4 })] })),
    by decide, by decide, by decide, by decide⟩,
    ⟨(7 : Fin 8),
    wr (K.GROUP 7) (0) (wr (K.START_FRAMES 7) (4) { State.reset with sap.ports := [(7, { phase := 3, frames := 4 })] }),
    by decide, by decide, by decide, by decide⟩,
    ⟨(7 : Fin 8), wr (K.ASRC_STATE 7) (1) { State.reset with sap.ports := [(7, { phase := 6 })] }, by decide, by decide,
    by decide⟩,
    ⟨(7 : Fin 8),
    wr (K.ASRC_STATE 7) (3) (wr (K.ASRC_STATE (7 : Fin 8).val) (3) { State.reset with sap.ports := [(7, { phase := 6 })] }),
    by decide, by decide, by decide⟩,
    ⟨(7 : Fin 8), wr (K.START_FRAMES 7) (4) { State.reset with sap.ports := [(7, { phase := 7, frames := 4 })] }, by decide,
    by decide⟩,
    ⟨(7 : Fin 8), wr (K.CLOCK 7) (2) { State.reset with sap.ports := [(7, { phase := 5 })] }, _, by decide, by decide,
    by decide, by decide, rfl⟩,
    ⟨(0 : Fin 8), 5,
    wr (K.CLOCK 0) (2) { State.reset with sap.ports := [(0, { phase := 5, fs := { last := some 5 } })], isb.elapsed := 10000000000000000000000 },
    _, by decide, by decide, by decide, by decide, by decide, rfl⟩,
    ⟨(0 : Fin 8), 5,
    wr (K.MEASURED_RATE 0) (48000000) (wr (K.RATE 0) (48000) { State.reset with sap.ports := [(0, { phase := 5, fs := { last := some 5 } })], isb.elapsed := 6 }),
    by decide, by decide, by decide⟩,
    ⟨(0 : Fin 8), State.reset, by decide⟩,
    ⟨7,
    wr (K.STALE_FADE 7) (10) (wr (K.STALE_FADE 7) (1) { State.reset with isb.elapsed := 10000000000000000000000, sap.ports := [(7, { feed := { stale := true } })], isb.now := 10 * ms1 }),
    by decide, by decide, by decide, by decide⟩,
    ⟨63,
    wr (K.EP_STALE_FADE 63) (10) (wr (K.EP_STALE_FADE 63) (1) { State.reset with isb.elapsed := 10000000000000000000000, sap.rx := [(63, { feed := { stale := true } })], isb.now := 10 * ms1 }),
    by decide, by decide, by decide, by decide⟩,
    ⟨(7 : Fin 8), wr (K.CLOCK 7) (2) { State.reset with sap.ports := [(7, { phase := 7 })] }, _, by decide, by decide,
    by decide, by decide, by decide, rfl⟩,
    ⟨(0 : Fin 8), wr (K.CLOCK 0) (2) { State.reset with sap.ports := [(0, { phase := 2 })] }, _, by decide, by decide,
    by decide, by decide, by decide, rfl⟩⟩

theorem hypotheses_met_mixer_and_talkers_run :
    (∃ (di : List (List Int)) (s : State) (u : State), (atBoundary s = true) ∧ (rd s (K.PD_STATE 13) = 0 ∧ modeOf s ≠ mSafe) ∧
    (u = hubSample (boundaryNow s) di s))
  ∧ (∃ (s : State), (atBoundary s = true) ∧ (rd s (K.PD_STATE 13) ≠ 0 ∨ modeOf s = mSafe))
  ∧ (∃ (offset : Nat) (s : State), (offset % 4 = 0) ∧ (offset < 0x800000) ∧ (bankOpen s 0 (offset / 0x400000) = true))
  ∧ (∃ (offset : Nat) (s : State), (offset % 4 = 0) ∧ (offset < 0x800000) ∧ (bankOpen s 0 (offset / 0x400000) = false))
  ∧ (∃ (offset : Nat) (width : Nat), (¬((width = 4 ∨ width = 8) ∧ offset % width = 0 ∧ offset < 0x1000000)))
  ∧ (∃ (s : State), (s.mix.copying = some 0))
  ∧ (∃ (s : State), (s.mix.copying = some 3))
  ∧ (∃ (side : Fin 2) (s : State), (s.mix.copying = some (side.val + 1)))
  ∧ (∃ (s : State) (d : Decision) (rest : List Decision) (t : Instant), (s.mix.tm.decisions = d :: rest) ∧ (d.at_ = some t) ∧
    (t ≤ s.isb.now))
  ∧ (∃ (s : State), (s.isb.now % (10 * ms1) = 0))
  ∧ (∃ (s : State) (p : Nat) (c : Nat), (candOf s p = none) ∧ (freeCand s = some c))
  ∧ (∃ (s : State) (p : Nat) (c : Nat) (l : Nat), (candOf s p = none) ∧ (freeCand s = none) ∧
    (quietest s (fun l _ => !legPinned s l) = some (c, l)))
  ∧ (∃ (s : State) (q : Nat) (c : Nat), (candOf s q = none) ∧ (freeCand s = some c))
  ∧ (∃ (c : Fin 64) (s : State), ((candAt s c.val).leg.isNone = false) ∧ ((candAt s c.val).concealed = false) ∧
    ((candAt s c.val).packetAt + 60 * ms1 ≤ clk s))
  ∧ (∃ (leg : Nat) (s : State) (t : Talker) (q : Instant), (tmOpenOf s (65536 + leg) = some t) ∧ (t.voice = true) ∧
    ((legAudio s leg).quietAt = some q) ∧ (q + rd s K.VOICE_HANG * ms1 ≤ clk s))
  ∧ (∃ (l : Nat) (s : State), (l ≠ 0) ∧ (l < 32) ∧ (rd s (K.FALLBACK (l - 1)) ≠ 0) ∧ ((langOf s l).live = false) ∧
    ((langOf s l).fallback = false) ∧ ((langOf s l).lastLive + rd s (K.FALLBACK_DELAY (l - 1)) * ms1 ≤ clk s))
  ∧ (∃ (g : Fin 64) (n : Nat) (s : State) (u : State) (e : List Nat × Nat), (s.isb.now % groupFrame s g.val = 0) ∧
    (n = groupSamples s g.val) ∧ (rd s (K.SE_EN g.val) ≠ 0) ∧ (n ≤ ((tabGet [] s.mix.encWait g.val).take n).length) ∧
    ((positionsHeld s).filter (fun h => h.2.1 == g.val) = []) ∧
    (e = encodeRow (groupParams s g.val) (tabGet 0 s.mix.encoders g.val) ((tabGet [] s.mix.encWait g.val).take n).reverse) ∧
    (u = ((upLegs s).filter (fun l => legGroup s l == g.val)).foldl (fun s' l => sendAudio l g.val (sampleAtOrAfter s.isb.now - n) e.1 s') { s with mix.encoders := tabSet 0 s.mix.encoders g.val e.2 })) :=
  ⟨⟨[], wr K.MODE (1) (wr (K.PD_STATE 13) (0) State.reset), _, by decide, by decide, rfl⟩,
    ⟨wr (K.PD_STATE 13) (1) State.reset, by decide, by decide⟩,
    ⟨0, State.reset, by decide, by decide, by decide⟩,
    ⟨0, { State.reset with mix.leftDefault := true }, by decide, by decide, by decide⟩,
    ⟨0, 0, by decide⟩,
    ⟨{ State.reset with mix.copying := some 0 }, by decide⟩,
    ⟨{ State.reset with mix.copying := some 3 }, by decide⟩,
    ⟨(0 : Fin 2), { State.reset with mix.copying := some ((0 : Fin 2).val + 1) }, by decide⟩,
    ⟨{ State.reset with mix.tm.decisions := [{ td := 0, at_ := some 5 }], isb.now := 5 },
    ({ td := 0, at_ := some 5 } : Decision), [], 5, by decide, by decide, by decide⟩,
    ⟨State.reset, by decide⟩,
    ⟨State.reset, 0, (freeCand State.reset).get (by decide), by decide, (Option.some_get _).symm⟩,
    ⟨{ State.reset with mix.cands := (List.range 64).map (fun k => (k, { leg := some k })) }, 100, 63, 63, by decide +kernel,
    by decide +kernel, by decide +kernel⟩,
    ⟨State.reset, 0, (freeCand State.reset).get (by decide), by decide, (Option.some_get _).symm⟩,
    ⟨(63 : Fin 64),
    { State.reset with isb.elapsed := 10000000000000000000000, isb.now := 60 * ms1, mix.cands := [(63, { leg := some 3 })] },
    by decide, by decide, by decide⟩,
    ⟨9,
    wr K.VOICE_HANG (100) { State.reset with isb.elapsed := 10000000000000000000000, isb.now := 100 * ms1, mix.tm.opened := [{ ident := 65545, voice := true }], mix.legs := [(9, { quietAt := some 0 })] },
    ({ ident := 65545, voice := true } : Talker), 0, by decide, by decide, by decide, by decide⟩,
    ⟨1, wr (K.FALLBACK (1 - 1)) (1) { State.reset with isb.elapsed := 10000000000000000000000 }, by decide, by decide,
    by decide, by decide, by decide, by decide⟩,
    ⟨(63 : Fin 64), _,
    wr (K.SE_EN 63) (1) (wr (K.SE_EN (63 : Fin 64).val) (1) { State.reset with mix.encWait := [(63, List.replicate 960 0)] }),
    _, _, by decide +kernel, rfl, by decide +kernel, by decide +kernel, by decide +kernel, rfl, rfl⟩⟩

theorem hypotheses_met_mixer_commands_complete :
    (∃ (s : State), (atBoundary s = false))
  ∧ (∃ (s : State), (atBoundary s = true) ∧ (s.fld.nodes = []) ∧ (rd s (K.PD_STATE 13) ≠ 0 ∨ modeOf s = mSafe))
  ∧ (∃ (di : List (List Int)) (s : State), (atBoundary s = true) ∧ (rd s (K.PD_STATE 13) = 0) ∧ (modeOf s ≠ mSafe) ∧
    ((hubSample (boundaryNow s) di s).fld.nodes = []))
  ∧ (∃ (offset : Nat) (s : State), (offset % 8 = 0) ∧ (offset < 0x800000) ∧ (bankOpen s 0 (offset / 0x400000) = true))
  ∧ (∃ (offset : Nat) (width : Nat) (side : Nat) (bank : Nat) (k : Nat) (off : Nat) (s : State), (width = 4 ∨ width = 8) ∧
    (offset % width = 0) ∧ (offset < 0x1000000) ∧ (bar2Item offset = some (side + 1, bank, k, off)) ∧
    (bankOpen s (side + 1) bank = true))
  ∧ (∃ (offset : Nat) (width : Nat) (side : Nat) (bank : Nat) (k : Nat) (off : Nat) (s : State), (width = 4 ∨ width = 8) ∧
    (offset % width = 0) ∧ (offset < 0x1000000) ∧ (bar2Item offset = some (side + 1, bank, k, off)) ∧
    (bankOpen s (side + 1) bank = false))
  ∧ (∃ (offset : Nat) (width : Nat), (width = 4 ∨ width = 8) ∧ (offset % width = 0) ∧ (0x980000 ≤ offset) ∧
    (offset < 0x1000000))
  ∧ (∃ (s : State), (s.mix.copying = none))
  ∧ (∃ (n : Nat) (s : State), (s.mix.copying = some n))
  ∧ (∃ (s : State), (∀ m, m < 16 → rd s (K.LM_EN m) ≠ 1 ∨ (tabGet {} s.mix.loud m).seg.length < loudSeg)) :=
  ⟨⟨{ State.reset with isb.now := 10000000000 }, by decide⟩,
    ⟨wr (K.PD_STATE 13) (1) { State.reset with fld.nodes := [] }, by decide, by decide, by decide⟩,
    ⟨[], wr K.MODE (1) (wr (K.PD_STATE 13) (0) up), by decide +kernel, by decide +kernel, by decide +kernel,
    by decide +kernel⟩,
    ⟨0, State.reset, by decide, by decide, by decide⟩,
    ⟨0x800000, 4, 0, 0, 0, 0, State.reset, by decide, by decide, by decide, by decide, by decide⟩,
    ⟨0x800000, 4, 0, 0, 0, 0, { State.reset with mix.leftDefault := true }, by decide, by decide, by decide, by decide,
    by decide⟩,
    ⟨0x980000, 4, by decide, by decide, by decide, by decide⟩,
    ⟨{ State.reset with mix.copying := none }, by decide⟩,
    ⟨0, { State.reset with mix.copying := some 0 }, by decide⟩,
    ⟨State.reset, by decide⟩⟩

theorem hypotheses_met_talker_commands_complete :
    (∃ (s : State), (s.mix.tm.decisions.find? (decisionDue s) = none))
  ∧ (∃ (s : State) (u : State) (d : Decision), (s.mix.tm.decisions.find? (decisionDue s) = some d) ∧
    (u = tmUpd (fun x => { x with decisions := x.decisions.erase d, ducking := d.duck.getD x.ducking }) s))
  ∧ (∃ (s : State), (s.isb.now % (10 * ms1) ≠ 0))
  ∧ (∃ (s : State), (s.isb.now % (10 * ms1) = 0))
  ∧ (∃ (c : Fin 64) (s : State), (clk s < (candAt s c.val).packetAt + 60 * ms1))
  ∧ (∃ (c : Fin 64) (l : Nat) (s : State), ((candAt s c.val).leg = some l) ∧ ((candAt s c.val).concealed = false) ∧
    ((candAt s c.val).packetAt + 60 * ms1 ≤ clk s))
  ∧ (∃ (leg : Nat) (s : State), (tmOpenOf s (65536 + leg) = none))
  ∧ (∃ (leg : Nat) (s : State) (t : Talker) (q : Instant), (tmOpenOf s (65536 + leg) = some t) ∧
    ((legAudio s leg).quietAt = some q) ∧ (t.voice = false ∨ clk s < q + rd s K.VOICE_HANG * ms1))
  ∧ (∃ (l : Nat) (s : State),
    (l = 0 ∨ 32 ≤ l ∨ rd s (K.FALLBACK (l - 1)) = 0 ∨ (langOf s l).live = true ∨ (langOf s l).fallback = true))
  ∧ (∃ (l : Nat) (s : State), (l ≠ 0) ∧ (l < 32) ∧ (rd s (K.FALLBACK (l - 1)) ≠ 0) ∧ ((langOf s l).live = false) ∧
    ((langOf s l).fallback = false) ∧ ((langOf s l).lastLive + rd s (K.FALLBACK_DELAY (l - 1)) * ms1 ≤ clk s)) :=
  ⟨⟨State.reset, by decide⟩,
    ⟨{ State.reset with mix.tm := { decisions := [{ td := 0, at_ := some 0 }] } }, _, ({ td := 0, at_ := some 0 } : Decision),
    by decide, rfl⟩,
    ⟨{ State.reset with isb.now := 5 }, by decide⟩,
    ⟨State.reset, by decide⟩,
    ⟨(0 : Fin 64), State.reset, by decide⟩,
    ⟨(0 : Fin 64), 3, { State.reset with isb.elapsed := 10000000000000000000000, mix.cands := [(0, { leg := some 3 })] },
    by decide, by decide, by decide⟩,
    ⟨0, State.reset, by decide⟩,
    ⟨3,
    { State.reset with isb.elapsed := 6, mix.legs := [(3, { quietAt := some 5 })], mix.tm := { opened := [{ ident := 65539 }] } },
    ({ ident := 65539 } : Talker), 5, by decide, by decide, by decide⟩,
    ⟨0, State.reset, by decide⟩,
    ⟨1, wr (K.FALLBACK (1 - 1)) (1) { State.reset with isb.elapsed := 10000000000000000000000 }, by decide, by decide,
    by decide, by decide, by decide, by decide⟩⟩

theorem hypotheses_met_group_frames_are_encoded :
    (∃ (g : Fin 64) (s : State), (s.isb.now % groupFrame s g.val ≠ 0))
  ∧ (∃ (g : Fin 64) (s : State), (s.isb.now % groupFrame s g.val = 0) ∧
    ((positionsHeld s).filter (fun h => h.2.1 == g.val) = []) ∧
    (rd s (K.SE_EN g.val) = 0 ∨ ((tabGet [] s.mix.encWait g.val).take (groupSamples s g.val)).length < groupSamples s g.val))
  ∧ (∃ (g : Fin 64) (n : Nat) (s : State) (u : State) (e : List Nat × Nat), (s.isb.now % groupFrame s g.val = 0) ∧
    (n = groupSamples s g.val) ∧ (rd s (K.SE_EN g.val) ≠ 0) ∧ (n ≤ ((tabGet [] s.mix.encWait g.val).take n).length) ∧
    ((positionsHeld s).filter (fun h => h.2.1 == g.val) = []) ∧
    (e = encodeRow (groupParams s g.val) (tabGet 0 s.mix.encoders g.val) ((tabGet [] s.mix.encWait g.val).take n).reverse) ∧
    (u = ((upLegs s).filter (fun l => legGroup s l == g.val)).foldl (fun s' l => sendAudio l g.val (sampleAtOrAfter s.isb.now - n) e.1 s') { s with mix.encoders := tabSet 0 s.mix.encoders g.val e.2 })) :=
  ⟨⟨(0 : Fin 64), { State.reset with isb.now := 5 }, by decide⟩,
    ⟨(0 : Fin 64), wr (K.SE_EN (0 : Fin 64).val) (0) State.reset, by decide, by decide, by decide⟩,
    ⟨(0 : Fin 64), _,
    wr (K.SE_FRAME 0) (0) (wr (K.SE_EN 0) (1) (wr (K.SE_EN (0 : Fin 64).val) (1) { State.reset with mix.encWait := [(0, List.replicate 480 0)] })),
    _, _, by decide +kernel, rfl, by decide +kernel, by decide +kernel, by decide +kernel, rfl, rfl⟩⟩

theorem hypotheses_met_ports_and_frames_act :
    (∃ (p : Fin 8) (f : Frame) (s : State) (t : State), (portUp s p.val = true) ∧ (f.pcsBad = false) ∧ (64 ≤ f.len + 4) ∧
    (f.len + 4 ≤ rd s (K.MAX_FRAME p.val)) ∧ (f.fcsBad = false) ∧
    (t = bumpBy (K.FRAME_COUNTS p.val 1) (f.len + 4) (bump (K.FRAME_COUNTS p.val 0) s)) ∧
    (noCells t (classify t p.val f) f.len = false) ∧ (poolSpill t = false))
  ∧ (∃ (p : Fin 8) (f : Frame) (s : State), (portUp s p.val = true) ∧ (f.pcsBad = true))
  ∧ (∃ (p : Fin 8) (f : Frame) (s : State), (portUp s p.val = true) ∧ (f.pcsBad = false) ∧
    (f.len + 4 < 64 ∨ rd s (K.MAX_FRAME p.val) < f.len + 4))
  ∧ (∃ (p : Fin 8) (f : Frame) (s : State), (portUp s p.val = true) ∧ (f.pcsBad = false) ∧ (64 ≤ f.len + 4) ∧
    (f.len + 4 ≤ rd s (K.MAX_FRAME p.val)) ∧ (f.fcsBad = true))
  ∧ (∃ (p : Nat) (f : Frame) (s : State), (macAccepted s p f.dst = false ∨ vlanMismatch s p f = true))
  ∧ (∃ (f : Frame) (s : State), (rd s K.MGMT_STATE ≠ 0) ∧ (f.fcsBad = false) ∧ (f.pcsBad = false) ∧ (f.len + 4 ≤ 1522))
  ∧ (∃ (p : Fin 9) (s : State) (t : State), (p.val ≠ 8) ∧ (t = bump (K.PAUSE_RECEIVED p.val) s) ∧
    (rd t (K.RX_PAUSE_EN p.val) ≠ 0))
  ∧ (∃ (p : Fin 8) (s : State) (t : State), (t = bump (K.PAUSE_RECEIVED p.val) s) ∧ (rd t (K.RX_PAUSE_EN p.val) ≠ 0))
  ∧ (∃ (p : Fin 9) (s : State) (t : State) (u : State), (p.val ≠ 8) ∧
    (t = txPortUpd p.val (fun x => { x with pfcEnd := (txPort s p.val).pfcEnd.filter (fun e => decide (clk s < e.2)), active := x.active.filter (fun l => !pfcPaused s p.val (rd s (K.TX_PCP l))) }) s) ∧
    (u = wr (K.LEGS_ACTIVE p.val) (txPort t p.val).active.length t))
  ∧ (∃ (p : Fin 8) (s : State), ((txPort s p.val).congested = true) ∧ ((txPort s p.val).pauseDue = none) ∧
    ((txPort s p.val).pauseAt + rd s (K.PAUSE_QUANTA p.val) * 512 * 1000000000 * ns1 / portRate s / 2 ≤ clk s))
  ∧ (∃ (p : Fin 8) (s : State), (rd s (K.PORT_EN p.val) ≠ 0) ∧ (rd s (K.PORT_STATE p.val) ≠ psRetired))
  ∧ (∃ (p : Fin 8) (s : State), (rd s (K.PORT_STATE p.val) = psTraining))
  ∧ (∃ (p : Fin 8) (c : Nat) (u : Nat) (s : State) (t : State), ((txPort s p.val).fecAt + s1 ≤ clk s) ∧
    (t = bumpBy (K.FEC_CORRECTED p.val) c (bumpBy (K.FEC_UNCORRECTED p.val) u (txPortUpd p.val (fun x => { x with fecAt := clk s }) s))))
  ∧ (∃ (p : Fin 9) (s : State) (f : Sending), ((txPort s p.val).sending = some f) ∧ (clk s < f.freeAt))
  ∧ (∃ (p : Fin 9) (s : State) (t : State), (∀ f, (txPort s p.val).sending = some f → f.freeAt ≤ clk s) ∧ (p.val ≠ 8) ∧
    (t = txPortUpd p.val (fun x => { x with sending := none }) s) ∧ (portUp t p.val = true))
  ∧ (∃ (s : State) (t : State), (∀ f, (txPort s 8).sending = some f → f.freeAt ≤ clk s) ∧
    (t = txPortUpd 8 (fun x => { x with sending := none }) s) ∧ (rd t K.MGMT_STATE ≠ 0))
  ∧ (∃ (s : State), (9 ≤ s.boot.step) ∧ (rd s K.POOL_MODE = pmSpill) ∧ (s.mem.reinterleave = false))
  ∧ (∃ (s : State), (rd s K.POOL_MODE = pmDraining))
  ∧ (∃ (s : State), (s.pkt.auditAt + 100 * ms1 ≤ clk s))
  ∧ (∃ (s : State), (s.boot.step ≠ 0)) :=
  ⟨⟨(7 : Fin 8), ({ len := 60, arrival := 0, dst := 5, body := .other } : Frame),
    wr K.POOL_MODE (0) (wr (K.MAX_FRAME 7) (1522) (wr (K.PORT_STATE 7) (3) State.reset)), _, by decide, by decide, by decide,
    by decide, by decide, rfl, by decide, by decide⟩,
    ⟨(7 : Fin 8), ({ len := 60, arrival := 0, dst := 5, body := .other, pcsBad := true } : Frame),
    wr (K.PORT_STATE 7) (3) State.reset, by decide, by decide⟩,
    ⟨(7 : Fin 8), ({ len := 59, arrival := 0, dst := 5, body := .other } : Frame), wr (K.PORT_STATE 7) (3) State.reset,
    by decide, by decide, by decide⟩,
    ⟨(7 : Fin 8), ({ len := 1518, arrival := 0, dst := 5, body := .other, fcsBad := true } : Frame),
    wr K.POOL_MODE (0) (wr (K.MAX_FRAME 7) (1522) (wr (K.PORT_STATE 7) (3) State.reset)), by decide, by decide, by decide,
    by decide, by decide⟩,
    ⟨7, ({ len := 1518, arrival := 0, dst := 5, body := .other } : Frame), State.reset, by decide⟩,
    ⟨({ len := 1518, arrival := 0, dst := 5, body := .other } : Frame), wr K.MGMT_STATE (1) State.reset, by decide, by decide,
    by decide, by decide⟩,
    ⟨(0 : Fin 9), State.reset, _, by decide, rfl, by decide⟩,
    ⟨(0 : Fin 8), State.reset, _, rfl, by decide⟩,
    ⟨(0 : Fin 9), State.reset, _, _, by decide, rfl, rfl⟩,
    ⟨(7 : Fin 8),
    wr (K.PAUSE_QUANTA 7) (0) { State.reset with isb.elapsed := 10000000000000000000000, trf.ports := [(7, { congested := true })] },
    by decide, by decide, by decide⟩,
    ⟨(7 : Fin 8), wr (K.PORT_STATE 7) (3) (wr (K.PORT_EN 7) (1) (wr (K.PORT_EN (7 : Fin 8).val) (1) State.reset)), by decide,
    by decide⟩,
    ⟨(0 : Fin 8), wr (K.PORT_STATE (0 : Fin 8).val) (psTraining) State.reset, by decide⟩,
    ⟨(0 : Fin 8), 0, 0, { State.reset with isb.elapsed := 10000000000000000000000 }, _, by decide, rfl⟩,
    ⟨(0 : Fin 9), { State.reset with isb.elapsed := 5, trf.ports := [(0, { sending := some { freeAt := 9 } })] },
    ({ freeAt := 9 } : Sending), by decide, by decide⟩,
    ⟨(7 : Fin 9), wr (K.PORT_STATE 7) (3) { State.reset with isb.elapsed := 10000000000000000000000 }, _, by decide,
    by decide, rfl, by decide⟩,
    ⟨wr K.MGMT_STATE (1) { State.reset with isb.elapsed := 10000000000000000000000 }, _, by decide, rfl, by decide⟩,
    ⟨wr K.POOL_MODE (pmSpill) { State.reset with boot.step := 9, mem.reinterleave := false }, by decide, by decide, by decide⟩,
    ⟨wr K.POOL_MODE (pmDraining) State.reset, by decide⟩,
    ⟨{ State.reset with isb.elapsed := 10000000000000000000000 }, by decide⟩,
    ⟨{ State.reset with boot.step := 1 }, by decide⟩⟩

theorem hypotheses_met_forwarding_and_shaping_act :
    (∃ (l : Nat) (p : Nat) (s : State) (t : State), (p = legPort s l) ∧ ((queueOf s (qOut l)).entries.isEmpty = false) ∧
    (conforming s l = true) ∧ ((txPort s p).active.contains l = false) ∧ (pfcPaused s p (rd s (K.TX_PCP l)) = false) ∧
    (rd s (K.LEG_STATE l) = 1) ∧ (t = txPortUpd p (fun x => { x with active := x.active ++ [l] }) s))
  ∧ (∃ (s : State), (s.isb.now % (10 * ms1) = 0))
  ∧ (∃ (p : Fin 8) (g : GatePend) (s : State) (t : State) (u : State) (v : State), ((txPort s p.val).takeover = some g) ∧
    (g.c ≤ nowNs s) ∧ ((txPort s p.val).sending = none) ∧ (rdBlob s (K.ADMIN_LIST p.val) ≠ []) ∧
    (t = wrBlob (K.OPER_LIST p.val) (rdBlob s (K.ADMIN_LIST p.val)) (wr (K.OPER_BASE p.val) (rd s (K.ADMIN_BASE p.val)) (wr (K.OPER_CYCLE p.val) (rd s (K.ADMIN_CYCLE p.val)) (wr (K.OPER_EXT p.val) (rd s (K.ADMIN_EXT p.val)) s)))) ∧
    (u = txPortUpd p.val (fun x => { x with takeover := none }) t) ∧ (v = launchDone g.slot (launchOf u g.slot).late u))
  ∧ (∃ (s : State), (serves s = true))
  ∧ (∃ (l : Nat) (s : State), (legUp s l = true) ∧ (s.isb.now % (100 * ms1) = 0))
  ∧ (∃ (s : State) (t : State) (u : State), (t = ((upLegs s).flatMap (fun l => ([0, 1,
    2].filter (fun j => (slotOf s l (j + 1)).waitSince.any (fun w => decide (w + rd s K.FWD_REFRESH_WAIT * ms1 ≤ clk s)))).map (fun j => (l,
    j)))).foldl (fun z x => slotRefresh x.1 x.2 false (slotUpd x.1 (x.2 + 1) (fun y => { y with waitSince := some (clk z) }) z)) s) ∧
    (u = ((decsOn s).filter (fun c => (decOf s c).waitSince.any (fun w => decide (w + rd s K.FWD_REFRESH_WAIT * ms1 ≤ clk s)))).foldl (fun z c => decRequest c (decUpd c (fun x => { x with waitSince := some (clk z) }) z)) t))
  ∧ (∃ (l : Nat) (z : State) (s : State), (z.fwd.feedbackAt + 50 * ms1 ≤ clk z) ∧ (s = { z with fwd.feedbackAt := clk z }) ∧
    (upLegs s = [l]) ∧ (rd s (K.EXT_IDS l) % 256 ≠ 0) ∧ ((legOf s l).twSeen.isEmpty = false))
  ∧ (∃ (l : Nat) (z : State) (s : State), (z.fwd.reportAt + s1 ≤ clk z) ∧ (s = { z with fwd.reportAt := clk z }) ∧
    (upLegs s = [l]) ∧ ((legOf s l).rx = []))
  ∧ (∃ (p : Fin 8) (s : State), (portUp s p.val = true) ∧ ((txPort s p.val).upAt + rd s K.FWD_FAILBACK_HOLD * s1 ≤ clk s))
  ∧ (∃ (z : State) (s : State), (z.fwd.ckptAt + rd z K.FWD_CKPT_PERIOD * ms1 ≤ clk z) ∧ (s = { z with fwd.ckptAt := clk z }) ∧
    (pairHealthy s = true) ∧ (roleOf s = roleActive))
  ∧ (∃ (l : Nat) (s : State), ((legOf s l).authAt + s1 ≤ clk s) ∧ (64 < (legOf s l).authFails))
  ∧ (∃ (l : Nat) (s : State), ((legOf s l).authAt + s1 ≤ clk s) ∧ ((legOf s l).authFails ≤ 64)) :=
  ⟨⟨20479, _,
    wr (K.LEG_PORT 20479) (7) (wr (K.LEG_STATE 20479) (1) (wr (K.LEG_STATE 20479) (1) { State.reset with pkt.queues := [(40959, { entries := [.pkt 0] })] })),
    _, rfl, by decide, by decide, by decide, by decide, by decide, rfl⟩,
    ⟨State.reset, by decide⟩,
    ⟨(7 : Fin 8), ({ slot := 3, tl := 0, c := 0 } : GatePend),
    { State.reset with trf.ports := [(7, { takeover := some { slot := 3, tl := 0, c := 0 } })], blobs := [(K.ADMIN_LIST 7, some [1])] },
    _, _, _, by decide, by decide, by decide, by decide, rfl, rfl, rfl⟩,
    ⟨State.reset, by decide⟩,
    ⟨20479, wr (K.LEG_STATE 20479) (1) { State.reset with isb.now := 100 * ms1 }, by decide, by decide⟩,
    ⟨State.reset, _, _, rfl, rfl⟩,
    ⟨0,
    wr (K.LEG_STATE 0) (1) (wr (K.EXT_IDS 0) (5) { State.reset with isb.elapsed := 10000000000000000000000, fwd.legs := [(0, { twSeen := [(1, 1)] })] }),
    _, by decide, rfl, by decide, by decide, by decide⟩,
    ⟨0, wr (K.LEG_STATE 0) (1) { State.reset with isb.elapsed := 10000000000000000000000 }, _, by decide, rfl, by decide,
    by decide⟩,
    ⟨(7 : Fin 8), wr (K.PORT_STATE 7) (3) { State.reset with isb.elapsed := 10000000000000000000000, isb.now := 100 * s1 },
    by decide, by decide⟩,
    ⟨wr K.ROLE (1) (wr K.PAIR_STATE (2) (wr K.PAIR_LINK_STATE (2) { State.reset with isb.elapsed := 10000000000000000000000 })),
    _, by decide, rfl, by decide, by decide⟩,
    ⟨20479, { State.reset with isb.elapsed := 10000000000000000000000, fwd.legs := [(20479, { authFails := 65 })] },
    by decide, by decide⟩,
    ⟨0, { State.reset with isb.elapsed := 10000000000000000000000 }, by decide, by decide⟩⟩

theorem hypotheses_met_keys_and_seals_act :
    (∃ (r : KeyRec), r.checkOk = false)
  ∧ (∃ (r : KeyRec), (r.kind = 1))
  ∧ (∃ (s : State), (s.sea.queue.length < 512))
  ∧ (∃ (s : State), (512 ≤ s.sea.queue.length))
  ∧ (∃ (w : SealWork) (rest : List SealWork) (s : State) (t : State) (res : Nat) (nonce : List Nat) (tag : List Nat),
    (s.sea.queue = w :: rest) ∧
    (sealCompute w.req w.absent (sealMsg s w.req) ((sealArea s w.req).drop 16) (((sealArea s w.req).drop 4).take 12) { s with sea.queue := rest } = ((res,
    nonce, tag), t)))
  ∧ (∃ (w : SealWork) (rest : List SealWork) (s : State) (t : State) (u : State), (s.sea.work = w :: rest) ∧
    (sealCores { s with sea.work := rest } ≠ 0) ∧ (t = sealSync { s with sea.work := rest }) ∧
    (u = bump K.SEAL_REQUESTS (upd (w.result == sealCompareFail) (bump K.COMPARE_FAILS) t)))
  ∧ (∃ (l : Nat) (s : State), ((tabGet {} s.sea.srtpOut l).next.isSome = true) ∧
    ((tabGet {} s.sea.srtpOut l).effective ≤ nowNs s)) :=
  ⟨⟨{ kind := 1, target := 2, checkOk := false }, rfl⟩,
    ⟨({ kind := 1, target := 2 } : KeyRec), by decide⟩,
    ⟨{ State.reset with sea.queue := List.replicate 511 { req := { op := 1, slot := 2 } } }, by decide +kernel⟩,
    ⟨{ State.reset with sea.queue := List.replicate 512 { req := { op := 1, slot := 2 } } }, by decide +kernel⟩,
    ⟨{ req := { op := 1, slot := 2 } }, [], { State.reset with sea.queue := [{ req := { op := 1, slot := 2 } }] }, _, _, _, _,
    rfl, rfl⟩,
    ⟨({ req := { op := 1, slot := 2 } } : SealWork), [], { State.reset with sea.work := [{ req := { op := 1, slot := 2 } }] },
    _, _, by decide, by decide, rfl, rfl⟩,
    ⟨20479, { State.reset with sea.srtpOut := [(20479, { next := some { alg := 0, key := [], salt := [] } })] }, by decide,
    by decide⟩⟩

theorem hypotheses_met_sent_headers_check :
    ∃ (f : TxFrame), (f.v6 = false) :=
  ⟨{ queue := 0, len := 0, dst := [192, 168, 0, 199], src := [192, 168, 0, 1], body := .host [] }, by decide⟩

theorem hypotheses_met_pictures_are_coded_and_composed :
    (∃ (j : Fin 2) (s : State) (c : Nat) (b : Nat) (q : ReadyPic) (rest : List ReadyPic), (vdecPick s j.val = some c) ∧
    ((decOf s c).pics = q :: rest) ∧ (q.target = some b))
  ∧ (∃ (c : Fin 1024) (s : State) (q : ReadyPic) (rest : List ReadyPic) (t : Instant), ((decOf s c.val).pics = q :: rest) ∧
    (q.bufWait = some t) ∧ (s1 ≤ 2 * rd s (K.MAX_RATE c.val) * (clk s - t)))
  ∧ (∃ (j : Fin 3) (s : State) (c : Nat) (q : ReadyPic) (rest : List ReadyPic) (t : Instant), (j.val < 2) ∧
    (vdecPick s j.val = some c) ∧ ((decOf s c).pics = q :: rest) ∧ (q.started = some t) ∧ (t + 50 * ms1 ≤ clk s))
  ∧ (∃ (s : State) (e : Nat) (p : EncPic) (rest : List EncPic) (t : Instant), (vencPick s = some e) ∧
    ((encOf s e).pics = p :: rest) ∧ (p.started = some t) ∧ (t + 50 * ms1 ≤ clk s))
  ∧ (∃ (c : Fin 1024) (s : State) (t : Instant), ((decOf s c.val).damagedSince = some t) ∧ (rd s (K.REQ_POLICY c.val) = 2) ∧
    ((decOf s c.val).asked = false) ∧ (t + rd s (K.DAMAGE_WAIT c.val) * ms1 ≤ clk s))
  ∧ (∃ (e : Fin 256) (rows : List EncRow) (units : List Bytes) (s : State) (p : EncPic) (rest : List EncPic),
    ((encOf s e.val).pics = p :: rest) ∧ (rd s (K.ENC_STATE e.val) ≠ vsSuspended) ∧ (rd s (K.ENC_EN e.val) ≠ 0) ∧
    (pictureOk s e.val rows units = true))
  ∧ (∃ (o : Fin 64) (s : State), (rd s (K.OUT_EN o.val) = 0 ∨ modeOf s = mSafe ∨ boundaryHere s o.val = none))
  ∧ (∃ (o : Fin 64) (ns : Nat) (s : State) (z : State) (u : State) (t : Bytes) (x : LayerScan), (rd s (K.OUT_EN o.val) ≠ 0) ∧
    (modeOf s ≠ mSafe) ∧ (boundaryHere s o.val = some ns) ∧ (z = picOverdue o.val s) ∧ (t = activeTable z o.val) ∧
    (x = (List.range (tableCount t)).foldl (scanLayer z ns (rd z (K.ACTIVE_TABLE o.val)) t) { held := (cmpOut z o.val).held }) ∧
    (u = wrBlob (K.STALE_LAYERS o.val) (leBytes 9 x.stale) (x.reads.foldl (fun z i => bufUpd i (fun y => { y with read := y.read + 1 }) z) z)))
  ∧ (∃ (o : Nat) (s : State) (p : PicLatch), ((cmpOut s o).waiting = some p))
  ∧ (∃ (s : State) (t : State) (o : Nat) (w : Nat) (h : Nat) (d : Nat) (p : PicLatch), (s.cmp.current = some o) ∧
    ((cmpOut s o).composing = some p) ∧ (p.sigs = []) ∧ (p.layers = []) ∧ (w = rd s (K.OUT_WIDTH o)) ∧
    (h = rd s (K.OUT_HEIGHT o)) ∧ (d = rd s (K.OUT_DEPTH o)) ∧ (t = bumpBy (K.TILE_ERRORS o) 0 (bump (K.OUT_PICTURES o) s)))
  ∧ (∃ (o : Nat) (off : Nat) (s : State), (0x1000000 ≤ off) ∧ (off < 0x1100000) ∧ (off % 4 = 0) ∧
    (o = (off - 0x1000000) / 0x4000) ∧ ((off - 0x1000000) / 0x2000 % 2 ≠ rd s (K.ACTIVE_TABLE o)) ∧
    (layerSwapCommitted s o = false) ∧ ((off - 0x1000000) % 0x2000 < 4672))
  ∧ (∃ (o : Nat) (off : Nat) (s : State), (0x1000000 ≤ off) ∧ (off < 0x1100000) ∧ (off % 4 = 0) ∧
    (o = (off - 0x1000000) / 0x4000) ∧
    ((off - 0x1000000) / 0x2000 % 2 = rd s (K.ACTIVE_TABLE o) ∨ layerSwapCommitted s o = true))
  ∧ (∃ (s : State) (n : Nat) (l : Launch), (dueSwap s = some (n, l)) ∧ (domainFailed s 17 = false) ∧ (domainRuns s 17 = true))
  ∧ (∃ (s : State) (n : Nat) (l : Launch), (dueSwap s = some (n, l)) ∧ (domainFailed s 17 = true)) :=
  ⟨⟨(1 : Fin 2),
    wr (K.DEC_EN 5) (1) (wr (K.DEC_ON 5) (1) (wr (K.DEC_STATE 5) (2) { State.reset with vid.decs := [(5, { pics := [{ info := { number := 0, width := 64, height := 64 }, ready := 0, target := some 3 }] })] })),
    5, 3, ({ info := { number := 0, width := 64, height := 64 }, ready := 0, target := some 3 } : ReadyPic), [], by decide,
    by decide, by decide⟩,
    ⟨(1023 : Fin 1024),
    wr (K.MAX_RATE 1023) (50) { State.reset with isb.elapsed := s1, vid.decs := [(1023, { pics := [{ info := { number := 0, width := 64, height := 64 }, ready := 0, bufWait := some 0 }] })] },
    ({ info := { number := 0, width := 64, height := 64 }, ready := 0, bufWait := some 0 } : ReadyPic), [], 0, by decide,
    by decide, by decide⟩,
    ⟨(1 : Fin 3),
    wr (K.DEC_EN 5) (1) (wr (K.DEC_ON 5) (1) (wr (K.DEC_STATE 5) (2) { State.reset with isb.elapsed := 10000000000000000000000, isb.now := 50 * ms1, vid.decs := [(5, { pics := [{ info := { number := 0, width := 64, height := 64 }, ready := 0, started := some 0 }] })] })),
    5, ({ info := { number := 0, width := 64, height := 64 }, ready := 0, started := some 0 } : ReadyPic), [], 0, by decide,
    by decide, by decide, by decide, by decide⟩,
    ⟨wr (K.ENC_EN 5) (1) (wr (K.ENC_STATE 5) (2) { State.reset with isb.elapsed := 10000000000000000000000, isb.now := 50 * ms1, vid.encs := [(5, { pics := [{ at_ := 0, started := some 0 }] })] }),
    5, ({ at_ := 0, started := some 0 } : EncPic), [], 0, by decide, by decide, by decide, by decide⟩,
    ⟨(1023 : Fin 1024),
    wr (K.DAMAGE_WAIT 1023) (100) (wr (K.REQ_POLICY 1023) (2) (wr (K.REQ_POLICY (1023 : Fin 1024).val) (2) { State.reset with isb.elapsed := 10000000000000000000000, isb.now := 100 * ms1, vid.decs := [(1023, { damagedSince := some 0 })] })),
    0, by decide, by decide, by decide, by decide⟩,
    ⟨(255 : Fin 256), [{ blocks := [{ x := 0, y := 0, w := 64, h := 64, mode := .intra 64 }] }], [[8], [48, 0]],
    wr (K.OUT_HEIGHT 0) (64) (wr (K.OUT_WIDTH 0) (64) (wr (K.ENC_SOURCE 255) (0) (wr (K.ENC_CODEC 255) (1) (wr (K.ENC_EN 255) (1) (wr (K.ENC_STATE 255) (1) (wr (K.ENC_EN (255 : Fin 256).val) (1) { State.reset with vid.encs := [(255, { pics := [{ at_ := 0, started := some 0 }] })] })))))),
    ({ at_ := 0, started := some 0 } : EncPic), [], by decide, by decide, by decide, by decide⟩,
    ⟨(0 : Fin 64), wr (K.OUT_EN (0 : Fin 64).val) (0) State.reset, by decide⟩,
    ⟨(0 : Fin 64),
    (boundaryHere (wr K.MODE (1) (wr (K.OUT_EN (0 : Fin 64).val) (1) State.reset)) (0 : Fin 64).val).get (by decide),
    wr K.MODE (1) (wr (K.OUT_EN (0 : Fin 64).val) (1) State.reset), _, _, _, _, by decide, by decide,
    (Option.some_get _).symm, rfl, rfl, rfl, rfl⟩,
    ⟨5,
    { State.reset with cmp.outs := [(5, { waiting := some { at_ := 0, background := 0, layers := [], reads := [], coefs := [], matrices := [], sigs := [], slots := [] } })] },
    ({ at_ := 0, background := 0, layers := [], reads := [], coefs := [], matrices := [], sigs := [], slots := [] } : PicLatch),
    by decide⟩,
    ⟨{ State.reset with cmp.current := some 63, cmp.outs := [(63, { composing := some { at_ := 0, background := 0, layers := [], reads := [], coefs := [], matrices := [], sigs := [], slots := [] } })] },
    _, 63, _, _, _,
    ({ at_ := 0, background := 0, layers := [], reads := [], coefs := [], matrices := [], sigs := [], slots := [] } : PicLatch),
    by decide, by decide, by decide, by decide, rfl, rfl, rfl, rfl⟩,
    ⟨_, 0x10FE000, State.reset, by decide, by decide, by decide, rfl, by decide, by decide, by decide⟩,
    ⟨_, 0x10FC004, State.reset, by decide, by decide, by decide, rfl, by decide⟩,
    ⟨wr (K.PD_STATE 17) (0) (wr (K.RATE_DEN 63) (1) (wr (K.RATE_NUM 63) (50) { State.reset with isb.launches := [(3, { state := 2, typ := 4, target := 63 })] })),
    3, ({ state := 2, typ := 4, target := 63 } : Launch), by decide, by decide, by decide⟩,
    ⟨wr (K.PD_STATE 17) (6) (wr (K.RATE_DEN 63) (1) (wr (K.RATE_NUM 63) (50) { State.reset with isb.launches := [(3, { state := 2, typ := 4, target := 63 })] })),
    3, ({ state := 2, typ := 4, target := 63 } : Launch), by decide, by decide⟩⟩

theorem hypotheses_met_dma_channels_run :
    (∃ (n : Fin 64) (host : Bool) (s : State) (t : State), (t = dmaUpd n.val (fun x => { x with startSpace := b2n host }) s) ∧
    (dmaState s n.val = dsIdle ∨ dmaState s n.val = dsStopped ∨ dmaState s n.val = dsHalted))
  ∧ (∃ (n : Fin 64) (host : Bool) (s : State) (t : State), (t = dmaUpd n.val (fun x => { x with startSpace := b2n host }) s) ∧
    (dmaState s n.val = dsRunning))
  ∧ (∃ (n : Fin 64) (host : Bool) (s : State) (t : State), (t = dmaUpd n.val (fun x => { x with startSpace := b2n host }) s) ∧
    (dmaState s n.val = dsWaiting ∨ dmaState s n.val = dsParked ∨ dmaState s n.val = dsIdle))
  ∧ (∃ (n : Fin 64) (host : Bool) (s : State) (t : State), (t = dmaUpd n.val (fun x => { x with startSpace := b2n host }) s) ∧
    (dmaState s n.val = dsStopped))
  ∧ (∃ (n : Fin 64) (s : State), (dmaState s n.val = dsOff))
  ∧ (∃ (n : Fin 64) (s : State), (dmaState s n.val = dsRunning ∨ dmaState s n.val = dsWaiting))
  ∧ (∃ (n : Fin 64) (s : State) (t : State), (dmaState s n.val = dsParked) ∧
    (t = dmaUpd n.val (fun x => { x with kick := true }) s) ∧ ((dmaOf t n.val).parkKind = 0))
  ∧ (∃ (n : Fin 64) (s : State) (t : State), (dmaState s n.val = dsParked) ∧
    (t = dmaUpd n.val (fun x => { x with kick := true }) s) ∧ ((dmaOf t n.val).parkKind ≠ 0))
  ∧ (∃ (n : Fin 64) (s : State), (dmaState s n.val ≠ dsOff) ∧ (rd s (K.PACING n.val) = 1) ∧
    (rd s (K.PACE_SOURCE n.val) / 268435456 = 3))
  ∧ (∃ (n : Fin 64) (s : State), (dmaState s n.val ≠ dsOff) ∧ (rd s (K.PACING n.val) = 1) ∧
    (rd s (K.PACE_SOURCE n.val) / 268435456 = 2) ∧ (rd s (K.PACE_SOURCE n.val) % 65536 * us1 ≠ 0) ∧
    (s.isb.now % (rd s (K.PACE_SOURCE n.val) % 65536 * us1) = 0) ∧ ((dmaOf s n.val).paceAt ≠ s.isb.now))
  ∧ (∃ (n : Fin 64) (s : State), (dmaState s n.val = dsWaiting) ∧ (dmaPermits s n.val = true))
  ∧ (∃ (n : Fin 64) (host : Option Bytes) (s : State) (d : Bytes), ((dmaOf s n.val).phase = some .boundary) ∧
    (dmaFetch s (dmaOf s n.val) 0 64 host = some d) ∧ (bitOf (leAt d 0 4) 31 = true))
  ∧ (∃ (n : Fin 64) (host : Option Bytes) (s : State) (d : Bytes), ((dmaOf s n.val).phase = some .boundary) ∧
    (dmaFetch s (dmaOf s n.val) 0 64 host = some d) ∧ (bitOf (leAt d 0 4) 31 = false))
  ∧ (∃ (n : Fin 64) (s : State), ((dmaOf s n.val).phase = some .boundary))
  ∧ (∃ (n : Fin 64) (host : Option Bytes) (s : State) (b : Bytes), ((dmaOf s n.val).phase = some .link) ∧
    (dmaFetch s (dmaOf s n.val) 8 8 host = some b) ∧ (leVal b % 2 ≠ 1))
  ∧ (∃ (n : Fin 64) (host : Option Bytes) (s : State) (b : Bytes), ((dmaOf s n.val).phase = some .link) ∧
    (dmaFetch s (dmaOf s n.val) 8 8 host = some b) ∧ (leVal b % 2 = 1) ∧ ((dmaOf s n.val).kick = false) ∧
    ((dmaOf s n.val).stopReq = false))
  ∧ (∃ (n : Fin 64) (host : Bytes) (s : State) (d : Bytes) (r : DmaEnd × State), ((dmaOf s n.val).phase = some (.transfer d)) ∧
    (r = dmaTransfer d host none s))
  ∧ (∃ (n : Fin 64) (host : Bytes) (done : Nat) (s : State) (d : Bytes) (r : DmaEnd × State),
    ((dmaOf s n.val).askedAt + rd s (K.BUS_TIMEOUT n.val) * us1 ≤ clk s) ∧ ((dmaOf s n.val).phase = some (.transfer d)) ∧
    (r = dmaTransfer d host (some (3, done)) s))
  ∧ (∃ (n : Fin 64) (s : State), ((dmaOf s n.val).askedAt + rd s (K.BUS_TIMEOUT n.val) * us1 ≤ clk s) ∧
    ((dmaOf s n.val).phase = some .boundary)) :=
  ⟨⟨(0 : Fin 64), false, wr (K.DMA_STATE (0 : Fin 64).val) (dsIdle) State.reset, _, rfl, by decide⟩,
    ⟨(0 : Fin 64), false, wr (K.DMA_STATE (0 : Fin 64).val) (dsRunning) State.reset, _, rfl, by decide⟩,
    ⟨(0 : Fin 64), false, wr (K.DMA_STATE (0 : Fin 64).val) (dsWaiting) State.reset, _, rfl, by decide⟩,
    ⟨(0 : Fin 64), false, wr (K.DMA_STATE (0 : Fin 64).val) (dsStopped) State.reset, _, rfl, by decide⟩,
    ⟨(0 : Fin 64), wr (K.DMA_STATE (0 : Fin 64).val) (dsOff) State.reset, by decide⟩,
    ⟨(0 : Fin 64), wr (K.DMA_STATE (0 : Fin 64).val) (dsRunning) State.reset, by decide⟩,
    ⟨(0 : Fin 64), wr (K.DMA_STATE (0 : Fin 64).val) (dsParked) State.reset, _, by decide, rfl, by decide⟩,
    ⟨(63 : Fin 64),
    wr (K.DMA_STATE 63) (4) (wr (K.DMA_STATE (63 : Fin 64).val) (dsParked) { State.reset with dma.chs := [(63, { parkKind := 2 })] }),
    _, by decide, rfl, by decide⟩,
    ⟨(63 : Fin 64),
    wr (K.PACE_SOURCE 63) (0x30000000) (wr (K.PACING 63) (1) (wr (K.DMA_STATE 63) (1) (wr (K.PACING (63 : Fin 64).val) (1) State.reset))),
    by decide, by decide, by decide⟩,
    ⟨(63 : Fin 64),
    wr (K.PACE_SOURCE 63) (0x20000005) (wr (K.PACING 63) (1) (wr (K.DMA_STATE 63) (1) (wr (K.PACING (63 : Fin 64).val) (1) { State.reset with isb.now := 10 * us1 }))),
    by decide, by decide, by decide, by decide, by decide, by decide⟩,
    ⟨(0 : Fin 64), wr (K.DMA_STATE (0 : Fin 64).val) (dsWaiting) State.reset, by decide, by decide⟩,
    ⟨(63 : Fin 64), some [1, 0, 0, 0x80],
    { State.reset with dma.chs := [(63, { phase := some .boundary, curHost := true })] },
    (dmaFetch ({ State.reset with dma.chs := [(63, { phase := some .boundary, curHost := true })] }) (dmaOf ({ State.reset with dma.chs := [(63, { phase := some .boundary, curHost := true })] }) (63 : Fin 64).val) 0 64 (some [1,
    0, 0, 0x80])).get (by decide), by decide, (Option.some_get _).symm, by decide⟩,
    ⟨(63 : Fin 64), some [1, 0, 0, 0], { State.reset with dma.chs := [(63, { phase := some .boundary, curHost := true })] },
    (dmaFetch ({ State.reset with dma.chs := [(63, { phase := some .boundary, curHost := true })] }) (dmaOf ({ State.reset with dma.chs := [(63, { phase := some .boundary, curHost := true })] }) (63 : Fin 64).val) 0 64 (some [1,
    0, 0, 0])).get (by decide), by decide, (Option.some_get _).symm, by decide⟩,
    ⟨(63 : Fin 64), { State.reset with dma.chs := [(63, { phase := some .boundary, curHost := true })] }, by decide⟩,
    ⟨(63 : Fin 64), some [0, 0, 0, 0, 0, 0, 0, 0],
    { State.reset with dma.chs := [(63, { phase := some .link, curHost := true })] },
    (dmaFetch ({ State.reset with dma.chs := [(63, { phase := some .link, curHost := true })] }) (dmaOf ({ State.reset with dma.chs := [(63, { phase := some .link, curHost := true })] }) (63 : Fin 64).val) 8 8 (some [0,
    0, 0, 0, 0, 0, 0, 0])).get (by decide), by decide, (Option.some_get _).symm, by decide⟩,
    ⟨(63 : Fin 64), some [1, 0, 0, 0, 0, 0, 0, 0],
    { State.reset with dma.chs := [(63, { phase := some .link, curHost := true })] },
    (dmaFetch ({ State.reset with dma.chs := [(63, { phase := some .link, curHost := true })] }) (dmaOf ({ State.reset with dma.chs := [(63, { phase := some .link, curHost := true })] }) (63 : Fin 64).val) 8 8 (some [1,
    0, 0, 0, 0, 0, 0, 0])).get (by decide), by decide, (Option.some_get _).symm, by decide, by decide, by decide⟩,
    ⟨(63 : Fin 64), [], { State.reset with dma.chs := [(63, { phase := some (.transfer [1]) })] }, [1], _, by decide, rfl⟩,
    ⟨(63 : Fin 64), [], 0,
    { State.reset with isb.elapsed := 10000000000000000000000, dma.chs := [(63, { phase := some (.transfer [1]) })] }, [1], _,
    by decide, by decide, rfl⟩,
    ⟨(63 : Fin 64),
    { State.reset with isb.elapsed := 10000000000000000000000, dma.chs := [(63, { phase := some .boundary })] }, by decide,
    by decide⟩⟩

theorem hypotheses_met_memory_channels_serve :
    (∃ (r : MemReq) (s : State), (reqExists s r = false))
  ∧ (∃ (r : MemReq) (s : State), (reqExists s r = true) ∧ (reqWaits s s.mem.held r = true))
  ∧ (∃ (r : MemReq) (s : State), (reqExists s r = true) ∧ (reqWaits s s.mem.held r = false))
  ∧ (∃ (a : MemReq) (b : MemReq), (b.requester < a.requester))
  ∧ (∃ (a : MemReq) (b : MemReq), (a.requester ≤ b.requester))
  ∧ (∃ (c : Fin 4) (s : State) (x : Nat), (chState s c.val = chRun) ∧ (x = (ddrOf s c.val).scrub))
  ∧ (∃ (c : Fin 4) (s : State) (x : Nat), (chState s c.val = chRun) ∧ (x = (ddrOf s c.val).scrub))
  ∧ (∃ (c : Fin 4) (rank : Fin 2) (s : State) (r : Rank), (rank.val < ranksOf s c.val) ∧ (chState s c.val = chRun) ∧
    (r = tabGet {} (ddrOf s c.val).ranks rank.val) ∧ (r.refreshAt + refreshInterval s c.val ≤ clk s))
  ∧ (∃ (s : State), (s.isb.now % (64 * ms1) = 0))
  ∧ (∃ (c : Fin 4) (rank : Fin 2) (s : State), (rd s K.PD_IDLE * ns1 ≠ 0) ∧ (rank.val < ranksOf s c.val) ∧
    (chState s c.val = chRun) ∧ ((tabGet {} (ddrOf s c.val).ranks rank.val).lastUse + rd s K.PD_IDLE * ns1 ≤ clk s))
  ∧ (∃ (c : Fin 4) (m : Nat) (p : Nat) (s : State) (u : State) (t : State), (chState s c.val = chRun) ∧
    (s.isb.now % (100 * ms1) = 25 * c.val * ms1) ∧
    (u = (List.range (ranksOf s c.val)).foldl (fun z r => refreshFirst c.val r z) s) ∧
    (t = wr (K.EYE_MARGIN c.val) m (wr (K.RETRAIN_MAX c.val) (max p (rd u (K.RETRAIN_MAX c.val))) u)))
  ∧ (∃ (c : Fin 4) (s : State), (chState s c.val = chRetraining))
  ∧ (∃ (c : Fin 4) (s : State), (chState s c.val = chRetraining) ∧ ((ddrOf s c.val).tries < 3))
  ∧ (∃ (c : Fin 4) (s : State), (chState s c.val = chRetraining) ∧ (3 ≤ (ddrOf s c.val).tries))
  ∧ (∃ (l : List Nat) (s : State) (t : State), (s.mem.reinterleave = true) ∧ (s.mem.active.isEmpty = false) ∧
    (t = vidRestart true (relayout (payloadsLost l { s with mem.reinterleave := false })))) :=
  ⟨⟨({ requester := 1, addr := 0, len := 64 } : MemReq), wr K.MEM_SIZE (63) State.reset, by decide⟩,
    ⟨({ requester := 1, addr := 0, len := 64 } : MemReq),
    wr K.MEM_SIZE (64) { State.reset with mem.held := [{ requester := 1, addr := 0 }] }, by decide, by decide⟩,
    ⟨({ requester := 1, addr := 0, len := 64 } : MemReq), wr K.MEM_SIZE (64) State.reset, by decide, by decide⟩,
    ⟨({ requester := 9, addr := 0 } : MemReq), ({ requester := 8, addr := 64 } : MemReq), by decide⟩,
    ⟨({ requester := 8, addr := 0 } : MemReq), ({ requester := 8, addr := 64 } : MemReq), by decide⟩,
    ⟨(0 : Fin 4), wr (K.CH_STATE (0 : Fin 4).val) (chRun) State.reset, _, by decide, rfl⟩,
    ⟨(0 : Fin 4), wr (K.CH_STATE (0 : Fin 4).val) (chRun) State.reset, _, by decide, rfl⟩,
    ⟨(3 : Fin 4), (1 : Fin 2),
    wr (K.CH_GEOMETRY 3) (2) (wr (K.CH_STATE 3) (2) (wr (K.CH_STATE (3 : Fin 4).val) (chRun) { State.reset with isb.elapsed := 10000000000000000000000, isb.now := 7800 * ns1 })),
    _, by decide, by decide, rfl, by decide⟩,
    ⟨State.reset, by decide⟩,
    ⟨(3 : Fin 4), (1 : Fin 2),
    wr K.PD_IDLE (1) (wr (K.CH_GEOMETRY 3) (2) (wr (K.CH_STATE 3) (2) (wr (K.CH_STATE (3 : Fin 4).val) (chRun) { State.reset with isb.elapsed := 10000000000000000000000, isb.now := 7800 * ns1 }))),
    by decide, by decide, by decide, by decide⟩,
    ⟨(0 : Fin 4), 0, 0, wr (K.CH_STATE (0 : Fin 4).val) (chRun) State.reset, _, _, by decide, by decide, rfl, rfl⟩,
    ⟨(0 : Fin 4), wr (K.CH_STATE (0 : Fin 4).val) (chRetraining) State.reset, by decide⟩,
    ⟨(0 : Fin 4), wr (K.CH_STATE (0 : Fin 4).val) (chRetraining) State.reset, by decide, by decide⟩,
    ⟨(3 : Fin 4),
    wr (K.CH_STATE 3) (3) (wr (K.CH_STATE (3 : Fin 4).val) (chRetraining) { State.reset with mem.chs := [(3, { tries := 3 })] }),
    by decide, by decide⟩,
    ⟨[], { State.reset with mem.reinterleave := true, mem.active := [0] }, _, by decide, by decide, rfl⟩⟩

theorem hypotheses_met_domains_and_hub_change_power :
    (∃ (unit : Fin 140) (s : State), (unit.val < 128) ∧ (rd s (K.LULL_EN (1 + unit.val / 16)) ≠ 0) ∧
    (pdState s (1 + unit.val / 16) = pdRun) ∧ (rd s (K.ME_STATE unit.val) = 0) ∧ (runningOn s unit.val = none) ∧
    (tickSlotOn s unit.val = none))
  ∧ (∃ (unit : Fin 140) (s : State) (c : Nat), (128 ≤ unit.val) ∧ (unit.val < 136) ∧ (c = unit.val - 128) ∧
    (rd s (K.LULL_EN (1 + c)) ≠ 0) ∧ (pdState s (1 + c) = pdRun) ∧ (rd s (K.CL_STATE c) = 0) ∧ (∀ i < 16,
    rd s (K.ME_STATE (c * 16 + i)) ≠ 0))
  ∧ (∃ (unit : Fin 140) (s : State) (j : Nat), (unit.val = 136 + j) ∧ (j < 3) ∧ (rd s (K.LULL_EN (14 + j)) ≠ 0) ∧
    (pdState s (14 + j) = pdRun) ∧ (rd s (K.INST_STATE j) = 0) ∧ (j < 2 → vdecPick s j = none) ∧ (j = 2 → vencPick s = none))
  ∧ (∃ (s : State), (rd s (K.LULL_EN 17) ≠ 0) ∧ (pdState s 17 = pdRun) ∧ (rd s K.COMP_STATE = 0) ∧ (s.cmp.current = none) ∧
    (∀ e ∈ s.cmp.outs, e.2.waiting = none))
  ∧ (∃ (s : State) (t : State) (e : PwrEntry), (s.pwr.entry = some e) ∧ (e.step = 3) ∧ (drained s e.depth = true) ∧
    (t = checkpointDone (checkpointStart s)))
  ∧ (∃ (s : State) (e : PwrEntry), (s.pwr.entry = some e) ∧ (e.t0 + rd s K.DRAIN_TIMEOUT * ms1 ≤ clk s))
  ∧ (∃ (s : State), (modeOf s = mStandby) ∧ (hubPower s = hpRun) ∧ (s.boot.transition = none) ∧
    (s.pwr.lastActive + 10 * s1 ≤ clk s) ∧ (∀ e ∈ s.isb.launches, e.2.active = true → s.isb.now + 10 * s1 < e.2.instant) ∧
    (∀ u, delayFirst s = some u → s.isb.now + 10 * s1 < u) ∧ (sleepReady s = true))
  ∧ (∃ (s : State), (s.boot.supply = true) ∧ (s.boot.rstLow = false) ∧ (s.diag.suspended = false) ∧ (s.boot.step = 0) ∧
    (s.pwr.hpwrEn = false))
  ∧ (∃ (s : State), (s.boot.supply = true) ∧ (s.boot.rstLow = false) ∧ (s.diag.suspended = false) ∧ (s.boot.step ≠ 0))
  ∧ (∃ (s : State), (rd s K.ALARM ≠ 0) ∧ (s.isb.alarmDone ≠ rd s K.ALARM) ∧ (rd s K.ALARM * ns1 ≤ s.isb.now) ∧
    (s.boot.step ≠ 0))
  ∧ (∃ (s : State), (hubPower s = hpCalm))
  ∧ (∃ (rail : Fin 3) (s : State), (rail.val = 0) ∧ (s.pwr.vmeEn = true))
  ∧ (∃ (rail : Fin 3) (s : State), (rail.val = 1) ∧ (s.pwr.vsdEn = true))
  ∧ (∃ (rail : Fin 3) (d : Nat) (s : State), (rail.val = 2) ∧ (onVme d = false) ∧ (onVsd d = false) ∧ (atStep s 1 d = true))
  ∧ (∃ (d : Nat) (s : State), (atStep s 2 d = true))
  ∧ (∃ (d : Nat) (bad : List Nat) (s : State), (d ≠ 18) ∧ (atStep s 3 d = true) ∧ (needsMemory d = true →
    pdState s 18 ≤ pdLull) ∧ (onVme d = true → 4 ≤ s.boot.step ∧ (fwLoads bad s = true ∨ (domainOf s d).from_ = pdCalm)))
  ∧ (∃ (d : Nat) (bad : List Nat) (s : State), (onVme d = true) ∧ (atStep s 3 d = true) ∧ (pdState s 18 ≤ pdLull) ∧
    (4 ≤ s.boot.step) ∧ (fwLoads bad s = false) ∧ ((domainOf s d).from_ ≠ pdCalm))
  ∧ (∃ (d : Nat) (s : State), (atStep s 4 d = true))
  ∧ (∃ (d : Nat) (s : State), (pdState s d = pdWaking) ∧ ((domainOf s d).step = 2) ∧
    ((domainOf s d).since + stepTimeout 2 ≤ clk s) ∧ (d = 9 ∨ d = 10 ∨ d = 13))
  ∧ (∃ (d : Nat) (s : State), (pdState s d = pdWaking) ∧ ((domainOf s d).step ≠ 1) ∧ ((domainOf s d).step ≠ 2) ∧
    ((domainOf s d).since + stepTimeout (domainOf s d).step ≤ clk s) ∧ ((domainOf s d).step = 3 → needsMemory d = true →
    pdState s 18 ≤ pdLull))
  ∧ (∃ (d : Nat) (s : State), (pdState s d = pdWaking) ∧ ((domainOf s d).step = 1) ∧
    ((domainOf s d).since + stepTimeout 1 ≤ clk s) ∧ ((domainOf s d).tries < 2))
  ∧ (∃ (d : Nat) (s : State), (pdState s d = pdWaking) ∧ ((domainOf s d).step = 1) ∧
    ((domainOf s d).since + stepTimeout 1 ≤ clk s) ∧ (2 ≤ (domainOf s d).tries))
  ∧ (∃ (f : State → Nat → State) (s : State), (s.pwr.vmeEn = true) ∧ (∀ z d, 6 ≤ pdState z d → f z d = z) ∧ (∀ z d u,
    pdState z d < 6 → upset cDomain d (leaveLull d z) = (u, true) → f z d = domainGone d pdRetired u) ∧ (∀ z d u,
    pdState z d < 6 → upset cDomain d (leaveLull d z) = (u, false) →
    f z d = clusterFollows (d - 1) 3 2 (enginesReset (d - 1) (stopBanks (clusterLost (d - 1) (domainUpd d (fun _ => { step := 1, from_ := pdOff, since := clk u }) (wr (K.PD_STATE d) pdWaking u)))))))
  ∧ (∃ (f : State → Nat → State) (s : State), (s.pwr.vsdEn = true) ∧ (∀ z d, 6 ≤ pdState z d → f z d = z) ∧ (∀ z d u,
    pdState z d < 6 → upset cDomain d (leaveLull d z) = (u, true) → f z d = domainGone d pdRetired u) ∧ (∀ z d u, d = 11 →
    pdState z d < 6 → upset cDomain d (leaveLull d z) = (u, false) →
    f z d = pairLanes false (portsAsleep (domainUpd d (fun _ => { step := 1, from_ := pdOff, since := clk u }) (wr (K.PD_STATE d) pdWaking u)))) ∧
    (∀ z d u, d ≠ 11 → pdState z d < 6 → upset cDomain d (leaveLull d z) = (u, false) →
    f z d = domainUpd d (fun _ => { step := 1, from_ := pdOff, since := clk u }) (wr (K.PD_STATE d) pdWaking u)))
  ∧ (∃ (rail : Fin 2) (s : State), (rail.val = 0 → s.pwr.vmeEn = false) ∧ (rail.val = 1 → s.pwr.vsdEn = false))
  ∧ (∃ (s : State), (s.boot.step ≠ 0) ∧ (rd s K.LIMP ≠ 1)) :=
  ⟨⟨(0 : Fin 140),
    wr (K.ME_STATE (0 : Fin 140).val) (0) (wr (K.PD_STATE (1 + (0 : Fin 140).val / 16)) (pdRun) (wr (K.LULL_EN (1 + (0 : Fin 140).val / 16)) (1) State.reset)),
    by decide, by decide, by decide, by decide, by decide, by decide⟩,
    ⟨(135 : Fin 140),
    wr (K.CL_STATE 7) (0) (wr (K.PD_STATE 8) (0) (wr (K.LULL_EN 8) (1) (wr (K.CL_STATE 7) (0) (wr (K.PD_STATE (1 + 7)) (pdRun) (wr (K.LULL_EN (1 + 7)) (1) ((List.range 16).foldl (fun z i => wr (K.ME_STATE (112 + i)) 1 z) State.reset)))))),
    7, by decide, by decide, by decide, by decide, by decide, by decide, by decide⟩,
    ⟨(138 : Fin 140),
    wr (K.INST_STATE 2) (0) (wr (K.PD_STATE 16) (0) (wr (K.LULL_EN 16) (1) (wr (K.INST_STATE 2) (0) (wr (K.PD_STATE (14 + 2)) (pdRun) (wr (K.LULL_EN (14 + 2)) (1) State.reset))))),
    2, by decide, by decide, by decide, by decide, by decide, by decide, by decide⟩,
    ⟨wr K.COMP_STATE (0) (wr (K.PD_STATE 17) (pdRun) (wr (K.LULL_EN 17) (1) { State.reset with cmp.current := none })),
    by decide, by decide, by decide, by decide, by decide⟩,
    ⟨{ State.reset with pwr.entry := some { step := 3, depth := 2, t0 := 0 } }, _,
    ({ step := 3, depth := 2, t0 := 0 } : PwrEntry), by decide, by decide, by decide, rfl⟩,
    ⟨{ State.reset with pwr.entry := some { step := 3, depth := 2, t0 := 0 }, isb.elapsed := 10000000000000000000000, isb.now := 1000000 * s1 },
    ({ step := 3, depth := 2, t0 := 0 } : PwrEntry), by decide, by decide⟩,
    ⟨wr K.HUB_PSTATE (hpRun) (wr K.MODE (mStandby) { State.reset with boot.transition := none, isb.elapsed := 10000000000000000000000 }),
    by decide, by decide, by decide, by decide, by decide, by decide, by decide⟩,
    ⟨{ State.reset with boot.supply := true, boot.rstLow := false, diag.suspended := false, boot.step := 0, pwr.hpwrEn := false },
    by decide, by decide, by decide, by decide, by decide⟩,
    ⟨{ State.reset with boot.supply := true, boot.rstLow := false, diag.suspended := false, boot.step := 1 }, by decide,
    by decide, by decide, by decide⟩,
    ⟨wr K.ALARM (1) { State.reset with isb.now := ns1, boot.step := 9 }, by decide, by decide, by decide, by decide⟩,
    ⟨wr K.HUB_PSTATE (hpCalm) State.reset, by decide⟩,
    ⟨(0 : Fin 3), { State.reset with pwr.vmeEn := true }, by decide, by decide⟩,
    ⟨(1 : Fin 3), { State.reset with pwr.vsdEn := true }, by decide, by decide⟩,
    ⟨(2 : Fin 3), 13, wr (K.PD_STATE 13) (5) { State.reset with pwr.domains := [(13, { step := 1 })] }, by decide, by decide,
    by decide, by decide⟩,
    ⟨13, wr (K.PD_STATE 13) (5) { State.reset with pwr.domains := [(13, { step := 2 })] }, by decide⟩,
    ⟨13, [], wr (K.PD_STATE 13) (5) { State.reset with pwr.domains := [(13, { step := 3 })] }, by decide, by decide,
    by decide, by decide⟩,
    ⟨8, [],
    wr K.JRNL_MIRRORS (0) (wr (K.PD_STATE 18) (1) (wr (K.PD_STATE 8) (5) { State.reset with boot.step := 9, pwr.domains := [(8, { step := 3 })] })),
    by decide, by decide, by decide, by decide, by decide, by decide⟩,
    ⟨13, wr (K.PD_STATE 13) (5) { State.reset with pwr.domains := [(13, { step := 4 })] }, by decide⟩,
    ⟨13,
    wr (K.PD_STATE 13) (5) (wr (K.PD_STATE 13) (pdWaking) { State.reset with isb.elapsed := 10000000000000000000000, pwr.domains := [(13, { step := 2 })] }),
    by decide, by decide, by decide, by decide⟩,
    ⟨0, wr (K.PD_STATE 0) (pdWaking) { State.reset with isb.elapsed := 10000000000000000000000 }, by decide, by decide,
    by decide, by decide, by decide⟩,
    ⟨13,
    wr (K.PD_STATE 13) (5) (wr (K.PD_STATE 13) (pdWaking) { State.reset with isb.elapsed := 10000000000000000000000, pwr.domains := [(13, { step := 1, tries := 1 })] }),
    by decide, by decide, by decide, by decide⟩,
    ⟨13,
    wr (K.PD_STATE 13) (5) (wr (K.PD_STATE 13) (pdWaking) { State.reset with isb.elapsed := s1, pwr.domains := [(13, { step := 1, tries := 2 })] }),
    by decide, by decide, by decide, by decide⟩,
    ⟨fun z d => if 6 ≤ pdState z d then z else if (upset cDomain d (leaveLull d z)).2 = true then domainGone d pdRetired (upset cDomain d (leaveLull d z)).1 else clusterFollows (d - 1) 3 2 (enginesReset (d - 1) (stopBanks (clusterLost (d - 1) (domainUpd d (fun _ => { step := 1, from_ := pdOff, since := clk (upset cDomain d (leaveLull d z)).1 }) (wr (K.PD_STATE d) pdWaking (upset cDomain d (leaveLull d z)).1))))),
    { State.reset with pwr.vmeEn := true }, rfl, fun z d h => if_pos h, fun z d u h e => by simp only [e,
    if_neg (Nat.not_le.mpr h), if_true], fun z d u h e => by simp only [e, if_neg (Nat.not_le.mpr h), Bool.false_eq_true,
    if_false]⟩,
    ⟨fun z d => if 6 ≤ pdState z d then z else if (upset cDomain d (leaveLull d z)).2 = true then domainGone d pdRetired (upset cDomain d (leaveLull d z)).1 else if d = 11 then pairLanes false (portsAsleep (domainUpd d (fun _ => { step := 1, from_ := pdOff, since := clk (upset cDomain d (leaveLull d z)).1 }) (wr (K.PD_STATE d) pdWaking (upset cDomain d (leaveLull d z)).1))) else domainUpd d (fun _ => { step := 1, from_ := pdOff, since := clk (upset cDomain d (leaveLull d z)).1 }) (wr (K.PD_STATE d) pdWaking (upset cDomain d (leaveLull d z)).1),
    { State.reset with pwr.vsdEn := true }, rfl, fun z d h => if_pos h, fun z d u h e => by simp only [e,
    if_neg (Nat.not_le.mpr h), if_true], fun z d u k h e => by subst k; simp only [e, if_neg (Nat.not_le.mpr h),
    Bool.false_eq_true, if_false, if_true], fun z d u k h e => by simp only [e, k, if_neg (Nat.not_le.mpr h),
    Bool.false_eq_true, if_false]⟩,
    ⟨(0 : Fin 2), State.reset, by decide, by decide⟩,
    ⟨{ State.reset with boot.step := 1 }, by decide, by decide⟩⟩

theorem hypotheses_met_faults_and_host_watched :
    (∃ (temp : Int) (s : State) (t : State), (t = wrI 16 K.DIE_TEMP temp s) ∧ (rdI 16 s K.DIE_TEMP < rdI 16 t K.TEMP_ALARM) ∧
    (rdI 16 t K.TEMP_ALARM ≤ temp))
  ∧ (∃ (temp : Int) (s : State) (t : State), (t = wrI 16 K.DIE_TEMP temp s) ∧
    (temp < rdI 16 t K.TEMP_ALARM ∨ rdI 16 t K.TEMP_ALARM ≤ rdI 16 s K.DIE_TEMP))
  ∧ (∃ (temp : Int) (s : State), (1000 ≤ temp) ∧ (s.boot.step ≠ 0))
  ∧ (∃ (s : State) (t : State), (3 ≤ s.boot.step) ∧ (s.flt.wdtServed + rd s K.WDT_PERIOD * ms1 ≤ clk s) ∧
    (t = { s with flt.wdtResets := clk s :: wdtRecent s }))
  ∧ (∃ (s : State), (rd s K.HOST_WATCH ≠ 0) ∧ (bitOf (rd s K.SUMMARY) 5 = false) ∧
    (s.flt.hostPing + rd s K.HOST_WATCH * ms1 ≤ clk s))
  ∧ (∃ (s : State), (s.flt.pcieUp = true))
  ∧ (∃ (s : State), (s.flt.perstLow = false) ∧ (s.flt.pcieUp = false) ∧ (rd s K.HOST_WATCH = 0))
  ∧ (∃ (s : State), (s.flt.perstLow = false) ∧ (s.flt.pcieUp = false) ∧ (rd s K.HOST_WATCH ≠ 0))
  ∧ (∃ (s : State), (s.flt.pcieUp = true)) :=
  ⟨⟨800, wr K.DIE_TEMP (0) (wr K.TEMP_ALARM (800) State.reset), _, rfl, by decide, by decide⟩,
    ⟨0, State.reset, _, rfl, by decide⟩,
    ⟨1000, { State.reset with boot.step := 1 }, by decide, by decide⟩,
    ⟨{ State.reset with boot.step := 3, isb.elapsed := 10000000000000000000000 }, _, by decide, by decide, rfl⟩,
    ⟨wr K.SUMMARY (0) (wr K.HOST_WATCH (5) { State.reset with isb.elapsed := 10000000000000000000000, isb.now := 5 * ms1 }),
    by decide, by decide, by decide⟩,
    ⟨{ State.reset with flt.pcieUp := true }, by decide⟩,
    ⟨wr K.HOST_WATCH (0) { State.reset with flt.perstLow := false, flt.pcieUp := false }, by decide, by decide, by decide⟩,
    ⟨wr K.HOST_WATCH (1) { State.reset with flt.perstLow := false, flt.pcieUp := false }, by decide, by decide, by decide⟩,
    ⟨{ State.reset with flt.pcieUp := true }, by decide⟩⟩

theorem hypotheses_met_pair_messages_act :
    (∃ (h : PHdr) (s : State), (pairHears true h s = none))
  ∧ (∃ (h : PHdr) (s : State), (pairHears false h s = none))
  ∧ (∃ (h : PHdr) (role : Nat) (la : Nat) (rc : Nat) (sn : Nat) (src : Nat) (ok : Bool) (s : State) (u : State) (t : State),
    (pairHears false h s = some u) ∧ (role = 2 ∨ role = 3) ∧
    (t = reselect (wr K.PEER_SERIAL sn { u with pair.peerRole := role, pair.peerHubOk := ok, pair.peerReachable := rc, pair.peerAccept := la, isb.peerUsable := false, isb.peerSource := some src })) ∧
    (t.pair.startAt = none) ∧ (rd t K.ROLE = 1))
  ∧ (∃ (h : PHdr) (mode : Nat) (la : Nat) (tm : Nat) (rc : Nat) (sn : Nat) (src : Nat) (ok : Bool) (us : Bool) (moved : Bool) (s : State) (u : State) (t : State) (w : State) (m : State) (v : State),
    (pairHears false h s = some u) ∧
    (t = wr K.PEER_SERIAL sn { u with pair.peerRole := 1, pair.peerHubOk := ok, pair.peerReachable := rc, pair.peerAccept := la, isb.peerUsable := us, isb.peerSource := some src }) ∧
    (w = measured srcPeer 16 ((tm * ns1 : Nat) : Int) ((tm * ns1 + t.pair.pathDelay : Nat) - (t.isb.now : Int)) t) ∧
    (moved = true ↔ ∃ x, u.isb.peerSource = some x ∧ x ≠ src) ∧
    (m = reselect (if moved = true then disqualify srcPeer 5 w else w)) ∧ (m.pair.startAt = none) ∧ (rd m K.ROLE = 2) ∧
    (v = (if mode ≠ mSafe ∧ mode ≠ mIsland then wr K.MODE mode m else m)))
  ∧ (∃ (h : PHdr) (es : List JEntry) (new : List JEntry) (s : State) (u : State) (t : State) (n : Nat),
    (pairHears true h s = some u) ∧ (rd u K.ROLE = 2) ∧
    (new = es.filter (fun e => decide (u.pair.held < e.accept) && !u.sch.journal.any (fun x => x.accept == e.accept))) ∧
    (t = { u with sch.journal := u.sch.journal ++ new.map (fun (e : JEntry) => { e with state := max e.state 1 }) }) ∧
    (n = heldUpTo t.sch.journal u.pair.held))
  ∧ (∃ (h : PHdr) (held : Nat) (s : State) (u : State) (t : State), (pairHears false h s = some u) ∧ (rd u K.ROLE = 1) ∧
    (t = { u with pair.acked := max u.pair.acked held, sch.journal := u.sch.journal.map (fun e => if e.accept ≤ held then { e with peerAck := true } else e) }))
  ∧ (∃ (h : PHdr) (committed : Nat) (freed : Nat) (gone : JEntry → Bool) (s : State) (u : State) (t : State),
    (pairHears true h s = some u) ∧ (rd u K.ROLE = 2) ∧
    (t = u.sch.journal.foldl (fun (z : State) (e : JEntry) => if e.accept ≤ committed ∧
    e.state < 2 then jrnlUpd e.accept (fun x => { x with state := 2 }) (reapply e z) else z) u) ∧
    (gone = (fun e => decide (e.accept ≤ freed) && decide (2 ≤ e.state))))
  ∧ (∃ (h : PHdr) (s : State) (u : State), (pairHears true h s = some u))
  ∧ (∃ (h : PHdr) (c : LegCkpt) (f : State → Nat → State) (s : State) (u : State) (t : State) (v : State),
    (pairHears true h s = some u) ∧ (rd u K.ROLE = 2) ∧ (∀ z k, c.slots[k]? = none → f z k = z) ∧ (∀ z k x,
    c.slots[k]? = some x →
    f z k = (if k = 0 then fun y => y else fun y => wr (K.SLOT_CUR c.leg (k - 1)) x.cur (wr (K.SLOT_WANT c.leg (k - 1)) x.want y)) (slotUpd c.leg k (fun y => { y with limit := some x.limit, tsOff := x.tsOff, lastTs := x.lastTs, lastArr := x.lastArr, source := x.source }) z)) ∧
    (t = [0, 1, 2, 3].foldl f u) ∧ (v = wr (K.EST_E c.leg) c.estimate (legUpd c.leg (fun x => { x with tw := c.tw }) t)))
  ∧ (∃ (h : PHdr) (s : State) (u : State), (pairHears true h s = some u) ∧ (rd u K.ROLE = 2))
  ∧ (∃ (h : PHdr) (mine : Nat) (e : Nat) (s : State) (u : State), (pairHears true h s = some u) ∧ (rd u K.ROLE = 1) ∧
    (e = rd u K.EPOCH) ∧ (mine = 2) ∧ (pairHealthy u = true))
  ∧ (∃ (h : PHdr) (mine : Nat) (s : State) (u : State), (pairHears true h s = some u) ∧ (rd u K.ROLE = 2) ∧ (mine = 1))
  ∧ (∃ (h : PHdr) (peer : Nat) (mine : Nat) (s : State) (u : State), (pairHears true h s = some u) ∧ (rd u K.ROLE ≠ 1) ∧
    (mine = 2) ∧ (peer = 1))
  ∧ (∃ (h : PHdr) (s : State) (u : State), (pairHears false h s = some u) ∧ (rd u K.ROLE = 2))
  ∧ (∃ (h : PHdr) (s : State) (u : State), (pairHears false h s = some u) ∧ (rd u K.ROLE = 1))
  ∧ (∃ (h : PHdr) (s : State) (u : State), (pairHears true h s = some u) ∧ (rd u K.ROLE = 2))
  ∧ (∃ (h : PHdr) (s : State) (u : State), (pairHears true h s = some u) ∧ (rd u K.ROLE = 1))
  ∧ (∃ (h : PHdr) (s : State) (u : State), (pairHears false h s = some u)) :=
  ⟨⟨({ seq := 1, ack := 0, epoch := 0 } : PHdr), State.reset, by decide⟩,
    ⟨({ seq := 1, ack := 0, epoch := 0 } : PHdr), State.reset, by decide⟩,
    ⟨({ seq := 1, ack := 0, epoch := 0 } : PHdr), 3, 0, 0, 0, 0, false, wr K.ROLE (1) (wr K.PAIR_LINK_STATE (2) State.reset),
    (pairHears false ({ seq := 1, ack := 0, epoch := 0 } : PHdr) (wr K.ROLE (1) (wr K.PAIR_LINK_STATE (2) State.reset))).get (by decide),
    _, (Option.some_get _).symm, by decide, rfl, by decide, by decide⟩,
    ⟨({ seq := 1, ack := 0, epoch := 0 } : PHdr), 0, 0, 0, 0, 0, 0, false, false, false,
    wr K.ROLE 2 (wr K.PAIR_LINK_STATE 2 State.reset),
    (pairHears false ({ seq := 1, ack := 0, epoch := 0 } : PHdr) (wr K.ROLE 2 (wr K.PAIR_LINK_STATE 2 State.reset))).get (by decide),
    _, _, _, _, (Option.some_get _).symm, rfl, rfl, ⟨fun h => absurd h (by decide), fun ⟨x, h,
    _⟩ => absurd (show (none : Option Nat) = some x from h) (by simp)⟩, rfl, by decide, by decide, rfl⟩,
    ⟨({ seq := 1, ack := 0, epoch := 0 } : PHdr), [entry1], _, wr K.ROLE (2) (wr K.PAIR_LINK_STATE (2) State.reset),
    (pairHears true ({ seq := 1, ack := 0, epoch := 0 } : PHdr) (wr K.ROLE (2) (wr K.PAIR_LINK_STATE (2) State.reset))).get (by decide),
    _, _, (Option.some_get _).symm, by decide, rfl, rfl, rfl⟩,
    ⟨({ seq := 1, ack := 0, epoch := 0 } : PHdr), 0, wr K.ROLE (1) (wr K.PAIR_LINK_STATE (2) State.reset),
    (pairHears false ({ seq := 1, ack := 0, epoch := 0 } : PHdr) (wr K.ROLE (1) (wr K.PAIR_LINK_STATE (2) State.reset))).get (by decide),
    _, (Option.some_get _).symm, by decide, rfl⟩,
    ⟨({ seq := 1, ack := 0, epoch := 0 } : PHdr), 1, 0, _,
    wr K.ROLE (2) (wr K.PAIR_LINK_STATE (2) { State.reset with sch.journal := [entry1] }),
    (pairHears true ({ seq := 1, ack := 0, epoch := 0 } : PHdr) (wr K.ROLE (2) (wr K.PAIR_LINK_STATE (2) { State.reset with sch.journal := [entry1] }))).get (by decide),
    _, (Option.some_get _).symm, by decide, rfl, rfl⟩,
    ⟨({ seq := 1, ack := 0, epoch := 0 } : PHdr), wr K.ROLE (2) (wr K.PAIR_LINK_STATE (2) State.reset),
    (pairHears true ({ seq := 1, ack := 0, epoch := 0 } : PHdr) (wr K.ROLE (2) (wr K.PAIR_LINK_STATE (2) State.reset))).get (by decide),
    (Option.some_get _).symm⟩,
    ⟨{ seq := 1, ack := 0, epoch := 0 }, { leg := 3 }, fun z _ => z, wr K.PAIR_LINK_STATE 2 (wr K.ROLE 2 State.reset), _, _,
    _, rfl, by decide, fun _ _ _ => rfl, fun z k x h => by simp at h, rfl, rfl⟩,
    ⟨({ seq := 1, ack := 0, epoch := 0 } : PHdr), wr K.ROLE (2) (wr K.PAIR_LINK_STATE (2) State.reset),
    (pairHears true ({ seq := 1, ack := 0, epoch := 0 } : PHdr) (wr K.ROLE (2) (wr K.PAIR_LINK_STATE (2) State.reset))).get (by decide),
    (Option.some_get _).symm, by decide⟩,
    ⟨({ seq := 1, ack := 0, epoch := 0 } : PHdr), 2, _,
    wr K.PAIR_STATE (2) (wr K.ROLE (1) (wr K.PAIR_LINK_STATE (2) State.reset)),
    (pairHears true ({ seq := 1, ack := 0, epoch := 0 } : PHdr) (wr K.PAIR_STATE (2) (wr K.ROLE (1) (wr K.PAIR_LINK_STATE (2) State.reset)))).get (by decide),
    (Option.some_get _).symm, by decide, rfl, by decide, by decide⟩,
    ⟨({ seq := 1, ack := 0, epoch := 0 } : PHdr), 1, wr K.ROLE (2) (wr K.PAIR_LINK_STATE (2) State.reset),
    (pairHears true ({ seq := 1, ack := 0, epoch := 0 } : PHdr) (wr K.ROLE (2) (wr K.PAIR_LINK_STATE (2) State.reset))).get (by decide),
    (Option.some_get _).symm, by decide, by decide⟩,
    ⟨({ seq := 1, ack := 0, epoch := 0 } : PHdr), 1, 2, wr K.ROLE (3) (wr K.PAIR_LINK_STATE (2) State.reset),
    (pairHears true ({ seq := 1, ack := 0, epoch := 0 } : PHdr) (wr K.ROLE (3) (wr K.PAIR_LINK_STATE (2) State.reset))).get (by decide),
    (Option.some_get _).symm, by decide, by decide, by decide⟩,
    ⟨({ seq := 1, ack := 0, epoch := 0 } : PHdr), wr K.ROLE (2) (wr K.PAIR_LINK_STATE (2) State.reset),
    (pairHears false ({ seq := 1, ack := 0, epoch := 0 } : PHdr) (wr K.ROLE (2) (wr K.PAIR_LINK_STATE (2) State.reset))).get (by decide),
    (Option.some_get _).symm, by decide⟩,
    ⟨({ seq := 1, ack := 0, epoch := 0 } : PHdr), wr K.ROLE (1) (wr K.PAIR_LINK_STATE (2) State.reset),
    (pairHears false ({ seq := 1, ack := 0, epoch := 0 } : PHdr) (wr K.ROLE (1) (wr K.PAIR_LINK_STATE (2) State.reset))).get (by decide),
    (Option.some_get _).symm, by decide⟩,
    ⟨({ seq := 1, ack := 0, epoch := 0 } : PHdr), wr K.ROLE (2) (wr K.PAIR_LINK_STATE (2) State.reset),
    (pairHears true ({ seq := 1, ack := 0, epoch := 0 } : PHdr) (wr K.ROLE (2) (wr K.PAIR_LINK_STATE (2) State.reset))).get (by decide),
    (Option.some_get _).symm, by decide⟩,
    ⟨({ seq := 1, ack := 0, epoch := 0 } : PHdr), wr K.ROLE (1) (wr K.PAIR_LINK_STATE (2) State.reset),
    (pairHears true ({ seq := 1, ack := 0, epoch := 0 } : PHdr) (wr K.ROLE (1) (wr K.PAIR_LINK_STATE (2) State.reset))).get (by decide),
    (Option.some_get _).symm, by decide⟩,
    ⟨({ seq := 1, ack := 0, epoch := 0 } : PHdr), wr K.ROLE (1) (wr K.PAIR_LINK_STATE (2) State.reset),
    (pairHears false ({ seq := 1, ack := 0, epoch := 0 } : PHdr) (wr K.ROLE (1) (wr K.PAIR_LINK_STATE (2) State.reset))).get (by decide),
    (Option.some_get _).symm⟩⟩

theorem hypotheses_met_pair_is_watched :
    (∃ (s : State), (pairLinkUp s = true) ∧ (s.pair.sentAt + 10 * us1 ≤ clk s))
  ∧ (∃ (s : State) (t : State) (q : Nat) (tries : Nat) (t0 : Nat) (m : PMsg) (rest : List (Nat × Nat × Nat × PMsg)),
    (s.pair.unacked = (q, tries, t0, m) :: rest) ∧ (t0 + 8 * us1 ≤ clk s) ∧ (tries < 8) ∧
    (t = { s with pair.unacked := s.pair.unacked.map (fun e => (e.1, e.2.1 + 1, clk s, e.2.2.2)), pair.sentAt := clk s }))
  ∧ (∃ (s : State) (q : Nat) (tries : Nat) (t0 : Nat) (m : PMsg) (rest : List (Nat × Nat × Nat × PMsg)), (s.pair.unacked = (q,
    tries, t0, m) :: rest) ∧ (t0 + 8 * us1 ≤ clk s) ∧ (8 ≤ tries))
  ∧ (∃ (s : State), (pairLinkUp s = true) ∧ (s.pair.lastGood + rd s K.PAIR_LINK_TIMEOUT * us1 ≤ clk s))
  ∧ (∃ (s : State) (t : State) (u : State), (inPair s = true) ∧ (rd s K.PAIR_LINK_STATE ≠ 2) ∧
    (pdState s 11 = pdRun ∨ pdState s 11 = pdLull) ∧
    (t = wr K.PAIR_LINK_STATE 2 { s with pair.txSeq := 0, pair.rxSeq := 0, pair.unacked := [], pair.waiting := [], pair.counters := [], pair.lastGood := clk s, pair.syncDue := rd s K.ROLE == 1, pair.echoSent := some s.isb.now, pair.splitAt := none }) ∧
    (u = pairSend (.timeEcho t.isb.now 0) t))
  ∧ (∃ (s : State), (s.pair.master = true) ∧ (s.pair.switchAt = none) ∧ (lanokUp s = false))
  ∧ (∃ (m : Nat) (s : State), (m ≠ 0) ∧ (s.pair.master = false) ∧ (s.pair.takeAt.isSome = true) ∧ (lanokUp s = false))
  ∧ (∃ (s : State), (s.pair.takeAt = none) ∧ (lanokUp s = true))
  ∧ (∃ (sn : Nat) (role : Nat) (rc : Nat) (s : State) (t : State), (inPair s = true) ∧ (hubAsleep s = false) ∧
    (t = peerConfirm (wr K.PEER_SERIAL sn { s with pair.beaconAt := some (clk s), pair.beaconHubLost := true, pair.peerRole := role, pair.peerReachable := rc })) ∧
    (pairLinkUp t = false) ∧ (rd t K.ROLE = 1 ∨ rd t K.ROLE = 2))
  ∧ (∃ (s : State), (inPair s = true) ∧ (modeOf s = mBridge) ∧ ((rdBlob s K.PEER_MGMT_ADDR).isEmpty = false) ∧
    (s.pair.bridgeBeaconAt + ms1 ≤ clk s))
  ∧ (∃ (s : State) (t : State), (rd s K.ROLE = 1 ∨ rd s K.ROLE = 2) ∧ (beaconSilent s = true) ∧ (s.pair.splitAt = none) ∧
    (rd s K.PAIR_STATE ≠ 4) ∧
    (t = bump K.SPLITS { s with pair.splitAt := some (clk s), pair.holding := true, pair.holdAt := clk s }))
  ∧ (∃ (reach : Nat) (c : Nat) (s : State) (t : State) (u : Instant), (s.pair.splitAt = some u) ∧
    (u + rd s K.SPLIT_SETTLE * ms1 ≤ clk s) ∧ (c = ownReach reach s) ∧ (t = wr K.ENROLLED (enrolled s) (wr K.REACHABLE c s)))
  ∧ (∃ (s : State) (t : State) (m : Instant), (s.pair.switchAt = some m) ∧ (m ≤ fieldNow s) ∧
    (t = { s with pair.master := !s.pair.master, pair.switchAt := none, pair.takeAt := none, pair.switchDone := m, pair.masterChange := !s.pair.master }))
  ∧ (∃ (s : State) (u : Instant), (s.pair.takeAt = some u) ∧ (s.pair.switchAt = none) ∧ (u + 3 * ms1 ≤ fieldClk s))
  ∧ (∃ (reach : Nat) (s : State) (t : State) (u : Instant), (s.pair.startAt = some u) ∧ (u + 2 * s1 ≤ clk s) ∧
    (t = wr K.ENROLLED (enrolled s) (wr K.REACHABLE (ownReach reach s) s))) :=
  ⟨⟨wr K.PAIR_LINK_STATE (2) { State.reset with isb.elapsed := 10000000000000000000000 }, by decide, by decide⟩,
    ⟨{ State.reset with pair.unacked := [(1, 7, 0, .jrnlAck 0)], isb.elapsed := 10000000000000000000000, isb.now := 8 * us1 },
    _, 1, 7, 0, .jrnlAck 0, [], by decide, by decide, by decide, rfl⟩,
    ⟨{ State.reset with pair.unacked := [(1, 8, 0, .jrnlAck 0)], isb.elapsed := 10000000000000000000000, isb.now := 8 * us1 },
    1, 8, 0, .jrnlAck 0, [], by decide, by decide, by decide⟩,
    ⟨wr K.PAIR_LINK_STATE (2) { State.reset with isb.elapsed := 10000000000000000000000 }, by decide, by decide⟩,
    ⟨wr (K.PD_STATE 11) (pdRun) (wr K.ROLE (1) State.reset), _, _, by decide, by decide, by decide, rfl, rfl⟩,
    ⟨{ State.reset with pair.master := true, pair.switchAt := none }, by decide, by decide, by decide⟩,
    ⟨1, { State.reset with pair.master := false, pair.takeAt := some 0 }, by decide, by decide, by decide, by decide⟩,
    ⟨wr K.LANOK_STATE (2) { State.reset with pair.takeAt := none }, by decide, by decide⟩,
    ⟨0, 0, 0, wr K.ROLE (1) State.reset, _, by decide, by decide, rfl, by decide, by decide⟩,
    ⟨wr K.MODE (3) (wr K.ROLE (1) { State.reset with isb.elapsed := 10000000000000000000000, blobs := [(K.PEER_MGMT_ADDR, some [1])], isb.now := ms1 }),
    by decide, by decide, by decide, by decide⟩,
    ⟨wr K.PAIR_LINK_STATE (0) (wr K.BEACON_TIMEOUT (10) (wr K.PAIR_STATE (2) (wr K.ROLE (2) { State.reset with pair.splitAt := none, isb.elapsed := s1 }))),
    _, by decide, by decide, by decide, by decide, rfl⟩,
    ⟨0, _, { State.reset with pair.splitAt := some 0, isb.elapsed := 10000000000000000000000 }, _, 0, by decide, by decide,
    rfl, rfl⟩,
    ⟨{ State.reset with pair.switchAt := some 0 }, _, 0, by decide, by decide, rfl⟩,
    ⟨{ State.reset with pair.takeAt := some 0, pair.switchAt := none, isb.elapsed := 10000000000000000000000, fld.elapsed := 10000000000000000000000, isb.now := 3 * ms1 },
    0, by decide, by decide, by decide⟩,
    ⟨0, { State.reset with pair.startAt := some 0, isb.elapsed := 10000000000000000000000 }, _, 0, by decide, by decide, rfl⟩⟩

theorem hypotheses_met_hub_starts_and_stops :
    (∃ (s : State), (s.boot.supply = false ∨ s.pwr.hpwrEn = false))
  ∧ (∃ (s : State), (s.boot.supply = true) ∧ (s.pwr.hpwrEn = true))
  ∧ (∃ (s : State) (t : State), (t = hubClear s))
  ∧ (∃ (s : State) (t : State), (t = hubClear s))
  ∧ (∃ (s : State), (s.boot.rstLow = false) ∧ (s.boot.step ≠ 0))
  ∧ (∃ (s : State), (s.boot.step = 0) ∧ (s.boot.supply = true) ∧ (s.pwr.hpwrEn = true) ∧ (s.diag.suspended = false))
  ∧ (∃ (s : State), (s.boot.recovery = false) ∧ (s.boot.step = 1) ∧ (settled s [12] = true))
  ∧ (∃ (s : State) (t : _), (s.boot.recovery = false) ∧ (s.boot.step = 2) ∧ (t = bootFirmware s))
  ∧ (∃ (ch : List ChFact) (s : State) (t : _), (s.boot.recovery = false) ∧ (s.boot.step = 3) ∧ (settled s [18] = true) ∧
    (t = bootMemory ch s))
  ∧ (∃ (s : State) (t : _), (s.boot.recovery = false) ∧ (s.boot.step = 4) ∧ (settled s [1, 2, 3, 4, 5, 6, 7, 8, 9] = true) ∧
    (t = wr K.SCHED_STATE 0 s))
  ∧ (∃ (cells : Nat) (s : State) (t : _), (s.boot.recovery = false) ∧ (s.boot.step = 5) ∧ (settled s [10] = true) ∧
    (t = poolFailedCause (poolTested cells s)))
  ∧ (∃ (s : State) (t : _), (s.boot.recovery = false) ∧ (s.boot.step = 6) ∧ (t = bootValues s))
  ∧ (∃ (s : State), (s.boot.recovery = false) ∧ (s.boot.step = 7) ∧ (rd s K.PAIR_EN = 1))
  ∧ (∃ (s : State), (s.boot.recovery = false) ∧ (s.boot.step = 7) ∧ (rd s K.PAIR_EN ≠ 1))
  ∧ (∃ (s : State), (s.boot.recovery = false) ∧ (s.boot.step = 8) ∧ (s.pair.startAt = none) ∧ (settled s hubDomains = true))
  ∧ (∃ (lost : List Nat) (s : State) (t : State) (u : State) (v : _), (rd s K.SCHED_STATE = 1) ∧ (9 ≤ s.boot.step) ∧
    (t = lost.foldl (fun z n => entryLost n z) (replayValues lost s)) ∧
    (u = schEvt 11 (wr K.REPLAY_TIME ((clk t - t.sch.replayAt) / us1) (wr K.SCHED_STATE 0 t))) ∧ (rd u K.LIMP ≠ 1) ∧
    (u.boot.step ≠ 1) ∧
    (v = (if (rd u K.LAST_RESET == 2 && decide (3 ≤ (wdtRecent u).length)) = true then { u with boot.safeCauses := u.boot.safeCauses ++ [3], boot.safeHolds := true } else u))) :=
  ⟨⟨{ State.reset with boot.supply := false }, by decide⟩,
    ⟨{ State.reset with boot.supply := true, pwr.hpwrEn := true }, by decide, by decide⟩,
    ⟨State.reset, _, rfl⟩,
    ⟨State.reset, _, rfl⟩,
    ⟨{ State.reset with boot.rstLow := false, boot.step := 1 }, by decide, by decide⟩,
    ⟨{ State.reset with boot.step := 0, boot.supply := true, pwr.hpwrEn := true, diag.suspended := false }, by decide,
    by decide, by decide, by decide⟩,
    ⟨{ allRun with boot.recovery := false, boot.step := 1 }, by decide, by decide, by decide⟩,
    ⟨{ State.reset with boot.recovery := false, boot.step := 2 }, _, by decide, by decide, rfl⟩,
    ⟨[], { allRun with boot.recovery := false, boot.step := 3 }, _, by decide, by decide, by decide, rfl⟩,
    ⟨{ allRun with boot.recovery := false, boot.step := 4 }, _, by decide, by decide, by decide, rfl⟩,
    ⟨0, { allRun with boot.recovery := false, boot.step := 5 }, _, by decide, by decide, by decide, rfl⟩,
    ⟨{ State.reset with boot.recovery := false, boot.step := 6 }, _, by decide, by decide, rfl⟩,
    ⟨wr K.PAIR_EN (1) { State.reset with boot.recovery := false, boot.step := 7 }, by decide, by decide, by decide⟩,
    ⟨{ State.reset with boot.recovery := false, boot.step := 7 }, by decide, by decide, by decide⟩,
    ⟨{ allRun with boot.recovery := false, boot.step := 8, pair.startAt := none }, by decide, by decide, by decide, by decide⟩,
    ⟨[], wr K.SCHED_STATE (1) { State.reset with boot.step := 9 }, _, _, _, by decide, by decide, rfl, rfl, by decide,
    by decide, rfl⟩⟩

theorem hypotheses_met_test_port_acts :
    ∃ (s : State), (s.boot.step ≠ 0) :=
  ⟨{ State.reset with boot.step := 1 }, by decide⟩

theorem hypotheses_met_node_holds_its_events_in_order :
    (∃ (n : Nat) (c : Fin 16) (s : State), (c.val ≠ 0) ∧ (mayRaise s n c.val = true) ∧ ((nodeOf s n).queue.length < 16))
  ∧ (∃ (n : Nat) (c : Fin 16) (s : State), (c.val ≠ 0) ∧ (mayRaise s n c.val = true) ∧ ((nodeOf s n).queue.length < 16))
  ∧ (∃ (n : Nat) (c : Fin 16) (s : State), (c.val ≠ 0) ∧ (mayRaise s n c.val = true) ∧ ((nodeOf s n).queue.length < 16) ∧
    (c.val = evPriorityOn ∨ c.val = evPriorityOff))
  ∧ (∃ (n : Nat) (c : Fin 16) (s : State), (c.val ≠ 0) ∧ (mayRaise s n c.val = true) ∧ ((nodeOf s n).queue.length < 16) ∧
    (c.val ≠ evPriorityOn) ∧ (c.val ≠ evPriorityOff))
  ∧ (∃ (n : Nat) (c : Fin 16) (s : State), (c.val ≠ 0) ∧ (mayRaise s n c.val = true) ∧ (16 ≤ (nodeOf s n).queue.length))
  ∧ (∃ (n : Nat) (c : Fin 16) (s : State), (c.val = 0 ∨ mayRaise s n c.val = false))
  ∧ (∃ (n : Nat) (m : Nat) (c : Fin 16) (s : State) (t : State), (exec (.buttonPress n c) s = .next t) ∧
    ((nodeOf s m).queue.length ≤ 16))
  ∧ (∃ (n : Nat) (m : Nat) (c : Fin 16) (s : State) (t : State), (exec (.buttonPress n c) s = .next t) ∧ (m ≠ n)) :=
  ⟨⟨0, (1 : Fin 16), State.reset, by decide, by decide, by decide⟩,
    ⟨0, (1 : Fin 16), State.reset, by decide, by decide, by decide⟩,
    ⟨0, 3, State.reset, by decide, by decide, by decide, by decide⟩,
    ⟨0, (1 : Fin 16), State.reset, by decide, by decide, by decide, by decide, by decide⟩,
    ⟨4095, (1 : Fin 16), { State.reset with fld.nodes := [(4095, { queue := List.replicate 16 1 })] }, by decide, by decide,
    by decide⟩,
    ⟨0, (0 : Fin 16), State.reset, by decide⟩,
    ⟨4095, 4095, 1, { State.reset with fld.nodes := [(4095, { queue := List.replicate 16 1 })] }, _, rfl, by decide⟩,
    ⟨4095, 4094, 1, State.reset, _, rfl, by decide⟩⟩

set_option maxRecDepth 8000 in
/-- R415: the test vector of RFC 7714, 16.1.1: the last octets of the ciphertext, and the tag. -/
theorem test_srtp_gcm :
    (aesGcm (List.range 16)
      (xorBytes [0x51, 0x75, 0x69, 0x64, 0x20, 0x70, 0x72, 0x6f, 0x20, 0x71, 0x75, 0x6f]
        ([0, 0] ++ beBytes 4 0x5501a0b2 ++ beBytes 6 0xf17b))
      (beBytes 12 0x8040f17b8041f8d35501a0b2) (beBytes 38 0x47616c6c696120657374206f6d6e69732064697669736120696e207061727465732074726573)).drop 32
    = beBytes 22 0x36de3adf8833899d7f27beb16a9152cf765ee4390cce := by decide

/-- R415: the key derivation of RFC 3711, B.3: the session salt. -/
theorem test_srtp_salt :
    srtpDerive { alg := 0, key := octets (beBytes 16 0xE1F97A0D3E018BE0D64FA32C06DE4139)
                 salt := octets (beBytes 14 0x0EC675AD498AFEEBB6960B3AABE6) } 2 14
    = beBytes 14 0x30CBBC08863D8C85D49DB34A9AE1 := by decide

/-- R293: the header checksum of a known IPv4 header (RFC 1071): B861h. -/
theorem test_ipv4_checksum :
    (TxFrame.ip { queue := 0, len := 0, dst := [192, 168, 0, 199], src := [192, 168, 0, 1], body := .host []
                  kept := [0, 0, 0, 0, 0, 0, 0x40, 0] } 95).drop 10
    = beOctets 2 0xB861 ++ [192, 168, 0, 1, 192, 168, 0, 199] := by decide

/-- R293: the one-byte and the two-byte form of RFC 8285. -/
theorem test_extension_forms :
    extOctets [(1, [1, 2]), (3, [9, 9, 9])] = beOctets 4 0xBEDE0002 ++ [0x11, 1, 2, 0x32, 9, 9, 9, 0]
    ∧ extOctets [(1, [1, 2]), (15, [9, 9, 9])] = beOctets 4 0x10000003 ++ [1, 2, 1, 2, 15, 3, 9, 9, 9, 0, 0, 0] := by decide

end Sys2Proof.Tests
end

/-! # Transactions of the object dictionary on an open transport (O31)

Each command of Table DIC-4 comes to its own request function once the transport is open and the hub serves the
request (`exec_*_served`); what that function answers is stated separately, for any state. -/
namespace Sys2Proof.Machine

section Served

variable {i : Inst} {s : State} {index sub : Nat} (tag : Nat)

@[simp] theorem isWriteReq_write (u : State) : isWriteReq u i 2 = true := rfl

@[simp] theorem isWriteReq_openWrite (u : State) : isWriteReq u i 3 = true := rfl

/-- An open transport hands a request on, and the request counts as activity. -/
theorem received_open (hopen : tpOpen s i.tr = true) (f : State → State) : received i f s = f (touch i s) :=
  if_pos hopen

theorem exec_read_served (hopen : tpOpen s i.tr = true)
    (hserved : unserved i index sub (isWriteReq (touch i s) i 1) (touch i s) = false) :
    exec (.read i tag index sub) s = .next (reqRead i tag index sub [] (touch i s)) := by
  simp [execRead, transact, received_open hopen, hserved]

theorem exec_write_served (value : Bytes) (hopen : tpOpen s i.tr = true)
    (hserved : unserved i index sub true (touch i s) = false) :
    exec (.write i tag index sub value) s = .next (reqWrite i tag index sub value (touch i s)) := by
  simp [execWrite, transact, received_open hopen, hserved, bitOf]

theorem exec_groupWrite_served (value : Bytes) (hopen : tpOpen s i.tr = true)
    (hserved : unserved i index sub true (touch i s) = false) :
    exec (.groupWrite i tag index sub value) s = .next (reqGroup i tag index sub value (touch i s)) := by
  simp [execGroupWrite, transact, received_open hopen, hserved, bitOf]

theorem exec_blobOpenWrite_served (length : Nat) (hopen : tpOpen s i.tr = true)
    (hserved : unserved i index sub true (touch i s) = false) :
    exec (.blobOpenWrite i tag index sub length) s
      = .next (reqOpenWrite i tag index sub (leBytes 4 length) (touch i s)) := by
  simp [execBlobOpenWrite, transact, received_open hopen, hserved]

theorem exec_blobOpenRead_served (hopen : tpOpen s i.tr = true)
    (hserved : unserved i index sub (isWriteReq (touch i s) i 4) (touch i s) = false) :
    exec (.blobOpenRead i tag index sub) s = .next (reqOpenRead i tag index sub [] (touch i s)) := by
  simp [execBlobOpenRead, transact, received_open hopen, hserved]

theorem exec_blobData_served (value : Bytes) (hopen : tpOpen s i.tr = true)
    (hserved : unserved i index sub (isWriteReq (touch i s) i 5) (touch i s) = false) :
    exec (.blobData i tag index sub value) s = .next (reqData i tag index sub value (touch i s)) := by
  simp [execBlobData, transact, received_open hopen, hserved]

theorem exec_blobClose_served (value : Bytes) (hopen : tpOpen s i.tr = true)
    (hserved : unserved i index sub (isWriteReq (touch i s) i 6) (touch i s) = false) :
    exec (.blobClose i tag index sub value) s = .next (reqClose i tag index sub value (touch i s)) := by
  simp [execBlobClose, transact, received_open hopen, hserved]

theorem exec_abort_served (hopen : tpOpen s i.tr = true)
    (hserved : unserved i index sub (isWriteReq (touch i s) i 7) (touch i s) = false) :
    exec (.abort i tag index sub) s = .next (reqAbort i tag index sub [] (touch i s)) := by
  simp [execAbort, transact, received_open hopen, hserved]

end Served

section Requests

variable {i : Inst} {u : State} {index sub : Nat} (tag : Nat)

@[simp] theorem checks_nil : checks [] = .ok := rfl

@[simp] theorem checks_passed (st : Status) (l : List (Bool × Status)) : checks ((false, st) :: l) = checks l := rfl

@[simp] theorem ok_worst (st : Status) : worst st .ok = st := by cases st <;> rfl

theorem readStatus_none {max : Nat} {value : Bytes} (hentry : entryOf index sub = none) :
    readStatus index sub max u value = .noEntry := by
  simp [readStatus, hentry]

theorem reqRead_ok (hauth : authMissing u i 1 = false)
    (hread : readStatus index sub (readMax i) u (readValue (keyOf i index sub u) u).1 = .ok) :
    reqRead i tag index sub [] u = respondAs false i tag 1 index sub .ok
      (readValue (keyOf i index sub u) u).1 (readValue (keyOf i index sub u) u).2 := by
  simp [reqRead, hauth, hread]

theorem reqRead_noEntry (hauth : authMissing u i 1 = false) (hentry : entryOf index sub = none) :
    reqRead i tag index sub [] u = respondAs false i tag 1 index sub .noEntry [] u := by
  simp [reqRead, hauth, readStatus_none hentry]

/-- A key that is no command, has no row's own form and needs no domain is written as a value. -/
theorem writeKey_value {value : Bytes} {e : Entry} (hentry : entryOf index sub = some e) (hcmd : e.acc ≠ .cmd)
    (hlaunch : (index, sub) ≠ (0x1040, 2)) (hstage : (index, sub) ≠ (0xF801, 3))
    (hdomain : enableDomain index sub u = none) :
    writeKey i tag index sub value u = runWriteV i tag (keyOf i index sub u) value
      (keyStatus (keyOf i index sub u) value u) (keyEffect (keyOf i index sub u) value) u := by
  have hlaunch' : ¬ (index = 0x1040 ∧ sub = 2 ∧ value.length = 32) := fun h => hlaunch (by rw [h.1, h.2.1])
  have hstage' : ¬ (index = 0xF801 ∧ sub = 3) := fun h => hstage (by rw [h.1, h.2])
  simp only [writeKey, hentry, hdomain, if_neg hcmd, if_neg hlaunch', if_neg hstage']

theorem reqWrite_ungrouped {value : Bytes} (hgroup : (groupOf u i).isEmpty = true) :
    reqWrite i tag index sub value u = writeKey i tag index sub value u :=
  if_pos hgroup

theorem reqWrite_closes {value : Bytes} (hserved : unserved i index sub true u = false)
    (hauth : authMissing u i 2 = false) (hgroup : (groupOf u i).isEmpty = false) :
    reqWrite i tag index sub value u = unitClose i tag 2 index sub (groupOf u i ++ [(index, sub, value)])
      (.group i tag (groupOf u i ++ [(index, sub, value)])) (groupSet i [] u) := by
  simp [reqWrite, closeGroup, hgroup, hserved, hauth]

theorem reqGroup_held {value : Bytes} {e : Entry} (hrights : rightsGate i index sub u = .ok)
    (hentry : entryOf index sub = some e) (hpresent : present index sub u = true) (hacc : e.acc ≠ .ro)
    (htype : typeFits e value = true) (hcount : (groupOf u i).length < 32)
    (hoctets : unitOctets (groupOf u i) + value.length ≤ 4096) :
    reqGroup i tag index sub value u = respondAs false i tag 2 index sub .pending []
      (groupSet i (groupOf u i ++ [(index, sub, value)])
        { u with dic.groupAt := tabSet 0 u.dic.groupAt (instNum i) (clk u) }) := by
  have hroom : ¬ (32 ≤ (groupOf u i).length ∨ 4096 < unitOctets (groupOf u i) + value.length) := by omega
  simp [reqGroup, hentry, hpresent, hacc, htype, hrights, if_neg hroom]

theorem reqOpenWrite_opens {value : Bytes} {stage : Nat} {e : Entry} (hrights : rightsGate i index sub u = .ok)
    (hentry : entryOf index sub = some e) (hpresent : present index sub u = true) (hacc : e.acc ≠ .ro)
    (hblob : e.ty = .blob) (hlength : value.length = 4) (hlimit : leVal value ≤ blobLimit index e)
    (hgate : blobGate index sub u = .ok) (hidle : (blobOf u i).isSome = false)
    (hkey : ∀ x ∈ u.dic.blob, ∀ b, x.2 = some b → b.write = true → b.key ≠ keyOf i index sub u)
    (hstage : stageFit u (leVal value) = some stage) :
    reqOpenWrite i tag index sub value u = answerReq i tag 3 index sub .ok (blobSet i (some
      { key := keyOf i index sub u, write := true, length := leVal value, data := [], since := clk u,
        stage := stage }) u) := by
  have hrange : decide (blobLimit index e < leVal value) = false := by simpa using hlimit
  simp only [reqOpenWrite, hentry, hpresent, hblob, hlength, hrange, hgate, hrights, hidle, hstage, Bool.false_or]
  rw [List.any_eq_false.mpr]
  · simp [hacc]
  · intro x hx
    split
    next b hb => simpa using hkey x hx b hb
    next => simp

theorem reqOpenRead_opens {e : Entry} (hauth : authMissing u i 4 = false) (hentry : entryOf index sub = some e)
    (hblob : e.ty = .blob) (hidle : (blobOf u i).isSome = false)
    (hread : readStatus index sub 65536 u (readValue (keyOf i index sub u) u).1 = .ok) :
    reqOpenRead i tag index sub [] u = respondAs false i tag 4 index sub .ok
      (leBytes 4 (readValue (keyOf i index sub u) u).1.length ++ leBytes 4 (crc32 (readValue (keyOf i index sub u) u).1))
      (blobSet i (some
        { key := keyOf i index sub u, write := false, length := (readValue (keyOf i index sub u) u).1.length
          data := (readValue (keyOf i index sub u) u).1, since := clk u })
        (readValue (keyOf i index sub u) u).2) := by
  simp [reqOpenRead, hauth, hentry, hblob, hidle, hread]

/-- The open transfer is of the key the request names. -/
theorem transfer_of_key {b : Blob} {k : Nat} (hb : blobOf u i = some b) (hkey : b.key = k) :
    (blobOf u i).filter (fun b => b.key == k) = some b := by
  simp [hb, hkey]

section Transfer

variable {b : Blob} {value : Bytes} (hb : blobOf u i = some b) (hkey : b.key = keyOf i index sub u)
  (hentry : entryGate index sub u = .ok)
include hb hkey hentry

theorem reqData_appends (hauth : authMissing u i 5 = false) (hwrite : b.write = true) (hlength : 4 ≤ value.length)
    (hnext : leAt value 0 4 = b.data.length) (hfits : leAt value 0 4 + (value.drop 4).length ≤ b.length) :
    reqData i tag index sub value u = answerReq i tag 5 index sub .ok (stagePut b.stage (leAt value 0 4) (value.drop 4)
      (blobSet i (some { b with data := b.data ++ value.drop 4 }) u)) := by
  have hshort : ¬ value.length < 4 := by omega
  have hplace : ¬ (leAt value 0 4 ≠ b.data.length ∨ b.length < leAt value 0 4 + (value.drop 4).length) := by omega
  simp only [reqData, transfer_of_key hb hkey, hauth, hentry, hwrite, hshort, if_neg hplace]
  simp

theorem reqData_returns (hauth : authMissing u i 5 = false) (hwrite : b.write = false) (hlength : value.length = 6)
    (hoffset : leAt value 0 4 < b.data.length) (hcount : leAt value 4 2 ≤ readMax i) :
    reqData i tag index sub value u
      = respondAs false i tag 5 index sub .ok ((b.data.drop (leAt value 0 4)).take (leAt value 4 2)) u := by
  have hplace : ¬ (b.data.length ≤ leAt value 0 4 ∨ readMax i < leAt value 4 2) := by omega
  simp only [reqData, transfer_of_key hb hkey, hauth, hentry, hwrite, hlength, if_neg hplace]
  simp

theorem reqClose_accepts (hauth : authMissing u i 6 = false) (hwrite : b.write = true) (hlength : value.length = 4)
    (hwhole : b.data.length = b.length) (hcrc : crc32 b.data = leVal value) :
    reqClose i tag index sub value u = unitClose i tag 6 index sub [(index, sub, b.data)]
      (.blobClose i tag index sub b.data b.stage) (blobSet i none u) := by
  simp only [reqClose, transfer_of_key hb hkey, hauth, hentry, hwrite]
  simp [hlength, hwhole, hcrc]

theorem reqClose_ends_read (hauth : authMissing u i 6 = false) (hwrite : b.write = false) :
    reqClose i tag index sub [] u = answerReq i tag 6 index sub .ok (blobSet i none u) := by
  simp only [reqClose, transfer_of_key hb hkey, hauth, hentry, hwrite]
  simp

end Transfer

theorem reqAbort_discards (hauth : authMissing u i 7 = false) (hentry : entryGate index sub u = .ok) :
    reqAbort i tag index sub [] u = answerReq i tag 7 index sub .ok (groupSet i [] (blobSet i none u)) := by
  simp [reqAbort, hauth, hentry]

end Requests

/-- Settles O31: on an open transport that serves the request every command comes to its request function
(`exec_*_served`), whose checks pass or fail as the clause says. -/
theorem transactionsAreServed : Obligations.TransactionsAreServed := by
  unfold Obligations.TransactionsAreServed
  refine ⟨?read, ?readNone, ?write, ?closeGroup, ?groupWrite, ?openWrite, ?openRead, ?dataIn, ?dataOut, ?closeWrite,
    ?closeRead, ?abort⟩
  case read =>
    intro i tag index sub s hopen hserved hreq hauth hread
    rw [exec_read_served tag hopen (by rw [hreq]; exact hserved), reqRead_ok tag hauth hread]
  case readNone =>
    intro i tag index sub s hopen hserved hreq hauth hentry
    rw [exec_read_served tag hopen (by rw [hreq]; exact hserved), reqRead_noEntry tag hauth hentry]
  case write =>
    intro i tag index sub k value e s hfree hentry hcmd hlaunch hstage hdomain hk hindex hsub hstatus
    obtain ⟨hopen, hgroup, hserved, -⟩ := unhindered_parts hfree
    rw [exec_write_served tag value hopen hserved, reqWrite_ungrouped tag hgroup,
      writeKey_value tag hentry hcmd hlaunch hstage hdomain, ← hk, hstatus, runWriteV_of hindex hsub hfree]
  case closeGroup =>
    intro i tag index sub value s hopen hserved hauth hgroup
    rw [exec_write_served tag value hopen hserved, reqWrite_closes tag hserved hauth hgroup]
  case groupWrite =>
    intro i tag index sub value e s hopen hserved hrights hentry hpresent hacc htype hcount hoctets
    rw [exec_groupWrite_served tag value hopen hserved,
      reqGroup_held tag hrights hentry hpresent hacc htype hcount hoctets]
  case openWrite =>
    intro i tag index sub n stage e s hopen hserved hrights hentry hpresent hacc hblob hlimit hgate hidle hkey hstage
    rw [exec_blobOpenWrite_served tag n hopen hserved, reqOpenWrite_opens tag hrights hentry hpresent hacc hblob
      (leBytes_length 4 n) hlimit hgate hidle hkey hstage]
  case openRead =>
    intro i tag index sub e s hopen hserved hreq hauth hentry hblob hidle hread
    rw [exec_blobOpenRead_served tag hopen (by rw [hreq]; exact hserved),
      reqOpenRead_opens tag hauth hentry hblob hidle hread]
  case dataIn =>
    intro i tag index sub value b s hopen hserved hauth hentry hb hkey hwrite hlength hnext hfits
    rw [exec_blobData_served tag value hopen hserved,
      reqData_appends tag hb hkey hentry hauth hwrite hlength hnext hfits]
  case dataOut =>
    intro i tag index sub value b s hopen hserved hauth hentry hb hkey hwrite hlength hoffset hcount
    rw [exec_blobData_served tag value hopen hserved,
      reqData_returns tag hb hkey hentry hauth hwrite hlength hoffset hcount]
  case closeWrite =>
    intro i tag index sub value b s hopen hserved hauth hentry hb hkey hwrite hlength hwhole hcrc
    rw [exec_blobClose_served tag value hopen hserved,
      reqClose_accepts tag hb hkey hentry hauth hwrite hlength hwhole hcrc]
  case closeRead =>
    intro i tag index sub b s hopen hserved hauth hentry hb hkey hwrite
    rw [exec_blobClose_served tag [] hopen hserved, reqClose_ends_read tag hb hkey hentry hauth hwrite]
  case abort =>
    intro i tag index sub s hopen hserved hauth hentry
    rw [exec_abort_served tag hopen hserved, reqAbort_discards tag hauth hentry]

end Sys2Proof.Machine

/-! # Carriers, command ends, timeouts, the persist area, registers (O32) -/
namespace Sys2Proof.Machine

section Carriers

variable {s : State}

theorem exec_mbxGo_reaches (m : Fin 4) (hup : pcieReaches s = true) : exec (.mbxGo m) s = .next (mbxGo m.val s) := by
  simp [execMbxGo, hup]

theorem mbxGo_idle {m : Nat} (hidle : (mbxOf s m).busy = false) :
    mbxGo m s = serveEnvelope { tr := 0, sub := m } (mbxReq s m) (mbxUpd m (fun x => { x with busy := true }) s) := by
  simp [mbxGo, hidle]

theorem mbxGo_busy {m : Nat} (hbusy : (mbxOf s m).busy = true) : mbxGo m s = bump (K.DROPS 0) s :=
  if_pos hbusy

/-- The management port runs and the transport is open: a datagram is looked at. -/
theorem exec_udpDictDatagram_open {a : Bytes} {p : Nat} {f : Bool} {b : Bytes} (hport : rd s K.MGMT_STATE ≠ 0)
    (hopen : rd s (K.TP_EN 1) ≠ 0) :
    exec (.udpDictDatagram a p f b) s = .next (if f = true ∨ 272 < b.length then bump (K.DROPS 1) s
      else serveEnvelope { tr := 1, peer := (a, p) } b s) := by
  simp only [exec_udpDictDatagram, execUdpDictDatagram, udpDatagram, if_neg hport, if_neg hopen]

theorem cmdComplete_pending {i : Inst} {tag index sub : Nat} {st : Status}
    (hfind : s.dic.pendingCmds.find? (fun c => c.2.2.1 == index && c.2.2.2 == sub) = some (i, tag, index, sub)) :
    cmdComplete index sub st s = deliver i st false (rspOctets tag 0x0F index sub st [])
      (emit (.dictRsp i tag 0x8F index sub st.code []) (lastCmd i index sub st { s with
        dic.pendingCmds := s.dic.pendingCmds.erase (i, tag, index, sub)
        boot.busy := s.boot.busy.filter (· != index * 256 + sub) })) := by
  simp only [cmdComplete, hfind]

end Carriers

section Timeouts

variable {i : Inst} {s : State}

theorem exec_groupTimeout_due (hheld : (groupOf s i).isEmpty = false)
    (hdue : tabGet 0 s.dic.groupAt (instNum i) + s1 ≤ clk s) :
    exec (.groupTimeout i) s = .next (groupSet i [] s) := by
  rw [exec_groupTimeout, execGroupTimeout, if_pos ⟨hheld, hdue⟩]

theorem exec_blobTimeout_due {b : Blob} (hb : blobOf s i = some b) (hdue : b.since + s1 ≤ clk s) :
    exec (.blobTimeout i) s = .next (blobSet i none s) := by
  simp only [exec_blobTimeout, execBlobTimeout, hb, if_pos hdue]

end Timeouts

section Flash

variable {s : State}

/-- Freeing journal entries leaves the boot part alone, where SEQ and validity of the persist copies stand. -/
@[simp] theorem jrnlFree_boot (s : State) : (jrnlFree s).boot = s.boot :=
  have hkept : Kept (maskOf [.regs, .out, .sch, .mem, .pair, .octets]) s (jrnlFree s) :=
    jrnlFree_kept (Has.lit [.regs, .out, .sch, .mem, .pair, .octets] rfl) s (Kept.refl s)
  hkept.part (p := .boot) (by decide)

theorem exec_persistFlashWrite_due {newer0 : Bool} (hdirty : s.dic.dirty.isEmpty = false)
    (hidle : s.dic.flashing.isSome = false) (hstep : s.boot.step = 9)
    (hnewer : newer0 = (s.boot.persistGood0 && (!s.boot.persistGood1 || decide (s.boot.persistSeq1 ≤ s.boot.persistSeq0)))) :
    exec .persistFlashWrite s = .next { s with
      boot.persistGood0 := newer0, boot.persistGood1 := if newer0 then false else s.boot.persistGood1
      dic.flashing := some { keys := s.dic.dirty, bound := s.dic.entry, values := persistValues s, blobs := persistBlobs s } } := by
  simp [execPersistFlashWrite, hdirty, hidle, hstep, hnewer]

/-- The boot part once the copy being written is whole: copy 0 was written where it is not the good one. -/
theorem execPersistWriteComplete_boot {f : Flash} (hf : s.dic.flashing = some f) :
    ∃ t, execPersistWriteComplete s = .next t ∧ t.boot = { s.boot with
      persistSeq0 := if s.boot.persistGood0 then s.boot.persistSeq0 else s.boot.persistSeq1 + 1
      persistSeq1 := if s.boot.persistGood0 then s.boot.persistSeq0 + 1 else s.boot.persistSeq1
      persistGood0 := true
      persistGood1 := s.boot.persistGood1 || s.boot.persistGood0 } := by
  unfold execPersistWriteComplete
  rw [hf]
  refine ⟨_, rfl, ?_⟩
  cases hgood : s.boot.persistGood0 <;> simp

end Flash

section Registers

variable {bar offset : Nat} {s : State}

theorem exec_registerWrite_reaches (width data : Nat) (hreach : barReaches bar offset s = true) :
    exec (.registerWrite bar offset width data) s
      = .next (if (width = 4 ∨ (width = 8 ∧ wideWindow bar offset = true)) ∧ offset % width = 0 then
          registerPut bar offset width (data % 256 ^ width) s
        else badAccess bar offset s) := by
  simp only [exec_registerWrite, execRegisterWrite, hreach]
  rfl

theorem exec_badRegisterAccess_reaches (fn : Nat) (read : Bool) (hreach : barReaches bar offset s = true) :
    exec (.badRegisterAccess fn bar offset read) s
      = .next (emitIf read (.regRead fn bar offset 0) (badAccess bar offset s)) := by
  simp only [exec_badRegisterAccess, execBadRegisterAccess, hreach]
  rfl

end Registers

/-- Settles O32: each carrier, timeout and register command by its own equation above; what a finished persist write
leaves of the two copies by `execPersistWriteComplete_boot`. -/
theorem carriersAndFlashDeliver : Obligations.CarriersAndFlashDeliver := by
  unfold Obligations.CarriersAndFlashDeliver
  refine ⟨?mbx, ?mbxBusy, ?udp, ?udpDropped, ?complete, ?group, ?blob, ?persist, ?persistDone, ?register, ?registerBad,
    ?badRead, ?badWrite⟩
  case mbx =>
    intro m s hup hidle
    rw [exec_mbxGo_reaches m hup, mbxGo_idle hidle]
  case mbxBusy =>
    intro m s hup hbusy
    rw [exec_mbxGo_reaches m hup, mbxGo_busy hbusy]
  case udp =>
    intro a p b s hport hopen hlength
    have hserved : ¬ (false = true ∨ 272 < b.length) := by simpa using hlength
    rw [exec_udpDictDatagram_open hport hopen, if_neg hserved]
  case udpDropped =>
    intro a p f b s hport hopen hdropped
    rw [exec_udpDictDatagram_open hport hopen, if_pos hdropped]
  case complete =>
    intro index sub i tag s u hfind hu
    rw [hu]
    exact congrArg Host.Outcome.next (cmdComplete_pending (st := .ok) hfind)
  case group => exact fun i s hheld hdue => exec_groupTimeout_due hheld hdue
  case blob => exact fun i b s hb hdue => exec_blobTimeout_due hb hdue
  case persist => exact fun s newer0 hdirty hidle hstep hnewer => exec_persistFlashWrite_due hdirty hidle hstep hnewer
  case persistDone =>
    intro f s hf
    obtain ⟨t, ht, hboot⟩ := execPersistWriteComplete_boot hf
    exact ⟨t, ht, by rw [hboot], by rw [hboot], by rw [hboot], by rw [hboot]⟩
  case register =>
    intro bar offset width data s hreach hwidth haligned
    rw [exec_registerWrite_reaches width data hreach, if_pos ⟨hwidth, haligned⟩]
  case registerBad =>
    intro bar offset width data s hreach hbad
    have hno : ¬ ((width = 4 ∨ (width = 8 ∧ wideWindow bar offset = true)) ∧ offset % width = 0) := by
      rintro ⟨hwidth, haligned⟩
      omega
    rw [exec_registerWrite_reaches width data hreach, if_neg hno]
  case badRead => exact fun fn bar offset s hreach => exec_badRegisterAccess_reaches fn true hreach
  case badWrite => exact fun fn bar offset s hreach => exec_badRegisterAccess_reaches fn false hreach

end Sys2Proof.Machine

/-! # Messages over the Lanok link, and its loss (O22) -/
namespace Sys2Proof.Machine

section Received

variable {hub reliable : Bool} {hd : LHdr} {s u : State}

/-- A message that is received acts on the state its reception leaves. -/
theorem onLanok_received (f : State → State) (hrecv : lanokRecv hub reliable hd s = (true, u)) :
    onLanok hub reliable hd f s = .next (f u) := by
  simp only [onLanok, hrecv]

/-- A hub that neither relays a segment nor stands by takes its own field die's messages itself. -/
theorem hubGets_serving {m : LMsg} {f : State → State} (hrelay : relaying u = false) (hrole : rd u K.ROLE ≠ 2) :
    hubGets m f u = f u := by
  simp [hubGets, hrelay, hrole]

theorem exec_nodeEvent_received (node code frameTime : Nat) (hrecv : lanokRecv true true hd s = (true, u))
    (hrelay : relaying u = false) (hrole : rd u K.ROLE ≠ 2) :
    exec (.nodeEvent hd node code frameTime) s = .next (hubNodeEvent node code frameTime u) := by
  rw [exec_nodeEvent, execNodeEvent, onLanok_received _ hrecv, hubGets_serving hrelay hrole]

theorem exec_nodeClear_received (node : Nat) (hrecv : lanokRecv true true hd s = (true, u))
    (hrelay : relaying u = false) (hrole : rd u K.ROLE ≠ 2) :
    exec (.nodeClear hd node) s = .next (hubNodeClear node u) := by
  rw [exec_nodeClear, execNodeClear, onLanok_received _ hrecv, hubGets_serving hrelay hrole]

theorem exec_heartbeat_atHub (mode field role epoch : Nat) (hrecv : lanokRecv true false hd s = (true, u)) :
    exec (.heartbeat true hd mode field role epoch) s
      = .next (endUpd true (fun e => { e with beat := true, missed := 0 }) u) := by
  rw [exec_heartbeat, execHeartbeat, onLanok_received _ hrecv, if_pos rfl]

theorem exec_timeEcho_atHub {sent : Nat} (hold : Nat) (hrecv : lanokRecv true false hd s = (true, u))
    (hsent : u.isb.echoSent = some sent) :
    exec (.timeEcho true hd sent hold) s
      = .next (wr K.BARRIER_DELAY (((u.isb.now - sent) * 1000 / ns1 - hold) / 2) { u with isb.echoSent := none }) := by
  rw [exec_timeEcho, execTimeEcho, onLanok_received _ hrecv]
  simp [hsent]

theorem exec_audioUp_awake (k : Fin 8) (b : Fin 4) (frameTime valid : Nat) (x : List (List Int))
    (hrecv : lanokRecv true false hd s = (true, u)) (hawake : hubAsleep u = false) (hrelay : relaying u = false) :
    exec (.audioUp hd k b frameTime valid x) s = .next (takeBlock true k.val b.val valid x u) := by
  rw [exec_audioUp, execAudioUp, onLanok_received _ hrecv]
  simp [hawake, hrelay]

end Received

section Loss

variable {s : State}

theorem exec_nodeEventResend_due {node : Nat} (hpending : (nodeOf s node).hs = 1) (hseen : (nodeOf s node).lastSeen ≠ 0)
    (hawake : s.fld.hubAsleep = false) (hdue : (nodeOf s node).lastSend + 10 * ms1 ≤ fieldClk s) :
    exec (.nodeEventResend node) s
      = .next (lanokSend false (.nodeEvent node (nodeOf s node).code ((nodeOf s node).frameTime / ns1))
          (nodeUpd node (fun x => { x with lastSend := fieldClk s }) s)) := by
  rw [exec_nodeEventResend, execNodeEventResend, if_pos ⟨hpending, hseen, hawake, hdue⟩]

theorem exec_fieldLost_noticed (hmissed : 8 ≤ s.fld.hubEnd.missed) (hnew : s.fld.lost = false)
    (hmode : modeOf s ≠ mBridge) :
    exec .fieldLost s
      = .next (summary 4 true { (upd (lanokUp s) (fun s => hallAlone (lanokDown s)) s) with fld.lost := true }) := by
  have hreported : ¬ (s.fld.hubEnd.missed < 8 ∨ s.fld.lost = true) := by simpa [hnew] using hmissed
  have hfault : (!(modeOf s == mBridge && !s.fld.powered)) = true := by simp [hmode]
  rw [exec_fieldLost, execFieldLost, if_neg hreported, hfault]
  rfl

theorem exec_hubLost_noticed (hmissed : 8 ≤ s.fld.fieldEnd.missed) (hserved : s.fld.hubSeen = true ∨ lanokUp s = true) :
    exec .hubLost s = .next
      (hallAlone (bump K.HUB_LOST (upd (lanokUp s) lanokDown { s with fld.hubSeen := false, fld.hubAsleep := false }))) := by
  have hreported : ¬ (s.fld.fieldEnd.missed < 8 ∨ (s.fld.hubSeen = false ∧ lanokUp s = false)) := by
    rcases hserved with hseen | hup
    · simpa [hseen] using hmissed
    · simpa [hup] using hmissed
  rw [exec_hubLost, execHubLost, if_neg hreported]

/-- TRUNK_STATE is a key the field die holds. -/
theorem trunkState_fieldHeld (t : Fin 8) : fieldHeld (K.TRUNK_STATE t.val) = true := by
  revert t; decide

theorem keyIndex_trunkState (t : Nat) : keyIndex (K.TRUNK_STATE t) = 0x1800 + 256 * t := keyIndex_key (by decide)

theorem keySub_trunkState (t : Nat) : keySub (K.TRUNK_STATE t) = 1 := keySub_key (by decide)

/-- R119: while the link is down the hub answers a key the field die holds, which is no pin level, from what it last
saw. -/
theorem readValue_link_down {k : Nat} (hdown : lanokUp s = false) (hheld : fieldHeld k = true) (hpin : keySub k ≠ 4) :
    readValue k s = (seenValue s k, s) := by
  simp [readValue, hdown, hheld, hpin]

/-- R12: of a lost field die every trunk reads ABSENT. -/
theorem seenValue_trunkState_lost (t : Fin 8) (hlost : s.fld.lost = true) :
    seenValue s (K.TRUNK_STATE t.val) = [0] := by
  have hindex := keyIndex_trunkState t.val
  have hnot : keyIndex (K.TRUNK_STATE t.val) ≠ 0x1411 := by omega
  have htrunk : s.fld.lost = true ∧ 0x1800 ≤ keyIndex (K.TRUNK_STATE t.val) ∧ keyIndex (K.TRUNK_STATE t.val) < 0x2000
      ∧ keyIndex (K.TRUNK_STATE t.val) % 256 = 0 ∧ keySub (K.TRUNK_STATE t.val) = 1 :=
    ⟨hlost, by omega, by omega, by omega, keySub_trunkState t.val⟩
  rw [seenValue, if_neg hnot, if_pos htrunk]

/-- Where the hall has the hub's mix it goes to the field die's at the next frame boundary, and HUB becomes DEFAULT. -/
theorem hallAlone_of_hubMix (hmix : s.fld.hubMix = true)
    (hstate : fieldState (hdAdopt (startMixFade false (ceilTo framePeriod (fieldNow s)) s)) = fsHub) :
    hallAlone s = setFieldState fsDefault (hdAdopt (startMixFade false (ceilTo framePeriod (fieldNow s)) s)) := by
  simp only [hallAlone, if_pos hmix, if_pos hstate]

end Loss

/-- Settles O22: each message by what it does once received (`onLanok_received`), each loss by the condition that
notices it. -/
theorem lanokMessagesAct : Obligations.LanokMessagesAct := by
  unfold Obligations.LanokMessagesAct
  refine ⟨?event, ?clear, ?ack, ?beat, ?time, ?echo, ?up, ?down, ?again, ?fieldLost, ?absent, ?hubLost, ?hall⟩
  case event => exact fun hd node code ft s u hrecv hrelay hrole => exec_nodeEvent_received node code ft hrecv hrelay hrole
  case clear => exact fun hd node s u hrecv hrelay hrole => exec_nodeClear_received node hrecv hrelay hrole
  case ack =>
    intro hd node s u hrecv
    rw [exec_nodeAck, execNodeAck, onLanok_received _ hrecv]
  case beat => exact fun hd mode field role epoch s u hrecv => exec_heartbeat_atHub mode field role epoch hrecv
  case time =>
    intro hd a b c f s u hrecv
    rw [exec_timeXfer, execTimeXfer, onLanok_received _ hrecv]
  case echo => exact fun hd sent hold s u hrecv hsent => exec_timeEcho_atHub hold hrecv hsent
  case up => exact fun hd k b ft valid x s u hrecv hawake hrelay => exec_audioUp_awake k b ft valid x hrecv hawake hrelay
  case down =>
    intro hd ft x s u hrecv
    rw [exec_audioDown, execAudioDown, onLanok_received _ hrecv]
  case again => exact fun node s hpending hseen hawake hdue => exec_nodeEventResend_due hpending hseen hawake hdue
  case fieldLost => exact fun s hmissed hnew hmode => exec_fieldLost_noticed hmissed hnew hmode
  case absent =>
    intro s t hlost hdown
    have hpin : keySub (K.TRUNK_STATE t.val) ≠ 4 := by rw [keySub_trunkState]; decide
    rw [readValue_link_down hdown (trunkState_fieldHeld t) hpin, seenValue_trunkState_lost t hlost]
  case hubLost => exact fun s hmissed hserved => exec_hubLost_noticed hmissed hserved
  case hall => exact fun s hmix hstate => hallAlone_of_hubMix hmix hstate

end Sys2Proof.Machine

/-! # The Lanok link's re-sends and start, requests over it, the hall's handover, node buttons (O23) -/
namespace Sys2Proof.Machine

section LinkErrors

variable {hub : Bool} {s r : State}

/-- When a command takes the link down, the field die runs the hall. -/
theorem hallAlone_at_linkLoss (hup : lanokUp s = true) (hdown : lanokUp r = false) :
    upd (lanokUp s && !lanokUp r) hallAlone r = hallAlone r := by
  simp [upd, hup, hdown]

/-- While the link stays up the hall is left as it is. -/
theorem hall_kept_while_up (hup : lanokUp r = true) : upd (lanokUp s && !lanokUp r) hallAlone r = r := by
  simp [upd, hup]

section Resend

variable {w : Unacked} {l : List Unacked} (hunacked : (endOf hub s).unacked = w :: l) (hup : lanokUp s = true)
  (hdue : w.at_ + 20 * us1 ≤ clk s)
include hunacked hup hdue

/-- R67: after eight re-sends of one message the link is down. -/
theorem lanokResend_exhausted (htries : (w :: l).any (fun u => decide (8 ≤ u.tries)) = true) :
    lanokResend hub s = lanokDown s := by
  have hact : ¬ (!lanokUp s || decide (clk s < w.at_ + 20 * us1)) = true := by simp [hup, hdue]
  simp only [lanokResend, hunacked, if_neg hact, if_pos htries]

/-- R65: every unacknowledged message is sent again in SEQ order, and counted. -/
theorem lanokResend_again {v : State} (htries : (w :: l).any (fun u => decide (8 ≤ u.tries)) = false)
    (hv : v = (w :: l).foldl (fun x u => lanokEmit hub u.seq (endOf hub s).rxSeq u.msg (bump (K.LANOK_COUNTS 1) x)) s) :
    lanokResend hub s = endUpd hub (fun e => { e with
      unacked := e.unacked.map (fun u => { u with tries := u.tries + 1, at_ := clk v }) }) v := by
  have hact : ¬ (!lanokUp s || decide (clk s < w.at_ + 20 * us1)) = true := by simp [hup, hdue]
  have hmore : ¬ (w :: l).any (fun u => decide (8 ≤ u.tries)) = true := by simp [htries]
  simp only [lanokResend, hunacked, if_neg hact, if_neg hmore, hv]

end Resend

/-- A bad CRC is counted, and in the run of its die; the sixteenth in a row takes the link down. -/
theorem lanokCrcFailure_bad {u : State} (hup : lanokUp s = true)
    (hu : u = bump (K.LANOK_COUNTS 0) (endUpd hub (fun e => { e with crcRun := e.crcRun + 1 }) s)) :
    lanokCrcFailure hub false s = if 16 ≤ (endOf hub u).crcRun then lanokDown u else u := by
  simp [lanokCrcFailure, hup, hu]

/-- R68: a foreign message is counted apart, and its CRC was good. -/
theorem lanokCrcFailure_foreign (hup : lanokUp s = true) :
    lanokCrcFailure hub true s = bump (K.LANOK_COUNTS 3) (endUpd hub (fun e => { e with crcRun := 0 }) s) := by
  simp [lanokCrcFailure, hup]

end LinkErrors

section Requests

variable {hub : Bool} {hd : LHdr} {s u : State}

theorem exec_wake_privileged {source : Nat} (data at_ : Nat) (hrecv : lanokRecv true true hd s = (true, u))
    (hsource : source = 2 ∨ source = 3) :
    exec (.wake hd source data at_) s = .next (privileged source data (at_ * ns1) u) := by
  rw [exec_wake, execWake, onLanok_received _ hrecv, if_pos hsource]

theorem exec_wake_seat (data at_ : Nat) (hrecv : lanokRecv true true hd s = (true, u)) :
    exec (.wake hd 0x10 data at_) s = .next (wakeHub 0x10 u) := by
  rw [exec_wake, execWake, onLanok_received _ hrecv, if_neg (by decide), if_pos (.inl rfl)]

/-- A request of another transport than a node's is served from its envelope. -/
theorem exec_dictReq_envelope {i : Inst} (b : Bytes) (hrecv : lanokRecv true true hd s = (true, u)) (hnode : i.tr ≠ 4) :
    exec (.dictReq hd i b) s = .next (serveEnvelope i b u) := by
  rw [exec_dictReq, execDictReq, onLanok_received _ hrecv]
  simp [serveRequest, hnode]

theorem exec_dictRsp_can {i : Inst} (b : Bytes) (hrecv : lanokRecv false true hd s = (true, u))
    (hcan : i.tr = 2 ∨ i.tr = 3) : exec (.dictRsp hd i b) s = .next (canSend (i.tr - 2) b u) := by
  rw [exec_dictRsp, execDictRsp, onLanok_received _ hrecv, fieldReply, if_pos hcan]

end Requests

section Hall

variable {s : State} {node : Nat} {code : Fin 16}

/-- R102: a handover to the field die's mix is reported, fades at its boundary, and DEFAULT adopts the microphones;
with no transition under way nothing else follows. -/
theorem exec_hallHandover_toFloor {n : Nat} {h : HeldLaunch} {u v : State}
    (hheld : dueHeld s ltHallHandover (fieldNow s) (fun _ _ => true) = some (n, h)) (harg : h.lr.arg % 2 = 1)
    (hu : u = setHeld n none (report n 0xFF (if heldLate s (fieldNow s) h then lsLate else lsFired) 0 0 s))
    (hv : v = startMixFade false (fieldNow u) u) (hawake : fieldState v ≠ fsCalm)
    (hmode : (setFieldState fsDefault (hdAdopt v)).boot.transition = none) :
    exec .hallHandover s = .next (setFieldState fsDefault (hdAdopt v)) := by
  have hfloor : (h.lr.arg % 2 == 0) = false := by simp [harg]
  rw [exec_hallHandover, execHallHandover, hheld]
  simp only [hfloor, Bool.false_and, Bool.false_eq_true, if_false, ← hu, ← hv, if_neg hawake, hmode]
  rfl

theorem exec_hdMicCloseEnd_frees {l : List Nat}
    (hl : l = s.fld.hd.closing.filter (fun m => m / 16 == node && hdClosed s m)) (hsome : l ≠ []) :
    exec (.hdMicCloseEnd node) s = .next (hdFreed (l.foldl (fun s m =>
      slotClear node (m % 16) (hdUpd (fun h => { h with closing := h.closing.erase m }) s)) s)) := by
  have hclosed : ¬ l.isEmpty = true := by simpa using hsome
  simp only [exec_hdMicCloseEnd, execHdMicCloseEnd, hdCloseEnd, ← hl, if_neg hclosed]

section Press

variable (hcode : 1 ≤ code.val) (hmay : mayRaise s node code.val = true)
include hcode hmay

/-- A press a node may raise enters its queue, or is dropped where 16 wait. -/
theorem exec_buttonPress_raised : exec (.buttonPress node code) s = .next
    (if 16 ≤ (nodeOf s node).queue.length then nodeUpd node (fun x => { x with overflow := true }) s
    else lightKey node code.val (nodeUpd node (fun x => { x with
      queue := if code.val = evPriorityOn ∨ code.val = evPriorityOff then code.val :: x.queue
        else x.queue ++ [code.val] }) s)) := by
  have hraised : ¬ (code.val = 0 ∨ mayRaise s node code.val = false) := by
    rintro (hzero | hrefused)
    · omega
    · simp [hmay] at hrefused
  simp only [exec_buttonPress, execButtonPress, if_neg hraised]
  split <;> rfl

end Press

end Hall

/-- Settles O23: the link's errors by what re-sends and bad CRCs leave of it, requests by what each does once received
(`onLanok_received`), the handover and the buttons by their own equations. -/
theorem lanokLinkLives : Obligations.LanokLinkLives := by
  unfold Obligations.LanokLinkLives
  refine ⟨?exhausted, ?again, ?emit, ?crc, ?crcRun, ?foreign, ?start, ?wake, ?wakeSeat, ?power, ?request, ?response,
    ?handover, ?closed, ?press, ?overflow⟩
  case exhausted =>
    intro hub w l s hunacked hup hdue htries hdown
    rw [exec_lanokResend, execLanokResend, lanokResend_exhausted hunacked hup hdue htries,
      hallAlone_at_linkLoss hup hdown]
  case again =>
    intro hub w l s v hunacked hup hdue htries hv hstays
    rw [exec_lanokResend, execLanokResend, lanokResend_again hunacked hup hdue htries hv, hall_kept_while_up hstays]
  case emit => exact fun hub q a m s => rfl
  case crc =>
    intro hub s u hup hu hrun hstays
    rw [exec_lanokCrcFailure, execLanokCrcFailure, lanokCrcFailure_bad hup hu, if_neg (by omega),
      hall_kept_while_up hstays]
  case crcRun =>
    intro hub s u hup hu hrun hdown
    rw [exec_lanokCrcFailure, execLanokCrcFailure, lanokCrcFailure_bad hup hu, if_pos hrun,
      hallAlone_at_linkLoss hup hdown]
  case foreign =>
    intro hub s u hup hu hstays
    rw [exec_lanokCrcFailure, execLanokCrcFailure, lanokCrcFailure_foreign hup, ← hu, hall_kept_while_up hstays]
  case start =>
    intro off s u _ _ _ hu
    rw [exec_lanokLinkStart, execLanokLinkStart, hu]
  case wake => exact fun hd source data at_ s u hrecv hsource => exec_wake_privileged data at_ hrecv hsource
  case wakeSeat => exact fun hd data at_ s u hrecv => exec_wake_seat data at_ hrecv
  case power =>
    intro hub hd kind arg s u hrecv
    rw [exec_power, execPower, onLanok_received _ hrecv]
  case request => exact fun hd i b s u hrecv hnode => exec_dictReq_envelope b hrecv hnode
  case response => exact fun hd i b s u hrecv hcan => exec_dictRsp_can b hrecv hcan
  case handover =>
    exact fun n h s u v hheld harg hu hv hawake hmode => exec_hallHandover_toFloor hheld harg hu hv hawake hmode
  case closed => exact fun node s l hl hsome => exec_hdMicCloseEnd_frees hl hsome
  case press =>
    intro node code s hcode hmay hroom
    rw [exec_buttonPress_raised hcode hmay, if_neg (by omega)]
  case overflow =>
    intro node code s hcode hmay hfull
    rw [exec_buttonPress_raised hcode hmay, if_pos hfull]

end Sys2Proof.Machine

/-! # The Isobar count: its step on each clock, its readings, the end of a slew (O13, O14) -/
namespace Sys2Proof.Machine

section Count

variable {s : State}

theorem hubSlow_of_sleep (hsleep : rd s K.HUB_PSTATE = 2 ∨ rd s K.HUB_PSTATE = 3 ∨ rd s K.HUB_PSTATE = 4) :
    hubSlow s = true := by
  rcases hsleep with hcalm | hfrost | hwaking <;> simp [hubSlow, hubAsleep, *]

theorem hubSlow_of_awake (hcalm : rd s K.HUB_PSTATE ≠ 2) (hfrost : rd s K.HUB_PSTATE ≠ 3)
    (hwaking : rd s K.HUB_PSTATE ≠ 4) : hubSlow s = false := by
  simp [hubSlow, hubAsleep, hcalm, hfrost, hwaking]

theorem tickSpan_limp (hlimp : rd s K.ISB_STATE = 3) : tickSpan s = 163840 :=
  if_pos hlimp

theorem tickSpan_slow (hlimp : rd s K.ISB_STATE ≠ 3) (hslow : hubSlow s = true) : tickSpan s = 2621440 := by
  rw [tickSpan, if_neg hlimp, hslow]
  rfl

theorem tickSpan_fine (hlimp : rd s K.ISB_STATE ≠ 3) (hfast : hubSlow s = false) : tickSpan s = 0xA000 := by
  rw [tickSpan, if_neg hlimp, hfast]
  rfl

/-- R27, R40, R41: a running count goes on to the next whole multiple of its step, and the running times with it. -/
theorem exec_isobarFineTick_runs {span : Nat} {n : Instant} (hrun : 1 ≤ s.boot.step) (hspan : tickSpan s = span)
    (hn : n = (s.isb.now / span + 1) * span) :
    exec .isobarFineTick s = .next { s with
      isb.now := n, isb.elapsed := s.isb.elapsed + (n - s.isb.now), fld.elapsed := s.fld.elapsed + (n - s.isb.now) } := by
  have hnext : nextTick s = n := by rw [nextTick, hspan, hn]
  have hruns : isbRuns s = true := decide_eq_true hrun
  rw [exec_isobarFineTick, execIsobarFineTick, if_pos hruns, hnext]

theorem exec_isobarFineTick_stands (hstep : s.boot.step = 0) :
    exec .isobarFineTick s = .next { s with
      fld.followerOffset := s.fld.followerOffset + 0xA000, fld.elapsed := s.fld.elapsed + 0xA000 } := by
  have hstands : ¬ isbRuns s = true := by simp [isbRuns, hstep]
  rw [exec_isobarFineTick, execIsobarFineTick, if_neg hstands]
  rfl

theorem exec_slewEnd_under_ns (hslew : s.isb.slew = true) (hleft : (slewLeft s).natAbs < 65536) :
    exec .slewEnd s = .next (stopSlew s) := by
  rw [exec_slewEnd, execSlewEnd, if_pos ⟨hslew, hleft⟩]

end Count

/-- Settles O13: from a boundary the next multiple of A000h is A000h further. -/
theorem isobarCounts : Obligations.IsobarCounts := by
  unfold Obligations.IsobarCounts
  refine ⟨?tick, ?boundary, ?second⟩
  case tick =>
    intro s n hrun hlimp hcalm hfrost hwaking hn
    exact exec_isobarFineTick_runs hrun (tickSpan_fine hlimp (hubSlow_of_awake hcalm hfrost hwaking)) hn
  case boundary =>
    intro s t hrun hlimp hcalm hfrost hwaking hat hexec
    rw [exec_isobarFineTick_runs hrun (tickSpan_fine hlimp (hubSlow_of_awake hcalm hfrost hwaking)) rfl] at hexec
    cases hexec
    have hfurther : (s.isb.now / 0xA000 + 1) * 0xA000 = s.isb.now + 0xA000 := by
      rw [Nat.add_mul, Nat.div_mul_cancel (Nat.dvd_of_mod_eq_zero hat), Nat.one_mul]
    exact ⟨hfurther, Nat.mul_mod_left ..⟩
  case second =>
    intro n
    exact Nat.mod_eq_zero_of_dvd (Dvd.dvd.mul_left (by decide) n)

/-- Settles O14: the step of each clock is `tickSpan`; a stopped slew has nothing left. -/
theorem isobarOtherClocks : Obligations.IsobarOtherClocks := by
  unfold Obligations.IsobarOtherClocks
  refine ⟨?limp, ?sleep, ?before, ?reading, ?slew⟩
  case limp => exact fun s n hrun hlimp hn => exec_isobarFineTick_runs hrun (tickSpan_limp hlimp) hn
  case sleep =>
    exact fun s n hrun hlimp hsleep hn =>
      exec_isobarFineTick_runs hrun (tickSpan_slow hlimp (hubSlow_of_sleep hsleep)) hn
  case before => exact fun s hstep => exec_isobarFineTick_stands hstep
  case reading => exact fun fn s => rfl
  case slew => exact fun s hslew hleft => ⟨_, exec_slewEnd_under_ns hslew hleft, rfl, rfl⟩

end Sys2Proof.Machine

/-! # Reference sources, and the PPS and 10 MHz inputs (O15) -/
namespace Sys2Proof.Machine

section Sources

variable {s : State} {src : Fin 4}

theorem exec_sourceQualify_clean (off : Int) (hst : rd s (K.SRC_STATUS src.val) = 1 ∨ rd s (K.SRC_STATUS src.val) = 3)
    (hruns : (sourceOf s src.val).stopped = false)
    (hpresent : src.val ≠ 2 ∨ (rd s K.REF10M_EN = 1 ∧ rd s K.PPS_IN_EN = 1))
    (hclean : (sourceOf s src.val).cleanSince + rd s K.REQUAL_TIME * s1 ≤ clk s) :
    exec (.sourceQualify src off) s = .next (selectSource (wr (K.SRC_STATUS src.val) 2
      (sourceUpd src.val (fun x => { x with offset := some off }) s))) := by
  have hthere : (src.val != srcExt || (rd s K.REF10M_EN == 1 && rd s K.PPS_IN_EN == 1)) = true := by
    simpa using hpresent
  rw [exec_sourceQualify, execSourceQualify, if_pos ⟨hst, hruns, hthere, hclean⟩]

theorem exec_sourceStopTimeout_met (hst : rd s (K.SRC_STATUS src.val) ≠ 0) (hmet : stopMet s src.val = true) :
    exec (.sourceStopTimeout src) s
      = .next (disqualify src.val 1 (if src.val = 2 then { s with isb.ppsEdges := [], isb.ppsSecond := none } else s)) := by
  rw [exec_sourceStopTimeout, execSourceStopTimeout, if_pos ⟨hst, hmet⟩]

end Sources

section Inputs

variable {s : State}

theorem ppsGlitch_apart (hapart : ∀ t ∈ s.isb.ppsEdges.head?, t + 999 * ms1 ≤ clk s) : ppsGlitch s = false := by
  unfold ppsGlitch
  split
  case h_1 t hhead => exact decide_eq_false (Nat.not_lt.mpr (hapart t hhead))
  case h_2 => rfl

theorem ppsGlitch_close {t : Nat} {l : List Nat} (hedges : s.isb.ppsEdges = t :: l) (hclose : clk s < t + 999 * ms1) :
    ppsGlitch s = true := by
  simp [ppsGlitch, hedges, hclose]

/-- An edge of the sense PPS_IN_EDGE selects, at an enabled input, is a glitch or a timing edge. -/
theorem exec_ppsInEdge_sensed (hen : rd s K.PPS_IN_EN ≠ 0) :
    exec (.ppsInEdge (rd s K.PPS_IN_EDGE == 0)) s
      = .next (if ppsGlitch s then disqualify 2 2 { s with isb.ppsSeen := some (clk s) }
          else ppsTiming { s with isb.ppsSeen := some (clk s) }) := by
  have hsensed : ¬ (rd s K.PPS_IN_EN = 0 ∨ (rd s K.PPS_IN_EDGE == 0) ≠ (rd s K.PPS_IN_EDGE == 0)) := by simp [hen]
  rw [exec_ppsInEdge, execPpsInEdge, if_neg hsensed]

theorem exec_ppsInEdge_unheard {rising : Bool}
    (hunheard : rd s K.PPS_IN_EN = 0 ∨ rising ≠ (rd s K.PPS_IN_EDGE == 0)) :
    exec (.ppsInEdge rising) s = .next s := by
  rw [exec_ppsInEdge, execPpsInEdge, if_pos hunheard]

/-- R34: an edge that meets no condition becomes the newest reference edge and disciplines EXT. -/
theorem ppsTiming_clean {u : State} (hclean : ppsReason (clk s) s.isb.ppsEdges = none)
    (hu : u = { upd (rd s K.REF10M_EN == 1) (sourceSeen 2) { s with isb.todNext := none } with
      isb.ppsEdges := (clk s :: s.isb.ppsEdges).take 3
      isb.ppsSecond := (match s.isb.todNext with
        | some n => some n
        | none => s.isb.ppsSecond.map (· + ppsGap s * 1000000000)) }) :
    ppsTiming s = discipline 2 (ppsOffset u) u := by
  simp only [ppsTiming, hclean, hu] <;> rfl

/-- With PPS_IN off a 10 MHz edge does not make EXT seen. -/
theorem sourceSeen_needs_pps (hpps : rd s K.PPS_IN_EN ≠ 1) : upd (rd s K.PPS_IN_EN == 1) (sourceSeen 2) s = s := by
  simp [upd, hpps]

theorem exec_ref10mInEdge_first (hen : rd s K.REF10M_EN ≠ 0) (hpps : rd s K.PPS_IN_EN ≠ 1) (hfirst : s.isb.refLast = none) :
    exec .ref10mInEdge s = .next { s with isb.refLast := some (clk s) } := by
  simp only [exec_ref10mInEdge, execRef10mInEdge, if_neg hen, sourceSeen_needs_pps hpps, hfirst]

theorem exec_ref10mInEdge_good {t : Nat} (hen : rd s K.REF10M_EN ≠ 0) (hpps : rd s K.PPS_IN_EN ≠ 1)
    (hlast : s.isb.refLast = some t) (hlo : 90 * ns1 ≤ clk s - t) (hhi : clk s - t ≤ 110 * ns1)
    (hsum : s.isb.refSum + (clk s - t) < ms1) :
    exec .ref10mInEdge s = .next { s with
      isb.refLast := some (clk s), isb.refSum := s.isb.refSum + (clk s - t), isb.refCount := s.isb.refCount + 1 } := by
  have hgood : ¬ (clk s - t < 90 * ns1 ∨ 110 * ns1 < clk s - t) :=
    not_or.mpr ⟨Nat.not_lt.mpr hlo, Nat.not_lt.mpr hhi⟩
  simp only [exec_ref10mInEdge, execRef10mInEdge, if_neg hen, sourceSeen_needs_pps hpps, hlast, if_neg hgood, if_pos hsum]

end Inputs

/-- Settles O15: sources by their checks, PPS edges by sense and spacing, 10 MHz edges by their interval. -/
theorem isobarSources : Obligations.IsobarSources := by
  unfold Obligations.IsobarSources
  refine ⟨?qualify, ?stop, ?edge, ?timing, ?glitch, ?unheard, ?first, ?good⟩
  case qualify => exact fun src off s hst hruns hpresent hclean => exec_sourceQualify_clean off hst hruns hpresent hclean
  case stop => exact fun src s hst hmet => exec_sourceStopTimeout_met hst hmet
  case edge =>
    intro s hen hapart
    rw [exec_ppsInEdge_sensed hen, ppsGlitch_apart hapart]
    rfl
  case timing => exact fun s u hclean hu => ppsTiming_clean hclean hu
  case glitch =>
    intro s t l hen hedges hclose
    rw [exec_ppsInEdge_sensed hen, if_pos (ppsGlitch_close hedges hclose)]
  case unheard => exact fun s rising hunheard => exec_ppsInEdge_unheard hunheard
  case first => exact fun s hen hpps hfirst => exec_ref10mInEdge_first hen hpps hfirst
  case good => exact fun s t hen hpps hlast hlo hhi hsum => exec_ref10mInEdge_good hen hpps hlast hlo hhi hsum

end Sys2Proof.Machine

/-! # PTP messages and intervals, the barrier's round trip (O16) -/
namespace Sys2Proof.Machine

section Ptp

variable {s : State}

section Taken

variable {m : PtpMsg} (hport : m.port = rd s K.PTP_PORT) (hdomain : m.domain = rd s K.PTP_DOMAIN)
  (htransport : m.transport = rd s K.PTP_TRANSPORT)
include hport hdomain htransport

/-- A message of the port, domain and transport set is not ignored. -/
theorem ptpMessage_heard :
    ¬ (m.port ≠ rd s K.PTP_PORT ∨ m.domain ≠ rd s K.PTP_DOMAIN ∨ m.transport ≠ rd s K.PTP_TRANSPORT) := by
  simp [hport, hdomain, htransport]

theorem exec_ptpMessage_unsupported (hkind : m.kind = .other) :
    exec (.ptpMessage m) s = .next (wr K.PTP_DISCARDS (rd s K.PTP_DISCARDS + 1) s) := by
  simp only [exec_ptpMessage, execPtpMessage, ptpMessage, if_neg (ptpMessage_heard hport hdomain htransport), hkind]
  rfl

theorem exec_ptpMessage_delayReq (hkind : m.kind = .delayReq) (hmaster : s.isb.ptp.isMaster = true) :
    exec (.ptpMessage m) s = .next (ptpSend .delayResp (ptpStamp m.port s.isb.now) m.seqId m.sender s) := by
  simp only [exec_ptpMessage, execPtpMessage, ptpMessage, if_neg (ptpMessage_heard hport hdomain htransport), hkind,
    if_pos hmaster]

end Taken

/-- R275: what PTP sends is a packet of system queue 9. -/
theorem ptpSend_admits (k : PtpKind) (time seq who : Nat) (s : State) :
    ∃ x : Packet, x.content = .ptp k time seq who (ptpData s) ∧ x.arrival = s.isb.now
      ∧ ptpSend k time seq who s = (admitPacket (qSys 9) x s).2 :=
  ⟨_, rfl, rfl, rfl⟩

theorem exec_ptpSyncInterval_due (hmaster : ptpIsMaster s = true)
    (hdue : intervalOver s K.LOG_SYNC s.isb.ptp.syncAt = true) :
    exec .ptpSyncInterval s = .next (ptpSend .sync s.isb.now s.isb.ptp.txSeq 0 { s with
      isb.ptp.isMaster := true, isb.ptp.txSeq := (s.isb.ptp.txSeq + 1) % 65536, isb.ptp.syncAt := some (clk s) }) := by
  rw [exec_ptpSyncInterval, execPtpSyncInterval, hmaster, hdue]
  rfl

theorem exec_ptpAnnounceInterval_due (hmaster : ptpIsMaster s = true)
    (hdue : intervalOver s K.LOG_ANNOUNCE s.isb.ptp.annAt = true) :
    exec .ptpAnnounceInterval s = .next (ptpSend .announce s.isb.now s.isb.ptp.annSeq 0 { s with
      isb.ptp.isMaster := true, isb.ptp.annSeq := (s.isb.ptp.annSeq + 1) % 65536, isb.ptp.annAt := some (clk s) }) := by
  rw [exec_ptpAnnounceInterval, execPtpAnnounceInterval, hmaster, hdue]
  rfl

theorem exec_ptpDelayReqInterval_due (hslave : ptpIsMaster s = false) (hsync : s.isb.ptp.lastSync.isSome = true)
    (hdue : intervalOver s K.LOG_DELAY_REQ s.isb.ptp.reqAt = true) :
    exec .ptpDelayReqInterval s = .next (ptpSend .delayReq s.isb.now s.isb.ptp.reqSeq 0 { s with
      isb.ptp.delayReq := some (s.isb.ptp.reqSeq, s.isb.now)
      isb.ptp.reqSeq := (s.isb.ptp.reqSeq + 1) % 65536, isb.ptp.reqAt := some (clk s) }) := by
  have hheard : s.isb.ptp.lastSync.isNone = false := by simpa using hsync
  rw [exec_ptpDelayReqInterval, execPtpDelayReqInterval, hslave, hheard, hdue]
  rfl

theorem exec_barrierDelayMeasure_due (hup : lanokUp s = true) (hdue : s.isb.barrierAt + 10 * s1 ≤ clk s) :
    exec .barrierDelayMeasure s = .next { lanokSend true (.timeEcho s.isb.now 0) s with
      isb.echoSent := some s.isb.now, isb.barrierAt := clk s } := by
  rw [exec_barrierDelayMeasure, execBarrierDelayMeasure, if_pos hdue, barrierMeasure, if_pos hup]

end Ptp

/-- Settles O16: messages by their kind, intervals by role and time, the round trip by its period. -/
theorem ptpAndBarrier : Obligations.PtpAndBarrier := by
  unfold Obligations.PtpAndBarrier
  refine ⟨?unsupported, ?delayReq, ?packet, ?sync, ?announce, ?slave, ?followUp, ?barrier⟩
  case unsupported =>
    exact fun m s hport hdomain htransport hkind => exec_ptpMessage_unsupported hport hdomain htransport hkind
  case delayReq =>
    exact fun m s hport hdomain htransport hkind hmaster =>
      exec_ptpMessage_delayReq hport hdomain htransport hkind hmaster
  case packet => exact ptpSend_admits
  case sync => exact fun s hmaster hdue => exec_ptpSyncInterval_due hmaster hdue
  case announce => exact fun s hmaster hdue => exec_ptpAnnounceInterval_due hmaster hdue
  case slave => exact fun s hslave hsync hdue => exec_ptpDelayReqInterval_due hslave hsync hdue
  case followUp => exact fun seq at_ s => rfl
  case barrier => exact fun s hup hdue => exec_barrierDelayMeasure_due hup hdue

end Sys2Proof.Machine

/-! # PPS outputs and the ends of LX pulses (O17) -/
namespace Sys2Proof.Machine

section Outputs

variable {s : State}

theorem exec_ppsOutEdge_raises {n : Fin 2} {t : Instant} (hen : rd s (K.PPS_EN n.val) = 1)
    (hopen : rd s (K.PPS_GATING n.val) ≠ 1 ∨ (rd s K.ISB_STATE ≠ 0 ∧ rd s K.ISB_STATE ≠ 3))
    (ht : t = ppsInstant s n.val) (hcome : t ≤ s.isb.now) (hjust : s.isb.now < t + tickSpan s) :
    exec (.ppsOutEdge n) s = .next (emit (.pin (ppsName n.val) true) { s with
      isb.ppsLevel := tabSet 0 s.isb.ppsLevel n.val 1
      isb.ppsEnd := tabSet 0 s.isb.ppsEnd n.val (clk s + rd s (K.PPS_WIDTH n.val) * ns1 - (s.isb.now - t)) }) := by
  have hungated : (rd s (K.PPS_GATING n.val) == 1
      && (rd s K.ISB_STATE == isbFree || rd s K.ISB_STATE == isbLimp)) = false := by
    rcases hopen with hoff | ⟨hfree, hlimp⟩
    · rw [beq_false_of_ne hoff, Bool.false_and]
    · rw [beq_false_of_ne hfree, beq_false_of_ne hlimp, Bool.or_self, Bool.and_false]
  have hnow : justNow s (ppsInstant s n.val) = true := decide_eq_true (ht ▸ ⟨hcome, hjust⟩)
  subst ht
  rw [exec_ppsOutEdge, execPpsOutEdge, if_pos ⟨hen, hungated, hnow⟩]

/-- The instants of a PPS output are the whole nanoseconds congruent to its offset modulo its period (R59): the newest
lies behind the count by the remainder of their difference. -/
theorem ppsInstant_on_grid {n : Nat} (hperiod : 0 < rd s (K.PPS_PERIOD n)) (hlong : rd s (K.PPS_PERIOD n) ≤ nowNs s) :
    ppsInstant s n % ns1 = 0 ∧ ppsInstant s n ≤ s.isb.now
      ∧ (((ppsInstant s n / ns1 : Nat) : Int) - rdI 32 s (K.PPS_OFFSET n)) % (rd s (K.PPS_PERIOD n) : Int) = 0 := by
  have hpos : (0 : Int) < rd s (K.PPS_PERIOD n) := by exact_mod_cast hperiod
  obtain ⟨r, hr⟩ := Int.eq_ofNat_of_zero_le
    (Int.emod_nonneg ((nowNs s : Int) - rdI 32 s (K.PPS_OFFSET n)) hpos.ne')
  have hlt : (r : Int) < rd s (K.PPS_PERIOD n) := hr ▸ Int.emod_lt_of_pos _ hpos
  have hbehind : r ≤ nowNs s := by omega
  have hinstant : ppsInstant s n = (nowNs s - r) * ns1 := by rw [ppsInstant, hr, Int.toNat_natCast]
  have hquot : (nowNs s - r) * ns1 / ns1 = nowNs s - r := Nat.mul_div_cancel _ (by decide)
  refine ⟨?whole, ?past, ?grid⟩
  case whole => rw [hinstant, Nat.mul_mod_left]
  case past =>
    calc ppsInstant s n = (nowNs s - r) * ns1 := hinstant
      _ ≤ nowNs s * ns1 := Nat.mul_le_mul_right _ (Nat.sub_le ..)
      _ ≤ s.isb.now := Nat.div_mul_le_self ..
  case grid =>
    have hdiff : ((nowNs s - r : Nat) : Int) - rdI 32 s (K.PPS_OFFSET n)
        = ((nowNs s : Int) - rdI 32 s (K.PPS_OFFSET n))
          - ((nowNs s : Int) - rdI 32 s (K.PPS_OFFSET n)) % (rd s (K.PPS_PERIOD n) : Int) := by
      rw [hr]
      push_cast [hbehind]
      ring
    rw [hinstant, hquot, hdiff, Int.sub_emod_emod, Int.sub_self, Int.zero_emod]

theorem exec_ppsOutPulseEnd_lowers {n : Fin 2} (hpulse : tabGet 0 s.isb.ppsEnd n.val ≠ 0)
    (hcome : tabGet 0 s.isb.ppsEnd n.val ≤ clk s) :
    exec (.ppsOutPulseEnd n) s = .next (emit (.pin (ppsName n.val) false) { s with
      isb.ppsLevel := tabSet 0 s.isb.ppsLevel n.val 0, isb.ppsEnd := tabSet 0 s.isb.ppsEnd n.val 0 }) := by
  rw [exec_ppsOutPulseEnd, execPpsOutPulseEnd, if_pos ⟨hpulse, hcome⟩]

theorem exec_lxPulseEnd_idles {n : Fin 4} {e : Instant} (hend : e ∈ tabGet [] s.isb.lxEnd n.val) (hcome : e ≤ clk s)
    (hen : rd s (K.LX_EN n.val) = 1) :
    exec (.lxPulseEnd n) s = .next (lxDrive n.val (rd s (K.LX_IDLE n.val)) { s with
      isb.lxEnd := tabSet [] s.isb.lxEnd n.val ((tabGet [] s.isb.lxEnd n.val).filter (fun x => decide (clk s < x))) }) := by
  have hsome : (tabGet [] s.isb.lxEnd n.val).any (fun e => decide (e ≤ clk s)) = true :=
    List.any_eq_true.mpr ⟨e, hend, decide_eq_true hcome⟩
  rw [exec_lxPulseEnd, execLxPulseEnd, if_pos ⟨hsome, hen⟩]

end Outputs

/-- Settles O17: each edge by its conditions; the grid of a PPS output by the remainder `ppsInstant` takes off. -/
theorem ppsAndLxOutputs : Obligations.PpsAndLxOutputs := by
  unfold Obligations.PpsAndLxOutputs
  refine ⟨?raise, ?grid, ?lower, ?idle⟩
  case raise => exact fun n s t hen hopen ht hcome hjust => exec_ppsOutEdge_raises hen hopen ht hcome hjust
  case grid => exact fun n s hperiod hlong => ppsInstant_on_grid hperiod hlong
  case lower => exact fun n s hpulse hcome => exec_ppsOutPulseEnd_lowers hpulse hcome
  case idle => exact fun n s e hend hcome hen => exec_lxPulseEnd_idles hend hcome hen

end Sys2Proof.Machine

/-! # The launch window, commit points and wake leads (O18) -/
namespace Sys2Proof.Machine

section Window

variable {n : Nat} {s : State}

/-- R47: an arm whose checks and claims pass and whose entry the journal takes leaves what the journal wrote. -/
theorem windowArm_written {word a : Nat} {r : LaunchRec} {u t : State} (hfree : slotTaken s n = false)
    (hrun : replaying s = false) (hopen : s.pair.holding = false)
    (hr : recOf (patch (launchOctets (launchOf s n)) 8 (leBytes 4 word)) = r)
    (hcheck : launchCheck n r (launchUpd n (fun l => { l with writes := l.writes + 1 }) (setRecord n r s)) = .ok u)
    (hjournal : jrnlWrite 4 3 0 0xFFFF 0 32 (workKey u (.launchArm n r)) (.launchArm n r) u = (.written a, t)) :
    windowArm n word s = t := by
  have hpresents : ∀ v : State, v.regs = s.regs → v.pair = s.pair → (replaying v || v.pair.holding) = false := by
    intro v hregs hpair
    simp only [replaying, rd_congr hregs, hpair]
    exact Bool.or_eq_false_iff.mpr ⟨hrun, hopen⟩
  simp only [windowArm, hfree, hr, hpresents (launchUpd n _ (setRecord n r s)) rfl rfl, hcheck, hjournal,
    Bool.false_eq_true, if_false]

/-- R46: an aligned write of 4 octets elsewhere than the arming word patches the record. -/
theorem windowWrite_patches {o : Nat} {b : Bytes} (hlen : b.length = 4) (haligned : o % 4 = 0) (hother : o ≠ 8) :
    windowWrite n o b s = windowPatch n o b s := by
  have hgood : ¬ ((b.length ≠ 4 ∧ b.length ≠ 8) ∨ o % b.length ≠ 0) := by simp [hlen, haligned]
  rw [windowWrite, if_neg hgood, if_neg hother]

theorem windowPatch_free (o : Nat) (b : Bytes) (hfree : slotTaken s n = false) :
    windowPatch n o b s = setRecord n (recOf (patch (launchOctets (launchOf s n)) o b)) s := by
  rw [windowPatch, hfree]
  rfl

theorem windowPatch_taken (o : Nat) (b : Bytes) (htaken : slotTaken s n = true) :
    windowPatch n o b s = windowRefused s := by
  rw [windowPatch, if_pos htaken]

theorem windowCancel_armed (harmed : (launchOf s n).state = lsArmed) :
    windowCancel n s = presentWork 3 0 (.launchCancel n) (launchUpd n (fun l => { l with writes := l.writes + 1 }) s) :=
  if_pos harmed

/-- R53: at its commit lead a launch without a table to check is COMMITTED. -/
theorem exec_launchCommit_lead (harmed : (launchOf s n).state = lsArmed) (htable : (launchOf s n).typ ≠ ltLayerSwap)
    (hlead : (launchOf s n).time * ns1 ≤ s.isb.now + commitLead (launchOf s n).typ) :
    exec (.launchCommit n) s = .next (launchUpd n (fun l => { l with state := lsCommitted }) s) := by
  simp only [exec_launchCommit, execLaunchCommit, if_pos (And.intro harmed hlead), if_neg htable]

/-- R55: at an awake hub a domain in LULL is woken 100 ns before the launch's instant. -/
theorem exec_launchWakeLead_lull (hactive : (launchOf s n).active = true) (hcalm : hubPower s ≠ hpCalm)
    (hfrost : hubPower s ≠ hpFrost) (hstops : launchDomain (launchOf s n).typ ≠ 0)
    (hhub : launchDomain (launchOf s n).typ ≠ 19) (hlull : pdState s (launchDomain (launchOf s n).typ) = pdLull)
    (hlead : (launchOf s n).instant ≤ s.isb.now + 100 * ns1) :
    exec (.launchWakeLead n) s = .next (leaveLull (launchDomain (launchOf s n).typ) s) := by
  have hinactive : ¬ (!(launchOf s n).active) = true := by simp [hactive]
  have hwoken : ¬ (launchDomain (launchOf s n).typ = 0 ∨ launchDomain (launchOf s n).typ = 19) := by simp [hstops, hhub]
  rw [exec_launchWakeLead, execLaunchWakeLead, if_neg hinactive, if_neg hcalm, if_neg hfrost, if_neg hwoken,
    if_pos ⟨hlull, decide_eq_true hlead⟩]

end Window

/-- Settles O18: window writes by where they fall and whether the slot is taken, commits and wakes by their leads. -/
theorem launchesAreArmedAndCommitted : Obligations.LaunchesAreArmedAndCommitted := by
  unfold Obligations.LaunchesAreArmedAndCommitted
  refine ⟨?arm, ?patch, ?refused, ?cancel, ?commit, ?wake⟩
  case arm =>
    intro n word s u t a harm hfree hrun hopen hcheck hjournal
    rw [exec_launchArm, execLaunchArm, windowWord, if_pos harm, windowArm_written hfree hrun hopen rfl hcheck hjournal]
  case patch =>
    intro n off b s hlen haligned hother hfree
    rw [exec_launchWindowWrite, execLaunchWindowWrite, windowWrite_patches hlen haligned hother, windowPatch_free _ _ hfree]
  case refused =>
    intro n off b s hlen haligned hother htaken
    rw [exec_launchWindowWrite, execLaunchWindowWrite, windowWrite_patches hlen haligned hother,
      windowPatch_taken _ _ htaken]
    rfl
  case cancel =>
    intro n tag s harmed
    rw [exec_launchCancel, execLaunchCancel, windowCancel_armed harmed]
  case commit => exact fun num s harmed htable hlead => exec_launchCommit_lead harmed htable hlead
  case wake =>
    intro num d s hactive hcalm hfrost hd hstops hhub hlull hlead
    subst hd
    exact exec_launchWakeLead_lull hactive hcalm hfrost hstops hhub hlull hlead

end Sys2Proof.Machine

/-! # Launches at the hub's own targets (O19) -/
namespace Sys2Proof.Machine

section Fire

variable {n typ : Nat} {l : Launch} {s u : State} {ok : Launch → Bool} {f : Nat → Launch → State → Except Status State}

/-- R50: a due launch whose target is there and runs takes its effect and records it. -/
theorem fireHub_applies (hdue : dueLaunch s typ ok = some (n, l)) (hthere : hubTargetGone s l = false)
    (hruns : domainRuns s (launchDomain typ) = true) (heffect : f n l s = .ok u) :
    fireHub typ ok f s = launchDone n (isLate u l) u := by
  simp only [fireHub, hdue, hthere, hruns, heffect, Bool.not_true, Bool.false_eq_true, if_false]

/-- R55: a due launch whose target is gone records FAILED. -/
theorem fireHub_gone (hdue : dueLaunch s typ ok = some (n, l)) (hgone : hubTargetGone s l = true) :
    fireHub typ ok f s = launchFailed n .retired s := by
  simp only [fireHub, hdue, hgone, if_true]

/-- R57: a one-shot LX_EDGE of action 0 sets its pin. -/
theorem exec_lxEdge_sets (hdue : dueLaunch s ltLxEdge (fun _ => true) = some (n, l)) (hone : l.period = 0)
    (hset : l.arg % 4 = 0) :
    exec .lxEdge s = .next (launchDone n (isLate s l) (lxDrive l.target 1
      { s with isb.lxActed := tabSet 0 s.isb.lxActed l.target 1 })) := by
  simp only [exec_lxEdge, execLxEdge, hdue, if_pos hone, lxAction, if_pos hset]

/-- Whether a launch is late depends on the registers and the timebase alone. -/
theorem isLate_congr (hregs : u.regs = s.regs) (hisb : u.isb = s.isb) (l : Launch) : isLate u l = isLate s l := by
  have hrd : rd u = rd s := funext (rd_congr hregs)
  unfold isLate effectAt grainBoundary tickSpan hubSlow hubAsleep
  rw [hrd, hisb]

/-- R280: a due takeover finds its change time and is PENDING. The command is unfolded as a function: applied to `s` it
is a match on the search for the due launch, which the kernel would evaluate to compare. -/
theorem exec_gateTakeover_pends {c : Nat}
    (hdue : dueLaunch s ltGateTakeover (fun l => (txPort s l.target).takeover.isNone) = some (n, l))
    (hthere : hubTargetGone s l = false) (hruns : domainRuns s 10 = true) (hc : c = changeTime s l.target (nowNs s)) :
    exec .gateTakeover s = .next (wr (K.CHANGE_TIME l.target) c (wr (K.GATE_STATE l.target) 2
      (launchUpd n (fun x => { x with state := lsCommitted, late := isLate s x })
        (txPortUpd l.target (fun x => { x with takeover := some { slot := n, tl := nowNs s, c := c } }) s)))) := by
  subst hc
  have hlate : ∀ f x, isLate (txPortUpd l.target f s) x = isLate s x := fun f => isLate_congr rfl rfl
  rw [exec_gateTakeover]
  conv => lhs; fun; delta execGateTakeover
  simp only [hdue, hthere, hruns, Bool.not_true, Bool.false_eq_true, if_false, hlate]

end Fire

/-- Settles O19: crosspoint, equaliser, switch and group launches by `fireHub`, LX edges and takeovers by their own steps. -/
theorem hubLaunchesFire : Obligations.HubLaunchesFire := by
  unfold Obligations.HubLaunchesFire
  refine ⟨?crosspoint, ?equaliser, ?sources, ?group, ?gone, ?edge, ?takeover⟩
  case crosspoint =>
    intro n l s hdue hthere hruns
    rw [exec_xpSwap, execXpSwap, fireHub_applies hdue hthere hruns rfl]
  case equaliser =>
    intro n l s hdue hthere hruns
    rw [exec_eqSwap, execEqSwap, fireHub_applies hdue hthere hruns rfl]
  case sources =>
    intro n l s u hdue hthere hruns hu
    rw [exec_srcSwitch, execSrcSwitch, fireHub_applies hdue hthere hruns rfl, hu]
    rfl
  case group =>
    intro n l s u hdue hthere hruns hu
    rw [exec_sapGroup, execSapGroup, fireHub_applies hdue hthere hruns rfl, hu]
  case gone =>
    intro n l s hdue hgone
    rw [exec_xpSwap, execXpSwap, fireHub_gone hdue hgone]
  case edge => exact fun n l s hdue hone hset => exec_lxEdge_sets hdue hone hset
  case takeover => exact fun n l s c hdue hthere hruns hc => exec_gateTakeover_pends hdue hthere hruns hc

end Sys2Proof.Machine

/-! # Launches at the field die and its nodes, vote sessions (O20) -/
namespace Sys2Proof.Machine

section Nodes

variable {s u : State}

/-- The rows of node actions run the action of their number; OFF and SLOT_RELEASE then fill the places they free. -/
theorem exec_nodeAction_row {a node : Nat} {c : Instr} (s : State)
    (hrow : (a, c) ∈ [(0, .nodeActionOff node), (1, .nodeActionOn node), (2, .nodeActionLed node), (3, .slotAssign node),
      (4, .slotRelease node), (5, .selectChannel node), (6, .nodeActionGain node)]) :
    exec c s = .next ((if a = 0 ∨ a = 4 then hdFreed else id) (emptyActions a (runNodeAction a node s))) := by
  simp only [List.mem_cons, Prod.mk.injEq, List.not_mem_nil, or_false] at hrow
  rcases hrow with ⟨rfl, rfl⟩ | ⟨rfl, rfl⟩ | ⟨rfl, rfl⟩ | ⟨rfl, rfl⟩ | ⟨rfl, rfl⟩ | ⟨rfl, rfl⟩ | ⟨rfl, rfl⟩
  · rw [exec_nodeActionOff, execNodeActionOff, if_pos (Or.inl rfl)]
  · rw [exec_nodeActionOn, execNodeActionOn, if_neg (by decide), id_eq]
  · rw [exec_nodeActionLed, execNodeActionLed, if_neg (by decide), id_eq]
  · rw [exec_slotAssign, execSlotAssign, if_neg (by decide), id_eq]
  · rw [exec_slotRelease, execSlotRelease, if_pos (Or.inr rfl)]
  · rw [exec_selectChannel, execSelectChannel, if_neg (by decide), id_eq]
  · rw [exec_nodeActionGain, execNodeActionGain, if_neg (by decide), id_eq]

/-- R94: a served node runs the launch of the action it holds that applies first. -/
theorem runNodeAction_runs {a node num : Nat} {h : HeldLaunch}
    (hdue : dueHeld s ltNodeAction (nodeNow s node) (fun m h => naAction h.lr.arg == a && h.waiting.contains node
      && ((nodeOf s node).launches.contains m || !nodeServed s node)) = some (num, h))
    (hserved : nodeServed s node = true)
    (hact : nodeAction node h.lr.arg (if num < 0x400 then ownSlot num else launchOwner num (launchOf s num)) s = .ok u) :
    runNodeAction a node s = nodeRan num node (heldLate s (nodeNow s node) h) u := by
  rw [runNodeAction, hdue]
  simp only [hserved, hact, if_true]

end Nodes

section FieldDie

variable {s u : State} {num : Nat}

/-- A map swap leaves a retired trunk as it is. -/
theorem swapTrunks_eq (num : Nat) (h : HeldLaunch) (s : State) :
    swapTrunks num h s = setHeld num none (h.trunks.foldl (fun s t =>
      report num t (if heldLate s (fieldNow s) h then lsLate else lsFired) 0 0
        (if isRetired s cTrunk t then s else mapSwap (h.lr.arg % 2) t s)) s) := by
  have hspared : ∀ (z : State) (t : Nat), upd (!isRetired z cTrunk t) (mapSwap (h.lr.arg % 2) t) z
      = if isRetired z cTrunk t then z else mapSwap (h.lr.arg % 2) t z := by
    intro z t
    cases hretired : isRetired z cTrunk t <;> simp [upd]
  simp only [swapTrunks, hspared]

theorem fireEmpty_none {typ : Nat} {ok : Launch → Bool}
    (hnone : dueLaunch s typ (fun l => l.unreported.isEmpty && l.target == 0xFFFF && ok l) = none) :
    fireEmpty typ ok s = s := by
  rw [fireEmpty, hnone]

/-- R55: a due map swap whose trunks are all there takes effect on each. It is unfolded as a function, as the takeover of
`exec_gateTakeover_pends` is. -/
theorem exec_fieldMapSwap_swaps {h : HeldLaunch}
    (hhub : dueLaunch s ltFieldMapSwap (fun l => l.unreported.isEmpty && l.target == 0xFFFF && true) = none)
    (hdue : dueHeld s ltFieldMapSwap (fieldNow s) (fun _ _ => true) = some (num, h))
    (hthere : ∀ t ∈ h.trunks, isRetired s cTrunk t = false ∧ rd s (K.TRUNK_STATE t) ≠ 0) :
    exec .fieldMapSwap s = .next (swapTrunks num h s) := by
  have hempty : fireEmpty ltFieldMapSwap (fun _ => true) s = s := fireEmpty_none hhub
  have hnone : h.trunks.find? (fun t => isRetired s cTrunk t || rd s (K.TRUNK_STATE t) == tsAbsent) = none := by
    refine List.find?_eq_none.mpr (fun t ht => ?_)
    obtain ⟨hserving, hpresent⟩ := hthere t ht
    rw [hserving, Bool.false_or, beq_false_of_ne hpresent]
    decide
  rw [exec_fieldMapSwap]
  conv => lhs; fun; delta execFieldMapSwap
  simp only [hempty, hdue, hnone]

theorem exec_launchCmd_holds {hd : LHdr} (r : LaunchRec) (hrecv : lanokRecv false true hd s = (true, u)) :
    exec (.launchCmd hd num (some r)) s = .next (holdLaunch num r u) :=
  (exec_launchCmd ..).trans (onLanok_received _ hrecv)

theorem exec_launchCmd_cancels {hd : LHdr} (hrecv : lanokRecv false true hd s = (true, u)) :
    exec (.launchCmd hd num none) s = .next (cancelHeld num u) :=
  (exec_launchCmd ..).trans (onLanok_received _ hrecv)

theorem exec_launchReport_received {hd : LHdr} (k st late reason : Nat) (hrecv : lanokRecv true true hd s = (true, u))
    (hrelay : relaying u = false) (hrole : rd u K.ROLE ≠ 2) :
    exec (.launchReport hd num k st late reason) s = .next (hubReport num k st late reason u) := by
  rw [exec_launchReport, execLaunchReport, onLanok_received _ hrecv, hubGets_serving hrelay hrole]

end FieldDie

section Votes

variable {s u : State} {num : Nat} {r : LaunchRec}

/-- R96: with every other session idle or sealed, a due VOTE_OPEN opens its session. It and VOTE_CLOSE are unfolded as
functions, as the takeover of `exec_gateTakeover_pends` is. -/
theorem exec_voteOpen_opens (hrole : rd s K.ROLE ≠ 3) (hdue : dueVote s ltVoteOpen = some (num, r))
    (hothers : ∀ v ∈ List.range 16, v ≠ r.target → rd s (K.VOTE_STATE v) ≠ 1 ∧ rd s (K.VOTE_STATE v) ≠ 2)
    (hhub : voteAtHub num none (openSession r.target r.arg) s = (true, u)) :
    exec .voteOpen s = .next (runAtNodes num (nodeOpens r.target r.arg) u) := by
  have hfree : (List.range 16).any (fun v => v != r.target
      && (rd s (K.VOTE_STATE v) == vsOpen || rd s (K.VOTE_STATE v) == vsClosed)) = false := by
    refine List.any_eq_false.mpr (fun v hv hbusy => ?_)
    obtain ⟨hother, hstate⟩ := Bool.and_eq_true_iff.mp hbusy
    obtain ⟨hopen, hclosed⟩ := hothers v hv (bne_iff_ne.mp hother)
    rw [beq_false_of_ne hopen, beq_false_of_ne hclosed] at hstate
    exact absurd hstate (by decide)
  have hserves : ¬ roleOf s = roleIsland := hrole
  rw [exec_voteOpen]
  conv => lhs; fun; delta execVoteOpen
  simp only [if_neg hserves, hdue, hfree, Bool.false_eq_true, if_false, hhub]

theorem exec_voteClose_closes (hrole : rd s K.ROLE ≠ 3) (hdue : dueVote s ltVoteClose = some (num, r))
    (hopen : rd s (K.VOTE_STATE r.target) = 1)
    (hhub : voteAtHub num none (fun z => wr (K.VOTE_STATE r.target) 2
      (voteUpd r.target (fun v => { v with closeAt := z.isb.now }) z)) s = (true, u)) :
    exec .voteClose s = .next (runAtNodes num (fun n s => nodeUpd n (fun x =>
      { x with vote := x.vote.filter (fun v => v.session != r.target) }) s) u) := by
  have hshut : (rd s (K.VOTE_STATE r.target) != vsOpen) = false := bne_eq_false_iff_eq.mpr hopen
  have hserves : ¬ roleOf s = roleIsland := hrole
  rw [exec_voteClose]
  conv => lhs; fun; delta execVoteClose
  simp only [if_neg hserves, hdue, hshut, Bool.false_eq_true, if_false, hhub]

/-- Durable work that neither replay nor the pair holds back is written to the journal. -/
theorem presentWork_written {source octets a : Nat} {w : Durable} (hrun : replaying s = false)
    (hopen : s.pair.holding = false)
    (hjournal : jrnlWrite (classOf w) source 0 0xFFFF 0 octets (workKey s w) w s = (.written a, u)) :
    presentWork source octets w s = u := by
  simp only [presentWork, hrun, hopen, hjournal, Bool.or_self, Bool.false_eq_true, if_false]

/-- R96: 10 ms after its close a session presents its seal. -/
theorem exec_voteSeal_due {v : Fin 16} (hclosed : rd s (K.VOTE_STATE v.val) = 2)
    (hdue : (voteOf s v.val).closeAt + 10 * ms1 ≤ s.isb.now) :
    exec (.voteSeal v) s = .next (presentWork 3 24 (.voteSeal v.val (voteOf s v.val).openAt) s) := by
  have hready : ¬ (rd s (K.VOTE_STATE v.val) ≠ vsClosed ∨ s.isb.now < (voteOf s v.val).closeAt + 10 * ms1) :=
    not_or.mpr ⟨not_not.mpr hclosed, Nat.not_lt.mpr hdue⟩
  rw [exec_voteSeal, execVoteSeal, if_neg hready]

end Votes

/-- Settles O20: node actions through their row, trunks and messages by their own steps, votes at the hub, then the nodes. -/
theorem fieldLaunchesRun : Obligations.FieldLaunchesRun := by
  unfold Obligations.FieldLaunchesRun
  refine ⟨?action, ?mapSwap, ?command, ?report, ?voteOpen, ?voteClose, ?voteSeal⟩
  case action =>
    intro a node num h s u c hrow hdue hserved hact
    rw [exec_nodeAction_row s hrow, runNodeAction_runs hdue hserved hact]
  case mapSwap =>
    intro num h s hhub hdue hthere
    rw [exec_fieldMapSwap_swaps hhub hdue hthere, swapTrunks_eq]
  case command =>
    intro hd num r s u hrecv
    exact ⟨exec_launchCmd_holds r hrecv, exec_launchCmd_cancels hrecv⟩
  case report =>
    exact fun hd num k st late reason s u hrecv hrelay hrole => exec_launchReport_received k st late reason hrecv hrelay hrole
  case voteOpen => exact fun num r s u hrole hdue hothers hhub => exec_voteOpen_opens hrole hdue hothers hhub
  case voteClose => exact fun num r s u hrole hdue hopen hhub => exec_voteClose_closes hrole hdue hopen hhub
  case voteSeal =>
    intro v s u n hclosed hdue hrun hopen hjournal
    rw [exec_voteSeal_due hclosed hdue, presentWork_written (w := .voteSeal v.val _) hrun hopen hjournal]

end Sys2Proof.Machine

/-! # Writes of the timebase and the field side (O26) -/
namespace Sys2Proof.Machine

section Records

variable {i : Inst} {tag n : Nat} {r : LaunchRec} {s : State}

/-- The 32 octets in which a record is written to key 1040:02. -/
def launchRecordOctets (r : LaunchRec) : Bytes :=
  launchOctets { time := r.time, frac := r.frac, typ := r.typ, flags := r.flags, target := r.target, arg := r.arg,
                 period := r.period }

/-- A record takes effect with its journal entry and is answered OK. -/
def launchRecordTakes (i : Inst) (tag n : Nat) (r : LaunchRec) (f : State → State) (s : State) : State :=
  respond i tag 2 0x1040 2 .ok [] (f (acceptNow i tag 0x1040 2 (launchRecordOctets r)
    (launchUpd n (fun l => { l with writes := l.writes + 1 }) (touch i s))))

section Unhindered

variable (h : unhindered i tag 0x1040 2 (launchRecordOctets r) s = true) (hgate : writeGate i 0x1040 2 32 (touch i s) = .ok)
  (hn : n = rd s K.SLOT_SELECT) (hfree : slotTaken (touch i s) n = false)
include h hgate hn hfree

/-- R47: for a slot that is not taken a record without ARM is stored, and one with ARM whose checks pass is armed. -/
theorem writeLaunchRecord_takes {f : State → State}
    (heffect : (bitOf r.flags 0 = false ∧ f = setRecord n r)
      ∨ (bitOf r.flags 0 = true ∧ (∃ u, launchCheck n r (touch i s) = .ok u) ∧ f = armAccepted n r)) :
    writeLaunchRecord i tag r (touch i s) = launchRecordTakes i tag n r f s := by
  obtain ⟨-, -, hserved, -, hnew, hnow⟩ := unhindered_parts h
  rw [launchRecordOctets] at hnew
  subst hn
  rcases heffect with ⟨harm, rfl⟩ | ⟨harm, ⟨u, hcheck⟩, rfl⟩
  · simp only [writeLaunchRecord, rd_touch, hserved, hgate, hfree, harm, hnew, hnow, Option.getD_none, ne_eq,
      not_true_eq_false, Bool.not_false, Bool.false_eq_true, if_true, if_false]
    rfl
  · simp only [writeLaunchRecord, rd_touch, hserved, hgate, hfree, harm, hcheck, hnew, hnow, Option.getD_none, ne_eq,
      not_true_eq_false, Bool.not_true, Bool.false_eq_true, if_false]
    rfl

end Unhindered

end Records

/-- Settles O26: each row reaches its write (`orClose_takes`), which takes effect when its own checks pass. -/
theorem clockAndTrunkKeysTakeEffect : Obligations.ClockAndTrunkKeysTakeEffect := by
  unfold Obligations.ClockAndTrunkKeysTakeEffect
  refine ⟨?isbStep, ?todSet, ?ppsEn, ?lxEn, ?cancel, ?enumerate, ?pwrClear, ?store, ?arm⟩
  case isbStep =>
    intro i tag ns s h hst
    rw [exec_isbStep, execIsbStep, orClose_takes h, writeIsbStep, hst, runCmdV_takes h (Or.inl rfl)]
  case todSet =>
    intro i tag ns s h hwhole
    rw [exec_todSet, execTodSet, orClose_takes h, writeTodSet, todStatus, if_pos hwhole, runCmdV_takes h (Or.inl rfl)]
  case ppsEn =>
    intro i tag n on s h hst
    rw [exec_ppsEn, execPpsEn, orClose_takes h, writePpsEn, hst, runWrite_takes (by decide) h]
  case lxEn =>
    intro i tag n on s h hst
    rw [exec_lxEn, execLxEn, orClose_takes h, writeLxEn, hst, runWrite_takes (by decide) h]
  case cancel =>
    intro i tag n s h hst
    simp only [exec_launchCancel, execLaunchCancel]
    rw [orClose_takes h, writeLaunchCancel, hst, worst_ok, runCmdV_takes h (Or.inl rfl)]
  case enumerate =>
    intro i tag k s h
    rw [exec_enumerate, execEnumerate, orClose_takes h, writeEnumerate, runCmd_takes h]
  case pwrClear =>
    intro i tag k p s h
    rw [exec_pwrClear, execPwrClear, orClose_takes h, writePwrClear, runCmd_takes h]
  case store =>
    intro i tag n r s h hgate hn hfree harm
    rw [exec_launchRecord, execLaunchRecord, orClose_takes h,
      writeLaunchRecord_takes h hgate hn hfree (.inl ⟨harm, rfl⟩)]
    rfl
  case arm =>
    intro i tag n r s u h hgate hn hfree harm hcheck
    rw [exec_launchRecord, execLaunchRecord, orClose_takes h,
      writeLaunchRecord_takes h hgate hn hfree (.inr ⟨harm, ⟨u, hcheck⟩, rfl⟩)]
    rfl

end Sys2Proof.Machine

/-! # The field die's starts and the power of its trunk ports (O21) -/
namespace Sys2Proof.Machine

section Ports

variable {k : Fin 8} {p : Fin 2} {c : Nat} {s : State}

/-- R98: 50 ms after the last port of the sequence the next is enabled, when its PWR_EN is 1. -/
theorem exec_powerSequenceStep_enables (hmore : s.fld.powerStep < 16) (hruns : fieldState s ≠ fsReset)
    (hdue : s.fld.powerStep = 0 ∨ s.fld.powerAt + 50 * ms1 ≤ fieldClk s)
    (hen : rdF s (K.PWR_EN (s.fld.powerStep / 2) (s.fld.powerStep % 2)) = 1) :
    exec .powerSequenceStep s = .next (portEnable (s.fld.powerStep / 2) (s.fld.powerStep % 2)
      { s with fld.powerStep := s.fld.powerStep + 1, fld.powerAt := fieldClk s }) := by
  have hwaits : ¬ (16 ≤ s.fld.powerStep ∨ fieldState s = fsReset
      ∨ (s.fld.powerStep ≠ 0 ∧ fieldClk s < s.fld.powerAt + 50 * ms1)) := by
    rintro (hlast | hreset | ⟨hlater, hearly⟩)
    · omega
    · exact hruns hreset
    · exact hdue.elim hlater (Nat.not_le.mpr hearly)
  rw [exec_powerSequenceStep, execPowerSequenceStep, if_neg hwaits]
  exact congrArg Host.Outcome.next (if_pos hen)

theorem exec_trunkPortEnable_enabled (hen : rdF s (K.PWR_EN k.val p.val) = 1) :
    exec (.trunkPortEnable k p) s = .next (portEnable k.val p.val s) := by
  rw [exec_trunkPortEnable, execTrunkPortEnable, if_pos hen]

/-- R98: a port within its limit when its soft start has run its time is ON, and its trunk starts. -/
theorem exec_softStartEnd_within (hsoft : rd s (K.PWR_STATE k.val p.val) = ppSoft)
    (hover : (portOf s k.val p.val).onAt + rdF s (K.PWR_SOFT k.val p.val) * ms1 ≤ fieldClk s)
    (hlimit : c ≤ rdF (wr (K.PWR_CURRENT k.val p.val) c s) (K.PWR_LIMIT k.val p.val)) :
    exec (.softStartEnd k p c) s
      = .next (trunkStart k.val (wr (K.PWR_STATE k.val p.val) ppOn (wr (K.PWR_CURRENT k.val p.val) c s))) := by
  have hramps : ¬ (rd s (K.PWR_STATE k.val p.val) ≠ ppSoft
      ∨ fieldClk s < (portOf s k.val p.val).onAt + rdF s (K.PWR_SOFT k.val p.val) * ms1) :=
    not_or.mpr ⟨not_not.mpr hsoft, Nat.not_lt.mpr hover⟩
  rw [exec_softStartEnd, execSoftStartEnd, if_neg hramps]
  exact congrArg Host.Outcome.next (if_pos hlimit)

/-- R98: the trips of the last 60 s with this one decide whether the port is TRIPPED or RETIRED. -/
theorem exec_overcurrentTrip_trips {l : List Nat} (htrip : tripMet s k.val p.val c = true)
    (hl : l = fieldClk s :: (portOf s k.val p.val).trips.filter (fun i => decide (fieldClk s < i + 60 * s1))) :
    exec (.overcurrentTrip k p c) s = .next (emit (.pin (gateName k.val p.val) false)
      (wr (K.PWR_STATE k.val p.val) (if 6 ≤ l.length then ppRetired else ppTripped)
        (bump (K.PWR_TRIPS k.val p.val) (wr (K.PWR_CURRENT k.val p.val) c
          (portUpd k.val p.val (fun x => { x with trips := l, onAt := fieldClk s }) s))))) := by
  have hmet : ¬ (!tripMet s k.val p.val c) = true := by simp [htrip]
  rw [exec_overcurrentTrip, execOvercurrentTrip, if_neg hmet, hl]

theorem exec_tripRetry_due (htripped : rd s (K.PWR_STATE k.val p.val) = ppTripped)
    (hdue : (portOf s k.val p.val).onAt + s1 ≤ fieldClk s) :
    exec (.tripRetry k p) s = .next (portEnable k.val p.val s) := by
  rw [exec_tripRetry, execTripRetry, if_pos ⟨htripped, hdue⟩]

end Ports

/-- R103: the field die leaves CALM for HUB where the hub's mix runs over a link that is up, else for DEFAULT. -/
theorem fieldWake_calm {s : State} (hcalm : fieldState s = fsCalm) :
    fieldWake s = setFieldState (if s.fld.hubMix && lanokUp s then fsHub else fsDefault) s :=
  if_pos hcalm

/-- Settles O21: the starts are `fieldClear` and what each sets after it, the port commands by the conditions that keep
them waiting. -/
theorem fieldDieStartsAndPowersTrunks : Obligations.FieldDieStartsAndPowersTrunks := by
  unfold Obligations.FieldDieStartsAndPowersTrunks
  refine ⟨?reset, ?supply, ?start, ?wake, ?sequence, ?enable, ?soft, ?trip, ?retry⟩
  case reset =>
    intro s
    rw [exec_fieldReset, execFieldReset]
  case supply =>
    intro s
    rw [exec_fieldSupplyLoss, execFieldSupplyLoss]
  case start =>
    intro s u hu
    rw [exec_fieldStart, execFieldStart, hu]
  case wake =>
    intro s hcalm
    rw [exec_fieldWake, execFieldWake, fieldWake_calm hcalm]
  case sequence => exact fun s hmore hruns hdue hen => exec_powerSequenceStep_enables hmore hruns hdue hen
  case enable => exact fun k p s hen => exec_trunkPortEnable_enabled hen
  case soft => exact fun k p c s hsoft hover hlimit => exec_softStartEnd_within hsoft hover hlimit
  case trip => exact fun k p c s l htrip hl => exec_overcurrentTrip_trips htrip hl
  case retry => exact fun k p s htripped hdue => exec_tripRetry_due htripped hdue

end Sys2Proof.Machine

/-! # Field frames, ring breaks, field GPIO and CAN frames (O24) -/
namespace Sys2Proof.Machine

section Boundaries

variable {noise : List SectErr} {skew : List (Nat × Int)} {s u : State}

theorem exec_fieldFrame_off_boundary (hoff : fieldNow s % framePeriod ≠ 0) :
    exec (.fieldFrame noise skew) s = .next s := by
  rw [exec_fieldFrame, execFieldFrame, if_pos (.inl hoff)]

section Field

variable (hat : fieldNow s % framePeriod = 0) (hruns : fieldState s ≠ fsReset)
  (hu : u = upd (s.fld.hubSeen || lanokUp s) (countMissed false) s)
include hat hruns hu

/-- R12, R103: a field die that frames no trunk sends its heartbeat alone. -/
theorem exec_fieldFrame_unframed (hframes : framing u = false) :
    exec (.fieldFrame noise skew) s = .next (lanokSend false (.heartbeat u.fld.hubMode (fieldState u) 0 0) u) := by
  have hnow : ¬ (fieldNow s % framePeriod ≠ 0 ∨ fieldState s = fsReset) := not_or.mpr ⟨not_not.mpr hat, hruns⟩
  have hidle : ¬ framing u = true := by simp [hframes]
  simp only [exec_fieldFrame, execFieldFrame, if_neg hnow, ← hu, if_neg hidle]

/-- R12, R70, R100: a field die that frames sends each trunk its frames and the floor mix, then its heartbeat. -/
theorem exec_fieldFrame_framed {v : State} {fl : List Int × Ramp} (hframes : framing u = true)
    (hfloor : fl = hdFloor u 6 u.fld.hd.g)
    (hv : v = (List.range 8).foldl (fun x t =>
      if framesTrunk x t then trunkFrame noise skew (fieldNow s) fl.1 x t
      else listenerBeacon t (fieldNow s) (fadesDrop t x)) u) :
    exec (.fieldFrame noise skew) s
      = .next (lanokSend false (.heartbeat v.fld.hubMode (fieldState { v with fld.hd.g := fl.2 }) 0 0)
          { v with fld.hd.g := fl.2 }) := by
  have hnow : ¬ (fieldNow s % framePeriod ≠ 0 ∨ fieldState s = fsReset) := not_or.mpr ⟨not_not.mpr hat, hruns⟩
  simp only [exec_fieldFrame, execFieldFrame, if_neg hnow, ← hu, if_pos hframes, ← hfloor, ← hv]

end Field

section Hub

variable (hu : u = countMissed true s)
include hu

/-- R429: a hub that is not in RUN sends its heartbeat, with bit 7 of the mode set. -/
theorem exec_hubFieldFrame_asleep (hasleep : rd u K.HUB_PSTATE ≠ 0) :
    exec .hubFieldFrame s
      = .next (lanokSend true (.heartbeat (modeOf u + 128) (rd u K.FIELD_STATE) (rd u K.ROLE) (rd u K.EPOCH)) u) := by
  have hawake : (rd u K.HUB_PSTATE == 0) = false := beq_false_of_ne hasleep
  simp only [exec_hubFieldFrame, execHubFieldFrame, ← hu, hawake, Bool.not_false, Bool.false_eq_true, if_true, if_false]

/-- R12, R461: a standby in RUN sends its time and heartbeat and takes the upstream blocks, and no audio of its own. -/
theorem exec_hubFieldFrame_standby {v w : State} (hawake : rd u K.HUB_PSTATE = 0)
    (hw : w = lanokSend true (.timeXfer (nowNs u) (u.isb.now % ns1) (rd u K.ISB_STATE) (rdI 32 u K.ISB_FREQ_ADJ)) u)
    (hv : v = lanokSend true (.heartbeat (modeOf u) (rd w K.FIELD_STATE) (rd w K.ROLE) (rd w K.EPOCH)) w)
    (hstandby : rd v K.ROLE = 2) :
    exec .hubFieldFrame s = .next { (List.range 32).foldl latchBlock v with fld.up := [], fld.upValid := [] } := by
  have hactive : (rd v K.ROLE == 1 && v.pair.peerRelays) = false := by simp [hstandby]
  have hrun : (rd u K.HUB_PSTATE == 0) = true := beq_iff_eq.mpr hawake
  simp only [exec_hubFieldFrame, execHubFieldFrame, ← hu, hrun, Bool.not_true, Bool.false_eq_true, if_true, if_false,
    Nat.add_zero, ← hw, ← hv, if_pos hstandby, hactive, upd]

end Hub

end Boundaries

section Returns

variable {k : Fin 8} {f : FrameReturn} {s u : State}

/-- A returned pair that completes no dictionary request leaves what `frameReturn` makes of it. -/
theorem exec_poruaFrameReturn_alone (hreturn : frameReturn k.val f s = (none, u)) :
    exec (.poruaFrameReturn k f) s = .next u := by
  simp only [exec_poruaFrameReturn, execPoruaFrameReturn, hreturn]

/-- A running trunk of a field die that frames takes its returned pairs. -/
theorem frameReturn_taken {t : Nat} (hruns : trunkRuns s t = true) (hframes : fieldState s ≤ 1) :
    ¬ (rd s (K.TRUNK_STATE t) = tsAbsent ∨ tsBroken < rd s (K.TRUNK_STATE t) ∨ fieldState s > 1) := by
  have hstate : rd s (K.TRUNK_STATE t) = 2 ∨ rd s (K.TRUNK_STATE t) = 3 := by
    simpa only [trunkRuns, Bool.or_eq_true, beq_iff_eq] using hruns
  rintro (habsent | hoff | hidle)
  · rw [habsent] at hstate
    exact absurd hstate (by decide)
  · have habove : 3 < rd s (K.TRUNK_STATE t) := hoff
    omega
  · omega

/-- R87: the first pair that returns to an enumerating trunk ends its enumeration. -/
theorem frameReturn_enumerates {t : Nat} (hruns : trunkRuns s t = true) (hframes : fieldState s ≤ 1) (hcw : f.cw = true)
    (henum : (trunkOf s t).enumerating = true) : frameReturn t f s = (none, enumDone t f.hops s) := by
  rw [frameReturn, if_neg (frameReturn_taken hruns hframes), if_pos henum, if_pos hcw]

theorem frameReturn_normal {t : Nat} {fl : Flight} {l : List Flight} (hruns : trunkRuns s t = true)
    (hframes : fieldState s ≤ 1) (henum : (trunkOf s t).enumerating = false) (hflight : (trunkOf s t).flight = fl :: l) :
    frameReturn t f s = normalReturn t f fl (trunkUpd t (fun x => { x with flight := l }) s) := by
  have hnormal : ¬ (trunkOf s t).enumerating = true := by simp [henum]
  simp only [frameReturn, if_neg (frameReturn_taken hruns hframes), if_neg hnormal, hflight]

end Returns

section Breaks

variable {k : Fin 8} {hop : Nat} {s u : State}

/-- R92: a hop between two nodes that goes down is listed; a trunk that was no broken ring is one from now on, which is an
upset of it. -/
theorem exec_hopDown_between {w : State} (hruns : trunkRuns s k.val = true)
    (hgood : (trunkOf s k.val).downHops.contains hop = false) (hfirst : 0 < hop)
    (hlast : hop < (trunkOf s k.val).nodes.length)
    (hu : u = trunkUpd k.val (fun x => { x with downHops := hop :: x.downHops }) s)
    (hw : w = syncPorts k.val (syncNodes k.val (wr (K.BREAK_AT k.val) (breakAt (trunkOf u k.val)) u))) :
    exec (.hopDown k hop) s = .next (if rd w (K.TRUNK_STATE k.val) = tsBroken then w
      else if (upset cTrunk k.val (wr (K.TRUNK_STATE k.val) tsBroken w)).2 = true
        then trunkRetire k.val (upset cTrunk k.val (wr (K.TRUNK_STATE k.val) tsBroken w)).1
        else (upset cTrunk k.val (wr (K.TRUNK_STATE k.val) tsBroken w)).1) := by
  have hbeyond : decide ((trunkOf s k.val).nodes.length < hop) = false := decide_eq_false (by omega)
  have hportA : (hop == 0) = false := beq_false_of_ne (by omega)
  have hportB : decide ((trunkOf s k.val).nodes.length = hop) = false := decide_eq_false (by omega)
  simp only [exec_hopDown, execHopDown, hopDown, hruns, hgood, hbeyond, hportA, hportB, Bool.not_true, Bool.or_self,
    Bool.false_and, Bool.false_eq_true, upd, if_false, ← hu, ← hw]
  cases hupset : upset cTrunk k.val (wr (K.TRUNK_STATE k.val) tsBroken w) with
  | mk z retires => cases retires <;> rfl

/-- R92: a good hop leaves the list at a frame boundary; while another is down the ring stays broken. -/
theorem exec_loopbackRemove_one (hdown : (trunkOf s k.val).downHops.contains hop = true)
    (hat : fieldNow s % framePeriod = 0)
    (hu : u = trunkUpd k.val (fun x => { x with downHops := x.downHops.filter (· != hop), pollNext := 0 }) s)
    (hleft : (trunkOf u k.val).downHops.isEmpty = false) :
    exec (.loopbackRemove k hop) s
      = .next (syncPorts k.val (syncNodes k.val (wr (K.BREAK_AT k.val) (breakAt (trunkOf u k.val)) u))) := by
  have hnow : ¬ (!(trunkOf s k.val).downHops.contains hop || decide (fieldNow s % framePeriod ≠ 0)) = true := by
    rw [hdown, hat]
    decide
  have hbroken : ∀ v, ¬ ((trunkOf (wr (K.BREAK_AT k.val) v u) k.val).downHops.isEmpty = true
      ∧ rd (wr (K.BREAK_AT k.val) v u) (K.TRUNK_STATE k.val) = tsBroken) := by
    rintro v ⟨hnone, -⟩
    exact absurd (hleft.symm.trans hnone) (by decide)
  simp only [exec_loopbackRemove, execLoopbackRemove, if_neg hnow, ← hu, if_neg (hbroken _)]

end Breaks

section Pins

variable {p : Fin 16} {s : State}

theorem exec_emergencyIn_asserted (hruns : fieldState s ≠ fsReset) (hfunc : rdF s (K.FGPIO_FUNC p.val) = 2) :
    exec (.emergencyIn p) s = .next (fgpioInput p.val (rdF s (K.FGPIO_ACTIVE p.val) == 1) s) := by
  rw [exec_emergencyIn, execEmergencyIn, if_neg (not_or.mpr ⟨hruns, not_not.mpr hfunc⟩)]

theorem exec_fgpioDebounceEnd_held {ms : Nat} (high : Bool) (hruns : fieldState s ≠ fsReset)
    (hheld : rdF s (K.FGPIO_DEBOUNCE p.val) ≤ ms) :
    exec (.fgpioDebounceEnd p high ms) s = .next (fgpioInput p.val high s) := by
  rw [exec_fgpioDebounceEnd, execFgpioDebounceEnd, if_neg (not_or.mpr ⟨hruns, Nat.not_lt.mpr hheld⟩)]

end Pins

section CanBuses

variable {b : Fin 2} {id : Nat} {form : CanForm} {passive : Bool} {octets : Bytes} {s u : State}

theorem exec_canFrame_calm (hcalm : fieldState s = fsCalm) :
    exec (.canFrame b id form passive octets) s = .next (fieldWake s) := by
  rw [exec_canFrame, execCanFrame, if_pos hcalm]

/-- R125: a frame of an enabled bus with its request identifier belongs to the dictionary. -/
theorem exec_canFrame_request (hawake : fieldState s ≠ fsCalm) (hruns : canRuns s b.val = true)
    (hu : u = wr (K.CAN_BUS b.val) (b2n passive) (canUpd b.val (fun c => { c with passive := passive }) s))
    (hours : canForUs u b.val id form = true) (hopen : rd u (K.TP_EN (2 + b.val)) = 1) (hsome : octets.isEmpty = false) :
    exec (.canFrame b id form passive octets) s = .next (canFrame b.val octets u) := by
  have hpart : ¬ (!canRuns s b.val) = true := by simp [hruns]
  have htaken : ¬ (!canForUs u b.val id form || rd u (K.TP_EN (2 + b.val)) == 0 || octets.isEmpty) = true := by
    rw [hours, hopen, hsome]
    decide
  simp only [exec_canFrame, execCanFrame, if_neg hawake, if_neg hpart, ← hu, if_neg htaken]

/-- R125: a partial request 100 ms after its last frame is dropped, and counted. -/
theorem exec_canReassemblyTimeout_drops (hactive : (canOf s b.val).active = true)
    (hdue : (canOf s b.val).lastAt + 100 * ms1 ≤ fieldClk s) :
    exec (.canReassemblyTimeout b) s = .next (bump (K.DROPS (2 + b.val))
      (canUpd b.val (fun c => { c with part := [], count := 0, active := false }) s)) := by
  rw [exec_canReassemblyTimeout, execCanReassemblyTimeout, if_pos hdue, canDiscard, if_pos hactive]

end CanBuses

/-- Settles O24: boundaries by what frames there, returned pairs by `frameReturn`, breaks, pins and buses by the conditions
that would keep each idle. -/
theorem framesAndPorts : Obligations.FramesAndPorts := by
  unfold Obligations.FramesAndPorts
  refine ⟨?off, ?unframed, ?framed, ?asleep, ?standby, ?alone, ?enumerates, ?normal, ?down, ?good, ?emergency, ?level,
    ?calm, ?request, ?timeout, ?busOff⟩
  case off => exact fun e k s hoff => exec_fieldFrame_off_boundary hoff
  case unframed => exact fun e k s u hat hruns hu hframes => exec_fieldFrame_unframed hat hruns hu hframes
  case framed =>
    exact fun e k s u v fl hat hruns hu hframes hfloor hv => exec_fieldFrame_framed hat hruns hu hframes hfloor hv
  case asleep => exact fun s u hu hasleep => exec_hubFieldFrame_asleep hu hasleep
  case standby =>
    exact fun s u v w hu hawake hw hv hstandby => exec_hubFieldFrame_standby hu hawake hw hv hstandby
  case alone => exact fun k f s u hreturn => exec_poruaFrameReturn_alone hreturn
  case enumerates =>
    intro k f s hruns hframes hcw henum
    exact exec_poruaFrameReturn_alone (frameReturn_enumerates hruns hframes hcw henum)
  case normal =>
    intro k f fl l s u hruns hframes henum hflight hreturn
    exact exec_poruaFrameReturn_alone ((frameReturn_normal hruns hframes henum hflight).trans hreturn)
  case down =>
    exact fun k hop s u w hruns hgood hfirst hlast hu hw => exec_hopDown_between hruns hgood hfirst hlast hu hw
  case good => exact fun k hop s u hdown hat hu hleft => exec_loopbackRemove_one hdown hat hu hleft
  case emergency => exact fun p s hruns hfunc => exec_emergencyIn_asserted hruns hfunc
  case level => exact fun p high ms s hruns hheld => exec_fgpioDebounceEnd_held high hruns hheld
  case calm => exact fun b id f v o s hcalm => exec_canFrame_calm hcalm
  case request =>
    exact fun b id f v o s u hawake hruns hu hours hopen hsome => exec_canFrame_request hawake hruns hu hours hopen hsome
  case timeout => exact fun b s hactive hdue => exec_canReassemblyTimeout_drops hactive hdue
  case busOff =>
    intro b s
    rw [exec_canBusOffRecovery, execCanBusOffRecovery]

end Sys2Proof.Machine

/-! # Admitted node events: the talker manager, Hall Default, votes and polls (O25) -/
namespace Sys2Proof.Machine

section Handling

variable {code n c : Nat} {hub field : Nat → State → State} {s u : State}

/-- R221, R225: an event the hub admitted goes to the talker manager where that is active. -/
theorem handleEvent_byHub (htake : takeAdmitted (· == code) s = some ((n, c, true), u)) (hactive : tmActive u = true) :
    handleEvent code hub field s = hub n u := by
  simp only [handleEvent, htake, hactive, if_true]

/-- R99, R101: an event the field die admitted goes to Hall Default. -/
theorem handleEvent_byField (htake : takeAdmitted (· == code) s = some ((n, c, false), u)) :
    handleEvent code hub field s = field n u := by
  simp only [handleEvent, htake, Bool.false_eq_true, if_false]

end Handling

section Polling

variable {n c : Nat} {b : Bool} {s u : State}

theorem exec_voteK_taken (htake : takeAdmitted isVote s = some ((n, c, b), u)) :
    exec .voteK s = .next (countVote n (c - 4) u) := by
  simp only [exec_voteK, execVoteK, htake]

theorem exec_endpointChange_taken (htake : takeAdmitted (· == evEndpointChange) s = some ((n, c, b), u)) :
    exec .endpointChange s = .next (pushCtrl (nodeTrunk n) (pollCtrl 5 (nodeIndex n) 2) u) := by
  simp only [exec_endpointChange, execEndpointChange, htake]

theorem exec_message_taken (htake : takeAdmitted (· == evMessage) s = some ((n, c, b), u)) :
    exec .message s = .next (pushCtrl (nodeTrunk n) (pollCtrl 2 (nodeIndex n) 3) u) := by
  simp only [exec_message, execMessage, htake]

theorem exec_fault_taken (htake : takeAdmitted (· == evFault) s = some ((n, c, b), u)) :
    exec .fault s = .next (pushCtrl (nodeTrunk n) (pollCtrl 5 (nodeIndex n) 0) u) := by
  simp only [exec_fault, execFault, htake]

end Polling

/-- Settles O25: requests and priorities through `handleEvent`, the other events by what their commands do with the event
taken. -/
theorem nodeEventsAreHandled : Obligations.NodeEventsAreHandled := by
  unfold Obligations.NodeEventsAreHandled
  refine ⟨?speakHub, ?speakField, ?cancelHub, ?cancelField, ?onHub, ?onField, ?offHub, ?offField, ?vote, ?endpoints,
    ?message, ?fault⟩
  case speakHub =>
    intro n c s u htake hactive
    rw [exec_reqSpeak, execReqSpeak, handleEvent_byHub htake hactive]
  case speakField =>
    intro n c s u htake
    rw [exec_reqSpeak, execReqSpeak, handleEvent_byField htake]
  case cancelHub =>
    intro n c s u htake hactive
    rw [exec_reqCancel, execReqCancel, handleEvent_byHub htake hactive]
  case cancelField =>
    intro n c s u htake
    rw [exec_reqCancel, execReqCancel, handleEvent_byField htake]
  case onHub =>
    intro n c s u htake hactive
    rw [exec_priorityOn, execPriorityOn, handleEvent_byHub htake hactive]
  case onField =>
    intro n c s u htake
    rw [exec_priorityOn, execPriorityOn, handleEvent_byField htake]
  case offHub =>
    intro n c s u htake hactive
    rw [exec_priorityOff, execPriorityOff, handleEvent_byHub htake hactive]
  case offField =>
    intro n c s u htake
    rw [exec_priorityOff, execPriorityOff, handleEvent_byField htake]
  case vote => exact fun n c b s u htake => exec_voteK_taken htake
  case endpoints => exact fun n c b s u htake => exec_endpointChange_taken htake
  case message => exact fun n c b s u htake => exec_message_taken htake
  case fault => exact fun n c b s u htake => exec_fault_taken htake

end Sys2Proof.Machine

/-! # The events that wait at a node (O57) -/
namespace Sys2Proof.Machine

section NodeRecords

variable {n m : Nat} {s : State}

theorem nodeOf_nodeUpd_other (f : Node → Node) (hother : m ≠ n) : nodeOf (nodeUpd n f s) m = nodeOf s m :=
  tabGet_tabSet_other _ _ _ _ _ _ hother

/-- An updated record reads back unless it is the default one, which a table does not list. -/
theorem nodeOf_nodeUpd_same {f : Node → Node} (hkept : f (nodeOf s n) ≠ {}) :
    nodeOf (nodeUpd n f s) n = f (nodeOf s n) := by
  have hput : (nodeUpd n f s).fld.nodes = tabPut s.fld.nodes n (f (nodeOf s n)) := if_neg hkept
  rw [nodeOf, hput, tabGet_tabPut_same]

theorem nodeOf_lightKey_other (code : Nat) (hother : m ≠ n) : nodeOf (lightKey n code s) m = nodeOf s m := by
  unfold lightKey
  split
  next v _ =>
    split
    · exact nodeOf_nodeUpd_other _ hother
    · rfl
  next => rfl

/-- R76: a press lights at most a key of its node. -/
theorem nodeOf_lightKey_same (n code : Nat) (s : State) :
    ∃ key, nodeOf (lightKey n code s) n = { nodeOf s n with litKey := key } := by
  unfold lightKey
  split
  next v _ =>
    split
    next hshown =>
      have hlit : code - 4 ≠ 0 := by omega
      exact ⟨code - 4, nodeOf_nodeUpd_same (fun hdefault => hlit (congrArg Node.litKey hdefault))⟩
    next => exact ⟨(nodeOf s n).litKey, rfl⟩
  next => exact ⟨(nodeOf s n).litKey, rfl⟩

end NodeRecords

section Presses

variable {n : Nat} {code : Fin 16} {s : State}

/-- R85: priority events enter a queue at its head, the others at its end. -/
def queueWith (code : Nat) (q : List Nat) : List Nat :=
  if code = evPriorityOn ∨ code = evPriorityOff then code :: q else q ++ [code]

theorem queueWith_length (code : Nat) (q : List Nat) : (queueWith code q).length = q.length + 1 := by
  unfold queueWith
  split <;> simp

/-- R95: a press a node may not raise changes nothing. -/
theorem exec_buttonPress_refused (hrefused : code.val = 0 ∨ mayRaise s n code.val = false) :
    exec (.buttonPress n code) s = .next s := by
  rw [exec_buttonPress, execButtonPress, if_pos hrefused]

section Raised

variable (hcode : 1 ≤ code.val) (hmay : mayRaise s n code.val = true)
include hcode hmay

/-- R85: with room in the queue a press enters it, and lights at most a key. -/
theorem buttonPress_joins (hroom : (nodeOf s n).queue.length < 16) :
    ∃ t key, exec (.buttonPress n code) s = .next t ∧ (∀ m, m ≠ n → nodeOf t m = nodeOf s m)
      ∧ nodeOf t n = { nodeOf s n with queue := queueWith code.val (nodeOf s n).queue, litKey := key } := by
  have hjoined : nodeOf (nodeUpd n (fun x => { x with queue := queueWith code.val x.queue }) s) n
      = { nodeOf s n with queue := queueWith code.val (nodeOf s n).queue } := by
    refine nodeOf_nodeUpd_same (fun hdefault => ?_)
    have hlength := congrArg List.length (congrArg Node.queue hdefault)
    rw [queueWith_length] at hlength
    exact absurd hlength (Nat.succ_ne_zero _)
  obtain ⟨key, hlit⟩ := nodeOf_lightKey_same n code.val
    (nodeUpd n (fun x => { x with queue := queueWith code.val x.queue }) s)
  refine ⟨_, key, ?_, fun m hother => ?_, hlit.trans (by rw [hjoined])⟩
  · rw [exec_buttonPress_raised hcode hmay, if_neg (by omega)]
    rfl
  · rw [nodeOf_lightKey_other _ hother, nodeOf_nodeUpd_other _ hother]

/-- R85: with 16 events waiting a press is dropped and only QUEUE_OVERFLOW notes it. -/
theorem buttonPress_dropped (hfull : 16 ≤ (nodeOf s n).queue.length) :
    ∃ t, exec (.buttonPress n code) s = .next t ∧ (∀ m, m ≠ n → nodeOf t m = nodeOf s m)
      ∧ nodeOf t n = { nodeOf s n with overflow := true } := by
  refine ⟨_, ?_, fun m hother => nodeOf_nodeUpd_other _ hother,
    nodeOf_nodeUpd_same (f := fun x => { x with overflow := true })
      (fun hdefault => Bool.noConfusion (congrArg Node.overflow hdefault))⟩
  rw [exec_buttonPress_raised hcode hmay, if_pos hfull]

end Raised

/-- What a press can do, whatever the code and the state. -/
theorem buttonPress_cases {t : State} (hexec : exec (.buttonPress n code) s = .next t) :
    t = s ∨ ((∀ m, m ≠ n → nodeOf t m = nodeOf s m)
      ∧ ((nodeOf t n).queue = (nodeOf s n).queue
        ∨ (nodeOf s n).queue.length < 16 ∧ (nodeOf t n).queue = queueWith code.val (nodeOf s n).queue)) := by
  by_cases hrefused : code.val = 0 ∨ mayRaise s n code.val = false
  · rw [exec_buttonPress_refused hrefused] at hexec
    cases hexec
    exact .inl rfl
  · obtain ⟨hzero, hbarred⟩ := not_or.mp hrefused
    have hcode : 1 ≤ code.val := Nat.one_le_iff_ne_zero.mpr hzero
    have hmay : mayRaise s n code.val = true := by simpa using hbarred
    right
    by_cases hfull : 16 ≤ (nodeOf s n).queue.length
    · obtain ⟨u, hu, hothers, hnode⟩ := buttonPress_dropped hcode hmay hfull
      cases hu.symm.trans hexec
      exact ⟨hothers, .inl (by rw [hnode])⟩
    · obtain ⟨u, key, hu, hothers, hnode⟩ := buttonPress_joins hcode hmay (Nat.not_le.mp hfull)
      cases hu.symm.trans hexec
      exact ⟨hothers, .inr ⟨Nat.not_le.mp hfull, by rw [hnode]⟩⟩

end Presses

/-- Settles O57: a raised press joins the queue or is dropped (`buttonPress_joins`, `buttonPress_dropped`); only a queue of
fewer than 16 grows (`buttonPress_cases`). -/
theorem nodeHoldsItsEventsInOrder : Obligations.NodeHoldsItsEventsInOrder := by
  unfold Obligations.NodeHoldsItsEventsInOrder
  refine ⟨?joins, ?dropped, ?refused, ?kept⟩
  case joins =>
    intro n code s hcode hmay hroom
    obtain ⟨t, key, hexec, -, hnode⟩ := buttonPress_joins (Nat.one_le_iff_ne_zero.mpr hcode) hmay hroom
    refine ⟨t, hexec, by rw [hnode], fun hpriority => ?_, fun hon hoff => ?_⟩
    · rw [hnode]
      exact if_pos hpriority
    · rw [hnode]
      exact if_neg (not_or.mpr ⟨hon, hoff⟩)
  case dropped =>
    intro n code s hcode hmay hfull
    obtain ⟨t, hexec, -, hnode⟩ := buttonPress_dropped (Nat.one_le_iff_ne_zero.mpr hcode) hmay hfull
    exact ⟨t, hexec, by rw [hnode], by rw [hnode]⟩
  case refused => exact fun n code s hrefused => exec_buttonPress_refused hrefused
  case kept =>
    intro n m code s t hexec
    rcases buttonPress_cases hexec with rfl | ⟨hothers, hqueue⟩
    · exact ⟨id, fun _ => rfl⟩
    · refine ⟨fun hheld => ?_, hothers m⟩
      by_cases hm : m = n
      · subst hm
        rcases hqueue with hsame | ⟨hroom, hjoined⟩
        · rwa [hsame]
        · rw [hjoined, queueWith_length]
          exact hroom
      · rwa [hothers m hm]

end Sys2Proof.Machine

/-! # Writes of maintenance, faults, the pair and power (O27) -/
namespace Sys2Proof.Machine

/-- A command of one octet that is answered PENDING while its effect is under way. -/
theorem runCmd_takes_pending {i : Inst} {tag index sub : Nat} {s : State} (h : unhindered i tag index sub [1] s = true)
    (f : State → State) :
    runCmd i tag index sub .pending f (touch i s) = cmdTakes i tag index sub [1] .pending f s :=
  runCmdV_takes h (Or.inr rfl) f

section PowerRequests

variable {i : Inst} {tag d : Nat} {s : State}

/-- R437, Table PWR-4: a state requested of a domain that may take it begins after its PENDING answer. -/
theorem pdRequest_takes {st : Nat} (h : unhindered i tag (0x0420 + d) 2 (leBytes 1 st) s = true)
    (hst : pdRequestStatus d st (touch i s) = .pending) :
    pdRequest i tag d st (touch i s)
      = pdRequestGo d st (cmdTakes i tag (0x0420 + d) 2 (leBytes 1 st) .pending id s) := by
  rw [pdRequest, hst, runPending_takes h]

/-- PD_RESET exists for domains 0 to 19 and may reset all but the first and the last. -/
theorem pdResetChecks_pass (hlow : 1 ≤ d) (hhigh : d ≤ 18) :
    checks [(decide (19 < d), .noEntry), (d == 0 || d == 19, .range)] = .ok := by
  have hexists : decide (19 < d) = false := decide_eq_false (by omega)
  have hmay : (d == 0 || d == 19) = false := by
    rw [Bool.or_eq_false_iff, beq_eq_false_iff_ne, beq_eq_false_iff_ne]
    omega
  rw [hexists, hmay, checks_passed, checks_passed, checks_nil]

end PowerRequests

/-- Settles O27: each row reaches its write (`orClose_takes`), whose kind (at once, after its answer, PENDING) says when
it takes effect. -/
theorem maintenanceCommandsTakeEffect : Obligations.MaintenanceCommandsTakeEffect := by
  unfold Obligations.MaintenanceCommandsTakeEffect
  refine ⟨?warmReset, ?factoryReset, ?modeRequest, ?fwStage, ?fwActivate, ?schedStatsClear, ?memStatsClear, ?stormClear,
    ?returnPrep, ?vaneEn, ?hostPing, ?chClear, ?chRetire, ?switchover, ?forceActive, ?pdRun, ?pdCalm, ?pdFrost, ?pdReset,
    ?hubOff⟩
  case warmReset =>
    intro i tag s h
    rw [exec_warmReset, execWarmReset, orClose_takes h, writeWarmReset, runAfter_takes h]
  case factoryReset =>
    intro i tag s h hmode
    rw [exec_factoryReset, execFactoryReset, orClose_takes h, writeFactoryReset, modeOf_touch, if_pos hmode,
      runPending_takes h]
  case modeRequest =>
    intro i tag m s h hst
    rw [exec_modeRequest, execModeRequest, orClose_takes h, writeModeRequest, hst, runPending_takes h]
  case fwStage =>
    intro i tag b s h hst
    simp only [exec_fwStage, execFwStage, orClose_takes h, writeFwStage, hst]
    rw [runWriteV_takes (by decide) h]
  case fwActivate =>
    intro i tag s h hmode
    rw [exec_fwActivate, execFwActivate, orClose_takes h, writeFwActivate, modeOf_touch, if_pos hmode, runPending_takes h]
  case schedStatsClear =>
    intro i tag s h
    rw [exec_schedStatsClear, execSchedStatsClear, orClose_takes h, writeSchedStatsClear, runCmd_takes h]
  case memStatsClear =>
    intro i tag s h
    rw [exec_memStatsClear, execMemStatsClear, orClose_takes h, writeMemStatsClear, runCmd_takes h]
  case stormClear =>
    intro i tag s h hmode
    rw [exec_stormClear, execStormClear, orClose_takes h, writeStormClear, serviceOnly, modeOf_touch, if_pos hmode,
      runCmd_takes h]
  case returnPrep =>
    intro i tag s h hmode
    rw [exec_returnPrep, execReturnPrep, orClose_takes h, writeReturnPrep, modeOf_touch, if_pos hmode, runPending_takes h]
  case vaneEn =>
    intro i tag on s h
    rw [exec_vaneEn, execVaneEn, orClose_takes h, writeVaneEn, runWrite_takes (by decide) h]
  case hostPing =>
    intro i tag s h
    rw [exec_hostPing, execHostPing, orClose_takes h, writeHostPing, runCmd_takes h]
  case chClear =>
    intro i tag s h hst
    rw [exec_chClear, execChClear, orClose_takes h, writeChClear, hst, runCmd_takes h]
  case chRetire =>
    intro i tag s h hst
    rw [exec_chRetire, execChRetire, orClose_takes h, writeChRetire, hst, runCmd_takes h]
  case switchover =>
    intro i tag s h hpair
    rw [exec_switchover, execSwitchover, orClose_takes h, writeSwitchover, rd_touch, if_pos hpair, runPending_takes h]
  case forceActive =>
    intro i tag s h hrole
    rw [exec_forceActive, execForceActive, orClose_takes h, writeForceActive, rd_touch, if_pos hrole, runCmd_takes h,
      touch_pair]
  case pdRun =>
    intro i tag d s h hst
    rw [exec_pdRequestRun, execPdRequestRun, orClose_takes h, writePdRequestRun, pdRequest_takes h hst]
    rfl
  case pdCalm =>
    intro i tag d s h hst
    rw [exec_pdRequestCalm, execPdRequestCalm, orClose_takes h, writePdRequestCalm, pdRequest_takes h hst]
    rfl
  case pdFrost =>
    intro i tag d s h hst
    rw [exec_pdRequestFrost, execPdRequestFrost, orClose_takes h, writePdRequestFrost, pdRequest_takes h hst]
    rfl
  case pdReset =>
    intro i tag d s h hlow hhigh
    rw [exec_pdReset, execPdReset, orClose_takes h, writePdReset, pdResetChecks_pass hlow hhigh, runCmd_takes h]
  case hubOff =>
    intro i tag s h hst
    simp only [exec_hubOff, execHubOff, orClose_takes h, writeHubOff, modeOf_touch, hst]
    rw [runCmd_takes_pending h]

end Sys2Proof.Machine

/-! # Writes of the mesh, the audio ports, the mixer, the talkers and the desks (O28) -/
namespace Sys2Proof.Machine

/-- Settles O28: each row reaches its write (`orClose_takes`), which takes effect when its own checks pass. -/
theorem audioKeysTakeEffect : Obligations.AudioKeysTakeEffect := by
  unfold Obligations.AudioKeysTakeEffect
  refine ⟨?kunload, ?bEn, ?tEn, ?sapEn, ?epEn, ?xpCopy, ?xpPreset, ?meterClr, ?lmReset, ?tmGrant, ?tmClose,
    ?tmClearQueue, ?deskEn⟩
  case kunload =>
    intro i tag k s h hidle
    rw [exec_kunload, execKunload, orClose_takes h, writeKunload, hidle, if_neg Bool.false_ne_true, runCmd_takes h]
  case bEn =>
    intro i tag e on s h hst
    rw [exec_bEn, execBEn, orClose_takes h, writeBEn, hst, runWrite_takes (by decide) h]
  case tEn =>
    intro i tag e on s h hst hawake
    rw [exec_tEn, execTEn, orClose_takes h, writeTEn, hst, rd_touch, runEnable_takes (by decide) h hawake]
  case sapEn =>
    intro i tag n on s h hst
    rw [exec_sapEn, execSapEn, orClose_takes h, writeSapEn, hst, runWrite_takes (by decide) h]
  case epEn =>
    intro i tag rx e on s h hst
    rw [exec_epEn, execEpEn, orClose_takes h, writeEpEn, hst, runWrite_takes (by decide) h]
  case xpCopy =>
    intro i tag k s h hst
    rw [exec_xpCopy, execXpCopy, orClose_takes h, writeXpCopy, hst, runCmdV_takes h (Or.inr rfl)]
  case xpPreset =>
    intro i tag s h hst
    rw [exec_xpPreset, execXpPreset, orClose_takes h, writeXpPreset, hst, runCmd_takes_pending h]
  case meterClr =>
    intro i tag s h
    rw [exec_meterClr, execMeterClr, orClose_takes h, writeMeterClr, runCmd_takes h]
  case lmReset =>
    intro i tag m s h
    rw [exec_lmReset, execLmReset, orClose_takes h, writeLmReset, runCmd_takes h]
  case tmGrant =>
    intro i tag n s h hst hslot
    simp only [exec_tmGrant, execTmGrant, orClose_takes h, writeTmGrant, hst, hslot, upd, Bool.false_eq_true, if_false]
    rw [runCmdV_takes h (Or.inl rfl)]
  case tmClose =>
    intro i tag n s h hident hactive
    simp only [exec_tmClose, execTmClose, orClose_takes h, writeTmClose, hident, hactive, Bool.not_true, checks_passed,
      checks_nil]
    rw [runCmdV_takes h (Or.inl rfl)]
  case tmClearQueue =>
    intro i tag s h
    rw [exec_tmClearQueue, execTmClearQueue, orClose_takes h, writeTmClearQueue, runCmd_takes h]
  case deskEn =>
    intro i tag d on s h hst
    rw [exec_deskEn, execDeskEn, orClose_takes h, writeDeskEn, hst, runWrite_takes (by decide) h]

end Sys2Proof.Machine

/-! # Writes of ports, queues, legs and keys, control transactions of a leg (O29) -/
namespace Sys2Proof.Machine

/-- R404: an erasure (bit 0 the receiving entries, bit 1 the sending ones) is taken for a leg that is not enabled. -/
theorem legErase_takes {i : Inst} {tag v : Nat} {s : State}
    (h : unhindered i tag 0x7D00 0x0C [BitVec.ofNat 8 v] s = true)
    (hoff : rd s (K.LEG_EN (rd s (K.CIPHER_LEG (instNum i)))) ≠ 1) :
    legErase i tag v .ok (touch i s) = cmdTakes i tag 0x7D00 0x0C [BitVec.ofNat 8 v] .ok
      (fun u => upd (bitOf v 1) (srtpErase true (rd s (K.CIPHER_LEG (instNum i))))
        (upd (bitOf v 0) (srtpErase false (rd s (K.CIPHER_LEG (instNum i)))) u)) s := by
  simp only [legErase, rd_touch, hoff, if_false, worst_ok]
  rw [runCmdV_takes h (Or.inl rfl)]

/-- Settles O29: the dictionary rows by `orClose_takes` and their write's own checks, a leg's control transactions by
`orClose_leg` and `legCtrl_takes`. -/
theorem packetAndLegKeysTakeEffect : Obligations.PacketAndLegKeysTakeEffect := by
  unfold Obligations.PacketAndLegKeysTakeEffect
  refine ⟨?portEn, ?qFlush, ?poolTest, ?legEn, ?slotErase, ?inErase, ?outErase, ?enable, ?disable, ?speak, ?cancel,
    ?setSource, ?setMax, ?refresh⟩
  case portEn =>
    intro i tag p on s h hst hawake
    rw [exec_portEn, execPortEn, orClose_takes h, writePortEn, hst, runEnable_takes (by decide) h hawake]
  case qFlush =>
    intro i tag s h
    rw [exec_qFlush, execQFlush, orClose_takes h, writeQFlush, runCmd_takes h, rd_touch]
  case poolTest =>
    intro i tag s h hst
    rw [exec_poolTest, execPoolTest, orClose_takes h, writePoolTest, hst, runCmd_takes_pending h]
  case legEn =>
    intro i tag l on s h hl hmedia hst
    rw [exec_legEn, execLegEn, orClose_takes h, writeLegEn, if_pos hl, hmedia, hst, worst_ok,
      runWrite_takes (by decide) h]
  case slotErase =>
    intro i tag k s h
    rw [exec_slotErase, execSlotErase, orClose_takes h, writeSlotErase, runCmd_takes h]
  case inErase =>
    intro i tag s h hoff
    rw [exec_inErase, execInErase, orClose_takes h, writeInErase, legErase_takes h hoff]
    rfl
  case outErase =>
    intro i tag s h hoff
    rw [exec_outErase, execOutErase, orClose_takes h, writeOutErase, legErase_takes h hoff]
    rfl
  case enable =>
    intro i tag l txn s h hmedia hst
    rw [exec_legCtrlEnable, execLegCtrlEnable, orClose_leg h, writeLegCtrlEnable, hmedia, hst, worst_ok, legCtrl_takes h]
  case disable =>
    intro i tag l txn s h
    rw [exec_legCtrlDisable, execLegCtrlDisable, orClose_leg h, writeLegCtrlDisable, legCtrl_takes h]
  case speak =>
    intro i tag l txn s h hl
    rw [exec_legCtrlSpeak, execLegCtrlSpeak, orClose_leg h, writeLegCtrlSpeak, if_pos hl, legCtrl_takes h]
  case cancel =>
    intro i tag l txn s h hl
    rw [exec_legCtrlCancel, execLegCtrlCancel, orClose_leg h, writeLegCtrlCancel, if_pos hl, legCtrl_takes h]
  case setSource =>
    intro i tag l txn k c s h hk hcode
    rw [exec_legCtrlSetSource, execLegCtrlSetSource, orClose_leg h, writeLegCtrlSetSource, if_pos ⟨hk, hcode⟩,
      legCtrl_takes h]
  case setMax =>
    intro i tag l txn k c s h hk hc hcode
    rw [exec_legCtrlSetMax, execLegCtrlSetMax, orClose_leg h, writeLegCtrlSetMax, if_pos ⟨hk, hc, hcode⟩, legCtrl_takes h]
  case refresh =>
    intro i tag l txn k s h hk
    rw [exec_legCtrlRefresh, execLegCtrlRefresh, orClose_leg h, writeLegCtrlRefresh, if_pos hk, legCtrl_takes h]

end Sys2Proof.Machine

/-! # Writes of pictures and transfers (O30) -/
namespace Sys2Proof.Machine

/-- Settles O30: each row reaches its write (`orClose_takes`); an enable whose domain is awake waits for none
(`runEnable_takes`). -/
theorem pictureKeysTakeEffect : Obligations.PictureKeysTakeEffect := by
  unfold Obligations.PictureKeysTakeEffect
  refine ⟨?decEn, ?encEn, ?refresh, ?layerCopy, ?outEn, ?ovlBase, ?dmaEn⟩
  case decEn =>
    intro i tag c on s h hmedia hst hawake
    rw [exec_decEn, execDecEn, orClose_takes h, writeDecEn, hmedia, hst, worst_ok, runEnable_takes (by decide) h hawake]
  case encEn =>
    intro i tag e on s h hmedia hst hawake
    rw [exec_encEn, execEncEn, orClose_takes h, writeEncEn, hmedia, hst, worst_ok, runEnable_takes (by decide) h hawake]
  case refresh =>
    intro i tag e s h
    rw [exec_refresh, execRefresh, orClose_takes h, writeRefresh, runCmd_takes h]
  case layerCopy =>
    intro i tag o s h hidle
    rw [exec_layerCopy, execLayerCopy, orClose_takes h, writeLayerCopy, hidle, if_neg Bool.false_ne_true, runCmd_takes h]
  case outEn =>
    intro i tag o on s h hmedia hst hawake
    rw [exec_outEn, execOutEn, orClose_takes h, writeOutEn, hmedia, hst, worst_ok, runEnable_takes (by decide) h hawake]
  case ovlBase =>
    intro i tag v b s h haligned hwide
    rw [exec_ovlBase, execOvlBase, orClose_takes h, writeOvlBase, if_pos ⟨haligned, hwide⟩, runWriteV_takes (by decide) h]
  case dmaEn =>
    intro i tag n on s h hst
    rw [exec_dmaEn, execDmaEn, orClose_takes h, writeDmaEn, hst, runWrite_takes (by decide) h]

end Sys2Proof.Machine

/-! # Host doorbells, enqueues, delayed and waiting items (O36) -/
namespace Sys2Proof.Machine

section Doorbell

variable {q v : Nat} {s : State}

theorem sqTailPut_disabled (hoff : rd s (K.SQ_EN q) = 0) : sqTailPut q v s = bump (K.SQ_REJECTED q) s := by
  rw [sqTailPut, if_pos hoff]

theorem sqTailPut_same (hon : rd s (K.SQ_EN q) ≠ 0) (hsame : v % 64 = (sqOf s q).tail) : sqTailPut q v s = s := by
  rw [sqTailPut, if_neg hon, if_pos hsame]

/-- R157: a tail past HEAD − 1 is no tail of the queue. -/
theorem sqTailPut_beyond (hon : rd s (K.SQ_EN q) ≠ 0) (hmoves : v % 64 ≠ (sqOf s q).tail)
    (hbeyond : ((sqOf s q).head + 63 - (sqOf s q).tail) % 64 < (v % 64 + 64 - (sqOf s q).tail) % 64) :
    sqTailPut q v s = bump (K.SQ_REJECTED q) s := by
  rw [sqTailPut, if_neg hon, if_neg hmoves, if_pos hbeyond]

theorem sqTailPut_reads (hon : rd s (K.SQ_EN q) ≠ 0) (hmoves : v % 64 ≠ (sqOf s q).tail)
    (hfits : (v % 64 + 64 - (sqOf s q).tail) % 64 ≤ ((sqOf s q).head + 63 - (sqOf s q).tail) % 64)
    (hrun : hubPower s = hpRun) : sqTailPut q v s = sqRead q 64 (sqUpd q (fun x => { x with tail := v % 64 }) s) := by
  have hstill : hubPower (sqUpd q (fun x => { x with tail := v % 64 }) s) = hpRun := hrun
  rw [sqTailPut, if_neg hon, if_neg hmoves, if_neg (Nat.not_lt.mpr hfits)]
  exact if_pos hstill

end Doorbell

section Enqueues

variable {source slot : Nat} {it jt : Item} {s : State}

/-- R138, R151: work waits at its port during a replay and on a hub that does not serve. -/
theorem enqueue_held (hwait : replaying s = true ∨ serves s = false) : enqueue source slot it s = (.held, s) := by
  have hport : (replaying s || !serves s || (isDurable it && s.pair.holding)) = true := by
    rcases hwait with hreplay | hother
    · rw [hreplay, Bool.true_or, Bool.true_or]
    · rw [hother, Bool.not_false, Bool.or_true, Bool.true_or]
  exact if_pos hport

section Presented

variable (hjt : jt = { it with source := source, accept := 0 }) (hreplay : replaying s = false) (hserves : serves s = true)
include hjt hreplay hserves

/-- A port that holds nothing back presents the item to the checks of Table SCH-3. -/
theorem not_held_of_serving (hfree : (isDurable it && s.pair.holding) = false) :
    ¬ (replaying s || !serves s || (isDurable jt && s.pair.holding)) = true := by
  have hsame : isDurable jt = isDurable it := by rw [hjt]; rfl
  simp [hreplay, hserves, hsame, hfree]

theorem enqueue_rejected (hfree : (isDurable it && s.pair.holding) = false) (hbad : enqueueCheck s source jt ≠ .ok) :
    enqueue source slot it s
      = (.rejected (enqueueCheck s source jt), reject source jt (enqueueCheck s source jt) s) := by
  -- `hbad` rules out the arm of `.ok`
  simp only [enqueue, ← hjt, if_neg (not_held_of_serving hjt hreplay hserves hfree)]

/-- A non-durable item that passes the checks takes the next acceptance number and is staged. -/
theorem enqueue_accepted {c : Nat} {any : Bool} (hvolatile : isDurable it = false)
    (hok : enqueueCheck s source jt = .ok) (hawake : parkedFor s jt = none) (hstage : stageIn s jt = some (c, any)) :
    enqueue source slot it s = (.accepted s.sch.nextAccept,
      place { it := { jt with accept := s.sch.nextAccept }, accept := s.sch.nextAccept, cluster := c, anywhere := any }
        (syncAccept (vane vEnqueue jt 0 0xFF c (bump (K.CL_STAGED c) { s with sch.nextAccept := s.sch.nextAccept + 1 })))) := by
  have hfree : (isDurable it && s.pair.holding) = false := by rw [hvolatile, Bool.false_and]
  have hsame : ¬ isDurable jt = true := by rw [hjt]; simpa [isDurable] using hvolatile
  simp only [enqueue, ← hjt, if_neg (not_held_of_serving hjt hreplay hserves hfree), hok, hawake, hstage, if_neg hsame]
  subst hjt
  rfl

end Presented

end Enqueues

section Due

variable {s : State}

theorem exec_delayDue_running (hrun : hubPower s = hpRun) : exec .delayDue s = .next (delayDue s) := by
  simp only [exec_delayDue, execDelayDue, if_pos hrun]

/-- R140: a sleeping hub wakes for the first item of the delay list. -/
theorem exec_delayDue_asleep {t : Instant} (hsleep : hubPower s ≠ hpRun) (hfirst : delayFirst s = some t)
    (hdue : t ≤ s.isb.now) : exec .delayDue s = .next (wakeHub 0x12 s) := by
  simp only [exec_delayDue, execDelayDue, if_neg hsleep, hfirst, decide_eq_true hdue, if_true]

end Due

/-- Settles O36: doorbells by what `sqTailPut` does with the tail, enqueues by what `enqueue` answers, the delay list by
the hub's power state; the register reads and the wait's end are their own equations. -/
theorem workIsSubmitted : Obligations.WorkIsSubmitted := by
  unfold Obligations.WorkIsSubmitted
  refine ⟨?disabled, ?same, ?beyond, ?reads, ?sqErr, ?acceptLo, ?accepted, ?rejected, ?held, ?running, ?asleep, ?waited⟩
  case disabled =>
    intro q v s hoff
    rw [exec_sqTailWrite, execSqTailWrite, sqTailPut_disabled hoff]
  case same =>
    intro q v s hon hsame
    rw [exec_sqTailWrite, execSqTailWrite, sqTailPut_same hon hsame]
  case beyond =>
    intro q v s hon hmoves hbeyond
    rw [exec_sqTailWrite, execSqTailWrite, sqTailPut_beyond hon hmoves hbeyond]
  case reads =>
    intro q v s hon hmoves hfits hrun
    rw [exec_sqTailWrite, execSqTailWrite, sqTailPut_reads hon hmoves hfits hrun]
  case sqErr =>
    intro fn q s
    rw [exec_sqErrRead, execSqErrRead, sqErrValue]
  case acceptLo =>
    intro fn s
    rw [exec_acceptLoRead, execAcceptLoRead]
  case accepted =>
    intro source c any it jt s hjt hreplay hserves hvolatile hok hawake hstage
    rw [exec_workEnqueue, execWorkEnqueue, presentItem,
      enqueue_accepted hjt hreplay hserves hvolatile hok hawake hstage]
  case rejected =>
    intro source it jt s hjt hreplay hserves hfree hbad
    have hport : { jt with source := source } = jt := by rw [hjt]
    rw [exec_workEnqueue, execWorkEnqueue, presentItem, enqueue_rejected hjt hreplay hserves hfree hbad, reject, hport]
  case held =>
    intro source it s hwait
    rw [exec_workEnqueue, execWorkEnqueue, presentItem, enqueue_held hwait]
  case running => exact fun s hrun => exec_delayDue_running hrun
  case asleep => exact fun s t hsleep hfirst hdue => exec_delayDue_asleep hsleep hfirst hdue
  case waited =>
    intro accept s
    rw [exec_affinityWaitExpiry, execAffinityWaitExpiry]

end Sys2Proof.Machine

/-! # The acceptance of journal entries, checkpoints, mirror copies (O37) -/
namespace Sys2Proof.Machine

section Acceptance

variable {s : State} {e : JEntry} (hnext : nextEntry s = some e)
include hnext

theorem exec_journalAccept_takes (hserves : serves s = true) (hcopied : (pairHealthy s && !e.peerAck) = false) :
    exec .journalAccept s = .next (acceptEntry e s) := by
  have hgo : ¬ (!serves s || (pairHealthy s && !e.peerAck)) = true := by
    rw [hserves, hcopied]
    exact Bool.false_ne_true
  simp only [exec_journalAccept, execJournalAccept, hnext, if_neg hgo]

/-- R146: in a HEALTHY pair an entry waits for the peer's copy. -/
theorem exec_journalAccept_waits (hhealthy : pairHealthy s = true) (hpeer : e.peerAck = false) :
    exec .journalAccept s = .next s := by
  have hwait : (!serves s || (pairHealthy s && !e.peerAck)) = true := by
    rw [hhealthy, hpeer, Bool.not_false, Bool.and_self, Bool.or_true]
  simp only [exec_journalAccept, execJournalAccept, hnext, if_pos hwait]

/-- R146, R456: 20 µs after it was written the entry is accepted on the local copies. -/
theorem exec_peerCopyTimeout_takes (hserves : serves s = true) (hhealthy : pairHealthy s = true)
    (hpeer : e.peerAck = false) (hdue : e.writtenAt + 20 * us1 ≤ clk s) :
    exec .peerCopyTimeout s
      = .next (acceptEntry e (setPairState 3 { s with pair.holding := true, pair.holdAt := clk s })) := by
  have hgo : ¬ (!serves s || !pairHealthy s || e.peerAck || decide (clk s < e.writtenAt + 20 * us1)) = true := by
    rw [hserves, hhealthy, hpeer, decide_eq_false (Nat.not_lt.mpr hdue)]
    exact Bool.false_ne_true
  simp only [exec_peerCopyTimeout, execPeerCopyTimeout, hnext, if_neg hgo]

end Acceptance

section Checkpoints

variable {s : State}

theorem checkpointIsDue_iff : checkpointIsDue s = true ↔
    s.sch.cpDue = true ∨ s.sch.cpAt + rd s K.CHECKPOINT_PERIOD * ms1 ≤ clk s := by
  rw [checkpointIsDue, Bool.or_eq_true, decide_eq_true_eq]

theorem exec_checkpoint_starts (hidle : s.sch.cpRunning = none) (hdue : checkpointIsDue s = true) :
    exec .checkpoint s = .next (checkpointStart s) := by
  have hgo : ¬ (s.sch.cpRunning.isSome = true ∨ checkpointIsDue s = false) := by simp [hidle, hdue]
  rw [exec_checkpoint, execCheckpoint, if_neg hgo]

theorem exec_checkpoint_early (hearly : checkpointIsDue s = false) : exec .checkpoint s = .next s := by
  rw [exec_checkpoint, execCheckpoint, if_pos (.inr hearly)]

/-- R149: the finished checkpoint takes the older area; the newer of the two before it stays. -/
theorem exec_checkpointComplete_done {c : Snapshot} (hrunning : s.sch.cpRunning = some c) :
    exec .checkpointComplete s
      = .next (jrnlFree (wr K.CHECKPOINT_AT (nowNs s) { s with sch.cpRunning := none, sch.cps := c :: s.sch.cps.take 1 })) := by
  simp only [exec_checkpointComplete, execCheckpointComplete, checkpointDone, hrunning]

theorem exec_mirrorCopyDone_mirrors {c m : Nat} {l r : List Nat} (hcopying : s.sch.copying = c :: l)
    (hmirrors : mirrorChans s = m :: r) :
    exec .mirrorCopyDone s
      = .next { (wr K.JRNL_MIRRORS (withBit (rd (regionCopy m c s) K.JRNL_MIRRORS) c true) (regionCopy m c s)) with
        sch.copying := l } := by
  simp only [exec_mirrorCopyDone, execMirrorCopyDone, hcopying, hmirrors]

end Checkpoints

/-- Settles O37: entries by who confirmed their copy, checkpoints by when one is due, a mirror by the channel copied. -/
theorem journalAcceptsAndCheckpoints : Obligations.JournalAcceptsAndCheckpoints := by
  unfold Obligations.JournalAcceptsAndCheckpoints
  refine ⟨?takes, ?waits, ?timeout, ?starts, ?early, ?snapshot, ?complete, ?mirror⟩
  case takes => exact fun s e hnext hserves hcopied => exec_journalAccept_takes hnext hserves hcopied
  case waits => exact fun s e hnext hhealthy hpeer => exec_journalAccept_waits hnext hhealthy hpeer
  case timeout =>
    exact fun s e hnext hserves hhealthy hpeer hdue => exec_peerCopyTimeout_takes hnext hserves hhealthy hpeer hdue
  case starts =>
    intro s hidle hdue
    rw [exec_checkpoint_starts hidle (checkpointIsDue_iff.mpr hdue), checkpointStart]
  case early =>
    intro s hperiod hbefore
    have hnone : ¬ (s.sch.cpDue = true ∨ s.sch.cpAt + rd s K.CHECKPOINT_PERIOD * ms1 ≤ clk s) := by
      simp [hperiod, hbefore]
    exact exec_checkpoint_early (Bool.eq_false_iff.mpr (mt checkpointIsDue_iff.mp hnone))
  case snapshot => exact fun s => ⟨rfl, rfl, rfl, rfl⟩
  case complete => exact fun s c hrunning => exec_checkpointComplete_done hrunning
  case mirror => exact fun s c m l r hcopying hmirrors => exec_mirrorCopyDone_mirrors hcopying hmirrors

end Sys2Proof.Machine

/-! # Work on the engines, their faults, tick slots, kernel images (O38) -/
namespace Sys2Proof.Machine

section Requests

variable {me : Fin 128} {s u : State}

theorem dispatch_starts {n : Nat} {st : Staged} (hasks : meAsks s n = true)
    (hfound : scanLevels n (List.range 16) s = (some st, u)) :
    dispatch n s = (some st, startItem n st (meWakes n u)) := by
  have hidle : ¬ (!meAsks s n) = true := by simp [hasks]
  simp only [dispatch, if_neg hidle, hfound]

theorem dispatch_nothing {n : Nat} (hasks : meAsks s n = true) (hnone : scanLevels n (List.range 16) s = (none, u)) :
    dispatch n s = (none, u) := by
  have hidle : ¬ (!meAsks s n) = true := by simp [hasks]
  simp only [dispatch, if_neg hidle, hnone]

/-- R178: an engine whose tick does not run is dispatched at once. -/
theorem exec_meWorkRequest_started {st : Staged} (hno : (meOf s me.val).tick.running = false)
    (hdispatch : dispatch me.val s = (some st, u)) :
    exec (.meWorkRequest me) s
      = .next (if 0x100 ≤ st.it.typ ∧ st.it.typ ≤ 0xFFF then kernelStart me.val st u else u) := by
  have htick : ¬ (meOf s me.val).tick.running = true := by simp [hno]
  simp only [exec_meWorkRequest, execMeWorkRequest, if_neg htick, hdispatch]

theorem exec_meWorkRequest_nothing (hno : (meOf s me.val).tick.running = false)
    (hdispatch : dispatch me.val s = (none, u)) : exec (.meWorkRequest me) s = .next u := by
  have htick : ¬ (meOf s me.val).tick.running = true := by simp [hno]
  simp only [exec_meWorkRequest, execMeWorkRequest, if_neg htick, hdispatch]

theorem exec_itemComplete_firmware {actions : List OutAct} {st : Staged} (hno : (meOf s me.val).work.running = false)
    (hrunning : runningOn s me.val = some st) :
    exec (.itemComplete me actions) s
      = .next (completeItem me.val st actions (vane vComplete st.it st.accept me.val ((clk s - st.startedAt) / ns1)
        (endRun me.val st s))) := by
  have hfirmware : ¬ (meOf s me.val).work.running = true := by simp [hno]
  simp only [exec_itemComplete, execItemComplete, if_neg hfirmware, completeOn, hrunning]

end Requests

section Upsets

variable {s u : State}

/-- R139: past its limit a run is handled as a fault of its engine. -/
theorem exec_runLimitExceeded_past {me : Fin 128} {st : Staged} (hrunning : runningOn s me.val = some st)
    (hpast : st.startedAt + st.limit + st.paused + tickTook s me.val < clk s) :
    exec (.runLimitExceeded me) s = exec (.meFault me) s := by
  simp only [exec_runLimitExceeded, execRunLimitExceeded, hrunning, if_pos hpast, exec_meFault, execMeFault]

theorem exec_runLimitExceeded_within {me : Fin 128} {st : Staged} (hrunning : runningOn s me.val = some st)
    (hwithin : clk s ≤ st.startedAt + st.limit + st.paused + tickTook s me.val) :
    exec (.runLimitExceeded me) s = .next s := by
  simp only [exec_runLimitExceeded, execRunLimitExceeded, hrunning, if_neg (Nat.not_lt.mpr hwithin)]

theorem meFault_counted {n : Nat} (hupset : upset cME n (bump (K.ME_UPSETS n) s) = (u, false)) :
    meFault n s = stopBanks (redispatch n u) := by
  simp only [meFault, hupset]

theorem meFault_retired {n : Nat} (hupset : upset cME n (bump (K.ME_UPSETS n) s) = (u, true)) :
    meFault n s = meRetired n u := by
  simp only [meFault, hupset]

theorem exec_clusterFault_counted {cl : Fin 8} (hupset : upset cCluster cl.val s = (u, false)) :
    exec (.clusterFault cl) s = .next (stopBanks (clusterLost cl.val u)) := by
  simp only [exec_clusterFault, execClusterFault, hupset]

theorem exec_clusterFault_retired {cl : Fin 8} (hupset : upset cCluster cl.val s = (u, true)) :
    exec (.clusterFault cl) s = .next (clusterGone cl.val 4 u) := by
  simp only [exec_clusterFault, execClusterFault, hupset]

end Upsets

section Ticks

variable {t : Fin 8} {me : Nat} {s : State}

section Boundary

variable (hon : rd s (K.T_EN t.val) ≠ 0) (hat : atBoundary s = true)
  (hperiod : boundaryNow s % rd s (K.T_PERIOD t.val) = 0)
include hon hat hperiod

theorem slot_at_boundary : ¬ (rd s (K.T_EN t.val) = 0 ∨ atBoundary s = false
    ∨ boundaryNow s % rd s (K.T_PERIOD t.val) ≠ 0) :=
  not_or.mpr ⟨hon, not_or.mpr ⟨ne_false_of_eq_true hat, not_not.mpr hperiod⟩⟩

/-- R178, R179: the last block is taken, the next one written, and bank 1 starts at ENTRY. -/
theorem exec_tickBoundary_switches {w : State} (hengine : rd s (K.T_ACTIVE_ME t.val) = me) (hin : me < 128)
    (hended : (meOf s me).tick.running = false)
    (hw : w = tickUpd t.val (fun x => { x with ran := true }) (tickWrite t.val (tickTake t.val me s) me)) :
    exec (.tickBoundary t) s = .next (bump (K.KRUNS (rd w (K.T_KERNEL t.val)))
      (meUpd me (fun y => { y with tick := tickBank w (rd w (K.T_KERNEL t.val)) y.tick, tickAt := clk w }) w)) := by
  have hready : ¬ (meOf s me).tick.running = true := by simp [hended]
  simp only [exec_tickBoundary, execTickBoundary, if_neg (slot_at_boundary hon hat hperiod), hengine,
    if_neg (Nat.not_le.mpr hin), if_neg hready, ← hw]

/-- R181: while no engine is in use the tick is lost. -/
theorem exec_tickBoundary_lost (hengine : rd s (K.T_ACTIVE_ME t.val) = me) (hnone : 128 ≤ me) :
    exec (.tickBoundary t) s = .next (tickUpd t.val (fun x => { x with ran := true })
      (bump (K.T_OVERRUNS t.val) (tickTake t.val me s))) := by
  simp only [exec_tickBoundary, execTickBoundary, if_neg (slot_at_boundary hon hat hperiod), hengine,
    if_pos hnone]

end Boundary

/-- R180: a tick kernel at its budget is stopped, its block lost. -/
theorem exec_tickBudgetExpiry_stops (hengine : rd s (K.T_ACTIVE_ME t.val) = me) (hon : rd s (K.T_EN t.val) ≠ 0)
    (hin : me < 128) (hrunning : (meOf s me).tick.running = true)
    (hspent : rd s (K.T_BUDGET t.val) * fineTick ≤ tickTook s me) :
    exec (.tickBudgetExpiry t) s = .next (tickLost me (tickStop me s)) := by
  have hover : ¬ (rd s (K.T_EN t.val) = 0 ∨ 128 ≤ me ∨ (meOf s me).tick.running = false
      ∨ tickTook s me < rd s (K.T_BUDGET t.val) * fineTick) :=
    not_or.mpr ⟨hon, not_or.mpr ⟨Nat.not_le.mpr hin,
      not_or.mpr ⟨ne_false_of_eq_true hrunning, Nat.not_lt.mpr hspent⟩⟩⟩
  simp only [exec_tickBudgetExpiry, execTickBudgetExpiry, hengine, if_neg hover]

end Ticks

section Images

variable {k : Fin 64} {s : State}

theorem exec_kimageValidated_ends (hvalidating : rd s (K.KSTATE k.val) = ksValidating) :
    exec (.kimageValidated k) s = .next (validateImage k.val s) := by
  rw [exec_kimageValidated, execKimageValidated, if_pos hvalidating]

theorem validateImage_rejected {n c i : Nat} (hbad : imgCheck s (rdBlob s (K.KIMAGE n)) = some (c, i)) :
    validateImage n s = wr (K.KERR n) (c + 256 * i) (wr (K.KSTATE n) ksRejected s) := by
  unfold validateImage
  simp only [hbad]

theorem validateImage_loaded {n : Nat} {u : State} {img : Bytes} (himg : img = rdBlob s (K.KIMAGE n))
    (hgood : imgCheck s img = none)
    (hu : u = sharedInit n img { s with dsp.placed := tabSet none s.dsp.placed n (imgPlace s img) }) :
    validateImage n s = syncKernelSpace (wr (K.KERR n) 0 (wr (K.KCODE n) (codeLen img) (wr (K.KID n) (leAt img 8 4)
      (wr (K.KSTATE n) ksLoaded u)))) := by
  unfold validateImage
  simp only [← himg, hgood, ← hu]

end Images

/-- Settles O38: requests by what the engine's dispatch finds, faults by whether the upset retires, tick slots by their
boundary and budget, images by the first failing check. -/
theorem enginesRunItems : Obligations.EnginesRunItems := by
  unfold Obligations.EnginesRunItems
  refine ⟨?started, ?nothing, ?complete, ?past, ?within, ?counted, ?retired, ?clusterCounted, ?clusterRetired, ?switches,
    ?lost, ?budget, ?rejected, ?loaded⟩
  case started =>
    exact fun me s u st hno hasks hfound => exec_meWorkRequest_started hno (dispatch_starts hasks hfound)
  case nothing =>
    exact fun me s u hno hasks hnone => exec_meWorkRequest_nothing hno (dispatch_nothing hasks hnone)
  case complete => exact fun me actions s st hno hrunning => exec_itemComplete_firmware hno hrunning
  case past => exact fun me s st hrunning hpast => exec_runLimitExceeded_past hrunning hpast
  case within => exact fun me s st hrunning hwithin => exec_runLimitExceeded_within hrunning hwithin
  case counted =>
    intro me s u hupset
    rw [exec_meFault, execMeFault, meFault_counted hupset]
  case retired =>
    intro me s u hupset
    rw [exec_meFault, execMeFault, meFault_retired hupset, meRetired]
  case clusterCounted => exact fun cl s u hupset => exec_clusterFault_counted hupset
  case clusterRetired =>
    intro cl s u hupset
    rw [exec_clusterFault_retired hupset, clusterGone]
  case switches =>
    exact fun t me s hengine hon hat hperiod hin hended w hw =>
      exec_tickBoundary_switches hon hat hperiod hengine hin hended hw
  case lost => exact fun t s hon hat hperiod hnone => exec_tickBoundary_lost hon hat hperiod rfl hnone
  case budget =>
    exact fun t me s hengine hon hin hrunning hspent => exec_tickBudgetExpiry_stops hengine hon hin hrunning hspent
  case rejected =>
    intro k s hvalidating c i hbad
    rw [exec_kimageValidated_ends hvalidating, validateImage_rejected hbad]
  case loaded =>
    intro k s u img hvalidating himg hgood hu
    rw [exec_kimageValidated_ends hvalidating, validateImage_loaded himg hgood hu]

end Sys2Proof.Machine

/-! # Supplies, reset, the boot steps and the end of replay (O55) -/
namespace Sys2Proof.Machine

section Supplies

variable {s t : State}

theorem exec_vddIoRise_enables (hoff : s.boot.supply = false ∨ s.pwr.hpwrEn = false) :
    exec .vddIoRise s = .next (emit (.pin "HPWR_EN" true) { s with boot.supply := true, pwr.hpwrEn := true }) := by
  have hnew : ¬ (s.boot.supply = true ∧ s.pwr.hpwrEn = true) := by
    rintro ⟨hsupply, henabled⟩
    rcases hoff with hoff | hoff
    · exact absurd (hsupply.symm.trans hoff) (by decide)
    · exact absurd (henabled.symm.trans hoff) (by decide)
  rw [exec_vddIoRise, execVddIoRise, if_neg hnew]

theorem exec_vddIoRise_present (hsupply : s.boot.supply = true) (henabled : s.pwr.hpwrEn = true) :
    exec .vddIoRise s = .next s := by
  rw [exec_vddIoRise, execVddIoRise, if_pos ⟨hsupply, henabled⟩]

/-- R504: after the loss of VDD_IO records go on from the number after the newest in flash. -/
theorem exec_vddIoRemoved_clears (ht : t = hubClear s) :
    exec .vddIoRemoved s = .next (wr K.STORM_HELD 0 { t with
      boot.supply := false, pwr.hpwrEn := false, pwr.vmePg := false, pwr.vsdPg := false
      diag.ring := [], diag.seq := (t.diag.flash.head?.map (fun r => r.seq + 1)).getD 0, diag.suspended := false }) := by
  simp only [exec_vddIoRemoved, execVddIoRemoved, ← ht]
  cases t.diag.flash <;> rfl

theorem exec_rstNLow_clears (ht : t = hubClear s) :
    exec .rstNLow s = .next { t with boot.rstLow := true, diag.suspended := false } := by
  simp only [exec_rstNLow, execRstNLow, ← ht]

theorem exec_coreBrownout_clears (hhigh : s.boot.rstLow = false) (hstarted : s.boot.step ≠ 0) :
    exec .coreBrownout s = .next (hubClear s) := by
  have hgo : ¬ (s.boot.rstLow = true ∨ s.boot.step = 0) := by simp [hhigh, hstarted]
  rw [exec_coreBrownout, execCoreBrownout, if_neg hgo]

theorem exec_coldBoot_starts {pin : Bool} (hstep : s.boot.step = 0) (hsupply : s.boot.supply = true)
    (henabled : s.pwr.hpwrEn = true) (hfree : s.diag.suspended = false) :
    exec (.coldBoot pin) s = .next (coldStart (wr K.PAIR_ROLE_PIN (b2n pin)
      { s with boot.rstLow := false, flt.pairRolePin := pin })) := by
  have hgo : ¬ (s.boot.step ≠ 0 ∨ s.boot.supply = false ∨ s.pwr.hpwrEn = false ∨ s.diag.suspended = true) := by
    simp [hstep, hsupply, henabled, hfree]
  rw [exec_coldBoot, execColdBoot, if_neg hgo]

end Supplies

section Steps

variable {ch : List ChFact} {cells : Nat} {s t : State} (hboot : s.boot.recovery = false)
include hboot

theorem bootStep_links (hstep : s.boot.step = 1) (hsettled : settled s [12] = true) :
    exec (.bootStepComplete ch cells) s = .next { s with flt.pcieUp := !s.flt.perstLow, boot.step := 2 } := by
  simp only [exec_bootStepComplete, execBootStepComplete, hboot, Bool.false_eq_true, if_false, hstep, if_pos hsettled]

theorem bootStep_firmware (hstep : s.boot.step = 2) (ht : t = bootFirmware s) :
    exec (.bootStepComplete ch cells) s = .next { t with boot.step := 3 } := by
  simp only [exec_bootStepComplete, execBootStepComplete, hboot, Bool.false_eq_true, if_false, hstep, ← ht]

/-- R475: without a memory channel the boot goes on at step 7. -/
theorem bootStep_memory (hstep : s.boot.step = 3) (hsettled : settled s [18] = true) (ht : t = bootMemory ch s) :
    exec (.bootStepComplete ch cells) s = .next (if t.boot.ddrFailed = true then { t with boot.step := 7 }
      else { imageCopied (mirrorsSet t) with boot.step := 4 }) := by
  simp only [exec_bootStepComplete, execBootStepComplete, hboot, Bool.false_eq_true, if_false, hstep, if_pos hsettled, ← ht]

theorem bootStep_clusters (hstep : s.boot.step = 4) (hsettled : settled s [1, 2, 3, 4, 5, 6, 7, 8, 9] = true)
    (ht : t = wr K.SCHED_STATE 0 s) : exec (.bootStepComplete ch cells) s = .next { t with boot.step := 5 } := by
  simp only [exec_bootStepComplete, execBootStepComplete, hboot, Bool.false_eq_true, if_false, hstep, if_pos hsettled, ← ht]

theorem bootStep_pool (hstep : s.boot.step = 5) (hsettled : settled s [10] = true)
    (ht : t = poolFailedCause (poolTested cells s)) :
    exec (.bootStepComplete ch cells) s = .next { t with boot.step := 6 } := by
  simp only [exec_bootStepComplete, execBootStepComplete, hboot, Bool.false_eq_true, if_false, hstep, if_pos hsettled, ← ht]

theorem bootStep_values (hstep : s.boot.step = 6) (ht : t = bootValues s) :
    exec (.bootStepComplete ch cells) s = .next { t with boot.step := 7 } := by
  simp only [exec_bootStepComplete, execBootStepComplete, hboot, Bool.false_eq_true, if_false, hstep, ← ht]

/-- R463: a hub of a pair looks for its peer before its mode. -/
theorem bootStep_pair (hstep : s.boot.step = 7) :
    exec (.bootStepComplete ch cells) s = .next (if rd s K.PAIR_EN = 1 then
      { s with boot.step := 8, pair.startAt := some (clk s) } else { s with boot.step := 8 }) := by
  simp only [exec_bootStepComplete, execBootStepComplete, hboot, Bool.false_eq_true, if_false, hstep]
  rfl

theorem bootStep_mode (hstep : s.boot.step = 8) (halone : s.pair.startAt = none) (hsettled : settled s hubDomains = true) :
    exec (.bootStepComplete ch cells) s = .next (modeStart s) := by
  have hgo : ¬ (s.pair.startAt.isSome = true ∨ settled s hubDomains = false) := by simp [halone, hsettled]
  simp only [exec_bootStepComplete, execBootStepComplete, hboot, Bool.false_eq_true, if_false, hstep, if_neg hgo]

end Steps

/-- R151, R446: the values are restored and the work lost named; then the third watchdog reset within 600 s holds SAFE,
and a pair starts before the mode. -/
theorem exec_replayDone_enters {locked : Bool} {lost : List Nat} {s t u v : State} (hreplay : rd s K.SCHED_STATE = 1)
    (hstep : 9 ≤ s.boot.step) (ht : t = lost.foldl (fun z n => entryLost n z) (replayValues lost s))
    (hu : u = schEvt 11 (wr K.REPLAY_TIME ((clk t - t.sch.replayAt) / us1) (wr K.SCHED_STATE 0 t)))
    (hclock : rd u K.LIMP ≠ 1) (hwarm : u.boot.step ≠ 1)
    (hv : v = (if (rd u K.LAST_RESET == 2 && decide (3 ≤ (wdtRecent u).length)) = true then { u with
      boot.safeCauses := u.boot.safeCauses ++ [3], boot.safeHolds := true } else u)) :
    exec (.replayDone locked lost) s
      = .next (if rd v K.PAIR_EN = 1 then { v with pair.startAt := some (clk v) } else safeCleared 3 (modeStart v)) := by
  have hgo : ¬ (rd s K.SCHED_STATE ≠ 1 ∨ s.boot.step < 9) := by simp [hreplay, Nat.not_lt.mpr hstep]
  simp only [exec_replayDone, execReplayDone, if_neg hgo, ← ht, ← hu, if_neg hclock, if_neg hwarm, upd, ← hv]
  split <;> rfl

/-- Settles O55: supplies and resets by what they clear, each boot step by its own lemma, a replay that ended by
`exec_replayDone_enters`. -/
theorem hubStartsAndStops : Obligations.HubStartsAndStops := by
  unfold Obligations.HubStartsAndStops
  refine ⟨?rise, ?present, ?removed, ?rstLow, ?brownout, ?coldBoot, ?steps, ?replayDone⟩
  case rise => exact fun s hoff => exec_vddIoRise_enables hoff
  case present => exact fun s hsupply henabled => exec_vddIoRise_present hsupply henabled
  case removed => exact fun s t ht => exec_vddIoRemoved_clears ht
  case rstLow => exact fun s t ht => exec_rstNLow_clears ht
  case brownout => exact fun s hhigh hstarted => exec_coreBrownout_clears hhigh hstarted
  case coldBoot => exact fun pin s hstep hsupply henabled hfree => exec_coldBoot_starts hstep hsupply henabled hfree
  case steps =>
    intro ch cells s hboot
    refine ⟨?links, ?firmware, ?memory, ?clusters, ?pool, ?values, ?pair, ?alone, ?mode⟩
    case links => exact fun hstep hsettled => bootStep_links hboot hstep hsettled
    case firmware => exact fun hstep t ht => bootStep_firmware hboot hstep ht
    case memory => exact fun hstep hsettled t ht => bootStep_memory hboot hstep hsettled ht
    case clusters => exact fun hstep hsettled t ht => bootStep_clusters hboot hstep hsettled ht
    case pool => exact fun hstep hsettled t ht => bootStep_pool hboot hstep hsettled ht
    case values => exact fun hstep t ht => bootStep_values hboot hstep ht
    case pair =>
      intro hstep hpair
      rw [bootStep_pair hboot hstep, if_pos hpair]
    case alone =>
      intro hstep halone
      rw [bootStep_pair hboot hstep, if_neg halone]
    case mode => exact fun hstep halone hsettled => bootStep_mode hboot hstep halone hsettled
  case replayDone =>
    exact fun locked lost s t u hreplay hstep ht hu hclock hwarm v hv =>
      exec_replayDone_enters hreplay hstep ht hu hclock hwarm hv

end Sys2Proof.Machine

/-! # Words an engine issues: products, accumulators and lanes (O33, O34)

A PAR word that may issue ends in `parIssued` with the operation's own writes (`issuePar_issued`); what is left of each
row of Table DSP-5 is which writes those are. -/
namespace Sys2Proof.Machine

/-- Settles O33: each word issues by `issuePar_issued` with the products or accumulator writes of its row. -/
theorem engineMultipliesAndAccumulates : Obligations.EngineMultipliesAndAccumulates := by
  unfold Obligations.EngineMultipliesAndAccumulates
  intro me tick b w s
  refine ⟨?nop, ?mpy, ?mac, ?msu, ?mpy2, ?mac2, ?macx, ?cmpy, ?cmac, ?aadd, ?asub, ?ash, ?aclr, ?amov, ?rnd, ?rndh⟩
    <;> intro h
  case nop => rw [exec_nop, execNop, issuePar_issued h]
  case mpy => simp only [exec_mpy, execMpy, issuePar_issued h, accSet, prodU]
  case mac => simp only [exec_mac, execMac, issuePar_issued h, accPlus, prodU]
  case msu => simp only [exec_msu, execMsu, issuePar_issued h, accPlus, prodU]
  case mpy2 => simp only [exec_mpy2, execMpy2, issuePar_issued h, accSet, prod2]
  case mac2 => simp only [exec_mac2, execMac2, issuePar_issued h, accPlus, prod2]
  case macx => simp only [exec_macx, execMacx, issuePar_issued h, accPlus, prodX]
  case cmpy => rw [exec_cmpy, execCmpy, issuePar_issued h, accSet]
  case cmac => rw [exec_cmac, execCmac, issuePar_issued h, accPlus]
  case aadd => rw [exec_aadd, execAadd, issuePar_issued h, accSet]
  case asub => rw [exec_asub, execAsub, issuePar_issued h, accSet]
  case ash => rw [exec_ash, execAsh, issuePar_issued h, accSet]
  case aclr => rw [exec_aclr, execAclr, issuePar_issued h]
  case amov => rw [exec_amov, execAmov, issuePar_issued h, accSet]
  case rnd => rw [exec_rnd, execRnd, issuePar_issued h]
  case rndh => rw [exec_rndh, execRndh, issuePar_issued h]

/-- Settles O34: each word issues by `issuePar_issued` with the lane writes of its row. -/
theorem engineLaneOperations : Obligations.EngineLaneOperations := by
  unfold Obligations.EngineLaneOperations
  intro me tick b w s
  refine ⟨?add, ?sub, ?bfly, ?abs, ?neg, ?min, ?max, ?and, ?or, ?xor, ?shl, ?shr, ?cmp, ?sel, ?perm, ?exp⟩ <;> intro h
  case add => rw [exec_add, execAdd, issuePar_issued h]
  case sub => rw [exec_sub, execSub, issuePar_issued h]
  case bfly => rw [exec_bfly, execBfly, issuePar_issued h, bflyWrites]
  case abs => rw [exec_abs, execAbs, issuePar_issued h]
  case neg => rw [exec_neg, execNeg, issuePar_issued h]
  case min => rw [exec_min, execMin, issuePar_issued h]
  case max => rw [exec_max, execMax, issuePar_issued h]
  case and => rw [exec_and, execAnd, issuePar_issued h]
  case or => rw [exec_or, execOr, issuePar_issued h]
  case xor => rw [exec_xor, execXor, issuePar_issued h]
  case shl => rw [exec_shl, execShl, issuePar_issued h, shiftN]
  case shr => rw [exec_shr, execShr, issuePar_issued h, shiftN]
  case cmp => rw [exec_cmp, execCmp, issuePar_issued h]
  case sel => rw [exec_sel, execSel, issuePar_issued h]
  case perm => rw [exec_perm, execPerm, issuePar_issued h]
  case exp => rw [exec_exp, execExp, issuePar_issued h]

end Sys2Proof.Machine

/-! # Words an engine issues: move slots and control (O35) -/
namespace Sys2Proof.Machine

section Words

variable {s : State} {tick : Bool} {b : Bank} {w : Nat}

section Moves

variable {me mop : Nat} {y : Bool} (hissuing : issuing s me tick b w = true) (hpar : wFmt w = 0)
  (hmop : mMop (wSlot w y) = mop)

include hissuing hpar hmop

/-- R164: a slot of the word acts once where neither slot faults. -/
theorem issueMove_acts (hfine : parFault s tick b w = none) :
    issueMove mop y me s = setBank me tick (doSlotOnce y (wSlot w y) (meOf s me) b).2
      (meUpd me (fun _ => (doSlotOnce y (wSlot w y) (meOf s me) b).1) s) := by
  rw [issueMove, onIssue_of hissuing (by simp [hpar, hmop])]
  simp only [hfine]

/-- R177: a fault of either slot ends the kernel before a slot acts. -/
theorem issueMove_faults {c : Nat} (hfault : parFault s tick b w = some c) :
    issueMove mop y me s = kernelFault me tick b c s := by
  rw [issueMove, onIssue_of hissuing (by simp [hpar, hmop])]
  simp only [hfault]

end Moves

/-- A control word that may issue runs its operation's own action. -/
theorem onIssue_ctl {me op : Nat} (h : issuingCtl s me tick b w op = true) (f : Bool → Bank → Nat → State → State) :
    onIssue me (fun w => wFmt w == 1 && wOp w == op) f s = f tick b w s := by
  obtain ⟨hissuing, hctl, hop⟩ := issuingCtl_parts h
  exact onIssue_of hissuing (by simp [hctl, hop]) f

variable {me : Fin 128}

/-- R170: a loop with a count goes on the loop stack while the stack has room. -/
theorem exec_loop_pushes (h : issuingCtl s me.val tick b w 0x07 = true) (hcount : loopCount w b ≠ 0)
    (hroom : b.loops.length < 4) :
    exec (.loop me) s = .next (setBank me.val tick (endCycle { b with
      pc := b.pc + 1, loops := (b.pc + 1, wImm16 w % 16384, loopCount w b) :: b.loops }) s) := by
  rw [exec_loop, execLoop, onIssue_ctl h]
  simp only [if_neg hcount, if_neg (Nat.not_le.mpr hroom)]

/-- R170: a loop with count 0 is passed over, whatever the loop stack holds (assumption 155). -/
theorem exec_loop_passes (h : issuingCtl s me.val tick b w 0x07 = true) (hcount : loopCount w b = 0) :
    exec (.loop me) s = .next (setBank me.val tick (endCycle { b with pc := wImm16 w % 16384 + 1 }) s) := by
  rw [exec_loop, execLoop, onIssue_ctl h]
  simp only [if_pos hcount]

/-- R173: issue stops until the shared data arrives. -/
theorem exec_ldc_stalls (h : issuingCtl s me.val tick b w 0x08 = true) (haligned : ldcOffset w b % 16 = 0)
    (hinside : ldcOffset w b + 16 ≤ leAt (rdBlob s (K.KIMAGE b.kernel)) 16 4) :
    exec (.ldc me) s = .next (setBank me.val tick { b with stall := some (wCd w, ldcOffset w b) } s) := by
  rw [exec_ldc, execLdc, onIssue_ctl h]
  simp only [haligned, ne_eq, not_true_eq_false, if_false, if_neg (Nat.not_lt.mpr hinside)]

theorem exec_ldcDataArrive_resumes {r off : Nat} (hactive : activeBank s me.val = some (tick, b))
    (hstall : b.stall = some (r, off)) :
    exec (.ldcDataArrive me) s = .next (setBank me.val tick (advance (issue 1 ((List.range 4).map (fun l =>
      RegWrite.lane r l (leVal (memRead s (sharedAt s (clusterOf me.val) b.kernel + off + 4 * l) 4))))
        { b with stall := none })) s) := by
  simp only [exec_ldcDataArrive, execLdcDataArrive, hactive, hstall]

end Words

/-- Settles O35: moves by `issueMove_acts` and `issueMove_faults`, register writes by `issueCtl_issued`, the other control
words by what they do with the bank. -/
theorem engineMovesAndControl : Obligations.EngineMovesAndControl := by
  unfold Obligations.EngineMovesAndControl
  intro me tick b w s
  refine ⟨?ld, ?st, ?ldb, ?pupd, ?faults, ?cnop, ?setv, ?setp, ?setm, ?addp, ?clrf, ?rdst, ?bra, ?bcc, ?pushes, ?passes,
    ?stalls, ?resumes, ?halt⟩
  case ld =>
    intro y hissuing hpar hmop hfine
    rw [exec_ld, execLd, issueMove_acts hissuing hpar hmop hfine]
  case st =>
    intro y hissuing hpar hmop hfine
    rw [exec_st, execSt, issueMove_acts hissuing hpar hmop hfine]
  case ldb =>
    intro y hissuing hpar hmop hfine
    rw [exec_ldb, execLdb, issueMove_acts hissuing hpar hmop hfine]
  case pupd =>
    intro y hissuing hpar hmop hfine
    rw [exec_pupd, execPupd, issueMove_acts hissuing hpar hmop hfine]
  case faults =>
    intro y hissuing hpar hmop c hfault
    rw [exec_ld, execLd, issueMove_faults hissuing hpar hmop hfault]
  case cnop =>
    intro h
    rw [exec_cnop, execCnop, issueCtl_issued h]
  case setv =>
    intro h
    rw [exec_setv, execSetv, issueCtl_issued h]
  case setp =>
    intro h
    rw [exec_setp, execSetp, issueCtl_issued h]
  case setm =>
    intro h
    rw [exec_setm, execSetm, issueCtl_issued h]
  case addp =>
    intro h
    rw [exec_addp, execAddp, issueCtl_issued h]
  case clrf =>
    intro h
    rw [exec_clrf, execClrf, issueCtl_issued h]
  case rdst =>
    intro h
    rw [exec_rdst, execRdst, issueCtl_issued h]
  case bra =>
    intro h
    rw [exec_bra, execBra, onIssue_ctl h]
  case bcc =>
    intro h
    rw [exec_bcc, execBcc, onIssue_ctl h]
  case pushes => exact exec_loop_pushes
  case passes => exact exec_loop_passes
  case stalls => exact exec_ldc_stalls
  case resumes => exact fun r off hactive hstall => exec_ldcDataArrive_resumes hactive hstall
  case halt =>
    intro h
    rw [exec_halt, execHalt, onIssue_ctl h]

end Sys2Proof.Machine

/-! # Serial audio ports, step by step of Table SAP-4 (O39)

Each command of a port first asks whether its step is due. A `_due` lemma answers that once for the clauses that share a
step; what is left of each command is which change of the port the step is. -/
namespace Sys2Proof.Machine

section Port

variable {n : Fin 8} {s u : State}

section Enabled

variable (hphase : (sapOf s n.val).phase = 1) (hat : atBoundary s = true) (hsince : (sapOf s n.val).since < clk s)
include hphase hat hsince

theorem sapClocks_due : ¬ ((sapOf s n.val).phase ≠ 1 ∨ atBoundary s = false ∨ clk s ≤ (sapOf s n.val).since) :=
  not_or.mpr ⟨not_not.mpr hphase, not_or.mpr ⟨ne_false_of_eq_true hat, Nat.not_le.mpr hsince⟩⟩

/-- R193, R197: a master's clocks run and its lead-in begins with its buffers at their target. -/
theorem exec_sapClocksStart_master (hmaster : sapMaster s n.val = true) : exec (.sapClocksStart n) s
    = .next (sapSync n.val (emit (.sapClock n.val (sapBclk s n.val))
        (sapUpd n.val (fun p => { (sapFill s n.val p) with phase := 3, frames := 0 }) s))) := by
  rw [exec_sapClocksStart, execSapClocksStart, if_neg (sapClocks_due hphase hat hsince), if_pos hmaster]

/-- R191: an EXTERNAL port waits for lock. -/
theorem exec_sapClocksStart_external (hslave : sapMaster s n.val = false) : exec (.sapClocksStart n) s
    = .next (sapAsrc 3 n.val (sapUpd n.val (fun p => { p with phase := 2 }) s)) := by
  rw [exec_sapClocksStart, execSapClocksStart, if_neg (sapClocks_due hphase hat hsince),
    if_neg (ne_true_of_eq_false hslave)]

end Enabled

section Locking

variable (hslave : sapMaster s n.val = false) (hgood : 20 ≤ (sapOf s n.val).fs.good) (hrate : rateHolds s n.val = true)
include hslave hgood hrate

/-- R191: a port that waits for lock, or has lost its clock, locks after twenty good frames at its rate. -/
theorem sapLock_due (hwaits : ((sapOf s n.val).phase == 2 || (sapOf s n.val).lost) = true) :
    (sapMaster s n.val || !((sapOf s n.val).phase == 2 || (sapOf s n.val).lost)
      || decide ((sapOf s n.val).fs.good < 20) || !rateHolds s n.val) = false := by
  rw [hslave, hwaits, hrate, decide_eq_false (Nat.not_lt.mpr hgood)]
  rfl

theorem exec_sapLocked_leadIn (hphase : (sapOf s n.val).phase = 2) (hu : u = sapAsrc 2 n.val s) :
    exec (.sapLocked n) s = .next (sapSync n.val (wr (K.SAP_STATE n.val) sapStarting
      (sapUpd n.val (fun p => { (sapFill u n.val p) with phase := 3, frames := 0, lost := false }) u))) := by
  have hdue := sapLock_due hslave hgood hrate (by simp [hphase])
  simp only [exec_sapLocked, execSapLocked, hdue, Bool.false_eq_true, if_false, if_pos hphase, ← hu]

theorem exec_sapLocked_regained (hphase : (sapOf s n.val).phase = 5) (hlost : (sapOf s n.val).lost = true) :
    exec (.sapLocked n) s = .next (sapSync n.val (wr (K.SAP_STATE n.val) sapRun
      (sapUpd n.val (fun p => { p with lost := false }) (sapAsrc 2 n.val s)))) := by
  have hdue := sapLock_due hslave hgood hrate (by simp [hlost])
  have hnotLocking : ¬ (sapOf s n.val).phase = 2 := by simp [hphase]
  have hnotStopping : ¬ 6 ≤ (sapOf s n.val).phase := by simp [hphase]
  simp only [exec_sapLocked, execSapLocked, hdue, Bool.false_eq_true, if_false, if_neg hnotLocking,
    if_neg hnotStopping]

end Locking

section LeadIn

variable (hphase : (sapOf s n.val).phase = 3) (hframes : rd s (K.START_FRAMES n.val) ≤ (sapOf s n.val).frames)
  (hat : atBoundary s = true)
include hphase hframes hat

theorem sapData_due : ¬ ((sapOf s n.val).phase ≠ 3 ∨ (sapOf s n.val).frames < rd s (K.START_FRAMES n.val)
    ∨ atBoundary s = false) :=
  not_or.mpr ⟨not_not.mpr hphase, not_or.mpr ⟨Nat.not_lt.mpr hframes, ne_false_of_eq_true hat⟩⟩

theorem exec_sapStartFramesDone_ungrouped (hgroup : rd s (K.GROUP n.val) = 0xFF) :
    exec (.sapStartFramesDone n) s = .next (sapData n.val s) := by
  simp only [exec_sapStartFramesDone, execSapStartFramesDone, if_neg (sapData_due hphase hframes hat), if_pos hgroup]

/-- R199: a member carries zeros until its group starts it. -/
theorem exec_sapStartFramesDone_member (hgroup : rd s (K.GROUP n.val) ≠ 0xFF) :
    exec (.sapStartFramesDone n) s = .next (sapUpd n.val (fun p => { p with phase := 4 }) s) := by
  simp only [exec_sapStartFramesDone, execSapStartFramesDone, if_neg (sapData_due hphase hframes hat), if_neg hgroup]

end LeadIn

/-- R197: a port with clocks sends zero frames after its ramp; one that waits for a clock has none to send and is OFF
(assumption 96). -/
theorem exec_sapRampOutDone_ends (hphase : (sapOf s n.val).phase = 6)
    (hramp : rampDone (sapOf s n.val).feed.gate = true) :
    exec (.sapRampOutDone n) s = .next (if rd s (K.ASRC_STATE n.val) = 3 then sapStop n.val s
      else sapUpd n.val (fun p => { p with phase := 7, frames := 0 }) s) := by
  have hdue : ¬ ((sapOf s n.val).phase ≠ 6 ∨ rampDone (sapOf s n.val).feed.gate = false) :=
    not_or.mpr ⟨not_not.mpr hphase, ne_false_of_eq_true hramp⟩
  simp only [exec_sapRampOutDone, execSapRampOutDone, if_neg hdue, apply_ite Host.Outcome.next]

theorem exec_sapStopFramesDone_off (hphase : (sapOf s n.val).phase = 7)
    (hframes : rd s (K.START_FRAMES n.val) ≤ (sapOf s n.val).frames) :
    exec (.sapStopFramesDone n) s = .next (sapStop n.val s) := by
  have hdue : ¬ ((sapOf s n.val).phase ≠ 7 ∨ (sapOf s n.val).frames < rd s (K.START_FRAMES n.val)) :=
    not_or.mpr ⟨not_not.mpr hphase, Nat.not_lt.mpr hframes⟩
  rw [exec_sapStopFramesDone, execSapStopFramesDone]
  exact if_neg hdue

/-- R191, R194: a running port whose last FS edge, if any, is two nominal frames old loses its clock. -/
theorem exec_clockLost_silent (hslave : sapMaster s n.val = false) (hphase : (sapOf s n.val).phase = 5)
    (hkept : (sapOf s n.val).lost = false)
    (hsilent : ∀ l, (sapOf s n.val).fs.last = some l → 2 * s1 ≤ (clk s - l) * rd s (K.RATE n.val))
    (hu : u = sapPin n.val 3 false (sapAsrc 3 n.val (sapUpd n.val (fun p => { p with fs := {} })
      (bump (K.UNDERRUNS n.val) (bump (K.CLOCK_LOSSES n.val) (wr (K.MEASURED_RATE n.val) 0 s)))))) :
    exec (.clockLost n) s = .next (sapUpset n.val (sapSync n.val (wr (K.SAP_STATE n.val) sapClockLost
      (sapUpd n.val (fun p => { p with lost := true, feed := feedStale (clk u) p.feed }) u)))) := by
  cases hlast : (sapOf s n.val).fs.last with
  | none =>
    simp only [exec_clockLost, execClockLost, hslave, hphase, hkept, hlast, upd, hu]
    rfl
  | some l =>
    simp only [exec_clockLost, execClockLost, hslave, hphase, hkept, hlast, decide_eq_true (hsilent l hlast), upd, hu]
    rfl

/-- R191: a clock in time and in range stays. -/
theorem exec_clockLost_inTime {l : Instant} (hlast : (sapOf s n.val).fs.last = some l)
    (hsoon : (clk s - l) * rd s (K.RATE n.val) < 2 * s1) (hrate : rateHolds s n.val = true) :
    exec (.clockLost n) s = .next s := by
  simp only [exec_clockLost, execClockLost, hlast, hrate, decide_eq_false (Nat.not_le.mpr hsoon), Bool.not_true,
    Bool.or_self, Bool.not_false, Bool.or_true, if_true]

theorem exec_clockLost_noClock (hnone : (sapMaster s n.val || (sapOf s n.val).lost) = true) :
    exec (.clockLost n) s = .next s := by
  simp only [exec_clockLost, execClockLost, hnone, Bool.true_or, if_true]

/-- R195: a feed that has been STALE for its time, and is not fading yet, is due to fade. -/
theorem staleFade_due {ms : Nat} {f : Feed} (hset : ms ≠ 0) (hstale : f.stale = true) (hpast : f.staleAt + ms * ms1 ≤ clk s)
    (hheard : f.fade.new ≠ 0) : ¬ (ms = 0 ∨ f.stale = false ∨ clk s < f.staleAt + ms * ms1 ∨ f.fade.new = 0) :=
  not_or.mpr ⟨hset, not_or.mpr ⟨ne_false_of_eq_true hstale, not_or.mpr ⟨Nat.not_lt.mpr hpast, hheard⟩⟩⟩

theorem exec_staleFadeExpiry_port {k : Nat} (hset : rd s (K.STALE_FADE k) ≠ 0) (hstale : (sapOf s k).feed.stale = true)
    (hpast : (sapOf s k).feed.staleAt + rd s (K.STALE_FADE k) * ms1 ≤ clk s) (hheard : (sapOf s k).feed.fade.new ≠ 0) :
    exec (.staleFadeExpiry false k) s
      = .next (sapUpd k (fun x => { x with feed := { x.feed with fade := rampTo 0 240 x.feed.fade } }) s) := by
  simp only [exec_staleFadeExpiry, execStaleFadeExpiry, Bool.false_eq_true, if_false,
    if_neg (staleFade_due hset hstale hpast hheard)]

theorem exec_staleFadeExpiry_endpoint {k : Nat} (hset : rd s (K.EP_STALE_FADE k) ≠ 0)
    (hstale : (rxOf s k).feed.stale = true) (hpast : (rxOf s k).feed.staleAt + rd s (K.EP_STALE_FADE k) * ms1 ≤ clk s)
    (hheard : (rxOf s k).feed.fade.new ≠ 0) :
    exec (.staleFadeExpiry true k) s
      = .next (rxUpd k (fun x => { x with feed := { x.feed with fade := rampTo 0 240 x.feed.fade } }) s) := by
  simp only [exec_staleFadeExpiry, execStaleFadeExpiry, if_true, if_neg (staleFade_due hset hstale hpast hheard)]

section Frame

variable {di : List Int} (hasrc : sapBypass s n.val = false) (hstarted : 2 ≤ (sapOf s n.val).phase)
  (hinUse : (sapOf s n.val).phase < 8) (hnow : frameNow s n.val = true)
  (hu : u = if sapMaster s n.val then sapUpd n.val (fun p => { p with fs := { p.fs with last := some (clk s) } }) s
    else fsEdge n.val s)
include hasrc hstarted hinUse hnow hu

/-- A frame that starts now, at `u` once its edge is taken: zeros while the port has no clock to follow, else its samples. -/
theorem exec_sapFrame_starts : exec (.sapFrame n di) s
    = .next (if (sapOf s n.val).phase = 2 ∨ (sapOf s n.val).lost = true then
        sapSend n.val (List.replicate (rd u (K.OUT_CH n.val)) 0) u
      else sapSync n.val (sapDo n.val (sapDi n.val di (sapUpd n.val (fun p => { p with frames := p.frames + 1 }) u)))) := by
  have hdue : (sapBypass s n.val || decide ((sapOf s n.val).phase < 2) || decide (8 ≤ (sapOf s n.val).phase)
      || !frameNow s n.val) = false := by
    rw [hasrc, hnow, decide_eq_false (Nat.not_lt.mpr hstarted), decide_eq_false (Nat.not_le.mpr hinUse)]
    rfl
  simp only [exec_sapFrame, execSapFrame, hdue, Bool.false_eq_true, if_false, ← hu, apply_ite Host.Outcome.next]

end Frame

end Port

/-- Settles O39: each clause by the lemma of its step above. -/
theorem serialPortsRun : Obligations.SerialPortsRun := by
  unfold Obligations.SerialPortsRun
  refine ⟨?master, ?external, ?leadIn, ?regained, ?ungrouped, ?member, ?zeros, ?offAtOnce, ?off, ?neverEdged, ?silent,
    ?inTime, ?noClock, ?portFade, ?endpointFade, ?samples, ?zeroFrame⟩
  case master => exact fun n s hphase hat hsince hmaster => exec_sapClocksStart_master hphase hat hsince hmaster
  case external => exact fun n s hphase hat hsince hslave => exec_sapClocksStart_external hphase hat hsince hslave
  case leadIn => exact fun n s u hslave hphase hgood hrate hu => exec_sapLocked_leadIn hslave hgood hrate hphase hu
  case regained =>
    exact fun n s hslave hphase hlost hgood hrate => exec_sapLocked_regained hslave hgood hrate hphase hlost
  case ungrouped =>
    intro n s hphase hframes hat hgroup
    rw [exec_sapStartFramesDone_ungrouped hphase hframes hat hgroup, sapData]
  case member =>
    exact fun n s hphase hframes hat hgroup => exec_sapStartFramesDone_member hphase hframes hat hgroup
  case zeros =>
    intro n s hphase hramp hclock
    rw [exec_sapRampOutDone_ends hphase hramp, if_neg hclock]
  case offAtOnce =>
    intro n s hphase hramp hnoClock
    rw [exec_sapRampOutDone_ends hphase hramp, if_pos hnoClock]
  case off => exact fun n s hphase hframes => exec_sapStopFramesDone_off hphase hframes
  case neverEdged =>
    intro n s u hslave hphase hkept hnone hu
    exact exec_clockLost_silent hslave hphase hkept (by simp [hnone]) hu
  case silent =>
    intro n l s u hslave hphase hkept hlast hpast hu
    exact exec_clockLost_silent hslave hphase hkept (by simpa [hlast] using hpast) hu
  case inTime => exact fun n l s hlast hsoon hrate => exec_clockLost_inTime hlast hsoon hrate
  case noClock => exact fun n s hnone => exec_clockLost_noClock hnone
  case portFade => exact fun n s hset hstale hpast hheard => exec_staleFadeExpiry_port hset hstale hpast hheard
  case endpointFade =>
    exact fun n s hset hstale hpast hheard => exec_staleFadeExpiry_endpoint hset hstale hpast hheard
  case samples =>
    intro n di s u hasrc hstarted hinUse hkept hnow hu
    have hlive : ¬ ((sapOf s n.val).phase = 2 ∨ (sapOf s n.val).lost = true) := by
      rintro (hlocking | hlost)
      · omega
      · exact absurd (hlost.symm.trans hkept) (by decide)
    rw [exec_sapFrame_starts hasrc (by omega) hinUse hnow hu, if_neg hlive]
  case zeroFrame =>
    intro n di s u hasrc hstarted hinUse hwaits hnow hu
    rw [exec_sapFrame_starts hasrc hstarted hinUse hnow hu, if_pos hwaits]

end Sys2Proof.Machine

/-! # The mixer, its banks and meters, the talkers' instants, and the frames of send groups (O40, O42, O43)

Each command first asks whether its instant has come. A `_due` lemma answers that once for the clauses that share a
command; what is left is which change the command makes. -/
namespace Sys2Proof.Machine

section Boundary

variable {s u : State}

/-- R206, R481: at a boundary the hub mixes while PD13 runs outside SAFE, then each node samples. -/
theorem exec_audioSampleBoundary_due (di : List (List Int)) (mics : List (Nat × Nat × Int)) (hat : atBoundary s = true)
    (hu : u = if rd s (K.PD_STATE 13) = 0 ∧ modeOf s ≠ mSafe then hubSample (boundaryNow s) di s else s) :
    exec (.audioSampleBoundary di mics) s = .next (u.fld.nodes.foldl (fun x e =>
      nodeSample (sampleAtOrAfter (fieldNow u - 31250 * ns1 / 3)) mics x e.1) u) := by
  have hcome : ¬ (!atBoundary s) = true := by simp [hat]
  simp only [exec_audioSampleBoundary, execAudioSampleBoundary, if_neg hcome, ← hu]

end Boundary

section Banks

variable {offset : Nat} {s : State}

/-- Table MIX-4: the crosspoint banks, one node in each 4 octets. -/
theorem bar2Item_crosspoint (hxp : offset < 0x800000) :
    bar2Item offset = some (0, offset / 0x400000, offset % 0x400000 / 4, 0) := if_pos hxp

theorem exec_bar2Write_fits {width : Nat} (data : Nat) (hwidth : width = 4 ∨ width = 8) (haligned : offset % width = 0)
    (hin : offset < 0x1000000) : exec (.bar2Write offset width data) s = .next (bar2Put offset width data s) :=
  if_pos ⟨hwidth, haligned, hin⟩

theorem exec_bar2Write_misfit {width : Nat} (data : Nat)
    (hmisfit : ¬ ((width = 4 ∨ width = 8) ∧ offset % width = 0 ∧ offset < 0x1000000)) :
    exec (.bar2Write offset width data) s = .next (badAccess 2 offset s) := if_neg hmisfit

/-- R210: a node of an open bank takes the word. -/
theorem bar2Put_open (data : Nat) (hxp : offset < 0x800000) (hopen : bankOpen s 0 (offset / 0x400000) = true) :
    bar2Put offset 4 data s = nodePut (offset / 0x400000) (offset % 0x400000 / 4) (data % 4294967296) s := by
  have hnarrow : ¬ (4 : Nat) = 8 := by decide
  simp only [bar2Put, bar2Item_crosspoint hxp, hopen, Bool.not_true, Bool.false_eq_true, if_false, if_true,
    if_neg hnarrow]

/-- R210: a closed bank discards the word. -/
theorem bar2Put_closed (width data : Nat) (hxp : offset < 0x800000)
    (hclosed : bankOpen s 0 (offset / 0x400000) = false) : bar2Put offset width data s = bar2Refuse s := by
  simp only [bar2Put, bar2Item_crosspoint hxp, hclosed, Bool.not_false, if_true]

end Banks

section Copies

variable {s : State}

theorem exec_xpCopyDone_crosspoint (hcopy : s.mix.copying = some 0) : exec .xpCopyDone s
    = .next (cmdComplete 0x6400 5 .ok { (xpBankUpd (1 - activeBankOf s 0)
        (mergeCopy 0 s.mix.written (xpBank s (activeBankOf s 0))) s) with mix.copying := none, mix.written := [] }) := by
  rw [exec_xpCopyDone, execXpCopyDone, hcopy]

theorem exec_xpCopyDone_preset (hcopy : s.mix.copying = some 3) : exec .xpCopyDone s
    = .next (cmdComplete 0x6400 6 .ok { (xpBankUpd (1 - activeBankOf s 0)
        (mergeCopy 0 s.mix.written (presetBank s)) s) with mix.copying := none, mix.written := [] }) := by
  rw [exec_xpCopyDone, execXpCopyDone, hcopy]
  rfl

theorem exec_xpCopyDone_equaliser (side : Fin 2) (hcopy : s.mix.copying = some (side.val + 1)) : exec .xpCopyDone s
    = .next (cmdComplete 0x6400 5 .ok { (eqBankUpd side.val (1 - activeBankOf s (side.val + 1))
        (mergeCopy [] s.mix.written (eqBank s side.val (activeBankOf s (side.val + 1)))) s) with
          mix.copying := none, mix.written := [] }) := by
  rw [exec_xpCopyDone, execXpCopyDone, hcopy]
  match side with
  | 0 => rfl
  | 1 => rfl

end Copies

section Decisions

variable {s : State} {d : Decision}

theorem decisionDue_of_past {t : Instant} (hat : d.at_ = some t) (hpast : t ≤ s.isb.now) : decisionDue s d = true := by
  simp [decisionDue, hat, hpast]

theorem exec_talkerSwitch_none (hnone : s.mix.tm.decisions.find? (decisionDue s) = none) :
    exec .talkerSwitch s = .next (tmFailures s) := by
  rw [exec_talkerSwitch, execTalkerSwitch, hnone]

/-- R223: the first decision whose T_s has come takes effect. -/
theorem exec_talkerSwitch_due (hdue : s.mix.tm.decisions.find? (decisionDue s) = some d) :
    exec .talkerSwitch s = .next (tmFailures (tmApply d s)) := by
  rw [exec_talkerSwitch, execTalkerSwitch, hdue]

/-- R223: a decision's closes, then its opens, then every live talker's gain. -/
theorem tmApply_eq {u : State}
    (hu : u = tmUpd (fun x => { x with decisions := x.decisions.erase d, ducking := d.duck.getD x.ducking }) s) :
    tmApply d s = tmRetarget (d.opens.foldl tmOpenNow (d.closes.foldl tmCloseNow u)) := by
  rw [hu, tmApply]

end Decisions

section Preselection

variable {s : State}

theorem exec_preselection_due (hat : s.isb.now % (10 * ms1) = 0) : exec .preselection s = .next (preselection s) := by
  rw [exec_preselection, execPreselection, if_pos hat]

theorem exec_preselection_between (hoff : s.isb.now % (10 * ms1) ≠ 0) : exec .preselection s = .next s := by
  rw [exec_preselection, execPreselection, if_neg hoff]

variable {leg c : Nat}

theorem candOf_isSome_of_none (hnone : candOf s leg = none) : ¬ (candOf s leg).isSome = true := by simp [hnone]

theorem presel1_free (hnone : candOf s leg = none) (hfree : freeCand s = some c) :
    presel1 s leg = candAssign c (some leg) s := by
  rw [presel1, if_neg (candOf_isSome_of_none hnone), hfree]

/-- R228: with every position taken a pinned leg takes the quietest unpinned one's. -/
theorem presel1_quietest {out : Nat} (hnone : candOf s leg = none) (hfull : freeCand s = none)
    (hquiet : quietest s (fun l _ => !legPinned s l) = some (c, out)) :
    presel1 s leg = candAssign c (some leg) s := by
  simp only [presel1, if_neg (candOf_isSome_of_none hnone), hfull, hquiet]

theorem presel2_free {rest : List Nat} (hnone : candOf s leg = none) (hfree : freeCand s = some c) :
    presel2 (leg :: rest) s = presel2 rest (candAssign c (some leg) s) := by
  rw [presel2, if_neg (candOf_isSome_of_none hnone), hfree]

end Preselection

section Candidates

variable {c : Fin 64} {s : State}

theorem exec_candidateConcealEnd_early (hearly : clk s < (candAt s c.val).packetAt + 60 * ms1) :
    exec (.candidateConcealEnd c) s = .next s :=
  if_pos (Or.inr (Or.inr hearly))

/-- R229: a position whose packets have stopped for 60 ms ramps to 0. -/
theorem exec_candidateConcealEnd_due (hleg : (candAt s c.val).leg.isNone = false)
    (hheard : (candAt s c.val).concealed = false) (hpast : (candAt s c.val).packetAt + 60 * ms1 ≤ clk s) :
    exec (.candidateConcealEnd c) s
      = .next (candUpd c.val (fun x => { x with concealed := true, fade := rampTo 0 240 x.fade }) s) :=
  if_neg (not_or.mpr ⟨ne_true_of_eq_false hleg,
    not_or.mpr ⟨ne_true_of_eq_false hheard, Nat.not_lt.mpr hpast⟩⟩)

end Candidates

section Voices

variable {leg : Nat} {s : State}

theorem exec_voiceHangExpiry_unopened (hnone : tmOpenOf s (65536 + leg) = none) :
    exec (.voiceHangExpiry leg) s = .next s := by
  rw [exec_voiceHangExpiry, execVoiceHangExpiry, legIdent, hnone]

/-- R227: an open talker with an instant of silence closes by a decision when it is a VOICE talker past its hang. -/
theorem exec_voiceHangExpiry_opened {t : Talker} {q : Instant} (hopen : tmOpenOf s (65536 + leg) = some t)
    (hquiet : (legAudio s leg).quietAt = some q) : exec (.voiceHangExpiry leg) s
      = if t.voice = true ∧ q + rd s K.VOICE_HANG * ms1 ≤ clk s then .next (tmDecide [] [65536 + leg] true none s)
        else .next s := by
  rw [exec_voiceHangExpiry, execVoiceHangExpiry, legIdent, hopen, hquiet]

end Voices

section Languages

variable {l : Nat} {s : State}

theorem exec_languageFallback_not (hnot : l = 0 ∨ 32 ≤ l ∨ rd s (K.FALLBACK (l - 1)) = 0 ∨ (langOf s l).live = true
    ∨ (langOf s l).fallback = true) : exec (.languageFallback l) s = .next s := by
  have hstays : l = 0 ∨ 32 ≤ l ∨ rd s (K.FALLBACK (l - 1)) = 0 ∨ (langOf s l).live = true
      ∨ (langOf s l).fallback = true ∨ clk s < (langOf s l).lastLive + rd s (K.FALLBACK_DELAY (l - 1)) * ms1 := by
    tauto
  rw [exec_languageFallback, execLanguageFallback, if_pos hstays]

/-- R220: a language without a live desk for FALLBACK_DELAY falls back to the floor. -/
theorem exec_languageFallback_due (hl : l ≠ 0) (hin : l < 32) (hset : rd s (K.FALLBACK (l - 1)) ≠ 0)
    (hsilent : (langOf s l).live = false) (hown : (langOf s l).fallback = false)
    (hpast : (langOf s l).lastLive + rd s (K.FALLBACK_DELAY (l - 1)) * ms1 ≤ clk s) :
    exec (.languageFallback l) s = .next (langFade l true s) :=
  if_neg (not_or.mpr ⟨hl, not_or.mpr ⟨Nat.not_le.mpr hin, not_or.mpr ⟨hset,
    not_or.mpr ⟨ne_true_of_eq_false hsilent, not_or.mpr ⟨ne_true_of_eq_false hown, Nat.not_lt.mpr hpast⟩⟩⟩⟩⟩)

theorem langFade_fallback : langFade l true s = langUpd l (fun x => { x with
    fallback := true, fade := fadeTo (b2n x.fallback) 1 240 s.isb.now x.fade }) s := rfl

end Languages

section GroupFrames

variable {g : Fin 64} {n : Nat} {s u : State}

theorem exec_groupFrameBoundary_between (hoff : s.isb.now % groupFrame s g.val ≠ 0) :
    exec (.groupFrameBoundary g) s = .next s :=
  if_pos hoff

section NoTalker

variable (hat : s.isb.now % groupFrame s g.val = 0)
  (hnoTalker : (positionsHeld s).filter (fun h => h.2.1 == g.val) = [])
include hat hnoTalker

theorem exec_groupFrameBoundary_unsent
    (hunsent : rd s (K.SE_EN g.val) = 0
      ∨ ((tabGet [] s.mix.encWait g.val).take (groupSamples s g.val)).length < groupSamples s g.val) :
    exec (.groupFrameBoundary g) s = .next { s with mix.encWait := tabErase s.mix.encWait g.val } := by
  simp only [exec_groupFrameBoundary, execGroupFrameBoundary, if_neg (not_not.mpr hat), hnoTalker, if_pos hunsent,
    List.foldl_nil]

/-- R232: the common encode goes to every leg: with no position held none has an encode of its own (R231). -/
theorem exec_groupFrameBoundary_sent {e : List Nat × Nat} (hn : n = groupSamples s g.val)
    (hon : rd s (K.SE_EN g.val) ≠ 0) (hfull : n ≤ ((tabGet [] s.mix.encWait g.val).take n).length)
    (he : e = encodeRow (groupParams s g.val) (tabGet 0 s.mix.encoders g.val)
      ((tabGet [] s.mix.encWait g.val).take n).reverse)
    (hu : u = ((upLegs s).filter (fun l => legGroup s l == g.val)).foldl (fun s' l =>
      sendAudio l g.val (sampleAtOrAfter s.isb.now - n) e.1 s')
        { s with mix.encoders := tabSet 0 s.mix.encoders g.val e.2 }) :
    exec (.groupFrameBoundary g) s = .next { u with mix.encWait := tabErase u.mix.encWait g.val } := by
  have hsent : ¬ (rd s (K.SE_EN g.val) = 0 ∨ ((tabGet [] s.mix.encWait g.val).take n).length < n) :=
    not_or.mpr ⟨hon, Nat.not_lt.mpr hfull⟩
  simp only [exec_groupFrameBoundary, execGroupFrameBoundary, if_neg (not_not.mpr hat), hnoTalker, ← hn, if_neg hsent,
    List.filter_nil, List.map_nil, List.find?_nil, List.foldl_nil, ← he, ← hu]

end NoTalker

end GroupFrames

/-- Settles O40: each clause by the lemma of its command or pass above. -/
theorem mixerAndTalkersRun : Obligations.MixerAndTalkersRun := by
  unfold Obligations.MixerAndTalkersRun
  refine ⟨?mixes, ?silent, ?nodeWritten, ?refused, ?misfit, ?crosspoint, ?preset, ?equaliser, ?meters, ?switch,
    ?preselection, ?pinnedFree, ?pinnedQuietest, ?queuedFree, ?conceal, ?voice, ?fallback, ?encoded⟩
  case mixes =>
    exact fun di mics s u hat hruns hu => exec_audioSampleBoundary_due di mics hat (hu.trans (if_pos hruns).symm)
  case silent =>
    intro di mics s hat hstopped
    have hidle : ¬ (rd s (K.PD_STATE 13) = 0 ∧ modeOf s ≠ mSafe) := by tauto
    exact exec_audioSampleBoundary_due di mics hat (if_neg hidle).symm
  case nodeWritten =>
    intro offset data s haligned hxp hopen
    rw [exec_bar2Write_fits data (.inl rfl) haligned (by omega), bar2Put_open data hxp hopen]
  case refused =>
    intro offset data s haligned hxp hclosed
    rw [exec_bar2Write_fits data (.inl rfl) haligned (by omega), bar2Put_closed 4 data hxp hclosed, bar2Refuse]
  case misfit => exact fun offset width data s hmisfit => exec_bar2Write_misfit data hmisfit
  case crosspoint => exact fun s hcopy => exec_xpCopyDone_crosspoint hcopy
  case preset => exact fun s hcopy => exec_xpCopyDone_preset hcopy
  case equaliser => exact fun side s hcopy => exec_xpCopyDone_equaliser side hcopy
  case meters =>
    intro s
    rw [exec_loudnessUpdate, execLoudnessUpdate]
  case switch =>
    intro s d rest t hdecisions hat hpast
    refine exec_talkerSwitch_due ?_
    rw [hdecisions, List.find?_cons_of_pos (decisionDue_of_past hat hpast)]
  case preselection => exact fun s hat => exec_preselection_due hat
  case pinnedFree => exact fun s p c hnone hfree => presel1_free hnone hfree
  case pinnedQuietest => exact fun s p c l hnone hfull hquiet => presel1_quietest hnone hfull hquiet
  case queuedFree => exact fun s q c rest hnone hfree => presel2_free hnone hfree
  case conceal => exact fun c s hleg hheard hpast => exec_candidateConcealEnd_due hleg hheard hpast
  case voice =>
    intro leg s t q hopen hvoice hquiet hpast
    rw [exec_voiceHangExpiry_opened hopen hquiet, if_pos ⟨hvoice, hpast⟩]
  case fallback =>
    exact fun l s hl hin hset hsilent hown hpast => exec_languageFallback_due hl hin hset hsilent hown hpast
  case encoded =>
    exact fun g n s u e hat hn hon hfull hnoTalker he hu => exec_groupFrameBoundary_sent hat hnoTalker hn hon hfull he hu

/-- Settles O42: before its instant a command changes nothing; at it the lemma of its step says what it answers. -/
theorem talkerCommandsComplete : Obligations.TalkerCommandsComplete := by
  unfold Obligations.TalkerCommandsComplete
  refine ⟨?noDecision, ?decision, ?between, ?preselection, ?heard, ?conceal, ?unopened, ?notVoice, ?noFallback, ?fallback⟩
  case noDecision => exact fun s hnone => exec_talkerSwitch_none hnone
  case decision =>
    intro s u d hdue hu
    rw [exec_talkerSwitch_due hdue, tmApply_eq hu]
  case between => exact fun s hoff => exec_preselection_between hoff
  case preselection => exact fun s hat => exec_preselection_due hat
  case heard => exact fun c s hearly => exec_candidateConcealEnd_early hearly
  case conceal =>
    exact fun c l s hleg hheard hpast => exec_candidateConcealEnd_due (by simp [hleg]) hheard hpast
  case unopened => exact fun leg s hnone => exec_voiceHangExpiry_unopened hnone
  case notVoice =>
    intro leg s t q hopen hquiet hstays
    rw [exec_voiceHangExpiry_opened hopen hquiet, if_neg]
    rintro ⟨hvoice, hpast⟩
    rcases hstays with hother | hsoon
    · exact absurd (hvoice.symm.trans hother) (by decide)
    · exact absurd hsoon (Nat.not_lt.mpr hpast)
  case noFallback => exact fun l s hnot => exec_languageFallback_not hnot
  case fallback =>
    intro l s hl hin hset hsilent hown hpast
    rw [exec_languageFallback_due hl hin hset hsilent hown hpast, langFade_fallback]

/-- Settles O43: between frames nothing happens; at one without talkers the group's frame is dropped or sent. -/
theorem groupFramesAreEncoded : Obligations.GroupFramesAreEncoded := by
  unfold Obligations.GroupFramesAreEncoded
  refine ⟨?between, ?unsent, ?sent⟩
  case between => exact fun g s hoff => exec_groupFrameBoundary_between hoff
  case unsent => exact fun g s hat hnoTalker hunsent => exec_groupFrameBoundary_unsent hat hnoTalker hunsent
  case sent =>
    exact fun g n s u e hat hn hon hfull hnoTalker he hu => exec_groupFrameBoundary_sent hat hnoTalker hn hon hfull he hu

end Sys2Proof.Machine

/-! # Data ports: frames received, flow control, their links and transmitters; the cell pool's tests and drains (O44)

A port event first asks whether its port and its instant allow it. The lemmas say what each comes to where they do. -/
namespace Sys2Proof.Machine

section Frames

variable {p : Fin 8} {f : Frame} {s t : State}

theorem frame_not_missized (hlong : 64 ≤ f.len + 4) (hshort : f.len + 4 ≤ rd s (K.MAX_FRAME p.val)) :
    ¬ (f.len + 4 < 64 ∨ rd s (K.MAX_FRAME p.val) < f.len + 4) :=
  not_or.mpr ⟨Nat.not_lt.mpr hlong, Nat.not_lt.mpr hshort⟩

section PortIsUp

variable (hup : portUp s p.val = true)
include hup

theorem exec_ethFrameReceived_lineError (hpcs : f.pcsBad = true) :
    exec (.ethFrameReceived p f) s = .next (bump (K.RX_ERR p.val 2) s) := by
  simp only [exec_ethFrameReceived, execEthFrameReceived, hup, hpcs, Bool.not_true, Bool.false_eq_true, if_false,
    if_true]

variable (hpcs : f.pcsBad = false)
include hpcs

theorem exec_ethFrameReceived_missized (hsize : f.len + 4 < 64 ∨ rd s (K.MAX_FRAME p.val) < f.len + 4) :
    exec (.ethFrameReceived p f) s = .next (bump (K.RX_ERR p.val 1) s) := by
  simp only [exec_ethFrameReceived, execEthFrameReceived, hup, hpcs, Bool.not_true, Bool.false_eq_true, if_false,
    if_pos hsize]

variable (hlong : 64 ≤ f.len + 4) (hshort : f.len + 4 ≤ rd s (K.MAX_FRAME p.val))
include hlong hshort

theorem exec_ethFrameReceived_fcsError (hfcs : f.fcsBad = true) :
    exec (.ethFrameReceived p f) s = .next (bump (K.RX_ERR p.val 0) s) := by
  simp only [exec_ethFrameReceived, execEthFrameReceived, hup, hpcs, hfcs, if_neg (frame_not_missized hlong hshort),
    Bool.not_true, Bool.false_eq_true, if_false, if_true]

/-- R239, R243: a good frame is counted with its FCS, and what the first cell decides becomes of it. -/
theorem exec_ethFrameReceived_good (hfcs : f.fcsBad = false)
    (ht : t = bumpBy (K.FRAME_COUNTS p.val 1) (f.len + 4) (bump (K.FRAME_COUNTS p.val 0) s))
    (hcells : noCells t (classify t p.val f) f.len = false) (hpool : poolSpill t = false) :
    exec (.ethFrameReceived p f) s = .next (runFate p.val f (classify t p.val f) t) := by
  simp only [exec_ethFrameReceived, execEthFrameReceived, hup, hpcs, hfcs, if_neg (frame_not_missized hlong hshort),
    ← ht, hcells, hpool, Bool.not_true, Bool.false_eq_true, if_false]

end PortIsUp

theorem classify_unsuited {q : Nat} (h : macAccepted s q f.dst = false ∨ vlanMismatch s q f = true) :
    classify s q f = .drop dMacFilter := by
  have hunsuited : (!macAccepted s q f.dst || vlanMismatch s q f) = true := by simpa using h
  rw [classify, if_pos hunsuited]

theorem exec_mgmtFrameReceived_good (hlink : rd s K.MGMT_STATE ≠ 0) (hfcs : f.fcsBad = false)
    (hpcs : f.pcsBad = false) (hshort : f.len + 4 ≤ 1522) :
    exec (.mgmtFrameReceived f) s = .next (mgmtFrame f s) := by
  have hgood : ¬ (rd s K.MGMT_STATE = 0 ∨ f.fcsBad = true ∨ f.pcsBad = true ∨ 1522 < f.len + 4) := by
    simp [hlink, hfcs, hpcs, hshort]
  rw [exec_mgmtFrameReceived, execMgmtFrameReceived, if_neg hgood]

end Frames

section FlowControl

variable {s t u : State}

section Obeyed

variable {p : Nat} (ht : t = bump (K.PAUSE_RECEIVED p) s) (hobeys : rd t (K.RX_PAUSE_EN p) ≠ 0)
include ht hobeys

/-- R242: a port that obeys PAUSE holds for its quanta. -/
theorem pauseIn_obeyed (q : Nat) (hp : p ≠ 8) :
    pauseIn p q s = pauseSync p (txPortUpd p (fun x => { x with pauseEnd := clk t + quantaTime t p q }) t) := by
  subst ht
  rw [pauseIn, if_neg hp, if_neg hobeys]

theorem pfcIn_obeyed (en : Nat) (q : List Nat) :
    pfcIn p en q s = pauseSync p (txPortUpd p (fun x => { x with pfcEnd := (List.range 8).foldl (fun e i =>
      if bitOf en i then tabSet 0 e i (clk t + quantaTime t p (q.getD i 0)) else e) (txPort t p).pfcEnd }) t) := by
  subst ht
  rw [pfcIn, if_neg hobeys]

end Obeyed

/-- R276: priorities whose pause has ended leave the port's table, and its legs join or leave its list with theirs. -/
theorem pauseSync_dataPort {p : Nat} (hp : p ≠ 8)
    (ht : t = txPortUpd p (fun x => { x with
      pfcEnd := (txPort s p).pfcEnd.filter (fun e => decide (clk s < e.2)),
      active := x.active.filter (fun l => !pfcPaused s p (rd s (K.TX_PCP l))) }) s)
    (hu : u = wr (K.LEGS_ACTIVE p) (txPort t p).active.length t) :
    pauseSync p s = wakePort p (wr (K.TX_PAUSED p) (b2n (paused u p ||
      !((txPort s p).pfcEnd.filter (fun e => decide (clk s < e.2))).isEmpty)) u) := by
  subst hu ht
  rw [pauseSync, if_neg hp]

/-- R255: a port still congested half its quanta after its last PAUSE owes one more. -/
theorem exec_pauseResend_due {p : Fin 8} (hcongested : (txPort s p.val).congested = true)
    (hnone : (txPort s p.val).pauseDue = none)
    (hpast : (txPort s p.val).pauseAt + rd s (K.PAUSE_QUANTA p.val) * 512 * 1000000000 * ns1 / portRate s / 2 ≤ clk s) :
    exec (.pauseResend p) s
      = .next (txPortUpd p.val (fun x => { x with pauseDue := some (rd s (K.PAUSE_QUANTA p.val)) }) s) := by
  simp only [exec_pauseResend, execPauseResend, hcongested, hnone, decide_eq_true hpast, Option.isNone_none,
    Bool.and_true, if_true]

end FlowControl

section Links

variable {p : Fin 8} {s t : State}

theorem exec_linkLoss_enabled (hon : rd s (K.PORT_EN p.val) ≠ 0) (hserves : rd s (K.PORT_STATE p.val) ≠ psRetired) :
    exec (.linkLoss p) s = .next (portUpset p.val (portDown p.val psTraining (bump (K.LINK_DOWNS p.val) s))) :=
  if_neg (not_or.mpr ⟨hon, hserves⟩)

theorem exec_linkUp_trained (htrains : rd s (K.PORT_STATE p.val) = psTraining) :
    exec (.linkUp p) s = .next (wakePort p.val (txPortUpd p.val (fun x => { x with upAt := clk s })
      (wr (K.PORT_STATE p.val) psUp s))) :=
  if_neg (not_not.mpr htrains)

/-- R240: a second's codewords are counted, and more uncorrectable ones than the limit are an upset. -/
theorem exec_fecSecond_due {c u : Nat} (hpast : (txPort s p.val).fecAt + s1 ≤ clk s)
    (ht : t = bumpBy (K.FEC_CORRECTED p.val) c (bumpBy (K.FEC_UNCORRECTED p.val) u
      (txPortUpd p.val (fun x => { x with fecAt := clk s }) s))) :
    exec (.fecSecond p c u) s = .next (if rd t (K.PORT_EN p.val) = 1 ∧ rd t (K.FEC_UNCORR_LIMIT p.val) < u
      ∧ !isRetired t cPort p.val then portUpset p.val t else t) := by
  subst ht
  rw [exec_fecSecond, execFecSecond, if_neg (Nat.not_lt.mpr hpast), fecSecond]

theorem exec_mgmtLinkChange_started (st : Fin 3) (hstep : s.boot.step ≠ 0) :
    exec (.mgmtLinkChange st) s = .next (wr K.MGMT_STATE st.val s) := by
  rw [exec_mgmtLinkChange, execMgmtLinkChange, if_neg hstep]

end Links

section Transmitters

variable {p : Fin 9} {r : Fin 4} {s t : State}

theorem exec_portTransmitterFree_sends {f : Sending} (hsends : (txPort s p.val).sending = some f)
    (hearly : clk s < f.freeAt) : exec (.portTransmitterFree p r) s = .next s := by
  have hbusy : (txPort s p.val).sending.any (fun f => decide (clk s < f.freeAt)) = true := by simp [hsends, hearly]
  rw [exec_portTransmitterFree, execPortTransmitterFree, if_pos hbusy]

section Free

variable (hfree : ∀ f, (txPort s p.val).sending = some f → f.freeAt ≤ clk s)
  (ht : t = txPortUpd p.val (fun x => { x with sending := none }) s)
include hfree

theorem transmitter_not_sending : ¬ (txPort s p.val).sending.any (fun f => decide (clk s < f.freeAt)) = true := by
  simpa [Option.any_eq_true] using hfree

include ht

theorem exec_portTransmitterFree_dataPort (hp : p.val ≠ 8) (hup : portUp t p.val = true) :
    exec (.portTransmitterFree p r) s = .next (pickPort p.val 64 r.val t) := by
  simp only [exec_portTransmitterFree, execPortTransmitterFree, if_neg (transmitter_not_sending hfree), if_neg hp,
    ← ht, if_pos hup]

theorem exec_portTransmitterFree_management (hp : p.val = 8) (hlink : rd t K.MGMT_STATE ≠ 0) :
    exec (.portTransmitterFree p r) s = .next (pickMgmt r.val 64 t) := by
  simp only [exec_portTransmitterFree, execPortTransmitterFree, if_neg (transmitter_not_sending hfree), if_pos hp,
    ← ht, if_neg hlink]

end Free

end Transmitters

section CellPool

variable {s : State} {cells : Nat}

theorem exec_poolTestDone_due (hstep : 9 ≤ s.boot.step) (hspill : rd s K.POOL_MODE = pmSpill)
    (hlaid : s.mem.reinterleave = false) :
    exec (.poolTestDone cells) s = .next (poolFailedCause (poolTested cells s)) := by
  have hdue : ¬ (s.boot.step < 9 ∨ rd s K.POOL_MODE ≠ pmSpill ∨ s.mem.reinterleave = true) :=
    not_or.mpr ⟨Nat.not_lt.mpr hstep, not_or.mpr ⟨not_not.mpr hspill, ne_true_of_eq_false hlaid⟩⟩
  rw [exec_poolTestDone, execPoolTestDone, if_neg hdue]

/-- R261: the drained entries take their cells in the pool, copies of legs and packets alike. -/
theorem exec_spillDrainComplete_draining (hdrains : rd s K.POOL_MODE = pmDraining) :
    exec .spillDrainComplete s = .next (settle [] (wr K.POOL_MODE pmPool { s with
      pkt.packets := tabMap none s.pkt.packets (fun _ p => p.map (fun p => { p with spilled := false })),
      pkt.queues := tabMap {} s.pkt.queues (fun _ x => { x with spilled := false }),
      pkt.used := s.pkt.used
        + s.pkt.packets.foldl (fun n e => n + (e.2.elim 0 (fun p => if p.spilled then p.cells else 0))) 0
        + s.pkt.queues.foldl (fun n e => n + (if e.2.spilled then e.2.copyCells.length else 0)) 0 })) :=
  if_neg (not_not.mpr hdrains)

theorem exec_orphanAudit_due (hpast : s.pkt.auditAt + 100 * ms1 ≤ clk s) :
    exec (.orphanAudit cells) s = .next (bumpBy (K.POOL_ERRORS 2) cells { s with pkt.auditAt := clk s }) :=
  if_neg (Nat.not_lt.mpr hpast)

end CellPool

/-- Settles O44: each clause by the lemma of its event above. -/
theorem portsAndFramesAct : Obligations.PortsAndFramesAct := by
  unfold Obligations.PortsAndFramesAct
  refine ⟨?good, ?lineError, ?missized, ?fcsError, ?unsuited, ?management, ?pause, ?pauseManagement, ?pfc, ?expiry,
    ?resend, ?loss, ?up, ?fec, ?sends, ?free, ?freeManagement, ?tested, ?drained, ?audit, ?mgmtLink⟩
  case good =>
    exact fun p f s t hup hpcs hlong hshort hfcs ht hcells hpool =>
      exec_ethFrameReceived_good hup hpcs hlong hshort hfcs ht hcells hpool
  case lineError => exact fun p f s hup hpcs => exec_ethFrameReceived_lineError hup hpcs
  case missized => exact fun p f s hup hpcs hsize => exec_ethFrameReceived_missized hup hpcs hsize
  case fcsError =>
    exact fun p f s hup hpcs hlong hshort hfcs => exec_ethFrameReceived_fcsError hup hpcs hlong hshort hfcs
  case unsuited =>
    intro p f s hunsuited
    rw [classify_unsuited hunsuited]
    rfl
  case management => exact fun f s hlink hfcs hpcs hshort => exec_mgmtFrameReceived_good hlink hfcs hpcs hshort
  case pause =>
    intro p q s t hp ht hobeys
    rw [exec_pauseReceived, execPauseReceived, pauseIn_obeyed ht hobeys q hp]
  case pauseManagement =>
    intro q s
    rfl
  case pfc =>
    intro p en q s t ht hobeys
    rw [exec_pfcReceived, execPfcReceived, pfcIn_obeyed ht hobeys en q]
  case expiry =>
    intro p s t u hp ht hu
    rw [exec_pauseExpiry, execPauseExpiry, pauseSync_dataPort hp ht hu]
  case resend => exact fun p s hcongested hnone hpast => exec_pauseResend_due hcongested hnone hpast
  case loss => exact fun p s hon hserves => exec_linkLoss_enabled hon hserves
  case up => exact fun p s htrains => exec_linkUp_trained htrains
  case fec => exact fun p c u s t hpast ht => exec_fecSecond_due hpast ht
  case sends => exact fun p r s f hsends hearly => exec_portTransmitterFree_sends hsends hearly
  case free => exact fun p r s t hfree hp ht hup => exec_portTransmitterFree_dataPort hfree ht hp hup
  case freeManagement =>
    exact fun r s t hfree ht hlink => exec_portTransmitterFree_management hfree ht rfl hlink
  case tested => exact fun cells s hstep hspill hlaid => exec_poolTestDone_due hstep hspill hlaid
  case drained => exact fun s hdrains => exec_spillDrainComplete_draining hdrains
  case audit => exact fun cells s hpast => exec_orphanAudit_due hpast
  case mgmtLink => exact fun st s hstep => exec_mgmtLinkChange_started st hstep

end Sys2Proof.Machine

/-! # Shapers, gates, copies, estimates, refresh requests, RTCP, failback and leg checkpoints (O45)

Most of these commands are timers: nothing happens before their instant. A `_due` lemma says what is done at it; a
`_one` lemma says it of an RTCP timer whose fold over the up legs has one leg to treat. -/
namespace Sys2Proof.Machine

section Shapers

variable {s : State}

/-- R276: a leg with an entry, a conforming shaper, no pause and a place on its LEG_PORT joins the tail of the list. -/
theorem legWake_joins {l p : Nat} {t : State} (hp : p = legPort s l)
    (hholds : (queueOf s (qOut l)).entries.isEmpty = false) (hconforms : conforming s l = true)
    (hunlisted : (txPort s p).active.contains l = false) (hunpaused : pfcPaused s p (rd s (K.TX_PCP l)) = false)
    (hstate : rd s (K.LEG_STATE l) = 1) (ht : t = txPortUpd p (fun x => { x with active := x.active ++ [l] }) s) :
    legWake l s = wr (K.LEGS_ACTIVE p) (txPort t p).active.length t := by
  subst hp ht
  simp only [legWake, hholds, hconforms, hunlisted, hunpaused, hstate, beq_self_eq_true, Bool.true_or, Bool.not_true,
    Bool.or_self, Bool.false_eq_true, if_false]

/-- R273: at a 10 ms instant each automatic shaper whose estimate moved takes its rate from it. -/
theorem exec_shaperAdapt_due (hat : s.isb.now % (10 * ms1) = 0) : exec .shaperAdapt s
    = .next ((listedKeys s 0x7900 0x14).foldl (fun x l =>
        if rd x (K.EST_E l) = (legTraffic x l).adapted then x
        else legTrafficUpd l (fun y => { y with adapted := rd x (K.EST_E l) }) (shaperChange l (wr (K.SH_RATE l)
          (max 1000 (min (rd x (K.SH_MAX l)) (rd x (K.EST_E l) * rd x (K.SH_HEADROOM l) / 100)))) x)) s) :=
  if_neg (not_not.mpr hat)

end Shapers

section Gates

variable {p : Fin 8} {g : GatePend} {s t u v : State}

/-- R280: at C, with nothing sent across it, the administrative configuration is the operating one. -/
theorem exec_gateConfigChange_due (hpends : (txPort s p.val).takeover = some g) (hcome : g.c ≤ nowNs s)
    (hidle : (txPort s p.val).sending = none) (hlist : rdBlob s (K.ADMIN_LIST p.val) ≠ [])
    (ht : t = wrBlob (K.OPER_LIST p.val) (rdBlob s (K.ADMIN_LIST p.val))
      (wr (K.OPER_BASE p.val) (rd s (K.ADMIN_BASE p.val)) (wr (K.OPER_CYCLE p.val) (rd s (K.ADMIN_CYCLE p.val))
        (wr (K.OPER_EXT p.val) (rd s (K.ADMIN_EXT p.val)) s))))
    (hu : u = txPortUpd p.val (fun x => { x with takeover := none }) t)
    (hv : v = launchDone g.slot (launchOf u g.slot).late u) :
    exec (.gateConfigChange p) s = .next (gateShow p.val (dropOversize p.val 4096
      (bump (K.CONFIG_CHANGES p.val) (wr (K.GATE_STATE p.val) 1 v)))) := by
  have hfull : (rdBlob s (K.ADMIN_LIST p.val)).isEmpty = false := by simpa using hlist
  rw [exec_gateConfigChange, execGateConfigChange]
  simp only [hpends, hidle, hfull, if_neg (Nat.not_lt.mpr hcome), ← ht, ← hu, ← hv, upd, b2n, Bool.not_false,
    Bool.false_eq_true, if_false, if_true]

end Gates

section Forwarding

variable {s : State}

theorem exec_copyFormation_serving (hserves : serves s = true) : exec .copyFormation s
    = .next (fanStep (s.fwd.fan.foldl (fun n f => n + f.slots.length + 1) 0) s) := by
  simp only [exec_copyFormation, execCopyFormation, hserves, Bool.not_true, Bool.false_eq_true, if_false]

/-- R297, R299: the estimate of an up leg is made first, and its layers are chosen by it. -/
theorem exec_estimateUpdate_due {l : Nat} (hup : legUp s l = true) (hat : s.isb.now % (100 * ms1) = 0) :
    exec (.estimateUpdate l) s = .next (selectLayers l (estimate l s)) :=
  if_neg (not_or.mpr ⟨ne_false_of_eq_true hup, not_not.mpr hat⟩)

end Forwarding

section Rtcp

variable {l : Nat} {s z : State}

/-- R306: a leg that has seen packets covers them in one feedback and begins anew. -/
theorem exec_transportFeedbackTimer_one (hpast : z.fwd.feedbackAt + 50 * ms1 ≤ clk z)
    (hs : s = { z with fwd.feedbackAt := clk z }) (honly : upLegs s = [l]) (hext : rd s (K.EXT_IDS l) % 256 ≠ 0)
    (hseen : (legOf s l).twSeen.isEmpty = false) :
    exec .transportFeedbackTimer z = .next (sendRtcp l [.feedback (rd s (K.AUD_OUT_SSRC l))
      ((legOf s l).twSeen.map (fun e => (e.1, some ((e.2 / ns1 : Nat) : Int))))]
        (legUpd l (fun x => { x with twSeen := [] }) s)) := by
  have hcovers : ¬ (rd s (K.EXT_IDS l) % 256 = 0 ∨ (legOf s l).twSeen.isEmpty = true) :=
    not_or.mpr ⟨hext, ne_true_of_eq_false hseen⟩
  simp only [exec_transportFeedbackTimer, execTransportFeedbackTimer, if_neg (Nat.not_lt.mpr hpast), ← hs, honly,
    List.foldl_cons, List.foldl_nil, if_neg hcovers]

/-- R306: a leg that has received no stream reports its slots' sending alone. -/
theorem exec_rtcpReportTimer_one (hpast : z.fwd.reportAt + s1 ≤ clk z) (hs : s = { z with fwd.reportAt := clk z })
    (honly : upLegs s = [l]) (hnoStream : (legOf s l).rx = []) :
    exec .rtcpReportTimer z
      = .next (sendRtcp l (([0, 1, 2, 3].filter (fun k => (slotOf s l k).sentSince)).map (senderReport s l))
        (legUpd l (fun x => { x with
          slots := tabMap {} x.slots (fun _ (y : LegSlot) => { y with sentSince := false })
          rx := tabMap {} x.rx (fun _ (r : RxStream) => { r with
            lastExpected := r.highest - r.first + 1, lastCount := r.count }) }) s)) := by
  simp only [exec_rtcpReportTimer, execRtcpReportTimer, if_neg (Nat.not_lt.mpr hpast), ← hs, honly, hnoStream,
    List.foldl_cons, List.foldl_nil, List.map_nil, List.isEmpty_nil, if_true, List.append_nil]

end Rtcp

section Returns

variable {s z : State}

/-- R308: a port that has held lets the legs on their alternate port return to it. -/
theorem exec_failbackHoldExpiry_due {p : Fin 8} (hup : portUp s p.val = true)
    (hheld : (txPort s p.val).upAt + rd s K.FWD_FAILBACK_HOLD * s1 ≤ clk s) :
    exec (.failbackHoldExpiry p) s = .next (((upLegs s).filter (fun l => rd s (K.LEG_STATE l) == 2
      && rd s (K.LEG_PORT l) == p.val)).foldl (fun x l =>
        legWake l (wr (K.LEG_STATE l) 1 (legUnlist (rd x (K.ALT_PORT l)) l x))) s) :=
  if_neg (not_or.mpr ⟨ne_false_of_eq_true hup, Nat.not_lt.mpr hheld⟩)

/-- R309: the active hub of a healthy pair checkpoints every up leg. -/
theorem exec_legCkptTimer_active (hpast : z.fwd.ckptAt + rd z K.FWD_CKPT_PERIOD * ms1 ≤ clk z)
    (hs : s = { z with fwd.ckptAt := clk z }) (hpair : pairHealthy s = true) (hrole : roleOf s = roleActive) :
    exec .legCkptTimer z = .next ((upLegs s).foldl (fun x l => sendCkpt l x) s) := by
  simp only [exec_legCkptTimer, execLegCkptTimer, if_neg (Nat.not_lt.mpr hpast), ← hs, hpair, hrole,
    beq_self_eq_true, Bool.and_self, if_true]

end Returns

section Authentication

variable {l : Nat} {s : State}

theorem exec_authFailSecond_due (hpast : (legOf s l).authAt + s1 ≤ clk s) :
    exec (.authFailSecond l) s = .next (if 64 < (legOf s l).authFails
      then legUpset l (legUpd l (fun x => { x with authFails := 0, authAt := clk s }) s)
      else legUpd l (fun x => { x with authFails := 0, authAt := clk s }) s) :=
  if_neg (Nat.not_lt.mpr hpast)

end Authentication

/-- Settles O45: each clause by the lemma of its command above; a gate's next entry and the refresh requests are what
their commands do in every state. -/
theorem forwardingAndShapingAct : Obligations.ForwardingAndShapingAct := by
  unfold Obligations.ForwardingAndShapingAct
  refine ⟨?conforming, ?adapt, ?gateEntry, ?gateConfig, ?copies, ?estimate, ?waited, ?merged, ?feedback, ?reports,
    ?failback, ?checkpoints, ?authUpset, ?authQuiet⟩
  case conforming =>
    intro l p s t hp hholds hconforms hunlisted hunpaused hstate ht
    rw [exec_shaperConforming, execShaperConforming,
      legWake_joins hp hholds hconforms hunlisted hunpaused hstate ht]
  case adapt => exact fun s hat => exec_shaperAdapt_due hat
  case gateEntry =>
    intro p s
    rw [exec_gateEntryChange, execGateEntryChange, gateShow]
  case gateConfig =>
    exact fun p g s t u v hpends hcome hidle hlist ht hu hv =>
      exec_gateConfigChange_due hpends hcome hidle hlist ht hu hv
  case copies => exact fun s hserves => exec_copyFormation_serving hserves
  case estimate => exact fun l s hup hat => exec_estimateUpdate_due hup hat
  case waited =>
    intro s t u ht hu
    subst ht hu
    rfl
  case merged =>
    intro s
    rfl
  case feedback =>
    exact fun l z s hpast hs honly hext hseen => exec_transportFeedbackTimer_one hpast hs honly hext hseen
  case reports => exact fun l z s hpast hs honly hnoStream => exec_rtcpReportTimer_one hpast hs honly hnoStream
  case failback => exact fun p s hup hheld => exec_failbackHoldExpiry_due hup hheld
  case checkpoints => exact fun z s hpast hs hpair hrole => exec_legCkptTimer_active hpast hs hpair hrole
  case authUpset =>
    intro l s hpast hmany
    rw [exec_authFailSecond_due hpast, if_pos hmany]
  case authQuiet =>
    intro l s hpast hfew
    rw [exec_authFailSecond_due hpast, if_neg (Nat.not_lt.mpr hfew)]

end Sys2Proof.Machine

/-! # Every command and every step: completion, order of the queue, frames, good order (O1 to O9)

`Kept.of_exec` says what every command keeps; a step is the front command on the state with the rest of the queue. -/
namespace Sys2Proof.Machine

section Steps

variable {s t : State}

theorem step_cons (c : Instr) (rest : List Instr) (s : State) :
    step { s with pending := c :: rest } = exec c { s with pending := rest } := rfl

theorem step_of_pending_nil (hempty : s.pending = []) : step s = .next s := by
  rw [step, hempty]

theorem step_of_pending_cons {c : Instr} {rest : List Instr} (hfront : s.pending = c :: rest) :
    step s = exec c { s with pending := rest } := by
  rw [step, hfront]

/-- A step idles, or keeps what the front command keeps of the state with the queue's rest. -/
theorem step_cases (hstep : step s = .next t) :
    t = s ∨ ∃ c rest, s.pending = c :: rest ∧ Kept (maskOf (touches c)) { s with pending := rest } t := by
  cases hqueue : s.pending with
  | nil =>
    rw [step_of_pending_nil hqueue] at hstep
    exact .inl (Host.Outcome.next.inj hstep).symm
  | cons c rest =>
    rw [step_of_pending_cons hqueue] at hstep
    exact .inr ⟨c, rest, rfl, Kept.of_exec hstep⟩

theorem inOrder_of_step (hstep : step s = .next t) (horder : s.inOrder = true) : t.inOrder = true := by
  rcases step_cases hstep with rfl | ⟨c, rest, -, hkept⟩
  · exact horder
  · exact hkept.inOrder horder

theorem fuse_of_step (hstep : step s = .next t) (hblown : s.diag.fuse = true) : t.diag.fuse = true := by
  rcases step_cases hstep with rfl | ⟨c, rest, -, hkept⟩
  · exact hblown
  · exact hkept.fuse hblown

end Steps

section Runs

variable {s t : State}

theorem core_run_succ {M : Host.Core} {s u : M.State} (n : Nat) (hstep : M.step s = .next u) :
    M.run (n + 1) s = M.run n u := by
  rw [Host.Core.run, hstep]

/-- The first step of a run that answers a next state answers one. -/
theorem core_run_succ_inv {M : Host.Core} {s t : M.State} {n : Nat} (hrun : M.run (n + 1) s = .next t) :
    ∃ u, M.step s = .next u ∧ M.run n u = .next t := by
  rw [Host.Core.run] at hrun
  cases hstep : M.step s with
  | next u =>
    rw [hstep] at hrun
    exact ⟨u, rfl, hrun⟩
  | fault r =>
    rw [hstep] at hrun
    cases hrun
  | refused r =>
    rw [hstep] at hrun
    cases hrun

/-- What every step keeps holds at the end of a run. -/
theorem core_run_keeps {P : State → Prop} (hkeeps : ∀ s t, step s = .next t → P s → P t) {n : Nat}
    (hrun : Sys2Proof.core.run n s = .next t) (hstart : P s) : P t := by
  induction n generalizing s with
  | zero =>
    obtain rfl : s = t := Host.Outcome.next.inj hrun
    exact hstart
  | succ n ih =>
    obtain ⟨u, hstep, hrest⟩ := core_run_succ_inv hrun
    exact ih hrest (hkeeps s u hstep hstart)

/-- The waiting commands are served from the front: each leaves the rest of the queue and only adds to the record. -/
theorem core_run_serves (cs q : List Instr) (s : State) : ∃ t,
    Sys2Proof.core.run cs.length { s with pending := cs ++ q } = .next t ∧ t.pending = q ∧ s.out <:+ t.out := by
  induction cs generalizing s with
  | nil => exact ⟨{ s with pending := q }, rfl, rfl, List.suffix_refl _⟩
  | cons c cs ih =>
    obtain ⟨u, hexec, hkept⟩ := exec_next c { s with pending := cs ++ q }
    obtain ⟨t, hrun, hqueue, hout⟩ := ih u
    have hrest : { u with pending := cs ++ q } = u := by rw [← show u.pending = cs ++ q from hkept.queue]
    rw [hrest] at hrun
    have hstep : Sys2Proof.core.step { s with pending := c :: (cs ++ q) } = .next u :=
      (step_cons c (cs ++ q) s).trans hexec
    exact ⟨t, (core_run_succ cs.length hstep).trans hrun, hqueue, hkept.history.trans hout⟩

end Runs

/-- Octets read the same where the cells and what an unlisted one reads as are the same. -/
theorem memRead_congr {s t : State} (hsame : StatePart.octets.same s t) (a n : Nat) : memRead t a n = memRead s a n := by
  obtain ⟨hcells, hepoch, hstaging⟩ := hsame
  simp only [memRead, memDefault_congr hepoch hstaging, hcells]

/-- Settles O6: the state with the queue's rest is in the same order, and the front command keeps it. -/
theorem stepsKeepGoodOrder : Obligations.StepsKeepGoodOrder := by
  unfold Obligations.StepsKeepGoodOrder
  exact fun s t horder hstep => inOrder_of_step hstep horder

/-- Settles O7: by what every command keeps. -/
theorem commandsTouchOnlyTheirParts : Obligations.CommandsTouchOnlyTheirParts := by
  unfold Obligations.CommandsTouchOnlyTheirParts
  exact fun c s t hexec p hp => (Kept.of_exec hexec).part hp

/-- Settles O3: by what every command keeps. -/
theorem everyCommandCompletes : Obligations.EveryCommandCompletes := by
  unfold Obligations.EveryCommandCompletes
  intro c s
  obtain ⟨t, hexec, hkept⟩ := exec_next c s
  exact ⟨t, hexec, hkept.queue, hkept.history, hkept.draws⟩

/-- Settles O4, by induction on the commands in front. -/
theorem queueIsServedInOrder : Obligations.QueueIsServedInOrder := by
  unfold Obligations.QueueIsServedInOrder
  exact core_run_serves

/-- Settles O8: the octets are a part like any other. -/
theorem hubMemoryFrame : Obligations.HubMemoryFrame := by
  unfold Obligations.HubMemoryFrame
  exact fun c s t hexec hp => memRead_congr ((Kept.of_exec hexec).part hp)

/-- Settles O9: every step keeps a blown fuse. -/
theorem fuseStaysBlown : Obligations.FuseStaysBlown := by
  unfold Obligations.FuseStaysBlown
  exact fun n s t hblown hrun => core_run_keeps (P := fun u => u.diag.fuse = true) (fun _ _ => fuse_of_step) hrun hblown

/-- Settles O1. -/
theorem stepRunsTheFrontCommand : Obligations.StepRunsTheFrontCommand := by
  unfold Obligations.StepRunsTheFrontCommand
  exact step_cons

/-- Settles O2. -/
theorem emptyQueueIdles : Obligations.EmptyQueueIdles := by
  unfold Obligations.EmptyQueueIdles
  exact fun s hempty => step_of_pending_nil hempty

/-- Settles O5: at reset every table is empty and the test modes are locked. -/
theorem resetIsInOrder : Obligations.ResetIsInOrder := by
  unfold Obligations.ResetIsInOrder
  rfl

end Sys2Proof.Machine

/-! # The dictionary store, the hub memory and the claim table read back what is written (O10 to O12) -/
namespace Sys2Proof.Machine

/-- A table in its canonical form is sorted. -/
theorem tabSorted_of_tabWf {α : Type} [DecidableEq α] {d : α} {t : Tab α} (hwf : tabWf d t = true) :
    tabSorted t = true := ((Bool.and_eq_true _ _).mp hwf).1

theorem tabSorted_of_regsWf {t : Tab Nat} (hwf : regsWf t = true) : tabSorted t = true :=
  ((Bool.and_eq_true _ _).mp hwf).1

theorem tabSorted_of_memoryWf {s : State} (hwf : Memory.wf s = true) : tabSorted s.mem.cells = true :=
  ((Bool.and_eq_true _ _).mp hwf).1

/-- A write of a key changes the register store alone. -/
theorem same_wr (k v : Nat) (s : State) {p : StatePart} (hp : p ≠ .regs) : p.same s (wr k v s) := by
  cases p with
  | regs => exact absurd rfl hp
  | octets => exact ⟨rfl, rfl, rfl⟩
  | _ => rfl

/-- A write of the hub memory changes its octets alone. -/
theorem same_memWrite (addr : Nat) (b : Bytes) (s : State) {p : StatePart} (hmem : p ≠ .mem) (hoctets : p ≠ .octets) :
    p.same s (memWrite addr b s) := by
  induction b generalizing addr s with
  | nil => exact p.same_refl s
  | cons x b ih =>
    refine p.same_trans ?_ (ih _ _)
    cases p with
    | mem => exact absurd rfl hmem
    | octets => exact absurd rfl hoctets
    | _ => rfl

theorem memRead_memWrite_same {s : State} (hsorted : tabSorted s.mem.cells = true) (addr : Nat) (b : Bytes) :
    memRead (memWrite addr b s) addr b.length = b := by
  rw [memRead_eq]
  refine List.ext_getElem (by simp) fun i _ hi => ?_
  rw [List.getElem_map, List.getElem_range, octet_memWrite_same b addr i s hsorted hi]

theorem memRead_memWrite_other {s : State} {addr a : Nat} {b : Bytes} (hout : a < addr ∨ addr + b.length ≤ a) :
    memRead (memWrite addr b s) a 1 = memRead s a 1 := by
  rw [memRead_eq, memRead_eq]
  exact congrArg (fun x => [x]) (octet_memWrite_other b addr a s hout)

section Claims

variable {s t : State} {cls inst owner : Nat}

theorem claimOwner_setClaim_other {c i : Nat} (hother : resource c i ≠ resource cls inst) :
    claimOwner (setClaim cls inst owner s) c i = claimOwner s c i :=
  tabGet_tabSet_other _ _ _ _ _ _ hother

/-- R127: a claim is granted exactly on a free resource or the owner's own, and then recorded. -/
theorem claim_eq_some_iff : claim cls inst owner s = some t ↔
    (claimOwner s cls inst = 0 ∨ claimOwner s cls inst = owner) ∧ setClaim cls inst owner s = t := by
  rw [claim, Option.ite_none_right_eq_some, Option.some.injEq]

theorem claim_eq_none_iff : claim cls inst owner s = none ↔
    claimOwner s cls inst ≠ 0 ∧ claimOwner s cls inst ≠ owner := by
  rw [claim, ite_eq_right_iff, imp_iff_not (by simp), not_or]

end Claims

/-- Settles O10: read after write in a sorted store. -/
theorem dictionaryValuesReadBack : Obligations.DictionaryValuesReadBack := by
  unfold Obligations.DictionaryValuesReadBack
  intro s k v hwf
  exact ⟨rd_wr_same (tabSorted_of_regsWf hwf) k v, fun k' hother => rd_wr_other s hother v,
    fun p hp => same_wr k v s hp⟩

/-- Settles O11: read after write in a sorted memory. -/
theorem hubMemoryReadsBack : Obligations.HubMemoryReadsBack := by
  unfold Obligations.HubMemoryReadsBack
  intro s addr b hwf
  exact ⟨memRead_memWrite_same (tabSorted_of_memoryWf hwf) addr b, fun a hout => memRead_memWrite_other hout,
    fun p hmem hoctets => same_memWrite addr b s hmem hoctets⟩

/-- Settles O12: a claim that is granted is a write of the claim table. -/
theorem claimsAreExclusive : Obligations.ClaimsAreExclusive := by
  unfold Obligations.ClaimsAreExclusive
  intro s cls inst owner hwf
  refine ⟨fun t hgranted => ?_, claim_eq_none_iff⟩
  obtain ⟨hfree, rfl⟩ := claim_eq_some_iff.mp hgranted
  exact ⟨hfree, claimOwner_setClaim_same (tabSorted_of_tabWf hwf) cls inst owner,
    fun c i hother => claimOwner_setClaim_other hother⟩

end Sys2Proof.Machine

/-! # The octets of sent frames check (O47) -/
namespace Sys2Proof.Machine

section Wire

variable {f : TxFrame}

theorem addr_length_even (f : TxFrame) (a : Bytes) : (f.addr a).length % 2 = 0 := by
  rw [TxFrame.addr, slice_length]
  split <;> rfl

/-- R293: the IPv4 header checks, whatever of it is as received. -/
theorem inetSum_ip (hv4 : f.v6 = false) (n : Nat) : inetSum (f.ip n) = 0 := by
  have hip : f.ip n = ([0x45, BitVec.ofNat 8 (f.dscp * 4 + leAt f.kept 1 1 % 4)] ++ beOctets 2 (20 + n)
      ++ slice f.kept 4 4 ++ [BitVec.ofNat 8 f.ttl, 17]) ++ beOctets 2 (inetSum
        (([0x45, BitVec.ofNat 8 (f.dscp * 4 + leAt f.kept 1 1 % 4)] ++ beOctets 2 (20 + n) ++ slice f.kept 4 4
          ++ [BitVec.ofNat 8 f.ttl, 17]) ++ [0, 0] ++ (f.addr f.src ++ f.addr f.dst)))
      ++ (f.addr f.src ++ f.addr f.dst) := by
    rw [TxFrame.ip, if_neg (by simp [hv4])]
  rw [hip]
  refine (inetSum_field ?heven ?hnonzero rfl).2
  case heven => simp
  case hnonzero => simp [wordSum]

/-- The pseudo-header over which a UDP datagram of `n` octets is summed, in either family. -/
def TxFrame.pseudo (f : TxFrame) (n : Nat) : Bytes :=
  f.addr f.src ++ f.addr f.dst
    ++ (if f.v6 = true then beOctets 4 n ++ [0, 0, 0, 17] else [0, 17] ++ beOctets 2 n)

/-- The ports and the length of a UDP header. -/
def TxFrame.ports (f : TxFrame) (n : Nat) : Bytes := beOctets 2 f.sport ++ beOctets 2 f.dport ++ beOctets 2 n

theorem udp_eq (f : TxFrame) (b : Bytes) {c : Nat}
    (hc : c = inetSum (f.pseudo (8 + b.length) ++ f.ports (8 + b.length) ++ [0, 0] ++ b)) :
    f.udp b = f.ports (8 + b.length) ++ beOctets 2 (if c = 0 then 65535 else c) ++ b := by
  subst hc
  unfold TxFrame.udp TxFrame.pseudo
  split <;> simp only [TxFrame.ports, List.append_assoc]

theorem pseudo_length_even (f : TxFrame) (n : Nat) : (f.pseudo n).length % 2 = 0 := by
  have hsrc := addr_length_even f f.src
  have hdst := addr_length_even f f.dst
  unfold TxFrame.pseudo
  split <;> simp <;> omega

theorem ports_length (f : TxFrame) (n : Nat) : (f.ports n).length = 6 := by simp [TxFrame.ports]

/-- The protocol number keeps the sum of a pseudo-header above 0. -/
theorem wordSum_pseudo_ne_zero (f : TxFrame) (n : Nat) : wordSum (f.pseudo n) ≠ 0 := by
  have hends : (f.addr f.src ++ f.addr f.dst).length % 2 = 0 := by
    rw [List.length_append, Nat.add_mod, addr_length_even, addr_length_even]
  have hprotocol : wordSum (if f.v6 = true then beOctets 4 n ++ [0, 0, 0, 17] else [0, 17] ++ beOctets 2 n) ≠ 0 := by
    split
    · rw [wordSum_append _ _ (by simp)]
      simp [wordSum]
    · simp [wordSum]
  rw [TxFrame.pseudo, wordSum_append _ _ hends]
  omega

/-- R258, R293: a UDP datagram checks with its pseudo-header, in both families. -/
theorem inetSum_pseudo_udp (f : TxFrame) (b : Bytes) : inetSum (f.pseudo (8 + b.length) ++ f.udp b) = 0 := by
  rw [udp_eq f b rfl, ← List.append_assoc, ← List.append_assoc]
  have heven : (f.pseudo (8 + b.length) ++ f.ports (8 + b.length)).length % 2 = 0 := by
    rw [List.length_append, ports_length, Nat.add_mod, pseudo_length_even]
  have hnonzero : wordSum (f.pseudo (8 + b.length) ++ f.ports (8 + b.length)) ≠ 0 := by
    rw [wordSum_append _ _ (pseudo_length_even f _)]
    have hpseudo := wordSum_pseudo_ne_zero f (8 + b.length)
    omega
  exact (inetSum_field heven hnonzero rfl).1

/-- With a key the RTP header leaves in clear. -/
theorem srtpOctets_take_header (k : SrtpKey × Nat) (ssrc : Nat) (header payload : Bytes) :
    (srtpOctets (some k) ssrc header payload).take header.length = header :=
  List.take_left

end Wire

/-- Settles O47: each clause by the lemma of its octets above. -/
theorem sentHeadersCheck : Obligations.SentHeadersCheck := by
  unfold Obligations.SentHeadersCheck
  exact ⟨fun f n hv4 => inetSum_ip hv4 n, fun f b => inetSum_pseudo_udp f b, extOctets_length,
    fun ssrc header payload => rfl, srtpOctets_take_header⟩

end Sys2Proof.Machine

/-! # The key window, the Seal engine and the legs' keys (O46) -/
namespace Sys2Proof.Machine

section Window

variable (r : KeyRec) (s : State)

/-- R405, R406: the status decides whether the record acts; the window closes the same way for every action. -/
theorem keyCommand_eq (action : Nat) : keyCommand action r s
    = emitIf (if keyCheck s action r = .ok then keyApply action r s else s).sea.keyIrqEn (.msix 28)
        (bump K.KEY_COMMANDS { (if keyCheck s action r = .ok then keyApply action r s else s) with
          sea.keyData := List.replicate 64 0, sea.keyStatus := (keyCheck s action r).code, sea.keyDone := true }) := rfl

variable {r s}

/-- R406: the record's check comes first. -/
theorem keyCheck_of_badCheck (hbad : r.checkOk = false) (action : Nat) : keyCheck s action r = .type := by
  simp [keyCheck, hbad]

theorem keyApply_load (hseal : r.kind = 1) : keyApply 1 r s = sealLoad r s := by
  simp [keyApply, hseal]

theorem keyApply_erase (hseal : r.kind = 1) : keyApply 2 r s = sealErase r.target s := by
  simp [keyApply, hseal]

end Window

section Engine

variable {s t u : State}

theorem exec_sealRequest_joins {r : SealReq} (hroom : s.sea.queue.length < 512) :
    exec (.sealRequest r) s = .next { s with sea.queue := s.sea.queue ++ [{ req := r }] } :=
  if_neg (Nat.not_le.mpr hroom)

/-- R409: past 512 waiting requests a request is refused, and an item that made it has failed. -/
theorem exec_sealRequest_refused {r : SealReq} (hfull : 512 ≤ s.sea.queue.length) :
    exec (.sealRequest r) s = .next (if r.source == 3 then completeOn r.me [.failed (some 0x07)] (bump K.SEAL_REFUSED s)
      else bump K.SEAL_REFUSED s) :=
  if_pos hfull

theorem exec_sealDequeue_head {w : SealWork} {rest : List SealWork} {res : Nat} {nonce tag : List Nat}
    (hqueue : s.sea.queue = w :: rest)
    (hcompute : sealCompute w.req w.absent (sealMsg s w.req) ((sealArea s w.req).drop 16)
      (((sealArea s w.req).drop 4).take 12) { s with sea.queue := rest } = ((res, nonce, tag), t)) :
    exec .sealDequeue s
      = .next { t with sea.work := t.sea.work ++ [{ w with result := res, nonce := nonce, tag := tag }] } := by
  simp only [exec_sealDequeue, execSealDequeue, hqueue, hcompute]

/-- R412, R413: a request whose first results agree counts no upset and is released with its own result. -/
theorem exec_sealComplete_agreed {w : SealWork} {rest : List SealWork} (agree2 : Bool) (hwork : s.sea.work = w :: rest)
    (hcores : sealCores { s with sea.work := rest } ≠ 0) (ht : t = sealSync { s with sea.work := rest })
    (hu : u = bump K.SEAL_REQUESTS (upd (w.result == sealCompareFail) (bump K.COMPARE_FAILS) t)) :
    exec (.sealComplete false false agree2) s = .next (upd (w.req.source == 3) (completeOn w.req.me [])
      (if bitOf w.req.flags 1 then emit (.hostWrite w.req.resAddr (octets (sealRecord w w.result))) u
        else upd (hubRange u w.req.resAddr 32) (memWrite w.req.resAddr (octets (sealRecord w w.result))) u)) := by
  have hup : (sealCores { s with sea.work := rest } == 0) = false := beq_false_of_ne hcores
  subst ht hu
  simp [execSealComplete, hwork, hup, upd]

end Engine

section Legs

variable {l : Nat} {s : State}

/-- R419: at EFFECTIVE the NEXT egress key is CUR and the SRTCP index restarts. -/
theorem exec_egressKeyEffective_due (hnext : (tabGet {} s.sea.srtpOut l).next.isSome = true)
    (hdue : (tabGet {} s.sea.srtpOut l).effective ≤ nowNs s) : exec (.egressKeyEffective l) s
      = .next (egressApply l
          { s with sea.srtpOut := tabSet {} s.sea.srtpOut l { cur := (tabGet {} s.sea.srtpOut l).next } }) := by
  rw [exec_egressKeyEffective, execEgressKeyEffective]
  exact congrArg _ (if_pos ⟨hnext, hdue⟩)

end Legs

/-- Settles O46: the window by its one command, requests by the room in the queue, the rest by its lemma above. -/
theorem keysAndSealsAct : Obligations.KeysAndSealsAct := by
  unfold Obligations.KeysAndSealsAct
  refine ⟨?load, ?erase, ?loadNext, ?badCheck, ?slot, ?joins, ?refused, ?dequeue, ?complete, ?effective, ?expiry⟩
  case load =>
    intro r s
    rw [exec_keyLoad, execKeyLoad, keyCommand_eq]
  case erase =>
    intro r s
    rw [exec_keyErase, execKeyErase, keyCommand_eq]
  case loadNext =>
    intro r s
    rw [exec_keyLoadNext, execKeyLoadNext, keyCommand_eq]
  case badCheck => exact fun r s hbad action => keyCheck_of_badCheck hbad action
  case slot => exact fun r s hseal => ⟨keyApply_load hseal, keyApply_erase hseal⟩
  case joins => exact fun r s hroom => exec_sealRequest_joins hroom
  case refused => exact fun r s hfull => exec_sealRequest_refused hfull
  case dequeue => exact fun w rest s t res nonce tag hqueue hcompute => exec_sealDequeue_head hqueue hcompute
  case complete =>
    exact fun w rest agree2 s t u hwork hcores ht hu => exec_sealComplete_agreed agree2 hwork hcores ht hu
  case effective =>
    intro l s hnext hdue
    rw [exec_egressKeyEffective_due hnext hdue, egressApply]
  case expiry =>
    intro l s
    rw [exec_prevKeyExpiry, execPrevKeyExpiry]

end Sys2Proof.Machine

/-! # Temperature, the watchdog, the host watch and the PCIe pins; the test port (O52, O56) -/
namespace Sys2Proof.Machine

theorem upd_of {c : Bool} (hc : c = true) (f : State → State) (s : State) : upd c f s = f s := if_pos hc

theorem upd_of_not {c : Bool} (hc : c = false) (f : State → State) (s : State) : upd c f s = s :=
  if_neg (ne_true_of_eq_false hc)

section Temperature

variable {temp : Int} {s t : State}

/-- R438: the event is the report that first reaches TEMP_ALARM. -/
theorem exec_tempAlarm_reached (ht : t = wrI 16 K.DIE_TEMP temp s) (hbelow : rdI 16 s K.DIE_TEMP < rdI 16 t K.TEMP_ALARM)
    (hreached : rdI 16 t K.TEMP_ALARM ≤ temp) : exec (.tempAlarm temp) s = .next (bump K.TEMP_EVENTS (pwrEvt 4 t)) := by
  subst ht
  exact congrArg _ (if_pos ⟨hbelow, hreached⟩)

theorem exec_tempAlarm_not (ht : t = wrI 16 K.DIE_TEMP temp s)
    (hnot : temp < rdI 16 t K.TEMP_ALARM ∨ rdI 16 t K.TEMP_ALARM ≤ rdI 16 s K.DIE_TEMP) :
    exec (.tempAlarm temp) s = .next t := by
  subst ht
  exact congrArg _ (if_neg (by omega))

theorem exec_tempShutdown_hot (hhot : 1000 ≤ temp) (hstarted : s.boot.step ≠ 0) : exec (.tempShutdown temp) s
    = .next (hubOff (storm 0x0050 (stormChannel 0xFF 0) [ofInt 16 temp] (wrI 16 K.DIE_TEMP temp s))) :=
  congrArg _ (if_neg (not_or.mpr ⟨not_lt.mpr hhot, hstarted⟩))

end Temperature

section Watches

variable {s t : State}

/-- R446: the recorded resets are this one and those of the last 600 s. -/
theorem exec_watchdogTimeout_due (hruns : 3 ≤ s.boot.step) (hpast : s.flt.wdtServed + rd s K.WDT_PERIOD * ms1 ≤ clk s)
    (ht : t = { s with flt.wdtResets := clk s :: wdtRecent s }) : exec .watchdogTimeout s
      = .next (warmReset 2 (storm 0x0002 (stormChannel 0xFF 0) [(wdtRecent s).length + 1] (bump K.WDT_RESETS t))) := by
  subst ht
  exact if_neg (not_or.mpr ⟨Nat.not_lt.mpr hruns, Nat.not_lt.mpr hpast⟩)

/-- R447: one miss is counted until the host is back. -/
theorem exec_hostWatchTimeout_missed (hwatch : rd s K.HOST_WATCH ≠ 0) (hthere : bitOf (rd s K.SUMMARY) 5 = false)
    (hpast : s.flt.hostPing + rd s K.HOST_WATCH * ms1 ≤ clk s) :
    exec .hostWatchTimeout s = .next (hostLost s) :=
  congrArg _ (if_neg (not_or.mpr ⟨hwatch, not_or.mpr ⟨ne_true_of_eq_false hthere, Nat.not_lt.mpr hpast⟩⟩))

theorem exec_pcieLinkDown_up (hup : s.flt.pcieUp = true) :
    exec .pcieLinkDown s = .next (hostLost { s with flt.pcieUp := false }) :=
  congrArg _ (if_pos hup)

theorem exec_pcieLinkUp_trains (hpin : s.flt.perstLow = false) (hdown : s.flt.pcieUp = false) : exec .pcieLinkUp s
    = .next (upd (rd s K.HOST_WATCH == 0) (summary 5 false) { s with flt.pcieUp := true }) := by
  simp [execPcieLinkUp, hpin, hdown]

/-- R490: PERST# low is a link loss and drops the mailboxes. -/
theorem exec_perstN_low_up (hup : s.flt.pcieUp = true) : exec (.perstN false) s
    = .next (hostLost { s with flt.perstLow := true, flt.pcieUp := false, dic.mbx := [] }) := by
  simp [execPerstN, upd, hup]

end Watches

/-- Settles O52: each clause by the lemma of its condition above. -/
theorem faultsAndHostWatched : Obligations.FaultsAndHostWatched := by
  unfold Obligations.FaultsAndHostWatched
  refine ⟨?alarm, ?noAlarm, ?shutdown, ?service, ?watchdog, ?hostMissed, ?linkDown, ?linkUpUnwatched, ?linkUpWatched,
    ?pinHigh, ?pinLow⟩
  case alarm => exact fun temp s t ht hbelow hreached => exec_tempAlarm_reached ht hbelow hreached
  case noAlarm => exact fun temp s t ht hnot => exec_tempAlarm_not ht hnot
  case shutdown => exact fun temp s hhot hstarted => exec_tempShutdown_hot hhot hstarted
  case service =>
    intro s
    rw [exec_wdtService, execWdtService]
  case watchdog => exact fun s t hruns hpast ht => exec_watchdogTimeout_due hruns hpast ht
  case hostMissed =>
    intro s hwatch hthere hpast
    rw [exec_hostWatchTimeout_missed hwatch hthere hpast, hostLost]
  case linkDown =>
    intro s hup
    rw [exec_pcieLinkDown_up hup, hostLost]
  case linkUpUnwatched =>
    intro s hpin hdown hunwatched
    rw [exec_pcieLinkUp_trains hpin hdown, upd_of (beq_iff_eq.mpr hunwatched)]
  case linkUpWatched =>
    intro s hpin hdown hwatched
    rw [exec_pcieLinkUp_trains hpin hdown, upd_of_not (beq_false_of_ne hwatched)]
  case pinHigh => exact fun s => rfl
  case pinLow =>
    intro s hup
    rw [exec_perstN_low_up hup, hostLost]

/-- Settles O56: an instruction loads its registers, or suspends the part with them; the rest by the pin and the boot
step. -/
theorem testPortActs : Obligations.TestPortActs := by
  unfold Obligations.TestPortActs
  refine ⟨?loads, ?suspends, ?unlock, ?copy⟩
  case loads =>
    intro s
    simp only [exec_bypass, execBypass, exec_idcode, execIdcode, exec_samplePreload, execSamplePreload, and_self]
  case suspends =>
    intro s
    simp only [exec_extest, execExtest, exec_extestPulse, execExtestPulse, exec_extestTrain, execExtestTrain,
      exec_clamp, execClamp, exec_highz, execHighz, and_self]
  case unlock =>
    intro s
    simp only [exec_testUnlock, execTestUnlock, if_true, Bool.false_eq_true, if_false, and_self]
  case copy =>
    intro s hpowered
    rw [exec_stormFlashCopy, execStormFlashCopy, if_neg hpowered]

end Sys2Proof.Machine

/-! # The power controller: LULL, entries, wake sources, wake steps, power-good and LIMP (O51)

A unit or a domain goes on where its conditions hold and its step has run long enough. The lemmas answer those conditions
once; a rail's loss is a fold of one domain's loss. -/
namespace Sys2Proof.Machine

section Lull

variable {unit : Fin 140} {s : State}

theorem lull_allowed {d : Nat} (henabled : rd s (K.LULL_EN d) ≠ 0) (hruns : pdState s d = pdRun) :
    ¬ (rd s (K.LULL_EN d) = 0 ∨ pdState s d ≠ pdRun) :=
  not_or.mpr ⟨henabled, not_not.mpr hruns⟩

/-- R425: an engine of a running domain that has neither work nor a tick slot is in LULL. -/
theorem exec_lullEntry_engine (hunit : unit.val < 128) (henabled : rd s (K.LULL_EN (1 + unit.val / 16)) ≠ 0)
    (hruns : pdState s (1 + unit.val / 16) = pdRun) (hstate : rd s (K.ME_STATE unit.val) = 0)
    (hwork : runningOn s unit.val = none) (hslot : tickSlotOn s unit.val = none) :
    exec (.lullEntry unit) s = .next (wr (K.ME_STATE unit.val) 1 s) := by
  have hfree : rd s (K.ME_STATE unit.val) = 0 ∧ (runningOn s unit.val).isNone = true
      ∧ (tickSlotOn s unit.val).isNone = true := ⟨hstate, by rw [hwork]; rfl, by rw [hslot]; rfl⟩
  simp only [exec_lullEntry, execLullEntry, if_pos hunit, if_neg (lull_allowed henabled hruns), if_pos hfree]

theorem exec_lullEntry_cluster {c : Nat} (hunit : unit.val = 128 + c) (hc : c < 8)
    (henabled : rd s (K.LULL_EN (1 + c)) ≠ 0) (hruns : pdState s (1 + c) = pdRun) (hstate : rd s (K.CL_STATE c) = 0)
    (hengines : ∀ i < 16, rd s (K.ME_STATE (c * 16 + i)) ≠ 0) :
    exec (.lullEntry unit) s = .next (enterLull (1 + c) (wr (K.CL_STATE c) 1 s)) := by
  have hdomain : 128 + c - 127 = 1 + c := by omega
  have hcluster : 128 + c < 136 := by omega
  have hengine : ¬ 128 + c < 128 := by omega
  simp only [exec_lullEntry, execLullEntry, hunit, if_neg hengine, if_pos hcluster, hdomain, Nat.add_sub_cancel_left]
  have hbusy : (List.range 16).all (fun i => rd s (K.ME_STATE (c * 16 + i)) != 0) = true :=
    List.all_eq_true.mpr fun i hi => bne_iff_ne.mpr (hengines i (List.mem_range.mp hi))
  rw [if_neg (lull_allowed henabled hruns), if_pos ⟨hstate, hbusy⟩]

theorem exec_lullEntry_codec {j : Nat} (hunit : unit.val = 136 + j) (hj : j < 3)
    (henabled : rd s (K.LULL_EN (14 + j)) ≠ 0) (hruns : pdState s (14 + j) = pdRun) (hstate : rd s (K.INST_STATE j) = 0)
    (hidle : (if j < 2 then (vdecPick s j).isNone else (vencPick s).isNone) = true) :
    exec (.lullEntry unit) s = .next (enterLull (14 + j) (wr (K.INST_STATE j) 1 s)) := by
  have hdomain : 136 + j - 122 = 14 + j := by omega
  have hcodec : 136 + j < 139 := by omega
  have hcluster : ¬ 136 + j < 136 := by omega
  have hengine : ¬ 136 + j < 128 := by omega
  simp only [exec_lullEntry, execLullEntry, hunit, if_neg hengine, if_neg hcluster, if_pos hcodec, hdomain,
    Nat.add_sub_cancel_left]
  rw [if_neg (lull_allowed henabled hruns), if_pos ⟨hstate, hidle⟩]

theorem exec_lullEntry_compositor (henabled : rd s (K.LULL_EN 17) ≠ 0) (hruns : pdState s 17 = pdRun)
    (hstate : rd s K.COMP_STATE = 0) (hidle : s.cmp.current = none) (hwaiting : ∀ e ∈ s.cmp.outs, e.2.waiting = none) :
    exec (.lullEntry 139) s = .next (enterLull 17 (wr K.COMP_STATE 1 s)) := by
  have hunit : ((139 : Fin 140) : Nat) = 139 := rfl
  have hengine : ¬ 139 < 128 := by decide
  have hcluster : ¬ 139 < 136 := by decide
  have hcodec : ¬ 139 < 139 := by decide
  have hdomain : 139 - 122 = 17 := rfl
  have hnone : rd s K.COMP_STATE = 0 ∧ s.cmp.current.isNone = true
      ∧ s.cmp.outs.all (fun e => e.2.waiting.isNone) = true := by
    refine ⟨hstate, by simp [hidle], List.all_eq_true.mpr fun e he => ?_⟩
    rw [hwaiting e he]
    rfl
  simp only [exec_lullEntry, execLullEntry, hunit, if_neg hengine, if_neg hcluster, if_neg hcodec, hdomain,
    if_neg (lull_allowed henabled hruns), if_pos hnone]

end Lull

section Entry

variable {s t : State} {e : PwrEntry}

/-- R428, R430: a drained entry writes a checkpoint, and a wake source that came meanwhile abandons it. -/
theorem exec_drainComplete_drained (hentry : s.pwr.entry = some e) (hstep : e.step = 3) (hdrained : drained s e.depth = true)
    (ht : t = checkpointDone (checkpointStart s)) : exec .drainComplete s
      = .next (if e.wake.isSome = true then entryAbandon t else if e.depth = 4 then hubOff (cmdComplete 0x0400 4 .ok t)
          else entryDown e.depth e.again t) := by
  have hgo : ¬ (e.step ≠ 3 ∨ drained s e.depth = false) := by simp [hstep, hdrained]
  simp only [exec_drainComplete, execDrainComplete, hentry, if_neg hgo, ht]
  split
  · rfl
  · split <;> rfl

theorem exec_drainTimeout_past (hentry : s.pwr.entry = some e) (hpast : e.t0 + rd s K.DRAIN_TIMEOUT * ms1 ≤ clk s) :
    exec .drainTimeout s = .next (entryAbandon s) := by
  simp only [exec_drainTimeout, execDrainTimeout, hentry, if_pos hpast]

/-- R480: an idle STANDBY hub with nothing due within 10 s sleeps again. -/
theorem exec_standbyIdleTimeout_idle (hmode : modeOf s = mStandby) (hruns : hubPower s = hpRun)
    (htransition : s.boot.transition = none) (hidle : s.pwr.lastActive + 10 * s1 ≤ clk s)
    (hlaunches : ∀ e ∈ s.isb.launches, e.2.active = true → s.isb.now + 10 * s1 < e.2.instant)
    (hdelays : ∀ u, delayFirst s = some u → s.isb.now + 10 * s1 < u) (hready : sleepReady s = true) :
    exec .standbyIdleTimeout s = .next (entryField (entryStart (2 + rd s K.STANDBY_DEPTH) true s)) := by
  have hlaunch : s.isb.launches.any (fun e => e.2.active && decide (e.2.instant ≤ s.isb.now + 10 * s1)) = false := by
    refine List.any_eq_false.mpr fun e he => ?_
    rw [Bool.and_eq_true, decide_eq_true_eq]
    exact fun h => Nat.not_le.mpr (hlaunches e he h.1) h.2
  cases hdelay : delayFirst s with
  | none => simp [execStandbyIdleTimeout, hmode, hruns, htransition, hidle, hready, hlaunch, hdelay]
  | some u =>
    have hlater := hdelays u hdelay
    simp [execStandbyIdleTimeout, hmode, hruns, htransition, hidle, hready, hlaunch, hdelay, hlater]

end Entry

section Sources

variable {s : State}

/-- R432: an event that meets PD0 is latched, wakes the hub and is delivered once it can be. -/
theorem privileged_eq (src data : Nat) (at_ : Instant) (hpowered : s.boot.step ≠ 0) :
    privileged src data at_ s = latchReplay (wakeHub src (latchEvent src data at_ s)) :=
  if_neg hpowered

theorem exec_wakeN_present (hsupply : s.boot.supply = true) (hreset : s.boot.rstLow = false)
    (hscan : s.diag.suspended = false) : exec .wakeN s = .next (if s.boot.step = 0 then
      (if s.pwr.hpwrEn then s else coldStart (emit (.pin "HPWR_EN" true) { s with pwr.hpwrEn := true }))
    else privileged 1 0 s.isb.now s) :=
  congrArg _ (if_neg (by simp [hsupply, hreset, hscan]))

theorem exec_isobarAlarm_due (hset : rd s K.ALARM ≠ 0) (hnew : s.isb.alarmDone ≠ rd s K.ALARM)
    (hreached : rd s K.ALARM * ns1 ≤ s.isb.now) : exec .isobarAlarm s
      = .next (privileged 5 0 (rd s K.ALARM * ns1) { s with isb.alarmDone := rd s K.ALARM }) :=
  if_neg (not_or.mpr ⟨hset, not_or.mpr ⟨hnew, Nat.not_lt.mpr hreached⟩⟩)

end Sources

section Steps

variable {d : Nat} {s : State}

theorem stepOn_at {step : Nat} (hat : atStep s step d = true) :
    stepOn step d s = domainUpd d (fun x => { x with step := step + 1, tries := 0, since := clk s }) s :=
  if_pos hat

/-- R433: with PD18 up and a boot past its copies, a memory step that does not fail is followed by the logic step. -/
theorem exec_memoryReady_next {failed bad : List Nat} (hnot18 : d ≠ 18) (hat : atStep s 3 d = true)
    (hmemory : needsMemory d = true → pdState s 18 ≤ pdLull)
    (hfirmware : onVme d = true → 4 ≤ s.boot.step ∧ (fwLoads bad s = true ∨ (domainOf s d).from_ = pdCalm)) :
    exec (.memoryReady d failed bad) s
      = .next (domainUpd d (fun x => { x with step := 4, tries := 0, since := clk s }) s) := by
  have hgo : ¬ (!atStep s 3 d || (needsMemory d && decide (pdLull < pdState s 18))
      || (onVme d && decide (s.boot.step < 4))) = true := by
    simp only [hat, Bool.or_eq_true, Bool.and_eq_true, decide_eq_true_eq, Bool.not_true, Bool.false_eq_true, false_or]
    rintro (⟨hneeds, hdown⟩ | ⟨hcluster, hearly⟩)
    · exact Nat.not_lt.mpr (hmemory hneeds) hdown
    · exact Nat.not_lt.mpr (hfirmware hcluster).1 hearly
  have hloads : ¬ (onVme d && !fwLoads bad s && (domainOf s d).from_ != pdCalm) = true := by
    simp only [Bool.and_eq_true, Bool.not_eq_true', bne_iff_ne]
    rintro ⟨⟨hcluster, hbad⟩, hfrom⟩
    rcases (hfirmware hcluster).2 with hgood | hcalm
    · exact ne_true_of_eq_false hbad hgood
    · exact hfrom hcalm
  rw [exec_memoryReady, execMemoryReady, if_neg hgo, if_neg hloads, upd_of_not (beq_false_of_ne hnot18), stepOn_at hat]

/-- R160: a cluster whose image is in no mirror fails at its memory step. -/
theorem exec_memoryReady_fails {failed bad : List Nat} (hcluster : onVme d = true) (hat : atStep s 3 d = true)
    (hmemory : pdState s 18 ≤ pdLull) (hcopied : 4 ≤ s.boot.step) (hbad : fwLoads bad s = false)
    (hfrom : (domainOf s d).from_ ≠ pdCalm) : exec (.memoryReady d failed bad) s = .next (domainFail d 3 s) := by
  have hgo : ¬ (!atStep s 3 d || (needsMemory d && decide (pdLull < pdState s 18))
      || (onVme d && decide (s.boot.step < 4))) = true := by
    simp [hat, Nat.not_lt.mpr hmemory, Nat.not_lt.mpr hcopied]
  have hfails : (onVme d && !fwLoads bad s && (domainOf s d).from_ != pdCalm) = true := by
    simp [hcluster, hbad, hfrom]
  rw [exec_memoryReady, execMemoryReady, if_neg hgo, if_pos hfails]

end Steps

section Timeouts

variable {d locks : Nat} {s : State}

section Late

variable (hwaking : pdState s d = pdWaking)
  (hpast : (domainOf s d).since + stepTimeout (domainOf s d).step ≤ clk s)
  (hbegun : (domainOf s d).step = 3 → needsMemory d = true → pdState s 18 ≤ pdLull)
include hwaking hpast hbegun

theorem step_is_late : ¬ (pdState s d ≠ pdWaking ∨ clk s < (domainOf s d).since + stepTimeout (domainOf s d).step
    ∨ ((domainOf s d).step = 3 ∧ needsMemory d = true ∧ pdLull < pdState s 18)) := by
  rintro (hother | hsoon | ⟨hthird, hneeds, hdown⟩)
  · exact hother hwaking
  · exact Nat.not_lt.mpr hpast hsoon
  · exact Nat.not_lt.mpr (hbegun hthird hneeds) hdown

/-- R435: an oscillator step on the timebase or fabric PLL that does not end is LIMP. -/
theorem exec_wakeStepTimeout_limp (hstep : (domainOf s d).step = 2) (hd : d = 9 ∨ d = 10 ∨ d = 13) :
    exec (.wakeStepTimeout d locks) s = .next (limpEnter locks s) := by
  have hfabric : (domainOf s d).step = 2 ∧ [9, 10, 13].contains d = true := ⟨hstep, by simpa using hd⟩
  rw [exec_wakeStepTimeout, execWakeStepTimeout, if_neg (step_is_late hwaking hpast hbegun)]
  exact if_pos hfabric

/-- R434: a step is tried again twice; a regulator's enable goes low and up first. -/
theorem exec_wakeStepTimeout_retry (hnot2 : (domainOf s d).step ≠ 2) (htries : (domainOf s d).tries < 2) :
    exec (.wakeStepTimeout d locks) s = .next (if (domainOf s d).step = 1 then
        railRetry d (bump (K.PD_RETRIES d) (domainUpd d (fun x => { x with tries := x.tries + 1, since := clk s + ms1 }) s))
      else bump (K.PD_RETRIES d) (domainUpd d (fun x => { x with tries := x.tries + 1, since := clk s }) s)) := by
  rw [exec_wakeStepTimeout, execWakeStepTimeout, if_neg (step_is_late hwaking hpast hbegun)]
  simp only [if_neg (fun h : _ ∧ _ => hnot2 h.1), if_pos htries]
  split <;> simp_all

/-- R434: the third timeout fails the domain, and with a regulator every domain that waits for its rail. -/
theorem exec_wakeStepTimeout_fails (hnot2 : (domainOf s d).step ≠ 2) (htries : 2 ≤ (domainOf s d).tries) :
    exec (.wakeStepTimeout d locks) s = .next (if (domainOf s d).step = 1 then
        (hubDomains.filter (fun e => sameRail d e && (e == d || atStep s 1 e))).foldl (fun z e => domainFail e 1 z) s
      else domainFail d (domainOf s d).step s) := by
  rw [exec_wakeStepTimeout, execWakeStepTimeout, if_neg (step_is_late hwaking hpast hbegun)]
  simp only [if_neg (fun h : _ ∧ _ => hnot2 h.1), if_neg (Nat.not_lt.mpr htries)]
  split <;> rfl

end Late

end Timeouts

section Rails

/-- A domain whose rail is lost begins its regulator step again. -/
def regulatorAgain (d : Nat) (u : State) : State :=
  domainUpd d (fun _ => { step := 1, from_ := pdOff, since := clk u }) (wr (K.PD_STATE d) pdWaking u)

/-- What a lost rail does to one of its domains. -/
def railLost (vme : Bool) (s : State) (d : Nat) : State :=
  if 6 ≤ pdState s d then s else
  match upset cDomain d (leaveLull d s) with
  | (u, true) => domainGone d pdRetired u
  | (u, false) =>
    if vme then clusterFollows (d - 1) 3 2 (enginesReset (d - 1) (stopBanks (clusterLost (d - 1) (regulatorAgain d u))))
    else if d = 11 then pairLanes false (portsAsleep (regulatorAgain d u)) else regulatorAgain d u

variable {s : State}

theorem exec_powerGoodLoss_vme (henabled : s.pwr.vmeEn = true) : exec (.powerGoodLoss 0) s
    = .next ([1, 2, 3, 4, 5, 6, 7, 8].foldl (railLost true) { s with pwr.vmePg := false }) :=
  if_neg (by simp [henabled])

theorem exec_powerGoodLoss_vsd (henabled : s.pwr.vsdEn = true) : exec (.powerGoodLoss 1) s
    = .next ([11, 12].foldl (railLost false) { s with pwr.vsdPg := false }) :=
  if_neg (by simp [henabled])

theorem exec_powerGoodLoss_disabled {rail : Fin 2} (hvme : rail.val = 0 → s.pwr.vmeEn = false)
    (hvsd : rail.val = 1 → s.pwr.vsdEn = false) : exec (.powerGoodLoss rail) s = .next s := by
  match rail with
  | 0 => exact if_pos (by simp [hvme rfl])
  | 1 => exact if_pos (by simp [hvsd rfl])

/-- A function that does what a lost rail does, case by case, is that of `railLost`. -/
theorem railLost_eq_of {f : State → Nat → State} {vme : Bool} {z : State} {d : Nat}
    (hout : 6 ≤ pdState z d → f z d = z)
    (hretired : ∀ u, pdState z d < 6 → upset cDomain d (leaveLull d z) = (u, true) → f z d = domainGone d pdRetired u)
    (hagain : ∀ u, pdState z d < 6 → upset cDomain d (leaveLull d z) = (u, false) → f z d = if vme then
        clusterFollows (d - 1) 3 2 (enginesReset (d - 1) (stopBanks (clusterLost (d - 1) (regulatorAgain d u))))
      else if d = 11 then pairLanes false (portsAsleep (regulatorAgain d u)) else regulatorAgain d u) :
    railLost vme z d = f z d := by
  by_cases hin : 6 ≤ pdState z d
  · rw [railLost, if_pos hin, hout hin]
  · have hlow : pdState z d < 6 := Nat.lt_of_not_le hin
    rcases hupset : upset cDomain d (leaveLull d z) with ⟨u, _ | _⟩
    · rw [hagain u hlow hupset]
      simp only [railLost, if_neg hin, hupset]
    · rw [hretired u hlow hupset]
      simp only [railLost, if_neg hin, hupset]

end Rails

/-- Settles O51: units by what keeps them busy, entries by how they end, wakes by their source, steps by what they report
and when, rails by a fold over their domains. -/
theorem domainsAndHubChangePower : Obligations.DomainsAndHubChangePower := by
  unfold Obligations.DomainsAndHubChangePower
  refine ⟨?engine, ?cluster, ?codec, ?compositor, ?drained, ?drainTimeout, ?standby, ?wakeOff, ?wakeOn, ?alarm, ?host,
    ?regulator, ?pll, ?memory, ?memoryFails, ?logic, ?limpStep, ?stepTimeout, ?regulatorTimeout, ?vme, ?vsd, ?disabled,
    ?limp⟩
  case engine =>
    exact fun unit s hunit henabled hruns hstate hwork hslot =>
      exec_lullEntry_engine hunit henabled hruns hstate hwork hslot
  case cluster =>
    intro unit s c hlow hhigh hc henabled hruns hstate hengines
    exact exec_lullEntry_cluster (by omega) (by omega) henabled hruns hstate hengines
  case codec =>
    intro unit s j hunit hj henabled hruns hstate hvdec hvenc
    refine exec_lullEntry_codec hunit hj henabled hruns hstate ?_
    split
    · rename_i hlow
      rw [hvdec hlow]
      rfl
    · rw [hvenc (by omega)]
      rfl
  case compositor =>
    exact fun s henabled hruns hstate hidle hwaiting => exec_lullEntry_compositor henabled hruns hstate hidle hwaiting
  case drained => exact fun s t e hentry hstep hdrained ht => exec_drainComplete_drained hentry hstep hdrained ht
  case drainTimeout => exact fun s e hentry hpast => exec_drainTimeout_past hentry hpast
  case standby =>
    exact fun s hmode hruns htransition hidle hlaunches hdelays hready =>
      exec_standbyIdleTimeout_idle hmode hruns htransition hidle hlaunches hdelays hready
  case wakeOff =>
    intro s hsupply hreset hscan hoff hpower
    rw [exec_wakeN_present hsupply hreset hscan, if_pos hoff, if_neg (ne_true_of_eq_false hpower)]
  case wakeOn =>
    intro s hsupply hreset hscan hpowered
    rw [exec_wakeN_present hsupply hreset hscan, if_neg hpowered, privileged_eq 1 0 s.isb.now hpowered]
  case alarm =>
    intro s hset hnew hreached hpowered
    rw [exec_isobarAlarm_due hset hnew hreached]
    exact congrArg _ (privileged_eq 5 0 _ hpowered)
  case host => exact fun s hcalm => congrArg _ (if_pos hcalm)
  case regulator =>
    intro rail d s
    refine ⟨fun hrail henabled => ?_, fun hrail henabled => ?_, fun hrail hvme hvsd hat => ?_⟩
    · simp only [exec_regulatorReady, execRegulatorReady, hrail, if_true, if_pos henabled]
    · simp only [exec_regulatorReady, execRegulatorReady, hrail, Nat.one_ne_zero, if_false, if_true, if_pos henabled]
    · simp [execRegulatorReady, hrail, hvme, hvsd, stepOn_at hat]
  case pll =>
    intro d s hat
    rw [exec_pllLocked, execPllLocked, stepOn_at hat]
  case memory =>
    exact fun d failed bad s hnot18 hat hmemory hfirmware => exec_memoryReady_next hnot18 hat hmemory hfirmware
  case memoryFails =>
    exact fun d failed bad s hcluster hat hmemory hcopied hbad hfrom =>
      exec_memoryReady_fails hcluster hat hmemory hcopied hbad hfrom
  case logic => exact fun d s hat => congrArg _ (if_pos hat)
  case limpStep =>
    intro d locks s hwaking hstep hpast hd
    exact exec_wakeStepTimeout_limp hwaking (by rw [hstep]; exact hpast) (by simp [hstep]) hstep hd
  case stepTimeout =>
    intro d locks s hwaking hnot1 hnot2 hpast hbegun
    split
    · rename_i htries
      rw [exec_wakeStepTimeout_retry hwaking hpast hbegun hnot2 htries, if_neg hnot1]
    · rename_i htries
      rw [exec_wakeStepTimeout_fails hwaking hpast hbegun hnot2 (Nat.not_lt.mp htries), if_neg hnot1]
  case regulatorTimeout =>
    intro d locks s hwaking hstep hpast
    have hlate : (domainOf s d).since + stepTimeout (domainOf s d).step ≤ clk s := by rw [hstep]; exact hpast
    have hnot2 : (domainOf s d).step ≠ 2 := by simp [hstep]
    refine ⟨fun htries => ?_, fun htries => ?_⟩
    · rw [exec_wakeStepTimeout_retry hwaking hlate (by simp [hstep]) hnot2 htries, if_pos hstep]
    · rw [exec_wakeStepTimeout_fails hwaking hlate (by simp [hstep]) hnot2 htries, if_pos hstep]
  case vme =>
    intro f s henabled hout hretired hagain
    rw [exec_powerGoodLoss_vme henabled]
    exact congrArg _ (List.foldl_ext _ _ _ fun z d _ => railLost_eq_of (hout z d) (hretired z d) (hagain z d))
  case vsd =>
    intro f s henabled hout hretired hports hother
    rw [exec_powerGoodLoss_vsd henabled]
    refine congrArg _ (List.foldl_ext _ _ _ fun z d _ => railLost_eq_of (hout z d) (hretired z d) fun u hlow hupset => ?_)
    by_cases hd : d = 11
    · rw [hports z d u hd hlow hupset, if_neg Bool.false_ne_true, if_pos hd]
      rfl
    · rw [hother z d u hd hlow hupset, if_neg Bool.false_ne_true, if_neg hd]
      rfl
  case disabled => exact fun rail s hvme hvsd => exec_powerGoodLoss_disabled hvme hvsd
  case limp =>
    intro locks s hpowered hnotYet
    have hgo : ¬ (s.boot.step = 0 ∨ rd s K.LIMP = 1 ∨ (true = false
        ∧ ¬ (s.boot.step = 1 ∨ [9, 10, 13].any (fun d => pdState s d == pdWaking && (domainOf s d).step == 2) = true))) := by
      simp [hpowered, hnotYet]
    exact if_neg hgo

end Sys2Proof.Machine

/-! # DMA channels: commands, doorbells, pacing, fetches, transfers and timeouts (O49)

A channel's state decides what a command does to it, its phase what a completion does. -/
namespace Sys2Proof.Machine

section Control

variable {s t : State}

@[simp] theorem dmaState_dmaUpd (m k : Nat) (f : DmaCh → DmaCh) (s : State) : dmaState (dmaUpd m f s) k = dmaState s k :=
  rfl

theorem dmaCtrl_on {m : Nat} {host : Bool} {f : State → State} (hon : dmaState s m ≠ dsOff) :
    dmaCtrl m host f s = f (dmaUpd m (fun x => { x with startSpace := b2n host }) s) := if_neg hon

theorem dmaCtrl_off {m : Nat} {host : Bool} {f : State → State} (hoff : dmaState s m = dsOff) :
    dmaCtrl m host f s = s := if_pos hoff

/-- R378: GO starts at START. -/
theorem dmaGo_starts {m : Nat} (hstate : dmaState s m = dsIdle ∨ dmaState s m = dsStopped ∨ dmaState s m = dsHalted) :
    dmaGo m s = dmaActivate m (dmaUpd m (fun x => { x with
      cur := dmaStart x, curHost := x.startSpace == 1, stopReq := false }) s) := if_pos hstate

theorem dmaStop_running {m : Nat} (hstate : dmaState s m = dsRunning) :
    dmaStop m s = dmaUpd m (fun x => { x with stopReq := true }) s := if_pos hstate

theorem dmaStop_at_once {m : Nat}
    (hstate : dmaState s m = dsWaiting ∨ dmaState s m = dsParked ∨ dmaState s m = dsIdle) :
    dmaStop m s = dmaStopped m s := by
  have hidle : ¬ dmaState s m = dsRunning := by
    rcases hstate with h | h | h <;> rw [h] <;> decide
  rw [dmaStop, if_neg hidle, if_pos hstate]

theorem dmaResume_stopped {m : Nat} (hstate : dmaState s m = dsStopped) : dmaResume m s = dmaActivate m s :=
  if_pos hstate

/-- R381: a doorbell of a channel with work only sets KICK. -/
theorem dmaDoorbell_busy {m : Nat} (hstate : dmaState s m = dsRunning ∨ dmaState s m = dsWaiting) :
    dmaDoorbell m s = dmaUpd m (fun x => { x with kick := true }) s := by
  have hheard : ¬ (dmaState s m ≠ dsRunning ∧ dmaState s m ≠ dsWaiting ∧ dmaState s m ≠ dsParked) := by tauto
  have hunparked : dmaState s m ≠ dsParked := by
    rcases hstate with h | h <;> rw [h] <;> decide
  rw [dmaDoorbell, if_neg hheard]
  exact if_pos hunparked

/-- R381: a doorbell of a PARKED channel fetches the link again, or goes on at CUR. -/
theorem dmaDoorbell_parked {m : Nat} (hstate : dmaState s m = dsParked)
    (ht : t = dmaUpd m (fun x => { x with kick := true }) s) :
    dmaDoorbell m s = if (dmaOf t m).parkKind = 0 then dmaLink m (dmaUpd m (fun x => { x with count := 0, halt := 0 }) t)
      else dmaActivate m t := by
  have hheard : ¬ (dmaState s m ≠ dsRunning ∧ dmaState s m ≠ dsWaiting ∧ dmaState s m ≠ dsParked) := by tauto
  subst ht
  rw [dmaDoorbell, if_neg hheard]
  exact if_neg (not_not.mpr hstate)

end Control

section Pacing

variable {n : Fin 64} {s : State}

/-- R382: a request of kind 3 is a write of DMA.REQ. -/
theorem exec_dmaReq_counted (hon : dmaState s n.val ≠ dsOff) (hpaced : rd s (K.PACING n.val) = 1)
    (hkind : rd s (K.PACE_SOURCE n.val) / 268435456 = 3) : exec (.dmaReq n) s = .next (dmaRequest n.val s) :=
  congrArg _ (if_pos ⟨hon, hpaced, hkind⟩)

/-- R382: a request of kind 2 comes once at each multiple of its period. -/
theorem exec_dmaPaceTimer_counted (hon : dmaState s n.val ≠ dsOff) (hpaced : rd s (K.PACING n.val) = 1)
    (hkind : rd s (K.PACE_SOURCE n.val) / 268435456 = 2) (hperiod : rd s (K.PACE_SOURCE n.val) % 65536 * us1 ≠ 0)
    (hat : s.isb.now % (rd s (K.PACE_SOURCE n.val) % 65536 * us1) = 0) (hnew : (dmaOf s n.val).paceAt ≠ s.isb.now) :
    exec (.dmaPaceTimer n) s = .next (dmaRequest n.val (dmaUpd n.val (fun x => { x with paceAt := s.isb.now }) s)) :=
  congrArg _ (if_neg (not_or.mpr ⟨hon, not_or.mpr ⟨not_not.mpr hpaced, not_or.mpr ⟨not_not.mpr hkind,
    not_or.mpr ⟨hperiod, not_or.mpr ⟨not_not.mpr hat, hnew⟩⟩⟩⟩⟩))

theorem exec_dmaPacingPermit_goes (hwaits : dmaState s n.val = dsWaiting) (hpermits : dmaPermits s n.val = true) :
    exec (.dmaPacingPermit n) s = .next (dmaActivate n.val s) :=
  congrArg _ (if_pos ⟨hwaits, hpermits⟩)

end Pacing

section Fetches

variable {n : Fin 64} {host : Option Bytes} {s : State}

section Descriptor

variable (hphase : (dmaOf s n.val).phase = some .boundary)
include hphase

/-- R379: a descriptor is the engine's with OWN set, else the channel parks. -/
theorem exec_descriptorFetchDone_fetched {d : Bytes} (hfetch : dmaFetch s (dmaOf s n.val) 0 64 host = some d) :
    exec (.descriptorFetchDone n host false) s = .next (if bitOf (leAt d 0 4) 31 then dmaUpd n.val (fun x => { x with
        phase := some (.transfer d), askedAt := clk s, count := x.count + 1,
        pendingReq := if rd s (K.PACING n.val) = 1 then x.pendingReq - 1 else x.pendingReq }) s
      else dmaPark n.val 1 s) := by
  simp only [exec_descriptorFetchDone, execDescriptorFetchDone, if_neg (not_not.mpr hphase), Bool.false_eq_true,
    if_false, hfetch]

theorem exec_descriptorFetchDone_failed : exec (.descriptorFetchDone n host true) s = .next (dmaHalt n.val 2 s) := by
  simp only [exec_descriptorFetchDone, execDescriptorFetchDone, if_neg (not_not.mpr hphase), if_true]

end Descriptor

variable {b : Bytes} (hphase : (dmaOf s n.val).phase = some .link)
  (hfetch : dmaFetch s (dmaOf s n.val) 8 8 host = some b)
include hphase hfetch

theorem exec_linkFetchDone_next (hmore : leVal b % 2 ≠ 1) : exec (.linkFetchDone n host false) s
    = .next (dmaBoundary n.val (dmaUpd n.val (fun x => { x with
        cur := leVal b / 64 * 64, curHost := leVal b / 2 % 2 == 1 }) s)) := by
  simp only [exec_linkFetchDone, execLinkFetchDone, if_neg (not_not.mpr hphase), Bool.false_eq_true, if_false, hfetch,
    if_neg hmore]

theorem exec_linkFetchDone_end (hend : leVal b % 2 = 1) (hkick : (dmaOf s n.val).kick = false)
    (hstop : (dmaOf s n.val).stopReq = false) : exec (.linkFetchDone n host false) s = .next (dmaPark n.val 0 s) := by
  simp only [exec_linkFetchDone, execLinkFetchDone, if_neg (not_not.mpr hphase), Bool.false_eq_true, if_false, hfetch,
    if_pos hend, hkick, hstop]

end Fetches

section Transfers

variable {n : Fin 64} {host : Bytes} {s : State} {d : Bytes} {r : DmaEnd × State}

theorem exec_descriptorComplete_finishes (hphase : (dmaOf s n.val).phase = some (.transfer d))
    (hr : r = dmaTransfer d host none s) : exec (.descriptorComplete n host none) s = .next (dmaFinish n.val d r.1 r.2) := by
  subst hr
  simp only [exec_descriptorComplete, execDescriptorComplete, hphase, Option.map_none]

variable {done : Nat} (hpast : (dmaOf s n.val).askedAt + rd s (K.BUS_TIMEOUT n.val) * us1 ≤ clk s)
include hpast

theorem exec_busTimeout_transfer (hphase : (dmaOf s n.val).phase = some (.transfer d))
    (hr : r = dmaTransfer d host (some (3, done)) s) :
    exec (.busTimeout n host done) s = .next (dmaFinish n.val d r.1 r.2) := by
  subst hr
  simp only [exec_busTimeout, execBusTimeout, if_neg (Nat.not_lt.mpr hpast), hphase]

theorem exec_busTimeout_fetch (hphase : (dmaOf s n.val).phase = some .boundary) :
    exec (.busTimeout n host done) s = .next (dmaHalt n.val 2 s) := by
  simp only [exec_busTimeout, execBusTimeout, if_neg (Nat.not_lt.mpr hpast), hphase]

end Transfers

/-- Settles O49: commands by the channel's state, fetches and transfers by its phase. -/
theorem dmaChannelsRun : Obligations.DmaChannelsRun := by
  unfold Obligations.DmaChannelsRun
  refine ⟨?go, ?stopRunning, ?stopAtOnce, ?resume, ?off, ?kick, ?parkedLink, ?parkedOwn, ?request, ?pace, ?permit, ?cur,
    ?owned, ?unowned, ?fetchFailed, ?next, ?ended, ?complete, ?timeoutTransfer, ?timeoutFetch⟩
  case go =>
    intro n host s t ht hstate
    have hon : dmaState s n.val ≠ dsOff := by
      rcases hstate with h | h | h <;> rw [h] <;> decide
    rw [exec_dmaGo, execDmaGo, dmaCtrl_on hon, ← ht, dmaGo_starts (by rw [ht]; exact hstate)]
  case stopRunning =>
    intro n host s t ht hstate
    have hon : dmaState s n.val ≠ dsOff := by rw [hstate]; decide
    rw [exec_dmaStop, execDmaStop, dmaCtrl_on hon, ← ht, dmaStop_running (by rw [ht]; exact hstate)]
  case stopAtOnce =>
    intro n host s t ht hstate
    have hon : dmaState s n.val ≠ dsOff := by
      rcases hstate with h | h | h <;> rw [h] <;> decide
    rw [exec_dmaStop, execDmaStop, dmaCtrl_on hon, ← ht, dmaStop_at_once (by rw [ht]; exact hstate)]
  case resume =>
    intro n host s t ht hstate
    have hon : dmaState s n.val ≠ dsOff := by rw [hstate]; decide
    rw [exec_dmaResume, execDmaResume, dmaCtrl_on hon, ← ht, dmaResume_stopped (by rw [ht]; exact hstate)]
  case off =>
    intro n host s hoff
    exact ⟨congrArg _ (dmaCtrl_off hoff), congrArg _ (dmaCtrl_off hoff), congrArg _ (dmaCtrl_off hoff)⟩
  case kick => exact fun n s hstate => congrArg _ (dmaDoorbell_busy hstate)
  case parkedLink =>
    intro n s t hstate ht hkind
    rw [exec_dmaDoorbell, execDmaDoorbell, dmaDoorbell_parked hstate ht, if_pos hkind]
  case parkedOwn =>
    intro n s t hstate ht hkind
    rw [exec_dmaDoorbell, execDmaDoorbell, dmaDoorbell_parked hstate ht, if_neg hkind]
  case request => exact fun n s hon hpaced hkind => exec_dmaReq_counted hon hpaced hkind
  case pace =>
    exact fun n s hon hpaced hkind hperiod hat hnew => exec_dmaPaceTimer_counted hon hpaced hkind hperiod hat hnew
  case permit => exact fun n s hwaits hpermits => exec_dmaPacingPermit_goes hwaits hpermits
  case cur =>
    intro n fn s
    rw [exec_curLoRead, execCurLoRead]
  case owned =>
    intro n host s d hphase hfetch hown
    rw [exec_descriptorFetchDone_fetched hphase hfetch, if_pos hown]
  case unowned =>
    intro n host s d hphase hfetch hown
    rw [exec_descriptorFetchDone_fetched hphase hfetch, if_neg (ne_true_of_eq_false hown)]
  case fetchFailed => exact fun n host s hphase => exec_descriptorFetchDone_failed hphase
  case next => exact fun n host s b hphase hfetch hmore => exec_linkFetchDone_next hphase hfetch hmore
  case ended =>
    exact fun n host s b hphase hfetch hend hkick hstop => exec_linkFetchDone_end hphase hfetch hend hkick hstop
  case complete => exact fun n host s d r hphase hr => exec_descriptorComplete_finishes hphase hr
  case timeoutTransfer => exact fun n host done s d r hpast hphase hr => exec_busTimeout_transfer hpast hphase hr
  case timeoutFetch => exact fun n host done s hpast hphase => exec_busTimeout_fetch hpast hphase

end Sys2Proof.Machine

/-! # The memory controller: requests, scrub, refresh, power-down, training, re-interleave (O50)

A channel's state and its instants decide whether a command acts; the lemmas say what it does where it does. -/
namespace Sys2Proof.Machine

section Requests

variable {a b r : MemReq} {s : State}

theorem exec_memRequest_one (r : MemReq) (s : State) : exec (.memRequest [r]) s = .next (memArrive r s) := rfl

/-- R16: requests of one cycle are granted lowest requester number first. -/
theorem grantOrder_pair (a b : MemReq) : grantOrder [a, b] = if b.requester < a.requester then [b, a] else [a, b] := rfl

theorem exec_memRequest_swapped (hlower : b.requester < a.requester) :
    exec (.memRequest [a, b]) s = .next (memArrive a (memArrive b s)) := by
  rw [exec_memRequest, execMemRequest, grantOrder_pair, if_pos hlower]
  rfl

theorem exec_memRequest_kept (hlower : a.requester ≤ b.requester) :
    exec (.memRequest [a, b]) s = .next (memArrive b (memArrive a s)) := by
  rw [exec_memRequest, execMemRequest, grantOrder_pair, if_neg (Nat.not_lt.mpr hlower)]
  rfl

theorem memArrive_outside (hout : reqExists s r = false) :
    memArrive r s = emit (.memDone r.requester r.addr none) s := by
  simp only [memArrive, hout, Bool.not_false, if_true]

/-- R393, R399: a request is held behind an earlier one of its requester, or at a channel that trains or sleeps. -/
theorem memArrive_waits (hin : reqExists s r = true) (hwaits : reqWaits s s.mem.held r = true) :
    memArrive r s = { s with mem.held := s.mem.held ++ [r] } := by
  simp only [memArrive, hin, Bool.not_true, Bool.false_eq_true, if_false, hwaits, if_true]

theorem memArrive_served (hin : reqExists s r = true) (hfree : reqWaits s s.mem.held r = false) :
    memArrive r s = serve r s := by
  simp only [memArrive, hin, Bool.not_true, Bool.false_eq_true, if_false, hfree]

end Requests

section Upkeep

variable {c : Fin 4} {rank : Fin 2} {s : State}

/-- R392: the scrub touches the next line of a channel in RUN, wrapping at its size. -/
theorem exec_patrolScrub_next {x : Nat} (corrected bad : Bool) (hruns : chState s c.val = chRun)
    (hx : x = (ddrOf s c.val).scrub) : exec (.patrolScrub c corrected bad) s
      = .next (if bad then chanBad c.val x (touchLine c.val x (ddrUpd c.val (fun d =>
            { d with scrub := if x + 64 < rd s (K.CH_SIZE c.val) then x + 64 else 0 }) s))
          else upd corrected (bump (K.CE_COUNT c.val)) (touchLine c.val x (ddrUpd c.val (fun d =>
            { d with scrub := if x + 64 < rd s (K.CH_SIZE c.val) then x + 64 else 0 }) s))) := by
  subst hx
  exact if_neg (not_not.mpr hruns)

/-- R395: an interval that has passed is one more refresh owed; what goes over the limit is issued. -/
theorem exec_dramRefresh_due {n : Fin 10} {r : Rank} (hrank : rank.val < ranksOf s c.val)
    (hruns : chState s c.val = chRun) (hr : r = tabGet {} (ddrOf s c.val).ranks rank.val)
    (hpast : r.refreshAt + refreshInterval s c.val ≤ clk s) : exec (.dramRefresh c rank n) s
      = .next (refreshIssue c.val rank.val (max n.val (r.owed + 1 - refreshLimit)) (ddrUpd c.val (fun d => { d with
          ranks := tabMod {} d.ranks rank.val (fun r => { r with owed := r.owed + 1, refreshAt := clk s }) }) s)) := by
  subst hr
  exact if_neg (not_or.mpr ⟨Nat.not_le.mpr hrank, not_or.mpr ⟨fun h => h.1 hruns, Nat.not_lt.mpr hpast⟩⟩)

theorem exec_actWindow_begins (hat : s.isb.now % (64 * ms1) = 0) : exec .actWindow s = .next (actsEmpty s) :=
  congrArg _ (if_pos hat)

theorem exec_pdIdleExpiry_idle (hset : rd s K.PD_IDLE * ns1 ≠ 0) (hrank : rank.val < ranksOf s c.val)
    (hruns : chState s c.val = chRun)
    (hpast : (tabGet {} (ddrOf s c.val).ranks rank.val).lastUse + rd s K.PD_IDLE * ns1 ≤ clk s) :
    exec (.pdIdleExpiry c rank) s = .next (ddrUpd c.val (fun d => { d with
      ranks := tabMod {} d.ranks rank.val (fun r => { r with powerDown := true })
      openRow := d.openRow.filter (fun e => e.1 / 16 != rank.val) }) s) :=
  if_neg (not_or.mpr ⟨hset, not_or.mpr ⟨Nat.not_le.mpr hrank, not_or.mpr ⟨not_not.mpr hruns, Nat.not_lt.mpr hpast⟩⟩⟩)

end Upkeep

section Training

variable {c : Fin 4} {s : State}

/-- R398: at its instant a channel issues what it must, records the margin and the pause, and may train fully. -/
theorem exec_periodicRetrain_due {margin pause : Nat} {inRange : Bool} {u t : State} (hruns : chState s c.val = chRun)
    (hat : s.isb.now % (100 * ms1) = 25 * c.val * ms1)
    (hu : u = (List.range (ranksOf s c.val)).foldl (fun z r => refreshFirst c.val r z) s)
    (ht : t = wr (K.EYE_MARGIN c.val) margin (wr (K.RETRAIN_MAX c.val) (max pause (rd u (K.RETRAIN_MAX c.val))) u)) :
    exec (.periodicRetrain c margin pause inRange) s
      = .next (if margin < 40 ∨ inRange = false then fullTrain c.val t else t) := by
  have hgo : ¬ (chState s c.val ≠ chRun ∨ s.isb.now % (100 * ms1) ≠ 25 * c.val * ms1) :=
    not_or.mpr ⟨not_not.mpr hruns, not_not.mpr hat⟩
  simp only [exec_periodicRetrain, execPeriodicRetrain, if_neg hgo, ← hu, ← ht]

/-- R398, R399: full training succeeds, is tried again, or after the fourth failure retires the channel. -/
theorem exec_fullTrainingDone_ends (ok : Bool) (htrains : chState s c.val = chRetraining) :
    exec (.fullTrainingDone c ok) s
      = if ok then .next (serveHeld (ddrUpd c.val (fun d => { d with tries := 0 }) (wr (K.CH_STATE c.val) chRun s)))
        else if (ddrOf s c.val).tries < 3 then .next (ddrUpd c.val (fun d => { d with tries := d.tries + 1 }) s)
        else .next (chanFails c.val s) :=
  if_neg (not_not.mpr htrains)

/-- R400: step 4 of a channel's retirement. -/
theorem exec_reinterleaveDone_ends {restored : List Nat} {t : State} (hpending : s.mem.reinterleave = true)
    (hchannel : s.mem.active.isEmpty = false)
    (ht : t = vidRestart true (relayout (payloadsLost restored { s with mem.reinterleave := false }))) :
    exec (.reinterleaveDone restored) s = .next (leaveSafe (safeCleared 0
      (if rd t K.POOL_MODE = pmSpill ∧ t.pkt.testing.isNone then poolReturns t else t))) := by
  have hgo : ¬ (!s.mem.reinterleave || s.mem.active.isEmpty) = true := by simp [hpending, hchannel]
  simp only [exec_reinterleaveDone, execReinterleaveDone, if_neg hgo, ← ht]

end Training

/-- Settles O50: requests by where they go, the rest by the channel's state and instant. -/
theorem memoryChannelsServe : Obligations.MemoryChannelsServe := by
  unfold Obligations.MemoryChannelsServe
  refine ⟨?outside, ?held, ?served, ?swapped, ?kept, ?scrub, ?scrubBad, ?refresh, ?window, ?idle, ?retrain, ?trained,
    ?again, ?retired, ?reinterleave⟩
  case outside =>
    intro r s hout
    rw [exec_memRequest_one, memArrive_outside hout]
  case held =>
    intro r s hin hwaits
    rw [exec_memRequest_one, memArrive_waits hin hwaits]
  case served =>
    intro r s hin hfree
    rw [exec_memRequest_one, memArrive_served hin hfree]
  case swapped => exact fun a b s hlower => exec_memRequest_swapped hlower
  case kept => exact fun a b s hlower => exec_memRequest_kept hlower
  case scrub =>
    intro c corrected s x hruns hx
    rw [exec_patrolScrub_next corrected false hruns hx, if_neg Bool.false_ne_true]
  case scrubBad =>
    intro c corrected s x hruns hx
    rw [exec_patrolScrub_next corrected true hruns hx, if_pos rfl]
  case refresh => exact fun c rank n s r hrank hruns hr hpast => exec_dramRefresh_due hrank hruns hr hpast
  case window => exact fun s hat => exec_actWindow_begins hat
  case idle => exact fun c rank s hset hrank hruns hpast => exec_pdIdleExpiry_idle hset hrank hruns hpast
  case retrain => exact fun c m p b s u t hruns hat hu ht => exec_periodicRetrain_due hruns hat hu ht
  case trained =>
    intro c s htrains
    rw [exec_fullTrainingDone_ends true htrains, if_pos rfl]
  case again =>
    intro c s htrains htries
    rw [exec_fullTrainingDone_ends false htrains, if_neg Bool.false_ne_true, if_pos htries]
  case retired =>
    intro c s htrains htries
    rw [exec_fullTrainingDone_ends false htrains, if_neg Bool.false_ne_true, if_neg (Nat.not_lt.mpr htries), chanFails]
  case reinterleave => exact fun l s t hpending hchannel ht => exec_reinterleaveDone_ends hpending hchannel ht

end Sys2Proof.Machine

/-! # Pictures: decoding, encoding and composing; layer tables and their swaps (O48)

A codec works on the head picture of the context it picks; an output latches, composes and gives up its pictures. -/
namespace Sys2Proof.Machine

section Decoding

variable {s : State} {q : ReadyPic} {rest : List ReadyPic} {t : Instant}

theorem exec_decodePictureComplete_written {j : Fin 2} {c b : Nat} (hpick : vdecPick s j.val = some c)
    (hpics : (decOf s c).pics = q :: rest) (htarget : q.target = some b) :
    exec (.decodePictureComplete j) s = .next (decodeDone c q b s) := by
  simp only [exec_decodePictureComplete, execDecodePictureComplete, hpick, hpics, htarget]

/-- R322: half a picture's time without a free buffer loses the picture. -/
theorem exec_decodeBufWaitTimeout_lost {c : Fin 1024} (hpics : (decOf s c.val).pics = q :: rest)
    (hwaits : q.bufWait = some t) (hpast : s1 ≤ 2 * rd s (K.MAX_RATE c.val) * (clk s - t)) :
    exec (.decodeBufWaitTimeout c) s = .next (popPic c.val (bump (K.BUF_WAITS c.val) s)) := by
  simp only [exec_decodeBufWaitTimeout, execDecodeBufWaitTimeout, hpics, hwaits, if_pos hpast]

/-- R328: a context DAMAGED for its wait asks for a refresh, once. -/
theorem exec_damageWaitExpiry_asks {c : Fin 1024} (hdamaged : (decOf s c.val).damagedSince = some t)
    (hpolicy : rd s (K.REQ_POLICY c.val) = 2) (hasked : (decOf s c.val).asked = false)
    (hpast : t + rd s (K.DAMAGE_WAIT c.val) * ms1 ≤ clk s) :
    exec (.damageWaitExpiry c) s = .next (decRequest c.val (decUpd c.val (fun x => { x with asked := true }) s)) := by
  simp only [exec_damageWaitExpiry, execDamageWaitExpiry, hdamaged, if_pos (And.intro hpolicy (And.intro hasked hpast))]

/-- R342: a picture 50 ms old is given up with an upset of its VDEC. -/
theorem exec_pictureTimeout_decode {j : Fin 3} {c : Nat} (hvdec : j.val < 2) (hpick : vdecPick s j.val = some c)
    (hpics : (decOf s c).pics = q :: rest) (hstarted : q.started = some t) (hpast : t + 50 * ms1 ≤ clk s) :
    exec (.pictureTimeout j) s = .next (popPic c (instUpset j.val s)) := by
  have hold : decide (t + 50 * ms1 ≤ clk s) = true := decide_eq_true hpast
  simp only [exec_pictureTimeout, execPictureTimeout, if_pos hvdec, hpick, hpics, hstarted, hold, if_true]

end Decoding

section Encoding

variable {s : State} {p : EncPic} {rest : List EncPic}

/-- R342: a picture 50 ms old is coded cut after an upset of VENC. -/
theorem exec_pictureTimeout_encode {e : Nat} {t : Instant} (hpick : vencPick s = some e)
    (hpics : (encOf s e).pics = p :: rest) (hstarted : p.started = some t) (hpast : t + 50 * ms1 ≤ clk s) :
    exec (.pictureTimeout 2) s = .next (vencSync (shortenSweep e (encHead e (fun p => { p with
      cut := true, started := none }) (instUpset 2 s)))) := by
  have hold : decide (t + 50 * ms1 ≤ clk s) = true := decide_eq_true hpast
  have hvenc : ¬ ((2 : Fin 3) : Nat) < 2 := by decide
  simp only [exec_pictureTimeout, execPictureTimeout, if_neg hvenc, hpick, hpics, hstarted, hold, if_true]

/-- R335: VENC codes the head picture when what it made conforms. -/
theorem exec_encodePictureComplete_coded {e : Fin 256} {rows : List EncRow} {cut : Nat} {units : List Bytes}
    (hpics : (encOf s e.val).pics = p :: rest) (hruns : rd s (K.ENC_STATE e.val) ≠ vsSuspended)
    (henabled : rd s (K.ENC_EN e.val) ≠ 0) (hconforms : pictureOk s e.val rows units = true) :
    exec (.encodePictureComplete e rows cut units) s = .next (encodeDone e.val p rows cut units s) := by
  have hgo : ¬ (rd s (K.ENC_STATE e.val) = vsSuspended ∨ rd s (K.ENC_EN e.val) = 0
      ∨ pictureOk s e.val rows units = false) :=
    not_or.mpr ⟨hruns, not_or.mpr ⟨henabled, ne_false_of_eq_true hconforms⟩⟩
  simp only [exec_encodePictureComplete, execEncodePictureComplete, hpics, if_neg hgo]

end Encoding

section Outputs

variable {o : Fin 64} {s : State}

theorem exec_outputPictureBoundary_none
    (hnone : rd s (K.OUT_EN o.val) = 0 ∨ modeOf s = mSafe ∨ boundaryHere s o.val = none) :
    exec (.outputPictureBoundary o) s = .next s := by
  rw [exec_outputPictureBoundary, execOutputPictureBoundary]
  split
  · rfl
  · rename_i hon
    have hbetween : boundaryHere s o.val = none :=
      (hnone.resolve_left fun hoff => hon (.inl hoff)).resolve_left fun hsafe => hon (.inr hsafe)
    rw [hbetween]

theorem exec_outputPictureBoundary_at {ns : Nat} (hon : rd s (K.OUT_EN o.val) ≠ 0) (hmode : modeOf s ≠ mSafe)
    (hat : boundaryHere s o.val = some ns) :
    exec (.outputPictureBoundary o) s = .next (outBoundary o.val ns (picOverdue o.val s)) := by
  simp only [exec_outputPictureBoundary, execOutputPictureBoundary, if_neg (not_or.mpr ⟨hon, hmode⟩), hat]

/-- R353, R357: a boundary scans the active table, marks what it reads, and leaves a picture for the compositor. -/
theorem outBoundary_eq {n ns : Nat} {u : State} {t : Bytes} {x : LayerScan} (ht : t = activeTable s n)
    (hx : x = (List.range (tableCount t)).foldl (scanLayer s ns (rd s (K.ACTIVE_TABLE n)) t) { held := (cmpOut s n).held })
    (hu : u = wrBlob (K.STALE_LAYERS n) (leBytes 9 x.stale)
      (x.reads.foldl (fun z i => bufUpd i (fun y => { y with read := y.read + 1 }) z) s)) :
    outBoundary n ns s = encBoundary n (ns * ns1)
      (cmpSync (cmpUpd n (fun y => { y with waiting := some (picLatch n ns x s), held := x.held }) u)) := by
  subst ht hx hu
  rfl

theorem picOverdue_waiting {n : Nat} {p : PicLatch} (hwaits : (cmpOut s n).waiting = some p) :
    picOverdue n s = bump (K.OUT_LATE n) (picOver n p (cmpUpd n (fun x => { x with waiting := none }) s)) := by
  rw [picOverdue, hwaits]

/-- R364, R368: with no layer there are no tile errors, with no region no check. -/
theorem exec_composedPictureComplete_plain {n w h d : Nat} {p : PicLatch} {t : State} (hcurrent : s.cmp.current = some n)
    (hcomposing : (cmpOut s n).composing = some p) (hsigs : p.sigs = []) (hlayers : p.layers = [])
    (hw : w = rd s (K.OUT_WIDTH n)) (hh : h = rd s (K.OUT_HEIGHT n)) (hd : d = rd s (K.OUT_DEPTH n))
    (ht : t = bumpBy (K.TILE_ERRORS n) 0 (bump (K.OUT_PICTURES n) s)) : exec .composedPictureComplete s
      = .next (cmpSync (picOver n p (cmpUpd n (fun x => { x with
          composing := none, surface := writeSurface (p.at_ / ns1) w h d 0 0 (composed s p w h d) })
            { t with cmp.current := none }))) := by
  simp only [exec_composedPictureComplete, execComposedPictureComplete, hcurrent, hcomposing, hsigs, hlayers, ← hw, ← hh,
    ← hd, List.foldl_nil, List.zip_nil_left, List.filterMap_nil, ← ht]

end Outputs

section Tables

variable {o off value : Nat} {s : State}

/-- R356: a table that is active, or whose swap is committed, refuses a write. -/
theorem layerTablePut_refused (hlow : 0x1000000 ≤ off) (hhigh : off < 0x1100000) (haligned : off % 4 = 0)
    (ho : o = (off - 0x1000000) / 0x4000)
    (hclosed : (off - 0x1000000) / 0x2000 % 2 = rd s (K.ACTIVE_TABLE o) ∨ layerSwapCommitted s o = true) :
    layerTablePut off value false s
      = cmpIrq 1 (bump (K.LT_WRITES_REFUSED o) { s with cmp.status := withBit s.cmp.status 0 true }) := by
  have hin : ¬ (off < 0x1000000 ∨ 0x1100000 ≤ off) := by omega
  simp only [layerTablePut, if_neg hin, Bool.false_eq_true, if_false, if_neg (not_not.mpr haligned), ← ho, if_pos hclosed]

theorem layerTablePut_patches (hlow : 0x1000000 ≤ off) (hhigh : off < 0x1100000) (haligned : off % 4 = 0)
    (ho : o = (off - 0x1000000) / 0x4000) (hinactive : (off - 0x1000000) / 0x2000 % 2 ≠ rd s (K.ACTIVE_TABLE o))
    (huncommitted : layerSwapCommitted s o = false) (hinside : (off - 0x1000000) % 0x2000 < 4672) :
    layerTablePut off value false s = wrBlob (tableKey o ((off - 0x1000000) / 0x2000 % 2))
      (patch (slice (layerTable s o ((off - 0x1000000) / 0x2000 % 2)) 0 4672) ((off - 0x1000000) % 0x2000)
        (leBytes 4 value)) s := by
  have hin : ¬ (off < 0x1000000 ∨ 0x1100000 ≤ off) := by omega
  have hopen : ¬ ((off - 0x1000000) / 0x2000 % 2 = rd s (K.ACTIVE_TABLE o) ∨ layerSwapCommitted s o = true) :=
    not_or.mpr ⟨hinactive, ne_true_of_eq_false huncommitted⟩
  simp only [layerTablePut, if_neg hin, Bool.false_eq_true, if_false, if_neg (not_not.mpr haligned), ← ho, if_neg hopen,
    if_neg (Nat.not_le.mpr hinside)]

variable {n : Nat} {l : Launch} (hdue : dueSwap s = some (n, l))
include hdue

theorem exec_layerSwap_swaps (hworks : domainFailed s 17 = false) (hruns : domainRuns s 17 = true) : exec .layerSwap s
    = .next (launchDone n (l.late || (boundaryHere s l.target).any (fun b => decide (swapBoundary s l < b)))
        (swapTable l.target s)) := by
  simp only [exec_layerSwap, execLayerSwap, hdue, hworks, hruns, Bool.not_true, Bool.false_eq_true, if_false]

theorem exec_layerSwap_fails (hfailed : domainFailed s 17 = true) :
    exec .layerSwap s = .next (launchFailed n .retired s) := by
  simp only [exec_layerSwap, execLayerSwap, hdue, hfailed, if_true]

end Tables

/-- Settles O48: each clause by the lemma of its command above. -/
theorem picturesAreCodedAndComposed : Obligations.PicturesAreCodedAndComposed := by
  unfold Obligations.PicturesAreCodedAndComposed
  refine ⟨?written, ?bufferWait, ?decodeLate, ?encodeLate, ?damaged, ?coded, ?noBoundary, ?boundary, ?overdue, ?composed,
    ?patched, ?refused, ?swapped, ?swapFailed⟩
  case written =>
    exact fun j s c b q rest hpick hpics htarget => exec_decodePictureComplete_written hpick hpics htarget
  case bufferWait => exact fun c s q rest t hpics hwaits hpast => exec_decodeBufWaitTimeout_lost hpics hwaits hpast
  case decodeLate =>
    exact fun j s c q rest t hvdec hpick hpics hstarted hpast =>
      exec_pictureTimeout_decode hvdec hpick hpics hstarted hpast
  case encodeLate =>
    exact fun s e p rest t hpick hpics hstarted hpast => exec_pictureTimeout_encode hpick hpics hstarted hpast
  case damaged =>
    exact fun c s t hdamaged hpolicy hasked hpast => exec_damageWaitExpiry_asks hdamaged hpolicy hasked hpast
  case coded =>
    exact fun e rows cut units s p rest hpics hruns henabled hconforms =>
      exec_encodePictureComplete_coded hpics hruns henabled hconforms
  case noBoundary => exact fun o s hnone => exec_outputPictureBoundary_none hnone
  case boundary =>
    intro o ns s z u t x hon hmode hat hz ht hx hu
    rw [exec_outputPictureBoundary_at hon hmode hat, ← hz, outBoundary_eq ht hx hu]
  case overdue => exact fun o s p hwaits => picOverdue_waiting hwaits
  case composed =>
    exact fun s t o w h d p hcurrent hcomposing hsigs hlayers hw hh hd ht =>
      exec_composedPictureComplete_plain hcurrent hcomposing hsigs hlayers hw hh hd ht
  case patched =>
    intro o off value s hlow hhigh haligned ho hinactive huncommitted hinside
    rw [exec_layerTableBar2Write, execLayerTableBar2Write,
      layerTablePut_patches hlow hhigh haligned ho hinactive huncommitted hinside]
  case refused =>
    intro o off value s hlow hhigh haligned ho hclosed
    rw [exec_layerTableBar2Write, execLayerTableBar2Write, layerTablePut_refused hlow hhigh haligned ho hclosed]
  case swapped => exact fun s n l hdue hworks hruns => exec_layerSwap_swaps hdue hworks hruns
  case swapFailed => exact fun s n l hdue hfailed => exec_layerSwap_fails hdue hfailed

end Sys2Proof.Machine

/-! # Messages of the pair link (O53)

A message is heard or not before it acts; the `_heard` lemmas say what each does at the hub that hears it. -/
namespace Sys2Proof.Machine

section Hearing

variable {reliable : Bool} {h : PHdr} {s u : State}

/-- R452: a message that is not heard has the effect of its receipt alone. -/
theorem onPeer_unheard (hunheard : pairHears reliable h s = none) (f : State → State) :
    onPeer reliable h f s = .next (pairRecv reliable h s).2 := by
  rcases hrecv : pairRecv reliable h s with ⟨_ | _, r⟩
  · simp only [onPeer, onPair, hrecv]
  · simp [pairHears, hrecv] at hunheard

/-- R452, R456: a message that is heard acts on the state in which the peer is confirmed. -/
theorem onPeer_heard (hheard : pairHears reliable h s = some u) (f : State → State) :
    onPeer reliable h f s = .next (f u) := by
  rcases hrecv : pairRecv reliable h s with ⟨_ | _, r⟩
  · simp [pairHears, hrecv] at hheard
  · simp only [pairHears, hrecv, if_true, Option.some.injEq] at hheard
    simp only [onPeer, onPair, hrecv, hheard]

end Hearing

section Heartbeats

variable {h : PHdr} {s u t : State}

/-- R462, R463: at a started ACTIVE hub the role of a peer that is not ACTIVE changes nothing. -/
theorem roleFacts_active {role lastAccept : Nat} (hstarted : t.pair.startAt = none) (hactive : rd t K.ROLE = 1)
    (hpeer : role ≠ 1) : roleFacts h role lastAccept t = t := by
  have hrun : ¬ t.pair.startAt.isSome = true := by simp [hstarted]
  have hnotIsland : ¬ rd t K.ROLE = 3 := by simp [hactive]
  simp only [roleFacts, if_neg hrun, if_neg hnotIsland, if_neg (fun hboth : _ ∧ _ ∧ _ => hpeer hboth.2.1)]

/-- At a started STANDBY no peer's role changes anything. -/
theorem roleFacts_standby {role lastAccept : Nat} (hstarted : t.pair.startAt = none) (hstandby : rd t K.ROLE = 2) :
    roleFacts h role lastAccept t = t := by
  have hrun : ¬ t.pair.startAt.isSome = true := by simp [hstarted]
  have hnotIsland : ¬ rd t K.ROLE = 3 := by simp [hstandby]
  have hnotActive : ¬ (rd t K.ROLE = 1 ∧ role = 1 ∧ rd t K.EPOCH < h.epoch) := by simp [hstandby]
  simp only [roleFacts, if_neg hrun, if_neg hnotIsland, if_neg hnotActive]

/-- An ACTIVE peer's heartbeat names another source than the one before. -/
def peerMoved (role src : Nat) (u : State) : Bool :=
  match u.isb.peerSource with
  | some x => role == 1 && x != src
  | none => false

theorem peerMoved_of_not_active {role src : Nat} (hpeer : role ≠ 1) : peerMoved role src u = false := by
  unfold peerMoved
  split
  · rw [beq_false_of_ne hpeer, Bool.false_and]
  · rfl

theorem peerMoved_active_iff {src : Nat} : peerMoved 1 src u = true ↔ ∃ x, u.isb.peerSource = some x ∧ x ≠ src := by
  unfold peerMoved
  split
  case h_1 x hsource => simp [hsource]
  case h_2 hsource => simp [hsource]

/-- What a heartbeat records of the peer, and the hub then knows of its role. -/
def heartbeatFacts (h : PHdr) (role la tm rc sn src : Nat) (ok us : Bool) (u : State) : State :=
  let t := wr K.PEER_SERIAL sn { u with
    pair.peerRole := role, pair.peerHubOk := ok, pair.peerReachable := rc, pair.peerAccept := la
    isb.peerUsable := role == 1 && us, isb.peerSource := some src }
  let w := upd (role == 1) (fun t =>
    measured srcPeer 16 ((tm * ns1 : Nat) : Int) ((tm * ns1 + t.pair.pathDelay : Nat) - (t.isb.now : Int)) t) t
  roleFacts h role la (reselect (upd (peerMoved role src u) (disqualify srcPeer 5) w))

/-- R453, R455, R457: a heartbeat that is heard records the peer; a STANDBY follows or takes over, an ACTIVE hub starts a
sync that is due. -/
theorem exec_pairHeartbeat_heard {role mode ps la tm rc sn src : Nat} {ok us : Bool} {z : State}
    (hheard : pairHears false h s = some u) (hz : z = heartbeatFacts h role la tm rc sn src ok us u) :
    exec (.pairHeartbeat h role mode ps ok la tm rc sn us src) s = .next (
      if rd z K.ROLE = 2 then
        if !ok then takeover (rd z K.PAIR_STATE == 2) z
        else if role = 1 then
          if 1 ≤ ps ∧ ps ≤ 3 then setPairState ps (upd (mode != mSafe && mode != mIsland) (wr K.MODE mode) z)
          else upd (mode != mSafe && mode != mIsland) (wr K.MODE mode) z
        else z
      else if rd z K.ROLE = 1 ∧ z.pair.syncDue ∧ (role = 2 ∨ role = 3) then startSync z
      else z) := by
  subst hz
  rw [exec_pairHeartbeat, execPairHeartbeat, onPeer_heard hheard]
  rfl

/-- A started ACTIVE hub only records a peer that is not ACTIVE. -/
theorem heartbeatFacts_active {role la tm rc sn src : Nat} {ok us : Bool} (hpeer : role ≠ 1)
    (ht : t = reselect (wr K.PEER_SERIAL sn { u with
      pair.peerRole := role, pair.peerHubOk := ok, pair.peerReachable := rc, pair.peerAccept := la
      isb.peerUsable := false, isb.peerSource := some src }))
    (hstarted : t.pair.startAt = none) (hactive : rd t K.ROLE = 1) :
    heartbeatFacts h role la tm rc sn src ok us u = t := by
  rw [heartbeatFacts, peerMoved_of_not_active hpeer, beq_false_of_ne hpeer, Bool.false_and]
  rw [upd_of_not rfl, upd_of_not rfl, ← ht, roleFacts_active hstarted hactive hpeer]

/-- A started STANDBY measures an ACTIVE peer's time, and drops the source of one that has moved. -/
theorem heartbeatFacts_standby {la tm rc sn src : Nat} {ok us moved : Bool} {w m : State}
    (ht : t = wr K.PEER_SERIAL sn { u with
      pair.peerRole := 1, pair.peerHubOk := ok, pair.peerReachable := rc, pair.peerAccept := la
      isb.peerUsable := us, isb.peerSource := some src })
    (hw : w = measured srcPeer 16 ((tm * ns1 : Nat) : Int)
      ((tm * ns1 + t.pair.pathDelay : Nat) - (t.isb.now : Int)) t)
    (hmoved : moved = true ↔ ∃ x, u.isb.peerSource = some x ∧ x ≠ src)
    (hm : m = reselect (if moved = true then disqualify srcPeer 5 w else w)) (hstarted : m.pair.startAt = none)
    (hstandby : rd m K.ROLE = 2) : heartbeatFacts h 1 la tm rc sn src ok us u = m := by
  have hsame : peerMoved 1 src u = moved := Bool.eq_iff_iff.mpr (peerMoved_active_iff.trans hmoved.symm)
  have hdropped : upd moved (disqualify srcPeer 5) w = if moved = true then disqualify srcPeer 5 w else w := rfl
  rw [heartbeatFacts, hsame, upd_of (c := 1 == 1) rfl, show ((1 == 1) && us) = us from rfl, ← ht, ← hw, hdropped, ← hm,
    roleFacts_standby hstarted hstandby]

end Heartbeats

section Journal

variable {h : PHdr} {s u t : State}

/-- R453: a standby writes the entries it does not hold and acknowledges what it now holds. -/
theorem exec_jrnlCopy_heard {es new : List JEntry} {n : Nat} (hheard : pairHears true h s = some u)
    (hstandby : rd u K.ROLE = 2)
    (hnew : new = es.filter (fun e => decide (u.pair.held < e.accept)
      && !u.sch.journal.any (fun x => x.accept == e.accept)))
    (ht : t = { u with sch.journal := u.sch.journal ++ new.map (fun (e : JEntry) => { e with state := max e.state 1 }) })
    (hn : n = heldUpTo t.sch.journal u.pair.held) : exec (.jrnlCopy h es) s = .next (pairSend (.jrnlAck n)
      (syncAccept { t with pair.held := n, sch.nextAccept := max t.sch.nextAccept (n + 1) })) := by
  subst hn ht hnew
  rw [exec_jrnlCopy, execJrnlCopy, onPeer_heard hheard]
  exact congrArg _ (if_neg (not_not.mpr hstandby))

/-- R455: an acknowledgement at the ACTIVE hub ends a sync that covers every accepted entry, or moves its progress. -/
theorem exec_jrnlAck_heard {held : Nat} (hheard : pairHears false h s = some u) (hactive : rd u K.ROLE = 1)
    (ht : t = { u with
      pair.acked := max u.pair.acked held
      sch.journal := u.sch.journal.map (fun e => if e.accept ≤ held then { e with peerAck := true } else e) }) :
    exec (.jrnlAck h held) s = .next (handOver (if rd t K.PAIR_STATE ≠ 1 then t
      else if lastEntry t ≤ held then wr K.SYNC_PROGRESS 100 (setPairState 2 t)
      else wr K.SYNC_PROGRESS (held * 100 / lastEntry t) t)) := by
  subst ht
  rw [exec_jrnlAck, execJrnlAck, onPeer_heard hheard]
  exact congrArg _ (if_neg (not_not.mpr hactive))

theorem exec_jrnlMark_heard {committed freed : Nat} {gone : JEntry → Bool} (hheard : pairHears true h s = some u)
    (hstandby : rd u K.ROLE = 2)
    (ht : t = u.sch.journal.foldl (fun (z : State) (e : JEntry) => if e.accept ≤ committed ∧ e.state < 2 then
      jrnlUpd e.accept (fun x => { x with state := 2 }) (reapply e z) else z) u)
    (hgone : gone = fun e => decide (e.accept ≤ freed) && decide (2 ≤ e.state)) :
    exec (.jrnlMark h committed freed) s = .next { t with
      sch.journal := t.sch.journal.filter (fun e => !gone e)
      sch.freed := (freedKeys (t.sch.journal.filter gone) ++ t.sch.freed).take 65536
      pair.committed := max t.pair.committed committed, pair.freed := max t.pair.freed freed } := by
  subst ht hgone
  rw [exec_jrnlMark, execJrnlMark, onPeer_heard hheard]
  exact congrArg _ (if_neg (not_not.mpr hstandby))

end Journal

section Checkpoints

variable {h : PHdr} {s u : State}

/-- What a leg's checkpoint leaves of slot `k` (R309). -/
def ckptSlot (c : LegCkpt) (z : State) (k : Nat) : State :=
  match c.slots[k]? with
  | none => z
  | some x =>
    let z := slotUpd c.leg k (fun y => { y with
      limit := some x.limit, tsOff := x.tsOff, lastTs := x.lastTs, lastArr := x.lastArr, source := x.source }) z
    if k = 0 then z else wr (K.SLOT_CUR c.leg (k - 1)) x.cur (wr (K.SLOT_WANT c.leg (k - 1)) x.want z)

/-- A function that does what a checkpoint does to a slot, case by case, is `ckptSlot`. -/
theorem ckptSlot_eq_of {c : LegCkpt} {f : State → Nat → State} {z : State} {k : Nat}
    (hnone : c.slots[k]? = none → f z k = z)
    (hsome : ∀ x, c.slots[k]? = some x → f z k = (if k = 0 then fun y => y else fun y =>
      wr (K.SLOT_CUR c.leg (k - 1)) x.cur (wr (K.SLOT_WANT c.leg (k - 1)) x.want y)) (slotUpd c.leg k (fun y => { y with
        limit := some x.limit, tsOff := x.tsOff, lastTs := x.lastTs, lastArr := x.lastArr, source := x.source }) z)) :
    ckptSlot c z k = f z k := by
  cases hslot : c.slots[k]? with
  | none =>
    rw [hnone hslot]
    simp only [ckptSlot, hslot]
  | some x =>
    rw [hsome x hslot]
    simp only [ckptSlot, hslot]
    split <;> rfl

/-- R309: a standby takes a leg's slots, its estimate and its highest indices. -/
theorem exec_legCkpt_heard {c : LegCkpt} (hheard : pairHears true h s = some u) (hstandby : rd u K.ROLE = 2) :
    exec (.legCkpt h c) s = .next (srtpInUpd c.leg (fun x => { x with
        highest := c.highest.foldl (fun y e => tabSet none y e.1 (some e.2)) x.highest })
      (wr (K.EST_E c.leg) c.estimate (legUpd c.leg (fun x => { x with tw := c.tw })
        ([0, 1, 2, 3].foldl (ckptSlot c) u)))) := by
  rw [exec_legCkpt, execLegCkpt, onPeer_heard hheard]
  exact congrArg _ (if_neg (not_not.mpr hstandby))

theorem exec_sync_heard {part total : Nat} {c : Snapshot} (hheard : pairHears true h s = some u)
    (hstandby : rd u K.ROLE = 2) : exec (.sync h part total (some c)) s
      = .next (if part + 1 = total then pairSend (.jrnlAck c.highest) (loadSnapshot c u) else u) := by
  rw [exec_sync, execSync, onPeer_heard hheard]
  exact congrArg _ (if_neg (not_not.mpr hstandby))

end Checkpoints

section Roles

variable {h : PHdr} {peer mine e : Nat} {fin : List (Nat × Nat × Nat)} {s u : State}
  (hheard : pairHears true h s = some u)
include hheard

/-- R462, R465: the first of the conditions that holds says what ROLE does. -/
theorem exec_role_heard : exec (.role h peer mine e fin) s
    = .next (if rd u K.ROLE = 1 ∧ e = rd u K.EPOCH ∧ mine = 2 then (if pairHealthy u then switchover u else u)
      else if mine = 1 ∧ rd u K.ROLE = 2 then cmdComplete 0x0900 0x0D .ok (becomeActive e 2 fin u)
      else if mine = 2 ∧ peer = 1 then becomeStandby (wr K.EPOCH (max e (rd u K.EPOCH)) u)
      else u) := by
  rw [exec_role, execRole, onPeer_heard hheard]

theorem exec_role_handsOver (hactive : rd u K.ROLE = 1) (hepoch : e = rd u K.EPOCH) (hasked : mine = 2)
    (hhealthy : pairHealthy u = true) : exec (.role h peer mine e fin) s = .next (switchover u) := by
  rw [exec_role_heard hheard, if_pos ⟨hactive, hepoch, hasked⟩, if_pos hhealthy]

theorem exec_role_activates (hstandby : rd u K.ROLE = 2) (hgiven : mine = 1) : exec (.role h peer mine e fin) s
    = .next (cmdComplete 0x0900 0x0D .ok (becomeActive e 2 fin u)) := by
  have hnotActive : ¬ (rd u K.ROLE = 1 ∧ e = rd u K.EPOCH ∧ mine = 2) := by simp [hstandby]
  rw [exec_role_heard hheard, if_neg hnotActive, if_pos ⟨hgiven, hstandby⟩]

theorem exec_role_standsBy (hnotActive : rd u K.ROLE ≠ 1) (hasked : mine = 2) (hpeer : peer = 1) :
    exec (.role h peer mine e fin) s = .next (becomeStandby (wr K.EPOCH (max e (rd u K.EPOCH)) u)) := by
  have hnotGiven : ¬ (mine = 1 ∧ rd u K.ROLE = 2) := by simp [hasked]
  rw [exec_role_heard hheard, if_neg (fun hboth => hnotActive hboth.1), if_neg hnotGiven, if_pos ⟨hasked, hpeer⟩]

end Roles

section Relays

variable {h : PHdr} {s u : State}

theorem exec_relayDown_heard {frameTime : Nat} {samples : List (List Int)} (hheard : pairHears false h s = some u)
    (hstandby : rd u K.ROLE = 2) :
    exec (.relayDown h frameTime samples) s = .next (lanokSend true (.audioDown frameTime samples) u) := by
  rw [exec_relayDown, execRelayDown, onPeer_heard hheard, if_pos hstandby]

theorem exec_relayUp_heard {trunk : Fin 8} {block : Fin 4} {frameTime valid : Nat} {samples : List (List Int)}
    (hheard : pairHears false h s = some u) (hactive : rd u K.ROLE = 1) :
    exec (.relayUp h trunk block frameTime valid samples) s
      = .next (takeBlock false trunk.val block.val valid samples { u with pair.peerRelays := true }) := by
  rw [exec_relayUp, execRelayUp, onPeer_heard hheard, if_pos hactive]

theorem exec_relayMsg_toField {m : LMsg} (hheard : pairHears true h s = some u) (hstandby : rd u K.ROLE = 2) :
    exec (.relayMsg h true m) s = .next (lanokSend true m u) := by
  rw [exec_relayMsg, execRelayMsg, onPeer_heard hheard, if_pos rfl, if_pos hstandby]

section Served

variable (hheard : pairHears true h s = some u) (hactive : rd u K.ROLE = 1)
include hheard hactive

/-- R461: the ACTIVE hub serves a relayed node event as its own. -/
theorem exec_relayMsg_nodeEvent (n c T : Nat) : exec (.relayMsg h false (.nodeEvent n c T)) s
    = .next (hubNodeEvent n c T { u with pair.peerRelays := true }) := by
  rw [exec_relayMsg, execRelayMsg, onPeer_heard hheard, if_neg Bool.false_ne_true, if_neg (not_not.mpr hactive)]

theorem exec_relayMsg_nodeClear (n : Nat) : exec (.relayMsg h false (.nodeClear n)) s
    = .next (hubNodeClear n { u with pair.peerRelays := true }) := by
  rw [exec_relayMsg, execRelayMsg, onPeer_heard hheard, if_neg Bool.false_ne_true, if_neg (not_not.mpr hactive)]

end Served

end Relays

/-- Settles O53: what is not heard by its receipt alone, the rest by the lemma of its message. -/
theorem pairMessagesAct : Obligations.PairMessagesAct := by
  unfold Obligations.PairMessagesAct
  refine ⟨?unheard, ?active, ?standby, ?copies, ?acks, ?marks, ?staged, ?legs, ?sync, ?role, ?relayDown, ?relayUp,
    ?toField, ?toHub, ?echo⟩
  case unheard =>
    intro h addr off held b s
    refine ⟨fun hunheard => ?_, fun hunheard => ?_⟩
    · rw [exec_stagedData, execStagedData, onPeer_unheard hunheard]
    · rw [exec_jrnlAck, execJrnlAck, onPeer_unheard hunheard]
  case active =>
    intro h role mode ps la tm rc sn src ok us s u t hheard hpeer ht hstarted hactive
    rw [exec_pairHeartbeat_heard hheard (heartbeatFacts_active (by omega) ht hstarted hactive).symm,
      if_neg (by simp [hactive])]
    simp only [hactive, hpeer, and_true, true_and]
  case standby =>
    intro h mode ps la tm rc sn src ok us moved s u t w m v hheard ht hw hmoved hm hstarted hstandby hv
    have hmode : upd (mode != mSafe && mode != mIsland) (wr K.MODE mode) m = v := by
      simp only [hv, upd, Bool.and_eq_true, bne_iff_ne]
    rw [exec_pairHeartbeat_heard hheard (heartbeatFacts_standby ht hw hmoved hm hstarted hstandby).symm, if_pos hstandby,
      if_pos rfl, hmode]
  case copies => exact fun h es new s u t n hheard hstandby hnew ht hn => exec_jrnlCopy_heard hheard hstandby hnew ht hn
  case acks => exact fun h held s u t hheard hactive ht => exec_jrnlAck_heard hheard hactive ht
  case marks =>
    exact fun h committed freed gone s u t hheard hstandby ht hgone => exec_jrnlMark_heard hheard hstandby ht hgone
  case staged =>
    intro h addr off b s u hheard
    rw [exec_stagedData, execStagedData, onPeer_heard hheard]
  case legs =>
    intro h c f s u t v hheard hstandby hnone hsome ht hv
    rw [exec_legCkpt_heard hheard hstandby, hv, ht]
    rw [List.foldl_ext _ _ _ fun z k _ => ckptSlot_eq_of (hnone z k) (hsome z k)]
  case sync => exact fun h part total c s u hheard hstandby => exec_sync_heard hheard hstandby
  case role =>
    intro h peer mine e fin s u hheard
    exact ⟨fun hactive hepoch hasked hhealthy => exec_role_handsOver hheard hactive hepoch hasked hhealthy,
      fun hstandby hgiven => exec_role_activates hheard hstandby hgiven,
      fun hnotActive hasked hpeer => exec_role_standsBy hheard hnotActive hasked hpeer⟩
  case relayDown => exact fun h ft x s u hheard hstandby => exec_relayDown_heard hheard hstandby
  case relayUp => exact fun h trunk block ft valid x s u hheard hactive => exec_relayUp_heard hheard hactive
  case toField => exact fun h m s u hheard hstandby => exec_relayMsg_toField hheard hstandby
  case toHub =>
    exact fun h n c T s u hheard hactive =>
      ⟨exec_relayMsg_nodeEvent hheard hactive n c T, exec_relayMsg_nodeClear hheard hactive n⟩
  case echo =>
    intro h sent hold s u hheard
    rw [exec_pairTimeEcho, execPairTimeEcho, onPeer_heard hheard]

end Sys2Proof.Machine

/-! # The pair link kept up, beacons, splits, mastership and the start of a pair (O54) -/
namespace Sys2Proof.Machine

section Link

variable {s t u : State}

/-- R452: a hub that sent nothing for 10 µs sends a heartbeat. -/
theorem exec_pairHeartbeatSend_due (hup : pairLinkUp s = true) (hpast : s.pair.sentAt + 10 * us1 ≤ clk s) :
    exec .pairHeartbeatSend s = .next (handOver (pairSend (.heartbeat (rd s K.ROLE) (modeOf s) (rd s K.PAIR_STATE)
      (modeOf s != mSafe && !s.boot.recovery) (rd s K.LAST_ACCEPT) (nowNs s) (reachable s)) s)) :=
  congrArg _ (if_neg (by simp [hup, Nat.not_lt.mpr hpast]))

section Resend

variable {q tries t0 : Nat} {m : PMsg} {rest : List (Nat × Nat × Nat × PMsg)}
  (hunacked : s.pair.unacked = (q, tries, t0, m) :: rest) (hpast : t0 + 8 * us1 ≤ clk s)
include hunacked hpast

/-- R452: when the oldest unacknowledged message is 8 µs old all are sent again. -/
theorem exec_pairResend_again (hfew : tries < 8)
    (ht : t = { s with pair.unacked := s.pair.unacked.map (fun e => (e.1, e.2.1 + 1, clk s, e.2.2.2))
                       pair.sentAt := clk s }) :
    exec .pairResend s = .next (bumpBy (K.PAIR_LINK_COUNTS 1) s.pair.unacked.length
      (s.pair.unacked.foldl (fun z e => pairEmit e.1 e.2.2.2 z) t)) := by
  subst ht
  simp only [exec_pairResend, execPairResend, hunacked, if_neg (Nat.not_lt.mpr hpast), if_neg (Nat.not_le.mpr hfew)]

theorem exec_pairResend_lost (hmany : 8 ≤ tries) : exec .pairResend s = .next (linkLost s) := by
  simp only [exec_pairResend, execPairResend, hunacked, if_neg (Nat.not_lt.mpr hpast), if_pos hmany]

end Resend

theorem exec_pairLinkDown_silent (hup : pairLinkUp s = true)
    (hpast : s.pair.lastGood + rd s K.PAIR_LINK_TIMEOUT * us1 ≤ clk s) : exec .pairLinkDown s = .next (linkLost s) :=
  congrArg _ (if_pos (by rw [hup, decide_eq_true hpast]; rfl))

/-- R452: a link that comes up starts its counts again, measures the path, and sends a ROLE that is due. -/
theorem exec_pairLinkUp_trains (hpair : inPair s = true) (hdown : rd s K.PAIR_LINK_STATE ≠ 2)
    (hlanes : pdState s 11 = pdRun ∨ pdState s 11 = pdLull)
    (ht : t = wr K.PAIR_LINK_STATE 2 { s with
      pair.txSeq := 0, pair.rxSeq := 0, pair.unacked := [], pair.waiting := [], pair.counters := []
      pair.lastGood := clk s, pair.syncDue := rd s K.ROLE == 1, pair.echoSent := some s.isb.now, pair.splitAt := none })
    (hu : u = pairSend (.timeEcho t.isb.now 0) t) : exec .pairLinkUp s
      = .next (if u.pair.roleDue = true then pairSend (.role 1 2 (rd u K.EPOCH) []) { u with pair.roleDue := false }
        else u) := by
  have hasleep : decide (pdState s 11 ≠ pdRun ∧ pdState s 11 ≠ pdLull) = false :=
    decide_eq_false fun hboth => hlanes.elim hboth.1 hboth.2
  have hgo : ¬ (!inPair s || rd s K.PAIR_LINK_STATE == 2
      || decide (pdState s 11 ≠ pdRun ∧ pdState s 11 ≠ pdLull)) = true := by
    rw [hpair, beq_false_of_ne hdown, hasleep]
    exact Bool.false_ne_true
  subst ht hu
  exact if_neg hgo

end Link

section Beacons

variable {sn role mode e rc m : Nat} {hubLost take yield_ : Bool} {s t : State}

/-- R451: a TAKE at the master names the switch instant, also where no hub reads the beacon. -/
theorem exec_beacon_taken (hmaster : s.pair.master = true) (hfirst : s.pair.switchAt = none) (hnoHub : lanokUp s = false) :
    exec (.beacon sn role mode hubLost true yield_ e rc m) s
      = .next { s with pair.switchAt := some (ceilTo ms1 (fieldNow s + 2 * ms1)) } := by
  have hnames : (true && s.pair.master && s.pair.switchAt.isNone) = true := by simp [hmaster, hfirst]
  rw [exec_beacon, execBeacon]
  simp only [if_pos hnames]
  exact congrArg _ (upd_of_not hnoHub _ _)

/-- R451: a listener that asked takes the instant the master names. -/
theorem exec_beacon_named (hnamed : m ≠ 0) (hlistens : s.pair.master = false) (hasked : s.pair.takeAt.isSome = true)
    (hnoHub : lanokUp s = false) : exec (.beacon sn role mode hubLost false yield_ e rc m) s
      = .next { s with pair.switchAt := some (m * ns1) } := by
  rw [exec_beacon, execBeacon]
  simp only [Bool.false_and, Bool.false_eq_true, if_false, if_pos (And.intro hnamed (And.intro hlistens hasked))]
  exact congrArg _ (upd_of_not hnoHub _ _)

/-- A beacon without a part for the field die is what a bridge beacon is. -/
theorem exec_beacon_hub (hup : lanokUp s = true) : exec (.beacon sn role mode hubLost false yield_ e rc 0) s
    = exec (.bridgeBeacon sn role mode hubLost false yield_ e rc) s := by
  have hunnamed : ¬ ((0 : Nat) ≠ 0 ∧ s.pair.master = false ∧ s.pair.takeAt.isSome = true) := fun hall => hall.1 rfl
  rw [exec_beacon, execBeacon]
  simp only [Bool.false_and, Bool.false_eq_true, if_false, if_neg hunnamed]
  exact congrArg _ (upd_of hup _ _)

/-- R456, R457: with the link down a peer that has lost its hub is taken over from, or leaves this hub ALONE. -/
theorem beaconFacts_hubLost (hpair : inPair s = true) (hawake : hubAsleep s = false)
    (ht : t = peerConfirm (wr K.PEER_SERIAL sn { s with
      pair.beaconAt := some (clk s), pair.beaconHubLost := true, pair.peerRole := role, pair.peerReachable := rc }))
    (hdown : pairLinkUp t = false) (hrole : rd t K.ROLE = 1 ∨ rd t K.ROLE = 2) : beaconFacts sn role true e rc s
      = if rd t K.ROLE = 2 then takeover t.pair.healthyBefore t else setPairState 4 t := by
  have hread : ¬ (!inPair s || hubAsleep s) = true := by simp [hpair, hawake]
  simp only [beaconFacts, if_neg hread, ← ht, if_true, hdown, Bool.false_eq_true, if_false]
  split
  · rfl
  · rename_i hnotStandby
    rw [if_pos (hrole.resolve_right hnotStandby)]

theorem exec_bridgeBeaconTimer_due (hpair : inPair s = true) (hmode : modeOf s = mBridge)
    (hpeer : (rdBlob s K.PEER_MGMT_ADDR).isEmpty = false) (hpast : s.pair.bridgeBeaconAt + ms1 ≤ clk s) :
    exec .bridgeBeaconTimer s = .next (emit
      (.bridgeBeacon (rdBlob s K.PEER_MGMT_ADDR) (rd s K.UDP_PORT + 1) (leBytes 8 (rd s K.SERIAL) ++ leBytes 1 (rd s K.ROLE)
        ++ leBytes 1 (modeOf s) ++ leBytes 1 0 ++ [0] ++ leBytes 4 (rd s K.EPOCH) ++ leBytes 2 (reachable s) ++ [0, 0]
        ++ leBytes 8 0)) { s with pair.bridgeBeaconAt := clk s }) := by
  have hgo : ¬ (!inPair s || modeOf s != mBridge || (rdBlob s K.PEER_MGMT_ADDR).isEmpty
      || decide (clk s < s.pair.bridgeBeaconAt + ms1)) = true := by
    rw [hpair, bne_eq_false_iff_eq.mpr hmode, hpeer, decide_eq_false (Nat.not_lt.mpr hpast)]
    exact Bool.false_ne_true
  exact congrArg _ (if_neg hgo)

end Beacons

section Splits

variable {reach c : Nat} {s t : State}

/-- R458: with neither link nor beacon a split begins, and a hub that sleeps wakes for it. -/
theorem exec_beaconTimeout_splits (hrole : rd s K.ROLE = 1 ∨ rd s K.ROLE = 2) (hsilent : beaconSilent s = true)
    (hnew : s.pair.splitAt = none) (hpeer : rd s K.PAIR_STATE ≠ 4)
    (ht : t = bump K.SPLITS { s with pair.splitAt := some (clk s), pair.holding := true, pair.holdAt := clk s }) :
    exec .beaconTimeout s = .next (if hubAsleep t = true then wakeHub 0x04 t else t) := by
  subst ht
  exact congrArg _ (if_pos ⟨hrole, hsilent, hnew, hpeer⟩)

/-- R459: a split settles by what the hub reaches. -/
theorem exec_splitSettle_due {u : Instant} (hsplit : s.pair.splitAt = some u)
    (hpast : u + rd s K.SPLIT_SETTLE * ms1 ≤ clk s) (hc : c = ownReach reach s)
    (ht : t = wr K.ENROLLED (enrolled s) (wr K.REACHABLE c s)) : exec (.splitSettle reach) s
      = .next (if rd t K.ROLE = 1 then (if countsActive c t = true then
            retryHeld (setPairState 4 { t with pair.splitAt := none, pair.holding := false }) else enterIsland t)
          else if countsActive c t = true then takeover t.pair.healthyBefore t
          else if rd t K.ROLE = 3 then t else enterIsland t) := by
  have hdue : decide (u + rd s K.SPLIT_SETTLE * ms1 ≤ clk s) = true := decide_eq_true hpast
  simp only [exec_splitSettle, execSplitSettle, hsplit, hdue, Bool.not_true, Bool.false_and, Bool.false_eq_true, if_false,
    ← hc, ← ht]

/-- R463: two seconds without a peer the counts decide between ACTIVE and ISLAND. -/
theorem exec_pairStartTimeout_due {u : Instant} (hstart : s.pair.startAt = some u) (hpast : u + 2 * s1 ≤ clk s)
    (ht : t = wr K.ENROLLED (enrolled s) (wr K.REACHABLE (ownReach reach s) s)) : exec (.pairStartTimeout reach) s
      = .next (modeStart (reselect (setPairState 4 (wr K.ROLE (if countsActive (ownReach reach s) t = true then 1 else 3)
          t)))) := by
  simp only [exec_pairStartTimeout, execPairStartTimeout, hstart, if_neg (Nat.not_lt.mpr hpast), ← ht]

end Splits

section Mastership

variable {s t : State}

/-- R451: at M mastership changes; a new master measures its nodes again. -/
theorem exec_masterSwitch_at {m : Instant} (hnamed : s.pair.switchAt = some m) (hreached : m ≤ fieldNow s)
    (ht : t = { s with
      pair.master := !s.pair.master, pair.switchAt := none, pair.takeAt := none, pair.switchDone := m
      pair.masterChange := !s.pair.master }) : exec .masterSwitch s = .next (if s.pair.master = false then
        { t with fld.nodes := tabMap {} t.fld.nodes (fun _ x => { x with calib := 0 }) } else t) := by
  subst ht
  simp only [exec_masterSwitch, execMasterSwitch, hnamed, if_neg (Nat.not_lt.mpr hreached), Bool.not_eq_true']

theorem exec_takeTimeout_unanswered {u : Instant} (hasked : s.pair.takeAt = some u) (hunnamed : s.pair.switchAt = none)
    (hpast : u + 3 * ms1 ≤ fieldClk s) :
    exec .takeTimeout s = .next { s with pair.switchAt := some (ceilTo ms1 (fieldNow s)) } := by
  have hgo : (s.pair.switchAt.isNone && decide (u + 3 * ms1 ≤ fieldClk s)) = true := by
    rw [hunnamed, decide_eq_true hpast]
    rfl
  simp only [exec_takeTimeout, execTakeTimeout, hasked, if_pos hgo]

end Mastership

/-- Settles O54: the link by its timers, beacons by what they say of the peer's hub, splits by the counts. -/
theorem pairIsWatched : Obligations.PairIsWatched := by
  unfold Obligations.PairIsWatched
  refine ⟨?heartbeat, ?again, ?lost, ?silent, ?trains, ?taken, ?named, ?sameAsBridge, ?hubLost, ?bridgeTimer, ?split,
    ?settles, ?master, ?unanswered, ?start⟩
  case heartbeat => exact fun s hup hpast => exec_pairHeartbeatSend_due hup hpast
  case again => exact fun s t q tries t0 m rest hunacked hpast hfew ht => exec_pairResend_again hunacked hpast hfew ht
  case lost => exact fun s q tries t0 m rest hunacked hpast hmany => exec_pairResend_lost hunacked hpast hmany
  case silent => exact fun s hup hpast => exec_pairLinkDown_silent hup hpast
  case trains => exact fun s t u hpair hdown hlanes ht hu => exec_pairLinkUp_trains hpair hdown hlanes ht hu
  case taken => exact fun sn role mode e rc m hl y s hmaster hfirst hnoHub => exec_beacon_taken hmaster hfirst hnoHub
  case named =>
    exact fun sn role mode e rc m hl y s hnamed hlistens hasked hnoHub => exec_beacon_named hnamed hlistens hasked hnoHub
  case sameAsBridge => exact fun sn role mode e rc hl y s _ hup => exec_beacon_hub hup
  case hubLost =>
    intro sn role mode e rc tk y s t hpair hawake ht hdown hrole
    rw [exec_bridgeBeacon, execBridgeBeacon, beaconFacts_hubLost hpair hawake ht hdown hrole]
  case bridgeTimer => exact fun s hpair hmode hpeer hpast => exec_bridgeBeaconTimer_due hpair hmode hpeer hpast
  case split => exact fun s t hrole hsilent hnew hpeer ht => exec_beaconTimeout_splits hrole hsilent hnew hpeer ht
  case settles =>
    intro reach c s t u hsplit hpast hc ht
    rw [exec_splitSettle_due hsplit hpast hc ht]
    by_cases hcounts : countsActive c t = true
    · simp only [if_pos hcounts]
    · simp only [if_neg hcounts]
      by_cases hactive : rd t K.ROLE = 1
      · rw [if_pos hactive, if_neg (by simp [hactive])]
      · rw [if_neg hactive]
  case master => exact fun s t m hnamed hreached ht => exec_masterSwitch_at hnamed hreached ht
  case unanswered => exact fun s u hasked hunnamed hpast => exec_takeTimeout_unanswered hasked hunnamed hpast
  case start => exact fun reach s t u hstart hpast ht => exec_pairStartTimeout_due hstart hpast ht

end Sys2Proof.Machine
